-- ==== Sys2Proof/Word.lean ====
section
/-! DEFINITION. Word.lean: the word types of the model and their plainest arithmetic: register words, bytes, ticks of
the 40 ns time base (R6), the rounding directions of R9 and R10 and the saturating sum that counters use. -/

namespace Sys2Proof

/-- A byte. -/
abbrev Byte := BitVec 8
/-- A 32-bit register word. -/
abbrev Word32 := BitVec 32
/-- A frame number, 32 bits and wrapping (R8). -/
abbrev FrameNo := BitVec 32
/-- A count of 40 ns ticks (R6); the master count stays below 2^64. -/
abbrev Tick := Nat

/-- The sum of two counts, held at the largest value of a counter of w bits. -/
def satAdd (w a b : Nat) : Nat := min (a + b) (2 ^ w - 1)

/-- Division rounding toward plus infinity (R9). -/
def ceilDiv (a b : Nat) : Nat := (a + b - 1) / b

/-- Integer division rounding toward minus infinity (R9). -/
def floorDivI (a : Int) (b : Nat) : Int := Int.fdiv a (Int.ofNat b)

/-- Integer division rounding toward plus infinity (R9). -/
def ceilDivI (a : Int) (b : Nat) : Int := - Int.fdiv (-a) (Int.ofNat b)

/-- a / b rounded to the nearest integer, ties to even (R10). -/
def roundDiv (a : Int) (b : Nat) : Int :=
  let q := Int.fdiv a (Int.ofNat b)
  let r := a - q * Int.ofNat b
  if 2 * r < Int.ofNat b then q
  else if 2 * r > Int.ofNat b then q + 1
  else if q % 2 = 0 then q else q + 1

/-- A value held to a range from lo to hi. -/
def clampI (lo hi x : Int) : Int := max lo (min hi x)

/-- The signed value of the low w bits of n. -/
def signed (w n : Nat) : Int :=
  let m := n % 2 ^ w
  if m < 2 ^ (w - 1) then Int.ofNat m else Int.ofNat m - Int.ofNat (2 ^ w)

/-- The w-bit two's complement pattern of x. -/
def pattern (w : Nat) (x : Int) : Nat := (x % Int.ofNat (2 ^ w)).toNat

/-- The largest natural number whose square is at most n, by bisection on bits. -/
def isqrtBits : Nat → Nat → Nat → Nat
  | 0, _, acc => acc
  | b + 1, n, acc =>
    let t := acc + 2 ^ b
    if t * t ≤ n then isqrtBits b n t else isqrtBits b n acc

/-- Integer square root of a number below 2^192. -/
def isqrt (n : Nat) : Nat := isqrtBits 96 n 0

/-- Little-endian bytes of the low 8·k bits of n (R11). -/
def leBytes : Nat → Nat → List Byte
  | 0, _ => []
  | k + 1, n => BitVec.ofNat 8 (n % 256) :: leBytes k (n / 256)

/-- The number that little-endian bytes hold (R11). -/
def ofLe : List Byte → Nat
  | [] => 0
  | b :: bs => b.toNat + 256 * ofLe bs

/-- Modulo-2^32 distance from frame a to frame b (R8). -/
def frameDist (a b : FrameNo) : Nat := (b - a).toNat

end Sys2Proof
end

