-- ==== Sys2Proof/Syntax.lean ====
section
/-! DEFINITION. Syntax.lean: the commands of the block, one constructor of Instr per row of spec/opcode_table.json, and
the types of their operands. An operand is what reaches the device from outside at that step: a register address and
value, a received frame, a measured outcome of a test, a duration a timer has reached. -/

namespace Sys2Proof

/-- Who issues a management access (the reach table of chapter 01, R23). -/
inductive Requester where
  | warden | jtag | host | conductor | steward (c : Fin 8) | dma
deriving DecidableEq, Repr

/-- A sweep tile c.t. -/
structure TileId where
  c : Fin 8
  t : Fin 8
deriving DecidableEq, Repr

/-- A port that a client may use (PORT of R340); the vehicle bus has two kinds of port (R527). -/
inductive Port where
  | supervisor | guidance | isobus
deriving DecidableEq, Repr

/-- A candidate record in its fields (R184). Curvatures in 1/4096 per m, speeds in 1/1024 m/s. -/
structure Cand where
  score : Nat
  layer : Fin 16
  hitch : Fin 4
  kind : Fin 4
  client : Nat
  k1 : Int
  k2 : Int
  k3 : Int
  k4 : Int
  v1 : Int
  v2 : Int
deriving DecidableEq, Repr

/-- A pose-track entry (R195): the state of the machine at a tick, in the units of R198. -/
structure Pose where
  tick : Tick
  x : Int
  y : Int
  z : Int
  thetas : List (BitVec 32)
  kappa : Int
  v : Int
  zh : Int
  down : Bool
deriving DecidableEq, Repr

/-- A GNSS fix as the pose track holds it (R622): its stamp and the field-frame position of the vehicle origin, in 2^-20 m. -/
structure GnssFix where
  stamp : Tick
  fx : Int
  fy : Int
  fz : Int
deriving DecidableEq, Repr

/-- A de-skewed measurement that World fuses (R113 to R116): the voxel-frame position of the point and of the sensor
origin at the point's time, in 1/4096 m, and that time. -/
structure FusedPoint where
  t : Tick
  px : Int
  py : Int
  pz : Int
  ox : Int
  oy : Int
  oz : Int
deriving DecidableEq, Repr

/-- Outcome of a known-answer test slice or injection (R178, R245, R281, R316). -/
inductive TestOutcome where
  | pass | mismatch | overtime | guardFail (engine : Fin 4)
deriving DecidableEq, Repr

/-- State of a received CSI-2 packet header (R78). -/
inductive HeaderState where
  | good | corrected | uncorrectable
deriving DecidableEq, Repr

/-- NMEA 0183 sentence types (R85). -/
inductive Nmea where
  | gga | rmc | gst | vtg | hdt | zda | other
deriving DecidableEq, Repr

/-- A lidar UDP packet as the receive side sees it (R79 to R81, R93): the length of its Ethernet frame, the IEEE 802.1Q tags
on it, its addresses, whether it is an IP fragment, and its UDP payload. -/
structure LidarPkt where
  frameLen : Nat
  tags : Nat
  mac : BitVec 48
  udp : BitVec 16
  fragment : Bool
  bytes : List Byte
deriving DecidableEq, Repr

/-- A field of a lidar packet (R81): where it lies, whether it is signed, the scale by which its little-endian value becomes a
value in the model's unit, and the declared range of that value. -/
structure PtField where
  off : Nat
  len : Nat
  sgn : Bool
  num : Nat
  den : Nat
  lo : Int
  hi : Int
deriving DecidableEq, Repr

/-- A point descriptor (R81): the header's length, the point count field, the point stride; range, azimuth and elevation, or x,
y and z, in 1/4096 m and in binary angles; intensity, the point's time offset and the packet time field, in ns, and whether
that is TAI (R626). mount places the sensor on the vehicle: its position in 1/4096 m, and turn its rotation by rows in
2^-30. -/
structure PtDesc where
  hdrLen : Nat
  countOff : Nat
  countLen : Nat
  stride : Nat
  spherical : Bool
  a : PtField
  b : PtField
  c : PtField
  intensity : Option PtField
  toff : Option PtField
  ptime : Option PtField
  tai : Bool
  mount : Int × Int × Int
  turn : List Int
deriving DecidableEq, Repr

/-- A programmable event counter (R254, R579). -/
inductive CounterId where
  | sweepTile (t : TileId) (n : Fin 8)
  | infTile (c : Fin 8) (n : Fin 8)
  | steward (c : Fin 8) (n : Fin 8)
  | die (n : Fin 8)
deriving DecidableEq, Repr

/-- What issued a data-network packet (R19, R364, R366, R484, R176). -/
inductive Issuer where
  | task | wardenCore | wardenEngine | world | supervisor | infDma
deriving DecidableEq, Repr

/-- What the HBM3 device's own error correction reports with an access (R370): nothing, a number of corrections, or an
uncorrectable word. -/
inductive DevEcc where
  | clean
  | corrected (n : Nat)
  | uncorrectable
deriving DecidableEq, Repr

/-- One data-network packet (R17 to R19): the domain of its task, its issuer, the unit that runs the task (numbered as UNIT
of CND_OVR_CAP), and a read of len bytes or a write of
bytes, with the Sepia marker of a written value (R368). flips are the bits of the first word's 72 that upsets have
flipped since its last access: data bits first; dev is what the HBM3 device reports of that word. -/
structure DataPacket where
  domain : Fin 16
  issuer : Issuer
  unit : Nat
  addr : BitVec 40
  write : Option (List Byte)
  len : Nat
  sepia : Bool
  flips : BitVec 72
  dev : DevEcc
deriving DecidableEq, Repr

/-- A protected table (R378). -/
inductive TableCode where
  | client | keepOut | layers | domainMap | ranges | registers
deriving DecidableEq, Repr

/-- A memory of R363 and R387, as MEMORY of MEM_ERR_CAP codes it. -/
inductive MemKind where
  | sweepScratch | infScratch | worldCache | worldStore | selectStore | buffers | wardenSram | hbm
deriving DecidableEq, Repr

/-- A memory port of the ECC injection test (R416), by what it belongs to. -/
inductive EccPort where
  | sweepTile (t : TileId) | infTile (c : Fin 8) | selectStore | otherMemory
deriving DecidableEq, Repr

/-- A DMA transfer that arrived at a memory port (R362): its channel, its destination and its length in bytes. -/
structure DmaRequest where
  channel : Nat
  dst : BitVec 40
  len : Nat
deriving DecidableEq, Repr

/-- What a wipe covers (R383, R384): all SRAM but the Warden's, all HBM, the secure Warden SRAM, the scratch of a lease or
the region of a long operation. -/
inductive WipeRegion where
  | allSram | allHbm | secureWarden
  | leaseScratch (cls : Fin 6) (res : Nat)
  | longOp (ctx : Fin 32)
deriving DecidableEq, Repr

/-- The unit a Kermes pack targets (R417). -/
inductive KermesUnit where
  | sweep (t : TileId) | inf (c : Fin 8) | lane (n : Fin 4) | memory (m : MemKind)
deriving DecidableEq, Repr

/-- What the regulator and the sensors report at an edge (R598, R615). avs is none where the regulator did not answer. -/
structure EdgeReadings where
  avs : Option (Nat × Nat)
  vcoreMv : Nat
  tj : Int
  hbmT : Int
  eccFail : List EccPort
deriving DecidableEq, Repr

/-- A tensor of a model (R152). -/
structure TensorName where
  model : Fin 16
  id : Fin 8192
deriving DecidableEq, Repr

/-- The four words of a tensor descriptor (R152), as a model section of the image holds them. -/
structure TensorWords where
  model : Fin 16
  w0 : Word32
  w1 : Word32
  w2 : Word32
  w3 : Word32
deriving DecidableEq, Repr

/-- The activation of a requantisation (R154, R155). A table has 256 entries, the first for the input first (R157). -/
inductive Activation where
  | none
  | relu
  | clamp (lo hi : Int)
  | table (first : Int) (entries : List Int)
deriving DecidableEq, Repr

/-- Element-wise operations (R161). -/
inductive EltOp where
  | add | mul | max | min
deriving DecidableEq, Repr

/-- The geometry of a convolution or a pooling window (R161). -/
structure Window where
  kh : Nat
  kw : Nat
  stride : Nat
  dil : Nat
  padY : Nat
  padX : Nat
deriving DecidableEq, Repr

/-- The geometry of windowed attention (R161): the window, its shift, the heads and their dimension, the row shift of the softmax,
and how logits and results are brought to their tensors. -/
structure AttnGeom where
  winH : Nat
  winW : Nat
  shiftY : Nat
  shiftX : Nat
  heads : Nat
  dim : Nat
  rowShift : Nat
deriving DecidableEq, Repr

/-- The settings of a normalisation (R163), from the image: the channel groups, or 0 for one group at each position; epsilon in
2^-16 of a squared stored unit; the reciprocal-root table; the per-channel scale and offset with their exponents. -/
structure NormParams where
  groups : Nat
  eps : Nat
  table : List Nat
  scale : List Int
  offset : List Int
  eScale : Int
  eOffset : Int
deriving DecidableEq, Repr

/-- An operation of a compiled task on the tensor engines, the table unit, the gather unit or the DMA of an inference tile (R161 to
R166). Biases, tables and index vectors are the image's; order is the compiled order of accumulation (R154), as the
places of the products in ascending order of kernel row, kernel column and channel: none where it is that order. load brings
words from a data address, such as the BEV feature grid or the terrain map, into a tensor. -/
inductive InfOp where
  | load (out : TensorName) (addr : BitVec 40)
  | conv (x w out : TensorName) (g : Window) (depthwise : Bool) (bias : List Int) (order : Option (List Nat)) (act : Activation)
  | matmul (x w out : TensorName) (bias : List Int) (order : Option (List Nat)) (act : Activation)
  | attention (q k v logits out : TensorName) (g : AttnGeom)
  | norm (x out : TensorName) (p : NormParams)
  | eltwise (op : EltOp) (x y out : TensorName) (act : Activation)
  | activation (x out : TensorName) (act : Activation)
  | pool (x out : TensorName) (average : Bool) (g : Window)
  | resize (x out : TensorName) (bilinear : Bool)
  | concat (xs : List TensorName) (out : TensorName) (axis : Fin 3)
  | slice (x out : TensorName) (y0 x0 c0 : Nat)
  | transpose (x out : TensorName) (axes : Fin 6)
  | gather (src out : TensorName) (idx : List Nat)
  | bevLift (cams : List TensorName) (out : TensorName)
  | pillars (out : TensorName)
  | softmax (x out : TensorName) (shift : Nat)
deriving DecidableEq, Repr

/-- Where a camera's depth sample lies (R115): the mount of the camera on the vehicle and its rotation by rows in 2^-30, the ray of
the sample in the camera's frame in 2^-30, and the distance of one whole unit of the element's value in 2^-30 of 1/4096 m. -/
structure DepthRay where
  mount : Int × Int × Int
  turn : List Int
  ray : Int × Int × Int
  scale : Nat
deriving DecidableEq, Repr

/-- What one element of a network's output feeds (R170, R171, R172): of the traversability network a column's cost or class or a
depth sample; of the proposal network a field of an output slot's record (R184: 0 SCORE, 1 LK, 2 to 5 KAPPA_1 to KAPPA_4, 6
and 7 V_1 and V_2), or the score of a lattice entry, or of its copy for a goal request's client. -/
inductive OutputRole where
  | travCost (col : Int × Int) (scale : Nat)
  | semClass (col : Int × Int)
  | depth (r : DepthRay)
  | proposal (slot : Nat) (field : Fin 8)
  | latticeScore (entry : Nat)
  | goalScore (client entry : Nat)
deriving DecidableEq, Repr

/-- What a completed task has done (R319): nothing beyond its flags; a pose-track update of the localisation tasks; or the
operations of a network's task, each with the engine that it ran on, with the elements of its output tensors that feed something beyond the network,
by element number. src names the camera sample that a traversability task ran on; last says that with it the proposal
network of the frame is complete. -/
inductive TaskResult where
  | plain
  | poseTrack (entries : List Pose) (fix : Option GnssFix)
  | network (ops : List (Fin 4 × InfOp)) (outs : List (TensorName × List (Nat × OutputRole))) (src : Option (Fin 16 × Tick))
      (last : Bool)
deriving DecidableEq, Repr

/-- A projection entry of BEV lifting (R165), as the image holds it: for a BEV column, given by its position in the output tensor, a
height bin and a camera, the position in the camera's feature tensor; none where it is marked invalid. -/
structure ProjEntry where
  y : Nat
  x : Nat
  bin : Fin 16
  cam : Fin 16
  pos : Option (Nat × Nat)
deriving DecidableEq, Repr

/-- A request header and body (R342). -/
structure ReqUnit where
  client : Nat
  sub : Nat
  tag : Word32
  arg : Word32
  reservedClear : Bool
  recs : List Cand
deriving DecidableEq, Repr

/-- A goal body (R342): positions in 1/4096 m of the local frame, heading, origin generation and tolerance. -/
structure Goal where
  gx : Int
  gy : Int
  heading : BitVec 16
  originGen : BitVec 16
  gtol : Nat
deriving DecidableEq, Repr

/-- One Woad link frame (R434): its sequence number, the transport message that it carries, if any, in its bytes (R437), and
its CRC-32. -/
structure LinkFrame where
  seq : BitVec 16
  body : List Byte
  crc : Word32
deriving DecidableEq, Repr

/-- A received HELLO (R439, R441): position, device public key (x then y), certificate and nonce. -/
structure HelloMsg where
  posB : Bool
  pub : List Byte
  cert : List Byte
  nonce : BitVec 256
deriving DecidableEq, Repr

/-- A received CONFIG (R440). twinRuns says that its sender was running already, so that a join follows (R443). -/
structure ConfigMsg where
  image : BitVec 256
  rom : Word32
  fw : Word32
  lc : Nat
  dbgLock : Bool
  prot : Nat
  twinRuns : Bool
deriving DecidableEq, Repr

/-- A received EDGE (R446). -/
structure EdgeMsg where
  frame : FrameNo
  tick : Tick
  state : Nat
  restart : Bool
  transmitting : Bool
  swapGen : Nat
deriving DecidableEq, Repr

/-- A refined record (R287). -/
structure RefinedRec where
  src : Nat
  cand : Cand
  iter : Nat
  warm : Bool
  rk : List Int
  rv : List Int
  jq : Nat
deriving DecidableEq, Repr

/-- A trajectory's record: a candidate record or a refined record (OKIND of R449). -/
inductive Record where
  | candidate (index : Nat) (c : Cand)
  | refined (r : RefinedRec)
deriving DecidableEq, Repr

/-- A twin's offer (R449). -/
structure Offer where
  frame : FrameNo
  edgeTick : Tick
  age : Nat
  cost : Nat
  clearance : Int
  originGen : BitVec 16
  record : Option Record
  restart : Bool
  doubt : BitVec 16
  audit : BitVec 256
  edgeState : Pose
deriving DecidableEq, Repr

/-- A staged value of a pair swap: register or client-table address and value (R462). -/
structure StagedVal where
  addr : Nat
  val : Word32
deriving DecidableEq, Repr

/-- What stands in the staged copies that are no registers when a swap opens (R378): the keep-out sets that were written
anew, by set; the shared-unit grants of the domain map, by memory code and domain, where they were written; and whether a
tweak number was written (R489). -/
structure StagedTables where
  keepOut : List (Fin 8 × List (List (Int × Int)))
  grants : Option (List (Nat × Fin 16))
  tweaks : Bool
deriving DecidableEq, Repr

/-- A pair swap as the journal of R443 holds it: its register values and its staged tables. -/
structure PairSwap where
  vals : List StagedVal
  tables : StagedTables
deriving DecidableEq, Repr

/-- A received PROPOSE (R462): digest is that of the staged values. recentre carries the shift to a proposed origin. -/
structure ProposeMsg where
  s : FrameNo
  mask : BitVec 13
  vals : List StagedVal
  tables : StagedTables
  digest : BitVec 256
  recentre : Option (Int × Int)
deriving DecidableEq, Repr

/-- The format of a CAN frame (R506). -/
inductive CanFormat where
  | classical | fd | xl
deriving DecidableEq, Repr

/-- A received CAN frame (R506, R507, R627). srcAddr and pgn are those of a 29-bit ISOBUS identifier. -/
structure CanFrame where
  format : CanFormat
  ext : Bool
  remote : Bool
  sec : Bool
  ident : BitVec 29
  sdt : Byte
  vcid : Byte
  af : Word32
  data : List Byte
deriving DecidableEq, Repr

/-- A transport-protocol event on the ISOBUS port (R509). -/
inductive TpEvent where
  | bam (size : Nat) (pgn : BitVec 18)
  | rts (size : Nat) (pgn : BitVec 18)
  | data (seq : Nat) (bytes : List Byte)
  | abort
deriving DecidableEq, Repr

/-- Why a transmitted CAN part was not acknowledged (R519, R530). -/
inductive TxFault where
  | error | arbitration
deriving DecidableEq, Repr

/-- One body of a machine (R191). -/
structure Body where
  bkind : Fin 3
  parent : Nat
  h : Int
  d : Nat
  jointMax : Nat
deriving DecidableEq, Repr

/-- One sphere of a layer (R205), lengths in 1/1024 m. -/
structure Sphere where
  sx : Int
  sy : Int
  sz : Int
  radius : Nat
  margin : Nat
  body : Nat
  hitchZ : Bool
  activeUp : Bool
  activeDown : Bool
  rho : Nat
deriving DecidableEq, Repr

/-- A geometry layer (R204). The range-guard bounds of R631 stand with it. -/
structure Layer where
  articulated : Bool
  mounted : Bool
  vFwdMax : Nat
  vRevMax : Nat
  aMax : Nat
  kappaMax : Nat
  dkappaMax : Nat
  hitchMin : Int
  hitchMax : Int
  hitchRate : Nat
  downZ : Int
  minExtra : Nat
  bodies : List Body
  spheres : List Sphere
  rgPos : Nat
  rgHead : Nat
  rgJoint : Nat
  rgHitch : Nat
  rgKappa : Nat
  rgSpeed : Nat
  rgSum : Nat
deriving DecidableEq, Repr

/-- A task node descriptor (R318) with its successor list (R319). -/
structure NodeDesc where
  mask : Word32
  prio : Fin 8
  bounded : Bool
  phase : Fin 8
  domain : Fin 16
  unitClass : Fin 8
  repl : Bool
  flow : Option (Fin 256)
  budget : Nat
  waitTo : Nat
  succ : List (Fin 4096 × Fin 32)
deriving DecidableEq, Repr

/-- A task node as the image holds it (R318): the four words of its descriptor and its successor list (R319). -/
structure NodeWords where
  w0 : Word32
  w1 : Word32
  w2 : Word32
  w3 : Word32
  succ : List (Fin 4096 × Fin 32)
deriving DecidableEq, Repr

/-- How the dataflow graph reads a stream (R55), and what the image declares of it. period is the nominal sample period
in ticks (R99); slice is the slice capacity of a lidar stream (R93), mac and udp its source address and port (R72) and points
its point descriptor (R81); bytes is the length of an IMU burst (R83); setup the strings that a GNSS port's transmit line
sends at start (R85); ring the data address and length of the stream's snapshot ring or ingress buffer (R91). -/
structure StreamDecl where
  readSnap : Bool
  readEpoch : Bool
  period : Nat
  slice : Nat
  mac : BitVec 48
  udp : BitVec 16
  points : Option PtDesc
  bytes : Nat
  checksum : Bool
  terminator : Nmea
  setup : List Byte
  ring : Nat × Nat
deriving DecidableEq, Repr

/-- An acceptance filter (R507). name is an entry of the NAME table, used on the ISOBUS port (R514). -/
structure CanFilter where
  port : Fin 4
  ident : BitVec 29
  mask : BitVec 29
  pgn : BitVec 18
  name : Option (Fin 64)
  stream : Fin 36
deriving DecidableEq, Repr

/-- A binding of a vehicle-bus sender to a client (R526). -/
structure Binding where
  port : Port
  reqId : BitVec 29
  ansId : BitVec 29
  name : Option (Fin 64)
  client : Nat
deriving DecidableEq, Repr

/-- A permanent obstacle of the field prior (R622), lengths in 1/4096 m. A box's yaw is a 16-bit binary angle. -/
inductive PriorShape where
  | cylinder (cx cy : Int) (radius : Nat) (zlo zhi : Int)
  | box (cx cy : Int) (hx hy : Nat) (yaw : BitVec 16) (zlo zhi : Int)
deriving DecidableEq, Repr

/-- A crop zone (R622): its polygon and its pass-through height in 1/128 m. -/
structure CropZone where
  poly : List (Int × Int)
  pass : Nat
deriving DecidableEq, Repr

/-- One grid entry of the prior (R622): the field-frame column, and its height and cost where present. -/
structure PriorCol where
  i : Int
  j : Int
  height : Option Int
  cost : Option Nat
deriving DecidableEq, Repr

/-- One chunk of a field prior as the map loader converts it (R136, R351, R622). -/
structure PriorChunk where
  cols : List PriorCol
  zones : List CropZone
  shapes : List PriorShape
  keepOut : List (List (List (Int × Int)))
deriving DecidableEq, Repr

/-- How a work unit of a long operation ended (R353, R354, R351). row is one piece of a long row with its k (R279); sepia
says that the unit read Sepia (R354). -/
inductive UnitResult where
  | plain
  | sepia
  | mapChunk (chunk : PriorChunk)
  | modelDigest (model : Fin 16)
  | report
  | row (k : Nat) (keys : List Nat)
deriving DecidableEq, Repr

/-- A model of the image (R152, R177, R546, R547): its section and domain, whether Scesify marks it required, the digest of its
weights as decrypted, and its region bases in HBM and in inference scratch. The start takes secIndex and required from
the section itself. -/
structure ModelSec where
  model : Fin 16
  secIndex : Nat
  required : Bool
  domain : Fin 16
  digest : BitVec 256
  hbmBase : Nat
  scratchBase : Nat
deriving DecidableEq, Repr

/-- The content of a Mevar image that the device works from (R546): every value the manual gives as from the image.
regInit lists register field values as (live address, lowest bit, value), limits the declared limits of R624 as (live
address, lowest bit, least, largest). faultLog, weights and opRegions place regions of HBM as (first address, length),
opRegions by long-operation context first; leaseRegions places the scratch of leased resources, by class and number
first; copyAt places the image copy (R551), telemRing and auditRing the rings of R69 and R585, by domain. packs are the Kermes
packs, by number, unit class (0 sweep tile, 1 inference tile, 2 lane, 3 memory) and digest of the expected results (R417);
hostRoster holds the roster keys (R491). tensors are the descriptors of R152, projections the entries of R165, and travFlags the flags that a sample of a camera
stream on which the traversability network runs sets (R171); slvRanges the declared ranges of solver variables, by kind, with
whether they are critical (R298, R300), and wDyn W_DYN in 1/256 (R289). -/
structure Image where
  prot : Fin 4
  digest : BitVec 256
  kermesDigest : BitVec 256
  fwVersion : Word32
  fwDigest : BitVec 256
  fwSecurity : Nat
  fwFloor : Nat
  ownerDigest : BitVec 256
  regInit : List (Nat × Nat × Nat)
  limits : List (Nat × Nat × Nat × Nat)
  deviceLocal : List Nat
  streams : List StreamDecl
  layers : List (Fin 16 × Layer)
  footprint : List (Int × Int)
  originH : Int
  keepOut : List (List (List (Int × Int)))
  nodes : List (Nat × NodeWords)
  sequencers : List (Nat × Fin 8)
  opNodes : List (Nat × Nat)
  flowTo : List (Fin 256 × Nat)
  motionClient : List (Fin 16 × Nat)
  shares : List (Fin 16 × Nat)
  sharedOpen : List (Nat × Fin 16)
  suppliedEn : List (Fin 16)
  lattice : List Cand
  models : List ModelSec
  pairRoster : List (BitVec 256)
  hostRoster : List (Option (List Byte))
  measurements : List (BitVec 384)
  filters : List CanFilter
  bindings : List Binding
  names : List (BitVec 64)
  ownName : BitVec 64
  saPref : Nat
  hbId : BitVec 29
  sdt : Byte
  statPgn : BitVec 18
  priorPresent : Bool
  crcTable : Bool
  hostWriteMask : BitVec 13
  hostReadRanges : List (Nat × Nat)
  enetAddr : List (BitVec 128)
  ochreAddr : BitVec 128
  kermesOk : Bool
  packs : List (Nat × Fin 4 × BitVec 256)
  faultLog : Nat × Nat
  copyAt : Nat
  telemRing : List (Fin 16 × Nat)
  auditRing : List (Fin 16 × Nat)
  weights : List (Nat × Nat)
  opRegions : List (Nat × Nat × Nat)
  leaseRegions : List (Nat × Nat × Nat × Nat)
  tensors : List TensorWords
  projections : List ProjEntry
  slvRanges : List (Nat × Nat × Bool)
  wDyn : Nat
  travFlags : List (Fin 16 × List (Fin 4096 × Fin 32))
deriving DecidableEq, Repr

/-- What one flash device yields when it is read (R540 to R542): the bytes that are not 0xFF, by flash address. -/
structure FlashRead where
  cells : List (Nat × Byte)
deriving DecidableEq, Repr

/-- Everything outside the die that a cold start depends on (R551 to R554): straps, training, the flashes, the image
they hold, start-up tests, the warm-up and the crystal and sensor state. -/
structure BootEnv where
  twinPos1 : Bool
  twinPos0 : Bool
  bootSel : Bool
  hbmChannels : BitVec 16
  flash0 : FlashRead
  flash1 : FlashRead
  failTiles : List TileId
  failInf : List (Fin 8)
  failSelect : Bool
  failLanes : List (Fin 4)
  failOther : Bool
  loadMs : Nat
  firstMs : Nat
  ticks : Tick
  image : Image
  pose : List Pose
  lidarFused : List (Fin 36)
  nonce : Word32
  tweaks : List (Word32)
deriving DecidableEq, Repr

/-- How a fabric restart ran (R412, R570): failing start-up tests, and what the flashes yield to a section read again. -/
structure RestartEnv where
  failTiles : List TileId
  failInf : List (Fin 8)
  failSelect : Bool
  failLanes : List (Fin 4)
  failOther : Bool
  flash0 : FlashRead
  flash1 : FlashRead
deriving DecidableEq, Repr

/-- The triggers of R411, in the order in which R423 numbers them. -/
inductive RestartTrigger where
  | madder | conductor | select | injection | persist | command
deriving DecidableEq, Repr

/-- Woad link loss, by its condition in R435. -/
inductive LinkLoss where
  | blockLock | retries | silence
deriving DecidableEq, Repr

/-- A wake source (R609). -/
inductive WakeSource where
  | ign | wakeN | alarm
deriving DecidableEq, Repr

/-- Hardware upset between the sweep and Madder: a finding that the model's own data do not explain (R399 says that a
rejection shows some step went wrong). cause, pose, sphere and shortfall are those of the R399 detail. -/
structure Upset where
  cause : Fin 8
  pose : Fin 64
  sphere : Fin 32
  shortfall : BitVec 16
deriving DecidableEq, Repr

/-- What a GPTP Sync exchange yields on a slave port (R82, R105): the grandmaster's TAI time in ns at the tick of the
Sync message, and the rate error measured against it in ppb. -/
structure GptpObs where
  taiNs : Nat
  rateErr : Int
deriving DecidableEq, Repr

/-- What a PPS edge carries besides its tick (R86, R103, R105): the width of the pulse in ns, the rate error measured
against it in ppb and the TAI second it marks in ns, where the sentences have named it. -/
structure PpsObs where
  widthNs : Nat
  rateErr : Int
  taiNs : Option Nat
deriving DecidableEq, Repr

/-- The fields of an NMEA sentence that a stamp and the choice of source need (R85, R87, R106): its type, whether its
checksum is right, the UTC time of its epoch in ns if it carries one, and whether it reports a valid fix. -/
structure NmeaMsg where
  kind : Nmea
  sumOk : Bool
  utcNs : Option Nat
  fixValid : Bool
  bytes : List Byte
deriving DecidableEq, Repr

/-- An upset that a read of a gather meets (R236): the element whose word it strikes, and the bits that it flips. -/
structure GatherUpset where
  place : Fin 16
  flips : BitVec 72
deriving DecidableEq, Repr

/-- A received Address Claimed (R510, R511): the NAME and the source address it claims. -/
structure ClaimMsg where
  name : BitVec 64
  sa : Byte
deriving DecidableEq, Repr

/-- A received heartbeat frame on HB_ID (R523): its data, byte 0 of which is its counter. -/
structure HeartbeatMsg where
  data : List Byte
deriving DecidableEq, Repr

/-- The commands of the block: one constructor per row of spec/opcode_table.json, in the table's order. -/
inductive Instr where
  | frameEdge (r : EdgeReadings)
  | proposeHardStop (infTest : TestOutcome) (written : List (Fin 16 × Nat))
  | sweepHardStop
  | selectHardStop (merged : Nat)
  | refineHardStop (factorising : List (Fin 4))
  | verifyHardStop (digestLate : Bool)
  | emitHardStop (late : Bool)
  | mutexForce (resource : Nat) (portA portB : Nat)
  | mgmtAccessTimeout (r : Requester) (isRead : Bool) (addr : Nat)
  | registerWrite (r : Requester) (addr : Nat) (val : Word32)
  | liveTableWrite (r : Requester) (table : TableCode) (addr : Nat) (val : Word32)
  | dataPacketRoute (p : DataPacket)
  | revokeLease (cls : Fin 6) (res : Nat)
  | quarantineUnit (unit : Nat)
  | haltUnit (unit : Nat)
  | tileQuarantine (tile : TileId)
  | stwQuarWrite (r : Requester) (c : Fin 8) (bits : BitVec 8)
  | revocationConfirmTimeout (unit : Nat)
  | swpStwRelease (r : Requester) (c : Fin 8) (bits : BitVec 8)
  | infRelease (r : Requester) (c : Fin 8) (bit : Bool)
  | slvRelease (r : Requester) (bits : BitVec 4)
  | counterClear (r : Requester) (ctr : CounterId)
  | frameStart (port : Fin 8) (vc : Fin 16)
  | csi2Packet (port : Fin 8) (vc : Fin 16) (dt : BitVec 6) (hdr : HeaderState) (crcOk : Bool) (payload : List Byte)
  | frameEnd (port : Fin 8) (vc : Fin 16)
  | lidarPacket (port : Fin 4) (p : LidarPkt)
  | imuDrdy (n : Fin 2)
  | imuBurstDone (n : Fin 2) (bytes : List Byte) (sumOk : Bool)
  | nmeaSentence (n : Fin 2) (m : NmeaMsg)
  | ppsEdge (n : Fin 2) (o : PpsObs)
  | ppsMissing (n : Fin 2)
  | gptpSync (port : Fin 4) (o : GptpObs)
  | gptpSyncTimer (port : Fin 4)
  | peerDelayTimer (port : Fin 4) (delayNs : Nat)
  | arpRequest (port : Fin 4) (v6 : Bool) (target : BitVec 128)
  | linkLost (stream : Fin 36)
  | linkReturned (stream : Fin 36)
  | testPeriod (stream : Fin 36)
  | testItemInject (stream : Fin 36)
  | testItemDone (stream : Fin 36) (processed : List Byte)
  | testStarved (stream : Fin 36)
  | mirrorSample (stream : Fin 36) (stamp : Tick) (bytes : List Byte)
  | sliceFused (stream : Fin 36)
  | solidHoldExpiry (cell : Nat)
  | pull (unit : Nat)
  | workGrant (unit : Nat)
  | taskComplete (unit : Nat) (res : TaskResult)
  | taskBudgetExpiry (unit : Nat)
  | waitTimeout (unit : Nat)
  | leaseRequest (unit : Nat) (cls : Fin 6) (client : Option Nat) (len : Nat)
  | leaseRelease (cls : Fin 6) (res : Nat)
  | leaseRenew (cls : Fin 6) (res : Nat)
  | leaseTermExpiry (cls : Fin 6) (res : Nat)
  | leaseRevokeConfirm (cls : Fin 6) (res : Nat)
  | edgeAckTimeout
  | flowItemComplete (flow : Fin 256) (seq : Nat)
  | itemTimeout (flow : Fin 256) (seq : Nat)
  | candidateWriterStart (dom : Fin 16)
  | gatherIssue (tile : TileId)
  | gatherAnswer (tile : TileId) (which : Nat) (upsets : List GatherUpset)
  | gatherTimeout (tile : TileId) (which : Nat)
  | keyPacketSend (tile : TileId)
  | flushLead
  | l2RewriteDone (tile : TileId) (cell : Nat)
  | testSliceDone (o : TestOutcome)
  | peerCheck (c : Fin 8)
  | selectLaneAccept (lane : Fin 4)
  | selectRecord (lane : Fin 4)
  | quarantineNotice (tile : TileId)
  | selectTestDone (o : TestOutcome)
  | mergeDone
  | solverSetupDone (lane : Fin 4)
  | solverIterationDone (lane : Fin 4) (badWord badRecord : Bool)
  | laneEnd (lane : Fin 4)
  | solverTestDone (lane : Fin 4) (o : TestOutcome)
  | madderVerdict (twin : Bool) (u : Option Upset)
  | madderInjectionDone (rejected : Bool) (cause : Fin 8) (inTime : Bool)
  | stopLimitExpiry
  | releaseAck (port : Port) (client : Nat) (bytes : List Byte)
  | watchdogKick
  | watchdogExpiry
  | doubtPersist
  | fabricRestart (trig : RestartTrigger) (env : RestartEnv)
  | restartStepTimeout
  | safeCtlRestart (r : Requester)
  | safeCtlStop (r : Requester)
  | kermesStart (u : KermesUnit) (pack : Nat)
  | kermesPackDone (results : List Byte)
  | kermesOvertime
  | faultRecordDrain
  | dmaSegmentBoundary (port : Nat) (arrivals : List DmaRequest)
  | engineSegmentBoundary (mapLoader : Bool)
  | scrubRead (hbm : Bool) (addr : Nat) (flips : BitVec 72) (dev : DevEcc)
  | scrubLag (hbm : Bool)
  | ceWindow (m : MemKind) (bank : Nat)
  | wipeDone (region : WipeRegion) (readBackOk : Bool)
  | pathCheck (port : Port) (q : ReqUnit)
  | planToGoal (port : Port) (q : ReqUnit) (g : Goal)
  | goalWaitExpiry (client : Nat) (tag : Word32)
  | corridorWatch (port : Port) (q : ReqUnit)
  | corridorWatchEnd (port : Port) (q : ReqUnit)
  | start (port : Port) (q : ReqUnit) (params : List Byte)
  | suspend (port : Port) (q : ReqUnit)
  | resume (port : Port) (q : ReqUnit)
  | cancel (port : Port) (q : ReqUnit)
  | query (port : Port) (q : ReqUnit)
  | workUnitEnd (ctx : Fin 32) (final : Bool) (r : UnitResult)
  | workUnitTimeout (ctx : Fin 32)
  | woadLinkDown (cause : LinkLoss)
  | woadLinkUp
  | woadLinkFrame (f : LinkFrame)
  | helloTimer
  | hello (m : HelloMsg)
  | config (m : ConfigMsg)
  | pairWaitExpiry
  | edge (m : EdgeMsg)
  | delayExchangeTimer
  | delayReq (sent : Tick)
  | delayResp (t1 t2 t3 t4 : Tick) (taiA : Int)
  | digest (frame : FrameNo) (ds : List (BitVec 256))
  | propose (m : ProposeMsg)
  | ack (s : FrameNo)
  | refuse (s : FrameNo) (reason : Nat)
  | commit (s : FrameNo)
  | commitAck (s : FrameNo)
  | journal (entries : List PairSwap) (s : FrameNo)
  | abdicate (frame : FrameNo) (code : BitVec 16)
  | takeoverSilence
  | offer (o : Offer)
  | verdict (frame : FrameNo) (subjectTwin : Bool) (v : Fin 4) (detail : BitVec 64)
  | emitted (frame : FrameNo) (source : Fin 3)
  | eligHoldExpiry
  | xlateExpiry
  | rejoinCountExpiry
  | jtagBypass
  | jtagIdcode
  | jtagSamplePreload
  | jtagExtest
  | jtagDebug
  | lcGo (r : Requester)
  | lcTokenDone
  | kxGo (r : Requester)
  | kxDone
  | tamperTrip (src : Fin 4)
  | meshCheck (ok : Bool)
  | cmdDoorbell (r : Requester) (tail : BitVec 12) (descs : List (BitVec 128))
  | hostMessage (bytes : List Byte)
  | completionWrite
  | deviceMsgTimeout
  | ringDisable (r : Requester)
  | canFrameRx (port : Fin 4) (f : CanFrame)
  | addressClaimStart
  | addressClaimTimer
  | addressClaimed (m : ClaimMsg)
  | requestPgn (pgn : BitVec 18) (src dst : Byte)
  | tpMessage (src : Byte) (ev : TpEvent)
  | clientUnit (ident : BitVec 29) (name : Option (BitVec 64)) (port : Port) (bytes : List Byte)
  | heartbeatRx (m : HeartbeatMsg)
  | hbTimeoutExpiry
  | bundlePartTxDone
  | canTxError (why : TxFault)
  | guidanceBundleRx (frame : FrameNo) (part0 : Bool) (bytes : List Byte)
  | busOff (port : Fin 4)
  | busOffRecovered (port : Fin 4)
  | busOffHoldExpiry (port : Fin 4)
  | statPeriodTimer
  | ochreDatagram
  | ochreKeepalive
  | ochreResendRequest (bytes : List Byte)
  | plcaBeaconLost
  | plcaBeaconReturned
  | powerGood
  | pwrgdTimeout
  | porRelease (e : BootEnv)
  | swapRequest (r : Requester) (mask : BitVec 13) (t : StagedTables)
  | swapCancel (r : Requester)
  | stageReport (subsystem : Fin 13)
  | stageLimitExpiry
  | replayEnter (r : Requester)
  | replayExit (r : Requester)
  | replayUnit (bytes : List Byte)
  | replayFrameEnd
  | pwrgdLost
  | vcoreOutOfRange
  | vcoreTargetWrite (r : Requester) (target : BitVec 16)
  | avsNoAnswer
  | tjWarn
  | hbmHot
  | hbmWarn
  | thermalShutdown
  | ignHoldExpiry
  | sleep (r : Requester)
  | wake (src : WakeSource)
  | vbatLoss
  | trimAdjust
  | vbatPowerUp
  | hbmCool
  | tpSessionTimeout (src : Byte)
  | gptpSyncTimeout (port : Fin 4)
  | supLinkUp (speed width : Nat)
  | supLinkDown
deriving DecidableEq, Repr

end Sys2Proof
end

