-- ==== Sys2Proof/Config.lean ====
section
/-! DEFINITION. Config.lean: what the spec leaves open: opaque constants without a body. A free value is
Config.freeValue at a counter that the step reads and advances (State.free). The cryptographic functions stand here
too: the spec names the algorithms and the model uses nothing of them but that they are functions. -/

namespace Sys2Proof.Config

/-- A free value: nothing constrains it. -/
opaque freeValue : Nat → Nat

/-- The CODE, class and event in 16 bits, of an event that the spec has recorded and to which R423 gives no CODE; the
argument says which (the assumption log lists them). -/
opaque codeOf : Nat → Nat

/-- The severity, modulo 5, of a recorded event to which the spec gives none; the argument says which. -/
opaque severityOf : Nat → Nat

/-- The entries of EXP_TAB beyond the first (R162). -/
opaque expTab : Nat → Nat

/-- The entries of RECIP_TAB (R162): the reciprocal of a mantissa, in 2^-31. -/
opaque recipTab : Nat → Nat

/-- The weights of the four neighbours of an element of a bilinear resize (R161), by the phase of its position and the
neighbour. -/
opaque resizeWeight : Nat → Nat → Nat

/-- How many entries beyond 16 the FIFO of an interface has (R36). -/
opaque fifoMore : Nat → Nat

/-- The test item of a stream in a frame (R95). -/
opaque testItem : Nat → Nat → List Byte

/-- SHA3-256 of a sequence of bytes (FIPS 202). -/
opaque sha3 : List Byte → BitVec 256

/-- HKDF with SHA-384 (RFC 5869): input keying material, salt and info; the output as a little-endian number, of which a user
takes as many bytes as it needs. -/
opaque hkdf : List Byte → List Byte → List Byte → Nat

/-- AES-256-GCM (SP 800-38D): key, initialisation vector, additional data and plaintext; the ciphertext followed by its tag. -/
opaque gcmSeal : List Byte → List Byte → List Byte → List Byte → List Byte

/-- The opening of what AES-256-GCM sealed: the plaintext, where the tag verifies. -/
opaque gcmOpen : List Byte → List Byte → List Byte → List Byte → Option (List Byte)

/-- An ephemeral P-384 public key (R492), x then y, from its random private key. -/
opaque ecPublic : Nat → List Byte

/-- The x-coordinate of ECDH with an ephemeral private key (R492). -/
opaque ecdhEphemeral : Nat → List Byte → List Byte

/-- The x-coordinate of ECDH with the device's private key (R474, R487), by device. -/
opaque ecdhDevice : BitVec 128 → List Byte → List Byte

/-- The device's public key (R439, R501), x then y, and its certificate (R472), by device. -/
opaque devicePublic : BitVec 128 → List Byte
opaque deviceCert : BitVec 128 → List Byte

/-- ECDSA under the device's private key (R501), r then s, by device. -/
opaque ecdsa : BitVec 128 → List Byte → List Byte

/-- An ECDSA signature over a message verifies under a public key (R471): key, message, signature. -/
opaque ecdsaOk : List Byte → List Byte → List Byte → Bool

/-- A certificate chain leads from a root whose digest is named to a public key (R548, R549): digest, chain, key. -/
opaque chainOk : BitVec 256 → List Byte → List Byte → Bool

/-- The certificate chain that follows a report (R493), by device. -/
opaque certChain : BitVec 128 → List Byte

/-- The digests of the vendor keys in the boot ROM (R470): 0 the root, 1 the factory key, 2 the RMA key. -/
opaque romKeyDigest : Nat → BitVec 256

/-- The version of the boot ROM (R440, R501, R544). -/
opaque romVersion : Word32

/-- What a firmware section says of itself (R549), whose layout the spec does not give: its version, its security version, and
whether its vendor signature verifies under the root of the digest named. -/
opaque fwVersion : List Byte → Word32
opaque fwSecurity : List Byte → Nat
opaque fwSigned : BitVec 256 → List Byte → Bool

/-- TYPE of a mirror message (R436), which R440 does not list. -/
opaque mirrorType : Nat

/-- The location, in four bytes, under which the journal names a place (R568 gives an entry a location and does not say how
it is coded); the argument is the model's number of the place. -/
opaque journalLoc : Nat → Nat

end Sys2Proof.Config
end

