-- ==== Sys2Proof/Machine/Kinematics.lean ====
section
/-! DEFINITION. Machine/Kinematics.lean: the expansion of a candidate or refined record into 64 poses of a jointed
machine, bit for bit (R191 to R202, R205, R206, R209, R210, R286, R620, R629, R631). Positions are in 2^-19 m, headings
in 32-bit binary angles kept unwrapped, the hitch height in 2^-15 m. -/

namespace Sys2Proof.Machine

/-- A value held to a 32-bit register. -/
def sat32 (x : Int) : Int := clampI (-2147483648) 2147483647 x

/-- π in units of 2^-96, rounded down: the source of the sine table of R620. -/
def pi96 : Int := 248902613312231085230521944622

/-- Partial sums of the Taylor series of the sine in units of 2^-96. -/
def sineSum (x2 : Int) : Nat → Nat → Int → Int → Int
  | 0, _, _, acc => acc
  | n + 1, k, t, acc =>
    let t' := - (t * x2 / Int.ofNat ((2 * k + 2) * (2 * k + 3))) / 2 ^ 96
    sineSum x2 n (k + 1) t' (acc + t')

/-- sin(2π × q / 4,096) for q from 0 to 1,024, in units of 2^-30, to nearest (R620). -/
def sineQuarter (q : Nat) : Int :=
  let x := pi96 * Int.ofNat q / 2048
  roundDiv (sineSum (x * x / 2 ^ 96) 16 0 x x) (2 ^ 66)

/-- The entry e[i] of the sine table of R620. -/
def sineEntry (i : Nat) : Int :=
  let j := i % 4096
  let q := j % 1024
  if j < 1024 then sineQuarter q
  else if j < 2048 then sineQuarter (1024 - q)
  else if j < 3072 then - sineQuarter q
  else - sineQuarter (1024 - q)

/-- The sine of a binary angle (R620): linear interpolation in the table, to nearest at 2^-30. -/
def sinA (a : Int) : Int :=
  let n := (a % 2 ^ 32).toNat
  let i := n / 2 ^ 20
  let f := n % 2 ^ 20
  roundDiv (sineEntry i * 2 ^ 20 + (sineEntry (i + 1) - sineEntry i) * Int.ofNat f) (2 ^ 20)

/-- The cosine of a binary angle (R620). -/
def cosA (a : Int) : Int := sinA (a + 2 ^ 30)

/-- C1 of R620 in units of 2^-16: 2^32 / (2π). -/
def c1 : Int := 683565275 * 65536 + 37777

/-- C2 of R620 in units of 2^-64: 2π / 2^32, rounded up. -/
def c2 : Nat := 26986075410

/-- A binary angle as a signed 32-bit value. -/
def wrapA (a : Int) : Int := (a + 2 ^ 31) % 2 ^ 32 - 2 ^ 31

/-- The state of the machine at a sub-step boundary: the reference points of its bodies, their headings, the hitch
height in 2^-15 m, and curvature and speed in 1/1024 of the record units. -/
structure Cfg where
  pos : List (Int × Int)
  th : List Int
  z : Int
  kap : Int
  vel : Int
deriving DecidableEq, Repr

/-- A pose in the fields of R65 and R200. -/
structure BPose where
  x : Int
  y : Int
  heading : Nat
  curvature : Int
  speed : Int
  joints : List Nat
  hitch : Int
  down : Bool
  rest : Bool
deriving DecidableEq, Repr

/-- The sums of an interval for one body (R197): S and Z in 2^-19 m, TH in binary-angle units. -/
structure BSum where
  s : Int
  th : Int
  z : Int
deriving DecidableEq, Repr

/-- An expansion: the poses, the state at pose −1 and at each pose, IMPLEMENT_DOWN likewise, the sums of each interval,
the infeasibility that ended it with its CAUSE and POSE (R202, R257), the terrain term (R225), the base arc length and
the state at each sub-step boundary (R632), and the number of range-guard events. -/
structure Expn where
  poses : List BPose
  cfgs : List Cfg
  down : List Bool
  sums : List (List BSum)
  infeas : Option (Nat × Nat)
  tc : Nat
  arcs : List Int
  track : List Cfg
  guards : Nat
deriving DecidableEq, Repr

/-- What an expansion reads of the world at a column (R629): its height in 1/128 m and its cost; none outside the
terrain map. -/
abbrev Terrain := Int → Int → Option (Int × Nat)

/-- The 0.2 m column of a position in 2^-19 m (R629). -/
def colOf (p : Int) : Int := floorDivI (5 * p) (2 ^ 19)

/-- The value of a piecewise linear profile at half sub-step h, in 1/1024 of the unit of its knots (R196, R286). Knots
are (half sub-step, value). -/
def profAt : List (Nat × Int) → Nat → Int
  | (ta, a) :: (tb, b) :: rest, h =>
    if h ≤ tb then a * 1024 + (b - a) * Int.ofNat (1024 / (tb - ta)) * Int.ofNat (h - ta)
    else profAt ((tb, b) :: rest) h
  | [(_, a)], _ => a * 1024
  | [], _ => 0

/-- The curvature and speed profiles of a candidate record (R196). -/
def candProfiles (e : Pose) (c : Cand) : List (Nat × Int) × List (Nat × Int) :=
  ([(0, e.kappa), (256, c.k1), (512, c.k2), (768, c.k3), (1024, c.k4)], [(0, e.v), (512, c.v1), (1024, c.v2)])

/-- The profiles of a refined record (R286). -/
def refinedProfiles (e : Pose) (r : RefinedRec) : List (Nat × Int) × List (Nat × Int) :=
  ((0, e.kappa) :: r.rk.mapIdx (fun k x => (16 * (k + 1), x)),
   (0, e.v) :: r.rv.mapIdx (fun k x => (16 * (k + 1), x)))

/-- The follower bodies of a layer with their numbers, parents before children (R197, R620). -/
def bodyOrder (l : Layer) : List (Nat × Body) :=
  let all := l.bodies.zipIdx.map fun x => (x.2, x.1)
  let add := fun (acc : List Nat) (_ : Nat × Body) =>
    acc ++ (all.filter fun x => !acc.contains x.1 && acc.contains x.2.parent).map (·.1)
  let order := all.foldl add [0]
  (order.drop 1).filterMap fun b => all.find? fun x => x.1 = b

/-- The value that an association list holds for a body. -/
def ofBody {α : Type} (d : α) (l : List (Nat × α)) (b : Nat) : α := ((l.find? fun x => x.1 = b).map (·.2)).getD d

/-- Reference points of the bodies from the base's (R192): joint minus D along the own heading; H and D are in
1/1024 m, 512 units of 2^-19 m, and the sum is rounded once. -/
def placeBodies (l : Layer) (base : Int × Int) (th : List Int) : List (Int × Int) :=
  let ps := (bodyOrder l).foldl (fun (acc : List (Nat × (Int × Int))) x =>
    let b := x.2
    let t := th.getD x.1 0
    let tp := th.getD b.parent 0
    let pp := ofBody (0, 0) acc b.parent
    let one := 2 ^ 30
    (x.1, (roundDiv (pp.1 * one - 512 * (b.h * cosA tp + Int.ofNat b.d * cosA t)) (2 ^ 30),
           roundDiv (pp.2 * one - 512 * (b.h * sinA tp + Int.ofNat b.d * sinA t)) (2 ^ 30))) :: acc) [(0, base)]
  base :: (List.range (l.bodies.length - 1)).map fun i => ofBody (0, 0) ps (i + 1)

/-- The exact rates of a body in one sub-step: its path and its turn over dt, as numerators over denominators. -/
structure BRate where
  un : Int
  ud : Nat
  on : Int
  od : Nat

/-- Advances of the headings over a sub-step with profile values ks and vs at its midpoint (R192, R620). Rates are
formed exactly, parents before children; each advance is rounded once, after its conversion by C1. -/
def headingSteps (l : Layer) (th : List Int) (ks vs : Int) : List Int :=
  let base : BRate := ⟨vs, 160 * 2 ^ 20, ks * vs, 160 * 2 ^ 42⟩
  let d0 := roundDiv (base.on * c1) (base.od * 2 ^ 16)
  let turns := ((bodyOrder l).foldl (fun (acc : List (Nat × BRate) × List (Nat × Int)) x =>
    let b := x.2
    let p := ofBody base acc.1 b.parent
    let psi := th.getD b.parent 0 - th.getD x.1 0
    let sn := sinA psi
    let cs := cosA psi
    let r : BRate :=
      { un := 1024 * p.un * cs * Int.ofNat p.od + b.h * p.on * sn * Int.ofNat p.ud
        ud := 1024 * p.ud * p.od * 2 ^ 30
        on := 1024 * p.un * sn * Int.ofNat p.od - b.h * p.on * cs * Int.ofNat p.ud
        od := p.ud * p.od * b.d * 2 ^ 30 }
    ((x.1, r) :: acc.1, (x.1, roundDiv (r.on * c1) (r.od * 2 ^ 16)) :: acc.2)) ([(0, base)], [(0, d0)])).2
  d0 :: (List.range (l.bodies.length - 1)).map fun i => ofBody 0 turns (i + 1)

/-- The octagonal length of a step, rounded toward plus infinity (R197, R198). -/
def octagonal (dx dy : Int) : Int :=
  let a := Int.ofNat (max dx.natAbs dy.natAbs)
  let b := Int.ofNat (min dx.natAbs dy.natAbs)
  a + (b + 1) / 2

/-- One sub-step of the hitch height (R194), in 2^-15 m. HITCH_RATE is in 1/4096 m per 50 ms. -/
def hitchStep (l : Layer) (act : Nat) (z : Int) : Int :=
  if !l.mounted then 0
  else if act = 1 then min (z + Int.ofNat l.hitchRate) (max z (8 * l.hitchMax))
  else if act = 2 then max (z - Int.ofNat l.hitchRate) (min z (8 * l.hitchMin))
  else z

/-- A joint angle beyond its limit at some body 1 to 4 (R201). JOINT_MAX is a 16-bit binary angle. -/
def jointBad (l : Layer) (th : List Int) : Bool :=
  (l.bodies.drop 1).zipIdx.any fun (b, i) =>
    (wrapA (th.getD b.parent 0 - th.getD (i + 1) 0)).natAbs > b.jointMax * 2 ^ 16

/-- The limit that is broken at the end of an interval, in the order of R202: curvature, curvature change, speed or
speed change. -/
def limitCause (l : Layer) (k dk v dv : Int) : Option Nat :=
  if k.natAbs > l.kappaMax then some 6
  else if dk.natAbs > l.dkappaMax then some 7
  else if v > Int.ofNat l.vFwdMax ∨ v < - Int.ofNat l.vRevMax ∨ dv.natAbs > l.aMax then some 8
  else none

/-- The pose of a state (R200). edgeDown is the implement state of the edge. -/
def poseOf (l : Layer) (edgeDown : Bool) (c : Cfg) : BPose :=
  let p := c.pos.getD 0 (0, 0)
  let zh := roundDiv c.z 8
  let v := roundDiv c.vel 1024
  { x := roundDiv p.1 128, y := roundDiv p.2 128
    heading := (roundDiv (c.th.getD 0 0) (2 ^ 16) % 2 ^ 16).toNat
    curvature := roundDiv c.kap 1024, speed := v
    joints := (List.range 4).map fun j =>
      match l.bodies[j + 1]? with
      | some b => (roundDiv (c.th.getD b.parent 0 - c.th.getD (j + 1) 0) (2 ^ 16) % 2 ^ 16).toNat
      | none => 0
    hitch := if l.mounted then zh else 0
    down := if l.mounted then zh ≤ l.downZ else edgeDown
    rest := v = 0 }

/-- The state at the edge (R195): the pose-track entry in the units of R198; a heading the entry lacks is 0. -/
def edgeCfg (l : Layer) (e : Pose) : Cfg :=
  let th := (List.range l.bodies.length).map fun i => Int.ofNat ((e.thetas.getD i 0).toNat)
  { pos := placeBodies l (e.x * 128, e.y * 128) th, th := th, z := if l.mounted then 8 * e.zh else 0,
    kap := e.kappa * 1024, vel := e.v * 1024 }

/-- The running record of an expansion inside an interval. -/
structure SubAcc where
  cfg : Cfg
  hts : List Int
  sums : List BSum
  arc : Int
  arcs : List Int
  track : List Cfg
  bad : Option (Nat × Nat)
  guards : Nat

/-- How many variables of the expansion leave their declared ranges (R631). Positions are relative to the edge position of the
base, each heading to its own edge value. -/
def guardTrips (l : Layer) (e c : Cfg) (sums : List BSum) : Nat :=
  let e0 := e.pos.getD 0 (0, 0)
  let far := fun (v : Int) (r : Nat) => if v.natAbs > r then 1 else 0
  (c.pos.map fun p => far (p.1 - e0.1) l.rgPos + far (p.2 - e0.2) l.rgPos).sum
  + (c.th.zipIdx.map fun t => far (t.1 - e.th.getD t.2 0) l.rgHead).sum
  + ((l.bodies.drop 1).zipIdx.map fun x => far (wrapA (c.th.getD x.1.parent 0 - c.th.getD (x.2 + 1) 0)) l.rgJoint).sum
  + far c.z l.rgHitch + far c.kap l.rgKappa + far c.vel l.rgSpeed
  + (sums.map fun b => far b.s l.rgSum + far b.th l.rgSum + far b.z l.rgSum).sum

/-- One sub-step m (0 to 511) of R197, with the checks of R202 and R629 at that sub-step. -/
def subStep (l : Layer) (ter : Terrain) (act : Nat) (kp vp : List (Nat × Int)) (e : Cfg) (a : SubAcc) (m : Nat) :
    SubAcc :=
  if a.bad.isSome then a else
  let k := m / 8
  let ks := profAt kp (2 * m + 1)
  let vs := profAt vp (2 * m + 1)
  let dth := headingSteps l a.cfg.th ks vs
  let th := (a.cfg.th.zip dth).map fun (t, d) => t + d
  let w := roundDiv vs 320
  let mid := roundDiv (a.cfg.th.getD 0 0 + th.getD 0 0) 2
  let p0 := a.cfg.pos.getD 0 (0, 0)
  let base := (p0.1 + roundDiv (w * cosA mid) (2 ^ 30), p0.2 + roundDiv (w * sinA mid) (2 ^ 30))
  let pos := placeBodies l base th
  let z := hitchStep l act a.cfg.z
  let cfg : Cfg := ⟨pos, th, z, profAt kp (2 * m + 2), profAt vp (2 * m + 2)⟩
  let cells := pos.map fun p => ter (colOf p.1) (colOf p.2)
  if cells.any (·.isNone) then { a with bad := some (2, k) } else
  let hts := cells.map fun c => (c.getD (0, 0)).1
  let sums := (List.range pos.length).map fun b =>
    let o := a.sums.getD b ⟨0, 0, 0⟩
    let q := pos.getD b (0, 0)
    let r := a.cfg.pos.getD b (0, 0)
    { s := o.s + octagonal (q.1 - r.1) (q.2 - r.2)
      th := o.th + Int.ofNat (dth.getD b 0).natAbs
      z := o.z + Int.ofNat (hts.getD b 0 - a.hts.getD b 0).natAbs * 4096 + Int.ofNat (z - a.cfg.z).natAbs * 16 : BSum }
  if guardTrips l e cfg sums > 0 then { a with bad := some (4, k), guards := a.guards + guardTrips l e cfg sums }
  else if jointBad l th && m % 8 ≠ 7 then { a with bad := some (9, k) }
  else
    let arc := a.arc + Int.ofNat w.natAbs
    { a with cfg := cfg, hts := hts, sums := sums, arc := arc, arcs := a.arcs ++ [arc], track := a.track ++ [cfg] }

/-- Expansion from the edge state with given profiles (R197, R202). -/
def expandWith (l : Layer) (ter : Terrain) (act : Nat) (kp vp : List (Nat × Int)) (e : Pose) : Expn :=
  let ec := edgeCfg l e
  let cells := ec.pos.map fun p => ter (colOf p.1) (colOf p.2)
  let start : Expn := ⟨[], [ec], [e.down], [], none, 0, [0], [ec], 0⟩
  match limitCause l e.kappa 0 e.v 0 with
  | some c => { start with infeas := some (c, 0) }
  | none =>
  if jointBad l ec.th then { start with infeas := some (9, 0) } else
  let hts := cells.map fun c => (c.getD (0, 0)).1
  let zero := ec.pos.map fun _ => (⟨0, 0, 0⟩ : BSum)
  let fin := (List.range 64).foldl (fun (st : Expn × SubAcc) k =>
    if st.1.infeas.isSome then st else
    let a := (List.range 8).foldl (fun a j => subStep l ter act kp vp ec a (8 * k + j)) { st.2 with sums := zero }
    match a.bad with
    | some b => ({ st.1 with infeas := some b, guards := a.guards }, a)
    | none =>
      let pose := poseOf l e.down a.cfg
      let prev := (st.1.poses.getLast?).map fun p => (p.curvature, p.speed)
      let pk := (prev.getD (e.kappa, e.v)).1
      let pv := (prev.getD (e.kappa, e.v)).2
      match limitCause l pose.curvature (pose.curvature - pk) pose.speed (pose.speed - pv) with
      | some c => ({ st.1 with infeas := some (c, k) }, a)
      | none =>
        if jointBad l a.cfg.th then ({ st.1 with infeas := some (9, k) }, a) else
        let costs := a.cfg.pos.map fun p => ((ter (colOf p.1) (colOf p.2)).getD (0, 0)).2
        ({ st.1 with
            poses := st.1.poses ++ [pose], cfgs := st.1.cfgs ++ [a.cfg], down := st.1.down ++ [pose.down],
            sums := st.1.sums ++ [a.sums], tc := satAdd 32 st.1.tc costs.sum }, a))
    (start, { cfg := ec, hts := hts, sums := zero, arc := 0, arcs := [0], track := [ec], bad := none, guards := 0 })
  { fin.1 with arcs := fin.2.arcs, track := fin.2.track, guards := fin.2.guards }

/-- Expansion of a candidate record (R196, R197). -/
def expandCand (l : Layer) (ter : Terrain) (e : Pose) (c : Cand) : Expn :=
  expandWith l ter c.hitch.val (candProfiles e c).1 (candProfiles e c).2 e

/-- Expansion of a refined record (R286, R288): HITCH_ACT is the source candidate's. -/
def expandRefined (l : Layer) (ter : Terrain) (e : Pose) (r : RefinedRec) : Expn :=
  expandWith l ter r.cand.hitch.val (refinedProfiles e r).1 (refinedProfiles e r).2 e

/-- D(s, k) of R209 in 1/1024 m: formed exactly and rounded up once. -/
def dSphere (sums : List BSum) (sp : Sphere) : Nat :=
  let b := sums.getD sp.body ⟨0, 0, 0⟩
  (ceilDivI ((b.s + b.z) * 2 ^ 55 + Int.ofNat (sp.rho * c2) * b.th) (2 ^ 64)).toNat

/-- The inflation that R209 gives sphere sp at pose k. -/
def inflation (x : Expn) (sp : Sphere) (k : Nat) : Nat :=
  let iota := ceilDiv (((x.sums.drop 1).map fun s => dSphere s sp).foldl max 0) 2
  if k = 0 then max iota (dSphere (x.sums.getD 0 []) sp) else iota

/-- The required distance of R210 in 1/1024 m. -/
def required (x : Expn) (sp : Sphere) (extra k : Nat) : Nat := sp.radius + sp.margin + extra + inflation x sp k

/-- R206: a sphere is active at a pose whose IMPLEMENT_DOWN is d. -/
def activeAt (sp : Sphere) (d : Bool) : Bool := (sp.activeDown && d) || (sp.activeUp && !d)

/-- R206: sphere sp is queried at pose k if it is active at pose k − 1, k or k + 1. down holds pose −1 first. -/
def selectedAt (x : Expn) (sp : Sphere) (k : Nat) : Bool :=
  [k, k + 1, k + 2].any fun i => match x.down[i]? with
    | some d => activeAt sp d
    | none => false

/-- The centre of a sphere at a state, in 1/4096 m (R205): its offset turned with its body's heading, above the terrain
under the body's reference point. -/
def centre (ter : Terrain) (c : Cfg) (sp : Sphere) : Int × Int × Int :=
  let p := c.pos.getD sp.body (0, 0)
  let t := c.th.getD sp.body 0
  let h := ((ter (colOf p.1) (colOf p.2)).getD (0, 0)).1
  let px := roundDiv p.1 128
  let py := roundDiv p.2 128
  let th := roundDiv t (2 ^ 16) * 2 ^ 16
  (px + roundDiv (4 * (sp.sx * cosA th - sp.sy * sinA th)) (2 ^ 30),
   py + roundDiv (4 * (sp.sx * sinA th + sp.sy * cosA th)) (2 ^ 30),
   h * 32 + 4 * sp.sz + (if sp.hitchZ then roundDiv c.z 8 else 0))

end Sys2Proof.Machine
end

