-- ==== Sys2Proof/Machine/Regs.lean ====
section
/-! DEFINITION. Machine/Regs.lean: the register map of the spec (R31 to R33, and the register tables of every chapter:
R70, R109, R147, R183, R213, R254, R282, R317, R361, R387, R431, R469, R504, R538, R573, R579, R592, R619).
Each row is one register (or one array of registers) with its fields, their access types of R12, their reset values
and the value ranges the field tables state. -/

namespace Sys2Proof.Machine

/-- The access types of R12. -/
inductive Access where
  | ro | rw | w1c | w1s | wo
deriving DecidableEq, Repr

/-- Where a field's reset value comes from: the register table itself, the table by array index, the Mevar image (with
the default the spec states, 0 where it states none), or another part of the machine that a view of State shows
(fuses, straps, Indigo, a random value). -/
inductive ResetSrc where
  | const (v : Nat)
  | perIndex (vs : List Nat)
  | image (dflt : Nat)
  | other
deriving DecidableEq, Repr

/-- One field of a register: its bits hi:lo, access, reset source and the range its table states, if any. -/
structure FieldSpec where
  hi : Nat
  lo : Nat
  acc : Access
  src : ResetSrc
  range : Option (Nat × Nat)
deriving DecidableEq, Repr

/-- One register or array of registers: the first address, the (stride, count) of each index, outermost first, and the
subsystem bit of R560 under which it is swappable, if it is. -/
structure RegSpec where
  name : String
  base : Nat
  dims : List (Nat × Nat)
  swap : Option Nat
  fields : List FieldSpec
deriving DecidableEq, Repr

/-- A register field at a concrete address. -/
structure Fld where
  addr : Nat
  hi : Nat
  lo : Nat
deriving DecidableEq, Repr

/-- Registers of block WDN. -/
def regsWdn : List RegSpec := [
  ⟨"WDN_TIME_LO", 0x00000400, [], none,
    [⟨31, 0, .ro, .const 0, none⟩]⟩,
  ⟨"WDN_TIME_HI", 0x00000404, [], none,
    [⟨31, 0, .ro, .const 0, none⟩]⟩,
  ⟨"WDN_TIME_STAT", 0x00000408, [], none,
    [⟨31, 16, .ro, .const 0, none⟩, ⟨15, 8, .ro, .const 0, none⟩, ⟨7, 7, .ro, .const 0, none⟩, ⟨3, 2, .ro, .const 0, none⟩, ⟨1, 0, .ro, .const 3, none⟩]⟩,
  ⟨"WDN_TIME_TRIM", 0x0000040C, [], none,
    [⟨31, 0, .ro, .const 0, none⟩]⟩,
  ⟨"WDN_TAI_OFS_LO", 0x00000410, [], none,
    [⟨31, 0, .ro, .const 0, none⟩]⟩,
  ⟨"WDN_TAI_OFS_HI", 0x00000414, [], none,
    [⟨31, 0, .ro, .const 0, none⟩]⟩,
  ⟨"WDN_TIME_CFG", 0x00000420, [], some 9,
    [⟨15, 8, .rw, .image 0, none⟩, ⟨6, 6, .rw, .image 0, none⟩, ⟨5, 5, .rw, .image 0, none⟩, ⟨4, 4, .rw, .image 0, none⟩, ⟨3, 0, .rw, .image 0, none⟩]⟩,
  ⟨"WDN_CRYPTO_SEG", 0x00000600, [], none,
    [⟨31, 25, .ro, .const 0, none⟩, ⟨24, 19, .ro, .const 0, none⟩, ⟨15, 0, .ro, .const 0, none⟩]⟩,
  ⟨"WDN_SAFE_CFG", 0x00000800, [], some 9,
    [⟨31, 16, .rw, .const 100, some (10, 1000)⟩, ⟨15, 0, .rw, .const 300, some (20, 5000)⟩]⟩,
  ⟨"WDN_UMB_CFG", 0x00000804, [], some 9,
    [⟨31, 16, .rw, .const 768, some (32, 2560)⟩, ⟨15, 0, .rw, .const 192, some (32, 2560)⟩]⟩,
  ⟨"WDN_MAD_CFG", 0x00000808, [], some 9,
    [⟨31, 16, .rw, .const 64, some (1, 65535)⟩, ⟨7, 0, .rw, .const 100, some (8, 255)⟩]⟩,
  ⟨"WDN_RESTART_CFG", 0x0000080C, [], some 9,
    [⟨31, 28, .rw, .const 3, some (1, 15)⟩, ⟨27, 20, .rw, .const 10, some (1, 255)⟩, ⟨12, 0, .rw, .const 256, some (16, 4096)⟩]⟩,
  ⟨"WDN_LOG_CFG", 0x00000810, [], some 9,
    [⟨10, 8, .rw, .const 1, some (0, 4)⟩, ⟨2, 0, .rw, .const 1, some (0, 4)⟩]⟩,
  ⟨"WDN_REL_CFG", 0x00000814, [], some 9,
    [⟨25, 16, .rw, .image 0, none⟩, ⟨15, 0, .rw, .const 64, some (64, 65535)⟩]⟩,
  ⟨"WDN_SEC_CFG", 0x00000A00, [], none,
    [⟨31, 31, .ro, .image 0, none⟩, ⟨3, 0, .ro, .image 0, none⟩]⟩,
  ⟨"WDN_VCORE", 0x00000C00, [], none,
    [⟨31, 16, .ro, .const 750, none⟩, ⟨15, 0, .rw, .const 750, none⟩]⟩,
  ⟨"WDN_THERM_CFG", 0x00000C04, [], none,
    [⟨31, 24, .ro, .image 184, none⟩, ⟨23, 16, .ro, .image 164, none⟩]⟩,
  ⟨"WDN_SAFE_STAT", 0x00001800, [], none,
    [⟨31, 31, .ro, .const 1, none⟩, ⟨30, 30, .ro, .const 1, none⟩, ⟨29, 29, .ro, .const 0, none⟩, ⟨28, 28, .ro, .const 1, none⟩, ⟨27, 24, .ro, .const 0, none⟩, ⟨15, 0, .ro, .const 0, none⟩]⟩,
  ⟨"WDN_MAD_STAT", 0x00001804, [], none,
    [⟨31, 31, .w1c, .const 0, none⟩, ⟨30, 30, .w1c, .const 0, none⟩, ⟨29, 28, .ro, .const 2, none⟩, ⟨27, 24, .ro, .const 0, none⟩, ⟨23, 16, .ro, .const 0, none⟩, ⟨15, 0, .ro, .const 0, none⟩]⟩,
  ⟨"WDN_MAD_CAP_LO", 0x00001808, [], none,
    [⟨31, 0, .ro, .const 0, none⟩]⟩,
  ⟨"WDN_MAD_CAP_HI", 0x0000180C, [], none,
    [⟨31, 0, .ro, .const 0, none⟩]⟩,
  ⟨"WDN_FLOG_STAT", 0x00001810, [], none,
    [⟨31, 31, .ro, .const 0, none⟩, ⟨23, 16, .ro, .const 0, none⟩, ⟨15, 0, .ro, .const 0, none⟩]⟩,
  ⟨"WDN_KERMES_STAT", 0x00001814, [], none,
    [⟨31, 31, .ro, .const 0, none⟩, ⟨23, 16, .ro, .const 0, none⟩, ⟨15, 8, .ro, .const 0, none⟩, ⟨7, 0, .ro, .const 0, none⟩]⟩,
  ⟨"WDN_SAFE_CTL", 0x00001818, [], none,
    [⟨1, 1, .wo, .const 0, none⟩, ⟨0, 0, .wo, .const 0, none⟩]⟩,
  ⟨"WDN_DOUBT_CNT", 0x00001840, [(0x4, 10)], none,
    [⟨31, 0, .ro, .const 0, none⟩]⟩,
  ⟨"WDN_LC_STAT", 0x00001A00, [], none,
    [⟨31, 29, .ro, .other, none⟩, ⟨28, 28, .ro, .other, none⟩, ⟨27, 26, .ro, .other, none⟩, ⟨25, 24, .ro, .image 0, none⟩, ⟨23, 23, .ro, .other, none⟩, ⟨22, 22, .ro, .other, none⟩, ⟨21, 15, .ro, .other, none⟩]⟩,
  ⟨"WDN_TAMPER_STAT", 0x00001A08, [], none,
    [⟨31, 31, .ro, .other, none⟩, ⟨11, 8, .ro, .other, none⟩, ⟨3, 0, .w1c, .const 0, none⟩]⟩,
  ⟨"WDN_SEC_CNT", 0x00001A0C, [], none,
    [⟨31, 16, .ro, .const 0, none⟩, ⟨15, 0, .ro, .const 0, none⟩]⟩,
  ⟨"WDN_DEV_ID", 0x00001A10, [(0x4, 4)], none,
    [⟨31, 0, .ro, .other, none⟩]⟩,
  ⟨"WDN_BOOT_STAT", 0x00001C00, [], none,
    [⟨31, 28, .ro, .const 0, none⟩, ⟨27, 27, .ro, .other, none⟩, ⟨26, 25, .ro, .other, none⟩, ⟨24, 24, .ro, .const 0, none⟩, ⟨23, 16, .ro, .const 0, none⟩, ⟨15, 0, .ro, .const 0, none⟩]⟩,
  ⟨"WDN_BOOT_TIME", 0x00001C04, [], none,
    [⟨31, 16, .ro, .const 0, none⟩, ⟨15, 0, .ro, .const 0, none⟩]⟩,
  ⟨"WDN_IMG_DIGEST", 0x00001C20, [(0x4, 8)], none,
    [⟨31, 0, .ro, .image 0, none⟩]⟩,
  ⟨"WDN_JOURNAL_STAT", 0x00001C40, [], none,
    [⟨31, 16, .ro, .const 0, none⟩, ⟨15, 0, .ro, .const 0, none⟩]⟩,
  ⟨"WDN_PWR_STAT", 0x00001E00, [], none,
    [⟨31, 20, .ro, .const 0, none⟩, ⟨19, 8, .ro, .const 0, none⟩, ⟨7, 0, .ro, .const 0, none⟩]⟩,
  ⟨"WDN_THERM_STAT", 0x00001E04, [], none,
    [⟨31, 24, .ro, .const 0, none⟩, ⟨23, 16, .ro, .const 0, none⟩, ⟨15, 8, .ro, .const 0, none⟩, ⟨3, 3, .ro, .const 0, none⟩, ⟨2, 2, .w1c, .const 0, none⟩, ⟨1, 1, .w1c, .const 0, none⟩]⟩]

/-- Registers of block CND. -/
def regsCnd : List RegSpec := [
  ⟨"CND_FRAME_PERIOD", 0x00100100, [], some 0,
    [⟨17, 0, .rw, .const 25000, some (12500, 250000)⟩]⟩,
  ⟨"CND_FRAME_NUM", 0x00100104, [], none,
    [⟨31, 0, .ro, .const 0, none⟩]⟩,
  ⟨"CND_EDGE_TICK_LO", 0x00100108, [], none,
    [⟨31, 0, .ro, .const 0, none⟩]⟩,
  ⟨"CND_EDGE_TICK_HI", 0x0010010C, [], none,
    [⟨31, 0, .ro, .const 0, none⟩]⟩,
  ⟨"CND_PHASE_BUDGET", 0x00100110, [(0x4, 6)], some 0,
    [⟨17, 0, .rw, .perIndex [2500, 13750, 2500, 3750, 1500, 1000], none⟩]⟩,
  ⟨"CND_FRAME_STAT", 0x00100130, [], none,
    [⟨31, 16, .ro, .const 0, none⟩, ⟨15, 0, .ro, .const 0, none⟩]⟩,
  ⟨"CND_TRUNC_CNT", 0x00100134, [], none,
    [⟨31, 0, .ro, .const 0, none⟩]⟩,
  ⟨"CND_AGE_LIMIT", 0x00100140, [(0x4, 5)], some 0,
    [⟨22, 0, .rw, .perIndex [1250000, 3000000, 125000, 6250000, 500000], none⟩]⟩,
  ⟨"CND_NONESS_LO", 0x00100160, [], some 0,
    [⟨31, 0, .rw, .image 0, none⟩]⟩,
  ⟨"CND_NONESS_HI", 0x00100164, [], some 0,
    [⟨3, 0, .rw, .image 0, none⟩]⟩,
  ⟨"CND_TELEM_WIN", 0x00100200, [(0x4, 32)], none,
    [⟨31, 0, .ro, .const 0, none⟩]⟩,
  ⟨"CND_AUDIT", 0x00100280, [(0x4, 8)], none,
    [⟨31, 0, .ro, .const 0, none⟩]⟩,
  ⟨"CND_CAND_CFG", 0x00100400, [], some 0,
    [⟨31, 31, .rw, .image 0, none⟩, ⟨30, 30, .rw, .image 0, none⟩, ⟨18, 0, .rw, .image 0, some (1, 262144)⟩]⟩,
  ⟨"CND_LAYER_ACTIVE", 0x00100404, [], some 0,
    [⟨15, 0, .rw, .image 0, none⟩]⟩,
  ⟨"CND_LAYER_MARGIN", 0x00100440, [(0x4, 16)], some 0,
    [⟨9, 0, .rw, .image 0, some (0, 1023)⟩]⟩,
  ⟨"CND_SCHED_CFG", 0x00100600, [], some 0,
    [⟨23, 16, .rw, .const 10, none⟩, ⟨10, 8, .rw, .const 3, some (1, 7)⟩, ⟨7, 0, .rw, .const 64, some (1, 255)⟩]⟩,
  ⟨"CND_CAND_CNT", 0x00101400, [(0x4, 3)], none,
    [⟨18, 0, .ro, .const 0, none⟩]⟩,
  ⟨"CND_CAND_SKIP", 0x0010140C, [], none,
    [⟨31, 16, .ro, .const 0, none⟩, ⟨15, 0, .ro, .const 0, none⟩]⟩,
  ⟨"CND_INFEAS_STAT", 0x00101410, [], none,
    [⟨31, 24, .ro, .const 0, none⟩, ⟨23, 16, .ro, .const 0, none⟩, ⟨15, 8, .ro, .const 0, none⟩, ⟨7, 0, .ro, .const 0, none⟩]⟩,
  ⟨"CND_SCHED_STAT", 0x00101600, [], none,
    [⟨31, 19, .ro, .const 0, none⟩, ⟨18, 11, .ro, .const 0, none⟩, ⟨7, 0, .ro, .const 0, none⟩]⟩,
  ⟨"CND_RR_PTR", 0x00101604, [], none,
    [⟨9, 0, .ro, .const 0, none⟩]⟩,
  ⟨"CND_OVR_CAP", 0x00101608, [], none,
    [⟨31, 31, .w1c, .const 0, none⟩, ⟨30, 29, .ro, .const 0, none⟩, ⟨28, 28, .ro, .const 0, none⟩, ⟨27, 24, .ro, .const 0, none⟩, ⟨23, 17, .ro, .const 0, none⟩, ⟨11, 0, .ro, .const 0, none⟩]⟩,
  ⟨"CND_OVR_CNT", 0x0010160C, [], none,
    [⟨31, 16, .ro, .const 0, none⟩, ⟨15, 0, .ro, .const 0, none⟩]⟩,
  ⟨"CND_LEASE_STAT", 0x00101610, [], none,
    [⟨31, 20, .ro, .const 0, none⟩, ⟨19, 10, .ro, .const 0, none⟩, ⟨9, 0, .ro, .const 0, none⟩]⟩,
  ⟨"CND_LEASE_CAP", 0x00101614, [], none,
    [⟨31, 31, .w1c, .const 0, none⟩, ⟨30, 30, .ro, .const 0, none⟩, ⟨29, 27, .ro, .const 0, none⟩, ⟨26, 20, .ro, .const 0, none⟩, ⟨11, 0, .ro, .const 0, none⟩]⟩,
  ⟨"CND_FLOW_STAT", 0x00101618, [], none,
    [⟨31, 16, .ro, .const 0, none⟩, ⟨15, 0, .ro, .const 0, none⟩]⟩,
  ⟨"CND_REQ_STAT", 0x0010161C, [], none,
    [⟨31, 16, .ro, .const 0, none⟩, ⟨15, 0, .ro, .const 0, none⟩]⟩,
  ⟨"CND_REQ_CAP", 0x00101620, [], none,
    [⟨31, 31, .w1c, .const 0, none⟩, ⟨25, 24, .ro, .const 0, none⟩, ⟨23, 16, .ro, .const 0, none⟩, ⟨9, 0, .ro, .const 0, none⟩]⟩,
  ⟨"CND_LONGOP_STAT", 0x00101700, [(0x4, 32)], none,
    [⟨31, 28, .ro, .const 0, none⟩, ⟨27, 25, .ro, .const 0, none⟩, ⟨24, 22, .ro, .const 0, none⟩, ⟨19, 10, .ro, .const 0, none⟩, ⟨9, 0, .ro, .const 0, none⟩]⟩,
  ⟨"CND_SWAP_CTL", 0x00101800, [], none,
    [⟨31, 31, .wo, .const 0, none⟩, ⟨30, 30, .wo, .const 0, none⟩, ⟨12, 0, .rw, .const 0, none⟩]⟩,
  ⟨"CND_SWAP_TARGET", 0x00101804, [], none,
    [⟨31, 0, .rw, .const 0, none⟩]⟩,
  ⟨"CND_SWAP_STAT", 0x00101808, [], none,
    [⟨31, 29, .ro, .const 0, none⟩, ⟨28, 16, .ro, .const 0, none⟩, ⟨15, 8, .ro, .const 0, none⟩]⟩,
  ⟨"CND_SWAP_FRAME", 0x0010180C, [], none,
    [⟨31, 0, .ro, .const 0, none⟩]⟩,
  ⟨"CND_SWAP_LIMIT", 0x00101810, [], none,
    [⟨15, 0, .ro, .image 256, none⟩]⟩,
  ⟨"CND_RECENTER_STAT", 0x00101814, [], none,
    [⟨31, 29, .ro, .const 0, none⟩, ⟨15, 0, .ro, .const 0, none⟩]⟩,
  ⟨"CND_EVSEL", 0x00101A00, [(0x4, 8)], none,
    [⟨31, 31, .rw, .const 0, none⟩, ⟨30, 30, .wo, .const 0, none⟩, ⟨7, 0, .rw, .const 0, none⟩]⟩,
  ⟨"CND_EVCNT", 0x00101A40, [(0x8, 8)], none,
    [⟨31, 0, .ro, .const 0, none⟩]⟩,
  ⟨"CND_EVCNT_HI", 0x00101A44, [(0x8, 8)], none,
    [⟨15, 0, .ro, .const 0, none⟩]⟩,
  ⟨"CND_CLIENT", 0x00110000, [(0x10, 1024), (0x4, 4)], some 1,
    [⟨31, 0, .rw, .image 0, none⟩]⟩]

/-- Registers of block ING. -/
def regsIng : List RegSpec := [
  ⟨"ING_STREAM_CFG", 0x00200100, [(0x4, 36)], some 2,
    [⟨31, 31, .rw, .image 0, none⟩, ⟨30, 29, .ro, .image 0, none⟩, ⟨19, 16, .rw, .image 0, none⟩, ⟨15, 0, .rw, .image 0, none⟩]⟩,
  ⟨"ING_TEST_PERIOD", 0x00200200, [], some 2,
    [⟨7, 0, .rw, .const 32, some (4, 50)⟩]⟩,
  ⟨"ING_STREAM_STAT", 0x00201000, [(0x4, 36)], none,
    [⟨31, 31, .ro, .const 0, none⟩, ⟨30, 30, .ro, .const 0, none⟩, ⟨29, 28, .ro, .const 1, none⟩, ⟨27, 0, .ro, .const 0, none⟩]⟩,
  ⟨"ING_STREAM_AGE", 0x00201100, [(0x4, 36)], none,
    [⟨31, 0, .ro, .const 4294967295, none⟩]⟩,
  ⟨"ING_DROP_CNT", 0x00201200, [(0x4, 36)], none,
    [⟨29, 20, .ro, .const 0, none⟩, ⟨19, 10, .ro, .const 0, none⟩, ⟨9, 0, .ro, .const 0, none⟩]⟩,
  ⟨"ING_TEST_FAIL_LO", 0x00201300, [], none,
    [⟨31, 0, .w1c, .const 0, none⟩]⟩,
  ⟨"ING_TEST_FAIL_HI", 0x00201304, [], none,
    [⟨3, 0, .w1c, .const 0, none⟩]⟩]

/-- Registers of block WLD. -/
def regsWld : List RegSpec := [
  ⟨"WLD_CFG", 0x00300100, [], some 3,
    [⟨16, 16, .rw, .image 0, none⟩, ⟨15, 0, .rw, .image 0, none⟩]⟩,
  ⟨"WLD_OCC_PARAM", 0x00300104, [], some 3,
    [⟨31, 24, .rw, .const 12, some (1, 63)⟩, ⟨23, 16, .rw, .const 3, some (1, 63)⟩, ⟨15, 8, .rw, .const 6, none⟩, ⟨7, 0, .rw, .const 6, some (0, 63)⟩]⟩,
  ⟨"WLD_GROUND", 0x00300108, [], some 3,
    [⟨23, 16, .rw, .const 153, none⟩, ⟨15, 8, .rw, .const 51, some (13, 255)⟩, ⟨7, 0, .rw, .const 19, some (4, 64)⟩]⟩,
  ⟨"WLD_REACH", 0x0030010C, [], some 3,
    [⟨7, 0, .rw, .const 16, some (8, 32)⟩]⟩,
  ⟨"WLD_EPOCH", 0x00301000, [], none,
    [⟨31, 0, .ro, .const 0, none⟩]⟩,
  ⟨"WLD_WIN_ORG_XY", 0x00301004, [], none,
    [⟨31, 16, .ro, .const 0, none⟩, ⟨15, 0, .ro, .const 0, none⟩]⟩,
  ⟨"WLD_WIN_ORG_Z", 0x00301008, [], none,
    [⟨15, 0, .ro, .const 0, none⟩]⟩,
  ⟨"WLD_ORIGIN_GEN", 0x0030100C, [], none,
    [⟨15, 0, .ro, .const 0, none⟩]⟩,
  ⟨"WLD_ORIGIN_FX", 0x00301010, [], none,
    [⟨31, 0, .ro, .const 0, none⟩]⟩,
  ⟨"WLD_ORIGIN_FY", 0x00301014, [], none,
    [⟨31, 0, .ro, .const 0, none⟩]⟩,
  ⟨"WLD_ORIGIN_FZ", 0x00301018, [], none,
    [⟨31, 0, .ro, .const 0, none⟩]⟩,
  ⟨"WLD_NEAR_STAT", 0x00301020, [], none,
    [⟨31, 16, .ro, .const 0, none⟩, ⟨15, 0, .ro, .const 0, none⟩]⟩,
  ⟨"WLD_DENY_CNT", 0x00301024, [], none,
    [⟨31, 0, .ro, .const 0, none⟩]⟩,
  ⟨"WLD_FUSE_STAT", 0x00301028, [], none,
    [⟨31, 16, .ro, .const 0, none⟩, ⟨15, 0, .ro, .const 0, none⟩]⟩,
  ⟨"WLD_ERR_STAT", 0x0030102C, [], none,
    [⟨6, 6, .w1c, .const 0, none⟩, ⟨5, 5, .w1c, .const 0, none⟩, ⟨4, 4, .w1c, .const 0, none⟩, ⟨3, 3, .w1c, .const 0, none⟩, ⟨2, 2, .w1c, .const 0, none⟩, ⟨1, 1, .w1c, .const 0, none⟩, ⟨0, 0, .w1c, .const 0, none⟩]⟩,
  ⟨"WLD_MAPLD_SEG", 0x00301040, [], none,
    [⟨31, 25, .ro, .const 0, none⟩, ⟨24, 19, .ro, .const 0, none⟩, ⟨15, 0, .ro, .const 0, none⟩]⟩]

/-- Registers of block INF. -/
def regsInf : List RegSpec := [
  ⟨"INF_TILE_STAT", 0x00401000, [(0x10000, 8)], none,
    [⟨31, 30, .ro, .const 0, none⟩, ⟨29, 26, .ro, .image 0, none⟩, ⟨25, 22, .ro, .const 15, none⟩, ⟨11, 0, .ro, .const 0, none⟩]⟩,
  ⟨"INF_TILE_RG_CNT", 0x00401004, [(0x10000, 8)], none,
    [⟨31, 16, .ro, .const 0, none⟩, ⟨15, 0, .ro, .const 0, none⟩]⟩,
  ⟨"INF_TILE_SEPIA_CNT", 0x00401008, [(0x10000, 8)], none,
    [⟨31, 0, .ro, .const 0, none⟩]⟩,
  ⟨"INF_TILE_SCRATCH", 0x0040100C, [(0x10000, 8)], none,
    [⟨31, 16, .ro, .const 0, none⟩, ⟨15, 0, .ro, .image 0, none⟩]⟩,
  ⟨"INF_SLOT_CNT", 0x00401100, [(0x10000, 8)], none,
    [⟨31, 0, .ro, .const 0, none⟩]⟩,
  ⟨"INF_SLOT_CNT_HI", 0x00401104, [(0x10000, 8)], none,
    [⟨15, 0, .ro, .const 0, none⟩]⟩,
  ⟨"INF_EVSEL", 0x00401110, [(0x10000, 8), (0x4, 8)], none,
    [⟨31, 31, .rw, .const 0, none⟩, ⟨30, 30, .wo, .const 0, none⟩, ⟨7, 0, .rw, .const 0, none⟩]⟩,
  ⟨"INF_EVCNT", 0x00401140, [(0x10000, 8), (0x8, 8)], none,
    [⟨31, 0, .ro, .const 0, none⟩]⟩,
  ⟨"INF_EVCNT_HI", 0x00401144, [(0x10000, 8), (0x8, 8)], none,
    [⟨15, 0, .ro, .const 0, none⟩]⟩,
  ⟨"INF_PROP_CFG", 0x00480100, [], some 4,
    [⟨31, 24, .rw, .image 0, none⟩, ⟨18, 0, .rw, .image 0, some (0, 262144)⟩]⟩,
  ⟨"INF_TRAV_CFG", 0x00480104, [], some 4,
    [⟨31, 16, .rw, .image 0, none⟩, ⟨7, 0, .rw, .const 1, some (1, 8)⟩]⟩,
  ⟨"INF_RG_WATCH", 0x00480108, [], some 4,
    [⟨31, 31, .rw, .const 0, none⟩, ⟨16, 13, .rw, .const 0, none⟩, ⟨12, 0, .rw, .const 0, none⟩]⟩,
  ⟨"INF_MODEL_STAT", 0x00481000, [], none,
    [⟨31, 31, .ro, .image 0, none⟩, ⟨30, 30, .ro, .other, none⟩, ⟨20, 16, .ro, .const 0, none⟩, ⟨7, 0, .ro, .const 0, none⟩]⟩,
  ⟨"INF_RG_CNT", 0x00481004, [], none,
    [⟨31, 0, .ro, .const 0, none⟩]⟩,
  ⟨"INF_RG_CRIT_CNT", 0x00481008, [], none,
    [⟨31, 0, .ro, .const 0, none⟩]⟩,
  ⟨"INF_RG_WATCH_CNT", 0x0048100C, [], none,
    [⟨31, 0, .ro, .const 0, none⟩]⟩,
  ⟨"INF_RG_CAP_ID", 0x00481010, [], none,
    [⟨31, 31, .w1c, .const 0, none⟩, ⟨30, 30, .ro, .const 0, none⟩, ⟨29, 29, .ro, .const 0, none⟩, ⟨28, 26, .ro, .const 0, none⟩, ⟨25, 24, .ro, .const 0, none⟩, ⟨16, 13, .ro, .const 0, none⟩, ⟨12, 0, .ro, .const 0, none⟩]⟩,
  ⟨"INF_RG_CAP_FRAME", 0x00481014, [], none,
    [⟨31, 0, .ro, .const 0, none⟩]⟩,
  ⟨"INF_SEPIA_CNT", 0x00481018, [], none,
    [⟨31, 16, .ro, .const 0, none⟩, ⟨15, 0, .ro, .const 0, none⟩]⟩,
  ⟨"INF_GATHER_FLT", 0x0048101C, [], none,
    [⟨31, 31, .w1c, .const 0, none⟩, ⟨30, 30, .ro, .const 0, none⟩, ⟨29, 27, .ro, .const 0, none⟩, ⟨26, 23, .ro, .const 0, none⟩]⟩,
  ⟨"INF_GATHER_ADDR_LO", 0x00481020, [], none,
    [⟨31, 0, .ro, .const 0, none⟩]⟩,
  ⟨"INF_GATHER_ADDR_HI", 0x00481024, [], none,
    [⟨7, 0, .ro, .const 0, none⟩]⟩,
  ⟨"INF_RELEASE", 0x00481028, [], none,
    [⟨7, 0, .wo, .const 0, none⟩]⟩]

/-- Registers of block SWP. -/
def regsSwp : List RegSpec := [
  ⟨"SWP_TILE_STAT", 0x00500000, [(0x20000, 8), (0x2000, 8)], none,
    [⟨31, 30, .ro, .const 0, none⟩, ⟨29, 26, .ro, .image 0, none⟩, ⟨25, 25, .ro, .const 1, none⟩, ⟨24, 22, .ro, .const 0, none⟩, ⟨11, 0, .ro, .const 0, none⟩]⟩,
  ⟨"SWP_TILE_RES", 0x00500004, [(0x20000, 8), (0x2000, 8)], none,
    [⟨31, 16, .ro, .const 0, none⟩, ⟨15, 0, .ro, .const 0, none⟩]⟩,
  ⟨"SWP_PASS_CNT", 0x00500010, [(0x20000, 8), (0x2000, 8), (0x4, 4)], none,
    [⟨31, 0, .ro, .const 0, none⟩]⟩,
  ⟨"SWP_CONTACT_CNT", 0x00500020, [(0x20000, 8), (0x2000, 8), (0x4, 4)], none,
    [⟨31, 0, .ro, .const 0, none⟩]⟩,
  ⟨"SWP_SEPIA_CNT", 0x00500030, [(0x20000, 8), (0x2000, 8)], none,
    [⟨31, 0, .ro, .const 0, none⟩]⟩,
  ⟨"SWP_SEPIA_CAP", 0x00500034, [(0x20000, 8), (0x2000, 8)], none,
    [⟨31, 31, .w1c, .const 0, none⟩, ⟨30, 30, .ro, .const 0, none⟩, ⟨29, 28, .ro, .const 0, none⟩, ⟨27, 24, .ro, .const 0, none⟩, ⟨17, 0, .ro, .const 0, none⟩]⟩,
  ⟨"SWP_SEPIA_ADDR_LO", 0x00500038, [(0x20000, 8), (0x2000, 8)], none,
    [⟨31, 0, .ro, .const 0, none⟩]⟩,
  ⟨"SWP_SEPIA_ADDR_HI", 0x0050003C, [(0x20000, 8), (0x2000, 8)], none,
    [⟨7, 0, .ro, .const 0, none⟩]⟩,
  ⟨"SWP_OVR_STAT", 0x00500040, [(0x20000, 8), (0x2000, 8)], none,
    [⟨31, 31, .w1c, .const 0, none⟩, ⟨30, 12, .ro, .const 0, none⟩, ⟨11, 0, .ro, .const 0, none⟩]⟩,
  ⟨"SWP_SLOT_CNT", 0x00500100, [(0x20000, 8), (0x2000, 8)], none,
    [⟨31, 0, .ro, .const 0, none⟩]⟩,
  ⟨"SWP_SLOT_CNT_HI", 0x00500104, [(0x20000, 8), (0x2000, 8)], none,
    [⟨15, 0, .ro, .const 0, none⟩]⟩,
  ⟨"SWP_EVSEL", 0x00500110, [(0x20000, 8), (0x2000, 8), (0x4, 8)], none,
    [⟨31, 31, .rw, .const 0, none⟩, ⟨30, 30, .wo, .const 0, none⟩, ⟨7, 0, .rw, .const 0, none⟩]⟩,
  ⟨"SWP_EVCNT", 0x00500140, [(0x20000, 8), (0x2000, 8), (0x8, 8)], none,
    [⟨31, 0, .ro, .const 0, none⟩]⟩,
  ⟨"SWP_EVCNT_HI", 0x00500144, [(0x20000, 8), (0x2000, 8), (0x8, 8)], none,
    [⟨15, 0, .ro, .const 0, none⟩]⟩,
  ⟨"SWP_STW_CFG", 0x00510100, [(0x20000, 8)], some 5,
    [⟨31, 24, .rw, .const 8, some (0, 32)⟩, ⟨23, 16, .rw, .const 20, some (5, 100)⟩, ⟨15, 8, .rw, .const 20, some (5, 255)⟩, ⟨6, 0, .rw, .const 16, some (1, 64)⟩]⟩,
  ⟨"SWP_PEER_CFG", 0x00510104, [(0x20000, 8)], some 5,
    [⟨31, 16, .rw, .const 1024, some (64, 65535)⟩, ⟨9, 0, .rw, .const 51, some (1, 1023)⟩]⟩,
  ⟨"SWP_TASK_BUDGET", 0x00510108, [(0x20000, 8)], some 5,
    [⟨15, 0, .rw, .image 300, none⟩]⟩,
  ⟨"SWP_STW_STAT", 0x00511000, [(0x20000, 8)], none,
    [⟨31, 24, .ro, .const 0, none⟩, ⟨23, 16, .ro, .const 0, none⟩, ⟨15, 8, .ro, .const 0, none⟩, ⟨3, 3, .ro, .const 0, none⟩, ⟨2, 0, .ro, .const 0, none⟩]⟩,
  ⟨"SWP_STW_QUAR", 0x00511004, [(0x20000, 8)], none,
    [⟨7, 0, .w1s, .const 0, none⟩]⟩,
  ⟨"SWP_STW_RELEASE", 0x00511008, [(0x20000, 8)], none,
    [⟨7, 0, .wo, .const 0, none⟩]⟩,
  ⟨"SWP_TILE_DOMAIN", 0x0051100C, [(0x20000, 8)], none,
    [⟨31, 0, .ro, .image 0, none⟩]⟩,
  ⟨"SWP_TEST_FAIL", 0x00511010, [(0x20000, 8)], none,
    [⟨31, 16, .ro, .const 0, none⟩, ⟨7, 0, .w1c, .const 0, none⟩]⟩,
  ⟨"SWP_PEER_FLAG", 0x00511014, [(0x20000, 8)], none,
    [⟨7, 0, .w1c, .const 0, none⟩]⟩,
  ⟨"SWP_PEER_RATIO", 0x00511020, [(0x20000, 8), (0x4, 8)], none,
    [⟨31, 16, .ro, .const 0, none⟩, ⟨15, 0, .ro, .const 0, none⟩]⟩,
  ⟨"SWP_STW_EVSEL", 0x00511100, [(0x20000, 8), (0x4, 8)], none,
    [⟨31, 31, .rw, .const 0, none⟩, ⟨30, 30, .wo, .const 0, none⟩, ⟨7, 0, .rw, .const 0, none⟩]⟩,
  ⟨"SWP_STW_EVCNT", 0x00511140, [(0x20000, 8), (0x8, 8)], none,
    [⟨31, 0, .ro, .const 0, none⟩]⟩,
  ⟨"SWP_STW_EVCNT_HI", 0x00511144, [(0x20000, 8), (0x8, 8)], none,
    [⟨15, 0, .ro, .const 0, none⟩]⟩]

/-- Registers of block SEL. -/
def regsSel : List RegSpec := [
  ⟨"SEL_CFG", 0x00600100, [], some 6,
    [⟨31, 31, .rw, .image 0, none⟩, ⟨10, 0, .rw, .const 64, some (1, 1024)⟩]⟩,
  ⟨"SEL_STAT", 0x00601000, [], none,
    [⟨31, 31, .w1c, .const 0, none⟩, ⟨22, 16, .ro, .const 0, none⟩, ⟨15, 0, .ro, .const 0, none⟩]⟩,
  ⟨"SEL_HANDOVER", 0x00601004, [], none,
    [⟨31, 0, .ro, .const 4294967295, none⟩]⟩,
  ⟨"SEL_LANE_CNT", 0x00601010, [(0x4, 4)], none,
    [⟨31, 0, .ro, .const 0, none⟩]⟩,
  ⟨"SEL_DROP_CNT_0", 0x00601020, [], none,
    [⟨31, 16, .ro, .const 0, none⟩, ⟨15, 0, .ro, .const 0, none⟩]⟩,
  ⟨"SEL_DROP_CNT_1", 0x00601024, [], none,
    [⟨31, 16, .ro, .const 0, none⟩, ⟨15, 0, .ro, .const 0, none⟩]⟩,
  ⟨"SEL_TOP_LO", 0x00601040, [(0x8, 4)], none,
    [⟨31, 0, .ro, .const 4294967295, none⟩]⟩,
  ⟨"SEL_TOP_HI", 0x00601044, [(0x8, 4)], none,
    [⟨31, 0, .ro, .const 4294967295, none⟩]⟩,
  ⟨"SEL_FAULT_CAP", 0x00601060, [], none,
    [⟨31, 31, .w1c, .const 0, none⟩, ⟨30, 29, .ro, .const 0, none⟩, ⟨28, 27, .ro, .const 0, none⟩, ⟨26, 21, .ro, .const 0, none⟩, ⟨17, 0, .ro, .const 0, none⟩]⟩]

/-- Registers of block SLV. -/
def regsSlv : List RegSpec := [
  ⟨"SLV_CFG", 0x00680100, [], some 7,
    [⟨31, 31, .rw, .image 0, none⟩, ⟨30, 30, .rw, .image 0, none⟩, ⟨29, 27, .rw, .const 6, some (0, 6)⟩, ⟨23, 16, .rw, .const 64, none⟩, ⟨7, 0, .rw, .const 4, none⟩]⟩,
  ⟨"SLV_WEIGHT_0", 0x00680104, [], some 7,
    [⟨31, 16, .rw, .image 0, none⟩, ⟨15, 0, .rw, .image 0, none⟩]⟩,
  ⟨"SLV_WEIGHT_1", 0x00680108, [], some 7,
    [⟨31, 16, .rw, .image 0, none⟩, ⟨15, 0, .rw, .image 0, none⟩]⟩,
  ⟨"SLV_CONV", 0x0068010C, [], some 7,
    [⟨31, 16, .rw, .const 16, some (1, 65535)⟩, ⟨15, 12, .rw, .const 8, none⟩, ⟨11, 0, .rw, .const 65, some (1, 4095)⟩]⟩,
  ⟨"SLV_ITER_BUDGET", 0x00680110, [], some 7,
    [⟨15, 0, .rw, .image 0, none⟩]⟩,
  ⟨"SLV_STAT", 0x00681000, [], none,
    [⟨31, 31, .w1c, .const 0, none⟩, ⟨27, 24, .ro, .const 15, none⟩, ⟨23, 20, .ro, .const 0, none⟩, ⟨15, 0, .ro, .const 0, none⟩]⟩,
  ⟨"SLV_RESULT", 0x00681004, [], none,
    [⟨29, 28, .ro, .const 0, none⟩, ⟨27, 24, .ro, .const 15, none⟩, ⟨23, 21, .ro, .const 0, none⟩, ⟨17, 0, .ro, .const 0, none⟩]⟩,
  ⟨"SLV_LANE_STAT", 0x00681010, [(0x4, 4)], none,
    [⟨31, 29, .ro, .const 0, none⟩, ⟨28, 28, .ro, .const 0, none⟩, ⟨27, 25, .ro, .const 0, none⟩, ⟨24, 21, .ro, .const 0, none⟩, ⟨17, 0, .ro, .const 0, none⟩]⟩,
  ⟨"SLV_RG_CNT", 0x00681020, [], none,
    [⟨31, 16, .ro, .const 0, none⟩, ⟨15, 0, .ro, .const 0, none⟩]⟩,
  ⟨"SLV_EVENT_CNT", 0x00681024, [], none,
    [⟨31, 16, .ro, .const 0, none⟩, ⟨15, 0, .ro, .const 0, none⟩]⟩,
  ⟨"SLV_RELEASE", 0x00681028, [], none,
    [⟨3, 0, .wo, .const 0, none⟩]⟩]

/-- Registers of block WOD. -/
def regsWod : List RegSpec := [
  ⟨"WOD_PAIR_CFG", 0x00700100, [], some 10,
    [⟨31, 31, .ro, .image 0, none⟩, ⟨30, 24, .rw, .const 8, some (2, 63)⟩, ⟨23, 16, .rw, .const 16, some (2, 255)⟩, ⟨15, 0, .rw, .const 64, some (1, 65535)⟩]⟩,
  ⟨"WOD_EDGE_CFG", 0x00700104, [], some 10,
    [⟨31, 16, .rw, .const 100, some (20, 500)⟩, ⟨15, 8, .rw, .const 10, some (0, 40)⟩, ⟨7, 0, .rw, .const 8, some (4, 255)⟩]⟩,
  ⟨"WOD_PAIR_STAT", 0x00701000, [], none,
    [⟨31, 28, .ro, .const 0, none⟩, ⟨27, 26, .ro, .other, none⟩, ⟨25, 25, .ro, .const 0, none⟩, ⟨24, 24, .ro, .const 0, none⟩, ⟨23, 20, .ro, .const 0, none⟩, ⟨19, 16, .ro, .const 0, none⟩, ⟨7, 4, .ro, .const 0, none⟩, ⟨3, 0, .ro, .const 0, none⟩]⟩,
  ⟨"WOD_SKEW", 0x00701004, [], none,
    [⟨31, 16, .ro, .const 0, none⟩, ⟨15, 0, .ro, .const 0, none⟩]⟩,
  ⟨"WOD_OFS_LO", 0x00701008, [], none,
    [⟨31, 0, .ro, .const 0, none⟩]⟩,
  ⟨"WOD_OFS_HI", 0x0070100C, [], none,
    [⟨31, 0, .ro, .const 0, none⟩]⟩,
  ⟨"WOD_DELAY", 0x00701010, [], none,
    [⟨31, 16, .ro, .const 0, none⟩, ⟨15, 0, .ro, .const 0, none⟩]⟩,
  ⟨"WOD_LINK_CNT", 0x00701014, [], none,
    [⟨31, 16, .ro, .const 0, none⟩, ⟨15, 0, .ro, .const 0, none⟩]⟩,
  ⟨"WOD_XPORT_CNT", 0x00701018, [], none,
    [⟨31, 16, .ro, .const 0, none⟩, ⟨15, 0, .ro, .const 0, none⟩]⟩,
  ⟨"WOD_XVER_STAT", 0x0070101C, [], none,
    [⟨31, 24, .ro, .const 0, none⟩, ⟨23, 16, .ro, .const 0, none⟩, ⟨15, 0, .ro, .const 0, none⟩]⟩,
  ⟨"WOD_DIGEST_STAT", 0x00701020, [], none,
    [⟨25, 16, .ro, .const 0, none⟩, ⟨9, 0, .w1c, .const 0, none⟩]⟩,
  ⟨"WOD_SWAP_STAT", 0x00701024, [], none,
    [⟨31, 16, .ro, .const 0, none⟩, ⟨15, 8, .ro, .const 0, none⟩, ⟨7, 0, .ro, .const 0, none⟩]⟩]

/-- Registers of block VBS. -/
def regsVbs : List RegSpec := [
  ⟨"VBS_GUID_CFG", 0x00740100, [], some 11,
    [⟨31, 24, .rw, .const 10, some (2, 100)⟩, ⟨23, 16, .rw, .const 20, some (5, 250)⟩, ⟨14, 11, .ro, .image 0, none⟩, ⟨10, 0, .ro, .image 0, none⟩]⟩,
  ⟨"VBS_STAT_CFG", 0x00740104, [], some 11,
    [⟨31, 31, .rw, .image 0, none⟩, ⟨15, 0, .rw, .const 10, some (1, 1000)⟩]⟩,
  ⟨"VBS_PORT_CFG", 0x00740200, [(0x4, 4)], none,
    [⟨31, 30, .ro, .image 0, none⟩, ⟨29, 28, .ro, .image 0, none⟩, ⟨27, 20, .ro, .image 0, none⟩, ⟨19, 12, .ro, .image 0, none⟩]⟩,
  ⟨"VBS_PORT_STAT", 0x00741000, [(0x4, 4)], none,
    [⟨31, 30, .ro, .const 0, none⟩, ⟨23, 16, .ro, .const 0, none⟩, ⟨15, 8, .ro, .const 0, none⟩, ⟨7, 0, .ro, .const 0, none⟩]⟩,
  ⟨"VBS_RX_CNT", 0x00741010, [(0x4, 4)], none,
    [⟨31, 16, .ro, .const 0, none⟩, ⟨15, 0, .ro, .const 0, none⟩]⟩,
  ⟨"VBS_GUID_STAT", 0x00741020, [], none,
    [⟨31, 16, .ro, .const 0, none⟩, ⟨15, 8, .ro, .const 0, none⟩, ⟨7, 0, .ro, .const 0, none⟩]⟩,
  ⟨"VBS_HB_STAT", 0x00741024, [], none,
    [⟨31, 31, .ro, .const 1, none⟩, ⟨30, 30, .ro, .const 0, none⟩, ⟨23, 16, .ro, .const 0, none⟩, ⟨15, 0, .ro, .const 0, none⟩]⟩,
  ⟨"VBS_ISO_STAT", 0x00741028, [], none,
    [⟨31, 30, .ro, .const 0, none⟩, ⟨15, 8, .ro, .const 0, none⟩, ⟨7, 0, .ro, .const 254, none⟩]⟩]

/-- Registers of block OCH. -/
def regsOch : List RegSpec := [
  ⟨"OCH_CFG", 0x00780100, [], none,
    [⟨31, 31, .ro, .image 0, none⟩, ⟨30, 30, .ro, .image 0, none⟩, ⟨23, 16, .ro, .image 0, none⟩, ⟨7, 0, .ro, .image 0, none⟩]⟩,
  ⟨"OCH_STAT", 0x00781000, [], none,
    [⟨31, 31, .ro, .const 0, none⟩, ⟨30, 30, .w1c, .const 0, none⟩, ⟨15, 0, .ro, .const 0, none⟩]⟩,
  ⟨"OCH_TX_CNT", 0x00781004, [], none,
    [⟨31, 16, .ro, .const 0, none⟩, ⟨15, 0, .ro, .const 0, none⟩]⟩]

/-- Registers of block SUP. -/
def regsSup : List RegSpec := [
  ⟨"SUP_LINK_STAT", 0x007C1000, [], none,
    [⟨31, 31, .ro, .const 0, none⟩, ⟨30, 28, .ro, .const 0, none⟩, ⟨27, 25, .ro, .const 0, none⟩, ⟨15, 0, .ro, .const 0, none⟩]⟩,
  ⟨"SUP_CMD_BASE_LO", 0x007C1010, [], none,
    [⟨31, 0, .rw, .const 0, none⟩]⟩,
  ⟨"SUP_CMD_BASE_HI", 0x007C1014, [], none,
    [⟨31, 0, .rw, .const 0, none⟩]⟩,
  ⟨"SUP_CMP_BASE_LO", 0x007C1018, [], none,
    [⟨31, 0, .rw, .const 0, none⟩]⟩,
  ⟨"SUP_CMP_BASE_HI", 0x007C101C, [], none,
    [⟨31, 0, .rw, .const 0, none⟩]⟩,
  ⟨"SUP_CMD_CTL", 0x007C1020, [], none,
    [⟨31, 31, .rw, .const 0, none⟩, ⟨12, 0, .rw, .const 0, none⟩]⟩,
  ⟨"SUP_CMD_TAIL", 0x007C1024, [], none,
    [⟨11, 0, .rw, .const 0, none⟩]⟩,
  ⟨"SUP_CMP_HEAD", 0x007C1028, [], none,
    [⟨27, 16, .rw, .const 0, none⟩, ⟨11, 0, .ro, .const 0, none⟩]⟩,
  ⟨"SUP_KX_CTL", 0x007C1030, [], none,
    [⟨31, 31, .wo, .const 0, none⟩]⟩,
  ⟨"SUP_KX_STAT", 0x007C1034, [], none,
    [⟨31, 30, .ro, .const 0, none⟩, ⟨15, 8, .ro, .const 0, none⟩, ⟨7, 0, .ro, .const 0, none⟩]⟩,
  ⟨"SUP_LC_CTL", 0x007C1038, [], none,
    [⟨31, 31, .wo, .const 0, none⟩]⟩,
  ⟨"SUP_LC_STAT", 0x007C103C, [], none,
    [⟨31, 30, .ro, .const 0, none⟩, ⟨15, 8, .ro, .const 0, none⟩, ⟨7, 0, .ro, .const 0, none⟩]⟩,
  ⟨"SUP_LC_NONCE", 0x007C1040, [], none,
    [⟨31, 0, .ro, .other, none⟩]⟩,
  ⟨"SUP_SLOT_CNT", 0x007C1044, [], none,
    [⟨31, 16, .ro, .const 0, none⟩, ⟨15, 0, .ro, .const 0, none⟩]⟩,
  ⟨"SUP_SLOT_CAP", 0x007C1048, [], none,
    [⟨31, 31, .w1c, .const 0, none⟩, ⟨30, 29, .ro, .const 0, none⟩, ⟨7, 0, .ro, .const 0, none⟩]⟩,
  ⟨"SUP_SWAP_CTL", 0x007C1050, [], none,
    [⟨31, 31, .wo, .const 0, none⟩, ⟨30, 30, .wo, .const 0, none⟩, ⟨12, 0, .rw, .const 0, none⟩]⟩,
  ⟨"SUP_SWAP_TARGET", 0x007C1054, [], none,
    [⟨31, 0, .rw, .const 0, none⟩]⟩,
  ⟨"SUP_REPLAY_CTL", 0x007C1060, [], none,
    [⟨31, 31, .wo, .const 0, none⟩, ⟨30, 30, .wo, .const 0, none⟩, ⟨7, 0, .rw, .const 0, none⟩]⟩,
  ⟨"SUP_REPLAY_STAT", 0x007C1064, [], none,
    [⟨31, 30, .ro, .const 0, none⟩, ⟨29, 29, .w1c, .const 0, none⟩, ⟨27, 24, .ro, .const 0, none⟩, ⟨23, 16, .ro, .const 0, none⟩, ⟨15, 0, .ro, .const 0, none⟩]⟩,
  ⟨"SUP_MBOX", 0x007C4000, [(0x4, 4096)], none,
    [⟨31, 0, .rw, .const 0, none⟩]⟩]

/-- Registers of block MEM. -/
def regsMem : List RegSpec := [
  ⟨"MEM_SCRUB_CFG", 0x00800100, [], some 8,
    [⟨31, 16, .rw, .const 32, some (1, 3600)⟩, ⟨15, 0, .rw, .const 256, some (16, 4096)⟩]⟩,
  ⟨"MEM_CE_CFG", 0x00800104, [], some 8,
    [⟨15, 0, .rw, .const 16, some (1, 65535)⟩]⟩,
  ⟨"MEM_CE_CNT", 0x00801000, [], none,
    [⟨31, 0, .ro, .const 0, none⟩]⟩,
  ⟨"MEM_UE_CNT", 0x00801004, [], none,
    [⟨31, 16, .ro, .const 0, none⟩, ⟨15, 0, .ro, .const 0, none⟩]⟩,
  ⟨"MEM_SEPIA_CNT", 0x00801008, [], none,
    [⟨31, 16, .ro, .const 0, none⟩, ⟨15, 0, .ro, .const 0, none⟩]⟩,
  ⟨"MEM_ERR_CAP", 0x0080100C, [], none,
    [⟨31, 31, .w1c, .const 0, none⟩, ⟨30, 28, .ro, .const 0, none⟩, ⟨27, 20, .ro, .const 0, none⟩, ⟨2, 0, .ro, .const 0, none⟩]⟩,
  ⟨"MEM_ERR_ADDR_LO", 0x00801010, [], none,
    [⟨31, 0, .ro, .const 0, none⟩]⟩,
  ⟨"MEM_ERR_ADDR_HI", 0x00801014, [], none,
    [⟨7, 0, .ro, .const 0, none⟩]⟩,
  ⟨"MEM_SCRUB_STAT", 0x00801018, [], none,
    [⟨31, 31, .w1c, .const 0, none⟩, ⟨30, 30, .w1c, .const 0, none⟩, ⟨23, 16, .ro, .const 0, none⟩, ⟨15, 0, .ro, .const 0, none⟩]⟩,
  ⟨"MEM_WW_STAT", 0x00801020, [], none,
    [⟨31, 16, .ro, .const 0, none⟩, ⟨15, 0, .ro, .const 0, none⟩]⟩,
  ⟨"MEM_WW_CAP", 0x00801024, [], none,
    [⟨31, 31, .w1c, .const 0, none⟩, ⟨30, 30, .ro, .const 0, none⟩, ⟨29, 27, .ro, .const 0, none⟩, ⟨26, 24, .ro, .const 0, none⟩, ⟨23, 0, .ro, .const 0, none⟩]⟩,
  ⟨"MEM_WIPE_STAT", 0x00801028, [], none,
    [⟨31, 31, .ro, .const 0, none⟩, ⟨30, 30, .w1c, .const 0, none⟩, ⟨19, 0, .ro, .const 0, none⟩]⟩,
  ⟨"MEM_CHAN_DOMAIN_LO", 0x0080102C, [], none,
    [⟨31, 0, .ro, .image 0, none⟩]⟩,
  ⟨"MEM_CHAN_DOMAIN_HI", 0x00801030, [], none,
    [⟨31, 0, .ro, .image 0, none⟩]⟩,
  ⟨"MEM_WAY_DOMAIN_LO", 0x00801040, [(0x8, 8)], none,
    [⟨31, 0, .ro, .image 0, none⟩]⟩,
  ⟨"MEM_WAY_DOMAIN_HI", 0x00801044, [(0x8, 8)], none,
    [⟨31, 0, .ro, .image 0, none⟩]⟩,
  ⟨"MEM_HBM_STAT", 0x00801080, [], none,
    [⟨31, 16, .ro, .const 0, none⟩, ⟨15, 0, .ro, .const 0, none⟩]⟩]

/-- Registers of block IND. -/
def regsInd : List RegSpec := [
  ⟨"IND_CFG", 0x00F00100, [], none,
    [⟨31, 31, .rw, .const 1, none⟩, ⟨30, 30, .rw, .const 1, none⟩, ⟨29, 29, .rw, .const 0, none⟩, ⟨15, 0, .rw, .const 30, none⟩]⟩,
  ⟨"IND_ALARM_LO", 0x00F00104, [], none,
    [⟨31, 0, .rw, .const 0, none⟩]⟩,
  ⟨"IND_ALARM_HI", 0x00F00108, [], none,
    [⟨31, 0, .rw, .const 0, none⟩]⟩,
  ⟨"IND_STAT", 0x00F01000, [], none,
    [⟨31, 31, .ro, .const 0, none⟩, ⟨30, 30, .ro, .other, none⟩, ⟨29, 29, .ro, .other, none⟩, ⟨28, 26, .w1c, .const 0, none⟩, ⟨25, 23, .ro, .const 0, none⟩]⟩,
  ⟨"IND_TIME_LO", 0x00F01004, [], none,
    [⟨31, 0, .ro, .const 0, none⟩]⟩,
  ⟨"IND_TIME_HI", 0x00F01008, [], none,
    [⟨31, 0, .ro, .const 0, none⟩]⟩,
  ⟨"IND_TRIM", 0x00F0100C, [], none,
    [⟨15, 0, .rw, .const 0, none⟩]⟩,
  ⟨"IND_WDOG", 0x00F01010, [], none,
    [⟨31, 31, .wo, .const 0, none⟩, ⟨30, 30, .w1c, .const 0, none⟩, ⟨9, 0, .ro, .const 1000, none⟩]⟩,
  ⟨"IND_SLEEP_CTL", 0x00F01014, [], none,
    [⟨31, 31, .wo, .const 0, none⟩]⟩,
  ⟨"IND_LOG_HEAD", 0x00F01018, [], none,
    [⟨13, 8, .ro, .const 0, none⟩, ⟨6, 0, .ro, .const 0, none⟩]⟩,
  ⟨"IND_LOG", 0x00F02000, [(0x4, 512)], none,
    [⟨31, 0, .ro, .const 0, none⟩]⟩]

/-- R31: the register rows of the block that an address selects; a reserved range has none. -/
def blockRows (a : Nat) : List RegSpec :=
  if 0x00000000 ≤ a ∧ a < 0x00100000 then regsWdn
  else if 0x00100000 ≤ a ∧ a < 0x00200000 then regsCnd
  else if 0x00200000 ≤ a ∧ a < 0x00300000 then regsIng
  else if 0x00300000 ≤ a ∧ a < 0x00400000 then regsWld
  else if 0x00400000 ≤ a ∧ a < 0x00500000 then regsInf
  else if 0x00500000 ≤ a ∧ a < 0x00600000 then regsSwp
  else if 0x00600000 ≤ a ∧ a < 0x00680000 then regsSel
  else if 0x00680000 ≤ a ∧ a < 0x00700000 then regsSlv
  else if 0x00700000 ≤ a ∧ a < 0x00740000 then regsWod
  else if 0x00740000 ≤ a ∧ a < 0x00780000 then regsVbs
  else if 0x00780000 ≤ a ∧ a < 0x007C0000 then regsOch
  else if 0x007C0000 ≤ a ∧ a < 0x00800000 then regsSup
  else if 0x00800000 ≤ a ∧ a < 0x00900000 then regsMem
  else if 0x00F00000 ≤ a ∧ a < 0x00F10000 then regsInd
  else []

end Sys2Proof.Machine

namespace Sys2Proof.Machine.F

/-! Field names, one definition per field of the register tables: F.REGISTER_FIELD applied to the indices. -/

def WDN_TIME_LO_TICK : Fld := ⟨0x00000400, 31, 0⟩
def WDN_TIME_HI_TICK : Fld := ⟨0x00000404, 31, 0⟩
def WDN_TIME_STAT_HOLDOVER_S : Fld := ⟨0x00000408, 31, 16⟩
def WDN_TIME_STAT_PPS_REJ : Fld := ⟨0x00000408, 15, 8⟩
def WDN_TIME_STAT_LOCKED : Fld := ⟨0x00000408, 7, 7⟩
def WDN_TIME_STAT_PORT : Fld := ⟨0x00000408, 3, 2⟩
def WDN_TIME_STAT_SRC : Fld := ⟨0x00000408, 1, 0⟩
def WDN_TIME_TRIM_TRIM : Fld := ⟨0x0000040C, 31, 0⟩
def WDN_TAI_OFS_LO_OFS : Fld := ⟨0x00000410, 31, 0⟩
def WDN_TAI_OFS_HI_OFS : Fld := ⟨0x00000414, 31, 0⟩
def WDN_TIME_CFG_LEAP_S : Fld := ⟨0x00000420, 15, 8⟩
def WDN_TIME_CFG_GPTP_EN : Fld := ⟨0x00000420, 6, 6⟩
def WDN_TIME_CFG_PPS1_EN : Fld := ⟨0x00000420, 5, 5⟩
def WDN_TIME_CFG_PPS0_EN : Fld := ⟨0x00000420, 4, 4⟩
def WDN_TIME_CFG_SLAVE_MASK : Fld := ⟨0x00000420, 3, 0⟩
def WDN_CRYPTO_SEG_OPEN : Fld := ⟨0x00000600, 31, 25⟩
def WDN_CRYPTO_SEG_LAST : Fld := ⟨0x00000600, 24, 19⟩
def WDN_CRYPTO_SEG_WAITS : Fld := ⟨0x00000600, 15, 0⟩
def WDN_SAFE_CFG_FTTI : Fld := ⟨0x00000800, 31, 16⟩
def WDN_SAFE_CFG_STOP_LIMIT : Fld := ⟨0x00000800, 15, 0⟩
def WDN_UMB_CFG_DECEL_MAX : Fld := ⟨0x00000804, 31, 16⟩
def WDN_UMB_CFG_DECEL : Fld := ⟨0x00000804, 15, 0⟩
def WDN_MAD_CFG_RG_BURST : Fld := ⟨0x00000808, 31, 16⟩
def WDN_MAD_CFG_HIST : Fld := ⟨0x00000808, 7, 0⟩
def WDN_RESTART_CFG_RESTART_MAX : Fld := ⟨0x0000080C, 31, 28⟩
def WDN_RESTART_CFG_RESTART_WIN : Fld := ⟨0x0000080C, 27, 20⟩
def WDN_RESTART_CFG_PERSIST : Fld := ⟨0x0000080C, 12, 0⟩
def WDN_LOG_CFG_OCH_SEV : Fld := ⟨0x00000810, 10, 8⟩
def WDN_LOG_CFG_IND_SEV : Fld := ⟨0x00000810, 2, 0⟩
def WDN_REL_CFG_ACK_CLIENT : Fld := ⟨0x00000814, 25, 16⟩
def WDN_REL_CFG_CLEAN_FRAMES : Fld := ⟨0x00000814, 15, 0⟩
def WDN_SEC_CFG_TAMPER_HALT : Fld := ⟨0x00000A00, 31, 31⟩
def WDN_SEC_CFG_TAMPER_EN : Fld := ⟨0x00000A00, 3, 0⟩
def WDN_VCORE_APPLIED : Fld := ⟨0x00000C00, 31, 16⟩
def WDN_VCORE_TARGET : Fld := ⟨0x00000C00, 15, 0⟩
def WDN_THERM_CFG_TJ_WARN : Fld := ⟨0x00000C04, 31, 24⟩
def WDN_THERM_CFG_HBM_WARN : Fld := ⟨0x00000C04, 23, 16⟩
def WDN_SAFE_STAT_HOLD : Fld := ⟨0x00001800, 31, 31⟩
def WDN_SAFE_STAT_SAFE_STOP : Fld := ⟨0x00001800, 30, 30⟩
def WDN_SAFE_STAT_RESTART : Fld := ⟨0x00001800, 29, 29⟩
def WDN_SAFE_STAT_NO_V : Fld := ⟨0x00001800, 28, 28⟩
def WDN_SAFE_STAT_RESTARTS : Fld := ⟨0x00001800, 27, 24⟩
def WDN_SAFE_STAT_HOLD_MS : Fld := ⟨0x00001800, 15, 0⟩
def WDN_MAD_STAT_TEST_FAIL : Fld := ⟨0x00001804, 31, 31⟩
def WDN_MAD_STAT_CAP_VALID : Fld := ⟨0x00001804, 30, 30⟩
def WDN_MAD_STAT_VERDICT : Fld := ⟨0x00001804, 29, 28⟩
def WDN_MAD_STAT_DIS_64 : Fld := ⟨0x00001804, 27, 24⟩
def WDN_MAD_STAT_DROP : Fld := ⟨0x00001804, 23, 16⟩
def WDN_MAD_STAT_DIS_TOTAL : Fld := ⟨0x00001804, 15, 0⟩
def WDN_MAD_CAP_LO_DETAIL : Fld := ⟨0x00001808, 31, 0⟩
def WDN_MAD_CAP_HI_DETAIL : Fld := ⟨0x0000180C, 31, 0⟩
def WDN_FLOG_STAT_HBM_OK : Fld := ⟨0x00001810, 31, 31⟩
def WDN_FLOG_STAT_SEQ : Fld := ⟨0x00001810, 23, 16⟩
def WDN_FLOG_STAT_DROP : Fld := ⟨0x00001810, 15, 0⟩
def WDN_KERMES_STAT_BUSY : Fld := ⟨0x00001814, 31, 31⟩
def WDN_KERMES_STAT_RETIRED : Fld := ⟨0x00001814, 23, 16⟩
def WDN_KERMES_STAT_FAILS : Fld := ⟨0x00001814, 15, 8⟩
def WDN_KERMES_STAT_PASSES : Fld := ⟨0x00001814, 7, 0⟩
def WDN_SAFE_CTL_RESTART : Fld := ⟨0x00001818, 1, 1⟩
def WDN_SAFE_CTL_STOP : Fld := ⟨0x00001818, 0, 0⟩
def WDN_DOUBT_CNT_COUNT (i : Nat) : Fld := ⟨0x00001840 + 0x4 * i, 31, 0⟩
def WDN_LC_STAT_LC : Fld := ⟨0x00001A00, 31, 29⟩
def WDN_LC_STAT_DBG_LOCK : Fld := ⟨0x00001A00, 28, 28⟩
def WDN_LC_STAT_PROT_FUSE : Fld := ⟨0x00001A00, 27, 26⟩
def WDN_LC_STAT_PROT : Fld := ⟨0x00001A00, 25, 24⟩
def WDN_LC_STAT_KILL : Fld := ⟨0x00001A00, 23, 23⟩
def WDN_LC_STAT_OWNER_SET : Fld := ⟨0x00001A00, 22, 22⟩
def WDN_LC_STAT_FW_FLOOR : Fld := ⟨0x00001A00, 21, 15⟩
def WDN_TAMPER_STAT_LATCH : Fld := ⟨0x00001A08, 31, 31⟩
def WDN_TAMPER_STAT_ASLEEP : Fld := ⟨0x00001A08, 11, 8⟩
def WDN_TAMPER_STAT_TRIP : Fld := ⟨0x00001A08, 3, 0⟩
def WDN_SEC_CNT_KX_REFUSED : Fld := ⟨0x00001A0C, 31, 16⟩
def WDN_SEC_CNT_TAG_FAIL : Fld := ⟨0x00001A0C, 15, 0⟩
def WDN_DEV_ID_ID (i : Nat) : Fld := ⟨0x00001A10 + 0x4 * i, 31, 0⟩
def WDN_BOOT_STAT_STEP : Fld := ⟨0x00001C00, 31, 28⟩
def WDN_BOOT_STAT_BOOT_SEL : Fld := ⟨0x00001C00, 27, 27⟩
def WDN_BOOT_STAT_TWIN_POS : Fld := ⟨0x00001C00, 26, 25⟩
def WDN_BOOT_STAT_BACKUP : Fld := ⟨0x00001C00, 24, 24⟩
def WDN_BOOT_STAT_REREAD : Fld := ⟨0x00001C00, 23, 16⟩
def WDN_BOOT_STAT_INACTIVE : Fld := ⟨0x00001C00, 15, 0⟩
def WDN_BOOT_TIME_FIRST_MS : Fld := ⟨0x00001C04, 31, 16⟩
def WDN_BOOT_TIME_LOAD_MS : Fld := ⟨0x00001C04, 15, 0⟩
def WDN_IMG_DIGEST_DIGEST (i : Nat) : Fld := ⟨0x00001C20 + 0x4 * i, 31, 0⟩
def WDN_JOURNAL_STAT_ENTRIES : Fld := ⟨0x00001C40, 31, 16⟩
def WDN_JOURNAL_STAT_SWAP_GEN : Fld := ⟨0x00001C40, 15, 0⟩
def WDN_PWR_STAT_VCORE : Fld := ⟨0x00001E00, 31, 20⟩
def WDN_PWR_STAT_ICORE : Fld := ⟨0x00001E00, 19, 8⟩
def WDN_PWR_STAT_AVS_ERR : Fld := ⟨0x00001E00, 7, 0⟩
def WDN_THERM_STAT_TJ : Fld := ⟨0x00001E04, 31, 24⟩
def WDN_THERM_STAT_TJ_PEAK : Fld := ⟨0x00001E04, 23, 16⟩
def WDN_THERM_STAT_HBM_T : Fld := ⟨0x00001E04, 15, 8⟩
def WDN_THERM_STAT_HBM_2X : Fld := ⟨0x00001E04, 3, 3⟩
def WDN_THERM_STAT_HBM_FLAG : Fld := ⟨0x00001E04, 2, 2⟩
def WDN_THERM_STAT_TJ_FLAG : Fld := ⟨0x00001E04, 1, 1⟩
def CND_FRAME_PERIOD_PERIOD : Fld := ⟨0x00100100, 17, 0⟩
def CND_FRAME_NUM_FRAME : Fld := ⟨0x00100104, 31, 0⟩
def CND_EDGE_TICK_LO_TICK : Fld := ⟨0x00100108, 31, 0⟩
def CND_EDGE_TICK_HI_TICK : Fld := ⟨0x0010010C, 31, 0⟩
def CND_PHASE_BUDGET_BUDGET (i : Nat) : Fld := ⟨0x00100110 + 0x4 * i, 17, 0⟩
def CND_FRAME_STAT_DOUBT_FLAGS : Fld := ⟨0x00100130, 31, 16⟩
def CND_FRAME_STAT_STATUS : Fld := ⟨0x00100130, 15, 0⟩
def CND_TRUNC_CNT_COUNT : Fld := ⟨0x00100134, 31, 0⟩
def CND_AGE_LIMIT_LIMIT (i : Nat) : Fld := ⟨0x00100140 + 0x4 * i, 22, 0⟩
def CND_NONESS_LO_NONESS : Fld := ⟨0x00100160, 31, 0⟩
def CND_NONESS_HI_NONESS : Fld := ⟨0x00100164, 3, 0⟩
def CND_TELEM_WIN_WORD (i : Nat) : Fld := ⟨0x00100200 + 0x4 * i, 31, 0⟩
def CND_AUDIT_DIGEST (i : Nat) : Fld := ⟨0x00100280 + 0x4 * i, 31, 0⟩
def CND_CAND_CFG_LATTICE_EN : Fld := ⟨0x00100400, 31, 31⟩
def CND_CAND_CFG_SUPPLIED_EN : Fld := ⟨0x00100400, 30, 30⟩
def CND_CAND_CFG_CAP : Fld := ⟨0x00100400, 18, 0⟩
def CND_LAYER_ACTIVE_ACTIVE : Fld := ⟨0x00100404, 15, 0⟩
def CND_LAYER_MARGIN_EXTRA (i : Nat) : Fld := ⟨0x00100440 + 0x4 * i, 9, 0⟩
def CND_SCHED_CFG_AFF_HOLD : Fld := ⟨0x00100600, 23, 16⟩
def CND_SCHED_CFG_ABANDON_MAX : Fld := ⟨0x00100600, 10, 8⟩
def CND_SCHED_CFG_GOAL_WAIT : Fld := ⟨0x00100600, 7, 0⟩
def CND_CAND_CNT_COUNT (i : Nat) : Fld := ⟨0x00101400 + 0x4 * i, 18, 0⟩
def CND_CAND_SKIP_QUOTA : Fld := ⟨0x0010140C, 31, 16⟩
def CND_CAND_SKIP_OTHER : Fld := ⟨0x0010140C, 15, 0⟩
def CND_INFEAS_STAT_KAPPA : Fld := ⟨0x00101410, 31, 24⟩
def CND_INFEAS_STAT_DKAPPA : Fld := ⟨0x00101410, 23, 16⟩
def CND_INFEAS_STAT_SPEED : Fld := ⟨0x00101410, 15, 8⟩
def CND_INFEAS_STAT_JOINT : Fld := ⟨0x00101410, 7, 0⟩
def CND_SCHED_STAT_READY : Fld := ⟨0x00101600, 31, 19⟩
def CND_SCHED_STAT_RUNNING : Fld := ⟨0x00101600, 18, 11⟩
def CND_SCHED_STAT_PULLING : Fld := ⟨0x00101600, 7, 0⟩
def CND_RR_PTR_PTR : Fld := ⟨0x00101604, 9, 0⟩
def CND_OVR_CAP_VALID : Fld := ⟨0x00101608, 31, 31⟩
def CND_OVR_CAP_KIND : Fld := ⟨0x00101608, 30, 29⟩
def CND_OVR_CAP_FRAMEBOUND : Fld := ⟨0x00101608, 28, 28⟩
def CND_OVR_CAP_DOMAIN : Fld := ⟨0x00101608, 27, 24⟩
def CND_OVR_CAP_UNIT : Fld := ⟨0x00101608, 23, 17⟩
def CND_OVR_CAP_TASK : Fld := ⟨0x00101608, 11, 0⟩
def CND_OVR_CNT_WAIT : Fld := ⟨0x0010160C, 31, 16⟩
def CND_OVR_CNT_BUDGET : Fld := ⟨0x0010160C, 15, 0⟩
def CND_LEASE_STAT_USED : Fld := ⟨0x00101610, 31, 20⟩
def CND_LEASE_STAT_REVOKED : Fld := ⟨0x00101610, 19, 10⟩
def CND_LEASE_STAT_WARDEN : Fld := ⟨0x00101610, 9, 0⟩
def CND_LEASE_CAP_VALID : Fld := ⟨0x00101614, 31, 31⟩
def CND_LEASE_CAP_BY_WARDEN : Fld := ⟨0x00101614, 30, 30⟩
def CND_LEASE_CAP_CLASS : Fld := ⟨0x00101614, 29, 27⟩
def CND_LEASE_CAP_HOLDER : Fld := ⟨0x00101614, 26, 20⟩
def CND_LEASE_CAP_RESOURCE : Fld := ⟨0x00101614, 11, 0⟩
def CND_FLOW_STAT_VOID : Fld := ⟨0x00101618, 31, 16⟩
def CND_FLOW_STAT_STALL : Fld := ⟨0x00101618, 15, 0⟩
def CND_REQ_STAT_REFUSED : Fld := ⟨0x0010161C, 31, 16⟩
def CND_REQ_STAT_ACCEPTED : Fld := ⟨0x0010161C, 15, 0⟩
def CND_REQ_CAP_VALID : Fld := ⟨0x00101620, 31, 31⟩
def CND_REQ_CAP_KIND : Fld := ⟨0x00101620, 25, 24⟩
def CND_REQ_CAP_STATUS : Fld := ⟨0x00101620, 23, 16⟩
def CND_REQ_CAP_CLIENT : Fld := ⟨0x00101620, 9, 0⟩
def CND_LONGOP_STAT_OPSTATE (i : Nat) : Fld := ⟨0x00101700 + 0x4 * i, 31, 28⟩
def CND_LONGOP_STAT_OPCODE (i : Nat) : Fld := ⟨0x00101700 + 0x4 * i, 27, 25⟩
def CND_LONGOP_STAT_ABANDONS (i : Nat) : Fld := ⟨0x00101700 + 0x4 * i, 24, 22⟩
def CND_LONGOP_STAT_CLIENT (i : Nat) : Fld := ⟨0x00101700 + 0x4 * i, 19, 10⟩
def CND_LONGOP_STAT_UNITS (i : Nat) : Fld := ⟨0x00101700 + 0x4 * i, 9, 0⟩
def CND_SWAP_CTL_REQ : Fld := ⟨0x00101800, 31, 31⟩
def CND_SWAP_CTL_CANCEL : Fld := ⟨0x00101800, 30, 30⟩
def CND_SWAP_CTL_MASK : Fld := ⟨0x00101800, 12, 0⟩
def CND_SWAP_TARGET_TARGET : Fld := ⟨0x00101804, 31, 0⟩
def CND_SWAP_STAT_STATE : Fld := ⟨0x00101808, 31, 29⟩
def CND_SWAP_STAT_STAGED : Fld := ⟨0x00101808, 28, 16⟩
def CND_SWAP_STAT_REASON : Fld := ⟨0x00101808, 15, 8⟩
def CND_SWAP_FRAME_FRAME : Fld := ⟨0x0010180C, 31, 0⟩
def CND_SWAP_LIMIT_STAGE_LIMIT : Fld := ⟨0x00101810, 15, 0⟩
def CND_RECENTER_STAT_STATE : Fld := ⟨0x00101814, 31, 29⟩
def CND_RECENTER_STAT_REFUSED : Fld := ⟨0x00101814, 15, 0⟩
def CND_EVSEL_EN (i : Nat) : Fld := ⟨0x00101A00 + 0x4 * i, 31, 31⟩
def CND_EVSEL_CLR (i : Nat) : Fld := ⟨0x00101A00 + 0x4 * i, 30, 30⟩
def CND_EVSEL_EVENT (i : Nat) : Fld := ⟨0x00101A00 + 0x4 * i, 7, 0⟩
def CND_EVCNT_COUNT (i : Nat) : Fld := ⟨0x00101A40 + 0x8 * i, 31, 0⟩
def CND_EVCNT_HI_COUNT (i : Nat) : Fld := ⟨0x00101A44 + 0x8 * i, 15, 0⟩
def CND_CLIENT_WORD (i : Nat) (j : Nat) : Fld := ⟨0x00110000 + 0x10 * i + 0x4 * j, 31, 0⟩
def ING_STREAM_CFG_ENABLE (i : Nat) : Fld := ⟨0x00200100 + 0x4 * i, 31, 31⟩
def ING_STREAM_CFG_WIRED (i : Nat) : Fld := ⟨0x00200100 + 0x4 * i, 30, 29⟩
def ING_STREAM_CFG_VC (i : Nat) : Fld := ⟨0x00200100 + 0x4 * i, 19, 16⟩
def ING_STREAM_CFG_LATENCY (i : Nat) : Fld := ⟨0x00200100 + 0x4 * i, 15, 0⟩
def ING_TEST_PERIOD_INTERVAL_MS : Fld := ⟨0x00200200, 7, 0⟩
def ING_STREAM_STAT_LINK (i : Nat) : Fld := ⟨0x00201000 + 0x4 * i, 31, 31⟩
def ING_STREAM_STAT_FAULTED (i : Nat) : Fld := ⟨0x00201000 + 0x4 * i, 30, 30⟩
def ING_STREAM_STAT_TEST (i : Nat) : Fld := ⟨0x00201000 + 0x4 * i, 29, 28⟩
def ING_STREAM_STAT_SAMPLES (i : Nat) : Fld := ⟨0x00201000 + 0x4 * i, 27, 0⟩
def ING_STREAM_AGE_AGE (i : Nat) : Fld := ⟨0x00201100 + 0x4 * i, 31, 0⟩
def ING_DROP_CNT_PARTIAL (i : Nat) : Fld := ⟨0x00201200 + 0x4 * i, 29, 20⟩
def ING_DROP_CNT_INTEGRITY (i : Nat) : Fld := ⟨0x00201200 + 0x4 * i, 19, 10⟩
def ING_DROP_CNT_OVERRUN (i : Nat) : Fld := ⟨0x00201200 + 0x4 * i, 9, 0⟩
def ING_TEST_FAIL_LO_FAIL : Fld := ⟨0x00201300, 31, 0⟩
def ING_TEST_FAIL_HI_FAIL : Fld := ⟨0x00201304, 3, 0⟩
def WLD_CFG_UNSEEN_BLOCK : Fld := ⟨0x00300100, 16, 16⟩
def WLD_CFG_UNSEEN_COST : Fld := ⟨0x00300100, 15, 0⟩
def WLD_OCC_PARAM_HIT : Fld := ⟨0x00300104, 31, 24⟩
def WLD_OCC_PARAM_MISS : Fld := ⟨0x00300104, 23, 16⟩
def WLD_OCC_PARAM_OCC_TH : Fld := ⟨0x00300104, 15, 8⟩
def WLD_OCC_PARAM_CAM_HIT : Fld := ⟨0x00300104, 7, 0⟩
def WLD_GROUND_CROP_MAX : Fld := ⟨0x00300108, 23, 16⟩
def WLD_GROUND_DROP : Fld := ⟨0x00300108, 15, 8⟩
def WLD_GROUND_BAND : Fld := ⟨0x00300108, 7, 0⟩
def WLD_REACH_REACH : Fld := ⟨0x0030010C, 7, 0⟩
def WLD_EPOCH_EPOCH : Fld := ⟨0x00301000, 31, 0⟩
def WLD_WIN_ORG_XY_WX : Fld := ⟨0x00301004, 31, 16⟩
def WLD_WIN_ORG_XY_WY : Fld := ⟨0x00301004, 15, 0⟩
def WLD_WIN_ORG_Z_WZ : Fld := ⟨0x00301008, 15, 0⟩
def WLD_ORIGIN_GEN_GEN : Fld := ⟨0x0030100C, 15, 0⟩
def WLD_ORIGIN_FX_POS : Fld := ⟨0x00301010, 31, 0⟩
def WLD_ORIGIN_FY_POS : Fld := ⟨0x00301014, 31, 0⟩
def WLD_ORIGIN_FZ_POS : Fld := ⟨0x00301018, 31, 0⟩
def WLD_NEAR_STAT_NEAR : Fld := ⟨0x00301020, 31, 16⟩
def WLD_NEAR_STAT_SOLID : Fld := ⟨0x00301020, 15, 0⟩
def WLD_DENY_CNT_COUNT : Fld := ⟨0x00301024, 31, 0⟩
def WLD_FUSE_STAT_PENDING : Fld := ⟨0x00301028, 31, 16⟩
def WLD_FUSE_STAT_LAG : Fld := ⟨0x00301028, 15, 0⟩
def WLD_ERR_STAT_DEFER : Fld := ⟨0x0030102C, 6, 6⟩
def WLD_ERR_STAT_PRIOR_LATE : Fld := ⟨0x0030102C, 5, 5⟩
def WLD_ERR_STAT_POSE_GAP : Fld := ⟨0x0030102C, 4, 4⟩
def WLD_ERR_STAT_LATE_EPOCH : Fld := ⟨0x0030102C, 3, 3⟩
def WLD_ERR_STAT_SEPIA : Fld := ⟨0x0030102C, 2, 2⟩
def WLD_ERR_STAT_OCC_FULL : Fld := ⟨0x0030102C, 1, 1⟩
def WLD_ERR_STAT_DENY : Fld := ⟨0x0030102C, 0, 0⟩
def WLD_MAPLD_SEG_OPEN : Fld := ⟨0x00301040, 31, 25⟩
def WLD_MAPLD_SEG_LAST : Fld := ⟨0x00301040, 24, 19⟩
def WLD_MAPLD_SEG_WAITS : Fld := ⟨0x00301040, 15, 0⟩
def INF_TILE_STAT_STATE (i : Nat) : Fld := ⟨0x00401000 + 0x10000 * i, 31, 30⟩
def INF_TILE_STAT_DOMAIN (i : Nat) : Fld := ⟨0x00401000 + 0x10000 * i, 29, 26⟩
def INF_TILE_STAT_ENG_OK (i : Nat) : Fld := ⟨0x00401000 + 0x10000 * i, 25, 22⟩
def INF_TILE_STAT_TASK (i : Nat) : Fld := ⟨0x00401000 + 0x10000 * i, 11, 0⟩
def INF_TILE_RG_CNT_CRIT (i : Nat) : Fld := ⟨0x00401004 + 0x10000 * i, 31, 16⟩
def INF_TILE_RG_CNT_NONCRIT (i : Nat) : Fld := ⟨0x00401004 + 0x10000 * i, 15, 0⟩
def INF_TILE_SEPIA_CNT_COUNT (i : Nat) : Fld := ⟨0x00401008 + 0x10000 * i, 31, 0⟩
def INF_TILE_SCRATCH_PEAK (i : Nat) : Fld := ⟨0x0040100C + 0x10000 * i, 31, 16⟩
def INF_TILE_SCRATCH_ALLOC (i : Nat) : Fld := ⟨0x0040100C + 0x10000 * i, 15, 0⟩
def INF_SLOT_CNT_COUNT (i : Nat) : Fld := ⟨0x00401100 + 0x10000 * i, 31, 0⟩
def INF_SLOT_CNT_HI_COUNT (i : Nat) : Fld := ⟨0x00401104 + 0x10000 * i, 15, 0⟩
def INF_EVSEL_EN (i : Nat) (j : Nat) : Fld := ⟨0x00401110 + 0x10000 * i + 0x4 * j, 31, 31⟩
def INF_EVSEL_CLR (i : Nat) (j : Nat) : Fld := ⟨0x00401110 + 0x10000 * i + 0x4 * j, 30, 30⟩
def INF_EVSEL_EVENT (i : Nat) (j : Nat) : Fld := ⟨0x00401110 + 0x10000 * i + 0x4 * j, 7, 0⟩
def INF_EVCNT_COUNT (i : Nat) (j : Nat) : Fld := ⟨0x00401140 + 0x10000 * i + 0x8 * j, 31, 0⟩
def INF_EVCNT_HI_COUNT (i : Nat) (j : Nat) : Fld := ⟨0x00401144 + 0x10000 * i + 0x8 * j, 15, 0⟩
def INF_PROP_CFG_SCORE_FLOOR : Fld := ⟨0x00480100, 31, 24⟩
def INF_PROP_CFG_MAX_LEARNED : Fld := ⟨0x00480100, 18, 0⟩
def INF_TRAV_CFG_STREAM_MASK : Fld := ⟨0x00480104, 31, 16⟩
def INF_TRAV_CFG_DECIM : Fld := ⟨0x00480104, 7, 0⟩
def INF_RG_WATCH_EN : Fld := ⟨0x00480108, 31, 31⟩
def INF_RG_WATCH_MODEL : Fld := ⟨0x00480108, 16, 13⟩
def INF_RG_WATCH_TENSOR : Fld := ⟨0x00480108, 12, 0⟩
def INF_MODEL_STAT_WPROT : Fld := ⟨0x00481000, 31, 31⟩
def INF_MODEL_STAT_DBG_LOCK : Fld := ⟨0x00481000, 30, 30⟩
def INF_MODEL_STAT_MODELS : Fld := ⟨0x00481000, 20, 16⟩
def INF_MODEL_STAT_IN_SERVICE : Fld := ⟨0x00481000, 7, 0⟩
def INF_RG_CNT_COUNT : Fld := ⟨0x00481004, 31, 0⟩
def INF_RG_CRIT_CNT_COUNT : Fld := ⟨0x00481008, 31, 0⟩
def INF_RG_WATCH_CNT_COUNT : Fld := ⟨0x0048100C, 31, 0⟩
def INF_RG_CAP_ID_VALID : Fld := ⟨0x00481010, 31, 31⟩
def INF_RG_CAP_ID_CRIT : Fld := ⟨0x00481010, 30, 30⟩
def INF_RG_CAP_ID_DIR : Fld := ⟨0x00481010, 29, 29⟩
def INF_RG_CAP_ID_TILE : Fld := ⟨0x00481010, 28, 26⟩
def INF_RG_CAP_ID_ENGINE : Fld := ⟨0x00481010, 25, 24⟩
def INF_RG_CAP_ID_MODEL : Fld := ⟨0x00481010, 16, 13⟩
def INF_RG_CAP_ID_TENSOR : Fld := ⟨0x00481010, 12, 0⟩
def INF_RG_CAP_FRAME_FRAME : Fld := ⟨0x00481014, 31, 0⟩
def INF_SEPIA_CNT_CRIT_OUT : Fld := ⟨0x00481018, 31, 16⟩
def INF_SEPIA_CNT_GATHER : Fld := ⟨0x00481018, 15, 0⟩
def INF_GATHER_FLT_VALID : Fld := ⟨0x0048101C, 31, 31⟩
def INF_GATHER_FLT_KIND : Fld := ⟨0x0048101C, 30, 30⟩
def INF_GATHER_FLT_TILE : Fld := ⟨0x0048101C, 29, 27⟩
def INF_GATHER_FLT_ELEMENT : Fld := ⟨0x0048101C, 26, 23⟩
def INF_GATHER_ADDR_LO_ADDR : Fld := ⟨0x00481020, 31, 0⟩
def INF_GATHER_ADDR_HI_ADDR : Fld := ⟨0x00481024, 7, 0⟩
def INF_RELEASE_RELEASE : Fld := ⟨0x00481028, 7, 0⟩
def SWP_TILE_STAT_STATE (i : Nat) (j : Nat) : Fld := ⟨0x00500000 + 0x20000 * i + 0x2000 * j, 31, 30⟩
def SWP_TILE_STAT_DOMAIN (i : Nat) (j : Nat) : Fld := ⟨0x00500000 + 0x20000 * i + 0x2000 * j, 29, 26⟩
def SWP_TILE_STAT_ENG_OK (i : Nat) (j : Nat) : Fld := ⟨0x00500000 + 0x20000 * i + 0x2000 * j, 25, 25⟩
def SWP_TILE_STAT_IN_FLIGHT (i : Nat) (j : Nat) : Fld := ⟨0x00500000 + 0x20000 * i + 0x2000 * j, 24, 22⟩
def SWP_TILE_STAT_TASK (i : Nat) (j : Nat) : Fld := ⟨0x00500000 + 0x20000 * i + 0x2000 * j, 11, 0⟩
def SWP_TILE_RES_FREE (i : Nat) (j : Nat) : Fld := ⟨0x00500004 + 0x20000 * i + 0x2000 * j, 31, 16⟩
def SWP_TILE_RES_CONTACT (i : Nat) (j : Nat) : Fld := ⟨0x00500004 + 0x20000 * i + 0x2000 * j, 15, 0⟩
def SWP_PASS_CNT_COUNT (i : Nat) (j : Nat) (k : Nat) : Fld := ⟨0x00500010 + 0x20000 * i + 0x2000 * j + 0x4 * k, 31, 0⟩
def SWP_CONTACT_CNT_COUNT (i : Nat) (j : Nat) (k : Nat) : Fld := ⟨0x00500020 + 0x20000 * i + 0x2000 * j + 0x4 * k, 31, 0⟩
def SWP_SEPIA_CNT_COUNT (i : Nat) (j : Nat) : Fld := ⟨0x00500030 + 0x20000 * i + 0x2000 * j, 31, 0⟩
def SWP_SEPIA_CAP_VALID (i : Nat) (j : Nat) : Fld := ⟨0x00500034 + 0x20000 * i + 0x2000 * j, 31, 31⟩
def SWP_SEPIA_CAP_TIMEOUT (i : Nat) (j : Nat) : Fld := ⟨0x00500034 + 0x20000 * i + 0x2000 * j, 30, 30⟩
def SWP_SEPIA_CAP_KIND (i : Nat) (j : Nat) : Fld := ⟨0x00500034 + 0x20000 * i + 0x2000 * j, 29, 28⟩
def SWP_SEPIA_CAP_ELEMENT (i : Nat) (j : Nat) : Fld := ⟨0x00500034 + 0x20000 * i + 0x2000 * j, 27, 24⟩
def SWP_SEPIA_CAP_CAND (i : Nat) (j : Nat) : Fld := ⟨0x00500034 + 0x20000 * i + 0x2000 * j, 17, 0⟩
def SWP_SEPIA_ADDR_LO_ADDR (i : Nat) (j : Nat) : Fld := ⟨0x00500038 + 0x20000 * i + 0x2000 * j, 31, 0⟩
def SWP_SEPIA_ADDR_HI_ADDR (i : Nat) (j : Nat) : Fld := ⟨0x0050003C + 0x20000 * i + 0x2000 * j, 7, 0⟩
def SWP_OVR_STAT_VALID (i : Nat) (j : Nat) : Fld := ⟨0x00500040 + 0x20000 * i + 0x2000 * j, 31, 31⟩
def SWP_OVR_STAT_BLOCK (i : Nat) (j : Nat) : Fld := ⟨0x00500040 + 0x20000 * i + 0x2000 * j, 30, 12⟩
def SWP_OVR_STAT_TASK (i : Nat) (j : Nat) : Fld := ⟨0x00500040 + 0x20000 * i + 0x2000 * j, 11, 0⟩
def SWP_SLOT_CNT_COUNT (i : Nat) (j : Nat) : Fld := ⟨0x00500100 + 0x20000 * i + 0x2000 * j, 31, 0⟩
def SWP_SLOT_CNT_HI_COUNT (i : Nat) (j : Nat) : Fld := ⟨0x00500104 + 0x20000 * i + 0x2000 * j, 15, 0⟩
def SWP_EVSEL_EN (i : Nat) (j : Nat) (k : Nat) : Fld := ⟨0x00500110 + 0x20000 * i + 0x2000 * j + 0x4 * k, 31, 31⟩
def SWP_EVSEL_CLR (i : Nat) (j : Nat) (k : Nat) : Fld := ⟨0x00500110 + 0x20000 * i + 0x2000 * j + 0x4 * k, 30, 30⟩
def SWP_EVSEL_EVENT (i : Nat) (j : Nat) (k : Nat) : Fld := ⟨0x00500110 + 0x20000 * i + 0x2000 * j + 0x4 * k, 7, 0⟩
def SWP_EVCNT_COUNT (i : Nat) (j : Nat) (k : Nat) : Fld := ⟨0x00500140 + 0x20000 * i + 0x2000 * j + 0x8 * k, 31, 0⟩
def SWP_EVCNT_HI_COUNT (i : Nat) (j : Nat) (k : Nat) : Fld := ⟨0x00500144 + 0x20000 * i + 0x2000 * j + 0x8 * k, 15, 0⟩
def SWP_STW_CFG_QUAR_MAX (i : Nat) : Fld := ⟨0x00510100 + 0x20000 * i, 31, 24⟩
def SWP_STW_CFG_FLUSH_LEAD (i : Nat) : Fld := ⟨0x00510100 + 0x20000 * i, 23, 16⟩
def SWP_STW_CFG_GATHER_TO (i : Nat) : Fld := ⟨0x00510100 + 0x20000 * i, 15, 8⟩
def SWP_STW_CFG_BLOCK (i : Nat) : Fld := ⟨0x00510100 + 0x20000 * i, 6, 0⟩
def SWP_PEER_CFG_PEER_WIN (i : Nat) : Fld := ⟨0x00510104 + 0x20000 * i, 31, 16⟩
def SWP_PEER_CFG_PEER_TH (i : Nat) : Fld := ⟨0x00510104 + 0x20000 * i, 9, 0⟩
def SWP_TASK_BUDGET_BUDGET (i : Nat) : Fld := ⟨0x00510108 + 0x20000 * i, 15, 0⟩
def SWP_STW_STAT_POOL (i : Nat) : Fld := ⟨0x00511000 + 0x20000 * i, 31, 24⟩
def SWP_STW_STAT_QUAR (i : Nat) : Fld := ⟨0x00511000 + 0x20000 * i, 23, 16⟩
def SWP_STW_STAT_TESTED_OK (i : Nat) : Fld := ⟨0x00511000 + 0x20000 * i, 15, 8⟩
def SWP_STW_STAT_TEST_ACTIVE (i : Nat) : Fld := ⟨0x00511000 + 0x20000 * i, 3, 3⟩
def SWP_STW_STAT_TEST_TILE (i : Nat) : Fld := ⟨0x00511000 + 0x20000 * i, 2, 0⟩
def SWP_STW_QUAR_QUAR (i : Nat) : Fld := ⟨0x00511004 + 0x20000 * i, 7, 0⟩
def SWP_STW_RELEASE_RELEASE (i : Nat) : Fld := ⟨0x00511008 + 0x20000 * i, 7, 0⟩
def SWP_TILE_DOMAIN_DOMAIN (i : Nat) : Fld := ⟨0x0051100C + 0x20000 * i, 31, 0⟩
def SWP_TEST_FAIL_FAIL_CNT (i : Nat) : Fld := ⟨0x00511010 + 0x20000 * i, 31, 16⟩
def SWP_TEST_FAIL_FAIL (i : Nat) : Fld := ⟨0x00511010 + 0x20000 * i, 7, 0⟩
def SWP_PEER_FLAG_FLAG (i : Nat) : Fld := ⟨0x00511014 + 0x20000 * i, 7, 0⟩
def SWP_PEER_RATIO_RESOLVED (i : Nat) (j : Nat) : Fld := ⟨0x00511020 + 0x20000 * i + 0x4 * j, 31, 16⟩
def SWP_PEER_RATIO_RATIO (i : Nat) (j : Nat) : Fld := ⟨0x00511020 + 0x20000 * i + 0x4 * j, 15, 0⟩
def SWP_STW_EVSEL_EN (i : Nat) (j : Nat) : Fld := ⟨0x00511100 + 0x20000 * i + 0x4 * j, 31, 31⟩
def SWP_STW_EVSEL_CLR (i : Nat) (j : Nat) : Fld := ⟨0x00511100 + 0x20000 * i + 0x4 * j, 30, 30⟩
def SWP_STW_EVSEL_EVENT (i : Nat) (j : Nat) : Fld := ⟨0x00511100 + 0x20000 * i + 0x4 * j, 7, 0⟩
def SWP_STW_EVCNT_COUNT (i : Nat) (j : Nat) : Fld := ⟨0x00511140 + 0x20000 * i + 0x8 * j, 31, 0⟩
def SWP_STW_EVCNT_HI_COUNT (i : Nat) (j : Nat) : Fld := ⟨0x00511144 + 0x20000 * i + 0x8 * j, 15, 0⟩
def SEL_CFG_COMPAT_K64 : Fld := ⟨0x00600100, 31, 31⟩
def SEL_CFG_CLIENT_K_MAX : Fld := ⟨0x00600100, 10, 0⟩
def SEL_STAT_TEST_FAIL : Fld := ⟨0x00601000, 31, 31⟩
def SEL_STAT_LISTS : Fld := ⟨0x00601000, 22, 16⟩
def SEL_STAT_UNMERGED : Fld := ⟨0x00601000, 15, 0⟩
def SEL_HANDOVER_TICKS : Fld := ⟨0x00601004, 31, 0⟩
def SEL_LANE_CNT_COUNT (i : Nat) : Fld := ⟨0x00601010 + 0x4 * i, 31, 0⟩
def SEL_DROP_CNT_0_LATE : Fld := ⟨0x00601020, 31, 16⟩
def SEL_DROP_CNT_0_QUAR : Fld := ⟨0x00601020, 15, 0⟩
def SEL_DROP_CNT_1_STALE : Fld := ⟨0x00601024, 31, 16⟩
def SEL_DROP_CNT_1_BAD : Fld := ⟨0x00601024, 15, 0⟩
def SEL_TOP_LO_KEY (i : Nat) : Fld := ⟨0x00601040 + 0x8 * i, 31, 0⟩
def SEL_TOP_HI_KEY (i : Nat) : Fld := ⟨0x00601044 + 0x8 * i, 31, 0⟩
def SEL_FAULT_CAP_VALID : Fld := ⟨0x00601060, 31, 31⟩
def SEL_FAULT_CAP_KIND : Fld := ⟨0x00601060, 30, 29⟩
def SEL_FAULT_CAP_LANE : Fld := ⟨0x00601060, 28, 27⟩
def SEL_FAULT_CAP_TILE : Fld := ⟨0x00601060, 26, 21⟩
def SEL_FAULT_CAP_CAND : Fld := ⟨0x00601060, 17, 0⟩
def SLV_CFG_EN : Fld := ⟨0x00680100, 31, 31⟩
def SLV_CFG_WARM_EN : Fld := ⟨0x00680100, 30, 30⟩
def SLV_CFG_MAX_ITER : Fld := ⟨0x00680100, 29, 27⟩
def SLV_CFG_W_SOL : Fld := ⟨0x00680100, 23, 16⟩
def SLV_CFG_UPD_TH : Fld := ⟨0x00680100, 7, 0⟩
def SLV_WEIGHT_0_W_TRK : Fld := ⟨0x00680104, 31, 16⟩
def SLV_WEIGHT_0_W_DK : Fld := ⟨0x00680104, 15, 0⟩
def SLV_WEIGHT_1_W_DV : Fld := ⟨0x00680108, 31, 16⟩
def SLV_WEIGHT_1_W_JNT : Fld := ⟨0x00680108, 15, 0⟩
def SLV_CONV_PIVOT_MIN : Fld := ⟨0x0068010C, 31, 16⟩
def SLV_CONV_MU_SHIFT : Fld := ⟨0x0068010C, 15, 12⟩
def SLV_CONV_TOL : Fld := ⟨0x0068010C, 11, 0⟩
def SLV_ITER_BUDGET_BUDGET : Fld := ⟨0x00680110, 15, 0⟩
def SLV_STAT_TEST_FAIL : Fld := ⟨0x00681000, 31, 31⟩
def SLV_STAT_IN_SERVICE : Fld := ⟨0x00681000, 27, 24⟩
def SLV_STAT_TESTED_OK : Fld := ⟨0x00681000, 23, 20⟩
def SLV_STAT_TRUNC : Fld := ⟨0x00681000, 15, 0⟩
def SLV_RESULT_LANE : Fld := ⟨0x00681004, 29, 28⟩
def SLV_RESULT_KIND : Fld := ⟨0x00681004, 27, 24⟩
def SLV_RESULT_ITER : Fld := ⟨0x00681004, 23, 21⟩
def SLV_RESULT_INDEX : Fld := ⟨0x00681004, 17, 0⟩
def SLV_LANE_STAT_OUTCOME (i : Nat) : Fld := ⟨0x00681010 + 0x4 * i, 31, 29⟩
def SLV_LANE_STAT_WARM (i : Nat) : Fld := ⟨0x00681010 + 0x4 * i, 28, 28⟩
def SLV_LANE_STAT_ITER (i : Nat) : Fld := ⟨0x00681010 + 0x4 * i, 27, 25⟩
def SLV_LANE_STAT_REJECT (i : Nat) : Fld := ⟨0x00681010 + 0x4 * i, 24, 21⟩
def SLV_LANE_STAT_INDEX (i : Nat) : Fld := ⟨0x00681010 + 0x4 * i, 17, 0⟩
def SLV_RG_CNT_CRIT : Fld := ⟨0x00681020, 31, 16⟩
def SLV_RG_CNT_NONCRIT : Fld := ⟨0x00681020, 15, 0⟩
def SLV_EVENT_CNT_PIVOT : Fld := ⟨0x00681024, 31, 16⟩
def SLV_EVENT_CNT_STALL : Fld := ⟨0x00681024, 15, 0⟩
def SLV_RELEASE_RELEASE : Fld := ⟨0x00681028, 3, 0⟩
def WOD_PAIR_CFG_B_ALONE : Fld := ⟨0x00700100, 31, 31⟩
def WOD_PAIR_CFG_XDIS_MAX : Fld := ⟨0x00700100, 30, 24⟩
def WOD_PAIR_CFG_XLATE_MAX : Fld := ⟨0x00700100, 23, 16⟩
def WOD_PAIR_CFG_ELIG_HOLD : Fld := ⟨0x00700100, 15, 0⟩
def WOD_EDGE_CFG_SILENT_US : Fld := ⟨0x00700104, 31, 16⟩
def WOD_EDGE_CFG_EDGE_LAG : Fld := ⟨0x00700104, 15, 8⟩
def WOD_EDGE_CFG_SWAP_LEAD : Fld := ⟨0x00700104, 7, 0⟩
def WOD_PAIR_STAT_STATE : Fld := ⟨0x00701000, 31, 28⟩
def WOD_PAIR_STAT_POS : Fld := ⟨0x00701000, 27, 26⟩
def WOD_PAIR_STAT_ELIGIBLE : Fld := ⟨0x00701000, 25, 25⟩
def WOD_PAIR_STAT_LINK : Fld := ⟨0x00701000, 24, 24⟩
def WOD_PAIR_STAT_DEG_REASON : Fld := ⟨0x00701000, 23, 20⟩
def WOD_PAIR_STAT_FORM_FAIL : Fld := ⟨0x00701000, 19, 16⟩
def WOD_PAIR_STAT_TX_LANES : Fld := ⟨0x00701000, 7, 4⟩
def WOD_PAIR_STAT_RX_LANES : Fld := ⟨0x00701000, 3, 0⟩
def WOD_SKEW_MAX_ABS : Fld := ⟨0x00701004, 31, 16⟩
def WOD_SKEW_SKEW : Fld := ⟨0x00701004, 15, 0⟩
def WOD_OFS_LO_OFS : Fld := ⟨0x00701008, 31, 0⟩
def WOD_OFS_HI_OFS : Fld := ⟨0x0070100C, 31, 0⟩
def WOD_DELAY_DELAY : Fld := ⟨0x00701010, 31, 16⟩
def WOD_DELAY_UNC : Fld := ⟨0x00701010, 15, 0⟩
def WOD_LINK_CNT_RETRY : Fld := ⟨0x00701014, 31, 16⟩
def WOD_LINK_CNT_DOWN : Fld := ⟨0x00701014, 15, 0⟩
def WOD_XPORT_CNT_AUTH : Fld := ⟨0x00701018, 31, 16⟩
def WOD_XPORT_CNT_REPLAY : Fld := ⟨0x00701018, 15, 0⟩
def WOD_XVER_STAT_XDIS_64 : Fld := ⟨0x0070101C, 31, 24⟩
def WOD_XVER_STAT_XLATE_RUN : Fld := ⟨0x0070101C, 23, 16⟩
def WOD_XVER_STAT_TWIN_EMIT : Fld := ⟨0x0070101C, 15, 0⟩
def WOD_DIGEST_STAT_PENDING : Fld := ⟨0x00701020, 25, 16⟩
def WOD_DIGEST_STAT_MISM : Fld := ⟨0x00701020, 9, 0⟩
def WOD_SWAP_STAT_SWAP_GEN : Fld := ⟨0x00701024, 31, 16⟩
def WOD_SWAP_STAT_REFUSED : Fld := ⟨0x00701024, 15, 8⟩
def WOD_SWAP_STAT_LAST_REASON : Fld := ⟨0x00701024, 7, 0⟩
def VBS_GUID_CFG_HB_TIMEOUT : Fld := ⟨0x00740100, 31, 24⟩
def VBS_GUID_CFG_HB_LAPSE : Fld := ⟨0x00740100, 23, 16⟩
def VBS_GUID_CFG_TX_INT : Fld := ⟨0x00740100, 14, 11⟩
def VBS_GUID_CFG_GID_BASE : Fld := ⟨0x00740100, 10, 0⟩
def VBS_STAT_CFG_ISO_GUID : Fld := ⟨0x00740104, 31, 31⟩
def VBS_STAT_CFG_STAT_PERIOD : Fld := ⟨0x00740104, 15, 0⟩
def VBS_PORT_CFG_ROLE (i : Nat) : Fld := ⟨0x00740200 + 0x4 * i, 31, 30⟩
def VBS_PORT_CFG_MODE (i : Nat) : Fld := ⟨0x00740200 + 0x4 * i, 29, 28⟩
def VBS_PORT_CFG_NOM (i : Nat) : Fld := ⟨0x00740200 + 0x4 * i, 27, 20⟩
def VBS_PORT_CFG_DATA (i : Nat) : Fld := ⟨0x00740200 + 0x4 * i, 19, 12⟩
def VBS_PORT_STAT_STATE (i : Nat) : Fld := ⟨0x00741000 + 0x4 * i, 31, 30⟩
def VBS_PORT_STAT_TEC (i : Nat) : Fld := ⟨0x00741000 + 0x4 * i, 23, 16⟩
def VBS_PORT_STAT_REC (i : Nat) : Fld := ⟨0x00741000 + 0x4 * i, 15, 8⟩
def VBS_PORT_STAT_BOFF_CNT (i : Nat) : Fld := ⟨0x00741000 + 0x4 * i, 7, 0⟩
def VBS_RX_CNT_ACCEPTED (i : Nat) : Fld := ⟨0x00741010 + 0x4 * i, 31, 16⟩
def VBS_RX_CNT_UNMATCHED (i : Nat) : Fld := ⟨0x00741010 + 0x4 * i, 15, 0⟩
def VBS_GUID_STAT_BSEQ : Fld := ⟨0x00741020, 31, 16⟩
def VBS_GUID_STAT_ABANDON : Fld := ⟨0x00741020, 15, 8⟩
def VBS_GUID_STAT_REPLACED : Fld := ⟨0x00741020, 7, 0⟩
def VBS_HB_STAT_LAPSED : Fld := ⟨0x00741024, 31, 31⟩
def VBS_HB_STAT_OVER : Fld := ⟨0x00741024, 30, 30⟩
def VBS_HB_STAT_LAST_CTR : Fld := ⟨0x00741024, 23, 16⟩
def VBS_HB_STAT_LAPSE_MAX : Fld := ⟨0x00741024, 15, 0⟩
def VBS_ISO_STAT_CLAIM : Fld := ⟨0x00741028, 31, 30⟩
def VBS_ISO_STAT_CONTESTS : Fld := ⟨0x00741028, 15, 8⟩
def VBS_ISO_STAT_ADDR : Fld := ⟨0x00741028, 7, 0⟩
def OCH_CFG_PLCA_EN : Fld := ⟨0x00780100, 31, 31⟩
def OCH_CFG_COORD : Fld := ⟨0x00780100, 30, 30⟩
def OCH_CFG_NODE_CNT : Fld := ⟨0x00780100, 23, 16⟩
def OCH_CFG_NODE : Fld := ⟨0x00780100, 7, 0⟩
def OCH_STAT_PLCA_ACTIVE : Fld := ⟨0x00781000, 31, 31⟩
def OCH_STAT_BEACON_LOST : Fld := ⟨0x00781000, 30, 30⟩
def OCH_STAT_COLL : Fld := ⟨0x00781000, 15, 0⟩
def OCH_TX_CNT_DSEQ : Fld := ⟨0x00781004, 31, 16⟩
def OCH_TX_CNT_RESEND : Fld := ⟨0x00781004, 15, 0⟩
def SUP_LINK_STAT_UP : Fld := ⟨0x007C1000, 31, 31⟩
def SUP_LINK_STAT_SPEED : Fld := ⟨0x007C1000, 30, 28⟩
def SUP_LINK_STAT_WIDTH : Fld := ⟨0x007C1000, 27, 25⟩
def SUP_LINK_STAT_AER_CNT : Fld := ⟨0x007C1000, 15, 0⟩
def SUP_CMD_BASE_LO_ADDR : Fld := ⟨0x007C1010, 31, 0⟩
def SUP_CMD_BASE_HI_ADDR : Fld := ⟨0x007C1014, 31, 0⟩
def SUP_CMP_BASE_LO_ADDR : Fld := ⟨0x007C1018, 31, 0⟩
def SUP_CMP_BASE_HI_ADDR : Fld := ⟨0x007C101C, 31, 0⟩
def SUP_CMD_CTL_EN : Fld := ⟨0x007C1020, 31, 31⟩
def SUP_CMD_CTL_SIZE : Fld := ⟨0x007C1020, 12, 0⟩
def SUP_CMD_TAIL_TAIL : Fld := ⟨0x007C1024, 11, 0⟩
def SUP_CMP_HEAD_ACK : Fld := ⟨0x007C1028, 27, 16⟩
def SUP_CMP_HEAD_HEAD : Fld := ⟨0x007C1028, 11, 0⟩
def SUP_KX_CTL_GO : Fld := ⟨0x007C1030, 31, 31⟩
def SUP_KX_STAT_STATE : Fld := ⟨0x007C1034, 31, 30⟩
def SUP_KX_STAT_SLOT : Fld := ⟨0x007C1034, 15, 8⟩
def SUP_KX_STAT_REASON : Fld := ⟨0x007C1034, 7, 0⟩
def SUP_LC_CTL_GO : Fld := ⟨0x007C1038, 31, 31⟩
def SUP_LC_STAT_STATE : Fld := ⟨0x007C103C, 31, 30⟩
def SUP_LC_STAT_SLOT : Fld := ⟨0x007C103C, 15, 8⟩
def SUP_LC_STAT_REASON : Fld := ⟨0x007C103C, 7, 0⟩
def SUP_LC_NONCE_NONCE : Fld := ⟨0x007C1040, 31, 0⟩
def SUP_SLOT_CNT_REPLAY : Fld := ⟨0x007C1044, 31, 16⟩
def SUP_SLOT_CNT_CLOSED : Fld := ⟨0x007C1044, 15, 0⟩
def SUP_SLOT_CAP_VALID : Fld := ⟨0x007C1048, 31, 31⟩
def SUP_SLOT_CAP_CAUSE : Fld := ⟨0x007C1048, 30, 29⟩
def SUP_SLOT_CAP_SLOT : Fld := ⟨0x007C1048, 7, 0⟩
def SUP_SWAP_CTL_REQ : Fld := ⟨0x007C1050, 31, 31⟩
def SUP_SWAP_CTL_CANCEL : Fld := ⟨0x007C1050, 30, 30⟩
def SUP_SWAP_CTL_MASK : Fld := ⟨0x007C1050, 12, 0⟩
def SUP_SWAP_TARGET_TARGET : Fld := ⟨0x007C1054, 31, 0⟩
def SUP_REPLAY_CTL_ENTER : Fld := ⟨0x007C1060, 31, 31⟩
def SUP_REPLAY_CTL_EXIT : Fld := ⟨0x007C1060, 30, 30⟩
def SUP_REPLAY_CTL_SLOT : Fld := ⟨0x007C1060, 7, 0⟩
def SUP_REPLAY_STAT_STATE : Fld := ⟨0x007C1064, 31, 30⟩
def SUP_REPLAY_STAT_REFUSED : Fld := ⟨0x007C1064, 29, 29⟩
def SUP_REPLAY_STAT_REASON : Fld := ⟨0x007C1064, 27, 24⟩
def SUP_REPLAY_STAT_LATE : Fld := ⟨0x007C1064, 23, 16⟩
def SUP_REPLAY_STAT_FRAMES : Fld := ⟨0x007C1064, 15, 0⟩
def SUP_MBOX_WORD (i : Nat) : Fld := ⟨0x007C4000 + 0x4 * i, 31, 0⟩
def MEM_SCRUB_CFG_HBM_PERIOD : Fld := ⟨0x00800100, 31, 16⟩
def MEM_SCRUB_CFG_SRAM_PERIOD : Fld := ⟨0x00800100, 15, 0⟩
def MEM_CE_CFG_CE_TH : Fld := ⟨0x00800104, 15, 0⟩
def MEM_CE_CNT_COUNT : Fld := ⟨0x00801000, 31, 0⟩
def MEM_UE_CNT_SCRUB_UE : Fld := ⟨0x00801004, 31, 16⟩
def MEM_UE_CNT_READ_UE : Fld := ⟨0x00801004, 15, 0⟩
def MEM_SEPIA_CNT_PARTIAL : Fld := ⟨0x00801008, 31, 16⟩
def MEM_SEPIA_CNT_MARK_READ : Fld := ⟨0x00801008, 15, 0⟩
def MEM_ERR_CAP_VALID : Fld := ⟨0x0080100C, 31, 31⟩
def MEM_ERR_CAP_KIND : Fld := ⟨0x0080100C, 30, 28⟩
def MEM_ERR_CAP_SYNDROME : Fld := ⟨0x0080100C, 27, 20⟩
def MEM_ERR_CAP_MEMORY : Fld := ⟨0x0080100C, 2, 0⟩
def MEM_ERR_ADDR_LO_ADDR : Fld := ⟨0x00801010, 31, 0⟩
def MEM_ERR_ADDR_HI_ADDR : Fld := ⟨0x00801014, 7, 0⟩
def MEM_SCRUB_STAT_SRAM_LAG : Fld := ⟨0x00801018, 31, 31⟩
def MEM_SCRUB_STAT_HBM_LAG : Fld := ⟨0x00801018, 30, 30⟩
def MEM_SCRUB_STAT_HBM_PASS : Fld := ⟨0x00801018, 23, 16⟩
def MEM_SCRUB_STAT_SRAM_PASS : Fld := ⟨0x00801018, 15, 0⟩
def MEM_WW_STAT_REFUSED : Fld := ⟨0x00801020, 31, 16⟩
def MEM_WW_STAT_MIXED : Fld := ⟨0x00801020, 15, 0⟩
def MEM_WW_CAP_VALID : Fld := ⟨0x00801024, 31, 31⟩
def MEM_WW_CAP_REFUSED : Fld := ⟨0x00801024, 30, 30⟩
def MEM_WW_CAP_TABLE : Fld := ⟨0x00801024, 29, 27⟩
def MEM_WW_CAP_REQUESTER : Fld := ⟨0x00801024, 26, 24⟩
def MEM_WW_CAP_OFFSET : Fld := ⟨0x00801024, 23, 0⟩
def MEM_WIPE_STAT_BUSY : Fld := ⟨0x00801028, 31, 31⟩
def MEM_WIPE_STAT_VERIFY_FAIL : Fld := ⟨0x00801028, 30, 30⟩
def MEM_WIPE_STAT_LAST : Fld := ⟨0x00801028, 19, 0⟩
def MEM_CHAN_DOMAIN_LO_DOMAIN : Fld := ⟨0x0080102C, 31, 0⟩
def MEM_CHAN_DOMAIN_HI_DOMAIN : Fld := ⟨0x00801030, 31, 0⟩
def MEM_WAY_DOMAIN_LO_DOMAIN (i : Nat) : Fld := ⟨0x00801040 + 0x8 * i, 31, 0⟩
def MEM_WAY_DOMAIN_HI_DOMAIN (i : Nat) : Fld := ⟨0x00801044 + 0x8 * i, 31, 0⟩
def MEM_HBM_STAT_DEV_CE : Fld := ⟨0x00801080, 31, 16⟩
def MEM_HBM_STAT_CHAN_OK : Fld := ⟨0x00801080, 15, 0⟩
def IND_CFG_IGN_EN : Fld := ⟨0x00F00100, 31, 31⟩
def IND_CFG_WAKE_EN : Fld := ⟨0x00F00100, 30, 30⟩
def IND_CFG_ALARM_EN : Fld := ⟨0x00F00100, 29, 29⟩
def IND_CFG_IGN_HOLD : Fld := ⟨0x00F00100, 15, 0⟩
def IND_ALARM_LO_ALARM : Fld := ⟨0x00F00104, 31, 0⟩
def IND_ALARM_HI_ALARM : Fld := ⟨0x00F00108, 31, 0⟩
def IND_STAT_TVALID : Fld := ⟨0x00F01000, 31, 31⟩
def IND_STAT_IGN : Fld := ⟨0x00F01000, 30, 30⟩
def IND_STAT_WAKE_LVL : Fld := ⟨0x00F01000, 29, 29⟩
def IND_STAT_WAKE : Fld := ⟨0x00F01000, 28, 26⟩
def IND_STAT_LAST_OFF : Fld := ⟨0x00F01000, 25, 23⟩
def IND_TIME_LO_TICK : Fld := ⟨0x00F01004, 31, 0⟩
def IND_TIME_HI_TICK : Fld := ⟨0x00F01008, 31, 0⟩
def IND_TRIM_TRIM : Fld := ⟨0x00F0100C, 15, 0⟩
def IND_WDOG_KICK : Fld := ⟨0x00F01010, 31, 31⟩
def IND_WDOG_EXPIRED : Fld := ⟨0x00F01010, 30, 30⟩
def IND_WDOG_LEFT : Fld := ⟨0x00F01010, 9, 0⟩
def IND_SLEEP_CTL_SLEEP : Fld := ⟨0x00F01014, 31, 31⟩
def IND_LOG_HEAD_NEXT : Fld := ⟨0x00F01018, 13, 8⟩
def IND_LOG_HEAD_COUNT : Fld := ⟨0x00F01018, 6, 0⟩
def IND_LOG_WORD (i : Nat) : Fld := ⟨0x00F02000 + 0x4 * i, 31, 0⟩

end Sys2Proof.Machine.F
end

