-- ==== Sys2Proof/Machine/State.lean ====
section
/-! DEFINITION. Machine/State.lean: the state of the block as plain data, the faults and refusals, and the state right
after reset. A register whose bits the register tables give is held in State.regs, sparsely; what the text gives a
meaning beyond a register (queues, buffers, contexts, pins, the world, the trajectory that Umber holds) has a field of
its own. -/

namespace Sys2Proof.Machine

/-- A sparse table: entries with rising keys, none equal to what an unlisted key reads as. -/
abbrev Tab (α : Type) := List (Nat × α)

/-- Severities (R15). -/
inductive Severity where
  | note | warning | doubt | fault | fatal
deriving DecidableEq, Repr

/-- A fault record (R421). severity is SEVERITY as a number, client 0xFFFF and domain 0xFF where there is none. -/
structure FaultRec where
  time : Tick
  frame : FrameNo
  unit : Nat
  cls : Nat
  ev : Nat
  detail : Nat
  client : Nat
  domain : Nat
  doubt : Bool
  severity : Nat
  seq : Nat
deriving DecidableEq, Repr

/-- A record in the Warden's record queue and the places that have still to take it (R424, R425). -/
structure QueuedRec where
  entry : FaultRec
  needOchre : Bool
  needHbm : Bool
deriving DecidableEq, Repr

/-- The phase of the device's life between power-on and power-off (R551, R555, R596, R601, R608). -/
inductive DevPhase where
  | powerOn
  | asleep
  | reset
  | running
  | halted
deriving DecidableEq, Repr

/-- Power, the discrete signals and temperature (chapter 18). safeStop and faultN say that the signal is asserted. -/
structure PwrSt where
  phase : DevPhase
  pwrEn : Bool
  pwrgd : Bool
  safeStop : Bool
  faultN : Bool
  ign : Bool
  wakeLvl : Bool
  hbm2x : Bool
  avsMissRun : Nat
  vcoreTarget : Option Nat
  wakeNote : Bool
deriving DecidableEq, Repr

/-- The Indigo island (chapter 18): its count with a 16-bit fraction, its retention log, the tick of the last
watchdog kick, the tamper latch, the comparators that tripped while asleep and those of them still to be handled, the mesh checks failed in a row (R499, R500), and how
far the running period of its crystal is while the core is powered, in 2^-16 tick (R604). -/
structure IndSt where
  powered : Bool
  count : Tick
  frac : Nat
  log : List FaultRec
  logNext : Nat
  logCount : Nat
  wdogKick : Tick
  latch : Bool
  asleepTrip : Nat
  asleepDue : Nat
  meshFails : Nat
  phase : Nat
deriving DecidableEq, Repr

/-- The fuses (R470 to R478, R557). -/
structure FuseSt where
  lc : Nat
  dbgLock : Bool
  prot : Nat
  kill : Bool
  ownerSet : Bool
  ownerDigest : BitVec 256
  fwFloor : Nat
  deviceId : BitVec 128
  keyDestroyed : Bool
deriving DecidableEq, Repr

/-- The time base (R103 to R108). fraction is in 2^-32 tick and trim in ppb. good and miss count consecutive accepted,
and missing or rejected, PPS edges of each receiver; holdTicks is how long the time base has been in holdover. -/
structure TimeSt where
  count : Tick
  frac : Nat
  trim : Int
  trimStep : Tick
  taiOfs : Int
  lastPps : List (Option Tick)
  good : List Nat
  miss : List Nat
  fixAt : List (Option Tick)
  gptpSync : List Bool
  everLocked : Bool
  holdTicks : Nat
  lastSync : List (Option Tick)
  peerDelay : List Nat
deriving DecidableEq, Repr

/-- A sample in the form of R627 with its stamp and the tick at which its reception completed. -/
structure Sample where
  stamp : Tick
  done : Tick
  bytes : List Byte
deriving DecidableEq, Repr

/-- A sample still in reception (R89, R94); lines counts the long packets of an image (R77). -/
structure Filling where
  arrival : Tick
  bytes : List Byte
  bad : Bool
  utcNs : Option Nat
  lines : Nat
deriving DecidableEq, Repr

/-- One stream in Ingress (R87 to R99). slice and snapSlice are a lidar stream's slice in reception, newest first, and
the slice of the running snapshot; epochStamp is the stamp of the newest sample of the stream that entered the world
epoch in force, fusedStamp that of the newest fused since; inEpoch are the samples
that entered the epoch in force, fusedNow those fused since. item is the test item that is being injected, testBuf the
processed item in the test buffer (R96); periodFrom is when the test period began, itemFrom when the last item completed or
the stream was enabled (R95, R98), heard when the link was last heard (R99). bufs are the buffers that hold the newest image
and the snapshot's (R92), ringAt the place of the next write to the stream's ring (R91), taken how many
samples have come in (R171); warmFrom the stamp of the oldest lidar packet fused since the last start or restart (R412). -/
structure StreamSt where
  filling : Option Filling
  newest : Option Sample
  snap : Option Sample
  slice : List Sample
  snapSlice : List Sample
  epochStamp : Option Tick
  fusedStamp : Option Tick
  age : Nat
  excess : Bool
  excluded : Bool
  passRun : Nat
  periodUsed : Bool
  injecting : Option Tick
  starvedTold : Bool
  lostTold : Bool
  fusedNow : List Sample
  inEpoch : List Sample
  item : List Byte
  testBuf : List Byte
  periodFrom : Tick
  itemFrom : Tick
  heard : Option Tick
  bufs : Nat × Nat
  ringAt : Nat
  taken : Nat
  warmFrom : Option Tick
deriving DecidableEq, Repr

/-- A stream that has received nothing since the last cold start. -/
def StreamSt.fresh : StreamSt :=
  { filling := none, newest := none, snap := none, slice := [], snapSlice := [], epochStamp := none,
    fusedStamp := none, age := 0xFFFFFFFF, excess := false, excluded := false, passRun := 0,
    periodUsed := false, injecting := none, starvedTold := false, lostTold := false, fusedNow := [], inEpoch := [],
    item := [], testBuf := [], periodFrom := 0, itemFrom := 0, heard := none, bufs := (0, 0), ringAt := 0, taken := 0, warmFrom := none }

/-- What a bundle carries (R451): Umber's hold, the own trajectory, the twin's. -/
inductive BundleChoice where
  | hold | own | twin
deriving DecidableEq, Repr

/-- KIND of a bundle (R66). -/
inductive BundleKind where
  | refined | unrefined | hold | stop
deriving DecidableEq, Repr

/-- What a bundle holds beside the frame's own fields (R64): audit is its AUDIT_PREFIX. -/
structure BundleBody where
  kind : BundleKind
  reason : Nat
  twinSource : Bool
  edgeTick : Tick
  age : Nat
  cost : Nat
  clearance : Int
  winner : Nat
  joints : Nat
  audit : List Byte
  poses : List BPose
deriving DecidableEq, Repr

/-- The planning frame that runs (chapter 02). flags are the DOUBT_FLAGS of the running frame and nextFlags those that
its successor takes at its edge; stopped says which of the six phases have reached their hard stop and done the tick
offset at which each finished, if it did. peerDone lists the clusters whose peer check the frame has had (R248). choice is the bundle that a transmitting device chose (R451), out the bundle that the frame has emitted and outStatus its STATUS. -/
structure FrameSt where
  num : FrameNo
  started : Bool
  edgeTick : Tick
  flags : BitVec 16
  nextFlags : BitVec 16
  mixed : Bool
  stopped : List Bool
  done : List (Option Nat)
  quarantined : List Nat
  testTile : Option Nat
  resultAge : Nat
  noFree : Bool
  madder : Nat
  choice : Option BundleChoice
  emittedFrame : Bool
  emissions : Nat
  peerDone : List Nat
  out : Option BundleBody
  outStatus : Nat
deriving DecidableEq, Repr

/-- What a node of the dataflow graph has at run time (R319 to R325). taint holds the DOUBT_FLAGS that the node's inputs carry
(R159, R170, R382). -/
structure NodeRun where
  flags : BitVec 32
  ready : Nat
  affinity : Option Nat
  taint : BitVec 16
deriving DecidableEq, Repr

/-- A node in a ready queue with the tick at which it entered it (R321). -/
structure ReadyEnt where
  node : Nat
  entered : Tick
deriving DecidableEq, Repr

/-- A granted task (R324, R331). wait is the tick from which it waits, if it waits (R330); item is the flow item that
the grant consumes; block the first index and the length of a sweep block (R216); taint the DOUBT_FLAGS that the task's outputs
carry (R159, R170, R382). -/
structure Grant where
  unit : Nat
  node : Nat
  time : Tick
  wait : Option Tick
  item : Option (Nat × Nat)
  block : Option (Nat × Nat)
  taint : BitVec 16
deriving DecidableEq, Repr

/-- A lease (R333, R334). revoking says that a revocation waits for the holder's confirmation (R336). -/
structure Lease where
  cls : Nat
  res : Nat
  holder : Nat
  domain : Nat
  time : Tick
  revoking : Bool
deriving DecidableEq, Repr

/-- An item of an ordered flow in its reorder window (R327 to R329). lostOn is the unit on which it was lost. -/
structure FlowItem where
  flow : Nat
  seq : Nat
  entered : Tick
  complete : Bool
  void : Bool
  losses : Nat
  lostOn : Option Nat
deriving DecidableEq, Repr

/-- One ordered flow: the next sequence number to enter and the next to be released. -/
structure FlowSt where
  next : Nat
  release : Nat
deriving DecidableEq, Repr

/-- The outcome of a supplied record, as a corridor watch compares it (R347). -/
inductive RecOutcome where
  | free | contact | unresolved
deriving DecidableEq, Repr

/-- A pending request of kinds 0 to 2 (R342 to R347). from is the first frame that considers it. -/
structure PendReq where
  client : Nat
  kind : Nat
  tag : Word32
  arg : Word32
  port : Port
  recs : List Cand
  goal : Option Goal
  received : Tick
  first : FrameNo
  indices : List (Option Nat)
  active : Bool
  lastOut : List RecOutcome
  lastAns : FrameNo
  answered : Bool
deriving DecidableEq, Repr

/-- A checkpoint slot (R353). partials holds the partial lists of a long row's pieces done so far (R279). -/
structure Ckpt where
  seq : Nat
  crcOk : Bool
  frame : FrameNo
  units : Nat
  partials : List (List Nat)
deriving DecidableEq, Repr

/-- States of a long operation (R356). -/
inductive OpState where
  | queued | running | suspending | suspended | cancelling | done | cancelled | failed | revoked
deriving DecidableEq, Repr

/-- A long-operation context (R351 to R356). unitStart is set while a work unit is open: from its first task on, which started
says has begun, it is the tick of that task's start (R352). -/
structure LongOp where
  ctx : Nat
  client : Nat
  op : Nat
  state : OpState
  port : Port
  tag : Word32
  params : List Byte
  unitsDone : Nat
  unitsTotal : Nat
  slots : List Ckpt
  abandons : Nat
  notBefore : FrameNo
  unitStart : Option Tick
  started : Bool
  cancelledAt : Option Tick
deriving DecidableEq, Repr

/-- An answer that the Conductor sends (R348). -/
structure Answer where
  client : Nat
  kind : Nat
  status : Nat
  tag : Word32
  frame : FrameNo
  port : Port
  body : List (BitVec 64)
  flags : Nat
  report : Option (List Nat)
deriving DecidableEq, Repr

/-- A context of a segment engine (R357 to R360). -/
structure SegCtx where
  ctx : Nat
  prio : Nat
  owner : Nat
  keySlot : Nat
  offset : Nat
  bytesLeft : Nat
deriving DecidableEq, Repr

/-- A DMA transfer at a memory port (R362): the next destination address and the bytes that have still to move. -/
structure DmaXfer where
  port : Nat
  channel : Nat
  dst : Nat
  left : Nat
deriving DecidableEq, Repr

/-- A revocation (R27, R336): the resource, its holder and the tick at which the revocation took effect. -/
structure Revoked where
  cls : Nat
  res : Nat
  holder : Nat
  tick : Tick
deriving DecidableEq, Repr

/-- The Conductor (chapter 10). rowList is the selection over the last long row that was finished (R279); revoked lists the
last revocation of each resource. -/
structure CndSt where
  nodes : Tab NodeRun
  ready : List ReadyEnt
  pulls : List Nat
  grants : List Grant
  leases : List Lease
  leaseWaits : List (Nat × Nat × Tick)
  flows : Tab FlowSt
  items : List FlowItem
  reqs : List PendReq
  answers : List Answer
  ops : List LongOp
  crypto : List SegCtx
  cryptoLast : Nat
  mapld : List SegCtx
  mapldLast : Nat
  halted : List Nat
  outOfService : List Nat
  retired : List Nat
  releasing : List Nat
  nextBlock : Nat
  dma : List DmaXfer
  rowList : List Nat
  revoked : List Revoked
deriving DecidableEq, Repr

/-- The arbitration of mutual-exclusion elements (R35): for each resource the port that won and the port that is next. -/
structure ArbSt where
  resource : Nat
  winner : Nat
  next : Nat
deriving DecidableEq, Repr

/-- The FIFOs between the clocked interfaces and the core (R36): how many entries each interface has filled in the tick named. -/
structure FifoSt where
  tick : Tick
  used : Tab Nat
deriving DecidableEq, Repr

/-- A terrain column (R128, R129): heights in 1/128 m. height is the height that a return or an edge has given it,
lowest its lowest return, late the PRIOR_LATE mark of R136. -/
structure Col where
  seen : Bool
  footprint : Bool
  late : Bool
  height : Option Int
  lowest : Option Int
  cls : Nat
  learned : Nat
  last : Option Tick
deriving DecidableEq, Repr

/-- A column that nothing has touched. -/
def Col.untouched : Col :=
  { seen := false, footprint := false, late := false, height := none, lowest := none, cls := 0, learned := 0,
    last := none }

/-- A box of whole voxels, in voxel indices: lo inclusive, hi exclusive. Occupied space is a union of such boxes. -/
structure VBox where
  x0 : Int
  y0 : Int
  z0 : Int
  x1 : Int
  y1 : Int
  z1 : Int
deriving DecidableEq, Repr

/-- The world data of one epoch (R110 to R137). win is the window's minimum corner in level-2 cells; enters lists the
window corners with the terrain height h_v of the edges at which columns entered it, newest first; odds the log-odds
by voxel key; bricks the cells that hold an occupancy brick; solid the cells held SOLID, with the tick at which the
hold of R146 ends, if it ends. -/
structure WorldData where
  win : Int × Int × Int
  enters : List ((Int × Int) × Int)
  odds : Tab Int
  bricks : List Nat
  solid : List (Nat × Option Tick)
  cols : Tab Col
deriving DecidableEq, Repr

/-- A keep-out set: its polygons, in 1/4096 m of the field frame (R135). -/
abbrev KoSet := List (List (Int × Int))

/-- The field prior in HBM (R136, R622). keepOut are the keep-out sets that it holds. -/
structure PriorSt where
  loaded : Bool
  complete : Bool
  cols : List PriorCol
  zones : List CropZone
  shapes : List PriorShape
  keepOut : List KoSet
deriving DecidableEq, Repr

/-- No prior is loaded. -/
def PriorSt.none : PriorSt := { loaded := false, complete := false, cols := [], zones := [], shapes := [], keepOut := [] }

/-- The slots of a near cell (R124, R125): its level-1 block, its brick, and the epoch for which World wrote the brick
(R126). -/
structure CellSlots where
  cell : Nat
  l1 : Nat
  brick : Nat
  epoch : FrameNo
deriving DecidableEq, Repr

/-- A lidar slice that has closed and waits for fusion (R93, R137): its stream, the frame at whose edge it closed, and its
packets, newest first. -/
structure PendSlice where
  stream : Nat
  frame : FrameNo
  pkts : List Sample
deriving DecidableEq, Repr

/-- World (chapter 04): the epoch that the running frame uses, the data being built, the near and DENIED cells and the
occupied boxes of the epoch, the slots of its near cells, the level-2 values that tiles still hold below the new ones
(R139), the keep-out sets, the masters of the geometry layers (R204, R378) and the prior, the pose track and the slices that
wait for fusion, in the order in which World takes them (R137, R628). rebuild lists the cells and words that were bad
(R146), gapPoints counts the points dropped under R113. -/
structure WldSt where
  cur : WorldData
  nxt : WorldData
  boxes : List VBox
  near : List Nat
  denied : List Nat
  l2hold : Tab Int
  koLive : List KoSet
  koStaged : List KoSet
  prior : PriorSt
  pose : List Pose
  fix : Option GnssFix
  originGen : Nat
  originF : Int × Int × Int
  pendingSlices : List PendSlice
  denyRun : Bool
  deferRun : Bool
  placed : Bool
  slots : List CellSlots
  layers : List (Nat × Layer)
  rebuild : List (Nat × Nat)
  gapPoints : Nat
deriving DecidableEq, Repr

/-- Inference (chapter 05): the tensors with an event in the running frame (R158), the guard events of each tile in it
(R418), the events of the frame's telemetry by domain, and the outputs of the proposal network for the frame (R172): the fields of
its output slots and the scores of the lattice entries and of their copies, each none where it is Sepia, and whether the network is complete. pillars are those of the
last pillar encoding, pillarCut counts the points past 32 of a pillar (R164, R181). -/
structure InfSt where
  firstRg : List Nat
  burst : Tab Nat
  rgCount : Tab Nat
  rgCrit : Tab Nat
  produced : Bool
  slots : List ((Nat × Nat) × Option Int)
  lattice : List (Nat × Option Nat)
  goalScores : List ((Nat × Nat) × Option Nat)
  pillars : List ((Int × Int) × List FusedPoint)
  pillarCut : Nat
deriving DecidableEq, Repr

/-- A query that waits for a descent read (R220, R221): stage 0 descriptor, 1 level 1, 2 level 0, 3 refine samples, with
the reads still to be issued and those in gathers, and the tick at which the reads of the stage entered the queue. -/
structure Query where
  cand : Nat
  pose : Nat
  sphere : Nat
  stage : Nat
  toIssue : Nat
  inFlight : Nat
  entered : Tick
deriving DecidableEq, Repr

/-- A gather that has been issued (R221): reads of one kind, in the order in which they were collected, each of them by
candidate, pose and sphere, with the number of the sample for a refine. -/
structure Gather where
  stage : Nat
  reads : List (Nat × Nat × Nat × Nat)
  issued : Tick
deriving DecidableEq, Repr

/-- A candidate in flight (R218, R219): how many of its pairs have been placed, its least clearance so far in 1/256 m, and
its key once it is formed and waits for room in the output buffer (R230). -/
structure InFlight where
  index : Nat
  placed : Nat
  clear : Option Int
  key : Option Nat
deriving DecidableEq, Repr

/-- A key record with its tile tag (R228). sepia marks a record that a fault has made Sepia (R281). -/
structure KeyRec where
  key : Nat
  tag : Nat
  formed : Tick
  sepia : Bool
deriving DecidableEq, Repr

/-- A sweep tile at work (R214 to R231, R248): the candidates of its blocks not yet started, those in flight, the descent
queue, the gathers issued, the output buffer, the packet offered to Select; the counts of the frame and of the window
of the peer check. -/
structure TileSt where
  todo : List Nat
  flight : List InFlight
  queue : List Query
  gathers : List Gather
  out : List KeyRec
  offered : List (List KeyRec)
  passes : List Nat
  contacts : List Nat
  freeKeys : Nat
  contactKeys : Nat
  winResolved : Nat
  winContact : Nat
deriving DecidableEq, Repr

/-- A tile that has done nothing. -/
def TileSt.idle : TileSt :=
  { todo := [], flight := [], queue := [], gathers := [], out := [], offered := [], passes := [0, 0, 0, 0],
    contacts := [0, 0, 0, 0], freeKeys := 0, contactKeys := 0, winResolved := 0, winContact := 0 }

/-- The candidates of a domain in the running frame (R184 to R189, R216): in index order once they are written; blocks
granted, and those that a quarantine gave back (R217); quota and other skips, in all and by the time that each candidate had been written; and those written, by source. -/
structure DomSweep where
  dom : Nat
  cands : List Cand
  written : Bool
  nextBlock : Nat
  back : List Nat
  skipQuota : Nat
  skipOther : Nat
  skipAt : List (Nat × Nat)
  counts : List Nat
  infeasible : List Nat
deriving DecidableEq, Repr

/-- The sweep (chapter 07). single says that FLUSH_LEAD has come (R229); refused counts the supplied records refused in
the frame (R190); slots the slot totals of each domain in the last settlement (R577); region the records that stand in each
domain's share of the candidate parameter region (R185, R186). -/
structure SwpSt where
  doms : List DomSweep
  tiles : Tab TileSt
  single : Bool
  closed : Bool
  refused : Nat
  slots : List (Nat × List Nat)
  region : List (Nat × List Cand)
deriving DecidableEq, Repr

/-- A record in a lane FIFO with the tick at which the lane accepted it (R264). -/
structure LaneRec where
  entry : KeyRec
  accepted : Tick
deriving DecidableEq, Repr

/-- A selection list (R261, R268): its pieces by tile or lane number, each of them keys with tags in ascending order. -/
structure SelList where
  client : Nat
  motion : Bool
  k : Nat
  short : Bool
  limited : Bool
  trunc : Bool
  pieces : Tab (List (Nat × Nat))
deriving DecidableEq, Repr

/-- An entry handed to the Solver (R275): key, tag and record. -/
structure SelEntry where
  key : Nat
  tag : Nat
  cand : Cand
deriving DecidableEq, Repr

/-- What Select derives from the resolution map of a domain at the end of the select phase (R54, R266). -/
structure SelNumbers where
  dom : Nat
  proposed : Nat
  resolved : Nat
  free : Nat
  truncPoint : Nat
  maxResolved : Option Nat
deriving DecidableEq, Repr

/-- Select (chapter 08). map is the resolution map, by 2^18 · domain + index; passed holds the keys of supplied
candidates that passed through, by the same number. faulty says that its test failed and no restart has completed
since. spoiled lists the candidates, by the same number, of words of the client map or of the map that were bad in the frame
(R281). -/
structure SelSt where
  fifos : List (List LaneRec)
  accepted : List Nat
  map : Tab Nat
  spoiled : List Nat
  passed : Tab Nat
  lists : List SelList
  late : Nat
  quar : Nat
  stale : Nat
  merged : Bool
  numbers : List SelNumbers
  top : List SelEntry
  faulty : Bool
deriving DecidableEq, Repr

/-- A matrix of the Solver by rows, in Q16.16 (R298). -/
abbrev Mat := List (List Int)

/-- The contribution of the defects to the blocks D_k and C_k of H (R289, R291). -/
structure Contrib where
  d : Mat
  c : Mat
deriving DecidableEq, Repr

/-- The factors of one block (R293): L_k by columns, the reciprocals of its diagonal, and E_k. -/
structure Factor where
  cols : Mat
  recip : List Int
  e : Mat
deriving DecidableEq, Repr

/-- What a lane keeps between the iterations of a frame (R291): the stored contributions and the factors of the last factorisation. -/
structure LaneStore where
  contribs : List Contrib
  factors : List Factor
deriving DecidableEq, Repr

/-- The weights of R289 in 1/256, with MU_SHIFT, from which the resident structure was computed (R290). -/
structure Resident where
  trk : Nat
  dk : Nat
  dv : Nat
  jnt : Nat
  mu : Nat
deriving DecidableEq, Repr

/-- A Solver lane (R283 to R295, R309): its entry, whether setup is complete, its best record (none while the candidate
itself is best) with its merit J, the accepted iterations, the rejected trials, the OUTCOME once it is decided, whether it
has ended, and whether a fault has taken its result (R316). -/
structure LaneSt where
  entry : Option SelEntry
  setup : Bool
  best : Option RefinedRec
  merit : Nat
  iters : Nat
  warm : Bool
  rejects : Nat
  outcome : Option Nat
  ended : Bool
  lost : Bool
  store : LaneStore
  began : Tick
deriving DecidableEq, Repr

/-- A lane without an entry. -/
def LaneSt.idle : LaneSt :=
  { entry := none, setup := false, best := none, merit := 0, iters := 0, warm := false, rejects := 0, outcome := none,
    ended := false, lost := false, store := ⟨[], []⟩, began := 0 }

/-- The warm-start source (R296): the layer and HITCH_ACT of the record emitted in the frame before, and its curvatures
and speeds at the 64 knots, in 1/1024 of the record's units. -/
structure WarmSrc where
  layer : Nat
  hitch : Nat
  rk : List Int
  rv : List Int
deriving DecidableEq, Repr

/-- The Solver (chapter 09). handed says that it has handed on its one trajectory of the frame; pendingOut lists the lanes
that leave service at the next edge; resident is what the constant part of H was computed from. -/
structure SlvSt where
  lanes : List LaneSt
  handed : Bool
  warm : Option WarmSrc
  pendingOut : List Nat
  resident : Resident
deriving DecidableEq, Repr


/-- The memories behind the data map (chapter 11). cells holds the bytes that are not zero; synd the syndrome of each
64-bit word, by word number, that is not 0: a word's stored check byte XOR the code of its data (R367), 3 for the Sepia
mark. ceCount counts a bank's correctable errors in the window, ceOver the frame of its last excess; wipes are the wipes
in progress with the ticks at which they began; closed the regions that failed their read-back; rewrites the level-2
words of tiles whose rewrite is under way, by tile and CELL; blank the ranges wiped since the structures of the machine that stand
there were last written; waiting the accesses to regions under a wipe (R383); scrub when the running
scrub pass of SRAM and of HBM began, and whether it has been reported late (R375). -/
structure MemSt where
  cells : List Host.Cell
  synd : Tab Nat
  ceCount : Tab Nat
  ceOver : List (Nat × FrameNo)
  wipes : List (WipeRegion × Tick)
  closed : List WipeRegion
  rewrites : List (Nat × Nat)
  dmaLast : Tab Nat
  liveWrites : List (TableCode × Nat × Word32)
  blank : List (Nat × Nat)
  waiting : List DataPacket
  scrub : List (Tick × Bool)
deriving DecidableEq, Repr

/-- The verified trajectory V (R402): its record, the geometry layer and the edge state of its frame, what its bundle
carried and the stamp of the oldest of its inputs. -/
structure VTraj where
  record : Record
  edge : Pose
  edgeTick : Tick
  cost : Nat
  clearance : Int
  winner : Nat
  originGen : Nat
  stamp : Tick
  fromTwin : Bool
deriving DecidableEq, Repr

/-- Umber (R402 to R407, R632). While it holds, s0 is the base arc length at t0 in 2^-19 m, w0 the speed there in
2^-20 m/s and aNum / aDen the deceleration in 2^-20 m/s². -/
structure UmbSt where
  v : Option VTraj
  holding : Bool
  t0 : Tick
  s0 : Int
  w0 : Int
  aNum : Int
  aDen : Nat
deriving DecidableEq, Repr

/-- A point of Madder's store (R394): the frame whose epoch its slice entered, and its position in 1/4096 m. -/
structure MadPoint where
  epoch : FrameNo
  x : Int
  y : Int
  z : Int
deriving DecidableEq, Repr

/-- A disagreement (R399, R400): its frame, and the tile and lane that it implicates. -/
structure Disagree where
  frame : FrameNo
  tile : Option Nat
  lane : Option Nat
deriving DecidableEq, Repr

/-- A trajectory as the Solver hands it on (R307), or as a twin offers it. lane is none for an unrefined one. tile is
the tile that resolved its source. -/
structure Traj where
  record : Record
  lane : Option Nat
  tile : Option Nat
  cost : Nat
  clearance : Int
  winner : Nat
  keepOut : Option Nat
deriving DecidableEq, Repr

/-- Madder (R394 to R401). points is oldest first; fused holds the points of slices fused since the last edge, outside the
vehicle's own spheres; subject is the trajectory that the Solver handed on, verdictOwn the verdict on it and
detailOwn the detail of a rejection (R399). -/
structure MadSt where
  points : List MadPoint
  fused : List FusedPoint
  dis : List Disagree
  failed : Bool
  subject : Option Traj
  verdictOwn : Option Bool
  detailOwn : Nat
deriving DecidableEq, Repr

/-- How far a restart is (R412): its first step is behind it, or its first four are and the warm-up runs. -/
inductive RestartPhase where
  | halted
  | warmUp
deriving DecidableEq, Repr

/-- A restart that runs: its trigger, when it began, how far it is, and the triggers recorded and ignored since. -/
structure RestartSt where
  trigger : RestartTrigger
  began : Tick
  phase : RestartPhase
  ignored : List RestartTrigger
deriving DecidableEq, Repr

/-- The Kermes pack that runs (R417 to R420), and the frame in which it began. -/
structure KermesRun where
  unit : KermesUnit
  pack : Nat
  since : FrameNo
deriving DecidableEq, Repr

/-- Safety state of the Warden (chapter 12). restartTimes are the ticks at which restarts began; persist counts
consecutive frames with an internal doubt; injectFail says that an ECC injection outside tiles, Select and Solver has
failed since the last restart; clean counts consecutive clean frames, atRest that the second condition of R409 holds,
acked the frame in which an acknowledgement was accepted. passed are the units that have passed
a pack since they left service (R179, R246, R316). -/
structure SafeSt where
  restart : Option RestartSt
  restartTimes : List Tick
  persist : Nat
  injectFail : Bool
  clean : Nat
  atRest : Bool
  quarDoubt : Bool
  kermes : Option KermesRun
  kermesDue : List KermesUnit
  kermesDeferred : List KermesUnit
  passed : List Nat
  acked : Option FrameNo
deriving DecidableEq, Repr

/-- The fault log (R424, R425): the record queue, oldest first; the HBM ring, newest first; whether the HBM path is in
use; the records that wait for an Ochre datagram; CODE and SEQ of the newest record of severity doubt or higher; how many
records the ring has taken, modulo its length. -/
structure LogSt where
  queue : List QueuedRec
  hbm : List FaultRec
  hbmOk : Bool
  seq : Nat
  ochre : List FaultRec
  newest : Option (Nat × Nat)
  hbmNext : Nat
deriving DecidableEq, Repr

/-- The pair states (R432), in the order of STATE. -/
inductive PairState where
  | forming | pairedA | pairedB | degradedA | degradedB | solo | acting | monitor | conflict
deriving DecidableEq, Repr

/-- The messages that a device sends over Woad (R440). -/
inductive WoadMsg where
  | hello (posB : Bool) (nonce : Nat)
  | config (m : ConfigMsg)
  | edge (m : EdgeMsg)
  | delayReq (t : Tick)
  | delayResp (received sent : Tick)
  | digest (frame : FrameNo) (ds : List (BitVec 256))
  | propose (m : ProposeMsg)
  | ack (s : FrameNo)
  | refuse (s : FrameNo) (reason : Nat)
  | commit (s : FrameNo)
  | commitAck (s : FrameNo)
  | journal (entries : List PairSwap) (s : FrameNo)
  | abdicate (frame : FrameNo) (code : Nat)
  | offer (o : Offer)
  | verdict (frame : FrameNo) (subjectTwin : Bool) (v : Nat) (detail : Nat)
  | emitted (frame : FrameNo) (source kind status : Nat)
deriving DecidableEq, Repr

/-- The pair (chapter 13). primary says that the device acts as A (R444); session that the session keys exist (R439);
proven that a message has been accepted under them; joining that a join runs (R443). unc is UNC in 1/16 tick and exch the
two one-way estimates of the last 8 exchanges, newest first. offerIn is the twin's newest offer and offerOut the own;
offerVerdict Madder's verdict on the twin's; twinOnOwn the twin's verdict on the own trajectory and twinOnTwin on its
own, each with its frame. rejects are the frames of the twin rejections; goodAt the tick of the last observed bundle that
was not HOLD or STOP; lastBundle the frame of the twin's last bundle and bundleSeen whether one was ever seen. mism lists the
items that mismatched at the last comparison; nonce is the own nonce of the formation, keys the key and salt of each
channel and direction (R439), gaps the gaps of CTR (R438); pairSwaps the pair swaps applied since cold start, reasons those of R464. -/
structure TwinSt where
  pair : PairState
  primary : Bool
  linkUp : Bool
  downFrames : Nat
  rxSeq : BitVec 16
  hello : Option HelloMsg
  session : Bool
  proven : Bool
  joining : Bool
  rxCtr : List Nat
  txCtr : List Nat
  authAt : List Tick
  ofs : Int
  unc : Nat
  exch : List (Int × Int)
  excursion : Bool
  twinEdge : Option EdgeMsg
  adopted : Bool
  offerIn : Option Offer
  offerOut : Option Offer
  offerVerdict : Option (FrameNo × Bool)
  twinOnOwn : Option (FrameNo × Bool × Nat)
  twinOnTwin : Option (FrameNo × Bool)
  rejects : List FrameNo
  xlateRun : Nat
  goodAt : Tick
  lastBundle : FrameNo
  bundleSeen : Bool
  ownDigests : Option (FrameNo × List (BitVec 256))
  mism : List Nat
  reloads : List (Nat × FrameNo)
  pairSwaps : List PairSwap
  clearRun : Nat
  reasons : List Nat
  stoodDown : Bool
  silent : Bool
  aloneAt : Option Tick
  nonce : Option (BitVec 256)
  keys : List (List Byte)
  gaps : Nat
deriving DecidableEq, Repr

/-- The keys of an open slot (R492, R493): its client, the 72 bytes of key material, the counters of R494 in both directions,
the ticks of its latest tag failures, newest first, and the plaintext of a unit that MORE continues. -/
structure SlotKeys where
  slot : Nat
  client : Nat
  keys : List Byte
  rxCtr : Nat
  txCtr : Nat
  fails : List Tick
  part : List Byte
deriving DecidableEq, Repr

/-- A descriptor outstanding in the command ring (R495). -/
structure SlotDesc where
  index : Nat
  slot : Nat
  len : Nat
deriving DecidableEq, Repr

/-- A completion (R495). -/
structure Compl where
  index : Nat
  status : Nat
  slot : Nat
  len : Nat
  ctr : Nat
deriving DecidableEq, Repr

/-- A unit that the device sends to the host (R494): its answer, the bytes that have still to go, and since when it
waits. -/
structure DevMsg where
  slot : Nat
  answer : Option Answer
  rest : List Byte
  since : Tick
deriving DecidableEq, Repr

/-- JTAG instructions (R480). -/
inductive JtagIr where
  | bypass | idcode | samplePreload | extest | debug
deriving DecidableEq, Repr

/-- Security and the supervisor port (chapter 14): open slots; descriptors of host messages and of offered buffers;
completions that wait for room; units to the host and the count of those dropped; whether a tamper trip fell into the
running key setup; the last whole unit received, by slot; the JTAG instruction; the tokens and the request that were in the
mailbox at GO (R476, R491). -/
structure SecSt where
  slots : List SlotKeys
  cmds : List SlotDesc
  bufs : List SlotDesc
  compls : List Compl
  out : List DevMsg
  dropped : Nat
  kxTamper : Bool
  unit : Option (Nat × List Byte)
  jtag : JtagIr
  tokens : List Byte
  kxReq : List Byte
deriving DecidableEq, Repr

/-- A trajectory bundle for the guidance segment (R516): its frame and bytes, the curvature of pose 0 and whether its KIND
is REFINED or UNREFINED (R513). -/
structure TxBundle where
  frame : FrameNo
  bytes : List Byte
  curv : Int
  steer : Bool
deriving DecidableEq, Repr

/-- The bundle that is being transmitted (R518): the part on the bus and its BSEQ. -/
structure OnBus where
  bundle : TxBundle
  part : Nat
  bseq : Nat
deriving DecidableEq, Repr

/-- A transport-protocol session on the ISOBUS port (R509). next is the sequence number of the next TP.DT. -/
structure TpSession where
  src : Nat
  bam : Bool
  pgn : Nat
  size : Nat
  next : Nat
  bytes : List Byte
deriving DecidableEq, Repr

/-- Ochre (chapter 15): when its port started, its last datagram, the datagrams counted, the last resend request served and
DROP at the last datagram. -/
structure OchSt where
  startedAt : Tick
  lastAt : Option Tick
  dseq : Nat
  resendAt : Option Tick
  dropSeen : Nat
deriving DecidableEq, Repr

/-- What a cold start leaves (R539, R551 to R556): the strapped position (0 A, 1 B, 2 SOLO), the domains that are
inactive, whether the next edge is that of frame 0, and whether the first verified frame has been emitted (R557), the
tweak numbers that the domains drew (R489) and the models that are loaded (R488). -/
structure BootSt where
  pos : Nat
  bootSel : Bool
  inactive : List (Fin 16)
  frameZero : Bool
  floorDone : Bool
  tweaks : List Word32
  loaded : List Nat
deriving DecidableEq, Repr

/-- Who opened a swap (R562, R462). -/
inductive SwapOrigin where
  | core | host | twin
deriving DecidableEq, Repr

/-- An open user swap (R562 to R564, R462): its mask, the frame of its opening, TARGET, the subsystems that reported
staged, the edge named, whether the commit has gone out, and whether the edge is agreed. -/
structure OpenSwap where
  mask : Nat
  origin : SwapOrigin
  opened : FrameNo
  target : Nat
  staged : Nat
  edge : Option FrameNo
  committed : Bool
  agreed : Bool
deriving DecidableEq, Repr

/-- An open re-centring swap (R142, R569): its shift, the frame of its opening, its edge and whether that is agreed. -/
structure RecSwap where
  dx : Int
  dy : Int
  opened : FrameNo
  edge : Option FrameNo
  committed : Bool
  agreed : Bool
  twin : Bool
deriving DecidableEq, Repr

/-- Staged swaps (R560 to R569). journal holds a location's live value where swaps have left it different from the image;
grants the shared-unit grants once a swap has set them; joined is a journal that a joining device applies at an edge. -/
structure SwapSt where
  user : Option OpenSwap
  recentre : Option RecSwap
  journal : Tab Nat
  grants : Option (List (Nat × Fin 16))
  grantsStaged : Option (List (Nat × Fin 16))
  tweakStaged : Bool
  join : Option (FrameNo × List PairSwap)
deriving DecidableEq, Repr

/-- Replay (R586 to R591). active says that it is open; slot carries its units; live is the frame counter of R42, which goes
on while a replay frame has its own number; inFrame says that a replay frame runs. -/
structure ReplaySt where
  active : Bool
  slot : Nat
  live : FrameNo
  inFrame : Bool
deriving DecidableEq, Repr

/-- Observability (R69, R585): how many records each domain's telemetry ring and audit ring in HBM have taken, modulo
their length. -/
structure ObsSt where
  next : Tab Nat
deriving DecidableEq, Repr

/-- What the block sends (newest first in State.sent): the model's own record of its outputs. error carries the data of a
refused or unanswered read; grantRefused is a grant that met a revocation (R27), blockRefused one that met a quarantine
(R217), messageLost the error of R360. A woad output lists the transport messages in their bytes (R437), the first with CTR ctr,
beside what they say; a mirror output does so for a sample. dest of an answer is its answer identifier or the address of its
sender (R527). -/
inductive Output where
  | bundle (bytes : List Byte)
  | telemetry (bytes : List Byte)
  | error (r : Requester) (addr : Nat) (data : Option Nat)
  | grantRefused (unit cls res : Nat)
  | blockRefused (unit block : Nat)
  | messageLost (owner ctx : Nat)
  | answer (a : Answer) (dest : Option Nat) (bytes : List Byte)
  | delivered (addr : Nat) (words : List (Option Nat))
  | mirror (stream : Nat) (x : Sample) (msgs : List (List Byte))
  | gptp (port : Nat) (taiNs : Int) (freeRunning : Bool)
  | peerDelayReq (port : Nat)
  | addressAnswer (port : Nat) (v6 : Bool)
  | woad (chan ctr : Nat) (m : WoadMsg) (msgs : List (List Byte))
  | hostMsg (slot ctr len : Nat) (more : Bool) (bytes : List Byte)
  | completion (index : Nat) (c : Compl) (bytes : List Byte)
  | msix (vector : Nat)
  | idcode (v : Nat)
  | canXl (ident : Nat) (sdt : Byte) (af : FrameNo) (bytes : List Byte)
  | isobus (pgn dst : Nat) (bytes : List Byte)
  | guidance (curvature : Int) (steer : Bool)
  | ochre (bytes : List Byte)
  | uart (n : Nat) (bytes : List Byte)
  | replay (bytes : List Byte)
deriving DecidableEq, Repr

/-- The vehicle bus (chapter 15): the output stage, its count of bundles and the second of its last abandonment record;
the recipient's heartbeat, with the tick of the last valid one (the first edge before any), its counter where it counts,
the skips, when the lapse began and whether its doubt record is written; the bus-offs of each port, newest first; the
address that is claimed or being claimed, the addresses of other NAMEs, transport sessions; DOUBT_FLAGS of the last
completed frame, the SFLAGS last sent, the acknowledgements discarded, and the guidance frames that wait for the end of a
bundle (R518). -/
structure BusSt where
  onBus : Option OnBus
  waiting : Option TxBundle
  bseq : Nat
  abandonSec : Option Nat
  hbBase : Option Tick
  hbCtr : Option Nat
  hbSkips : Nat
  lapseFrom : Option Tick
  overTold : Bool
  boff : List (List Tick)
  claimSa : Nat
  claimAt : Tick
  names : List (BitVec 64 × Nat)
  tp : List TpSession
  lastFlags : BitVec 16
  sflags : Nat
  badAcks : Nat
  guidOut : List Output
deriving DecidableEq, Repr

/-- What the running frame works from, separate from what is being built (R41, R61, R138, R378, R381): the edge state, the field
prior and origin of the epoch, and the cached copies of the keep-out sets, the geometry layers, the client table and the
shared-unit grants. clients are the words of the client table that differ from their reset values. -/
structure HeldSt where
  edge : Pose
  prior : PriorSt
  originF : Int × Int × Int
  keepOut : List KoSet
  layers : List (Nat × Layer)
  clients : Tab Nat
  grants : Option (List (Nat × Fin 16))
deriving DecidableEq, Repr

/-- The state of the block. latches holds, at the address of an upper half, the value that a read of its lower half has
latched for the next read there. -/
structure State where
  time : TimeSt
  pwr : PwrSt
  ind : IndSt
  fuse : FuseSt
  image : Image
  regs : Tab Nat
  ing : List StreamSt
  frame : FrameSt
  cnd : CndSt
  wld : WldSt
  held : HeldSt
  umb : UmbSt
  mad : MadSt
  safe : SafeSt
  log : LogSt
  boot : BootSt
  inf : InfSt
  mem : MemSt
  swp : SwpSt
  sel : SelSt
  slv : SlvSt
  twin : TwinSt
  swap : SwapSt
  sec : SecSt
  bus : BusSt
  och : OchSt
  replay : ReplaySt
  obs : ObsSt
  arb : List ArbSt
  fifo : FifoSt
  latches : Tab Nat
  sent : List Output
  free : Nat
  pending : List Instr
deriving DecidableEq, Repr

/-- Why a step stops the machine. -/
inductive Fault where
  /-- Raised by step on an empty queue, when the 64-bit count of the time base stands at its largest value: R104 says
  that the count never decreases and gives it no further value. Safe: the machine stops where the hardware goes on. -/
  | timeBaseExhausted
deriving DecidableEq, Repr

/-- Why a command has no meaning. -/
inductive Refusal where
  /-- Raised by exec for a command whose meaning is not modelled yet; mnemonic is its row of the table. Safe. -/
  | notModelled (mnemonic : String)
deriving DecidableEq, Repr

/-! ## Reset -/

/-- An image with nothing in it, which stands until POR_RELEASE brings one. -/
def Image.blank : Image :=
  { prot := 0, digest := 0, kermesDigest := 0, fwVersion := 0, fwDigest := 0, fwSecurity := 0, fwFloor := 0,
    ownerDigest := 0, regInit := [], limits := [], deviceLocal := [], streams := [], layers := [], footprint := [],
    originH := 0, keepOut := [], nodes := [], sequencers := [], opNodes := [], flowTo := [], motionClient := [], shares := [],
    sharedOpen := [], suppliedEn := [], lattice := [], models := [], pairRoster := [], hostRoster := [],
    measurements := [], filters := [], bindings := [], names := [], ownName := 0, saPref := 0, hbId := 0, sdt := 0,
    statPgn := 0, priorPresent := false, crcTable := false, hostWriteMask := 0, hostReadRanges := [], enetAddr := [],
    ochreAddr := 0, kermesOk := false, packs := [], faultLog := (0, 0), copyAt := 0, telemRing := [], auditRing := [], weights := [], opRegions := [], leaseRegions := [],
    tensors := [], projections := [], travFlags := [], slvRanges := [], wDyn := 0 }

/-- A world that nothing has been fused into. -/
def WorldData.empty : WorldData := { win := (0, 0, 0), enters := [], odds := [], bricks := [], solid := [], cols := [] }

/-- The time base at reset: no source, no lock (R107, R109). -/
def TimeSt.initial : TimeSt :=
  { count := 0, frac := 0, trim := 0, trimStep := 0, taiOfs := 0, lastPps := [none, none], good := [0, 0], miss := [0, 0],
    fixAt := [none, none], gptpSync := [false, false, false, false], everLocked := false, holdTicks := 0,
    lastSync := [none, none, none, none], peerDelay := [0, 0, 0, 0] }

/-- No frame has started (R42). -/
def FrameSt.initial : FrameSt :=
  { num := 0, started := false, edgeTick := 0, flags := 0, nextFlags := 0, mixed := false, stopped := List.replicate 6 false,
    done := List.replicate 6 none, quarantined := [], testTile := none, resultAge := 0, noFree := false, madder := 2,
    choice := none, emittedFrame := false, emissions := 0, peerDone := [], out := none, outStatus := 0 }

/-- The Conductor with nothing granted, leased or pending. -/
def CndSt.initial : CndSt :=
  { nodes := [], ready := [], pulls := [], grants := [], leases := [], leaseWaits := [], flows := [], items := [], reqs := [],
    answers := [], ops := [], crypto := [], cryptoLast := 0, mapld := [], mapldLast := 0, halted := [], outOfService := [],
    retired := [], releasing := [], nextBlock := 0, dma := [], rowList := [], revoked := [] }

/-- World at reset. -/
def WldSt.initial : WldSt :=
  { cur := WorldData.empty, nxt := WorldData.empty, boxes := [], near := [], denied := [], l2hold := [], koLive := [],
    koStaged := [], prior := PriorSt.none, pose := [], fix := none, originGen := 0, originF := (0, 0, 0),
    pendingSlices := [], denyRun := false, deferRun := false, placed := false, slots := [], layers := [], rebuild := [],
    gapPoints := 0 }

/-- Inference at reset. -/
def InfSt.initial : InfSt :=
  { firstRg := [], burst := [], rgCount := [], rgCrit := [], produced := false, slots := [], lattice := [], goalScores := [],
    pillars := [], pillarCut := 0 }

/-- The sweep at reset. -/
def SwpSt.initial : SwpSt := { doms := [], tiles := [], single := false, closed := false, refused := 0, slots := [], region := [] }

/-- Select at reset. -/
def SelSt.initial : SelSt :=
  { fifos := [[], [], [], []], accepted := [0, 0, 0, 0], map := [], spoiled := [], passed := [], lists := [], late := 0, quar := 0,
    stale := 0, merged := false, numbers := [], top := [], faulty := false }

/-- The Solver at reset. -/
def SlvSt.initial : SlvSt := { lanes := List.replicate 4 LaneSt.idle, handed := false, warm := none, pendingOut := [], resident := ⟨0, 0, 0, 0, 8⟩ }

/-- The memories of the data map but HBM and the Warden's (R363): first address and length. -/
def sramRanges : List (Nat × Nat) :=
  [(0x8000000000, 0x2000000), (0x8004000000, 0x4000000), (0x800C000000, 0x2000000), (0x8010000000, 0x3000000),
   (0x8014000000, 0x400000), (0x8015000000, 0x800000)]

/-- The memories after the wipe of a power-on reset (R384). -/
def MemSt.initial : MemSt :=
  { cells := [], synd := [], ceCount := [], ceOver := [], wipes := [], closed := [], rewrites := [], dmaLast := [],
    liveWrites := [], blank := sramRanges, waiting := [], scrub := [(0, false), (0, false)] }

/-- Umber with no verified trajectory (R407). -/
def UmbSt.initial : UmbSt := { v := none, holding := false, t0 := 0, s0 := 0, w0 := 0, aNum := 0, aDen := 1 }

/-- Madder at reset. -/
def MadSt.initial : MadSt :=
  { points := [], fused := [], dis := [], failed := false, subject := none, verdictOwn := none, detailOwn := 0 }

/-- The Warden's safety state at reset. -/
def SafeSt.initial : SafeSt :=
  { restart := none, restartTimes := [], persist := 0, injectFail := false, clean := 0,
    atRest := false, quarDoubt := false, kermes := none, kermesDue := [], kermesDeferred := [],
    passed := [], acked := none }

/-- The fault log at reset. -/
def LogSt.initial : LogSt := { queue := [], hbm := [], hbmOk := true, seq := 0, ochre := [], newest := none, hbmNext := 0 }

/-- The pair at reset: FORMING (R432, R469). -/
def TwinSt.initial : TwinSt :=
  { pair := .forming, primary := false, linkUp := false, downFrames := 0, rxSeq := 0, hello := none, session := false,
    proven := false, joining := false, rxCtr := [0, 0, 0], txCtr := [0, 0, 0], authAt := [], ofs := 0, unc := 0, exch := [],
    excursion := false, twinEdge := none, adopted := false, offerIn := none, offerOut := none,
    offerVerdict := none, twinOnOwn := none, twinOnTwin := none, rejects := [], xlateRun := 0, goodAt := 0, lastBundle := 0,
    bundleSeen := false, ownDigests := none, mism := [], reloads := [], pairSwaps := [], clearRun := 0, reasons := [],
    stoodDown := false, silent := false, aloneAt := none, nonce := none, keys := [], gaps := 0 }

/-- Start-up at reset: the straps are not yet sampled. -/
def BootSt.initial : BootSt :=
  { pos := 0, bootSel := false, inactive := [], frameZero := false, floorDone := false, tweaks := [], loaded := [] }

/-- No swap is open; the journal is empty (R571). -/
def SwapSt.initial : SwapSt :=
  { user := none, recentre := none, journal := [], grants := none, grantsStaged := none, tweakStaged := false, join := none }

/-- The supervisor port at reset; JTAG selects IDCODE. -/
def SecSt.initial : SecSt :=
  { slots := [], cmds := [], bufs := [], compls := [], out := [], dropped := 0, kxTamper := false, unit := none,
    jtag := .idcode, tokens := [], kxReq := [] }

/-- The vehicle bus at reset. -/
def BusSt.initial : BusSt :=
  { onBus := none, waiting := none, bseq := 0, abandonSec := none, hbBase := none, hbCtr := none, hbSkips := 0,
    lapseFrom := none, overTold := false, boff := [[], [], [], []], claimSa := 254, claimAt := 0, names := [], tp := [], lastFlags := 0,
    sflags := 0, badAcks := 0, guidOut := [] }

/-- Ochre at reset. -/
def OchSt.initial : OchSt := { startedAt := 0, lastAt := none, dseq := 0, resendAt := none, dropSeen := 0 }

/-- A machine at rest at the local origin: the state that an empty pose track gives. -/
def Pose.zero : Pose :=
  { tick := 0, x := 0, y := 0, z := 0, thetas := [], kappa := 0, v := 0, zh := 0, down := false }

/-- No frame has started: nothing is held. -/
def HeldSt.initial : HeldSt :=
  { edge := Pose.zero, prior := PriorSt.none, originF := (0, 0, 0), keepOut := [], layers := [], clients := [], grants := none }

/-- Replay is off. -/
def ReplaySt.initial : ReplaySt := { active := false, slot := 0, live := 0, inFrame := false }

/-- The Indigo island after VBAT_AO has risen: no valid time, an empty log (R605). -/
def IndSt.initial : IndSt :=
  { powered := true, count := 0, frac := 0, log := [], logNext := 0, logCount := 0, wdogKick := 0, latch := false,
    asleepTrip := 0, asleepDue := 0, meshFails := 0, phase := 0 }

/-- Fuses of which none is blown. -/
def FuseSt.blank : FuseSt :=
  { lc := 0, dbgLock := false, prot := 0, kill := false, ownerSet := false, ownerDigest := 0, fwFloor := 0, deviceId := 0,
    keyDestroyed := false }

/-- The machine in its power-on reset, with power good: SAFE_STOP_N is asserted (R414), FAULT_N is not (R611), every register
has its reset value, memory is wiped, and POR_RELEASE is what comes next (R551, R596). -/
def State.reset : State :=
  { time := TimeSt.initial
    pwr := { phase := .reset, pwrEn := true, pwrgd := true, safeStop := true, faultN := false, ign := true, wakeLvl := true,
             hbm2x := false, avsMissRun := 0, vcoreTarget := none, wakeNote := false }
    ind := IndSt.initial, fuse := FuseSt.blank, image := Image.blank, regs := [], ing := List.replicate 36 StreamSt.fresh
    frame := FrameSt.initial, cnd := CndSt.initial, wld := WldSt.initial, held := HeldSt.initial, umb := UmbSt.initial, mad := MadSt.initial
    safe := SafeSt.initial, log := LogSt.initial, boot := BootSt.initial, inf := InfSt.initial, mem := MemSt.initial
    swp := SwpSt.initial, sel := SelSt.initial, slv := SlvSt.initial, twin := TwinSt.initial, swap := SwapSt.initial
    sec := SecSt.initial, bus := BusSt.initial, och := OchSt.initial, replay := ReplaySt.initial, obs := ⟨[]⟩, arb := [], fifo := ⟨0, []⟩, latches := [], sent := []
    free := 0, pending := [] }

end Sys2Proof.Machine
end

