-- ==== Sys2Proof/Machine/Messages.lean ====
section
/-! DEFINITION. Machine/Messages.lean: the bytes of the records and messages that the device exchanges: candidate and refined
records (R184, R287), the tables that a pair swap carries (R462), the payloads of Woad messages (R440 to R453) and their
protection (R437), descriptors, completions and messages of the supervisor port (R494, R495). -/

namespace Sys2Proof.Machine

/-- A Bool as a bit. -/
def bit (b : Bool) : Nat := if b then 1 else 0

/-- The bits hi:lo of a word. -/
def bitsOf (w hi lo : Nat) : Nat := w / 2 ^ lo % 2 ^ (hi - lo + 1)

/-- Consecutive pieces of at most n bytes; fuel bounds their number. -/
def chunks (n : Nat) : Nat → List Byte → List (List Byte)
  | 0, _ => []
  | f + 1, bs => if bs.length ≤ n then [bs] else bs.take n :: chunks n f (bs.drop n)

/-- Bytes padded with zeros, or cut, to a length. -/
def padTo (n : Nat) (bs : List Byte) : List Byte := bs.take n ++ List.replicate (n - bs.length) 0

/-- A part of a list of bytes. -/
def part (off len : Nat) (bs : List Byte) : List Byte := (bs.drop off).take len

/-- A little-endian field of a list of bytes (R11). -/
def fieldAt (off len : Nat) (bs : List Byte) : Nat := ofLe (part off len bs)

/-- The 32 bytes of a digest (R11). -/
def digestBytes (d : BitVec 256) : List Byte := leBytes 32 d.toNat

/-! ## Records (R184, R287, R449) -/

/-- LK of a candidate (R184): LAYER, HITCH_ACT and KIND. -/
def lkOf (c : Cand) : Nat := c.layer.val * 16 + c.hitch.val * 4 + c.kind.val

/-- The 16 bytes of a candidate record. -/
def candBytes (c : Cand) : List Byte :=
  leBytes 1 c.score ++ leBytes 1 (lkOf c) ++ leBytes 2 (c.client % 1024)
    ++ leBytes 2 (pattern 16 c.k1) ++ leBytes 2 (pattern 16 c.k2) ++ leBytes 2 (pattern 16 c.k3) ++ leBytes 2 (pattern 16 c.k4)
    ++ leBytes 2 (pattern 16 c.v1) ++ leBytes 2 (pattern 16 c.v2)

/-- The 64 values of a refined record's profile. -/
def knotBytes (xs : List Int) : List Byte := (List.range 64).flatMap fun k => leBytes 2 (pattern 16 (xs.getD k 0))

/-- The 272 bytes of a refined record (R287). -/
def refinedBytes (r : RefinedRec) : List Byte :=
  leBytes 4 r.src ++ leBytes 1 (lkOf r.cand) ++ leBytes 1 (r.iter % 8 + 8 * bit r.warm) ++ leBytes 2 (r.cand.client % 1024)
    ++ knotBytes r.rk ++ knotBytes r.rv ++ leBytes 4 (min r.jq 0xFFFFFFFF) ++ leBytes 4 0

/-- OKIND and RECORD of an offer (R449). -/
def offerRecord : Option Record → Nat × List Byte
  | some (.refined r) => (0, refinedBytes r)
  | some (.candidate _ c) => (1, padTo 272 (candBytes c))
  | none => (2, padTo 272 [])

/-- EDGE_STATE of an offer (R449). -/
def edgeStateBytes (e : Pose) : List Byte :=
  leBytes 4 (pattern 32 e.x) ++ leBytes 4 (pattern 32 e.y) ++ (List.range 5).flatMap (fun b => leBytes 4 (e.thetas.getD b 0).toNat)
    ++ leBytes 2 (pattern 16 e.kappa) ++ leBytes 2 (pattern 16 e.v) ++ leBytes 2 (pattern 16 e.zh) ++ leBytes 2 (bit e.down)
    ++ leBytes 4 0

/-- The 372 bytes of an offer (R449). -/
def offerBytes (o : Offer) : List Byte :=
  let r := offerRecord o.record
  leBytes 4 o.frame.toNat ++ leBytes 8 o.edgeTick ++ leBytes 4 (min o.age 0xFFFFFFFF) ++ leBytes 4 o.cost
    ++ leBytes 2 (pattern 16 o.clearance) ++ leBytes 2 o.originGen.toNat ++ leBytes 1 r.1 ++ leBytes 1 (bit o.restart)
    ++ leBytes 2 o.doubt.toNat ++ digestBytes o.audit ++ edgeStateBytes o.edgeState ++ r.2

/-! ## Keep-out polygon tables and shared-unit grants (R135, R378, R462) -/

/-- The words of a keep-out set's polygon table. -/
def koWords (k : KoSet) : List Nat :=
  k.length :: k.flatMap fun p => p.length :: p.flatMap fun v => [pattern 32 v.1, pattern 32 v.2]

/-- The words of the shared-unit grants. -/
def grantWords (g : List (Nat × Fin 16)) : List Nat := g.length :: g.map fun x => x.1 * 16 + x.2.val

/-- The staged values and tables of a pair swap as its digest covers them (R462). DESIGN CHOICE (log 125): their layout. -/
def stagedBytes (vals : List StagedVal) (t : StagedTables) (shift : Option (Int × Int)) : List Byte :=
  (vals.flatMap fun v => leBytes 4 v.addr ++ leBytes 4 v.val.toNat)
    ++ (t.keepOut.flatMap fun k => leBytes 4 k.1.val ++ (koWords k.2).flatMap (leBytes 4))
    ++ ((t.grants.map grantWords).getD []).flatMap (leBytes 4)
    ++ (shift.map fun d => leBytes 4 (pattern 32 d.1) ++ leBytes 4 (pattern 32 d.2)).getD []

/-- The digest that PROPOSE carries. -/
def stagedDigest (vals : List StagedVal) (t : StagedTables) (shift : Option (Int × Int)) : BitVec 256 :=
  Config.sha3 (stagedBytes vals t shift)

/-! ## Woad messages (R437, R439, R440) -/

/-- TYPE of a message (R440). -/
def woadType : WoadMsg → Nat
  | .hello _ _ => 0x01 | .config _ => 0x02 | .edge _ => 0x03 | .delayReq _ => 0x04 | .delayResp _ _ => 0x05 | .digest _ _ => 0x06
  | .propose _ => 0x07 | .ack _ => 0x08 | .refuse _ _ => 0x09 | .commit _ => 0x0A | .commitAck _ => 0x0B | .journal _ _ => 0x0C
  | .abdicate _ _ => 0x0D | .offer _ => 0x10 | .verdict _ _ _ _ => 0x11 | .emitted _ _ _ _ => 0x12

/-- The payload of a message, sent by a device (R439, R440, R446, R449, R450, R453, R462). DESIGN CHOICE (log 125): the layouts of
HELLO, PROPOSE, ACK, REFUSE, COMMIT, COMMIT_ACK and JOURNAL, of which the spec gives the content. -/
def woadPayload (device : BitVec 128) : WoadMsg → List Byte
  | .hello posB nonce => leBytes 1 (bit posB) ++ padTo 96 (Config.devicePublic device) ++ padTo 1024 (Config.deviceCert device)
      ++ leBytes 32 nonce
  | .config m => digestBytes m.image ++ leBytes 4 m.rom.toNat ++ leBytes 4 m.fw.toNat ++ leBytes 1 m.lc ++ leBytes 1 (bit m.dbgLock)
      ++ leBytes 1 m.prot ++ leBytes 1 0
  | .edge m => leBytes 4 m.frame.toNat ++ leBytes 8 m.tick ++ leBytes 1 m.state
      ++ leBytes 1 (bit m.restart + 2 * bit m.transmitting) ++ leBytes 2 m.swapGen
  | .delayReq t => leBytes 8 t ++ leBytes 8 0
  | .delayResp received sent => leBytes 8 sent ++ leBytes 8 received
  | .digest frame ds => leBytes 4 frame.toNat ++ ds.flatMap digestBytes
  | .propose m => leBytes 4 m.s.toNat ++ leBytes 2 m.mask.toNat ++ digestBytes m.digest ++ stagedBytes m.vals m.tables m.recentre
  | .ack s => leBytes 4 s.toNat
  | .refuse s reason => leBytes 4 s.toNat ++ leBytes 1 reason
  | .commit s => leBytes 4 s.toNat
  | .commitAck s => leBytes 4 s.toNat
  | .journal es s => leBytes 4 s.toNat ++ es.flatMap fun e => stagedBytes e.vals e.tables none
  | .abdicate frame code => leBytes 4 frame.toNat ++ leBytes 2 code ++ leBytes 2 0
  | .offer o => offerBytes o
  | .verdict frame subjectTwin v detail =>
      leBytes 4 frame.toNat ++ leBytes 1 (bit subjectTwin) ++ leBytes 1 v ++ leBytes 2 0 ++ leBytes 8 detail
  | .emitted frame source kind status => leBytes 4 frame.toNat ++ leBytes 1 source ++ leBytes 1 kind ++ leBytes 2 status

/-- The 12 bytes before a payload (R437), which are its additional authenticated data. -/
def woadHeader (chan ty len ctr : Nat) : List Byte := leBytes 1 chan ++ leBytes 1 ty ++ leBytes 2 len ++ leBytes 8 ctr

/-- The key and salt of a channel and direction (R439). -/
def woadKey (keys : List (List Byte)) (chan dir : Nat) : List Byte := keys.getD (2 * chan + dir) []

/-- A sealed transport message (R437). -/
def sealWoad (k : List Byte) (chan ty ctr : Nat) (payload : List Byte) : List Byte :=
  let h := woadHeader chan ty payload.length ctr
  h ++ Config.gcmSeal (k.take 32) (k.drop 32 ++ leBytes 8 ctr) h payload

/-- A payload in transport messages with rising CTR, the first with ctr. DESIGN CHOICE (log 125): a payload of more than 2,020
bytes goes in several messages of its type, as R436 says of mirrored samples. -/
def woadMessages (k : List Byte) (chan ty ctr : Nat) (payload : List Byte) : List (List Byte) :=
  (chunks 2020 (payload.length + 1) payload).mapIdx fun i p => sealWoad k chan ty (ctr + i) p

/-- HELLO in clear (R437): CTR 0 and a zero tag. -/
def clearHello (payload : List Byte) : List Byte := woadHeader 0 1 payload.length 0 ++ payload ++ padTo 16 []

/-! ## The supervisor port (R494, R495) -/

/-- The header of a message (R494). -/
def supHeader (slot dir len ctr : Nat) (more : Bool) : List Byte :=
  leBytes 1 slot ++ leBytes 1 dir ++ leBytes 2 len ++ leBytes 1 (bit more) ++ leBytes 3 0 ++ leBytes 8 ctr

/-- The key and the salt of a direction in the 72 bytes of a slot (R492): 0 host to device, 1 device to host. -/
def slotKey (keys : List Byte) (dir : Nat) : List Byte × List Byte := (part (32 * dir) 32 keys, part (64 + 4 * dir) 4 keys)

/-- A sealed message of the supervisor port (R494). -/
def sealSup (keys : List Byte) (slot dir ctr : Nat) (more : Bool) (pt : List Byte) : List Byte :=
  let h := supHeader slot dir pt.length ctr more
  let k := slotKey keys dir
  h ++ Config.gcmSeal k.1 (k.2 ++ leBytes 8 ctr) h pt

/-- The 16 bytes of a completion (R495). -/
def complBytes (c : Compl) : List Byte :=
  leBytes 2 c.index ++ leBytes 1 c.status ++ leBytes 1 c.slot ++ leBytes 2 c.len ++ leBytes 2 0 ++ leBytes 8 c.ctr

end Sys2Proof.Machine
end

