-- ==== Sys2Proof/Machine/Ops.lean ====
section
/-! DEFINITION. Machine/Ops.lean: the named operations that the meanings share: sparse tables, register fields (R12 to
R14, R31), fault records and their places (R393, R421 to R425), doubt (R390, R393), the safe state (R408), lease
revocation (R26, R336) and quarantine (R24 to R28, R325, R329). -/

namespace Sys2Proof.Machine

/-! ## Sparse tables -/

/-- A sparse table's value at a key; d is what an unlisted key reads as. -/
def tabGet {α : Type} (d : α) : Tab α → Nat → α
  | [], _ => d
  | (k, v) :: t, a => if a = k then v else tabGet d t a

/-- A sparse table with the value at a key replaced; an entry equal to the unlisted value d is not kept. -/
def tabPut {α : Type} [DecidableEq α] (d : α) : Tab α → Nat → α → Tab α
  | [], a, v => if v = d then [] else [(a, v)]
  | (k, w) :: t, a, v =>
    if a < k then (if v = d then (k, w) :: t else (a, v) :: (k, w) :: t)
    else if a = k then (if v = d then t else (a, v) :: t)
    else (k, w) :: tabPut d t a v

/-- A list with the element at index i replaced by its image. -/
def modAt {α : Type} (i : Nat) (f : α → α) (l : List α) : List α := l.mapIdx fun j x => if j = i then f x else x

/-! ## Registers -/

/-- The indices of an offset into an array of registers, outermost first; none between registers. -/
def dimsIdx : List (Nat × Nat) → Nat → Option (List Nat)
  | [], o => if o = 0 then some [] else none
  | (st, cnt) :: ds, o => if o / st < cnt then (dimsIdx ds (o % st)).map (o / st :: ·) else none

/-- The register that stands at an address, among given rows, with its indices. -/
def findReg (a : Nat) : List RegSpec → Option (RegSpec × List Nat)
  | [] => none
  | r :: rs =>
    if r.base ≤ a then
      match dimsIdx r.dims (a - r.base) with
      | some ix => some (r, ix)
      | none => findReg a rs
    else findReg a rs

/-- The live register at an address (R31). -/
def liveReg (a : Nat) : Option (RegSpec × List Nat) := findReg a (blockRows a)

/-- The swappable register whose staged copy stands at an address: the live address plus 0x8000 (R14, R32). -/
def stagedReg (a : Nat) : Option (RegSpec × List Nat) :=
  if a / 0x8000 % 2 = 1 then
    match liveReg (a - 0x8000) with
    | some (r, ix) => if r.swap.isSome then some (r, ix) else none
    | none => none
  else none

/-- The value that an image sets for the field at a live address with the given lowest bit. -/
def imageField (img : Image) (a lo : Nat) : Option Nat :=
  (img.regInit.find? fun x => x.1 = a ∧ x.2.1 = lo).map fun x => x.2.2

/-- The reset value of a field of the register at a live address: the image gives that of every field whose reset value is
"from the image" (R546). -/
def fieldReset (img : Image) (a : Nat) (ix : List Nat) (f : FieldSpec) : Nat :=
  match f.src with
  | .const v => v
  | .perIndex vs => vs.getD (ix.getLastD 0) 0
  | .image d => match imageField img a f.lo with
    | some v => v % 2 ^ (f.hi - f.lo + 1)
    | none => d
  | .other => 0

/-- The reset value of a register from its row; reserved bits are 0 (R13). -/
def rowReset (img : Image) (a : Nat) (r : RegSpec) (ix : List Nat) : Nat :=
  (r.fields.map fun f => fieldReset img a ix f * 2 ^ f.lo).sum % 2 ^ 32

/-- The reset value of the register word at an address, live or staged; 0 where no register stands. -/
def resetWord (img : Image) (a : Nat) : Nat :=
  match liveReg a with
  | some (r, ix) => rowReset img a r ix
  | none =>
    match stagedReg a with
    | some (r, ix) => rowReset img (a - 0x8000) r ix
    | none => 0

/-- The word that a register holds. -/
def regWord (s : State) (a : Nat) : Nat := tabGet (resetWord s.image a) s.regs a

/-- The state with a register word replaced. -/
def setReg (s : State) (a w : Nat) : State :=
  { s with regs := tabPut (resetWord s.image a) s.regs a (w % 2 ^ 32) }

/-- The width of a field. -/
def fldWidth (f : Fld) : Nat := f.hi - f.lo + 1

/-- A word with its bits hi:lo replaced. -/
def putBits (w hi lo v : Nat) : Nat :=
  w - bitsOf w hi lo * 2 ^ lo + v % 2 ^ (hi - lo + 1) * 2 ^ lo

/-- The value of a register field. -/
def fld (s : State) (f : Fld) : Nat := bitsOf (regWord s f.addr) f.hi f.lo

/-- The state with a register field set. -/
def setFld (f : Fld) (v : Nat) (s : State) : State := setReg s f.addr (putBits (regWord s f.addr) f.hi f.lo v)

/-- The staged copy of a field of a swappable register. -/
def stagedFld (f : Fld) : Fld := { f with addr := f.addr + 0x8000 }

/-- A counter field advanced by n; it saturates at its largest value. -/
def bumpBy (f : Fld) (n : Nat) (s : State) : State := setFld f (satAdd (fldWidth f) (fld s f) n) s

/-- A counter field advanced by one. -/
def bump (f : Fld) (s : State) : State := bumpBy f 1 s

/-- A one-bit field as a Bool. -/
def flag (s : State) (f : Fld) : Bool := fld s f = 1

/-- A one-bit field set from a Bool. -/
def setFlag (f : Fld) (b : Bool) (s : State) : State := setFld f (if b then 1 else 0) s

/-- A field that saturates: the largest value of its width where v is larger. -/
def setSat (f : Fld) (v : Nat) (s : State) : State := setFld f (min v (2 ^ (fldWidth f) - 1)) s

/-- The fields of a capture register, written when its VALID bit is clear (first event since last cleared). -/
def capture (valid : Fld) (parts : List (Fld × Nat)) (s : State) : State :=
  if flag s valid then s else parts.foldl (fun s p => setFld p.1 p.2 s) (setFlag valid true s)

/-- Bit i of a bit-mask field. -/
def maskBit (s : State) (f : Fld) (i : Nat) : Bool := (fld s f).testBit i

/-- Bit i of a bit-mask field set or cleared. -/
def setMaskBit (f : Fld) (i : Nat) (b : Bool) (s : State) : State :=
  let w := fld s f
  setFld f (if b then w ||| 2 ^ i else if w.testBit i then w - 2 ^ i else w) s

/-! ## Outputs, free values and the running frame -/

/-- Adds an output to what the block has sent. -/
def send (o : Output) (s : State) : State := { s with sent := o :: s.sent }

/-- Takes the next free value: the counter's value before it advances. -/
def nextFree (s : State) : Nat × State := (s.free, { s with free := s.free + 1 })

/-- The number of the running frame as a natural number. -/
def frameN (s : State) : Nat := s.frame.num.toNat

/-! ## Programmable event counters (R254, R578 to R580) -/

/-- A 48-bit counter, its lower 32 bits at one address and the upper 16 at the next, advanced by n; it saturates. -/
def addCount (a n : Nat) (s : State) : State :=
  let v := min (regWord s a + 2 ^ 32 * (regWord s (a + 4) % 2 ^ 16) + n) (2 ^ 48 - 1)
  setReg (setReg s a v) (a + 4) (v / 2 ^ 32)

/-- The eight counters whose selection registers stand at sel and whose counts stand at cnt: those with EN 1 that select the
event count n of it. A selection register that is not listed holds its reset value, EN 0. -/
def countAt (sel cnt ev n : Nat) (s : State) : State :=
  let hit := fun (x : Nat × Nat) =>
    decide (sel ≤ x.1 ∧ x.1 < sel + 32 ∧ x.1 % 4 = 0) && x.2.testBit 31 && decide (x.2 % 256 = ev)
  (s.regs.filter hit).foldl (fun s x => addCount (cnt + 2 * (x.1 - sel)) n s) s

/-- An event of a cluster's steward. -/
def countSteward (c ev n : Nat) (s : State) : State :=
  countAt (0x511100 + 0x20000 * c) (0x511140 + 0x20000 * c) ev n s

/-- An event of a sweep or inference tile, which its steward counts too. -/
def countTile (u ev n : Nat) (s : State) : State :=
  if u < 64 then
    let o := 0x20000 * (u / 8) + 0x2000 * (u % 8)
    countSteward (u / 8) ev n (countAt (0x500110 + o) (0x500140 + o) ev n s)
  else if u < 72 then
    let o := 0x10000 * (u - 64)
    countSteward (u - 64) ev n (countAt (0x401110 + o) (0x401140 + o) ev n s)
  else s

/-- An event of the die. -/
def countDie (ev n : Nat) (s : State) : State := countAt 0x101A00 0x101A40 ev n s

/-! ## Fault records (R421 to R425) -/

/-- SEVERITY as a number (R421). -/
def sevCode : Severity → Nat
  | .note => 0 | .warning => 1 | .doubt => 2 | .fault => 3 | .fatal => 4

/-- What a rule names of a fault record. -/
structure Event where
  unit : Nat
  cls : Nat
  ev : Nat
  sev : Severity
  detail : Nat := 0
  client : Nat := 0xFFFF
  domain : Nat := 0xFF
  doubt : Bool := false

/-- The events to which R423 gives no CODE. -/
inductive Uncoded where
  | voidItem | abandoned | deferredTest | sepiaOutput | pillars | scrubLag | peerCheck | holdover | selectRecord | noFree
  | laneService | solverWord | solverRecord | trialSepia | ignoredTrigger | restartStep | modelDigest | fifoFull
  | selectWord | selectEntry
deriving DecidableEq, Repr

/-- The number of an event with no CODE. -/
def uncodedNo : Uncoded → Nat
  | .voidItem => 0 | .abandoned => 1 | .deferredTest => 2 | .sepiaOutput => 3 | .pillars => 4 | .scrubLag => 5
  | .peerCheck => 6 | .holdover => 7 | .selectRecord => 8 | .noFree => 9 | .laneService => 10 | .solverWord => 11
  | .solverRecord => 12 | .trialSepia => 13 | .ignoredTrigger => 14 | .restartStep => 15 | .modelDigest => 16
  | .fifoFull => 17 | .selectWord => 18 | .selectEntry => 19

/-- A recorded event whose CODE the spec does not state: it is free. -/
def uncoded (k : Uncoded) (unit : Nat) (sev : Severity) : Event :=
  let c := Config.codeOf (uncodedNo k)
  { unit := unit, cls := c / 256 % 256, ev := c % 256, sev := sev }

/-- The severity of a recorded event where the spec states none: it is free. -/
def openSev (k : Nat) : Severity :=
  match Config.severityOf k % 5 with
  | 0 => .note | 1 => .warning | 2 => .doubt | 3 => .fault | _ => .fatal

/-- R606: a record enters the Indigo retention log of 64 records; NEXT and COUNT advance after it. -/
def indigoLog (r : FaultRec) (s : State) : State :=
  if s.ind.powered then
    let n := (s.ind.logNext + 1) % 64
    { s with ind := { s.ind with log := (r :: s.ind.log).take 64, logNext := n, logCount := min 64 (s.ind.logCount + 1) } }
  else s

/-- The oldest note or warning of the queue removed, if there is one. -/
def dropOldestMild : List QueuedRec → Option (List QueuedRec)
  | [] => none
  | q :: t => if q.entry.severity ≤ 1 then some t else (dropOldestMild t).map (q :: ·)

/-- R425: a record joins the record queue of 256, or is dropped, or replaces the oldest note or warning. -/
def enqueue (q : QueuedRec) (s : State) : State :=
  if s.log.queue.length < 256 then { s with log := { s.log with queue := s.log.queue ++ [q] } }
  else if q.entry.severity ≤ 1 then bump F.WDN_FLOG_STAT_DROP s
  else
    match dropOldestMild s.log.queue with
    | some t => bump F.WDN_FLOG_STAT_DROP { s with log := { s.log with queue := t ++ [q] } }
    | none => bump F.WDN_FLOG_STAT_DROP s

/-- The record that an event makes now (R421). -/
def recordOf (s : State) (e : Event) : FaultRec :=
  { time := s.time.count, frame := s.frame.num, unit := e.unit, cls := e.cls, ev := e.ev,
    detail := e.detail % 2 ^ 64, client := e.client, domain := e.domain, doubt := e.doubt, severity := sevCode e.sev,
    seq := s.log.seq }

/-- Creates a fault record: to Indigo at once where its severity sends it, then into the record queue for Ochre and the
HBM log (R338, R424, R425); SEQ counts every record. -/
def report (e : Event) (s : State) : State :=
  let r := recordOf s e
  let s1 := if fld s F.WDN_LOG_CFG_IND_SEV ≤ r.severity then indigoLog r s else s
  let q : QueuedRec := ⟨r, fld s F.WDN_LOG_CFG_OCH_SEV ≤ r.severity, s.log.hbmOk⟩
  let s2 := enqueue q s1
  setFld F.WDN_FLOG_STAT_SEQ r.seq { s2 with log := { s2.log with
    seq := (s2.log.seq + 1) % 256
    newest := if r.severity ≥ 2 then some (r.cls * 256 + r.ev, r.seq) else s2.log.newest } }

/-- A record that goes to the Indigo retention log alone, as the rule that makes it says. -/
def reportIndigo (e : Event) (s : State) : State :=
  let s1 := indigoLog (recordOf s e) s
  setFld F.WDN_FLOG_STAT_SEQ s.log.seq { s1 with log := { s1.log with seq := (s1.log.seq + 1) % 256 } }

/-! ## Doubt (R390, R393) -/

/-- Sets DOUBT_FLAGS bit b of the running frame; the counter of the flag counts the frame once. -/
def markDoubt (b : Nat) (s : State) : State :=
  if s.frame.flags.getLsbD b then s
  else bump (F.WDN_DOUBT_CNT_COUNT b) { s with frame := { s.frame with flags := s.frame.flags ||| (1#16 <<< b) } }

/-- An event that makes the running frame doubt and writes its record with RFLAGS bit 0 set (R393). -/
def doubtEvent (b : Nat) (e : Event) (s : State) : State := report { e with doubt := true } (markDoubt b s)

/-- R23: an access from a requester outside its reach is refused: an error, and a fault record of severity warning. -/
def refuseAccess (r : Requester) (addr : Nat) (s : State) : State :=
  send (.error r addr none) (report { unit := 0x90, cls := 0x0B, ev := 0, sev := .warning, detail := addr % 2 ^ 40 } s)

/-! ## The safe state (R408) -/

/-- Asserts SAFE_STOP_N: an assertion writes its record; a signal that is asserted already stays so. The condition that
released it is gone (R409). -/
def assertSafeStop (s : State) : State :=
  if s.pwr.safeStop then s
  else
    report { unit := 0x90, cls := 0x09, ev := 2, sev := .fault }
      (setFlag F.WDN_SAFE_STAT_SAFE_STOP true { s with pwr := { s.pwr with safeStop := true } })

/-- Asserts FAULT_N. -/
def assertFaultN (s : State) : State := { s with pwr := { s.pwr with faultN := true } }

/-- The direction byte of what this device sends (R439): 0 from A to B, 1 from B to A. -/
def ownDir (s : State) : Nat := if s.boot.pos = 1 then 1 else 0

/-- Sends a payload on a Woad channel while the link is up and the session keys exist, with the next values of CTR of the
channel (R436 to R439). out makes the output of the first CTR and the transport messages. -/
def sendSealed (chan ty : Nat) (payload : List Byte) (out : Nat → List (List Byte) → Output) (s : State) : State :=
  if !s.twin.linkUp || !s.twin.session then s
  else
    let c := s.twin.txCtr.getD chan 0 + 1
    let ms := woadMessages (woadKey s.twin.keys chan (ownDir s)) chan ty c payload
    send (out c ms) { s with twin := { s.twin with txCtr := modAt chan (fun x => x + ms.length) s.twin.txCtr } }

/-- Sends a message on a Woad channel (R436 to R440). HELLO is sent in clear with CTR 0 (R437). -/
def sendWoad (chan : Nat) (m : WoadMsg) (s : State) : State :=
  let p := woadPayload s.fuse.deviceId m
  match m with
  | .hello _ _ => if !s.twin.linkUp then s else send (.woad 0 0 m [clearHello p]) s
  | _ => sendSealed chan (woadType m) p (fun c ms => .woad chan c m ms) s

/-- R456: a device that records a fatal event while in PAIRED_A sends ABDICATE and stops transmitting on the guidance
segment. code is CODE of the record. -/
def abdicate (code : Nat) (s : State) : State :=
  if s.twin.pair = .pairedA then
    sendWoad 0 (.abdicate s.frame.num code) { s with twin := { s.twin with silent := true } }
  else s

/-- A fatal event (R15, R408, R456): its record, FAULT_N and SAFE_STOP_N. -/
def fatal (e : Event) (s : State) : State :=
  abdicate (e.cls * 256 + e.ev) (assertSafeStop (assertFaultN (report { e with sev := .fatal } s)))

/-- The device runs: between the release of reset and a halt or the loss of power. -/
def running (s : State) : Bool := s.pwr.phase = .running

/-- What happens only while the device runs; otherwise nothing does. -/
def live (s : State) (f : State → State) : State := if running s then f s else s

/-- The fabric under the Conductor works: no restart has it halted (R412, step 1). -/
def fabricUp (s : State) : Bool :=
  running s && match s.safe.restart with
    | some r => r.phase = .warmUp
    | none => true

/-- What happens only while the fabric works. -/
def fabric (s : State) (f : State → State) : State := if fabricUp s then f s else s

/-! ## Units (R22, R25, R26) -/

/-- UNIT of CND_OVR_CAP for a sweep tile. -/
def tileUnit (t : TileId) : Nat := t.c.val * 8 + t.t.val

/-- A unit is out of service: quarantined, out of service or retired. -/
def outOfService (s : State) (u : Nat) : Bool := s.cnd.outOfService.contains u

/-- The domain that owns a unit: the domain map for tiles, domain 0 for lanes and other sequencers. -/
def unitDomain (s : State) (u : Nat) : Nat :=
  if u < 64 then fld s (F.SWP_TILE_DOMAIN_DOMAIN (u / 8)) / 2 ^ (4 * (u % 8)) % 16
  else if u < 72 then fld s (F.INF_TILE_STAT_DOMAIN (u - 64))
  else 0

/-- The status bits that show a unit's quarantine or its being out of service; a change of the Solver lanes in service is a
warning (R316). -/
def showService (u : Nat) (out : Bool) (s : State) : State :=
  if u < 64 then
    setMaskBit (F.SWP_STW_QUAR_QUAR (u / 8)) (u % 8) out
      (setMaskBit (F.SWP_STW_STAT_QUAR (u / 8)) (u % 8) out
        (setFld (F.SWP_TILE_STAT_STATE (u / 8) (u % 8)) (if out then 3 else 0) s))
  else if u < 72 then setFld (F.INF_TILE_STAT_STATE (u - 64)) (if out then 3 else 0) s
  else if u < 76 then
    let t := setMaskBit F.SLV_STAT_IN_SERVICE (u - 72) (!out) s
    if fld t F.SLV_STAT_IN_SERVICE = fld s F.SLV_STAT_IN_SERVICE then t else report (uncoded .laneService u .warning) t
  else s

/-! ## Leases (R26, R27, R333 to R336) -/

/-- The number of leases held shows in CND_LEASE_STAT. -/
def showLeases (s : State) : State := setFld F.CND_LEASE_STAT_USED s.cnd.leases.length s

/-- The run-time state of a node that nothing has touched. -/
def NodeRun.idle : NodeRun := { flags := 0, ready := 0, affinity := none, taint := 0 }

/-- The run-time state of a node. -/
def nodeRun (s : State) (n : Nat) : NodeRun := tabGet NodeRun.idle s.cnd.nodes n

/-- The state with a node's run-time state replaced. -/
def setNode (n : Nat) (r : NodeRun) (s : State) : State :=
  { s with cnd := { s.cnd with nodes := tabPut NodeRun.idle s.cnd.nodes n r } }

/-- A node's descriptor from its four words (R318). -/
def nodeOf (w : NodeWords) : NodeDesc :=
  let b := fun (x : Word32) (hi lo : Nat) => bitsOf x.toNat hi lo
  { mask := w.w0, prio := Fin.ofNat 8 (b w.w1 31 29), bounded := w.w1.getLsbD 28, phase := Fin.ofNat 8 (b w.w1 27 25)
    domain := Fin.ofNat 16 (b w.w1 24 21), unitClass := Fin.ofNat 8 (b w.w1 20 18), repl := w.w1.getLsbD 17
    flow := if w.w1.getLsbD 16 then some (Fin.ofNat 256 (b w.w1 15 8)) else none
    budget := b w.w2 31 16, waitTo := b w.w3 31 15, succ := w.succ }

/-- The nodes of the dataflow graph, by number. -/
def imageNodes (s : State) : List (Nat × NodeDesc) := s.image.nodes.map fun n => (n.1, nodeOf n.2)

/-- The descriptor of a node (R318). -/
def nodeDesc (s : State) (n : Nat) : Option NodeDesc := (s.image.nodes.find? fun x => x.1 = n).map fun x => nodeOf x.2

/-- R321: a node enters the queue at its tail; nodes of one tick stand in order of node number. -/
def insertReady (e : ReadyEnt) : List ReadyEnt → List ReadyEnt
  | [] => [e]
  | x :: xs => if x.entered = e.entered ∧ e.node < x.node then e :: x :: xs else x :: insertReady e xs

/-- R320, R321: one readiness more for a node, which enters its queue if it had none. -/
def addReady (n : Nat) (s : State) : State :=
  let r := nodeRun s n
  let s1 := setNode n { r with ready := min 255 (r.ready + 1) } s
  if s.cnd.ready.any (fun e => e.node = n) then s1
  else { s1 with cnd := { s1.cnd with ready := insertReady ⟨n, s.time.count⟩ s1.cnd.ready } }

/-- R320: a node whose masked bits are all set becomes ready, once, and its masked bits clear. -/
def testReady (n : Nat) (s : State) : State :=
  match nodeDesc s n with
  | none => s
  | some d =>
    let r := nodeRun s n
    if r.flags &&& d.mask = d.mask then addReady n (setNode n { r with flags := r.flags &&& ~~~ d.mask } s) else s

/-- R319, R339: the flag bits that a successor list names are all set, then each node is tested once. -/
def raiseFlags (succ : List (Fin 4096 × Fin 32)) (s : State) : State :=
  let set := fun (s : State) (e : Fin 4096 × Fin 32) =>
    setNode e.1.val { nodeRun s e.1.val with flags := (nodeRun s e.1.val).flags ||| (1#32 <<< e.2.val) } s
  ((succ.map fun e => e.1.val).eraseDups).foldl (fun s n => testReady n s) (succ.foldl set s)

/-! ## Ordered flows (R327 to R329) -/

/-- The state of a flow. -/
def flowSt (s : State) (f : Nat) : FlowSt := tabGet ⟨0, 0⟩ s.cnd.flows f

/-- R328: the flow's reorder window of 1,024 items is full. -/
def flowFull (s : State) (f : Nat) : Bool := (s.cnd.items.filter fun i => i.flow = f).length ≥ 1024

/-- R327: an item enters a flow and takes the next sequence number. -/
def enterItem (f : Nat) (s : State) : State :=
  let fs := flowSt s f
  let it : FlowItem := ⟨f, fs.next, s.time.count, false, false, 0, none⟩
  { s with cnd := { s.cnd with
    items := s.cnd.items ++ [it]
    flows := tabPut ⟨0, 0⟩ s.cnd.flows f { fs with next := (fs.next + 1) % 2 ^ 32 } } }

/-- The node that consumes a flow. -/
def flowNode (s : State) (f : Nat) : Option (Nat × NodeDesc) :=
  (imageNodes s).find? fun n => n.2.flow.map (·.val) = some f

/-- One release (R327, R329): the item whose turn it is, if it is complete. A void item is skipped by the consumer,
counted, and reported as a warning; any other sets the flags of the flow's successors. -/
def releaseOne (f : Nat) (s : State) : Option State :=
  let fs := flowSt s f
  match s.cnd.items.find? fun i => i.flow = f ∧ i.seq = fs.release ∧ i.complete with
  | none => none
  | some i =>
    let s1 := { s with cnd := { s.cnd with
      items := s.cnd.items.filter fun x => ¬ (x.flow = f ∧ x.seq = i.seq)
      flows := tabPut ⟨0, 0⟩ s.cnd.flows f { fs with release := (fs.release + 1) % 2 ^ 32 } } }
    if i.void then
      some (bump F.CND_FLOW_STAT_VOID
        (report (uncoded .voidItem 0x81 .warning) s1))
    else some (raiseFlags (((flowNode s f).map fun n => n.2.succ).getD []) s1)

/-- Releases in sequence order until an item is not complete; the window bounds their number. -/
def releaseItems (f : Nat) : Nat → State → State
  | 0, s => s
  | n + 1, s =>
    match releaseOne f s with
    | none => s
    | some s' => releaseItems f n s'

/-- A flow item of a unit's task is lost (R329): the first loss sends it back to be granted once more, to another unit, the
second releases a void item in its place. -/
def loseItem (u : Nat) (s : State) : State :=
  match s.cnd.grants.find? fun g => g.unit = u with
  | none => s
  | some g =>
  match g.item with
  | none => s
  | some (fl, sq) =>
    let lose := fun (i : FlowItem) =>
      if i.flow = fl ∧ i.seq = sq ∧ ¬ i.complete then
        { i with losses := i.losses + 1, void := i.losses ≥ 1, complete := i.losses ≥ 1, lostOn := some u } else i
    let again := s.cnd.items.any fun i => i.flow = fl ∧ i.seq = sq ∧ ¬ i.complete ∧ i.losses = 0
    let s1 := { s with cnd := { s.cnd with items := s.cnd.items.map lose } }
    if again then addReady g.node s1 else releaseItems fl 1024 s1

/-! ## The supervisor port (R494 to R496) -/

/-- The keys of a slot. -/
def slotKeys (s : State) (n : Nat) : Option SlotKeys := s.sec.slots.find? fun k => k.slot = n

/-- The completion ring is full: the next completion would reach the one that the host reads next. -/
def complFull (s : State) : Bool :=
  decide ((fld s F.SUP_CMP_HEAD_HEAD + 1) % max 1 (fld s F.SUP_CMD_CTL_SIZE) = fld s F.SUP_CMP_HEAD_ACK)

/-- Writes a completion at HEAD, which advances, and signals MSI-X vector 0 (R490, R495). -/
def writeCompl (c : Compl) (s : State) : State :=
  let h := fld s F.SUP_CMP_HEAD_HEAD
  send (.msix 0) (send (.completion h c (complBytes c)) (setFld F.SUP_CMP_HEAD_HEAD ((h + 1) % max 1 (fld s F.SUP_CMD_CTL_SIZE)) s))

/-- A descriptor completes (R495); when the completion ring is full, the completion waits. -/
def complete (c : Compl) (s : State) : State :=
  if s.sec.compls.isEmpty && !complFull s then writeCompl c s
  else { s with sec := { s.sec with compls := s.sec.compls ++ [c] } }

/-- A descriptor completes without a message: LEN and CTR of the completion are free. -/
def completeBad (index status slot : Nat) (s : State) : State :=
  let n := nextFree s
  let m := nextFree n.2
  complete ⟨index, status, slot, Config.freeValue n.1 % 2 ^ 16, Config.freeValue m.1 % 2 ^ 64⟩ m.2

/-- A slot is closed (R496, R500, R497): its keys are destroyed, its pending descriptors complete with SLOT_CLOSED, and the
closure is recorded, counted and captured. cause is that of event 5. -/
def closeSlot (slot cause : Nat) (s : State) : State :=
  if (slotKeys s slot).isNone then s
  else
    let gone := (s.sec.cmds ++ s.sec.bufs).filter fun d => d.slot = slot
    let s1 := { s with sec := { s.sec with
      slots := s.sec.slots.filter fun k => k.slot ≠ slot
      cmds := s.sec.cmds.filter fun d => d.slot ≠ slot
      bufs := s.sec.bufs.filter fun d => d.slot ≠ slot } }
    let s2 := gone.foldl (fun s d => completeBad d.index 3 slot s) s1
    capture F.SUP_SLOT_CAP_VALID [(F.SUP_SLOT_CAP_CAUSE, cause), (F.SUP_SLOT_CAP_SLOT, slot)]
      (bump F.SUP_SLOT_CNT_CLOSED
        (report { unit := 0x97, cls := 0x0E, ev := 5, sev := if cause = 0 then .fault else .warning,
                  detail := slot + cause * 2 ^ 8 } s2))

/-- The state with an open slot's keys replaced. -/
def setSlot (k : SlotKeys) (s : State) : State :=
  { s with sec := { s.sec with slots := s.sec.slots.map fun x => if x.slot = k.slot then k else x } }

/-- The 16-byte header of an answer and its body (R348, R356): 8-byte entries, or the operation report. -/
def answerBytes (a : Answer) : List Byte :=
  let rep := match a.report with
    | some [st, op, ctx, done, total, ckpt] =>
      leBytes 1 st ++ leBytes 1 op ++ leBytes 1 ctx ++ leBytes 1 0 ++ leBytes 4 done ++ leBytes 4 total ++ leBytes 4 ckpt
    | _ => []
  leBytes 2 a.client ++ leBytes 1 a.kind ++ leBytes 1 a.status ++ leBytes 4 a.tag.toNat ++ leBytes 4 a.frame.toNat
    ++ leBytes 2 (if a.report.isSome then 0 else a.body.length) ++ leBytes 2 a.flags
    ++ (if a.report.isSome then rep else a.body.flatMap fun e => leBytes 8 e.toNat)

/-- One message of a waiting unit goes into an offered buffer (R494, R495): its CTR is the next of the slot, MORE says that
the unit continues. -/
def deliverMsg (m : DevMsg) (d : SlotDesc) (k : SlotKeys) (s : State) : State :=
  let n := min m.rest.length (min 4096 (d.len - 32))
  let more : Bool := decide (n < m.rest.length)
  let ctr := k.txCtr + 1
  let rest := s.sec.out.erase m
  let s1 := setSlot { k with txCtr := ctr } { s with sec := { s.sec with
    bufs := s.sec.bufs.erase d
    out := if more then { m with rest := m.rest.drop n, since := s.time.count } :: rest else rest } }
  let s2 := complete ⟨d.index, 0, m.slot, n, ctr⟩
    (send (.hostMsg m.slot ctr n more (sealSup k.keys m.slot 1 ctr more (m.rest.take n))) s1)
  let s3 := match m.answer with
    | some a => if more then s2 else send (.answer a none (answerBytes a)) s2
    | none => s2
  if ctr ≥ 2 ^ 48 then closeSlot m.slot 1 s3 else s3

/-- One waiting unit that has keys and an offered buffer of its slot sends a message. -/
def pumpOne (s : State) : State :=
  match s.sec.out.find? fun m => (slotKeys s m.slot).isSome && s.sec.bufs.any fun d => d.slot = m.slot with
  | none => s
  | some m =>
    match slotKeys s m.slot, s.sec.bufs.find? fun d => d.slot = m.slot with
    | some k, some d => deliverMsg m d k s
    | _, _ => s

/-- Waiting units go out while offered buffers last. -/
def pump (s : State) : State := (List.range s.sec.bufs.length).foldl (fun s _ => pumpOne s) s

/-- A unit for the host joins those that wait (R494). -/
def sendUnit (slot : Nat) (a : Option Answer) (bytes : List Byte) (s : State) : State :=
  pump { s with sec := { s.sec with out := s.sec.out ++ [⟨slot, a, bytes, s.time.count⟩] } }

/-- The address that a NAME is known to have (R514). -/
def nameAddr (s : State) (n : Fin 64) : Option Nat :=
  match s.image.names[n.val]? with
  | none => none
  | some x => (s.bus.names.find? fun e => e.1 = x).map (·.2)

/-- Where the answer to a bound client goes (R526, R527): the answer identifier, or the sender's address. -/
def answerTo (s : State) (a : Answer) : Option Nat :=
  match s.image.bindings.find? fun b => b.port = a.port ∧ b.client = a.client with
  | none => none
  | some b => if a.port = .guidance then some b.ansId.toNat else b.name.bind (nameAddr s)

/-- A frame of this device other than a bundle on the guidance segment: none stands between the parts of a bundle (R518). -/
def sendGuidance (o : Output) (s : State) : State :=
  if s.bus.onBus.isSome then { s with bus := { s.bus with guidOut := s.bus.guidOut ++ [o] } } else send o s

/-- The Conductor sends an answer on the port on which its request arrived (R348); on the supervisor port it is a unit of
the client's slot (R494). -/
def sendAnswer (a : Answer) (s : State) : State :=
  match a.port with
  | .supervisor => sendUnit (bitsOf (fld s (F.CND_CLIENT_WORD a.client 0)) 15 8) (some a) (answerBytes a) s
  | .guidance => sendGuidance (.answer a (answerTo s a) (answerBytes a)) s
  | .isobus => send (.answer a (answerTo s a) (answerBytes a)) s

/-! ## Wipes (R383) -/

/-- A wipe begins (R383). -/
def beginWipe (r : WipeRegion) (s : State) : State :=
  if s.mem.wipes.any fun w => w.1 = r then s
  else setFlag F.MEM_WIPE_STAT_BUSY true { s with mem := { s.mem with wipes := s.mem.wipes ++ [(r, s.time.count)] } }

/-- The scratch of a leased resource (R336), which the image places; that of a long-operation region lies beside its
checkpoint slots (R333). -/
def leaseScratch (s : State) (cls res : Nat) : List (Nat × Nat) :=
  (s.image.leaseRegions.filter fun r => r.1 = cls ∧ r.2.1 = res).map fun r => r.2.2

/-- What the wipe after a revocation covers (R336): the scratch of the resource, or the whole long-operation region. -/
def revokedRegion (cls res : Nat) : WipeRegion :=
  if cls = 5 then .longOp (Fin.ofNat 32 res) else .leaseScratch (Fin.ofNat 6 cls) res

/-! ## Long operations: their registers and the abandonment of a work unit (R353, R354) -/

/-- OPSTATE of R356. -/
def opCode : OpState → Nat
  | .queued => 0 | .running => 1 | .suspending => 2 | .suspended => 3 | .cancelling => 4 | .done => 5 | .cancelled => 6
  | .failed => 7 | .revoked => 8

/-- The state is final: the operation is over. -/
def opFinal : OpState → Bool
  | .done => true | .cancelled => true | .failed => true | .revoked => true
  | _ => false

/-- CND_LONGOP_STAT_n shows a context; a free one reads 0 (R361). -/
def showOp (ctx : Nat) (s : State) : State :=
  let put := fun (st op ab cl un : Nat) (s : State) =>
    setFld (F.CND_LONGOP_STAT_OPSTATE ctx) st (setFld (F.CND_LONGOP_STAT_OPCODE ctx) op
      (setFld (F.CND_LONGOP_STAT_ABANDONS ctx) ab (setFld (F.CND_LONGOP_STAT_CLIENT ctx) cl
        (setFld (F.CND_LONGOP_STAT_UNITS ctx) un s))))
  match s.cnd.ops.find? fun o => o.ctx = ctx with
  | some o => put (opCode o.state) o.op o.abandons o.client (o.unitsDone % 1024) s
  | none => put 0 0 0 0 0 s

/-- The valid checkpoint: the slot with a correct CRC and the higher sequence number (R353). -/
def validCkpt (o : LongOp) : Option Ckpt :=
  (o.slots.filter (·.crcOk)).foldl (fun (b : Option Ckpt) c =>
    match b with
    | none => some c
    | some x => if c.seq > x.seq then some c else some x) none

/-- The operation report of R356, as its six values. -/
def opReport (o : LongOp) : List Nat :=
  [opCode o.state, o.op, o.ctx, o.unitsDone, o.unitsTotal, ((validCkpt o).map fun c => c.frame.toNat).getD 0]

/-- The answer of a long operation (R348): its body is the report. -/
def opAnswer (s : State) (o : LongOp) (status : Nat) : Answer :=
  { client := o.client, kind := 3, status := status, tag := o.tag, frame := s.frame.num, port := o.port, body := [],
    flags := 0, report := some (opReport o) }

/-- The state with a context's operation replaced; one in a final state frees its context. -/
def setOp (o : LongOp) (s : State) : State :=
  let put := fun (x : LongOp) => if x.ctx = o.ctx then o else x
  let ops := if opFinal o.state then s.cnd.ops.filter (fun x => x.ctx ≠ o.ctx) else s.cnd.ops.map put
  showOp o.ctx { s with cnd := { s.cnd with ops := ops } }

/-- A work unit is abandoned (R354): a warning, its scratch wiped, the operation back at its valid checkpoint from the
next grant; after ABANDON_MAX in a row it fails and the client is told. -/
def abandonUnit (o : LongOp) (s : State) : State :=
  let s1 := beginWipe (.leaseScratch 5 o.ctx) (report { uncoded .abandoned 0x81 .warning with client := o.client } s)
  let n := o.abandons + 1
  if n ≥ fld s F.CND_SCHED_CFG_ABANDON_MAX then
    let o' := { o with abandons := n, state := OpState.failed, unitStart := none }
    let s2 := setOp o' s1
    sendAnswer (opAnswer s1 o' 0x19) (showLeases { s2 with cnd := { s2.cnd with
      leases := s2.cnd.leases.filter fun l => ¬ (l.cls = 5 ∧ l.res = o.ctx) } })
  else
    setOp { o with abandons := n, unitStart := none, unitsDone := ((validCkpt o).map (·.units)).getD 0 } s1

/-- The long operation whose work unit runs on a unit: the image names the nodes of each operation. -/
def opOnUnit (s : State) (u : Nat) : Option LongOp :=
  match s.cnd.grants.find? fun g => g.unit = u with
  | none => none
  | some g =>
    match s.image.opNodes.find? fun x => x.2 = g.node with
    | none => none
    | some (op, n) =>
      s.cnd.ops.find? fun o => o.op = op ∧ o.unitStart.isSome ∧
        bitsOf (fld s (F.CND_CLIENT_WORD o.client 0)) 27 24 = ((nodeDesc s n).map fun d => d.domain.val).getD 0

/-- R354: a work unit with a task on the unit is abandoned. -/
def abandonOn (u : Nat) (s : State) : State :=
  match opOnUnit s u with
  | some o => abandonUnit o s
  | none => s

/-- OPEN of the two segment engines shows the open contexts. -/
def showSegs (s : State) : State :=
  setFld F.WDN_CRYPTO_SEG_OPEN s.cnd.crypto.length (setFld F.WLD_MAPLD_SEG_OPEN s.cnd.mapld.length s)

/-- The last revocation of a resource is noted (R27, R336). -/
def noteRevoked (cls res holder : Nat) (s : State) : State :=
  { s with cnd := { s.cnd with
    revoked := ⟨cls, res, holder, s.time.count⟩ :: s.cnd.revoked.filter fun x => ¬ (x.cls = cls ∧ x.res = res) } }

/-- R360: the message of a revoked context is abandoned, and its requester receives an error. -/
def loseMessage (l : Lease) (s : State) : State :=
  if l.cls = 3 ∧ s.cnd.crypto.any (fun c => c.ctx = l.res) ∨ l.cls = 4 ∧ s.cnd.mapld.any (fun c => c.ctx = l.res) then
    send (.messageLost l.holder l.res) { s with cnd := { s.cnd with
      crypto := if l.cls = 3 then s.cnd.crypto.filter (fun x => x.ctx ≠ l.res) else s.cnd.crypto
      mapld := if l.cls = 4 then s.cnd.mapld.filter (fun x => x.ctx ≠ l.res) else s.cnd.mapld } }
  else s

/-- One lease is revoked (R26, R336): its record, the counters and the first-revocation capture. By the Conductor the
holder has still to confirm; by the Warden, over the revocation bus, the wipe of the resource's scratch begins at once (R22,
R24). A grant that the revocation meets in its tick is returned to the Conductor as refused (R27). -/
def revokeOne (warden : Bool) (l : Lease) (s : State) : State :=
  let s1 := report { unit := l.holder, cls := 0x06, ev := l.cls, sev := .fault, domain := l.domain,
                     detail := (if warden then 2 ^ 16 else 0) + l.res % 2 ^ 12 } s
  let s2 := capture F.CND_LEASE_CAP_VALID
    [(F.CND_LEASE_CAP_BY_WARDEN, if warden then 1 else 0), (F.CND_LEASE_CAP_CLASS, l.cls),
     (F.CND_LEASE_CAP_HOLDER, l.holder), (F.CND_LEASE_CAP_RESOURCE, l.res)] (bump F.CND_LEASE_STAT_REVOKED s1)
  let s3 := countDie 0x87 1 (if warden then bump F.CND_LEASE_STAT_WARDEN s2 else s2)
  let same := fun (x : Lease) => x.cls = l.cls ∧ x.res = l.res
  let s4 := loseMessage l (abandonOn l.holder (loseItem l.holder s3))
  let s5 := if l.time = s.time.count then send (.grantRefused l.holder l.cls l.res) s4 else s4
  let s6 := noteRevoked l.cls l.res l.holder { s5 with cnd := { s5.cnd with
    leases := s5.cnd.leases.map (fun x => if same x then { x with revoking := true } else x) } }
  showSegs (showLeases (if warden then beginWipe (revokedRegion l.cls l.res) s6 else s6))

/-- Every lease that meets p and is not already being revoked is revoked. -/
def revokeWhere (warden : Bool) (p : Lease → Bool) (s : State) : State :=
  (s.cnd.leases.filter fun l => p l && (warden || !l.revoking)).foldl (fun s l => revokeOne warden l s) s

/-- The unit's task ends without a result: its grant goes, and so does a pull of the unit. -/
def dropTask (u : Nat) (s : State) : State :=
  { s with cnd := { s.cnd with
      grants := s.cnd.grants.filter (·.unit ≠ u), pulls := s.cnd.pulls.filter (· ≠ u) } }

/-- R325: every node forgets an affinity for the unit. -/
def clearAffinity (u : Nat) (s : State) : State :=
  let forget := fun (n : Nat × NodeRun) => if n.2.affinity = some u then (n.1, { n.2 with affinity := none }) else n
  { s with cnd := { s.cnd with nodes := s.cnd.nodes.map forget } }

/-- What the constant part of the Solver's normal matrix is computed from (R290), as the registers hold it. -/
def currentResident (s : State) : Resident :=
  ⟨fld s F.SLV_WEIGHT_0_W_TRK, fld s F.SLV_WEIGHT_0_W_DK, fld s F.SLV_WEIGHT_1_W_DV, fld s F.SLV_WEIGHT_1_W_JNT,
   fld s F.SLV_CONV_MU_SHIFT⟩

/-- R290: the resident structure is computed again. -/
def refreshResident (s : State) : State := { s with slv := { s.slv with resident := currentResident s } }

/-- BLOCK, the same in all stewards (R254). -/
def blockSize (s : State) : Nat := max 1 (fld s (F.SWP_STW_CFG_BLOCK 0))

/-- Range-guard events of a domain in the running frame (R69). -/
def addRg (crit : Bool) (d n : Nat) (s : State) : State :=
  let add := fun (t : Tab Nat) => tabPut 0 t d (tabGet 0 t d + n)
  if crit then { s with inf := { s.inf with rgCrit := add s.inf.rgCrit } }
  else { s with inf := { s.inf with rgCount := add s.inf.rgCount } }

/-- R217: a sweep block granted to a tile in the tick of its quarantine returns to the Conductor as refused, and goes back to the
head of the unclaimed blocks. -/
def returnBlock (u : Nat) (s : State) : State :=
  match s.cnd.grants.find? fun g => g.unit = u ∧ g.time = s.time.count ∧ g.block.isSome with
  | none => s
  | some g =>
    let b := ((g.block.map (·.1)).getD 0) / blockSize s
    let give := fun (x : DomSweep) => if x.dom = unitDomain s u then { x with back := b :: x.back } else x
    let s1 := send (.blockRefused u b)
      { s with swp := { s.swp with
          doms := s.swp.doms.map give
          tiles := tabPut TileSt.idle s.swp.tiles u { tabGet TileSt.idle s.swp.tiles u with todo := [], flight := [], queue := [], gathers := [] } } }
    if s1.cnd.ready.any fun e => e.node = g.node then s1 else addReady g.node s1

/-- R146: a recomputation unit overran or faulted while it held a slot lease (class 0, R333). -/
def slotLost (u : Nat) (s : State) : State :=
  if s.cnd.leases.any fun l => l.cls = 0 ∧ l.holder = u then
    report { unit := 0x82, cls := 0x0C, ev := 2, sev := .fault } s
  else s

/-- Quarantine of a sweep or inference tile, or a Solver lane out of service (R24 to R28, R325, R329): no more grants,
its task's items lost, its leases revoked, its affinities cleared. A sweep tile counts as quarantined in the running
frame, so that Select discards its records (R25). -/
def takeOut (warden : Bool) (u : Nat) (s : State) : State :=
  let s1 := abandonOn u (loseItem u (returnBlock u s))
  let s2 := revokeWhere warden (fun l => l.holder = u) s1
  let s3 := clearAffinity u (dropTask u s2)
  let s4 := { s3 with
    cnd := { s3.cnd with
      outOfService := if s3.cnd.outOfService.contains u then s3.cnd.outOfService else u :: s3.cnd.outOfService
      releasing := s3.cnd.releasing.filter (· ≠ u) }
    safe := { s3.safe with passed := s3.safe.passed.filter (· ≠ u) }
    frame := { s3.frame with
      quarantined := if u < 64 ∧ ¬ s3.frame.quarantined.contains u then u :: s3.frame.quarantined
        else s3.frame.quarantined } }
  showService u true s4

/-- The Kermes target of a unit. -/
def kermesUnit (u : Nat) : KermesUnit :=
  if u < 64 then .sweep ⟨Fin.ofNat 8 (u / 8), Fin.ofNat 8 (u % 8)⟩
  else if u < 72 then .inf (Fin.ofNat 8 (u - 64)) else .lane (Fin.ofNat 4 (u - 72))

/-- R418: an on-demand Kermes pack falls due for a unit. -/
def kermesDue (k : KermesUnit) (s : State) : State :=
  if s.safe.kermesDue.contains k then s
  else { s with safe := { s.safe with kermesDue := s.safe.kermesDue ++ [k] } }

/-- Domain 0's quarantined sweep tiles (R247, R420). -/
def quarantinedCount (s : State) : Nat :=
  ((List.range 64).filter fun u => outOfService s u && unitDomain s u = 0).length

/-- QUAR_MAX, the same in all stewards (R254). -/
def quarMax (s : State) : Nat := fld s (F.SWP_STW_CFG_QUAR_MAX 0)

/-- The Warden quarantines a tile for an on-demand test (R418), unless that would bring domain 0's quarantined tiles above
QUAR_MAX: then it defers the test and writes a note (R420). -/
def testQuarantine (u : Nat) (s : State) : State :=
  if outOfService s u then kermesDue (kermesUnit u) s
  else if u < 64 ∧ unitDomain s u = 0 ∧ quarantinedCount s + 1 > quarMax s then
    if s.safe.kermesDeferred.contains (kermesUnit u) then s
    else report (uncoded .deferredTest u .note)
      { s with safe := { s.safe with kermesDeferred := s.safe.kermesDeferred ++ [kermesUnit u] } }
  else kermesDue (kermesUnit u) (takeOut true u s)

end Sys2Proof.Machine
end

