-- ==== Sys2Proof/Machine/Operands.lean ====
section
/-! DEFINITION. Machine/Operands.lean: the forms in which operands cross the device's ports as bytes: the CRC-32 of R64,
fault records (R421), request units (R342, R184), release acknowledgements (R529), CAN samples (R627) and ISOBUS
identifiers (R509, R512). -/

namespace Sys2Proof.Machine

/-! ## CRC-32 (R64) -/

/-- One bit of the reflected CRC-32 with polynomial 0x04C1_1DB7. -/
def crcBit (c : Nat) : Nat := if c % 2 = 1 then (c / 2) ^^^ 0xEDB88320 else c / 2

/-- One byte of the CRC. -/
def crcByte (c : Nat) (b : Byte) : Nat := (List.range 8).foldl (fun c _ => crcBit c) (c ^^^ b.toNat)

/-- CRC-32: initial value 0xFFFF_FFFF, final XOR 0xFFFF_FFFF. -/
def crc32 (bs : List Byte) : Nat := bs.foldl crcByte 0xFFFFFFFF ^^^ 0xFFFFFFFF

/-- Bytes followed by their CRC. -/
def withCrc (bs : List Byte) : List Byte := bs ++ leBytes 4 (crc32 bs)

/-! ## Fault records (R421) -/

/-- A fault record's 32 bytes. -/
def recBytes (r : FaultRec) : List Byte :=
  leBytes 8 r.time ++ leBytes 4 r.frame.toNat ++ leBytes 2 r.unit ++ leBytes 1 r.ev ++ leBytes 1 r.cls ++ leBytes 8 r.detail
    ++ leBytes 2 r.client ++ leBytes 1 r.domain ++ leBytes 1 (if r.doubt then 1 else 0) ++ leBytes 1 r.severity
    ++ leBytes 1 r.seq ++ leBytes 2 0

/-! ## Request units (R342, R184) -/

/-- The bytes of a unit from an offset. -/
def field (bs : List Byte) (off n : Nat) : Nat := ofLe ((bs.drop off).take n)

/-- A candidate record from its 16 bytes (R184). -/
def candOf (b : List Byte) : Cand :=
  let lk := field b 1 1
  { score := field b 0 1, layer := Fin.ofNat 16 (lk / 16), hitch := Fin.ofNat 4 (lk / 4), kind := Fin.ofNat 4 lk
    client := field b 2 2 % 1024
    k1 := signed 16 (field b 4 2), k2 := signed 16 (field b 6 2), k3 := signed 16 (field b 8 2), k4 := signed 16 (field b 10 2)
    v1 := signed 16 (field b 12 2), v2 := signed 16 (field b 14 2) }

/-- The 16-byte pieces of a body. -/
def pieces16 : Nat → List Byte → List (List Byte)
  | 0, _ => []
  | n + 1, bs => bs.take 16 :: pieces16 n (bs.drop 16)

/-- KIND of a request unit. -/
def unitKind (bs : List Byte) : Nat := field bs 2 1

/-- The header and records of a request unit (R342). The length of the body must be that which the header gives. -/
def parseReq (bs : List Byte) : ReqUnit :=
  let kind := unitKind bs
  let sub := field bs 3 1
  let body := bs.drop 16
  let n := if kind = 0 ∨ kind = 2 then sub else 0
  let recs := if body.length = 16 * n then pieces16 n body else []
  let want := if kind = 0 ∨ kind = 2 then 16 * sub else if kind = 1 then 16 else if sub = 0 then field bs 10 2 else 0
  { client := field bs 0 2 % 1024, sub := sub, tag := BitVec.ofNat 32 (field bs 4 4), arg := BitVec.ofNat 32 (field bs 8 4)
    reservedClear := decide (field bs 0 2 < 1024) && decide (field bs 12 4 = 0) && decide (body.length = want)
      && recs.all (fun r => decide (field r 2 2 < 1024)) && (decide (kind ≠ 1) || decide (field body 14 2 = 0))
    recs := recs.map candOf }

/-- The goal of a plan-to-goal body (R342). -/
def parseGoal (bs : List Byte) : Goal :=
  let b := bs.drop 16
  { gx := signed 32 (field b 0 4), gy := signed 32 (field b 4 4), heading := BitVec.ofNat 16 (field b 8 2)
    originGen := BitVec.ofNat 16 (field b 10 2), gtol := field b 12 2 }

/-! ## Release acknowledgements (R529) -/

/-- The frame that a release acknowledgement of a client names, if its 8 bytes are well formed. -/
def parseAck (client : Nat) (bs : List Byte) : Option FrameNo :=
  if bs.length = 8 ∧ field bs 0 2 = client ∧ field bs 2 1 = 0x5A ∧ field bs 3 1 = 0xA5 then
    some (BitVec.ofNat 32 (field bs 4 4))
  else none

/-! ## CAN samples and ISOBUS identifiers (R509, R627) -/

/-- The stored form of a machine-state sample (R627). -/
def canSample (ident : Nat) (ext : Bool) (format sdt vcid af : Nat) (data : List Byte) : List Byte :=
  leBytes 4 (ident + (if ext then 2 ^ 31 else 0)) ++ leBytes 1 format ++ leBytes 1 sdt ++ leBytes 1 vcid ++ leBytes 1 0
    ++ leBytes 4 af ++ leBytes 2 data.length ++ leBytes 2 0 ++ data

/-- The format of a CAN frame (R627). -/
def canFormatCode : CanFormat → Nat
  | .classical => 0 | .fd => 1 | .xl => 2

/-- The stored form of a received frame. -/
def frameSample (f : CanFrame) : List Byte :=
  let xl : Bool := f.format = .xl
  canSample f.ident.toNat f.ext (canFormatCode f.format) (if xl then f.sdt.toNat else 0) (if xl then f.vcid.toNat else 0)
    (if xl then f.af.toNat else 0) f.data

/-- The PGN of a 29-bit identifier: PDU1 leaves the destination out (ISO 11783-3). -/
def pgnOf (ident : Nat) : Nat :=
  let p := ident / 256 % 2 ^ 18
  if p / 256 % 256 < 240 then p / 256 * 256 else p

/-- The source address of a 29-bit identifier. -/
def saOf (ident : Nat) : Nat := ident % 256

/-- The destination of a 29-bit identifier: 255 for a PDU2 message. -/
def daOf (ident : Nat) : Nat := if ident / 65536 % 256 < 240 then ident / 256 % 256 else 255

end Sys2Proof.Machine
end

