-- ==== Sys2Proof/Machine/World.lean ====
section
/-! DEFINITION. Machine/World.lean: the geometry of World (chapter 04): window, occupancy, rays, terrain, the three
levels of the distance field and the refine, keep-out layers and the field prior. Exact geometry is done in units of
1/20,480 m, five to the position unit: a voxel is 2,048 of them, a column 4,096 and a level-2 cell 16,384. -/

namespace Sys2Proof.Machine

/-- A triple of indices as one key. -/
def enc3 (i j k : Int) : Nat :=
  (((i + 2 ^ 20).toNat * 2 ^ 21) + (j + 2 ^ 20).toNat) * 2 ^ 21 + (k + 2 ^ 20).toNat

/-- The triple of a key. -/
def dec3 (n : Nat) : Int × Int × Int :=
  (Int.ofNat (n / 2 ^ 42) - 2 ^ 20, Int.ofNat (n / 2 ^ 21 % 2 ^ 21) - 2 ^ 20, Int.ofNat (n % 2 ^ 21) - 2 ^ 20)

/-- A column's key. -/
def encCol (i j : Int) : Nat := enc3 0 i j

/-- The voxel index of a coordinate in 1/4096 m. -/
def voxOf (p : Int) : Int := floorDivI (5 * p) 2048
/-- The 0.2 m column index of a coordinate in 1/4096 m (R629). -/
def columnOf (p : Int) : Int := floorDivI (5 * p) 4096
/-- The level-2 cell index of a coordinate in 1/4096 m. -/
def cellOf (p : Int) : Int := floorDivI (5 * p) 16384

/-- R110: a level-2 cell lies in the window whose minimum corner is w. -/
def cellIn (w : Int × Int × Int) (i j k : Int) : Bool :=
  w.1 ≤ i && i < w.1 + 96 && w.2.1 ≤ j && j < w.2.1 + 96 && w.2.2 ≤ k && k < w.2.2 + 16

/-- A voxel lies in the window. -/
def voxelIn (w : Int × Int × Int) (i j k : Int) : Bool :=
  cellIn w (floorDivI i 8) (floorDivI j 8) (floorDivI k 8)

/-- A column lies in the terrain map, which covers the window (R128). -/
def columnIn (w : Int × Int × Int) (i j : Int) : Bool := cellIn w (floorDivI i 4) (floorDivI j 4) w.2.2

/-- A position lies inside the window. -/
def pointIn (w : Int × Int × Int) (x y z : Int) : Bool := cellIn w (cellOf x) (cellOf y) (cellOf z)

/-- R111: the storage index of a level-2 cell. -/
def storageIndex (i j k : Int) : Nat := (i % 96).toNat + 96 * (j % 96).toNat + 9216 * (k % 16).toNat

/-- CELL of R126. -/
def cellCode (i j k : Int) : Nat := (i % 96).toNat + 2 ^ 7 * (j % 96).toNat + 2 ^ 14 * (k % 16).toNat

/-- R110: the window's minimum corner for a vehicle at x, y (1/4096 m) on terrain of height h (1/128 m). -/
def windowCorner (x y h : Int) : Int × Int × Int := (cellOf x - 48, cellOf y - 48, cellOf (h * 32) - 4)

/-- Settings that fusion reads. -/
structure FuseCfg where
  hit : Int
  miss : Int
  occTh : Int
  camHit : Int
  cropMax : Int
  drop : Int
  band : Int
  unseenBlock : Bool
  unseenCost : Nat
  reach : Nat

/-- R114: log-odds saturate at −64 and +63. -/
def satOdds (x : Int) : Int := clampI (-64) 63 x

/-! ## The field prior (R136, R622) -/

/-- Whether the point x, y (any unit) lies inside a simple polygon or on its boundary, by exact crossings. -/
def inPoly (poly : List (Int × Int)) (x y : Int) : Bool :=
  let edges := poly.zip (poly.drop 1 ++ poly.take 1)
  let onEdge := edges.any fun (a, b) =>
    (b.1 - a.1) * (y - a.2) - (b.2 - a.2) * (x - a.1) = 0 ∧
    min a.1 b.1 ≤ x ∧ x ≤ max a.1 b.1 ∧ min a.2 b.2 ≤ y ∧ y ≤ max a.2 b.2
  let crossings := edges.countP fun (a, b) =>
    decide (a.2 > y) ≠ decide (b.2 > y) ∧
      (let c := (b.1 - a.1) * (y - a.2) - (b.2 - a.2) * (x - a.1)
       if b.2 > a.2 then c > 0 else c < 0)
  onEdge || crossings % 2 = 1

/-- The centre of a column in 1/20,480 m. -/
def columnCentre (i : Int) : Int := 4096 * i + 2048

/-- The grid entry of the prior at the centre of a window column (R622). f is the field-frame position of the local
origin in 1/4096 m. -/
def priorCol (p : PriorSt) (f : Int × Int × Int) (i j : Int) : Option PriorCol :=
  if !p.loaded then none else
  p.cols.find? fun c =>
    c.i = floorDivI (columnCentre i + 5 * f.1) 4096 ∧ c.j = floorDivI (columnCentre j + 5 * f.2.1) 4096

/-- The pass-through height at a column's centre, the lowest of the crop zones that hold it (R622), in 1/128 m. -/
def cropPass (p : PriorSt) (f : Int × Int × Int) (i j : Int) : Option Nat :=
  if !p.loaded then none else
  (p.zones.filterMap fun z =>
    if inPoly (z.poly.map fun v => (5 * v.1, 5 * v.2)) (columnCentre i + 5 * f.1) (columnCentre j + 5 * f.2.1)
    then some z.pass else none).min?

/-- A field-frame height in 1/128 m made local, rounded toward minus infinity (R622). -/
def localHeight (f : Int × Int × Int) (h : Int) : Int := floorDivI (h * 32 - f.2.2) 32

/-! ## Terrain (R128 to R133) -/

/-- The terrain height h_v of the edge at which a column entered the window (R129, third source): the entry of the
oldest edge since which the window has held it throughout. -/
def enterHeight : List ((Int × Int) × Int) → Int → Int → Option Int → Int
  | [], _, _, acc => acc.getD 0
  | ((wx, wy), h) :: older, i, j, acc =>
    if columnIn (wx, wy, 0) i j then enterHeight older i j (some h) else acc.getD h

/-- The stored column. -/
def colAt (d : WorldData) (i j : Int) : Col := tabGet Col.untouched d.cols (encCol i j)

/-- The data with a column stored. -/
def setCol (d : WorldData) (i j : Int) (c : Col) : WorldData :=
  { d with cols := tabPut Col.untouched d.cols (encCol i j) c }

/-- The height of a column (R129): what a return or an edge gave it; else the prior, its lowest return, or h_v. -/
def colHeight (d : WorldData) (p : PriorSt) (f : Int × Int × Int) (i j : Int) : Int :=
  let c := colAt d i j
  match c.height with
  | some h => h
  | none =>
    match (priorCol p f i j).bind (·.height) with
    | some h => localHeight f h
    | none =>
      match c.lowest with
      | some h => h
      | none => enterHeight d.enters i j none

/-- R136: a column is PRIOR_LATE from its mark until its prior data arrives. -/
def colLate (d : WorldData) (p : PriorSt) (f : Int × Int × Int) (i j : Int) : Bool :=
  (colAt d i j).late && !p.complete && (priorCol p f i j).isNone

/-- R136: a PRIOR_LATE column counts as not SEEN. -/
def colSeen (d : WorldData) (p : PriorSt) (f : Int × Int × Int) (i j : Int) : Bool :=
  (colAt d i j).seen && !colLate d p f i j

/-- The COST of a column (R133). -/
def colCost (d : WorldData) (p : PriorSt) (f : Int × Int × Int) (g : FuseCfg) (i j : Int) : Nat :=
  min 0xFFFF (max (colAt d i j).learned (max (((priorCol p f i j).bind (·.cost)).getD 0)
    (if colSeen d p f i j then 0 else g.unseenCost)))

/-- The terrain as an expansion reads it (R629): none outside the terrain map. -/
def terrainOf (d : WorldData) (p : PriorSt) (f : Int × Int × Int) (g : FuseCfg) : Terrain := fun i j =>
  if columnIn d.win i j then some (colHeight d p f i j, colCost d p f g i j) else none

/-- The largest height of a column's four neighbours (R130). DESIGN CHOICE (log 110): a neighbour outside the window has the
height that R129 gives a column there: the prior's, or h_v of the newest edge. -/
def neighbourHeight (d : WorldData) (p : PriorSt) (f : Int × Int × Int) (i j : Int) : Int :=
  let h := fun a b => colHeight d p f a b
  max (max (h (i - 1) j) (h (i + 1) j)) (max (h i (j - 1)) (h i (j + 1)))

/-- R130: whether a column is a DROP column. -/
def isDrop (d : WorldData) (p : PriorSt) (f : Int × Int × Int) (g : FuseCfg) (i j : Int) : Bool :=
  neighbourHeight d p f i j > colHeight d p f i j + g.drop

/-- The FLAGS of R128 of a column. -/
def colFlags (d : WorldData) (p : PriorSt) (f : Int × Int × Int) (g : FuseCfg) (i j : Int) : Nat :=
  let b := fun (c : Bool) (n : Nat) => if c then 2 ^ n else 0
  let pr := priorCol p f i j
  b (colSeen d p f i j) 0 + b (pr.any fun c => c.height.isSome || c.cost.isSome) 1 + b (isDrop d p f g i j) 2 +
    b (cropPass p f i j).isSome 3 + b (colAt d i j).footprint 4 + b (colLate d p f i j) 5

/-- AGE of a column (R128) at a tick: ms since its last ground return, to nearest; 0xFFFF where it had none. -/
def colAge (d : WorldData) (now : Tick) (i j : Int) : Nat :=
  match (colAt d i j).last with
  | some t => min 0xFFFF (roundDiv (Int.ofNat (now - t)) 25000).toNat
  | none => 0xFFFF

/-- The 8-byte record of a column (R128). -/
def colRecord (d : WorldData) (p : PriorSt) (f : Int × Int × Int) (g : FuseCfg) (now : Tick) (i j : Int) : List Byte :=
  leBytes 2 (pattern 16 (colHeight d p f i j)) ++ leBytes 2 (colCost d p f g i j) ++ leBytes 1 (colFlags d p f g i j)
    ++ leBytes 1 (colAt d i j).cls ++ leBytes 2 (colAge d now i j)

/-! ## Fusion (R113 to R117, R628) -/

/-- Whether the open box lo..hi on each axis is met by the segment from o to q (1/20,480 m) within 40 m of o (R114).
Entry and exit parameters are compared as fractions with positive denominators. -/
def crossesBox (o q lo hi : Int × Int × Int) : Bool :=
  let axes := [(o.1, q.1 - o.1, lo.1, hi.1), (o.2.1, q.2.1 - o.2.1, lo.2.1, hi.2.1),
    (o.2.2, q.2.2 - o.2.2, lo.2.2, hi.2.2)]
  let flat := axes.all fun (a, dv, l, h) => dv ≠ 0 ∨ (l < a ∧ a < h)
  let spans := axes.filterMap fun (a, dv, l, h) =>
    if dv > 0 then some (l - a, h - a, dv) else if dv < 0 then some (a - h, a - l, -dv) else none
  let d2 := (q.1 - o.1) ^ 2 + (q.2.1 - o.2.1) ^ 2 + (q.2.2 - o.2.2) ^ 2
  let reach := 40 * 20480
  flat && spans.all (fun s => spans.all fun t => s.1 * t.2.2 < t.2.1 * s.2.2)
    && spans.all (fun s => s.2.1 > 0 ∧ s.1 < s.2.2 ∧ (s.1 < 0 ∨ s.1 ^ 2 * d2 < reach ^ 2 * s.2.2 ^ 2))
    && d2 > 0

/-- The voxels that a ray crosses (R114), apart from the point's own voxel. The walk takes the slabs of voxels along x
and, in each, the voxels of the bounding ranges of y and z. -/
def crossedVoxels (o q : Int × Int × Int) (own : Int × Int × Int) : List (Int × Int × Int) :=
  let vx := fun (a : Int) => floorDivI a 2048
  let x0 := min o.1 q.1
  let x1 := max o.1 q.1
  let dx := q.1 - o.1
  let at1 := fun (oa qa : Int) (x : Int) => if dx = 0 then oa else oa + floorDivI ((qa - oa) * (x - o.1) * (if dx > 0 then 1 else -1)) dx.natAbs
  (List.range ((vx x1 - vx x0).toNat + 1)).flatMap fun n =>
    let i := vx x0 + Int.ofNat n
    let xa := max x0 (2048 * i)
    let xb := min x1 (2048 * (i + 1))
    let rng := fun (oa qa : Int) =>
      if dx = 0 then (vx (min oa qa), vx (max oa qa))
      else (vx (min (at1 oa qa xa) (at1 oa qa xb)) - 1, vx (max (at1 oa qa xa) (at1 oa qa xb)) + 1)
    let ry := rng o.2.1 q.2.1
    let rz := rng o.2.2 q.2.2
    (List.range ((ry.2 - ry.1).toNat + 1)).flatMap fun m =>
      (List.range ((rz.2 - rz.1).toNat + 1)).filterMap fun l =>
        let j := ry.1 + Int.ofNat m
        let k := rz.1 + Int.ofNat l
        if (i, j, k) ≠ own ∧ crossesBox o q (2048 * i, 2048 * j, 2048 * k) (2048 * (i + 1), 2048 * (j + 1), 2048 * (k + 1))
        then some (i, j, k) else none

/-- A voxel's log-odds updated by x, with its cell's occupancy brick (R113 to R115, R145): a cell with no brick takes a
free one of the 16,384; a hit for which none is free makes the cell SOLID, and a miss is then without effect. -/
def addOdds (x : Int) (d : WorldData) (v : Int × Int × Int) : WorldData :=
  let cell := enc3 (floorDivI v.1 8) (floorDivI v.2.1 8) (floorDivI v.2.2 8)
  let key := enc3 v.1 v.2.1 v.2.2
  if d.bricks.contains cell then
    { d with odds := tabPut 0 d.odds key (satOdds (tabGet 0 d.odds key + x)) }
  else if d.bricks.length < 16384 then
    { d with bricks := cell :: d.bricks, odds := tabPut 0 d.odds key (satOdds (tabGet 0 d.odds key + x)) }
  else if x > 0 ∧ ¬ (d.solid.any fun c => c.1 = cell) then { d with solid := (cell, none) :: d.solid }
  else d

/-- A ground return (R116): it lies below its column's terrain height plus BAND. -/
def isGround (p : PriorSt) (f : Int × Int × Int) (g : FuseCfg) (d : WorldData) (pt : FusedPoint) : Bool :=
  decide (pt.pz < (colHeight d p f (columnOf pt.px) (columnOf pt.py) + g.band) * 32)

/-- A crop zone discards the point (R116): in the zone it lies below the terrain height plus the pass-through height, which
CROP_MAX limits. A ground return is none of these: it updates the terrain. -/
def isCrop (p : PriorSt) (f : Int × Int × Int) (g : FuseCfg) (d : WorldData) (pt : FusedPoint) : Bool :=
  let i := columnOf pt.px
  let j := columnOf pt.py
  !isGround p f g d pt && match cropPass p f i j with
    | some c => decide (pt.pz < (colHeight d p f i j + min (Int.ofNat c) g.cropMax) * 32)
    | none => false

/-- What a lidar return that is not discarded does to the terrain (R116, R129): a ground return lowers its column at once, and
the first one makes it SEEN; any return counts toward the lowest return of the column. -/
def groundUpdate (p : PriorSt) (f : Int × Int × Int) (g : FuseCfg) (d : WorldData) (pt : FusedPoint) : WorldData :=
  let i := columnOf pt.px
  let j := columnOf pt.py
  let c := colAt d i j
  let z := floorDivI pt.pz 32
  if isGround p f g d pt then
    setCol d i j { c with seen := true, height := some (min (colHeight d p f i j) z),
                          lowest := some (min (c.lowest.getD z) z), last := some pt.t }
  else setCol d i j { c with lowest := some (min (c.lowest.getD z) z) }

/-- One lidar point (R114, R116, R117, R628): every MISS of its ray first, then its own HIT, unless it is a ground
return, a crop zone discards it, it lies inside a self sphere or its voxel lies outside the window. -/
def fusePoint (p : PriorSt) (f : Int × Int × Int) (g : FuseCfg) (self : FusedPoint → Bool) (d : WorldData)
    (pt : FusedPoint) : WorldData :=
  let own := (voxOf pt.px, voxOf pt.py, voxOf pt.pz)
  let ray := crossedVoxels (5 * pt.ox, 5 * pt.oy, 5 * pt.oz) (5 * pt.px, 5 * pt.py, 5 * pt.pz) own
  let d1 := (ray.filter fun v => voxelIn d.win v.1 v.2.1 v.2.2).foldl (addOdds (-g.miss)) d
  if self pt ∨ ¬ columnIn d1.win (columnOf pt.px) (columnOf pt.py) ∨ isCrop p f g d1 pt then d1
  else
    let d2 := groundUpdate p f g d1 pt
    if isGround p f g d1 pt ∨ ¬ voxelIn d1.win own.1 own.2.1 own.2.2 then d2 else addOdds g.hit d2 own

/-- R129: after a scan, a column rises to the lowest return that the scan placed in it, if that lies no more than BAND
above its height. Returns that are discarded place nothing. DESIGN CHOICE (log 109): one scan is one slice. -/
def riseColumns (p : PriorSt) (f : Int × Int × Int) (g : FuseCfg) (d : WorldData) (pts : List FusedPoint) : WorldData :=
  let cols := (pts.map fun q => (columnOf q.px, columnOf q.py)).eraseDups
  cols.foldl (fun d c =>
    let lo := (pts.filter fun q => columnOf q.px = c.1 ∧ columnOf q.py = c.2).map fun q => floorDivI q.pz 32
    let h := colHeight d p f c.1 c.2
    let m := lo.foldl min (lo.headD h)
    let col := colAt d c.1 c.2
    if col.seen ∧ columnIn d.win c.1 c.2 ∧ h < m ∧ m ≤ h + g.band then
      setCol d c.1 c.2 { col with height := some m }
    else d) d

/-- The fusion of a lidar slice (R628): packet order, point order, then the rise of R129 over the points that are neither
inside a self sphere nor discarded by a crop zone. -/
def fuseSlice (p : PriorSt) (f : Int × Int × Int) (g : FuseCfg) (self : FusedPoint → Bool) (d : WorldData)
    (pts : List FusedPoint) : WorldData :=
  let one := fun (a : WorldData × List FusedPoint) (q : FusedPoint) =>
    (fusePoint p f g self a.1 q, if self q || isCrop p f g a.1 q then a.2 else a.2 ++ [q])
  let r := pts.foldl one (d, [])
  riseColumns p f g r.1 r.2

/-- The fusion of camera depth (R115): each sample adds CAM_HIT to its voxel and does nothing else. -/
def fuseDepth (g : FuseCfg) (d : WorldData) (pts : List FusedPoint) : WorldData :=
  pts.foldl (fun d pt =>
    let v := (voxOf pt.px, voxOf pt.py, voxOf pt.pz)
    if voxelIn d.win v.1 v.2.1 v.2.2 then addOdds g.camHit d v else d) d

/-! ## Occupied space (R120, R122, R130, R131, R136) -/

/-- The 512 voxels of a level-2 cell. -/
def cellVoxels (i j k : Int) : List (Int × Int × Int) :=
  (List.range 512).map fun n => (8 * i + Int.ofNat (n % 8), 8 * j + Int.ofNat (n / 8 % 8), 8 * k + Int.ofNat (n / 64))

/-- The voxels whose log-odds reach the threshold (R114). A voxel of a brick holds 0 where nothing else is listed, so that it
is occupied at a threshold of 0 or less. -/
def occVoxels (g : FuseCfg) (d : WorldData) : List VBox :=
  let box := fun (c : Int × Int × Int) => (⟨c.1, c.2.1, c.2.2, c.1 + 1, c.2.1 + 1, c.2.2 + 1⟩ : VBox)
  if g.occTh ≤ 0 then
    d.bricks.flatMap fun b =>
      let c := dec3 b
      if cellIn d.win c.1 c.2.1 c.2.2 then
        ((cellVoxels c.1 c.2.1 c.2.2).filter fun v => g.occTh ≤ tabGet 0 d.odds (enc3 v.1 v.2.1 v.2.2)).map box
      else []
  else
    d.odds.filterMap fun (k, v) =>
      let c := dec3 k
      if v ≥ g.occTh ∧ voxelIn d.win c.1 c.2.1 c.2.2 then some (box c) else none

/-- Every column of the window. -/
def windowColumns (w : Int × Int × Int) : List (Int × Int) :=
  (List.range 384).flatMap fun a => (List.range 384).map fun b => (4 * w.1 + Int.ofNat a, 4 * w.2.1 + Int.ofNat b)

/-- Virtual occupancy of drops and of unseen ground (R130, R131). A height in 1/128 m maps to voxels outward. -/
def columnBoxes (p : PriorSt) (f : Int × Int × Int) (g : FuseCfg) (d : WorldData) : List VBox :=
  (windowColumns d.win).filterMap fun (i, j) =>
    if g.unseenBlock ∧ ¬ colSeen d p f i j then
      some ⟨2 * i, 2 * j, 8 * d.win.2.2, 2 * i + 2, 2 * j + 2, 8 * (d.win.2.2 + 16)⟩
    else if isDrop d p f g i j then
      some ⟨2 * i, 2 * j, floorDivI (160 * colHeight d p f i j) 2048, 2 * i + 2, 2 * j + 2,
        ceilDivI (160 * neighbourHeight d p f i j) 2048⟩
    else none

/-- Whether a prior shape touches the voxel i, j, k (R136): closed sets, in 1/20,480 m of the local frame. -/
def shapeTouches (f : Int × Int × Int) (s : PriorShape) (i j k : Int) : Bool :=
  let zOk := fun (zlo zhi : Int) => 5 * (zlo - f.2.2) ≤ 2048 * (k + 1) ∧ 2048 * k ≤ 5 * (zhi - f.2.2)
  match s with
  | .cylinder cx cy r zlo zhi =>
    let x := 5 * (cx - f.1)
    let y := 5 * (cy - f.2.1)
    let dx := max 0 (max (2048 * i - x) (x - 2048 * (i + 1)))
    let dy := max 0 (max (2048 * j - y) (y - 2048 * (j + 1)))
    zOk zlo zhi ∧ dx ^ 2 + dy ^ 2 ≤ (5 * Int.ofNat r) ^ 2
  | .box cx cy hx hy yaw zlo zhi =>
    let c := cosA (Int.ofNat (yaw.toNat * 2 ^ 16))
    let sn := sinA (Int.ofNat (yaw.toNat * 2 ^ 16))
    let ex := 5 * Int.ofNat hx
    let ey := 5 * Int.ofNat hy
    let dx := 2048 * i + 1024 - 5 * (cx - f.1)
    let dy := 2048 * j + 1024 - 5 * (cy - f.2.1)
    let q := Int.ofNat (c.natAbs + sn.natAbs) * 1024
    zOk zlo zhi
      ∧ Int.ofNat dx.natAbs * 2 ^ 30 ≤ 1024 * 2 ^ 30 + ex * Int.ofNat c.natAbs + ey * Int.ofNat sn.natAbs
      ∧ Int.ofNat dy.natAbs * 2 ^ 30 ≤ 1024 * 2 ^ 30 + ex * Int.ofNat sn.natAbs + ey * Int.ofNat c.natAbs
      ∧ Int.ofNat (dx * c + dy * sn).natAbs ≤ q + ex * 2 ^ 30
      ∧ Int.ofNat (dy * c - dx * sn).natAbs ≤ q + ey * 2 ^ 30

/-- A bounding range of voxels of a shape, in the local frame. -/
def shapeBounds (f : Int × Int × Int) (s : PriorShape) : VBox :=
  let mk := fun (cx cy r zlo zhi : Int) =>
    (⟨voxOf (cx - f.1 - r) - 1, voxOf (cy - f.2.1 - r) - 1, voxOf (zlo - f.2.2) - 1,
      voxOf (cx - f.1 + r) + 2, voxOf (cy - f.2.1 + r) + 2, voxOf (zhi - f.2.2) + 2⟩ : VBox)
  match s with
  | .cylinder cx cy r zlo zhi => mk cx cy (Int.ofNat r) zlo zhi
  | .box cx cy hx hy _ zlo zhi => mk cx cy (Int.ofNat (hx + hy)) zlo zhi

/-- Virtual occupancy of the prior's permanent obstacles (R136): every voxel of the window that a shape touches. -/
def priorBoxes (p : PriorSt) (f : Int × Int × Int) (d : WorldData) : List VBox :=
  if !p.loaded then [] else
  p.shapes.flatMap fun s =>
    let b := shapeBounds f s
    (List.range (b.x1 - b.x0).toNat).flatMap fun a =>
      (List.range (b.y1 - b.y0).toNat).flatMap fun c =>
        (List.range (b.z1 - b.z0).toNat).filterMap fun e =>
          let i := b.x0 + Int.ofNat a
          let j := b.y0 + Int.ofNat c
          let k := b.z0 + Int.ofNat e
          if voxelIn d.win i j k ∧ shapeTouches f s i j k then some ⟨i, j, k, i + 1, j + 1, k + 1⟩ else none

/-- SOLID cells count as wholly occupied (R125). -/
def solidBoxes (d : WorldData) : List VBox :=
  d.solid.map fun (c, _) =>
    let t := dec3 c
    ⟨8 * t.1, 8 * t.2.1, 8 * t.2.2, 8 * t.1 + 8, 8 * t.2.1 + 8, 8 * t.2.2 + 8⟩

/-- Occupied space of an epoch, as boxes of voxels. -/
def occupiedBoxes (p : PriorSt) (f : Int × Int × Int) (g : FuseCfg) (d : WorldData) : List VBox :=
  occVoxels g d ++ columnBoxes p f g d ++ priorBoxes p f d ++ solidBoxes d

/-! ## The distance field (R119 to R127) -/

/-- The gap between a coordinate and a closed interval. -/
def gap1 (lo hi c : Int) : Int := max 0 (max (lo - c) (c - hi))

/-- Squared distance from a voxel corner to a box, in voxels. -/
def cornerGap2 (b : VBox) (i j k : Int) : Nat :=
  ((gap1 b.x0 b.x1 i) ^ 2 + (gap1 b.y0 b.y1 j) ^ 2 + (gap1 b.z0 b.z1 k) ^ 2).toNat

/-- R120: the corner sample, in 1/256 m: rounded toward minus infinity and clamped at 4.0 m. -/
def cornerSample (bs : List VBox) (i j k : Int) : Int :=
  match (bs.map fun b => cornerGap2 b i j k).min? with
  | none => 1024
  | some n => Int.ofNat (min 1024 (isqrt (n * 65536 / 100)))

/-- The least of the corner samples of a block of n × n × n voxels at i, j, k. -/
def leastSample (bs : List VBox) (n : Nat) (i j k : Int) : Int :=
  (((List.range (n + 1)).flatMap fun a => (List.range (n + 1)).flatMap fun b => (List.range (n + 1)).map fun c =>
    cornerSample bs (i + Int.ofNat a) (j + Int.ofNat b) (k + Int.ofNat c)).min?).getD 1024

/-- R121: the bound of a voxel. -/
def voxelBound (bs : List VBox) (i j k : Int) : Int := leastSample bs 1 i j k - 23

/-- R121: the bound of a level-1 cell, the least of its 8 voxels. -/
def level1Bound (bs : List VBox) (i j k : Int) : Int := leastSample bs 2 (2 * i) (2 * j) (2 * k) - 23

/-- R121: the level-2 value of a near cell, the least of its 64 level-1 values. -/
def nearValue (bs : List VBox) (i j k : Int) : Int := leastSample bs 8 (8 * i) (8 * j) (8 * k) - 23

/-- Squared gap between a level-2 cell's box and the level-2 cells that a box of voxels lies in, in cells. -/
def cellGap2 (b : VBox) (i j k : Int) : Nat :=
  let g := fun (lo hi c : Int) => max 0 (max (floorDivI lo 8 - c - 1) (c - floorDivI (hi - 1) 8 - 1))
  ((g b.x0 b.x1 i) ^ 2 + (g b.y0 b.y1 j) ^ 2 + (g b.z0 b.z1 k) ^ 2).toNat

/-- R122: the level-2 value of a cell that is not near, in 1/256 m, clamped at 16.0 m. -/
def farValue (bs : List VBox) (i j k : Int) : Int :=
  match (bs.map fun b => cellGap2 b i j k).min? with
  | none => 4096
  | some n => min 4096 (Int.ofNat (isqrt (n * 4194304 / 100)) - 2)

/-- R124: a cell is near when its value under R122 is below REACH, in units of 0.1 m. -/
def isNear (bs : List VBox) (reach : Nat) (i j k : Int) : Bool := farValue bs i j k * 10 < 256 * Int.ofNat reach

/-- Every level-2 cell of the window. -/
def windowCells (w : Int × Int × Int) : List (Int × Int × Int) :=
  (List.range 96).flatMap fun a => (List.range 96).flatMap fun b => (List.range 16).map fun c =>
    (w.1 + Int.ofNat a, w.2.1 + Int.ofNat b, w.2.2 + Int.ofNat c)

/-- The 729 corner samples of a brick (R126): index x + 9y + 81z. -/
def brickSamples (bs : List VBox) (i j k : Int) : List Int :=
  (List.range 729).map fun n =>
    cornerSample bs (8 * i + Int.ofNat (n % 9)) (8 * j + Int.ofNat (n / 9 % 9)) (8 * k + Int.ofNat (n / 81))

/-- The 512 voxel bounds of a brick (R126): index x + 8y + 64z. -/
def brickBounds (bs : List VBox) (i j k : Int) : List Int := (cellVoxels i j k).map fun v => voxelBound bs v.1 v.2.1 v.2.2

/-- The bytes of signed 16-bit values. -/
def words16 (l : List Int) : List Byte := l.flatMap fun x => leBytes 2 (pattern 16 x)

/-- The 2,560 bytes of a brick (R126). -/
def brickBytes (bs : List VBox) (epoch : FrameNo) (i j k : Int) : List Byte :=
  leBytes 4 epoch.toNat ++ leBytes 4 (cellCode i j k) ++ leBytes 24 0 ++ words16 (brickBounds bs i j k)
    ++ words16 (brickSamples bs i j k) ++ leBytes 46 0

/-- The 128 bytes of a level-1 block (R126): index x + 4y + 16z. -/
def level1Bytes (bs : List VBox) (i j k : Int) : List Byte :=
  words16 ((List.range 64).map fun n =>
    level1Bound bs (4 * i + Int.ofNat (n % 4)) (4 * j + Int.ofNat (n / 4 % 4)) (4 * k + Int.ofNat (n / 16)))

/-- Squared distance from a point in 1/4096 m to the nearest point of a cell's box (R124), in 1/20,480 m. -/
def cellDist2 (o : Int × Int × Int) (c : Int × Int × Int) : Nat :=
  let g := fun (a i : Int) => gap1 (16384 * i) (16384 * (i + 1)) (5 * a)
  ((g o.1 c.1) ^ 2 + (g o.2.1 c.2.1) ^ 2 + (g o.2.2 c.2.2) ^ 2).toNat

/-- R124: the near cells in order of increasing distance from the vehicle, then storage index; the first 8,192 are
NEAR and the others DENIED. SOLID cells are neither. -/
def nearCells (bs : List VBox) (g : FuseCfg) (d : WorldData) (o : Int × Int × Int) : List Nat × List Nat :=
  let cells := (windowCells d.win).filter fun c =>
    isNear bs g.reach c.1 c.2.1 c.2.2 && !(d.solid.any fun x => x.1 = enc3 c.1 c.2.1 c.2.2)
  let order := cells.mergeSort fun a b =>
    let ka := cellDist2 o a
    let kb := cellDist2 o b
    ka < kb ∨ (ka = kb ∧ storageIndex a.1 a.2.1 a.2.2 ≤ storageIndex b.1 b.2.1 b.2.2)
  let keys := order.map fun c => enc3 c.1 c.2.1 c.2.2
  (keys.take 8192, keys.drop 8192)

/-- Kinds of a descriptor (R125). -/
inductive CellKind where
  | far | near | denied | solid
deriving DecidableEq, Repr

/-- The descriptor kind of a cell in the epoch in force. -/
def cellKind (w : WldSt) (i j k : Int) : CellKind :=
  let key := enc3 i j k
  if w.cur.solid.any fun x => x.1 = key then .solid
  else if w.near.contains key then .near
  else if w.denied.contains key then .denied
  else .far

/-- The slots of a near cell. -/
def slotsOf (w : WldSt) (i j k : Int) : Option CellSlots := w.slots.find? fun x => x.cell = enc3 i j k

/-- KIND of a descriptor. -/
def kindNo : CellKind → Nat
  | .far => 0 | .near => 1 | .denied => 2 | .solid => 3

/-- The 32-bit descriptor of a cell (R125). -/
def descriptor (w : WldSt) (i j k : Int) : Nat :=
  let kind := cellKind w i j k
  let sl := if kind = .near then ((slotsOf w i j k).map fun x => x.l1 * 2 ^ 16 + x.brick).getD 0 else 0
  kindNo kind * 2 ^ 30 + sl

/-- The slots of the near cells of a new epoch, in the order in which R124 takes the cells (R138): a cell whose brick has not
changed keeps its slots; any other takes the lowest slot that the old epoch does not use. DESIGN CHOICE (log 111): which free
slot, and that a cell's block and brick have one number. -/
def giveSlots (old : List CellSlots) (oldBoxes boxes : List VBox) (rebuild : List Nat) (epoch : FrameNo) (near : List Nat) :
    List CellSlots :=
  near.foldl (fun acc key =>
    let c := dec3 key
    let kept := (old.find? fun x => x.cell = key).filter fun _ =>
      !rebuild.contains key && brickSamples oldBoxes c.1 c.2.1 c.2.2 = brickSamples boxes c.1 c.2.1 c.2.2
    match kept with
    | some x => acc ++ [x]
    | none =>
      let free := fun (n : Nat) => !(old.any fun x => x.brick = n) && !(acc.any fun x => x.brick = n)
      match (List.range 10240).find? free with
      | some n => acc ++ [⟨key, n, n, epoch⟩]
      | none => acc) []

/-- How many near cells need a slot that they do not hold (R145). -/
def slotChanges (old : List CellSlots) (oldBoxes boxes : List VBox) (near : List Nat) : Nat :=
  (near.filter fun key =>
    let c := dec3 key
    !(old.any fun x => x.cell = key) || brickSamples oldBoxes c.1 c.2.1 c.2.2 ≠ brickSamples boxes c.1 c.2.1 c.2.2).length

/-- The level-2 value that the epoch gives a cell (R121, R122, R125). -/
def l2Value (w : WldSt) (i j k : Int) : Int :=
  match cellKind w i j k with
  | .solid => 0
  | .near => nearValue w.boxes i j k
  | .denied => farValue w.boxes i j k
  | .far => farValue w.boxes i j k

/-- The level-2 value that the tiles hold (R139): the smaller old one while its increase waits. -/
def l2Held (w : WldSt) (i j k : Int) : Int :=
  match tabGet none (w.l2hold.map fun x => (x.1, some x.2)) (enc3 i j k) with
  | some v => v
  | none => l2Value w i j k

/-- The reads of chapter 04 at level 2, 1 and 0 for a point in 1/4096 m: −128 m outside the window (R112). -/
def levelBound (w : WldSt) (level : Nat) (x y z : Int) : Int :=
  if !pointIn w.cur.win x y z then -32768 else
  let i := cellOf x
  let j := cellOf y
  let k := cellOf z
  if level = 2 ∨ cellKind w i j k ≠ .near then l2Held w i j k
  else if level = 1 then level1Bound w.boxes (columnOf x) (columnOf y) (columnOf z)
  else voxelBound w.boxes (voxOf x) (voxOf y) (voxOf z)

/-- u(1 − u) at its largest over the sixteenth a of the unit interval, in 1/256 (R127). -/
def arch (a : Nat) : Nat := if a < 8 then (a + 1) * (15 - a) else a * (16 - a)

/-- K[a, b, c] of R127, in 2^-24 m², rounded up. -/
def kTable (a b c : Nat) : Nat := ceilDiv ((arch a + arch b + arch c) * 2 ^ 24) 51200

/-- δ_lo of R127: the table breakpoint at or below δ. -/
def deltaLo (d : Nat) : Nat :=
  if d < 16 then d else
  let e := Nat.log2 d
  (8 + d / 2 ^ (e - 3) % 8) * 2 ^ (e - 3)

/-- RECIP_UP of R127, in 2^-16 per metre. -/
def recipUp (d : Nat) : Nat := ceilDiv (2 ^ 24) (deltaLo d)

/-- The trilinear value of the eight corner samples of a voxel at 8-bit fractions, rounded down (R127). -/
def trilinear (sample : Nat → Int) (u v w : Nat) : Int :=
  let wt := fun (b f : Nat) => if b = 1 then f else 256 - f
  let sum := ((List.range 8).map fun n => sample n * Int.ofNat (wt (n % 2) u * wt (n / 2 % 2) v * wt (n / 4) w)).sum
  floorDivI sum (2 ^ 24)

/-- The refine of R127 at a point in 1/4096 m, from the voxel's bound and its corner samples. -/
def refineFrom (d : Int) (sample : Nat → Int) (x y z : Int) : Int :=
  if d ≤ 0 then d else
  let fr := fun (p : Int) => (5 * p % 2048).toNat / 8
  let u := fr x
  let v := fr y
  let q := fr z
  let e := ceilDiv (kTable (u / 16) (v / 16) (q / 16) * recipUp d.toNat) (2 ^ 32)
  trilinear sample u v q - Int.ofNat e - 1

/-- The refine of R127 at a point in 1/4096 m. -/
def refineAt (w : WldSt) (x y z : Int) : Int :=
  if !pointIn w.cur.win x y z ∨ cellKind w (cellOf x) (cellOf y) (cellOf z) ≠ .near then levelBound w 0 x y z else
  let i := voxOf x
  let j := voxOf y
  let k := voxOf z
  refineFrom (voxelBound w.boxes i j k)
    (fun n => cornerSample w.boxes (i + Int.ofNat (n % 2)) (j + Int.ofNat (n / 2 % 2)) (k + Int.ofNat (n / 4))) x y z

/-! ## Keep-out layers (R134) -/

/-- Squared distance from the point p to the segment a–b as a fraction, in the unit of the arguments. -/
def pointSeg2 (p a b : Int × Int) : Int × Int :=
  let dx := b.1 - a.1
  let dy := b.2 - a.2
  let l2 := dx ^ 2 + dy ^ 2
  let t := (p.1 - a.1) * dx + (p.2 - a.2) * dy
  if l2 = 0 ∨ t ≤ 0 then ((p.1 - a.1) ^ 2 + (p.2 - a.2) ^ 2, 1)
  else if t ≥ l2 then ((p.1 - b.1) ^ 2 + (p.2 - b.2) ^ 2, 1)
  else (((p.1 - a.1) * dy - (p.2 - a.2) * dx) ^ 2, l2)

/-- Whether the segment a–b meets the closed rectangle lo..hi. -/
def segMeetsRect (lo hi a b : Int × Int) : Bool :=
  let side := fun (p : Int × Int) => (b.1 - a.1) * (p.2 - a.2) - (b.2 - a.2) * (p.1 - a.1)
  let cs := [side lo, side (hi.1, lo.2), side hi, side (lo.1, hi.2)]
  (cs.any (· ≤ 0)) && (cs.any (· ≥ 0)) && min a.1 b.1 ≤ hi.1 && lo.1 ≤ max a.1 b.1 && min a.2 b.2 ≤ hi.2
    && lo.2 ≤ max a.2 b.2

/-- R134: the value of a keep-out layer at a column, in 1/256 m. The column is grown by 1/256 m on every side. -/
def keepOutValue (set : KoSet) (f : Int × Int × Int) (i j : Int) : Int :=
  let lo := (4096 * i - 80, 4096 * j - 80)
  let hi := (4096 * (i + 1) + 80, 4096 * (j + 1) + 80)
  let polys := set.map fun q => q.map fun v => (5 * (v.1 - f.1), 5 * (v.2 - f.2.1))
  let d := polys.filterMap fun q =>
    let edges := q.zip (q.drop 1 ++ q.take 1)
    if inPoly q lo.1 lo.2 ∨ edges.any (fun e => segMeetsRect lo hi e.1 e.2) then some 0 else
    (edges.flatMap fun e =>
      let corner := [lo, (hi.1, lo.2), hi, (lo.1, hi.2)].map fun c =>
        let r := pointSeg2 c e.1 e.2
        isqrt ((r.1 / (r.2 * 6400)).toNat)
      let vertex := isqrt ((((gap1 lo.1 hi.1 e.1.1) ^ 2 + (gap1 lo.2 hi.2 e.1.2) ^ 2) / 6400).toNat)
      vertex :: corner).min?
  Int.ofNat (min 4096 ((d.min?).getD 4096))

/-! ## Moving the window and re-centring (R110, R132, R143) -/

/-- R110, R111: the data of the window at a new corner: what leaves it is dropped. -/
def moveWindow (d : WorldData) (w : Int × Int × Int) (h : Int) : WorldData :=
  { d with
    win := w
    enters := if (d.enters.head?).any (fun e => e.1 = (w.1, w.2.1)) then d.enters else ((w.1, w.2.1), h) :: d.enters
    odds := d.odds.filter fun x => let c := dec3 x.1; voxelIn w c.1 c.2.1 c.2.2
    bricks := d.bricks.filter fun x => let c := dec3 x; cellIn w c.1 c.2.1 c.2.2
    solid := d.solid.filter fun x => let c := dec3 x.1; cellIn w c.1 c.2.1 c.2.2
    cols := d.cols.filter fun x => let c := dec3 x.1; columnIn w c.2.1 c.2.2 }

/-- A box of voxels shifted. -/
def shiftBox (dx dy : Int) (b : VBox) : VBox := { b with x0 := b.x0 + dx, y0 := b.y0 + dy, x1 := b.x1 + dx, y1 := b.y1 + dy }

/-- A key shifted by whole voxels, cells or columns. -/
def shiftKey (dx dy : Int) (n : Nat) : Nat := let c := dec3 n; enc3 (c.1 + dx) (c.2.1 + dy) c.2.2

/-- R143: every index moves by the shift, a whole number of cells: sx, sy in level-2 cells, subtracted. -/
def shiftWorld (d : WorldData) (sx sy : Int) : WorldData :=
  { win := (d.win.1 - sx, d.win.2.1 - sy, d.win.2.2)
    enters := d.enters.map fun e => ((e.1.1 - sx, e.1.2 - sy), e.2)
    odds := d.odds.map fun x => (shiftKey (-8 * sx) (-8 * sy) x.1, x.2)
    bricks := d.bricks.map (shiftKey (-sx) (-sy))
    solid := d.solid.map fun x => (shiftKey (-sx) (-sy) x.1, x.2)
    cols := d.cols.map fun x => let c := dec3 x.1; (enc3 c.1 (c.2.1 - 4 * sx) (c.2.2 - 4 * sy), x.2) }

/-- R132: the columns whose centre lies inside the footprint polygon (1/4096 m, vehicle frame) at a pose, marked SEEN and
FOOTPRINT. A column not yet seen takes the lowest height of its eight neighbours that were SEEN before. -/
def markFootprint (p : PriorSt) (f : Int × Int × Int) (poly : List (Int × Int)) (e : Pose) (d : WorldData) : WorldData :=
  let th := Int.ofNat ((e.thetas.getD 0 0).toNat)
  let c := cosA th
  let s := sinA th
  let verts := poly.map fun v => (5 * (e.x * 2 ^ 30 + v.1 * c - v.2 * s), 5 * (e.y * 2 ^ 30 + v.1 * s + v.2 * c))
  let inside := (windowColumns d.win).filter fun (i, j) =>
    poly ≠ [] ∧ inPoly verts (columnCentre i * 2 ^ 30) (columnCentre j * 2 ^ 30)
  inside.foldl (fun d' (i, j) =>
    let col := colAt d i j
    let around := [(-1, -1), (-1, 0), (-1, 1), (0, -1), (0, 1), (1, -1), (1, 0), (1, 1)].filterMap
      fun (o : Int × Int) => if colSeen d p f (i + o.1) (j + o.2) then some (colHeight d p f (i + o.1) (j + o.2)) else none
    let h := if col.seen then colHeight d p f i j else (around.min?).getD (colHeight d p f i j)
    setCol d' i j { col with seen := true, footprint := true, height := some h }) d

/-- The occupied voxels of a column of the window, each once. -/
def columnVoxels (w : WldSt) (i j : Int) : List (Int × Int × Int) :=
  let all := (List.range 512).map fun n =>
    (2 * i + Int.ofNat (n % 2), 2 * j + Int.ofNat (n / 2 % 2), 8 * w.cur.win.2.2 + Int.ofNat (n / 4))
  all.filter fun v => w.boxes.any fun b =>
    b.x0 ≤ v.1 ∧ v.1 < b.x1 ∧ b.y0 ≤ v.2.1 ∧ v.2.1 < b.y1 ∧ b.z0 ≤ v.2.2 ∧ v.2.2 < b.z1

/-- An entry of the BEV feature grid (R133): the terrain height, the top of the highest occupied voxel above the terrain (the
terrain height where there is none), the number of occupied voxels of the column, FLAGS and AGE. -/
structure BevEntry where
  height : Int
  top : Int
  count : Nat
  flags : Nat
  age : Nat
deriving DecidableEq, Repr

/-- The BEV feature grid of the epoch at a column. A voxel's top face at 0.1 m × (k + 1) is 64 (k + 1) / 5 in 1/128 m. -/
def bevEntry (w : WldSt) (p : PriorSt) (f : Int × Int × Int) (g : FuseCfg) (now : Tick) (i j : Int) : BevEntry :=
  let h := colHeight w.cur p f i j
  let vs := columnVoxels w i j
  { height := h, top := (vs.map fun v => roundDiv (64 * (v.2.2 + 1)) 5).foldl max h, count := min 255 vs.length
    flags := colFlags w.cur p f g i j, age := colAge w.cur now i j }

/-- The 8 bytes of a BEV entry. -/
def bevBytes (b : BevEntry) : List Byte :=
  leBytes 2 (pattern 16 b.height) ++ leBytes 2 (pattern 16 b.top) ++ leBytes 1 b.count ++ leBytes 1 b.flags ++ leBytes 2 b.age

end Sys2Proof.Machine
end

