-- ==== Sys2Proof/Machine/Layout.lean ====
section
/-! DEFINITION. Machine/Layout.lean: the bytes of the structures that stand in memory and that the model holds in fields of
State: geometry layers (R191, R204, R205), candidate records (R184, R185), level-2 bounds, descriptors, level-1 blocks and
bricks (R119, R125, R126, R232), the terrain map, the BEV feature grid, the keep-out layers and polygon tables, and the domain map (R128, R133 to R135, R378). -/

namespace Sys2Proof.Machine

/-! ## Geometry layers (R191, R204, R205) -/

/-- The 8 bytes of a body (R191). -/
def bodyBytes (base : Bool) (b : Body) : List Byte :=
  leBytes 1 b.bkind.val ++ leBytes 1 (if base then 0xFF else b.parent) ++ leBytes 2 (pattern 16 b.h) ++ leBytes 2 b.d
    ++ leBytes 2 b.jointMax

/-- A body from its bytes. -/
def bodyOf (b : List Byte) : Body :=
  { bkind := Fin.ofNat 3 (field b 0 1), parent := field b 1 1, h := signed 16 (field b 2 2), d := field b 4 2,
    jointMax := field b 6 2 }

/-- The 16 bytes of a sphere (R205). -/
def sphereBytes (p : Sphere) : List Byte :=
  let b := fun (c : Bool) (n : Nat) => if c then n else 0
  leBytes 2 (pattern 16 p.sx) ++ leBytes 2 (pattern 16 p.sy) ++ leBytes 2 (pattern 16 p.sz) ++ leBytes 2 p.radius
    ++ leBytes 2 p.margin ++ leBytes 1 p.body ++ leBytes 1 (b p.hitchZ 1 + b p.activeUp 2 + b p.activeDown 4)
    ++ leBytes 2 p.rho ++ leBytes 2 0

/-- A sphere from its bytes. -/
def sphereOf (b : List Byte) : Sphere :=
  let f := field b 11 1
  { sx := signed 16 (field b 0 2), sy := signed 16 (field b 2 2), sz := signed 16 (field b 4 2), radius := field b 6 2,
    margin := field b 8 2, body := field b 10 1, hitchZ := f.testBit 0, activeUp := f.testBit 1, activeDown := f.testBit 2,
    rho := field b 12 2 }

/-- A layer of zeros. -/
def Layer.blank : Layer :=
  { articulated := false, mounted := false, vFwdMax := 0, vRevMax := 0, aMax := 0, kappaMax := 0, dkappaMax := 0,
    hitchMin := 0, hitchMax := 0, hitchRate := 0, downZ := 0, minExtra := 0, bodies := [], spheres := [], rgPos := 0,
    rgHead := 0, rgJoint := 0, rgHitch := 0, rgKappa := 0, rgSpeed := 0, rgSum := 0 }

/-- The 1,024 bytes of a layer (R204). -/
def layerBytes (l : Layer) : List Byte :=
  let b := fun (c : Bool) (n : Nat) => if c then n else 0
  leBytes 1 (b l.articulated 1 + b l.mounted 2) ++ leBytes 1 l.bodies.length ++ leBytes 1 l.spheres.length ++ leBytes 1 0
    ++ leBytes 2 l.vFwdMax ++ leBytes 2 l.vRevMax ++ leBytes 2 l.aMax ++ leBytes 2 l.kappaMax ++ leBytes 2 l.dkappaMax
    ++ leBytes 2 (pattern 16 l.hitchMin) ++ leBytes 2 (pattern 16 l.hitchMax) ++ leBytes 2 l.hitchRate
    ++ leBytes 2 (pattern 16 l.downZ) ++ leBytes 2 l.minExtra ++ leBytes 8 0
    ++ padTo 40 (l.bodies.zipIdx.flatMap fun x => bodyBytes (x.2 = 0) x.1) ++ leBytes 56 0
    ++ padTo 512 (l.spheres.flatMap sphereBytes) ++ leBytes 384 0

/-- A layer from its 1,024 bytes; its range-guard bounds (R631), which stand in another table, are those of old. -/
def layerFrom (old : Layer) (bs : List Byte) : Layer :=
  { old with
    articulated := (field bs 0 1).testBit 0, mounted := (field bs 0 1).testBit 1
    vFwdMax := field bs 4 2, vRevMax := field bs 6 2, aMax := field bs 8 2, kappaMax := field bs 10 2, dkappaMax := field bs 12 2
    hitchMin := signed 16 (field bs 14 2), hitchMax := signed 16 (field bs 16 2), hitchRate := field bs 18 2
    downZ := signed 16 (field bs 20 2), minExtra := field bs 22 2
    bodies := (List.range (min 5 (field bs 1 1))).map fun i => bodyOf (bs.drop (32 + 8 * i))
    spheres := (List.range (min 32 (field bs 2 1))).map fun i => sphereOf (bs.drop (128 + 16 * i)) }

/-! ## Candidate records (R184, R185) -/

/-- R185: a domain's share of the candidate parameter region, in records. -/
def domShare (s : State) (d : Nat) : Nat :=
  let given := fun (n : Nat) => (s.image.shares.find? fun x => x.1.val = n).map (·.2)
  match given d with
  | some n => n
  | none => if d = 0 then 262144 - (s.image.shares.map (·.2)).sum else 0

/-- The first record of a domain's share: shares lie in ascending domain order. -/
def domFirst (s : State) (d : Nat) : Nat := ((List.range d).map (domShare s)).sum

/-- The candidate record that stands at a place of the region; none where nothing has been written. -/
def candAt (s : State) (n : Nat) : Option Cand :=
  match s.swp.region.find? fun x => domFirst s x.1 ≤ n ∧ n < domFirst s x.1 + domShare s x.1 with
  | some x => x.2[n - domFirst s x.1]?
  | none => none

/-- The address of candidate i of a domain (R185). -/
def candAddr (s : State) (d i : Nat) : Nat := 0x8010000000 + 44928 * 1024 + 16 * (domFirst s d + i)

/-! ## Keep-out polygon tables and the domain map (R135, R378) -/

/-- A keep-out set from the words of its polygon table, with the words that follow; n bounds the polygons. -/
def koPolys : Nat → List Nat → KoSet × List Nat
  | 0, ws => ([], ws)
  | _ + 1, [] => ([], [])
  | n + 1, k :: ws =>
    let vs := (List.range (min k 32)).map fun i => (signed 32 (ws.getD (2 * i) 0), signed 32 (ws.getD (2 * i + 1) 0))
    let r := koPolys n (ws.drop (2 * min k 32))
    (vs :: r.1, r.2)

/-- Keep-out sets from the words of their tables, one after the other. -/
def koSets : Nat → List Nat → List KoSet
  | 0, _ => []
  | n + 1, ws =>
    let r := koPolys (min (ws.headD 0) 32) ws.tail
    r.1 :: koSets n r.2

/-- The words of the eight live keep-out tables. DESIGN CHOICE (log 112): the tables follow one another. -/
def koTable (sets : List KoSet) : List Nat := (List.range 8).flatMap fun n => koWords (sets.getD n [])

/-- Shared-unit grants from their words. -/
def grantsOf (ws : List Nat) : List (Nat × Fin 16) :=
  (ws.tail.take (ws.headD 0)).map fun w => (w / 16, Fin.ofNat 16 w)

/-- The words of the live domain map: the 16 tweak numbers, then the shared-unit grants (R378, R489). DESIGN CHOICE (log
112): their order. -/
def domainMapWords (tweaks : List Word32) (g : List (Nat × Fin 16)) : List Nat :=
  ((List.range 16).map fun d => (tweaks.getD d 0).toNat) ++ grantWords g

/-! ## What stands at an address -/

/-- The settings in force that fusion reads (R114 to R116, R124, R130, R131, R133). -/
def fuseCfg (s : State) : FuseCfg :=
  { hit := Int.ofNat (fld s F.WLD_OCC_PARAM_HIT), miss := Int.ofNat (fld s F.WLD_OCC_PARAM_MISS)
    occTh := signed 8 (fld s F.WLD_OCC_PARAM_OCC_TH), camHit := Int.ofNat (fld s F.WLD_OCC_PARAM_CAM_HIT)
    cropMax := Int.ofNat (fld s F.WLD_GROUND_CROP_MAX), drop := Int.ofNat (fld s F.WLD_GROUND_DROP)
    band := Int.ofNat (fld s F.WLD_GROUND_BAND), unseenBlock := flag s F.WLD_CFG_UNSEEN_BLOCK
    unseenCost := fld s F.WLD_CFG_UNSEEN_COST, reach := fld s F.WLD_REACH_REACH }

/-- The cell of a window at a storage index (R111). -/
def cellAtIndex (w : Int × Int × Int) (n : Nat) : Int × Int × Int :=
  let at1 := fun (lo : Int) (m : Nat) (r : Nat) => lo + (Int.ofNat r - lo) % Int.ofNat m
  (at1 w.1 96 (n % 96), at1 w.2.1 96 (n / 96 % 96), at1 w.2.2 16 (n / 9216))

/-- The column of a window at a storage index of the terrain map and of the BEV grid: 384 × 384 columns, x first. -/
def columnAtIndex (w : Int × Int × Int) (n : Nat) : Int × Int :=
  let at1 := fun (lo : Int) (r : Nat) => 4 * lo + (Int.ofNat r - 4 * lo) % 384
  (at1 w.1 (n % 384), at1 w.2.1 (n / 384))

/-- Byte o of a list of bytes; 0 past its end. -/
def byteOf (bs : List Byte) (o : Nat) : Byte := bs.getD o 0

/-- A byte of a sweep tile's scratch at an offset (R119, R204, R232): level-2 bounds as the tile holds them, its copies of the
layers, its candidate ring and its output buffer. DESIGN CHOICE (log 112): the places in the ring and the buffer. -/
def scratchByte (s : State) (u o : Nat) : Byte :=
  if o < 0x48000 then
    let c := cellAtIndex s.wld.cur.win (o / 2)
    byteOf (leBytes 2 (pattern 16 (l2Held s.wld c.1 c.2.1 c.2.2))) (o % 2)
  else if o < 0x4C000 then
    match s.held.layers.find? fun l => l.1 = (o - 0x48000) / 0x400 with
    | some l => byteOf (layerBytes l.2) (o % 0x400)
    | none => 0
  else if o < 0x50000 then
    let n := (o - 0x4C000) / 16
    let t := tabGet TileSt.idle s.swp.tiles u
    match (t.todo ++ t.flight.map (·.index)).find? fun i => i % 1024 = n with
    | some i => match candAt s (domFirst s (unitDomain s u) + i) with
      | some c => byteOf (candBytes c) (o % 16)
      | none => 0
    | none => 0
  else if 0x64000 ≤ o ∧ o < 0x68000 then
    match (tabGet TileSt.idle s.swp.tiles u).out[(o - 0x64000) / 16]? with
    | some k => byteOf (leBytes 8 k.key ++ leBytes 2 k.tag ++ leBytes 6 0) (o % 16)
    | none => 0
  else 0

/-- The owner of a way of a cluster world cache (R387). -/
def wayOwner (s : State) (c w : Nat) : Nat :=
  (if w < 8 then fld s (F.MEM_WAY_DOMAIN_LO_DOMAIN c) / 2 ^ (4 * w)
    else fld s (F.MEM_WAY_DOMAIN_HI_DOMAIN c) / 2 ^ (4 * (w - 8))) % 16

/-- A byte of the ways of a domain in a cluster world cache (R125, R363): descriptors, then level-1 slots. A domain that
sweeps has 8 ways or more. -/
def cacheByte (s : State) (c o : Nat) : Byte :=
  let w := o / 0x40000
  let own := (List.range 16).filter fun x => wayOwner s c x = wayOwner s c w
  let at0 := (own.filter fun x => x < w).length * 0x40000 + o % 0x40000
  if own.length < 8 then 0
  else if at0 < 0x90000 then
    let k := cellAtIndex s.wld.cur.win (at0 / 4)
    byteOf (leBytes 4 (descriptor s.wld k.1 k.2.1 k.2.2)) (at0 % 4)
  else if at0 < 0x90000 + 0x140000 then
    let n := (at0 - 0x90000) / 128
    match s.wld.slots.find? fun x => x.l1 = n with
    | some x => let k := dec3 x.cell; byteOf (level1Bytes s.wld.boxes k.1 k.2.1 k.2.2) (at0 % 128)
    | none => 0
  else 0

/-- A byte of an occupancy brick: the log-odds of its 512 voxels. -/
def occByte (d : WorldData) (key o : Nat) : Byte :=
  let c := dec3 key
  match (cellVoxels c.1 c.2.1 c.2.2)[o]? with
  | some v => BitVec.ofNat 8 (pattern 8 (tabGet 0 d.odds (enc3 v.1 v.2.1 v.2.2)))
  | none => 0

/-- The half of a doubled region that holds the epoch in force: the halves swap at every edge (R138). -/
def halfOf (s : State) : Nat := frameN s % 2

/-- A byte of the world store at an offset. DESIGN CHOICE (log 112): the regions of the world store lie in the order in which
the spec lists them; of a doubled region the half in force is that of the frame number's parity. -/
def storeByteOf (w : WldSt) (h : HeldSt) (half : Nat) (cfg : FuseCfg) (edge : Nat) (cand : Nat → Option Cand) (o : Nat) : Byte :=
  let k := 1024
  if o < 25600 * k then
    match w.slots.find? fun x => x.brick = o / 2560 with
    | some x => let c := dec3 x.cell; byteOf (brickBytes w.boxes x.epoch c.1 c.2.1 c.2.2) (o % 2560)
    | none => 0
  else if o < 33792 * k then
    match w.nxt.bricks.reverse[(o - 25600 * k) / 512]? with
    | some key => occByte w.nxt key (o % 512)
    | none => 0
  else if o < 34368 * k then
    let p := o - 33792 * k
    if p / (288 * k) ≠ half then 0
    else
      let c := cellAtIndex w.cur.win (p % (288 * k) / 2)
      byteOf (leBytes 2 (pattern 16 (l2Value w c.1 c.2.1 c.2.2))) (p % 2)
  else if o < 35520 * k then
    let p := o - 34368 * k
    if p / (576 * k) ≠ half then 0
    else
      let c := cellAtIndex w.cur.win (p % (576 * k) / 4)
      byteOf (leBytes 4 (descriptor w c.1 c.2.1 c.2.2)) (p % 4)
  else if o < 36800 * k then
    match w.slots.find? fun x => x.l1 = (o - 35520 * k) / 128 with
    | some x => let c := dec3 x.cell; byteOf (level1Bytes w.boxes c.1 c.2.1 c.2.2) (o % 128)
    | none => 0
  else if o < 39104 * k then
    let p := o - 36800 * k
    if p / (1152 * k) ≠ half then 0
    else
      let c := columnAtIndex w.cur.win (p % (1152 * k) / 8)
      byteOf (colRecord w.cur h.prior h.originF cfg edge c.1 c.2) (p % 8)
  else if o < 41408 * k then
    let p := o - 39104 * k
    if p / (1152 * k) ≠ half then 0
    else
      let c := columnAtIndex w.cur.win (p % (1152 * k) / 8)
      byteOf (bevBytes (bevEntry w h.prior h.originF cfg edge c.1 c.2)) (p % 8)
  else if o < 44864 * k then
    let p := o - 41408 * k
    let c := columnAtIndex w.cur.win (p % (288 * k) / 2)
    let set := if p / (288 * k) < 8 then h.keepOut.getD (p / (288 * k)) [] else []
    byteOf (leBytes 2 (pattern 16 (keepOutValue set h.originF c.1 c.2))) (p % 2)
  else if o < 44928 * k then
    let p := o - 44864 * k
    if p < 32 * k then byteOf (leBytes 4 ((koTable w.koLive).getD (p / 4) 0)) (p % 4)
    else byteOf (leBytes 4 ((koTable w.koStaged).getD ((p - 32 * k) / 4) 0)) (p % 4)
  else if 49024 * k ≤ o ∧ o < 49040 * k then
    match w.layers.find? fun l => l.1 = (o - 49024 * k) / 0x400 with
    | some l => byteOf (layerBytes l.2) (o % 0x400)
    | none => 0
  else if o < 49024 * k then
    match cand ((o - 44928 * k) / 16) with
    | some c => byteOf (candBytes c) (o % 16)
    | none => 0
  else 0

/-- A byte of the world store of a state. -/
def storeByte (s : State) (o : Nat) : Byte :=
  storeByteOf s.wld s.held (halfOf s) (fuseCfg s) s.frame.edgeTick (candAt s) o

/-! ### The select and solver store (R263, R266, R268, R275)

DESIGN CHOICE (log 112): the places of the client map, the resolution map, the list entries and the records handed over. -/

/-- The data address of a candidate's entry in the client map; n is its record's place in the parameter region. -/
def clientMapAddr (n : Nat) : Nat := 0x8014000000 + 2 * n

/-- The data address of a candidate's byte in the resolution map. -/
def resolutionAddr (n : Nat) : Nat := 0x8014080000 + n

/-- The data address of entry n of the lists, in merge order of the pieces. -/
def entryAddr (n : Nat) : Nat := 0x8014100000 + 16 * n

/-- The domain and index of a record's place in the parameter region. -/
def candOfPlace (s : State) (n : Nat) : Option (Nat × Nat) :=
  ((List.range 16).find? fun d => domFirst s d ≤ n ∧ n < domFirst s d + domShare s d).map fun d => (d, n - domFirst s d)

/-- A byte of the select and solver store. -/
def selectByte (s : State) (o : Nat) : Byte :=
  if o < 0x80000 then
    match candAt s (o / 2) with
    | some c => byteOf (leBytes 2 (c.client % 1024 + c.kind.val * 1024)) (o % 2)
    | none => 0
  else if o < 0xC0000 then
    match candOfPlace s (o - 0x80000) with
    | some (d, i) => BitVec.ofNat 8 (tabGet 0 s.sel.map (2 ^ 18 * d + i))
    | none => 0
  else if 0x100000 ≤ o ∧ o < 0x3F0000 then
    match (s.sel.lists.flatMap fun l => l.pieces.flatMap (·.2))[(o - 0x100000) / 16]? with
    | some e => byteOf (leBytes 8 e.1 ++ leBytes 2 e.2 ++ leBytes 6 0) (o % 16)
    | none => 0
  else if 0x3F0000 ≤ o ∧ o < 0x3F0040 then
    match s.sel.top[(o - 0x3F0000) / 16]? with
    | some e => byteOf (candBytes e.cand) (o % 16)
    | none => 0
  else 0

/-- What the structures of the machine put at a data address: 0 where no structure stands. -/
def structByte (s : State) (a : Nat) : Byte :=
  if a < 0x8000000000 then 0
  else if a < 0x8002000000 then scratchByte s ((a - 0x8000000000) / 0x80000) (a % 0x80000)
  else if 0x800C000000 ≤ a ∧ a < 0x800E000000 then cacheByte s ((a - 0x800C000000) / 0x400000) ((a - 0x800C000000) % 0x400000)
  else if 0x8010000000 ≤ a ∧ a < 0x8013000000 then storeByte s (a - 0x8010000000)
  else if 0x8014000000 ≤ a ∧ a < 0x8014400000 then selectByte s (a - 0x8014000000)
  else 0

end Sys2Proof.Machine
end

