-- ==== Sys2Proof/Machine/Words.lean ====
section
/-! DEFINITION. Machine/Words.lean: the data map (R17, R363, R365), words with check bits and Sepia (R146, R367 to R373), and the
reads and writes of words. -/

namespace Sys2Proof.Machine

/-! ## The data map -/

/-- The memory at a data address (R363, R365); none where the address is unpopulated. -/
def memAt (a : Nat) : Option MemKind :=
  let b := 0x8000000000
  if a < 0x200000000 then some .hbm
  else if a < b then none
  else if a < b + 0x2000000 then some .sweepScratch
  else if b + 0x4000000 ≤ a ∧ a < b + 0x8000000 then some .infScratch
  else if b + 0xC000000 ≤ a ∧ a < b + 0xE000000 then some .worldCache
  else if b + 0x10000000 ≤ a ∧ a < b + 0x13000000 then some .worldStore
  else if b + 0x14000000 ≤ a ∧ a < b + 0x14400000 then some .selectStore
  else if b + 0x15000000 ≤ a ∧ a < b + 0x15800000 then some .buffers
  else if b + 0x16000000 ≤ a ∧ a < b + 0x16100000 then some .wardenSram
  else none

/-- MEMORY of MEM_ERR_CAP. -/
def memCode : MemKind → Nat
  | .sweepScratch => 0 | .infScratch => 1 | .worldCache => 2 | .worldStore => 3 | .selectStore => 4 | .buffers => 5
  | .wardenSram => 6 | .hbm => 7

/-- The bank of a data address, numbered through its memory (R232, R233, R363). Sweep scratch words are interleaved. -/
def memBank (a : Nat) : Nat :=
  let o := a % 0x2000000
  match memAt a with
  | some .sweepScratch => o / 0x80000 * 64 + o / 8 % 64
  | some .infScratch => (a - 0x8004000000) / 0x40000
  | some .worldCache => (a - 0x800C000000) / 0x10000
  | some .worldStore => (a - 0x8010000000) / 0x80000
  | some .selectStore => (a - 0x8014000000) / 0x40000
  | some .buffers => (a - 0x8015000000) / 0x40000
  | some .wardenSram => (a - 0x8016000000) / 0x20000
  | some .hbm => a / 0x20000000
  | none => 0

/-- The domain that owns the memory at an address; none for a shared unit. -/
def memOwner (s : State) (a : Nat) : Option Nat :=
  match memAt a with
  | some .sweepScratch => some (unitDomain s (a % 0x2000000 / 0x80000))
  | some .infScratch => some (unitDomain s (64 + (a - 0x8004000000) / 0x800000))
  | some .worldCache =>
    some (wayOwner s ((a - 0x800C000000) / 0x400000) ((a - 0x800C000000) % 0x400000 / 0x40000))
  | some .hbm =>
    let ch := a / 0x20000000
    some ((if ch < 8 then fld s F.MEM_CHAN_DOMAIN_LO_DOMAIN / 2 ^ (4 * ch)
      else fld s F.MEM_CHAN_DOMAIN_HI_DOMAIN / 2 ^ (4 * (ch - 8))) % 16)
  | _ => none

/-! ## Words (R367 to R372) -/

/-- The number of ones in a byte. -/
def ones (n : Nat) : Nat := ((List.range 8).filter fun i => n.testBit i).length

/-- The columns of the data bits (R367). -/
def hsiaoColumns : List Nat :=
  (List.range 256).filter (fun n => ones n = 3) ++ [0x1F, 0x3E, 0x7C, 0xF8, 0xF1, 0xE3, 0xC7, 0x8F]

/-- The change of a word's syndrome by flipped bits: data bits 0 to 63, then check bits. -/
def flipSyndrome (flips : Nat) : Nat :=
  ((List.range 72).filter fun i => flips.testBit i).foldl
    (fun w i => w ^^^ (if i < 64 then hsiaoColumns.getD i 0 else 2 ^ (i - 64))) 0

/-- What a syndrome means (R367). -/
inductive Decoded where
  | good
  | single (bit : Nat)
  | mark
  | bad
deriving DecidableEq, Repr

/-- The decoding of a syndrome (R367). -/
def decodeSyndrome (w : Nat) : Decoded :=
  if w = 0 then .good
  else if w = 3 then .mark
  else
    let i := hsiaoColumns.idxOf w
    if i < 64 then .single i
    else if ones w = 1 then .single (64 + Nat.log2 w)
    else .bad

/-- The address lies in a range that was wiped since the structures there were last written. -/
def blanked (s : State) (a : Nat) : Bool := s.mem.blank.any fun r => decide (r.1 ≤ a ∧ a < r.1 + r.2)

/-- What the machine has put at a data address: 0 where no structure stands, or where it was wiped (R383, R384). -/
def placedByte (s : State) (a : Nat) : Byte := if blanked s a then 0 else structByte s a

/-- The byte at a data address. MemSt.cells holds in which bits it differs from what the machine has put there. -/
def byteAt (s : State) (a : Nat) : Byte := placedByte s a ^^^ tabGet 0 s.mem.cells a

/-- The state with a byte stored. -/
def putByte (s : State) (a : Nat) (b : Byte) : State :=
  { s with mem := { s.mem with cells := tabPut 0 s.mem.cells a (placedByte s a ^^^ b) } }

/-- The bytes stored from an address on. -/
def putBytes (a : Nat) : List Byte → State → State
  | [], s => s
  | b :: bs, s => putBytes (a + 1) bs (putByte s a b)

/-- The data of the word that holds an address. -/
def wordData (s : State) (a : Nat) : Nat := ofLe ((List.range 8).map fun i => byteAt s (a / 8 * 8 + i))

/-- The syndrome of the word that holds an address. -/
def wordSynd (s : State) (a : Nat) : Nat := tabGet 0 s.mem.synd (a / 8)

/-- The state with a word's syndrome set. -/
def setSynd (a w : Nat) (s : State) : State := { s with mem := { s.mem with synd := tabPut 0 s.mem.synd (a / 8) w } }

/-- The state with a word's data replaced. -/
def setWord (a v : Nat) (s : State) : State := putBytes (a / 8 * 8) (leBytes 8 v) s

/-- Upsets flip bits of a word. -/
def applyFlips (a : Nat) (flips : BitVec 72) (s : State) : State :=
  if flips = 0 then s
  else setSynd a (wordSynd s a ^^^ flipSyndrome flips.toNat) (setWord a (wordData s a ^^^ flips.toNat % 2 ^ 64) s)

/-- The detail of a memory record (R386). -/
def memDetail (synd kind code a : Nat) : Nat := synd * 2 ^ 56 + kind * 2 ^ 53 + code * 2 ^ 40 + a % 2 ^ 40

/-- A record of a memory event of kinds 0 to 3, 6 and 7, and its capture (R386, R387). -/
def memEvent (kind synd a : Nat) (sev : Severity) (s : State) : State :=
  let code := ((memAt a).map memCode).getD 0
  let s1 := report { unit := 0x84, cls := 0x01, ev := kind, sev := sev, detail := memDetail synd kind code a } s
  if flag s1 F.MEM_ERR_CAP_VALID then s1
  else
    setFld F.MEM_ERR_ADDR_LO_ADDR (a % 2 ^ 32) (setFld F.MEM_ERR_ADDR_HI_ADDR (a / 2 ^ 32 % 256)
      (capture F.MEM_ERR_CAP_VALID
        [(F.MEM_ERR_CAP_KIND, kind), (F.MEM_ERR_CAP_SYNDROME, synd), (F.MEM_ERR_CAP_MEMORY, code)] s1))

/-- A bank's key in the counts of R377. -/
def bankKey (m : MemKind) (bank : Nat) : Nat := memCode m * 4096 + bank

/-- A correctable error counts, in all and in its bank (R377, R387). -/
def countCe (a : Nat) (s : State) : State :=
  match memAt a with
  | none => s
  | some m =>
    let k := bankKey m (memBank a)
    bump F.MEM_CE_CNT_COUNT { s with mem := { s.mem with ceCount := tabPut 0 s.mem.ceCount k (tabGet 0 s.mem.ceCount k + 1) } }

/-- A word with a single-bit error corrected: a data bit flips back, and the check bits are fresh (R369). -/
def correct (a bit : Nat) (s : State) : State :=
  setSynd a 0 (if bit < 64 then setWord a (wordData s a ^^^ 2 ^ bit) s else s)

/-! ### World data (R146, R239, R376) -/

/-- CELL of the level-2 word at an address of a sweep tile's scratch, and its tile (R119, R232). -/
def l2WordOf (a : Nat) : Option (Nat × Nat) :=
  let o := a % 0x80000
  if memAt a = some .sweepScratch ∧ o < 0x48000 then
    let i := o / 2
    some (a % 0x2000000 / 0x80000, i % 96 + 2 ^ 7 * (i / 96 % 96) + 2 ^ 14 * (i / 9216))
  else none

/-- R239: the steward schedules the rewrite of a level-2 word. -/
def scheduleRewrite (tile cell : Nat) (s : State) : State :=
  if s.mem.rewrites.contains (tile, cell) then s
  else { s with mem := { s.mem with rewrites := s.mem.rewrites ++ [(tile, cell)] } }

/-- The cell of the level-2, descriptor, level-1 or brick word at an address of the world store or of a cluster world cache
(R125, R126). -/
def worldCellOf (s : State) (a : Nat) : Option Nat :=
  let key := fun (n : Nat) => let c := cellAtIndex s.wld.cur.win (n % 147456); enc3 c.1 c.2.1 c.2.2
  match memAt a with
  | some .worldCache =>
    let c := (a - 0x800C000000) / 0x400000
    let o := (a - 0x800C000000) % 0x400000
    let w := o / 0x40000
    let at0 := ((List.range 16).filter fun x => x < w ∧ wayOwner s c x = wayOwner s c w).length * 0x40000 + o % 0x40000
    if at0 < 0x90000 then some (key (at0 / 4))
    else (s.wld.slots.find? fun x => x.l1 = (at0 - 0x90000) / 128).map (·.cell)
  | some .worldStore =>
    let o := a - 0x8010000000
    if o < 25600 * 1024 then (s.wld.slots.find? fun x => x.brick = o / 2560).map (·.cell)
    else if o < 33792 * 1024 then none
    else if o < 34368 * 1024 then some (key ((o - 33792 * 1024) % 0x48000 / 2))
    else if o < 35520 * 1024 then some (key ((o - 34368 * 1024) % 0x90000 / 4))
    else if o < 36800 * 1024 then (s.wld.slots.find? fun x => x.l1 = (o - 35520 * 1024) / 128).map (·.cell)
    else none
  | _ => none

/-- The cell of the occupancy brick at an address of the world store. -/
def occCellOf (s : State) (a : Nat) : Option Nat :=
  let o := a - 0x8010000000
  if memAt a = some .worldStore ∧ 25600 * 1024 ≤ o ∧ o < 33792 * 1024 then
    s.wld.nxt.bricks.reverse[(o - 25600 * 1024) / 512]?
  else none

/-- R146: World clears an occupancy brick that holds an uncorrectable error, and holds its cell SOLID for 250 ms. -/
def clearBrick (key : Nat) (s : State) : State :=
  let inCell := fun (k : Nat) =>
    let v := dec3 k
    decide (enc3 (floorDivI v.1 8) (floorDivI v.2.1 8) (floorDivI v.2.2 8) = key)
  let n := s.wld.nxt
  let c := dec3 key
  report { unit := 0x82, cls := 0x0C, ev := 1, sev := .warning, detail := cellCode c.1 c.2.1 c.2.2 }
    (setFlag F.WLD_ERR_STAT_SEPIA true
      { s with wld := { s.wld with nxt := { n with
          odds := n.odds.filter fun x => !inCell x.1
          solid := (key, some (s.time.count + 6250000)) :: n.solid.filter fun x => x.1 ≠ key } } })

/-- R146: a word of world data that a reader fetches is bad: its record, and World rebuilds the cell for the next epoch; a
level-2 word of a tile is rewritten by the steward (R239). -/
def worldFault (a : Nat) (s : State) : State :=
  let tell := fun (code : Nat) (s : State) =>
    report { unit := 0x82, cls := 0x0C, ev := 0, sev := .warning, detail := code } (setFlag F.WLD_ERR_STAT_SEPIA true s)
  match l2WordOf a with
  | some (t, c) => scheduleRewrite t c (tell c s)
  | none =>
    match occCellOf s a with
    | some key => setFlag F.WLD_ERR_STAT_SEPIA true (clearBrick key s)
    | none =>
      match worldCellOf s a with
      | some key =>
        let c := dec3 key
        tell (cellCode c.1 c.2.1 c.2.2) { s with wld := { s.wld with
          rebuild := if s.wld.rebuild.contains (key, a / 8 * 8) then s.wld.rebuild else (key, a / 8 * 8) :: s.wld.rebuild } }
      | none => s

/-- An uncorrectable word is found (R146, R369, R376): it takes the mark, it is reported, and World is told of world data. -/
def findBad (kind : Nat) (a : Nat) (s : State) : State :=
  let s1 := memEvent kind (wordSynd s a) a .warning s
  let s2 := if kind = 3 then bump F.MEM_UE_CNT_SCRUB_UE s1 else bump F.MEM_UE_CNT_READ_UE s1
  worldFault a (setSynd a 3 s2)

/-- A read of the word that holds an address (R367 to R369): whether it has a value, or is Sepia. kind is the record's kind, 1 for a
read and 3 for the scrubber. -/
def probeWord (kind a : Nat) (s : State) : Bool × State :=
  match decodeSyndrome (wordSynd s a) with
  | .good => (true, s)
  | .single bit => (true, correct a bit (countCe a s))
  | .mark => (false, bump F.MEM_SEPIA_CNT_MARK_READ s)
  | .bad => (false, findBad kind a s)

/-- A read of the word that holds an address: its data, or none for Sepia. -/
def readWord (kind a : Nat) (s : State) : Option Nat × State :=
  let r := probeWord kind a s
  (if r.1 then some (wordData r.2 a) else none, r.2)

/-- A little-endian value of n bytes that the machine has put at an address: v, unless the memory holds other bits there. -/
def memValue (s : State) (a n v : Nat) : Nat :=
  if (List.range n).any fun i => tabGet 0 s.mem.cells (a + i) ≠ 0 then ofLe ((List.range n).map fun i => byteAt s (a + i)) else v

/-- The same for a signed 16-bit value. -/
def memInt (s : State) (a : Nat) (v : Int) : Int := signed 16 (memValue s a 2 (pattern 16 v))

/-- Reads of consecutive words. -/
def readWords (a : Nat) : Nat → State → List (Option Nat) × State
  | 0, s => ([], s)
  | n + 1, s =>
    let r := readWord 1 a s
    let t := readWords (a + 8) n r.2
    (r.1 :: t.1, t.2)

/-- A full-word write (R372): fresh check bits, or the mark where the value is Sepia (R368). -/
def writeFull (a : Nat) (bs : List Byte) (sepia : Bool) (s : State) : State :=
  setSynd a (if sepia then 3 else 0) (putBytes (a / 8 * 8) bs s)

/-- A write of fewer than 8 bytes (R371). -/
def writePartial (a : Nat) (bs : List Byte) (sepia : Bool) (s : State) : State :=
  let s1 := match decodeSyndrome (wordSynd s a) with
    | .good => putBytes a bs s
    | .single bit => putBytes a bs (correct a bit (countCe a s))
    | .mark => putBytes a bs (bump F.MEM_SEPIA_CNT_PARTIAL s)
    | .bad => putBytes a bs (findBad 2 a s)
  if sepia then setSynd a 3 s1 else s1

/-- A write of bytes from an address on, word by word; n bounds the words. -/
def writeBytes (sepia : Bool) : Nat → Nat → List Byte → State → State
  | 0, _, _, s => s
  | n + 1, a, bs, s =>
    if bs = [] then s
    else
      let k := 8 - a % 8
      let now := bs.take k
      let s1 := if now.length = 8 then writeFull a now sepia s else writePartial a now sepia s
      writeBytes sepia n (a + k) (bs.drop k) s1

/-! ## The second layer of HBM (R370) -/

/-- What the HBM3 device reports of a word (R370): its corrections count; an uncorrectable word takes the mark. Severity
DESIGN CHOICE (log 113): the spec gives the record of kind 7 none. -/
def applyDev (a : Nat) (dev : DevEcc) (s : State) : State :=
  if memAt a ≠ some .hbm then s
  else
    match dev with
    | .clean => s
    | .corrected n => bumpBy F.MEM_HBM_STAT_DEV_CE n s
    | .uncorrectable => setSynd a 3 (memEvent 7 (wordSynd s a) a .warning s)

/-! ## Regions -/

/-- Whether two ranges of addresses meet. -/
def rangesMeet (a n b m : Nat) : Bool := decide (a < b + m ∧ b < a + n ∧ 0 < n ∧ 0 < m)

/-- The address ranges of a wipe region: first address and length. -/
def wipeRanges (s : State) : WipeRegion → List (Nat × Nat)
  | .allSram => sramRanges
  | .allHbm => [(0, 0x200000000)]
  | .secureWarden => [(0x80160C0000, 0x40000)]
  | .leaseScratch cls res => leaseScratch s cls.val res
  | .longOp ctx => (s.image.opRegions.filter fun r => r.1 = ctx.val).map (·.2) ++ leaseScratch s 5 ctx.val

/-- R24, R336: the unit held the resource whose scratch lies at the address, and the lease was revoked. -/
def lostTo (s : State) (u a : Nat) : Bool :=
  s.cnd.revoked.any fun x =>
    decide (x.holder = u) && !(s.cnd.leases.any fun l => l.cls = x.cls ∧ l.res = x.res ∧ l.holder = u ∧ ¬ l.revoking) &&
      (wipeRanges s (revokedRegion x.cls x.res)).any fun r => rangesMeet (a / 8 * 8) 8 r.1 r.2

/-- The machine writes its own structure to n bytes from an address on (R372): the words have fresh check bits. -/
def freshWords (a n : Nat) (s : State) : State :=
  { s with mem := { s.mem with
    cells := s.mem.cells.filter fun x => !(decide (a ≤ x.1 ∧ x.1 < a + n))
    synd := s.mem.synd.filter fun x => !(decide (a ≤ 8 * x.1 ∧ 8 * x.1 < a + n)) } }

/-- The bytes from an address on. -/
def bytesAt (s : State) (a n : Nat) : List Byte := (List.range n).map fun i => byteAt s (a + i)

end Sys2Proof.Machine
end

