-- ==== Sys2Proof/Machine/Ingress.lean ====
section
/-! DEFINITION. Machine/Ingress.lean: streams, samples, stamps and test items (R36, R72 to R99, R626, R627), mirrored samples
(R100 to R102), the time base and its discipline (R103 to R108), and the ages at an edge (R40, R55 to R60). -/

namespace Sys2Proof.Machine

/-! ## Streams -/

/-- The state of a stream. -/
def streamSt (s : State) (n : Nat) : StreamSt := s.ing.getD n StreamSt.fresh

/-- The state with a stream's state changed. -/
def modStream (n : Nat) (f : StreamSt → StreamSt) (s : State) : State := { s with ing := modAt n f s.ing }

/-- What an image declares of a stream that it does not use. -/
def StreamDecl.unused : StreamDecl :=
  { readSnap := false, readEpoch := false, period := 0, slice := 0, mac := 0, udp := 0, points := none, bytes := 0,
    checksum := false, terminator := .other, setup := [], ring := (0, 0) }

/-- What the image declares of a stream. -/
def streamDecl (s : State) (n : Nat) : StreamDecl := s.image.streams.getD n StreamDecl.unused

/-- ENABLE of a stream. -/
def streamOn (s : State) (n : Nat) : Bool := flag s (F.ING_STREAM_CFG_ENABLE n)

/-- R73: the stream is wired to this device. -/
def wiredHere (s : State) (n : Nat) : Bool := fld s (F.ING_STREAM_CFG_WIRED n) % 2 = 1

/-- UNIT of a stream (R422). -/
def streamUnit (n : Nat) : Nat := 0xA0 + n

/-- A port receives a stream while the device runs outside replay (R587). -/
def receives (s : State) (n : Nat) : Bool := streamOn s n && wiredHere s n && !s.replay.active

/-- The stream is a lidar's (R72). -/
def isLidar (n : Nat) : Bool := decide (16 ≤ n ∧ n ≤ 23)

/-- LATENCY of a stream. -/
def latency (s : State) (n : Nat) : Nat := fld s (F.ING_STREAM_CFG_LATENCY n)

/-! ## Stamps (R87, R88, R626) -/

/-- The time base is locked. -/
def timeLocked (s : State) : Bool := flag s F.WDN_TIME_STAT_LOCKED

/-- R626: a TAI time in ns as a tick, toward the earlier tick. -/
def taiTick (s : State) (ns : Nat) : Tick := (Int.ofNat (ns / 40) - s.time.taiOfs).toNat

/-- R626: a UTC time in ns as a tick. -/
def utcTick (s : State) (ns : Nat) : Tick := taiTick s (ns + fld s F.WDN_TIME_CFG_LEAP_S * 1000000000)

/-! ## The FIFO of an interface (R36) -/

/-- How many entries the FIFO of an interface holds: at least 16. -/
def fifoDepth (i : Nat) : Nat := 16 + Config.fifoMore i

/-- An item arrives at the FIFO of an interface. DESIGN CHOICE (log 103): an item is one entry, and the core empties the FIFO in
every tick. The Bool says that the item was taken; a full FIFO of an interface without flow control drops it. -/
def fifoTake (i : Nat) (s : State) : Bool × State :=
  let f : FifoSt := if s.fifo.tick = s.time.count then s.fifo else ⟨s.time.count, []⟩
  let n := tabGet 0 f.used i
  if n < fifoDepth i then (true, { s with fifo := { f with used := tabPut 0 f.used i (n + 1) } })
  else (false, { s with fifo := f })

/-- An item of a stream arrives at interface i: f is what it does; where the FIFO is full it is dropped, counted and reported
(R36). -/
def throughFifo (i n : Nat) (f : State → State) (s : State) : State :=
  let r := fifoTake i s
  if r.1 then f r.2
  else report (uncoded .fifoFull (streamUnit n) .warning) (bump (F.ING_DROP_CNT_OVERRUN n) r.2)

/-- An item arrives at interface i, whose standard has flow control of its own: f is what it does; a full FIFO holds the sender back,
and the item is not taken (R36). -/
def heldBack (i : Nat) (f : State → State) (s : State) : State :=
  let r := fifoTake i s
  if r.1 then f r.2 else s

/-! ## Snapshot rings and ingress buffers (R91, R92) -/

/-- The buffer that a camera fills next: neither the newest image nor that of the running snapshot (R92). -/
def fillBuffer (t : StreamSt) : Nat := ((List.range 3).find? fun b => b ≠ t.bufs.1 ∧ b ≠ t.bufs.2).getD 0

/-- A complete sample is written to its stream's ring in HBM, or to its ingress buffer on the die (R91): an image to a third of
the ring, any other sample after the one before it, from the ring's start where it does not fit. DESIGN CHOICE (log 104). -/
def storeSample (n : Nat) (bytes : List Byte) (s : State) : State :=
  let r := (streamDecl s n).ring
  let t := streamSt s n
  let put := fun (o len : Nat) (s : State) => writeBytes false (len / 8 + 2) (r.1 + o) (bytes.take len) s
  if r.2 = 0 then s
  else if n < 16 then
    let b := fillBuffer t
    modStream n (fun t => { t with bufs := (b, t.bufs.2) }) (put (b * (r.2 / 3)) (r.2 / 3) s)
  else
    let o := if t.ringAt + bytes.length ≤ r.2 then t.ringAt else 0
    modStream n (fun t => { t with ringAt := o + min bytes.length r.2 }) (put o r.2 s)

/-! ## Delivery (R40, R89 to R94, R98, R100) -/

/-- A sample that completes in the tick of the running frame's edge, after the edge's row, belongs to that frame's snapshot
(R40). -/
def joinsEdge (s : State) : Bool := s.frame.started && decide (s.frame.edgeTick = s.time.count)

/-- A slice enters the queue of World (R628): by the frame at whose edge it closed, then by stream number. -/
def insertSlice (x : PendSlice) : List PendSlice → List PendSlice
  | [] => [x]
  | y :: ys => if y.frame = x.frame ∧ x.stream < y.stream then x :: y :: ys else y :: insertSlice x ys

/-- A packet of a lidar that completes in the edge tick joins the slice that closed at the edge. -/
def joinSlice (n : Nat) (x : Sample) (s : State) : State :=
  let q := s.wld.pendingSlices
  let mine := fun (y : PendSlice) => decide (y.stream = n ∧ y.frame = s.frame.num)
  let join := fun (y : PendSlice) => if mine y then { y with pkts := x :: y.pkts } else y
  { s with wld := { s.wld with
      pendingSlices := if q.any mine then q.map join else insertSlice ⟨n, s.frame.num, [x]⟩ q } }

/-- R171: a sample of a camera stream comes in; the traversability network runs on every DECIM-th sample of a stream that
STREAM_MASK selects. -/
def travSample (n : Nat) (s : State) : State :=
  let k := (streamSt s n).taken + 1
  let s1 := modStream n (fun t => { t with taken := k }) s
  if n < 16 ∧ maskBit s F.INF_TRAV_CFG_STREAM_MASK n ∧ k % max 1 (fld s F.INF_TRAV_CFG_DECIM) = 0 then
    raiseFlags (((s.image.travFlags.find? fun x => x.1.val = n).map (·.2)).getD []) s1
  else s1

/-- R92, R93: a complete sample becomes the newest of its stream; a lidar packet joins the slice of the frame. -/
def takeIn (n : Nat) (x : Sample) (s0 : State) : State :=
  let s := travSample n s0
  let edge := joinsEdge s
  let put := fun (t : StreamSt) =>
    if edge then { t with newest := some x, snap := some x, bufs := (t.bufs.1, t.bufs.1),
                          snapSlice := if isLidar n then x :: t.snapSlice else t.snapSlice }
    else { t with newest := some x, slice := if isLidar n then x :: t.slice else t.slice }
  let s1 := modStream n put (storeSample n x.bytes s)
  let s2 := if edge && isLidar n then joinSlice n x s1 else s1
  setFlag (F.ING_STREAM_STAT_LINK n) true
    (setFld (F.ING_STREAM_STAT_SAMPLES n) (fld s2 (F.ING_STREAM_STAT_SAMPLES n) + 1) s2)

/-- How many packets the slice holds that the next packet joins. -/
def sliceLen (s : State) (n : Nat) : Nat :=
  if joinsEdge s then (streamSt s n).snapSlice.length else (streamSt s n).slice.length

/-- A sample whose reception is complete: discarded where its stamp is later than its completion (R89), or where the
stream is faulted (R98), or where a slice is full (R93). -/
def deliver (n : Nat) (x : Sample) (s : State) : State :=
  if x.done < x.stamp then
    report { unit := streamUnit n, cls := 0x0A, ev := 3, sev := .warning } (bump (F.ING_DROP_CNT_INTEGRITY n) s)
  else if flag s (F.ING_STREAM_STAT_FAULTED n) then s
  else if isLidar n ∧ sliceLen s n ≥ (streamDecl s n).slice then
    report { unit := streamUnit n, cls := 0x0A, ev := 2, sev := .warning } (bump (F.ING_DROP_CNT_OVERRUN n) s)
  else takeIn n x s

/-- A sample that arrived at this device's own port; a stream wired to this device alone is mirrored to the twin while
Woad is up (R100). DESIGN CHOICE (log 101): also a sample that this device itself discards; the twin judges its own copy. -/
def deliverOwn (n : Nat) (x : Sample) (s : State) : State :=
  let s1 := deliver n x s
  if fld s (F.ING_STREAM_CFG_WIRED n) = 1 ∧ fld s F.WOD_PAIR_STAT_LINK = 1 then
    sendSealed 2 Config.mirrorType x.bytes (fun _ ms => .mirror n x ms) s1
  else s1

/-- The sample in reception is taken away. -/
def clearFilling (n : Nat) (s : State) : State := modStream n (fun t => { t with filling := none }) s

/-- The link of a stream is heard (R99). -/
def hear (n : Nat) (s : State) : State := modStream n (fun t => { t with heard := some s.time.count }) s

/-! ## Cameras (R74 to R78) -/

/-- The streams of a camera port: slot 0 and slot 1 (R72). -/
def camSlots (port : Fin 8) : List Nat := [port.val, port.val + 8]

/-- The stream that a virtual channel of a port maps to (R76): of the port's slots that are wired to this device. -/
def camStream (s : State) (port : Fin 8) (vc : Fin 16) : Option Nat :=
  (camSlots port).find? fun n => wiredHere s n && fld s (F.ING_STREAM_CFG_VC n) = vc.val

/-- A discarded packet of an unmapped virtual channel counts on the port's slot 0. -/
def unmapped (port : Fin 8) (s : State) : State := bump (F.ING_DROP_CNT_OVERRUN port.val) s

/-- A packet on a virtual channel: counted where it is unmapped (R76), f of its stream where that is received; a stream that
is not enabled, or replay, takes nothing. -/
def onChannel (port : Fin 8) (vc : Fin 16) (f : Nat → State → State) (s : State) : State :=
  match camStream s port vc with
  | none => unmapped port s
  | some n => if receives s n then throughFifo port.val n (f n) s else s

/-- An image that is not complete gives way to the next: one that a bad packet made invalid counts under INTEGRITY (R78). -/
def dropImage (n : Nat) (s : State) : State :=
  match (streamSt s n).filling with
  | some f => if f.bad then bump (F.ING_DROP_CNT_INTEGRITY n) s else s
  | none => s

/-- FRAME_START (R36, R77, R87): the arrival tick of an image. -/
def execFrameStart (port : Fin 8) (vc : Fin 16) (s : State) : Host.Outcome State Fault Refusal :=
  .next (live s fun s => onChannel port vc (fun n s =>
    modStream n (fun t => { t with filling := some ⟨s.time.count, [], false, none, 0⟩ }) (dropImage n s)) s)

/-- The accepted long data types (R77) with the bytes that a line of 4,096 pixels takes. -/
def dataTypes : List (BitVec 6 × Nat) := [(0x2A, 4096), (0x2B, 5120), (0x2C, 6144), (0x2E, 8192), (0x1E, 8192)]

/-- CSI2_PACKET (R36, R76 to R78, R627): a long packet's payload joins the image; an uncorrectable header or a wrong CRC makes
the image invalid; Line Start and Line End are ignored. Long packets of other data types are discarded and counted. DESIGN
CHOICE (log 102): under OVERRUN, and so is a packet beyond 4,096 × 3,072 pixels. -/
def execCsi2Packet (port : Fin 8) (vc : Fin 16) (dt : BitVec 6) (hdr : HeaderState) (crcOk : Bool)
    (payload : List Byte) (s : State) : Host.Outcome State Fault Refusal :=
  .next (live s fun s => onChannel port vc (fun n s =>
    let spoil := modStream n fun t => { t with filling := t.filling.map fun f => { f with bad := true } }
    let take := modStream n fun t => { t with filling := t.filling.map fun f =>
      { f with bytes := f.bytes ++ payload, lines := f.lines + 1 } }
    let lines := (((streamSt s n).filling).map (·.lines)).getD 0
    if hdr = .uncorrectable then spoil s
    else if dt.toNat < 0x10 then s
    else
      let s1 := if crcOk then s else spoil s
      match dataTypes.find? fun d => d.1 = dt with
      | none => bump (F.ING_DROP_CNT_OVERRUN n) s1
      | some d =>
        if !crcOk then s1
        else if d.2 < payload.length ∨ 3072 ≤ lines then bump (F.ING_DROP_CNT_OVERRUN n) s1
        else take s1) s)

/-- FRAME_END (R36, R78, R87, R89): the image is complete, and enters the snapshot buffers unless it is invalid. -/
def execFrameEnd (port : Fin 8) (vc : Fin 16) (s : State) : Host.Outcome State Fault Refusal :=
  .next (live s fun s => onChannel port vc (fun n s =>
    match (streamSt s n).filling with
    | none => s
    | some f =>
      let s1 := clearFilling n s
      if f.bad then bump (F.ING_DROP_CNT_INTEGRITY n) s1
      else deliverOwn n ⟨f.arrival - latency s n, s.time.count, f.bytes⟩ s1) s)

/-! ## Lidars (R79 to R81, R93) -/

/-- The value of a field of a packet, whose bytes stand from base on, in the model's unit (R81). -/
def ptValue (f : PtField) (bytes : List Byte) (base : Nat) : Int :=
  let raw := field bytes (base + f.off) f.len
  roundDiv ((if f.sgn then signed (8 * f.len) raw else Int.ofNat raw) * Int.ofNat f.num) (max 1 f.den)

/-- The value lies in the range that its descriptor declares. -/
def ptOk (f : PtField) (v : Int) : Bool := decide (f.lo ≤ v ∧ v ≤ f.hi)

/-- A decoded point (R81): its position in the sensor's frame, in 2^-60 of 1/4096 m, and its time after the packet time in ns;
none where a decoded value lies outside its declared range. -/
def decodePoint (d : PtDesc) (bytes : List Byte) (i : Nat) : Option ((Int × Int × Int) × Nat) :=
  let base := d.hdrLen + i * d.stride
  let a := ptValue d.a bytes base
  let b := ptValue d.b bytes base
  let c := ptValue d.c bytes base
  let off := (d.toff.map fun f => ptValue f bytes base).getD 0
  let ok := ptOk d.a a && ptOk d.b b && ptOk d.c c && (d.toff.all fun f => ptOk f off)
    && (d.intensity.all fun f => ptOk f (ptValue f bytes base))
  let one := (2 : Int) ^ 60
  let pos := if d.spherical then (a * cosA c * cosA b, a * cosA c * sinA b, a * sinA c * 2 ^ 30)
    else (a * one, b * one, c * one)
  if ok then some (pos, off.toNat) else none

/-- The points of a lidar packet, in packet order. -/
def decodePoints (d : PtDesc) (bytes : List Byte) : List (Option ((Int × Int × Int) × Nat)) :=
  (List.range (field bytes d.countOff d.countLen)).map (decodePoint d bytes)

/-- The packet time in ns, where the descriptor has the field and its value is valid. -/
def packetTime (d : PtDesc) (bytes : List Byte) : Option Nat :=
  match d.ptime with
  | some f => if ptOk f (ptValue f bytes 0) then some (ptValue f bytes 0).toNat else none
  | none => none

/-- The stream of a lidar packet by source MAC address and destination UDP port (R72). -/
def lidarStream (s : State) (port : Fin 4) (mac : BitVec 48) (udp : BitVec 16) : Option Nat :=
  [16 + 2 * port.val, 17 + 2 * port.val].find? fun n =>
    receives s n && (streamDecl s n).mac = mac && (streamDecl s n).udp = udp

/-- The stream on which an IP fragment counts, whose UDP port cannot be read. DESIGN CHOICE (log 105): the port's first stream
with its source address, else the port's first stream. -/
def fragmentStream (s : State) (port : Fin 4) (mac : BitVec 48) : Nat :=
  let lo := 16 + 2 * port.val
  if (streamDecl s lo).mac ≠ mac ∧ (streamDecl s (lo + 1)).mac = mac then lo + 1 else lo

/-- The points of a packet that lie outside the range that the descriptor declares (R81). -/
def outOfRange (s : State) (n : Nat) (bytes : List Byte) : Nat :=
  match (streamDecl s n).points with
  | some d => ((decodePoints d bytes).filter (·.isNone)).length
  | none => 0

/-- The stamp of a lidar packet that completes now (R87, R626). -/
def lidarStamp (s : State) (n : Nat) (bytes : List Byte) : Tick :=
  match (streamDecl s n).points with
  | some d =>
    match packetTime d bytes, timeLocked s with
    | some t, true => if d.tai then taiTick s t else utcTick s t
    | _, _ => s.time.count - latency s n
  | none => s.time.count - latency s n

/-- LIDAR_PACKET (R36, R79 to R81, R87, R93): a frame of more than 9,216 bytes or with more than one tag is not accepted. -/
def execLidarPacket (port : Fin 4) (p : LidarPkt) (s : State) : Host.Outcome State Fault Refusal :=
  .next (live s fun s =>
    if p.frameLen > 9216 ∨ p.tags > 1 then s
    else if p.fragment then bump (F.ING_DROP_CNT_OVERRUN (fragmentStream s port p.mac)) s
    else
      match lidarStream s port p.mac p.udp with
      | none => s
      | some n =>
        throughFifo (8 + port.val) n (fun s =>
          deliverOwn n ⟨lidarStamp s n p.bytes, s.time.count, p.bytes⟩
            (bumpBy (F.ING_DROP_CNT_OVERRUN n) (outOfRange s n p.bytes) s)) s)

/-! ## IMUs, GNSS and PPS (R83 to R86) -/

/-- IMU_DRDY (R83, R84): the arrival tick of a burst; a rise during a read counts an overrun. -/
def execImuDrdy (n : Fin 2) (s : State) : Host.Outcome State Fault Refusal :=
  let k := 24 + n.val
  .next (live s fun s =>
    if !receives s k then s
    else if (streamSt s k).filling.isSome then hear k (bump (F.ING_DROP_CNT_OVERRUN k) s)
    else hear k (modStream k (fun t => { t with filling := some ⟨s.time.count, [], false, none, 0⟩ }) s))

/-- IMU_BURST_DONE (R83, R87): the controller reads as many bytes as the image describes; a sample whose declared checksum
fails is discarded and counted. -/
def execImuBurstDone (n : Fin 2) (bytes : List Byte) (sumOk : Bool) (s : State) : Host.Outcome State Fault Refusal :=
  let k := 24 + n.val
  .next (live s fun s =>
    match (streamSt s k).filling with
    | none => s
    | some f =>
      let s1 := clearFilling k s
      if (streamDecl s k).checksum && !sumOk then bump (F.ING_DROP_CNT_INTEGRITY k) s1
      else deliverOwn k ⟨f.arrival - latency s k, s.time.count, padTo (streamDecl s k).bytes bytes⟩ s1)

/-- The set of sentences that a sentence joins (R85): that of its epoch. A sentence of another UTC time begins a new set, and
what no terminator closed is dropped. DESIGN CHOICE (log 106). -/
def epochSet (s : State) (k : Nat) (utc : Option Nat) : Filling :=
  let fresh : Filling := ⟨s.time.count, [], false, none, 0⟩
  match (streamSt s k).filling with
  | none => fresh
  | some f =>
    match f.utcNs, utc with
    | some a, some b => if a = b then f else fresh
    | _, _ => f

/-- NMEA_SENTENCE (R36, R85, R87, R106): accepted sentences gather into the sample of an epoch, which its terminator closes.
The others are discarded and counted. DESIGN CHOICE (log 102): bad checksums under INTEGRITY, other sentences under OVERRUN. -/
def execNmeaSentence (n : Fin 2) (m : NmeaMsg) (s : State) : Host.Outcome State Fault Refusal :=
  let k := 26 + n.val
  .next (live s fun s =>
    if !receives s k then s
    else throughFifo (14 + n.val) k (fun s =>
      if !m.sumOk then bump (F.ING_DROP_CNT_INTEGRITY k) s
      else if m.kind = .other then bump (F.ING_DROP_CNT_OVERRUN k) s
      else
        let s1 := if m.fixValid then { s with time := { s.time with fixAt := modAt n.val (fun _ => some s.time.count) s.time.fixAt } }
          else s
        let old := epochSet s k m.utcNs
        let f : Filling := { old with bytes := old.bytes ++ m.bytes, utcNs := m.utcNs.orElse fun _ => old.utcNs }
        if m.kind ≠ (streamDecl s k).terminator then modStream k (fun t => { t with filling := some f }) s1
        else
          let stamp := match f.utcNs, timeLocked s with
            | some u, true => utcTick s u
            | _, _ => s.time.count - latency s k
          deliverOwn k ⟨stamp, s.time.count, f.bytes⟩ (clearFilling k (hear k s1))) s)

/-- R85: at start the transmit line of each receiver sends the set-up strings of the image, once. -/
def sendSetup (s : State) : State :=
  [0, 1].foldl (fun s n => if (streamDecl s (26 + n)).setup = [] then s else send (.uart n (streamDecl s (26 + n)).setup) s) s

/-! ## The reference of the time base (R103 to R108) -/

/-- R106: a receiver reported a valid fix in the last second. -/
def fixRecent (s : State) (n : Nat) : Bool :=
  match s.time.fixAt.getD n none with
  | some t => s.time.count ≤ t + 25000000
  | none => false

/-- Whether a receiver's pulse may discipline the time base. -/
def ppsEnabled (s : State) (n : Nat) : Bool :=
  if n = 0 then flag s F.WDN_TIME_CFG_PPS0_EN else flag s F.WDN_TIME_CFG_PPS1_EN

/-- R106, R107: a PPS source is valid. -/
def ppsValid (s : State) (n : Nat) : Bool := ppsEnabled s n && fixRecent s n && 1 ≤ s.time.good.getD n 0

/-- The lowest 802.1AS slave port that is synchronised to its grandmaster. -/
def gptpPort (s : State) : Option Nat :=
  if !flag s F.WDN_TIME_CFG_GPTP_EN then none
  else (List.range 4).find? fun p => maskBit s F.WDN_TIME_CFG_SLAVE_MASK p && s.time.gptpSync.getD p false

/-- SRC and PORT by the order of R106; 3 is holdover or free-running. -/
def chooseSource (s : State) : Nat × Nat :=
  if ppsValid s 0 then (0, 0) else if ppsValid s 1 then (1, 0)
  else match gptpPort s with
    | some p => (2, p)
    | none => (3, 0)

/-- The Warden takes its reference (R106, R107): SRC, PORT and LOCKED follow, and entering holdover is a warning. DESIGN CHOICE
(log 107): with an 802.1AS source the time base is locked as soon as the port is synchronised. -/
def takeSource (s : State) : State :=
  let c := chooseSource s
  let locked := c.1 = 2 ∨ (c.1 < 2 ∧ s.time.good.getD c.1 0 ≥ 4)
  let s1 := if c.1 = 3 ∧ fld s F.WDN_TIME_STAT_SRC ≠ 3 then
      report (uncoded .holdover 0x90 .warning) s else s
  let s2 := setFld F.WDN_TIME_STAT_SRC c.1 (setFld F.WDN_TIME_STAT_PORT c.2 (setFlag F.WDN_TIME_STAT_LOCKED locked s1))
  if locked then setFld F.WDN_TIME_STAT_HOLDOVER_S 0 { s2 with time := { s2.time with everLocked := true, holdTicks := 0 } }
  else if c.1 = 3 then s2
  else setFld F.WDN_TIME_STAT_HOLDOVER_S 0 { s2 with time := { s2.time with holdTicks := 0 } }

/-- Discipline (R103, R105): the trim takes away the measured rate error within ±100 ppb, moves by at most 1 ppm per
second, that is 1 ppb in 25,000 ticks and 1 ppm at once, and stays within ±200 ppm; the offset to TAI follows the
reference. -/
def discipline (rateErr : Int) (taiNs : Option Nat) (s : State) : State :=
  let (k, s0) := nextFree s
  let rest := Int.ofNat (Config.freeValue k % 201) - 100
  let most := Int.ofNat (min 1000 ((s.time.count - s.time.trimStep) / 25000))
  let step := clampI (-most) most (rest - rateErr)
  let trim := clampI (-200000) 200000 (s.time.trim + step)
  let ofs := match taiNs with
    | some t => Int.ofNat (t / 40) - Int.ofNat s.time.count
    | none => s.time.taiOfs
  let w := pattern 64 ofs
  setFld F.WDN_TIME_TRIM_TRIM (pattern 32 trim)
    (setFld F.WDN_TAI_OFS_LO_OFS w (setFld F.WDN_TAI_OFS_HI_OFS (w / 2 ^ 32)
      { s0 with time := { s0.time with trim := trim, trimStep := s.time.count, taiOfs := ofs } }))

/-- A PPS edge missing or rejected (R107): the third in a row ends the lock, and the next edge starts a new run. -/
def ppsBad (n : Nat) (s : State) : State :=
  let miss := s.time.miss.getD n 0 + 1
  let lost := miss ≥ 3 ∨ s.time.good.getD n 0 < 4
  { s with time := { s.time with
      miss := modAt n (fun _ => miss) s.time.miss
      good := if lost then modAt n (fun _ => 0) s.time.good else s.time.good
      lastPps := if miss ≥ 3 then modAt n (fun _ => none) s.time.lastPps else s.time.lastPps } }

/-- A PPS edge accepted. -/
def ppsGood (n : Nat) (s : State) : State :=
  { s with time := { s.time with
      miss := modAt n (fun _ => 0) s.time.miss
      good := modAt n (fun g => min 4 (g + 1)) s.time.good
      lastPps := modAt n (fun _ => some s.time.count) s.time.lastPps } }

/-- R445: a secondary with the link up takes the primary as its time reference, ahead of every source of R106. -/
def twinRef (s : State) : Bool :=
  s.twin.linkUp && !s.twin.primary &&
    (decide (s.twin.pair = .pairedB) || decide (s.twin.pair = .degradedB) || decide (s.twin.pair = .monitor))

/-- PPS_EDGE (R86, R103, R105, R107). DESIGN CHOICE (log 108): an edge with no accepted edge before it is the reference for the
next, and is itself neither accepted nor rejected. -/
def execPpsEdge (n : Fin 2) (o : PpsObs) (s : State) : Host.Outcome State Fault Refusal :=
  .next (live s fun s =>
    if o.widthNs < 1000 then s
    else
      match s.time.lastPps.getD n.val none with
      | none => { s with time := { s.time with lastPps := modAt n.val (fun _ => some s.time.count) s.time.lastPps } }
      | some t =>
        let d := s.time.count - t
        if 24993750 ≤ d ∧ d ≤ 25006250 then
          let s1 := takeSource (ppsGood n.val s)
          if fld s1 F.WDN_TIME_STAT_SRC = n.val ∧ ¬ twinRef s then discipline o.rateErr o.taiNs s1 else s1
        else takeSource (ppsBad n.val (bump F.WDN_TIME_STAT_PPS_REJ s)))

/-- PPS_MISSING (R107). -/
def execPpsMissing (n : Fin 2) (s : State) : Host.Outcome State Fault Refusal :=
  .next (live s fun s => takeSource (ppsBad n.val s))

/-- The port takes the slave role of 802.1AS. -/
def isSlave (s : State) (port : Fin 4) : Bool := maskBit s F.WDN_TIME_CFG_SLAVE_MASK port.val

/-- GPTP_SYNC (R82, R105, R106): a slave port is synchronised, and the source in use disciplines the time base. -/
def execGptpSync (port : Fin 4) (o : GptpObs) (s : State) : Host.Outcome State Fault Refusal :=
  .next (live s fun s =>
    if !isSlave s port then s
    else
      let s1 := takeSource { s with time := { s.time with
        gptpSync := modAt port.val (fun _ => true) s.time.gptpSync
        lastSync := modAt port.val (fun _ => some s.time.count) s.time.lastSync } }
      if fld s1 F.WDN_TIME_STAT_SRC = 2 ∧ fld s1 F.WDN_TIME_STAT_PORT = port.val ∧ ¬ twinRef s then
        discipline o.rateErr (some o.taiNs) s1
      else s1)

/-- GPTP_SYNC_TIMER (R82, R108): a master port sends TAI in ns; before the first lock, the free-running time base. -/
def execGptpSyncTimer (port : Fin 4) (s : State) : Host.Outcome State Fault Refusal :=
  .next (live s fun s =>
    if isSlave s port then s
    else
      let ofs := if s.time.everLocked then s.time.taiOfs else 0
      send (.gptp port.val ((Int.ofNat s.time.count + ofs) * 40) (!s.time.everLocked)) s)

/-- GPTP_SYNC_TIMEOUT (R106): the port is no longer synchronised to its grandmaster. -/
def execGptpSyncTimeout (port : Fin 4) (s : State) : Host.Outcome State Fault Refusal :=
  .next (live s fun s =>
    if !isSlave s port then s
    else takeSource { s with time := { s.time with gptpSync := modAt port.val (fun _ => false) s.time.gptpSync } })

/-- PEER_DELAY_TIMER (R82): the exchange of one second, and the delay that it measured. -/
def execPeerDelayTimer (port : Fin 4) (delayNs : Nat) (s : State) : Host.Outcome State Fault Refusal :=
  .next (live s fun s =>
    send (.peerDelayReq port.val)
      { s with time := { s.time with peerDelay := modAt port.val (fun _ => delayNs) s.time.peerDelay } })

/-- The address that the image sets for a port: the first four entries are IPv4 addresses, the next four IPv6. -/
def portAddr (s : State) (port : Fin 4) (v6 : Bool) : Option (BitVec 128) :=
  s.image.enetAddr[if v6 then port.val + 4 else port.val]?

/-- ARP_REQUEST (R80): a request for the port's own address is answered; no other traffic is. -/
def execArpRequest (port : Fin 4) (v6 : Bool) (target : BitVec 128) (s : State) : Host.Outcome State Fault Refusal :=
  .next (live s fun s =>
    if portAddr s port v6 = some target then send (.addressAnswer port.val v6) s else s)

/-! ## Links (R94, R99) -/

/-- The silence after which a stream's link is lost (R99), where loss is silence: 4 nominal periods, or 2 s for GNSS. -/
def silenceLimit (s : State) (n : Nat) : Option Nat :=
  if n < 24 then none
  else if n = 26 ∨ n = 27 then some 50000000
  else some (4 * (streamDecl s n).period)

/-- R99: the stream has been silent for its limit, or its link is one that reports its loss. -/
def silent (s : State) (n : Nat) : Bool :=
  match silenceLimit s n with
  | none => true
  | some k =>
    match (streamSt s n).heard with
    | some t => decide (t + k ≤ s.time.count)
    | none => false

/-- The transport sessions whose message a stream would take (R94, R509): by the PGN of its acceptance filters. -/
def sessionsOf (s : State) (n : Nat) : List TpSession :=
  s.bus.tp.filter fun t => s.image.filters.any fun f => f.stream.val = n && f.name.isSome && f.pgn.toNat = t.pgn

/-- A sample in reception whose link drops is discarded and counted (R94). -/
def dropPartial (n : Nat) (s : State) : State :=
  let tp := sessionsOf s n
  let k := (if (streamSt s n).filling.isSome then 1 else 0) + tp.length
  if k = 0 then s
  else bumpBy (F.ING_DROP_CNT_PARTIAL n) k
    (clearFilling n { s with bus := { s.bus with tp := s.bus.tp.filter fun t => !tp.contains t } })

/-- A stream's link is lost (R94, R99): reported once; a sample still in reception is discarded and counted. -/
def linkLost (n : Nat) (s : State) : State :=
  let s2 := setFlag (F.ING_STREAM_STAT_LINK n) false (dropPartial n s)
  if (streamSt s n).lostTold then s2
  else
    report { unit := streamUnit n, cls := 0x0A, ev := 0, sev := .warning }
      (modStream n (fun t => { t with lostTold := true }) s2)

/-- LINK_LOST (R94, R99): of a stream that is received here. -/
def execLinkLost (stream : Fin 36) (s : State) : Host.Outcome State Fault Refusal :=
  .next (live s fun s => if receives s stream.val && silent s stream.val then linkLost stream.val s else s)

/-- LINK_RETURNED (R99). -/
def execLinkReturned (stream : Fin 36) (s : State) : Host.Outcome State Fault Refusal :=
  let n := stream.val
  .next (live s fun s =>
    let s1 := setFlag (F.ING_STREAM_STAT_LINK n) true (hear n s)
    if (streamSt s n).lostTold then
      report { unit := streamUnit n, cls := 0x0A, ev := 1, sev := .note }
        (modStream n (fun t => { t with lostTold := false }) s1)
    else s1)

/-- A stream becomes enabled at a tick (R95, R98, R99): its test period, its silence and its starved stretch begin anew, and
TEST is pending. -/
def enableStream (n : Nat) (at0 : Tick) (heard : Option Tick) (s : State) : State :=
  setFld (F.ING_STREAM_STAT_TEST n) 1 (modStream n (fun t => { t with
    filling := none, injecting := none, item := [], periodUsed := false, periodFrom := at0, itemFrom := at0,
    starvedTold := false, lostTold := false, heard := heard, passRun := 0 }) s)

/-! ## Test items (R95 to R98) -/

/-- INTERVAL_MS in ticks. -/
def testInterval (s : State) : Nat := 25000 * fld s F.ING_TEST_PERIOD_INTERVAL_MS

/-- TEST_PERIOD (R95): a new test period of an enabled stream begins when the one that runs is over. -/
def execTestPeriod (stream : Fin 36) (s : State) : Host.Outcome State Fault Refusal :=
  let n := stream.val
  .next (live s fun s =>
    let t := streamSt s n
    let k := (s.time.count - t.periodFrom) / max 1 (testInterval s)
    if streamOn s n ∧ t.periodFrom ≤ s.time.count ∧ 1 ≤ k then
      modStream n (fun t => { t with periodUsed := false, periodFrom := t.periodFrom + k * testInterval s }) s
    else s)

/-- R95: the receive side of the stream offers a usable gap: no sample is in reception and no item under way. -/
def usableGap (s : State) (n : Nat) : Bool := (streamSt s n).filling.isNone && (streamSt s n).injecting.isNone

/-- TEST_ITEM_INJECT (R95, R97): the first usable gap of a period takes the period's one item. The spec gives no content of an
item but its kind; for a camera it names an LFSR seeded from the frame number and no polynomial. -/
def execTestItemInject (stream : Fin 36) (s : State) : Host.Outcome State Fault Refusal :=
  let n := stream.val
  .next (live s fun s =>
    if streamOn s n && !(streamSt s n).periodUsed && usableGap s n then
      modStream n (fun t => { t with
        periodUsed := true, injecting := some s.time.count, item := Config.testItem n (frameN s) }) s
    else s)

/-- The decoded values of an item (R96): a lidar's points; of any other item, its bytes. -/
def decodedItem (s : State) (n : Nat) (bytes : List Byte) :
    List (Option ((Int × Int × Int) × Nat)) × List Byte :=
  match (streamDecl s n).points with
  | some d => if isLidar n then (decodePoints d bytes, []) else ([], bytes)
  | none => ([], bytes)

/-- A test item that agrees (R98): two in a row end a fault. -/
def testPassed (n : Nat) (s : State) : State :=
  let s1 := setFld (F.ING_STREAM_STAT_TEST n) 0 (modStream n (fun t => { t with passRun := t.passRun + 1 }) s)
  if flag s (F.ING_STREAM_STAT_FAULTED n) ∧ (streamSt s1 n).passRun ≥ 2 then
    report { unit := streamUnit n, cls := 0x07, ev := 10, sev := .note } (setFlag (F.ING_STREAM_STAT_FAULTED n) false s1)
  else s1

/-- A test item that differs (R98): the running frame is doubt and the stream faulted; what it delivered since the edge enters
no snapshot. -/
def testFailed (n expected observed : Nat) (s : State) : State :=
  let s1 := doubtEvent 6
    { unit := streamUnit n, cls := 0x07, ev := 9, sev := .doubt, detail := expected * 2 ^ 32 + observed } s
  let s2 := setFlag (F.ING_STREAM_STAT_FAULTED n) true (setFld (F.ING_STREAM_STAT_TEST n) 2
    (modStream n (fun t => { t with passRun := 0, newest := t.snap, slice := [], bufs := (t.bufs.2, t.bufs.2) }) s1))
  if n < 32 then setMaskBit F.ING_TEST_FAIL_LO_FAIL n true s2 else setMaskBit F.ING_TEST_FAIL_HI_FAIL (n - 32) true s2

/-- TEST_ITEM_DONE (R96, R98): the processed item stands in the test buffer, and the checker compares its CRC-32 and its decoded
values with those of the item that was injected. -/
def execTestItemDone (stream : Fin 36) (processed : List Byte) (s : State) : Host.Outcome State Fault Refusal :=
  let n := stream.val
  .next (live s fun s =>
    if (streamSt s n).injecting.isNone then s
    else
      let item := (streamSt s n).item
      let s1 := modStream n (fun t => { t with
        injecting := none, item := [], testBuf := processed, itemFrom := s.time.count, starvedTold := false }) s
      if crc32 item = crc32 processed ∧ decodedItem s n item = decodedItem s n processed then testPassed n s1
      else testFailed n (crc32 item) (crc32 processed) s1)

/-- TEST_STARVED (R98): no item has completed for 2 × INTERVAL_MS; a warning once per starved stretch. -/
def execTestStarved (stream : Fin 36) (s : State) : Host.Outcome State Fault Refusal :=
  let n := stream.val
  .next (live s fun s =>
    let t := streamSt s n
    if streamOn s n && !t.starvedTold && decide (t.itemFrom + 2 * testInterval s ≤ s.time.count) then
      report { unit := streamUnit n, cls := 0x07, ev := 11, sev := .warning }
        (setFld (F.ING_STREAM_STAT_TEST n) 3 (modStream n (fun t => { t with starvedTold := true }) s))
    else s)

/-! ## Mirrored samples (R101, R102) -/

/-- A stamp of the twin's time base in this device's (R448): OFS is the primary's time base minus the secondary's; UNC is
taken off; toward the earlier tick. -/
def fromTwin (s : State) (t : Tick) : Tick :=
  let ofs := if s.twin.primary then s.twin.ofs else - s.twin.ofs
  (floorDivI (16 * (Int.ofNat t + ofs) - Int.ofNat s.twin.unc) 16).toNat

/-- MIRROR_SAMPLE (R101, R102): complete at this tick, with the sender's stamp converted. -/
def execMirrorSample (stream : Fin 36) (stamp : Tick) (bytes : List Byte) (s : State) :
    Host.Outcome State Fault Refusal :=
  let n := stream.val
  .next (live s fun s =>
    if streamOn s n ∧ fld s (F.ING_STREAM_CFG_WIRED n) = 2 ∧ fld s F.WOD_PAIR_STAT_LINK = 1 ∧ ¬ s.replay.active then
      deliver n ⟨fromTwin s stamp, s.time.count, bytes⟩ s
    else s)

/-! ## The edge (R40, R55 to R60, R93) -/

/-- R60: the age of a path through which nothing has entered. -/
def maxAge : Nat := 0xFFFFFFFF

/-- A path's age at an edge. -/
def pathAge (edge : Tick) (stamp : Option Tick) : Nat :=
  match stamp with
  | some t => min maxAge (edge - t)
  | none => maxAge

/-- The age class of a stream (R57). -/
def ageClass (n : Nat) : Nat := if n < 16 then 0 else if n < 24 then 1 else if n < 26 then 2 else if n < 28 then 3 else 4

/-- The image marks the stream non-essential. -/
def nonEssential (s : State) (n : Nat) : Bool :=
  if n < 32 then maskBit s F.CND_NONESS_LO_NONESS n else maskBit s F.CND_NONESS_HI_NONESS (n - 32)

/-- The stream contributes to the frame (R55). -/
def contributes (s : State) (n : Nat) : Bool := (streamDecl s n).readSnap || (streamDecl s n).readEpoch

/-- The age of a stream at an edge (R55, R60): the largest of its path ages; of a stream that does not contribute, the age
through the snapshot. -/
def streamAge (s : State) (edge : Tick) (n : Nat) : Nat :=
  let d := streamDecl s n
  let t := streamSt s n
  let snap := pathAge edge (t.snap.map (·.stamp))
  if !contributes s n then snap
  else max (if d.readSnap then snap else 0) (if d.readEpoch then pathAge edge t.epochStamp else 0)

/-- The snapshot of an edge (R40, R93): the newest sample and the slice of every stream. A lidar slice that closes waits
for World to fuse it. The silence of a stream that nothing has been heard of counts from the first edge (R99). -/
def closeSnapshot (s : State) : State :=
  let closed := (List.range 36).filterMap fun n =>
    if (streamSt s n).slice = [] then none else some ⟨n, s.frame.num, (streamSt s n).slice⟩
  { s with
    ing := s.ing.map fun t => { t with
      snap := t.newest, snapSlice := t.slice, slice := [], bufs := (t.bufs.1, t.bufs.1), heard := t.heard.orElse fun _ => some s.time.count }
    wld := { s.wld with pendingSlices := s.wld.pendingSlices ++ closed } }

/-- One stream at an edge (R58, R59): its age, and the excess or the exclusion that follows from it. -/
def judgeStream (edge : Tick) (s : State) (n : Nat) : State :=
  let age := streamAge s edge n
  let late : Bool := contributes s n && fld s (F.CND_AGE_LIMIT_LIMIT (ageClass n)) < age
  let s1 := setFld (F.ING_STREAM_AGE_AGE n) age s
  let first : Bool := late && !(streamSt s n).excess
  let non := nonEssential s n
  let s2 := modStream n (fun t => { t with age := age, excess := late, excluded := late && non }) s1
  if late && !non then
    let s3 := markDoubt 1 s2
    if first then report { unit := streamUnit n, cls := 0x0A, ev := 4, sev := .doubt, detail := age, doubt := true } s3 else s3
  else if first then report { unit := streamUnit n, cls := 0x0A, ev := 5, sev := .warning, detail := age } s2
  else s2

/-- R56: the result age of the frame. -/
def resultAge (s : State) : Nat :=
  ((List.range 36).filterMap fun n =>
    if contributes s n && !(streamSt s n).excluded then some (streamSt s n).age else none).foldl max 0

/-- The ages of an edge (R55 to R59). -/
def ingressEdge (edge : Tick) (s : State) : State :=
  let s1 := (List.range 36).foldl (judgeStream edge) (closeSnapshot s)
  { s1 with frame := { s1.frame with resultAge := resultAge s1 } }

end Sys2Proof.Machine
end

