-- ==== Sys2Proof/Machine/Staged.lean ====
section
/-! DEFINITION. Machine/Staged.lean: staged copies: which registers a swap covers, what it would leave in force, its journal
and its refusal (R14, R560, R566, R568). -/

namespace Sys2Proof.Machine

/-! ## The registers of a swap (R560) -/

/-- The subsystem of R560 under which the register at a live address is swappable. -/
def swapOf (a : Nat) : Option Nat := (liveReg a).bind fun r => r.1.swap

/-- The register at a live address belongs to a subsystem in a mask. -/
def inMask (mask a : Nat) : Bool :=
  match swapOf a with
  | some k => mask.testBit k
  | none => false

/-- The live addresses in a mask whose live or staged copy differs from its reset value; of every other register in the
mask the two copies are equal. -/
def touched (mask : Nat) (s : State) : List Nat :=
  let live := (s.regs.map (·.1)).filter (inMask mask)
  let staged := (s.regs.filter fun x => (stagedReg x.1).isSome).map fun x => x.1 - 0x8000
  live ++ (staged.filter (inMask mask)).filter fun a => !live.contains a

/-- The word in the staged copy of the register at a live address. -/
def stagedWord (s : State) (a : Nat) : Nat := regWord s (a + 0x8000)

/-- The addresses of a mask at which the staged copy differs from the live one. -/
def changed (mask : Nat) (s : State) : List Nat := (touched mask s).filter fun a => stagedWord s a ≠ regWord s a

/-- The value that a field would hold after a swap of a mask. -/
def afterSwap (s : State) (mask : Nat) (f : Fld) : Nat := if inMask mask f.addr then fld s (stagedFld f) else fld s f

/-- The writable fields of the register at a live address. -/
def rwFields (a : Nat) : List FieldSpec :=
  match liveReg a with
  | some (r, _) => r.fields.filter fun f => f.acc = .rw
  | none => []

/-- The image's value of a field of the register at a live address. -/
def imageValue (img : Image) (a : Nat) (f : FieldSpec) : Nat :=
  match liveReg a with
  | some (_, ix) => fieldReset img a ix f
  | none => 0

/-- Staged copies are set to their live values, the keep-out sets and the grants with them (R566, R570). -/
def resetStaged (mask : Nat) (s : State) : State :=
  let s1 := (touched mask s).foldl (fun s a => setReg s (a + 0x8000) (regWord s a)) s
  let s2 := if mask.testBit 3 then { s1 with wld := { s1.wld with koStaged := s1.wld.koLive } } else s1
  if mask.testBit 12 then
    { s2 with swap := { s2.swap with grantsStaged := none, tweakStaged := false } }
  else s2

/-! ## The journal (R568) -/

/-- The model's number of a place in the journal: a register field. -/
def fieldPlace (a lo : Nat) : Nat := a * 32 + lo

/-- The journal with the words of one keep-out set entered; a word that equals the image's is removed. -/
def journalKo (img : Image) (n : Nat) (k : KoSet) (j : Tab Nat) : Tab Nat :=
  let base := koWords (img.keepOut.getD n [])
  let now := koWords k
  (List.range (max base.length now.length)).foldl
    (fun j i => tabPut (base.getD i 0) j (2 ^ 40 + n * 2 ^ 16 + i) (now.getD i 0)) j

/-- The journal with the shared-unit grants entered. -/
def journalGrants (img : Image) (g : List (Nat × Fin 16)) (j : Tab Nat) : Tab Nat :=
  let base := grantWords img.sharedOpen
  let now := grantWords g
  (List.range (max base.length now.length)).foldl
    (fun j i => tabPut (base.getD i 0) j (2 ^ 41 + i) (now.getD i 0)) j

/-- The journal after a swap of a mask: an entry for every field or table word that differs from the image (R568). -/
def journalAfter (mask : Nat) (s : State) : Tab Nat :=
  let field := fun (a : Nat) (j : Tab Nat) (f : FieldSpec) =>
    tabPut (imageValue s.image a f) j (fieldPlace a f.lo) (bitsOf (stagedWord s a) f.hi f.lo)
  let j1 := (touched mask s).foldl (fun j a => (rwFields a).foldl (field a) j) s.swap.journal
  let j2 := if mask.testBit 3 then s.wld.koStaged.zipIdx.foldl (fun j k => journalKo s.image k.2 k.1 j) j1 else j1
  match mask.testBit 12, s.swap.grantsStaged with
  | true, some g => journalGrants s.image g j2
  | _, _ => j2

/-- WDN_JOURNAL_STAT shows the journal. -/
def showJournal (s : State) : State := setFld F.WDN_JOURNAL_STAT_ENTRIES s.swap.journal.length s

/-! ## Status and refusal (R566, R572, R573) -/

/-- UNIT of the swap records (R572). -/
def swapUnit : Nat := 0x81

/-- The record of a refused swap: event 5. -/
def swapRefused (reason mask : Nat) (recentre : Bool) (s : State) : State :=
  report { unit := swapUnit, cls := 0x10, ev := 5, sev := .warning
           detail := reason + frameN s * 2 ^ 8 + mask * 2 ^ 40 + (if recentre then 2 ^ 53 else 0) } s

/-- CND_SWAP_STAT shows a user swap: STATE, STAGED and REASON. -/
def showSwap (state staged reason : Nat) (s : State) : State :=
  setFld F.CND_SWAP_STAT_STATE state (setFld F.CND_SWAP_STAT_STAGED staged (setFld F.CND_SWAP_STAT_REASON reason s))

/-- R462: the refusal of a pair swap, with S and the reason in the record; both devices write it. -/
def pairRefused (edge : FrameNo) (reason : Nat) (s : State) : State :=
  bump F.WOD_SWAP_STAT_REFUSED
    (report { unit := 0x94, cls := 0x0D, ev := 9, sev := .warning, detail := edge.toNat * 2 ^ 8 + reason } s)

/-- What the pair learns of a refusal: a swap that the twin proposed is answered with REFUSE. -/
def tellRefusal (twin : Bool) (edge : Option FrameNo) (reason : Nat) (s : State) : State :=
  match edge with
  | none => s
  | some e =>
    let formed : Bool := decide (s.twin.pair = .pairedA) || decide (s.twin.pair = .pairedB)
    let s1 := if twin then sendWoad 0 (.refuse e reason) s else s
    if formed then pairRefused e reason s1 else s1

/-- The open user swap is refused (R566): its staged copies return to the live values; told is the reason that the pair's
record carries. -/
def refuseUserAs (reason told : Nat) (s : State) : State :=
  match s.swap.user with
  | none => s
  | some o =>
    let s1 := resetStaged o.mask { s with swap := { s.swap with user := none } }
    let s2 := setFld F.CND_SWAP_FRAME_FRAME (frameN s) (showSwap 4 0 reason s1)
    tellRefusal (o.origin = .twin) o.edge told (swapRefused reason o.mask false s2)

/-- The open user swap is refused for a reason of R566. -/
def refuseUser (reason : Nat) (s : State) : State := refuseUserAs reason reason s

/-- The open re-centring swap is refused (R566, R569). -/
def refuseRecentreAs (reason told : Nat) (s : State) : State :=
  match s.swap.recentre with
  | none => s
  | some o =>
    let s1 := bump F.CND_RECENTER_STAT_REFUSED
      (setFld F.CND_RECENTER_STAT_STATE 4 { s with swap := { s.swap with recentre := none } })
    tellRefusal o.twin o.edge told (swapRefused reason 0 true s1)

/-- The open re-centring swap is refused for a reason of R566. -/
def refuseRecentre (reason : Nat) (s : State) : State := refuseRecentreAs reason reason s

/-- Every open swap is refused (R566, R570). -/
def refuseSwaps (reason : Nat) (s : State) : State := refuseUser reason (refuseRecentre reason s)

end Sys2Proof.Machine
end

