-- ==== Sys2Proof/Machine/Restart.lean ====
section
/-! DEFINITION. Machine/Restart.lean: the start of a fabric restart (R411 to R413). -/

namespace Sys2Proof.Machine

/-! ## The start of a restart (R411 to R413) -/

/-- The trigger as R423 numbers it. -/
def triggerCode : RestartTrigger → Nat
  | .madder => 0 | .conductor => 1 | .select => 2 | .injection => 3 | .persist => 4 | .command => 5

/-- A refused restart (R413): fatal, with its record; it asserts FAULT_N and SAFE_STOP_N. -/
def refuseRestart (s : State) : State := fatal { unit := 0x90, cls := 0x09, ev := 6, sev := .fatal } s

/-- The restarts that began within RESTART_WIN minutes; a minute is 1,500,000,000 ticks. -/
def restartsInWindow (s : State) : List Tick :=
  s.safe.restartTimes.filter fun t => s.time.count < t + fld s F.WDN_RESTART_CFG_RESTART_WIN * 1500000000

/-- Step 1 of R412: every steward and unit sequencer halts and every lease is revoked, over the revocation bus. -/
def haltFabric (s : State) : State :=
  let s1 := revokeWhere true (fun _ => true) s
  { s1 with cnd := { s1.cnd with grants := [], pulls := [], ready := [], leaseWaits := [], nodes := [] } }

/-- Replay ends (R591): the live frame counter is in force again. -/
def leaveReplay (s : State) : State :=
  if !s.replay.active then s
  else
    setFld F.SUP_REPLAY_STAT_STATE 0
      { s with replay := { s.replay with active := false, inFrame := false }
               frame := { s.frame with num := s.replay.live } }

/-- A restart trigger (R411, R413): ignored but recorded while a restart runs; refused as fatal past RESTART_MAX;
otherwise the restart begins, and every open swap is refused as RESTART (R566, R570). doubt says that the trigger's event made the running frame doubt (R393). -/
def triggerRestart (t : RestartTrigger) (doubt : Bool) (s0 : State) : State :=
  match s0.safe.restart with
  | some r =>
    report (uncoded .ignoredTrigger 0x90 (openSev 0))
      { s0 with safe := { s0.safe with restart := some { r with ignored := r.ignored ++ [t] } } }
  | none =>
    let recent := restartsInWindow s0
    if recent.length ≥ fld s0 F.WDN_RESTART_CFG_RESTART_MAX then refuseRestart s0
    else
      let s := refuseSwaps 7 (leaveReplay s0)
      let sev := if t = .conductor then Severity.fault else openSev 1
      let s1 := report { unit := 0x90, cls := 0x09, ev := 4, sev := sev, detail := triggerCode t, doubt := doubt } s
      let s2 := haltFabric s1
      let s3 := { s2 with safe := { s2.safe with
        restart := some { trigger := t, began := s2.time.count, phase := .halted, ignored := [] }
        restartTimes := s2.time.count :: recent } }
      setSat F.WDN_SAFE_STAT_RESTARTS (recent.length + 1) (setFlag F.WDN_SAFE_STAT_RESTART true s3)

end Sys2Proof.Machine
end

