-- ==== Sys2Proof/Machine/Conductor.lean ====
section
/-! DEFINITION. Machine/Conductor.lean: scheduling (R318 to R332), leases (R333 to R337), ordered flows (R327 to R329)
and segment engines (R357 to R360). -/

namespace Sys2Proof.Machine

/-! ## Flags, readiness and queues -/

/-- CND_SCHED_STAT and CND_LEASE_STAT show the queues (R361). -/
def showSched (s : State) : State :=
  setFld F.CND_SCHED_STAT_READY s.cnd.ready.length
    (setFld F.CND_SCHED_STAT_RUNNING s.cnd.grants.length
      (setFld F.CND_SCHED_STAT_PULLING s.cnd.pulls.length (showLeases s)))

/-- Whether setting the flag bits would bring a node's readiness count to 256 (R320). -/
def wouldOverflow (s : State) (succ : List (Fin 4096 × Fin 32)) : Bool :=
  succ.any fun (n, _) =>
    match nodeDesc s n.val with
    | none => false
    | some d =>
      let bits := succ.foldl (fun (w : BitVec 32) e => if e.1 = n then w ||| (1#32 <<< e.2.val) else w) (nodeRun s n.val).flags
      bits &&& d.mask = d.mask ∧ (nodeRun s n.val).ready ≥ 255

/-- R319: at a frame edge the flag word of every frame-bound node is cleared and its EDGE bit set. -/
def edgeFlags (s : State) : State :=
  let bound := (imageNodes s).filter fun n => n.2.phase.val ≠ 0
  let s1 := bound.foldl (fun s n => setNode n.1 { nodeRun s n.1 with flags := 0x80000000#32 } s) s
  bound.foldl (fun s n => testReady n.1 s) s1

/-! ## Overruns (R331, R332) -/

/-- The kinds of a task timing overrun, as CND_OVR_CAP codes them. -/
inductive OverrunKind where
  | budget | wait | neverStarted | leaseTerm
deriving DecidableEq, Repr

/-- KIND of CND_OVR_CAP. -/
def overrunCode : OverrunKind → Nat
  | .budget => 0 | .wait => 1 | .neverStarted => 2 | .leaseTerm => 3

/-- A task timing overrun (R332): the running frame is doubt, the record and the capture, the counter, the unit out of
service if it is a tile or a lane, the task's leases revoked and its flow item lost. u is none where no unit ran. In replay it is a warning and no doubt (R588). -/
def overrun (k : OverrunKind) (u : Option Nat) (node : Nat) (s : State) : State :=
  let dom := ((nodeDesc s node).map fun d => d.domain.val).getD 0
  let bound := ((nodeDesc s node).map fun d => decide (d.phase.val ≠ 0)).getD false
  let e : Event := { unit := u.getD 0x81, cls := 0x05, ev := overrunCode k, sev := .doubt
                     detail := node % 4096 + dom * 4096, domain := dom }
  let s1 := if s.replay.active then report { e with sev := .warning } s else doubtEvent 4 e s
  let s2 := capture F.CND_OVR_CAP_VALID
    [(F.CND_OVR_CAP_KIND, overrunCode k), (F.CND_OVR_CAP_FRAMEBOUND, if bound then 1 else 0), (F.CND_OVR_CAP_DOMAIN, dom),
     (F.CND_OVR_CAP_UNIT, u.getD 0), (F.CND_OVR_CAP_TASK, node)] s1
  let s3 := match k with
    | .budget => bump F.CND_OVR_CNT_BUDGET s2
    | .neverStarted => bump F.CND_OVR_CNT_BUDGET s2
    | .wait => bump F.CND_OVR_CNT_WAIT s2
    | .leaseTerm => bump F.CND_OVR_CNT_WAIT s2
  match u with
  | none => s3
  | some u =>
    let s4 := slotLost u <| if u < 64 ∧ k = .budget then
        capture (F.SWP_OVR_STAT_VALID (u / 8) (u % 8))
          [(F.SWP_OVR_STAT_TASK (u / 8) (u % 8), node),
           (F.SWP_OVR_STAT_BLOCK (u / 8) (u % 8), ((((s.cnd.grants.find? fun g => g.unit = u).bind (·.block)).map (·.1)).getD 0) / blockSize s)] s3
      else s3
    if u < 76 then showSched (kermesDue (kermesUnit u) (takeOut false u s4))
    else showSched (dropTask u (revokeWhere false (fun l => l.holder = u) (loseItem u s4)))

/-- R173, R322: the hard stop of a phase. Nodes of the phase leave their queues; a bounded one still ready never started, a
bounded one still running overruns its budget, and a truncatable task ends. -/
def phaseStop (p : Nat) (s : State) : State :=
  let of := fun (n : Nat) => ((nodeDesc s n).map fun d => decide (d.phase.val = p)).getD false
  let bounded := fun (n : Nat) => ((nodeDesc s n).map (·.bounded)).getD false
  let ready := s.cnd.ready.filter fun e => of e.node
  let running := s.cnd.grants.filter fun g => of g.node
  let clear := fun (s : State) (e : ReadyEnt) => setNode e.node { nodeRun s e.node with ready := 0 } s
  let s1 := ready.foldl clear { s with cnd := { s.cnd with ready := s.cnd.ready.filter fun e => ¬ of e.node } }
  let s2 := (ready.filter fun e => bounded e.node).foldl (fun s e => overrun .neverStarted none e.node s) s1
  let s3 := running.foldl (fun s g =>
    if bounded g.node then overrun .budget (some g.unit) g.node s else dropTask g.unit s) s2
  showSched s3

/-! ## Pulling work (R323 to R325) -/

/-- The unit class of a sequencer (R318, R361): tiles and lanes by their numbers, the others as the image numbers them. -/
def unitClass (s : State) (u : Nat) : Option Nat :=
  if u < 64 then some 0 else if u < 72 then some 1 else if u < 76 then some 3
  else (s.image.sequencers.find? fun x => x.1 = u).map fun x => x.2.val

/-- A unit is in its domain's work pool: in service, not halted, and not the tile in its test slice (R22, R244, R324, R412). -/
def inPool (s : State) (u : Nat) : Bool :=
  fabricUp s &&
  !outOfService s u && s.frame.testTile ≠ some u && !s.cnd.retired.contains u && !s.cnd.halted.contains u

/-- R324: a node is eligible for a puller. -/
def eligible (s : State) (u : Nat) (e : ReadyEnt) : Bool :=
  match nodeDesc s e.node with
  | none => false
  | some d => unitClass s u = some d.unitClass.val && unitDomain s u = d.domain.val && inPool s u

/-- R324: the node may go to a puller that is not its affinity. AFF_HOLD is in units of 0.1 µs. -/
def affinityFree (s : State) (e : ReadyEnt) : Bool :=
  match (nodeRun s e.node).affinity with
  | none => true
  | some a => !inPool s a || 2 * (s.time.count - e.entered) ≥ 5 * fld s F.CND_SCHED_CFG_AFF_HOLD

/-- R174, R324: the entry that the Conductor grants to a puller: from the highest queue that holds an eligible node, the first
whose affinity is the puller, else the first that its affinity leaves free. -/
def chooseNode (s : State) (u : Nat) : Option ReadyEnt :=
  let prio := fun (e : ReadyEnt) => ((nodeDesc s e.node).map fun d => d.prio.val).getD 0
  let el := s.cnd.ready.filter fun e => eligible s u e
  match (el.map prio).max? with
  | none => none
  | some top =>
    let q := el.filter fun e => prio e = top
    match q.find? fun e => (nodeRun s e.node).affinity = some u with
    | some e => some e
    | none => q.find? fun e => affinityFree s e

/-- The next item of a flow to grant to a unit: the first in sequence that is neither complete nor running, nor lost on that
unit (R327, R329). -/
def nextItem (s : State) (u f : Nat) : Option FlowItem :=
  s.cnd.items.find? fun i => i.flow = f ∧ ¬ i.complete ∧ i.lostOn ≠ some u ∧ ¬ s.cnd.grants.any fun g => g.item = some (f, i.seq)

/-- R321: a grant takes one readiness; the node leaves the queue, or goes to its tail. more says that a node with REPL
set has further work items, in which case it keeps its place. -/
def takeReadiness (e : ReadyEnt) (more : Bool) (s : State) : State :=
  let r := nodeRun s e.node
  let left := r.ready - 1
  let rest := s.cnd.ready.filter fun x => x.node ≠ e.node
  if more then s
  else if left = 0 then
    setNode e.node { r with ready := 0 } { s with cnd := { s.cnd with ready := rest } }
  else
    setNode e.node { r with ready := left } { s with cnd := { s.cnd with ready := rest ++ [⟨e.node, s.time.count⟩] } }

/-- Records a grant (R24, R324, R325, R331): the pull is answered and the node's affinity becomes the unit. -/
def recordGrant (g : Grant) (s : State) : State :=
  let r := nodeRun s g.node
  let s1 := setNode g.node { r with affinity := some g.unit, taint := 0 } s
  let s2 := { s1 with cnd := { s1.cnd with grants := s1.cnd.grants ++ [{ g with taint := r.taint }], pulls := s1.cnd.pulls.filter (· ≠ g.unit) } }
  let cluster := if g.unit < 64 then g.unit / 8 else g.unit - 64
  let s3 := if g.unit < 72 then countSteward cluster 0x60 1 s2 else s2
  countDie 0x86 1 s3

/-! ## Ordered flows (R327 to R329) -/

/-- What a producer's completed item does (R319, R327, R328): flags for its successors, and an entry into the flow of
every successor that consumes one. -/
def completeItem (succ : List (Fin 4096 × Fin 32)) (s : State) : State :=
  let flows := (succ.filterMap fun e => (nodeDesc s e.1.val).bind (·.flow)).eraseDups
  raiseFlags succ (flows.foldl (fun s f => enterItem f.val s) s)

/-- The producer stalls (R320, R328, R330): a flow of a successor is full, or a readiness count would reach 256. -/
def producerStalls (s : State) (succ : List (Fin 4096 × Fin 32)) : Bool :=
  wouldOverflow s succ || succ.any fun e => ((nodeDesc s e.1.val).bind (·.flow)).any fun f => flowFull s f.val

/-! ## Leases (R333 to R336) -/

/-- R333: how many resources a class has. -/
def leaseCount (cls : Nat) : Nat := [2048, 128, 1024, 64, 64, 32].getD cls 0

/-- R333: the term of a lease in ticks; none where it has none. -/
def leaseTerm (s : State) (l : Lease) : Option Nat :=
  let g := s.cnd.grants.find? fun g => g.unit = l.holder
  let d := g.bind fun g => nodeDesc s g.node
  match l.cls with
  | 0 => some 6250
  | 1 => some ((d.map (·.budget)).getD 0)
  | 2 => if (d.map fun d => decide (d.phase.val ≠ 0)).getD false
         then some (s.frame.edgeTick + fld s F.CND_FRAME_PERIOD_PERIOD - l.time) else some 2500000
  | 3 => some 2500000
  | 4 => some 2500000
  | _ => none

/-- A resource of a class is free: nobody holds it, and no revocation of it waits for its end (R336). -/
def resourceFree (s : State) (cls r : Nat) : Bool := !s.cnd.leases.any fun l => l.cls = cls ∧ l.res = r

/-- A revocation of the resource takes effect in this tick (R27). -/
def revokedNow (s : State) (cls r : Nat) : Bool :=
  s.cnd.revoked.any fun x => x.cls = cls ∧ x.res = r ∧ x.tick = s.time.count

/-- The lowest free resource of a class that no revocation meets in this tick. -/
def freeResource (s : State) (cls : Nat) : Option Nat :=
  (List.range (leaseCount cls)).find? fun r => resourceFree s cls r && !revokedNow s cls r

/-- R27: the grants of free resources that a revocation meets in this tick are returned to the Conductor as refused. -/
def refuseGrants (u cls : Nat) (s : State) : State :=
  (s.cnd.revoked.filter fun x => x.cls = cls ∧ x.tick = s.time.count ∧ resourceFree s cls x.res).foldl
    (fun s x => send (.grantRefused u cls x.res) s) s

/-- PRIO of a client in the client table (R340). -/
def clientPrio (s : State) (n : Nat) : Nat := bitsOf (fld s (F.CND_CLIENT_WORD n 0)) 30 28

/-- R334: a lease granted; one of class 3 or 4 opens a message context of its engine (R357). The Warden's own messages
have priority 8 (R358). -/
def giveLease (u cls res : Nat) (client : Option Nat) (len : Nat) (s : State) : State :=
  let dom := match client with
    | some c => bitsOf (fld s (F.CND_CLIENT_WORD c 0)) 27 24
    | none => unitDomain s u
  let prio := match client with
    | some c => clientPrio s c
    | none => 8
  let ctx : SegCtx := ⟨res, prio, u, client.getD 0xFFFF, 0, len⟩
  let s1 := { s with cnd := { s.cnd with
    leases := s.cnd.leases ++ [⟨cls, res, u, dom, s.time.count, false⟩]
    crypto := if cls = 3 then s.cnd.crypto ++ [ctx] else s.cnd.crypto
    mapld := if cls = 4 then s.cnd.mapld ++ [ctx] else s.cnd.mapld } }
  showSegs (showLeases s1)

/-- The wait of a unit's task begins or ends (R330). -/
def setWait (u : Nat) (w : Option Tick) (s : State) : State :=
  { s with cnd := { s.cnd with grants := s.cnd.grants.map fun g => if g.unit = u then { g with wait := w } else g } }

/-- A freed resource goes to the first waiter of its class (R334). -/
def serveWaiter (cls : Nat) (s : State) : State :=
  match s.cnd.leaseWaits.find? fun w => w.2.1 = cls, freeResource s cls with
  | some w, some r =>
    giveLease w.1 cls r none 0 (setWait w.1 none
      { s with cnd := { s.cnd with leaseWaits := s.cnd.leaseWaits.erase w } })
  | _, _ => showSegs (showLeases s)

/-- The resource of a lease returns to the free pool, its context closed and its scratch wiped (R336). -/
def freeLease (cls res : Nat) (s : State) : State :=
  serveWaiter cls { s with cnd := { s.cnd with
    leases := s.cnd.leases.filter fun l => ¬ (l.cls = cls ∧ l.res = res)
    crypto := if cls = 3 then s.cnd.crypto.filter (fun c => c.ctx ≠ res) else s.cnd.crypto
    mapld := if cls = 4 then s.cnd.mapld.filter (fun c => c.ctx ≠ res) else s.cnd.mapld } }

/-- R337: the Conductor is the faulty party: the Warden revokes every lease, the running frame is doubt, and the
restart starts with a record that says so. -/
def conductorFaulty (s : State) : State :=
  triggerRestart .conductor true (markDoubt 4 (revokeWhere true (fun _ => true) s))

/-! ## Meanings -/

/-- PULL (R323): the pull waits at the Conductor until a grant. -/
def execPull (unit : Nat) (s : State) : Host.Outcome State Fault Refusal :=
  .next (fabric s fun s =>
    if s.cnd.pulls.contains unit ∨ s.cnd.grants.any (fun g => g.unit = unit) then s
    else showSched { s with cnd := { s.cnd with pulls := s.cnd.pulls ++ [unit] } })

/-- The lane of a unit number runs an iteration that is past its budget (R313), before the refine hard stop. -/
def laneIterates (s : State) (u : Nat) : Bool :=
  72 ≤ u && decide (u < 76) && !s.frame.stopped.getD 3 true && match s.slv.lanes[u - 72]? with
    | some l => l.setup && l.outcome.isNone && decide (l.began + fld s F.SLV_ITER_BUDGET_BUDGET < s.time.count)
    | none => false

/-- The node that the Solver lanes run. -/
def laneNode (s : State) : Nat := (((imageNodes s).find? fun n => n.2.unitClass = 3).map (·.1)).getD 0

/-- BUDGET of a node, in ticks. -/
def budgetOf (s : State) (n : Nat) : Nat := ((nodeDesc s n).map (·.budget)).getD 0

/-- TASK_BUDGET_EXPIRY (R173, R241, R313, R331): the unit's grant, or the lane's iteration, overruns its budget. -/
def execTaskBudgetExpiry (unit : Nat) (s : State) : Host.Outcome State Fault Refusal :=
  .next (fabric s fun s =>
    match s.cnd.grants.find? fun g => g.unit = unit with
    | some g => if g.time + budgetOf s g.node < s.time.count then overrun .budget (some unit) g.node s else s
    | none => if laneIterates s unit then overrun .budget (some unit) (laneNode s) s else s)

/-- WAIT_TO of a node in ticks; the descriptor holds it in µs (R318). -/
def waitTicks (s : State) (n : Nat) : Nat := 25 * ((nodeDesc s n).map (·.waitTo)).getD 0

/-- A grant's wait has reached WAIT_TO (R330). A wait on an inter-task queue has no place in the state: of a grant with no
wait noted, the wait is one of that kind. -/
def waitReached (s : State) (g : Grant) : Bool :=
  match g.wait with
  | some t => decide (t + waitTicks s g.node ≤ s.time.count)
  | none => decide (g.time + waitTicks s g.node ≤ s.time.count)

/-- WAIT_TIMEOUT (R149, R234, R330): the unit's wait reaches WAIT_TO. -/
def execWaitTimeout (unit : Nat) (s : State) : Host.Outcome State Fault Refusal :=
  .next (fabric s fun s =>
    match s.cnd.grants.find? fun g => g.unit = unit ∧ waitReached s g with
    | some g =>
      overrun .wait (some unit) g.node
        { s with cnd := { s.cnd with leaseWaits := s.cnd.leaseWaits.filter fun w => w.1 ≠ unit } }
    | none => s)

/-- LEASE_REQUEST (R334, R360): the lowest free resource of the class is granted, or the request waits. -/
def execLeaseRequest (unit : Nat) (cls : Fin 6) (client : Option Nat) (len : Nat) (s : State) :
    Host.Outcome State Fault Refusal :=
  .next (fabric s fun s0 =>
    let s := refuseGrants unit cls.val s0
    match freeResource s cls.val with
    | some r => giveLease unit cls.val r client len s
    | none =>
      let s1 := setWait unit (some s.time.count)
        { s with cnd := { s.cnd with leaseWaits := s.cnd.leaseWaits ++ [(unit, cls.val, s.time.count)] } }
      if cls = 3 then bump F.WDN_CRYPTO_SEG_WAITS s1 else if cls = 4 then bump F.WLD_MAPLD_SEG_WAITS s1 else s1)

/-- LEASE_RELEASE (R335): the holder's release frees the resource. -/
def execLeaseRelease (cls : Fin 6) (res : Nat) (s : State) : Host.Outcome State Fault Refusal :=
  .next (fabric s fun s =>
    if s.cnd.leases.any fun l => l.cls = cls.val ∧ l.res = res ∧ ¬ l.revoking then freeLease cls.val res s else s)

/-- LEASE_RENEW (R335): the term restarts. -/
def execLeaseRenew (cls : Fin 6) (res : Nat) (s : State) : Host.Outcome State Fault Refusal :=
  let now := s.time.count
  let renew := fun (l : Lease) => if l.cls = cls.val ∧ l.res = res ∧ ¬ l.revoking then { l with time := now } else l
  .next (fabric s fun s => { s with cnd := { s.cnd with leases := s.cnd.leases.map renew } })

/-- The term of a lease has passed: its last tick lies behind, so that a release in that tick counts (R335). A class-5
lease has no term. -/
def termPassed (s : State) (l : Lease) : Bool :=
  match leaseTerm s l with
  | some t => decide (l.time + t < s.time.count)
  | none => false

/-- LEASE_TERM_EXPIRY (R335): the lease is revoked and the holding task overruns. -/
def execLeaseTermExpiry (cls : Fin 6) (res : Nat) (s : State) : Host.Outcome State Fault Refusal :=
  .next (fabric s fun s =>
    match s.cnd.leases.find? fun l => l.cls = cls.val ∧ l.res = res ∧ ¬ l.revoking ∧ termPassed s l with
    | some l =>
      let node := ((s.cnd.grants.find? fun g => g.unit = l.holder).map (·.node)).getD 0
      overrun .leaseTerm (some l.holder) node (revokeOne false l s)
    | none => s)

/-- LEASE_REVOKE_CONFIRM (R336): the holder confirms, and the wipe of the resource's scratch begins; with its end the
resource returns to the pool (WIPE_DONE). -/
def execLeaseRevokeConfirm (cls : Fin 6) (res : Nat) (s : State) : Host.Outcome State Fault Refusal :=
  .next (fabric s fun s =>
    if s.cnd.leases.any fun l => l.cls = cls.val ∧ l.res = res ∧ l.revoking then beginWipe (revokedRegion cls.val res) s else s)

/-- EDGE_ACK_TIMEOUT (R337): the Conductor missed its acknowledgement of an edge, due 5 µs after it. -/
def execEdgeAckTimeout (s : State) : Host.Outcome State Fault Refusal :=
  .next (fabric s fun s =>
    if s.frame.started ∧ s.frame.edgeTick + 125 ≤ s.time.count then conductorFaulty s else s)

/-- FLOW_ITEM_COMPLETE (R327): the item completes in its window; items are released strictly in order. -/
def execFlowItemComplete (flow : Fin 256) (seq : Nat) (s : State) : Host.Outcome State Fault Refusal :=
  let mark := fun (i : FlowItem) => if i.flow = flow.val ∧ i.seq = seq then { i with complete := true } else i
  .next (fabric s fun s =>
    releaseItems flow.val 1024 { s with cnd := { s.cnd with items := s.cnd.items.map mark } })

/-- ITEM_TO of a flow in ticks, from the image (R329). -/
def itemTo (s : State) (f : Nat) : Nat := ((s.image.flowTo.find? fun x => x.1.val = f).map (·.2)).getD 0

/-- ITEM_TIMEOUT (R329): an item not complete ITEM_TO after its entry is released void in its place. -/
def execItemTimeout (flow : Fin 256) (seq : Nat) (s : State) : Host.Outcome State Fault Refusal :=
  let mark := fun (i : FlowItem) =>
    if i.flow = flow.val ∧ i.seq = seq ∧ ¬ i.complete ∧ i.entered + itemTo s flow.val ≤ s.time.count then { i with complete := true, void := true } else i
  .next (fabric s fun s =>
    releaseItems flow.val 1024 { s with cnd := { s.cnd with items := s.cnd.items.map mark } })

/-- REVOKE_LEASE (R22, R27): the Warden's command on the revocation bus, whatever the Conductor does; a grant of a free
resource that it meets in its tick is refused. -/
def execRevokeLease (cls : Fin 6) (res : Nat) (s : State) : Host.Outcome State Fault Refusal :=
  .next (live s fun s =>
    if resourceFree s cls.val res then noteRevoked cls.val res 0x90 s
    else revokeWhere true (fun l => l.cls = cls.val ∧ l.res = res) s)

/-- QUARANTINE_UNIT (R22, R25): the Warden's command on the revocation bus. -/
def execQuarantineUnit (unit : Nat) (s : State) : Host.Outcome State Fault Refusal :=
  .next (live s fun s => if unit < 128 then showSched (takeOut true unit s) else s)

/-- HALT_UNIT (R22): a steward or unit sequencer halts; its task ends and it takes no work. -/
def execHaltUnit (unit : Nat) (s : State) : Host.Outcome State Fault Refusal :=
  .next (live s fun s =>
    let s1 := dropTask unit s
    showSched (if s1.cnd.halted.contains unit then s1
      else { s1 with cnd := { s1.cnd with halted := unit :: s1.cnd.halted } }))

/-- TILE_QUARANTINE (R25, R26): the tile's steward quarantines it and posts its number to Select. -/
def execTileQuarantine (tile : TileId) (s : State) : Host.Outcome State Fault Refusal :=
  .next (live s fun s => showSched (takeOut false (tileUnit tile) s))

/-- REVOCATION_CONFIRM_TIMEOUT (R26, R337): the Warden revokes the unit's leases itself, and the Conductor is the faulty
party. -/
def execRevocationConfirmTimeout (unit : Nat) (s : State) : Host.Outcome State Fault Refusal :=
  .next (live s fun s =>
    if s.cnd.leases.any fun l => l.holder = unit ∧ l.revoking then
      conductorFaulty (revokeWhere true (fun l => l.holder = unit) s)
    else s)

/-- ENGINE_SEGMENT_BOUNDARY (R357 to R359): the context served last has 4 KiB less to do; the next served is the one of
highest priority, the first after it in ascending number. A finished message keeps its context until its lease ends. -/
def execEngineSegmentBoundary (mapLoader : Bool) (s : State) : Host.Outcome State Fault Refusal :=
  .next (live s fun s =>
    let cs := if mapLoader then s.cnd.mapld else s.cnd.crypto
    let last := if mapLoader then s.cnd.mapldLast else s.cnd.cryptoLast
    let run := cs.map fun c => if c.ctx = last then
      { c with offset := c.offset + min 4096 c.bytesLeft, bytesLeft := c.bytesLeft - min 4096 c.bytesLeft } else c
    let ready := run.filter fun c => c.bytesLeft > 0
    let top := (ready.map (·.prio)).foldl max 0
    let cand := ready.filter fun c => c.prio = top
    let after := cand.filter fun c => c.ctx > last
    let pick := fun (l : List SegCtx) => (l.map (·.ctx)).min?
    let nextCtx := ((pick after).orElse fun _ => pick cand).getD last
    let served : Bool := cs.any fun c => decide (c.ctx = last ∧ c.bytesLeft > 0)
    let s1 := if mapLoader then { s with cnd := { s.cnd with mapld := run, mapldLast := nextCtx } }
      else (if served then countDie 0x88 1 else id) { s with cnd := { s.cnd with crypto := run, cryptoLast := nextCtx } }
    showSegs (if mapLoader then setFld F.WLD_MAPLD_SEG_LAST nextCtx s1 else setFld F.WDN_CRYPTO_SEG_LAST nextCtx s1))

end Sys2Proof.Machine
end

