-- ==== Sys2Proof/Machine/Requests.lean ====
section
/-! DEFINITION. Machine/Requests.lean: the client table, requests and their answers, long operations (R340 to R356). -/

namespace Sys2Proof.Machine

/-! ## The client table (R340) -/

/-- Word 0 of a client's entry. -/
def cliWord (s : State) (n : Nat) : Nat := fld s (F.CND_CLIENT_WORD n 0)
/-- EN of a client. -/
def cliEn (s : State) (n : Nat) : Bool := (cliWord s n).testBit 31
/-- DOMAIN of a client. -/
def cliDomain (s : State) (n : Nat) : Nat := bitsOf (cliWord s n) 27 24
/-- LAYER of a client. -/
def cliLayer (s : State) (n : Nat) : Nat := bitsOf (cliWord s n) 23 20
/-- The keep-out set of a client, where KO_EN applies it. -/
def cliKeepOut (s : State) (n : Nat) : Option Nat :=
  if (cliWord s n).testBit 19 then some (bitsOf (cliWord s n) 18 16) else none
/-- KEY_SLOT of a client. -/
def cliSlot (s : State) (n : Nat) : Nat := bitsOf (cliWord s n) 15 8
/-- QUOTA of a client. -/
def cliQuota (s : State) (n : Nat) : Nat := bitsOf (fld s (F.CND_CLIENT_WORD n 1)) 18 0
/-- COST_W of a client, 64 bits. -/
def cliWeights (s : State) (n : Nat) : Nat := fld s (F.CND_CLIENT_WORD n 2) + 2 ^ 32 * fld s (F.CND_CLIENT_WORD n 3)

/-- The bit of word 0 that permits a kind of request. -/
def kindBit (kind : Nat) : Nat := [4, 5, 6, 7].getD kind 7

/-- R340: the port that PORT allows. -/
def portAllowed (s : State) (n : Nat) (p : Port) : Bool :=
  match bitsOf (cliWord s n) 3 2, p with
  | 0, .supervisor => true
  | 1, .guidance => true
  | 1, .isobus => true
  | 2, _ => true
  | _, _ => false

/-- R213, R343: supplied records are accepted from clients of a domain. -/
def suppliedOk (s : State) (dom : Nat) : Bool :=
  if dom = 0 then flag s F.CND_CAND_CFG_SUPPLIED_EN else s.image.suppliedEn.any fun d => d.val = dom

/-- R556: a client's domain is inactive. -/
def clientInactive (s : State) (n : Nat) : Bool := s.boot.inactive.any fun d => d.val = cliDomain s n

/-! ## Checks and answers (R343, R348, R349) -/

/-- The pending requests of a client, a standing watch and open long operations included (R343). -/
def pendingCount (s : State) (c : Nat) : Nat :=
  (s.cnd.reqs.filter fun r => r.client = c ∧ ¬ r.answered).length + (s.cnd.ops.filter fun o => o.client = c).length

/-- R342: ARG and SUB are in range for a request. -/
def formatOk (s : State) (kind : Nat) (q : ReqUnit) (params : Nat) : Bool :=
  let a := q.arg.toNat
  q.reservedClear && q.client < 1024 && q.recs.length = (if kind = 0 ∨ kind = 2 then q.sub else 0) &&
  match kind with
  | 0 => 1 ≤ q.sub && q.sub ≤ 64 && a = 0
  | 1 => q.sub = 0 && 1 ≤ a && a ≤ fld s F.SEL_CFG_CLIENT_K_MAX
  | 2 => q.sub ≤ 16 && (q.sub = 0 || (1 ≤ a % 256 && a / 2 ^ 16 = 0))
  | _ =>
    q.sub ≤ 4 &&
    (if q.sub = 0 then 1 ≤ a % 256 && a % 256 ≤ 6 && a / 256 % 256 = 0 && a / 2 ^ 16 ≤ 256 && params = a / 2 ^ 16
     else a < 32)

/-- The operation that a long-operation command names, if it is the client's. -/
def opOf (s : State) (q : ReqUnit) : Option LongOp :=
  s.cnd.ops.find? fun o => o.ctx = q.arg.toNat % 32 ∧ o.client = q.client

/-- R355: the states in which a command is accepted. A command beside a CANCEL in one tick is refused (R339). -/
def commandAccepted (s : State) (q : ReqUnit) : Bool :=
  match opOf s q with
  | none => false
  | some o =>
    o.cancelledAt ≠ some s.time.count &&
    match q.sub with
    | 1 => o.state = .queued || o.state = .running
    | 2 => o.state = .suspended
    | 3 => !(o.state = .cancelling || opFinal o.state)
    | 4 => true
    | _ => false

/-- R343: the standing watch that a watch request with SUB 0 ends. -/
def watchOf (s : State) (q : ReqUnit) : Option PendReq :=
  s.cnd.reqs.find? fun r => r.client = q.client ∧ r.kind = 2 ∧ r.tag = q.tag ∧ ¬ r.answered

/-- R528: the largest unit of a port: 2,048 bytes on the guidance port, 1,785 on the ISOBUS port. A plan-to-goal request's
largest answer has a header and k entries. -/
def overLong (p : Port) (kind : Nat) (q : ReqUnit) : Bool :=
  let need := 16 + (if kind = 1 then 8 * q.arg.toNat else 16 * q.recs.length)
  match p with
  | .supervisor => false
  | .guidance => decide (need > 2048)
  | .isobus => decide (need > 1785)

/-- R502, R528: a START of operation 6 needs a key slot, and operations 5 and 6 are not started from the vehicle bus. -/
def opBarred (s : State) (p : Port) (q : ReqUnit) : Bool :=
  let op := q.arg.toNat % 256
  (op = 6 && cliSlot s q.client = 255) || ((op = 5 || op = 6) && p ≠ .supervisor)

/-- R343: the status with which a request is refused; the first condition that holds decides. -/
def refusal (s : State) (p : Port) (kind : Nat) (q : ReqUnit) (params : Nat) : Option Nat :=
  let c := q.client
  if !cliEn s c || clientInactive s c || s.replay.active then some 0x10
  else if !(cliWord s c).testBit (kindBit kind) || !portAllowed s c p
      || ((kind = 0 || (kind = 2 && q.sub > 0)) && !suppliedOk s (cliDomain s c))
      || (kind = 3 && q.sub = 0 && opBarred s p q) then some 0x11
  else if !formatOk s kind q params || overLong p kind q || q.recs.any (fun r => r.kind ≠ 2 ∨ r.hitch = 3) then some 0x13
  else if q.recs.any fun r => r.layer.val ≠ cliLayer s c then some 0x14
  else if pendingCount s c ≥ 4 then some 0x12
  else if kind = 3 && q.sub = 0 && s.cnd.ops.length ≥ 32 then some 0x16
  else if (kind = 3 && q.sub ≠ 0 && !commandAccepted s q) || (kind = 2 && q.sub = 0 && (watchOf s q).isNone) then some 0x17
  else none

/-- An answer to a request unit at once (R343, R348). -/
def answerNow (p : Port) (kind : Nat) (q : ReqUnit) (status : Nat) (s : State) : State :=
  sendAnswer { client := q.client, kind := kind, status := status, tag := q.tag, frame := s.frame.num, port := p,
                  body := [], flags := 0, report := if kind = 3 then (opOf s q).map opReport else none } s

/-- A refused request (R343): counted, captured first since last cleared, answered at once; supplied records refused
under R190 count under OTHER. -/
def refuseReq (p : Port) (kind : Nat) (q : ReqUnit) (status : Nat) (s : State) : State :=
  let bad := (q.recs.filter fun r => r.kind ≠ 2 ∨ r.hitch = 3 ∨ r.layer.val ≠ cliLayer s q.client).length
  let s1 := if status = 0x13 ∨ status = 0x14 then { s with swp := { s.swp with refused := s.swp.refused + bad } } else s
  answerNow p kind q status
    (capture F.CND_REQ_CAP_VALID
      [(F.CND_REQ_CAP_KIND, kind), (F.CND_REQ_CAP_STATUS, status), (F.CND_REQ_CAP_CLIENT, q.client)]
      (bump F.CND_REQ_STAT_REFUSED s1))

/-- R62: the first frame that considers a request received now. One received in the tick of an edge, after it, belongs
to the frame of that edge. -/
def firstFrame (s : State) : FrameNo :=
  if s.time.count = s.frame.edgeTick ∧ s.frame.started then s.frame.num else s.frame.num + 1

/-- A pending request of kinds 0 to 2 from its unit. -/
def pendReq (s : State) (p : Port) (kind : Nat) (q : ReqUnit) (g : Option Goal) : PendReq :=
  { client := q.client, kind := kind, tag := q.tag, arg := q.arg, port := p, recs := q.recs, goal := g,
    received := s.time.count, first := firstFrame s, indices := [], active := false, lastOut := [],
    lastAns := firstFrame s, answered := false }

/-- A request is checked and, if it is not refused, handled by f and counted (R343). -/
def takeRequest (p : Port) (kind : Nat) (q : ReqUnit) (params : Nat) (f : State → State) (s : State) : State :=
  match refusal s p kind q params with
  | some st => refuseReq p kind q st s
  | none => f (bump F.CND_REQ_STAT_ACCEPTED s)

/-- A request takes a pending slot. -/
def addPending (r : PendReq) (s : State) : State := { s with cnd := { s.cnd with reqs := s.cnd.reqs ++ [r] } }

/-- The answer of a pending request, sent with the frame's answers (R348). -/
def queueAnswer (r : PendReq) (status flags : Nat) (body : List (BitVec 64)) (s : State) : State :=
  { s with cnd := { s.cnd with answers := s.cnd.answers ++
    [{ client := r.client, kind := r.kind, status := status, tag := r.tag, frame := s.frame.num, port := r.port,
       body := body, flags := flags, report := none }] } }

/-- A pending request ends: it leaves its slot. -/
def endReq (r : PendReq) (s : State) : State := { s with cnd := { s.cnd with reqs := s.cnd.reqs.erase r } }

/-! ## Meanings: requests -/

/-- PATH_CHECK (R62, R343, R344). -/
def takePathCheck (port : Port) (q : ReqUnit) (s : State) : State :=
  fabric s (takeRequest port 0 q 0 fun s => addPending (pendReq s port 0 q none) s)

/-- PATH_CHECK: the request is taken. -/
def execPathCheck (port : Port) (q : ReqUnit) (s : State) : Host.Outcome State Fault Refusal := .next (takePathCheck port q s)

/-- GOAL_WAIT_EXPIRY (R345): a goal request still waiting for a list is answered EXPIRED. -/
def execGoalWaitExpiry (client : Nat) (tag : Word32) (s : State) : Host.Outcome State Fault Refusal :=
  .next (fabric s fun s =>
    match s.cnd.reqs.find? fun r => r.client = client ∧ r.tag = tag ∧ r.kind = 1 ∧ ¬ r.active ∧
        fld s F.CND_SCHED_CFG_GOAL_WAIT ≤ frameDist r.first s.frame.num with
    | some r => queueAnswer r 0x1B 0 [] (endReq r s)
    | none => s)

/-- CORRIDOR_WATCH (R343, R347): the watch stands; one with SUB 0 is an end. -/
def takeCorridorWatch (port : Port) (q : ReqUnit) (s : State) : State :=
  fabric s (takeRequest port 2 q 0 fun s =>
    match q.sub, watchOf s q with
    | 0, some r => answerNow port 2 q 0x00 (endReq r s)
    | 0, none => s
    | _, _ => addPending (pendReq s port 2 q none) s)

/-- CORRIDOR_WATCH: the request is taken. -/
def execCorridorWatch (port : Port) (q : ReqUnit) (s : State) : Host.Outcome State Fault Refusal := .next (takeCorridorWatch port q s)

/-- CORRIDOR_WATCH_END (R347): the standing watch of the same TAG ends, and DONE is the answer. -/
def execCorridorWatchEnd (port : Port) (q : ReqUnit) (s : State) : Host.Outcome State Fault Refusal :=
  let q0 := { q with sub := 0, recs := [] }
  .next (fabric s (takeRequest port 2 q0 0 fun s =>
    match watchOf s q0 with
    | some r => answerNow port 2 q0 0x00 (endReq r s)
    | none => s))

/-! ## Meanings: long operations (R351 to R356) -/

/-- The lowest free long-operation context. -/
def freeCtx (s : State) : Nat :=
  ((List.range 32).find? fun c => ¬ s.cnd.ops.any fun o => o.ctx = c).getD 0

/-- START (R352, R355): a context opens in state QUEUED with its region leased; its first unit starts no earlier than
the next edge. -/
def takeStart (port : Port) (q : ReqUnit) (params : List Byte) (s : State) : State :=
  let q0 := { q with sub := 0, recs := [] }
  fabric s (takeRequest port 3 q0 params.length fun s =>
    let c := freeCtx s
    let o : LongOp :=
      { ctx := c, client := q.client, op := q.arg.toNat % 256, state := .queued, port := port, tag := q.tag,
        params := params, unitsDone := 0, unitsTotal := 0, slots := [], abandons := 0, notBefore := s.frame.num + 1,
        unitStart := none, started := false, cancelledAt := none }
    let s1 := { s with cnd := { s.cnd with ops := s.cnd.ops ++ [o] } }
    sendAnswer (opAnswer s o 0x03) (showOp c (giveLease 0x81 5 c (some q.client) 0 s1)))

/-- START: the request is taken. -/
def execStart (port : Port) (q : ReqUnit) (params : List Byte) (s : State) : Host.Outcome State Fault Refusal := .next (takeStart port q params s)

/-- The tile and engine leases of an operation are released: those of the units that run its nodes and of its client's
engine contexts; its region stays (R355). -/
def releaseOpLeases (o : LongOp) (s : State) : State :=
  let runs := fun (u : Nat) => s.cnd.grants.any fun g => g.unit = u ∧ s.image.opNodes.contains (o.op, g.node)
  let mine := fun (l : Lease) =>
    (l.cls ≠ 5 ∧ ¬ l.revoking ∧ runs l.holder) ∨
    (l.cls = 3 ∧ s.cnd.crypto.any fun c => c.ctx = l.res ∧ c.keySlot = o.client)
    ∨ (l.cls = 4 ∧ s.cnd.mapld.any fun c => c.ctx = l.res ∧ c.keySlot = o.client)
  (s.cnd.leases.filter mine).foldl (fun s l => freeLease l.cls l.res s) s

/-- A suspension takes effect (R355): at a work-unit boundary, or at once where no unit runs. -/
def suspendNow (o : LongOp) (s : State) : State :=
  let o' := { o with state := OpState.suspended, unitStart := none }
  sendAnswer (opAnswer s o' 0x04) (setOp o' (releaseOpLeases o s))

/-- SUSPEND (R355). -/
def takeSuspend (port : Port) (q : ReqUnit) (s : State) : State :=
  let q0 := { q with sub := 1, recs := [] }
  fabric s (takeRequest port 3 q0 0 fun s =>
    match opOf s q0 with
    | none => s
    | some o =>
      let o' := { o with state := OpState.suspending, tag := q.tag, port := port }
      let s1 := sendAnswer (opAnswer s o' 0x03) (setOp o' s)
      if o.unitStart.isSome then s1 else suspendNow o' s1)

/-- SUSPEND: the request is taken. -/
def execSuspend (port : Port) (q : ReqUnit) (s : State) : Host.Outcome State Fault Refusal := .next (takeSuspend port q s)

/-- RESUME (R355): the operation runs from its valid checkpoint from the next edge. -/
def takeResume (port : Port) (q : ReqUnit) (s : State) : State :=
  let q0 := { q with sub := 2, recs := [] }
  fabric s (takeRequest port 3 q0 0 fun s =>
    match opOf s q0 with
    | none => s
    | some o =>
      let o' := { o with
        state := OpState.running, tag := q.tag, port := port, notBefore := s.frame.num + 1, unitStart := none
        unitsDone := ((validCkpt o).map (·.units)).getD 0 }
      sendAnswer (opAnswer s o' 0x03) (setOp o' s))

/-- RESUME: the request is taken. -/
def execResume (port : Port) (q : ReqUnit) (s : State) : Host.Outcome State Fault Refusal := .next (takeResume port q s)

/-- An operation begins to be cancelled (R355): its unit stops, its leases go, and the wipe of its region begins. -/
def beginCancel (o : LongOp) (s : State) : State :=
  let o' := { o with state := OpState.cancelling, unitStart := none, cancelledAt := some s.time.count }
  beginWipe (.longOp (Fin.ofNat 32 o.ctx)) (setOp o' (releaseOpLeases o s))

/-- CANCEL (R355): CANCELLED is answered once the wipe is complete. -/
def takeCancel (port : Port) (q : ReqUnit) (s : State) : State :=
  let q0 := { q with sub := 3, recs := [] }
  fabric s (takeRequest port 3 q0 0 fun s =>
    match opOf s q0 with
    | none => s
    | some o => beginCancel { o with tag := q.tag, port := port } s)

/-- CANCEL: the request is taken. -/
def execCancel (port : Port) (q : ReqUnit) (s : State) : Host.Outcome State Fault Refusal := .next (takeCancel port q s)

/-- QUERY (R355): PROGRESS with the operation report. -/
def takeQuery (port : Port) (q : ReqUnit) (s : State) : State :=
  let q0 := { q with sub := 4, recs := [] }
  fabric s (takeRequest port 3 q0 0 fun s => answerNow port 3 q0 0x04 s)

/-- QUERY: the request is taken. -/
def execQuery (port : Port) (q : ReqUnit) (s : State) : Host.Outcome State Fault Refusal := .next (takeQuery port q s)

/-- R353: the checkpoint slot that is not valid is written with the next sequence number. -/
def writeCkpt (s : State) (o : LongOp) (units : Nat) (partials : List (List Nat)) : List Ckpt :=
  let seq := ((validCkpt o).map (·.seq)).getD 0
  let new : Ckpt := { seq := seq + 1, crcOk := true, frame := s.frame.num, units := units, partials := partials }
  match validCkpt o with
  | none => [new]
  | some v => [v, new]

/-- WORK_UNIT_TIMEOUT (R354): a unit not ended 2 ms after its first task started is abandoned. -/
def execWorkUnitTimeout (ctx : Fin 32) (s : State) : Host.Outcome State Fault Refusal :=
  .next (fabric s fun s =>
    match s.cnd.ops.find? fun o => o.ctx = ctx.val ∧ o.started ∧ (o.unitStart.map fun t => decide (t + 50000 ≤ s.time.count)) = some true with
    | some o => abandonUnit o s
    | none => s)

/-- R350: a restart ends every pending request and long operation as REVOKED; the answers go out in the first frame
after it. -/
def revokeRequests (s : State) : State :=
  let s1 := s.cnd.reqs.foldl (fun s r => queueAnswer r 0x18 0 [] s) s
  let answers := s.cnd.ops.map fun o => opAnswer s { o with state := OpState.revoked } 0x18
  let s2 := { s1 with cnd := { s1.cnd with reqs := [], ops := [], answers := s1.cnd.answers ++ answers } }
  (s.cnd.ops.map (·.ctx)).foldl (fun s c => showOp c s) s2

/-- R352: at an edge, a queued operation whose time has come runs, and a running one without a unit starts one. -/
def opsEdge (s : State) : State :=
  let go := fun (o : LongOp) =>
    if (o.state = .queued ∨ o.state = .running) ∧ o.unitStart.isNone ∧ frameDist o.notBefore s.frame.num < 2 ^ 31 then
      { o with state := OpState.running, unitStart := some s.time.count, started := false }
    else o
  (s.cnd.ops.map (·.ctx)).foldl (fun s c => showOp c s) { s with cnd := { s.cnd with ops := s.cnd.ops.map go } }

/-- R346: the order of the requests that a frame considers: PRIO first, then client number from P_N onward, then the
order of reception. -/
def requestOrder (s : State) (rs : List PendReq) : List PendReq :=
  let rank := fun (r : PendReq) => (7 - clientPrio s r.client) * 1024 + (r.client + 1024 - frameN s % 1024) % 1024
  rs.mergeSort fun a b => rank a ≤ rank b

end Sys2Proof.Machine
end

