-- ==== Sys2Proof/Machine/WorldRows.lean ====
section
/-! DEFINITION. Machine/WorldRows.lean: what World does on its commands and at an edge: fusion of slices (R113 to R117,
R137, R628), SOLID holds (R146), the window, the epoch and its publication (R110, R124, R132, R137 to R145, R622) and
re-centring (R142, R143). -/

namespace Sys2Proof.Machine

/-! ## Settings and poses -/

/-- The pose track at a tick (R110, R113). DESIGN CHOICE (log 114): its newest entry at or before the tick, else its oldest; no
interpolation between entries and no extrapolation past them. -/
def poseAt (s : State) (t : Tick) : Option Pose := (s.wld.pose.find? fun p => p.tick ≤ t).orElse fun _ => s.wld.pose.getLast?

/-- The edge state of the running frame (R195), as its edge found it. -/
def edgePose (s : State) : Pose := s.held.edge

/-- R113: the pose track covers a time to within 5 ms. -/
def poseCovers (s : State) (t : Tick) : Bool :=
  s.wld.pose.any fun p => p.tick ≤ t + 125000 && t ≤ p.tick + 125000

/-- The geometry layer of a number, as the tiles hold it (R204). -/
def layerOf (s : State) (n : Nat) : Option Layer := (s.held.layers.find? fun l => l.1 = n).map (·.2)

/-- The motion client of a domain (R187); client 0 by default. -/
def motionClient (s : State) (dom : Nat) : Nat := ((s.image.motionClient.find? fun x => x.1.val = dom).map (·.2)).getD 0

/-- The layer of the machine itself. DESIGN CHOICE (log 115): the vehicle's own sphere set is that of the layer of domain 0's
motion client, in World's master. -/
def ownLayer (s : State) : Option Layer :=
  (s.wld.layers.find? fun l => l.1 = cliLayer s (motionClient s 0)).map (·.2)

/-- R117: the point lies inside a sphere of the vehicle's own set at the pose of its time, each radius grown by 0.05 m:
25 d² < (20 r + 1,024)² with d in 1/4096 m and r in 1/1024 m. DESIGN CHOICE (log 115): of the spheres that are active for the
implement state of that pose. -/
def insideSelf (s : State) (ter : Terrain) (p : FusedPoint) : Bool :=
  match ownLayer s, poseAt s p.t with
  | some l, some e =>
    let c := edgeCfg l e
    let down := (poseOf l e.down c).down
    l.spheres.any fun sp =>
      let q := centre ter c sp
      activeAt sp down &&
        decide (25 * ((p.px - q.1) ^ 2 + (p.py - q.2.1) ^ 2 + (p.pz - q.2.2) ^ 2) < (20 * Int.ofNat sp.radius + 1024) ^ 2)
  | _, _ => false

/-! ## Points (R81, R113, R114) -/

/-- A position in the sensor's frame, in 2^-60 of 1/4096 m, brought into the local frame at a pose, rounded to nearest once, in
1/4096 m: turned and placed as the sensor is mounted, then turned with the vehicle's heading. -/
def placeAt (mount : Int × Int × Int) (turn : List Int) (e : Pose) (q : Int × Int × Int) : Int × Int × Int :=
  let row := fun (i : Nat) => turn.getD (3 * i) 0 * q.1 + turn.getD (3 * i + 1) 0 * q.2.1 + turn.getD (3 * i + 2) 0 * q.2.2
  let vx := row 0 + mount.1 * 2 ^ 90
  let vy := row 1 + mount.2.1 * 2 ^ 90
  let vz := row 2 + mount.2.2 * 2 ^ 90
  let th := Int.ofNat (e.thetas.getD 0 0).toNat
  (roundDiv (e.x * 2 ^ 120 + vx * cosA th - vy * sinA th) (2 ^ 120),
   roundDiv (e.y * 2 ^ 120 + vx * sinA th + vy * cosA th) (2 ^ 120), roundDiv (e.z * 2 ^ 90 + vz) (2 ^ 90))

/-- A point of a lidar packet brought into the local frame as its descriptor mounts the sensor. -/
def placePoint (d : PtDesc) (e : Pose) (q : Int × Int × Int) : Int × Int × Int := placeAt d.mount d.turn e q

/-- The points of a packet with the times at which they were measured, in packet order. -/
def packetPoints (d : PtDesc) (x : Sample) : List ((Int × Int × Int) × Tick) :=
  (decodePoints d x.bytes).filterMap fun q => q.map fun p => (p.1, x.stamp + p.2 / 40)

/-- The points of a slice, in reception order of its packets (R628). -/
def slicePoints (s : State) (sl : PendSlice) : List ((Int × Int × Int) × Tick) :=
  match (streamDecl s sl.stream).points with
  | some d => sl.pkts.reverse.flatMap (packetPoints d)
  | none => []

/-- R113, R114: a point de-skewed with the pose track at its own time, with the sensor origin at that time. -/
def deskew (s : State) (d : PtDesc) (q : (Int × Int × Int) × Tick) : FusedPoint :=
  let e := (poseAt s q.2).getD Pose.zero
  let p := placePoint d e q.1
  let o := placePoint d e (0, 0, 0)
  { t := q.2, px := p.1, py := p.2.1, pz := p.2.2, ox := o.1, oy := o.2.1, oz := o.2.2 }

/-- The de-skewed points of a slice: those whose time the pose track covers (R113). -/
def fusedPoints (s : State) (sl : PendSlice) : List FusedPoint :=
  match (streamDecl s sl.stream).points with
  | some d => ((slicePoints s sl).filter fun q => poseCovers s q.2).map (deskew s d)
  | none => []

/-! ## Meanings -/

/-- R145: the slots of the epoch in force leave room for every brick that an epoch with the data d would change. -/
def slotRoom (s : State) (d : WorldData) : Bool :=
  let g := fuseCfg s
  let boxes := occupiedBoxes s.wld.prior s.wld.originF g d
  let near := (nearCells boxes g d (s.held.edge.x, s.held.edge.y, 32 * colHeight d s.wld.prior s.wld.originF
    (columnOf s.held.edge.x) (columnOf s.held.edge.y))).1
  decide (slotChanges s.wld.slots s.wld.boxes boxes near ≤ 10240 - s.wld.slots.length)

/-- SLICE_FUSED (R113 to R117, R137, R145, R628): the slice whose turn it is is fused whole into the data of the next epoch; one
of another stream waits for its turn, and so does one for whose bricks no slots are left. A point at whose time the pose
track has a gap is dropped and counted (R113, R146). -/
def execSliceFused (stream : Fin 36) (s : State) : Host.Outcome State Fault Refusal :=
  .next (fabric s fun s =>
    match s.wld.pendingSlices with
    | [] => s
    | sl :: rest =>
      if sl.stream ≠ stream.val then s
      else
        let pts := fusedPoints s sl
        let gaps := (slicePoints s sl).length - pts.length
        let ter := terrainOf s.wld.nxt s.wld.prior s.wld.originF (fuseCfg s)
        let nxt := fuseSlice s.wld.prior s.wld.originF (fuseCfg s) (insideSelf s ter) s.wld.nxt pts
        if pts ≠ [] ∧ !slotRoom s nxt then s
        else
          let s1 := if gaps = 0 then s
            else setFlag F.WLD_ERR_STAT_POSE_GAP true { s with wld := { s.wld with gapPoints := s.wld.gapPoints + gaps } }
          modStream stream.val (fun t => { t with
              warmFrom := t.warmFrom <|> sl.pkts.getLast?.map (·.stamp)
              fusedStamp := sl.pkts.head?.map (·.stamp), fusedNow := t.fusedNow ++ sl.pkts.reverse })
            { s1 with
              wld := { s1.wld with nxt := nxt, pendingSlices := rest }
              mad := { s1.mad with fused := s1.mad.fused ++ pts.filter fun p => !insideSelf s ter p } })

/-- SOLID_HOLD_EXPIRY (R146): the 250 ms hold of a cell ends; cell is CELL of R126. -/
def execSolidHoldExpiry (cell : Nat) (s : State) : Host.Outcome State Fault Refusal :=
  let held := fun (x : Nat × Option Tick) =>
    let c := dec3 x.1
    decide (cellCode c.1 c.2.1 c.2.2 = cell) && x.2.any fun t => decide (t ≤ s.time.count)
  .next (fabric s fun s =>
    { s with wld := { s.wld with nxt := { s.wld.nxt with solid := s.wld.nxt.solid.filter fun x => !held x } } })

/-! ## Re-centring (R142, R143, R569) -/

/-- R142: the shift of a new origin, in 1/4096 m: each coordinate to the nearest multiple of 16,384 units. -/
def recentreShift (e : Pose) : Int × Int := (roundDiv e.x 16384 * 16384, roundDiv e.y 16384 * 16384)

/-- R142: the vehicle origin lies more than 512 m from the local origin. -/
def recentreDue (e : Pose) : Bool := decide (e.x ^ 2 + e.y ^ 2 > 2097152 ^ 2)

/-- A pose-track entry moved by a shift. -/
def shiftPose (dx dy : Int) (p : Pose) : Pose := { p with x := p.x - dx, y := p.y - dy }

/-- The field-frame position of the local origin shows in WLD_ORIGIN_FX, FY and FZ. -/
def showOrigin (s : State) : State :=
  setFld F.WLD_ORIGIN_FX_POS (pattern 32 s.wld.originF.1)
    (setFld F.WLD_ORIGIN_FY_POS (pattern 32 s.wld.originF.2.1)
      (setFld F.WLD_ORIGIN_FZ_POS (pattern 32 s.wld.originF.2.2)
        (setFld F.WLD_ORIGIN_GEN_GEN s.wld.originGen s)))

/-- R143: the re-centring edge: every held position moves by the shift, and ORIGIN_GEN increments. The field-frame
position of the origin is kept where a prior is loaded (R622). -/
def applyRecentre (dx dy : Int) (s : State) : State :=
  let sx := dx * 5 / 16384
  let sy := dy * 5 / 16384
  let w := s.wld
  let f := w.originF
  let point := fun (p : FusedPoint) => { p with px := p.px - dx, py := p.py - dy, ox := p.ox - dx, oy := p.oy - dy }
  let moveV := fun (v : VTraj) => { v with edge := shiftPose dx dy v.edge, originGen := (v.originGen + 1) % 65536 }
  showOrigin { s with
    wld := { w with
      cur := shiftWorld w.cur sx sy, nxt := shiftWorld w.nxt sx sy
      l2hold := w.l2hold.map fun x => (shiftKey (-sx) (-sy) x.1, x.2)
      boxes := w.boxes.map (shiftBox (-8 * sx) (-8 * sy))
      near := w.near.map (shiftKey (-sx) (-sy))
      denied := w.denied.map (shiftKey (-sx) (-sy))
      slots := w.slots.map fun x => { x with cell := shiftKey (-sx) (-sy) x.cell }
      rebuild := w.rebuild.map fun x => (shiftKey (-sx) (-sy) x.1, x.2)
      pose := w.pose.map (shiftPose dx dy)
      originGen := (w.originGen + 1) % 65536
      originF := if w.prior.loaded then (f.1 + dx, f.2.1 + dy, f.2.2) else f }
    umb := { s.umb with v := s.umb.v.map moveV }
    mad := { s.mad with
      fused := s.mad.fused.map point
      points := s.mad.points.map fun p => { p with x := p.x - dx, y := p.y - dy } } }

/-! ## The edge -/

/-- R129: h_v, the terrain height under the vehicle origin: the z of the origin less ORIGIN_H where its column has no
height from a source. -/
def heightUnder (s : State) (e : Pose) : Int :=
  let w := s.wld
  let i := floorDivI (5 * e.x) 4096
  let j := floorDivI (5 * e.y) 4096
  let c := colAt w.nxt i j
  let prior := (priorCol w.prior w.originF i j).bind (·.height)
  let known := c.height.isSome || prior.isSome || c.lowest.isSome || (w.placed && columnIn w.nxt.win i j)
  if known then colHeight w.nxt w.prior w.originF i j else floorDivI (e.z - s.image.originH) 32

/-- R136: the columns that enter the window while a prior is loaded and before their prior data has arrived. -/
def lateColumns (old : Int × Int × Int) (placed : Bool) (p : PriorSt) (f : Int × Int × Int) (d : WorldData) : List (Int × Int) :=
  if !p.loaded || p.complete then []
  else (windowColumns d.win).filter fun c => !(placed && columnIn old c.1 c.2) && (priorCol p f c.1 c.2).isNone

/-- They are marked PRIOR_LATE. -/
def markLate (cs : List (Int × Int)) (d : WorldData) : WorldData :=
  cs.foldl (fun d c => setCol d c.1 c.2 { colAt d c.1 c.2 with late := true }) d

/-- R139: the level-2 increases of the cells that stay in the window, in ascending order of storage index: cell key and
the value that the tiles hold. -/
def l2Increases (old new : WldSt) : List (Nat × Int) :=
  let stay := (windowCells new.cur.win).filter fun c =>
    cellIn old.cur.win c.1 c.2.1 c.2.2 && decide (l2Held old c.1 c.2.1 c.2.2 < l2Value new c.1 c.2.1 c.2.2)
  let order := stay.mergeSort fun a b => storageIndex a.1 a.2.1 a.2.2 ≤ storageIndex b.1 b.2.1 b.2.2
  order.map fun c => (enc3 c.1 c.2.1 c.2.2, l2Held old c.1 c.2.1 c.2.2)

/-- The reports of a new epoch (R145): DENIED cells, cells made SOLID for lack of a brick, deferred increases. -/
def reportEpoch (denied : Nat) (solid : List Nat) (deferred : Nat) (s : State) : State :=
  let s1 := if denied > 0 then
      setFlag F.WLD_ERR_STAT_DENY true (bumpBy F.WLD_DENY_CNT_COUNT denied
        (if s.wld.denyRun then s else report { unit := 0x82, cls := 0x0C, ev := 5, sev := .warning, detail := denied % 2 ^ 18 } s))
    else s
  let s2 := match solid.getLast? with
    | some c =>
      let k := dec3 c
      setFlag F.WLD_ERR_STAT_OCC_FULL true
        (report { unit := 0x82, cls := 0x0C, ev := 6, sev := .warning, detail := cellCode k.1 k.2.1 k.2.2 } s1)
    | none => s1
  let s3 := if deferred > 0 then
      setFlag F.WLD_ERR_STAT_DEFER true
        (if s.wld.deferRun then s2 else report { unit := 0x82, cls := 0x0C, ev := 7, sev := .note, detail := deferred % 2 ^ 18 } s2)
    else s2
  { s3 with wld := { s3.wld with denyRun := denied > 0, deferRun := deferred > 0 } }

/-- The World registers that show the epoch (R147). -/
def showEpoch (edge : Tick) (s : State) : State :=
  let w := s.wld
  let oldest := (w.pendingSlices.filterMap fun x => x.pkts.head?.map (·.stamp)).min?
  let lag := (oldest.map fun t => (roundDiv (Int.ofNat (edge - t)) 250).toNat).getD 0
  setFld F.WLD_EPOCH_EPOCH (frameN s)
    (setFld F.WLD_WIN_ORG_XY_WX (pattern 16 w.cur.win.1)
      (setFld F.WLD_WIN_ORG_XY_WY (pattern 16 w.cur.win.2.1)
        (setFld F.WLD_WIN_ORG_Z_WZ (pattern 16 w.cur.win.2.2)
          (setSat F.WLD_NEAR_STAT_NEAR (w.near.length + w.denied.length)
            (setSat F.WLD_NEAR_STAT_SOLID w.cur.solid.length
              (setSat F.WLD_FUSE_STAT_PENDING w.pendingSlices.length
                (setSat F.WLD_FUSE_STAT_LAG lag s)))))))

/-- R144: the vehicle's position leaves its declared range: a critical range-guard violation. -/
def positionGuard (e : Pose) (s : State) : State :=
  let lim : Int := 6291456
  if e.x.natAbs ≤ lim.natAbs ∧ e.y.natAbs ≤ lim.natAbs ∧ e.z.natAbs ≤ lim.natAbs then s
  else
    let high : Bool := decide (e.x > lim ∨ e.y > lim ∨ e.z > lim)
    doubtEvent 2 { unit := 0x82, cls := 0x04, ev := if high then 1 else 0, sev := .doubt }
      (bump F.INF_RG_CRIT_CNT_COUNT (addRg true 0 1 s))

/-- What the frame works from is set apart at its edge (R41, R61, R138, R381): the edge state, the prior and the origin of the
epoch, and the cached copies of the protected tables. -/
def holdFrame (e : Pose) (s : State) : State :=
  { s with held :=
    { edge := e, prior := s.wld.prior, originF := s.wld.originF, keepOut := s.wld.koLive, layers := s.wld.layers
      clients := s.regs.filter fun x => 0x110000 ≤ x.1 ∧ x.1 < 0x114000
      grants := s.swap.grants } }

/-- The words of the cells that World rebuilds are written anew (R146). -/
def rebuildWords (s : State) : State :=
  let bad := s.wld.rebuild.map (·.2)
  { s with
    wld := { s.wld with rebuild := [] }
    mem := { s.mem with
      cells := s.mem.cells.filter fun c => !bad.contains (c.1 / 8 * 8)
      synd := s.mem.synd.filter fun w => !bad.contains (8 * w.1) } }

/-- The structures stand again where memory was wiped: the machine writes them anew. -/
def liftBlank (s : State) : State :=
  { s with mem := { s.mem with
      blank := [], cells := s.mem.cells.filter fun c => !(blanked s c.1 && decide (structByte s c.1 ≠ 0)) } }

/-- World at an edge (R110, R124, R132, R136 to R139, R145, R146): the window, the
footprint, the new epoch and its reports. -/
def worldEdge (edge : Tick) (s : State) : State :=
  let e := (poseAt s edge).getD Pose.zero
  let w := s.wld
  let h := heightUnder s e
  let win := windowCorner e.x e.y h
  let d0 := moveWindow w.nxt win h
  let late := lateColumns w.nxt.win w.placed w.prior w.originF d0
  let d1 := markLate late d0
  let d2 := markFootprint w.prior w.originF s.image.footprint e d1
  let g := fuseCfg s
  let boxes := occupiedBoxes w.prior w.originF g d2
  let nd := nearCells boxes g d2 (e.x, e.y, h * 32)
  let slots := giveSlots w.slots w.boxes boxes (w.rebuild.map (·.1)) s.frame.num nd.1
  let w1 : WldSt := { w with
    cur := d2, nxt := d2, boxes := boxes, near := nd.1, denied := nd.2, l2hold := [], placed := true, slots := slots }
  let inc := if w.placed then l2Increases w w1 else []
  let held := inc.drop 8192
  let newSolid := (d2.solid.filter fun x => x.2.isNone && !(w.cur.solid.any fun y => y.1 = x.1)).map (·.1)
  let hold : Tab Int := held.foldl (fun t x => tabPut (-1) t x.1 x.2) []
  let s1 := { s with
    wld := { w1 with l2hold := hold }
    ing := s.ing.map fun t => { t with epochStamp := t.fusedStamp, inEpoch := t.fusedNow, fusedNow := [] } }
  let s2 := rebuildWords (if late = [] then s1 else setFlag F.WLD_ERR_STAT_PRIOR_LATE true s1)
  liftBlank (holdFrame e (positionGuard e (showEpoch edge (reportEpoch nd.2.length newSolid held.length s2))))

end Sys2Proof.Machine
end

