-- ==== Sys2Proof/Machine/Inference.lean ====
section
/-! DEFINITION. Machine/Inference.lean: the inference array (chapter 05): tensors in memory (R150 to R153, R169), ranged fixed-point
arithmetic (R154 to R157), range guards and their counters (R157 to R160), the operators (R161 to R166), Sepia (R166 to R170), the
outputs of the two model roles (R171, R172), the completion of a task (R319), the inference test slice (R178, R182) and
release (R179). -/

namespace Sys2Proof.Machine

/-! ## Tensor descriptors (R150 to R153) -/

/-- A tensor descriptor (R152) in its fields; loc says that the tensor lies in HBM. -/
structure TensorDesc where
  model : Nat
  id : Nat
  ty : Nat
  perCh : Bool
  critical : Bool
  loc : Bool
  base : Nat
  c : Nat
  h : Nat
  w : Nat
  exp : Int
  lo : Int
  hi : Int
deriving DecidableEq, Repr

/-- A descriptor from its four words (R152). -/
def descOf (t : TensorWords) : TensorDesc :=
  let b := fun (x : Word32) (hi lo : Nat) => bitsOf x.toNat hi lo
  { model := t.model.val, id := b t.w2 12 0, ty := b t.w0 31 30, perCh := t.w0.getLsbD 29, critical := t.w0.getLsbD 28
    loc := t.w0.getLsbD 27, base := b t.w0 24 0, c := b t.w1 31 16, h := b t.w1 15 0, w := b t.w2 31 19
    exp := signed 6 (b t.w2 18 13), lo := signed 16 (b t.w3 31 16), hi := signed 16 (b t.w3 15 0) }

/-- The descriptor of a tensor; an image without it gives one of no elements. -/
def tensorDesc (s : State) (n : TensorName) : TensorDesc :=
  ((s.image.tensors.map descOf).find? fun d => d.model = n.model.val ∧ d.id = n.id.val).getD
    { model := n.model.val, id := n.id.val, ty := 0, perCh := false, critical := false, loc := false, base := 0, c := 0, h := 0,
      w := 0, exp := 0, lo := 0, hi := 0 }

/-- Elements in a 64-bit word of a tensor's type (R151). -/
def perWord (d : TensorDesc) : Nat := match d.ty with
  | 1 => 16 | 2 => 4 | _ => 8

/-- 64-bit words in a position: channels are padded to whole words (R151). -/
def posWords (d : TensorDesc) : Nat := (d.c + perWord d - 1) / perWord d

/-- The data address at which a tensor begins, for a task on inference tile c (R152). -/
def tensorBase (s : State) (c : Nat) (d : TensorDesc) : Nat :=
  let m := s.image.models.find? fun m => m.model.val = d.model
  if d.loc then (m.map (·.hbmBase)).getD 0 + 64 * d.base
  else 0x8004000000 + c * 0x800000 + (m.map (·.scratchBase)).getD 0 + 64 * d.base

/-- The words of a tensor's elements (R151). -/
def dataWords (d : TensorDesc) : Nat := d.h * d.w * posWords d

/-- An element of a stored word by its place in it (R150). -/
def elemOf (ty w i : Nat) : Int :=
  match ty with
  | 0 => signed 8 (w / 2 ^ (8 * i) % 256)
  | 1 => signed 4 (w / 2 ^ (4 * i) % 16)
  | 2 => signed 16 (w / 2 ^ (16 * i) % 65536)
  | _ => Int.ofNat (w / 2 ^ (8 * i) % 256)

/-- The bits of an element's type. -/
def elemBits (ty : Nat) : Nat := match ty with
  | 1 => 4 | 2 => 16 | _ => 8

/-- A word packed from its elements; places beyond them are zero (R150, R151). -/
def packWord (ty : Nat) (es : List Int) : Nat :=
  (es.mapIdx fun i x => pattern (elemBits ty) x * 2 ^ (elemBits ty * i)).sum

/-! ## Reading tensors (R18, R149, R166, R169, R336) -/

/-- A word that a unit's engines or DMA read: Sepia from an unpopulated address, and from what the unit's revoked leases held. -/
def engineWord (u a : Nat) (s : State) : Option Nat × State :=
  if (memAt a).isNone then (none, report { unit := 0x84, cls := 0x0B, ev := 3, sev := .warning, detail := a } s)
  else if lostTo s u a then (none, s)
  else readWord 1 a s

/-- Consecutive words that a unit reads. -/
def engineWords (u a : Nat) : Nat → State → List (Option Nat) × State
  | 0, s => ([], s)
  | n + 1, s =>
    let r := engineWord u a s
    let t := engineWords u (a + 8) n r.2
    (r.1 :: t.1, t.2)

/-- A tensor as a task reads it, each of its words once: its elements and, with PER_CH set, the channel exponents that follow
them (R153). -/
structure Loaded where
  d : TensorDesc
  words : List (Option Nat)

/-- The inference tile of a unit. -/
def infTile (u : Nat) : Nat := (u - 64) % 8

/-- A tensor read by a unit. -/
def loadTensor (u : Nat) (n : TensorName) (s : State) : Loaded × State :=
  let d := tensorDesc s n
  let r := engineWords u (tensorBase s (infTile u) d) (dataWords d + if d.perCh then (d.c + 7) / 8 else 0) s
  (⟨d, r.1⟩, r.2)

/-- The element at a position and channel: Sepia is none. -/
def Loaded.elem (x : Loaded) (pos ch : Nat) : Option Int :=
  (x.words.getD (pos * posWords x.d + ch / perWord x.d) none).map fun w => elemOf x.d.ty w (ch % perWord x.d)

/-- The element at a row, a column and a channel; outside the tensor's extent it is 0. -/
def Loaded.pad (x : Loaded) (y c : Int) (ch : Nat) : Option Int :=
  if 0 ≤ y ∧ y < x.d.h ∧ 0 ≤ c ∧ c < x.d.w then x.elem (y.toNat * x.d.w + c.toNat) ch else some 0

/-- The exponent of a channel (R153). -/
def Loaded.expOf (x : Loaded) (ch : Nat) : Option Int :=
  if x.d.perCh then (x.words.getD (dataWords x.d + ch / 8) none).map fun w => signed 8 (w / 2 ^ (8 * (ch % 8)) % 256)
  else some x.d.exp

/-! ## Arithmetic (R154 to R156) -/

/-- Accumulation in schedule order, from the bias (R154): a register that saturates stays at its bound. The second value
is the bound it met: 1 positive, −1 negative, 0 none. -/
def accumulate (bias : Int) (products : List Int) : Int × Int :=
  products.foldl (fun (st : Int × Int) p =>
    if st.2 ≠ 0 then st
    else
      let x := st.1 + p
      if x > 2147483647 then (2147483647, 1) else if x < -2147483648 then (-2147483648, -1) else (x, 0)) (bias, 0)

/-- An element as an engine forms it, with the guard events it causes: true is above. none is Sepia. -/
abbrev Elem := Option Int × List Bool

/-- A Sepia element (R168): never clamped, never counted (R160). -/
def Elem.sepia : Elem := (none, [])

/-- The shift of R155 from the accumulator's exponent to the output's. -/
def rescale (acc s : Int) : Int :=
  if s > 0 then roundDiv acc (2 ^ s.toNat) else sat32 (acc * 2 ^ (-s).toNat)

/-- An activation (R157, R161): a table input outside its domain is clamped, which is a guard event. -/
def activate (act : Activation) (r : Int) : Int × List Bool :=
  match act with
  | .none => (r, [])
  | .relu => (max 0 r, [])
  | .clamp lo hi => (clampI lo hi r, [])
  | .table first es =>
    let last := first + Int.ofNat es.length - 1
    (es.getD (clampI first last r - first).toNat 0, if r < first then [false] else if r > last then [true] else [])

/-- A range guard (R157). -/
def guardElem (d : TensorDesc) (r : Int) : Int × List Bool :=
  if r < d.lo then (d.lo, [false]) else if r > d.hi then (d.hi, [true]) else (r, [])

/-- An element that the table unit or an engine has formed passes the guard. -/
def guarded (d : TensorDesc) (r : Int) : Elem := (some (guardElem d r).1, (guardElem d r).2)

/-- Requantisation (R154, R155, R157): sat is the bound that the accumulator met. -/
def requant (d : TensorDesc) (eAcc : Int) (act : Activation) (acc sat : Int) : Elem :=
  let a := activate act (rescale acc (d.exp - eAcc))
  let g := guardElem d a.1
  (some g.1, a.2 ++ (if sat = 0 then [] else [decide (sat > 0)]) ++ g.2)

/-- The products of an output in the compiled order (R154). -/
def inOrder {α : Type} (order : Option (List Nat)) (ps : List α) : List α :=
  match order with
  | none => ps
  | some o => o.filterMap fun i => ps[i]?

/-- One output of a convolution or a matmul (R153, R154, R168): from its pairs of activation and weight, in ascending order. -/
def macElem (d : TensorDesc) (act : Activation) (eAcc : Option Int) (bias : Int) (order : Option (List Nat))
    (ps : List (Option Int × Option Int)) : Elem :=
  match eAcc, ps.mapM fun p => p.1.bind fun a => p.2.map fun b => a * b with
  | some e, some products =>
    let x := accumulate bias (inOrder order products)
    requant d e act x.1 x.2
  | _, _ => Elem.sepia

/-- The positions of a tensor with its channels, in the order in which memory holds them (R151): row, column and channel. -/
def places (d : TensorDesc) : List (Nat × Nat × Nat) :=
  (List.range (d.h * d.w)).flatMap fun p => (List.range d.c).map fun ch => (p / d.w, p % d.w, ch)

/-! ## Operators (R161 to R165) -/

/-- The exponent of an accumulator (R153): that of the activations plus that of the weights of the output's channel. -/
def accExp (x w : Loaded) (ch : Nat) : Option Int := (w.expOf ch).map fun e => x.d.exp + e

/-- The input coordinate that a kernel index meets. -/
def tapAt (g : Window) (o k pad : Nat) : Int := Int.ofNat (o * g.stride + k * g.dil) - Int.ofNat pad

/-- The pairs of a convolution's output (R161). DESIGN CHOICE (log 119): a weight tensor's row is the kernel place, its column the input
channel and its channel the output channel; a depthwise one's row and column are the kernel's; positions outside the input are 0. -/
def convPairs (g : Window) (depthwise : Bool) (x w : Loaded) (o : Nat × Nat × Nat) : List (Option Int × Option Int) :=
  (List.range g.kh).flatMap fun ky => (List.range g.kw).flatMap fun kx =>
    let tap := fun (ch : Nat) => x.pad (tapAt g o.1 ky g.padY) (tapAt g o.2.1 kx g.padX) ch
    if depthwise then [(tap o.2.2, w.elem (ky * w.d.w + kx) o.2.2)]
    else (List.range x.d.c).map fun ch => (tap ch, w.elem ((ky * g.kw + kx) * w.d.w + ch) o.2.2)

/-- A convolution. -/
def convOut (d : TensorDesc) (g : Window) (depthwise : Bool) (bias : List Int) (order : Option (List Nat)) (act : Activation)
    (x w : Loaded) : List Elem :=
  (places d).map fun o => macElem d act (accExp x w o.2.2) (bias.getD o.2.2 0) order (convPairs g depthwise x w o)

/-- A matmul: the rows are the positions of x; a weight tensor's row is the inner index, its column the batch. -/
def matmulOut (d : TensorDesc) (bias : List Int) (order : Option (List Nat)) (act : Activation) (x w : Loaded) : List Elem :=
  (places d).map fun o =>
    macElem d act (accExp x w o.2.2) (bias.getD o.2.2 0) order
      ((List.range x.d.c).map fun k => (x.elem (o.1 * x.d.w + o.2.1) k, w.elem (k * w.d.w + o.2.1 % max 1 w.d.w) o.2.2))

/-- One element-wise result (R156, R168): the operand of the larger exponent shifted left, in a 32-bit intermediate that
saturates; the result takes the smaller exponent. -/
def eltElem (d : TensorDesc) (op : EltOp) (ea eb : Int) (act : Activation) (pa pb : Option Int) : Elem :=
  match pa, pb with
  | some p, some q =>
    let e := min ea eb
    let a := p * 2 ^ (ea - e).toNat
    let b := q * 2 ^ (eb - e).toNat
    let x := match op with
      | .add => sat32 a + sat32 b
      | .mul => sat32 a * sat32 b
      | .max => max (sat32 a) (sat32 b)
      | .min => min (sat32 a) (sat32 b)
    let sat : Int := if x > 2147483647 ∨ a > 2147483647 ∨ b > 2147483647 then 1
      else if x < -2147483648 ∨ a < -2147483648 ∨ b < -2147483648 then -1 else 0
    requant d e act (sat32 x) sat
  | _, _ => Elem.sepia

/-- The element of an operand at a place, with broadcast: a dimension of 1 stands for all (R161). -/
def Loaded.broad (x : Loaded) (o : Nat × Nat × Nat) : Option Int :=
  let at1 := fun (n i : Nat) => if n = 1 then 0 else i
  x.elem (at1 x.d.h o.1 * x.d.w + at1 x.d.w o.2.1) (at1 x.d.c o.2.2)

/-- One pooled result (R161, R168): of the positions of the window inside the input; the average rounds to nearest, ties to
even. -/
def poolElem (d : TensorDesc) (average : Bool) (g : Window) (x : Loaded) (o : Nat × Nat × Nat) : Elem :=
  let taps := (List.range g.kh).flatMap fun ky => (List.range g.kw).filterMap fun kx =>
    let y := tapAt g o.1 ky g.padY
    let c := tapAt g o.2.1 kx g.padX
    if 0 ≤ y ∧ y < x.d.h ∧ 0 ≤ c ∧ c < x.d.w then some (x.elem (y.toNat * x.d.w + c.toNat) o.2.2) else none
  match taps.mapM id with
  | some (v :: vs) => requant d x.d.exp .none (if average then roundDiv (v :: vs).sum (vs.length + 1) else vs.foldl max v) 0
  | _ => Elem.sepia

/-- One element of a resize by 2 (R161, R168): the nearest element, or the mean of the four around it with the weights of
Config.resizeWeight: the spec names no sampling points (log 119). -/
def resizeElem (d : TensorDesc) (bilinear : Bool) (x : Loaded) (o : Nat × Nat × Nat) : Elem :=
  let side := fun (i n : Nat) => if i % 2 = 0 then i / 2 - 1 else min (i / 2 + 1) (n - 1)
  let at0 := fun (y c : Nat) => x.elem (y * x.d.w + c) o.2.2
  if !bilinear then match at0 (o.1 / 2) (o.2.1 / 2) with
    | some v => requant d x.d.exp .none v 0
    | none => Elem.sepia
  else
    let y1 := side o.1 x.d.h
    let x1 := side o.2.1 x.d.w
    let k := fun (i : Nat) => Config.resizeWeight (o.1 % 2 * 2 + o.2.1 % 2) i
    match at0 (o.1 / 2) (o.2.1 / 2), at0 (o.1 / 2) x1, at0 y1 (o.2.1 / 2), at0 y1 x1 with
    | some a, some b, some e, some f =>
      requant d x.d.exp .none
        (roundDiv (a * Int.ofNat (k 0) + b * Int.ofNat (k 1) + e * Int.ofNat (k 2) + f * Int.ofNat (k 3))
          (max 1 (k 0 + k 1 + k 2 + k 3))) 0
    | _, _, _, _ => Elem.sepia

/-- The position of the leading one of a number, counted from the left of 32 bits. -/
def leadZeros32 (n : Nat) : Nat := 31 - Nat.log2 n

/-- EXP_TAB at an index up to 255; the first entry is 65,535 (R162). -/
def expEntry (d : Nat) : Nat := if d = 0 then 65535 else Config.expTab d % 65536

/-- The probabilities of a row of logits (R162): unsigned 8-bit, with exponent −8. -/
def softmaxRow (shift : Nat) (row : List Int) : List Int :=
  let m := row.foldl max (row.headD 0)
  let a := row.map fun x => expEntry (min 255 ((m - x).toNat / 2 ^ shift))
  let sum := a.sum % 2 ^ 32
  let lz := leadZeros32 sum
  let recip := Config.recipTab (sum * 2 ^ lz / 2 ^ 21 % 1024)
  a.map fun x => min 255 (roundDiv (Int.ofNat (x * recip)) (2 ^ (54 - lz)))

/-- A softmax over the channels of every position (R162, R168). -/
def softmaxOut (d : TensorDesc) (shift : Nat) (x : Loaded) : List Elem :=
  (List.range (d.h * d.w)).flatMap fun p =>
    match ((List.range d.c).map fun ch => x.elem p ch).mapM id with
    | some row => (softmaxRow shift row).map (guarded d)
    | none => List.replicate d.c Elem.sepia

/-- The exponent of the even shift that brings a positive quotient a / b to at least a quarter and below 1, halved: the least j in
−80 to 79 with a < b · 4^j. -/
def evenShift (a b : Nat) : Int :=
  match (List.range 160).find? fun i => if i < 80 then a * 4 ^ (80 - i) < b else a < b * 4 ^ (i - 80) with
  | some i => Int.ofNat i - 80
  | none => 80

/-- One normalised element (R163). sum and sq are the group's sums, n its length. DESIGN CHOICE (log 119): epsilon is in 2^-16 of a
squared stored unit; the table is addressed by the leading 8 bits of the shifted variance and holds 1/√ of it in 2^-15; all is
exact up to the rounding of R155. -/
def normElem (d : TensorDesc) (p : NormParams) (sum : Int) (sq n ch : Nat) (x : Int) : Elem :=
  let v := (Int.ofNat (n * sq) - sum ^ 2).toNat
  let a := v * 2 ^ 16 + p.eps * n ^ 2
  let b := n ^ 2 * 2 ^ 16
  let j := evenShift a b
  let top := if j ≥ 0 then 256 * a / (b * 4 ^ j.toNat) else 256 * a * 4 ^ (-j).toNat / b
  let root := Int.ofNat (p.table.getD top 0)
  let e := p.eScale - 15 - j - d.exp
  let eo := p.eOffset - d.exp
  let lo := min 0 (min e eo)
  let num := (Int.ofNat n * x - sum) * root * p.scale.getD ch 0 * 2 ^ (e - lo).toNat
    + Int.ofNat n * p.offset.getD ch 0 * 2 ^ (eo - lo).toNat
  guarded d (sat32 (roundDiv num (Int.ofNat n * 2 ^ (-lo).toNat).toNat))

/-- The elements of the group that an element belongs to (R161, R163): the channels at its position, or a group of channels over
all positions. -/
def groupOf (p : NormParams) (x : Loaded) (o : Nat × Nat × Nat) : List (Option Int) :=
  if p.groups = 0 then (List.range x.d.c).map fun ch => x.elem (o.1 * x.d.w + o.2.1) ch
  else
    let k := max 1 (x.d.c / p.groups)
    (List.range (x.d.h * x.d.w)).flatMap fun q => (List.range k).map fun i => x.elem q (o.2.2 / k * k + i)

/-- A layer or group normalisation (R163, R168), with sums of 48 bits. -/
def normOut (d : TensorDesc) (p : NormParams) (x : Loaded) : List Elem :=
  (places d).map fun o =>
    match (groupOf p x o).mapM id, x.elem (o.1 * x.d.w + o.2.1) o.2.2 with
    | some g, some v =>
      let sum := clampI (-(2 ^ 47)) (2 ^ 47 - 1) g.sum
      let sq := min (2 ^ 48 - 1) ((g.map fun y => y.natAbs ^ 2).sum)
      normElem d p sum sq g.length o.2.2 v
    | _, _ => Elem.sepia

/-! ### Windowed attention (R161, R168) -/

/-- A token of a window: its position in a tensor. DESIGN CHOICE (log 119): a shift moves the windows cyclically. -/
def tokenAt (g : AttnGeom) (d : TensorDesc) (win : Nat × Nat) (i : Nat) : Nat :=
  let y := (win.1 * g.winH + i / max 1 g.winW + g.shiftY) % max 1 d.h
  let x := (win.2 * g.winW + i % max 1 g.winW + g.shiftX) % max 1 d.w
  y * d.w + x

/-- The tokens of a window. -/
def tokens (g : AttnGeom) (d : TensorDesc) (win : Nat × Nat) : List Nat := (List.range (g.winH * g.winW)).map (tokenAt g d win)

/-- The window holds no Sepia element. -/
def windowClean (g : AttnGeom) (win : Nat × Nat) (x : Loaded) : Bool :=
  (tokens g x.d win).all fun p => (List.range (g.heads * g.dim)).all fun ch => (x.elem p ch).isSome

/-- The logits of one token of a window in one head: int16, requantised to their tensor. -/
def logitRow (g : AttnGeom) (dl : TensorDesc) (q k : Loaded) (win : Nat × Nat) (head i : Nat) : List Elem :=
  let at0 := fun (x : Loaded) (p ch : Nat) => (x.elem p (head * g.dim + ch)).getD 0
  let qi := tokenAt g q.d win i
  (tokens g k.d win).map fun kj =>
    let acc := accumulate 0 ((List.range g.dim).map fun ch => at0 q qi ch * at0 k kj ch)
    requant dl (q.d.exp + k.d.exp) .none acc.1 acc.2

/-- One element of the result: the values of the window weighed by the token's probabilities. -/
def attnElem (g : AttnGeom) (d dl : TensorDesc) (q k v : Loaded) (win : Nat × Nat) (i ch : Nat) : Elem :=
  if windowClean g win q && windowClean g win k && windowClean g win v then
    let ps := softmaxRow g.rowShift ((logitRow g dl q k win (ch / max 1 g.dim) i).map fun e => e.1.getD 0)
    let acc := accumulate 0 ((ps.zip (tokens g v.d win)).map fun x => x.1 * (v.elem x.2 ch).getD 0)
    requant d (v.d.exp - 8) .none acc.1 acc.2
  else Elem.sepia

/-- The windows of a tensor. -/
def windowsOf (g : AttnGeom) (d : TensorDesc) : List (Nat × Nat) :=
  (List.range (d.h / max 1 g.winH)).flatMap fun y => (List.range (d.w / max 1 g.winW)).map fun x => (y, x)

/-- The window and the token of a position. -/
def windowAt (g : AttnGeom) (d : TensorDesc) (y x : Nat) : (Nat × Nat) × Nat :=
  let y' := (y + d.h - g.shiftY % max 1 d.h) % max 1 d.h
  let x' := (x + d.w - g.shiftX % max 1 d.w) % max 1 d.w
  ((y' / max 1 g.winH, x' / max 1 g.winW), y' % max 1 g.winH * g.winW + x' % max 1 g.winW)

/-- Windowed attention: the results. -/
def attnOut (g : AttnGeom) (d dl : TensorDesc) (q k v : Loaded) : List Elem :=
  (places d).map fun o =>
    let w := windowAt g d o.1 o.2.1
    attnElem g d dl q k v w.1 w.2 o.2.2

/-- Windowed attention: the logits of the windows without Sepia, whose guard events fall on the logits' tensor. -/
def attnLogits (g : AttnGeom) (dl : TensorDesc) (q k v : Loaded) : List Elem :=
  (windowsOf g q.d).flatMap fun win =>
    if windowClean g win q && windowClean g win k && windowClean g win v then
      (List.range g.heads).flatMap fun h => (List.range (g.winH * g.winW)).flatMap fun i => logitRow g dl q k win h i
    else []

/-! ### Moves (R161) -/

/-- An element brought by the DMA: the DMA has no range guard (R157). -/
def movedElem (x : Option Int) : Elem := (x, [])

/-- The element of a concatenation at a place: along the rows, the columns or the channels. -/
def concatElem (axis : Fin 3) : List Loaded → Nat × Nat × Nat → Option Int
  | [], _ => some 0
  | x :: xs, o =>
    match axis with
    | 0 => if o.1 < x.d.h then x.elem (o.1 * x.d.w + o.2.1) o.2.2 else concatElem axis xs (o.1 - x.d.h, o.2.1, o.2.2)
    | 1 => if o.2.1 < x.d.w then x.elem (o.1 * x.d.w + o.2.1) o.2.2 else concatElem axis xs (o.1, o.2.1 - x.d.w, o.2.2)
    | 2 => if o.2.2 < x.d.c then x.elem (o.1 * x.d.w + o.2.1) o.2.2 else concatElem axis xs (o.1, o.2.1, o.2.2 - x.d.c)

/-- The element of a transposition at a place; axes numbers the orders of row, column and channel. -/
def transposeElem (axes : Fin 6) (x : Loaded) (o : Nat × Nat × Nat) : Option Int :=
  let at0 := fun (y c ch : Nat) => x.elem (y * x.d.w + c) ch
  match axes with
  | 0 => at0 o.1 o.2.1 o.2.2
  | 1 => at0 o.1 o.2.2 o.2.1
  | 2 => at0 o.2.1 o.1 o.2.2
  | 3 => at0 o.2.1 o.2.2 o.1
  | 4 => at0 o.2.2 o.1 o.2.1
  | 5 => at0 o.2.2 o.2.1 o.1

/-! ### Pillars (R164) -/

/-- The points of a pillar: the 32 of the highest z, ties in arrival order. -/
def pillarKeep (ps : List FusedPoint) : List FusedPoint := (ps.mergeSort fun a b => a.pz ≥ b.pz).take 32

/-- The points sorted into the columns that they lie in, in the order in which the columns are first met. -/
def pillarSort (ps : List FusedPoint) : List ((Int × Int) × List FusedPoint) :=
  let col := fun (p : FusedPoint) => (columnOf p.px, columnOf p.py)
  ((ps.map col).eraseDups).map fun c => (c, ps.filter fun p => col p = c)

/-- The squared distance of a column's centre from a position, in 1/4096 m times 10. -/
def columnFar (e : Pose) (c : Int × Int) : Int :=
  (4096 * (2 * c.1 + 1) - 10 * e.x) ^ 2 + (4096 * (2 * c.2 + 1) - 10 * e.y) ^ 2

/-- The snapshot's lidar points, de-skewed, in arrival order (R113, R164); an excluded stream gives none (R59). -/
def snapshotPoints (s : State) : List FusedPoint :=
  (List.range 8).flatMap fun i =>
    let n := 16 + i
    if (streamSt s n).excluded then [] else fusedPoints s ⟨n, s.frame.num, (streamSt s n).snapSlice⟩

/-- Pillar encoding: the pillars of the columns in the window, nearest to the vehicle origin first, at most 32,768 of them. -/
def pillarsOf (s : State) : List ((Int × Int) × List FusedPoint) :=
  let all := (pillarSort (snapshotPoints s)).filter fun x => columnIn s.wld.cur.win x.1.1 x.1.2
  all.mergeSort fun a b => columnFar (edgePose s) a.1 ≤ columnFar (edgePose s) b.1

/-! ## Guard events (R157 to R160, R418) -/

/-- The detail of a class 0x04 record (R423). -/
def rgDetail (d : TensorDesc) : Nat := d.model * 8192 + d.id

/-- Doubt of a task on a unit (R159): the running frame, where the task is bound to it; otherwise its output carries the
mark to the first frame that includes it. -/
def markOutput (u b : Nat) (s : State) : State :=
  let node := ((s.cnd.grants.find? fun g => g.unit = u).map (·.node)).getD 0
  let bound := ((nodeDesc s node).map fun d => decide (d.phase.val ≠ 0)).getD true
  if bound then markDoubt b s
  else { s with cnd := { s.cnd with
    grants := s.cnd.grants.map fun g => if g.unit = u then { g with taint := g.taint ||| (1#16 <<< b) } else g } }

/-- One guard event of an engine of a tile (R158, R159): the counters, the watch, the capture, the record for the first event of
the tensor in the frame, and the doubt of a critical tensor. -/
def guardEvent (u eng : Nat) (d : TensorDesc) (high : Bool) (s : State) : State :=
  let c := infTile u
  let ev := if high then 1 else 0
  let s1 := if d.critical then bump F.INF_RG_CRIT_CNT_COUNT (bump (F.INF_TILE_RG_CNT_CRIT c) s)
    else bump F.INF_RG_CNT_COUNT (bump (F.INF_TILE_RG_CNT_NONCRIT c) s)
  let s2 := addRg d.critical (unitDomain s1 u) 1 { s1 with inf := { s1.inf with
    burst := if d.critical then s1.inf.burst else tabPut 0 s1.inf.burst u (tabGet 0 s1.inf.burst u + 1) } }
  let watched : Bool := flag s F.INF_RG_WATCH_EN && fld s F.INF_RG_WATCH_MODEL = d.model
    && fld s F.INF_RG_WATCH_TENSOR = d.id
  let s3 := if watched then bump F.INF_RG_WATCH_CNT_COUNT s2 else s2
  let s4 := if flag s3 F.INF_RG_CAP_ID_VALID then s3 else
    setFld F.INF_RG_CAP_FRAME_FRAME (frameN s)
      (capture F.INF_RG_CAP_ID_VALID
        [(F.INF_RG_CAP_ID_CRIT, if d.critical then 1 else 0), (F.INF_RG_CAP_ID_DIR, ev), (F.INF_RG_CAP_ID_TILE, c),
         (F.INF_RG_CAP_ID_ENGINE, eng), (F.INF_RG_CAP_ID_MODEL, d.model), (F.INF_RG_CAP_ID_TENSOR, d.id)] s3)
  let s5 := countTile u 0x47 1 (if d.critical then markOutput u 2 s4 else s4)
  if s5.inf.firstRg.contains (rgDetail d) then s5
  else
    report { unit := u, cls := 0x04, ev := ev, sev := if d.critical then .doubt else .warning, detail := rgDetail d,
             doubt := d.critical }
      { s5 with inf := { s5.inf with firstRg := rgDetail d :: s5.inf.firstRg } }

/-- The guard events of elements. -/
def guardEvents (u eng : Nat) (d : TensorDesc) (es : List Elem) (s : State) : State :=
  (es.flatMap (·.2)).foldl (fun s h => guardEvent u eng d h s) s

/-- R418: a tile whose non-critical guard events reach RG_BURST in the frame is quarantined and then tested. -/
def burstCheck (u : Nat) (s : State) : State :=
  if tabGet 0 s.inf.burst u ≥ fld s F.WDN_MAD_CFG_RG_BURST ∧ ¬ outOfService s u ∧ 64 ≤ u ∧ u < 72 then
    testQuarantine u s
  else s

/-! ## Writing tensors (R151, R157, R168 to R170) -/

/-- A Sepia element in an output tensor (R170): a doubt for a critical tensor, a warning for any other output. -/
def sepiaOutput (u : Nat) (d : TensorDesc) (isOutput : Bool) (s : State) : State :=
  if d.critical then
    report { unit := u, cls := 0x04, ev := 2, sev := .doubt, detail := rgDetail d, doubt := true }
      (bump F.INF_SEPIA_CNT_CRIT_OUT (markOutput u 3 s))
  else if isOutput then report { uncoded .sepiaOutput u .warning with detail := rgDetail d } s
  else s

/-- The words of a tensor's elements (R151): each with its elements. -/
def tensorWords (d : TensorDesc) (es : List Elem) : List (List Elem) :=
  (List.range (d.h * d.w)).flatMap fun p => (List.range (posWords d)).map fun k =>
    (es.drop (p * d.c + k * perWord d)).take (min (perWord d) (d.c - k * perWord d))

/-- A word of a tensor is stored; one with a Sepia element as Sepia, which counts (R169). -/
def storeWord (c : Nat) (d : TensorDesc) (a : Nat) (es : List Elem) (s : State) : State :=
  let sepia := es.any fun e => e.1.isNone
  let s1 := writeFull a (leBytes 8 (packWord d.ty (es.map fun e => e.1.getD 0))) sepia s
  if sepia then bump (F.INF_TILE_SEPIA_CNT_COUNT c) s1 else s1

/-- Words stored from an address on. -/
def storeWords (c : Nat) (d : TensorDesc) (a : Nat) : List (List Elem) → State → State
  | [], s => s
  | w :: ws, s => storeWords c d (a + 8) ws (storeWord c d a w s)

/-- PEAK of INF_TILE_SCRATCH: the end of the highest tensor that the tile has written, in KiB (log 119). -/
def showPeak (s : State) (c : Nat) (d : TensorDesc) : State :=
  if d.loc then s
  else
    let top := (tensorBase s c d + 8 * dataWords d - (0x8004000000 + c * 0x800000) + 1023) / 1024
    setFld (F.INF_TILE_SCRATCH_PEAK c) (max top (fld s (F.INF_TILE_SCRATCH_PEAK c))) s

/-- A tensor is written by an engine or the DMA of a tile (R157, R158, R168 to R170); what no memory holds is discarded (R18). -/
def writeTensor (u eng : Nat) (d : TensorDesc) (es : List Elem) (isOutput : Bool) (s : State) : State :=
  let c := infTile u
  let a := tensorBase s c d
  let s1 := guardEvents u eng d es s
  let s2 := if (memAt a).isNone then report { unit := 0x84, cls := 0x0B, ev := 3, sev := .warning, detail := a } s1
    else showPeak (storeWords c d a (tensorWords d es) s1) c d
  let s3 := if es.any fun e => e.1.isNone then sepiaOutput u d isOutput s2 else s2
  burstCheck u s3

/-! ## Gathers (R165 to R167) -/

/-- One faulty element of an inference gather: kind is bit 44 of the detail of R167, place its number among the 16. -/
def infGatherFault (u : Nat) (d : TensorDesc) (a place : Nat) (outside : Bool) (s : State) : State :=
  let k := if outside then 1 else 0
  let s1 := report { unit := u, cls := 0x02, ev := 0, sev := .warning,
                     detail := d.id * 2 ^ 48 + k * 2 ^ 44 + place * 2 ^ 40 + a } (bump F.INF_SEPIA_CNT_GATHER s)
  if flag s1 F.INF_GATHER_FLT_VALID then s1
  else
    setFld F.INF_GATHER_ADDR_LO_ADDR a (setFld F.INF_GATHER_ADDR_HI_ADDR (a / 2 ^ 32)
      (capture F.INF_GATHER_FLT_VALID
        [(F.INF_GATHER_FLT_KIND, k), (F.INF_GATHER_FLT_TILE, infTile u), (F.INF_GATHER_FLT_ELEMENT, place)] s1))

/-- One element of a gather (R166): from a position and a channel of its source tensor; outside its extent, or in a word that is
bad or nowhere, it is Sepia and reported. -/
def gatherElem (u : Nat) (d : TensorDesc) (place : Nat) (inside : Bool) (pos ch : Nat) (s : State) : Option Int × State :=
  let word := tensorBase s (infTile u) d + 8 * (pos * posWords d + ch / perWord d)
  let a := word + ch % perWord d * elemBits d.ty / 8
  if !inside then (none, infGatherFault u d a place true s)
  else
    match engineWord u word s with
    | (some w, s1) => (some (elemOf d.ty w (ch % perWord d)), s1)
    | (none, s1) => (none, infGatherFault u d a place false s1)

/-- What a gather fetches for one element: 0 for an entry marked invalid (R165), or an element of a source tensor. -/
inductive Fetch where
  | invalid
  | elem (d : TensorDesc) (inside : Bool) (pos ch : Nat)

/-- The elements of gathers of 16, in order. -/
def gatherAll (u : Nat) : Nat → List Fetch → State → List (Option Int) × State
  | _, [], s => ([], s)
  | i, f :: fs, s =>
    let r := match f with
      | .invalid => (some 0, s)
      | .elem d inside pos ch => gatherElem u d (i % 16) inside pos ch s
    let t := gatherAll u (i + 1) fs r.2
    (r.1 :: t.1, t.2)

/-- An index vector's fetches: an index numbers the elements of the source without their padding. -/
def indexFetch (d : TensorDesc) (i : Nat) : Fetch :=
  .elem d (decide (i < d.h * d.w * d.c)) (i / max 1 d.c) (i % max 1 d.c)

/-- BEV lifting (R165): for each column, height bin and camera the features that the projection entry points at. A column, bin
and camera without an entry is as one marked invalid. DESIGN CHOICE (log 119): the channels of the result are bins, then cameras,
then features. -/
def liftFetch (s : State) (cams : List TensorName) (d : TensorDesc) : List Fetch :=
  let per := cams.map fun n => tensorDesc s n
  let feats := (per.map (·.c)).sum
  (places d).map fun o =>
    let bin := o.2.2 / max 1 feats
    let r := o.2.2 % max 1 feats
    let k := (List.range per.length).filter fun i => ((per.take (i + 1)).map (·.c)).sum ≤ r
    let cam := k.length
    let ch := r - ((per.take cam).map (·.c)).sum
    match (s.image.projections.find? fun e => e.y = o.1 ∧ e.x = o.2.1 ∧ e.bin.val = bin ∧ e.cam.val = cam).bind (·.pos), per[cam]? with
    | some p, some t => .elem t (decide (p.1 < t.h ∧ p.2 < t.w)) (p.1 * t.w + p.2) ch
    | _, _ => .invalid

/-! ## Counted work (R580) -/

/-- The MAC operations and table lookups of an operator: whether a rest of fewer than 1,536 operations completes a count is
free. -/
def countMacs (u ops lookups : Nat) (s : State) : State :=
  let f := nextFree s
  let s1 := countTile u 0x44 (ops / 1536 + Config.freeValue f.1 % 2) f.2
  if lookups = 0 then s1 else countTile u 0x45 lookups s1

/-- The lookups of a softmax or a normalisation: the spec does not say how many it makes. -/
def countLookups (u : Nat) (s : State) : State :=
  let f := nextFree s
  countTile u 0x45 (Config.freeValue f.1 % 2 ^ 48) f.2

/-- The lookups of an activation over a number of elements. -/
def lookupsOf (act : Activation) (n : Nat) : Nat := match act with
  | .table _ _ => n
  | _ => 0

/-! ## Operations -/

/-- Several tensors read. -/
def loadAll (u : Nat) : List TensorName → State → List Loaded × State
  | [], s => ([], s)
  | n :: ns, s =>
    let r := loadTensor u n s
    let t := loadAll u ns r.2
    (r.1 :: t.1, t.2)

/-- The words that a load brings, in the elements of the tensor; a word that reads as Sepia is Sepia in every element. -/
def loadedElems (d : TensorDesc) (ws : List (Option Nat)) : List Elem :=
  (places d).map fun o => movedElem ((⟨d, ws⟩ : Loaded).elem (o.1 * d.w + o.2.1) o.2.2)

/-- R182: the unit's lease of a DMA channel was revoked. -/
def channelLost (s : State) (u : Nat) : Bool :=
  s.cnd.revoked.any (fun x => decide (x.cls = 1 ∧ x.holder = u)) && !s.cnd.leases.any fun l => l.cls = 1 ∧ l.holder = u ∧ ¬ l.revoking

/-- Pillar encoding (R164, R181): the pillars, and their output, whose features the spec does not define: they are free. -/
def runPillars (u eng : Nat) (d : TensorDesc) (out : Bool) (s : State) : State :=
  let all := pillarsOf s
  let kept := (all.take 32768).map fun x => (x.1, pillarKeep x.2)
  let s1 := { s with inf := { s.inf with
    pillars := kept, pillarCut := s.inf.pillarCut + (all.map fun x => x.2.length - 32).sum } }
  let s2 := if all.length > 32768 then report (uncoded .pillars u .warning) s1 else s1
  let es := (List.range (d.h * d.w * d.c)).map fun i => guarded d (signed 32 (Config.freeValue (s2.free + i)))
  writeTensor u eng d es out { s2 with free := s2.free + d.h * d.w * d.c }

/-- One operation of a task on an engine of a unit's tile (R161 to R166). outs are the tensors that are outputs of the network. -/
def runOp (u : Nat) (outs : List TensorName) (x : Fin 4 × InfOp) (s : State) : State :=
  let eng := x.1.val
  let desc := fun (n : TensorName) => tensorDesc s n
  let put := fun (n : TensorName) (es : List Elem) (s : State) => writeTensor u eng (desc n) es (outs.contains n) s
  match x.2 with
  | .load n a =>
    let d := desc n
    let r := if channelLost s u then (List.replicate (dataWords d) none, s) else engineWords u a.toNat (dataWords d) s
    put n (loadedElems d r.1) r.2
  | .conv x w n g dw bias order act =>
    let a := loadTensor u x s
    let b := loadTensor u w a.2
    let d := desc n
    let k := d.h * d.w * d.c
    put n (convOut d g dw bias order act a.1 b.1)
      (countMacs u (k * g.kh * g.kw * (if dw then 1 else a.1.d.c)) (lookupsOf act k) b.2)
  | .matmul x w n bias order act =>
    let a := loadTensor u x s
    let b := loadTensor u w a.2
    let d := desc n
    let k := d.h * d.w * d.c
    put n (matmulOut d bias order act a.1 b.1) (countMacs u (k * a.1.d.c) (lookupsOf act k) b.2)
  | .attention q k v l n g =>
    let a := loadTensor u q s
    let b := loadTensor u k a.2
    let c := loadTensor u v b.2
    let es := attnLogits g (desc l) a.1 b.1 c.1
    put n (attnOut g (desc n) (desc l) a.1 b.1 c.1)
      (guardEvents u eng (desc l) es (countLookups u (countMacs u (2 * es.length * g.dim) 0 c.2)))
  | .norm x n p =>
    let a := loadTensor u x s
    put n (normOut (desc n) p a.1) (countLookups u a.2)
  | .eltwise op x y n act =>
    let a := loadTensor u x s
    let b := loadTensor u y a.2
    put n ((places (desc n)).map fun o => eltElem (desc n) op a.1.d.exp b.1.d.exp act (a.1.broad o) (b.1.broad o)) b.2
  | .activation x n act =>
    let a := loadTensor u x s
    put n ((places (desc n)).map fun o => match a.1.broad o with
      | some v => requant (desc n) a.1.d.exp act v 0
      | none => Elem.sepia) a.2
  | .pool x n av g =>
    let a := loadTensor u x s
    put n ((places (desc n)).map (poolElem (desc n) av g a.1)) a.2
  | .resize x n bi =>
    let a := loadTensor u x s
    put n ((places (desc n)).map (resizeElem (desc n) bi a.1)) a.2
  | .concat xs n axis =>
    let a := loadAll u xs s
    put n ((places (desc n)).map fun o => movedElem (concatElem axis a.1 o)) a.2
  | .slice x n y0 x0 c0 =>
    let a := loadTensor u x s
    put n ((places (desc n)).map fun o => movedElem (a.1.elem ((o.1 + y0) * a.1.d.w + o.2.1 + x0) (o.2.2 + c0))) a.2
  | .transpose x n axes =>
    let a := loadTensor u x s
    put n ((places (desc n)).map fun o => movedElem (transposeElem axes a.1 o)) a.2
  | .gather src n idx =>
    let r := gatherAll u 0 (idx.map (indexFetch (desc src))) s
    put n (r.1.map movedElem) (countTile u 0x46 idx.length r.2)
  | .bevLift cams n =>
    let r := gatherAll u 0 (liftFetch s cams (desc n)) s
    put n (r.1.map movedElem) (countTile u 0x46 r.1.length r.2)
  | .pillars n => runPillars u eng (desc n) (outs.contains n) s
  | .softmax x n sh =>
    let a := loadTensor u x s
    put n (softmaxOut (desc n) sh a.1) (countLookups u a.2)

/-! ## The outputs of the networks (R59, R133, R170 to R172) -/

/-- A stored element times a scale, in whole cost units. -/
def costOf (d : TensorDesc) (scale : Nat) (q : Int) : Nat :=
  let v := q * Int.ofNat scale
  let c := if d.exp ≥ 0 then v * 2 ^ d.exp.toNat else roundDiv v (2 ^ (-d.exp).toNat)
  (clampI 0 0xFFFF c).toNat

/-- The point that a depth sample stands for (R115): on its ray, at the pose of its time. -/
def depthPoint (s : State) (d : TensorDesc) (r : DepthRay) (t : Tick) (q : Int) : FusedPoint :=
  let v := q * Int.ofNat r.scale
  let dist := if d.exp ≥ 0 then v * 2 ^ d.exp.toNat else roundDiv v (2 ^ (-d.exp).toNat)
  let e := (poseAt s t).getD Pose.zero
  let p := placeAt r.mount r.turn e (r.ray.1 * dist, r.ray.2.1 * dist, r.ray.2.2 * dist)
  let o := placeAt r.mount r.turn e (0, 0, 0)
  { t := t, px := p.1, py := p.2.1, pz := p.2.2, ox := o.1, oy := o.2.1, oz := o.2.2 }

/-- An association list with the value at a key replaced. -/
def putKey {α β : Type} [DecidableEq α] (k : α) (v : β) (l : List (α × β)) : List (α × β) := (k, v) :: l.filter fun x => x.1 ≠ k

/-- One element of an output reaches what it feeds (R115, R133, R170, R172). The outputs of the proposal network count until it
is complete, from tiles of domain 0. -/
def applyRole (u : Nat) (d : TensorDesc) (t : Tick) (r : OutputRole) (e : Option Int) (s : State) : State :=
  let nxt := s.wld.nxt
  let put := fun (x : WorldData) => { s with wld := { s.wld with nxt := x } }
  let mine : Bool := !s.inf.produced && unitDomain s u = 0
  let score := e.map fun q => (clampI 0 255 q).toNat
  match r with
  | .travCost col scale =>
    if columnIn nxt.win col.1 col.2 then
      put (setCol nxt col.1 col.2 { colAt nxt col.1 col.2 with learned := (e.map (costOf d scale)).getD 0xFFFF })
    else s
  | .semClass col =>
    if columnIn nxt.win col.1 col.2 then
      put (setCol nxt col.1 col.2 { colAt nxt col.1 col.2 with cls := (e.map fun q => (clampI 0 255 q).toNat).getD 0 })
    else s
  | .depth ray => match e with
    | some q => put (fuseDepth (fuseCfg s) nxt [depthPoint s d ray t q])
    | none => s
  | .proposal slot f => if mine then { s with inf := { s.inf with slots := putKey (slot, f.val) e s.inf.slots } } else s
  | .latticeScore i => if mine then { s with inf := { s.inf with lattice := putKey i score s.inf.lattice } } else s
  | .goalScore c i => if mine then { s with inf := { s.inf with goalScores := putKey (c, i) score s.inf.goalScores } } else s

/-- The elements of an output tensor, as memory gives them back, reach what they feed. -/
def deliverOutput (u : Nat) (t : Tick) (x : TensorName × List (Nat × OutputRole)) (s : State) : State :=
  let r := loadTensor u x.1 s
  x.2.foldl (fun s y =>
    applyRole u r.1.d t y.2 (r.1.elem (y.1 / max 1 r.1.d.c) (y.1 % max 1 r.1.d.c)) s) r.2

/-- The sample that a traversability task ran on enters the next epoch (R55, R137). -/
def noteSource (src : Option (Fin 16 × Tick)) (s : State) : State :=
  match src with
  | some (n, t) =>
    let of := fun (x : StreamSt) => (x.snap.toList ++ x.newest.toList).find? fun y => y.stamp = t
    modStream n.val (fun x => { x with
      fusedStamp := some (max t (x.fusedStamp.getD 0)), fusedNow := x.fusedNow ++ (of x).toList }) s
  | none => s

/-- R59: the sample is the one of the running frame's snapshot, and its stream is excluded from the frame. -/
def sourceExcluded (s : State) (src : Option (Fin 16 × Tick)) : Bool :=
  src.any fun x =>
    let t := streamSt s x.1.val
    t.excluded && t.snap.any fun y => decide (y.stamp = x.2)

/-! ## The completion of a task (R319) -/

/-- What a completed task delivers, by kind of result. Engines stand on inference tiles only. Every pose-track entry is held to the
declared range of the position (R144). -/
def applyResult (u : Nat) (r : TaskResult) (s : State) : State :=
  match r with
  | .plain => s
  | .poseTrack es fix =>
    let track := es.foldl (fun t (e : Pose) => e :: t.filter (fun p => p.tick < e.tick)) s.wld.pose
    es.foldl (fun s e => positionGuard e s)
      { s with wld := { s.wld with pose := track, fix := fix.orElse fun _ => s.wld.fix } }
  | .network ops outs src last =>
    if u < 64 ∨ 72 ≤ u then s
    else
      let s1 := ops.foldl (fun s x => runOp u (outs.map (·.1)) x s) s
      let t := (src.map (·.2)).getD s1.time.count
      let s2 := if sourceExcluded s1 src then s1
        else noteSource src (outs.foldl (fun s x => deliverOutput u t x s) s1)
      if last && unitDomain s2 u = 0 then { s2 with inf := { s2.inf with produced := true } } else s2

/-- The result reaches the world epoch or the snapshot of a later frame directly. -/
def reachesFrame (r : TaskResult) : Bool :=
  match r with
  | .plain => false
  | .poseTrack _ _ => true
  | .network _ outs _ _ => outs.any fun x => !x.2.isEmpty

/-- R159, R382: the marks that the outputs of a task not bound to the frame carry go to the next edge, whose frame is the first
to include them, or with intermediate outputs to the tasks that follow. -/
def passTaint (g : Grant) (r : TaskResult) (succ : List (Fin 4096 × Fin 32)) (s : State) : State :=
  let t := ((s.cnd.grants.find? fun x => x.unit = g.unit).map (·.taint)).getD 0
  if t = 0 then s
  else if reachesFrame r then { s with frame := { s.frame with nextFlags := s.frame.nextFlags ||| t } }
  else ((succ.map fun e => e.1.val).eraseDups).foldl (fun s n => setNode n { nodeRun s n with taint := (nodeRun s n).taint ||| t } s) s

/-- The registers of a tile's sequencer show an idle tile. -/
def showIdle (u : Nat) (s : State) : State :=
  if outOfService s u then s
  else if u < 64 then setFld (F.SWP_TILE_STAT_STATE (u / 8) (u % 8)) 0 s
  else if u < 72 then setFld (F.INF_TILE_STAT_STATE (u - 64)) 0 s
  else s

/-- An inference tile counts a task completed. -/
def countDone (u : Nat) (s : State) : State := if 64 ≤ u ∧ u < 72 then countTile u 0x48 1 s else s

/-- TASK_COMPLETE (R319, R320, R327, R328, R330): the task's result is delivered, its item completes or the flags of its
successors are set, and the unit is free. A producer whose successor's flow is full, or whose successor's readiness
count would reach 256, waits. -/
def execTaskComplete (unit : Nat) (res : TaskResult) (s : State) : Host.Outcome State Fault Refusal :=
  .next (fabric s fun s =>
    match s.cnd.grants.find? fun g => g.unit = unit with
    | none => s
    | some g =>
      let succ := ((nodeDesc s g.node).map (·.succ)).getD []
      match g.item with
      | some (f, q) =>
        let mark := fun (i : FlowItem) => if i.flow = f ∧ i.seq = q then { i with complete := true } else i
        let s1 := passTaint g res succ (countDone unit (applyResult unit res s))
        showSched (showIdle unit (releaseItems f 1024
          (dropTask unit { s1 with cnd := { s1.cnd with items := s1.cnd.items.map mark } })))
      | none =>
        if producerStalls s succ then
          if g.wait.isSome then s else bump F.CND_FLOW_STAT_STALL (setWait unit (some s.time.count) s)
        else showSched (showIdle unit (completeItem succ (dropTask unit
          (passTaint g res succ (countDone unit (applyResult unit res s)))))))

/-! ## Tests and release (R178, R179, R182) -/

/-- IN_SERVICE of INF_MODEL_STAT shows the inference tiles in the pool. -/
def showInfService (s : State) : State :=
  let bits := ((List.range 8).map fun c => if outOfService s (64 + c) then 0 else 2 ^ c).sum
  setFld F.INF_MODEL_STAT_IN_SERVICE bits s

/-- The outcome of the known-answer slice of inference tile N mod 8, and of the guard injection of every 32nd frame
(R178, R182): a mismatch quarantines the tile, a guard that fails takes its engine out of service. -/
def infTestOutcome (o : TestOutcome) (s : State) : State :=
  let c := frameN s % 8
  let bad := fun (s : State) =>
    report { unit := 64 + c, cls := 0x07, ev := 1, sev := .fault }
      (showInfService (showSched (kermesDue (kermesUnit (64 + c)) (takeOut true (64 + c) (slotLost (64 + c) s)))))
  match o with
  | .pass => s
  | .mismatch => bad s
  | .overtime => bad s
  | .guardFail e =>
    report { unit := 64 + c, cls := 0x07, ev := 5, sev := .fault }
      (kermesDue (kermesUnit (64 + c)) (setMaskBit (F.INF_TILE_STAT_ENG_OK c) e.val false
        { s with safe := { s.safe with passed := s.safe.passed.filter (· ≠ 64 + c) } }))

/-- A unit that has passed its pack waits for its return to the pool at the next edge (R179, R246, R316, R419). -/
def releaseUnit (u : Nat) (s : State) : State :=
  if s.cnd.retired.contains u ∨ s.cnd.releasing.contains u ∨ ¬ s.safe.passed.contains u then s
  else { s with cnd := { s.cnd with releasing := s.cnd.releasing ++ [u] } }

/-- INF_RELEASE (R179): accepted from the Warden core only. -/
def takeInfRelease (r : Requester) (c : Fin 8) (bit : Bool) (s : State) : State :=
  live s fun s =>
    if r ≠ .warden then refuseAccess r F.INF_RELEASE_RELEASE.addr s
    else if bit then releaseUnit (64 + c.val) s else s

/-- The command InfRelease, as above. -/
def execInfRelease (r : Requester) (c : Fin 8) (bit : Bool) (s : State) : Host.Outcome State Fault Refusal :=
  .next (takeInfRelease r c bit s)

/-- The releases that take effect at an edge (R179, R316, R419): each unit is in service again, with all its engines. -/
def releaseEdge (s : State) : State :=
  let back := fun (s : State) (u : Nat) =>
    let s1 := showService u false { s with cnd := { s.cnd with outOfService := s.cnd.outOfService.filter (· ≠ u) } }
    if u < 64 then setFld (F.SWP_TILE_STAT_ENG_OK (u / 8) (u % 8)) 1 s1
    else if u < 72 then setFld (F.INF_TILE_STAT_ENG_OK (u - 64)) 15 s1 else s1
  let s1 := s.cnd.releasing.foldl back s
  showInfService { s1 with cnd := { s1.cnd with releasing := [] } }

/-- Inference at an edge (R158, R172, R418): the counts of the frame start again, and no proposal of it is there yet. -/
def infEdge (s : State) : State :=
  { s with inf := { s.inf with
      firstRg := [], burst := [], rgCount := [], rgCrit := [], produced := false, slots := [], lattice := [], goalScores := [] } }

end Sys2Proof.Machine
end

