-- ==== Sys2Proof/Machine/Audit.lean ====
section
/-! DEFINITION. Machine/Audit.lean: the snapshot digest and the audit digest of a frame (R582, R583). -/

namespace Sys2Proof.Machine

/-- The journal as the audit digest and the pair compare it (R568): 8 bytes an entry, in ascending location. -/
def journalBytes (j : Tab Nat) : List Byte :=
  let es := (j.map fun e => (Config.journalLoc e.1 % 2 ^ 32, e.2)).mergeSort fun a b => a.1 ≤ b.1
  es.flatMap fun e => leBytes 4 e.1 ++ leBytes 4 e.2

/-- The samples of a stream that enter the running frame (R583): through the snapshot, of a lidar its slice, and through the
world epoch; in ascending stamp, ties in reception order. -/
def enteringSamples (s : State) (n : Nat) : List Sample :=
  let t := streamSt s n
  if t.excluded then []
  else
    let snap := if 16 ≤ n ∧ n ≤ 23 then t.snapSlice.reverse else t.snap.toList
    let all := t.inEpoch ++ snap.filter fun x => !t.inEpoch.contains x
    all.mergeSort fun a b => a.stamp ≤ b.stamp

/-- A sample as the snapshot digest takes it (R583): a 16-byte header and its stored bytes. -/
def sampleEntry (n : Nat) (x : Sample) : List Byte :=
  leBytes 4 n ++ leBytes 4 x.bytes.length ++ leBytes 8 x.stamp ++ x.bytes

/-- The snapshot digest of the running frame (R583, R584). -/
def snapshotDigest (s : State) : BitVec 256 :=
  Config.sha3 ((List.range 36).flatMap fun n => (enteringSamples s n).flatMap (sampleEntry n))

/-- The bytes whose digest is the audit digest of the running frame of a domain (R582). -/
def auditBytes (s : State) (dom : Nat) : List Byte :=
  let models := s.image.models.mergeSort fun a b => a.model.val ≤ b.model.val
  (([0x4C, 0x44, 0x4E, 0x41, 0x55, 0x44, 0x30, 0x31] : List Byte) ++ digestBytes s.image.digest)
    ++ (models.flatMap fun m => digestBytes m.digest)
    ++ digestBytes (Config.sha3 (journalBytes s.swap.journal)) ++ digestBytes (snapshotDigest s)
    ++ leBytes 4 (frameN s) ++ leBytes 1 dom

/-- The audit digest of the running frame of a domain (R582). -/
def auditDigest (s : State) (dom : Nat) : BitVec 256 := Config.sha3 (auditBytes s dom)

end Sys2Proof.Machine
end

