-- ==== Sys2Proof/Machine/Pair.lean ====
section
/-! DEFINITION. Machine/Pair.lean: what the pair rules share: the pair state and its register, degradation (R432, R464), twin
rejections (R455), offers (R449) and the digests of persistent state (R460). -/

namespace Sys2Proof.Machine

/-! ## Pair states (R432, R469) -/

/-- STATE of a pair state. -/
def pairCode : PairState → Nat
  | .forming => 0 | .pairedA => 1 | .pairedB => 2 | .degradedA => 3 | .degradedB => 4 | .solo => 5 | .acting => 6
  | .monitor => 7 | .conflict => 8

/-- The states of a formed pair that is not degraded. -/
def paired (s : State) : Bool := decide (s.twin.pair = .pairedA) || decide (s.twin.pair = .pairedB)

/-- A device in a state that transmits sends its bundles on the guidance segment (R432, R433), unless a fatal event has
stopped it (R456). -/
def transmits (s : State) : Bool :=
  !s.twin.silent && !s.replay.active && (decide (s.twin.pair = .pairedA) || decide (s.twin.pair = .degradedA) || decide (s.twin.pair = .solo) ||
    decide (s.twin.pair = .acting))

/-- The states in which SAFE_STOP_N follows the observed bundles (R454). -/
def follower (s : State) : Bool :=
  decide (s.twin.pair = .pairedB) || decide (s.twin.pair = .degradedB) || decide (s.twin.pair = .monitor)

/-- REDUNDANCY_LOST of R432. -/
def redundancyLost (s : State) : Bool := !paired s

/-- The device is strapped B (R444). -/
def strapB (s : State) : Bool := s.boot.pos = 1

/-- WOD_PAIR_STAT shows the pair. -/
def showPair (s : State) : State :=
  setFld F.WOD_PAIR_STAT_STATE (pairCode s.twin.pair)
    (setFlag F.WOD_PAIR_STAT_ELIGIBLE (s.twin.pair = .pairedB) (setFlag F.WOD_PAIR_STAT_LINK s.twin.linkUp s))

/-- The device enters a pair state. -/
def setPair (p : PairState) (s : State) : State := showPair { s with twin := { s.twin with pair := p } }

/-- UNIT of Woad in fault records (R422). -/
def woadUnit : Nat := 0x94

/-- A record of class 0x0D (R468). -/
def woadEvent (ev : Nat) (sev : Severity) (detail : Nat) (s : State) : State :=
  report { unit := woadUnit, cls := 0x0D, ev := ev, sev := sev, detail := detail } s

/-- R464: a formed pair is degraded: the primary enters DEGRADED_A, the secondary DEGRADED_B. -/
def degrade (reason : Nat) (s : State) : State :=
  if !paired s then s
  else
    let p := if s.twin.pair = .pairedA then PairState.degradedA else PairState.degradedB
    woadEvent 3 .fault reason (setFld F.WOD_PAIR_STAT_DEG_REASON reason
      (setPair p { s with twin := { s.twin with clearRun := 0, reasons := reason :: s.twin.reasons } }))

/-- The twin rejections of the last 64 frames show in WOD_XVER_STAT; XDIS_MAX of them degrade the pair (R455). -/
def noteRejection (s : State) : State :=
  let recent := (s.frame.num :: s.twin.rejects).filter fun f => frameDist f s.frame.num < 64
  let s1 := setSat F.WOD_XVER_STAT_XDIS_64 recent.length { s with twin := { s.twin with rejects := recent } }
  if recent.length ≥ fld s F.WOD_PAIR_CFG_XDIS_MAX then degrade 3 s1 else s1

/-! ## Offers (R449) -/

/-- The running frame is withheld (R391). -/
def doubted (s : State) : Bool := s.frame.flags ≠ 0

/-- A fabric restart runs. -/
def restarting (s : State) : Bool := s.safe.restart.isSome

/-- The offer of a trajectory, or of none: then the spec states no COST and MIN_CLEARANCE, which are free. -/
def offerOf (s : State) (t : Option Traj) : Offer :=
  { frame := s.frame.num, edgeTick := s.frame.edgeTick, age := s.frame.resultAge
    cost := (t.map (·.cost)).getD (Config.freeValue s.free % 2 ^ 32)
    clearance := (t.map (·.clearance)).getD (signed 16 (Config.freeValue (s.free + 1)))
    originGen := BitVec.ofNat 16 s.wld.originGen, record := t.map (·.record), restart := restarting s
    doubt := s.frame.flags, audit := auditDigest s 0, edgeState := edgePose s }

/-- Sends OFFER on channel 1 (R449) and keeps it. A device strapped SOLO has no twin. -/
def sendOffer (t : Option Traj) (s : State) : State :=
  if s.twin.pair = .solo then s
  else
    let o := offerOf s t
    sendWoad 1 (.offer o) { s with free := if t.isSome then s.free else s.free + 2, twin := { s.twin with offerOut := some o } }

/-- Sends VERDICT (R450): v is 0 for pass, 1 for reject, 3 where Madder did not finish. -/
def sendVerdict (twin : Bool) (v detail : Nat) (s : State) : State :=
  if s.twin.pair = .solo then s else sendWoad 1 (.verdict s.frame.num twin v detail) s

/-! ## Digests of persistent state (R460) -/

/-- An integer as 8 bytes. -/
def intBytes (x : Int) : List Byte := leBytes 8 (pattern 64 x)

/-- Polygons as bytes. -/
def polyBytes (ps : List (List (Int × Int))) : List Byte :=
  leBytes 4 ps.length ++ ps.flatMap fun p => leBytes 4 p.length ++ p.flatMap fun v => intBytes v.1 ++ intBytes v.2

/-- The client table's words (R340). -/
def clientWords (s : State) : List Byte :=
  (List.range 1024).flatMap fun n => (List.range 4).flatMap fun w => leBytes 4 (fld s (F.CND_CLIENT_WORD n w))

/-- The shared-unit grants in force (R19, R378). -/
def sharedGrants (s : State) : List (Nat × Fin 16) := s.swap.grants.getD s.image.sharedOpen

/-- The addresses of a register array, innermost index last. -/
def dimAddrs : List (Nat × Nat) → Nat → List Nat
  | [], a => [a]
  | (st, cnt) :: ds, a => (List.range cnt).flatMap fun i => dimAddrs ds (a + i * st)

/-- The live addresses of every swappable register but the client table. -/
def swappableAddrs : List Nat :=
  let rows := regsWdn ++ regsCnd ++ regsIng ++ regsWld ++ regsInf ++ regsSwp ++ regsSel ++ regsSlv ++ regsWod ++ regsVbs
    ++ regsOch ++ regsSup ++ regsMem
  (rows.filter fun r => r.swap.isSome && decide (r.swap ≠ some 1)).flatMap fun r => dimAddrs r.dims r.base

/-- The field prior's content (R622). -/
def priorBytes (p : PriorSt) : List Byte :=
  let opt := fun (x : Option Int) => match x with
    | some v => intBytes v
    | none => []
  let shape := fun (x : PriorShape) => match x with
    | .cylinder a b r c d => leBytes 1 0 ++ intBytes a ++ intBytes b ++ leBytes 8 r ++ intBytes c ++ intBytes d
    | .box a b h k y c d =>
      leBytes 1 1 ++ intBytes a ++ intBytes b ++ leBytes 8 h ++ leBytes 8 k ++ leBytes 2 y.toNat ++ intBytes c ++ intBytes d
  (p.cols.flatMap fun c => intBytes c.i ++ intBytes c.j ++ opt c.height ++ opt (c.cost.map Int.ofNat))
    ++ (p.zones.flatMap fun z => polyBytes [z.poly] ++ leBytes 4 z.pass) ++ p.shapes.flatMap shape ++ p.keepOut.flatMap polyBytes

/-- The table memory of the eight keep-out sets, unused entries included (R135). -/
def keepOutBytes (sets : List KoSet) : List Byte :=
  (List.range 8).flatMap fun n => padTo (4 * 2081) ((koWords (sets.getD n [])).flatMap (leBytes 4))

/-- The table memory of the sixteen geometry layers. -/
def layersBytes (s : State) : List Byte :=
  (List.range 16).flatMap fun n => layerBytes (((s.wld.layers.find? fun l => l.1 = n).map (·.2)).getD Layer.blank)

/-- The range and lookup tables (R162, R298, R378, R620), with the words that DEVELOP has written into them. -/
def rangeBytes (s : State) : List Byte :=
  ((List.range 4096).flatMap fun i => leBytes 4 (pattern 32 (sineEntry i)))
    ++ ((List.range 256).flatMap fun i => leBytes 2 (if i = 0 then 65535 else Config.expTab i))
    ++ ((List.range 1024).flatMap fun i => leBytes 4 (Config.recipTab i))
    ++ (s.image.slvRanges.flatMap fun r => leBytes 4 r.1 ++ leBytes 4 r.2.1 ++ leBytes 1 (bit r.2.2))
    ++ ((s.mem.liveWrites.filter fun w => w.1 = .ranges).flatMap fun w => leBytes 4 w.2.1 ++ leBytes 4 w.2.2.toNat)

/-- The ten digests of R460, each over the whole table. The domain map's tweak numbers and the registers that the image marks
device-local are left out. -/
def stateDigests (s : State) : List (BitVec 256) :=
  let addrs := swappableAddrs.filter fun a => !s.image.deviceLocal.contains a
  [Config.sha3 (clientWords s), Config.sha3 (keepOutBytes s.wld.koLive), Config.sha3 (layersBytes s),
   Config.sha3 ((grantWords (sharedGrants s)).flatMap (leBytes 4)), Config.sha3 (rangeBytes s),
   Config.sha3 (addrs.flatMap fun a => leBytes 4 (regWord s a)), Config.sha3 (s.image.lattice.flatMap candBytes),
   Config.sha3 (priorBytes s.wld.prior), Config.sha3 (digestBytes s.image.digest ++ digestBytes s.image.kermesDigest),
   Config.sha3 (journalBytes (s.swap.journal.filter fun e => !s.image.deviceLocal.contains (e.1 / 32)))]

/-- The digests of the state are taken and sent (R460). -/
def sendDigests (s : State) : State :=
  let ds := stateDigests s
  sendWoad 0 (.digest s.frame.num ds) { s with twin := { s.twin with ownDigests := some (s.frame.num, ds) } }

end Sys2Proof.Machine
end

