-- ==== Sys2Proof/Machine/Swap.lean ====
section
/-! DEFINITION. Machine/Swap.lean: staged swaps: opening, the checks of each subsystem, the edge named, the agreement of a
pair, and what takes effect at the edge (R71, R135, R142, R254, R341, R389, R489, R560 to R570, R462, R463). -/

namespace Sys2Proof.Machine

/-! ## The checks of a subsystem (R563, R566) -/

/-- The least and the largest value that the register tables make depend on other settings: DECEL and DECEL_MAX bound each
other (R431), EXTRA starts at the layer's MIN_EXTRA and CAP ends at the domain's share (R213). -/
def dynamicRange (s : State) (mask a lo : Nat) : Nat × Nat :=
  let big := 2 ^ 32
  if a = F.WDN_UMB_CFG_DECEL.addr then
    if lo = 0 then (0, afterSwap s mask F.WDN_UMB_CFG_DECEL_MAX) else (afterSwap s mask F.WDN_UMB_CFG_DECEL, big)
  else if a = F.CND_CAND_CFG_CAP.addr ∧ lo = 0 then
    (1, ((s.image.shares.find? fun x => x.1 = 0).map (·.2)).getD big)
  else if 0x100440 ≤ a ∧ a < 0x100480 then
    ((((s.image.layers.find? fun l => l.1.val = (a - 0x100440) / 4)).map fun l => l.2.minExtra).getD 0, big)
  else (0, big)

/-- A value of the field at bit lo of the register at an address lies within the image's declared limits (R624). -/
def declaredOk (s : State) (a lo v : Nat) : Bool :=
  (s.image.limits.filter fun x => x.1 = a ∧ x.2.1 = lo).all fun x => decide (x.2.2.1 ≤ v ∧ v ≤ x.2.2.2)

/-- The ranges that are no plain bounds: OCC_TH is signed, −32 to +63 (R147), and only a camera has a virtual channel
(R109). -/
def specialOk (a lo v : Nat) : Bool :=
  if a = F.WLD_OCC_PARAM_OCC_TH.addr ∧ lo = F.WLD_OCC_PARAM_OCC_TH.lo then decide (-32 ≤ signed 8 v ∧ signed 8 v ≤ 63)
  else if (F.ING_STREAM_CFG_VC 16).addr ≤ a ∧ a ≤ (F.ING_STREAM_CFG_VC 35).addr ∧ lo = (F.ING_STREAM_CFG_VC 0).lo then decide (v = 0)
  else true

/-- A staged field lies within its range and the image's declared limits (R624). -/
def fieldOk (s : State) (mask a : Nat) (f : FieldSpec) : Bool :=
  let v := bitsOf (stagedWord s a) f.hi f.lo
  let d := dynamicRange s mask a f.lo
  (f.range.all fun r => decide (r.1 ≤ v ∧ v ≤ r.2)) && decide (d.1 ≤ v ∧ v ≤ d.2) && specialOk a f.lo v && declaredOk s a f.lo v

/-- The fields of word w of a client entry, as high and low bit (R340). -/
def clientFields : Nat → List (Nat × Nat)
  | 0 => [(31, 31), (30, 28), (27, 24), (23, 20), (19, 19), (18, 16), (15, 8), (7, 7), (6, 6), (5, 5), (4, 4), (3, 2)]
  | 1 => [(18, 0)]
  | _ => [(31, 0)]

/-- A staged client entry's word lies within the field ranges of R340, PORT 3 being reserved and QUOTA ending at 262,144, and
within the declared limits of its fields (R3, R624). -/
def clientWordOk (s : State) (a w : Nat) : Bool :=
  (if a % 16 = 0 then bitsOf w 3 2 ≠ 3 else if a % 16 = 4 then decide (bitsOf w 18 0 ≤ 262144) else true) &&
    (clientFields (a % 16 / 4)).all fun f => declaredOk s a f.2 (bitsOf w f.1 f.2)

/-- LIMIT of R566 for one subsystem (R3, R559). -/
def limitsOk (s : State) (mask k : Nat) : Bool :=
  (touched (2 ^ k) s).all fun a =>
    if k = 1 then clientWordOk s a (stagedWord s a) else (rwFields a).all (fieldOk s mask a)

/-- R71: the staged budgets sum to more than the staged period. -/
def budgetsBad (s : State) (mask : Nat) : Bool :=
  decide (((List.range 6).map fun i => afterSwap s mask (F.CND_PHASE_BUDGET_BUDGET i)).sum
    > afterSwap s mask F.CND_FRAME_PERIOD_PERIOD)

/-- R389: FTTI would be less than 64 frame periods. -/
def fttiBad (s : State) (mask : Nat) : Bool :=
  decide (afterSwap s mask F.WDN_SAFE_CFG_FTTI * 25000 < 64 * afterSwap s mask F.CND_FRAME_PERIOD_PERIOD)

/-- Word w of a client's entry after a swap. -/
def clientAfter (s : State) (mask n w : Nat) : Nat := afterSwap s mask (F.CND_CLIENT_WORD n w)

/-- R213: an enabled client would name an inactive layer. -/
def layersBad (s : State) (mask : Nat) : Bool :=
  let active := afterSwap s mask F.CND_LAYER_ACTIVE_ACTIVE
  (List.range 1024).any fun n =>
    let w := clientAfter s mask n 0
    w.testBit 31 && !active.testBit (bitsOf w 23 20)

/-- The client has a pending request or an open long operation. -/
def clientBusy (s : State) (n : Nat) : Bool :=
  (s.cnd.reqs.any fun r => decide (r.client = n)) || s.cnd.ops.any fun o => decide (o.client = n)

/-- The client is a domain's motion client. -/
def isMotionClient (s : State) (n : Nat) : Bool := (List.range 16).any fun d => decide (motionClient s d = n)

/-- The clients whose word 0 a swap changes. -/
def changedClients (s : State) : List Nat :=
  ((changed 2 s).filter fun a => a % 16 = 0).map fun a => (a - 0x110000) / 16

/-- R341: DOMAIN or KEY_SLOT of a busy client, or EN of a domain's motion client. -/
def clientsBad (s : State) : Bool :=
  (changedClients s).any fun n =>
    let old := clientAfter s 0 n 0
    let new := clientAfter s 2 n 0
    (clientBusy s n && (bitsOf old 27 24 ≠ bitsOf new 27 24 || bitsOf old 15 8 ≠ bitsOf new 15 8)) ||
      (isMotionClient s n && old.testBit 31 && !new.testBit 31)

/-- R254: the eight stewards' staged values differ. -/
def stewardsBad (s : State) : Bool :=
  [0x510100, 0x510104, 0x510108].any fun a =>
    (List.range 8).any fun c => decide (stagedWord s (a + c * 0x20000) ≠ stagedWord s a)

/-- The side of a point against a directed edge, as a sign. -/
def sideOf (a b p : Int × Int) : Int := ((b.1 - a.1) * (p.2 - a.2) - (b.2 - a.2) * (p.1 - a.1)).sign

/-- A point on the line of an edge lies within the edge's box. -/
def inSpan (a b p : Int × Int) : Bool :=
  decide (min a.1 b.1 ≤ p.1 ∧ p.1 ≤ max a.1 b.1 ∧ min a.2 b.2 ≤ p.2 ∧ p.2 ≤ max a.2 b.2)

/-- Two edges have a point in common. -/
def edgesMeet (a b c d : Int × Int) : Bool :=
  let s1 := sideOf a b c
  let s2 := sideOf a b d
  let s3 := sideOf c d a
  let s4 := sideOf c d b
  (decide (s1 * s2 < 0) && decide (s3 * s4 < 0)) || (decide (s1 = 0) && inSpan a b c) || (decide (s2 = 0) && inSpan a b d) ||
    (decide (s3 = 0) && inSpan c d a) || (decide (s4 = 0) && inSpan c d b)

/-- A polygon is not simple: two edges that are no neighbours meet, or neighbours fold back onto each other. -/
def selfIntersects (p : List (Int × Int)) : Bool :=
  let n := p.length
  let v := fun (i : Nat) => p.getD (i % n) (0, 0)
  (List.range n).any fun i =>
    (decide (sideOf (v i) (v (i + 1)) (v (i + 2)) = 0) &&
      decide (((v (i + 1)).1 - (v i).1) * ((v (i + 2)).1 - (v (i + 1)).1) +
        ((v (i + 1)).2 - (v i).2) * ((v (i + 2)).2 - (v (i + 1)).2) ≤ 0)) ||
    (List.range n).any fun j =>
      decide (i + 1 < j) && decide ((j + 1) % n ≠ i) && edgesMeet (v i) (v (i + 1)) (v j) (v (j + 1))

/-- The keep-out sets that a swap changes. -/
def changedSets (s : State) : List Nat :=
  (List.range 8).filter fun n => decide (s.wld.koStaged.getD n [] ≠ s.wld.koLive.getD n [])

/-- R135: more than four sets changed, more than 32 polygons in one, a polygon without 3 to 32 vertices or not simple. -/
def keepOutBad (s : State) : Bool :=
  decide ((changedSets s).length > 4) || (changedSets s).any fun n =>
    let k := s.wld.koStaged.getD n []
    decide (k.length > 32) || k.any fun p => decide (p.length < 3 ∨ p.length > 32) || selfIntersects p

/-- CONFLICT of R566 for one subsystem. -/
def conflictIn (s : State) (mask k : Nat) : Bool :=
  match k with
  | 0 => budgetsBad s mask || layersBad s mask || fttiBad s mask
  | 1 => layersBad s mask || clientsBad s
  | 3 => keepOutBad s
  | 5 => stewardsBad s
  | 9 => fttiBad s mask
  | 12 => s.swap.tweakStaged
  | _ => false

/-- The reason for which a subsystem refuses its staged copies (R563, R566): the first in the table; 0 for none. -/
def stageReason (s : State) (mask k : Nat) : Nat :=
  if !limitsOk s mask k then 1 else if conflictIn s mask k then 2 else 0

/-! ## Opening (R562, R566, R625) -/

/-- A request that opens no swap: its staged copies return to the live values, but for those that the open swap holds. -/
def refuseUnopened (reason mask : Nat) (s : State) : State :=
  let held := (s.swap.user.map (·.mask)).getD 0
  let s1 := setFld F.CND_SWAP_FRAME_FRAME (frameN s) (setFld F.CND_SWAP_STAT_REASON reason
    (resetStaged (mask &&& (0x1FFF - held % 2 ^ 13)) s))
  let s2 := if s.swap.user.isNone then setFld F.CND_SWAP_STAT_STATE 4 (setFld F.CND_SWAP_STAT_STAGED 0 s1) else s1
  swapRefused reason mask false s2

/-- The staged copies that are no registers take what was written to them, unless an open swap locks them (R562). -/
def stageTables (t : StagedTables) (s : State) : State :=
  let held := (s.swap.user.map (·.mask)).getD 0
  let s1 := if held.testBit 3 then s
    else { s with wld := { s.wld with
      koStaged := t.keepOut.foldl (fun l k => modAt k.1.val (fun _ => k.2) l) s.wld.koStaged } }
  if held.testBit 12 then s1
  else { s1 with swap := { s1.swap with
    grantsStaged := t.grants.orElse fun _ => s1.swap.grantsStaged, tweakStaged := s1.swap.tweakStaged || t.tweaks } }

/-- A user swap opens: its subsystems are asked to stage (R562, R563). -/
def openUser (origin : SwapOrigin) (mask target : Nat) (edge : Option FrameNo) (s : State) : State :=
  showSwap 1 0 0 { s with swap := { s.swap with
    user := some { mask := mask, origin := origin, opened := s.frame.num, target := target, staged := 0, edge := edge
                   committed := false, agreed := false } } }

/-- SWAP_REQUEST (R561, R562, R566, R625): REQ from the Warden core or, through SUP_SWAP_CTL, from the host; t is what
stands in the staged tables. -/
def takeSwapRequest (r : Requester) (mask : BitVec 13) (t : StagedTables) (s : State) : State :=
  fabric s fun s =>
    let m := mask.toNat
    let s0 := stageTables t (if r = .host then setFld F.SUP_SWAP_CTL_MASK m s else setFld F.CND_SWAP_CTL_MASK m s)
    if s.swap.user.isSome then refuseUnopened 5 m s0
    else
      match r with
      | .warden => openUser .core m (fld s F.CND_SWAP_TARGET_TARGET) none s0
      | .host =>
        if m &&& s.image.hostWriteMask.toNat = m then openUser .host m (fld s F.SUP_SWAP_TARGET_TARGET) none s0
        else refuseUnopened 10 m s0
      | _ => refuseUnopened 10 m s0

/-- The command SwapRequest, as above. -/
def execSwapRequest (r : Requester) (mask : BitVec 13) (t : StagedTables) (s : State) : Host.Outcome State Fault Refusal :=
  .next (takeSwapRequest r mask t s)

/-- SWAP_CANCEL (R566, R567): before the commit it refuses the open swap as CANCELLED; after it, it has no effect. -/
def takeSwapCancel (r : Requester) (s : State) : State :=
  live s fun s =>
    match s.swap.user with
    | none => s
    | some o =>
      if o.committed || o.origin = .twin || !(r = .warden || r = .host) then s else refuseUser 9 s

/-- The command SwapCancel, as above. -/
def execSwapCancel (r : Requester) (s : State) : Host.Outcome State Fault Refusal :=
  .next (takeSwapCancel r s)

/-! ## Every subsystem staged (R462, R564) -/

/-- The swap changes nothing but registers that the image marks device-local (R460, R462). -/
def deviceLocalSwap (s : State) (mask : Nat) : Bool :=
  ((changed mask s).all fun a => s.image.deviceLocal.contains a) && !(mask.testBit 3 && changedSets s ≠ []) &&
    !(mask.testBit 12 && s.swap.grantsStaged.isSome)

/-- The values of a pair swap: what differs from the live copies. -/
def stagedVals (mask : Nat) (s : State) : List StagedVal :=
  (changed mask s).map fun a => ⟨a, BitVec.ofNat 32 (stagedWord s a)⟩

/-- The staged tables of a pair swap. -/
def stagedTables (mask : Nat) (s : State) : StagedTables :=
  { keepOut := if mask.testBit 3 then (changedSets s).map fun n => (Fin.ofNat 8 n, s.wld.koStaged.getD n []) else []
    grants := if mask.testBit 12 then s.swap.grantsStaged else none
    tweaks := false }

/-- Whether frame a comes at or after frame b (R8). -/
def frameGe (a b : FrameNo) : Bool := decide (frameDist b a < 2 ^ 31)

/-- The edge that the primary picks (R462): TARGET where that leaves SWAP_LEAD frames, else the earliest that does. -/
def pairEdge (s : State) (target : Nat) : FrameNo :=
  let e := s.frame.num + BitVec.ofNat 32 (fld s F.WOD_EDGE_CFG_SWAP_LEAD)
  if target ≠ 0 ∧ frameGe (BitVec.ofNat 32 target) e then BitVec.ofNat 32 target else e

/-- Every subsystem of the open swap has reported staged: the journal must hold the change; then the edge is named and the
commit goes out, or the pair agrees under R462. -/
def allStaged (o : OpenSwap) (s : State) : State :=
  let f2 := s.frame.num + 2
  let tgt := BitVec.ofNat 32 o.target
  let put := fun (x : OpenSwap) (s : State) => { s with swap := { s.swap with user := some x } }
  let named := fun (e : FrameNo) (s : State) => setFld F.CND_SWAP_FRAME_FRAME e.toNat (setFld F.CND_SWAP_STAT_STATE 2 s)
  if (journalAfter o.mask s).length > 32768 then refuseUser 8 s
  else if o.origin = .twin then sendWoad 0 (.ack (o.edge.getD 0)) s
  else if paired s && !deviceLocalSwap s o.mask then
    if s.twin.pair = .pairedB then refuseUser 6 s
    else
      let e := pairEdge s o.target
      let m : ProposeMsg := { s := e, mask := BitVec.ofNat 13 o.mask, vals := stagedVals o.mask s
                              tables := stagedTables o.mask s, recentre := none
                              digest := stagedDigest (stagedVals o.mask s) (stagedTables o.mask s) none }
      sendWoad 0 (.propose m) (put { o with edge := some e } s)
  else if o.target = 0 then named f2 (put { o with edge := some f2, committed := true, agreed := true } s)
  else if frameGe tgt f2 then named tgt (put { o with edge := some tgt, committed := true, agreed := true } s)
  else refuseUser 4 s

/-- STAGE_REPORT (R563, R564, R566): a subsystem has checked its staged copies and reports staged, or refuses. -/
def execStageReport (subsystem : Fin 13) (s : State) : Host.Outcome State Fault Refusal :=
  let k := subsystem.val
  .next (fabric s fun s =>
    match s.swap.user with
    | none => s
    | some o =>
      if !o.mask.testBit k || o.staged.testBit k || o.agreed then s
      else
        match stageReason s o.mask k with
        | 0 =>
          let o' := { o with staged := o.staged ||| 2 ^ k }
          let s1 := setFld F.CND_SWAP_STAT_STAGED o'.staged { s with swap := { s.swap with user := some o' } }
          if o'.staged = o.mask then allStaged o' s1 else s1
        | r => refuseUser r s)

/-- STAGE_LIMIT_EXPIRY (R462, R566): not every subsystem staged, and in a pair acknowledged, by STAGE_LIMIT frames after the
opening. -/
def execStageLimitExpiry (s : State) : Host.Outcome State Fault Refusal :=
  .next (fabric s fun s =>
    match s.swap.user with
    | none => s
    | some o =>
      if !o.agreed && !o.committed && decide (frameDist o.opened s.frame.num ≥ fld s F.CND_SWAP_LIMIT_STAGE_LIMIT) then
        refuseUser 3 s
      else s)

/-! ## The edge (R341, R565, R568) -/

/-- The live copies take the staged ones: prescribed writes (R379, R565). -/
def copyLive (mask : Nat) (s : State) : State :=
  (touched mask s).foldl (fun s a =>
    (rwFields a).foldl (fun s f => setFld ⟨a, f.hi, f.lo⟩ (bitsOf (stagedWord s a) f.hi f.lo) s) s) s

/-- R341: the clients that a swap disabled: their pending requests end as REVOKED, their operations as if by CANCEL. -/
def endClient (n : Nat) (s : State) : State :=
  let mine := s.cnd.reqs.filter fun r => r.client = n
  let s1 := mine.foldl (fun s r => queueAnswer r 0x18 0 [] (endReq r s)) s
  (s1.cnd.ops.filter fun o => o.client = n).foldl (fun s o => beginCancel o s) s1

/-- The record of an applied swap: event 4. -/
def swapApplied (mask : Nat) (recentre : Bool) (s : State) : State :=
  report { unit := swapUnit, cls := 0x10, ev := 4, sev := .note
           detail := frameN s + mask * 2 ^ 32 + (if recentre then 2 ^ 45 else 0) }
    (setFld F.WDN_JOURNAL_STAT_SWAP_GEN (fld s F.WDN_JOURNAL_STAT_SWAP_GEN + 1) s)

/-- A pair swap counts in SWAP_GEN and enters the journal that a joining device receives (R443, R462). -/
def countPairSwap (w : PairSwap) (s : State) : State :=
  setFld F.WOD_SWAP_STAT_SWAP_GEN (fld s F.WOD_SWAP_STAT_SWAP_GEN + 1)
    { s with twin := { s.twin with pairSwaps := s.twin.pairSwaps ++ [w] } }

/-- The slots that a swap of the client table closes (R493, R497): the old and the new KEY_SLOT of each client whose
KEY_SLOT it changes. -/
def swapSlots (s : State) : List Nat :=
  (changedClients s).flatMap fun n =>
    let a := bitsOf (clientAfter s 0 n 0) 15 8
    let b := bitsOf (clientAfter s 2 n 0) 15 8
    if a = b then [] else [a, b]

/-- What the units make of the registers that a swap changed, where they keep more than the registers: a stream that the swap
enabled begins anew (R95, R98, R99), the time reference is chosen again (R106), the watch count of a new watch starts at 0
(R183), the Solver's resident structure is computed again (R290). chg are the addresses that changed, on the streams that
were enabled before. -/
def afterCopy (chg on : List Nat) (s : State) : State :=
  let fresh := (List.range 36).filter fun n => streamOn s n && !on.contains n
  let s1 := fresh.foldl (fun s n => enableStream n s.time.count (some s.time.count) s) s
  let s2 := if chg.contains F.WDN_TIME_CFG_SLAVE_MASK.addr then takeSource s1 else s1
  let s3 := if chg.contains F.INF_RG_WATCH_EN.addr then setFld F.INF_RG_WATCH_CNT_COUNT 0 s2 else s2
  refreshResident s3

/-- The streams that are enabled. -/
def streamsOn (s : State) : List Nat := (List.range 36).filter fun n => streamOn s n

/-- An agreed user swap takes effect (R565): live copies, keep-out sets and grants, the journal, the clients it disabled. -/
def applyUser (o : OpenSwap) (s : State) : State :=
  let isPair : Bool := paired s && !deviceLocalSwap s o.mask
  let off := if o.mask.testBit 1 then (changedClients s).filter fun n =>
      (clientAfter s 0 n 0).testBit 31 && !(clientAfter s 2 n 0).testBit 31 else []
  let w : PairSwap := ⟨stagedVals o.mask s, stagedTables o.mask s⟩
  let j := journalAfter o.mask s
  let s1 := afterCopy (changed o.mask s) (streamsOn s) (copyLive o.mask s)
  let s2 := if o.mask.testBit 3 then { s1 with wld := { s1.wld with koLive := s1.wld.koStaged } } else s1
  let s3 := if o.mask.testBit 12 then
      { s2 with swap := { s2.swap with grants := s2.swap.grantsStaged.orElse fun _ => s2.swap.grants, grantsStaged := none } }
    else s2
  let s4 := showJournal { s3 with swap := { s3.swap with journal := j, user := none } }
  let shut := if o.mask.testBit 1 then swapSlots s else []
  let s5 := shut.foldl (fun s k => closeSlot k 3 s) (off.foldl (fun s n => endClient n s) s4)
  let s6 := if isPair then countPairSwap w s5 else s5
  swapApplied o.mask false (setFld F.CND_SWAP_STAT_STATE 3 s6)

/-- The user swap at an edge: it applies where its edge was agreed; one whose edge comes without agreement is refused, for
the twin did not acknowledge. -/
def userEdge (s : State) : State :=
  match s.swap.user with
  | none => s
  | some o =>
    match o.edge with
    | none => s
    | some e =>
      if !frameGe s.frame.num e then s else if o.agreed then applyUser o s else refuseUser 6 s

/-- The re-centring swap at an edge (R142, R143, R569, R463): it takes effect at its edge; once staged, a frame after its
opening, its edge is named, or proposed to the twin, or acknowledged. -/
def recentreEdge (s : State) : State :=
  match s.swap.recentre with
  | none => s
  | some o =>
    let put := fun (x : RecSwap) (s : State) => { s with swap := { s.swap with recentre := some x } }
    match o.edge with
    | some e =>
      if frameGe s.frame.num e then
        if o.agreed then
          let s1 := applyRecentre o.dx o.dy { s with swap := { s.swap with recentre := none } }
          let s2 := if paired s then countPairSwap ⟨[], ⟨[], none, false⟩⟩ s1 else s1
          swapApplied 0 true (setFld F.CND_RECENTER_STAT_STATE 3 s2)
        else refuseRecentre 6 s
      else if o.twin && !o.committed then sendWoad 0 (.ack e) (put { o with committed := true } s)
      else s
    | none =>
      if o.opened = s.frame.num then s
      else if s.twin.pair = .pairedA then
        let e := pairEdge s 0
        let d := some (o.dx, o.dy)
        let m : ProposeMsg := { s := e, mask := 0, vals := [], tables := ⟨[], none, false⟩, recentre := d
                                digest := stagedDigest [] ⟨[], none, false⟩ d }
        sendWoad 0 (.propose m) (put { o with edge := some e } s)
      else setFld F.CND_RECENTER_STAT_STATE 2 (put { o with edge := some (s.frame.num + 2), committed := true, agreed := true } s)

/-- World opens a re-centring swap at an edge at which R142 holds and none is open; a secondary computes none (R463). -/
def openRecentre (s : State) : State :=
  let e := edgePose s
  if s.swap.recentre.isNone && recentreDue e && !(s.twin.pair = .pairedB) then
    let d := recentreShift e
    setFld F.CND_RECENTER_STAT_STATE 1 { s with swap := { s.swap with
      recentre := some { dx := d.1, dy := d.2, opened := s.frame.num, edge := none, committed := false, agreed := false
                         twin := false } } }
  else s

/-- One swap of a journal as a joining device applies it (R443): register values, keep-out sets and grants. -/
def applyPairSwap (s : State) (w : PairSwap) : State :=
  let enter := fun (j : Tab Nat) (v : StagedVal) => (rwFields v.addr).foldl (fun j f =>
    tabPut (imageValue s.image v.addr f) j (fieldPlace v.addr f.lo) (bitsOf v.val.toNat f.hi f.lo)) j
  let s1 := afterCopy (w.vals.map (·.addr)) (streamsOn s)
    (w.vals.foldl (fun s v => setReg (setReg s v.addr v.val.toNat) (v.addr + 0x8000) v.val.toNat) s)
  let ko := w.tables.keepOut.foldl (fun l k => modAt k.1.val (fun _ => k.2) l) s.wld.koLive
  let j1 := w.tables.keepOut.foldl (fun j k => journalKo s.image k.1.val k.2 j) (w.vals.foldl enter s.swap.journal)
  let j2 := match w.tables.grants with
    | some g => journalGrants s.image g j1
    | none => j1
  { s1 with
    wld := { s1.wld with koLive := ko, koStaged := ko }
    swap := { s1.swap with journal := j2, grants := w.tables.grants.orElse fun _ => s1.swap.grants } }

/-- A joining device swaps the journal in, alone, and the digests are compared at once (R443); the running device sends its
digests at the same edge. -/
def joinEdge (s : State) : State :=
  match s.swap.join with
  | none => s
  | some (e, ws) =>
    if !frameGe s.frame.num e then s
    else sendDigests (showJournal (ws.foldl applyPairSwap { s with swap := { s.swap with join := none } }))

/-- The swaps of an edge (R39, R565, R567): re-centring first. -/
def swapEdge (s : State) : State := userEdge (joinEdge (recentreEdge s))

/-! ## The journal at a restart (R570) and a reload (R461) -/

/-- A keep-out set as the image and the journal give it. -/
def journalledSet (s : State) (n : Nat) : KoSet :=
  let base := koWords (s.image.keepOut.getD n [])
  let ws := (List.range 2081).map fun i => tabGet (base.getD i 0) s.swap.journal (2 ^ 40 + n * 2 ^ 16 + i)
  (koPolys (min (ws.headD 0) 32) ws.tail).1

/-- The shared-unit grants as the image and the journal give them; none where they are the image's. -/
def journalledGrants (s : State) : Option (List (Nat × Fin 16)) :=
  let base := grantWords s.image.sharedOpen
  let word := fun (i : Nat) => tabGet (base.getD i 0) s.swap.journal (2 ^ 41 + i)
  let g := grantsOf ((List.range (word 0 + 1)).map word)
  if g = s.image.sharedOpen then none else some g

/-- One item of R460 as the image and the journal give it (R461, R570): 1 the keep-out tables, 2 the layers, 3 the domain map
but for its tweak numbers, 4 the range and lookup tables. -/
def reloadTable (i : Nat) (s : State) : State :=
  match i with
  | 1 => { s with wld := { s.wld with koLive := (List.range 8).map (journalledSet s), koStaged := (List.range 8).map (journalledSet s) } }
  | 2 => { s with wld := { s.wld with layers := s.image.layers.map fun l => (l.1.val, l.2) } }
  | 3 => { s with swap := { s.swap with grants := journalledGrants s } }
  | 4 => { s with mem := { s.mem with liveWrites := s.mem.liveWrites.filter fun w => w.1 ≠ .ranges } }
  | _ => s

/-- Every journal entry of a register goes into the live copies of a mask, and every other field of it back to the image's
value; the staged copies follow. -/
def reloadRegs (mask : Nat) (s : State) : State :=
  let value := fun (a : Nat) (f : FieldSpec) => tabGet (imageValue s.image a f) s.swap.journal (fieldPlace a f.lo)
  let s1 := (touched mask s).foldl (fun s a =>
    (rwFields a).foldl (fun s f => setFld ⟨a, f.hi, f.lo⟩ (value a f) s) s) s
  (touched mask s1).foldl (fun s a => setReg s (a + 0x8000) (regWord s a)) s1

end Sys2Proof.Machine
end

