-- ==== Sys2Proof/Machine/Gauss.lean ====
section
/-! DEFINITION. Machine/Gauss.lean: the arithmetic of a Solver lane: Q16.16 values, dot products and guards (R298 to R300), the
divide and square-root unit (R301, R302), the Jacobians, the blocks of the normal system (R289 to R291), its factorisation and
solution (R293). -/

namespace Sys2Proof.Machine

/-! ## Fixed-point arithmetic (R298, R299, R301) -/

/-- A value held to 64 bits. -/
def sat64 (v : Int) : Int := clampI (-2 ^ 63) (2 ^ 63 - 1) v

/-- A dot product onto a 64-bit accumulator in Q32.32, in ascending order (R299). -/
def dotOnto (acc : Int) (a b : List Int) : Int := (a.zip b).foldl (fun s x => sat64 (s + x.1 * x.2)) acc

/-- An accumulator rounded to a 32-bit destination (R299). -/
def roundQ (acc : Int) : Int := sat32 (roundDiv acc 65536)

/-- A dot product of Q16.16 values. -/
def dotQ (a b : List Int) : Int := roundQ (dotOnto 0 a b)

/-- A product of Q16.16 values. -/
def mulQ (a b : Int) : Int := dotQ [a] [b]

/-- A quotient of Q16.16 values (R301); the divisor is positive. -/
def divQ (a : Int) (b : Int) : Int := sat32 (roundDiv (a * 65536) b.toNat)

/-- The square root of a pivot in Q16.16 (R301): no value lies half-way between two of them. -/
def sqrtQ (a : Int) : Int :=
  let n := a.toNat * 65536
  let r := isqrt n
  Int.ofNat (if n - r * r > r then r + 1 else r)

/-- The reciprocal stage (R301), which takes the root as it is forwarded. -/
def recipQ (root : Int) : Int := roundDiv (2 ^ 32) root.toNat

/-- Element i, j. -/
def matAt (m : Mat) (i j : Nat) : Int := (m.getD i []).getD j 0

/-- A matrix from its elements. -/
def matOf (r c : Nat) (f : Nat → Nat → Int) : Mat := (List.range r).map fun i => (List.range c).map (f i)

/-- The transpose of a matrix with c columns. -/
def transposed (c : Nat) (m : Mat) : Mat := (List.range c).map fun j => m.map fun r => r.getD j 0

/-- A product of matrices; the second has c columns. -/
def mulMat (c : Nat) (a b : Mat) : Mat :=
  let t := transposed c b
  a.map fun r => t.map fun x => dotQ r x

/-- A sum of matrices. -/
def addMat (a b : Mat) : Mat := (a.zip b).map fun x => (x.1.zip x.2).map fun y => sat32 (y.1 + y.2)

/-- A matrix times a Q16.16 value. -/
def scaleMat (v : Int) (a : Mat) : Mat := a.map fun r => r.map (mulQ v)

/-! ## Range guards (R298, R300) -/

/-- The kinds of solver variables (R298), in the order of its table: X, Y, the heading, joint angles, the hitch height, curvature,
speed, then A, B, residuals, D, C, S, L, E, g and Δz. DESIGN CHOICE (log 123): their numbers. -/
structure SlvRange where
  kind : Nat
  bound : Nat
  crit : Bool
deriving DecidableEq, Repr

/-- The declared range of a kind (R298): what the image declares, else the default; range analysis gives the others, and without it the
format bounds them. -/
def rangeOf (rs : List (Nat × Nat × Bool)) (k : Nat) : SlvRange :=
  match rs.find? fun r => r.1 = k with
  | some r => ⟨k, r.2.1, r.2.2⟩
  | none =>
    let d := match k with
      | 0 => 64 | 1 => 64 | 2 => 4 | 3 => 4 | 4 => 4 | 5 => 8 | 6 => 32 | _ => 32767
    ⟨k, d * 65536, false⟩

/-- A guard event: the kind of the variable, whether it was above its range, and whether it is critical. -/
abbrev GuardEv := Nat × Bool × Bool

/-- A value written to a solver variable: clamped to its range, with the event if it lay outside. -/
def guardVal (r : SlvRange) (v : Int) : Int × List GuardEv :=
  let b := Int.ofNat r.bound
  if v > b then (b, [(r.kind, true, r.crit)])
  else if v < -b then (-b, [(r.kind, false, r.crit)])
  else (v, [])

/-- The same for a list of values. -/
def guardList (r : SlvRange) (vs : List Int) : List Int × List GuardEv :=
  let xs := vs.map (guardVal r)
  (xs.map (·.1), xs.flatMap (·.2))

/-- The same for a matrix. -/
def guardMat (r : SlvRange) (m : Mat) : Mat × List GuardEv :=
  let xs := m.map (guardList r)
  (xs.map (·.1), xs.flatMap (·.2))

/-! ## States, controls and dimensions (R286, R289) -/

/-- n, the dimension of the state: X, Y, the heading, the joint angles, and the hitch height of a mounted layer. -/
def stateDim (l : Layer) : Nat := 2 + l.bodies.length + (if l.mounted then 1 else 0)

/-- An angle in 2^-32 turn as radians in Q16.16. -/
def radQ (a : Int) : Int := roundDiv (a * 2 * pi96) (2 ^ 112)

/-- The joint angle of body b (1 to 4). -/
def jointOf (l : Layer) (c : Cfg) (b : Nat) : Int :=
  wrapA (c.th.getD ((l.bodies.getD b ⟨0, 0, 0, 0, 0⟩).parent) 0 - c.th.getD b 0)

/-- The unknowns of a knot in order, each with its kind: state, then curvature and speed. -/
def knotVector (l : Layer) (edge c : Cfg) : List (Nat × Int) :=
  let p := c.pos.getD 0 (0, 0)
  let e := edge.pos.getD 0 (0, 0)
  [(0, roundDiv (p.1 - e.1) 8), (1, roundDiv (p.2 - e.2) 8), (2, radQ (c.th.getD 0 0 - edge.th.getD 0 0))]
  ++ (List.range (l.bodies.length - 1)).map (fun i => (3, radQ (jointOf l c (i + 1))))
  ++ (if l.mounted then [(4, 2 * c.z)] else [])
  ++ [(5, roundDiv c.kap 64), (6, roundDiv c.vel 16)]

/-- The unknowns of all the knots of an expansion, guarded. -/
def knotVectors (rs : List (Nat × Nat × Bool)) (l : Layer) (x : Expn) : List (List Int) × List GuardEv :=
  let edge := x.cfgs.headD ⟨[], [], 0, 0, 0⟩
  let one := fun (c : Cfg) =>
    let vs := (knotVector l edge c).map fun v => guardVal (rangeOf rs v.1) v.2
    (vs.map (·.1), vs.flatMap (·.2))
  let all := (x.cfgs.drop 1).map one
  (all.map (·.1), all.flatMap (·.2))

/-! ## Jacobians (R290) -/

/-- A quantity and its gradient by the unknowns of a knot. -/
structure Dual where
  v : Int
  g : List Int

/-- The unit gradient of unknown i among q. -/
def unitGrad (q i : Nat) : List Int := (List.range q).map fun j => if j = i then 65536 else 0

/-- a·x + b·y of gradients. -/
def mixGrad (a : Int) (x : List Int) (b : Int) (y : List Int) : List Int := (x.zip y).map fun p => dotQ [a, b] [p.1, p.2]

/-- Speed and yaw rate of each body with their gradients (R192), parents before children. -/
def bodyDuals (l : Layer) (psi : Nat → Int) (k v : Int) : List (Nat × (Dual × Dual)) :=
  let n := stateDim l
  let q := n + 2
  let base : Dual × Dual :=
    (⟨v, unitGrad q (n + 1)⟩, ⟨mulQ k v, mixGrad v (unitGrad q n) k (unitGrad q (n + 1))⟩)
  (bodyOrder l).foldl (fun acc x =>
    let p := ofBody base acc x.2.parent
    let a := psi x.1
    let s := roundDiv (sinA a) (2 ^ 14)
    let c := roundDiv (cosA a) (2 ^ 14)
    let h := x.2.h * 64
    let d := Int.ofNat x.2.d * 64
    let e := unitGrad q (2 + x.1)
    let hs := mulQ h s
    let hc := mulQ h c
    let u := dotQ [p.1.v, p.2.v] [c, hs]
    let r := dotQ [p.1.v, p.2.v] [s, -hc]
    let ug := mixGrad 65536 (mixGrad c p.1.g hs p.2.g) (-r) e
    let wg := mixGrad 65536 (mixGrad s p.1.g (-hc) p.2.g) u e
    (x.1, (⟨u, ug⟩, ⟨divQ r d, wg.map fun y => divQ y d⟩)) :: acc) [(0, base)]

/-- The gradient of the rate of each state variable at a sub-step midpoint (R192, R290). -/
def rateGrads (l : Layer) (a b : Cfg) (k v : Int) : Mat :=
  let n := stateDim l
  let q := n + 2
  let psi := fun (i : Nat) => roundDiv (jointOf l a i + jointOf l b i) 2
  let ds := bodyDuals l psi k v
  let th := roundDiv (a.th.getD 0 0 + b.th.getD 0 0) 2
  let s := roundDiv (sinA th) (2 ^ 14)
  let c := roundDiv (cosA th) (2 ^ 14)
  let zero := (List.range q).map fun _ => (0 : Int)
  let get := fun (i : Nat) => ofBody (⟨0, zero⟩, ⟨0, zero⟩) ds i
  let turn := unitGrad q 2
  let speed := unitGrad q (n + 1)
  [mixGrad (- mulQ v s) turn c speed, mixGrad (mulQ v c) turn s speed, (get 0).2.g]
  ++ (List.range (l.bodies.length - 1)).map (fun i =>
      mixGrad 65536 (get ((l.bodies.getD (i + 1) ⟨0, 0, 0, 0, 0⟩).parent)).2.g (-65536) (get (i + 1)).2.g)
  ++ (if l.mounted then [zero] else [])

/-- The Jacobians of one interval: A by the state, B by the controls at its start and at its end (R290). -/
structure Jac where
  a : Mat
  b0 : Mat
  b1 : Mat

/-- One sub-step of the chain: m of 8, with the profile's weight at its midpoint; 1/160 s long. -/
def chainStep (l : Layer) (track : List Cfg) (at0 : Nat) (j : Jac) (m : Nat) : Jac :=
  let n := stateDim l
  let c0 := track.getD (at0 + m) ⟨[], [], 0, 0, 0⟩
  let c1 := track.getD (at0 + m + 1) c0
  let k := roundDiv (c0.kap + c1.kap) 128
  let v := roundDiv (c0.vel + c1.vel) 32
  let g := rateGrads l c0 c1 k v
  let f := matOf n n fun i x => roundDiv (matAt g i x) 160 + if i = x then 65536 else 0
  let w1 : Int := (2 * Int.ofNat m + 1) * 4096
  let u := fun (w : Int) => matOf n 2 fun i x => mulQ w (roundDiv (matAt g i (n + x)) 160)
  ⟨mulMat n f j.a, addMat (mulMat 2 f j.b0) (u (65536 - w1)), addMat (mulMat 2 f j.b1) (u w1)⟩

/-- The Jacobians of the interval that ends at knot k + 1, for k from 0 to 62. -/
def jacobian (l : Layer) (x : Expn) (k : Nat) : Jac :=
  let n := stateDim l
  let zero := matOf n 2 fun _ _ => 0
  let unit := matOf n n fun i j => if i = j then 65536 else 0
  (List.range 8).foldl (chainStep l x.track (8 * (k + 1))) ⟨unit, zero, zero⟩

/-! ## The normal system (R289 to R291) -/

/-- A weight in 1/256 as Q16.16. -/
def weightQ (w : Nat) : Int := Int.ofNat w * 256

/-- μ = 2^-MU_SHIFT in Q16.16. -/
def muQ (r : Resident) : Int := Int.ofNat (2 ^ (16 - r.mu))

/-- The constant contribution of the tracking, smoothness and joint terms, and of μ, to D_k. -/
def residentD (r : Resident) (l : Layer) (k : Nat) : Mat :=
  let n := stateDim l
  let twice := fun (w : Nat) => weightQ w * (if k < 63 then 2 else 1)
  let d := fun (i : Nat) =>
    if i < 2 then weightQ r.trk
    else if i = 2 then 0
    else if i < 2 + l.bodies.length then weightQ r.jnt
    else if i < n then 0
    else if i = n then twice r.dk
    else twice r.dv
  matOf (n + 2) (n + 2) fun i j => if i = j then sat32 (d i + muQ r) else 0

/-- The constant contribution to C_k, for k from 1. -/
def residentC (r : Resident) (l : Layer) : Mat :=
  let n := stateDim l
  matOf (n + 2) (n + 2) fun i j => if i ≠ j ∨ i < n then 0 else if i = n then - weightQ r.dk else - weightQ r.dv

/-- The two halves of a defect's row block by knots k and k + 1: [A B0] and [I −B1], without sign. -/
def defectHalves (l : Layer) (j : Jac) : Mat × Mat :=
  let n := stateDim l
  ((List.range n).map fun i => j.a.getD i [] ++ j.b0.getD i [],
   (List.range n).map fun i => unitGrad n i ++ (j.b1.getD i []).map fun v => -v)

/-- The contributions of all the defects, with weight w in Q16.16 (R289): d_k couples knots k and k + 1. -/
def contribs (l : Layer) (w : Int) (js : List Jac) : List Contrib :=
  let q := stateDim l + 2
  let hs := js.map (defectHalves l)
  let zero := matOf q q fun _ _ => 0
  let sq := fun (a b : Mat) => scaleMat w (mulMat q (transposed q a) b)
  (List.range 64).map fun k =>
    let from' := match hs[k]? with
      | some h => sq h.1 h.1
      | none => zero
    match (if k = 0 then none else hs[k - 1]?) with
    | some h => ⟨addMat from' (sq h.2 h.2), (sq h.2 h.1).map fun r => r.map fun v => -v⟩
    | none => ⟨from', zero⟩

/-- Some entry of a new matrix differs from the stored one by more than th. -/
def differs (th : Nat) (a b : Mat) : Bool := (a.zip b).any fun x => (x.1.zip x.2).any fun y => decide ((y.1 - y.2).natAbs > th)

/-- R291: the stored contributions after the rewrite, and the lowest block rewritten; with UPD_TH 0, or with nothing stored, every
block is. -/
def rewrite (th : Nat) (old new : List Contrib) : List Contrib × Nat :=
  if th = 0 ∨ old = [] then (new, 0)
  else
    let hit := fun (x : Contrib × Contrib) => differs th x.1.d x.2.d || differs th x.1.c x.2.c
    let zs := old.zip new
    (zs.map fun x => if hit x then x.2 else x.1, (zs.findIdx? hit).getD zs.length)

/-- The residuals of the merit at every knot (R289), by unknown: at the iterate the defects are zero. zs are the unknowns of the iterate,
xs those of the source candidate, edge the curvature and speed of the edge. -/
def residuals (l : Layer) (edge : Int × Int) (zs xs : List (List Int)) : Mat :=
  let n := stateDim l
  let before := fun (k i : Nat) => if k = 0 then (if i = n then edge.1 else edge.2) else matAt zs (k - 1) i
  matOf 64 (n + 2) fun k i =>
    if i < 2 then matAt zs k i - matAt xs k i
    else if i = 2 then 0
    else if i < 2 + l.bodies.length then matAt zs k i
    else if i < n then 0
    else matAt zs k i - before k i

/-- The right-hand side g = −JᵀWr at every knot (R289) from the residuals. -/
def gradient (r : Resident) (l : Layer) (rs : Mat) : Mat :=
  let n := stateDim l
  matOf 64 (n + 2) fun k i =>
    let w := weightQ (if i < 2 then r.trk else if i < n then r.jnt else if i = n then r.dk else r.dv)
    if i < n then dotQ [-w] [matAt rs k i]
    else dotQ [w, w] [- matAt rs k i, if k < 63 then matAt rs (k + 1) i else 0]

/-! ## Factorisation and solution (R293, R301) -/

/-- Element i, j of L_k. -/
def lowAt (f : Factor) (i j : Nat) : Int := matAt f.cols j i

/-- Column i of a block's factor from its Schur complement, where the pivot reaches pmin. -/
def factorColumn (q : Nat) (pmin : Int) (sch : Mat) (acc : Option (Mat × List Int)) (i : Nat) : Option (Mat × List Int) :=
  match acc with
  | none => none
  | some (cols, rs) =>
    let low := fun (r : Nat) => cols.map fun c => c.getD r 0
    let v := fun (r : Nat) => roundQ (dotOnto (matAt sch r i * 65536) ((low r).map fun x => -x) (low i))
    if v i < pmin then none
    else
      let root := sqrtQ (v i)
      let rec' := recipQ root
      some (cols ++ [(List.range q).map fun r => if r < i then 0 else if r = i then root else mulQ (v r) rec'], rs ++ [rec'])

/-- E_k = C_k L^-T of the block before, row by row. -/
def solveE (q : Nat) (c : Mat) (f : Factor) : Mat :=
  c.map fun row => (List.range q).foldl (fun e j =>
    let l := (List.range j).map fun m => lowAt f j m
    e ++ [mulQ (roundQ (dotOnto (row.getD j 0 * 65536) (e.map fun x => -x) l)) (f.recip.getD j 0)]) []

/-- The factors so far with the guard events, or none after a pivot below PIVOT_MIN. -/
abbrev Factoring := Option (List Factor) × List GuardEv

/-- Block k: its Schur complement, guarded, and its factor (R293). -/
def factorBlock (rs : List (Nat × Nat × Bool)) (q : Nat) (pmin : Int) (st : Factoring) (b : Mat × Mat) : Factoring :=
  match st.1 with
  | none => st
  | some fs =>
    let e := match fs.getLast? with
      | some f => guardMat (rangeOf rs 14) (solveE q b.2 f)
      | none => ([], [])
    let et := fun (i j : Nat) => dotOnto (matAt b.1 i j * 65536) ((e.1.getD i []).map fun x => -x) (e.1.getD j [])
    let sch := guardMat (rangeOf rs 12) (matOf q q fun i j => roundQ (et i j))
    match (List.range q).foldl (factorColumn q pmin sch.1) (some ([], [])) with
    | none => (none, st.2 ++ e.2 ++ sch.2)
    | some (cols, recs) =>
      let c := guardMat (rangeOf rs 13) cols
      (some (fs ++ [⟨c.1, recs, e.1⟩]), st.2 ++ e.2 ++ sch.2 ++ c.2)

/-- Factorisation from block j on, with the factors of the blocks before it as they stand (R291, R293). -/
def factorise (rs : List (Nat × Nat × Bool)) (q : Nat) (pmin : Int) (blocks : List (Mat × Mat)) (old : List Factor) (j : Nat) :
    Factoring :=
  (blocks.drop j).foldl (factorBlock rs q pmin) (some (old.take j), [])

/-- The forward solution of one block: L y = b. -/
def forwardBlock (f : Factor) (b : List Int) : List Int :=
  (List.range b.length).foldl (fun y i =>
    y ++ [divQ (roundQ (dotOnto (b.getD i 0 * 65536) (y.map fun x => -x) ((List.range i).map (lowAt f i)))) (lowAt f i i)]) []

/-- The backward solution of one block: Lᵀ w = b, from the last unknown. -/
def backwardBlock (f : Factor) (b : List Int) : List Int :=
  let q := b.length
  (List.range q).reverse.foldl (fun w i =>
    let l := (List.range (q - 1 - i)).map fun m => lowAt f (i + 1 + m) i
    divQ (roundQ (dotOnto (b.getD i 0 * 65536) (w.map fun x => -x) l)) (lowAt f i i) :: w) []

/-- The solution of L Lᵀ Δz = g over all blocks, with its events (R293, R300). -/
def solveBlocks (rs : List (Nat × Nat × Bool)) (fs : List Factor) (g : Mat) : Mat × List GuardEv :=
  let q := (g.headD []).length
  let fwd := (fs.zip g).foldl (fun (ys : Mat) x =>
    let prev := ys.getLastD []
    let b := x.2.zipIdx.map fun v => roundQ (dotOnto (v.1 * 65536) ((x.1.e.getD v.2 []).map fun e => -e) prev)
    ys ++ [forwardBlock x.1 b]) []
  let back := ((fs.zip fwd).zip ((fs.drop 1).map some ++ [none])).reverse.foldl (fun (ws : Mat) x =>
    let next := ws.headD []
    let b := match x.2 with
      | none => x.1.2
      | some f => x.1.2.zipIdx.map fun v =>
          roundQ (dotOnto (v.1 * 65536) ((List.range q).map fun i => - matAt f.e i v.2) next)
    backwardBlock x.1.1 b :: ws) []
  guardMat (rangeOf rs 16) back

/-! ## One linearisation and solution (R290 to R293) -/

/-- What the linearisation, factorisation and solution of an iteration give: the increments of the controls, none where a repeat has
failed too; whether there was a repeat; the guard events; and the store after it. -/
structure GaussOut where
  du : Option (List (Int × Int))
  again : Bool
  events : List GuardEv
  store : LaneStore

/-- One iteration's step at an iterate (R290, R291, R293): x is the iterate's expansion, src the source candidate's. -/
def gaussStep (rs : List (Nat × Nat × Bool)) (wdyn : Nat) (r : Resident) (updTh : Nat) (pmin : Nat) (l : Layer) (st : LaneStore)
    (x src : Expn) : GaussOut :=
  let n := stateDim l
  let q := n + 2
  let edge := x.cfgs.headD ⟨[], [], 0, 0, 0⟩
  let z := knotVectors rs l x
  let zs := knotVectors rs l src
  let js := (List.range 63).map fun k => jacobian l x k
  let ga := js.map fun j => guardMat (rangeOf rs 7) j.a
  let gb := js.map fun j => (guardMat (rangeOf rs 8) j.b0, guardMat (rangeOf rs 8) j.b1)
  let jac := (ga.zip gb).map fun y => (⟨y.1.1, y.2.1.1, y.2.2.1⟩ : Jac)
  let w := rewrite updTh st.contribs (contribs l (weightQ wdyn) jac)
  let blocks := fun (extra : Int) => w.1.zipIdx.map fun c =>
    let plus := matOf q q fun i j => if i = j then extra else 0
    (guardMat (rangeOf rs 10) (addMat (addMat (residentD r l c.2) plus) c.1.d),
     guardMat (rangeOf rs 11) (addMat (residentC r l) c.1.c))
  let bare := fun (bs : List ((Mat × List GuardEv) × (Mat × List GuardEv))) => bs.map fun b => (b.1.1, b.2.1)
  let told := fun (bs : List ((Mat × List GuardEv) × (Mat × List GuardEv))) => bs.flatMap fun b => b.1.2 ++ b.2.2
  let res := guardMat (rangeOf rs 9) (residuals l (roundDiv edge.kap 64, roundDiv edge.vel 16) z.1 zs.1)
  let g := guardMat (rangeOf rs 15) (gradient r l res.1)
  let ev0 := z.2 ++ res.2 ++ (ga.flatMap (·.2)) ++ (gb.flatMap fun y => y.1.2 ++ y.2.2) ++ g.2
  let b1 := blocks 0
  let f1 := factorise rs q (Int.ofNat pmin) (bare b1) st.factors w.2
  let finish := fun (fs : List Factor) (again : Bool) (ev : List GuardEv) =>
    let d := solveBlocks rs fs g.1
    ({ du := some (d.1.map fun v => (v.getD n 0, v.getD (n + 1) 0)), again := again, events := ev ++ d.2
       store := ⟨w.1, fs⟩ } : GaussOut)
  match f1.1 with
  | some fs => finish fs false (ev0 ++ told b1 ++ f1.2)
  | none =>
    let b2 := blocks (15 * muQ r)
    let f2 := factorise rs q (Int.ofNat pmin) (bare b2) [] 0
    let ev := ev0 ++ told b1 ++ f1.2 ++ told b2 ++ f2.2
    match f2.1 with
    | some fs => finish fs true ev
    | none => { du := none, again := true, events := ev, store := ⟨w.1, []⟩ }

end Sys2Proof.Machine
end

