-- ==== Sys2Proof/Machine/Reach.lean ====
section
/-! DEFINITION. Machine/Reach.lean: who may issue a management access (R23, R31, R619), what a write does to the fields of a
register (R12, R13), and the protected tables (R378 to R382). -/

namespace Sys2Proof.Machine

/-! ## Reach (R23) -/

/-- The life-cycle state is DEVELOP (R476: code 1). -/
def inDevelop (s : State) : Bool := s.fuse.lc = 1

/-- JTAG reaches the whole map outside FIELD. -/
def jtagReaches (s : State) : Bool := decide (s.fuse.lc ≠ 2)

/-- The pages that a cluster's steward reaches: its own page, its tiles' pages and its inference tile's page. -/
def stewardPage (c a : Nat) : Bool :=
  let base := 0x500000 + c * 0x20000
  decide (base ≤ a ∧ a < base + 0x20000) ||
    decide (0x400000 + c * 0x10000 ≤ a ∧ a < 0x400000 + c * 0x10000 + 0x10000)

/-- The blocks that the Conductor reaches: CND, ING, WLD, INF, SWP, SEL, SLV and MEM. -/
def conductorBlock (a : Nat) : Bool := decide (0x100000 ≤ a ∧ a < 0x700000) || decide (a / 0x100000 = 8)

/-- The reach table for a write to a live copy (R23, R619): the IND block and the power registers belong to the Warden
core, and to JTAG in DEVELOP. -/
def reachesLive (s : State) (r : Requester) (a : Nat) : Bool :=
  let power : Bool := decide (a / 0x10000 = 0xF0) || decide (0xC00 ≤ a ∧ a < 0xC08) || decide (0x1E00 ≤ a ∧ a < 0x1E08)
  if s.fuse.lc = 4 then false
  else
    match r with
    | .warden => true
    | .jtag => if power then inDevelop s else jtagReaches s
    | .host => decide (0x7C0000 ≤ a ∧ a < 0x800000)
    | .conductor => conductorBlock a
    | .steward c => stewardPage c.val a
    | .dma => false

/-! ## Fields (R12, R13, R340) -/

/-- What a field holds after a write of v to it (R12): RW takes it, W1C and W1S clear and set the bits written 1, RO and WO
keep what they hold. -/
def fieldWrite (acc : Access) (old v : Nat) : Nat :=
  match acc with
  | .ro => old
  | .rw => v
  | .w1c => old &&& (old ^^^ v)
  | .w1s => old ||| v
  | .wo => old

/-- The word that a register holds after a write; reserved bits are not written (R13). -/
def writtenWord (fs : List FieldSpec) (old v : Nat) : Nat :=
  fs.foldl (fun w f => putBits w f.hi f.lo (fieldWrite f.acc (bitsOf old f.hi f.lo) (bitsOf v f.hi f.lo))) old

/-- The bits of a client-table word that are not reserved (R340). -/
def clientMask (ix : List Nat) : Nat :=
  match ix.getLastD 0 with
  | 0 => 0xFFFFFFFC
  | 1 => 0x7FFFF
  | _ => 0xFFFFFFFF

/-- A register is a word of the client table. -/
def isClientWord (reg : RegSpec) : Bool := reg.name = "CND_CLIENT"

/-- The value that a write brings to a register: reserved bits of a client-table word are ignored. -/
def masked (reg : RegSpec) (ix : List Nat) (v : Nat) : Nat := if isClientWord reg then v &&& clientMask ix else v

/-- The word that a register holds after a write of v. -/
def afterWrite (s : State) (reg : RegSpec) (ix : List Nat) (a v : Nat) : Nat :=
  writtenWord reg.fields (regWord s a) (masked reg ix v)

/-! ## Protected tables (R378 to R382) -/

/-- The table of R378 that a live swappable register belongs to. -/
def liveTable (reg : RegSpec) : TableCode := if isClientWord reg then .client else .registers

/-- Code of a protected table (R378). -/
def tableCode : TableCode → Nat
  | .client => 0 | .keepOut => 1 | .layers => 2 | .domainMap => 3 | .ranges => 4 | .registers => 5

/-- REQUESTER of MEM_WW_CAP. -/
def requesterCode : Requester → Nat
  | .warden => 0 | .jtag => 1 | .host => 2 | .conductor => 3 | .steward _ => 4 | .dma => 5

/-- The base of a table's live copy (R378). DESIGN CHOICE (log 112): the places of the tables in the world store; the domain map
and the tables of the units are addressed from 0. -/
def tableBase : TableCode → Nat
  | .client => 0x110000
  | .keepOut => 0x8010000000 + 44864 * 1024
  | .layers => 0x8010000000 + 49024 * 1024
  | _ => 0

/-- OFFSET of MEM_WW_CAP: the address within the map for a register, else the byte offset in the table. -/
def tableOffset (t : TableCode) (addr : Nat) : Nat := (addr - tableBase t) % 2 ^ 24

/-- The hard stop of a phase as a tick offset from the edge (R44). -/
def hardStop (s : State) (p : Nat) : Nat := ((List.range (p + 1)).map fun i => fld s (F.CND_PHASE_BUDGET_BUDGET i)).sum

/-- The word of a layer's master that a write replaces. -/
def writeLayer (o : Nat) (val : Word32) (ls : List (Nat × Layer)) : List (Nat × Layer) :=
  let n := o / 0x400
  let old := ((ls.find? fun l => l.1 = n).map (·.2)).getD Layer.blank
  let bs := layerBytes old
  let at0 := o % 0x400 / 4 * 4
  let new := layerFrom old (bs.take at0 ++ leBytes 4 val.toNat ++ bs.drop (at0 + 4))
  if ls.any fun l => l.1 = n then ls.map fun l => if l.1 = n then (n, new) else l else ls ++ [(n, new)]

/-- The live copy of a table takes a word at an address (R381). Of a range or lookup table, whose places the spec does not
give, the model keeps the write itself (log 54). -/
def storeTable (t : TableCode) (addr : Nat) (val : Word32) (s : State) : State :=
  let o := tableOffset t addr
  match t with
  | .client | .registers =>
    match liveReg addr with
    | some (reg, ix) => setReg s addr (afterWrite s reg ix addr val.toNat)
    | none => s
  | .keepOut => { s with wld := { s.wld with koLive := koSets 8 ((koTable s.wld.koLive).set (o / 4) val.toNat) } }
  | .layers => if o < 0x4000 then { s with wld := { s.wld with layers := writeLayer o val s.wld.layers } } else s
  | .domainMap =>
    let ws := (domainMapWords s.boot.tweaks (s.swap.grants.getD s.image.sharedOpen)).set (o / 4) val.toNat
    { s with boot := { s.boot with tweaks := (ws.take 16).map (BitVec.ofNat 32) }
             swap := { s.swap with grants := some (grantsOf (ws.drop 16)) } }
  | .ranges => { s with mem := { s.mem with liveWrites := (t, addr, val) :: s.mem.liveWrites } }

/-- R381: the running frame becomes mixed-epoch, a doubt; MIXED counts the frame once. -/
def mixFrame (s : State) : State :=
  if s.frame.mixed then markDoubt 5 s
  else bump F.MEM_WW_STAT_MIXED (markDoubt 5 { s with frame := { s.frame with mixed := true } })

/-- R382: the outputs of the tasks not bound to the frame that run now carry the mark. -/
def mixOutputs (s : State) : State :=
  let loose := fun (g : Grant) => ((nodeDesc s g.node).map fun d => decide (d.phase.val = 0)).getD false
  { s with cnd := { s.cnd with
    grants := s.cnd.grants.map fun g => if loose g then { g with taint := g.taint ||| 0x20#16 } else g } }

/-- An unprescribed write to a live protected table (R380, R381). -/
def unprescribedWrite (r : Requester) (t : TableCode) (addr : Nat) (val : Word32) (s : State) : State :=
  let cap := fun (refused : Nat) (s : State) =>
    capture F.MEM_WW_CAP_VALID
      [(F.MEM_WW_CAP_REFUSED, refused), (F.MEM_WW_CAP_TABLE, tableCode t), (F.MEM_WW_CAP_REQUESTER, requesterCode r),
       (F.MEM_WW_CAP_OFFSET, tableOffset t addr)] s
  let ev := fun (kind : Nat) (sev : Severity) (doubt : Bool) (s : State) =>
    report { unit := 0x84, cls := 0x01, ev := kind, sev := sev
             detail := kind * 2 ^ 53 + tableCode t * 2 ^ 40 + addr % 2 ^ 40, doubt := doubt } s
  if !inDevelop s then
    send (.error r addr none) (ev 4 .warning false (cap 1 (bump F.MEM_WW_STAT_REFUSED s)))
  else
    let s1 := mixOutputs (storeTable t addr val (cap 0 s))
    let off := s.time.count - s.frame.edgeTick
    if s.frame.started ∧ off ≤ hardStop s 5 then ev 5 .doubt true (mixFrame s1) else ev 5 .note false s1

/-- The reach of a write to a table: that of the management address for a table in a register block; the world store is
reached over the data network. -/
def reachesTable (s : State) (r : Requester) (t : TableCode) (addr : Nat) : Bool :=
  match t with
  | .keepOut | .layers => true
  | _ => reachesLive s r addr

/-- The address lies in a live copy of the table. -/
def inTable (t : TableCode) (addr : Nat) : Bool :=
  match t with
  | .client | .registers => (liveReg addr).any fun x => x.1.swap.isSome && decide (liveTable x.1 = t)
  | .keepOut => decide (tableBase t ≤ addr ∧ addr < tableBase t + 0x8000)
  | .layers => decide (tableBase t ≤ addr ∧ addr < tableBase t + 0x4000)
  | _ => true

/-- LIVE_TABLE_WRITE (R23, R31, R380, R381). -/
def execLiveTableWrite (r : Requester) (table : TableCode) (addr : Nat) (val : Word32) (s : State) :
    Host.Outcome State Fault Refusal :=
  .next (live s fun s =>
    if reachesTable s r table addr && inTable table addr then unprescribedWrite r table addr val s else refuseAccess r addr s)

/-! ## Cached copies (R378, R381) -/

/-- A word of the client table as the tiles' contexts hold it. -/
def ctxWord (s : State) (n w : Nat) : Nat :=
  let a := (F.CND_CLIENT_WORD n w).addr
  tabGet (resetWord s.image a) s.held.clients a

/-- COST_W of a client as the tiles hold it. -/
def ctxWeights (s : State) (n : Nat) : Nat := ctxWord s n 2 + 2 ^ 32 * ctxWord s n 3

/-- The keep-out set of a client as the tiles hold it, where KO_EN applies it. -/
def ctxKeepOut (s : State) (n : Nat) : Option Nat :=
  if (ctxWord s n 0).testBit 19 then some (bitsOf (ctxWord s n 0) 18 16) else none

end Sys2Proof.Machine
end

