-- ==== Sys2Proof/Machine/Memory.lean ====
section
/-! DEFINITION. Machine/Memory.lean: memories (chapter 11): data packets (R17 to R19, R24, R176, R364, R366), DMA segments (R362),
scrubbing (R374 to R377) and wipes (R383, R384). -/

namespace Sys2Proof.Machine

/-! ## Wipe regions (R383, R384) -/

/-- Memory after a wipe of ranges: no byte differs any more from what the machine's structures put there, and every word has
correct check bits. -/
def zeroRanges (rs : List (Nat × Nat)) (s : State) : State :=
  let inside := fun (a : Nat) => rs.any fun r => decide (r.1 ≤ a ∧ a < r.1 + r.2)
  { s with mem := { s.mem with
      blank := rs ++ s.mem.blank
      cells := s.mem.cells.filter fun c => !inside c.1
      synd := s.mem.synd.filter fun w => !inside (8 * w.1) } }

/-- The access of n bytes at an address touches a region under a wipe, or one that failed its read-back (R383). -/
def underWipe (s : State) (a n : Nat) : Bool :=
  (s.mem.wipes.map (·.1) ++ s.mem.closed).any fun r => (wipeRanges s r).any fun x => rangesMeet a n x.1 x.2

/-! ## Data packets (R18, R19) -/

/-- The length of a packet's access. -/
def packetLen (p : DataPacket) : Nat := match p.write with
  | some bs => bs.length
  | none => p.len

/-- The words that a packet touches: the first byte and the number of bytes in each; n bounds them. -/
def packetWords : Nat → Nat → Nat → List (Nat × Nat)
  | 0, _, _ => []
  | n + 1, a, len =>
    if len = 0 then []
    else
      let k := min len (8 - a % 8)
      (a, k) :: packetWords n (a + k) (len - k)

/-- The words of a packet. -/
def wordsOf (p : DataPacket) : List (Nat × Nat) := packetWords (packetLen p) p.addr.toNat (packetLen p)

/-- The issuer is the Warden core or one of its engines. -/
def wardenIssuer : Issuer → Bool
  | .wardenCore => true
  | .wardenEngine => true
  | _ => false

/-- R18, R364: a word is populated for the packet's issuer. -/
def populated (p : DataPacket) (a : Nat) : Bool :=
  match memAt a with
  | none => false
  | some .wardenSram => if a ≥ 0x80160C0000 then decide (p.issuer = .wardenCore) else wardenIssuer p.issuer
  | some _ => true

/-- The address lies in a stream's snapshot ring (R91). -/
def inRing (s : State) (a : Nat) : Bool := s.image.streams.any fun d => decide (d.ring.1 ≤ a ∧ a < d.ring.1 + d.ring.2)

/-- The routers' copy of the grants opens a shared unit to a domain (R19, R378). -/
def opened (s : State) (m : MemKind) (dom : Nat) : Bool :=
  (s.held.grants.getD s.image.sharedOpen).any fun g => decide (g.1 = memCode m) && decide (g.2.val = dom)

/-- R19, R366, R484: a router delivers a word of the packet: to the owner's own memory, to a shared unit open to the domain, or,
to be read, to a snapshot ring so opened. Only World writes the world store. The Warden's own accesses belong to no task. -/
def routed (s : State) (p : DataPacket) (a : Nat) : Bool :=
  wardenIssuer p.issuer ||
  ((match memOwner s a, memAt a with
    | some d, some .hbm => decide (d = p.domain.val) || (p.write.isNone && inRing s a && opened s .hbm p.domain.val)
    | some d, _ => decide (d = p.domain.val)
    | none, some m => (decide (p.issuer = .world) && decide (m = .worldStore)) || opened s m p.domain.val
    | none, none => false) &&
    !(p.write.isSome && rangesMeet a 8 s.image.faultLog.1 s.image.faultLog.2) &&
    !(p.write.isSome && decide (memAt a = some .worldStore) && decide (p.issuer ≠ .world)))

/-- Debug is locked (R481). -/
def debugLocked (s : State) : Bool := s.fuse.dbgLock && !s.fuse.kill

/-- R176: with debug locked, weights are refused to DMA out of inference scratch and to the supervisor port. -/
def weightsRefused (s : State) (p : DataPacket) : Bool :=
  let a := p.addr.toNat
  debugLocked s && p.write.isNone &&
    ((decide (p.issuer = .infDma) && decide (memAt a = some .infScratch)) ||
      (decide (p.issuer = .supervisor) && s.image.weights.any fun r => rangesMeet a (packetLen p) r.1 r.2))

/-- The requester that R176 answers with an error. -/
def packetRequester (p : DataPacket) : Requester := if p.issuer = .supervisor then .host else .dma

/-- The pieces of 64 bytes that an access of HBM touches are counted (R580). -/
def countHbm (ev a n : Nat) (s : State) : State :=
  if memAt a = some .hbm then countDie ev ((a % 64 + n + 63) / 64) s else s

/-- One word of a write; what no memory, or a memory that the packet's unit has lost, would take is discarded (R18, R24). -/
def writeWord (p : DataPacket) (w : (Nat × Nat) × List Byte) (s : State) : State :=
  if !populated p w.1.1 || lostTo s p.unit w.1.1 then s
  else if w.1.2 = 8 then writeFull w.1.1 w.2 p.sepia s
  else writePartial w.1.1 w.2 p.sepia s

/-- One word of a read: Sepia from an unpopulated address, and to a holder whose lease was revoked (R18, R24, R369). -/
def readPacketWord (p : DataPacket) (a : Nat) (s : State) : Option Nat × State :=
  if !populated p a || lostTo s p.unit a then (none, s) else readWord 1 (a / 8 * 8) s

/-- The words of a read, in ascending order. -/
def readPacket (p : DataPacket) : List Nat → State → List (Option Nat) × State
  | [], s => ([], s)
  | a :: as, s =>
    let r := readPacketWord p a s
    let t := readPacket p as r.2
    (r.1 :: t.1, t.2)

/-- The words of a write with their bytes. -/
def writePieces (ws : List (Nat × Nat)) (bs : List Byte) : List ((Nat × Nat) × List Byte) :=
  (ws.foldl (fun (r : List ((Nat × Nat) × List Byte) × List Byte) w => ((w, r.2.take w.2) :: r.1, r.2.drop w.2)) ([], bs)).1.reverse

/-- The upsets and the device's report of the first word (R367, R370). -/
def upsetWord (p : DataPacket) (s : State) : State :=
  let a := p.addr.toNat
  if populated p a then applyDev a p.dev (applyFlips a p.flips s) else s

/-- A packet reaches its memories: its words are read or written, and a word at an unpopulated address is reported (R18). -/
def servePacket (p : DataPacket) (s : State) : State :=
  let ws := wordsOf p
  let a := p.addr.toNat
  let s1 := match ws.find? fun w => !populated p w.1 with
    | some w => report { unit := 0x84, cls := 0x0B, ev := 3, sev := .warning, detail := w.1, domain := p.domain.val } s
    | none => s
  let s2 := upsetWord p s1
  match p.write with
  | some bs => countHbm 0x85 a bs.length ((writePieces ws bs).foldl (fun s w => writeWord p w s) s2)
  | none =>
    let r := readPacket p (ws.map (·.1)) s2
    countHbm 0x84 a p.len (send (.delivered a r.1) r.2)

/-- A packet has to wait: it touches a region under a wipe, and its unit is no holder that has lost the region (R383). -/
def mustWait (s : State) (p : DataPacket) : Bool :=
  underWipe s p.addr.toNat (packetLen p) && !(wordsOf p).any fun w => lostTo s p.unit w.1

/-- DATA_PACKET_ROUTE (R17 to R19, R24, R176, R364, R366, R368 to R372, R383): each word of the access is judged. A packet with a
word for a foreign unit is dropped as a fault; an access to a region under a wipe waits; words at unpopulated addresses read
as Sepia or are discarded; every other word is read or written. -/
def execDataPacketRoute (p : DataPacket) (s : State) : Host.Outcome State Fault Refusal :=
  let a := p.addr.toNat
  let access := fun (ev : Nat) (sev : Severity) (s : State) =>
    report { unit := 0x84, cls := 0x0B, ev := ev, sev := sev, detail := a, domain := p.domain.val } s
  .next (live s fun s =>
    if packetLen p = 0 then s
    else if (wordsOf p).any fun w => populated p w.1 && !routed s p w.1 then access 2 .fault s
    else if weightsRefused s p then send (.error (packetRequester p) a none) (access 4 .warning s)
    else if mustWait s p then
      setWait p.unit (some s.time.count) { s with mem := { s.mem with waiting := s.mem.waiting ++ [p] } }
    else servePacket p s)

/-- The accesses that no wipe holds back any more are served, in their order (R383). -/
def serveWaiting (s : State) : State :=
  let go := s.mem.waiting.filter fun p => !mustWait s p
  go.foldl (fun s p => servePacket p (setWait p.unit none s))
    { s with mem := { s.mem with waiting := s.mem.waiting.filter fun p => mustWait s p } }

/-! ## Scrubbing (R374 to R377) -/

/-- The last word of a scrub pass. -/
def passEnd (hbm : Bool) : Nat := if hbm then 0x1FFFFFFF8 else 0x80160FFFF8

/-- A scrub pass begins (R374). -/
def beginPass (hbm : Bool) (s : State) : State :=
  { s with mem := { s.mem with scrub := modAt (if hbm then 1 else 0) (fun _ => (s.time.count, false)) s.mem.scrub } }

/-- SCRUB_READ (R369, R370, R374, R376): the word is read, corrected or marked, and its owner told; the last word of the map
ends a pass. -/
def execScrubRead (hbm : Bool) (addr : Nat) (flips : BitVec 72) (dev : DevEcc) (s : State) : Host.Outcome State Fault Refusal :=
  .next (live s fun s =>
    match memAt addr with
    | none => s
    | some m =>
      if decide (m = .hbm) ≠ hbm then s
      else
        let s1 := (readWord 3 addr (applyDev addr dev (applyFlips addr flips s))).2
        if addr / 8 * 8 ≠ passEnd hbm then s1
        else if hbm then beginPass hbm (setFld F.MEM_SCRUB_STAT_HBM_PASS (fld s1 F.MEM_SCRUB_STAT_HBM_PASS + 1) s1)
        else beginPass hbm (setFld F.MEM_SCRUB_STAT_SRAM_PASS (fld s1 F.MEM_SCRUB_STAT_SRAM_PASS + 1) s1))

/-- The period of a scrub pass in ticks (R374). -/
def scrubPeriod (s : State) (hbm : Bool) : Nat :=
  if hbm then 25000000 * fld s F.MEM_SCRUB_CFG_HBM_PERIOD else 25000 * fld s F.MEM_SCRUB_CFG_SRAM_PERIOD

/-- SCRUB_LAG (R375): a pass is not complete within twice its period; a pass is reported once. -/
def execScrubLag (hbm : Bool) (s : State) : Host.Outcome State Fault Refusal :=
  .next (live s fun s =>
    let i := if hbm then 1 else 0
    let x := s.mem.scrub.getD i (0, false)
    if x.2 ∨ s.time.count ≤ x.1 + 2 * scrubPeriod s hbm then s
    else
      report (uncoded .scrubLag 0x84 .warning)
        (setFlag (if hbm then F.MEM_SCRUB_STAT_HBM_LAG else F.MEM_SCRUB_STAT_SRAM_LAG) true
          { s with mem := { s.mem with scrub := modAt i (fun y => (y.1, true)) s.mem.scrub } }))

/-- The tile whose scratch holds a bank. -/
def bankTile (m : MemKind) (bank : Nat) : Option Nat :=
  match m with
  | .sweepScratch => some (bank / 64)
  | .infScratch => some (64 + bank / 32)
  | _ => none

/-- CE_WINDOW (R377): the first excess of a bank is a warning, the next within 1,024 frames a fault, for which a tile is
quarantined and any other memory falls due for its pack. -/
def execCeWindow (m : MemKind) (bank : Nat) (s : State) : Host.Outcome State Fault Refusal :=
  let k := bankKey m bank
  .next (live s fun s =>
    if tabGet 0 s.mem.ceCount k ≤ fld s F.MEM_CE_CFG_CE_TH then s
    else
      let again := s.mem.ceOver.any fun x => x.1 = k ∧ frameDist x.2 s.frame.num ≤ 1024
      let s1 := { s with mem := { s.mem with
        ceCount := tabPut 0 s.mem.ceCount k 0
        ceOver := (k, s.frame.num) :: s.mem.ceOver.filter fun x => x.1 ≠ k } }
      let rec' := fun (sev : Severity) (s : State) =>
        report { unit := 0x84, cls := 0x01, ev := 0, sev := sev, detail := memDetail 0 0 (memCode m) 0 } s
      if !again then rec' .warning s1
      else match bankTile m bank with
        | some u => rec' .fault (showSched (kermesDue (kermesUnit u) (takeOut false u s1)))
        | none => rec' .fault (kermesDue (.memory m) s1))

/-- R377: the window of 1,024 frames starts again. -/
def memEdge (s : State) : State :=
  if frameN s % 1024 = 0 then { s with mem := { s.mem with ceCount := [] } } else s

/-! ## Wipes (R383, R384) -/

/-- R355: the wipe of a cancelled operation's region is complete, and the client is told. -/
def cancelDone (ctx : Nat) (s : State) : State :=
  match s.cnd.ops.find? fun o => o.ctx = ctx ∧ o.state = .cancelling with
  | none => s
  | some o =>
    let o' := { o with state := OpState.cancelled }
    freeLease 5 ctx (sendAnswer (opAnswer s o' 0x1A) (setOp o' s))

/-- R336: the wipe after a revocation is complete, and the resource returns to the free pool. -/
def returnResource (cls res : Nat) (s : State) : State :=
  if s.cnd.leases.any fun l => l.cls = cls ∧ l.res = res ∧ l.revoking then freeLease cls res s else s

/-- What a completed wipe sets free (R336, R355). -/
def wipeFrees (region : WipeRegion) (s : State) : State :=
  match region with
  | .longOp ctx => returnResource 5 ctx.val (cancelDone ctx.val s)
  | .leaseScratch cls res => returnResource cls.val res s
  | _ => s

/-- WIPE_DONE (R336, R355, R383, R384): the region is zero, and the accesses that waited are served; a region that fails its
read-back is not returned to service. -/
def execWipeDone (region : WipeRegion) (readBackOk : Bool) (s : State) : Host.Outcome State Fault Refusal :=
  .next (live s fun s =>
    match s.mem.wipes.find? fun w => w.1 = region with
    | none => s
    | some w =>
      let s1 := zeroRanges (wipeRanges s region) { s with mem := { s.mem with wipes := s.mem.wipes.erase w } }
      let s2 := setFlag F.MEM_WIPE_STAT_BUSY (!s1.mem.wipes.isEmpty) (setSat F.MEM_WIPE_STAT_LAST (s.time.count - w.2) s1)
      if readBackOk then serveWaiting (wipeFrees region s2)
      else
        let a := (((wipeRanges s region).head?).map (·.1)).getD 0
        setFlag F.MEM_WIPE_STAT_VERIFY_FAIL true
          (memEvent 6 0 a .fault { s2 with mem := { s2.mem with closed := region :: s2.mem.closed } }))

/-! ## DMA segments (R149, R234, R362) -/

/-- The unit that leases a DMA channel (class 1 of R333). -/
def channelHolder (s : State) (ch : Nat) : Option Nat := (s.cnd.leases.find? fun l => l.cls = 1 ∧ l.res = ch).map (·.holder)

/-- PRIO of the node whose task uses a DMA channel; 0 where no task does. -/
def channelPrio (s : State) (ch : Nat) : Nat :=
  match (channelHolder s ch).bind fun u => s.cnd.grants.find? fun g => g.unit = u with
  | some g => ((nodeDesc s g.node).map fun d => d.prio.val).getD 0
  | none => 0

/-- A transfer after one segment: at most 4 KiB, aligned to 4 KiB in the destination. -/
def afterSegment (x : DmaXfer) : DmaXfer :=
  let n := min x.left (4096 - x.dst % 4096)
  { x with dst := x.dst + n, left := x.left - n }

/-- The waits of the units that use a port's channels (R149, R234, R330): the unit that is served waits no longer, every other
waits from now on. -/
def dmaWaits (served : Nat) (here : List DmaXfer) (s : State) : State :=
  here.foldl (fun s x =>
    match channelHolder s x.channel with
    | none => s
    | some u =>
      if x.channel = served then setWait u none s
      else if s.cnd.grants.any fun g => g.unit = u ∧ g.wait.isNone then setWait u (some s.time.count) s
      else s) s

/-- DMA_SEGMENT_BOUNDARY (R149, R234, R362): transfers that have arrived wait; the one in service has moved a segment; the port next
serves the highest priority, and among equals the first channel after the one that it served last. -/
def execDmaSegmentBoundary (port : Nat) (arrivals : List DmaRequest) (s : State) : Host.Outcome State Fault Refusal :=
  .next (live s fun s =>
    let last := tabGet 0 s.mem.dmaLast port
    let moved := s.cnd.dma.map fun x => if x.port = port ∧ x.channel = last then afterSegment x else x
    let came := arrivals.map fun x => (⟨port, x.channel, x.dst.toNat, x.len⟩ : DmaXfer)
    let left := (moved ++ came).filter fun x => x.left > 0
    let here := left.filter fun x => x.port = port
    let top := (here.map fun x => channelPrio s x.channel).foldl max 0
    let cand := (here.filter fun x => channelPrio s x.channel = top).map (·.channel)
    let next := (((cand.filter fun c => c > last).min?).orElse fun _ => cand.min?).getD last
    dmaWaits next here { s with cnd := { s.cnd with dma := left }, mem := { s.mem with dmaLast := tabPut 0 s.mem.dmaLast port next } })

end Sys2Proof.Machine
end

