-- ==== Sys2Proof/Machine/Propose.lean ====
section
/-! DEFINITION. Machine/Propose.lean: the candidates of a frame: sources, order, skips and the candidate writer (R184 to
R190, R211, R345, R347, R630), and the selection lists that an edge opens (R261, R262). -/

namespace Sys2Proof.Machine

/-! ## Domains -/

/-- The sweep of a domain with no candidates. -/
def DomSweep.empty (d : Nat) : DomSweep :=
  { dom := d, cands := [], written := false, nextBlock := 0, back := [], skipQuota := 0, skipOther := 0, skipAt := [], counts := [0, 0, 0],
    infeasible := [0, 0, 0, 0] }

/-- The sweep of a domain in the running frame. -/
def domSweep (s : State) (d : Nat) : DomSweep := (s.swp.doms.find? fun x => x.dom = d).getD (DomSweep.empty d)

/-- The state with a domain's sweep replaced. -/
def setDom (x : DomSweep) (s : State) : State :=
  { s with swp := { s.swp with doms := x :: s.swp.doms.filter fun y => y.dom ≠ x.dom } }

/-- R185: the sweeping domains own sweep tiles. -/
def sweeping (s : State) (d : Nat) : Bool := (List.range 64).any fun u => unitDomain s u = d

/-- R185, R211: how many candidates a domain may write: CAP for domain 0, its share for another. -/
def domCap (s : State) (d : Nat) : Nat := if d = 0 then fld s F.CND_CAND_CFG_CAP else domShare s d

/-- LAYER of a client as the frame's contexts hold it (R187, R212). -/
def ctxLayer (s : State) (n : Nat) : Nat := bitsOf (ctxWord s n 0) 23 20

/-- QUOTA of a client in the client table at the edge (R189). -/
def ctxQuota (s : State) (n : Nat) : Nat := bitsOf (ctxWord s n 1) 18 0

/-! ## Sources (R187, R188) -/

/-- The requests of a domain's clients that the running frame proposes records for: path checks that it considers, and
watches whose period falls due, in the order of R346. -/
def dueRequests (s : State) (d : Nat) : List PendReq :=
  let due := fun (r : PendReq) =>
    decide (cliDomain s r.client = d) && !r.answered &&
    match r.kind with
    | 0 => decide (frameDist r.first s.frame.num < 2 ^ 31)
    | 2 => decide (frameDist r.first s.frame.num < 2 ^ 31 ∧ frameDist r.first s.frame.num % (max 1 (r.arg.toNat % 256)) = 0)
    | _ => false
  requestOrder s (s.cnd.reqs.filter due)

/-- A supplied record as written (R187). -/
def suppliedCand (client : Nat) (c : Cand) : Cand := { c with score := 255, client := client, kind := 2 }

/-- A lattice entry as written for a client (R187): speeds added to the edge speed, within the layer's limits. -/
def latticeCand (s : State) (client score : Nat) (c : Cand) : Cand :=
  let n := ctxLayer s client
  let v0 := (edgePose s).v
  let lo := ((layerOf s n).map fun l => - Int.ofNat l.vRevMax).getD (-32768)
  let hi := ((layerOf s n).map fun l => Int.ofNat l.vFwdMax).getD 32767
  { c with score := score, layer := Fin.ofNat 16 n, kind := 0, client := client
           v1 := clampI lo hi (c.v1 + v0), v2 := clampI lo hi (c.v2 + v0) }

/-- The record of an output slot of the proposal network, with the bytes of R184: none while a field is missing or holds Sepia
(R170). -/
def slotCand (s : State) (slot : Nat) : Option Cand :=
  let get := fun (f : Nat) => ((s.inf.slots.find? fun x => x.1 = (slot, f)).map (·.2)).getD none
  match get 0, get 1, get 2, get 3, get 4, get 5, get 6, get 7 with
  | some sc, some lk, some k1, some k2, some k3, some k4, some v1, some v2 =>
    some { candOf (leBytes 1 (pattern 8 (clampI 0 255 sc)) ++ leBytes 1 (pattern 8 lk) ++ leBytes 14 0) with
      k1 := k1, k2 := k2, k3 := k3, k4 := k4, v1 := v1, v2 := v2, kind := 1, client := motionClient s 0 }
  | _, _, _, _, _, _, _, _ => none

/-- The learned candidates of domain 0 (R172, R181, R187), in output-slot order: those below SCORE_FLOOR are left out, and the
lowest-scored past MAX_LEARNED; a record with HITCH_ACT 3 stays, for the writer to count. -/
def learnedCands (s : State) : List Cand :=
  let top := (s.inf.slots.map fun x => x.1.1 + 1).foldl max 0
  let ok := ((List.range top).filterMap (slotCand s)).zipIdx
  let good := ok.filter fun c => decide (c.1.hitch ≠ 3) && decide (c.1.score ≥ fld s F.INF_PROP_CFG_SCORE_FLOOR)
  let best := (good.mergeSort fun a b => a.1.score ≥ b.1.score).take (fld s F.INF_PROP_CFG_MAX_LEARNED)
  (ok.filter fun c => decide (c.1.hitch = 3) || best.contains c).map (·.1)

/-- The clients whose plan-to-goal requests hold an open list, in the order in which their lists were opened. -/
def goalClients (s : State) (d : Nat) : List Nat :=
  ((s.sel.lists.filter fun l => !l.motion).map (·.client)).filter fun c => cliDomain s c = d

/-- The score of a lattice entry or of a goal's copy of it: 0 where the network gave none, no copy where it is Sepia (R170). -/
def scoreOf {α : Type} [DecidableEq α] (k : α) (l : List (α × Option Nat)) : Option Nat :=
  ((l.find? fun x => x.1 = k).map (·.2)).getD (some 0)

/-- The lattice candidates of a domain (R187, R188, R345): by table index, the motion client's copy first. The spec gives a
domain without a proposal network no lattice scores: they are free. -/
def latticeCands (s : State) (d : Nat) : List Cand :=
  if !flag s F.CND_CAND_CFG_LATTICE_EN then []
  else
    (List.range s.image.lattice.length).flatMap fun i =>
      match s.image.lattice[i]? with
      | none => []
      | some c =>
        let own := if d = 0 then scoreOf i s.inf.lattice else some (Config.freeValue (s.free + i) % 256)
        let copies := (goalClients s d).filterMap fun g => (scoreOf (g, i) s.inf.goalScores).map fun sc => latticeCand s g sc c
        (own.map fun sc => latticeCand s (motionClient s d) sc c).toList ++ copies

/-- R262: the lattice copies of goal requests that received no list count as skips. -/
def goalSkips (s : State) (d : Nat) : Nat :=
  let waiting := s.cnd.reqs.filter fun r =>
    r.kind = 1 && !r.active && decide (cliDomain s r.client = d) && decide (frameDist r.first s.frame.num < 2 ^ 31)
  if flag s F.CND_CAND_CFG_LATTICE_EN then waiting.length * s.image.lattice.length else 0

/-! ## The writer (R188, R189, R630) -/

/-- A record that the writer considers, with the request and the place that supplied it, if one did. -/
structure Considered where
  cand : Cand
  src : Option (Nat × Nat)

/-- What the writer has done so far: records written, by quota and other skips, the skips by the time of each record, and where
each supplied record went. -/
structure Writing where
  out : List Cand
  used : Tab Nat
  quota : Nat
  other : Nat
  skips : List (Nat × Nat)
  placed : List (Nat × Nat × Nat)

/-- One record in index order (R187, R189): a learned one with HITCH_ACT 3 is refused; it is skipped for quota, an inactive layer or
CAP, or written with the next index. -/
def writeOne (s : State) (cap : Nat) (w : Writing) (x : Considered) : Writing :=
  let c := x.cand.client
  if x.cand.kind = 1 ∧ x.cand.hitch = 3 then { w with other := w.other + 1 }
  else if tabGet 0 w.used c ≥ ctxQuota s c then { w with quota := w.quota + 1 }
  else if !maskBit s F.CND_LAYER_ACTIVE_ACTIVE x.cand.layer.val || w.out.length ≥ cap then { w with other := w.other + 1 }
  else
    { w with
      out := w.out ++ [x.cand], used := tabPut 0 w.used c (tabGet 0 w.used c + 1), skips := w.skips ++ [(w.quota, w.other)]
      placed := match x.src with
        | some (r, i) => (r, i, w.out.length) :: w.placed
        | none => w.placed }

/-- The records that the writer of a domain considers, in index order (R188). -/
def considered (s : State) (d : Nat) : List Considered :=
  let reqs := dueRequests s d
  let sup := reqs.flatMap fun r =>
    let key := s.cnd.reqs.idxOf r
    r.recs.zipIdx.map fun (c, i) => (⟨suppliedCand r.client c, some (key, i)⟩ : Considered)
  let learned := if d = 0 then learnedCands s else []
  let all := sup ++ (learned ++ latticeCands s d).map fun c => (⟨c, none⟩ : Considered)
  all.mergeSort fun a b => a.cand.score ≥ b.cand.score

/-- The writer's result. -/
def writeAll (s : State) (d : Nat) : Writing :=
  (considered s d).foldl (writeOne s (domCap s d)) { out := [], used := [], quota := 0, other := 0, skips := [], placed := [] }

/-- The indices that the records of a request received. -/
def placeRecords (w : Writing) (key : Nat) (r : PendReq) : PendReq :=
  { r with
    active := true
    indices := (List.range r.recs.length).map fun i =>
      (w.placed.find? fun p => p.1 = key ∧ p.2.1 = i).map fun p => p.2.2 }

/-- How many candidates of a source there are. -/
def countKind (cs : List Cand) (k : Nat) : Nat := (cs.filter fun c => c.kind.val = k).length

/-- The tick offset at which a phase finished is taken once. -/
def phaseDone (p : Nat) (s : State) : State :=
  if (s.frame.done.getD p none).isSome then s
  else { s with frame := { s.frame with done := modAt p (fun _ => some (s.time.count - s.frame.edgeTick)) s.frame.done } }

/-- The records of a domain stand in its share of the region (R185): new ones over the old, with fresh check bits. -/
def storeCands (d : Nat) (cs : List Cand) (s : State) : State :=
  let old := ((s.swp.region.find? fun x => x.1 = d).map (·.2)).getD []
  freshWords (candAddr s d 0) (16 * cs.length)
    { s with swp := { s.swp with region := (d, cs ++ old.drop cs.length) :: s.swp.region.filter fun x => x.1 ≠ d } }

/-- R630: a lattice-writer task of a domain, a task of the propose phase on sweep tiles (R215), is ready or running. -/
def latticeBusy (s : State) (d : Nat) : Bool :=
  (s.cnd.ready.map (·.node) ++ s.cnd.grants.map (·.node)).any fun n =>
    (nodeDesc s n).any fun x => decide (x.unitClass.val = 0 ∧ x.phase.val = 1 ∧ x.domain.val = d)

/-- CANDIDATE_WRITER_START (R188, R189, R630): once the proposal network of the frame and the lattice-writer tasks of the domain have
completed, the writer counts and writes the domain's candidates in index order, unless the propose hard stop has come. -/
def execCandidateWriterStart (dom : Fin 16) (s : State) : Host.Outcome State Fault Refusal :=
  .next (fabric s fun s =>
    let d := dom.val
    if (domSweep s d).written || s.frame.stopped.getD 0 false || !s.frame.started || (d = 0 && !s.inf.produced) || latticeBusy s d
    then s
    else
      let w := writeAll s d
      let x : DomSweep := { DomSweep.empty d with
        cands := w.out, written := true, skipQuota := w.quota, skipOther := w.other + goalSkips s d
        skipAt := w.skips.map fun k => (k.1, k.2 + goalSkips s d)
        counts := [countKind w.out 2, countKind w.out 1, countKind w.out 0] }
      let due := dueRequests s d
      let s1 := { s with cnd := { s.cnd with
        reqs := s.cnd.reqs.mapIdx fun i r => if due.contains r then placeRecords w i r else r } }
      let s2 := if d = 0 then phaseDone 0 s1 else { s1 with free := s1.free + s.image.lattice.length }
      setDom x (storeCands d w.out s2))

/-! ## Lists at an edge (R261, R262, R278, R345) -/

/-- R345: a goal whose origin generation differs is answered in the frame that takes it. -/
def staleGoals (s : State) : State :=
  let stale := s.cnd.reqs.filter fun r =>
    r.kind = 1 && !r.active && r.goal.any fun g => decide (g.originGen.toNat ≠ s.wld.originGen)
  stale.foldl (fun s r => queueAnswer r 0x15 0 [] (endReq r s)) s

/-- R62, R345: the same for a goal of the running frame that came in the tick of its edge. -/
def staleNow (s : State) : State :=
  let stale := s.cnd.reqs.filter fun r =>
    r.kind = 1 && !r.active && decide (r.first = s.frame.num) && r.goal.any fun g => decide (g.originGen.toNat ≠ s.wld.originGen)
  stale.foldl (fun s r => queueAnswer r 0x15 0 [] (endReq r s)) s

/-- The list of a plan-to-goal request (R261, R276, R278). -/
def goalList (s : State) (r : PendReq) : SelList :=
  let k := r.arg.toNat
  let lim : Bool := flag s F.SEL_CFG_COMPAT_K64 && decide (k > 64)
  { client := r.client, motion := false, k := if lim then 64 else k, short := false, limited := lim, trunc := false,
    pieces := [] }

/-- R261, R262: the lists of a frame: the motion list, then the goal requests in request order, 64 in all; one list a
client. -/
def openLists (s0 : State) : State :=
  let s := staleGoals s0
  let waiting := requestOrder s (s.cnd.reqs.filter fun r =>
    r.kind = 1 && !r.active && decide (frameDist r.first s.frame.num < 2 ^ 31))
  let firsts := waiting.filter fun r => (waiting.find? fun x => x.client = r.client) = some r
  let taken := firsts.take 63
  let motion : SelList :=
    { client := motionClient s 0, motion := true, k := 4, short := false, limited := false, trunc := false, pieces := [] }
  setFld F.SEL_STAT_LISTS (1 + taken.length)
    { s with
      sel := { s.sel with lists := motion :: taken.map (goalList s) }
      cnd := { s.cnd with reqs := s.cnd.reqs.map fun r => if taken.contains r then { r with active := true } else r } }

/-- R62: a plan-to-goal request that arrives in the tick of the edge, after the edge, belongs to the frame of that edge: its list
opens while fewer than 64 are open, one list a client. -/
def openLate (s : State) : State :=
  let s1 := staleNow s
  if !s1.frame.started || decide (s1.time.count ≠ s1.frame.edgeTick) || s1.sel.lists = [] then s1
  else
    match s1.cnd.reqs.find? fun r => r.kind = 1 ∧ ¬ r.active ∧ r.first = s1.frame.num ∧ ¬ s1.sel.lists.any (fun l => !l.motion && l.client = r.client) with
    | none => s1
    | some r =>
      if s1.sel.lists.length ≥ 64 then s1
      else
        setFld F.SEL_STAT_LISTS (s1.sel.lists.length + 1)
          { s1 with
            sel := { s1.sel with lists := s1.sel.lists ++ [goalList s1 r] }
            cnd := { s1.cnd with reqs := s1.cnd.reqs.map fun x => if x = r then { r with active := true } else x } }

/-- PLAN_TO_GOAL (R62, R343, R345). -/
def takePlanToGoal (port : Port) (q : ReqUnit) (g : Goal) (s : State) : State :=
  fabric s (takeRequest port 1 q 0 fun s => openLate (addPending (pendReq s port 1 q (some g)) s))

/-- PLAN_TO_GOAL: the request is taken. -/
def execPlanToGoal (port : Port) (q : ReqUnit) (g : Goal) (s : State) : Host.Outcome State Fault Refusal := .next (takePlanToGoal port q g s)

end Sys2Proof.Machine
end

