-- ==== Sys2Proof/Machine/Sweep.lean ====
section
/-! DEFINITION. Machine/Sweep.lean: work grants (R216 to R218, R324), the query pipeline (R219 to R226), the key former
(R227, R228, R255 to R260), gathers and Sepia (R236 to R240), delivery to Select (R229 to R231), tile tests and the peer
check (R243 to R248). -/

namespace Sys2Proof.Machine

/-! ## Tiles and candidates -/

/-- A tile at work. -/
def tileSt (s : State) (u : Nat) : TileSt := tabGet TileSt.idle s.swp.tiles u

/-- The state with a tile replaced; IN_FLIGHT shows its candidates in flight. -/
def setTile (u : Nat) (t : TileSt) (s : State) : State :=
  setFld (F.SWP_TILE_STAT_IN_FLIGHT (u / 8) (u % 8)) t.flight.length
    { s with swp := { s.swp with tiles := tabPut TileSt.idle s.swp.tiles u t } }

/-- The world that the sweep of the running frame reads: the terrain of the epoch in force. -/
def frameTerrain (s : State) : Terrain := terrainOf s.wld.cur s.held.prior s.held.originF (fuseCfg s)

/-- Everything the query pipeline pipeline needs of one candidate; koSet is the number of its keep-out set. -/
structure CandCtx where
  cand : Cand
  layer : Layer
  exp : Expn
  extra : Nat
  koSet : Option Nat

/-- Candidate i of a domain, expanded (R195 to R199), with the context of its client as the frame holds it (R378). -/
def candCtx (s : State) (d i : Nat) : Option CandCtx :=
  match (domSweep s d).cands[i]? with
  | none => none
  | some c =>
    (layerOf s c.layer.val).map fun l =>
      { cand := c, layer := l, exp := expandCand l (frameTerrain s) (edgePose s) c
        extra := fld s (F.CND_LAYER_MARGIN_EXTRA c.layer.val), koSet := ctxKeepOut s c.client }

/-- The pairs of a candidate in the order in which lanes take them (R206, R219). -/
def pairsOf (x : CandCtx) : List (Nat × Nat) :=
  (List.range 64).flatMap fun k => ((List.range x.layer.spheres.length).filter fun i =>
    match x.layer.spheres[i]? with
    | some sp => selectedAt x.exp sp k
    | none => false).map fun i => (k, i)

/-- The state of a candidate at pose k. -/
def cfgAt (x : CandCtx) (k : Nat) : Cfg := x.exp.cfgs.getD (k + 1) ⟨[], [], 0, 0, 0⟩

/-- A sphere of a candidate's layer. -/
def sphereAt (x : CandCtx) (i : Nat) : Sphere :=
  x.layer.spheres.getD i
    { sx := 0, sy := 0, sz := 0, radius := 0, margin := 0, body := 0, hitchZ := false, activeUp := false,
      activeDown := false, rho := 0 }

/-- The centre of a query in 1/4096 m (R205). -/
def queryPoint (s : State) (x : CandCtx) (k i : Nat) : Int × Int × Int := centre (frameTerrain s) (cfgAt x k) (sphereAt x i)

/-- The required distance of a query in 1/256 m (R210). -/
def queryReq (x : CandCtx) (k i : Nat) : Nat := ceilDiv (required x.exp (sphereAt x i) x.extra k) 4

/-- R224: the clearance of a passed query in 1/256 m. -/
def queryClear (x : CandCtx) (k i : Nat) (b : Int) : Int :=
  b - Int.ofNat (ceilDiv ((sphereAt x i).radius + inflation x.exp (sphereAt x i) k) 4)

/-! ## The key (R227, R228, R255 to R259) -/

/-- CLASS (R256): from the clearance in 1/256 m. -/
def classOf (clear : Int) : Nat := (0x1FFF - min (floorDivI clear 4) 0x1FFF).toNat % 2 ^ 13

/-- EF of R259. -/
def effort (k0 : Int) (c : Cand) : Nat :=
  (c.k1 - k0).natAbs + (c.k2 - c.k1).natAbs + (c.k3 - c.k2).natAbs + (c.k4 - c.k3).natAbs

/-- The cost of a free candidate (R259); w is COST_W of its client (R260). -/
def costKey (w tc score : Nat) (clear : Int) (ef : Nat) : Nat :=
  let wTc := bitsOf w 63 48
  let wPs := bitsOf w 47 36
  let wCl := bitsOf w 35 24
  let wEf := bitsOf w 23 12
  let cl := (max 0 (4 * Int.ofNat (bitsOf w 11 0) - clear)).toNat
  min 0xFFFFFFFE ((wTc * tc / 256 + wPs * (255 - score) + wCl * cl + wEf * ef) % 2 ^ 64)

/-- The key of a free candidate (R255). -/
def freeKey (s : State) (x : CandCtx) (i : Nat) (clear : Int) : Nat :=
  costKey (ctxWeights s x.cand.client) x.exp.tc x.cand.score clear (effort (edgePose s).kappa x.cand) * 2 ^ 32 +
    classOf clear * 2 ^ 18 + i

/-- The key of a contact candidate (R255). -/
def contactKey (cause pose i : Nat) : Nat := 0xFFFFFFFF * 2 ^ 32 + 2 ^ 31 + cause * 2 ^ 27 + pose * 2 ^ 21 + i

/-- The tile tag (R228). -/
def tileTag (s : State) (u : Nat) : Nat := frameN s % 64 * 2 ^ 10 + unitDomain s u * 2 ^ 6 + u % 64

/-- The counter of SWP_CONTACT_CNT that counts a cause: occupied, keep-out, Sepia, or window, guard and distance. -/
def contactClass (cause : Nat) : Nat := if cause = 0 then 0 else if cause = 1 then 1 else if cause = 3 then 2 else 3

/-- A formed key enters the output buffer, or waits with its candidate in flight while the buffer is full (R230). The
tile's buffer still holds the packets that Select has not accepted. -/
def formKey (s : State) (u : Nat) (f : InFlight) (key : Nat) (t : TileSt) : TileSt :=
  let others := t.flight.filter fun g => g.index ≠ f.index
  let held := t.out.length + (t.offered.map (·.length)).sum
  if held < 1024 then
    { t with flight := others, out := t.out ++ [⟨key, tileTag s u, s.time.count, false⟩] }
  else { t with flight := others ++ [{ f with key := some key }] }

/-- A candidate ends in contact (R222, R227): its queued descents go, and its key is formed. -/
def endContact (s : State) (u : Nat) (f : InFlight) (cause pose : Nat) (t : TileSt) : TileSt :=
  let t1 := { t with queue := t.queue.filter fun q => q.cand ≠ f.index }
  let t2 := if cause < 6 then
      { t1 with contacts := modAt (contactClass cause) (· + 1) t1.contacts }
    else t1
  formKey s u f (contactKey cause pose f.index) t2

/-- A query passes at a level (R220, R224). -/
def notePass (level : Nat) (clear : Int) (f : InFlight) (t : TileSt) : InFlight × TileSt :=
  ({ f with clear := some (match f.clear with
      | some c => min c clear
      | none => clear) }, { t with passes := modAt level (· + 1) t.passes })

/-! ## Sepia (R237 to R239) -/

/-- Whether the word at a data address reads as Sepia. -/
def isSepia (s : State) (a : Nat) : Bool := !(probeWord 1 a s).1

/-- The scratch address of a tile. -/
def scratchBase (u : Nat) : Nat := 0x8000000000 + u * 0x80000

/-- The scratch address of the level-2 word of a point (R232). -/
def l2Addr (u : Nat) (p : Int × Int × Int) : Nat :=
  scratchBase u + 2 * storageIndex (cellOf p.1) (cellOf p.2.1) (cellOf p.2.2)

/-- The record, the capture and the count of a Sepia element of a sweep query (R238, R254). -/
def sepiaElement (u kind cand elem a : Nat) (timeout : Bool) (s : State) : State :=
  let c := u / 8
  let t := u % 8
  let s1 := countTile u 0x13 (if timeout then 0 else 1)
    (report { unit := u, cls := 0x03, ev := if timeout then 4 else kind, sev := .warning,
              detail := kind * 2 ^ 62 + cand % 2 ^ 18 * 2 ^ 44 + elem * 2 ^ 40 + a % 2 ^ 40 } s)
  if flag s1 (F.SWP_SEPIA_CAP_VALID c t) then s1
  else
    setFld (F.SWP_SEPIA_ADDR_LO_ADDR c t) (a % 2 ^ 32) (setFld (F.SWP_SEPIA_ADDR_HI_ADDR c t) (a / 2 ^ 32 % 256)
      (capture (F.SWP_SEPIA_CAP_VALID c t)
        [(F.SWP_SEPIA_CAP_TIMEOUT c t, if timeout then 1 else 0), (F.SWP_SEPIA_CAP_KIND c t, kind),
         (F.SWP_SEPIA_CAP_ELEMENT c t, elem), (F.SWP_SEPIA_CAP_CAND c t, cand)] s1))

/-- SWP_SEPIA_CNT counts the queries that Sepia resolved. -/
def countSepia (u : Nat) (s : State) : State := bump (F.SWP_SEPIA_CNT_COUNT (u / 8) (u % 8)) s

/-! ## Placing pairs (R219, R220, R226) -/

/-- Whether a point lies outside the window of the epoch. -/
def outside (s : State) (p : Int × Int × Int) : Bool := !pointIn s.wld.cur.win p.1 p.2.1 p.2.2

/-- The place of a column in the maps of the world store. -/
def columnIndex (c : Int × Int) : Nat := (c.1 % 384).toNat + 384 * (c.2 % 384).toNat

/-- The data address of a column's terrain record in the epoch in force (R128, R138). -/
def terrainAddr (s : State) (c : Int × Int) : Nat :=
  0x8010000000 + (36800 + 1152 * halfOf s) * 1024 + 8 * columnIndex c

/-- The data address of a column's value in a live keep-out layer (R134). -/
def keepOutAddr (n : Nat) (c : Int × Int) : Nat := 0x8010000000 + (41408 + 288 * n) * 1024 + 2 * columnIndex c

/-- What the keep-out tests of a candidate at a pose give: clear, a hit, or Sepia at an address; with the reads made. -/
inductive KeepOut where
  | clear
  | hit
  | sepia (a : Nat)
deriving DecidableEq, Repr

/-- The keep-out reads of spheres at their centres (R226): the first below its required distance is a hit. -/
def keepOutSpheres (s : State) (x : CandCtx) (n k : Nat) : List Nat → KeepOut × Nat
  | [] => (.clear, 0)
  | i :: rest =>
    let q := queryPoint s x k i
    let c := (columnOf q.1, columnOf q.2.1)
    let a := keepOutAddr n c
    if isSepia s a then (.sepia a, 1)
    else if memInt s a (keepOutValue (s.held.keepOut.getD n []) s.held.originF c.1 c.2) < Int.ofNat (queryReq x k i) then (.hit, 1)
    else
      let r := keepOutSpheres s x n k rest
      (r.1, r.2 + 1)

/-- The keep-out tests of bodies in order (R226): the value under a body's reference point against its envelope, then, where that is
too small, its spheres. -/
def keepOutBodies (s : State) (x : CandCtx) (n k : Nat) : List Nat → KeepOut × Nat
  | [] => (.clear, 0)
  | b :: rest =>
    let mine := (List.range x.layer.spheres.length).filter fun i =>
      selectedAt x.exp (sphereAt x i) k && decide ((sphereAt x i).body = b)
    if mine = [] then keepOutBodies s x n k rest
    else
      let p := (cfgAt x k).pos.getD b (0, 0)
      let c := (colOf p.1, colOf p.2)
      let a := keepOutAddr n c
      let env := (mine.map fun i =>
        let sp := sphereAt x i
        sp.rho + sp.radius + sp.margin + inflation x.exp sp k).foldl max 0 + x.extra
      if isSepia s a then (.sepia a, 1)
      else
        let r :=
          if memInt s a (keepOutValue (s.held.keepOut.getD n []) s.held.originF c.1 c.2) ≥ Int.ofNat (ceilDiv env 4) then (.clear, 0)
          else keepOutSpheres s x n k mine
        if r.1 = .clear then
          let q := keepOutBodies s x n k rest
          (q.1, q.2 + r.2 + 1)
        else (r.1, r.2 + 1)

/-- The keep-out tests of a candidate at pose k (R226). -/
def keepOutTest (s : State) (x : CandCtx) (k : Nat) : KeepOut × Nat :=
  match x.koSet with
  | none => (.clear, 0)
  | some n => keepOutBodies s x n k (List.range x.layer.bodies.length)

/-- A query of a candidate that reads Sepia ends it in contact (R237, R254). -/
def sepiaContact (u : Nat) (f : InFlight) (k : Nat) (t : TileSt) (s : State) : State × TileSt :=
  let s1 := countSepia u s
  (s1, endContact s1 u f 3 k t)

/-- What placing pairs leads to: the state, the tile and the candidate if it is still in flight. -/
abbrev Placed := State × TileSt × Option InFlight

/-- The level-2 bound that a tile reads for a point (R232). -/
def level2Read (s : State) (u : Nat) (p : Int × Int × Int) : Int := memInt s (l2Addr u p) (levelBound s.wld 2 p.1 p.2.1 p.2.2)

/-- A pair's query fails at level 2 and has to descend (R220, R221). -/
def descends (s : State) (u : Nat) (x : CandCtx) (k i : Nat) : Bool :=
  let p := queryPoint s x k i
  decide (queryReq x k i ≤ 0x7FFF) && !outside s p && !isSepia s (l2Addr u p) &&
    decide (level2Read s u p < Int.ofNat (queryReq x k i))

/-- The level-2 handshake of a pair (R220): contact for a required distance past 127.996 m, outside the window or for Sepia; a
pass with its bound; or a descent. -/
def placePair (u : Nat) (x : CandCtx) (k i : Nat) (s : State) (t : TileSt) (f : InFlight) : Placed :=
  let p := queryPoint s x k i
  let req := queryReq x k i
  if req > 0x7FFF then (s, endContact s u f 5 k t, none)
  else if outside s p then (s, endContact s u f 2 k t, none)
  else
    let a := l2Addr u p
    let r := probeWord 1 a s
    if !r.1 then
      let cell := cellCode (cellOf p.1) (cellOf p.2.1) (cellOf p.2.2)
      let q := sepiaContact u f k t (scheduleRewrite u cell (sepiaElement u 3 f.index 0 a false r.2))
      (q.1, q.2, none)
    else
      let b := level2Read r.2 u p
      if b ≥ Int.ofNat req then
        let n := notePass 0 (queryClear x k i b) { f with placed := f.placed + 1 } t
        (r.2, n.2, some n.1)
      else (r.2, { t with queue := t.queue ++ [⟨f.index, k, i, 0, 1, 0, s.time.count⟩] }, some { f with placed := f.placed + 1 })

/-- The pairs of one candidate placed in order, until one is a contact, or fails at level 2 while the descent queue is full (R219 to
R222); the keep-out tests of a pose come with its first pair. -/
def placePairs (u : Nat) (x : CandCtx) : List (Nat × Nat) → Placed → Placed
  | [], r => r
  | (k, i) :: rest, (s, t, some f) =>
    if t.queue.length ≥ 64 && descends s u x k i then (s, t, some f)
    else
      let firstOfPose : Bool := decide (((pairsOf x).take f.placed).all fun p => p.1 ≠ k)
      let ko := if firstOfPose then keepOutTest s x k else (.clear, 0)
      let s1 := countTile u 0x12 ko.2 s
      match ko.1 with
      | .hit => (s1, endContact s1 u f 1 k t, none)
      | .sepia a =>
        let q := sepiaContact u f k t (sepiaElement u 3 f.index 0 a false (probeWord 1 a s1).2)
        (q.1, q.2, none)
      | .clear => placePairs u x rest (placePair u x k i s1 t f)
  | _, r => r

/-- The tile with a candidate in flight replaced in its place. -/
def putFlight (f : InFlight) (t : TileSt) : TileSt :=
  { t with flight := t.flight.map fun g => if g.index = f.index then f else g }

/-- A candidate whose pairs are all placed and whose queries have all passed is free (R224, R227). -/
def finishIf (s : State) (u : Nat) (x : CandCtx) (f : InFlight) (t : TileSt) : TileSt :=
  if f.placed = (pairsOf x).length ∧ ¬ (t.queue.any fun q => q.cand = f.index) then
    formKey s u f (freeKey s x f.index (f.clear.getD 0x7FFF)) t
  else t

/-- One candidate in flight goes on: its waiting key, or its next pairs. -/
def advanceCand (u : Nat) (st : State × TileSt) (index : Nat) : State × TileSt :=
  let s := st.1
  let t := st.2
  match t.flight.find? fun f => f.index = index with
  | none => st
  | some f =>
    match f.key with
    | some key => (s, formKey s u f key t)
    | none =>
      match candCtx s (unitDomain s u) index with
      | none => (s, endContact s u f 3 0 t)
      | some x =>
        match placePairs u x ((pairsOf x).drop f.placed) (s, t, some f) with
        | (s1, t1, none) => (s1, t1)
        | (s1, t1, some f1) => (s1, finishIf s1 u x f1 (putFlight f1 t1))

/-- The words that the expansion of a candidate reads (R212, R237): its record in the region and in the ring, its layer in the tile's
copy, and the terrain under its bodies along its path, each with the pose at which it is read. -/
def expansionWords (s : State) (u index : Nat) (x : CandCtx) : List (Nat × Nat) :=
  let rec0 := candAddr s (unitDomain s u) index
  let ring := scratchBase u + 0x4C000 + index % 1024 * 16
  let lay := scratchBase u + 0x48000 + x.cand.layer.val * 0x400
  let fixed := ([rec0, rec0 + 8, ring, ring + 8] ++ (List.range 128).map fun i => lay + 8 * i).map fun a => (a, 0)
  fixed ++ x.exp.track.zipIdx.flatMap fun c => c.1.pos.map fun p => (terrainAddr s (colOf p.1, colOf p.2), (c.2 - 1) / 8)

/-- The first of them that reads as Sepia. -/
def sepiaInputs (s : State) (u index : Nat) (x : CandCtx) : Option (Nat × Nat) :=
  if s.mem.synd = [] then none else (expansionWords s u index x).find? fun w => isSepia s w.1

/-- The record of a range-guard event on an expansion variable (R158, R212): the spec numbers no such variable, so the
detail is free, and so is the side of the range. -/
def expansionGuard (u : Nat) (s : State) : State :=
  let f := nextFree s
  report { unit := u, cls := 0x04, ev := Config.freeValue f.1 % 2, sev := .warning, detail := Config.freeValue f.1 / 2 } f.2

/-- A candidate starts (R201, R202, R212, R218): Sepia in its inputs or an infeasible expansion ends it before any query;
a range-guard event of its expansion counts. -/
def startCand (u : Nat) (st : State × TileSt) (index : Nat) : State × TileSt :=
  let s := st.1
  let f : InFlight := ⟨index, 0, none, none⟩
  let t := { st.2 with flight := st.2.flight ++ [f] }
  let d := unitDomain s u
  match candCtx s d index with
  | none => (s, endContact s u f 3 0 t)
  | some x =>
    match sepiaInputs s u index x with
    | some (a, k) => sepiaContact u f k t (sepiaElement u 3 index 0 a false (probeWord 1 a s).2)
    | none =>
      match x.exp.infeas with
      | some (c, k) =>
        let dom := domSweep s d
        let s1 := if c ≥ 6 then setDom { dom with infeasible := modAt (c - 6) (· + 1) dom.infeasible } s
          else if c = 4 then
            let v := 2 ^ 19 + u
            let s' := bumpBy F.INF_RG_CNT_COUNT x.exp.guards (addRg false d x.exp.guards s)
            if s'.inf.firstRg.contains v then s'
            else expansionGuard u { s' with inf := { s'.inf with firstRg := v :: s'.inf.firstRg } }
          else s
        (s1, endContact s1 u f c k t)
      | none => advanceCand u (s, t) index

/-- New candidates start in ascending index order while fewer than four are in flight (R218). -/
def fillFlight (u : Nat) : List Nat → State × TileSt → State × TileSt
  | [], st => st
  | i :: rest, st =>
    if st.2.flight.length < 4 then fillFlight u rest (startCand u (st.1, { st.2 with todo := rest }) i) else st

/-- The events of a tile's queries since it stood at t0: passes by level, and queries that ended a candidate (R580). -/
def countQueries (u : Nat) (t0 : TileSt) (s : State) : State :=
  let t := tileSt s u
  let more := fun (a b : List Nat) (i : Nat) => a.getD i 0 - b.getD i 0
  let s1 := (List.range 4).foldl (fun s i => countTile u (4 + i) (more t.passes t0.passes i) s) s
  countTile u 0x08 ((List.range 4).map (more t.contacts t0.contacts)).sum s1

/-- A tile goes on as far as it can: candidates in flight first, then new ones. -/
def pumpTile (u : Nat) (s : State) : State :=
  let t := tileSt s u
  let st := (t.flight.map (·.index)).foldl (advanceCand u) (s, t)
  let fin := fillFlight u st.2.todo st
  countQueries u t (setTile u fin.2 fin.1)

/-! ## Work grants (R216, R217, R324) -/

/-- The node hands out sweep blocks (R216). -/
def isSweepNode (d : NodeDesc) : Bool := d.repl && decide (d.unitClass.val = 0) && decide (d.phase.val = 2)

/-- The next block of a domain, if it may be granted (R216, R217): first those that a quarantine gave back. -/
def nextBlockOf (s : State) (d : Nat) : Option (Nat × Nat) :=
  let x := domSweep s d
  let first := x.back.headD x.nextBlock * blockSize s
  if x.written ∧ first < x.cands.length then some (first, min (blockSize s) (x.cands.length - first)) else none

/-- The block is claimed. -/
def claimBlock (x : DomSweep) : DomSweep :=
  match x.back with
  | _ :: rest => { x with back := rest }
  | [] => { x with nextBlock := x.nextBlock + 1 }

/-- The registers of a sequencer show a running task. -/
def showRunning (u node : Nat) (s : State) : State :=
  if u < 64 then setFld (F.SWP_TILE_STAT_STATE (u / 8) (u % 8)) 1 (setFld (F.SWP_TILE_STAT_TASK (u / 8) (u % 8)) node s)
  else if u < 72 then setFld (F.INF_TILE_STAT_STATE (u - 64)) 1 (setFld (F.INF_TILE_STAT_TASK (u - 64)) node s)
  else s

/-- R352: the first task of an open work unit starts its time. -/
def startUnit (u : Nat) (s : State) : State :=
  match opOnUnit s u with
  | some o => if o.started then s else setOp { o with unitStart := some s.time.count, started := true } s
  | none => s

/-- A grant of an ordinary node or of a flow item. -/
def grantNode (u : Nat) (e : ReadyEnt) (item : Option FlowItem) (s : State) : State :=
  let more := item.any fun i =>
    (s.cnd.items.filter fun j => j.flow = i.flow ∧ ¬ j.complete ∧ ¬ s.cnd.grants.any fun g => g.item = some (j.flow, j.seq)).length > 1
  let g : Grant := ⟨u, e.node, s.time.count, none, item.map fun i => (i.flow, i.seq), none, 0⟩
  showSched (startUnit u (showRunning u e.node (recordGrant g (takeReadiness e more s))))

/-- A grant of a sweep block (R216, R218): the tile takes the block and starts. -/
def grantBlock (u : Nat) (e : ReadyEnt) (b : Nat × Nat) (s : State) : State :=
  let d := unitDomain s u
  let s1 := setDom (claimBlock (domSweep s d)) s
  let g : Grant := ⟨u, e.node, s.time.count, none, none, some b, 0⟩
  let s2 := recordGrant g (takeReadiness e (nextBlockOf s1 d).isSome s1)
  let t := tileSt s2 u
  showSched (pumpTile u (countTile u 0x15 1 (startUnit u (showRunning u e.node
    (setTile u { t with todo := t.todo ++ (List.range b.2).map (b.1 + ·) } s2)))))

/-- WORK_GRANT (R216, R217, R324): the Conductor answers a waiting pull with an eligible ready node, a flow item or a sweep
block. A sweep tile takes no further block while its candidate ring of 1,024 records has no room for it (R252). -/
def execWorkGrant (unit : Nat) (s : State) : Host.Outcome State Fault Refusal :=
  .next (fabric s fun s =>
    if ¬ s.cnd.pulls.contains unit then s
    else match chooseNode s unit with
      | none => s
      | some e =>
        match nodeDesc s e.node with
        | none => s
        | some d =>
          if isSweepNode d then
            match nextBlockOf s (unitDomain s unit) with
            | some b =>
              if (tileSt s unit).todo.length + (tileSt s unit).flight.length + b.2 > 1024 then s else grantBlock unit e b s
            | none => s
          else match d.flow with
            | none => grantNode unit e none s
            | some f =>
              match nextItem s unit f.val with
              | some i => grantNode unit e (some i) s
              | none => s)

/-! ## Gathers (R221, R236, R237, R240) -/

/-- Reads collected for one gather: up to 16 of one kind, in queue order, a refine's with the numbers of their samples; the second
value is the queue after it. -/
def collectReads (stage : Nat) : List Query → Nat → List (Nat × Nat × Nat × Nat) × List Query
  | [], _ => ([], [])
  | q :: qs, room =>
    if q.stage = stage ∧ q.toIssue > 0 ∧ room > 0 then
      let n := min q.toIssue room
      let first := if stage = 3 then 8 - q.toIssue else 0
      let r := collectReads stage qs (room - n)
      ((List.range n).map (fun i => (q.cand, q.pose, q.sphere, first + i)) ++ r.1,
        { q with toIssue := q.toIssue - n, inFlight := q.inFlight + n } :: r.2)
    else
      let r := collectReads stage qs room
      (r.1, q :: r.2)

/-- How many reads of a kind wait to be issued. -/
def waitingReads (t : TileSt) (stage : Nat) : Nat := ((t.queue.filter fun q => q.stage = stage).map (·.toIssue)).sum

/-- The kind whose gather is due (R221): one with 16 reads, or with a read that has waited for 100 ns, which is 2.5 ticks. -/
def dueKind (s : State) (t : TileSt) : Option Nat :=
  (t.queue.find? fun q => decide (q.toIssue > 0) &&
    (decide (waitingReads t q.stage ≥ 16) || decide (2 * (s.time.count - q.entered) ≥ 5))).map (·.stage)

/-- GATHER_ISSUE (R221): 16 reads of the kind that is due, at most, are issued as one gather. -/
def execGatherIssue (tile : TileId) (s : State) : Host.Outcome State Fault Refusal :=
  let u := tileUnit tile
  .next (fabric s fun s =>
    let t := tileSt s u
    match dueKind s t with
    | none => s
    | some k =>
      let r := collectReads k t.queue 16
      countTile u 0x0C (if r.1.length < 16 then 1 else 0) (countTile u 0x0B 1
        (setTile u { t with queue := r.2, gathers := t.gathers ++ [⟨k, r.1, s.time.count⟩] } s)))

/-- Read kinds of R238 by stage. -/
def readKind (stage : Nat) : Nat := if stage = 2 then 0 else if stage = 3 then 2 else 1

/-- The address of byte n of a domain's ways in a cluster world cache (R363). -/
def cacheAddr (s : State) (c d n : Nat) : Nat :=
  let ways := (List.range 16).filter fun w => wayOwner s c w = d
  0x800C000000 + c * 0x400000 + ways.getD (n / 0x40000) 0 * 0x40000 + n % 0x40000

/-- The address of the descriptor of a point's cell (R125). -/
def descAddr (s : State) (u : Nat) (p : Int × Int × Int) : Nat :=
  cacheAddr s (u / 8) (unitDomain s u) (4 * storageIndex (cellOf p.1) (cellOf p.2.1) (cellOf p.2.2))

/-- The descriptor of a point's cell, as the tile reads it. -/
def descWord (s : State) (u : Nat) (p : Int × Int × Int) : Nat :=
  memValue s (descAddr s u p) 4 (descriptor s.wld (cellOf p.1) (cellOf p.2.1) (cellOf p.2.2))

/-- The slot that a read of a stage goes to: a level-1 block, or a brick (R125). -/
def readSlot (s : State) (u : Nat) (p : Int × Int × Int) (stage : Nat) : Nat :=
  if stage = 1 then bitsOf (descWord s u p) 29 16 else bitsOf (descWord s u p) 13 0

/-- The address of a brick (R126). -/
def brickAddr (n : Nat) : Nat := 0x8010000000 + n * 2560

/-- The address of a read of a query (R125, R126): descriptor, level-1 value, voxel bound or corner sample n. -/
def readAddr (s : State) (u : Nat) (p : Int × Int × Int) (stage n : Nat) : Nat :=
  let slot := readSlot s u p stage
  let v := fun (f : Int → Int) (m : Int) => ((f p.1 % m).toNat, (f p.2.1 % m).toNat, (f p.2.2 % m).toNat)
  let c1 := v columnOf 4
  let c0 := v voxOf 8
  if stage = 0 then descAddr s u p
  else if stage = 1 then
    cacheAddr s (u / 8) (unitDomain s u) (0x90000 + slot * 128 + 2 * (c1.1 + 4 * c1.2.1 + 16 * c1.2.2))
  else if stage = 2 then brickAddr slot + 32 + 2 * (c0.1 + 8 * c0.2.1 + 64 * c0.2.2)
  else brickAddr slot + 1056 + 2 * ((c0.1 + n % 2) + 9 * (c0.2.1 + n / 2 % 2) + 81 * (c0.2.2 + n / 4))

/-- The refine of R127 from the values that the tile reads. -/
def refineRead (s : State) (u : Nat) (p : Int × Int × Int) : Int :=
  let d := memInt s (readAddr s u p 2 0) (levelBound s.wld 0 p.1 p.2.1 p.2.2)
  let sample := fun (n : Nat) =>
    memInt s (readAddr s u p 3 n)
      (cornerSample s.wld.boxes (voxOf p.1 + Int.ofNat (n % 2)) (voxOf p.2.1 + Int.ofNat (n / 2 % 2)) (voxOf p.2.2 + Int.ofNat (n / 4)))
  refineFrom d sample p.1 p.2.1 p.2.2

/-- A read of a query has answered with its value (R220): it passes, goes on to the next stage, or ends the candidate. -/
def answerRead (u : Nat) (s : State) (t : TileSt) (r : Nat × Nat × Nat × Nat) (stage : Nat) : TileSt :=
  let isQ := fun (q : Query) => decide (q.cand = r.1 ∧ q.pose = r.2.1 ∧ q.sphere = r.2.2.1)
  match t.flight.find? fun f => f.index = r.1, t.queue.find? isQ, candCtx s (unitDomain s u) r.1 with
  | some f, some q, some x =>
    let p := queryPoint s x q.pose q.sphere
    let req := Int.ofNat (queryReq x q.pose q.sphere)
    let upd := fun (q' : Query) => { t with queue := t.queue.map fun y => if isQ y then q' else y }
    let descend := fun (stage n : Nat) => upd { q with stage := stage, toIssue := n, inFlight := 0, entered := s.time.count }
    let pass := fun (level : Nat) (b : Int) =>
      let n := notePass level (queryClear x q.pose q.sphere b) f { t with queue := t.queue.filter fun y => !isQ y }
      finishIf s u x n.1 (putFlight n.1 n.2)
    let hit := endContact s u f 0 q.pose t
    if stage = 0 then if bitsOf (descWord s u p) 31 30 = kindNo .near then descend 1 1 else hit
    else if stage = 1 then
      let b := memInt s (readAddr s u p 1 0) (levelBound s.wld 1 p.1 p.2.1 p.2.2)
      if b ≥ req then pass 1 b else descend 2 1
    else if stage = 2 then
      let b := memInt s (readAddr s u p 2 0) (levelBound s.wld 0 p.1 p.2.1 p.2.2)
      if b ≥ req then pass 2 b else if b ≤ 0 then hit else descend 3 8
    else if q.toIssue + q.inFlight > 1 then upd { q with inFlight := q.inFlight - 1 }
    else
      let b := refineRead s u p
      if b ≥ req then pass 3 b else hit
  | _, _, _ => t

/-- A brick of a later epoch reached a reader (R141, R146): the running frame is mixed-epoch, a doubt. -/
def lateBrick (s : State) : State :=
  setFlag F.WLD_ERR_STAT_LATE_EPOCH true
    (doubtEvent 5 { unit := 0x82, cls := 0x0C, ev := 3, sev := .doubt }
      { s with frame := { s.frame with mixed := true } })

/-- R141: the EPOCH of the brick that a read goes to is later than the frame. A replay frame reads what its units carry. -/
def brickLate (s : State) (u : Nat) (p : Int × Int × Int) (stage : Nat) : Bool :=
  let slot := readSlot s u p stage
  let held := ((s.wld.slots.find? fun x => x.brick = slot).map fun x => x.epoch.toNat).getD 0
  let d := frameDist s.frame.num (BitVec.ofNat 32 (memValue s (brickAddr slot) 4 held))
  decide (stage ≥ 2) && !s.replay.inFrame && decide (0 < d ∧ d < 2 ^ 31)

/-- The candidate of a read that arrives as Sepia ends in contact (R237). -/
def endRead (u : Nat) (r : Nat × Nat × Nat × Nat) (s : State) : State :=
  let t := tileSt s u
  match t.flight.find? fun f => f.index = r.1 with
  | some f =>
    let q := sepiaContact u f r.2.1 t s
    setTile u q.2 q.1
  | none => s

/-- One element of a gather answers (R18, R146, R236 to R238): with the value that memory holds at its address, or as Sepia, where the
word is uncorrectable, the address unpopulated, or its slot beyond 10,239. -/
def answerElement (u stage : Nat) (upsets : List GatherUpset) (s : State) (x : (Nat × Nat × Nat × Nat) × Nat) : State :=
  match candCtx s (unitDomain s u) x.1.1 with
  | none => s
  | some c =>
    let p := queryPoint s c x.1.2.1 x.1.2.2.1
    let a := readAddr s u p stage x.1.2.2.2
    let s1 := match upsets.find? fun e => e.place.val = x.2 with
      | some e => applyFlips a e.flips s
      | none => s
    let beyond : Bool := decide (stage ≠ 0) && decide (readSlot s1 u p stage > 10239)
    let r := if memAt a = none then (false, report { unit := 0x84, cls := 0x0B, ev := 3, sev := .warning, detail := a } s1)
      else probeWord 1 a s1
    if beyond || !r.1 then endRead u x.1 (sepiaElement u (readKind stage) x.1.1 x.2 a false r.2)
    else
      let s2 := if brickLate r.2 u p stage then lateBrick r.2 else r.2
      setTile u (answerRead u s2 (tileSt s2 u) x.1 stage) s2

/-- GATHER_ANSWER (R141, R221, R236, R237, R253, R633): the elements of an issued gather answer in order; a faulty one arrives as
Sepia, the others with their values. upsets are the bits that have flipped in the words that it reads. -/
def execGatherAnswer (tile : TileId) (which : Nat) (upsets : List GatherUpset) (s : State) : Host.Outcome State Fault Refusal :=
  let u := tileUnit tile
  .next (fabric s fun s =>
    match (tileSt s u).gathers[which]? with
    | none => s
    | some g =>
      let t0 := tileSt s u
      let s0 := setTile u { t0 with gathers := t0.gathers.eraseIdx which } s
      pumpTile u (countQueries u t0 (g.reads.zipIdx.foldl (answerElement u g.stage upsets) s0)))

/-- GATHER_TO has passed since a gather was issued (R240); the field is in units of 0.1 µs, 2.5 ticks. -/
def gatherLate (s : State) (u : Nat) (g : Gather) : Bool :=
  2 * (s.time.count - g.issued) ≥ 5 * fld s (F.SWP_STW_CFG_GATHER_TO (u / 8))

/-- GATHER_TIMEOUT (R240): a gather without an answer after GATHER_TO is delivered with all its elements Sepia, with one record for the
whole gather; the candidates of its reads end in contact. -/
def execGatherTimeout (tile : TileId) (which : Nat) (s : State) : Host.Outcome State Fault Refusal :=
  let u := tileUnit tile
  .next (fabric s fun s =>
    match (tileSt s u).gathers[which]? with
    | none => s
    | some g =>
      if !gatherLate s u g then s
      else
        let t0 := tileSt s u
        let s0 := setTile u { t0 with gathers := t0.gathers.eraseIdx which } s
        let r := g.reads.headD (0, 0, 0, 0)
        let a := match candCtx s (unitDomain s u) r.1 with
          | some c => readAddr s u (queryPoint s c r.2.1 r.2.2.1) g.stage r.2.2.2
          | none => 0
        let s1 := countTile u 0x13 g.reads.length (sepiaElement u (readKind g.stage) r.1 0 a true s0)
        pumpTile u (countQueries u t0 (g.reads.foldl (fun s r => endRead u r s) s1)))

/-! ## Delivery (R229 to R231) -/

/-- The Select lane of a tile's cluster (R229). -/
def laneOf (u : Nat) : Nat := u / 8 % 4

/-- R229: a packet is due when 8 records are buffered, or 1 µs (25 ticks) after the first of them was formed; after FLUSH_LEAD
each record goes alone. -/
def packetDue (s : State) (t : TileSt) : Bool :=
  s.swp.single || decide (t.out.length ≥ 8) || t.out.head?.any fun e => decide (e.formed + 25 ≤ s.time.count)

/-- The records that leave the output buffer (R232, R281): one whose words are bad leaves as Sepia. -/
def readOut (u : Nat) : Nat → List KeyRec → State → List KeyRec × State
  | _, [], s => ([], s)
  | n, e :: rest, s =>
    let a := scratchBase u + 0x64000 + 16 * n
    let r := probeWord 1 a s
    let q := probeWord 1 (a + 8) r.2
    let t := readOut u (n + 1) rest q.2
    ({ e with sepia := !(r.1 && q.1) } :: t.1, t.2)

/-- KEY_PACKET_SEND (R229): a packet of up to 8 records that is due is offered to the lane. -/
def execKeyPacketSend (tile : TileId) (s : State) : Host.Outcome State Fault Refusal :=
  let u := tileUnit tile
  .next (fabric s fun s =>
    let t := tileSt s u
    let n := if s.swp.single then 1 else 8
    if t.out = [] ∨ s.swp.closed ∨ packetDue s t = false then s
    else
      let r := readOut u 0 (t.out.take n) s
      setTile u { t with out := t.out.drop n, offered := t.offered ++ [r.1] } r.2)

/-- The tick FLUSH_LEAD before the sweep hard stop (R229) has come; the field is in units of 0.1 µs, 2.5 ticks. -/
def flushDue (s : State) : Bool :=
  2 * s.time.count + 5 * fld s (F.SWP_STW_CFG_FLUSH_LEAD 0) ≥ 2 * (s.frame.edgeTick + hardStop s 1)

/-- FLUSH_LEAD (R229): from here to the sweep hard stop each record goes alone as soon as it is formed. In replay mode no hard stop
comes. -/
def execFlushLead (s : State) : Host.Outcome State Fault Refusal :=
  .next (fabric s fun s =>
    if s.frame.started && flushDue s && !s.replay.active then { s with swp := { s.swp with single := true } } else s)

/-- A tile had a counting window in the frame (R574): it was in service at the edge and not in its test slice. -/
def hadWindow (s : State) (u : Nat) : Bool :=
  (!outOfService s u || s.frame.quarantined.contains u) && s.frame.testTile ≠ some u

/-- The totals of one window (R251, R575, R576): how many slots its ring counted, and how they divide into the four headings, is
free; the four sum to the count, a multiple of lanes. -/
def windowTotals (lanes k : Nat) : List Nat :=
  let n := lanes * (Config.freeValue k % 2 ^ 43)
  let a := Config.freeValue (k + 1) % (n + 1)
  let b := Config.freeValue (k + 2) % (n - a + 1)
  let c := Config.freeValue (k + 3) % (n - a - b + 1)
  [a, b, c, n - a - b - c]

/-- A 48-bit slot counter, which wraps (R575). -/
def addSlots (lo hi : Fld) (n : Nat) (s : State) : State :=
  let v := fld s lo + 2 ^ 32 * fld s hi + n
  setFld lo v (setFld hi (v / 2 ^ 32) s)

/-- Events that count handshakes in which something waited, or what caches answered: how many fell into a frame is free. -/
def countOpen (count : Nat → Nat → State → State) (s : State) (ev : Nat) : State :=
  let f := nextFree s
  count ev (Config.freeValue f.1 % 2 ^ 48) f.2

/-- The settlement of one tile (R575 to R577): its slot counter, the events of the headings, and the totals of its domain;
those of an inference tile enter no telemetry. -/
def settleTile (s : State) (u : Nat) : State :=
  if !hadWindow s u then s
  else
    let w := windowTotals (if u < 64 then 32 else 4) s.free
    let d := unitDomain s u
    let old := (s.swp.slots.find? fun x => x.1 = d).map (·.2)
    let new := (old.getD [0, 0, 0, 0]).zipWith (· + ·) w
    let s1 := { s with
      free := s.free + 4
      swp := if u < 64 then { s.swp with slots := (d, new) :: s.swp.slots.filter fun x => x.1 ≠ d } else s.swp }
    let s2 := if u < 64 then
        addSlots (F.SWP_SLOT_CNT_COUNT (u / 8) (u % 8)) (F.SWP_SLOT_CNT_HI_COUNT (u / 8) (u % 8)) w.sum s1
      else addSlots (F.INF_SLOT_CNT_COUNT (u - 64)) (F.INF_SLOT_CNT_HI_COUNT (u - 64)) w.sum s1
    let s3 := w.zipIdx.foldl (fun s x => countTile u ((if u < 64 then 0 else 0x40) + x.2) x.1 s) s2
    if u < 64 then [0x0D, 0x0E, 0x0F, 0x10, 0x11, 0x14].foldl (countOpen (countTile u)) s3 else s3

/-- The settlement at the sweep hard stop, and with it the events of stewards and of the die that count handshakes. -/
def settle (s : State) : State :=
  let s1 := (List.range 72).foldl settleTile { s with swp := { s.swp with slots := [] } }
  let s2 := (List.range 8).foldl (fun s c => [0x61, 0x62, 0x63].foldl (countOpen (countSteward c)) s) s1
  countOpen countDie s2 0x83

/-- The sweep hard stop in the tiles (R231, R242, R576): work in flight and records not yet accepted are discarded. -/
def stopTiles (s0 : State) : State :=
  let s := settle s0
  let stop := fun (x : Nat × TileSt) =>
    (x.1, { x.2 with todo := [], flight := [], queue := [], gathers := [], out := [], offered := [] })
  let s1 := (List.range 64).foldl (fun s u => setFld (F.SWP_TILE_STAT_IN_FLIGHT (u / 8) (u % 8)) 0 s) s
  { s1 with swp := { s1.swp with tiles := (s1.swp.tiles.map stop).filter (fun x => x.2 ≠ TileSt.idle), closed := true } }

/-- L2_REWRITE_DONE (R239): the rewrite of a level-2 word from the master lands and clears its Sepia. -/
def execL2RewriteDone (tile : TileId) (cell : Nat) (s : State) : Host.Outcome State Fault Refusal :=
  let u := tileUnit tile
  let i := cell % 128 + 96 * (cell / 128 % 128) + 9216 * (cell / 16384)
  .next (fabric s fun s =>
    if s.mem.rewrites.contains (u, cell) then
      freshWords ((scratchBase u + 2 * i) / 8 * 8) 8 { s with mem := { s.mem with rewrites := s.mem.rewrites.erase (u, cell) } }
    else s)

/-! ## Tile tests (R243 to R245) -/

/-- The steward's view of its tiles (R254). -/
def showSteward (c : Nat) (s : State) : State :=
  let pool := ((List.range 8).map fun t => if inPool s (c * 8 + t) then 2 ^ t else 0).sum
  setFld (F.SWP_STW_STAT_POOL c) pool s

/-- R244, R245: the slice has lasted for more than 40 µs, 1,000 ticks. -/
def sliceLate (s : State) : Bool := s.frame.edgeTick + 1000 < s.time.count

/-- TEST_SLICE_DONE (R245): the tile in its test slice passes, or is quarantined and falls due for its pack. A slice that ends after its
40 µs has exceeded them, whatever its results. -/
def execTestSliceDone (o : TestOutcome) (s : State) : Host.Outcome State Fault Refusal :=
  .next (fabric s fun s =>
    match s.frame.testTile with
    | none => s
    | some u =>
      let c := u / 8
      let t := u % 8
      if o = .pass ∧ sliceLate s = false then setMaskBit (F.SWP_STW_STAT_TESTED_OK c) t true s
      else
        let s1 := bump (F.SWP_TEST_FAIL_FAIL_CNT c) (setMaskBit (F.SWP_TEST_FAIL_FAIL c) t true
          (setMaskBit (F.SWP_STW_STAT_TESTED_OK c) t false s))
        showSteward c (showSched (report { unit := u, cls := 0x07, ev := 0, sev := .fault }
          (kermesDue (kermesUnit u) (takeOut false u s1)))))

/-- STW_QUAR_WRITE (R25, R254): writing 1 to a bit quarantines the tile; a steward reaches its own page only. -/
def takeStwQuarWrite (r : Requester) (c : Fin 8) (bits : BitVec 8) (s : State) : State :=
  let allowed : Bool := match r with
    | .warden => true
    | .conductor => true
    | .steward k => decide (k = c)
    | .jtag => decide (s.fuse.lc ∈ [0, 1, 3])
    | _ => false
  live s fun s =>
    if !allowed then refuseAccess r (F.SWP_STW_QUAR_QUAR c.val).addr s
    else
      showSteward c.val (showSched (((List.range 8).filter fun t => bits.getLsbD t).foldl
        (fun s t => takeOut false (c.val * 8 + t) s) s))

/-- The command StwQuarWrite, as above. -/
def execStwQuarWrite (r : Requester) (c : Fin 8) (bits : BitVec 8) (s : State) : Host.Outcome State Fault Refusal :=
  .next (takeStwQuarWrite r c bits s)

/-- SWP_STW_RELEASE (R246, R254): accepted from the Warden core only; the release takes effect at the next edge. -/
def takeSwpStwRelease (r : Requester) (c : Fin 8) (bits : BitVec 8) (s : State) : State :=
  live s fun s =>
    if r ≠ .warden then refuseAccess r (F.SWP_STW_RELEASE_RELEASE c.val).addr s
    else ((List.range 8).filter fun t => bits.getLsbD t).foldl (fun s t => releaseUnit (c.val * 8 + t) s) s

/-- The command SwpStwRelease, as above. -/
def execSwpStwRelease (r : Requester) (c : Fin 8) (bits : BitVec 8) (s : State) : Host.Outcome State Fault Refusal :=
  .next (takeSwpStwRelease r c bits s)

/-! ## The peer check (R248) -/

/-- A tile's ratio against the mean ratio of its peers differs by more than th / 1,024. Ratios are contacts over resolved. -/
def peerDeviates (th : Nat) (own : Nat × Nat) (peers : List (Nat × Nat)) : Bool :=
  let ps := peers.filter fun p => p.2 > 0
  if ps = [] ∨ own.2 = 0 then false
  else
    let r : Rat := mkRat own.1 own.2
    let m : Rat := (ps.map fun p => mkRat p.1 p.2).sum / ps.length
    decide (|r - m| > mkRat th 1024)

/-- R248: the window of a cluster's peer check ends with the frame. DESIGN CHOICE (log 121): windows end at frames whose number is a
multiple of PEER_WIN. -/
def peerDue (s : State) (c : Nat) : Bool :=
  frameN s % max 1 (fld s (F.SWP_PEER_CFG_PEER_WIN c)) = 0 && !s.frame.peerDone.contains c

/-- PEER_CHECK (R248): the window's ratios of a cluster's tiles are compared; a deviating tile is flagged, reported, and
falls under R418. -/
def execPeerCheck (c : Fin 8) (s : State) : Host.Outcome State Fault Refusal :=
  .next (fabric s fun s =>
    if !peerDue s c.val then s
    else
      let units := (List.range 8).map (c.val * 8 + ·)
      let pool := units.filter fun u => inPool s u
      let ratio := fun (u : Nat) => ((tileSt s u).winContact, (tileSt s u).winResolved)
      let bad := pool.filter fun u =>
        (ratio u).2 ≥ 1024 &&
          peerDeviates (fld s (F.SWP_PEER_CFG_PEER_TH c.val)) (ratio u)
            ((pool.filter fun v => v ≠ u ∧ unitDomain s v = unitDomain s u).map ratio)
      let near := fun (n d : Nat) => (roundDiv (Int.ofNat n) d).toNat
      let shown := units.foldl (fun s' u =>
        setSat (F.SWP_PEER_RATIO_RESOLVED c.val (u % 8)) (near (ratio u).2 256)
          (setSat (F.SWP_PEER_RATIO_RATIO c.val (u % 8)) (if (ratio u).2 = 0 then 0 else near ((ratio u).1 * 65536) (ratio u).2)
            (setTile u { tileSt s' u with winResolved := 0, winContact := 0 } s')))
        { s with frame := { s.frame with peerDone := c.val :: s.frame.peerDone } }
      bad.foldl (fun s u =>
        testQuarantine u (report (uncoded .peerCheck u .warning)
          (setMaskBit (F.SWP_PEER_FLAG_FLAG c.val) (u % 8) true s))) shown)

/-! ## The sweep at an edge (R235, R239, R243, R247) -/

/-- The tile in its test slice (R243). -/
def testTileOf (s : State) : Option Nat :=
  let u := frameN s % 64
  if outOfService s u then none else some u

/-- R239: before the first grant the steward rewrites every level-2 word still marked; R212: layer copies with Sepia are reloaded. -/
def repairScratch (s : State) : State :=
  let there := fun (a : Nat) => decide (memAt a = some .sweepScratch) && decide (a % 0x80000 < 0x4C000)
  let marked := (s.mem.synd.map fun w => 8 * w.1).filter there
  marked.foldl (fun s a => freshWords a 8 s) { s with mem := { s.mem with rewrites := [] } }

/-- The test slice of a tile shows in its STATE (R254). -/
def showTest (old new : Option Nat) (s : State) : State :=
  let put := fun (v : Nat) (s : State) (u : Nat) => setFld (F.SWP_TILE_STAT_STATE (u / 8) (u % 8)) v s
  new.toList.foldl (put 2) ((old.toList.filter fun u => fld s (F.SWP_TILE_STAT_STATE (u / 8) (u % 8)) = 2).foldl (put 0) s)

/-- The sweep at an edge: a new frame's tiles are empty; too many quarantined tiles make the frame doubt, with a
record when that begins (R247, R393). -/
def sweepEdge (s : State) : State :=
  let keep := fun (x : Nat × TileSt) =>
    (x.1, { TileSt.idle with winResolved := x.2.winResolved, winContact := x.2.winContact })
  let s1 := repairScratch { s with
    swp := { s.swp with
      doms := [], tiles := (s.swp.tiles.map keep).filter (fun x => x.2 ≠ TileSt.idle), single := false, closed := false, refused := 0 } }
  let tt := testTileOf s1
  let s2 := showTest s.frame.testTile tt { s1 with frame := { s1.frame with testTile := tt } }
  let s3 := (List.range 8).foldl (fun s c =>
    let here : Bool := tt.any fun u => decide (u / 8 = c)
    showSteward c (setFlag (F.SWP_STW_STAT_TEST_ACTIVE c) here
      (setFld (F.SWP_STW_STAT_TEST_TILE c) (if here then frameN s % 8 else 0) s))) s2
  let n := quarantinedCount s3
  if n > quarMax s3 then
    if s3.safe.quarDoubt then markDoubt 4 s3
    else doubtEvent 4 { unit := 0x81, cls := 0x05, ev := 4, sev := .doubt, detail := n % 256 }
      { s3 with safe := { s3.safe with quarDoubt := true } }
  else { s3 with safe := { s3.safe with quarDoubt := false } }

end Sys2Proof.Machine
end

