-- ==== Sys2Proof/Machine/Select.lean ====
section
/-! DEFINITION. Machine/Select.lean: Select (chapter 08): lanes and the resolution map (R264 to R267), pieces and
insertion (R268 to R271), the merge, the handover and the answers (R272 to R276), its test and faults (R280, R281), and
the propose, sweep and select hard stops (R49, R53). -/

namespace Sys2Proof.Machine

/-! ## Keys, tags and the map -/

/-- CONTACT of a key (R255). -/
def keyContact (key : Nat) : Bool := key.testBit 31

/-- INDEX of a key (R255). -/
def keyIndex (key : Nat) : Nat := key % 2 ^ 18

/-- CAUSE of a contact key (R257). -/
def keyCause (key : Nat) : Nat := bitsOf key 30 27

/-- FRAME of a tile tag (R228). -/
def tagFrame (tag : Nat) : Nat := tag / 2 ^ 10 % 64

/-- DOMAIN of a tile tag (R228). -/
def tagDomain (tag : Nat) : Nat := tag / 2 ^ 6 % 16

/-- TILE of a tile tag (R228). -/
def tagTile (tag : Nat) : Nat := tag % 64

/-- The key of the resolution map for a candidate of a domain (R266). -/
def mapKey (d i : Nat) : Nat := 2 ^ 18 * d + i

/-- The map's byte for a candidate (R266). -/
def mapByte (s : State) (d i : Nat) : Nat := tabGet 0 s.sel.map (mapKey d i)

/-- A candidate is resolved (R50, R266). -/
def isResolved (s : State) (d i : Nat) : Bool := (mapByte s d i).testBit 7

/-- The map's byte of a resolved candidate (R266). -/
def resolvedByte (key tile : Nat) : Nat := 128 + (if keyContact key then 0 else 64) + tile

/-- Clears bit 7 of a candidate's map byte. -/
def clearResolved (d i : Nat) (s : State) : State :=
  if isResolved s d i then
    { s with sel := { s.sel with map := tabPut 0 s.sel.map (mapKey d i) (mapByte s d i - 128) } }
  else s

/-- A candidate's key leaves every list and the keys passed through. -/
def dropKey (d i : Nat) (s : State) : State :=
  let keep := fun (e : Nat × Nat) => decide ¬ (keyIndex e.1 = i ∧ tagDomain e.2 = d)
  let thin := fun (l : SelList) => { l with pieces := l.pieces.map fun p => (p.1, p.2.filter keep) }
  { s with sel := { s.sel with
      lists := s.sel.lists.map thin
      passed := s.sel.passed.filter fun p => p.1 ≠ mapKey d i } }

/-! ## Lanes (R264, R265) -/

/-- A record that a lane accepts counts for its tile (R248, R254): free and contact keys of the frame, and the window of
the peer check, which leaves out infeasible candidates. -/
def countAccepted (s : State) (e : KeyRec) : State :=
  let u := tagTile e.tag
  let t := tileSt s u
  let c := keyContact e.key
  let inf : Bool := c && decide (keyCause e.key ≥ 6)
  countDie 0x80 1 (countTile u (if c then 0x0A else 0x09) 1 (setTile u { t with
    freeKeys := t.freeKeys + if c then 0 else 1
    contactKeys := t.contactKeys + if c then 1 else 0
    winResolved := t.winResolved + if inf then 0 else 1
    winContact := t.winContact + if c && !inf then 1 else 0 } s))

/-- Everything that the sweep of domain 0 had to do is done. -/
def sweepIdle (s : State) : Bool :=
  let x := domSweep s 0
  x.written && decide (x.nextBlock * blockSize s ≥ x.cands.length) &&
  s.swp.tiles.all fun t =>
    t.2.todo.isEmpty && t.2.flight.isEmpty && t.2.out.isEmpty && t.2.offered.isEmpty || decide (unitDomain s t.1 ≠ 0)

/-- SELECT_LANE_ACCEPT (R264, R273): the lane accepts the first packet that a tile of its clusters offers, if its FIFO has
room and its input is open; the tile's buffer has room again. -/
def execSelectLaneAccept (lane : Fin 4) (s : State) : Host.Outcome State Fault Refusal :=
  .next (fabric s fun s =>
    let fifo := s.sel.fifos.getD lane.val []
    match s.swp.tiles.find? fun t => laneOf t.1 = lane.val ∧ t.2.offered ≠ [] with
    | none => s
    | some (u, _) =>
      match (tileSt s u).offered with
      | [] => s
      | p :: rest =>
        if s.swp.closed || decide (fifo.length + p.length > 4096) then s
        else
          let recs := p.map fun e => (⟨e, s.time.count⟩ : LaneRec)
          let s1 := setTile u { tileSt s u with offered := rest } s
          let s2 := { s1 with sel := { s1.sel with
            fifos := modAt lane.val (· ++ recs) s1.sel.fifos
            accepted := modAt lane.val (· + p.length) s1.sel.accepted } }
          let s3 := pumpTile u (p.foldl countAccepted s2)
          if sweepIdle s3 then phaseDone 1 s3 else s3)

/-- A record that Select discards with a report (R265, R281): the warning, whose CODE the spec does not state, and the
capture. kind 3 is a Sepia record, which BAD does not count. -/
def badRecord (kind lane : Nat) (e : KeyRec) (s : State) : State :=
  let s1 := report (uncoded .selectRecord 0x80 .warning) s
  let s2 := capture F.SEL_FAULT_CAP_VALID
    [(F.SEL_FAULT_CAP_KIND, kind), (F.SEL_FAULT_CAP_LANE, lane), (F.SEL_FAULT_CAP_TILE, tagTile e.tag),
     (F.SEL_FAULT_CAP_CAND, keyIndex e.key)] s1
  if kind < 3 then bump F.SEL_DROP_CNT_1_BAD s2 else s2

/-! ## Insertion (R268, R269) -/

/-- A key inserted in ascending order. -/
def insertKey (e : Nat × Nat) : List (Nat × Nat) → List (Nat × Nat)
  | [] => [e]
  | x :: xs => if e.1 < x.1 then e :: x :: xs else x :: insertKey e xs

/-- A routed key enters its piece: that of its tile for k up to 256, else that of its lane; the entry beyond k drops. -/
def addToList (lane : Nat) (e : KeyRec) (l : SelList) : SelList :=
  let n := if l.k ≤ 256 then tagTile e.tag else lane
  { l with pieces := tabPut [] l.pieces n ((insertKey (e.key, e.tag) (tabGet [] l.pieces n)).take l.k) }

/-- The key stands in the list after it was routed there (R269, R580). -/
def inserted (lane : Nat) (e : KeyRec) (l : SelList) : Bool :=
  (addToList lane e l).pieces.any fun p => p.2.any fun x => decide (x = (e.key, e.tag))

/-- R261, R263: where a key goes: supplied candidates pass through; a free key of another source enters the lists of its
client. -/
def routeKey (lane : Nat) (e : KeyRec) (c : Cand) (s : State) : State :=
  let d := tagDomain e.tag
  if c.kind = 2 then
    { s with sel := { s.sel with passed := tabPut 0 s.sel.passed (mapKey d (keyIndex e.key)) (e.key + 1) } }
  else if keyContact e.key then s
  else
    let mine := fun (l : SelList) => decide (l.client = c.client) && (decide (d = 0) || !l.motion)
    let n := (s.sel.lists.filter fun l => mine l && inserted lane e l).length
    countDie 0x81 n { s with sel := { s.sel with lists := s.sel.lists.map fun l => if mine l then addToList lane e l else l } }

/-- R281: a word of the client map or of the resolution map is bad: every candidate of the word, n of them from place first on, is
unresolved in this frame. -/
def spoilWord (first n : Nat) (s : State) : State :=
  let hit := ((List.range n).filterMap fun k => candOfPlace s (first + k))
  let s1 := hit.foldl (fun s c => dropKey c.1 c.2 (clearResolved c.1 c.2 s)) s
  report (uncoded .selectWord 0x80 .warning)
    { s1 with sel := { s1.sel with spoiled := s1.sel.spoiled ++ hit.map fun c => mapKey c.1 c.2 } }

/-- A read of the word of a map that holds a candidate: whether the candidate may go on, with the state after it. -/
def readMapWord (a first n d i : Nat) (s : State) : Bool × State :=
  let r := probeWord 1 a s
  let s1 := if r.1 then r.2 else spoilWord first n r.2
  (!s1.sel.spoiled.contains (mapKey d i), s1)

/-- The conditions of R265 from the quarantine on, for a record whose candidate the client map holds. -/
def handleMapped (lane : Nat) (e : KeyRec) (d i : Nat) (c : Cand) (s : State) : State :=
  if s.frame.quarantined.contains (tagTile e.tag) then { s with sel := { s.sel with quar := s.sel.quar + 1 } }
  else if (!keyContact e.key && decide (e.key / 2 ^ 32 = 0xFFFFFFFF)) || (keyContact e.key && decide (keyCause e.key ≥ 10)) then
    badRecord 1 lane e s
  else
    let n := domFirst s d + i
    let r := readMapWord (resolutionAddr n) (n / 8 * 8) 8 d i s
    if !r.1 then r.2
    else if isResolved r.2 d i then badRecord 2 lane e (dropKey d i (clearResolved d i r.2))
    else
      routeKey lane e c { r.2 with sel := { r.2.sel with
        map := tabPut 0 r.2.sel.map (mapKey d i) (resolvedByte e.key (tagTile e.tag)) } }

/-- One record as it leaves the FIFO (R265, R281): the first condition that holds decides. -/
def handleRecord (lane : Nat) (r : LaneRec) (s : State) : State :=
  let e := r.entry
  let d := tagDomain e.tag
  let i := keyIndex e.key
  if r.accepted ≥ s.frame.edgeTick + hardStop s 1 ∧ ¬ s.replay.active then
    countDie 0x82 1 { s with sel := { s.sel with late := s.sel.late + 1 } }
  else if e.sepia then badRecord 3 lane e s
  else if tagFrame e.tag ≠ frameN s % 64 then { s with sel := { s.sel with stale := s.sel.stale + 1 } }
  else
    match (domSweep s d).cands[i]? with
    | none => badRecord 0 lane e s
    | some c =>
      let n := domFirst s d + i
      let r := readMapWord (clientMapAddr n) (n / 4 * 4) 4 d i s
      if !r.1 then r.2
      else if cliDomain r.2 c.client ≠ d then badRecord 0 lane e r.2
      else handleMapped lane e d i c r.2

/-- SELECT_RECORD (R265, R269): the record at the head of a lane's FIFO leaves it and is checked and routed. -/
def execSelectRecord (lane : Fin 4) (s : State) : Host.Outcome State Fault Refusal :=
  .next (fabric s fun s =>
    match s.sel.fifos.getD lane.val [] with
    | [] => s
    | r :: rest =>
      handleRecord lane.val r { s with sel := { s.sel with fifos := modAt lane.val (fun _ => rest) s.sel.fifos } })

/-- QUARANTINE_NOTICE (R267, R271): the entries of a tile quarantined in this frame leave every list, its candidates are
no longer resolved, and lists of more than 256 entries that lost one are short. -/
def execQuarantineNotice (tile : TileId) (s : State) : Host.Outcome State Fault Refusal :=
  let u := tileUnit tile
  .next (fabric s fun s =>
    if !s.frame.quarantined.contains u then s
    else
      let own := fun (e : Nat × Nat) => decide (tagTile e.2 = u)
      let thin := fun (l : SelList) =>
        { l with
          short := l.short || (decide (l.k > 256) && l.pieces.any fun p => p.2.any own)
          pieces := (l.pieces.map fun p => (p.1, p.2.filter fun e => !own e)).filter fun p => p.2 ≠ [] }
      let hit := fun (m : Nat × Nat) => m.2.testBit 7 && decide (m.2 % 64 = u)
      let n := (s.sel.map.filter hit).length
      { s with sel := { s.sel with
          lists := s.sel.lists.map thin
          passed := s.sel.passed.filter fun p => !s.sel.map.any fun m => decide (m.1 = p.1) && hit m
          map := s.sel.map.map fun m => if hit m then (m.1, m.2 - 128) else m
          quar := s.sel.quar + n } })

/-! ## The test (R280, R281) -/

/-- R280: the slice belongs to the propose phase of every 16th frame. -/
def selectTestDue (s : State) : Bool := frameN s % 16 = 0 && s.frame.started && !s.frame.stopped.getD 0 true

/-- SELECT_TEST_DONE (R280, R281, R393): a mismatch or an overtime makes Select faulty: the doubt of bit 9 in every frame from the
next edge, the record, and a restart. -/
def execSelectTestDone (o : TestOutcome) (s : State) : Host.Outcome State Fault Refusal :=
  .next (fabric s fun s =>
    if o = .pass ∨ selectTestDue s = false then s
    else
      let s1 := report { unit := 0x80, cls := 0x07, ev := 2, sev := .fault, doubt := true }
        (setFlag F.SEL_STAT_TEST_FAIL true { s with sel := { s.sel with faulty := true } })
      triggerRestart .select false s1)

/-! ## The merge (R272 to R276) -/

/-- Every record accepted before the hard stop is handled (R273). -/
def drainFifos (s : State) : State :=
  let s0 := { s with sel := { s.sel with fifos := [[], [], [], []] } }
  s.sel.fifos.zipIdx.foldl (fun s f => f.1.foldl (fun s r => handleRecord f.2 r s) s) s0

/-- R281: an entry of a list whose word is bad is removed, its candidate's map bit cleared, and a list of more than 256 entries
flagged SHORT. n is the place of the list's first entry. -/
def checkList (n : Nat) (l : SelList) (s : State) : SelList × State :=
  let all := l.pieces.flatMap (·.2)
  let bad := (all.zipIdx.filter fun e => isSepia s (entryAddr (n + e.2)) || isSepia s (entryAddr (n + e.2) + 8))
  let gone := bad.map (·.1)
  let s1 := bad.foldl (fun s e =>
    let s1 := (probeWord 1 (entryAddr (n + e.2) + 8) (probeWord 1 (entryAddr (n + e.2)) s).2).2
    report (uncoded .selectEntry 0x80 .warning) (clearResolved (tagDomain e.1.2) (keyIndex e.1.1) s1)) s
  if bad = [] then (l, s)
  else ({ l with short := l.short || decide (l.k > 256), pieces := l.pieces.map fun p => (p.1, p.2.filter fun e => !gone.contains e) }, s1)

/-- The entries of all lists, as the merge reads them. -/
def checkLists (s : State) : State :=
  if s.mem.synd = [] then s
  else
    let r := s.sel.lists.foldl (fun (st : List SelList × Nat × State) l =>
      let x := checkList st.2.1 l st.2.2
      (st.1 ++ [x.1], st.2.1 + (l.pieces.flatMap (·.2)).length, x.2)) ([], 0, s)
    { r.2.2 with sel := { r.2.2.sel with lists := r.1 } }

/-- The lists in merge order (R274). -/
def mergeOrder (s : State) : List SelList :=
  (s.sel.lists.filter (·.motion)) ++ (s.sel.lists.filter fun l => !l.motion).mergeSort fun a b => a.client ≤ b.client

/-- The merge of pieces (R52, R273): the first k keys of all of them, in key order. -/
def mergePieces (l : SelList) : List (Nat × Nat) :=
  (l.pieces.foldl (fun r p => p.2.foldl (fun r e => insertKey e r) r) []).take l.k

/-- The in-service lanes, lowest number first (R283). -/
def lanesInService (s : State) : List Nat := (List.range 4).filter fun n => !outOfService s (72 + n)

/-- CL of a key in 1/256 m (R304). -/
def keyClearance (key : Nat) : Int := 4 * Int.ofNat (0x1FFF - bitsOf key 30 18)

/-- An entry's candidate as the Solver hands it on unrefined, without F (R284, R306 to R308). -/
def entryTraj (s : State) (lane : Option Nat) (e : SelEntry) : Traj :=
  { record := .candidate (keyIndex e.key) e.cand, lane := lane, tile := some (tagTile e.tag), cost := e.key / 2 ^ 32
    clearance := keyClearance e.key, winner := keyIndex e.key, keepOut := ctxKeepOut s e.cand.client }

/-- SLV_RESULT shows what the Solver handed on (R317). -/
def showResult (lane kind iter index : Nat) (s : State) : State :=
  setFld F.SLV_RESULT_LANE lane (setFld F.SLV_RESULT_KIND kind
    (setFld F.SLV_RESULT_ITER iter (setFld F.SLV_RESULT_INDEX index s)))

/-- The Solver hands its one trajectory to Madder (R285), and the device offers it to its twin (R449). -/
def handToMadder (t : Traj) (s : State) : State :=
  sendOffer (some t) { s with slv := { s.slv with handed := true }, mad := { s.mad with subject := some t } }

/-- R283, R284: the in-service lanes take the entries in key order; with EN 0 or no lane in service entry 0 passes on. -/
def takeEntries (s : State) : State :=
  match s.sel.top with
  | [] => s
  | e :: _ =>
    let ls := lanesInService s
    if !flag s F.SLV_CFG_EN || ls.isEmpty then
      phaseDone 3 (showResult 0 1 0 (keyIndex e.key) (handToMadder (entryTraj s none e) s))
    else
      let give := fun (ls' : List LaneSt) (x : Nat × SelEntry) => modAt x.1 (fun _ => { LaneSt.idle with entry := some x.2 }) ls'
      { s with slv := { s.slv with lanes := (ls.zip s.sel.top).foldl give s.slv.lanes } }

/-- R275: the motion list goes to the Solver, at most four entries in key order, with their records; SEL_TOP shows it. -/
def handOver (l : SelList) (at' : Option Nat) (s : State) : State :=
  let es := (mergePieces l).filterMap fun e =>
    ((domSweep s 0).cands[keyIndex e.1]?).map fun c => (⟨e.1, e.2, c⟩ : SelEntry)
  let top := es.take 4
  let show1 := fun (s : State) (n : Nat) =>
    let key := ((top[n]?).map (·.key)).getD 0xFFFFFFFFFFFFFFFF
    setFld (F.SEL_TOP_LO_KEY n) (key % 2 ^ 32) (setFld (F.SEL_TOP_HI_KEY n) (key / 2 ^ 32) s)
  takeEntries (setFld F.SEL_HANDOVER_TICKS (at'.getD 0xFFFFFFFF)
    ((List.range 4).foldl show1 { s with sel := { s.sel with top := top } }))

/-- FLAGS of a client answer (R276, R348). -/
def listFlags (l : SelList) : Nat :=
  (if l.short then 1 else 0) + (if l.trunc then 2 else 0) + (if l.limited then 4 else 0)

/-- R276, R345: the answer of a plan-to-goal request: k keys, padded. -/
def answerGoal (l : SelList) (s : State) : State :=
  match s.cnd.reqs.find? fun r => r.kind = 1 ∧ r.client = l.client ∧ r.active with
  | none => s
  | some r =>
    let ks := (mergePieces l).map (·.1)
    let body := (ks ++ List.replicate (l.k - ks.length) 0xFFFFFFFFFFFFFFFF).map fun k => BitVec.ofNat 64 k
    queueAnswer r 0x00 (listFlags l) body (endReq r s)

/-- The outcome of a supplied record of a domain at an index (R344, R347); its key where it was resolved. -/
def suppliedKey (s : State) (d : Nat) (i : Option Nat) : Option Nat :=
  match i with
  | none => none
  | some i =>
    if isResolved s d i then
      match tabGet 0 s.sel.passed (mapKey d i) with
      | 0 => none
      | k + 1 => some k
    else none

/-- The outcome that a corridor watch compares (R347). -/
def outcomeOf : Option Nat → RecOutcome
  | none => .unresolved
  | some k => if keyContact k then .contact else .free

/-- The keys of a request's records, in request order. -/
def requestKeys (s : State) (r : PendReq) : List (Option Nat) :=
  (List.range r.recs.length).map fun i => suppliedKey s (cliDomain s r.client) (r.indices.getD i none)

/-- The body of an answer from keys (R344). -/
def keyBody (ks : List (Option Nat)) : List (BitVec 64) := ks.map fun k => BitVec.ofNat 64 (k.getD 0xFFFFFFFFFFFFFFFF)

/-- A path check whose records were proposed in this frame is answered (R344). -/
def answerCheck (s : State) (r : PendReq) : State :=
  let ks := requestKeys s r
  queueAnswer r (if ks.all (·.isSome) then 0x00 else 0x01) 0 (keyBody ks) (endReq r s)

/-- A corridor watch (R347): it answers where an outcome changed or the report interval has passed. The interval is bits
15:8 of ARG, in units of P; 0 gives none (R342). -/
def answerWatch (s : State) (r : PendReq) : State :=
  let interval := r.arg.toNat / 256 % 256 * (r.arg.toNat % 256)
  let ks := requestKeys s r
  let out := ks.map outcomeOf
  let due : Bool := decide (out ≠ r.lastOut) ||
    (decide (interval ≠ 0) && decide (frameDist r.lastAns s.frame.num ≥ interval))
  let r' := { r with active := false, indices := [], lastOut := out, lastAns := if due then s.frame.num else r.lastAns }
  let s1 := { s with cnd := { s.cnd with reqs := s.cnd.reqs.map fun x => if x = r then r' else x } }
  if due then queueAnswer r 0x02 0 (keyBody ks) s1 else s1

/-- The numbers of a domain (R54, R266). -/
def numbersOf (s : State) (d : Nat) : SelNumbers :=
  let n := (domSweep s d).cands.length
  let res := (List.range n).filter fun i => isResolved s d i
  let free := res.filter fun i => (mapByte s d i).testBit 6
  { dom := d, proposed := n, resolved := res.length, free := free.length
    truncPoint := ((List.range n).find? fun i => !isResolved s d i).getD n, maxResolved := res.max? }

/-- The end of the select phase: the answers of the frame's requests (R344, R347) and the numbers of the map (R266). -/
def finishSelect (s : State) : State :=
  let due := (List.range 16).flatMap fun d => dueRequests s d
  let s1 := (due.filter fun r => r.kind = 0).foldl answerCheck s
  let s2 := (due.filter fun r => r.kind = 2).foldl answerWatch s1
  { s2 with sel := { s2.sel with numbers := (List.range 16).map fun d => numbersOf s2 d } }

/-- The results of lists that are merged go out (R275, R276). -/
def deliverLists (at' : Option Nat) (ls : List SelList) (s : State) : State :=
  ls.foldl (fun s l => if l.motion then handOver l at' s else answerGoal l s) s

/-- MERGE_DONE (R273 to R276): after the sweep hard stop, every accepted record handled and every list merged before the
select hard stop. In replay no hard stop comes (R588): the merge follows a sweep that has done everything. -/
def execMergeDone (s : State) : Host.Outcome State Fault Refusal :=
  .next (fabric s fun s =>
    if !(s.swp.closed || (s.replay.active && sweepIdle s)) || s.sel.merged || s.frame.stopped.getD 2 false then s
    else
      let s1 := checkLists (drainFifos s)
      let s2 := deliverLists (some (s1.time.count - s1.frame.edgeTick)) (mergeOrder s1) s1
      finishSelect (phaseDone 2 { s2 with sel := { s2.sel with merged := true } }))

/-! ## Hard stops of propose, sweep and select (R44, R47, R49, R322) -/

/-- A phase's hard stop (R30, R44) takes effect once in a frame that has started, from its tick on; in replay mode no stop truncates
(R54). -/
def atStop (p : Nat) (f : State → State) (s : State) : State :=
  if !s.frame.started || s.frame.stopped.getD p true || s.replay.active || decide (s.time.count < s.frame.edgeTick + hardStop s p)
  then s
  else f { s with frame := { s.frame with stopped := modAt p (fun _ => true) s.frame.stopped } }

/-- Tiles whose task has ended show as idle. -/
def showFree (s : State) : State :=
  (List.range 72).foldl (fun s u =>
    let st := if u < 64 then fld s (F.SWP_TILE_STAT_STATE (u / 8) (u % 8)) else fld s (F.INF_TILE_STAT_STATE (u - 64))
    if st = 1 ∧ ¬ s.cnd.grants.any (fun g => g.unit = u) then showIdle u s else s) s

/-- Only candidates written before the propose hard stop enter the sweep (R49, R189), and only the skips by then count; those already
granted were written. DESIGN CHOICE (log 120): the skips up to the last record written. -/
def cutCands (n : Nat) (x : DomSweep) (s : State) : DomSweep :=
  let keep := max n (min x.cands.length (x.nextBlock * blockSize s))
  let skips := if keep ≥ x.cands.length then (x.skipQuota, x.skipOther) else (x.skipAt[keep - 1]?).getD (0, 0)
  { x with
    cands := x.cands.take keep, skipQuota := skips.1, skipOther := skips.2
    counts := [countKind (x.cands.take keep) 2, countKind (x.cands.take keep) 1, countKind (x.cands.take keep) 0] }

/-- The candidates of one domain cut at the propose hard stop. -/
def cutDomain (s : State) (w : Fin 16 × Nat) : State :=
  let x := domSweep s w.1.val
  if x.written then
    let y := cutCands w.2 x s
    let s1 := setDom y s
    if w.1 = 0 ∧ y.cands.length < x.cands.length then
      { s1 with frame := { s1.frame with done := modAt 0 (fun _ => none) s1.frame.done } }
    else s1
  else s

/-- PROPOSE_HARD_STOP (R49, R177, R178, R322): candidates not yet written are not proposed; written says how many a domain's
writer had written, where it had not finished. The inference test slice of the frame has ended by now. -/
def execProposeHardStop (infTest : TestOutcome) (written : List (Fin 16 × Nat)) (s : State) :
    Host.Outcome State Fault Refusal :=
  .next (fabric s (atStop 0 fun s => showFree (phaseStop 1 (infTestOutcome infTest (written.foldl cutDomain s)))))

/-- SWEEP_HARD_STOP (R49, R51, R231, R242, R273): the tiles stop; Select closes its lane inputs. -/
def execSweepHardStop (s : State) : Host.Outcome State Fault Refusal :=
  .next (fabric s (atStop 1 fun s => showFree (phaseStop 2 (stopTiles s))))

/-- The candidates of pieces that were not merged are not fully checked (R273, R276). -/
def dropPieces (ps : Tab (List (Nat × Nat))) (s : State) : State :=
  ps.foldl (fun s p => p.2.foldl (fun s e => clearResolved (tagDomain e.2) (keyIndex e.1) s) s) s

/-- The merge cut short after n pieces: the lists as they are delivered, the pieces left out. -/
def cutMerge : Nat → List SelList → List SelList × List (Nat × List (Nat × Nat))
  | _, [] => ([], [])
  | n, l :: ls =>
    let rest := cutMerge (n - l.pieces.length) ls
    if l.pieces.length ≤ n then (l :: rest.1, rest.2)
    else ({ l with trunc := true, pieces := l.pieces.take n } :: rest.1, l.pieces.drop n ++ rest.2)

/-- The select hard stop finds the merge unfinished (R49, R273): the lists merged so far are delivered, those cut short
flagged TRUNC. While FIFO records were still to be handled, no piece had been merged. -/
def stopMerge (merged : Nat) (s : State) : State :=
  let drained : Bool := s.sel.fifos.all (·.isEmpty)
  let s1 := checkLists { s with sel := { s.sel with fifos := [[], [], [], []] } }
  let r := cutMerge (if drained then merged else 0) (mergeOrder s1)
  let s2 := deliverLists none r.1 (dropPieces r.2 s1)
  setSat F.SEL_STAT_UNMERGED r.2.length (finishSelect { s2 with sel := { s2.sel with merged := true } })

/-- SELECT_HARD_STOP (R49, R53, R273): an unfinished merge is cut; with no resolved free candidate the frame's result is
HOLD with reason NO_FREE, reported as a warning. A frame without a free candidate, or already withheld, offers the twin no
trajectory (R449). -/
def execSelectHardStop (merged : Nat) (s : State) : Host.Outcome State Fault Refusal :=
  .next (fabric s (atStop 2 fun s =>
    let s1 := if s.sel.merged then setFld F.SEL_STAT_UNMERGED 0 s else stopMerge merged s
    let s2 := showFree (phaseStop 3 s1)
    if s2.sel.top = [] then
      sendOffer none (report (uncoded .noFree 0x80 .warning) { s2 with frame := { s2.frame with noFree := true } })
    else if doubted s2 then sendOffer none s2
    else s2))

/-! ## Select at an edge (R261, R266) -/

/-- The counts of the frame that ends show in the registers; a new frame starts with an empty map and, unless a restart has the
Conductor halted, new lists. -/
def selectEdge (s : State) : State :=
  let s1 := (List.range 4).foldl (fun s n => setSat (F.SEL_LANE_CNT_COUNT n) (s.sel.accepted.getD n 0) s) s
  let s2 := setSat F.SEL_DROP_CNT_0_LATE s.sel.late (setSat F.SEL_DROP_CNT_0_QUAR s.sel.quar
    (setSat F.SEL_DROP_CNT_1_STALE s.sel.stale s1))
  let s3 := { s2 with sel := { s2.sel with
    fifos := [[], [], [], []], accepted := [0, 0, 0, 0], map := [], spoiled := [], passed := [], lists := [], late := 0, quar := 0
    stale := 0, merged := false, numbers := [], top := [] } }
  let s4 := if s3.sel.faulty then markDoubt 9 s3 else s3
  if fabricUp s4 then openLists s4 else s4

end Sys2Proof.Machine
end

