-- ==== Sys2Proof/Machine/Solver.lean ====
section
/-! DEFINITION. Machine/Solver.lean: the Solver (chapter 09): merit (R289), feasibility and the swept corridor (R303 to
R306), the lane's iteration (R291 to R295), the warm start (R296, R297), the choice of the result (R307, R308), tests and
faults (R315, R316) and the refine hard stop (R309 to R311). -/

namespace Sys2Proof.Machine

/-! ## Merit (R289) -/

/-- The weights of R289, in 1/256: tracking, curvature change, speed change, joints. -/
structure Weights where
  trk : Nat
  dk : Nat
  dv : Nat
  jnt : Nat

/-- The weights in force. -/
def slvWeights (s : State) : Weights :=
  ⟨fld s F.SLV_WEIGHT_0_W_TRK, fld s F.SLV_WEIGHT_0_W_DK, fld s F.SLV_WEIGHT_1_W_DV, fld s F.SLV_WEIGHT_1_W_JNT⟩

/-- Curvatures and speeds of an expansion at its knots, with those of the edge before them, in 1/1024 of the record's units. -/
def knotValues (x : Expn) : List (Int × Int) := x.cfgs.map fun c => (c.kap, c.vel)

/-- The sum of squared joint angles at a state, in squares of 2^-32 turn. -/
def jointSquares (l : Layer) (c : Cfg) : Int :=
  ((l.bodies.drop 1).zipIdx.map fun b => (wrapA (c.th.getD b.1.parent 0 - c.th.getD (b.2 + 1) 0)) ^ 2).sum

/-- The terms of J for one knot, in 2^-16; each conversion rounds under R10. -/
def meritKnot (w : Weights) (l : Layer) (x y : Cfg) (dk dv : Int) : Int :=
  let p := x.pos.getD 0 (0, 0)
  let q := y.pos.getD 0 (0, 0)
  roundDiv (Int.ofNat w.trk * ((p.1 - q.1) ^ 2 + (p.2 - q.2) ^ 2)) (2 ^ 30)
  + roundDiv (Int.ofNat w.dk * dk ^ 2) (2 ^ 36)
  + roundDiv (Int.ofNat w.dv * dv ^ 2) (2 ^ 32)
  + roundDiv (Int.ofNat w.jnt * jointSquares l x * 4 * pi96 ^ 2) (2 ^ 248)

/-- J of an expansion against its source's (R289), saturating at 64 bits. -/
def meritOf (w : Weights) (l : Layer) (x src : Expn) : Nat :=
  let ks := knotValues x
  let at' := fun (y : Expn) (k : Nat) => y.cfgs.getD (k + 1) ⟨[], [], 0, 0, 0⟩
  let one := fun (k : Nat) =>
    let a := ks.getD k (0, 0)
    let b := ks.getD (k + 1) (0, 0)
    meritKnot w l (at' x k) (at' src k) (b.1 - a.1) (b.2 - a.2)
  min ((List.range 64).map one).sum.toNat (2 ^ 64 - 1)

/-- JQ of a record (R287). -/
def jqOf (j : Nat) : Nat := min (j / 2 ^ 16) 0xFFFFFFFF

/-! ## Feasibility (R294, R303 to R306) -/

/-- The deviation of two sphere centres in 1/4096 m, in 1/1024 m: each component rounded up (R304). -/
def deviation (a b : Int × Int × Int) : Int :=
  let c4 := fun (x : Int) => Int.ofNat (ceilDiv x.natAbs 4)
  octagonal (c4 (b.1 - a.1)) (c4 (b.2.1 - a.2.1)) + c4 (b.2.2 - a.2.2)

/-- The room that one sphere at one pose uses, dev + ι_ref − ι_sw; none where the obstacle corridor, the keep-out
corridor or the window fails. -/
def corridorAt (s : State) (x : CandCtx) (ref : Expn) (cl : Int) (k i : Nat) : Option Int :=
  let ter := frameTerrain s
  let sp := sphereAt x i
  let c' := centre ter (ref.cfgs.getD (k + 1) ⟨[], [], 0, 0, 0⟩) sp
  let used := deviation (queryPoint s x k i) c' + Int.ofNat (inflation ref sp k)
  let sw := Int.ofNat (inflation x.exp sp k)
  if outside s c' then none
  else if used + Int.ofNat (sp.margin + x.extra + 4) > sw + 4 * cl then none
  else if x.koSet.isSome ∧ used > sw then none
  else some (used - sw)

/-- The checks of R303 on a refined expansion; the largest room used where they all hold. -/
def corridor (s : State) (x : CandCtx) (ref : Expn) (cl : Int) : Option Int :=
  if ref.infeas.isSome then none
  else
    let qs := (List.range 64).flatMap fun k => ((List.range x.layer.spheres.length).filter fun i =>
      selectedAt ref (sphereAt x i) k).map fun i => (k, i)
    qs.foldl (fun (a : Option Int) q =>
      match a, corridorAt s x ref cl q.1 q.2 with
      | some w, some u => some (max w u)
      | _, _ => none) (some 0)

/-- The expansion of a refined record in the running frame (R286, R288). -/
def refExpand (s : State) (x : CandCtx) (r : RefinedRec) : Expn := expandRefined x.layer (frameTerrain s) (edgePose s) r

/-- MIN_CLEARANCE of a record (R306). -/
def recClearance (s : State) (x : CandCtx) (cl : Int) (r : RefinedRec) : Int :=
  cl - ceilDivI ((corridor s x (refExpand s x r) cl).getD 0) 4

/-- A refined record is feasible, and its merit (R289, R294). -/
def judgeRecord (s : State) (x : CandCtx) (cl : Int) (r : RefinedRec) : Option Nat :=
  let ref := refExpand s x r
  (corridor s x ref cl).map fun _ => meritOf (slvWeights s) x.layer ref x.exp

/-! ## Records (R287, R288, R296) -/

/-- A 16-bit value. -/
def sat16 (v : Int) : Int := clampI (-32768) 32767 v

/-- A knot value of the warm-start source shifted by the frame period of p ticks, in the record's units (R296). -/
def shiftKnot (p : Nat) (vs : List Int) (k : Nat) : Int :=
  let t := 1250000 * (k + 1) + p
  let j := t / 1250000 - 1
  if j ≥ 63 then sat16 (roundDiv (vs.getD 63 0) 1024)
  else
    let a := vs.getD j 0
    let b := vs.getD (j + 1) 0
    sat16 (roundDiv (a * 1250000 + (b - a) * Int.ofNat (t - 1250000 * (j + 1))) 1280000000)

/-- The warm-start record for a candidate (R296, R297). -/
def warmRecord (s : State) (i : Nat) (c : Cand) : Option RefinedRec :=
  match s.slv.warm with
  | none => none
  | some w =>
    if !flag s F.SLV_CFG_WARM_EN || decide (w.layer ≠ c.layer.val) || decide (w.hitch ≠ c.hitch.val) then none
    else
      let p := fld s F.CND_FRAME_PERIOD_PERIOD
      some { src := i, cand := c, iter := 0, warm := true, rk := (List.range 64).map (shiftKnot p w.rk)
             rv := (List.range 64).map (shiftKnot p w.rv), jq := 0 }

/-- The expansion of the best record of a lane. -/
def bestExpand (s : State) (x : CandCtx) (l : LaneSt) : Expn :=
  match l.best with
  | some r => refExpand s x r
  | none => x.exp

/-- Curvatures and speeds of the iterate at its knots, in Q16.16. -/
def iterateKnots (x : Expn) : List (Int × Int) := (knotValues x).tail.map fun u => (roundDiv u.1 64, roundDiv u.2 16)

/-- A trial: the controls of the iterate plus a/8 of the step, rounded to the record's units (R288). -/
def trialRecord (x : CandCtx) (l : LaneSt) (z : Expn) (i a : Nat) (du : List (Int × Int)) : RefinedRec :=
  let ks := (iterateKnots z).zipIdx.map fun (u, k) =>
    let d := du.getD k (0, 0)
    (sat16 (roundDiv (u.1 * 8 + d.1 * Int.ofNat a) 128), sat16 (roundDiv (u.2 * 8 + d.2 * Int.ofNat a) 512))
  { src := i, cand := x.cand, iter := l.iters + 1, warm := l.warm, rk := ks.map (·.1), rv := ks.map (·.2), jq := 0 }

/-! ## Lanes -/

/-- A lane of the Solver. -/
def laneSt (s : State) (n : Nat) : LaneSt := s.slv.lanes.getD n LaneSt.idle

/-- The state with a lane replaced. -/
def setLane (n : Nat) (l : LaneSt) (s : State) : State :=
  { s with slv := { s.slv with lanes := modAt n (fun _ => l) s.slv.lanes } }

/-- R310: a switch counts only in a tick before the refine hard stop; in replay none applies (R311). -/
def refineOpen (s : State) : Bool :=
  !s.slv.handed && (s.replay.active ||
    (!s.frame.stopped.getD 3 true && decide (s.time.count < s.frame.edgeTick + hardStop s 3)))

/-- A lane at work: in service, with its entry and the candidate's context. -/
def laneWork (s : State) (n : Nat) : Option (LaneSt × SelEntry × CandCtx) :=
  let l := laneSt s n
  match l.entry with
  | none => none
  | some e =>
    if !refineOpen s || outOfService s (72 + n) || l.ended || l.lost then none
    else (candCtx s 0 (keyIndex e.key)).map fun x => (l, e, x)

/-- SOLVER_SETUP_DONE (R289, R296, R297): the lane's best record is the candidate, or the warm-start record where it is
feasible with a lower merit. With MAX_ITER 0 the lane ends after setup (R295). -/
def execSolverSetupDone (lane : Fin 4) (s : State) : Host.Outcome State Fault Refusal :=
  .next (fabric s fun s =>
    match laneWork s lane.val with
    | none => s
    | some (l, e, x) =>
      if l.setup then s
      else
        let i := keyIndex e.key
        let jc := meritOf (slvWeights s) x.layer x.exp x.exp
        let out := if fld s F.SLV_CFG_MAX_ITER = 0 then some 2 else none
        let base := { l with setup := true, merit := jc, outcome := out, began := s.time.count }
        match warmRecord s i x.cand with
        | none => setLane lane.val base s
        | some w =>
          match judgeRecord s x (keyClearance e.key) w with
          | some j =>
            if j < jc then setLane lane.val { base with best := some { w with jq := jqOf j }, merit := j, warm := true } s
            else setLane lane.val base s
          | none => setLane lane.val base s)

/-- A range-guard event on a solver variable (R158, R300): its kind, whether above the range, and whether critical. -/
def solverGuard (lane : Nat) (s : State) (g : GuardEv) : State :=
  let v := 2 ^ 20 + g.1 % 2 ^ 13
  let s1 := if g.2.2 then
      bump F.SLV_RG_CNT_CRIT (markDoubt 2 (addRg true 0 1 s))
    else bump F.SLV_RG_CNT_NONCRIT (addRg false 0 1 s)
  if s1.inf.firstRg.contains v then s1
  else
    report { unit := 72 + lane, cls := 0x04, ev := if g.2.1 then 1 else 0, sev := if g.2.2 then .doubt else .warning
             detail := v, doubt := g.2.2 } { s1 with inf := { s1.inf with firstRg := v :: s1.inf.firstRg } }

/-- A trial's expansion met a range guard (R294, R300): counted, and recorded once a frame. -/
def trialGuard (lane : Nat) (x : Expn) (s : State) : State :=
  if x.guards = 0 then s
  else
    let v := 2 ^ 19 + 72 + lane
    let s1 := bumpBy F.SLV_RG_CNT_NONCRIT x.guards (addRg false 0 x.guards s)
    if s1.inf.firstRg.contains v then s1
    else expansionGuard (72 + lane) { s1 with inf := { s1.inf with firstRg := v :: s1.inf.firstRg } }

/-- The lane ends as stalled with its best record (R293, R295). -/
def stall (n : Nat) (l : LaneSt) (s : State) : State :=
  setLane n { l with outcome := some 3 } (bump F.SLV_EVENT_CNT_STALL s)

/-- What one trial leads to: the lane so far with the state, and the accepted record with its merit, if there is one. -/
abbrev Trials := State × LaneSt × Option (RefinedRec × Nat)

/-- A word that the expansion of a trial reads, the terrain under its bodies, and that reads as Sepia (R316). -/
def trialSepia (s : State) (x : Expn) : Option Nat :=
  if s.mem.synd = [] then none
  else (x.track.flatMap fun c => c.pos.map fun p => terrainAddr s (colOf p.1, colOf p.2)).find? fun a => isSepia s a

/-- One trial of the iteration (R291, R294, R316): the next only where none has been accepted. z is the iterate's expansion. -/
def oneTrial (n : Nat) (e : SelEntry) (x : CandCtx) (z : Expn) (du : List (Int × Int)) (st : Trials) (m : Nat) : Trials :=
  match st with
  | (s, l, some r) => (s, l, some r)
  | (s, l, none) =>
    let r := trialRecord x l z (keyIndex e.key) (8 / 2 ^ m) du
    let reject := { l with rejects := l.rejects + 1 }
    match trialSepia s (refExpand s x r) with
    | some a => (report (uncoded .trialSepia (72 + n) .warning) (probeWord 1 a s).2, reject, none)
    | none =>
      let s1 := trialGuard n (refExpand s x r) s
      match judgeRecord s x (keyClearance e.key) r with
      | some j => if j < l.merit then (s1, l, some (r, j)) else (s1, reject, none)
      | none => (s1, reject, none)

/-- The accepted trial is switched in atomically (R292), and the lane converges or goes on (R295). -/
def switchIn (n : Nat) (z : Expn) (l : LaneSt) (r : RefinedRec) (j : Nat) (s : State) : State :=
  let same : Bool := decide ((r.rk.zip r.rv).map (fun u => (16 * u.1, 64 * u.2)) = iterateKnots z)
  let small : Bool := decide ((l.merit - j) * 2 ^ 16 < l.merit * fld s F.SLV_CONV_TOL)
  let it := l.iters + 1
  let out := if same || small then some 1 else if it ≥ fld s F.SLV_CFG_MAX_ITER then some 2 else none
  setLane n { l with best := some { r with jq := jqOf j }, merit := j, iters := it, outcome := out, began := s.time.count } s

/-- The step that a lane's linearisation, factorisation and solution give at its iterate (R290 to R293). -/
def laneStep (s : State) (l : LaneSt) (x : CandCtx) : GaussOut :=
  gaussStep s.image.slvRanges s.image.wDyn s.slv.resident (fld s F.SLV_CFG_UPD_TH) (fld s F.SLV_CONV_PIVOT_MIN) x.layer l.store
    (bestExpand s x l) x.exp

/-- SOLVER_ITERATION_DONE (R290 to R294, R298 to R302, R314, R316): the lane linearises, factorises and solves at its iterate, and tries
the step at 1, 1/2, 1/4 and 1/8; the first trial that is feasible with a lower merit becomes the best record. badWord is an
uncorrectable error in a block, factor, g or step word of the lane store, badRecord one in the best record or the lane's copy of the
candidate record; the lane store lies outside the data map. -/
def execSolverIterationDone (lane : Fin 4) (badWord badRecord : Bool) (s : State) : Host.Outcome State Fault Refusal :=
  let n := lane.val
  .next (fabric s fun s =>
    match laneWork s n with
    | none => s
    | some (l, e, x) =>
      if !l.setup || l.outcome.isSome then s
      else if badRecord then
        setLane n { l with lost := true, outcome := some 6 } (report (uncoded .solverRecord (72 + n) .warning) s)
      else if badWord then stall n l (report (uncoded .solverWord (72 + n) .warning) s)
      else
        let g := laneStep s l x
        let z := bestExpand s x l
        let s1 := g.events.foldl (solverGuard n) s
        let s2 := if g.again then bump F.SLV_EVENT_CNT_PIVOT s1 else s1
        let l2 := { l with store := g.store }
        match g.du with
        | none => stall n l2 s2
        | some du =>
          match (List.range 4).foldl (oneTrial n e x z du) (s2, l2, none) with
          | (s3, l3, some (r, j)) => switchIn n z l3 r j s3
          | (s3, l3, none) => stall n l3 s3)

/-! ## The choice (R306 to R308) -/

/-- The result of a lane (R307, R309): none where it contributes none; F is none where setup is not complete. -/
def laneResult (s : State) (n : Nat) : Option (Option Nat × Traj × Nat) :=
  let l := laneSt s n
  match l.entry with
  | none => none
  | some e =>
    if l.lost || outOfService s (72 + n) then none
    else
      let t := entryTraj s (some n) e
      if !l.setup then some (none, t, 0)
      else
        let f := min 0xFFFFFFFE (t.cost + fld s F.SLV_CFG_W_SOL * jqOf l.merit / 256)
        match l.best, candCtx s 0 (keyIndex e.key) with
        | some r, some x =>
          some (some f, { t with record := .refined r, cost := f, clearance := recClearance s x t.clearance r }, l.iters)
        | _, _ => some (some f, { t with cost := f }, l.iters)

/-- The result with the lowest F, the lower lane on a tie, those without F last (R307). -/
def bestResult (s : State) : Option (Traj × Nat × Nat) :=
  let rs := (List.range 4).filterMap fun n => (laneResult s n).map fun r => (r.1, r.2.1, r.2.2, n)
  let pick := fun (b : Option (Option Nat × Traj × Nat × Nat)) (r : Option Nat × Traj × Nat × Nat) =>
    match b with
    | none => some r
    | some x =>
      match x.1, r.1 with
      | some fx, some fr => if fr < fx then some r else some x
      | none, some _ => some r
      | _, none => some x
  (rs.foldl pick none).map fun r => (r.2.1, r.2.2.1, r.2.2.2)

/-- SLV_LANE_STAT shows a lane's part in the frame (R317). -/
def showLane (s : State) (n : Nat) : State :=
  let l := laneSt s n
  let out := if outOfService s (72 + n) then 7 else if l.entry.isNone then 0 else l.outcome.getD 4
  setFld (F.SLV_LANE_STAT_OUTCOME n) out (setFlag (F.SLV_LANE_STAT_WARM n) l.warm
    (setFld (F.SLV_LANE_STAT_ITER n) l.iters (setSat (F.SLV_LANE_STAT_REJECT n) l.rejects
      (setFld (F.SLV_LANE_STAT_INDEX n) ((l.entry.map fun e => keyIndex e.key).getD 0) s))))

/-- The Solver hands on its result (R285, R307): the best lane's, or entry 0 unrefined where no lane has one. -/
def handOn (s : State) : State :=
  let s1 := (List.range 4).foldl showLane s
  match bestResult s1, s1.sel.top with
  | some (t, it, n), _ =>
    let kind := match t.record with
      | .refined _ => 0
      | .candidate _ _ => 1
    showResult n kind it t.winner (handToMadder t s1)
  | none, e :: _ => showResult 0 1 0 (keyIndex e.key) (handToMadder (entryTraj s1 none e) s1)
  | none, [] => showResult 0 0xF 0 0 s1

/-- LANE_END (R285, R295): a lane whose outcome is decided ends; when every lane that took an entry has ended, the Solver
hands its trajectory to Madder. -/
def execLaneEnd (lane : Fin 4) (s : State) : Host.Outcome State Fault Refusal :=
  .next (fabric s fun s =>
    let l := laneSt s lane.val
    if l.outcome.isNone || l.entry.isNone || !refineOpen s then s
    else
      let s1 := setLane lane.val { l with ended := true } s
      let open' := (List.range 4).any fun n =>
        (laneSt s1 n).entry.isSome && !(laneSt s1 n).ended && !outOfService s1 (72 + n)
      if open' then s1 else phaseDone 3 (handOn s1))

/-- REFINE_HARD_STOP (R309 to R311, R322): every lane halts with its last complete iteration; factorising lists the lanes
caught in a factorisation or a trial. -/
def execRefineHardStop (factorising : List (Fin 4)) (s : State) : Host.Outcome State Fault Refusal :=
  let halt := fun (s : State) (n : Nat) =>
    let l := laneSt s n
    if l.entry.isSome && l.outcome.isNone && !outOfService s (72 + n) then
      setLane n { l with outcome := some (if factorising.any fun k => k.val = n then 5 else 4) } s
    else s
  .next (fabric s (atStop 3 fun s =>
    let s1 := if s.slv.handed then s
      else
        let cut := (List.range 4).any fun n => (laneSt s n).entry.isSome && (laneSt s n).outcome.isNone
        let s2 := handOn ((List.range 4).foldl halt s)
        if cut then bump F.SLV_STAT_TRUNC s2 else s2
    showFree (phaseStop 4 s1)))

/-! ## Tests and release (R315, R316) -/

/-- R315: lane N mod 4 runs its slice in the sweep phase of frame N; a guard injection runs every 32 frames. -/
def solverTestDue (s : State) (n : Nat) (o : TestOutcome) : Bool :=
  s.frame.started && !s.frame.stopped.getD 1 true &&
    match o with
    | .guardFail _ => decide (frameN s % 32 = 0)
    | _ => decide (frameN s % 4 = n)

/-- SOLVER_TEST_DONE (R315, R316): a lane that fails its slice or its guard injection leaves service at the next edge. -/
def execSolverTestDone (lane : Fin 4) (o : TestOutcome) (s : State) : Host.Outcome State Fault Refusal :=
  let n := lane.val
  let bad := fun (ev : Nat) (s : State) =>
    report { unit := 72 + n, cls := 0x07, ev := ev, sev := .fault }
      (setFlag F.SLV_STAT_TEST_FAIL true (setMaskBit F.SLV_STAT_TESTED_OK n false
        { s with slv := { s.slv with pendingOut := n :: s.slv.pendingOut } }))
  .next (fabric s fun s =>
    if !solverTestDue s n o then s
    else match o with
      | .pass => setMaskBit F.SLV_STAT_TESTED_OK n true s
      | .guardFail _ => bad 5 s
      | _ => bad 3 s)

/-- SLV_RELEASE (R316): accepted from the Warden core only; each lane returns to service at the next edge. -/
def takeSlvRelease (r : Requester) (bits : BitVec 4) (s : State) : State :=
  live s fun s =>
    if r ≠ .warden then refuseAccess r F.SLV_RELEASE_RELEASE.addr s
    else ((List.range 4).filter fun n => bits.getLsbD n).foldl (fun s n => releaseUnit (72 + n) s) s

/-- The command SlvRelease, as above. -/
def execSlvRelease (r : Requester) (bits : BitVec 4) (s : State) : Host.Outcome State Fault Refusal :=
  .next (takeSlvRelease r bits s)

/-- The warm-start source that an emitted record leaves (R296): of a candidate, its profile sampled at the knots. -/
def warmOf (x : Expn) : Record → WarmSrc
  | .refined r => ⟨r.cand.layer.val, r.cand.hitch.val, r.rk.map (· * 1024), r.rv.map (· * 1024)⟩
  | .candidate _ c => ⟨c.layer.val, c.hitch.val, (knotValues x).tail.map (·.1), (knotValues x).tail.map (·.2)⟩

/-- The Solver at an edge: lanes whose test failed leave service and fall due for a pack (R316, R418); no lane has an
entry. -/
def solverEdge (s : State) : State :=
  let out := fun (s : State) (n : Nat) => kermesDue (kermesUnit (72 + n)) (takeOut true (72 + n) s)
  let s1 := s.slv.pendingOut.foldl out s
  { s1 with slv := { s1.slv with lanes := List.replicate 4 LaneSt.idle, handed := false, pendingOut := [] } }

end Sys2Proof.Machine
end

