-- ==== Sys2Proof/Machine/Madder.lean ====
section
/-! DEFINITION. Machine/Madder.lean: Madder: the point store (R394, R398), the regions of an epoch (R395), the check of a
trajectory (R396), disagreements (R399, R400) and the injected test (R401). Distances are exact, in 1/20,480 m. -/

namespace Sys2Proof.Machine

/-! ## The point store (R394, R398) -/

/-- A point is kept in the epoch in force (R394): inside the window, at or above its column's height plus BAND, outside
a crop zone's pass-through, and in a voxel whose log-odds is at least OCC_TH. -/
def keptPoint (s : State) (p : MadPoint) : Bool :=
  let g := fuseCfg s
  let d := s.wld.cur
  let f := s.held.originF
  let i := columnOf p.x
  let j := columnOf p.y
  let h := colHeight d s.held.prior f i j
  let crop : Bool := match cropPass s.held.prior f i j with
    | some c => decide (p.z < (h + min (Int.ofNat c) g.cropMax) * 32)
    | none => false
  pointIn d.win p.x p.y p.z && decide (p.z ≥ (h + g.band) * 32) && !crop &&
    decide (tabGet 0 d.odds (enc3 (voxOf p.x) (voxOf p.y) (voxOf p.z)) ≥ g.occTh)

/-- A coordinate as the store holds it (R394): an offset from the window's minimum corner, cell c, rounded to 1/256 m. -/
def storedCoord (c p : Int) : Int := 16384 * c + 80 * roundDiv (5 * p - 16384 * c) 80

/-- The points that Madder tests, as the store holds them. -/
def keptPoints (s : State) : List (Int × Int × Int) :=
  let w := s.wld.cur.win
  (s.mad.points.filter (keptPoint s)).map fun p =>
    (storedCoord w.1 p.x, storedCoord w.2.1 p.y, storedCoord w.2.2 p.z)

/-- The first n points that satisfy a test, the oldest of the store, taken out. -/
def dropKept (keep : MadPoint → Bool) : Nat → List MadPoint → List MadPoint
  | _, [] => []
  | 0, ps => ps
  | n + 1, p :: ps => if keep p then dropKept keep n ps else p :: dropKept keep (n + 1) ps

/-- The store at an edge (R394, R398): the points of the slices that entered the epoch join it; those older than HIST
epochs, and the oldest beyond 262,144 of those kept, drop out. DEDUCED (log 124): R394 judges the points of all HIST epochs by
epoch N, so a point that it does not keep in one epoch is judged again in the next. -/
def storeEdge (s : State) : State :=
  let new := s.mad.fused.map fun p => (⟨s.frame.num, p.px, p.py, p.pz⟩ : MadPoint)
  let recent := (s.mad.points ++ new).filter fun p => frameDist p.epoch s.frame.num < fld s F.WDN_MAD_CFG_HIST
  let excess := (recent.filter (keptPoint s)).length - 262144
  let s1 := { s with mad := { s.mad with points := dropKept (keptPoint s) excess recent, fused := [] } }
  if excess > 0 then bump F.WDN_MAD_STAT_DROP s1 else s1

/-! ## Distances -/

/-- A squared distance num / den that lies below a limit: its shortfall in 1/1024 m, rounded to nearest (R10) and
saturating at 16 bits (R399). -/
def shortOf (num den : Nat) (lim : Int) : Option Nat :=
  if lim ≤ 0 ∨ Int.ofNat num ≥ lim ^ 2 * Int.ofNat den then none
  else
    let n := num * den
    let r := isqrt n
    let l := lim * Int.ofNat den
    let d := 20 * den
    let q := if r * r = n then roundDiv (l - Int.ofNat r) d
      else floorDivI (l + Int.ofNat (10 * den) - Int.ofNat (r + 1)) d
    some (min q.toNat 0xFFFF)

/-- The squared distance from a point to a box. -/
def boxDist2 (c lo hi : Int × Int × Int) : Nat :=
  (gap1 lo.1 hi.1 c.1 ^ 2 + gap1 lo.2.1 hi.2.1 c.2.1 ^ 2 + gap1 lo.2.2 hi.2.2 c.2.2 ^ 2).toNat

/-- The shortfall against a vertical cylinder of radius r about the axis x, y (R395): exact where the nearest point lies
on its side, by the squared horizontal distance h2. -/
def cylinderShort (c : Int × Int × Int) (x y : Int) (r : Nat) (zlo zhi lim : Int) : Option Nat :=
  let h2 := ((c.1 - x) ^ 2 + (c.2.1 - y) ^ 2).toNat
  let dz := gap1 zlo zhi c.2.2
  if h2 ≤ r * r then shortOf (dz ^ 2).toNat 1 lim
  else
    let m := lim ^ 2 - dz ^ 2
    let a := Int.ofNat h2 - Int.ofNat (r * r) - m
    if lim ≤ 0 ∨ m ≤ 0 ∨ (a ≥ 0 ∧ a ^ 2 ≥ 4 * Int.ofNat (r * r) * m) then none
    else
      let k := 2 ^ 40
      let side := isqrt (h2 * k * k) - r * k
      shortOf (side * side + (dz ^ 2).toNat * k * k) (k * k) lim <|> some 0

/-- The shortfall against a permanent obstacle of the prior (R395). -/
def shapeShort (f : Int × Int × Int) (c : Int × Int × Int) (sh : PriorShape) (lim : Int) : Option Nat :=
  match sh with
  | .cylinder cx cy r zlo zhi =>
    cylinderShort c (5 * (cx - f.1)) (5 * (cy - f.2.1)) (5 * r) (5 * (zlo - f.2.2)) (5 * (zhi - f.2.2)) lim
  | .box cx cy hx hy yaw zlo zhi =>
    let co := cosA (Int.ofNat (yaw.toNat * 2 ^ 16))
    let si := sinA (Int.ofNat (yaw.toNat * 2 ^ 16))
    let dx := c.1 - 5 * (cx - f.1)
    let dy := c.2.1 - 5 * (cy - f.2.1)
    let ex := 5 * Int.ofNat hx * 2 ^ 30
    let ey := 5 * Int.ofNat hy * 2 ^ 30
    let gx := gap1 (-ex) ex (dx * co + dy * si)
    let gy := gap1 (-ey) ey (dy * co - dx * si)
    let gz := gap1 (5 * (zlo - f.2.2)) (5 * (zhi - f.2.2)) c.2.2 * 2 ^ 30
    shortOf (gx ^ 2 + gy ^ 2 + gz ^ 2).toNat (2 ^ 60) lim

/-- The shortfall against a keep-out polygon, by horizontal distance (R395, R396). -/
def polyShort (f : Int × Int × Int) (c : Int × Int × Int) (poly : List (Int × Int)) (lim : Int) : Option Nat :=
  let q := poly.map fun v => (5 * (v.1 - f.1), 5 * (v.2 - f.2.1))
  if inPoly q c.1 c.2.1 then shortOf 0 1 lim
  else
    let es := (q.zip (q.drop 1 ++ q.take 1)).filterMap fun e =>
      let d := pointSeg2 (c.1, c.2.1) e.1 e.2
      shortOf d.1.toNat d.2.toNat lim
    es.max?

/-! ## The check (R395, R396) -/

/-- A failure that Madder finds (R399): CAUSE, pose, sphere and shortfall. -/
structure MadFail where
  cause : Nat
  pose : Nat
  sphere : Nat
  short : Nat
deriving DecidableEq, Repr

/-- The candidate record of a trajectory's record. -/
def recCand : Record → Cand
  | .candidate _ c => c
  | .refined r => r.cand

/-- The source index of a trajectory's record. -/
def recSrc : Record → Nat
  | .candidate i _ => i
  | .refined r => r.src

/-- The expansion of a record from an edge state over a terrain (R199, R288). -/
def recExpand (l : Layer) (ter : Terrain) (e : Pose) : Record → Expn
  | .candidate _ c => expandCand l ter e c
  | .refined r => expandRefined l ter e r

/-- The column boxes near a sphere (R395): DROP columns, and columns not SEEN while UNSEEN_BLOCK is 1. -/
def columnFails (s : State) (c : Int × Int × Int) (lim : Int) : List Nat :=
  let d := s.wld.cur
  let g := fuseCfg s
  let p := s.held.prior
  let f := s.held.originF
  let span := fun (x : Int) =>
    let a := floorDivI (x - lim) 4096
    (List.range (floorDivI (x + lim) 4096 - a + 1).toNat).map fun n => a + Int.ofNat n
  (span c.1).flatMap fun i => (span c.2.1).flatMap fun j =>
    if !columnIn d.win i j then []
    else
      let box := fun (zlo zhi : Int) =>
        (shortOf (boxDist2 c (4096 * i, 4096 * j, zlo) (4096 * (i + 1), 4096 * (j + 1), zhi)) 1 lim).toList
      (if g.unseenBlock ∧ ¬ colSeen d p f i j then box (16384 * d.win.2.2) (16384 * (d.win.2.2 + 16)) else [])
      ++ (if isDrop d p f g i j then box (160 * colHeight d p f i j) (160 * neighbourHeight d p f i j) else [])

/-- The failures of one sphere at one pose (R396). -/
def sphereFails (s : State) (pts : List (Int × Int × Int)) (ko : KoSet) (l : Layer) (ter : Terrain) (x : Expn)
    (extra k i : Nat) : List MadFail :=
  match l.spheres[i]? with
  | none => []
  | some sp =>
    if !selectedAt x sp k then []
    else
      let q := centre ter (x.cfgs.getD (k + 1) ⟨[], [], 0, 0, 0⟩) sp
      if outside s q then [⟨5, k, i, 0⟩]
      else
        let c := (5 * q.1, 5 * q.2.1, 5 * q.2.2)
        let lim := 20 * (Int.ofNat (required x sp extra k) - 8)
        let f := s.held.originF
        let shapes := if s.held.prior.loaded then s.held.prior.shapes else []
        (pts.filterMap fun p => (shortOf (boxDist2 c p p) 1 lim).map fun n => (⟨0, k, i, n⟩ : MadFail))
        ++ ((columnFails s c lim).map fun n => ⟨1, k, i, n⟩)
        ++ (shapes.filterMap fun sh => (shapeShort f c sh lim).map fun n => (⟨2, k, i, n⟩ : MadFail))
        ++ (ko.filterMap fun p => (polyShort f c p lim).map fun n => (⟨3, k, i, n⟩ : MadFail))

/-- CAUSE of R399 for an infeasibility of the expansion. -/
def limitFail (c : Nat) : Nat := if c = 2 then 5 else if c = 4 then 6 else 4

/-- Everything that Madder finds against a record from an edge state (R396); it passes when there is nothing. -/
def madderFails (s : State) (r : Record) (ko : Option Nat) (e : Pose) : List MadFail :=
  match layerOf s (recCand r).layer.val with
  | none => [⟨4, 0, 0, 0⟩]
  | some l =>
    let ter := frameTerrain s
    let x := recExpand l ter e r
    match x.infeas with
    | some (c, k) => [⟨limitFail c, k, 0, 0⟩]
    | none =>
      let pts := keptPoints s
      let set := (ko.map fun n => s.held.keepOut.getD n []).getD []
      let extra := fld s (F.CND_LAYER_MARGIN_EXTRA (recCand r).layer.val)
      (List.range 64).flatMap fun k => (List.range l.spheres.length).flatMap fun i =>
        sphereFails s pts set l ter x extra k i

/-- The finding that the verdict reports: one of the failures; the spec gives no order among several, so which is free. A
hardware upset adds a finding of its own. -/
def pickFail (fs : List MadFail) (u : Option Upset) (s : State) : Option MadFail × State :=
  match u, fs with
  | some x, _ => (some ⟨x.cause.val, x.pose.val, x.sphere.val, x.shortfall.toNat⟩, s)
  | none, [] => (none, s)
  | none, f :: rest =>
    let n := nextFree s
    ((f :: rest)[Config.freeValue n.1 % (rest.length + 1)]?, n.2)

/-! ## Disagreements (R399, R400) -/

/-- The detail of R399. -/
def madderDetail (f : MadFail) (t : Traj) : Nat :=
  let refined := match t.record with
    | .refined _ => 1
    | .candidate _ _ => 0
  f.cause * 2 ^ 61 + f.pose * 2 ^ 55 + f.sphere * 2 ^ 50 + refined * 2 ^ 49 + t.tile.getD 0 * 2 ^ 43 +
    (if refined = 1 then t.lane.getD 0 else 0) * 2 ^ 41 + recSrc t.record % 2 ^ 18 * 2 ^ 23 + f.short

/-- The lane that a trajectory implicates (R399): its own, where it is refined. -/
def implicatedLane (t : Traj) : Option Nat :=
  match t.record with
  | .refined _ => t.lane
  | .candidate _ _ => none

/-- The disagreements within n frames of the running frame, inclusively (R400). -/
def recentDis (s : State) (n : Nat) : List Disagree := s.mad.dis.filter fun d => frameDist d.frame s.frame.num < n

/-- WDN_MAD_STAT shows the disagreements of the last 64 frames. -/
def showDis (s : State) : State := setSat F.WDN_MAD_STAT_DIS_64 (recentDis s 64).length s

/-- Row 2 of R400: a second disagreement within 16 frames that implicates the same tile or lane. -/
def secondDis (old : List Disagree) (d : Disagree) (detail : Nat) (s : State) : State :=
  let tile := d.tile.filter fun t => old.any fun o => o.tile = some t
  let lane := d.lane.filter fun n => old.any fun o => o.lane = some n
  let out := fun (u : Nat) (s : State) => showSched (kermesDue (kermesUnit u) (takeOut true u s))
  let s1 := match tile with
    | some t => out t s
    | none => s
  let s2 := match lane with
    | some n => out (72 + n) s1
    | none => s1
  if tile.isSome ∨ lane.isSome then
    report { unit := 0x91, cls := 0x08, ev := 1, sev := .fault, detail := detail, domain := 0 } s2
  else s2

/-- A rejection of the frame's own trajectory (R399, R400): every row that holds applies, from the top. -/
def disagree (f : MadFail) (t : Traj) (s : State) : State :=
  let detail := madderDetail f t
  let old := recentDis s 16
  let d : Disagree := ⟨s.frame.num, t.tile, implicatedLane t⟩
  let s1 := doubtEvent 0 { unit := 0x91, cls := 0x08, ev := 0, sev := .doubt, detail := detail, domain := 0 } s
  let s2 := capture F.WDN_MAD_STAT_CAP_VALID
    [(F.WDN_MAD_CAP_LO_DETAIL, detail % 2 ^ 32), (F.WDN_MAD_CAP_HI_DETAIL, detail / 2 ^ 32)]
    (bump F.WDN_MAD_STAT_DIS_TOTAL { s1 with mad := { s1.mad with dis := d :: recentDis s1 64 } })
  let s3 := secondDis old d detail (showDis s2)
  if (recentDis s3 64).length ≥ 4 then
    triggerRestart .madder false
      (report { unit := 0x91, cls := 0x08, ev := 2, sev := .fault, detail := detail, domain := 0 } s3)
  else s3

/-- The verdict on the device's own trajectory (R397): the telemetry's MADDER, and a disagreement where it rejects. -/
def judgeOwn (u : Option Upset) (s : State) : State :=
  match s.mad.subject with
  | none => s
  | some t =>
    let r := pickFail (madderFails s t.record t.keepOut (edgePose s)) u s
    let s1 := phaseDone 4 r.2
    match r.1 with
    | none => { s1 with frame := { s1.frame with madder := 0 }, mad := { s1.mad with verdictOwn := some true } }
    | some f =>
      disagree f t { s1 with frame := { s1.frame with madder := 1 }, mad := { s1.mad with
        verdictOwn := some false, detailOwn := madderDetail f t } }

/-! ## The injected trajectory (R401) -/

/-- R401: the injected trajectory belongs to the sweep phase of every 32nd frame, from the eighth on. -/
def injectionDue (s : State) : Bool := frameN s % 32 = 8 && s.frame.started && !s.frame.stopped.getD 1 true

/-- MADDER_INJECTION_DONE (R401): anything but a rejection with CAUSE 0 within 20 µs is fatal; from then on every frame is
doubt. -/
def execMadderInjectionDone (rejected : Bool) (cause : Fin 8) (inTime : Bool) (s : State) :
    Host.Outcome State Fault Refusal :=
  .next (live s fun s =>
    if (rejected && decide (cause = 0) && inTime) || !injectionDue s then s
    else
      let s1 := setFlag F.WDN_MAD_STAT_TEST_FAIL true { s with mad := { s.mad with failed := true } }
      fatal { unit := 0x91, cls := 0x07, ev := 4, sev := .fatal, doubt := true } s1)

/-- Madder at an edge: the store, no trajectory yet, and the doubt of a failed Madder (R390, R393, R401). -/
def madderEdge (s : State) : State :=
  let s1 := storeEdge { s with mad := { s.mad with subject := none, verdictOwn := none } }
  let s2 := showDis { s1 with mad := { s1.mad with dis := recentDis s1 64 } }
  if s2.mad.failed then markDoubt 9 s2 else s2

end Sys2Proof.Machine
end

