-- ==== Sys2Proof/Machine/Umber.lean ====
section
/-! DEFINITION. Machine/Umber.lean: Umber: the verified trajectory V, its arc length and the motion along it (R402 to
R407, R632), and the poses of a withheld frame. -/

namespace Sys2Proof.Machine

/-! ## V (R402, R632) -/

/-- V's expansion: the terrain decides nothing of the motion, so it stands flat. -/
def vExpand (s : State) (v : VTraj) : Option (Layer × Expn) :=
  (layerOf s (recCand v.record).layer.val).map fun l => (l, recExpand l (fun _ _ => some (0, 0)) v.edge v.record)

/-- The arc length at pose 63 (R632). -/
def arcEnd (x : Expn) : Int := x.arcs.getLastD 0

/-- The sub-step whose arc interval holds s: the first whose end lies beyond it, else the last. -/
def stepAt : List Int → Int → Nat → Nat
  | _ :: b :: rest, s, i => if s < b then i else if rest = [] then i else stepAt (b :: rest) s (i + 1)
  | _, _, i => i

/-- The base arc length n ticks after V's edge. -/
def arcAtTick (x : Expn) (n : Nat) : Int :=
  let i := n / 156250
  if i + 1 ≥ x.arcs.length then arcEnd x
  else
    let a := x.arcs.getD i 0
    let b := x.arcs.getD (i + 1) 0
    roundDiv (a * 156250 + (b - a) * Int.ofNat (n % 156250)) 156250

/-- A value interpolated between a and b at num / den, rounded to nearest with ties to even (R632). -/
def lerp (a b num : Int) (den : Nat) : Int := if den = 0 then a else roundDiv (a * Int.ofNat den + (b - a) * num) den

/-- V's configuration at an arc position (R632): the curvature is that at the start of the sub-step that holds it. -/
def cfgAtArc (x : Expn) (s : Int) : Cfg :=
  let i := stepAt x.arcs s 0
  let a := x.track.getD i ⟨[], [], 0, 0, 0⟩
  let b := x.track.getD (i + 1) a
  let n := s - x.arcs.getD i 0
  let d := (x.arcs.getD (i + 1) 0 - x.arcs.getD i 0).toNat
  { pos := (a.pos.zip b.pos).map fun p => (lerp p.1.1 p.2.1 n d, lerp p.1.2 p.2.2 n d)
    th := (a.th.zip b.th).map fun t => lerp t.1 (t.1 + wrapA (t.2 - t.1)) n d
    z := lerp a.z b.z n d
    kap := a.kap
    vel := lerp a.vel b.vel n d }

/-- V's signed speed at an arc position, in 2^-20 m/s. -/
def velAtArc (x : Expn) (s : Int) : Int := (cfgAtArc x s).vel

/-- The sign of a number. -/
def signI (a : Int) : Int := if a > 0 then 1 else if a < 0 then -1 else 0

/-- The stopping arc length of R403: where V's speed first reaches 0 or changes sign after s0, else the end of V. -/
def stopArc (x : Expn) (s0 : Int) : Int :=
  let d := signI (velAtArc x s0)
  if d = 0 then s0
  else
    let js := (List.range x.arcs.length).filter fun j =>
      decide (x.arcs.getD j 0 > s0 ∧ (x.track.getD j ⟨[], [], 0, 0, 0⟩).vel * d ≤ 0)
    match js with
    | [] => arcEnd x
    | j :: _ =>
      let a0 := max (x.arcs.getD (j - 1) 0) s0
      let a := velAtArc x a0 * d
      let b := (x.track.getD j ⟨[], [], 0, 0, 0⟩).vel * d
      if a ≤ 0 ∨ a - b ≤ 0 then a0 else a0 + roundDiv ((x.arcs.getD j 0 - a0) * a) (a - b).toNat

/-! ## Taking over (R403, R404, R407) -/

/-- a_U of R404 in 2^-20 m/s², as a fraction; the flag says that DECEL_MAX caps it. decel and decelMax are in 1/256 m/s²,
w0 in 2^-20 m/s, left in 2^-19 m. -/
def holdDecel (decel decelMax : Nat) (w0 left : Int) : Int × Nat × Bool :=
  let base := 4096 * Int.ofNat decel
  let cap := 4096 * Int.ofNat decelMax
  if w0 = 0 then (base, 1, false)
  else if left ≤ 0 then (cap, 1, true)
  else if w0 ^ 2 > cap * 4 * left then (cap, 1, true)
  else if w0 ^ 2 > base * 4 * left then (w0 ^ 2, (4 * left).toNat, false)
  else (base, 1, false)

/-- WDN_SAFE_STAT shows the hold and V (R431). -/
def showHold (s : State) : State :=
  let ms := if s.umb.holding then (s.time.count - s.umb.t0) / 25000 else 0
  setFlag F.WDN_SAFE_STAT_HOLD s.umb.holding (setFlag F.WDN_SAFE_STAT_NO_V s.umb.v.isNone
    (setSat F.WDN_SAFE_STAT_HOLD_MS ms s))

/-- A hold that begins without a way to stop inside V asserts SAFE_STOP_N (R404, R407), but not on a device that follows the
bundles it observes (R454). -/
def assertOwn (s : State) : State := if follower s then s else assertSafeStop s

/-- Umber takes over at the edge tick of the first withheld frame (R403, R404, R407). The spec gives the record no
severity: it is free. -/
def takeOver (s : State) : State :=
  if s.umb.holding then s
  else
    let t0 := s.frame.edgeTick
    let s1 := report { unit := 0x92, cls := 0x09, ev := 0, sev := openSev 2 }
      { s with umb := { s.umb with holding := true, t0 := t0, s0 := 0, w0 := 0, aNum := 0, aDen := 1 } }
    match s.umb.v with
    | none => assertOwn s1
    | some v =>
      match vExpand s v with
      | none => assertOwn s1
      | some (_, x) =>
        let s0 := arcAtTick x (t0 - v.edgeTick)
        let w0 := Int.ofNat (velAtArc x s0).natAbs
        let a := holdDecel (fld s F.WDN_UMB_CFG_DECEL) (fld s F.WDN_UMB_CFG_DECEL_MAX) w0 (arcEnd x - s0)
        let s2 := { s1 with umb := { s1.umb with s0 := s0, w0 := w0, aNum := a.1, aDen := a.2.1 } }
        if a.2.2 then assertOwn s2 else s2

/-- Umber releases control at the first frame that emits a result (R406); the record carries the hold time. -/
def releaseHold (s : State) : State :=
  if s.umb.holding then
    report { unit := 0x92, cls := 0x09, ev := 1, sev := openSev 3, detail := (s.time.count - s.umb.t0) % 2 ^ 32 }
      { s with umb := { s.umb with holding := false } }
  else s

/-! ## The motion (R403, R405, R632) -/

/-- w of R403, e half ticks after t0, before V's own speed bounds it: in 2^-20 m/s, rounded to nearest. -/
def rampAt (u : UmbSt) (e : Nat) : Int :=
  max 0 (roundDiv (u.w0 * Int.ofNat (50000000 * u.aDen) - u.aNum * Int.ofNat e) (50000000 * u.aDen))

/-- One step from tick offset e by d ticks (R632): s advances by w × d and stops at the stopping arc length. -/
def moveStep (u : UmbSt) (x : Expn) (stop : Int) (e d : Nat) (s : Int) : Int :=
  let w := min (Int.ofNat (velAtArc x s).natAbs) (rampAt u (2 * e + d))
  min stop (s + roundDiv (w * Int.ofNat d) 50000000)

/-- The motion from tick offset e to offset e1 in steps that end at whole multiples of 6.25 ms, or at e1; n bounds their
number. -/
def moveTo (u : UmbSt) (x : Expn) (stop : Int) (e1 : Nat) : Nat → Nat → Int → Int
  | 0, _, s => s
  | n + 1, e, s =>
    if e ≥ e1 then s
    else
      let g := min e1 ((e / 156250 + 1) * 156250)
      moveTo u x stop e1 n g (moveStep u x stop e (g - e) s)

/-- Umber's pose at tick offset e and arc position s (R632): speed 0 once the stopping arc length is reached. -/
def holdPose (u : UmbSt) (l : Layer) (x : Expn) (v : VTraj) (stop : Int) (e : Nat) (s : Int) : BPose :=
  let c := cfgAtArc x s
  let w := if s ≥ stop then 0 else min (Int.ofNat c.vel.natAbs) (rampAt u (2 * e))
  poseOf l v.edge.down { c with vel := signI (velAtArc x u.s0) * w }

/-- The 64 poses of a hold along V, for the frame whose edge lies at a tick (R405, R632). -/
def alongV (u : UmbSt) (l : Layer) (x : Expn) (v : VTraj) (edge : Tick) : List BPose :=
  let stop := min (stopArc x u.s0) (arcEnd x)
  let e0 := (edge - u.t0) / 156250 * 156250
  let s0 := moveTo u x stop e0 (e0 / 156250 + 1) 0 u.s0
  let go := fun (st : List BPose × Nat × Int) (k : Nat) =>
    let e := edge - u.t0 + 1250000 * (k + 1)
    let s := moveTo u x stop e 18 st.2.1 st.2.2
    (st.1 ++ [holdPose u l x v stop e s], e, s)
  ((List.range 64).foldl go ([], e0, s0)).1

/-- R407: with no V, the edge state at rest in every pose. -/
def restPoses (s : State) : List BPose :=
  let e := edgePose s
  match ownLayer s with
  | none => []
  | some l => List.replicate 64 (poseOf l e.down { edgeCfg l e with vel := 0 })

/-- Umber's poses for the running frame (R405, R407). -/
def umberPoses (s : State) : List BPose :=
  match s.umb.v with
  | none => restPoses s
  | some v =>
    match vExpand s v with
    | none => restPoses s
    | some (l, x) => alongV s.umb l x v s.frame.edgeTick

end Sys2Proof.Machine
end

