-- ==== Sys2Proof/Machine/Twin.lean ====
section
/-! DEFINITION. Machine/Twin.lean: the commands of the pair (R434 to R465): link and transport, formation and joining, time and
edges, offers, digests and pair swaps. What of them decides a bundle, and takeover, stand in Machine/Emit.lean. -/

namespace Sys2Proof.Machine

/-! ## The link (R434, R435) -/

/-- The lanes of the link show as trained, or none. -/
def showLanes (up : Bool) (s : State) : State :=
  let v := if up then 15 else 0
  setFld F.WOD_PAIR_STAT_TX_LANES v (setFld F.WOD_PAIR_STAT_RX_LANES v s)

/-- WOAD_LINK_DOWN (R435): a warning; sessions and counters stay. -/
def execWoadLinkDown (_cause : LinkLoss) (s : State) : Host.Outcome State Fault Refusal :=
  .next (live s fun s =>
    if !s.twin.linkUp then s
    else
      woadEvent 10 .warning 0 (bump F.WOD_LINK_CNT_DOWN (showLanes false
        (showPair { s with twin := { s.twin with linkUp := false, downFrames := 0 } }))))

/-- WOAD_LINK_UP (R435): training completes; a note. -/
def execWoadLinkUp (s : State) : Host.Outcome State Fault Refusal :=
  .next (live s fun s =>
    if s.twin.linkUp then s
    else woadEvent 11 .note 0 (showLanes true (showPair { s with twin := { s.twin with linkUp := true, downFrames := 0 } })))

/-- A formation that fails (R441, R442): DEGRADED_A or MONITOR, or CONFLICT for equal straps. A device that runs already keeps
its state when a join fails. -/
def formFail (n : Nat) (s : State) : State :=
  let s1 := setFld F.WOD_PAIR_STAT_FORM_FAIL n s
  if n = 1 then woadEvent 1 .fault 1 (assertFaultN (setPair .conflict s1))
  else
    woadEvent 1 .warning n
      (if s.twin.pair = .forming then setPair (if strapB s then .monitor else .degradedA) s1 else s1)

/-- A tag failure (R438): counted; 16 within a second on the time base degrade the pair. Before the first message of a session
is accepted it shows that the key agreement failed (R441). -/
def tagFailure (chan : Nat) (s : State) : State :=
  let recent := (s.time.count :: s.twin.authAt).filter fun t => s.time.count < t + 25000000
  let s1 := bump F.WOD_XPORT_CNT_AUTH { s with twin := { s.twin with authAt := recent } }
  if s.twin.pair = .forming ∧ s.twin.session ∧ ¬ s.twin.proven then
    formFail 7 { s1 with twin := { s1.twin with session := false } }
  else if recent.length ≥ 16 then
    degrade 7 (woadEvent 12 .fault chan { s1 with twin := { s1.twin with authAt := [] } })
  else s1

/-- A message is opened under the keys of its channel and the twin's direction (R437, R439); without keys no tag verifies. -/
def openWoad (b : List Byte) (s : State) : Option (List Byte) :=
  let k := woadKey s.twin.keys (fieldAt 0 1 b) (1 - ownDir s)
  if s.twin.session && decide (fieldAt 0 1 b ≤ 2) && decide (b.length = 28 + fieldAt 2 2 b) then
    Config.gcmOpen (k.take 32) (k.drop 32 ++ part 4 8 b) (b.take 12) (b.drop 12)
  else none

/-- The transport layer takes a message in its bytes (R437, R438): a failed tag or an old CTR discards it; a gap is accepted and
counted. HELLO comes in clear. -/
def transport (b : List Byte) (s : State) : State :=
  let chan := fieldAt 0 1 b
  let ctr := fieldAt 4 8 b
  let last := s.twin.rxCtr.getD chan 0
  if b = [] ∨ (fieldAt 1 1 b = 1 ∧ chan = 0 ∧ ctr = 0) then s
  else if (openWoad b s).isNone then tagFailure chan s
  else if ctr ≤ last then bump F.WOD_XPORT_CNT_REPLAY s
  else { s with twin := { s.twin with
      rxCtr := modAt chan (fun _ => ctr) s.twin.rxCtr, proven := true
      gaps := if ctr > last + 1 then s.twin.gaps + 1 else s.twin.gaps } }

/-- The CRC-32 of a link frame is right (R434). DESIGN CHOICE (log 125): it covers the sequence number and what follows. -/
def linkCrcOk (f : LinkFrame) : Bool := f.crc.toNat = crc32 (leBytes 2 f.seq.toNat ++ f.body)

/-- WOAD_LINK_FRAME (R434, R438): a frame with a wrong CRC or out of order is retried; one in order is delivered. -/
def execWoadLinkFrame (f : LinkFrame) (s : State) : Host.Outcome State Fault Refusal :=
  .next (live s fun s =>
    if !s.twin.linkUp then s
    else if !linkCrcOk f || f.seq ≠ s.twin.rxSeq then bump F.WOD_LINK_CNT_RETRY s
    else transport f.body { s with twin := { s.twin with rxSeq := s.twin.rxSeq + 1 } })

/-! ## Forming and joining (R439 to R443) -/

/-- Sends HELLO with a random nonce (R439). DESIGN CHOICE (log 126): one nonce serves a formation, however often HELLO is
repeated; fresh draws a new one. -/
def sendHello (fresh : Bool) (s : State) : State :=
  let n := nextFree s
  let drawn := BitVec.ofNat 256 (Config.freeValue n.1)
  let own := if fresh then drawn else s.twin.nonce.getD drawn
  sendWoad 0 (.hello (strapB s) own.toNat) { n.2 with twin := { n.2.twin with nonce := some own } }

/-- The key and salt of each channel and direction (R439, R474): HKDF over static ECDH, with nonce_A and nonce_B as salt. -/
def sessionKeys (m : HelloMsg) (s : State) : List (List Byte) :=
  let own := s.twin.nonce.getD 0
  let a := if strapB s then m.nonce else own
  let b := if strapB s then own else m.nonce
  (List.range 6).map fun i =>
    leBytes 36 (Config.hkdf (Config.ecdhDevice s.fuse.deviceId m.pub) (leBytes 32 a.toNat ++ leBytes 32 b.toNat)
      ([0x57, 0x4F, 0x41, 0x44] ++ leBytes 1 (i / 2) ++ leBytes 1 (i % 2)))

/-- A device strapped A or B in a position to form a pair. -/
def seeksTwin (s : State) : Bool :=
  running s && decide (s.twin.pair ≠ .solo) && decide (s.twin.pair ≠ .conflict) && !s.twin.stoodDown

/-- HELLO_TIMER (R441): every 10 ms until the twin's HELLO has come. -/
def execHelloTimer (s : State) : Host.Outcome State Fault Refusal :=
  .next (if seeksTwin s && s.twin.hello.isNone then sendHello false s else s)

/-- What this device's CONFIG says (R440). -/
def ownConfig (s : State) : ConfigMsg :=
  { image := s.image.digest, rom := Config.romVersion, fw := s.image.fwVersion, lc := s.fuse.lc, dbgLock := s.fuse.dbgLock
    prot := s.fuse.prot, twinRuns := decide (s.twin.pair ≠ .forming) }

/-- The device runs alone in a state that a starting twin may join (R443): in ACTING only where A joins. -/
def servesJoin (s : State) : Bool := decide (s.twin.pair = .degradedA) || (decide (s.twin.pair = .acting) && strapB s)

/-- R465: after a digest mismatch, tag failures or wiped keys the pair stays degraded until the next cold start. -/
def joinBarred (s : State) : Bool := s.twin.reasons.any fun r => r = 5 ∨ r = 7 ∨ r = 8

/-- HELLO (R439, R441, R443): position, then roster; then the session keys are derived and CONFIG goes out. A device that
runs already answers with its own HELLO. -/
def execHello (m : HelloMsg) (s : State) : Host.Outcome State Fault Refusal :=
  .next (
    if !seeksTwin s || paired s || joinBarred s then s
    else if m.posB = strapB s then formFail 1 s
    else if !s.image.pairRoster.contains (Config.sha3 m.pub) then formFail 2 s
    else if s.fuse.keyDestroyed then formFail 7 s
    else
      let running : Bool := decide (s.twin.pair ≠ .forming)
      let s1 := if running || s.twin.nonce.isNone then sendHello running s else s
      sendWoad 0 (.config (ownConfig s)) { s1 with twin := { s1.twin with
        hello := some m, session := true, proven := false, rxCtr := [0, 0, 0], txCtr := [0, 0, 0]
        keys := sessionKeys m s1 } })

/-- The pair is formed (R442): a note. -/
def formed (primary : Bool) (s : State) : State :=
  woadEvent 0 .note 0 (setFld F.WOD_PAIR_STAT_FORM_FAIL 0
    (setPair (if primary then .pairedA else .pairedB) { s with twin := { s.twin with
      primary := primary, adopted := primary, joining := false, twinOnOwn := none, twinOnTwin := none, rejects := []
      xlateRun := 0, reasons := [], mism := [], clearRun := 0, goodAt := s.time.count } }))

/-- The running device serves a join (R443): it names the edge and sends its journal. -/
def serveJoin (s : State) : State :=
  let e := pairEdge s 0
  sendWoad 0 (.journal s.twin.pairSwaps e)
    { s with twin := { s.twin with joining := true, primary := true }, swap := { s.swap with join := some (e, []) } }

/-- CONFIG (R441 to R443): image, firmware, fuses, in this order; the first check that fails decides. -/
def execConfig (m : ConfigMsg) (s : State) : Host.Outcome State Fault Refusal :=
  let c := ownConfig s
  .next (
    if !seeksTwin s || !s.twin.session || paired s then s
    else if m.image ≠ c.image then formFail 3 s
    else if m.rom ≠ c.rom ∨ m.fw ≠ c.fw then formFail 4 s
    else if m.lc ≠ c.lc ∨ m.dbgLock ≠ c.dbgLock ∨ m.prot ≠ c.prot then formFail 5 s
    else if servesJoin s then serveJoin s
    else if m.twinRuns then { s with twin := { s.twin with joining := true, primary := false } }
    else if s.twin.pair = .forming then formed (!strapB s) s
    else s)

/-- PAIR_WAIT_EXPIRY (R442): 800 ms after power-good no HELLO has come from the twin: DEGRADED_A, or MONITOR; with B_ALONE, B acts
alone once ten frame periods more have passed without a bundle from A. Where a HELLO has come but nothing has completed, the
key agreement has failed (R441). -/
def execPairWaitExpiry (s : State) : Host.Outcome State Fault Refusal :=
  .next (
    if !running s || s.twin.pair ≠ .forming || decide (s.time.count < s.och.startedAt + 20000000) then s
    else if s.twin.hello.isSome then formFail 7 s
    else
      let alone : Bool := strapB s && flag s F.WOD_PAIR_CFG_B_ALONE
      let at' := s.time.count + 10 * fld s F.CND_FRAME_PERIOD_PERIOD
      formFail 6 { s with twin := { s.twin with aloneAt := if alone then some at' else none } })

/-- R442: B acts alone at an edge ten frame periods after PAIR_WAIT, where no bundle from A has appeared. -/
def aloneEdge (s : State) : State :=
  match s.twin.aloneAt with
  | none => s
  | some t =>
    if s.twin.pair ≠ .monitor ∨ s.twin.bundleSeen then { s with twin := { s.twin with aloneAt := none } }
    else if s.time.count ≥ t then setPair .acting { s with twin := { s.twin with aloneAt := none, primary := true } }
    else s

/-- JOURNAL (R443): the joining device takes the journal's swaps to apply at the edge that the primary named. -/
def execJournal (entries : List PairSwap) (e : FrameNo) (s : State) : Host.Outcome State Fault Refusal :=
  .next (
    if !running s || !s.twin.joining || s.twin.primary then s
    else
      setFld F.WOD_SWAP_STAT_SWAP_GEN (entries.length % 65536)
        { s with twin := { s.twin with pairSwaps := entries }, swap := { s.swap with join := some (e, entries) } })

/-! ## Time and edges (R445 to R447) -/

/-- The device takes its time from the primary (R445). -/
def follows (s : State) : Bool :=
  !s.twin.primary && (s.twin.joining || decide (s.twin.pair = .pairedB) || decide (s.twin.pair = .degradedB) ||
    decide (s.twin.pair = .monitor))

/-- SKEW of R447; a value beyond the field's range is not stated and free. -/
def showSkew (skew : Int) (s : State) : State :=
  let n := nextFree s
  let fits : Bool := decide (-32768 ≤ skew ∧ skew ≤ 32767)
  let s1 := setFld F.WOD_SKEW_SKEW (if fits then pattern 16 skew else Config.freeValue n.1) n.2
  setSat F.WOD_SKEW_MAX_ABS (max skew.natAbs (fld s F.WOD_SKEW_MAX_ABS)) s1

/-- The consequences of a skew (R447). -/
def judgeSkew (skew : Int) (s : State) : State :=
  let out : Bool := decide (skew.natAbs > 500)
  let s1 := showSkew skew s
  let s2 := if out && !s.twin.excursion then woadEvent 2 .warning (pattern 32 skew) s1 else s1
  let s3 := { s2 with twin := { s2.twin with excursion := out } }
  if skew.natAbs > 5000 then degrade 1 s3 else s3

/-- EDGE (R446, R447, R463): skew, the twin's state and its SWAP_GEN. A primary that reports itself degraded leaves the
secondary degraded too; the message does not say why, so the reason is free. -/
def execEdge (m : EdgeMsg) (s : State) : Host.Outcome State Fault Refusal :=
  .next (live s fun s =>
    if !s.twin.session || !follows s then { s with twin := { s.twin with twinEdge := some m } }
    else
      let s1 := { s with twin := { s.twin with twinEdge := some m } }
      let skew := Int.ofNat s.frame.edgeTick + s.twin.ofs - Int.ofNat m.tick
      let s2 := if s.twin.adopted && m.frame = s.frame.num then judgeSkew skew s1 else s1
      let s3 := if paired s2 && m.swapGen ≠ fld s2 F.WOD_SWAP_STAT_SWAP_GEN then degrade 6 s2 else s2
      if s3.twin.pair = .pairedB && m.state = 3 then
        let n := nextFree s3
        degrade (Config.freeValue n.1 % 16) n.2
      else s3)

/-- The frame number that the first paired edge takes (R446): one more than the primary's last. -/
def adoptNumber (s : State) : Option FrameNo :=
  if follows s && !s.twin.adopted && (paired s || s.twin.joining) then s.twin.twinEdge.map fun m => m.frame + 1 else none

/-- DELAY_EXCHANGE_TIMER (R445). -/
def execDelayExchangeTimer (s : State) : Host.Outcome State Fault Refusal :=
  .next (live s fun s => if follows s then sendWoad 0 (.delayReq s.time.count) s else s)

/-- DELAY_REQ (R445): the primary answers with its stamps of reception and transmission. -/
def execDelayReq (_sent : Tick) (s : State) : Host.Outcome State Fault Refusal :=
  .next (live s fun s =>
    if follows s then s else sendWoad 0 (.delayResp s.time.count s.time.count) s)

/-- UNC of R445 in 1/16 tick: half the difference between the mean one-way estimates of the exchanges, rounded up. -/
def uncOf (xs : List (Int × Int)) : Nat :=
  ceilDiv (16 * (xs.map fun e => (e.1 - e.2).natAbs).sum) (max 1 (2 * xs.length))

/-- DELAY_RESP (R445): t1 and t4 are this device's stamps, t2 and t3 the twin's. -/
def execDelayResp (t1 t2 t3 t4 : Tick) (taiA : Int) (s : State) : Host.Outcome State Fault Refusal :=
  .next (live s fun s =>
    if !follows s || !s.twin.linkUp then s
    else
      let e1 := Int.ofNat t2 - Int.ofNat t1
      let e2 := Int.ofNat t3 - Int.ofNat t4
      let ofs := roundDiv (e1 + e2) 2
      let xs := ((e1, e2) :: s.twin.exch).take 8
      let trip := (Int.ofNat t4 - Int.ofNat t1 - (Int.ofNat t3 - Int.ofNat t2)).toNat
      let span := max 1 (s.time.count - s.time.trimStep)
      let drift := roundDiv ((s.twin.ofs - ofs) * 1000000000) span
      let s1 := discipline (if s.twin.exch = [] then 0 else drift) none
        { s with twin := { s.twin with ofs := ofs, unc := uncOf xs, exch := xs } }
      let tai := pattern 64 (taiA + ofs)
      let w := pattern 64 ofs
      setFld F.WDN_TAI_OFS_LO_OFS tai (setFld F.WDN_TAI_OFS_HI_OFS (tai / 2 ^ 32)
        (setFld F.WOD_OFS_LO_OFS w (setFld F.WOD_OFS_HI_OFS (w / 2 ^ 32)
          (setSat F.WOD_DELAY_DELAY (8 * trip) (setSat F.WOD_DELAY_UNC (uncOf xs)
            { s1 with time := { s1.time with taiOfs := taiA + ofs } }))))))

/-! ## Digests (R460, R461) -/

/-- The items that differ. -/
def differing (a b : List (BitVec 256)) : List Nat :=
  (List.range 10).filter fun i => decide (a.getD i 0 ≠ b.getD i 0)

/-- One mismatch found by the secondary (R461): a reload at the first, the pair degraded at the second, or where the item has
no reload source. -/
def mismatch (old : List Nat) (s : State) (i : Nat) : State :=
  let s1 := setMaskBit F.WOD_DIGEST_STAT_MISM i true s
  if i ≥ 7 || old.contains i then degrade 5 (woadEvent 8 .fault i s1)
  else
    woadEvent 7 .warning i (setMaskBit F.WOD_DIGEST_STAT_PENDING i true
      { s1 with twin := { s1.twin with reloads := (i, s.frame.num + 2) :: s1.twin.reloads.filter fun r => r.1 ≠ i } })

/-- DIGEST (R443, R461). -/
def execDigest (frame : FrameNo) (ds : List (BitVec 256)) (s : State) : Host.Outcome State Fault Refusal :=
  .next (live s fun s =>
    match s.twin.ownDigests with
    | none => s
    | some (f, own) =>
      if f ≠ frame then s
      else
        let bad := differing own ds
        if s.twin.joining then
          if bad = [] then formed s.twin.primary s
          else
            let s1 := { s with twin := { s.twin with joining := false } }
            if s.twin.primary then s1 else woadEvent 7 .warning (bad.headD 0) (setPair .monitor s1)
        else if s.twin.pair = .pairedB then
          let s1 := bad.foldl (mismatch s.twin.mism) s
          { s1 with twin := { s1.twin with mism := bad } }
        else s)

/-- One reload (R461): the item as the image and the journal give it. The lattice table is the image's own. -/
def reloadItem (i : Nat) (s : State) : State :=
  match i with
  | 0 => reloadRegs 2 s
  | 5 => reloadRegs 0x1FFD s
  | _ => reloadTable i s

/-- The reloads whose edge has come (R461): alone, at the first edge at least two frames later at which no pair swap commits. -/
def reloadEdge (swapped : Bool) (s : State) : State :=
  if swapped then s
  else
    let due := s.twin.reloads.filter fun r => frameGe s.frame.num r.2
    due.foldl (fun s r => setMaskBit F.WOD_DIGEST_STAT_PENDING r.1 false (reloadItem r.1
      { s with twin := { s.twin with reloads := s.twin.reloads.erase r } })) s

/-! ## Pair swaps (R462, R463) -/

/-- PROPOSE (R462, R463): the secondary stages the values; a re-centring adopts the proposed origin. A digest that does not
match is refused with a reason that the spec does not state: it is free. -/
def execPropose (m : ProposeMsg) (s : State) : Host.Outcome State Fault Refusal :=
  .next (fabric s fun s =>
    if s.twin.pair ≠ .pairedB then s
    else if m.digest ≠ stagedDigest m.vals m.tables m.recentre then
      let n := nextFree s
      pairRefused m.s (Config.freeValue n.1 % 256) (sendWoad 0 (.refuse m.s (Config.freeValue n.1 % 256)) n.2)
    else
      match m.recentre with
      | some (dx, dy) =>
        setFld F.CND_RECENTER_STAT_STATE 1 { s with swap := { s.swap with
          recentre := some { dx := dx, dy := dy, opened := s.frame.num, edge := some m.s, committed := false
                             agreed := false, twin := true } } }
      | none =>
        if s.swap.user.isSome then pairRefused m.s 5 (sendWoad 0 (.refuse m.s 5) s)
        else
          let s1 := m.vals.foldl (fun s v => setReg s (v.addr + 0x8000) v.val.toNat) (stageTables m.tables s)
          openUser .twin m.mask.toNat m.s.toNat (some m.s) s1)

/-- ACK (R462): before edge S − 2 the primary sends COMMIT. -/
def execAck (e : FrameNo) (s : State) : Host.Outcome State Fault Refusal :=
  .next (fabric s fun s =>
    if s.twin.pair ≠ .pairedA || frameGe s.frame.num (e - 2) then s
    else
      let named := fun (s : State) => setFld F.CND_SWAP_FRAME_FRAME e.toNat (setFld F.CND_SWAP_STAT_STATE 2 s)
      match s.swap.user, s.swap.recentre with
      | some o, r =>
        if o.edge = some e && o.origin ≠ .twin then
          sendWoad 0 (.commit e) (named { s with swap := { s.swap with user := some { o with committed := true } } })
        else
          match r with
          | some c =>
            if c.edge = some e && !c.twin then
              sendWoad 0 (.commit e) { s with swap := { s.swap with recentre := some { c with committed := true } } }
            else s
          | none => s
      | none, some c =>
        if c.edge = some e && !c.twin then
          sendWoad 0 (.commit e) { s with swap := { s.swap with recentre := some { c with committed := true } } }
        else s
      | none, none => s)

/-- REFUSE (R462, R566): neither device swaps. -/
def execRefuse (e : FrameNo) (reason : Nat) (s : State) : Host.Outcome State Fault Refusal :=
  .next (live s fun s =>
    let s1 := setFld F.WOD_SWAP_STAT_LAST_REASON (reason % 256) s
    match s.swap.user, s.swap.recentre with
    | some o, r =>
      if o.edge = some e ∧ o.origin ≠ .twin ∧ ¬ o.agreed then refuseUserAs 6 (reason % 256) s1
      else
        match r with
        | some c => if c.edge = some e ∧ ¬ c.twin ∧ ¬ c.agreed then refuseRecentreAs 6 (reason % 256) s1 else s1
        | none => s1
    | none, some c => if c.edge = some e ∧ ¬ c.twin ∧ ¬ c.agreed then refuseRecentreAs 6 (reason % 256) s1 else s1
    | none, none => s1)

/-- COMMIT (R462): before edge S the secondary agrees to swap at S and answers COMMIT_ACK. -/
def execCommit (e : FrameNo) (s : State) : Host.Outcome State Fault Refusal :=
  .next (fabric s fun s =>
    if frameGe s.frame.num e then s
    else
      let s1 := match s.swap.user with
        | some o =>
          if o.edge = some e && o.origin = SwapOrigin.twin && o.staged = o.mask then
            setFld F.CND_SWAP_FRAME_FRAME e.toNat (setFld F.CND_SWAP_STAT_STATE 2
              { s with swap := { s.swap with user := some { o with committed := true, agreed := true } } })
          else s
        | none => s
      let s2 := match s1.swap.recentre with
        | some c =>
          if c.edge = some e && c.twin then
            setFld F.CND_RECENTER_STAT_STATE 2
              { s1 with swap := { s1.swap with recentre := some { c with committed := true, agreed := true } } }
          else s1
        | none => s1
      let agreed : Bool := (s2.swap.user.any fun o => o.agreed && o.origin = .twin && o.edge = some e) ||
        s2.swap.recentre.any fun c => c.agreed && c.twin && c.edge = some e
      if agreed then sendWoad 0 (.commitAck e) s2 else s2)

/-- COMMIT_ACK (R462): before edge S the primary agrees to swap at S. -/
def execCommitAck (e : FrameNo) (s : State) : Host.Outcome State Fault Refusal :=
  .next (fabric s fun s =>
    if frameGe s.frame.num e then s
    else
      let agree := fun (o : OpenSwap) =>
        if o.edge = some e && o.committed && o.origin ≠ SwapOrigin.twin then { o with agreed := true } else o
      let agreeR := fun (c : RecSwap) => if c.edge = some e && c.committed && !c.twin then { c with agreed := true } else c
      { s with swap := { s.swap with user := s.swap.user.map agree, recentre := s.swap.recentre.map agreeR } })

/-! ## Madder's verdicts (R397, R450) -/

/-- Madder judges the device's own trajectory, once, before the verify hard stop; the twin learns the verdict. -/
def verdictOwn (u : Option Upset) (s : State) : State :=
  if s.mad.subject.isNone || s.mad.verdictOwn.isSome || s.frame.stopped.getD 4 false then s
  else
    let s1 := judgeOwn u s
    match s1.mad.verdictOwn with
    | some true => sendVerdict false 0 0 s1
    | _ => sendVerdict false 1 s1.mad.detailOwn s1

/-- The trajectory of an offer. -/
def offerTraj (s : State) (o : Offer) (r : Record) : Traj :=
  { record := r, lane := none, tile := none, cost := o.cost, clearance := o.clearance, winner := recSrc r
    keepOut := ctxKeepOut s (recCand r).client }

/-- Madder judges the twin's offer of the frame, after the own trajectory (R450): a rejection is a twin rejection. -/
def verdictTwin (u : Option Upset) (s : State) : State :=
  match s.twin.offerIn with
  | none => s
  | some o =>
    match o.record with
    | none => s
    | some r =>
      let done : Bool := s.twin.offerVerdict.any fun v => v.1 = s.frame.num
      if o.frame ≠ s.frame.num || done || s.frame.stopped.getD 4 false || (s.mad.subject.isSome && s.mad.verdictOwn.isNone) then s
      else
        let t := offerTraj s o r
        let p := pickFail (madderFails s r t.keepOut o.edgeState) u s
        let keep := fun (ok : Bool) (s : State) => { s with twin := { s.twin with offerVerdict := some (s.frame.num, ok) } }
        match p.1 with
        | none => sendVerdict true 0 0 (keep true p.2)
        | some f =>
          let d := madderDetail f t
          noteRejection (woadEvent 5 .warning d (sendVerdict true 1 d (keep false p.2)))

/-! ## Offers, verdicts, EMITTED (R449 to R455) -/

/-- What an OFFER leaves (R449, R450): the twin's newest offer. -/
def takeOffer (o : Offer) (s : State) : State :=
  if s.twin.session then { s with twin := { s.twin with offerIn := some o } } else s

/-- What a VERDICT leaves (R450, R451, R455): a verdict on the twin's own trajectory, or on this device's; a rejection of this
device's is a twin rejection. -/
def takeVerdict (frame : FrameNo) (subjectTwin : Bool) (v : Fin 4) (detail : BitVec 64) (s : State) : State :=
  if !s.twin.session || !(v = 0 || v = 1) then s
  else if !subjectTwin then { s with twin := { s.twin with twinOnTwin := some (frame, v = 0) } }
  else
    let s1 := { s with twin := { s.twin with twinOnOwn := some (frame, v = 0, detail.toNat) } }
    if v = 1 then noteRejection s1 else s1

/-- V from an offer (R402, R452, R453): its edge tick in this device's time base. -/
def offerV (o : Offer) (edge : Tick) (fromTwin : Bool) : Option VTraj :=
  o.record.map fun r =>
    { record := r, edge := o.edgeState, edgeTick := edge, cost := o.cost, clearance := o.clearance, winner := recSrc r
      originGen := o.originGen.toNat, stamp := edge - o.age, fromTwin := fromTwin }

/-- EMITTED (R453): a device that does not transmit keeps as its V the offer that source 0 or 1 names. -/
def execEmitted (frame : FrameNo) (source : Fin 3) (s : State) : Host.Outcome State Fault Refusal :=
  .next (live s fun s =>
    if transmits s || !s.twin.session then s
    else
      let of := fun (o : Option Offer) => o.filter fun o => o.frame = frame
      let v := match source with
        | 0 => (of s.twin.offerIn).bind fun o => offerV o (fromTwin s o.edgeTick) true
        | 1 => (of s.twin.offerOut).bind fun o => offerV o o.edgeTick false
        | _ => none
      match v with
      | some v => { s with umb := { s.umb with v := some v } }
      | none => s)

/-- The twin's offer may go out in place of the own trajectory (R451): passed by both Madders, with equal ORIGIN_GEN. -/
def twinUsable (s : State) : Bool :=
  decide (s.twin.offerVerdict = some (s.frame.num, true)) && decide (s.twin.twinOnTwin = some (s.frame.num, true)) &&
    s.twin.offerIn.any fun o => decide (o.frame = s.frame.num) && decide (o.originGen.toNat = s.wld.originGen)

/-- The twin's verdict on this frame's own trajectory, if it has arrived. -/
def twinVerdict (s : State) : Option (Bool × Nat) :=
  (s.twin.twinOnOwn.filter fun v => v.1 = s.frame.num).map (·.2)

/-- The choice of the bundle (R451): in PAIRED_A by the twin's verdict; every other device takes it as a pass. -/
def chooseBundle (s : State) : State :=
  let put := fun (c : BundleChoice) (s : State) => { s with frame := { s.frame with choice := some c } }
  if doubted s || s.frame.noFree || s.mad.verdictOwn ≠ some true then put .hold s
  else if s.twin.pair ≠ .pairedA then put .own s
  else
    match twinVerdict s with
    | some (false, d) =>
      if twinUsable s then put .twin s
      else put .hold (doubtEvent 7 { unit := woadUnit, cls := 0x0D, ev := 6, sev := .doubt, detail := d } s)
    | _ => put .own s

/-- ELIG_HOLD_EXPIRY (R464): the link has been down for ELIG_HOLD consecutive frames. -/
def execEligHoldExpiry (s : State) : Host.Outcome State Fault Refusal :=
  .next (live s fun s =>
    if !s.twin.linkUp && decide (s.twin.downFrames ≥ fld s F.WOD_PAIR_CFG_ELIG_HOLD) then degrade 2 s else s)

/-- XLATE_EXPIRY (R455): XLATE_MAX consecutive frames without a twin verdict on the transmitting device's trajectory. -/
def execXlateExpiry (s : State) : Host.Outcome State Fault Refusal :=
  .next (live s fun s =>
    if s.twin.pair = .pairedA && decide (s.twin.xlateRun ≥ fld s F.WOD_PAIR_CFG_XLATE_MAX) then degrade 4 s else s)

/-- REJOIN_COUNT_EXPIRY (R465): the primary restarts the join once the link has been up and the condition clear for 1,024
consecutive frames. -/
def execRejoinCountExpiry (s : State) : Host.Outcome State Fault Refusal :=
  .next (live s fun s =>
    if s.twin.pair = .degradedA && !joinBarred s && decide (s.twin.clearRun ≥ 1024) then
      sendHello true { s with twin := { s.twin with hello := none, clearRun := 0 } }
    else s)

/-! ## Takeover (R456, R457) -/

/-- The secondary takes over (R457): cause 0 silence, 1 ABDICATE. -/
def takeoverNow (cause : Nat) (s : State) : State :=
  woadEvent 4 .fault (s.twin.lastBundle.toNat + cause * 2 ^ 32)
    (setPair .acting { s with twin := { s.twin with silent := false } })

/-- The frame whose emit hard stop plus SILENT_US has passed last. -/
def silenceFrame (s : State) : FrameNo :=
  let off := s.time.count - s.frame.edgeTick
  if off ≥ hardStop s 5 + 25 * fld s F.WOD_EDGE_CFG_SILENT_US then s.frame.num else s.frame.num - 1

/-- A frame whose bundle is transmitted (R520). -/
def txFrame (s : State) (f : FrameNo) : Bool := f.toNat % max 1 (fld s F.VBS_GUID_CFG_TX_INT) = 0

/-! ## The pair at an edge (R445, R446, R455, R464, R465) -/

/-- The run of frames without a verdict on the transmitted trajectory (R455), counted when a frame ends; the frames of a
twin's restart, and those in which this device had nothing to be judged, do not count. -/
def countXlate (s : State) : State :=
  let rs : Bool := (s.twin.twinEdge.any fun m => m.restart && m.frame = s.frame.num) ||
    s.twin.offerIn.any fun o => o.restart && o.frame = s.frame.num
  if s.twin.pair ≠ .pairedA || rs || s.mad.subject.isNone then s
  else
    let n := if (twinVerdict s).isSome then 0 else s.twin.xlateRun + 1
    setSat F.WOD_XVER_STAT_XLATE_RUN n { s with twin := { s.twin with xlateRun := n } }

/-- The frames of a link that is down, and the clear frames of a degraded primary (R464, R465). -/
def countLink (s : State) : State :=
  let clear : Bool := s.twin.linkUp && decide ((s.twin.rejects.filter fun f => frameDist f s.frame.num < 64).length
    < fld s F.WOD_PAIR_CFG_XDIS_MAX)
  { s with twin := { s.twin with
      downFrames := if s.twin.linkUp then 0 else s.twin.downFrames + 1
      clearRun := if s.twin.pair = .degradedA ∧ clear then min 1024 (s.twin.clearRun + 1) else 0 } }

/-- What a primary sends at its edge (R446). -/
def sendEdge (s : State) : State :=
  if s.twin.pair = .solo ∨ ¬ s.twin.primary then s
  else
    sendWoad 0 (.edge { frame := s.frame.num, tick := s.frame.edgeTick, state := pairCode s.twin.pair
                        restart := restarting s, transmitting := transmits s
                        swapGen := fld s F.WOD_SWAP_STAT_SWAP_GEN }) s

/-- The pair at an edge, after the swaps. -/
def twinEdge (s : State) : State :=
  let recent := s.twin.rejects.filter fun f => frameDist f s.frame.num < 64
  let s1 := setSat F.WOD_XVER_STAT_XDIS_64 recent.length { s with twin := { s.twin with rejects := recent } }
  let s2 := sendEdge (aloneEdge (countLink s1))
  if paired s2 && decide (frameN s2 % 256 = 0) then sendDigests s2 else s2

end Sys2Proof.Machine
end

