-- ==== Sys2Proof/Machine/Security.lean ====
section
/-! DEFINITION. Machine/Security.lean: security (chapter 14): the reach of requesters (R23), JTAG (R480, R481), life-cycle
tokens (R475 to R479), key setup and attestation reports (R491 to R493, R501, R502), the rings and messages of the
supervisor port (R494 to R497), tamper (R499, R500), and the supervisor link (R490). -/

namespace Sys2Proof.Machine

/-! ## Reach and debug (R23, R480, R481) -/

/-- Whether a requester reaches the SUP block (the reach table of chapter 01): the host, the Warden core, and JTAG in
every state but FIELD. -/
def reachesSup (s : State) (r : Requester) : Bool :=
  if s.fuse.lc = 4 then false
  else
    match r with
    | .warden => true
    | .host => true
    | .jtag => s.fuse.lc ≠ 2
    | _ => false

/-- A write that only a requester reaching the SUP block may make; otherwise it is refused (R23). -/
def supWrite (r : Requester) (addr : Nat) (f : State → State) (s : State) : State :=
  if reachesSup s r then f s else refuseAccess r addr s

/-- The JTAG instructions other than BYPASS are offered: the private ones, EXTEST and SAMPLE/PRELOAD in MANUFACTURE, DEVELOP
and RMA, IDCODE in FIELD too (R480). -/
def jtagOffers (s : State) (i : JtagIr) : Bool :=
  match i with
  | .bypass => true
  | .idcode => s.fuse.lc ≠ 4
  | _ => decide (s.fuse.lc ≠ 4) && decide (s.fuse.lc ≠ 2)

/-- JTAG selects an instruction that its life-cycle state offers; another is not taken. -/
def selectJtag (i : JtagIr) (s : State) : State :=
  if jtagOffers s i then { s with sec := { s.sec with jtag := i } } else s

/-- JTAG_BYPASS (R480). -/
def execJtagBypass (s : State) : Host.Outcome State Fault Refusal := .next (selectJtag .bypass s)

/-- JTAG_IDCODE (R480, R481): IDCODE returns 0x0640_A1C3. -/
def execJtagIdcode (s : State) : Host.Outcome State Fault Refusal :=
  .next (if jtagOffers s .idcode then send (.idcode 0x0640A1C3) (selectJtag .idcode s) else s)

/-- JTAG_SAMPLE_PRELOAD (R480). -/
def execJtagSamplePreload (s : State) : Host.Outcome State Fault Refusal := .next (selectJtag .samplePreload s)

/-- JTAG_EXTEST (R480). -/
def execJtagExtest (s : State) : Host.Outcome State Fault Refusal := .next (selectJtag .extest s)

/-- JTAG_DEBUG (R480): what a private instruction does the spec does not say. -/
def execJtagDebug (s : State) : Host.Outcome State Fault Refusal := .next (selectJtag .debug s)

/-! ## Fuses, wipes and the tamper latch -/

/-- WDN_LC_STAT and WDN_DEV_ID show the fuses (R472). -/
def showFuses (s : State) : State :=
  let f := s.fuse
  let b := fun (x : Bool) => if x then 1 else 0
  let s1 := setFld F.WDN_LC_STAT_LC f.lc (setFld F.WDN_LC_STAT_DBG_LOCK (b f.dbgLock)
    (setFld F.WDN_LC_STAT_PROT_FUSE f.prot (setFld F.WDN_LC_STAT_KILL (b f.kill)
      (setFld F.WDN_LC_STAT_OWNER_SET (b f.ownerSet) (setFld F.WDN_LC_STAT_FW_FLOOR f.fwFloor
        (setFld F.WDN_LC_STAT_PROT s.image.prot.val s))))))
  (List.range 4).foldl (fun s n => setFld (F.WDN_DEV_ID_ID n) (f.deviceId.toNat / 2 ^ (32 * n)) s) s1

/-- WDN_TAMPER_STAT shows Indigo's latch and its asleep bits (R504). -/
def showTamper (s : State) : State :=
  setFlag F.WDN_TAMPER_STAT_LATCH s.ind.latch (setFld F.WDN_TAMPER_STAT_ASLEEP s.ind.asleepTrip s)

/-- SUP_LC_NONCE takes a new random value (R476, R478). -/
def newNonce (s : State) : State :=
  let n := nextFree s
  setFld F.SUP_LC_NONCE_NONCE (Config.freeValue n.1) n.2

/-- The Woad session keys are destroyed (R439). -/
def dropSession (s : State) : State :=
  { s with twin := { s.twin with session := false, proven := false, keys := [], nonce := none } }

/-- The messages in the crypto engine are abandoned (R360, R497). -/
def abandonCrypto (s : State) : State :=
  showSegs (s.cnd.crypto.foldl (fun s c => send (.messageLost c.owner c.ctx) s) { s with cnd := { s.cnd with crypto := [] } })

/-- What a wipe of the secure Warden SRAM destroys (R493, R497, R500): the Woad session keys and every slot's keys; the memory
itself is zero. -/
def wipeSecure (cause : Nat) (s : State) : State :=
  let s1 := s.sec.slots.foldl (fun s k => closeSlot k.slot cause s) (abandonCrypto s)
  let s2 := degrade 8 (dropSession s1)
  zeroRanges (wipeRanges s2 .secureWarden) s2

/-- A wipe of all memories (R384): all SRAM, the Warden's with it, and all HBM; WIPE_DONE ends the read-backs. -/
def wipeAll (s : State) : State :=
  beginWipe .allHbm (beginWipe .allSram (zeroRanges [(0, 2 ^ 40)] s))

/-- All work stops until the next cold start. -/
def haltDevice (s : State) : State := { s with pwr := { s.pwr with phase := .halted } }

/-! ## Life-cycle tokens (R475 to R479) -/

/-- Bytes of SUP_MBOX from an offset that is a multiple of 4. -/
def mboxBytes (s : State) (off len : Nat) : List Byte :=
  ((List.range ((len + 3) / 4)).flatMap fun i => leBytes 4 (regWord s (0x7C4000 + off + 4 * i))).take len

/-- A life-cycle token in its fields (R476), with the bytes that its signature covers. -/
structure Token where
  target : Nat
  signer : Nat
  deviceId : Nat
  nonce : Nat
  key : List Byte
  body : List Byte
  sig : List Byte
deriving DecidableEq, Repr

/-- A token from its 256 bytes (R476). -/
def tokenOf (b : List Byte) : Token :=
  { target := fieldAt 0 1 b, signer := fieldAt 1 1 b, deviceId := fieldAt 4 16 b, nonce := fieldAt 20 4 b
    key := part 24 96 b, body := b.take 160, sig := part 160 96 b }

/-- LC_GO (R476): the check of the tokens that stand in the mailbox starts; one that runs goes on. DESIGN CHOICE (log 127): the
tokens are taken at GO. -/
def takeLcGo (r : Requester) (s : State) : State :=
  live s (supWrite r 0x7C1038 fun s =>
    if fld s F.SUP_LC_STAT_STATE = 1 then s
    else
      setFld F.SUP_LC_STAT_STATE 1 (setFld F.SUP_LC_STAT_REASON 0
        { s with sec := { s.sec with tokens := mboxBytes s 0x2400 512 } }))

/-- The command LcGo, as above. -/
def execLcGo (r : Requester) (s : State) : Host.Outcome State Fault Refusal :=
  .next (takeLcGo r s)

/-- The transitions of R475: from, to and signer of the token (0 owner, 1 vendor factory, 2 vendor RMA); a transition to
RMA takes the owner's token first. -/
def lcAllowed (lc target signer : Nat) : Bool :=
  match lc, target, signer with
  | 0, 1, 1 | 0, 2, 1 | 1, 2, 0 | 1, 3, 0 | 2, 3, 0 => true
  | 1, 4, 0 | 2, 4, 0 | 3, 4, 0 | 1, 4, 2 | 2, 4, 2 | 3, 4, 2 => true
  | _, _, _ => false

/-- A latch-clear token is permitted: an owner token with the current state as TARGET, in DEVELOP and FIELD (R478). -/
def latchClear (s : State) (t : Token) : Bool :=
  decide (t.target = s.fuse.lc) && decide (t.signer = 0) && (decide (s.fuse.lc = 1) || decide (s.fuse.lc = 2))

/-- The signer's public key matches OWNER_DIGEST or the ROM digest of the vendor key, and the signature verifies (R476). -/
def tokenSigned (s : State) (t : Token) : Bool :=
  Config.ecdsaOk t.key t.body t.sig &&
    (if t.signer = 0 then s.fuse.ownerSet && decide (Config.sha3 t.key = s.fuse.ownerDigest)
     else decide (t.signer ≤ 2) && decide (Config.sha3 t.key = Config.romKeyDigest t.signer))

/-- The edge state's speed is 0 (R477, R478). -/
def atRestNow (s : State) : Bool := decide ((edgePose s).v = 0)

/-- What refuses a token of its own: identity, nonce, signature (REASON 2 to 4 of SUP_LC_STAT). -/
def tokenFault (s : State) (t : Token) : Option Nat :=
  if t.deviceId ≠ s.fuse.deviceId.toNat then some 2
  else if t.nonce ≠ fld s F.SUP_LC_NONCE_NONCE then some 3
  else if !tokenSigned s t then some 4
  else none

/-- The second token of a transition to RMA is missing or refused (R476). -/
def secondFault (s : State) (t second : Token) : Option Nat :=
  if t.target = 3 && !latchClear s t then
    if second.target ≠ 3 ∨ second.signer ≠ 2 then some 6 else tokenFault s second
  else none

/-- REASON of a refused token: the first that applies, in the order of the codes. -/
def tokenReason (s : State) (t second : Token) : Option Nat :=
  if !latchClear s t && !lcAllowed s.fuse.lc t.target t.signer then some 1
  else
    match tokenFault s t with
    | some r => some r
    | none => if !atRestNow s then some 5 else secondFault s t second

/-- The fuses that a transition blows (R472, R475, R479). -/
def blowFuses (target : Nat) (s : State) : State :=
  let f := s.fuse
  let f1 := { f with lc := target }
  let f2 := if target = 2 then { f1 with dbgLock := true, prot := s.image.prot.val } else f1
  let f3 := if target = 3 ∨ target = 4 then { f2 with kill := true, keyDestroyed := true } else f2
  showFuses { s with fuse := f3 }

/-- An accepted transition token (R477, R479): SAFE_STOP_N, the fuses, then the wipes, and all work stops until the next cold
start; a life-cycle change clears LATCH (R500). -/
def acceptToken (t : Token) (s : State) : State :=
  let from' := s.fuse.lc
  let s1 := blowFuses t.target (assertSafeStop s)
  let s2 := report { unit := 0x90, cls := 0x0E, ev := 0, sev := .note, detail := from' + t.target * 2 ^ 8 } s1
  let s3 := showTamper { s2 with ind := { s2.ind with latch := false } }
  let s4 := wipeAll (dropSession { s3 with sec := { s3.sec with slots := [] } })
  haltDevice (setFld F.SUP_LC_STAT_STATE 2 s4)

/-- An accepted latch-clear token (R478). -/
def acceptLatchClear (s : State) : State :=
  let s1 := showTamper { s with ind := { s.ind with latch := false, asleepTrip := 0 } }
  setFld F.SUP_LC_STAT_STATE 2
    (report { unit := 0x90, cls := 0x0E, ev := 0, sev := .note, detail := s.fuse.lc + s.fuse.lc * 2 ^ 8 } (newNonce s1))

/-- A refused token changes nothing, and the refusal is reported (R476, R477, R503). -/
def refuseToken (reason : Nat) (s : State) : State :=
  setFld F.SUP_LC_STAT_STATE 3 (setFld F.SUP_LC_STAT_REASON reason
    (newNonce (report { unit := 0x90, cls := 0x0E, ev := 1, sev := .warning, detail := reason } s)))

/-- The tokens under check: that at +0x2400 and that at +0x2500. -/
def firstToken (s : State) : Token := tokenOf (s.sec.tokens.take 256)
def secondToken (s : State) : Token := tokenOf (s.sec.tokens.drop 256)

/-- LC_TOKEN_DONE (R475 to R479): the check that GO started ends. -/
def execLcTokenDone (s : State) : Host.Outcome State Fault Refusal :=
  .next (live s fun s =>
    if fld s F.SUP_LC_STAT_STATE ≠ 1 then s
    else
      match tokenReason s (firstToken s) (secondToken s) with
      | some r => refuseToken r s
      | none => if latchClear s (firstToken s) then acceptLatchClear s else acceptToken (firstToken s) s)

/-! ## Attestation reports (R501, R502) -/

/-- A packed number of fields of w bits each, the first in the low bits. -/
def packBits (w : Nat) (xs : List Nat) : Nat :=
  (xs.mapIdx fun i x => x % 2 ^ w * 2 ^ (w * i)).sum

/-- FLAGS of a report (R501). -/
def attestFlags (s : State) : Nat :=
  (if debugLocked s then 1 else 0) + 2 * s.image.prot.val + (if s.ind.latch then 8 else 0)
    + (if s.fuse.lc = 3 then 16 else 0) + 32 * (s.boot.pos % 4)

/-- FUSES of a report (R501): LC is the state code. -/
def attestFuses (s : State) : Nat :=
  let f := s.fuse
  f.lc + (if f.dbgLock then 2 ^ 8 else 0) + f.prot * 2 ^ 9 + (if f.kill then 2 ^ 11 else 0)
    + (if f.ownerSet then 2 ^ 12 else 0) + f.fwFloor * 2 ^ 13

/-- The models digest (R501): over the digests of the models that are loaded, in ascending model number. -/
def modelsDigest (s : State) : BitVec 256 :=
  let ms := ((List.range 16).filterMap fun n => s.image.models.find? fun m => m.model.val = n ∧ s.boot.loaded.contains n)
  if ms.isEmpty then 0 else Config.sha3 (ms.flatMap fun m => leBytes 32 m.digest.toNat)

/-- The domain of an HBM channel. -/
def channelDomain (s : State) (ch : Nat) : Nat :=
  (if ch < 8 then fld s F.MEM_CHAN_DOMAIN_LO_DOMAIN / 2 ^ (4 * ch)
   else fld s F.MEM_CHAN_DOMAIN_HI_DOMAIN / 2 ^ (4 * (ch - 8))) % 16

/-- A domain is active: it is domain 0, or it owns an HBM channel (R483) and no failure has made it inactive (R556). -/
def domainActive (s : State) (d : Nat) : Bool :=
  d = 0 || ((List.range 16).any (fun ch => channelDomain s ch = d) && !s.boot.inactive.any (fun x => x.val = d))

/-- Bytes 0 to 463 of a report (R501). -/
def attestBody (nonce : BitVec 256) (client dom : Nat) (exch : List Byte) (s : State) : List Byte :=
  let d := fun (n : Nat) (x : BitVec 256) => leBytes n x.toNat
  [0x4C, 0x44, 0x4E, 0x41] ++ leBytes 2 1 ++ leBytes 1 s.fuse.lc ++ leBytes 1 (attestFlags s)
    ++ leBytes 16 s.fuse.deviceId.toNat ++ d 32 (Config.sha3 (Config.devicePublic s.fuse.deviceId)) ++ d 32 nonce
    ++ leBytes 8 s.time.count ++ leBytes 4 (frameN s) ++ leBytes 4 Config.romVersion.toNat
    ++ leBytes 4 s.image.fwVersion.toNat ++ leBytes 2 client ++ leBytes 1 dom ++ leBytes 1 0
    ++ d 32 s.image.fwDigest ++ d 32 s.image.digest ++ d 32 s.image.kermesDigest
    ++ d 32 (modelsDigest s) ++ leBytes 8 (attestFuses s)
    ++ leBytes 32 (packBits 4 ((List.range 64).map fun u => unitDomain s u))
    ++ leBytes 4 (packBits 4 ((List.range 8).map fun u => unitDomain s (64 + u)))
    ++ leBytes 4 (packBits 1 ((List.range 16).map fun n =>
        bit (domainActive s n)))
    ++ leBytes 64 (packBits 32 ((List.range 8).flatMap fun c =>
        [regWord s (F.MEM_WAY_DOMAIN_LO_DOMAIN c).addr, regWord s (F.MEM_WAY_DOMAIN_HI_DOMAIN c).addr]))
    ++ leBytes 8 (packBits 32 [regWord s F.MEM_CHAN_DOMAIN_LO_DOMAIN.addr, regWord s F.MEM_CHAN_DOMAIN_HI_DOMAIN.addr])
    ++ leBytes 8 0 ++ padTo 96 exch

/-- A report of 560 bytes (R501); one made in RMA has an all-zero signature (R479). -/
def attestReport (nonce : BitVec 256) (client dom : Nat) (exch : List Byte) (s : State) : List Byte :=
  let b := attestBody nonce client dom exch s
  b ++ padTo 96 (if s.fuse.lc = 3 then [] else Config.ecdsa s.fuse.deviceId b)

/-- The certificate chain, at most 7,632 bytes (R502). -/
def chainBytes (s : State) : List Byte := (Config.certChain s.fuse.deviceId).take 7632

/-- Words from bytes, the last padded with zeros. -/
def byteWords : Nat → List Byte → List Nat
  | 0, _ => []
  | n + 1, bs => if bs.isEmpty then [] else ofLe (bs.take 4) :: byteWords n (bs.drop 4)

/-- Bytes written into SUP_MBOX from an offset. -/
def mboxWrite (off : Nat) (bs : List Byte) (s : State) : State :=
  ((byteWords 4096 bs).zipIdx).foldl (fun s w => setReg s (0x7C4000 + off + 4 * w.2) w.1) s

/-- Each report writes a note, class 0x0E event 7 (R502). -/
def attestNote (slot : Nat) (s : State) : State :=
  report { unit := 0x90, cls := 0x0E, ev := 7, sev := .note, detail := slot } s

/-! ## Key setup (R491 to R493) -/

/-- A refused setup (R492, R503): counted and reported. -/
def refuseKx (reason slot : Nat) (s : State) : State :=
  bump F.WDN_SEC_CNT_KX_REFUSED
    (report { unit := 0x90, cls := 0x0E, ev := 3, sev := .warning, detail := reason + slot * 2 ^ 8 } s)

/-- A key-setup request in its fields (R491), with the bytes that its signature covers. -/
structure KxRequest where
  slot : Nat
  roster : Nat
  client : Nat
  pub : List Byte
  nonce : List Byte
  meas : Nat
  body : List Byte
  sig : List Byte
deriving DecidableEq, Repr

/-- A request from its 280 bytes (R491). -/
def kxOf (b : List Byte) : KxRequest :=
  { slot := fieldAt 0 1 b, roster := fieldAt 1 1 b, client := fieldAt 2 2 b, pub := part 8 96 b, nonce := part 104 32 b
    meas := fieldAt 136 48 b, body := b.take 184, sig := part 184 96 b }

/-- KX_GO (R491, R492): the setup that SUP_MBOX requests starts; while one runs it is refused with reason 5. DESIGN CHOICE (log
127): the request is taken at GO. -/
def takeKxGo (r : Requester) (s : State) : State :=
  live s (supWrite r 0x7C1030 fun s =>
    let slot := regWord s 0x7C4000 % 256
    if fld s F.SUP_KX_STAT_STATE = 1 then refuseKx 5 slot s
    else
      setFld F.SUP_KX_STAT_STATE 1 (setFld F.SUP_KX_STAT_SLOT slot (setFld F.SUP_KX_STAT_REASON 0
        { s with sec := { s.sec with kxTamper := false, kxReq := mboxBytes s 0 280 } })))

/-- The command KxGo, as above. -/
def execKxGo (r : Requester) (s : State) : Host.Outcome State Fault Refusal :=
  .next (takeKxGo r s)

/-- The roster holds an entry at the request's index, and the request's signature verifies under it (R491). -/
def rosterSigned (s : State) (q : KxRequest) : Bool :=
  match s.image.hostRoster[q.roster]? with
  | some (some k) => Config.ecdsaOk k q.body q.sig
  | _ => false

/-- The first reason that applies (R492). -/
def kxReason (s : State) (q : KxRequest) : Option Nat :=
  if q.client ≥ 1024 ∨ cliSlot s q.client ≠ q.slot then some 1
  else if !cliEn s q.client then some 2
  else if !rosterSigned s q then some 3
  else if s.image.prot.val % 2 = 1 && !(s.image.measurements.any fun m => m.toNat = q.meas) then some 4
  else if s.sec.kxTamper then some 6
  else none

/-- The 72 bytes of a slot's keys and salts (R492). -/
def kxKeys (q : KxRequest) (priv : Nat) : List Byte :=
  leBytes 72 (Config.hkdf (Config.ecdhEphemeral priv q.pub) q.nonce
    ([0x53, 0x55, 0x50, 0x56] ++ leBytes 1 q.slot ++ leBytes 2 q.client))

/-- KX_DONE (R492, R493, R497): the slot's new keys replace any old ones, counters begin anew, the report and its chain stand
in SUP_MBOX, and MSI-X vector 1 is signalled. -/
def execKxDone (s : State) : Host.Outcome State Fault Refusal :=
  .next (live s fun s =>
    let q := kxOf s.sec.kxReq
    if fld s F.SUP_KX_STAT_STATE ≠ 1 then s
    else
      match kxReason s q with
      | some n => refuseKx n q.slot (setFld F.SUP_KX_STAT_STATE 3 (setFld F.SUP_KX_STAT_REASON n s))
      | none =>
        let p := nextFree s
        let priv := Config.freeValue p.1
        let pub := Config.ecPublic priv
        let k : SlotKeys := { slot := q.slot, client := q.client, keys := kxKeys q priv, rxCtr := 0, txCtr := 0, fails := [], part := [] }
        let s1 := { p.2 with sec := { p.2.sec with
          slots := k :: p.2.sec.slots.filter fun x => x.slot ≠ q.slot } }
        let s2 := mboxWrite 0x400 (attestReport (BitVec.ofNat 256 (ofLe q.nonce)) q.client (cliDomain s q.client) pub s ++ chainBytes s) s1
        pump (send (.msix 1) (setFld F.SUP_KX_STAT_STATE 2 (attestNote q.slot s2))))

/-! ## Rings and messages (R494 to R497) -/

/-- A descriptor in its fields (R495). -/
structure CmdDesc where
  haddr : Nat
  len : Nat
  slot : Nat
  dkind : Nat
deriving DecidableEq, Repr

/-- A descriptor from its 16 bytes (R495), the first in the low bits. -/
def cmdDescOf (d : BitVec 128) : CmdDesc :=
  { haddr := d.toNat % 2 ^ 64, len := bitsOf d.toNat 79 64, slot := bitsOf d.toNat 87 80, dkind := bitsOf d.toNat 95 88 }

/-- A descriptor is well formed: LEN from 33 to 4,128, HADDR on 64 bytes, a DKIND that is not reserved (R495). -/
def descOk (d : CmdDesc) : Bool :=
  decide (33 ≤ d.len ∧ d.len ≤ 4128) && decide (d.haddr % 64 = 0) && decide (d.dkind ≤ 1)

/-- One descriptor that the device fetched. -/
def takeDesc (s : State) (x : Nat × BitVec 128) : State :=
  let d := cmdDescOf x.2
  let e : SlotDesc := ⟨x.1, d.slot, d.len⟩
  if !descOk d then completeBad x.1 4 d.slot s
  else if (slotKeys s d.slot).isNone then completeBad x.1 3 d.slot s
  else if d.dkind = 0 then { s with sec := { s.sec with cmds := s.sec.cmds ++ [e] } }
  else { s with sec := { s.sec with bufs := s.sec.bufs ++ [e] } }

/-- CMD_DOORBELL (R495): TAIL moves, and while the rings are in use the descriptors up to it are fetched and processed in
ring order. -/
def execCmdDoorbell (r : Requester) (tail : BitVec 12) (descs : List (BitVec 128)) (s : State) :
    Host.Outcome State Fault Refusal :=
  .next (live s (supWrite r 0x7C1024 fun s =>
    let old := fld s F.SUP_CMD_TAIL_TAIL
    let size := max 1 (fld s F.SUP_CMD_CTL_SIZE)
    let s1 := setFld F.SUP_CMD_TAIL_TAIL tail.toNat s
    if !flag s F.SUP_CMD_CTL_EN then s1
    else
      let n := (tail.toNat + size - old % size) % size
      pump (((descs.take n).mapIdx fun i d => ((old + i) % size, d)).foldl takeDesc s1)))

/-- A tag failure (R496): counted, reported, and the 16th within 1 s closes the slot. -/
def hostTagFail (d : SlotDesc) (k : SlotKeys) (s : State) : State :=
  let fails := (s.time.count :: k.fails.filter fun t => s.time.count < t + 25000000).take 16
  let s1 := bump F.WDN_SEC_CNT_TAG_FAIL
    (report { unit := 0x97, cls := 0x0E, ev := 4, sev := .warning, detail := d.slot }
      (completeBad d.index 1 d.slot (setSlot { k with fails := fails } s)))
  if fails.length ≥ 16 then closeSlot d.slot 0 s1 else s1

/-- A message from the host is opened under the keys of its descriptor's slot (R494): header, ciphertext and tag fill the length
that the header names. -/
def openHost (k : SlotKeys) (b : List Byte) : Option (List Byte) :=
  let x := slotKey k.keys 0
  if b.length = 32 + fieldAt 2 2 b ∧ fieldAt 0 1 b = k.slot ∧ fieldAt 1 1 b = 0 then
    Config.gcmOpen x.1 (x.2 ++ part 8 8 b) (b.take 16) (b.drop 16)
  else none

/-- MORE of a message's header (R494). -/
def hostMore (b : List Byte) : Bool := (fieldAt 4 1 b).testBit 0

/-- An accepted host message (R494): its plaintext continues the slot's unit, which is whole without MORE. -/
def hostAccept (d : SlotDesc) (k : SlotKeys) (b pt : List Byte) (s : State) : State :=
  let ctr := fieldAt 8 8 b
  let all := k.part ++ pt
  let s1 := setSlot { k with rxCtr := ctr, part := if hostMore b then all else [] } s
  let s2 := if hostMore b then s1 else { s1 with sec := { s1.sec with unit := some (d.slot, all) } }
  let s3 := complete ⟨d.index, 0, d.slot, pt.length, ctr⟩ s2
  if ctr ≥ 2 ^ 48 then closeSlot d.slot 1 s3 else s3

/-- The message of a descriptor under the keys of its slot (R496). -/
def hostJudge (d : SlotDesc) (k : SlotKeys) (b : List Byte) (s : State) : State :=
  match openHost k b with
  | none => hostTagFail d k s
  | some pt =>
    if fieldAt 8 8 b ≤ k.rxCtr then bump F.SUP_SLOT_CNT_REPLAY (completeBad d.index 2 d.slot s)
    else hostAccept d k b pt s

/-- HOST_MESSAGE (R494 to R496): the oldest pending descriptor is processed; bytes are what its buffer holds. -/
def execHostMessage (b : List Byte) (s : State) : Host.Outcome State Fault Refusal :=
  .next (live s fun s =>
    match s.sec.cmds with
    | [] => s
    | d :: ds =>
      let s1 := { s with sec := { s.sec with cmds := ds } }
      match slotKeys s1 d.slot with
      | none => completeBad d.index 3 d.slot s1
      | some k => hostJudge d k (b.take d.len) s1)

/-- COMPLETION_WRITE (R495): the first waiting completion is written once the ring has room. -/
def execCompletionWrite (s : State) : Host.Outcome State Fault Refusal :=
  .next (live s fun s =>
    match s.sec.compls with
    | [] => s
    | c :: cs => if complFull s then s else writeCompl c { s with sec := { s.sec with compls := cs } })

/-- DEVICE_MSG_TIMEOUT (R495): the unit that has waited 100 ms for an offered buffer is dropped and counted. -/
def execDeviceMsgTimeout (s : State) : Host.Outcome State Fault Refusal :=
  .next (live s fun s =>
    match s.sec.out with
    | [] => s
    | m :: ms =>
      if s.time.count < m.since + 2500000 then s
      else { s with sec := { s.sec with out := ms, dropped := s.sec.dropped + 1 } })

/-- EN of SUP_CMD_CTL is written 0 (R495): every outstanding descriptor completes with CANCELLED. -/
def disableRings (s : State) : State :=
  let gone := s.sec.cmds ++ s.sec.bufs
  gone.foldl (fun s d => completeBad d.index 5 d.slot s)
    (setFlag F.SUP_CMD_CTL_EN false { s with sec := { s.sec with cmds := [], bufs := [] } })

/-- RING_DISABLE (R495). -/
def takeRingDisable (r : Requester) (s : State) : State :=
  live s (supWrite r 0x7C1020 disableRings)

/-- The command RingDisable, as above. -/
def execRingDisable (r : Requester) (s : State) : Host.Outcome State Fault Refusal :=
  .next (takeRingDisable r s)

/-- SUP_LINK_UP (R490): the link has trained. -/
def execSupLinkUp (speed width : Nat) (s : State) : Host.Outcome State Fault Refusal :=
  .next (live s fun s =>
    setFlag F.SUP_LINK_STAT_UP true (setFld F.SUP_LINK_STAT_SPEED speed (setFld F.SUP_LINK_STAT_WIDTH width s)))

/-- SUP_LINK_DOWN (R490). -/
def execSupLinkDown (s : State) : Host.Outcome State Fault Refusal := .next (live s (setFlag F.SUP_LINK_STAT_UP false))

/-! ## Tamper (R499, R500) -/

/-- VDD_CORE is applied: the device is neither off nor asleep. -/
def coreApplied (s : State) : Bool := s.pwr.phase = .reset || s.pwr.phase = .running || s.pwr.phase = .halted

/-- The consequences of a trip while VDD_CORE is applied, or at the wake after one (R500): the wipe, LATCH, the record, and
under TAMPER_HALT a fatal event, the wipe of all memories and a halt. bits are the comparators. -/
def tripped (bits : Nat) (asleep : Bool) (s : State) : State :=
  let e : Event := { unit := 0x98, cls := 0x0E, ev := 2, sev := .fault
                     detail := bits + (if asleep then 2 ^ 8 else 0) }
  let s1 := showTamper { s with ind := { s.ind with latch := true }, sec := { s.sec with kxTamper := true } }
  let s2 := setFld F.WDN_TAMPER_STAT_TRIP (fld s1 F.WDN_TAMPER_STAT_TRIP ||| bits) s1
  if flag s F.WDN_SEC_CFG_TAMPER_HALT then haltDevice (wipeAll (fatal e (wipeSecure 2 s2)))
  else report e (wipeSecure 2 s2)

/-- A comparator trips (R499, R500), if its bit of TAMPER_EN is set; comparator 2 runs only while VDD_CORE is applied. -/
def trip (n : Nat) (s : State) : State :=
  if !maskBit s F.WDN_SEC_CFG_TAMPER_EN n then s
  else if coreApplied s then tripped (2 ^ n) false s
  else if n = 2 ∨ !s.ind.powered then s
  else
    let d := s.ind.asleepDue ||| 2 ^ n
    { s with ind := { s.ind with latch := true, asleepTrip := s.ind.asleepTrip ||| 2 ^ n, asleepDue := d } }

/-- TAMPER_TRIP (R499, R500). -/
def execTamperTrip (src : Fin 4) (s : State) : Host.Outcome State Fault Refusal := .next (trip src.val s)

/-- MESH_CHECK (R499): the code is checked every 100 µs; two failures in a row trip comparator 0. -/
def execMeshCheck (ok : Bool) (s : State) : Host.Outcome State Fault Refusal :=
  .next (
    if !s.ind.powered || !maskBit s F.WDN_SEC_CFG_TAMPER_EN 0 then s
    else if ok then { s with ind := { s.ind with meshFails := 0 } }
    else if s.ind.meshFails + 1 ≥ 2 then trip 0 { s with ind := { s.ind with meshFails := 0 } }
    else { s with ind := { s.ind with meshFails := s.ind.meshFails + 1 } })

end Sys2Proof.Machine
end

