-- ==== Sys2Proof/Machine/Bus.lean ====
section
/-! DEFINITION. Machine/Bus.lean: the vehicle bus and Ochre (chapter 15): filters and samples (R507, R508, R514), ISOBUS
network management and transport (R509 to R514), the guidance segment's output stage (R515 to R522), the recipient's
heartbeat (R523, R524), device status (R525), client units (R526 to R529), bus faults (R530) and Ochre (R532 to R536). -/

namespace Sys2Proof.Machine

/-! ## Ports -/

/-- The port with a role of R505: 1 ISOBUS, 2 guidance. -/
def rolePort (s : State) (role : Nat) : Option Nat := (List.range 4).find? fun n => fld s (F.VBS_PORT_CFG_ROLE n) = role

/-- The CAN port that carries a client's port. -/
def canPort (s : State) : Port → Option Nat
  | .guidance => rolePort s 2
  | .isobus => rolePort s 1
  | .supervisor => none

/-- A frame or unit is discarded and counted under UNMATCHED of a port, if there is such a port (R507). -/
def unmatched (port : Option Nat) (s : State) : State :=
  match port with
  | some p => bump (F.VBS_RX_CNT_UNMATCHED p) s
  | none => s

/-- A record of class 0x0F from the vehicle bus (R537). -/
def busEvent (ev : Nat) (sev : Severity) (detail : Nat) (s : State) : State :=
  report { unit := 0x95, cls := 0x0F, ev := ev, sev := sev, detail := detail } s

/-- The status of a port: bus-off or held off. -/
def portOff (s : State) (p : Nat) : Bool := fld s (F.VBS_PORT_STAT_STATE p) ≥ 2

/-! ## Filters (R507, R508, R514) -/

/-- A filter takes a frame. On the ISOBUS port it names a PGN and a sender's NAME; stream 32 is taken only there. -/
def filterTakes (s : State) (port ident : Nat) (x : CanFilter) : Bool :=
  let iso : Bool := decide (fld s (F.VBS_PORT_CFG_ROLE port) = 1)
  decide (x.port.val = port) &&
  (if iso then decide (pgnOf ident = x.pgn.toNat) && (x.name.any fun n => decide (nameAddr s n = some (saOf ident)))
   else decide (x.stream.val ≠ 32) && decide (ident &&& x.mask.toNat = x.ident.toNat &&& x.mask.toNat))

/-- The lowest-numbered filter that takes a frame. -/
def filterOf (s : State) (port ident : Nat) : Option CanFilter := s.image.filters.find? (filterTakes s port ident)

/-- A binding takes a frame (R526, R527): the request identifier on the guidance port, a NAME's Proprietary A message to this
device on the ISOBUS port. -/
def bindingTakes (s : State) (port ident : Nat) (b : Binding) : Bool :=
  match b.port with
  | .guidance => decide (rolePort s 2 = some port) && decide (ident = b.reqId.toNat)
  | .isobus => decide (rolePort s 1 = some port) && decide (pgnOf ident = 0xEF00)
      && decide (ident / 256 % 256 = fld s F.VBS_ISO_STAT_ADDR)
      && (b.name.any fun n => decide (nameAddr s n = some (saOf ident)))
  | .supervisor => false

/-- The transmit identifiers of a position, from GID_BASE: bundle parts and device status (R515). -/
def ownIds (s : State) (posB : Bool) : List Nat :=
  let g := fld s F.VBS_GUID_CFG_GID_BASE
  if posB then [g + 2, g + 3, g + 5] else [g, g + 1, g + 4]

/-- A frame that carries the recipient's heartbeat, or one that the pair watches (R521, R523). -/
def guidanceFunction (s : State) (ident : Nat) : Bool :=
  decide (ident = s.image.hbId.toNat) || ((ownIds s (!strapB s)).take 2).contains ident

/-- The PGNs that are device functions on the ISOBUS port (R512). -/
def isobusFunction (ident : Nat) : Bool := [0xE800, 0xEA00, 0xEB00, 0xEC00, 0xEE00].contains (pgnOf ident)

/-- A device function takes the frame. -/
def functionTakes (s : State) (port ident : Nat) : Bool :=
  match fld s (F.VBS_PORT_CFG_ROLE port) with
  | 1 => isobusFunction ident
  | 2 => guidanceFunction s ident
  | _ => false

/-- A machine-state sample that arrives now. -/
def deliverState (stream : Nat) (bytes : List Byte) (s : State) : State :=
  if receives s stream then
    deliverOwn stream ⟨s.time.count - latency s stream, s.time.count, bytes⟩ s
  else s

/-- A port in its MODE receives a format (R506): 0 classical, 1 CAN FD, 2 CAN XL. -/
def modeTakes (s : State) (p : Nat) : CanFormat → Bool
  | .classical => true
  | .fd => decide (1 ≤ fld s (F.VBS_PORT_CFG_MODE p))
  | .xl => decide (2 ≤ fld s (F.VBS_PORT_CFG_MODE p))

/-- CAN_FRAME_RX (R36, R506, R507, R522): remote frames are ignored; a full FIFO of the port holds the bus back (log 103); CANsec
frames count as unmatched; a frame with an identifier of this device that it did not send is ignored and a fault; a filter makes the
frame a sample; a binding or a device function takes it, and what it then does is that function's own command. -/
def execCanFrameRx (port : Fin 4) (f : CanFrame) (s : State) : Host.Outcome State Fault Refusal :=
  .next (live s fun s =>
    let p := port.val
    let id := f.ident.toNat
    if fld s (F.VBS_PORT_CFG_ROLE p) = 0 ∨ f.remote ∨ !modeTakes s p f.format then s
    else heldBack (16 + p) (fun s =>
      if f.format = .xl ∧ f.sec then unmatched (some p) s
      else if rolePort s 2 = some p ∧ (ownIds s (strapB s)).contains id then
        busEvent 5 .fault (id + p * 2 ^ 30) s
      else
        match filterOf s p id with
        | some x => deliverState x.stream.val (frameSample f) (bump (F.VBS_RX_CNT_ACCEPTED p) s)
        | none =>
          if (s.image.bindings.any (bindingTakes s p id)) || functionTakes s p id then bump (F.VBS_RX_CNT_ACCEPTED p) s
          else unmatched (some p) s) s)

/-! ## ISOBUS network management (R509 to R512) -/

/-- The device's NAME: the ECU instance is 1 in position B (R510). -/
def ownName (s : State) : BitVec 64 :=
  let n := s.image.ownName.toNat
  BitVec.ofNat 64 (n - bitsOf n 34 32 * 2 ^ 32 + (if strapB s then 2 ^ 32 else 0))

/-- A message on the ISOBUS port, while that port is on the bus. -/
def sendIso (pgn dst : Nat) (bytes : List Byte) (s : State) : State :=
  match rolePort s 1 with
  | some p => if portOff s p then s else send (.isobus pgn dst bytes) s
  | none => s

/-- The device has a claimed address. -/
def claimed (s : State) : Bool := fld s F.VBS_ISO_STAT_CLAIM = 2

/-- Address Claimed, or Cannot Claim from address 254: the NAME (R510, R511). -/
def sendClaim (s : State) : State := sendIso 0xEE00 255 (leBytes 8 (ownName s).toNat) s

/-- The device claims an address (R510). -/
def claim (sa : Nat) (s : State) : State :=
  sendClaim (setFld F.VBS_ISO_STAT_CLAIM 1 (setFld F.VBS_ISO_STAT_ADDR 254 { s with bus := { s.bus with claimSa := sa, claimAt := s.time.count } }))

/-- The preferred address: SA_PREF, plus 1 on B. -/
def prefSa (s : State) : Nat := s.image.saPref + (if strapB s then 1 else 0)

/-- ADDRESS_CLAIM_START (R510): when the ISOBUS port first leaves bus integration after cold start. -/
def execAddressClaimStart (s : State) : Host.Outcome State Fault Refusal :=
  .next (live s fun s =>
    if fld s F.VBS_ISO_STAT_CLAIM = 0 ∧ (rolePort s 1).isSome then claim (prefSa s) s else s)

/-- ADDRESS_CLAIM_TIMER (R510): 250 ms have passed without a contending claim. -/
def execAddressClaimTimer (s : State) : Host.Outcome State Fault Refusal :=
  .next (live s fun s =>
    if fld s F.VBS_ISO_STAT_CLAIM = 1 ∧ s.bus.claimAt + 6250000 ≤ s.time.count then
      busEvent 4 .note s.bus.claimSa (setFld F.VBS_ISO_STAT_CLAIM 2 (setFld F.VBS_ISO_STAT_ADDR s.bus.claimSa s))
    else s)

/-- The next free address from 128 to 247. -/
def freeSa (s : State) : Option Nat :=
  ((List.range 120).map (· + 128)).find? fun a => !s.bus.names.any fun e => e.2 = a

/-- The address is given up (R511): a self-configurable NAME claims the next free address, another sends Cannot Claim. -/
def giveUp (s : State) : State :=
  let s1 := bump F.VBS_ISO_STAT_CONTESTS (busEvent 3 .warning s.bus.claimSa s)
  let next := if s.image.ownName.getLsbD 63 then freeSa s1 else none
  match next with
  | some a => claim a s1
  | none => sendClaim (setFld F.VBS_ISO_STAT_CLAIM 3 (setFld F.VBS_ISO_STAT_ADDR 254 s1))

/-- ADDRESS_CLAIMED (R511, R514): the address of the NAME is tracked; a contending NAME of lower value takes the device's
address, one of higher value is answered with the device's own claim. -/
def execAddressClaimed (m : ClaimMsg) (s : State) : Host.Outcome State Fault Refusal :=
  .next (live s fun s =>
    let sa := m.sa.toNat
    let others := s.bus.names.filter fun e => e.1 ≠ m.name ∧ e.2 ≠ sa
    let s1 := { s with bus := { s.bus with names := if sa < 254 then others ++ [(m.name, sa)] else others } }
    let c := fld s1 F.VBS_ISO_STAT_CLAIM
    if (c = 1 ∨ c = 2) ∧ sa = s1.bus.claimSa ∧ m.name ≠ ownName s1 then
      if m.name.toNat < (ownName s1).toNat then giveUp s1 else sendClaim s1
    else s1)

/-! ## Device status (R525) -/

/-- Release pending: the first two conditions of R409 hold while the signal is asserted, and no acknowledgement has been
accepted. -/
def releasePending (s : State) : Bool := s.pwr.safeStop && s.safe.atRest && s.safe.acked.isNone

/-- SFLAGS. -/
def sflagsNow (s : State) : Nat :=
  let b := fun (x : Bool) (n : Nat) => if x then 2 ^ n else 0
  b s.pwr.safeStop 0 + b s.umb.holding 1 + b (redundancyLost s) 2 + b (releasePending s) 3 + b s.pwr.faultN 4
    + b (flag s F.VBS_HB_STAT_LAPSED) 5 + b (restarting s) 6

/-- The 16 bytes of device status. -/
def statusBytes (s : State) : List Byte :=
  let n := s.log.newest.getD (0, 0)
  leBytes 4 (if s.replay.active then s.replay.live else s.frame.num).toNat ++ leBytes 1 (pairCode s.twin.pair) ++ leBytes 1 (sflagsNow s) ++ leBytes 2 s.bus.lastFlags.toNat
    ++ leBytes 2 (fld s F.WDN_SAFE_STAT_HOLD_MS) ++ leBytes 2 n.1 ++ leBytes 1 n.2 ++ leBytes 3 0

/-- Bytes 0–1 and 4–9 of the status, broadcast on the ISOBUS port. -/
def sendIsoStatus (s : State) : State :=
  let b := statusBytes s
  if claimed s then sendIso s.image.statPgn.toNat 255 (b.take 2 ++ (b.drop 4).take 6) s else s

/-- Device status goes out on both segments, on the guidance segment after a bundle that is on the bus (R518). DESIGN CHOICE (log
128): its SDU type and acceptance field are a bundle's. -/
def sendStatus (s : State) : State :=
  let id := fld s F.VBS_GUID_CFG_GID_BASE + (if strapB s then 5 else 4)
  let s1 := sendIsoStatus { s with bus := { s.bus with sflags := sflagsNow s } }
  match rolePort s1 2 with
  | some p => if portOff s1 p then s1 else sendGuidance (.canXl id s1.image.sdt s1.frame.num (statusBytes s1)) s1
  | none => s1

/-- STAT_PERIOD_TIMER (R525). -/
def execStatPeriodTimer (s : State) : Host.Outcome State Fault Refusal := .next (live s sendStatus)

/-- A change of SFLAGS is sent within a frame period: at the edge that follows it. -/
def statusEdge (s : State) : State := if sflagsNow s = s.bus.sflags then s else sendStatus s

/-- REQUEST_PGN (R510, R512): Address Claimed is always answered once claiming has begun, STAT_PGN with a claimed address; a
destination-specific request for another PGN is answered with a negative acknowledgement. -/
def execRequestPgn (pgn : BitVec 18) (src dst : Byte) (s : State) : Host.Outcome State Fault Refusal :=
  .next (live s fun s =>
    let mine : Bool := claimed s && decide (dst.toNat = fld s F.VBS_ISO_STAT_ADDR)
    if dst ≠ 255 ∧ !mine then s
    else if pgn = 0xEE00 then (if fld s F.VBS_ISO_STAT_CLAIM = 0 then s else sendClaim s)
    else if pgn = s.image.statPgn then sendIsoStatus s
    else if mine then
      sendIso 0xE800 src.toNat ([1, 0xFF, 0xFF, 0xFF] ++ leBytes 1 src.toNat ++ leBytes 3 pgn.toNat) s
    else s)

/-! ## Transport protocol (R509, R530) -/

/-- The sessions without one sender's. -/
def dropTp (src : Nat) (s : State) : State := { s with bus := { s.bus with tp := s.bus.tp.filter fun x => x.src ≠ src } }

/-- A faulty session is aborted, with Connection Abort in connection mode, and counted as unmatched (R530). -/
def abortTp (t : TpSession) (s : State) : State :=
  let s1 := unmatched (rolePort s 1) (dropTp t.src s)
  if t.bam || !claimed s1 then s1 else sendIso 0xEC00 t.src ([255, 3, 0xFF, 0xFF, 0xFF] ++ leBytes 3 t.pgn) s1

/-- A session opens; an oversized message is not supported (R509). -/
def openTp (t : TpSession) (s : State) : State :=
  if t.size < 9 ∨ t.size > 1785 then abortTp t s
  else
    let s1 := dropTp t.src s
    let s2 := { s1 with bus := { s1.bus with tp := s1.bus.tp ++ [t] } }
    if t.bam then s2
    else sendIso 0xEC00 t.src ([17] ++ leBytes 1 ((t.size + 6) / 7) ++ [1, 0xFF, 0xFF] ++ leBytes 3 t.pgn) s2

/-- A message is complete at its last TP.DT: a filter makes it one sample of its stream, with the identifier that a single
frame of its PGN would carry, whose priority no rule gives; a binding takes a client unit. -/
def finishTp (t : TpSession) (s : State) : State :=
  let s1 := dropTp t.src s
  let s2 := if t.bam then s1
    else sendIso 0xEC00 t.src ([19] ++ leBytes 2 t.size ++ leBytes 1 ((t.size + 6) / 7) ++ [0xFF] ++ leBytes 3 t.pgn) s1
  match rolePort s2 1 with
  | none => s2
  | some p =>
    let dst := if t.bam then 255 else fld s2 F.VBS_ISO_STAT_ADDR
    let n := nextFree s2
    let base := (if t.pgn / 256 % 256 < 240 then t.pgn + dst else t.pgn) * 256 + t.src
    let ident := Config.freeValue n.1 % 8 * 2 ^ 26 + base
    match filterOf n.2 p base with
    | some x => deliverState x.stream.val (canSample ident true 0 0 0 0 t.bytes) (bump (F.VBS_RX_CNT_ACCEPTED p) n.2)
    | none =>
      if n.2.image.bindings.any (bindingTakes n.2 p base) then bump (F.VBS_RX_CNT_ACCEPTED p) n.2
      else unmatched (some p) n.2

/-- One TP.DT of a session: it must carry the next sequence number. -/
def dataTp (t : TpSession) (seq : Nat) (bytes : List Byte) (s : State) : State :=
  if seq ≠ t.next then abortTp t s
  else
    let all := (t.bytes ++ bytes.take 7).take t.size
    let t' := { t with next := t.next + 1, bytes := all }
    if all.length = t.size then finishTp t' s
    else { s with bus := { s.bus with tp := s.bus.tp.map fun x => if x.src = t.src then t' else x } }

/-- TP_MESSAGE (R509): BAM and connection mode; a connection needs a claimed address (R511). -/
def execTpMessage (src : Byte) (ev : TpEvent) (s : State) : Host.Outcome State Fault Refusal :=
  .next (live s fun s =>
    let from' := src.toNat
    match ev with
    | .bam size pgn => openTp ⟨from', true, pgn.toNat, size, 1, []⟩ s
    | .rts size pgn => if claimed s then openTp ⟨from', false, pgn.toNat, size, 1, []⟩ s else s
    | .abort => dropTp from' s
    | .data seq bytes =>
      match s.bus.tp.find? fun t => t.src = from' with
      | some t => dataTp t seq bytes s
      | none => unmatched (rolePort s 1) s)

/-- TP_SESSION_TIMEOUT (R530). -/
def execTpSessionTimeout (src : Byte) (s : State) : Host.Outcome State Fault Refusal :=
  .next (live s fun s =>
    match s.bus.tp.find? fun t => t.src = src.toNat with
    | some t => abortTp t s
    | none => s)

/-! ## The output stage (R516 to R520) -/

/-- The data field of a part: PART, SRC, BSEQ and its share of the bundle. -/
def partBytes (s : State) (x : OnBus) : List Byte :=
  leBytes 1 x.part ++ leBytes 1 s.boot.pos ++ leBytes 2 x.bseq
    ++ (if x.part = 0 then x.bundle.bytes.take 808 else x.bundle.bytes.drop 808)

/-- The part on the bus is put out, with FRAME in the acceptance field, while the guidance port is on the bus. -/
def putPart (s : State) : State :=
  match s.bus.onBus, rolePort s 2 with
  | some x, some p =>
    if portOff s p then s
    else
      let id := fld s F.VBS_GUID_CFG_GID_BASE + (if strapB s then 2 else 0) + x.part
      send (.canXl id s.image.sdt x.bundle.frame (partBytes s x)) s
  | _, _ => s

/-- A bundle begins. -/
def startBundle (b : TxBundle) (s : State) : State :=
  putPart { s with bus := { s.bus with onBus := some ⟨b, 0, s.bus.bseq⟩, waiting := none } }

/-- R518: a bundle is queued; a newer one replaces one that waits. -/
def queueBundle (b : TxBundle) (s : State) : State :=
  if s.bus.onBus.isNone then startBundle b s
  else
    let s1 := if s.bus.waiting.isSome then bump F.VBS_GUID_STAT_REPLACED s else s
    { s1 with bus := { s1.bus with waiting := some b } }

/-- The waiting bundle begins, if there is one; else the frames that waited for the bundle's end go out. -/
def nextBundle (s : State) : State :=
  match s.bus.waiting with
  | some b => startBundle b s
  | none => s.bus.guidOut.foldl (fun s o => send o s) { s with bus := { s.bus with onBus := none, guidOut := [] } }

/-- R519: the unfinished bundle is abandoned; the first abandonment in each second writes a warning. -/
def abandonBundle (x : OnBus) (s : State) : State :=
  let sec := s.time.count / 25000000
  let s1 := bump F.VBS_GUID_STAT_ABANDON s
  let s2 := if s1.bus.abandonSec = some sec then s1
    else busEvent 9 .warning x.bundle.frame.toNat { s1 with bus := { s1.bus with abandonSec := some sec } }
  nextBundle s2

/-- R513: Guidance System Command for a transmitted bundle, when ISO_GUID is 1. -/
def guidanceCommand (b : TxBundle) (s : State) : State :=
  if flag s F.VBS_STAT_CFG_ISO_GUID && claimed s && (rolePort s 1).isSome then send (.guidance b.curv b.steer) s else s

/-- BUNDLE_PART_TX_DONE (R518): part 1 follows part 0; after part 1 the bundle counts, and one that waits begins. A
successful transmission lowers TEC by one. -/
def execBundlePartTxDone (s : State) : Host.Outcome State Fault Refusal :=
  .next (live s fun s =>
    match s.bus.onBus, rolePort s 2 with
    | some x, some p =>
      let t := fld s (F.VBS_PORT_STAT_TEC p) - 1
      let s1 := setFld (F.VBS_PORT_STAT_TEC p) t s
      let s2 := if t < 128 ∧ fld s1 (F.VBS_PORT_STAT_STATE p) = 1 then setFld (F.VBS_PORT_STAT_STATE p) 0 s1 else s1
      if x.part = 0 then putPart { s2 with bus := { s2.bus with onBus := some { x with part := 1 } } }
      else
        nextBundle (guidanceCommand x.bundle (setFld F.VBS_GUID_STAT_BSEQ x.bseq
          { s2 with bus := { s2.bus with bseq := (s2.bus.bseq + 1) % 65536 } }))
    | _, _ => s)

/-- A transmit error raises TEC by 8; at 128 the port is error passive (ISO 11898-1, R530). -/
def countTec (p : Nat) (s : State) : State :=
  let s1 := bumpBy (F.VBS_PORT_STAT_TEC p) 8 s
  if fld s1 (F.VBS_PORT_STAT_TEC p) ≥ 128 ∧ fld s1 (F.VBS_PORT_STAT_STATE p) = 0 then
    busEvent 2 .warning p (setFld (F.VBS_PORT_STAT_STATE p) 1 s1)
  else s1

/-- CAN_TX_ERROR (R519, R530): the part is retransmitted, unless a newer bundle is queued: then the bundle is abandoned. -/
def execCanTxError (why : TxFault) (s : State) : Host.Outcome State Fault Refusal :=
  .next (live s fun s =>
    match s.bus.onBus, rolePort s 2 with
    | some x, some p =>
      let s1 := if why = .error then countTec p s else s
      if s1.bus.waiting.isSome then abandonBundle x s1 else putPart s1
    | _, _ => s)

/-! ## The other device's bundles (R454, R458, R521) -/

/-- This device transmits the bundle of a frame (R433, R520). -/
def transmitsFrame (s : State) (f : FrameNo) : Bool := transmits s && txFrame s f

/-- R458: the primary stops transmitting at once and enters MONITOR. -/
def standDown (s : State) : State :=
  woadEvent 13 .fault (frameN s)
    (setPair .monitor { s with twin := { s.twin with stoodDown := true, silent := false }
                               bus := { s.bus with onBus := none, waiting := none, guidOut := [] } })

/-- A frame whose bundle this device is transmitting (R458): that of the running frame, or one that is on the bus. -/
def transmitting (s : State) (f : FrameNo) : Bool :=
  transmitsFrame s f && (decide (f = s.frame.num) || s.bus.onBus.any fun x => decide (x.bundle.frame = f))

/-- What a watcher records of part 0: its frame; a bundle that is not HOLD or STOP is good, and follows a good one of the
transmit interval before it in the count of R409. -/
def observe (frame : FrameNo) (bytes : List Byte) (s : State) : State :=
  let good : Bool := decide (field (bytes.drop 4) 22 2 % 16 ≤ 1)
  let next : Bool := s.twin.bundleSeen && decide (frameDist s.twin.lastBundle frame ≤ max 1 (fld s F.VBS_GUID_CFG_TX_INT))
  let n := if !good then 0 else if next then s.safe.clean + 1 else 1
  let s1 := { s with twin := { s.twin with lastBundle := frame, bundleSeen := true
                                           goodAt := if good then s.time.count else s.twin.goodAt } }
  if follower s1 then
    { s1 with safe := { s1.safe with
        clean := n, atRest := decide (n ≥ fld s F.WDN_REL_CFG_CLEAN_FRAMES) && decide ((edgePose s).v = 0) } }
  else s1

/-- GUIDANCE_BUNDLE_RX (R454, R458, R521): part 0 of a bundle of the other device is seen. -/
def execGuidanceBundleRx (frame : FrameNo) (part0 : Bool) (bytes : List Byte) (s : State) : Host.Outcome State Fault Refusal :=
  .next (live s fun s =>
    if !part0 then s
    else
      let s1 := observe frame bytes s
      if (s1.twin.pair = .pairedA ∨ s1.twin.pair = .degradedA) ∧ transmitting s1 frame then
        standDown s1
      else s1)

/-! ## Recipient heartbeat (R523, R524) -/

/-- A lapse ends (R524): a note with its length in ms. -/
def endLapse (s : State) : State :=
  match s.bus.lapseFrom with
  | none => s
  | some t =>
    let ms := (s.time.count - t) / 25000
    let s1 := setSat F.VBS_HB_STAT_LAPSE_MAX (max ms (fld s F.VBS_HB_STAT_LAPSE_MAX)) s
    setFlag F.VBS_HB_STAT_LAPSED false (setFlag F.VBS_HB_STAT_OVER false
      (busEvent 8 .note (min ms 0xFFFF) { s1 with bus := { s1.bus with lapseFrom := none, overTold := false } }))

/-- HEARTBEAT_RX (R523): byte 0 is a counter; a heartbeat is valid when it differs from that of the previous valid one, or is
the first after cold start or a lapse; a skip is counted. -/
def execHeartbeatRx (m : HeartbeatMsg) (s : State) : Host.Outcome State Fault Refusal :=
  .next (live s fun s =>
    match m.data with
    | [] => s
    | b :: _ =>
      let c := b.toNat
      let old := if s.bus.lapseFrom.isSome then none else s.bus.hbCtr
      if old = some c then s
      else
        let skipped : Bool := old.any fun o => decide ((o + 1) % 256 ≠ c)
        let s1 := endLapse s
        setFld F.VBS_HB_STAT_LAST_CTR c { s1 with bus := { s1.bus with
          hbBase := if s1.frame.started then some s1.time.count else none
          hbCtr := some c
          hbSkips := s1.bus.hbSkips + (if skipped then 1 else 0) } })

/-- HB_TIMEOUT_EXPIRY (R524): the lapse begins, with a warning. -/
def execHbTimeoutExpiry (s : State) : Host.Outcome State Fault Refusal :=
  .next (live s fun s =>
    if s.bus.lapseFrom.isSome ∨ !s.bus.hbBase.any (fun t => decide (t + fld s F.VBS_GUID_CFG_HB_TIMEOUT * 25000 ≤ s.time.count)) then s
    else
      busEvent 6 .warning (frameN s)
        (setFlag F.VBS_HB_STAT_LAPSED true { s with bus := { s.bus with lapseFrom := some s.time.count } }))

/-- The lapse clock starts at the first edge after cold start (R524). -/
def lapseClock (s : State) : State :=
  if s.bus.hbBase.isSome then s
  else setFlag F.VBS_HB_STAT_LAPSED false { s with bus := { s.bus with hbBase := some s.time.count } }

/-- The lapse has passed HB_LAPSE (R524). -/
def lapseOver (s : State) : Bool :=
  s.bus.lapseFrom.any fun t => decide (s.time.count - t > fld s F.VBS_GUID_CFG_HB_LAPSE * 25000)

/-- At bundle assembly past the limit (R524): the frame is doubt, bit 8, with its record once per lapse. -/
def judgeLapse (s : State) : State :=
  if !lapseOver s then s
  else
    let s1 := setFlag F.VBS_HB_STAT_OVER true s
    if s1.bus.overTold then markDoubt 8 s1
    else doubtEvent 8 { unit := 0x95, cls := 0x0F, ev := 7, sev := .doubt, detail := frameN s }
      { s1 with bus := { s1.bus with overTold := true } }

/-! ## Client units and acknowledgements (R526 to R529) -/

/-- A release acknowledgement (R409, R529): accepted from ACK_CLIENT's binding, for a recent frame, while release is pending
and the running frame has no doubt (R531); any other is discarded and counted. -/
def takeAck (port : Port) (client : Nat) (bytes : List Byte) (s : State) : State :=
  let good : Bool := decide (client = fld s F.WDN_REL_CFG_ACK_CLIENT) && releasePending s && decide (s.frame.flags = 0) &&
    (parseAck client bytes).any fun f => decide (frameDist f s.frame.num ≤ 64)
  if good then { s with safe := { s.safe with acked := some s.frame.num } }
  else unmatched (canPort s port) { s with bus := { s.bus with badAcks := s.bus.badAcks + 1 } }

/-- A request unit that a bound client sends is taken by its kind (R342); a kind that R342 does not give is not permitted
(R343). -/
def takeUnit (port : Port) (client : Nat) (bytes : List Byte) (s : State) : State :=
  let q := { parseReq bytes with client := client }
  match unitKind bytes, q.sub with
  | 0, _ => takePathCheck port q s
  | 1, _ => takePlanToGoal port q (parseGoal bytes) s
  | 2, _ => takeCorridorWatch port q s
  | 3, 0 => takeStart port q (bytes.drop 16) s
  | 3, 1 => takeSuspend port q s
  | 3, 2 => takeResume port q s
  | 3, 3 => takeCancel port q s
  | 3, 4 => takeQuery port q s
  | 3, _ => fabric s (refuseReq port 3 q (if cliEn s client then 0x13 else 0x10))
  | k, _ => fabric s (refuseReq port k q (if cliEn s client then 0x11 else 0x10))

/-- The binding of a sender (R526). -/
def bindingOf (s : State) (ident : Nat) (name : Option (BitVec 64)) (port : Port) : Option Binding :=
  s.image.bindings.find? fun b =>
    decide (b.port = port) &&
    match port with
    | .guidance => decide (ident = b.reqId.toNat)
    | .isobus => b.name.any fun n => s.image.names[n.val]? = name && name.isSome
    | .supervisor => false

/-- CLIENT_UNIT (R526, R527): a unit of 16 bytes or more is a request, one of 8 a release acknowledgement, any other
unmatched. -/
def execClientUnit (ident : BitVec 29) (name : Option (BitVec 64)) (port : Port) (bytes : List Byte) (s : State) :
    Host.Outcome State Fault Refusal :=
  .next (live s fun s =>
    match bindingOf s ident.toNat name port with
    | none => unmatched (canPort s port) s
    | some b =>
      if bytes.length ≥ 16 then takeUnit port b.client bytes s
      else if bytes.length = 8 then takeAck port b.client bytes s
      else unmatched (canPort s port) s)

/-- RELEASE_ACK (R409, R529): client is the client of the sender's binding. The release follows at the emission of the frame,
once no doubt has come in it (R531). -/
def execReleaseAck (port : Port) (client : Nat) (bytes : List Byte) (s : State) : Host.Outcome State Fault Refusal :=
  .next (live s (takeAck port client bytes))

/-! ## Bus faults (R530) -/

/-- BUS_OFF (R530): recovery at once; after the fourth within 1 s the port is held off. -/
def execBusOff (port : Fin 4) (s : State) : Host.Outcome State Fault Refusal :=
  .next (live s fun s =>
    let p := port.val
    if fld s (F.VBS_PORT_CFG_ROLE p) = 0 then s else
    let recent := s.time.count :: ((s.bus.boff.getD p []).filter fun t => s.time.count < t + 25000000)
    let held : Bool := decide (recent.length ≥ 4)
    let s1 := bump (F.VBS_PORT_STAT_BOFF_CNT p) { s with bus := { s.bus with boff := modAt p (fun _ => recent) s.bus.boff } }
    busEvent 0 (if held then .fault else .warning) p (setFld (F.VBS_PORT_STAT_STATE p) (if held then 3 else 2) s1))

/-- A part that bus-off stopped: retransmitted, or abandoned if a newer bundle is queued (R519, R530). -/
def resumeTx (s : State) : State :=
  match s.bus.onBus with
  | none => s
  | some x => if s.bus.waiting.isSome then abandonBundle x s else putPart s

/-- BUS_OFF_RECOVERED (R530, R511): a note; the ISOBUS port claims again, the guidance port's output stage goes on. -/
def execBusOffRecovered (port : Fin 4) (s : State) : Host.Outcome State Fault Refusal :=
  .next (live s fun s =>
    let p := port.val
    if fld s (F.VBS_PORT_STAT_STATE p) ≠ 2 then s
    else
      let s1 := busEvent 1 .note p (setFld (F.VBS_PORT_STAT_STATE p) 0
        (setFld (F.VBS_PORT_STAT_TEC p) 0 (setFld (F.VBS_PORT_STAT_REC p) 0 s)))
      if rolePort s1 1 = some p then claim (prefSa s1) s1
      else if rolePort s1 2 = some p then resumeTx s1 else s1)

/-- BUS_OFF_HOLD_EXPIRY (R530): the hold-off ends and recovery begins. -/
def execBusOffHoldExpiry (port : Fin 4) (s : State) : Host.Outcome State Fault Refusal :=
  .next (live s fun s =>
    let p := port.val
    let due : Bool := decide (((s.bus.boff.getD p []).headD 0) + 25000000 ≤ s.time.count)
    if fld s (F.VBS_PORT_STAT_STATE p) = 3 ∧ fld s (F.VBS_PORT_CFG_ROLE p) ≠ 0 ∧ due then
      setFld (F.VBS_PORT_STAT_STATE p) 2 s
    else s)

/-! ## Ochre (R532 to R536) -/

/-- A datagram (R534). -/
def ochreBytes (s : State) (rs : List FaultRec) (dflags : Nat) : List Byte :=
  withCrc ([0x4F, 0x43, 0x48, 0x52, 0x01] ++ leBytes 1 (fld s F.OCH_CFG_NODE) ++ leBytes 1 rs.length ++ leBytes 1 dflags
    ++ leBytes 2 s.och.dseq ++ leBytes 2 0 ++ leBytes 4 (frameN s) ++ rs.flatMap recBytes)

/-- A datagram goes out: DSEQ counts it, and bit 1 of DFLAGS says that records were dropped since the last. -/
def sendOchre (rs : List FaultRec) (resend : Bool) (s : State) : State :=
  let drop := fld s F.WDN_FLOG_STAT_DROP
  let fl := (if resend then 1 else 0) + (if drop ≠ s.och.dropSeen then 2 else 0)
  send (.ochre (ochreBytes s rs fl)) (setFld F.OCH_TX_CNT_DSEQ s.och.dseq
    { s with och := { s.och with lastAt := some s.time.count, dseq := (s.och.dseq + 1) % 65536, dropSeen := drop } })

/-- The ticks since the port's last datagram, or since its start (R535). -/
def ochreQuiet (s : State) : Nat := s.time.count - s.och.lastAt.getD s.och.startedAt

/-- OCHRE_DATAGRAM (R535): up to 40 records, oldest first, at least 2 ms after the last datagram. -/
def execOchreDatagram (s : State) : Host.Outcome State Fault Refusal :=
  .next (live s fun s =>
    match s.log.ochre with
    | [] => s
    | rs => if s.och.lastAt.isSome ∧ ochreQuiet s < 50000 then s else sendOchre (rs.take 40) false { s with log := { s.log with ochre := rs.drop 40 } })

/-- OCHRE_KEEPALIVE (R535): 100 ms without a datagram: one with COUNT 0. -/
def execOchreKeepalive (s : State) : Host.Outcome State Fault Refusal :=
  .next (live s fun s => if ochreQuiet s < 2500000 then s else sendOchre [] false s)

/-- The records of the Indigo log from a SEQ onward, oldest first (R536). -/
def resendFrom (s : State) (seq : Nat) : List FaultRec :=
  match s.ind.log with
  | [] => []
  | n :: _ =>
    let span := (n.seq + 256 - seq % 256) % 256
    (s.ind.log.filter fun r => (r.seq + 256 - seq % 256) % 256 ≤ span).reverse

/-- Records sent in datagrams of 40. -/
def sendChunks : Nat → List FaultRec → State → State
  | 0, _, s => s
  | n + 1, rs, s => if rs.isEmpty then s else sendChunks n (rs.drop 40) (sendOchre (rs.take 40) true s)

/-- A datagram is a resend request to this device's node (R534, R536): MAGIC, VERSION, NODE, COUNT 0, DFLAGS bit 2, CRC. -/
def resendAsked (s : State) (b : List Byte) : Bool :=
  decide (b.length = 20 ∧ fieldAt 0 4 b = 0x5248434F ∧ fieldAt 4 1 b = 1 ∧ fieldAt 5 1 b = fld s F.OCH_CFG_NODE ∧ fieldAt 6 1 b = 0
    ∧ (fieldAt 7 1 b).testBit 2 ∧ fieldAt 16 4 b = crc32 (b.take 16))

/-- OCHRE_RESEND_REQUEST (R536): at most one request in 100 ms is served. -/
def execOchreResendRequest (b : List Byte) (s : State) : Host.Outcome State Fault Refusal :=
  .next (live s fun s =>
    if !resendAsked s b || s.och.resendAt.any fun t => decide (s.time.count < t + 2500000) then s
    else
      bump F.OCH_TX_CNT_RESEND (sendChunks 2 (resendFrom s (fieldAt 12 1 b))
        { s with och := { s.och with resendAt := some s.time.count } }))

/-- PLCA_BEACON_LOST (R537). -/
def execPlcaBeaconLost (s : State) : Host.Outcome State Fault Refusal :=
  .next (live s fun s =>
    if flag s F.OCH_CFG_PLCA_EN then
      report { unit := 0x96, cls := 0x0F, ev := 10, sev := .warning }
        (setFlag F.OCH_STAT_BEACON_LOST true (setFlag F.OCH_STAT_PLCA_ACTIVE false s))
    else s)

/-- PLCA_BEACON_RETURNED (R537). -/
def execPlcaBeaconReturned (s : State) : Host.Outcome State Fault Refusal :=
  .next (live s fun s =>
    if flag s F.OCH_CFG_PLCA_EN then
      report { unit := 0x96, cls := 0x0F, ev := 11, sev := .note } (setFlag F.OCH_STAT_PLCA_ACTIVE true s)
    else s)

end Sys2Proof.Machine
end

