-- ==== Sys2Proof/Machine/Flags.lean ====
section
/-! DEFINITION. Machine/Flags.lean: the flag words that the device computes: the KIND and REASON of a bundle and its STATUS
(R66, R68, R391, R392), the internal doubts of R411 and the masks of the telemetry record (R69). DOUBT_FLAGS itself is set by
markDoubt (Ops), SFLAGS by sflagsNow (Bus) and FLAGS of a report by attestFlags (Security). -/

namespace Sys2Proof.Machine

/-- KIND as STATUS codes it. -/
def kindCode : BundleKind → Nat
  | .refined => 0 | .unrefined => 1 | .hold => 2 | .stop => 3

/-- KIND of a bundle that carries a record. -/
def kindOf : Record → BundleKind
  | .refined _ => .refined
  | .candidate _ _ => .unrefined

/-- REASON of a withheld frame, and KIND with it (R68, R391, R392): RECIPIENT_LAPSE past the lapse limit, which is STOP, then
RESTART, DOUBT and NO_FREE. -/
def withheldAs (s : State) : BundleKind × Nat :=
  if lapseOver s then (.stop, 4)
  else if restarting s then (.hold, 3)
  else if doubted s then (.hold, 1)
  else (.hold, 2)

/-- The numbers that Select derived for a domain (R266), or those of the map where the select phase did not end. -/
def domNumbers (s : State) (d : Nat) : SelNumbers := (s.sel.numbers.find? fun n => n.dom = d).getD (numbersOf s d)

/-- TRUNCATED: the truncation point is below the candidates proposed (R54, R66). -/
def truncated (s : State) : Bool := decide ((domNumbers s 0).truncPoint < (domNumbers s 0).proposed)

/-- STATUS (R66). -/
def statusWord (s : State) (kind : BundleKind) (reason : Nat) (twinSource : Bool) : Nat :=
  let b := fun (x : Bool) (n : Nat) => if x then 2 ^ n else 0
  kindCode kind + reason * 2 ^ 8 + b (redundancyLost s) 12 + b twinSource 13 + b (truncated s) 14
    + b (flag s F.VBS_HB_STAT_LAPSED) 15

/-- DOUBT_FLAGS bits 0, 2, 3, 4 and 5: the doubts that arise in the fabric (R411). -/
def internalDoubt (s : State) : Bool := s.frame.flags &&& 0x003D#16 ≠ 0

/-- QUAR_MASK (R69): the sweep tiles quarantined in the frame. DESIGN CHOICE (log 116): also those that are still out of service
from earlier frames, as they stand when the record is written. -/
def quarMask (s : State) : Nat :=
  ((List.range 64).map fun u => if outOfService s u || s.frame.quarantined.contains u then 2 ^ u else 0).sum

/-- POOL_TILES (R69): the sweep tiles of a domain in its work pool. -/
def poolTiles (s : State) (d : Nat) : Nat := ((List.range 64).filter fun u => inPool s u && unitDomain s u = d).length

end Sys2Proof.Machine
end

