-- ==== Sys2Proof/Machine/Start.lean ====
section
/-! DEFINITION. Machine/Start.lean: the Mevar image as the flashes hold it (R542 to R550), model sections (R487, R488) and the cold
start (R539, R548 to R558, R572, R573). What the boot reads from outside the die is the operand of POR_RELEASE. -/

namespace Sys2Proof.Machine

/-! ## Flash and image layout (R540 to R546) -/

/-- A byte that a flash yields. PRESUMED (log 129): a byte that nothing has programmed reads as 0xFF. -/
def flashByte (f : FlashRead) (a : Nat) : Byte := tabGet 0xFF f.cells a

/-- The bytes of an image, by their offset in it. -/
abbrev ImgSrc := Nat → Byte

/-- The image on one flash, or in 4 KiB segments on both (R542). -/
def imgSrc (striped : Bool) (f other : FlashRead) : ImgSrc := fun o =>
  if striped then flashByte (if o / 4096 % 2 = 0 then f else other) (4096 * (o / 4096 / 2) + o % 4096) else flashByte f o

/-- A part of an image. -/
def srcBytes (src : ImgSrc) (off len : Nat) : List Byte := (List.range len).map fun k => src (off + k)

/-- A little-endian field of an image (R11). -/
def srcField (src : ImgSrc) (off len : Nat) : Nat := ofLe (srcBytes src off len)

/-- The header (R544), with the signature and the certificate chain (R543); signed are the bytes that SIG covers. -/
structure ImgHeader where
  magic : List Byte
  version : Nat
  prot : Nat
  signer : Nat
  imgLen : Nat
  secCount : Nat
  fwFloor : Nat
  minRom : Nat
  pub : List Byte
  sig : List Byte
  chain : List Byte
  signed : List Byte
deriving DecidableEq, Repr

/-- The header of an image. -/
def headerOf (src : ImgSrc) : ImgHeader :=
  let n := srcField src 16 2
  { magic := srcBytes src 0 4, version := srcField src 4 2, prot := srcField src 6 1, signer := srcField src 7 1
    imgLen := srcField src 8 8, secCount := n, fwFloor := srcField src 18 1, minRom := srcField src 20 4
    pub := srcBytes src 32 96, sig := srcBytes src 0x2000 96, chain := srcBytes src 0x2062 (srcField src 0x2060 2)
    signed := srcBytes src 0 (128 + 64 * n) }

/-- An entry of the section table (R545), with its index. -/
structure ImgSection where
  index : Nat
  stype : Nat
  encrypted : Bool
  required : Bool
  selfSigned : Bool
  model : Nat
  off : Nat
  len : Nat
  digest : BitVec 256
deriving DecidableEq, Repr

/-- Entry i of the section table. -/
def sectionOf (src : ImgSrc) (i : Nat) : ImgSection :=
  let a := 128 + 64 * i
  let f := srcField src (a + 1) 1
  { index := i, stype := srcField src a 1, encrypted := f.testBit 0, required := f.testBit 1, selfSigned := f.testBit 2
    model := srcField src (a + 2) 2, off := srcField src (a + 8) 8, len := srcField src (a + 16) 8
    digest := BitVec.ofNat 256 (srcField src (a + 24) 32) }

/-- The section table. -/
def sectionsOf (src : ImgSrc) : List ImgSection := (List.range (headerOf src).secCount).map (sectionOf src)

/-- The first section of a type. -/
def sectionOfType (src : ImgSrc) (t : Nat) : Option ImgSection := (sectionsOf src).find? fun x => x.stype = t

/-- The section types of which an image needs one (R546). -/
def requiredTypes : List Nat := [1, 2, 3, 4, 5, 6, 8, 9]

/-- The bytes of a section. -/
def sectionBytes (src : ImgSrc) (x : ImgSection) : List Byte := srcBytes src x.off x.len

/-- A section is required: by its type, or because Scesify marks it so (R546, R547). -/
def sectionRequired (x : ImgSection) : Bool := requiredTypes.contains x.stype || x.required

/-! ## What the ROM accepts (R546, R548, R549, R554) -/

/-- The signer is accepted in the life-cycle state (R548). -/
def signerOk (fu : FuseSt) (h : ImgHeader) : Bool :=
  let d := Config.sha3 h.pub
  match fu.lc with
  | 0 => h.signer = 1 && Config.chainOk (Config.romKeyDigest 0) h.chain h.pub
  | 1 => h.signer = 0 && (!fu.ownerSet || d = fu.ownerDigest)
  | 2 => h.signer = 0 && d = fu.ownerDigest
  | 3 => h.signer = 2 && d = Config.romKeyDigest 2
  | _ => false

/-- The firmware section is accepted (R549). -/
def firmwareOk (fu : FuseSt) (bs : List Byte) : Bool :=
  Config.fwSigned (Config.romKeyDigest 0) bs && fu.fwFloor ≤ Config.fwSecurity bs && Config.fwSecurity bs ≤ 64

/-- Header, section table, signature and firmware section pass the checks of step 3 (R546, R548, R549, R554). -/
def imageValid (fu : FuseSt) (src : ImgSrc) : Bool :=
  let h := headerOf src
  let ts := (sectionsOf src).map (·.stype)
  h.magic = [0x4D, 0x45, 0x56, 0x52] && h.version = 1 && 1 ≤ h.secCount && h.secCount ≤ 64
    && ts.all (fun t => 1 ≤ t && t ≤ 10) && requiredTypes.all (fun t => ts.contains t)
    && h.minRom ≤ Config.romVersion.toNat && signerOk fu h && Config.ecdsaOk h.pub h.signed h.sig
    && ((sectionOfType src 1).map fun x => firmwareOk fu (sectionBytes src x)).getD false

/-- The source of the image that the boot takes, and the other flash as a source, with whether XSPI_1 was taken (R542, R554); none
where no valid image is found. -/
def bootSource (e : BootEnv) (fu : FuseSt) : Option (ImgSrc × ImgSrc × Bool) :=
  let a := imgSrc e.bootSel e.flash0 e.flash1
  let b := imgSrc false e.flash1 e.flash0
  if imageValid fu a then some (a, b, false)
  else if !e.bootSel && imageValid fu b then some (b, a, true)
  else none

/-! ## Sections (R487, R488, R550, R554) -/

/-- The section's digest is right; a self-signed section has none (R545). -/
def digestGood (src : ImgSrc) (x : ImgSection) : Bool := x.selfSigned || Config.sha3 (sectionBytes src x) = x.digest

/-- Where a section is read from (R554): from the image's source, or, in primary and backup, from the other flash; none where it is
bad there too. -/
def goodSource (striped : Bool) (src other : ImgSrc) (x : ImgSection) : Option ImgSrc :=
  if digestGood src x then some src else if !striped && digestGood other x then some other else none

/-- The bytes of a list with others in place of those from an offset on. -/
def splice (off : Nat) (bs l : List Byte) : List Byte := l.take off ++ bs ++ l.drop (off + bs.length)

/-- The image copy (R551): the image as read, with the sections that were read again. -/
def imageCopy (striped : Bool) (src other : ImgSrc) : List Byte :=
  (sectionsOf src).foldl (fun l x =>
    match goodSource striped src other x with
    | some s => if digestGood src x then l else splice x.off (sectionBytes s x) l
    | none => l) (srcBytes src 0 (headerOf src).imgLen)

/-- The Kermes section without its signature where its length and signature are right (R550). -/
def kermesOf (src : ImgSrc) (owner : List Byte) (x : ImgSection) : Option (List Byte) :=
  let n := srcField src x.off 8
  let all := srcBytes src x.off n
  if n ≤ x.len && 104 ≤ n && Config.ecdsaOk owner (all.take (n - 96)) (all.drop (n - 96)) then some all else none

/-- The wrap entry for a device (R487): the encrypted content key with its tag, and the ephemeral key. -/
def wrapEntry (deviceId : BitVec 128) (bs : List Byte) : Option (List Byte × List Byte) :=
  let ix := (List.range (fieldAt 1 1 bs)).find? fun i => fieldAt (8 + 160 * i) 16 bs = deviceId.toNat
  ix.map fun i => (part (8 + 160 * i + 112) 48 bs, part (8 + 160 * i + 16) 96 bs)

/-- The content key of an encrypted model section (R487). -/
def contentKey (deviceId : BitVec 128) (model : Nat) (w : List Byte × List Byte) : Option (List Byte) :=
  let info := ([0x4D, 0x4F, 0x44, 0x45, 0x4C] : List Byte) ++ leBytes 1 model
  let kek := leBytes 32 (Config.hkdf (Config.ecdhDevice deviceId w.2) (leBytes 16 deviceId.toNat) info)
  Config.gcmOpen kek (padTo 12 []) [] w.1

/-- The segments of a model section's body, opened in order (R487): the weights, or the number of the first segment whose tag
fails. -/
def openSegments (key salt : List Byte) : Nat → List (List Byte) → List Byte → Nat ⊕ List Byte
  | _, [], acc => .inr acc
  | i, g :: gs, acc =>
    match Config.gcmOpen key (salt ++ leBytes 8 i) [] g with
    | some p => openSegments key salt (i + 1) gs (acc ++ p)
    | none => .inl i

/-- Why a model section was not loaded (R488, R503): debug is unlocked, no entry matched, the wrapped key failed its tag, or a
segment did. -/
inductive LoadFailure where
  | unlocked
  | noEntry
  | keyTag
  | segment (n : Nat)
deriving DecidableEq, Repr

/-- The weights of a model section (R175, R487, R488). -/
def unwrapModel (fu : FuseSt) (encrypted : Bool) (bs : List Byte) : LoadFailure ⊕ List Byte :=
  let n := fieldAt 1 1 bs
  if !encrypted then .inr bs
  else if !(fu.dbgLock && !fu.kill) then .inl .unlocked
  else if n = 0 ∨ n > 64 then .inl .noEntry
  else
    match wrapEntry fu.deviceId bs with
    | none => .inl .noEntry
    | some w =>
      match contentKey fu.deviceId (fieldAt 0 1 bs) w with
      | none => .inl .keyTag
      | some k =>
        let body := bs.drop (8 + 160 * n)
        match openSegments k (part 4 4 bs) 0 (if body = [] then [] else chunks 4112 (body.length + 1) body) [] with
        | .inl i => .inl (.segment i)
        | .inr w => .inr w

/-! ## The image in force -/

/-- The image that the start works from: the values of its sections, with what header and section table say (R441, R501, R544 to
R550). Packs are there only with a valid Kermes section. -/
def builtImage (e : BootEnv) (x : ImgSrc × ImgSrc × Bool) : Image :=
  let src := x.1
  let h := headerOf src
  let fw := ((sectionOfType src 1).map (sectionBytes src)).getD []
  let ker := (sectionOfType src 10).bind (kermesOf src h.pub)
  { e.image with
    prot := Fin.ofNat 4 h.prot, digest := Config.sha3 (imageCopy e.bootSel src x.2.1), fwFloor := h.fwFloor
    ownerDigest := Config.sha3 h.pub, fwVersion := Config.fwVersion fw, fwDigest := Config.sha3 fw, fwSecurity := Config.fwSecurity fw
    kermesOk := ker.isSome, kermesDigest := Config.sha3 (ker.getD []), packs := if ker.isSome then e.image.packs else []
    models := e.image.models.filterMap fun m =>
      ((sectionsOf src).find? fun y => y.stype = 7 && y.model = m.model.val).map fun y =>
        { m with secIndex := y.index, required := y.required } }

/-! ## The state that a cold start begins from -/

/-- The registers of the Indigo block, which stand on VBAT_AO and keep their values (R604 to R606, R619). -/
def indigoRegs (s : State) : Tab Nat := s.regs.filter fun x => x.1 / 0x10000 = 0xF0

/-- The time base at cold start: Indigo's count, or 0 where that is not valid (R104). -/
def startCount (s : State) : Tick := if flag s F.IND_STAT_TVALID then s.ind.count else 0

/-- The machine at the release of power-on reset: everything but Indigo, the fuses and the pins at its reset value, with the
image that the flash holds; the start takes e.ticks (R104, R148, R175, R384, R571, R607). -/
def coldState (e : BootEnv) (s : State) : State :=
  let t := startCount s
  let img := ((bootSource e s.fuse).map (builtImage e)).getD Image.blank
  let layers := img.layers.map fun l => (l.1.val, l.2)
  { State.reset with
    time := { TimeSt.initial with count := t + e.ticks }
    pwr := { s.pwr with safeStop := true, faultN := false, hbm2x := false, avsMissRun := 0, vcoreTarget := none }
    ind := { s.ind with wdogKick := t }
    fuse := s.fuse, image := img, regs := indigoRegs s
    wld := { WldSt.initial with koLive := img.keepOut, koStaged := img.keepOut, pose := e.pose, layers := layers }
    held := { HeldSt.initial with keepOut := img.keepOut, layers := layers }
    mem := { MemSt.initial with scrub := [(t + e.ticks, false), (t + e.ticks, false)] }
    och := { OchSt.initial with startedAt := t }
    boot := { BootSt.initial with bootSel := e.bootSel, tweaks := e.tweaks
                                  pos := if e.twinPos1 then 1 else if e.twinPos0 then 0 else 2 }
    sent := s.sent, free := s.free, pending := s.pending }

/-- The registers that show fuses, straps, Indigo and the image (R183, R504, R538, R573). -/
def showStart (e : BootEnv) (s : State) : State :=
  let s1 := setFld F.WDN_BOOT_STAT_BOOT_SEL (bit e.bootSel)
    (setFld F.WDN_BOOT_STAT_TWIN_POS (2 * bit e.twinPos1 + bit e.twinPos0)
      (setFld F.WDN_BOOT_TIME_FIRST_MS e.firstMs (setFld F.WDN_BOOT_TIME_LOAD_MS e.loadMs
        (setFlag F.WDN_SAFE_STAT_SAFE_STOP true (showTamper (showFuses s))))))
  let s2 := (List.range 8).foldl (fun s n => setFld (F.WDN_IMG_DIGEST_DIGEST n) (s.image.digest.toNat / 2 ^ (32 * n)) s) s1
  let s3 := if s2.boot.pos = 1 then setFld F.OCH_CFG_NODE (fld s2 F.OCH_CFG_NODE + 1) s2 else s2
  let s4 := (List.range 4).foldl (fun s p =>
    if fld s (F.VBS_PORT_CFG_ROLE p) = 0 then setFld (F.VBS_PORT_STAT_STATE p) 3 s else s) s3
  setFlag F.INF_MODEL_STAT_DBG_LOCK (debugLocked s4)
    (setFld F.WOD_PAIR_STAT_POS s4.boot.pos (setFlag F.WDN_FLOG_STAT_HBM_OK s4.log.hbmOk (setFld F.SUP_LC_NONCE_NONCE e.nonce.toNat s4)))

/-! ## Boot halts and inactive domains (R554 to R556) -/

/-- A boot halt (R555): FAULT_N, a fatal record, and nothing further until the next cold start. fw says that the Warden
firmware runs, so that Ochre gets the record too. -/
def bootHalt (cause sec : Nat) (fw : Bool) (s : State) : State :=
  let ev : Event := { unit := 0x90, cls := 0x10, ev := 0, sev := .fatal, detail := cause + sec * 2 ^ 8 }
  let s1 := if fw then report ev s else reportIndigo ev s
  haltDevice (assertFaultN s1)

/-- A step of the start is complete (STEP of WDN_BOOT_STAT). -/
def bootStep (n : Nat) (s : State) : State := setFld F.WDN_BOOT_STAT_STEP n s

/-- A domain becomes inactive (R556): cause 1 an HBM channel, 2 a model. -/
def makeInactive (d : Fin 16) (cause : Nat) (s : State) : State :=
  if s.boot.inactive.contains d then s
  else
    report { unit := 0x90, cls := 0x10, ev := 3, sev := .warning, detail := d.val + cause * 2 ^ 8 }
      (setMaskBit F.WDN_BOOT_STAT_INACTIVE d.val true { s with boot := { s.boot with inactive := d :: s.boot.inactive } })

/-- The channels that fail training. -/
def badChannels (e : BootEnv) : List Nat := (List.range 16).filter fun n => !e.hbmChannels.getLsbD n

/-- A start that halts, or goes on. -/
abbrev BootRun := State ⊕ State

/-- The next part of a start, unless it has halted. -/
def andThen (x : BootRun) (f : State → BootRun) : BootRun :=
  match x with
  | .inl s => .inl s
  | .inr s => f s

/-- Steps 1 and 2: straps and HBM training (R539, R554). -/
def bootPower (e : BootEnv) (s : State) : BootRun :=
  if e.twinPos1 && e.twinPos0 then .inl (bootHalt 1 0 false s)
  else if (badChannels e).any fun c => channelDomain s c = 0 then .inl (bootHalt 2 0 false (bootStep 0 s))
  else .inr (setFld F.MEM_HBM_STAT_CHAN_OK e.hbmChannels.toNat (bootStep 2 s))

/-- Step 3: the header and the firmware, from XSPI_0 or, in primary and backup, from XSPI_1 (R548, R549, R554); in SCRAPPED no signer
is accepted. -/
def bootHeader (e : BootEnv) (s : State) : BootRun :=
  if s.fuse.lc = 4 then .inl (bootHalt 7 0 false s)
  else
    match bootSource e s.fuse with
    | none => .inl (bootHalt 3 0 false s)
    | some (_, _, false) => .inr (bootStep 3 s)
    | some (_, _, true) =>
      .inr (bootStep 3 (setFlag F.WDN_BOOT_STAT_BACKUP true (report { unit := 0x90, cls := 0x10, ev := 1, sev := .warning } s)))

/-- A section read again from the other flash (R554). -/
def reread (n : Nat) (restart : Bool) (s : State) : State :=
  bump F.WDN_BOOT_STAT_REREAD
    (report { unit := 0x90, cls := 0x10, ev := 2, sev := .warning, detail := n + (if restart then 2 ^ 8 else 0) } s)

/-- The model of a section. -/
def modelOfSection (s : State) (x : ImgSection) : Option ModelSec :=
  if x.stype = 7 then s.image.models.find? fun m => m.secIndex = x.index else none

/-- A model whose section cannot be used (R554): a required one halts the start; of another, its domain is inactive, unless that is
domain 0 (R556). -/
def loseModel (cause : Nat) (x : ImgSection) (s : State) : BootRun :=
  match modelOfSection s x with
  | none => if sectionRequired x then .inl (bootHalt cause x.index true s) else .inr s
  | some m =>
    if sectionRequired x || m.domain = 0 then .inl (bootHalt cause x.index true s) else .inr (makeInactive m.domain 2 s)

/-- One section (R554): its digest. -/
def bootSection (striped : Bool) (src other : ImgSrc) (r : BootRun) (x : ImgSection) : BootRun :=
  andThen r fun s =>
    if digestGood src x then .inr s
    else
      let s1 := if striped then s else setFlag F.WDN_BOOT_STAT_BACKUP true (reread x.index false s)
      match goodSource striped src other x with
      | some _ => .inr s1
      | none => loseModel 5 x s1

/-- DETAIL 39:8 of a model section that is not loaded (R503), a free value where no segment failed. -/
def loadDetail (f : LoadFailure) (s : State) : Nat × State :=
  match f with
  | .noEntry => (0xFFFFFFFF, s)
  | .segment n => (n % 2 ^ 32, s)
  | _ =>
    let n := nextFree s
    (Config.freeValue n.1 % 2 ^ 32, n.2)

/-- One model section (R175, R487, R488, R554): its weights go to the model's region of HBM. -/
def bootModel (striped : Bool) (src other : ImgSrc) (r : BootRun) (x : ImgSection) : BootRun :=
  andThen r fun s =>
    match modelOfSection s x, goodSource striped src other x with
    | some m, some from_ =>
      match unwrapModel s.fuse x.encrypted (sectionBytes from_ x) with
      | .inr w => .inr (writeBytes false (w.length + 1) m.hbmBase w { s with boot := { s.boot with loaded := s.boot.loaded ++ [m.model.val] } })
      | .inl f =>
        let n := loadDetail f s
        loseModel 6 x (report { unit := 0x90, cls := 0x0E, ev := 6, sev := .fault, detail := m.model.val + n.1 * 2 ^ 8 } n.2)
    | _, _ => .inr s

/-- Step 4: the image copy, sections, models, PROT and the Kermes section (R488, R550, R551, R554). -/
def bootLoad (e : BootEnv) (s : State) : BootRun :=
  match bootSource e s.fuse with
  | none => .inl s
  | some (src, other, _) =>
    let xs := sectionsOf src
    let copy := imageCopy e.bootSel src other
    let x1 := xs.foldl (bootSection e.bootSel src other) (.inr (writeBytes false (copy.length + 1) s.image.copyAt copy s))
    let x2 := xs.foldl (bootModel e.bootSel src other) x1
    andThen x2 fun s =>
      if s.fuse.lc = 2 ∧ s.image.prot.val ≠ s.fuse.prot then .inl (bootHalt 4 0 true s)
      else
        let s1 := if (sectionOfType src 10).isNone || s.image.kermesOk then s
          else report { unit := 0x90, cls := 0x10, ev := 7, sev := .warning } s
        let s2 := (badChannels e).foldl (fun s c => makeInactive (Fin.ofNat 16 (channelDomain s c)) 1 s) s1
        .inr (bootStep 4 (setFld F.INF_MODEL_STAT_MODELS s2.boot.loaded.length s2))

/-- A blank OWNER_DIGEST takes the owner key of the first image loaded in DEVELOP (R472, R548). -/
def takeOwner (s : State) : State :=
  if s.fuse.lc = 1 ∧ ¬ s.fuse.ownerSet then
    showFuses { s with fuse := { s.fuse with ownerSet := true, ownerDigest := s.image.ownerDigest } }
  else s

/-! ## Start-up tests and warm-up (R412, R551, R552) -/

/-- Start-up tests, step 4 of R412: a failing tile or lane stays out of service; Select is faulty (R281). -/
def startTests (tiles : List TileId) (infs : List (Fin 8)) (select : Bool) (lanes : List (Fin 4)) (s : State) : State :=
  let us := tiles.map tileUnit ++ infs.map (fun c => 64 + c.val) ++ lanes.map (fun l => 72 + l.val)
  let s1 := us.foldl (fun s u => takeOut true u s) s
  showInfService { s1 with sel := { s1.sel with faulty := select } }

/-- The warm-up (step 7): fused are the streams that had slices fused; an essential lidar stream without one is reported as
lost. -/
def warmUp (fused : List (Fin 36)) (s : State) : State :=
  ((List.range 8).map (· + 16)).foldl (fun s n =>
    if streamOn s n && !nonEssential s n && !(fused.any fun x => x.val = n) then linkLost n s else s) s

/-- The streams that the image enables begin their test periods at the release of power-on reset (R95), and the GNSS receivers are
set up (R85). -/
def startStreams (t : Tick) (s : State) : State :=
  sendSetup ((List.range 36).foldl (fun s n => if streamOn s n then enableStream n t none s else s) s)

/-- Steps 5 to 7 of a start that has not halted; the next edge is that of frame 0. t is the tick of the release. -/
def bootFinish (e : BootEnv) (t : Tick) (s : State) : State :=
  let s1 := startTests e.failTiles e.failInf e.failSelect e.failLanes (bootStep 5 (refreshResident (startStreams t (takeOwner s))))
  let s2 := if e.failOther then { s1 with safe := { s1.safe with injectFail := true } } else s1
  let s3 := warmUp e.lidarFused { s2 with
    pwr := { s2.pwr with phase := .running }
    boot := { s2.boot with frameZero := true } }
  let solo : Bool := s3.boot.pos = 2
  let s4 := setPair (if solo then .solo else .forming) { s3 with twin := { s3.twin with primary := s3.boot.pos ≠ 1 } }
  let s5 := if flag s4 F.IND_STAT_TVALID then s4 else report { unit := 0x98, cls := 0x11, ev := 8, sev := .warning } s4
  bootStep 7 s5

/-- A trip latched while asleep is handled before the Warden core executes (R500, R609). -/
def wakeTrip (s : State) : State :=
  if s.ind.asleepDue = 0 then s
  else tripped s.ind.asleepDue true { s with ind := { s.ind with asleepDue := 0 } }

/-- The cold start from the release of power-on reset. -/
def coldStart (e : BootEnv) (s : State) : State :=
  let s0 := wakeTrip (showStart e (coldState e s))
  if s0.pwr.phase = .halted then s0
  else
    match andThen (andThen (bootPower e s0) (bootHeader e)) (bootLoad e) with
    | .inl h => h
    | .inr t => bootFinish e (startCount s) t

/-- POR_RELEASE (R551, R596). -/
def execPorRelease (e : BootEnv) (s : State) : Host.Outcome State Fault Refusal :=
  .next (if s.pwr.phase = .reset then coldStart e s else s)

end Sys2Proof.Machine
end

