-- ==== Sys2Proof/Machine/Safe.lean ====
section
/-! DEFINITION. Machine/Safe.lean: the Warden's safety rows (chapter 12): SAFE_STOP_N (R408), the watchdog (R410, R607), the
fabric restart (R411 to R413, R570), Kermes packs (R417 to R420) and the fault log (R424, R425). -/

namespace Sys2Proof.Machine

/-! ## SAFE_STOP_N and the watchdog (R408, R410, R454) -/

/-- A hold, or what a follower observes, has lasted STOP_LIMIT (R408, R454). -/
def stopLimitOver (s : State) : Bool :=
  let limit := 25000 * fld s F.WDN_SAFE_CFG_STOP_LIMIT
  (s.umb.holding && decide (s.umb.t0 + limit ≤ s.time.count)) || (follower s && decide (s.twin.goodAt + limit ≤ s.time.count))

/-- STOP_LIMIT_EXPIRY (R408, R454). -/
def execStopLimitExpiry (s : State) : Host.Outcome State Fault Refusal :=
  .next (live s fun s => if stopLimitOver s then assertSafeStop s else s)

/-- WATCHDOG_KICK (R410, R607). -/
def takeWatchdogKick (s : State) : State :=
  live s fun s =>
    setFld F.IND_WDOG_LEFT 0x3E8 { s with ind := { s.ind with wdogKick := s.time.count } }

/-- The command WatchdogKick, as above. -/
def execWatchdogKick (s : State) : Host.Outcome State Fault Refusal :=
  .next (takeWatchdogKick s)

/-- WATCHDOG_EXPIRY (R410): 10 ms after the last kick, Indigo asserts FAULT_N and keeps the fatal record; in SOLO it also asserts
SAFE_STOP_N. -/
def execWatchdogExpiry (s : State) : Host.Outcome State Fault Refusal :=
  .next (live s fun s =>
    if s.time.count < s.ind.wdogKick + 250000 then s else
    let s1 := setFlag F.IND_WDOG_EXPIRED true (setFld F.IND_WDOG_LEFT 0
      (reportIndigo { unit := 0x98, cls := 0x09, ev := 7, sev := .fatal } (assertFaultN s)))
    if s.twin.pair = .solo then assertSafeStop s1 else abdicate 0x0907 s1)

/-- SAFE_CTL_STOP (R408): a write by the Warden core. -/
def takeSafeCtlStop (r : Requester) (s : State) : State :=
  live s fun s => if r = .warden then assertSafeStop s else refuseAccess r F.WDN_SAFE_CTL_STOP.addr s

/-- The command SafeCtlStop, as above. -/
def execSafeCtlStop (r : Requester) (s : State) : Host.Outcome State Fault Refusal :=
  .next (takeSafeCtlStop r s)

/-! ## The fabric restart (R411 to R413, R570) -/

/-- SAFE_CTL_RESTART (R411): a write by the Warden core. -/
def takeSafeCtlRestart (r : Requester) (s : State) : State :=
  live s fun s =>
    if r = .warden then triggerRestart .command false s else refuseAccess r F.WDN_SAFE_CTL_RESTART.addr s

/-- The command SafeCtlRestart, as above. -/
def execSafeCtlRestart (r : Requester) (s : State) : Host.Outcome State Fault Refusal :=
  .next (takeSafeCtlRestart r s)

/-- DOUBT_PERSIST (R411): internal doubt in each of PERSIST consecutive frames. -/
def execDoubtPersist (s : State) : Host.Outcome State Fault Refusal :=
  .next (live s fun s =>
    if s.safe.persist ≥ fld s F.WDN_RESTART_CFG_PERSIST then triggerRestart .persist false s else s)

/-- A stream after the wipe of SRAM: what stood in buffers on the die, and what of it had entered the world, is gone; a snapshot ring
in HBM stays (R91, R570). -/
def wipeStream (s : State) (n : Nat) : StreamSt :=
  let t := streamSt s n
  let t1 := { t with filling := none, item := [], testBuf := [], epochStamp := none, fusedStamp := none, fusedNow := [], inEpoch := []
                     warmFrom := none }
  if memAt (streamDecl s n).ring.1 = some .hbm then t1 else { t1 with newest := none, snap := none, slice := [], snapSlice := [] }

/-- Step 2 of R412 (R38, R148): the SRAM outside the Warden's is wiped, and with it what the fabric held. The field prior and the image
copy in HBM, Umber's V, the origin and the journal stay (R570). -/
def wipeFabric (s : State) : State :=
  let s1 := revokeRequests (zeroRanges (wipeRanges s .allSram) s)
  let kept := fun (x : WipeRegion × Tick) => match x.1 with
    | .allSram => false
    | .leaseScratch _ _ => false
    | _ => true
  { s1 with
    cnd := { s1.cnd with nodes := [], ready := [], pulls := [], grants := [], leases := [], leaseWaits := [], flows := [], items := []
                         crypto := [], mapld := [], dma := [], rowList := [], revoked := [] }
    swp := SwpSt.initial, inf := InfSt.initial
    slv := { SlvSt.initial with pendingOut := s1.slv.pendingOut }
    sel := { SelSt.initial with faulty := s1.sel.faulty }
    mem := { s1.mem with rewrites := [], waiting := [], wipes := s1.mem.wipes.filter kept }
    ing := (List.range s1.ing.length).map fun n => wipeStream s1 n
    wld := { s1.wld with cur := WorldData.empty, nxt := WorldData.empty, boxes := [], near := [], denied := [], l2hold := []
                         pendingSlices := [], placed := false, slots := [], rebuild := [], koStaged := s1.wld.koLive } }

/-- A section of the image copy (R570): one whose digest is wrong is read again from the flashes. DESIGN CHOICE (log 131): where it is
bad there too, the step cannot end within its bound; where the command does not bring what the flashes yield (none), the copy
stands. -/
def reloadSection (flashes : Option (FlashRead × FlashRead)) (s : State) (x : ImgSection) : State :=
  let copy : ImgSrc := fun o => byteAt s (s.image.copyAt + o)
  if digestGood copy x then s
  else
    let s1 := reread x.index true s
    match flashes with
    | none => s1
    | some f =>
      match goodSource s.boot.bootSel (imgSrc s.boot.bootSel f.1 f.2) (imgSrc false f.2 f.1) x with
      | some src => writeBytes false (x.len + 1) (s.image.copyAt + x.off) (sectionBytes src x) s1
      | none => fatal (uncoded .restartStep 0x90 .fatal) s1

/-- Step 3 of R412: the sections of the image copy are checked; the live copies hold the image and the journal, and every staged copy
its live value (R570). -/
def reloadFabric (flashes : Option (FlashRead × FlashRead)) (s : State) : State :=
  let s1 := (sectionsOf fun o => byteAt s (s.image.copyAt + o)).foldl (reloadSection flashes) (setFld F.WDN_BOOT_STAT_REREAD 0 s)
  let s2 := [1, 2, 3, 4].foldl (fun s i => reloadTable i s) { s1 with mem := { s1.mem with liveWrites := [] } }
  refreshResident (reloadRegs 0x1FFF s2)

/-- Step 4 of R412, with the injections of R416: a failure outside tiles, Select and Solver after one that led to the restart
is fatal. -/
def testFabric (e : RestartEnv) (s : State) : State :=
  let s1 := startTests e.failTiles e.failInf e.failSelect e.failLanes s
  if !e.failOther then { s1 with safe := { s1.safe with injectFail := false } }
  else if s1.safe.injectFail then fatal { unit := 0x84, cls := 0x07, ev := 6, sev := .fatal } s1
  else { s1 with safe := { s1.safe with injectFail := true } }

/-- Steps 2 to 5 of a restart whose fabric is halted; its completion comes at the next edge. -/
def runRestart (e : RestartEnv) (s : State) : State :=
  match s.safe.restart with
  | none => s
  | some r =>
    if r.phase = .warmUp then s
    else
      let s1 := testFabric e (reloadFabric (some (e.flash0, e.flash1)) (wipeFabric s))
      { s1 with safe := { s1.safe with restart := some { r with phase := .warmUp } } }

/-- FABRIC_RESTART (R411 to R413): the trigger, where no restart runs, and the steps up to the warm-up. -/
def execFabricRestart (trig : RestartTrigger) (env : RestartEnv) (s : State) : Host.Outcome State Fault Refusal :=
  .next (live s fun s => runRestart env (if s.safe.restart.isNone then triggerRestart trig false s else s))

/-- The step that runs has exceeded its bound (R412): the wipe 2 ms after the trigger, or the last step 450 ms after it. -/
def stepOver (s : State) (r : RestartSt) : Bool :=
  decide (r.began + (if r.phase = .halted then 50000 else 11250000) < s.time.count)

/-- RESTART_STEP_TIMEOUT (R412): a step that exceeds its bound is fatal. -/
def execRestartStepTimeout (s : State) : Host.Outcome State Fault Refusal :=
  .next (live s fun s => if s.safe.restart.any (stepOver s) then fatal (uncoded .restartStep 0x90 .fatal) s else s)

/-- The warm-up has ended (step 5 of R412): every essential lidar stream has had 100 ms of slices fused, or 440 ms have passed since the
trigger. -/
def warmUpOver (s : State) (r : RestartSt) : Bool :=
  decide (r.began + 11000000 ≤ s.time.count) ||
  ((List.range 8).map (· + 16)).all fun n =>
    !streamOn s n || nonEssential s n ||
    match (streamSt s n).warmFrom, (streamSt s n).fusedStamp with
    | some a, some b => decide (a + 2500000 ≤ b)
    | _, _ => false

/-- The restart is complete at an edge that follows its warm-up (R412, R570): its record with the hold time, and the wipes of
the long-operation regions. -/
def completeRestart (s : State) : State :=
  match s.safe.restart with
  | none => s
  | some r =>
    if r.phase = .halted ∨ ¬ warmUpOver s r then s
    else
      let hold := if s.umb.holding then s.time.count - s.umb.t0 else 0
      let s1 := report { unit := 0x90, cls := 0x09, ev := 5, sev := .note, detail := hold % 2 ^ 32 }
        (setFlag F.WDN_SAFE_STAT_RESTART false (setFld F.SUP_REPLAY_STAT_STATE 0 { s with safe := { s.safe with restart := none } }))
      s1.image.opRegions.foldl (fun s x => beginWipe (.longOp (Fin.ofNat 32 x.1)) s) s1

/-! ## Kermes packs (R417 to R420) -/

/-- The unit number of a Kermes target; none for a memory region. -/
def kermesNo : KermesUnit → Option Nat
  | .sweep t => some (tileUnit t)
  | .inf c => some (64 + c.val)
  | .lane n => some (72 + n.val)
  | .memory _ => none

/-- UNIT of a Kermes record. -/
def kermesRecUnit (k : KermesUnit) : Nat := (kermesNo k).getD 0x84

/-- The class of a unit as a pack names it (R417). -/
def packClass : KermesUnit → Nat
  | .sweep _ => 0
  | .inf _ => 1
  | .lane _ => 2
  | .memory _ => 3

/-- A pack of the image by its number. -/
def packOf (s : State) (n : Nat) : Option (Nat × Fin 4 × BitVec 256) := s.image.packs.find? fun p => p.1 = n

/-- The target may be tested: a tile or lane that is out of service, an inference tile with an engine out of service, or a unit quarantined now because the deferral of R420 has
ended; a memory region in a restart (R418). -/
def kermesReady (k : KermesUnit) (s : State) : Option State :=
  match kermesNo k with
  | none => if s.safe.restart.isSome then some s else none
  | some u =>
    if outOfService s u ∨ (64 ≤ u ∧ u < 72 ∧ fld s (F.INF_TILE_STAT_ENG_OK (u - 64)) ≠ 15) then some s
    else if s.safe.kermesDeferred.contains k ∧ (u ≥ 64 ∨ unitDomain s u ≠ 0 ∨ quarantinedCount s + 1 ≤ quarMax s) then
      some (takeOut true u { s with safe := { s.safe with kermesDeferred := s.safe.kermesDeferred.erase k } })
    else none

/-- KERMES_START (R417, R418, R420). -/
def execKermesStart (u : KermesUnit) (pack : Nat) (s : State) : Host.Outcome State Fault Refusal :=
  .next (live s fun s =>
    if s.safe.kermes.isSome || !s.image.kermesOk || !((packOf s pack).any fun p => p.2.1.val = packClass u) then s
    else
      match kermesReady u s with
      | none => s
      | some s1 =>
        setFlag F.WDN_KERMES_STAT_BUSY true { s1 with safe := { s1.safe with
          kermes := some ⟨u, pack, s1.frame.num⟩, kermesDue := s1.safe.kermesDue.erase u } })

/-- A pack run fails (R417, R419): the unit is retired until the next cold start. -/
def kermesFail (k : KermesRun) (s : State) : State :=
  let s1 := bump F.WDN_KERMES_STAT_RETIRED (bump F.WDN_KERMES_STAT_FAILS
    (report { unit := kermesRecUnit k.unit, cls := 0x07, ev := 7, sev := .fault, detail := k.pack % 2 ^ 16 }
      (setFlag F.WDN_KERMES_STAT_BUSY false { s with safe := { s.safe with kermes := none } })))
  match kermesNo k.unit with
  | none => s1
  | some u => { s1 with cnd := { s1.cnd with retired := u :: s1.cnd.retired, releasing := s1.cnd.releasing.filter (· ≠ u) } }

/-- A pack run passes (R419): the unit returns from the next edge. -/
def kermesPass (k : KermesRun) (s : State) : State :=
  let s1 := bump F.WDN_KERMES_STAT_PASSES
    (report { unit := kermesRecUnit k.unit, cls := 0x07, ev := 8, sev := .note, detail := k.pack % 2 ^ 16 }
      (setFlag F.WDN_KERMES_STAT_BUSY false { s with safe := { s.safe with kermes := none } }))
  match kermesNo k.unit with
  | none => s1
  | some u => releaseUnit u { s1 with safe := { s1.safe with passed := u :: s1.safe.passed.filter (· ≠ u) } }

/-- KERMES_PACK_DONE (R417, R419): the digest of the results is compared with the pack's. -/
def execKermesPackDone (results : List Byte) (s : State) : Host.Outcome State Fault Refusal :=
  .next (live s fun s =>
    match s.safe.kermes with
    | none => s
    | some k => if (packOf s k.pack).any fun p => p.2.2 = Config.sha3 results then kermesPass k s else kermesFail k s)

/-- KERMES_OVERTIME (R417): a run that has not completed within 64 frames fails. -/
def execKermesOvertime (s : State) : Host.Outcome State Fault Refusal :=
  .next (live s fun s =>
    match s.safe.kermes with
    | none => s
    | some k => if frameDist k.since s.frame.num < 64 then s else kermesFail k s)

/-- The deferred tests at an edge (R420): each tile whose test the count now allows is quarantined and falls due. -/
def kermesEdge (s : State) : State :=
  s.safe.kermesDeferred.foldl (fun s k =>
    match kermesReady k s with
    | some t => if s.safe.kermesDeferred.contains k then kermesDue k t else s
    | none => s) s

/-! ## The fault log (R424, R425) -/

/-- A record's 32 bytes (R421) go into the HBM fault log ring of 65,536 records. -/
def hbmLog (r : FaultRec) (s : State) : State :=
  let s1 := writeBytes false 8 (s.image.faultLog.1 + 32 * s.log.hbmNext) (recBytes r) s
  { s1 with log := { s1.log with hbm := (r :: s1.log.hbm).take 65536, hbmNext := (s1.log.hbmNext + 1) % 65536 } }

/-- FAULT_RECORD_DRAIN (R424, R425): the oldest queued record goes into the HBM ring of 65,536 and, where its severity sends it
there, to the Ochre port. -/
def execFaultRecordDrain (s : State) : Host.Outcome State Fault Refusal :=
  .next (live s fun s =>
    match s.log.queue with
    | [] => s
    | q :: qs =>
      let s1 := { s with log := { s.log with
        queue := qs, ochre := if q.needOchre then s.log.ochre ++ [q.entry] else s.log.ochre } }
      if q.needHbm then hbmLog q.entry s1 else s1)

end Sys2Proof.Machine
end

