-- ==== Sys2Proof/Machine/Power.lean ====
section
/-! DEFINITION. Machine/Power.lean: power, the regulator, temperature, sleep and the Indigo island (chapter 18: R595 to R609,
R615, R618, R619). -/

namespace Sys2Proof.Machine

/-- Codes of LAST_OFF (R619). -/
def setLastOff (n : Nat) (s : State) : State := setFld F.IND_STAT_LAST_OFF n s

/-- A record of class 0x11 from the Warden (R618). -/
def powerEvent (ev : Nat) (sev : Severity) (detail : Nat) (s : State) : State :=
  report { unit := 0x90, cls := 0x11, ev := ev, sev := sev, detail := detail } s

/-- The rails go: the device is off until the next wake edge. -/
def powerOff (last : Nat) (s : State) : State :=
  setLastOff last { s with pwr := { s.pwr with phase := .asleep, pwrEn := false, pwrgd := false } }

/-- A write that only the Warden core, and JTAG in DEVELOP, may make (R619). -/
def wardenWrite (r : Requester) (addr : Nat) (f : State → State) (s : State) : State :=
  if (r = .warden ∧ s.fuse.lc ≠ 4) ∨ (r = .jtag ∧ s.fuse.lc = 1) then f s else refuseAccess r addr s

/-! ## Power-good (R595 to R597) -/

/-- POWER_GOOD (R596): the rising edge of PWRGD. -/
def execPowerGood (s : State) : Host.Outcome State Fault Refusal :=
  .next (if s.pwr.phase = .powerOn then { s with pwr := { s.pwr with phase := .reset, pwrgd := true, safeStop := true } } else s)

/-- PWRGD_TIMEOUT (R596): Indigo drives PWR_EN low and writes a warning to its log. -/
def execPwrgdTimeout (s : State) : Host.Outcome State Fault Refusal :=
  .next (
    if s.pwr.phase = .powerOn then
      reportIndigo { unit := 0x98, cls := 0x11, ev := 7, sev := .warning, detail := 2 ^ 8 }
        { s with pwr := { s.pwr with phase := .asleep, pwrEn := false } }
    else s)

/-- PWRGD_LOST (R597): transmission stops, both signals are asserted, and the fatal record goes to the Indigo log. -/
def execPwrgdLost (s : State) : Host.Outcome State Fault Refusal :=
  .next (
    if !coreApplied s then s
    else
      let s1 := reportIndigo { unit := 0x90, cls := 0x11, ev := 5, sev := .fatal } (assertFaultN s)
      let s2 := assertSafeStop { s1 with bus := { s1.bus with onBus := none, waiting := none, guidOut := [] } }
      setLastOff 2 { s2 with pwr := { s2.pwr with phase := .powerOn, pwrgd := false } })

/-! ## VDD_CORE (R598 to R601) -/

/-- VCORE_OUT_OF_RANGE (R601): fatal; every sequencer halts, and the device does nothing further until the next reset. -/
def execVcoreOutOfRange (s : State) : Host.Outcome State Fault Refusal :=
  .next (live s fun s =>
    let s1 := fatal { unit := 0x90, cls := 0x11, ev := 0, sev := .fatal, detail := fld s F.WDN_PWR_STAT_VCORE } (haltFabric s)
    haltDevice (setLastOff 5 s1))

/-- VCORE_TARGET_WRITE (R599): a value outside 650 mV to 850 mV is ignored with a warning; another goes to the regulator at the
next edge. -/
def takeVcoreTargetWrite (r : Requester) (target : BitVec 16) (s : State) : State :=
  live s (wardenWrite r F.WDN_VCORE_TARGET.addr fun s =>
    let t := target.toNat
    if t < 650 ∨ t > 850 then powerEvent 1 .warning 1 s
    else setFld F.WDN_VCORE_TARGET t { s with pwr := { s.pwr with vcoreTarget := some t } })

/-- The command VcoreTargetWrite, as above. -/
def execVcoreTargetWrite (r : Requester) (target : BitVec 16) (s : State) : Host.Outcome State Fault Refusal :=
  .next (takeVcoreTargetWrite r target s)

/-- AVS_NO_ANSWER (R600): three consecutive transactions have gone without an answer. -/
def execAvsNoAnswer (s : State) : Host.Outcome State Fault Refusal :=
  .next (live s fun s => if s.pwr.avsMissRun < 3 then s else powerEvent 1 .warning 0 { s with pwr := { s.pwr with avsMissRun := 0 } })

/-- What the regulator and the sensors report at an edge (R598 to R600, R615). The pair of the regulator's answer is its
current in 0.1 A and its status, which is not 0 on an alert. Where it does not answer, the reads of voltage, current and status
are missed, and a write of a new value with them. -/
def readPower (e : EdgeReadings) (s : State) : State :=
  let s1 := match s.pwr.vcoreTarget with
    | some t => setFld F.WDN_VCORE_APPLIED t { s with pwr := { s.pwr with vcoreTarget := none } }
    | none => s
  let s2 := match e.avs with
    | none =>
      let n := if s.pwr.vcoreTarget.isSome then 4 else 3
      bumpBy F.WDN_PWR_STAT_AVS_ERR n { s1 with pwr := { s1.pwr with avsMissRun := s1.pwr.avsMissRun + n } }
    | some (i, st) =>
      let t := setSat F.WDN_PWR_STAT_ICORE i { s1 with pwr := { s1.pwr with avsMissRun := 0 } }
      if st ≠ 0 then powerEvent 1 .warning 2 t else t
  let tj := (e.tj + 64).toNat
  setSat F.WDN_PWR_STAT_VCORE e.vcoreMv (setSat F.WDN_THERM_STAT_HBM_T (e.hbmT + 64).toNat
    (setSat F.WDN_THERM_STAT_TJ_PEAK (max tj (fld s2 F.WDN_THERM_STAT_TJ_PEAK)) (setSat F.WDN_THERM_STAT_TJ tj s2)))

/-! ## Temperature (R615) -/

/-- TJ_WARN. -/
def execTjWarn (s : State) : Host.Outcome State Fault Refusal :=
  .next (live s fun s => powerEvent 2 .warning (fld s F.WDN_THERM_STAT_TJ) (setFlag F.WDN_THERM_STAT_TJ_FLAG true s))

/-- The HBM refresh rate is doubled, or no longer. -/
def setRefresh (b : Bool) (s : State) : State :=
  setFlag F.WDN_THERM_STAT_HBM_2X b { s with pwr := { s.pwr with hbm2x := b } }

/-- HBM_HOT: the stack is above 85 °C. -/
def execHbmHot (s : State) : Host.Outcome State Fault Refusal := .next (live s (setRefresh true))

/-- HBM_COOL: the stack is not above 85 °C any more. -/
def execHbmCool (s : State) : Host.Outcome State Fault Refusal := .next (live s (setRefresh false))

/-- HBM_WARN. -/
def execHbmWarn (s : State) : Host.Outcome State Fault Refusal :=
  .next (live s fun s => powerEvent 3 .warning (fld s F.WDN_THERM_STAT_HBM_T) (setFlag F.WDN_THERM_STAT_HBM_FLAG true s))

/-- THERMAL_SHUTDOWN: fatal, and Indigo takes the rails away. -/
def execThermalShutdown (s : State) : Host.Outcome State Fault Refusal :=
  .next (live s fun s =>
    powerOff 3 (fatal { unit := 0x90, cls := 0x11, ev := 4, sev := .fatal
                        detail := fld s F.WDN_THERM_STAT_TJ + fld s F.WDN_THERM_STAT_HBM_T * 2 ^ 8 } s))

/-! ## Sleep and wake (R608, R609) -/

/-- The Warden enters sleep: SAFE_STOP_N, the end of transmission, the note, and SLEEP. -/
def enterSleep (s : State) : State :=
  let s1 := assertSafeStop s
  let s2 := { s1 with bus := { s1.bus with onBus := none, waiting := none, guidOut := [] } }
  powerOff 1 (report { unit := 0x98, cls := 0x11, ev := 6, sev := .note } s2)

/-- IGN_HOLD_EXPIRY (R608): IGN has been low, and the edge state's speed 0, for IGN_HOLD. -/
def execIgnHoldExpiry (s : State) : Host.Outcome State Fault Refusal :=
  .next (live s fun s => if atRestNow s then enterSleep { s with pwr := { s.pwr with ign := false } } else s)

/-- SLEEP (R608, R619): refused while IGN is high. -/
def takeSleep (r : Requester) (s : State) : State :=
  live s (wardenWrite r F.IND_SLEEP_CTL_SLEEP.addr fun s =>
    if s.pwr.ign then send (.error r F.IND_SLEEP_CTL_SLEEP.addr none) s
    else powerOff 1 { s with pwr := { s.pwr with safeStop := true } })

/-- The command Sleep, as above. -/
def execSleep (r : Requester) (s : State) : Host.Outcome State Fault Refusal :=
  .next (takeSleep r s)

/-- The enable and the WAKE bit of a wake source (IND_CFG, IND_STAT). -/
def wakeEnabled (s : State) : WakeSource → Bool
  | .ign => flag s F.IND_CFG_IGN_EN
  | .wakeN => flag s F.IND_CFG_WAKE_EN
  | .alarm => flag s F.IND_CFG_ALARM_EN

/-- The place of a source in WAKE: bit 28 IGN, bit 27 WAKE_N, bit 26 the alarm. -/
def wakeBit : WakeSource → Nat
  | .ign => 2 | .wakeN => 1 | .alarm => 0

/-- The alarm falls when Indigo's count reaches ALARM (R609); a pin's event is the command. -/
def wakeFalls (s : State) : WakeSource → Bool
  | .ign => true
  | .wakeN => true
  | .alarm => decide (fld s F.IND_ALARM_LO_ALARM + fld s F.IND_ALARM_HI_ALARM * 2 ^ 32 ≤ s.ind.count)

/-- WAKE (R609): the level of the pin; while asleep an enabled source sets its bit and raises PWR_EN. -/
def execWake (src : WakeSource) (s : State) : Host.Outcome State Fault Refusal :=
  .next (
    if !s.ind.powered then s
    else
      let s1 := match src with
        | .ign => setFlag F.IND_STAT_IGN true { s with pwr := { s.pwr with ign := true } }
        | .wakeN => setFlag F.IND_STAT_WAKE_LVL false { s with pwr := { s.pwr with wakeLvl := false } }
        | .alarm => s
      if (s1.pwr.phase = .asleep ∨ s1.pwr.phase = .powerOn) ∧ wakeEnabled s1 src ∧ wakeFalls s1 src then
        setMaskBit F.IND_STAT_WAKE (wakeBit src) true
          { s1 with pwr := { s1.pwr with phase := .powerOn, pwrEn := true, wakeNote := true } }
      else s1)

/-! ## VBAT_AO and the Indigo clock (R604, R605) -/

/-- VBAT_LOSS (R605): below 2.0 V Indigo loses its count, its log, its latches and TRIM. -/
def execVbatLoss (s : State) : Host.Outcome State Fault Refusal :=
  .next (
    let s1 := setFlag F.IND_STAT_TVALID false (setFld F.IND_TRIM_TRIM 0 s)
    showTamper { s1 with ind := { IndSt.initial with powered := false, wdogKick := s.ind.wdogKick } })

/-- VBAT_POWER_UP (R605, R619): Indigo starts with its reset values; PWR_EN is low until a wake source. -/
def execVbatPowerUp (s : State) : Host.Outcome State Fault Refusal :=
  .next (
    if s.ind.powered then s
    else
      let s1 := { s with regs := s.regs.filter fun x => x.1 / 0x10000 ≠ 0xF0, ind := IndSt.initial }
      setLastOff 0 (if coreApplied s1 then s1 else { s1 with pwr := { s1.pwr with phase := .asleep, pwrEn := false } }))

/-- TRIM_ADJUST (R604): the Warden adjusts TRIM; the value follows the two crystals and is free. -/
def execTrimAdjust (s : State) : Host.Outcome State Fault Refusal :=
  .next (live s fun s =>
    let n := nextFree s
    setFld F.IND_TRIM_TRIM (Config.freeValue n.1) n.2)

/-- Indigo at an edge (R604, R605): its count follows the time base; TVALID is set once the time base is locked. -/
def indigoEdge (s : State) : State :=
  if !s.ind.powered then s
  else
    let s1 := { s with ind := { s.ind with count := s.time.count, frac := s.time.frac / 2 ^ 16 } }
    if timeLocked s1 then setFlag F.IND_STAT_TVALID true s1 else s1

/-- The first frame after a wake writes a note with the WAKE bits (R609). -/
def wakeNote (s : State) : State :=
  if s.pwr.wakeNote then
    report { unit := 0x98, cls := 0x11, ev := 7, sev := .note, detail := fld s F.IND_STAT_WAKE }
      { s with pwr := { s.pwr with wakeNote := false } }
  else s

end Sys2Proof.Machine
end

