-- ==== Sys2Proof/Machine/Emit.lean ====
section
/-! DEFINITION. Machine/Emit.lean: what a frame emits and when: the bundle (R64 to R68), telemetry (R69, R585), Madder's verdicts and the
messages of the twin that decide the bundle (R397, R450, R451), the hard stops of verify and emit (R46 to R49), the release of
SAFE_STOP_N (R409) and takeover (R456, R457). -/

namespace Sys2Proof.Machine

/-! ## The bundle (R64 to R67) -/

/-- A pose's 24 bytes (R65). -/
def poseBytes (p : BPose) : List Byte :=
  leBytes 3 (pattern 24 p.x) ++ leBytes 3 (pattern 24 p.y) ++ leBytes 2 p.heading ++ leBytes 2 (pattern 16 p.curvature)
    ++ leBytes 2 (pattern 16 p.speed) ++ ((p.joints ++ [0, 0, 0, 0]).take 4).flatMap (leBytes 2)
    ++ leBytes 2 (pattern 16 p.hitch) ++ leBytes 2 ((if p.down then 1 else 0) + (if p.rest then 2 else 0))

/-- STATUS of a bundle as it stands now (R66). -/
def bundleStatus (s : State) (b : BundleBody) : Nat := statusWord s b.kind b.reason b.twinSource

/-- The bundle's 1,580 bytes (R64). -/
def bundleBytes (s : State) (b : BundleBody) : List Byte :=
  withCrc (leBytes 4 (frameN s) ++ leBytes 8 b.edgeTick ++ leBytes 4 (min b.age 0xFFFFFFFF) ++ leBytes 4 b.cost
    ++ leBytes 2 (pattern 16 b.clearance) ++ leBytes 2 (bundleStatus s b) ++ leBytes 2 s.wld.originGen
    ++ leBytes 1 b.joints ++ leBytes 1 1 ++ b.audit ++ leBytes 4 b.winner ++ b.poses.flatMap poseBytes)

/-- JOINT_COUNT of a layer: one less than its bodies. -/
def jointCount (l : Option Layer) : Nat := (l.map fun l => l.bodies.length - 1).getD 0

/-- AUDIT_PREFIX of the running frame. -/
def auditPrefix (s : State) : List Byte := (digestBytes (auditDigest s 0)).take 8

/-- The body of a HOLD or STOP (R67): Umber's poses with COST, MIN_CLEARANCE and the inputs of V; with no V these three are
free. -/
def holdBody (s : State) : BundleBody × State :=
  let k := withheldAs s
  let b : BundleBody := { kind := k.1, reason := k.2, twinSource := false, edgeTick := s.frame.edgeTick, age := 0, cost := 0
                          clearance := 0, winner := 0xFFFFFFFF, joints := jointCount (ownLayer s), audit := auditPrefix s
                          poses := umberPoses s }
  match s.umb.v with
  | some v =>
    ({ b with age := s.frame.edgeTick - v.stamp, cost := v.cost, clearance := v.clearance
              joints := match vExpand s v with
                | some (l, _) => jointCount (some l)
                | none => b.joints }, s)
  | none =>
    let f := fun (i w : Nat) => Config.freeValue (s.free + i) % 2 ^ w
    ({ b with age := f 0 32, cost := f 1 32, clearance := signed 16 (f 2 16) }, { s with free := s.free + 3 })

/-- What a frame that is not withheld emits (R451, R452): its own trajectory, or the twin's, with RESULT_AGE and the audit digest
that go with it. -/
def emittedV (s : State) : Option (VTraj × Nat × BitVec 256) :=
  if doubted s || s.frame.noFree || restarting s then none
  else
    match s.frame.choice with
    | some .own => s.mad.subject.map fun t =>
        ({ record := t.record, edge := edgePose s, edgeTick := s.frame.edgeTick, cost := t.cost, clearance := t.clearance
           winner := t.winner, originGen := s.wld.originGen, stamp := s.frame.edgeTick - s.frame.resultAge, fromTwin := false },
         s.frame.resultAge, auditDigest s 0)
    | some .twin => s.twin.offerIn.bind fun o => (offerV o (fromTwin s o.edgeTick) true).map fun v => (v, o.age, o.audit)
    | _ => none

/-- The body of a result: of the twin's with the offer's EDGE_TICK converted, and its audit digest (R452). -/
def resultBody (s : State) (e : VTraj × Nat × BitVec 256) : BundleBody :=
  let v := e.1
  let x := vExpand s v
  { kind := kindOf v.record, reason := 0, twinSource := v.fromTwin, edgeTick := v.edgeTick, age := e.2.1, cost := v.cost
    clearance := v.clearance, winner := v.winner, joints := jointCount (x.map (·.1)), audit := (digestBytes e.2.2).take 8
    poses := (x.map fun p => p.2.poses).getD [] }

/-! ## Emission (R64, R391 to R393, R402 to R409, R453, R518, R524, R557) -/

/-- Umber's V, and the warm-start source, from an emission with a result (R296, R402). A device that does not transmit takes
its V from EMITTED alone (R453). -/
def takeV (v : VTraj) (s : State) : State :=
  let s1 := { s with slv := { s.slv with warm := (vExpand s v).map fun p => warmOf p.2 v.record } }
  if transmits s || s.twin.pair = .solo || s.replay.active then { s1 with umb := { s1.umb with v := some v } } else s1

/-- FW_FLOOR fuses after the first frame emitted with a result in FIELD (R557). -/
def raiseFloor (s : State) : State :=
  if s.boot.floorDone || s.fuse.lc ≠ 2 then s
  else
    let n := min s.image.fwFloor s.image.fwSecurity
    let s1 := { s with boot := { s.boot with floorDone := true } }
    if n ≤ s.fuse.fwFloor then s1
    else
      report { unit := 0x90, cls := 0x10, ev := 8, sev := .note, detail := n }
        (showFuses { s1 with fuse := { s1.fuse with fwFloor := n } })

/-- A bundle carries a result. -/
def isResult (b : BundleBody) : Bool := decide (kindCode b.kind ≤ 1)

/-- A bundle goes to the guidance segment where this device transmits the frame (R433, R520), and the twin learns of it (R453). -/
def transmitBundle (b : BundleBody) (s : State) : State :=
  let s1 := if transmitsFrame s s.frame.num then
      queueBundle ⟨s.frame.num, bundleBytes s b, ((b.poses.head?).map (·.curvature)).getD 0, isResult b⟩
        (if b.twinSource then bump F.WOD_XVER_STAT_TWIN_EMIT s else s)
    else s
  let src := if !isResult b then 2 else if b.twinSource then 1 else 0
  if transmits s1 && s1.twin.pair ≠ .solo then
    sendWoad 1 (.emitted s1.frame.num src (kindCode b.kind) (bundleStatus s b)) s1
  else s1

/-- The frame's bundle (R64). -/
def putBundle (b : BundleBody) (s : State) : State :=
  transmitBundle b (send (.bundle (bundleBytes s b)) { s with frame := { s.frame with
    emittedFrame := true, emissions := s.frame.emissions + 1, out := some b, outStatus := bundleStatus s b } })

/-- The frame's emission: a result, or Umber's hold (R64, R391, R403, R406). -/
def emitBundle (s : State) : State :=
  let s1 := judgeLapse s
  match emittedV s1 with
  | some e =>
    let s2 := releaseHold s1
    putBundle (resultBody s2 e) (raiseFloor (takeV e.1 s2))
  | none =>
    let h := holdBody (takeOver { s1 with slv := { s1.slv with warm := none } })
    putBundle h.1 h.2

/-- The inputs by which a device in PAIRED_A chooses its bundle have arrived (R451): the twin's verdict, and, where it rejects, the
twin's offer with both verdicts on it. -/
def inputsIn (s : State) : Bool :=
  let n := s.frame.num
  decide (s.twin.pair ≠ .pairedA) ||
  match twinVerdict s with
  | none => false
  | some (true, _) => true
  | some (false, _) =>
    (s.twin.offerIn.any fun o => decide (o.frame = n) && o.record.isNone) ||
    ((s.twin.offerIn.any fun o => decide (o.frame = n)) && (s.twin.offerVerdict.any fun v => decide (v.1 = n)) &&
      s.twin.twinOnTwin.any fun v => decide (v.1 = n))

/-- The frame may emit before its hard stops (R46, R451): Madder has passed its own trajectory and no input is missing. -/
def emitReady (s : State) : Bool :=
  s.frame.started && !s.frame.emittedFrame && s.frame.choice.isNone && !restarting s && !doubted s && !s.frame.noFree &&
    decide (s.mad.verdictOwn = some true) && inputsIn s

/-- The bundle is chosen, and a result goes out, as soon as the inputs are there (R46, R451). -/
def tryEmit (s : State) : State :=
  if !emitReady s then s
  else
    let s1 := chooseBundle s
    match s1.frame.choice with
    | some .hold => s1
    | _ => emitBundle (phaseDone 5 s1)

/-! ## Verdicts, offers and verdicts of the twin (R397, R449 to R451) -/

/-- MADDER_VERDICT (R397, R450): Madder has judged the frame's own trajectory, or the twin's. -/
def execMadderVerdict (twin : Bool) (u : Option Upset) (s : State) : Host.Outcome State Fault Refusal :=
  .next (fabric s fun s =>
    if !s.frame.started then s
    else tryEmit (countOpen countDie (if twin then verdictTwin u s else verdictOwn u s) 0x89))

/-- OFFER (R449, R450). -/
def execOffer (o : Offer) (s : State) : Host.Outcome State Fault Refusal := .next (live s fun s => tryEmit (takeOffer o s))

/-- VERDICT (R450, R451, R455). -/
def execVerdict (frame : FrameNo) (subjectTwin : Bool) (v : Fin 4) (detail : BitVec 64) (s : State) :
    Host.Outcome State Fault Refusal :=
  .next (live s fun s => tryEmit (takeVerdict frame subjectTwin v detail s))

/-! ## Telemetry (R69, R585) -/

/-- The slot totals of a domain in the last settlement (R577). -/
def slotTotals (s : State) (d : Nat) : List Nat := ((s.swp.slots.find? fun x => x.1 = d).map (·.2)).getD [0, 0, 0, 0]

/-- The telemetry record of a domain (R69), 128 bytes. DESIGN CHOICE (log 117): STATUS, DOUBT_FLAGS, PHASE_DONE, MADDER and QUAR_MASK
are the frame's in the record of every domain; WINNER_INDEX is 0xFFFFFFFF but in domain 0's; TEST_TILE shows in the record of
the tile's own domain. -/
def telemetryBytes (s : State) (d : Nat) : List Byte :=
  let n := domNumbers s d
  let winner := if d = 0 then (s.frame.out.map (·.winner)).getD 0xFFFFFFFF else 0xFFFFFFFF
  let body := leBytes 4 (frameN s) ++ leBytes 8 s.frame.edgeTick ++ leBytes 4 (fld s F.WLD_EPOCH_EPOCH)
    ++ (slotTotals s d).flatMap (leBytes 8) ++ leBytes 4 n.proposed ++ leBytes 4 n.resolved ++ leBytes 4 n.free
    ++ leBytes 4 n.truncPoint ++ leBytes 4 (n.maxResolved.getD 0xFFFFFFFF) ++ leBytes 4 winner
    ++ s.frame.done.flatMap (fun x => leBytes 4 (x.getD 0xFFFFFFFF))
    ++ leBytes 4 (tabGet 0 s.inf.rgCount d) ++ leBytes 4 (tabGet 0 s.inf.rgCrit d)
    ++ leBytes 2 s.frame.flags.toNat ++ leBytes 1 (poolTiles s d) ++ leBytes 1 (((s.frame.testTile.filter fun u => unitDomain s u = d)).getD 0xFF)
    ++ leBytes 8 (quarMask s) ++ leBytes 2 s.frame.outStatus ++ leBytes 1 s.frame.madder ++ leBytes 1 d
  withCrc body ++ leBytes 4 0

/-- The active domains (R483, R556). -/
def activeDomains (s : State) : List Nat := (List.range 16).filter (domainActive s)

/-- Where a domain's ring begins in HBM. PRESUMED (log 104): the image places it. -/
def ringBase (l : List (Fin 16 × Nat)) (d : Nat) : Option Nat := (l.find? fun x => x.1.val = d).map (·.2)

/-- An entry of n bytes goes into a ring of 4,096. -/
def putRing (base : Option Nat) (i : Nat) (bs : List Byte) (s : State) : State :=
  match base with
  | some a => writeBytes false (bs.length + 1) (a + bs.length * (i % 4096)) bs s
  | none => s

/-- One domain's record and audit digest go into their rings at the same place (R69, R585). -/
def writeTelemetry (s : State) (d : Nat) : State :=
  let t := telemetryBytes s d
  let i := tabGet 0 s.obs.next d
  let s1 := putRing (ringBase s.image.auditRing d) i (digestBytes (auditDigest s d)) (putRing (ringBase s.image.telemRing d) i t s)
  send (.telemetry t) { s1 with obs := { next := tabPut 0 s1.obs.next d ((i + 1) % 4096) } }

/-- The Conductor's registers for the newest domain-0 record (R69, R70, R213, R585). -/
def showFrame (s : State) : State :=
  let n := domNumbers s 0
  let x := domSweep s 0
  let s1 := setFld F.CND_FRAME_STAT_DOUBT_FLAGS s.frame.flags.toNat (setFld F.CND_FRAME_STAT_STATUS s.frame.outStatus s)
  let s2 := ((byteWords 32 (telemetryBytes s 0)).zipIdx).foldl (fun s w => setFld (F.CND_TELEM_WIN_WORD w.2) w.1 s) s1
  let s3 := ((byteWords 8 (digestBytes (auditDigest s 0))).zipIdx).foldl (fun s w => setFld (F.CND_AUDIT_DIGEST w.2) w.1 s) s2
  let s4 := if n.truncPoint < n.proposed then bump F.CND_TRUNC_CNT_COUNT s3 else s3
  let s5 := (List.range 3).foldl (fun s i => setSat (F.CND_CAND_CNT_COUNT i) (x.counts.getD i 0) s) s4
  let s6 := setSat F.CND_CAND_SKIP_QUOTA x.skipQuota (setSat F.CND_CAND_SKIP_OTHER (x.skipOther + s.swp.refused) s5)
  let g := fun (i : Nat) => x.infeasible.getD i 0
  setSat F.CND_INFEAS_STAT_KAPPA (g 0) (setSat F.CND_INFEAS_STAT_DKAPPA (g 1)
    (setSat F.CND_INFEAS_STAT_SPEED (g 2) (setSat F.CND_INFEAS_STAT_JOINT (g 3) s6)))

/-- The counts of each sweep tile's frame (R254). -/
def showTiles (s : State) : State :=
  s.swp.tiles.foldl (fun s e =>
    let c := e.1 / 8
    let t := e.1 % 8
    let s1 := setSat (F.SWP_TILE_RES_FREE c t) e.2.freeKeys (setSat (F.SWP_TILE_RES_CONTACT c t) e.2.contactKeys s)
    (List.range 4).foldl (fun s k =>
      setSat (F.SWP_PASS_CNT_COUNT c t k) (e.2.passes.getD k 0)
        (setSat (F.SWP_CONTACT_CNT_COUNT c t k) (e.2.contacts.getD k 0) s)) s1) s

/-! ## The end of the frame (R348, R409, R411) -/

/-- The count of clean frames (R409): frames with a result and no doubt, the last of them at rest. A follower counts the
bundles that it observes instead (R454). -/
def countClean (s : State) : State :=
  if follower s then s
  else
    let n := if s.frame.out.any isResult && decide (s.frame.flags = 0) then s.safe.clean + 1 else 0
    { s with safe := { s.safe with
        clean := n, atRest := decide (n ≥ fld s F.WDN_REL_CFG_CLEAN_FRAMES) && decide ((edgePose s).v = 0) } }

/-- The run of frames with an internal doubt (R411). -/
def countPersist (s : State) : State :=
  { s with safe := { s.safe with persist := if internalDoubt s then s.safe.persist + 1 else 0 } }

/-- SAFE_STOP_N is released when the three conditions of R409 hold together; an acknowledgement in a frame with a doubt is
discarded (R531). A device in CONFLICT keeps it asserted (R442). -/
def releaseSafeStop (s : State) : State :=
  let s1 := { s with safe := { s.safe with acked := none } }
  if s.pwr.safeStop && s.safe.atRest && decide (s.safe.acked = some s.frame.num) && decide (s.frame.flags = 0) &&
      decide (s.twin.pair ≠ .conflict) then
    report { unit := 0x90, cls := 0x09, ev := 3, sev := .note }
      (setFlag F.WDN_SAFE_STAT_SAFE_STOP false { s1 with pwr := { s1.pwr with safeStop := false } })
  else s1

/-- The answers of the frame go out (R348). -/
def sendAnswers (s : State) : State :=
  s.cnd.answers.foldl (fun s a => sendAnswer a s) { s with cnd := { s.cnd with answers := [] } }

/-- What follows the emission at the emit hard stop: the frame's registers, its telemetry, its answers, and the counts of the
Warden. -/
def endFrame (s : State) : State :=
  let s1 := showTiles (showFrame s)
  let s2 := (activeDomains s1).foldl writeTelemetry s1
  let s3 := releaseSafeStop (countPersist (countClean (sendAnswers s2)))
  showHold { s3 with bus := { s3.bus with lastFlags := s3.frame.flags } }

/-! ## The hard stops of verify and emit (R44, R47 to R49, R322, R451, R584) -/

/-- A verification that has not finished is a task timing overrun: MADDER 3, and the verdict says so (R69, R450). -/
def unfinishedVerify (s : State) : State :=
  if s.mad.subject.isSome && s.mad.verdictOwn.isNone then
    sendVerdict false 3 0
      (doubtEvent 4 { unit := 0x91, cls := 0x05, ev := overrunCode .budget, sev := .doubt, domain := 0 }
        { s with frame := { s.frame with madder := 3 } })
  else s

/-- A task timing overrun of the Warden: the audit digest, or the assembly of the bundle (R48, R584). -/
def wardenOverrun (s : State) : State :=
  doubtEvent 4 { unit := 0x90, cls := 0x05, ev := overrunCode .budget, sev := .doubt, domain := 0 } s

/-- VERIFY_HARD_STOP (R44, R48, R322, R451, R584): the bundle is chosen. digestLate says that the audit digest is not complete as the
emit phase begins. -/
def execVerifyHardStop (digestLate : Bool) (s : State) : Host.Outcome State Fault Refusal :=
  .next (live s (atStop 4 fun s =>
    let s1 := phaseStop 5 (unfinishedVerify (if digestLate && !s.frame.emittedFrame then wardenOverrun s else s))
    if s1.frame.choice.isNone then chooseBundle s1 else s1))

/-- The bundle of a frame that has not emitted yet (R48, R49): late says that its assembly has not finished, a timing overrun. -/
def emitLast (late : Bool) (s : State) : State :=
  if s.frame.emittedFrame then s
  else if late then emitBundle (wardenOverrun s)
  else emitBundle (phaseDone 5 s)

/-- The emit hard stop of a frame: tasks of the emit phase end, the bundle goes out if it has not, and the frame is closed. -/
def closeFrame (late : Bool) (s : State) : State := endFrame (emitLast late (phaseStop 6 s))

/-- EMIT_HARD_STOP (R48, R64, R322). -/
def execEmitHardStop (late : Bool) (s : State) : Host.Outcome State Fault Refusal :=
  .next (live s (atStop 5 (closeFrame late)))

/-! ## Takeover (R456, R457) -/

/-- R457: the running frame's bundle, where the device had formed it before it took over, goes out before the frame's emit hard
stop. -/
def sendRunning (s : State) : State :=
  match s.frame.out with
  | none => s
  | some b =>
    if !transmitsFrame s s.frame.num || decide (s.frame.edgeTick + hardStop s 5 ≤ s.time.count) then s
    else
      let s1 := transmitBundle b s
      match emittedV s1 with
      | some e => if isResult b then takeV e.1 s1 else s1
      | none => s1

/-- ABDICATE (R456). -/
def execAbdicate (_frame : FrameNo) (_code : BitVec 16) (s : State) : Host.Outcome State Fault Refusal :=
  .next (live s fun s => if s.twin.pair = .pairedB then sendRunning (takeoverNow 1 s) else s)

/-- TAKEOVER_SILENCE (R456): part 0 of the primary's bundle of a frame that it must transmit has not appeared. -/
def execTakeoverSilence (s : State) : Host.Outcome State Fault Refusal :=
  .next (live s fun s =>
    let m := silenceFrame s
    if s.twin.pair = .pairedB && txFrame s m && !(s.twin.bundleSeen && s.twin.lastBundle = m) then sendRunning (takeoverNow 0 s)
    else s)

end Sys2Proof.Machine
end

