-- ==== Sys2Proof/Machine/Frame.lean ====
section
/-! DEFINITION. Machine/Frame.lean: the planning frame's own rows (chapter 02): the edge (R39 to R43, R446, R558), and replay (R586 to
R591). -/

namespace Sys2Proof.Machine

/-! ## The edge (R39 to R43, R416, R558) -/

/-- A new frame with its number and its pointer P_N (R61, R63, R346); it starts with the doubts that its predecessor left it, and a
mixed epoch among them counts the frame (R382). -/
def newFrame (num : FrameNo) (edge : Tick) (s : State) : State :=
  let carry := s.frame.nextFlags
  let s0 := setFld F.CND_RR_PTR_PTR (num.toNat % 1024)
    (if s.frame.started then setFld F.WDN_MAD_STAT_VERDICT s.frame.madder s else s)
  let s1 := { s0 with frame := { FrameSt.initial with num := num, started := true, edgeTick := edge } }
  let s2 := (List.range 16).foldl (fun s b =>
    if !carry.getLsbD b then s else if b = 5 then mixFrame s else markDoubt b s) s1
  setFld F.CND_FRAME_NUM_FRAME num.toNat
    (setFld F.CND_EDGE_TICK_LO_TICK edge (setFld F.CND_EDGE_TICK_HI_TICK (edge / 2 ^ 32) s2))

/-- R558: at the edge of frame 0 the local origin is placed at the vehicle origin, ORIGIN_H below it. -/
def placeOrigin (s : State) : State :=
  if !s.boot.frameZero then s
  else
    let e := (poseAt s s.time.count).getD Pose.zero
    let move := fun (p : Pose) => { p with x := p.x - e.x, y := p.y - e.y, z := p.z - e.z + s.image.originH }
    bootStep 8 { s with wld := { s.wld with pose := s.wld.pose.map move, originGen := 0 }
                        boot := { s.boot with frameZero := false } }

/-- A memory port that failed its injection (R416). One that makes Select faulty makes frames doubt (R281, R393). -/
def eccFailure (s : State) (p : EccPort) : State :=
  let rec' := fun (u : Nat) (sev : Severity) (s : State) => report { unit := u, cls := 0x07, ev := 6, sev := sev } s
  match p with
  | .sweepTile t => showSched (takeOut true (tileUnit t) (slotLost (tileUnit t) (rec' (tileUnit t) .fault s)))
  | .infTile c => showInfService (showSched (takeOut true (64 + c.val) (slotLost (64 + c.val) (rec' (64 + c.val) .fault s))))
  | .selectStore =>
    triggerRestart .select false (report { unit := 0x80, cls := 0x07, ev := 6, sev := .fault, doubt := true }
      { s with sel := { s.sel with faulty := true } })
  | .otherMemory =>
    if s.safe.injectFail then fatal { unit := 0x84, cls := 0x07, ev := 6, sev := .fatal } s
    else triggerRestart .injection false (rec' 0x84 .fault { s with safe := { s.safe with injectFail := true } })

/-- What the fabric does at the edge of a frame that has its number and tick: the world epoch, the snapshot and the ages, then
each subsystem in the order of the chapters; the Conductor's sequence flags last, unless a restart runs (R412, step 6). -/
def fabricEdge (s : State) : State :=
  let t := s.frame.edgeTick
  let s1 := ingressEdge t (worldEdge t s)
  let s2 := infEdge (releaseEdge (memEdge s1))
  let s3 := madderEdge (solverEdge (selectEdge (sweepEdge s2)))
  if restarting s3 then s3 else edgeFlags (opsEdge s3)

/-- The tick at which the next edge falls (R42, R446, R447): a frame period after the last; on a device that follows, at the tick that
the primary's newest edge gives, moved from its own period by at most 1 µs but where it adopts the primary's count. none before
the first edge. -/
def edgeTarget (s : State) : Option Tick :=
  let p := fld s F.CND_FRAME_PERIOD_PERIOD
  let own := s.frame.edgeTick + p
  if !s.frame.started then none
  else
    match (if follows s then s.twin.twinEdge else none) with
    | none => some own
    | some m =>
      let adopt : Bool := (adoptNumber s).isSome
      let gap := if adopt then 1 else max 1 (frameDist m.frame (s.frame.num + 1))
      let t := Int.ofNat (m.tick + gap * p + 5 * fld s F.WOD_EDGE_CFG_EDGE_LAG / 2) - s.twin.ofs
      if adopt then some t.toNat
      else if gap ≥ 2 ^ 31 then some own
      else some (clampI (Int.ofNat own - 25) (Int.ofNat own + 25) t).toNat

/-- The edge is due. In replay the last edge's tick is that of a replay frame, so the command alone says it. -/
def edgeDue (s : State) : Bool := s.replay.active || (edgeTarget s).all fun t => decide (t ≤ s.time.count)

/-- The frame number at an edge (R42, R446). -/
def nextNumber (s : State) : FrameNo :=
  match adoptNumber s with
  | some n => n
  | none => if s.boot.frameZero then 0 else s.frame.num + 1

/-- R99: from the edge of frame 0 on, silence counts for a stream that has delivered nothing. -/
def hearStreams (s : State) : State :=
  (List.range 36).foldl (fun s n =>
    if streamOn s n then modStream n (fun t => { t with heard := some (t.heard.getD s.time.count) }) s else s) s

/-- The edge of a live frame. A frame whose emit hard stop has not been taken emits and closes first (R64). -/
def liveEdge (r : EdgeReadings) (s : State) : State :=
  let adopt : Bool := (adoptNumber s).isSome
  let sc := if s.frame.started && !s.frame.stopped.getD 5 true then closeFrame false s else s
  let s0 := if sc.frame.started then countXlate sc else sc
  let s1 := placeOrigin (newFrame (nextNumber s0) s0.time.count { s0 with twin := { s0.twin with adopted := s0.twin.adopted || adopt } })
  let s2 := completeRestart s1
  let open' : Bool := s2.swap.user.isSome || s2.swap.recentre.isSome
  let s3 := swapEdge s2
  let swapped : Bool := open' && !(s3.swap.user.isSome || s3.swap.recentre.isSome)
  let s4 := fabricEdge (kermesEdge s3)
  let s5 := r.eccFail.foldl eccFailure s4
  let s6 := openRecentre (reloadEdge swapped (twinEdge s5))
  showHold (statusEdge (wakeNote (indigoEdge (lapseClock (readPower r (if s.boot.frameZero then hearStreams s6 else s6))))))

/-- The edge of the time base while replay runs (R588): the frame counter goes on. -/
def replayEdge (r : EdgeReadings) (s : State) : State :=
  statusEdge (indigoEdge (readPower r { s with replay := { s.replay with live := s.replay.live + 1 } }))

/-- FRAME_EDGE (R39 to R42). -/
def execFrameEdge (r : EdgeReadings) (s : State) : Host.Outcome State Fault Refusal :=
  .next (live s fun s => if !edgeDue s then s else if s.replay.active then replayEdge r s else liveEdge r s)

/-! ## Replay (R586 to R591) -/

/-- The slot is the key slot of a domain-0 client with LONG_OK (R586). -/
def replaySlotOk (s : State) (slot : Nat) : Bool :=
  (List.range 1024).any fun n => cliEn s n && cliSlot s n = slot && cliDomain s n = 0 && (cliWord s n).testBit (kindBit 3)

/-- REASON of a refused replay request, the first in the order of the codes. -/
def replayReason (s : State) : Option Nat :=
  if !(decide (s.twin.pair = .solo) || decide (s.twin.pair = .monitor)) then some 1
  else if !atRestNow s then some 2
  else if !replaySlotOk s (fld s F.SUP_REPLAY_CTL_SLOT) then some 3
  else if s.replay.active then some 4
  else none

/-- Replay opens (R586): SAFE_STOP_N, the end of transmission, the end of every pending request, no V, and steps 2 and 3 of a
restart that is not counted. -/
def openReplay (s : State) : State :=
  let s1 := assertSafeStop { s with bus := { s.bus with onBus := none, waiting := none, guidOut := [] } }
  let s2 := reloadFabric none (wipeFabric s1)
  let s3 := { s2 with
    umb := { s2.umb with v := none, holding := false }
    replay := { active := true, slot := fld s F.SUP_REPLAY_CTL_SLOT, live := s.frame.num, inFrame := false }
    frame := { FrameSt.initial with num := s2.frame.num, edgeTick := s2.frame.edgeTick } }
  sendAnswers (showHold (setFld F.SUP_REPLAY_STAT_STATE 2 (setFld F.SUP_REPLAY_STAT_FRAMES 0 s3)))

/-- REPLAY_ENTER (R586, R592). -/
def takeReplayEnter (r : Requester) (s : State) : State :=
  live s (supWrite r F.SUP_REPLAY_CTL_ENTER.addr fun s =>
    match replayReason s with
    | some n => setFlag F.SUP_REPLAY_STAT_REFUSED true (setFld F.SUP_REPLAY_STAT_REASON n s)
    | none => openReplay s)

/-- The command ReplayEnter, as above. -/
def execReplayEnter (r : Requester) (s : State) : Host.Outcome State Fault Refusal :=
  .next (takeReplayEnter r s)

/-- REPLAY_EXIT (R591): steps 2 to 6 of R412 follow, without a count, and live frames go on from the frame counter. -/
def takeReplayExit (r : Requester) (s : State) : State :=
  live s (supWrite r F.SUP_REPLAY_CTL_EXIT.addr fun s =>
    if !s.replay.active then s
    else
      let s1 := { haltFabric s with
        replay := { s.replay with active := false, inFrame := false }
        frame := { FrameSt.initial with num := s.replay.live, edgeTick := s.frame.edgeTick } }
      setFld F.SUP_REPLAY_STAT_STATE 3 (setFlag F.WDN_SAFE_STAT_RESTART true { s1 with safe := { s1.safe with
        restart := some { trigger := .command, began := s1.time.count, phase := .halted, ignored := [] } } }))

/-- The command ReplayExit, as above. -/
def execReplayExit (r : Requester) (s : State) : Host.Outcome State Fault Refusal :=
  .next (takeReplayExit r s)

/-- A sample of a replay unit (R587): its stream, its stamp and its stored bytes. -/
structure ReplaySample where
  stream : Nat
  stamp : Tick
  bytes : List Byte
deriving DecidableEq, Repr

/-- The samples of a replay unit (R587), at most n. DESIGN CHOICE (log 133): a unit that ends within a sample, or names a length beyond
32 MiB, holds the samples before it. -/
def replaySamples : Nat → List Byte → List ReplaySample
  | 0, _ => []
  | n + 1, bs =>
    let len := fieldAt 4 4 bs
    if bs.length < 16 ∨ 33554432 < len ∨ bs.length < 16 + len then []
    else ⟨fieldAt 0 1 bs, fieldAt 8 8 bs, part 16 len bs⟩ :: replaySamples n (bs.drop (16 + (len + 7) / 8 * 8))

/-- The samples of a replay unit stand in for the streams (R587, R588): one stamped later than EDGE_TICK is discarded. -/
def replaySample (edge : Tick) (s : State) (x : ReplaySample) : State :=
  if x.stamp > edge then bump F.SUP_REPLAY_STAT_LATE s
  else if x.stream < 36 then takeIn x.stream ⟨x.stamp, x.stamp, x.bytes⟩ s else s

/-- REPLAY_UNIT (R587, R588): the replay frame begins with the unit's number and tick. -/
def execReplayUnit (bytes : List Byte) (s : State) : Host.Outcome State Fault Refusal :=
  .next (live s fun s =>
    if !s.replay.active || s.replay.inFrame then s
    else
      let edge := fieldAt 4 8 bytes
      let s1 := newFrame (BitVec.ofNat 32 (fieldAt 0 4 bytes)) edge { s with replay := { s.replay with inFrame := true } }
      fabricEdge ((replaySamples (min 4096 (fieldAt 12 2 bytes)) (bytes.drop 16)).foldl (replaySample edge) s1))

/-- REPLAY_FRAME_END (R588, R589): the frame's unit of 1,740 bytes goes back: bundle, telemetry record, audit digest. -/
def execReplayFrameEnd (s : State) : Host.Outcome State Fault Refusal :=
  .next (live s fun s =>
    if !s.replay.active || !s.replay.inFrame then s
    else
      let s1 := emitLast false (if s.frame.choice.isNone then chooseBundle s else s)
      let unit := ((s1.frame.out.map (bundleBytes s1)).getD []) ++ telemetryBytes s1 0 ++ digestBytes (auditDigest s1 0)
      let s2 := endFrame s1
      bump F.SUP_REPLAY_STAT_FRAMES (sendUnit s2.replay.slot none unit (send (.replay unit)
        { s2 with replay := { s2.replay with inFrame := false } })))

end Sys2Proof.Machine
end

