-- ==== Sys2Proof/Machine/Mgmt.lean ====
section
/-! DEFINITION. Machine/Mgmt.lean: the management network (R12 to R14, R20 to R23, R31 to R35): a register write and whom
the reach table lets make it, an access that nothing answers, a counter cleared by CLR, two requests that meet; and the end
of a work unit of a long operation (R353, R177, R279, R502, R622). -/

namespace Sys2Proof.Machine

/-! ## Two requests that meet (R35) -/

/-- MUTEX_FORCE (R35): the forcing circuit decides for the lower port number; the loser receives the next grant. -/
def execMutexForce (resource portA portB : Nat) (s : State) : Host.Outcome State Fault Refusal :=
  .next (live s fun s =>
    { s with arb := ⟨resource, min portA portB, max portA portB⟩ :: s.arb.filter fun x => x.resource ≠ resource })

/-! ## Blocks and reach (R21, R23, R31) -/

/-- UNIT of the block at a management address (R31, R422). R422 numbers no unit for the block-wide page of INF, for SLV as
a block and for a range with no block: there the value is free. -/
def blockUnit (a : Nat) : Nat :=
  match a / 0x100000 with
  | 0 => 0x90
  | 1 => 0x81
  | 2 => 0x83
  | 3 => 0x82
  | 4 => if a % 0x100000 < 0x80000 then 64 + a % 0x100000 / 0x10000 else Config.codeOf 64 % 65536
  | 5 => 0x88 + a % 0x100000 / 0x20000
  | 6 => if a % 0x100000 < 0x80000 then 0x80 else Config.codeOf 65 % 65536
  | 7 => 0x94 + a % 0x100000 / 0x40000
  | 8 => 0x84
  | 15 => if a % 0x100000 < 0x10000 then 0x98 else Config.codeOf 66 % 65536
  | _ => Config.codeOf 66 % 65536

/-- MGMT_ACCESS_TIMEOUT (R21): an access with no response after 10 µs answers an error, with all-zero data on a read, and
writes a warning that names the unreached block. -/
def execMgmtAccessTimeout (r : Requester) (isRead : Bool) (addr : Nat) (s : State) : Host.Outcome State Fault Refusal :=
  .next (live s fun s =>
    send (.error r addr (if isRead then some 0 else none)) (report { unit := blockUnit addr, cls := 0x0B, ev := 1, sev := .warning, detail := addr % 2 ^ 40 } s))

/-- Who may write the staged copy of a register of a subsystem (R561, R625). -/
def mayStage (s : State) (r : Requester) (sub : Nat) : Bool :=
  if s.fuse.lc = 4 then false
  else
    match r with
    | .warden => true
    | .jtag => inDevelop s
    | .host => s.image.hostWriteMask.getLsbD sub
    | _ => false

/-! ## Counters (R254, R579, R581) -/

/-- A 48-bit event counter set to 0. -/
def clearCounter (k : CounterId) (s : State) : State :=
  match k with
  | .sweepTile t n =>
    setFld (F.SWP_EVCNT_COUNT t.c.val t.t.val n.val) 0 (setFld (F.SWP_EVCNT_HI_COUNT t.c.val t.t.val n.val) 0 s)
  | .infTile c n => setFld (F.INF_EVCNT_COUNT c.val n.val) 0 (setFld (F.INF_EVCNT_HI_COUNT c.val n.val) 0 s)
  | .steward c n => setFld (F.SWP_STW_EVCNT_COUNT c.val n.val) 0 (setFld (F.SWP_STW_EVCNT_HI_COUNT c.val n.val) 0 s)
  | .die n => setFld (F.CND_EVCNT_COUNT n.val) 0 (setFld (F.CND_EVCNT_HI_COUNT n.val) 0 s)

/-- The address of the event selection register of a counter. -/
def selectorAddr : CounterId → Nat
  | .sweepTile t n => (F.SWP_EVSEL_CLR t.c.val t.t.val n.val).addr
  | .infTile c n => (F.INF_EVSEL_CLR c.val n.val).addr
  | .steward c n => (F.SWP_STW_EVSEL_CLR c.val n.val).addr
  | .die n => (F.CND_EVSEL_CLR n.val).addr

/-- COUNTER_CLEAR (R254, R581): CLR of an event selection register sets its counter to 0. -/
def execCounterClear (r : Requester) (ctr : CounterId) (s : State) : Host.Outcome State Fault Refusal :=
  .next (live s fun s =>
    if reachesLive s r (selectorAddr ctr) then clearCounter ctr s else refuseAccess r (selectorAddr ctr) s)

/-- The counter whose selection register a register is, if it is one. -/
def selectedCounter (name : String) (ix : List Nat) : Option CounterId :=
  match name, ix with
  | "SWP_EVSEL", [c, t, n] => some (.sweepTile ⟨Fin.ofNat 8 c, Fin.ofNat 8 t⟩ (Fin.ofNat 8 n))
  | "INF_EVSEL", [c, n] => some (.infTile (Fin.ofNat 8 c) (Fin.ofNat 8 n))
  | "SWP_STW_EVSEL", [c, n] => some (.steward (Fin.ofNat 8 c) (Fin.ofNat 8 n))
  | "CND_EVSEL", [n] => some (.die (Fin.ofNat 8 n))
  | _, _ => none

/-! ## A register write (R12 to R14) -/

/-- A written ring base takes effect only while EN is 0 (R504). -/
def cmdRingBase (a : Nat) : Bool := decide (0x7C1010 ≤ a ∧ a < 0x7C1020)

/-- The action of a register whose bits start one (R12): those rows of the table are run by the same operations. -/
def writeAction (r : Requester) (reg : RegSpec) (ix : List Nat) (a v : Nat) (s : State) : State :=
  match selectedCounter reg.name ix with
  | some k => if v.testBit 30 then clearCounter k s else s
  | none =>
  if a = F.WDN_SAFE_CTL_STOP.addr then
    let s1 := if bitsOf v F.WDN_SAFE_CTL_STOP.hi F.WDN_SAFE_CTL_STOP.lo = 1 then takeSafeCtlStop r s else s
    if bitsOf v F.WDN_SAFE_CTL_RESTART.hi F.WDN_SAFE_CTL_RESTART.lo = 1 then takeSafeCtlRestart r s1 else s1
  else if reg.name = "SWP_STW_QUAR" then takeStwQuarWrite r (Fin.ofNat 8 (ix.getD 0 0)) (BitVec.ofNat 8 v) s
  else if reg.name = "SWP_STW_RELEASE" then takeSwpStwRelease r (Fin.ofNat 8 (ix.getD 0 0)) (BitVec.ofNat 8 v) s
  else if a = F.INF_RELEASE_RELEASE.addr then
    (List.range 8).foldl (fun s c => if v.testBit c then takeInfRelease r (Fin.ofNat 8 c) true s else s) s
  else if a = F.SLV_RELEASE_RELEASE.addr then takeSlvRelease r (BitVec.ofNat 4 v) s
  else if a = F.CND_SWAP_CTL_REQ.addr ∧ r = .warden ∨ a = F.SUP_SWAP_CTL_REQ.addr ∧ r = .host then
    let s1 := if v.testBit 31 then takeSwapRequest r (BitVec.ofNat 13 v) ⟨[], none, false⟩ s else s
    if v.testBit 30 then takeSwapCancel r s1 else s1
  else if a = F.SUP_REPLAY_CTL_ENTER.addr then
    let s1 := if v.testBit 31 then takeReplayEnter r s else s
    if v.testBit 30 then takeReplayExit r s1 else s1
  else if a = 0x7C1030 then (if v.testBit 31 then takeKxGo r s else s)
  else if a = 0x7C1038 then (if v.testBit 31 then takeLcGo r s else s)
  else if a = F.IND_WDOG_KICK.addr then (if v.testBit 31 then takeWatchdogKick s else s)
  else if a = F.IND_SLEEP_CTL_SLEEP.addr then (if v.testBit 31 then takeSleep r s else s)
  else s

/-- A write to a register that is not swappable, or to a staged copy: field by field, then the action. -/
def storeReg (r : Requester) (reg : RegSpec) (ix : List Nat) (a v : Nat) (s : State) : State :=
  if cmdRingBase a && flag s F.SUP_CMD_CTL_EN then s
  else if reg.name = "SWP_STW_QUAR" then writeAction r reg ix a v s
  else if a = F.WDN_VCORE_TARGET.addr then takeVcoreTargetWrite r (BitVec.ofNat 16 v) s
  else
    let s1 := setReg s a (afterWrite s reg ix a v)
    let s2 := if a = F.SUP_CMD_CTL_EN.addr ∧ flag s F.SUP_CMD_CTL_EN ∧ ¬ v.testBit 31 then disableRings s1 else s1
    writeAction r reg ix a v s2

/-- A write to the staged copy of a register of a subsystem: an open swap that names it locks it (R562). -/
def stageWrite (r : Requester) (reg : RegSpec) (ix : List Nat) (sub a v : Nat) (s : State) : State :=
  if !mayStage s r sub then refuseAccess r a s
  else if (s.swap.user.map fun o => o.mask.testBit sub).getD false then
    send (.error r a none) (report { unit := swapUnit, cls := 0x10, ev := 6, sev := .warning, detail := a % 2 ^ 32 } s)
  else setReg s a (afterWrite s reg ix a v)

/-- A register write (R12 to R14, R23, R31, R32, R380, R381, R504, R561, R562, R619, R625). -/
def takeRegisterWrite (r : Requester) (addr : Nat) (val : Word32) (s : State) : State :=
  live s fun s =>
    match liveReg addr with
    | some (reg, ix) =>
      if !reachesLive s r addr then refuseAccess r addr s
      else if reg.swap.isSome then
        unprescribedWrite r (liveTable reg) addr
          val s
      else storeReg r reg ix addr val.toNat s
    | none =>
      match stagedReg addr with
      | some (reg, ix) => stageWrite r reg ix (reg.swap.getD 13) addr val.toNat s
      | none => refuseAccess r addr s

/-- REGISTER_WRITE: a requester writes a value to a management address. -/
def execRegisterWrite (r : Requester) (addr : Nat) (val : Word32) (s : State) : Host.Outcome State Fault Refusal :=
  .next (takeRegisterWrite r addr val s)

/-! ## The end of a work unit (R352 to R356) -/

/-- R622: the field-frame position of the local origin: that of the newest GNSS fix, minus the vehicle origin's local position at the
fix's stamp, rounded to nearest at 1/4096 m. -/
def importOrigin (s : State) : Option (Int × Int × Int) :=
  match s.wld.fix with
  | none => none
  | some g => (poseAt s g.stamp).map fun p =>
      (roundDiv (g.fx - 256 * p.x) 256, roundDiv (g.fy - 256 * p.y) 256, roundDiv (g.fz - 256 * p.z) 256)

/-- R622: a map import starts: the field-frame position of the local origin comes from the newest GNSS fix; without one the
first unit is abandoned. Later chunks of the import join the prior. -/
def importChunk (first final : Bool) (c : PriorChunk) (s : State) : Option State :=
  let base := if first then PriorSt.none else s.wld.prior
  let prior := { base with loaded := true, complete := final, cols := base.cols ++ c.cols, zones := base.zones ++ c.zones,
                           shapes := base.shapes ++ c.shapes, keepOut := base.keepOut ++ c.keepOut }
  if first then
    (importOrigin s).map fun f => showOrigin { s with wld := { s.wld with prior := prior, originF := f } }
  else some { s with wld := { s.wld with prior := prior } }

/-- R177: a model whose digest over HBM differs is a fault of the tiles that hold it: the inference tiles of its domain. -/
def modelFault (m : ModelSec) (s : State) : State :=
  ((List.range 8).filter fun c => unitDomain s (64 + c) = m.domain.val).foldl (fun s c =>
    report { uncoded .modelDigest (64 + c) .fault with detail := m.model.val }
      (showInfService (showSched (kermesDue (kermesUnit (64 + c)) (takeOut true (64 + c) (slotLost (64 + c) s)))))) s

/-- R177: the last unit of a re-verification has the digest of the model's weights, as HBM holds them, compared with the image's. -/
def verifyModel (model : Nat) (s : State) : State :=
  match s.image.models.find? fun m => m.model.val = model with
  | none => s
  | some m =>
    let len := ((s.image.weights.find? fun r => r.1 = m.hbmBase).map (·.2)).getD 0
    if Config.sha3 (bytesAt s m.hbmBase len) = m.digest then s else modelFault m s

/-- R502: the attestation report of long operation 6, with its certificate chain, padded to 8 KiB, goes to the client's
slot; it carries the nonce of the parameter block and no exchange key. -/
def attestUnit (o : LongOp) (s : State) : State :=
  let slot := cliSlot s o.client
  let nonce := BitVec.ofNat 256 (ofLe (o.params.take 32))
  attestNote slot (sendUnit slot none (padTo 8192 (attestReport nonce o.client (cliDomain s o.client) [] s ++ chainBytes s)) s)

/-- R279: the partial list of one piece: the first k keys of its up to 65,536, in key order. -/
def partialList (k : Nat) (keys : List Nat) : List Nat := ((keys.take 65536).mergeSort fun a b => a ≤ b).take k

/-- R279: the partial lists merged, in key order. -/
def mergeRows (k : Nat) (ps : List (List Nat)) : List Nat := (ps.flatten.mergeSort fun a b => a ≤ b).take k

/-- What a work unit leaves behind besides its checkpoint; none where it is abandoned. -/
def unitEffect (o : LongOp) (final : Bool) (r : UnitResult) (s : State) : Option State :=
  match r with
  | .sepia => none
  | .mapChunk c => importChunk (decide (o.unitsDone = 0)) final c s
  | .modelDigest m => some (if final then verifyModel m.val s else s)
  | .report => some (attestUnit o s)
  | .plain => some s
  | .row _ _ => some s

/-- The partial lists after a work unit (R279). -/
def partialsAfter (o : LongOp) (r : UnitResult) : List (List Nat) :=
  let old := ((validCkpt o).map (·.partials)).getD []
  match r with
  | .row k keys => old ++ [partialList k keys]
  | _ => old

/-- The operation ends with its last unit (R355): DONE, its report, its region freed. -/
def finishOp (o : LongOp) (r : UnitResult) (s : State) : State :=
  let s1 := match r with
    | .row k _ => { s with cnd := { s.cnd with rowList := mergeRows k (((validCkpt o).map (·.partials)).getD []) } }
    | _ => s
  freeLease 5 o.ctx (sendAnswer (opAnswer s1 o 0x00) (setOp o s1))

/-- R136, R145: a chunk of 1 MiB past the first 512 of a map import. -/
def importTooLarge (o : LongOp) (r : UnitResult) : Bool :=
  match r with
  | .mapChunk _ => decide (o.unitsDone ≥ 512)
  | _ => false

/-- The operation fails: its client receives FAILED, and its region is freed. -/
def failOp (o : LongOp) (s : State) : State :=
  let o1 := { o with state := OpState.failed, unitStart := none }
  freeLease 5 o.ctx (sendAnswer (opAnswer s o1 0x19) (setOp o1 s))

/-- WORK_UNIT_END (R352 to R355): the unit's effect, its checkpoint, and what follows the boundary: the end, a suspension,
or the next unit. -/
def execWorkUnitEnd (ctx : Fin 32) (final : Bool) (r : UnitResult) (s : State) : Host.Outcome State Fault Refusal :=
  .next (fabric s fun s =>
    match s.cnd.ops.find? fun o => o.ctx = ctx.val ∧ o.unitStart.isSome with
    | none => s
    | some o =>
      if importTooLarge o r then failOp o s
      else
      match unitEffect o final r s with
      | none => abandonUnit o s
      | some s1 =>
        let slots := writeCkpt s o (o.unitsDone + 1) (partialsAfter o r)
        let o1 := { o with unitsDone := o.unitsDone + 1, abandons := 0, slots := slots, unitStart := none }
        if final then finishOp { o1 with state := .done } r s1
        else if o.state = .suspending then suspendNow o1 s1
        else setOp { o1 with unitStart := some s.time.count, started := false } s1)

end Sys2Proof.Machine
end

