-- ==== Sys2Proof/Machine/Read.lean ====
section
/-! DEFINITION. Machine/Read.lean: the read of a register (R12, R13, R23, R31, R176, R561, R625). The table of commands has no
row for a read; what a read returns, and what it latches, stands here. -/

namespace Sys2Proof.Machine

/-- Whom the reach table lets read an address: as for a write, but for the host, which reads the SUP block, the ranges that
the image grants it and the staged copies that it may write. -/
def reachesRead (s : State) (r : Requester) (a : Nat) : Bool :=
  match r with
  | .host =>
    decide (s.fuse.lc ≠ 4) &&
      (decide (0x7C0000 ≤ a ∧ a < 0x800000) ||
        s.image.hostReadRanges.any (fun x => decide (x.1 ≤ a ∧ a < x.1 + x.2)) ||
        (match stagedReg a with
         | some (reg, _) => s.image.hostWriteMask.getLsbD (reg.swap.getD 13)
         | none => false))
  | .jtag => decide (s.fuse.lc ≠ 4) && jtagReaches s
  | _ => reachesLive s r a

/-- Word n of the Indigo retention log (R606, R619): slot k holds words 8k to 8k + 7, the newest record in the slot before
NEXT. -/
def indigoWord (s : State) (n : Nat) : Nat :=
  let age := (s.ind.logNext + 127 - n / 8) % 64
  match s.ind.log[age]? with
  | some e => ofLe ((recBytes e).drop (4 * (n % 8)) |>.take 4)
  | none => 0

/-- LEFT of IND_WDOG (R619): the time left to the watchdog, in units of 10 µs. -/
def wdogLeft (s : State) : Nat := (s.ind.wdogKick + 250000 - s.time.count) / 250

/-- What a register shows: views of the time base, of Indigo's count, of its watchdog and of its log, and the word that every
other register holds. -/
def shownWord (s : State) (a : Nat) : Nat :=
  if a = F.WDN_TIME_LO_TICK.addr then s.time.count % 2 ^ 32
  else if a = F.WDN_TIME_HI_TICK.addr then s.time.count / 2 ^ 32 % 2 ^ 32
  else if a = F.IND_TIME_LO_TICK.addr then s.ind.count % 2 ^ 32
  else if a = F.IND_TIME_HI_TICK.addr then s.ind.count / 2 ^ 32 % 2 ^ 32
  else if a = F.IND_LOG_HEAD_NEXT.addr then s.ind.logNext * 2 ^ 8 + s.ind.logCount
  else if a = F.IND_WDOG_LEFT.addr then putBits (regWord s a) 9 0 (min 1000 (wdogLeft s))
  else if 0xF02000 ≤ a ∧ a < 0xF02800 then indigoWord s ((a - 0xF02000) / 4)
  else regWord s a

/-- The lower halves whose read latches the upper half, which stands at the next address. -/
def latchingLow : List String :=
  ["WDN_TIME_LO", "WDN_TAI_OFS_LO", "CND_EDGE_TICK_LO", "SWP_SLOT_CNT", "SWP_EVCNT", "INF_SLOT_CNT", "INF_EVCNT",
   "SWP_STW_EVCNT", "CND_EVCNT", "SEL_TOP_LO", "MEM_ERR_ADDR_LO", "WDN_MAD_CAP_LO", "WOD_OFS_LO", "IND_TIME_LO"]

/-- The value that a latch holds, one more than what is latched; 0 where nothing is. -/
def latchOf (s : State) (a : Nat) : Nat := tabGet 0 s.latches a

/-- The read of a register (R12, R23, R31): its value, zero with an error where it is refused; a lower half latches its upper
half, and the read of that upper half returns the latched value. -/
def readReg (r : Requester) (a : Nat) (s : State) : Nat × State :=
  match (liveReg a).orElse fun _ => stagedReg a with
  | none => (0, refuseAccess r a s)
  | some (reg, _) =>
    if !reachesRead s r a then (0, refuseAccess r a s)
    else if latchOf s a ≠ 0 then (latchOf s a - 1, { s with latches := tabPut 0 s.latches a 0 })
    else if latchingLow.contains reg.name then
      (shownWord s a, { s with latches := tabPut 0 s.latches (a + 4) (shownWord s (a + 4) + 1) })
    else (shownWord s a, s)

end Sys2Proof.Machine
end

