-- ==== Sys2Proof/Machine/Clock.lean ====
section
/-! DEFINITION. Machine/Clock.lean: the period that passes when no command waits (R103, R104, R107, R580, R604). The table of
commands has no row for it. -/

namespace Sys2Proof.Machine

/-- One period of the 25 MHz crystal, in 2^-32 tick: one tick plus the trim of the time base in ppb, rounded to nearest (R10,
R103). -/
def periodLen (trim : Int) : Nat := (2 ^ 32 + roundDiv (trim * 2 ^ 32) 1000000000).toNat

/-- The seconds in holdover (R107, R109): counted while a time base that was locked before has no source. -/
def holdTime (n : Nat) (s : State) : State :=
  if s.time.everLocked ∧ fld s F.WDN_TIME_STAT_SRC = 3 then
    let h := s.time.holdTicks + n
    setFld F.WDN_TIME_STAT_HOLDOVER_S (min 0xFFFF (h / 25000000)) { s with time := { s.time with holdTicks := h } }
  else s

/-- A period of the 32.768 kHz crystal of Indigo (R604): 762 ticks, 61,568/65,536 of a tick, and TRIM; none where the count
would leave its 64 bits. -/
def indigoCount (s : State) : Option State :=
  let len := (Int.ofNat s.ind.frac + 762 * 65536 + 61568 + signed 16 (fld s F.IND_TRIM_TRIM)).toNat
  let n := len / 65536
  if s.ind.count + n ≥ 2 ^ 64 then none
  else some { s with ind := { s.ind with count := s.ind.count + n, frac := len % 65536 } }

/-- Indigo goes on while the 25 MHz crystal runs too (R604): 50,000,000 of its phase are one period of its own crystal. DESIGN CHOICE
(log 132): both crystals have their nominal rates. -/
def indigoPhase (s : State) : Option State :=
  let p := s.ind.phase + 65536
  if p < 50000000 then some { s with ind := { s.ind with phase := p } }
  else indigoCount { s with ind := { s.ind with phase := p - 50000000 } }

/-- A period of the time base while VDD_CORE is applied (R103, R104); TICK counts the ticks (R580). -/
def crystalPeriod (s : State) : Host.Outcome State Fault Refusal :=
  let f := s.time.frac + periodLen s.time.trim
  let n := f / 2 ^ 32
  if s.time.count + n ≥ 2 ^ 64 then .fault .timeBaseExhausted
  else
    match indigoPhase (countDie 0x8A n (holdTime n { s with time := { s.time with count := s.time.count + n, frac := f % 2 ^ 32 } })) with
    | some t => .next t
    | none => .fault .timeBaseExhausted

/-- What happens while VDD_CORE is off: Indigo, where it is powered, goes on by a period of its crystal. -/
def indigoPeriod (s : State) : Host.Outcome State Fault Refusal :=
  if !s.ind.powered then .next s
  else
    match indigoCount s with
    | some t => .next t
    | none => .fault .timeBaseExhausted

/-- What happens while no command waits: the crystal that runs goes on by one period. -/
def idle (s : State) : Host.Outcome State Fault Refusal :=
  match s.pwr.phase with
  | .running => crystalPeriod s
  | .halted => crystalPeriod s
  | _ => indigoPeriod s

/-- A command put at the front of the queue. -/
def putFront (c : Instr) (s : State) : State := { s with pending := c :: s.pending }

end Sys2Proof.Machine
end

