-- ==== Sys2Proof/Machine/Dispatch.lean ====
section
/-! DEFINITION. Machine/Dispatch.lean: the meaning of every command, one arm per constructor. -/

namespace Sys2Proof.Machine

/-- The effect of a command on everything but the queue of waiting commands. -/
def exec (i : Instr) (s : State) : Host.Outcome State Fault Refusal :=
  match i with
  | .frameEdge r => Sys2Proof.Machine.execFrameEdge r s
  | .proposeHardStop infTest written => Sys2Proof.Machine.execProposeHardStop infTest written s
  | .sweepHardStop => Sys2Proof.Machine.execSweepHardStop s
  | .selectHardStop merged => Sys2Proof.Machine.execSelectHardStop merged s
  | .refineHardStop factorising => Sys2Proof.Machine.execRefineHardStop factorising s
  | .verifyHardStop digestLate => Sys2Proof.Machine.execVerifyHardStop digestLate s
  | .emitHardStop late => Sys2Proof.Machine.execEmitHardStop late s
  | .mutexForce resource portA portB => Sys2Proof.Machine.execMutexForce resource portA portB s
  | .mgmtAccessTimeout r isRead addr => Sys2Proof.Machine.execMgmtAccessTimeout r isRead addr s
  | .registerWrite r addr val => Sys2Proof.Machine.execRegisterWrite r addr val s
  | .liveTableWrite r table addr val => Sys2Proof.Machine.execLiveTableWrite r table addr val s
  | .dataPacketRoute p => Sys2Proof.Machine.execDataPacketRoute p s
  | .revokeLease cls res => Sys2Proof.Machine.execRevokeLease cls res s
  | .quarantineUnit unit => Sys2Proof.Machine.execQuarantineUnit unit s
  | .haltUnit unit => Sys2Proof.Machine.execHaltUnit unit s
  | .tileQuarantine tile => Sys2Proof.Machine.execTileQuarantine tile s
  | .stwQuarWrite r c bits => Sys2Proof.Machine.execStwQuarWrite r c bits s
  | .revocationConfirmTimeout unit => Sys2Proof.Machine.execRevocationConfirmTimeout unit s
  | .swpStwRelease r c bits => Sys2Proof.Machine.execSwpStwRelease r c bits s
  | .infRelease r c bit => Sys2Proof.Machine.execInfRelease r c bit s
  | .slvRelease r bits => Sys2Proof.Machine.execSlvRelease r bits s
  | .counterClear r ctr => Sys2Proof.Machine.execCounterClear r ctr s
  | .frameStart port vc => Sys2Proof.Machine.execFrameStart port vc s
  | .csi2Packet port vc dt hdr crcOk payload => Sys2Proof.Machine.execCsi2Packet port vc dt hdr crcOk payload s
  | .frameEnd port vc => Sys2Proof.Machine.execFrameEnd port vc s
  | .lidarPacket port p => Sys2Proof.Machine.execLidarPacket port p s
  | .imuDrdy n => Sys2Proof.Machine.execImuDrdy n s
  | .imuBurstDone n bytes sumOk => Sys2Proof.Machine.execImuBurstDone n bytes sumOk s
  | .nmeaSentence n m => Sys2Proof.Machine.execNmeaSentence n m s
  | .ppsEdge n o => Sys2Proof.Machine.execPpsEdge n o s
  | .ppsMissing n => Sys2Proof.Machine.execPpsMissing n s
  | .gptpSync port o => Sys2Proof.Machine.execGptpSync port o s
  | .gptpSyncTimer port => Sys2Proof.Machine.execGptpSyncTimer port s
  | .peerDelayTimer port delayNs => Sys2Proof.Machine.execPeerDelayTimer port delayNs s
  | .arpRequest port v6 target => Sys2Proof.Machine.execArpRequest port v6 target s
  | .linkLost stream => Sys2Proof.Machine.execLinkLost stream s
  | .linkReturned stream => Sys2Proof.Machine.execLinkReturned stream s
  | .testPeriod stream => Sys2Proof.Machine.execTestPeriod stream s
  | .testItemInject stream => Sys2Proof.Machine.execTestItemInject stream s
  | .testItemDone stream processed => Sys2Proof.Machine.execTestItemDone stream processed s
  | .testStarved stream => Sys2Proof.Machine.execTestStarved stream s
  | .mirrorSample stream stamp bytes => Sys2Proof.Machine.execMirrorSample stream stamp bytes s
  | .sliceFused stream => Sys2Proof.Machine.execSliceFused stream s
  | .solidHoldExpiry cell => Sys2Proof.Machine.execSolidHoldExpiry cell s
  | .pull unit => Sys2Proof.Machine.execPull unit s
  | .workGrant unit => Sys2Proof.Machine.execWorkGrant unit s
  | .taskComplete unit res => Sys2Proof.Machine.execTaskComplete unit res s
  | .taskBudgetExpiry unit => Sys2Proof.Machine.execTaskBudgetExpiry unit s
  | .waitTimeout unit => Sys2Proof.Machine.execWaitTimeout unit s
  | .leaseRequest unit cls client len => Sys2Proof.Machine.execLeaseRequest unit cls client len s
  | .leaseRelease cls res => Sys2Proof.Machine.execLeaseRelease cls res s
  | .leaseRenew cls res => Sys2Proof.Machine.execLeaseRenew cls res s
  | .leaseTermExpiry cls res => Sys2Proof.Machine.execLeaseTermExpiry cls res s
  | .leaseRevokeConfirm cls res => Sys2Proof.Machine.execLeaseRevokeConfirm cls res s
  | .edgeAckTimeout => Sys2Proof.Machine.execEdgeAckTimeout s
  | .flowItemComplete flow seq => Sys2Proof.Machine.execFlowItemComplete flow seq s
  | .itemTimeout flow seq => Sys2Proof.Machine.execItemTimeout flow seq s
  | .candidateWriterStart dom => Sys2Proof.Machine.execCandidateWriterStart dom s
  | .gatherIssue tile => Sys2Proof.Machine.execGatherIssue tile s
  | .gatherAnswer tile which upsets => Sys2Proof.Machine.execGatherAnswer tile which upsets s
  | .gatherTimeout tile which => Sys2Proof.Machine.execGatherTimeout tile which s
  | .keyPacketSend tile => Sys2Proof.Machine.execKeyPacketSend tile s
  | .flushLead => Sys2Proof.Machine.execFlushLead s
  | .l2RewriteDone tile cell => Sys2Proof.Machine.execL2RewriteDone tile cell s
  | .testSliceDone o => Sys2Proof.Machine.execTestSliceDone o s
  | .peerCheck c => Sys2Proof.Machine.execPeerCheck c s
  | .selectLaneAccept lane => Sys2Proof.Machine.execSelectLaneAccept lane s
  | .selectRecord lane => Sys2Proof.Machine.execSelectRecord lane s
  | .quarantineNotice tile => Sys2Proof.Machine.execQuarantineNotice tile s
  | .selectTestDone o => Sys2Proof.Machine.execSelectTestDone o s
  | .mergeDone => Sys2Proof.Machine.execMergeDone s
  | .solverSetupDone lane => Sys2Proof.Machine.execSolverSetupDone lane s
  | .solverIterationDone lane badWord badRecord => Sys2Proof.Machine.execSolverIterationDone lane badWord badRecord s
  | .laneEnd lane => Sys2Proof.Machine.execLaneEnd lane s
  | .solverTestDone lane o => Sys2Proof.Machine.execSolverTestDone lane o s
  | .madderVerdict twin u => Sys2Proof.Machine.execMadderVerdict twin u s
  | .madderInjectionDone rejected cause inTime => Sys2Proof.Machine.execMadderInjectionDone rejected cause inTime s
  | .stopLimitExpiry => Sys2Proof.Machine.execStopLimitExpiry s
  | .releaseAck port client bytes => Sys2Proof.Machine.execReleaseAck port client bytes s
  | .watchdogKick => Sys2Proof.Machine.execWatchdogKick s
  | .watchdogExpiry => Sys2Proof.Machine.execWatchdogExpiry s
  | .doubtPersist => Sys2Proof.Machine.execDoubtPersist s
  | .fabricRestart trig env => Sys2Proof.Machine.execFabricRestart trig env s
  | .restartStepTimeout => Sys2Proof.Machine.execRestartStepTimeout s
  | .safeCtlRestart r => Sys2Proof.Machine.execSafeCtlRestart r s
  | .safeCtlStop r => Sys2Proof.Machine.execSafeCtlStop r s
  | .kermesStart u pack => Sys2Proof.Machine.execKermesStart u pack s
  | .kermesPackDone results => Sys2Proof.Machine.execKermesPackDone results s
  | .kermesOvertime => Sys2Proof.Machine.execKermesOvertime s
  | .faultRecordDrain => Sys2Proof.Machine.execFaultRecordDrain s
  | .dmaSegmentBoundary port arrivals => Sys2Proof.Machine.execDmaSegmentBoundary port arrivals s
  | .engineSegmentBoundary mapLoader => Sys2Proof.Machine.execEngineSegmentBoundary mapLoader s
  | .scrubRead hbm addr flips dev => Sys2Proof.Machine.execScrubRead hbm addr flips dev s
  | .scrubLag hbm => Sys2Proof.Machine.execScrubLag hbm s
  | .ceWindow m bank => Sys2Proof.Machine.execCeWindow m bank s
  | .wipeDone region readBackOk => Sys2Proof.Machine.execWipeDone region readBackOk s
  | .pathCheck port q => Sys2Proof.Machine.execPathCheck port q s
  | .planToGoal port q g => Sys2Proof.Machine.execPlanToGoal port q g s
  | .goalWaitExpiry client tag => Sys2Proof.Machine.execGoalWaitExpiry client tag s
  | .corridorWatch port q => Sys2Proof.Machine.execCorridorWatch port q s
  | .corridorWatchEnd port q => Sys2Proof.Machine.execCorridorWatchEnd port q s
  | .start port q params => Sys2Proof.Machine.execStart port q params s
  | .suspend port q => Sys2Proof.Machine.execSuspend port q s
  | .resume port q => Sys2Proof.Machine.execResume port q s
  | .cancel port q => Sys2Proof.Machine.execCancel port q s
  | .query port q => Sys2Proof.Machine.execQuery port q s
  | .workUnitEnd ctx final r => Sys2Proof.Machine.execWorkUnitEnd ctx final r s
  | .workUnitTimeout ctx => Sys2Proof.Machine.execWorkUnitTimeout ctx s
  | .woadLinkDown cause => Sys2Proof.Machine.execWoadLinkDown cause s
  | .woadLinkUp => Sys2Proof.Machine.execWoadLinkUp s
  | .woadLinkFrame f => Sys2Proof.Machine.execWoadLinkFrame f s
  | .helloTimer => Sys2Proof.Machine.execHelloTimer s
  | .hello m => Sys2Proof.Machine.execHello m s
  | .config m => Sys2Proof.Machine.execConfig m s
  | .pairWaitExpiry => Sys2Proof.Machine.execPairWaitExpiry s
  | .edge m => Sys2Proof.Machine.execEdge m s
  | .delayExchangeTimer => Sys2Proof.Machine.execDelayExchangeTimer s
  | .delayReq sent => Sys2Proof.Machine.execDelayReq sent s
  | .delayResp t1 t2 t3 t4 taiA => Sys2Proof.Machine.execDelayResp t1 t2 t3 t4 taiA s
  | .digest frame ds => Sys2Proof.Machine.execDigest frame ds s
  | .propose m => Sys2Proof.Machine.execPropose m s
  | .ack x => Sys2Proof.Machine.execAck x s
  | .refuse x reason => Sys2Proof.Machine.execRefuse x reason s
  | .commit x => Sys2Proof.Machine.execCommit x s
  | .commitAck x => Sys2Proof.Machine.execCommitAck x s
  | .journal entries x => Sys2Proof.Machine.execJournal entries x s
  | .abdicate frame code => Sys2Proof.Machine.execAbdicate frame code s
  | .takeoverSilence => Sys2Proof.Machine.execTakeoverSilence s
  | .offer o => Sys2Proof.Machine.execOffer o s
  | .verdict frame subjectTwin v detail => Sys2Proof.Machine.execVerdict frame subjectTwin v detail s
  | .emitted frame source => Sys2Proof.Machine.execEmitted frame source s
  | .eligHoldExpiry => Sys2Proof.Machine.execEligHoldExpiry s
  | .xlateExpiry => Sys2Proof.Machine.execXlateExpiry s
  | .rejoinCountExpiry => Sys2Proof.Machine.execRejoinCountExpiry s
  | .jtagBypass => Sys2Proof.Machine.execJtagBypass s
  | .jtagIdcode => Sys2Proof.Machine.execJtagIdcode s
  | .jtagSamplePreload => Sys2Proof.Machine.execJtagSamplePreload s
  | .jtagExtest => Sys2Proof.Machine.execJtagExtest s
  | .jtagDebug => Sys2Proof.Machine.execJtagDebug s
  | .lcGo r => Sys2Proof.Machine.execLcGo r s
  | .lcTokenDone => Sys2Proof.Machine.execLcTokenDone s
  | .kxGo r => Sys2Proof.Machine.execKxGo r s
  | .kxDone => Sys2Proof.Machine.execKxDone s
  | .tamperTrip src => Sys2Proof.Machine.execTamperTrip src s
  | .meshCheck ok => Sys2Proof.Machine.execMeshCheck ok s
  | .cmdDoorbell r tail descs => Sys2Proof.Machine.execCmdDoorbell r tail descs s
  | .hostMessage bytes => Sys2Proof.Machine.execHostMessage bytes s
  | .completionWrite => Sys2Proof.Machine.execCompletionWrite s
  | .deviceMsgTimeout => Sys2Proof.Machine.execDeviceMsgTimeout s
  | .ringDisable r => Sys2Proof.Machine.execRingDisable r s
  | .canFrameRx port f => Sys2Proof.Machine.execCanFrameRx port f s
  | .addressClaimStart => Sys2Proof.Machine.execAddressClaimStart s
  | .addressClaimTimer => Sys2Proof.Machine.execAddressClaimTimer s
  | .addressClaimed m => Sys2Proof.Machine.execAddressClaimed m s
  | .requestPgn pgn src dst => Sys2Proof.Machine.execRequestPgn pgn src dst s
  | .tpMessage src ev => Sys2Proof.Machine.execTpMessage src ev s
  | .clientUnit ident name port bytes => Sys2Proof.Machine.execClientUnit ident name port bytes s
  | .heartbeatRx m => Sys2Proof.Machine.execHeartbeatRx m s
  | .hbTimeoutExpiry => Sys2Proof.Machine.execHbTimeoutExpiry s
  | .bundlePartTxDone => Sys2Proof.Machine.execBundlePartTxDone s
  | .canTxError why => Sys2Proof.Machine.execCanTxError why s
  | .guidanceBundleRx frame part0 bytes => Sys2Proof.Machine.execGuidanceBundleRx frame part0 bytes s
  | .busOff port => Sys2Proof.Machine.execBusOff port s
  | .busOffRecovered port => Sys2Proof.Machine.execBusOffRecovered port s
  | .busOffHoldExpiry port => Sys2Proof.Machine.execBusOffHoldExpiry port s
  | .statPeriodTimer => Sys2Proof.Machine.execStatPeriodTimer s
  | .ochreDatagram => Sys2Proof.Machine.execOchreDatagram s
  | .ochreKeepalive => Sys2Proof.Machine.execOchreKeepalive s
  | .ochreResendRequest bytes => Sys2Proof.Machine.execOchreResendRequest bytes s
  | .plcaBeaconLost => Sys2Proof.Machine.execPlcaBeaconLost s
  | .plcaBeaconReturned => Sys2Proof.Machine.execPlcaBeaconReturned s
  | .powerGood => Sys2Proof.Machine.execPowerGood s
  | .pwrgdTimeout => Sys2Proof.Machine.execPwrgdTimeout s
  | .porRelease e => Sys2Proof.Machine.execPorRelease e s
  | .swapRequest r mask t => Sys2Proof.Machine.execSwapRequest r mask t s
  | .swapCancel r => Sys2Proof.Machine.execSwapCancel r s
  | .stageReport subsystem => Sys2Proof.Machine.execStageReport subsystem s
  | .stageLimitExpiry => Sys2Proof.Machine.execStageLimitExpiry s
  | .replayEnter r => Sys2Proof.Machine.execReplayEnter r s
  | .replayExit r => Sys2Proof.Machine.execReplayExit r s
  | .replayUnit bytes => Sys2Proof.Machine.execReplayUnit bytes s
  | .replayFrameEnd => Sys2Proof.Machine.execReplayFrameEnd s
  | .pwrgdLost => Sys2Proof.Machine.execPwrgdLost s
  | .vcoreOutOfRange => Sys2Proof.Machine.execVcoreOutOfRange s
  | .vcoreTargetWrite r target => Sys2Proof.Machine.execVcoreTargetWrite r target s
  | .avsNoAnswer => Sys2Proof.Machine.execAvsNoAnswer s
  | .tjWarn => Sys2Proof.Machine.execTjWarn s
  | .hbmHot => Sys2Proof.Machine.execHbmHot s
  | .hbmWarn => Sys2Proof.Machine.execHbmWarn s
  | .thermalShutdown => Sys2Proof.Machine.execThermalShutdown s
  | .ignHoldExpiry => Sys2Proof.Machine.execIgnHoldExpiry s
  | .sleep r => Sys2Proof.Machine.execSleep r s
  | .wake src => Sys2Proof.Machine.execWake src s
  | .vbatLoss => Sys2Proof.Machine.execVbatLoss s
  | .trimAdjust => Sys2Proof.Machine.execTrimAdjust s
  | .vbatPowerUp => Sys2Proof.Machine.execVbatPowerUp s
  | .hbmCool => Sys2Proof.Machine.execHbmCool s
  | .tpSessionTimeout src => Sys2Proof.Machine.execTpSessionTimeout src s
  | .gptpSyncTimeout port => Sys2Proof.Machine.execGptpSyncTimeout port s
  | .supLinkUp speed width => Sys2Proof.Machine.execSupLinkUp speed width s
  | .supLinkDown => Sys2Proof.Machine.execSupLinkDown s

end Sys2Proof.Machine
end

