-- ==== Sys2Proof/Safety.lean ====
section
/-! DEFINITION. Safety.lean: the terms in which claims about every step are stated: the canonical form of the sparse tables,
the bounds of the record queue and of the retention log, and the invariant that joins them. -/

namespace Sys2Proof.Machine

/-- The canonical form of a sparse table: keys strictly rising, and no entry equal to what an unlisted key reads as. -/
abbrev Tab.wf {α : Type} (d : α) (t : Tab α) : Prop := t.Pairwise (fun a b => a.1 < b.1) ∧ ∀ e ∈ t, e.2 ≠ d

/-- The canonical form of the memories: bytes that are not 0, by address, and syndromes that are not 0, by word (R367). -/
abbrev Memory.wf (m : MemSt) : Prop := Tab.wf (0 : BitVec 8) m.cells ∧ Tab.wf 0 m.synd

/-- The canonical form of the registers: 32-bit words that differ from the reset value of the register at their address. -/
abbrev Regs.wf (img : Image) (t : Tab Nat) : Prop :=
  t.Pairwise (fun a b => a.1 < b.1) ∧ ∀ e ∈ t, e.2 ≠ resetWord img e.1 ∧ e.2 < 2 ^ 32

/-- The lists of the time base have one place for each receiver, or for each Ethernet port. -/
abbrev TimeSt.shaped (t : TimeSt) : Prop :=
  t.lastPps.length = 2 ∧ t.good.length = 2 ∧ t.miss.length = 2 ∧ t.fixAt.length = 2 ∧ t.gptpSync.length = 4 ∧
    t.lastSync.length = 4 ∧ t.peerDelay.length = 4

/-- The keys of a sparse table rise. -/
abbrev Tab.sorted {α : Type} (t : Tab α) : Prop := t.Pairwise (fun a b => a.1 < b.1)

/-- Select has its 4 lane FIFOs, and its tables are in order. -/
abbrev SelSt.shaped (x : SelSt) : Prop := x.fifos.length = 4 ∧ Tab.sorted x.map ∧ Tab.sorted x.passed

/-- The Conductor's tables are in order. -/
abbrev CndSt.shaped (x : CndSt) : Prop := Tab.sorted x.nodes ∧ Tab.sorted x.flows

/-- What every step keeps of the lists that stand for numbered units (36 streams, the time base's receivers and ports, 4
Solver lanes, 4 Select lanes) and of the order of the sparse tables. -/
structure Shape (s : State) : Prop where
  ing : s.ing.length = 36
  time : s.time.shaped
  lanes : s.slv.lanes.length = 4
  sel : s.sel.shaped
  cnd : s.cnd.shaped
  tiles : Tab.sorted s.swp.tiles

/-- What every step keeps: canonical registers and memories, a record queue of at most 256 (R425), a retention log of at
most 64 (R606) and the lists of numbered units at their lengths. -/
structure Inv (s : State) : Prop where
  regs : Regs.wf s.image s.regs
  mem : Memory.wf s.mem
  queue : s.log.queue.length ≤ 256
  indigo : s.ind.log.length ≤ 64
  shape : Shape s

/-- The block stands safe: SAFE_STOP_N is asserted, or it runs with the signal released (R408, R409, R597). -/
def StandsSafe (s : State) : Prop := s.pwr.safeStop = true ∨ s.pwr.phase = .running

/-- The two states show the same life-critical facts: fuses, SAFE_STOP_N, the frame number and the master count. -/
def SameLife (s t : State) : Prop :=
  t.fuse = s.fuse ∧ t.pwr.safeStop = s.pwr.safeStop ∧ t.frame.num = s.frame.num ∧ t.time.count = s.time.count

/-- A command answers a next state, and Q holds of that state. -/
abbrev Goes (c : Instr) (s : State) (Q : State → Prop) : Prop := ∃ t, exec c s = .next t ∧ Q t

/-- A fault record with these values of R421 waits in the record queue. -/
abbrev Recorded (t : State) (unit cls ev severity : Nat) : Prop :=
  ∃ q ∈ t.log.queue, q.entry.unit = unit ∧ q.entry.cls = cls ∧ q.entry.ev = ev ∧ q.entry.severity = severity

/-- The registers outside a list of addresses read as before. -/
abbrev SameRegsBut (l : List Nat) (s t : State) : Prop := ∀ a, a ∉ l → regWord t a = regWord s a

/-- Every byte of the memories, and the mark of every word, reads as before (R363, R367, R368). -/
abbrev SameMemory (s t : State) : Prop := ∀ a, byteAt t a = byteAt s a ∧ wordSynd t a = wordSynd s a

/-- The address of the register that a fault record advances (R424). -/
def logAddrs : List Nat := [F.WDN_FLOG_STAT_SEQ.addr]

/-- An access is refused (R23): the requester receives an error, a warning of class 0x0B event 0 enters the record queue where it has
room, and nothing changes but the log, its registers and Indigo's copy of it. -/
def Refused (r : Requester) (addr : Nat) (s t : State) : Prop :=
  t.sent = .error r addr none :: s.sent ∧ (s.log.queue.length < 256 → Recorded t 0x90 0x0B 0 1) ∧ SameRegsBut logAddrs s t ∧
    t = { s with sent := t.sent, regs := t.regs, log := t.log, ind := t.ind }

/-- The registers whose write does more than store: each has a command of its own in the table, or is written by the command
queues. -/
def actsOnWrite (reg : RegSpec) (ix : List Nat) (a : Nat) : Bool :=
  cmdRingBase a || (selectedCounter reg.name ix).isSome || ["SWP_STW_QUAR", "SWP_STW_RELEASE"].contains reg.name ||
    [F.WDN_SAFE_CTL_STOP.addr, F.INF_RELEASE_RELEASE.addr, F.SLV_RELEASE_RELEASE.addr, F.CND_SWAP_CTL_REQ.addr,
      F.SUP_SWAP_CTL_REQ.addr, F.SUP_REPLAY_CTL_ENTER.addr, 0x7C1030, 0x7C1038, F.IND_WDOG_KICK.addr,
      F.IND_SLEEP_CTL_SLEEP.addr, F.WDN_VCORE_TARGET.addr, F.SUP_CMD_CTL_EN.addr].contains a

/-- The two fields of a programmable event counter: the lower 32 bits and the upper 16 (R578). -/
def counterFields : CounterId → Fld × Fld
  | .sweepTile t n => (F.SWP_EVCNT_COUNT t.c.val t.t.val n.val, F.SWP_EVCNT_HI_COUNT t.c.val t.t.val n.val)
  | .infTile c n => (F.INF_EVCNT_COUNT c.val n.val, F.INF_EVCNT_HI_COUNT c.val n.val)
  | .steward c n => (F.SWP_STW_EVCNT_COUNT c.val n.val, F.SWP_STW_EVCNT_HI_COUNT c.val n.val)
  | .die n => (F.CND_EVCNT_COUNT n.val, F.CND_EVCNT_HI_COUNT n.val)

/-- A unit is out of service with no task and no lease that is not being revoked (R25, R26). -/
def OutOfWork (u : Nat) (t : State) : Prop :=
  u ∈ t.cnd.outOfService ∧ (∀ g ∈ t.cnd.grants, g.unit ≠ u) ∧ ∀ l ∈ t.cnd.leases, l.holder = u → l.revoking = true

/-- A unit has left service for a timing fault: it is out of work, and the running frame is doubt with bit 4; a replay, which
quarantines, leaves the frame's doubts as they were (R332, R588). -/
def TakenForOverrun (u : Nat) (s t : State) : Prop :=
  OutOfWork u t ∧ (s.replay.active = false → t.frame.flags.getLsbD 4 = true) ∧ (s.replay.active = true → t.frame.flags = s.frame.flags)

/-- A sample that stream n takes when its reception completes: its stamp is not later than its completion, the stream is not
faulted, and a lidar slice has room (R89, R93, R98). -/
def Takes (s : State) (n : Nat) (x : Sample) : Prop :=
  x.stamp ≤ x.done ∧ flag s (F.ING_STREAM_STAT_FAULTED n) = false ∧ (isLidar n = true → sliceLen s n < (streamDecl s n).slice)

/-- Stream n has taken a sample: it is the stream's newest, a lidar's slice holds it, it is counted and the link is up. A sample
that completes in the tick of the running frame's edge stands in that frame's snapshot (R40). -/
def Admitted (n : Nat) (x : Sample) (s t : State) : Prop :=
  let put := fun (l : List Sample) => if isLidar n then x :: l else l
  (streamSt t n).newest = some x ∧
    (joinsEdge s = false → (streamSt t n).snap = (streamSt s n).snap ∧ (streamSt t n).slice = put (streamSt s n).slice ∧
      (streamSt t n).snapSlice = (streamSt s n).snapSlice) ∧
    (joinsEdge s = true → (streamSt t n).snap = some x ∧ (streamSt t n).slice = (streamSt s n).slice ∧
      (streamSt t n).snapSlice = put (streamSt s n).snapSlice) ∧
    fld t (F.ING_STREAM_STAT_SAMPLES n) = (fld s (F.ING_STREAM_STAT_SAMPLES n) + 1) % 2 ^ 28 ∧
    fld t (F.ING_STREAM_STAT_LINK n) = 1

/-- A counter field has advanced by one, or stands at its largest value. -/
def Counted (f : Fld) (s t : State) : Prop := fld t f = min (fld s f + 1) (2 ^ fldWidth f - 1)

/-- Kinds of state that only some commands change. -/
inductive Kind where
  | timeBase | signals | fuses | image | ingress | world | epoch | inference | sweep | select | solver | madder | umber
  | bytes | frameNumber | restart | pairState | swaps | bus | ochre | replay | telemetry | boot | arbitration | held | fifo
deriving DecidableEq, Repr

/-- The commands that may change a kind of state: those to which the spec gives an effect on it, and REGISTER_WRITE where a write of a
register starts such a command. -/
def Kind.mayChange (k : Kind) (c : Instr) : Bool :=
  match k with
  | .timeBase =>
    match c with
    | .frameEdge .. | .nmeaSentence .. | .ppsEdge .. | .ppsMissing .. | .gptpSync .. | .peerDelayTimer .. | .delayResp ..
    | .porRelease .. | .gptpSyncTimeout .. => true
    | _ => false
  | .signals =>
    match c with
    | .frameEdge .. | .emitHardStop .. | .registerWrite .. | .revocationConfirmTimeout .. | .edgeAckTimeout .. |
    .selectTestDone .. | .madderVerdict .. | .madderInjectionDone .. | .stopLimitExpiry .. | .watchdogExpiry .. |
    .doubtPersist .. | .fabricRestart .. | .restartStepTimeout .. | .safeCtlRestart .. | .safeCtlStop .. | .offer .. |
    .verdict .. | .lcTokenDone .. | .tamperTrip .. | .meshCheck .. | .powerGood .. | .pwrgdTimeout .. | .porRelease .. |
    .replayEnter .. | .replayFrameEnd .. | .pwrgdLost .. | .vcoreOutOfRange .. | .thermalShutdown .. | .ignHoldExpiry .. |
    .sleep .. | .wake .. | .vbatPowerUp .. => true
    | _ => false
  | .fuses =>
    match c with
    | .frameEdge .. | .emitHardStop .. | .madderVerdict .. | .offer .. | .verdict .. | .lcTokenDone .. | .porRelease .. |
    .replayFrameEnd .. => true
    | _ => false
  | .image =>
    match c with
    | .porRelease .. => true
    | _ => false
  | .ingress =>
    match c with
    | .frameEdge .. | .registerWrite .. | .frameStart .. | .csi2Packet .. | .frameEnd .. | .lidarPacket .. | .imuDrdy .. |
    .imuBurstDone .. | .nmeaSentence .. | .linkLost .. | .linkReturned .. | .testPeriod .. | .testItemInject .. |
    .testItemDone .. | .testStarved .. | .mirrorSample .. | .sliceFused .. | .taskComplete .. | .fabricRestart .. |
    .canFrameRx .. | .tpMessage .. | .porRelease .. | .replayEnter .. | .replayUnit .. => true
    | _ => false
  | .world =>
    match c with
    | .frameEdge .. | .selectHardStop .. | .emitHardStop .. | .registerWrite .. | .liveTableWrite .. | .dataPacketRoute ..
    | .revocationConfirmTimeout .. | .frameEnd .. | .lidarPacket .. | .imuBurstDone .. | .nmeaSentence .. |
    .mirrorSample .. | .sliceFused .. | .solidHoldExpiry .. | .workGrant .. | .taskComplete .. | .edgeAckTimeout .. |
    .gatherAnswer .. | .gatherTimeout .. | .keyPacketSend .. | .selectLaneAccept .. | .selectRecord .. |
    .selectTestDone .. | .mergeDone .. | .solverIterationDone .. | .madderVerdict .. | .doubtPersist .. |
    .fabricRestart .. | .safeCtlRestart .. | .faultRecordDrain .. | .scrubRead .. | .wipeDone .. | .workUnitEnd .. |
    .propose .. | .refuse .. | .canFrameRx .. | .tpMessage .. | .porRelease .. | .swapRequest .. | .swapCancel .. |
    .stageReport .. | .stageLimitExpiry .. | .replayEnter .. | .replayUnit .. | .replayFrameEnd .. => true
    | _ => false
  | .epoch =>
    match c with
    | .frameEdge .. | .registerWrite .. | .fabricRestart .. | .porRelease .. | .replayEnter .. | .replayUnit .. => true
    | _ => false
  | .inference =>
    match c with
    | .frameEdge .. | .registerWrite .. | .workGrant .. | .taskComplete .. | .gatherAnswer .. | .gatherTimeout .. |
    .selectLaneAccept .. | .solverIterationDone .. | .fabricRestart .. | .porRelease .. | .replayEnter .. | .replayUnit ..
    => true
    | _ => false
  | .sweep =>
    match c with
    | .frameEdge .. | .proposeHardStop .. | .sweepHardStop .. | .selectHardStop .. | .refineHardStop .. |
    .verifyHardStop .. | .emitHardStop .. | .registerWrite .. | .quarantineUnit .. | .tileQuarantine .. | .stwQuarWrite ..
    | .workGrant .. | .taskComplete .. | .taskBudgetExpiry .. | .waitTimeout .. | .leaseTermExpiry .. |
    .candidateWriterStart .. | .gatherIssue .. | .gatherAnswer .. | .gatherTimeout .. | .keyPacketSend .. | .flushLead ..
    | .testSliceDone .. | .peerCheck .. | .selectLaneAccept .. | .madderVerdict .. | .fabricRestart .. | .kermesStart .. |
    .ceWindow .. | .pathCheck .. | .planToGoal .. | .corridorWatch .. | .corridorWatchEnd .. | .start .. | .suspend .. |
    .resume .. | .cancel .. | .query .. | .workUnitEnd .. | .clientUnit .. | .porRelease .. | .replayEnter .. |
    .replayUnit .. => true
    | _ => false
  | .select =>
    match c with
    | .frameEdge .. | .selectHardStop .. | .registerWrite .. | .selectLaneAccept .. | .selectRecord .. |
    .quarantineNotice .. | .selectTestDone .. | .mergeDone .. | .fabricRestart .. | .planToGoal .. | .clientUnit .. |
    .porRelease .. | .replayEnter .. | .replayUnit .. => true
    | _ => false
  | .solver =>
    match c with
    | .frameEdge .. | .selectHardStop .. | .refineHardStop .. | .emitHardStop .. | .registerWrite .. | .mergeDone .. |
    .solverSetupDone .. | .solverIterationDone .. | .laneEnd .. | .solverTestDone .. | .madderVerdict .. |
    .fabricRestart .. | .abdicate .. | .takeoverSilence .. | .offer .. | .verdict .. | .porRelease .. | .replayEnter .. |
    .replayUnit .. | .replayFrameEnd .. => true
    | _ => false
  | .madder =>
    match c with
    | .frameEdge .. | .selectHardStop .. | .refineHardStop .. | .sliceFused .. | .mergeDone .. | .laneEnd .. |
    .madderVerdict .. | .madderInjectionDone .. | .porRelease .. | .replayUnit .. => true
    | _ => false
  | .umber =>
    match c with
    | .frameEdge .. | .emitHardStop .. | .registerWrite .. | .madderVerdict .. | .abdicate .. | .takeoverSilence .. |
    .offer .. | .verdict .. | .emitted .. | .porRelease .. | .replayEnter .. | .replayFrameEnd .. => true
    | _ => false
  | .bytes =>
    match c with
    | .frameEdge .. | .selectHardStop .. | .emitHardStop .. | .registerWrite .. | .dataPacketRoute .. | .frameEnd .. |
    .lidarPacket .. | .imuBurstDone .. | .nmeaSentence .. | .mirrorSample .. | .workGrant .. | .taskComplete .. |
    .candidateWriterStart .. | .gatherAnswer .. | .gatherTimeout .. | .keyPacketSend .. | .l2RewriteDone .. |
    .selectLaneAccept .. | .selectRecord .. | .mergeDone .. | .solverIterationDone .. | .fabricRestart .. |
    .faultRecordDrain .. | .scrubRead .. | .wipeDone .. | .lcTokenDone .. | .tamperTrip .. | .meshCheck .. |
    .canFrameRx .. | .tpMessage .. | .porRelease .. | .replayEnter .. | .replayUnit .. | .replayFrameEnd .. => true
    | _ => false
  | .frameNumber =>
    match c with
    | .frameEdge .. | .registerWrite .. | .revocationConfirmTimeout .. | .edgeAckTimeout .. | .selectTestDone .. |
    .madderVerdict .. | .doubtPersist .. | .fabricRestart .. | .safeCtlRestart .. | .porRelease .. | .replayEnter .. |
    .replayExit .. | .replayUnit .. => true
    | _ => false
  | .restart =>
    match c with
    | .frameEdge .. | .registerWrite .. | .revocationConfirmTimeout .. | .edgeAckTimeout .. | .selectTestDone .. |
    .madderVerdict .. | .doubtPersist .. | .fabricRestart .. | .safeCtlRestart .. | .porRelease .. | .replayExit .. =>
    true
    | _ => false
  | .pairState =>
    match c with
    | .frameEdge .. | .madderVerdict .. | .woadLinkFrame .. | .hello .. | .config .. | .pairWaitExpiry .. | .edge .. |
    .digest .. | .abdicate .. | .takeoverSilence .. | .verdict .. | .eligHoldExpiry .. | .xlateExpiry .. | .tamperTrip ..
    | .meshCheck .. | .guidanceBundleRx .. | .porRelease .. => true
    | _ => false
  | .swaps =>
    match c with
    | .frameEdge .. | .registerWrite .. | .liveTableWrite .. | .revocationConfirmTimeout .. | .edgeAckTimeout .. |
    .selectTestDone .. | .madderVerdict .. | .doubtPersist .. | .fabricRestart .. | .safeCtlRestart .. | .config .. |
    .propose .. | .ack .. | .refuse .. | .commit .. | .commitAck .. | .journal .. | .porRelease .. | .swapRequest .. |
    .swapCancel .. | .stageReport .. | .stageLimitExpiry .. | .replayEnter .. => true
    | _ => false
  | .bus =>
    match c with
    | .frameEdge .. | .proposeHardStop .. | .sweepHardStop .. | .selectHardStop .. | .refineHardStop .. |
    .verifyHardStop .. | .emitHardStop .. | .registerWrite .. | .revokeLease .. | .quarantineUnit .. | .tileQuarantine ..
    | .stwQuarWrite .. | .revocationConfirmTimeout .. | .linkLost .. | .taskComplete .. | .taskBudgetExpiry .. |
    .waitTimeout .. | .leaseTermExpiry .. | .edgeAckTimeout .. | .testSliceDone .. | .peerCheck .. | .selectTestDone .. |
    .madderVerdict .. | .releaseAck .. | .doubtPersist .. | .fabricRestart .. | .safeCtlRestart .. | .kermesStart .. |
    .ceWindow .. | .wipeDone .. | .pathCheck .. | .planToGoal .. | .corridorWatch .. | .corridorWatchEnd .. | .start .. |
    .suspend .. | .resume .. | .cancel .. | .query .. | .workUnitEnd .. | .workUnitTimeout .. | .abdicate .. |
    .takeoverSilence .. | .offer .. | .verdict .. | .addressClaimStart .. | .addressClaimed .. | .tpMessage .. |
    .clientUnit .. | .heartbeatRx .. | .hbTimeoutExpiry .. | .bundlePartTxDone .. | .canTxError .. | .guidanceBundleRx ..
    | .busOff .. | .busOffRecovered .. | .statPeriodTimer .. | .porRelease .. | .replayEnter .. | .replayExit .. |
    .replayUnit .. | .replayFrameEnd .. | .pwrgdLost .. | .vcoreOutOfRange .. | .ignHoldExpiry .. | .tpSessionTimeout ..
    => true
    | _ => false
  | .ochre =>
    match c with
    | .ochreDatagram .. | .ochreKeepalive .. | .ochreResendRequest .. | .porRelease .. => true
    | _ => false
  | .replay =>
    match c with
    | .frameEdge .. | .registerWrite .. | .revocationConfirmTimeout .. | .edgeAckTimeout .. | .selectTestDone .. |
    .madderVerdict .. | .doubtPersist .. | .fabricRestart .. | .safeCtlRestart .. | .porRelease .. | .replayEnter .. |
    .replayExit .. | .replayUnit .. | .replayFrameEnd .. => true
    | _ => false
  | .telemetry =>
    match c with
    | .frameEdge .. | .emitHardStop .. | .porRelease .. | .replayFrameEnd .. => true
    | _ => false
  | .boot =>
    match c with
    | .frameEdge .. | .emitHardStop .. | .registerWrite .. | .liveTableWrite .. | .madderVerdict .. | .offer .. |
    .verdict .. | .porRelease .. | .replayFrameEnd .. => true
    | _ => false
  | .arbitration =>
    match c with
    | .mutexForce .. | .porRelease .. => true
    | _ => false
  | .held =>
    match c with
    | .frameEdge .. | .porRelease .. | .replayUnit .. => true
    | _ => false
  | .fifo =>
    match c with
    | .frameStart .. | .csi2Packet .. | .frameEnd .. | .lidarPacket .. | .nmeaSentence .. | .porRelease .. => true
    | _ => false

/-- A kind of state is the same in both states. -/
def Kind.same : Kind → State → State → Prop
  | .timeBase, s, t => t.time = s.time
  | .signals, s, t => t.pwr.phase = s.pwr.phase ∧ t.pwr.safeStop = s.pwr.safeStop
  | .fuses, s, t => t.fuse = s.fuse
  | .image, s, t => t.image = s.image
  | .ingress, s, t => t.ing = s.ing
  | .world, s, t => t.wld = s.wld
  | .epoch, s, t => t.wld.cur = s.wld.cur
  | .inference, s, t => t.inf = s.inf
  | .sweep, s, t => t.swp = s.swp
  | .select, s, t => t.sel = s.sel
  | .solver, s, t => t.slv = s.slv
  | .madder, s, t => t.mad = s.mad
  | .umber, s, t => t.umb = s.umb
  | .bytes, s, t => t.mem.cells = s.mem.cells ∧ t.mem.synd = s.mem.synd ∧ t.mem.blank = s.mem.blank
  | .frameNumber, s, t => t.frame.num = s.frame.num ∧ t.frame.edgeTick = s.frame.edgeTick
  | .restart, s, t => t.safe.restart = s.safe.restart
  | .pairState, s, t => t.twin.pair = s.twin.pair
  | .swaps, s, t => t.swap = s.swap
  | .bus, s, t => t.bus = s.bus
  | .ochre, s, t => t.och = s.och
  | .replay, s, t => t.replay = s.replay
  | .telemetry, s, t => t.obs = s.obs
  | .boot, s, t => t.boot = s.boot
  | .arbitration, s, t => t.arb = s.arb
  | .held, s, t => t.held = s.held
  | .fifo, s, t => t.fifo = s.fifo

end Sys2Proof.Machine
end

