-- ==== Sys2Proof/Certificates/Slice0/Obligations.lean ====
section
/-! DEFINITION. Certificates/Slice0/Obligations.lean: the statements for the provers. Each docstring names the rules of spec/ that
its statement formalises, or says that the statement is about a choice of the model. Goes c s Q (Safety.lean) says that exec
answers a next state with Q, so a statement with Goes as its conclusion says where a command completes. -/

set_option linter.unusedVariables false

open Sys2Proof Sys2Proof.Machine

/-! ## The queue, the step and the invariant -/

/-- A step with a command at the front of the queue is exec of that command on the state with the queue's rest (the model's queue, log
entry 4). -/
def Obligations.StepRunsFrontCommand : Prop :=
  ∀ (c : Instr) (rest : List Instr) (s : State), step { s with pending := c :: rest } = exec c { s with pending := rest }

/-- Every command goes on in every state, as the model reads the rows (log entry 3): exec neither faults nor refuses, and it leaves the
waiting commands alone. -/
def Obligations.EveryCommandGoesOn : Prop := ∀ (c : Instr) (s : State), Goes c s fun t => t.pending = s.pending

/-- Every step keeps the canonical form of registers and memories, the bounds of the record queue (R425) and of the retention log
(R606), and the lengths and orders of the model's lists. -/
def Obligations.StepKeepsInvariant : Prop := ∀ s t : State, Inv s → step s = .next t → Inv t

/-- The state after reset has the invariant. -/
def Sys2Proof.Claims.ResetHasInvariant : Prop := Inv State.reset

/-- R552, R608, R384 and the state in which the model starts (log entries 5, 6, 7 and 10): in power-on reset with SAFE_STOP_N
asserted, no command waiting and nothing stored. -/
def Sys2Proof.Claims.ResetStandsSafe : Prop :=
  State.reset.pwr.phase = .reset ∧ State.reset.pwr.safeStop = true ∧ State.reset.pending = [] ∧ State.reset.sent = [] ∧
    (∀ a, byteAt State.reset a = 0 ∧ wordSynd State.reset a = 0) ∧ ∀ a, regWord State.reset a = resetWord Image.blank a

/-- Reset: the invariant holds, and the machine stands safe with nothing stored (R552, R608, R384). -/
def Obligations.ResetStandsSafeAndWellFormed : Prop := Sys2Proof.Claims.ResetHasInvariant ∧ Sys2Proof.Claims.ResetStandsSafe

/-! ## The planning frame (chapter 02) -/

/-- R42 and R39: an edge that is due starts a frame with the next number, whatever the fabric and Umber do, and the first edge after a
cold start is that of frame 0. A joining or following device that has not yet adopted takes its twin's number (R443, R446), and
while a replay is open the live counter goes on in place of the frame's number (R588). An edge before its tick is none. -/
def Obligations.FrameEdgeNumbersTheFrame : Prop :=
  ∀ (r : EdgeReadings) (s : State), running s = true →
    (edgeDue s = true → s.replay.active = false → Goes (.frameEdge r) s fun t =>
      t.frame.started = true ∧ t.frame.edgeTick = s.time.count ∧ t.frame.stopped = List.replicate 6 false ∧
        t.frame.num = (adoptNumber s).getD (if s.boot.frameZero then 0 else s.frame.num + 1)) ∧
    (s.replay.active = true → Goes (.frameEdge r) s fun t =>
      t.replay.live = s.replay.live + 1 ∧ t.frame.num = s.frame.num ∧ t.frame.edgeTick = s.frame.edgeTick) ∧
    (edgeDue s = false → exec (.frameEdge r) s = .next s)

/-- The tick of a phase's hard stop in the running frame has come (R30, R44). -/
def Sys2Proof.Claims.StopIsDue (s : State) (p : Nat) : Prop :=
  s.frame.stopped[p]? = some false ∧ s.frame.edgeTick + hardStop s p ≤ s.time.count

/-- The hard stops of the fabric's phases take place in a frame that runs (R44, R47, R49): the sweep closes with no candidate in
flight, Select merges and, where it has handed over a candidate, the Solver has handed one on. -/
def Sys2Proof.Claims.FabricHardStopsComplete : Prop :=
  ∀ s : State, fabricUp s = true → s.frame.started = true → s.replay.active = false →
    (∀ o w, Sys2Proof.Claims.StopIsDue s 0 → Goes (.proposeHardStop o w) s fun t =>
      t.frame.stopped = modAt 0 (fun _ => true) s.frame.stopped ∧ t.frame.num = s.frame.num) ∧
    (Sys2Proof.Claims.StopIsDue s 1 → Goes .sweepHardStop s fun t =>
      t.frame.stopped = modAt 1 (fun _ => true) s.frame.stopped ∧ t.swp.closed = true ∧
        ∀ x ∈ t.swp.tiles, x.2.todo = [] ∧ x.2.flight = [] ∧ x.2.offered = []) ∧
    (∀ n, Sys2Proof.Claims.StopIsDue s 2 → Goes (.selectHardStop n) s fun t =>
      t.frame.stopped = modAt 2 (fun _ => true) s.frame.stopped ∧ t.sel.merged = true) ∧
    (∀ l, Sys2Proof.Claims.StopIsDue s 3 → Goes (.refineHardStop l) s fun t =>
      t.frame.stopped = modAt 3 (fun _ => true) s.frame.stopped ∧ (s.sel.top ≠ [] → t.slv.handed = true))

/-- The hard stops of verify and emit take place in every frame, during a fabric restart too (R44, R49, R64): verify leaves the
bundle's content chosen and emits nothing, and after emit the frame has emitted: one bundle at the hard stop where none went out
earlier (R46), and no second one. -/
def Obligations.VerifyAndEmitComplete : Prop :=
  ∀ s : State, running s = true → s.frame.started = true → s.replay.active = false →
    (∀ late, Sys2Proof.Claims.StopIsDue s 4 → Goes (.verifyHardStop late) s fun t =>
      t.frame.stopped = modAt 4 (fun _ => true) s.frame.stopped ∧ t.frame.choice.isSome = true ∧
        t.frame.emissions = s.frame.emissions) ∧
    (∀ late, Sys2Proof.Claims.StopIsDue s 5 → Goes (.emitHardStop late) s fun t =>
      t.frame.stopped = modAt 5 (fun _ => true) s.frame.stopped ∧
        (s.frame.emittedFrame = false → t.frame.emittedFrame = true ∧ t.frame.emissions = s.frame.emissions + 1 ∧
          ∃ b l m, t.sent = l ++ Output.bundle b :: (m ++ s.sent)) ∧
        (s.frame.emittedFrame = true → t.frame.emissions = s.frame.emissions))

/-- A phase's hard stop that has already taken place in the frame, and one before its tick, has no effect (R30, R44, R47). -/
def Sys2Proof.Claims.HardStopHappensOnce : Prop :=
  ∀ s : State,
    let idle := fun (p : Nat) => s.frame.stopped[p]? = some true ∨ s.time.count < s.frame.edgeTick + hardStop s p
    (∀ o w, idle 0 → exec (.proposeHardStop o w) s = .next s) ∧ (idle 1 → exec .sweepHardStop s = .next s) ∧
    (∀ n, idle 2 → exec (.selectHardStop n) s = .next s) ∧ (∀ l, idle 3 → exec (.refineHardStop l) s = .next s) ∧
    (∀ late, idle 4 → exec (.verifyHardStop late) s = .next s) ∧ (∀ late, idle 5 → exec (.emitHardStop late) s = .next s)

/-- The hard stops of the fabric's phases (R44, R47, R49): each takes place once in a frame. -/
def Obligations.FabricHardStopsCompleteOnce : Prop := Sys2Proof.Claims.FabricHardStopsComplete ∧ Sys2Proof.Claims.HardStopHappensOnce

/-! ## Management network, data network, revocation bus (chapter 01) -/

/-- R12 and R13: what a write does to each bit of a field, by access type: RO ignores it, RW takes it, W1C clears where a 1 is
written and W1S sets there; a WO field keeps no value. -/
def Obligations.AccessTypesWriteBits : Prop :=
  ∀ old v i : Nat,
    (fieldWrite .ro old v).testBit i = old.testBit i ∧ (fieldWrite .rw old v).testBit i = v.testBit i ∧
    (fieldWrite .w1c old v).testBit i = (old.testBit i && !v.testBit i) ∧
    (fieldWrite .w1s old v).testBit i = (old.testBit i || v.testBit i) ∧ (fieldWrite .wo old v).testBit i = old.testBit i

/-- A register write by a requester that reaches the register, to a register that is not swappable and starts nothing, stores
the word by its fields' access types and changes nothing else (R12, R13, R23). A ring base is stored so while the rings are
disabled, and a write of it does nothing while they are enabled (R504). -/
def Sys2Proof.Claims.RegisterWriteStores : Prop :=
  ∀ (r : Requester) (addr : Nat) (val : Word32) (s : State) (reg : RegSpec) (ix : List Nat),
    running s = true → Regs.wf s.image s.regs → liveReg addr = some (reg, ix) → reachesLive s r addr = true → reg.swap = none →
    (actsOnWrite reg ix addr = false ∨ cmdRingBase addr = true ∧ flag s F.SUP_CMD_CTL_EN = false →
      Goes (.registerWrite r addr val) s fun t =>
        regWord t addr = writtenWord reg.fields (regWord s addr) (masked reg ix val.toNat) % 2 ^ 32 ∧
          SameRegsBut [addr] s t ∧ t = { s with regs := t.regs }) ∧
    (cmdRingBase addr = true → flag s F.SUP_CMD_CTL_EN = true → exec (.registerWrite r addr val) s = .next s)

/-- A write to an address at which no register stands, or from a requester outside its reach, is refused (R23, R31). -/
def Sys2Proof.Claims.RegisterWriteRefused : Prop :=
  ∀ (r : Requester) (addr : Nat) (val : Word32) (s : State), running s = true →
    (liveReg addr = none ∧ stagedReg addr = none ∨ (liveReg addr).isSome = true ∧ reachesLive s r addr = false) →
    Goes (.registerWrite r addr val) s (Refused r addr s)

/-- A write to a staged copy (R14, R32, R561, R562, R625): one from a requester that may stage it stores the word; while an open swap
locks the copy the requester receives an error and a warning of class 0x10 event 6 is recorded; any other requester is refused. -/
def Sys2Proof.Claims.StagedWriteStores : Prop :=
  ∀ (r : Requester) (addr : Nat) (val : Word32) (s : State) (reg : RegSpec) (ix : List Nat) (sub : Nat),
    running s = true → Regs.wf s.image s.regs → liveReg addr = none → stagedReg addr = some (reg, ix) → reg.swap = some sub →
    (mayStage s r sub = true → (∀ o, s.swap.user = some o → o.mask.testBit sub = false) →
      Goes (.registerWrite r addr val) s fun t =>
        regWord t addr = writtenWord reg.fields (regWord s addr) (masked reg ix val.toNat) % 2 ^ 32 ∧
          SameRegsBut [addr] s t ∧ t = { s with regs := t.regs }) ∧
    (mayStage s r sub = true → ∀ o, s.swap.user = some o → o.mask.testBit sub = true →
      Goes (.registerWrite r addr val) s fun t =>
        t.sent = .error r addr none :: s.sent ∧ SameRegsBut logAddrs s t ∧ t.swap = s.swap ∧
          (s.log.queue.length < 256 → Recorded t swapUnit 0x10 6 1)) ∧
    (mayStage s r sub = false → Goes (.registerWrite r addr val) s (Refused r addr s))

/-- Register writes (R12 to R14, R23, R31, R32, R504, R561, R562): what a write stores, and where it is refused. -/
def Obligations.RegisterWritesStoreOrAreRefused : Prop :=
  Sys2Proof.Claims.RegisterWriteStores ∧ Sys2Proof.Claims.RegisterWriteRefused ∧ Sys2Proof.Claims.StagedWriteStores

/-- A write to a live protected table (R23, R63, R378 to R382). In DEVELOP it takes effect, by the access types of the fields where the
table is one of registers; it marks a running frame mixed-epoch, which is a doubt with bit 5, and is recorded. In every other
life cycle it is answered with an error and recorded, and changes no table. One outside the requester's reach or outside the table
is refused. A REGISTER_WRITE to a live swappable register is such a write. -/
def Obligations.LiveTableWriteByLifeCycle : Prop :=
  ∀ (r : Requester) (tbl : TableCode) (addr : Nat) (val : Word32) (s : State), running s = true →
    (reachesTable s r tbl addr = true → inTable tbl addr = true → s.fuse.lc = 1 → Regs.wf s.image s.regs →
      Goes (.liveTableWrite r tbl addr val) s fun t =>
        ((tbl = .client ∨ tbl = .registers) → ∀ reg ix, liveReg addr = some (reg, ix) →
          regWord t addr = afterWrite s reg ix addr val.toNat % 2 ^ 32) ∧
        t.wld = (storeTable tbl addr val s).wld ∧ t.boot = (storeTable tbl addr val s).boot ∧
        t.swap = (storeTable tbl addr val s).swap ∧ t.mem.liveWrites = (storeTable tbl addr val s).mem.liveWrites ∧
        (s.frame.started = true → s.time.count - s.frame.edgeTick ≤ hardStop s 5 →
          t.frame.mixed = true ∧ t.frame.flags.getLsbD 5 = true ∧ (s.log.queue.length < 256 → Recorded t 0x84 0x01 5 2)) ∧
        (¬(s.frame.started = true ∧ s.time.count - s.frame.edgeTick ≤ hardStop s 5) →
          t.frame = s.frame ∧ (s.log.queue.length < 256 → Recorded t 0x84 0x01 5 0))) ∧
    (reachesTable s r tbl addr = true → inTable tbl addr = true → s.fuse.lc ≠ 1 → Goes (.liveTableWrite r tbl addr val) s fun t =>
      t.sent = .error r addr none :: s.sent ∧ t.frame = s.frame ∧ t.mem = s.mem ∧ t.wld = s.wld ∧ t.boot = s.boot ∧
        t.swap = s.swap ∧ (s.log.queue.length < 256 → Recorded t 0x84 0x01 4 1)) ∧
    (reachesTable s r tbl addr = false ∨ inTable tbl addr = false →
      Goes (.liveTableWrite r tbl addr val) s (Refused r addr s)) ∧
    ∀ reg ix, liveReg addr = some (reg, ix) → reg.swap.isSome = true →
      exec (.registerWrite r addr val) s = exec (.liveTableWrite r (liveTable reg) addr val) s

/-- A packet whose every word a router delivers to a populated memory that the packet's unit has not lost, with no word of it under a
wipe and no upset on the way (R17 to R19, R24, R364, R383). -/
def Sys2Proof.Claims.Delivered (p : DataPacket) (s : State) : Prop :=
  (∀ w ∈ wordsOf p, populated p w.1 = true ∧ routed s p w.1 = true ∧ lostTo s p.unit w.1 = false ∧ wordSynd s w.1 = 0) ∧
    mustWait s p = false ∧ weightsRefused s p = false ∧ p.flips = 0 ∧ p.dev = .clean

/-- A data-network write that a router delivers stores its bytes at its address and on, and no other byte changes; the written
words are marked Sepia exactly when the packet is (R17, R19, R365, R367, R368). Only event counters change beside (R580). -/
def Sys2Proof.Claims.DataWriteStoresItsBytes : Prop :=
  ∀ (p : DataPacket) (bs : List Byte) (s : State), running s = true → Memory.wf s.mem → p.write = some bs → bs ≠ [] →
    Sys2Proof.Claims.Delivered p s →
    Goes (.dataPacketRoute p) s fun t =>
      (∀ x, byteAt t x = if p.addr.toNat ≤ x ∧ x < p.addr.toNat + bs.length then bs.getD (x - p.addr.toNat) 0 else byteAt s x) ∧
      (∀ i, i < bs.length → wordSynd t (p.addr.toNat + i) = if p.sepia then 3 else 0) ∧ t = { s with mem := t.mem, regs := t.regs }

/-- A data-network read that a router delivers answers the words it touches and changes no memory (R17, R19, R368). -/
def Sys2Proof.Claims.DataReadDeliversWords : Prop :=
  ∀ (p : DataPacket) (s : State), running s = true → p.write = none → 0 < p.len → Sys2Proof.Claims.Delivered p s →
    Goes (.dataPacketRoute p) s fun t =>
      t.sent = .delivered p.addr.toNat ((List.range ((p.addr.toNat % 8 + p.len + 7) / 8)).map
        fun i => some (wordData s (p.addr.toNat / 8 * 8 + 8 * i))) :: s.sent ∧ SameMemory s t ∧
        t = { s with sent := t.sent, regs := t.regs }

/-- An access to a region under a wipe waits, and its unit with it; reads of weights that R176 protects are answered with an error
and recorded (R176, R383). -/
def Sys2Proof.Claims.DataPacketsHeldBack : Prop :=
  ∀ (p : DataPacket) (s : State), running s = true → 0 < packetLen p →
    (∀ w ∈ wordsOf p, populated p w.1 = true → routed s p w.1 = true) →
    (weightsRefused s p = true → Goes (.dataPacketRoute p) s fun t =>
      t.sent = .error (packetRequester p) p.addr.toNat none :: s.sent ∧ t.mem = s.mem ∧
        (s.log.queue.length < 256 → Recorded t 0x84 0x0B 4 1)) ∧
    (weightsRefused s p = false → mustWait s p = true → Goes (.dataPacketRoute p) s fun t =>
      t.mem.waiting = s.mem.waiting ++ [p] ∧ SameMemory s t ∧ t.sent = s.sent ∧
        ∀ g ∈ t.cnd.grants, g.unit = p.unit → g.wait = some s.time.count)

/-- Data packets that a router delivers or holds back (R17, R19, R176, R365, R367, R368, R383): writes and reads. -/
def Obligations.DeliveredPacketsReadAndWrite : Prop :=
  Sys2Proof.Claims.DataWriteStoresItsBytes ∧ Sys2Proof.Claims.DataReadDeliversWords ∧ Sys2Proof.Claims.DataPacketsHeldBack

/-- R18: a read of an unpopulated address is answered with Sepia and a write there is discarded, each with a fault record
that carries the address. It holds word by word of a packet: records that the other words' own errors add beside may fill the
record queue, so the record is stated while it has room for them. A packet with a word for a foreign unit is dropped and
recorded as a fault. -/
def Obligations.UndeliverablePacketsAreRecorded : Prop :=
  ∀ (p : DataPacket) (s : State), running s = true → 0 < packetLen p →
    ((∀ w ∈ wordsOf p, populated p w.1 = true → routed s p w.1 = true) → weightsRefused s p = false → mustWait s p = false →
      Goes (.dataPacketRoute p) s fun t =>
        (∀ w : Nat × Nat, (wordsOf p).find? (fun (x : Nat × Nat) => !populated p x.1) = some w → s.log.queue.length + 3 * (wordsOf p).length + 2 ≤ 256 →
          ∃ q ∈ t.log.queue, q.entry.unit = 0x84 ∧ q.entry.cls = 0x0B ∧ q.entry.ev = 3 ∧ q.entry.detail = w.1 % 2 ^ 64) ∧
        (∀ a, populated p a = false → byteAt t a = byteAt s a ∧ wordSynd t a = wordSynd s a) ∧
        (p.write = none → ∃ l, t.sent = .delivered p.addr.toNat l :: s.sent ∧
          ∀ (i : Nat) (w : Nat × Nat), (wordsOf p)[i]? = some w → populated p w.1 = false → l[i]? = some none)) ∧
    ((∃ w ∈ wordsOf p, populated p w.1 = true ∧ routed s p w.1 = false) → Goes (.dataPacketRoute p) s fun t =>
      SameMemory s t ∧ t.sent = s.sent ∧ (s.log.queue.length < 256 → Recorded t 0x84 0x0B 2 3))

/-- The commands of the Warden revocation bus and the quarantine commands take effect whatever the Conductor does (R22, R24 to R27,
R336, R337). A revoked lease stands as being revoked, with the wipe of its scratch begun, until the wipe returns the resource; a
revocation of a free resource is noted for the grants that it meets. A quarantined unit is out of service and holds no task; a
halted unit holds none. Where a unit's revocations stay unconfirmed, the Warden revokes every lease itself and the frame is doubt. -/
def Obligations.RevocationBusCommands : Prop :=
  ∀ s : State, running s = true →
    (∀ (cls : Fin 6) (res : Nat), Goes (.revokeLease cls res) s fun t =>
      (∀ l ∈ t.cnd.leases, l.cls = cls.val → l.res = res → l.revoking = true) ∧
      ((∃ l ∈ s.cnd.leases, l.cls = cls.val ∧ l.res = res) → ∃ w ∈ t.mem.wipes, w.1 = revokedRegion cls.val res) ∧
      (resourceFree s cls.val res = true → t.cnd.leases = s.cnd.leases ∧ revokedNow t cls.val res = true)) ∧
    (∀ u, u < 128 → Goes (.quarantineUnit u) s (OutOfWork u)) ∧
    (∀ u, Goes (.haltUnit u) s fun t => u ∈ t.cnd.halted ∧ ∀ g ∈ t.cnd.grants, g.unit ≠ u) ∧
    (∀ tile, Goes (.tileQuarantine tile) s fun t => OutOfWork (tileUnit tile) t ∧ tileUnit tile ∈ t.frame.quarantined) ∧
    (∀ u, (∃ l ∈ s.cnd.leases, l.holder = u ∧ l.revoking = true) → Goes (.revocationConfirmTimeout u) s fun t =>
      (∀ l ∈ t.cnd.leases, l.revoking = true) ∧ t.frame.flags.getLsbD 4 = true) ∧
    (∀ u, (∀ l ∈ s.cnd.leases, l.holder = u → l.revoking = false) → exec (.revocationConfirmTimeout u) s = .next s)

/-- Who may write SWP_STW_QUAR of a cluster (R25, R254): the Warden, the Conductor, the cluster's steward, and JTAG in MANUFACTURE,
DEVELOP and RMA. -/
def Sys2Proof.Claims.MayQuarantine (s : State) (r : Requester) (c : Fin 8) : Prop :=
  r = .warden ∨ r = .conductor ∨ r = .steward c ∨ r = .jtag ∧ s.fuse.lc ∈ [0, 1, 3]

/-- The releasing write of a unit (R179, R246, R316): a unit that has passed its pack and is not retired waits for the next edge; any
other stays as it was. -/
def Sys2Proof.Claims.ReleaseWaits (u : Nat) (s t : State) : Prop :=
  u ∈ t.cnd.releasing ↔ u ∈ s.cnd.releasing ∨ u ∈ s.safe.passed ∧ u ∉ s.cnd.retired

/-- A steward, the Conductor or the Warden quarantines tiles by a register write (R25, R254). The Warden alone releases tiles,
inference tiles and lanes, and only those that have passed their pack (R28, R179, R246, R316, R419); a release leaves the unit out
of service to the next edge, which returns it. Every other requester of either is refused (R23). -/
def Obligations.QuarantineAndReleaseWrites : Prop :=
  ∀ (c : Fin 8) (s : State), running s = true →
    (∀ r (bits : BitVec 8), Sys2Proof.Claims.MayQuarantine s r c → Goes (.stwQuarWrite r c bits) s fun t =>
      ∀ k, k < 8 → bits.getLsbD k = true → OutOfWork (c.val * 8 + k) t ∧ c.val * 8 + k ∈ t.frame.quarantined) ∧
    (∀ r (bits : BitVec 8), ¬Sys2Proof.Claims.MayQuarantine s r c →
      Goes (.stwQuarWrite r c bits) s (Refused r (F.SWP_STW_QUAR_QUAR c.val).addr s)) ∧
    (∀ (bits : BitVec 8), Goes (.swpStwRelease .warden c bits) s fun t => t.cnd.outOfService = s.cnd.outOfService ∧
      ∀ k, k < 8 → bits.getLsbD k = true → Sys2Proof.Claims.ReleaseWaits (c.val * 8 + k) s t) ∧
    (Goes (.infRelease .warden c true) s fun t => t.cnd.outOfService = s.cnd.outOfService ∧
      Sys2Proof.Claims.ReleaseWaits (64 + c.val) s t) ∧
    exec (.infRelease .warden c false) s = .next s ∧
    (∀ (bits : BitVec 4), Goes (.slvRelease .warden bits) s fun t => t.cnd.outOfService = s.cnd.outOfService ∧
      ∀ k, k < 4 → bits.getLsbD k = true → Sys2Proof.Claims.ReleaseWaits (72 + k) s t) ∧
    (∀ r : Requester, r ≠ .warden →
      (∀ bits, Goes (.swpStwRelease r c bits) s (Refused r (F.SWP_STW_RELEASE_RELEASE c.val).addr s)) ∧
      (∀ bit, Goes (.infRelease r c bit) s (Refused r F.INF_RELEASE_RELEASE.addr s)) ∧
      ∀ bits, Goes (.slvRelease r bits) s (Refused r F.SLV_RELEASE_RELEASE.addr s)) ∧
    ∀ u ∈ s.cnd.releasing, u ∉ (releaseEdge s).cnd.outOfService ∧ (releaseEdge s).cnd.releasing = []

/-- A forced mutual-exclusion element decides for the lower port and the loser is next (R35); an access that no unit answers
ends with an error, with all-zero data on a read, and a warning that names the block (R21), whose unit is the model's reading
(log entry 15); a counter is cleared on its selector's CLR by a requester that reaches the selector, and by no other (R23, R254,
R579). -/
def Obligations.MutexTimeoutAndCounter : Prop :=
  ∀ s : State, running s = true →
    (∀ res a b : Nat, Goes (.mutexForce res a b) s fun t =>
      (∀ x : ArbSt, x.resource = res → (x ∈ t.arb ↔ x = ⟨res, min a b, max a b⟩)) ∧
        (∀ x : ArbSt, x.resource ≠ res → (x ∈ t.arb ↔ x ∈ s.arb)) ∧ t = { s with arb := t.arb }) ∧
    (∀ (r : Requester) (isRead : Bool) (addr : Nat), Goes (.mgmtAccessTimeout r isRead addr) s fun t =>
      t.sent = .error r addr (if isRead then some 0 else none) :: s.sent ∧
        (s.log.queue.length < 256 → Recorded t (blockUnit addr) 0x0B 1 1) ∧ SameRegsBut logAddrs s t ∧ t.mem = s.mem) ∧
    (Regs.wf s.image s.regs → ∀ (r : Requester) (k : CounterId), reachesLive s r (selectorAddr k) = true →
      Goes (.counterClear r k) s fun t =>
        fld t (counterFields k).1 = 0 ∧ fld t (counterFields k).2 = 0 ∧
          SameRegsBut [(counterFields k).1.addr, (counterFields k).2.addr] s t ∧ t = { s with regs := t.regs }) ∧
    ∀ (r : Requester) (k : CounterId), reachesLive s r (selectorAddr k) = false →
      Goes (.counterClear r k) s (Refused r (selectorAddr k) s)


/-! ## Ingress and the time base (chapter 03) -/

/-- A full FIFO of interface i, which has no flow control, drops what comes in; the drop is counted on stream n and recorded as a
warning (R36). -/
def Sys2Proof.Claims.FullFifoDrops (i n : Nat) (c : Instr) (s : State) : Prop :=
  (fifoTake i s).1 = false → Goes c s fun t => t.ing = s.ing ∧ Counted (F.ING_DROP_CNT_OVERRUN n) s t ∧
    (s.log.queue.length < 256 →
      Recorded t (streamUnit n) (uncoded .fifoFull 0 .warning).cls (uncoded .fifoFull 0 .warning).ev 1)

/-- A packet of a virtual channel that maps to a stream which the device receives, with room in the port's FIFO: a Frame Start begins
an image and drops one that was not complete, counted where it was spoilt; a good long packet of an accepted type, within 4,096
by 3,072 pixels, adds to the image; a wrong CRC and an uncorrectable header spoil it; short packets but Frame Start and End are
ignored (R36, R77, R78, R627). What is too large and a long packet of another type is counted, as log entry 102 says. -/
def Sys2Proof.Claims.CameraPackets (port : Fin 8) (vc : Fin 16) (n : Nat) (s : State) : Prop :=
  (Goes (.frameStart port vc) s fun t => (streamSt t n).filling = some ⟨s.time.count, [], false, none, 0⟩ ∧
    ∀ f, (streamSt s n).filling = some f → f.bad = true → Counted (F.ING_DROP_CNT_INTEGRITY n) s t) ∧
  (∀ dt hdr ok payload f, (streamSt s n).filling = some f →
    (hdr = HeaderState.uncorrectable → Goes (.csi2Packet port vc dt hdr ok payload) s fun t =>
      (streamSt t n).filling = some { f with bad := true }) ∧
    (hdr ≠ .uncorrectable → 0x10 ≤ dt.toNat →
      (ok = false → Goes (.csi2Packet port vc dt hdr ok payload) s fun t => (streamSt t n).filling = some { f with bad := true }) ∧
      (ok = true → ∀ d, dataTypes.find? (fun d => d.1 = dt) = some d →
        (payload.length ≤ d.2 → f.lines < 3072 → Goes (.csi2Packet port vc dt hdr ok payload) s fun t =>
          (streamSt t n).filling = some { f with bytes := f.bytes ++ payload, lines := f.lines + 1 }) ∧
        (d.2 < payload.length ∨ 3072 ≤ f.lines → Goes (.csi2Packet port vc dt hdr ok payload) s fun t =>
          t.ing = s.ing ∧ Counted (F.ING_DROP_CNT_OVERRUN n) s t)))) ∧
  (∀ dt hdr ok payload, hdr ≠ HeaderState.uncorrectable →
    (dt.toNat < 0x10 → Goes (.csi2Packet port vc dt hdr ok payload) s fun t => t.ing = s.ing ∧ t.regs = s.regs) ∧
    (0x10 ≤ dt.toNat → dataTypes.find? (fun d => d.1 = dt) = none → Goes (.csi2Packet port vc dt hdr ok payload) s fun t =>
      Counted (F.ING_DROP_CNT_OVERRUN n) s t ∧ (ok = true → t.ing = s.ing)))

/-- A Frame End delivers a good image with the stamp of its Frame Start less the stream's latency, and drops and counts a spoilt one
(R78, R87, R89). -/
def Sys2Proof.Claims.CameraFrameEnd (port : Fin 8) (vc : Fin 16) (n : Nat) (s : State) : Prop :=
  ((streamSt s n).filling = none → Goes (.frameEnd port vc) s fun t => t.ing = s.ing ∧ t.regs = s.regs) ∧
  ∀ f, (streamSt s n).filling = some f →
    (f.bad = false → Takes s n ⟨f.arrival - latency s n, s.time.count, f.bytes⟩ → Goes (.frameEnd port vc) s fun t =>
      (streamSt t n).filling = none ∧ Admitted n ⟨f.arrival - latency s n, s.time.count, f.bytes⟩ s t) ∧
    (f.bad = true → Goes (.frameEnd port vc) s fun t =>
      (streamSt t n).filling = none ∧ (streamSt t n).newest = (streamSt s n).newest ∧ Counted (F.ING_DROP_CNT_INTEGRITY n) s t)

/-- Camera reception (R36, R76 to R78, R87, R89): what a packet does on a virtual channel that maps to a stream; on one that maps to
none it is discarded and counted under the port's slot 0; of a stream that is not received, and in replay, nothing is taken. -/
def Sys2Proof.Claims.CameraReception : Prop :=
  ∀ (port : Fin 8) (vc : Fin 16) (s : State), running s = true → Inv s →
    (∀ n, camStream s port vc = some n → receives s n = true →
      ((fifoTake port.val s).1 = true → Sys2Proof.Claims.CameraPackets port vc n s ∧ Sys2Proof.Claims.CameraFrameEnd port vc n s) ∧
      Sys2Proof.Claims.FullFifoDrops port.val n (.frameStart port vc) s ∧
      (∀ dt hdr ok payload, Sys2Proof.Claims.FullFifoDrops port.val n (.csi2Packet port vc dt hdr ok payload) s) ∧
      Sys2Proof.Claims.FullFifoDrops port.val n (.frameEnd port vc) s) ∧
    (∀ c, c = Instr.frameStart port vc ∨ c = .frameEnd port vc ∨ (∃ dt hdr ok payload, c = .csi2Packet port vc dt hdr ok payload) →
      (∀ n, camStream s port vc = some n → receives s n = false → exec c s = .next s) ∧
      (camStream s port vc = none → Goes c s fun t =>
        t.ing = s.ing ∧ Counted (F.ING_DROP_CNT_OVERRUN port.val) s t))

/-- The stamp of a lidar packet that completes now: its own packet time while the time base is locked and its descriptor has the
time and its value is valid, and its arrival less the latency otherwise (R81, R87, R626). -/
def Sys2Proof.Claims.LidarStampIs (n : Nat) (bytes : List Byte) (s : State) (stamp : Nat) : Prop :=
  (∀ d ns, (streamDecl s n).points = some d → packetTime d bytes = some ns → timeLocked s = true →
    stamp = if d.tai then taiTick s ns else utcTick s ns) ∧
  ((streamDecl s n).points.bind (packetTime · bytes) = none ∨ timeLocked s = false → stamp = s.time.count - latency s n)

/-- A lidar packet is stamped and joins its slice, and the points of it that are out of range are counted; one that completes before
its stamp, one of a faulted stream and one of a full slice is dropped, the first and the last counted and warned of (R36, R79
to R81, R87, R89, R93, R98). Fragments are counted, and frames that are too long or have two tags and packets of no stream are not
accepted. -/
def Sys2Proof.Claims.LidarReception : Prop :=
  ∀ (port : Fin 4) (p : LidarPkt) (s : State), running s = true → Inv s →
    (p.frameLen > 9216 ∨ p.tags > 1 → exec (.lidarPacket port p) s = .next s) ∧
    (p.frameLen ≤ 9216 → p.tags ≤ 1 →
      (p.fragment = true → Goes (.lidarPacket port p) s fun t =>
        t.ing = s.ing ∧ Counted (F.ING_DROP_CNT_OVERRUN (fragmentStream s port p.mac)) s t) ∧
      (p.fragment = false → lidarStream s port p.mac p.udp = none → exec (.lidarPacket port p) s = .next s) ∧
      ∀ n, p.fragment = false → lidarStream s port p.mac p.udp = some n →
        Sys2Proof.Claims.FullFifoDrops (8 + port.val) n (.lidarPacket port p) s ∧
        ((fifoTake (8 + port.val) s).1 = true → ∀ stamp, Sys2Proof.Claims.LidarStampIs n p.bytes s stamp →
          (Takes s n ⟨stamp, s.time.count, p.bytes⟩ → Goes (.lidarPacket port p) s fun t =>
            Admitted n ⟨stamp, s.time.count, p.bytes⟩ s t ∧
              fld t (F.ING_DROP_CNT_OVERRUN n) = min (fld s (F.ING_DROP_CNT_OVERRUN n) + outOfRange s n p.bytes) 0x3FF) ∧
          (s.time.count < stamp → Goes (.lidarPacket port p) s fun t =>
            streamSt t n = streamSt s n ∧ Counted (F.ING_DROP_CNT_INTEGRITY n) s t ∧
              (s.log.queue.length < 256 → Recorded t (streamUnit n) 0x0A 3 1)) ∧
          (stamp ≤ s.time.count → flag s (F.ING_STREAM_STAT_FAULTED n) = true → Goes (.lidarPacket port p) s fun t =>
            streamSt t n = streamSt s n) ∧
          (stamp ≤ s.time.count → flag s (F.ING_STREAM_STAT_FAULTED n) = false → (streamDecl s n).slice ≤ sliceLen s n →
            Goes (.lidarPacket port p) s fun t => streamSt t n = streamSt s n ∧
              (outOfRange s n p.bytes = 0 → Counted (F.ING_DROP_CNT_OVERRUN n) s t) ∧
              (s.log.queue.length < 256 → Recorded t (streamUnit n) 0x0A 2 1))))

/-- Reception from cameras and lidars (chapter 03). -/
def Obligations.CameraAndLidarReception : Prop := Sys2Proof.Claims.CameraReception ∧ Sys2Proof.Claims.LidarReception

/-- An IMU burst is read once per data-ready edge: an edge during a read is an overrun, a burst with a wrong declared checksum is
discarded and counted, and a good one, of as many bytes as the image describes, is delivered with the stamp of its edge (R83, R84,
R87). An edge of a stream that is not received, and the end of a burst that did not begin, does nothing. -/
def Sys2Proof.Claims.ImuReception : Prop :=
  ∀ (n : Fin 2) (s : State), running s = true → Inv s →
    let k := 24 + n.val
    (receives s k = true → (streamSt s k).filling = none → Goes (.imuDrdy n) s fun t =>
      streamSt t k = { streamSt s k with filling := some ⟨s.time.count, [], false, none, 0⟩, heard := some s.time.count } ∧
        t = { s with ing := t.ing }) ∧
    (receives s k = true → ∀ f, (streamSt s k).filling = some f → Goes (.imuDrdy n) s fun t =>
      streamSt t k = { streamSt s k with heard := some s.time.count } ∧ Counted (F.ING_DROP_CNT_OVERRUN k) s t) ∧
    (receives s k = false → exec (.imuDrdy n) s = .next s) ∧
    (∀ bytes ok, (streamSt s k).filling = none → exec (.imuBurstDone n bytes ok) s = .next s) ∧
    ∀ f bytes, (streamSt s k).filling = some f →
      (∀ ok, ((streamDecl s k).checksum = true → ok = true) →
        Takes s k ⟨f.arrival - latency s k, s.time.count, padTo (streamDecl s k).bytes bytes⟩ →
        Goes (.imuBurstDone n bytes ok) s fun t => (streamSt t k).filling = none ∧
          Admitted k ⟨f.arrival - latency s k, s.time.count, padTo (streamDecl s k).bytes bytes⟩ s t) ∧
      ((streamDecl s k).checksum = true → Goes (.imuBurstDone n bytes false) s fun t =>
        (streamSt t k).filling = none ∧ (streamSt t k).newest = (streamSt s k).newest ∧ Counted (F.ING_DROP_CNT_INTEGRITY k) s t)

/-- NMEA sentences of one epoch gather until the terminator, which delivers the sample with the UTC stamp of its epoch while the time
base is locked and with its arrival less the latency otherwise; a sentence with a bad checksum and one of another type are
discarded and counted; a valid fix is noted (R36, R85, R87, R106). The counters and the sets of epochs are log entries 102 and 106. -/
def Sys2Proof.Claims.GnssReception : Prop :=
  ∀ (n : Fin 2) (m : NmeaMsg) (s : State), running s = true → Inv s →
    let k := 26 + n.val
    let old := epochSet s k m.utcNs
    let f : Filling := { old with bytes := old.bytes ++ m.bytes, utcNs := m.utcNs.orElse fun _ => old.utcNs }
    let stamp := match f.utcNs, timeLocked s with
      | some u, true => utcTick s u
      | _, _ => s.time.count - latency s k
    (receives s k = false → exec (.nmeaSentence n m) s = .next s) ∧
    (receives s k = true → Sys2Proof.Claims.FullFifoDrops (14 + n.val) k (.nmeaSentence n m) s) ∧
    (receives s k = true → (fifoTake (14 + n.val) s).1 = true →
      (m.sumOk = false → Goes (.nmeaSentence n m) s fun t => t.ing = s.ing ∧ Counted (F.ING_DROP_CNT_INTEGRITY k) s t) ∧
      (m.sumOk = true → m.kind = .other → Goes (.nmeaSentence n m) s fun t =>
        t.ing = s.ing ∧ Counted (F.ING_DROP_CNT_OVERRUN k) s t) ∧
      (m.sumOk = true → m.kind ≠ .other → Goes (.nmeaSentence n m) s fun t =>
        (m.kind ≠ (streamDecl s k).terminator → streamSt t k = { streamSt s k with filling := some f }) ∧
        (m.kind = (streamDecl s k).terminator → Takes s k ⟨stamp, s.time.count, f.bytes⟩ →
          (streamSt t k).filling = none ∧ (streamSt t k).heard = some s.time.count ∧ Admitted k ⟨stamp, s.time.count, f.bytes⟩ s t) ∧
        (m.fixValid = true → t.time.fixAt.getD n.val none = some s.time.count)))

/-- Reception from inertial sensors and GNSS receivers (chapter 03). -/
def Obligations.ImuAndGnssReception : Prop := Sys2Proof.Claims.ImuReception ∧ Sys2Proof.Claims.GnssReception

/-- WDN_TIME_STAT shows the source that the order of R106 gives and its port, and LOCKED: after four good edges of a receiver in use, and
for an 802.1AS source at once (log entry 107). -/
def Sys2Proof.Claims.ShowsItsSource (t : State) : Prop :=
  fld t F.WDN_TIME_STAT_SRC = (chooseSource t).1 ∧ fld t F.WDN_TIME_STAT_PORT = (chooseSource t).2 ∧
    (flag t F.WDN_TIME_STAT_LOCKED = true ↔
      (chooseSource t).1 = 2 ∨ (chooseSource t).1 < 2 ∧ t.time.good.getD (chooseSource t).1 0 ≥ 4)

/-- The count does not move, and the trim moves by at most 1 ppm per second and 1 ppm at once, within 200 ppm (R103, R105). -/
def Sys2Proof.Claims.TrimWithinBounds (s t : State) : Prop :=
  t.time.count = s.time.count ∧ (-200000 ≤ s.time.trim → s.time.trim ≤ 200000 →
    -200000 ≤ t.time.trim ∧ t.time.trim ≤ 200000 ∧
      t.time.trim - s.time.trim ≤ Int.ofNat (min 1000 ((s.time.count - s.time.trimStep) / 25000)) ∧
      s.time.trim - t.time.trim ≤ Int.ofNat (min 1000 ((s.time.count - s.time.trimStep) / 25000)))

/-- The time base's references (R82, R86, R103, R105 to R107): a pulse of 1 us or more that comes a second after an accepted edge,
within 250 ppm, is accepted and counts towards lock; one at another time is rejected and counted, and with a missing one counts
against it; the first edge is the reference for the next (log entry 108). An 802.1AS slave port is synchronised by a Sync and not
after a time-out; a master port takes neither. -/
def Sys2Proof.Claims.TimeReferences : Prop :=
  ∀ s : State, running s = true → Inv s →
    (∀ (n : Fin 2) (o : PpsObs), o.widthNs < 1000 → exec (.ppsEdge n o) s = .next s) ∧
    (∀ (n : Fin 2) (o : PpsObs), 1000 ≤ o.widthNs → s.time.lastPps.getD n.val none = none → Goes (.ppsEdge n o) s fun t =>
      t = { s with time := { s.time with lastPps := modAt n.val (fun _ => some s.time.count) s.time.lastPps } }) ∧
    (∀ (n : Fin 2) (o : PpsObs) t0, 1000 ≤ o.widthNs → s.time.lastPps.getD n.val none = some t0 →
      24993750 ≤ s.time.count - t0 → s.time.count - t0 ≤ 25006250 → Goes (.ppsEdge n o) s fun t =>
        t.time.lastPps.getD n.val none = some s.time.count ∧ t.time.miss.getD n.val 0 = 0 ∧
          t.time.good.getD n.val 0 = min 4 (s.time.good.getD n.val 0 + 1) ∧
          Sys2Proof.Claims.ShowsItsSource t ∧ Sys2Proof.Claims.TrimWithinBounds s t) ∧
    (∀ (n : Fin 2) (o : PpsObs) t0, 1000 ≤ o.widthNs → s.time.lastPps.getD n.val none = some t0 →
      (s.time.count - t0 < 24993750 ∨ 25006250 < s.time.count - t0) → Goes (.ppsEdge n o) s fun t =>
        t.time.miss.getD n.val 0 = s.time.miss.getD n.val 0 + 1 ∧ Counted F.WDN_TIME_STAT_PPS_REJ s t ∧
          (3 ≤ s.time.miss.getD n.val 0 + 1 → t.time.good.getD n.val 0 = 0) ∧
          Sys2Proof.Claims.ShowsItsSource t ∧ Sys2Proof.Claims.TrimWithinBounds s t) ∧
    (∀ n : Fin 2, Goes (.ppsMissing n) s fun t =>
      t.time.miss.getD n.val 0 = s.time.miss.getD n.val 0 + 1 ∧
        (3 ≤ s.time.miss.getD n.val 0 + 1 → t.time.good.getD n.val 0 = 0) ∧
        Sys2Proof.Claims.ShowsItsSource t ∧ Sys2Proof.Claims.TrimWithinBounds s t) ∧
    (∀ (port : Fin 4), isSlave s port = true →
      (∀ o, Goes (.gptpSync port o) s fun t => t.time.gptpSync.getD port.val false = true ∧
        t.time.lastSync.getD port.val none = some s.time.count ∧
        Sys2Proof.Claims.ShowsItsSource t ∧ Sys2Proof.Claims.TrimWithinBounds s t) ∧
      (Goes (.gptpSyncTimeout port) s fun t => t.time.gptpSync.getD port.val true = false ∧
        Sys2Proof.Claims.ShowsItsSource t ∧ Sys2Proof.Claims.TrimWithinBounds s t)) ∧
    (∀ (port : Fin 4), isSlave s port = false →
      (∀ o, exec (.gptpSync port o) s = .next s) ∧ exec (.gptpSyncTimeout port) s = .next s)

/-- A master port sends its Sync with TAI, or with the free-running time base before the first lock, and a slave port sends none; peer
delay is measured; a request for the port's own address is answered, and nothing else (R80, R82, R108). -/
def Sys2Proof.Claims.EthernetTransmissions : Prop :=
  ∀ (port : Fin 4) (s : State), running s = true →
    (isSlave s port = false → Goes (.gptpSyncTimer port) s fun t =>
      t = { s with sent := .gptp port.val ((Int.ofNat s.time.count + if s.time.everLocked then s.time.taiOfs else 0) * 40)
                             (!s.time.everLocked) :: s.sent }) ∧
    (isSlave s port = true → exec (.gptpSyncTimer port) s = .next s) ∧
    (Inv s → ∀ d, Goes (.peerDelayTimer port d) s fun t =>
      t.sent = .peerDelayReq port.val :: s.sent ∧ t.time.peerDelay.getD port.val 0 = d ∧ t.time.count = s.time.count) ∧
    (∀ v6 target, portAddr s port v6 = some target → Goes (.arpRequest port v6 target) s fun t =>
      t = { s with sent := .addressAnswer port.val v6 :: s.sent }) ∧
    (∀ v6 target, portAddr s port v6 ≠ some target → exec (.arpRequest port v6 target) s = .next s)

/-- The time base's references and what the Ethernet ports send (chapter 03). -/
def Obligations.TimeReferencesAndEthernet : Prop := Sys2Proof.Claims.TimeReferences ∧ Sys2Proof.Claims.EthernetTransmissions

/-- The loss of a received stream's link, for the streams whose loss is silence after that silence, discards what is in reception,
transport sessions of the stream among it, and counts it; it is told once, and so is the link's return (R94, R99). -/
def Sys2Proof.Claims.LinksAreWatched : Prop :=
  ∀ (n : Fin 36) (s : State), running s = true → Inv s →
    (receives s n.val = true → silent s n.val = true → Goes (.linkLost n) s fun t =>
      (streamSt t n.val).filling = none ∧ (∀ x ∈ t.bus.tp, x ∉ sessionsOf s n.val) ∧
        fld t (F.ING_DROP_CNT_PARTIAL n.val) =
          min (fld s (F.ING_DROP_CNT_PARTIAL n.val) + (if (streamSt s n.val).filling.isSome then 1 else 0) +
            (sessionsOf s n.val).length) (2 ^ fldWidth (F.ING_DROP_CNT_PARTIAL n.val) - 1) ∧
        fld t (F.ING_STREAM_STAT_LINK n.val) = 0 ∧ (streamSt t n.val).lostTold = true ∧
        (streamSt t n.val).newest = (streamSt s n.val).newest ∧
        ((streamSt s n.val).lostTold = false → s.log.queue.length < 256 → Recorded t (streamUnit n.val) 0x0A 0 1) ∧
        ((streamSt s n.val).lostTold = true → t.log = s.log)) ∧
    (receives s n.val = false ∨ silent s n.val = false → exec (.linkLost n) s = .next s) ∧
    (Goes (.linkReturned n) s fun t => fld t (F.ING_STREAM_STAT_LINK n.val) = 1 ∧ (streamSt t n.val).lostTold = false ∧
      (streamSt t n.val).heard = some s.time.count ∧
      ((streamSt s n.val).lostTold = true → s.log.queue.length < 256 → Recorded t (streamUnit n.val) 0x0A 1 0) ∧
      ((streamSt s n.val).lostTold = false → t.log = s.log))

/-- A sample that the twin mirrors, of a stream wired to the twin alone, is taken with the sender's stamp in the own time base while
the link is up; it is not mirrored back, and is not taken otherwise (R100 to R102). -/
def Sys2Proof.Claims.MirroredSamples : Prop :=
  ∀ (n : Fin 36) (stamp : Tick) (bytes : List Byte) (s : State), running s = true → Inv s →
    let here := streamOn s n.val = true ∧ fld s (F.ING_STREAM_CFG_WIRED n.val) = 2 ∧ fld s F.WOD_PAIR_STAT_LINK = 1 ∧
      s.replay.active = false
    (here → Takes s n.val ⟨fromTwin s stamp, s.time.count, bytes⟩ → Goes (.mirrorSample n stamp bytes) s fun t =>
      Admitted n.val ⟨fromTwin s stamp, s.time.count, bytes⟩ s t ∧ t.sent = s.sent) ∧
    (¬here → exec (.mirrorSample n stamp bytes) s = .next s)

/-- Blanking tests (R95, R96, R98): at most one item a period, in a gap; an item that comes back with its CRC-32 and its decoded
values passes, and the second pass in a row ends a fault; another faults the stream, drops what it delivered since the edge, makes
the frame doubt and is recorded; a stream without a finished item for two intervals is told starved, once. -/
def Sys2Proof.Claims.BlankingTests : Prop :=
  ∀ (n : Fin 36) (s : State), running s = true → Inv s →
    let x := streamSt s n.val
    let k := (s.time.count - x.periodFrom) / max 1 (testInterval s)
    (streamOn s n.val = true → x.periodFrom ≤ s.time.count → 1 ≤ k → Goes (.testPeriod n) s fun t =>
      streamSt t n.val = { x with periodUsed := false, periodFrom := x.periodFrom + k * testInterval s } ∧
        t = { s with ing := t.ing }) ∧
    (streamOn s n.val = false ∨ s.time.count < x.periodFrom ∨ k = 0 → exec (.testPeriod n) s = .next s) ∧
    (streamOn s n.val = true → x.periodUsed = false → usableGap s n.val = true → Goes (.testItemInject n) s fun t =>
      streamSt t n.val = { x with periodUsed := true, injecting := some s.time.count, item := Config.testItem n.val (frameN s) } ∧
        t = { s with ing := t.ing }) ∧
    (streamOn s n.val = false ∨ x.periodUsed = true ∨ usableGap s n.val = false → exec (.testItemInject n) s = .next s) ∧
    (∀ bytes, x.injecting = none → exec (.testItemDone n bytes) s = .next s) ∧
    (∀ bytes, x.injecting.isSome = true → crc32 x.item = crc32 bytes → decodedItem s n.val x.item = decodedItem s n.val bytes →
      Goes (.testItemDone n bytes) s fun t =>
        (streamSt t n.val).injecting = none ∧ (streamSt t n.val).testBuf = bytes ∧ (streamSt t n.val).passRun = x.passRun + 1 ∧
          fld t (F.ING_STREAM_STAT_TEST n.val) = 0 ∧ t.frame.flags = s.frame.flags ∧
          (x.passRun ≥ 1 → fld t (F.ING_STREAM_STAT_FAULTED n.val) = 0)) ∧
    (∀ bytes, x.injecting.isSome = true → (crc32 x.item ≠ crc32 bytes ∨ decodedItem s n.val x.item ≠ decodedItem s n.val bytes) →
      Goes (.testItemDone n bytes) s fun t =>
        (streamSt t n.val).injecting = none ∧ (streamSt t n.val).testBuf = bytes ∧ (streamSt t n.val).passRun = 0 ∧
          (streamSt t n.val).newest = x.snap ∧ (streamSt t n.val).slice = [] ∧ t.frame.flags.getLsbD 6 = true ∧
          fld t (F.ING_STREAM_STAT_TEST n.val) = 2 ∧ fld t (F.ING_STREAM_STAT_FAULTED n.val) = 1 ∧
          (if n.val < 32 then maskBit t F.ING_TEST_FAIL_LO_FAIL n.val else maskBit t F.ING_TEST_FAIL_HI_FAIL (n.val - 32)) = true ∧
          (s.log.queue.length < 256 → Recorded t (streamUnit n.val) 0x07 9 2)) ∧
    (streamOn s n.val = true → x.starvedTold = false → x.itemFrom + 2 * testInterval s ≤ s.time.count →
      Goes (.testStarved n) s fun t => fld t (F.ING_STREAM_STAT_TEST n.val) = 3 ∧ (streamSt t n.val).starvedTold = true ∧
        (s.log.queue.length < 256 → Recorded t (streamUnit n.val) 0x07 11 1)) ∧
    (streamOn s n.val = false ∨ x.starvedTold = true ∨ s.time.count < x.itemFrom + 2 * testInterval s →
      exec (.testStarved n) s = .next s)

/-- Stream links, mirrored samples and blanking tests (chapter 03). -/
def Obligations.LinksMirrorsAndBlankingTests : Prop :=
  Sys2Proof.Claims.LinksAreWatched ∧ Sys2Proof.Claims.MirroredSamples ∧ Sys2Proof.Claims.BlankingTests

/-! ## World (chapter 04) -/

/-- World fuses the slices in the order of their queue, each whole (R41, R113, R137, R145, R628): the first slice leaves the queue and
goes into the data of the next epoch and never into the epoch in force, its points outside the vehicle's own spheres go to Madder,
and those at whose time the pose track has a gap are counted. A slice of another stream waits for its turn, and one waits for whose
bricks no slots are left. The end of a SOLID cell's hold frees that cell in the next epoch and changes nothing else (R146). -/
def Obligations.FusionBuildsTheNextEpoch : Prop :=
  ∀ s : State, fabricUp s = true → Inv s →
    (∀ n : Fin 36, s.wld.pendingSlices = [] → exec (.sliceFused n) s = .next s) ∧
    (∀ (n : Fin 36) sl rest, s.wld.pendingSlices = sl :: rest →
      let pts := fusedPoints s sl
      let gaps := (slicePoints s sl).length - pts.length
      let own := insideSelf s (terrainOf s.wld.nxt s.wld.prior s.wld.originF (fuseCfg s))
      let nxt := fuseSlice s.wld.prior s.wld.originF (fuseCfg s) own s.wld.nxt pts
      (sl.stream ≠ n.val ∨ pts ≠ [] ∧ slotRoom s nxt = false → exec (.sliceFused n) s = .next s) ∧
      (sl.stream = n.val → pts = [] ∨ slotRoom s nxt = true → Goes (.sliceFused n) s fun t =>
        t.wld.pendingSlices = rest ∧ t.wld.nxt = nxt ∧ t.wld.cur = s.wld.cur ∧
          t.wld.gapPoints = s.wld.gapPoints + gaps ∧ (0 < gaps → flag t F.WLD_ERR_STAT_POSE_GAP = true) ∧
          t.mad.fused = s.mad.fused ++ pts.filter (fun p => !own p) ∧
          (streamSt t n.val).fusedStamp = sl.pkts.head?.map (·.stamp) ∧
          (streamSt t n.val).fusedNow = (streamSt s n.val).fusedNow ++ sl.pkts.reverse)) ∧
    (∀ cell, Goes (.solidHoldExpiry cell) s fun t =>
      (∀ x, x ∈ t.wld.nxt.solid ↔ x ∈ s.wld.nxt.solid ∧
        ¬(cellCode (dec3 x.1).1 (dec3 x.1).2.1 (dec3 x.1).2.2 = cell ∧ ∃ at0, x.2 = some at0 ∧ at0 ≤ s.time.count)) ∧
      t = { s with wld := { s.wld with nxt := { s.wld.nxt with solid := t.wld.nxt.solid } } })

/-! ## Candidates (chapter 06) -/

/-- The candidate writer of a domain writes once a frame, in a frame that runs and before its propose hard stop, when the proposal
network of domain 0 and the domain's lattice-writer tasks are done, and does nothing otherwise (R188, R630). It numbers the candidates
by descending score (R188), within the domain's cap and each client's quota, of active layers alone, without learned ones of HITCH_ACT
3, and counts every record that it leaves out (R185, R187, R189). -/
def Obligations.CandidateWriterNumbersByScore : Prop :=
  ∀ (dom : Fin 16) (s : State), fabricUp s = true → Inv s →
    let ready := (domSweep s dom.val).written = false ∧ s.frame.started = true ∧ s.frame.stopped.getD 0 false = false ∧
      (dom.val = 0 → s.inf.produced = true) ∧ latticeBusy s dom.val = false
    (ready → Goes (.candidateWriterStart dom) s fun t =>
      let x := domSweep t dom.val
      x.written = true ∧ x.cands.Pairwise (fun a b => b.score ≤ a.score) ∧ x.cands.length ≤ domCap s dom.val ∧
        (∀ c, (x.cands.filter fun y => y.client = c).length ≤ ctxQuota s c) ∧
        (∀ y ∈ x.cands, maskBit s F.CND_LAYER_ACTIVE_ACTIVE y.layer.val = true ∧ ¬(y.kind = 1 ∧ y.hitch = 3)) ∧
        x.cands.length + x.skipQuota + x.skipOther = (considered s dom.val).length + goalSkips s dom.val ∧
        t.wld = s.wld ∧ t.held = s.held) ∧
    (¬ready → exec (.candidateWriterStart dom) s = .next s)

/-! ## The Conductor (chapter 10) -/

/-- A pull waits until work is granted (R323), and a grant gives a waiting puller the node that R324 chooses, with the next item of the
flow that the node consumes (R327), or with the next block of its domain's candidates where the node is the sweep's and the tile's ring
has room for it (R216, R252). Where nothing can be granted the pull goes on waiting. -/
def Sys2Proof.Claims.PullsAndGrants : Prop :=
  ∀ (u : Nat) (s : State), fabricUp s = true → Inv s →
    (u ∉ s.cnd.pulls → (∀ g ∈ s.cnd.grants, g.unit ≠ u) → Goes (.pull u) s fun t =>
      t.cnd.pulls = s.cnd.pulls ++ [u] ∧ t.cnd.grants = s.cnd.grants) ∧
    (u ∈ s.cnd.pulls ∨ (∃ g ∈ s.cnd.grants, g.unit = u) → exec (.pull u) s = .next s) ∧
    (u ∉ s.cnd.pulls ∨ chooseNode s u = none → exec (.workGrant u) s = .next s) ∧
    ∀ e d, u ∈ s.cnd.pulls → chooseNode s u = some e → nodeDesc s e.node = some d →
      let given := fun (item : Option (Nat × Nat)) (block : Option (Nat × Nat)) (t : State) =>
        t.cnd.grants = s.cnd.grants ++ [⟨u, e.node, s.time.count, none, item, block, (nodeRun s e.node).taint⟩] ∧
          u ∉ t.cnd.pulls ∧ (nodeRun t e.node).affinity = some u
      (isSweepNode d = false →
        (d.flow = none → Goes (.workGrant u) s (given none none)) ∧
        ∀ f, d.flow = some f →
          (∀ i, nextItem s u f.val = some i → Goes (.workGrant u) s (given (some (i.flow, i.seq)) none)) ∧
          (nextItem s u f.val = none → exec (.workGrant u) s = .next s)) ∧
      (isSweepNode d = true →
        (nextBlockOf s (unitDomain s u) = none → exec (.workGrant u) s = .next s) ∧
        ∀ b, nextBlockOf s (unitDomain s u) = some b →
          ((tileSt s u).todo.length + (tileSt s u).flight.length + b.2 ≤ 1024 → Goes (.workGrant u) s (given none (some b))) ∧
          (1024 < (tileSt s u).todo.length + (tileSt s u).flight.length + b.2 → exec (.workGrant u) s = .next s))

/-- A task that completes ends its grant (R319, R327); a producer whose successor's flow or readiness count is full waits with its
grant, which counts as a stall and delivers nothing (R320, R328, R330). The end of a task that does not run is none. -/
def Sys2Proof.Claims.TaskCompletionEndsTheGrant : Prop :=
  ∀ (u : Nat) (r : TaskResult) (s : State), fabricUp s = true → Inv s →
    ((∀ g ∈ s.cnd.grants, g.unit ≠ u) → exec (.taskComplete u r) s = .next s) ∧
    ∀ g, s.cnd.grants.find? (fun x => x.unit = u) = some g →
      let full := producerStalls s (((nodeDesc s g.node).map (·.succ)).getD [])
      (g.item ≠ none ∨ full = false → Goes (.taskComplete u r) s fun t => ∀ x ∈ t.cnd.grants, x.unit ≠ u) ∧
      (g.item = none → full = true →
        (g.wait = none → Goes (.taskComplete u r) s fun t =>
          { g with wait := some s.time.count } ∈ t.cnd.grants ∧ t.wld = s.wld ∧ t.inf = s.inf ∧ Counted F.CND_FLOW_STAT_STALL s t) ∧
        (g.wait ≠ none → exec (.taskComplete u r) s = .next s))

/-- Pulls, grants and task completions (chapter 10). -/
def Obligations.GrantsAndCompletions : Prop := Sys2Proof.Claims.PullsAndGrants ∧ Sys2Proof.Claims.TaskCompletionEndsTheGrant

/-- A unit's task has ended without a result, and every lease that it held is revoked (R332, R336); a unit below 76, a tile or a lane,
is out of service. -/
def Sys2Proof.Claims.Overran (u : Nat) (s t : State) : Prop :=
  (u < 76 → TakenForOverrun u s t) ∧ (∀ g ∈ t.cnd.grants, g.unit ≠ u) ∧ (∀ l ∈ t.cnd.leases, l.holder = u → l.revoking = true) ∧
    (s.replay.active = false → t.frame.flags.getLsbD 4 = true) ∧ (s.replay.active = true → t.frame.flags = s.frame.flags)

/-- A task that is past its budget (R331), an iteration of a Solver lane past its own (R313), a wait that has reached WAIT_TO (R330) and a
lease whose term has passed (R335) overrun, whatever the task: the frame is doubt outside a replay (R332, R588), the task ends, its
leases are revoked, and a tile or lane leaves service. Before its time nothing happens. -/
def Obligations.OverrunsTakeUnitsOut : Prop :=
  ∀ s : State, fabricUp s = true → Inv s →
    (∀ u g, s.cnd.grants.find? (fun x => x.unit = u) = some g →
      (g.time + budgetOf s g.node < s.time.count → Goes (.taskBudgetExpiry u) s (Sys2Proof.Claims.Overran u s)) ∧
      (s.time.count ≤ g.time + budgetOf s g.node → exec (.taskBudgetExpiry u) s = .next s)) ∧
    (∀ u, (∀ g ∈ s.cnd.grants, g.unit ≠ u) →
      (laneIterates s u = true → Goes (.taskBudgetExpiry u) s (Sys2Proof.Claims.Overran u s)) ∧
      (laneIterates s u = false → exec (.taskBudgetExpiry u) s = .next s)) ∧
    (∀ u, (∃ g ∈ s.cnd.grants, g.unit = u ∧ waitReached s g = true) → Goes (.waitTimeout u) s fun t =>
      Sys2Proof.Claims.Overran u s t ∧ ∀ w ∈ t.cnd.leaseWaits, w.1 ≠ u) ∧
    (∀ u, (∀ g ∈ s.cnd.grants, g.unit = u → waitReached s g = false) → exec (.waitTimeout u) s = .next s) ∧
    (∀ (cls : Fin 6) res l,
      s.cnd.leases.find? (fun x => x.cls = cls.val ∧ x.res = res ∧ ¬ x.revoking ∧ termPassed s x) = some l →
      Goes (.leaseTermExpiry cls res) s fun t => Sys2Proof.Claims.Overran l.holder s t ∧
        ∀ x ∈ t.cnd.leases, x.cls = cls.val → x.res = res → x.revoking = true) ∧
    (∀ (cls : Fin 6) res,
      (∀ x ∈ s.cnd.leases, x.cls = cls.val → x.res = res → x.revoking = true ∨ termPassed s x = false) →
      exec (.leaseTermExpiry cls res) s = .next s)

/-- A lease request (R27, R333, R334, R360): the lowest free resource of the class goes to the requester, in its client's domain or its own,
and one of class 3 or 4 opens a message context of its engine; without a free resource the request and its task wait. A grant of a
free resource that a revocation meets in the same tick is returned as refused. -/
def Sys2Proof.Claims.LeaseRequests : Prop :=
  ∀ (u : Nat) (cls : Fin 6) (client : Option Nat) (len : Nat) (s : State), fabricUp s = true →
    (∀ r, freeResource s cls.val = some r → Goes (.leaseRequest u cls client len) s fun t =>
      let dom := match client with
        | some c => bitsOf (fld s (F.CND_CLIENT_WORD c 0)) 27 24
        | none => unitDomain s u
      let prio := match client with
        | some c => clientPrio s c
        | none => 8
      let ctx : SegCtx := ⟨r, prio, u, client.getD 0xFFFF, 0, len⟩
      t.cnd.leases = s.cnd.leases ++ [⟨cls.val, r, u, dom, s.time.count, false⟩] ∧ t.cnd.leaseWaits = s.cnd.leaseWaits ∧
        t.cnd.crypto = s.cnd.crypto ++ (if cls.val = 3 then [ctx] else []) ∧
        t.cnd.mapld = s.cnd.mapld ++ (if cls.val = 4 then [ctx] else [])) ∧
    (freeResource s cls.val = none → Goes (.leaseRequest u cls client len) s fun t =>
      t.cnd.leases = s.cnd.leases ∧ t.cnd.leaseWaits = s.cnd.leaseWaits ++ [(u, cls.val, s.time.count)] ∧
        t.cnd.grants = s.cnd.grants.map fun g => if g.unit = u then { g with wait := some s.time.count } else g) ∧
    (∀ x ∈ s.cnd.revoked, x.cls = cls.val → x.tick = s.time.count → resourceFree s cls.val x.res = true →
      Goes (.leaseRequest u cls client len) s fun t => Output.grantRefused u cls.val x.res ∈ t.sent)

/-- A release ends the lease, and a resource of the class that is free then goes to the first waiter in the same tick (R334, R335); a
renewal restarts the term (R335); the holder's confirmation of a revocation begins the wipe with whose end the resource returns to the
pool (R336). A release, a renewal and a confirmation of what is not leased, or not being revoked, change nothing. -/
def Sys2Proof.Claims.LeasesEnd : Prop :=
  ∀ (cls : Fin 6) (res : Nat) (s : State), fabricUp s = true →
    let kept := s.cnd.leases.filter fun l => ¬ (l.cls = cls.val ∧ l.res = res)
    let free := freeResource { s with cnd := { s.cnd with leases := kept } } cls.val
    let first := s.cnd.leaseWaits.find? fun w => w.2.1 = cls.val
    ((∃ l ∈ s.cnd.leases, l.cls = cls.val ∧ l.res = res ∧ l.revoking = false) →
      (first = none ∨ free = none → Goes (.leaseRelease cls res) s fun t =>
        t.cnd.leases = kept ∧ t.cnd.leaseWaits = s.cnd.leaseWaits) ∧
      (∀ w r, first = some w → free = some r → Goes (.leaseRelease cls res) s fun t =>
        t.cnd.leases = kept ++ [⟨cls.val, r, w.1, unitDomain s w.1, s.time.count, false⟩] ∧
          t.cnd.leaseWaits = s.cnd.leaseWaits.erase w ∧ ∀ g ∈ t.cnd.grants, g.unit = w.1 → g.wait = none)) ∧
    ((∀ l ∈ s.cnd.leases, l.cls = cls.val → l.res = res → l.revoking = true) → exec (.leaseRelease cls res) s = .next s) ∧
    ((∃ l ∈ s.cnd.leases, l.cls = cls.val ∧ l.res = res ∧ l.revoking = true) → Goes (.leaseRevokeConfirm cls res) s fun t =>
      t.cnd = s.cnd ∧ ∃ w ∈ t.mem.wipes, w.1 = revokedRegion cls.val res) ∧
    ((∀ l ∈ s.cnd.leases, l.cls = cls.val → l.res = res → l.revoking = false) →
      exec (.leaseRevokeConfirm cls res) s = .next s) ∧
    Goes (.leaseRenew cls res) s fun t => t = { s with cnd := { s.cnd with leases := s.cnd.leases.map fun l =>
      if l.cls = cls.val ∧ l.res = res ∧ ¬ l.revoking then { l with time := s.time.count } else l } }

/-- Ordered flows release their items strictly in sequence (R327, R329): a completed item, or one that is not complete ITEM_TO after its
entry, leaves the window at the release position; behind it, it waits there, complete, and in the second case void. Before
ITEM_TO a time-out is none. -/
def Sys2Proof.Claims.FlowsReleaseInSequence : Prop :=
  ∀ (flow : Fin 256) (q : Nat) (s : State), fabricUp s = true →
    let mine := fun (i : FlowItem) => i.flow = flow.val ∧ i.seq = q
    let due := fun (i : FlowItem) => i.entered + itemTo s flow.val ≤ s.time.count
    let head := (flowSt s flow.val).release
    let waits := ∀ i ∈ s.cnd.items, i.flow = flow.val → i.seq = head → i.complete = false
    (head = q → (∃ i ∈ s.cnd.items, mine i) → Goes (.flowItemComplete flow q) s fun t => ∀ i ∈ t.cnd.items, ¬mine i) ∧
    (head = q → (∃ i ∈ s.cnd.items, mine i ∧ due i) → Goes (.itemTimeout flow q) s fun t => ∀ i ∈ t.cnd.items, ¬mine i) ∧
    (head ≠ q → waits →
      (Goes (.flowItemComplete flow q) s fun t => t = { s with cnd := { s.cnd with
        items := s.cnd.items.map fun i => if i.flow = flow.val ∧ i.seq = q then { i with complete := true } else i } }) ∧
      (Goes (.itemTimeout flow q) s fun t => t = { s with cnd := { s.cnd with
        items := s.cnd.items.map fun i => if i.flow = flow.val ∧ i.seq = q ∧ ¬ i.complete ∧ i.entered + itemTo s flow.val ≤ s.time.count
          then { i with complete := true, void := true } else i } })) ∧
    (waits → (∀ i ∈ s.cnd.items, mine i → ¬due i) → exec (.itemTimeout flow q) s = .next s)

/-- Leases and ordered flows (chapter 10). -/
def Obligations.LeasesAndFlows : Prop :=
  Sys2Proof.Claims.LeaseRequests ∧ Sys2Proof.Claims.LeasesEnd ∧ Sys2Proof.Claims.FlowsReleaseInSequence

/-! ## The sweep (chapter 07) -/

/-- The gather unit issues a gather of one kind when 16 reads of it wait or one has waited 100 ns (R221): as many as wait, up to 16, each
of a query that waits at that kind's stage; with none due it issues nothing. -/
def Sys2Proof.Claims.GatherIssueCollectsOneKind : Prop :=
  ∀ (tile : TileId) (s : State), fabricUp s = true → Inv s →
    let x := tileSt s (tileUnit tile)
    (dueKind s x = none → exec (.gatherIssue tile) s = .next s) ∧
    ∀ k, dueKind s x = some k → Goes (.gatherIssue tile) s fun t => ∃ g,
      (tileSt t (tileUnit tile)).gathers = x.gathers ++ [g] ∧ g.stage = k ∧ g.issued = s.time.count ∧
      1 ≤ g.reads.length ∧ g.reads.length = min 16 (waitingReads x k) ∧
      ∀ r ∈ g.reads, ∃ q ∈ x.queue, q.stage = k ∧ ∃ n, r = (q.cand, q.pose, q.sphere, n)

/-- An answered gather leaves the gather unit, and so does one that has no answer after GATHER_TO, and before that time none (R221, R240).
Where the first read of an answered gather goes to a brick of a later epoch, the frame is mixed-epoch, a doubt (R141). -/
def Sys2Proof.Claims.GathersEnd : Prop :=
  ∀ (tile : TileId) (which : Nat) (s : State), fabricUp s = true → Inv s →
    let u := tileUnit tile
    let x := tileSt s u
    let left := { x with gathers := x.gathers.eraseIdx which }
    (x.gathers[which]? = none → (∀ upsets, exec (.gatherAnswer tile which upsets) s = .next s) ∧
      exec (.gatherTimeout tile which) s = .next s) ∧
    ∀ g, x.gathers[which]? = some g →
      (∀ upsets, Goes (.gatherAnswer tile which upsets) s fun t => (tileSt t u).gathers = x.gathers.eraseIdx which) ∧
      (gatherLate s u g = true → Goes (.gatherTimeout tile which) s fun t => (tileSt t u).gathers = x.gathers.eraseIdx which) ∧
      (gatherLate s u g = false → exec (.gatherTimeout tile which) s = .next s) ∧
      ∀ r rest c, g.reads = r :: rest →
        let s0 := setTile u left s
        candCtx s0 (unitDomain s0 u) r.1 = some c →
        let p := queryPoint s0 c r.2.1 r.2.2.1
        let a := readAddr s0 u p g.stage r.2.2.2
        wordSynd s0 a = 0 → memAt a ≠ none → readSlot s0 u p g.stage ≤ 10239 → brickLate s0 u p g.stage = true →
        Goes (.gatherAnswer tile which []) s fun t => t.frame.mixed = true ∧ t.frame.flags.getLsbD 5 = true

/-- Gathers are issued and end (R141, R221, R240). -/
def Obligations.GathersIssueAndEnd : Prop := Sys2Proof.Claims.GatherIssueCollectsOneKind ∧ Sys2Proof.Claims.GathersEnd

/-- Key packets leave the tiles (R229, R231): a packet that is due takes up to 8 records, one alone from FLUSH_LEAD before the sweep hard
stop on, from the tile's buffer and is offered to its lane, none after the stop; records whose words are good travel as they are. -/
def Sys2Proof.Claims.KeyPacketsAreOffered : Prop :=
  ∀ s : State, fabricUp s = true → Inv s →
    (s.frame.started = true → flushDue s = true → s.replay.active = false → Goes .flushLead s fun t =>
      t = { s with swp := { s.swp with single := true } }) ∧
    (s.frame.started = false ∨ flushDue s = false ∨ s.replay.active = true → exec .flushLead s = .next s) ∧
    ∀ tile : TileId,
      let x := tileSt s (tileUnit tile)
      let n := if s.swp.single then 1 else 8
      (x.out = [] ∨ s.swp.closed = true ∨ packetDue s x = false → exec (.keyPacketSend tile) s = .next s) ∧
      (x.out ≠ [] → s.swp.closed = false → packetDue s x = true → Goes (.keyPacketSend tile) s fun t =>
        ∃ p, (tileSt t (tileUnit tile)).out = x.out.drop n ∧ (tileSt t (tileUnit tile)).offered = x.offered ++ [p] ∧
          p.map (fun e => (e.key, e.tag, e.formed)) = (x.out.take n).map (fun e => (e.key, e.tag, e.formed)) ∧
          ((∀ i, i < 16 → wordSynd s (scratchBase (tileUnit tile) + 0x64000 + 8 * i) = 0) → ∀ e ∈ p, e.sepia = false))

/-- A lane accepts the first packet that a tile of its clusters offers, while its input is open and its FIFO of 4,096 has room, with the
tick of the acceptance (R264, R273). -/
def Sys2Proof.Claims.KeyPacketsAreAccepted : Prop :=
  ∀ (lane : Fin 4) (s : State), fabricUp s = true → Inv s →
    let fifo := s.sel.fifos.getD lane.val []
    (s.swp.tiles.find? (fun t => laneOf t.1 = lane.val ∧ t.2.offered ≠ []) = none ∨ s.swp.closed = true →
      exec (.selectLaneAccept lane) s = .next s) ∧
    ∀ u x p rest, s.swp.tiles.find? (fun t => laneOf t.1 = lane.val ∧ t.2.offered ≠ []) = some (u, x) → x.offered = p :: rest →
      (4096 < fifo.length + p.length → exec (.selectLaneAccept lane) s = .next s) ∧
      (s.swp.closed = false → fifo.length + p.length ≤ 4096 → Goes (.selectLaneAccept lane) s fun t =>
        t.sel.fifos.getD lane.val [] = fifo ++ p.map (fun e => ⟨e, s.time.count⟩) ∧ (tileSt t u).offered = rest)

/-- Key packets travel from the tiles to the lanes (R229, R231, R264, R273). -/
def Obligations.KeyPacketsTravel : Prop := Sys2Proof.Claims.KeyPacketsAreOffered ∧ Sys2Proof.Claims.KeyPacketsAreAccepted

/-- The end of a level-2 word's rewrite gives the word a good check byte, takes it off the list of rewrites and changes no other word;
a rewrite that is not under way does not end (R239). -/
def Sys2Proof.Claims.LevelTwoRewriteRepairsTheWord : Prop :=
  ∀ (tile : TileId) (cell : Nat) (s : State), fabricUp s = true →
    let a := scratchBase (tileUnit tile) + 2 * (cell % 128 + 96 * (cell / 128 % 128) + 9216 * (cell / 16384))
    (s.mem.rewrites.contains (tileUnit tile, cell) = true → Goes (.l2RewriteDone tile cell) s fun t =>
      t.mem.rewrites = s.mem.rewrites.erase (tileUnit tile, cell) ∧ wordSynd t a = 0 ∧
      (∀ b, b / 8 ≠ a / 8 → byteAt t b = byteAt s b ∧ wordSynd t b = wordSynd s b) ∧ t = { s with mem := t.mem }) ∧
    (s.mem.rewrites.contains (tileUnit tile, cell) = false → exec (.l2RewriteDone tile cell) s = .next s)

/-- A test slice that passes within its 40 us is shown so; one that mismatches or takes longer shows as failed and quarantines its tile,
which a pack must then test, and does not make the frame doubt (R243 to R246). Without a tile in its slice nothing ends. -/
def Sys2Proof.Claims.TileTests : Prop :=
  ∀ (o : TestOutcome) (s : State), fabricUp s = true → Inv s →
    (s.frame.testTile = none → exec (.testSliceDone o) s = .next s) ∧
    ∀ u, u < 64 → s.frame.testTile = some u →
      (o = .pass ∧ sliceLate s = false → Goes (.testSliceDone o) s fun t =>
        maskBit t (F.SWP_STW_STAT_TESTED_OK (u / 8)) (u % 8) = true ∧ t.cnd = s.cnd) ∧
      (¬(o = .pass ∧ sliceLate s = false) → Goes (.testSliceDone o) s fun t =>
        OutOfWork u t ∧ kermesUnit u ∈ t.safe.kermesDue ∧ t.frame.flags = s.frame.flags ∧
          maskBit t (F.SWP_TEST_FAIL_FAIL (u / 8)) (u % 8) = true)

/-- A peer check flags the tiles of its cluster whose ratio of contacts deviates, of those in the pool with 1,024 records or more, and
starts every tile of the cluster on a new window; it takes place once, in the frame that ends a window (R248, log entry 121). -/
def Sys2Proof.Claims.PeerChecks : Prop :=
  ∀ (c : Fin 8) (s : State), fabricUp s = true → Inv s →
    (peerDue s c.val = false → exec (.peerCheck c) s = .next s) ∧
    (peerDue s c.val = true → Goes (.peerCheck c) s fun t =>
      let ratio := fun (u : Nat) => ((tileSt s u).winContact, (tileSt s u).winResolved)
      let pool := ((List.range 8).map (c.val * 8 + ·)).filter fun u => inPool s u
      c.val ∈ t.frame.peerDone ∧ t.frame.flags = s.frame.flags ∧
      (∀ k, k < 8 → (tileSt t (c.val * 8 + k)).winResolved = 0 ∧ (tileSt t (c.val * 8 + k)).winContact = 0) ∧
      ∀ u ∈ pool, 1024 ≤ (ratio u).2 →
        peerDeviates (fld s (F.SWP_PEER_CFG_PEER_TH c.val)) (ratio u)
          ((pool.filter fun v => v ≠ u ∧ unitDomain s v = unitDomain s u).map ratio) = true →
        maskBit t (F.SWP_PEER_FLAG_FLAG c.val) (u % 8) = true)

/-- Level-2 rewrites, tile tests and peer checks (R239, R243 to R246, R248). -/
def Obligations.LevelTwoRewritesAndTileTests : Prop :=
  Sys2Proof.Claims.LevelTwoRewriteRepairsTheWord ∧ Sys2Proof.Claims.TileTests ∧ Sys2Proof.Claims.PeerChecks

/-! ## Select (chapter 08) -/

/-- Handling a record changes neither the resolution map nor a list, and takes it off its lane's FIFO. -/
def Sys2Proof.Claims.RecordDiscarded (lane : Fin 4) (rest : List LaneRec) (s t : State) : Prop :=
  t.sel.fifos.getD lane.val [] = rest ∧ t.sel.map = s.sel.map ∧ t.sel.lists = s.sel.lists ∧ t.sel.passed = s.sel.passed

/-- A record whose candidate the frame has, with good words in the maps of its candidate (R265, R266, R269, R281): one of another
domain, one of a quarantined tile and one with a key that is none is discarded and counted; the second record of a candidate
unresolves it and counts as bad; any other resolves it with its status and tile, and its key goes where R263 sends it. -/
def Sys2Proof.Claims.RecordResolves (lane : Fin 4) (e : KeyRec) (c : Cand) (rest : List LaneRec) (s : State) : Prop :=
  let d := tagDomain e.tag
  let i := keyIndex e.key
  let bad := (!keyContact e.key && decide (e.key / 2 ^ 32 = 0xFFFFFFFF)) || (keyContact e.key && decide (keyCause e.key ≥ 10))
  let out := Sys2Proof.Claims.RecordDiscarded lane rest s
  (cliDomain s c.client ≠ d → Goes (.selectRecord lane) s fun t => out t ∧ Counted F.SEL_DROP_CNT_1_BAD s t) ∧
  (cliDomain s c.client = d →
    (tagTile e.tag ∈ s.frame.quarantined → Goes (.selectRecord lane) s fun t => out t ∧ t.sel.quar = s.sel.quar + 1) ∧
    (tagTile e.tag ∉ s.frame.quarantined →
      (bad = true → Goes (.selectRecord lane) s fun t => out t ∧ Counted F.SEL_DROP_CNT_1_BAD s t) ∧
      (bad = false → wordSynd s (resolutionAddr (domFirst s d + i)) = 0 →
        (isResolved s d i = true → Goes (.selectRecord lane) s fun t =>
          t.sel.fifos.getD lane.val [] = rest ∧ isResolved t d i = false ∧ Counted F.SEL_DROP_CNT_1_BAD s t) ∧
        (isResolved s d i = false → Goes (.selectRecord lane) s fun t =>
          let mine := fun (l : SelList) => decide (l.client = c.client) && (decide (d = 0) || !l.motion)
          t.sel.fifos.getD lane.val [] = rest ∧ tabGet 0 t.sel.map (mapKey d i) = resolvedByte e.key (tagTile e.tag) ∧
          (c.kind = 2 → tabGet 0 t.sel.passed (mapKey d i) = e.key + 1 ∧ t.sel.lists = s.sel.lists) ∧
          (c.kind ≠ 2 → t.sel.passed = s.sel.passed ∧ t.sel.lists = if keyContact e.key then s.sel.lists
            else s.sel.lists.map fun l => if mine l then addToList lane.val e l else l)))))

/-- A record that leaves a lane FIFO is checked in the order of R265 (R50, R51, R265): a late one is counted, but for a replay; then one
that is Sepia is recorded; then a stale one is counted; then one without a candidate in this frame counts as bad; none of these
resolves anything. With an empty FIFO nothing is handled. -/
def Obligations.SelectRecordChecksInOrder : Prop :=
  ∀ (lane : Fin 4) (s : State), fabricUp s = true → Inv s →
    (s.sel.fifos.getD lane.val [] = [] → exec (.selectRecord lane) s = .next s) ∧
    ∀ r rest, s.sel.fifos.getD lane.val [] = r :: rest →
      let late := s.frame.edgeTick + hardStop s 1 ≤ r.accepted ∧ s.replay.active = false
      let d := tagDomain r.entry.tag
      let i := keyIndex r.entry.key
      let out := Sys2Proof.Claims.RecordDiscarded lane rest s
      (late → Goes (.selectRecord lane) s fun t => out t ∧ t.sel.late = s.sel.late + 1) ∧
      (¬late → r.entry.sepia = true → Goes (.selectRecord lane) s fun t => out t ∧ (s.log.queue.length < 256 →
        Recorded t 0x80 (uncoded .selectRecord 0 .warning).cls (uncoded .selectRecord 0 .warning).ev 1)) ∧
      (¬late → r.entry.sepia = false →
        (tagFrame r.entry.tag ≠ frameN s % 64 → Goes (.selectRecord lane) s fun t => out t ∧ t.sel.stale = s.sel.stale + 1) ∧
        (tagFrame r.entry.tag = frameN s % 64 →
          ((domSweep s d).cands[i]? = none → Goes (.selectRecord lane) s fun t => out t ∧ Counted F.SEL_DROP_CNT_1_BAD s t) ∧
          ∀ c, (domSweep s d).cands[i]? = some c → wordSynd s (clientMapAddr (domFirst s d + i)) = 0 →
            s.sel.spoiled.contains (mapKey d i) = false → Sys2Proof.Claims.RecordResolves lane r.entry c rest s))

/-- A quarantine notice of a tile that is quarantined in the frame takes every entry of the tile out of every list and unresolves its
candidates, which count as dropped (R25, R267); of any other tile it is none. -/
def Sys2Proof.Claims.QuarantineNotices : Prop :=
  ∀ (tile : TileId) (s : State), fabricUp s = true →
    (s.frame.quarantined.contains (tileUnit tile) = true → Goes (.quarantineNotice tile) s fun t =>
      (∀ l ∈ t.sel.lists, ∀ p ∈ l.pieces, ∀ e ∈ p.2, tagTile e.2 ≠ tileUnit tile) ∧
      (∀ m ∈ t.sel.map, ¬(m.2.testBit 7 = true ∧ m.2 % 64 = tileUnit tile)) ∧
      t.sel.quar = s.sel.quar + (s.sel.map.filter fun m => m.2.testBit 7 && decide (m.2 % 64 = tileUnit tile)).length) ∧
    (s.frame.quarantined.contains (tileUnit tile) = false → exec (.quarantineNotice tile) s = .next s)

/-- A test of Select that fails, in the propose phase of every 16th frame, makes Select faulty and triggers the safe-state restart (R280,
R281, R410); one that passes, and one that is not due, changes nothing. -/
def Sys2Proof.Claims.SelectTests : Prop :=
  ∀ (o : TestOutcome) (s : State), fabricUp s = true → Inv s →
    (o = .pass ∨ selectTestDue s = false → exec (.selectTestDone o) s = .next s) ∧
    (o ≠ .pass → selectTestDue s = true → Goes (.selectTestDone o) s fun t => t.sel.faulty = true ∧
      (s.safe.restart = none → (restartsInWindow s).length < fld s F.WDN_RESTART_CFG_RESTART_MAX →
        ∃ r, t.safe.restart = some r ∧ r.trigger = .select ∧ r.phase = .halted))

/-- The merge takes place once, after the sweep hard stop, or in a replay when the sweep is done, and before the select hard stop (R273,
R588): the FIFOs are then empty, and at most four entries stand for the Solver (R275). -/
def Sys2Proof.Claims.MergeHandsOverAtMostFour : Prop :=
  ∀ s : State, fabricUp s = true → Inv s →
    let due := (s.swp.closed = true ∨ s.replay.active = true ∧ sweepIdle s = true) ∧ s.sel.merged = false ∧
      s.frame.stopped.getD 2 false = false
    (due → Goes .mergeDone s fun t =>
      t.sel.merged = true ∧ (∀ f ∈ t.sel.fifos, f = []) ∧ (t.sel.top.length ≤ 4 ∨ t.sel.top = s.sel.top)) ∧
    (¬due → exec .mergeDone s = .next s)

/-- Quarantine notices, Select's test and the merge (R25, R267, R273, R275, R280, R281). -/
def Obligations.SelectNoticesTestsAndMerge : Prop :=
  Sys2Proof.Claims.QuarantineNotices ∧ Sys2Proof.Claims.SelectTests ∧ Sys2Proof.Claims.MergeHandsOverAtMostFour

/-! ## The Solver (chapter 09) -/

/-- A lane's setup forms the merit of its candidate, and takes a feasible warm-start record with a lower merit in its place; with
MAX_ITER 0 the lane ends after it (R289, R295 to R297). -/
def Sys2Proof.Claims.SolverSetup : Prop :=
  ∀ (lane : Fin 4) (s : State), fabricUp s = true → Inv s →
    (laneWork s lane.val = none → exec (.solverSetupDone lane) s = .next s) ∧
    ∀ l e x, laneWork s lane.val = some (l, e, x) →
      (l.setup = true → exec (.solverSetupDone lane) s = .next s) ∧
      (l.setup = false → Goes (.solverSetupDone lane) s fun t =>
        let own := meritOf (slvWeights s) x.layer x.exp x.exp
        let n := laneSt t lane.val
        n.setup = true ∧ n.entry = l.entry ∧ n.outcome = (if fld s F.SLV_CFG_MAX_ITER = 0 then some 2 else none) ∧
          (n.merit = own ∧ n.best = l.best ∨ ∃ w j, warmRecord s (keyIndex e.key) x.cand = some w ∧
            judgeRecord s x (keyClearance e.key) w = some j ∧ j < own ∧ n.merit = j ∧ n.best = some { w with jq := jqOf j } ∧
            n.warm = true))

/-- An iteration of a lane either takes a record with a lower merit in place of its best, and then the lane converges, has done MAX_ITER
iterations or goes on; or it leaves the best record as it was and the lane ends as stalled (R290 to R295). A bad word of the lane's
own store stalls it, and a bad record loses it (R316). -/
def Sys2Proof.Claims.SolverIterations : Prop :=
  ∀ (lane : Fin 4) (badWord badRecord : Bool) (s : State), fabricUp s = true → Inv s →
    (laneWork s lane.val = none → exec (.solverIterationDone lane badWord badRecord) s = .next s) ∧
    ∀ l e x, laneWork s lane.val = some (l, e, x) →
      (l.setup = false ∨ l.outcome.isSome = true → exec (.solverIterationDone lane badWord badRecord) s = .next s) ∧
      (l.setup = true → l.outcome = none → Goes (.solverIterationDone lane badWord badRecord) s fun t =>
        let n := laneSt t lane.val
        let stalled := n.outcome = some 3 ∧ n.best = l.best ∧ n.merit = l.merit ∧ n.iters = l.iters
        (badRecord = true → n.lost = true ∧ n.outcome = some 6 ∧ n.best = l.best) ∧
        (badRecord = false → badWord = true → stalled) ∧
        (badRecord = false → stalled ∨
          n.iters = l.iters + 1 ∧ n.merit < l.merit ∧ (∃ r, n.best = some r ∧ r.jq = jqOf n.merit ∧ r.iter = l.iters + 1) ∧
            (n.outcome = some 1 ∨ n.outcome = some 2 ∨ n.outcome = none ∧ n.iters < fld s F.SLV_CFG_MAX_ITER)))

/-- The lanes of the Solver only improve (R289 to R297, R316). -/
def Obligations.SolverLanesOnlyImprove : Prop := Sys2Proof.Claims.SolverSetup ∧ Sys2Proof.Claims.SolverIterations

/-- A lane that has an outcome ends while the refine phase is open, and when no lane in service is still at work the Solver hands its one
trajectory on, where Select had handed one over (R285, R307); one without an outcome or after the phase does not. -/
def Sys2Proof.Claims.SolverEnds : Prop :=
  ∀ (lane : Fin 4) (s : State), fabricUp s = true → Inv s →
    let ready := (laneSt s lane.val).outcome.isSome = true ∧ (laneSt s lane.val).entry.isSome = true ∧ refineOpen s = true
    (ready → Goes (.laneEnd lane) s fun t => (laneSt t lane.val).ended = true ∧
      ((∀ n, n < 4 → n ≠ lane.val → (laneSt s n).entry = none ∨ (laneSt s n).ended = true ∨ outOfService s (72 + n) = true) →
        s.sel.top ≠ [] → t.slv.handed = true)) ∧
    (¬ready → exec (.laneEnd lane) s = .next s)

/-- A lane's test that passes is shown, and one that fails is shown and recorded, and takes the lane out of service at the next edge
(R315, R316); a test that is not due changes nothing. -/
def Sys2Proof.Claims.SolverTests : Prop :=
  ∀ (lane : Fin 4) (o : TestOutcome) (s : State), fabricUp s = true → Inv s →
    (solverTestDue s lane.val o = false → exec (.solverTestDone lane o) s = .next s) ∧
    (solverTestDue s lane.val o = true →
      (o = .pass → Goes (.solverTestDone lane o) s fun t =>
        maskBit t F.SLV_STAT_TESTED_OK lane.val = true ∧ t.slv = s.slv) ∧
      (o ≠ .pass → Goes (.solverTestDone lane o) s fun t =>
        lane.val ∈ t.slv.pendingOut ∧ maskBit t F.SLV_STAT_TESTED_OK lane.val = false ∧ flag t F.SLV_STAT_TEST_FAIL = true ∧
          (s.log.queue.length < 256 → Recorded t (72 + lane.val) 0x07 (if ∃ e, o = .guardFail e then 5 else 3) 3))) ∧
    ∀ n ∈ s.slv.pendingOut, n < 4 → 72 + n ∈ (solverEdge s).cnd.outOfService

/-- The Solver's lanes end and are tested (R285, R307, R315, R316). -/
def Obligations.SolverEndsAndTests : Prop := Sys2Proof.Claims.SolverEnds ∧ Sys2Proof.Claims.SolverTests

/-! ## Safety (chapter 12) -/

/-- The commands that can put another frame in the frame's place: an edge, a frame of a replay, the opening and the end of a replay, a
register write that does one of these, and a cold start (R42, R586 to R591). -/
def Sys2Proof.Claims.ReplacesFrame (c : Instr) : Prop :=
  match c with
  | .frameEdge _ | .replayUnit _ | .replayEnter _ | .replayExit _ | .porRelease _ => True
  | .registerWrite _ addr _ => addr = F.SUP_REPLAY_CTL_ENTER.addr
  | _ => False

/-- R390 and R393: a doubt that is marked in a frame stands to the end of the frame, whatever is commanded. Only the commands that can
put another frame in the frame's place can clear it. -/
def Obligations.DoubtStandsToTheFramesEnd : Prop :=
  ∀ (c : Instr) (s t : State) (b : Nat), exec c s = .next t → ¬Sys2Proof.Claims.ReplacesFrame c →
    s.frame.flags.getLsbD b = true → t.frame.flags.getLsbD b = true

/-- R409, R442 and R529: once asserted, SAFE_STOP_N is released by nothing but the emission of a frame with no doubt whose number the
accepted acknowledgement carries, which is then spent, and never in CONFLICT. Where the device counts its own frames, CLEAN_FRAMES
clean ones have gone before, this one among them, and the edge state is at rest. -/
def Obligations.SafeStopIsReleasedOnlyAtAnAcknowledgedEmission : Prop :=
  ∀ (c : Instr) (s t : State), exec c s = .next t → s.pwr.safeStop = true → t.pwr.safeStop = false →
    (c = .replayFrameEnd ∨ (∃ late, c = .emitHardStop late) ∨ ∃ r, c = .frameEdge r) ∧ s.safe.acked = some s.frame.num ∧
      t.safe.acked = none ∧ s.frame.flags = 0 ∧ s.twin.pair ≠ .conflict ∧
      (follower s = false → (edgePose s).v = 0 ∧ fld s F.WDN_REL_CFG_CLEAN_FRAMES ≤ s.safe.clean + 1)

/-- SAFE_STOP_N is asserted by the limit of a hold or of what a follower observes (R408, R454), by the Warden core's write (R408) and,
in SOLO, by the watchdog 10 ms after its last kick (R410), which asserts FAULT_N in every state of the pair, silences a device that
transmits for the pair (R456) and keeps its record in the Indigo log; a kick restarts the watchdog's count (R410, R607). Before its
time neither expires, and a write of STOP from another requester is refused (R23). -/
def Obligations.WatchdogAndStops : Prop :=
  ∀ s : State, running s = true → Inv s →
    (stopLimitOver s = true → Goes .stopLimitExpiry s fun t =>
      t.pwr.safeStop = true ∧ t.frame = s.frame ∧ t.mem = s.mem ∧ t.umb = s.umb ∧
        (s.pwr.safeStop = false → s.log.queue.length < 256 → Recorded t 0x90 0x09 2 3)) ∧
    (stopLimitOver s = false → exec .stopLimitExpiry s = .next s) ∧
    (Goes .watchdogKick s fun t => t.ind = { s.ind with wdogKick := s.time.count } ∧ fld t F.IND_WDOG_LEFT = 0x3E8 ∧
      SameRegsBut [F.IND_WDOG_LEFT.addr] s t ∧ t = { s with regs := t.regs, ind := t.ind }) ∧
    (s.time.count < s.ind.wdogKick + 250000 → exec .watchdogExpiry s = .next s) ∧
    (s.ind.wdogKick + 250000 ≤ s.time.count → Goes .watchdogExpiry s fun t => t.pwr.faultN = true ∧
      (s.twin.pair = .solo → t.pwr.safeStop = true) ∧ (s.twin.pair ≠ .solo → t.pwr.safeStop = s.pwr.safeStop) ∧
      (s.twin.pair = .pairedA → t.twin.silent = true) ∧
      (s.ind.powered = true → ∃ r ∈ t.ind.log, r.unit = 0x98 ∧ r.cls = 0x09 ∧ r.ev = 7 ∧ r.severity = 4) ∧
      flag t F.IND_WDOG_EXPIRED = true ∧ fld t F.IND_WDOG_LEFT = 0 ∧ t.frame = s.frame) ∧
    (Goes (.safeCtlStop .warden) s fun t => t.pwr.safeStop = true ∧ t.frame = s.frame ∧ t.mem = s.mem ∧
      (s.pwr.safeStop = false → s.log.queue.length < 256 → Recorded t 0x90 0x09 2 3)) ∧
    ∀ r : Requester, r ≠ .warden → Goes (.safeCtlStop r) s (Refused r F.WDN_SAFE_CTL_STOP.addr s)

/-- A restart has begun: its first step is done (R411, R412), the fabric is halted with no task, no pull and no node ready, and every
lease is being revoked. A replay is over, with the live frame counter in force again (R591). -/
def Sys2Proof.Claims.RestartBegun (trig : RestartTrigger) (s t : State) : Prop :=
  (∃ r, t.safe.restart = some r ∧ r.trigger = trig ∧ r.phase = .halted ∧ r.began = s.time.count ∧ r.ignored = []) ∧
    t.cnd.grants = [] ∧ t.cnd.pulls = [] ∧ t.cnd.ready = [] ∧ (∀ l ∈ t.cnd.leases, l.revoking = true) ∧
    t.replay.active = false ∧ (s.replay.active = true → t.frame.num = s.replay.live)

/-- A restart trigger that comes while no restart runs begins one, or is refused as fatal when RESTART_MAX restarts began in the window
(R411 to R413); one that comes while one runs is ignored and noted. The triggers are the Warden core's write, PERSIST frames with an
internal doubt in a row, and a Conductor that has not acknowledged the edge after 5 us (R337), which makes the frame doubt. A write
of RESTART from another requester is refused (R23). -/
def Obligations.RestartTriggersBeginOrRefuse : Prop :=
  ∀ s : State, running s = true →
    let free := s.safe.restart = none ∧ (restartsInWindow s).length < fld s F.WDN_RESTART_CFG_RESTART_MAX
    let spent := s.safe.restart = none ∧ fld s F.WDN_RESTART_CFG_RESTART_MAX ≤ (restartsInWindow s).length
    (free → Goes (.safeCtlRestart .warden) s fun t =>
      Sys2Proof.Claims.RestartBegun .command s t ∧ t.pwr = s.pwr ∧ t.mem.cells = s.mem.cells) ∧
    (spent → Goes (.safeCtlRestart .warden) s fun t => t.safe.restart = none ∧ t.pwr.faultN = true ∧ t.pwr.safeStop = true ∧
      t.cnd = s.cnd) ∧
    (∀ r, s.safe.restart = some r → Goes (.safeCtlRestart .warden) s fun t =>
      t.safe.restart = some { r with ignored := r.ignored ++ [.command] } ∧ t.cnd = s.cnd ∧ t.frame = s.frame) ∧
    (∀ r : Requester, r ≠ .warden → Goes (.safeCtlRestart r) s (Refused r F.WDN_SAFE_CTL_RESTART.addr s)) ∧
    (s.safe.persist < fld s F.WDN_RESTART_CFG_PERSIST → exec .doubtPersist s = .next s) ∧
    (fld s F.WDN_RESTART_CFG_PERSIST ≤ s.safe.persist →
      (free → Goes .doubtPersist s fun t => Sys2Proof.Claims.RestartBegun .persist s t) ∧
      (spent → Goes .doubtPersist s fun t => t.safe.restart = none ∧ t.pwr.faultN = true ∧ t.pwr.safeStop = true) ∧
      ∀ r, s.safe.restart = some r → Goes .doubtPersist s fun t =>
        t.safe.restart = some { r with ignored := r.ignored ++ [.persist] } ∧ t.cnd = s.cnd) ∧
    (fabricUp s = true → s.frame.started = true → s.frame.edgeTick + 125 ≤ s.time.count → Goes .edgeAckTimeout s fun t =>
      (∀ l ∈ t.cnd.leases, l.revoking = true) ∧ t.frame.flags.getLsbD 4 = true ∧
      (free → Sys2Proof.Claims.RestartBegun .conductor s t) ∧
      (spent → t.pwr.faultN = true ∧ t.pwr.safeStop = true) ∧
      ∀ r, s.safe.restart = some r → t.safe.restart = some { r with ignored := r.ignored ++ [.conductor] }) ∧
    (s.frame.started = false ∨ s.time.count < s.frame.edgeTick + 125 → exec .edgeAckTimeout s = .next s)

/-- FABRIC_RESTART takes a restart through its wipe and its reload to its warm-up (R412, R570): the fabric's memories are wiped, the
world epoch, the requests, the leases and the flows are empty, the keep-out tables, the layers and the grants are those of the image
and the journal, and Umber's V, the field prior, the origin and the fuses stand. One that comes in the warm-up has no effect, and
one past RESTART_MAX begins nothing and is fatal (R413). A step past its bound is fatal, and before its bound it is not. -/
def Obligations.FabricRestartWipesAndReloads : Prop :=
  ∀ s : State, running s = true →
    (∀ trig env,
      (s.safe.restart = none → (restartsInWindow s).length < fld s F.WDN_RESTART_CFG_RESTART_MAX) →
      (∀ r, s.safe.restart = some r → r.phase = .halted) →
      Goes (.fabricRestart trig env) s fun t =>
        (∃ r, t.safe.restart = some r ∧ r.phase = .warmUp ∧ (s.safe.restart = none → r.trigger = trig) ∧
          ∀ x, s.safe.restart = some x → r = { x with phase := .warmUp }) ∧
        t.wld.cur = WorldData.empty ∧ t.cnd.leases = [] ∧ t.cnd.items = [] ∧ t.cnd.reqs = [] ∧ t.cnd.ops = [] ∧
        t.wld.koLive = (List.range 8).map (journalledSet s) ∧ t.wld.layers = s.image.layers.map (fun l => (l.1.val, l.2)) ∧
        t.swap.grants = journalledGrants s ∧ t.wld.prior = s.wld.prior ∧ t.wld.originF = s.wld.originF ∧
        t.wld.originGen = s.wld.originGen ∧ t.umb = s.umb ∧ t.fuse = s.fuse) ∧
    (∀ a, (∃ p ∈ sramRanges, p.1 ≤ a ∧ a < p.1 + p.2) → byteAt (wipeFabric s) a = 0 ∧ wordSynd (wipeFabric s) a = 0) ∧
    (∀ a, (∀ p ∈ sramRanges, ¬(p.1 ≤ a ∧ a < p.1 + p.2)) →
      byteAt (wipeFabric s) a = byteAt s a ∧ wordSynd (wipeFabric s) a = wordSynd s a) ∧
    (∀ trig env r, s.safe.restart = some r → r.phase = .warmUp → exec (.fabricRestart trig env) s = .next s) ∧
    (∀ trig env, s.safe.restart = none → fld s F.WDN_RESTART_CFG_RESTART_MAX ≤ (restartsInWindow s).length →
      Goes (.fabricRestart trig env) s fun t =>
        t.pwr.faultN = true ∧ t.pwr.safeStop = true ∧ t.safe.restart = none ∧ t.wld = s.wld) ∧
    (∀ r, s.safe.restart = some r → stepOver s r = true → Goes .restartStepTimeout s fun t =>
      t.pwr.faultN = true ∧ t.pwr.safeStop = true ∧ t.safe.restart = s.safe.restart) ∧
    ((∀ r, s.safe.restart = some r → stepOver s r = false) → exec .restartStepTimeout s = .next s)

/-- Madder's verdict on the frame's own trajectory x, given once before the verify hard stop: it passes one against which it finds
nothing, which then goes out at once where no other input of the choice is missing (R46, R396, R397, R451). -/
def Sys2Proof.Claims.MadderPasses (x : Traj) (u : Option Upset) (s : State) : Prop :=
  u = none → madderFails s x.record x.keepOut (edgePose s) = [] → Goes (.madderVerdict false u) s fun t =>
    t.mad = { s.mad with verdictOwn := some true } ∧ t.frame.madder = 0 ∧
      t.frame.flags.getLsbD 0 = s.frame.flags.getLsbD 0 ∧
      (emitReady { s with mad := { s.mad with verdictOwn := some true } } = true → t.frame.choice.isSome = true ∧
        (t.frame.choice ≠ some .hold → t.frame.emittedFrame = true))

/-- Madder's rejection of the frame's own trajectory x is doubt with bit 0 and a disagreement (R396 to R400): the second within 16 frames
that implicates a tile takes the tile out of service, and the fourth within 64 frames triggers a restart. -/
def Sys2Proof.Claims.MadderRejects (x : Traj) (u : Option Upset) (s : State) : Prop :=
  u ≠ none ∨ madderFails s x.record x.keepOut (edgePose s) ≠ [] → Goes (.madderVerdict false u) s fun t =>
    t.mad.verdictOwn = some false ∧ t.frame.madder = 1 ∧ t.frame.flags.getLsbD 0 = true ∧
      ⟨s.frame.num, x.tile, implicatedLane x⟩ ∈ t.mad.dis ∧
      (∀ n, x.tile = some n → (∃ o ∈ recentDis s 16, o.tile = some n) → OutOfWork n t) ∧
      (3 ≤ (recentDis s 64).length → s.safe.restart = none →
        (restartsInWindow s).length < fld s F.WDN_RESTART_CFG_RESTART_MAX →
        ∃ r, t.safe.restart = some r ∧ r.trigger = .madder ∧ r.phase = .halted)

/-- Madder judges the frame's own trajectory once, before the verify hard stop, and passes or rejects it (R396 to R400, R46, R451).
Without one it has no verdict of its own. The injected trajectory of every 32nd frame must be rejected with CAUSE 0 in time: anything
else stands as a failure from then on and is fatal, and outside its time nothing is judged (R401). -/
def Obligations.MadderJudges : Prop :=
  ∀ s : State, fabricUp s = true → Inv s →
    (∀ x u, s.frame.started = true → s.mad.subject = some x → s.mad.verdictOwn = none → s.frame.stopped.getD 4 false = false →
      Sys2Proof.Claims.MadderPasses x u s ∧ Sys2Proof.Claims.MadderRejects x u s) ∧
    (s.frame.started = true → s.mad.subject = none ∨ s.mad.verdictOwn.isSome = true ∨ s.frame.stopped.getD 4 false = true →
      ∀ u, Goes (.madderVerdict false u) s fun t => t.mad = s.mad ∧ t.frame.madder = s.frame.madder) ∧
    (s.frame.started = false → ∀ twin u, exec (.madderVerdict twin u) s = .next s) ∧
    ∀ rejected cause inTime,
      (rejected = true ∧ cause = 0 ∧ inTime = true ∨ injectionDue s = false →
        exec (.madderInjectionDone rejected cause inTime) s = .next s) ∧
      (¬(rejected = true ∧ cause = 0 ∧ inTime = true) → injectionDue s = true →
        Goes (.madderInjectionDone rejected cause inTime) s fun t =>
          t.mad.failed = true ∧ t.pwr.faultN = true ∧ t.pwr.safeStop = true ∧ flag t F.WDN_MAD_STAT_TEST_FAIL = true)

/-- A pack run that fails retires its unit until the next cold start (R417, R419), counted and recorded. -/
def Sys2Proof.Claims.KermesFails (k : KermesRun) (s t : State) : Prop :=
  t.safe.kermes = none ∧ Counted F.WDN_KERMES_STAT_FAILS s t ∧
    (s.log.queue.length < 256 → Recorded t (kermesRecUnit k.unit) 0x07 7 3) ∧
    ∀ n, kermesNo k.unit = some n → n ∈ t.cnd.retired ∧ n ∉ t.cnd.releasing

/-- A pack run that passes lets its unit return at the next edge, unless it is retired (R419), counted and recorded. -/
def Sys2Proof.Claims.KermesPasses (k : KermesRun) (s t : State) : Prop :=
  t.safe.kermes = none ∧ t.cnd.retired = s.cnd.retired ∧ Counted F.WDN_KERMES_STAT_PASSES s t ∧
    (s.log.queue.length < 256 → Recorded t (kermesRecUnit k.unit) 0x07 8 0) ∧
    ∀ n, kermesNo k.unit = some n → n ∈ t.safe.passed ∧ (n ∉ s.cnd.retired → n ∈ t.cnd.releasing)

/-- Kermes runs one pack at a time, of its target's class, and tests only what is out of service, memory only in a restart; a tile
whose deferral has ended is quarantined for it (R417, R418, R420). A run whose results have the pack's digest passes, any other
fails, and so does one that has run 64 frames (R417, R419). -/
def Obligations.KermesPacksDecide : Prop :=
  ∀ s : State, running s = true → Inv s →
    (∀ (u : KermesUnit) n,
      let may := s.safe.kermes = none ∧ s.image.kermesOk = true ∧ ∃ p, packOf s n = some p ∧ p.2.1.val = packClass u
      (∀ s1, may → kermesReady u s = some s1 → Goes (.kermesStart u n) s fun t =>
        t.safe.kermes = some ⟨u, n, s.frame.num⟩ ∧ t.safe.kermesDue = s1.safe.kermesDue.erase u ∧ t.cnd = s1.cnd ∧
          flag t F.WDN_KERMES_STAT_BUSY = true) ∧
      (∀ k, kermesNo u = some k → outOfService s k = true → kermesReady u s = some s) ∧
      (∀ k s1, kermesNo u = some k → kermesReady u s = some s1 →
        k ∈ s1.cnd.outOfService ∨ 64 ≤ k ∧ k < 72 ∧ fld s (F.INF_TILE_STAT_ENG_OK (k - 64)) ≠ 15) ∧
      (kermesNo u = none → kermesReady u s = if s.safe.restart.isSome then some s else none) ∧
      (¬may ∨ kermesReady u s = none → exec (.kermesStart u n) s = .next s)) ∧
    (s.safe.kermes = none → (∀ bs, exec (.kermesPackDone bs) s = .next s) ∧ exec .kermesOvertime s = .next s) ∧
    ∀ k, s.safe.kermes = some k →
      (∀ bs, Goes (.kermesPackDone bs) s fun t =>
        ((∃ p, packOf s k.pack = some p ∧ p.2.2 = Config.sha3 bs) → Sys2Proof.Claims.KermesPasses k s t) ∧
        ((∀ p, packOf s k.pack = some p → p.2.2 ≠ Config.sha3 bs) → Sys2Proof.Claims.KermesFails k s t)) ∧
      (64 ≤ frameDist k.since s.frame.num → Goes .kermesOvertime s (Sys2Proof.Claims.KermesFails k s)) ∧
      (frameDist k.since s.frame.num < 64 → exec .kermesOvertime s = .next s)

/-- The datagram of Ochre with these records that goes out next (R534), DFLAGS apart, which bit 0 for a resend and bit 1 for dropped
records make (R536, R425): DSEQ counts it. -/
def Sys2Proof.Claims.OchreSends (rs : List FaultRec) (s t : State) : Prop :=
  (∃ fl, fl < 4 ∧ t.sent = .ochre (ochreBytes s rs fl) :: s.sent) ∧ t.och.dseq = (s.och.dseq + 1) % 65536 ∧
    t.och.lastAt = some s.time.count

/-- The fault log (R424, R425): records leave the queue oldest first, to Ochre where they are due and to the HBM log where it can be
written, whose ring of 65,536 takes their 32 bytes in the next place; nothing else changes. -/
def Sys2Proof.Claims.RecordsDrain (s : State) : Prop :=
  (s.log.queue = [] → exec .faultRecordDrain s = .next s) ∧
  ∀ q qs, s.log.queue = q :: qs →
    (q.needHbm = false → Goes .faultRecordDrain s fun t => t.log.queue = qs ∧
      t.log.ochre = (if q.needOchre then s.log.ochre ++ [q.entry] else s.log.ochre) ∧ t.log.hbm = s.log.hbm ∧
      t = { s with log := t.log }) ∧
    (q.needHbm = true → s.image.faultLog.1 % 8 = 0 → Goes .faultRecordDrain s fun t =>
      let a := s.image.faultLog.1 + 32 * s.log.hbmNext
      t.log.queue = qs ∧ t.log.ochre = (if q.needOchre then s.log.ochre ++ [q.entry] else s.log.ochre) ∧
      t.log.hbm.head? = some q.entry ∧ t.log.hbmNext = (s.log.hbmNext + 1) % 65536 ∧
      (∀ x, byteAt t x = if a ≤ x ∧ x < a + 32 then (recBytes q.entry).getD (x - a) 0 else byteAt s x) ∧
      t = { s with log := t.log, mem := t.mem })

/-- Records drain in their order: the record queue to its destinations (R424, R425), and Ochre's queue in datagrams of at most 40, no
two within 2 ms, with an empty one as a keep-alive after 100 ms of silence (R535). A resend request to this node brings the records
of the Indigo log from its SEQ on, at most once in 100 ms; anything else is no request (R534, R536). -/
def Obligations.RecordsDrainInOrder : Prop :=
  ∀ s : State, running s = true → Inv s →
    Sys2Proof.Claims.RecordsDrain s ∧
    (s.log.ochre ≠ [] → s.och.lastAt = none ∨ 50000 ≤ ochreQuiet s → Goes .ochreDatagram s fun t =>
      Sys2Proof.Claims.OchreSends (s.log.ochre.take 40) s t ∧ t.log.ochre = s.log.ochre.drop 40) ∧
    (s.log.ochre = [] ∨ s.och.lastAt.isSome = true ∧ ochreQuiet s < 50000 → exec .ochreDatagram s = .next s) ∧
    (2500000 ≤ ochreQuiet s → Goes .ochreKeepalive s fun t => Sys2Proof.Claims.OchreSends [] s t ∧ t.log = s.log) ∧
    (ochreQuiet s < 2500000 → exec .ochreKeepalive s = .next s) ∧
    ∀ b : List Byte,
      (resendAsked s b = false ∨ (∃ n, s.och.resendAt = some n ∧ s.time.count < n + 2500000) →
        exec (.ochreResendRequest b) s = .next s) ∧
      (resendAsked s b = true → (∀ n, s.och.resendAt = some n → n + 2500000 ≤ s.time.count) →
        Goes (.ochreResendRequest b) s fun t => t.och.resendAt = some s.time.count ∧ t.log = s.log ∧
          Counted F.OCH_TX_CNT_RESEND s t ∧
          (resendFrom s (fieldAt 12 1 b) = [] → t.sent = s.sent) ∧
          (resendFrom s (fieldAt 12 1 b) ≠ [] → ∃ l fl, t.sent = l ++
            .ochre (ochreBytes s ((resendFrom s (fieldAt 12 1 b)).take 40) fl) :: s.sent))

/-! ## Memories and engines (chapters 10 and 11) -/

/-- What the scrubber does with the word that it reads (R367, R369, R374, R376): a good word stays; a single flipped bit, of data or
check bits, is corrected; an uncorrectable word takes the Sepia mark, is counted and recorded; a marked one stays marked. No other
word changes but where World clears the occupancy brick of a bad word (R146). -/
def Sys2Proof.Claims.ScrubsWord (hbm : Bool) (a : Nat) (s : State) : Prop :=
  (decodeSyndrome (wordSynd s a) = .good → Goes (.scrubRead hbm a 0 .clean) s (SameMemory s)) ∧
  (∀ bit, decodeSyndrome (wordSynd s a) = .single bit → Goes (.scrubRead hbm a 0 .clean) s fun t =>
    wordSynd t a = 0 ∧ wordData t a = (if bit < 64 then wordData s a ^^^ 2 ^ bit else wordData s a) ∧
      (∀ x, x / 8 ≠ a / 8 → byteAt t x = byteAt s x ∧ wordSynd t x = wordSynd s x) ∧ Counted F.MEM_CE_CNT_COUNT s t) ∧
  (decodeSyndrome (wordSynd s a) = .mark → Goes (.scrubRead hbm a 0 .clean) s fun t =>
    SameMemory s t ∧ Counted F.MEM_SEPIA_CNT_MARK_READ s t) ∧
  (decodeSyndrome (wordSynd s a) = .bad → Goes (.scrubRead hbm a 0 .clean) s fun t =>
    wordSynd t a = 3 ∧ Counted F.MEM_UE_CNT_SCRUB_UE s t ∧ (s.log.queue.length < 256 → Recorded t 0x84 0x01 3 1) ∧
      (∀ x, x / 8 ≠ a / 8 → wordSynd t x = wordSynd s x) ∧ (occCellOf s a = none → ∀ x, byteAt t x = byteAt s x))

/-- The scrubber (R369, R370, R374 to R376): it reads one word of its own memories, which an upset or the device's report meets first; the
last word of the map ends a pass. A pass that has taken longer than twice its period is shown and recorded once. -/
def Sys2Proof.Claims.ScrubberRepairs (s : State) : Prop :=
  (∀ hbm a m, memAt a = some m →
    ((m = .hbm ↔ hbm = true) → Sys2Proof.Claims.ScrubsWord hbm a s ∧
      (∀ flips dev, exec (.scrubRead hbm a flips dev) s =
        exec (.scrubRead hbm a 0 .clean) (applyDev a dev (applyFlips a flips s))) ∧
      (a / 8 * 8 = passEnd hbm → Goes (.scrubRead hbm a 0 .clean) s fun t =>
        let f := if hbm then F.MEM_SCRUB_STAT_HBM_PASS else F.MEM_SCRUB_STAT_SRAM_PASS
        fld t f = (fld s f + 1) % 2 ^ fldWidth f ∧
          t.mem.scrub = modAt (if hbm then 1 else 0) (fun _ => (s.time.count, false)) s.mem.scrub)) ∧
    (¬(m = .hbm ↔ hbm = true) → ∀ flips dev, exec (.scrubRead hbm a flips dev) s = .next s)) ∧
  (∀ hbm a flips dev, memAt a = none → exec (.scrubRead hbm a flips dev) s = .next s) ∧
  ∀ hbm,
    let i := if hbm then 1 else 0
    let x := s.mem.scrub.getD i (0, false)
    let late := x.2 = false ∧ x.1 + 2 * scrubPeriod s hbm < s.time.count
    (late → Goes (.scrubLag hbm) s fun t =>
      flag t (if hbm then F.MEM_SCRUB_STAT_HBM_LAG else F.MEM_SCRUB_STAT_SRAM_LAG) = true ∧
        t.mem = { s.mem with scrub := modAt i (fun y => (y.1, true)) s.mem.scrub } ∧
        (s.log.queue.length < 256 → Recorded t 0x84 (uncoded .scrubLag 0x84 .warning).cls (uncoded .scrubLag 0x84 .warning).ev 1)) ∧
    (¬late → exec (.scrubLag hbm) s = .next s)

/-- The scrubber repairs, and correctable errors are counted (R369, R370, R374 to R377): a bank with more of them than CE_TH in a window
starts to count anew and is recorded; twice within 1,024 frames its tile leaves service, and any other memory falls due for its
pack. -/
def Obligations.ScrubberRepairsAndCounts : Prop :=
  ∀ s : State, running s = true → Inv s →
    Sys2Proof.Claims.ScrubberRepairs s ∧
    ∀ m bank,
      let k := bankKey m bank
      let again := ∃ x ∈ s.mem.ceOver, x.1 = k ∧ frameDist x.2 s.frame.num ≤ 1024
      (tabGet 0 s.mem.ceCount k ≤ fld s F.MEM_CE_CFG_CE_TH → exec (.ceWindow m bank) s = .next s) ∧
      (fld s F.MEM_CE_CFG_CE_TH < tabGet 0 s.mem.ceCount k → Goes (.ceWindow m bank) s fun t =>
        t.mem.ceCount = tabPut 0 s.mem.ceCount k 0 ∧ (k, s.frame.num) ∈ t.mem.ceOver ∧
        (¬again → t.cnd = s.cnd ∧ t.safe = s.safe ∧ (s.log.queue.length < 256 → Recorded t 0x84 0x01 0 1)) ∧
        (again → ∀ u, bankTile m bank = some u → OutOfWork u t ∧ kermesUnit u ∈ t.safe.kermesDue) ∧
        (again → bankTile m bank = none → t.cnd = s.cnd ∧ KermesUnit.memory m ∈ t.safe.kermesDue))

/-- A wipe ends with its region zero (R383, R384): where the read-back agrees the region is free, the accesses that only it held back
are served, a resource that was being revoked returns to the pool (R336), and a cancelled operation is over (R355); where it does not,
the region is closed and recorded, and nothing is served. A wipe that is not under way does not end. -/
def Sys2Proof.Claims.WipesEnd : Prop :=
  ∀ (r : WipeRegion) (ok : Bool) (s : State), running s = true → Inv s →
    (s.mem.wipes.find? (fun w => w.1 = r) = none → exec (.wipeDone r ok) s = .next s) ∧
    ∀ n, s.mem.wipes.find? (fun w => w.1 = r) = some (r, n) → Goes (.wipeDone r ok) s fun t =>
      t.mem.wipes = s.mem.wipes.erase (r, n) ∧
      (ok = false ∨ s.mem.waiting = [] →
        (∀ p ∈ wipeRanges s r, ∀ a, p.1 ≤ a → a < p.1 + p.2 → byteAt t a = 0) ∧
        ∀ a, (∀ p ∈ wipeRanges s r, ¬(p.1 ≤ a ∧ a < p.1 + p.2)) → byteAt t a = byteAt s a) ∧
      (ok = false → t.mem.closed = r :: s.mem.closed ∧ t.mem.waiting = s.mem.waiting ∧ t.cnd = s.cnd ∧
        (s.log.queue.length < 256 → Recorded t 0x84 0x01 6 3)) ∧
      (ok = true → t.mem.closed = s.mem.closed ∧ (∀ p ∈ t.mem.waiting, p ∈ s.mem.waiting) ∧
        (s.mem.wipes = [(r, n)] → s.mem.closed = [] → t.mem.waiting = []) ∧
        (∀ cls res, r = .leaseScratch cls res → ∀ l ∈ t.cnd.leases, l.cls = cls.val → l.res = res → l.revoking = false) ∧
        ∀ ctx, r = .longOp ctx → (∀ o ∈ t.cnd.ops, ¬(o.ctx = ctx.val ∧ o.state = .cancelling)) ∧
          ∀ l ∈ t.cnd.leases, l.cls = 5 → l.res = ctx.val → l.revoking = false)

/-- At a segment boundary the transfer that a port served has moved on by one segment of at most 4 KiB, aligned in its destination, the
transfers that have arrived wait, and finished ones are gone; the port next serves one of the highest priority among those that
wait, whose unit waits no longer while the others do (R149, R234, R362). -/
def Sys2Proof.Claims.DmaBoundaries (port : Nat) (arrivals : List DmaRequest) (s : State) : Prop :=
  let last := tabGet 0 s.mem.dmaLast port
  Goes (.dmaSegmentBoundary port arrivals) s fun t =>
    t.cnd.dma = ((s.cnd.dma.map fun (x : DmaXfer) => if x.port = port ∧ x.channel = last then afterSegment x else x) ++
      arrivals.map fun (x : DmaRequest) => (⟨port, x.channel, x.dst.toNat, x.len⟩ : DmaXfer)).filter (fun (x : DmaXfer) => x.left > 0) ∧
    (∃ next, t.mem = { s.mem with dmaLast := tabPut 0 s.mem.dmaLast port next } ∧
      ∀ x ∈ t.cnd.dma, x.port = port →
        (∃ y ∈ t.cnd.dma, y.port = port ∧ y.channel = next ∧ channelPrio s x.channel ≤ channelPrio s y.channel) ∧
        (x.channel = next → ∀ u, channelHolder s x.channel = some u →
          (∀ y ∈ t.cnd.dma, y.port = port → y.channel ≠ next → channelHolder s y.channel ≠ some u) →
          ∀ g ∈ t.cnd.grants, g.unit = u → g.wait = none) ∧
        (x.channel ≠ next → ∀ u, channelHolder s x.channel = some u → channelHolder s next ≠ some u →
          ∀ g ∈ t.cnd.grants, g.unit = u → g.wait.isSome = true)) ∧
    t = { s with cnd := { s.cnd with dma := t.cnd.dma, grants := t.cnd.grants }, mem := t.mem }

/-- At a segment boundary of an engine the context that it served has moved on by at most 4,096 bytes, and it next serves one of the
highest priority that has bytes left (R357 to R359). -/
def Sys2Proof.Claims.EngineBoundaries (s : State) : Prop :=
  let moved := fun (last : Nat) (c : SegCtx) => if c.ctx = last then
    { c with offset := c.offset + min 4096 c.bytesLeft, bytesLeft := c.bytesLeft - min 4096 c.bytesLeft } else c
  let serves := fun (l : List SegCtx) (n : Nat) =>
    ∀ c ∈ l, 0 < c.bytesLeft → ∃ d ∈ l, d.ctx = n ∧ 0 < d.bytesLeft ∧ c.prio ≤ d.prio
  (Goes (.engineSegmentBoundary false) s fun t =>
    t.cnd.crypto = s.cnd.crypto.map (moved s.cnd.cryptoLast) ∧ t.cnd.mapld = s.cnd.mapld ∧ serves t.cnd.crypto t.cnd.cryptoLast) ∧
  Goes (.engineSegmentBoundary true) s fun t =>
    t.cnd.mapld = s.cnd.mapld.map (moved s.cnd.mapldLast) ∧ t.cnd.crypto = s.cnd.crypto ∧ serves t.cnd.mapld t.cnd.mapldLast

/-- Wipes and segment boundaries (chapters 10 and 11). -/
def Obligations.WipesAndSegmentsEnd : Prop :=
  Sys2Proof.Claims.WipesEnd ∧ ∀ s : State, running s = true →
    (∀ port arrivals, Sys2Proof.Claims.DmaBoundaries port arrivals s) ∧ Sys2Proof.Claims.EngineBoundaries s

/-! ## What no other command changes -/

/-- Each kind of state is changed only by the commands to which the spec gives an effect on it: the fuses by a life-cycle token, a
cold start and the firmware floor at an emission (R472 to R479), the image by a cold start (R546), the world epoch at edges and
restarts (R41, R412), SAFE_STOP_N and the device's phase by the commands of R408, R596 to R609, the bytes of the memories by the
commands of R17, R239, R374, R383, R384, and so on. Safety.lean lists them. -/
def Obligations.EachKindOfStateHasItsCommands : Prop :=
  ∀ (k : Kind) (c : Instr) (s t : State), exec c s = .next t → k.mayChange c = false → k.same s t

/-! ## Requests and long operations (chapter 10) -/

/-- An answer goes out on its port (R348, R494, R518, R526): to a slot of the supervisor port it joins the units that wait, while no
buffer is offered; on the guidance port it waits for the end of a bundle that is on the bus. -/
def Sys2Proof.Claims.Answered (a : Answer) (s t : State) : Prop :=
  match a.port with
  | .supervisor => s.sec.bufs = [] → t.sec.out = s.sec.out ++
      [⟨bitsOf (fld s (F.CND_CLIENT_WORD a.client 0)) 15 8, some a, answerBytes a, s.time.count⟩]
  | .guidance => if s.bus.onBus.isSome then t.bus.guidOut = s.bus.guidOut ++ [.answer a (answerTo s a) (answerBytes a)]
      else t.sent = .answer a (answerTo s a) (answerBytes a) :: s.sent
  | .isobus => t.sent = .answer a (answerTo s a) (answerBytes a) :: s.sent

/-- The answer to a request unit at once (R343, R348, R355): with the operation's report where it is a long-operation command. -/
def Sys2Proof.Claims.answerTo (s : State) (port : Port) (kind : Nat) (q : ReqUnit) (st : Nat) : Answer :=
  { client := q.client, kind := kind, status := st, tag := q.tag, frame := s.frame.num, port := port, body := [], flags := 0,
    report := if kind = 3 then (opOf s q).map opReport else none }

/-- A request is refused with a status (R343): it is answered at once and counted, and takes no place. -/
def Sys2Proof.Claims.RequestRefused (port : Port) (kind : Nat) (q : ReqUnit) (st : Nat) (s t : State) : Prop :=
  Sys2Proof.Claims.Answered (Sys2Proof.Claims.answerTo s port kind q st) s t ∧ Counted F.CND_REQ_STAT_REFUSED s t ∧
    t.cnd = s.cnd ∧ t.frame = s.frame ∧ t.mem = s.mem

/-- A request that R343 does not refuse takes a pending slot, to be considered from the frame that R62 gives, and is counted; a watch
with SUB 0 ends the standing watch of its TAG (R347). A plan-to-goal request that comes in the tick of an edge belongs to that
edge's frame: its list opens where there is room, and it is answered REFUSED_ORIGIN at once where its origin is another (R62, R345). -/
def Sys2Proof.Claims.RequestsAreTaken (port : Port) (q : ReqUnit) (s : State) : Prop :=
  let atEdge := s.time.count = s.frame.edgeTick ∧ s.frame.started = true
  (refusal s port 0 q 0 = none → Goes (.pathCheck port q) s fun t => Counted F.CND_REQ_STAT_ACCEPTED s t ∧
    t = { s with regs := t.regs, cnd := { s.cnd with reqs := s.cnd.reqs ++ [pendReq s port 0 q none] } }) ∧
  (∀ g, refusal s port 1 q 0 = none →
    (¬atEdge → Goes (.planToGoal port q g) s fun t =>
      pendReq s port 1 q (some g) ∈ t.cnd.reqs ∧ Counted F.CND_REQ_STAT_ACCEPTED s t) ∧
    (atEdge → g.originGen.toNat = s.wld.originGen → Goes (.planToGoal port q g) s fun t =>
      Counted F.CND_REQ_STAT_ACCEPTED s t ∧ (pendReq s port 1 q (some g) ∈ t.cnd.reqs ∨
        { pendReq s port 1 q (some g) with active := true } ∈ t.cnd.reqs ∧
          goalList s (pendReq s port 1 q (some g)) ∈ t.sel.lists)) ∧
    (atEdge → g.originGen.toNat ≠ s.wld.originGen → Goes (.planToGoal port q g) s fun t =>
      Counted F.CND_REQ_STAT_ACCEPTED s t ∧ ∃ a ∈ t.cnd.answers, a.status = 0x15 ∧ a.tag = q.tag ∧ a.client = q.client ∧ a.kind = 1)) ∧
  (refusal s port 2 q 0 = none →
    (q.sub ≠ 0 → Goes (.corridorWatch port q) s fun t => Counted F.CND_REQ_STAT_ACCEPTED s t ∧
      t = { s with regs := t.regs, cnd := { s.cnd with reqs := s.cnd.reqs ++ [pendReq s port 2 q none] } }) ∧
    (q.sub = 0 → ∃ r, watchOf s q = some r ∧ Goes (.corridorWatch port q) s fun t =>
      t.cnd = { s.cnd with reqs := s.cnd.reqs.erase r } ∧
        Sys2Proof.Claims.Answered (Sys2Proof.Claims.answerTo s port 2 q 0x00) s t)) ∧
  (refusal s port 2 { q with sub := 0, recs := [] } 0 = none →
    ∃ r, watchOf s { q with sub := 0, recs := [] } = some r ∧ Goes (.corridorWatchEnd port q) s fun t =>
      t.cnd = { s.cnd with reqs := s.cnd.reqs.erase r } ∧
        Sys2Proof.Claims.Answered (Sys2Proof.Claims.answerTo s port 2 { q with sub := 0, recs := [] } 0x00) s t)

/-- A request that R343 refuses is answered at once with the status of the first condition that holds: one of a disabled client with
0x10, and one beyond four that are pending is never taken. -/
def Sys2Proof.Claims.RequestsAreRefused (port : Port) (q : ReqUnit) (s : State) : Prop :=
  let off := { q with sub := 0, recs := [] }
  (∀ st, refusal s port 0 q 0 = some st → Goes (.pathCheck port q) s (Sys2Proof.Claims.RequestRefused port 0 q st s)) ∧
  (∀ st g, refusal s port 1 q 0 = some st → Goes (.planToGoal port q g) s (Sys2Proof.Claims.RequestRefused port 1 q st s)) ∧
  (∀ st, refusal s port 2 q 0 = some st → Goes (.corridorWatch port q) s (Sys2Proof.Claims.RequestRefused port 2 q st s)) ∧
  (∀ st, refusal s port 2 off 0 = some st → Goes (.corridorWatchEnd port q) s (Sys2Proof.Claims.RequestRefused port 2 off st s)) ∧
  (cliEn s q.client = false → ∀ kind n, refusal s port kind q n = some 0x10) ∧
  ∀ kind n, refusal s port kind q n = none → pendingCount s q.client < 4

/-- A goal request that has waited GOAL_WAIT frames without a list ends, with EXPIRED as its answer in the frame's answers (R345); before
that, and where none waits, nothing ends. -/
def Sys2Proof.Claims.GoalsExpire (client : Nat) (tag : Word32) (s : State) : Prop :=
  let due := s.cnd.reqs.find? fun r => r.client = client ∧ r.tag = tag ∧ r.kind = 1 ∧ ¬ r.active ∧
    fld s F.CND_SCHED_CFG_GOAL_WAIT ≤ frameDist r.first s.frame.num
  (due = none → exec (.goalWaitExpiry client tag) s = .next s) ∧
  ∀ r, due = some r → Goes (.goalWaitExpiry client tag) s fun t => t.cnd.reqs = s.cnd.reqs.erase r ∧
    ∃ a, t.cnd.answers = s.cnd.answers ++ [a] ∧ a.status = 0x1B ∧ a.tag = tag ∧ a.client = client ∧ a.kind = 1 ∧ a.port = r.port

/-- Requests are taken or refused, and those that wait end (R62, R342 to R348). -/
def Obligations.RequestsAreTakenAndEnd : Prop :=
  ∀ s : State, fabricUp s = true → Inv s →
    (∀ port q, Sys2Proof.Claims.RequestsAreTaken port q s ∧ Sys2Proof.Claims.RequestsAreRefused port q s) ∧
    ∀ client tag, Sys2Proof.Claims.GoalsExpire client tag s

/-- The operation of o's context is now o', and no other operation has changed. -/
def Sys2Proof.Claims.OpBecomes (o o' : LongOp) (s t : State) : Prop :=
  o' ∈ t.cnd.ops ∧ (∀ x ∈ t.cnd.ops, x.ctx = o.ctx → x = o') ∧ ∀ x, x.ctx ≠ o.ctx → (x ∈ t.cnd.ops ↔ x ∈ s.cnd.ops)

/-- A START that is not refused opens a free context in state QUEUED, whose first unit starts no earlier than the next edge, with its
region leased for the client, and is answered ACCEPTED with its report (R333, R352, R355). -/
def Sys2Proof.Claims.StartOpens (port : Port) (q : ReqUnit) (params : List Byte) (s : State) : Prop :=
  refusal s port 3 { q with sub := 0, recs := [] } params.length = none → Goes (.start port q params) s fun t =>
    ∃ c, c < 32 ∧ (∀ x ∈ s.cnd.ops, x.ctx ≠ c) ∧
      let o : LongOp :=
        { ctx := c, client := q.client, op := q.arg.toNat % 256, state := .queued, port := port, tag := q.tag,
          params := params, unitsDone := 0, unitsTotal := 0, slots := [], abandons := 0, notBefore := s.frame.num + 1,
          unitStart := none, started := false, cancelledAt := none }
      t.cnd.ops = s.cnd.ops ++ [o] ∧
        t.cnd.leases = s.cnd.leases ++ [⟨5, c, 0x81, bitsOf (fld s (F.CND_CLIENT_WORD q.client 0)) 27 24, s.time.count, false⟩] ∧
        Sys2Proof.Claims.Answered (opAnswer s o 0x03) s t

/-- SUSPEND, RESUME, CANCEL and QUERY of an operation o, where R343 does not refuse them (R355): a suspension takes effect at the end of
the work unit, at once where none runs, and then answers PROGRESS; a resumption goes on from the valid checkpoint at the next edge;
a cancellation stops the unit and begins the wipe of the region; a query changes nothing. The region stays leased in each. -/
def Sys2Proof.Claims.CommandsActOn (o : LongOp) (port : Port) (q : ReqUnit) (s : State) : Prop :=
  let o1 := { o with tag := q.tag, port := port }
  let may := fun (n : Nat) => refusal s port 3 { q with sub := n, recs := [] } 0 = none
  let region := fun (t : State) => ∀ l ∈ s.cnd.leases, l.cls = 5 → l ∈ t.cnd.leases
  (may 1 → Goes (.suspend port q) s fun t => region t ∧
    (o.unitStart.isSome = true → Sys2Proof.Claims.OpBecomes o { o1 with state := .suspending } s t ∧
      Sys2Proof.Claims.Answered (opAnswer s { o1 with state := .suspending } 0x03) s t) ∧
    (o.unitStart = none → Sys2Proof.Claims.OpBecomes o { o1 with state := .suspended } s t ∧
      (port = .isobus → ∃ a, t.sent = .answer (opAnswer s { o1 with state := .suspended } 0x04) a
          (answerBytes (opAnswer s { o1 with state := .suspended } 0x04)) ::
        .answer (opAnswer s { o1 with state := .suspending } 0x03) a
          (answerBytes (opAnswer s { o1 with state := .suspending } 0x03)) :: s.sent))) ∧
  (may 2 → Goes (.resume port q) s fun t => region t ∧
    let o2 := { o1 with state := .running, notBefore := s.frame.num + 1, unitStart := none,
                        unitsDone := ((validCkpt o).map (·.units)).getD 0 }
    Sys2Proof.Claims.OpBecomes o o2 s t ∧ Sys2Proof.Claims.Answered (opAnswer s o2 0x03) s t) ∧
  (may 3 → Goes (.cancel port q) s fun t => region t ∧
    Sys2Proof.Claims.OpBecomes o { o1 with state := .cancelling, unitStart := none, cancelledAt := some s.time.count } s t ∧
      ∃ w ∈ t.mem.wipes, w.1 = .longOp (Fin.ofNat 32 o.ctx)) ∧
  (may 4 → Goes (.query port q) s fun t => t.cnd = s.cnd ∧
    Sys2Proof.Claims.Answered (Sys2Proof.Claims.answerTo s port 3 { q with sub := 4, recs := [] } 0x04) s t)

/-- The commands of long operations (R343, R352, R355): what each does where R343 does not refuse it, and that a refused one changes no
operation. A command other than START that is not refused names an operation. -/
def Sys2Proof.Claims.LongOperationCommands (port : Port) (q : ReqUnit) (s : State) : Prop :=
  let refused := fun (n : Nat) (c : Instr) => ∀ st, refusal s port 3 { q with sub := n, recs := [] } 0 = some st →
    Goes c s (Sys2Proof.Claims.RequestRefused port 3 { q with sub := n, recs := [] } st s)
  (∀ params, Sys2Proof.Claims.StartOpens port q params s ∧
    ∀ st, refusal s port 3 { q with sub := 0, recs := [] } params.length = some st →
      Goes (.start port q params) s (Sys2Proof.Claims.RequestRefused port 3 { q with sub := 0, recs := [] } st s)) ∧
  (∀ n, 1 ≤ n → refusal s port 3 { q with sub := n, recs := [] } 0 = none → (opOf s q).isSome = true) ∧
  (∀ o, opOf s q = some o → Sys2Proof.Claims.CommandsActOn o port q s) ∧
  refused 1 (.suspend port q) ∧ refused 2 (.resume port q) ∧ refused 3 (.cancel port q) ∧ refused 4 (.query port q)

/-- A work unit of o is abandoned (R354): it is recorded, its scratch is wiped, and the operation stands at its valid checkpoint; after
ABANDON_MAX in a row the operation has failed, its region is free and the client is told. -/
def Sys2Proof.Claims.UnitAbandoned (o : LongOp) (s t : State) : Prop :=
  (∃ w ∈ t.mem.wipes, w.1 = .leaseScratch 5 o.ctx) ∧
  (s.log.queue.length < 256 → Recorded t 0x81 (uncoded .abandoned 0x81 .warning).cls (uncoded .abandoned 0x81 .warning).ev 1) ∧
  (o.abandons + 1 < fld s F.CND_SCHED_CFG_ABANDON_MAX → opFinal o.state = false →
    Sys2Proof.Claims.OpBecomes o { o with abandons := o.abandons + 1, unitStart := none,
                                          unitsDone := ((validCkpt o).map (·.units)).getD 0 } s t) ∧
  (fld s F.CND_SCHED_CFG_ABANDON_MAX ≤ o.abandons + 1 → (∀ x ∈ t.cnd.ops, x.ctx ≠ o.ctx) ∧
    (∀ l ∈ t.cnd.leases, ¬(l.cls = 5 ∧ l.res = o.ctx)) ∧
    Sys2Proof.Claims.Answered (opAnswer s { o with abandons := o.abandons + 1, state := .failed, unitStart := none } 0x19) s t)

/-- A work unit that ends leaves its checkpoint (R353), and the next one begins, or a suspension takes effect, or the operation is over
with its last (R352 to R355). A unit that read Sepia, and a first one of a map import without a fix (R622), is abandoned, and a
map import past 512 chunks fails (R136, R145). One that has not ended 2 ms after its first task is abandoned, and none before (R354). -/
def Sys2Proof.Claims.WorkUnits (ctx : Fin 32) (s : State) : Prop :=
  let here := s.cnd.ops.find? fun o => o.ctx = ctx.val ∧ o.unitStart.isSome
  let late := s.cnd.ops.find? fun o => o.ctx = ctx.val ∧ o.started ∧
    (o.unitStart.map fun t => decide (t + 50000 ≤ s.time.count)) = some true
  (here = none → ∀ final r, exec (.workUnitEnd ctx final r) s = .next s) ∧
  (∀ o final r, here = some o →
    (importTooLarge o r = true → Goes (.workUnitEnd ctx final r) s fun t => (∀ x ∈ t.cnd.ops, x.ctx ≠ o.ctx) ∧
      Sys2Proof.Claims.Answered (opAnswer s { o with state := .failed, unitStart := none } 0x19) s t) ∧
    (importTooLarge o r = false → unitEffect o final r s = none →
      Goes (.workUnitEnd ctx final r) s (Sys2Proof.Claims.UnitAbandoned o s)) ∧
    ∀ s1, importTooLarge o r = false → unitEffect o final r s = some s1 → opFinal o.state = false →
      let o1 := { o with unitsDone := o.unitsDone + 1, abandons := 0,
                         slots := writeCkpt s o (o.unitsDone + 1) (partialsAfter o r), unitStart := none }
      Goes (.workUnitEnd ctx final r) s fun t => t.wld = s1.wld ∧
        (final = true → (∀ x ∈ t.cnd.ops, x.ctx ≠ o.ctx) ∧
          (r = .plain → Sys2Proof.Claims.Answered (opAnswer s { o1 with state := .done } 0x00) s t)) ∧
        (final = false → o.state = .suspending → Sys2Proof.Claims.OpBecomes o { o1 with state := .suspended } s t) ∧
        (final = false → o.state ≠ .suspending →
          Sys2Proof.Claims.OpBecomes o { o1 with unitStart := some s.time.count, started := false } s t)) ∧
  (late = none → exec (.workUnitTimeout ctx) s = .next s) ∧
  ∀ o, late = some o → Goes (.workUnitTimeout ctx) s (Sys2Proof.Claims.UnitAbandoned o s)

/-- Long operations: their commands and their work units (R343, R351 to R356). -/
def Obligations.LongOperations : Prop :=
  ∀ s : State, fabricUp s = true → Inv s →
    (∀ port q, Sys2Proof.Claims.LongOperationCommands port q s) ∧ ∀ ctx, Sys2Proof.Claims.WorkUnits ctx s

/-! ## Swaps (chapters 13 and 17) -/

/-- A message of a Woad channel goes out, sealed with the keys of its channel and the next value of CTR, while the link is up and the
session keys exist; otherwise nothing does (R436 to R439). -/
def Sys2Proof.Claims.WoadSends (chan : Nat) (m : WoadMsg) (s t : State) : Prop :=
  let c := s.twin.txCtr.getD chan 0 + 1
  t.sent = if s.twin.linkUp && s.twin.session then
    .woad chan c m (woadMessages (woadKey s.twin.keys chan (ownDir s)) chan (woadType m) c (woadPayload s.fuse.deviceId m)) :: s.sent
    else s.sent

/-- An open swap is refused: none is open any more, and a warning is recorded (R566, R572). -/
def Sys2Proof.Claims.SwapRefused (s t : State) : Prop :=
  t.swap.user = none ∧ t.frame = s.frame ∧ (s.log.queue.length < 256 → Recorded t swapUnit 0x10 5 1)

/-- A swap request of the Warden core, or of the host for the subsystems that the image lets it write, opens a swap of its mask and
takes what stands in the staged tables (R561, R562); one of another requester, one of the host beyond its mask, and any while a swap
is open opens none and is recorded (R566). -/
def Sys2Proof.Claims.SwapsOpen (mask : BitVec 13) (tbl : StagedTables) (s : State) : Prop :=
  let opens := fun (r : Requester) (origin : SwapOrigin) (target : Nat) => Goes (.swapRequest r mask tbl) s fun t =>
    t.swap.user = some { mask := mask.toNat, origin := origin, opened := s.frame.num, target := target, staged := 0,
                         edge := none, committed := false, agreed := false } ∧
      t.wld.koStaged = tbl.keepOut.foldl (fun l k => modAt k.1.val (fun _ => k.2) l) s.wld.koStaged ∧
      t.swap.grantsStaged = tbl.grants.orElse fun _ => s.swap.grantsStaged
  let mayHost := mask.toNat &&& s.image.hostWriteMask.toNat = mask.toNat;
  (s.swap.user = none →
    opens .warden .core (fld s F.CND_SWAP_TARGET_TARGET) ∧
    (mayHost → opens .host .host (fld s F.SUP_SWAP_TARGET_TARGET)) ∧
    ∀ r : Requester, r ≠ .warden → ¬(r = .host ∧ mayHost) →
      Goes (.swapRequest r mask tbl) s (Sys2Proof.Claims.SwapRefused s)) ∧
  ∀ r o, s.swap.user = some o → Goes (.swapRequest r mask tbl) s fun t =>
    t.swap.user = some o ∧ t.frame = s.frame ∧ t.mem = s.mem ∧ (s.log.queue.length < 256 → Recorded t swapUnit 0x10 5 1)

/-- The last subsystem of an open swap has reported staged, as o in state s1 (R462, R564, R566, R568): a journal without room refuses it; a
swap of the twin is acknowledged; the primary of a pair proposes one that is not device-local and the secondary refuses it; any
other is agreed for TARGET, or two frames on where TARGET is 0, and refused where TARGET comes sooner. -/
def Sys2Proof.Claims.StagingEnds (o : OpenSwap) (s1 t : State) : Prop :=
  let first := s1.frame.num + 2
  let wanted := BitVec.ofNat 32 o.target
  let shared := paired s1 = true ∧ deviceLocalSwap s1 o.mask = false
  let fits := (journalAfter o.mask s1).length ≤ 32768;
  (¬fits → Sys2Proof.Claims.SwapRefused s1 t) ∧
  (fits → o.origin = .twin → t.swap.user = some o ∧ Sys2Proof.Claims.WoadSends 0 (.ack (o.edge.getD 0)) s1 t) ∧
  (fits → o.origin ≠ .twin → shared → s1.twin.pair = .pairedB → Sys2Proof.Claims.SwapRefused s1 t) ∧
  (fits → o.origin ≠ .twin → shared → s1.twin.pair ≠ .pairedB →
    let e := pairEdge s1 o.target
    t.swap.user = some { o with edge := some e } ∧ Sys2Proof.Claims.WoadSends 0 (.propose
      { s := e, mask := BitVec.ofNat 13 o.mask, vals := stagedVals o.mask s1, tables := stagedTables o.mask s1, recentre := none,
        digest := stagedDigest (stagedVals o.mask s1) (stagedTables o.mask s1) none }) s1 t) ∧
  (fits → o.origin ≠ .twin → ¬shared →
    (o.target = 0 → t.swap.user = some { o with edge := some first, committed := true, agreed := true }) ∧
    (o.target ≠ 0 → frameGe wanted first = true →
      t.swap.user = some { o with edge := some wanted, committed := true, agreed := true }) ∧
    (o.target ≠ 0 → frameGe wanted first = false → Sys2Proof.Claims.SwapRefused s1 t))

/-- Each subsystem of an open swap checks its staged copies once and reports staged, or refuses the swap (R563, R566); the last report
ends the staging. -/
def Sys2Proof.Claims.SubsystemsReport (o : OpenSwap) (k : Fin 13) (s : State) : Prop :=
  let asked := o.mask.testBit k.val = true ∧ o.staged.testBit k.val = false ∧ o.agreed = false
  let o' := { o with staged := o.staged ||| 2 ^ k.val }
  let s1 := setFld F.CND_SWAP_STAT_STAGED o'.staged { s with swap := { s.swap with user := some o' } };
  (¬asked → exec (.stageReport k) s = .next s) ∧
  (asked → stageReason s o.mask k.val ≠ 0 → Goes (.stageReport k) s (Sys2Proof.Claims.SwapRefused s)) ∧
  (asked → stageReason s o.mask k.val = 0 →
    (o'.staged ≠ o.mask → exec (.stageReport k) s = .next s1) ∧
    (o'.staged = o.mask → Goes (.stageReport k) s (Sys2Proof.Claims.StagingEnds o' s1)))

/-- A swap request opens a swap, its subsystems stage it, and before its commit the Warden core or the host cancels it, unless the twin
proposed it (R561 to R567). A swap that is not staged and agreed within STAGE_LIMIT frames is refused. With none open nothing of
this happens. -/
def Sys2Proof.Claims.UserSwaps (s : State) : Prop :=
  (∀ mask tbl, Sys2Proof.Claims.SwapsOpen mask tbl s) ∧
  (s.swap.user = none → (∀ r, exec (.swapCancel r) s = .next s) ∧ (∀ k, exec (.stageReport k) s = .next s) ∧
    exec .stageLimitExpiry s = .next s) ∧
  ∀ o, s.swap.user = some o →
    (∀ r, let may := o.committed = false ∧ o.origin ≠ .twin ∧ (r = .warden ∨ r = .host);
      (may → Goes (.swapCancel r) s (Sys2Proof.Claims.SwapRefused s)) ∧ (¬may → exec (.swapCancel r) s = .next s)) ∧
    (∀ k, Sys2Proof.Claims.SubsystemsReport o k s) ∧
    (let due := o.agreed = false ∧ o.committed = false ∧
        fld s F.CND_SWAP_LIMIT_STAGE_LIMIT ≤ frameDist o.opened s.frame.num;
      (due → Goes .stageLimitExpiry s (Sys2Proof.Claims.SwapRefused s)) ∧ (¬due → exec .stageLimitExpiry s = .next s))

/-- A refusal of the pair's swap for edge e is answered to the proposer and recorded (R462, R468). -/
def Sys2Proof.Claims.ProposalRefused (e : FrameNo) (reason : Nat) (s t : State) : Prop :=
  t.swap = s.swap ∧ Sys2Proof.Claims.WoadSends 0 (.refuse e reason) s t ∧ Counted F.WOD_SWAP_STAT_REFUSED s t ∧
    (s.log.queue.length < 256 → Recorded t 0x94 0x0D 9 1)

/-- PROPOSE (R462, R463): the secondary stages the values and opens the swap for its edge, or takes the re-centring; it refuses one whose
digest is wrong, for a reason that the spec does not state, and one beside an open swap as BUSY. No other device takes it. -/
def Sys2Proof.Claims.Proposals (m : ProposeMsg) (s : State) : Prop :=
  let good := m.digest = stagedDigest m.vals m.tables m.recentre;
  (s.twin.pair ≠ .pairedB → exec (.propose m) s = .next s) ∧
  (s.twin.pair = .pairedB →
    (¬good → Goes (.propose m) s fun t => ∃ reason, reason < 256 ∧ Sys2Proof.Claims.ProposalRefused m.s reason s t) ∧
    (good → ∀ d, m.recentre = some d → Goes (.propose m) s fun t => t.swap.user = s.swap.user ∧ t.swap.recentre =
      some { dx := d.1, dy := d.2, opened := s.frame.num, edge := some m.s, committed := false, agreed := false, twin := true }) ∧
    (good → m.recentre = none → s.swap.user.isSome = true → Goes (.propose m) s (Sys2Proof.Claims.ProposalRefused m.s 5 s)) ∧
    (good → m.recentre = none → s.swap.user = none → Goes (.propose m) s fun t =>
      t.swap.user = some { mask := m.mask.toNat, origin := .twin, opened := s.frame.num, target := m.s.toNat, staged := 0,
                           edge := some m.s, committed := false, agreed := false } ∧
      ((∀ v ∈ m.vals, (stagedReg (v.addr + 0x8000)).isSome = true) → m.vals.Pairwise (fun a b => a.addr ≠ b.addr) →
        ∀ v ∈ m.vals, regWord t (v.addr + 0x8000) = v.val.toNat)))

/-- The rest of the agreement (R462, R566): an ACK before edge S − 2 makes the primary commit, a COMMIT before S makes the secondary agree
and answer, and that answer makes the primary agree; a REFUSE ends the swap on the proposer. A message that names no such swap, and
one that comes too late, changes no swap. -/
def Sys2Proof.Claims.Agreements (e : FrameNo) (s : State) : Prop :=
  let own := fun (o : OpenSwap) => o.edge = some e ∧ o.origin ≠ .twin
  let ownR := fun (c : RecSwap) => c.edge = some e ∧ c.twin = false
  let theirs := fun (o : OpenSwap) => o.edge = some e ∧ o.origin = .twin ∧ o.staged = o.mask
  let theirsR := fun (c : RecSwap) => c.edge = some e ∧ c.twin = true
  let acks := s.twin.pair = .pairedA ∧ frameGe s.frame.num (e - 2) = false;
  (¬acks → exec (.ack e) s = .next s) ∧
  (acks → (∀ o, s.swap.user = some o → own o → Goes (.ack e) s fun t =>
      t.swap = { s.swap with user := some { o with committed := true } } ∧ Sys2Proof.Claims.WoadSends 0 (.commit e) s t) ∧
    ((∀ o, s.swap.user = some o → ¬own o) →
      (∀ c, s.swap.recentre = some c → ownR c → Goes (.ack e) s fun t =>
        t.swap = { s.swap with recentre := some { c with committed := true } } ∧ Sys2Proof.Claims.WoadSends 0 (.commit e) s t) ∧
      ((∀ c, s.swap.recentre = some c → ¬ownR c) → exec (.ack e) s = .next s))) ∧
  (frameGe s.frame.num e = true → exec (.commit e) s = .next s ∧ exec (.commitAck e) s = .next s) ∧
  (frameGe s.frame.num e = false →
    (∀ o, s.swap.user = some o → theirs o → Goes (.commit e) s fun t =>
      t.swap.user = some { o with committed := true, agreed := true } ∧ Sys2Proof.Claims.WoadSends 0 (.commitAck e) s t) ∧
    (∀ c, s.swap.recentre = some c → theirsR c → Goes (.commit e) s fun t =>
      t.swap.recentre = some { c with committed := true, agreed := true } ∧ Sys2Proof.Claims.WoadSends 0 (.commitAck e) s t) ∧
    ((∀ o, s.swap.user = some o → ¬theirs o) → (∀ c, s.swap.recentre = some c → ¬theirsR c) →
      Goes (.commit e) s fun t => t.swap = s.swap) ∧
    Goes (.commitAck e) s fun t => t = { s with swap := { s.swap with
      user := s.swap.user.map fun o => if own o ∧ o.committed = true then { o with agreed := true } else o,
      recentre := s.swap.recentre.map fun c => if ownR c ∧ c.committed = true then { c with agreed := true } else c } }) ∧
  ∀ reason,
    (∀ o, s.swap.user = some o → own o → o.agreed = false → Goes (.refuse e reason) s (Sys2Proof.Claims.SwapRefused s)) ∧
    ((∀ o, s.swap.user = some o → ¬(own o ∧ o.agreed = false)) →
      (∀ c, s.swap.recentre = some c → ownR c → c.agreed = false → Goes (.refuse e reason) s fun t =>
        t.swap.recentre = none ∧ t.swap.user = s.swap.user ∧ (s.log.queue.length < 256 → Recorded t swapUnit 0x10 5 1)) ∧
      ((∀ c, s.swap.recentre = some c → ¬(ownR c ∧ c.agreed = false)) → Goes (.refuse e reason) s fun t =>
        t = { s with regs := t.regs }))

/-- Staged swaps of one device and of a pair, from their opening to the agreement on their edge (R462, R463, R561 to R567). -/
def Obligations.StagedSwaps : Prop :=
  ∀ s : State, fabricUp s = true → Inv s →
    Sys2Proof.Claims.UserSwaps s ∧ (∀ m, Sys2Proof.Claims.Proposals m s) ∧ ∀ e, Sys2Proof.Claims.Agreements e s

/-! ## Woad and the pair (chapter 13) -/

/-- A message whose tag fails, or that no session keys open (R438, R441): it is counted and taken no further. While the pair forms and no
message of the session has been accepted the formation fails, and 16 failures within a second degrade a formed pair. -/
def Sys2Proof.Claims.TagFails (s t : State) : Prop :=
  let recent := (s.time.count :: s.twin.authAt).filter fun n => s.time.count < n + 25000000
  let first := s.twin.pair = .forming ∧ s.twin.session = true ∧ s.twin.proven = false
  Counted F.WOD_XPORT_CNT_AUTH s t ∧ t.twin.rxCtr = s.twin.rxCtr ∧
    (first → t.twin.session = false ∧ t.twin.pair = (if strapB s then .monitor else .degradedA) ∧
      fld t F.WOD_PAIR_STAT_FORM_FAIL = 7) ∧
    (¬first → t.twin.session = s.twin.session ∧
      (s.twin.pair = .pairedA → t.twin.pair = if 16 ≤ recent.length then .degradedA else .pairedA) ∧
      (s.twin.pair = .pairedB → t.twin.pair = if 16 ≤ recent.length then .degradedB else .pairedB))

/-- A link frame with its CRC right and in order advances the sequence, and its message, if it has one, is taken where its tag verifies
and its CTR is newer than the channel's last, with a gap counted (R434, R437, R438); an old CTR is discarded and counted. HELLO comes
in clear. -/
def Sys2Proof.Claims.FramesInOrder (f : LinkFrame) (s : State) : Prop :=
  let chan := fieldAt 0 1 f.body
  let ctr := fieldAt 4 8 f.body
  let last := s.twin.rxCtr.getD chan 0
  let clear := f.body = [] ∨ (fieldAt 1 1 f.body = 1 ∧ chan = 0 ∧ ctr = 0)
  linkCrcOk f = true → f.seq = s.twin.rxSeq → Goes (.woadLinkFrame f) s fun t =>
    t.twin.rxSeq = s.twin.rxSeq + 1 ∧
    (clear → t = { s with twin := { s.twin with rxSeq := s.twin.rxSeq + 1 } }) ∧
    (¬clear → openWoad f.body s = none → Sys2Proof.Claims.TagFails s t) ∧
    (¬clear → (openWoad f.body s).isSome = true → ctr ≤ last →
      t.twin.rxCtr = s.twin.rxCtr ∧ Counted F.WOD_XPORT_CNT_REPLAY s t) ∧
    (¬clear → (openWoad f.body s).isSome = true → last < ctr →
      t.twin.rxCtr = modAt chan (fun _ => ctr) s.twin.rxCtr ∧ t.twin.proven = true ∧ t.regs = s.regs ∧
        t.twin.gaps = if last + 1 < ctr then s.twin.gaps + 1 else s.twin.gaps)

/-- The link (R434, R435, R438): it goes down and comes up once, with a record, and keeps its session and its counters; a frame that is
bad or out of order is retried, and one in order is delivered; none arrives over a link that is down. -/
def Obligations.WoadLinkCarriesMessages : Prop :=
  ∀ s : State, running s = true → Inv s →
    (∀ cause, (s.twin.linkUp = true → Goes (.woadLinkDown cause) s fun t => t.twin.linkUp = false ∧
        t.twin.session = s.twin.session ∧ t.twin.rxCtr = s.twin.rxCtr ∧ t.twin.txCtr = s.twin.txCtr ∧ t.twin.pair = s.twin.pair ∧
        Counted F.WOD_LINK_CNT_DOWN s t ∧ (s.log.queue.length < 256 → Recorded t 0x94 0x0D 10 1)) ∧
      (s.twin.linkUp = false → exec (.woadLinkDown cause) s = .next s)) ∧
    (s.twin.linkUp = false → Goes .woadLinkUp s fun t => t.twin.linkUp = true ∧ t.twin.session = s.twin.session ∧
      t.twin.rxCtr = s.twin.rxCtr ∧ t.twin.txCtr = s.twin.txCtr ∧ (s.log.queue.length < 256 → Recorded t 0x94 0x0D 11 0)) ∧
    (s.twin.linkUp = true → exec .woadLinkUp s = .next s) ∧
    ∀ f : LinkFrame,
      (s.twin.linkUp = false → exec (.woadLinkFrame f) s = .next s) ∧
      (s.twin.linkUp = true → linkCrcOk f = false ∨ f.seq ≠ s.twin.rxSeq → Goes (.woadLinkFrame f) s fun t =>
        Counted F.WOD_LINK_CNT_RETRY s t ∧ t = { s with regs := t.regs }) ∧
      (s.twin.linkUp = true → Sys2Proof.Claims.FramesInOrder f s)

/-- A formation or a join fails for reason n (R441, R442): a forming device goes on as DEGRADED_A or MONITOR, any other keeps its state. -/
def Sys2Proof.Claims.FormationFails (n : Nat) (s t : State) : Prop :=
  fld t F.WOD_PAIR_STAT_FORM_FAIL = n ∧
    t.twin.pair = (if s.twin.pair = .forming then (if strapB s then .monitor else .degradedA) else s.twin.pair) ∧
    (s.log.queue.length < 256 → Recorded t 0x94 0x0D 1 1)

/-- HELLO (R439, R441 to R443): it goes out, with the formation's nonce, until the twin's has come. Of a twin's HELLO, equal straps are a
conflict with FAULT_N, a key outside the roster fails, and any other gives the session its keys, with fresh counters, and CONFIG
goes out. A device that does not seek its twin, is paired or may not join takes none. -/
def Sys2Proof.Claims.Hellos (s : State) : Prop :=
  (seeksTwin s = true → s.twin.hello = none → Goes .helloTimer s fun t => ∃ own : BitVec 256,
    (∀ x, s.twin.nonce = some x → own = x) ∧ t.twin = { s.twin with nonce := some own } ∧
      t.sent = if s.twin.linkUp then
        .woad 0 0 (.hello (strapB s) own.toNat) [clearHello (woadPayload s.fuse.deviceId (.hello (strapB s) own.toNat))] :: s.sent
        else s.sent) ∧
  (seeksTwin s = false ∨ s.twin.hello.isSome = true → exec .helloTimer s = .next s) ∧
  ∀ m : HelloMsg,
    let takes := seeksTwin s = true ∧ paired s = false ∧ joinBarred s = false;
    (¬takes → exec (.hello m) s = .next s) ∧
    (takes → m.posB = strapB s → Goes (.hello m) s fun t => t.twin.pair = .conflict ∧ t.pwr.faultN = true ∧
      fld t F.WOD_PAIR_STAT_FORM_FAIL = 1 ∧ (s.log.queue.length < 256 → Recorded t 0x94 0x0D 1 3)) ∧
    (takes → m.posB ≠ strapB s → Goes (.hello m) s fun t =>
      (Config.sha3 m.pub ∉ s.image.pairRoster → Sys2Proof.Claims.FormationFails 2 s t ∧ t.twin.session = s.twin.session) ∧
      (Config.sha3 m.pub ∈ s.image.pairRoster → s.fuse.keyDestroyed = true → Sys2Proof.Claims.FormationFails 7 s t) ∧
      (Config.sha3 m.pub ∈ s.image.pairRoster → s.fuse.keyDestroyed = false →
        t.twin.hello = some m ∧ t.twin.session = true ∧ t.twin.proven = false ∧ t.twin.rxCtr = [0, 0, 0] ∧
        t.twin.pair = s.twin.pair ∧ t.twin.nonce.isSome = true ∧
        (s.twin.pair = .forming → s.twin.nonce.isSome = true → t.twin.nonce = s.twin.nonce) ∧
        t.twin.keys = sessionKeys m { s with twin := { s.twin with nonce := t.twin.nonce } } ∧
        (s.twin.linkUp = true → ∃ ms l, t.sent = .woad 0 1 (.config (ownConfig s)) ms :: l)))

/-- CONFIG (R441 to R443): the first of image, firmware and fuses that differs fails the formation. Where all agree a device that runs
serves the join, one whose twin runs joins it, and two that form are a pair, A as its primary. -/
def Sys2Proof.Claims.Configs (m : ConfigMsg) (s : State) : Prop :=
  let c := ownConfig s
  let takes := seeksTwin s = true ∧ s.twin.session = true ∧ paired s = false
  let fw := m.rom = c.rom ∧ m.fw = c.fw
  let fuses := m.lc = c.lc ∧ m.dbgLock = c.dbgLock ∧ m.prot = c.prot;
  (¬takes → exec (.config m) s = .next s) ∧
  (takes →
    (m.image ≠ c.image → Goes (.config m) s (Sys2Proof.Claims.FormationFails 3 s)) ∧
    (m.image = c.image → ¬fw → Goes (.config m) s (Sys2Proof.Claims.FormationFails 4 s)) ∧
    (m.image = c.image → fw → ¬fuses → Goes (.config m) s (Sys2Proof.Claims.FormationFails 5 s)) ∧
    (m.image = c.image → fw → fuses →
      (servesJoin s = true → Goes (.config m) s fun t => t.twin.joining = true ∧ t.twin.primary = true ∧
        t.swap.join = some (pairEdge s 0, []) ∧ t.twin.pair = s.twin.pair ∧
        Sys2Proof.Claims.WoadSends 0 (.journal s.twin.pairSwaps (pairEdge s 0)) s t) ∧
      (servesJoin s = false → m.twinRuns = true → Goes (.config m) s fun t =>
        t = { s with twin := { s.twin with joining := true, primary := false } }) ∧
      (servesJoin s = false → m.twinRuns = false → s.twin.pair = .forming → Goes (.config m) s fun t =>
        t.twin.pair = (if strapB s then .pairedB else .pairedA) ∧ t.twin.primary = !strapB s ∧ t.twin.joining = false ∧
          (s.log.queue.length < 256 → Recorded t 0x94 0x0D 0 0)) ∧
      (servesJoin s = false → m.twinRuns = false → s.twin.pair ≠ .forming → exec (.config m) s = .next s)))

/-- Pairs form or fail (R439 to R443): by HELLO and CONFIG, or 800 ms after the start without them, when the device goes on as DEGRADED_A
or MONITOR, and B by B_ALONE acts alone ten frame periods later. A joining device takes the journal's swaps for the edge that the
primary names; no other device takes one. -/
def Obligations.PairsFormOrFail : Prop :=
  ∀ s : State, Inv s →
    Sys2Proof.Claims.Hellos s ∧ (∀ m, Sys2Proof.Claims.Configs m s) ∧
    (let due := running s = true ∧ s.twin.pair = .forming ∧ s.och.startedAt + 20000000 ≤ s.time.count;
      (due → s.twin.hello.isSome = true → Goes .pairWaitExpiry s (Sys2Proof.Claims.FormationFails 7 s)) ∧
      (due → s.twin.hello = none → Goes .pairWaitExpiry s fun t => Sys2Proof.Claims.FormationFails 6 s t ∧
        t.twin.aloneAt = if strapB s && flag s F.WOD_PAIR_CFG_B_ALONE then
          some (s.time.count + 10 * fld s F.CND_FRAME_PERIOD_PERIOD) else none) ∧
      (¬due → exec .pairWaitExpiry s = .next s)) ∧
    ∀ entries e,
      let joins := running s = true ∧ s.twin.joining = true ∧ s.twin.primary = false;
      (joins → Goes (.journal entries e) s fun t => t.twin = { s.twin with pairSwaps := entries } ∧
        t.swap = { s.swap with join := some (e, entries) }) ∧
      (¬joins → exec (.journal entries e) s = .next s)

/-- The exchange of times (R445): the secondary asks, the primary answers with its stamps, and the secondary takes offset, uncertainty
and TAI from the answer, with the count unmoved and the trim within its bounds. -/
def Sys2Proof.Claims.DelayExchange (s : State) : Prop :=
  (follows s = true → Goes .delayExchangeTimer s fun t =>
    Sys2Proof.Claims.WoadSends 0 (.delayReq s.time.count) s t ∧ t.time = s.time) ∧
  (follows s = false → exec .delayExchangeTimer s = .next s) ∧
  (∀ sent, (follows s = false → Goes (.delayReq sent) s fun t =>
      Sys2Proof.Claims.WoadSends 0 (.delayResp s.time.count s.time.count) s t ∧ t.time = s.time) ∧
    (follows s = true → exec (.delayReq sent) s = .next s)) ∧
  ∀ t1 t2 t3 t4 tai,
    let e1 := Int.ofNat t2 - Int.ofNat t1
    let e2 := Int.ofNat t3 - Int.ofNat t4
    let xs := ((e1, e2) :: s.twin.exch).take 8;
    (follows s = true → s.twin.linkUp = true → Goes (.delayResp t1 t2 t3 t4 tai) s fun t =>
      t.twin = { s.twin with ofs := roundDiv (e1 + e2) 2, unc := uncOf xs, exch := xs } ∧
        t.time.taiOfs = tai + roundDiv (e1 + e2) 2 ∧ Sys2Proof.Claims.TrimWithinBounds s t) ∧
    (follows s = false ∨ s.twin.linkUp = false → exec (.delayResp t1 t2 t3 t4 tai) s = .next s)

/-- The twin's edge (R446, R447, R463): it is kept; on a device that follows and has adopted the frame number, the skew of the same frame
counts as an excursion beyond 500 ticks, recorded when it begins. A secondary is degraded by a skew past 5,000 ticks, by another
SWAP_GEN, and by a primary that says that it is degraded, and by nothing else in the message. -/
def Sys2Proof.Claims.EdgesOfTheTwin (m : EdgeMsg) (s : State) : Prop :=
  let skew := Int.ofNat s.frame.edgeTick + s.twin.ofs - Int.ofNat m.tick
  let judged := s.twin.adopted = true ∧ m.frame = s.frame.num;
  (s.twin.session = false ∨ follows s = false → Goes (.edge m) s fun t =>
    t = { s with twin := { s.twin with twinEdge := some m } }) ∧
  (s.twin.session = true → follows s = true → Goes (.edge m) s fun t => t.twin.twinEdge = some m ∧
    t.twin.excursion = (if judged then decide (500 < skew.natAbs) else s.twin.excursion) ∧
    (judged → 500 < skew.natAbs → s.twin.excursion = false → s.log.queue.length < 256 → Recorded t 0x94 0x0D 2 1) ∧
    (s.twin.pair = .pairedB → t.twin.pair =
      if judged ∧ 5000 < skew.natAbs ∨ m.swapGen ≠ fld s F.WOD_SWAP_STAT_SWAP_GEN ∨ m.state = 3 then .degradedB else .pairedB))

/-- Digests of the same frame (R443, R460, R461): those that agree complete a join, and one that differs ends it; on a secondary an item
that differs is reloaded two frames on, and degrades the pair where it differed before or has no reload source. Without own digests
of the frame, and on any other device, they change nothing. -/
def Sys2Proof.Claims.DigestsCompared (frame : FrameNo) (ds : List (BitVec 256)) (s : State) : Prop :=
  ((∀ f own, s.twin.ownDigests = some (f, own) → f ≠ frame) → exec (.digest frame ds) s = .next s) ∧
  ∀ own, s.twin.ownDigests = some (frame, own) →
    let bad := differing own ds;
    (s.twin.joining = true →
      (bad = [] → Goes (.digest frame ds) s fun t =>
        t.twin.joining = false ∧ t.twin.pair = if s.twin.primary then .pairedA else .pairedB) ∧
      (bad ≠ [] → Goes (.digest frame ds) s fun t => t.twin.joining = false ∧
        t.twin.pair = if s.twin.primary then s.twin.pair else .monitor)) ∧
    (s.twin.joining = false → s.twin.pair = .pairedB → Goes (.digest frame ds) s fun t => t.twin.mism = bad ∧
      t.twin.pair = (if ∃ i ∈ bad, 7 ≤ i ∨ i ∈ s.twin.mism then .degradedB else .pairedB) ∧
      ∀ i ∈ bad, i < 7 → i ∉ s.twin.mism → (i, s.frame.num + 2) ∈ t.twin.reloads) ∧
    (s.twin.joining = false → s.twin.pair ≠ .pairedB → exec (.digest frame ds) s = .next s)

/-- Time, edges and digests of the pair (R443, R445 to R447, R460, R461, R463). -/
def Obligations.PairTimeAndDigests : Prop :=
  ∀ s : State, running s = true → Inv s →
    Sys2Proof.Claims.DelayExchange s ∧ (∀ m, Sys2Proof.Claims.EdgesOfTheTwin m s) ∧
    ∀ frame ds, Sys2Proof.Claims.DigestsCompared frame ds s

/-- The bundle of a frame goes out once the inputs of its choice are there (R46, R451): from state s1 on, it is chosen then, and a result
is emitted, once; a hold waits for the hard stops. -/
def Sys2Proof.Claims.EmitsWhenReady (s1 t : State) : Prop :=
  (emitReady s1 = false → t = s1) ∧
  (emitReady s1 = true → t.frame.choice.isSome = true ∧
    (t.frame.choice ≠ some .hold → t.frame.emittedFrame = true ∧ t.frame.emissions = s1.frame.emissions + 1))

/-- A twin rejection of the running frame stands among those of the last 64 frames, and XDIS_MAX of them degrade a primary (R455). -/
def Sys2Proof.Claims.RejectionCounts (s t : State) : Prop :=
  let recent := (s.frame.num :: s.twin.rejects).filter fun f => frameDist f s.frame.num < 64
  s.frame.num ∈ t.twin.rejects ∧
    (s.twin.pair = .pairedA → t.twin.pair = if fld s F.WOD_PAIR_CFG_XDIS_MAX ≤ recent.length then .degradedA else .pairedA)

/-- OFFER and VERDICT (R449 to R451, R455): the newest offer is kept, and a verdict of pass or reject, on the twin's own trajectory or on this
device's; a reject of this device's is a twin rejection. Nothing is kept of a message without a session, or of another verdict.
Each lets the bundle go out where it was the last input. -/
def Sys2Proof.Claims.OffersAndVerdictsArrive (s : State) : Prop :=
  (∀ o : Offer, Goes (.offer o) s
    (Sys2Proof.Claims.EmitsWhenReady (if s.twin.session then { s with twin := { s.twin with offerIn := some o } } else s))) ∧
  ∀ frame own v d,
    (s.twin.session = false ∨ 1 < v.val → Goes (.verdict frame own v d) s (Sys2Proof.Claims.EmitsWhenReady s)) ∧
    (s.twin.session = true → v.val ≤ 1 → own = false → Goes (.verdict frame own v d) s
      (Sys2Proof.Claims.EmitsWhenReady { s with twin := { s.twin with twinOnTwin := some (frame, decide (v.val = 0)) } })) ∧
    (s.twin.session = true → v.val = 0 → own = true → Goes (.verdict frame own v d) s
      (Sys2Proof.Claims.EmitsWhenReady { s with twin := { s.twin with twinOnOwn := some (frame, true, d.toNat) } })) ∧
    (s.twin.session = true → v.val = 1 → own = true → Goes (.verdict frame own v d) s fun t =>
      t.twin.twinOnOwn = some (frame, false, d.toNat) ∧ Sys2Proof.Claims.RejectionCounts s t)

/-- EMITTED (R402, R452, R453): a device that does not transmit takes as V the offer of the frame that went out: the twin's, with its edge tick
in the time base of this device, or its own. It takes none for a hold, without such an offer, or where it transmits. -/
def Sys2Proof.Claims.EmittedGivesV (frame : FrameNo) (s : State) : Prop :=
  let listens := transmits s = false ∧ s.twin.session = true
  let kept := fun (o : Option Offer) (x : Offer) => o = some x ∧ x.frame = frame ∧ x.record.isSome = true
  (¬listens → ∀ src, exec (.emitted frame src) s = .next s) ∧ exec (.emitted frame 2) s = .next s ∧
  (listens →
    (∀ o, kept s.twin.offerIn o → Goes (.emitted frame 0) s fun t =>
      t = { s with umb := { s.umb with v := offerV o (fromTwin s o.edgeTick) true } } ∧ t.umb.v.isSome = true) ∧
    (∀ o, kept s.twin.offerOut o → Goes (.emitted frame 1) s fun t =>
      t = { s with umb := { s.umb with v := offerV o o.edgeTick false } } ∧ t.umb.v.isSome = true) ∧
    ((∀ o, ¬kept s.twin.offerIn o) → exec (.emitted frame 0) s = .next s) ∧
    ((∀ o, ¬kept s.twin.offerOut o) → exec (.emitted frame 1) s = .next s))

/-- Madder judges the twin's offer of the frame once, after its own trajectory and before the verify hard stop (R396, R397, R450): it passes
one against which it finds nothing, and rejects any other, with a record; the rejection is a twin rejection. At another time it gives
no verdict. The running frame is the same where its own trajectory has not passed. -/
def Sys2Proof.Claims.TwinsOfferJudged (u : Option Upset) (s : State) : Prop :=
  let judges := fun (o : Offer) (r : Record) => s.twin.offerIn = some o ∧ o.record = some r ∧ o.frame = s.frame.num ∧
    (∀ v, s.twin.offerVerdict = some v → v.1 ≠ s.frame.num) ∧ s.frame.stopped.getD 4 false = false ∧
    (s.mad.subject = none ∨ s.mad.verdictOwn.isSome = true)
  let passes := fun (o : Offer) (r : Record) =>
    u = none ∧ madderFails s r (ctxKeepOut s (recCand r).client) o.edgeState = []
  (∀ o r, judges o r → passes o r → Goes (.madderVerdict true u) s fun t =>
    t.twin.offerVerdict = some (s.frame.num, true) ∧ t.twin.rejects = s.twin.rejects) ∧
  (∀ o r, judges o r → ¬passes o r → Goes (.madderVerdict true u) s fun t =>
    t.twin.offerVerdict = some (s.frame.num, false) ∧ Sys2Proof.Claims.RejectionCounts s t ∧
      (s.log.queue.length < 256 → Recorded t 0x94 0x0D 5 1)) ∧
  ((∀ o r, ¬judges o r) → Goes (.madderVerdict true u) s fun t =>
    t.twin.offerVerdict = s.twin.offerVerdict ∧ t.twin.rejects = s.twin.rejects) ∧
  (s.mad.verdictOwn ≠ some true → Goes (.madderVerdict true u) s fun t => t.frame = s.frame)

/-- Offers, verdicts and EMITTED (R46, R402, R449 to R455): what arrives is kept, the twin's offer is judged, and a follower takes its V. -/
def Obligations.OffersAndVerdicts : Prop :=
  ∀ s : State, running s = true → Inv s →
    Sys2Proof.Claims.OffersAndVerdictsArrive s ∧ (∀ frame, Sys2Proof.Claims.EmittedGivesV frame s) ∧
    (fabricUp s = true → s.frame.started = true → ∀ u, Sys2Proof.Claims.TwinsOfferJudged u s)

/-- The secondary has taken over (R457): it acts, with a record, and where it transmits the running frame, has formed its bundle and the
emit hard stop has not come, that bundle goes to the guidance segment. -/
def Sys2Proof.Claims.TakenOver (s t : State) : Prop :=
  t.twin.pair = .acting ∧ t.twin.silent = false ∧ (s.log.queue.length < 256 → Recorded t 0x94 0x0D 4 3) ∧
    (s.frame.out.isSome = true → s.replay.active = false → txFrame s s.frame.num = true →
      s.time.count < s.frame.edgeTick + hardStop s 5 →
      (∃ x, t.bus.onBus = some x ∧ x.bundle.frame = s.frame.num) ∨ ∃ b, t.bus.waiting = some b ∧ b.frame = s.frame.num)

/-- The pair is degraded for a reason (R464): the primary enters DEGRADED_A and the secondary DEGRADED_B, with a record. -/
def Sys2Proof.Claims.Degrades (reason : Nat) (s t : State) : Prop :=
  t.twin.pair = (if s.twin.pair = .pairedA then .degradedA else .degradedB) ∧ reason ∈ t.twin.reasons ∧
    (s.log.queue.length < 256 → Recorded t 0x94 0x0D 3 3)

/-- Takeover and degradation (R455 to R457, R464, R465): a paired secondary takes over on ABDICATE, and where the primary's bundle of a
frame that it transmits has not appeared in time; a link down for ELIG_HOLD frames and XLATE_MAX frames without a verdict degrade a
formed pair; a degraded primary whose condition has been clear for 1,024 frames asks its twin to join again. None of it happens
otherwise. -/
def Obligations.TakeoverAndDegradation : Prop :=
  ∀ s : State, running s = true → Inv s →
    let silent := s.twin.pair = .pairedB ∧ txFrame s (silenceFrame s) = true ∧
      ¬(s.twin.bundleSeen = true ∧ s.twin.lastBundle = silenceFrame s)
    let gone := paired s = true ∧ s.twin.linkUp = false ∧ fld s F.WOD_PAIR_CFG_ELIG_HOLD ≤ s.twin.downFrames
    let late := s.twin.pair = .pairedA ∧ fld s F.WOD_PAIR_CFG_XLATE_MAX ≤ s.twin.xlateRun
    let clear := s.twin.pair = .degradedA ∧ joinBarred s = false ∧ 1024 ≤ s.twin.clearRun
    (∀ frame code, (s.twin.pair = .pairedB → Goes (.abdicate frame code) s (Sys2Proof.Claims.TakenOver s)) ∧
      (s.twin.pair ≠ .pairedB → exec (.abdicate frame code) s = .next s)) ∧
    (silent → Goes .takeoverSilence s (Sys2Proof.Claims.TakenOver s)) ∧ (¬silent → exec .takeoverSilence s = .next s) ∧
    (gone → Goes .eligHoldExpiry s (Sys2Proof.Claims.Degrades 2 s)) ∧ (¬gone → exec .eligHoldExpiry s = .next s) ∧
    (late → Goes .xlateExpiry s (Sys2Proof.Claims.Degrades 4 s)) ∧ (¬late → exec .xlateExpiry s = .next s) ∧
    (clear → Goes .rejoinCountExpiry s fun t => ∃ own : BitVec 256,
      t.twin = { s.twin with hello := none, clearRun := 0, nonce := some own } ∧
        t.sent = if s.twin.linkUp then
          .woad 0 0 (.hello (strapB s) own.toNat) [clearHello (woadPayload s.fuse.deviceId (.hello (strapB s) own.toNat))] :: s.sent
          else s.sent) ∧
    (¬clear → exec .rejoinCountExpiry s = .next s)

/-! ## Security (chapter 14) -/

/-- JTAG (R480, R481): BYPASS in every state, IDCODE in all but SCRAPPED, the others neither in FIELD nor in SCRAPPED. -/
def Obligations.JtagByLifeCycle : Prop :=
  ∀ s : State,
    (Goes .jtagBypass s fun t => t = { s with sec := { s.sec with jtag := .bypass } }) ∧
    (s.fuse.lc ≠ 4 → Goes .jtagIdcode s fun t =>
      t = { s with sec := { s.sec with jtag := .idcode }, sent := .idcode 0x0640A1C3 :: s.sent }) ∧
    (s.fuse.lc = 4 → exec .jtagIdcode s = .next s) ∧
    (s.fuse.lc ≠ 4 → s.fuse.lc ≠ 2 →
      (Goes .jtagSamplePreload s fun t => t = { s with sec := { s.sec with jtag := .samplePreload } }) ∧
      (Goes .jtagExtest s fun t => t = { s with sec := { s.sec with jtag := .extest } }) ∧
      Goes .jtagDebug s fun t => t = { s with sec := { s.sec with jtag := .debug } }) ∧
    (s.fuse.lc = 2 ∨ s.fuse.lc = 4 →
      exec .jtagSamplePreload s = .next s ∧ exec .jtagExtest s = .next s ∧ exec .jtagDebug s = .next s)

/-- An accepted transition token (R475, R477, R479): SAFE_STOP_N, the new state in the fuses, with those that go with it, every byte of the
memories zero, no key left, the tamper latch clear, and a halt. -/
def Sys2Proof.Claims.LifeCycleMoves (target : Nat) (t : State) : Prop :=
  t.fuse.lc = target ∧ t.pwr.safeStop = true ∧ t.pwr.phase = .halted ∧ t.ind.latch = false ∧ t.sec.slots = [] ∧
    t.twin.session = false ∧ fld t F.SUP_LC_STAT_STATE = 2 ∧ (target = 2 → t.fuse.dbgLock = true) ∧
    (target = 3 ∨ target = 4 → t.fuse.kill = true ∧ t.fuse.keyDestroyed = true) ∧ ∀ a, a < 2 ^ 40 → byteAt t a = 0

/-- Life-cycle tokens (R475 to R479): GO takes the mailbox's tokens and starts their check, from a requester that reaches the block, unless one
runs. At its end a refused token changes no fuse, is recorded and shows its reason; an accepted transition moves the life cycle; an
accepted latch-clear token clears the tamper latch. Without a check nothing ends. -/
def Sys2Proof.Claims.LifeCycleTokens (s : State) : Prop :=
  let k := firstToken s
  (∀ r,
    (reachesSup s r = false → Goes (.lcGo r) s (Refused r 0x7C1038 s)) ∧
    (reachesSup s r = true → fld s F.SUP_LC_STAT_STATE = 1 → exec (.lcGo r) s = .next s) ∧
    (reachesSup s r = true → fld s F.SUP_LC_STAT_STATE ≠ 1 → Goes (.lcGo r) s fun t =>
      fld t F.SUP_LC_STAT_STATE = 1 ∧ fld t F.SUP_LC_STAT_REASON = 0 ∧ SameRegsBut [F.SUP_LC_STAT_STATE.addr] s t ∧
        t = { s with regs := t.regs, sec := { s.sec with tokens := mboxBytes s 0x2400 512 } })) ∧
  (fld s F.SUP_LC_STAT_STATE ≠ 1 → exec .lcTokenDone s = .next s) ∧
  (fld s F.SUP_LC_STAT_STATE = 1 → Goes .lcTokenDone s fun t =>
    match tokenReason s k (secondToken s) with
    | some n => t.fuse = s.fuse ∧ t.ind.latch = s.ind.latch ∧ t.pwr = s.pwr ∧ t.mem = s.mem ∧ t.sec = s.sec ∧
        fld t F.SUP_LC_STAT_STATE = 3 ∧ fld t F.SUP_LC_STAT_REASON = n ∧ (s.log.queue.length < 256 → Recorded t 0x90 0x0E 1 1)
    | none => if latchClear s k = true then
        t.fuse = s.fuse ∧ t.ind.latch = false ∧ t.pwr = s.pwr ∧ t.mem = s.mem ∧ fld t F.SUP_LC_STAT_STATE = 2
      else Sys2Proof.Claims.LifeCycleMoves k.target t)

/-- A refused key setup (R492): counted and recorded, and the slots keep their keys. -/
def Sys2Proof.Claims.SetupRefused (s t : State) : Prop :=
  t.sec = s.sec ∧ t.sent = s.sent ∧ Counted F.WDN_SEC_CNT_KX_REFUSED s t ∧
    (s.log.queue.length < 256 → Recorded t 0x90 0x0E 3 1)

/-- Key setup (R491 to R493): GO takes the mailbox's request, from a requester that reaches the block, and is refused while a setup runs. At
its end a refused setup shows its reason, and any other gives its slot new keys with fresh counters, in place of old ones, and signals
MSI-X vector 1; where units wait for the host, they may go out with it. Without a setup nothing ends. -/
def Sys2Proof.Claims.KeySetups (s : State) : Prop :=
  let q := kxOf s.sec.kxReq
  (∀ r,
    (reachesSup s r = false → Goes (.kxGo r) s (Refused r 0x7C1030 s)) ∧
    (reachesSup s r = true → fld s F.SUP_KX_STAT_STATE = 1 → Goes (.kxGo r) s (Sys2Proof.Claims.SetupRefused s)) ∧
    (reachesSup s r = true → fld s F.SUP_KX_STAT_STATE ≠ 1 → Goes (.kxGo r) s fun t =>
      fld t F.SUP_KX_STAT_STATE = 1 ∧ fld t F.SUP_KX_STAT_REASON = 0 ∧ fld t F.SUP_KX_STAT_SLOT = regWord s 0x7C4000 % 256 ∧
        SameRegsBut [F.SUP_KX_STAT_STATE.addr] s t ∧
        t = { s with regs := t.regs, sec := { s.sec with kxTamper := false, kxReq := mboxBytes s 0 280 } })) ∧
  (fld s F.SUP_KX_STAT_STATE ≠ 1 → exec .kxDone s = .next s) ∧
  (fld s F.SUP_KX_STAT_STATE = 1 → Goes .kxDone s fun t =>
    match kxReason s q with
    | some n => Sys2Proof.Claims.SetupRefused s t ∧ fld t F.SUP_KX_STAT_STATE = 3 ∧ fld t F.SUP_KX_STAT_REASON = n
    | none => fld t F.SUP_KX_STAT_STATE = 2 ∧ (∃ l, t.sent = l ++ .msix 1 :: s.sent) ∧
        (s.sec.out = [] → ∃ priv,
          let k : SlotKeys := ⟨q.slot, q.client, kxKeys q priv, 0, 0, [], []⟩
          t.sec.slots = k :: s.sec.slots.filter fun x => x.slot ≠ q.slot))

/-- Comparator n trips with VDD_CORE applied (R439, R493, R499, R500): LATCH, and no key of a slot or of Woad is left; with TAMPER_HALT every
byte of the memories is zero as well, both signals stand asserted, and the device halts. -/
def Sys2Proof.Claims.Tripped (s t : State) : Prop :=
  t.ind.latch = true ∧ t.sec.slots = [] ∧ t.twin.session = false ∧ t.twin.keys = [] ∧
    (flag s F.WDN_SEC_CFG_TAMPER_HALT = true → t.pwr.phase = .halted ∧ t.pwr.safeStop = true ∧ t.pwr.faultN = true ∧
      ∀ a, a < 2 ^ 40 → byteAt t a = 0) ∧
    (flag s F.WDN_SEC_CFG_TAMPER_HALT = false → t.pwr = s.pwr)

/-- Tamper (R499, R500): an enabled comparator trips; without VDD_CORE a trip but that of comparator 2 latches for the wake, while Indigo has
its supply; the mesh trips comparator 0 after two failures in a row. Nothing else of either has an effect. -/
def Sys2Proof.Claims.TamperTrips (s : State) : Prop :=
  (∀ n : Fin 4,
    let on := maskBit s F.WDN_SEC_CFG_TAMPER_EN n.val = true
    let asleep := coreApplied s = false ∧ n.val ≠ 2 ∧ s.ind.powered = true
    (on → coreApplied s = true → Goes (.tamperTrip n) s (Sys2Proof.Claims.Tripped s)) ∧
    (on → asleep → Goes (.tamperTrip n) s fun t => t = { s with ind := { s.ind with
      latch := true, asleepTrip := s.ind.asleepTrip ||| 2 ^ n.val, asleepDue := s.ind.asleepDue ||| 2 ^ n.val } }) ∧
    (¬on ∨ (coreApplied s = false ∧ ¬asleep) → exec (.tamperTrip n) s = .next s)) ∧
  (let checks := s.ind.powered = true ∧ maskBit s F.WDN_SEC_CFG_TAMPER_EN 0 = true;
    (¬checks → ∀ ok, exec (.meshCheck ok) s = .next s) ∧
    (checks → (Goes (.meshCheck true) s fun t => t = { s with ind := { s.ind with meshFails := 0 } }) ∧
      (s.ind.meshFails = 0 → Goes (.meshCheck false) s fun t => t = { s with ind := { s.ind with meshFails := 1 } }) ∧
      (1 ≤ s.ind.meshFails → coreApplied s = true → Goes (.meshCheck false) s fun t =>
        Sys2Proof.Claims.Tripped s t ∧ t.ind.meshFails = 0) ∧
      (1 ≤ s.ind.meshFails → coreApplied s = false → Goes (.meshCheck false) s fun t =>
        t = { s with ind := { s.ind with meshFails := 0, latch := true, asleepTrip := s.ind.asleepTrip ||| 1,
                                         asleepDue := s.ind.asleepDue ||| 1 } })))

/-- Life-cycle tokens, key setup and tamper (R475 to R479, R491 to R493, R499, R500). -/
def Obligations.TokensKeysAndTamper : Prop :=
  ∀ s : State, Inv s → Sys2Proof.Claims.TamperTrips s ∧
    (running s = true → Sys2Proof.Claims.LifeCycleTokens s ∧ Sys2Proof.Claims.KeySetups s)

/-- A descriptor completes with a status (R495): its completion is written while the ring has room and none waits, with MSI-X vector 0, and
waits otherwise. -/
def Sys2Proof.Claims.Completes (index status slot : Nat) (s t : State) : Prop :=
  ∃ c : Compl, c.index = index ∧ c.status = status ∧ c.slot = slot ∧
    if s.sec.compls = [] ∧ complFull s = false then
      t.sent = .msix 0 :: .completion (fld s F.SUP_CMP_HEAD_HEAD) c (complBytes c) :: s.sent ∧ t.sec.compls = []
    else t.sent = s.sent ∧ t.sec.compls = s.sec.compls ++ [c]

/-- A doorbell from a requester that reaches the block moves TAIL, and while the rings are in use it hands on the descriptors up to it
(R495), stated for one: a well-formed one of a slot with keys joins the messages or the buffers; a malformed one completes with
status 4, and one of another slot with 3. -/
def Sys2Proof.Claims.DoorbellsHandOn (r : Requester) (tail : BitVec 12) (s : State) : Prop :=
  let old := fld s F.SUP_CMD_TAIL_TAIL
  let size := fld s F.SUP_CMD_CTL_SIZE
  let reach := reachesSup s r = true
  let one := flag s F.SUP_CMD_CTL_EN = true ∧ 1 < size ∧ old < size ∧ tail.toNat = (old + 1) % size ∧ s.sec.out = []
  (¬reach → ∀ ds, Goes (.cmdDoorbell r tail ds) s (Refused r 0x7C1024 s)) ∧
  (reach → flag s F.SUP_CMD_CTL_EN = false → ∀ ds, Goes (.cmdDoorbell r tail ds) s fun t =>
    fld t F.SUP_CMD_TAIL_TAIL = tail.toNat ∧ t = { s with regs := t.regs }) ∧
  (reach → one → ∀ w : BitVec 128,
    let d := cmdDescOf w
    let known := (slotKeys s d.slot).isSome = true
    (descOk d = true → known → Goes (.cmdDoorbell r tail [w]) s fun t => fld t F.SUP_CMD_TAIL_TAIL = tail.toNat ∧
      t = { s with regs := t.regs, sec := if d.dkind = 0 then { s.sec with cmds := s.sec.cmds ++ [⟨old, d.slot, d.len⟩] }
        else { s.sec with bufs := s.sec.bufs ++ [⟨old, d.slot, d.len⟩] } }) ∧
    (descOk d = true → ¬known → Goes (.cmdDoorbell r tail [w]) s (Sys2Proof.Claims.Completes old 3 d.slot s)) ∧
    (descOk d = false → Goes (.cmdDoorbell r tail [w]) s (Sys2Proof.Claims.Completes old 4 d.slot s)))

/-- The message of the oldest descriptor d, with a slot of keys k (R494, R496): one that they do not open completes with status 1, is counted
and recorded, and its slot is closed at the 16th within a second; an old counter completes with status 2 and is counted as a
replay; any other continues the slot's unit, which is whole without MORE. -/
def Sys2Proof.Claims.MessageJudged (d : SlotDesc) (k : SlotKeys) (b : List Byte) (s t : State) : Prop :=
  let ctr := fieldAt 8 8 b
  let fails := (s.time.count :: k.fails.filter fun x => s.time.count < x + 25000000).take 16
  match openHost k b with
  | none => Counted F.WDN_SEC_CNT_TAG_FAIL s t ∧ (s.log.queue.length < 256 → Recorded t 0x97 0x0E 4 1) ∧
      (if 16 ≤ fails.length then ∀ x ∈ t.sec.slots, x.slot ≠ d.slot
       else (∀ x ∈ t.sec.slots, x.slot = k.slot → x.fails = fails) ∧ Sys2Proof.Claims.Completes d.index 1 d.slot s t) ∧
      t.sec.unit = s.sec.unit
  | some pt => if ctr ≤ k.rxCtr then
        Sys2Proof.Claims.Completes d.index 2 d.slot s t ∧ Counted F.SUP_SLOT_CNT_REPLAY s t ∧ t.sec.slots = s.sec.slots ∧
          t.sec.unit = s.sec.unit
      else
        (ctr < 2 ^ 48 → Sys2Proof.Claims.Completes d.index 0 d.slot s t ∧ ∀ x ∈ t.sec.slots, x.slot = k.slot →
          x = { k with rxCtr := ctr, part := if hostMore b then k.part ++ pt else [] }) ∧
        (2 ^ 48 ≤ ctr → ∀ x ∈ t.sec.slots, x.slot ≠ d.slot) ∧
        t.sec.unit = if hostMore b then s.sec.unit else some (d.slot, k.part ++ pt)

/-- The rings (R494 to R496): messages of the host are taken from the oldest descriptor on, completions go out while the ring has room, a
unit that has waited 100 ms for a buffer is dropped, and disabling the rings cancels what is outstanding. -/
def Sys2Proof.Claims.RingsRun (s : State) : Prop :=
  (s.sec.cmds = [] → ∀ b, exec (.hostMessage b) s = .next s) ∧
  (∀ d ds b, s.sec.cmds = d :: ds →
    (slotKeys s d.slot = none → Goes (.hostMessage b) s fun t => t.sec.cmds = ds ∧ Sys2Proof.Claims.Completes d.index 3 d.slot s t) ∧
    ∀ k, slotKeys s d.slot = some k → Goes (.hostMessage b) s (Sys2Proof.Claims.MessageJudged d k (b.take d.len) s)) ∧
  (s.sec.compls = [] ∨ complFull s = true → exec .completionWrite s = .next s) ∧
  (∀ c cs, s.sec.compls = c :: cs → complFull s = false → Goes .completionWrite s fun t => t.sec = { s.sec with compls := cs } ∧
    t.sent = .msix 0 :: .completion (fld s F.SUP_CMP_HEAD_HEAD) c (complBytes c) :: s.sent) ∧
  (s.sec.out = [] → exec .deviceMsgTimeout s = .next s) ∧
  (∀ m ms, s.sec.out = m :: ms → Goes .deviceMsgTimeout s fun t =>
    t = if s.time.count < m.since + 2500000 then s else { s with sec := { s.sec with out := ms, dropped := s.sec.dropped + 1 } }) ∧
  ∀ r, (reachesSup s r = false → Goes (.ringDisable r) s (Refused r 0x7C1020 s)) ∧
    (reachesSup s r = true → Goes (.ringDisable r) s fun t => t.sec.cmds = [] ∧ t.sec.bufs = [] ∧
      flag t F.SUP_CMD_CTL_EN = false ∧ t.sec.slots = s.sec.slots ∧ ∀ d ∈ s.sec.cmds ++ s.sec.bufs, ∃ c : Compl,
        c.index = d.index ∧ c.status = 5 ∧ (c ∈ t.sec.compls ∨ ∃ h b, .completion h c b ∈ t.sent))

/-- The supervisor port (R490, R494 to R496): doorbells, messages, completions, time-outs and the end of the rings, and the link, which shows
its state, and its speed and width as far as their fields hold them. -/
def Obligations.RingsCarryMessages : Prop :=
  ∀ s : State, running s = true → Inv s →
    (∀ r tail, Sys2Proof.Claims.DoorbellsHandOn r tail s) ∧ Sys2Proof.Claims.RingsRun s ∧
    (∀ speed width, speed < 8 → width < 8 → Goes (.supLinkUp speed width) s fun t => flag t F.SUP_LINK_STAT_UP = true ∧
      fld t F.SUP_LINK_STAT_SPEED = speed ∧ fld t F.SUP_LINK_STAT_WIDTH = width ∧
      SameRegsBut [F.SUP_LINK_STAT_UP.addr] s t ∧ t = { s with regs := t.regs }) ∧
    Goes .supLinkDown s fun t => flag t F.SUP_LINK_STAT_UP = false ∧ SameRegsBut [F.SUP_LINK_STAT_UP.addr] s t ∧
      t = { s with regs := t.regs }

/-! ## The vehicle bus and Ochre (chapter 15) -/

/-- A port with a role of R505 (1 ISOBUS, 2 guidance) is on the bus. -/
def Sys2Proof.Claims.PortUp (s : State) (role : Nat) : Prop := ∃ p, rolePort s role = some p ∧ portOff s p = false

/-- A received CAN frame (R36, R506, R507, R522): a remote frame, one whose format the port's MODE does not take, and one on a port
without a role are ignored, and one that the port's FIFO has no room for is not taken; a CANsec frame counts as unmatched; on the
guidance port one with an identifier of this device is a fault and no sample. Of the others one that a filter, a binding or a device
function takes counts as accepted, a filter's is a sample of its stream where the stream takes samples, and one that nothing takes counts
as unmatched. -/
def Sys2Proof.Claims.CanFramesAreFiltered (port : Fin 4) (f : CanFrame) (s : State) : Prop :=
  let p := port.val
  let id := f.ident.toNat
  let heard := fld s (F.VBS_PORT_CFG_ROLE p) ≠ 0 ∧ f.remote = false ∧ modeTakes s p f.format = true ∧
    (fifoTake (16 + p) s).1 = true
  let sealed := f.format = .xl ∧ f.sec = true
  let own := rolePort s 2 = some p ∧ id ∈ ownIds s (strapB s)
  let counts := fun (x : Fld) (t : State) => Counted x s t ∧ t = { s with regs := t.regs, fifo := t.fifo }
  let bound := (∃ b ∈ s.image.bindings, bindingTakes s p id b = true) ∨ functionTakes s p id = true
  (¬heard → exec (.canFrameRx port f) s = .next s) ∧
  (heard → sealed → Goes (.canFrameRx port f) s (counts (F.VBS_RX_CNT_UNMATCHED p))) ∧
  (heard → ¬sealed → own → Goes (.canFrameRx port f) s fun t => (s.log.queue.length < 256 → Recorded t 0x95 0x0F 5 3) ∧
    SameRegsBut logAddrs s t ∧ t = { s with regs := t.regs, log := t.log, ind := t.ind, fifo := t.fifo }) ∧
  (heard → ¬sealed → ¬own →
    (∀ x, filterOf s p id = some x →
      let now : Sample := ⟨s.time.count - latency s x.stream.val, s.time.count, frameSample f⟩
      (receives s x.stream.val = false → Goes (.canFrameRx port f) s (counts (F.VBS_RX_CNT_ACCEPTED p))) ∧
      (receives s x.stream.val = true → Takes s x.stream.val now → Goes (.canFrameRx port f) s fun t =>
        Admitted x.stream.val now s t ∧ Counted (F.VBS_RX_CNT_ACCEPTED p) s t)) ∧
    (filterOf s p id = none → bound → Goes (.canFrameRx port f) s (counts (F.VBS_RX_CNT_ACCEPTED p))) ∧
    (filterOf s p id = none → ¬bound → Goes (.canFrameRx port f) s (counts (F.VBS_RX_CNT_UNMATCHED p))))

/-- The device's claim of its address starts and ends (R510): the preferred address, when the ISOBUS port first leaves bus integration, and
250 ms later without a contest the device has it. Nothing of this happens otherwise. -/
def Sys2Proof.Claims.AddressesAreClaimed (s : State) : Prop :=
  let name := Output.isobus 0xEE00 255 (leBytes 8 (ownName s).toNat)
  let starts := fld s F.VBS_ISO_STAT_CLAIM = 0 ∧ (rolePort s 1).isSome = true
  let ends := fld s F.VBS_ISO_STAT_CLAIM = 1 ∧ s.bus.claimAt + 6250000 ≤ s.time.count
  (starts → Goes .addressClaimStart s fun t => t.bus = { s.bus with claimSa := prefSa s, claimAt := s.time.count } ∧
    fld t F.VBS_ISO_STAT_CLAIM = 1 ∧ fld t F.VBS_ISO_STAT_ADDR = 254 ∧
    (Sys2Proof.Claims.PortUp s 1 → t.sent = name :: s.sent)) ∧
  (¬starts → exec .addressClaimStart s = .next s) ∧
  (ends → s.bus.claimSa < 256 → Goes .addressClaimTimer s fun t => fld t F.VBS_ISO_STAT_CLAIM = 2 ∧
    fld t F.VBS_ISO_STAT_ADDR = s.bus.claimSa ∧ t.bus = s.bus ∧ (s.log.queue.length < 256 → Recorded t 0x95 0x0F 4 0)) ∧
  (¬ends → exec .addressClaimTimer s = .next s)

/-- Address Claimed of another device (R511, R514): the address of its NAME is known from then on, or none is where it can claim none. A
NAME of lower value that contends for the device's address takes it, and the device claims the next free one if its NAME is self
configurable, or else can claim none; one of higher value is answered with the device's own claim; and no other message has an
answer. -/
def Sys2Proof.Claims.ClaimsAreHeard (m : ClaimMsg) (s : State) : Prop :=
  let sa := m.sa.toNat
  let name := Output.isobus 0xEE00 255 (leBytes 8 (ownName s).toNat)
  let contends := (fld s F.VBS_ISO_STAT_CLAIM = 1 ∨ fld s F.VBS_ISO_STAT_CLAIM = 2) ∧ sa = s.bus.claimSa ∧ m.name ≠ ownName s
  Goes (.addressClaimed m) s fun t =>
    (sa < 254 → ∀ e, e.1 = m.name → (e ∈ t.bus.names ↔ e = (m.name, sa))) ∧ (254 ≤ sa → ∀ e ∈ t.bus.names, e.1 ≠ m.name) ∧
    (∀ e, e.1 ≠ m.name → e.2 ≠ sa → (e ∈ t.bus.names ↔ e ∈ s.bus.names)) ∧
    (¬contends → t = { s with bus := t.bus } ∧ t.bus = { s.bus with names := t.bus.names }) ∧
    (contends → Sys2Proof.Claims.PortUp s 1 → t.sent = name :: s.sent) ∧
    (contends → (ownName s).toNat < m.name.toNat → t.bus = { s.bus with names := t.bus.names } ∧ t.regs = s.regs) ∧
    (contends → m.name.toNat < (ownName s).toNat → Counted F.VBS_ISO_STAT_CONTESTS s t ∧
      (s.log.queue.length < 256 → Recorded t 0x95 0x0F 3 1) ∧ fld t F.VBS_ISO_STAT_ADDR = 254 ∧
      match (if s.image.ownName.getLsbD 63 then freeSa t else none) with
      | some a => t.bus.claimSa = a ∧ fld t F.VBS_ISO_STAT_CLAIM = 1
      | none => t.bus.claimSa = s.bus.claimSa ∧ fld t F.VBS_ISO_STAT_CLAIM = 3)

/-- Requests for a PGN (R510, R512, R525): one to all devices or to the device's claimed address. Address Claimed is answered once claiming
has begun, device status with a claimed address, and another PGN, asked of this device alone, negatively. Nothing else is answered. -/
def Sys2Proof.Claims.RequestsForPgns (pgn : BitVec 18) (src dst : Byte) (s : State) : Prop :=
  let mine := claimed s = true ∧ dst.toNat = fld s F.VBS_ISO_STAT_ADDR
  let b := statusBytes s
  let answers := fun (o : Output) => Goes (.requestPgn pgn src dst) s fun t => t = { s with sent := o :: s.sent }
  let asked := dst = 255 ∨ mine
  Sys2Proof.Claims.PortUp s 1 →
    (asked → pgn = 0xEE00 → fld s F.VBS_ISO_STAT_CLAIM ≠ 0 → answers (.isobus 0xEE00 255 (leBytes 8 (ownName s).toNat))) ∧
    (asked → pgn ≠ 0xEE00 → pgn = s.image.statPgn → claimed s = true →
      answers (.isobus s.image.statPgn.toNat 255 (b.take 2 ++ (b.drop 4).take 6))) ∧
    (mine → pgn ≠ 0xEE00 → pgn ≠ s.image.statPgn →
      answers (.isobus 0xE800 src.toNat ([1, 0xFF, 0xFF, 0xFF] ++ leBytes 1 src.toNat ++ leBytes 3 pgn.toNat))) ∧
    (¬asked ∨ (pgn = 0xEE00 ∧ fld s F.VBS_ISO_STAT_CLAIM = 0) ∨
      (pgn ≠ 0xEE00 ∧ pgn = s.image.statPgn ∧ claimed s = false) ∨ (¬mine ∧ pgn ≠ 0xEE00 ∧ pgn ≠ s.image.statPgn) →
      exec (.requestPgn pgn src dst) s = .next s)

/-- Received CAN frames and address claiming (R506 to R514, R522). -/
def Obligations.CanFramesAndAddresses : Prop :=
  ∀ s : State, running s = true → Inv s →
    (∀ port f, Sys2Proof.Claims.CanFramesAreFiltered port f s) ∧ Sys2Proof.Claims.AddressesAreClaimed s ∧
    (∀ m, Sys2Proof.Claims.ClaimsAreHeard m s) ∧ ∀ pgn src dst, Sys2Proof.Claims.RequestsForPgns pgn src dst s

/-- A transport session ends before its message is complete (R530): it is gone, and it counts as unmatched. -/
def Sys2Proof.Claims.SessionFails (src : Byte) (s t : State) : Prop :=
  t.bus.tp = s.bus.tp.filter (fun x => x.src ≠ src.toNat) ∧
    ∀ p, rolePort s 1 = some p → Counted (F.VBS_RX_CNT_UNMATCHED p) s t

/-- Transport sessions open (R509, R511): a BAM, or with a claimed address an RTS, which is answered with CTS, of 9 to 1,785 bytes, and
one of another length fails. A new session of a sender replaces its old one. -/
def Sys2Proof.Claims.SessionsOpen (src : Byte) (size : Nat) (pgn : BitVec 18) (s : State) : Prop :=
  let fits := 9 ≤ size ∧ size ≤ 1785
  let opened := fun (bam : Bool) => s.bus.tp.filter (fun x => x.src ≠ src.toNat) ++ [⟨src.toNat, bam, pgn.toNat, size, 1, []⟩]
  (fits → Goes (.tpMessage src (.bam size pgn)) s fun t => t = { s with bus := { s.bus with tp := opened true } }) ∧
  (¬fits → Goes (.tpMessage src (.bam size pgn)) s (Sys2Proof.Claims.SessionFails src s)) ∧
  (claimed s = false → exec (.tpMessage src (.rts size pgn)) s = .next s) ∧
  (claimed s = true → ¬fits → Goes (.tpMessage src (.rts size pgn)) s (Sys2Proof.Claims.SessionFails src s)) ∧
  (claimed s = true → fits → Goes (.tpMessage src (.rts size pgn)) s fun t => t.bus = { s.bus with tp := opened false } ∧
    (Sys2Proof.Claims.PortUp s 1 → t.sent = .isobus 0xEC00 src.toNat
      ([17] ++ leBytes 1 ((size + 6) / 7) ++ [1, 0xFF, 0xFF] ++ leBytes 3 pgn.toNat) :: s.sent))

/-- The data of a session x (R509, R530): each TP.DT must carry the next number, and a wrong number ends the session; at the last one the
message is complete, and a filter makes it a sample of its stream. -/
def Sys2Proof.Claims.SessionsCarryData (src : Byte) (x : TpSession) (s : State) : Prop :=
  let base := (if x.pgn / 256 % 256 < 240 then x.pgn + if x.bam then 255 else fld s F.VBS_ISO_STAT_ADDR else x.pgn) * 256 + x.src
  Goes (.tpSessionTimeout src) s (Sys2Proof.Claims.SessionFails src s) ∧
  ∀ n bytes,
    let all := (x.bytes ++ bytes.take 7).take x.size
    (n ≠ x.next → Goes (.tpMessage src (.data n bytes)) s (Sys2Proof.Claims.SessionFails src s)) ∧
    (n = x.next → all.length ≠ x.size → Goes (.tpMessage src (.data n bytes)) s fun t => t = { s with bus := { s.bus with
      tp := s.bus.tp.map fun y => if y.src = src.toNat then { x with next := x.next + 1, bytes := all } else y } }) ∧
    (n = x.next → all.length = x.size → Goes (.tpMessage src (.data n bytes)) s fun t =>
      t.bus.tp = s.bus.tp.filter (fun y => y.src ≠ src.toNat) ∧
      ∀ p f, rolePort s 1 = some p → filterOf s p base = some f → Counted (F.VBS_RX_CNT_ACCEPTED p) s t ∧
        (receives s f.stream.val = true → (∀ bs, Takes s f.stream.val ⟨s.time.count - latency s f.stream.val, s.time.count, bs⟩) →
          ∃ ident, Admitted f.stream.val
            ⟨s.time.count - latency s f.stream.val, s.time.count, canSample ident true 0 0 0 0 all⟩ s t))

/-- Transport sessions of a sender (R509, R530): they open, carry data and end; an abort ends one, and without one a time-out does
nothing and data counts as unmatched. -/
def Sys2Proof.Claims.TransportSessions (src : Byte) (s : State) : Prop :=
  let mine := s.bus.tp.find? fun t => t.src = src.toNat
  (∀ size pgn, Sys2Proof.Claims.SessionsOpen src size pgn s) ∧
  (Goes (.tpMessage src .abort) s fun t =>
    t = { s with bus := { s.bus with tp := s.bus.tp.filter (fun x => x.src ≠ src.toNat) } }) ∧
  (∀ x, mine = some x → Sys2Proof.Claims.SessionsCarryData src x s) ∧
  (mine = none → exec (.tpSessionTimeout src) s = .next s ∧ ∀ n bytes, Goes (.tpMessage src (.data n bytes)) s fun t =>
    t = { s with regs := t.regs } ∧ ∀ p, rolePort s 1 = some p → Counted (F.VBS_RX_CNT_UNMATCHED p) s t)

/-- Units of clients on the bus (R342, R526, R527): one of a sender without a binding and one of another length are not taken and count as
unmatched; a unit of 16 bytes or more is the request that it spells, from the binding's client, and one of 8 bytes is a release
acknowledgement of that client. -/
def Sys2Proof.Claims.ClientUnitsAreTaken (ident : BitVec 29) (name : Option (BitVec 64)) (port : Port) (bytes : List Byte)
    (s : State) : Prop :=
  let run := exec (.clientUnit ident name port bytes) s
  let untaken := Goes (.clientUnit ident name port bytes) s fun t =>
    t = { s with regs := t.regs } ∧ ∀ p, canPort s port = some p → Counted (F.VBS_RX_CNT_UNMATCHED p) s t
  (bindingOf s ident.toNat name port = none → untaken) ∧
  ∀ b, bindingOf s ident.toNat name port = some b →
    let q := { parseReq bytes with client := b.client }
    let k := unitKind bytes
    (bytes.length < 16 → bytes.length ≠ 8 → untaken) ∧
    (bytes.length = 8 → run = exec (.releaseAck port b.client bytes) s) ∧
    (16 ≤ bytes.length →
      (k = 0 → run = exec (.pathCheck port q) s) ∧ (k = 1 → run = exec (.planToGoal port q (parseGoal bytes)) s) ∧
      (k = 2 → run = exec (.corridorWatch port q) s) ∧
      (k = 3 → q.sub = 0 → run = exec (.start port q (bytes.drop 16)) s) ∧ (k = 3 → q.sub = 1 → run = exec (.suspend port q) s) ∧
      (k = 3 → q.sub = 2 → run = exec (.resume port q) s) ∧ (k = 3 → q.sub = 3 → run = exec (.cancel port q) s) ∧
      (k = 3 → q.sub = 4 → run = exec (.query port q) s) ∧
      (fabricUp s = true → 3 < k ∨ (k = 3 ∧ 4 < q.sub) → Goes (.clientUnit ident name port bytes) s
        (Sys2Proof.Claims.RequestRefused port k q (if cliEn s b.client then (if k = 3 then 0x13 else 0x11) else 0x10) s)))

/-- A release acknowledgement (R409, R529, R531): accepted from ACK_CLIENT for a recent frame, while release is pending and the frame has no
doubt; discarded and counted otherwise. It releases nothing by itself. -/
def Sys2Proof.Claims.AcknowledgementsAreJudged (port : Port) (client : Nat) (bytes : List Byte) (s : State) : Prop :=
  let good := client = fld s F.WDN_REL_CFG_ACK_CLIENT ∧ s.pwr.safeStop = true ∧ s.safe.atRest = true ∧ s.safe.acked = none ∧
    s.frame.flags = 0 ∧ ∃ f, parseAck client bytes = some f ∧ frameDist f s.frame.num ≤ 64
  (good → Goes (.releaseAck port client bytes) s fun t => t = { s with safe := { s.safe with acked := some s.frame.num } }) ∧
  (¬good → Goes (.releaseAck port client bytes) s fun t =>
    t = { s with regs := t.regs, bus := { s.bus with badAcks := s.bus.badAcks + 1 } } ∧
      ∀ p, canPort s port = some p → Counted (F.VBS_RX_CNT_UNMATCHED p) s t)

/-- Transport sessions, the units of clients, and release acknowledgements (R409, R509, R526 to R531). -/
def Obligations.SessionsAndClientUnits : Prop :=
  ∀ s : State, running s = true → Inv s →
    (∀ src, Sys2Proof.Claims.TransportSessions src s) ∧
    (∀ ident name port bytes, Sys2Proof.Claims.ClientUnitsAreTaken ident name port bytes s) ∧
    ∀ port client bytes, Sys2Proof.Claims.AcknowledgementsAreJudged port client bytes s

/-- The recipient's heartbeat (R523, R524): a count that differs from the previous valid one, and the first after cold start or a lapse, is
valid, counts a skip and ends a lapse; another is not. HB_TIMEOUT without a valid one begins a lapse, with a warning, and until
then none begins. -/
def Sys2Proof.Claims.Heartbeats (s : State) : Prop :=
  let late := s.bus.lapseFrom = none ∧ ∃ x, s.bus.hbBase = some x ∧ x + fld s F.VBS_GUID_CFG_HB_TIMEOUT * 25000 ≤ s.time.count
  exec (.heartbeatRx ⟨[]⟩) s = .next s ∧
  (∀ b bs, s.bus.lapseFrom ≠ none ∨ s.bus.hbCtr ≠ some b.toNat → Goes (.heartbeatRx ⟨b :: bs⟩) s fun t =>
    t.bus = { s.bus with
      hbCtr := some b.toNat, lapseFrom := none, hbBase := if s.frame.started then some s.time.count else none
      overTold := if s.bus.lapseFrom.isSome then false else s.bus.overTold
      hbSkips := s.bus.hbSkips +
        if s.bus.lapseFrom = none ∧ (s.bus.hbCtr.any fun o => decide ((o + 1) % 256 ≠ b.toNat)) = true then 1 else 0 } ∧
    t.frame = s.frame ∧ (s.bus.lapseFrom ≠ none → flag t F.VBS_HB_STAT_LAPSED = false ∧
      (s.log.queue.length < 256 → Recorded t 0x95 0x0F 8 0))) ∧
  (∀ b bs, s.bus.lapseFrom = none → s.bus.hbCtr = some b.toNat → exec (.heartbeatRx ⟨b :: bs⟩) s = .next s) ∧
  (late → Goes .hbTimeoutExpiry s fun t => t.bus = { s.bus with lapseFrom := some s.time.count } ∧
    flag t F.VBS_HB_STAT_LAPSED = true ∧ t.frame = s.frame ∧ (s.log.queue.length < 256 → Recorded t 0x95 0x0F 6 1)) ∧
  (¬late → exec .hbTimeoutExpiry s = .next s)

/-- Device status (R518, R525): with the flags of the moment it goes out on the ISOBUS port, where the device has an address there, and on the
guidance port, where it waits for the end of a bundle that is on the bus. Its acceptance field is the model's choice (log 128). -/
def Sys2Proof.Claims.StatusGoesOut (s : State) : Prop :=
  let b := statusBytes s
  let iso := Output.isobus s.image.statPgn.toNat 255 (b.take 2 ++ (b.drop 4).take 6)
  let guid := Output.canXl (fld s F.VBS_GUID_CFG_GID_BASE + if strapB s then 5 else 4) s.image.sdt s.frame.num b
  Goes .statPeriodTimer s fun t => t.bus.sflags = sflagsNow s ∧
    (claimed s = true → Sys2Proof.Claims.PortUp s 1 → iso ∈ t.sent) ∧
    (Sys2Proof.Claims.PortUp s 2 → s.bus.onBus = none → ∃ l, t.sent = guid :: l) ∧
    (Sys2Proof.Claims.PortUp s 2 → s.bus.onBus ≠ none → t.bus.guidOut = s.bus.guidOut ++ [guid])

/-- The part of a bundle that is on the bus goes out, while the guidance port is on the bus (R515 to R517). -/
def Sys2Proof.Claims.PartGoesOut (x : OnBus) (s t : State) : Prop :=
  t.bus.onBus = some x ∧ (Sys2Proof.Claims.PortUp s 2 → ∃ l, t.sent = .canXl
    (fld s F.VBS_GUID_CFG_GID_BASE + (if strapB s then 2 else 0) + x.part) s.image.sdt x.bundle.frame (partBytes s x) :: l)

/-- The output stage, with part x.part of a bundle on the bus (R513, R516 to R519, R530): part 1 follows part 0; after it the number
counts, a guidance command goes out where ISO_GUID asks for one, and the bundle that waits begins, or else the frames that waited
for the end. A part that fails is sent again unless a newer bundle waits, which then takes its place. -/
def Sys2Proof.Claims.BundlesGoOutInParts (x : OnBus) (s : State) : Prop :=
  let command := flag s F.VBS_STAT_CFG_ISO_GUID = true ∧ claimed s = true ∧ (rolePort s 1).isSome = true
  (x.part = 0 → Goes .bundlePartTxDone s fun t => Sys2Proof.Claims.PartGoesOut { x with part := 1 } s t ∧
    t.bus.bseq = s.bus.bseq ∧ t.bus.waiting = s.bus.waiting) ∧
  (x.part ≠ 0 → Goes .bundlePartTxDone s fun t => t.bus.bseq = (s.bus.bseq + 1) % 65536 ∧ t.bus.waiting = none ∧
    (x.bseq < 65536 → fld t F.VBS_GUID_STAT_BSEQ = x.bseq) ∧
    (command → .guidance x.bundle.curv x.bundle.steer ∈ t.sent) ∧
    (s.bus.waiting = none → t.bus.onBus = none ∧ t.bus.guidOut = [] ∧ ∀ o ∈ s.bus.guidOut, o ∈ t.sent) ∧
    ∀ b, s.bus.waiting = some b → Sys2Proof.Claims.PartGoesOut ⟨b, 0, (s.bus.bseq + 1) % 65536⟩ s t) ∧
  ∀ why,
    (s.bus.waiting = none → Goes (.canTxError why) s fun t => Sys2Proof.Claims.PartGoesOut x s t ∧ t.bus = s.bus) ∧
    ∀ b, s.bus.waiting = some b → Goes (.canTxError why) s fun t => Sys2Proof.Claims.PartGoesOut ⟨b, 0, s.bus.bseq⟩ s t ∧
      t.bus.waiting = none ∧ Counted F.VBS_GUID_STAT_ABANDON s t

/-- Heartbeats, device status and the output stage (R513, R515 to R519, R523 to R525, R530). With no bundle on the bus the stage does
nothing. -/
def Obligations.HeartbeatsStatusAndBundles : Prop :=
  ∀ s : State, running s = true → Inv s →
    Sys2Proof.Claims.Heartbeats s ∧ Sys2Proof.Claims.StatusGoesOut s ∧
    (∀ x, s.bus.onBus = some x → (rolePort s 2).isSome = true → Sys2Proof.Claims.BundlesGoOutInParts x s) ∧
    (s.bus.onBus = none ∨ rolePort s 2 = none → exec .bundlePartTxDone s = .next s ∧ ∀ why, exec (.canTxError why) s = .next s)

/-- The other device's bundles (R409, R454, R458, R521): part 0 is noted; a follower counts good ones in an unbroken row; a primary that
transmits the same frame stands down, and transmits no more. Part 1 has no effect. -/
def Sys2Proof.Claims.BundlesAreWatched (frame : FrameNo) (bytes : List Byte) (s : State) : Prop :=
  let good := field (bytes.drop 4) 22 2 % 16 ≤ 1
  let follows := s.twin.bundleSeen = true ∧ frameDist s.twin.lastBundle frame ≤ max 1 (fld s F.VBS_GUID_CFG_TX_INT)
  let clash := (s.twin.pair = .pairedA ∨ s.twin.pair = .degradedA) ∧ transmitting s frame = true
  exec (.guidanceBundleRx frame false bytes) s = .next s ∧
  Goes (.guidanceBundleRx frame true bytes) s fun t => t.twin.bundleSeen = true ∧ t.twin.lastBundle = frame ∧
    (follower s = false → t.safe = s.safe) ∧
    (follower s = true → t.safe.clean = if good then (if follows then s.safe.clean + 1 else 1) else 0) ∧
    (clash → t.twin.pair = .monitor ∧ t.twin.stoodDown = true ∧ t.bus = { s.bus with onBus := none, waiting := none, guidOut := [] } ∧
      (s.log.queue.length < 256 → Recorded t 0x94 0x0D 13 3)) ∧
    (¬clash → t.twin.pair = s.twin.pair ∧ t.bus = s.bus)

/-- Bus-off of a port (R530): recovery begins at once, but for a fourth within a second, which holds the port off until a second after
it; a recovered port has clear counters, and the ISOBUS port claims its address again (R511) while the guidance port sends its part
again. A port without a role has none of it. -/
def Sys2Proof.Claims.BusOffRecovers (port : Fin 4) (s : State) : Prop :=
  let p := port.val
  let recent := ((s.bus.boff.getD p []).filter fun n => s.time.count < n + 25000000).length
  let held := fld s (F.VBS_PORT_STAT_STATE p) = 3 ∧ fld s (F.VBS_PORT_CFG_ROLE p) ≠ 0 ∧
    (s.bus.boff.getD p []).headD 0 + 25000000 ≤ s.time.count
  (fld s (F.VBS_PORT_CFG_ROLE p) = 0 → exec (.busOff port) s = .next s) ∧
  (fld s (F.VBS_PORT_CFG_ROLE p) ≠ 0 → Goes (.busOff port) s fun t => Counted (F.VBS_PORT_STAT_BOFF_CNT p) s t ∧
    fld t (F.VBS_PORT_STAT_STATE p) = (if 3 ≤ recent then 3 else 2) ∧
    (s.log.queue.length < 256 → Recorded t 0x95 0x0F 0 (if 3 ≤ recent then 3 else 1))) ∧
  (fld s (F.VBS_PORT_STAT_STATE p) ≠ 2 → exec (.busOffRecovered port) s = .next s) ∧
  (fld s (F.VBS_PORT_STAT_STATE p) = 2 → Goes (.busOffRecovered port) s fun t => fld t (F.VBS_PORT_STAT_STATE p) = 0 ∧
    fld t (F.VBS_PORT_STAT_TEC p) = 0 ∧ fld t (F.VBS_PORT_STAT_REC p) = 0 ∧
    (s.log.queue.length < 256 → Recorded t 0x95 0x0F 1 0) ∧
    (rolePort s 1 = some p → t.bus.claimSa = prefSa s ∧ fld t F.VBS_ISO_STAT_CLAIM = 1) ∧
    (rolePort s 2 = some p → ∀ x, s.bus.onBus = some x → s.bus.waiting = none → ∃ l, t.sent = .canXl
      (fld s F.VBS_GUID_CFG_GID_BASE + (if strapB s then 2 else 0) + x.part) s.image.sdt x.bundle.frame (partBytes s x) :: l)) ∧
  (held → Goes (.busOffHoldExpiry port) s fun t => fld t (F.VBS_PORT_STAT_STATE p) = 2 ∧ t = { s with regs := t.regs }) ∧
  (¬held → exec (.busOffHoldExpiry port) s = .next s)

/-- The other device's bundles (R409, R454, R458, R521), bus-off (R511, R530), and PLCA's beacon, whose loss and return are shown and recorded
while PLCA is in use (R537). -/
def Obligations.WatchingAndBusFaults : Prop :=
  ∀ s : State, running s = true → Inv s →
    (∀ frame bytes, Sys2Proof.Claims.BundlesAreWatched frame bytes s) ∧ (∀ port, Sys2Proof.Claims.BusOffRecovers port s) ∧
    (flag s F.OCH_CFG_PLCA_EN = true →
      (Goes .plcaBeaconLost s fun t => flag t F.OCH_STAT_BEACON_LOST = true ∧ flag t F.OCH_STAT_PLCA_ACTIVE = false ∧
        (s.log.queue.length < 256 → Recorded t 0x96 0x0F 10 1)) ∧
      Goes .plcaBeaconReturned s fun t => flag t F.OCH_STAT_PLCA_ACTIVE = true ∧
        (s.log.queue.length < 256 → Recorded t 0x96 0x0F 11 0)) ∧
    (flag s F.OCH_CFG_PLCA_EN = false → exec .plcaBeaconLost s = .next s ∧ exec .plcaBeaconReturned s = .next s)

/-! ## Start, power and sleep (chapters 16 and 18) -/

/-- The device runs after a cold start (R104, R412, R432, R539, R551, R552): in the frame before frame 0, on a time base that goes on from the
count of Indigo, with SAFE_STOP_N still asserted, SOLO or forming a pair by its straps, and with every unit out of service that failed
its start-up test. -/
def Sys2Proof.Claims.StartsRunning (e : BootEnv) (s t : State) : Prop :=
  t.pwr.phase = .running ∧ t.boot.frameZero = true ∧ t.frame.started = false ∧ t.pwr.safeStop = true ∧
    t.twin.pair = (if e.twinPos0 = false ∧ e.twinPos1 = false then .solo else .forming) ∧
    t.time.count = startCount s + e.ticks ∧ (∀ x ∈ e.failTiles, tileUnit x ∈ t.cnd.outOfService) ∧
    (∀ c ∈ e.failInf, 64 + c.val ∈ t.cnd.outOfService) ∧ (∀ l ∈ e.failLanes, 72 + l.val ∈ t.cnd.outOfService) ∧
    t.sel.faulty = e.failSelect

/-- The release of power-on reset (R442, R548 to R557): it starts the device or halts it, with SAFE_STOP_N asserted, and a halt asserts FAULT_N.
Both straps set halt it, and in SCRAPPED it halts. With valid straps, every HBM channel trained and no tamper trip from sleep it works
on the image that the flashes yield, and halts without a valid one, which Indigo's log holds; it runs where every section is whole
or whole on the other flash, every model section opens, and in FIELD PROT is that of the fuses. -/
def Sys2Proof.Claims.ResetReleased (e : BootEnv) (s t : State) : Prop :=
  t.pwr.safeStop = true ∧ (t.pwr.phase = .running ∨ t.pwr.phase = .halted ∧ t.pwr.faultN = true) ∧ t.pending = s.pending ∧
  (e.twinPos0 = true ∧ e.twinPos1 = true ∨ s.fuse.lc = 4 → t.pwr.phase = .halted) ∧
  (s.ind.asleepDue = 0 → s.fuse.lc ≠ 4 → ¬(e.twinPos0 = true ∧ e.twinPos1 = true) → e.hbmChannels = BitVec.allOnes 16 →
    match bootSource e s.fuse with
    | none => t.pwr.phase = .halted ∧ (s.ind.powered = true → ∃ r ∈ t.ind.log, r.cls = 0x10 ∧ r.ev = 0 ∧ r.severity = 4)
    | some (src, other, backup) => t.image = builtImage e (src, other, backup) ∧
        ((∀ x ∈ sectionsOf src, (goodSource e.bootSel src other x).isSome = true) →
         (∀ x ∈ sectionsOf src, ∀ y, x.stype = 7 → goodSource e.bootSel src other x = some y →
           ∃ w, unwrapModel s.fuse x.encrypted (sectionBytes y x) = .inr w) →
         (s.fuse.lc = 2 → t.image.prot.val = s.fuse.prot) → Sys2Proof.Claims.StartsRunning e s t))

/-- The start (R595, R596, R618): power-good brings the device into reset with SAFE_STOP_N asserted, and its want is a warning in Indigo's
log, with PWR_EN low; the release of reset starts it. None of the three has an effect in another phase. -/
def Obligations.ColdStart : Prop :=
  ∀ s : State, Inv s →
    (s.pwr.phase = .powerOn →
      (Goes .powerGood s fun t => t = { s with pwr := { s.pwr with phase := .reset, pwrgd := true, safeStop := true } }) ∧
      Goes .pwrgdTimeout s fun t => t.pwr = { s.pwr with phase := .asleep, pwrEn := false } ∧
        (s.ind.powered = true → ∃ r ∈ t.ind.log, r.unit = 0x98 ∧ r.cls = 0x11 ∧ r.ev = 7 ∧ r.severity = 1)) ∧
    (s.pwr.phase ≠ .powerOn → exec .powerGood s = .next s ∧ exec .pwrgdTimeout s = .next s) ∧
    (s.pwr.phase = .reset → ∀ e, Goes (.porRelease e) s (Sys2Proof.Claims.ResetReleased e s)) ∧
    (s.pwr.phase ≠ .reset → ∀ e, exec (.porRelease e) s = .next s)

/-- A fault record with these values of R421 stands in Indigo's log. -/
abbrev Sys2Proof.Claims.InIndigosLog (t : State) (cls ev severity : Nat) : Prop :=
  ∃ r ∈ t.ind.log, r.cls = cls ∧ r.ev = ev ∧ r.severity = severity

/-- Power (R597 to R601): losing power-good asserts both signals and stops transmission, with a fatal record in Indigo's log; VDD_CORE out of
range is fatal and halts the device, with every lease revoked and no task left. -/
def Sys2Proof.Claims.PowerFails (s : State) : Prop :=
  (coreApplied s = true → Goes .pwrgdLost s fun t => t.pwr.safeStop = true ∧ t.pwr.faultN = true ∧ t.pwr.phase = .powerOn ∧
    t.pwr.pwrgd = false ∧ t.bus = { s.bus with onBus := none, waiting := none, guidOut := [] } ∧ t.mem = s.mem ∧
    (s.ind.powered = true → Sys2Proof.Claims.InIndigosLog t 0x11 5 4) ∧ fld t F.IND_STAT_LAST_OFF = 2) ∧
  (coreApplied s = false → exec .pwrgdLost s = .next s) ∧
  (running s = true → Goes .vcoreOutOfRange s fun t => t.pwr.safeStop = true ∧ t.pwr.faultN = true ∧ t.pwr.phase = .halted ∧
    (∀ l ∈ t.cnd.leases, l.revoking = true) ∧ t.cnd.grants = [] ∧ fld t F.IND_STAT_LAST_OFF = 5) ∧
  (running s = false → exec .vcoreOutOfRange s = .next s)

/-- The core's supply (R599, R600, R619): a target from 650 to 850 mV of the Warden core, or of JTAG in DEVELOP, is applied at the next edge;
one out of range is ignored with a warning, and one of another requester is refused. Three transactions in a row without an answer
are a warning, and fewer are not. -/
def Sys2Proof.Claims.SupplyIsSet (s : State) : Prop :=
  let may := fun (r : Requester) => r = .warden ∧ s.fuse.lc ≠ 4 ∨ r = .jtag ∧ s.fuse.lc = 1
  (∀ r, ∀ v : BitVec 16,
    (may r → 650 ≤ v.toNat → v.toNat ≤ 850 → Goes (.vcoreTargetWrite r v) s fun t =>
      t.pwr = { s.pwr with vcoreTarget := some v.toNat } ∧ fld t F.WDN_VCORE_TARGET = v.toNat ∧
        ∀ x, fld (readPower x t) F.WDN_VCORE_APPLIED = v.toNat) ∧
    (may r → v.toNat < 650 ∨ 850 < v.toNat → Goes (.vcoreTargetWrite r v) s fun t =>
      t.pwr = s.pwr ∧ SameRegsBut logAddrs s t ∧ (s.log.queue.length < 256 → Recorded t 0x90 0x11 1 1)) ∧
    (¬may r → Goes (.vcoreTargetWrite r v) s (Refused r F.WDN_VCORE_TARGET.addr s))) ∧
  (s.pwr.avsMissRun < 3 → exec .avsNoAnswer s = .next s) ∧
  (3 ≤ s.pwr.avsMissRun → Goes .avsNoAnswer s fun t => t.pwr = { s.pwr with avsMissRun := 0 } ∧
    (s.log.queue.length < 256 → Recorded t 0x90 0x11 1 1))

/-- Temperature (R615): the warnings are shown and recorded, the HBM refresh rate is doubled while the stack is hot, and a shutdown is fatal
and takes the rails away. -/
def Sys2Proof.Claims.Temperatures (s : State) : Prop :=
  (Goes .tjWarn s fun t => flag t F.WDN_THERM_STAT_TJ_FLAG = true ∧ t.pwr = s.pwr ∧
    (s.log.queue.length < 256 → Recorded t 0x90 0x11 2 1)) ∧
  (Goes .hbmWarn s fun t => flag t F.WDN_THERM_STAT_HBM_FLAG = true ∧ t.pwr = s.pwr ∧
    (s.log.queue.length < 256 → Recorded t 0x90 0x11 3 1)) ∧
  (Goes .hbmHot s fun t => flag t F.WDN_THERM_STAT_HBM_2X = true ∧
    t = { s with regs := t.regs, pwr := { s.pwr with hbm2x := true } }) ∧
  (Goes .hbmCool s fun t => flag t F.WDN_THERM_STAT_HBM_2X = false ∧
    t = { s with regs := t.regs, pwr := { s.pwr with hbm2x := false } }) ∧
  Goes .thermalShutdown s fun t => t.pwr.safeStop = true ∧ t.pwr.faultN = true ∧ t.pwr.phase = .asleep ∧ t.pwr.pwrEn = false ∧
    t.mem = s.mem ∧ fld t F.IND_STAT_LAST_OFF = 3 ∧ (s.log.queue.length < 256 → Recorded t 0x90 0x11 4 4)

/-- Sleep (R608, R619): the device sleeps, safe and with no transmission, once IGN has been low at rest for IGN_HOLD, with a note, or where the
Warden core, or JTAG in DEVELOP, asks while IGN is low; it is refused while IGN is high, and to any other requester. -/
def Sys2Proof.Claims.Sleeps (s : State) : Prop :=
  let may := fun (r : Requester) => r = .warden ∧ s.fuse.lc ≠ 4 ∨ r = .jtag ∧ s.fuse.lc = 1
  let sleeps := fun (t : State) => t.pwr.phase = .asleep ∧ t.pwr.pwrEn = false ∧ t.pwr.pwrgd = false ∧ t.pwr.safeStop = true ∧
    t.mem = s.mem ∧ fld t F.IND_STAT_LAST_OFF = 1
  (atRestNow s = true → Goes .ignHoldExpiry s fun t => sleeps t ∧ t.pwr.ign = false ∧
    t.bus = { s.bus with onBus := none, waiting := none, guidOut := [] } ∧
    (s.log.queue.length < 255 → Recorded t 0x98 0x11 6 0)) ∧
  (atRestNow s = false → exec .ignHoldExpiry s = .next s) ∧
  ∀ r, (may r → s.pwr.ign = false → Goes (.sleep r) s sleeps) ∧
    (may r → s.pwr.ign = true → Goes (.sleep r) s fun t =>
      t = { s with sent := .error r F.IND_SLEEP_CTL_SLEEP.addr none :: s.sent }) ∧
    (¬may r → Goes (.sleep r) s (Refused r F.IND_SLEEP_CTL_SLEEP.addr s))

/-- Wake and Indigo (R604, R605, R609, R619): while asleep, or before power-good, an enabled source raises PWR_EN, and the alarm only once its
count has come; a pin's level is kept in any phase. Without VBAT_AO Indigo keeps nothing and wakes nothing, and it starts anew when
VBAT_AO returns, with PWR_EN low unless the core has its supply. The Warden's adjustment gives TRIM a value that the spec does not
state. -/
def Sys2Proof.Claims.WakesAndIndigo (s : State) : Prop :=
  (∀ src,
    let wakes := (s.pwr.phase = .asleep ∨ s.pwr.phase = .powerOn) ∧ wakeEnabled s src = true ∧ wakeFalls s src = true
    (s.ind.powered = false → exec (.wake src) s = .next s) ∧
    (s.ind.powered = true → Goes (.wake src) s fun t => t.mem = s.mem ∧ (src = .ign → t.pwr.ign = true) ∧
      (src = .wakeN → t.pwr.wakeLvl = false) ∧
      (wakes → t.pwr.phase = .powerOn ∧ t.pwr.pwrEn = true ∧ maskBit t F.IND_STAT_WAKE (wakeBit src) = true) ∧
      (¬wakes → t.pwr.phase = s.pwr.phase ∧ t.pwr.pwrEn = s.pwr.pwrEn))) ∧
  (Goes .vbatLoss s fun t => t.ind.powered = false ∧ t.ind.log = [] ∧ t.ind.count = 0 ∧ t.ind.latch = false ∧ t.pwr = s.pwr ∧
    flag t F.IND_STAT_TVALID = false ∧ fld t F.IND_TRIM_TRIM = 0) ∧
  (s.ind.powered = true → exec .vbatPowerUp s = .next s) ∧
  (s.ind.powered = false → Goes .vbatPowerUp s fun t => t.ind = IndSt.initial ∧ fld t F.IND_STAT_LAST_OFF = 0 ∧
    (coreApplied s = true → t.pwr = s.pwr) ∧ (coreApplied s = false → t.pwr = { s.pwr with phase := .asleep, pwrEn := false })) ∧
  (running s = false → exec .trimAdjust s = .next s) ∧
  (running s = true → Goes .trimAdjust s fun t => SameRegsBut [F.IND_TRIM_TRIM.addr] s t ∧
    t = { s with regs := t.regs, free := s.free + 1 })

/-- Power, temperature, sleep and wake (chapter 18). -/
def Obligations.PowerTemperatureAndSleep : Prop :=
  ∀ s : State, Inv s → Sys2Proof.Claims.PowerFails s ∧ Sys2Proof.Claims.WakesAndIndigo s ∧
    (running s = true → Sys2Proof.Claims.SupplyIsSet s ∧ Sys2Proof.Claims.Temperatures s ∧ Sys2Proof.Claims.Sleeps s)

/-! ## Replay (chapter 17) -/

/-- Replay opens and closes (R586, R591, R592), by a requester that reaches the block: it opens where no condition of R586 stands against it,
with SAFE_STOP_N asserted, no transmission, no pending request and no V; a refused request shows its reason and changes nothing else.
Leaving it gives the live number back and starts a restart, and outside replay there is nothing to leave. -/
def Sys2Proof.Claims.ReplayOpens (r : Requester) (s : State) : Prop :=
  (reachesSup s r = false → Goes (.replayEnter r) s (Refused r F.SUP_REPLAY_CTL_ENTER.addr s) ∧
    Goes (.replayExit r) s (Refused r F.SUP_REPLAY_CTL_EXIT.addr s)) ∧
  (reachesSup s r = true →
    (∀ n, replayReason s = some n → Goes (.replayEnter r) s fun t => flag t F.SUP_REPLAY_STAT_REFUSED = true ∧
      fld t F.SUP_REPLAY_STAT_REASON = n ∧ SameRegsBut [F.SUP_REPLAY_STAT_REASON.addr] s t ∧ t = { s with regs := t.regs }) ∧
    (replayReason s = none → Goes (.replayEnter r) s fun t =>
      t.replay = { active := true, slot := fld s F.SUP_REPLAY_CTL_SLOT, live := s.frame.num, inFrame := false } ∧
        t.pwr.safeStop = true ∧ t.umb.v = none ∧ t.umb.holding = false ∧ t.frame.started = false ∧ t.cnd.reqs = [] ∧
        t.bus.onBus = none ∧ t.bus.waiting = none ∧ fld t F.SUP_REPLAY_STAT_STATE = 2 ∧ fld t F.SUP_REPLAY_STAT_FRAMES = 0) ∧
    (s.replay.active = false → exec (.replayExit r) s = .next s) ∧
    (s.replay.active = true → Goes (.replayExit r) s fun t => t.replay.active = false ∧ t.frame.num = s.replay.live ∧
      t.frame.started = false ∧ fld t F.SUP_REPLAY_STAT_STATE = 3 ∧
      ∃ x, t.safe.restart = some x ∧ x.phase = .halted ∧ x.trigger = .command))

/-- Replay (R586 to R592): it opens and closes; each unit begins a frame of its own number and edge tick, and its end emits the frame's bundle
where it has not gone out and gives a replay unit back, counted. A unit within a frame, the end of none, and either outside replay
have no effect. -/
def Obligations.ReplayRunsGivenFrames : Prop :=
  ∀ s : State, running s = true → Inv s →
    (∀ r, Sys2Proof.Claims.ReplayOpens r s) ∧
    (s.replay.active = true → s.replay.inFrame = false → ∀ u : List Byte, Goes (.replayUnit u) s fun t =>
      t.replay = { s.replay with inFrame := true } ∧ t.frame.num = BitVec.ofNat 32 (fieldAt 0 4 u) ∧
        t.frame.edgeTick = fieldAt 4 8 u ∧ t.frame.started = true) ∧
    (s.replay.active = true → s.replay.inFrame = true → Goes .replayFrameEnd s fun t =>
      t.replay = { s.replay with inFrame := false } ∧ Counted F.SUP_REPLAY_STAT_FRAMES s t ∧ (∃ b, .replay b ∈ t.sent) ∧
        t.frame.emissions = if s.frame.emittedFrame then s.frame.emissions else s.frame.emissions + 1) ∧
    (s.replay.active = false ∨ s.replay.inFrame = true → ∀ u, exec (.replayUnit u) s = .next s) ∧
    (s.replay.active = false ∨ s.replay.inFrame = false → exec .replayFrameEnd s = .next s)
end

