-- ==== Sys2Proof/Laws/Tab.lean ====
section
/-! SUPPORT. Laws/Tab.lean: sparse tables: a put table reads as it was put, elsewhere as before, and keeps its canonical
form. -/

set_option Elab.async false

namespace Sys2Proof.Machine

theorem tabGet_of_lt {α : Type} {d : α} {t : Tab α} {a : Nat} (h : ∀ e ∈ t, a < e.1) : tabGet d t a = d := by
  induction t with
  | nil => rfl
  | cons x t ih =>
    have hx := h x (by simp)
    have hn : a ≠ x.1 := by omega
    simp only [tabGet, if_neg hn]
    exact ih fun e he => h e (by simp [he])

/-- What a put table holds was there or was put. -/
theorem tabPut_mem {α : Type} [DecidableEq α] {d : α} {t : Tab α} {a : Nat} {v : α} {e : Nat × α}
    (h : e ∈ tabPut d t a v) : e ∈ t ∨ (e = (a, v) ∧ v ≠ d) := by
  induction t with
  | nil =>
    by_cases hv : v = d
    · simp [tabPut, hv] at h
    · simp [tabPut, hv] at h
      exact .inr ⟨h, hv⟩
  | cons x t ih =>
    obtain ⟨k, w⟩ := x
    simp only [tabPut] at h
    split at h
    · split at h
      · exact .inl h
      · rename_i hv
        rcases List.mem_cons.mp h with h | h
        · exact .inr ⟨h, hv⟩
        · exact .inl h
    · split at h
      · split at h
        · exact .inl (List.mem_cons_of_mem _ h)
        · rename_i hv
          rcases List.mem_cons.mp h with h | h
          · exact .inr ⟨h, hv⟩
          · exact .inl (List.mem_cons_of_mem _ h)
      · rcases List.mem_cons.mp h with h | h
        · exact .inl (by simp [h])
        · rcases ih h with h | h
          · exact .inl (List.mem_cons_of_mem _ h)
          · exact .inr h

/-- A put keeps the keys rising. -/
theorem tabPut_sorted {α : Type} [DecidableEq α] {d : α} {t : Tab α} {a : Nat} {v : α}
    (h : t.Pairwise (fun x y => x.1 < y.1)) : (tabPut d t a v).Pairwise (fun x y => x.1 < y.1) := by
  induction t with
  | nil =>
    by_cases hv : v = d <;> simp [tabPut, hv]
  | cons x t ih =>
    obtain ⟨k, w⟩ := x
    have hk := List.pairwise_cons.mp h
    simp only [tabPut]
    split
    · split
      · exact h
      · rename_i hlt _
        refine List.pairwise_cons.mpr ⟨fun e he => ?_, h⟩
        rcases List.mem_cons.mp he with rfl | he
        · exact hlt
        · exact Nat.lt_trans hlt (hk.1 e he)
    · split
      · rename_i heq
        split
        · exact hk.2
        · exact List.pairwise_cons.mpr ⟨fun e he => heq ▸ hk.1 e he, hk.2⟩
      · refine List.pairwise_cons.mpr ⟨fun e he => ?_, ih hk.2⟩
        rcases tabPut_mem he with he | ⟨rfl, -⟩
        · exact hk.1 e he
        · show k < a
          omega

/-- A put keeps the canonical form. -/
theorem tabPut_wf {α : Type} [DecidableEq α] {d : α} {t : Tab α} {a : Nat} {v : α} (h : Tab.wf d t) :
    Tab.wf d (tabPut d t a v) := by
  refine ⟨tabPut_sorted h.1, fun e he => ?_⟩
  rcases tabPut_mem he with he | ⟨rfl, hv⟩
  · exact h.2 e he
  · exact hv

/-- A filter keeps the canonical form. -/
theorem filter_wf {α : Type} {d : α} {t : Tab α} {p : Nat × α → Bool} (h : Tab.wf d t) : Tab.wf d (t.filter p) :=
  ⟨h.1.filter p, fun e he => h.2 e (List.mem_filter.mp he).1⟩

/-- A put table reads elsewhere as before. -/
theorem tabGet_tabPut_ne {α : Type} [DecidableEq α] {d c : α} {t : Tab α} {a b : Nat} {v : α} (h : b ≠ a) :
    tabGet c (tabPut d t a v) b = tabGet c t b := by
  induction t with
  | nil => by_cases hv : v = d <;> simp [tabPut, hv, tabGet, h]
  | cons x t ih =>
    obtain ⟨k, w⟩ := x
    simp only [tabPut]
    split
    · split
      · rfl
      · simp [tabGet, h]
    · split
      · rename_i e
        subst e
        split <;> simp [tabGet, h]
      · simp [tabGet, ih]

/-- A put table reads as it was put. -/
theorem tabGet_tabPut_same {α : Type} [DecidableEq α] {d : α} {t : Tab α} {a : Nat} {v : α}
    (h : t.Pairwise (fun x y => x.1 < y.1)) : tabGet d (tabPut d t a v) a = v := by
  induction t with
  | nil => by_cases hv : v = d <;> simp [tabPut, hv, tabGet]
  | cons x t ih =>
    obtain ⟨k, w⟩ := x
    have hk := List.pairwise_cons.mp h
    simp only [tabPut]
    split
    · rename_i hlt
      split
      · rename_i hv
        rw [hv]
        refine tabGet_of_lt fun e he => ?_
        rcases List.mem_cons.mp he with rfl | he
        · exact hlt
        · exact Nat.lt_trans hlt (hk.1 e he)
      · simp [tabGet]
    · split
      · rename_i heq
        subst heq
        split
        · rename_i hv
          rw [hv]
          exact tabGet_of_lt hk.1
        · simp [tabGet]
      · rename_i h1 h2
        simp only [tabGet, if_neg h2]
        exact ih hk.2

/-- A table keeps its order under a map that leaves the keys. -/
theorem map_sorted {α β : Type} {t : Tab α} {f : Nat × α → Nat × β} (hf : ∀ e, (f e).1 = e.1) (h : Tab.sorted t) :
    Tab.sorted (t.map f) := by
  refine List.pairwise_map.mpr (h.imp fun {a b} hab => ?_)
  rw [hf a, hf b]
  exact hab

/-- A table keeps its order when entries are left out. -/
theorem filter_sorted {α : Type} {t : Tab α} {p : Nat × α → Bool} (h : Tab.sorted t) : Tab.sorted (t.filter p) := h.filter p

end Sys2Proof.Machine
end

