-- ==== Sys2Proof/Laws/Keeps.lean ====
section
/-! SUPPORT. Laws/Keeps.lean: what the parts of the state are that a function may write, and the one shape in which the
other Laws/Keeps*.lean files say it of every function: a property of states that survives a change of the parts in the
function's list survives the function. With the property "this other part is as it was" that is the function's frame; with
an invariant it is that the function keeps it. -/

set_option Elab.async false

namespace Sys2Proof.Machine

/-- The parts of the state, some of them by what a change of them leaves alone: time keeps the count, ing, slv and sel
the numbers of streams and lanes, pwr the signal
SAFE_STOP_N and the phase, phase the signal, raise asserts it; frame keeps the
frame number, the edge, the hard stops passed and the count of bundles, stopped all of these but the hard stops, emit all but the
count; sent only grows; safe keeps the acknowledgement and
the restart, restart the acknowledgement; ind keeps the retention log and
indlog its bound; log keeps the record queue and queue its bound; wld keeps the epoch in force and epoch not; mem keeps what the memories hold beside the structures of the machine and data their
canonical form; twin keeps the pair state; regs changes by setReg; vbat is the loss of all that stands on VBAT_AO and cold a cold
start. -/
inductive Part where
  | time | count | pwr | phase | raise | stop | ind | indlog | fuse | image | regs | ing | frame | stopped | emit | num | cnd | wld | epoch | held | umb | mad | safe | restart | acked | log | queue | boot | inf | mem | data | swp | sel | slv | twin | pair | swap | sec | bus | och | replay | obs | arb | fifo | latches | sent | free | pending | vbat | cold
deriving DecidableEq, Repr

/-- A property that survives every change of a part. -/
def Part.Kept (P : State → Prop) : Part → Prop
  | .time => ∀ s x, x.count = s.time.count ∧ (s.time.shaped → x.shaped) → P s → P { s with time := x }
  | .count => ∀ s x, (s.time.shaped → x.shaped) → P s → P { s with time := x }
  | .pwr => ∀ s x, x.safeStop = s.pwr.safeStop ∧ x.phase = s.pwr.phase → P s → P { s with pwr := x }
  | .phase => ∀ s x, x.safeStop = s.pwr.safeStop → P s → P { s with pwr := x }
  | .raise => ∀ s x, x.safeStop = true → P s → P { s with pwr := x }
  | .stop => ∀ s x, P s → P { s with pwr := x }
  | .ind => ∀ s x, x.log = s.ind.log → P s → P { s with ind := x }
  | .indlog => ∀ s x, x.log.length ≤ 64 → P s → P { s with ind := x }
  | .fuse => ∀ s x, P s → P { s with fuse := x }
  | .image => ∀ s x, P s → P { s with image := x }
  | .regs => ∀ s a w, P s → P (setReg s a w)
  | .ing => ∀ s x, x.length = s.ing.length → P s → P { s with ing := x }
  | .frame => ∀ s x, (x.num, x.started, x.edgeTick, x.stopped, x.emissions) = (s.frame.num, s.frame.started, s.frame.edgeTick, s.frame.stopped, s.frame.emissions) ∧ (∀ i, s.frame.flags.getLsbD i = true → x.flags.getLsbD i = true) → P s → P { s with frame := x }
  | .stopped => ∀ s x, (x.num, x.started, x.edgeTick, x.emissions) = (s.frame.num, s.frame.started, s.frame.edgeTick, s.frame.emissions) ∧ (∀ i, s.frame.flags.getLsbD i = true → x.flags.getLsbD i = true) → P s → P { s with frame := x }
  | .emit => ∀ s x, (x.num, x.started, x.edgeTick, x.stopped) = (s.frame.num, s.frame.started, s.frame.edgeTick, s.frame.stopped) ∧ (∀ i, s.frame.flags.getLsbD i = true → x.flags.getLsbD i = true) → P s → P { s with frame := x }
  | .num => ∀ s x, P s → P { s with frame := x }
  | .cnd => ∀ s x, (s.cnd.shaped → x.shaped) → P s → P { s with cnd := x }
  | .wld => ∀ s x, (x.cur, x.boxes, x.near, x.denied) = (s.wld.cur, s.wld.boxes, s.wld.near, s.wld.denied) → P s → P { s with wld := x }
  | .epoch => ∀ s x, P s → P { s with wld := x }
  | .held => ∀ s x, P s → P { s with held := x }
  | .umb => ∀ s x, P s → P { s with umb := x }
  | .mad => ∀ s x, P s → P { s with mad := x }
  | .safe => ∀ s x, (x.acked, x.restart) = (s.safe.acked, s.safe.restart) → P s → P { s with safe := x }
  | .restart => ∀ s x, x.acked = s.safe.acked → P s → P { s with safe := x }
  | .acked => ∀ s x, P s → P { s with safe := x }
  | .log => ∀ s x, x.queue = s.log.queue → P s → P { s with log := x }
  | .queue => ∀ s x, (s.log.queue.length ≤ 256 → x.queue.length ≤ 256) → P s → P { s with log := x }
  | .boot => ∀ s x, P s → P { s with boot := x }
  | .inf => ∀ s x, P s → P { s with inf := x }
  | .mem => ∀ s x, x.cells = s.mem.cells ∧ x.synd = s.mem.synd ∧ x.blank = s.mem.blank → P s → P { s with mem := x }
  | .data => ∀ s x, (Memory.wf s.mem → Memory.wf x) → P s → P { s with mem := x }
  | .swp => ∀ s x, (Tab.sorted s.swp.tiles → Tab.sorted x.tiles) → P s → P { s with swp := x }
  | .sel => ∀ s x, (s.sel.shaped → x.shaped) → P s → P { s with sel := x }
  | .slv => ∀ s x, (s.slv.lanes.length = 4 → x.lanes.length = 4) → P s → P { s with slv := x }
  | .twin => ∀ s x, x.pair = s.twin.pair → P s → P { s with twin := x }
  | .pair => ∀ s x, P s → P { s with twin := x }
  | .swap => ∀ s x, P s → P { s with swap := x }
  | .sec => ∀ s x, P s → P { s with sec := x }
  | .bus => ∀ s x, P s → P { s with bus := x }
  | .och => ∀ s x, P s → P { s with och := x }
  | .replay => ∀ s x, P s → P { s with replay := x }
  | .obs => ∀ s x, P s → P { s with obs := x }
  | .arb => ∀ s x, P s → P { s with arb := x }
  | .fifo => ∀ s x, P s → P { s with fifo := x }
  | .latches => ∀ s x, P s → P { s with latches := x }
  | .sent => ∀ s x, (∃ l, x = l ++ s.sent) → P s → P { s with sent := x }
  | .free => ∀ s x, P s → P { s with free := x }
  | .pending => ∀ s x, P s → P { s with pending := x }
  | .vbat => ∀ s, P s → P { s with regs := s.regs.filter fun x => x.1 / 0x10000 ≠ 0xF0, ind := IndSt.initial }
  | .cold => ∀ e s, P s → P (coldState e s)

/-- A property that survives every change of the parts in a list. -/
def Keeps (W : List Part) (P : State → Prop) : Prop := ∀ p ∈ W, p.Kept P

/-- What survives more changes survives fewer. -/
theorem Keeps.mono {V W : List Part} {P : State → Prop} (C : Keeps W P) (h : ∀ p ∈ V, p ∈ W) : Keeps V P :=
  fun p hp => C p (h p hp)

/-- A property of the state that a step goes to, if it goes to one. -/
def Next (P : State → Prop) (o : Host.Outcome State Fault Refusal) : Prop := ∀ t, o = .next t → P t

theorem next_keeps {P : State → Prop} {s : State} (h : P s) : Next P (.next s) := by
  intro t e
  cases e
  exact h

theorem fault_keeps {P : State → Prop} {r : Fault} : Next P (.fault r) := by
  intro t e
  cases e

theorem next_ite {P : State → Prop} {c : Prop} [Decidable c] {a b : Host.Outcome State Fault Refusal} (ha : Next P a)
    (hb : Next P b) : Next P (if c then a else b) := by
  split
  · exact ha
  · exact hb

/-- A property of the state in an option, if there is one. -/
def Opt {α : Type} (P : α → Prop) (o : Option α) : Prop := ∀ t, o = some t → P t

theorem opt_none {α : Type} {P : α → Prop} : Opt P (none : Option α) := by
  intro t e
  cases e

theorem opt_some {α : Type} {P : α → Prop} {s : α} (h : P s) : Opt P (some s) := by
  intro t e
  cases e
  exact h

theorem opt_get {α : Type} {P : α → Prop} {s : α} (h : Opt P (some s)) : P s := h s rfl

theorem opt_ite {α : Type} {P : α → Prop} {c : Prop} [Decidable c] {a b : Option α} (ha : Opt P a) (hb : Opt P b) :
    Opt P (if c then a else b) := by
  split
  · exact ha
  · exact hb

theorem opt_map {α β : Type} {P : β → Prop} {f : α → β} {o : Option α} (h : ∀ a, P (f a)) : Opt P (o.map f) := by
  intro t e
  obtain ⟨a, -, rfl⟩ := Option.map_eq_some_iff.mp e
  exact h a

/-- A property of the state that a part of a start leaves, halted or not. -/
def SumP (P : State → Prop) : State ⊕ State → Prop
  | .inl s => P s
  | .inr s => P s

theorem sum_inl {P : State → Prop} {s : State} (h : P s) : SumP P (.inl s) := h

theorem sum_inr {P : State → Prop} {s : State} (h : P s) : SumP P (.inr s) := h

theorem sum_ite {P : State → Prop} {c : Prop} [Decidable c] {a b : State ⊕ State} (ha : SumP P a) (hb : SumP P b) :
    SumP P (if c then a else b) := by
  split
  · exact ha
  · exact hb

theorem SumP.get {P : State → Prop} {x : State ⊕ State} (h : SumP P x) : P (x.elim id id) := by
  cases x <;> exact h

theorem sum_of {P : State → Prop} {x y : State ⊕ State} (h : SumP P x) (e : x = y) : P (y.elim id id) := e ▸ h.get

theorem id_keeps {P : State → Prop} {s : State} (h : P s) : P (id s) := h

theorem comp_keeps {P : State → Prop} {f g : State → State} {s : State} (h : P (f (g s))) : P ((f ∘ g) s) := h

theorem ite_keeps {P : State → Prop} {c : Prop} [Decidable c] {a b : State} (ha : P a) (hb : P b) : P (if c then a else b) := by
  split
  · exact ha
  · exact hb

theorem foldl_keeps {α σ : Type} {P : σ → Prop} {f : σ → α → σ} (hf : ∀ s a, P s → P (f s a)) :
    ∀ (l : List α) (s : σ), P s → P (l.foldl f s)
  | [], _, h => h
  | a :: l, s, h => foldl_keeps hf l (f s a) (hf s a h)

theorem Keeps.upd_acked {W : List Part} {P : State → Prop} (C : Keeps W P) (m : ∀ p ∈ [Part.acked], p ∈ W) {s : State} {x} (h : P s) :
    P { s with safe := x } :=
  C .acked (m _ (by decide)) s x h

theorem Keeps.upd_arb {W : List Part} {P : State → Prop} (C : Keeps W P) (m : ∀ p ∈ [Part.arb], p ∈ W) {s : State} {x} (h : P s) :
    P { s with arb := x } :=
  C .arb (m _ (by decide)) s x h

theorem Keeps.upd_boot {W : List Part} {P : State → Prop} (C : Keeps W P) (m : ∀ p ∈ [Part.boot], p ∈ W) {s : State} {x} (h : P s) :
    P { s with boot := x } :=
  C .boot (m _ (by decide)) s x h

theorem Keeps.upd_boot_swap {W : List Part} {P : State → Prop} (C : Keeps W P) (m : ∀ p ∈ [Part.boot, Part.swap], p ∈ W) {s : State} {x y} (h : P s) :
    P { s with boot := x, swap := y } :=
  C .swap (m _ (by decide)) { s with boot := x } y (C .boot (m _ (by decide)) s x h)

theorem Keeps.upd_bus {W : List Part} {P : State → Prop} (C : Keeps W P) (m : ∀ p ∈ [Part.bus], p ∈ W) {s : State} {x} (h : P s) :
    P { s with bus := x } :=
  C .bus (m _ (by decide)) s x h

theorem Keeps.upd_cnd {W : List Part} {P : State → Prop} (C : Keeps W P) (m : ∀ p ∈ [Part.cnd], p ∈ W) {s : State} {x} (h : P s)
    (ex : (s.cnd.shaped → x.shaped) := by first | exact fun h => h | exact fun h => ⟨tabPut_sorted h.1, h.2⟩ | exact fun h => ⟨h.1, tabPut_sorted h.2⟩ | exact fun h => ⟨List.Pairwise.nil, h.2⟩ | exact fun _ => ⟨List.Pairwise.nil, List.Pairwise.nil⟩ | exact fun h => ⟨map_sorted (fun e => by simp +zetaDelta only []; split <;> rfl) h.1, h.2⟩) :
    P { s with cnd := x } :=
  C .cnd (m _ (by decide)) s x ex h

theorem Keeps.upd_cnd_mem {W : List Part} {P : State → Prop} (C : Keeps W P) (m : ∀ p ∈ [Part.cnd, Part.mem], p ∈ W) {s : State} {x y} (h : P s)
    (ex : (s.cnd.shaped → x.shaped) := by first | exact fun h => h | exact fun h => ⟨tabPut_sorted h.1, h.2⟩ | exact fun h => ⟨h.1, tabPut_sorted h.2⟩ | exact fun h => ⟨List.Pairwise.nil, h.2⟩ | exact fun _ => ⟨List.Pairwise.nil, List.Pairwise.nil⟩ | exact fun h => ⟨map_sorted (fun e => by simp +zetaDelta only []; split <;> rfl) h.1, h.2⟩)
    (ey : y.cells = s.mem.cells ∧ y.synd = s.mem.synd ∧ y.blank = s.mem.blank := by exact ⟨rfl, rfl, rfl⟩) :
    P { s with cnd := x, mem := y } :=
  C .mem (m _ (by decide)) { s with cnd := x } y ey (C .cnd (m _ (by decide)) s x ex h)

theorem Keeps.upd_cnd_sel {W : List Part} {P : State → Prop} (C : Keeps W P) (m : ∀ p ∈ [Part.cnd, Part.sel], p ∈ W) {s : State} {x y} (h : P s)
    (ex : (s.cnd.shaped → x.shaped) := by first | exact fun h => h | exact fun h => ⟨tabPut_sorted h.1, h.2⟩ | exact fun h => ⟨h.1, tabPut_sorted h.2⟩ | exact fun h => ⟨List.Pairwise.nil, h.2⟩ | exact fun _ => ⟨List.Pairwise.nil, List.Pairwise.nil⟩ | exact fun h => ⟨map_sorted (fun e => by simp +zetaDelta only []; split <;> rfl) h.1, h.2⟩)
    (ey : (s.sel.shaped → y.shaped) := by first | exact fun h => h | exact fun h => ⟨by simp [modAt, h.1], h.2⟩ | exact fun h => ⟨h.1, tabPut_sorted h.2.1, h.2.2⟩ | exact fun h => ⟨h.1, h.2.1, tabPut_sorted h.2.2⟩ | exact fun h => ⟨h.1, h.2.1, filter_sorted h.2.2⟩ | exact fun _ => ⟨rfl, List.Pairwise.nil, List.Pairwise.nil⟩ | exact fun h => ⟨rfl, h.2⟩ | exact fun h => ⟨h.1, map_sorted (fun e => by simp +zetaDelta only []; split <;> rfl) h.2.1, filter_sorted h.2.2⟩) :
    P { s with cnd := x, sel := y } :=
  C .sel (m _ (by decide)) { s with cnd := x } y ey (C .cnd (m _ (by decide)) s x ex h)

theorem Keeps.upd_count {W : List Part} {P : State → Prop} (C : Keeps W P) (m : ∀ p ∈ [Part.count], p ∈ W) {s : State} {x} (h : P s)
    (ex : (s.time.shaped → x.shaped) := by exact fun ⟨_, _, _, _, _, _, _⟩ => by simp +zetaDelta [TimeSt.shaped, modAt, apply_ite, *]) :
    P { s with time := x } :=
  C .count (m _ (by decide)) s x ex h

theorem Keeps.upd_data {W : List Part} {P : State → Prop} (C : Keeps W P) (m : ∀ p ∈ [Part.data], p ∈ W) {s : State} {x} (h : P s)
    (ex : (Memory.wf s.mem → Memory.wf x) := by first | exact fun h => h | exact fun k => ⟨tabPut_wf k.1, k.2⟩ | exact fun k => ⟨k.1, tabPut_wf k.2⟩ | exact fun k => ⟨filter_wf k.1, filter_wf k.2⟩ | exact fun k => ⟨filter_wf k.1, k.2⟩ | exact fun k => ⟨k.1, filter_wf k.2⟩) :
    P { s with mem := x } :=
  C .data (m _ (by decide)) s x ex h

theorem Keeps.upd_emit {W : List Part} {P : State → Prop} (C : Keeps W P) (m : ∀ p ∈ [Part.emit], p ∈ W) {s : State} {x} (h : P s)
    (ex : (x.num, x.started, x.edgeTick, x.stopped) = (s.frame.num, s.frame.started, s.frame.edgeTick, s.frame.stopped) ∧ (∀ i, s.frame.flags.getLsbD i = true → x.flags.getLsbD i = true) := by first | exact ⟨rfl, fun _ h => h⟩ | exact ⟨rfl, fun i h => by simp [h]⟩) :
    P { s with frame := x } :=
  C .emit (m _ (by decide)) s x ex h

theorem Keeps.upd_epoch_umb_mad {W : List Part} {P : State → Prop} (C : Keeps W P) (m : ∀ p ∈ [Part.epoch, Part.umb, Part.mad], p ∈ W) {s : State} {x y z} (h : P s) :
    P { s with wld := x, umb := y, mad := z } :=
  C .mad (m _ (by decide)) { s with wld := x, umb := y } z (C .umb (m _ (by decide)) { s with wld := x } y (C .epoch (m _ (by decide)) s x h))

theorem Keeps.upd_fifo {W : List Part} {P : State → Prop} (C : Keeps W P) (m : ∀ p ∈ [Part.fifo], p ∈ W) {s : State} {x} (h : P s) :
    P { s with fifo := x } :=
  C .fifo (m _ (by decide)) s x h

theorem Keeps.upd_frame {W : List Part} {P : State → Prop} (C : Keeps W P) (m : ∀ p ∈ [Part.frame], p ∈ W) {s : State} {x} (h : P s)
    (ex : (x.num, x.started, x.edgeTick, x.stopped, x.emissions) = (s.frame.num, s.frame.started, s.frame.edgeTick, s.frame.stopped, s.frame.emissions) ∧ (∀ i, s.frame.flags.getLsbD i = true → x.flags.getLsbD i = true) := by first | exact ⟨rfl, fun _ h => h⟩ | exact ⟨rfl, fun i h => by simp [h]⟩) :
    P { s with frame := x } :=
  C .frame (m _ (by decide)) s x ex h

theorem Keeps.upd_frame_cnd_safe {W : List Part} {P : State → Prop} (C : Keeps W P) (m : ∀ p ∈ [Part.frame, Part.cnd, Part.safe], p ∈ W) {s : State} {x y z} (h : P s)
    (ex : (x.num, x.started, x.edgeTick, x.stopped, x.emissions) = (s.frame.num, s.frame.started, s.frame.edgeTick, s.frame.stopped, s.frame.emissions) ∧ (∀ i, s.frame.flags.getLsbD i = true → x.flags.getLsbD i = true) := by first | exact ⟨rfl, fun _ h => h⟩ | exact ⟨rfl, fun i h => by simp [h]⟩)
    (ey : (s.cnd.shaped → y.shaped) := by first | exact fun h => h | exact fun h => ⟨tabPut_sorted h.1, h.2⟩ | exact fun h => ⟨h.1, tabPut_sorted h.2⟩ | exact fun h => ⟨List.Pairwise.nil, h.2⟩ | exact fun _ => ⟨List.Pairwise.nil, List.Pairwise.nil⟩ | exact fun h => ⟨map_sorted (fun e => by simp +zetaDelta only []; split <;> rfl) h.1, h.2⟩)
    (ez : (z.acked, z.restart) = (s.safe.acked, s.safe.restart) := by rfl) :
    P { s with frame := x, cnd := y, safe := z } :=
  C .safe (m _ (by decide)) { s with frame := x, cnd := y } z ez (C .cnd (m _ (by decide)) { s with frame := x } y ey (C .frame (m _ (by decide)) s x ex h))

theorem Keeps.upd_frame_mad {W : List Part} {P : State → Prop} (C : Keeps W P) (m : ∀ p ∈ [Part.frame, Part.mad], p ∈ W) {s : State} {x y} (h : P s)
    (ex : (x.num, x.started, x.edgeTick, x.stopped, x.emissions) = (s.frame.num, s.frame.started, s.frame.edgeTick, s.frame.stopped, s.frame.emissions) ∧ (∀ i, s.frame.flags.getLsbD i = true → x.flags.getLsbD i = true) := by first | exact ⟨rfl, fun _ h => h⟩ | exact ⟨rfl, fun i h => by simp [h]⟩) :
    P { s with frame := x, mad := y } :=
  C .mad (m _ (by decide)) { s with frame := x } y (C .frame (m _ (by decide)) s x ex h)

theorem Keeps.upd_free {W : List Part} {P : State → Prop} (C : Keeps W P) (m : ∀ p ∈ [Part.free], p ∈ W) {s : State} {x} (h : P s) :
    P { s with free := x } :=
  C .free (m _ (by decide)) s x h

theorem Keeps.upd_fuse {W : List Part} {P : State → Prop} (C : Keeps W P) (m : ∀ p ∈ [Part.fuse], p ∈ W) {s : State} {x} (h : P s) :
    P { s with fuse := x } :=
  C .fuse (m _ (by decide)) s x h

theorem Keeps.upd_held {W : List Part} {P : State → Prop} (C : Keeps W P) (m : ∀ p ∈ [Part.held], p ∈ W) {s : State} {x} (h : P s) :
    P { s with held := x } :=
  C .held (m _ (by decide)) s x h

theorem Keeps.upd_ind {W : List Part} {P : State → Prop} (C : Keeps W P) (m : ∀ p ∈ [Part.ind], p ∈ W) {s : State} {x} (h : P s)
    (ex : x.log = s.ind.log := by rfl) :
    P { s with ind := x } :=
  C .ind (m _ (by decide)) s x ex h

theorem Keeps.upd_ind_sec {W : List Part} {P : State → Prop} (C : Keeps W P) (m : ∀ p ∈ [Part.ind, Part.sec], p ∈ W) {s : State} {x y} (h : P s)
    (ex : x.log = s.ind.log := by rfl) :
    P { s with ind := x, sec := y } :=
  C .sec (m _ (by decide)) { s with ind := x } y (C .ind (m _ (by decide)) s x ex h)

theorem Keeps.upd_indlog {W : List Part} {P : State → Prop} (C : Keeps W P) (m : ∀ p ∈ [Part.indlog], p ∈ W) {s : State} {x} (h : P s)
    (ex : x.log.length ≤ 64) :
    P { s with ind := x } :=
  C .indlog (m _ (by decide)) s x ex h

theorem Keeps.upd_inf {W : List Part} {P : State → Prop} (C : Keeps W P) (m : ∀ p ∈ [Part.inf], p ∈ W) {s : State} {x} (h : P s) :
    P { s with inf := x } :=
  C .inf (m _ (by decide)) s x h

theorem Keeps.upd_ing {W : List Part} {P : State → Prop} (C : Keeps W P) (m : ∀ p ∈ [Part.ing], p ∈ W) {s : State} {x} (h : P s)
    (ex : x.length = s.ing.length := by first | (simp +zetaDelta [modAt, SlvSt.initial, SelSt.initial]; done) | exact fun h => foldl_keeps (P := fun (l : List LaneSt) => l.length = 4) (fun l x hl => by simp +zetaDelta [modAt, hl]) _ _ h) :
    P { s with ing := x } :=
  C .ing (m _ (by decide)) s x ex h

theorem Keeps.upd_ing_cnd_epoch_inf_mem_swp_sel_slv {W : List Part} {P : State → Prop} (C : Keeps W P) (m : ∀ p ∈ [Part.ing, Part.cnd, Part.epoch, Part.inf, Part.mem, Part.swp, Part.sel, Part.slv], p ∈ W) {s : State} {x y z u v w a b} (h : P s)
    (ex : x.length = s.ing.length := by first | (simp +zetaDelta [modAt, SlvSt.initial, SelSt.initial]; done) | exact fun h => foldl_keeps (P := fun (l : List LaneSt) => l.length = 4) (fun l x hl => by simp +zetaDelta [modAt, hl]) _ _ h)
    (ey : (s.cnd.shaped → y.shaped) := by first | exact fun h => h | exact fun h => ⟨tabPut_sorted h.1, h.2⟩ | exact fun h => ⟨h.1, tabPut_sorted h.2⟩ | exact fun h => ⟨List.Pairwise.nil, h.2⟩ | exact fun _ => ⟨List.Pairwise.nil, List.Pairwise.nil⟩ | exact fun h => ⟨map_sorted (fun e => by simp +zetaDelta only []; split <;> rfl) h.1, h.2⟩)
    (ev : v.cells = s.mem.cells ∧ v.synd = s.mem.synd ∧ v.blank = s.mem.blank := by exact ⟨rfl, rfl, rfl⟩)
    (ew : (Tab.sorted s.swp.tiles → Tab.sorted w.tiles) := by first | exact fun h => h | exact fun h => tabPut_sorted h | exact fun _ => List.Pairwise.nil | exact fun h => filter_sorted (map_sorted (fun _ => rfl) h) | exact fun h => by split <;> exact h)
    (ea : (s.sel.shaped → a.shaped) := by first | exact fun h => h | exact fun h => ⟨by simp [modAt, h.1], h.2⟩ | exact fun h => ⟨h.1, tabPut_sorted h.2.1, h.2.2⟩ | exact fun h => ⟨h.1, h.2.1, tabPut_sorted h.2.2⟩ | exact fun h => ⟨h.1, h.2.1, filter_sorted h.2.2⟩ | exact fun _ => ⟨rfl, List.Pairwise.nil, List.Pairwise.nil⟩ | exact fun h => ⟨rfl, h.2⟩ | exact fun h => ⟨h.1, map_sorted (fun e => by simp +zetaDelta only []; split <;> rfl) h.2.1, filter_sorted h.2.2⟩)
    (eb : (s.slv.lanes.length = 4 → b.lanes.length = 4) := by first | (simp +zetaDelta [modAt, SlvSt.initial, SelSt.initial]; done) | exact fun h => foldl_keeps (P := fun (l : List LaneSt) => l.length = 4) (fun l x hl => by simp +zetaDelta [modAt, hl]) _ _ h) :
    P { s with ing := x, cnd := y, wld := z, inf := u, mem := v, swp := w, sel := a, slv := b } :=
  C .slv (m _ (by decide)) { s with ing := x, cnd := y, wld := z, inf := u, mem := v, swp := w, sel := a } b eb (C .sel (m _ (by decide)) { s with ing := x, cnd := y, wld := z, inf := u, mem := v, swp := w } a ea (C .swp (m _ (by decide)) { s with ing := x, cnd := y, wld := z, inf := u, mem := v } w ew (C .mem (m _ (by decide)) { s with ing := x, cnd := y, wld := z, inf := u } v ev (C .inf (m _ (by decide)) { s with ing := x, cnd := y, wld := z } u (C .epoch (m _ (by decide)) { s with ing := x, cnd := y } z (C .cnd (m _ (by decide)) { s with ing := x } y ey (C .ing (m _ (by decide)) s x ex h)))))))

theorem Keeps.upd_ing_epoch {W : List Part} {P : State → Prop} (C : Keeps W P) (m : ∀ p ∈ [Part.ing, Part.epoch], p ∈ W) {s : State} {x y} (h : P s)
    (ex : x.length = s.ing.length := by first | (simp +zetaDelta [modAt, SlvSt.initial, SelSt.initial]; done) | exact fun h => foldl_keeps (P := fun (l : List LaneSt) => l.length = 4) (fun l x hl => by simp +zetaDelta [modAt, hl]) _ _ h) :
    P { s with ing := x, wld := y } :=
  C .epoch (m _ (by decide)) { s with ing := x } y (C .ing (m _ (by decide)) s x ex h)

theorem Keeps.upd_ing_wld {W : List Part} {P : State → Prop} (C : Keeps W P) (m : ∀ p ∈ [Part.ing, Part.wld], p ∈ W) {s : State} {x y} (h : P s)
    (ex : x.length = s.ing.length := by first | (simp +zetaDelta [modAt, SlvSt.initial, SelSt.initial]; done) | exact fun h => foldl_keeps (P := fun (l : List LaneSt) => l.length = 4) (fun l x hl => by simp +zetaDelta [modAt, hl]) _ _ h)
    (ey : (y.cur, y.boxes, y.near, y.denied) = (s.wld.cur, s.wld.boxes, s.wld.near, s.wld.denied) := by rfl) :
    P { s with ing := x, wld := y } :=
  C .wld (m _ (by decide)) { s with ing := x } y ey (C .ing (m _ (by decide)) s x ex h)

theorem Keeps.upd_latches {W : List Part} {P : State → Prop} (C : Keeps W P) (m : ∀ p ∈ [Part.latches], p ∈ W) {s : State} {x} (h : P s) :
    P { s with latches := x } :=
  C .latches (m _ (by decide)) s x h

theorem Keeps.upd_log {W : List Part} {P : State → Prop} (C : Keeps W P) (m : ∀ p ∈ [Part.log], p ∈ W) {s : State} {x} (h : P s)
    (ex : x.queue = s.log.queue := by rfl) :
    P { s with log := x } :=
  C .log (m _ (by decide)) s x ex h

theorem Keeps.upd_mad {W : List Part} {P : State → Prop} (C : Keeps W P) (m : ∀ p ∈ [Part.mad], p ∈ W) {s : State} {x} (h : P s) :
    P { s with mad := x } :=
  C .mad (m _ (by decide)) s x h

theorem Keeps.upd_mad_slv {W : List Part} {P : State → Prop} (C : Keeps W P) (m : ∀ p ∈ [Part.mad, Part.slv], p ∈ W) {s : State} {x y} (h : P s)
    (ey : (s.slv.lanes.length = 4 → y.lanes.length = 4) := by first | (simp +zetaDelta [modAt, SlvSt.initial, SelSt.initial]; done) | exact fun h => foldl_keeps (P := fun (l : List LaneSt) => l.length = 4) (fun l x hl => by simp +zetaDelta [modAt, hl]) _ _ h) :
    P { s with mad := x, slv := y } :=
  C .slv (m _ (by decide)) { s with mad := x } y ey (C .mad (m _ (by decide)) s x h)

theorem Keeps.upd_mem {W : List Part} {P : State → Prop} (C : Keeps W P) (m : ∀ p ∈ [Part.mem], p ∈ W) {s : State} {x} (h : P s)
    (ex : x.cells = s.mem.cells ∧ x.synd = s.mem.synd ∧ x.blank = s.mem.blank := by exact ⟨rfl, rfl, rfl⟩) :
    P { s with mem := x } :=
  C .mem (m _ (by decide)) s x ex h

theorem Keeps.upd_num {W : List Part} {P : State → Prop} (C : Keeps W P) (m : ∀ p ∈ [Part.num], p ∈ W) {s : State} {x} (h : P s) :
    P { s with frame := x } :=
  C .num (m _ (by decide)) s x h

theorem Keeps.upd_num_replay {W : List Part} {P : State → Prop} (C : Keeps W P) (m : ∀ p ∈ [Part.num, Part.replay], p ∈ W) {s : State} {x y} (h : P s) :
    P { s with frame := x, replay := y } :=
  C .replay (m _ (by decide)) { s with frame := x } y (C .num (m _ (by decide)) s x h)

theorem Keeps.upd_num_umb_replay {W : List Part} {P : State → Prop} (C : Keeps W P) (m : ∀ p ∈ [Part.num, Part.umb, Part.replay], p ∈ W) {s : State} {x y z} (h : P s) :
    P { s with frame := x, umb := y, replay := z } :=
  C .replay (m _ (by decide)) { s with frame := x, umb := y } z (C .umb (m _ (by decide)) { s with frame := x } y (C .num (m _ (by decide)) s x h))

theorem Keeps.upd_obs {W : List Part} {P : State → Prop} (C : Keeps W P) (m : ∀ p ∈ [Part.obs], p ∈ W) {s : State} {x} (h : P s) :
    P { s with obs := x } :=
  C .obs (m _ (by decide)) s x h

theorem Keeps.upd_och {W : List Part} {P : State → Prop} (C : Keeps W P) (m : ∀ p ∈ [Part.och], p ∈ W) {s : State} {x} (h : P s) :
    P { s with och := x } :=
  C .och (m _ (by decide)) s x h

theorem Keeps.upd_pair {W : List Part} {P : State → Prop} (C : Keeps W P) (m : ∀ p ∈ [Part.pair], p ∈ W) {s : State} {x} (h : P s) :
    P { s with twin := x } :=
  C .pair (m _ (by decide)) s x h

theorem Keeps.upd_pending {W : List Part} {P : State → Prop} (C : Keeps W P) (m : ∀ p ∈ [Part.pending], p ∈ W) {s : State} {x} (h : P s) :
    P { s with pending := x } :=
  C .pending (m _ (by decide)) s x h

theorem Keeps.upd_phase {W : List Part} {P : State → Prop} (C : Keeps W P) (m : ∀ p ∈ [Part.phase], p ∈ W) {s : State} {x} (h : P s)
    (ex : x.safeStop = s.pwr.safeStop := by rfl) :
    P { s with pwr := x } :=
  C .phase (m _ (by decide)) s x ex h

theorem Keeps.upd_phase_boot {W : List Part} {P : State → Prop} (C : Keeps W P) (m : ∀ p ∈ [Part.phase, Part.boot], p ∈ W) {s : State} {x y} (h : P s)
    (ex : x.safeStop = s.pwr.safeStop := by rfl) :
    P { s with pwr := x, boot := y } :=
  C .boot (m _ (by decide)) { s with pwr := x } y (C .phase (m _ (by decide)) s x ex h)

theorem Keeps.upd_pwr {W : List Part} {P : State → Prop} (C : Keeps W P) (m : ∀ p ∈ [Part.pwr], p ∈ W) {s : State} {x} (h : P s)
    (ex : x.safeStop = s.pwr.safeStop ∧ x.phase = s.pwr.phase := by exact ⟨rfl, rfl⟩) :
    P { s with pwr := x } :=
  C .pwr (m _ (by decide)) s x ex h

theorem Keeps.upd_queue {W : List Part} {P : State → Prop} (C : Keeps W P) (m : ∀ p ∈ [Part.queue], p ∈ W) {s : State} {x} (h : P s)
    (ex : (s.log.queue.length ≤ 256 → x.queue.length ≤ 256)) :
    P { s with log := x } :=
  C .queue (m _ (by decide)) s x ex h

theorem Keeps.upd_raise {W : List Part} {P : State → Prop} (C : Keeps W P) (m : ∀ p ∈ [Part.raise], p ∈ W) {s : State} {x} (h : P s)
    (ex : x.safeStop = true := by rfl) :
    P { s with pwr := x } :=
  C .raise (m _ (by decide)) s x ex h

theorem Keeps.upd_replay {W : List Part} {P : State → Prop} (C : Keeps W P) (m : ∀ p ∈ [Part.replay], p ∈ W) {s : State} {x} (h : P s) :
    P { s with replay := x } :=
  C .replay (m _ (by decide)) s x h

theorem Keeps.upd_restart {W : List Part} {P : State → Prop} (C : Keeps W P) (m : ∀ p ∈ [Part.restart], p ∈ W) {s : State} {x} (h : P s)
    (ex : x.acked = s.safe.acked := by rfl) :
    P { s with safe := x } :=
  C .restart (m _ (by decide)) s x ex h

theorem Keeps.upd_safe {W : List Part} {P : State → Prop} (C : Keeps W P) (m : ∀ p ∈ [Part.safe], p ∈ W) {s : State} {x} (h : P s)
    (ex : (x.acked, x.restart) = (s.safe.acked, s.safe.restart) := by rfl) :
    P { s with safe := x } :=
  C .safe (m _ (by decide)) s x ex h

theorem Keeps.upd_sec {W : List Part} {P : State → Prop} (C : Keeps W P) (m : ∀ p ∈ [Part.sec], p ∈ W) {s : State} {x} (h : P s) :
    P { s with sec := x } :=
  C .sec (m _ (by decide)) s x h

theorem Keeps.upd_sel {W : List Part} {P : State → Prop} (C : Keeps W P) (m : ∀ p ∈ [Part.sel], p ∈ W) {s : State} {x} (h : P s)
    (ex : (s.sel.shaped → x.shaped) := by first | exact fun h => h | exact fun h => ⟨by simp [modAt, h.1], h.2⟩ | exact fun h => ⟨h.1, tabPut_sorted h.2.1, h.2.2⟩ | exact fun h => ⟨h.1, h.2.1, tabPut_sorted h.2.2⟩ | exact fun h => ⟨h.1, h.2.1, filter_sorted h.2.2⟩ | exact fun _ => ⟨rfl, List.Pairwise.nil, List.Pairwise.nil⟩ | exact fun h => ⟨rfl, h.2⟩ | exact fun h => ⟨h.1, map_sorted (fun e => by simp +zetaDelta only []; split <;> rfl) h.2.1, filter_sorted h.2.2⟩) :
    P { s with sel := x } :=
  C .sel (m _ (by decide)) s x ex h

theorem Keeps.upd_sent {W : List Part} {P : State → Prop} (C : Keeps W P) (m : ∀ p ∈ [Part.sent], p ∈ W) {s : State} {x} (h : P s)
    (ex : (∃ l, x = l ++ s.sent) := by exact ⟨[_], rfl⟩) :
    P { s with sent := x } :=
  C .sent (m _ (by decide)) s x ex h

theorem Keeps.upd_slv {W : List Part} {P : State → Prop} (C : Keeps W P) (m : ∀ p ∈ [Part.slv], p ∈ W) {s : State} {x} (h : P s)
    (ex : (s.slv.lanes.length = 4 → x.lanes.length = 4) := by first | (simp +zetaDelta [modAt, SlvSt.initial, SelSt.initial]; done) | exact fun h => foldl_keeps (P := fun (l : List LaneSt) => l.length = 4) (fun l x hl => by simp +zetaDelta [modAt, hl]) _ _ h) :
    P { s with slv := x } :=
  C .slv (m _ (by decide)) s x ex h

theorem Keeps.upd_stop {W : List Part} {P : State → Prop} (C : Keeps W P) (m : ∀ p ∈ [Part.stop], p ∈ W) {s : State} {x} (h : P s) :
    P { s with pwr := x } :=
  C .stop (m _ (by decide)) s x h

theorem Keeps.upd_stopped {W : List Part} {P : State → Prop} (C : Keeps W P) (m : ∀ p ∈ [Part.stopped], p ∈ W) {s : State} {x} (h : P s)
    (ex : (x.num, x.started, x.edgeTick, x.emissions) = (s.frame.num, s.frame.started, s.frame.edgeTick, s.frame.emissions) ∧ (∀ i, s.frame.flags.getLsbD i = true → x.flags.getLsbD i = true) := by first | exact ⟨rfl, fun _ h => h⟩ | exact ⟨rfl, fun i h => by simp [h]⟩) :
    P { s with frame := x } :=
  C .stopped (m _ (by decide)) s x ex h

theorem Keeps.upd_swap {W : List Part} {P : State → Prop} (C : Keeps W P) (m : ∀ p ∈ [Part.swap], p ∈ W) {s : State} {x} (h : P s) :
    P { s with swap := x } :=
  C .swap (m _ (by decide)) s x h

theorem Keeps.upd_swp {W : List Part} {P : State → Prop} (C : Keeps W P) (m : ∀ p ∈ [Part.swp], p ∈ W) {s : State} {x} (h : P s)
    (ex : (Tab.sorted s.swp.tiles → Tab.sorted x.tiles) := by first | exact fun h => h | exact fun h => tabPut_sorted h | exact fun _ => List.Pairwise.nil | exact fun h => filter_sorted (map_sorted (fun _ => rfl) h) | exact fun h => by split <;> exact h) :
    P { s with swp := x } :=
  C .swp (m _ (by decide)) s x ex h

theorem Keeps.upd_swp_free {W : List Part} {P : State → Prop} (C : Keeps W P) (m : ∀ p ∈ [Part.swp, Part.free], p ∈ W) {s : State} {x y} (h : P s)
    (ex : (Tab.sorted s.swp.tiles → Tab.sorted x.tiles) := by first | exact fun h => h | exact fun h => tabPut_sorted h | exact fun _ => List.Pairwise.nil | exact fun h => filter_sorted (map_sorted (fun _ => rfl) h) | exact fun h => by split <;> exact h) :
    P { s with swp := x, free := y } :=
  C .free (m _ (by decide)) { s with swp := x } y (C .swp (m _ (by decide)) s x ex h)

theorem Keeps.upd_time {W : List Part} {P : State → Prop} (C : Keeps W P) (m : ∀ p ∈ [Part.time], p ∈ W) {s : State} {x} (h : P s)
    (ex : x.count = s.time.count ∧ (s.time.shaped → x.shaped) := by exact ⟨rfl, fun ⟨_, _, _, _, _, _, _⟩ => by simp +zetaDelta [TimeSt.shaped, modAt, apply_ite, *]⟩) :
    P { s with time := x } :=
  C .time (m _ (by decide)) s x ex h

theorem Keeps.upd_twin {W : List Part} {P : State → Prop} (C : Keeps W P) (m : ∀ p ∈ [Part.twin], p ∈ W) {s : State} {x} (h : P s)
    (ex : x.pair = s.twin.pair := by rfl) :
    P { s with twin := x } :=
  C .twin (m _ (by decide)) s x ex h

theorem Keeps.upd_twin_bus {W : List Part} {P : State → Prop} (C : Keeps W P) (m : ∀ p ∈ [Part.twin, Part.bus], p ∈ W) {s : State} {x y} (h : P s)
    (ex : x.pair = s.twin.pair := by rfl) :
    P { s with twin := x, bus := y } :=
  C .bus (m _ (by decide)) { s with twin := x } y (C .twin (m _ (by decide)) s x ex h)

theorem Keeps.upd_twin_free {W : List Part} {P : State → Prop} (C : Keeps W P) (m : ∀ p ∈ [Part.twin, Part.free], p ∈ W) {s : State} {x y} (h : P s)
    (ex : x.pair = s.twin.pair := by rfl) :
    P { s with twin := x, free := y } :=
  C .free (m _ (by decide)) { s with twin := x } y (C .twin (m _ (by decide)) s x ex h)

theorem Keeps.upd_twin_swap {W : List Part} {P : State → Prop} (C : Keeps W P) (m : ∀ p ∈ [Part.twin, Part.swap], p ∈ W) {s : State} {x y} (h : P s)
    (ex : x.pair = s.twin.pair := by rfl) :
    P { s with twin := x, swap := y } :=
  C .swap (m _ (by decide)) { s with twin := x } y (C .twin (m _ (by decide)) s x ex h)

theorem Keeps.upd_umb {W : List Part} {P : State → Prop} (C : Keeps W P) (m : ∀ p ∈ [Part.umb], p ∈ W) {s : State} {x} (h : P s) :
    P { s with umb := x } :=
  C .umb (m _ (by decide)) s x h

theorem Keeps.upd_wld {W : List Part} {P : State → Prop} (C : Keeps W P) (m : ∀ p ∈ [Part.wld], p ∈ W) {s : State} {x} (h : P s)
    (ex : (x.cur, x.boxes, x.near, x.denied) = (s.wld.cur, s.wld.boxes, s.wld.near, s.wld.denied) := by rfl) :
    P { s with wld := x } :=
  C .wld (m _ (by decide)) s x ex h

theorem Keeps.upd_wld_boot {W : List Part} {P : State → Prop} (C : Keeps W P) (m : ∀ p ∈ [Part.wld, Part.boot], p ∈ W) {s : State} {x y} (h : P s)
    (ex : (x.cur, x.boxes, x.near, x.denied) = (s.wld.cur, s.wld.boxes, s.wld.near, s.wld.denied) := by rfl) :
    P { s with wld := x, boot := y } :=
  C .boot (m _ (by decide)) { s with wld := x } y (C .wld (m _ (by decide)) s x ex h)

theorem Keeps.upd_wld_data {W : List Part} {P : State → Prop} (C : Keeps W P) (m : ∀ p ∈ [Part.wld, Part.data], p ∈ W) {s : State} {x y} (h : P s)
    (ex : (x.cur, x.boxes, x.near, x.denied) = (s.wld.cur, s.wld.boxes, s.wld.near, s.wld.denied) := by rfl)
    (ey : (Memory.wf s.mem → Memory.wf y) := by first | exact fun h => h | exact fun k => ⟨tabPut_wf k.1, k.2⟩ | exact fun k => ⟨k.1, tabPut_wf k.2⟩ | exact fun k => ⟨filter_wf k.1, filter_wf k.2⟩ | exact fun k => ⟨filter_wf k.1, k.2⟩ | exact fun k => ⟨k.1, filter_wf k.2⟩) :
    P { s with wld := x, mem := y } :=
  C .data (m _ (by decide)) { s with wld := x } y ey (C .wld (m _ (by decide)) s x ex h)

theorem Keeps.upd_wld_mad {W : List Part} {P : State → Prop} (C : Keeps W P) (m : ∀ p ∈ [Part.wld, Part.mad], p ∈ W) {s : State} {x y} (h : P s)
    (ex : (x.cur, x.boxes, x.near, x.denied) = (s.wld.cur, s.wld.boxes, s.wld.near, s.wld.denied) := by rfl) :
    P { s with wld := x, mad := y } :=
  C .mad (m _ (by decide)) { s with wld := x } y (C .wld (m _ (by decide)) s x ex h)

theorem Keeps.upd_wld_swap {W : List Part} {P : State → Prop} (C : Keeps W P) (m : ∀ p ∈ [Part.wld, Part.swap], p ∈ W) {s : State} {x y} (h : P s)
    (ex : (x.cur, x.boxes, x.near, x.denied) = (s.wld.cur, s.wld.boxes, s.wld.near, s.wld.denied) := by rfl) :
    P { s with wld := x, swap := y } :=
  C .swap (m _ (by decide)) { s with wld := x } y (C .wld (m _ (by decide)) s x ex h)

end Sys2Proof.Machine
end

