-- ==== Sys2Proof/Laws/KeepsOps.lean ====
section
/-! SUPPORT. Laws/KeepsOps.lean: which parts of the state the functions of Machine/Messages, Ops, Operands, Layout, Words, Reach,
Staged, Restart, Conductor, Requests write: for each of them, that a property which survives changes of those parts survives the function (Laws/Keeps.lean). -/

set_option Elab.async false

set_option linter.unusedVariables false

namespace Sys2Proof.Machine

theorem setReg_keeps {P : State → Prop} (C : Keeps [.regs] P) {s a w} (h : P s) : P (setReg s a w) :=
  C Part.regs (by decide) _ _ _ h

theorem setFld_keeps {P : State → Prop} (C : Keeps [.regs] P) {f_1 v_2 s_3} (hP3 : P s_3) : P (setFld f_1 v_2 s_3) := by
  unfold setFld
  refine setReg_keeps (C.mono (by decide)) ?_
  exact hP3

theorem bumpBy_keeps {P : State → Prop} (C : Keeps [.regs] P) {f_1 n_2 s_3} (hP3 : P s_3) : P (bumpBy f_1 n_2 s_3) := by
  unfold bumpBy
  refine setFld_keeps (C.mono (by decide)) ?_
  exact hP3

theorem bump_keeps {P : State → Prop} (C : Keeps [.regs] P) {f_1 s_2} (hP2 : P s_2) : P (bump f_1 s_2) := by
  unfold bump
  refine bumpBy_keeps (C.mono (by decide)) ?_
  exact hP2

theorem setFlag_keeps {P : State → Prop} (C : Keeps [.regs] P) {f_1 b_2 s_3} (hP3 : P s_3) : P (setFlag f_1 b_2 s_3) := by
  unfold setFlag
  refine setFld_keeps (C.mono (by decide)) ?_
  exact hP3

theorem setSat_keeps {P : State → Prop} (C : Keeps [.regs] P) {f_1 v_2 s_3} (hP3 : P s_3) : P (setSat f_1 v_2 s_3) := by
  unfold setSat
  refine setFld_keeps (C.mono (by decide)) ?_
  exact hP3

theorem capture_keeps {P : State → Prop} (C : Keeps [.regs] P) {valid_1 parts_2 s_3} (hP3 : P s_3) : P (capture valid_1 parts_2 s_3) := by
  unfold capture
  refine ite_keeps ?_ ?_
  · exact hP3
  · refine foldl_keeps (fun s0 x1 hS2 => ?_) _ _ ?_
    · refine setFld_keeps (C.mono (by decide)) ?_
      exact hS2
    · refine setFlag_keeps (C.mono (by decide)) ?_
      exact hP3

theorem setMaskBit_keeps {P : State → Prop} (C : Keeps [.regs] P) {f_1 i_2 b_3 s_4} (hP4 : P s_4) : P (setMaskBit f_1 i_2 b_3 s_4) := by
  unfold setMaskBit
  extract_lets -merge -useContext -underBinder +onlyGivenNames w0
  refine setFld_keeps (C.mono (by decide)) ?_
  exact hP4

theorem send_keeps {P : State → Prop} (C : Keeps [.sent] P) {o_1 s_2} (hP2 : P s_2) : P (send o_1 s_2) := by
  unfold send
  refine C.upd_sent (by decide) ?_
  exact hP2

theorem nextFree_keeps {P : State → Prop} (C : Keeps [.free] P) {s_1} (hP1 : P s_1) : P (nextFree s_1).2 := by
  unfold nextFree
  try dsimp only
  refine C.upd_free (by decide) ?_
  exact hP1

theorem addCount_keeps {P : State → Prop} (C : Keeps [.regs] P) {a_1 n_2 s_3} (hP3 : P s_3) : P (addCount a_1 n_2 s_3) := by
  unfold addCount
  extract_lets -merge -useContext -underBinder +onlyGivenNames v0
  refine setReg_keeps (C.mono (by decide)) ?_
  refine setReg_keeps (C.mono (by decide)) ?_
  exact hP3

theorem countAt_keeps {P : State → Prop} (C : Keeps [.regs] P) {sel_1 cnt_2 ev_3 n_4 s_5} (hP5 : P s_5) : P (countAt sel_1 cnt_2 ev_3 n_4 s_5) := by
  unfold countAt
  extract_lets -merge -useContext -underBinder +onlyGivenNames hit0
  refine foldl_keeps (fun s1 x2 hS3 => ?_) _ _ ?_
  · refine addCount_keeps (C.mono (by decide)) ?_
    exact hS3
  · exact hP5

theorem countSteward_keeps {P : State → Prop} (C : Keeps [.regs] P) {c_1 ev_2 n_3 s_4} (hP4 : P s_4) : P (countSteward c_1 ev_2 n_3 s_4) := by
  unfold countSteward
  refine countAt_keeps (C.mono (by decide)) ?_
  exact hP4

theorem countTile_keeps {P : State → Prop} (C : Keeps [.regs] P) {u_1 ev_2 n_3 s_4} (hP4 : P s_4) : P (countTile u_1 ev_2 n_3 s_4) := by
  unfold countTile
  refine ite_keeps ?_ ?_
  · extract_lets -merge -useContext -underBinder +onlyGivenNames o0
    refine countSteward_keeps (C.mono (by decide)) ?_
    refine countAt_keeps (C.mono (by decide)) ?_
    exact hP4
  · refine ite_keeps ?_ ?_
    · extract_lets -merge -useContext -underBinder +onlyGivenNames o1
      refine countSteward_keeps (C.mono (by decide)) ?_
      refine countAt_keeps (C.mono (by decide)) ?_
      exact hP4
    · exact hP4

theorem countDie_keeps {P : State → Prop} (C : Keeps [.regs] P) {ev_1 n_2 s_3} (hP3 : P s_3) : P (countDie ev_1 n_2 s_3) := by
  unfold countDie
  refine countAt_keeps (C.mono (by decide)) ?_
  exact hP3

theorem indigoLog_keeps {P : State → Prop} (C : Keeps [.indlog] P) {r s} (h : P s) : P (indigoLog r s) := by
  unfold indigoLog
  refine ite_keeps ?_ h
  extract_lets n
  refine C.upd_indlog (by decide) h ?_
  simp only [List.length_take]
  omega

theorem dropOldestMild_length {l t : List QueuedRec} (h : dropOldestMild l = some t) : t.length + 1 = l.length := by
  induction l generalizing t with
  | nil => simp [dropOldestMild] at h
  | cons q l ih =>
    simp only [dropOldestMild] at h
    split at h
    · cases h; simp
    · simp only [Option.map_eq_some_iff] at h
      obtain ⟨u, hu, rfl⟩ := h
      simp [← ih hu]

theorem enqueue_keeps {P : State → Prop} (C : Keeps [.regs, .queue] P) {q s} (h : P s) : P (enqueue q s) := by
  unfold enqueue
  split
  · refine C.upd_queue (by decide) h ?_
    simp only [List.length_append, List.length_singleton]
    omega
  · refine ite_keeps (bump_keeps (C.mono (by decide)) h) ?_
    split
    · rename_i t ht
      refine bump_keeps (C.mono (by decide)) (C.upd_queue (by decide) h ?_)
      have := dropOldestMild_length ht
      simp only [List.length_append, List.length_singleton]
      omega
    · exact bump_keeps (C.mono (by decide)) h

theorem report_keeps {P : State → Prop} (C : Keeps [.indlog, .regs, .log, .queue] P) {e_1 s_2} (hP2 : P s_2) : P (report e_1 s_2) := by
  unfold report
  extract_lets -merge -useContext -underBinder +onlyGivenNames r0 s11 q2 s23
  have h_s11 : P s11 := by
    unfold s11
    refine ite_keeps ?_ ?_
    · refine indigoLog_keeps (C.mono (by decide)) ?_
      exact hP2
    · exact hP2
  try clear_value s11
  have h_s23 : P s23 := by
    unfold s23
    refine enqueue_keeps (C.mono (by decide)) ?_
    exact h_s11
  try clear_value s23
  refine setFld_keeps (C.mono (by decide)) ?_
  refine C.upd_log (by decide) ?_
  exact h_s23

theorem reportIndigo_keeps {P : State → Prop} (C : Keeps [.indlog, .regs, .log] P) {e_1 s_2} (hP2 : P s_2) : P (reportIndigo e_1 s_2) := by
  unfold reportIndigo
  extract_lets -merge -useContext -underBinder +onlyGivenNames s10
  have h_s10 : P s10 := by
    unfold s10
    refine indigoLog_keeps (C.mono (by decide)) ?_
    exact hP2
  try clear_value s10
  refine setFld_keeps (C.mono (by decide)) ?_
  refine C.upd_log (by decide) ?_
  exact h_s10

theorem markDoubt_keeps {P : State → Prop} (C : Keeps [.regs, .frame] P) {b_1 s_2} (hP2 : P s_2) : P (markDoubt b_1 s_2) := by
  unfold markDoubt
  refine ite_keeps ?_ ?_
  · exact hP2
  · refine bump_keeps (C.mono (by decide)) ?_
    refine C.upd_frame (by decide) ?_
    exact hP2

theorem doubtEvent_keeps {P : State → Prop} (C : Keeps [.indlog, .regs, .frame, .log, .queue] P) {b_1 e_2 s_3} (hP3 : P s_3) : P (doubtEvent b_1 e_2 s_3) := by
  unfold doubtEvent
  refine report_keeps (C.mono (by decide)) ?_
  refine markDoubt_keeps (C.mono (by decide)) ?_
  exact hP3

theorem refuseAccess_keeps {P : State → Prop} (C : Keeps [.indlog, .regs, .log, .queue, .sent] P) {r_1 addr_2 s_3} (hP3 : P s_3) : P (refuseAccess r_1 addr_2 s_3) := by
  unfold refuseAccess
  refine send_keeps (C.mono (by decide)) ?_
  refine report_keeps (C.mono (by decide)) ?_
  exact hP3

theorem assertSafeStop_keeps {P : State → Prop} (C : Keeps [.raise, .indlog, .regs, .log, .queue] P) {s_1} (hP1 : P s_1) : P (assertSafeStop s_1) := by
  unfold assertSafeStop
  refine ite_keeps ?_ ?_
  · exact hP1
  · refine report_keeps (C.mono (by decide)) ?_
    refine setFlag_keeps (C.mono (by decide)) ?_
    refine C.upd_raise (by decide) ?_
    exact hP1

theorem assertFaultN_keeps {P : State → Prop} (C : Keeps [.pwr] P) {s_1} (hP1 : P s_1) : P (assertFaultN s_1) := by
  unfold assertFaultN
  refine C.upd_pwr (by decide) ?_
  exact hP1

theorem sendSealed_keeps {P : State → Prop} (C : Keeps [.twin, .sent] P) {chan_1 ty_2 payload_3 out_4 s_5} (hP5 : P s_5) : P (sendSealed chan_1 ty_2 payload_3 out_4 s_5) := by
  unfold sendSealed
  refine ite_keeps ?_ ?_
  · exact hP5
  · extract_lets -merge -useContext -underBinder +onlyGivenNames c0 ms1
    refine send_keeps (C.mono (by decide)) ?_
    refine C.upd_twin (by decide) ?_
    exact hP5

theorem sendWoad_keeps {P : State → Prop} (C : Keeps [.twin, .sent] P) {chan_1 m_2 s_3} (hP3 : P s_3) : P (sendWoad chan_1 m_2 s_3) := by
  unfold sendWoad
  extract_lets -merge -useContext -underBinder +onlyGivenNames p0
  split
  · refine ite_keeps ?_ ?_
    · exact hP3
    · refine send_keeps (C.mono (by decide)) ?_
      exact hP3
  · refine sendSealed_keeps (C.mono (by decide)) ?_
    exact hP3

theorem abdicate_keeps {P : State → Prop} (C : Keeps [.twin, .sent] P) {code_1 s_2} (hP2 : P s_2) : P (abdicate code_1 s_2) := by
  unfold abdicate
  refine ite_keeps ?_ ?_
  · refine sendWoad_keeps (C.mono (by decide)) ?_
    refine C.upd_twin (by decide) ?_
    exact hP2
  · exact hP2

theorem fatal_keeps {P : State → Prop} (C : Keeps [.pwr, .raise, .indlog, .regs, .log, .queue, .twin, .sent] P) {e_1 s_2} (hP2 : P s_2) : P (fatal e_1 s_2) := by
  unfold fatal
  refine abdicate_keeps (C.mono (by decide)) ?_
  refine assertSafeStop_keeps (C.mono (by decide)) ?_
  refine assertFaultN_keeps (C.mono (by decide)) ?_
  refine report_keeps (C.mono (by decide)) ?_
  exact hP2

theorem live_keeps {P : State → Prop} (C : Keeps [] P) {s_1 f_2} (hP1 : P s_1) (hP2 : ∀ z1, P z1 → P (f_2 z1)) : P (live s_1 f_2) := by
  unfold live
  refine ite_keeps ?_ ?_
  · refine hP2 _ ?_
    exact hP1
  · exact hP1

theorem fabric_keeps {P : State → Prop} (C : Keeps [] P) {s_1 f_2} (hP1 : P s_1) (hP2 : ∀ z1, P z1 → P (f_2 z1)) : P (fabric s_1 f_2) := by
  unfold fabric
  refine ite_keeps ?_ ?_
  · refine hP2 _ ?_
    exact hP1
  · exact hP1

theorem showService_keeps {P : State → Prop} (C : Keeps [.indlog, .regs, .log, .queue] P) {u_1 out_2 s_3} (hP3 : P s_3) : P (showService u_1 out_2 s_3) := by
  unfold showService
  refine ite_keeps ?_ ?_
  · refine setMaskBit_keeps (C.mono (by decide)) ?_
    refine setMaskBit_keeps (C.mono (by decide)) ?_
    refine setFld_keeps (C.mono (by decide)) ?_
    exact hP3
  · refine ite_keeps ?_ ?_
    · refine setFld_keeps (C.mono (by decide)) ?_
      exact hP3
    · refine ite_keeps ?_ ?_
      · extract_lets -merge -useContext -underBinder +onlyGivenNames t0
        have h_t0 : P t0 := by
          unfold t0
          refine setMaskBit_keeps (C.mono (by decide)) ?_
          exact hP3
        try clear_value t0
        refine ite_keeps ?_ ?_
        · exact h_t0
        · refine report_keeps (C.mono (by decide)) ?_
          exact h_t0
      · exact hP3

theorem showLeases_keeps {P : State → Prop} (C : Keeps [.regs] P) {s_1} (hP1 : P s_1) : P (showLeases s_1) := by
  unfold showLeases
  refine setFld_keeps (C.mono (by decide)) ?_
  exact hP1

theorem setNode_keeps {P : State → Prop} (C : Keeps [.cnd] P) {n_1 r_2 s_3} (hP3 : P s_3) : P (setNode n_1 r_2 s_3) := by
  unfold setNode
  refine C.upd_cnd (by decide) ?_
  exact hP3

theorem addReady_keeps {P : State → Prop} (C : Keeps [.cnd] P) {n_1 s_2} (hP2 : P s_2) : P (addReady n_1 s_2) := by
  unfold addReady
  extract_lets -merge -useContext -underBinder +onlyGivenNames r0 s11
  have h_s11 : P s11 := by
    unfold s11
    refine setNode_keeps (C.mono (by decide)) ?_
    exact hP2
  try clear_value s11
  refine ite_keeps ?_ ?_
  · exact h_s11
  · refine C.upd_cnd (by decide) ?_
    exact h_s11

theorem testReady_keeps {P : State → Prop} (C : Keeps [.cnd] P) {n_1 s_2} (hP2 : P s_2) : P (testReady n_1 s_2) := by
  unfold testReady
  split
  · exact hP2
  · extract_lets -merge -useContext -underBinder +onlyGivenNames r0
    refine ite_keeps ?_ ?_
    · refine addReady_keeps (C.mono (by decide)) ?_
      refine setNode_keeps (C.mono (by decide)) ?_
      exact hP2
    · exact hP2

theorem raiseFlags_keeps {P : State → Prop} (C : Keeps [.cnd] P) {succ_1 s_2} (hP2 : P s_2) : P (raiseFlags succ_1 s_2) := by
  unfold raiseFlags
  extract_lets -merge -useContext -underBinder +onlyGivenNames set0
  have h_set0 : ∀ s1 e3, P s1 → P (set0 s1 e3) := by
    intro s1 e3 hS2
    unfold set0
    refine setNode_keeps (C.mono (by decide)) ?_
    exact hS2
  clear_value set0
  refine foldl_keeps (fun s4 x5 hS6 => ?_) _ _ ?_
  · refine testReady_keeps (C.mono (by decide)) ?_
    exact hS6
  · refine foldl_keeps (fun s7 x8 hS9 => ?_) _ _ ?_
    · refine h_set0 _ _ ?_
      exact hS9
    · exact hP2

theorem enterItem_keeps {P : State → Prop} (C : Keeps [.cnd] P) {f_1 s_2} (hP2 : P s_2) : P (enterItem f_1 s_2) := by
  unfold enterItem
  extract_lets -merge -useContext -underBinder +onlyGivenNames fs0 it1
  refine C.upd_cnd (by decide) ?_
  exact hP2

theorem releaseOne_keeps {P : State → Prop} (C : Keeps [.indlog, .regs, .cnd, .log, .queue] P) {f_1 s_2} (hP2 : P s_2) : Opt P (releaseOne f_1 s_2) := by
  unfold releaseOne
  extract_lets -merge -useContext -underBinder +onlyGivenNames fs0
  split
  · exact opt_none
  · extract_lets -merge -useContext -underBinder +onlyGivenNames __src1 s12
    have h_s12 : P s12 := by
      unfold s12
      refine C.upd_cnd (by decide) ?_
      exact hP2
    try clear_value s12
    refine opt_ite ?_ ?_
    · refine opt_some ?_
      refine bump_keeps (C.mono (by decide)) ?_
      refine report_keeps (C.mono (by decide)) ?_
      exact h_s12
    · refine opt_some ?_
      refine raiseFlags_keeps (C.mono (by decide)) ?_
      exact h_s12

theorem releaseItems_keeps {P : State → Prop} (C : Keeps [.indlog, .regs, .cnd, .log, .queue] P) {f n s} (h : P s) : P (releaseItems f n s) := by
  induction n generalizing s with
  | zero => exact h
  | succ n ih =>
    unfold releaseItems
    split
    · exact h
    · rename_i t e
      exact ih (releaseOne_keeps (C.mono (by decide)) h _ e)

theorem loseItem_keeps {P : State → Prop} (C : Keeps [.indlog, .regs, .cnd, .log, .queue] P) {u_1 s_2} (hP2 : P s_2) : P (loseItem u_1 s_2) := by
  unfold loseItem
  split
  · exact hP2
  · split
    · exact hP2
    · extract_lets -merge -useContext -underBinder +onlyGivenNames lose0 again1 __src2 s13
      have h_s13 : P s13 := by
        unfold s13
        refine C.upd_cnd (by decide) ?_
        exact hP2
      try clear_value s13
      refine ite_keeps ?_ ?_
      · refine addReady_keeps (C.mono (by decide)) ?_
        exact h_s13
      · refine releaseItems_keeps (C.mono (by decide)) ?_
        exact h_s13

theorem writeCompl_keeps {P : State → Prop} (C : Keeps [.regs, .sent] P) {c_1 s_2} (hP2 : P s_2) : P (writeCompl c_1 s_2) := by
  unfold writeCompl
  extract_lets -merge -useContext -underBinder +onlyGivenNames h0
  refine send_keeps (C.mono (by decide)) ?_
  refine send_keeps (C.mono (by decide)) ?_
  refine setFld_keeps (C.mono (by decide)) ?_
  exact hP2

theorem complete_keeps {P : State → Prop} (C : Keeps [.regs, .sec, .sent] P) {c_1 s_2} (hP2 : P s_2) : P (complete c_1 s_2) := by
  unfold complete
  refine ite_keeps ?_ ?_
  · refine writeCompl_keeps (C.mono (by decide)) ?_
    exact hP2
  · refine C.upd_sec (by decide) ?_
    exact hP2

theorem completeBad_keeps {P : State → Prop} (C : Keeps [.regs, .sec, .sent, .free] P) {index_1 status_2 slot_3 s_4} (hP4 : P s_4) : P (completeBad index_1 status_2 slot_3 s_4) := by
  unfold completeBad
  extract_lets -merge -useContext -underBinder +onlyGivenNames n0 m1
  have h_n0 : P n0.2 := by
    unfold n0
    refine nextFree_keeps (C.mono (by decide)) ?_
    exact hP4
  try clear_value n0
  have h_m1 : P m1.2 := by
    unfold m1
    refine nextFree_keeps (C.mono (by decide)) ?_
    exact h_n0
  try clear_value m1
  refine complete_keeps (C.mono (by decide)) ?_
  exact h_m1

theorem closeSlot_keeps {P : State → Prop} (C : Keeps [.indlog, .regs, .log, .queue, .sec, .sent, .free] P) {slot_1 cause_2 s_3} (hP3 : P s_3) : P (closeSlot slot_1 cause_2 s_3) := by
  unfold closeSlot
  refine ite_keeps ?_ ?_
  · exact hP3
  · extract_lets -merge -useContext -underBinder +onlyGivenNames gone0 __src1 s12 s23
    have h_s12 : P s12 := by
      unfold s12
      refine C.upd_sec (by decide) ?_
      exact hP3
    try clear_value s12
    have h_s23 : P s23 := by
      unfold s23
      refine foldl_keeps (fun s4 x5 hS6 => ?_) _ _ ?_
      · refine completeBad_keeps (C.mono (by decide)) ?_
        exact hS6
      · exact h_s12
    try clear_value s23
    refine capture_keeps (C.mono (by decide)) ?_
    refine bump_keeps (C.mono (by decide)) ?_
    refine report_keeps (C.mono (by decide)) ?_
    exact h_s23

theorem setSlot_keeps {P : State → Prop} (C : Keeps [.sec] P) {k_1 s_2} (hP2 : P s_2) : P (setSlot k_1 s_2) := by
  unfold setSlot
  refine C.upd_sec (by decide) ?_
  exact hP2

theorem deliverMsg_keeps {P : State → Prop} (C : Keeps [.indlog, .regs, .log, .queue, .sec, .sent, .free] P) {m_1 d_2 k_3 s_4} (hP4 : P s_4) : P (deliverMsg m_1 d_2 k_3 s_4) := by
  unfold deliverMsg
  extract_lets -merge -useContext -underBinder +onlyGivenNames n0 more1 ctr2 rest3 __src4 s15 s26 s37
  have h_s15 : P s15 := by
    unfold s15
    refine setSlot_keeps (C.mono (by decide)) ?_
    refine C.upd_sec (by decide) ?_
    exact hP4
  try clear_value s15
  have h_s26 : P s26 := by
    unfold s26
    refine complete_keeps (C.mono (by decide)) ?_
    refine send_keeps (C.mono (by decide)) ?_
    exact h_s15
  try clear_value s26
  have h_s37 : P s37 := by
    unfold s37
    split
    · refine ite_keeps ?_ ?_
      · exact h_s26
      · refine send_keeps (C.mono (by decide)) ?_
        exact h_s26
    · exact h_s26
  try clear_value s37
  refine ite_keeps ?_ ?_
  · refine closeSlot_keeps (C.mono (by decide)) ?_
    exact h_s37
  · exact h_s37

theorem pumpOne_keeps {P : State → Prop} (C : Keeps [.indlog, .regs, .log, .queue, .sec, .sent, .free] P) {s_1} (hP1 : P s_1) : P (pumpOne s_1) := by
  unfold pumpOne
  split
  · exact hP1
  · split
    · refine deliverMsg_keeps (C.mono (by decide)) ?_
      exact hP1
    · exact hP1

theorem pump_keeps {P : State → Prop} (C : Keeps [.indlog, .regs, .log, .queue, .sec, .sent, .free] P) {s_1} (hP1 : P s_1) : P (pump s_1) := by
  unfold pump
  refine foldl_keeps (fun s0 x1 hS2 => ?_) _ _ ?_
  · refine pumpOne_keeps (C.mono (by decide)) ?_
    exact hS2
  · exact hP1

theorem sendUnit_keeps {P : State → Prop} (C : Keeps [.indlog, .regs, .log, .queue, .sec, .sent, .free] P) {slot_1 a_2 bytes_3 s_4} (hP4 : P s_4) : P (sendUnit slot_1 a_2 bytes_3 s_4) := by
  unfold sendUnit
  refine pump_keeps (C.mono (by decide)) ?_
  refine C.upd_sec (by decide) ?_
  exact hP4

theorem sendGuidance_keeps {P : State → Prop} (C : Keeps [.bus, .sent] P) {o_1 s_2} (hP2 : P s_2) : P (sendGuidance o_1 s_2) := by
  unfold sendGuidance
  refine ite_keeps ?_ ?_
  · refine C.upd_bus (by decide) ?_
    exact hP2
  · refine send_keeps (C.mono (by decide)) ?_
    exact hP2

theorem sendAnswer_keeps {P : State → Prop} (C : Keeps [.indlog, .regs, .log, .queue, .sec, .bus, .sent, .free] P) {a_1 s_2} (hP2 : P s_2) : P (sendAnswer a_1 s_2) := by
  unfold sendAnswer
  split
  · refine sendUnit_keeps (C.mono (by decide)) ?_
    exact hP2
  · refine sendGuidance_keeps (C.mono (by decide)) ?_
    exact hP2
  · refine send_keeps (C.mono (by decide)) ?_
    exact hP2

theorem beginWipe_keeps {P : State → Prop} (C : Keeps [.regs, .mem] P) {r_1 s_2} (hP2 : P s_2) : P (beginWipe r_1 s_2) := by
  unfold beginWipe
  refine ite_keeps ?_ ?_
  · exact hP2
  · refine setFlag_keeps (C.mono (by decide)) ?_
    refine C.upd_mem (by decide) ?_
    exact hP2

theorem showOp_keeps {P : State → Prop} (C : Keeps [.regs] P) {ctx_1 s_2} (hP2 : P s_2) : P (showOp ctx_1 s_2) := by
  unfold showOp
  extract_lets -merge -useContext -underBinder +onlyGivenNames put0
  have h_put0 : ∀ st1 op2 ab3 cl4 un5 s6, P s6 → P (put0 st1 op2 ab3 cl4 un5 s6) := by
    intro st1 op2 ab3 cl4 un5 s6 hS7
    unfold put0
    refine setFld_keeps (C.mono (by decide)) ?_
    refine setFld_keeps (C.mono (by decide)) ?_
    refine setFld_keeps (C.mono (by decide)) ?_
    refine setFld_keeps (C.mono (by decide)) ?_
    refine setFld_keeps (C.mono (by decide)) ?_
    exact hS7
  clear_value put0
  split
  · refine h_put0 _ _ _ _ _ _ ?_
    exact hP2
  · refine h_put0 _ _ _ _ _ _ ?_
    exact hP2

theorem setOp_keeps {P : State → Prop} (C : Keeps [.regs, .cnd] P) {o_1 s_2} (hP2 : P s_2) : P (setOp o_1 s_2) := by
  unfold setOp
  extract_lets -merge -useContext -underBinder +onlyGivenNames put0 ops1
  refine showOp_keeps (C.mono (by decide)) ?_
  refine C.upd_cnd (by decide) ?_
  exact hP2

theorem abandonUnit_keeps {P : State → Prop} (C : Keeps [.indlog, .regs, .cnd, .log, .queue, .mem, .sec, .bus, .sent, .free] P) {o_1 s_2} (hP2 : P s_2) : P (abandonUnit o_1 s_2) := by
  unfold abandonUnit
  extract_lets -merge -useContext -underBinder +onlyGivenNames __src0 s11 n2
  have h_s11 : P s11 := by
    unfold s11
    refine beginWipe_keeps (C.mono (by decide)) ?_
    refine report_keeps (C.mono (by decide)) ?_
    exact hP2
  try clear_value s11
  refine ite_keeps ?_ ?_
  · extract_lets -merge -useContext -underBinder +onlyGivenNames o'3 s24
    have h_s24 : P s24 := by
      unfold s24
      refine setOp_keeps (C.mono (by decide)) ?_
      exact h_s11
    try clear_value s24
    refine sendAnswer_keeps (C.mono (by decide)) ?_
    refine showLeases_keeps (C.mono (by decide)) ?_
    refine C.upd_cnd (by decide) ?_
    exact h_s24
  · refine setOp_keeps (C.mono (by decide)) ?_
    exact h_s11

theorem abandonOn_keeps {P : State → Prop} (C : Keeps [.indlog, .regs, .cnd, .log, .queue, .mem, .sec, .bus, .sent, .free] P) {u_1 s_2} (hP2 : P s_2) : P (abandonOn u_1 s_2) := by
  unfold abandonOn
  split
  · refine abandonUnit_keeps (C.mono (by decide)) ?_
    exact hP2
  · exact hP2

theorem showSegs_keeps {P : State → Prop} (C : Keeps [.regs] P) {s_1} (hP1 : P s_1) : P (showSegs s_1) := by
  unfold showSegs
  refine setFld_keeps (C.mono (by decide)) ?_
  refine setFld_keeps (C.mono (by decide)) ?_
  exact hP1

theorem noteRevoked_keeps {P : State → Prop} (C : Keeps [.cnd] P) {cls_1 res_2 holder_3 s_4} (hP4 : P s_4) : P (noteRevoked cls_1 res_2 holder_3 s_4) := by
  unfold noteRevoked
  refine C.upd_cnd (by decide) ?_
  exact hP4

theorem loseMessage_keeps {P : State → Prop} (C : Keeps [.cnd, .sent] P) {l_1 s_2} (hP2 : P s_2) : P (loseMessage l_1 s_2) := by
  unfold loseMessage
  refine ite_keeps ?_ ?_
  · refine send_keeps (C.mono (by decide)) ?_
    refine C.upd_cnd (by decide) ?_
    exact hP2
  · exact hP2

theorem revokeOne_keeps {P : State → Prop} (C : Keeps [.indlog, .regs, .cnd, .log, .queue, .mem, .sec, .bus, .sent, .free] P) {warden_1 l_2 s_3} (hP3 : P s_3) : P (revokeOne warden_1 l_2 s_3) := by
  unfold revokeOne
  extract_lets -merge -useContext -underBinder +onlyGivenNames s10 s21 s32 same3 s44 s55 __src6 s67
  have h_s10 : P s10 := by
    unfold s10
    refine report_keeps (C.mono (by decide)) ?_
    exact hP3
  try clear_value s10
  have h_s21 : P s21 := by
    unfold s21
    refine capture_keeps (C.mono (by decide)) ?_
    refine bump_keeps (C.mono (by decide)) ?_
    exact h_s10
  try clear_value s21
  have h_s32 : P s32 := by
    unfold s32
    refine countDie_keeps (C.mono (by decide)) ?_
    refine ite_keeps ?_ ?_
    · refine bump_keeps (C.mono (by decide)) ?_
      exact h_s21
    · exact h_s21
  try clear_value s32
  have h_s44 : P s44 := by
    unfold s44
    refine loseMessage_keeps (C.mono (by decide)) ?_
    refine abandonOn_keeps (C.mono (by decide)) ?_
    refine loseItem_keeps (C.mono (by decide)) ?_
    exact h_s32
  try clear_value s44
  have h_s55 : P s55 := by
    unfold s55
    refine ite_keeps ?_ ?_
    · refine send_keeps (C.mono (by decide)) ?_
      exact h_s44
    · exact h_s44
  try clear_value s55
  have h_s67 : P s67 := by
    unfold s67
    refine noteRevoked_keeps (C.mono (by decide)) ?_
    refine C.upd_cnd (by decide) ?_
    exact h_s55
  try clear_value s67
  refine showSegs_keeps (C.mono (by decide)) ?_
  refine showLeases_keeps (C.mono (by decide)) ?_
  refine ite_keeps ?_ ?_
  · refine beginWipe_keeps (C.mono (by decide)) ?_
    exact h_s67
  · exact h_s67

theorem revokeWhere_keeps {P : State → Prop} (C : Keeps [.indlog, .regs, .cnd, .log, .queue, .mem, .sec, .bus, .sent, .free] P) {warden_1 p_2 s_3} (hP3 : P s_3) : P (revokeWhere warden_1 p_2 s_3) := by
  unfold revokeWhere
  refine foldl_keeps (fun s0 x1 hS2 => ?_) _ _ ?_
  · refine revokeOne_keeps (C.mono (by decide)) ?_
    exact hS2
  · exact hP3

theorem dropTask_keeps {P : State → Prop} (C : Keeps [.cnd] P) {u_1 s_2} (hP2 : P s_2) : P (dropTask u_1 s_2) := by
  unfold dropTask
  refine C.upd_cnd (by decide) ?_
  exact hP2

theorem clearAffinity_keeps {P : State → Prop} (C : Keeps [.cnd] P) {u_1 s_2} (hP2 : P s_2) : P (clearAffinity u_1 s_2) := by
  unfold clearAffinity
  extract_lets -merge -useContext -underBinder +onlyGivenNames forget0
  refine C.upd_cnd (by decide) ?_
  exact hP2

theorem refreshResident_keeps {P : State → Prop} (C : Keeps [.slv] P) {s_1} (hP1 : P s_1) : P (refreshResident s_1) := by
  unfold refreshResident
  refine C.upd_slv (by decide) ?_
  exact hP1

theorem addRg_keeps {P : State → Prop} (C : Keeps [.inf] P) {crit_1 d_2 n_3 s_4} (hP4 : P s_4) : P (addRg crit_1 d_2 n_3 s_4) := by
  unfold addRg
  extract_lets -merge -useContext -underBinder +onlyGivenNames add0
  refine ite_keeps ?_ ?_
  · refine C.upd_inf (by decide) ?_
    exact hP4
  · refine C.upd_inf (by decide) ?_
    exact hP4

theorem returnBlock_keeps {P : State → Prop} (C : Keeps [.cnd, .swp, .sent] P) {u_1 s_2} (hP2 : P s_2) : P (returnBlock u_1 s_2) := by
  unfold returnBlock
  split
  · exact hP2
  · extract_lets -merge -useContext -underBinder +onlyGivenNames b0 give1 __src2 __src3 s14
    have h_s14 : P s14 := by
      unfold s14
      refine send_keeps (C.mono (by decide)) ?_
      refine C.upd_swp (by decide) ?_
      exact hP2
    try clear_value s14
    refine ite_keeps ?_ ?_
    · exact h_s14
    · refine addReady_keeps (C.mono (by decide)) ?_
      exact h_s14

theorem slotLost_keeps {P : State → Prop} (C : Keeps [.indlog, .regs, .log, .queue] P) {u_1 s_2} (hP2 : P s_2) : P (slotLost u_1 s_2) := by
  unfold slotLost
  refine ite_keeps ?_ ?_
  · refine report_keeps (C.mono (by decide)) ?_
    exact hP2
  · exact hP2

theorem takeOut_keeps {P : State → Prop} (C : Keeps [.indlog, .regs, .frame, .cnd, .safe, .log, .queue, .mem, .swp, .sec, .bus, .sent, .free] P) {warden_1 u_2 s_3} (hP3 : P s_3) : P (takeOut warden_1 u_2 s_3) := by
  unfold takeOut
  extract_lets -merge -useContext -underBinder +onlyGivenNames s10 s21 s32 __src3 __src4 __src5 s46
  have h_s10 : P s10 := by
    unfold s10
    refine abandonOn_keeps (C.mono (by decide)) ?_
    refine loseItem_keeps (C.mono (by decide)) ?_
    refine returnBlock_keeps (C.mono (by decide)) ?_
    exact hP3
  try clear_value s10
  have h_s21 : P s21 := by
    unfold s21
    refine revokeWhere_keeps (C.mono (by decide)) ?_
    exact h_s10
  try clear_value s21
  have h_s32 : P s32 := by
    unfold s32
    refine clearAffinity_keeps (C.mono (by decide)) ?_
    refine dropTask_keeps (C.mono (by decide)) ?_
    exact h_s21
  try clear_value s32
  have h_s46 : P s46 := by
    unfold s46
    refine C.upd_frame_cnd_safe (by decide) ?_
    exact h_s32
  try clear_value s46
  refine showService_keeps (C.mono (by decide)) ?_
  exact h_s46

theorem kermesDue_keeps {P : State → Prop} (C : Keeps [.safe] P) {k_1 s_2} (hP2 : P s_2) : P (kermesDue k_1 s_2) := by
  unfold kermesDue
  refine ite_keeps ?_ ?_
  · exact hP2
  · refine C.upd_safe (by decide) ?_
    exact hP2

theorem testQuarantine_keeps {P : State → Prop} (C : Keeps [.indlog, .regs, .frame, .cnd, .safe, .log, .queue, .mem, .swp, .sec, .bus, .sent, .free] P) {u_1 s_2} (hP2 : P s_2) : P (testQuarantine u_1 s_2) := by
  unfold testQuarantine
  refine ite_keeps ?_ ?_
  · refine kermesDue_keeps (C.mono (by decide)) ?_
    exact hP2
  · refine ite_keeps ?_ ?_
    · refine ite_keeps ?_ ?_
      · exact hP2
      · refine report_keeps (C.mono (by decide)) ?_
        refine C.upd_safe (by decide) ?_
        exact hP2
    · refine kermesDue_keeps (C.mono (by decide)) ?_
      refine takeOut_keeps (C.mono (by decide)) ?_
      exact hP2

theorem putByte_keeps {P : State → Prop} (C : Keeps [.data] P) {s a b} (h : P s) : P (putByte s a b) :=
  C.upd_data (by decide) h fun k => ⟨tabPut_wf k.1, k.2⟩

theorem putBytes_keeps {P : State → Prop} (C : Keeps [.data] P) {a bs s} (h : P s) : P (putBytes a bs s) := by
  induction bs generalizing a s with
  | nil => exact h
  | cons b bs ih => exact ih (putByte_keeps (C.mono (by decide)) h)

theorem setSynd_keeps {P : State → Prop} (C : Keeps [.data] P) {a w s} (h : P s) : P (setSynd a w s) :=
  C.upd_data (by decide) h fun k => ⟨k.1, tabPut_wf k.2⟩

theorem setWord_keeps {P : State → Prop} (C : Keeps [.data] P) {a_1 v_2 s_3} (hP3 : P s_3) : P (setWord a_1 v_2 s_3) := by
  unfold setWord
  refine putBytes_keeps (C.mono (by decide)) ?_
  exact hP3

theorem applyFlips_keeps {P : State → Prop} (C : Keeps [.data] P) {a_1 flips_2 s_3} (hP3 : P s_3) : P (applyFlips a_1 flips_2 s_3) := by
  unfold applyFlips
  refine ite_keeps ?_ ?_
  · exact hP3
  · refine setSynd_keeps (C.mono (by decide)) ?_
    refine setWord_keeps (C.mono (by decide)) ?_
    exact hP3

theorem memEvent_keeps {P : State → Prop} (C : Keeps [.indlog, .regs, .log, .queue] P) {kind_1 synd_2 a_3 sev_4 s_5} (hP5 : P s_5) : P (memEvent kind_1 synd_2 a_3 sev_4 s_5) := by
  unfold memEvent
  extract_lets -merge -useContext -underBinder +onlyGivenNames code0 s11
  have h_s11 : P s11 := by
    unfold s11
    refine report_keeps (C.mono (by decide)) ?_
    exact hP5
  try clear_value s11
  refine ite_keeps ?_ ?_
  · exact h_s11
  · refine setFld_keeps (C.mono (by decide)) ?_
    refine setFld_keeps (C.mono (by decide)) ?_
    refine capture_keeps (C.mono (by decide)) ?_
    exact h_s11

theorem countCe_keeps {P : State → Prop} (C : Keeps [.regs, .mem] P) {a_1 s_2} (hP2 : P s_2) : P (countCe a_1 s_2) := by
  unfold countCe
  split
  · exact hP2
  · extract_lets -merge -useContext -underBinder +onlyGivenNames k0
    refine bump_keeps (C.mono (by decide)) ?_
    refine C.upd_mem (by decide) ?_
    exact hP2

theorem correct_keeps {P : State → Prop} (C : Keeps [.data] P) {a_1 bit_2 s_3} (hP3 : P s_3) : P (correct a_1 bit_2 s_3) := by
  unfold correct
  refine setSynd_keeps (C.mono (by decide)) ?_
  refine ite_keeps ?_ ?_
  · refine setWord_keeps (C.mono (by decide)) ?_
    exact hP3
  · exact hP3

theorem scheduleRewrite_keeps {P : State → Prop} (C : Keeps [.mem] P) {tile_1 cell_2 s_3} (hP3 : P s_3) : P (scheduleRewrite tile_1 cell_2 s_3) := by
  unfold scheduleRewrite
  refine ite_keeps ?_ ?_
  · exact hP3
  · refine C.upd_mem (by decide) ?_
    exact hP3

theorem clearBrick_keeps {P : State → Prop} (C : Keeps [.indlog, .regs, .wld, .log, .queue] P) {key_1 s_2} (hP2 : P s_2) : P (clearBrick key_1 s_2) := by
  unfold clearBrick
  extract_lets -merge -useContext -underBinder +onlyGivenNames inCell0 n1 c2
  refine report_keeps (C.mono (by decide)) ?_
  refine setFlag_keeps (C.mono (by decide)) ?_
  refine C.upd_wld (by decide) ?_
  exact hP2

theorem worldFault_keeps {P : State → Prop} (C : Keeps [.indlog, .regs, .wld, .log, .queue, .mem] P) {a_1 s_2} (hP2 : P s_2) : P (worldFault a_1 s_2) := by
  unfold worldFault
  extract_lets -merge -useContext -underBinder +onlyGivenNames tell0
  have h_tell0 : ∀ code1 s2, P s2 → P (tell0 code1 s2) := by
    intro code1 s2 hS3
    unfold tell0
    refine report_keeps (C.mono (by decide)) ?_
    refine setFlag_keeps (C.mono (by decide)) ?_
    exact hS3
  clear_value tell0
  split
  · refine scheduleRewrite_keeps (C.mono (by decide)) ?_
    refine h_tell0 _ _ ?_
    exact hP2
  · split
    · refine setFlag_keeps (C.mono (by decide)) ?_
      refine clearBrick_keeps (C.mono (by decide)) ?_
      exact hP2
    · split
      · extract_lets -merge -useContext -underBinder +onlyGivenNames c4
        refine h_tell0 _ _ ?_
        refine C.upd_wld (by decide) ?_
        exact hP2
      · exact hP2

theorem findBad_keeps {P : State → Prop} (C : Keeps [.indlog, .regs, .wld, .log, .queue, .mem, .data] P) {kind_1 a_2 s_3} (hP3 : P s_3) : P (findBad kind_1 a_2 s_3) := by
  unfold findBad
  extract_lets -merge -useContext -underBinder +onlyGivenNames s10 s21
  have h_s10 : P s10 := by
    unfold s10
    refine memEvent_keeps (C.mono (by decide)) ?_
    exact hP3
  try clear_value s10
  have h_s21 : P s21 := by
    unfold s21
    refine ite_keeps ?_ ?_
    · refine bump_keeps (C.mono (by decide)) ?_
      exact h_s10
    · refine bump_keeps (C.mono (by decide)) ?_
      exact h_s10
  try clear_value s21
  refine worldFault_keeps (C.mono (by decide)) ?_
  refine setSynd_keeps (C.mono (by decide)) ?_
  exact h_s21

theorem probeWord_keeps {P : State → Prop} (C : Keeps [.indlog, .regs, .wld, .log, .queue, .mem, .data] P) {kind_1 a_2 s_3} (hP3 : P s_3) : P (probeWord kind_1 a_2 s_3).2 := by
  unfold probeWord
  split
  · try dsimp only
    exact hP3
  · try dsimp only
    refine correct_keeps (C.mono (by decide)) ?_
    refine countCe_keeps (C.mono (by decide)) ?_
    exact hP3
  · try dsimp only
    refine bump_keeps (C.mono (by decide)) ?_
    exact hP3
  · try dsimp only
    refine findBad_keeps (C.mono (by decide)) ?_
    exact hP3

theorem readWord_keeps {P : State → Prop} (C : Keeps [.indlog, .regs, .wld, .log, .queue, .mem, .data] P) {kind_1 a_2 s_3} (hP3 : P s_3) : P (readWord kind_1 a_2 s_3).2 := by
  unfold readWord
  extract_lets -merge -useContext -underBinder +onlyGivenNames r0
  have h_r0 : P r0.2 := by
    unfold r0
    refine probeWord_keeps (C.mono (by decide)) ?_
    exact hP3
  try clear_value r0
  try dsimp only
  exact h_r0

theorem readWords_keeps {P : State → Prop} (C : Keeps [.indlog, .regs, .wld, .log, .queue, .mem, .data] P) {a n s} (h : P s) : P (readWords a n s).2 := by
  induction n generalizing a s with
  | zero => exact h
  | succ n ih => exact ih (readWord_keeps (C.mono (by decide)) h)

theorem writeFull_keeps {P : State → Prop} (C : Keeps [.data] P) {a_1 bs_2 sepia_3 s_4} (hP4 : P s_4) : P (writeFull a_1 bs_2 sepia_3 s_4) := by
  unfold writeFull
  refine setSynd_keeps (C.mono (by decide)) ?_
  refine putBytes_keeps (C.mono (by decide)) ?_
  exact hP4

theorem writePartial_keeps {P : State → Prop} (C : Keeps [.indlog, .regs, .wld, .log, .queue, .mem, .data] P) {a_1 bs_2 sepia_3 s_4} (hP4 : P s_4) : P (writePartial a_1 bs_2 sepia_3 s_4) := by
  unfold writePartial
  extract_lets -merge -useContext -underBinder +onlyGivenNames s10
  have h_s10 : P s10 := by
    unfold s10
    split
    · refine putBytes_keeps (C.mono (by decide)) ?_
      exact hP4
    · refine putBytes_keeps (C.mono (by decide)) ?_
      refine correct_keeps (C.mono (by decide)) ?_
      refine countCe_keeps (C.mono (by decide)) ?_
      exact hP4
    · refine putBytes_keeps (C.mono (by decide)) ?_
      refine bump_keeps (C.mono (by decide)) ?_
      exact hP4
    · refine putBytes_keeps (C.mono (by decide)) ?_
      refine findBad_keeps (C.mono (by decide)) ?_
      exact hP4
  try clear_value s10
  refine ite_keeps ?_ ?_
  · refine setSynd_keeps (C.mono (by decide)) ?_
    exact h_s10
  · exact h_s10

theorem writeBytes_keeps {P : State → Prop} (C : Keeps [.indlog, .regs, .wld, .log, .queue, .mem, .data] P) {sepia n a bs s} (h : P s) : P (writeBytes sepia n a bs s) := by
  induction n generalizing a bs s with
  | zero => exact h
  | succ n ih =>
    unfold writeBytes
    refine ite_keeps h (ih (ite_keeps ?_ ?_))
    · exact writeFull_keeps (C.mono (by decide)) h
    · exact writePartial_keeps (C.mono (by decide)) h

theorem applyDev_keeps {P : State → Prop} (C : Keeps [.indlog, .regs, .log, .queue, .data] P) {a_1 dev_2 s_3} (hP3 : P s_3) : P (applyDev a_1 dev_2 s_3) := by
  unfold applyDev
  refine ite_keeps ?_ ?_
  · exact hP3
  · split
    · exact hP3
    · refine bumpBy_keeps (C.mono (by decide)) ?_
      exact hP3
    · refine setSynd_keeps (C.mono (by decide)) ?_
      refine memEvent_keeps (C.mono (by decide)) ?_
      exact hP3

theorem freshWords_keeps {P : State → Prop} (C : Keeps [.data] P) {a_1 n_2 s_3} (hP3 : P s_3) : P (freshWords a_1 n_2 s_3) := by
  unfold freshWords
  refine C.upd_data (by decide) ?_
  exact hP3

theorem storeTable_keeps {P : State → Prop} (C : Keeps [.regs, .wld, .boot, .mem, .swap] P) {t_1 addr_2 val_3 s_4} (hP4 : P s_4) : P (storeTable t_1 addr_2 val_3 s_4) := by
  unfold storeTable
  extract_lets -merge -useContext -underBinder +onlyGivenNames o0
  split
  · split
    · refine setReg_keeps (C.mono (by decide)) ?_
      exact hP4
    · exact hP4
  · split
    · refine setReg_keeps (C.mono (by decide)) ?_
      exact hP4
    · exact hP4
  · refine C.upd_wld (by decide) ?_
    exact hP4
  · refine ite_keeps ?_ ?_
    · refine C.upd_wld (by decide) ?_
      exact hP4
    · exact hP4
  · extract_lets -merge -useContext -underBinder +onlyGivenNames ws1
    refine C.upd_boot_swap (by decide) ?_
    exact hP4
  · refine C.upd_mem (by decide) ?_
    exact hP4

theorem mixFrame_keeps {P : State → Prop} (C : Keeps [.regs, .frame] P) {s_1} (hP1 : P s_1) : P (mixFrame s_1) := by
  unfold mixFrame
  refine ite_keeps ?_ ?_
  · refine markDoubt_keeps (C.mono (by decide)) ?_
    exact hP1
  · refine bump_keeps (C.mono (by decide)) ?_
    refine markDoubt_keeps (C.mono (by decide)) ?_
    refine C.upd_frame (by decide) ?_
    exact hP1

theorem mixOutputs_keeps {P : State → Prop} (C : Keeps [.cnd] P) {s_1} (hP1 : P s_1) : P (mixOutputs s_1) := by
  unfold mixOutputs
  extract_lets -merge -useContext -underBinder +onlyGivenNames loose0
  refine C.upd_cnd (by decide) ?_
  exact hP1

theorem unprescribedWrite_keeps {P : State → Prop} (C : Keeps [.indlog, .regs, .frame, .cnd, .wld, .log, .queue, .boot, .mem, .swap, .sent] P) {r_1 t_2 addr_3 val_4 s_5} (hP5 : P s_5) : P (unprescribedWrite r_1 t_2 addr_3 val_4 s_5) := by
  unfold unprescribedWrite
  extract_lets -merge -useContext -underBinder +onlyGivenNames cap0 ev1
  have h_cap0 : ∀ refused2 s3, P s3 → P (cap0 refused2 s3) := by
    intro refused2 s3 hS4
    unfold cap0
    refine capture_keeps (C.mono (by decide)) ?_
    exact hS4
  clear_value cap0
  have h_ev1 : ∀ kind5 sev6 doubt7 s8, P s8 → P (ev1 kind5 sev6 doubt7 s8) := by
    intro kind5 sev6 doubt7 s8 hS9
    unfold ev1
    refine report_keeps (C.mono (by decide)) ?_
    exact hS9
  clear_value ev1
  refine ite_keeps ?_ ?_
  · refine send_keeps (C.mono (by decide)) ?_
    refine h_ev1 _ _ _ _ ?_
    refine h_cap0 _ _ ?_
    refine bump_keeps (C.mono (by decide)) ?_
    exact hP5
  · extract_lets -merge -useContext -underBinder +onlyGivenNames s110 off11
    have h_s110 : P s110 := by
      unfold s110
      refine mixOutputs_keeps (C.mono (by decide)) ?_
      refine storeTable_keeps (C.mono (by decide)) ?_
      refine h_cap0 _ _ ?_
      exact hP5
    try clear_value s110
    refine ite_keeps ?_ ?_
    · refine h_ev1 _ _ _ _ ?_
      refine mixFrame_keeps (C.mono (by decide)) ?_
      exact h_s110
    · refine h_ev1 _ _ _ _ ?_
      exact h_s110

theorem execLiveTableWrite_keeps {P : State → Prop} (C : Keeps [.indlog, .regs, .frame, .cnd, .wld, .log, .queue, .boot, .mem, .swap, .sent] P) {r_1 table_2 addr_3 val_4 s_5} (hP5 : P s_5) : Next P (execLiveTableWrite r_1 table_2 addr_3 val_4 s_5) := by
  unfold execLiveTableWrite
  refine next_keeps ?_
  refine live_keeps (C.mono (by decide)) ?_ ?_
  · exact hP5
  · intro s0 hS1
    refine ite_keeps ?_ ?_
    · refine unprescribedWrite_keeps (C.mono (by decide)) ?_
      exact hS1
    · refine refuseAccess_keeps (C.mono (by decide)) ?_
      exact hS1

theorem resetStaged_keeps {P : State → Prop} (C : Keeps [.regs, .wld, .swap] P) {mask_1 s_2} (hP2 : P s_2) : P (resetStaged mask_1 s_2) := by
  unfold resetStaged
  extract_lets -merge -useContext -underBinder +onlyGivenNames s10 __src1 s22
  have h_s10 : P s10 := by
    unfold s10
    refine foldl_keeps (fun s3 x4 hS5 => ?_) _ _ ?_
    · refine setReg_keeps (C.mono (by decide)) ?_
      exact hS5
    · exact hP2
  try clear_value s10
  have h_s22 : P s22 := by
    unfold s22
    refine ite_keeps ?_ ?_
    · refine C.upd_wld (by decide) ?_
      exact h_s10
    · exact h_s10
  try clear_value s22
  refine ite_keeps ?_ ?_
  · refine C.upd_swap (by decide) ?_
    exact h_s22
  · exact h_s22

theorem showJournal_keeps {P : State → Prop} (C : Keeps [.regs] P) {s_1} (hP1 : P s_1) : P (showJournal s_1) := by
  unfold showJournal
  refine setFld_keeps (C.mono (by decide)) ?_
  exact hP1

theorem swapRefused_keeps {P : State → Prop} (C : Keeps [.indlog, .regs, .log, .queue] P) {reason_1 mask_2 recentre_3 s_4} (hP4 : P s_4) : P (swapRefused reason_1 mask_2 recentre_3 s_4) := by
  unfold swapRefused
  refine report_keeps (C.mono (by decide)) ?_
  exact hP4

theorem showSwap_keeps {P : State → Prop} (C : Keeps [.regs] P) {state_1 staged_2 reason_3 s_4} (hP4 : P s_4) : P (showSwap state_1 staged_2 reason_3 s_4) := by
  unfold showSwap
  refine setFld_keeps (C.mono (by decide)) ?_
  refine setFld_keeps (C.mono (by decide)) ?_
  refine setFld_keeps (C.mono (by decide)) ?_
  exact hP4

theorem pairRefused_keeps {P : State → Prop} (C : Keeps [.indlog, .regs, .log, .queue] P) {edge_1 reason_2 s_3} (hP3 : P s_3) : P (pairRefused edge_1 reason_2 s_3) := by
  unfold pairRefused
  refine bump_keeps (C.mono (by decide)) ?_
  refine report_keeps (C.mono (by decide)) ?_
  exact hP3

theorem tellRefusal_keeps {P : State → Prop} (C : Keeps [.indlog, .regs, .log, .queue, .twin, .sent] P) {twin_1 edge_2 reason_3 s_4} (hP4 : P s_4) : P (tellRefusal twin_1 edge_2 reason_3 s_4) := by
  unfold tellRefusal
  split
  · exact hP4
  · extract_lets -merge -useContext -underBinder +onlyGivenNames formed0 s11
    have h_s11 : P s11 := by
      unfold s11
      refine ite_keeps ?_ ?_
      · refine sendWoad_keeps (C.mono (by decide)) ?_
        exact hP4
      · exact hP4
    try clear_value s11
    refine ite_keeps ?_ ?_
    · refine pairRefused_keeps (C.mono (by decide)) ?_
      exact h_s11
    · exact h_s11

theorem refuseUserAs_keeps {P : State → Prop} (C : Keeps [.indlog, .regs, .wld, .log, .queue, .twin, .swap, .sent] P) {reason_1 told_2 s_3} (hP3 : P s_3) : P (refuseUserAs reason_1 told_2 s_3) := by
  unfold refuseUserAs
  split
  · exact hP3
  · extract_lets -merge -useContext -underBinder +onlyGivenNames __src0 s11 s22
    have h_s11 : P s11 := by
      unfold s11
      refine resetStaged_keeps (C.mono (by decide)) ?_
      refine C.upd_swap (by decide) ?_
      exact hP3
    try clear_value s11
    have h_s22 : P s22 := by
      unfold s22
      refine setFld_keeps (C.mono (by decide)) ?_
      refine showSwap_keeps (C.mono (by decide)) ?_
      exact h_s11
    try clear_value s22
    refine tellRefusal_keeps (C.mono (by decide)) ?_
    refine swapRefused_keeps (C.mono (by decide)) ?_
    exact h_s22

theorem refuseUser_keeps {P : State → Prop} (C : Keeps [.indlog, .regs, .wld, .log, .queue, .twin, .swap, .sent] P) {reason_1 s_2} (hP2 : P s_2) : P (refuseUser reason_1 s_2) := by
  unfold refuseUser
  refine refuseUserAs_keeps (C.mono (by decide)) ?_
  exact hP2

theorem refuseRecentreAs_keeps {P : State → Prop} (C : Keeps [.indlog, .regs, .log, .queue, .twin, .swap, .sent] P) {reason_1 told_2 s_3} (hP3 : P s_3) : P (refuseRecentreAs reason_1 told_2 s_3) := by
  unfold refuseRecentreAs
  split
  · exact hP3
  · extract_lets -merge -useContext -underBinder +onlyGivenNames __src0 s11
    have h_s11 : P s11 := by
      unfold s11
      refine bump_keeps (C.mono (by decide)) ?_
      refine setFld_keeps (C.mono (by decide)) ?_
      refine C.upd_swap (by decide) ?_
      exact hP3
    try clear_value s11
    refine tellRefusal_keeps (C.mono (by decide)) ?_
    refine swapRefused_keeps (C.mono (by decide)) ?_
    exact h_s11

theorem refuseRecentre_keeps {P : State → Prop} (C : Keeps [.indlog, .regs, .log, .queue, .twin, .swap, .sent] P) {reason_1 s_2} (hP2 : P s_2) : P (refuseRecentre reason_1 s_2) := by
  unfold refuseRecentre
  refine refuseRecentreAs_keeps (C.mono (by decide)) ?_
  exact hP2

theorem refuseSwaps_keeps {P : State → Prop} (C : Keeps [.indlog, .regs, .wld, .log, .queue, .twin, .swap, .sent] P) {reason_1 s_2} (hP2 : P s_2) : P (refuseSwaps reason_1 s_2) := by
  unfold refuseSwaps
  refine refuseUser_keeps (C.mono (by decide)) ?_
  refine refuseRecentre_keeps (C.mono (by decide)) ?_
  exact hP2

theorem refuseRestart_keeps {P : State → Prop} (C : Keeps [.pwr, .raise, .indlog, .regs, .log, .queue, .twin, .sent] P) {s_1} (hP1 : P s_1) : P (refuseRestart s_1) := by
  unfold refuseRestart
  refine fatal_keeps (C.mono (by decide)) ?_
  exact hP1

theorem haltFabric_keeps {P : State → Prop} (C : Keeps [.indlog, .regs, .cnd, .log, .queue, .mem, .sec, .bus, .sent, .free] P) {s_1} (hP1 : P s_1) : P (haltFabric s_1) := by
  unfold haltFabric
  extract_lets -merge -useContext -underBinder +onlyGivenNames s10
  have h_s10 : P s10 := by
    unfold s10
    refine revokeWhere_keeps (C.mono (by decide)) ?_
    exact hP1
  try clear_value s10
  refine C.upd_cnd (by decide) ?_
  exact h_s10

theorem leaveReplay_keeps {P : State → Prop} (C : Keeps [.regs, .num, .replay] P) {s_1} (hP1 : P s_1) : P (leaveReplay s_1) := by
  unfold leaveReplay
  refine ite_keeps ?_ ?_
  · exact hP1
  · refine setFld_keeps (C.mono (by decide)) ?_
    refine C.upd_num_replay (by decide) ?_
    exact hP1

theorem triggerRestart_keeps {P : State → Prop} (C : Keeps [.pwr, .raise, .indlog, .regs, .num, .cnd, .wld, .restart, .log, .queue, .mem, .twin, .swap, .sec, .bus, .replay, .sent, .free] P) {t_1 doubt_2 s0_3} (hP3 : P s0_3) : P (triggerRestart t_1 doubt_2 s0_3) := by
  unfold triggerRestart
  split
  · refine report_keeps (C.mono (by decide)) ?_
    refine C.upd_restart (by decide) ?_
    exact hP3
  · extract_lets -merge -useContext -underBinder +onlyGivenNames recent0
    refine ite_keeps ?_ ?_
    · refine refuseRestart_keeps (C.mono (by decide)) ?_
      exact hP3
    · extract_lets -merge -useContext -underBinder +onlyGivenNames s1 sev2 s13 s24 __src5 s36
      have h_s1 : P s1 := by
        unfold s1
        refine refuseSwaps_keeps (C.mono (by decide)) ?_
        refine leaveReplay_keeps (C.mono (by decide)) ?_
        exact hP3
      try clear_value s1
      have h_s13 : P s13 := by
        unfold s13
        refine report_keeps (C.mono (by decide)) ?_
        exact h_s1
      try clear_value s13
      have h_s24 : P s24 := by
        unfold s24
        refine haltFabric_keeps (C.mono (by decide)) ?_
        exact h_s13
      try clear_value s24
      have h_s36 : P s36 := by
        unfold s36
        refine C.upd_restart (by decide) ?_
        exact h_s24
      try clear_value s36
      refine setSat_keeps (C.mono (by decide)) ?_
      refine setFlag_keeps (C.mono (by decide)) ?_
      exact h_s36

theorem showSched_keeps {P : State → Prop} (C : Keeps [.regs] P) {s_1} (hP1 : P s_1) : P (showSched s_1) := by
  unfold showSched
  refine setFld_keeps (C.mono (by decide)) ?_
  refine setFld_keeps (C.mono (by decide)) ?_
  refine setFld_keeps (C.mono (by decide)) ?_
  refine showLeases_keeps (C.mono (by decide)) ?_
  exact hP1

theorem edgeFlags_keeps {P : State → Prop} (C : Keeps [.cnd] P) {s_1} (hP1 : P s_1) : P (edgeFlags s_1) := by
  unfold edgeFlags
  extract_lets -merge -useContext -underBinder +onlyGivenNames bound0 s11
  have h_s11 : P s11 := by
    unfold s11
    refine foldl_keeps (fun s2 x3 hS4 => ?_) _ _ ?_
    · refine setNode_keeps (C.mono (by decide)) ?_
      exact hS4
    · exact hP1
  try clear_value s11
  refine foldl_keeps (fun s5 x6 hS7 => ?_) _ _ ?_
  · refine testReady_keeps (C.mono (by decide)) ?_
    exact hS7
  · exact h_s11

theorem overrun_keeps {P : State → Prop} (C : Keeps [.indlog, .regs, .frame, .cnd, .safe, .log, .queue, .mem, .swp, .sec, .bus, .sent, .free] P) {k_1 u_2 node_3 s_4} (hP4 : P s_4) : P (overrun k_1 u_2 node_3 s_4) := by
  unfold overrun
  extract_lets -merge -useContext -underBinder +onlyGivenNames dom0 bound1 e2 s13 s24 s35
  have h_s13 : P s13 := by
    unfold s13
    refine ite_keeps ?_ ?_
    · refine report_keeps (C.mono (by decide)) ?_
      exact hP4
    · refine doubtEvent_keeps (C.mono (by decide)) ?_
      exact hP4
  try clear_value s13
  have h_s24 : P s24 := by
    unfold s24
    refine capture_keeps (C.mono (by decide)) ?_
    exact h_s13
  try clear_value s24
  have h_s35 : P s35 := by
    unfold s35
    split
    · refine bump_keeps (C.mono (by decide)) ?_
      exact h_s24
    · refine bump_keeps (C.mono (by decide)) ?_
      exact h_s24
    · refine bump_keeps (C.mono (by decide)) ?_
      exact h_s24
    · refine bump_keeps (C.mono (by decide)) ?_
      exact h_s24
  try clear_value s35
  split
  · exact h_s35
  · extract_lets -merge -useContext -underBinder +onlyGivenNames s46
    have h_s46 : P s46 := by
      unfold s46
      refine slotLost_keeps (C.mono (by decide)) ?_
      refine ite_keeps ?_ ?_
      · refine capture_keeps (C.mono (by decide)) ?_
        exact h_s35
      · exact h_s35
    try clear_value s46
    refine ite_keeps ?_ ?_
    · refine showSched_keeps (C.mono (by decide)) ?_
      refine kermesDue_keeps (C.mono (by decide)) ?_
      refine takeOut_keeps (C.mono (by decide)) ?_
      exact h_s46
    · refine showSched_keeps (C.mono (by decide)) ?_
      refine dropTask_keeps (C.mono (by decide)) ?_
      refine revokeWhere_keeps (C.mono (by decide)) ?_
      refine loseItem_keeps (C.mono (by decide)) ?_
      exact h_s46

theorem phaseStop_keeps {P : State → Prop} (C : Keeps [.indlog, .regs, .frame, .cnd, .safe, .log, .queue, .mem, .swp, .sec, .bus, .sent, .free] P) {p_1 s_2} (hP2 : P s_2) : P (phaseStop p_1 s_2) := by
  unfold phaseStop
  extract_lets -merge -useContext -underBinder +onlyGivenNames of0 bounded1 ready2 running3 clear4 __src5 s16 s27 s38
  have h_clear4 : ∀ s9 e11, P s9 → P (clear4 s9 e11) := by
    intro s9 e11 hS10
    unfold clear4
    refine setNode_keeps (C.mono (by decide)) ?_
    exact hS10
  clear_value clear4
  have h_s16 : P s16 := by
    unfold s16
    refine foldl_keeps (fun s12 x13 hS14 => ?_) _ _ ?_
    · refine h_clear4 _ _ ?_
      exact hS14
    · refine C.upd_cnd (by decide) ?_
      exact hP2
  try clear_value s16
  have h_s27 : P s27 := by
    unfold s27
    refine foldl_keeps (fun s15 x16 hS17 => ?_) _ _ ?_
    · refine overrun_keeps (C.mono (by decide)) ?_
      exact hS17
    · exact h_s16
  try clear_value s27
  have h_s38 : P s38 := by
    unfold s38
    refine foldl_keeps (fun s18 x19 hS20 => ?_) _ _ ?_
    · refine ite_keeps ?_ ?_
      · refine overrun_keeps (C.mono (by decide)) ?_
        exact hS20
      · refine dropTask_keeps (C.mono (by decide)) ?_
        exact hS20
    · exact h_s27
  try clear_value s38
  refine showSched_keeps (C.mono (by decide)) ?_
  exact h_s38

theorem takeReadiness_keeps {P : State → Prop} (C : Keeps [.cnd] P) {e_1 more_2 s_3} (hP3 : P s_3) : P (takeReadiness e_1 more_2 s_3) := by
  unfold takeReadiness
  extract_lets -merge -useContext -underBinder +onlyGivenNames r0 left1 rest2
  refine ite_keeps ?_ ?_
  · exact hP3
  · refine ite_keeps ?_ ?_
    · refine setNode_keeps (C.mono (by decide)) ?_
      refine C.upd_cnd (by decide) ?_
      exact hP3
    · refine setNode_keeps (C.mono (by decide)) ?_
      refine C.upd_cnd (by decide) ?_
      exact hP3

theorem recordGrant_keeps {P : State → Prop} (C : Keeps [.regs, .cnd] P) {g_1 s_2} (hP2 : P s_2) : P (recordGrant g_1 s_2) := by
  unfold recordGrant
  extract_lets -merge -useContext -underBinder +onlyGivenNames r0 s11 __src2 s23 cluster4 s35
  have h_s11 : P s11 := by
    unfold s11
    refine setNode_keeps (C.mono (by decide)) ?_
    exact hP2
  try clear_value s11
  have h_s23 : P s23 := by
    unfold s23
    refine C.upd_cnd (by decide) ?_
    exact h_s11
  try clear_value s23
  have h_s35 : P s35 := by
    unfold s35
    refine ite_keeps ?_ ?_
    · refine countSteward_keeps (C.mono (by decide)) ?_
      exact h_s23
    · exact h_s23
  try clear_value s35
  refine countDie_keeps (C.mono (by decide)) ?_
  exact h_s35

theorem completeItem_keeps {P : State → Prop} (C : Keeps [.cnd] P) {succ_1 s_2} (hP2 : P s_2) : P (completeItem succ_1 s_2) := by
  unfold completeItem
  extract_lets -merge -useContext -underBinder +onlyGivenNames flows0
  refine raiseFlags_keeps (C.mono (by decide)) ?_
  refine foldl_keeps (fun s1 x2 hS3 => ?_) _ _ ?_
  · refine enterItem_keeps (C.mono (by decide)) ?_
    exact hS3
  · exact hP2

theorem refuseGrants_keeps {P : State → Prop} (C : Keeps [.sent] P) {u_1 cls_2 s_3} (hP3 : P s_3) : P (refuseGrants u_1 cls_2 s_3) := by
  unfold refuseGrants
  refine foldl_keeps (fun s0 x1 hS2 => ?_) _ _ ?_
  · refine send_keeps (C.mono (by decide)) ?_
    exact hS2
  · exact hP3

theorem giveLease_keeps {P : State → Prop} (C : Keeps [.regs, .cnd] P) {u_1 cls_2 res_3 client_4 len_5 s_6} (hP6 : P s_6) : P (giveLease u_1 cls_2 res_3 client_4 len_5 s_6) := by
  unfold giveLease
  extract_lets -merge -useContext -underBinder +onlyGivenNames dom0 prio1 ctx2 __src3 s14
  have h_s14 : P s14 := by
    unfold s14
    refine C.upd_cnd (by decide) ?_
    exact hP6
  try clear_value s14
  refine showSegs_keeps (C.mono (by decide)) ?_
  refine showLeases_keeps (C.mono (by decide)) ?_
  exact h_s14

theorem setWait_keeps {P : State → Prop} (C : Keeps [.cnd] P) {u_1 w_2 s_3} (hP3 : P s_3) : P (setWait u_1 w_2 s_3) := by
  unfold setWait
  refine C.upd_cnd (by decide) ?_
  exact hP3

theorem serveWaiter_keeps {P : State → Prop} (C : Keeps [.regs, .cnd] P) {cls_1 s_2} (hP2 : P s_2) : P (serveWaiter cls_1 s_2) := by
  unfold serveWaiter
  split
  · refine giveLease_keeps (C.mono (by decide)) ?_
    refine setWait_keeps (C.mono (by decide)) ?_
    refine C.upd_cnd (by decide) ?_
    exact hP2
  · refine showSegs_keeps (C.mono (by decide)) ?_
    refine showLeases_keeps (C.mono (by decide)) ?_
    exact hP2

theorem freeLease_keeps {P : State → Prop} (C : Keeps [.regs, .cnd] P) {cls_1 res_2 s_3} (hP3 : P s_3) : P (freeLease cls_1 res_2 s_3) := by
  unfold freeLease
  refine serveWaiter_keeps (C.mono (by decide)) ?_
  refine C.upd_cnd (by decide) ?_
  exact hP3

theorem conductorFaulty_keeps {P : State → Prop} (C : Keeps [.pwr, .raise, .indlog, .regs, .frame, .num, .cnd, .wld, .restart, .log, .queue, .mem, .twin, .swap, .sec, .bus, .replay, .sent, .free] P) {s_1} (hP1 : P s_1) : P (conductorFaulty s_1) := by
  unfold conductorFaulty
  refine triggerRestart_keeps (C.mono (by decide)) ?_
  refine markDoubt_keeps (C.mono (by decide)) ?_
  refine revokeWhere_keeps (C.mono (by decide)) ?_
  exact hP1

theorem execPull_keeps {P : State → Prop} (C : Keeps [.regs, .cnd] P) {unit_1 s_2} (hP2 : P s_2) : Next P (execPull unit_1 s_2) := by
  unfold execPull
  refine next_keeps ?_
  refine fabric_keeps (C.mono (by decide)) ?_ ?_
  · exact hP2
  · intro s0 hS1
    refine ite_keeps ?_ ?_
    · exact hS1
    · refine showSched_keeps (C.mono (by decide)) ?_
      refine C.upd_cnd (by decide) ?_
      exact hS1

theorem execTaskBudgetExpiry_keeps {P : State → Prop} (C : Keeps [.indlog, .regs, .frame, .cnd, .safe, .log, .queue, .mem, .swp, .sec, .bus, .sent, .free] P) {unit_1 s_2} (hP2 : P s_2) : Next P (execTaskBudgetExpiry unit_1 s_2) := by
  unfold execTaskBudgetExpiry
  refine next_keeps ?_
  refine fabric_keeps (C.mono (by decide)) ?_ ?_
  · exact hP2
  · intro s0 hS1
    split
    · refine ite_keeps ?_ ?_
      · refine overrun_keeps (C.mono (by decide)) ?_
        exact hS1
      · exact hS1
    · refine ite_keeps ?_ ?_
      · refine overrun_keeps (C.mono (by decide)) ?_
        exact hS1
      · exact hS1

theorem execWaitTimeout_keeps {P : State → Prop} (C : Keeps [.indlog, .regs, .frame, .cnd, .safe, .log, .queue, .mem, .swp, .sec, .bus, .sent, .free] P) {unit_1 s_2} (hP2 : P s_2) : Next P (execWaitTimeout unit_1 s_2) := by
  unfold execWaitTimeout
  refine next_keeps ?_
  refine fabric_keeps (C.mono (by decide)) ?_ ?_
  · exact hP2
  · intro s0 hS1
    split
    · refine overrun_keeps (C.mono (by decide)) ?_
      refine C.upd_cnd (by decide) ?_
      exact hS1
    · exact hS1

theorem execLeaseRequest_keeps {P : State → Prop} (C : Keeps [.regs, .cnd, .sent] P) {unit_1 cls_2 client_3 len_4 s_5} (hP5 : P s_5) : Next P (execLeaseRequest unit_1 cls_2 client_3 len_4 s_5) := by
  unfold execLeaseRequest
  refine next_keeps ?_
  refine fabric_keeps (C.mono (by decide)) ?_ ?_
  · exact hP5
  · intro s00 hS1
    extract_lets -merge -useContext -underBinder +onlyGivenNames s2
    have h_s2 : P s2 := by
      unfold s2
      refine refuseGrants_keeps (C.mono (by decide)) ?_
      exact hS1
    try clear_value s2
    split
    · refine giveLease_keeps (C.mono (by decide)) ?_
      exact h_s2
    · extract_lets -merge -useContext -underBinder +onlyGivenNames __src3 s14
      have h_s14 : P s14 := by
        unfold s14
        refine setWait_keeps (C.mono (by decide)) ?_
        refine C.upd_cnd (by decide) ?_
        exact h_s2
      try clear_value s14
      refine ite_keeps ?_ ?_
      · refine bump_keeps (C.mono (by decide)) ?_
        exact h_s14
      · refine ite_keeps ?_ ?_
        · refine bump_keeps (C.mono (by decide)) ?_
          exact h_s14
        · exact h_s14

theorem execLeaseRelease_keeps {P : State → Prop} (C : Keeps [.regs, .cnd] P) {cls_1 res_2 s_3} (hP3 : P s_3) : Next P (execLeaseRelease cls_1 res_2 s_3) := by
  unfold execLeaseRelease
  refine next_keeps ?_
  refine fabric_keeps (C.mono (by decide)) ?_ ?_
  · exact hP3
  · intro s0 hS1
    refine ite_keeps ?_ ?_
    · refine freeLease_keeps (C.mono (by decide)) ?_
      exact hS1
    · exact hS1

theorem execLeaseRenew_keeps {P : State → Prop} (C : Keeps [.cnd] P) {cls_1 res_2 s_3} (hP3 : P s_3) : Next P (execLeaseRenew cls_1 res_2 s_3) := by
  unfold execLeaseRenew
  extract_lets -merge -useContext -underBinder +onlyGivenNames now0 renew1
  refine next_keeps ?_
  refine fabric_keeps (C.mono (by decide)) ?_ ?_
  · exact hP3
  · intro s2 hS3
    refine C.upd_cnd (by decide) ?_
    exact hS3

theorem execLeaseTermExpiry_keeps {P : State → Prop} (C : Keeps [.indlog, .regs, .frame, .cnd, .safe, .log, .queue, .mem, .swp, .sec, .bus, .sent, .free] P) {cls_1 res_2 s_3} (hP3 : P s_3) : Next P (execLeaseTermExpiry cls_1 res_2 s_3) := by
  unfold execLeaseTermExpiry
  refine next_keeps ?_
  refine fabric_keeps (C.mono (by decide)) ?_ ?_
  · exact hP3
  · intro s0 hS1
    split
    · extract_lets -merge -useContext -underBinder +onlyGivenNames node2
      refine overrun_keeps (C.mono (by decide)) ?_
      refine revokeOne_keeps (C.mono (by decide)) ?_
      exact hS1
    · exact hS1

theorem execLeaseRevokeConfirm_keeps {P : State → Prop} (C : Keeps [.regs, .mem] P) {cls_1 res_2 s_3} (hP3 : P s_3) : Next P (execLeaseRevokeConfirm cls_1 res_2 s_3) := by
  unfold execLeaseRevokeConfirm
  refine next_keeps ?_
  refine fabric_keeps (C.mono (by decide)) ?_ ?_
  · exact hP3
  · intro s0 hS1
    refine ite_keeps ?_ ?_
    · refine beginWipe_keeps (C.mono (by decide)) ?_
      exact hS1
    · exact hS1

theorem execEdgeAckTimeout_keeps {P : State → Prop} (C : Keeps [.pwr, .raise, .indlog, .regs, .frame, .num, .cnd, .wld, .restart, .log, .queue, .mem, .twin, .swap, .sec, .bus, .replay, .sent, .free] P) {s_1} (hP1 : P s_1) : Next P (execEdgeAckTimeout s_1) := by
  unfold execEdgeAckTimeout
  refine next_keeps ?_
  refine fabric_keeps (C.mono (by decide)) ?_ ?_
  · exact hP1
  · intro s0 hS1
    refine ite_keeps ?_ ?_
    · refine conductorFaulty_keeps (C.mono (by decide)) ?_
      exact hS1
    · exact hS1

theorem execFlowItemComplete_keeps {P : State → Prop} (C : Keeps [.indlog, .regs, .cnd, .log, .queue] P) {flow_1 seq_2 s_3} (hP3 : P s_3) : Next P (execFlowItemComplete flow_1 seq_2 s_3) := by
  unfold execFlowItemComplete
  extract_lets -merge -useContext -underBinder +onlyGivenNames mark0
  refine next_keeps ?_
  refine fabric_keeps (C.mono (by decide)) ?_ ?_
  · exact hP3
  · intro s1 hS2
    refine releaseItems_keeps (C.mono (by decide)) ?_
    refine C.upd_cnd (by decide) ?_
    exact hS2

theorem execItemTimeout_keeps {P : State → Prop} (C : Keeps [.indlog, .regs, .cnd, .log, .queue] P) {flow_1 seq_2 s_3} (hP3 : P s_3) : Next P (execItemTimeout flow_1 seq_2 s_3) := by
  unfold execItemTimeout
  extract_lets -merge -useContext -underBinder +onlyGivenNames mark0
  refine next_keeps ?_
  refine fabric_keeps (C.mono (by decide)) ?_ ?_
  · exact hP3
  · intro s1 hS2
    refine releaseItems_keeps (C.mono (by decide)) ?_
    refine C.upd_cnd (by decide) ?_
    exact hS2

theorem execRevokeLease_keeps {P : State → Prop} (C : Keeps [.indlog, .regs, .cnd, .log, .queue, .mem, .sec, .bus, .sent, .free] P) {cls_1 res_2 s_3} (hP3 : P s_3) : Next P (execRevokeLease cls_1 res_2 s_3) := by
  unfold execRevokeLease
  refine next_keeps ?_
  refine live_keeps (C.mono (by decide)) ?_ ?_
  · exact hP3
  · intro s0 hS1
    refine ite_keeps ?_ ?_
    · refine noteRevoked_keeps (C.mono (by decide)) ?_
      exact hS1
    · refine revokeWhere_keeps (C.mono (by decide)) ?_
      exact hS1

theorem execQuarantineUnit_keeps {P : State → Prop} (C : Keeps [.indlog, .regs, .frame, .cnd, .safe, .log, .queue, .mem, .swp, .sec, .bus, .sent, .free] P) {unit_1 s_2} (hP2 : P s_2) : Next P (execQuarantineUnit unit_1 s_2) := by
  unfold execQuarantineUnit
  refine next_keeps ?_
  refine live_keeps (C.mono (by decide)) ?_ ?_
  · exact hP2
  · intro s0 hS1
    refine ite_keeps ?_ ?_
    · refine showSched_keeps (C.mono (by decide)) ?_
      refine takeOut_keeps (C.mono (by decide)) ?_
      exact hS1
    · exact hS1

theorem execHaltUnit_keeps {P : State → Prop} (C : Keeps [.regs, .cnd] P) {unit_1 s_2} (hP2 : P s_2) : Next P (execHaltUnit unit_1 s_2) := by
  unfold execHaltUnit
  refine next_keeps ?_
  refine live_keeps (C.mono (by decide)) ?_ ?_
  · exact hP2
  · intro s0 hS1
    extract_lets -merge -useContext -underBinder +onlyGivenNames s12
    have h_s12 : P s12 := by
      unfold s12
      refine dropTask_keeps (C.mono (by decide)) ?_
      exact hS1
    try clear_value s12
    refine showSched_keeps (C.mono (by decide)) ?_
    refine ite_keeps ?_ ?_
    · exact h_s12
    · refine C.upd_cnd (by decide) ?_
      exact h_s12

theorem execTileQuarantine_keeps {P : State → Prop} (C : Keeps [.indlog, .regs, .frame, .cnd, .safe, .log, .queue, .mem, .swp, .sec, .bus, .sent, .free] P) {tile_1 s_2} (hP2 : P s_2) : Next P (execTileQuarantine tile_1 s_2) := by
  unfold execTileQuarantine
  refine next_keeps ?_
  refine live_keeps (C.mono (by decide)) ?_ ?_
  · exact hP2
  · intro s0 hS1
    refine showSched_keeps (C.mono (by decide)) ?_
    refine takeOut_keeps (C.mono (by decide)) ?_
    exact hS1

theorem execRevocationConfirmTimeout_keeps {P : State → Prop} (C : Keeps [.pwr, .raise, .indlog, .regs, .frame, .num, .cnd, .wld, .restart, .log, .queue, .mem, .twin, .swap, .sec, .bus, .replay, .sent, .free] P) {unit_1 s_2} (hP2 : P s_2) : Next P (execRevocationConfirmTimeout unit_1 s_2) := by
  unfold execRevocationConfirmTimeout
  refine next_keeps ?_
  refine live_keeps (C.mono (by decide)) ?_ ?_
  · exact hP2
  · intro s0 hS1
    refine ite_keeps ?_ ?_
    · refine conductorFaulty_keeps (C.mono (by decide)) ?_
      refine revokeWhere_keeps (C.mono (by decide)) ?_
      exact hS1
    · exact hS1

theorem execEngineSegmentBoundary_keeps {P : State → Prop} (C : Keeps [.regs, .cnd] P) {mapLoader_1 s_2} (hP2 : P s_2) : Next P (execEngineSegmentBoundary mapLoader_1 s_2) := by
  unfold execEngineSegmentBoundary
  refine next_keeps ?_
  refine live_keeps (C.mono (by decide)) ?_ ?_
  · exact hP2
  · intro s0 hS1
    extract_lets -merge -useContext -underBinder +onlyGivenNames cs2 last3 run4 ready5 top6 cand7 after8 pick9 nextCtx10 served11 __src12 __src13 s114
    have h_s114 : P s114 := by
      unfold s114
      refine ite_keeps ?_ ?_
      · refine C.upd_cnd (by decide) ?_
        exact hS1
      · split
        · refine countDie_keeps (C.mono (by decide)) ?_
          refine C.upd_cnd (by decide) ?_
          exact hS1
        · refine id_keeps ?_
          refine C.upd_cnd (by decide) ?_
          exact hS1
    try clear_value s114
    refine showSegs_keeps (C.mono (by decide)) ?_
    refine ite_keeps ?_ ?_
    · refine setFld_keeps (C.mono (by decide)) ?_
      exact h_s114
    · refine setFld_keeps (C.mono (by decide)) ?_
      exact h_s114

theorem answerNow_keeps {P : State → Prop} (C : Keeps [.indlog, .regs, .log, .queue, .sec, .bus, .sent, .free] P) {p_1 kind_2 q_3 status_4 s_5} (hP5 : P s_5) : P (answerNow p_1 kind_2 q_3 status_4 s_5) := by
  unfold answerNow
  refine sendAnswer_keeps (C.mono (by decide)) ?_
  exact hP5

theorem refuseReq_keeps {P : State → Prop} (C : Keeps [.indlog, .regs, .log, .queue, .swp, .sec, .bus, .sent, .free] P) {p_1 kind_2 q_3 status_4 s_5} (hP5 : P s_5) : P (refuseReq p_1 kind_2 q_3 status_4 s_5) := by
  unfold refuseReq
  extract_lets -merge -useContext -underBinder +onlyGivenNames bad0 __src1 s12
  have h_s12 : P s12 := by
    unfold s12
    refine ite_keeps ?_ ?_
    · refine C.upd_swp (by decide) ?_
      exact hP5
    · exact hP5
  try clear_value s12
  refine answerNow_keeps (C.mono (by decide)) ?_
  refine capture_keeps (C.mono (by decide)) ?_
  refine bump_keeps (C.mono (by decide)) ?_
  exact h_s12

theorem takeRequest_keeps {P : State → Prop} (C : Keeps [.indlog, .regs, .log, .queue, .swp, .sec, .bus, .sent, .free] P) {p_1 kind_2 q_3 params_4 f_5 s_6} (hP5 : ∀ z1, P z1 → P (f_5 z1)) (hP6 : P s_6) : P (takeRequest p_1 kind_2 q_3 params_4 f_5 s_6) := by
  unfold takeRequest
  split
  · refine refuseReq_keeps (C.mono (by decide)) ?_
    exact hP6
  · refine hP5 _ ?_
    refine bump_keeps (C.mono (by decide)) ?_
    exact hP6

theorem addPending_keeps {P : State → Prop} (C : Keeps [.cnd] P) {r_1 s_2} (hP2 : P s_2) : P (addPending r_1 s_2) := by
  unfold addPending
  refine C.upd_cnd (by decide) ?_
  exact hP2

theorem queueAnswer_keeps {P : State → Prop} (C : Keeps [.cnd] P) {r_1 status_2 flags_3 body_4 s_5} (hP5 : P s_5) : P (queueAnswer r_1 status_2 flags_3 body_4 s_5) := by
  unfold queueAnswer
  refine C.upd_cnd (by decide) ?_
  exact hP5

theorem endReq_keeps {P : State → Prop} (C : Keeps [.cnd] P) {r_1 s_2} (hP2 : P s_2) : P (endReq r_1 s_2) := by
  unfold endReq
  refine C.upd_cnd (by decide) ?_
  exact hP2

theorem takePathCheck_keeps {P : State → Prop} (C : Keeps [.indlog, .regs, .cnd, .log, .queue, .swp, .sec, .bus, .sent, .free] P) {port_1 q_2 s_3} (hP3 : P s_3) : P (takePathCheck port_1 q_2 s_3) := by
  unfold takePathCheck
  refine fabric_keeps (C.mono (by decide)) ?_ ?_
  · exact hP3
  · intro s0 hS1
    refine takeRequest_keeps (C.mono (by decide)) ?_ ?_
    · intro s2 hS3
      refine addPending_keeps (C.mono (by decide)) ?_
      exact hS3
    · exact hS1

theorem execPathCheck_keeps {P : State → Prop} (C : Keeps [.indlog, .regs, .cnd, .log, .queue, .swp, .sec, .bus, .sent, .free] P) {port_1 q_2 s_3} (hP3 : P s_3) : Next P (execPathCheck port_1 q_2 s_3) := by
  unfold execPathCheck
  refine next_keeps ?_
  refine takePathCheck_keeps (C.mono (by decide)) ?_
  exact hP3

theorem execGoalWaitExpiry_keeps {P : State → Prop} (C : Keeps [.cnd] P) {client_1 tag_2 s_3} (hP3 : P s_3) : Next P (execGoalWaitExpiry client_1 tag_2 s_3) := by
  unfold execGoalWaitExpiry
  refine next_keeps ?_
  refine fabric_keeps (C.mono (by decide)) ?_ ?_
  · exact hP3
  · intro s0 hS1
    split
    · refine queueAnswer_keeps (C.mono (by decide)) ?_
      refine endReq_keeps (C.mono (by decide)) ?_
      exact hS1
    · exact hS1

theorem takeCorridorWatch_keeps {P : State → Prop} (C : Keeps [.indlog, .regs, .cnd, .log, .queue, .swp, .sec, .bus, .sent, .free] P) {port_1 q_2 s_3} (hP3 : P s_3) : P (takeCorridorWatch port_1 q_2 s_3) := by
  unfold takeCorridorWatch
  refine fabric_keeps (C.mono (by decide)) ?_ ?_
  · exact hP3
  · intro s0 hS1
    refine takeRequest_keeps (C.mono (by decide)) ?_ ?_
    · intro s2 hS3
      split
      · refine answerNow_keeps (C.mono (by decide)) ?_
        refine endReq_keeps (C.mono (by decide)) ?_
        exact hS3
      · exact hS3
      · refine addPending_keeps (C.mono (by decide)) ?_
        exact hS3
    · exact hS1

theorem execCorridorWatch_keeps {P : State → Prop} (C : Keeps [.indlog, .regs, .cnd, .log, .queue, .swp, .sec, .bus, .sent, .free] P) {port_1 q_2 s_3} (hP3 : P s_3) : Next P (execCorridorWatch port_1 q_2 s_3) := by
  unfold execCorridorWatch
  refine next_keeps ?_
  refine takeCorridorWatch_keeps (C.mono (by decide)) ?_
  exact hP3

theorem execCorridorWatchEnd_keeps {P : State → Prop} (C : Keeps [.indlog, .regs, .cnd, .log, .queue, .swp, .sec, .bus, .sent, .free] P) {port_1 q_2 s_3} (hP3 : P s_3) : Next P (execCorridorWatchEnd port_1 q_2 s_3) := by
  unfold execCorridorWatchEnd
  extract_lets -merge -useContext -underBinder +onlyGivenNames q00
  refine next_keeps ?_
  refine fabric_keeps (C.mono (by decide)) ?_ ?_
  · exact hP3
  · intro s1 hS2
    refine takeRequest_keeps (C.mono (by decide)) ?_ ?_
    · intro s3 hS4
      split
      · refine answerNow_keeps (C.mono (by decide)) ?_
        refine endReq_keeps (C.mono (by decide)) ?_
        exact hS4
      · exact hS4
    · exact hS2

theorem takeStart_keeps {P : State → Prop} (C : Keeps [.indlog, .regs, .cnd, .log, .queue, .swp, .sec, .bus, .sent, .free] P) {port_1 q_2 params_3 s_4} (hP4 : P s_4) : P (takeStart port_1 q_2 params_3 s_4) := by
  unfold takeStart
  extract_lets -merge -useContext -underBinder +onlyGivenNames q00
  refine fabric_keeps (C.mono (by decide)) ?_ ?_
  · exact hP4
  · intro s1 hS2
    refine takeRequest_keeps (C.mono (by decide)) ?_ ?_
    · intro s3 hS4
      extract_lets -merge -useContext -underBinder +onlyGivenNames c5 o6 __src7 s18
      have h_s18 : P s18 := by
        unfold s18
        refine C.upd_cnd (by decide) ?_
        exact hS4
      try clear_value s18
      refine sendAnswer_keeps (C.mono (by decide)) ?_
      refine showOp_keeps (C.mono (by decide)) ?_
      refine giveLease_keeps (C.mono (by decide)) ?_
      exact h_s18
    · exact hS2

theorem execStart_keeps {P : State → Prop} (C : Keeps [.indlog, .regs, .cnd, .log, .queue, .swp, .sec, .bus, .sent, .free] P) {port_1 q_2 params_3 s_4} (hP4 : P s_4) : Next P (execStart port_1 q_2 params_3 s_4) := by
  unfold execStart
  refine next_keeps ?_
  refine takeStart_keeps (C.mono (by decide)) ?_
  exact hP4

theorem releaseOpLeases_keeps {P : State → Prop} (C : Keeps [.regs, .cnd] P) {o_1 s_2} (hP2 : P s_2) : P (releaseOpLeases o_1 s_2) := by
  unfold releaseOpLeases
  extract_lets -merge -useContext -underBinder +onlyGivenNames runs0 mine1
  refine foldl_keeps (fun s2 x3 hS4 => ?_) _ _ ?_
  · refine freeLease_keeps (C.mono (by decide)) ?_
    exact hS4
  · exact hP2

theorem suspendNow_keeps {P : State → Prop} (C : Keeps [.indlog, .regs, .cnd, .log, .queue, .sec, .bus, .sent, .free] P) {o_1 s_2} (hP2 : P s_2) : P (suspendNow o_1 s_2) := by
  unfold suspendNow
  extract_lets -merge -useContext -underBinder +onlyGivenNames o'0
  refine sendAnswer_keeps (C.mono (by decide)) ?_
  refine setOp_keeps (C.mono (by decide)) ?_
  refine releaseOpLeases_keeps (C.mono (by decide)) ?_
  exact hP2

theorem takeSuspend_keeps {P : State → Prop} (C : Keeps [.indlog, .regs, .cnd, .log, .queue, .swp, .sec, .bus, .sent, .free] P) {port_1 q_2 s_3} (hP3 : P s_3) : P (takeSuspend port_1 q_2 s_3) := by
  unfold takeSuspend
  extract_lets -merge -useContext -underBinder +onlyGivenNames q00
  refine fabric_keeps (C.mono (by decide)) ?_ ?_
  · exact hP3
  · intro s1 hS2
    refine takeRequest_keeps (C.mono (by decide)) ?_ ?_
    · intro s3 hS4
      split
      · exact hS4
      · extract_lets -merge -useContext -underBinder +onlyGivenNames o'5 s16
        have h_s16 : P s16 := by
          unfold s16
          refine sendAnswer_keeps (C.mono (by decide)) ?_
          refine setOp_keeps (C.mono (by decide)) ?_
          exact hS4
        try clear_value s16
        refine ite_keeps ?_ ?_
        · exact h_s16
        · refine suspendNow_keeps (C.mono (by decide)) ?_
          exact h_s16
    · exact hS2

theorem execSuspend_keeps {P : State → Prop} (C : Keeps [.indlog, .regs, .cnd, .log, .queue, .swp, .sec, .bus, .sent, .free] P) {port_1 q_2 s_3} (hP3 : P s_3) : Next P (execSuspend port_1 q_2 s_3) := by
  unfold execSuspend
  refine next_keeps ?_
  refine takeSuspend_keeps (C.mono (by decide)) ?_
  exact hP3

theorem takeResume_keeps {P : State → Prop} (C : Keeps [.indlog, .regs, .cnd, .log, .queue, .swp, .sec, .bus, .sent, .free] P) {port_1 q_2 s_3} (hP3 : P s_3) : P (takeResume port_1 q_2 s_3) := by
  unfold takeResume
  extract_lets -merge -useContext -underBinder +onlyGivenNames q00
  refine fabric_keeps (C.mono (by decide)) ?_ ?_
  · exact hP3
  · intro s1 hS2
    refine takeRequest_keeps (C.mono (by decide)) ?_ ?_
    · intro s3 hS4
      split
      · exact hS4
      · extract_lets -merge -useContext -underBinder +onlyGivenNames o'5
        refine sendAnswer_keeps (C.mono (by decide)) ?_
        refine setOp_keeps (C.mono (by decide)) ?_
        exact hS4
    · exact hS2

theorem execResume_keeps {P : State → Prop} (C : Keeps [.indlog, .regs, .cnd, .log, .queue, .swp, .sec, .bus, .sent, .free] P) {port_1 q_2 s_3} (hP3 : P s_3) : Next P (execResume port_1 q_2 s_3) := by
  unfold execResume
  refine next_keeps ?_
  refine takeResume_keeps (C.mono (by decide)) ?_
  exact hP3

theorem beginCancel_keeps {P : State → Prop} (C : Keeps [.regs, .cnd, .mem] P) {o_1 s_2} (hP2 : P s_2) : P (beginCancel o_1 s_2) := by
  unfold beginCancel
  extract_lets -merge -useContext -underBinder +onlyGivenNames o'0
  refine beginWipe_keeps (C.mono (by decide)) ?_
  refine setOp_keeps (C.mono (by decide)) ?_
  refine releaseOpLeases_keeps (C.mono (by decide)) ?_
  exact hP2

theorem takeCancel_keeps {P : State → Prop} (C : Keeps [.indlog, .regs, .cnd, .log, .queue, .mem, .swp, .sec, .bus, .sent, .free] P) {port_1 q_2 s_3} (hP3 : P s_3) : P (takeCancel port_1 q_2 s_3) := by
  unfold takeCancel
  extract_lets -merge -useContext -underBinder +onlyGivenNames q00
  refine fabric_keeps (C.mono (by decide)) ?_ ?_
  · exact hP3
  · intro s1 hS2
    refine takeRequest_keeps (C.mono (by decide)) ?_ ?_
    · intro s3 hS4
      split
      · exact hS4
      · refine beginCancel_keeps (C.mono (by decide)) ?_
        exact hS4
    · exact hS2

theorem execCancel_keeps {P : State → Prop} (C : Keeps [.indlog, .regs, .cnd, .log, .queue, .mem, .swp, .sec, .bus, .sent, .free] P) {port_1 q_2 s_3} (hP3 : P s_3) : Next P (execCancel port_1 q_2 s_3) := by
  unfold execCancel
  refine next_keeps ?_
  refine takeCancel_keeps (C.mono (by decide)) ?_
  exact hP3

theorem takeQuery_keeps {P : State → Prop} (C : Keeps [.indlog, .regs, .log, .queue, .swp, .sec, .bus, .sent, .free] P) {port_1 q_2 s_3} (hP3 : P s_3) : P (takeQuery port_1 q_2 s_3) := by
  unfold takeQuery
  extract_lets -merge -useContext -underBinder +onlyGivenNames q00
  refine fabric_keeps (C.mono (by decide)) ?_ ?_
  · exact hP3
  · intro s1 hS2
    refine takeRequest_keeps (C.mono (by decide)) ?_ ?_
    · intro s3 hS4
      refine answerNow_keeps (C.mono (by decide)) ?_
      exact hS4
    · exact hS2

theorem execQuery_keeps {P : State → Prop} (C : Keeps [.indlog, .regs, .log, .queue, .swp, .sec, .bus, .sent, .free] P) {port_1 q_2 s_3} (hP3 : P s_3) : Next P (execQuery port_1 q_2 s_3) := by
  unfold execQuery
  refine next_keeps ?_
  refine takeQuery_keeps (C.mono (by decide)) ?_
  exact hP3

theorem execWorkUnitTimeout_keeps {P : State → Prop} (C : Keeps [.indlog, .regs, .cnd, .log, .queue, .mem, .sec, .bus, .sent, .free] P) {ctx_1 s_2} (hP2 : P s_2) : Next P (execWorkUnitTimeout ctx_1 s_2) := by
  unfold execWorkUnitTimeout
  refine next_keeps ?_
  refine fabric_keeps (C.mono (by decide)) ?_ ?_
  · exact hP2
  · intro s0 hS1
    split
    · refine abandonUnit_keeps (C.mono (by decide)) ?_
      exact hS1
    · exact hS1

theorem revokeRequests_keeps {P : State → Prop} (C : Keeps [.regs, .cnd] P) {s_1} (hP1 : P s_1) : P (revokeRequests s_1) := by
  unfold revokeRequests
  extract_lets -merge -useContext -underBinder +onlyGivenNames s10 answers1 __src2 s23
  have h_s10 : P s10 := by
    unfold s10
    refine foldl_keeps (fun s4 x5 hS6 => ?_) _ _ ?_
    · refine queueAnswer_keeps (C.mono (by decide)) ?_
      exact hS6
    · exact hP1
  try clear_value s10
  have h_s23 : P s23 := by
    unfold s23
    refine C.upd_cnd (by decide) ?_
    exact h_s10
  try clear_value s23
  refine foldl_keeps (fun s7 x8 hS9 => ?_) _ _ ?_
  · refine showOp_keeps (C.mono (by decide)) ?_
    exact hS9
  · exact h_s23

theorem opsEdge_keeps {P : State → Prop} (C : Keeps [.regs, .cnd] P) {s_1} (hP1 : P s_1) : P (opsEdge s_1) := by
  unfold opsEdge
  extract_lets -merge -useContext -underBinder +onlyGivenNames go0
  refine foldl_keeps (fun s1 x2 hS3 => ?_) _ _ ?_
  · refine showOp_keeps (C.mono (by decide)) ?_
    exact hS3
  · refine C.upd_cnd (by decide) ?_
    exact hP1

end Sys2Proof.Machine
end

