-- ==== Sys2Proof/Laws/KeepsWorld.lean ====
section
/-! SUPPORT. Laws/KeepsWorld.lean: which parts of the state the functions of Machine/Ingress, WorldRows, Inference, Memory write: for each of
them, that a property which survives changes of those parts survives the function (Laws/Keeps.lean). -/

set_option Elab.async false

set_option linter.unusedVariables false

namespace Sys2Proof.Machine

theorem modStream_keeps {P : State → Prop} (C : Keeps [.ing] P) {n_1 f_2 s_3} (hP3 : P s_3) : P (modStream n_1 f_2 s_3) := by
  unfold modStream
  refine C.upd_ing (by decide) ?_
  exact hP3

theorem fifoTake_keeps {P : State → Prop} (C : Keeps [.fifo] P) {i_1 s_2} (hP2 : P s_2) : P (fifoTake i_1 s_2).2 := by
  unfold fifoTake
  extract_lets -merge -useContext -underBinder +onlyGivenNames f0 n1
  split
  · try dsimp only
    refine C.upd_fifo (by decide) ?_
    exact hP2
  · try dsimp only
    refine C.upd_fifo (by decide) ?_
    exact hP2

theorem throughFifo_keeps {P : State → Prop} (C : Keeps [.indlog, .regs, .log, .queue, .fifo] P) {i_1 n_2 f_3 s_4} (hP3 : ∀ z1, P z1 → P (f_3 z1)) (hP4 : P s_4) : P (throughFifo i_1 n_2 f_3 s_4) := by
  unfold throughFifo
  extract_lets -merge -useContext -underBinder +onlyGivenNames r0
  have h_r0 : P r0.2 := by
    unfold r0
    refine fifoTake_keeps (C.mono (by decide)) ?_
    exact hP4
  try clear_value r0
  refine ite_keeps ?_ ?_
  · refine hP3 _ ?_
    exact h_r0
  · refine report_keeps (C.mono (by decide)) ?_
    refine bump_keeps (C.mono (by decide)) ?_
    exact h_r0

theorem heldBack_keeps {P : State → Prop} (C : Keeps [.fifo] P) {i_1 f_2 s_3} (hP2 : ∀ z1, P z1 → P (f_2 z1)) (hP3 : P s_3) : P (heldBack i_1 f_2 s_3) := by
  unfold heldBack
  extract_lets -merge -useContext -underBinder +onlyGivenNames r0
  have h_r0 : P r0.2 := by
    unfold r0
    refine fifoTake_keeps (C.mono (by decide)) ?_
    exact hP3
  try clear_value r0
  refine ite_keeps ?_ ?_
  · refine hP2 _ ?_
    exact h_r0
  · exact hP3

theorem storeSample_keeps {P : State → Prop} (C : Keeps [.indlog, .regs, .ing, .wld, .log, .queue, .mem, .data] P) {n_1 bytes_2 s_3} (hP3 : P s_3) : P (storeSample n_1 bytes_2 s_3) := by
  unfold storeSample
  extract_lets -merge -useContext -underBinder +onlyGivenNames r0 t1 put2
  have h_put2 : ∀ o3 len4 s5, P s5 → P (put2 o3 len4 s5) := by
    intro o3 len4 s5 hS6
    unfold put2
    refine writeBytes_keeps (C.mono (by decide)) ?_
    exact hS6
  clear_value put2
  refine ite_keeps ?_ ?_
  · exact hP3
  · refine ite_keeps ?_ ?_
    · extract_lets -merge -useContext -underBinder +onlyGivenNames b7
      refine modStream_keeps (C.mono (by decide)) ?_
      refine h_put2 _ _ _ ?_
      exact hP3
    · extract_lets -merge -useContext -underBinder +onlyGivenNames o8
      refine modStream_keeps (C.mono (by decide)) ?_
      refine h_put2 _ _ _ ?_
      exact hP3

theorem joinSlice_keeps {P : State → Prop} (C : Keeps [.wld] P) {n_1 x_2 s_3} (hP3 : P s_3) : P (joinSlice n_1 x_2 s_3) := by
  unfold joinSlice
  extract_lets -merge -useContext -underBinder +onlyGivenNames q0 mine1 join2
  refine C.upd_wld (by decide) ?_
  exact hP3

theorem travSample_keeps {P : State → Prop} (C : Keeps [.ing, .cnd] P) {n_1 s_2} (hP2 : P s_2) : P (travSample n_1 s_2) := by
  unfold travSample
  extract_lets -merge -useContext -underBinder +onlyGivenNames k0 s11
  have h_s11 : P s11 := by
    unfold s11
    refine modStream_keeps (C.mono (by decide)) ?_
    exact hP2
  try clear_value s11
  refine ite_keeps ?_ ?_
  · refine raiseFlags_keeps (C.mono (by decide)) ?_
    exact h_s11
  · exact h_s11

theorem takeIn_keeps {P : State → Prop} (C : Keeps [.indlog, .regs, .ing, .cnd, .wld, .log, .queue, .mem, .data] P) {n_1 x_2 s0_3} (hP3 : P s0_3) : P (takeIn n_1 x_2 s0_3) := by
  unfold takeIn
  extract_lets -merge -useContext -underBinder +onlyGivenNames s0 edge1 put2 s13 s24
  have h_s0 : P s0 := by
    unfold s0
    refine travSample_keeps (C.mono (by decide)) ?_
    exact hP3
  try clear_value s0
  have h_s13 : P s13 := by
    unfold s13
    refine modStream_keeps (C.mono (by decide)) ?_
    refine storeSample_keeps (C.mono (by decide)) ?_
    exact h_s0
  try clear_value s13
  have h_s24 : P s24 := by
    unfold s24
    refine ite_keeps ?_ ?_
    · refine joinSlice_keeps (C.mono (by decide)) ?_
      exact h_s13
    · exact h_s13
  try clear_value s24
  refine setFlag_keeps (C.mono (by decide)) ?_
  refine setFld_keeps (C.mono (by decide)) ?_
  exact h_s24

theorem deliver_keeps {P : State → Prop} (C : Keeps [.indlog, .regs, .ing, .cnd, .wld, .log, .queue, .mem, .data] P) {n_1 x_2 s_3} (hP3 : P s_3) : P (deliver n_1 x_2 s_3) := by
  unfold deliver
  refine ite_keeps ?_ ?_
  · refine report_keeps (C.mono (by decide)) ?_
    refine bump_keeps (C.mono (by decide)) ?_
    exact hP3
  · refine ite_keeps ?_ ?_
    · exact hP3
    · refine ite_keeps ?_ ?_
      · refine report_keeps (C.mono (by decide)) ?_
        refine bump_keeps (C.mono (by decide)) ?_
        exact hP3
      · refine takeIn_keeps (C.mono (by decide)) ?_
        exact hP3

theorem deliverOwn_keeps {P : State → Prop} (C : Keeps [.indlog, .regs, .ing, .cnd, .wld, .log, .queue, .mem, .data, .twin, .sent] P) {n_1 x_2 s_3} (hP3 : P s_3) : P (deliverOwn n_1 x_2 s_3) := by
  unfold deliverOwn
  extract_lets -merge -useContext -underBinder +onlyGivenNames s10
  have h_s10 : P s10 := by
    unfold s10
    refine deliver_keeps (C.mono (by decide)) ?_
    exact hP3
  try clear_value s10
  refine ite_keeps ?_ ?_
  · refine sendSealed_keeps (C.mono (by decide)) ?_
    exact h_s10
  · exact h_s10

theorem clearFilling_keeps {P : State → Prop} (C : Keeps [.ing] P) {n_1 s_2} (hP2 : P s_2) : P (clearFilling n_1 s_2) := by
  unfold clearFilling
  refine modStream_keeps (C.mono (by decide)) ?_
  exact hP2

theorem hear_keeps {P : State → Prop} (C : Keeps [.ing] P) {n_1 s_2} (hP2 : P s_2) : P (hear n_1 s_2) := by
  unfold hear
  refine modStream_keeps (C.mono (by decide)) ?_
  exact hP2

theorem unmapped_keeps {P : State → Prop} (C : Keeps [.regs] P) {port_1 s_2} (hP2 : P s_2) : P (unmapped port_1 s_2) := by
  unfold unmapped
  refine bump_keeps (C.mono (by decide)) ?_
  exact hP2

theorem onChannel_keeps {P : State → Prop} (C : Keeps [.indlog, .regs, .log, .queue, .fifo] P) {port_1 vc_2 f_3 s_4} (hP3 : ∀ z1 z2, P z2 → P (f_3 z1 z2)) (hP4 : P s_4) : P (onChannel port_1 vc_2 f_3 s_4) := by
  unfold onChannel
  split
  · refine unmapped_keeps (C.mono (by decide)) ?_
    exact hP4
  · refine ite_keeps ?_ ?_
    · refine throughFifo_keeps (C.mono (by decide)) ?_ ?_
      · intro a0 hS1
        refine hP3 _ _ ?_
        exact hS1
      · exact hP4
    · exact hP4

theorem dropImage_keeps {P : State → Prop} (C : Keeps [.regs] P) {n_1 s_2} (hP2 : P s_2) : P (dropImage n_1 s_2) := by
  unfold dropImage
  split
  · refine ite_keeps ?_ ?_
    · refine bump_keeps (C.mono (by decide)) ?_
      exact hP2
    · exact hP2
  · exact hP2

theorem execFrameStart_keeps {P : State → Prop} (C : Keeps [.indlog, .regs, .ing, .log, .queue, .fifo] P) {port_1 vc_2 s_3} (hP3 : P s_3) : Next P (execFrameStart port_1 vc_2 s_3) := by
  unfold execFrameStart
  refine next_keeps ?_
  refine live_keeps (C.mono (by decide)) ?_ ?_
  · exact hP3
  · intro s0 hS1
    refine onChannel_keeps (C.mono (by decide)) ?_ ?_
    · intro n2 s3 hS4
      refine modStream_keeps (C.mono (by decide)) ?_
      refine dropImage_keeps (C.mono (by decide)) ?_
      exact hS4
    · exact hS1

theorem execCsi2Packet_keeps {P : State → Prop} (C : Keeps [.indlog, .regs, .ing, .log, .queue, .fifo] P) {port_1 vc_2 dt_3 hdr_4 crcOk_5 payload_6 s_7} (hP7 : P s_7) : Next P (execCsi2Packet port_1 vc_2 dt_3 hdr_4 crcOk_5 payload_6 s_7) := by
  unfold execCsi2Packet
  refine next_keeps ?_
  refine live_keeps (C.mono (by decide)) ?_ ?_
  · exact hP7
  · intro s0 hS1
    refine onChannel_keeps (C.mono (by decide)) ?_ ?_
    · intro n2 s3 hS4
      extract_lets -merge -useContext -underBinder +onlyGivenNames spoil5 take6 lines7
      have h_spoil5 : ∀ s8, P s8 → P (spoil5 s8) := by
        intro s8 hS9
        unfold spoil5
        refine modStream_keeps (C.mono (by decide)) ?_
        exact hS9
      clear_value spoil5
      have h_take6 : ∀ s10, P s10 → P (take6 s10) := by
        intro s10 hS11
        unfold take6
        refine modStream_keeps (C.mono (by decide)) ?_
        exact hS11
      clear_value take6
      refine ite_keeps ?_ ?_
      · refine h_spoil5 _ ?_
        exact hS4
      · refine ite_keeps ?_ ?_
        · exact hS4
        · extract_lets -merge -useContext -underBinder +onlyGivenNames s112
          have h_s112 : P s112 := by
            unfold s112
            refine ite_keeps ?_ ?_
            · exact hS4
            · refine h_spoil5 _ ?_
              exact hS4
          try clear_value s112
          split
          · refine bump_keeps (C.mono (by decide)) ?_
            exact h_s112
          · refine ite_keeps ?_ ?_
            · exact h_s112
            · refine ite_keeps ?_ ?_
              · refine bump_keeps (C.mono (by decide)) ?_
                exact h_s112
              · refine h_take6 _ ?_
                exact h_s112
    · exact hS1

theorem execFrameEnd_keeps {P : State → Prop} (C : Keeps [.indlog, .regs, .ing, .cnd, .wld, .log, .queue, .mem, .data, .twin, .fifo, .sent] P) {port_1 vc_2 s_3} (hP3 : P s_3) : Next P (execFrameEnd port_1 vc_2 s_3) := by
  unfold execFrameEnd
  refine next_keeps ?_
  refine live_keeps (C.mono (by decide)) ?_ ?_
  · exact hP3
  · intro s0 hS1
    refine onChannel_keeps (C.mono (by decide)) ?_ ?_
    · intro n2 s3 hS4
      split
      · exact hS4
      · extract_lets -merge -useContext -underBinder +onlyGivenNames s15
        have h_s15 : P s15 := by
          unfold s15
          refine clearFilling_keeps (C.mono (by decide)) ?_
          exact hS4
        try clear_value s15
        refine ite_keeps ?_ ?_
        · refine bump_keeps (C.mono (by decide)) ?_
          exact h_s15
        · refine deliverOwn_keeps (C.mono (by decide)) ?_
          exact h_s15
    · exact hS1

theorem execLidarPacket_keeps {P : State → Prop} (C : Keeps [.indlog, .regs, .ing, .cnd, .wld, .log, .queue, .mem, .data, .twin, .fifo, .sent] P) {port_1 p_2 s_3} (hP3 : P s_3) : Next P (execLidarPacket port_1 p_2 s_3) := by
  unfold execLidarPacket
  refine next_keeps ?_
  refine live_keeps (C.mono (by decide)) ?_ ?_
  · exact hP3
  · intro s0 hS1
    refine ite_keeps ?_ ?_
    · exact hS1
    · refine ite_keeps ?_ ?_
      · refine bump_keeps (C.mono (by decide)) ?_
        exact hS1
      · split
        · exact hS1
        · refine throughFifo_keeps (C.mono (by decide)) ?_ ?_
          · intro s2 hS3
            refine deliverOwn_keeps (C.mono (by decide)) ?_
            refine bumpBy_keeps (C.mono (by decide)) ?_
            exact hS3
          · exact hS1

theorem execImuDrdy_keeps {P : State → Prop} (C : Keeps [.regs, .ing] P) {n_1 s_2} (hP2 : P s_2) : Next P (execImuDrdy n_1 s_2) := by
  unfold execImuDrdy
  extract_lets -merge -useContext -underBinder +onlyGivenNames k0
  refine next_keeps ?_
  refine live_keeps (C.mono (by decide)) ?_ ?_
  · exact hP2
  · intro s1 hS2
    refine ite_keeps ?_ ?_
    · exact hS2
    · refine ite_keeps ?_ ?_
      · refine hear_keeps (C.mono (by decide)) ?_
        refine bump_keeps (C.mono (by decide)) ?_
        exact hS2
      · refine hear_keeps (C.mono (by decide)) ?_
        refine modStream_keeps (C.mono (by decide)) ?_
        exact hS2

theorem execImuBurstDone_keeps {P : State → Prop} (C : Keeps [.indlog, .regs, .ing, .cnd, .wld, .log, .queue, .mem, .data, .twin, .sent] P) {n_1 bytes_2 sumOk_3 s_4} (hP4 : P s_4) : Next P (execImuBurstDone n_1 bytes_2 sumOk_3 s_4) := by
  unfold execImuBurstDone
  extract_lets -merge -useContext -underBinder +onlyGivenNames k0
  refine next_keeps ?_
  refine live_keeps (C.mono (by decide)) ?_ ?_
  · exact hP4
  · intro s1 hS2
    split
    · exact hS2
    · extract_lets -merge -useContext -underBinder +onlyGivenNames s13
      have h_s13 : P s13 := by
        unfold s13
        refine clearFilling_keeps (C.mono (by decide)) ?_
        exact hS2
      try clear_value s13
      refine ite_keeps ?_ ?_
      · refine bump_keeps (C.mono (by decide)) ?_
        exact h_s13
      · refine deliverOwn_keeps (C.mono (by decide)) ?_
        exact h_s13

theorem execNmeaSentence_keeps {P : State → Prop} (C : Keeps [.time, .indlog, .regs, .ing, .cnd, .wld, .log, .queue, .mem, .data, .twin, .fifo, .sent] P) {n_1 m_2 s_3} (hP3 : P s_3) : Next P (execNmeaSentence n_1 m_2 s_3) := by
  unfold execNmeaSentence
  extract_lets -merge -useContext -underBinder +onlyGivenNames k0
  refine next_keeps ?_
  refine live_keeps (C.mono (by decide)) ?_ ?_
  · exact hP3
  · intro s1 hS2
    refine ite_keeps ?_ ?_
    · exact hS2
    · refine throughFifo_keeps (C.mono (by decide)) ?_ ?_
      · intro s3 hS4
        refine ite_keeps ?_ ?_
        · refine bump_keeps (C.mono (by decide)) ?_
          exact hS4
        · refine ite_keeps ?_ ?_
          · refine bump_keeps (C.mono (by decide)) ?_
            exact hS4
          · extract_lets -merge -useContext -underBinder +onlyGivenNames __src5 s16 old7 f8
            have h_s16 : P s16 := by
              unfold s16
              refine ite_keeps ?_ ?_
              · refine C.upd_time (by decide) ?_
                exact hS4
              · exact hS4
            try clear_value s16
            refine ite_keeps ?_ ?_
            · refine modStream_keeps (C.mono (by decide)) ?_
              exact h_s16
            · extract_lets -merge -useContext -underBinder +onlyGivenNames stamp9
              refine deliverOwn_keeps (C.mono (by decide)) ?_
              refine clearFilling_keeps (C.mono (by decide)) ?_
              refine hear_keeps (C.mono (by decide)) ?_
              exact h_s16
      · exact hS2

theorem sendSetup_keeps {P : State → Prop} (C : Keeps [.sent] P) {s_1} (hP1 : P s_1) : P (sendSetup s_1) := by
  unfold sendSetup
  refine foldl_keeps (fun s0 x1 hS2 => ?_) _ _ ?_
  · refine ite_keeps ?_ ?_
    · exact hS2
    · refine send_keeps (C.mono (by decide)) ?_
      exact hS2
  · exact hP1

theorem takeSource_keeps {P : State → Prop} (C : Keeps [.time, .indlog, .regs, .log, .queue] P) {s_1} (hP1 : P s_1) : P (takeSource s_1) := by
  unfold takeSource
  extract_lets -merge -useContext -underBinder +onlyGivenNames c0 locked1 s12 s23
  have h_s12 : P s12 := by
    unfold s12
    refine ite_keeps ?_ ?_
    · refine report_keeps (C.mono (by decide)) ?_
      exact hP1
    · exact hP1
  try clear_value s12
  have h_s23 : P s23 := by
    unfold s23
    refine setFld_keeps (C.mono (by decide)) ?_
    refine setFld_keeps (C.mono (by decide)) ?_
    refine setFlag_keeps (C.mono (by decide)) ?_
    exact h_s12
  try clear_value s23
  refine ite_keeps ?_ ?_
  · refine setFld_keeps (C.mono (by decide)) ?_
    refine C.upd_time (by decide) ?_
    exact h_s23
  · refine ite_keeps ?_ ?_
    · exact h_s23
    · refine setFld_keeps (C.mono (by decide)) ?_
      refine C.upd_time (by decide) ?_
      exact h_s23

theorem discipline_keeps {P : State → Prop} (C : Keeps [.time, .regs, .free] P) {rateErr_1 taiNs_2 s_3} (hP3 : P s_3) : P (discipline rateErr_1 taiNs_2 s_3) := by
  unfold discipline
  split
  rename_i k0 s01 he2
  have hm3 : P s01 := by
    have e := (congrArg Prod.snd he2)
    try dsimp only at e
    rw [← e]
    refine nextFree_keeps (C.mono (by decide)) ?_
    exact hP3
  extract_lets -merge -useContext -underBinder +onlyGivenNames rest4 most5 step6 trim7 ofs8 w9
  refine setFld_keeps (C.mono (by decide)) ?_
  refine setFld_keeps (C.mono (by decide)) ?_
  refine setFld_keeps (C.mono (by decide)) ?_
  refine C.upd_time (by decide) ?_
  exact hm3

theorem ppsBad_keeps {P : State → Prop} (C : Keeps [.time] P) {n_1 s_2} (hP2 : P s_2) : P (ppsBad n_1 s_2) := by
  unfold ppsBad
  extract_lets -merge -useContext -underBinder +onlyGivenNames miss0 lost1
  refine C.upd_time (by decide) ?_
  exact hP2

theorem ppsGood_keeps {P : State → Prop} (C : Keeps [.time] P) {n_1 s_2} (hP2 : P s_2) : P (ppsGood n_1 s_2) := by
  unfold ppsGood
  refine C.upd_time (by decide) ?_
  exact hP2

theorem execPpsEdge_keeps {P : State → Prop} (C : Keeps [.time, .indlog, .regs, .log, .queue, .free] P) {n_1 o_2 s_3} (hP3 : P s_3) : Next P (execPpsEdge n_1 o_2 s_3) := by
  unfold execPpsEdge
  refine next_keeps ?_
  refine live_keeps (C.mono (by decide)) ?_ ?_
  · exact hP3
  · intro s0 hS1
    refine ite_keeps ?_ ?_
    · exact hS1
    · split
      · refine C.upd_time (by decide) ?_
        exact hS1
      · extract_lets -merge -useContext -underBinder +onlyGivenNames d2
        refine ite_keeps ?_ ?_
        · extract_lets -merge -useContext -underBinder +onlyGivenNames s13
          have h_s13 : P s13 := by
            unfold s13
            refine takeSource_keeps (C.mono (by decide)) ?_
            refine ppsGood_keeps (C.mono (by decide)) ?_
            exact hS1
          try clear_value s13
          refine ite_keeps ?_ ?_
          · refine discipline_keeps (C.mono (by decide)) ?_
            exact h_s13
          · exact h_s13
        · refine takeSource_keeps (C.mono (by decide)) ?_
          refine ppsBad_keeps (C.mono (by decide)) ?_
          refine bump_keeps (C.mono (by decide)) ?_
          exact hS1

theorem execPpsMissing_keeps {P : State → Prop} (C : Keeps [.time, .indlog, .regs, .log, .queue] P) {n_1 s_2} (hP2 : P s_2) : Next P (execPpsMissing n_1 s_2) := by
  unfold execPpsMissing
  refine next_keeps ?_
  refine live_keeps (C.mono (by decide)) ?_ ?_
  · exact hP2
  · intro s0 hS1
    refine takeSource_keeps (C.mono (by decide)) ?_
    refine ppsBad_keeps (C.mono (by decide)) ?_
    exact hS1

theorem execGptpSync_keeps {P : State → Prop} (C : Keeps [.time, .indlog, .regs, .log, .queue, .free] P) {port_1 o_2 s_3} (hP3 : P s_3) : Next P (execGptpSync port_1 o_2 s_3) := by
  unfold execGptpSync
  refine next_keeps ?_
  refine live_keeps (C.mono (by decide)) ?_ ?_
  · exact hP3
  · intro s0 hS1
    refine ite_keeps ?_ ?_
    · exact hS1
    · extract_lets -merge -useContext -underBinder +onlyGivenNames __src2 s13
      have h_s13 : P s13 := by
        unfold s13
        refine takeSource_keeps (C.mono (by decide)) ?_
        refine C.upd_time (by decide) ?_
        exact hS1
      try clear_value s13
      refine ite_keeps ?_ ?_
      · refine discipline_keeps (C.mono (by decide)) ?_
        exact h_s13
      · exact h_s13

theorem execGptpSyncTimer_keeps {P : State → Prop} (C : Keeps [.sent] P) {port_1 s_2} (hP2 : P s_2) : Next P (execGptpSyncTimer port_1 s_2) := by
  unfold execGptpSyncTimer
  refine next_keeps ?_
  refine live_keeps (C.mono (by decide)) ?_ ?_
  · exact hP2
  · intro s0 hS1
    refine ite_keeps ?_ ?_
    · exact hS1
    · extract_lets -merge -useContext -underBinder +onlyGivenNames ofs2
      refine send_keeps (C.mono (by decide)) ?_
      exact hS1

theorem execGptpSyncTimeout_keeps {P : State → Prop} (C : Keeps [.time, .indlog, .regs, .log, .queue] P) {port_1 s_2} (hP2 : P s_2) : Next P (execGptpSyncTimeout port_1 s_2) := by
  unfold execGptpSyncTimeout
  refine next_keeps ?_
  refine live_keeps (C.mono (by decide)) ?_ ?_
  · exact hP2
  · intro s0 hS1
    refine ite_keeps ?_ ?_
    · exact hS1
    · refine takeSource_keeps (C.mono (by decide)) ?_
      refine C.upd_time (by decide) ?_
      exact hS1

theorem execPeerDelayTimer_keeps {P : State → Prop} (C : Keeps [.time, .sent] P) {port_1 delayNs_2 s_3} (hP3 : P s_3) : Next P (execPeerDelayTimer port_1 delayNs_2 s_3) := by
  unfold execPeerDelayTimer
  refine next_keeps ?_
  refine live_keeps (C.mono (by decide)) ?_ ?_
  · exact hP3
  · intro s0 hS1
    refine send_keeps (C.mono (by decide)) ?_
    refine C.upd_time (by decide) ?_
    exact hS1

theorem execArpRequest_keeps {P : State → Prop} (C : Keeps [.sent] P) {port_1 v6_2 target_3 s_4} (hP4 : P s_4) : Next P (execArpRequest port_1 v6_2 target_3 s_4) := by
  unfold execArpRequest
  refine next_keeps ?_
  refine live_keeps (C.mono (by decide)) ?_ ?_
  · exact hP4
  · intro s0 hS1
    refine ite_keeps ?_ ?_
    · refine send_keeps (C.mono (by decide)) ?_
      exact hS1
    · exact hS1

theorem dropPartial_keeps {P : State → Prop} (C : Keeps [.regs, .ing, .bus] P) {n_1 s_2} (hP2 : P s_2) : P (dropPartial n_1 s_2) := by
  unfold dropPartial
  extract_lets -merge -useContext -underBinder +onlyGivenNames tp0 k1
  refine ite_keeps ?_ ?_
  · exact hP2
  · refine bumpBy_keeps (C.mono (by decide)) ?_
    refine clearFilling_keeps (C.mono (by decide)) ?_
    refine C.upd_bus (by decide) ?_
    exact hP2

theorem linkLost_keeps {P : State → Prop} (C : Keeps [.indlog, .regs, .ing, .log, .queue, .bus] P) {n_1 s_2} (hP2 : P s_2) : P (linkLost n_1 s_2) := by
  unfold linkLost
  extract_lets -merge -useContext -underBinder +onlyGivenNames s20
  have h_s20 : P s20 := by
    unfold s20
    refine setFlag_keeps (C.mono (by decide)) ?_
    refine dropPartial_keeps (C.mono (by decide)) ?_
    exact hP2
  try clear_value s20
  refine ite_keeps ?_ ?_
  · exact h_s20
  · refine report_keeps (C.mono (by decide)) ?_
    refine modStream_keeps (C.mono (by decide)) ?_
    exact h_s20

theorem execLinkLost_keeps {P : State → Prop} (C : Keeps [.indlog, .regs, .ing, .log, .queue, .bus] P) {stream_1 s_2} (hP2 : P s_2) : Next P (execLinkLost stream_1 s_2) := by
  unfold execLinkLost
  refine next_keeps ?_
  refine live_keeps (C.mono (by decide)) ?_ ?_
  · exact hP2
  · intro s0 hS1
    refine ite_keeps ?_ ?_
    · refine linkLost_keeps (C.mono (by decide)) ?_
      exact hS1
    · exact hS1

theorem execLinkReturned_keeps {P : State → Prop} (C : Keeps [.indlog, .regs, .ing, .log, .queue] P) {stream_1 s_2} (hP2 : P s_2) : Next P (execLinkReturned stream_1 s_2) := by
  unfold execLinkReturned
  extract_lets -merge -useContext -underBinder +onlyGivenNames n0
  refine next_keeps ?_
  refine live_keeps (C.mono (by decide)) ?_ ?_
  · exact hP2
  · intro s1 hS2
    extract_lets -merge -useContext -underBinder +onlyGivenNames s13
    have h_s13 : P s13 := by
      unfold s13
      refine setFlag_keeps (C.mono (by decide)) ?_
      refine hear_keeps (C.mono (by decide)) ?_
      exact hS2
    try clear_value s13
    refine ite_keeps ?_ ?_
    · refine report_keeps (C.mono (by decide)) ?_
      refine modStream_keeps (C.mono (by decide)) ?_
      exact h_s13
    · exact h_s13

theorem enableStream_keeps {P : State → Prop} (C : Keeps [.regs, .ing] P) {n_1 at0_2 heard_3 s_4} (hP4 : P s_4) : P (enableStream n_1 at0_2 heard_3 s_4) := by
  unfold enableStream
  refine setFld_keeps (C.mono (by decide)) ?_
  refine modStream_keeps (C.mono (by decide)) ?_
  exact hP4

theorem execTestPeriod_keeps {P : State → Prop} (C : Keeps [.ing] P) {stream_1 s_2} (hP2 : P s_2) : Next P (execTestPeriod stream_1 s_2) := by
  unfold execTestPeriod
  extract_lets -merge -useContext -underBinder +onlyGivenNames n0
  refine next_keeps ?_
  refine live_keeps (C.mono (by decide)) ?_ ?_
  · exact hP2
  · intro s1 hS2
    extract_lets -merge -useContext -underBinder +onlyGivenNames t3 k4
    refine ite_keeps ?_ ?_
    · refine modStream_keeps (C.mono (by decide)) ?_
      exact hS2
    · exact hS2

theorem execTestItemInject_keeps {P : State → Prop} (C : Keeps [.ing] P) {stream_1 s_2} (hP2 : P s_2) : Next P (execTestItemInject stream_1 s_2) := by
  unfold execTestItemInject
  extract_lets -merge -useContext -underBinder +onlyGivenNames n0
  refine next_keeps ?_
  refine live_keeps (C.mono (by decide)) ?_ ?_
  · exact hP2
  · intro s1 hS2
    refine ite_keeps ?_ ?_
    · refine modStream_keeps (C.mono (by decide)) ?_
      exact hS2
    · exact hS2

theorem testPassed_keeps {P : State → Prop} (C : Keeps [.indlog, .regs, .ing, .log, .queue] P) {n_1 s_2} (hP2 : P s_2) : P (testPassed n_1 s_2) := by
  unfold testPassed
  extract_lets -merge -useContext -underBinder +onlyGivenNames s10
  have h_s10 : P s10 := by
    unfold s10
    refine setFld_keeps (C.mono (by decide)) ?_
    refine modStream_keeps (C.mono (by decide)) ?_
    exact hP2
  try clear_value s10
  refine ite_keeps ?_ ?_
  · refine report_keeps (C.mono (by decide)) ?_
    refine setFlag_keeps (C.mono (by decide)) ?_
    exact h_s10
  · exact h_s10

theorem testFailed_keeps {P : State → Prop} (C : Keeps [.indlog, .regs, .ing, .frame, .log, .queue] P) {n_1 expected_2 observed_3 s_4} (hP4 : P s_4) : P (testFailed n_1 expected_2 observed_3 s_4) := by
  unfold testFailed
  extract_lets -merge -useContext -underBinder +onlyGivenNames s10 s21
  have h_s10 : P s10 := by
    unfold s10
    refine doubtEvent_keeps (C.mono (by decide)) ?_
    exact hP4
  try clear_value s10
  have h_s21 : P s21 := by
    unfold s21
    refine setFlag_keeps (C.mono (by decide)) ?_
    refine setFld_keeps (C.mono (by decide)) ?_
    refine modStream_keeps (C.mono (by decide)) ?_
    exact h_s10
  try clear_value s21
  refine ite_keeps ?_ ?_
  · refine setMaskBit_keeps (C.mono (by decide)) ?_
    exact h_s21
  · refine setMaskBit_keeps (C.mono (by decide)) ?_
    exact h_s21

theorem execTestItemDone_keeps {P : State → Prop} (C : Keeps [.indlog, .regs, .ing, .frame, .log, .queue] P) {stream_1 processed_2 s_3} (hP3 : P s_3) : Next P (execTestItemDone stream_1 processed_2 s_3) := by
  unfold execTestItemDone
  extract_lets -merge -useContext -underBinder +onlyGivenNames n0
  refine next_keeps ?_
  refine live_keeps (C.mono (by decide)) ?_ ?_
  · exact hP3
  · intro s1 hS2
    refine ite_keeps ?_ ?_
    · exact hS2
    · extract_lets -merge -useContext -underBinder +onlyGivenNames item3 s14
      have h_s14 : P s14 := by
        unfold s14
        refine modStream_keeps (C.mono (by decide)) ?_
        exact hS2
      try clear_value s14
      refine ite_keeps ?_ ?_
      · refine testPassed_keeps (C.mono (by decide)) ?_
        exact h_s14
      · refine testFailed_keeps (C.mono (by decide)) ?_
        exact h_s14

theorem execTestStarved_keeps {P : State → Prop} (C : Keeps [.indlog, .regs, .ing, .log, .queue] P) {stream_1 s_2} (hP2 : P s_2) : Next P (execTestStarved stream_1 s_2) := by
  unfold execTestStarved
  extract_lets -merge -useContext -underBinder +onlyGivenNames n0
  refine next_keeps ?_
  refine live_keeps (C.mono (by decide)) ?_ ?_
  · exact hP2
  · intro s1 hS2
    extract_lets -merge -useContext -underBinder +onlyGivenNames t3
    refine ite_keeps ?_ ?_
    · refine report_keeps (C.mono (by decide)) ?_
      refine setFld_keeps (C.mono (by decide)) ?_
      refine modStream_keeps (C.mono (by decide)) ?_
      exact hS2
    · exact hS2

theorem execMirrorSample_keeps {P : State → Prop} (C : Keeps [.indlog, .regs, .ing, .cnd, .wld, .log, .queue, .mem, .data] P) {stream_1 stamp_2 bytes_3 s_4} (hP4 : P s_4) : Next P (execMirrorSample stream_1 stamp_2 bytes_3 s_4) := by
  unfold execMirrorSample
  extract_lets -merge -useContext -underBinder +onlyGivenNames n0
  refine next_keeps ?_
  refine live_keeps (C.mono (by decide)) ?_ ?_
  · exact hP4
  · intro s1 hS2
    refine ite_keeps ?_ ?_
    · refine deliver_keeps (C.mono (by decide)) ?_
      exact hS2
    · exact hS2

theorem closeSnapshot_keeps {P : State → Prop} (C : Keeps [.ing, .wld] P) {s_1} (hP1 : P s_1) : P (closeSnapshot s_1) := by
  unfold closeSnapshot
  extract_lets -merge -useContext -underBinder +onlyGivenNames closed0
  refine C.upd_ing_wld (by decide) ?_
  exact hP1

theorem judgeStream_keeps {P : State → Prop} (C : Keeps [.indlog, .regs, .ing, .frame, .log, .queue] P) {edge_1 s_2 n_3} (hP2 : P s_2) : P (judgeStream edge_1 s_2 n_3) := by
  unfold judgeStream
  extract_lets -merge -useContext -underBinder +onlyGivenNames age0 late1 s12 first3 non4 s25
  have h_s12 : P s12 := by
    unfold s12
    refine setFld_keeps (C.mono (by decide)) ?_
    exact hP2
  try clear_value s12
  have h_s25 : P s25 := by
    unfold s25
    refine modStream_keeps (C.mono (by decide)) ?_
    exact h_s12
  try clear_value s25
  refine ite_keeps ?_ ?_
  · extract_lets -merge -useContext -underBinder +onlyGivenNames s36
    have h_s36 : P s36 := by
      unfold s36
      refine markDoubt_keeps (C.mono (by decide)) ?_
      exact h_s25
    try clear_value s36
    refine ite_keeps ?_ ?_
    · refine report_keeps (C.mono (by decide)) ?_
      exact h_s36
    · exact h_s36
  · refine ite_keeps ?_ ?_
    · refine report_keeps (C.mono (by decide)) ?_
      exact h_s25
    · exact h_s25

theorem ingressEdge_keeps {P : State → Prop} (C : Keeps [.indlog, .regs, .ing, .frame, .wld, .log, .queue] P) {edge_1 s_2} (hP2 : P s_2) : P (ingressEdge edge_1 s_2) := by
  unfold ingressEdge
  extract_lets -merge -useContext -underBinder +onlyGivenNames s10
  have h_s10 : P s10 := by
    unfold s10
    refine foldl_keeps (fun s1 x2 hS3 => ?_) _ _ ?_
    · refine judgeStream_keeps (C.mono (by decide)) ?_
      exact hS3
    · refine closeSnapshot_keeps (C.mono (by decide)) ?_
      exact hP2
  try clear_value s10
  refine C.upd_frame (by decide) ?_
  exact h_s10

theorem execSliceFused_keeps {P : State → Prop} (C : Keeps [.regs, .ing, .wld, .mad] P) {stream_1 s_2} (hP2 : P s_2) : Next P (execSliceFused stream_1 s_2) := by
  unfold execSliceFused
  refine next_keeps ?_
  refine fabric_keeps (C.mono (by decide)) ?_ ?_
  · exact hP2
  · intro s0 hS1
    split
    · exact hS1
    · refine ite_keeps ?_ ?_
      · exact hS1
      · extract_lets -merge -useContext -underBinder +onlyGivenNames pts2 gaps3 ter4 nxt5
        refine ite_keeps ?_ ?_
        · exact hS1
        · extract_lets -merge -useContext -underBinder +onlyGivenNames __src6 s17
          have h_s17 : P s17 := by
            unfold s17
            refine ite_keeps ?_ ?_
            · exact hS1
            · refine setFlag_keeps (C.mono (by decide)) ?_
              refine C.upd_wld (by decide) ?_
              exact hS1
          try clear_value s17
          refine modStream_keeps (C.mono (by decide)) ?_
          refine C.upd_wld_mad (by decide) ?_
          exact h_s17

theorem execSolidHoldExpiry_keeps {P : State → Prop} (C : Keeps [.wld] P) {cell_1 s_2} (hP2 : P s_2) : Next P (execSolidHoldExpiry cell_1 s_2) := by
  unfold execSolidHoldExpiry
  extract_lets -merge -useContext -underBinder +onlyGivenNames held0
  refine next_keeps ?_
  refine fabric_keeps (C.mono (by decide)) ?_ ?_
  · exact hP2
  · intro s1 hS2
    refine C.upd_wld (by decide) ?_
    exact hS2

theorem showOrigin_keeps {P : State → Prop} (C : Keeps [.regs] P) {s_1} (hP1 : P s_1) : P (showOrigin s_1) := by
  unfold showOrigin
  refine setFld_keeps (C.mono (by decide)) ?_
  refine setFld_keeps (C.mono (by decide)) ?_
  refine setFld_keeps (C.mono (by decide)) ?_
  refine setFld_keeps (C.mono (by decide)) ?_
  exact hP1

theorem applyRecentre_keeps {P : State → Prop} (C : Keeps [.regs, .epoch, .umb, .mad] P) {dx_1 dy_2 s_3} (hP3 : P s_3) : P (applyRecentre dx_1 dy_2 s_3) := by
  unfold applyRecentre
  extract_lets -merge -useContext -underBinder +onlyGivenNames sx0 sy1 w2 f3 point4 moveV5
  refine showOrigin_keeps (C.mono (by decide)) ?_
  refine C.upd_epoch_umb_mad (by decide) ?_
  exact hP3

theorem reportEpoch_keeps {P : State → Prop} (C : Keeps [.indlog, .regs, .wld, .log, .queue] P) {denied_1 solid_2 deferred_3 s_4} (hP4 : P s_4) : P (reportEpoch denied_1 solid_2 deferred_3 s_4) := by
  unfold reportEpoch
  extract_lets -merge -useContext -underBinder +onlyGivenNames s10 s21 s32
  have h_s10 : P s10 := by
    unfold s10
    refine ite_keeps ?_ ?_
    · refine setFlag_keeps (C.mono (by decide)) ?_
      refine bumpBy_keeps (C.mono (by decide)) ?_
      refine ite_keeps ?_ ?_
      · exact hP4
      · refine report_keeps (C.mono (by decide)) ?_
        exact hP4
    · exact hP4
  try clear_value s10
  have h_s21 : P s21 := by
    unfold s21
    split
    · extract_lets -merge -useContext -underBinder +onlyGivenNames k3
      refine setFlag_keeps (C.mono (by decide)) ?_
      refine report_keeps (C.mono (by decide)) ?_
      exact h_s10
    · exact h_s10
  try clear_value s21
  have h_s32 : P s32 := by
    unfold s32
    refine ite_keeps ?_ ?_
    · refine setFlag_keeps (C.mono (by decide)) ?_
      refine ite_keeps ?_ ?_
      · exact h_s21
      · refine report_keeps (C.mono (by decide)) ?_
        exact h_s21
    · exact h_s21
  try clear_value s32
  refine C.upd_wld (by decide) ?_
  exact h_s32

theorem showEpoch_keeps {P : State → Prop} (C : Keeps [.regs] P) {edge_1 s_2} (hP2 : P s_2) : P (showEpoch edge_1 s_2) := by
  unfold showEpoch
  extract_lets -merge -useContext -underBinder +onlyGivenNames w0 oldest1 lag2
  refine setFld_keeps (C.mono (by decide)) ?_
  refine setFld_keeps (C.mono (by decide)) ?_
  refine setFld_keeps (C.mono (by decide)) ?_
  refine setFld_keeps (C.mono (by decide)) ?_
  refine setSat_keeps (C.mono (by decide)) ?_
  refine setSat_keeps (C.mono (by decide)) ?_
  refine setSat_keeps (C.mono (by decide)) ?_
  refine setSat_keeps (C.mono (by decide)) ?_
  exact hP2

theorem positionGuard_keeps {P : State → Prop} (C : Keeps [.indlog, .regs, .frame, .log, .queue, .inf] P) {e_1 s_2} (hP2 : P s_2) : P (positionGuard e_1 s_2) := by
  unfold positionGuard
  extract_lets -merge -useContext -underBinder +onlyGivenNames lim0
  refine ite_keeps ?_ ?_
  · exact hP2
  · extract_lets -merge -useContext -underBinder +onlyGivenNames high1
    refine doubtEvent_keeps (C.mono (by decide)) ?_
    refine bump_keeps (C.mono (by decide)) ?_
    refine addRg_keeps (C.mono (by decide)) ?_
    exact hP2

theorem holdFrame_keeps {P : State → Prop} (C : Keeps [.held] P) {e_1 s_2} (hP2 : P s_2) : P (holdFrame e_1 s_2) := by
  unfold holdFrame
  refine C.upd_held (by decide) ?_
  exact hP2

theorem rebuildWords_keeps {P : State → Prop} (C : Keeps [.wld, .data] P) {s_1} (hP1 : P s_1) : P (rebuildWords s_1) := by
  unfold rebuildWords
  extract_lets -merge -useContext -underBinder +onlyGivenNames bad0
  refine C.upd_wld_data (by decide) ?_
  exact hP1

theorem liftBlank_keeps {P : State → Prop} (C : Keeps [.data] P) {s_1} (hP1 : P s_1) : P (liftBlank s_1) := by
  unfold liftBlank
  refine C.upd_data (by decide) ?_
  exact hP1

theorem worldEdge_keeps {P : State → Prop} (C : Keeps [.indlog, .regs, .ing, .frame, .wld, .epoch, .held, .log, .queue, .inf, .data] P) {edge_1 s_2} (hP2 : P s_2) : P (worldEdge edge_1 s_2) := by
  unfold worldEdge
  extract_lets -merge -useContext -underBinder +onlyGivenNames e0 w1 h2 win3 d04 late5 d16 d27 g8 boxes9 nd10 slots11 w112 inc13 held14 newSolid15 hold16 s117 s218
  have h_s117 : P s117 := by
    unfold s117
    refine C.upd_ing_epoch (by decide) ?_
    exact hP2
  try clear_value s117
  have h_s218 : P s218 := by
    unfold s218
    refine rebuildWords_keeps (C.mono (by decide)) ?_
    refine ite_keeps ?_ ?_
    · exact h_s117
    · refine setFlag_keeps (C.mono (by decide)) ?_
      exact h_s117
  try clear_value s218
  refine liftBlank_keeps (C.mono (by decide)) ?_
  refine holdFrame_keeps (C.mono (by decide)) ?_
  refine positionGuard_keeps (C.mono (by decide)) ?_
  refine showEpoch_keeps (C.mono (by decide)) ?_
  refine reportEpoch_keeps (C.mono (by decide)) ?_
  exact h_s218

theorem engineWord_keeps {P : State → Prop} (C : Keeps [.indlog, .regs, .wld, .log, .queue, .mem, .data] P) {u_1 a_2 s_3} (hP3 : P s_3) : P (engineWord u_1 a_2 s_3).2 := by
  unfold engineWord
  split
  · try dsimp only
    refine report_keeps (C.mono (by decide)) ?_
    exact hP3
  · split
    · try dsimp only
      exact hP3
    · refine readWord_keeps (C.mono (by decide)) ?_
      exact hP3

theorem engineWords_keeps {P : State → Prop} (C : Keeps [.indlog, .regs, .wld, .log, .queue, .mem, .data] P) {u a n s} (h : P s) : P (engineWords u a n s).2 := by
  induction n generalizing a s with
  | zero => exact h
  | succ n ih => exact ih (engineWord_keeps (C.mono (by decide)) h)

theorem loadTensor_keeps {P : State → Prop} (C : Keeps [.indlog, .regs, .wld, .log, .queue, .mem, .data] P) {u_1 n_2 s_3} (hP3 : P s_3) : P (loadTensor u_1 n_2 s_3).2 := by
  unfold loadTensor
  extract_lets -merge -useContext -underBinder +onlyGivenNames d0 r1
  have h_r1 : P r1.2 := by
    unfold r1
    refine engineWords_keeps (C.mono (by decide)) ?_
    exact hP3
  try clear_value r1
  try dsimp only
  exact h_r1

theorem markOutput_keeps {P : State → Prop} (C : Keeps [.regs, .frame, .cnd] P) {u_1 b_2 s_3} (hP3 : P s_3) : P (markOutput u_1 b_2 s_3) := by
  unfold markOutput
  extract_lets -merge -useContext -underBinder +onlyGivenNames node0 bound1
  refine ite_keeps ?_ ?_
  · refine markDoubt_keeps (C.mono (by decide)) ?_
    exact hP3
  · refine C.upd_cnd (by decide) ?_
    exact hP3

theorem guardEvent_keeps {P : State → Prop} (C : Keeps [.indlog, .regs, .frame, .cnd, .log, .queue, .inf] P) {u_1 eng_2 d_3 high_4 s_5} (hP5 : P s_5) : P (guardEvent u_1 eng_2 d_3 high_4 s_5) := by
  unfold guardEvent
  extract_lets -merge -useContext -underBinder +onlyGivenNames c0 ev1 s12 __src3 s24 watched5 s36 s47 s58
  have h_s12 : P s12 := by
    unfold s12
    refine ite_keeps ?_ ?_
    · refine bump_keeps (C.mono (by decide)) ?_
      refine bump_keeps (C.mono (by decide)) ?_
      exact hP5
    · refine bump_keeps (C.mono (by decide)) ?_
      refine bump_keeps (C.mono (by decide)) ?_
      exact hP5
  try clear_value s12
  have h_s24 : P s24 := by
    unfold s24
    refine addRg_keeps (C.mono (by decide)) ?_
    refine C.upd_inf (by decide) ?_
    exact h_s12
  try clear_value s24
  have h_s36 : P s36 := by
    unfold s36
    refine ite_keeps ?_ ?_
    · refine bump_keeps (C.mono (by decide)) ?_
      exact h_s24
    · exact h_s24
  try clear_value s36
  have h_s47 : P s47 := by
    unfold s47
    refine ite_keeps ?_ ?_
    · exact h_s36
    · refine setFld_keeps (C.mono (by decide)) ?_
      refine capture_keeps (C.mono (by decide)) ?_
      exact h_s36
  try clear_value s47
  have h_s58 : P s58 := by
    unfold s58
    refine countTile_keeps (C.mono (by decide)) ?_
    refine ite_keeps ?_ ?_
    · refine markOutput_keeps (C.mono (by decide)) ?_
      exact h_s47
    · exact h_s47
  try clear_value s58
  refine ite_keeps ?_ ?_
  · exact h_s58
  · refine report_keeps (C.mono (by decide)) ?_
    refine C.upd_inf (by decide) ?_
    exact h_s58

theorem guardEvents_keeps {P : State → Prop} (C : Keeps [.indlog, .regs, .frame, .cnd, .log, .queue, .inf] P) {u_1 eng_2 d_3 es_4 s_5} (hP5 : P s_5) : P (guardEvents u_1 eng_2 d_3 es_4 s_5) := by
  unfold guardEvents
  refine foldl_keeps (fun s0 x1 hS2 => ?_) _ _ ?_
  · refine guardEvent_keeps (C.mono (by decide)) ?_
    exact hS2
  · exact hP5

theorem burstCheck_keeps {P : State → Prop} (C : Keeps [.indlog, .regs, .frame, .cnd, .safe, .log, .queue, .mem, .swp, .sec, .bus, .sent, .free] P) {u_1 s_2} (hP2 : P s_2) : P (burstCheck u_1 s_2) := by
  unfold burstCheck
  refine ite_keeps ?_ ?_
  · refine testQuarantine_keeps (C.mono (by decide)) ?_
    exact hP2
  · exact hP2

theorem sepiaOutput_keeps {P : State → Prop} (C : Keeps [.indlog, .regs, .frame, .cnd, .log, .queue] P) {u_1 d_2 isOutput_3 s_4} (hP4 : P s_4) : P (sepiaOutput u_1 d_2 isOutput_3 s_4) := by
  unfold sepiaOutput
  refine ite_keeps ?_ ?_
  · refine report_keeps (C.mono (by decide)) ?_
    refine bump_keeps (C.mono (by decide)) ?_
    refine markOutput_keeps (C.mono (by decide)) ?_
    exact hP4
  · refine ite_keeps ?_ ?_
    · refine report_keeps (C.mono (by decide)) ?_
      exact hP4
    · exact hP4

theorem storeWord_keeps {P : State → Prop} (C : Keeps [.regs, .data] P) {c_1 d_2 a_3 es_4 s_5} (hP5 : P s_5) : P (storeWord c_1 d_2 a_3 es_4 s_5) := by
  unfold storeWord
  extract_lets -merge -useContext -underBinder +onlyGivenNames sepia0 s11
  have h_s11 : P s11 := by
    unfold s11
    refine writeFull_keeps (C.mono (by decide)) ?_
    exact hP5
  try clear_value s11
  refine ite_keeps ?_ ?_
  · refine bump_keeps (C.mono (by decide)) ?_
    exact h_s11
  · exact h_s11

theorem storeWords_keeps {P : State → Prop} (C : Keeps [.regs, .data] P) {c d a ws s} (h : P s) : P (storeWords c d a ws s) := by
  induction ws generalizing a s with
  | nil => exact h
  | cons w ws ih => exact ih (storeWord_keeps (C.mono (by decide)) h)

theorem showPeak_keeps {P : State → Prop} (C : Keeps [.regs] P) {s_1 c_2 d_3} (hP1 : P s_1) : P (showPeak s_1 c_2 d_3) := by
  unfold showPeak
  refine ite_keeps ?_ ?_
  · exact hP1
  · extract_lets -merge -useContext -underBinder +onlyGivenNames top0
    refine setFld_keeps (C.mono (by decide)) ?_
    exact hP1

theorem writeTensor_keeps {P : State → Prop} (C : Keeps [.indlog, .regs, .frame, .cnd, .safe, .log, .queue, .inf, .mem, .data, .swp, .sec, .bus, .sent, .free] P) {u_1 eng_2 d_3 es_4 isOutput_5 s_6} (hP6 : P s_6) : P (writeTensor u_1 eng_2 d_3 es_4 isOutput_5 s_6) := by
  unfold writeTensor
  extract_lets -merge -useContext -underBinder +onlyGivenNames c0 a1 s12 s23 s34
  have h_s12 : P s12 := by
    unfold s12
    refine guardEvents_keeps (C.mono (by decide)) ?_
    exact hP6
  try clear_value s12
  have h_s23 : P s23 := by
    unfold s23
    refine ite_keeps ?_ ?_
    · refine report_keeps (C.mono (by decide)) ?_
      exact h_s12
    · refine showPeak_keeps (C.mono (by decide)) ?_
      refine storeWords_keeps (C.mono (by decide)) ?_
      exact h_s12
  try clear_value s23
  have h_s34 : P s34 := by
    unfold s34
    refine ite_keeps ?_ ?_
    · refine sepiaOutput_keeps (C.mono (by decide)) ?_
      exact h_s23
    · exact h_s23
  try clear_value s34
  refine burstCheck_keeps (C.mono (by decide)) ?_
  exact h_s34

theorem infGatherFault_keeps {P : State → Prop} (C : Keeps [.indlog, .regs, .log, .queue] P) {u_1 d_2 a_3 place_4 outside_5 s_6} (hP6 : P s_6) : P (infGatherFault u_1 d_2 a_3 place_4 outside_5 s_6) := by
  unfold infGatherFault
  extract_lets -merge -useContext -underBinder +onlyGivenNames k0 s11
  have h_s11 : P s11 := by
    unfold s11
    refine report_keeps (C.mono (by decide)) ?_
    refine bump_keeps (C.mono (by decide)) ?_
    exact hP6
  try clear_value s11
  refine ite_keeps ?_ ?_
  · exact h_s11
  · refine setFld_keeps (C.mono (by decide)) ?_
    refine setFld_keeps (C.mono (by decide)) ?_
    refine capture_keeps (C.mono (by decide)) ?_
    exact h_s11

theorem gatherElem_keeps {P : State → Prop} (C : Keeps [.indlog, .regs, .wld, .log, .queue, .mem, .data] P) {u_1 d_2 place_3 inside_4 pos_5 ch_6 s_7} (hP7 : P s_7) : P (gatherElem u_1 d_2 place_3 inside_4 pos_5 ch_6 s_7).2 := by
  unfold gatherElem
  extract_lets -merge -useContext -underBinder +onlyGivenNames word0 a1
  split
  · try dsimp only
    refine infGatherFault_keeps (C.mono (by decide)) ?_
    exact hP7
  · split
    · rename_i w2 s13 he4
      have hm5 : P s13 := by
        have e := (congrArg Prod.snd he4)
        try dsimp only at e
        rw [← e]
        refine engineWord_keeps (C.mono (by decide)) ?_
        exact hP7
      try dsimp only
      exact hm5
    · rename_i s16 he7
      have hm8 : P s16 := by
        have e := (congrArg Prod.snd he7)
        try dsimp only at e
        rw [← e]
        refine engineWord_keeps (C.mono (by decide)) ?_
        exact hP7
      try dsimp only
      refine infGatherFault_keeps (C.mono (by decide)) ?_
      exact hm8

theorem gatherAll_keeps {P : State → Prop} (C : Keeps [.indlog, .regs, .wld, .log, .queue, .mem, .data] P) {u i fs s} (h : P s) : P (gatherAll u i fs s).2 := by
  induction fs generalizing i s with
  | nil => exact h
  | cons f fs ih =>
    cases f with
    | invalid => exact ih h
    | elem d inside pos ch => exact ih (gatherElem_keeps (C.mono (by decide)) h)

theorem countMacs_keeps {P : State → Prop} (C : Keeps [.regs, .free] P) {u_1 ops_2 lookups_3 s_4} (hP4 : P s_4) : P (countMacs u_1 ops_2 lookups_3 s_4) := by
  unfold countMacs
  extract_lets -merge -useContext -underBinder +onlyGivenNames f0 s11
  have h_f0 : P f0.2 := by
    unfold f0
    refine nextFree_keeps (C.mono (by decide)) ?_
    exact hP4
  try clear_value f0
  have h_s11 : P s11 := by
    unfold s11
    refine countTile_keeps (C.mono (by decide)) ?_
    exact h_f0
  try clear_value s11
  refine ite_keeps ?_ ?_
  · exact h_s11
  · refine countTile_keeps (C.mono (by decide)) ?_
    exact h_s11

theorem countLookups_keeps {P : State → Prop} (C : Keeps [.regs, .free] P) {u_1 s_2} (hP2 : P s_2) : P (countLookups u_1 s_2) := by
  unfold countLookups
  extract_lets -merge -useContext -underBinder +onlyGivenNames f0
  have h_f0 : P f0.2 := by
    unfold f0
    refine nextFree_keeps (C.mono (by decide)) ?_
    exact hP2
  try clear_value f0
  refine countTile_keeps (C.mono (by decide)) ?_
  exact h_f0

theorem loadAll_keeps {P : State → Prop} (C : Keeps [.indlog, .regs, .wld, .log, .queue, .mem, .data] P) {u ns s} (h : P s) : P (loadAll u ns s).2 := by
  induction ns generalizing s with
  | nil => exact h
  | cons n ns ih => exact ih (loadTensor_keeps (C.mono (by decide)) h)

theorem runPillars_keeps {P : State → Prop} (C : Keeps [.indlog, .regs, .frame, .cnd, .safe, .log, .queue, .inf, .mem, .data, .swp, .sec, .bus, .sent, .free] P) {u_1 eng_2 d_3 out_4 s_5} (hP5 : P s_5) : P (runPillars u_1 eng_2 d_3 out_4 s_5) := by
  unfold runPillars
  extract_lets -merge -useContext -underBinder +onlyGivenNames all0 kept1 __src2 s13 s24 es5
  have h_s13 : P s13 := by
    unfold s13
    refine C.upd_inf (by decide) ?_
    exact hP5
  try clear_value s13
  have h_s24 : P s24 := by
    unfold s24
    refine ite_keeps ?_ ?_
    · refine report_keeps (C.mono (by decide)) ?_
      exact h_s13
    · exact h_s13
  try clear_value s24
  refine writeTensor_keeps (C.mono (by decide)) ?_
  refine C.upd_free (by decide) ?_
  exact h_s24

theorem runOp_keeps {P : State → Prop} (C : Keeps [.indlog, .regs, .frame, .cnd, .wld, .safe, .log, .queue, .inf, .mem, .data, .swp, .sec, .bus, .sent, .free] P) {u_1 outs_2 x_3 s_4} (hP4 : P s_4) : P (runOp u_1 outs_2 x_3 s_4) := by
  unfold runOp
  extract_lets -merge -useContext -underBinder +onlyGivenNames eng0 desc1 put2
  have h_put2 : ∀ n3 es4 s5, P s5 → P (put2 n3 es4 s5) := by
    intro n3 es4 s5 hS6
    unfold put2
    refine writeTensor_keeps (C.mono (by decide)) ?_
    exact hS6
  clear_value put2
  split
  · extract_lets -merge -useContext -underBinder +onlyGivenNames d7 r8
    have h_r8 : P r8.2 := by
      unfold r8
      split
      · try dsimp only
        exact hP4
      · refine engineWords_keeps (C.mono (by decide)) ?_
        exact hP4
    try clear_value r8
    refine h_put2 _ _ _ ?_
    exact h_r8
  · extract_lets -merge -useContext -underBinder +onlyGivenNames a9 b10 d11 k12
    have h_a9 : P a9.2 := by
      unfold a9
      refine loadTensor_keeps (C.mono (by decide)) ?_
      exact hP4
    try clear_value a9
    have h_b10 : P b10.2 := by
      unfold b10
      refine loadTensor_keeps (C.mono (by decide)) ?_
      exact h_a9
    try clear_value b10
    refine h_put2 _ _ _ ?_
    refine countMacs_keeps (C.mono (by decide)) ?_
    exact h_b10
  · extract_lets -merge -useContext -underBinder +onlyGivenNames a13 b14 d15 k16
    have h_a13 : P a13.2 := by
      unfold a13
      refine loadTensor_keeps (C.mono (by decide)) ?_
      exact hP4
    try clear_value a13
    have h_b14 : P b14.2 := by
      unfold b14
      refine loadTensor_keeps (C.mono (by decide)) ?_
      exact h_a13
    try clear_value b14
    refine h_put2 _ _ _ ?_
    refine countMacs_keeps (C.mono (by decide)) ?_
    exact h_b14
  · extract_lets -merge -useContext -underBinder +onlyGivenNames a17 b18 c19 es20
    have h_a17 : P a17.2 := by
      unfold a17
      refine loadTensor_keeps (C.mono (by decide)) ?_
      exact hP4
    try clear_value a17
    have h_b18 : P b18.2 := by
      unfold b18
      refine loadTensor_keeps (C.mono (by decide)) ?_
      exact h_a17
    try clear_value b18
    have h_c19 : P c19.2 := by
      unfold c19
      refine loadTensor_keeps (C.mono (by decide)) ?_
      exact h_b18
    try clear_value c19
    refine h_put2 _ _ _ ?_
    refine guardEvents_keeps (C.mono (by decide)) ?_
    refine countLookups_keeps (C.mono (by decide)) ?_
    refine countMacs_keeps (C.mono (by decide)) ?_
    exact h_c19
  · extract_lets -merge -useContext -underBinder +onlyGivenNames a21
    have h_a21 : P a21.2 := by
      unfold a21
      refine loadTensor_keeps (C.mono (by decide)) ?_
      exact hP4
    try clear_value a21
    refine h_put2 _ _ _ ?_
    refine countLookups_keeps (C.mono (by decide)) ?_
    exact h_a21
  · extract_lets -merge -useContext -underBinder +onlyGivenNames a22 b23
    have h_a22 : P a22.2 := by
      unfold a22
      refine loadTensor_keeps (C.mono (by decide)) ?_
      exact hP4
    try clear_value a22
    have h_b23 : P b23.2 := by
      unfold b23
      refine loadTensor_keeps (C.mono (by decide)) ?_
      exact h_a22
    try clear_value b23
    refine h_put2 _ _ _ ?_
    exact h_b23
  · extract_lets -merge -useContext -underBinder +onlyGivenNames a24
    have h_a24 : P a24.2 := by
      unfold a24
      refine loadTensor_keeps (C.mono (by decide)) ?_
      exact hP4
    try clear_value a24
    refine h_put2 _ _ _ ?_
    exact h_a24
  · extract_lets -merge -useContext -underBinder +onlyGivenNames a25
    have h_a25 : P a25.2 := by
      unfold a25
      refine loadTensor_keeps (C.mono (by decide)) ?_
      exact hP4
    try clear_value a25
    refine h_put2 _ _ _ ?_
    exact h_a25
  · extract_lets -merge -useContext -underBinder +onlyGivenNames a26
    have h_a26 : P a26.2 := by
      unfold a26
      refine loadTensor_keeps (C.mono (by decide)) ?_
      exact hP4
    try clear_value a26
    refine h_put2 _ _ _ ?_
    exact h_a26
  · extract_lets -merge -useContext -underBinder +onlyGivenNames a27
    have h_a27 : P a27.2 := by
      unfold a27
      refine loadAll_keeps (C.mono (by decide)) ?_
      exact hP4
    try clear_value a27
    refine h_put2 _ _ _ ?_
    exact h_a27
  · extract_lets -merge -useContext -underBinder +onlyGivenNames a28
    have h_a28 : P a28.2 := by
      unfold a28
      refine loadTensor_keeps (C.mono (by decide)) ?_
      exact hP4
    try clear_value a28
    refine h_put2 _ _ _ ?_
    exact h_a28
  · extract_lets -merge -useContext -underBinder +onlyGivenNames a29
    have h_a29 : P a29.2 := by
      unfold a29
      refine loadTensor_keeps (C.mono (by decide)) ?_
      exact hP4
    try clear_value a29
    refine h_put2 _ _ _ ?_
    exact h_a29
  · extract_lets -merge -useContext -underBinder +onlyGivenNames r30
    have h_r30 : P r30.2 := by
      unfold r30
      refine gatherAll_keeps (C.mono (by decide)) ?_
      exact hP4
    try clear_value r30
    refine h_put2 _ _ _ ?_
    refine countTile_keeps (C.mono (by decide)) ?_
    exact h_r30
  · extract_lets -merge -useContext -underBinder +onlyGivenNames r31
    have h_r31 : P r31.2 := by
      unfold r31
      refine gatherAll_keeps (C.mono (by decide)) ?_
      exact hP4
    try clear_value r31
    refine h_put2 _ _ _ ?_
    refine countTile_keeps (C.mono (by decide)) ?_
    exact h_r31
  · refine runPillars_keeps (C.mono (by decide)) ?_
    exact hP4
  · extract_lets -merge -useContext -underBinder +onlyGivenNames a32
    have h_a32 : P a32.2 := by
      unfold a32
      refine loadTensor_keeps (C.mono (by decide)) ?_
      exact hP4
    try clear_value a32
    refine h_put2 _ _ _ ?_
    refine countLookups_keeps (C.mono (by decide)) ?_
    exact h_a32

theorem applyRole_keeps {P : State → Prop} (C : Keeps [.wld, .inf] P) {u_1 d_2 t_3 r_4 e_5 s_6} (hP6 : P s_6) : P (applyRole u_1 d_2 t_3 r_4 e_5 s_6) := by
  unfold applyRole
  extract_lets -merge -useContext -underBinder +onlyGivenNames nxt0 put1 mine2 score3
  have h_put1 : ∀ x4, P (put1 x4) := by
    intro x4 
    unfold put1
    refine C.upd_wld (by decide) ?_
    exact hP6
  clear_value put1
  split
  · refine ite_keeps ?_ ?_
    · refine h_put1 _
    · exact hP6
  · refine ite_keeps ?_ ?_
    · refine h_put1 _
    · exact hP6
  · split
    · refine h_put1 _
    · exact hP6
  · refine ite_keeps ?_ ?_
    · refine C.upd_inf (by decide) ?_
      exact hP6
    · exact hP6
  · refine ite_keeps ?_ ?_
    · refine C.upd_inf (by decide) ?_
      exact hP6
    · exact hP6
  · refine ite_keeps ?_ ?_
    · refine C.upd_inf (by decide) ?_
      exact hP6
    · exact hP6

theorem deliverOutput_keeps {P : State → Prop} (C : Keeps [.indlog, .regs, .wld, .log, .queue, .inf, .mem, .data] P) {u_1 t_2 x_3 s_4} (hP4 : P s_4) : P (deliverOutput u_1 t_2 x_3 s_4) := by
  unfold deliverOutput
  extract_lets -merge -useContext -underBinder +onlyGivenNames r0
  have h_r0 : P r0.2 := by
    unfold r0
    refine loadTensor_keeps (C.mono (by decide)) ?_
    exact hP4
  try clear_value r0
  refine foldl_keeps (fun s1 x2 hS3 => ?_) _ _ ?_
  · refine applyRole_keeps (C.mono (by decide)) ?_
    exact hS3
  · exact h_r0

theorem noteSource_keeps {P : State → Prop} (C : Keeps [.ing] P) {src_1 s_2} (hP2 : P s_2) : P (noteSource src_1 s_2) := by
  unfold noteSource
  split
  · extract_lets -merge -useContext -underBinder +onlyGivenNames of0
    refine modStream_keeps (C.mono (by decide)) ?_
    exact hP2
  · exact hP2

theorem applyResult_keeps {P : State → Prop} (C : Keeps [.indlog, .regs, .ing, .frame, .cnd, .wld, .safe, .log, .queue, .inf, .mem, .data, .swp, .sec, .bus, .sent, .free] P) {u_1 r_2 s_3} (hP3 : P s_3) : P (applyResult u_1 r_2 s_3) := by
  unfold applyResult
  split
  · exact hP3
  · extract_lets -merge -useContext -underBinder +onlyGivenNames track0
    refine foldl_keeps (fun s1 x2 hS3 => ?_) _ _ ?_
    · refine positionGuard_keeps (C.mono (by decide)) ?_
      exact hS3
    · refine C.upd_wld (by decide) ?_
      exact hP3
  · refine ite_keeps ?_ ?_
    · exact hP3
    · extract_lets -merge -useContext -underBinder +onlyGivenNames s14 t5 s26
      have h_s14 : P s14 := by
        unfold s14
        refine foldl_keeps (fun s7 x8 hS9 => ?_) _ _ ?_
        · refine runOp_keeps (C.mono (by decide)) ?_
          exact hS9
        · exact hP3
      try clear_value s14
      have h_s26 : P s26 := by
        unfold s26
        refine ite_keeps ?_ ?_
        · exact h_s14
        · refine noteSource_keeps (C.mono (by decide)) ?_
          refine foldl_keeps (fun s10 x11 hS12 => ?_) _ _ ?_
          · refine deliverOutput_keeps (C.mono (by decide)) ?_
            exact hS12
          · exact h_s14
      try clear_value s26
      refine ite_keeps ?_ ?_
      · refine C.upd_inf (by decide) ?_
        exact h_s26
      · exact h_s26

theorem passTaint_keeps {P : State → Prop} (C : Keeps [.frame, .cnd] P) {g_1 r_2 succ_3 s_4} (hP4 : P s_4) : P (passTaint g_1 r_2 succ_3 s_4) := by
  unfold passTaint
  extract_lets -merge -useContext -underBinder +onlyGivenNames t0
  refine ite_keeps ?_ ?_
  · exact hP4
  · refine ite_keeps ?_ ?_
    · refine C.upd_frame (by decide) ?_
      exact hP4
    · refine foldl_keeps (fun s1 x2 hS3 => ?_) _ _ ?_
      · refine setNode_keeps (C.mono (by decide)) ?_
        exact hS3
      · exact hP4

theorem showIdle_keeps {P : State → Prop} (C : Keeps [.regs] P) {u_1 s_2} (hP2 : P s_2) : P (showIdle u_1 s_2) := by
  unfold showIdle
  refine ite_keeps ?_ ?_
  · exact hP2
  · refine ite_keeps ?_ ?_
    · refine setFld_keeps (C.mono (by decide)) ?_
      exact hP2
    · refine ite_keeps ?_ ?_
      · refine setFld_keeps (C.mono (by decide)) ?_
        exact hP2
      · exact hP2

theorem countDone_keeps {P : State → Prop} (C : Keeps [.regs] P) {u_1 s_2} (hP2 : P s_2) : P (countDone u_1 s_2) := by
  unfold countDone
  refine ite_keeps ?_ ?_
  · refine countTile_keeps (C.mono (by decide)) ?_
    exact hP2
  · exact hP2

theorem execTaskComplete_keeps {P : State → Prop} (C : Keeps [.indlog, .regs, .ing, .frame, .cnd, .wld, .safe, .log, .queue, .inf, .mem, .data, .swp, .sec, .bus, .sent, .free] P) {unit_1 res_2 s_3} (hP3 : P s_3) : Next P (execTaskComplete unit_1 res_2 s_3) := by
  unfold execTaskComplete
  refine next_keeps ?_
  refine fabric_keeps (C.mono (by decide)) ?_ ?_
  · exact hP3
  · intro s0 hS1
    split
    · exact hS1
    · extract_lets -merge -useContext -underBinder +onlyGivenNames succ2
      split
      · extract_lets -merge -useContext -underBinder +onlyGivenNames mark3 s14
        have h_s14 : P s14 := by
          unfold s14
          refine passTaint_keeps (C.mono (by decide)) ?_
          refine countDone_keeps (C.mono (by decide)) ?_
          refine applyResult_keeps (C.mono (by decide)) ?_
          exact hS1
        try clear_value s14
        refine showSched_keeps (C.mono (by decide)) ?_
        refine showIdle_keeps (C.mono (by decide)) ?_
        refine releaseItems_keeps (C.mono (by decide)) ?_
        refine dropTask_keeps (C.mono (by decide)) ?_
        refine C.upd_cnd (by decide) ?_
        exact h_s14
      · refine ite_keeps ?_ ?_
        · refine ite_keeps ?_ ?_
          · exact hS1
          · refine bump_keeps (C.mono (by decide)) ?_
            refine setWait_keeps (C.mono (by decide)) ?_
            exact hS1
        · refine showSched_keeps (C.mono (by decide)) ?_
          refine showIdle_keeps (C.mono (by decide)) ?_
          refine completeItem_keeps (C.mono (by decide)) ?_
          refine dropTask_keeps (C.mono (by decide)) ?_
          refine passTaint_keeps (C.mono (by decide)) ?_
          refine countDone_keeps (C.mono (by decide)) ?_
          refine applyResult_keeps (C.mono (by decide)) ?_
          exact hS1

theorem showInfService_keeps {P : State → Prop} (C : Keeps [.regs] P) {s_1} (hP1 : P s_1) : P (showInfService s_1) := by
  unfold showInfService
  extract_lets -merge -useContext -underBinder +onlyGivenNames bits0
  refine setFld_keeps (C.mono (by decide)) ?_
  exact hP1

theorem infTestOutcome_keeps {P : State → Prop} (C : Keeps [.indlog, .regs, .frame, .cnd, .safe, .log, .queue, .mem, .swp, .sec, .bus, .sent, .free] P) {o_1 s_2} (hP2 : P s_2) : P (infTestOutcome o_1 s_2) := by
  unfold infTestOutcome
  extract_lets -merge -useContext -underBinder +onlyGivenNames c0 bad1
  have h_bad1 : ∀ s2, P s2 → P (bad1 s2) := by
    intro s2 hS3
    unfold bad1
    refine report_keeps (C.mono (by decide)) ?_
    refine showInfService_keeps (C.mono (by decide)) ?_
    refine showSched_keeps (C.mono (by decide)) ?_
    refine kermesDue_keeps (C.mono (by decide)) ?_
    refine takeOut_keeps (C.mono (by decide)) ?_
    refine slotLost_keeps (C.mono (by decide)) ?_
    exact hS3
  clear_value bad1
  split
  · exact hP2
  · refine h_bad1 _ ?_
    exact hP2
  · refine h_bad1 _ ?_
    exact hP2
  · refine report_keeps (C.mono (by decide)) ?_
    refine kermesDue_keeps (C.mono (by decide)) ?_
    refine setMaskBit_keeps (C.mono (by decide)) ?_
    refine C.upd_safe (by decide) ?_
    exact hP2

theorem releaseUnit_keeps {P : State → Prop} (C : Keeps [.cnd] P) {u_1 s_2} (hP2 : P s_2) : P (releaseUnit u_1 s_2) := by
  unfold releaseUnit
  refine ite_keeps ?_ ?_
  · exact hP2
  · refine C.upd_cnd (by decide) ?_
    exact hP2

theorem takeInfRelease_keeps {P : State → Prop} (C : Keeps [.indlog, .regs, .cnd, .log, .queue, .sent] P) {r_1 c_2 bit_3 s_4} (hP4 : P s_4) : P (takeInfRelease r_1 c_2 bit_3 s_4) := by
  unfold takeInfRelease
  refine live_keeps (C.mono (by decide)) ?_ ?_
  · exact hP4
  · intro s0 hS1
    refine ite_keeps ?_ ?_
    · refine refuseAccess_keeps (C.mono (by decide)) ?_
      exact hS1
    · refine ite_keeps ?_ ?_
      · refine releaseUnit_keeps (C.mono (by decide)) ?_
        exact hS1
      · exact hS1

theorem execInfRelease_keeps {P : State → Prop} (C : Keeps [.indlog, .regs, .cnd, .log, .queue, .sent] P) {r_1 c_2 bit_3 s_4} (hP4 : P s_4) : Next P (execInfRelease r_1 c_2 bit_3 s_4) := by
  unfold execInfRelease
  refine next_keeps ?_
  refine takeInfRelease_keeps (C.mono (by decide)) ?_
  exact hP4

theorem releaseEdge_keeps {P : State → Prop} (C : Keeps [.indlog, .regs, .cnd, .log, .queue] P) {s_1} (hP1 : P s_1) : P (releaseEdge s_1) := by
  unfold releaseEdge
  extract_lets -merge -useContext -underBinder +onlyGivenNames back0 s11
  have h_back0 : ∀ s2 u4, P s2 → P (back0 s2 u4) := by
    intro s2 u4 hS3
    unfold back0
    extract_lets -merge -useContext -underBinder +onlyGivenNames __src5 s16
    have h_s16 : P s16 := by
      unfold s16
      refine showService_keeps (C.mono (by decide)) ?_
      refine C.upd_cnd (by decide) ?_
      exact hS3
    try clear_value s16
    refine ite_keeps ?_ ?_
    · refine setFld_keeps (C.mono (by decide)) ?_
      exact h_s16
    · refine ite_keeps ?_ ?_
      · refine setFld_keeps (C.mono (by decide)) ?_
        exact h_s16
      · exact h_s16
  clear_value back0
  have h_s11 : P s11 := by
    unfold s11
    refine foldl_keeps (fun s7 x8 hS9 => ?_) _ _ ?_
    · refine h_back0 _ _ ?_
      exact hS9
    · exact hP1
  try clear_value s11
  refine showInfService_keeps (C.mono (by decide)) ?_
  refine C.upd_cnd (by decide) ?_
  exact h_s11

theorem infEdge_keeps {P : State → Prop} (C : Keeps [.inf] P) {s_1} (hP1 : P s_1) : P (infEdge s_1) := by
  unfold infEdge
  refine C.upd_inf (by decide) ?_
  exact hP1

theorem zeroRanges_keeps {P : State → Prop} (C : Keeps [.data] P) {rs s} (h : P s) : P (zeroRanges rs s) :=
  C.upd_data (by decide) h fun k => ⟨filter_wf k.1, filter_wf k.2⟩

theorem countHbm_keeps {P : State → Prop} (C : Keeps [.regs] P) {ev_1 a_2 n_3 s_4} (hP4 : P s_4) : P (countHbm ev_1 a_2 n_3 s_4) := by
  unfold countHbm
  refine ite_keeps ?_ ?_
  · refine countDie_keeps (C.mono (by decide)) ?_
    exact hP4
  · exact hP4

theorem writeWord_keeps {P : State → Prop} (C : Keeps [.indlog, .regs, .wld, .log, .queue, .mem, .data] P) {p_1 w_2 s_3} (hP3 : P s_3) : P (writeWord p_1 w_2 s_3) := by
  unfold writeWord
  refine ite_keeps ?_ ?_
  · exact hP3
  · refine ite_keeps ?_ ?_
    · refine writeFull_keeps (C.mono (by decide)) ?_
      exact hP3
    · refine writePartial_keeps (C.mono (by decide)) ?_
      exact hP3

theorem readPacketWord_keeps {P : State → Prop} (C : Keeps [.indlog, .regs, .wld, .log, .queue, .mem, .data] P) {p_1 a_2 s_3} (hP3 : P s_3) : P (readPacketWord p_1 a_2 s_3).2 := by
  unfold readPacketWord
  split
  · try dsimp only
    exact hP3
  · refine readWord_keeps (C.mono (by decide)) ?_
    exact hP3

theorem readPacket_keeps {P : State → Prop} (C : Keeps [.indlog, .regs, .wld, .log, .queue, .mem, .data] P) {p as s} (h : P s) : P (readPacket p as s).2 := by
  induction as generalizing s with
  | nil => exact h
  | cons a as ih => exact ih (readPacketWord_keeps (C.mono (by decide)) h)

theorem upsetWord_keeps {P : State → Prop} (C : Keeps [.indlog, .regs, .log, .queue, .data] P) {p_1 s_2} (hP2 : P s_2) : P (upsetWord p_1 s_2) := by
  unfold upsetWord
  extract_lets -merge -useContext -underBinder +onlyGivenNames a0
  refine ite_keeps ?_ ?_
  · refine applyDev_keeps (C.mono (by decide)) ?_
    refine applyFlips_keeps (C.mono (by decide)) ?_
    exact hP2
  · exact hP2

theorem servePacket_keeps {P : State → Prop} (C : Keeps [.indlog, .regs, .wld, .log, .queue, .mem, .data, .sent] P) {p_1 s_2} (hP2 : P s_2) : P (servePacket p_1 s_2) := by
  unfold servePacket
  extract_lets -merge -useContext -underBinder +onlyGivenNames ws0 a1 s12 s23
  have h_s12 : P s12 := by
    unfold s12
    split
    · refine report_keeps (C.mono (by decide)) ?_
      exact hP2
    · exact hP2
  try clear_value s12
  have h_s23 : P s23 := by
    unfold s23
    refine upsetWord_keeps (C.mono (by decide)) ?_
    exact h_s12
  try clear_value s23
  split
  · refine countHbm_keeps (C.mono (by decide)) ?_
    refine foldl_keeps (fun s4 x5 hS6 => ?_) _ _ ?_
    · refine writeWord_keeps (C.mono (by decide)) ?_
      exact hS6
    · exact h_s23
  · extract_lets -merge -useContext -underBinder +onlyGivenNames r7
    have h_r7 : P r7.2 := by
      unfold r7
      refine readPacket_keeps (C.mono (by decide)) ?_
      exact h_s23
    try clear_value r7
    refine countHbm_keeps (C.mono (by decide)) ?_
    refine send_keeps (C.mono (by decide)) ?_
    exact h_r7

theorem execDataPacketRoute_keeps {P : State → Prop} (C : Keeps [.indlog, .regs, .cnd, .wld, .log, .queue, .mem, .data, .sent] P) {p_1 s_2} (hP2 : P s_2) : Next P (execDataPacketRoute p_1 s_2) := by
  unfold execDataPacketRoute
  extract_lets -merge -useContext -underBinder +onlyGivenNames a0 access1
  have h_access1 : ∀ ev2 sev3 s4, P s4 → P (access1 ev2 sev3 s4) := by
    intro ev2 sev3 s4 hS5
    unfold access1
    refine report_keeps (C.mono (by decide)) ?_
    exact hS5
  clear_value access1
  refine next_keeps ?_
  refine live_keeps (C.mono (by decide)) ?_ ?_
  · exact hP2
  · intro s6 hS7
    refine ite_keeps ?_ ?_
    · exact hS7
    · refine ite_keeps ?_ ?_
      · refine h_access1 _ _ _ ?_
        exact hS7
      · refine ite_keeps ?_ ?_
        · refine send_keeps (C.mono (by decide)) ?_
          refine h_access1 _ _ _ ?_
          exact hS7
        · refine ite_keeps ?_ ?_
          · refine setWait_keeps (C.mono (by decide)) ?_
            refine C.upd_mem (by decide) ?_
            exact hS7
          · refine servePacket_keeps (C.mono (by decide)) ?_
            exact hS7

theorem serveWaiting_keeps {P : State → Prop} (C : Keeps [.indlog, .regs, .cnd, .wld, .log, .queue, .mem, .data, .sent] P) {s_1} (hP1 : P s_1) : P (serveWaiting s_1) := by
  unfold serveWaiting
  extract_lets -merge -useContext -underBinder +onlyGivenNames go0
  refine foldl_keeps (fun s1 x2 hS3 => ?_) _ _ ?_
  · refine servePacket_keeps (C.mono (by decide)) ?_
    refine setWait_keeps (C.mono (by decide)) ?_
    exact hS3
  · refine C.upd_mem (by decide) ?_
    exact hP1

theorem beginPass_keeps {P : State → Prop} (C : Keeps [.mem] P) {hbm_1 s_2} (hP2 : P s_2) : P (beginPass hbm_1 s_2) := by
  unfold beginPass
  refine C.upd_mem (by decide) ?_
  exact hP2

theorem execScrubRead_keeps {P : State → Prop} (C : Keeps [.indlog, .regs, .wld, .log, .queue, .mem, .data] P) {hbm_1 addr_2 flips_3 dev_4 s_5} (hP5 : P s_5) : Next P (execScrubRead hbm_1 addr_2 flips_3 dev_4 s_5) := by
  unfold execScrubRead
  refine next_keeps ?_
  refine live_keeps (C.mono (by decide)) ?_ ?_
  · exact hP5
  · intro s0 hS1
    split
    · exact hS1
    · refine ite_keeps ?_ ?_
      · exact hS1
      · extract_lets -merge -useContext -underBinder +onlyGivenNames s12
        have h_s12 : P s12 := by
          unfold s12
          refine readWord_keeps (C.mono (by decide)) ?_
          refine applyDev_keeps (C.mono (by decide)) ?_
          refine applyFlips_keeps (C.mono (by decide)) ?_
          exact hS1
        try clear_value s12
        refine ite_keeps ?_ ?_
        · exact h_s12
        · refine ite_keeps ?_ ?_
          · refine beginPass_keeps (C.mono (by decide)) ?_
            refine setFld_keeps (C.mono (by decide)) ?_
            exact h_s12
          · refine beginPass_keeps (C.mono (by decide)) ?_
            refine setFld_keeps (C.mono (by decide)) ?_
            exact h_s12

theorem execScrubLag_keeps {P : State → Prop} (C : Keeps [.indlog, .regs, .log, .queue, .mem] P) {hbm_1 s_2} (hP2 : P s_2) : Next P (execScrubLag hbm_1 s_2) := by
  unfold execScrubLag
  refine next_keeps ?_
  refine live_keeps (C.mono (by decide)) ?_ ?_
  · exact hP2
  · intro s0 hS1
    extract_lets -merge -useContext -underBinder +onlyGivenNames i2 x3
    refine ite_keeps ?_ ?_
    · exact hS1
    · refine report_keeps (C.mono (by decide)) ?_
      refine setFlag_keeps (C.mono (by decide)) ?_
      refine C.upd_mem (by decide) ?_
      exact hS1

theorem execCeWindow_keeps {P : State → Prop} (C : Keeps [.indlog, .regs, .frame, .cnd, .safe, .log, .queue, .mem, .swp, .sec, .bus, .sent, .free] P) {m_1 bank_2 s_3} (hP3 : P s_3) : Next P (execCeWindow m_1 bank_2 s_3) := by
  unfold execCeWindow
  extract_lets -merge -useContext -underBinder +onlyGivenNames k0
  refine next_keeps ?_
  refine live_keeps (C.mono (by decide)) ?_ ?_
  · exact hP3
  · intro s1 hS2
    refine ite_keeps ?_ ?_
    · exact hS2
    · extract_lets -merge -useContext -underBinder +onlyGivenNames again3 __src4 s15 rec'6
      have h_s15 : P s15 := by
        unfold s15
        refine C.upd_mem (by decide) ?_
        exact hS2
      try clear_value s15
      have h_rec'6 : ∀ sev7 s8, P s8 → P (rec'6 sev7 s8) := by
        intro sev7 s8 hS9
        unfold rec'6
        refine report_keeps (C.mono (by decide)) ?_
        exact hS9
      clear_value rec'6
      refine ite_keeps ?_ ?_
      · refine h_rec'6 _ _ ?_
        exact h_s15
      · split
        · refine h_rec'6 _ _ ?_
          refine showSched_keeps (C.mono (by decide)) ?_
          refine kermesDue_keeps (C.mono (by decide)) ?_
          refine takeOut_keeps (C.mono (by decide)) ?_
          exact h_s15
        · refine h_rec'6 _ _ ?_
          refine kermesDue_keeps (C.mono (by decide)) ?_
          exact h_s15

theorem memEdge_keeps {P : State → Prop} (C : Keeps [.mem] P) {s_1} (hP1 : P s_1) : P (memEdge s_1) := by
  unfold memEdge
  refine ite_keeps ?_ ?_
  · refine C.upd_mem (by decide) ?_
    exact hP1
  · exact hP1

theorem cancelDone_keeps {P : State → Prop} (C : Keeps [.indlog, .regs, .cnd, .log, .queue, .sec, .bus, .sent, .free] P) {ctx_1 s_2} (hP2 : P s_2) : P (cancelDone ctx_1 s_2) := by
  unfold cancelDone
  split
  · exact hP2
  · extract_lets -merge -useContext -underBinder +onlyGivenNames o'0
    refine freeLease_keeps (C.mono (by decide)) ?_
    refine sendAnswer_keeps (C.mono (by decide)) ?_
    refine setOp_keeps (C.mono (by decide)) ?_
    exact hP2

theorem returnResource_keeps {P : State → Prop} (C : Keeps [.regs, .cnd] P) {cls_1 res_2 s_3} (hP3 : P s_3) : P (returnResource cls_1 res_2 s_3) := by
  unfold returnResource
  refine ite_keeps ?_ ?_
  · refine freeLease_keeps (C.mono (by decide)) ?_
    exact hP3
  · exact hP3

theorem wipeFrees_keeps {P : State → Prop} (C : Keeps [.indlog, .regs, .cnd, .log, .queue, .sec, .bus, .sent, .free] P) {region_1 s_2} (hP2 : P s_2) : P (wipeFrees region_1 s_2) := by
  unfold wipeFrees
  split
  · refine returnResource_keeps (C.mono (by decide)) ?_
    refine cancelDone_keeps (C.mono (by decide)) ?_
    exact hP2
  · refine returnResource_keeps (C.mono (by decide)) ?_
    exact hP2
  · exact hP2

theorem execWipeDone_keeps {P : State → Prop} (C : Keeps [.indlog, .regs, .cnd, .wld, .log, .queue, .mem, .data, .sec, .bus, .sent, .free] P) {region_1 readBackOk_2 s_3} (hP3 : P s_3) : Next P (execWipeDone region_1 readBackOk_2 s_3) := by
  unfold execWipeDone
  refine next_keeps ?_
  refine live_keeps (C.mono (by decide)) ?_ ?_
  · exact hP3
  · intro s0 hS1
    split
    · exact hS1
    · extract_lets -merge -useContext -underBinder +onlyGivenNames __src2 s13 s24
      have h_s13 : P s13 := by
        unfold s13
        refine zeroRanges_keeps (C.mono (by decide)) ?_
        refine C.upd_mem (by decide) ?_
        exact hS1
      try clear_value s13
      have h_s24 : P s24 := by
        unfold s24
        refine setFlag_keeps (C.mono (by decide)) ?_
        refine setSat_keeps (C.mono (by decide)) ?_
        exact h_s13
      try clear_value s24
      refine ite_keeps ?_ ?_
      · refine serveWaiting_keeps (C.mono (by decide)) ?_
        refine wipeFrees_keeps (C.mono (by decide)) ?_
        exact h_s24
      · extract_lets -merge -useContext -underBinder +onlyGivenNames a5
        refine setFlag_keeps (C.mono (by decide)) ?_
        refine memEvent_keeps (C.mono (by decide)) ?_
        refine C.upd_mem (by decide) ?_
        exact h_s24

theorem dmaWaits_keeps {P : State → Prop} (C : Keeps [.cnd] P) {served_1 here_2 s_3} (hP3 : P s_3) : P (dmaWaits served_1 here_2 s_3) := by
  unfold dmaWaits
  refine foldl_keeps (fun s0 x1 hS2 => ?_) _ _ ?_
  · split
    · exact hS2
    · refine ite_keeps ?_ ?_
      · refine setWait_keeps (C.mono (by decide)) ?_
        exact hS2
      · refine ite_keeps ?_ ?_
        · refine setWait_keeps (C.mono (by decide)) ?_
          exact hS2
        · exact hS2
  · exact hP3

theorem execDmaSegmentBoundary_keeps {P : State → Prop} (C : Keeps [.cnd, .mem] P) {port_1 arrivals_2 s_3} (hP3 : P s_3) : Next P (execDmaSegmentBoundary port_1 arrivals_2 s_3) := by
  unfold execDmaSegmentBoundary
  refine next_keeps ?_
  refine live_keeps (C.mono (by decide)) ?_ ?_
  · exact hP3
  · intro s0 hS1
    extract_lets -merge -useContext -underBinder +onlyGivenNames last2 moved3 came4 left5 here6 top7 cand8 next9
    refine dmaWaits_keeps (C.mono (by decide)) ?_
    refine C.upd_cnd_mem (by decide) ?_
    exact hS1

end Sys2Proof.Machine
end

