-- ==== Sys2Proof/Laws/KeepsPlan.lean ====
section
/-! SUPPORT. Laws/KeepsPlan.lean: which parts of the state the functions of Machine/Propose, Audit, Pair, Sweep, Select, Solver, Madder, Umber, Swap write: for each of
them, that a property which survives changes of those parts survives the function (Laws/Keeps.lean). -/

set_option Elab.async false

set_option linter.unusedVariables false

namespace Sys2Proof.Machine

theorem setDom_keeps {P : State → Prop} (C : Keeps [.swp] P) {x_1 s_2} (hP2 : P s_2) : P (setDom x_1 s_2) := by
  unfold setDom
  refine C.upd_swp (by decide) ?_
  exact hP2

theorem phaseDone_keeps {P : State → Prop} (C : Keeps [.frame] P) {p_1 s_2} (hP2 : P s_2) : P (phaseDone p_1 s_2) := by
  unfold phaseDone
  refine ite_keeps ?_ ?_
  · exact hP2
  · refine C.upd_frame (by decide) ?_
    exact hP2

theorem storeCands_keeps {P : State → Prop} (C : Keeps [.data, .swp] P) {d_1 cs_2 s_3} (hP3 : P s_3) : P (storeCands d_1 cs_2 s_3) := by
  unfold storeCands
  extract_lets -merge -useContext -underBinder +onlyGivenNames old0
  refine freshWords_keeps (C.mono (by decide)) ?_
  refine C.upd_swp (by decide) ?_
  exact hP3

theorem execCandidateWriterStart_keeps {P : State → Prop} (C : Keeps [.frame, .cnd, .data, .swp, .free] P) {dom_1 s_2} (hP2 : P s_2) : Next P (execCandidateWriterStart dom_1 s_2) := by
  unfold execCandidateWriterStart
  refine next_keeps ?_
  refine fabric_keeps (C.mono (by decide)) ?_ ?_
  · exact hP2
  · intro s0 hS1
    extract_lets -merge -useContext -underBinder +onlyGivenNames d2
    refine ite_keeps ?_ ?_
    · exact hS1
    · extract_lets -merge -useContext -underBinder +onlyGivenNames w3 __src4 x5 due6 __src7 s18 s29
      have h_s18 : P s18 := by
        unfold s18
        refine C.upd_cnd (by decide) ?_
        exact hS1
      try clear_value s18
      have h_s29 : P s29 := by
        unfold s29
        refine ite_keeps ?_ ?_
        · refine phaseDone_keeps (C.mono (by decide)) ?_
          exact h_s18
        · refine C.upd_free (by decide) ?_
          exact h_s18
      try clear_value s29
      refine setDom_keeps (C.mono (by decide)) ?_
      refine storeCands_keeps (C.mono (by decide)) ?_
      exact h_s29

theorem staleGoals_keeps {P : State → Prop} (C : Keeps [.cnd] P) {s_1} (hP1 : P s_1) : P (staleGoals s_1) := by
  unfold staleGoals
  extract_lets -merge -useContext -underBinder +onlyGivenNames stale0
  refine foldl_keeps (fun s1 x2 hS3 => ?_) _ _ ?_
  · refine queueAnswer_keeps (C.mono (by decide)) ?_
    refine endReq_keeps (C.mono (by decide)) ?_
    exact hS3
  · exact hP1

theorem staleNow_keeps {P : State → Prop} (C : Keeps [.cnd] P) {s_1} (hP1 : P s_1) : P (staleNow s_1) := by
  unfold staleNow
  extract_lets -merge -useContext -underBinder +onlyGivenNames stale0
  refine foldl_keeps (fun s1 x2 hS3 => ?_) _ _ ?_
  · refine queueAnswer_keeps (C.mono (by decide)) ?_
    refine endReq_keeps (C.mono (by decide)) ?_
    exact hS3
  · exact hP1

theorem openLists_keeps {P : State → Prop} (C : Keeps [.regs, .cnd, .sel] P) {s0_1} (hP1 : P s0_1) : P (openLists s0_1) := by
  unfold openLists
  extract_lets -merge -useContext -underBinder +onlyGivenNames s0 waiting1 firsts2 taken3 motion4
  have h_s0 : P s0 := by
    unfold s0
    refine staleGoals_keeps (C.mono (by decide)) ?_
    exact hP1
  try clear_value s0
  refine setFld_keeps (C.mono (by decide)) ?_
  refine C.upd_cnd_sel (by decide) ?_
  exact h_s0

theorem openLate_keeps {P : State → Prop} (C : Keeps [.regs, .cnd, .sel] P) {s_1} (hP1 : P s_1) : P (openLate s_1) := by
  unfold openLate
  extract_lets -merge -useContext -underBinder +onlyGivenNames s10
  have h_s10 : P s10 := by
    unfold s10
    refine staleNow_keeps (C.mono (by decide)) ?_
    exact hP1
  try clear_value s10
  refine ite_keeps ?_ ?_
  · exact h_s10
  · split
    · exact h_s10
    · refine ite_keeps ?_ ?_
      · exact h_s10
      · refine setFld_keeps (C.mono (by decide)) ?_
        refine C.upd_cnd_sel (by decide) ?_
        exact h_s10

theorem takePlanToGoal_keeps {P : State → Prop} (C : Keeps [.indlog, .regs, .cnd, .log, .queue, .swp, .sel, .sec, .bus, .sent, .free] P) {port_1 q_2 g_3 s_4} (hP4 : P s_4) : P (takePlanToGoal port_1 q_2 g_3 s_4) := by
  unfold takePlanToGoal
  refine fabric_keeps (C.mono (by decide)) ?_ ?_
  · exact hP4
  · intro s0 hS1
    refine takeRequest_keeps (C.mono (by decide)) ?_ ?_
    · intro s2 hS3
      refine openLate_keeps (C.mono (by decide)) ?_
      refine addPending_keeps (C.mono (by decide)) ?_
      exact hS3
    · exact hS1

theorem execPlanToGoal_keeps {P : State → Prop} (C : Keeps [.indlog, .regs, .cnd, .log, .queue, .swp, .sel, .sec, .bus, .sent, .free] P) {port_1 q_2 g_3 s_4} (hP4 : P s_4) : Next P (execPlanToGoal port_1 q_2 g_3 s_4) := by
  unfold execPlanToGoal
  refine next_keeps ?_
  refine takePlanToGoal_keeps (C.mono (by decide)) ?_
  exact hP4

theorem showPair_keeps {P : State → Prop} (C : Keeps [.regs] P) {s_1} (hP1 : P s_1) : P (showPair s_1) := by
  unfold showPair
  refine setFld_keeps (C.mono (by decide)) ?_
  refine setFlag_keeps (C.mono (by decide)) ?_
  refine setFlag_keeps (C.mono (by decide)) ?_
  exact hP1

theorem setPair_keeps {P : State → Prop} (C : Keeps [.regs, .pair] P) {p_1 s_2} (hP2 : P s_2) : P (setPair p_1 s_2) := by
  unfold setPair
  refine showPair_keeps (C.mono (by decide)) ?_
  refine C.upd_pair (by decide) ?_
  exact hP2

theorem woadEvent_keeps {P : State → Prop} (C : Keeps [.indlog, .regs, .log, .queue] P) {ev_1 sev_2 detail_3 s_4} (hP4 : P s_4) : P (woadEvent ev_1 sev_2 detail_3 s_4) := by
  unfold woadEvent
  refine report_keeps (C.mono (by decide)) ?_
  exact hP4

theorem degrade_keeps {P : State → Prop} (C : Keeps [.indlog, .regs, .log, .queue, .twin, .pair] P) {reason_1 s_2} (hP2 : P s_2) : P (degrade reason_1 s_2) := by
  unfold degrade
  refine ite_keeps ?_ ?_
  · exact hP2
  · extract_lets -merge -useContext -underBinder +onlyGivenNames p0
    refine woadEvent_keeps (C.mono (by decide)) ?_
    refine setFld_keeps (C.mono (by decide)) ?_
    refine setPair_keeps (C.mono (by decide)) ?_
    refine C.upd_twin (by decide) ?_
    exact hP2

theorem noteRejection_keeps {P : State → Prop} (C : Keeps [.indlog, .regs, .log, .queue, .twin, .pair] P) {s_1} (hP1 : P s_1) : P (noteRejection s_1) := by
  unfold noteRejection
  extract_lets -merge -useContext -underBinder +onlyGivenNames recent0 __src1 s12
  have h_s12 : P s12 := by
    unfold s12
    refine setSat_keeps (C.mono (by decide)) ?_
    refine C.upd_twin (by decide) ?_
    exact hP1
  try clear_value s12
  refine ite_keeps ?_ ?_
  · refine degrade_keeps (C.mono (by decide)) ?_
    exact h_s12
  · exact h_s12

theorem sendOffer_keeps {P : State → Prop} (C : Keeps [.twin, .sent, .free] P) {t_1 s_2} (hP2 : P s_2) : P (sendOffer t_1 s_2) := by
  unfold sendOffer
  refine ite_keeps ?_ ?_
  · exact hP2
  · extract_lets -merge -useContext -underBinder +onlyGivenNames o0
    refine sendWoad_keeps (C.mono (by decide)) ?_
    refine C.upd_twin_free (by decide) ?_
    exact hP2

theorem sendVerdict_keeps {P : State → Prop} (C : Keeps [.twin, .sent] P) {twin_1 v_2 detail_3 s_4} (hP4 : P s_4) : P (sendVerdict twin_1 v_2 detail_3 s_4) := by
  unfold sendVerdict
  refine ite_keeps ?_ ?_
  · exact hP4
  · refine sendWoad_keeps (C.mono (by decide)) ?_
    exact hP4

theorem sendDigests_keeps {P : State → Prop} (C : Keeps [.twin, .sent] P) {s_1} (hP1 : P s_1) : P (sendDigests s_1) := by
  unfold sendDigests
  extract_lets -merge -useContext -underBinder +onlyGivenNames ds0
  refine sendWoad_keeps (C.mono (by decide)) ?_
  refine C.upd_twin (by decide) ?_
  exact hP1

theorem setTile_keeps {P : State → Prop} (C : Keeps [.regs, .swp] P) {u_1 t_2 s_3} (hP3 : P s_3) : P (setTile u_1 t_2 s_3) := by
  unfold setTile
  refine setFld_keeps (C.mono (by decide)) ?_
  refine C.upd_swp (by decide) ?_
  exact hP3

theorem sepiaElement_keeps {P : State → Prop} (C : Keeps [.indlog, .regs, .log, .queue] P) {u_1 kind_2 cand_3 elem_4 a_5 timeout_6 s_7} (hP7 : P s_7) : P (sepiaElement u_1 kind_2 cand_3 elem_4 a_5 timeout_6 s_7) := by
  unfold sepiaElement
  extract_lets -merge -useContext -underBinder +onlyGivenNames c0 t1 s12
  have h_s12 : P s12 := by
    unfold s12
    refine countTile_keeps (C.mono (by decide)) ?_
    refine report_keeps (C.mono (by decide)) ?_
    exact hP7
  try clear_value s12
  refine ite_keeps ?_ ?_
  · exact h_s12
  · refine setFld_keeps (C.mono (by decide)) ?_
    refine setFld_keeps (C.mono (by decide)) ?_
    refine capture_keeps (C.mono (by decide)) ?_
    exact h_s12

theorem countSepia_keeps {P : State → Prop} (C : Keeps [.regs] P) {u_1 s_2} (hP2 : P s_2) : P (countSepia u_1 s_2) := by
  unfold countSepia
  refine bump_keeps (C.mono (by decide)) ?_
  exact hP2

theorem sepiaContact_keeps {P : State → Prop} (C : Keeps [.regs] P) {u_1 f_2 k_3 t_4 s_5} (hP5 : P s_5) : P (sepiaContact u_1 f_2 k_3 t_4 s_5).1 := by
  unfold sepiaContact
  extract_lets -merge -useContext -underBinder +onlyGivenNames s10
  have h_s10 : P s10 := by
    unfold s10
    refine countSepia_keeps (C.mono (by decide)) ?_
    exact hP5
  try clear_value s10
  try dsimp only
  exact h_s10

theorem placePair_keeps {P : State → Prop} (C : Keeps [.indlog, .regs, .wld, .log, .queue, .mem, .data] P) {u_1 x_2 k_3 i_4 s_5 t_6 f_7} (hP5 : P s_5) : P (placePair u_1 x_2 k_3 i_4 s_5 t_6 f_7).1 := by
  unfold placePair
  extract_lets -merge -useContext -underBinder +onlyGivenNames p0 req1
  split
  · try dsimp only
    exact hP5
  · split
    · try dsimp only
      exact hP5
    · extract_lets -merge -useContext -underBinder +onlyGivenNames a2 r3
      have h_r3 : P r3.2 := by
        unfold r3
        refine probeWord_keeps (C.mono (by decide)) ?_
        exact hP5
      try clear_value r3
      split
      · extract_lets -merge -useContext -underBinder +onlyGivenNames cell4 q5
        have h_q5 : P q5.1 := by
          unfold q5
          refine sepiaContact_keeps (C.mono (by decide)) ?_
          refine scheduleRewrite_keeps (C.mono (by decide)) ?_
          refine sepiaElement_keeps (C.mono (by decide)) ?_
          exact h_r3
        try clear_value q5
        try dsimp only
        exact h_q5
      · extract_lets -merge -useContext -underBinder +onlyGivenNames b6
        split
        · extract_lets -merge -useContext -underBinder +onlyGivenNames n7
          try dsimp only
          exact h_r3
        · try dsimp only
          exact h_r3

theorem placePairs_keeps {P : State → Prop} (C : Keeps [.indlog, .regs, .wld, .log, .queue, .mem, .data] P) {u x l r} (h : P r.1) : P (placePairs u x l r).1 := by
  induction l generalizing r with
  | nil => exact h
  | cons p rest ih =>
    obtain ⟨s, t, f⟩ := r
    obtain ⟨k, i⟩ := p
    cases f with
    | none => exact h
    | some f =>
      simp only [placePairs]
      have h1 : P (countTile u 0x12 (if (((pairsOf x).take f.placed).all fun p => decide (p.1 ≠ k)) then keepOutTest s x k else (.clear, 0)).2 s) :=
        countTile_keeps (C.mono (by decide)) h
      split
      · exact h
      · split
        · exact countTile_keeps (C.mono (by decide)) h
        · refine sepiaContact_keeps (C.mono (by decide)) (f_2 := f) (k_3 := k) (t_4 := t) ?_
          refine sepiaElement_keeps (C.mono (by decide)) ?_
          refine probeWord_keeps (C.mono (by decide)) ?_
          exact countTile_keeps (C.mono (by decide)) h
        · refine ih (placePair_keeps (C.mono (by decide)) ?_)
          exact countTile_keeps (C.mono (by decide)) h

theorem advanceCand_keeps {P : State → Prop} (C : Keeps [.indlog, .regs, .wld, .log, .queue, .mem, .data] P) {u_1 st_2 index_3} (hP2 : P st_2.1) : P (advanceCand u_1 st_2 index_3).1 := by
  unfold advanceCand
  extract_lets -merge -useContext -underBinder +onlyGivenNames s0 t1
  have h_s0 : P s0 := by
    unfold s0
    exact hP2
  try clear_value s0
  split
  · exact hP2
  · split
    · try dsimp only
      exact h_s0
    · split
      · try dsimp only
        exact h_s0
      · split
        · rename_i s12 t13 he4
          have hm5 : P s12 := by
            have e := (congrArg Prod.fst he4)
            try dsimp only at e
            rw [← e]
            refine placePairs_keeps (C.mono (by decide)) ?_
            try dsimp only
            exact h_s0
          try dsimp only
          exact hm5
        · rename_i s16 t17 f18 he9
          have hm10 : P s16 := by
            have e := (congrArg Prod.fst he9)
            try dsimp only at e
            rw [← e]
            refine placePairs_keeps (C.mono (by decide)) ?_
            try dsimp only
            exact h_s0
          try dsimp only
          exact hm10

theorem expansionGuard_keeps {P : State → Prop} (C : Keeps [.indlog, .regs, .log, .queue, .free] P) {u_1 s_2} (hP2 : P s_2) : P (expansionGuard u_1 s_2) := by
  unfold expansionGuard
  extract_lets -merge -useContext -underBinder +onlyGivenNames f0
  have h_f0 : P f0.2 := by
    unfold f0
    refine nextFree_keeps (C.mono (by decide)) ?_
    exact hP2
  try clear_value f0
  refine report_keeps (C.mono (by decide)) ?_
  exact h_f0

theorem startCand_keeps {P : State → Prop} (C : Keeps [.indlog, .regs, .wld, .log, .queue, .inf, .mem, .data, .swp, .free] P) {u_1 st_2 index_3} (hP2 : P st_2.1) : P (startCand u_1 st_2 index_3).1 := by
  unfold startCand
  extract_lets -merge -useContext -underBinder +onlyGivenNames s0 f1 __src2 t3 d4
  have h_s0 : P s0 := by
    unfold s0
    exact hP2
  try clear_value s0
  split
  · try dsimp only
    exact h_s0
  · split
    · refine sepiaContact_keeps (C.mono (by decide)) ?_
      refine sepiaElement_keeps (C.mono (by decide)) ?_
      refine probeWord_keeps (C.mono (by decide)) ?_
      exact h_s0
    · split
      · extract_lets -merge -useContext -underBinder +onlyGivenNames dom5 v6 s'7 __src8 s19
        have h_s'7 : P s'7 := by
          unfold s'7
          refine bumpBy_keeps (C.mono (by decide)) ?_
          refine addRg_keeps (C.mono (by decide)) ?_
          exact h_s0
        try clear_value s'7
        have h_s19 : P s19 := by
          unfold s19
          refine ite_keeps ?_ ?_
          · refine setDom_keeps (C.mono (by decide)) ?_
            exact h_s0
          · refine ite_keeps ?_ ?_
            · refine ite_keeps ?_ ?_
              · exact h_s'7
              · refine expansionGuard_keeps (C.mono (by decide)) ?_
                refine C.upd_inf (by decide) ?_
                exact h_s'7
            · exact h_s0
        try clear_value s19
        try dsimp only
        exact h_s19
      · refine advanceCand_keeps (C.mono (by decide)) ?_
        try dsimp only
        exact h_s0

theorem fillFlight_keeps {P : State → Prop} (C : Keeps [.indlog, .regs, .wld, .log, .queue, .inf, .mem, .data, .swp, .free] P) {u is st} (h : P st.1) : P (fillFlight u is st).1 := by
  induction is generalizing st with
  | nil => exact h
  | cons i is ih =>
    unfold fillFlight
    split
    · exact ih (startCand_keeps (C.mono (by decide)) h)
    · exact h

theorem countQueries_keeps {P : State → Prop} (C : Keeps [.regs] P) {u_1 t0_2 s_3} (hP3 : P s_3) : P (countQueries u_1 t0_2 s_3) := by
  unfold countQueries
  extract_lets -merge -useContext -underBinder +onlyGivenNames t0 more1 s12
  have h_s12 : P s12 := by
    unfold s12
    refine foldl_keeps (fun s3 x4 hS5 => ?_) _ _ ?_
    · refine countTile_keeps (C.mono (by decide)) ?_
      exact hS5
    · exact hP3
  try clear_value s12
  refine countTile_keeps (C.mono (by decide)) ?_
  exact h_s12

theorem pumpTile_keeps {P : State → Prop} (C : Keeps [.indlog, .regs, .wld, .log, .queue, .inf, .mem, .data, .swp, .free] P) {u_1 s_2} (hP2 : P s_2) : P (pumpTile u_1 s_2) := by
  unfold pumpTile
  extract_lets -merge -useContext -underBinder +onlyGivenNames t0 st1 fin2
  have h_st1 : P st1.1 := by
    unfold st1
    refine foldl_keeps (P := fun q => P (Prod.fst q)) (fun st3 x4 hS5 => ?_) _ _ ?_
    · refine advanceCand_keeps (C.mono (by decide)) ?_
      exact hS5
    · try dsimp only
      exact hP2
  try clear_value st1
  have h_fin2 : P fin2.1 := by
    unfold fin2
    refine fillFlight_keeps (C.mono (by decide)) ?_
    exact h_st1
  try clear_value fin2
  refine countQueries_keeps (C.mono (by decide)) ?_
  refine setTile_keeps (C.mono (by decide)) ?_
  exact h_fin2

theorem showRunning_keeps {P : State → Prop} (C : Keeps [.regs] P) {u_1 node_2 s_3} (hP3 : P s_3) : P (showRunning u_1 node_2 s_3) := by
  unfold showRunning
  refine ite_keeps ?_ ?_
  · refine setFld_keeps (C.mono (by decide)) ?_
    refine setFld_keeps (C.mono (by decide)) ?_
    exact hP3
  · refine ite_keeps ?_ ?_
    · refine setFld_keeps (C.mono (by decide)) ?_
      refine setFld_keeps (C.mono (by decide)) ?_
      exact hP3
    · exact hP3

theorem startUnit_keeps {P : State → Prop} (C : Keeps [.regs, .cnd] P) {u_1 s_2} (hP2 : P s_2) : P (startUnit u_1 s_2) := by
  unfold startUnit
  split
  · refine ite_keeps ?_ ?_
    · exact hP2
    · refine setOp_keeps (C.mono (by decide)) ?_
      exact hP2
  · exact hP2

theorem grantNode_keeps {P : State → Prop} (C : Keeps [.regs, .cnd] P) {u_1 e_2 item_3 s_4} (hP4 : P s_4) : P (grantNode u_1 e_2 item_3 s_4) := by
  unfold grantNode
  extract_lets -merge -useContext -underBinder +onlyGivenNames more0 g1
  refine showSched_keeps (C.mono (by decide)) ?_
  refine startUnit_keeps (C.mono (by decide)) ?_
  refine showRunning_keeps (C.mono (by decide)) ?_
  refine recordGrant_keeps (C.mono (by decide)) ?_
  refine takeReadiness_keeps (C.mono (by decide)) ?_
  exact hP4

theorem grantBlock_keeps {P : State → Prop} (C : Keeps [.indlog, .regs, .cnd, .wld, .log, .queue, .inf, .mem, .data, .swp, .free] P) {u_1 e_2 b_3 s_4} (hP4 : P s_4) : P (grantBlock u_1 e_2 b_3 s_4) := by
  unfold grantBlock
  extract_lets -merge -useContext -underBinder +onlyGivenNames d0 s11 g2 s23 t4
  have h_s11 : P s11 := by
    unfold s11
    refine setDom_keeps (C.mono (by decide)) ?_
    exact hP4
  try clear_value s11
  have h_s23 : P s23 := by
    unfold s23
    refine recordGrant_keeps (C.mono (by decide)) ?_
    refine takeReadiness_keeps (C.mono (by decide)) ?_
    exact h_s11
  try clear_value s23
  refine showSched_keeps (C.mono (by decide)) ?_
  refine pumpTile_keeps (C.mono (by decide)) ?_
  refine countTile_keeps (C.mono (by decide)) ?_
  refine startUnit_keeps (C.mono (by decide)) ?_
  refine showRunning_keeps (C.mono (by decide)) ?_
  refine setTile_keeps (C.mono (by decide)) ?_
  exact h_s23

theorem execWorkGrant_keeps {P : State → Prop} (C : Keeps [.indlog, .regs, .cnd, .wld, .log, .queue, .inf, .mem, .data, .swp, .free] P) {unit_1 s_2} (hP2 : P s_2) : Next P (execWorkGrant unit_1 s_2) := by
  unfold execWorkGrant
  refine next_keeps ?_
  refine fabric_keeps (C.mono (by decide)) ?_ ?_
  · exact hP2
  · intro s0 hS1
    refine ite_keeps ?_ ?_
    · exact hS1
    · split
      · exact hS1
      · split
        · exact hS1
        · refine ite_keeps ?_ ?_
          · split
            · refine ite_keeps ?_ ?_
              · exact hS1
              · refine grantBlock_keeps (C.mono (by decide)) ?_
                exact hS1
            · exact hS1
          · split
            · refine grantNode_keeps (C.mono (by decide)) ?_
              exact hS1
            · split
              · refine grantNode_keeps (C.mono (by decide)) ?_
                exact hS1
              · exact hS1

theorem execGatherIssue_keeps {P : State → Prop} (C : Keeps [.regs, .swp] P) {tile_1 s_2} (hP2 : P s_2) : Next P (execGatherIssue tile_1 s_2) := by
  unfold execGatherIssue
  extract_lets -merge -useContext -underBinder +onlyGivenNames u0
  refine next_keeps ?_
  refine fabric_keeps (C.mono (by decide)) ?_ ?_
  · exact hP2
  · intro s1 hS2
    extract_lets -merge -useContext -underBinder +onlyGivenNames t3
    split
    · exact hS2
    · extract_lets -merge -useContext -underBinder +onlyGivenNames r4
      refine countTile_keeps (C.mono (by decide)) ?_
      refine countTile_keeps (C.mono (by decide)) ?_
      refine setTile_keeps (C.mono (by decide)) ?_
      exact hS2

theorem lateBrick_keeps {P : State → Prop} (C : Keeps [.indlog, .regs, .frame, .log, .queue] P) {s_1} (hP1 : P s_1) : P (lateBrick s_1) := by
  unfold lateBrick
  refine setFlag_keeps (C.mono (by decide)) ?_
  refine doubtEvent_keeps (C.mono (by decide)) ?_
  refine C.upd_frame (by decide) ?_
  exact hP1

theorem endRead_keeps {P : State → Prop} (C : Keeps [.regs, .swp] P) {u_1 r_2 s_3} (hP3 : P s_3) : P (endRead u_1 r_2 s_3) := by
  unfold endRead
  extract_lets -merge -useContext -underBinder +onlyGivenNames t0
  split
  · extract_lets -merge -useContext -underBinder +onlyGivenNames q1
    have h_q1 : P q1.1 := by
      unfold q1
      refine sepiaContact_keeps (C.mono (by decide)) ?_
      exact hP3
    try clear_value q1
    refine setTile_keeps (C.mono (by decide)) ?_
    exact h_q1
  · exact hP3

theorem answerElement_keeps {P : State → Prop} (C : Keeps [.indlog, .regs, .frame, .wld, .log, .queue, .mem, .data, .swp] P) {u_1 stage_2 upsets_3 s_4 x_5} (hP4 : P s_4) : P (answerElement u_1 stage_2 upsets_3 s_4 x_5) := by
  unfold answerElement
  split
  · exact hP4
  · extract_lets -merge -useContext -underBinder +onlyGivenNames p0 a1 s12 beyond3 r4
    have h_s12 : P s12 := by
      unfold s12
      split
      · refine applyFlips_keeps (C.mono (by decide)) ?_
        exact hP4
      · exact hP4
    try clear_value s12
    have h_r4 : P r4.2 := by
      unfold r4
      split
      · try dsimp only
        refine report_keeps (C.mono (by decide)) ?_
        exact h_s12
      · refine probeWord_keeps (C.mono (by decide)) ?_
        exact h_s12
    try clear_value r4
    refine ite_keeps ?_ ?_
    · refine endRead_keeps (C.mono (by decide)) ?_
      refine sepiaElement_keeps (C.mono (by decide)) ?_
      exact h_r4
    · extract_lets -merge -useContext -underBinder +onlyGivenNames s25
      have h_s25 : P s25 := by
        unfold s25
        refine ite_keeps ?_ ?_
        · refine lateBrick_keeps (C.mono (by decide)) ?_
          exact h_r4
        · exact h_r4
      try clear_value s25
      refine setTile_keeps (C.mono (by decide)) ?_
      exact h_s25

theorem execGatherAnswer_keeps {P : State → Prop} (C : Keeps [.indlog, .regs, .frame, .wld, .log, .queue, .inf, .mem, .data, .swp, .free] P) {tile_1 which_2 upsets_3 s_4} (hP4 : P s_4) : Next P (execGatherAnswer tile_1 which_2 upsets_3 s_4) := by
  unfold execGatherAnswer
  extract_lets -merge -useContext -underBinder +onlyGivenNames u0
  refine next_keeps ?_
  refine fabric_keeps (C.mono (by decide)) ?_ ?_
  · exact hP4
  · intro s1 hS2
    split
    · exact hS2
    · extract_lets -merge -useContext -underBinder +onlyGivenNames t03 s04
      have h_s04 : P s04 := by
        unfold s04
        refine setTile_keeps (C.mono (by decide)) ?_
        exact hS2
      try clear_value s04
      refine pumpTile_keeps (C.mono (by decide)) ?_
      refine countQueries_keeps (C.mono (by decide)) ?_
      refine foldl_keeps (fun s5 x6 hS7 => ?_) _ _ ?_
      · refine answerElement_keeps (C.mono (by decide)) ?_
        exact hS7
      · exact h_s04

theorem execGatherTimeout_keeps {P : State → Prop} (C : Keeps [.indlog, .regs, .wld, .log, .queue, .inf, .mem, .data, .swp, .free] P) {tile_1 which_2 s_3} (hP3 : P s_3) : Next P (execGatherTimeout tile_1 which_2 s_3) := by
  unfold execGatherTimeout
  extract_lets -merge -useContext -underBinder +onlyGivenNames u0
  refine next_keeps ?_
  refine fabric_keeps (C.mono (by decide)) ?_ ?_
  · exact hP3
  · intro s1 hS2
    split
    · exact hS2
    · refine ite_keeps ?_ ?_
      · exact hS2
      · extract_lets -merge -useContext -underBinder +onlyGivenNames t03 s04 r5 a6 s17
        have h_s04 : P s04 := by
          unfold s04
          refine setTile_keeps (C.mono (by decide)) ?_
          exact hS2
        try clear_value s04
        have h_s17 : P s17 := by
          unfold s17
          refine countTile_keeps (C.mono (by decide)) ?_
          refine sepiaElement_keeps (C.mono (by decide)) ?_
          exact h_s04
        try clear_value s17
        refine pumpTile_keeps (C.mono (by decide)) ?_
        refine countQueries_keeps (C.mono (by decide)) ?_
        refine foldl_keeps (fun s8 x9 hS10 => ?_) _ _ ?_
        · refine endRead_keeps (C.mono (by decide)) ?_
          exact hS10
        · exact h_s17

theorem readOut_keeps {P : State → Prop} (C : Keeps [.indlog, .regs, .wld, .log, .queue, .mem, .data] P) {u n es s} (h : P s) : P (readOut u n es s).2 := by
  induction es generalizing n s with
  | nil => exact h
  | cons e es ih => exact ih (probeWord_keeps (C.mono (by decide)) (probeWord_keeps (C.mono (by decide)) h))

theorem execKeyPacketSend_keeps {P : State → Prop} (C : Keeps [.indlog, .regs, .wld, .log, .queue, .mem, .data, .swp] P) {tile_1 s_2} (hP2 : P s_2) : Next P (execKeyPacketSend tile_1 s_2) := by
  unfold execKeyPacketSend
  extract_lets -merge -useContext -underBinder +onlyGivenNames u0
  refine next_keeps ?_
  refine fabric_keeps (C.mono (by decide)) ?_ ?_
  · exact hP2
  · intro s1 hS2
    extract_lets -merge -useContext -underBinder +onlyGivenNames t3 n4
    refine ite_keeps ?_ ?_
    · exact hS2
    · extract_lets -merge -useContext -underBinder +onlyGivenNames r5
      have h_r5 : P r5.2 := by
        unfold r5
        refine readOut_keeps (C.mono (by decide)) ?_
        exact hS2
      try clear_value r5
      refine setTile_keeps (C.mono (by decide)) ?_
      exact h_r5

theorem execFlushLead_keeps {P : State → Prop} (C : Keeps [.swp] P) {s_1} (hP1 : P s_1) : Next P (execFlushLead s_1) := by
  unfold execFlushLead
  refine next_keeps ?_
  refine fabric_keeps (C.mono (by decide)) ?_ ?_
  · exact hP1
  · intro s0 hS1
    refine ite_keeps ?_ ?_
    · refine C.upd_swp (by decide) ?_
      exact hS1
    · exact hS1

theorem addSlots_keeps {P : State → Prop} (C : Keeps [.regs] P) {lo_1 hi_2 n_3 s_4} (hP4 : P s_4) : P (addSlots lo_1 hi_2 n_3 s_4) := by
  unfold addSlots
  extract_lets -merge -useContext -underBinder +onlyGivenNames v0
  refine setFld_keeps (C.mono (by decide)) ?_
  refine setFld_keeps (C.mono (by decide)) ?_
  exact hP4

theorem countOpen_keeps {P : State → Prop} (C : Keeps [.free] P) {count_1 s_2 ev_3} (hP1 : ∀ z1 z2 z3, P z3 → P (count_1 z1 z2 z3)) (hP2 : P s_2) : P (countOpen count_1 s_2 ev_3) := by
  unfold countOpen
  extract_lets -merge -useContext -underBinder +onlyGivenNames f0
  have h_f0 : P f0.2 := by
    unfold f0
    refine nextFree_keeps (C.mono (by decide)) ?_
    exact hP2
  try clear_value f0
  refine hP1 _ _ _ ?_
  exact h_f0

theorem settleTile_keeps {P : State → Prop} (C : Keeps [.regs, .swp, .free] P) {s_1 u_2} (hP1 : P s_1) : P (settleTile s_1 u_2) := by
  unfold settleTile
  refine ite_keeps ?_ ?_
  · exact hP1
  · extract_lets -merge -useContext -underBinder +onlyGivenNames w0 d1 old2 new3 __src4 s15 s26 s37
    have h_s15 : P s15 := by
      unfold s15
      refine C.upd_swp_free (by decide) ?_
      exact hP1
    try clear_value s15
    have h_s26 : P s26 := by
      unfold s26
      refine ite_keeps ?_ ?_
      · refine addSlots_keeps (C.mono (by decide)) ?_
        exact h_s15
      · refine addSlots_keeps (C.mono (by decide)) ?_
        exact h_s15
    try clear_value s26
    have h_s37 : P s37 := by
      unfold s37
      refine foldl_keeps (fun s8 x9 hS10 => ?_) _ _ ?_
      · refine countTile_keeps (C.mono (by decide)) ?_
        exact hS10
      · exact h_s26
    try clear_value s37
    refine ite_keeps ?_ ?_
    · refine foldl_keeps (fun s11 x12 hS13 => ?_) _ _ ?_
      · refine countOpen_keeps (C.mono (by decide)) ?_ ?_
        · intro ev14 n15 s16 hS17
          refine countTile_keeps (C.mono (by decide)) ?_
          exact hS17
        · exact hS13
      · exact h_s37
    · exact h_s37

theorem settle_keeps {P : State → Prop} (C : Keeps [.regs, .swp, .free] P) {s_1} (hP1 : P s_1) : P (settle s_1) := by
  unfold settle
  extract_lets -merge -useContext -underBinder +onlyGivenNames __src0 s11 s22
  have h_s11 : P s11 := by
    unfold s11
    refine foldl_keeps (fun s3 x4 hS5 => ?_) _ _ ?_
    · refine settleTile_keeps (C.mono (by decide)) ?_
      exact hS5
    · refine C.upd_swp (by decide) ?_
      exact hP1
  try clear_value s11
  have h_s22 : P s22 := by
    unfold s22
    refine foldl_keeps (fun s6 x7 hS8 => ?_) _ _ ?_
    · refine foldl_keeps (fun s9 x10 hS11 => ?_) _ _ ?_
      · refine countOpen_keeps (C.mono (by decide)) ?_ ?_
        · intro ev12 n13 s14 hS15
          refine countSteward_keeps (C.mono (by decide)) ?_
          exact hS15
        · exact hS11
      · exact hS8
    · exact h_s11
  try clear_value s22
  refine countOpen_keeps (C.mono (by decide)) ?_ ?_
  · intro ev16 n17 s18 hS19
    refine countDie_keeps (C.mono (by decide)) ?_
    exact hS19
  · exact h_s22

theorem stopTiles_keeps {P : State → Prop} (C : Keeps [.regs, .swp, .free] P) {s0_1} (hP1 : P s0_1) : P (stopTiles s0_1) := by
  unfold stopTiles
  extract_lets -merge -useContext -underBinder +onlyGivenNames s0 stop1 s12
  have h_s0 : P s0 := by
    unfold s0
    refine settle_keeps (C.mono (by decide)) ?_
    exact hP1
  try clear_value s0
  have h_s12 : P s12 := by
    unfold s12
    refine foldl_keeps (fun s3 x4 hS5 => ?_) _ _ ?_
    · refine setFld_keeps (C.mono (by decide)) ?_
      exact hS5
    · exact h_s0
  try clear_value s12
  refine C.upd_swp (by decide) ?_
  exact h_s12

theorem execL2RewriteDone_keeps {P : State → Prop} (C : Keeps [.mem, .data] P) {tile_1 cell_2 s_3} (hP3 : P s_3) : Next P (execL2RewriteDone tile_1 cell_2 s_3) := by
  unfold execL2RewriteDone
  extract_lets -merge -useContext -underBinder +onlyGivenNames u0 i1
  refine next_keeps ?_
  refine fabric_keeps (C.mono (by decide)) ?_ ?_
  · exact hP3
  · intro s2 hS3
    refine ite_keeps ?_ ?_
    · refine freshWords_keeps (C.mono (by decide)) ?_
      refine C.upd_mem (by decide) ?_
      exact hS3
    · exact hS3

theorem showSteward_keeps {P : State → Prop} (C : Keeps [.regs] P) {c_1 s_2} (hP2 : P s_2) : P (showSteward c_1 s_2) := by
  unfold showSteward
  extract_lets -merge -useContext -underBinder +onlyGivenNames pool0
  refine setFld_keeps (C.mono (by decide)) ?_
  exact hP2

theorem execTestSliceDone_keeps {P : State → Prop} (C : Keeps [.indlog, .regs, .frame, .cnd, .safe, .log, .queue, .mem, .swp, .sec, .bus, .sent, .free] P) {o_1 s_2} (hP2 : P s_2) : Next P (execTestSliceDone o_1 s_2) := by
  unfold execTestSliceDone
  refine next_keeps ?_
  refine fabric_keeps (C.mono (by decide)) ?_ ?_
  · exact hP2
  · intro s0 hS1
    split
    · exact hS1
    · extract_lets -merge -useContext -underBinder +onlyGivenNames c2 t3
      refine ite_keeps ?_ ?_
      · refine setMaskBit_keeps (C.mono (by decide)) ?_
        exact hS1
      · extract_lets -merge -useContext -underBinder +onlyGivenNames s14
        have h_s14 : P s14 := by
          unfold s14
          refine bump_keeps (C.mono (by decide)) ?_
          refine setMaskBit_keeps (C.mono (by decide)) ?_
          refine setMaskBit_keeps (C.mono (by decide)) ?_
          exact hS1
        try clear_value s14
        refine showSteward_keeps (C.mono (by decide)) ?_
        refine showSched_keeps (C.mono (by decide)) ?_
        refine report_keeps (C.mono (by decide)) ?_
        refine kermesDue_keeps (C.mono (by decide)) ?_
        refine takeOut_keeps (C.mono (by decide)) ?_
        exact h_s14

theorem takeStwQuarWrite_keeps {P : State → Prop} (C : Keeps [.indlog, .regs, .frame, .cnd, .safe, .log, .queue, .mem, .swp, .sec, .bus, .sent, .free] P) {r_1 c_2 bits_3 s_4} (hP4 : P s_4) : P (takeStwQuarWrite r_1 c_2 bits_3 s_4) := by
  unfold takeStwQuarWrite
  extract_lets -merge -useContext -underBinder +onlyGivenNames allowed0
  refine live_keeps (C.mono (by decide)) ?_ ?_
  · exact hP4
  · intro s1 hS2
    refine ite_keeps ?_ ?_
    · refine refuseAccess_keeps (C.mono (by decide)) ?_
      exact hS2
    · refine showSteward_keeps (C.mono (by decide)) ?_
      refine showSched_keeps (C.mono (by decide)) ?_
      refine foldl_keeps (fun s3 x4 hS5 => ?_) _ _ ?_
      · refine takeOut_keeps (C.mono (by decide)) ?_
        exact hS5
      · exact hS2

theorem execStwQuarWrite_keeps {P : State → Prop} (C : Keeps [.indlog, .regs, .frame, .cnd, .safe, .log, .queue, .mem, .swp, .sec, .bus, .sent, .free] P) {r_1 c_2 bits_3 s_4} (hP4 : P s_4) : Next P (execStwQuarWrite r_1 c_2 bits_3 s_4) := by
  unfold execStwQuarWrite
  refine next_keeps ?_
  refine takeStwQuarWrite_keeps (C.mono (by decide)) ?_
  exact hP4

theorem takeSwpStwRelease_keeps {P : State → Prop} (C : Keeps [.indlog, .regs, .cnd, .log, .queue, .sent] P) {r_1 c_2 bits_3 s_4} (hP4 : P s_4) : P (takeSwpStwRelease r_1 c_2 bits_3 s_4) := by
  unfold takeSwpStwRelease
  refine live_keeps (C.mono (by decide)) ?_ ?_
  · exact hP4
  · intro s0 hS1
    refine ite_keeps ?_ ?_
    · refine refuseAccess_keeps (C.mono (by decide)) ?_
      exact hS1
    · refine foldl_keeps (fun s2 x3 hS4 => ?_) _ _ ?_
      · refine releaseUnit_keeps (C.mono (by decide)) ?_
        exact hS4
      · exact hS1

theorem execSwpStwRelease_keeps {P : State → Prop} (C : Keeps [.indlog, .regs, .cnd, .log, .queue, .sent] P) {r_1 c_2 bits_3 s_4} (hP4 : P s_4) : Next P (execSwpStwRelease r_1 c_2 bits_3 s_4) := by
  unfold execSwpStwRelease
  refine next_keeps ?_
  refine takeSwpStwRelease_keeps (C.mono (by decide)) ?_
  exact hP4

theorem execPeerCheck_keeps {P : State → Prop} (C : Keeps [.indlog, .regs, .frame, .cnd, .safe, .log, .queue, .mem, .swp, .sec, .bus, .sent, .free] P) {c_1 s_2} (hP2 : P s_2) : Next P (execPeerCheck c_1 s_2) := by
  unfold execPeerCheck
  refine next_keeps ?_
  refine fabric_keeps (C.mono (by decide)) ?_ ?_
  · exact hP2
  · intro s0 hS1
    refine ite_keeps ?_ ?_
    · exact hS1
    · extract_lets -merge -useContext -underBinder +onlyGivenNames units2 pool3 ratio4 bad5 near6 __src7 shown8
      have h_shown8 : P shown8 := by
        unfold shown8
        refine foldl_keeps (fun s'9 x10 hS11 => ?_) _ _ ?_
        · refine setSat_keeps (C.mono (by decide)) ?_
          refine setSat_keeps (C.mono (by decide)) ?_
          refine setTile_keeps (C.mono (by decide)) ?_
          exact hS11
        · refine C.upd_frame (by decide) ?_
          exact hS1
      try clear_value shown8
      refine foldl_keeps (fun s12 x13 hS14 => ?_) _ _ ?_
      · refine testQuarantine_keeps (C.mono (by decide)) ?_
        refine report_keeps (C.mono (by decide)) ?_
        refine setMaskBit_keeps (C.mono (by decide)) ?_
        exact hS14
      · exact h_shown8

theorem repairScratch_keeps {P : State → Prop} (C : Keeps [.mem, .data] P) {s_1} (hP1 : P s_1) : P (repairScratch s_1) := by
  unfold repairScratch
  extract_lets -merge -useContext -underBinder +onlyGivenNames there0 marked1
  refine foldl_keeps (fun s2 x3 hS4 => ?_) _ _ ?_
  · refine freshWords_keeps (C.mono (by decide)) ?_
    exact hS4
  · refine C.upd_mem (by decide) ?_
    exact hP1

theorem showTest_keeps {P : State → Prop} (C : Keeps [.regs] P) {old_1 new_2 s_3} (hP3 : P s_3) : P (showTest old_1 new_2 s_3) := by
  unfold showTest
  extract_lets -merge -useContext -underBinder +onlyGivenNames put0
  have h_put0 : ∀ v1 s2 u4, P s2 → P (put0 v1 s2 u4) := by
    intro v1 s2 u4 hS3
    unfold put0
    refine setFld_keeps (C.mono (by decide)) ?_
    exact hS3
  clear_value put0
  refine foldl_keeps (fun s5 x6 hS7 => ?_) _ _ ?_
  · refine h_put0 _ _ _ ?_
    exact hS7
  · refine foldl_keeps (fun s8 x9 hS10 => ?_) _ _ ?_
    · refine h_put0 _ _ _ ?_
      exact hS10
    · exact hP3

theorem sweepEdge_keeps {P : State → Prop} (C : Keeps [.indlog, .regs, .frame, .safe, .log, .queue, .mem, .data, .swp] P) {s_1} (hP1 : P s_1) : P (sweepEdge s_1) := by
  unfold sweepEdge
  extract_lets -merge -useContext -underBinder +onlyGivenNames keep0 __src1 s12 tt3 __src4 s25 s36 n7
  have h_s12 : P s12 := by
    unfold s12
    refine repairScratch_keeps (C.mono (by decide)) ?_
    refine C.upd_swp (by decide) ?_
    exact hP1
  try clear_value s12
  have h_s25 : P s25 := by
    unfold s25
    refine showTest_keeps (C.mono (by decide)) ?_
    refine C.upd_frame (by decide) ?_
    exact h_s12
  try clear_value s25
  have h_s36 : P s36 := by
    unfold s36
    refine foldl_keeps (fun s8 x9 hS10 => ?_) _ _ ?_
    · extract_lets -merge -useContext -underBinder +onlyGivenNames here11
      refine showSteward_keeps (C.mono (by decide)) ?_
      refine setFlag_keeps (C.mono (by decide)) ?_
      refine setFld_keeps (C.mono (by decide)) ?_
      exact hS10
    · exact h_s25
  try clear_value s36
  refine ite_keeps ?_ ?_
  · refine ite_keeps ?_ ?_
    · refine markDoubt_keeps (C.mono (by decide)) ?_
      exact h_s36
    · refine doubtEvent_keeps (C.mono (by decide)) ?_
      refine C.upd_safe (by decide) ?_
      exact h_s36
  · refine C.upd_safe (by decide) ?_
    exact h_s36

theorem clearResolved_keeps {P : State → Prop} (C : Keeps [.sel] P) {d_1 i_2 s_3} (hP3 : P s_3) : P (clearResolved d_1 i_2 s_3) := by
  unfold clearResolved
  refine ite_keeps ?_ ?_
  · refine C.upd_sel (by decide) ?_
    exact hP3
  · exact hP3

theorem dropKey_keeps {P : State → Prop} (C : Keeps [.sel] P) {d_1 i_2 s_3} (hP3 : P s_3) : P (dropKey d_1 i_2 s_3) := by
  unfold dropKey
  extract_lets -merge -useContext -underBinder +onlyGivenNames keep0 thin1
  refine C.upd_sel (by decide) ?_
  exact hP3

theorem countAccepted_keeps {P : State → Prop} (C : Keeps [.regs, .swp] P) {s_1 e_2} (hP1 : P s_1) : P (countAccepted s_1 e_2) := by
  unfold countAccepted
  extract_lets -merge -useContext -underBinder +onlyGivenNames u0 t1 c2 inf3
  refine countDie_keeps (C.mono (by decide)) ?_
  refine countTile_keeps (C.mono (by decide)) ?_
  refine setTile_keeps (C.mono (by decide)) ?_
  exact hP1

theorem execSelectLaneAccept_keeps {P : State → Prop} (C : Keeps [.indlog, .regs, .frame, .wld, .log, .queue, .inf, .mem, .data, .swp, .sel, .free] P) {lane_1 s_2} (hP2 : P s_2) : Next P (execSelectLaneAccept lane_1 s_2) := by
  unfold execSelectLaneAccept
  refine next_keeps ?_
  refine fabric_keeps (C.mono (by decide)) ?_ ?_
  · exact hP2
  · intro s0 hS1
    extract_lets -merge -useContext -underBinder +onlyGivenNames fifo2
    split
    · exact hS1
    · split
      · exact hS1
      · refine ite_keeps ?_ ?_
        · exact hS1
        · extract_lets -merge -useContext -underBinder +onlyGivenNames recs3 __src4 s15 __src6 s27 s38
          have h_s15 : P s15 := by
            unfold s15
            refine setTile_keeps (C.mono (by decide)) ?_
            exact hS1
          try clear_value s15
          have h_s27 : P s27 := by
            unfold s27
            refine C.upd_sel (by decide) ?_
            exact h_s15
          try clear_value s27
          have h_s38 : P s38 := by
            unfold s38
            refine pumpTile_keeps (C.mono (by decide)) ?_
            refine foldl_keeps (fun s9 x10 hS11 => ?_) _ _ ?_
            · refine countAccepted_keeps (C.mono (by decide)) ?_
              exact hS11
            · exact h_s27
          try clear_value s38
          refine ite_keeps ?_ ?_
          · refine phaseDone_keeps (C.mono (by decide)) ?_
            exact h_s38
          · exact h_s38

theorem badRecord_keeps {P : State → Prop} (C : Keeps [.indlog, .regs, .log, .queue] P) {kind_1 lane_2 e_3 s_4} (hP4 : P s_4) : P (badRecord kind_1 lane_2 e_3 s_4) := by
  unfold badRecord
  extract_lets -merge -useContext -underBinder +onlyGivenNames s10 s21
  have h_s10 : P s10 := by
    unfold s10
    refine report_keeps (C.mono (by decide)) ?_
    exact hP4
  try clear_value s10
  have h_s21 : P s21 := by
    unfold s21
    refine capture_keeps (C.mono (by decide)) ?_
    exact h_s10
  try clear_value s21
  refine ite_keeps ?_ ?_
  · refine bump_keeps (C.mono (by decide)) ?_
    exact h_s21
  · exact h_s21

theorem routeKey_keeps {P : State → Prop} (C : Keeps [.regs, .sel] P) {lane_1 e_2 c_3 s_4} (hP4 : P s_4) : P (routeKey lane_1 e_2 c_3 s_4) := by
  unfold routeKey
  extract_lets -merge -useContext -underBinder +onlyGivenNames d0
  refine ite_keeps ?_ ?_
  · refine C.upd_sel (by decide) ?_
    exact hP4
  · refine ite_keeps ?_ ?_
    · exact hP4
    · extract_lets -merge -useContext -underBinder +onlyGivenNames mine1 n2
      refine countDie_keeps (C.mono (by decide)) ?_
      refine C.upd_sel (by decide) ?_
      exact hP4

theorem spoilWord_keeps {P : State → Prop} (C : Keeps [.indlog, .regs, .log, .queue, .sel] P) {first_1 n_2 s_3} (hP3 : P s_3) : P (spoilWord first_1 n_2 s_3) := by
  unfold spoilWord
  extract_lets -merge -useContext -underBinder +onlyGivenNames hit0 s11
  have h_s11 : P s11 := by
    unfold s11
    refine foldl_keeps (fun s2 x3 hS4 => ?_) _ _ ?_
    · refine dropKey_keeps (C.mono (by decide)) ?_
      refine clearResolved_keeps (C.mono (by decide)) ?_
      exact hS4
    · exact hP3
  try clear_value s11
  refine report_keeps (C.mono (by decide)) ?_
  refine C.upd_sel (by decide) ?_
  exact h_s11

theorem readMapWord_keeps {P : State → Prop} (C : Keeps [.indlog, .regs, .wld, .log, .queue, .mem, .data, .sel] P) {a_1 first_2 n_3 d_4 i_5 s_6} (hP6 : P s_6) : P (readMapWord a_1 first_2 n_3 d_4 i_5 s_6).2 := by
  unfold readMapWord
  extract_lets -merge -useContext -underBinder +onlyGivenNames r0 s11
  have h_r0 : P r0.2 := by
    unfold r0
    refine probeWord_keeps (C.mono (by decide)) ?_
    exact hP6
  try clear_value r0
  have h_s11 : P s11 := by
    unfold s11
    refine ite_keeps ?_ ?_
    · exact h_r0
    · refine spoilWord_keeps (C.mono (by decide)) ?_
      exact h_r0
  try clear_value s11
  try dsimp only
  exact h_s11

theorem handleMapped_keeps {P : State → Prop} (C : Keeps [.indlog, .regs, .wld, .log, .queue, .mem, .data, .sel] P) {lane_1 e_2 d_3 i_4 c_5 s_6} (hP6 : P s_6) : P (handleMapped lane_1 e_2 d_3 i_4 c_5 s_6) := by
  unfold handleMapped
  refine ite_keeps ?_ ?_
  · refine C.upd_sel (by decide) ?_
    exact hP6
  · refine ite_keeps ?_ ?_
    · refine badRecord_keeps (C.mono (by decide)) ?_
      exact hP6
    · extract_lets -merge -useContext -underBinder +onlyGivenNames n0 r1
      have h_r1 : P r1.2 := by
        unfold r1
        refine readMapWord_keeps (C.mono (by decide)) ?_
        exact hP6
      try clear_value r1
      refine ite_keeps ?_ ?_
      · exact h_r1
      · refine ite_keeps ?_ ?_
        · refine badRecord_keeps (C.mono (by decide)) ?_
          refine dropKey_keeps (C.mono (by decide)) ?_
          refine clearResolved_keeps (C.mono (by decide)) ?_
          exact h_r1
        · refine routeKey_keeps (C.mono (by decide)) ?_
          extract_lets -merge -useContext -underBinder +onlyGivenNames __src2
          have h___src2 : P __src2 := by
            unfold __src2
            exact h_r1
          refine C.upd_sel (by decide) ?_
          exact h___src2

theorem handleRecord_keeps {P : State → Prop} (C : Keeps [.indlog, .regs, .wld, .log, .queue, .mem, .data, .sel] P) {lane_1 r_2 s_3} (hP3 : P s_3) : P (handleRecord lane_1 r_2 s_3) := by
  unfold handleRecord
  extract_lets -merge -useContext -underBinder +onlyGivenNames e0 d1 i2
  refine ite_keeps ?_ ?_
  · refine countDie_keeps (C.mono (by decide)) ?_
    refine C.upd_sel (by decide) ?_
    exact hP3
  · refine ite_keeps ?_ ?_
    · refine badRecord_keeps (C.mono (by decide)) ?_
      exact hP3
    · refine ite_keeps ?_ ?_
      · refine C.upd_sel (by decide) ?_
        exact hP3
      · split
        · refine badRecord_keeps (C.mono (by decide)) ?_
          exact hP3
        · extract_lets -merge -useContext -underBinder +onlyGivenNames n3 r4
          have h_r4 : P r4.2 := by
            unfold r4
            refine readMapWord_keeps (C.mono (by decide)) ?_
            exact hP3
          try clear_value r4
          refine ite_keeps ?_ ?_
          · exact h_r4
          · refine ite_keeps ?_ ?_
            · refine badRecord_keeps (C.mono (by decide)) ?_
              exact h_r4
            · refine handleMapped_keeps (C.mono (by decide)) ?_
              exact h_r4

theorem execSelectRecord_keeps {P : State → Prop} (C : Keeps [.indlog, .regs, .wld, .log, .queue, .mem, .data, .sel] P) {lane_1 s_2} (hP2 : P s_2) : Next P (execSelectRecord lane_1 s_2) := by
  unfold execSelectRecord
  refine next_keeps ?_
  refine fabric_keeps (C.mono (by decide)) ?_ ?_
  · exact hP2
  · intro s0 hS1
    split
    · exact hS1
    · refine handleRecord_keeps (C.mono (by decide)) ?_
      refine C.upd_sel (by decide) ?_
      exact hS1

theorem execQuarantineNotice_keeps {P : State → Prop} (C : Keeps [.sel] P) {tile_1 s_2} (hP2 : P s_2) : Next P (execQuarantineNotice tile_1 s_2) := by
  unfold execQuarantineNotice
  extract_lets -merge -useContext -underBinder +onlyGivenNames u0
  refine next_keeps ?_
  refine fabric_keeps (C.mono (by decide)) ?_ ?_
  · exact hP2
  · intro s1 hS2
    refine ite_keeps ?_ ?_
    · exact hS2
    · extract_lets -merge -useContext -underBinder +onlyGivenNames own3 thin4 hit5 n6
      refine C.upd_sel (by decide) ?_
      exact hS2

theorem execSelectTestDone_keeps {P : State → Prop} (C : Keeps [.pwr, .raise, .indlog, .regs, .num, .cnd, .wld, .restart, .log, .queue, .mem, .sel, .twin, .swap, .sec, .bus, .replay, .sent, .free] P) {o_1 s_2} (hP2 : P s_2) : Next P (execSelectTestDone o_1 s_2) := by
  unfold execSelectTestDone
  refine next_keeps ?_
  refine fabric_keeps (C.mono (by decide)) ?_ ?_
  · exact hP2
  · intro s0 hS1
    refine ite_keeps ?_ ?_
    · exact hS1
    · extract_lets -merge -useContext -underBinder +onlyGivenNames __src2 s13
      have h_s13 : P s13 := by
        unfold s13
        refine report_keeps (C.mono (by decide)) ?_
        refine setFlag_keeps (C.mono (by decide)) ?_
        refine C.upd_sel (by decide) ?_
        exact hS1
      try clear_value s13
      refine triggerRestart_keeps (C.mono (by decide)) ?_
      exact h_s13

theorem drainFifos_keeps {P : State → Prop} (C : Keeps [.indlog, .regs, .wld, .log, .queue, .mem, .data, .sel] P) {s_1} (hP1 : P s_1) : P (drainFifos s_1) := by
  unfold drainFifos
  extract_lets -merge -useContext -underBinder +onlyGivenNames __src0 s01
  have h_s01 : P s01 := by
    unfold s01
    refine C.upd_sel (by decide) ?_
    exact hP1
  try clear_value s01
  refine foldl_keeps (fun s2 x3 hS4 => ?_) _ _ ?_
  · refine foldl_keeps (fun s5 x6 hS7 => ?_) _ _ ?_
    · refine handleRecord_keeps (C.mono (by decide)) ?_
      exact hS7
    · exact hS4
  · exact h_s01

theorem checkList_keeps {P : State → Prop} (C : Keeps [.indlog, .regs, .wld, .log, .queue, .mem, .data, .sel] P) {n_1 l_2 s_3} (hP3 : P s_3) : P (checkList n_1 l_2 s_3).2 := by
  unfold checkList
  extract_lets -merge -useContext -underBinder +onlyGivenNames all0 bad1 gone2 s13
  have h_s13 : P s13 := by
    unfold s13
    refine foldl_keeps (fun s4 x5 hS6 => ?_) _ _ ?_
    · extract_lets -merge -useContext -underBinder +onlyGivenNames s17
      have h_s17 : P s17 := by
        unfold s17
        refine probeWord_keeps (C.mono (by decide)) ?_
        refine probeWord_keeps (C.mono (by decide)) ?_
        exact hS6
      try clear_value s17
      refine report_keeps (C.mono (by decide)) ?_
      refine clearResolved_keeps (C.mono (by decide)) ?_
      exact h_s17
    · exact hP3
  try clear_value s13
  split
  · try dsimp only
    exact hP3
  · try dsimp only
    exact h_s13

theorem checkLists_keeps {P : State → Prop} (C : Keeps [.indlog, .regs, .wld, .log, .queue, .mem, .data, .sel] P) {s_1} (hP1 : P s_1) : P (checkLists s_1) := by
  unfold checkLists
  refine ite_keeps ?_ ?_
  · exact hP1
  · extract_lets -merge -useContext -underBinder +onlyGivenNames r0 __src1
    have h_r0 : P r0.2.2 := by
      unfold r0
      refine foldl_keeps (P := fun q => P (Prod.snd (Prod.snd q))) (fun st2 x3 hS4 => ?_) _ _ ?_
      · extract_lets -merge -useContext -underBinder +onlyGivenNames x5
        have h_x5 : P x5.2 := by
          unfold x5
          refine checkList_keeps (C.mono (by decide)) ?_
          exact hS4
        try clear_value x5
        try dsimp only
        try dsimp only
        exact h_x5
      · try dsimp only
        try dsimp only
        exact hP1
    try clear_value r0
    have h___src1 : P __src1 := by
      unfold __src1
      exact h_r0
    refine C.upd_sel (by decide) ?_
    exact h___src1

theorem showResult_keeps {P : State → Prop} (C : Keeps [.regs] P) {lane_1 kind_2 iter_3 index_4 s_5} (hP5 : P s_5) : P (showResult lane_1 kind_2 iter_3 index_4 s_5) := by
  unfold showResult
  refine setFld_keeps (C.mono (by decide)) ?_
  refine setFld_keeps (C.mono (by decide)) ?_
  refine setFld_keeps (C.mono (by decide)) ?_
  refine setFld_keeps (C.mono (by decide)) ?_
  exact hP5

theorem handToMadder_keeps {P : State → Prop} (C : Keeps [.mad, .slv, .twin, .sent, .free] P) {t_1 s_2} (hP2 : P s_2) : P (handToMadder t_1 s_2) := by
  unfold handToMadder
  refine sendOffer_keeps (C.mono (by decide)) ?_
  refine C.upd_mad_slv (by decide) ?_
  exact hP2

theorem takeEntries_keeps {P : State → Prop} (C : Keeps [.regs, .frame, .mad, .slv, .twin, .sent, .free] P) {s_1} (hP1 : P s_1) : P (takeEntries s_1) := by
  unfold takeEntries
  split
  · exact hP1
  · extract_lets -merge -useContext -underBinder +onlyGivenNames ls0
    refine ite_keeps ?_ ?_
    · refine phaseDone_keeps (C.mono (by decide)) ?_
      refine showResult_keeps (C.mono (by decide)) ?_
      refine handToMadder_keeps (C.mono (by decide)) ?_
      exact hP1
    · extract_lets -merge -useContext -underBinder +onlyGivenNames give1
      refine C.upd_slv (by decide) ?_
      exact hP1

theorem handOver_keeps {P : State → Prop} (C : Keeps [.regs, .frame, .mad, .sel, .slv, .twin, .sent, .free] P) {l_1 at'_2 s_3} (hP3 : P s_3) : P (handOver l_1 at'_2 s_3) := by
  unfold handOver
  extract_lets -merge -useContext -underBinder +onlyGivenNames es0 top1 show12
  have h_show12 : ∀ s3 n5, P s3 → P (show12 s3 n5) := by
    intro s3 n5 hS4
    unfold show12
    extract_lets -merge -useContext -underBinder +onlyGivenNames key6
    refine setFld_keeps (C.mono (by decide)) ?_
    refine setFld_keeps (C.mono (by decide)) ?_
    exact hS4
  clear_value show12
  refine takeEntries_keeps (C.mono (by decide)) ?_
  refine setFld_keeps (C.mono (by decide)) ?_
  refine foldl_keeps (fun s7 x8 hS9 => ?_) _ _ ?_
  · refine h_show12 _ _ ?_
    exact hS9
  · refine C.upd_sel (by decide) ?_
    exact hP3

theorem answerGoal_keeps {P : State → Prop} (C : Keeps [.cnd] P) {l_1 s_2} (hP2 : P s_2) : P (answerGoal l_1 s_2) := by
  unfold answerGoal
  split
  · exact hP2
  · extract_lets -merge -useContext -underBinder +onlyGivenNames ks0 body1
    refine queueAnswer_keeps (C.mono (by decide)) ?_
    refine endReq_keeps (C.mono (by decide)) ?_
    exact hP2

theorem answerCheck_keeps {P : State → Prop} (C : Keeps [.cnd] P) {s_1 r_2} (hP1 : P s_1) : P (answerCheck s_1 r_2) := by
  unfold answerCheck
  extract_lets -merge -useContext -underBinder +onlyGivenNames ks0
  refine queueAnswer_keeps (C.mono (by decide)) ?_
  refine endReq_keeps (C.mono (by decide)) ?_
  exact hP1

theorem answerWatch_keeps {P : State → Prop} (C : Keeps [.cnd] P) {s_1 r_2} (hP1 : P s_1) : P (answerWatch s_1 r_2) := by
  unfold answerWatch
  extract_lets -merge -useContext -underBinder +onlyGivenNames interval0 ks1 out2 due3 r'4 __src5 s16
  have h_s16 : P s16 := by
    unfold s16
    refine C.upd_cnd (by decide) ?_
    exact hP1
  try clear_value s16
  refine ite_keeps ?_ ?_
  · refine queueAnswer_keeps (C.mono (by decide)) ?_
    exact h_s16
  · exact h_s16

theorem finishSelect_keeps {P : State → Prop} (C : Keeps [.cnd, .sel] P) {s_1} (hP1 : P s_1) : P (finishSelect s_1) := by
  unfold finishSelect
  extract_lets -merge -useContext -underBinder +onlyGivenNames due0 s11 s22
  have h_s11 : P s11 := by
    unfold s11
    refine foldl_keeps (fun s3 x4 hS5 => ?_) _ _ ?_
    · refine answerCheck_keeps (C.mono (by decide)) ?_
      exact hS5
    · exact hP1
  try clear_value s11
  have h_s22 : P s22 := by
    unfold s22
    refine foldl_keeps (fun s6 x7 hS8 => ?_) _ _ ?_
    · refine answerWatch_keeps (C.mono (by decide)) ?_
      exact hS8
    · exact h_s11
  try clear_value s22
  refine C.upd_sel (by decide) ?_
  exact h_s22

theorem deliverLists_keeps {P : State → Prop} (C : Keeps [.regs, .frame, .cnd, .mad, .sel, .slv, .twin, .sent, .free] P) {at'_1 ls_2 s_3} (hP3 : P s_3) : P (deliverLists at'_1 ls_2 s_3) := by
  unfold deliverLists
  refine foldl_keeps (fun s0 x1 hS2 => ?_) _ _ ?_
  · refine ite_keeps ?_ ?_
    · refine handOver_keeps (C.mono (by decide)) ?_
      exact hS2
    · refine answerGoal_keeps (C.mono (by decide)) ?_
      exact hS2
  · exact hP3

theorem execMergeDone_keeps {P : State → Prop} (C : Keeps [.indlog, .regs, .frame, .cnd, .wld, .mad, .log, .queue, .mem, .data, .sel, .slv, .twin, .sent, .free] P) {s_1} (hP1 : P s_1) : Next P (execMergeDone s_1) := by
  unfold execMergeDone
  refine next_keeps ?_
  refine fabric_keeps (C.mono (by decide)) ?_ ?_
  · exact hP1
  · intro s0 hS1
    refine ite_keeps ?_ ?_
    · exact hS1
    · extract_lets -merge -useContext -underBinder +onlyGivenNames s12 s23
      have h_s12 : P s12 := by
        unfold s12
        refine checkLists_keeps (C.mono (by decide)) ?_
        refine drainFifos_keeps (C.mono (by decide)) ?_
        exact hS1
      try clear_value s12
      have h_s23 : P s23 := by
        unfold s23
        refine deliverLists_keeps (C.mono (by decide)) ?_
        exact h_s12
      try clear_value s23
      refine finishSelect_keeps (C.mono (by decide)) ?_
      refine phaseDone_keeps (C.mono (by decide)) ?_
      refine C.upd_sel (by decide) ?_
      exact h_s23

theorem atStop_keeps {P : State → Prop} (C : Keeps [.stopped] P) {p_1 f_2 s_3} (hP2 : ∀ z1, P z1 → P (f_2 z1)) (hP3 : P s_3) : P (atStop p_1 f_2 s_3) := by
  unfold atStop
  refine ite_keeps ?_ ?_
  · exact hP3
  · refine hP2 _ ?_
    refine C.upd_stopped (by decide) ?_
    exact hP3

theorem showFree_keeps {P : State → Prop} (C : Keeps [.regs] P) {s_1} (hP1 : P s_1) : P (showFree s_1) := by
  unfold showFree
  refine foldl_keeps (fun s0 x1 hS2 => ?_) _ _ ?_
  · extract_lets -merge -useContext -underBinder +onlyGivenNames st3
    refine ite_keeps ?_ ?_
    · refine showIdle_keeps (C.mono (by decide)) ?_
      exact hS2
    · exact hS2
  · exact hP1

theorem cutDomain_keeps {P : State → Prop} (C : Keeps [.frame, .swp] P) {s_1 w_2} (hP1 : P s_1) : P (cutDomain s_1 w_2) := by
  unfold cutDomain
  extract_lets -merge -useContext -underBinder +onlyGivenNames x0
  refine ite_keeps ?_ ?_
  · extract_lets -merge -useContext -underBinder +onlyGivenNames y1 s12
    have h_s12 : P s12 := by
      unfold s12
      refine setDom_keeps (C.mono (by decide)) ?_
      exact hP1
    try clear_value s12
    refine ite_keeps ?_ ?_
    · refine C.upd_frame (by decide) ?_
      exact h_s12
    · exact h_s12
  · exact hP1

theorem execProposeHardStop_keeps {P : State → Prop} (C : Keeps [.indlog, .regs, .frame, .stopped, .cnd, .safe, .log, .queue, .mem, .swp, .sec, .bus, .sent, .free] P) {infTest_1 written_2 s_3} (hP3 : P s_3) : Next P (execProposeHardStop infTest_1 written_2 s_3) := by
  unfold execProposeHardStop
  refine next_keeps ?_
  refine fabric_keeps (C.mono (by decide)) ?_ ?_
  · exact hP3
  · intro s0 hS1
    refine atStop_keeps (C.mono (by decide)) ?_ ?_
    · intro s2 hS3
      refine showFree_keeps (C.mono (by decide)) ?_
      refine phaseStop_keeps (C.mono (by decide)) ?_
      refine infTestOutcome_keeps (C.mono (by decide)) ?_
      refine foldl_keeps (fun s4 x5 hS6 => ?_) _ _ ?_
      · refine cutDomain_keeps (C.mono (by decide)) ?_
        exact hS6
      · exact hS3
    · exact hS1

theorem execSweepHardStop_keeps {P : State → Prop} (C : Keeps [.indlog, .regs, .frame, .stopped, .cnd, .safe, .log, .queue, .mem, .swp, .sec, .bus, .sent, .free] P) {s_1} (hP1 : P s_1) : Next P (execSweepHardStop s_1) := by
  unfold execSweepHardStop
  refine next_keeps ?_
  refine fabric_keeps (C.mono (by decide)) ?_ ?_
  · exact hP1
  · intro s0 hS1
    refine atStop_keeps (C.mono (by decide)) ?_ ?_
    · intro s2 hS3
      refine showFree_keeps (C.mono (by decide)) ?_
      refine phaseStop_keeps (C.mono (by decide)) ?_
      refine stopTiles_keeps (C.mono (by decide)) ?_
      exact hS3
    · exact hS1

theorem dropPieces_keeps {P : State → Prop} (C : Keeps [.sel] P) {ps_1 s_2} (hP2 : P s_2) : P (dropPieces ps_1 s_2) := by
  unfold dropPieces
  refine foldl_keeps (fun s0 x1 hS2 => ?_) _ _ ?_
  · refine foldl_keeps (fun s3 x4 hS5 => ?_) _ _ ?_
    · refine clearResolved_keeps (C.mono (by decide)) ?_
      exact hS5
    · exact hS2
  · exact hP2

theorem stopMerge_keeps {P : State → Prop} (C : Keeps [.indlog, .regs, .frame, .cnd, .wld, .mad, .log, .queue, .mem, .data, .sel, .slv, .twin, .sent, .free] P) {merged_1 s_2} (hP2 : P s_2) : P (stopMerge merged_1 s_2) := by
  unfold stopMerge
  extract_lets -merge -useContext -underBinder +onlyGivenNames drained0 __src1 s12 r3 s24
  have h_s12 : P s12 := by
    unfold s12
    refine checkLists_keeps (C.mono (by decide)) ?_
    refine C.upd_sel (by decide) ?_
    exact hP2
  try clear_value s12
  have h_s24 : P s24 := by
    unfold s24
    refine deliverLists_keeps (C.mono (by decide)) ?_
    refine dropPieces_keeps (C.mono (by decide)) ?_
    exact h_s12
  try clear_value s24
  refine setSat_keeps (C.mono (by decide)) ?_
  refine finishSelect_keeps (C.mono (by decide)) ?_
  refine C.upd_sel (by decide) ?_
  exact h_s24

theorem execSelectHardStop_keeps {P : State → Prop} (C : Keeps [.indlog, .regs, .frame, .stopped, .cnd, .wld, .mad, .safe, .log, .queue, .mem, .data, .swp, .sel, .slv, .twin, .sec, .bus, .sent, .free] P) {merged_1 s_2} (hP2 : P s_2) : Next P (execSelectHardStop merged_1 s_2) := by
  unfold execSelectHardStop
  refine next_keeps ?_
  refine fabric_keeps (C.mono (by decide)) ?_ ?_
  · exact hP2
  · intro s0 hS1
    refine atStop_keeps (C.mono (by decide)) ?_ ?_
    · intro s2 hS3
      extract_lets -merge -useContext -underBinder +onlyGivenNames s14 s25
      have h_s14 : P s14 := by
        unfold s14
        refine ite_keeps ?_ ?_
        · refine setFld_keeps (C.mono (by decide)) ?_
          exact hS3
        · refine stopMerge_keeps (C.mono (by decide)) ?_
          exact hS3
      try clear_value s14
      have h_s25 : P s25 := by
        unfold s25
        refine showFree_keeps (C.mono (by decide)) ?_
        refine phaseStop_keeps (C.mono (by decide)) ?_
        exact h_s14
      try clear_value s25
      refine ite_keeps ?_ ?_
      · refine sendOffer_keeps (C.mono (by decide)) ?_
        refine report_keeps (C.mono (by decide)) ?_
        refine C.upd_frame (by decide) ?_
        exact h_s25
      · refine ite_keeps ?_ ?_
        · refine sendOffer_keeps (C.mono (by decide)) ?_
          exact h_s25
        · exact h_s25
    · exact hS1

theorem selectEdge_keeps {P : State → Prop} (C : Keeps [.regs, .frame, .cnd, .sel] P) {s_1} (hP1 : P s_1) : P (selectEdge s_1) := by
  unfold selectEdge
  extract_lets -merge -useContext -underBinder +onlyGivenNames s10 s21 __src2 s33 s44
  have h_s10 : P s10 := by
    unfold s10
    refine foldl_keeps (fun s5 x6 hS7 => ?_) _ _ ?_
    · refine setSat_keeps (C.mono (by decide)) ?_
      exact hS7
    · exact hP1
  try clear_value s10
  have h_s21 : P s21 := by
    unfold s21
    refine setSat_keeps (C.mono (by decide)) ?_
    refine setSat_keeps (C.mono (by decide)) ?_
    refine setSat_keeps (C.mono (by decide)) ?_
    exact h_s10
  try clear_value s21
  have h_s33 : P s33 := by
    unfold s33
    refine C.upd_sel (by decide) ?_
    exact h_s21
  try clear_value s33
  have h_s44 : P s44 := by
    unfold s44
    refine ite_keeps ?_ ?_
    · refine markDoubt_keeps (C.mono (by decide)) ?_
      exact h_s33
    · exact h_s33
  try clear_value s44
  refine ite_keeps ?_ ?_
  · refine openLists_keeps (C.mono (by decide)) ?_
    exact h_s44
  · exact h_s44

theorem setLane_keeps {P : State → Prop} (C : Keeps [.slv] P) {n_1 l_2 s_3} (hP3 : P s_3) : P (setLane n_1 l_2 s_3) := by
  unfold setLane
  refine C.upd_slv (by decide) ?_
  exact hP3

theorem execSolverSetupDone_keeps {P : State → Prop} (C : Keeps [.slv] P) {lane_1 s_2} (hP2 : P s_2) : Next P (execSolverSetupDone lane_1 s_2) := by
  unfold execSolverSetupDone
  refine next_keeps ?_
  refine fabric_keeps (C.mono (by decide)) ?_ ?_
  · exact hP2
  · intro s0 hS1
    split
    · exact hS1
    · refine ite_keeps ?_ ?_
      · exact hS1
      · extract_lets -merge -useContext -underBinder +onlyGivenNames i2 jc3 out4 base5
        split
        · refine setLane_keeps (C.mono (by decide)) ?_
          exact hS1
        · split
          · refine ite_keeps ?_ ?_
            · refine setLane_keeps (C.mono (by decide)) ?_
              exact hS1
            · refine setLane_keeps (C.mono (by decide)) ?_
              exact hS1
          · refine setLane_keeps (C.mono (by decide)) ?_
            exact hS1

theorem solverGuard_keeps {P : State → Prop} (C : Keeps [.indlog, .regs, .frame, .log, .queue, .inf] P) {lane_1 s_2 g_3} (hP2 : P s_2) : P (solverGuard lane_1 s_2 g_3) := by
  unfold solverGuard
  extract_lets -merge -useContext -underBinder +onlyGivenNames v0 s11
  have h_s11 : P s11 := by
    unfold s11
    refine ite_keeps ?_ ?_
    · refine bump_keeps (C.mono (by decide)) ?_
      refine markDoubt_keeps (C.mono (by decide)) ?_
      refine addRg_keeps (C.mono (by decide)) ?_
      exact hP2
    · refine bump_keeps (C.mono (by decide)) ?_
      refine addRg_keeps (C.mono (by decide)) ?_
      exact hP2
  try clear_value s11
  refine ite_keeps ?_ ?_
  · exact h_s11
  · refine report_keeps (C.mono (by decide)) ?_
    refine C.upd_inf (by decide) ?_
    exact h_s11

theorem trialGuard_keeps {P : State → Prop} (C : Keeps [.indlog, .regs, .log, .queue, .inf, .free] P) {lane_1 x_2 s_3} (hP3 : P s_3) : P (trialGuard lane_1 x_2 s_3) := by
  unfold trialGuard
  refine ite_keeps ?_ ?_
  · exact hP3
  · extract_lets -merge -useContext -underBinder +onlyGivenNames v0 s11
    have h_s11 : P s11 := by
      unfold s11
      refine bumpBy_keeps (C.mono (by decide)) ?_
      refine addRg_keeps (C.mono (by decide)) ?_
      exact hP3
    try clear_value s11
    refine ite_keeps ?_ ?_
    · exact h_s11
    · refine expansionGuard_keeps (C.mono (by decide)) ?_
      refine C.upd_inf (by decide) ?_
      exact h_s11

theorem stall_keeps {P : State → Prop} (C : Keeps [.regs, .slv] P) {n_1 l_2 s_3} (hP3 : P s_3) : P (stall n_1 l_2 s_3) := by
  unfold stall
  refine setLane_keeps (C.mono (by decide)) ?_
  refine bump_keeps (C.mono (by decide)) ?_
  exact hP3

theorem oneTrial_keeps {P : State → Prop} (C : Keeps [.indlog, .regs, .wld, .log, .queue, .inf, .mem, .data, .free] P) {n_1 e_2 x_3 z_4 du_5 st_6 m_7} (hP6 : P st_6.1) : P (oneTrial n_1 e_2 x_3 z_4 du_5 st_6 m_7).1 := by
  unfold oneTrial
  split
  · rename_i s0 l1 r2
    try dsimp only
    exact hP6
  · rename_i s3 l4
    extract_lets -merge -useContext -underBinder +onlyGivenNames r5 reject6
    split
    · try dsimp only
      refine report_keeps (C.mono (by decide)) ?_
      refine probeWord_keeps (C.mono (by decide)) ?_
      exact hP6
    · extract_lets -merge -useContext -underBinder +onlyGivenNames s17
      have h_s17 : P s17 := by
        unfold s17
        refine trialGuard_keeps (C.mono (by decide)) ?_
        exact hP6
      try clear_value s17
      split
      · split
        · try dsimp only
          exact h_s17
        · try dsimp only
          exact h_s17
      · try dsimp only
        exact h_s17

theorem switchIn_keeps {P : State → Prop} (C : Keeps [.slv] P) {n_1 z_2 l_3 r_4 j_5 s_6} (hP6 : P s_6) : P (switchIn n_1 z_2 l_3 r_4 j_5 s_6) := by
  unfold switchIn
  extract_lets -merge -useContext -underBinder +onlyGivenNames same0 small1 it2 out3
  refine setLane_keeps (C.mono (by decide)) ?_
  exact hP6

theorem execSolverIterationDone_keeps {P : State → Prop} (C : Keeps [.indlog, .regs, .frame, .wld, .log, .queue, .inf, .mem, .data, .slv, .free] P) {lane_1 badWord_2 badRecord_3 s_4} (hP4 : P s_4) : Next P (execSolverIterationDone lane_1 badWord_2 badRecord_3 s_4) := by
  unfold execSolverIterationDone
  extract_lets -merge -useContext -underBinder +onlyGivenNames n0
  refine next_keeps ?_
  refine fabric_keeps (C.mono (by decide)) ?_ ?_
  · exact hP4
  · intro s1 hS2
    split
    · exact hS2
    · refine ite_keeps ?_ ?_
      · exact hS2
      · refine ite_keeps ?_ ?_
        · refine setLane_keeps (C.mono (by decide)) ?_
          refine report_keeps (C.mono (by decide)) ?_
          exact hS2
        · refine ite_keeps ?_ ?_
          · refine stall_keeps (C.mono (by decide)) ?_
            refine report_keeps (C.mono (by decide)) ?_
            exact hS2
          · extract_lets -merge -useContext -underBinder +onlyGivenNames g3 z4 s15 s26 l27
            have h_s15 : P s15 := by
              unfold s15
              refine foldl_keeps (fun s8 x9 hS10 => ?_) _ _ ?_
              · refine solverGuard_keeps (C.mono (by decide)) ?_
                exact hS10
              · exact hS2
            try clear_value s15
            have h_s26 : P s26 := by
              unfold s26
              refine ite_keeps ?_ ?_
              · refine bump_keeps (C.mono (by decide)) ?_
                exact h_s15
              · exact h_s15
            try clear_value s26
            split
            · refine stall_keeps (C.mono (by decide)) ?_
              exact h_s26
            · split
              · rename_i s311 l312 r13 j14 he15
                have hm16 : P s311 := by
                  have e := (congrArg Prod.fst he15)
                  try dsimp only at e
                  rw [← e]
                  refine foldl_keeps (P := fun q => P (Prod.fst q)) (fun st17 x18 hS19 => ?_) _ _ ?_
                  · refine oneTrial_keeps (C.mono (by decide)) ?_
                    exact hS19
                  · try dsimp only
                    exact h_s26
                refine switchIn_keeps (C.mono (by decide)) ?_
                exact hm16
              · rename_i s320 l321 he22
                have hm23 : P s320 := by
                  have e := (congrArg Prod.fst he22)
                  try dsimp only at e
                  rw [← e]
                  refine foldl_keeps (P := fun q => P (Prod.fst q)) (fun st24 x25 hS26 => ?_) _ _ ?_
                  · refine oneTrial_keeps (C.mono (by decide)) ?_
                    exact hS26
                  · try dsimp only
                    exact h_s26
                refine stall_keeps (C.mono (by decide)) ?_
                exact hm23

theorem showLane_keeps {P : State → Prop} (C : Keeps [.regs] P) {s_1 n_2} (hP1 : P s_1) : P (showLane s_1 n_2) := by
  unfold showLane
  extract_lets -merge -useContext -underBinder +onlyGivenNames l0 out1
  refine setFld_keeps (C.mono (by decide)) ?_
  refine setFlag_keeps (C.mono (by decide)) ?_
  refine setFld_keeps (C.mono (by decide)) ?_
  refine setSat_keeps (C.mono (by decide)) ?_
  refine setFld_keeps (C.mono (by decide)) ?_
  exact hP1

theorem handOn_keeps {P : State → Prop} (C : Keeps [.regs, .mad, .slv, .twin, .sent, .free] P) {s_1} (hP1 : P s_1) : P (handOn s_1) := by
  unfold handOn
  extract_lets -merge -useContext -underBinder +onlyGivenNames s10
  have h_s10 : P s10 := by
    unfold s10
    refine foldl_keeps (fun s1 x2 hS3 => ?_) _ _ ?_
    · refine showLane_keeps (C.mono (by decide)) ?_
      exact hS3
    · exact hP1
  try clear_value s10
  split
  · extract_lets -merge -useContext -underBinder +onlyGivenNames kind4
    refine showResult_keeps (C.mono (by decide)) ?_
    refine handToMadder_keeps (C.mono (by decide)) ?_
    exact h_s10
  · refine showResult_keeps (C.mono (by decide)) ?_
    refine handToMadder_keeps (C.mono (by decide)) ?_
    exact h_s10
  · refine showResult_keeps (C.mono (by decide)) ?_
    exact h_s10

theorem execLaneEnd_keeps {P : State → Prop} (C : Keeps [.regs, .frame, .mad, .slv, .twin, .sent, .free] P) {lane_1 s_2} (hP2 : P s_2) : Next P (execLaneEnd lane_1 s_2) := by
  unfold execLaneEnd
  refine next_keeps ?_
  refine fabric_keeps (C.mono (by decide)) ?_ ?_
  · exact hP2
  · intro s0 hS1
    extract_lets -merge -useContext -underBinder +onlyGivenNames l2
    refine ite_keeps ?_ ?_
    · exact hS1
    · extract_lets -merge -useContext -underBinder +onlyGivenNames s13 open'4
      have h_s13 : P s13 := by
        unfold s13
        refine setLane_keeps (C.mono (by decide)) ?_
        exact hS1
      try clear_value s13
      refine ite_keeps ?_ ?_
      · exact h_s13
      · refine phaseDone_keeps (C.mono (by decide)) ?_
        refine handOn_keeps (C.mono (by decide)) ?_
        exact h_s13

theorem execRefineHardStop_keeps {P : State → Prop} (C : Keeps [.indlog, .regs, .frame, .stopped, .cnd, .mad, .safe, .log, .queue, .mem, .swp, .slv, .twin, .sec, .bus, .sent, .free] P) {factorising_1 s_2} (hP2 : P s_2) : Next P (execRefineHardStop factorising_1 s_2) := by
  unfold execRefineHardStop
  extract_lets -merge -useContext -underBinder +onlyGivenNames halt0
  have h_halt0 : ∀ s1 n3, P s1 → P (halt0 s1 n3) := by
    intro s1 n3 hS2
    unfold halt0
    extract_lets -merge -useContext -underBinder +onlyGivenNames l4
    refine ite_keeps ?_ ?_
    · refine setLane_keeps (C.mono (by decide)) ?_
      exact hS2
    · exact hS2
  clear_value halt0
  refine next_keeps ?_
  refine fabric_keeps (C.mono (by decide)) ?_ ?_
  · exact hP2
  · intro s5 hS6
    refine atStop_keeps (C.mono (by decide)) ?_ ?_
    · intro s7 hS8
      extract_lets -merge -useContext -underBinder +onlyGivenNames cut9 s210 s111
      have h_s210 : P s210 := by
        unfold s210
        refine handOn_keeps (C.mono (by decide)) ?_
        refine foldl_keeps (fun s12 x13 hS14 => ?_) _ _ ?_
        · refine h_halt0 _ _ ?_
          exact hS14
        · exact hS8
      try clear_value s210
      have h_s111 : P s111 := by
        unfold s111
        refine ite_keeps ?_ ?_
        · exact hS8
        · refine ite_keeps ?_ ?_
          · refine bump_keeps (C.mono (by decide)) ?_
            exact h_s210
          · exact h_s210
      try clear_value s111
      refine showFree_keeps (C.mono (by decide)) ?_
      refine phaseStop_keeps (C.mono (by decide)) ?_
      exact h_s111
    · exact hS6

theorem execSolverTestDone_keeps {P : State → Prop} (C : Keeps [.indlog, .regs, .log, .queue, .slv] P) {lane_1 o_2 s_3} (hP3 : P s_3) : Next P (execSolverTestDone lane_1 o_2 s_3) := by
  unfold execSolverTestDone
  extract_lets -merge -useContext -underBinder +onlyGivenNames n0 bad1
  have h_bad1 : ∀ ev2 s3, P s3 → P (bad1 ev2 s3) := by
    intro ev2 s3 hS4
    unfold bad1
    refine report_keeps (C.mono (by decide)) ?_
    refine setFlag_keeps (C.mono (by decide)) ?_
    refine setMaskBit_keeps (C.mono (by decide)) ?_
    refine C.upd_slv (by decide) ?_
    exact hS4
  clear_value bad1
  refine next_keeps ?_
  refine fabric_keeps (C.mono (by decide)) ?_ ?_
  · exact hP3
  · intro s5 hS6
    refine ite_keeps ?_ ?_
    · exact hS6
    · split
      · refine setMaskBit_keeps (C.mono (by decide)) ?_
        exact hS6
      · refine h_bad1 _ _ ?_
        exact hS6
      · refine h_bad1 _ _ ?_
        exact hS6

theorem takeSlvRelease_keeps {P : State → Prop} (C : Keeps [.indlog, .regs, .cnd, .log, .queue, .sent] P) {r_1 bits_2 s_3} (hP3 : P s_3) : P (takeSlvRelease r_1 bits_2 s_3) := by
  unfold takeSlvRelease
  refine live_keeps (C.mono (by decide)) ?_ ?_
  · exact hP3
  · intro s0 hS1
    refine ite_keeps ?_ ?_
    · refine refuseAccess_keeps (C.mono (by decide)) ?_
      exact hS1
    · refine foldl_keeps (fun s2 x3 hS4 => ?_) _ _ ?_
      · refine releaseUnit_keeps (C.mono (by decide)) ?_
        exact hS4
      · exact hS1

theorem execSlvRelease_keeps {P : State → Prop} (C : Keeps [.indlog, .regs, .cnd, .log, .queue, .sent] P) {r_1 bits_2 s_3} (hP3 : P s_3) : Next P (execSlvRelease r_1 bits_2 s_3) := by
  unfold execSlvRelease
  refine next_keeps ?_
  refine takeSlvRelease_keeps (C.mono (by decide)) ?_
  exact hP3

theorem solverEdge_keeps {P : State → Prop} (C : Keeps [.indlog, .regs, .frame, .cnd, .safe, .log, .queue, .mem, .swp, .slv, .sec, .bus, .sent, .free] P) {s_1} (hP1 : P s_1) : P (solverEdge s_1) := by
  unfold solverEdge
  extract_lets -merge -useContext -underBinder +onlyGivenNames out0 s11
  have h_out0 : ∀ s2 n4, P s2 → P (out0 s2 n4) := by
    intro s2 n4 hS3
    unfold out0
    refine kermesDue_keeps (C.mono (by decide)) ?_
    refine takeOut_keeps (C.mono (by decide)) ?_
    exact hS3
  clear_value out0
  have h_s11 : P s11 := by
    unfold s11
    refine foldl_keeps (fun s5 x6 hS7 => ?_) _ _ ?_
    · refine h_out0 _ _ ?_
      exact hS7
    · exact hP1
  try clear_value s11
  refine C.upd_slv (by decide) ?_
  exact h_s11

theorem storeEdge_keeps {P : State → Prop} (C : Keeps [.regs, .mad] P) {s_1} (hP1 : P s_1) : P (storeEdge s_1) := by
  unfold storeEdge
  extract_lets -merge -useContext -underBinder +onlyGivenNames new0 recent1 excess2 __src3 s14
  have h_s14 : P s14 := by
    unfold s14
    refine C.upd_mad (by decide) ?_
    exact hP1
  try clear_value s14
  refine ite_keeps ?_ ?_
  · refine bump_keeps (C.mono (by decide)) ?_
    exact h_s14
  · exact h_s14

theorem pickFail_keeps {P : State → Prop} (C : Keeps [.free] P) {fs_1 u_2 s_3} (hP3 : P s_3) : P (pickFail fs_1 u_2 s_3).2 := by
  unfold pickFail
  split
  · try dsimp only
    exact hP3
  · try dsimp only
    exact hP3
  · extract_lets -merge -useContext -underBinder +onlyGivenNames n0
    have h_n0 : P n0.2 := by
      unfold n0
      refine nextFree_keeps (C.mono (by decide)) ?_
      exact hP3
    try clear_value n0
    try dsimp only
    exact h_n0

theorem showDis_keeps {P : State → Prop} (C : Keeps [.regs] P) {s_1} (hP1 : P s_1) : P (showDis s_1) := by
  unfold showDis
  refine setSat_keeps (C.mono (by decide)) ?_
  exact hP1

theorem secondDis_keeps {P : State → Prop} (C : Keeps [.indlog, .regs, .frame, .cnd, .safe, .log, .queue, .mem, .swp, .sec, .bus, .sent, .free] P) {old_1 d_2 detail_3 s_4} (hP4 : P s_4) : P (secondDis old_1 d_2 detail_3 s_4) := by
  unfold secondDis
  extract_lets -merge -useContext -underBinder +onlyGivenNames tile0 lane1 out2 s13 s24
  have h_out2 : ∀ u5 s6, P s6 → P (out2 u5 s6) := by
    intro u5 s6 hS7
    unfold out2
    refine showSched_keeps (C.mono (by decide)) ?_
    refine kermesDue_keeps (C.mono (by decide)) ?_
    refine takeOut_keeps (C.mono (by decide)) ?_
    exact hS7
  clear_value out2
  have h_s13 : P s13 := by
    unfold s13
    try clear_value tile0
    split
    · refine h_out2 _ _ ?_
      exact hP4
    · exact hP4
  try clear_value s13
  have h_s24 : P s24 := by
    unfold s24
    try clear_value lane1
    split
    · refine h_out2 _ _ ?_
      exact h_s13
    · exact h_s13
  try clear_value s24
  refine ite_keeps ?_ ?_
  · refine report_keeps (C.mono (by decide)) ?_
    exact h_s24
  · exact h_s24

theorem disagree_keeps {P : State → Prop} (C : Keeps [.pwr, .raise, .indlog, .regs, .frame, .num, .cnd, .wld, .mad, .safe, .restart, .log, .queue, .mem, .swp, .twin, .swap, .sec, .bus, .replay, .sent, .free] P) {f_1 t_2 s_3} (hP3 : P s_3) : P (disagree f_1 t_2 s_3) := by
  unfold disagree
  extract_lets -merge -useContext -underBinder +onlyGivenNames detail0 old1 d2 s13 __src4 s25 s36
  have h_s13 : P s13 := by
    unfold s13
    refine doubtEvent_keeps (C.mono (by decide)) ?_
    exact hP3
  try clear_value s13
  have h_s25 : P s25 := by
    unfold s25
    refine capture_keeps (C.mono (by decide)) ?_
    refine bump_keeps (C.mono (by decide)) ?_
    refine C.upd_mad (by decide) ?_
    exact h_s13
  try clear_value s25
  have h_s36 : P s36 := by
    unfold s36
    refine secondDis_keeps (C.mono (by decide)) ?_
    refine showDis_keeps (C.mono (by decide)) ?_
    exact h_s25
  try clear_value s36
  refine ite_keeps ?_ ?_
  · refine triggerRestart_keeps (C.mono (by decide)) ?_
    refine report_keeps (C.mono (by decide)) ?_
    exact h_s36
  · exact h_s36

theorem judgeOwn_keeps {P : State → Prop} (C : Keeps [.pwr, .raise, .indlog, .regs, .frame, .num, .cnd, .wld, .mad, .safe, .restart, .log, .queue, .mem, .swp, .twin, .swap, .sec, .bus, .replay, .sent, .free] P) {u_1 s_2} (hP2 : P s_2) : P (judgeOwn u_1 s_2) := by
  unfold judgeOwn
  split
  · exact hP2
  · extract_lets -merge -useContext -underBinder +onlyGivenNames r0 s11
    have h_r0 : P r0.2 := by
      unfold r0
      refine pickFail_keeps (C.mono (by decide)) ?_
      exact hP2
    try clear_value r0
    have h_s11 : P s11 := by
      unfold s11
      refine phaseDone_keeps (C.mono (by decide)) ?_
      exact h_r0
    try clear_value s11
    split
    · refine C.upd_frame_mad (by decide) ?_
      exact h_s11
    · refine disagree_keeps (C.mono (by decide)) ?_
      refine C.upd_frame_mad (by decide) ?_
      exact h_s11

theorem execMadderInjectionDone_keeps {P : State → Prop} (C : Keeps [.pwr, .raise, .indlog, .regs, .mad, .log, .queue, .twin, .sent] P) {rejected_1 cause_2 inTime_3 s_4} (hP4 : P s_4) : Next P (execMadderInjectionDone rejected_1 cause_2 inTime_3 s_4) := by
  unfold execMadderInjectionDone
  refine next_keeps ?_
  refine live_keeps (C.mono (by decide)) ?_ ?_
  · exact hP4
  · intro s0 hS1
    refine ite_keeps ?_ ?_
    · exact hS1
    · extract_lets -merge -useContext -underBinder +onlyGivenNames __src2 s13
      have h_s13 : P s13 := by
        unfold s13
        refine setFlag_keeps (C.mono (by decide)) ?_
        refine C.upd_mad (by decide) ?_
        exact hS1
      try clear_value s13
      refine fatal_keeps (C.mono (by decide)) ?_
      exact h_s13

theorem madderEdge_keeps {P : State → Prop} (C : Keeps [.regs, .frame, .mad] P) {s_1} (hP1 : P s_1) : P (madderEdge s_1) := by
  unfold madderEdge
  extract_lets -merge -useContext -underBinder +onlyGivenNames __src0 s11 __src2 s23
  have h_s11 : P s11 := by
    unfold s11
    refine storeEdge_keeps (C.mono (by decide)) ?_
    refine C.upd_mad (by decide) ?_
    exact hP1
  try clear_value s11
  have h_s23 : P s23 := by
    unfold s23
    refine showDis_keeps (C.mono (by decide)) ?_
    refine C.upd_mad (by decide) ?_
    exact h_s11
  try clear_value s23
  refine ite_keeps ?_ ?_
  · refine markDoubt_keeps (C.mono (by decide)) ?_
    exact h_s23
  · exact h_s23

theorem showHold_keeps {P : State → Prop} (C : Keeps [.regs] P) {s_1} (hP1 : P s_1) : P (showHold s_1) := by
  unfold showHold
  extract_lets -merge -useContext -underBinder +onlyGivenNames ms0
  refine setFlag_keeps (C.mono (by decide)) ?_
  refine setFlag_keeps (C.mono (by decide)) ?_
  refine setSat_keeps (C.mono (by decide)) ?_
  exact hP1

theorem assertOwn_keeps {P : State → Prop} (C : Keeps [.raise, .indlog, .regs, .log, .queue] P) {s_1} (hP1 : P s_1) : P (assertOwn s_1) := by
  unfold assertOwn
  refine ite_keeps ?_ ?_
  · exact hP1
  · refine assertSafeStop_keeps (C.mono (by decide)) ?_
    exact hP1

theorem takeOver_keeps {P : State → Prop} (C : Keeps [.raise, .indlog, .regs, .umb, .log, .queue] P) {s_1} (hP1 : P s_1) : P (takeOver s_1) := by
  unfold takeOver
  refine ite_keeps ?_ ?_
  · exact hP1
  · extract_lets -merge -useContext -underBinder +onlyGivenNames t00 __src1 s12
    have h_s12 : P s12 := by
      unfold s12
      refine report_keeps (C.mono (by decide)) ?_
      refine C.upd_umb (by decide) ?_
      exact hP1
    try clear_value s12
    split
    · refine assertOwn_keeps (C.mono (by decide)) ?_
      exact h_s12
    · split
      · refine assertOwn_keeps (C.mono (by decide)) ?_
        exact h_s12
      · extract_lets -merge -useContext -underBinder +onlyGivenNames s03 w04 a5 __src6 s27
        have h_s27 : P s27 := by
          unfold s27
          refine C.upd_umb (by decide) ?_
          exact h_s12
        try clear_value s27
        refine ite_keeps ?_ ?_
        · refine assertOwn_keeps (C.mono (by decide)) ?_
          exact h_s27
        · exact h_s27

theorem releaseHold_keeps {P : State → Prop} (C : Keeps [.indlog, .regs, .umb, .log, .queue] P) {s_1} (hP1 : P s_1) : P (releaseHold s_1) := by
  unfold releaseHold
  refine ite_keeps ?_ ?_
  · refine report_keeps (C.mono (by decide)) ?_
    refine C.upd_umb (by decide) ?_
    exact hP1
  · exact hP1

theorem refuseUnopened_keeps {P : State → Prop} (C : Keeps [.indlog, .regs, .wld, .log, .queue, .swap] P) {reason_1 mask_2 s_3} (hP3 : P s_3) : P (refuseUnopened reason_1 mask_2 s_3) := by
  unfold refuseUnopened
  extract_lets -merge -useContext -underBinder +onlyGivenNames held0 s11 s22
  have h_s11 : P s11 := by
    unfold s11
    refine setFld_keeps (C.mono (by decide)) ?_
    refine setFld_keeps (C.mono (by decide)) ?_
    refine resetStaged_keeps (C.mono (by decide)) ?_
    exact hP3
  try clear_value s11
  have h_s22 : P s22 := by
    unfold s22
    refine ite_keeps ?_ ?_
    · refine setFld_keeps (C.mono (by decide)) ?_
      refine setFld_keeps (C.mono (by decide)) ?_
      exact h_s11
    · exact h_s11
  try clear_value s22
  refine swapRefused_keeps (C.mono (by decide)) ?_
  exact h_s22

theorem stageTables_keeps {P : State → Prop} (C : Keeps [.wld, .swap] P) {t_1 s_2} (hP2 : P s_2) : P (stageTables t_1 s_2) := by
  unfold stageTables
  extract_lets -merge -useContext -underBinder +onlyGivenNames held0 __src1 s12
  have h_s12 : P s12 := by
    unfold s12
    refine ite_keeps ?_ ?_
    · exact hP2
    · refine C.upd_wld (by decide) ?_
      exact hP2
  try clear_value s12
  refine ite_keeps ?_ ?_
  · exact h_s12
  · refine C.upd_swap (by decide) ?_
    exact h_s12

theorem openUser_keeps {P : State → Prop} (C : Keeps [.regs, .swap] P) {origin_1 mask_2 target_3 edge_4 s_5} (hP5 : P s_5) : P (openUser origin_1 mask_2 target_3 edge_4 s_5) := by
  unfold openUser
  refine showSwap_keeps (C.mono (by decide)) ?_
  refine C.upd_swap (by decide) ?_
  exact hP5

theorem takeSwapRequest_keeps {P : State → Prop} (C : Keeps [.indlog, .regs, .wld, .log, .queue, .swap] P) {r_1 mask_2 t_3 s_4} (hP4 : P s_4) : P (takeSwapRequest r_1 mask_2 t_3 s_4) := by
  unfold takeSwapRequest
  refine fabric_keeps (C.mono (by decide)) ?_ ?_
  · exact hP4
  · intro s0 hS1
    extract_lets -merge -useContext -underBinder +onlyGivenNames m2 s03
    have h_s03 : P s03 := by
      unfold s03
      refine stageTables_keeps (C.mono (by decide)) ?_
      refine ite_keeps ?_ ?_
      · refine setFld_keeps (C.mono (by decide)) ?_
        exact hS1
      · refine setFld_keeps (C.mono (by decide)) ?_
        exact hS1
    try clear_value s03
    refine ite_keeps ?_ ?_
    · refine refuseUnopened_keeps (C.mono (by decide)) ?_
      exact h_s03
    · split
      · refine openUser_keeps (C.mono (by decide)) ?_
        exact h_s03
      · refine ite_keeps ?_ ?_
        · refine openUser_keeps (C.mono (by decide)) ?_
          exact h_s03
        · refine refuseUnopened_keeps (C.mono (by decide)) ?_
          exact h_s03
      · refine refuseUnopened_keeps (C.mono (by decide)) ?_
        exact h_s03

theorem execSwapRequest_keeps {P : State → Prop} (C : Keeps [.indlog, .regs, .wld, .log, .queue, .swap] P) {r_1 mask_2 t_3 s_4} (hP4 : P s_4) : Next P (execSwapRequest r_1 mask_2 t_3 s_4) := by
  unfold execSwapRequest
  refine next_keeps ?_
  refine takeSwapRequest_keeps (C.mono (by decide)) ?_
  exact hP4

theorem takeSwapCancel_keeps {P : State → Prop} (C : Keeps [.indlog, .regs, .wld, .log, .queue, .twin, .swap, .sent] P) {r_1 s_2} (hP2 : P s_2) : P (takeSwapCancel r_1 s_2) := by
  unfold takeSwapCancel
  refine live_keeps (C.mono (by decide)) ?_ ?_
  · exact hP2
  · intro s0 hS1
    split
    · exact hS1
    · refine ite_keeps ?_ ?_
      · exact hS1
      · refine refuseUser_keeps (C.mono (by decide)) ?_
        exact hS1

theorem execSwapCancel_keeps {P : State → Prop} (C : Keeps [.indlog, .regs, .wld, .log, .queue, .twin, .swap, .sent] P) {r_1 s_2} (hP2 : P s_2) : Next P (execSwapCancel r_1 s_2) := by
  unfold execSwapCancel
  refine next_keeps ?_
  refine takeSwapCancel_keeps (C.mono (by decide)) ?_
  exact hP2

theorem allStaged_keeps {P : State → Prop} (C : Keeps [.indlog, .regs, .wld, .log, .queue, .twin, .swap, .sent] P) {o_1 s_2} (hP2 : P s_2) : P (allStaged o_1 s_2) := by
  unfold allStaged
  extract_lets -merge -useContext -underBinder +onlyGivenNames f20 tgt1 put2 named3
  have h_put2 : ∀ x4 s5, P s5 → P (put2 x4 s5) := by
    intro x4 s5 hS6
    unfold put2
    refine C.upd_swap (by decide) ?_
    exact hS6
  clear_value put2
  have h_named3 : ∀ e7 s8, P s8 → P (named3 e7 s8) := by
    intro e7 s8 hS9
    unfold named3
    refine setFld_keeps (C.mono (by decide)) ?_
    refine setFld_keeps (C.mono (by decide)) ?_
    exact hS9
  clear_value named3
  refine ite_keeps ?_ ?_
  · refine refuseUser_keeps (C.mono (by decide)) ?_
    exact hP2
  · refine ite_keeps ?_ ?_
    · refine sendWoad_keeps (C.mono (by decide)) ?_
      exact hP2
    · refine ite_keeps ?_ ?_
      · refine ite_keeps ?_ ?_
        · refine refuseUser_keeps (C.mono (by decide)) ?_
          exact hP2
        · extract_lets -merge -useContext -underBinder +onlyGivenNames e10 m11
          refine sendWoad_keeps (C.mono (by decide)) ?_
          refine h_put2 _ _ ?_
          exact hP2
      · refine ite_keeps ?_ ?_
        · refine h_named3 _ _ ?_
          refine h_put2 _ _ ?_
          exact hP2
        · refine ite_keeps ?_ ?_
          · refine h_named3 _ _ ?_
            refine h_put2 _ _ ?_
            exact hP2
          · refine refuseUser_keeps (C.mono (by decide)) ?_
            exact hP2

theorem execStageReport_keeps {P : State → Prop} (C : Keeps [.indlog, .regs, .wld, .log, .queue, .twin, .swap, .sent] P) {subsystem_1 s_2} (hP2 : P s_2) : Next P (execStageReport subsystem_1 s_2) := by
  unfold execStageReport
  extract_lets -merge -useContext -underBinder +onlyGivenNames k0
  refine next_keeps ?_
  refine fabric_keeps (C.mono (by decide)) ?_ ?_
  · exact hP2
  · intro s1 hS2
    split
    · exact hS2
    · refine ite_keeps ?_ ?_
      · exact hS2
      · split
        · extract_lets -merge -useContext -underBinder +onlyGivenNames o'3 __src4 s15
          have h_s15 : P s15 := by
            unfold s15
            refine setFld_keeps (C.mono (by decide)) ?_
            refine C.upd_swap (by decide) ?_
            exact hS2
          try clear_value s15
          refine ite_keeps ?_ ?_
          · refine allStaged_keeps (C.mono (by decide)) ?_
            exact h_s15
          · exact h_s15
        · refine refuseUser_keeps (C.mono (by decide)) ?_
          exact hS2

theorem execStageLimitExpiry_keeps {P : State → Prop} (C : Keeps [.indlog, .regs, .wld, .log, .queue, .twin, .swap, .sent] P) {s_1} (hP1 : P s_1) : Next P (execStageLimitExpiry s_1) := by
  unfold execStageLimitExpiry
  refine next_keeps ?_
  refine fabric_keeps (C.mono (by decide)) ?_ ?_
  · exact hP1
  · intro s0 hS1
    split
    · exact hS1
    · refine ite_keeps ?_ ?_
      · refine refuseUser_keeps (C.mono (by decide)) ?_
        exact hS1
      · exact hS1

theorem copyLive_keeps {P : State → Prop} (C : Keeps [.regs] P) {mask_1 s_2} (hP2 : P s_2) : P (copyLive mask_1 s_2) := by
  unfold copyLive
  refine foldl_keeps (fun s0 x1 hS2 => ?_) _ _ ?_
  · refine foldl_keeps (fun s3 x4 hS5 => ?_) _ _ ?_
    · refine setFld_keeps (C.mono (by decide)) ?_
      exact hS5
    · exact hS2
  · exact hP2

theorem endClient_keeps {P : State → Prop} (C : Keeps [.regs, .cnd, .mem] P) {n_1 s_2} (hP2 : P s_2) : P (endClient n_1 s_2) := by
  unfold endClient
  extract_lets -merge -useContext -underBinder +onlyGivenNames mine0 s11
  have h_s11 : P s11 := by
    unfold s11
    refine foldl_keeps (fun s2 x3 hS4 => ?_) _ _ ?_
    · refine queueAnswer_keeps (C.mono (by decide)) ?_
      refine endReq_keeps (C.mono (by decide)) ?_
      exact hS4
    · exact hP2
  try clear_value s11
  refine foldl_keeps (fun s5 x6 hS7 => ?_) _ _ ?_
  · refine beginCancel_keeps (C.mono (by decide)) ?_
    exact hS7
  · exact h_s11

theorem swapApplied_keeps {P : State → Prop} (C : Keeps [.indlog, .regs, .log, .queue] P) {mask_1 recentre_2 s_3} (hP3 : P s_3) : P (swapApplied mask_1 recentre_2 s_3) := by
  unfold swapApplied
  refine report_keeps (C.mono (by decide)) ?_
  refine setFld_keeps (C.mono (by decide)) ?_
  exact hP3

theorem countPairSwap_keeps {P : State → Prop} (C : Keeps [.regs, .twin] P) {w_1 s_2} (hP2 : P s_2) : P (countPairSwap w_1 s_2) := by
  unfold countPairSwap
  refine setFld_keeps (C.mono (by decide)) ?_
  refine C.upd_twin (by decide) ?_
  exact hP2

theorem afterCopy_keeps {P : State → Prop} (C : Keeps [.time, .indlog, .regs, .ing, .log, .queue, .slv] P) {chg_1 on_2 s_3} (hP3 : P s_3) : P (afterCopy chg_1 on_2 s_3) := by
  unfold afterCopy
  extract_lets -merge -useContext -underBinder +onlyGivenNames fresh0 s11 s22 s33
  have h_s11 : P s11 := by
    unfold s11
    refine foldl_keeps (fun s4 x5 hS6 => ?_) _ _ ?_
    · refine enableStream_keeps (C.mono (by decide)) ?_
      exact hS6
    · exact hP3
  try clear_value s11
  have h_s22 : P s22 := by
    unfold s22
    refine ite_keeps ?_ ?_
    · refine takeSource_keeps (C.mono (by decide)) ?_
      exact h_s11
    · exact h_s11
  try clear_value s22
  have h_s33 : P s33 := by
    unfold s33
    refine ite_keeps ?_ ?_
    · refine setFld_keeps (C.mono (by decide)) ?_
      exact h_s22
    · exact h_s22
  try clear_value s33
  refine refreshResident_keeps (C.mono (by decide)) ?_
  exact h_s33

theorem applyUser_keeps {P : State → Prop} (C : Keeps [.time, .indlog, .regs, .ing, .cnd, .wld, .log, .queue, .mem, .slv, .twin, .swap, .sec, .sent, .free] P) {o_1 s_2} (hP2 : P s_2) : P (applyUser o_1 s_2) := by
  unfold applyUser
  extract_lets -merge -useContext -underBinder +onlyGivenNames isPair0 off1 w2 j3 s14 __src5 s26 __src7 s38 __src9 s410 shut11 s512 s613
  have h_s14 : P s14 := by
    unfold s14
    refine afterCopy_keeps (C.mono (by decide)) ?_
    refine copyLive_keeps (C.mono (by decide)) ?_
    exact hP2
  try clear_value s14
  have h_s26 : P s26 := by
    unfold s26
    refine ite_keeps ?_ ?_
    · refine C.upd_wld (by decide) ?_
      exact h_s14
    · exact h_s14
  try clear_value s26
  have h_s38 : P s38 := by
    unfold s38
    refine ite_keeps ?_ ?_
    · refine C.upd_swap (by decide) ?_
      exact h_s26
    · exact h_s26
  try clear_value s38
  have h_s410 : P s410 := by
    unfold s410
    refine showJournal_keeps (C.mono (by decide)) ?_
    refine C.upd_swap (by decide) ?_
    exact h_s38
  try clear_value s410
  have h_s512 : P s512 := by
    unfold s512
    refine foldl_keeps (fun s14 x15 hS16 => ?_) _ _ ?_
    · refine closeSlot_keeps (C.mono (by decide)) ?_
      exact hS16
    · refine foldl_keeps (fun s17 x18 hS19 => ?_) _ _ ?_
      · refine endClient_keeps (C.mono (by decide)) ?_
        exact hS19
      · exact h_s410
  try clear_value s512
  have h_s613 : P s613 := by
    unfold s613
    refine ite_keeps ?_ ?_
    · refine countPairSwap_keeps (C.mono (by decide)) ?_
      exact h_s512
    · exact h_s512
  try clear_value s613
  refine swapApplied_keeps (C.mono (by decide)) ?_
  refine setFld_keeps (C.mono (by decide)) ?_
  exact h_s613

theorem userEdge_keeps {P : State → Prop} (C : Keeps [.time, .indlog, .regs, .ing, .cnd, .wld, .log, .queue, .mem, .slv, .twin, .swap, .sec, .sent, .free] P) {s_1} (hP1 : P s_1) : P (userEdge s_1) := by
  unfold userEdge
  split
  · exact hP1
  · split
    · exact hP1
    · refine ite_keeps ?_ ?_
      · exact hP1
      · refine ite_keeps ?_ ?_
        · refine applyUser_keeps (C.mono (by decide)) ?_
          exact hP1
        · refine refuseUser_keeps (C.mono (by decide)) ?_
          exact hP1

theorem recentreEdge_keeps {P : State → Prop} (C : Keeps [.indlog, .regs, .epoch, .umb, .mad, .log, .queue, .twin, .swap, .sent] P) {s_1} (hP1 : P s_1) : P (recentreEdge s_1) := by
  unfold recentreEdge
  split
  · exact hP1
  · extract_lets -merge -useContext -underBinder +onlyGivenNames put0
    have h_put0 : ∀ x1 s2, P s2 → P (put0 x1 s2) := by
      intro x1 s2 hS3
      unfold put0
      refine C.upd_swap (by decide) ?_
      exact hS3
    clear_value put0
    split
    · refine ite_keeps ?_ ?_
      · refine ite_keeps ?_ ?_
        · extract_lets -merge -useContext -underBinder +onlyGivenNames __src4 s15 s26
          have h_s15 : P s15 := by
            unfold s15
            refine applyRecentre_keeps (C.mono (by decide)) ?_
            refine C.upd_swap (by decide) ?_
            exact hP1
          try clear_value s15
          have h_s26 : P s26 := by
            unfold s26
            refine ite_keeps ?_ ?_
            · refine countPairSwap_keeps (C.mono (by decide)) ?_
              exact h_s15
            · exact h_s15
          try clear_value s26
          refine swapApplied_keeps (C.mono (by decide)) ?_
          refine setFld_keeps (C.mono (by decide)) ?_
          exact h_s26
        · refine refuseRecentre_keeps (C.mono (by decide)) ?_
          exact hP1
      · refine ite_keeps ?_ ?_
        · refine sendWoad_keeps (C.mono (by decide)) ?_
          refine h_put0 _ _ ?_
          exact hP1
        · exact hP1
    · refine ite_keeps ?_ ?_
      · exact hP1
      · refine ite_keeps ?_ ?_
        · extract_lets -merge -useContext -underBinder +onlyGivenNames e7 d8 m9
          refine sendWoad_keeps (C.mono (by decide)) ?_
          refine h_put0 _ _ ?_
          exact hP1
        · refine setFld_keeps (C.mono (by decide)) ?_
          refine h_put0 _ _ ?_
          exact hP1

theorem openRecentre_keeps {P : State → Prop} (C : Keeps [.regs, .swap] P) {s_1} (hP1 : P s_1) : P (openRecentre s_1) := by
  unfold openRecentre
  extract_lets -merge -useContext -underBinder +onlyGivenNames e0
  refine ite_keeps ?_ ?_
  · extract_lets -merge -useContext -underBinder +onlyGivenNames d1
    refine setFld_keeps (C.mono (by decide)) ?_
    refine C.upd_swap (by decide) ?_
    exact hP1
  · exact hP1

theorem applyPairSwap_keeps {P : State → Prop} (C : Keeps [.time, .indlog, .regs, .ing, .wld, .log, .queue, .slv, .swap] P) {s_1 w_2} (hP1 : P s_1) : P (applyPairSwap s_1 w_2) := by
  unfold applyPairSwap
  extract_lets -merge -useContext -underBinder +onlyGivenNames enter0 s11 ko2 j13 j24
  have h_s11 : P s11 := by
    unfold s11
    refine afterCopy_keeps (C.mono (by decide)) ?_
    refine foldl_keeps (fun s5 x6 hS7 => ?_) _ _ ?_
    · refine setReg_keeps (C.mono (by decide)) ?_
      refine setReg_keeps (C.mono (by decide)) ?_
      exact hS7
    · exact hP1
  try clear_value s11
  refine C.upd_wld_swap (by decide) ?_
  exact h_s11

theorem joinEdge_keeps {P : State → Prop} (C : Keeps [.time, .indlog, .regs, .ing, .wld, .log, .queue, .slv, .twin, .swap, .sent] P) {s_1} (hP1 : P s_1) : P (joinEdge s_1) := by
  unfold joinEdge
  split
  · exact hP1
  · refine ite_keeps ?_ ?_
    · exact hP1
    · refine sendDigests_keeps (C.mono (by decide)) ?_
      refine showJournal_keeps (C.mono (by decide)) ?_
      refine foldl_keeps (fun s0 x1 hS2 => ?_) _ _ ?_
      · refine applyPairSwap_keeps (C.mono (by decide)) ?_
        exact hS2
      · refine C.upd_swap (by decide) ?_
        exact hP1

theorem swapEdge_keeps {P : State → Prop} (C : Keeps [.time, .indlog, .regs, .ing, .cnd, .wld, .epoch, .umb, .mad, .log, .queue, .mem, .slv, .twin, .swap, .sec, .sent, .free] P) {s_1} (hP1 : P s_1) : P (swapEdge s_1) := by
  unfold swapEdge
  refine userEdge_keeps (C.mono (by decide)) ?_
  refine joinEdge_keeps (C.mono (by decide)) ?_
  refine recentreEdge_keeps (C.mono (by decide)) ?_
  exact hP1

theorem reloadTable_keeps {P : State → Prop} (C : Keeps [.wld, .mem, .swap] P) {i_1 s_2} (hP2 : P s_2) : P (reloadTable i_1 s_2) := by
  unfold reloadTable
  split
  · refine C.upd_wld (by decide) ?_
    exact hP2
  · refine C.upd_wld (by decide) ?_
    exact hP2
  · refine C.upd_swap (by decide) ?_
    exact hP2
  · refine C.upd_mem (by decide) ?_
    exact hP2
  · exact hP2

theorem reloadRegs_keeps {P : State → Prop} (C : Keeps [.regs] P) {mask_1 s_2} (hP2 : P s_2) : P (reloadRegs mask_1 s_2) := by
  unfold reloadRegs
  extract_lets -merge -useContext -underBinder +onlyGivenNames value0 s11
  have h_s11 : P s11 := by
    unfold s11
    refine foldl_keeps (fun s2 x3 hS4 => ?_) _ _ ?_
    · refine foldl_keeps (fun s5 x6 hS7 => ?_) _ _ ?_
      · refine setFld_keeps (C.mono (by decide)) ?_
        exact hS7
      · exact hS4
    · exact hP2
  try clear_value s11
  refine foldl_keeps (fun s8 x9 hS10 => ?_) _ _ ?_
  · refine setReg_keeps (C.mono (by decide)) ?_
    exact hS10
  · exact h_s11

end Sys2Proof.Machine
end

