-- ==== Sys2Proof/Laws/KeepsPair.lean ====
section
/-! SUPPORT. Laws/KeepsPair.lean: which parts of the state the functions of Machine/Twin, Security write: for each of
them, that a property which survives changes of those parts survives the function (Laws/Keeps.lean). -/

set_option Elab.async false

set_option linter.unusedVariables false

namespace Sys2Proof.Machine

theorem showLanes_keeps {P : State → Prop} (C : Keeps [.regs] P) {up_1 s_2} (hP2 : P s_2) : P (showLanes up_1 s_2) := by
  unfold showLanes
  extract_lets -merge -useContext -underBinder +onlyGivenNames v0
  refine setFld_keeps (C.mono (by decide)) ?_
  refine setFld_keeps (C.mono (by decide)) ?_
  exact hP2

theorem execWoadLinkDown_keeps {P : State → Prop} (C : Keeps [.indlog, .regs, .log, .queue, .twin] P) {_cause_1 s_2} (hP2 : P s_2) : Next P (execWoadLinkDown _cause_1 s_2) := by
  unfold execWoadLinkDown
  refine next_keeps ?_
  refine live_keeps (C.mono (by decide)) ?_ ?_
  · exact hP2
  · intro s0 hS1
    refine ite_keeps ?_ ?_
    · exact hS1
    · refine woadEvent_keeps (C.mono (by decide)) ?_
      refine bump_keeps (C.mono (by decide)) ?_
      refine showLanes_keeps (C.mono (by decide)) ?_
      refine showPair_keeps (C.mono (by decide)) ?_
      refine C.upd_twin (by decide) ?_
      exact hS1

theorem execWoadLinkUp_keeps {P : State → Prop} (C : Keeps [.indlog, .regs, .log, .queue, .twin] P) {s_1} (hP1 : P s_1) : Next P (execWoadLinkUp s_1) := by
  unfold execWoadLinkUp
  refine next_keeps ?_
  refine live_keeps (C.mono (by decide)) ?_ ?_
  · exact hP1
  · intro s0 hS1
    refine ite_keeps ?_ ?_
    · exact hS1
    · refine woadEvent_keeps (C.mono (by decide)) ?_
      refine showLanes_keeps (C.mono (by decide)) ?_
      refine showPair_keeps (C.mono (by decide)) ?_
      refine C.upd_twin (by decide) ?_
      exact hS1

theorem formFail_keeps {P : State → Prop} (C : Keeps [.pwr, .indlog, .regs, .log, .queue, .pair] P) {n_1 s_2} (hP2 : P s_2) : P (formFail n_1 s_2) := by
  unfold formFail
  extract_lets -merge -useContext -underBinder +onlyGivenNames s10
  have h_s10 : P s10 := by
    unfold s10
    refine setFld_keeps (C.mono (by decide)) ?_
    exact hP2
  try clear_value s10
  refine ite_keeps ?_ ?_
  · refine woadEvent_keeps (C.mono (by decide)) ?_
    refine assertFaultN_keeps (C.mono (by decide)) ?_
    refine setPair_keeps (C.mono (by decide)) ?_
    exact h_s10
  · refine woadEvent_keeps (C.mono (by decide)) ?_
    refine ite_keeps ?_ ?_
    · refine setPair_keeps (C.mono (by decide)) ?_
      exact h_s10
    · exact h_s10

theorem tagFailure_keeps {P : State → Prop} (C : Keeps [.pwr, .indlog, .regs, .log, .queue, .twin, .pair] P) {chan_1 s_2} (hP2 : P s_2) : P (tagFailure chan_1 s_2) := by
  unfold tagFailure
  extract_lets -merge -useContext -underBinder +onlyGivenNames recent0 __src1 s12
  have h_s12 : P s12 := by
    unfold s12
    refine bump_keeps (C.mono (by decide)) ?_
    refine C.upd_twin (by decide) ?_
    exact hP2
  try clear_value s12
  refine ite_keeps ?_ ?_
  · refine formFail_keeps (C.mono (by decide)) ?_
    refine C.upd_twin (by decide) ?_
    exact h_s12
  · refine ite_keeps ?_ ?_
    · refine degrade_keeps (C.mono (by decide)) ?_
      refine woadEvent_keeps (C.mono (by decide)) ?_
      refine C.upd_twin (by decide) ?_
      exact h_s12
    · exact h_s12

theorem transport_keeps {P : State → Prop} (C : Keeps [.pwr, .indlog, .regs, .log, .queue, .twin, .pair] P) {b_1 s_2} (hP2 : P s_2) : P (transport b_1 s_2) := by
  unfold transport
  extract_lets -merge -useContext -underBinder +onlyGivenNames chan0 ctr1 last2
  refine ite_keeps ?_ ?_
  · exact hP2
  · refine ite_keeps ?_ ?_
    · refine tagFailure_keeps (C.mono (by decide)) ?_
      exact hP2
    · refine ite_keeps ?_ ?_
      · refine bump_keeps (C.mono (by decide)) ?_
        exact hP2
      · refine C.upd_twin (by decide) ?_
        exact hP2

theorem execWoadLinkFrame_keeps {P : State → Prop} (C : Keeps [.pwr, .indlog, .regs, .log, .queue, .twin, .pair] P) {f_1 s_2} (hP2 : P s_2) : Next P (execWoadLinkFrame f_1 s_2) := by
  unfold execWoadLinkFrame
  refine next_keeps ?_
  refine live_keeps (C.mono (by decide)) ?_ ?_
  · exact hP2
  · intro s0 hS1
    refine ite_keeps ?_ ?_
    · exact hS1
    · refine ite_keeps ?_ ?_
      · refine bump_keeps (C.mono (by decide)) ?_
        exact hS1
      · refine transport_keeps (C.mono (by decide)) ?_
        refine C.upd_twin (by decide) ?_
        exact hS1

theorem sendHello_keeps {P : State → Prop} (C : Keeps [.twin, .sent, .free] P) {fresh_1 s_2} (hP2 : P s_2) : P (sendHello fresh_1 s_2) := by
  unfold sendHello
  extract_lets -merge -useContext -underBinder +onlyGivenNames n0 drawn1 own2
  have h_n0 : P n0.2 := by
    unfold n0
    refine nextFree_keeps (C.mono (by decide)) ?_
    exact hP2
  try clear_value n0
  refine sendWoad_keeps (C.mono (by decide)) ?_
  extract_lets -merge -useContext -underBinder +onlyGivenNames __src3
  have h___src3 : P __src3 := by
    unfold __src3
    exact h_n0
  refine C.upd_twin (by decide) ?_
  exact h___src3

theorem execHelloTimer_keeps {P : State → Prop} (C : Keeps [.twin, .sent, .free] P) {s_1} (hP1 : P s_1) : Next P (execHelloTimer s_1) := by
  unfold execHelloTimer
  refine next_keeps ?_
  refine ite_keeps ?_ ?_
  · refine sendHello_keeps (C.mono (by decide)) ?_
    exact hP1
  · exact hP1

theorem execHello_keeps {P : State → Prop} (C : Keeps [.pwr, .indlog, .regs, .log, .queue, .twin, .pair, .sent, .free] P) {m_1 s_2} (hP2 : P s_2) : Next P (execHello m_1 s_2) := by
  unfold execHello
  refine next_keeps ?_
  refine ite_keeps ?_ ?_
  · exact hP2
  · refine ite_keeps ?_ ?_
    · refine formFail_keeps (C.mono (by decide)) ?_
      exact hP2
    · refine ite_keeps ?_ ?_
      · refine formFail_keeps (C.mono (by decide)) ?_
        exact hP2
      · refine ite_keeps ?_ ?_
        · refine formFail_keeps (C.mono (by decide)) ?_
          exact hP2
        · extract_lets -merge -useContext -underBinder +onlyGivenNames running0 s11
          have h_s11 : P s11 := by
            unfold s11
            refine ite_keeps ?_ ?_
            · refine sendHello_keeps (C.mono (by decide)) ?_
              exact hP2
            · exact hP2
          try clear_value s11
          refine sendWoad_keeps (C.mono (by decide)) ?_
          refine C.upd_twin (by decide) ?_
          exact h_s11

theorem formed_keeps {P : State → Prop} (C : Keeps [.indlog, .regs, .log, .queue, .twin, .pair] P) {primary_1 s_2} (hP2 : P s_2) : P (formed primary_1 s_2) := by
  unfold formed
  refine woadEvent_keeps (C.mono (by decide)) ?_
  refine setFld_keeps (C.mono (by decide)) ?_
  refine setPair_keeps (C.mono (by decide)) ?_
  refine C.upd_twin (by decide) ?_
  exact hP2

theorem serveJoin_keeps {P : State → Prop} (C : Keeps [.twin, .swap, .sent] P) {s_1} (hP1 : P s_1) : P (serveJoin s_1) := by
  unfold serveJoin
  extract_lets -merge -useContext -underBinder +onlyGivenNames e0
  refine sendWoad_keeps (C.mono (by decide)) ?_
  refine C.upd_twin_swap (by decide) ?_
  exact hP1

theorem execConfig_keeps {P : State → Prop} (C : Keeps [.pwr, .indlog, .regs, .log, .queue, .twin, .pair, .swap, .sent] P) {m_1 s_2} (hP2 : P s_2) : Next P (execConfig m_1 s_2) := by
  unfold execConfig
  extract_lets -merge -useContext -underBinder +onlyGivenNames c0
  refine next_keeps ?_
  refine ite_keeps ?_ ?_
  · exact hP2
  · refine ite_keeps ?_ ?_
    · refine formFail_keeps (C.mono (by decide)) ?_
      exact hP2
    · refine ite_keeps ?_ ?_
      · refine formFail_keeps (C.mono (by decide)) ?_
        exact hP2
      · refine ite_keeps ?_ ?_
        · refine formFail_keeps (C.mono (by decide)) ?_
          exact hP2
        · refine ite_keeps ?_ ?_
          · refine serveJoin_keeps (C.mono (by decide)) ?_
            exact hP2
          · refine ite_keeps ?_ ?_
            · refine C.upd_twin (by decide) ?_
              exact hP2
            · refine ite_keeps ?_ ?_
              · refine formed_keeps (C.mono (by decide)) ?_
                exact hP2
              · exact hP2

theorem execPairWaitExpiry_keeps {P : State → Prop} (C : Keeps [.pwr, .indlog, .regs, .log, .queue, .twin, .pair] P) {s_1} (hP1 : P s_1) : Next P (execPairWaitExpiry s_1) := by
  unfold execPairWaitExpiry
  refine next_keeps ?_
  refine ite_keeps ?_ ?_
  · exact hP1
  · refine ite_keeps ?_ ?_
    · refine formFail_keeps (C.mono (by decide)) ?_
      exact hP1
    · extract_lets -merge -useContext -underBinder +onlyGivenNames alone0 at'1
      refine formFail_keeps (C.mono (by decide)) ?_
      refine C.upd_twin (by decide) ?_
      exact hP1

theorem aloneEdge_keeps {P : State → Prop} (C : Keeps [.regs, .twin, .pair] P) {s_1} (hP1 : P s_1) : P (aloneEdge s_1) := by
  unfold aloneEdge
  split
  · exact hP1
  · refine ite_keeps ?_ ?_
    · refine C.upd_twin (by decide) ?_
      exact hP1
    · refine ite_keeps ?_ ?_
      · refine setPair_keeps (C.mono (by decide)) ?_
        refine C.upd_twin (by decide) ?_
        exact hP1
      · exact hP1

theorem execJournal_keeps {P : State → Prop} (C : Keeps [.regs, .twin, .swap] P) {entries_1 e_2 s_3} (hP3 : P s_3) : Next P (execJournal entries_1 e_2 s_3) := by
  unfold execJournal
  refine next_keeps ?_
  refine ite_keeps ?_ ?_
  · exact hP3
  · refine setFld_keeps (C.mono (by decide)) ?_
    refine C.upd_twin_swap (by decide) ?_
    exact hP3

theorem showSkew_keeps {P : State → Prop} (C : Keeps [.regs, .free] P) {skew_1 s_2} (hP2 : P s_2) : P (showSkew skew_1 s_2) := by
  unfold showSkew
  extract_lets -merge -useContext -underBinder +onlyGivenNames n0 fits1 s12
  have h_n0 : P n0.2 := by
    unfold n0
    refine nextFree_keeps (C.mono (by decide)) ?_
    exact hP2
  try clear_value n0
  have h_s12 : P s12 := by
    unfold s12
    refine setFld_keeps (C.mono (by decide)) ?_
    exact h_n0
  try clear_value s12
  refine setSat_keeps (C.mono (by decide)) ?_
  exact h_s12

theorem judgeSkew_keeps {P : State → Prop} (C : Keeps [.indlog, .regs, .log, .queue, .twin, .pair, .free] P) {skew_1 s_2} (hP2 : P s_2) : P (judgeSkew skew_1 s_2) := by
  unfold judgeSkew
  extract_lets -merge -useContext -underBinder +onlyGivenNames out0 s11 s22 __src3 s34
  have h_s11 : P s11 := by
    unfold s11
    refine showSkew_keeps (C.mono (by decide)) ?_
    exact hP2
  try clear_value s11
  have h_s22 : P s22 := by
    unfold s22
    refine ite_keeps ?_ ?_
    · refine woadEvent_keeps (C.mono (by decide)) ?_
      exact h_s11
    · exact h_s11
  try clear_value s22
  have h_s34 : P s34 := by
    unfold s34
    refine C.upd_twin (by decide) ?_
    exact h_s22
  try clear_value s34
  refine ite_keeps ?_ ?_
  · refine degrade_keeps (C.mono (by decide)) ?_
    exact h_s34
  · exact h_s34

theorem execEdge_keeps {P : State → Prop} (C : Keeps [.indlog, .regs, .log, .queue, .twin, .pair, .free] P) {m_1 s_2} (hP2 : P s_2) : Next P (execEdge m_1 s_2) := by
  unfold execEdge
  refine next_keeps ?_
  refine live_keeps (C.mono (by decide)) ?_ ?_
  · exact hP2
  · intro s0 hS1
    refine ite_keeps ?_ ?_
    · refine C.upd_twin (by decide) ?_
      exact hS1
    · extract_lets -merge -useContext -underBinder +onlyGivenNames __src2 s13 skew4 s25 s36
      have h_s13 : P s13 := by
        unfold s13
        refine C.upd_twin (by decide) ?_
        exact hS1
      try clear_value s13
      have h_s25 : P s25 := by
        unfold s25
        refine ite_keeps ?_ ?_
        · refine judgeSkew_keeps (C.mono (by decide)) ?_
          exact h_s13
        · exact h_s13
      try clear_value s25
      have h_s36 : P s36 := by
        unfold s36
        refine ite_keeps ?_ ?_
        · refine degrade_keeps (C.mono (by decide)) ?_
          exact h_s25
        · exact h_s25
      try clear_value s36
      refine ite_keeps ?_ ?_
      · extract_lets -merge -useContext -underBinder +onlyGivenNames n7
        have h_n7 : P n7.2 := by
          unfold n7
          refine nextFree_keeps (C.mono (by decide)) ?_
          exact h_s36
        try clear_value n7
        refine degrade_keeps (C.mono (by decide)) ?_
        exact h_n7
      · exact h_s36

theorem execDelayExchangeTimer_keeps {P : State → Prop} (C : Keeps [.twin, .sent] P) {s_1} (hP1 : P s_1) : Next P (execDelayExchangeTimer s_1) := by
  unfold execDelayExchangeTimer
  refine next_keeps ?_
  refine live_keeps (C.mono (by decide)) ?_ ?_
  · exact hP1
  · intro s0 hS1
    refine ite_keeps ?_ ?_
    · refine sendWoad_keeps (C.mono (by decide)) ?_
      exact hS1
    · exact hS1

theorem execDelayReq_keeps {P : State → Prop} (C : Keeps [.twin, .sent] P) {_sent_1 s_2} (hP2 : P s_2) : Next P (execDelayReq _sent_1 s_2) := by
  unfold execDelayReq
  refine next_keeps ?_
  refine live_keeps (C.mono (by decide)) ?_ ?_
  · exact hP2
  · intro s0 hS1
    refine ite_keeps ?_ ?_
    · exact hS1
    · refine sendWoad_keeps (C.mono (by decide)) ?_
      exact hS1

theorem execDelayResp_keeps {P : State → Prop} (C : Keeps [.time, .regs, .twin, .free] P) {t1_1 t2_2 t3_3 t4_4 taiA_5 s_6} (hP6 : P s_6) : Next P (execDelayResp t1_1 t2_2 t3_3 t4_4 taiA_5 s_6) := by
  unfold execDelayResp
  refine next_keeps ?_
  refine live_keeps (C.mono (by decide)) ?_ ?_
  · exact hP6
  · intro s0 hS1
    refine ite_keeps ?_ ?_
    · exact hS1
    · extract_lets -merge -useContext -underBinder +onlyGivenNames e12 e23 ofs4 xs5 trip6 span7 drift8 __src9 s110 tai11 w12
      have h_s110 : P s110 := by
        unfold s110
        refine discipline_keeps (C.mono (by decide)) ?_
        refine C.upd_twin (by decide) ?_
        exact hS1
      try clear_value s110
      refine setFld_keeps (C.mono (by decide)) ?_
      refine setFld_keeps (C.mono (by decide)) ?_
      refine setFld_keeps (C.mono (by decide)) ?_
      refine setFld_keeps (C.mono (by decide)) ?_
      refine setSat_keeps (C.mono (by decide)) ?_
      refine setSat_keeps (C.mono (by decide)) ?_
      refine C.upd_time (by decide) ?_
      exact h_s110

theorem mismatch_keeps {P : State → Prop} (C : Keeps [.indlog, .regs, .log, .queue, .twin, .pair] P) {old_1 s_2 i_3} (hP2 : P s_2) : P (mismatch old_1 s_2 i_3) := by
  unfold mismatch
  extract_lets -merge -useContext -underBinder +onlyGivenNames s10
  have h_s10 : P s10 := by
    unfold s10
    refine setMaskBit_keeps (C.mono (by decide)) ?_
    exact hP2
  try clear_value s10
  refine ite_keeps ?_ ?_
  · refine degrade_keeps (C.mono (by decide)) ?_
    refine woadEvent_keeps (C.mono (by decide)) ?_
    exact h_s10
  · refine woadEvent_keeps (C.mono (by decide)) ?_
    refine setMaskBit_keeps (C.mono (by decide)) ?_
    refine C.upd_twin (by decide) ?_
    exact h_s10

theorem execDigest_keeps {P : State → Prop} (C : Keeps [.indlog, .regs, .log, .queue, .twin, .pair] P) {frame_1 ds_2 s_3} (hP3 : P s_3) : Next P (execDigest frame_1 ds_2 s_3) := by
  unfold execDigest
  refine next_keeps ?_
  refine live_keeps (C.mono (by decide)) ?_ ?_
  · exact hP3
  · intro s0 hS1
    split
    · exact hS1
    · refine ite_keeps ?_ ?_
      · exact hS1
      · extract_lets -merge -useContext -underBinder +onlyGivenNames bad2
        refine ite_keeps ?_ ?_
        · refine ite_keeps ?_ ?_
          · refine formed_keeps (C.mono (by decide)) ?_
            exact hS1
          · extract_lets -merge -useContext -underBinder +onlyGivenNames __src3 s14
            have h_s14 : P s14 := by
              unfold s14
              refine C.upd_twin (by decide) ?_
              exact hS1
            try clear_value s14
            refine ite_keeps ?_ ?_
            · exact h_s14
            · refine woadEvent_keeps (C.mono (by decide)) ?_
              refine setPair_keeps (C.mono (by decide)) ?_
              exact h_s14
        · refine ite_keeps ?_ ?_
          · extract_lets -merge -useContext -underBinder +onlyGivenNames s15
            have h_s15 : P s15 := by
              unfold s15
              refine foldl_keeps (fun s6 x7 hS8 => ?_) _ _ ?_
              · refine mismatch_keeps (C.mono (by decide)) ?_
                exact hS8
              · exact hS1
            try clear_value s15
            refine C.upd_twin (by decide) ?_
            exact h_s15
          · exact hS1

theorem reloadItem_keeps {P : State → Prop} (C : Keeps [.regs, .wld, .mem, .swap] P) {i_1 s_2} (hP2 : P s_2) : P (reloadItem i_1 s_2) := by
  unfold reloadItem
  split
  · refine reloadRegs_keeps (C.mono (by decide)) ?_
    exact hP2
  · refine reloadRegs_keeps (C.mono (by decide)) ?_
    exact hP2
  · refine reloadTable_keeps (C.mono (by decide)) ?_
    exact hP2

theorem reloadEdge_keeps {P : State → Prop} (C : Keeps [.regs, .wld, .mem, .twin, .swap] P) {swapped_1 s_2} (hP2 : P s_2) : P (reloadEdge swapped_1 s_2) := by
  unfold reloadEdge
  refine ite_keeps ?_ ?_
  · exact hP2
  · extract_lets -merge -useContext -underBinder +onlyGivenNames due0
    refine foldl_keeps (fun s1 x2 hS3 => ?_) _ _ ?_
    · refine setMaskBit_keeps (C.mono (by decide)) ?_
      refine reloadItem_keeps (C.mono (by decide)) ?_
      refine C.upd_twin (by decide) ?_
      exact hS3
    · exact hP2

theorem execPropose_keeps {P : State → Prop} (C : Keeps [.indlog, .regs, .wld, .log, .queue, .twin, .swap, .sent, .free] P) {m_1 s_2} (hP2 : P s_2) : Next P (execPropose m_1 s_2) := by
  unfold execPropose
  refine next_keeps ?_
  refine fabric_keeps (C.mono (by decide)) ?_ ?_
  · exact hP2
  · intro s0 hS1
    refine ite_keeps ?_ ?_
    · exact hS1
    · refine ite_keeps ?_ ?_
      · extract_lets -merge -useContext -underBinder +onlyGivenNames n2
        have h_n2 : P n2.2 := by
          unfold n2
          refine nextFree_keeps (C.mono (by decide)) ?_
          exact hS1
        try clear_value n2
        refine pairRefused_keeps (C.mono (by decide)) ?_
        refine sendWoad_keeps (C.mono (by decide)) ?_
        exact h_n2
      · split
        · refine setFld_keeps (C.mono (by decide)) ?_
          refine C.upd_swap (by decide) ?_
          exact hS1
        · refine ite_keeps ?_ ?_
          · refine pairRefused_keeps (C.mono (by decide)) ?_
            refine sendWoad_keeps (C.mono (by decide)) ?_
            exact hS1
          · extract_lets -merge -useContext -underBinder +onlyGivenNames s13
            have h_s13 : P s13 := by
              unfold s13
              refine foldl_keeps (fun s4 x5 hS6 => ?_) _ _ ?_
              · refine setReg_keeps (C.mono (by decide)) ?_
                exact hS6
              · refine stageTables_keeps (C.mono (by decide)) ?_
                exact hS1
            try clear_value s13
            refine openUser_keeps (C.mono (by decide)) ?_
            exact h_s13

theorem execAck_keeps {P : State → Prop} (C : Keeps [.regs, .twin, .swap, .sent] P) {e_1 s_2} (hP2 : P s_2) : Next P (execAck e_1 s_2) := by
  unfold execAck
  refine next_keeps ?_
  refine fabric_keeps (C.mono (by decide)) ?_ ?_
  · exact hP2
  · intro s0 hS1
    refine ite_keeps ?_ ?_
    · exact hS1
    · extract_lets -merge -useContext -underBinder +onlyGivenNames named2
      have h_named2 : ∀ s3, P s3 → P (named2 s3) := by
        intro s3 hS4
        unfold named2
        refine setFld_keeps (C.mono (by decide)) ?_
        refine setFld_keeps (C.mono (by decide)) ?_
        exact hS4
      clear_value named2
      split
      · refine ite_keeps ?_ ?_
        · refine sendWoad_keeps (C.mono (by decide)) ?_
          refine h_named2 _ ?_
          refine C.upd_swap (by decide) ?_
          exact hS1
        · split
          · refine ite_keeps ?_ ?_
            · refine sendWoad_keeps (C.mono (by decide)) ?_
              refine C.upd_swap (by decide) ?_
              exact hS1
            · exact hS1
          · exact hS1
      · refine ite_keeps ?_ ?_
        · refine sendWoad_keeps (C.mono (by decide)) ?_
          refine C.upd_swap (by decide) ?_
          exact hS1
        · exact hS1
      · exact hS1

theorem execRefuse_keeps {P : State → Prop} (C : Keeps [.indlog, .regs, .wld, .log, .queue, .twin, .swap, .sent] P) {e_1 reason_2 s_3} (hP3 : P s_3) : Next P (execRefuse e_1 reason_2 s_3) := by
  unfold execRefuse
  refine next_keeps ?_
  refine live_keeps (C.mono (by decide)) ?_ ?_
  · exact hP3
  · intro s0 hS1
    extract_lets -merge -useContext -underBinder +onlyGivenNames s12
    have h_s12 : P s12 := by
      unfold s12
      refine setFld_keeps (C.mono (by decide)) ?_
      exact hS1
    try clear_value s12
    split
    · refine ite_keeps ?_ ?_
      · refine refuseUserAs_keeps (C.mono (by decide)) ?_
        exact h_s12
      · split
        · refine ite_keeps ?_ ?_
          · refine refuseRecentreAs_keeps (C.mono (by decide)) ?_
            exact h_s12
          · exact h_s12
        · exact h_s12
    · refine ite_keeps ?_ ?_
      · refine refuseRecentreAs_keeps (C.mono (by decide)) ?_
        exact h_s12
      · exact h_s12
    · exact h_s12

theorem execCommit_keeps {P : State → Prop} (C : Keeps [.regs, .twin, .swap, .sent] P) {e_1 s_2} (hP2 : P s_2) : Next P (execCommit e_1 s_2) := by
  unfold execCommit
  refine next_keeps ?_
  refine fabric_keeps (C.mono (by decide)) ?_ ?_
  · exact hP2
  · intro s0 hS1
    refine ite_keeps ?_ ?_
    · exact hS1
    · extract_lets -merge -useContext -underBinder +onlyGivenNames s12 s23 agreed4
      have h_s12 : P s12 := by
        unfold s12
        split
        · refine ite_keeps ?_ ?_
          · refine setFld_keeps (C.mono (by decide)) ?_
            refine setFld_keeps (C.mono (by decide)) ?_
            refine C.upd_swap (by decide) ?_
            exact hS1
          · exact hS1
        · exact hS1
      try clear_value s12
      have h_s23 : P s23 := by
        unfold s23
        split
        · refine ite_keeps ?_ ?_
          · refine setFld_keeps (C.mono (by decide)) ?_
            refine C.upd_swap (by decide) ?_
            exact h_s12
          · exact h_s12
        · exact h_s12
      try clear_value s23
      refine ite_keeps ?_ ?_
      · refine sendWoad_keeps (C.mono (by decide)) ?_
        exact h_s23
      · exact h_s23

theorem execCommitAck_keeps {P : State → Prop} (C : Keeps [.swap] P) {e_1 s_2} (hP2 : P s_2) : Next P (execCommitAck e_1 s_2) := by
  unfold execCommitAck
  refine next_keeps ?_
  refine fabric_keeps (C.mono (by decide)) ?_ ?_
  · exact hP2
  · intro s0 hS1
    refine ite_keeps ?_ ?_
    · exact hS1
    · extract_lets -merge -useContext -underBinder +onlyGivenNames agree2 agreeR3
      refine C.upd_swap (by decide) ?_
      exact hS1

theorem verdictOwn_keeps {P : State → Prop} (C : Keeps [.pwr, .raise, .indlog, .regs, .frame, .num, .cnd, .wld, .mad, .safe, .restart, .log, .queue, .mem, .swp, .twin, .swap, .sec, .bus, .replay, .sent, .free] P) {u_1 s_2} (hP2 : P s_2) : P (verdictOwn u_1 s_2) := by
  unfold verdictOwn
  refine ite_keeps ?_ ?_
  · exact hP2
  · extract_lets -merge -useContext -underBinder +onlyGivenNames s10
    have h_s10 : P s10 := by
      unfold s10
      refine judgeOwn_keeps (C.mono (by decide)) ?_
      exact hP2
    try clear_value s10
    split
    · refine sendVerdict_keeps (C.mono (by decide)) ?_
      exact h_s10
    · refine sendVerdict_keeps (C.mono (by decide)) ?_
      exact h_s10

theorem verdictTwin_keeps {P : State → Prop} (C : Keeps [.indlog, .regs, .log, .queue, .twin, .pair, .sent, .free] P) {u_1 s_2} (hP2 : P s_2) : P (verdictTwin u_1 s_2) := by
  unfold verdictTwin
  split
  · exact hP2
  · split
    · exact hP2
    · extract_lets -merge -useContext -underBinder +onlyGivenNames done0
      refine ite_keeps ?_ ?_
      · exact hP2
      · extract_lets -merge -useContext -underBinder +onlyGivenNames t1 p2 keep3
        have h_p2 : P p2.2 := by
          unfold p2
          refine pickFail_keeps (C.mono (by decide)) ?_
          exact hP2
        try clear_value p2
        have h_keep3 : ∀ ok4 s5, P s5 → P (keep3 ok4 s5) := by
          intro ok4 s5 hS6
          unfold keep3
          refine C.upd_twin (by decide) ?_
          exact hS6
        clear_value keep3
        split
        · refine sendVerdict_keeps (C.mono (by decide)) ?_
          refine h_keep3 _ _ ?_
          exact h_p2
        · extract_lets -merge -useContext -underBinder +onlyGivenNames d7
          refine noteRejection_keeps (C.mono (by decide)) ?_
          refine woadEvent_keeps (C.mono (by decide)) ?_
          refine sendVerdict_keeps (C.mono (by decide)) ?_
          refine h_keep3 _ _ ?_
          exact h_p2

theorem takeOffer_keeps {P : State → Prop} (C : Keeps [.twin] P) {o_1 s_2} (hP2 : P s_2) : P (takeOffer o_1 s_2) := by
  unfold takeOffer
  refine ite_keeps ?_ ?_
  · refine C.upd_twin (by decide) ?_
    exact hP2
  · exact hP2

theorem takeVerdict_keeps {P : State → Prop} (C : Keeps [.indlog, .regs, .log, .queue, .twin, .pair] P) {frame_1 subjectTwin_2 v_3 detail_4 s_5} (hP5 : P s_5) : P (takeVerdict frame_1 subjectTwin_2 v_3 detail_4 s_5) := by
  unfold takeVerdict
  refine ite_keeps ?_ ?_
  · exact hP5
  · refine ite_keeps ?_ ?_
    · refine C.upd_twin (by decide) ?_
      exact hP5
    · extract_lets -merge -useContext -underBinder +onlyGivenNames __src0 s11
      have h_s11 : P s11 := by
        unfold s11
        refine C.upd_twin (by decide) ?_
        exact hP5
      try clear_value s11
      refine ite_keeps ?_ ?_
      · refine noteRejection_keeps (C.mono (by decide)) ?_
        exact h_s11
      · exact h_s11

theorem execEmitted_keeps {P : State → Prop} (C : Keeps [.umb] P) {frame_1 source_2 s_3} (hP3 : P s_3) : Next P (execEmitted frame_1 source_2 s_3) := by
  unfold execEmitted
  refine next_keeps ?_
  refine live_keeps (C.mono (by decide)) ?_ ?_
  · exact hP3
  · intro s0 hS1
    refine ite_keeps ?_ ?_
    · exact hS1
    · extract_lets -merge -useContext -underBinder +onlyGivenNames of2 v3
      try clear_value v3
      split
      · refine C.upd_umb (by decide) ?_
        exact hS1
      · exact hS1

theorem chooseBundle_keeps {P : State → Prop} (C : Keeps [.indlog, .regs, .frame, .log, .queue] P) {s_1} (hP1 : P s_1) : P (chooseBundle s_1) := by
  unfold chooseBundle
  extract_lets -merge -useContext -underBinder +onlyGivenNames put0
  have h_put0 : ∀ c1 s2, P s2 → P (put0 c1 s2) := by
    intro c1 s2 hS3
    unfold put0
    refine C.upd_frame (by decide) ?_
    exact hS3
  clear_value put0
  refine ite_keeps ?_ ?_
  · refine h_put0 _ _ ?_
    exact hP1
  · refine ite_keeps ?_ ?_
    · refine h_put0 _ _ ?_
      exact hP1
    · split
      · refine ite_keeps ?_ ?_
        · refine h_put0 _ _ ?_
          exact hP1
        · refine h_put0 _ _ ?_
          refine doubtEvent_keeps (C.mono (by decide)) ?_
          exact hP1
      · refine h_put0 _ _ ?_
        exact hP1

theorem execEligHoldExpiry_keeps {P : State → Prop} (C : Keeps [.indlog, .regs, .log, .queue, .twin, .pair] P) {s_1} (hP1 : P s_1) : Next P (execEligHoldExpiry s_1) := by
  unfold execEligHoldExpiry
  refine next_keeps ?_
  refine live_keeps (C.mono (by decide)) ?_ ?_
  · exact hP1
  · intro s0 hS1
    refine ite_keeps ?_ ?_
    · refine degrade_keeps (C.mono (by decide)) ?_
      exact hS1
    · exact hS1

theorem execXlateExpiry_keeps {P : State → Prop} (C : Keeps [.indlog, .regs, .log, .queue, .twin, .pair] P) {s_1} (hP1 : P s_1) : Next P (execXlateExpiry s_1) := by
  unfold execXlateExpiry
  refine next_keeps ?_
  refine live_keeps (C.mono (by decide)) ?_ ?_
  · exact hP1
  · intro s0 hS1
    refine ite_keeps ?_ ?_
    · refine degrade_keeps (C.mono (by decide)) ?_
      exact hS1
    · exact hS1

theorem execRejoinCountExpiry_keeps {P : State → Prop} (C : Keeps [.twin, .sent, .free] P) {s_1} (hP1 : P s_1) : Next P (execRejoinCountExpiry s_1) := by
  unfold execRejoinCountExpiry
  refine next_keeps ?_
  refine live_keeps (C.mono (by decide)) ?_ ?_
  · exact hP1
  · intro s0 hS1
    refine ite_keeps ?_ ?_
    · refine sendHello_keeps (C.mono (by decide)) ?_
      refine C.upd_twin (by decide) ?_
      exact hS1
    · exact hS1

theorem takeoverNow_keeps {P : State → Prop} (C : Keeps [.indlog, .regs, .log, .queue, .twin, .pair] P) {cause_1 s_2} (hP2 : P s_2) : P (takeoverNow cause_1 s_2) := by
  unfold takeoverNow
  refine woadEvent_keeps (C.mono (by decide)) ?_
  refine setPair_keeps (C.mono (by decide)) ?_
  refine C.upd_twin (by decide) ?_
  exact hP2

theorem countXlate_keeps {P : State → Prop} (C : Keeps [.regs, .twin] P) {s_1} (hP1 : P s_1) : P (countXlate s_1) := by
  unfold countXlate
  extract_lets -merge -useContext -underBinder +onlyGivenNames rs0
  refine ite_keeps ?_ ?_
  · exact hP1
  · extract_lets -merge -useContext -underBinder +onlyGivenNames n1
    refine setSat_keeps (C.mono (by decide)) ?_
    refine C.upd_twin (by decide) ?_
    exact hP1

theorem countLink_keeps {P : State → Prop} (C : Keeps [.twin] P) {s_1} (hP1 : P s_1) : P (countLink s_1) := by
  unfold countLink
  extract_lets -merge -useContext -underBinder +onlyGivenNames clear0
  refine C.upd_twin (by decide) ?_
  exact hP1

theorem sendEdge_keeps {P : State → Prop} (C : Keeps [.twin, .sent] P) {s_1} (hP1 : P s_1) : P (sendEdge s_1) := by
  unfold sendEdge
  refine ite_keeps ?_ ?_
  · exact hP1
  · refine sendWoad_keeps (C.mono (by decide)) ?_
    exact hP1

theorem twinEdge_keeps {P : State → Prop} (C : Keeps [.regs, .twin, .pair, .sent] P) {s_1} (hP1 : P s_1) : P (twinEdge s_1) := by
  unfold twinEdge
  extract_lets -merge -useContext -underBinder +onlyGivenNames recent0 __src1 s12 s23
  have h_s12 : P s12 := by
    unfold s12
    refine setSat_keeps (C.mono (by decide)) ?_
    refine C.upd_twin (by decide) ?_
    exact hP1
  try clear_value s12
  have h_s23 : P s23 := by
    unfold s23
    refine sendEdge_keeps (C.mono (by decide)) ?_
    refine aloneEdge_keeps (C.mono (by decide)) ?_
    refine countLink_keeps (C.mono (by decide)) ?_
    exact h_s12
  try clear_value s23
  refine ite_keeps ?_ ?_
  · refine sendDigests_keeps (C.mono (by decide)) ?_
    exact h_s23
  · exact h_s23

theorem supWrite_keeps {P : State → Prop} (C : Keeps [.indlog, .regs, .log, .queue, .sent] P) {r_1 addr_2 f_3 s_4} (hP3 : ∀ z1, P z1 → P (f_3 z1)) (hP4 : P s_4) : P (supWrite r_1 addr_2 f_3 s_4) := by
  unfold supWrite
  refine ite_keeps ?_ ?_
  · refine hP3 _ ?_
    exact hP4
  · refine refuseAccess_keeps (C.mono (by decide)) ?_
    exact hP4

theorem selectJtag_keeps {P : State → Prop} (C : Keeps [.sec] P) {i_1 s_2} (hP2 : P s_2) : P (selectJtag i_1 s_2) := by
  unfold selectJtag
  refine ite_keeps ?_ ?_
  · refine C.upd_sec (by decide) ?_
    exact hP2
  · exact hP2

theorem execJtagBypass_keeps {P : State → Prop} (C : Keeps [.sec] P) {s_1} (hP1 : P s_1) : Next P (execJtagBypass s_1) := by
  unfold execJtagBypass
  refine next_keeps ?_
  refine selectJtag_keeps (C.mono (by decide)) ?_
  exact hP1

theorem execJtagIdcode_keeps {P : State → Prop} (C : Keeps [.sec, .sent] P) {s_1} (hP1 : P s_1) : Next P (execJtagIdcode s_1) := by
  unfold execJtagIdcode
  refine next_keeps ?_
  refine ite_keeps ?_ ?_
  · refine send_keeps (C.mono (by decide)) ?_
    refine selectJtag_keeps (C.mono (by decide)) ?_
    exact hP1
  · exact hP1

theorem execJtagSamplePreload_keeps {P : State → Prop} (C : Keeps [.sec] P) {s_1} (hP1 : P s_1) : Next P (execJtagSamplePreload s_1) := by
  unfold execJtagSamplePreload
  refine next_keeps ?_
  refine selectJtag_keeps (C.mono (by decide)) ?_
  exact hP1

theorem execJtagExtest_keeps {P : State → Prop} (C : Keeps [.sec] P) {s_1} (hP1 : P s_1) : Next P (execJtagExtest s_1) := by
  unfold execJtagExtest
  refine next_keeps ?_
  refine selectJtag_keeps (C.mono (by decide)) ?_
  exact hP1

theorem execJtagDebug_keeps {P : State → Prop} (C : Keeps [.sec] P) {s_1} (hP1 : P s_1) : Next P (execJtagDebug s_1) := by
  unfold execJtagDebug
  refine next_keeps ?_
  refine selectJtag_keeps (C.mono (by decide)) ?_
  exact hP1

theorem showFuses_keeps {P : State → Prop} (C : Keeps [.regs] P) {s_1} (hP1 : P s_1) : P (showFuses s_1) := by
  unfold showFuses
  extract_lets -merge -useContext -underBinder +onlyGivenNames f0 b1 s12
  have h_s12 : P s12 := by
    unfold s12
    refine setFld_keeps (C.mono (by decide)) ?_
    refine setFld_keeps (C.mono (by decide)) ?_
    refine setFld_keeps (C.mono (by decide)) ?_
    refine setFld_keeps (C.mono (by decide)) ?_
    refine setFld_keeps (C.mono (by decide)) ?_
    refine setFld_keeps (C.mono (by decide)) ?_
    refine setFld_keeps (C.mono (by decide)) ?_
    exact hP1
  try clear_value s12
  refine foldl_keeps (fun s3 x4 hS5 => ?_) _ _ ?_
  · refine setFld_keeps (C.mono (by decide)) ?_
    exact hS5
  · exact h_s12

theorem showTamper_keeps {P : State → Prop} (C : Keeps [.regs] P) {s_1} (hP1 : P s_1) : P (showTamper s_1) := by
  unfold showTamper
  refine setFlag_keeps (C.mono (by decide)) ?_
  refine setFld_keeps (C.mono (by decide)) ?_
  exact hP1

theorem newNonce_keeps {P : State → Prop} (C : Keeps [.regs, .free] P) {s_1} (hP1 : P s_1) : P (newNonce s_1) := by
  unfold newNonce
  extract_lets -merge -useContext -underBinder +onlyGivenNames n0
  have h_n0 : P n0.2 := by
    unfold n0
    refine nextFree_keeps (C.mono (by decide)) ?_
    exact hP1
  try clear_value n0
  refine setFld_keeps (C.mono (by decide)) ?_
  exact h_n0

theorem dropSession_keeps {P : State → Prop} (C : Keeps [.twin] P) {s_1} (hP1 : P s_1) : P (dropSession s_1) := by
  unfold dropSession
  refine C.upd_twin (by decide) ?_
  exact hP1

theorem abandonCrypto_keeps {P : State → Prop} (C : Keeps [.regs, .cnd, .sent] P) {s_1} (hP1 : P s_1) : P (abandonCrypto s_1) := by
  unfold abandonCrypto
  refine showSegs_keeps (C.mono (by decide)) ?_
  refine foldl_keeps (fun s0 x1 hS2 => ?_) _ _ ?_
  · refine send_keeps (C.mono (by decide)) ?_
    exact hS2
  · refine C.upd_cnd (by decide) ?_
    exact hP1

theorem wipeSecure_keeps {P : State → Prop} (C : Keeps [.indlog, .regs, .cnd, .log, .queue, .data, .twin, .pair, .sec, .sent, .free] P) {cause_1 s_2} (hP2 : P s_2) : P (wipeSecure cause_1 s_2) := by
  unfold wipeSecure
  extract_lets -merge -useContext -underBinder +onlyGivenNames s10 s21
  have h_s10 : P s10 := by
    unfold s10
    refine foldl_keeps (fun s2 x3 hS4 => ?_) _ _ ?_
    · refine closeSlot_keeps (C.mono (by decide)) ?_
      exact hS4
    · refine abandonCrypto_keeps (C.mono (by decide)) ?_
      exact hP2
  try clear_value s10
  have h_s21 : P s21 := by
    unfold s21
    refine degrade_keeps (C.mono (by decide)) ?_
    refine dropSession_keeps (C.mono (by decide)) ?_
    exact h_s10
  try clear_value s21
  refine zeroRanges_keeps (C.mono (by decide)) ?_
  exact h_s21

theorem wipeAll_keeps {P : State → Prop} (C : Keeps [.regs, .mem, .data] P) {s_1} (hP1 : P s_1) : P (wipeAll s_1) := by
  unfold wipeAll
  refine beginWipe_keeps (C.mono (by decide)) ?_
  refine beginWipe_keeps (C.mono (by decide)) ?_
  refine zeroRanges_keeps (C.mono (by decide)) ?_
  exact hP1

theorem haltDevice_keeps {P : State → Prop} (C : Keeps [.phase] P) {s_1} (hP1 : P s_1) : P (haltDevice s_1) := by
  unfold haltDevice
  refine C.upd_phase (by decide) ?_
  exact hP1

theorem takeLcGo_keeps {P : State → Prop} (C : Keeps [.indlog, .regs, .log, .queue, .sec, .sent] P) {r_1 s_2} (hP2 : P s_2) : P (takeLcGo r_1 s_2) := by
  unfold takeLcGo
  refine live_keeps (C.mono (by decide)) ?_ ?_
  · exact hP2
  · intro s0 hS1
    refine supWrite_keeps (C.mono (by decide)) ?_ ?_
    · intro s2 hS3
      refine ite_keeps ?_ ?_
      · exact hS3
      · refine setFld_keeps (C.mono (by decide)) ?_
        refine setFld_keeps (C.mono (by decide)) ?_
        refine C.upd_sec (by decide) ?_
        exact hS3
    · exact hS1

theorem execLcGo_keeps {P : State → Prop} (C : Keeps [.indlog, .regs, .log, .queue, .sec, .sent] P) {r_1 s_2} (hP2 : P s_2) : Next P (execLcGo r_1 s_2) := by
  unfold execLcGo
  refine next_keeps ?_
  refine takeLcGo_keeps (C.mono (by decide)) ?_
  exact hP2

theorem blowFuses_keeps {P : State → Prop} (C : Keeps [.fuse, .regs] P) {target_1 s_2} (hP2 : P s_2) : P (blowFuses target_1 s_2) := by
  unfold blowFuses
  extract_lets -merge -useContext -underBinder +onlyGivenNames f0 f11 f22 f33
  refine showFuses_keeps (C.mono (by decide)) ?_
  refine C.upd_fuse (by decide) ?_
  exact hP2

theorem acceptToken_keeps {P : State → Prop} (C : Keeps [.phase, .raise, .ind, .indlog, .fuse, .regs, .log, .queue, .mem, .data, .twin, .sec] P) {t_1 s_2} (hP2 : P s_2) : P (acceptToken t_1 s_2) := by
  unfold acceptToken
  extract_lets -merge -useContext -underBinder +onlyGivenNames from'0 s11 s22 __src3 s34 __src5 s46
  have h_s11 : P s11 := by
    unfold s11
    refine blowFuses_keeps (C.mono (by decide)) ?_
    refine assertSafeStop_keeps (C.mono (by decide)) ?_
    exact hP2
  try clear_value s11
  have h_s22 : P s22 := by
    unfold s22
    refine report_keeps (C.mono (by decide)) ?_
    exact h_s11
  try clear_value s22
  have h_s34 : P s34 := by
    unfold s34
    refine showTamper_keeps (C.mono (by decide)) ?_
    refine C.upd_ind (by decide) ?_
    exact h_s22
  try clear_value s34
  have h_s46 : P s46 := by
    unfold s46
    refine wipeAll_keeps (C.mono (by decide)) ?_
    refine dropSession_keeps (C.mono (by decide)) ?_
    refine C.upd_sec (by decide) ?_
    exact h_s34
  try clear_value s46
  refine haltDevice_keeps (C.mono (by decide)) ?_
  refine setFld_keeps (C.mono (by decide)) ?_
  exact h_s46

theorem acceptLatchClear_keeps {P : State → Prop} (C : Keeps [.ind, .indlog, .regs, .log, .queue, .free] P) {s_1} (hP1 : P s_1) : P (acceptLatchClear s_1) := by
  unfold acceptLatchClear
  extract_lets -merge -useContext -underBinder +onlyGivenNames __src0 s11
  have h_s11 : P s11 := by
    unfold s11
    refine showTamper_keeps (C.mono (by decide)) ?_
    refine C.upd_ind (by decide) ?_
    exact hP1
  try clear_value s11
  refine setFld_keeps (C.mono (by decide)) ?_
  refine report_keeps (C.mono (by decide)) ?_
  refine newNonce_keeps (C.mono (by decide)) ?_
  exact h_s11

theorem refuseToken_keeps {P : State → Prop} (C : Keeps [.indlog, .regs, .log, .queue, .free] P) {reason_1 s_2} (hP2 : P s_2) : P (refuseToken reason_1 s_2) := by
  unfold refuseToken
  refine setFld_keeps (C.mono (by decide)) ?_
  refine setFld_keeps (C.mono (by decide)) ?_
  refine newNonce_keeps (C.mono (by decide)) ?_
  refine report_keeps (C.mono (by decide)) ?_
  exact hP2

theorem execLcTokenDone_keeps {P : State → Prop} (C : Keeps [.phase, .raise, .ind, .indlog, .fuse, .regs, .log, .queue, .mem, .data, .twin, .sec, .free] P) {s_1} (hP1 : P s_1) : Next P (execLcTokenDone s_1) := by
  unfold execLcTokenDone
  refine next_keeps ?_
  refine live_keeps (C.mono (by decide)) ?_ ?_
  · exact hP1
  · intro s0 hS1
    refine ite_keeps ?_ ?_
    · exact hS1
    · split
      · refine refuseToken_keeps (C.mono (by decide)) ?_
        exact hS1
      · refine ite_keeps ?_ ?_
        · refine acceptLatchClear_keeps (C.mono (by decide)) ?_
          exact hS1
        · refine acceptToken_keeps (C.mono (by decide)) ?_
          exact hS1

theorem mboxWrite_keeps {P : State → Prop} (C : Keeps [.regs] P) {off_1 bs_2 s_3} (hP3 : P s_3) : P (mboxWrite off_1 bs_2 s_3) := by
  unfold mboxWrite
  refine foldl_keeps (fun s0 x1 hS2 => ?_) _ _ ?_
  · refine setReg_keeps (C.mono (by decide)) ?_
    exact hS2
  · exact hP3

theorem attestNote_keeps {P : State → Prop} (C : Keeps [.indlog, .regs, .log, .queue] P) {slot_1 s_2} (hP2 : P s_2) : P (attestNote slot_1 s_2) := by
  unfold attestNote
  refine report_keeps (C.mono (by decide)) ?_
  exact hP2

theorem refuseKx_keeps {P : State → Prop} (C : Keeps [.indlog, .regs, .log, .queue] P) {reason_1 slot_2 s_3} (hP3 : P s_3) : P (refuseKx reason_1 slot_2 s_3) := by
  unfold refuseKx
  refine bump_keeps (C.mono (by decide)) ?_
  refine report_keeps (C.mono (by decide)) ?_
  exact hP3

theorem takeKxGo_keeps {P : State → Prop} (C : Keeps [.indlog, .regs, .log, .queue, .sec, .sent] P) {r_1 s_2} (hP2 : P s_2) : P (takeKxGo r_1 s_2) := by
  unfold takeKxGo
  refine live_keeps (C.mono (by decide)) ?_ ?_
  · exact hP2
  · intro s0 hS1
    refine supWrite_keeps (C.mono (by decide)) ?_ ?_
    · intro s2 hS3
      extract_lets -merge -useContext -underBinder +onlyGivenNames slot4
      refine ite_keeps ?_ ?_
      · refine refuseKx_keeps (C.mono (by decide)) ?_
        exact hS3
      · refine setFld_keeps (C.mono (by decide)) ?_
        refine setFld_keeps (C.mono (by decide)) ?_
        refine setFld_keeps (C.mono (by decide)) ?_
        refine C.upd_sec (by decide) ?_
        exact hS3
    · exact hS1

theorem execKxGo_keeps {P : State → Prop} (C : Keeps [.indlog, .regs, .log, .queue, .sec, .sent] P) {r_1 s_2} (hP2 : P s_2) : Next P (execKxGo r_1 s_2) := by
  unfold execKxGo
  refine next_keeps ?_
  refine takeKxGo_keeps (C.mono (by decide)) ?_
  exact hP2

theorem execKxDone_keeps {P : State → Prop} (C : Keeps [.indlog, .regs, .log, .queue, .sec, .sent, .free] P) {s_1} (hP1 : P s_1) : Next P (execKxDone s_1) := by
  unfold execKxDone
  refine next_keeps ?_
  refine live_keeps (C.mono (by decide)) ?_ ?_
  · exact hP1
  · intro s0 hS1
    extract_lets -merge -useContext -underBinder +onlyGivenNames q2
    refine ite_keeps ?_ ?_
    · exact hS1
    · split
      · refine refuseKx_keeps (C.mono (by decide)) ?_
        refine setFld_keeps (C.mono (by decide)) ?_
        refine setFld_keeps (C.mono (by decide)) ?_
        exact hS1
      · extract_lets -merge -useContext -underBinder +onlyGivenNames p3 priv4 pub5 k6 __src7 __src8 s19 s210
        have h_p3 : P p3.2 := by
          unfold p3
          refine nextFree_keeps (C.mono (by decide)) ?_
          exact hS1
        try clear_value p3
        have h___src7 : P __src7 := by
          unfold __src7
          exact h_p3
        have h_s19 : P s19 := by
          unfold s19
          refine C.upd_sec (by decide) ?_
          exact h___src7
        try clear_value s19
        have h_s210 : P s210 := by
          unfold s210
          refine mboxWrite_keeps (C.mono (by decide)) ?_
          exact h_s19
        try clear_value s210
        refine pump_keeps (C.mono (by decide)) ?_
        refine send_keeps (C.mono (by decide)) ?_
        refine setFld_keeps (C.mono (by decide)) ?_
        refine attestNote_keeps (C.mono (by decide)) ?_
        exact h_s210

theorem takeDesc_keeps {P : State → Prop} (C : Keeps [.regs, .sec, .sent, .free] P) {s_1 x_2} (hP1 : P s_1) : P (takeDesc s_1 x_2) := by
  unfold takeDesc
  extract_lets -merge -useContext -underBinder +onlyGivenNames d0 e1
  refine ite_keeps ?_ ?_
  · refine completeBad_keeps (C.mono (by decide)) ?_
    exact hP1
  · refine ite_keeps ?_ ?_
    · refine completeBad_keeps (C.mono (by decide)) ?_
      exact hP1
    · refine ite_keeps ?_ ?_
      · refine C.upd_sec (by decide) ?_
        exact hP1
      · refine C.upd_sec (by decide) ?_
        exact hP1

theorem execCmdDoorbell_keeps {P : State → Prop} (C : Keeps [.indlog, .regs, .log, .queue, .sec, .sent, .free] P) {r_1 tail_2 descs_3 s_4} (hP4 : P s_4) : Next P (execCmdDoorbell r_1 tail_2 descs_3 s_4) := by
  unfold execCmdDoorbell
  refine next_keeps ?_
  refine live_keeps (C.mono (by decide)) ?_ ?_
  · exact hP4
  · intro s0 hS1
    refine supWrite_keeps (C.mono (by decide)) ?_ ?_
    · intro s2 hS3
      extract_lets -merge -useContext -underBinder +onlyGivenNames old4 size5 s16
      have h_s16 : P s16 := by
        unfold s16
        refine setFld_keeps (C.mono (by decide)) ?_
        exact hS3
      try clear_value s16
      refine ite_keeps ?_ ?_
      · exact h_s16
      · extract_lets -merge -useContext -underBinder +onlyGivenNames n7
        refine pump_keeps (C.mono (by decide)) ?_
        refine foldl_keeps (fun s8 x9 hS10 => ?_) _ _ ?_
        · refine takeDesc_keeps (C.mono (by decide)) ?_
          exact hS10
        · exact h_s16
    · exact hS1

theorem hostTagFail_keeps {P : State → Prop} (C : Keeps [.indlog, .regs, .log, .queue, .sec, .sent, .free] P) {d_1 k_2 s_3} (hP3 : P s_3) : P (hostTagFail d_1 k_2 s_3) := by
  unfold hostTagFail
  extract_lets -merge -useContext -underBinder +onlyGivenNames fails0 s11
  have h_s11 : P s11 := by
    unfold s11
    refine bump_keeps (C.mono (by decide)) ?_
    refine report_keeps (C.mono (by decide)) ?_
    refine completeBad_keeps (C.mono (by decide)) ?_
    refine setSlot_keeps (C.mono (by decide)) ?_
    exact hP3
  try clear_value s11
  refine ite_keeps ?_ ?_
  · refine closeSlot_keeps (C.mono (by decide)) ?_
    exact h_s11
  · exact h_s11

theorem hostAccept_keeps {P : State → Prop} (C : Keeps [.indlog, .regs, .log, .queue, .sec, .sent, .free] P) {d_1 k_2 b_3 pt_4 s_5} (hP5 : P s_5) : P (hostAccept d_1 k_2 b_3 pt_4 s_5) := by
  unfold hostAccept
  extract_lets -merge -useContext -underBinder +onlyGivenNames ctr0 all1 s12 __src3 s24 s35
  have h_s12 : P s12 := by
    unfold s12
    refine setSlot_keeps (C.mono (by decide)) ?_
    exact hP5
  try clear_value s12
  have h_s24 : P s24 := by
    unfold s24
    refine ite_keeps ?_ ?_
    · exact h_s12
    · refine C.upd_sec (by decide) ?_
      exact h_s12
  try clear_value s24
  have h_s35 : P s35 := by
    unfold s35
    refine complete_keeps (C.mono (by decide)) ?_
    exact h_s24
  try clear_value s35
  refine ite_keeps ?_ ?_
  · refine closeSlot_keeps (C.mono (by decide)) ?_
    exact h_s35
  · exact h_s35

theorem hostJudge_keeps {P : State → Prop} (C : Keeps [.indlog, .regs, .log, .queue, .sec, .sent, .free] P) {d_1 k_2 b_3 s_4} (hP4 : P s_4) : P (hostJudge d_1 k_2 b_3 s_4) := by
  unfold hostJudge
  split
  · refine hostTagFail_keeps (C.mono (by decide)) ?_
    exact hP4
  · refine ite_keeps ?_ ?_
    · refine bump_keeps (C.mono (by decide)) ?_
      refine completeBad_keeps (C.mono (by decide)) ?_
      exact hP4
    · refine hostAccept_keeps (C.mono (by decide)) ?_
      exact hP4

theorem execHostMessage_keeps {P : State → Prop} (C : Keeps [.indlog, .regs, .log, .queue, .sec, .sent, .free] P) {b_1 s_2} (hP2 : P s_2) : Next P (execHostMessage b_1 s_2) := by
  unfold execHostMessage
  refine next_keeps ?_
  refine live_keeps (C.mono (by decide)) ?_ ?_
  · exact hP2
  · intro s0 hS1
    split
    · exact hS1
    · extract_lets -merge -useContext -underBinder +onlyGivenNames __src2 s13
      have h_s13 : P s13 := by
        unfold s13
        refine C.upd_sec (by decide) ?_
        exact hS1
      try clear_value s13
      split
      · refine completeBad_keeps (C.mono (by decide)) ?_
        exact h_s13
      · refine hostJudge_keeps (C.mono (by decide)) ?_
        exact h_s13

theorem execCompletionWrite_keeps {P : State → Prop} (C : Keeps [.regs, .sec, .sent] P) {s_1} (hP1 : P s_1) : Next P (execCompletionWrite s_1) := by
  unfold execCompletionWrite
  refine next_keeps ?_
  refine live_keeps (C.mono (by decide)) ?_ ?_
  · exact hP1
  · intro s0 hS1
    split
    · exact hS1
    · refine ite_keeps ?_ ?_
      · exact hS1
      · refine writeCompl_keeps (C.mono (by decide)) ?_
        refine C.upd_sec (by decide) ?_
        exact hS1

theorem execDeviceMsgTimeout_keeps {P : State → Prop} (C : Keeps [.sec] P) {s_1} (hP1 : P s_1) : Next P (execDeviceMsgTimeout s_1) := by
  unfold execDeviceMsgTimeout
  refine next_keeps ?_
  refine live_keeps (C.mono (by decide)) ?_ ?_
  · exact hP1
  · intro s0 hS1
    split
    · exact hS1
    · refine ite_keeps ?_ ?_
      · exact hS1
      · refine C.upd_sec (by decide) ?_
        exact hS1

theorem disableRings_keeps {P : State → Prop} (C : Keeps [.regs, .sec, .sent, .free] P) {s_1} (hP1 : P s_1) : P (disableRings s_1) := by
  unfold disableRings
  extract_lets -merge -useContext -underBinder +onlyGivenNames gone0
  refine foldl_keeps (fun s1 x2 hS3 => ?_) _ _ ?_
  · refine completeBad_keeps (C.mono (by decide)) ?_
    exact hS3
  · refine setFlag_keeps (C.mono (by decide)) ?_
    refine C.upd_sec (by decide) ?_
    exact hP1

theorem takeRingDisable_keeps {P : State → Prop} (C : Keeps [.indlog, .regs, .log, .queue, .sec, .sent, .free] P) {r_1 s_2} (hP2 : P s_2) : P (takeRingDisable r_1 s_2) := by
  unfold takeRingDisable
  refine live_keeps (C.mono (by decide)) ?_ ?_
  · exact hP2
  · intro s0 hS1
    refine supWrite_keeps (C.mono (by decide)) ?_ ?_
    · intro s2 hS3
      refine disableRings_keeps (C.mono (by decide)) ?_
      exact hS3
    · exact hS1

theorem execRingDisable_keeps {P : State → Prop} (C : Keeps [.indlog, .regs, .log, .queue, .sec, .sent, .free] P) {r_1 s_2} (hP2 : P s_2) : Next P (execRingDisable r_1 s_2) := by
  unfold execRingDisable
  refine next_keeps ?_
  refine takeRingDisable_keeps (C.mono (by decide)) ?_
  exact hP2

theorem execSupLinkUp_keeps {P : State → Prop} (C : Keeps [.regs] P) {speed_1 width_2 s_3} (hP3 : P s_3) : Next P (execSupLinkUp speed_1 width_2 s_3) := by
  unfold execSupLinkUp
  refine next_keeps ?_
  refine live_keeps (C.mono (by decide)) ?_ ?_
  · exact hP3
  · intro s0 hS1
    refine setFlag_keeps (C.mono (by decide)) ?_
    refine setFld_keeps (C.mono (by decide)) ?_
    refine setFld_keeps (C.mono (by decide)) ?_
    exact hS1

theorem execSupLinkDown_keeps {P : State → Prop} (C : Keeps [.regs] P) {s_1} (hP1 : P s_1) : Next P (execSupLinkDown s_1) := by
  unfold execSupLinkDown
  refine next_keeps ?_
  refine live_keeps (C.mono (by decide)) ?_ ?_
  · exact hP1
  · intro s0 hS1
    refine setFlag_keeps (C.mono (by decide)) ?_
    exact hS1

theorem tripped_keeps {P : State → Prop} (C : Keeps [.pwr, .phase, .raise, .ind, .indlog, .regs, .cnd, .log, .queue, .mem, .data, .twin, .pair, .sec, .sent, .free] P) {bits_1 asleep_2 s_3} (hP3 : P s_3) : P (tripped bits_1 asleep_2 s_3) := by
  unfold tripped
  extract_lets -merge -useContext -underBinder +onlyGivenNames e0 __src1 __src2 s13 s24
  have h_s13 : P s13 := by
    unfold s13
    refine showTamper_keeps (C.mono (by decide)) ?_
    refine C.upd_ind_sec (by decide) ?_
    exact hP3
  try clear_value s13
  have h_s24 : P s24 := by
    unfold s24
    refine setFld_keeps (C.mono (by decide)) ?_
    exact h_s13
  try clear_value s24
  refine ite_keeps ?_ ?_
  · refine haltDevice_keeps (C.mono (by decide)) ?_
    refine wipeAll_keeps (C.mono (by decide)) ?_
    refine fatal_keeps (C.mono (by decide)) ?_
    refine wipeSecure_keeps (C.mono (by decide)) ?_
    exact h_s24
  · refine report_keeps (C.mono (by decide)) ?_
    refine wipeSecure_keeps (C.mono (by decide)) ?_
    exact h_s24

theorem trip_keeps {P : State → Prop} (C : Keeps [.pwr, .phase, .raise, .ind, .indlog, .regs, .cnd, .log, .queue, .mem, .data, .twin, .pair, .sec, .sent, .free] P) {n_1 s_2} (hP2 : P s_2) : P (trip n_1 s_2) := by
  unfold trip
  refine ite_keeps ?_ ?_
  · exact hP2
  · refine ite_keeps ?_ ?_
    · refine tripped_keeps (C.mono (by decide)) ?_
      exact hP2
    · refine ite_keeps ?_ ?_
      · exact hP2
      · extract_lets -merge -useContext -underBinder +onlyGivenNames d0
        refine C.upd_ind (by decide) ?_
        exact hP2

theorem execTamperTrip_keeps {P : State → Prop} (C : Keeps [.pwr, .phase, .raise, .ind, .indlog, .regs, .cnd, .log, .queue, .mem, .data, .twin, .pair, .sec, .sent, .free] P) {src_1 s_2} (hP2 : P s_2) : Next P (execTamperTrip src_1 s_2) := by
  unfold execTamperTrip
  refine next_keeps ?_
  refine trip_keeps (C.mono (by decide)) ?_
  exact hP2

theorem execMeshCheck_keeps {P : State → Prop} (C : Keeps [.pwr, .phase, .raise, .ind, .indlog, .regs, .cnd, .log, .queue, .mem, .data, .twin, .pair, .sec, .sent, .free] P) {ok_1 s_2} (hP2 : P s_2) : Next P (execMeshCheck ok_1 s_2) := by
  unfold execMeshCheck
  refine next_keeps ?_
  refine ite_keeps ?_ ?_
  · exact hP2
  · refine ite_keeps ?_ ?_
    · refine C.upd_ind (by decide) ?_
      exact hP2
    · refine ite_keeps ?_ ?_
      · refine trip_keeps (C.mono (by decide)) ?_
        refine C.upd_ind (by decide) ?_
        exact hP2
      · refine C.upd_ind (by decide) ?_
        exact hP2

end Sys2Proof.Machine
end

