-- ==== Sys2Proof/Laws/KeepsBus.lean ====
section
/-! SUPPORT. Laws/KeepsBus.lean: which parts of the state the functions of Machine/Bus, Start, Safe, Power write: for each of
them, that a property which survives changes of those parts survives the function (Laws/Keeps.lean). -/

set_option Elab.async false

set_option linter.unusedVariables false

namespace Sys2Proof.Machine

theorem unmatched_keeps {P : State → Prop} (C : Keeps [.regs] P) {port_1 s_2} (hP2 : P s_2) : P (unmatched port_1 s_2) := by
  unfold unmatched
  split
  · refine bump_keeps (C.mono (by decide)) ?_
    exact hP2
  · exact hP2

theorem busEvent_keeps {P : State → Prop} (C : Keeps [.indlog, .regs, .log, .queue] P) {ev_1 sev_2 detail_3 s_4} (hP4 : P s_4) : P (busEvent ev_1 sev_2 detail_3 s_4) := by
  unfold busEvent
  refine report_keeps (C.mono (by decide)) ?_
  exact hP4

theorem deliverState_keeps {P : State → Prop} (C : Keeps [.indlog, .regs, .ing, .cnd, .wld, .log, .queue, .mem, .data, .twin, .sent] P) {stream_1 bytes_2 s_3} (hP3 : P s_3) : P (deliverState stream_1 bytes_2 s_3) := by
  unfold deliverState
  refine ite_keeps ?_ ?_
  · refine deliverOwn_keeps (C.mono (by decide)) ?_
    exact hP3
  · exact hP3

theorem execCanFrameRx_keeps {P : State → Prop} (C : Keeps [.indlog, .regs, .ing, .cnd, .wld, .log, .queue, .mem, .data, .twin, .fifo, .sent] P) {port_1 f_2 s_3} (hP3 : P s_3) : Next P (execCanFrameRx port_1 f_2 s_3) := by
  unfold execCanFrameRx
  refine next_keeps ?_
  refine live_keeps (C.mono (by decide)) ?_ ?_
  · exact hP3
  · intro s0 hS1
    extract_lets -merge -useContext -underBinder +onlyGivenNames p2 id3
    refine ite_keeps ?_ ?_
    · exact hS1
    · refine heldBack_keeps (C.mono (by decide)) ?_ ?_
      · intro s4 hS5
        refine ite_keeps ?_ ?_
        · refine unmatched_keeps (C.mono (by decide)) ?_
          exact hS5
        · refine ite_keeps ?_ ?_
          · refine busEvent_keeps (C.mono (by decide)) ?_
            exact hS5
          · split
            · refine deliverState_keeps (C.mono (by decide)) ?_
              refine bump_keeps (C.mono (by decide)) ?_
              exact hS5
            · refine ite_keeps ?_ ?_
              · refine bump_keeps (C.mono (by decide)) ?_
                exact hS5
              · refine unmatched_keeps (C.mono (by decide)) ?_
                exact hS5
      · exact hS1

theorem sendIso_keeps {P : State → Prop} (C : Keeps [.sent] P) {pgn_1 dst_2 bytes_3 s_4} (hP4 : P s_4) : P (sendIso pgn_1 dst_2 bytes_3 s_4) := by
  unfold sendIso
  split
  · refine ite_keeps ?_ ?_
    · exact hP4
    · refine send_keeps (C.mono (by decide)) ?_
      exact hP4
  · exact hP4

theorem sendClaim_keeps {P : State → Prop} (C : Keeps [.sent] P) {s_1} (hP1 : P s_1) : P (sendClaim s_1) := by
  unfold sendClaim
  refine sendIso_keeps (C.mono (by decide)) ?_
  exact hP1

theorem claim_keeps {P : State → Prop} (C : Keeps [.regs, .bus, .sent] P) {sa_1 s_2} (hP2 : P s_2) : P (claim sa_1 s_2) := by
  unfold claim
  refine sendClaim_keeps (C.mono (by decide)) ?_
  refine setFld_keeps (C.mono (by decide)) ?_
  refine setFld_keeps (C.mono (by decide)) ?_
  refine C.upd_bus (by decide) ?_
  exact hP2

theorem execAddressClaimStart_keeps {P : State → Prop} (C : Keeps [.regs, .bus, .sent] P) {s_1} (hP1 : P s_1) : Next P (execAddressClaimStart s_1) := by
  unfold execAddressClaimStart
  refine next_keeps ?_
  refine live_keeps (C.mono (by decide)) ?_ ?_
  · exact hP1
  · intro s0 hS1
    refine ite_keeps ?_ ?_
    · refine claim_keeps (C.mono (by decide)) ?_
      exact hS1
    · exact hS1

theorem execAddressClaimTimer_keeps {P : State → Prop} (C : Keeps [.indlog, .regs, .log, .queue] P) {s_1} (hP1 : P s_1) : Next P (execAddressClaimTimer s_1) := by
  unfold execAddressClaimTimer
  refine next_keeps ?_
  refine live_keeps (C.mono (by decide)) ?_ ?_
  · exact hP1
  · intro s0 hS1
    refine ite_keeps ?_ ?_
    · refine busEvent_keeps (C.mono (by decide)) ?_
      refine setFld_keeps (C.mono (by decide)) ?_
      refine setFld_keeps (C.mono (by decide)) ?_
      exact hS1
    · exact hS1

theorem giveUp_keeps {P : State → Prop} (C : Keeps [.indlog, .regs, .log, .queue, .bus, .sent] P) {s_1} (hP1 : P s_1) : P (giveUp s_1) := by
  unfold giveUp
  extract_lets -merge -useContext -underBinder +onlyGivenNames s10 next1
  have h_s10 : P s10 := by
    unfold s10
    refine bump_keeps (C.mono (by decide)) ?_
    refine busEvent_keeps (C.mono (by decide)) ?_
    exact hP1
  try clear_value s10
  try clear_value next1
  split
  · refine claim_keeps (C.mono (by decide)) ?_
    exact h_s10
  · refine sendClaim_keeps (C.mono (by decide)) ?_
    refine setFld_keeps (C.mono (by decide)) ?_
    refine setFld_keeps (C.mono (by decide)) ?_
    exact h_s10

theorem execAddressClaimed_keeps {P : State → Prop} (C : Keeps [.indlog, .regs, .log, .queue, .bus, .sent] P) {m_1 s_2} (hP2 : P s_2) : Next P (execAddressClaimed m_1 s_2) := by
  unfold execAddressClaimed
  refine next_keeps ?_
  refine live_keeps (C.mono (by decide)) ?_ ?_
  · exact hP2
  · intro s0 hS1
    extract_lets -merge -useContext -underBinder +onlyGivenNames sa2 others3 __src4 s15 c6
    have h_s15 : P s15 := by
      unfold s15
      refine C.upd_bus (by decide) ?_
      exact hS1
    try clear_value s15
    refine ite_keeps ?_ ?_
    · refine ite_keeps ?_ ?_
      · refine giveUp_keeps (C.mono (by decide)) ?_
        exact h_s15
      · refine sendClaim_keeps (C.mono (by decide)) ?_
        exact h_s15
    · exact h_s15

theorem sendIsoStatus_keeps {P : State → Prop} (C : Keeps [.sent] P) {s_1} (hP1 : P s_1) : P (sendIsoStatus s_1) := by
  unfold sendIsoStatus
  extract_lets -merge -useContext -underBinder +onlyGivenNames b0
  refine ite_keeps ?_ ?_
  · refine sendIso_keeps (C.mono (by decide)) ?_
    exact hP1
  · exact hP1

theorem sendStatus_keeps {P : State → Prop} (C : Keeps [.bus, .sent] P) {s_1} (hP1 : P s_1) : P (sendStatus s_1) := by
  unfold sendStatus
  extract_lets -merge -useContext -underBinder +onlyGivenNames id0 __src1 s12
  have h_s12 : P s12 := by
    unfold s12
    refine sendIsoStatus_keeps (C.mono (by decide)) ?_
    refine C.upd_bus (by decide) ?_
    exact hP1
  try clear_value s12
  split
  · refine ite_keeps ?_ ?_
    · exact h_s12
    · refine sendGuidance_keeps (C.mono (by decide)) ?_
      exact h_s12
  · exact h_s12

theorem execStatPeriodTimer_keeps {P : State → Prop} (C : Keeps [.bus, .sent] P) {s_1} (hP1 : P s_1) : Next P (execStatPeriodTimer s_1) := by
  unfold execStatPeriodTimer
  refine next_keeps ?_
  refine live_keeps (C.mono (by decide)) ?_ ?_
  · exact hP1
  · intro s0 hS1
    refine sendStatus_keeps (C.mono (by decide)) ?_
    exact hS1

theorem statusEdge_keeps {P : State → Prop} (C : Keeps [.bus, .sent] P) {s_1} (hP1 : P s_1) : P (statusEdge s_1) := by
  unfold statusEdge
  refine ite_keeps ?_ ?_
  · exact hP1
  · refine sendStatus_keeps (C.mono (by decide)) ?_
    exact hP1

theorem execRequestPgn_keeps {P : State → Prop} (C : Keeps [.sent] P) {pgn_1 src_2 dst_3 s_4} (hP4 : P s_4) : Next P (execRequestPgn pgn_1 src_2 dst_3 s_4) := by
  unfold execRequestPgn
  refine next_keeps ?_
  refine live_keeps (C.mono (by decide)) ?_ ?_
  · exact hP4
  · intro s0 hS1
    extract_lets -merge -useContext -underBinder +onlyGivenNames mine2
    refine ite_keeps ?_ ?_
    · exact hS1
    · refine ite_keeps ?_ ?_
      · refine ite_keeps ?_ ?_
        · exact hS1
        · refine sendClaim_keeps (C.mono (by decide)) ?_
          exact hS1
      · refine ite_keeps ?_ ?_
        · refine sendIsoStatus_keeps (C.mono (by decide)) ?_
          exact hS1
        · refine ite_keeps ?_ ?_
          · refine sendIso_keeps (C.mono (by decide)) ?_
            exact hS1
          · exact hS1

theorem dropTp_keeps {P : State → Prop} (C : Keeps [.bus] P) {src_1 s_2} (hP2 : P s_2) : P (dropTp src_1 s_2) := by
  unfold dropTp
  refine C.upd_bus (by decide) ?_
  exact hP2

theorem abortTp_keeps {P : State → Prop} (C : Keeps [.regs, .bus, .sent] P) {t_1 s_2} (hP2 : P s_2) : P (abortTp t_1 s_2) := by
  unfold abortTp
  extract_lets -merge -useContext -underBinder +onlyGivenNames s10
  have h_s10 : P s10 := by
    unfold s10
    refine unmatched_keeps (C.mono (by decide)) ?_
    refine dropTp_keeps (C.mono (by decide)) ?_
    exact hP2
  try clear_value s10
  refine ite_keeps ?_ ?_
  · exact h_s10
  · refine sendIso_keeps (C.mono (by decide)) ?_
    exact h_s10

theorem openTp_keeps {P : State → Prop} (C : Keeps [.regs, .bus, .sent] P) {t_1 s_2} (hP2 : P s_2) : P (openTp t_1 s_2) := by
  unfold openTp
  refine ite_keeps ?_ ?_
  · refine abortTp_keeps (C.mono (by decide)) ?_
    exact hP2
  · extract_lets -merge -useContext -underBinder +onlyGivenNames s10 __src1 s22
    have h_s10 : P s10 := by
      unfold s10
      refine dropTp_keeps (C.mono (by decide)) ?_
      exact hP2
    try clear_value s10
    have h_s22 : P s22 := by
      unfold s22
      refine C.upd_bus (by decide) ?_
      exact h_s10
    try clear_value s22
    refine ite_keeps ?_ ?_
    · exact h_s22
    · refine sendIso_keeps (C.mono (by decide)) ?_
      exact h_s22

theorem finishTp_keeps {P : State → Prop} (C : Keeps [.indlog, .regs, .ing, .cnd, .wld, .log, .queue, .mem, .data, .twin, .bus, .sent, .free] P) {t_1 s_2} (hP2 : P s_2) : P (finishTp t_1 s_2) := by
  unfold finishTp
  extract_lets -merge -useContext -underBinder +onlyGivenNames s10 s21
  have h_s10 : P s10 := by
    unfold s10
    refine dropTp_keeps (C.mono (by decide)) ?_
    exact hP2
  try clear_value s10
  have h_s21 : P s21 := by
    unfold s21
    refine ite_keeps ?_ ?_
    · exact h_s10
    · refine sendIso_keeps (C.mono (by decide)) ?_
      exact h_s10
  try clear_value s21
  split
  · exact h_s21
  · extract_lets -merge -useContext -underBinder +onlyGivenNames dst2 n3 base4 ident5
    have h_n3 : P n3.2 := by
      unfold n3
      refine nextFree_keeps (C.mono (by decide)) ?_
      exact h_s21
    try clear_value n3
    split
    · refine deliverState_keeps (C.mono (by decide)) ?_
      refine bump_keeps (C.mono (by decide)) ?_
      exact h_n3
    · refine ite_keeps ?_ ?_
      · refine bump_keeps (C.mono (by decide)) ?_
        exact h_n3
      · refine unmatched_keeps (C.mono (by decide)) ?_
        exact h_n3

theorem dataTp_keeps {P : State → Prop} (C : Keeps [.indlog, .regs, .ing, .cnd, .wld, .log, .queue, .mem, .data, .twin, .bus, .sent, .free] P) {t_1 seq_2 bytes_3 s_4} (hP4 : P s_4) : P (dataTp t_1 seq_2 bytes_3 s_4) := by
  unfold dataTp
  refine ite_keeps ?_ ?_
  · refine abortTp_keeps (C.mono (by decide)) ?_
    exact hP4
  · extract_lets -merge -useContext -underBinder +onlyGivenNames all0 t'1
    refine ite_keeps ?_ ?_
    · refine finishTp_keeps (C.mono (by decide)) ?_
      exact hP4
    · refine C.upd_bus (by decide) ?_
      exact hP4

theorem execTpMessage_keeps {P : State → Prop} (C : Keeps [.indlog, .regs, .ing, .cnd, .wld, .log, .queue, .mem, .data, .twin, .bus, .sent, .free] P) {src_1 ev_2 s_3} (hP3 : P s_3) : Next P (execTpMessage src_1 ev_2 s_3) := by
  unfold execTpMessage
  refine next_keeps ?_
  refine live_keeps (C.mono (by decide)) ?_ ?_
  · exact hP3
  · intro s0 hS1
    extract_lets -merge -useContext -underBinder +onlyGivenNames from'2
    split
    · refine openTp_keeps (C.mono (by decide)) ?_
      exact hS1
    · refine ite_keeps ?_ ?_
      · refine openTp_keeps (C.mono (by decide)) ?_
        exact hS1
      · exact hS1
    · refine dropTp_keeps (C.mono (by decide)) ?_
      exact hS1
    · split
      · refine dataTp_keeps (C.mono (by decide)) ?_
        exact hS1
      · refine unmatched_keeps (C.mono (by decide)) ?_
        exact hS1

theorem execTpSessionTimeout_keeps {P : State → Prop} (C : Keeps [.regs, .bus, .sent] P) {src_1 s_2} (hP2 : P s_2) : Next P (execTpSessionTimeout src_1 s_2) := by
  unfold execTpSessionTimeout
  refine next_keeps ?_
  refine live_keeps (C.mono (by decide)) ?_ ?_
  · exact hP2
  · intro s0 hS1
    split
    · refine abortTp_keeps (C.mono (by decide)) ?_
      exact hS1
    · exact hS1

theorem putPart_keeps {P : State → Prop} (C : Keeps [.sent] P) {s_1} (hP1 : P s_1) : P (putPart s_1) := by
  unfold putPart
  split
  · refine ite_keeps ?_ ?_
    · exact hP1
    · extract_lets -merge -useContext -underBinder +onlyGivenNames id0
      refine send_keeps (C.mono (by decide)) ?_
      exact hP1
  · exact hP1

theorem startBundle_keeps {P : State → Prop} (C : Keeps [.bus, .sent] P) {b_1 s_2} (hP2 : P s_2) : P (startBundle b_1 s_2) := by
  unfold startBundle
  refine putPart_keeps (C.mono (by decide)) ?_
  refine C.upd_bus (by decide) ?_
  exact hP2

theorem queueBundle_keeps {P : State → Prop} (C : Keeps [.regs, .bus, .sent] P) {b_1 s_2} (hP2 : P s_2) : P (queueBundle b_1 s_2) := by
  unfold queueBundle
  refine ite_keeps ?_ ?_
  · refine startBundle_keeps (C.mono (by decide)) ?_
    exact hP2
  · extract_lets -merge -useContext -underBinder +onlyGivenNames s10
    have h_s10 : P s10 := by
      unfold s10
      refine ite_keeps ?_ ?_
      · refine bump_keeps (C.mono (by decide)) ?_
        exact hP2
      · exact hP2
    try clear_value s10
    refine C.upd_bus (by decide) ?_
    exact h_s10

theorem nextBundle_keeps {P : State → Prop} (C : Keeps [.bus, .sent] P) {s_1} (hP1 : P s_1) : P (nextBundle s_1) := by
  unfold nextBundle
  split
  · refine startBundle_keeps (C.mono (by decide)) ?_
    exact hP1
  · refine foldl_keeps (fun s0 x1 hS2 => ?_) _ _ ?_
    · refine send_keeps (C.mono (by decide)) ?_
      exact hS2
    · refine C.upd_bus (by decide) ?_
      exact hP1

theorem abandonBundle_keeps {P : State → Prop} (C : Keeps [.indlog, .regs, .log, .queue, .bus, .sent] P) {x_1 s_2} (hP2 : P s_2) : P (abandonBundle x_1 s_2) := by
  unfold abandonBundle
  extract_lets -merge -useContext -underBinder +onlyGivenNames sec0 s11 __src2 s23
  have h_s11 : P s11 := by
    unfold s11
    refine bump_keeps (C.mono (by decide)) ?_
    exact hP2
  try clear_value s11
  have h_s23 : P s23 := by
    unfold s23
    refine ite_keeps ?_ ?_
    · exact h_s11
    · refine busEvent_keeps (C.mono (by decide)) ?_
      refine C.upd_bus (by decide) ?_
      exact h_s11
  try clear_value s23
  refine nextBundle_keeps (C.mono (by decide)) ?_
  exact h_s23

theorem guidanceCommand_keeps {P : State → Prop} (C : Keeps [.sent] P) {b_1 s_2} (hP2 : P s_2) : P (guidanceCommand b_1 s_2) := by
  unfold guidanceCommand
  refine ite_keeps ?_ ?_
  · refine send_keeps (C.mono (by decide)) ?_
    exact hP2
  · exact hP2

theorem execBundlePartTxDone_keeps {P : State → Prop} (C : Keeps [.regs, .bus, .sent] P) {s_1} (hP1 : P s_1) : Next P (execBundlePartTxDone s_1) := by
  unfold execBundlePartTxDone
  refine next_keeps ?_
  refine live_keeps (C.mono (by decide)) ?_ ?_
  · exact hP1
  · intro s0 hS1
    split
    · extract_lets -merge -useContext -underBinder +onlyGivenNames t2 s13 s24
      have h_s13 : P s13 := by
        unfold s13
        refine setFld_keeps (C.mono (by decide)) ?_
        exact hS1
      try clear_value s13
      have h_s24 : P s24 := by
        unfold s24
        refine ite_keeps ?_ ?_
        · refine setFld_keeps (C.mono (by decide)) ?_
          exact h_s13
        · exact h_s13
      try clear_value s24
      refine ite_keeps ?_ ?_
      · refine putPart_keeps (C.mono (by decide)) ?_
        refine C.upd_bus (by decide) ?_
        exact h_s24
      · refine nextBundle_keeps (C.mono (by decide)) ?_
        refine guidanceCommand_keeps (C.mono (by decide)) ?_
        refine setFld_keeps (C.mono (by decide)) ?_
        refine C.upd_bus (by decide) ?_
        exact h_s24
    · exact hS1

theorem countTec_keeps {P : State → Prop} (C : Keeps [.indlog, .regs, .log, .queue] P) {p_1 s_2} (hP2 : P s_2) : P (countTec p_1 s_2) := by
  unfold countTec
  extract_lets -merge -useContext -underBinder +onlyGivenNames s10
  have h_s10 : P s10 := by
    unfold s10
    refine bumpBy_keeps (C.mono (by decide)) ?_
    exact hP2
  try clear_value s10
  refine ite_keeps ?_ ?_
  · refine busEvent_keeps (C.mono (by decide)) ?_
    refine setFld_keeps (C.mono (by decide)) ?_
    exact h_s10
  · exact h_s10

theorem execCanTxError_keeps {P : State → Prop} (C : Keeps [.indlog, .regs, .log, .queue, .bus, .sent] P) {why_1 s_2} (hP2 : P s_2) : Next P (execCanTxError why_1 s_2) := by
  unfold execCanTxError
  refine next_keeps ?_
  refine live_keeps (C.mono (by decide)) ?_ ?_
  · exact hP2
  · intro s0 hS1
    split
    · extract_lets -merge -useContext -underBinder +onlyGivenNames s12
      have h_s12 : P s12 := by
        unfold s12
        refine ite_keeps ?_ ?_
        · refine countTec_keeps (C.mono (by decide)) ?_
          exact hS1
        · exact hS1
      try clear_value s12
      refine ite_keeps ?_ ?_
      · refine abandonBundle_keeps (C.mono (by decide)) ?_
        exact h_s12
      · refine putPart_keeps (C.mono (by decide)) ?_
        exact h_s12
    · exact hS1

theorem standDown_keeps {P : State → Prop} (C : Keeps [.indlog, .regs, .log, .queue, .twin, .pair, .bus] P) {s_1} (hP1 : P s_1) : P (standDown s_1) := by
  unfold standDown
  refine woadEvent_keeps (C.mono (by decide)) ?_
  refine setPair_keeps (C.mono (by decide)) ?_
  refine C.upd_twin_bus (by decide) ?_
  exact hP1

theorem observe_keeps {P : State → Prop} (C : Keeps [.safe, .twin] P) {frame_1 bytes_2 s_3} (hP3 : P s_3) : P (observe frame_1 bytes_2 s_3) := by
  unfold observe
  extract_lets -merge -useContext -underBinder +onlyGivenNames good0 next1 n2 __src3 s14
  have h_s14 : P s14 := by
    unfold s14
    refine C.upd_twin (by decide) ?_
    exact hP3
  try clear_value s14
  refine ite_keeps ?_ ?_
  · refine C.upd_safe (by decide) ?_
    exact h_s14
  · exact h_s14

theorem execGuidanceBundleRx_keeps {P : State → Prop} (C : Keeps [.indlog, .regs, .safe, .log, .queue, .twin, .pair, .bus] P) {frame_1 part0_2 bytes_3 s_4} (hP4 : P s_4) : Next P (execGuidanceBundleRx frame_1 part0_2 bytes_3 s_4) := by
  unfold execGuidanceBundleRx
  refine next_keeps ?_
  refine live_keeps (C.mono (by decide)) ?_ ?_
  · exact hP4
  · intro s0 hS1
    refine ite_keeps ?_ ?_
    · exact hS1
    · extract_lets -merge -useContext -underBinder +onlyGivenNames s12
      have h_s12 : P s12 := by
        unfold s12
        refine observe_keeps (C.mono (by decide)) ?_
        exact hS1
      try clear_value s12
      refine ite_keeps ?_ ?_
      · refine standDown_keeps (C.mono (by decide)) ?_
        exact h_s12
      · exact h_s12

theorem endLapse_keeps {P : State → Prop} (C : Keeps [.indlog, .regs, .log, .queue, .bus] P) {s_1} (hP1 : P s_1) : P (endLapse s_1) := by
  unfold endLapse
  split
  · exact hP1
  · extract_lets -merge -useContext -underBinder +onlyGivenNames ms0 s11
    have h_s11 : P s11 := by
      unfold s11
      refine setSat_keeps (C.mono (by decide)) ?_
      exact hP1
    try clear_value s11
    refine setFlag_keeps (C.mono (by decide)) ?_
    refine setFlag_keeps (C.mono (by decide)) ?_
    refine busEvent_keeps (C.mono (by decide)) ?_
    refine C.upd_bus (by decide) ?_
    exact h_s11

theorem execHeartbeatRx_keeps {P : State → Prop} (C : Keeps [.indlog, .regs, .log, .queue, .bus] P) {m_1 s_2} (hP2 : P s_2) : Next P (execHeartbeatRx m_1 s_2) := by
  unfold execHeartbeatRx
  refine next_keeps ?_
  refine live_keeps (C.mono (by decide)) ?_ ?_
  · exact hP2
  · intro s0 hS1
    split
    · exact hS1
    · extract_lets -merge -useContext -underBinder +onlyGivenNames c2 old3
      refine ite_keeps ?_ ?_
      · exact hS1
      · extract_lets -merge -useContext -underBinder +onlyGivenNames skipped4 s15
        have h_s15 : P s15 := by
          unfold s15
          refine endLapse_keeps (C.mono (by decide)) ?_
          exact hS1
        try clear_value s15
        refine setFld_keeps (C.mono (by decide)) ?_
        refine C.upd_bus (by decide) ?_
        exact h_s15

theorem execHbTimeoutExpiry_keeps {P : State → Prop} (C : Keeps [.indlog, .regs, .log, .queue, .bus] P) {s_1} (hP1 : P s_1) : Next P (execHbTimeoutExpiry s_1) := by
  unfold execHbTimeoutExpiry
  refine next_keeps ?_
  refine live_keeps (C.mono (by decide)) ?_ ?_
  · exact hP1
  · intro s0 hS1
    refine ite_keeps ?_ ?_
    · exact hS1
    · refine busEvent_keeps (C.mono (by decide)) ?_
      refine setFlag_keeps (C.mono (by decide)) ?_
      refine C.upd_bus (by decide) ?_
      exact hS1

theorem lapseClock_keeps {P : State → Prop} (C : Keeps [.regs, .bus] P) {s_1} (hP1 : P s_1) : P (lapseClock s_1) := by
  unfold lapseClock
  refine ite_keeps ?_ ?_
  · exact hP1
  · refine setFlag_keeps (C.mono (by decide)) ?_
    refine C.upd_bus (by decide) ?_
    exact hP1

theorem judgeLapse_keeps {P : State → Prop} (C : Keeps [.indlog, .regs, .frame, .log, .queue, .bus] P) {s_1} (hP1 : P s_1) : P (judgeLapse s_1) := by
  unfold judgeLapse
  refine ite_keeps ?_ ?_
  · exact hP1
  · extract_lets -merge -useContext -underBinder +onlyGivenNames s10
    have h_s10 : P s10 := by
      unfold s10
      refine setFlag_keeps (C.mono (by decide)) ?_
      exact hP1
    try clear_value s10
    refine ite_keeps ?_ ?_
    · refine markDoubt_keeps (C.mono (by decide)) ?_
      exact h_s10
    · refine doubtEvent_keeps (C.mono (by decide)) ?_
      refine C.upd_bus (by decide) ?_
      exact h_s10

theorem takeAck_keeps {P : State → Prop} (C : Keeps [.regs, .acked, .bus] P) {port_1 client_2 bytes_3 s_4} (hP4 : P s_4) : P (takeAck port_1 client_2 bytes_3 s_4) := by
  unfold takeAck
  extract_lets -merge -useContext -underBinder +onlyGivenNames good0
  refine ite_keeps ?_ ?_
  · refine C.upd_acked (by decide) ?_
    exact hP4
  · refine unmatched_keeps (C.mono (by decide)) ?_
    refine C.upd_bus (by decide) ?_
    exact hP4

theorem takeUnit_keeps {P : State → Prop} (C : Keeps [.indlog, .regs, .cnd, .log, .queue, .mem, .swp, .sel, .sec, .bus, .sent, .free] P) {port_1 client_2 bytes_3 s_4} (hP4 : P s_4) : P (takeUnit port_1 client_2 bytes_3 s_4) := by
  unfold takeUnit
  extract_lets -merge -useContext -underBinder +onlyGivenNames __src0 q1
  split
  · refine takePathCheck_keeps (C.mono (by decide)) ?_
    exact hP4
  · refine takePlanToGoal_keeps (C.mono (by decide)) ?_
    exact hP4
  · refine takeCorridorWatch_keeps (C.mono (by decide)) ?_
    exact hP4
  · refine takeStart_keeps (C.mono (by decide)) ?_
    exact hP4
  · refine takeSuspend_keeps (C.mono (by decide)) ?_
    exact hP4
  · refine takeResume_keeps (C.mono (by decide)) ?_
    exact hP4
  · refine takeCancel_keeps (C.mono (by decide)) ?_
    exact hP4
  · refine takeQuery_keeps (C.mono (by decide)) ?_
    exact hP4
  · refine fabric_keeps (C.mono (by decide)) ?_ ?_
    · exact hP4
    · intro s2 hS3
      refine refuseReq_keeps (C.mono (by decide)) ?_
      exact hS3
  · refine fabric_keeps (C.mono (by decide)) ?_ ?_
    · exact hP4
    · intro s4 hS5
      refine refuseReq_keeps (C.mono (by decide)) ?_
      exact hS5

theorem execClientUnit_keeps {P : State → Prop} (C : Keeps [.indlog, .regs, .cnd, .acked, .log, .queue, .mem, .swp, .sel, .sec, .bus, .sent, .free] P) {ident_1 name_2 port_3 bytes_4 s_5} (hP5 : P s_5) : Next P (execClientUnit ident_1 name_2 port_3 bytes_4 s_5) := by
  unfold execClientUnit
  refine next_keeps ?_
  refine live_keeps (C.mono (by decide)) ?_ ?_
  · exact hP5
  · intro s0 hS1
    split
    · refine unmatched_keeps (C.mono (by decide)) ?_
      exact hS1
    · refine ite_keeps ?_ ?_
      · refine takeUnit_keeps (C.mono (by decide)) ?_
        exact hS1
      · refine ite_keeps ?_ ?_
        · refine takeAck_keeps (C.mono (by decide)) ?_
          exact hS1
        · refine unmatched_keeps (C.mono (by decide)) ?_
          exact hS1

theorem execReleaseAck_keeps {P : State → Prop} (C : Keeps [.regs, .acked, .bus] P) {port_1 client_2 bytes_3 s_4} (hP4 : P s_4) : Next P (execReleaseAck port_1 client_2 bytes_3 s_4) := by
  unfold execReleaseAck
  refine next_keeps ?_
  refine live_keeps (C.mono (by decide)) ?_ ?_
  · exact hP4
  · intro s0 hS1
    refine takeAck_keeps (C.mono (by decide)) ?_
    exact hS1

theorem execBusOff_keeps {P : State → Prop} (C : Keeps [.indlog, .regs, .log, .queue, .bus] P) {port_1 s_2} (hP2 : P s_2) : Next P (execBusOff port_1 s_2) := by
  unfold execBusOff
  refine next_keeps ?_
  refine live_keeps (C.mono (by decide)) ?_ ?_
  · exact hP2
  · intro s0 hS1
    extract_lets -merge -useContext -underBinder +onlyGivenNames p2
    refine ite_keeps ?_ ?_
    · exact hS1
    · extract_lets -merge -useContext -underBinder +onlyGivenNames recent3 held4 __src5 s16
      have h_s16 : P s16 := by
        unfold s16
        refine bump_keeps (C.mono (by decide)) ?_
        refine C.upd_bus (by decide) ?_
        exact hS1
      try clear_value s16
      refine busEvent_keeps (C.mono (by decide)) ?_
      refine setFld_keeps (C.mono (by decide)) ?_
      exact h_s16

theorem resumeTx_keeps {P : State → Prop} (C : Keeps [.indlog, .regs, .log, .queue, .bus, .sent] P) {s_1} (hP1 : P s_1) : P (resumeTx s_1) := by
  unfold resumeTx
  split
  · exact hP1
  · refine ite_keeps ?_ ?_
    · refine abandonBundle_keeps (C.mono (by decide)) ?_
      exact hP1
    · refine putPart_keeps (C.mono (by decide)) ?_
      exact hP1

theorem execBusOffRecovered_keeps {P : State → Prop} (C : Keeps [.indlog, .regs, .log, .queue, .bus, .sent] P) {port_1 s_2} (hP2 : P s_2) : Next P (execBusOffRecovered port_1 s_2) := by
  unfold execBusOffRecovered
  refine next_keeps ?_
  refine live_keeps (C.mono (by decide)) ?_ ?_
  · exact hP2
  · intro s0 hS1
    extract_lets -merge -useContext -underBinder +onlyGivenNames p2
    refine ite_keeps ?_ ?_
    · exact hS1
    · extract_lets -merge -useContext -underBinder +onlyGivenNames s13
      have h_s13 : P s13 := by
        unfold s13
        refine busEvent_keeps (C.mono (by decide)) ?_
        refine setFld_keeps (C.mono (by decide)) ?_
        refine setFld_keeps (C.mono (by decide)) ?_
        refine setFld_keeps (C.mono (by decide)) ?_
        exact hS1
      try clear_value s13
      refine ite_keeps ?_ ?_
      · refine claim_keeps (C.mono (by decide)) ?_
        exact h_s13
      · refine ite_keeps ?_ ?_
        · refine resumeTx_keeps (C.mono (by decide)) ?_
          exact h_s13
        · exact h_s13

theorem execBusOffHoldExpiry_keeps {P : State → Prop} (C : Keeps [.regs] P) {port_1 s_2} (hP2 : P s_2) : Next P (execBusOffHoldExpiry port_1 s_2) := by
  unfold execBusOffHoldExpiry
  refine next_keeps ?_
  refine live_keeps (C.mono (by decide)) ?_ ?_
  · exact hP2
  · intro s0 hS1
    extract_lets -merge -useContext -underBinder +onlyGivenNames p2 due3
    refine ite_keeps ?_ ?_
    · refine setFld_keeps (C.mono (by decide)) ?_
      exact hS1
    · exact hS1

theorem sendOchre_keeps {P : State → Prop} (C : Keeps [.regs, .och, .sent] P) {rs_1 resend_2 s_3} (hP3 : P s_3) : P (sendOchre rs_1 resend_2 s_3) := by
  unfold sendOchre
  extract_lets -merge -useContext -underBinder +onlyGivenNames drop0 fl1
  refine send_keeps (C.mono (by decide)) ?_
  refine setFld_keeps (C.mono (by decide)) ?_
  refine C.upd_och (by decide) ?_
  exact hP3

theorem execOchreDatagram_keeps {P : State → Prop} (C : Keeps [.regs, .log, .och, .sent] P) {s_1} (hP1 : P s_1) : Next P (execOchreDatagram s_1) := by
  unfold execOchreDatagram
  refine next_keeps ?_
  refine live_keeps (C.mono (by decide)) ?_ ?_
  · exact hP1
  · intro s0 hS1
    split
    · exact hS1
    · refine ite_keeps ?_ ?_
      · exact hS1
      · refine sendOchre_keeps (C.mono (by decide)) ?_
        refine C.upd_log (by decide) ?_
        exact hS1

theorem execOchreKeepalive_keeps {P : State → Prop} (C : Keeps [.regs, .och, .sent] P) {s_1} (hP1 : P s_1) : Next P (execOchreKeepalive s_1) := by
  unfold execOchreKeepalive
  refine next_keeps ?_
  refine live_keeps (C.mono (by decide)) ?_ ?_
  · exact hP1
  · intro s0 hS1
    refine ite_keeps ?_ ?_
    · exact hS1
    · refine sendOchre_keeps (C.mono (by decide)) ?_
      exact hS1

theorem sendChunks_keeps {P : State → Prop} (C : Keeps [.regs, .och, .sent] P) {n rs s} (h : P s) : P (sendChunks n rs s) := by
  induction n generalizing rs s with
  | zero => exact h
  | succ n ih =>
    unfold sendChunks
    refine ite_keeps h (ih ?_)
    exact sendOchre_keeps (C.mono (by decide)) h

theorem execOchreResendRequest_keeps {P : State → Prop} (C : Keeps [.regs, .och, .sent] P) {b_1 s_2} (hP2 : P s_2) : Next P (execOchreResendRequest b_1 s_2) := by
  unfold execOchreResendRequest
  refine next_keeps ?_
  refine live_keeps (C.mono (by decide)) ?_ ?_
  · exact hP2
  · intro s0 hS1
    refine ite_keeps ?_ ?_
    · exact hS1
    · refine bump_keeps (C.mono (by decide)) ?_
      refine sendChunks_keeps (C.mono (by decide)) ?_
      refine C.upd_och (by decide) ?_
      exact hS1

theorem execPlcaBeaconLost_keeps {P : State → Prop} (C : Keeps [.indlog, .regs, .log, .queue] P) {s_1} (hP1 : P s_1) : Next P (execPlcaBeaconLost s_1) := by
  unfold execPlcaBeaconLost
  refine next_keeps ?_
  refine live_keeps (C.mono (by decide)) ?_ ?_
  · exact hP1
  · intro s0 hS1
    refine ite_keeps ?_ ?_
    · refine report_keeps (C.mono (by decide)) ?_
      refine setFlag_keeps (C.mono (by decide)) ?_
      refine setFlag_keeps (C.mono (by decide)) ?_
      exact hS1
    · exact hS1

theorem execPlcaBeaconReturned_keeps {P : State → Prop} (C : Keeps [.indlog, .regs, .log, .queue] P) {s_1} (hP1 : P s_1) : Next P (execPlcaBeaconReturned s_1) := by
  unfold execPlcaBeaconReturned
  refine next_keeps ?_
  refine live_keeps (C.mono (by decide)) ?_ ?_
  · exact hP1
  · intro s0 hS1
    refine ite_keeps ?_ ?_
    · refine report_keeps (C.mono (by decide)) ?_
      refine setFlag_keeps (C.mono (by decide)) ?_
      exact hS1
    · exact hS1

theorem coldState_keeps {P : State → Prop} (C : Keeps [.cold] P) {e s} (h : P s) : P (coldState e s) :=
  C .cold (by decide) e s h

theorem showStart_keeps {P : State → Prop} (C : Keeps [.regs] P) {e_1 s_2} (hP2 : P s_2) : P (showStart e_1 s_2) := by
  unfold showStart
  extract_lets -merge -useContext -underBinder +onlyGivenNames s10 s21 s32 s43
  have h_s10 : P s10 := by
    unfold s10
    refine setFld_keeps (C.mono (by decide)) ?_
    refine setFld_keeps (C.mono (by decide)) ?_
    refine setFld_keeps (C.mono (by decide)) ?_
    refine setFld_keeps (C.mono (by decide)) ?_
    refine setFlag_keeps (C.mono (by decide)) ?_
    refine showTamper_keeps (C.mono (by decide)) ?_
    refine showFuses_keeps (C.mono (by decide)) ?_
    exact hP2
  try clear_value s10
  have h_s21 : P s21 := by
    unfold s21
    refine foldl_keeps (fun s4 x5 hS6 => ?_) _ _ ?_
    · refine setFld_keeps (C.mono (by decide)) ?_
      exact hS6
    · exact h_s10
  try clear_value s21
  have h_s32 : P s32 := by
    unfold s32
    refine ite_keeps ?_ ?_
    · refine setFld_keeps (C.mono (by decide)) ?_
      exact h_s21
    · exact h_s21
  try clear_value s32
  have h_s43 : P s43 := by
    unfold s43
    refine foldl_keeps (fun s7 x8 hS9 => ?_) _ _ ?_
    · refine ite_keeps ?_ ?_
      · refine setFld_keeps (C.mono (by decide)) ?_
        exact hS9
      · exact hS9
    · exact h_s32
  try clear_value s43
  refine setFlag_keeps (C.mono (by decide)) ?_
  refine setFld_keeps (C.mono (by decide)) ?_
  refine setFlag_keeps (C.mono (by decide)) ?_
  refine setFld_keeps (C.mono (by decide)) ?_
  exact h_s43

theorem bootHalt_keeps {P : State → Prop} (C : Keeps [.pwr, .phase, .indlog, .regs, .log, .queue] P) {cause_1 sec_2 fw_3 s_4} (hP4 : P s_4) : P (bootHalt cause_1 sec_2 fw_3 s_4) := by
  unfold bootHalt
  extract_lets -merge -useContext -underBinder +onlyGivenNames ev0 s11
  have h_s11 : P s11 := by
    unfold s11
    refine ite_keeps ?_ ?_
    · refine report_keeps (C.mono (by decide)) ?_
      exact hP4
    · refine reportIndigo_keeps (C.mono (by decide)) ?_
      exact hP4
  try clear_value s11
  refine haltDevice_keeps (C.mono (by decide)) ?_
  refine assertFaultN_keeps (C.mono (by decide)) ?_
  exact h_s11

theorem bootStep_keeps {P : State → Prop} (C : Keeps [.regs] P) {n_1 s_2} (hP2 : P s_2) : P (bootStep n_1 s_2) := by
  unfold bootStep
  refine setFld_keeps (C.mono (by decide)) ?_
  exact hP2

theorem makeInactive_keeps {P : State → Prop} (C : Keeps [.indlog, .regs, .log, .queue, .boot] P) {d_1 cause_2 s_3} (hP3 : P s_3) : P (makeInactive d_1 cause_2 s_3) := by
  unfold makeInactive
  refine ite_keeps ?_ ?_
  · exact hP3
  · refine report_keeps (C.mono (by decide)) ?_
    refine setMaskBit_keeps (C.mono (by decide)) ?_
    refine C.upd_boot (by decide) ?_
    exact hP3

theorem andThen_keeps {P : State → Prop} (C : Keeps [] P) {x_1 f_2} (hP1 : SumP P x_1) (hP2 : ∀ z1, P z1 → SumP P (f_2 z1)) : SumP P (andThen x_1 f_2) := by
  unfold andThen
  split
  · rename_i s0
    refine sum_inl ?_
    exact hP1
  · rename_i s1
    refine hP2 _ ?_
    exact hP1

theorem bootPower_keeps {P : State → Prop} (C : Keeps [.pwr, .phase, .indlog, .regs, .log, .queue] P) {e_1 s_2} (hP2 : P s_2) : SumP P (bootPower e_1 s_2) := by
  unfold bootPower
  refine sum_ite ?_ ?_
  · refine sum_inl ?_
    refine bootHalt_keeps (C.mono (by decide)) ?_
    exact hP2
  · refine sum_ite ?_ ?_
    · refine sum_inl ?_
      refine bootHalt_keeps (C.mono (by decide)) ?_
      refine bootStep_keeps (C.mono (by decide)) ?_
      exact hP2
    · refine sum_inr ?_
      refine setFld_keeps (C.mono (by decide)) ?_
      refine bootStep_keeps (C.mono (by decide)) ?_
      exact hP2

theorem bootHeader_keeps {P : State → Prop} (C : Keeps [.pwr, .phase, .indlog, .regs, .log, .queue] P) {e_1 s_2} (hP2 : P s_2) : SumP P (bootHeader e_1 s_2) := by
  unfold bootHeader
  refine sum_ite ?_ ?_
  · refine sum_inl ?_
    refine bootHalt_keeps (C.mono (by decide)) ?_
    exact hP2
  · split
    · refine sum_inl ?_
      refine bootHalt_keeps (C.mono (by decide)) ?_
      exact hP2
    · refine sum_inr ?_
      refine bootStep_keeps (C.mono (by decide)) ?_
      exact hP2
    · refine sum_inr ?_
      refine bootStep_keeps (C.mono (by decide)) ?_
      refine setFlag_keeps (C.mono (by decide)) ?_
      refine report_keeps (C.mono (by decide)) ?_
      exact hP2

theorem reread_keeps {P : State → Prop} (C : Keeps [.indlog, .regs, .log, .queue] P) {n_1 restart_2 s_3} (hP3 : P s_3) : P (reread n_1 restart_2 s_3) := by
  unfold reread
  refine bump_keeps (C.mono (by decide)) ?_
  refine report_keeps (C.mono (by decide)) ?_
  exact hP3

theorem loseModel_keeps {P : State → Prop} (C : Keeps [.pwr, .phase, .indlog, .regs, .log, .queue, .boot] P) {cause_1 x_2 s_3} (hP3 : P s_3) : SumP P (loseModel cause_1 x_2 s_3) := by
  unfold loseModel
  split
  · refine sum_ite ?_ ?_
    · refine sum_inl ?_
      refine bootHalt_keeps (C.mono (by decide)) ?_
      exact hP3
    · refine sum_inr ?_
      exact hP3
  · refine sum_ite ?_ ?_
    · refine sum_inl ?_
      refine bootHalt_keeps (C.mono (by decide)) ?_
      exact hP3
    · refine sum_inr ?_
      refine makeInactive_keeps (C.mono (by decide)) ?_
      exact hP3

theorem bootSection_keeps {P : State → Prop} (C : Keeps [.pwr, .phase, .indlog, .regs, .log, .queue, .boot] P) {striped_1 src_2 other_3 r_4 x_5} (hP4 : SumP P r_4) : SumP P (bootSection striped_1 src_2 other_3 r_4 x_5) := by
  unfold bootSection
  refine andThen_keeps (C.mono (by decide)) ?_ ?_
  · exact hP4
  · intro s0 hS1
    refine sum_ite ?_ ?_
    · refine sum_inr ?_
      exact hS1
    · extract_lets -merge -useContext -underBinder +onlyGivenNames s12
      have h_s12 : P s12 := by
        unfold s12
        refine ite_keeps ?_ ?_
        · exact hS1
        · refine setFlag_keeps (C.mono (by decide)) ?_
          refine reread_keeps (C.mono (by decide)) ?_
          exact hS1
      try clear_value s12
      split
      · refine sum_inr ?_
        exact h_s12
      · refine loseModel_keeps (C.mono (by decide)) ?_
        exact h_s12

theorem loadDetail_keeps {P : State → Prop} (C : Keeps [.free] P) {f_1 s_2} (hP2 : P s_2) : P (loadDetail f_1 s_2).2 := by
  unfold loadDetail
  split
  · try dsimp only
    exact hP2
  · try dsimp only
    exact hP2
  · extract_lets -merge -useContext -underBinder +onlyGivenNames n0
    have h_n0 : P n0.2 := by
      unfold n0
      refine nextFree_keeps (C.mono (by decide)) ?_
      exact hP2
    try clear_value n0
    try dsimp only
    exact h_n0

theorem bootModel_keeps {P : State → Prop} (C : Keeps [.pwr, .phase, .indlog, .regs, .wld, .log, .queue, .boot, .mem, .data, .free] P) {striped_1 src_2 other_3 r_4 x_5} (hP4 : SumP P r_4) : SumP P (bootModel striped_1 src_2 other_3 r_4 x_5) := by
  unfold bootModel
  refine andThen_keeps (C.mono (by decide)) ?_ ?_
  · exact hP4
  · intro s0 hS1
    split
    · split
      · refine sum_inr ?_
        refine writeBytes_keeps (C.mono (by decide)) ?_
        refine C.upd_boot (by decide) ?_
        exact hS1
      · extract_lets -merge -useContext -underBinder +onlyGivenNames n2
        have h_n2 : P n2.2 := by
          unfold n2
          refine loadDetail_keeps (C.mono (by decide)) ?_
          exact hS1
        try clear_value n2
        refine loseModel_keeps (C.mono (by decide)) ?_
        refine report_keeps (C.mono (by decide)) ?_
        exact h_n2
    · refine sum_inr ?_
      exact hS1

theorem bootLoad_keeps {P : State → Prop} (C : Keeps [.pwr, .phase, .indlog, .regs, .wld, .log, .queue, .boot, .mem, .data, .free] P) {e_1 s_2} (hP2 : P s_2) : SumP P (bootLoad e_1 s_2) := by
  unfold bootLoad
  split
  · refine sum_inl ?_
    exact hP2
  · extract_lets -merge -useContext -underBinder +onlyGivenNames xs0 copy1 x12 x23
    have h_x12 : SumP P x12 := by
      unfold x12
      refine foldl_keeps (fun r4 x5 hS6 => ?_) _ _ ?_
      · refine bootSection_keeps (C.mono (by decide)) ?_
        exact hS6
      · refine sum_inr ?_
        refine writeBytes_keeps (C.mono (by decide)) ?_
        exact hP2
    try clear_value x12
    have h_x23 : SumP P x23 := by
      unfold x23
      refine foldl_keeps (fun r7 x8 hS9 => ?_) _ _ ?_
      · refine bootModel_keeps (C.mono (by decide)) ?_
        exact hS9
      · exact h_x12
    try clear_value x23
    refine andThen_keeps (C.mono (by decide)) ?_ ?_
    · exact h_x23
    · intro s10 hS11
      refine sum_ite ?_ ?_
      · refine sum_inl ?_
        refine bootHalt_keeps (C.mono (by decide)) ?_
        exact hS11
      · extract_lets -merge -useContext -underBinder +onlyGivenNames s112 s213
        have h_s112 : P s112 := by
          unfold s112
          refine ite_keeps ?_ ?_
          · exact hS11
          · refine report_keeps (C.mono (by decide)) ?_
            exact hS11
        try clear_value s112
        have h_s213 : P s213 := by
          unfold s213
          refine foldl_keeps (fun s14 x15 hS16 => ?_) _ _ ?_
          · refine makeInactive_keeps (C.mono (by decide)) ?_
            exact hS16
          · exact h_s112
        try clear_value s213
        refine sum_inr ?_
        refine bootStep_keeps (C.mono (by decide)) ?_
        refine setFld_keeps (C.mono (by decide)) ?_
        exact h_s213

theorem takeOwner_keeps {P : State → Prop} (C : Keeps [.fuse, .regs] P) {s_1} (hP1 : P s_1) : P (takeOwner s_1) := by
  unfold takeOwner
  refine ite_keeps ?_ ?_
  · refine showFuses_keeps (C.mono (by decide)) ?_
    refine C.upd_fuse (by decide) ?_
    exact hP1
  · exact hP1

theorem startTests_keeps {P : State → Prop} (C : Keeps [.indlog, .regs, .frame, .cnd, .safe, .log, .queue, .mem, .swp, .sel, .sec, .bus, .sent, .free] P) {tiles_1 infs_2 select_3 lanes_4 s_5} (hP5 : P s_5) : P (startTests tiles_1 infs_2 select_3 lanes_4 s_5) := by
  unfold startTests
  extract_lets -merge -useContext -underBinder +onlyGivenNames us0 s11
  have h_s11 : P s11 := by
    unfold s11
    refine foldl_keeps (fun s2 x3 hS4 => ?_) _ _ ?_
    · refine takeOut_keeps (C.mono (by decide)) ?_
      exact hS4
    · exact hP5
  try clear_value s11
  refine showInfService_keeps (C.mono (by decide)) ?_
  refine C.upd_sel (by decide) ?_
  exact h_s11

theorem warmUp_keeps {P : State → Prop} (C : Keeps [.indlog, .regs, .ing, .log, .queue, .bus] P) {fused_1 s_2} (hP2 : P s_2) : P (warmUp fused_1 s_2) := by
  unfold warmUp
  refine foldl_keeps (fun s0 x1 hS2 => ?_) _ _ ?_
  · refine ite_keeps ?_ ?_
    · refine linkLost_keeps (C.mono (by decide)) ?_
      exact hS2
    · exact hS2
  · exact hP2

theorem startStreams_keeps {P : State → Prop} (C : Keeps [.regs, .ing, .sent] P) {t_1 s_2} (hP2 : P s_2) : P (startStreams t_1 s_2) := by
  unfold startStreams
  refine sendSetup_keeps (C.mono (by decide)) ?_
  refine foldl_keeps (fun s0 x1 hS2 => ?_) _ _ ?_
  · refine ite_keeps ?_ ?_
    · refine enableStream_keeps (C.mono (by decide)) ?_
      exact hS2
    · exact hS2
  · exact hP2

theorem bootFinish_keeps {P : State → Prop} (C : Keeps [.phase, .indlog, .fuse, .regs, .ing, .frame, .cnd, .safe, .log, .queue, .boot, .mem, .swp, .sel, .slv, .twin, .pair, .sec, .bus, .sent, .free] P) {e_1 t_2 s_3} (hP3 : P s_3) : P (bootFinish e_1 t_2 s_3) := by
  unfold bootFinish
  extract_lets -merge -useContext -underBinder +onlyGivenNames s10 __src1 s22 __src3 __src4 s35 solo6 __src7 s48 s59
  have h_s10 : P s10 := by
    unfold s10
    refine startTests_keeps (C.mono (by decide)) ?_
    refine bootStep_keeps (C.mono (by decide)) ?_
    refine refreshResident_keeps (C.mono (by decide)) ?_
    refine startStreams_keeps (C.mono (by decide)) ?_
    refine takeOwner_keeps (C.mono (by decide)) ?_
    exact hP3
  try clear_value s10
  have h_s22 : P s22 := by
    unfold s22
    refine ite_keeps ?_ ?_
    · refine C.upd_safe (by decide) ?_
      exact h_s10
    · exact h_s10
  try clear_value s22
  have h_s35 : P s35 := by
    unfold s35
    refine warmUp_keeps (C.mono (by decide)) ?_
    refine C.upd_phase_boot (by decide) ?_
    exact h_s22
  try clear_value s35
  have h_s48 : P s48 := by
    unfold s48
    refine setPair_keeps (C.mono (by decide)) ?_
    refine C.upd_twin (by decide) ?_
    exact h_s35
  try clear_value s48
  have h_s59 : P s59 := by
    unfold s59
    refine ite_keeps ?_ ?_
    · exact h_s48
    · refine report_keeps (C.mono (by decide)) ?_
      exact h_s48
  try clear_value s59
  refine bootStep_keeps (C.mono (by decide)) ?_
  exact h_s59

theorem wakeTrip_keeps {P : State → Prop} (C : Keeps [.pwr, .phase, .raise, .ind, .indlog, .regs, .cnd, .log, .queue, .mem, .data, .twin, .pair, .sec, .sent, .free] P) {s_1} (hP1 : P s_1) : P (wakeTrip s_1) := by
  unfold wakeTrip
  refine ite_keeps ?_ ?_
  · exact hP1
  · refine tripped_keeps (C.mono (by decide)) ?_
    refine C.upd_ind (by decide) ?_
    exact hP1

theorem coldStart_keeps {P : State → Prop} (C : Keeps [.pwr, .phase, .raise, .ind, .indlog, .fuse, .regs, .ing, .frame, .cnd, .wld, .safe, .log, .queue, .boot, .mem, .data, .swp, .sel, .slv, .twin, .pair, .sec, .bus, .sent, .free, .cold] P) {e_1 s_2} (hP2 : P s_2) : P (coldStart e_1 s_2) := by
  unfold coldStart
  extract_lets -merge -useContext -underBinder +onlyGivenNames s00
  have h_s00 : P s00 := by
    unfold s00
    refine wakeTrip_keeps (C.mono (by decide)) ?_
    refine showStart_keeps (C.mono (by decide)) ?_
    refine coldState_keeps (C.mono (by decide)) ?_
    exact hP2
  try clear_value s00
  refine ite_keeps ?_ ?_
  · exact h_s00
  · split
    · rename_i h1 he2
      have hm3 : P h1 := by
        refine sum_of ?_ he2
        refine andThen_keeps (C.mono (by decide)) ?_ ?_
        · refine andThen_keeps (C.mono (by decide)) ?_ ?_
          · refine bootPower_keeps (C.mono (by decide)) ?_
            exact h_s00
          · intro s4 hS5
            refine bootHeader_keeps (C.mono (by decide)) ?_
            exact hS5
        · intro s6 hS7
          refine bootLoad_keeps (C.mono (by decide)) ?_
          exact hS7
      exact hm3
    · rename_i t8 he9
      have hm10 : P t8 := by
        refine sum_of ?_ he9
        refine andThen_keeps (C.mono (by decide)) ?_ ?_
        · refine andThen_keeps (C.mono (by decide)) ?_ ?_
          · refine bootPower_keeps (C.mono (by decide)) ?_
            exact h_s00
          · intro s11 hS12
            refine bootHeader_keeps (C.mono (by decide)) ?_
            exact hS12
        · intro s13 hS14
          refine bootLoad_keeps (C.mono (by decide)) ?_
          exact hS14
      refine bootFinish_keeps (C.mono (by decide)) ?_
      exact hm10

theorem execPorRelease_keeps {P : State → Prop} (C : Keeps [.pwr, .phase, .raise, .ind, .indlog, .fuse, .regs, .ing, .frame, .cnd, .wld, .safe, .log, .queue, .boot, .mem, .data, .swp, .sel, .slv, .twin, .pair, .sec, .bus, .sent, .free, .cold] P) {e_1 s_2} (hP2 : P s_2) : Next P (execPorRelease e_1 s_2) := by
  unfold execPorRelease
  refine next_keeps ?_
  refine ite_keeps ?_ ?_
  · refine coldStart_keeps (C.mono (by decide)) ?_
    exact hP2
  · exact hP2

theorem execStopLimitExpiry_keeps {P : State → Prop} (C : Keeps [.raise, .indlog, .regs, .log, .queue] P) {s_1} (hP1 : P s_1) : Next P (execStopLimitExpiry s_1) := by
  unfold execStopLimitExpiry
  refine next_keeps ?_
  refine live_keeps (C.mono (by decide)) ?_ ?_
  · exact hP1
  · intro s0 hS1
    refine ite_keeps ?_ ?_
    · refine assertSafeStop_keeps (C.mono (by decide)) ?_
      exact hS1
    · exact hS1

theorem takeWatchdogKick_keeps {P : State → Prop} (C : Keeps [.ind, .regs] P) {s_1} (hP1 : P s_1) : P (takeWatchdogKick s_1) := by
  unfold takeWatchdogKick
  refine live_keeps (C.mono (by decide)) ?_ ?_
  · exact hP1
  · intro s0 hS1
    refine setFld_keeps (C.mono (by decide)) ?_
    refine C.upd_ind (by decide) ?_
    exact hS1

theorem execWatchdogKick_keeps {P : State → Prop} (C : Keeps [.ind, .regs] P) {s_1} (hP1 : P s_1) : Next P (execWatchdogKick s_1) := by
  unfold execWatchdogKick
  refine next_keeps ?_
  refine takeWatchdogKick_keeps (C.mono (by decide)) ?_
  exact hP1

theorem execWatchdogExpiry_keeps {P : State → Prop} (C : Keeps [.pwr, .raise, .indlog, .regs, .log, .queue, .twin, .sent] P) {s_1} (hP1 : P s_1) : Next P (execWatchdogExpiry s_1) := by
  unfold execWatchdogExpiry
  refine next_keeps ?_
  refine live_keeps (C.mono (by decide)) ?_ ?_
  · exact hP1
  · intro s0 hS1
    refine ite_keeps ?_ ?_
    · exact hS1
    · extract_lets -merge -useContext -underBinder +onlyGivenNames s12
      have h_s12 : P s12 := by
        unfold s12
        refine setFlag_keeps (C.mono (by decide)) ?_
        refine setFld_keeps (C.mono (by decide)) ?_
        refine reportIndigo_keeps (C.mono (by decide)) ?_
        refine assertFaultN_keeps (C.mono (by decide)) ?_
        exact hS1
      try clear_value s12
      refine ite_keeps ?_ ?_
      · refine assertSafeStop_keeps (C.mono (by decide)) ?_
        exact h_s12
      · refine abdicate_keeps (C.mono (by decide)) ?_
        exact h_s12

theorem takeSafeCtlStop_keeps {P : State → Prop} (C : Keeps [.raise, .indlog, .regs, .log, .queue, .sent] P) {r_1 s_2} (hP2 : P s_2) : P (takeSafeCtlStop r_1 s_2) := by
  unfold takeSafeCtlStop
  refine live_keeps (C.mono (by decide)) ?_ ?_
  · exact hP2
  · intro s0 hS1
    refine ite_keeps ?_ ?_
    · refine assertSafeStop_keeps (C.mono (by decide)) ?_
      exact hS1
    · refine refuseAccess_keeps (C.mono (by decide)) ?_
      exact hS1

theorem execSafeCtlStop_keeps {P : State → Prop} (C : Keeps [.raise, .indlog, .regs, .log, .queue, .sent] P) {r_1 s_2} (hP2 : P s_2) : Next P (execSafeCtlStop r_1 s_2) := by
  unfold execSafeCtlStop
  refine next_keeps ?_
  refine takeSafeCtlStop_keeps (C.mono (by decide)) ?_
  exact hP2

theorem takeSafeCtlRestart_keeps {P : State → Prop} (C : Keeps [.pwr, .raise, .indlog, .regs, .num, .cnd, .wld, .restart, .log, .queue, .mem, .twin, .swap, .sec, .bus, .replay, .sent, .free] P) {r_1 s_2} (hP2 : P s_2) : P (takeSafeCtlRestart r_1 s_2) := by
  unfold takeSafeCtlRestart
  refine live_keeps (C.mono (by decide)) ?_ ?_
  · exact hP2
  · intro s0 hS1
    refine ite_keeps ?_ ?_
    · refine triggerRestart_keeps (C.mono (by decide)) ?_
      exact hS1
    · refine refuseAccess_keeps (C.mono (by decide)) ?_
      exact hS1

theorem execSafeCtlRestart_keeps {P : State → Prop} (C : Keeps [.pwr, .raise, .indlog, .regs, .num, .cnd, .wld, .restart, .log, .queue, .mem, .twin, .swap, .sec, .bus, .replay, .sent, .free] P) {r_1 s_2} (hP2 : P s_2) : Next P (execSafeCtlRestart r_1 s_2) := by
  unfold execSafeCtlRestart
  refine next_keeps ?_
  refine takeSafeCtlRestart_keeps (C.mono (by decide)) ?_
  exact hP2

theorem execDoubtPersist_keeps {P : State → Prop} (C : Keeps [.pwr, .raise, .indlog, .regs, .num, .cnd, .wld, .restart, .log, .queue, .mem, .twin, .swap, .sec, .bus, .replay, .sent, .free] P) {s_1} (hP1 : P s_1) : Next P (execDoubtPersist s_1) := by
  unfold execDoubtPersist
  refine next_keeps ?_
  refine live_keeps (C.mono (by decide)) ?_ ?_
  · exact hP1
  · intro s0 hS1
    refine ite_keeps ?_ ?_
    · refine triggerRestart_keeps (C.mono (by decide)) ?_
      exact hS1
    · exact hS1

theorem wipeFabric_keeps {P : State → Prop} (C : Keeps [.regs, .ing, .cnd, .epoch, .inf, .mem, .data, .swp, .sel, .slv] P) {s_1} (hP1 : P s_1) : P (wipeFabric s_1) := by
  unfold wipeFabric
  extract_lets -merge -useContext -underBinder +onlyGivenNames s10 kept1
  have h_s10 : P s10 := by
    unfold s10
    refine revokeRequests_keeps (C.mono (by decide)) ?_
    refine zeroRanges_keeps (C.mono (by decide)) ?_
    exact hP1
  try clear_value s10
  refine C.upd_ing_cnd_epoch_inf_mem_swp_sel_slv (by decide) ?_
  exact h_s10

theorem reloadSection_keeps {P : State → Prop} (C : Keeps [.pwr, .raise, .indlog, .regs, .wld, .log, .queue, .mem, .data, .twin, .sent] P) {flashes_1 s_2 x_3} (hP2 : P s_2) : P (reloadSection flashes_1 s_2 x_3) := by
  unfold reloadSection
  extract_lets -merge -useContext -underBinder +onlyGivenNames copy0
  refine ite_keeps ?_ ?_
  · exact hP2
  · extract_lets -merge -useContext -underBinder +onlyGivenNames s11
    have h_s11 : P s11 := by
      unfold s11
      refine reread_keeps (C.mono (by decide)) ?_
      exact hP2
    try clear_value s11
    split
    · exact h_s11
    · split
      · refine writeBytes_keeps (C.mono (by decide)) ?_
        exact h_s11
      · refine fatal_keeps (C.mono (by decide)) ?_
        exact h_s11

theorem reloadFabric_keeps {P : State → Prop} (C : Keeps [.pwr, .raise, .indlog, .regs, .wld, .log, .queue, .mem, .data, .slv, .twin, .swap, .sent] P) {flashes_1 s_2} (hP2 : P s_2) : P (reloadFabric flashes_1 s_2) := by
  unfold reloadFabric
  extract_lets -merge -useContext -underBinder +onlyGivenNames s10 __src1 s22
  have h_s10 : P s10 := by
    unfold s10
    refine foldl_keeps (fun s3 x4 hS5 => ?_) _ _ ?_
    · refine reloadSection_keeps (C.mono (by decide)) ?_
      exact hS5
    · refine setFld_keeps (C.mono (by decide)) ?_
      exact hP2
  try clear_value s10
  have h_s22 : P s22 := by
    unfold s22
    refine foldl_keeps (fun s6 x7 hS8 => ?_) _ _ ?_
    · refine reloadTable_keeps (C.mono (by decide)) ?_
      exact hS8
    · refine C.upd_mem (by decide) ?_
      exact h_s10
  try clear_value s22
  refine refreshResident_keeps (C.mono (by decide)) ?_
  refine reloadRegs_keeps (C.mono (by decide)) ?_
  exact h_s22

theorem testFabric_keeps {P : State → Prop} (C : Keeps [.pwr, .raise, .indlog, .regs, .frame, .cnd, .safe, .log, .queue, .mem, .swp, .sel, .twin, .sec, .bus, .sent, .free] P) {e_1 s_2} (hP2 : P s_2) : P (testFabric e_1 s_2) := by
  unfold testFabric
  extract_lets -merge -useContext -underBinder +onlyGivenNames s10
  have h_s10 : P s10 := by
    unfold s10
    refine startTests_keeps (C.mono (by decide)) ?_
    exact hP2
  try clear_value s10
  refine ite_keeps ?_ ?_
  · refine C.upd_safe (by decide) ?_
    exact h_s10
  · refine ite_keeps ?_ ?_
    · refine fatal_keeps (C.mono (by decide)) ?_
      exact h_s10
    · refine C.upd_safe (by decide) ?_
      exact h_s10

theorem runRestart_keeps {P : State → Prop} (C : Keeps [.pwr, .raise, .indlog, .regs, .ing, .frame, .cnd, .wld, .epoch, .safe, .restart, .log, .queue, .inf, .mem, .data, .swp, .sel, .slv, .twin, .swap, .sec, .bus, .sent, .free] P) {e_1 s_2} (hP2 : P s_2) : P (runRestart e_1 s_2) := by
  unfold runRestart
  split
  · exact hP2
  · refine ite_keeps ?_ ?_
    · exact hP2
    · extract_lets -merge -useContext -underBinder +onlyGivenNames s10
      have h_s10 : P s10 := by
        unfold s10
        refine testFabric_keeps (C.mono (by decide)) ?_
        refine reloadFabric_keeps (C.mono (by decide)) ?_
        refine wipeFabric_keeps (C.mono (by decide)) ?_
        exact hP2
      try clear_value s10
      refine C.upd_restart (by decide) ?_
      exact h_s10

theorem execFabricRestart_keeps {P : State → Prop} (C : Keeps [.pwr, .raise, .indlog, .regs, .ing, .frame, .num, .cnd, .wld, .epoch, .safe, .restart, .log, .queue, .inf, .mem, .data, .swp, .sel, .slv, .twin, .swap, .sec, .bus, .replay, .sent, .free] P) {trig_1 env_2 s_3} (hP3 : P s_3) : Next P (execFabricRestart trig_1 env_2 s_3) := by
  unfold execFabricRestart
  refine next_keeps ?_
  refine live_keeps (C.mono (by decide)) ?_ ?_
  · exact hP3
  · intro s0 hS1
    refine runRestart_keeps (C.mono (by decide)) ?_
    refine ite_keeps ?_ ?_
    · refine triggerRestart_keeps (C.mono (by decide)) ?_
      exact hS1
    · exact hS1

theorem execRestartStepTimeout_keeps {P : State → Prop} (C : Keeps [.pwr, .raise, .indlog, .regs, .log, .queue, .twin, .sent] P) {s_1} (hP1 : P s_1) : Next P (execRestartStepTimeout s_1) := by
  unfold execRestartStepTimeout
  refine next_keeps ?_
  refine live_keeps (C.mono (by decide)) ?_ ?_
  · exact hP1
  · intro s0 hS1
    refine ite_keeps ?_ ?_
    · refine fatal_keeps (C.mono (by decide)) ?_
      exact hS1
    · exact hS1

theorem completeRestart_keeps {P : State → Prop} (C : Keeps [.indlog, .regs, .restart, .log, .queue, .mem] P) {s_1} (hP1 : P s_1) : P (completeRestart s_1) := by
  unfold completeRestart
  split
  · exact hP1
  · refine ite_keeps ?_ ?_
    · exact hP1
    · extract_lets -merge -useContext -underBinder +onlyGivenNames hold0 __src1 s12
      have h_s12 : P s12 := by
        unfold s12
        refine report_keeps (C.mono (by decide)) ?_
        refine setFlag_keeps (C.mono (by decide)) ?_
        refine setFld_keeps (C.mono (by decide)) ?_
        refine C.upd_restart (by decide) ?_
        exact hP1
      try clear_value s12
      refine foldl_keeps (fun s3 x4 hS5 => ?_) _ _ ?_
      · refine beginWipe_keeps (C.mono (by decide)) ?_
        exact hS5
      · exact h_s12

theorem kermesReady_keeps {P : State → Prop} (C : Keeps [.indlog, .regs, .frame, .cnd, .safe, .log, .queue, .mem, .swp, .sec, .bus, .sent, .free] P) {k_1 s_2} (hP2 : P s_2) : Opt P (kermesReady k_1 s_2) := by
  unfold kermesReady
  split
  · refine opt_ite ?_ ?_
    · refine opt_some ?_
      exact hP2
    · exact opt_none
  · refine opt_ite ?_ ?_
    · refine opt_some ?_
      exact hP2
    · refine opt_ite ?_ ?_
      · refine opt_some ?_
        refine takeOut_keeps (C.mono (by decide)) ?_
        refine C.upd_safe (by decide) ?_
        exact hP2
      · exact opt_none

theorem execKermesStart_keeps {P : State → Prop} (C : Keeps [.indlog, .regs, .frame, .cnd, .safe, .log, .queue, .mem, .swp, .sec, .bus, .sent, .free] P) {u_1 pack_2 s_3} (hP3 : P s_3) : Next P (execKermesStart u_1 pack_2 s_3) := by
  unfold execKermesStart
  refine next_keeps ?_
  refine live_keeps (C.mono (by decide)) ?_ ?_
  · exact hP3
  · intro s0 hS1
    refine ite_keeps ?_ ?_
    · exact hS1
    · split
      · exact hS1
      · rename_i s12 he3
        have hm4 : P s12 := by
          refine (?_ : Opt _ _) _ he3
          refine kermesReady_keeps (C.mono (by decide)) ?_
          exact hS1
        refine setFlag_keeps (C.mono (by decide)) ?_
        refine C.upd_safe (by decide) ?_
        exact hm4

theorem kermesFail_keeps {P : State → Prop} (C : Keeps [.indlog, .regs, .cnd, .safe, .log, .queue] P) {k_1 s_2} (hP2 : P s_2) : P (kermesFail k_1 s_2) := by
  unfold kermesFail
  extract_lets -merge -useContext -underBinder +onlyGivenNames __src0 s11
  have h_s11 : P s11 := by
    unfold s11
    refine bump_keeps (C.mono (by decide)) ?_
    refine bump_keeps (C.mono (by decide)) ?_
    refine report_keeps (C.mono (by decide)) ?_
    refine setFlag_keeps (C.mono (by decide)) ?_
    refine C.upd_safe (by decide) ?_
    exact hP2
  try clear_value s11
  split
  · exact h_s11
  · refine C.upd_cnd (by decide) ?_
    exact h_s11

theorem kermesPass_keeps {P : State → Prop} (C : Keeps [.indlog, .regs, .cnd, .safe, .log, .queue] P) {k_1 s_2} (hP2 : P s_2) : P (kermesPass k_1 s_2) := by
  unfold kermesPass
  extract_lets -merge -useContext -underBinder +onlyGivenNames __src0 s11
  have h_s11 : P s11 := by
    unfold s11
    refine bump_keeps (C.mono (by decide)) ?_
    refine report_keeps (C.mono (by decide)) ?_
    refine setFlag_keeps (C.mono (by decide)) ?_
    refine C.upd_safe (by decide) ?_
    exact hP2
  try clear_value s11
  split
  · exact h_s11
  · refine releaseUnit_keeps (C.mono (by decide)) ?_
    refine C.upd_safe (by decide) ?_
    exact h_s11

theorem execKermesPackDone_keeps {P : State → Prop} (C : Keeps [.indlog, .regs, .cnd, .safe, .log, .queue] P) {results_1 s_2} (hP2 : P s_2) : Next P (execKermesPackDone results_1 s_2) := by
  unfold execKermesPackDone
  refine next_keeps ?_
  refine live_keeps (C.mono (by decide)) ?_ ?_
  · exact hP2
  · intro s0 hS1
    split
    · exact hS1
    · refine ite_keeps ?_ ?_
      · refine kermesPass_keeps (C.mono (by decide)) ?_
        exact hS1
      · refine kermesFail_keeps (C.mono (by decide)) ?_
        exact hS1

theorem execKermesOvertime_keeps {P : State → Prop} (C : Keeps [.indlog, .regs, .cnd, .safe, .log, .queue] P) {s_1} (hP1 : P s_1) : Next P (execKermesOvertime s_1) := by
  unfold execKermesOvertime
  refine next_keeps ?_
  refine live_keeps (C.mono (by decide)) ?_ ?_
  · exact hP1
  · intro s0 hS1
    split
    · exact hS1
    · refine ite_keeps ?_ ?_
      · exact hS1
      · refine kermesFail_keeps (C.mono (by decide)) ?_
        exact hS1

theorem kermesEdge_keeps {P : State → Prop} (C : Keeps [.indlog, .regs, .frame, .cnd, .safe, .log, .queue, .mem, .swp, .sec, .bus, .sent, .free] P) {s_1} (hP1 : P s_1) : P (kermesEdge s_1) := by
  unfold kermesEdge
  refine foldl_keeps (fun s0 x1 hS2 => ?_) _ _ ?_
  · split
    · rename_i t3 he4
      have hm5 : P t3 := by
        refine (?_ : Opt _ _) _ he4
        refine kermesReady_keeps (C.mono (by decide)) ?_
        exact hS2
      refine ite_keeps ?_ ?_
      · refine kermesDue_keeps (C.mono (by decide)) ?_
        exact hm5
      · exact hS2
    · exact hS2
  · exact hP1

theorem hbmLog_keeps {P : State → Prop} (C : Keeps [.indlog, .regs, .wld, .log, .queue, .mem, .data] P) {r_1 s_2} (hP2 : P s_2) : P (hbmLog r_1 s_2) := by
  unfold hbmLog
  extract_lets -merge -useContext -underBinder +onlyGivenNames s10
  have h_s10 : P s10 := by
    unfold s10
    refine writeBytes_keeps (C.mono (by decide)) ?_
    exact hP2
  try clear_value s10
  refine C.upd_log (by decide) ?_
  exact h_s10

theorem execFaultRecordDrain_keeps {P : State → Prop} (C : Keeps [.indlog, .regs, .wld, .log, .queue, .mem, .data] P) {s} (h : P s) : Next P (execFaultRecordDrain s) := by
  unfold execFaultRecordDrain
  refine next_keeps (live_keeps (C.mono (by decide)) h fun s hs => ?_)
  split
  · exact hs
  · rename_i q qs hq
    extract_lets -merge -useContext -underBinder +onlyGivenNames r s1
    have h1 : P s1 := C.upd_queue (by decide) hs fun k => by
      rw [hq, List.length_cons] at k
      show qs.length ≤ 256
      omega
    clear_value s1
    exact ite_keeps (hbmLog_keeps (C.mono (by decide)) h1) h1

theorem setLastOff_keeps {P : State → Prop} (C : Keeps [.regs] P) {n_1 s_2} (hP2 : P s_2) : P (setLastOff n_1 s_2) := by
  unfold setLastOff
  refine setFld_keeps (C.mono (by decide)) ?_
  exact hP2

theorem powerEvent_keeps {P : State → Prop} (C : Keeps [.indlog, .regs, .log, .queue] P) {ev_1 sev_2 detail_3 s_4} (hP4 : P s_4) : P (powerEvent ev_1 sev_2 detail_3 s_4) := by
  unfold powerEvent
  refine report_keeps (C.mono (by decide)) ?_
  exact hP4

theorem powerOff_keeps {P : State → Prop} (C : Keeps [.phase, .regs] P) {last_1 s_2} (hP2 : P s_2) : P (powerOff last_1 s_2) := by
  unfold powerOff
  refine setLastOff_keeps (C.mono (by decide)) ?_
  refine C.upd_phase (by decide) ?_
  exact hP2

theorem wardenWrite_keeps {P : State → Prop} (C : Keeps [.indlog, .regs, .log, .queue, .sent] P) {r_1 addr_2 f_3 s_4} (hP3 : ∀ z1, P z1 → P (f_3 z1)) (hP4 : P s_4) : P (wardenWrite r_1 addr_2 f_3 s_4) := by
  unfold wardenWrite
  refine ite_keeps ?_ ?_
  · refine hP3 _ ?_
    exact hP4
  · refine refuseAccess_keeps (C.mono (by decide)) ?_
    exact hP4

theorem execPowerGood_keeps {P : State → Prop} (C : Keeps [.raise] P) {s_1} (hP1 : P s_1) : Next P (execPowerGood s_1) := by
  unfold execPowerGood
  refine next_keeps ?_
  refine ite_keeps ?_ ?_
  · refine C.upd_raise (by decide) ?_
    exact hP1
  · exact hP1

theorem execPwrgdTimeout_keeps {P : State → Prop} (C : Keeps [.phase, .indlog, .regs, .log] P) {s_1} (hP1 : P s_1) : Next P (execPwrgdTimeout s_1) := by
  unfold execPwrgdTimeout
  refine next_keeps ?_
  refine ite_keeps ?_ ?_
  · refine reportIndigo_keeps (C.mono (by decide)) ?_
    refine C.upd_phase (by decide) ?_
    exact hP1
  · exact hP1

theorem execPwrgdLost_keeps {P : State → Prop} (C : Keeps [.pwr, .phase, .raise, .indlog, .regs, .log, .queue, .bus] P) {s_1} (hP1 : P s_1) : Next P (execPwrgdLost s_1) := by
  unfold execPwrgdLost
  refine next_keeps ?_
  refine ite_keeps ?_ ?_
  · exact hP1
  · extract_lets -merge -useContext -underBinder +onlyGivenNames s10 __src1 s22
    have h_s10 : P s10 := by
      unfold s10
      refine reportIndigo_keeps (C.mono (by decide)) ?_
      refine assertFaultN_keeps (C.mono (by decide)) ?_
      exact hP1
    try clear_value s10
    have h_s22 : P s22 := by
      unfold s22
      refine assertSafeStop_keeps (C.mono (by decide)) ?_
      refine C.upd_bus (by decide) ?_
      exact h_s10
    try clear_value s22
    refine setLastOff_keeps (C.mono (by decide)) ?_
    refine C.upd_phase (by decide) ?_
    exact h_s22

theorem execVcoreOutOfRange_keeps {P : State → Prop} (C : Keeps [.pwr, .phase, .raise, .indlog, .regs, .cnd, .log, .queue, .mem, .twin, .sec, .bus, .sent, .free] P) {s_1} (hP1 : P s_1) : Next P (execVcoreOutOfRange s_1) := by
  unfold execVcoreOutOfRange
  refine next_keeps ?_
  refine live_keeps (C.mono (by decide)) ?_ ?_
  · exact hP1
  · intro s0 hS1
    extract_lets -merge -useContext -underBinder +onlyGivenNames s12
    have h_s12 : P s12 := by
      unfold s12
      refine fatal_keeps (C.mono (by decide)) ?_
      refine haltFabric_keeps (C.mono (by decide)) ?_
      exact hS1
    try clear_value s12
    refine haltDevice_keeps (C.mono (by decide)) ?_
    refine setLastOff_keeps (C.mono (by decide)) ?_
    exact h_s12

theorem takeVcoreTargetWrite_keeps {P : State → Prop} (C : Keeps [.pwr, .indlog, .regs, .log, .queue, .sent] P) {r_1 target_2 s_3} (hP3 : P s_3) : P (takeVcoreTargetWrite r_1 target_2 s_3) := by
  unfold takeVcoreTargetWrite
  refine live_keeps (C.mono (by decide)) ?_ ?_
  · exact hP3
  · intro s0 hS1
    refine wardenWrite_keeps (C.mono (by decide)) ?_ ?_
    · intro s2 hS3
      extract_lets -merge -useContext -underBinder +onlyGivenNames t4
      refine ite_keeps ?_ ?_
      · refine powerEvent_keeps (C.mono (by decide)) ?_
        exact hS3
      · refine setFld_keeps (C.mono (by decide)) ?_
        refine C.upd_pwr (by decide) ?_
        exact hS3
    · exact hS1

theorem execVcoreTargetWrite_keeps {P : State → Prop} (C : Keeps [.pwr, .indlog, .regs, .log, .queue, .sent] P) {r_1 target_2 s_3} (hP3 : P s_3) : Next P (execVcoreTargetWrite r_1 target_2 s_3) := by
  unfold execVcoreTargetWrite
  refine next_keeps ?_
  refine takeVcoreTargetWrite_keeps (C.mono (by decide)) ?_
  exact hP3

theorem execAvsNoAnswer_keeps {P : State → Prop} (C : Keeps [.pwr, .indlog, .regs, .log, .queue] P) {s_1} (hP1 : P s_1) : Next P (execAvsNoAnswer s_1) := by
  unfold execAvsNoAnswer
  refine next_keeps ?_
  refine live_keeps (C.mono (by decide)) ?_ ?_
  · exact hP1
  · intro s0 hS1
    refine ite_keeps ?_ ?_
    · exact hS1
    · refine powerEvent_keeps (C.mono (by decide)) ?_
      refine C.upd_pwr (by decide) ?_
      exact hS1

theorem readPower_keeps {P : State → Prop} (C : Keeps [.pwr, .indlog, .regs, .log, .queue] P) {e_1 s_2} (hP2 : P s_2) : P (readPower e_1 s_2) := by
  unfold readPower
  extract_lets -merge -useContext -underBinder +onlyGivenNames s10 s21 tj2
  have h_s10 : P s10 := by
    unfold s10
    split
    · refine setFld_keeps (C.mono (by decide)) ?_
      refine C.upd_pwr (by decide) ?_
      exact hP2
    · exact hP2
  try clear_value s10
  have h_s21 : P s21 := by
    unfold s21
    split
    · extract_lets -merge -useContext -underBinder +onlyGivenNames n3
      refine bumpBy_keeps (C.mono (by decide)) ?_
      refine C.upd_pwr (by decide) ?_
      exact h_s10
    · extract_lets -merge -useContext -underBinder +onlyGivenNames __src4 t5
      have h_t5 : P t5 := by
        unfold t5
        refine setSat_keeps (C.mono (by decide)) ?_
        refine C.upd_pwr (by decide) ?_
        exact h_s10
      try clear_value t5
      refine ite_keeps ?_ ?_
      · refine powerEvent_keeps (C.mono (by decide)) ?_
        exact h_t5
      · exact h_t5
  try clear_value s21
  refine setSat_keeps (C.mono (by decide)) ?_
  refine setSat_keeps (C.mono (by decide)) ?_
  refine setSat_keeps (C.mono (by decide)) ?_
  refine setSat_keeps (C.mono (by decide)) ?_
  exact h_s21

theorem execTjWarn_keeps {P : State → Prop} (C : Keeps [.indlog, .regs, .log, .queue] P) {s_1} (hP1 : P s_1) : Next P (execTjWarn s_1) := by
  unfold execTjWarn
  refine next_keeps ?_
  refine live_keeps (C.mono (by decide)) ?_ ?_
  · exact hP1
  · intro s0 hS1
    refine powerEvent_keeps (C.mono (by decide)) ?_
    refine setFlag_keeps (C.mono (by decide)) ?_
    exact hS1

theorem setRefresh_keeps {P : State → Prop} (C : Keeps [.pwr, .regs] P) {b_1 s_2} (hP2 : P s_2) : P (setRefresh b_1 s_2) := by
  unfold setRefresh
  refine setFlag_keeps (C.mono (by decide)) ?_
  refine C.upd_pwr (by decide) ?_
  exact hP2

theorem execHbmHot_keeps {P : State → Prop} (C : Keeps [.pwr, .regs] P) {s_1} (hP1 : P s_1) : Next P (execHbmHot s_1) := by
  unfold execHbmHot
  refine next_keeps ?_
  refine live_keeps (C.mono (by decide)) ?_ ?_
  · exact hP1
  · intro s0 hS1
    refine setRefresh_keeps (C.mono (by decide)) ?_
    exact hS1

theorem execHbmCool_keeps {P : State → Prop} (C : Keeps [.pwr, .regs] P) {s_1} (hP1 : P s_1) : Next P (execHbmCool s_1) := by
  unfold execHbmCool
  refine next_keeps ?_
  refine live_keeps (C.mono (by decide)) ?_ ?_
  · exact hP1
  · intro s0 hS1
    refine setRefresh_keeps (C.mono (by decide)) ?_
    exact hS1

theorem execHbmWarn_keeps {P : State → Prop} (C : Keeps [.indlog, .regs, .log, .queue] P) {s_1} (hP1 : P s_1) : Next P (execHbmWarn s_1) := by
  unfold execHbmWarn
  refine next_keeps ?_
  refine live_keeps (C.mono (by decide)) ?_ ?_
  · exact hP1
  · intro s0 hS1
    refine powerEvent_keeps (C.mono (by decide)) ?_
    refine setFlag_keeps (C.mono (by decide)) ?_
    exact hS1

theorem execThermalShutdown_keeps {P : State → Prop} (C : Keeps [.pwr, .phase, .raise, .indlog, .regs, .log, .queue, .twin, .sent] P) {s_1} (hP1 : P s_1) : Next P (execThermalShutdown s_1) := by
  unfold execThermalShutdown
  refine next_keeps ?_
  refine live_keeps (C.mono (by decide)) ?_ ?_
  · exact hP1
  · intro s0 hS1
    refine powerOff_keeps (C.mono (by decide)) ?_
    refine fatal_keeps (C.mono (by decide)) ?_
    exact hS1

theorem enterSleep_keeps {P : State → Prop} (C : Keeps [.phase, .raise, .indlog, .regs, .log, .queue, .bus] P) {s_1} (hP1 : P s_1) : P (enterSleep s_1) := by
  unfold enterSleep
  extract_lets -merge -useContext -underBinder +onlyGivenNames s10 __src1 s22
  have h_s10 : P s10 := by
    unfold s10
    refine assertSafeStop_keeps (C.mono (by decide)) ?_
    exact hP1
  try clear_value s10
  have h_s22 : P s22 := by
    unfold s22
    refine C.upd_bus (by decide) ?_
    exact h_s10
  try clear_value s22
  refine powerOff_keeps (C.mono (by decide)) ?_
  refine report_keeps (C.mono (by decide)) ?_
  exact h_s22

theorem execIgnHoldExpiry_keeps {P : State → Prop} (C : Keeps [.pwr, .phase, .raise, .indlog, .regs, .log, .queue, .bus] P) {s_1} (hP1 : P s_1) : Next P (execIgnHoldExpiry s_1) := by
  unfold execIgnHoldExpiry
  refine next_keeps ?_
  refine live_keeps (C.mono (by decide)) ?_ ?_
  · exact hP1
  · intro s0 hS1
    refine ite_keeps ?_ ?_
    · refine enterSleep_keeps (C.mono (by decide)) ?_
      refine C.upd_pwr (by decide) ?_
      exact hS1
    · exact hS1

theorem takeSleep_keeps {P : State → Prop} (C : Keeps [.phase, .raise, .indlog, .regs, .log, .queue, .sent] P) {r_1 s_2} (hP2 : P s_2) : P (takeSleep r_1 s_2) := by
  unfold takeSleep
  refine live_keeps (C.mono (by decide)) ?_ ?_
  · exact hP2
  · intro s0 hS1
    refine wardenWrite_keeps (C.mono (by decide)) ?_ ?_
    · intro s2 hS3
      refine ite_keeps ?_ ?_
      · refine send_keeps (C.mono (by decide)) ?_
        exact hS3
      · refine powerOff_keeps (C.mono (by decide)) ?_
        refine C.upd_raise (by decide) ?_
        exact hS3
    · exact hS1

theorem execSleep_keeps {P : State → Prop} (C : Keeps [.phase, .raise, .indlog, .regs, .log, .queue, .sent] P) {r_1 s_2} (hP2 : P s_2) : Next P (execSleep r_1 s_2) := by
  unfold execSleep
  refine next_keeps ?_
  refine takeSleep_keeps (C.mono (by decide)) ?_
  exact hP2

theorem execWake_keeps {P : State → Prop} (C : Keeps [.pwr, .phase, .regs] P) {src_1 s_2} (hP2 : P s_2) : Next P (execWake src_1 s_2) := by
  unfold execWake
  refine next_keeps ?_
  refine ite_keeps ?_ ?_
  · exact hP2
  · extract_lets -merge -useContext -underBinder +onlyGivenNames s10
    have h_s10 : P s10 := by
      unfold s10
      split
      · refine setFlag_keeps (C.mono (by decide)) ?_
        refine C.upd_pwr (by decide) ?_
        exact hP2
      · refine setFlag_keeps (C.mono (by decide)) ?_
        refine C.upd_pwr (by decide) ?_
        exact hP2
      · exact hP2
    try clear_value s10
    refine ite_keeps ?_ ?_
    · refine setMaskBit_keeps (C.mono (by decide)) ?_
      refine C.upd_phase (by decide) ?_
      exact h_s10
    · exact h_s10

theorem execVbatLoss_keeps {P : State → Prop} (C : Keeps [.indlog, .regs] P) {s} (h : P s) : Next P (execVbatLoss s) := by
  unfold execVbatLoss
  refine next_keeps (showTamper_keeps (C.mono (by decide)) ?_)
  refine C.upd_indlog (by decide) ?_ (Nat.zero_le 64)
  exact setFlag_keeps (C.mono (by decide)) (setFld_keeps (C.mono (by decide)) h)

theorem execVbatPowerUp_keeps {P : State → Prop} (C : Keeps [.phase, .regs, .vbat] P) {s} (h : P s) : Next P (execVbatPowerUp s) := by
  unfold execVbatPowerUp
  refine next_keeps (ite_keeps h ?_)
  extract_lets s1
  have h1 : P s1 := C .vbat (by decide) s h
  clear_value s1
  refine setLastOff_keeps (C.mono (by decide)) (ite_keeps h1 ?_)
  exact C.upd_phase (by decide) h1

theorem execTrimAdjust_keeps {P : State → Prop} (C : Keeps [.regs, .free] P) {s_1} (hP1 : P s_1) : Next P (execTrimAdjust s_1) := by
  unfold execTrimAdjust
  refine next_keeps ?_
  refine live_keeps (C.mono (by decide)) ?_ ?_
  · exact hP1
  · intro s0 hS1
    extract_lets -merge -useContext -underBinder +onlyGivenNames n2
    have h_n2 : P n2.2 := by
      unfold n2
      refine nextFree_keeps (C.mono (by decide)) ?_
      exact hS1
    try clear_value n2
    refine setFld_keeps (C.mono (by decide)) ?_
    exact h_n2

theorem indigoEdge_keeps {P : State → Prop} (C : Keeps [.ind, .regs] P) {s_1} (hP1 : P s_1) : P (indigoEdge s_1) := by
  unfold indigoEdge
  refine ite_keeps ?_ ?_
  · exact hP1
  · extract_lets -merge -useContext -underBinder +onlyGivenNames __src0 s11
    have h_s11 : P s11 := by
      unfold s11
      refine C.upd_ind (by decide) ?_
      exact hP1
    try clear_value s11
    refine ite_keeps ?_ ?_
    · refine setFlag_keeps (C.mono (by decide)) ?_
      exact h_s11
    · exact h_s11

theorem wakeNote_keeps {P : State → Prop} (C : Keeps [.pwr, .indlog, .regs, .log, .queue] P) {s_1} (hP1 : P s_1) : P (wakeNote s_1) := by
  unfold wakeNote
  refine ite_keeps ?_ ?_
  · refine report_keeps (C.mono (by decide)) ?_
    refine C.upd_pwr (by decide) ?_
    exact hP1
  · exact hP1

end Sys2Proof.Machine
end

