-- ==== Sys2Proof/Laws/KeepsFrame.lean ====
section
/-! SUPPORT. Laws/KeepsFrame.lean: which parts of the state the functions of Machine/Emit, Frame, Mgmt, Read, Clock write: for each of
them, that a property which survives changes of those parts survives the function (Laws/Keeps.lean). -/

set_option Elab.async false

set_option linter.unusedVariables false

namespace Sys2Proof.Machine

theorem holdBody_keeps {P : State → Prop} (C : Keeps [.free] P) {s_1} (hP1 : P s_1) : P (holdBody s_1).2 := by
  unfold holdBody
  extract_lets -merge -useContext -underBinder +onlyGivenNames k0 b1
  split
  · try dsimp only
    exact hP1
  · extract_lets -merge -useContext -underBinder +onlyGivenNames f2
    try dsimp only
    refine C.upd_free (by decide) ?_
    exact hP1

theorem takeV_keeps {P : State → Prop} (C : Keeps [.umb, .slv] P) {v_1 s_2} (hP2 : P s_2) : P (takeV v_1 s_2) := by
  unfold takeV
  extract_lets -merge -useContext -underBinder +onlyGivenNames __src0 s11
  have h_s11 : P s11 := by
    unfold s11
    refine C.upd_slv (by decide) ?_
    exact hP2
  try clear_value s11
  refine ite_keeps ?_ ?_
  · refine C.upd_umb (by decide) ?_
    exact h_s11
  · exact h_s11

theorem raiseFloor_keeps {P : State → Prop} (C : Keeps [.indlog, .fuse, .regs, .log, .queue, .boot] P) {s_1} (hP1 : P s_1) : P (raiseFloor s_1) := by
  unfold raiseFloor
  refine ite_keeps ?_ ?_
  · exact hP1
  · extract_lets -merge -useContext -underBinder +onlyGivenNames n0 __src1 s12
    have h_s12 : P s12 := by
      unfold s12
      refine C.upd_boot (by decide) ?_
      exact hP1
    try clear_value s12
    refine ite_keeps ?_ ?_
    · exact h_s12
    · refine report_keeps (C.mono (by decide)) ?_
      refine showFuses_keeps (C.mono (by decide)) ?_
      refine C.upd_fuse (by decide) ?_
      exact h_s12

theorem transmitBundle_keeps {P : State → Prop} (C : Keeps [.regs, .twin, .bus, .sent] P) {b_1 s_2} (hP2 : P s_2) : P (transmitBundle b_1 s_2) := by
  unfold transmitBundle
  extract_lets -merge -useContext -underBinder +onlyGivenNames s10 src1
  have h_s10 : P s10 := by
    unfold s10
    refine ite_keeps ?_ ?_
    · refine queueBundle_keeps (C.mono (by decide)) ?_
      refine ite_keeps ?_ ?_
      · refine bump_keeps (C.mono (by decide)) ?_
        exact hP2
      · exact hP2
    · exact hP2
  try clear_value s10
  refine ite_keeps ?_ ?_
  · refine sendWoad_keeps (C.mono (by decide)) ?_
    exact h_s10
  · exact h_s10

theorem putBundle_keeps {P : State → Prop} (C : Keeps [.regs, .emit, .twin, .bus, .sent] P) {b_1 s_2} (hP2 : P s_2) : P (putBundle b_1 s_2) := by
  unfold putBundle
  refine transmitBundle_keeps (C.mono (by decide)) ?_
  refine send_keeps (C.mono (by decide)) ?_
  refine C.upd_emit (by decide) ?_
  exact hP2

theorem emitBundle_keeps {P : State → Prop} (C : Keeps [.raise, .indlog, .fuse, .regs, .frame, .emit, .umb, .log, .queue, .boot, .slv, .twin, .bus, .sent, .free] P) {s_1} (hP1 : P s_1) : P (emitBundle s_1) := by
  unfold emitBundle
  extract_lets -merge -useContext -underBinder +onlyGivenNames s10
  have h_s10 : P s10 := by
    unfold s10
    refine judgeLapse_keeps (C.mono (by decide)) ?_
    exact hP1
  try clear_value s10
  split
  · extract_lets -merge -useContext -underBinder +onlyGivenNames s21
    have h_s21 : P s21 := by
      unfold s21
      refine releaseHold_keeps (C.mono (by decide)) ?_
      exact h_s10
    try clear_value s21
    refine putBundle_keeps (C.mono (by decide)) ?_
    refine raiseFloor_keeps (C.mono (by decide)) ?_
    refine takeV_keeps (C.mono (by decide)) ?_
    exact h_s21
  · extract_lets -merge -useContext -underBinder +onlyGivenNames __src2 h3
    have h_h3 : P h3.2 := by
      unfold h3
      refine holdBody_keeps (C.mono (by decide)) ?_
      refine takeOver_keeps (C.mono (by decide)) ?_
      refine C.upd_slv (by decide) ?_
      exact h_s10
    try clear_value h3
    refine putBundle_keeps (C.mono (by decide)) ?_
    exact h_h3

theorem tryEmit_keeps {P : State → Prop} (C : Keeps [.raise, .indlog, .fuse, .regs, .frame, .emit, .umb, .log, .queue, .boot, .slv, .twin, .bus, .sent, .free] P) {s_1} (hP1 : P s_1) : P (tryEmit s_1) := by
  unfold tryEmit
  refine ite_keeps ?_ ?_
  · exact hP1
  · extract_lets -merge -useContext -underBinder +onlyGivenNames s10
    have h_s10 : P s10 := by
      unfold s10
      refine chooseBundle_keeps (C.mono (by decide)) ?_
      exact hP1
    try clear_value s10
    split
    · exact h_s10
    · refine emitBundle_keeps (C.mono (by decide)) ?_
      refine phaseDone_keeps (C.mono (by decide)) ?_
      exact h_s10

theorem execMadderVerdict_keeps {P : State → Prop} (C : Keeps [.pwr, .raise, .indlog, .fuse, .regs, .frame, .emit, .num, .cnd, .wld, .umb, .mad, .safe, .restart, .log, .queue, .boot, .mem, .swp, .slv, .twin, .pair, .swap, .sec, .bus, .replay, .sent, .free] P) {twin_1 u_2 s_3} (hP3 : P s_3) : Next P (execMadderVerdict twin_1 u_2 s_3) := by
  unfold execMadderVerdict
  refine next_keeps ?_
  refine fabric_keeps (C.mono (by decide)) ?_ ?_
  · exact hP3
  · intro s0 hS1
    refine ite_keeps ?_ ?_
    · exact hS1
    · refine tryEmit_keeps (C.mono (by decide)) ?_
      refine countOpen_keeps (C.mono (by decide)) ?_ ?_
      · intro ev2 n3 s4 hS5
        refine countDie_keeps (C.mono (by decide)) ?_
        exact hS5
      · refine ite_keeps ?_ ?_
        · refine verdictTwin_keeps (C.mono (by decide)) ?_
          exact hS1
        · refine verdictOwn_keeps (C.mono (by decide)) ?_
          exact hS1

theorem execOffer_keeps {P : State → Prop} (C : Keeps [.raise, .indlog, .fuse, .regs, .frame, .emit, .umb, .log, .queue, .boot, .slv, .twin, .bus, .sent, .free] P) {o_1 s_2} (hP2 : P s_2) : Next P (execOffer o_1 s_2) := by
  unfold execOffer
  refine next_keeps ?_
  refine live_keeps (C.mono (by decide)) ?_ ?_
  · exact hP2
  · intro s0 hS1
    refine tryEmit_keeps (C.mono (by decide)) ?_
    refine takeOffer_keeps (C.mono (by decide)) ?_
    exact hS1

theorem execVerdict_keeps {P : State → Prop} (C : Keeps [.raise, .indlog, .fuse, .regs, .frame, .emit, .umb, .log, .queue, .boot, .slv, .twin, .pair, .bus, .sent, .free] P) {frame_1 subjectTwin_2 v_3 detail_4 s_5} (hP5 : P s_5) : Next P (execVerdict frame_1 subjectTwin_2 v_3 detail_4 s_5) := by
  unfold execVerdict
  refine next_keeps ?_
  refine live_keeps (C.mono (by decide)) ?_ ?_
  · exact hP5
  · intro s0 hS1
    refine tryEmit_keeps (C.mono (by decide)) ?_
    refine takeVerdict_keeps (C.mono (by decide)) ?_
    exact hS1

theorem putRing_keeps {P : State → Prop} (C : Keeps [.indlog, .regs, .wld, .log, .queue, .mem, .data] P) {base_1 i_2 bs_3 s_4} (hP4 : P s_4) : P (putRing base_1 i_2 bs_3 s_4) := by
  unfold putRing
  split
  · refine writeBytes_keeps (C.mono (by decide)) ?_
    exact hP4
  · exact hP4

theorem writeTelemetry_keeps {P : State → Prop} (C : Keeps [.indlog, .regs, .wld, .log, .queue, .mem, .data, .obs, .sent] P) {s_1 d_2} (hP1 : P s_1) : P (writeTelemetry s_1 d_2) := by
  unfold writeTelemetry
  extract_lets -merge -useContext -underBinder +onlyGivenNames t0 i1 s12
  have h_s12 : P s12 := by
    unfold s12
    refine putRing_keeps (C.mono (by decide)) ?_
    refine putRing_keeps (C.mono (by decide)) ?_
    exact hP1
  try clear_value s12
  refine send_keeps (C.mono (by decide)) ?_
  refine C.upd_obs (by decide) ?_
  exact h_s12

theorem showFrame_keeps {P : State → Prop} (C : Keeps [.regs] P) {s_1} (hP1 : P s_1) : P (showFrame s_1) := by
  unfold showFrame
  extract_lets -merge -useContext -underBinder +onlyGivenNames n0 x1 s12 s23 s34 s45 s56 s67 g8
  have h_s12 : P s12 := by
    unfold s12
    refine setFld_keeps (C.mono (by decide)) ?_
    refine setFld_keeps (C.mono (by decide)) ?_
    exact hP1
  try clear_value s12
  have h_s23 : P s23 := by
    unfold s23
    refine foldl_keeps (fun s9 x10 hS11 => ?_) _ _ ?_
    · refine setFld_keeps (C.mono (by decide)) ?_
      exact hS11
    · exact h_s12
  try clear_value s23
  have h_s34 : P s34 := by
    unfold s34
    refine foldl_keeps (fun s12 x13 hS14 => ?_) _ _ ?_
    · refine setFld_keeps (C.mono (by decide)) ?_
      exact hS14
    · exact h_s23
  try clear_value s34
  have h_s45 : P s45 := by
    unfold s45
    refine ite_keeps ?_ ?_
    · refine bump_keeps (C.mono (by decide)) ?_
      exact h_s34
    · exact h_s34
  try clear_value s45
  have h_s56 : P s56 := by
    unfold s56
    refine foldl_keeps (fun s15 x16 hS17 => ?_) _ _ ?_
    · refine setSat_keeps (C.mono (by decide)) ?_
      exact hS17
    · exact h_s45
  try clear_value s56
  have h_s67 : P s67 := by
    unfold s67
    refine setSat_keeps (C.mono (by decide)) ?_
    refine setSat_keeps (C.mono (by decide)) ?_
    exact h_s56
  try clear_value s67
  refine setSat_keeps (C.mono (by decide)) ?_
  refine setSat_keeps (C.mono (by decide)) ?_
  refine setSat_keeps (C.mono (by decide)) ?_
  refine setSat_keeps (C.mono (by decide)) ?_
  exact h_s67

theorem showTiles_keeps {P : State → Prop} (C : Keeps [.regs] P) {s_1} (hP1 : P s_1) : P (showTiles s_1) := by
  unfold showTiles
  refine foldl_keeps (fun s0 x1 hS2 => ?_) _ _ ?_
  · extract_lets -merge -useContext -underBinder +onlyGivenNames c3 t4 s15
    have h_s15 : P s15 := by
      unfold s15
      refine setSat_keeps (C.mono (by decide)) ?_
      refine setSat_keeps (C.mono (by decide)) ?_
      exact hS2
    try clear_value s15
    refine foldl_keeps (fun s6 x7 hS8 => ?_) _ _ ?_
    · refine setSat_keeps (C.mono (by decide)) ?_
      refine setSat_keeps (C.mono (by decide)) ?_
      exact hS8
    · exact h_s15
  · exact hP1

theorem countClean_keeps {P : State → Prop} (C : Keeps [.safe] P) {s_1} (hP1 : P s_1) : P (countClean s_1) := by
  unfold countClean
  refine ite_keeps ?_ ?_
  · exact hP1
  · extract_lets -merge -useContext -underBinder +onlyGivenNames n0
    refine C.upd_safe (by decide) ?_
    exact hP1

theorem countPersist_keeps {P : State → Prop} (C : Keeps [.safe] P) {s_1} (hP1 : P s_1) : P (countPersist s_1) := by
  unfold countPersist
  refine C.upd_safe (by decide) ?_
  exact hP1

theorem releaseSafeStop_keeps {P : State → Prop} (C : Keeps [.stop, .indlog, .regs, .acked, .log, .queue] P) {s_1} (hP1 : P s_1) : P (releaseSafeStop s_1) := by
  unfold releaseSafeStop
  extract_lets -merge -useContext -underBinder +onlyGivenNames __src0 s11
  have h_s11 : P s11 := by
    unfold s11
    refine C.upd_acked (by decide) ?_
    exact hP1
  try clear_value s11
  refine ite_keeps ?_ ?_
  · refine report_keeps (C.mono (by decide)) ?_
    refine setFlag_keeps (C.mono (by decide)) ?_
    refine C.upd_stop (by decide) ?_
    exact h_s11
  · exact h_s11

theorem sendAnswers_keeps {P : State → Prop} (C : Keeps [.indlog, .regs, .cnd, .log, .queue, .sec, .bus, .sent, .free] P) {s_1} (hP1 : P s_1) : P (sendAnswers s_1) := by
  unfold sendAnswers
  refine foldl_keeps (fun s0 x1 hS2 => ?_) _ _ ?_
  · refine sendAnswer_keeps (C.mono (by decide)) ?_
    exact hS2
  · refine C.upd_cnd (by decide) ?_
    exact hP1

theorem endFrame_keeps {P : State → Prop} (C : Keeps [.stop, .indlog, .regs, .cnd, .wld, .safe, .acked, .log, .queue, .mem, .data, .sec, .bus, .obs, .sent, .free] P) {s_1} (hP1 : P s_1) : P (endFrame s_1) := by
  unfold endFrame
  extract_lets -merge -useContext -underBinder +onlyGivenNames s10 s21 s32
  have h_s10 : P s10 := by
    unfold s10
    refine showTiles_keeps (C.mono (by decide)) ?_
    refine showFrame_keeps (C.mono (by decide)) ?_
    exact hP1
  try clear_value s10
  have h_s21 : P s21 := by
    unfold s21
    refine foldl_keeps (fun s3 x4 hS5 => ?_) _ _ ?_
    · refine writeTelemetry_keeps (C.mono (by decide)) ?_
      exact hS5
    · exact h_s10
  try clear_value s21
  have h_s32 : P s32 := by
    unfold s32
    refine releaseSafeStop_keeps (C.mono (by decide)) ?_
    refine countPersist_keeps (C.mono (by decide)) ?_
    refine countClean_keeps (C.mono (by decide)) ?_
    refine sendAnswers_keeps (C.mono (by decide)) ?_
    exact h_s21
  try clear_value s32
  refine showHold_keeps (C.mono (by decide)) ?_
  refine C.upd_bus (by decide) ?_
  exact h_s32

theorem unfinishedVerify_keeps {P : State → Prop} (C : Keeps [.indlog, .regs, .frame, .log, .queue, .twin, .sent] P) {s_1} (hP1 : P s_1) : P (unfinishedVerify s_1) := by
  unfold unfinishedVerify
  refine ite_keeps ?_ ?_
  · refine sendVerdict_keeps (C.mono (by decide)) ?_
    refine doubtEvent_keeps (C.mono (by decide)) ?_
    refine C.upd_frame (by decide) ?_
    exact hP1
  · exact hP1

theorem wardenOverrun_keeps {P : State → Prop} (C : Keeps [.indlog, .regs, .frame, .log, .queue] P) {s_1} (hP1 : P s_1) : P (wardenOverrun s_1) := by
  unfold wardenOverrun
  refine doubtEvent_keeps (C.mono (by decide)) ?_
  exact hP1

theorem execVerifyHardStop_keeps {P : State → Prop} (C : Keeps [.indlog, .regs, .frame, .stopped, .cnd, .safe, .log, .queue, .mem, .swp, .twin, .sec, .bus, .sent, .free] P) {digestLate_1 s_2} (hP2 : P s_2) : Next P (execVerifyHardStop digestLate_1 s_2) := by
  unfold execVerifyHardStop
  refine next_keeps ?_
  refine live_keeps (C.mono (by decide)) ?_ ?_
  · exact hP2
  · intro s0 hS1
    refine atStop_keeps (C.mono (by decide)) ?_ ?_
    · intro s2 hS3
      extract_lets -merge -useContext -underBinder +onlyGivenNames s14
      have h_s14 : P s14 := by
        unfold s14
        refine phaseStop_keeps (C.mono (by decide)) ?_
        refine unfinishedVerify_keeps (C.mono (by decide)) ?_
        refine ite_keeps ?_ ?_
        · refine wardenOverrun_keeps (C.mono (by decide)) ?_
          exact hS3
        · exact hS3
      try clear_value s14
      refine ite_keeps ?_ ?_
      · refine chooseBundle_keeps (C.mono (by decide)) ?_
        exact h_s14
      · exact h_s14
    · exact hS1

theorem emitLast_keeps {P : State → Prop} (C : Keeps [.raise, .indlog, .fuse, .regs, .frame, .emit, .umb, .log, .queue, .boot, .slv, .twin, .bus, .sent, .free] P) {late_1 s_2} (hP2 : P s_2) : P (emitLast late_1 s_2) := by
  unfold emitLast
  refine ite_keeps ?_ ?_
  · exact hP2
  · refine ite_keeps ?_ ?_
    · refine emitBundle_keeps (C.mono (by decide)) ?_
      refine wardenOverrun_keeps (C.mono (by decide)) ?_
      exact hP2
    · refine emitBundle_keeps (C.mono (by decide)) ?_
      refine phaseDone_keeps (C.mono (by decide)) ?_
      exact hP2

theorem closeFrame_keeps {P : State → Prop} (C : Keeps [.raise, .stop, .indlog, .fuse, .regs, .frame, .emit, .cnd, .wld, .umb, .safe, .acked, .log, .queue, .boot, .mem, .data, .swp, .slv, .twin, .sec, .bus, .obs, .sent, .free] P) {late_1 s_2} (hP2 : P s_2) : P (closeFrame late_1 s_2) := by
  unfold closeFrame
  refine endFrame_keeps (C.mono (by decide)) ?_
  refine emitLast_keeps (C.mono (by decide)) ?_
  refine phaseStop_keeps (C.mono (by decide)) ?_
  exact hP2

theorem execEmitHardStop_keeps {P : State → Prop} (C : Keeps [.raise, .stop, .indlog, .fuse, .regs, .frame, .stopped, .emit, .cnd, .wld, .umb, .safe, .acked, .log, .queue, .boot, .mem, .data, .swp, .slv, .twin, .sec, .bus, .obs, .sent, .free] P) {late_1 s_2} (hP2 : P s_2) : Next P (execEmitHardStop late_1 s_2) := by
  unfold execEmitHardStop
  refine next_keeps ?_
  refine live_keeps (C.mono (by decide)) ?_ ?_
  · exact hP2
  · intro s0 hS1
    refine atStop_keeps (C.mono (by decide)) ?_ ?_
    · intro s2 hS3
      refine closeFrame_keeps (C.mono (by decide)) ?_
      exact hS3
    · exact hS1

theorem sendRunning_keeps {P : State → Prop} (C : Keeps [.regs, .umb, .slv, .twin, .bus, .sent] P) {s_1} (hP1 : P s_1) : P (sendRunning s_1) := by
  unfold sendRunning
  split
  · exact hP1
  · refine ite_keeps ?_ ?_
    · exact hP1
    · extract_lets -merge -useContext -underBinder +onlyGivenNames s10
      have h_s10 : P s10 := by
        unfold s10
        refine transmitBundle_keeps (C.mono (by decide)) ?_
        exact hP1
      try clear_value s10
      split
      · refine ite_keeps ?_ ?_
        · refine takeV_keeps (C.mono (by decide)) ?_
          exact h_s10
        · exact h_s10
      · exact h_s10

theorem execAbdicate_keeps {P : State → Prop} (C : Keeps [.indlog, .regs, .umb, .log, .queue, .slv, .twin, .pair, .bus, .sent] P) {_frame_1 _code_2 s_3} (hP3 : P s_3) : Next P (execAbdicate _frame_1 _code_2 s_3) := by
  unfold execAbdicate
  refine next_keeps ?_
  refine live_keeps (C.mono (by decide)) ?_ ?_
  · exact hP3
  · intro s0 hS1
    refine ite_keeps ?_ ?_
    · refine sendRunning_keeps (C.mono (by decide)) ?_
      refine takeoverNow_keeps (C.mono (by decide)) ?_
      exact hS1
    · exact hS1

theorem execTakeoverSilence_keeps {P : State → Prop} (C : Keeps [.indlog, .regs, .umb, .log, .queue, .slv, .twin, .pair, .bus, .sent] P) {s_1} (hP1 : P s_1) : Next P (execTakeoverSilence s_1) := by
  unfold execTakeoverSilence
  refine next_keeps ?_
  refine live_keeps (C.mono (by decide)) ?_ ?_
  · exact hP1
  · intro s0 hS1
    extract_lets -merge -useContext -underBinder +onlyGivenNames m2
    refine ite_keeps ?_ ?_
    · refine sendRunning_keeps (C.mono (by decide)) ?_
      refine takeoverNow_keeps (C.mono (by decide)) ?_
      exact hS1
    · exact hS1

theorem newFrame_keeps {P : State → Prop} (C : Keeps [.regs, .frame, .num] P) {num_1 edge_2 s_3} (hP3 : P s_3) : P (newFrame num_1 edge_2 s_3) := by
  unfold newFrame
  extract_lets -merge -useContext -underBinder +onlyGivenNames carry0 s01 __src2 s13 s24
  have h_s01 : P s01 := by
    unfold s01
    refine setFld_keeps (C.mono (by decide)) ?_
    refine ite_keeps ?_ ?_
    · refine setFld_keeps (C.mono (by decide)) ?_
      exact hP3
    · exact hP3
  try clear_value s01
  have h_s13 : P s13 := by
    unfold s13
    refine C.upd_num (by decide) ?_
    exact h_s01
  try clear_value s13
  have h_s24 : P s24 := by
    unfold s24
    refine foldl_keeps (fun s5 x6 hS7 => ?_) _ _ ?_
    · refine ite_keeps ?_ ?_
      · exact hS7
      · refine ite_keeps ?_ ?_
        · refine mixFrame_keeps (C.mono (by decide)) ?_
          exact hS7
        · refine markDoubt_keeps (C.mono (by decide)) ?_
          exact hS7
    · exact h_s13
  try clear_value s24
  refine setFld_keeps (C.mono (by decide)) ?_
  refine setFld_keeps (C.mono (by decide)) ?_
  refine setFld_keeps (C.mono (by decide)) ?_
  exact h_s24

theorem placeOrigin_keeps {P : State → Prop} (C : Keeps [.regs, .wld, .boot] P) {s_1} (hP1 : P s_1) : P (placeOrigin s_1) := by
  unfold placeOrigin
  refine ite_keeps ?_ ?_
  · exact hP1
  · extract_lets -merge -useContext -underBinder +onlyGivenNames e0 move1
    refine bootStep_keeps (C.mono (by decide)) ?_
    refine C.upd_wld_boot (by decide) ?_
    exact hP1

theorem eccFailure_keeps {P : State → Prop} (C : Keeps [.pwr, .raise, .indlog, .regs, .frame, .num, .cnd, .wld, .safe, .restart, .log, .queue, .mem, .swp, .sel, .twin, .swap, .sec, .bus, .replay, .sent, .free] P) {s_1 p_2} (hP1 : P s_1) : P (eccFailure s_1 p_2) := by
  unfold eccFailure
  extract_lets -merge -useContext -underBinder +onlyGivenNames rec'0
  have h_rec'0 : ∀ u1 sev2 s3, P s3 → P (rec'0 u1 sev2 s3) := by
    intro u1 sev2 s3 hS4
    unfold rec'0
    refine report_keeps (C.mono (by decide)) ?_
    exact hS4
  clear_value rec'0
  split
  · refine showSched_keeps (C.mono (by decide)) ?_
    refine takeOut_keeps (C.mono (by decide)) ?_
    refine slotLost_keeps (C.mono (by decide)) ?_
    refine h_rec'0 _ _ _ ?_
    exact hP1
  · refine showInfService_keeps (C.mono (by decide)) ?_
    refine showSched_keeps (C.mono (by decide)) ?_
    refine takeOut_keeps (C.mono (by decide)) ?_
    refine slotLost_keeps (C.mono (by decide)) ?_
    refine h_rec'0 _ _ _ ?_
    exact hP1
  · refine triggerRestart_keeps (C.mono (by decide)) ?_
    refine report_keeps (C.mono (by decide)) ?_
    refine C.upd_sel (by decide) ?_
    exact hP1
  · refine ite_keeps ?_ ?_
    · refine fatal_keeps (C.mono (by decide)) ?_
      exact hP1
    · refine triggerRestart_keeps (C.mono (by decide)) ?_
      refine h_rec'0 _ _ _ ?_
      refine C.upd_safe (by decide) ?_
      exact hP1

theorem fabricEdge_keeps {P : State → Prop} (C : Keeps [.indlog, .regs, .ing, .frame, .cnd, .wld, .epoch, .held, .mad, .safe, .log, .queue, .inf, .mem, .data, .swp, .sel, .slv, .sec, .bus, .sent, .free] P) {s_1} (hP1 : P s_1) : P (fabricEdge s_1) := by
  unfold fabricEdge
  extract_lets -merge -useContext -underBinder +onlyGivenNames t0 s11 s22 s33
  have h_s11 : P s11 := by
    unfold s11
    refine ingressEdge_keeps (C.mono (by decide)) ?_
    refine worldEdge_keeps (C.mono (by decide)) ?_
    exact hP1
  try clear_value s11
  have h_s22 : P s22 := by
    unfold s22
    refine infEdge_keeps (C.mono (by decide)) ?_
    refine releaseEdge_keeps (C.mono (by decide)) ?_
    refine memEdge_keeps (C.mono (by decide)) ?_
    exact h_s11
  try clear_value s22
  have h_s33 : P s33 := by
    unfold s33
    refine madderEdge_keeps (C.mono (by decide)) ?_
    refine solverEdge_keeps (C.mono (by decide)) ?_
    refine selectEdge_keeps (C.mono (by decide)) ?_
    refine sweepEdge_keeps (C.mono (by decide)) ?_
    exact h_s22
  try clear_value s33
  refine ite_keeps ?_ ?_
  · exact h_s33
  · refine edgeFlags_keeps (C.mono (by decide)) ?_
    refine opsEdge_keeps (C.mono (by decide)) ?_
    exact h_s33

theorem hearStreams_keeps {P : State → Prop} (C : Keeps [.ing] P) {s_1} (hP1 : P s_1) : P (hearStreams s_1) := by
  unfold hearStreams
  refine foldl_keeps (fun s0 x1 hS2 => ?_) _ _ ?_
  · refine ite_keeps ?_ ?_
    · refine modStream_keeps (C.mono (by decide)) ?_
      exact hS2
    · exact hS2
  · exact hP1

theorem liveEdge_keeps {P : State → Prop} (C : Keeps [.time, .pwr, .raise, .stop, .ind, .indlog, .fuse, .regs, .ing, .frame, .emit, .num, .cnd, .wld, .epoch, .held, .umb, .mad, .safe, .restart, .acked, .log, .queue, .boot, .inf, .mem, .data, .swp, .sel, .slv, .twin, .pair, .swap, .sec, .bus, .replay, .obs, .sent, .free] P) {r_1 s_2} (hP2 : P s_2) : P (liveEdge r_1 s_2) := by
  unfold liveEdge
  extract_lets -merge -useContext -underBinder +onlyGivenNames adopt0 sc1 s02 __src3 s14 s25 open'6 s37 swapped8 s49 s510 s611
  have h_sc1 : P sc1 := by
    unfold sc1
    refine ite_keeps ?_ ?_
    · refine closeFrame_keeps (C.mono (by decide)) ?_
      exact hP2
    · exact hP2
  try clear_value sc1
  have h_s02 : P s02 := by
    unfold s02
    refine ite_keeps ?_ ?_
    · refine countXlate_keeps (C.mono (by decide)) ?_
      exact h_sc1
    · exact h_sc1
  try clear_value s02
  have h_s14 : P s14 := by
    unfold s14
    refine placeOrigin_keeps (C.mono (by decide)) ?_
    refine newFrame_keeps (C.mono (by decide)) ?_
    refine C.upd_twin (by decide) ?_
    exact h_s02
  try clear_value s14
  have h_s25 : P s25 := by
    unfold s25
    refine completeRestart_keeps (C.mono (by decide)) ?_
    exact h_s14
  try clear_value s25
  have h_s37 : P s37 := by
    unfold s37
    refine swapEdge_keeps (C.mono (by decide)) ?_
    exact h_s25
  try clear_value s37
  have h_s49 : P s49 := by
    unfold s49
    refine fabricEdge_keeps (C.mono (by decide)) ?_
    refine kermesEdge_keeps (C.mono (by decide)) ?_
    exact h_s37
  try clear_value s49
  have h_s510 : P s510 := by
    unfold s510
    refine foldl_keeps (fun s12 x13 hS14 => ?_) _ _ ?_
    · refine eccFailure_keeps (C.mono (by decide)) ?_
      exact hS14
    · exact h_s49
  try clear_value s510
  have h_s611 : P s611 := by
    unfold s611
    refine openRecentre_keeps (C.mono (by decide)) ?_
    refine reloadEdge_keeps (C.mono (by decide)) ?_
    refine twinEdge_keeps (C.mono (by decide)) ?_
    exact h_s510
  try clear_value s611
  refine showHold_keeps (C.mono (by decide)) ?_
  refine statusEdge_keeps (C.mono (by decide)) ?_
  refine wakeNote_keeps (C.mono (by decide)) ?_
  refine indigoEdge_keeps (C.mono (by decide)) ?_
  refine lapseClock_keeps (C.mono (by decide)) ?_
  refine readPower_keeps (C.mono (by decide)) ?_
  refine ite_keeps ?_ ?_
  · refine hearStreams_keeps (C.mono (by decide)) ?_
    exact h_s611
  · exact h_s611

theorem replayEdge_keeps {P : State → Prop} (C : Keeps [.pwr, .ind, .indlog, .regs, .log, .queue, .bus, .replay, .sent] P) {r_1 s_2} (hP2 : P s_2) : P (replayEdge r_1 s_2) := by
  unfold replayEdge
  refine statusEdge_keeps (C.mono (by decide)) ?_
  refine indigoEdge_keeps (C.mono (by decide)) ?_
  refine readPower_keeps (C.mono (by decide)) ?_
  refine C.upd_replay (by decide) ?_
  exact hP2

theorem execFrameEdge_keeps {P : State → Prop} (C : Keeps [.time, .pwr, .raise, .stop, .ind, .indlog, .fuse, .regs, .ing, .frame, .emit, .num, .cnd, .wld, .epoch, .held, .umb, .mad, .safe, .restart, .acked, .log, .queue, .boot, .inf, .mem, .data, .swp, .sel, .slv, .twin, .pair, .swap, .sec, .bus, .replay, .obs, .sent, .free] P) {r_1 s_2} (hP2 : P s_2) : Next P (execFrameEdge r_1 s_2) := by
  unfold execFrameEdge
  refine next_keeps ?_
  refine live_keeps (C.mono (by decide)) ?_ ?_
  · exact hP2
  · intro s0 hS1
    refine ite_keeps ?_ ?_
    · exact hS1
    · refine ite_keeps ?_ ?_
      · refine replayEdge_keeps (C.mono (by decide)) ?_
        exact hS1
      · refine liveEdge_keeps (C.mono (by decide)) ?_
        exact hS1

theorem openReplay_keeps {P : State → Prop} (C : Keeps [.pwr, .raise, .indlog, .regs, .ing, .num, .cnd, .wld, .epoch, .umb, .log, .queue, .inf, .mem, .data, .swp, .sel, .slv, .twin, .swap, .sec, .bus, .replay, .sent, .free] P) {s_1} (hP1 : P s_1) : P (openReplay s_1) := by
  unfold openReplay
  extract_lets -merge -useContext -underBinder +onlyGivenNames __src0 s11 s22 __src3 __src4 s35
  have h_s11 : P s11 := by
    unfold s11
    refine assertSafeStop_keeps (C.mono (by decide)) ?_
    refine C.upd_bus (by decide) ?_
    exact hP1
  try clear_value s11
  have h_s22 : P s22 := by
    unfold s22
    refine reloadFabric_keeps (C.mono (by decide)) ?_
    refine wipeFabric_keeps (C.mono (by decide)) ?_
    exact h_s11
  try clear_value s22
  have h_s35 : P s35 := by
    unfold s35
    refine C.upd_num_umb_replay (by decide) ?_
    exact h_s22
  try clear_value s35
  refine sendAnswers_keeps (C.mono (by decide)) ?_
  refine showHold_keeps (C.mono (by decide)) ?_
  refine setFld_keeps (C.mono (by decide)) ?_
  refine setFld_keeps (C.mono (by decide)) ?_
  exact h_s35

theorem takeReplayEnter_keeps {P : State → Prop} (C : Keeps [.pwr, .raise, .indlog, .regs, .ing, .num, .cnd, .wld, .epoch, .umb, .log, .queue, .inf, .mem, .data, .swp, .sel, .slv, .twin, .swap, .sec, .bus, .replay, .sent, .free] P) {r_1 s_2} (hP2 : P s_2) : P (takeReplayEnter r_1 s_2) := by
  unfold takeReplayEnter
  refine live_keeps (C.mono (by decide)) ?_ ?_
  · exact hP2
  · intro s0 hS1
    refine supWrite_keeps (C.mono (by decide)) ?_ ?_
    · intro s2 hS3
      split
      · refine setFlag_keeps (C.mono (by decide)) ?_
        refine setFld_keeps (C.mono (by decide)) ?_
        exact hS3
      · refine openReplay_keeps (C.mono (by decide)) ?_
        exact hS3
    · exact hS1

theorem execReplayEnter_keeps {P : State → Prop} (C : Keeps [.pwr, .raise, .indlog, .regs, .ing, .num, .cnd, .wld, .epoch, .umb, .log, .queue, .inf, .mem, .data, .swp, .sel, .slv, .twin, .swap, .sec, .bus, .replay, .sent, .free] P) {r_1 s_2} (hP2 : P s_2) : Next P (execReplayEnter r_1 s_2) := by
  unfold execReplayEnter
  refine next_keeps ?_
  refine takeReplayEnter_keeps (C.mono (by decide)) ?_
  exact hP2

theorem takeReplayExit_keeps {P : State → Prop} (C : Keeps [.indlog, .regs, .num, .cnd, .restart, .log, .queue, .mem, .sec, .bus, .replay, .sent, .free] P) {r_1 s_2} (hP2 : P s_2) : P (takeReplayExit r_1 s_2) := by
  unfold takeReplayExit
  refine live_keeps (C.mono (by decide)) ?_ ?_
  · exact hP2
  · intro s0 hS1
    refine supWrite_keeps (C.mono (by decide)) ?_ ?_
    · intro s2 hS3
      refine ite_keeps ?_ ?_
      · exact hS3
      · extract_lets -merge -useContext -underBinder +onlyGivenNames __src4 __src5 __src6 s17
        have h___src4 : P __src4 := by
          unfold __src4
          refine haltFabric_keeps (C.mono (by decide)) ?_
          exact hS3
        have h_s17 : P s17 := by
          unfold s17
          refine C.upd_num_replay (by decide) ?_
          exact h___src4
        try clear_value s17
        refine setFld_keeps (C.mono (by decide)) ?_
        refine setFlag_keeps (C.mono (by decide)) ?_
        refine C.upd_restart (by decide) ?_
        exact h_s17
    · exact hS1

theorem execReplayExit_keeps {P : State → Prop} (C : Keeps [.indlog, .regs, .num, .cnd, .restart, .log, .queue, .mem, .sec, .bus, .replay, .sent, .free] P) {r_1 s_2} (hP2 : P s_2) : Next P (execReplayExit r_1 s_2) := by
  unfold execReplayExit
  refine next_keeps ?_
  refine takeReplayExit_keeps (C.mono (by decide)) ?_
  exact hP2

theorem replaySample_keeps {P : State → Prop} (C : Keeps [.indlog, .regs, .ing, .cnd, .wld, .log, .queue, .mem, .data] P) {edge_1 s_2 x_3} (hP2 : P s_2) : P (replaySample edge_1 s_2 x_3) := by
  unfold replaySample
  refine ite_keeps ?_ ?_
  · refine bump_keeps (C.mono (by decide)) ?_
    exact hP2
  · refine ite_keeps ?_ ?_
    · refine takeIn_keeps (C.mono (by decide)) ?_
      exact hP2
    · exact hP2

theorem execReplayUnit_keeps {P : State → Prop} (C : Keeps [.indlog, .regs, .ing, .frame, .num, .cnd, .wld, .epoch, .held, .mad, .safe, .log, .queue, .inf, .mem, .data, .swp, .sel, .slv, .sec, .bus, .replay, .sent, .free] P) {bytes_1 s_2} (hP2 : P s_2) : Next P (execReplayUnit bytes_1 s_2) := by
  unfold execReplayUnit
  refine next_keeps ?_
  refine live_keeps (C.mono (by decide)) ?_ ?_
  · exact hP2
  · intro s0 hS1
    refine ite_keeps ?_ ?_
    · exact hS1
    · extract_lets -merge -useContext -underBinder +onlyGivenNames edge2 __src3 s14
      have h_s14 : P s14 := by
        unfold s14
        refine newFrame_keeps (C.mono (by decide)) ?_
        refine C.upd_replay (by decide) ?_
        exact hS1
      try clear_value s14
      refine fabricEdge_keeps (C.mono (by decide)) ?_
      refine foldl_keeps (fun s5 x6 hS7 => ?_) _ _ ?_
      · refine replaySample_keeps (C.mono (by decide)) ?_
        exact hS7
      · exact h_s14

theorem execReplayFrameEnd_keeps {P : State → Prop} (C : Keeps [.raise, .stop, .indlog, .fuse, .regs, .frame, .emit, .cnd, .wld, .umb, .safe, .acked, .log, .queue, .boot, .mem, .data, .slv, .twin, .sec, .bus, .replay, .obs, .sent, .free] P) {s_1} (hP1 : P s_1) : Next P (execReplayFrameEnd s_1) := by
  unfold execReplayFrameEnd
  refine next_keeps ?_
  refine live_keeps (C.mono (by decide)) ?_ ?_
  · exact hP1
  · intro s0 hS1
    refine ite_keeps ?_ ?_
    · exact hS1
    · extract_lets -merge -useContext -underBinder +onlyGivenNames s12 unit3 s24
      have h_s12 : P s12 := by
        unfold s12
        refine emitLast_keeps (C.mono (by decide)) ?_
        refine ite_keeps ?_ ?_
        · refine chooseBundle_keeps (C.mono (by decide)) ?_
          exact hS1
        · exact hS1
      try clear_value s12
      have h_s24 : P s24 := by
        unfold s24
        refine endFrame_keeps (C.mono (by decide)) ?_
        exact h_s12
      try clear_value s24
      refine bump_keeps (C.mono (by decide)) ?_
      refine sendUnit_keeps (C.mono (by decide)) ?_
      refine send_keeps (C.mono (by decide)) ?_
      refine C.upd_replay (by decide) ?_
      exact h_s24

theorem execMutexForce_keeps {P : State → Prop} (C : Keeps [.arb] P) {resource_1 portA_2 portB_3 s_4} (hP4 : P s_4) : Next P (execMutexForce resource_1 portA_2 portB_3 s_4) := by
  unfold execMutexForce
  refine next_keeps ?_
  refine live_keeps (C.mono (by decide)) ?_ ?_
  · exact hP4
  · intro s0 hS1
    refine C.upd_arb (by decide) ?_
    exact hS1

theorem execMgmtAccessTimeout_keeps {P : State → Prop} (C : Keeps [.indlog, .regs, .log, .queue, .sent] P) {r_1 isRead_2 addr_3 s_4} (hP4 : P s_4) : Next P (execMgmtAccessTimeout r_1 isRead_2 addr_3 s_4) := by
  unfold execMgmtAccessTimeout
  refine next_keeps ?_
  refine live_keeps (C.mono (by decide)) ?_ ?_
  · exact hP4
  · intro s0 hS1
    refine send_keeps (C.mono (by decide)) ?_
    refine report_keeps (C.mono (by decide)) ?_
    exact hS1

theorem clearCounter_keeps {P : State → Prop} (C : Keeps [.regs] P) {k_1 s_2} (hP2 : P s_2) : P (clearCounter k_1 s_2) := by
  unfold clearCounter
  split
  · refine setFld_keeps (C.mono (by decide)) ?_
    refine setFld_keeps (C.mono (by decide)) ?_
    exact hP2
  · refine setFld_keeps (C.mono (by decide)) ?_
    refine setFld_keeps (C.mono (by decide)) ?_
    exact hP2
  · refine setFld_keeps (C.mono (by decide)) ?_
    refine setFld_keeps (C.mono (by decide)) ?_
    exact hP2
  · refine setFld_keeps (C.mono (by decide)) ?_
    refine setFld_keeps (C.mono (by decide)) ?_
    exact hP2

theorem execCounterClear_keeps {P : State → Prop} (C : Keeps [.indlog, .regs, .log, .queue, .sent] P) {r_1 ctr_2 s_3} (hP3 : P s_3) : Next P (execCounterClear r_1 ctr_2 s_3) := by
  unfold execCounterClear
  refine next_keeps ?_
  refine live_keeps (C.mono (by decide)) ?_ ?_
  · exact hP3
  · intro s0 hS1
    refine ite_keeps ?_ ?_
    · refine clearCounter_keeps (C.mono (by decide)) ?_
      exact hS1
    · refine refuseAccess_keeps (C.mono (by decide)) ?_
      exact hS1

theorem writeAction_keeps {P : State → Prop} (C : Keeps [.pwr, .phase, .raise, .ind, .indlog, .regs, .ing, .frame, .num, .cnd, .wld, .epoch, .umb, .safe, .restart, .log, .queue, .inf, .mem, .data, .swp, .sel, .slv, .twin, .swap, .sec, .bus, .replay, .sent, .free] P) {r_1 reg_2 ix_3 a_4 v_5 s_6} (hP6 : P s_6) : P (writeAction r_1 reg_2 ix_3 a_4 v_5 s_6) := by
  unfold writeAction
  split
  · refine ite_keeps ?_ ?_
    · refine clearCounter_keeps (C.mono (by decide)) ?_
      exact hP6
    · exact hP6
  · refine ite_keeps ?_ ?_
    · extract_lets -merge -useContext -underBinder +onlyGivenNames s10
      have h_s10 : P s10 := by
        unfold s10
        refine ite_keeps ?_ ?_
        · refine takeSafeCtlStop_keeps (C.mono (by decide)) ?_
          exact hP6
        · exact hP6
      try clear_value s10
      refine ite_keeps ?_ ?_
      · refine takeSafeCtlRestart_keeps (C.mono (by decide)) ?_
        exact h_s10
      · exact h_s10
    · refine ite_keeps ?_ ?_
      · refine takeStwQuarWrite_keeps (C.mono (by decide)) ?_
        exact hP6
      · refine ite_keeps ?_ ?_
        · refine takeSwpStwRelease_keeps (C.mono (by decide)) ?_
          exact hP6
        · refine ite_keeps ?_ ?_
          · refine foldl_keeps (fun s1 x2 hS3 => ?_) _ _ ?_
            · refine ite_keeps ?_ ?_
              · refine takeInfRelease_keeps (C.mono (by decide)) ?_
                exact hS3
              · exact hS3
            · exact hP6
          · refine ite_keeps ?_ ?_
            · refine takeSlvRelease_keeps (C.mono (by decide)) ?_
              exact hP6
            · refine ite_keeps ?_ ?_
              · extract_lets -merge -useContext -underBinder +onlyGivenNames s14
                have h_s14 : P s14 := by
                  unfold s14
                  refine ite_keeps ?_ ?_
                  · refine takeSwapRequest_keeps (C.mono (by decide)) ?_
                    exact hP6
                  · exact hP6
                try clear_value s14
                refine ite_keeps ?_ ?_
                · refine takeSwapCancel_keeps (C.mono (by decide)) ?_
                  exact h_s14
                · exact h_s14
              · refine ite_keeps ?_ ?_
                · extract_lets -merge -useContext -underBinder +onlyGivenNames s15
                  have h_s15 : P s15 := by
                    unfold s15
                    refine ite_keeps ?_ ?_
                    · refine takeReplayEnter_keeps (C.mono (by decide)) ?_
                      exact hP6
                    · exact hP6
                  try clear_value s15
                  refine ite_keeps ?_ ?_
                  · refine takeReplayExit_keeps (C.mono (by decide)) ?_
                    exact h_s15
                  · exact h_s15
                · refine ite_keeps ?_ ?_
                  · refine ite_keeps ?_ ?_
                    · refine takeKxGo_keeps (C.mono (by decide)) ?_
                      exact hP6
                    · exact hP6
                  · refine ite_keeps ?_ ?_
                    · refine ite_keeps ?_ ?_
                      · refine takeLcGo_keeps (C.mono (by decide)) ?_
                        exact hP6
                      · exact hP6
                    · refine ite_keeps ?_ ?_
                      · refine ite_keeps ?_ ?_
                        · refine takeWatchdogKick_keeps (C.mono (by decide)) ?_
                          exact hP6
                        · exact hP6
                      · refine ite_keeps ?_ ?_
                        · refine ite_keeps ?_ ?_
                          · refine takeSleep_keeps (C.mono (by decide)) ?_
                            exact hP6
                          · exact hP6
                        · exact hP6

theorem storeReg_keeps {P : State → Prop} (C : Keeps [.pwr, .phase, .raise, .ind, .indlog, .regs, .ing, .frame, .num, .cnd, .wld, .epoch, .umb, .safe, .restart, .log, .queue, .inf, .mem, .data, .swp, .sel, .slv, .twin, .swap, .sec, .bus, .replay, .sent, .free] P) {r_1 reg_2 ix_3 a_4 v_5 s_6} (hP6 : P s_6) : P (storeReg r_1 reg_2 ix_3 a_4 v_5 s_6) := by
  unfold storeReg
  refine ite_keeps ?_ ?_
  · exact hP6
  · refine ite_keeps ?_ ?_
    · refine writeAction_keeps (C.mono (by decide)) ?_
      exact hP6
    · refine ite_keeps ?_ ?_
      · refine takeVcoreTargetWrite_keeps (C.mono (by decide)) ?_
        exact hP6
      · extract_lets -merge -useContext -underBinder +onlyGivenNames s10 s21
        have h_s10 : P s10 := by
          unfold s10
          refine setReg_keeps (C.mono (by decide)) ?_
          exact hP6
        try clear_value s10
        have h_s21 : P s21 := by
          unfold s21
          refine ite_keeps ?_ ?_
          · refine disableRings_keeps (C.mono (by decide)) ?_
            exact h_s10
          · exact h_s10
        try clear_value s21
        refine writeAction_keeps (C.mono (by decide)) ?_
        exact h_s21

theorem stageWrite_keeps {P : State → Prop} (C : Keeps [.indlog, .regs, .log, .queue, .sent] P) {r_1 reg_2 ix_3 sub_4 a_5 v_6 s_7} (hP7 : P s_7) : P (stageWrite r_1 reg_2 ix_3 sub_4 a_5 v_6 s_7) := by
  unfold stageWrite
  refine ite_keeps ?_ ?_
  · refine refuseAccess_keeps (C.mono (by decide)) ?_
    exact hP7
  · refine ite_keeps ?_ ?_
    · refine send_keeps (C.mono (by decide)) ?_
      refine report_keeps (C.mono (by decide)) ?_
      exact hP7
    · refine setReg_keeps (C.mono (by decide)) ?_
      exact hP7

theorem takeRegisterWrite_keeps {P : State → Prop} (C : Keeps [.pwr, .phase, .raise, .ind, .indlog, .regs, .ing, .frame, .num, .cnd, .wld, .epoch, .umb, .safe, .restart, .log, .queue, .boot, .inf, .mem, .data, .swp, .sel, .slv, .twin, .swap, .sec, .bus, .replay, .sent, .free] P) {r_1 addr_2 val_3 s_4} (hP4 : P s_4) : P (takeRegisterWrite r_1 addr_2 val_3 s_4) := by
  unfold takeRegisterWrite
  refine live_keeps (C.mono (by decide)) ?_ ?_
  · exact hP4
  · intro s0 hS1
    split
    · refine ite_keeps ?_ ?_
      · refine refuseAccess_keeps (C.mono (by decide)) ?_
        exact hS1
      · refine ite_keeps ?_ ?_
        · refine unprescribedWrite_keeps (C.mono (by decide)) ?_
          exact hS1
        · refine storeReg_keeps (C.mono (by decide)) ?_
          exact hS1
    · split
      · refine stageWrite_keeps (C.mono (by decide)) ?_
        exact hS1
      · refine refuseAccess_keeps (C.mono (by decide)) ?_
        exact hS1

theorem execRegisterWrite_keeps {P : State → Prop} (C : Keeps [.pwr, .phase, .raise, .ind, .indlog, .regs, .ing, .frame, .num, .cnd, .wld, .epoch, .umb, .safe, .restart, .log, .queue, .boot, .inf, .mem, .data, .swp, .sel, .slv, .twin, .swap, .sec, .bus, .replay, .sent, .free] P) {r_1 addr_2 val_3 s_4} (hP4 : P s_4) : Next P (execRegisterWrite r_1 addr_2 val_3 s_4) := by
  unfold execRegisterWrite
  refine next_keeps ?_
  refine takeRegisterWrite_keeps (C.mono (by decide)) ?_
  exact hP4

theorem importChunk_keeps {P : State → Prop} (C : Keeps [.regs, .wld] P) {first_1 final_2 c_3 s_4} (hP4 : P s_4) : Opt P (importChunk first_1 final_2 c_3 s_4) := by
  unfold importChunk
  extract_lets -merge -useContext -underBinder +onlyGivenNames base0 prior1
  refine opt_ite ?_ ?_
  · refine opt_map (fun y => ?_)
    refine showOrigin_keeps (C.mono (by decide)) ?_
    refine C.upd_wld (by decide) ?_
    exact hP4
  · refine opt_some ?_
    refine C.upd_wld (by decide) ?_
    exact hP4

theorem modelFault_keeps {P : State → Prop} (C : Keeps [.indlog, .regs, .frame, .cnd, .safe, .log, .queue, .mem, .swp, .sec, .bus, .sent, .free] P) {m_1 s_2} (hP2 : P s_2) : P (modelFault m_1 s_2) := by
  unfold modelFault
  refine foldl_keeps (fun s0 x1 hS2 => ?_) _ _ ?_
  · refine report_keeps (C.mono (by decide)) ?_
    refine showInfService_keeps (C.mono (by decide)) ?_
    refine showSched_keeps (C.mono (by decide)) ?_
    refine kermesDue_keeps (C.mono (by decide)) ?_
    refine takeOut_keeps (C.mono (by decide)) ?_
    refine slotLost_keeps (C.mono (by decide)) ?_
    exact hS2
  · exact hP2

theorem verifyModel_keeps {P : State → Prop} (C : Keeps [.indlog, .regs, .frame, .cnd, .safe, .log, .queue, .mem, .swp, .sec, .bus, .sent, .free] P) {model_1 s_2} (hP2 : P s_2) : P (verifyModel model_1 s_2) := by
  unfold verifyModel
  split
  · exact hP2
  · extract_lets -merge -useContext -underBinder +onlyGivenNames len0
    refine ite_keeps ?_ ?_
    · exact hP2
    · refine modelFault_keeps (C.mono (by decide)) ?_
      exact hP2

theorem attestUnit_keeps {P : State → Prop} (C : Keeps [.indlog, .regs, .log, .queue, .sec, .sent, .free] P) {o_1 s_2} (hP2 : P s_2) : P (attestUnit o_1 s_2) := by
  unfold attestUnit
  extract_lets -merge -useContext -underBinder +onlyGivenNames slot0 nonce1
  refine attestNote_keeps (C.mono (by decide)) ?_
  refine sendUnit_keeps (C.mono (by decide)) ?_
  exact hP2

theorem unitEffect_keeps {P : State → Prop} (C : Keeps [.indlog, .regs, .frame, .cnd, .wld, .safe, .log, .queue, .mem, .swp, .sec, .bus, .sent, .free] P) {o_1 final_2 r_3 s_4} (hP4 : P s_4) : Opt P (unitEffect o_1 final_2 r_3 s_4) := by
  unfold unitEffect
  split
  · exact opt_none
  · refine importChunk_keeps (C.mono (by decide)) ?_
    exact hP4
  · refine opt_some ?_
    refine ite_keeps ?_ ?_
    · refine verifyModel_keeps (C.mono (by decide)) ?_
      exact hP4
    · exact hP4
  · refine opt_some ?_
    refine attestUnit_keeps (C.mono (by decide)) ?_
    exact hP4
  · refine opt_some ?_
    exact hP4
  · refine opt_some ?_
    exact hP4

theorem finishOp_keeps {P : State → Prop} (C : Keeps [.indlog, .regs, .cnd, .log, .queue, .sec, .bus, .sent, .free] P) {o_1 r_2 s_3} (hP3 : P s_3) : P (finishOp o_1 r_2 s_3) := by
  unfold finishOp
  extract_lets -merge -useContext -underBinder +onlyGivenNames s10
  have h_s10 : P s10 := by
    unfold s10
    split
    · refine C.upd_cnd (by decide) ?_
      exact hP3
    · exact hP3
  try clear_value s10
  refine freeLease_keeps (C.mono (by decide)) ?_
  refine sendAnswer_keeps (C.mono (by decide)) ?_
  refine setOp_keeps (C.mono (by decide)) ?_
  exact h_s10

theorem failOp_keeps {P : State → Prop} (C : Keeps [.indlog, .regs, .cnd, .log, .queue, .sec, .bus, .sent, .free] P) {o_1 s_2} (hP2 : P s_2) : P (failOp o_1 s_2) := by
  unfold failOp
  extract_lets -merge -useContext -underBinder +onlyGivenNames o10
  refine freeLease_keeps (C.mono (by decide)) ?_
  refine sendAnswer_keeps (C.mono (by decide)) ?_
  refine setOp_keeps (C.mono (by decide)) ?_
  exact hP2

theorem execWorkUnitEnd_keeps {P : State → Prop} (C : Keeps [.indlog, .regs, .frame, .cnd, .wld, .safe, .log, .queue, .mem, .swp, .sec, .bus, .sent, .free] P) {ctx_1 final_2 r_3 s_4} (hP4 : P s_4) : Next P (execWorkUnitEnd ctx_1 final_2 r_3 s_4) := by
  unfold execWorkUnitEnd
  refine next_keeps ?_
  refine fabric_keeps (C.mono (by decide)) ?_ ?_
  · exact hP4
  · intro s0 hS1
    split
    · exact hS1
    · refine ite_keeps ?_ ?_
      · refine failOp_keeps (C.mono (by decide)) ?_
        exact hS1
      · split
        · refine abandonUnit_keeps (C.mono (by decide)) ?_
          exact hS1
        · rename_i s12 he3
          have hm4 : P s12 := by
            refine (?_ : Opt _ _) _ he3
            refine unitEffect_keeps (C.mono (by decide)) ?_
            exact hS1
          extract_lets -merge -useContext -underBinder +onlyGivenNames slots5 o16
          refine ite_keeps ?_ ?_
          · refine finishOp_keeps (C.mono (by decide)) ?_
            exact hm4
          · refine ite_keeps ?_ ?_
            · refine suspendNow_keeps (C.mono (by decide)) ?_
              exact hm4
            · refine setOp_keeps (C.mono (by decide)) ?_
              exact hm4

theorem readReg_keeps {P : State → Prop} (C : Keeps [.indlog, .regs, .log, .queue, .latches, .sent] P) {r_1 a_2 s_3} (hP3 : P s_3) : P (readReg r_1 a_2 s_3).2 := by
  unfold readReg
  split
  · try dsimp only
    refine refuseAccess_keeps (C.mono (by decide)) ?_
    exact hP3
  · split
    · try dsimp only
      refine refuseAccess_keeps (C.mono (by decide)) ?_
      exact hP3
    · split
      · try dsimp only
        refine C.upd_latches (by decide) ?_
        exact hP3
      · split
        · try dsimp only
          refine C.upd_latches (by decide) ?_
          exact hP3
        · try dsimp only
          exact hP3

theorem holdTime_keeps {P : State → Prop} (C : Keeps [.time, .regs] P) {n_1 s_2} (hP2 : P s_2) : P (holdTime n_1 s_2) := by
  unfold holdTime
  refine ite_keeps ?_ ?_
  · extract_lets -merge -useContext -underBinder +onlyGivenNames h0
    refine setFld_keeps (C.mono (by decide)) ?_
    refine C.upd_time (by decide) ?_
    exact hP2
  · exact hP2

theorem indigoCount_keeps {P : State → Prop} (C : Keeps [.ind] P) {s_1} (hP1 : P s_1) : Opt P (indigoCount s_1) := by
  unfold indigoCount
  extract_lets -merge -useContext -underBinder +onlyGivenNames len0 n1
  refine opt_ite ?_ ?_
  · exact opt_none
  · refine opt_some ?_
    refine C.upd_ind (by decide) ?_
    exact hP1

theorem indigoPhase_keeps {P : State → Prop} (C : Keeps [.ind] P) {s_1} (hP1 : P s_1) : Opt P (indigoPhase s_1) := by
  unfold indigoPhase
  extract_lets -merge -useContext -underBinder +onlyGivenNames p0
  refine opt_ite ?_ ?_
  · refine opt_some ?_
    refine C.upd_ind (by decide) ?_
    exact hP1
  · refine indigoCount_keeps (C.mono (by decide)) ?_
    refine C.upd_ind (by decide) ?_
    exact hP1

theorem crystalPeriod_keeps {P : State → Prop} (C : Keeps [.time, .count, .ind, .regs] P) {s_1} (hP1 : P s_1) : Next P (crystalPeriod s_1) := by
  unfold crystalPeriod
  extract_lets -merge -useContext -underBinder +onlyGivenNames f0 n1
  refine next_ite ?_ ?_
  · exact fault_keeps
  · split
    · rename_i t2 he3
      have hm4 : P t2 := by
        refine (?_ : Opt _ _) _ he3
        refine indigoPhase_keeps (C.mono (by decide)) ?_
        refine countDie_keeps (C.mono (by decide)) ?_
        refine holdTime_keeps (C.mono (by decide)) ?_
        refine C.upd_count (by decide) ?_
        exact hP1
      refine next_keeps ?_
      exact hm4
    · exact fault_keeps

theorem indigoPeriod_keeps {P : State → Prop} (C : Keeps [.ind] P) {s_1} (hP1 : P s_1) : Next P (indigoPeriod s_1) := by
  unfold indigoPeriod
  refine next_ite ?_ ?_
  · refine next_keeps ?_
    exact hP1
  · split
    · rename_i t0 he1
      have hm2 : P t0 := by
        refine (?_ : Opt _ _) _ he1
        refine indigoCount_keeps (C.mono (by decide)) ?_
        exact hP1
      refine next_keeps ?_
      exact hm2
    · exact fault_keeps

theorem idle_keeps {P : State → Prop} (C : Keeps [.time, .count, .ind, .regs] P) {s_1} (hP1 : P s_1) : Next P (idle s_1) := by
  unfold idle
  split
  · refine crystalPeriod_keeps (C.mono (by decide)) ?_
    exact hP1
  · refine crystalPeriod_keeps (C.mono (by decide)) ?_
    exact hP1
  · refine indigoPeriod_keeps (C.mono (by decide)) ?_
    exact hP1

theorem putFront_keeps {P : State → Prop} (C : Keeps [.pending] P) {c_1 s_2} (hP2 : P s_2) : P (putFront c_1 s_2) := by
  unfold putFront
  refine C.upd_pending (by decide) ?_
  exact hP2

end Sys2Proof.Machine
end

