-- ==== Sys2Proof/Laws/State.lean ====
section
/-! SUPPORT. Laws/State.lean: what the basic updates of the state leave alone, field by field. -/

set_option Elab.async false

namespace Sys2Proof.Machine

/-! ### setReg -/

@[simp] theorem setReg_time (s : State) (a w : Nat) : (setReg s a w).time = s.time := rfl
@[simp] theorem setReg_pwr (s : State) (a w : Nat) : (setReg s a w).pwr = s.pwr := rfl
@[simp] theorem setReg_ind (s : State) (a w : Nat) : (setReg s a w).ind = s.ind := rfl
@[simp] theorem setReg_fuse (s : State) (a w : Nat) : (setReg s a w).fuse = s.fuse := rfl
@[simp] theorem setReg_image (s : State) (a w : Nat) : (setReg s a w).image = s.image := rfl
@[simp] theorem setReg_ing (s : State) (a w : Nat) : (setReg s a w).ing = s.ing := rfl
@[simp] theorem setReg_frame (s : State) (a w : Nat) : (setReg s a w).frame = s.frame := rfl
@[simp] theorem setReg_cnd (s : State) (a w : Nat) : (setReg s a w).cnd = s.cnd := rfl
@[simp] theorem setReg_wld (s : State) (a w : Nat) : (setReg s a w).wld = s.wld := rfl
@[simp] theorem setReg_held (s : State) (a w : Nat) : (setReg s a w).held = s.held := rfl
@[simp] theorem setReg_umb (s : State) (a w : Nat) : (setReg s a w).umb = s.umb := rfl
@[simp] theorem setReg_mad (s : State) (a w : Nat) : (setReg s a w).mad = s.mad := rfl
@[simp] theorem setReg_safe (s : State) (a w : Nat) : (setReg s a w).safe = s.safe := rfl
@[simp] theorem setReg_log (s : State) (a w : Nat) : (setReg s a w).log = s.log := rfl
@[simp] theorem setReg_boot (s : State) (a w : Nat) : (setReg s a w).boot = s.boot := rfl
@[simp] theorem setReg_inf (s : State) (a w : Nat) : (setReg s a w).inf = s.inf := rfl
@[simp] theorem setReg_mem (s : State) (a w : Nat) : (setReg s a w).mem = s.mem := rfl
@[simp] theorem setReg_swp (s : State) (a w : Nat) : (setReg s a w).swp = s.swp := rfl
@[simp] theorem setReg_sel (s : State) (a w : Nat) : (setReg s a w).sel = s.sel := rfl
@[simp] theorem setReg_slv (s : State) (a w : Nat) : (setReg s a w).slv = s.slv := rfl
@[simp] theorem setReg_twin (s : State) (a w : Nat) : (setReg s a w).twin = s.twin := rfl
@[simp] theorem setReg_swap (s : State) (a w : Nat) : (setReg s a w).swap = s.swap := rfl
@[simp] theorem setReg_sec (s : State) (a w : Nat) : (setReg s a w).sec = s.sec := rfl
@[simp] theorem setReg_bus (s : State) (a w : Nat) : (setReg s a w).bus = s.bus := rfl
@[simp] theorem setReg_och (s : State) (a w : Nat) : (setReg s a w).och = s.och := rfl
@[simp] theorem setReg_replay (s : State) (a w : Nat) : (setReg s a w).replay = s.replay := rfl
@[simp] theorem setReg_obs (s : State) (a w : Nat) : (setReg s a w).obs = s.obs := rfl
@[simp] theorem setReg_arb (s : State) (a w : Nat) : (setReg s a w).arb = s.arb := rfl
@[simp] theorem setReg_fifo (s : State) (a w : Nat) : (setReg s a w).fifo = s.fifo := rfl
@[simp] theorem setReg_latches (s : State) (a w : Nat) : (setReg s a w).latches = s.latches := rfl
@[simp] theorem setReg_sent (s : State) (a w : Nat) : (setReg s a w).sent = s.sent := rfl
@[simp] theorem setReg_free (s : State) (a w : Nat) : (setReg s a w).free = s.free := rfl
@[simp] theorem setReg_pending (s : State) (a w : Nat) : (setReg s a w).pending = s.pending := rfl

/-! ### setFld -/

@[simp] theorem setFld_time (f : Fld) (v : Nat) (s : State) : (setFld f v s).time = s.time := rfl
@[simp] theorem setFld_pwr (f : Fld) (v : Nat) (s : State) : (setFld f v s).pwr = s.pwr := rfl
@[simp] theorem setFld_ind (f : Fld) (v : Nat) (s : State) : (setFld f v s).ind = s.ind := rfl
@[simp] theorem setFld_fuse (f : Fld) (v : Nat) (s : State) : (setFld f v s).fuse = s.fuse := rfl
@[simp] theorem setFld_image (f : Fld) (v : Nat) (s : State) : (setFld f v s).image = s.image := rfl
@[simp] theorem setFld_ing (f : Fld) (v : Nat) (s : State) : (setFld f v s).ing = s.ing := rfl
@[simp] theorem setFld_frame (f : Fld) (v : Nat) (s : State) : (setFld f v s).frame = s.frame := rfl
@[simp] theorem setFld_cnd (f : Fld) (v : Nat) (s : State) : (setFld f v s).cnd = s.cnd := rfl
@[simp] theorem setFld_wld (f : Fld) (v : Nat) (s : State) : (setFld f v s).wld = s.wld := rfl
@[simp] theorem setFld_held (f : Fld) (v : Nat) (s : State) : (setFld f v s).held = s.held := rfl
@[simp] theorem setFld_umb (f : Fld) (v : Nat) (s : State) : (setFld f v s).umb = s.umb := rfl
@[simp] theorem setFld_mad (f : Fld) (v : Nat) (s : State) : (setFld f v s).mad = s.mad := rfl
@[simp] theorem setFld_safe (f : Fld) (v : Nat) (s : State) : (setFld f v s).safe = s.safe := rfl
@[simp] theorem setFld_log (f : Fld) (v : Nat) (s : State) : (setFld f v s).log = s.log := rfl
@[simp] theorem setFld_boot (f : Fld) (v : Nat) (s : State) : (setFld f v s).boot = s.boot := rfl
@[simp] theorem setFld_inf (f : Fld) (v : Nat) (s : State) : (setFld f v s).inf = s.inf := rfl
@[simp] theorem setFld_mem (f : Fld) (v : Nat) (s : State) : (setFld f v s).mem = s.mem := rfl
@[simp] theorem setFld_swp (f : Fld) (v : Nat) (s : State) : (setFld f v s).swp = s.swp := rfl
@[simp] theorem setFld_sel (f : Fld) (v : Nat) (s : State) : (setFld f v s).sel = s.sel := rfl
@[simp] theorem setFld_slv (f : Fld) (v : Nat) (s : State) : (setFld f v s).slv = s.slv := rfl
@[simp] theorem setFld_twin (f : Fld) (v : Nat) (s : State) : (setFld f v s).twin = s.twin := rfl
@[simp] theorem setFld_swap (f : Fld) (v : Nat) (s : State) : (setFld f v s).swap = s.swap := rfl
@[simp] theorem setFld_sec (f : Fld) (v : Nat) (s : State) : (setFld f v s).sec = s.sec := rfl
@[simp] theorem setFld_bus (f : Fld) (v : Nat) (s : State) : (setFld f v s).bus = s.bus := rfl
@[simp] theorem setFld_och (f : Fld) (v : Nat) (s : State) : (setFld f v s).och = s.och := rfl
@[simp] theorem setFld_replay (f : Fld) (v : Nat) (s : State) : (setFld f v s).replay = s.replay := rfl
@[simp] theorem setFld_obs (f : Fld) (v : Nat) (s : State) : (setFld f v s).obs = s.obs := rfl
@[simp] theorem setFld_arb (f : Fld) (v : Nat) (s : State) : (setFld f v s).arb = s.arb := rfl
@[simp] theorem setFld_fifo (f : Fld) (v : Nat) (s : State) : (setFld f v s).fifo = s.fifo := rfl
@[simp] theorem setFld_latches (f : Fld) (v : Nat) (s : State) : (setFld f v s).latches = s.latches := rfl
@[simp] theorem setFld_sent (f : Fld) (v : Nat) (s : State) : (setFld f v s).sent = s.sent := rfl
@[simp] theorem setFld_free (f : Fld) (v : Nat) (s : State) : (setFld f v s).free = s.free := rfl
@[simp] theorem setFld_pending (f : Fld) (v : Nat) (s : State) : (setFld f v s).pending = s.pending := rfl

/-! ### setFlag -/

@[simp] theorem setFlag_time (f : Fld) (b : Bool) (s : State) : (setFlag f b s).time = s.time := rfl
@[simp] theorem setFlag_pwr (f : Fld) (b : Bool) (s : State) : (setFlag f b s).pwr = s.pwr := rfl
@[simp] theorem setFlag_ind (f : Fld) (b : Bool) (s : State) : (setFlag f b s).ind = s.ind := rfl
@[simp] theorem setFlag_fuse (f : Fld) (b : Bool) (s : State) : (setFlag f b s).fuse = s.fuse := rfl
@[simp] theorem setFlag_image (f : Fld) (b : Bool) (s : State) : (setFlag f b s).image = s.image := rfl
@[simp] theorem setFlag_ing (f : Fld) (b : Bool) (s : State) : (setFlag f b s).ing = s.ing := rfl
@[simp] theorem setFlag_frame (f : Fld) (b : Bool) (s : State) : (setFlag f b s).frame = s.frame := rfl
@[simp] theorem setFlag_cnd (f : Fld) (b : Bool) (s : State) : (setFlag f b s).cnd = s.cnd := rfl
@[simp] theorem setFlag_wld (f : Fld) (b : Bool) (s : State) : (setFlag f b s).wld = s.wld := rfl
@[simp] theorem setFlag_held (f : Fld) (b : Bool) (s : State) : (setFlag f b s).held = s.held := rfl
@[simp] theorem setFlag_umb (f : Fld) (b : Bool) (s : State) : (setFlag f b s).umb = s.umb := rfl
@[simp] theorem setFlag_mad (f : Fld) (b : Bool) (s : State) : (setFlag f b s).mad = s.mad := rfl
@[simp] theorem setFlag_safe (f : Fld) (b : Bool) (s : State) : (setFlag f b s).safe = s.safe := rfl
@[simp] theorem setFlag_log (f : Fld) (b : Bool) (s : State) : (setFlag f b s).log = s.log := rfl
@[simp] theorem setFlag_boot (f : Fld) (b : Bool) (s : State) : (setFlag f b s).boot = s.boot := rfl
@[simp] theorem setFlag_inf (f : Fld) (b : Bool) (s : State) : (setFlag f b s).inf = s.inf := rfl
@[simp] theorem setFlag_mem (f : Fld) (b : Bool) (s : State) : (setFlag f b s).mem = s.mem := rfl
@[simp] theorem setFlag_swp (f : Fld) (b : Bool) (s : State) : (setFlag f b s).swp = s.swp := rfl
@[simp] theorem setFlag_sel (f : Fld) (b : Bool) (s : State) : (setFlag f b s).sel = s.sel := rfl
@[simp] theorem setFlag_slv (f : Fld) (b : Bool) (s : State) : (setFlag f b s).slv = s.slv := rfl
@[simp] theorem setFlag_twin (f : Fld) (b : Bool) (s : State) : (setFlag f b s).twin = s.twin := rfl
@[simp] theorem setFlag_swap (f : Fld) (b : Bool) (s : State) : (setFlag f b s).swap = s.swap := rfl
@[simp] theorem setFlag_sec (f : Fld) (b : Bool) (s : State) : (setFlag f b s).sec = s.sec := rfl
@[simp] theorem setFlag_bus (f : Fld) (b : Bool) (s : State) : (setFlag f b s).bus = s.bus := rfl
@[simp] theorem setFlag_och (f : Fld) (b : Bool) (s : State) : (setFlag f b s).och = s.och := rfl
@[simp] theorem setFlag_replay (f : Fld) (b : Bool) (s : State) : (setFlag f b s).replay = s.replay := rfl
@[simp] theorem setFlag_obs (f : Fld) (b : Bool) (s : State) : (setFlag f b s).obs = s.obs := rfl
@[simp] theorem setFlag_arb (f : Fld) (b : Bool) (s : State) : (setFlag f b s).arb = s.arb := rfl
@[simp] theorem setFlag_fifo (f : Fld) (b : Bool) (s : State) : (setFlag f b s).fifo = s.fifo := rfl
@[simp] theorem setFlag_latches (f : Fld) (b : Bool) (s : State) : (setFlag f b s).latches = s.latches := rfl
@[simp] theorem setFlag_sent (f : Fld) (b : Bool) (s : State) : (setFlag f b s).sent = s.sent := rfl
@[simp] theorem setFlag_free (f : Fld) (b : Bool) (s : State) : (setFlag f b s).free = s.free := rfl
@[simp] theorem setFlag_pending (f : Fld) (b : Bool) (s : State) : (setFlag f b s).pending = s.pending := rfl

/-! ### bump -/

@[simp] theorem bump_time (f : Fld) (s : State) : (bump f s).time = s.time := rfl
@[simp] theorem bump_pwr (f : Fld) (s : State) : (bump f s).pwr = s.pwr := rfl
@[simp] theorem bump_ind (f : Fld) (s : State) : (bump f s).ind = s.ind := rfl
@[simp] theorem bump_fuse (f : Fld) (s : State) : (bump f s).fuse = s.fuse := rfl
@[simp] theorem bump_image (f : Fld) (s : State) : (bump f s).image = s.image := rfl
@[simp] theorem bump_ing (f : Fld) (s : State) : (bump f s).ing = s.ing := rfl
@[simp] theorem bump_frame (f : Fld) (s : State) : (bump f s).frame = s.frame := rfl
@[simp] theorem bump_cnd (f : Fld) (s : State) : (bump f s).cnd = s.cnd := rfl
@[simp] theorem bump_wld (f : Fld) (s : State) : (bump f s).wld = s.wld := rfl
@[simp] theorem bump_held (f : Fld) (s : State) : (bump f s).held = s.held := rfl
@[simp] theorem bump_umb (f : Fld) (s : State) : (bump f s).umb = s.umb := rfl
@[simp] theorem bump_mad (f : Fld) (s : State) : (bump f s).mad = s.mad := rfl
@[simp] theorem bump_safe (f : Fld) (s : State) : (bump f s).safe = s.safe := rfl
@[simp] theorem bump_log (f : Fld) (s : State) : (bump f s).log = s.log := rfl
@[simp] theorem bump_boot (f : Fld) (s : State) : (bump f s).boot = s.boot := rfl
@[simp] theorem bump_inf (f : Fld) (s : State) : (bump f s).inf = s.inf := rfl
@[simp] theorem bump_mem (f : Fld) (s : State) : (bump f s).mem = s.mem := rfl
@[simp] theorem bump_swp (f : Fld) (s : State) : (bump f s).swp = s.swp := rfl
@[simp] theorem bump_sel (f : Fld) (s : State) : (bump f s).sel = s.sel := rfl
@[simp] theorem bump_slv (f : Fld) (s : State) : (bump f s).slv = s.slv := rfl
@[simp] theorem bump_twin (f : Fld) (s : State) : (bump f s).twin = s.twin := rfl
@[simp] theorem bump_swap (f : Fld) (s : State) : (bump f s).swap = s.swap := rfl
@[simp] theorem bump_sec (f : Fld) (s : State) : (bump f s).sec = s.sec := rfl
@[simp] theorem bump_bus (f : Fld) (s : State) : (bump f s).bus = s.bus := rfl
@[simp] theorem bump_och (f : Fld) (s : State) : (bump f s).och = s.och := rfl
@[simp] theorem bump_replay (f : Fld) (s : State) : (bump f s).replay = s.replay := rfl
@[simp] theorem bump_obs (f : Fld) (s : State) : (bump f s).obs = s.obs := rfl
@[simp] theorem bump_arb (f : Fld) (s : State) : (bump f s).arb = s.arb := rfl
@[simp] theorem bump_fifo (f : Fld) (s : State) : (bump f s).fifo = s.fifo := rfl
@[simp] theorem bump_latches (f : Fld) (s : State) : (bump f s).latches = s.latches := rfl
@[simp] theorem bump_sent (f : Fld) (s : State) : (bump f s).sent = s.sent := rfl
@[simp] theorem bump_free (f : Fld) (s : State) : (bump f s).free = s.free := rfl
@[simp] theorem bump_pending (f : Fld) (s : State) : (bump f s).pending = s.pending := rfl

/-! ### bumpBy -/

@[simp] theorem bumpBy_time (f : Fld) (n : Nat) (s : State) : (bumpBy f n s).time = s.time := rfl
@[simp] theorem bumpBy_pwr (f : Fld) (n : Nat) (s : State) : (bumpBy f n s).pwr = s.pwr := rfl
@[simp] theorem bumpBy_ind (f : Fld) (n : Nat) (s : State) : (bumpBy f n s).ind = s.ind := rfl
@[simp] theorem bumpBy_fuse (f : Fld) (n : Nat) (s : State) : (bumpBy f n s).fuse = s.fuse := rfl
@[simp] theorem bumpBy_image (f : Fld) (n : Nat) (s : State) : (bumpBy f n s).image = s.image := rfl
@[simp] theorem bumpBy_ing (f : Fld) (n : Nat) (s : State) : (bumpBy f n s).ing = s.ing := rfl
@[simp] theorem bumpBy_frame (f : Fld) (n : Nat) (s : State) : (bumpBy f n s).frame = s.frame := rfl
@[simp] theorem bumpBy_cnd (f : Fld) (n : Nat) (s : State) : (bumpBy f n s).cnd = s.cnd := rfl
@[simp] theorem bumpBy_wld (f : Fld) (n : Nat) (s : State) : (bumpBy f n s).wld = s.wld := rfl
@[simp] theorem bumpBy_held (f : Fld) (n : Nat) (s : State) : (bumpBy f n s).held = s.held := rfl
@[simp] theorem bumpBy_umb (f : Fld) (n : Nat) (s : State) : (bumpBy f n s).umb = s.umb := rfl
@[simp] theorem bumpBy_mad (f : Fld) (n : Nat) (s : State) : (bumpBy f n s).mad = s.mad := rfl
@[simp] theorem bumpBy_safe (f : Fld) (n : Nat) (s : State) : (bumpBy f n s).safe = s.safe := rfl
@[simp] theorem bumpBy_log (f : Fld) (n : Nat) (s : State) : (bumpBy f n s).log = s.log := rfl
@[simp] theorem bumpBy_boot (f : Fld) (n : Nat) (s : State) : (bumpBy f n s).boot = s.boot := rfl
@[simp] theorem bumpBy_inf (f : Fld) (n : Nat) (s : State) : (bumpBy f n s).inf = s.inf := rfl
@[simp] theorem bumpBy_mem (f : Fld) (n : Nat) (s : State) : (bumpBy f n s).mem = s.mem := rfl
@[simp] theorem bumpBy_swp (f : Fld) (n : Nat) (s : State) : (bumpBy f n s).swp = s.swp := rfl
@[simp] theorem bumpBy_sel (f : Fld) (n : Nat) (s : State) : (bumpBy f n s).sel = s.sel := rfl
@[simp] theorem bumpBy_slv (f : Fld) (n : Nat) (s : State) : (bumpBy f n s).slv = s.slv := rfl
@[simp] theorem bumpBy_twin (f : Fld) (n : Nat) (s : State) : (bumpBy f n s).twin = s.twin := rfl
@[simp] theorem bumpBy_swap (f : Fld) (n : Nat) (s : State) : (bumpBy f n s).swap = s.swap := rfl
@[simp] theorem bumpBy_sec (f : Fld) (n : Nat) (s : State) : (bumpBy f n s).sec = s.sec := rfl
@[simp] theorem bumpBy_bus (f : Fld) (n : Nat) (s : State) : (bumpBy f n s).bus = s.bus := rfl
@[simp] theorem bumpBy_och (f : Fld) (n : Nat) (s : State) : (bumpBy f n s).och = s.och := rfl
@[simp] theorem bumpBy_replay (f : Fld) (n : Nat) (s : State) : (bumpBy f n s).replay = s.replay := rfl
@[simp] theorem bumpBy_obs (f : Fld) (n : Nat) (s : State) : (bumpBy f n s).obs = s.obs := rfl
@[simp] theorem bumpBy_arb (f : Fld) (n : Nat) (s : State) : (bumpBy f n s).arb = s.arb := rfl
@[simp] theorem bumpBy_fifo (f : Fld) (n : Nat) (s : State) : (bumpBy f n s).fifo = s.fifo := rfl
@[simp] theorem bumpBy_latches (f : Fld) (n : Nat) (s : State) : (bumpBy f n s).latches = s.latches := rfl
@[simp] theorem bumpBy_sent (f : Fld) (n : Nat) (s : State) : (bumpBy f n s).sent = s.sent := rfl
@[simp] theorem bumpBy_free (f : Fld) (n : Nat) (s : State) : (bumpBy f n s).free = s.free := rfl
@[simp] theorem bumpBy_pending (f : Fld) (n : Nat) (s : State) : (bumpBy f n s).pending = s.pending := rfl

/-! ### setSat -/

@[simp] theorem setSat_time (f : Fld) (v : Nat) (s : State) : (setSat f v s).time = s.time := rfl
@[simp] theorem setSat_pwr (f : Fld) (v : Nat) (s : State) : (setSat f v s).pwr = s.pwr := rfl
@[simp] theorem setSat_ind (f : Fld) (v : Nat) (s : State) : (setSat f v s).ind = s.ind := rfl
@[simp] theorem setSat_fuse (f : Fld) (v : Nat) (s : State) : (setSat f v s).fuse = s.fuse := rfl
@[simp] theorem setSat_image (f : Fld) (v : Nat) (s : State) : (setSat f v s).image = s.image := rfl
@[simp] theorem setSat_ing (f : Fld) (v : Nat) (s : State) : (setSat f v s).ing = s.ing := rfl
@[simp] theorem setSat_frame (f : Fld) (v : Nat) (s : State) : (setSat f v s).frame = s.frame := rfl
@[simp] theorem setSat_cnd (f : Fld) (v : Nat) (s : State) : (setSat f v s).cnd = s.cnd := rfl
@[simp] theorem setSat_wld (f : Fld) (v : Nat) (s : State) : (setSat f v s).wld = s.wld := rfl
@[simp] theorem setSat_held (f : Fld) (v : Nat) (s : State) : (setSat f v s).held = s.held := rfl
@[simp] theorem setSat_umb (f : Fld) (v : Nat) (s : State) : (setSat f v s).umb = s.umb := rfl
@[simp] theorem setSat_mad (f : Fld) (v : Nat) (s : State) : (setSat f v s).mad = s.mad := rfl
@[simp] theorem setSat_safe (f : Fld) (v : Nat) (s : State) : (setSat f v s).safe = s.safe := rfl
@[simp] theorem setSat_log (f : Fld) (v : Nat) (s : State) : (setSat f v s).log = s.log := rfl
@[simp] theorem setSat_boot (f : Fld) (v : Nat) (s : State) : (setSat f v s).boot = s.boot := rfl
@[simp] theorem setSat_inf (f : Fld) (v : Nat) (s : State) : (setSat f v s).inf = s.inf := rfl
@[simp] theorem setSat_mem (f : Fld) (v : Nat) (s : State) : (setSat f v s).mem = s.mem := rfl
@[simp] theorem setSat_swp (f : Fld) (v : Nat) (s : State) : (setSat f v s).swp = s.swp := rfl
@[simp] theorem setSat_sel (f : Fld) (v : Nat) (s : State) : (setSat f v s).sel = s.sel := rfl
@[simp] theorem setSat_slv (f : Fld) (v : Nat) (s : State) : (setSat f v s).slv = s.slv := rfl
@[simp] theorem setSat_twin (f : Fld) (v : Nat) (s : State) : (setSat f v s).twin = s.twin := rfl
@[simp] theorem setSat_swap (f : Fld) (v : Nat) (s : State) : (setSat f v s).swap = s.swap := rfl
@[simp] theorem setSat_sec (f : Fld) (v : Nat) (s : State) : (setSat f v s).sec = s.sec := rfl
@[simp] theorem setSat_bus (f : Fld) (v : Nat) (s : State) : (setSat f v s).bus = s.bus := rfl
@[simp] theorem setSat_och (f : Fld) (v : Nat) (s : State) : (setSat f v s).och = s.och := rfl
@[simp] theorem setSat_replay (f : Fld) (v : Nat) (s : State) : (setSat f v s).replay = s.replay := rfl
@[simp] theorem setSat_obs (f : Fld) (v : Nat) (s : State) : (setSat f v s).obs = s.obs := rfl
@[simp] theorem setSat_arb (f : Fld) (v : Nat) (s : State) : (setSat f v s).arb = s.arb := rfl
@[simp] theorem setSat_fifo (f : Fld) (v : Nat) (s : State) : (setSat f v s).fifo = s.fifo := rfl
@[simp] theorem setSat_latches (f : Fld) (v : Nat) (s : State) : (setSat f v s).latches = s.latches := rfl
@[simp] theorem setSat_sent (f : Fld) (v : Nat) (s : State) : (setSat f v s).sent = s.sent := rfl
@[simp] theorem setSat_free (f : Fld) (v : Nat) (s : State) : (setSat f v s).free = s.free := rfl
@[simp] theorem setSat_pending (f : Fld) (v : Nat) (s : State) : (setSat f v s).pending = s.pending := rfl

/-! ### send -/

@[simp] theorem send_time (o : Output) (s : State) : (send o s).time = s.time := rfl
@[simp] theorem send_pwr (o : Output) (s : State) : (send o s).pwr = s.pwr := rfl
@[simp] theorem send_ind (o : Output) (s : State) : (send o s).ind = s.ind := rfl
@[simp] theorem send_fuse (o : Output) (s : State) : (send o s).fuse = s.fuse := rfl
@[simp] theorem send_image (o : Output) (s : State) : (send o s).image = s.image := rfl
@[simp] theorem send_regs (o : Output) (s : State) : (send o s).regs = s.regs := rfl
@[simp] theorem send_ing (o : Output) (s : State) : (send o s).ing = s.ing := rfl
@[simp] theorem send_frame (o : Output) (s : State) : (send o s).frame = s.frame := rfl
@[simp] theorem send_cnd (o : Output) (s : State) : (send o s).cnd = s.cnd := rfl
@[simp] theorem send_wld (o : Output) (s : State) : (send o s).wld = s.wld := rfl
@[simp] theorem send_held (o : Output) (s : State) : (send o s).held = s.held := rfl
@[simp] theorem send_umb (o : Output) (s : State) : (send o s).umb = s.umb := rfl
@[simp] theorem send_mad (o : Output) (s : State) : (send o s).mad = s.mad := rfl
@[simp] theorem send_safe (o : Output) (s : State) : (send o s).safe = s.safe := rfl
@[simp] theorem send_log (o : Output) (s : State) : (send o s).log = s.log := rfl
@[simp] theorem send_boot (o : Output) (s : State) : (send o s).boot = s.boot := rfl
@[simp] theorem send_inf (o : Output) (s : State) : (send o s).inf = s.inf := rfl
@[simp] theorem send_mem (o : Output) (s : State) : (send o s).mem = s.mem := rfl
@[simp] theorem send_swp (o : Output) (s : State) : (send o s).swp = s.swp := rfl
@[simp] theorem send_sel (o : Output) (s : State) : (send o s).sel = s.sel := rfl
@[simp] theorem send_slv (o : Output) (s : State) : (send o s).slv = s.slv := rfl
@[simp] theorem send_twin (o : Output) (s : State) : (send o s).twin = s.twin := rfl
@[simp] theorem send_swap (o : Output) (s : State) : (send o s).swap = s.swap := rfl
@[simp] theorem send_sec (o : Output) (s : State) : (send o s).sec = s.sec := rfl
@[simp] theorem send_bus (o : Output) (s : State) : (send o s).bus = s.bus := rfl
@[simp] theorem send_och (o : Output) (s : State) : (send o s).och = s.och := rfl
@[simp] theorem send_replay (o : Output) (s : State) : (send o s).replay = s.replay := rfl
@[simp] theorem send_obs (o : Output) (s : State) : (send o s).obs = s.obs := rfl
@[simp] theorem send_arb (o : Output) (s : State) : (send o s).arb = s.arb := rfl
@[simp] theorem send_fifo (o : Output) (s : State) : (send o s).fifo = s.fifo := rfl
@[simp] theorem send_latches (o : Output) (s : State) : (send o s).latches = s.latches := rfl
@[simp] theorem send_free (o : Output) (s : State) : (send o s).free = s.free := rfl
@[simp] theorem send_pending (o : Output) (s : State) : (send o s).pending = s.pending := rfl

/-! ### nextFree -/

@[simp] theorem nextFree_time (s : State) : (nextFree s).2.time = s.time := rfl
@[simp] theorem nextFree_pwr (s : State) : (nextFree s).2.pwr = s.pwr := rfl
@[simp] theorem nextFree_ind (s : State) : (nextFree s).2.ind = s.ind := rfl
@[simp] theorem nextFree_fuse (s : State) : (nextFree s).2.fuse = s.fuse := rfl
@[simp] theorem nextFree_image (s : State) : (nextFree s).2.image = s.image := rfl
@[simp] theorem nextFree_regs (s : State) : (nextFree s).2.regs = s.regs := rfl
@[simp] theorem nextFree_ing (s : State) : (nextFree s).2.ing = s.ing := rfl
@[simp] theorem nextFree_frame (s : State) : (nextFree s).2.frame = s.frame := rfl
@[simp] theorem nextFree_cnd (s : State) : (nextFree s).2.cnd = s.cnd := rfl
@[simp] theorem nextFree_wld (s : State) : (nextFree s).2.wld = s.wld := rfl
@[simp] theorem nextFree_held (s : State) : (nextFree s).2.held = s.held := rfl
@[simp] theorem nextFree_umb (s : State) : (nextFree s).2.umb = s.umb := rfl
@[simp] theorem nextFree_mad (s : State) : (nextFree s).2.mad = s.mad := rfl
@[simp] theorem nextFree_safe (s : State) : (nextFree s).2.safe = s.safe := rfl
@[simp] theorem nextFree_log (s : State) : (nextFree s).2.log = s.log := rfl
@[simp] theorem nextFree_boot (s : State) : (nextFree s).2.boot = s.boot := rfl
@[simp] theorem nextFree_inf (s : State) : (nextFree s).2.inf = s.inf := rfl
@[simp] theorem nextFree_mem (s : State) : (nextFree s).2.mem = s.mem := rfl
@[simp] theorem nextFree_swp (s : State) : (nextFree s).2.swp = s.swp := rfl
@[simp] theorem nextFree_sel (s : State) : (nextFree s).2.sel = s.sel := rfl
@[simp] theorem nextFree_slv (s : State) : (nextFree s).2.slv = s.slv := rfl
@[simp] theorem nextFree_twin (s : State) : (nextFree s).2.twin = s.twin := rfl
@[simp] theorem nextFree_swap (s : State) : (nextFree s).2.swap = s.swap := rfl
@[simp] theorem nextFree_sec (s : State) : (nextFree s).2.sec = s.sec := rfl
@[simp] theorem nextFree_bus (s : State) : (nextFree s).2.bus = s.bus := rfl
@[simp] theorem nextFree_och (s : State) : (nextFree s).2.och = s.och := rfl
@[simp] theorem nextFree_replay (s : State) : (nextFree s).2.replay = s.replay := rfl
@[simp] theorem nextFree_obs (s : State) : (nextFree s).2.obs = s.obs := rfl
@[simp] theorem nextFree_arb (s : State) : (nextFree s).2.arb = s.arb := rfl
@[simp] theorem nextFree_fifo (s : State) : (nextFree s).2.fifo = s.fifo := rfl
@[simp] theorem nextFree_latches (s : State) : (nextFree s).2.latches = s.latches := rfl
@[simp] theorem nextFree_sent (s : State) : (nextFree s).2.sent = s.sent := rfl
@[simp] theorem nextFree_pending (s : State) : (nextFree s).2.pending = s.pending := rfl

/-! ### putByte -/

@[simp] theorem putByte_time (s : State) (a : Nat) (b : Byte) : (putByte s a b).time = s.time := rfl
@[simp] theorem putByte_pwr (s : State) (a : Nat) (b : Byte) : (putByte s a b).pwr = s.pwr := rfl
@[simp] theorem putByte_ind (s : State) (a : Nat) (b : Byte) : (putByte s a b).ind = s.ind := rfl
@[simp] theorem putByte_fuse (s : State) (a : Nat) (b : Byte) : (putByte s a b).fuse = s.fuse := rfl
@[simp] theorem putByte_image (s : State) (a : Nat) (b : Byte) : (putByte s a b).image = s.image := rfl
@[simp] theorem putByte_regs (s : State) (a : Nat) (b : Byte) : (putByte s a b).regs = s.regs := rfl
@[simp] theorem putByte_ing (s : State) (a : Nat) (b : Byte) : (putByte s a b).ing = s.ing := rfl
@[simp] theorem putByte_frame (s : State) (a : Nat) (b : Byte) : (putByte s a b).frame = s.frame := rfl
@[simp] theorem putByte_cnd (s : State) (a : Nat) (b : Byte) : (putByte s a b).cnd = s.cnd := rfl
@[simp] theorem putByte_wld (s : State) (a : Nat) (b : Byte) : (putByte s a b).wld = s.wld := rfl
@[simp] theorem putByte_held (s : State) (a : Nat) (b : Byte) : (putByte s a b).held = s.held := rfl
@[simp] theorem putByte_umb (s : State) (a : Nat) (b : Byte) : (putByte s a b).umb = s.umb := rfl
@[simp] theorem putByte_mad (s : State) (a : Nat) (b : Byte) : (putByte s a b).mad = s.mad := rfl
@[simp] theorem putByte_safe (s : State) (a : Nat) (b : Byte) : (putByte s a b).safe = s.safe := rfl
@[simp] theorem putByte_log (s : State) (a : Nat) (b : Byte) : (putByte s a b).log = s.log := rfl
@[simp] theorem putByte_boot (s : State) (a : Nat) (b : Byte) : (putByte s a b).boot = s.boot := rfl
@[simp] theorem putByte_inf (s : State) (a : Nat) (b : Byte) : (putByte s a b).inf = s.inf := rfl
@[simp] theorem putByte_swp (s : State) (a : Nat) (b : Byte) : (putByte s a b).swp = s.swp := rfl
@[simp] theorem putByte_sel (s : State) (a : Nat) (b : Byte) : (putByte s a b).sel = s.sel := rfl
@[simp] theorem putByte_slv (s : State) (a : Nat) (b : Byte) : (putByte s a b).slv = s.slv := rfl
@[simp] theorem putByte_twin (s : State) (a : Nat) (b : Byte) : (putByte s a b).twin = s.twin := rfl
@[simp] theorem putByte_swap (s : State) (a : Nat) (b : Byte) : (putByte s a b).swap = s.swap := rfl
@[simp] theorem putByte_sec (s : State) (a : Nat) (b : Byte) : (putByte s a b).sec = s.sec := rfl
@[simp] theorem putByte_bus (s : State) (a : Nat) (b : Byte) : (putByte s a b).bus = s.bus := rfl
@[simp] theorem putByte_och (s : State) (a : Nat) (b : Byte) : (putByte s a b).och = s.och := rfl
@[simp] theorem putByte_replay (s : State) (a : Nat) (b : Byte) : (putByte s a b).replay = s.replay := rfl
@[simp] theorem putByte_obs (s : State) (a : Nat) (b : Byte) : (putByte s a b).obs = s.obs := rfl
@[simp] theorem putByte_arb (s : State) (a : Nat) (b : Byte) : (putByte s a b).arb = s.arb := rfl
@[simp] theorem putByte_fifo (s : State) (a : Nat) (b : Byte) : (putByte s a b).fifo = s.fifo := rfl
@[simp] theorem putByte_latches (s : State) (a : Nat) (b : Byte) : (putByte s a b).latches = s.latches := rfl
@[simp] theorem putByte_sent (s : State) (a : Nat) (b : Byte) : (putByte s a b).sent = s.sent := rfl
@[simp] theorem putByte_free (s : State) (a : Nat) (b : Byte) : (putByte s a b).free = s.free := rfl
@[simp] theorem putByte_pending (s : State) (a : Nat) (b : Byte) : (putByte s a b).pending = s.pending := rfl

/-! ### setSynd -/

@[simp] theorem setSynd_time (a w : Nat) (s : State) : (setSynd a w s).time = s.time := rfl
@[simp] theorem setSynd_pwr (a w : Nat) (s : State) : (setSynd a w s).pwr = s.pwr := rfl
@[simp] theorem setSynd_ind (a w : Nat) (s : State) : (setSynd a w s).ind = s.ind := rfl
@[simp] theorem setSynd_fuse (a w : Nat) (s : State) : (setSynd a w s).fuse = s.fuse := rfl
@[simp] theorem setSynd_image (a w : Nat) (s : State) : (setSynd a w s).image = s.image := rfl
@[simp] theorem setSynd_regs (a w : Nat) (s : State) : (setSynd a w s).regs = s.regs := rfl
@[simp] theorem setSynd_ing (a w : Nat) (s : State) : (setSynd a w s).ing = s.ing := rfl
@[simp] theorem setSynd_frame (a w : Nat) (s : State) : (setSynd a w s).frame = s.frame := rfl
@[simp] theorem setSynd_cnd (a w : Nat) (s : State) : (setSynd a w s).cnd = s.cnd := rfl
@[simp] theorem setSynd_wld (a w : Nat) (s : State) : (setSynd a w s).wld = s.wld := rfl
@[simp] theorem setSynd_held (a w : Nat) (s : State) : (setSynd a w s).held = s.held := rfl
@[simp] theorem setSynd_umb (a w : Nat) (s : State) : (setSynd a w s).umb = s.umb := rfl
@[simp] theorem setSynd_mad (a w : Nat) (s : State) : (setSynd a w s).mad = s.mad := rfl
@[simp] theorem setSynd_safe (a w : Nat) (s : State) : (setSynd a w s).safe = s.safe := rfl
@[simp] theorem setSynd_log (a w : Nat) (s : State) : (setSynd a w s).log = s.log := rfl
@[simp] theorem setSynd_boot (a w : Nat) (s : State) : (setSynd a w s).boot = s.boot := rfl
@[simp] theorem setSynd_inf (a w : Nat) (s : State) : (setSynd a w s).inf = s.inf := rfl
@[simp] theorem setSynd_swp (a w : Nat) (s : State) : (setSynd a w s).swp = s.swp := rfl
@[simp] theorem setSynd_sel (a w : Nat) (s : State) : (setSynd a w s).sel = s.sel := rfl
@[simp] theorem setSynd_slv (a w : Nat) (s : State) : (setSynd a w s).slv = s.slv := rfl
@[simp] theorem setSynd_twin (a w : Nat) (s : State) : (setSynd a w s).twin = s.twin := rfl
@[simp] theorem setSynd_swap (a w : Nat) (s : State) : (setSynd a w s).swap = s.swap := rfl
@[simp] theorem setSynd_sec (a w : Nat) (s : State) : (setSynd a w s).sec = s.sec := rfl
@[simp] theorem setSynd_bus (a w : Nat) (s : State) : (setSynd a w s).bus = s.bus := rfl
@[simp] theorem setSynd_och (a w : Nat) (s : State) : (setSynd a w s).och = s.och := rfl
@[simp] theorem setSynd_replay (a w : Nat) (s : State) : (setSynd a w s).replay = s.replay := rfl
@[simp] theorem setSynd_obs (a w : Nat) (s : State) : (setSynd a w s).obs = s.obs := rfl
@[simp] theorem setSynd_arb (a w : Nat) (s : State) : (setSynd a w s).arb = s.arb := rfl
@[simp] theorem setSynd_fifo (a w : Nat) (s : State) : (setSynd a w s).fifo = s.fifo := rfl
@[simp] theorem setSynd_latches (a w : Nat) (s : State) : (setSynd a w s).latches = s.latches := rfl
@[simp] theorem setSynd_sent (a w : Nat) (s : State) : (setSynd a w s).sent = s.sent := rfl
@[simp] theorem setSynd_free (a w : Nat) (s : State) : (setSynd a w s).free = s.free := rfl
@[simp] theorem setSynd_pending (a w : Nat) (s : State) : (setSynd a w s).pending = s.pending := rfl

@[simp] theorem send_sent (o : Output) (s : State) : (send o s).sent = o :: s.sent := rfl
@[simp] theorem nextFree_fst (s : State) : (nextFree s).1 = s.free := rfl
@[simp] theorem nextFree_free (s : State) : (nextFree s).2.free = s.free + 1 := rfl
@[simp] theorem putByte_cells (s : State) (a : Nat) (b : Byte) : (putByte s a b).mem.cells = tabPut 0 s.mem.cells a (placedByte s a ^^^ b) := rfl
@[simp] theorem setSynd_synd (a w : Nat) (s : State) : (setSynd a w s).mem.synd = tabPut 0 s.mem.synd (a / 8) w := rfl

end Sys2Proof.Machine
end

