-- ==== Sys2Proof/Laws/Regs.lean ====
section
/-! SUPPORT. Laws/Regs.lean: registers and their fields: a written one reads as it was written, the others as before. -/

set_option Elab.async false

namespace Sys2Proof.Machine

/-! ## Bits -/

theorem bitsOf_lt (w hi lo : Nat) : bitsOf w hi lo < 2 ^ (hi - lo + 1) := Nat.mod_lt _ (Nat.two_pow_pos _)

/-- A word is its upper part, the field and the lower part. -/
theorem word_split (w hi lo : Nat) :
    w = w / 2 ^ lo / 2 ^ (hi - lo + 1) * 2 ^ (hi - lo + 1) * 2 ^ lo + bitsOf w hi lo * 2 ^ lo + w % 2 ^ lo := by
  unfold bitsOf
  have h1 := Nat.div_add_mod w (2 ^ lo)
  have h2 := Nat.div_add_mod (w / 2 ^ lo) (2 ^ (hi - lo + 1))
  have h3 : w / 2 ^ lo = w / 2 ^ lo / 2 ^ (hi - lo + 1) * 2 ^ (hi - lo + 1) + w / 2 ^ lo % 2 ^ (hi - lo + 1) := by
    rw [Nat.mul_comm]; exact h2.symm
  calc w = w / 2 ^ lo * 2 ^ lo + w % 2 ^ lo := by rw [Nat.mul_comm]; exact h1.symm
    _ = _ := by rw [← Nat.add_mul, ← h3]

theorem putBits_eq (w hi lo v : Nat) :
    putBits w hi lo v = w / 2 ^ lo / 2 ^ (hi - lo + 1) * 2 ^ (hi - lo + 1) * 2 ^ lo
      + v % 2 ^ (hi - lo + 1) * 2 ^ lo + w % 2 ^ lo := by
  have h := word_split w hi lo
  unfold putBits
  omega

theorem putBits_hi (w hi lo v : Nat) :
    putBits w hi lo v / 2 ^ lo / 2 ^ (hi - lo + 1) = w / 2 ^ lo / 2 ^ (hi - lo + 1) ∧
    putBits w hi lo v / 2 ^ lo % 2 ^ (hi - lo + 1) = v % 2 ^ (hi - lo + 1) ∧ putBits w hi lo v % 2 ^ lo = w % 2 ^ lo := by
  have hl := Nat.two_pow_pos lo
  have hk := Nat.two_pow_pos (hi - lo + 1)
  have hr := Nat.mod_lt w hl
  have hv := Nat.mod_lt v hk
  rw [putBits_eq, ← Nat.add_mul]
  generalize w / 2 ^ lo / 2 ^ (hi - lo + 1) = A
  generalize v % 2 ^ (hi - lo + 1) = V at *
  generalize w % 2 ^ lo = R at *
  have h1 : ((A * 2 ^ (hi - lo + 1) + V) * 2 ^ lo + R) / 2 ^ lo = A * 2 ^ (hi - lo + 1) + V := by
    rw [Nat.add_comm, Nat.add_mul_div_right _ _ hl, Nat.div_eq_of_lt hr, Nat.zero_add]
  have h2 : (A * 2 ^ (hi - lo + 1) + V) / 2 ^ (hi - lo + 1) = A := by
    rw [Nat.add_comm, Nat.add_mul_div_right _ _ hk, Nat.div_eq_of_lt hv, Nat.zero_add]
  have h3 : (A * 2 ^ (hi - lo + 1) + V) % 2 ^ (hi - lo + 1) = V := by
    rw [Nat.add_comm, Nat.add_mul_mod_self_right, Nat.mod_eq_of_lt hv]
  have h4 : ((A * 2 ^ (hi - lo + 1) + V) * 2 ^ lo + R) % 2 ^ lo = R := by
    rw [Nat.add_comm, Nat.add_mul_mod_self_right, Nat.mod_eq_of_lt hr]
  rw [h1, h2, h3, h4]
  exact ⟨rfl, rfl, rfl⟩

/-- A field that was put reads as the value, cut to its width. -/
theorem bitsOf_putBits (w hi lo v : Nat) : bitsOf (putBits w hi lo v) hi lo = v % 2 ^ (hi - lo + 1) :=
  (putBits_hi w hi lo v).2.1

/-- A put field leaves the fields below it alone. -/
theorem bitsOf_putBits_below {w hi lo v hi2 lo2 : Nat} (h : hi2 < lo) (g : lo2 ≤ hi2) :
    bitsOf (putBits w hi lo v) hi2 lo2 = bitsOf w hi2 lo2 := by
  have e : ∀ x : Nat, bitsOf x hi2 lo2 = bitsOf (x % 2 ^ lo) hi2 lo2 := by
    intro x
    unfold bitsOf
    apply Nat.eq_of_testBit_eq
    intro i
    simp only [Nat.testBit_mod_two_pow, Nat.testBit_div_two_pow]
    by_cases hi : i < hi2 - lo2 + 1
    · have : i + lo2 < lo := by omega
      simp [this]
    · simp [hi]
  rw [e, (putBits_hi w hi lo v).2.2, ← e]

/-- A put field leaves the fields above it alone. -/
theorem bitsOf_putBits_above {w hi lo v hi2 lo2 : Nat} (h : hi < lo2) (g : lo ≤ hi) :
    bitsOf (putBits w hi lo v) hi2 lo2 = bitsOf w hi2 lo2 := by
  have e : ∀ x : Nat, bitsOf x hi2 lo2 = x / 2 ^ lo / 2 ^ (hi - lo + 1) / 2 ^ (lo2 - hi - 1) % 2 ^ (hi2 - lo2 + 1) := by
    intro x
    unfold bitsOf
    rw [Nat.div_div_eq_div_mul, Nat.div_div_eq_div_mul, ← Nat.pow_add, ← Nat.pow_add]
    congr 3
    omega
  rw [e, (putBits_hi w hi lo v).1, ← e]

theorem bitsOf_le (w hi lo : Nat) : bitsOf w hi lo * 2 ^ lo ≤ w := by
  have := word_split w hi lo
  omega

/-- A put field stays within 32 bits. -/
theorem putBits_lt {w hi lo v : Nat} (hw : w < 2 ^ 32) (h : hi < 32) (g : lo ≤ hi) : putBits w hi lo v < 2 ^ 32 := by
  have hl := Nat.two_pow_pos lo
  have hr := Nat.mod_lt w hl
  have hv := Nat.mod_lt v (Nat.two_pow_pos (hi - lo + 1))
  rw [putBits_eq, ← Nat.add_mul]
  have hA : w / 2 ^ lo / 2 ^ (hi - lo + 1) < 2 ^ (32 - (hi + 1)) := by
    rw [Nat.div_div_eq_div_mul, ← Nat.pow_add]
    refine Nat.div_lt_of_lt_mul ?_
    rw [← Nat.pow_add]
    have : lo + (hi - lo + 1) + (32 - (hi + 1)) = 32 := by omega
    rw [this]; exact hw
  have e1 : 2 ^ (32 - (hi + 1)) * 2 ^ (hi - lo + 1) * 2 ^ lo = 2 ^ 32 := by
    rw [← Nat.pow_add, ← Nat.pow_add]; congr 1; omega
  generalize w / 2 ^ lo / 2 ^ (hi - lo + 1) = A at *
  generalize v % 2 ^ (hi - lo + 1) = V at *
  generalize w % 2 ^ lo = R at *
  rw [← e1]
  calc (A * 2 ^ (hi - lo + 1) + V) * 2 ^ lo + R < (A * 2 ^ (hi - lo + 1) + V + 1) * 2 ^ lo := by
        rw [Nat.add_mul _ 1]; omega
    _ ≤ ((A + 1) * 2 ^ (hi - lo + 1)) * 2 ^ lo := by
        refine Nat.mul_le_mul_right _ ?_
        rw [Nat.add_mul]; omega
    _ ≤ _ := Nat.mul_le_mul_right _ (Nat.mul_le_mul_right _ hA)

/-! ## Register words -/

/-- The register words are sorted by address, as the canonical form says. -/
abbrev RegsSorted (s : State) : Prop := s.regs.Pairwise fun a b => a.1 < b.1

/-- A written register reads as it was written. -/
theorem regWord_setReg_same {s : State} {a w : Nat} (h : RegsSorted s) : regWord (setReg s a w) a = w % 2 ^ 32 :=
  tabGet_tabPut_same h

/-- The other registers read as before. -/
theorem regWord_setReg_ne {s : State} {a b w : Nat} (h : b ≠ a) : regWord (setReg s a w) b = regWord s b :=
  tabGet_tabPut_ne h

theorem setReg_sorted {s : State} {a w : Nat} (h : RegsSorted s) : RegsSorted (setReg s a w) := tabPut_sorted h

theorem setFld_sorted {s : State} {f : Fld} {v : Nat} (h : RegsSorted s) : RegsSorted (setFld f v s) := setReg_sorted h

/-- Every reset value is a 32-bit word. -/
theorem resetWord_lt (img : Image) (a : Nat) : resetWord img a < 2 ^ 32 := by
  unfold resetWord
  split
  · exact Nat.mod_lt _ (by decide)
  · split
    · exact Nat.mod_lt _ (by decide)
    · decide

theorem tabGet_lt {t : Tab Nat} {d a n : Nat} (hd : d < n) (h : ∀ e ∈ t, e.2 < n) : tabGet d t a < n := by
  induction t with
  | nil => exact hd
  | cons x t ih =>
    obtain ⟨k, v⟩ := x
    simp only [tabGet]
    split
    · exact h (k, v) (by simp)
    · exact ih fun e he => h e (by simp [he])

/-- Every register holds a 32-bit word. -/
theorem regWord_lt {s : State} (h : Regs.wf s.image s.regs) (a : Nat) : regWord s a < 2 ^ 32 :=
  tabGet_lt (resetWord_lt _ _) fun e he => (h.2 e he).2

/-- A field of a register of 32 bits. -/
abbrev Fld.ok (f : Fld) : Prop := f.lo ≤ f.hi ∧ f.hi < 32

/-- A written field reads as it was written, cut to its width. -/
theorem fld_setFld_same {s : State} {f : Fld} {v : Nat} (h : Regs.wf s.image s.regs) (g : f.ok) :
    fld (setFld f v s) f = v % 2 ^ (f.hi - f.lo + 1) := by
  unfold fld setFld
  rw [regWord_setReg_same h.1, Nat.mod_eq_of_lt (putBits_lt (regWord_lt h _) g.2 g.1), bitsOf_putBits]

/-- A field at another address reads as before. -/
theorem fld_setFld_addr {s : State} {f g : Fld} {v : Nat} (h : g.addr ≠ f.addr) : fld (setFld f v s) g = fld s g := by
  unfold fld setFld
  rw [regWord_setReg_ne h]

/-- Another field of the same register reads as before. -/
theorem fld_setFld_other {s : State} {f g : Fld} {v : Nat} (h : Regs.wf s.image s.regs) (hf : f.ok) (hg : g.ok)
    (e : g.addr = f.addr) (d : g.hi < f.lo ∨ f.hi < g.lo) : fld (setFld f v s) g = fld s g := by
  unfold fld setFld
  rw [e, regWord_setReg_same h.1, Nat.mod_eq_of_lt (putBits_lt (regWord_lt h _) hf.2 hf.1)]
  rcases d with d | d
  · exact bitsOf_putBits_below d hg.1
  · exact bitsOf_putBits_above d hf.1

/-- A written register keeps the canonical form. -/
theorem setReg_wf {s : State} {a w : Nat} (h : Regs.wf s.image s.regs) : Regs.wf (setReg s a w).image (setReg s a w).regs := by
  refine ⟨tabPut_sorted h.1, fun e he => ?_⟩
  rcases tabPut_mem he with he | ⟨rfl, hv⟩
  · exact h.2 e he
  · exact ⟨hv, Nat.mod_lt _ (by decide)⟩

theorem setFld_wf {s : State} {f : Fld} {v : Nat} (h : Regs.wf s.image s.regs) :
    Regs.wf (setFld f v s).image (setFld f v s).regs := setReg_wf h

/-! ## Memory -/

/-- What the structures of the machine are read from is the same in both states. -/
structure SameStructures (s t : State) : Prop where
  wld : t.wld = s.wld
  held : t.held = s.held
  swp : t.swp = s.swp
  sel : t.sel = s.sel
  image : t.image = s.image
  num : t.frame.num = s.frame.num
  edge : t.frame.edgeTick = s.frame.edgeTick
  fuse : fuseCfg t = fuseCfg s
  units : unitDomain t = unitDomain s
  ways : wayOwner t = wayOwner s

theorem domFirst_congr {s t : State} (h : t.image = s.image) : domFirst t = domFirst s ∧ domShare t = domShare s := by
  have h1 : domShare t = domShare s := by
    funext d
    unfold domShare
    rw [h]
  refine ⟨?_, h1⟩
  funext d
  unfold domFirst
  rw [h1]

theorem candAt_congr {s t : State} (hi : t.image = s.image) (hs : t.swp = s.swp) : candAt t = candAt s := by
  funext n
  unfold candAt
  rw [hs, (domFirst_congr hi).1, (domFirst_congr hi).2]

theorem scratchByte_congr {s t : State} (h : SameStructures s t) : scratchByte t = scratchByte s := by
  funext u o
  unfold scratchByte
  rw [h.wld, h.held, h.swp, h.units, candAt_congr h.image h.swp, (domFirst_congr h.image).1]

theorem cacheByte_congr {s t : State} (h : SameStructures s t) : cacheByte t = cacheByte s := by
  funext c o
  unfold cacheByte
  rw [h.wld, h.ways]

theorem storeByte_congr {s t : State} (h : SameStructures s t) : storeByte t = storeByte s := by
  funext o
  unfold storeByte halfOf frameN
  rw [h.wld, h.held, h.fuse, h.num, h.edge, candAt_congr h.image h.swp]

theorem candOfPlace_congr {s t : State} (h : t.image = s.image) : candOfPlace t = candOfPlace s := by
  funext n
  unfold candOfPlace
  rw [(domFirst_congr h).1, (domFirst_congr h).2]

theorem selectByte_congr {s t : State} (h : SameStructures s t) : selectByte t = selectByte s := by
  funext o
  unfold selectByte
  rw [h.sel, candAt_congr h.image h.swp, candOfPlace_congr h.image]

/-- The structures put the same byte at every address. -/
theorem structByte_congr {s t : State} (h : SameStructures s t) : structByte t = structByte s := by
  funext a
  unfold structByte
  rw [scratchByte_congr h, cacheByte_congr h, storeByte_congr h, selectByte_congr h]

theorem placedByte_congr {s t : State} (h : SameStructures s t) (hb : t.mem.blank = s.mem.blank) :
    placedByte t = placedByte s := by
  funext a
  unfold placedByte blanked
  rw [structByte_congr h, hb]

/-- Every byte reads as before where neither the structures nor what the memories hold beside them have changed. -/
theorem byteAt_congr {s t : State} (h : SameStructures s t) (hb : t.mem.blank = s.mem.blank) (hc : t.mem.cells = s.mem.cells) :
    byteAt t = byteAt s := by
  funext a
  unfold byteAt
  rw [placedByte_congr h hb, hc]

/-- A change of the memories alone leaves the structures alone. -/
theorem sameStructures_mem (s : State) (m : MemSt) : SameStructures s { s with mem := m } :=
  ⟨rfl, rfl, rfl, rfl, rfl, rfl, rfl, rfl, rfl, rfl⟩

/-- A stored byte reads as it was stored. -/
theorem byteAt_putByte_same {s : State} {a : Nat} {b : Byte} (h : Memory.wf s.mem) : byteAt (putByte s a b) a = b := by
  have e : placedByte (putByte s a b) = placedByte s := placedByte_congr (sameStructures_mem s _) rfl
  unfold byteAt
  rw [e, putByte_cells, tabGet_tabPut_same h.1.1, ← BitVec.xor_assoc, BitVec.xor_self, BitVec.zero_xor]

/-- The other bytes read as before. -/
theorem byteAt_putByte_ne {s : State} {a c : Nat} {b : Byte} (h : c ≠ a) : byteAt (putByte s a b) c = byteAt s c := by
  have e : placedByte (putByte s a b) = placedByte s := placedByte_congr (sameStructures_mem s _) rfl
  unfold byteAt
  rw [e, putByte_cells, tabGet_tabPut_ne h]

theorem putByte_wf {s : State} {a : Nat} {b : Byte} (h : Memory.wf s.mem) : Memory.wf (putByte s a b).mem :=
  ⟨tabPut_wf h.1, h.2⟩

theorem setSynd_wf {s : State} {a w : Nat} (h : Memory.wf s.mem) : Memory.wf (setSynd a w s).mem :=
  ⟨h.1, tabPut_wf h.2⟩

end Sys2Proof.Machine
end

