-- ==== Sys2Proof/Laws/Writes.lean ====
section
/-! SUPPORT. Laws/Writes.lean: which parts of the state each command may write, and that a property which survives changes
of those parts survives the command. -/

set_option Elab.async false

namespace Sys2Proof.Machine

/-- The parts of the state (Laws/Keeps.lean) that a command may write. -/
def writes : Instr → List Part
  | .frameEdge _ => [.time, .pwr, .raise, .stop, .ind, .indlog, .fuse, .regs, .ing, .frame, .emit, .num, .cnd, .wld, .epoch, .held, .umb, .mad, .safe, .restart, .acked, .log, .queue, .boot, .inf, .mem, .data, .swp, .sel, .slv, .twin, .pair, .swap, .sec, .bus, .replay, .obs, .sent, .free]
  | .proposeHardStop _ _ => [.indlog, .regs, .frame, .stopped, .cnd, .safe, .log, .queue, .mem, .swp, .sec, .bus, .sent, .free]
  | .sweepHardStop => [.indlog, .regs, .frame, .stopped, .cnd, .safe, .log, .queue, .mem, .swp, .sec, .bus, .sent, .free]
  | .selectHardStop _ => [.indlog, .regs, .frame, .stopped, .cnd, .wld, .mad, .safe, .log, .queue, .mem, .data, .swp, .sel, .slv, .twin, .sec, .bus, .sent, .free]
  | .refineHardStop _ => [.indlog, .regs, .frame, .stopped, .cnd, .mad, .safe, .log, .queue, .mem, .swp, .slv, .twin, .sec, .bus, .sent, .free]
  | .verifyHardStop _ => [.indlog, .regs, .frame, .stopped, .cnd, .safe, .log, .queue, .mem, .swp, .twin, .sec, .bus, .sent, .free]
  | .emitHardStop _ => [.raise, .stop, .indlog, .fuse, .regs, .frame, .stopped, .emit, .cnd, .wld, .umb, .safe, .acked, .log, .queue, .boot, .mem, .data, .swp, .slv, .twin, .sec, .bus, .obs, .sent, .free]
  | .mutexForce _ _ _ => [.arb]
  | .mgmtAccessTimeout _ _ _ => [.indlog, .regs, .log, .queue, .sent]
  | .registerWrite _ _ _ => [.pwr, .phase, .raise, .ind, .indlog, .regs, .ing, .frame, .num, .cnd, .wld, .epoch, .umb, .safe, .restart, .log, .queue, .boot, .inf, .mem, .data, .swp, .sel, .slv, .twin, .swap, .sec, .bus, .replay, .sent, .free]
  | .liveTableWrite _ _ _ _ => [.indlog, .regs, .frame, .cnd, .wld, .log, .queue, .boot, .mem, .swap, .sent]
  | .dataPacketRoute _ => [.indlog, .regs, .cnd, .wld, .log, .queue, .mem, .data, .sent]
  | .revokeLease _ _ => [.indlog, .regs, .cnd, .log, .queue, .mem, .sec, .bus, .sent, .free]
  | .quarantineUnit _ => [.indlog, .regs, .frame, .cnd, .safe, .log, .queue, .mem, .swp, .sec, .bus, .sent, .free]
  | .haltUnit _ => [.regs, .cnd]
  | .tileQuarantine _ => [.indlog, .regs, .frame, .cnd, .safe, .log, .queue, .mem, .swp, .sec, .bus, .sent, .free]
  | .stwQuarWrite _ _ _ => [.indlog, .regs, .frame, .cnd, .safe, .log, .queue, .mem, .swp, .sec, .bus, .sent, .free]
  | .revocationConfirmTimeout _ => [.pwr, .raise, .indlog, .regs, .frame, .num, .cnd, .wld, .restart, .log, .queue, .mem, .twin, .swap, .sec, .bus, .replay, .sent, .free]
  | .swpStwRelease _ _ _ => [.indlog, .regs, .cnd, .log, .queue, .sent]
  | .infRelease _ _ _ => [.indlog, .regs, .cnd, .log, .queue, .sent]
  | .slvRelease _ _ => [.indlog, .regs, .cnd, .log, .queue, .sent]
  | .counterClear _ _ => [.indlog, .regs, .log, .queue, .sent]
  | .frameStart _ _ => [.indlog, .regs, .ing, .log, .queue, .fifo]
  | .csi2Packet _ _ _ _ _ _ => [.indlog, .regs, .ing, .log, .queue, .fifo]
  | .frameEnd _ _ => [.indlog, .regs, .ing, .cnd, .wld, .log, .queue, .mem, .data, .twin, .fifo, .sent]
  | .lidarPacket _ _ => [.indlog, .regs, .ing, .cnd, .wld, .log, .queue, .mem, .data, .twin, .fifo, .sent]
  | .imuDrdy _ => [.regs, .ing]
  | .imuBurstDone _ _ _ => [.indlog, .regs, .ing, .cnd, .wld, .log, .queue, .mem, .data, .twin, .sent]
  | .nmeaSentence _ _ => [.time, .indlog, .regs, .ing, .cnd, .wld, .log, .queue, .mem, .data, .twin, .fifo, .sent]
  | .ppsEdge _ _ => [.time, .indlog, .regs, .log, .queue, .free]
  | .ppsMissing _ => [.time, .indlog, .regs, .log, .queue]
  | .gptpSync _ _ => [.time, .indlog, .regs, .log, .queue, .free]
  | .gptpSyncTimer _ => [.sent]
  | .peerDelayTimer _ _ => [.time, .sent]
  | .arpRequest _ _ _ => [.sent]
  | .linkLost _ => [.indlog, .regs, .ing, .log, .queue, .bus]
  | .linkReturned _ => [.indlog, .regs, .ing, .log, .queue]
  | .testPeriod _ => [.ing]
  | .testItemInject _ => [.ing]
  | .testItemDone _ _ => [.indlog, .regs, .ing, .frame, .log, .queue]
  | .testStarved _ => [.indlog, .regs, .ing, .log, .queue]
  | .mirrorSample _ _ _ => [.indlog, .regs, .ing, .cnd, .wld, .log, .queue, .mem, .data]
  | .sliceFused _ => [.regs, .ing, .wld, .mad]
  | .solidHoldExpiry _ => [.wld]
  | .pull _ => [.regs, .cnd]
  | .workGrant _ => [.indlog, .regs, .cnd, .wld, .log, .queue, .inf, .mem, .data, .swp, .free]
  | .taskComplete _ _ => [.indlog, .regs, .ing, .frame, .cnd, .wld, .safe, .log, .queue, .inf, .mem, .data, .swp, .sec, .bus, .sent, .free]
  | .taskBudgetExpiry _ => [.indlog, .regs, .frame, .cnd, .safe, .log, .queue, .mem, .swp, .sec, .bus, .sent, .free]
  | .waitTimeout _ => [.indlog, .regs, .frame, .cnd, .safe, .log, .queue, .mem, .swp, .sec, .bus, .sent, .free]
  | .leaseRequest _ _ _ _ => [.regs, .cnd, .sent]
  | .leaseRelease _ _ => [.regs, .cnd]
  | .leaseRenew _ _ => [.cnd]
  | .leaseTermExpiry _ _ => [.indlog, .regs, .frame, .cnd, .safe, .log, .queue, .mem, .swp, .sec, .bus, .sent, .free]
  | .leaseRevokeConfirm _ _ => [.regs, .mem]
  | .edgeAckTimeout => [.pwr, .raise, .indlog, .regs, .frame, .num, .cnd, .wld, .restart, .log, .queue, .mem, .twin, .swap, .sec, .bus, .replay, .sent, .free]
  | .flowItemComplete _ _ => [.indlog, .regs, .cnd, .log, .queue]
  | .itemTimeout _ _ => [.indlog, .regs, .cnd, .log, .queue]
  | .candidateWriterStart _ => [.frame, .cnd, .data, .swp, .free]
  | .gatherIssue _ => [.regs, .swp]
  | .gatherAnswer _ _ _ => [.indlog, .regs, .frame, .wld, .log, .queue, .inf, .mem, .data, .swp, .free]
  | .gatherTimeout _ _ => [.indlog, .regs, .wld, .log, .queue, .inf, .mem, .data, .swp, .free]
  | .keyPacketSend _ => [.indlog, .regs, .wld, .log, .queue, .mem, .data, .swp]
  | .flushLead => [.swp]
  | .l2RewriteDone _ _ => [.mem, .data]
  | .testSliceDone _ => [.indlog, .regs, .frame, .cnd, .safe, .log, .queue, .mem, .swp, .sec, .bus, .sent, .free]
  | .peerCheck _ => [.indlog, .regs, .frame, .cnd, .safe, .log, .queue, .mem, .swp, .sec, .bus, .sent, .free]
  | .selectLaneAccept _ => [.indlog, .regs, .frame, .wld, .log, .queue, .inf, .mem, .data, .swp, .sel, .free]
  | .selectRecord _ => [.indlog, .regs, .wld, .log, .queue, .mem, .data, .sel]
  | .quarantineNotice _ => [.sel]
  | .selectTestDone _ => [.pwr, .raise, .indlog, .regs, .num, .cnd, .wld, .restart, .log, .queue, .mem, .sel, .twin, .swap, .sec, .bus, .replay, .sent, .free]
  | .mergeDone => [.indlog, .regs, .frame, .cnd, .wld, .mad, .log, .queue, .mem, .data, .sel, .slv, .twin, .sent, .free]
  | .solverSetupDone _ => [.slv]
  | .solverIterationDone _ _ _ => [.indlog, .regs, .frame, .wld, .log, .queue, .inf, .mem, .data, .slv, .free]
  | .laneEnd _ => [.regs, .frame, .mad, .slv, .twin, .sent, .free]
  | .solverTestDone _ _ => [.indlog, .regs, .log, .queue, .slv]
  | .madderVerdict _ _ => [.pwr, .raise, .indlog, .fuse, .regs, .frame, .emit, .num, .cnd, .wld, .umb, .mad, .safe, .restart, .log, .queue, .boot, .mem, .swp, .slv, .twin, .pair, .swap, .sec, .bus, .replay, .sent, .free]
  | .madderInjectionDone _ _ _ => [.pwr, .raise, .indlog, .regs, .mad, .log, .queue, .twin, .sent]
  | .stopLimitExpiry => [.raise, .indlog, .regs, .log, .queue]
  | .releaseAck _ _ _ => [.regs, .acked, .bus]
  | .watchdogKick => [.ind, .regs]
  | .watchdogExpiry => [.pwr, .raise, .indlog, .regs, .log, .queue, .twin, .sent]
  | .doubtPersist => [.pwr, .raise, .indlog, .regs, .num, .cnd, .wld, .restart, .log, .queue, .mem, .twin, .swap, .sec, .bus, .replay, .sent, .free]
  | .fabricRestart _ _ => [.pwr, .raise, .indlog, .regs, .ing, .frame, .num, .cnd, .wld, .epoch, .safe, .restart, .log, .queue, .inf, .mem, .data, .swp, .sel, .slv, .twin, .swap, .sec, .bus, .replay, .sent, .free]
  | .restartStepTimeout => [.pwr, .raise, .indlog, .regs, .log, .queue, .twin, .sent]
  | .safeCtlRestart _ => [.pwr, .raise, .indlog, .regs, .num, .cnd, .wld, .restart, .log, .queue, .mem, .twin, .swap, .sec, .bus, .replay, .sent, .free]
  | .safeCtlStop _ => [.raise, .indlog, .regs, .log, .queue, .sent]
  | .kermesStart _ _ => [.indlog, .regs, .frame, .cnd, .safe, .log, .queue, .mem, .swp, .sec, .bus, .sent, .free]
  | .kermesPackDone _ => [.indlog, .regs, .cnd, .safe, .log, .queue]
  | .kermesOvertime => [.indlog, .regs, .cnd, .safe, .log, .queue]
  | .faultRecordDrain => [.indlog, .regs, .wld, .log, .queue, .mem, .data]
  | .dmaSegmentBoundary _ _ => [.cnd, .mem]
  | .engineSegmentBoundary _ => [.regs, .cnd]
  | .scrubRead _ _ _ _ => [.indlog, .regs, .wld, .log, .queue, .mem, .data]
  | .scrubLag _ => [.indlog, .regs, .log, .queue, .mem]
  | .ceWindow _ _ => [.indlog, .regs, .frame, .cnd, .safe, .log, .queue, .mem, .swp, .sec, .bus, .sent, .free]
  | .wipeDone _ _ => [.indlog, .regs, .cnd, .wld, .log, .queue, .mem, .data, .sec, .bus, .sent, .free]
  | .pathCheck _ _ => [.indlog, .regs, .cnd, .log, .queue, .swp, .sec, .bus, .sent, .free]
  | .planToGoal _ _ _ => [.indlog, .regs, .cnd, .log, .queue, .swp, .sel, .sec, .bus, .sent, .free]
  | .goalWaitExpiry _ _ => [.cnd]
  | .corridorWatch _ _ => [.indlog, .regs, .cnd, .log, .queue, .swp, .sec, .bus, .sent, .free]
  | .corridorWatchEnd _ _ => [.indlog, .regs, .cnd, .log, .queue, .swp, .sec, .bus, .sent, .free]
  | .start _ _ _ => [.indlog, .regs, .cnd, .log, .queue, .swp, .sec, .bus, .sent, .free]
  | .suspend _ _ => [.indlog, .regs, .cnd, .log, .queue, .swp, .sec, .bus, .sent, .free]
  | .resume _ _ => [.indlog, .regs, .cnd, .log, .queue, .swp, .sec, .bus, .sent, .free]
  | .cancel _ _ => [.indlog, .regs, .cnd, .log, .queue, .mem, .swp, .sec, .bus, .sent, .free]
  | .query _ _ => [.indlog, .regs, .log, .queue, .swp, .sec, .bus, .sent, .free]
  | .workUnitEnd _ _ _ => [.indlog, .regs, .frame, .cnd, .wld, .safe, .log, .queue, .mem, .swp, .sec, .bus, .sent, .free]
  | .workUnitTimeout _ => [.indlog, .regs, .cnd, .log, .queue, .mem, .sec, .bus, .sent, .free]
  | .woadLinkDown _ => [.indlog, .regs, .log, .queue, .twin]
  | .woadLinkUp => [.indlog, .regs, .log, .queue, .twin]
  | .woadLinkFrame _ => [.pwr, .indlog, .regs, .log, .queue, .twin, .pair]
  | .helloTimer => [.twin, .sent, .free]
  | .hello _ => [.pwr, .indlog, .regs, .log, .queue, .twin, .pair, .sent, .free]
  | .config _ => [.pwr, .indlog, .regs, .log, .queue, .twin, .pair, .swap, .sent]
  | .pairWaitExpiry => [.pwr, .indlog, .regs, .log, .queue, .twin, .pair]
  | .edge _ => [.indlog, .regs, .log, .queue, .twin, .pair, .free]
  | .delayExchangeTimer => [.twin, .sent]
  | .delayReq _ => [.twin, .sent]
  | .delayResp _ _ _ _ _ => [.time, .regs, .twin, .free]
  | .digest _ _ => [.indlog, .regs, .log, .queue, .twin, .pair]
  | .propose _ => [.indlog, .regs, .wld, .log, .queue, .twin, .swap, .sent, .free]
  | .ack _ => [.regs, .twin, .swap, .sent]
  | .refuse _ _ => [.indlog, .regs, .wld, .log, .queue, .twin, .swap, .sent]
  | .commit _ => [.regs, .twin, .swap, .sent]
  | .commitAck _ => [.swap]
  | .journal _ _ => [.regs, .twin, .swap]
  | .abdicate _ _ => [.indlog, .regs, .umb, .log, .queue, .slv, .twin, .pair, .bus, .sent]
  | .takeoverSilence => [.indlog, .regs, .umb, .log, .queue, .slv, .twin, .pair, .bus, .sent]
  | .offer _ => [.raise, .indlog, .fuse, .regs, .frame, .emit, .umb, .log, .queue, .boot, .slv, .twin, .bus, .sent, .free]
  | .verdict _ _ _ _ => [.raise, .indlog, .fuse, .regs, .frame, .emit, .umb, .log, .queue, .boot, .slv, .twin, .pair, .bus, .sent, .free]
  | .emitted _ _ => [.umb]
  | .eligHoldExpiry => [.indlog, .regs, .log, .queue, .twin, .pair]
  | .xlateExpiry => [.indlog, .regs, .log, .queue, .twin, .pair]
  | .rejoinCountExpiry => [.twin, .sent, .free]
  | .jtagBypass => [.sec]
  | .jtagIdcode => [.sec, .sent]
  | .jtagSamplePreload => [.sec]
  | .jtagExtest => [.sec]
  | .jtagDebug => [.sec]
  | .lcGo _ => [.indlog, .regs, .log, .queue, .sec, .sent]
  | .lcTokenDone => [.phase, .raise, .ind, .indlog, .fuse, .regs, .log, .queue, .mem, .data, .twin, .sec, .free]
  | .kxGo _ => [.indlog, .regs, .log, .queue, .sec, .sent]
  | .kxDone => [.indlog, .regs, .log, .queue, .sec, .sent, .free]
  | .tamperTrip _ => [.pwr, .phase, .raise, .ind, .indlog, .regs, .cnd, .log, .queue, .mem, .data, .twin, .pair, .sec, .sent, .free]
  | .meshCheck _ => [.pwr, .phase, .raise, .ind, .indlog, .regs, .cnd, .log, .queue, .mem, .data, .twin, .pair, .sec, .sent, .free]
  | .cmdDoorbell _ _ _ => [.indlog, .regs, .log, .queue, .sec, .sent, .free]
  | .hostMessage _ => [.indlog, .regs, .log, .queue, .sec, .sent, .free]
  | .completionWrite => [.regs, .sec, .sent]
  | .deviceMsgTimeout => [.sec]
  | .ringDisable _ => [.indlog, .regs, .log, .queue, .sec, .sent, .free]
  | .canFrameRx _ _ => [.indlog, .regs, .ing, .cnd, .wld, .log, .queue, .mem, .data, .twin, .fifo, .sent]
  | .addressClaimStart => [.regs, .bus, .sent]
  | .addressClaimTimer => [.indlog, .regs, .log, .queue]
  | .addressClaimed _ => [.indlog, .regs, .log, .queue, .bus, .sent]
  | .requestPgn _ _ _ => [.sent]
  | .tpMessage _ _ => [.indlog, .regs, .ing, .cnd, .wld, .log, .queue, .mem, .data, .twin, .bus, .sent, .free]
  | .clientUnit _ _ _ _ => [.indlog, .regs, .cnd, .acked, .log, .queue, .mem, .swp, .sel, .sec, .bus, .sent, .free]
  | .heartbeatRx _ => [.indlog, .regs, .log, .queue, .bus]
  | .hbTimeoutExpiry => [.indlog, .regs, .log, .queue, .bus]
  | .bundlePartTxDone => [.regs, .bus, .sent]
  | .canTxError _ => [.indlog, .regs, .log, .queue, .bus, .sent]
  | .guidanceBundleRx _ _ _ => [.indlog, .regs, .safe, .log, .queue, .twin, .pair, .bus]
  | .busOff _ => [.indlog, .regs, .log, .queue, .bus]
  | .busOffRecovered _ => [.indlog, .regs, .log, .queue, .bus, .sent]
  | .busOffHoldExpiry _ => [.regs]
  | .statPeriodTimer => [.bus, .sent]
  | .ochreDatagram => [.regs, .log, .och, .sent]
  | .ochreKeepalive => [.regs, .och, .sent]
  | .ochreResendRequest _ => [.regs, .och, .sent]
  | .plcaBeaconLost => [.indlog, .regs, .log, .queue]
  | .plcaBeaconReturned => [.indlog, .regs, .log, .queue]
  | .powerGood => [.raise]
  | .pwrgdTimeout => [.phase, .indlog, .regs, .log]
  | .porRelease _ => [.pwr, .phase, .raise, .ind, .indlog, .fuse, .regs, .ing, .frame, .cnd, .wld, .safe, .log, .queue, .boot, .mem, .data, .swp, .sel, .slv, .twin, .pair, .sec, .bus, .sent, .free, .cold]
  | .swapRequest _ _ _ => [.indlog, .regs, .wld, .log, .queue, .swap]
  | .swapCancel _ => [.indlog, .regs, .wld, .log, .queue, .twin, .swap, .sent]
  | .stageReport _ => [.indlog, .regs, .wld, .log, .queue, .twin, .swap, .sent]
  | .stageLimitExpiry => [.indlog, .regs, .wld, .log, .queue, .twin, .swap, .sent]
  | .replayEnter _ => [.pwr, .raise, .indlog, .regs, .ing, .num, .cnd, .wld, .epoch, .umb, .log, .queue, .inf, .mem, .data, .swp, .sel, .slv, .twin, .swap, .sec, .bus, .replay, .sent, .free]
  | .replayExit _ => [.indlog, .regs, .num, .cnd, .restart, .log, .queue, .mem, .sec, .bus, .replay, .sent, .free]
  | .replayUnit _ => [.indlog, .regs, .ing, .frame, .num, .cnd, .wld, .epoch, .held, .mad, .safe, .log, .queue, .inf, .mem, .data, .swp, .sel, .slv, .sec, .bus, .replay, .sent, .free]
  | .replayFrameEnd => [.raise, .stop, .indlog, .fuse, .regs, .frame, .emit, .cnd, .wld, .umb, .safe, .acked, .log, .queue, .boot, .mem, .data, .slv, .twin, .sec, .bus, .replay, .obs, .sent, .free]
  | .pwrgdLost => [.pwr, .phase, .raise, .indlog, .regs, .log, .queue, .bus]
  | .vcoreOutOfRange => [.pwr, .phase, .raise, .indlog, .regs, .cnd, .log, .queue, .mem, .twin, .sec, .bus, .sent, .free]
  | .vcoreTargetWrite _ _ => [.pwr, .indlog, .regs, .log, .queue, .sent]
  | .avsNoAnswer => [.pwr, .indlog, .regs, .log, .queue]
  | .tjWarn => [.indlog, .regs, .log, .queue]
  | .hbmHot => [.pwr, .regs]
  | .hbmWarn => [.indlog, .regs, .log, .queue]
  | .thermalShutdown => [.pwr, .phase, .raise, .indlog, .regs, .log, .queue, .twin, .sent]
  | .ignHoldExpiry => [.pwr, .phase, .raise, .indlog, .regs, .log, .queue, .bus]
  | .sleep _ => [.phase, .raise, .indlog, .regs, .log, .queue, .sent]
  | .wake _ => [.pwr, .phase, .regs]
  | .vbatLoss => [.indlog, .regs]
  | .trimAdjust => [.regs, .free]
  | .vbatPowerUp => [.phase, .regs, .vbat]
  | .hbmCool => [.pwr, .regs]
  | .tpSessionTimeout _ => [.regs, .bus, .sent]
  | .gptpSyncTimeout _ => [.time, .indlog, .regs, .log, .queue]
  | .supLinkUp _ _ => [.regs]
  | .supLinkDown => [.regs]

/-- A command writes no other parts: what survives changes of its parts survives it. -/
theorem exec_keeps {P : State → Prop} (c : Instr) (C : Keeps (writes c) P) {s : State} (h : P s) : Next P (exec c s) := by
  cases c with
  | frameEdge a => exact show Next P (execFrameEdge a s) from execFrameEdge_keeps C h
  | proposeHardStop a b => exact show Next P (execProposeHardStop a b s) from execProposeHardStop_keeps C h
  | sweepHardStop => exact show Next P (execSweepHardStop s) from execSweepHardStop_keeps C h
  | selectHardStop a => exact show Next P (execSelectHardStop a s) from execSelectHardStop_keeps C h
  | refineHardStop a => exact show Next P (execRefineHardStop a s) from execRefineHardStop_keeps C h
  | verifyHardStop a => exact show Next P (execVerifyHardStop a s) from execVerifyHardStop_keeps C h
  | emitHardStop a => exact show Next P (execEmitHardStop a s) from execEmitHardStop_keeps C h
  | mutexForce a b c => exact show Next P (execMutexForce a b c s) from execMutexForce_keeps C h
  | mgmtAccessTimeout a b c => exact show Next P (execMgmtAccessTimeout a b c s) from execMgmtAccessTimeout_keeps C h
  | registerWrite a b c => exact show Next P (execRegisterWrite a b c s) from execRegisterWrite_keeps C h
  | liveTableWrite a b c d => exact show Next P (execLiveTableWrite a b c d s) from execLiveTableWrite_keeps C h
  | dataPacketRoute a => exact show Next P (execDataPacketRoute a s) from execDataPacketRoute_keeps C h
  | revokeLease a b => exact show Next P (execRevokeLease a b s) from execRevokeLease_keeps C h
  | quarantineUnit a => exact show Next P (execQuarantineUnit a s) from execQuarantineUnit_keeps C h
  | haltUnit a => exact show Next P (execHaltUnit a s) from execHaltUnit_keeps C h
  | tileQuarantine a => exact show Next P (execTileQuarantine a s) from execTileQuarantine_keeps C h
  | stwQuarWrite a b c => exact show Next P (execStwQuarWrite a b c s) from execStwQuarWrite_keeps C h
  | revocationConfirmTimeout a => exact show Next P (execRevocationConfirmTimeout a s) from execRevocationConfirmTimeout_keeps C h
  | swpStwRelease a b c => exact show Next P (execSwpStwRelease a b c s) from execSwpStwRelease_keeps C h
  | infRelease a b c => exact show Next P (execInfRelease a b c s) from execInfRelease_keeps C h
  | slvRelease a b => exact show Next P (execSlvRelease a b s) from execSlvRelease_keeps C h
  | counterClear a b => exact show Next P (execCounterClear a b s) from execCounterClear_keeps C h
  | frameStart a b => exact show Next P (execFrameStart a b s) from execFrameStart_keeps C h
  | csi2Packet a b c d e f => exact show Next P (execCsi2Packet a b c d e f s) from execCsi2Packet_keeps C h
  | frameEnd a b => exact show Next P (execFrameEnd a b s) from execFrameEnd_keeps C h
  | lidarPacket a b => exact show Next P (execLidarPacket a b s) from execLidarPacket_keeps C h
  | imuDrdy a => exact show Next P (execImuDrdy a s) from execImuDrdy_keeps C h
  | imuBurstDone a b c => exact show Next P (execImuBurstDone a b c s) from execImuBurstDone_keeps C h
  | nmeaSentence a b => exact show Next P (execNmeaSentence a b s) from execNmeaSentence_keeps C h
  | ppsEdge a b => exact show Next P (execPpsEdge a b s) from execPpsEdge_keeps C h
  | ppsMissing a => exact show Next P (execPpsMissing a s) from execPpsMissing_keeps C h
  | gptpSync a b => exact show Next P (execGptpSync a b s) from execGptpSync_keeps C h
  | gptpSyncTimer a => exact show Next P (execGptpSyncTimer a s) from execGptpSyncTimer_keeps C h
  | peerDelayTimer a b => exact show Next P (execPeerDelayTimer a b s) from execPeerDelayTimer_keeps C h
  | arpRequest a b c => exact show Next P (execArpRequest a b c s) from execArpRequest_keeps C h
  | linkLost a => exact show Next P (execLinkLost a s) from execLinkLost_keeps C h
  | linkReturned a => exact show Next P (execLinkReturned a s) from execLinkReturned_keeps C h
  | testPeriod a => exact show Next P (execTestPeriod a s) from execTestPeriod_keeps C h
  | testItemInject a => exact show Next P (execTestItemInject a s) from execTestItemInject_keeps C h
  | testItemDone a b => exact show Next P (execTestItemDone a b s) from execTestItemDone_keeps C h
  | testStarved a => exact show Next P (execTestStarved a s) from execTestStarved_keeps C h
  | mirrorSample a b c => exact show Next P (execMirrorSample a b c s) from execMirrorSample_keeps C h
  | sliceFused a => exact show Next P (execSliceFused a s) from execSliceFused_keeps C h
  | solidHoldExpiry a => exact show Next P (execSolidHoldExpiry a s) from execSolidHoldExpiry_keeps C h
  | pull a => exact show Next P (execPull a s) from execPull_keeps C h
  | workGrant a => exact show Next P (execWorkGrant a s) from execWorkGrant_keeps C h
  | taskComplete a b => exact show Next P (execTaskComplete a b s) from execTaskComplete_keeps C h
  | taskBudgetExpiry a => exact show Next P (execTaskBudgetExpiry a s) from execTaskBudgetExpiry_keeps C h
  | waitTimeout a => exact show Next P (execWaitTimeout a s) from execWaitTimeout_keeps C h
  | leaseRequest a b c d => exact show Next P (execLeaseRequest a b c d s) from execLeaseRequest_keeps C h
  | leaseRelease a b => exact show Next P (execLeaseRelease a b s) from execLeaseRelease_keeps C h
  | leaseRenew a b => exact show Next P (execLeaseRenew a b s) from execLeaseRenew_keeps C h
  | leaseTermExpiry a b => exact show Next P (execLeaseTermExpiry a b s) from execLeaseTermExpiry_keeps C h
  | leaseRevokeConfirm a b => exact show Next P (execLeaseRevokeConfirm a b s) from execLeaseRevokeConfirm_keeps C h
  | edgeAckTimeout => exact show Next P (execEdgeAckTimeout s) from execEdgeAckTimeout_keeps C h
  | flowItemComplete a b => exact show Next P (execFlowItemComplete a b s) from execFlowItemComplete_keeps C h
  | itemTimeout a b => exact show Next P (execItemTimeout a b s) from execItemTimeout_keeps C h
  | candidateWriterStart a => exact show Next P (execCandidateWriterStart a s) from execCandidateWriterStart_keeps C h
  | gatherIssue a => exact show Next P (execGatherIssue a s) from execGatherIssue_keeps C h
  | gatherAnswer a b c => exact show Next P (execGatherAnswer a b c s) from execGatherAnswer_keeps C h
  | gatherTimeout a b => exact show Next P (execGatherTimeout a b s) from execGatherTimeout_keeps C h
  | keyPacketSend a => exact show Next P (execKeyPacketSend a s) from execKeyPacketSend_keeps C h
  | flushLead => exact show Next P (execFlushLead s) from execFlushLead_keeps C h
  | l2RewriteDone a b => exact show Next P (execL2RewriteDone a b s) from execL2RewriteDone_keeps C h
  | testSliceDone a => exact show Next P (execTestSliceDone a s) from execTestSliceDone_keeps C h
  | peerCheck a => exact show Next P (execPeerCheck a s) from execPeerCheck_keeps C h
  | selectLaneAccept a => exact show Next P (execSelectLaneAccept a s) from execSelectLaneAccept_keeps C h
  | selectRecord a => exact show Next P (execSelectRecord a s) from execSelectRecord_keeps C h
  | quarantineNotice a => exact show Next P (execQuarantineNotice a s) from execQuarantineNotice_keeps C h
  | selectTestDone a => exact show Next P (execSelectTestDone a s) from execSelectTestDone_keeps C h
  | mergeDone => exact show Next P (execMergeDone s) from execMergeDone_keeps C h
  | solverSetupDone a => exact show Next P (execSolverSetupDone a s) from execSolverSetupDone_keeps C h
  | solverIterationDone a b c => exact show Next P (execSolverIterationDone a b c s) from execSolverIterationDone_keeps C h
  | laneEnd a => exact show Next P (execLaneEnd a s) from execLaneEnd_keeps C h
  | solverTestDone a b => exact show Next P (execSolverTestDone a b s) from execSolverTestDone_keeps C h
  | madderVerdict a b => exact show Next P (execMadderVerdict a b s) from execMadderVerdict_keeps C h
  | madderInjectionDone a b c => exact show Next P (execMadderInjectionDone a b c s) from execMadderInjectionDone_keeps C h
  | stopLimitExpiry => exact show Next P (execStopLimitExpiry s) from execStopLimitExpiry_keeps C h
  | releaseAck a b c => exact show Next P (execReleaseAck a b c s) from execReleaseAck_keeps C h
  | watchdogKick => exact show Next P (execWatchdogKick s) from execWatchdogKick_keeps C h
  | watchdogExpiry => exact show Next P (execWatchdogExpiry s) from execWatchdogExpiry_keeps C h
  | doubtPersist => exact show Next P (execDoubtPersist s) from execDoubtPersist_keeps C h
  | fabricRestart a b => exact show Next P (execFabricRestart a b s) from execFabricRestart_keeps C h
  | restartStepTimeout => exact show Next P (execRestartStepTimeout s) from execRestartStepTimeout_keeps C h
  | safeCtlRestart a => exact show Next P (execSafeCtlRestart a s) from execSafeCtlRestart_keeps C h
  | safeCtlStop a => exact show Next P (execSafeCtlStop a s) from execSafeCtlStop_keeps C h
  | kermesStart a b => exact show Next P (execKermesStart a b s) from execKermesStart_keeps C h
  | kermesPackDone a => exact show Next P (execKermesPackDone a s) from execKermesPackDone_keeps C h
  | kermesOvertime => exact show Next P (execKermesOvertime s) from execKermesOvertime_keeps C h
  | faultRecordDrain => exact show Next P (execFaultRecordDrain s) from execFaultRecordDrain_keeps C h
  | dmaSegmentBoundary a b => exact show Next P (execDmaSegmentBoundary a b s) from execDmaSegmentBoundary_keeps C h
  | engineSegmentBoundary a => exact show Next P (execEngineSegmentBoundary a s) from execEngineSegmentBoundary_keeps C h
  | scrubRead a b c d => exact show Next P (execScrubRead a b c d s) from execScrubRead_keeps C h
  | scrubLag a => exact show Next P (execScrubLag a s) from execScrubLag_keeps C h
  | ceWindow a b => exact show Next P (execCeWindow a b s) from execCeWindow_keeps C h
  | wipeDone a b => exact show Next P (execWipeDone a b s) from execWipeDone_keeps C h
  | pathCheck a b => exact show Next P (execPathCheck a b s) from execPathCheck_keeps C h
  | planToGoal a b c => exact show Next P (execPlanToGoal a b c s) from execPlanToGoal_keeps C h
  | goalWaitExpiry a b => exact show Next P (execGoalWaitExpiry a b s) from execGoalWaitExpiry_keeps C h
  | corridorWatch a b => exact show Next P (execCorridorWatch a b s) from execCorridorWatch_keeps C h
  | corridorWatchEnd a b => exact show Next P (execCorridorWatchEnd a b s) from execCorridorWatchEnd_keeps C h
  | start a b c => exact show Next P (execStart a b c s) from execStart_keeps C h
  | suspend a b => exact show Next P (execSuspend a b s) from execSuspend_keeps C h
  | resume a b => exact show Next P (execResume a b s) from execResume_keeps C h
  | cancel a b => exact show Next P (execCancel a b s) from execCancel_keeps C h
  | query a b => exact show Next P (execQuery a b s) from execQuery_keeps C h
  | workUnitEnd a b c => exact show Next P (execWorkUnitEnd a b c s) from execWorkUnitEnd_keeps C h
  | workUnitTimeout a => exact show Next P (execWorkUnitTimeout a s) from execWorkUnitTimeout_keeps C h
  | woadLinkDown a => exact show Next P (execWoadLinkDown a s) from execWoadLinkDown_keeps C h
  | woadLinkUp => exact show Next P (execWoadLinkUp s) from execWoadLinkUp_keeps C h
  | woadLinkFrame a => exact show Next P (execWoadLinkFrame a s) from execWoadLinkFrame_keeps C h
  | helloTimer => exact show Next P (execHelloTimer s) from execHelloTimer_keeps C h
  | hello a => exact show Next P (execHello a s) from execHello_keeps C h
  | config a => exact show Next P (execConfig a s) from execConfig_keeps C h
  | pairWaitExpiry => exact show Next P (execPairWaitExpiry s) from execPairWaitExpiry_keeps C h
  | edge a => exact show Next P (execEdge a s) from execEdge_keeps C h
  | delayExchangeTimer => exact show Next P (execDelayExchangeTimer s) from execDelayExchangeTimer_keeps C h
  | delayReq a => exact show Next P (execDelayReq a s) from execDelayReq_keeps C h
  | delayResp a b c d e => exact show Next P (execDelayResp a b c d e s) from execDelayResp_keeps C h
  | digest a b => exact show Next P (execDigest a b s) from execDigest_keeps C h
  | propose a => exact show Next P (execPropose a s) from execPropose_keeps C h
  | ack a => exact show Next P (execAck a s) from execAck_keeps C h
  | refuse a b => exact show Next P (execRefuse a b s) from execRefuse_keeps C h
  | commit a => exact show Next P (execCommit a s) from execCommit_keeps C h
  | commitAck a => exact show Next P (execCommitAck a s) from execCommitAck_keeps C h
  | journal a b => exact show Next P (execJournal a b s) from execJournal_keeps C h
  | abdicate a b => exact show Next P (execAbdicate a b s) from execAbdicate_keeps C h
  | takeoverSilence => exact show Next P (execTakeoverSilence s) from execTakeoverSilence_keeps C h
  | offer a => exact show Next P (execOffer a s) from execOffer_keeps C h
  | verdict a b c d => exact show Next P (execVerdict a b c d s) from execVerdict_keeps C h
  | emitted a b => exact show Next P (execEmitted a b s) from execEmitted_keeps C h
  | eligHoldExpiry => exact show Next P (execEligHoldExpiry s) from execEligHoldExpiry_keeps C h
  | xlateExpiry => exact show Next P (execXlateExpiry s) from execXlateExpiry_keeps C h
  | rejoinCountExpiry => exact show Next P (execRejoinCountExpiry s) from execRejoinCountExpiry_keeps C h
  | jtagBypass => exact show Next P (execJtagBypass s) from execJtagBypass_keeps C h
  | jtagIdcode => exact show Next P (execJtagIdcode s) from execJtagIdcode_keeps C h
  | jtagSamplePreload => exact show Next P (execJtagSamplePreload s) from execJtagSamplePreload_keeps C h
  | jtagExtest => exact show Next P (execJtagExtest s) from execJtagExtest_keeps C h
  | jtagDebug => exact show Next P (execJtagDebug s) from execJtagDebug_keeps C h
  | lcGo a => exact show Next P (execLcGo a s) from execLcGo_keeps C h
  | lcTokenDone => exact show Next P (execLcTokenDone s) from execLcTokenDone_keeps C h
  | kxGo a => exact show Next P (execKxGo a s) from execKxGo_keeps C h
  | kxDone => exact show Next P (execKxDone s) from execKxDone_keeps C h
  | tamperTrip a => exact show Next P (execTamperTrip a s) from execTamperTrip_keeps C h
  | meshCheck a => exact show Next P (execMeshCheck a s) from execMeshCheck_keeps C h
  | cmdDoorbell a b c => exact show Next P (execCmdDoorbell a b c s) from execCmdDoorbell_keeps C h
  | hostMessage a => exact show Next P (execHostMessage a s) from execHostMessage_keeps C h
  | completionWrite => exact show Next P (execCompletionWrite s) from execCompletionWrite_keeps C h
  | deviceMsgTimeout => exact show Next P (execDeviceMsgTimeout s) from execDeviceMsgTimeout_keeps C h
  | ringDisable a => exact show Next P (execRingDisable a s) from execRingDisable_keeps C h
  | canFrameRx a b => exact show Next P (execCanFrameRx a b s) from execCanFrameRx_keeps C h
  | addressClaimStart => exact show Next P (execAddressClaimStart s) from execAddressClaimStart_keeps C h
  | addressClaimTimer => exact show Next P (execAddressClaimTimer s) from execAddressClaimTimer_keeps C h
  | addressClaimed a => exact show Next P (execAddressClaimed a s) from execAddressClaimed_keeps C h
  | requestPgn a b c => exact show Next P (execRequestPgn a b c s) from execRequestPgn_keeps C h
  | tpMessage a b => exact show Next P (execTpMessage a b s) from execTpMessage_keeps C h
  | clientUnit a b c d => exact show Next P (execClientUnit a b c d s) from execClientUnit_keeps C h
  | heartbeatRx a => exact show Next P (execHeartbeatRx a s) from execHeartbeatRx_keeps C h
  | hbTimeoutExpiry => exact show Next P (execHbTimeoutExpiry s) from execHbTimeoutExpiry_keeps C h
  | bundlePartTxDone => exact show Next P (execBundlePartTxDone s) from execBundlePartTxDone_keeps C h
  | canTxError a => exact show Next P (execCanTxError a s) from execCanTxError_keeps C h
  | guidanceBundleRx a b c => exact show Next P (execGuidanceBundleRx a b c s) from execGuidanceBundleRx_keeps C h
  | busOff a => exact show Next P (execBusOff a s) from execBusOff_keeps C h
  | busOffRecovered a => exact show Next P (execBusOffRecovered a s) from execBusOffRecovered_keeps C h
  | busOffHoldExpiry a => exact show Next P (execBusOffHoldExpiry a s) from execBusOffHoldExpiry_keeps C h
  | statPeriodTimer => exact show Next P (execStatPeriodTimer s) from execStatPeriodTimer_keeps C h
  | ochreDatagram => exact show Next P (execOchreDatagram s) from execOchreDatagram_keeps C h
  | ochreKeepalive => exact show Next P (execOchreKeepalive s) from execOchreKeepalive_keeps C h
  | ochreResendRequest a => exact show Next P (execOchreResendRequest a s) from execOchreResendRequest_keeps C h
  | plcaBeaconLost => exact show Next P (execPlcaBeaconLost s) from execPlcaBeaconLost_keeps C h
  | plcaBeaconReturned => exact show Next P (execPlcaBeaconReturned s) from execPlcaBeaconReturned_keeps C h
  | powerGood => exact show Next P (execPowerGood s) from execPowerGood_keeps C h
  | pwrgdTimeout => exact show Next P (execPwrgdTimeout s) from execPwrgdTimeout_keeps C h
  | porRelease a => exact show Next P (execPorRelease a s) from execPorRelease_keeps C h
  | swapRequest a b c => exact show Next P (execSwapRequest a b c s) from execSwapRequest_keeps C h
  | swapCancel a => exact show Next P (execSwapCancel a s) from execSwapCancel_keeps C h
  | stageReport a => exact show Next P (execStageReport a s) from execStageReport_keeps C h
  | stageLimitExpiry => exact show Next P (execStageLimitExpiry s) from execStageLimitExpiry_keeps C h
  | replayEnter a => exact show Next P (execReplayEnter a s) from execReplayEnter_keeps C h
  | replayExit a => exact show Next P (execReplayExit a s) from execReplayExit_keeps C h
  | replayUnit a => exact show Next P (execReplayUnit a s) from execReplayUnit_keeps C h
  | replayFrameEnd => exact show Next P (execReplayFrameEnd s) from execReplayFrameEnd_keeps C h
  | pwrgdLost => exact show Next P (execPwrgdLost s) from execPwrgdLost_keeps C h
  | vcoreOutOfRange => exact show Next P (execVcoreOutOfRange s) from execVcoreOutOfRange_keeps C h
  | vcoreTargetWrite a b => exact show Next P (execVcoreTargetWrite a b s) from execVcoreTargetWrite_keeps C h
  | avsNoAnswer => exact show Next P (execAvsNoAnswer s) from execAvsNoAnswer_keeps C h
  | tjWarn => exact show Next P (execTjWarn s) from execTjWarn_keeps C h
  | hbmHot => exact show Next P (execHbmHot s) from execHbmHot_keeps C h
  | hbmWarn => exact show Next P (execHbmWarn s) from execHbmWarn_keeps C h
  | thermalShutdown => exact show Next P (execThermalShutdown s) from execThermalShutdown_keeps C h
  | ignHoldExpiry => exact show Next P (execIgnHoldExpiry s) from execIgnHoldExpiry_keeps C h
  | sleep a => exact show Next P (execSleep a s) from execSleep_keeps C h
  | wake a => exact show Next P (execWake a s) from execWake_keeps C h
  | vbatLoss => exact show Next P (execVbatLoss s) from execVbatLoss_keeps C h
  | trimAdjust => exact show Next P (execTrimAdjust s) from execTrimAdjust_keeps C h
  | vbatPowerUp => exact show Next P (execVbatPowerUp s) from execVbatPowerUp_keeps C h
  | hbmCool => exact show Next P (execHbmCool s) from execHbmCool_keeps C h
  | tpSessionTimeout a => exact show Next P (execTpSessionTimeout a s) from execTpSessionTimeout_keeps C h
  | gptpSyncTimeout a => exact show Next P (execGptpSyncTimeout a s) from execGptpSyncTimeout_keeps C h
  | supLinkUp a b => exact show Next P (execSupLinkUp a b s) from execSupLinkUp_keeps C h
  | supLinkDown => exact show Next P (execSupLinkDown s) from execSupLinkDown_keeps C h

end Sys2Proof.Machine
end

