-- ==== Sys2Proof/Laws/Shows.lean ====
section
/-! SUPPORT. Laws/Shows.lean: for what a state shows (a field, or a part of one), that it survives changes of all parts of the
state but those listed, in the form that the lemmas of Laws/Keeps*.lean take. -/

set_option Elab.async false

set_option linter.unusedSimpArgs false
set_option linter.unreachableTactic false
set_option linter.unusedTactic false

namespace Sys2Proof.Machine

theorem shows_time {W : List Part} {x} (h : ∀ p ∈ W, p ∉ ([.time, .count, .cold] : List Part)) : Keeps W (fun t => t.time = x) := by
  intro p hp
  have hn := h p hp
  cases p <;> first | exact absurd (by decide) hn | (simp only [Part.Kept, setReg, coldState]; intros; first | assumption | simp_all)

theorem shows_pwr {W : List Part} {x} (h : ∀ p ∈ W, p ∉ ([.pwr, .phase, .raise, .stop, .cold] : List Part)) : Keeps W (fun t => t.pwr = x) := by
  intro p hp
  have hn := h p hp
  cases p <;> first | exact absurd (by decide) hn | (simp only [Part.Kept, setReg, coldState]; intros; first | assumption | simp_all)

theorem shows_ind {W : List Part} {x} (h : ∀ p ∈ W, p ∉ ([.ind, .indlog, .vbat, .cold] : List Part)) : Keeps W (fun t => t.ind = x) := by
  intro p hp
  have hn := h p hp
  cases p <;> first | exact absurd (by decide) hn | (simp only [Part.Kept, setReg, coldState]; intros; first | assumption | simp_all)

theorem shows_fuse {W : List Part} {x} (h : ∀ p ∈ W, p ∉ ([.fuse, .cold] : List Part)) : Keeps W (fun t => t.fuse = x) := by
  intro p hp
  have hn := h p hp
  cases p <;> first | exact absurd (by decide) hn | (simp only [Part.Kept, setReg, coldState]; intros; first | assumption | simp_all)

theorem shows_image {W : List Part} {x} (h : ∀ p ∈ W, p ∉ ([.image, .cold] : List Part)) : Keeps W (fun t => t.image = x) := by
  intro p hp
  have hn := h p hp
  cases p <;> first | exact absurd (by decide) hn | (simp only [Part.Kept, setReg, coldState]; intros; first | assumption | simp_all)

theorem shows_regs {W : List Part} {x} (h : ∀ p ∈ W, p ∉ ([.regs, .vbat, .cold] : List Part)) : Keeps W (fun t => t.regs = x) := by
  intro p hp
  have hn := h p hp
  cases p <;> first | exact absurd (by decide) hn | (simp only [Part.Kept, setReg, coldState]; intros; first | assumption | simp_all)

theorem shows_ing {W : List Part} {x} (h : ∀ p ∈ W, p ∉ ([.ing, .cold] : List Part)) : Keeps W (fun t => t.ing = x) := by
  intro p hp
  have hn := h p hp
  cases p <;> first | exact absurd (by decide) hn | (simp only [Part.Kept, setReg, coldState]; intros; first | assumption | simp_all)

theorem shows_frame {W : List Part} {x} (h : ∀ p ∈ W, p ∉ ([.frame, .stopped, .emit, .num, .cold] : List Part)) : Keeps W (fun t => t.frame = x) := by
  intro p hp
  have hn := h p hp
  cases p <;> first | exact absurd (by decide) hn | (simp only [Part.Kept, setReg, coldState]; intros; first | assumption | simp_all)

theorem shows_cnd {W : List Part} {x} (h : ∀ p ∈ W, p ∉ ([.cnd, .cold] : List Part)) : Keeps W (fun t => t.cnd = x) := by
  intro p hp
  have hn := h p hp
  cases p <;> first | exact absurd (by decide) hn | (simp only [Part.Kept, setReg, coldState]; intros; first | assumption | simp_all)

theorem shows_wld {W : List Part} {x} (h : ∀ p ∈ W, p ∉ ([.wld, .epoch, .cold] : List Part)) : Keeps W (fun t => t.wld = x) := by
  intro p hp
  have hn := h p hp
  cases p <;> first | exact absurd (by decide) hn | (simp only [Part.Kept, setReg, coldState]; intros; first | assumption | simp_all)

theorem shows_held {W : List Part} {x} (h : ∀ p ∈ W, p ∉ ([.held, .cold] : List Part)) : Keeps W (fun t => t.held = x) := by
  intro p hp
  have hn := h p hp
  cases p <;> first | exact absurd (by decide) hn | (simp only [Part.Kept, setReg, coldState]; intros; first | assumption | simp_all)

theorem shows_umb {W : List Part} {x} (h : ∀ p ∈ W, p ∉ ([.umb, .cold] : List Part)) : Keeps W (fun t => t.umb = x) := by
  intro p hp
  have hn := h p hp
  cases p <;> first | exact absurd (by decide) hn | (simp only [Part.Kept, setReg, coldState]; intros; first | assumption | simp_all)

theorem shows_mad {W : List Part} {x} (h : ∀ p ∈ W, p ∉ ([.mad, .cold] : List Part)) : Keeps W (fun t => t.mad = x) := by
  intro p hp
  have hn := h p hp
  cases p <;> first | exact absurd (by decide) hn | (simp only [Part.Kept, setReg, coldState]; intros; first | assumption | simp_all)

theorem shows_safe {W : List Part} {x} (h : ∀ p ∈ W, p ∉ ([.safe, .restart, .acked, .cold] : List Part)) : Keeps W (fun t => t.safe = x) := by
  intro p hp
  have hn := h p hp
  cases p <;> first | exact absurd (by decide) hn | (simp only [Part.Kept, setReg, coldState]; intros; first | assumption | simp_all)

theorem shows_log {W : List Part} {x} (h : ∀ p ∈ W, p ∉ ([.log, .queue, .cold] : List Part)) : Keeps W (fun t => t.log = x) := by
  intro p hp
  have hn := h p hp
  cases p <;> first | exact absurd (by decide) hn | (simp only [Part.Kept, setReg, coldState]; intros; first | assumption | simp_all)

theorem shows_boot {W : List Part} {x} (h : ∀ p ∈ W, p ∉ ([.boot, .cold] : List Part)) : Keeps W (fun t => t.boot = x) := by
  intro p hp
  have hn := h p hp
  cases p <;> first | exact absurd (by decide) hn | (simp only [Part.Kept, setReg, coldState]; intros; first | assumption | simp_all)

theorem shows_inf {W : List Part} {x} (h : ∀ p ∈ W, p ∉ ([.inf, .cold] : List Part)) : Keeps W (fun t => t.inf = x) := by
  intro p hp
  have hn := h p hp
  cases p <;> first | exact absurd (by decide) hn | (simp only [Part.Kept, setReg, coldState]; intros; first | assumption | simp_all)

theorem shows_mem {W : List Part} {x} (h : ∀ p ∈ W, p ∉ ([.mem, .data, .cold] : List Part)) : Keeps W (fun t => t.mem = x) := by
  intro p hp
  have hn := h p hp
  cases p <;> first | exact absurd (by decide) hn | (simp only [Part.Kept, setReg, coldState]; intros; first | assumption | simp_all)

theorem shows_swp {W : List Part} {x} (h : ∀ p ∈ W, p ∉ ([.swp, .cold] : List Part)) : Keeps W (fun t => t.swp = x) := by
  intro p hp
  have hn := h p hp
  cases p <;> first | exact absurd (by decide) hn | (simp only [Part.Kept, setReg, coldState]; intros; first | assumption | simp_all)

theorem shows_sel {W : List Part} {x} (h : ∀ p ∈ W, p ∉ ([.sel, .cold] : List Part)) : Keeps W (fun t => t.sel = x) := by
  intro p hp
  have hn := h p hp
  cases p <;> first | exact absurd (by decide) hn | (simp only [Part.Kept, setReg, coldState]; intros; first | assumption | simp_all)

theorem shows_slv {W : List Part} {x} (h : ∀ p ∈ W, p ∉ ([.slv, .cold] : List Part)) : Keeps W (fun t => t.slv = x) := by
  intro p hp
  have hn := h p hp
  cases p <;> first | exact absurd (by decide) hn | (simp only [Part.Kept, setReg, coldState]; intros; first | assumption | simp_all)

theorem shows_twin {W : List Part} {x} (h : ∀ p ∈ W, p ∉ ([.twin, .pair, .cold] : List Part)) : Keeps W (fun t => t.twin = x) := by
  intro p hp
  have hn := h p hp
  cases p <;> first | exact absurd (by decide) hn | (simp only [Part.Kept, setReg, coldState]; intros; first | assumption | simp_all)

theorem shows_swap {W : List Part} {x} (h : ∀ p ∈ W, p ∉ ([.swap, .cold] : List Part)) : Keeps W (fun t => t.swap = x) := by
  intro p hp
  have hn := h p hp
  cases p <;> first | exact absurd (by decide) hn | (simp only [Part.Kept, setReg, coldState]; intros; first | assumption | simp_all)

theorem shows_sec {W : List Part} {x} (h : ∀ p ∈ W, p ∉ ([.sec, .cold] : List Part)) : Keeps W (fun t => t.sec = x) := by
  intro p hp
  have hn := h p hp
  cases p <;> first | exact absurd (by decide) hn | (simp only [Part.Kept, setReg, coldState]; intros; first | assumption | simp_all)

theorem shows_bus {W : List Part} {x} (h : ∀ p ∈ W, p ∉ ([.bus, .cold] : List Part)) : Keeps W (fun t => t.bus = x) := by
  intro p hp
  have hn := h p hp
  cases p <;> first | exact absurd (by decide) hn | (simp only [Part.Kept, setReg, coldState]; intros; first | assumption | simp_all)

theorem shows_och {W : List Part} {x} (h : ∀ p ∈ W, p ∉ ([.och, .cold] : List Part)) : Keeps W (fun t => t.och = x) := by
  intro p hp
  have hn := h p hp
  cases p <;> first | exact absurd (by decide) hn | (simp only [Part.Kept, setReg, coldState]; intros; first | assumption | simp_all)

theorem shows_replay {W : List Part} {x} (h : ∀ p ∈ W, p ∉ ([.replay, .cold] : List Part)) : Keeps W (fun t => t.replay = x) := by
  intro p hp
  have hn := h p hp
  cases p <;> first | exact absurd (by decide) hn | (simp only [Part.Kept, setReg, coldState]; intros; first | assumption | simp_all)

theorem shows_obs {W : List Part} {x} (h : ∀ p ∈ W, p ∉ ([.obs, .cold] : List Part)) : Keeps W (fun t => t.obs = x) := by
  intro p hp
  have hn := h p hp
  cases p <;> first | exact absurd (by decide) hn | (simp only [Part.Kept, setReg, coldState]; intros; first | assumption | simp_all)

theorem shows_arb {W : List Part} {x} (h : ∀ p ∈ W, p ∉ ([.arb, .cold] : List Part)) : Keeps W (fun t => t.arb = x) := by
  intro p hp
  have hn := h p hp
  cases p <;> first | exact absurd (by decide) hn | (simp only [Part.Kept, setReg, coldState]; intros; first | assumption | simp_all)

theorem shows_fifo {W : List Part} {x} (h : ∀ p ∈ W, p ∉ ([.fifo, .cold] : List Part)) : Keeps W (fun t => t.fifo = x) := by
  intro p hp
  have hn := h p hp
  cases p <;> first | exact absurd (by decide) hn | (simp only [Part.Kept, setReg, coldState]; intros; first | assumption | simp_all)

theorem shows_latches {W : List Part} {x} (h : ∀ p ∈ W, p ∉ ([.latches, .cold] : List Part)) : Keeps W (fun t => t.latches = x) := by
  intro p hp
  have hn := h p hp
  cases p <;> first | exact absurd (by decide) hn | (simp only [Part.Kept, setReg, coldState]; intros; first | assumption | simp_all)

theorem shows_free {W : List Part} {x} (h : ∀ p ∈ W, p ∉ ([.free] : List Part)) : Keeps W (fun t => t.free = x) := by
  intro p hp
  have hn := h p hp
  cases p <;> first | exact absurd (by decide) hn | (simp only [Part.Kept, setReg, coldState]; intros; first | assumption | simp_all)

theorem shows_pending {W : List Part} {x} (h : ∀ p ∈ W, p ∉ ([.pending] : List Part)) : Keeps W (fun t => t.pending = x) := by
  intro p hp
  have hn := h p hp
  cases p <;> first | exact absurd (by decide) hn | (simp only [Part.Kept, setReg, coldState]; intros; first | assumption | simp_all)

theorem shows_count {W : List Part} {x} (h : ∀ p ∈ W, p ∉ ([.count, .cold] : List Part)) : Keeps W (fun t => t.time.count = x) := by
  intro p hp
  have hn := h p hp
  cases p <;> first | exact absurd (by decide) hn | (simp only [Part.Kept, setReg, coldState]; intros; first | assumption | simp_all)

theorem shows_phase {W : List Part} {x} (h : ∀ p ∈ W, p ∉ ([.phase, .raise, .stop, .cold] : List Part)) : Keeps W (fun t => t.pwr.phase = x) := by
  intro p hp
  have hn := h p hp
  cases p <;> first | exact absurd (by decide) hn | (simp only [Part.Kept, setReg, coldState]; intros; first | assumption | simp_all)

theorem shows_safeStop {W : List Part} {x} (h : ∀ p ∈ W, p ∉ ([.raise, .stop, .cold] : List Part)) : Keeps W (fun t => t.pwr.safeStop = x) := by
  intro p hp
  have hn := h p hp
  cases p <;> first | exact absurd (by decide) hn | (simp only [Part.Kept, setReg, coldState]; intros; first | assumption | simp_all)

theorem shows_num {W : List Part} {x} (h : ∀ p ∈ W, p ∉ ([.num, .cold] : List Part)) : Keeps W (fun t => t.frame.num = x) := by
  intro p hp
  have hn := h p hp
  cases p <;> first | exact absurd (by decide) hn | (simp only [Part.Kept, setReg, coldState]; intros; first | assumption | simp_all)

theorem shows_started {W : List Part} {x} (h : ∀ p ∈ W, p ∉ ([.num, .cold] : List Part)) : Keeps W (fun t => t.frame.started = x) := by
  intro p hp
  have hn := h p hp
  cases p <;> first | exact absurd (by decide) hn | (simp only [Part.Kept, setReg, coldState]; intros; first | assumption | simp_all)

theorem shows_edgeTick {W : List Part} {x} (h : ∀ p ∈ W, p ∉ ([.num, .cold] : List Part)) : Keeps W (fun t => t.frame.edgeTick = x) := by
  intro p hp
  have hn := h p hp
  cases p <;> first | exact absurd (by decide) hn | (simp only [Part.Kept, setReg, coldState]; intros; first | assumption | simp_all)

theorem shows_stopped {W : List Part} {x} (h : ∀ p ∈ W, p ∉ ([.stopped, .num, .cold] : List Part)) : Keeps W (fun t => t.frame.stopped = x) := by
  intro p hp
  have hn := h p hp
  cases p <;> first | exact absurd (by decide) hn | (simp only [Part.Kept, setReg, coldState]; intros; first | assumption | simp_all)

theorem shows_emissions {W : List Part} {x} (h : ∀ p ∈ W, p ∉ ([.emit, .num, .cold] : List Part)) : Keeps W (fun t => t.frame.emissions = x) := by
  intro p hp
  have hn := h p hp
  cases p <;> first | exact absurd (by decide) hn | (simp only [Part.Kept, setReg, coldState]; intros; first | assumption | simp_all)

theorem shows_acked {W : List Part} {x} (h : ∀ p ∈ W, p ∉ ([.acked, .cold] : List Part)) : Keeps W (fun t => t.safe.acked = x) := by
  intro p hp
  have hn := h p hp
  cases p <;> first | exact absurd (by decide) hn | (simp only [Part.Kept, setReg, coldState]; intros; first | assumption | simp_all)

theorem shows_restart {W : List Part} {x} (h : ∀ p ∈ W, p ∉ ([.restart, .acked, .cold] : List Part)) : Keeps W (fun t => t.safe.restart = x) := by
  intro p hp
  have hn := h p hp
  cases p <;> first | exact absurd (by decide) hn | (simp only [Part.Kept, setReg, coldState]; intros; first | assumption | simp_all)

theorem shows_epoch {W : List Part} {x} (h : ∀ p ∈ W, p ∉ ([.epoch, .cold] : List Part)) : Keeps W (fun t => t.wld.cur = x) := by
  intro p hp
  have hn := h p hp
  cases p <;> first | exact absurd (by decide) hn | (simp only [Part.Kept, setReg, coldState]; intros; first | assumption | simp_all)

theorem shows_pairState {W : List Part} {x} (h : ∀ p ∈ W, p ∉ ([.pair, .cold] : List Part)) : Keeps W (fun t => t.twin.pair = x) := by
  intro p hp
  have hn := h p hp
  cases p <;> first | exact absurd (by decide) hn | (simp only [Part.Kept, setReg, coldState]; intros; first | assumption | simp_all)

theorem shows_queue {W : List Part} {x} (h : ∀ p ∈ W, p ∉ ([.queue, .cold] : List Part)) : Keeps W (fun t => t.log.queue = x) := by
  intro p hp
  have hn := h p hp
  cases p <;> first | exact absurd (by decide) hn | (simp only [Part.Kept, setReg, coldState]; intros; first | assumption | simp_all)

theorem shows_indigoLog {W : List Part} {x} (h : ∀ p ∈ W, p ∉ ([.indlog, .vbat, .cold] : List Part)) : Keeps W (fun t => t.ind.log = x) := by
  intro p hp
  have hn := h p hp
  cases p <;> first | exact absurd (by decide) hn | (simp only [Part.Kept, setReg, coldState]; intros; first | assumption | simp_all)

theorem shows_cells {W : List Part} {x} (h : ∀ p ∈ W, p ∉ ([.data, .cold] : List Part)) : Keeps W (fun t => t.mem.cells = x) := by
  intro p hp
  have hn := h p hp
  cases p <;> first | exact absurd (by decide) hn | (simp only [Part.Kept, setReg, coldState]; intros; first | assumption | simp_all)

theorem shows_synd {W : List Part} {x} (h : ∀ p ∈ W, p ∉ ([.data, .cold] : List Part)) : Keeps W (fun t => t.mem.synd = x) := by
  intro p hp
  have hn := h p hp
  cases p <;> first | exact absurd (by decide) hn | (simp only [Part.Kept, setReg, coldState]; intros; first | assumption | simp_all)

theorem shows_blank {W : List Part} {x} (h : ∀ p ∈ W, p ∉ ([.data, .cold] : List Part)) : Keeps W (fun t => t.mem.blank = x) := by
  intro p hp
  have hn := h p hp
  cases p <;> first | exact absurd (by decide) hn | (simp only [Part.Kept, setReg, coldState]; intros; first | assumption | simp_all)

/-- Two things at once. -/
theorem Keeps.and {W : List Part} {P Q : State → Prop} (hp : Keeps W P) (hq : Keeps W Q) : Keeps W (fun t => P t ∧ Q t) := by
  intro p m
  have h1 := hp p m
  have h2 := hq p m
  cases p <;> simp only [Part.Kept] at * <;> intros <;> rename_i h <;> exact ⟨by solve_by_elim [h.1], by solve_by_elim [h.2]⟩

/-- What has been sent stays sent. -/
theorem shows_sent {W : List Part} {x : List Output} : Keeps W (fun t => ∃ l, t.sent = l ++ x) := by
  intro p hp
  cases p <;> simp only [Part.Kept, setReg, coldState] <;> intros <;> first | assumption | skip
  rename_i s y h1 h2
  obtain ⟨l, rfl⟩ := h1
  obtain ⟨m, hm⟩ := h2
  exact ⟨l ++ m, by rw [hm, List.append_assoc]⟩

/-- A doubt that is marked stays marked. -/
theorem shows_doubt {W : List Part} {b : Nat} (h : ∀ p ∈ W, p ∉ ([.num, .cold] : List Part)) :
    Keeps W (fun t => t.frame.flags.getLsbD b = true) := by
  intro p hp
  have hn := h p hp
  cases p <;> first | exact absurd (by decide) hn | (simp only [Part.Kept, setReg, coldState]; intros; first | assumption | simp_all)

/-- SAFE_STOP_N stays asserted. -/
theorem shows_stop {W : List Part} (h : ∀ p ∈ W, p ∉ ([.stop, .cold] : List Part)) : Keeps W (fun t => t.pwr.safeStop = true) := by
  intro p hp
  have hn := h p hp
  cases p <;> first | exact absurd (by decide) hn | (simp only [Part.Kept, setReg]; intros; first | assumption | simp_all)

/-- Canonical registers stay canonical. -/
theorem shows_regs_wf {W : List Part} (h : ∀ p ∈ W, p ∉ ([.image, .vbat, .cold] : List Part)) :
    Keeps W (fun t => Regs.wf t.image t.regs) := by
  intro p hp
  have hn := h p hp
  cases p <;> first | exact absurd (by decide) hn | (simp only [Part.Kept]; intros; first | assumption | (apply setReg_wf; assumption))

/-- Canonical memories stay canonical. -/
theorem shows_memory_wf {W : List Part} (h : ∀ p ∈ W, p ≠ .cold) : Keeps W (fun t => Memory.wf t.mem) := by
  intro p hp
  have hn := h p hp
  cases p <;> first | exact absurd rfl hn | (simp only [Part.Kept, setReg]; intros; first | assumption | (rename_i a b; exact a b) | (rename_i a b; unfold Memory.wf at *; rw [a.1, a.2.1]; exact b))

/-- The lists of numbered units keep their lengths. -/
theorem shows_shape {W : List Part} : Keeps W Shape := by
  intro p hp
  cases p
  case ing => exact fun s x ex h => ⟨ex.trans h.ing, h.time, h.lanes, h.sel, h.cnd, h.tiles⟩
  case time => exact fun s x ex h => ⟨h.ing, ex.2 h.time, h.lanes, h.sel, h.cnd, h.tiles⟩
  case count => exact fun s x ex h => ⟨h.ing, ex h.time, h.lanes, h.sel, h.cnd, h.tiles⟩
  case slv => exact fun s x ex h => ⟨h.ing, h.time, ex h.lanes, h.sel, h.cnd, h.tiles⟩
  case sel => exact fun s x ex h => ⟨h.ing, h.time, h.lanes, ex h.sel, h.cnd, h.tiles⟩
  case cnd => exact fun s x ex h => ⟨h.ing, h.time, h.lanes, h.sel, ex h.cnd, h.tiles⟩
  case swp => exact fun s x ex h => ⟨h.ing, h.time, h.lanes, h.sel, h.cnd, ex h.tiles⟩
  case cold => exact fun e s h => ⟨rfl, ⟨rfl, rfl, rfl, rfl, rfl, rfl, rfl⟩, rfl,
    ⟨rfl, List.Pairwise.nil, List.Pairwise.nil⟩, ⟨List.Pairwise.nil, List.Pairwise.nil⟩, List.Pairwise.nil⟩
  all_goals
    simp only [Part.Kept]
    intros
    rename_i h
    exact ⟨h.ing, h.time, h.lanes, h.sel, h.cnd, h.tiles⟩

end Sys2Proof.Machine
end

