-- ==== Sys2Proof/WellFormed.lean ====
section
/-! DEFINITION. WellFormed.lean: which commands can reach the device at all: numbers in the range that their encoding has
room for, addresses aligned, lengths within their message. Machine gives every command a meaning, well-formed or not. -/

namespace Sys2Proof

/-- An address of the management space: 32 bits, a whole word (R20, R31). -/
def mapAddr (a : Nat) : Bool := decide (a < 2 ^ 32 ∧ a % 4 = 0)

/-- A sequencer in the UNIT numbering of CND_OVR_CAP: sweep tiles 0-63, inference tiles 64-71, Solver lanes 72-75. -/
def unitOk (u : Nat) : Bool := decide (u < 76)

/-- A lease holder: a sequencer, the Conductor, World or the crypto engine by its UNIT of R422. -/
def leaseHolder (u : Nat) : Bool := decide (u < 256)

/-- A client number (R340). -/
def clientOk (c : Nat) : Bool := decide (c < 1024)

/-- A resource of a lease class (R333). -/
def leaseOk (cls : Fin 6) (res : Nat) : Bool := decide (res < [2048, 128, 1024, 64, 64, 32].getD cls.val 0)

/-- A level-2 cell number (R126). -/
def cellOk (c : Nat) : Bool := decide (c < 2 ^ 18)

/-- A request header (R342): a client number of 10 bits, a record count of a byte. -/
def reqOk (q : ReqUnit) : Bool := clientOk q.client && decide (q.sub < 256) && decide (q.recs.length ≤ 64)

/-- A data-network packet carries at least one byte (R17). -/
def packetOk (p : DataPacket) : Bool :=
  match p.write with
  | some bs => decide (0 < bs.length)
  | none => decide (0 < p.len)

/-- A transport session carries 9 to 1,785 bytes (R509), and a TP.DT frame at most 7. -/
def tpOk : TpEvent → Bool
  | .bam size _ => decide (9 ≤ size ∧ size ≤ 1785)
  | .rts size _ => decide (9 ≤ size ∧ size ≤ 1785)
  | .data seq bs => decide (seq < 256 ∧ bs.length ≤ 7)
  | .abort => true

/-- The data of a CAN frame by its format (R506). -/
def frameOk (f : CanFrame) : Bool :=
  match f.format with
  | .classical => decide (f.data.length ≤ 8)
  | .fd => decide (f.data.length ≤ 64)
  | .xl => decide (1 ≤ f.data.length ∧ f.data.length ≤ 2048)

/-- A command is well formed. -/
def Instr.wellFormed : Instr → Bool
  | .frameEdge _ => true
  | .proposeHardStop _ written => written.all fun w => decide (w.2 ≤ 262144)
  | .sweepHardStop => true
  | .selectHardStop _ => true
  | .refineHardStop _ => true
  | .verifyHardStop _ => true
  | .emitHardStop _ => true
  | .mutexForce _ portA portB => decide (portA ≠ portB)
  | .mgmtAccessTimeout _ _ addr => mapAddr addr
  | .registerWrite _ addr _ => mapAddr addr
  | .liveTableWrite _ _ _ _ => true
  | .dataPacketRoute p => packetOk p
  | .revokeLease cls res => leaseOk cls res
  | .quarantineUnit unit => unitOk unit
  | .haltUnit unit => unitOk unit
  | .tileQuarantine _ => true
  | .stwQuarWrite _ _ _ => true
  | .revocationConfirmTimeout unit => unitOk unit
  | .swpStwRelease _ _ _ => true
  | .infRelease _ _ _ => true
  | .slvRelease _ _ => true
  | .counterClear _ _ => true
  | .frameStart _ _ => true
  | .csi2Packet _ _ _ _ _ payload => decide (payload.length < 65536)
  | .frameEnd _ _ => true
  | .lidarPacket _ p => decide (p.bytes.length < 65536)
  | .imuDrdy _ => true
  | .imuBurstDone _ _ _ => true
  | .nmeaSentence _ _ => true
  | .ppsEdge _ _ => true
  | .ppsMissing _ => true
  | .gptpSync _ _ => true
  | .gptpSyncTimer _ => true
  | .peerDelayTimer _ _ => true
  | .arpRequest _ _ _ => true
  | .linkLost _ => true
  | .linkReturned _ => true
  | .testPeriod _ => true
  | .testItemInject _ => true
  | .testItemDone _ _ => true
  | .testStarved _ => true
  | .mirrorSample _ _ _ => true
  | .sliceFused _ => true
  | .solidHoldExpiry cell => cellOk cell
  | .pull unit => unitOk unit
  | .workGrant unit => unitOk unit
  | .taskComplete unit _ => unitOk unit
  | .taskBudgetExpiry unit => unitOk unit
  | .waitTimeout unit => unitOk unit
  | .leaseRequest unit _ client _ => leaseHolder unit && clientOk (client.getD 0)
  | .leaseRelease cls res => leaseOk cls res
  | .leaseRenew cls res => leaseOk cls res
  | .leaseTermExpiry cls res => leaseOk cls res
  | .leaseRevokeConfirm cls res => leaseOk cls res
  | .edgeAckTimeout => true
  | .flowItemComplete _ _ => true
  | .itemTimeout _ _ => true
  | .candidateWriterStart _ => true
  | .gatherIssue _ => true
  | .gatherAnswer _ _ _ => true
  | .gatherTimeout _ _ => true
  | .keyPacketSend _ => true
  | .flushLead => true
  | .l2RewriteDone _ cell => cellOk cell
  | .testSliceDone _ => true
  | .peerCheck _ => true
  | .selectLaneAccept _ => true
  | .selectRecord _ => true
  | .quarantineNotice _ => true
  | .selectTestDone _ => true
  | .mergeDone => true
  | .solverSetupDone _ => true
  | .solverIterationDone _ _ _ => true
  | .laneEnd _ => true
  | .solverTestDone _ _ => true
  | .madderVerdict _ _ => true
  | .madderInjectionDone _ _ _ => true
  | .stopLimitExpiry => true
  | .releaseAck _ client _ => clientOk client
  | .watchdogKick => true
  | .watchdogExpiry => true
  | .doubtPersist => true
  | .fabricRestart _ _ => true
  | .restartStepTimeout => true
  | .safeCtlRestart _ => true
  | .safeCtlStop _ => true
  | .kermesStart _ pack => decide (pack < 65536)
  | .kermesPackDone _ => true
  | .kermesOvertime => true
  | .faultRecordDrain => true
  | .dmaSegmentBoundary _ _ => true
  | .engineSegmentBoundary _ => true
  | .scrubRead _ addr _ _ => decide (addr % 8 = 0 ∧ addr < 2 ^ 40)
  | .scrubLag _ => true
  | .ceWindow _ _ => true
  | .wipeDone _ _ => true
  | .pathCheck _ q => reqOk q
  | .planToGoal _ q _ => reqOk q
  | .goalWaitExpiry client _ => clientOk client
  | .corridorWatch _ q => reqOk q
  | .corridorWatchEnd _ q => reqOk q
  | .start _ q params => reqOk q && decide (params.length ≤ 256)
  | .suspend _ q => reqOk q
  | .resume _ q => reqOk q
  | .cancel _ q => reqOk q
  | .query _ q => reqOk q
  | .workUnitEnd _ _ r => match r with
    | .row k keys => decide (1 ≤ k ∧ k ≤ 262144 ∧ keys.length ≤ 65536)
    | _ => true
  | .workUnitTimeout _ => true
  | .woadLinkDown _ => true
  | .woadLinkUp => true
  | .woadLinkFrame f => decide (f.body.length ≤ 2048)
  | .helloTimer => true
  | .hello _ => true
  | .config _ => true
  | .pairWaitExpiry => true
  | .edge _ => true
  | .delayExchangeTimer => true
  | .delayReq _ => true
  | .delayResp _ _ _ _ _ => true
  | .digest _ _ => true
  | .propose _ => true
  | .ack _ => true
  | .refuse _ reason => decide (reason < 256)
  | .commit _ => true
  | .commitAck _ => true
  | .journal _ _ => true
  | .abdicate _ _ => true
  | .takeoverSilence => true
  | .offer _ => true
  | .verdict _ _ _ _ => true
  | .emitted _ _ => true
  | .eligHoldExpiry => true
  | .xlateExpiry => true
  | .rejoinCountExpiry => true
  | .jtagBypass => true
  | .jtagIdcode => true
  | .jtagSamplePreload => true
  | .jtagExtest => true
  | .jtagDebug => true
  | .lcGo _ => true
  | .lcTokenDone => true
  | .kxGo _ => true
  | .kxDone => true
  | .tamperTrip _ => true
  | .meshCheck _ => true
  | .cmdDoorbell _ _ descs => decide (descs.length ≤ 4096)
  | .hostMessage bytes => decide (bytes.length ≤ 4128)
  | .completionWrite => true
  | .deviceMsgTimeout => true
  | .ringDisable _ => true
  | .canFrameRx _ f => frameOk f
  | .addressClaimStart => true
  | .addressClaimTimer => true
  | .addressClaimed _ => true
  | .requestPgn _ _ _ => true
  | .tpMessage _ ev => tpOk ev
  | .clientUnit _ _ _ _ => true
  | .heartbeatRx _ => true
  | .hbTimeoutExpiry => true
  | .bundlePartTxDone => true
  | .canTxError _ => true
  | .guidanceBundleRx _ _ _ => true
  | .busOff _ => true
  | .busOffRecovered _ => true
  | .busOffHoldExpiry _ => true
  | .statPeriodTimer => true
  | .ochreDatagram => true
  | .ochreKeepalive => true
  | .ochreResendRequest _ => true
  | .plcaBeaconLost => true
  | .plcaBeaconReturned => true
  | .powerGood => true
  | .pwrgdTimeout => true
  | .porRelease _ => true
  | .swapRequest _ _ _ => true
  | .swapCancel _ => true
  | .stageReport _ => true
  | .stageLimitExpiry => true
  | .replayEnter _ => true
  | .replayExit _ => true
  | .replayUnit _ => true
  | .replayFrameEnd => true
  | .pwrgdLost => true
  | .vcoreOutOfRange => true
  | .vcoreTargetWrite _ _ => true
  | .avsNoAnswer => true
  | .tjWarn => true
  | .hbmHot => true
  | .hbmWarn => true
  | .thermalShutdown => true
  | .ignHoldExpiry => true
  | .sleep _ => true
  | .wake _ => true
  | .vbatLoss => true
  | .trimAdjust => true
  | .vbatPowerUp => true
  | .hbmCool => true
  | .tpSessionTimeout _ => true
  | .gptpSyncTimeout _ => true
  | .supLinkUp speed width => decide (1 ≤ speed ∧ speed ≤ 4 ∧ (width = 1 ∨ width = 2 ∨ width = 4))
  | .supLinkDown => true

end Sys2Proof
end

