-- ==== Sys2Proof/Tests/Slice0.lean ====
section
/-! SUPPORT. Tests/Slice0.lean: the model's own tests. First a term that WellFormed refuses for each of its checks, then small tests
of single operations against values worked out from the rules, then, for every statement of Certificates/Slice0/Obligations.lean
that has hypotheses, witnesses: concrete states and operands that meet the hypotheses of each of its clauses together. -/

set_option Elab.async false

namespace Sys2Proof.Tests

open Sys2Proof.Machine

/-! ## Ill-formed commands, one for each check -/

theorem test_candidates_past_the_map : (Instr.proposeHardStop .pass [(0, 262145)]).wellFormed = false := by decide
theorem test_mutex_of_one_port : (Instr.mutexForce 0 3 3).wellFormed = false := by decide
theorem test_unaligned_address : (Instr.registerWrite .warden 2 0).wellFormed = false := by decide
theorem test_address_past_32_bits : (Instr.mgmtAccessTimeout .host true (2 ^ 32)).wellFormed = false := by decide
theorem test_empty_packet : (Instr.dataPacketRoute ⟨0, .task, 0, 0, none, 0, false, 0, .clean⟩).wellFormed = false := by decide
theorem test_empty_write : (Instr.dataPacketRoute ⟨0, .task, 0, 0, some [], 8, false, 0, .clean⟩).wellFormed = false := by decide
theorem test_lease_past_its_class : (Instr.revokeLease 5 32).wellFormed = false := by decide
theorem test_unit_past_the_lanes : (Instr.pull 76).wellFormed = false := by decide
theorem test_holder_past_a_byte : (Instr.leaseRequest 256 0 none 1).wellFormed = false := by decide
theorem test_lease_client_past_the_table : (Instr.leaseRequest 0 0 (some 1024) 1).wellFormed = false := by decide
theorem test_cell_past_the_window : (Instr.solidHoldExpiry (2 ^ 18)).wellFormed = false := by decide
theorem test_client_past_the_table : (Instr.goalWaitExpiry 1024 0).wellFormed = false := by decide
theorem test_request_client_past_the_table : (Instr.pathCheck .guidance ⟨1024, 0, 0, 0, true, []⟩).wellFormed = false := by decide
theorem test_record_count_past_a_byte : (Instr.pathCheck .guidance ⟨0, 256, 0, 0, true, []⟩).wellFormed = false := by decide
theorem test_too_many_parameters :
    (Instr.start .guidance ⟨0, 0, 0, 0, true, []⟩ (List.replicate 257 0)).wellFormed = false := by decide +kernel
theorem test_pack_past_16_bits : (Instr.kermesStart (.lane 0) 65536).wellFormed = false := by decide
theorem test_scrub_inside_a_word : (Instr.scrubRead false 4 0 .clean).wellFormed = false := by decide
theorem test_row_of_no_key : (Instr.workUnitEnd 0 false (.row 0 [])).wellFormed = false := by decide
theorem test_reason_past_a_byte : (Instr.refuse 0 256).wellFormed = false := by decide
theorem test_classical_frame_of_nine_bytes :
    (Instr.canFrameRx 0 ⟨.classical, false, false, false, 0, 0, 0, 0, List.replicate 9 0⟩).wellFormed = false := by decide
theorem test_fd_frame_of_65_bytes :
    (Instr.canFrameRx 0 ⟨.fd, false, false, false, 0, 0, 0, 0, List.replicate 65 0⟩).wellFormed = false := by decide +kernel
theorem test_empty_xl_frame : (Instr.canFrameRx 0 ⟨.xl, false, false, false, 0, 0, 0, 0, []⟩).wellFormed = false := by decide
theorem test_session_of_eight_bytes : (Instr.tpMessage 0 (.bam 8 0)).wellFormed = false := by decide
theorem test_session_past_1785_bytes : (Instr.tpMessage 0 (.rts 1786 0)).wellFormed = false := by decide
theorem test_packet_of_eight_bytes : (Instr.tpMessage 0 (.data 1 (List.replicate 8 0))).wellFormed = false := by decide
theorem test_link_of_three_lanes : (Instr.supLinkUp 4 3).wellFormed = false := by decide
theorem test_packet_past_its_word_count :
    (Instr.csi2Packet 0 0 0x2A .good true (List.replicate 65536 0)).wellFormed = false := by
  simp only [Instr.wellFormed, List.length_replicate]; decide
theorem test_datagram_past_64_kib :
    (Instr.lidarPacket 0 ⟨65578, 0, 0, 0, false, List.replicate 65536 0⟩).wellFormed = false := by
  simp only [Instr.wellFormed, List.length_replicate]; decide
theorem test_too_many_descriptors :
    (Instr.cmdDoorbell .host 0 (List.replicate 4097 0)).wellFormed = false := by
  simp only [Instr.wellFormed, List.length_replicate]; decide
theorem test_message_past_4128_bytes :
    (Instr.hostMessage (List.replicate 4129 0)).wellFormed = false := by
  simp only [Instr.wellFormed, List.length_replicate]; decide
theorem test_too_many_records :
    (Instr.corridorWatch .guidance ⟨0, 0, 0, 0, true, List.replicate 65 ⟨0, 0, 0, 2, 0, 0, 0, 0, 0, 0, 0⟩⟩).wellFormed = false := by
  simp only [Instr.wellFormed, reqOk, List.length_replicate]; decide
theorem test_row_of_too_many_best : (Instr.workUnitEnd 0 false (.row 262145 [])).wellFormed = false := by decide
theorem test_row_of_too_many_keys : (Instr.workUnitEnd 0 false (.row 1 (List.replicate 65537 0))).wellFormed = false := by
  simp only [Instr.wellFormed, List.length_replicate]; decide
theorem test_scrub_past_the_memories : (Instr.scrubRead true (2 ^ 40) 0 .clean).wellFormed = false := by decide
theorem test_packet_number_past_a_byte : (Instr.tpMessage 0 (.data 256 [])).wellFormed = false := by decide
theorem test_session_opened_past_1785_bytes : (Instr.tpMessage 0 (.bam 1786 0)).wellFormed = false := by decide
theorem test_request_to_send_of_eight_bytes : (Instr.tpMessage 0 (.rts 8 0)).wellFormed = false := by decide
theorem test_link_of_no_speed : (Instr.supLinkUp 0 1).wellFormed = false := by decide
theorem test_link_message_past_2048_bytes : (Instr.woadLinkFrame ⟨0, List.replicate 2049 0, 0⟩).wellFormed = false := by
  simp only [Instr.wellFormed, List.length_replicate]; decide
theorem test_well_formed_write : (Instr.registerWrite .warden 0x1C04 0).wellFormed = true := by decide

/-! ## The test machine -/

/-- A machine that runs frame 5 and has nothing else in hand. -/
def base : State :=
  { State.reset with
    pwr := { State.reset.pwr with phase := .running }
    time := { TimeSt.initial with count := 30000000 }
    frame := { FrameSt.initial with started := true, num := 5, edgeTick := 29990000 } }

/-- The clauses of the invariant, each of them decidable on a concrete state. -/
abbrev Checks (s : State) : Prop :=
  Regs.wf s.image s.regs ∧ Memory.wf s.mem ∧ s.log.queue.length ≤ 256 ∧ s.ind.log.length ≤ 64 ∧ s.ing.length = 36 ∧
    s.time.shaped ∧ s.slv.lanes.length = 4 ∧ s.sel.shaped ∧ s.cnd.shaped ∧ Tab.sorted s.swp.tiles

/-- A state that passes the checks has the invariant. -/
theorem inv_of {s : State} (h : Checks s) : Inv s :=
  ⟨h.1, h.2.1, h.2.2.1, h.2.2.2.1, ⟨h.2.2.2.2.1, h.2.2.2.2.2.1, h.2.2.2.2.2.2.1, h.2.2.2.2.2.2.2.1, h.2.2.2.2.2.2.2.2.1,
    h.2.2.2.2.2.2.2.2.2⟩⟩

/-- The machine with commands waiting. -/
def waiting (cs : List Instr) : State := { base with pending := cs }

theorem base_inv : Inv base := inv_of (by decide +kernel)

/-- The machine after a number of register fields have been set. -/
def withFields (l : List (Fld × Nat)) (s : State) : State := l.foldl (fun t f => setFld f.1 f.2 t) s

/-! ## Witnesses: the step, the frame and the networks -/

theorem witness_step_keeps_invariant :
    (Inv (waiting [.watchdogKick]) ∧ ∃ t, step (waiting [.watchdogKick]) = .next t) ∧ (Inv base ∧ ∃ t, step base = .next t) :=
  ⟨⟨inv_of (by decide +kernel), _, rfl⟩, base_inv, _, rfl⟩

/-- The machine with a replay open. -/
def replaying : State := { base with replay := { active := true, slot := 0, live := 9, inFrame := false } }

/-- The machine k ticks after its edge. -/
def past (k : Nat) : State := { base with frame := { base.frame with edgeTick := 30000000 - k } }

theorem witness_frame_edge :
    (running (past 25000) = true ∧ edgeDue (past 25000) = true ∧ (past 25000).replay.active = false) ∧
    (running replaying = true ∧ replaying.replay.active = true) ∧ edgeDue (past 24999) = false := by decide +kernel

/-- The hard stop of phase p is due. -/
abbrev Due (s : State) (p : Nat) : Prop := s.frame.stopped[p]? = some false ∧ s.frame.edgeTick + hardStop s p ≤ s.time.count

theorem witness_fabric_hard_stops :
    ∀ x ∈ [(2500, 0), (16250, 1), (18750, 2), (22500, 3)], fabricUp (past x.1) = true ∧ (past x.1).frame.started = true ∧
      (past x.1).replay.active = false ∧ Due (past x.1) x.2 := by decide +kernel

theorem witness_refine_has_a_candidate :
    ({ SelSt.initial with top := [⟨0, 0, ⟨9, 0, 0, 2, 0, 0, 0, 0, 0, 0, 0⟩⟩] } : SelSt).top ≠ [] := by decide

/-- The machine in the first step of a fabric restart, k ticks after its edge; its frame has emitted or not. -/
def halting (k : Nat) (emitted : Bool) : State :=
  { past k with
    frame := { (past k).frame with emittedFrame := emitted }, safe := { base.safe with restart := some ⟨.command, 0, .halted, []⟩ } }

theorem witness_verify_and_emit_in_a_restart :
    ∀ e : Bool, running (halting 24000 e) = true ∧ fabricUp (halting 24000 e) = false ∧ (halting 24000 e).frame.started = true ∧
      (halting 24000 e).replay.active = false ∧ Due (halting 24000 e) 4 ∧ Due (halting 25000 e) 5 ∧
      (halting 25000 e).frame.emittedFrame = e := by decide +kernel

/-- The machine after the last hard stop of its frame. -/
def stopped : State := { base with frame := { base.frame with stopped := List.replicate 6 true } }

theorem witness_hard_stop_once :
    (∀ n : Fin 6, stopped.frame.stopped[n.val]? = some true) ∧ (past 24999).time.count < (past 24999).frame.edgeTick + hardStop (past 24999) 5 := by
  decide +kernel

/-- Some writes of a register that starts nothing, at their addresses: Indigo's IGN_HOLD, the supervisor port's mailbox (by the
host) and its W1C capture register. -/
def plainWrites : List (Requester × Nat) :=
  [(.warden, F.IND_CFG_IGN_HOLD.addr), (.host, (F.SUP_MBOX_WORD 0).addr), (.host, F.SUP_SLOT_CAP_VALID.addr)]

theorem witness_register_write :
    running base = true ∧ Regs.wf base.image base.regs ∧
      ∀ w ∈ plainWrites, (liveReg w.2).any (fun p => p.1.swap.isNone && !actsOnWrite p.1 p.2 w.2) = true ∧
        reachesLive base w.1 w.2 = true := by decide +kernel

/-- The machine with its command rings enabled or not. -/
def ringsOn (en : Nat) : State := withFields [(F.SUP_CMD_CTL_EN, en)] base

theorem witness_ring_base_write :
    ∀ en ∈ [0, 1], running (ringsOn en) = true ∧ Regs.wf (ringsOn en).image (ringsOn en).regs ∧
      (liveReg 0x7C101C).any (fun p => p.1.swap.isNone) = true ∧ cmdRingBase 0x7C101C = true ∧
      reachesLive (ringsOn en) .host 0x7C101C = true ∧ flag (ringsOn en) F.SUP_CMD_CTL_EN = decide (en = 1) := by decide +kernel

/-- A record of the fault log. -/
def record : QueuedRec := ⟨⟨0, 0, 0, 0, 0, 0, 0xFFFF, 0xFF, false, 0, 0⟩, true, true⟩

/-- The machine with one place left in its record queue. -/
def nearlyFull : State := { base with log := { base.log with queue := List.replicate 255 record } }

theorem witness_register_write_refused :
    running nearlyFull = true ∧ nearlyFull.log.queue.length < 256 ∧ (liveReg 0xFFFFFFFC = none ∧ stagedReg 0xFFFFFFFC = none) ∧
      ((liveReg F.IND_CFG_IGN_HOLD.addr).isSome = true ∧ reachesLive nearlyFull .host F.IND_CFG_IGN_HOLD.addr = false) := by
  decide +kernel

/-- The machine with an open user swap of a subsystem. -/
def swapOf (mask : Nat) : State :=
  { nearlyFull with swap := { base.swap with user := some ⟨mask, .core, 4, 0, 0, none, false, false⟩ } }

theorem witness_staged_write :
    ∀ m ∈ [0x800, 0x1000], running (swapOf m) = true ∧ Regs.wf (swapOf m).image (swapOf m).regs ∧
      liveReg (F.VBS_GUID_CFG_GID_BASE.addr + 0x8000) = none ∧
      (stagedReg (F.VBS_GUID_CFG_GID_BASE.addr + 0x8000)).any (fun p => p.1.swap == some 11) = true ∧
      mayStage (swapOf m) .warden 11 = true ∧ mayStage (swapOf m) .host 11 = false ∧
      ((swapOf m).swap.user.any fun o => o.mask.testBit 11) = decide (m = 0x800) := by decide +kernel

/-- The machine in life cycle n. -/
def inLc (n : Nat) (s : State) : State := { s with fuse := { s.fuse with lc := n } }

theorem witness_live_table_write :
    (∀ k ∈ [25000, 25001], running (inLc 1 (past k)) = true ∧ (inLc 1 (past k)).fuse.lc = 1 ∧
      Regs.wf (inLc 1 (past k)).image (inLc 1 (past k)).regs ∧ reachesTable (inLc 1 (past k)) .warden .client (F.CND_CLIENT_WORD 1023 3).addr = true ∧
      inTable .client (F.CND_CLIENT_WORD 1023 3).addr = true ∧ (liveReg (F.CND_CLIENT_WORD 1023 3).addr).isSome = true ∧
      (inLc 1 (past k)).frame.started = true ∧
      decide ((inLc 1 (past k)).time.count - (inLc 1 (past k)).frame.edgeTick ≤ hardStop (inLc 1 (past k)) 5) = decide (k = 25000)) ∧
    (running (inLc 2 base) = true ∧ (inLc 2 base).fuse.lc ≠ 1 ∧ reachesTable (inLc 2 base) .warden .layers 0x10000 = true) ∧
    (inTable .client F.IND_CFG_IGN_HOLD.addr = false ∧ reachesTable base (.steward 0) .client (F.CND_CLIENT_WORD 0 0).addr = false) ∧
    (liveReg F.VBS_GUID_CFG_GID_BASE.addr).any (fun p => p.1.swap.isSome) = true := by decide +kernel

/-- A write of the last two bytes of the sweep scratch by the Warden core. -/
def scratchWrite : DataPacket := ⟨0, .wardenCore, 128, 0x8001FFFFFE, some [1, 2], 0, false, 0, .clean⟩

/-- A read of a word and a byte of it, by tile 0. -/
def scratchRead : DataPacket := ⟨0, .task, 0, 0x8000000007, none, 2, false, 0, .clean⟩

/-- Every word of the packet is delivered in the state. -/
abbrev Delivers (p : DataPacket) (s : State) : Prop :=
  (∀ w ∈ wordsOf p, populated p w.1 = true ∧ routed s p w.1 = true ∧ lostTo s p.unit w.1 = false ∧ wordSynd s w.1 = 0) ∧
    mustWait s p = false ∧ weightsRefused s p = false ∧ p.flips = 0 ∧ p.dev = .clean

theorem witness_data_write :
    running base = true ∧ Memory.wf base.mem ∧ scratchWrite.write = some [1, 2] ∧ Delivers scratchWrite base ∧
      wordsOf scratchWrite = [(0x8001FFFFFE, 2)] := by decide +kernel

theorem witness_data_read :
    running base = true ∧ scratchRead.write = none ∧ 0 < scratchRead.len ∧ Delivers scratchRead base ∧
      wordsOf scratchRead = [(0x8000000007, 1), (0x8000000008, 1)] := by decide +kernel

/-- The machine with debug locked; the sweep scratch is being wiped or not. -/
def heldBack (wipe : Bool) : State :=
  { inLc 2 nearlyFull with
    fuse := { base.fuse with lc := 2, dbgLock := true }
    cnd := { base.cnd with grants := [⟨0, 0, 0, none, none, none, 0⟩] }
    mem := { base.mem with wipes := if wipe then [(.allSram, 0)] else [] } }

/-- A read of inference scratch by DMA. -/
def weightRead : DataPacket := ⟨0, .infDma, 64, 0x8004000000, none, 8, false, 0, .clean⟩

theorem witness_data_held_back :
    (running (heldBack false) = true ∧ 0 < packetLen weightRead ∧ weightsRefused (heldBack false) weightRead = true ∧
      ∀ w ∈ wordsOf weightRead, populated weightRead w.1 = true ∧ routed (heldBack false) weightRead w.1 = true) ∧
    (weightsRefused (heldBack true) scratchRead = false ∧ mustWait (heldBack true) scratchRead = true ∧ running (heldBack true) = true ∧
      ∀ w ∈ wordsOf scratchRead, routed (heldBack true) scratchRead w.1 = true) := by decide +kernel

/-- A read that runs past the end of the sweep scratch, and one of a foreign domain's tile. -/
def endRead : DataPacket := ⟨0, .task, 0, 0x8001FFFFFE, none, 3, false, 0, .clean⟩
def foreignRead : DataPacket := { endRead with domain := 5 }

theorem witness_undeliverable_packets :
    running base = true ∧ base.log.queue.length + 3 * (wordsOf endRead).length + 2 ≤ 256 ∧ nearlyFull.log.queue.length < 256 ∧
      (0 < packetLen endRead ∧ (wordsOf endRead).find? (fun x => !populated endRead x.1) = some (0x8002000000, 1) ∧
        (∀ w ∈ wordsOf endRead, populated endRead w.1 = true → routed base endRead w.1 = true) ∧
        weightsRefused base endRead = false ∧ mustWait base endRead = false ∧ (wordsOf endRead)[1]? = some (0x8002000000, 1)) ∧
      (∃ w ∈ wordsOf foreignRead, populated foreignRead w.1 = true ∧ routed nearlyFull foreignRead w.1 = false) := by decide +kernel

/-- The machine with leases, one of them being revoked. -/
def leasing : State :=
  { base with cnd := { base.cnd with leases := [⟨0, 2047, 75, 0, 0, false⟩, ⟨1, 127, 3, 0, 0, true⟩, ⟨5, 31, 0x92, 0, 0, false⟩] } }

theorem witness_revocation_bus :
    running leasing = true ∧ (∃ l ∈ leasing.cnd.leases, l.holder = 3 ∧ l.revoking = true) ∧
      (∀ l ∈ leasing.cnd.leases, l.holder = 75 → l.revoking = false) ∧ resourceFree leasing 2 0 = true ∧
      ∃ l ∈ leasing.cnd.leases, l.cls = 5 ∧ l.res = 31 := by decide

/-- Units that have passed their pack, of which one is retired, and one that waits for the edge. -/
def passing : State :=
  { base with
    cnd := { base.cnd with retired := [62], releasing := [75], outOfService := [75] }, safe := { base.safe with passed := [63, 62, 71, 75] } }

theorem witness_quarantine_and_release :
    running passing = true ∧ (Requester.steward 7 = .steward 7) ∧ ¬(Requester.steward 6 = .warden ∨ Requester.steward 6 = .conductor ∨
      Requester.steward 6 = .steward 7 ∨ Requester.steward 6 = .jtag ∧ passing.fuse.lc ∈ [0, 1, 3]) ∧
      (∃ k, k < 8 ∧ (0x80 : BitVec 8).getLsbD k = true ∧ 7 * 8 + k ∈ passing.safe.passed ∧ 7 * 8 + k ∉ passing.cnd.retired) ∧
      64 + 7 ∈ passing.safe.passed ∧ (∃ k, k < 4 ∧ (0x8 : BitVec 4).getLsbD k = true ∧ 72 + k ∈ passing.cnd.releasing) ∧
      Requester.host ≠ .warden := by decide +kernel

theorem witness_mutex_timeout_counter :
    running nearlyFull = true ∧ nearlyFull.log.queue.length < 256 ∧ Regs.wf nearlyFull.image nearlyFull.regs ∧
      reachesLive nearlyFull .warden (selectorAddr (.die 7)) = true ∧
      reachesLive nearlyFull (.steward 7) (selectorAddr (.sweepTile ⟨7, 7⟩ 7)) = true ∧
      reachesLive nearlyFull (.steward 6) (selectorAddr (.sweepTile ⟨7, 7⟩ 7)) = false := by decide +kernel
/-! ## Witnesses: Ingress and the time base -/

/-- A little-endian field of a lidar packet of the tests, unscaled. -/
def ptf (off len : Nat) (hi : Int) : PtField := ⟨off, len, false, 1, 1, 0, hi⟩

/-- A point descriptor of the tests: a header with one byte of packet time, in units that may be invalid, and one byte of point
count; points of four bytes, in x, y and z. -/
def points : PtDesc :=
  { hdrLen := 2, countOff := 1, countLen := 1, stride := 4, spherical := false, a := ptf 0 1 255, b := ptf 1 1 9, c := ptf 2 1 255,
    intensity := none, toff := none, ptime := some (ptf 0 1 199), tai := true, mount := (0, 0, 0),
    turn := [2 ^ 30, 0, 0, 0, 2 ^ 30, 0, 0, 0, 2 ^ 30] }

/-- A stream's declaration for the tests: a slice of two packets, TAI packet times, a checksum, RMC as the terminator. -/
def decl : StreamDecl :=
  { readSnap := true, readEpoch := false, period := 250000, slice := 2, mac := 5, udp := 9, points := some points, bytes := 2,
    checksum := true, terminator := .rmc, setup := [], ring := (0x1000, 4096) }

/-- The machine with declared streams and Ethernet addresses, of which stream n is enabled and wired here. -/
def hearing (n : Nat) : State :=
  withFields [(F.ING_STREAM_CFG_ENABLE n, 1), (F.ING_STREAM_CFG_WIRED n, 1), (F.ING_STREAM_CFG_LATENCY n, 1000)]
    { nearlyFull with image := { Image.blank with streams := List.replicate 36 decl, enetAddr := [1, 2, 3, 4, 5, 6, 7, 8] } }

/-- A change of one stream's state. -/
def onStream (n : Nat) (f : StreamSt → StreamSt) (s : State) : State := { s with ing := modAt n f s.ing }

/-- The machine with a sample of stream n in reception, after so many lines. -/
def filling (n : Nat) (bad : Bool) (lines : Nat) (s : State) : State :=
  onStream n (fun x => { x with filling := some ⟨29995000, [1], bad, none, lines⟩ }) s

/-- The FIFO of an interface has room where nothing has come in this tick, and is full when it holds its depth. -/
theorem fifo_room {i : Nat} {s : State} (h : s.fifo.tick ≠ s.time.count) : (fifoTake i s).1 = true := by
  have : 0 < fifoDepth i := by unfold fifoDepth; omega
  simp [fifoTake, h, tabGet, this]

/-- The machine with the FIFO of interface i full. -/
noncomputable def full (i : Nat) (s : State) : State := { s with fifo := ⟨s.time.count, [(i, fifoDepth i)]⟩ }

theorem fifo_full (i : Nat) (s : State) : (fifoTake i (full i s)).1 = false := by
  simp [fifoTake, full, tabGet]

/-- A camera on the last port, virtual channel and slot. -/
def camera : State := withFields [(F.ING_STREAM_CFG_VC 15, 15)] (hearing 15)

theorem witness_camera (bad : Bool) :
    running (filling 15 bad 3071 camera) = true ∧ Inv (filling 15 bad 3071 camera) ∧ camStream (filling 15 bad 3071 camera) 7 15 = some 15 ∧
      receives (filling 15 bad 3071 camera) 15 = true ∧ (fifoTake 7 (filling 15 bad 3071 camera)).1 = true ∧
      (streamSt (filling 15 bad 3071 camera) 15).filling = some ⟨29995000, [1], bad, none, 3071⟩ ∧
      (streamSt (filling 15 bad 3072 camera) 15).filling = some ⟨29995000, [1], bad, none, 3072⟩ ∧
      dataTypes.find? (fun d => d.1 = 0x2A) = some (0x2A, 4096) ∧ dataTypes.find? (fun d => d.1 = 0x10) = none ∧
      Takes (filling 15 bad 3071 camera) 15
        ⟨29995000 - latency (filling 15 bad 3071 camera) 15, (filling 15 bad 3071 camera).time.count, [1]⟩ := by
  refine ⟨?_, inv_of ?_, ?_, ?_, fifo_room ?_, ?_, ?_, ?_, ?_, ?_⟩ <;>
    first | (unfold Takes; revert bad; decide +kernel) | (revert bad; decide +kernel)

theorem witness_camera_full : running (full 7 camera) = true ∧ (fifoTake 7 (full 7 camera)).1 = false ∧
    camStream camera 7 15 = some 15 ∧ receives camera 15 = true ∧ camera.log.queue.length < 256 :=
  ⟨show running camera = true by decide +kernel, fifo_full _ _, by decide +kernel, by decide +kernel, by decide +kernel⟩

theorem witness_camera_unmapped :
    camStream camera 7 14 = none ∧ camStream (withFields [(F.ING_STREAM_CFG_ENABLE 15, 0)] camera) 7 15 = some 15 ∧
      receives (withFields [(F.ING_STREAM_CFG_ENABLE 15, 0)] camera) 15 = false := by decide +kernel

/-- A lidar on the last port, the time base locked. -/
def lidar : State := withFields [(F.WDN_TIME_STAT_LOCKED, 1)] (hearing 23)

/-- A packet of that lidar with a point in range and one out of it; t is its packet time. -/
def lidarPkt (t : Byte) : LidarPkt := ⟨9216, 1, 5, 9, false, [t, 2, 255, 9, 255, 0, 0, 10, 0, 0]⟩

/-- The stamp that R626 gives a packet of time 0, and the one that R87 gives a packet whose time is no valid value. -/
theorem witness_lidar :
    (running lidar = true ∧ (lidarPkt 199).fragment = false ∧ lidarStream lidar 3 5 9 = some 23 ∧ outOfRange lidar 23 (lidarPkt 199).bytes = 1) ∧
      (packetTime points (lidarPkt 199).bytes = some 199 ∧ timeLocked lidar = true ∧ (streamDecl lidar 23).points = some points) ∧
      Takes lidar 23 ⟨taiTick lidar 199, lidar.time.count, (lidarPkt 199).bytes⟩ ∧
      ((streamDecl lidar 23).points.bind (packetTime · (lidarPkt 200).bytes) = none) ∧
      Takes lidar 23 ⟨lidar.time.count - latency lidar 23, lidar.time.count, (lidarPkt 200).bytes⟩ ∧
      lidarStream lidar 3 5 8 = none := by unfold Takes; decide +kernel

theorem witness_lidar_fifo : (fifoTake 11 lidar).1 = true ∧ (fifoTake 11 (full 11 lidar)).1 = false :=
  ⟨fifo_room (by decide), fifo_full _ _⟩

theorem witness_lidar_inv : Inv lidar := inv_of (by decide +kernel)

/-- The lidar's time base, one in which TAI is ahead of the count. -/
def lidarLate : State := { lidar with time := { lidar.time with taiOfs := -30000001 } }

theorem witness_lidar_late :
    lidarLate.time.count < taiTick lidarLate 0 ∧ packetTime points (lidarPkt 0).bytes = some 0 ∧ timeLocked lidarLate = true ∧
      lidarStream lidarLate 3 5 9 = some 23 := by decide +kernel

/-- The lidar with a full slice. -/
def lidarFull : State := onStream 23 (fun x => { x with slice := [⟨0, 0, []⟩, ⟨0, 0, []⟩] }) lidar

theorem witness_lidar_full :
    running lidarFull = true ∧ Inv lidarFull ∧ lidarStream lidarFull 3 5 9 = some 23 ∧
      lidarFull.time.count - latency lidarFull 23 ≤ lidarFull.time.count ∧ flag lidarFull (F.ING_STREAM_STAT_FAULTED 23) = false ∧
      outOfRange lidarFull 23 [200, 0] = 0 ∧ lidarFull.log.queue.length < 256 ∧ (streamDecl lidarFull 23).slice ≤ sliceLen lidarFull 23 ∧
      flag (withFields [(F.ING_STREAM_STAT_FAULTED 23, 1)] lidarFull) (F.ING_STREAM_STAT_FAULTED 23) = true :=
  ⟨by decide +kernel, inv_of (by decide +kernel), by decide +kernel⟩

theorem witness_imu :
    (running (hearing 25) = true ∧ Inv (hearing 25) ∧ receives (hearing 25) 25 = true ∧ (streamSt (hearing 25) 25).filling = none ∧
      receives (hearing 24) 25 = false) ∧
      running (filling 25 false 0 (hearing 25)) = true ∧ Inv (filling 25 false 0 (hearing 25)) ∧
      receives (filling 25 false 0 (hearing 25)) 25 = true ∧
      (streamSt (filling 25 false 0 (hearing 25)) 25).filling = some ⟨29995000, [1], false, none, 0⟩ ∧
      (streamDecl (filling 25 false 0 (hearing 25)) 25).checksum = true ∧
      Takes (filling 25 false 0 (hearing 25)) 25
        ⟨29995000 - latency (filling 25 false 0 (hearing 25)) 25, (filling 25 false 0 (hearing 25)).time.count, padTo 2 [1]⟩ :=
  ⟨⟨by decide, inv_of (by decide +kernel), by decide +kernel, by decide +kernel, by decide +kernel⟩, by decide, inv_of (by decide +kernel),
    by decide +kernel, by decide +kernel, by decide +kernel, by unfold Takes; decide +kernel⟩

theorem witness_gnss :
    running (hearing 27) = true ∧ Inv (hearing 27) ∧ receives (hearing 27) 27 = true ∧ (streamDecl (hearing 27) 27).terminator = .rmc ∧
      Takes (hearing 27) 27 ⟨(hearing 27).time.count - latency (hearing 27) 27, (hearing 27).time.count, [1]⟩ ∧
      (fifoTake 15 (hearing 27)).1 = true ∧ (fifoTake 15 (full 15 (hearing 27))).1 = false ∧ receives (hearing 26) 27 = false :=
  ⟨by decide, inv_of (by decide +kernel), by decide +kernel, by decide +kernel, by unfold Takes; decide +kernel, fifo_room (by decide),
    fifo_full _ _, by decide +kernel⟩

/-- The machine that saw receiver 1's last PPS edge at a tick, with port 3 a gPTP slave. -/
def timed (t : Option Tick) : State :=
  withFields [(F.WDN_TIME_CFG_SLAVE_MASK, 8)] { base with time := { base.time with lastPps := [none, t], miss := [0, 2] } }

theorem witness_time_references :
    (∀ t ∈ [5006250, 4993750], running (timed (some t)) = true ∧ Checks (timed (some t)) ∧ (timed (some t)).time.lastPps.getD 1 none = some t ∧
      24993750 ≤ (timed (some t)).time.count - t ∧ (timed (some t)).time.count - t ≤ 25006250) ∧
    (∀ t ∈ [5006251, 4993749], running (timed (some t)) = true ∧ Checks (timed (some t)) ∧ (timed (some t)).time.lastPps.getD 1 none = some t ∧
      ((timed (some t)).time.count - t < 24993750 ∨ 25006250 < (timed (some t)).time.count - t)) ∧
    (timed none).time.lastPps.getD 1 none = none ∧ 3 ≤ (timed none).time.miss.getD 1 0 + 1 ∧ isSlave (timed none) 3 = true ∧
    isSlave (timed none) 2 = false :=
  ⟨by decide +kernel, by decide +kernel, by decide +kernel⟩

theorem witness_ethernet :
    running (hearing 0) = true ∧ Inv (hearing 0) ∧ isSlave (hearing 0) 3 = false ∧ portAddr (hearing 0) 3 true = some 8 ∧
      portAddr (hearing 0) 0 false = some 1 ∧ portAddr (hearing 0) 3 true ≠ some 1 ∧ isSlave (timed none) 3 = true :=
  ⟨by decide, inv_of (by decide +kernel), by decide +kernel⟩

/-- Stream 35 in the middle of a sample and of a transport session, last heard at a tick, its loss not yet told or told. -/
def linked (told : Bool) (at0 : Tick) : State :=
  let h := onStream 35 (fun x => { x with lostTold := told, heard := some at0 }) (filling 35 false 0 (hearing 35))
  { h with
    image := { h.image with filters := [⟨3, 0, 0, 0x1F00, some 0, 35⟩] }, bus := { h.bus with tp := [⟨7, true, 0x1F00, 9, 1, []⟩] } }

theorem witness_links :
    (∀ told : Bool, running (linked told 29000000) = true ∧ Checks (linked told 29000000) ∧ receives (linked told 29000000) 35 = true ∧
      silent (linked told 29000000) 35 = true ∧ (streamSt (linked told 29000000) 35).filling.isSome = true ∧
      sessionsOf (linked told 29000000) 35 = [⟨7, true, 0x1F00, 9, 1, []⟩] ∧
      (linked told 29000000).log.queue.length < 256 ∧ (streamSt (linked told 29000000) 35).lostTold = told) ∧
    silent (linked false 29000001) 35 = false := by decide +kernel

/-- The last stream as one that the twin mirrors. -/
def mirrored : State :=
  withFields [(F.ING_STREAM_CFG_ENABLE 35, 1), (F.ING_STREAM_CFG_WIRED 35, 2), (F.WOD_PAIR_STAT_LINK, 1)]
    { base with image := (hearing 0).image, twin := { base.twin with ofs := 100 } }

theorem witness_mirror :
    running mirrored = true ∧ Inv mirrored ∧ streamOn mirrored 35 = true ∧ fld mirrored (F.ING_STREAM_CFG_WIRED 35) = 2 ∧
      fld mirrored F.WOD_PAIR_STAT_LINK = 1 ∧ mirrored.replay.active = false ∧
      Takes mirrored 35 ⟨fromTwin mirrored 30000100, mirrored.time.count, [1]⟩ ∧ streamOn mirrored 34 = false :=
  ⟨by decide, inv_of (by decide +kernel), by decide +kernel, by decide +kernel, by decide +kernel, by decide,
    by unfold Takes; decide +kernel, by decide +kernel⟩

/-- Stream 35 under test: an item injected or not, the period's item used or not, one pass behind it; its period began and its last
item completed at a tick. -/
def tested (used : Bool) (inj : Option Tick) (at0 : Tick) : State :=
  onStream 35 (fun x => { x with periodUsed := used, injecting := inj, passRun := 1, periodFrom := at0, itemFrom := at0, item := [1] })
    (hearing 35)

theorem witness_blanking_periods :
    (∀ used : Bool, running (tested used none 29200000) = true ∧ Checks (tested used none 29200000) ∧
      streamOn (tested used none 29200000) 35 = true ∧ testInterval (tested used none 29200000) = 800000 ∧
      usableGap (tested used none 29200000) 35 = true ∧ (streamSt (tested used none 29200000) 35).periodUsed = used) ∧
    1 ≤ ((tested true none 29200000).time.count - 29200000) / max 1 (testInterval (tested true none 29200000)) ∧
    ((tested true none 29200001).time.count - 29200001) / max 1 (testInterval (tested true none 29200001)) = 0 := by decide +kernel

theorem witness_blanking_items :
    running (tested true (some 0) 28400000) = true ∧ Checks (tested true (some 0) 28400000) ∧
      usableGap (tested true (some 0) 28400000) 35 = false ∧
      (streamSt (tested true (some 0) 28400000) 35).injecting.isSome = true ∧ (streamSt (tested true (some 0) 28400000) 35).passRun ≥ 1 ∧
      (tested true (some 0) 28400000).log.queue.length < 256 ∧ crc32 [1] ≠ crc32 [2] ∧ crc32 [1] = crc32 [1] := by decide +kernel

theorem witness_blanking_starved :
    (streamSt (tested true none 28400000) 35).starvedTold = false ∧
      28400000 + 2 * testInterval (tested true none 28400000) ≤ (tested true none 28400000).time.count ∧
      (tested true none 28400001).time.count < 28400001 + 2 * testInterval (tested true none 28400001) := by decide +kernel
/-! ## Witnesses: World, candidates, the Conductor -/

/-- World with a lidar slice in its queue whose second point has no pose within 5 ms of it, and behind it one of another stream. -/
def fusing : State :=
  { hearing 23 with
    wld := { base.wld with
      pose := [{ Pose.zero with tick := 29000000 }]
      pendingSlices := [⟨23, 5, [⟨29125001, 29125002, (lidarPkt 0).bytes⟩, ⟨29125000, 29125002, (lidarPkt 0).bytes⟩]⟩, ⟨22, 5, []⟩] } }

/-- R145: where no slot is in use, every slice finds slots. -/
theorem slotRoom_of_free {s : State} {d : WorldData} (h : s.wld.slots = []) : slotRoom s d = true := by
  have hle : ∀ (b0 b1 : List VBox) (l : List Nat), slotChanges [] b0 b1 l ≤ l.length := fun b0 b1 l => by
    unfold slotChanges; exact List.length_filter_le _ _
  unfold slotRoom
  rw [h]
  refine decide_eq_true (Nat.le_trans (hle _ _ _) ?_)
  simp only [nearCells, List.length_take, List.length_nil]
  omega

theorem witness_fusion :
    fabricUp fusing = true ∧ Inv fusing ∧ fusing.wld.pendingSlices.head?.map (·.stream) = some 23 ∧ (22 : Fin 36).val ≠ 23 ∧
      (∀ sl ∈ fusing.wld.pendingSlices.head?, (slicePoints fusing sl).length = 2 ∧ (fusedPoints fusing sl).length = 1) ∧
      (∀ d, slotRoom fusing d = true) ∧ base.wld.pendingSlices = [] :=
  ⟨by decide, inv_of (by decide +kernel), by decide +kernel, by decide, by decide +kernel, fun _ => slotRoom_of_free rfl, by decide⟩

/-- The first domain's proposal network is done or not. -/
def proposing (done : Bool) : State := { base with inf := { base.inf with produced := done } }

theorem witness_candidate_writer :
    (∀ d : Fin 16, (domSweep (proposing true) d.val).written = false ∧ latticeBusy (proposing true) d.val = false) ∧
      fabricUp (proposing true) = true ∧ Inv (proposing true) ∧ (proposing true).frame.started = true ∧
      (proposing true).frame.stopped.getD 0 false = false ∧ (proposing true).inf.produced = true ∧ (proposing false).inf.produced = false :=
  ⟨by decide +kernel, by decide, inv_of (by decide +kernel), by decide⟩

/-- A candidate record of the client 0. -/
def cand : Cand := ⟨9, 0, 0, 2, 0, 0, 0, 0, 0, 0, 0⟩

/-- The four words of a node (R318) that needs flag 0: its phase, class, REPL, flow, budget, WAIT_TO and successors. -/
def node (phase cls repl : Nat) (flow : Option Nat) (budget wait : Nat) (succ : List (Fin 4096 × Fin 32)) : NodeWords :=
  ⟨1, BitVec.ofNat 32 (2 ^ 28 + phase * 2 ^ 25 + cls * 2 ^ 18 + repl * 2 ^ 17 + (flow.map fun f => 2 ^ 16 + f * 2 ^ 8).getD 0),
    BitVec.ofNat 32 (budget * 2 ^ 16), BitVec.ofNat 32 (wait * 2 ^ 15), succ⟩

/-- The machine whose graph has a plain node for the Solver lanes, one that consumes flow 255, the sweep's node for tiles, and a
node that needs one flag; the two nodes of the lanes have a successor each. -/
def graphed : State :=
  { base with
    image := { Image.blank with nodes :=
      [(0, node 3 3 0 none 10000 400 [(3, 0)]), (1, node 3 3 0 (some 255) 1 1 [(3, 0)]), (2, node 2 0 1 none 1 1 []),
        (3, node 3 3 0 none 1 1 [])] }
    swp := { base.swp with doms := [{ DomSweep.empty 0 with cands := [cand], written := true }] } }

theorem test_node_words :
    (node 2 0 1 (some 255) 7 9 []).w1 = 0x1403FF00 ∧ (nodeDesc graphed 1).map (fun d => (d.phase.val, d.unitClass.val, d.flow.map (·.val))) =
      some (3, 3, some 255) := by decide +kernel

/-- Unit u pulls, and node n is ready; so many candidates stand in tile 63's ring. -/
def pulling (u n ring : Nat) : State :=
  { graphed with
    cnd := { graphed.cnd with ready := [⟨n, 29990000⟩], pulls := [u], items := [⟨255, 4, 0, false, false, 0, some 74⟩] }
    swp := { graphed.swp with tiles := [(63, { TileSt.idle with todo := List.replicate ring 0 })] } }

theorem witness_pulls_and_grants :
    (fabricUp base = true ∧ 75 ∉ base.cnd.pulls ∧ (∀ g ∈ base.cnd.grants, g.unit ≠ 75) ∧ chooseNode base 75 = none) ∧
    (fabricUp (pulling 75 0 0) = true ∧ 75 ∈ (pulling 75 0 0).cnd.pulls ∧ chooseNode (pulling 75 0 0) 75 = some ⟨0, 29990000⟩ ∧
      (nodeDesc (pulling 75 0 0) 0).any (fun d => !isSweepNode d && d.flow.isNone) = true) ∧
    (chooseNode (pulling 75 1 0) 75 = some ⟨1, 29990000⟩ ∧ (nodeDesc (pulling 75 1 0) 1).any (fun d => !isSweepNode d && d.flow = some 255)
      = true ∧ (nextItem (pulling 75 1 0) 75 255).isSome = true ∧ nextItem (pulling 74 1 0) 74 255 = none ∧
      chooseNode (pulling 74 1 0) 74 = some ⟨1, 29990000⟩) := by decide +kernel

theorem witness_sweep_grants :
    (∀ n ∈ [1023, 1024], chooseNode (pulling 63 2 n) 63 = some ⟨2, 29990000⟩ ∧ (nodeDesc (pulling 63 2 n) 2).any isSweepNode = true ∧
      (tileSt (pulling 63 2 n) 63).todo.length = n ∧ (tileSt (pulling 63 2 n) 63).flight.length = 0 ∧
      nextBlockOf (pulling 63 2 n) (unitDomain (pulling 63 2 n) 63) = some (0, 1)) ∧
    nextBlockOf { pulling 63 2 0 with swp := base.swp } 0 = none := by decide +kernel

theorem witness_pulls_inv : Inv (pulling 75 0 0) ∧ Inv (pulling 63 2 1024) :=
  ⟨inv_of (by decide +kernel), inv_of (by decide +kernel)⟩

/-- Unit 75 has a grant of node 0, whose successor has been ready n times, since a tick. -/
def granted (n : Nat) (since : Tick) (w : Option Tick) (i : Option (Nat × Nat)) : State :=
  { graphed with
    cnd := { graphed.cnd with nodes := [(3, { NodeRun.idle with ready := n })], grants := [⟨75, 0, since, w, i, none, 0⟩] } }

theorem witness_task_completion :
    fabricUp (granted 254 29990000 none none) = true ∧
    (((granted 254 29990000 none none).cnd.grants.find? (fun x => x.unit = 75)).isSome = true ∧
      producerStalls (granted 254 29990000 none none) (((nodeDesc (granted 254 29990000 none none) 0).map (·.succ)).getD []) = false) ∧
    ((granted 255 29990000 none (some (255, 4))).cnd.grants.find? (fun x => x.unit = 75) =
      some ⟨75, 0, 29990000, none, some (255, 4), none, 0⟩) ∧
    (∀ w ∈ [none, some 29990000], (granted 255 29990000 w none).cnd.grants.find? (fun x => x.unit = 75) =
        some ⟨75, 0, 29990000, w, none, none, 0⟩ ∧
      producerStalls (granted 255 29990000 w none) (((nodeDesc (granted 255 29990000 w none) 0).map (·.succ)).getD []) = true) ∧
    (∀ g ∈ (granted 255 29990000 none none).cnd.grants, g.unit ≠ 74) := by decide +kernel

/-- Solver lane 3 has iterated since a tick. -/
def iterating (t : Tick) : State :=
  { base with slv := { base.slv with lanes := modAt 3 (fun l => { l with setup := true, began := t }) base.slv.lanes } }

/-- Leases of a scratch page since a tick and of a long-operation context. -/
def holding (t : Tick) : State :=
  { base with cnd := { base.cnd with leases := [⟨0, 2047, 75, 0, t, false⟩, ⟨5, 31, 0x92, 0, 0, false⟩] } }

theorem witness_overruns :
    (∀ t ∈ [29989999, 29990000], fabricUp (granted 0 t none none) = true ∧
      ((granted 0 t none none).cnd.grants.find? (fun x => x.unit = 75)).any
        (fun g => decide (g.time + budgetOf (granted 0 t none none) g.node < 30000000)) = decide (t = 29989999)) ∧
    (∀ t ∈ [29990000, 29990001],
      (granted 0 0 (some t) none).cnd.grants.all (fun g => waitReached (granted 0 0 (some t) none) g) = decide (t = 29990000)) ∧
    (∀ g ∈ (iterating 0).cnd.grants, g.unit ≠ 75) ∧ laneIterates (iterating 0) 75 = true ∧ laneIterates (iterating 30000000) 75 = false := by
  decide +kernel

theorem witness_overruns_inv : Inv (iterating 0) ∧ Inv (granted 0 29989999 none none) ∧ Inv (granted 0 0 (some 29990000) none) :=
  ⟨inv_of (by decide +kernel), inv_of (by decide +kernel), inv_of (by decide +kernel)⟩

theorem witness_lease_terms :
    (holding 29993749).cnd.leases.find? (fun x => x.cls = (0 : Fin 6).val ∧ x.res = 2047 ∧ ¬ x.revoking ∧ termPassed (holding 29993749) x)
        = some ⟨0, 2047, 75, 0, 29993749, false⟩ ∧
      (∀ x ∈ (holding 29993750).cnd.leases, x.cls = 0 → x.res = 2047 → termPassed (holding 29993750) x = false) ∧
      fabricUp (holding 29993749) = true ∧ Checks (holding 29993749) := by decide +kernel

/-- Every long-operation context is leased; unit 3 waits for one of them and for a scratch page. -/
def allLeased (page : Bool) : State :=
  { base with cnd := { base.cnd with
      leases := (List.range 32).map (fun n => ⟨5, n, 0x92, 0, 0, false⟩) ++ [⟨0, 2047, 75, 0, 0, false⟩, ⟨1, 127, 3, 0, 0, true⟩]
      leaseWaits := if page then [(3, 5, 29990000), (3, 0, 29990000)] else []
      revoked := [⟨2, 7, 75, 30000000⟩] } }

theorem witness_leases :
    (fabricUp (allLeased false) = true ∧ freeResource (allLeased false) 0 = some 0 ∧ freeResource (allLeased false) 5 = none ∧
      ∃ x ∈ (allLeased false).cnd.revoked, x.cls = 2 ∧ x.tick = (allLeased false).time.count ∧
        resourceFree (allLeased false) 2 x.res = true) ∧
    (∃ l ∈ (allLeased false).cnd.leases, l.cls = 0 ∧ l.res = 2047 ∧ l.revoking = false) ∧
    ((allLeased false).cnd.leaseWaits.find? (fun w => w.2.1 = 0) = none ∧
      (allLeased true).cnd.leaseWaits.find? (fun w => w.2.1 = 5) = some (3, 5, 29990000) ∧
      freeResource { allLeased true with cnd := { (allLeased true).cnd with
        leases := (allLeased true).cnd.leases.filter fun l => ¬ (l.cls = 5 ∧ l.res = 31) } } 5 = some 31) ∧
    (∃ l ∈ (allLeased false).cnd.leases, l.cls = 1 ∧ l.res = 127 ∧ l.revoking = true) ∧
    (∀ l ∈ (allLeased false).cnd.leases, l.cls = 1 → l.res = 127 → l.revoking = true) := by decide +kernel

/-- Flow 255, with an ITEM_TO of 100 ticks, is to release item n next; it has items 4 and 5 in its window since a tick. -/
def flowing (n : Nat) (t : Tick) : State :=
  { base with
    image := { Image.blank with flowTo := [(255, 100)] }
    cnd := { base.cnd with
      flows := [(255, ⟨6, n⟩)], items := [⟨255, 4, t, false, false, 0, none⟩, ⟨255, 5, t, false, false, 0, none⟩] } }

theorem witness_flows :
    (∀ t ∈ [29999900, 29999901], fabricUp (flowing 4 t) = true ∧ (flowSt (flowing 4 t) 255).release = 4 ∧
      (∃ i ∈ (flowing 4 t).cnd.items, i.flow = 255 ∧ i.seq = 4 ∧
        decide (i.entered + itemTo (flowing 4 t) 255 ≤ (flowing 4 t).time.count) = decide (t = 29999900)) ∧
      (∀ i ∈ (flowing 4 t).cnd.items, i.flow = 255 → i.seq = (flowSt (flowing 4 t) 255).release → i.complete = false)) ∧
    (flowSt (flowing 4 0) 255).release ≠ 5 := by decide +kernel
/-! ## Witnesses: the sweep and Select -/

/-- The last tile, c.t = 7.7. -/
def lastTile : TileId := ⟨7, 7⟩

/-- A key record of the candidate 0 of the frame 5, resolved free by the last tile and formed at a tick. -/
def keyRec (formed : Tick) : KeyRec := ⟨7 * 2 ^ 32, 5 * 1024 + 63, formed, false⟩

/-- A layer of one body and one small sphere. -/
def layer : Layer :=
  { articulated := false, mounted := false, vFwdMax := 1000, vRevMax := 1000, aMax := 1000, kappaMax := 1000, dkappaMax := 1000,
    hitchMin := 0, hitchMax := 100, hitchRate := 10, downZ := 0, minExtra := 0, bodies := [⟨0, 0, 0, 0, 0⟩],
    spheres := [⟨0, 0, 1024, 10, 10, 0, false, true, true, 0⟩], rgPos := 100, rgHead := 100, rgJoint := 100, rgHitch := 100,
    rgKappa := 100, rgSpeed := 100, rgSum := 100 }

/-- The machine with the last tile at work: queries of two kinds that entered at a tick, one gather, records in its buffer that were
formed at it, a packet offered. World has written brick 0 for the epoch of frame 6. -/
def sweeping (n : Nat) (t : Tick) : State :=
  { base with
    held := { base.held with layers := [(0, layer)] }
    wld := { base.wld with slots := [⟨0, 0, 0, 6⟩] }
    mem := { base.mem with blank := [] }
    swp := { base.swp with
      tiles := [(63, { TileSt.idle with queue := [⟨0, 0, 0, 1, 4, 0, t⟩, ⟨1, 3, 2, 1, 1, 0, 30000000⟩]
                                        gathers := [⟨2, [(0, 1, 0, 0)], t⟩], out := List.replicate n (keyRec t)
                                        offered := [List.replicate 8 (keyRec 0)] })]
      doms := [{ DomSweep.empty 0 with cands := [cand], written := true }] } }

theorem witness_gathers :
    (∀ t ∈ [29999997, 29999998], fabricUp (sweeping 9 t) = true ∧ tileUnit lastTile = 63 ∧
      dueKind (sweeping 9 t) (tileSt (sweeping 9 t) 63) = if t = 29999997 then some 1 else none) ∧
    ((tileSt (sweeping 9 0) 63).gathers[0]? = some ⟨2, [(0, 1, 0, 0)], 0⟩ ∧ (tileSt (sweeping 9 0) 63).gathers[1]? = none ∧
      gatherLate (sweeping 9 0) 63 ⟨2, [(0, 1, 0, 0)], 0⟩ = true ∧ gatherLate (sweeping 9 0) 63 ⟨2, [(0, 1, 0, 0)], 30000000⟩ = false) := by
  decide +kernel

theorem witness_gathers_inv : Inv (sweeping 9 0) := inv_of (by decide +kernel)

/-- The last tile with its gather taken away; the candidate curves more than its layer allows. -/
def gatherTaken : State :=
  let s := { sweeping 9 0 with swp := { (sweeping 9 0).swp with doms :=
    [{ DomSweep.empty 0 with cands := [{ cand with k1 := 30000 }], written := true }] } }
  setTile 63 { tileSt s 63 with gathers := [] } s

theorem witness_late_brick :
    (candCtx gatherTaken (unitDomain gatherTaken 63) 0).map (fun c => queryPoint gatherTaken c 1 0) = some (0, 0, 4096) ∧
      (wordSynd gatherTaken (readAddr gatherTaken 63 (0, 0, 4096) 2 0) = 0 ∧
        memAt (readAddr gatherTaken 63 (0, 0, 4096) 2 0) ≠ none ∧ readSlot gatherTaken 63 (0, 0, 4096) 2 ≤ 10239 ∧
        brickLate gatherTaken 63 (0, 0, 4096) 2 = true) := by decide +kernel

/-- The sweep's hard stop has come. -/
def swept : State := { sweeping 9 0 with swp := { (sweeping 9 0).swp with closed := true } }

/-- Lane 3's FIFO has so many records. -/
def crowded (n : Nat) : State :=
  { sweeping 9 0 with sel := { base.sel with fifos := [[], [], [], List.replicate n ⟨keyRec 0, 0⟩] } }

/-- The sweeping machine k ticks after its edge. -/
def sweepingAt (k : Nat) : State := { sweeping 9 0 with frame := { base.frame with edgeTick := 30000000 - k } }

theorem witness_key_packets :
    ((tileSt (sweeping 7 29999975) 63).out ≠ [] ∧ (sweeping 7 29999975).swp.closed = false ∧
      packetDue (sweeping 7 29999975) (tileSt (sweeping 7 29999975) 63) = true ∧
      packetDue (sweeping 7 29999976) (tileSt (sweeping 7 29999976) 63) = false ∧
      packetDue (sweeping 8 29999976) (tileSt (sweeping 8 29999976) 63) = true ∧
      ∀ i, i < 16 → wordSynd (sweeping 9 0) (scratchBase 63 + 0x64000 + 8 * i) = 0) ∧ swept.swp.closed = true := by decide +kernel

theorem witness_key_packets_accepted :
    (∀ n ∈ [4088, 4089], fabricUp (crowded n) = true ∧ (crowded n).swp.closed = false ∧
        ((crowded n).swp.tiles.find? (fun t => laneOf t.1 = (3 : Fin 4).val ∧ t.2.offered ≠ [])).isSome = true ∧
        decide (((crowded n).sel.fifos.getD 3 []).length + 8 ≤ 4096) = decide (n = 4088)) ∧
      (crowded 0).swp.tiles.find? (fun t => laneOf t.1 = (2 : Fin 4).val ∧ t.2.offered ≠ []) = none := by decide +kernel

theorem witness_flush_lead :
    ∃ k, flushDue (sweepingAt k) = true ∧ flushDue (sweepingAt (k - 1)) = false ∧ (sweepingAt k).frame.started = true ∧
      (sweepingAt k).replay.active = false ∧ 1 ≤ k := ⟨16250 - 5 * fld base (F.SWP_STW_CFG_FLUSH_LEAD 0) / 2, by decide +kernel⟩

theorem witness_key_packets_inv : Inv swept ∧ Inv (crowded 4088) ∧ Inv (sweepingAt 16250) :=
  ⟨inv_of (by decide +kernel), inv_of (by decide +kernel), inv_of (by decide +kernel)⟩

/-- The last tile rewrites the last level-2 word. -/
def rewriting : State := { base with mem := { base.mem with rewrites := [(63, 2 ^ 18 - 1)] } }

theorem witness_level_two_rewrite :
    fabricUp rewriting = true ∧ rewriting.mem.rewrites.contains (tileUnit lastTile, 2 ^ 18 - 1) = true ∧
      rewriting.mem.rewrites.contains (tileUnit lastTile, 0) = false := by decide

/-- Tile 63 is in its test slice, k ticks after the edge. -/
def slicing (k : Nat) : State := { past k with frame := { (past k).frame with testTile := some 63 } }

theorem witness_tile_tests :
    fabricUp (slicing 1000) = true ∧ (slicing 1000).frame.testTile = some 63 ∧ sliceLate (slicing 1000) = false ∧
      sliceLate (slicing 1001) = true ∧ TestOutcome.mismatch ≠ .pass ∧ base.frame.testTile = none := by decide

theorem witness_tile_tests_inv : Inv (slicing 1000) := inv_of (by decide +kernel)

/-- Cluster 7's window ends; its last tile has found contact in every record, its others in none. -/
def peering (num : FrameNo) : State :=
  { base with
    frame := { base.frame with num := num }
    swp := { base.swp with tiles := (List.range 8).map fun k =>
      (56 + k, { TileSt.idle with winResolved := 1024, winContact := if k = 7 then 1024 else 0 }) } }

theorem witness_peer_checks :
    fabricUp (peering 0) = true ∧ peerDue (peering 0) 7 = true ∧ peerDue (peering 1) 7 = false ∧ inPool (peering 0) 63 = true ∧
      1024 ≤ (tileSt (peering 0) 63).winResolved ∧
      peerDeviates (fld (peering 0) (F.SWP_PEER_CFG_PEER_TH 7)) (1024, 1024) [(0, 1024), (0, 1024)] = true := by decide +kernel

theorem witness_peer_checks_inv : Inv (peering 0) := inv_of (by decide +kernel)

/-- Lane 3 of Select has one record, with its key, its tag and the tick, counted from the edge, at which it was accepted; the tiles
of q are quarantined. -/
def selecting (key tag acc : Nat) (q : List Nat) : State :=
  { sweeping 9 0 with
    frame := { base.frame with quarantined := q }
    sel := { base.sel with fifos := [[], [], [], [⟨⟨key, tag, 0, false⟩, 29990000 + acc⟩]] } }

/-- What the statement about Select's records supposes of every such state. -/
abbrev SelectHyps (s : State) (r : LaneRec) : Prop :=
  fabricUp s = true ∧ s.replay.active = false ∧ s.sel.fifos.getD 3 [] = [r] ∧ r.entry.sepia = false

/-- The tag of the last tile in the frame 5. -/
def tag5 : Nat := 5 * 1024 + 63

theorem witness_select_late_and_stale :
    (SelectHyps (selecting (7 * 2 ^ 32) tag5 16250 []) ⟨⟨7 * 2 ^ 32, tag5, 0, false⟩, 30006250⟩ ∧
      (selecting 0 tag5 16250 []).frame.edgeTick + hardStop (selecting 0 tag5 16250 []) 1 ≤ 30006250) ∧
    (30006249 < (selecting 0 tag5 16249 []).frame.edgeTick + hardStop (selecting 0 tag5 16249 []) 1 ∧
      tagFrame (6 * 1024 + 63) ≠ frameN (selecting 0 (6 * 1024 + 63) 16249 []) % 64 ∧
      tagFrame tag5 = frameN (selecting 0 tag5 16249 []) % 64 ∧
      (domSweep (selecting 1 tag5 16249 []) 0).cands[keyIndex 1]? = none) := by decide +kernel

theorem witness_select_record :
    SelectHyps (selecting (7 * 2 ^ 32) tag5 16249 [63]) ⟨⟨7 * 2 ^ 32, tag5, 0, false⟩, 30006249⟩ ∧
    ((domSweep (selecting (7 * 2 ^ 32) tag5 16249 [63]) (tagDomain tag5)).cands[keyIndex (7 * 2 ^ 32)]? = some cand ∧
      wordSynd (selecting (7 * 2 ^ 32) tag5 16249 []) (clientMapAddr (domFirst (selecting (7 * 2 ^ 32) tag5 16249 []) 0 + 0)) = 0 ∧
      cliDomain (selecting (7 * 2 ^ 32) tag5 16249 [63]) cand.client = tagDomain tag5 ∧
      tagTile tag5 ∈ (selecting (7 * 2 ^ 32) tag5 16249 [63]).frame.quarantined) ∧
    (tagTile tag5 ∉ (selecting (7 * 2 ^ 32) tag5 16249 []).frame.quarantined ∧ keyContact (7 * 2 ^ 32) = false ∧
      7 * 2 ^ 32 / 2 ^ 32 ≠ 0xFFFFFFFF ∧
      wordSynd (selecting (7 * 2 ^ 32) tag5 16249 []) (resolutionAddr (domFirst (selecting (7 * 2 ^ 32) tag5 16249 []) 0 + 0)) = 0 ∧
      isResolved (selecting (7 * 2 ^ 32) tag5 16249 []) 0 0 = false ∧ cand.kind = 2) := by decide +kernel

theorem witness_select_bad_keys :
    (keyContact (10 * 2 ^ 27 + 2 ^ 31) = true ∧ keyCause (10 * 2 ^ 27 + 2 ^ 31) = 10 ∧ keyIndex (10 * 2 ^ 27 + 2 ^ 31) = 0) ∧
      (keyContact (0xFFFFFFFF * 2 ^ 32) = false ∧ 0xFFFFFFFF * 2 ^ 32 / 2 ^ 32 = 0xFFFFFFFF) ∧
      cliDomain (selecting 0 (5 * 1024 + 64) 0 []) cand.client ≠ tagDomain (5 * 1024 + 64) := by decide +kernel

theorem witness_select_record_inv : Inv (selecting (7 * 2 ^ 32) tag5 16250 []) ∧ Inv (selecting (7 * 2 ^ 32) tag5 16249 [63]) :=
  ⟨inv_of (by decide +kernel), inv_of (by decide +kernel)⟩

/-- The first frame of Select's test. -/
def selectTest (num : FrameNo) : State := { base with frame := { base.frame with num := num } }

theorem witness_select_notice_and_test :
    fabricUp (selecting 0 0 0 [63]) = true ∧ (selecting 0 0 0 [63]).frame.quarantined.contains (tileUnit lastTile) = true ∧
      (selecting 0 0 0 []).frame.quarantined.contains (tileUnit lastTile) = false ∧
      (fabricUp (selectTest 16) = true ∧ selectTestDue (selectTest 16) = true ∧ selectTestDue (selectTest 17) = false ∧
        (selectTest 16).safe.restart = none ∧
        (restartsInWindow (selectTest 16)).length < fld (selectTest 16) F.WDN_RESTART_CFG_RESTART_MAX) := by decide +kernel

theorem witness_select_test_inv : Inv (selectTest 16) := inv_of (by decide +kernel)

/-- Select has its four entries and has not merged. -/
def merging : State := { swept with sel := { swept.sel with top := List.replicate 4 ⟨7 * 2 ^ 32, tag5, cand⟩ } }

/-- A replay whose sweep is done. -/
def replaySwept : State :=
  { replaying with swp := { base.swp with doms := [{ DomSweep.empty 0 with cands := [cand], written := true, nextBlock := 1 }] } }

theorem witness_merge :
    (fabricUp merging = true ∧ merging.swp.closed = true ∧ merging.sel.merged = false ∧ merging.frame.stopped.getD 2 false = false ∧
      merging.sel.top.length ≤ 4) ∧ base.swp.closed = false ∧
      (replaySwept.replay.active = true ∧ sweepIdle replaySwept = true ∧ replaySwept.sel.merged = false ∧
        replaySwept.frame.stopped.getD 2 false = false) := by decide +kernel

/-! ## Witnesses: the Solver -/

/-- Solver lane 3 has the candidate 0, and has done its setup or not, k ticks after the edge. -/
def solving (setup : Bool) (outcome : Option Nat) (k : Nat) : State :=
  { sweepingAt k with
    sel := { base.sel with top := [⟨7 * 2 ^ 32, tag5, cand⟩] }
    slv := { base.slv with lanes := modAt 3 (fun l => { l with
      entry := some ⟨7 * 2 ^ 32, tag5, cand⟩, setup := setup, merit := 9, outcome := outcome }) base.slv.lanes } }

theorem witness_solver_lanes :
    (∀ setup : Bool, fabricUp (solving setup none 22499) = true ∧
      (laneWork (solving setup none 22499) 3).any (fun w => w.1.setup == setup && w.1.outcome.isNone) = true) ∧
      laneWork (solving true none 22500) 3 = none := by decide +kernel

theorem witness_solver_lanes_inv : Inv (solving true none 22499) := inv_of (by decide +kernel)

theorem witness_solver_ends :
    fabricUp (solving true (some 0) 22499) = true ∧
      (laneSt (solving true (some 0) 22499) 3).outcome.isSome = true ∧ (laneSt (solving true (some 0) 22499) 3).entry.isSome = true ∧
      refineOpen (solving true (some 0) 22499) = true ∧ refineOpen (solving true (some 0) 22500) = false ∧
      (∀ n, n < 4 → n ≠ 3 → (laneSt (solving true (some 0) 22499) n).entry = none) ∧ (solving true (some 0) 22499).sel.top ≠ [] := by
  decide +kernel

theorem witness_solver_ends_inv : Inv (solving true (some 0) 22499) := inv_of (by decide +kernel)

/-- The machine in a frame, with lane 3 to leave service at the next edge. -/
def laneTest (num : FrameNo) : State :=
  { nearlyFull with frame := { base.frame with num := num }, slv := { base.slv with pendingOut := [3] } }

theorem witness_solver_tests :
    fabricUp (laneTest 7) = true ∧ solverTestDue (laneTest 7) 3 .pass = true ∧ solverTestDue (laneTest 7) 3 .overtime = true ∧
      solverTestDue (laneTest 7) 2 .pass = false ∧ solverTestDue (laneTest 32) 3 (.guardFail 3) = true ∧
      (laneTest 7).log.queue.length < 256 ∧ 3 ∈ (laneTest 7).slv.pendingOut := by decide +kernel

theorem witness_solver_tests_inv : Inv (laneTest 7) := inv_of (by decide +kernel)
/-! ## Witnesses: safety -/

/-- The machine in a frame with doubt bit 15. -/
def doubtful : State := { base with frame := { base.frame with flags := 0x8000 } }

theorem witness_doubt_stands :
    ∃ t, exec .watchdogKick doubtful = .next t ∧ Kind.mayChange .frameNumber .watchdogKick = false ∧
      doubtful.frame.flags.getLsbD 15 = true := ⟨_, rfl, by decide, by decide⟩

/-- A monitor, at rest with SAFE_STOP_N asserted, at the emit hard stop of the frame of an accepted acknowledgement, whose bundle has
gone out. -/
def releasing : State :=
  { past 25000 with
    frame := { (past 25000).frame with emittedFrame := true }
    pwr := { base.pwr with safeStop := true }
    twin := { base.twin with pair := .monitor }
    safe := { base.safe with atRest := true, acked := some 5 } }

/-- Every condition of R409 holds, of a device that follows. -/
abbrev Released (t : State) : Prop :=
  t.pwr.safeStop = true ∧ t.safe.atRest = true ∧ t.safe.acked = some t.frame.num ∧ t.frame.flags = 0 ∧ t.twin.pair = .monitor

theorem released_kept : Keeps [.indlog, .regs, .wld, .log, .queue, .mem, .data, .obs, .sent, .cnd, .sec, .bus, .free] Released := by
  intro p hp
  fin_cases hp <;> (simp only [Part.Kept, setReg]; intros; assumption)

theorem free_kept : Keeps [.regs, .indlog, .log, .queue, .bus] fun t => t.pwr.safeStop = false := by
  intro p hp
  fin_cases hp <;> (simp only [Part.Kept, setReg]; intros; assumption)

/-- The end of a frame in a state that meets R409 releases SAFE_STOP_N. -/
theorem endFrame_releases {s : State} (h : Released s) : (endFrame s).pwr.safeStop = false := by
  have C := released_kept
  unfold endFrame
  extract_lets -merge -useContext -underBinder +onlyGivenNames s1 s2 s3
  have h1 : Released s1 := showTiles_keeps (C.mono (by decide)) (showFrame_keeps (C.mono (by decide)) h)
  clear_value s1
  have h2 : Released (sendAnswers s2) := sendAnswers_keeps (C.mono (by decide))
    (foldl_keeps (fun s d hs => writeTelemetry_keeps (C.mono (by decide)) hs) _ _ h1)
  have h3 : s3.pwr.safeStop = false := by
    unfold s3 releaseSafeStop countPersist countClean
    rw [if_pos (show follower (sendAnswers s2) = true by simp [follower, h2.2.2.2.2])]
    rw [if_pos (by simp [h2.1, h2.2.1, h2.2.2.1, h2.2.2.2.1, h2.2.2.2.2])]
    exact report_keeps (P := fun t => t.pwr.safeStop = false) (free_kept.mono (by decide))
      (setFlag_keeps (free_kept.mono (by decide)) rfl)
  exact showHold_keeps (P := fun t => t.pwr.safeStop = false) (free_kept.mono (by decide)) h3

theorem witness_safe_stop_release :
    ∃ t, exec (.emitHardStop false) releasing = .next t ∧ releasing.pwr.safeStop = true ∧ t.pwr.safeStop = false := by
  refine ⟨closeFrame false { releasing with frame := { releasing.frame with stopped := modAt 5 (fun _ => true) releasing.frame.stopped } },
    ?_, by decide, ?_⟩
  · show Host.Outcome.next (live releasing (atStop 5 (closeFrame false))) = _
    rw [live, if_pos (by decide), atStop, if_neg (by decide +kernel)]
  · unfold closeFrame emitLast
    rw [if_pos (by decide +kernel)]
    exact endFrame_releases (by decide +kernel)

theorem witness_safe_stop_release_inv : Inv releasing := inv_of (by decide +kernel)

/-- The machine whose V has been held, or whose pair's last good frame came, since a tick. -/
def holdingV (t : Tick) : State := 
  { nearlyFull with umb := { base.umb with holding := true, t0 := t }, pwr := { base.pwr with safeStop := false } }
def following (t : Tick) : State := { nearlyFull with twin := { base.twin with pair := .monitor, goodAt := t } }

/-- The machine whose watchdog was kicked at a tick, in a state of the pair. -/
def kicked (p : PairState) (t : Tick) : State :=
  { base with ind := { base.ind with powered := true, wdogKick := t }, twin := { base.twin with pair := p } }

theorem witness_watchdog :
    (∃ k, fld (holdingV 0) F.WDN_SAFE_CFG_STOP_LIMIT = k ∧ 25000 * k < 29000000 ∧
      stopLimitOver (holdingV (30000000 - 25000 * k)) = true ∧ stopLimitOver (holdingV (30000001 - 25000 * k)) = false ∧
      stopLimitOver (following (30000000 - 25000 * k)) = true ∧ stopLimitOver (following (30000001 - 25000 * k)) = false) ∧
    (holdingV 0).pwr.safeStop = false ∧ (holdingV 0).log.queue.length < 256 ∧ running (holdingV 0) = true ∧
    (∀ p ∈ [PairState.solo, .pairedA, .pairedB], ∀ t ∈ [29750000, 29750001], running (kicked p t) = true ∧ (kicked p t).ind.powered = true ∧
      decide ((kicked p t).ind.wdogKick + 250000 ≤ (kicked p t).time.count) = decide (t = 29750000)) ∧ Requester.jtag ≠ .warden :=
  ⟨⟨_, rfl, by decide +kernel⟩, by decide +kernel⟩

theorem witness_watchdog_inv : Inv (holdingV 0) ∧ Inv (following 0) ∧ Inv (kicked .pairedA 29750000) :=
  ⟨inv_of (by decide +kernel), inv_of (by decide +kernel), inv_of (by decide +kernel)⟩

/-- The machine after n restarts of now and so many doubt frames in a row, with a restart under way or not, k ticks after its edge. -/
def worn (n persist k : Nat) (r : Option RestartSt) : State :=
  { past k with safe := { base.safe with restartTimes := List.replicate n 30000000, persist := persist, restart := r } }

theorem witness_restart_triggers :
    (∃ m, fld base F.WDN_RESTART_CFG_RESTART_MAX = m + 1 ∧ (restartsInWindow (worn m 0 0 none)).length < m + 1 ∧
      m + 1 ≤ (restartsInWindow (worn (m + 1) 0 0 none)).length ∧ fld (worn m 0 0 none) F.WDN_RESTART_CFG_RESTART_MAX = m + 1 ∧
      fld (worn (m + 1) 0 0 none) F.WDN_RESTART_CFG_RESTART_MAX = m + 1) ∧
    (∃ m, fld (worn 0 m 0 none) F.WDN_RESTART_CFG_PERSIST ≤ m ∧ m - 1 < fld (worn 0 (m - 1) 0 none) F.WDN_RESTART_CFG_PERSIST ∧ 1 ≤ m) ∧
    (∀ k ∈ [124, 125], fabricUp (worn 0 0 k none) = true ∧ (worn 0 0 k none).frame.started = true ∧
      decide ((worn 0 0 k none).frame.edgeTick + 125 ≤ (worn 0 0 k none).time.count) = decide (k = 125)) ∧
    fabricUp (worn 0 0 125 (some ⟨.command, 0, .warmUp, []⟩)) = true ∧ Requester.jtag ≠ .warden ∧
    replaying.replay.active = true ∧ running replaying = true :=
  ⟨⟨fld base F.WDN_RESTART_CFG_RESTART_MAX - 1, by decide +kernel⟩, ⟨fld base F.WDN_RESTART_CFG_PERSIST, by decide +kernel⟩, by decide +kernel⟩

/-- The machine in a phase of a restart that began at a tick. -/
def restarting (p : RestartPhase) (t : Tick) : State := worn 0 0 0 (some ⟨.persist, t, p, []⟩)

theorem witness_fabric_restart :
    running (restarting .halted 0) = true ∧
      (∀ t ∈ [29949999, 29950000], stepOver (restarting .halted t) ⟨.persist, t, .halted, []⟩ = decide (t = 29949999)) ∧
      (∀ t ∈ [18749999, 18750000], stepOver (restarting .warmUp t) ⟨.persist, t, .warmUp, []⟩ = decide (t = 18749999)) ∧
      (restartsInWindow base).length < fld base F.WDN_RESTART_CFG_RESTART_MAX ∧
      (∃ m, fld (worn m 0 0 none) F.WDN_RESTART_CFG_RESTART_MAX ≤ (restartsInWindow (worn m 0 0 none)).length) ∧
      (∃ p ∈ sramRanges, p.1 ≤ 0x8001FFFFFF ∧ 0x8001FFFFFF < p.1 + p.2) ∧
      (∀ p ∈ sramRanges, ¬(p.1 ≤ 0x1FFFFFFFF ∧ 0x1FFFFFFFF < p.1 + p.2)) :=
  ⟨by decide +kernel, by decide +kernel, by decide +kernel, by decide +kernel, ⟨fld base F.WDN_RESTART_CFG_RESTART_MAX, by decide +kernel⟩,
    by decide +kernel, by decide +kernel⟩
/-! ## Witnesses: Madder -/

/-- The trajectory that the Solver hands on for a candidate record. -/
def traj (c : Cand) : Traj := ⟨.candidate 0 c, none, some 63, 0, 0, 0, none⟩

/-- A layer without spheres, over which a machine that stands still is never too close to anything. -/
def bare : Layer := { layer with spheres := [] }

/-- The configuration of a machine that stands at the origin. -/
def stands : Cfg := ⟨[(0, 0)], [0], 0, 0, 0⟩

theorem profAt_zero : ∀ (l : List (Nat × Int)) (h : Nat), (∀ x ∈ l, x.2 = 0) → profAt l h = 0
  | [], _, _ => rfl
  | [(_, a)], _, hl => by simp_all [profAt]
  | (ta, a) :: (tb, b) :: rest, h, hl => by
    have ha : a = 0 := hl (ta, a) (by simp)
    have hb : b = 0 := hl (tb, b) (by simp)
    have ih := profAt_zero ((tb, b) :: rest) h (fun x hx => hl x (by simp_all))
    unfold profAt
    split
    · simp [ha, hb]
    · exact ih

/-- The machine has stood still so far, on a column of height h. -/
abbrev Still (h : Int) (a : SubAcc) : Prop := a.bad = none ∧ a.cfg = stands ∧ a.hts = [h] ∧ a.sums = [⟨0, 0, 0⟩]

theorem subStep_still {ter : Terrain} {h : Int} {c : Nat} {kp vp : List (Nat × Int)} {a : SubAcc} (m : Nat)
    (ht : ter 0 0 = some (h, c)) (hk : ∀ n, profAt kp n = 0) (hv : ∀ n, profAt vp n = 0) (ha : Still h a) :
    Still h (subStep bare ter 0 kp vp stands a m) := by
  obtain ⟨cfg, hts, sums, arc, arcs, track, bad, guards⟩ := a
  obtain ⟨rfl, rfl, rfl, rfl⟩ := ha
  have hd : headingSteps bare [0] 0 0 = [0] := by decide +kernel
  have hc : colOf 0 = 0 := by decide
  have hr : ∀ n, roundDiv 0 n = 0 := fun n => by unfold roundDiv; simp
  have hp : placeBodies bare (0, 0) [0] = [(0, 0)] := by decide
  have hz : hitchStep bare 0 0 = 0 := by decide
  have ho : octagonal 0 0 = 0 := by decide
  have hj : jointBad bare [0] = false := by decide
  simp [subStep, hk, hv, hd, hr, stands, hc, ht, hp, hz, ho, hj]
  exact ⟨rfl, rfl, rfl, rfl⟩

/-- The expansion of a machine that stands still ends at no limit. -/
theorem expandWith_still {ter : Terrain} {h : Int} {c : Nat} {kp vp : List (Nat × Int)} (ht : ter 0 0 = some (h, c))
    (hk : ∀ n, profAt kp n = 0) (hv : ∀ n, profAt vp n = 0) : (expandWith bare ter 0 kp vp Pose.zero).infeas = none := by
  have he : edgeCfg bare Pose.zero = stands := by decide +kernel
  have hc : colOf 0 = 0 := by decide
  have hl : limitCause bare 0 0 0 0 = none := by decide
  have hj : jointBad bare [0] = false := by decide
  have hp : ∀ k, (poseOf bare k stands).curvature = 0 ∧ (poseOf bare k stands).speed = 0 := by decide
  unfold expandWith
  simp only [he, show Pose.zero.kappa = 0 from rfl, show Pose.zero.v = 0 from rfl, hl, show stands.th = [0] from rfl, hj]
  rw [if_neg (by decide)]
  simp only [show stands.pos = [(0, 0)] from rfl, List.map_cons, List.map_nil, hc, ht, Option.getD_some]
  refine And.left (b := _) (foldl_keeps (P := fun (st : Expn × SubAcc) => st.1.infeas = none ∧
    (∀ p, st.1.poses.getLast? = some p → p.curvature = 0 ∧ p.speed = 0) ∧ Still h st.2) ?_ _ _ ⟨rfl, by simp, rfl, rfl, rfl, rfl⟩)
  intro st k hst
  obtain ⟨x, a⟩ := st
  obtain ⟨h1, h2, h3⟩ := hst
  have h1 : x.infeas = none := h1
  rw [if_neg (by simp [h1])]
  have h4 : Still h ((List.range 8).foldl (fun a j => subStep bare ter 0 kp vp stands a (8 * k + j)) { a with sums := [⟨0, 0, 0⟩] }) :=
    foldl_keeps (fun a j ha => subStep_still _ ht hk hv ha) _ _ ⟨h3.1, h3.2.1, h3.2.2.1, rfl⟩
  revert h4
  generalize (List.range 8).foldl (fun a j => subStep bare ter 0 kp vp stands a (8 * k + j)) { a with sums := [⟨0, 0, 0⟩] } = b
  intro h4
  simp only [h4.1, h4.2.1]
  have h5 : ((x.poses.getLast?).map fun p => (p.curvature, p.speed)).getD (0, 0) = (0, 0) := by
    cases e : x.poses.getLast? with
    | none => rfl
    | some p => simp [h2 p e]
  simp only [h5, (hp _).1, (hp _).2, show (0 : Int) - 0 = 0 from rfl, hl, show stands.th = [0] from rfl, hj]
  exact ⟨h1, by simp [hp], h4⟩

/-- Madder finds nothing against a machine that stands still without spheres on a known column. -/
theorem madderFails_still {s : State} {ko : Option Nat} (hl : layerOf s 0 = some bare)
    (ht : (frameTerrain s 0 0).isSome = true) : madderFails s (.candidate 0 cand) ko Pose.zero = [] := by
  obtain ⟨⟨h, c⟩, ht⟩ := Option.isSome_iff_exists.mp ht
  have hx : (recExpand bare (frameTerrain s) Pose.zero (.candidate 0 cand)).infeas = none := by
    simp only [recExpand, expandCand, show cand.hitch.val = 0 from rfl]
    exact expandWith_still ht (fun n => profAt_zero _ n (by decide)) (fun n => profAt_zero _ n (by decide))
  unfold madderFails
  simp only [show (recCand (.candidate 0 cand)).layer.val = 0 from rfl, hl, hx]
  simp [bare]

/-- Madder has a trajectory to judge over the layers given. -/
def judging (ls : List (Nat × Layer)) : State :=
  { base with held := { base.held with layers := ls }, mad := { base.mad with subject := some (traj cand) } }

theorem witness_madder :
    (fabricUp (judging [(0, bare)]) = true ∧ (judging [(0, layer)]).frame.started = true ∧
      (judging [(0, layer)]).mad.verdictOwn = none ∧ (judging [(0, layer)]).frame.stopped.getD 4 false = false) ∧
    (judging []).mad.subject = some (traj cand) ∧
    madderFails (judging []) (traj cand).record (traj cand).keepOut (edgePose (judging [])) ≠ [] ∧ base.mad.subject = none ∧
    base.frame.started = true ∧ State.reset.frame.started = false := by
  decide +kernel

theorem witness_madder_passes :
    madderFails (judging [(0, bare)]) (traj cand).record (traj cand).keepOut (edgePose (judging [(0, bare)])) = [] :=
  madderFails_still rfl (by decide +kernel)

/-- The same with no doubt, and all the inputs of the choice there. -/
def readyToEmit : State := { judging [(0, bare)] with mad := { base.mad with subject := some (traj cand), verdictOwn := some true } }

theorem witness_madder_emits : emitReady readyToEmit = true := by decide +kernel

/-- The trajectory's tile has been implicated in so many frames of late. -/
def disagreed (n : Nat) : State :=
  { judging [] with mad := { base.mad with subject := some (traj cand), dis := List.replicate n ⟨4, some 63, none⟩ } }

theorem witness_madder_rejects :
    ((traj cand).tile = some 63 ∧ ∃ o ∈ recentDis (disagreed 1) 16, o.tile = some 63) ∧ 3 ≤ (recentDis (disagreed 3) 64).length ∧
      (disagreed 3).safe.restart = none ∧
      (restartsInWindow (disagreed 3)).length < fld (disagreed 3) F.WDN_RESTART_CFG_RESTART_MAX := by decide +kernel

/-- The frame in which Madder's injection is due, or the one after it. -/
def injecting (num : FrameNo) : State := { base with frame := { base.frame with num := num } }

theorem witness_madder_injection :
    injectionDue (injecting 8) = true ∧ injectionDue (injecting 9) = false ∧ fabricUp (injecting 8) = true ∧
      ¬(true = true ∧ (1 : Fin 8) = 0 ∧ true = true) := by decide +kernel

theorem witness_madder_inv : Inv (judging [(0, bare)]) ∧ Inv (disagreed 3) ∧ Inv (injecting 8) :=
  ⟨inv_of (by decide +kernel), inv_of (by decide +kernel), inv_of (by decide +kernel)⟩

/-! ## Witnesses: Kermes and the fault log -/

/-- The last Solver lane is out of service, a memory is to be tested in a restart, and a pack of each class has a digest; a run is
under way or not. -/
def testing (k : Option KermesRun) (d : BitVec 256) : State :=
  { base with
    image := { Image.blank with kermesOk := true, packs := [(65535, 2, d), (0, 3, d)] }
    cnd := { base.cnd with outOfService := [75] }
    safe := { base.safe with kermes := k, restart := some ⟨.command, 0, .warmUp, []⟩ } }

theorem witness_kermes :
    running (testing none 0) = true ∧ kermesNo (.lane 3) = some 75 ∧ outOfService (testing none 0) 75 = true ∧
      (testing none 0).safe.kermes = none ∧ (testing none 0).image.kermesOk = true ∧
      packOf (testing none 0) 65535 = some (65535, 2, 0) ∧ (2 : Fin 4).val = packClass (.lane 3) ∧
      packOf (testing none 0) 0 = some (0, 3, 0) ∧ (3 : Fin 4).val = packClass (.memory .hbm) ∧
      (kermesReady (.memory .hbm) (testing none 0)).isSome = true ∧ (kermesReady (.lane 3) (testing none 0)).isSome = true ∧
      (kermesReady (.lane 2) (testing none 0)).isNone = true := by decide +kernel

theorem witness_kermes_runs :
    (testing (some ⟨.lane 3, 65535, 4⟩) 0).safe.kermes = some ⟨.lane 3, 65535, 4⟩ ∧ running (testing (some ⟨.lane 3, 65535, 4⟩) 0) = true ∧
      64 ≤ frameDist 4294967237 base.frame.num ∧ frameDist 4294967238 base.frame.num < 64 := ⟨rfl, by decide, by decide, by decide⟩

/-- Results with the pack's digest, and results with another. -/
theorem witness_kermes_digest :
    (∃ p, packOf (testing none (Config.sha3 [1])) 65535 = some p ∧ p.2.2 = Config.sha3 [1]) ∧
      ∀ p, packOf (testing none (Config.sha3 [1] + 1)) 65535 = some p → p.2.2 ≠ Config.sha3 [1] := by
  refine ⟨⟨_, rfl, rfl⟩, fun p hp => ?_⟩
  obtain rfl := Option.some.inj hp
  exact fun h => absurd (BitVec.add_right_eq_self.mp h) (by decide)

theorem witness_kermes_inv : Inv (testing none 0) ∧ Inv (testing (some ⟨.lane 3, 65535, 4⟩) 0) :=
  ⟨inv_of (by decide +kernel), inv_of (by decide +kernel)⟩

/-- The machine with 41 records for Ochre and one in the log, whose last datagram and last resend went out at a tick. -/
def logging (n : Tick) : State :=
  { nearlyFull with
    log := { nearlyFull.log with ochre := List.replicate 41 record.entry }
    ind := { base.ind with log := [record.entry] }, och := { base.och with lastAt := some n, resendAt := some n } }

/-- A resend request of Ochre to a node, from the record SEQ on. -/
def resendReq (node : Nat) : List Byte :=
  let b : List Byte := leBytes 4 0x5248434F ++ [1, BitVec.ofNat 8 node, 0, 4, 0, 0, 0, 0, 0, 0, 0, 0]
  b ++ leBytes 4 (crc32 b)

theorem witness_records :
    (running base = true ∧ base.log.queue = [] ∧ (logging 0).log.queue = record :: List.replicate 254 record ∧
      (logging 0).log.ochre ≠ [] ∧ record.needOchre = true ∧ record.needHbm = true ∧ (logging 0).image.faultLog.1 % 8 = 0 ∧
      ({ record with needHbm := false } : QueuedRec).needHbm = false) ∧
    (∀ t ∈ [29950000, 29950001], decide (50000 ≤ ochreQuiet (logging t)) = decide (t = 29950000)) ∧
    (∀ t ∈ [27500000, 27500001], decide (2500000 ≤ ochreQuiet (logging t)) = decide (t = 27500000)) ∧
    (∀ t ∈ [27500000, 27500001], (logging t).och.resendAt = some t ∧ decide (t + 2500000 ≤ (logging t).time.count) = decide (t = 27500000)) ∧
    (resendAsked (logging 0) (resendReq (fld base F.OCH_CFG_NODE)) = true ∧
      resendAsked (logging 0) (resendReq (fld base F.OCH_CFG_NODE + 1)) = false) ∧
    (resendFrom base 0 = [] ∧ resendFrom (logging 0) 0 = [record.entry]) := by decide +kernel

theorem witness_records_inv : Inv (logging 27500000) := inv_of (by decide +kernel)
/-! ## Witnesses: memories and engines -/

/-- The machine with a syndrome in the last word of the sweep scratch, n correctable errors in a bank of it, and a bank that had too
many before. -/
def scrubbed (w n : Nat) (f : FrameNo) : State :=
  { nearlyFull with mem := { base.mem with
      synd := [(0x8001FFFFF8 / 8, w)], ceCount := [(bankKey .sweepScratch 4095, n)], ceOver := [(bankKey .sweepScratch 4095, f)] } }

theorem witness_scrubber :
    (memAt 0x8001FFFFF8 = some .sweepScratch ∧ (memAt 0x8001FFFFF8 = some .hbm ↔ false = true) ∧
      ¬(memAt 0x8001FFFFF8 = some .hbm ↔ true = true) ∧ memAt 0x8002000000 = none) ∧
    decodeSyndrome (wordSynd base 0x8001FFFFF8) = .good ∧ decodeSyndrome (wordSynd (scrubbed 0x8F 16 0) 0x8001FFFFF8) = .single 63 ∧
    decodeSyndrome (wordSynd (scrubbed 3 16 0) 0x8001FFFFF8) = .mark ∧ decodeSyndrome (wordSynd (scrubbed 0xFF 16 0) 0x8001FFFFF8) = .bad ∧
    occCellOf (scrubbed 0xFF 16 0) 0x8001FFFFF8 = none ∧
    (∀ hbm : Bool, memAt (passEnd hbm) = (if hbm then some .hbm else some .wardenSram) ∧ passEnd hbm / 8 * 8 = passEnd hbm) := by decide +kernel

theorem witness_ce_window :
    tabGet 0 (scrubbed 7 16 0).mem.ceCount (bankKey .sweepScratch 4095) ≤ fld (scrubbed 7 16 0) F.MEM_CE_CFG_CE_TH ∧
    fld (scrubbed 7 17 0) F.MEM_CE_CFG_CE_TH < tabGet 0 (scrubbed 7 17 0).mem.ceCount (bankKey .sweepScratch 4095) ∧
    bankTile .sweepScratch 4095 = some 63 ∧ bankTile .hbm 0 = none ∧
    frameDist 4294966277 base.frame.num ≤ 1024 ∧ ¬frameDist 4294966276 base.frame.num ≤ 1024 := by decide +kernel

/-- The machine whose scrub passes began at a tick, told late or not. -/
def lagging (t : Tick) (told : Bool) : State := { nearlyFull with mem := { base.mem with scrub := [(t, told), (t, told)] } }

theorem witness_scrub_lag :
    ∃ k, k = 2 * scrubPeriod base false ∧ 1 ≤ k ∧ k < 30000000 ∧ scrubPeriod (lagging (30000000 - k) false) false = scrubPeriod base false ∧
      ¬(30000000 - k + 2 * scrubPeriod base false < (lagging (30000000 - k) false).time.count) ∧
      29999999 - k + 2 * scrubPeriod base false < (lagging (29999999 - k) false).time.count := ⟨_, rfl, by decide +kernel⟩

theorem witness_scrubber_inv : Inv (scrubbed 0xFF 17 0) ∧ Inv (lagging 0 false) ∧ running (scrubbed 0xFF 17 0) = true :=
  ⟨inv_of (by decide +kernel), inv_of (by decide +kernel), by decide⟩

/-- The machine with the region of the last long-operation context and a lease's scratch being wiped, a cancelled operation there, two
transfers at a port and one at another, and two engine contexts. -/
def wiping (r : WipeRegion) : State :=
  { nearlyFull with
    image := { Image.blank with opRegions := [(31, 0x1000, 64)], leaseRegions := [(0, 2047, 0x2000, 64)] }
    mem := { base.mem with wipes := [(r, 0)], dmaLast := [(2, 3)] }
    cnd := { base.cnd with
      leases := [⟨0, 2047, 75, 0, 0, true⟩, ⟨5, 31, 0x92, 0, 0, true⟩, ⟨1, 7, 63, 0, 0, false⟩, ⟨1, 3, 62, 0, 0, false⟩]
      grants := [⟨63, 0, 29990000, none, none, none, 0⟩]
      dma := [⟨2, 3, 1, 2⟩, ⟨2, 7, 4, 1⟩, ⟨5, 0, 0, 1⟩]
      crypto := [⟨1, 0, 0, 0, 0, 5000⟩], cryptoLast := 1, mapld := [⟨2, 0, 0, 0, 0, 100⟩], mapldLast := 2 } }

theorem witness_wipes :
    (∀ r ∈ [WipeRegion.longOp 31, .leaseScratch 0 2047], running (wiping r) = true ∧
      (wiping r).mem.wipes.find? (fun w => w.1 = r) = some (r, 0) ∧ (wiping r).mem.closed = [] ∧ (wiping r).mem.waiting = [] ∧
      (wipeRanges (wiping r) r).length = 1) ∧
    (wiping (.longOp 31)).mem.wipes.find? (fun w => w.1 = .longOp 30) = none := by decide +kernel

theorem witness_segments :
    Tab.wf 0 (wiping (.longOp 31)).mem.dmaLast ∧ (∃ x ∈ (wiping (.longOp 31)).cnd.dma, x.port ≠ 2 ∧ 0 < x.left) ∧
      channelHolder (wiping (.longOp 31)) 7 = some 63 ∧ channelHolder (wiping (.longOp 31)) 3 = some 62 ∧
      (∃ c ∈ (wiping (.longOp 31)).cnd.crypto, 0 < c.bytesLeft) := by decide +kernel

theorem witness_wipes_inv : Inv (wiping (.longOp 31)) := inv_of (by decide +kernel)

/-- A command of another unit goes on and may not change a kind of state. -/
theorem witness_each_kind (k : Kind) :
    (∃ t, exec .jtagBypass base = .next t) ∧ k.mayChange .jtagBypass = false := ⟨⟨_, rfl⟩, by cases k <;> decide⟩
/-! ## Witnesses: requests and long operations -/

/-- The machine in which the last client may send every kind of request at every port, k ticks after its edge. -/
def asked (k : Nat) : State := withFields [(F.CND_CLIENT_WORD 1023 0, 0x800005F8), (F.CND_CAND_CFG_SUPPLIED_EN, 1)] (past k)

/-- A request of the last client. -/
def req (sub : Nat) (arg : Word32) (n : Nat) : ReqUnit := ⟨1023, sub, 7, arg, true, List.replicate n cand⟩

theorem witness_requests :
    (fabricUp (asked 9) = true ∧ refusal (asked 9) .guidance 0 (req 64 0 64) 0 = none ∧ refusal (asked 9) .supervisor 1 (req 0 64 0) 0 = none ∧
      refusal (asked 9) .isobus 2 (req 16 255 16) 0 = none ∧ (req 16 255 16).sub ≠ 0) ∧
    (Port.guidance ≠ .supervisor ∧ refusal (asked 9) .guidance 0 (req 65 0 65) 0 = some 0x13) ∧
    (fabricUp base = true ∧ cliEn base 1023 = false ∧ refusal base .guidance 0 (req 64 0 64) 0 = some 0x10) ∧
    (refusal (asked 0) .supervisor 1 (req 0 64 0) 0 = none ∧ refusal (asked 1) .supervisor 1 (req 0 64 0) 0 = none ∧
      (asked 0).frame.started = true) := by decide +kernel

theorem witness_requests_at_the_edge :
    (asked 0).time.count = (asked 0).frame.edgeTick ∧ (asked 1).time.count ≠ (asked 1).frame.edgeTick ∧ (asked 0).wld.originGen = 0 := by decide

/-- A request of the last client that waits from the frame f on. -/
def pend (kind : Nat) (f : FrameNo) : PendReq := ⟨1023, kind, 7, 0, .guidance, [], none, 0, f, [], false, [], 5, false⟩

/-- The machine with a watch and a goal request that wait. -/
def waitingReqs (f : FrameNo) : State := { asked 9 with cnd := { (asked 9).cnd with reqs := [pend 2 f, pend 1 f] } }

theorem witness_waiting_requests :
    (fabricUp (waitingReqs 5) = true ∧ refusal (waitingReqs 5) .guidance 2 { req 0 0 0 with sub := 0, recs := [] } 0 = none ∧
      watchOf (waitingReqs 5) { req 0 0 0 with sub := 0, recs := [] } = some (pend 2 5)) ∧
    (∃ n, n = fld (waitingReqs 5) F.CND_SCHED_CFG_GOAL_WAIT ∧
      ∀ d ∈ [n, n - 1], (waitingReqs (5 - BitVec.ofNat 32 d)).cnd.reqs.find? (fun x => x.client = 1023 ∧ x.tag = 7 ∧ x.kind = 1 ∧ ¬ x.active ∧
        fld (waitingReqs 5) F.CND_SCHED_CFG_GOAL_WAIT ≤ frameDist x.first (waitingReqs 5).frame.num)
        = if d = n then some (pend 1 (5 - BitVec.ofNat 32 d)) else none) := ⟨by decide +kernel, _, rfl, by decide +kernel⟩

theorem witness_requests_inv : Inv (asked 0) ∧ Inv (waitingReqs 5) := ⟨inv_of (by decide +kernel), inv_of (by decide +kernel)⟩

/-- A long operation of the last client in the last context, of which so many units are done; its unit, if any, began at a tick. -/
def oper (st : OpState) (start : Option Tick) (units abandons : Nat) : LongOp :=
  ⟨31, 1023, 1, st, .guidance, 7, [], units, 0, [⟨4, true, 4, 9, []⟩], abandons, 0, start, start.isSome, none⟩

/-- The machine with that long operation. -/
def operating (o : LongOp) : State := { asked 9 with cnd := { base.cnd with ops := [o] } }

theorem witness_long_operation_commands :
    (refusal (asked 9) .guidance 3 { req 0 0x01000004 0 with sub := 0, recs := [] } 256 = none ∧
      (refusal (asked 9) .guidance 3 { req 0 0x01000004 0 with sub := 0, recs := [] } 0).isSome = true) ∧
    (∀ st ∈ [OpState.queued, .running], ∀ t ∈ [none, some 0], opOf (operating (oper st t 0 0)) (req 1 31 0) = some (oper st t 0 0) ∧
      refusal (operating (oper st t 0 0)) .guidance 3 { req 1 31 0 with sub := 1, recs := [] } 0 = none) ∧
    refusal (operating (oper .suspended none 0 0)) .guidance 3 { req 2 31 0 with sub := 2, recs := [] } 0 = none ∧
    refusal (operating (oper .suspended none 0 0)) .guidance 3 { req 3 31 0 with sub := 3, recs := [] } 0 = none ∧
    refusal (operating (oper .cancelling none 0 0)) .guidance 3 { req 4 31 0 with sub := 4, recs := [] } 0 = none ∧
    refusal (operating (oper .running none 0 0)) .guidance 3 { req 2 31 0 with sub := 2, recs := [] } 0 = some 0x17 := by decide +kernel

theorem witness_work_units :
    (∀ n ∈ [1, 2], fabricUp (operating (oper .running (some 0) 0 n)) = true ∧
      (operating (oper .running (some 0) 0 n)).cnd.ops.find? (fun o => o.ctx = (31 : Fin 32).val ∧ o.unitStart.isSome) =
        some (oper .running (some 0) 0 n) ∧ opFinal (oper .running (some 0) 0 n).state = false) ∧
      1 + 1 < fld (operating (oper .running (some 0) 0 1)) F.CND_SCHED_CFG_ABANDON_MAX ∧
      fld (operating (oper .running (some 0) 0 2)) F.CND_SCHED_CFG_ABANDON_MAX ≤ 2 + 1 ∧
      (∀ t ∈ [29950000, 29950001], (oper .running (some t) 0 0).unitStart.map (fun t => decide (t + 50000 ≤ base.time.count))
        = some (decide (t = 29950000))) ∧
      (oper .running none 0 0).unitStart = none ∧ (oper .suspending (some 0) 0 0).state ≠ .running := by decide +kernel

/-- A chunk of a map import that holds nothing. -/
def emptyChunk : PriorChunk := ⟨[], [], [], []⟩

theorem witness_work_unit_results :
    (∀ n ∈ [511, 512], importTooLarge (oper .running (some 0) n 0) (.mapChunk emptyChunk) = decide (n = 512)) ∧
      (unitEffect (oper .running (some 0) 0 0) false .sepia base).isNone = true ∧
      importTooLarge (oper .running (some 0) 512 0) .sepia = false ∧
      unitEffect (oper .running (some 0) 0 0) true .plain base = some base ∧
      unitEffect (oper .running (some 0) 0 0) false (.row 4 [9]) base = some base := ⟨by decide, rfl, by decide, rfl, rfl⟩

theorem witness_long_operations_inv : Inv (operating (oper .running (some 0) 0 2)) := inv_of (by decide +kernel)
/-! ## Witnesses: swaps -/

/-- An open swap of the subsystems of the mask. -/
def openSwap (mask : Nat) (o : SwapOrigin) : OpenSwap := ⟨mask, o, 4, 0, 0, none, false, false⟩

/-- A device on its own, or of a pair, with an open swap. -/
def swapping (p : PairState) (o : Option OpenSwap) : State :=
  { nearlyFull with
    image := { Image.blank with hostWriteMask := 0x1000 }, twin := { base.twin with pair := p }, swap := { base.swap with user := o } }

/-- A staged value of WDN_UMB_CFG that its range forbids. -/
def badlyStaged : State := setReg (swapping .solo (some (openSwap 0x0200 .core))) (F.WDN_UMB_CFG_DECEL.addr + 0x8000) 0

theorem witness_user_swaps :
    (fabricUp (swapping .solo none) = true ∧ (swapping .solo none).swap.user = none ∧
      0x1000 &&& (swapping .solo none).image.hostWriteMask = 0x1000 ∧ 0x1800 &&& (swapping .solo none).image.hostWriteMask ≠ 0x1800 ∧
      Requester.jtag ≠ .warden ∧ Requester.jtag ≠ .host) ∧
    ((openSwap 0x1800 .core).committed = false ∧ (openSwap 0x1800 .core).origin ≠ .twin) ∧
    ({ openSwap 0x1800 .core with committed := true }.committed = true) ∧
    ((openSwap 0x1800 .core).mask.testBit 12 = true ∧ (openSwap 0x1800 .core).staged.testBit 12 = false ∧
      (openSwap 0x1800 .core).agreed = false ∧ stageReason (swapping .solo (some (openSwap 0x1800 .core))) 0x1800 12 = 0 ∧
      (openSwap 0x1800 .core).staged ||| 2 ^ 12 ≠ 0x1800) := by decide +kernel

theorem witness_stage_reports :
    ((openSwap 0x1000 .host).staged ||| 2 ^ 12 = 0x1000 ∧ stageReason (swapping .solo (some (openSwap 0x1000 .host))) 0x1000 12 = 0 ∧
      (openSwap 0x1000 .host).origin ≠ .twin ∧ (swapping .solo (some (openSwap 0x1000 .host))).twin.pair = .solo ∧
      (openSwap 0x1000 .host).target = 0 ∧ (journalAfter 0x1000 (swapping .solo (some (openSwap 0x1000 .host)))).length ≤ 32768) ∧
    (fabricUp badlyStaged = true ∧ badlyStaged.swap.user = some (openSwap 0x0200 .core) ∧ stageReason badlyStaged 0x0200 9 ≠ 0 ∧
      (openSwap 0x0200 .core).mask.testBit 9 = true) ∧
    (fld (swapping .solo none) F.CND_SWAP_LIMIT_STAGE_LIMIT ≤ frameDist 4294967045 (swapping .solo none).frame.num) ∧
    frameDist 4294967046 (swapping .solo none).frame.num < fld (swapping .solo none) F.CND_SWAP_LIMIT_STAGE_LIMIT := by decide +kernel

/-- A device of a pair that has staged grants of shared units in an open swap with a TARGET. -/
def granting (p : PairState) (target : Nat) : State :=
  { swapping p (some { openSwap 0x1000 .core with target := target }) with swap := { (swapping p none).swap with
      user := some { openSwap 0x1000 .core with target := target }, grantsStaged := some [(0, 0)] } }

theorem witness_staging_ends :
    (∀ p ∈ [PairState.pairedA, .pairedB], paired (granting p 0) = true ∧ deviceLocalSwap (granting p 0) 0x1000 = false ∧
      (journalAfter 0x1000 (granting p 0)).length ≤ 32768) ∧
    paired (granting .solo 7) = false ∧ frameGe (BitVec.ofNat 32 7) ((granting .solo 7).frame.num + 2) = true ∧
    frameGe (BitVec.ofNat 32 6) ((granting .solo 6).frame.num + 2) = false := by decide +kernel

theorem witness_swaps_inv : Inv (swapping .solo (some (openSwap 0x1000 .host))) ∧ Inv badlyStaged ∧ Inv (granting .pairedA 0) :=
  ⟨inv_of (by decide +kernel), inv_of (by decide +kernel), inv_of (by decide +kernel)⟩

/-- A proposal of the pair, of values or of a re-centring, with its digest or another. -/
noncomputable def proposal (good : Bool) (shift : Option (Int × Int)) : ProposeMsg :=
  let d := stagedDigest [⟨F.IND_CFG_IGN_HOLD.addr, 1⟩] ⟨[], none, false⟩ shift
  ⟨7, 0x1FFF, [⟨F.IND_CFG_IGN_HOLD.addr, 1⟩], ⟨[], none, false⟩, if good then d else d + 1, shift⟩

theorem witness_pair_swap_proposals :
    (fabricUp (swapping .pairedB none) = true ∧ (swapping .pairedB none).twin.pair = .pairedB ∧ (swapping .pairedB none).swap.user = none ∧
      (swapping .pairedB (some (openSwap 1 .core))).swap.user.isSome = true ∧ (swapping .pairedA none).twin.pair ≠ .pairedB) ∧
    (∀ shift, (proposal true shift).digest = stagedDigest (proposal true shift).vals (proposal true shift).tables (proposal true shift).recentre ∧
      (proposal true shift).recentre = shift ∧
      (proposal false shift).digest ≠ stagedDigest (proposal false shift).vals (proposal false shift).tables (proposal false shift).recentre) ∧
    (stagedReg (F.VBS_GUID_CFG_GID_BASE.addr + 0x8000)).isSome = true := by
  refine ⟨by decide, fun shift => ⟨rfl, rfl, ?_⟩, by decide +kernel⟩
  exact fun h => absurd (BitVec.add_right_eq_self.mp h) (by decide)

/-- A swap of the pair, with its edge named. -/
def pairSwap (o : SwapOrigin) (e : FrameNo) : OpenSwap := { openSwap 0x1000 o with edge := some e, staged := 0x1000 }

/-- A re-centring, with its edge named. -/
def recentring (e : FrameNo) (twin : Bool) : RecSwap := ⟨8, -8, 4, some e, true, false, twin⟩

theorem witness_pair_swap_answers :
    (fabricUp (swapping .pairedA (some (pairSwap .core 8))) = true ∧ (swapping .pairedA (some (pairSwap .core 8))).twin.pair = .pairedA ∧
      (pairSwap .core 8).origin ≠ .twin ∧ (pairSwap .core 8).edge = some 8 ∧
      frameGe (swapping .pairedA (some (pairSwap .core 8))).frame.num (8 - 2) = false) ∧
    frameGe (swapping .pairedA (some (pairSwap .core 7))).frame.num (7 - 2) = true ∧
    ((pairSwap .twin 6).origin = .twin ∧ (pairSwap .twin 6).staged = (pairSwap .twin 6).mask ∧ (pairSwap .twin 6).edge = some 6 ∧
      frameGe (swapping .pairedB (some (pairSwap .twin 6))).frame.num 6 = false ∧
      frameGe (swapping .pairedB (some (pairSwap .twin 5))).frame.num 5 = true) ∧ (pairSwap .core 6).agreed = false ∧
    (∀ t : Bool, (recentring 8 t).edge = some 8 ∧ (recentring 8 t).twin = t ∧ (recentring 8 t).agreed = false) := by decide

/-! ## Witnesses: the pair -/

/-- A public key of the tests. -/
def pubKey : List Byte := List.replicate 96 1

/-- A device in a pair state with the link and the session as given, at the position B or not; the twin's key, and no other of the tests,
is on the roster. -/
noncomputable def twin (p : PairState) (link session posB : Bool) : State :=
  { nearlyFull with
    image := { Image.blank with pairRoster := [Config.sha3 pubKey] }
    boot := { base.boot with pos := if posB then 1 else 0 }
    twin := { base.twin with pair := p, linkUp := link, session := session, primary := !posB, adopted := true, rxCtr := [7, 8, 9] } }

/-- A link frame with its CRC: the body. -/
def linkFrame (seq : BitVec 16) (body : List Byte) : LinkFrame :=
  ⟨seq, body, BitVec.ofNat 32 (crc32 (leBytes 2 seq.toNat ++ body))⟩

/-- A message of the last channel with a CTR, of no payload. -/
def message (ctr : Nat) : List Byte := leBytes 1 2 ++ leBytes 1 3 ++ leBytes 2 0 ++ leBytes 8 ctr ++ List.replicate 16 0

/-- The link down, and with no session, of a forming device and of a formed one. -/
theorem witness_woad_link :
    (running (twin .forming true true false) = true ∧ (twin .forming true true false).twin.linkUp = true ∧
      (twin .forming true true false).log.queue.length < 256 ∧ (twin .forming false true false).twin.linkUp = false) ∧
    ((linkFrame 1 []).seq ≠ (twin .forming true true false).twin.rxSeq ∧ linkCrcOk (linkFrame 1 []) = true ∧
      linkCrcOk { linkFrame 0 [] with crc := 1 } = false) ∧
    (linkCrcOk (linkFrame 0 []) = true ∧ (linkFrame 0 []).seq = (twin .forming true true false).twin.rxSeq ∧ (linkFrame 0 []).body = []) ∧
    (∀ n ∈ [9, 10, 11], linkCrcOk (linkFrame 0 (message n)) = true ∧ (linkFrame 0 (message n)).body ≠ [] ∧
      fieldAt 0 1 (message n) = 2 ∧ fieldAt 4 8 (message n) = n ∧ (message n).length = 28 + fieldAt 2 2 (message n)) := by
  decide +kernel

/-- A message opens under the session's keys where its tag verifies, and none opens without a session. -/
theorem witness_woad_tags :
    (∀ n, openWoad (message n) (twin .forming true false false) = none) ∧
    (∀ x, Config.gcmOpen ((woadKey [] 2 1).take 32) ((woadKey [] 2 1).drop 32 ++ part 4 8 (message 10)) ((message 10).take 12) ((message 10).drop 12)
      = some x → openWoad (message 10) (twin .forming true true false) = some x) := by
  constructor
  · intro n
    rfl
  · intro x hx
    exact hx

theorem witness_woad_inv : Inv (twin .forming true true false) := inv_of (by decide +kernel)
theorem witness_hellos :
    (seeksTwin (twin .forming true true true) = true ∧ (twin .forming true true true).twin.hello = none ∧
      (twin .forming true true true).twin.linkUp = true ∧ (twin .forming true true true).twin.nonce = none) ∧
    seeksTwin (twin .solo true true true) = false ∧
    (∀ p ∈ [PairState.forming, .degradedB], seeksTwin (twin p true true true) = true ∧ paired (twin p true true true) = false ∧
      joinBarred (twin p true true true) = false ∧ (twin p true true true).fuse.keyDestroyed = false ∧
      (⟨true, pubKey, [], 0⟩ : HelloMsg).posB = strapB (twin p true true true) ∧
      (⟨false, pubKey, [], 0⟩ : HelloMsg).posB ≠ strapB (twin p true true true)) ∧
    paired (twin .pairedA true true false) = true := by decide

/-- R441: a key whose digest is on the roster, and one whose digest is not. -/
theorem witness_roster :
    Config.sha3 (⟨false, pubKey, [], 0⟩ : HelloMsg).pub ∈ (twin .forming true true true).image.pairRoster ∧
      ∀ pub, Config.sha3 pub ≠ Config.sha3 pubKey → Config.sha3 pub ∉ (twin .forming true true true).image.pairRoster :=
  ⟨List.mem_cons_self, fun _ h hm => h (List.mem_singleton.mp hm)⟩

/-- The machine with a wiped device key. -/
theorem witness_hello_without_a_key :
    seeksTwin { twin .forming true true true with fuse := { base.fuse with keyDestroyed := true } } = true := by decide

theorem witness_configs :
    (seeksTwin (twin .forming true true false) = true ∧ (twin .forming true true false).twin.session = true ∧
      paired (twin .forming true true false) = false ∧ servesJoin (twin .forming true true false) = false ∧
      (twin .forming true true false).twin.pair = .forming) ∧
    (servesJoin (twin .degradedA true true false) = true ∧ servesJoin (twin .acting true true true) = true ∧
      servesJoin (twin .acting true true false) = false ∧ servesJoin (twin .monitor true true true) = false) ∧
    (∀ c : ConfigMsg, c.image + 1 ≠ c.image ∧ c.fw + 1 ≠ c.fw ∧ c.lc + 1 ≠ c.lc) := by
  refine ⟨by decide, by decide, fun c => ⟨fun h => ?_, fun h => ?_, by omega⟩⟩ <;>
    exact absurd (BitVec.add_right_eq_self.mp h) (by decide)

/-- A forming device that started at a tick and has heard its twin or not; B that acts alone, or not. -/
noncomputable def starting (t : Tick) (heard : Bool) (alone : Nat) : State :=
  withFields [(F.WOD_PAIR_CFG_B_ALONE, alone)] { twin .forming true false true with
    och := { base.och with startedAt := t }
    twin := { (twin .forming true false true).twin with hello := if heard then some ⟨false, pubKey, [], 0⟩ else none } }

theorem witness_pair_wait :
    (∀ h : Bool, running (starting 10000000 h 0) = true ∧ (starting 10000000 h 0).twin.pair = .forming ∧
      (starting 10000000 h 0).twin.hello.isSome = h ∧
      (starting 10000000 h 0).och.startedAt + 20000000 ≤ (starting 10000000 h 0).time.count ∧
      ¬(starting 10000001 h 0).och.startedAt + 20000000 ≤ (starting 10000001 h 0).time.count) ∧
    ∀ b ∈ [0, 1], (strapB (starting 10000000 false b) && flag (starting 10000000 false b) F.WOD_PAIR_CFG_B_ALONE) = decide (b = 1) := by
  decide +kernel

/-- A device that joins as the follower. -/
noncomputable def joining : State :=
  { twin .degradedB true true true with twin := { (twin .degradedB true true true).twin with joining := true } }

theorem witness_pair_journal :
    running joining = true ∧ joining.twin.joining = true ∧ joining.twin.primary = false ∧ (twin .degradedB true true true).twin.joining = false := by
  decide

theorem witness_pairs_form_inv :
    Inv (twin .forming true true true) ∧ Inv (twin .degradedB true true true) ∧ Inv (starting 10000000 false 1) ∧ Inv joining :=
  ⟨inv_of (by decide +kernel), inv_of (by decide +kernel), inv_of (by decide +kernel), inv_of (by decide +kernel)⟩

/-- A device whose own digests of the frame 4 are known, with items that mismatched before. -/
noncomputable def digested (p : PairState) (j : Bool) : State :=
  { twin p true true true with
    twin := { (twin p true true true).twin with joining := j, ownDigests := some (4, [1, 2]), mism := [1], ofs := 0 } }

/-- The clauses on the twin's edge: an edge 500, 501, 5,000 and 5,001 ticks away. -/
theorem witness_pair_time_and_digests :
    (running (digested .pairedB false) = true ∧ follows (digested .pairedB false) = true ∧ (digested .pairedB false).twin.linkUp = true ∧
      (digested .pairedB false).twin.session = true ∧ (digested .pairedB false).twin.pair = .pairedB) ∧
    (follows (twin .pairedA true true false) = false ∧ follows (twin .pairedB false true true) = true ∧
      (twin .pairedB false true true).twin.linkUp = false ∧ (twin .pairedB true false true).twin.session = false) ∧
    ((digested .pairedB false).twin.adopted = true ∧ (digested .pairedB false).frame.num = 5 ∧ (digested .pairedB false).twin.excursion = false ∧
      (∀ k ∈ [500, 501, 5000, 5001],
        decide (500 < (Int.ofNat (digested .pairedB false).frame.edgeTick + (digested .pairedB false).twin.ofs - Int.ofNat (29990000 - k)).natAbs)
          = decide (k ≠ 500) ∧
        decide (5000 < (Int.ofNat (digested .pairedB false).frame.edgeTick + (digested .pairedB false).twin.ofs - Int.ofNat (29990000 - k)).natAbs)
          = decide (k = 5001))) ∧
    ((digested .pairedB true).twin.joining = true ∧ (digested .pairedB true).twin.ownDigests = some (4, [1, 2]) ∧
      differing [1, 2] [1, 2] = [] ∧ differing [1, 2] [1, 3] = [1] ∧ (1 ∈ (digested .pairedB false).twin.mism) ∧
      differing [1, 2] [3, 2] = [0] ∧ 0 ∉ (digested .pairedB false).twin.mism ∧ (digested .pairedB false).twin.joining = false ∧
      (differing (List.replicate 10 0) (List.replicate 7 0 ++ [1, 0, 0]) = [7]) ∧ (digested .pairedA false).twin.pair ≠ .pairedB ∧
      base.twin.ownDigests = none) := by decide +kernel

theorem witness_pair_time_inv : Inv (digested .pairedB false) ∧ Inv (digested .pairedB true) :=
  ⟨inv_of (by decide +kernel), inv_of (by decide +kernel)⟩
/-- A twin's offer for the frame 5. -/
def offer : Offer :=
  { frame := 5, edgeTick := 29990000, age := 0, cost := 0, clearance := 0, originGen := 0, record := some (.candidate 0 cand),
    restart := false, doubt := 0, audit := 0, edgeState := Pose.zero }

/-- A device with the twin's offer and its own in hand, over the layers given. -/
noncomputable def offered (p : PairState) (ls : List (Nat × Layer)) (session : Bool) : State :=
  { twin p true session false with
    held := { base.held with layers := ls }
    twin := { (twin p true session false).twin with offerIn := some offer, offerOut := some offer, offerVerdict := some (4, true) } }

theorem witness_offers :
    (running (offered .pairedA [] true) = true ∧ (offered .pairedA [] true).twin.session = true ∧ transmits (offered .pairedA [] true) = true ∧
      (offered .pairedA [] false).twin.session = false ∧ (0 : Fin 4).val ≤ 1 ∧ (1 : Fin 4).val = 1 ∧ 1 < (2 : Fin 4).val) ∧
    (transmits (offered .pairedB [] true) = false ∧ (offered .pairedB [] true).twin.offerIn = some offer ∧ offer.frame = 5 ∧
      (offered .pairedB [] true).twin.offerOut = some offer ∧ offer.record.isSome = true ∧ offer.frame ≠ 6) ∧
    (fabricUp (offered .pairedA [] true) = true ∧ (offered .pairedA [] true).frame.started = true ∧
      (offered .pairedA [] true).frame.stopped.getD 4 false = false ∧
      (offered .pairedA [] true).mad.subject = none ∧ offer.frame = (offered .pairedA [] true).frame.num ∧
      (4 : FrameNo) ≠ (offered .pairedA [] true).frame.num ∧
      madderFails (offered .pairedA [] true) (.candidate 0 cand) (ctxKeepOut (offered .pairedA [] true) (recCand (.candidate 0 cand)).client)
        offer.edgeState ≠ []) ∧ base.twin.offerIn = none ∧ base.mad.verdictOwn ≠ some true := by decide +kernel

theorem witness_offer_passes :
    madderFails (offered .pairedA [(0, bare)] true) (.candidate 0 cand)
      (ctxKeepOut (offered .pairedA [(0, bare)] true) (recCand (.candidate 0 cand)).client) offer.edgeState = [] :=
  madderFails_still rfl (by decide +kernel)

theorem witness_offers_inv : Inv (offered .pairedA [(0, bare)] true) ∧ emitReady readyToEmit = true ∧ emitReady base = false ∧ Inv readyToEmit :=
  ⟨inv_of (by decide +kernel), by decide +kernel, by decide +kernel, inv_of (by decide +kernel)⟩

/-- R455: a device with rejections of the twin in the last 64 frames. -/
def rejected (n : Nat) : State := { base with twin := { base.twin with pair := .pairedA, rejects := List.replicate n 4294967238 } }

theorem witness_rejections :
    ∃ m, m + 1 = fld (rejected 0) F.WOD_PAIR_CFG_XDIS_MAX ∧ ∀ n ∈ [m, m - 1],
      decide (fld (rejected n) F.WOD_PAIR_CFG_XDIS_MAX ≤
        ((((rejected n).frame.num :: (rejected n).twin.rejects).filter fun f => frameDist f (rejected n).frame.num < 64)).length)
          = decide (n = m) := ⟨fld (rejected 0) F.WOD_PAIR_CFG_XDIS_MAX - 1, by decide +kernel⟩

/-- A device with counts of late and clear frames and of frames with the link down, k ticks after its edge, its bundle formed. -/
noncomputable def degrading (p : PairState) (link : Bool) (k down late clear : Nat) : State :=
  withFields [(F.VBS_GUID_CFG_TX_INT, 1)]
    { twin p link true true with
      frame := { (past k).frame with out := some ⟨.stop, 0, false, 0, 0, 0, 0, 0, 0, [], []⟩ }
      twin := { (twin p link true true).twin with downFrames := down, xlateRun := late, clearRun := clear } }

theorem witness_takeover :
    (running (degrading .pairedB true 0 0 0 0) = true ∧ (degrading .pairedB true 0 0 0 0).twin.pair = .pairedB ∧
      (degrading .pairedB true 0 0 0 0).log.queue.length < 256 ∧
      txFrame (degrading .pairedB true 0 0 0 0) (silenceFrame (degrading .pairedB true 0 0 0 0)) = true ∧
      (degrading .pairedB true 0 0 0 0).twin.bundleSeen = false) ∧ (degrading .pairedA true 0 0 0 0).twin.pair ≠ .pairedB ∧
    ((degrading .pairedB true 24999 0 0 0).frame.out.isSome = true ∧ (degrading .pairedB true 24999 0 0 0).replay.active = false ∧
      txFrame (degrading .pairedB true 24999 0 0 0) (degrading .pairedB true 24999 0 0 0).frame.num = true ∧
      (degrading .pairedB true 24999 0 0 0).time.count <
        (degrading .pairedB true 24999 0 0 0).frame.edgeTick + hardStop (degrading .pairedB true 24999 0 0 0) 5) := by decide +kernel

theorem witness_degradation :
    (∃ n, n = fld (degrading .pairedB false 0 0 0 0) F.WOD_PAIR_CFG_ELIG_HOLD ∧ 1 ≤ n ∧ paired (degrading .pairedB false 0 n 0 0) = true ∧
      (degrading .pairedB false 0 n 0 0).twin.linkUp = false ∧
      fld (degrading .pairedB false 0 n 0 0) F.WOD_PAIR_CFG_ELIG_HOLD ≤ (degrading .pairedB false 0 n 0 0).twin.downFrames ∧
      ¬fld (degrading .pairedB false 0 (n - 1) 0 0) F.WOD_PAIR_CFG_ELIG_HOLD ≤ (degrading .pairedB false 0 (n - 1) 0 0).twin.downFrames) ∧
    (∃ n, n = fld (degrading .pairedA true 0 0 0 0) F.WOD_PAIR_CFG_XLATE_MAX ∧ 1 ≤ n ∧
      fld (degrading .pairedA true 0 0 n 0) F.WOD_PAIR_CFG_XLATE_MAX ≤ (degrading .pairedA true 0 0 n 0).twin.xlateRun ∧
      ¬fld (degrading .pairedA true 0 0 (n - 1) 0) F.WOD_PAIR_CFG_XLATE_MAX ≤ (degrading .pairedA true 0 0 (n - 1) 0).twin.xlateRun) ∧
    ((degrading .degradedA true 0 0 0 1024).twin.pair = .degradedA ∧ joinBarred (degrading .degradedA true 0 0 0 1024) = false ∧
      1024 ≤ (degrading .degradedA true 0 0 0 1024).twin.clearRun ∧ ¬1024 ≤ (degrading .degradedA true 0 0 0 1023).twin.clearRun) :=
  ⟨⟨_, rfl, by decide +kernel⟩, ⟨_, rfl, by decide +kernel⟩, by decide +kernel⟩

theorem witness_takeover_inv : Inv (degrading .pairedB true 24999 0 0 0) ∧ Inv (degrading .degradedA true 0 0 0 1024) :=
  ⟨inv_of (by decide +kernel), inv_of (by decide +kernel)⟩
/-! ## Witnesses: security -/

theorem witness_jtag :
    (inLc 3 base).fuse.lc ≠ 4 ∧ (inLc 3 base).fuse.lc ≠ 2 ∧ (inLc 4 base).fuse.lc = 4 ∧ (inLc 2 base).fuse.lc = 2 := by decide

/-- The owner's key of the tests. -/
def ownerKey : List Byte := List.replicate 96 0

/-- A token of the owner for a state of the life cycle, with a nonce, and nothing else in it. -/
def ownerToken (target nonce : Nat) : List Byte :=
  leBytes 4 target ++ List.replicate 16 0 ++ leBytes 4 nonce ++ List.replicate 232 0

/-- A machine in life cycle n whose check of tokens is in a state, with the owner's token for a target. -/
noncomputable def checking (n state target nonce : Nat) : State :=
  withFields [(F.SUP_LC_STAT_STATE, state)] { inLc n nearlyFull with
    fuse := { (inLc n base).fuse with ownerSet := true, ownerDigest := Config.sha3 ownerKey }
    sec := { base.sec with tokens := ownerToken target nonce ++ ownerToken 3 0 } }

theorem witness_tokens :
    (running (checking 1 1 2 0) = true ∧ reachesSup (checking 1 1 2 0) .jtag = true ∧ reachesSup (checking 2 1 2 0) .jtag = false ∧
      fld (checking 1 0 2 0) F.SUP_LC_STAT_STATE ≠ 1 ∧ fld (checking 1 1 2 0) F.SUP_LC_STAT_STATE = 1) ∧
    tokenReason (checking 1 1 2 1) (firstToken (checking 1 1 2 1)) (secondToken (checking 1 1 2 1)) = some 3 ∧
    tokenReason (checking 4 1 2 0) (firstToken (checking 4 1 2 0)) (secondToken (checking 4 1 2 0)) = some 1 := by
  refine ⟨by decide +kernel, by decide +kernel, by decide +kernel⟩

/-- An owner's token whose signature verifies is accepted: one of a transition to FIELD or to SCRAPPED, and one that clears the latch. -/
theorem witness_accepted_tokens (h : Config.ecdsaOk ownerKey ((ownerToken 2 0).take 160) ((ownerToken 2 0).drop 160) = true)
    (h4 : Config.ecdsaOk ownerKey ((ownerToken 4 0).take 160) ((ownerToken 4 0).drop 160) = true) :
    (tokenReason (checking 1 1 2 0) (firstToken (checking 1 1 2 0)) (secondToken (checking 1 1 2 0)) = none ∧
      latchClear (checking 1 1 2 0) (firstToken (checking 1 1 2 0)) = false ∧ (firstToken (checking 1 1 2 0)).target = 2) ∧
    (tokenReason (checking 2 1 4 0) (firstToken (checking 2 1 4 0)) (secondToken (checking 2 1 4 0)) = none ∧
      latchClear (checking 2 1 4 0) (firstToken (checking 2 1 4 0)) = false ∧ (firstToken (checking 2 1 4 0)).target = 4) ∧
    (tokenReason (checking 2 1 2 0) (firstToken (checking 2 1 2 0)) (secondToken (checking 2 1 2 0)) = none ∧
      latchClear (checking 2 1 2 0) (firstToken (checking 2 1 2 0)) = true) := by
  have e2 : tokenOf (ownerToken 2 0) = ⟨2, 0, 0, 0, ownerKey, (ownerToken 2 0).take 160, (ownerToken 2 0).drop 160⟩ := by
    decide +kernel
  have e4 : tokenOf (ownerToken 4 0) = ⟨4, 0, 0, 0, ownerKey, (ownerToken 4 0).take 160, (ownerToken 4 0).drop 160⟩ := by
    decide +kernel
  have f : ∀ n t, firstToken (checking n 1 t 0) = tokenOf ((ownerToken t 0 ++ ownerToken 3 0).take 256) := fun _ _ => rfl
  have g2 : (ownerToken 2 0 ++ ownerToken 3 0).take 256 = ownerToken 2 0 := by decide +kernel
  have g4 : (ownerToken 4 0 ++ ownerToken 3 0).take 256 = ownerToken 4 0 := by decide +kernel
  have n : ∀ n ∈ [1, 2], ∀ t ∈ [2, 4], fld (checking n 1 t 0) F.SUP_LC_NONCE_NONCE = 0 ∧ atRestNow (checking n 1 t 0) = true ∧
      (checking n 1 t 0).fuse.deviceId.toNat = 0 ∧ (checking n 1 t 0).fuse.lc = n ∧ (checking n 1 t 0).fuse.ownerSet = true := by decide +kernel
  have d : ∀ n t, (checking n 1 t 0).fuse.ownerDigest = Config.sha3 ownerKey := fun _ _ => rfl
  have ok : ∀ n ∈ [1, 2], ∀ t ∈ [2, 4], ∀ k : Token, k.signer = 0 → k.deviceId = 0 → k.nonce = 0 → k.key = ownerKey →
      Config.ecdsaOk k.key k.body k.sig = true → tokenFault (checking n 1 t 0) k = none := by
    intro a ha b hb k h1 h2 h3 h5 h6
    obtain ⟨n1, -, n3, -, n5⟩ := n a ha b hb
    rw [h5] at h6
    rw [tokenFault, n3, n1]
    simp [h1, h2, h3, tokenSigned, h6, n5, d, h5]
  refine ⟨⟨?_, ?_, ?_⟩, ⟨?_, ?_, ?_⟩, ?_, ?_⟩
  · rw [f, g2, e2, tokenReason, ok 1 (by decide) 2 (by decide) _ rfl rfl rfl rfl h]
    simp [latchClear, lcAllowed, n 1 (by decide) 2 (by decide), secondFault]
  · rw [f, g2, e2]; simp [latchClear, n 1 (by decide) 2 (by decide)]
  · rw [f, g2, e2]
  · rw [f, g4, e4, tokenReason, ok 2 (by decide) 4 (by decide) _ rfl rfl rfl rfl h4]
    simp [latchClear, lcAllowed, n 2 (by decide) 4 (by decide), secondFault]
  · rw [f, g4, e4]; simp [latchClear, n 2 (by decide) 4 (by decide)]
  · rw [f, g4, e4]
  · rw [f, g2, e2, tokenReason, ok 2 (by decide) 2 (by decide) _ rfl rfl rfl rfl h]
    simp [latchClear, lcAllowed, n 2 (by decide) 2 (by decide), secondFault]
  · rw [f, g2, e2]; simp [latchClear, n 2 (by decide) 2 (by decide)]

theorem witness_tokens_inv : Inv (checking 1 1 2 0) ∧ Inv (checking 2 1 4 0) ∧ Inv (checking 1 0 2 0) :=
  ⟨inv_of (by decide +kernel), inv_of (by decide +kernel), inv_of (by decide +kernel)⟩

/-- A key-setup request of the last client for a slot. -/
def kxReq (slot : Nat) : List Byte := leBytes 1 slot ++ leBytes 1 0 ++ leBytes 2 1023 ++ List.replicate 276 0

/-- A machine whose last client has slot 254, with a key setup for a slot in a state, tamper comparators 0 and 3 enabled, and
TAMPER_HALT. -/
def keyed (state slot halt fails : Nat) : State :=
  withFields [(F.CND_CLIENT_WORD 1023 0, 0x8000FE00), (F.SUP_KX_STAT_STATE, state), (F.WDN_SEC_CFG_TAMPER_EN, 9),
      (F.WDN_SEC_CFG_TAMPER_HALT, halt)]
    { nearlyFull with
      image := { Image.blank with hostRoster := [some ownerKey] }, ind := { base.ind with meshFails := fails }
      sec := { base.sec with kxReq := kxReq slot } }

theorem witness_keys :
    (running (keyed 0 254 0 0) = true ∧ reachesSup (keyed 0 254 0 0) .host = true ∧ reachesSup (inLc 4 base) .host = false ∧
      fld (keyed 0 254 0 0) F.SUP_KX_STAT_STATE ≠ 1 ∧ fld (keyed 1 254 0 0) F.SUP_KX_STAT_STATE = 1) ∧
    kxReason (keyed 1 253 0 0) (kxOf (keyed 1 253 0 0).sec.kxReq) = some 1 ∧ (keyed 1 254 0 0).sec.out = [] := by decide +kernel

/-- A request whose signature verifies is not refused. -/
theorem witness_accepted_key (h : Config.ecdsaOk ownerKey ((kxReq 254).take 184) ((kxReq 254).drop 184) = true) :
    kxReason (keyed 1 254 0 0) (kxOf (keyed 1 254 0 0).sec.kxReq) = none := by
  have e : kxOf (keyed 1 254 0 0).sec.kxReq =
      ⟨254, 0, 1023, ownerKey, List.replicate 32 0, 0, (kxReq 254).take 184, (kxReq 254).drop 184⟩ := by decide +kernel
  have r : (keyed 1 254 0 0).image.hostRoster[0]? = some (some ownerKey) := by decide +kernel
  have c : cliSlot (keyed 1 254 0 0) 1023 = 254 ∧ cliEn (keyed 1 254 0 0) 1023 = true ∧ (keyed 1 254 0 0).image.prot.val % 2 = 0 ∧
      (keyed 1 254 0 0).sec.kxTamper = false := by decide +kernel
  rw [e, kxReason]
  simp [c, rosterSigned, r, h]

theorem witness_tamper :
    (∀ h ∈ [0, 1], maskBit (keyed 0 254 h 0) F.WDN_SEC_CFG_TAMPER_EN 3 = true ∧ coreApplied (keyed 0 254 h 0) = true ∧
      flag (keyed 0 254 h 0) F.WDN_SEC_CFG_TAMPER_HALT = decide (h = 1)) ∧
    maskBit (keyed 0 254 0 0) F.WDN_SEC_CFG_TAMPER_EN 2 = false ∧
    (coreApplied { keyed 0 254 0 1 with pwr := { base.pwr with phase := .asleep } } = false ∧ (3 : Fin 4).val ≠ 2 ∧
      (keyed 0 254 0 0).ind.powered = true) ∧
    (maskBit (keyed 0 254 0 0) F.WDN_SEC_CFG_TAMPER_EN 0 = true ∧ (keyed 0 254 0 0).ind.meshFails = 0 ∧ 1 ≤ (keyed 0 254 0 1).ind.meshFails) := by
  decide +kernel

theorem witness_keys_inv : Inv (keyed 0 254 0 0) ∧ Inv (keyed 1 254 0 0) ∧ Inv (keyed 0 254 1 1) :=
  ⟨inv_of (by decide +kernel), inv_of (by decide +kernel), inv_of (by decide +kernel)⟩

/-- A machine with rings of four entries, a key slot 0 at counter 5 with 15 failures of late, a descriptor of a slot and completions that
wait. -/
def ringed (en tail ack slot : Nat) (waits : Bool) : State :=
  withFields [(F.SUP_CMD_CTL_EN, en), (F.SUP_CMD_CTL_SIZE, 4), (F.SUP_CMD_TAIL_TAIL, tail), (F.SUP_CMP_HEAD_HEAD, 3), (F.SUP_CMP_HEAD_ACK, ack)]
    { nearlyFull with sec := { base.sec with
        slots := [⟨0, 1023, [], 5, 0, List.replicate 15 29000000, []⟩], cmds := [⟨0, slot, 33⟩]
        compls := if waits then [⟨0, 0, 0, 0, 0⟩] else [] } }

/-- A descriptor of a slot with a length and a kind. -/
def descriptor (slot len kind : Nat) : BitVec 128 := BitVec.ofNat 128 (64 + len * 2 ^ 64 + slot * 2 ^ 80 + kind * 2 ^ 88)

/-- A message of the host in slot 0 with a counter, of one byte. -/
def hostMsg (ctr more : Nat) : List Byte :=
  leBytes 1 0 ++ leBytes 1 0 ++ leBytes 2 1 ++ leBytes 4 more ++ leBytes 8 ctr ++ List.replicate 17 0

theorem witness_doorbells :
    (running (ringed 0 0 0 0 true) = true ∧ reachesSup (ringed 0 0 0 0 true) .host = true ∧ reachesSup (ringed 0 0 0 0 true) (.steward 0) = false ∧
      flag (ringed 0 0 0 0 true) F.SUP_CMD_CTL_EN = false) ∧
    (flag (ringed 1 3 0 0 true) F.SUP_CMD_CTL_EN = true ∧ 1 < fld (ringed 1 3 0 0 true) F.SUP_CMD_CTL_SIZE ∧
      fld (ringed 1 3 0 0 true) F.SUP_CMD_TAIL_TAIL < fld (ringed 1 3 0 0 true) F.SUP_CMD_CTL_SIZE ∧
      (0 : BitVec 12).toNat = (fld (ringed 1 3 0 0 true) F.SUP_CMD_TAIL_TAIL + 1) % fld (ringed 1 3 0 0 true) F.SUP_CMD_CTL_SIZE ∧
      (ringed 1 3 0 0 true).sec.out = []) ∧
    (∀ x ∈ [(33, 0), (4128, 1)], descOk (cmdDescOf (descriptor 0 x.1 x.2)) = true ∧
      (slotKeys (ringed 1 3 0 0 true) (cmdDescOf (descriptor 0 x.1 x.2)).slot).isSome = true ∧
      (slotKeys (ringed 1 3 0 0 true) (cmdDescOf (descriptor 1 x.1 x.2)).slot).isSome = false) ∧
    (∀ x ∈ [(32, 0), (4129, 0), (33, 2)], descOk (cmdDescOf (descriptor 0 x.1 x.2)) = false) := by decide +kernel

theorem witness_rings :
    (∀ n ∈ [0, 1], ((ringed 1 3 0 n true).sec.cmds = [⟨0, n, 33⟩]) ∧ (slotKeys (ringed 1 3 0 n true) n).isSome = decide (n = 0)) ∧
    (complFull (ringed 1 3 0 0 true) = true ∧ complFull (ringed 1 3 1 0 true) = false ∧ (ringed 1 3 1 0 true).sec.compls = [⟨0, 0, 0, 0, 0⟩] ∧
      (ringed 1 3 1 0 false).sec.compls = []) ∧
    (16 ≤ ((30000000 :: (List.replicate 15 29000000).filter fun x => 30000000 < x + 25000000).take 16).length) ∧
    ({ base.sec with out := [⟨0, none, [], 0⟩] }.out = [⟨0, none, [], 0⟩]) ∧ base.sec.cmds = [] := by decide +kernel

/-- A message that opens under the keys of its slot, with a counter that is old, new, or past the last. -/
theorem witness_host_messages :
    (∀ c ∈ [5, 6, 2 ^ 48], fieldAt 8 8 (hostMsg c 1) = c ∧ hostMore (hostMsg c 1) = true ∧ hostMore (hostMsg c 0) = false ∧
      (hostMsg c 0).take 33 = hostMsg c 0) ∧
    (∀ x, Config.gcmOpen (slotKey [] 0).1 ((slotKey [] 0).2 ++ part 8 8 (hostMsg 6 0)) ((hostMsg 6 0).take 16) ((hostMsg 6 0).drop 16) = some x →
      openHost ⟨0, 1023, [], 5, 0, [], []⟩ (hostMsg 6 0) = some x) ∧ openHost ⟨1, 1023, [], 5, 0, [], []⟩ (hostMsg 6 0) = none := by
  refine ⟨by decide +kernel, fun x hx => ?_, ?_⟩
  · rw [openHost, if_pos (by decide +kernel)]; exact hx
  · rw [openHost, if_neg (by decide +kernel)]

theorem witness_rings_inv : Inv (ringed 0 0 0 0 true) ∧ Inv (ringed 1 3 0 1 true) := ⟨inv_of (by decide +kernel), inv_of (by decide +kernel)⟩
/-! ## Witnesses: the vehicle bus and Ochre -/

/-- Port 3 has a role; stream 35 is fed by it through a filter, a client has a binding on the guidance segment, and fields are set. -/
def bussed (role : Nat) (l : List (Fld × Nat)) : State :=
  withFields ([(F.VBS_PORT_CFG_ROLE 3, role), (F.VBS_PORT_CFG_MODE 3, 1), (F.VBS_GUID_CFG_GID_BASE, 0x100), (F.ING_STREAM_CFG_ENABLE 35, 1),
      (F.ING_STREAM_CFG_WIRED 35, 1)] ++ l)
    { nearlyFull with image := { Image.blank with
        streams := List.replicate 36 decl, filters := [⟨3, 0x7F0, 0x7F0, 0, none, 35⟩]
        bindings := [⟨.guidance, 0x300, 0x301, none, 1023⟩], saPref := 200, ownName := 0x10, hbId := 0x310, statPgn := 0x1FF00 } }

/-- A CAN frame with an identifier. -/
def frame (ident : BitVec 29) : CanFrame := ⟨.classical, false, false, false, ident, 0, 0, 0, [1]⟩

theorem witness_can_frames :
    (running (bussed 2 []) = true ∧ fld (bussed 2 []) (F.VBS_PORT_CFG_ROLE 0) = 0 ∧ fld (bussed 2 []) (F.VBS_PORT_CFG_ROLE 3) ≠ 0 ∧
      modeTakes (bussed 2 []) 3 .classical = true ∧ modeTakes (bussed 2 []) 3 .fd = true ∧ modeTakes (bussed 2 []) 3 .xl = false ∧
      modeTakes (bussed 2 [(F.VBS_PORT_CFG_MODE 3, 2)]) 3 .xl = true) ∧
    ((frame 0x101).remote = false ∧ ¬((frame 0x101).format = .xl ∧ (frame 0x101).sec = true) ∧ rolePort (bussed 2 []) 2 = some 3 ∧
      (frame 0x101).ident.toNat ∈ ownIds (bussed 2 []) (strapB (bussed 2 [])) ∧ (bussed 2 []).log.queue.length < 256) ∧
    (¬(rolePort (bussed 2 []) 2 = some 3 ∧ (frame 0x7FF).ident.toNat ∈ ownIds (bussed 2 []) (strapB (bussed 2 []))) ∧
      (filterOf (bussed 2 []) 3 (frame 0x7FF).ident.toNat).any (fun x => x.stream.val == 35) = true ∧ receives (bussed 2 []) 35 = true ∧
      receives (bussed 2 [(F.ING_STREAM_CFG_ENABLE 35, 0)]) 35 = false) := by decide +kernel

theorem witness_can_frames_unfiltered :
    filterOf (bussed 2 []) 3 (frame 0x200).ident.toNat = none ∧
      ((∀ b ∈ (bussed 2 []).image.bindings, bindingTakes (bussed 2 []) 3 (frame 0x200).ident.toNat b = false) ∧
        functionTakes (bussed 2 []) 3 (frame 0x200).ident.toNat = false) ∧
      (filterOf (bussed 2 []) 3 (frame 0x300).ident.toNat = none ∧
        ∃ b ∈ (bussed 2 []).image.bindings, bindingTakes (bussed 2 []) 3 (frame 0x300).ident.toNat b = true) ∧
      filterOf (bussed 2 []) 3 (frame 0x310).ident.toNat = none ∧ functionTakes (bussed 2 []) 3 (frame 0x310).ident.toNat = true := by
  decide +kernel

theorem witness_can_fifo : (fifoTake (16 + 3) (bussed 2 [])).1 = true ∧ (fifoTake (16 + 3) (full 19 (bussed 2 []))).1 = false ∧
    running (full 19 (bussed 2 [])) = true :=
  ⟨fifo_room (by decide +kernel), fifo_full _ _, show running (bussed 2 []) = true by decide +kernel⟩

theorem witness_can_sample :
    Takes (bussed 2 []) 35 ⟨(bussed 2 []).time.count - latency (bussed 2 []) 35, (bussed 2 []).time.count, frameSample (frame 0x7FF)⟩ := by
  unfold Takes; decide +kernel

theorem witness_bus_inv : Inv (bussed 2 []) ∧ Inv (bussed 1 []) := ⟨inv_of (by decide +kernel), inv_of (by decide +kernel)⟩

/-- Port 3 is the ISOBUS port, the claim in a state, of an address, since a tick. -/
def claiming (claim sa : Nat) (t : Tick) : State :=
  { bussed 1 [(F.VBS_ISO_STAT_CLAIM, claim), (F.VBS_ISO_STAT_ADDR, sa)] with bus := { base.bus with claimSa := sa, claimAt := t } }

theorem witness_address_claims :
    (running (claiming 0 254 0) = true ∧ rolePort (claiming 0 254 0) 1 = some 3 ∧ portOff (claiming 0 254 0) 3 = false ∧
      fld (claiming 0 254 0) F.VBS_ISO_STAT_CLAIM = 0 ∧ rolePort (bussed 2 []) 1 = none) ∧
    (∀ t ∈ [23750000, 23750001], fld (claiming 1 200 t) F.VBS_ISO_STAT_CLAIM = 1 ∧
      decide ((claiming 1 200 t).bus.claimAt + 6250000 ≤ (claiming 1 200 t).time.count) = decide (t = 23750000)) ∧
    (claiming 1 200 0).bus.claimSa < 256 ∧ fld (claiming 3 254 0) F.VBS_ISO_STAT_CLAIM ≠ 0 := by decide +kernel

/-- Address Claimed of others: for an address that no one has, without one, and for the device's own with a NAME above or below. -/
theorem witness_claims_heard :
    ((⟨9, 253⟩ : ClaimMsg).sa.toNat < 254 ∧ (⟨9, 253⟩ : ClaimMsg).sa.toNat ≠ (claiming 1 200 0).bus.claimSa ∧
      254 ≤ (⟨9, 254⟩ : ClaimMsg).sa.toNat) ∧
    (∀ c ∈ [1, 2], (fld (claiming c 200 0) F.VBS_ISO_STAT_CLAIM = c) ∧ (⟨0x11, 200⟩ : ClaimMsg).sa.toNat = (claiming c 200 0).bus.claimSa ∧
      (⟨0x11, 200⟩ : ClaimMsg).name ≠ ownName (claiming c 200 0) ∧
      (ownName (claiming c 200 0)).toNat < (⟨0x11, 200⟩ : ClaimMsg).name.toNat ∧
      (⟨0xF, 200⟩ : ClaimMsg).name.toNat < (ownName (claiming c 200 0)).toNat) ∧
    (claiming 1 200 0).image.ownName.getLsbD 63 = false := by decide +kernel

theorem witness_pgn_requests :
    (rolePort (claiming 2 200 0) 1 = some 3 ∧ portOff (claiming 2 200 0) 3 = false ∧ claimed (claiming 2 200 0) = true ∧
      (200 : Byte).toNat = fld (claiming 2 200 0) F.VBS_ISO_STAT_ADDR ∧ (0x1FF00 : BitVec 18) = (claiming 2 200 0).image.statPgn ∧
      (0xEE00 : BitVec 18) ≠ (claiming 2 200 0).image.statPgn ∧ (1 : BitVec 18) ≠ (claiming 2 200 0).image.statPgn) ∧
    (claimed (claiming 1 200 0) = false ∧ fld (claiming 0 254 0) F.VBS_ISO_STAT_CLAIM = 0) := by decide +kernel

theorem witness_claims_inv : Inv (claiming 0 254 0) ∧ Inv (claiming 1 200 0) ∧ Inv (claiming 2 200 0) ∧ Inv (claiming 3 254 0) :=
  ⟨inv_of (by decide +kernel), inv_of (by decide +kernel), inv_of (by decide +kernel), inv_of (by decide +kernel)⟩

/-- A transport session with seven of its nine bytes received. -/
def session : TpSession := ⟨255, true, 0x1F00, 9, 2, List.replicate 7 1⟩

/-- The machine with a session, whose message a filter makes a sample of stream 35, its address claimed or not. -/
def inSession (x : TpSession) (claim : Nat) : State :=
  let s := claiming claim 200 0
  { s with
    image := { s.image with filters := [⟨3, 0, 0, 0x1F00, some 0, 35⟩], names := [9] }
    bus := { s.bus with tp := [x], names := [(9, 255)] } }

theorem witness_transport_sessions :
    (running (inSession session 2) = true ∧ (9 ≤ 9 ∧ 9 ≤ 1785) ∧ (9 ≤ 1785 ∧ 1785 ≤ 1785) ∧ ¬(9 ≤ 8 ∧ 8 ≤ 1785) ∧ ¬(9 ≤ 1786 ∧ 1786 ≤ 1785) ∧
      claimed (inSession session 2) = true ∧ claimed (inSession session 1) = false ∧
      (inSession session 2).bus.tp.find? (fun t => t.src = (255 : Byte).toNat) = some session ∧
      (inSession session 2).bus.tp.find? (fun t => t.src = (254 : Byte).toNat) = none) ∧
    (1 ≠ session.next ∧
      (2 = session.next ∧ ((session.bytes ++ ([1, 2] : List Byte).take 7).take session.size).length = session.size) ∧
      ((([] : List Byte) ++ (List.replicate 7 (1 : Byte)).take 7).take 9).length ≠ 9) ∧
    ((filterOf (inSession session 2) 3 (0x2000 * 256 + 255)).isSome = false ∧ rolePort (inSession session 2) 1 = some 3) := by decide +kernel

theorem witness_session_sample :
    (filterOf (inSession session 2) 3 ((session.pgn + 255) * 256 + session.src)).any (fun f => f.stream.val == 35) = true ∧
      session.pgn / 256 % 256 < 240 ∧ receives (inSession session 2) 35 = true := by decide +kernel

theorem witness_sessions_inv : Inv (inSession session 2) ∧ Inv (inSession session 1) :=
  ⟨inv_of (by decide +kernel), inv_of (by decide +kernel)⟩
/-- A release acknowledgement of client 0 for a frame. -/
def ackBytes (f : FrameNo) : List Byte := [0, 0, 0x5A, 0xA5] ++ leBytes 4 f.toNat

/-- A machine at rest with SAFE_STOP_N asserted, that waits for an acknowledgement. -/
def unreleased : State :=
  { bussed 2 [] with pwr := { base.pwr with safeStop := true }, safe := { base.safe with atRest := true } }

/-- A unit of a kind and a sub-kind, with a body. -/
def unit (kind sub n : Nat) : List Byte := leBytes 2 0 ++ leBytes 1 kind ++ leBytes 1 sub ++ List.replicate (12 + n) 0

theorem witness_client_units :
    (running unreleased = true ∧ (bindingOf unreleased 0x302 none .guidance).isNone = true ∧
      bindingOf unreleased 0x300 none .guidance = some ⟨.guidance, 0x300, 0x301, none, 1023⟩) ∧
    ((unit 0 0 0).length = 16 ∧ (ackBytes 5).length = 8 ∧ ((unit 0 0 0).drop 1).length < 16 ∧ ((unit 0 0 0).drop 1).length ≠ 8) ∧
    (unitKind (unit 0 0 0) = 0 ∧ unitKind (unit 1 0 16) = 1 ∧ unitKind (unit 2 0 0) = 2 ∧
      (∀ n ∈ [0, 1, 2, 3, 4, 5], unitKind (unit 3 n 0) = 3 ∧ (parseReq (unit 3 n 0)).sub = n) ∧ 3 < unitKind (unit 4 0 0)) ∧
    fabricUp unreleased = true := by decide +kernel

theorem witness_release_acknowledgements :
    (parseAck 0 (ackBytes 5) = some 5 ∧ parseAck 0 (ackBytes 4294967237) = some 4294967237 ∧ frameDist 5 unreleased.frame.num ≤ 64 ∧
      frameDist 4294967237 unreleased.frame.num ≤ 64) ∧
    (0 = fld unreleased F.WDN_REL_CFG_ACK_CLIENT ∧ unreleased.pwr.safeStop = true ∧
      unreleased.safe.atRest = true ∧ unreleased.safe.acked = none ∧ unreleased.frame.flags = 0) ∧
    (¬frameDist 4294967236 unreleased.frame.num ≤ 64 ∧ ¬frameDist 6 unreleased.frame.num ≤ 64 ∧
      (1 : Nat) ≠ fld unreleased F.WDN_REL_CFG_ACK_CLIENT ∧ base.safe.atRest = false ∧ parseAck 0 [] = none) := by
  decide +kernel

/-- A machine with the recipient's last heartbeat count, its last valid one at a tick, and in a lapse or not. -/
def beating (base0 : Option Tick) (lapse : Option Tick) : State :=
  { bussed 2 [] with bus := { base.bus with hbCtr := some 255, hbBase := base0, lapseFrom := lapse } }

theorem witness_heartbeats :
    ((beating (some 0) none).bus.hbCtr ≠ some (0 : Byte).toNat ∧ (beating (some 0) none).frame.started = true ∧
      (beating (some 0) none).bus.lapseFrom = none ∧ (beating (some 0) none).bus.hbCtr = some (255 : Byte).toNat ∧
      (beating (some 0) (some 1)).bus.lapseFrom ≠ none ∧ (beating none none).bus.hbBase = none) ∧
    ∃ n, n = fld (beating none none) F.VBS_GUID_CFG_HB_TIMEOUT ∧ ∀ t ∈ [30000000 - n * 25000, 30000001 - n * 25000],
      decide (t + fld (beating (some t) none) F.VBS_GUID_CFG_HB_TIMEOUT * 25000 ≤ (beating (some t) none).time.count)
        = decide (t = 30000000 - n * 25000) := ⟨by decide +kernel, _, rfl, by decide +kernel⟩

theorem witness_status :
    (rolePort (beating none none) 2 = some 3 ∧ portOff (beating none none) 3 = false ∧ (beating none none).bus.onBus = none) ∧
      (claimed (claiming 2 200 0) = true ∧ rolePort (claiming 2 200 0) 1 = some 3 ∧ portOff (claiming 2 200 0) 3 = false) := by decide +kernel

/-- A bundle. -/
def bundle (f : FrameNo) : TxBundle := ⟨f, [], 0, false⟩

/-- A part of the frame 4's bundle is on the bus, the frame 5's waits or not. -/
def sending (part : Nat) (w : Option TxBundle) : State :=
  { bussed 2 [(F.VBS_STAT_CFG_ISO_GUID, 1)] with bus := { base.bus with onBus := some ⟨bundle 4, part, 65535⟩, waiting := w, bseq := 65535 } }

/-- A device with both ports, an address claimed, at the end of a bundle. -/
def commanding : State :=
  withFields [(F.VBS_PORT_CFG_ROLE 2, 1), (F.VBS_ISO_STAT_CLAIM, 2)] (sending 1 none)

theorem witness_bundles :
    (running (sending 0 none) = true ∧ rolePort (sending 0 none) 2 = some 3 ∧
      (sending 0 none).bus.onBus = some ⟨bundle 4, 0, 65535⟩ ∧ (sending 0 none).bus.waiting = none) ∧
    (rolePort (sending 1 none) 2 = some 3 ∧ (sending 1 none).bus.onBus = some ⟨bundle 4, 1, 65535⟩ ∧ (sending 1 none).bus.waiting = none) ∧
    ((sending 1 (some (bundle 5))).bus.waiting = some (bundle 5) ∧ rolePort (sending 1 (some (bundle 5))) 2 = some 3) ∧
    (flag commanding F.VBS_STAT_CFG_ISO_GUID = true ∧ claimed commanding = true ∧ (rolePort commanding 1).isSome = true) ∧
    base.bus.onBus = none := by
  decide +kernel

theorem witness_heartbeats_inv : Inv unreleased ∧ Inv (beating (some 0) none) ∧ Inv (sending 1 (some (bundle 5))) ∧ Inv commanding :=
  ⟨inv_of (by decide +kernel), inv_of (by decide +kernel), inv_of (by decide +kernel), inv_of (by decide +kernel)⟩

/-- A device of a pair on the bus, with a state of port 3, n bus-offs of it, the last at a tick, and with PLCA or not. -/
def watching (p : PairState) (st n : Nat) (t : Tick) (plca : Nat) : State :=
  { withFields [(F.VBS_GUID_CFG_TX_INT, 1), (F.VBS_PORT_STAT_STATE 3, st), (F.OCH_CFG_PLCA_EN, plca)] (bussed 2 []) with
    twin := { base.twin with pair := p, bundleSeen := true, lastBundle := 4 }
    bus := { base.bus with boff := [[], [], [], List.replicate n t] } }

/-- The part of a bundle on the bus that says whether it is a result. -/
def bundleBytesOf (status : Nat) : List Byte := List.replicate 26 0 ++ leBytes 2 status

theorem witness_bundles_watched :
    (transmitting (watching .pairedA 0 0 0 1) 5 = true ∧ 5 = (watching .pairedA 0 0 0 1).frame.num) ∧
    ¬((watching .pairedB 0 0 0 0).twin.pair = .pairedA ∨ (watching .pairedB 0 0 0 0).twin.pair = .degradedA) ∧
    (follower (watching .monitor 0 0 0 0) = true ∧ follower (watching .pairedA 0 0 0 0) = false) ∧
    (field ((bundleBytesOf 1).drop 4) 22 2 % 16 ≤ 1 ∧ ¬field ((bundleBytesOf 2).drop 4) 22 2 % 16 ≤ 1) ∧
    ((watching .monitor 0 0 0 0).twin.bundleSeen = true ∧
      frameDist (watching .monitor 0 0 0 0).twin.lastBundle 5 ≤ max 1 (fld (watching .monitor 0 0 0 0) F.VBS_GUID_CFG_TX_INT) ∧
      ¬frameDist (watching .monitor 0 0 0 0).twin.lastBundle 6 ≤ max 1 (fld (watching .monitor 0 0 0 0) F.VBS_GUID_CFG_TX_INT)) := by
  decide +kernel

theorem witness_bus_off :
    (fld (watching .solo 2 0 0 0) (F.VBS_PORT_CFG_ROLE 0) = 0 ∧ fld (watching .solo 2 0 0 0) (F.VBS_PORT_CFG_ROLE 3) ≠ 0 ∧
      fld (watching .solo 2 0 0 0) (F.VBS_PORT_STAT_STATE 3) = 2 ∧ fld (watching .solo 0 0 0 0) (F.VBS_PORT_STAT_STATE 3) ≠ 2) ∧
    (∀ t ∈ [5000000, 5000001], decide (3 ≤ (((watching .solo 0 3 t 0).bus.boff.getD 3 []).filter
      fun n => (watching .solo 0 3 t 0).time.count < n + 25000000).length) = decide (t = 5000001)) ∧
    (∀ t ∈ [5000000, 5000001], fld (watching .solo 3 4 t 0) (F.VBS_PORT_STAT_STATE 3) = 3 ∧
      decide (((watching .solo 3 4 t 0).bus.boff.getD 3 []).headD 0 + 25000000 ≤ (watching .solo 3 4 t 0).time.count) = decide (t = 5000000)) ∧
    (rolePort (watching .solo 2 0 0 0) 2 = some 3 ∧ rolePort (bussed 1 []) 1 = some 3) := by decide +kernel

theorem witness_beacon : flag (watching .solo 0 0 0 1) F.OCH_CFG_PLCA_EN = true ∧ flag (watching .solo 0 0 0 0) F.OCH_CFG_PLCA_EN = false := by
  decide +kernel

theorem witness_watching_inv : Inv (watching .pairedA 2 3 5000001 1) ∧ Inv (watching .monitor 3 4 5000000 0) :=
  ⟨inv_of (by decide +kernel), inv_of (by decide +kernel)⟩
/-! ## Witnesses: start, power, sleep and replay -/

/-- A power-on with both straps as given, all channels trained and an image on the first flash, the second blank. -/
def boot (b1 b0 : Bool) (bs : List Byte) : BootEnv :=
  { twinPos1 := b1, twinPos0 := b0, bootSel := false, hbmChannels := BitVec.allOnes 16, flash0 := ⟨bs.zipIdx.map fun x => (x.2, x.1)⟩
    flash1 := ⟨[]⟩, failTiles := [], failInf := [], failSelect := false, failLanes := [], failOther := false, loadMs := 0, firstMs := 0
    ticks := 0, image := Image.blank, pose := [], lidarFused := [], nonce := 0, tweaks := [] }

/-- An image of the owner with one self-signed, empty section of each type that an image needs. -/
def smallImage : List Byte :=
  [0x4D, 0x45, 0x56, 0x52, 1, 0, 0, 0] ++ List.replicate 8 0 ++ [8] ++ List.replicate 111 0 ++
    requiredTypes.flatMap fun t => leBytes 1 t ++ leBytes 1 4 ++ List.replicate 62 0

/-- The first flash of such a power-on. -/
def smallSrc : ImgSrc := imgSrc false (boot true false smallImage).flash0 (boot true false smallImage).flash1

/-- A machine in DEVELOP whose owner is not set. -/
def develop : State := inLc 1 State.reset

theorem witness_cold_start :
    ({ State.reset with pwr := { State.reset.pwr with phase := .powerOn } }.pwr.phase = .powerOn ∧ State.reset.ind.powered = true ∧
      base.pwr.phase ≠ .reset ∧ State.reset.pwr.phase = .reset ∧ State.reset.pwr.phase ≠ .powerOn) ∧
    (∀ b1 b0 : Bool, develop.ind.asleepDue = 0 ∧ develop.fuse.lc ≠ 4 ∧ develop.fuse.lc ≠ 2 ∧ (inLc 4 State.reset).fuse.lc = 4 ∧
      (boot b1 b0 smallImage).twinPos0 = b0 ∧ (boot b1 b0 smallImage).twinPos1 = b1 ∧
      (boot b1 b0 smallImage).hbmChannels = BitVec.allOnes 16) ∧
    bootSource (boot true false []) develop.fuse = none := by
  refine ⟨by decide, by decide, ?_⟩
  have v : ∀ src : ImgSrc, (headerOf src).magic ≠ [0x4D, 0x45, 0x56, 0x52] → imageValid develop.fuse src = false := fun src h => by
    unfold imageValid
    simp only [Bool.and_eq_false_iff, decide_eq_false h]
    simp
  have h1 := v (imgSrc (boot true false []).bootSel (boot true false []).flash0 (boot true false []).flash1) (by decide +kernel)
  have h2 := v (imgSrc false (boot true false []).flash1 (boot true false []).flash0) (by decide +kernel)
  simp only [bootSource, h1, h2]
  rfl

/-- R546 to R549: an image that the ROM accepts, where its signature verifies and its firmware section, which is empty, is accepted. -/
theorem witness_valid_image (h : Config.ecdsaOk (headerOf smallSrc).pub (headerOf smallSrc).signed (headerOf smallSrc).sig = true)
    (hf : firmwareOk develop.fuse [] = true) :
    bootSource (boot true false smallImage) develop.fuse =
        some (smallSrc, imgSrc false (boot true false smallImage).flash1 (boot true false smallImage).flash0, false) ∧
      (∀ x ∈ sectionsOf smallSrc, (goodSource false smallSrc smallSrc x).isSome = true) ∧ ∀ x ∈ sectionsOf smallSrc, x.stype ≠ 7 := by
  have a : (headerOf smallSrc).magic = [0x4D, 0x45, 0x56, 0x52] ∧ (headerOf smallSrc).version = 1 ∧ (headerOf smallSrc).secCount = 8 ∧
      (headerOf smallSrc).minRom = 0 ∧ (headerOf smallSrc).signer = 0 := by decide +kernel
  have b : (sectionsOf smallSrc).map (·.stype) = requiredTypes ∧ (∀ x ∈ sectionsOf smallSrc, x.selfSigned = true ∧ x.stype ≠ 7) := by
    decide +kernel
  have c : (sectionOfType smallSrc 1).map (sectionBytes smallSrc) = some [] := by decide +kernel
  have s : signerOk develop.fuse (headerOf smallSrc) = true := by simp [signerOk, show develop.fuse.lc = 1 from rfl, a,
    show develop.fuse.ownerSet = false from rfl]
  have v : imageValid develop.fuse smallSrc = true := by
    obtain ⟨x, hx, hb⟩ := Option.map_eq_some_iff.mp c
    simp [imageValid, a, b, s, h, hx, hb, hf, requiredTypes]
  refine ⟨?_, fun x hx => ?_, fun x hx => (b.2 x hx).2⟩
  · unfold bootSource
    exact if_pos v
  · simp [goodSource, digestGood, (b.2 x hx).1]

theorem witness_cold_start_inv : Inv State.reset ∧ Inv develop := ⟨inv_of (by decide +kernel), inv_of (by decide +kernel)⟩

/-- A machine that has missed n answers of the regulator. -/
def missing (n : Nat) : State := { nearlyFull with pwr := { base.pwr with avsMissRun := n } }

theorem witness_power :
    (running nearlyFull = true ∧ coreApplied nearlyFull = true ∧ nearlyFull.ind.powered = true ∧ nearlyFull.fuse.lc ≠ 4 ∧
      nearlyFull.log.queue.length < 256 ∧ (inLc 1 nearlyFull).fuse.lc = 1 ∧ Requester.host ≠ .warden) ∧
      (650 ≤ (650 : BitVec 16).toNat ∧ (850 : BitVec 16).toNat ≤ 850) ∧ ((649 : BitVec 16).toNat < 650 ∧ 850 < (851 : BitVec 16).toNat) ∧
      ((missing 2).pwr.avsMissRun < 3 ∧ 3 ≤ (missing 3).pwr.avsMissRun) :=
  ⟨by decide +kernel, by decide, by decide, by decide⟩

theorem witness_power_inv : Inv nearlyFull ∧ Inv (missing 3) := ⟨inv_of (by decide +kernel), inv_of (by decide +kernel)⟩

/-- A machine whose edge state has a speed. -/
def moving (v : Int) : State := { base with held := { base.held with edge := { Pose.zero with v := v } } }

/-- Indigo with VBAT_AO or without, the device asleep, waiting for power, or running with IGN as given, and the alarm at a count. -/
def indigo (powered ign : Bool) (p : DevPhase) (alarm : Nat) : State :=
  withFields [(F.IND_CFG_ALARM_EN, 1), (F.IND_ALARM_LO_ALARM, alarm), (F.IND_ALARM_HI_ALARM, 0)]
    { base with ind := { base.ind with powered := powered, count := 77 }, pwr := { base.pwr with phase := p, ign := ign } }

theorem witness_sleep_and_wake :
    (running base = true ∧ atRestNow base = true ∧ atRestNow (moving (-1)) = false ∧ base.log.queue.length < 255) ∧
    ((indigo true false .running 0).fuse.lc ≠ 4 ∧ (indigo true false .running 0).pwr.ign = false ∧ (indigo true true .running 0).pwr.ign = true) ∧
    (∀ n ∈ [77, 78], (indigo true true .asleep n).ind.powered = true ∧ (indigo true true .asleep n).pwr.phase = .asleep ∧
      wakeEnabled (indigo true true .asleep n) .ign = true ∧ wakeEnabled (indigo true true .asleep n) .alarm = true ∧
      wakeFalls (indigo true true .asleep n) .alarm = decide (n = 77)) ∧
    ((indigo false true .powerOn 0).ind.powered = false ∧ coreApplied (indigo false true .powerOn 0) = false ∧
      coreApplied (indigo false true .running 0) = true) := by decide +kernel

theorem witness_sleep_inv : Inv (moving (-1)) ∧ Inv (indigo true true .asleep 77) ∧ Inv (indigo false true .powerOn 0) :=
  ⟨inv_of (by decide +kernel), inv_of (by decide +kernel), inv_of (by decide +kernel)⟩

/-- A device on its own whose first client may carry a replay in slot 254; a replay is open or not, with a frame in it or not. -/
def replayable (active inFrame : Bool) : State :=
  withFields [(F.CND_CLIENT_WORD 0 0, 0x8000FE80), (F.SUP_REPLAY_CTL_SLOT, 254)]
    { base with
      twin := { base.twin with pair := .solo }, replay := { active := active, slot := 254, live := 6, inFrame := inFrame } }

theorem witness_replay :
    (running (replayable false false) = true ∧ reachesSup (replayable false false) .host = true ∧ reachesSup base (.steward 1) = false ∧
      replayReason (replayable false false) = none ∧
      replayReason { base with twin := { base.twin with pair := .pairedA } } = some 1 ∧ (replayable false false).replay.active = false) ∧
    ((replayable true false).replay.active = true ∧ (replayable true false).replay.inFrame = false ∧
      replayReason (replayable true false) = some 4) ∧
    ((replayable true true).replay.active = true ∧ (replayable true true).replay.inFrame = true) := by decide +kernel

theorem witness_replay_inv : Inv (replayable false false) ∧ Inv (replayable true true) :=
  ⟨inv_of (by decide +kernel), inv_of (by decide +kernel)⟩
/-! ## Small tests against the spec's own numbers -/

/-- The state that a command leaves. -/
def after (c : Instr) (s : State) : State :=
  match exec c s with
  | .next t => t
  | _ => s

/-- Chapter 10's story: contact of cause 0 at pose 22 and index 4. -/
theorem test_contact_entry : contactKey 0 22 4 = 0xFFFFFFFF82C00004 := by decide

/-- Chapter 11's story: kind 2, memory 4, syndrome 0x5A, at 0x80_1400_1A38. -/
theorem test_memory_detail : memDetail 0x5A 2 4 0x8014001A38 = 0x5A4004801400_1A38 := by decide

/-- A syndrome of even weight is uncorrectable, and 3 is the Sepia mark (R367, R368). -/
theorem test_syndromes : decodeSyndrome 0x5A = .bad ∧ decodeSyndrome 3 = .mark ∧ decodeSyndrome 0x40 = .single 70 := by decide +kernel

/-- A device of a pair that holds V. -/
def holdingPair : State := { holdingV 0 with twin := { base.twin with pair := .pairedA } }

/-- Chapter 11's story: kind HOLD for doubt; chapter 15's: STOP for RECIPIENT_LAPSE in a lapse. -/
theorem test_status_words :
    statusWord (withFields [(F.VBS_HB_STAT_LAPSED, 0)] holdingPair) .hold 1 false = 0x0102 ∧
      statusWord (withFields [(F.VBS_HB_STAT_LAPSED, 1)] holdingPair) .stop 4 false = 0x8403 := by decide +kernel

/-- The phase budgets at reset, added up (R44): 0.1, 0.65, 0.75, 0.9, 0.96 and 1 ms. -/
theorem test_hard_stops : (List.range 6).map (hardStop State.reset) = [2500, 16250, 18750, 22500, 24000, 25000] := by decide +kernel

/-- Access types (R13) on 0b1100 written with 0b1010. -/
theorem test_access_types :
    fieldWrite .ro 12 10 = 12 ∧ fieldWrite .rw 12 10 = 10 ∧ fieldWrite .w1c 12 10 = 4 ∧ fieldWrite .w1s 12 10 = 14 := by decide

theorem test_mutex_force : (after (.mutexForce 9 3 1) base).arb = [⟨9, 1, 3⟩] := by decide +kernel

theorem test_register_write :
    regWord (after (.registerWrite .warden F.IND_ALARM_LO_ALARM.addr 0x12345678) base) F.IND_ALARM_LO_ALARM.addr = 0x12345678 := by
  decide +kernel

theorem test_data_write :
    (after (.dataPacketRoute scratchWrite) base).mem.cells = [(0x8001FFFFFE, 1), (0x8001FFFFFF, 2)] := by decide +kernel

theorem test_pull_waits : (after (.pull 75) base).cnd.pulls = [75] := by decide +kernel

theorem test_lease_of_a_scratch_buffer :
    ((after (.leaseRequest 3 2 none 1) leasing).cnd.leases.filter fun l => l.cls = 2).map (fun l => (l.res, l.holder, l.time)) =
      [(0, 3, 30000000)] := by decide +kernel

theorem test_watchdog_kick : fld (after .watchdogKick base) F.IND_WDOG_LEFT = 1000 := by decide +kernel

theorem test_safe_stop_write : (after (.safeCtlStop .warden) (holdingV 0)).pwr.safeStop = true := by decide +kernel

theorem test_jtag_idcode : (after .jtagIdcode base).sent = [.idcode 0x0640A1C3] := by decide +kernel

theorem test_fourth_bus_off_holds :
    fld (after (.busOff 3) (watching .solo 0 3 5000001 0)) (F.VBS_PORT_STAT_STATE 3) = 3 ∧
      fld (after (.busOff 3) (watching .solo 0 3 5000000 0)) (F.VBS_PORT_STAT_STATE 3) = 2 := by decide +kernel

theorem test_claim_defended :
    (after (.addressClaimed ⟨0x11, 200⟩) (claiming 1 200 0)).sent = [.isobus 0xEE00 255 [0x10, 0, 0, 0, 0, 0, 0, 0]] := by decide +kernel

theorem test_sleep_refused_while_ign : (after (.sleep .warden) (indigo true true .running 0)).sent = [.error .warden 0xF01014 none] := by
  decide +kernel

theorem test_idle_step_counts : ∃ t, step base = .next t ∧ t.time.count = 30000001 := ⟨_, rfl, by decide +kernel⟩


/-- R301, R302: the root of the pivot 2.25, and its reciprocal. -/
theorem test_pivot : sqrtQ 0x24000 = 0x18000 ∧ recipQ 0x18000 = 0xAAAB := by decide +kernel

/-- Chapter 8's story: candidate 2 hits the pole at pose 17; candidates 9, 37 and 52 with their costs and classes. -/
theorem test_free_keys :
    contactKey 0 17 2 = 0xFFFFFFFF82200002 ∧
      [(1952000, 222, 60, 0, 9), (1920000, 214, 97, 240, 37), (1920000, 214, 99, 244, 52)].map (fun x =>
        costKey (64 * 2 ^ 48 + 512 * 2 ^ 36 + 16 * 2 ^ 24 + 8 * 2 ^ 12 + 32) x.1 x.2.1 x.2.2.1 x.2.2.2.1 * 2 ^ 32
          + classOf x.2.2.1 * 2 ^ 18 + x.2.2.2.2) =
        [0x0007B8807FC00009, 0x0007AE707F9C0025, 0x0007AE707F9C0034] ∧
      effort 0 { cand with k1 := 120, k2 := 240, k3 := 240, k4 := 240 } = 240 := by decide +kernel

end Sys2Proof.Tests
end

/-! # Undeliverable packets (R18, R19)

A packet that a router delivers is served word by word. `WordAccess W n` says what serving it may do to the memories and to the
record queue: it reaches only the words in `W`, and at most `n` records join the queue. Each operation on a word carries an
access further; the unpopulated words of a packet are never among those that are reached. -/

section

namespace Sys2Proof.Machine

/-! ## The data map by words -/

/-- The memories of the data map begin and end at word boundaries (R363). -/
theorem memAt_word (a : Nat) : memAt (8 * (a / 8)) = memAt a := by
  have lt : ∀ c, c % 8 = 0 → (8 * (a / 8) < c ↔ a < c) := by omega
  have le : ∀ c, c % 8 = 0 → (c ≤ 8 * (a / 8) ↔ c ≤ a) := by omega
  simp [memAt, lt, le]

theorem populated_word (p : DataPacket) (a : Nat) : populated p (8 * (a / 8)) = populated p a := by
  have le : 0x80160C0000 ≤ 8 * (a / 8) ↔ 0x80160C0000 ≤ a := by omega
  simp only [populated, memAt_word, ge_iff_le, le]

/-- An unpopulated address stands in no memory but the Warden's SRAM (R18, R364). -/
theorem memAt_of_unpopulated {p : DataPacket} {a : Nat} {m : MemKind} (h : populated p a = false) (hm : m ≠ .wardenSram) :
    memAt a ≠ some m := by
  intro at_m
  cases m
  case wardenSram => exact hm rfl
  all_goals simp [populated, at_m] at h

/-- The machine puts no structure at an unpopulated address. -/
theorem structByte_of_unpopulated {p : DataPacket} {s : State} {a : Nat} (h : populated p a = false) : structByte s a = 0 := by
  have scratch : 0x8000000000 ≤ a → ¬ a < 0x8002000000 := fun _ _ =>
    memAt_of_unpopulated h (m := .sweepScratch) (by decide) (by simp (disch := omega) only [memAt, if_neg, if_pos])
  have cache : ¬(0x800C000000 ≤ a ∧ a < 0x800E000000) := fun _ =>
    memAt_of_unpopulated h (m := .worldCache) (by decide) (by simp (disch := omega) only [memAt, if_neg, if_pos])
  have store : ¬(0x8010000000 ≤ a ∧ a < 0x8013000000) := fun _ =>
    memAt_of_unpopulated h (m := .worldStore) (by decide) (by simp (disch := omega) only [memAt, if_neg, if_pos])
  have select : ¬(0x8014000000 ≤ a ∧ a < 0x8014400000) := fun _ =>
    memAt_of_unpopulated h (m := .selectStore) (by decide) (by simp (disch := omega) only [memAt, if_neg, if_pos])
  unfold structByte
  rw [if_neg cache, if_neg store, if_neg select]
  split_ifs with low high
  · rfl
  · exact absurd high (scratch (by omega))
  · rfl

theorem byteAt_of_unpopulated {p : DataPacket} {s : State} {a : Nat} (h : populated p a = false) :
    byteAt s a = tabGet 0 s.mem.cells a := by
  simp [byteAt, placedByte, structByte_of_unpopulated h]

/-! ## What a report changes -/

/-- What has been sent stands unchanged where nothing sends. -/
theorem shows_sent_eq {V : List Part} {x : List Output} (h : ∀ p ∈ V, p ∉ ([.sent, .cold] : List Part)) :
    Keeps V (fun t => t.sent = x) := by
  intro p hp
  have hn := h p hp
  cases p
  case sent => exact absurd (by decide) hn
  case cold => exact absurd (by decide) hn
  all_goals exact fun _ _ => by intros; assumption

theorem report_sent (e : Event) (s : State) : (report e s).sent = s.sent := report_keeps (shows_sent_eq (by decide)) rfl

theorem report_mem (e : Event) (s : State) : (report e s).mem = s.mem := report_keeps (shows_mem (by decide)) rfl

theorem enqueue_of_room {q : QueuedRec} {s : State} (h : s.log.queue.length < 256) :
    (enqueue q s).log.queue = s.log.queue ++ [q] := by
  rw [enqueue, if_pos h]

/-- The state in which the record of a report joins the queue: Indigo has its copy where the severity sends it one (R424). -/
def copiedToIndigo (e : Event) (s : State) : State :=
  if fld s F.WDN_LOG_CFG_IND_SEV ≤ (recordOf s e).severity then indigoLog (recordOf s e) s else s

theorem copiedToIndigo_log (e : Event) (s : State) : (copiedToIndigo e s).log = s.log :=
  ite_keeps (P := fun t => t.log = s.log) (indigoLog_keeps (shows_log (by decide)) rfl) rfl

theorem copiedToIndigo_regWord (e : Event) (s : State) (a : Nat) : regWord (copiedToIndigo e s) a = regWord s a := by
  unfold copiedToIndigo indigoLog
  split_ifs <;> rfl

/-- A record joins a queue that has room at its end. -/
theorem report_queue {e : Event} {s : State} (h : s.log.queue.length < 256) :
    ∃ q : QueuedRec, q.entry = recordOf s e ∧ (report e s).log.queue = s.log.queue ++ [q] := by
  have joined := fun q : QueuedRec => enqueue_of_room (q := q) (s := copiedToIndigo e s) (by rwa [copiedToIndigo_log])
  simp only [copiedToIndigo_log] at joined
  exact ⟨_, rfl, joined ⟨recordOf s e, decide (fld s F.WDN_LOG_CFG_OCH_SEV ≤ (recordOf s e).severity), s.log.hbmOk⟩⟩

theorem report_recorded {e : Event} {s : State} (h : s.log.queue.length < 256) :
    Recorded (report e s) e.unit e.cls e.ev (sevCode e.sev) := by
  obtain ⟨q, hq, hs⟩ := report_queue (e := e) h
  exact ⟨q, by simp [hs], by simp [hq, recordOf]⟩

theorem enqueue_regs {q : QueuedRec} {s : State} : SameRegsBut logAddrs s (enqueue q s) := by
  have drop : ∀ t : State, SameRegsBut logAddrs t (bump F.WDN_FLOG_STAT_DROP t) := fun t a ha =>
    regWord_setReg_ne fun e => ha (e ▸ List.mem_singleton.mpr rfl)
  unfold enqueue
  split
  · exact fun _ _ => rfl
  · split
    · exact drop s
    · split
      · exact drop _
      · exact drop s

/-- A report writes one register, that of the record queue (R424). -/
theorem report_regs (e : Event) (s : State) : SameRegsBut logAddrs s (report e s) := by
  intro a ha
  have hne : a ≠ F.WDN_FLOG_STAT_SEQ.addr := fun e => ha (e ▸ List.mem_singleton.mpr rfl)
  exact (regWord_setReg_ne hne).trans ((enqueue_regs a ha).trans (copiedToIndigo_regWord e s a))

/-- The structures of the machine are not read from the register that a report writes. -/
theorem sameStructures_report (e : Event) (s : State) : SameStructures s (report e s) := by
  have same : ∀ f : Fld, 0x1810 < f.addr → fld (report e s) f = fld s f := fun f hf => by
    unfold fld
    rw [report_regs e s f.addr (by simp [logAddrs, F.WDN_FLOG_STAT_SEQ]; omega)]
  refine ⟨report_keeps (shows_wld (by decide)) rfl, report_keeps (shows_held (by decide)) rfl,
    report_keeps (shows_swp (by decide)) rfl, report_keeps (shows_sel (by decide)) rfl, report_keeps (shows_image (by decide)) rfl,
    report_keeps (shows_num (by decide)) rfl, report_keeps (shows_edgeTick (by decide)) rfl, ?fuse, ?units, ?ways⟩
  case fuse =>
    unfold fuseCfg flag
    simp (disch := decide) only [same]
  case units =>
    funext u
    unfold unitDomain
    rw [same _ (by simp only [F.SWP_TILE_DOMAIN_DOMAIN]; omega), same _ (by simp only [F.INF_TILE_STAT_DOMAIN]; omega)]
  case ways =>
    funext c w
    unfold wayOwner
    rw [same _ (by simp only [F.MEM_WAY_DOMAIN_LO_DOMAIN]; omega), same _ (by simp only [F.MEM_WAY_DOMAIN_HI_DOMAIN]; omega)]

/-- A report leaves every byte of the memories and the mark of every word alone. -/
theorem sameMemory_report (e : Event) (s : State) : SameMemory s (report e s) := fun a =>
  ⟨congrFun (byteAt_congr (sameStructures_report e s) (by rw [report_mem]) (by rw [report_mem])) a, by
    unfold wordSynd
    rw [report_mem]⟩

/-! ## Accesses of words -/

/-- From s to t the memories have changed in words of W alone; and at most n records have joined the record queue at its end,
none of those before them lost, if it had room for n. -/
structure WordAccess (W : Nat → Prop) (n : Nat) (s t : State) : Prop where
  cells : ∀ a, ¬ W (a / 8) → tabGet 0 t.mem.cells a = tabGet 0 s.mem.cells a
  synd : ∀ a, ¬ W (a / 8) → wordSynd t a = wordSynd s a
  queue : s.log.queue.length + n ≤ 256 → s.log.queue <+: t.log.queue ∧ t.log.queue.length ≤ s.log.queue.length + n

theorem WordAccess.refl {W : Nat → Prop} {s : State} : WordAccess W 0 s s :=
  ⟨fun _ _ => rfl, fun _ _ => rfl, fun _ => ⟨List.prefix_rfl, Nat.le_refl _⟩⟩

/-- An access goes on through what writes neither the data of the memories nor the record queue. -/
theorem shows_access {V : List Part} {W : Nat → Prop} {n : Nat} {s : State}
    (h : ∀ p ∈ V, p ∉ ([.data, .queue, .cold] : List Part)) : Keeps V (WordAccess W n s) := by
  intro p hp
  have hn := h p hp
  cases p
  case data => exact absurd (by decide) hn
  case queue => exact absurd (by decide) hn
  case cold => exact absurd (by decide) hn
  case mem =>
    intro t m hm ht
    refine ⟨fun a ha => ?_, fun a ha => ?_, ht.queue⟩
    · rw [hm.1, ht.cells a ha]
    · exact (congrArg (tabGet 0 · (a / 8)) hm.2.1).trans (ht.synd a ha)
  case log =>
    intro t l hl ht
    exact ⟨ht.cells, ht.synd, hl ▸ ht.queue⟩
  all_goals
    simp only [Part.Kept]
    intros
    rename_i ht
    exact ⟨ht.cells, ht.synd, ht.queue⟩

section WordAccess

variable {W : Nat → Prop} {n : Nat} {s t : State} {a : Nat}

theorem WordAccess.mono {m : Nat} (h : WordAccess W n s t) (hm : n ≤ m) : WordAccess W m s t :=
  ⟨h.cells, h.synd, fun room => (h.queue (by omega)).imp_right (by omega)⟩

theorem report_access {e : Event} (h : WordAccess W n s t) : WordAccess W (n + 1) s (report e t) := by
  refine ⟨?_, ?_, fun room => ?_⟩
  · rw [report_mem]
    exact h.cells
  · unfold wordSynd
    rw [report_mem]
    exact h.synd
  · obtain ⟨pre, len⟩ := h.queue (by omega)
    obtain ⟨q, -, hq⟩ := report_queue (e := e) (s := t) (by omega)
    rw [hq]
    exact ⟨pre.trans (List.prefix_append _ _), by rw [List.length_append, List.length_singleton]; omega⟩

theorem putByte_access {b : Byte} (hw : W (a / 8)) (h : WordAccess W n s t) : WordAccess W n s (putByte t a b) :=
  ⟨fun c hc => (tabGet_tabPut_ne fun (e : c = a) => hc (e ▸ hw)).trans (h.cells c hc), h.synd, h.queue⟩

theorem setSynd_access {w : Nat} (hw : W (a / 8)) (h : WordAccess W n s t) : WordAccess W n s (setSynd a w t) :=
  ⟨h.cells, fun c hc => (tabGet_tabPut_ne fun (e : c / 8 = a / 8) => hc (e ▸ hw)).trans (h.synd c hc), h.queue⟩

/-- Bytes are stored within one word. -/
theorem putBytes_access {bs : List Byte} (hw : W (a / 8)) (fits : a % 8 + bs.length ≤ 8) (h : WordAccess W n s t) :
    WordAccess W n s (putBytes a bs t) := by
  induction bs generalizing a t with
  | nil => exact h
  | cons b bs ih =>
    cases bs with
    | nil => exact putByte_access hw h
    | cons c bs =>
      simp only [List.length_cons] at fits ih
      exact ih (by rwa [show (a + 1) / 8 = a / 8 by omega]) (by omega) (putByte_access hw h)

theorem setWord_access {v : Nat} (hw : W (a / 8)) (h : WordAccess W n s t) : WordAccess W n s (setWord a v t) :=
  putBytes_access (by rwa [Nat.mul_div_cancel _ (by decide)]) (by simp [leBytes]) h

theorem applyFlips_access {flips : BitVec 72} (hw : W (a / 8)) (h : WordAccess W n s t) :
    WordAccess W n s (applyFlips a flips t) :=
  ite_keeps h (setSynd_access hw (setWord_access hw h))

theorem correct_access {bit : Nat} (hw : W (a / 8)) (h : WordAccess W n s t) : WordAccess W n s (correct a bit t) :=
  setSynd_access hw (ite_keeps (setWord_access hw h) h)

theorem countCe_access (h : WordAccess W n s t) : WordAccess W n s (countCe a t) := countCe_keeps (shows_access (by decide)) h

theorem bump_access {f : Fld} (h : WordAccess W n s t) : WordAccess W n s (bump f t) := bump_keeps (shows_access (by decide)) h

theorem setFlag_access {f : Fld} {b : Bool} (h : WordAccess W n s t) : WordAccess W n s (setFlag f b t) :=
  setFlag_keeps (shows_access (by decide)) h

/-- A memory event makes one record. -/
theorem memEvent_access {kind synd : Nat} {sev : Severity} (h : WordAccess W n s t) :
    WordAccess W (n + 1) s (memEvent kind synd a sev t) := by
  have C : Keeps [.regs] (WordAccess W (n + 1) s) := shows_access (by decide)
  exact ite_keeps (report_access h) (setFld_keeps C (setFld_keeps C (capture_keeps C (report_access h))))

/-- World is told of a bad word by at most one record. -/
theorem worldFault_access (h : WordAccess W n s t) : WordAccess W (n + 1) s (worldFault a t) := by
  have kept : ∀ x : WldSt, WordAccess W n s { t with wld := x } := fun _ => ⟨h.cells, h.synd, h.queue⟩
  unfold worldFault
  split
  · exact scheduleRewrite_keeps (shows_access (by decide)) (report_access (setFlag_access h))
  · split
    · exact setFlag_access (report_access (setFlag_access (kept _)))
    · split
      · exact report_access (setFlag_access (kept _))
      · exact h.mono (by omega)

/-- An uncorrectable word makes a record of its memory and at most one for World. -/
theorem findBad_access {kind : Nat} (hw : W (a / 8)) (h : WordAccess W n s t) : WordAccess W (n + 2) s (findBad kind a t) :=
  worldFault_access (setSynd_access hw (ite_keeps (bump_access (memEvent_access h)) (bump_access (memEvent_access h))))

theorem readWord_access {kind : Nat} (hw : W (a / 8)) (h : WordAccess W n s t) :
    WordAccess W (n + 2) s (readWord kind a t).2 := by
  show WordAccess W (n + 2) s (probeWord kind a t).2
  unfold probeWord
  split
  · exact h.mono (by omega)
  · exact (correct_access hw (countCe_access h)).mono (by omega)
  · exact (bump_access h).mono (by omega)
  · exact findBad_access hw h

theorem writeFull_access {bs : List Byte} {sepia : Bool} (hw : W (a / 8)) (fits : bs.length ≤ 8) (h : WordAccess W n s t) :
    WordAccess W n s (writeFull a bs sepia t) :=
  setSynd_access hw (putBytes_access (by rwa [Nat.mul_div_cancel _ (by decide)]) (by omega) h)

theorem writePartial_access {bs : List Byte} {sepia : Bool} (hw : W (a / 8)) (fits : a % 8 + bs.length ≤ 8)
    (h : WordAccess W n s t) : WordAccess W (n + 2) s (writePartial a bs sepia t) := by
  unfold writePartial
  extract_lets u
  have stored : WordAccess W (n + 2) s u := by
    unfold u
    split <;> apply putBytes_access hw fits
    · exact h.mono (by omega)
    · exact (correct_access hw (countCe_access h)).mono (by omega)
    · exact (bump_access h).mono (by omega)
    · exact findBad_access hw h
  exact ite_keeps (setSynd_access hw stored) stored

/-- What the HBM device reports of a word makes at most one record. -/
theorem applyDev_access {dev : DevEcc} (hw : W (a / 8)) (h : WordAccess W n s t) :
    WordAccess W (n + 1) s (applyDev a dev t) := by
  unfold applyDev
  split
  · exact h.mono (by omega)
  · split
    · exact h.mono (by omega)
    · exact (bumpBy_keeps (shows_access (by decide)) h).mono (by omega)
    · exact setSynd_access hw (memEvent_access h)

end WordAccess

/-! ## The words of a packet -/

/-- No piece of a packet crosses the end of its word. -/
theorem packetWords_fits {n a len : Nat} : ∀ w ∈ packetWords n a len, w.1 % 8 + w.2 ≤ 8 := by
  induction n generalizing a len with
  | zero => exact fun w hw => nomatch hw
  | succ n ih =>
    intro w hw
    rw [packetWords] at hw
    split at hw
    · cases hw
    · rcases List.mem_cons.mp hw with rfl | hw
      · show a % 8 + min len (8 - a % 8) ≤ 8
        omega
      · exact ih w hw

/-- The pieces of a write, from the first word on. -/
theorem writePieces_cons (w : Nat × Nat) (ws : List (Nat × Nat)) (bs : List Byte) :
    writePieces (w :: ws) bs = (w, bs.take w.2) :: writePieces ws (bs.drop w.2) := by
  have collected : ∀ (ws : List (Nat × Nat)) (l : List ((Nat × Nat) × List Byte)) (bs : List Byte),
      (ws.foldl (fun r w => ((w, r.2.take w.2) :: r.1, r.2.drop w.2)) (l, bs)).1.reverse =
        l.reverse ++ writePieces ws bs := by
    intro ws
    induction ws with
    | nil => exact fun l bs => (List.append_nil _).symm
    | cons v ws ih =>
      intro l bs
      rw [writePieces, List.foldl_cons, List.foldl_cons, ih, ih]
      simp
  exact collected ws [(w, bs.take w.2)] (bs.drop w.2)

theorem length_writePieces (ws : List (Nat × Nat)) (bs : List Byte) : (writePieces ws bs).length = ws.length := by
  induction ws generalizing bs with
  | nil => rfl
  | cons w ws ih => rw [writePieces_cons, List.length_cons, ih, List.length_cons]

/-- A piece of a write brings its word no more bytes than the packet touches there. -/
theorem writePieces_fits {ws : List (Nat × Nat)} {bs : List Byte} :
    ∀ x ∈ writePieces ws bs, x.1 ∈ ws ∧ x.2.length ≤ x.1.2 := by
  induction ws generalizing bs with
  | nil => exact fun x hx => nomatch hx
  | cons w ws ih =>
    intro x hx
    rw [writePieces_cons] at hx
    rcases List.mem_cons.mp hx with rfl | hx
    · exact ⟨List.mem_cons_self, List.length_take_le _ _⟩
    · exact (ih x hx).imp_left (List.mem_cons_of_mem _)

/-! ## Serving a packet -/

/-- The words that a packet reaches: those that are populated for its issuer (R18). -/
def Reaches (p : DataPacket) (i : Nat) : Prop := populated p (8 * i) = true

theorem reaches_iff {p : DataPacket} {a : Nat} : Reaches p (a / 8) ↔ populated p a = true := by
  rw [Reaches, populated_word]

section Packet

variable {p : DataPacket} {n : Nat} {s t : State}

/-- A word that is not passed over, as unpopulated or as lost, is reached. -/
theorem reaches_of_taken {a u : Nat} (h : ¬(!populated p a || lostTo s u a) = true) : Reaches p (a / 8) := by
  rw [Bool.or_eq_true, not_or, Bool.not_eq_true', Bool.not_eq_false] at h
  exact reaches_iff.mpr h.1

theorem upsetWord_access (h : WordAccess (Reaches p) n s t) : WordAccess (Reaches p) (n + 1) s (upsetWord p t) := by
  unfold upsetWord
  extract_lets a
  split
  · have hw : Reaches p (a / 8) := reaches_iff.mpr ‹_›
    exact applyDev_access hw (applyFlips_access hw h)
  · exact h.mono (by omega)

theorem writeWord_access {w : (Nat × Nat) × List Byte} (word : w.1.1 % 8 + w.1.2 ≤ 8) (len : w.2.length ≤ w.1.2)
    (h : WordAccess (Reaches p) n s t) : WordAccess (Reaches p) (n + 2) s (writeWord p w t) := by
  unfold writeWord
  split
  · exact h.mono (by omega)
  · have hw := reaches_of_taken ‹_›
    split
    · exact (writeFull_access hw (by omega) h).mono (by omega)
    · exact writePartial_access hw (by omega) h

theorem readPacketWord_access {a : Nat} (h : WordAccess (Reaches p) n s t) :
    WordAccess (Reaches p) (n + 2) s (readPacketWord p a t).2 := by
  unfold readPacketWord
  split
  · exact h.mono (by omega)
  · have hw := reaches_of_taken ‹_›
    exact readWord_access (by rwa [Nat.mul_div_cancel _ (by decide)]) h

/-- The words of a write make at most two records each. -/
theorem writeWords_access {ws : List ((Nat × Nat) × List Byte)}
    (fits : ∀ w ∈ ws, w.1.1 % 8 + w.1.2 ≤ 8 ∧ w.2.length ≤ w.1.2)
    (h : WordAccess (Reaches p) n s t) :
    WordAccess (Reaches p) (n + 2 * ws.length) s (ws.foldl (fun s w => writeWord p w s) t) := by
  induction ws generalizing n t with
  | nil => exact h
  | cons w ws ih =>
    obtain ⟨word, len⟩ := fits w List.mem_cons_self
    exact (ih (fun x hx => fits x (List.mem_cons_of_mem _ hx)) (writeWord_access word len h)).mono
      (by rw [List.length_cons]; omega)

/-- The words of a read make at most two records each. -/
theorem readPacket_access {as : List Nat} (h : WordAccess (Reaches p) n s t) :
    WordAccess (Reaches p) (n + 2 * as.length) s (readPacket p as t).2 := by
  induction as generalizing n t with
  | nil => exact h
  | cons a as ih => exact (ih (readPacketWord_access h)).mono (by rw [List.length_cons]; omega)

/-- A read of an unpopulated word is answered with Sepia (R18). -/
theorem readPacket_unpopulated {as : List Nat} {i a : Nat} (hi : as[i]? = some a) (ha : populated p a = false) :
    (readPacket p as t).1[i]? = some none := by
  induction as generalizing i t with
  | nil => cases hi
  | cons b as ih =>
    cases i with
    | zero =>
      cases hi
      show some (readPacketWord p a t).1 = some none
      rw [readPacketWord, if_pos (by simp [ha])]
    | succ i => exact ih hi

end Packet

/-- The record of an unpopulated word (R18). -/
def unpopulatedEvent (p : DataPacket) (a : Nat) : Event :=
  { unit := 0x84, cls := 0x0B, ev := 3, sev := .warning, detail := a, domain := p.domain.val }

/-- The first unpopulated word of a packet is reported, if it has one (R18). -/
def reportUnpopulated (p : DataPacket) (s : State) : State :=
  match (wordsOf p).find? fun w => !populated p w.1 with
  | some w => report (unpopulatedEvent p w.1) s
  | none => s

theorem reportUnpopulated_mem (p : DataPacket) (s : State) : (reportUnpopulated p s).mem = s.mem := by
  unfold reportUnpopulated
  split
  · exact report_mem _ _
  · rfl

/-- The words that a packet's read answers with, and the state after it. -/
def servedRead (p : DataPacket) (s : State) : List (Option Nat) × State :=
  readPacket p ((wordsOf p).map (·.1)) (upsetWord p (reportUnpopulated p s))

theorem servePacket_read {p : DataPacket} (h : p.write = none) (s : State) :
    servePacket p s =
      countHbm 0x84 p.addr.toNat p.len (send (.delivered p.addr.toNat (servedRead p s).1) (servedRead p s).2) := by
  unfold servePacket
  rw [h]
  rfl

theorem servePacket_write {p : DataPacket} {bs : List Byte} (h : p.write = some bs) (s : State) :
    servePacket p s = countHbm 0x85 p.addr.toNat bs.length
      ((writePieces (wordsOf p) bs).foldl (fun s w => writeWord p w s) (upsetWord p (reportUnpopulated p s))) := by
  unfold servePacket
  rw [h]
  rfl

/-- After the report of an unpopulated word, a packet reaches its populated words alone, and makes at most one record for what
the device reports and two for each word. -/
theorem servePacket_access (p : DataPacket) (s : State) :
    WordAccess (Reaches p) (1 + 2 * (wordsOf p).length) (reportUnpopulated p s) (servePacket p s) := by
  have upset : WordAccess (Reaches p) 1 (reportUnpopulated p s) (upsetWord p (reportUnpopulated p s)) :=
    upsetWord_access WordAccess.refl
  cases hp : p.write with
  | none =>
    rw [servePacket_read hp]
    have read := readPacket_access (as := (wordsOf p).map (·.1)) upset
    rw [List.length_map] at read
    exact countHbm_keeps (shows_access (by decide)) (send_keeps (shows_access (by decide)) read)
  | some bs =>
    rw [servePacket_write hp]
    have written := writeWords_access (ws := writePieces (wordsOf p) bs)
      (fun x hx => ⟨packetWords_fits _ (writePieces_fits x hx).1, (writePieces_fits x hx).2⟩) upset
    rw [length_writePieces] at written
    exact countHbm_keeps (shows_access (by decide)) written

/-- The record of a packet's first unpopulated word waits in the queue when the packet has been served, if the queue had room
for every record that it could make. -/
theorem servePacket_records {p : DataPacket} {s : State} {w : Nat × Nat}
    (hw : (wordsOf p).find? (fun x => !populated p x.1) = some w)
    (room : s.log.queue.length + 3 * (wordsOf p).length + 2 ≤ 256) :
    ∃ q ∈ (servePacket p s).log.queue, q.entry = recordOf s (unpopulatedEvent p w.1) := by
  obtain ⟨q, hq, queued⟩ := report_queue (e := unpopulatedEvent p w.1) (s := s) (by omega)
  have reported : reportUnpopulated p s = report (unpopulatedEvent p w.1) s := by
    rw [reportUnpopulated, hw]
  have len : (reportUnpopulated p s).log.queue.length = s.log.queue.length + 1 := by
    rw [reported, queued, List.length_append, List.length_singleton]
  have kept := ((servePacket_access p s).queue (by omega)).1
  refine ⟨q, kept.mem ?_, hq⟩
  rw [reported, queued]
  exact List.mem_append_right _ (List.mem_singleton.mpr rfl)

/-- A write of an unpopulated word is discarded, and nothing else changes what reads there (R18). -/
theorem servePacket_unpopulated {p : DataPacket} {s : State} {a : Nat} (ha : populated p a = false) :
    byteAt (servePacket p s) a = byteAt s a ∧ wordSynd (servePacket p s) a = wordSynd s a := by
  have hr : ¬ Reaches p (a / 8) := by simp [reaches_iff, ha]
  have served := servePacket_access p s
  refine ⟨?_, (served.synd a hr).trans ?_⟩
  · rw [byteAt_of_unpopulated ha, byteAt_of_unpopulated ha, served.cells a hr, reportUnpopulated_mem]
  · unfold wordSynd
    rw [reportUnpopulated_mem]

/-- A read sends one answer, in which every unpopulated word is Sepia (R18). -/
theorem servePacket_answer {p : DataPacket} (hp : p.write = none) (s : State) :
    ∃ l, (servePacket p s).sent = .delivered p.addr.toNat l :: s.sent ∧
      ∀ (i : Nat) (w : Nat × Nat), (wordsOf p)[i]? = some w → populated p w.1 = false → l[i]? = some none := by
  have reported : (reportUnpopulated p s).sent = s.sent := by
    unfold reportUnpopulated
    split
    · exact report_sent _ _
    · rfl
  have read : (servedRead p s).2.sent = s.sent :=
    readPacket_keeps (shows_sent_eq (by decide)) (upsetWord_keeps (shows_sent_eq (by decide)) reported)
  refine ⟨(servedRead p s).1, ?_, fun i w hi hw => readPacket_unpopulated (by rw [List.getElem?_map, hi]; rfl) hw⟩
  rw [servePacket_read hp]
  exact countHbm_keeps (shows_sent_eq (by decide)) (by rw [send_sent, read])

/-! ## Routing a packet -/

theorem exec_dataPacketRoute (p : DataPacket) (s : State) : exec (.dataPacketRoute p) s = execDataPacketRoute p s := rfl

/-- A packet whose populated words are all delivered, and that nothing holds back, is served. -/
theorem exec_dataPacketRoute_served {p : DataPacket} {s : State} (up : running s = true) (len : 0 < packetLen p)
    (delivered : ∀ w ∈ wordsOf p, populated p w.1 = true → routed s p w.1 = true) (weights : weightsRefused s p = false)
    (wait : mustWait s p = false) : exec (.dataPacketRoute p) s = .next (servePacket p s) := by
  have own : ((wordsOf p).any fun w => populated p w.1 && !routed s p w.1) = false := by
    simpa [List.any_eq_false] using delivered
  simp [exec_dataPacketRoute, execDataPacketRoute, live, up, Nat.ne_of_gt len, own, weights, wait]

/-- The record of a packet that is dropped for a foreign word (R19). -/
def foreignEvent (p : DataPacket) : Event :=
  { unit := 0x84, cls := 0x0B, ev := 2, sev := .fault, detail := p.addr.toNat, domain := p.domain.val }

/-- A packet with a word for a foreign unit is dropped, and that is recorded (R19). -/
theorem exec_dataPacketRoute_foreign {p : DataPacket} {s : State} (up : running s = true) (len : 0 < packetLen p)
    (foreign : ∃ w ∈ wordsOf p, populated p w.1 = true ∧ routed s p w.1 = false) :
    exec (.dataPacketRoute p) s = .next (report (foreignEvent p) s) := by
  have any : ((wordsOf p).any fun w => populated p w.1 && !routed s p w.1) = true := by
    simpa [List.any_eq_true] using foreign
  simp [exec_dataPacketRoute, execDataPacketRoute, live, up, Nat.ne_of_gt len, any, foreignEvent]

/-- Settles O12: the first unpopulated word is recorded before any word is served, and serving reaches the populated words
alone. -/
theorem undeliverablePacketsAreRecorded : Obligations.UndeliverablePacketsAreRecorded := by
  unfold Obligations.UndeliverablePacketsAreRecorded
  intro p s up len
  refine ⟨fun delivered weights wait => ⟨_, exec_dataPacketRoute_served up len delivered weights wait, ?records,
    fun a ha => servePacket_unpopulated ha, fun hp => servePacket_answer hp s⟩,
    fun foreign => ⟨_, exec_dataPacketRoute_foreign up len foreign, sameMemory_report _ s, report_sent _ s, report_recorded⟩⟩
  case records =>
    intro w hw room
    obtain ⟨q, hq, entry⟩ := servePacket_records hw room
    exact ⟨q, hq, by simp [entry, recordOf, unpopulatedEvent]⟩

end Sys2Proof.Machine

end

/-! # JTAG by life cycle (R480, R481)

What JTAG selects turns on one predicate, `jtagOffers`: BYPASS always, IDCODE outside SCRAPPED (life cycle 4), and the others
outside FIELD (life cycle 2) and SCRAPPED. That SAMPLE/PRELOAD, EXTEST and DEBUG do nothing but become the selected instruction
is the model's choice (log entry 73). -/

section

namespace Sys2Proof.Machine

section Select

variable {i : JtagIr} {s : State}

/-! ## The instructions offered -/

theorem jtagOffers_bypass (s : State) : jtagOffers s .bypass = true := rfl

theorem jtagOffers_idcode : jtagOffers s .idcode = true ↔ s.fuse.lc ≠ 4 := by
  simp [jtagOffers]

/-- In MANUFACTURE, DEVELOP and RMA every instruction is offered. -/
theorem jtagOffers_of_open (scrapped : s.fuse.lc ≠ 4) (field : s.fuse.lc ≠ 2) : jtagOffers s i = true := by
  cases i <;> simp [jtagOffers, scrapped, field]

/-- In FIELD and SCRAPPED nothing but BYPASS and IDCODE is offered. -/
theorem jtagOffers_of_closed (hb : i ≠ .bypass) (hi : i ≠ .idcode) (closed : s.fuse.lc = 2 ∨ s.fuse.lc = 4) :
    jtagOffers s i = false := by
  cases i with
  | bypass => exact absurd rfl hb
  | idcode => exact absurd rfl hi
  | samplePreload | extest | debug => rcases closed with lc | lc <;> simp [jtagOffers, lc]

/-! ## Selecting an instruction -/

theorem selectJtag_of_offered (h : jtagOffers s i = true) : selectJtag i s = { s with sec := { s.sec with jtag := i } } :=
  if_pos h

theorem selectJtag_of_not_offered (h : jtagOffers s i = false) : selectJtag i s = s :=
  if_neg (Bool.eq_false_iff.mp h)

theorem exec_jtagBypass (s : State) : exec .jtagBypass s = .next (selectJtag .bypass s) := rfl

theorem exec_jtagSamplePreload (s : State) : exec .jtagSamplePreload s = .next (selectJtag .samplePreload s) := rfl

theorem exec_jtagExtest (s : State) : exec .jtagExtest s = .next (selectJtag .extest s) := rfl

theorem exec_jtagDebug (s : State) : exec .jtagDebug s = .next (selectJtag .debug s) := rfl

theorem exec_jtagIdcode (s : State) : exec .jtagIdcode s =
    .next (if jtagOffers s .idcode then send (.idcode 0x0640A1C3) (selectJtag .idcode s) else s) := rfl

/-- Where IDCODE is offered, it is selected and the identification goes out (R481). -/
theorem exec_jtagIdcode_of_offered (h : jtagOffers s .idcode = true) :
    exec .jtagIdcode s = .next (send (.idcode 0x0640A1C3) { s with sec := { s.sec with jtag := .idcode } }) := by
  rw [exec_jtagIdcode, if_pos h, selectJtag_of_offered h]

theorem exec_jtagIdcode_of_not_offered (h : ¬ jtagOffers s .idcode = true) : exec .jtagIdcode s = .next s := by
  rw [exec_jtagIdcode, if_neg h]

end Select

/-- Settles O51: each instruction is selected where its life-cycle state offers it, and changes nothing elsewhere. -/
theorem jtagByLifeCycle : Obligations.JtagByLifeCycle := by
  unfold Obligations.JtagByLifeCycle
  intro s
  refine ⟨?bypass, ?idcode, ?idcodeScrapped, ?opened, ?closed⟩
  case bypass => exact ⟨_, exec_jtagBypass s, selectJtag_of_offered (jtagOffers_bypass s)⟩
  case idcode => exact fun scrapped => ⟨_, exec_jtagIdcode_of_offered (jtagOffers_idcode.mpr scrapped), rfl⟩
  case idcodeScrapped => exact fun lc => exec_jtagIdcode_of_not_offered fun offered => jtagOffers_idcode.mp offered lc
  case opened =>
    intro scrapped field
    have selects (i : JtagIr) : selectJtag i s = { s with sec := { s.sec with jtag := i } } :=
      selectJtag_of_offered (jtagOffers_of_open scrapped field)
    exact ⟨⟨_, exec_jtagSamplePreload s, selects _⟩, ⟨_, exec_jtagExtest s, selects _⟩, ⟨_, exec_jtagDebug s, selects _⟩⟩
  case closed =>
    intro lc
    have ignores {i : JtagIr} (hb : i ≠ .bypass) (hi : i ≠ .idcode) : selectJtag i s = s :=
      selectJtag_of_not_offered (jtagOffers_of_closed hb hi lc)
    simp [exec_jtagSamplePreload, exec_jtagExtest, exec_jtagDebug, ignores]

end Sys2Proof.Machine

end

section

set_option Elab.async false

namespace Sys2Proof.Machine

/-! ## The step -/

/-- Settles O1: a step takes the command at the front of the queue. -/
theorem stepRunsFrontCommand : Obligations.StepRunsFrontCommand := by
  unfold Obligations.StepRunsFrontCommand
  exact fun _ _ _ => rfl

/-- Every command answers a next state. -/
theorem exec_goes (c : Instr) (s : State) : ∃ t, exec c s = .next t := by
  cases c <;> exact ⟨_, rfl⟩

/-- A command's parts are none of a list, as a Boolean test. -/
theorem not_written {c : Instr} {l : List Part} (h : ((writes c).all fun p => !l.contains p) = true) :
    ∀ p ∈ writes c, p ∉ l := by
  rw [List.all_eq_true] at h
  exact fun p hp hl => by simpa [hl] using h p hp

/-- No command writes the queue of waiting commands. -/
theorem pending_not_written (c : Instr) : ∀ p ∈ writes c, p ∉ ([.pending] : List Part) :=
  not_written (by cases c <;> rfl)

/-- Settles O2: every meaning answers a next state, and none writes the queue. -/
theorem everyCommandGoesOn : Obligations.EveryCommandGoesOn := by
  unfold Obligations.EveryCommandGoesOn
  intro c s
  obtain ⟨t, ht⟩ := exec_goes c s
  exact ⟨t, ht, exec_keeps c (shows_pending (pending_not_written c)) rfl t ht⟩

/-! ## The commands that change a kind of state -/

theorem live_of_running {s : State} (h : running s = true) (f : State → State) : live s f = f s := if_pos h

/-- What a port does with a CAN frame that its FIFO takes (R507, R522). -/
def hearFrame (p : Nat) (f : CanFrame) (s : State) : State :=
  if f.format = .xl ∧ f.sec then unmatched (some p) s
  else if rolePort s 2 = some p ∧ (ownIds s (strapB s)).contains f.ident.toNat then
    busEvent 5 .fault (f.ident.toNat + p * 2 ^ 30) s
  else
    match filterOf s p f.ident.toNat with
    | some x => deliverState x.stream.val (frameSample f) (bump (F.VBS_RX_CNT_ACCEPTED p) s)
    | none =>
      if (s.image.bindings.any (bindingTakes s p f.ident.toNat)) || functionTakes s p f.ident.toNat then
        bump (F.VBS_RX_CNT_ACCEPTED p) s
      else unmatched (some p) s

theorem exec_canFrameRx (port : Fin 4) (f : CanFrame) (s : State) : exec (.canFrameRx port f) s =
    .next (live s fun s =>
      if fld s (F.VBS_PORT_CFG_ROLE port) = 0 ∨ f.remote = true ∨ (!modeTakes s port f.format) = true then s
      else heldBack (16 + port) (hearFrame port f) s) := rfl

theorem hearFrame_keeps {P : State → Prop}
    (C : Keeps [.indlog, .regs, .ing, .cnd, .wld, .log, .queue, .mem, .data, .twin, .sent] P) {p : Nat} {f : CanFrame}
    {s : State} (h : P s) : P (hearFrame p f s) := by
  unfold hearFrame
  refine ite_keeps (unmatched_keeps (C.mono (by decide)) h) (ite_keeps (busEvent_keeps (C.mono (by decide)) h) ?_)
  split
  · exact deliverState_keeps (C.mono (by decide)) (bump_keeps (C.mono (by decide)) h)
  · exact ite_keeps (bump_keeps (C.mono (by decide)) h) (unmatched_keeps (C.mono (by decide)) h)

theorem heldBack_of_room {i : Nat} {f : State → State} {s : State} (h : (fifoTake i s).1 = true) :
    heldBack i f s = f (fifoTake i s).2 := if_pos h

theorem heldBack_of_full {i : Nat} {f : State → State} {s : State} (h : (fifoTake i s).1 = false) :
    heldBack i f s = s := if_neg (by simp [h])

/-- What an interface's FIFO holds is of the tick in which the newest item arrived. -/
theorem fifoTake_tick (i : Nat) (s : State) : (fifoTake i s).2.fifo.tick = s.time.count := by
  unfold fifoTake
  extract_lets f n
  have now : f.tick = s.time.count := by
    unfold f
    split
    · assumption
    · rfl
  split <;> exact now

/-- The FIFO of an interface has room in a tick in which nothing has arrived yet. -/
theorem fifoTake_room {i : Nat} {s : State} (h : s.fifo.tick ≠ s.time.count) : (fifoTake i s).1 = true := by
  have : 0 < fifoDepth i := by unfold fifoDepth; omega
  simp [fifoTake, h, tabGet, this]

/-- The machine runs, its CAN port 0 has a role, and the FIFOs hold nothing of this tick. -/
def hearingCan : State :=
  { State.reset with
    pwr := { State.reset.pwr with phase := .running }, regs := [((F.VBS_PORT_CFG_ROLE 0).addr, 2 ^ 30)], fifo := ⟨1, []⟩ }

/-- A classical CAN frame. -/
def someCanFrame : CanFrame := ⟨.classical, false, false, false, 0x200, 0, 0, 0, [1]⟩

theorem hearingCan_hears : ¬(fld hearingCan (F.VBS_PORT_CFG_ROLE (0 : Fin 4)) = 0 ∨ someCanFrame.remote = true ∨
    (!modeTakes hearingCan (0 : Fin 4) someCanFrame.format) = true) := by decide +kernel

/-- Refutes O42: a CAN frame takes a place in the FIFO of its port (R36), and CAN_FRAME_RX is not among the commands that may
change the FIFOs. -/
theorem not_eachKindOfStateHasItsCommands : ¬ Obligations.EachKindOfStateHasItsCommands := by
  unfold Obligations.EachKindOfStateHasItsCommands
  intro only
  have arrives := exec_canFrameRx 0 someCanFrame hearingCan
  rw [live_of_running (by decide +kernel), if_neg hearingCan_hears, heldBack_of_room (fifoTake_room (by decide +kernel))]
    at arrives
  have same : (hearFrame 0 someCanFrame (fifoTake 16 hearingCan).2).fifo = hearingCan.fifo := only .fifo _ _ _ arrives rfl
  have taken : (hearFrame 0 someCanFrame (fifoTake 16 hearingCan).2).fifo = (fifoTake 16 hearingCan).2.fifo :=
    hearFrame_keeps (shows_fifo (by decide)) rfl
  have tick := congrArg FifoSt.tick (same.symm.trans taken)
  rw [fifoTake_tick] at tick
  exact absurd tick (by decide +kernel)

end Sys2Proof.Machine

end

section

set_option Elab.async false

namespace Sys2Proof.Machine

/-! ## Access types (R12, R13) -/

/-- Settles O8: each access type is a bitwise operation of the old value and the written one. -/
theorem accessTypesWriteBits : Obligations.AccessTypesWriteBits := by
  unfold Obligations.AccessTypesWriteBits
  intro old v i
  have clears (a b : Bool) : (a && (a ^^ b)) = (a && !b) := by cases a <;> simp
  simp [fieldWrite, clears]

/-! ## The registers of Indigo and the image (R604) -/

theorem findReg_mem {a : Nat} {l : List RegSpec} {e : RegSpec × List Nat} (h : findReg a l = some e) : e.1 ∈ l := by
  induction l with
  | nil => cases h
  | cons r l ih =>
    simp only [findReg] at h
    split at h
    · split at h
      · cases h
        exact List.mem_cons_self
      · exact List.mem_cons_of_mem _ (ih h)
    · exact List.mem_cons_of_mem _ (ih h)

/-- The field's reset value is the image's (R546). -/
def FieldSpec.fromImage (f : FieldSpec) : Bool :=
  match f.src with
  | .image _ => true
  | _ => false

theorem fieldReset_of_not_fromImage {f : FieldSpec} (h : f.fromImage = false) (img img' : Image) (a : Nat) (ix : List Nat) :
    fieldReset img a ix f = fieldReset img' a ix f := by
  unfold FieldSpec.fromImage at h
  unfold fieldReset
  split at h
  · cases h
  · split <;> simp_all

theorem rowReset_of_not_fromImage {r : RegSpec} (h : ∀ f ∈ r.fields, f.fromImage = false) (img img' : Image) (a : Nat)
    (ix : List Nat) : rowReset img a r ix = rowReset img' a r ix := by
  unfold rowReset
  rw [List.map_congr_left fun f hf => by rw [fieldReset_of_not_fromImage (h f hf) img img']]

theorem regsInd_not_fromImage : ∀ r ∈ regsInd, ∀ f ∈ r.fields, f.fromImage = false := by decide

theorem liveReg_indigo {a : Nat} (h : a / 0x10000 = 0xF0) {e : RegSpec × List Nat} (he : liveReg a = some e) :
    ∀ f ∈ e.1.fields, f.fromImage = false := by
  have rows : blockRows a = regsInd := by
    unfold blockRows
    iterate 13 rw [if_neg (by omega)]
    rw [if_pos (by omega)]
  rw [liveReg, rows] at he
  exact regsInd_not_fromImage _ (findReg_mem he)

theorem stagedReg_live {a : Nat} {e : RegSpec × List Nat} (h : stagedReg a = some e) :
    a / 0x8000 % 2 = 1 ∧ liveReg (a - 0x8000) = some e := by
  unfold stagedReg at h
  split at h
  · rename_i odd
    split at h
    · rename_i live
      split at h
      · exact ⟨odd, h ▸ live⟩
      · cases h
    · cases h
  · cases h

/-- No register of Indigo's block takes its reset value from the image. -/
theorem resetWord_indigo {a : Nat} (h : a / 0x10000 = 0xF0) (img img' : Image) : resetWord img a = resetWord img' a := by
  unfold resetWord
  split
  · rename_i live
    exact rowReset_of_not_fromImage (liveReg_indigo h live) ..
  · split
    · rename_i staged
      obtain ⟨odd, live⟩ := stagedReg_live staged
      exact rowReset_of_not_fromImage (liveReg_indigo (by omega) live) ..
    · rfl

/-! ## The invariant over every change -/

/-- Canonical registers stay canonical when some are reset. -/
theorem regs_wf_filter {img : Image} {t : Tab Nat} {p : Nat × Nat → Bool} (h : Regs.wf img t) : Regs.wf img (t.filter p) :=
  ⟨h.1.filter p, fun e he => h.2 e (List.mem_filter.mp he).1⟩

theorem indigoRegs_wf {s : State} (h : Regs.wf s.image s.regs) (img : Image) : Regs.wf img (indigoRegs s) := by
  refine ⟨h.1.filter _, fun e he => ?_⟩
  obtain ⟨mem, block⟩ := List.mem_filter.mp he
  rw [resetWord_indigo (of_decide_eq_true block) img s.image]
  exact h.2 e mem

/-- Canonical registers stay canonical through the loss of VBAT_AO and a cold start too: only a new image could change them. -/
theorem keeps_regs_wf {W : List Part} (h : ∀ p ∈ W, p ≠ .image) : Keeps W fun t => Regs.wf t.image t.regs := by
  intro p hp
  by_cases plain : p ∈ ([.image, .vbat, .cold] : List Part)
  · rcases List.mem_cons.mp plain with rfl | plain
    · exact absurd rfl (h _ hp)
    · rcases List.mem_cons.mp plain with rfl | plain
      · exact fun s wf => regs_wf_filter wf
      · obtain rfl := List.mem_singleton.mp plain
        exact fun e s wf => indigoRegs_wf wf _
  · exact shows_regs_wf (W := [p]) (by simpa using plain) p (by simp)

/-- A cold start leaves canonical memories. -/
theorem keeps_memory_wf {W : List Part} : Keeps W fun t => Memory.wf t.mem := by
  intro p hp
  by_cases cold : p = .cold
  · subst cold
    exact fun e s wf => ⟨⟨List.Pairwise.nil, by simp [coldState, MemSt.initial]⟩, List.Pairwise.nil, by simp [coldState, MemSt.initial]⟩
  · exact shows_memory_wf (W := [p]) (by simpa using cold) p (by simp)

/-- The record queue keeps its bound (R425). -/
theorem keeps_queue_le {W : List Part} : Keeps W fun t => t.log.queue.length ≤ 256 := by
  intro p hp
  cases p
  case queue => exact fun s x ex h => ex h
  case log => exact fun s x ex h => (congrArg List.length ex).trans_le h
  case cold => exact fun e s h => Nat.zero_le _
  all_goals
    simp only [Part.Kept]
    intros
    assumption

/-- The retention log keeps its bound (R606). -/
theorem keeps_indigo_le {W : List Part} : Keeps W fun t => t.ind.log.length ≤ 64 := by
  intro p hp
  cases p
  case ind => exact fun s x ex h => (congrArg List.length ex).trans_le h
  case indlog => exact fun s x ex h => ex
  case vbat => exact fun s h => Nat.zero_le _
  case cold => exact fun e s h => h
  all_goals
    simp only [Part.Kept]
    intros
    assumption

theorem inv_iff {s : State} : Inv s ↔ Regs.wf s.image s.regs ∧ Memory.wf s.mem ∧ s.log.queue.length ≤ 256 ∧
    s.ind.log.length ≤ 64 ∧ Shape s :=
  ⟨fun ⟨r, m, q, i, h⟩ => ⟨r, m, q, i, h⟩, fun ⟨r, m, q, i, h⟩ => ⟨r, m, q, i, h⟩⟩

/-- The invariant survives every change but that of the image alone. -/
theorem keeps_inv {W : List Part} (h : ∀ p ∈ W, p ≠ .image) : Keeps W Inv := by
  simp only [funext fun s => propext (inv_iff (s := s))]
  exact (keeps_regs_wf h).and (keeps_memory_wf.and (keeps_queue_le.and (keeps_indigo_le.and shows_shape)))

/-- No command writes the image but through a cold start. -/
theorem image_not_written (c : Instr) : ∀ p ∈ writes c, p ≠ .image := by
  have apart := not_written (c := c) (l := [.image]) (by cases c <;> rfl)
  exact fun p hp e => apart p hp (by simp [e])

theorem exec_keeps_inv {c : Instr} {s t : State} (h : Inv s) (e : exec c s = .next t) : Inv t :=
  exec_keeps c (keeps_inv (image_not_written c)) h t e

/-- Settles O3: the invariant survives each part that a command writes, and what the clock writes. -/
theorem stepKeepsInvariant : Obligations.StepKeepsInvariant := by
  unfold Obligations.StepKeepsInvariant
  intro s t inv goes
  unfold step at goes
  split at goes
  · exact idle_keeps (keeps_inv (by decide)) inv t goes
  · exact exec_keeps_inv (Keeps.upd_pending (W := [.pending]) (keeps_inv (by decide)) (by decide) inv) goes

/-! ## Reset -/

/-- Nothing is stored at reset: each structure of the machine lies in a memory that stands wiped. -/
theorem placedByte_reset (a : Nat) : placedByte State.reset a = 0 := by
  unfold placedByte
  split
  · rfl
  · rename_i h
    have standing : ∀ r ∈ sramRanges, ¬(r.1 ≤ a ∧ a < r.1 + r.2) := by
      simpa [blanked, State.reset, MemSt.initial] using h
    simp only [sramRanges, List.forall_mem_cons] at standing
    obtain ⟨sweep, -, cache, store, select, -⟩ := standing
    unfold structByte
    split
    · rfl
    · rw [if_neg (by omega)]

/-- Settles O4: the sparse tables are empty at reset and the lists have their lengths. -/
theorem resetStandsSafeAndWellFormed : Obligations.ResetStandsSafeAndWellFormed := by
  unfold Obligations.ResetStandsSafeAndWellFormed Sys2Proof.Claims.ResetHasInvariant Sys2Proof.Claims.ResetStandsSafe
  refine ⟨⟨⟨List.Pairwise.nil, by simp [State.reset]⟩, ⟨⟨List.Pairwise.nil, by simp [State.reset, MemSt.initial]⟩, List.Pairwise.nil, by simp [State.reset, MemSt.initial]⟩,
    by decide, by decide, ⟨by decide, by decide, by decide, ⟨by decide, List.Pairwise.nil, List.Pairwise.nil⟩, ⟨List.Pairwise.nil, List.Pairwise.nil⟩, List.Pairwise.nil⟩⟩,
    rfl, rfl, rfl, rfl, fun a => ⟨?_, rfl⟩, fun a => rfl⟩
  rw [byteAt, placedByte_reset]
  simp [State.reset, MemSt.initial, tabGet]

end Sys2Proof.Machine

end

section

set_option Elab.async false

namespace Sys2Proof.Machine

/-! ## A doubt stands (R390, R393)

Of what a frame's commands do, only the end of a replay that a restart forces writes the frame's number (R591), and it leaves the
frame's doubts. -/

/-- The running frame has a doubt. -/
def Doubtful (b : Nat) (s : State) : Prop := s.frame.flags.getLsbD b = true

/-- A doubt survives every change but those of the frame's number. -/
theorem keeps_doubtful {W : List Part} {b : Nat} (h : ∀ p ∈ W, p ∉ ([.num, .cold] : List Part)) : Keeps W (Doubtful b) :=
  shows_doubt h

section
variable {b : Nat} {s : State}

theorem leaveReplay_doubtful (h : Doubtful b s) : Doubtful b (leaveReplay s) := by
  unfold leaveReplay
  exact ite_keeps h (setFld_keeps (keeps_doubtful (by decide)) h)

theorem triggerRestart_doubtful (t : RestartTrigger) (doubt : Bool) (h : Doubtful b s) : Doubtful b (triggerRestart t doubt s) := by
  have keeps {W : List Part} := keeps_doubtful (W := W) (b := b)
  unfold triggerRestart
  split
  · exact report_keeps (keeps (by decide)) (Keeps.upd_restart (W := [.restart]) (keeps (by decide)) (by decide) h)
  · refine ite_keeps (refuseRestart_keeps (keeps (by decide)) h) ?_
    have left := refuseSwaps_keeps (reason_1 := 7) (keeps (by decide)) (leaveReplay_doubtful h)
    have halted := haltFabric_keeps (keeps (by decide)) (report_keeps (e_1 :=
      { unit := 0x90, cls := 0x09, ev := 4, sev := if t = .conductor then .fault else openSev 1, detail := triggerCode t, doubt := doubt })
      (keeps (by decide)) left)
    exact setSat_keeps (keeps (by decide)) (setFlag_keeps (keeps (by decide))
      (Keeps.upd_restart (W := [.restart]) (keeps (by decide)) (by decide) halted))

theorem conductorFaulty_doubtful (h : Doubtful b s) : Doubtful b (conductorFaulty s) :=
  triggerRestart_doubtful _ _ (markDoubt_keeps (keeps_doubtful (by decide)) (revokeWhere_keeps (keeps_doubtful (by decide)) h))

theorem takeSafeCtlRestart_doubtful (r : Requester) (h : Doubtful b s) : Doubtful b (takeSafeCtlRestart r s) := by
  unfold takeSafeCtlRestart
  exact live_keeps (keeps_doubtful (by decide)) h fun s h =>
    ite_keeps (triggerRestart_doubtful _ _ h) (refuseAccess_keeps (keeps_doubtful (by decide)) h)

theorem disagree_doubtful (f : MadFail) (t : Traj) (h : Doubtful b s) : Doubtful b (disagree f t s) := by
  have keeps {W : List Part} := keeps_doubtful (W := W) (b := b)
  unfold disagree
  extract_lets detail old d s1 _ s2 s3
  have marked : Doubtful b s1 := doubtEvent_keeps (keeps (by decide)) h
  have captured : Doubtful b s2 :=
    capture_keeps (keeps (by decide)) (bump_keeps (keeps (by decide)) (Keeps.upd_mad (W := [.mad]) (keeps (by decide)) (by decide) marked))
  have implicated : Doubtful b s3 := secondDis_keeps (keeps (by decide)) (showDis_keeps (keeps (by decide)) captured)
  exact ite_keeps (triggerRestart_doubtful _ _ (report_keeps (keeps (by decide)) implicated)) implicated

theorem verdictOwn_doubtful (u : Option Upset) (h : Doubtful b s) : Doubtful b (verdictOwn u s) := by
  have keeps {W : List Part} := keeps_doubtful (W := W) (b := b)
  have judged : Doubtful b (judgeOwn u s) := by
    unfold judgeOwn
    split
    · exact h
    · rename_i t _
      have done := phaseDone_keeps (p_1 := 4) (keeps (by decide)) (pickFail_keeps (fs_1 := madderFails s t.record t.keepOut (edgePose s))
        (u_2 := u) (keeps (by decide)) h)
      extract_lets r s1
      split
      · exact Keeps.upd_frame_mad (W := [.frame, .mad]) (keeps (by decide)) (by decide) done
      · exact disagree_doubtful _ _ (Keeps.upd_frame_mad (W := [.frame, .mad]) (keeps (by decide)) (by decide) done)
  unfold verdictOwn
  refine ite_keeps h ?_
  extract_lets s1
  split <;> exact sendVerdict_keeps (keeps (by decide)) judged

/-- What a register write starts, but for one that opens or ends a replay. -/
theorem writeAction_doubtful {r : Requester} {reg : RegSpec} {ix : List Nat} {a v : Nat} (ha : a ≠ F.SUP_REPLAY_CTL_ENTER.addr)
    (h : Doubtful b s) : Doubtful b (writeAction r reg ix a v s) := by
  have keeps {W : List Part} := keeps_doubtful (W := W) (b := b)
  unfold writeAction
  split
  · exact ite_keeps (clearCounter_keeps (keeps (by decide)) h) h
  · refine ite_keeps ?stop (ite_keeps ?quarantine (ite_keeps ?release (ite_keeps ?inf (ite_keeps ?slv (ite_keeps ?swap ?rest)))))
    case stop =>
      have stopped : Doubtful b (takeSafeCtlStop r s) := takeSafeCtlStop_keeps (keeps (by decide)) h
      exact ite_keeps (takeSafeCtlRestart_doubtful r (ite_keeps stopped h)) (ite_keeps stopped h)
    case quarantine => exact takeStwQuarWrite_keeps (keeps (by decide)) h
    case release => exact takeSwpStwRelease_keeps (keeps (by decide)) h
    case inf => exact foldl_keeps (fun _ _ h => ite_keeps (takeInfRelease_keeps (keeps (by decide)) h) h) _ _ h
    case slv => exact takeSlvRelease_keeps (keeps (by decide)) h
    case swap =>
      have requested (n : BitVec 13) : Doubtful b (takeSwapRequest r n ⟨[], none, false⟩ s) := takeSwapRequest_keeps (keeps (by decide)) h
      exact ite_keeps (takeSwapCancel_keeps (keeps (by decide)) (ite_keeps (requested _) h)) (ite_keeps (requested _) h)
    case rest =>
      rw [if_neg ha]
      exact ite_keeps (ite_keeps (takeKxGo_keeps (keeps (by decide)) h) h)
        (ite_keeps (ite_keeps (takeLcGo_keeps (keeps (by decide)) h) h)
          (ite_keeps (ite_keeps (takeWatchdogKick_keeps (keeps (by decide)) h) h)
            (ite_keeps (ite_keeps (takeSleep_keeps (keeps (by decide)) h) h) h)))

theorem storeReg_doubtful {r : Requester} {reg : RegSpec} {ix : List Nat} {a v : Nat} (ha : a ≠ F.SUP_REPLAY_CTL_ENTER.addr)
    (h : Doubtful b s) : Doubtful b (storeReg r reg ix a v s) := by
  have keeps {W : List Part} := keeps_doubtful (W := W) (b := b)
  unfold storeReg
  have stored (w : Nat) : Doubtful b (setReg s a w) := setReg_keeps (keeps (by decide)) h
  exact ite_keeps h (ite_keeps (writeAction_doubtful ha h) (ite_keeps (takeVcoreTargetWrite_keeps (keeps (by decide)) h)
    (writeAction_doubtful ha (ite_keeps (disableRings_keeps (keeps (by decide)) (stored _)) (stored _)))))

theorem takeRegisterWrite_doubtful {r : Requester} {a : Nat} {v : Word32} (ha : a ≠ F.SUP_REPLAY_CTL_ENTER.addr)
    (h : Doubtful b s) : Doubtful b (takeRegisterWrite r a v s) := by
  have keeps {W : List Part} := keeps_doubtful (W := W) (b := b)
  unfold takeRegisterWrite
  refine live_keeps (keeps (by decide)) h fun s h => ?_
  split
  · exact ite_keeps (refuseAccess_keeps (keeps (by decide)) h)
      (ite_keeps (unprescribedWrite_keeps (keeps (by decide)) h) (storeReg_doubtful ha h))
  · split
    · exact stageWrite_keeps (keeps (by decide)) h
    · exact refuseAccess_keeps (keeps (by decide)) h

end

section
variable {b : Nat} {s t : State}

theorem exec_doubtful_of_not_written {c : Instr} (free : ((writes c).all fun p => !([.num, .cold] : List Part).contains p) = true)
    (h : Doubtful b s) (e : exec c s = .next t) : Doubtful b t :=
  exec_keeps c (keeps_doubtful (not_written free)) h t e

end

/-- Settles O32: the commands that write the frame's number and replace no frame do so by a forced end of a replay alone. -/
theorem doubtStandsToTheFramesEnd : Obligations.DoubtStandsToTheFramesEnd := by
  unfold Obligations.DoubtStandsToTheFramesEnd
  intro c s t b goes stays h
  have keeps {W : List Part} := keeps_doubtful (W := W) (b := b)
  have h : Doubtful b s := h
  change Doubtful b t
  cases c
  case frameEdge => exact absurd trivial stays
  case replayUnit => exact absurd trivial stays
  case replayEnter => exact absurd trivial stays
  case replayExit => exact absurd trivial stays
  case porRelease => exact absurd trivial stays
  case revocationConfirmTimeout unit =>
    exact next_keeps (live_keeps (keeps (by decide)) h fun s h =>
      ite_keeps (conductorFaulty_doubtful (revokeWhere_keeps (keeps (by decide)) h)) h) t goes
  case edgeAckTimeout => exact next_keeps (fabric_keeps (keeps (by decide)) h fun s h => ite_keeps (conductorFaulty_doubtful h) h) t goes
  case selectTestDone o =>
    exact next_keeps (fabric_keeps (keeps (by decide)) h fun s h => ite_keeps h (triggerRestart_doubtful _ _
      (report_keeps (keeps (by decide)) (setFlag_keeps (keeps (by decide)) (Keeps.upd_sel (W := [.sel]) (keeps (by decide)) (by decide) h))))) t goes
  case madderVerdict twin u =>
    exact next_keeps (fabric_keeps (keeps (by decide)) h fun s h => ite_keeps h (tryEmit_keeps (keeps (by decide))
      (countOpen_keeps (keeps (by decide)) (fun _ _ _ h => countDie_keeps (keeps (by decide)) h)
        (ite_keeps (verdictTwin_keeps (keeps (by decide)) h) (verdictOwn_doubtful u h))))) t goes
  case doubtPersist => exact next_keeps (live_keeps (keeps (by decide)) h fun s h => ite_keeps (triggerRestart_doubtful _ _ h) h) t goes
  case fabricRestart trig env =>
    exact next_keeps (live_keeps (keeps (by decide)) h fun s h =>
      runRestart_keeps (keeps (by decide)) (ite_keeps (triggerRestart_doubtful _ _ h) h)) t goes
  case safeCtlRestart r => exact next_keeps (takeSafeCtlRestart_doubtful r h) t goes
  case registerWrite r a v => exact next_keeps (takeRegisterWrite_doubtful (fun e => stays e) h) t goes
  all_goals exact exec_doubtful_of_not_written rfl h goes

end Sys2Proof.Machine

end

section

set_option Elab.async false

/-! # What the shared operations leave as it was -/

namespace Sys2Proof.Machine

/-! ## What survives changes of parts -/

/-- What is said of something that the changes leave survives them. -/
theorem Part.Kept.of_shows {α : Type} {f : State → α} {p : Part} (h : ∀ x, p.Kept fun t => f t = x) (Q : α → Prop) :
    p.Kept fun t => Q (f t) := by
  cases p
  case regs => exact fun s a w q => (congrArg Q (h (f s) s a w rfl)).mpr q
  case vbat => exact fun s q => (congrArg Q (h (f s) s rfl)).mpr q
  case cold => exact fun e s q => (congrArg Q (h (f s) e s rfl)).mpr q
  case stop | fuse | image | num | epoch | held | umb | mad | acked | boot | inf | pair | swap | sec | bus | och | replay | obs | arb |
      fifo | latches | free | pending =>
    exact fun s x q => (congrArg Q (h (f s) s x rfl)).mpr q
  all_goals exact fun s x c q => (congrArg Q (h (f s) s x c rfl)).mpr q

theorem Part.Kept.all {α : Sort*} {P : α → State → Prop} {p : Part} (h : ∀ a, p.Kept (P a)) : p.Kept fun t => ∀ a, P a t := by
  cases p
  case regs => exact fun s a w q b => h b s a w (q b)
  case vbat => exact fun s q b => h b s (q b)
  case stop | fuse | image | num | epoch | held | umb | mad | acked | boot | inf | pair | swap | sec | bus | och | replay | obs | arb |
      fifo | latches | free | pending | cold =>
    exact fun s x q b => h b s x (q b)
  all_goals exact fun s x c q b => h b s x c (q b)

section
variable {W : List Part}

theorem Keeps.of_shows {α : Type} {f : State → α} (h : ∀ x, Keeps W fun t => f t = x) (Q : α → Prop) : Keeps W fun t => Q (f t) :=
  fun p hp => .of_shows (fun x => h x p hp) Q

theorem Keeps.all {α : Sort*} {P : α → State → Prop} (h : ∀ a, Keeps W (P a)) : Keeps W fun t => ∀ a, P a t :=
  fun p hp => .all fun a => h a p hp

/-- Two things that the changes leave. -/
theorem Keeps.both {α β : Type} {f : State → α} {g : State → β} (hf : ∀ x, Keeps W fun t => f t = x) (hg : ∀ x, Keeps W fun t => g t = x)
    (x : α × β) : Keeps W fun t => (f t, g t) = x := by
  have e : (fun t => (f t, g t) = x) = fun t => f t = x.1 ∧ g t = x.2 := funext fun t => propext Prod.ext_iff
  rw [e]
  exact (hf x.1).and (hg x.2)

end

/-! ## Guards -/

section
variable {s : State} {f : State → State}

theorem fabric_of_up (h : fabricUp s = true) (f : State → State) : fabric s f = f s := if_pos h

/-- A command that does something only while the device runs goes on to what it then does. -/
theorem goes_live {c : Instr} {Q : State → Prop} (up : running s = true) (e : exec c s = .next (live s f)) (q : Q (f s)) :
    Goes c s Q := ⟨f s, by rw [e, live_of_running up], q⟩

/-- A command that does something only while the fabric works goes on to what it then does. -/
theorem goes_fabric {c : Instr} {Q : State → Prop} (up : fabricUp s = true) (e : exec c s = .next (fabric s f)) (q : Q (f s)) :
    Goes c s Q := ⟨f s, by rw [e, fabric_of_up up], q⟩

/-- A command that leaves a running device as it is. -/
theorem idle_live {c : Instr} (e : exec c s = .next (live s f)) (h : f s = s) : exec c s = .next s := by
  rw [e]
  unfold live
  split
  · rw [h]
  · rfl

theorem idle_fabric {c : Instr} (e : exec c s = .next (fabric s f)) (h : f s = s) : exec c s = .next s := by
  rw [e]
  unfold fabric
  split
  · rw [h]
  · rfl

theorem running_of_fabricUp (h : fabricUp s = true) : running s = true := (Bool.and_eq_true_iff.mp h).1

end

/-! ## Registers -/

section
variable {s t u : State}

/-- The registers of a state read the same where only other parts differ. -/
theorem regWord_congr (hi : t.image = s.image) (hr : t.regs = s.regs) (a : Nat) : regWord t a = regWord s a := by
  rw [regWord, regWord, hi, hr]

theorem SameRegsBut.refl (l : List Nat) (s : State) : SameRegsBut l s s := fun _ _ => rfl

theorem SameRegsBut.trans {l : List Nat} (h : SameRegsBut l s t) (g : SameRegsBut l t u) : SameRegsBut l s u :=
  fun a ha => (g a ha).trans (h a ha)

theorem SameRegsBut.mono {l m : List Nat} (h : SameRegsBut l s t) (g : l ⊆ m) : SameRegsBut m s t :=
  fun a ha => h a fun ha' => ha (g ha')

/-- A field outside the list reads as before. -/
theorem SameRegsBut.fld {l : List Nat} (h : SameRegsBut l s t) {f : Fld} (g : f.addr ∉ l) : fld t f = fld s f := by
  unfold Machine.fld
  rw [h _ g]

theorem SameRegsBut.flag {l : List Nat} (h : SameRegsBut l s t) {f : Fld} (g : f.addr ∉ l) : flag t f = flag s f := by
  unfold Machine.flag
  rw [h.fld g]

theorem setReg_same {a w : Nat} : SameRegsBut [a] s (setReg s a w) :=
  fun _ ha => regWord_setReg_ne fun e => ha (List.mem_singleton.mpr e)

theorem setFld_same {f : Fld} {v : Nat} : SameRegsBut [f.addr] s (setFld f v s) := setReg_same

theorem bump_same {f : Fld} : SameRegsBut [f.addr] s (bump f s) := setReg_same

theorem fld_report {f : Fld} {e : Event} (h : f.addr ≠ F.WDN_FLOG_STAT_SEQ.addr) : fld (report e s) f = fld s f :=
  (report_regs e s).fld fun m => h (List.mem_singleton.mp m)

theorem flag_report {f : Fld} {e : Event} (h : f.addr ≠ F.WDN_FLOG_STAT_SEQ.addr) : flag (report e s) f = flag s f := by
  unfold flag
  rw [fld_report h]

/-- A counter that is advanced counts, and stays at its largest value. -/
theorem counted_bump {f : Fld} (h : Regs.wf s.image s.regs) (g : f.ok) : Counted f s (bump f s) := by
  have small : fld s f < 2 ^ fldWidth f := bitsOf_lt _ _ _
  show fld (setFld f _ s) f = _
  rw [fld_setFld_same h g]
  show satAdd (fldWidth f) (fld s f) 1 % 2 ^ fldWidth f = _
  have pos : 0 < 2 ^ fldWidth f := Nat.two_pow_pos _
  unfold satAdd
  exact Nat.mod_eq_of_lt (by omega)

/-- A one-bit field reads as it was set. -/
theorem flag_setFlag_same {f : Fld} {b : Bool} (h : Regs.wf s.image s.regs) (g : f.ok) : flag (setFlag f b s) f = b := by
  have one : 1 % 2 ^ (f.hi - f.lo + 1) = 1 := Nat.mod_eq_of_lt (Nat.one_lt_two_pow (by omega))
  unfold flag setFlag
  rw [fld_setFld_same h g]
  cases b <;> simp [one]

end

/-! ## Reports and refusals -/

section
variable {s : State}

/-- What writes only registers and the log leaves the rest. -/
theorem keeps_rest_log : Keeps [.regs, .ind, .indlog, .log, .queue] fun t => t = { s with regs := t.regs, ind := t.ind, log := t.log } := by
  intro p hp
  cases p
  case regs => exact fun t a w h => congrArg (fun u : State => { u with regs := (setReg t a w).regs }) h
  case ind => exact fun t x _ h => congrArg (fun u : State => { u with ind := x }) h
  case indlog => exact fun t x _ h => congrArg (fun u : State => { u with ind := x }) h
  case log => exact fun t x _ h => congrArg (fun u : State => { u with log := x }) h
  case queue => exact fun t x _ h => congrArg (fun u : State => { u with log := x }) h
  all_goals exact absurd hp (by decide)

theorem report_rest (e : Event) : report e s = { s with regs := (report e s).regs, ind := (report e s).ind, log := (report e s).log } :=
  report_keeps (keeps_rest_log.mono (by decide)) rfl

section
variable {e : Event}

@[simp] theorem report_time : (report e s).time = s.time := by rw [report_rest]
@[simp] theorem report_pwr : (report e s).pwr = s.pwr := by rw [report_rest]
@[simp] theorem report_fuse : (report e s).fuse = s.fuse := by rw [report_rest]
@[simp] theorem report_image : (report e s).image = s.image := by rw [report_rest]
@[simp] theorem report_ing : (report e s).ing = s.ing := by rw [report_rest]
@[simp] theorem report_frame : (report e s).frame = s.frame := by rw [report_rest]
@[simp] theorem report_cnd : (report e s).cnd = s.cnd := by rw [report_rest]
@[simp] theorem report_wld : (report e s).wld = s.wld := by rw [report_rest]
@[simp] theorem report_held : (report e s).held = s.held := by rw [report_rest]
@[simp] theorem report_umb : (report e s).umb = s.umb := by rw [report_rest]
@[simp] theorem report_mad : (report e s).mad = s.mad := by rw [report_rest]
@[simp] theorem report_safe : (report e s).safe = s.safe := by rw [report_rest]
@[simp] theorem report_boot : (report e s).boot = s.boot := by rw [report_rest]
@[simp] theorem report_inf : (report e s).inf = s.inf := by rw [report_rest]
@[simp] theorem report_mem_same : (report e s).mem = s.mem := by rw [report_rest]
@[simp] theorem report_swp : (report e s).swp = s.swp := by rw [report_rest]
@[simp] theorem report_sel : (report e s).sel = s.sel := by rw [report_rest]
@[simp] theorem report_slv : (report e s).slv = s.slv := by rw [report_rest]
@[simp] theorem report_twin : (report e s).twin = s.twin := by rw [report_rest]
@[simp] theorem report_swap : (report e s).swap = s.swap := by rw [report_rest]
@[simp] theorem report_sec : (report e s).sec = s.sec := by rw [report_rest]
@[simp] theorem report_bus : (report e s).bus = s.bus := by rw [report_rest]
@[simp] theorem report_och : (report e s).och = s.och := by rw [report_rest]
@[simp] theorem report_replay : (report e s).replay = s.replay := by rw [report_rest]
@[simp] theorem report_obs : (report e s).obs = s.obs := by rw [report_rest]
@[simp] theorem report_arb : (report e s).arb = s.arb := by rw [report_rest]
@[simp] theorem report_fifo : (report e s).fifo = s.fifo := by rw [report_rest]
@[simp] theorem report_latches : (report e s).latches = s.latches := by rw [report_rest]
@[simp] theorem report_sent_same : (report e s).sent = s.sent := by rw [report_rest]
@[simp] theorem report_free : (report e s).free = s.free := by rw [report_rest]
@[simp] theorem report_pending : (report e s).pending = s.pending := by rw [report_rest]

end

/-- An access that R23 refuses. -/
theorem refused_refuseAccess (r : Requester) (a : Nat) (s : State) : Refused r a s (refuseAccess r a s) := by
  refine ⟨?sent, fun room => report_recorded room, report_regs _ s,
    congrArg (fun u : State => { u with sent := (refuseAccess r a s).sent }) (report_rest _)⟩
  show _ :: (report _ s).sent = _
  rw [report_sent]

end

end Sys2Proof.Machine

end

section

set_option Elab.async false

/-! # Register writes (R12 to R14, R23, R31, R32) -/

namespace Sys2Proof.Machine

section
variable {r : Requester} {a : Nat} {v : Word32} {s : State} {reg : RegSpec} {ix : List Nat}

theorem exec_registerWrite : exec (.registerWrite r a v) s = .next (takeRegisterWrite r a v s) := rfl

/-- A write to a live register that its requester reaches. -/
theorem takeRegisterWrite_live (up : running s = true) (at_a : liveReg a = some (reg, ix)) (reach : reachesLive s r a = true) :
    takeRegisterWrite r a v s =
      if reg.swap.isSome then unprescribedWrite r (liveTable reg) a v s else storeReg r reg ix a v.toNat s := by
  unfold takeRegisterWrite
  simp [live_of_running up, at_a, reach]

/-- A write to a staged copy. -/
theorem takeRegisterWrite_staged (up : running s = true) (none_a : liveReg a = none) (at_a : stagedReg a = some (reg, ix)) :
    takeRegisterWrite r a v s = stageWrite r reg ix (reg.swap.getD 13) a v.toNat s := by
  unfold takeRegisterWrite
  simp [live_of_running up, none_a, at_a]

/-- A write that finds no register, or whose requester does not reach it, is refused. -/
theorem takeRegisterWrite_refused (up : running s = true)
    (h : liveReg a = none ∧ stagedReg a = none ∨ (liveReg a).isSome = true ∧ reachesLive s r a = false) :
    takeRegisterWrite r a v s = refuseAccess r a s := by
  unfold takeRegisterWrite
  rw [live_of_running up]
  rcases h with ⟨live, staged⟩ | ⟨live, reach⟩
  · simp [live, staged]
  · obtain ⟨e, he⟩ := Option.isSome_iff_exists.mp live
    simp [he, reach]

/-- A register that starts nothing: its write has no action. -/
theorem writeAction_of_not_acts {n : Nat} (h : actsOnWrite reg ix a = false) : writeAction r reg ix a n s = s := by
  simp only [actsOnWrite, Bool.or_eq_false_iff] at h
  obtain ⟨⟨⟨-, counter⟩, names⟩, addrs⟩ := h
  have none_k : selectedCounter reg.name ix = none := by simpa using counter
  simp at names addrs
  simp [writeAction, none_k, names, addrs]

/-- The names of the registers of the ring bases. -/
theorem liveReg_ringBase (h : cmdRingBase a = true) (at_a : liveReg a = some (reg, ix)) :
    selectedCounter reg.name ix = none ∧ reg.name ≠ "SWP_STW_QUAR" ∧ reg.name ≠ "SWP_STW_RELEASE" := by
  have range : 0x7C1010 ≤ a ∧ a < 0x7C1020 := by simpa [cmdRingBase] using h
  have sup : ∀ r ∈ regsSup, r.name ∉ ["SWP_EVSEL", "INF_EVSEL", "SWP_STW_EVSEL", "CND_EVSEL", "SWP_STW_QUAR", "SWP_STW_RELEASE"] := by
    decide
  have rows : blockRows a = regsSup := by
    unfold blockRows
    iterate 11 rw [if_neg (by omega)]
    rw [if_pos (by omega)]
  rw [liveReg, rows] at at_a
  have name := sup _ (findReg_mem at_a)
  simp at name
  refine ⟨?_, name.2.2.2.2.1, name.2.2.2.2.2⟩
  unfold selectedCounter
  split <;> simp_all

/-- A ring base starts nothing. -/
theorem writeAction_ringBase {n : Nat} (h : cmdRingBase a = true) (at_a : liveReg a = some (reg, ix)) :
    writeAction r reg ix a n s = s := by
  obtain ⟨counter, quar, release⟩ := liveReg_ringBase h at_a
  have range : 0x7C1010 ≤ a ∧ a < 0x7C1020 := by simpa [cmdRingBase] using h
  have apart (b : Nat) (hb : b < 0x7C1010 ∨ 0x7C1020 ≤ b) : ¬ a = b := by omega
  simp only [writeAction, counter, quar, release, apart F.WDN_SAFE_CTL_STOP.addr (by decide), apart F.INF_RELEASE_RELEASE.addr (by decide),
    apart F.SLV_RELEASE_RELEASE.addr (by decide), apart F.CND_SWAP_CTL_REQ.addr (by decide), apart F.SUP_SWAP_CTL_REQ.addr (by decide),
    apart F.SUP_REPLAY_CTL_ENTER.addr (by decide), apart 0x7C1030 (by decide), apart 0x7C1038 (by decide),
    apart F.IND_WDOG_KICK.addr (by decide), apart F.IND_SLEEP_CTL_SLEEP.addr (by decide), if_false, false_and, or_self]

/-- A register that starts nothing, and a ring base while the rings are disabled, takes the word (R12, R504). -/
theorem storeReg_stores {n : Nat} (at_a : liveReg a = some (reg, ix))
    (h : actsOnWrite reg ix a = false ∨ cmdRingBase a = true ∧ flag s F.SUP_CMD_CTL_EN = false) :
    storeReg r reg ix a n s = setReg s a (afterWrite s reg ix a n) := by
  unfold storeReg
  rcases h with plain | ⟨base, disabled⟩
  · have acts := plain
    simp only [actsOnWrite, Bool.or_eq_false_iff] at acts
    obtain ⟨⟨⟨base, -⟩, names⟩, addrs⟩ := acts
    simp at names addrs
    simp [base, names, addrs, writeAction_of_not_acts plain]
  · obtain ⟨-, quar, -⟩ := liveReg_ringBase base at_a
    have range : 0x7C1010 ≤ a ∧ a < 0x7C1020 := by simpa [cmdRingBase] using base
    have vcore : a ≠ F.WDN_VCORE_TARGET.addr := by simp only [F.WDN_VCORE_TARGET]; omega
    simp [disabled, quar, vcore, writeAction_ringBase base at_a]

/-- A ring base does nothing while the rings are enabled (R504). -/
theorem storeReg_ringBase_of_enabled {n : Nat} (base : cmdRingBase a = true) (enabled : flag s F.SUP_CMD_CTL_EN = true) :
    storeReg r reg ix a n s = s := by
  simp [storeReg, base, enabled]

end

theorem registerWriteStores : Sys2Proof.Claims.RegisterWriteStores := by
  intro r a v s reg ix up wf at_a reach noSwap
  have written : takeRegisterWrite r a v s = storeReg r reg ix a v.toNat s := by
    rw [takeRegisterWrite_live up at_a reach, noSwap]
    rfl
  refine ⟨fun plain => ⟨_, exec_registerWrite, ?_⟩, fun base enabled => ?_⟩
  · rw [written, storeReg_stores at_a plain]
    exact ⟨regWord_setReg_same wf.1, setReg_same, rfl⟩
  · rw [exec_registerWrite, written, storeReg_ringBase_of_enabled base enabled]

theorem registerWriteRefused : Sys2Proof.Claims.RegisterWriteRefused := by
  intro r a v s up h
  refine ⟨_, exec_registerWrite, ?_⟩
  rw [takeRegisterWrite_refused up h]
  exact refused_refuseAccess r a s

theorem stagedWriteStores : Sys2Proof.Claims.StagedWriteStores := by
  intro r a v s reg ix sub up wf none_a at_a swap
  have written : takeRegisterWrite r a v s = stageWrite r reg ix sub a v.toNat s := by
    rw [takeRegisterWrite_staged up none_a at_a, swap]
    rfl
  refine ⟨fun may free => ⟨_, exec_registerWrite, ?_⟩, fun may o open_o locked => ⟨_, exec_registerWrite, ?_⟩,
    fun may => ⟨_, exec_registerWrite, ?_⟩⟩ <;> rw [written, stageWrite, may]
  · have unlocked : (s.swap.user.map fun o => o.mask.testBit sub).getD false = false := by
      cases open_o : s.swap.user with
      | none => rfl
      | some o => exact free o open_o
    rw [unlocked]
    exact ⟨regWord_setReg_same wf.1, setReg_same, rfl⟩
  · rw [open_o, Option.map_some, Option.getD_some, locked]
    exact ⟨congrArg _ (report_sent _ s), report_regs _ s, report_keeps (shows_swap (by decide)) rfl, fun room => report_recorded room⟩
  · exact refused_refuseAccess r a s

/-- Settles O9: a write that starts nothing stores one word, and a refusal records. -/
theorem registerWritesStoreOrAreRefused : Obligations.RegisterWritesStoreOrAreRefused := by
  unfold Obligations.RegisterWritesStoreOrAreRefused
  exact ⟨registerWriteStores, registerWriteRefused, stagedWriteStores⟩

/-! ## The mutual exclusion, time-outs and counters (R21, R35, R579) -/

section
variable {s : State}

theorem exec_mutexForce (res a b : Nat) : exec (.mutexForce res a b) s = .next (live s fun s =>
    { s with arb := ⟨res, min a b, max a b⟩ :: s.arb.filter fun x => x.resource ≠ res }) := rfl

theorem exec_mgmtAccessTimeout (r : Requester) (isRead : Bool) (a : Nat) : exec (.mgmtAccessTimeout r isRead a) s =
    .next (live s fun s => send (.error r a (if isRead then some 0 else none))
      (report { unit := blockUnit a, cls := 0x0B, ev := 1, sev := .warning, detail := a % 2 ^ 40 } s)) := rfl

theorem exec_counterClear (r : Requester) (k : CounterId) : exec (.counterClear r k) s = .next (live s fun s =>
    if reachesLive s r (selectorAddr k) then clearCounter k s else refuseAccess r (selectorAddr k) s) := rfl

theorem clearCounter_eq (k : CounterId) (s : State) :
    clearCounter k s = setFld (counterFields k).1 0 (setFld (counterFields k).2 0 s) := by
  cases k <;> rfl

theorem counterFields_ok (k : CounterId) :
    (counterFields k).1.ok ∧ (counterFields k).2.ok ∧ (counterFields k).1.addr ≠ (counterFields k).2.addr := by
  cases k <;>
    simp [Fld.ok, counterFields, F.SWP_EVCNT_COUNT, F.SWP_EVCNT_HI_COUNT, F.INF_EVCNT_COUNT, F.INF_EVCNT_HI_COUNT,
      F.SWP_STW_EVCNT_COUNT, F.SWP_STW_EVCNT_HI_COUNT, F.CND_EVCNT_COUNT, F.CND_EVCNT_HI_COUNT]

/-- A counter that is cleared reads 0, and no other register changes. -/
theorem clearCounter_spec (wf : Regs.wf s.image s.regs) (k : CounterId) :
    fld (clearCounter k s) (counterFields k).1 = 0 ∧ fld (clearCounter k s) (counterFields k).2 = 0 ∧
      SameRegsBut [(counterFields k).1.addr, (counterFields k).2.addr] s (clearCounter k s) := by
  obtain ⟨low, high, apart⟩ := counterFields_ok k
  rw [clearCounter_eq]
  refine ⟨?_, ?_, ?_⟩
  · rw [fld_setFld_same (setFld_wf wf) low, Nat.zero_mod]
  · rw [fld_setFld_addr apart.symm, fld_setFld_same wf high, Nat.zero_mod]
  · exact (setFld_same.mono (by simp)).trans (setFld_same.mono (by simp))

end

/-- Settles O15. -/
theorem mutexTimeoutAndCounter : Obligations.MutexTimeoutAndCounter := by
  unfold Obligations.MutexTimeoutAndCounter
  intro s up
  refine ⟨fun res a b => goes_live up (exec_mutexForce res a b) ⟨?_, ?_, rfl⟩,
    fun r isRead a => goes_live up (exec_mgmtAccessTimeout r isRead a) ⟨?_, fun room => report_recorded room, report_regs _ s, report_mem _ s⟩,
    fun wf r k reach => goes_live up (exec_counterClear r k) ?_, fun r k reach => goes_live up (exec_counterClear r k) ?_⟩
  · intro x hx
    simp [hx]
  · intro x hx
    simp only [List.mem_cons, List.mem_filter, decide_eq_true_eq, hx, ne_eq, not_false_eq_true, and_true, or_iff_right_iff_imp]
    rintro rfl
    exact absurd rfl hx
  · exact congrArg _ (report_sent _ s)
  · rw [if_pos reach]
    obtain ⟨low, high, same⟩ := clearCounter_spec wf k
    exact ⟨low, high, same, by rw [clearCounter_eq]; rfl⟩
  · rw [if_neg (by simp [reach])]
    exact refused_refuseAccess r _ s

end Sys2Proof.Machine

end

section

set_option Elab.async false

/-! # Writes to live protected tables (R378 to R382) -/

namespace Sys2Proof.Machine

/-! ## Doubts and captures -/

section
variable {s : State}

/-- A marked doubt stands in the frame (R390). -/
theorem markDoubt_marks {b : Nat} (hb : b < 16) (s : State) : (markDoubt b s).frame.flags.getLsbD b = true := by
  unfold markDoubt
  split
  · assumption
  · show (s.frame.flags ||| (1#16 <<< b)).getLsbD b = true
    simp [hb]

theorem markDoubt_same {b : Nat} : SameRegsBut [(F.WDN_DOUBT_CNT_COUNT b).addr] s (markDoubt b s) := by
  unfold markDoubt
  split
  · exact SameRegsBut.refl _ _
  · exact SameRegsBut.trans (fun a _ => regWord_congr rfl rfl a) bump_same

/-- A capture register takes its fields once (R15). -/
theorem capture_same {valid : Fld} {parts : List (Fld × Nat)} :
    SameRegsBut (valid.addr :: parts.map (·.1.addr)) s (capture valid parts s) := by
  have each : ∀ (ps : List (Fld × Nat)) (t : State), SameRegsBut (ps.map (·.1.addr)) t (ps.foldl (fun s p => setFld p.1 p.2 s) t) := by
    intro ps
    induction ps with
    | nil => exact fun t => SameRegsBut.refl _ _
    | cons p ps ih => exact fun t => (setFld_same.mono (by simp)).trans ((ih _).mono (by simp))
  unfold capture
  split
  · exact SameRegsBut.refl _ _
  · exact SameRegsBut.trans (setFld_same.mono (by simp)) ((each parts _).mono (by simp))

end

section
variable {s t : State} {r : Requester} {tbl : TableCode} {a : Nat} {v : Word32}

/-! ## What a write changes -/

/-- What a table takes depends on the tables alone. -/
theorem storeTable_congr (wld : t.wld = s.wld) (boot : t.boot = s.boot) (swap : t.swap = s.swap) (image : t.image = s.image)
    (mem : t.mem = s.mem) :
    (storeTable tbl a v t).wld = (storeTable tbl a v s).wld ∧ (storeTable tbl a v t).boot = (storeTable tbl a v s).boot ∧
      (storeTable tbl a v t).swap = (storeTable tbl a v s).swap ∧ (storeTable tbl a v t).mem = (storeTable tbl a v s).mem := by
  cases tbl
  case client | registers =>
    cases at_a : liveReg a <;> simp [storeTable, at_a, wld, boot, swap, mem]
  case keepOut | domainMap | ranges => simp [storeTable, wld, boot, swap, image, mem]
  case layers =>
    by_cases o : tableOffset .layers a < 0x4000 <;> simp [storeTable, o, wld, boot, swap, mem]

/-- The registers that a write to a live table writes beside the table (R380, R381, R393, R424). -/
def tableWriteAddrs : List Nat :=
  [F.MEM_WW_STAT_MIXED.addr, F.MEM_WW_CAP_VALID.addr, (F.WDN_DOUBT_CNT_COUNT 5).addr, F.WDN_FLOG_STAT_SEQ.addr]

/-- None of them is swappable. -/
theorem swappable_not_tableWriteAddrs {reg : RegSpec} {ix : List Nat} (at_a : liveReg a = some (reg, ix)) (swap : reg.swap.isSome = true) :
    a ∉ tableWriteAddrs := by
  have plain : ∀ b ∈ tableWriteAddrs, ((liveReg b).all fun e => e.1.swap.isNone) = true := by decide
  intro ha
  have none_a := plain a ha
  rw [at_a] at none_a
  cases h : reg.swap <;> simp_all

theorem mixFrame_same : SameRegsBut tableWriteAddrs s (mixFrame s) := by
  unfold mixFrame
  split
  · exact markDoubt_same.mono (by decide)
  · have marked : SameRegsBut tableWriteAddrs s (markDoubt 5 { s with frame := { s.frame with mixed := true } }) :=
      SameRegsBut.trans (fun a _ => regWord_congr rfl rfl a) (markDoubt_same.mono (by decide))
    exact marked.trans (bump_same.mono (by decide))

/-- The running frame is mixed-epoch, a doubt (R381). -/
theorem mixFrame_marks (s : State) : (mixFrame s).frame.mixed = true ∧ (mixFrame s).frame.flags.getLsbD 5 = true := by
  have mixed {t : State} (h : t.frame.mixed = true) : (markDoubt 5 t).frame.mixed = true := by
    unfold markDoubt
    exact ite_keeps (P := fun t => t.frame.mixed = true) h h
  unfold mixFrame
  split
  · exact ⟨mixed ‹_›, markDoubt_marks (by decide) s⟩
  · exact ⟨mixed rfl, markDoubt_marks (by decide) _⟩

/-- The capture register of table writes. -/
def captureWrite (r : Requester) (tbl : TableCode) (a refused : Nat) (s : State) : State :=
  capture F.MEM_WW_CAP_VALID
    [(F.MEM_WW_CAP_REFUSED, refused), (F.MEM_WW_CAP_TABLE, tableCode tbl), (F.MEM_WW_CAP_REQUESTER, requesterCode r),
     (F.MEM_WW_CAP_OFFSET, tableOffset tbl a)] s

/-- The event of a table write. -/
def tableEvent (tbl : TableCode) (a kind : Nat) (sev : Severity) (doubt : Bool) : Event :=
  { unit := 0x84, cls := 0x01, ev := kind, sev := sev, detail := kind * 2 ^ 53 + tableCode tbl * 2 ^ 40 + a % 2 ^ 40, doubt := doubt }

/-- The table takes the word, and running tasks the mark (R381, R382). -/
def tableTakes (r : Requester) (tbl : TableCode) (a : Nat) (v : Word32) (s : State) : State :=
  mixOutputs (storeTable tbl a v (captureWrite r tbl a 0 s))

/-- The write comes while a frame runs. -/
def inFrame (s : State) : Prop := s.frame.started = true ∧ s.time.count - s.frame.edgeTick ≤ hardStop s 5

theorem unprescribedWrite_refused (lc : s.fuse.lc ≠ 1) : unprescribedWrite r tbl a v s =
    send (.error r a none) (report (tableEvent tbl a 4 .warning false) (captureWrite r tbl a 1 (bump F.MEM_WW_STAT_REFUSED s))) := by
  simp [unprescribedWrite, inDevelop, lc, tableEvent, captureWrite]

theorem unprescribedWrite_inFrame (lc : s.fuse.lc = 1) (h : inFrame s) : unprescribedWrite r tbl a v s =
    report (tableEvent tbl a 5 .doubt true) (mixFrame (tableTakes r tbl a v s)) := by
  simp only [unprescribedWrite, inDevelop, lc, decide_true, Bool.not_true, Bool.false_eq_true, if_false]
  exact if_pos h

theorem unprescribedWrite_outside (lc : s.fuse.lc = 1) (h : ¬ inFrame s) : unprescribedWrite r tbl a v s =
    report (tableEvent tbl a 5 .note false) (tableTakes r tbl a v s) := by
  simp only [unprescribedWrite, inDevelop, lc, decide_true, Bool.not_true, Bool.false_eq_true, if_false]
  exact if_neg h

/-- What a table has taken: the word of its register, and the tables as storeTable leaves them. -/
structure TableTaken (tbl : TableCode) (a : Nat) (v : Word32) (s t : State) : Prop where
  word : tbl = .client ∨ tbl = .registers → ∀ reg ix, liveReg a = some (reg, ix) → regWord t a = afterWrite s reg ix a v.toNat % 2 ^ 32
  wld : t.wld = (storeTable tbl a v s).wld
  boot : t.boot = (storeTable tbl a v s).boot
  swap : t.swap = (storeTable tbl a v s).swap
  writes : t.mem.liveWrites = (storeTable tbl a v s).mem.liveWrites

theorem captureWrite_same (n : Nat) : SameRegsBut tableWriteAddrs s (captureWrite r tbl a n s) :=
  capture_same.mono (by simp [tableWriteAddrs, F.MEM_WW_CAP_VALID, F.MEM_WW_CAP_REFUSED, F.MEM_WW_CAP_TABLE, F.MEM_WW_CAP_REQUESTER,
    F.MEM_WW_CAP_OFFSET])

/-- A swappable register of the table lies in it. -/
theorem swappable_of_inTable {reg : RegSpec} {ix : List Nat} (inside : inTable tbl a = true) (regs : tbl = .client ∨ tbl = .registers)
    (at_a : liveReg a = some (reg, ix)) : reg.swap.isSome = true := by
  rcases regs with rfl | rfl <;> simp [inTable, at_a] at inside <;> simp [inside]

theorem tableTakes_taken (wf : Regs.wf s.image s.regs) (inside : inTable tbl a = true) :
    TableTaken tbl a v s (tableTakes r tbl a v s) := by
  obtain ⟨wld, boot, swap, mem⟩ : _ ∧ _ ∧ _ ∧ _ := storeTable_congr (tbl := tbl) (a := a) (v := v)
    (t := captureWrite r tbl a 0 s) (capture_keeps (shows_wld (by decide)) rfl) (capture_keeps (shows_boot (by decide)) rfl)
    (capture_keeps (shows_swap (by decide)) rfl) (capture_keeps (shows_image (by decide)) rfl) (capture_keeps (shows_mem (by decide)) rfl)
  refine ⟨fun regs reg ix at_a => ?_, wld, boot, swap, congrArg MemSt.liveWrites mem⟩
  have apart := swappable_not_tableWriteAddrs at_a (swappable_of_inTable inside regs at_a)
  have stored (t : State) : storeTable tbl a v t = setReg t a (afterWrite t reg ix a v.toNat) := by
    rcases regs with rfl | rfl <;> simp [storeTable, at_a]
  have wf' : Regs.wf (captureWrite r tbl a 0 s).image (captureWrite r tbl a 0 s).regs :=
    capture_keeps (shows_regs_wf (by decide)) wf
  show regWord (storeTable tbl a v (captureWrite r tbl a 0 s)) a = _
  rw [stored, regWord_setReg_same wf'.1, afterWrite, captureWrite_same 0 a apart, ← afterWrite]

/-- What has been taken stands where only other parts and the registers of the report are written. -/
theorem TableTaken.after {u : State} (h : TableTaken tbl a v s t) (inside : inTable tbl a = true) (same : SameRegsBut tableWriteAddrs t u)
    (wld : u.wld = t.wld) (boot : u.boot = t.boot) (swap : u.swap = t.swap) (mem : u.mem = t.mem) : TableTaken tbl a v s u := by
  refine ⟨fun regs reg ix at_a => ?_, wld.trans h.wld, boot.trans h.boot, swap.trans h.swap, mem ▸ h.writes⟩
  rw [same a (swappable_not_tableWriteAddrs at_a (swappable_of_inTable inside regs at_a)), h.word regs reg ix at_a]

theorem TableTaken.report {e : Event} (h : TableTaken tbl a v s t) (inside : inTable tbl a = true) :
    TableTaken tbl a v s (report e t) :=
  h.after inside ((report_regs e t).mono (by decide)) (report_keeps (shows_wld (by decide)) rfl) (report_keeps (shows_boot (by decide)) rfl)
    (report_keeps (shows_swap (by decide)) rfl) (report_mem e t)

theorem TableTaken.mixFrame (h : TableTaken tbl a v s t) (inside : inTable tbl a = true) : TableTaken tbl a v s (mixFrame t) :=
  h.after inside mixFrame_same (mixFrame_keeps (shows_wld (by decide)) rfl) (mixFrame_keeps (shows_boot (by decide)) rfl)
    (mixFrame_keeps (shows_swap (by decide)) rfl) (mixFrame_keeps (shows_mem (by decide)) rfl)

/-- The table's part of a write keeps what stands beside it. -/
theorem tableTakes_keeps {P : State → Prop} (C : Keeps [.regs, .wld, .boot, .mem, .swap, .cnd] P) (h : P s) : P (tableTakes r tbl a v s) :=
  mixOutputs_keeps (C.mono (by decide)) (storeTable_keeps (C.mono (by decide)) (capture_keeps (C.mono (by decide)) h))

theorem exec_liveTableWrite : exec (.liveTableWrite r tbl a v) s = .next (live s fun s =>
    if reachesTable s r tbl a && inTable tbl a then unprescribedWrite r tbl a v s else refuseAccess r a s) := rfl

/-- A table write in DEVELOP takes effect and is recorded (R380, R381). -/
theorem unprescribedWrite_develop (wf : Regs.wf s.image s.regs) (inside : inTable tbl a = true) (lc : s.fuse.lc = 1) :
    TableTaken tbl a v s (unprescribedWrite r tbl a v s) ∧
      (inFrame s → (unprescribedWrite r tbl a v s).frame.mixed = true ∧ (unprescribedWrite r tbl a v s).frame.flags.getLsbD 5 = true ∧
        (s.log.queue.length < 256 → Recorded (unprescribedWrite r tbl a v s) 0x84 0x01 5 2)) ∧
      (¬ inFrame s → (unprescribedWrite r tbl a v s).frame = s.frame ∧
        (s.log.queue.length < 256 → Recorded (unprescribedWrite r tbl a v s) 0x84 0x01 5 0)) := by
  have taken := tableTakes_taken (r := r) (v := v) wf inside
  by_cases h : inFrame s
  · rw [unprescribedWrite_inFrame lc h]
    have queue : (mixFrame (tableTakes r tbl a v s)).log.queue = s.log.queue :=
      mixFrame_keeps (shows_queue (by decide)) (tableTakes_keeps (shows_queue (by decide)) rfl)
    have frame : (report (tableEvent tbl a 5 .doubt true) (mixFrame (tableTakes r tbl a v s))).frame =
        (mixFrame (tableTakes r tbl a v s)).frame := report_keeps (shows_frame (by decide)) rfl
    rw [frame]
    exact ⟨(taken.mixFrame inside).report inside,
      fun _ => ⟨(mixFrame_marks _).1, (mixFrame_marks _).2, fun room => report_recorded (by rwa [queue])⟩, fun n => absurd h n⟩
  · rw [unprescribedWrite_outside lc h]
    have queue : (tableTakes r tbl a v s).log.queue = s.log.queue := tableTakes_keeps (shows_queue (by decide)) rfl
    exact ⟨taken.report inside, fun y => absurd y h,
      fun _ => ⟨report_keeps (shows_frame (by decide)) (tableTakes_keeps (shows_frame (by decide)) rfl),
        fun room => report_recorded (by rwa [queue])⟩⟩

/-- A table write outside DEVELOP changes no table (R380). -/
theorem unprescribedWrite_refuses (lc : s.fuse.lc ≠ 1) :
    (unprescribedWrite r tbl a v s).sent = .error r a none :: s.sent ∧ (unprescribedWrite r tbl a v s).frame = s.frame ∧
      (unprescribedWrite r tbl a v s).mem = s.mem ∧ (unprescribedWrite r tbl a v s).wld = s.wld ∧
      (unprescribedWrite r tbl a v s).boot = s.boot ∧ (unprescribedWrite r tbl a v s).swap = s.swap ∧
      (s.log.queue.length < 256 → Recorded (unprescribedWrite r tbl a v s) 0x84 0x01 4 1) := by
  rw [unprescribedWrite_refused lc]
  have before {P : State → Prop} (C : Keeps [.regs] P) (h : P s) : P (captureWrite r tbl a 1 (bump F.MEM_WW_STAT_REFUSED s)) :=
    capture_keeps C (bump_keeps C h)
  refine ⟨congrArg _ (report_keeps (shows_sent_eq (by decide)) (before (shows_sent_eq (by decide)) rfl)),
    report_keeps (shows_frame (by decide)) (before (shows_frame (by decide)) rfl),
    report_keeps (shows_mem (by decide)) (before (shows_mem (by decide)) rfl),
    report_keeps (shows_wld (by decide)) (before (shows_wld (by decide)) rfl),
    report_keeps (shows_boot (by decide)) (before (shows_boot (by decide)) rfl),
    report_keeps (shows_swap (by decide)) (before (shows_swap (by decide)) rfl), fun room => ?_⟩
  have queue := before (shows_queue (x := s.log.queue) (by decide)) rfl
  exact report_recorded (by rwa [queue])

/-- A write to a live swappable register is a write to its table (R14, R23). -/
theorem takeRegisterWrite_swappable {reg : RegSpec} {ix : List Nat} (at_a : liveReg a = some (reg, ix)) (swap : reg.swap.isSome = true) :
    exec (.registerWrite r a v) s = exec (.liveTableWrite r (liveTable reg) a v) s := by
  have inside : inTable (liveTable reg) a = true := by
    unfold liveTable
    split <;> simp_all [inTable, liveTable]
  have reach (s : State) : reachesTable s r (liveTable reg) a = reachesLive s r a := by
    unfold liveTable
    split <;> rfl
  rw [exec_registerWrite, exec_liveTableWrite, takeRegisterWrite]
  refine congrArg _ (congrArg (live s) (funext fun s => ?_))
  simp only [at_a, inside, reach, Bool.and_true, swap, if_true]
  cases reachesLive s r a <;> rfl

end

/-- Settles O10. -/
theorem liveTableWriteByLifeCycle : Obligations.LiveTableWriteByLifeCycle := by
  unfold Obligations.LiveTableWriteByLifeCycle
  intro r tbl a v s up
  refine ⟨fun reach inside lc wf => goes_live up exec_liveTableWrite ?develop,
    fun reach inside lc => goes_live up exec_liveTableWrite ?elsewhere, fun out => goes_live up exec_liveTableWrite ?refused,
    fun reg ix at_a swap => takeRegisterWrite_swappable at_a swap⟩
  case develop =>
    rw [reach, inside]
    obtain ⟨⟨word, wld, boot, swap, writes⟩, running, outside⟩ := unprescribedWrite_develop (r := r) (v := v) wf inside lc
    exact ⟨word, wld, boot, swap, writes, fun started off => running ⟨started, off⟩, outside⟩
  case elsewhere =>
    rw [reach, inside]
    exact unprescribedWrite_refuses lc
  case refused =>
    rw [if_neg (by rcases out with h | h <;> simp [h])]
    exact refused_refuseAccess r a s

end Sys2Proof.Machine

end

section

set_option Elab.async false

/-! # The Conductor: what queues, revocations and quarantines leave of its state (R26, R319 to R329, R336)

Readiness and flows move nodes and items alone. A revocation ends no lease but those of an abandoned long operation, and only ever
marks the others. -/

namespace Sys2Proof.Machine

/-! ## Queues -/

/-- From s to t only the Conductor's nodes, queues and flows have changed of its state. -/
def OnlyQueues (s t : State) : Prop :=
  t.cnd = { s.cnd with nodes := t.cnd.nodes, ready := t.cnd.ready, items := t.cnd.items, flows := t.cnd.flows }

section
variable {s t u : State}

theorem OnlyQueues.of_cnd (h : t.cnd = s.cnd) : OnlyQueues s t := by
  unfold OnlyQueues
  rw [h]

theorem OnlyQueues.refl (s : State) : OnlyQueues s s := .of_cnd rfl

theorem OnlyQueues.trans (h : OnlyQueues s t) (g : OnlyQueues t u) : OnlyQueues s u := by
  unfold OnlyQueues at *
  rw [g, h]

/-- A step that is followed by one on the queues alone. -/
theorem OnlyQueues.after (g : OnlyQueues t u) (h : OnlyQueues s t) : OnlyQueues s u := h.trans g

theorem onlyQueues_setNode (n : Nat) (r : NodeRun) (s : State) : OnlyQueues s (setNode n r s) := rfl

theorem onlyQueues_addReady (n : Nat) (s : State) : OnlyQueues s (addReady n s) :=
  ite_keeps (P := OnlyQueues s) (onlyQueues_setNode ..) rfl

theorem onlyQueues_testReady (n : Nat) (s : State) : OnlyQueues s (testReady n s) := by
  unfold testReady
  split
  · exact .refl s
  · exact ite_keeps (P := OnlyQueues s) ((onlyQueues_setNode ..).trans (onlyQueues_addReady ..)) (.refl s)

theorem onlyQueues_foldl {α : Type} {f : State → α → State} (h : ∀ s a, OnlyQueues s (f s a)) (l : List α) (s : State) :
    OnlyQueues s (l.foldl f s) := foldl_keeps (P := OnlyQueues s) (fun t a ht => ht.trans (h t a)) l s (.refl s)

theorem onlyQueues_raiseFlags (succ : List (Fin 4096 × Fin 32)) (s : State) : OnlyQueues s (raiseFlags succ s) :=
  (onlyQueues_foldl (fun _ _ => onlyQueues_setNode ..) succ s).trans (onlyQueues_foldl (fun _ _ => onlyQueues_testReady ..) _ _)

theorem onlyQueues_releaseOne {f : Nat} (h : releaseOne f s = some t) : OnlyQueues s t := by
  unfold releaseOne at h
  simp only at h
  split at h
  · cases h
  · split at h <;> cases h
    · unfold OnlyQueues
      rw [bump_keeps (shows_cnd (by decide)) (report_keeps (shows_cnd (by decide)) rfl)]
    · exact (onlyQueues_raiseFlags ..).after rfl

theorem onlyQueues_releaseItems (f n : Nat) (s : State) : OnlyQueues s (releaseItems f n s) := by
  induction n generalizing s with
  | zero => exact .refl s
  | succ n ih =>
    rw [releaseItems]
    split
    · exact .refl s
    · rename_i h
      exact (onlyQueues_releaseOne h).trans (ih _)

theorem onlyQueues_loseItem (u : Nat) (s : State) : OnlyQueues s (loseItem u s) := by
  unfold loseItem
  split
  · exact .refl s
  · split
    · exact .refl s
    · refine ite_keeps (P := OnlyQueues s) ?_ ?_
      · exact (onlyQueues_addReady ..).after rfl
      · exact (onlyQueues_releaseItems ..).after rfl

theorem onlyQueues_returnBlock (u : Nat) (s : State) : OnlyQueues s (returnBlock u s) := by
  unfold returnBlock
  split
  · exact .refl s
  · exact ite_keeps (P := OnlyQueues s) rfl ((onlyQueues_addReady ..).after rfl)

end

/-! ## Leases that fade -/

/-- A lease stands for an earlier one: the same resource, holder, domain and time, and still being revoked if it was. -/
structure Lease.After (l m : Lease) : Prop where
  cls : m.cls = l.cls
  res : m.res = l.res
  holder : m.holder = l.holder
  domain : m.domain = l.domain
  time : m.time = l.time
  revoking : l.revoking = true → m.revoking = true

theorem Lease.After.refl (l : Lease) : l.After l := ⟨rfl, rfl, rfl, rfl, rfl, id⟩

theorem Lease.After.trans {l m n : Lease} (h : l.After m) (g : m.After n) : l.After n :=
  ⟨g.cls.trans h.cls, g.res.trans h.res, g.holder.trans h.holder, g.domain.trans h.domain, g.time.trans h.time,
    fun r => g.revoking (h.revoking r)⟩

/-- From s to t leases have only ended or come to be revoked, contexts and long operations with them; the Conductor's other lists
but the queues are as they were, and no wipe has ended. -/
structure Fades (s t : State) : Prop where
  rest : t.cnd = { s.cnd with
    nodes := t.cnd.nodes, ready := t.cnd.ready, items := t.cnd.items, flows := t.cnd.flows, leases := t.cnd.leases
    ops := t.cnd.ops, crypto := t.cnd.crypto, mapld := t.cnd.mapld, revoked := t.cnd.revoked }
  leases : ∀ m ∈ t.cnd.leases, ∃ l ∈ s.cnd.leases, l.After m
  wipes : ∀ w ∈ s.mem.wipes, w ∈ t.mem.wipes

section
variable {s t u : State}

theorem Fades.of_queues (h : OnlyQueues s t) (w : t.mem = s.mem) : Fades s t := by
  have leases : t.cnd.leases = s.cnd.leases := by rw [h]
  refine ⟨?_, fun m hm => ⟨m, leases ▸ hm, .refl m⟩, fun x hx => w ▸ hx⟩
  conv_lhs => rw [h]
  conv_rhs => rw [h]

theorem Fades.of_cnd (h : t.cnd = s.cnd) (w : t.mem = s.mem) : Fades s t := .of_queues (.of_cnd h) w

theorem Fades.refl (s : State) : Fades s s := .of_cnd rfl rfl

theorem Fades.trans (h : Fades s t) (g : Fades t u) : Fades s u := by
  refine ⟨?_, fun n hn => ?_, fun w hw => g.wipes w (h.wipes w hw)⟩
  · rw [g.rest, h.rest]
  · obtain ⟨m, hm, mn⟩ := g.leases n hn
    obtain ⟨l, hl, lm⟩ := h.leases m hm
    exact ⟨l, hl, lm.trans mn⟩

theorem Fades.grants (h : Fades s t) : t.cnd.grants = s.cnd.grants := by rw [h.rest]
theorem Fades.outOfService (h : Fades s t) : t.cnd.outOfService = s.cnd.outOfService := by rw [h.rest]
theorem Fades.retired (h : Fades s t) : t.cnd.retired = s.cnd.retired := by rw [h.rest]
theorem Fades.releasing (h : Fades s t) : t.cnd.releasing = s.cnd.releasing := by rw [h.rest]

/-- What holds of every lease by its holder, resource or mark holds as leases fade. -/
theorem Fades.all (h : Fades s t) {P : Lease → Prop} (mono : ∀ l m, l.After m → P l → P m) (p : ∀ l ∈ s.cnd.leases, P l) :
    ∀ m ∈ t.cnd.leases, P m := fun m hm => by
  obtain ⟨l, hl, lm⟩ := h.leases m hm
  exact mono l m lm (p l hl)

theorem fades_loseItem (u : Nat) (s : State) : Fades s (loseItem u s) :=
  .of_queues (onlyQueues_loseItem u s) (loseItem_keeps (shows_mem (by decide)) rfl)

theorem fades_returnBlock (u : Nat) (s : State) : Fades s (returnBlock u s) :=
  .of_queues (onlyQueues_returnBlock u s) (returnBlock_keeps (shows_mem (by decide)) rfl)

theorem fades_setOp (o : LongOp) (s : State) : Fades s (setOp o s) := by
  have cnd : (setOp o s).cnd = { s.cnd with ops := (setOp o s).cnd.ops } := by
    unfold setOp
    have shown {o : LongOp} {t : State} : (showOp o.ctx t).cnd = t.cnd := showOp_keeps (shows_cnd (by decide)) rfl
    simp only [shown]
  have leases : (setOp o s).cnd.leases = s.cnd.leases := by rw [cnd]
  refine ⟨?_, fun m hm => ⟨m, leases ▸ hm, .refl m⟩, fun w hw => ?_⟩
  · conv_lhs => rw [cnd]
    conv_rhs => rw [cnd]
  · rwa [setOp_keeps (shows_mem (x := s.mem) (by decide)) rfl]

/-- A wipe has begun, and none has ended (R383). -/
theorem fades_beginWipe (r : WipeRegion) (s : State) : Fades s (beginWipe r s) := by
  refine ⟨?_, ?_, ?_⟩
  · rw [beginWipe_keeps (shows_cnd (x := s.cnd) (by decide)) rfl]
  · rw [beginWipe_keeps (shows_cnd (x := s.cnd) (by decide)) rfl]
    exact fun m hm => ⟨m, hm, .refl m⟩
  · intro w hw
    unfold beginWipe
    split
    · exact hw
    · exact List.mem_append_left _ hw

theorem beginWipe_wipes (r : WipeRegion) (s : State) : ∃ w ∈ (beginWipe r s).mem.wipes, w.1 = r := by
  unfold beginWipe
  split
  · rename_i h
    obtain ⟨w, hw, e⟩ := List.any_eq_true.mp h
    exact ⟨w, hw, of_decide_eq_true e⟩
  · exact ⟨(r, s.time.count), List.mem_append_right _ (List.mem_singleton.mpr rfl), rfl⟩

/-- What writes neither the Conductor's state nor the memories lets leases fade. -/
theorem keeps_fades {W : List Part} (free : ∀ p ∈ W, p ∉ ([.cnd, .mem, .data, .cold] : List Part)) :
    Keeps W (Fades s) := by
  intro p hp
  have hn := free p hp
  cases p
  case cnd | mem | data | cold => exact absurd (by decide) hn
  all_goals
    simp only [Part.Kept]
    intros
    rename_i g
    exact ⟨g.rest, g.leases, g.wipes⟩

/-- Leases that are left out end. -/
theorem fades_filter (p : Lease → Bool) (s : State) : Fades s { s with cnd := { s.cnd with leases := s.cnd.leases.filter p } } :=
  ⟨rfl, fun m hm => ⟨m, (List.mem_filter.mp hm).1, .refl m⟩, fun _ hw => hw⟩

theorem fades_abandonUnit (o : LongOp) (s : State) : Fades s (abandonUnit o s) := by
  unfold abandonUnit
  extract_lets e s1 n o' s2
  have began : Fades s s1 := Fades.trans (report_keeps (keeps_fades (by decide)) (.refl s)) (fades_beginWipe _ _)
  refine ite_keeps (P := Fades s) ?_ (began.trans (fades_setOp ..))
  have failed : Fades s s2 := began.trans (fades_setOp o' s1)
  have freed : Fades s { s2 with cnd := { s2.cnd with leases := s2.cnd.leases.filter fun l => ¬ (l.cls = 5 ∧ l.res = o.ctx) } } :=
    failed.trans (fades_filter _ s2)
  exact sendAnswer_keeps (keeps_fades (by decide)) (showLeases_keeps (keeps_fades (by decide)) freed)

theorem fades_abandonOn (u : Nat) (s : State) : Fades s (abandonOn u s) := by
  unfold abandonOn
  split
  · exact fades_abandonUnit ..
  · exact .refl s

theorem fades_loseMessage (l : Lease) (s : State) : Fades s (loseMessage l s) := by
  unfold loseMessage
  split
  · exact ⟨rfl, fun m hm => ⟨m, hm, .refl m⟩, fun _ hw => hw⟩
  · exact .refl s

/-- A lease's resource is marked as being revoked. -/
def markRevoking (l : Lease) (s : State) : State :=
  { s with cnd := { s.cnd with
    leases := s.cnd.leases.map fun x => if x.cls = l.cls ∧ x.res = l.res then { x with revoking := true } else x } }

theorem fades_markRevoking (l : Lease) (s : State) : Fades s (noteRevoked l.cls l.res l.holder (markRevoking l s)) := by
  refine ⟨rfl, fun m hm => ?_, fun _ hw => hw⟩
  obtain ⟨x, hx, rfl⟩ := List.mem_map.mp hm
  refine ⟨x, hx, ?_⟩
  split
  · exact ⟨rfl, rfl, rfl, rfl, rfl, fun _ => rfl⟩
  · exact .refl x

/-! ## Revocations -/

/-- What a revocation does before the lease is marked: record, counters, and the loss of the task's work. -/
def beforeRevoke (warden : Bool) (l : Lease) (s : State) : State :=
  let s1 := report { unit := l.holder, cls := 0x06, ev := l.cls, sev := .fault, domain := l.domain,
                     detail := (if warden then 2 ^ 16 else 0) + l.res % 2 ^ 12 } s
  let s2 := capture F.CND_LEASE_CAP_VALID
    [(F.CND_LEASE_CAP_BY_WARDEN, if warden then 1 else 0), (F.CND_LEASE_CAP_CLASS, l.cls),
     (F.CND_LEASE_CAP_HOLDER, l.holder), (F.CND_LEASE_CAP_RESOURCE, l.res)] (bump F.CND_LEASE_STAT_REVOKED s1)
  let s3 := countDie 0x87 1 (if warden then bump F.CND_LEASE_STAT_WARDEN s2 else s2)
  let s4 := loseMessage l (abandonOn l.holder (loseItem l.holder s3))
  if l.time = s.time.count then send (.grantRefused l.holder l.cls l.res) s4 else s4

theorem revokeOne_eq (warden : Bool) (l : Lease) (s : State) : revokeOne warden l s =
    let s6 := noteRevoked l.cls l.res l.holder (markRevoking l (beforeRevoke warden l s))
    showSegs (showLeases (if warden then beginWipe (revokedRegion l.cls l.res) s6 else s6)) := rfl

theorem fades_beforeRevoke (warden : Bool) (l : Lease) (s : State) : Fades s (beforeRevoke warden l s) := by
  unfold beforeRevoke
  extract_lets s1 s2 s3 s4
  have captured : Fades s s2 := capture_keeps (keeps_fades (by decide)) (bump_keeps (keeps_fades (by decide))
    (report_keeps (keeps_fades (by decide)) (.refl s)))
  have counted : Fades s s3 := countDie_keeps (keeps_fades (by decide)) (ite_keeps (bump_keeps (keeps_fades (by decide)) captured) captured)
  have lost : Fades s s4 := counted.trans ((fades_loseItem ..).trans ((fades_abandonOn ..).trans (fades_loseMessage ..)))
  exact ite_keeps (P := Fades s) (send_keeps (keeps_fades (by decide)) lost) lost

/-- A revoked lease is being revoked, and the rest of the leases fades. -/
theorem fades_revokeOne (warden : Bool) (l : Lease) (s : State) : Fades s (revokeOne warden l s) ∧
    (∀ m ∈ (revokeOne warden l s).cnd.leases, m.cls = l.cls → m.res = l.res → m.revoking = true) ∧
    (warden = true → ∃ w ∈ (revokeOne warden l s).mem.wipes, w.1 = revokedRegion l.cls l.res) := by
  rw [revokeOne_eq]
  extract_lets s6
  have marked : Fades s s6 := (fades_beforeRevoke warden l s).trans (fades_markRevoking ..)
  have wiped : Fades s (if warden then beginWipe (revokedRegion l.cls l.res) s6 else s6) :=
    ite_keeps (P := Fades s) (marked.trans (fades_beginWipe ..)) marked
  have all : ∀ m ∈ s6.cnd.leases, m.cls = l.cls → m.res = l.res → m.revoking = true := by
    intro m hm hc hr
    obtain ⟨x, -, rfl⟩ := List.mem_map.mp hm
    by_cases h : x.cls = l.cls ∧ x.res = l.res
    · rw [if_pos h]
    · rw [if_neg h] at hc hr
      exact absurd ⟨hc, hr⟩ h
  refine ⟨showSegs_keeps (keeps_fades (by decide)) (showLeases_keeps (keeps_fades (by decide)) wiped), ?_, ?_⟩
  · have shown (t : State) : (showSegs (showLeases t)).cnd = t.cnd :=
      showSegs_keeps (shows_cnd (by decide)) (showLeases_keeps (shows_cnd (by decide)) rfl)
    rw [shown]
    cases warden with
    | false => exact all
    | true =>
      rw [if_pos rfl, beginWipe_keeps (shows_cnd (x := s6.cnd) (by decide)) rfl]
      exact all
  · rintro rfl
    obtain ⟨w, hw, e⟩ := beginWipe_wipes (revokedRegion l.cls l.res) s6
    exact ⟨w, hw, e⟩

/-- The revocations of a list of leases. -/
theorem fades_revokeAll (warden : Bool) (ls : List Lease) (s : State) :
    let t := ls.foldl (fun s l => revokeOne warden l s) s
    Fades s t ∧ (∀ l ∈ ls, ∀ m ∈ t.cnd.leases, m.cls = l.cls → m.res = l.res → m.revoking = true) ∧
      (warden = true → ∀ l ∈ ls, ∃ w ∈ t.mem.wipes, w.1 = revokedRegion l.cls l.res) := by
  induction ls generalizing s with
  | nil => exact ⟨.refl s, by simp, by simp⟩
  | cons l ls ih =>
    obtain ⟨first, marked, wiped⟩ := fades_revokeOne warden l s
    obtain ⟨later, marks, wipes⟩ := ih (revokeOne warden l s)
    refine ⟨first.trans later, fun x hx => ?_, fun w x hx => ?_⟩
    · rcases List.mem_cons.mp hx with rfl | hx
      · exact later.all (P := fun m => m.cls = x.cls → m.res = x.res → m.revoking = true)
          (fun l m lm p hc hr => lm.revoking (p (lm.cls ▸ hc) (lm.res ▸ hr))) marked
      · exact marks x hx
    · rcases List.mem_cons.mp hx with rfl | hx
      · obtain ⟨y, hy, e⟩ := wiped w
        exact ⟨y, later.wipes y hy, e⟩
      · exact wipes w x hx

theorem fades_revokeWhere (warden : Bool) (p : Lease → Bool) (s : State) : Fades s (revokeWhere warden p s) :=
  (fades_revokeAll warden _ s).1

/-- Every lease that p meets is being revoked afterwards, where p looks at what does not change of a lease. -/
theorem revokeWhere_revokes {warden : Bool} {p : Lease → Bool} {s : State} (stable : ∀ l m : Lease, l.After m → p m = p l) :
    ∀ m ∈ (revokeWhere warden p s).cnd.leases, p m = true → m.revoking = true := by
  obtain ⟨fades, marks, -⟩ := fades_revokeAll warden (s.cnd.leases.filter fun l => p l && (warden || !l.revoking)) s
  intro m hm pm
  obtain ⟨l, hl, lm⟩ := fades.leases m hm
  have pl : p l = true := (stable l m lm).symm.trans pm
  by_cases r : l.revoking = true
  · exact lm.revoking r
  · exact marks l (List.mem_filter.mpr ⟨hl, by simp [pl, r]⟩) m hm lm.cls lm.res

/-- The wipe of a lease that the Warden revokes has begun (R22, R24). -/
theorem revokeWhere_wipes {p : Lease → Bool} {s : State} {l : Lease} (hl : l ∈ s.cnd.leases) (pl : p l = true) :
    ∃ w ∈ (revokeWhere true p s).mem.wipes, w.1 = revokedRegion l.cls l.res :=
  (fades_revokeAll true _ s).2.2 rfl l (List.mem_filter.mpr ⟨hl, by simp [pl]⟩)

/-! ## Quarantine (R24 to R28) -/

/-- What shows of the Conductor's state when a unit has left service, before the status bits show it. -/
theorem takeOut_cnd (warden : Bool) (n : Nat) (s : State) : ∃ t, Fades s t ∧
    (∀ m ∈ t.cnd.leases, m.holder = n → m.revoking = true) ∧
    (takeOut warden n s).cnd = { (clearAffinity n (dropTask n t)).cnd with
      outOfService := if t.cnd.outOfService.contains n then t.cnd.outOfService else n :: t.cnd.outOfService
      releasing := t.cnd.releasing.filter (· ≠ n) } := by
  refine ⟨revokeWhere warden (fun l => l.holder = n) (abandonOn n (loseItem n (returnBlock n s))), ?_, ?_, ?_⟩
  · exact (fades_returnBlock ..).trans ((fades_loseItem ..).trans ((fades_abandonOn ..).trans (fades_revokeWhere ..)))
  · intro m hm e
    exact revokeWhere_revokes (fun l m lm => by rw [lm.holder]) m hm (decide_eq_true e)
  · exact showService_keeps (shows_cnd (by decide)) rfl

/-- A unit that has left service is out of work (R25, R26). -/
theorem takeOut_outOfWork (warden : Bool) (n : Nat) (s : State) : OutOfWork n (takeOut warden n s) := by
  obtain ⟨t, fades, revoked, cnd⟩ := takeOut_cnd warden n s
  unfold OutOfWork
  rw [cnd]
  refine ⟨?_, fun g hg => ?_, revoked⟩
  · show n ∈ if t.cnd.outOfService.contains n then t.cnd.outOfService else n :: t.cnd.outOfService
    split
    · rename_i h
      exact List.contains_iff_mem.mp h
    · exact List.mem_cons_self
  · exact of_decide_eq_true (List.mem_filter.mp hg).2

/-- A sweep tile that leaves service is quarantined in the running frame (R25). -/
theorem takeOut_quarantined {warden : Bool} {n : Nat} (h : n < 64) (s : State) : n ∈ (takeOut warden n s).frame.quarantined := by
  have frame : (takeOut warden n s).frame.quarantined =
      if n < 64 ∧ ¬ s.frame.quarantined.contains n then n :: s.frame.quarantined else s.frame.quarantined := by
    have before : (clearAffinity n (dropTask n (revokeWhere warden (fun l => l.holder = n) (abandonOn n (loseItem n (returnBlock n s)))))).frame =
        s.frame :=
      clearAffinity_keeps (shows_frame (by decide)) (dropTask_keeps (shows_frame (by decide)) (revokeWhere_keeps (shows_frame (by decide))
        (abandonOn_keeps (shows_frame (by decide)) (loseItem_keeps (shows_frame (by decide)) (returnBlock_keeps (shows_frame (by decide)) rfl)))))
    unfold takeOut
    simp only
    rw [congrArg FrameSt.quarantined (showService_keeps (shows_frame (x := _) (by decide)) rfl)]
    simp only [before]
  rw [frame]
  split
  · exact List.mem_cons_self
  · rename_i out
    exact Classical.byContradiction fun hn => out ⟨h, fun hc => hn (List.contains_iff_mem.mp hc)⟩

end

end Sys2Proof.Machine

end

section

set_option Elab.async false

/-! # The revocation bus, quarantine and release (R22, R24 to R28, R336, R337) -/

namespace Sys2Proof.Machine

section
variable {s t : State} {n : Nat}

/-! ## Several units leave service -/

/-- A unit out of work stays so when another leaves service. -/
theorem takeOut_keeps_outOfWork {warden : Bool} {m : Nat} (h : OutOfWork n s) : OutOfWork n (takeOut warden m s) := by
  obtain ⟨out, idle, revoked⟩ := h
  obtain ⟨t, fades, -, cnd⟩ := takeOut_cnd warden m s
  unfold OutOfWork
  rw [cnd]
  refine ⟨?_, fun g hg => ?_, ?_⟩
  · show n ∈ if t.cnd.outOfService.contains m then t.cnd.outOfService else m :: t.cnd.outOfService
    rw [fades.outOfService]
    split
    · exact out
    · exact List.mem_cons_of_mem _ out
  · exact idle g (fades.grants ▸ (List.mem_filter.mp hg).1)
  · exact fades.all (P := fun l => l.holder = n → l.revoking = true) (fun l m lm p e => lm.revoking (p (lm.holder ▸ e))) revoked

theorem takeOut_keeps_quarantined {warden : Bool} {m : Nat} (h : n ∈ s.frame.quarantined) : n ∈ (takeOut warden m s).frame.quarantined := by
  have before : (clearAffinity m (dropTask m (revokeWhere warden (fun l => l.holder = m) (abandonOn m (loseItem m (returnBlock m s)))))).frame =
      s.frame :=
    clearAffinity_keeps (shows_frame (by decide)) (dropTask_keeps (shows_frame (by decide)) (revokeWhere_keeps (shows_frame (by decide))
      (abandonOn_keeps (shows_frame (by decide)) (loseItem_keeps (shows_frame (by decide)) (returnBlock_keeps (shows_frame (by decide)) rfl)))))
  unfold takeOut
  simp only
  rw [congrArg FrameSt.quarantined (showService_keeps (shows_frame (x := _) (by decide)) rfl)]
  simp only [before]
  split
  · exact List.mem_cons_of_mem _ h
  · exact h

/-- What shows of a unit that has left service shows after the status registers are written too. -/
theorem outOfWork_of_cnd (h : t.cnd = s.cnd) : OutOfWork n t ↔ OutOfWork n s := by
  unfold OutOfWork
  rw [h]

theorem showSched_outOfWork : OutOfWork n (showSched s) ↔ OutOfWork n s :=
  outOfWork_of_cnd (showSched_keeps (shows_cnd (by decide)) rfl)

/-- Every unit of a list that leaves service is out of work and, if it is a sweep tile, quarantined in the frame. -/
theorem takeOutAll {f : Nat → Nat} (ks : List Nat) (s : State) : ∀ k ∈ ks,
    OutOfWork (f k) (ks.foldl (fun s k => takeOut false (f k) s) s) ∧
      (f k < 64 → f k ∈ (ks.foldl (fun s k => takeOut false (f k) s) s).frame.quarantined) := by
  induction ks generalizing s with
  | nil => exact fun k hk => nomatch hk
  | cons j ks ih =>
    have keep (k : Nat) : ∀ (ls : List Nat) (t : State), OutOfWork k t ∧ (k < 64 → k ∈ t.frame.quarantined) →
        OutOfWork k (ls.foldl (fun s k => takeOut false (f k) s) t) ∧
          (k < 64 → k ∈ (ls.foldl (fun s k => takeOut false (f k) s) t).frame.quarantined) := fun ls t h =>
      foldl_keeps (P := fun t : State => OutOfWork k t ∧ (k < 64 → k ∈ t.frame.quarantined))
        (fun _ _ h => ⟨takeOut_keeps_outOfWork h.1, fun lt => takeOut_keeps_quarantined (h.2 lt)⟩) ls t h
    intro k hk
    rcases List.mem_cons.mp hk with rfl | hk
    · exact keep _ ks _ ⟨takeOut_outOfWork .., fun lt => takeOut_quarantined lt s⟩
    · exact ih _ k hk

/-! ## Restarts and leases -/

theorem haltFabric_leases : ∀ m ∈ (haltFabric s).cnd.leases, m.revoking = true := by
  intro m hm
  exact revokeWhere_revokes (fun _ _ _ => rfl) m hm rfl

/-- The state in which a restart that a trigger starts has begun (R411, R412). -/
def beginRestart (tr : RestartTrigger) (doubt : Bool) (s : State) : State :=
  let s2 := haltFabric (report { unit := 0x90, cls := 0x09, ev := 4, sev := if tr = .conductor then Severity.fault else openSev 1
                                 detail := triggerCode tr, doubt := doubt } (refuseSwaps 7 (leaveReplay s)))
  setSat F.WDN_SAFE_STAT_RESTARTS ((restartsInWindow s).length + 1) (setFlag F.WDN_SAFE_STAT_RESTART true
    { s2 with safe := { s2.safe with
        restart := some { trigger := tr, began := s2.time.count, phase := .halted, ignored := [] }
        restartTimes := s2.time.count :: restartsInWindow s } })

/-- A trigger that comes while a restart runs is noted (R411). -/
theorem triggerRestart_of_running {tr : RestartTrigger} {d : Bool} {r : RestartSt} (h : s.safe.restart = some r) :
    triggerRestart tr d s = report (uncoded .ignoredTrigger 0x90 (openSev 0))
      { s with safe := { s.safe with restart := some { r with ignored := r.ignored ++ [tr] } } } := by
  unfold triggerRestart
  rw [h]

/-- A trigger starts a restart unless RESTART_MAX began in the window (R413). -/
theorem triggerRestart_of_none {tr : RestartTrigger} {d : Bool} (h : s.safe.restart = none) : triggerRestart tr d s =
    if (restartsInWindow s).length ≥ fld s F.WDN_RESTART_CFG_RESTART_MAX then refuseRestart s else beginRestart tr d s := by
  unfold triggerRestart
  rw [h]
  rfl

theorem beginRestart_leases {tr : RestartTrigger} {d : Bool} : ∀ m ∈ (beginRestart tr d s).cnd.leases, m.revoking = true := by
  unfold beginRestart
  extract_lets s2
  have shown {n : Nat} {t : State} : (setSat F.WDN_SAFE_STAT_RESTARTS n (setFlag F.WDN_SAFE_STAT_RESTART true t)).cnd = t.cnd :=
    setSat_keeps (shows_cnd (by decide)) (setFlag_keeps (shows_cnd (by decide)) rfl)
  rw [shown]
  exact haltFabric_leases

/-- What begins a restart revokes every lease; what does not leaves the Conductor's state (R412). -/
theorem triggerRestart_leases {tr : RestartTrigger} {d : Bool} (h : ∀ m ∈ s.cnd.leases, m.revoking = true) :
    ∀ m ∈ (triggerRestart tr d s).cnd.leases, m.revoking = true := by
  cases r : s.safe.restart with
  | some x =>
    rw [triggerRestart_of_running r, report_cnd]
    exact h
  | none =>
    rw [triggerRestart_of_none r]
    split
    · rw [refuseRestart_keeps (shows_cnd (x := s.cnd) (by decide)) rfl]
      exact h
    · exact beginRestart_leases

/-- Where the Conductor is the faulty party, every lease is being revoked and the frame is doubt with bit 4 (R337). -/
theorem conductorFaulty_revokes (s : State) :
    (∀ l ∈ (conductorFaulty s).cnd.leases, l.revoking = true) ∧ (conductorFaulty s).frame.flags.getLsbD 4 = true := by
  refine ⟨triggerRestart_leases ?_, triggerRestart_doubtful _ _ (markDoubt_marks (by decide) _)⟩
  rw [markDoubt_keeps (shows_cnd (by decide)) rfl]
  exact fun m hm => revokeWhere_revokes (fun _ _ _ => rfl) m hm rfl

/-! ## The commands of the revocation bus -/

theorem exec_revokeLease (cls : Fin 6) (res : Nat) : exec (.revokeLease cls res) s = .next (live s fun s =>
    if resourceFree s cls.val res then noteRevoked cls.val res 0x90 s
    else revokeWhere true (fun l => l.cls = cls.val ∧ l.res = res) s) := rfl

theorem exec_quarantineUnit (u : Nat) : exec (.quarantineUnit u) s = .next (live s fun s =>
    if u < 128 then showSched (takeOut true u s) else s) := rfl

theorem exec_haltUnit (u : Nat) : exec (.haltUnit u) s = .next (live s fun s =>
    showSched (if (dropTask u s).cnd.halted.contains u then dropTask u s
      else { dropTask u s with cnd := { (dropTask u s).cnd with halted := u :: (dropTask u s).cnd.halted } })) := rfl

theorem exec_tileQuarantine (tile : TileId) : exec (.tileQuarantine tile) s = .next (live s fun s =>
    showSched (takeOut false (tileUnit tile) s)) := rfl

theorem exec_revocationConfirmTimeout (u : Nat) : exec (.revocationConfirmTimeout u) s = .next (live s fun s =>
    if s.cnd.leases.any fun l => l.holder = u ∧ l.revoking then conductorFaulty (revokeWhere true (fun l => l.holder = u) s)
    else s) := rfl

/-- A resource is free where no lease is of it. -/
theorem resourceFree_iff {cls res : Nat} : resourceFree s cls res = true ↔ ∀ l ∈ s.cnd.leases, l.cls = cls → l.res ≠ res := by
  simp [resourceFree]

theorem tileUnit_lt (tile : TileId) : tileUnit tile < 64 := by
  unfold tileUnit
  omega

end

/-- Settles O13. -/
theorem revocationBusCommands : Obligations.RevocationBusCommands := by
  unfold Obligations.RevocationBusCommands
  intro s up
  refine ⟨fun cls res => goes_live up (exec_revokeLease cls res) ?lease, fun u hu => goes_live up (exec_quarantineUnit u) ?unit,
    fun u => goes_live up (exec_haltUnit u) ?halt, fun tile => goes_live up (exec_tileQuarantine tile) ?tile,
    fun u unconfirmed => goes_live up (exec_revocationConfirmTimeout u) ?late,
    fun u confirmed => idle_live (exec_revocationConfirmTimeout u) ?confirmed⟩
  case lease =>
    split
    · rename_i free
      refine ⟨fun l hl hc hr => absurd hr (resourceFree_iff.mp free l hl hc),
        fun ⟨l, hl, hc, hr⟩ => absurd hr (resourceFree_iff.mp free l hl hc), fun _ => ⟨rfl, ?_⟩⟩
      simp [revokedNow, noteRevoked]
    · rename_i taken
      refine ⟨fun l hl hc hr => revokeWhere_revokes (fun l m lm => by rw [lm.cls, lm.res]) l hl (by simp [hc, hr]),
        fun ⟨l, hl, hc, hr⟩ => ?_, fun free => absurd free taken⟩
      obtain ⟨w, hw, e⟩ := revokeWhere_wipes (p := fun l => l.cls = cls.val ∧ l.res = res) hl (by simp [hc, hr])
      exact ⟨w, hw, by rw [e, hc, hr]⟩
  case unit =>
    rw [if_pos hu]
    exact showSched_outOfWork.mpr (takeOut_outOfWork ..)
  case halt =>
    rw [showSched_keeps (shows_cnd (by decide)) rfl]
    have dropped : ∀ g ∈ (dropTask u s).cnd.grants, g.unit ≠ u := fun g hg => of_decide_eq_true (List.mem_filter.mp hg).2
    split
    · rename_i halted
      exact ⟨List.contains_iff_mem.mp halted, dropped⟩
    · exact ⟨List.mem_cons_self, dropped⟩
  case tile =>
    refine ⟨showSched_outOfWork.mpr (takeOut_outOfWork ..), ?_⟩
    rw [congrArg FrameSt.quarantined (showSched_keeps (shows_frame (x := _) (by decide)) rfl)]
    exact takeOut_quarantined (tileUnit_lt tile) s
  case late =>
    rw [if_pos (by simpa using unconfirmed)]
    exact conductorFaulty_revokes _
  case confirmed =>
    rw [if_neg]
    rw [Bool.not_eq_true, List.any_eq_false]
    intro l hl h
    obtain ⟨holder, revoking⟩ := of_decide_eq_true h
    rw [confirmed l hl holder] at revoking
    cases revoking

/-! # Quarantine and release by register writes -/

section
variable {s t : State} {n : Nat}

theorem exec_stwQuarWrite (r : Requester) (c : Fin 8) (bits : BitVec 8) :
    exec (.stwQuarWrite r c bits) s = .next (takeStwQuarWrite r c bits s) := rfl

theorem takeStwQuarWrite_allowed {r : Requester} {c : Fin 8} {bits : BitVec 8} (up : running s = true)
    (may : Sys2Proof.Claims.MayQuarantine s r c) : takeStwQuarWrite r c bits s =
      showSteward c.val (showSched (((List.range 8).filter fun t => bits.getLsbD t).foldl
        (fun s t => takeOut false (c.val * 8 + t) s) s)) := by
  unfold takeStwQuarWrite
  rw [live_of_running up]
  rcases may with rfl | rfl | rfl | ⟨rfl, lc⟩
  · rfl
  · rfl
  · simp
  · simp only [lc, decide_true]
    rfl

theorem takeStwQuarWrite_refused {r : Requester} {c : Fin 8} {bits : BitVec 8} (up : running s = true)
    (may : ¬ Sys2Proof.Claims.MayQuarantine s r c) : takeStwQuarWrite r c bits s = refuseAccess r (F.SWP_STW_QUAR_QUAR c.val).addr s := by
  unfold takeStwQuarWrite
  rw [live_of_running up]
  unfold Sys2Proof.Claims.MayQuarantine at may
  cases r <;> simp_all

/-- A unit that is released waits for the next edge (R28). -/
theorem releaseUnit_waits (n : Nat) (s : State) : Sys2Proof.Claims.ReleaseWaits n s (releaseUnit n s) := by
  unfold Sys2Proof.Claims.ReleaseWaits releaseUnit
  split
  · rename_i h
    simp only [List.contains_iff_mem] at h
    tauto
  · rename_i h
    simp only [List.contains_iff_mem] at h
    simp only [List.mem_append, List.mem_singleton]
    tauto

/-- A release writes nothing of the Conductor's state but what waits. -/
theorem releaseUnit_rest (n : Nat) (s : State) : releaseUnit n s = { s with cnd := { s.cnd with releasing := (releaseUnit n s).cnd.releasing } } := by
  unfold releaseUnit
  split <;> rfl

/-- The release of a unit leaves another as it was. -/
theorem releaseUnit_other {m : Nat} (h : m ≠ n) (s : State) : m ∈ (releaseUnit n s).cnd.releasing ↔ m ∈ s.cnd.releasing := by
  unfold releaseUnit
  split
  · rfl
  · simp [h]

/-- The releases of a list of units. -/
theorem releaseAll (ks : List Nat) (s : State) (b : Nat) :
    let t := ks.foldl (fun s k => releaseUnit (b + k) s) s
    t = { s with cnd := { s.cnd with releasing := t.cnd.releasing } } ∧
      ∀ k, (k ∈ ks → Sys2Proof.Claims.ReleaseWaits (b + k) s t) ∧ (k ∉ ks → (b + k ∈ t.cnd.releasing ↔ b + k ∈ s.cnd.releasing)) := by
  induction ks generalizing s with
  | nil => exact ⟨rfl, fun k => ⟨fun hk => (nomatch hk), fun _ => Iff.rfl⟩⟩
  | cons j ks ih =>
    obtain ⟨rest, waits⟩ := ih (releaseUnit (b + j) s)
    have first := releaseUnit_rest (b + j) s
    refine ⟨?_, fun k => ?_⟩
    · rw [List.foldl_cons, rest, first]
    · obtain ⟨inside, outside⟩ := waits k
      have safe : (releaseUnit (b + j) s).safe = s.safe := by rw [first]
      have retired : (releaseUnit (b + j) s).cnd.retired = s.cnd.retired := by rw [first]
      unfold Sys2Proof.Claims.ReleaseWaits at *
      rw [safe, retired] at inside
      have here := releaseUnit_waits (b + j) s
      unfold Sys2Proof.Claims.ReleaseWaits at here
      rw [List.foldl_cons]
      by_cases e : k = j
      · subst e
        refine ⟨fun _ => ?_, fun hk => absurd List.mem_cons_self hk⟩
        by_cases hk : k ∈ ks
        · rw [inside hk, here]
          tauto
        · rw [outside hk]
          exact here
      · have other := releaseUnit_other (m := b + k) (n := b + j) (by omega) s
        refine ⟨fun hk => ?_, fun hk => ?_⟩
        · rw [inside ((List.mem_cons.mp hk).resolve_left e), other]
        · rw [outside (fun h => hk (List.mem_cons_of_mem _ h)), other]

/-- The units of a mask that are released. -/
theorem releaseMask (w b : Nat) (bits : BitVec w) (s : State) :
    let t := ((List.range w).filter fun k => bits.getLsbD k).foldl (fun s k => releaseUnit (b + k) s) s
    t.cnd.outOfService = s.cnd.outOfService ∧
      ∀ k, k < w → bits.getLsbD k = true → Sys2Proof.Claims.ReleaseWaits (b + k) s t := by
  obtain ⟨rest, waits⟩ := releaseAll ((List.range w).filter fun k => bits.getLsbD k) s b
  refine ⟨?_, fun k hk on => (waits k).1 (List.mem_filter.mpr ⟨List.mem_range.mpr hk, on⟩)⟩
  rw [rest]

/-- A unit returns to service. -/
def returnUnit (s : State) (u : Nat) : State :=
  let s1 := showService u false { s with cnd := { s.cnd with outOfService := s.cnd.outOfService.filter (· ≠ u) } }
  if u < 64 then setFld (F.SWP_TILE_STAT_ENG_OK (u / 8) (u % 8)) 1 s1
  else if u < 72 then setFld (F.INF_TILE_STAT_ENG_OK (u - 64)) 15 s1 else s1

theorem releaseEdge_eq (s : State) : releaseEdge s = showInfService
    { s.cnd.releasing.foldl returnUnit s with cnd := { (s.cnd.releasing.foldl returnUnit s).cnd with releasing := [] } } := rfl

theorem returnUnit_cnd (s : State) (u : Nat) :
    (returnUnit s u).cnd = { s.cnd with outOfService := s.cnd.outOfService.filter (· ≠ u) } := by
  have shown {x : CndSt} {t : State} (h : t.cnd = x) : (showService u false t).cnd = x := showService_keeps (shows_cnd (by decide)) h
  unfold returnUnit
  extract_lets _ s1
  have returned : s1.cnd = { s.cnd with outOfService := s.cnd.outOfService.filter (· ≠ u) } := shown rfl
  have status {f : Fld} {v : Nat} : (setFld f v s1).cnd = _ := setFld_keeps (shows_cnd (by decide)) returned
  split
  · exact status
  · split
    · exact status
    · exact returned

/-- The units of a list return. -/
theorem returnUnits (us : List Nat) (s : State) : ∀ u, u ∈ us ∨ u ∉ s.cnd.outOfService → u ∉ (us.foldl returnUnit s).cnd.outOfService := by
  induction us generalizing s with
  | nil => exact fun u h => h.resolve_left (by simp)
  | cons x us ih =>
    intro u h
    refine ih _ u ?_
    rw [returnUnit_cnd, List.mem_filter]
    rcases h with h | h
    · rcases List.mem_cons.mp h with rfl | h
      · exact .inr (by simp)
      · exact .inl h
    · exact .inr fun hm => h hm.1

/-- The units that wait return at an edge (R28). -/
theorem releaseEdge_returns (s : State) :
    (∀ u ∈ s.cnd.releasing, u ∉ (releaseEdge s).cnd.outOfService) ∧ (releaseEdge s).cnd.releasing = [] := by
  rw [releaseEdge_eq, showInfService_keeps (shows_cnd (by decide)) rfl]
  exact ⟨fun u hu => returnUnits _ _ u (.inl hu), rfl⟩

end

/-- Settles O14. -/
theorem quarantineAndReleaseWrites : Obligations.QuarantineAndReleaseWrites := by
  unfold Obligations.QuarantineAndReleaseWrites
  intro c s up
  have tiles (t : State) : (takeSwpStwRelease .warden c · t) = fun bits => live t fun s =>
      ((List.range 8).filter fun t => bits.getLsbD t).foldl (fun s t => releaseUnit (c.val * 8 + t) s) s := rfl
  refine ⟨fun r bits may => ⟨_, exec_stwQuarWrite r c bits, ?quarantine⟩, fun r bits may => ⟨_, exec_stwQuarWrite r c bits, ?refused⟩,
    fun bits => goes_live (f := fun s => ((List.range 8).filter fun t => bits.getLsbD t).foldl (fun s t => releaseUnit (c.val * 8 + t) s) s)
      up rfl (releaseMask 8 (c.val * 8) bits s),
    goes_live (f := releaseUnit (64 + c.val)) up rfl ⟨?inf, releaseUnit_waits _ s⟩, idle_live (f := id) rfl rfl,
    fun bits => goes_live (f := fun s => ((List.range 4).filter fun n => bits.getLsbD n).foldl (fun s n => releaseUnit (72 + n) s) s)
      up rfl (releaseMask 4 72 bits s),
    fun r other => ⟨fun bits => goes_live (f := fun s => if r ≠ .warden then refuseAccess r (F.SWP_STW_RELEASE_RELEASE c.val).addr s
        else ((List.range 8).filter fun t => bits.getLsbD t).foldl (fun s t => releaseUnit (c.val * 8 + t) s) s) up rfl ?tiles,
      fun bit => goes_live (f := fun s => if r ≠ .warden then refuseAccess r F.INF_RELEASE_RELEASE.addr s
        else if bit then releaseUnit (64 + c.val) s else s) up rfl ?infs,
      fun bits => goes_live (f := fun s => if r ≠ .warden then refuseAccess r F.SLV_RELEASE_RELEASE.addr s
        else ((List.range 4).filter fun n => bits.getLsbD n).foldl (fun s n => releaseUnit (72 + n) s) s) up rfl ?lanes⟩,
    fun u hu => ⟨(releaseEdge_returns s).1 u hu, (releaseEdge_returns s).2⟩⟩
  case quarantine =>
    rw [takeStwQuarWrite_allowed up may]
    intro k hk on
    have out := takeOutAll (f := fun k => c.val * 8 + k) ((List.range 8).filter fun t => bits.getLsbD t) s k
      (List.mem_filter.mpr ⟨List.mem_range.mpr hk, on⟩)
    refine ⟨(outOfWork_of_cnd (showSteward_keeps (shows_cnd (by decide)) rfl)).mpr (showSched_outOfWork.mpr out.1), ?_⟩
    rw [congrArg FrameSt.quarantined (showSteward_keeps (shows_frame (x := _) (by decide)) (showSched_keeps (shows_frame (by decide)) rfl))]
    exact out.2 (show c.val * 8 + k < 64 by omega)
  case refused =>
    rw [takeStwQuarWrite_refused up may]
    exact refused_refuseAccess r _ s
  case inf => rw [releaseUnit_rest]
  case tiles => rw [if_pos other]; exact refused_refuseAccess r _ s
  case infs => rw [if_pos other]; exact refused_refuseAccess r _ s
  case lanes => rw [if_pos other]; exact refused_refuseAccess r _ s

end Sys2Proof.Machine

end

section

set_option Elab.async false

/-! # The registers that an access of the memories writes (R367 to R371)

Errors that an access meets show in the registers of MEM and WLD and in the log's; no other register changes. -/

namespace Sys2Proof.Machine

section
variable {s t : State} {l : List Nat}

/-! ## Registers of a list -/

theorem SameRegsBut.setFld {f : Fld} {v : Nat} (h : SameRegsBut l s t) (m : f.addr ∈ l) : SameRegsBut l s (setFld f v t) :=
  h.trans (setFld_same.mono fun _ ha => List.mem_singleton.mp ha ▸ m)

theorem SameRegsBut.setFlag {f : Fld} {b : Bool} (h : SameRegsBut l s t) (m : f.addr ∈ l) : SameRegsBut l s (setFlag f b t) := h.setFld m

theorem SameRegsBut.bump {f : Fld} (h : SameRegsBut l s t) (m : f.addr ∈ l) : SameRegsBut l s (bump f t) := h.setFld m

theorem SameRegsBut.report {e : Event} (h : SameRegsBut l s t) (m : logAddrs ⊆ l) : SameRegsBut l s (report e t) :=
  h.trans ((report_regs e t).mono m)

/-- Registers read the same where registers and image are. -/
theorem SameRegsBut.same {u : State} (h : SameRegsBut l s t) (i : u.image = t.image) (r : u.regs = t.regs) : SameRegsBut l s u :=
  fun a ha => (regWord_congr i r a).trans (h a ha)

theorem SameRegsBut.capture {f : Fld} {fs : List (Fld × Nat)} (h : SameRegsBut l s t) (m : f.addr ∈ l) (ms : ∀ p ∈ fs, p.1.addr ∈ l) :
    SameRegsBut l s (capture f fs t) := by
  have parts : ∀ (fs : List (Fld × Nat)) (t : State), (∀ p ∈ fs, p.1.addr ∈ l) → SameRegsBut l s t →
      SameRegsBut l s (fs.foldl (fun s p => Machine.setFld p.1 p.2 s) t) := by
    intro fs
    induction fs with
    | nil => exact fun t _ h => h
    | cons p fs ih =>
      exact fun t ms h => ih _ (fun q hq => ms q (List.mem_cons_of_mem _ hq)) (h.setFld (ms p List.mem_cons_self))
  exact ite_keeps (P := SameRegsBut l s) h (parts fs _ ms (h.setFlag m))

/-- Changes of other parts leave the registers. -/
theorem keeps_sameRegs {W : List Part} (h : ∀ p ∈ W, p ∉ ([.regs, .image, .vbat, .cold] : List Part)) : Keeps W (SameRegsBut l s) := by
  have image : ∀ x, Keeps W fun t => t.image = x := fun _ => shows_image fun q hq m => h q hq (by revert m; cases q <;> decide)
  have regs : ∀ x, Keeps W fun t => t.regs = x := fun _ => shows_regs fun q hq m => h q hq (by revert m; cases q <;> decide)
  exact .of_shows (Keeps.both image regs) fun x => ∀ a, a ∉ l → tabGet (resetWord x.1 a) x.2 a = regWord s a

/-! ## Accesses -/

/-- The registers that an access may write. -/
def memAddrs : List Nat := [F.WDN_FLOG_STAT_SEQ.addr, F.MEM_CE_CNT_COUNT.addr, F.MEM_UE_CNT_SCRUB_UE.addr, F.MEM_SEPIA_CNT_PARTIAL.addr,
  F.MEM_SEPIA_CNT_MARK_READ.addr, F.MEM_ERR_CAP_VALID.addr, F.MEM_ERR_ADDR_LO_ADDR.addr, F.MEM_ERR_ADDR_HI_ADDR.addr, F.WLD_ERR_STAT_SEPIA.addr]

/-- From s to t no register has changed but those that an access writes. -/
def MemRegs (s t : State) : Prop := SameRegsBut memAddrs s t

theorem keeps_memRegs {W : List Part} (h : ∀ p ∈ W, p ∉ ([.regs, .image, .vbat, .cold] : List Part)) : Keeps W (MemRegs s) :=
  keeps_sameRegs h

theorem report_memRegs {e : Event} (h : MemRegs s t) : MemRegs s (report e t) := h.report (by decide)

theorem memEvent_memRegs {k sy a : Nat} {v : Severity} (h : MemRegs s t) : MemRegs s (memEvent k sy a v t) := by
  unfold memEvent
  extract_lets code s1
  have told : MemRegs s s1 := report_memRegs h
  have captured : MemRegs s (capture F.MEM_ERR_CAP_VALID
      [(F.MEM_ERR_CAP_KIND, k), (F.MEM_ERR_CAP_SYNDROME, sy), (F.MEM_ERR_CAP_MEMORY, code)] s1) := by
    refine SameRegsBut.capture told (by decide) ?_
    simp only [List.forall_mem_cons]
    exact ⟨by decide, by decide, by decide, fun _ h => nomatch h⟩
  exact ite_keeps (P := MemRegs s) told (SameRegsBut.setFld (SameRegsBut.setFld captured (by decide)) (by decide))

theorem worldFault_memRegs {a : Nat} (h : MemRegs s t) : MemRegs s (worldFault a t) := by
  unfold worldFault
  extract_lets tell
  have flagged {t : State} (h : MemRegs s t) : MemRegs s (setFlag F.WLD_ERR_STAT_SEPIA true t) := SameRegsBut.setFlag h (by decide)
  have told {c : Nat} {t : State} (h : MemRegs s t) : MemRegs s (tell c t) := report_memRegs (flagged h)
  split
  · exact scheduleRewrite_keeps (keeps_memRegs (by decide)) (told h)
  · split
    · exact flagged (report_memRegs (flagged (SameRegsBut.same h rfl rfl)))
    · split
      · exact told (SameRegsBut.same h rfl rfl)
      · exact h

theorem findBad_memRegs {k a : Nat} (h : MemRegs s t) : MemRegs s (findBad k a t) := by
  unfold findBad
  have told := memEvent_memRegs (k := k) (sy := wordSynd t a) (a := a) (v := .warning) h
  exact worldFault_memRegs (setSynd_keeps (keeps_memRegs (by decide)) (ite_keeps (P := MemRegs s)
    (SameRegsBut.bump told (by decide)) (SameRegsBut.bump told (by decide))))

theorem countCe_memRegs {a : Nat} (h : MemRegs s t) : MemRegs s (countCe a t) := by
  unfold countCe
  split
  · exact h
  · exact SameRegsBut.bump (SameRegsBut.same h rfl rfl) (by decide)

theorem writePartial_memRegs {a : Nat} {bs : List Byte} {b : Bool} (h : MemRegs s t) : MemRegs s (writePartial a bs b t) := by
  have put {t : State} (h : MemRegs s t) : MemRegs s (putBytes a bs t) := putBytes_keeps (keeps_memRegs (by decide)) h
  unfold writePartial
  extract_lets s1
  have written : MemRegs s s1 := by
    unfold s1
    split
    · exact put h
    · exact put (correct_keeps (keeps_memRegs (by decide)) (countCe_memRegs h))
    · exact put (SameRegsBut.bump h (by decide))
    · exact put (findBad_memRegs h)
  exact ite_keeps (P := MemRegs s) (setSynd_keeps (keeps_memRegs (by decide)) written) written

theorem writeBytes_memRegs {b : Bool} {n a : Nat} {bs : List Byte} (h : MemRegs s t) : MemRegs s (writeBytes b n a bs t) := by
  induction n generalizing t a bs with
  | zero => exact h
  | succ n ih =>
    rw [writeBytes]
    exact ite_keeps (P := MemRegs s) h (ih (ite_keeps (P := MemRegs s) (writeFull_keeps (keeps_memRegs (by decide)) h) (writePartial_memRegs h)))

theorem probeWord_memRegs {k a : Nat} (h : MemRegs s t) : MemRegs s (probeWord k a t).2 := by
  unfold probeWord
  split
  · exact h
  · exact correct_keeps (keeps_memRegs (by decide)) (countCe_memRegs h)
  · exact SameRegsBut.bump h (by decide)
  · exact findBad_memRegs h

end

end Sys2Proof.Machine

end

section

set_option Elab.async false

/-! # The frame under what its commands share: doubts, quarantines and the hard stop of a phase (R25, R322, R332, R393) -/

namespace Sys2Proof.Machine

section
variable {s t u : State}

/-! ## Marks of the frame -/

/-- From s to t the frame has only been marked: with doubts and with quarantined tiles. -/
def OnlyMarks (s t : State) : Prop :=
  t.frame = { s.frame with flags := t.frame.flags, quarantined := t.frame.quarantined }

theorem OnlyMarks.of_frame (h : t.frame = s.frame) : OnlyMarks s t := by
  unfold OnlyMarks
  rw [h]

theorem OnlyMarks.refl (s : State) : OnlyMarks s s := .of_frame rfl

theorem OnlyMarks.trans (h : OnlyMarks s t) (g : OnlyMarks t u) : OnlyMarks s u := by
  unfold OnlyMarks at *
  rw [g, h]

theorem OnlyMarks.emittedFrame (h : OnlyMarks s t) : t.frame.emittedFrame = s.frame.emittedFrame := by rw [h]
theorem OnlyMarks.choice (h : OnlyMarks s t) : t.frame.choice = s.frame.choice := by rw [h]
theorem OnlyMarks.emissions (h : OnlyMarks s t) : t.frame.emissions = s.frame.emissions := by rw [h]
theorem OnlyMarks.num (h : OnlyMarks s t) : t.frame.num = s.frame.num := by rw [h]
theorem OnlyMarks.started (h : OnlyMarks s t) : t.frame.started = s.frame.started := by rw [h]
theorem OnlyMarks.edgeTick (h : OnlyMarks s t) : t.frame.edgeTick = s.frame.edgeTick := by rw [h]
theorem OnlyMarks.stopped (h : OnlyMarks s t) : t.frame.stopped = s.frame.stopped := by rw [h]

/-- What leaves the frame as it was keeps its marks. -/
theorem keeps_onlyMarks {W : List Part} (h : ∀ p ∈ W, p ∉ ([.frame, .stopped, .emit, .num, .cold] : List Part)) :
    Keeps W (OnlyMarks s) :=
  .of_shows (fun _ => shows_frame h) fun x => x = { s.frame with flags := x.flags, quarantined := x.quarantined }

theorem onlyMarks_markDoubt (b : Nat) (s : State) : OnlyMarks s (markDoubt b s) :=
  ite_keeps (P := OnlyMarks s) (.refl s) (bump_keeps (keeps_onlyMarks (by decide)) rfl)

theorem onlyMarks_doubtEvent (b : Nat) (e : Event) (s : State) : OnlyMarks s (doubtEvent b e s) :=
  report_keeps (keeps_onlyMarks (by decide)) (onlyMarks_markDoubt b s)

theorem onlyMarks_takeOut (warden : Bool) (n : Nat) (s : State) : OnlyMarks s (takeOut warden n s) := by
  have before : OnlyMarks s (clearAffinity n (dropTask n (revokeWhere warden (fun l => l.holder = n)
      (abandonOn n (loseItem n (returnBlock n s)))))) :=
    clearAffinity_keeps (keeps_onlyMarks (by decide)) (dropTask_keeps (keeps_onlyMarks (by decide))
      (revokeWhere_keeps (keeps_onlyMarks (by decide)) (abandonOn_keeps (keeps_onlyMarks (by decide))
        (loseItem_keeps (keeps_onlyMarks (by decide)) (returnBlock_keeps (keeps_onlyMarks (by decide)) (.refl s))))))
  unfold takeOut
  exact showService_keeps (keeps_onlyMarks (by decide)) (before.trans rfl)

/-! ## The hard stop of a phase -/

/-- The parts that the hard stop of a phase writes, but for the doubts of its overruns, and the units that they take out and that are
due for their packs. -/
def stopParts : List Part := [.indlog, .regs, .cnd, .log, .queue, .mem, .sec, .bus, .sent, .free]

/-- What survives a task timing overrun: that which survives its doubt, a unit's way out of service and the changes beside. -/
theorem overrun_induct {P : State → Prop} (C : Keeps stopParts P) (doubt : ∀ e s, P s → P (doubtEvent 4 e s))
    (out : ∀ n s, P s → P (takeOut false n s)) (due : ∀ k s, P s → P (kermesDue k s)) {k : OverrunKind} {u : Option Nat} {node : Nat} (h : P s) : P (overrun k u node s) := by
  unfold overrun
  extract_lets dom bound e s1 s2 s3
  have told : P s1 := ite_keeps (report_keeps (C.mono (by decide)) h) (doubt _ _ h)
  have captured : P s2 := capture_keeps (C.mono (by decide)) told
  have counted : P s3 := by
    unfold s3
    split <;> exact bump_keeps (C.mono (by decide)) captured
  split
  · exact counted
  · rename_i n
    extract_lets s4
    have lost : P s4 := slotLost_keeps (C.mono (by decide)) (ite_keeps (capture_keeps (C.mono (by decide)) counted) counted)
    exact ite_keeps (showSched_keeps (C.mono (by decide)) (due _ _ (out _ _ lost)))
      (showSched_keeps (C.mono (by decide)) (dropTask_keeps (C.mono (by decide)) (revokeWhere_keeps (C.mono (by decide))
        (loseItem_keeps (C.mono (by decide)) lost))))

/-- What survives the hard stop of a phase. -/
theorem phaseStop_induct {P : State → Prop} (C : Keeps stopParts P) (doubt : ∀ e s, P s → P (doubtEvent 4 e s))
    (out : ∀ n s, P s → P (takeOut false n s)) (due : ∀ k s, P s → P (kermesDue k s)) {p : Nat} (h : P s) : P (phaseStop p s) := by
  unfold phaseStop
  extract_lets of bounded ready running clear _ s1 s2 s3
  have cleared : P s1 := foldl_keeps (fun _ _ h => setNode_keeps (C.mono (by decide)) h) _ _ (C.upd_cnd (by decide) h)
  have overran : P s2 := foldl_keeps (fun _ _ h => overrun_induct C doubt out due h) _ _ cleared
  exact showSched_keeps (C.mono (by decide))
    (foldl_keeps (fun _ _ h => ite_keeps (overrun_induct C doubt out due h) (dropTask_keeps (C.mono (by decide)) h)) _ _ overran)

/-- The hard stop of a phase only marks the frame. -/
theorem onlyMarks_phaseStop (p : Nat) (s : State) : OnlyMarks s (phaseStop p s) :=
  phaseStop_induct (keeps_onlyMarks (by decide)) (fun e t h => h.trans (onlyMarks_doubtEvent 4 e t))
    (fun n t h => h.trans (onlyMarks_takeOut false n t)) (fun _ _ h => kermesDue_keeps (keeps_onlyMarks (by decide)) h) (.refl s)

/-! ## When a hard stop takes place (R30, R44) -/

/-- The phase's hard stop has taken place in the frame, or its tick has not come. -/
def StopIsIdle (s : State) (p : Nat) : Prop :=
  s.frame.stopped[p]? = some true ∨ s.time.count < s.frame.edgeTick + hardStop s p

variable {p : Nat} {f : State → State}

theorem atStop_idle (h : StopIsIdle s p) : atStop p f s = s := by
  unfold atStop
  refine if_pos ?_
  rcases h with taken | early
  · simp [List.getD, taken]
  · simp [early]

/-- The state in which what the hard stop of a phase does begins. -/
def stoppedAt (p : Nat) (s : State) : State := { s with frame := { s.frame with stopped := modAt p (fun _ => true) s.frame.stopped } }

theorem atStop_due (started : s.frame.started = true) (live : s.replay.active = false) (due : Claims.StopIsDue s p) :
    atStop p f s = f (stoppedAt p s) := by
  obtain ⟨open', come⟩ := due
  unfold atStop
  refine if_neg ?_
  simp [started, live, List.getD, open', Nat.not_lt.mpr come]

end

end Sys2Proof.Machine

end

section

set_option Elab.async false

/-! # The hard stops of the phases (R44 to R49, R64) -/

namespace Sys2Proof.Machine

section
variable {s t u : State} {p : Nat}

/-- A hard stop marks its phase and no more of the frame's number. -/
def Stopped (p : Nat) (s t : State) : Prop :=
  t.frame.stopped = modAt p (fun _ => true) s.frame.stopped ∧ t.frame.num = s.frame.num

theorem stopped_stoppedAt : Stopped p s (stoppedAt p s) := ⟨rfl, rfl⟩

theorem keeps_stopped {W : List Part} (h : ∀ q ∈ W, q ∉ ([.stopped, .num, .cold] : List Part)) : Keeps W (Stopped p s) := by
  have num : ∀ q ∈ W, q ∉ ([.num, .cold] : List Part) := fun q hq m => h q hq (List.mem_cons_of_mem _ m)
  exact (shows_stopped h).and (shows_num num)

/-! ## The fabric's phases -/

/-- The sweep has closed and no tile has a candidate in flight. -/
def SweepClosed (t : State) : Prop :=
  t.swp.closed = true ∧ ∀ x ∈ t.swp.tiles, x.2.todo = [] ∧ x.2.flight = [] ∧ x.2.offered = []

theorem keeps_sweepClosed {W : List Part} (h : ∀ q ∈ W, q ∉ ([.swp, .cold] : List Part)) : Keeps W SweepClosed :=
  .of_shows (fun _ => shows_swp h) fun x => x.closed = true ∧ ∀ e ∈ x.tiles, e.2.todo = [] ∧ e.2.flight = [] ∧ e.2.offered = []

theorem stopTiles_sweepClosed (s : State) : SweepClosed (stopTiles s) := by
  unfold stopTiles
  extract_lets s0 stop s1
  refine ⟨rfl, fun x hx => ?_⟩
  clear_value s1
  have kept : x ∈ (s1.swp.tiles.map stop).filter fun x => x.2 ≠ TileSt.idle := hx
  obtain ⟨y, -, rfl⟩ := List.mem_map.mp (List.mem_filter.mp kept).1
  exact ⟨rfl, rfl, rfl⟩

/-- A tile that no entry lists has offered nothing. -/
theorem offered_tabGet {l : Tab TileSt} {n : Nat} (h : ∀ x ∈ l, x.2.offered = []) : (tabGet TileSt.idle l n).offered = [] := by
  induction l with
  | nil => rfl
  | cons e es ih =>
    rw [tabGet]
    split
    · exact h e List.mem_cons_self
    · exact ih fun x hx => h x (List.mem_cons_of_mem _ hx)

theorem returnBlock_sweepClosed (n : Nat) (h : SweepClosed s) : SweepClosed (returnBlock n s) := by
  obtain ⟨closed, tiles⟩ := h
  unfold returnBlock
  split
  · exact ⟨closed, tiles⟩
  · extract_lets b give swp tile s1
    have offered : (tabGet TileSt.idle s.swp.tiles n).offered = [] := offered_tabGet fun x hx => (tiles x hx).2.2
    have back : SweepClosed s1 := by
      refine ⟨closed, fun x hx => ?_⟩
      rcases tabPut_mem hx with old | ⟨rfl, -⟩
      · exact tiles x old
      · exact ⟨rfl, rfl, offered⟩
    exact ite_keeps back (addReady_keeps (keeps_sweepClosed (by decide)) back)

theorem takeOut_sweepClosed (warden : Bool) (n : Nat) (h : SweepClosed s) : SweepClosed (takeOut warden n s) := by
  have keeps {W : List Part} := keeps_sweepClosed (W := W)
  unfold takeOut
  exact showService_keeps (keeps (by decide)) (Keeps.upd_frame_cnd_safe (W := [.frame, .cnd, .safe]) (keeps (by decide)) (by decide) (clearAffinity_keeps (keeps (by decide)) (dropTask_keeps (keeps (by decide))
    (revokeWhere_keeps (keeps (by decide)) (abandonOn_keeps (keeps (by decide)) (loseItem_keeps (keeps (by decide))
      (returnBlock_sweepClosed n h)))))))

theorem phaseStop_sweepClosed (h : SweepClosed s) : SweepClosed (phaseStop p s) :=
  phaseStop_induct (keeps_sweepClosed (by decide)) (fun _ _ h => doubtEvent_keeps (keeps_sweepClosed (by decide)) h)
    (fun n _ h => takeOut_sweepClosed false n h) (fun _ _ h => kermesDue_keeps (keeps_sweepClosed (by decide)) h) h

theorem proposeHardStop_stops {o : TestOutcome} {w : List (Fin 16 × Nat)} :
    Stopped 0 s (showFree (phaseStop 1 (infTestOutcome o (w.foldl cutDomain (stoppedAt 0 s))))) :=
  showFree_keeps (keeps_stopped (by decide)) (phaseStop_keeps (keeps_stopped (by decide)) (infTestOutcome_keeps (keeps_stopped (by decide))
    (foldl_keeps (fun _ _ h => cutDomain_keeps (keeps_stopped (by decide)) h) _ _ stopped_stoppedAt)))

theorem sweepHardStop_stops :
    Stopped 1 s (showFree (phaseStop 2 (stopTiles (stoppedAt 1 s)))) ∧ SweepClosed (showFree (phaseStop 2 (stopTiles (stoppedAt 1 s)))) :=
  ⟨showFree_keeps (keeps_stopped (by decide)) (phaseStop_keeps (keeps_stopped (by decide)) (stopTiles_keeps (keeps_stopped (by decide))
    stopped_stoppedAt)),
   showFree_keeps (keeps_sweepClosed (by decide)) (phaseStop_sweepClosed (stopTiles_sweepClosed _))⟩

theorem stopMerge_merged (n : Nat) (s : State) : (stopMerge n s).sel.merged = true := by
  have finished (t : State) : (finishSelect t).sel.merged = t.sel.merged := by
    unfold finishSelect
    have checks : ∀ (l : List PendReq) (t : State), (l.foldl answerCheck t).sel = t.sel := fun l t =>
      foldl_keeps (P := fun u : State => u.sel = t.sel) (fun _ _ h => answerCheck_keeps (shows_sel (by decide)) h) l t rfl
    have watches : ∀ (l : List PendReq) (t : State), (l.foldl answerWatch t).sel = t.sel := fun l t =>
      foldl_keeps (P := fun u : State => u.sel = t.sel) (fun _ _ h => answerWatch_keeps (shows_sel (by decide)) h) l t rfl
    simp only [watches, checks]
  unfold stopMerge
  simp only
  rw [setSat_keeps (shows_sel (by decide)) rfl, finished]

/-- What the select hard stop does in a frame. -/
def endSelect (n : Nat) (s : State) : State :=
  let s1 := if s.sel.merged then setFld F.SEL_STAT_UNMERGED 0 s else stopMerge n s
  let s2 := showFree (phaseStop 3 s1)
  if s2.sel.top = [] then
    sendOffer none (report (uncoded .noFree 0x80 .warning) { s2 with frame := { s2.frame with noFree := true } })
  else if doubted s2 then sendOffer none s2
  else s2

theorem endSelect_stopped {n : Nat} (h : Stopped p s t) : Stopped p s (endSelect n t) := by
  have keeps {W : List Part} := keeps_stopped (p := p) (s := s) (W := W)
  unfold endSelect
  extract_lets s1 s2
  have merged : Stopped p s s1 := ite_keeps (setFld_keeps (keeps (by decide)) h) (stopMerge_keeps (keeps (by decide)) h)
  have ended : Stopped p s s2 := showFree_keeps (keeps (by decide)) (phaseStop_keeps (keeps (by decide)) merged)
  exact ite_keeps (sendOffer_keeps (keeps (by decide)) (report_keeps (keeps (by decide)) ended))
    (ite_keeps (sendOffer_keeps (keeps (by decide)) ended) ended)

theorem endSelect_merged (n : Nat) (s : State) : (endSelect n s).sel.merged = true := by
  unfold endSelect
  extract_lets s1 s2
  have merged : s1.sel.merged = true := by
    unfold s1
    split
    · rename_i h
      exact (congrArg SelSt.merged (setFld_keeps (shows_sel (x := s.sel) (by decide)) rfl)).trans h
    · exact stopMerge_merged n s
  have ended : s2.sel = s1.sel := showFree_keeps (shows_sel (by decide)) (phaseStop_keeps (shows_sel (by decide)) rfl)
  have kept : (if s2.sel.top = [] then
      sendOffer none (report (uncoded .noFree 0x80 .warning) { s2 with frame := { s2.frame with noFree := true } })
    else if doubted s2 then sendOffer none s2 else s2).sel = s2.sel :=
    ite_keeps (P := fun t : State => t.sel = s2.sel) (sendOffer_keeps (shows_sel (by decide)) (report_keeps (shows_sel (by decide)) rfl))
      (ite_keeps (P := fun t : State => t.sel = s2.sel) (sendOffer_keeps (shows_sel (by decide)) rfl) rfl)
  rw [kept, ended, merged]

/-- A lane that the refine hard stop catches is halted (R309). -/
def haltLane (factorising : List (Fin 4)) (s : State) (n : Nat) : State :=
  let l := laneSt s n
  if l.entry.isSome && l.outcome.isNone && !outOfService s (72 + n) then
    setLane n { l with outcome := some (if factorising.any fun k => k.val = n then 5 else 4) } s
  else s

/-- What the refine hard stop does in a frame. -/
def endRefine (factorising : List (Fin 4)) (s : State) : State :=
  let s1 := if s.slv.handed then s
    else
      let cut := (List.range 4).any fun n => (laneSt s n).entry.isSome && (laneSt s n).outcome.isNone
      let s2 := handOn ((List.range 4).foldl (haltLane factorising) s)
      if cut then bump F.SLV_STAT_TRUNC s2 else s2
  showFree (phaseStop 4 s1)

theorem haltLane_sel {l : List (Fin 4)} {n : Nat} : (haltLane l s n).sel = s.sel :=
  ite_keeps (P := fun t : State => t.sel = s.sel) rfl rfl

theorem haltLane_stopped {l : List (Fin 4)} {n : Nat} (h : Stopped p s t) : Stopped p s (haltLane l t n) :=
  ite_keeps (setLane_keeps (keeps_stopped (by decide)) h) h

/-- The Solver hands a trajectory on where Select had handed a candidate over (R285, R307). -/
theorem handOn_handed (h : s.sel.top ≠ []) : (handOn s).slv.handed = true := by
  have handed (l k i n : Nat) (t : Traj) (u : State) : (showResult l k i n (handToMadder t u)).slv.handed = true := by
    rw [showResult_keeps (shows_slv (by decide)) rfl]
    exact congrArg SlvSt.handed (sendOffer_keeps (shows_slv (by decide)) rfl)
  have sel : ((List.range 4).foldl showLane s).sel = s.sel :=
    foldl_keeps (P := fun u : State => u.sel = s.sel) (fun _ _ h => showLane_keeps (shows_sel (by decide)) h) _ _ rfl
  unfold handOn
  extract_lets s1
  split
  · exact handed ..
  · exact handed ..
  · rename_i none' 
    exact absurd (sel ▸ none') h

theorem endRefine_stopped {l : List (Fin 4)} (h : Stopped p s t) : Stopped p s (endRefine l t) := by
  have keeps {W : List Part} := keeps_stopped (p := p) (s := s) (W := W)
  have handed : Stopped p s (handOn ((List.range 4).foldl (haltLane l) t)) :=
    handOn_keeps (keeps (by decide)) (foldl_keeps (fun _ _ h => haltLane_stopped h) _ _ h)
  unfold endRefine
  exact showFree_keeps (keeps (by decide)) (phaseStop_keeps (keeps (by decide))
    (ite_keeps h (ite_keeps (bump_keeps (keeps (by decide)) handed) handed)))

theorem endRefine_handed {l : List (Fin 4)} (h : s.sel.top ≠ []) : (endRefine l s).slv.handed = true := by
  have top : ((List.range 4).foldl (haltLane l) s).sel = s.sel :=
    foldl_keeps (P := fun t : State => t.sel = s.sel) (fun _ _ h => haltLane_sel.trans h) _ _ rfl
  have handed : (handOn ((List.range 4).foldl (haltLane l) s)).slv.handed = true := handOn_handed (top ▸ h)
  unfold endRefine
  extract_lets cut s2 s1
  have before : s1.slv.handed = true := by
    unfold s1
    split
    · assumption
    · exact ite_keeps (P := fun t : State => t.slv.handed = true)
        ((congrArg SlvSt.handed (bump_keeps (shows_slv (by decide)) rfl)).trans handed) handed
  exact (congrArg SlvSt.handed (showFree_keeps (shows_slv (by decide)) (phaseStop_keeps (shows_slv (by decide)) rfl))).trans before

/-- Each hard stop of the fabric's phases completes. -/
theorem fabricHardStopsComplete : Claims.FabricHardStopsComplete := by
  intro s up started live
  refine ⟨fun o w due => goes_fabric up rfl ?_, fun due => goes_fabric up rfl ?_,
    fun n due => goes_fabric up (f := atStop 2 (endSelect n)) rfl ?_,
    fun l due => goes_fabric up (f := atStop 3 (endRefine l)) rfl ?_⟩ <;> rw [atStop_due started live due]
  · exact proposeHardStop_stops
  · obtain ⟨⟨stopped, -⟩, closed⟩ := sweepHardStop_stops (s := s)
    exact ⟨stopped, closed⟩
  · exact ⟨(endSelect_stopped stopped_stoppedAt).1, endSelect_merged n _⟩
  · exact ⟨(endRefine_stopped stopped_stoppedAt).1, endRefine_handed (s := stoppedAt 3 s)⟩

/-- No hard stop takes place twice or early. -/
theorem hardStopHappensOnce : Claims.HardStopHappensOnce := by
  intro s idle
  exact ⟨fun _ _ h => idle_fabric rfl (atStop_idle h), fun h => idle_fabric rfl (atStop_idle h), fun _ h => idle_fabric rfl (atStop_idle h),
    fun _ h => idle_fabric rfl (atStop_idle h), fun _ h => idle_live rfl (atStop_idle h), fun _ h => idle_live rfl (atStop_idle h)⟩

/-- Settles O7. -/
theorem fabricHardStopsCompleteOnce : Obligations.FabricHardStopsCompleteOnce := ⟨fabricHardStopsComplete, hardStopHappensOnce⟩

/-! ## Verify -/

theorem chooseBundle_chosen (s : State) : (chooseBundle s).frame.choice.isSome = true := by
  unfold chooseBundle
  extract_lets put
  refine ite_keeps (P := fun t : State => t.frame.choice.isSome = true) rfl
    (ite_keeps (P := fun t : State => t.frame.choice.isSome = true) rfl ?_)
  split
  · exact ite_keeps (P := fun t : State => t.frame.choice.isSome = true) rfl rfl
  · rfl

/-- What the verify hard stop does in a frame. -/
def endVerify (digestLate : Bool) (s : State) : State :=
  let s1 := phaseStop 5 (unfinishedVerify (if digestLate && !s.frame.emittedFrame then wardenOverrun s else s))
  if s1.frame.choice.isNone then chooseBundle s1 else s1

theorem endVerify_chosen (late : Bool) (s : State) : (endVerify late s).frame.choice.isSome = true := by
  unfold endVerify
  extract_lets s1
  split
  · exact chooseBundle_chosen s1
  · rename_i h
    exact Option.isSome_iff_ne_none.mpr fun e => h (Option.isNone_iff_eq_none.mpr e)

theorem endVerify_keeps {P : State → Prop} (C : Keeps (.frame :: stopParts ++ [.safe, .swp, .twin]) P) {late : Bool} (h : P s) :
    P (endVerify late s) := by
  unfold endVerify
  extract_lets s1
  have ended : P s1 := phaseStop_keeps (C.mono (by decide)) (unfinishedVerify_keeps (C.mono (by decide))
    (ite_keeps (wardenOverrun_keeps (C.mono (by decide)) h) h))
  exact ite_keeps (chooseBundle_keeps (C.mono (by decide)) ended) ended

/-! ## Emit -/

/-- A bundle has gone out since s, the frame's n-th. -/
def Emitted (s : State) (n : Nat) (t : State) : Prop :=
  t.frame.emittedFrame = true ∧ t.frame.emissions = n ∧ ∃ b l m, t.sent = l ++ Output.bundle b :: (m ++ s.sent)

/-- The frame's emissions stand at n and nothing that had been sent is gone. -/
def Emitting (s : State) (n : Nat) (t : State) : Prop := t.frame.emissions = n ∧ ∃ m, t.sent = m ++ s.sent

theorem keeps_emitting {W : List Part} {n : Nat} (h : ∀ q ∈ W, q ∉ ([.emit, .num, .cold] : List Part)) : Keeps W (Emitting s n) :=
  (shows_emissions h).and shows_sent

theorem Emitted.of_sent {n : Nat} (h : Emitted s n t) (f : u.frame = t.frame) (g : ∃ l, u.sent = l ++ t.sent) : Emitted s n u := by
  obtain ⟨emitted, count, b, l, m, out⟩ := h
  obtain ⟨k, more⟩ := g
  exact ⟨f ▸ emitted, f ▸ count, b, k ++ l, m, by rw [more, out, List.append_assoc]⟩

theorem putBundle_emits (b : BundleBody) {n : Nat} (h : Emitting s n t) : Emitted s (n + 1) (putBundle b t) := by
  obtain ⟨count, m, out⟩ := h
  unfold putBundle
  refine Emitted.of_sent (t := send (.bundle (bundleBytes t b)) { t with frame := { t.frame with
    emittedFrame := true, emissions := t.frame.emissions + 1, out := some b, outStatus := bundleStatus t b } }) ?sent
    (transmitBundle_keeps (shows_frame (by decide)) rfl) (transmitBundle_keeps shows_sent ⟨[], rfl⟩)
  exact ⟨rfl, congrArg (· + 1) count, _, [], m, by rw [← out]; rfl⟩

theorem emitBundle_emits {n : Nat} (h : Emitting s n t) : Emitted s (n + 1) (emitBundle t) := by
  have keeps {W : List Part} := keeps_emitting (s := s) (n := n) (W := W)
  unfold emitBundle
  extract_lets s1
  have judged : Emitting s n s1 := judgeLapse_keeps (keeps (by decide)) h
  split
  · exact putBundle_emits _ (raiseFloor_keeps (keeps (by decide)) (takeV_keeps (keeps (by decide)) (releaseHold_keeps (keeps (by decide)) judged)))
  · exact putBundle_emits _ (holdBody_keeps (keeps (by decide)) (takeOver_keeps (keeps (by decide)) judged))

theorem emitLast_emits {late : Bool} {n : Nat} (open' : t.frame.emittedFrame = false) (h : Emitting s n t) :
    Emitted s (n + 1) (emitLast late t) := by
  unfold emitLast
  rw [if_neg (by simp [open'])]
  split
  · exact emitBundle_emits (wardenOverrun_keeps (keeps_emitting (by decide)) h)
  · exact emitBundle_emits (phaseDone_keeps (keeps_emitting (by decide)) h)

theorem emitLast_of_emitted {late : Bool} (h : s.frame.emittedFrame = true) : emitLast late s = s := if_pos h

theorem closeFrame_emits {late : Bool} {n : Nat} (open' : t.frame.emittedFrame = false) (h : Emitting s n t) :
    Emitted s (n + 1) (closeFrame late t) := by
  have emitted : Emitted s (n + 1) (emitLast late (phaseStop 6 t)) :=
    emitLast_emits ((onlyMarks_phaseStop 6 t).emittedFrame.trans open') (phaseStop_keeps (keeps_emitting (by decide)) h)
  exact emitted.of_sent (endFrame_keeps (shows_frame (by decide)) rfl) (endFrame_keeps shows_sent ⟨[], rfl⟩)

theorem closeFrame_of_emitted {late : Bool} (h : s.frame.emittedFrame = true) :
    (closeFrame late s).frame.emissions = s.frame.emissions := by
  unfold closeFrame
  rw [emitLast_of_emitted ((onlyMarks_phaseStop 6 s).emittedFrame.trans h),
    endFrame_keeps (shows_emissions (by decide)) (onlyMarks_phaseStop 6 s).emissions]

/-- Settles O6. -/
theorem verifyAndEmitComplete : Obligations.VerifyAndEmitComplete := by
  intro s up started live
  refine ⟨fun late due => goes_live up (f := atStop 4 (endVerify late)) rfl ?_,
    fun late due => goes_live up (f := atStop 5 (closeFrame late)) rfl ?_⟩ <;> rw [atStop_due started live due]
  · exact ⟨endVerify_keeps (shows_stopped (by decide)) rfl, endVerify_chosen late _, endVerify_keeps (shows_emissions (by decide)) rfl⟩
  · refine ⟨closeFrame_keeps (shows_stopped (by decide)) rfl, ?_, closeFrame_of_emitted (s := stoppedAt 5 s)⟩
    exact fun open' => closeFrame_emits (t := stoppedAt 5 s) open' ⟨rfl, [], rfl⟩

end

end Sys2Proof.Machine

end

section

set_option Elab.async false

/-! # The frame edge (R39, R42, R443, R446, R588) -/

namespace Sys2Proof.Machine

section
variable {s t u : State}

/-! ## The number of the next frame -/

/-- From s to t a device sends on Woad channels and its boot goes on, with its twin's state and frame 0 as they were. -/
def OnlySends (s t : State) : Prop :=
  t.twin = { s.twin with txCtr := t.twin.txCtr } ∧ t.boot = { s.boot with floorDone := t.boot.floorDone }

theorem OnlySends.refl (s : State) : OnlySends s s := ⟨rfl, rfl⟩

theorem OnlySends.trans (h : OnlySends s t) (g : OnlySends t u) : OnlySends s u := by
  obtain ⟨twin, boot⟩ := h
  obtain ⟨twin', boot'⟩ := g
  unfold OnlySends
  rw [twin', boot', twin, boot]
  exact ⟨rfl, rfl⟩

theorem keeps_onlySends {W : List Part} (h : ∀ p ∈ W, p ∉ ([.twin, .pair, .boot, .cold] : List Part)) : Keeps W (OnlySends s) := by
  have twin (x : TwinSt) : Keeps W fun t => t.twin = x := shows_twin fun q hq m => h q hq (by revert m; cases q <;> decide)
  have boot (x : BootSt) : Keeps W fun t => t.boot = x := shows_boot fun q hq m => h q hq (by revert m; cases q <;> decide)
  exact (Keeps.of_shows twin fun x => x = { s.twin with txCtr := x.txCtr }).and
    (Keeps.of_shows boot fun x => x = { s.boot with floorDone := x.floorDone })

theorem onlySends_sendSealed (chan ty : Nat) (payload : List Byte) (out : Nat → List (List Byte) → Output) (s : State) :
    OnlySends s (sendSealed chan ty payload out s) := ite_keeps (P := OnlySends s) (.refl s) ⟨rfl, rfl⟩

theorem onlySends_sendWoad (chan : Nat) (m : WoadMsg) (s : State) : OnlySends s (sendWoad chan m s) := by
  unfold sendWoad
  split
  · exact ite_keeps (P := OnlySends s) (.refl s) ⟨rfl, rfl⟩
  · exact onlySends_sendSealed ..

theorem onlySends_transmitBundle (b : BundleBody) (s : State) : OnlySends s (transmitBundle b s) := by
  unfold transmitBundle
  extract_lets s1 src
  have queued : OnlySends s s1 := ite_keeps (P := OnlySends s)
    (queueBundle_keeps (keeps_onlySends (by decide)) (ite_keeps (P := OnlySends s) (bump_keeps (keeps_onlySends (by decide)) (.refl s)) (.refl s)))
    (.refl s)
  exact ite_keeps (P := OnlySends s) (queued.trans (onlySends_sendWoad ..)) queued

theorem onlySends_raiseFloor (s : State) : OnlySends s (raiseFloor s) := by
  unfold raiseFloor
  extract_lets n boot s1
  have done : OnlySends s s1 := ⟨rfl, rfl⟩
  exact ite_keeps (P := OnlySends s) (.refl s) (ite_keeps (P := OnlySends s) done
    (report_keeps (keeps_onlySends (by decide)) (showFuses_keeps (keeps_onlySends (by decide)) ⟨rfl, rfl⟩)))

theorem onlySends_putBundle (b : BundleBody) (s : State) : OnlySends s (putBundle b s) :=
  OnlySends.trans ⟨rfl, rfl⟩ (onlySends_transmitBundle ..)

theorem onlySends_emitBundle (s : State) : OnlySends s (emitBundle s) := by
  unfold emitBundle
  extract_lets s1
  have judged : OnlySends s s1 := judgeLapse_keeps (keeps_onlySends (by decide)) (.refl s)
  split
  · have taken (v : VTraj) : OnlySends s (takeV v (releaseHold s1)) :=
      takeV_keeps (keeps_onlySends (by decide)) (releaseHold_keeps (keeps_onlySends (by decide)) judged)
    exact ((taken _).trans (onlySends_raiseFloor _)).trans (onlySends_putBundle ..)
  · have held : OnlySends s (holdBody (takeOver { s1 with slv := { s1.slv with warm := none } })).2 :=
      holdBody_keeps (keeps_onlySends (by decide)) (takeOver_keeps (keeps_onlySends (by decide)) judged)
    exact held.trans (onlySends_putBundle ..)

theorem onlySends_closeFrame (late : Bool) (s : State) : OnlySends s (closeFrame late s) := by
  have stopped : OnlySends s (phaseStop 6 s) := phaseStop_keeps (keeps_onlySends (by decide)) (.refl s)
  have emitted : OnlySends (phaseStop 6 s) (emitLast late (phaseStop 6 s)) := by
    unfold emitLast
    exact ite_keeps (P := OnlySends _) (.refl _) (ite_keeps (P := OnlySends _)
      (.trans (wardenOverrun_keeps (keeps_onlySends (by decide)) (.refl _)) (onlySends_emitBundle _))
      (.trans (phaseDone_keeps (keeps_onlySends (by decide)) (.refl _)) (onlySends_emitBundle _)))
  exact endFrame_keeps (keeps_onlySends (by decide)) (stopped.trans emitted)

/-- What decides the number of the next frame: the time, the frame's number, and the twin's edge or the start. -/
def SameNext (s t : State) : Prop :=
  t.time.count = s.time.count ∧ t.frame.num = s.frame.num ∧ t.boot.frameZero = s.boot.frameZero ∧ adoptNumber t = adoptNumber s ∧
    t.replay = s.replay

theorem SameNext.refl (s : State) : SameNext s s := ⟨rfl, rfl, rfl, rfl, rfl⟩

theorem SameNext.nextNumber (h : SameNext s t) :
    nextNumber t = (adoptNumber s).getD (if s.boot.frameZero then 0 else s.frame.num + 1) := by
  obtain ⟨-, num, zero, adopt, -⟩ := h
  unfold Machine.nextNumber
  rw [adopt, zero, num]
  cases adoptNumber s <;> rfl

theorem adoptNumber_of_twin {c : List Nat} {x : Nat} (h : t.twin = { s.twin with txCtr := c, xlateRun := x }) :
    adoptNumber t = adoptNumber s := by
  unfold adoptNumber follows paired
  rw [h]

theorem closeFrame_next (late : Bool) (s : State) : SameNext s (closeFrame late s) := by
  obtain ⟨twin, boot⟩ := onlySends_closeFrame late s
  exact ⟨closeFrame_keeps (shows_count (by decide)) rfl, closeFrame_keeps (shows_num (by decide)) rfl,
    by rw [boot], adoptNumber_of_twin twin, closeFrame_keeps (shows_replay (by decide)) rfl⟩

theorem countXlate_next (h : SameNext s t) : SameNext s (countXlate t) := by
  obtain ⟨count, num, zero, adopt, replay⟩ := h
  have twin : ∃ x, (countXlate t).twin = { t.twin with txCtr := t.twin.txCtr, xlateRun := x } := by
    unfold countXlate
    extract_lets rs n
    split
    · exact ⟨_, rfl⟩
    · exact ⟨n, setSat_keeps (shows_twin (by decide)) rfl⟩
  obtain ⟨x, twin⟩ := twin
  exact ⟨countXlate_keeps (shows_count (by decide)) count, countXlate_keeps (shows_num (by decide)) num,
    (congrArg BootSt.frameZero (countXlate_keeps (shows_boot (by decide)) rfl)).trans zero,
    (adoptNumber_of_twin twin).trans adopt, countXlate_keeps (shows_replay (by decide)) replay⟩

/-! ## The new frame -/

/-- A frame n has started at tick e, and no hard stop of it has taken place; no replay is open. -/
def Started (n : FrameNo) (e : Tick) (t : State) : Prop :=
  (t.frame.started = true ∧ t.frame.edgeTick = e ∧ t.frame.stopped = List.replicate 6 false ∧ t.frame.num = n) ∧
    t.replay.active = false

variable {n : FrameNo} {e : Tick}

theorem keeps_started {W : List Part} (h : ∀ p ∈ W, p ∉ ([.stopped, .num, .replay, .cold] : List Part)) : Keeps W (Started n e) := by
  have num : ∀ q ∈ W, q ∉ ([.num, .cold] : List Part) := fun q hq m => h q hq (by revert m; cases q <;> decide)
  have stopped : ∀ q ∈ W, q ∉ ([.stopped, .num, .cold] : List Part) := fun q hq m => h q hq (by revert m; cases q <;> decide)
  have replay (x : ReplaySt) : Keeps W fun t => t.replay = x := shows_replay fun q hq m => h q hq (by revert m; cases q <;> decide)
  exact ((shows_started num).and ((shows_edgeTick num).and ((shows_stopped stopped).and (shows_num num)))).and
    (Keeps.of_shows replay fun x => x.active = false)

theorem newFrame_started (h : s.replay.active = false) : Started n e (newFrame n e s) := by
  have keeps {W : List Part} := keeps_started (n := n) (e := e) (W := W)
  unfold newFrame
  extract_lets carry s0 frame s1 s2
  have replay : s0.replay = s.replay := setFld_keeps (shows_replay (by decide))
    (ite_keeps (P := fun t : State => t.replay = s.replay) (setFld_keeps (shows_replay (by decide)) rfl) rfl)
  have begun : Started n e s1 := ⟨⟨rfl, rfl, rfl, rfl⟩, by rw [← h, ← replay]⟩
  have marked : Started n e s2 := foldl_keeps (fun _ _ h => ite_keeps h
    (ite_keeps (mixFrame_keeps (keeps (by decide)) h) (markDoubt_keeps (keeps (by decide)) h))) _ _ begun
  exact setFld_keeps (keeps (by decide)) (setFld_keeps (keeps (by decide)) (setFld_keeps (keeps (by decide)) marked))

/-- A restart that begins outside a replay leaves the frame's number (R412, R591). -/
theorem triggerRestart_started (r : RestartTrigger) (doubt : Bool) (h : Started n e s) : Started n e (triggerRestart r doubt s) := by
  have keeps {W : List Part} := keeps_started (n := n) (e := e) (W := W)
  cases running : s.safe.restart with
  | some x =>
    rw [triggerRestart_of_running running]
    exact report_keeps (keeps (by decide)) h
  | none =>
    have left : leaveReplay s = s := if_pos (by simp [h.2])
    rw [triggerRestart_of_none running]
    refine ite_keeps (refuseRestart_keeps (keeps (by decide)) h) ?_
    unfold beginRestart
    rw [left]
    exact setSat_keeps (keeps (by decide)) (setFlag_keeps (keeps (by decide))
      (Keeps.upd_restart (W := [.restart]) (keeps (by decide)) (by decide)
        (haltFabric_keeps (keeps (by decide)) (report_keeps (keeps (by decide)) (refuseSwaps_keeps (keeps (by decide)) h)))))

theorem eccFailure_started (p : EccPort) (h : Started n e s) : Started n e (eccFailure s p) := by
  have keeps {W : List Part} := keeps_started (n := n) (e := e) (W := W)
  unfold eccFailure
  extract_lets told
  have recorded (u : Nat) (sev : Severity) {t : State} (h : Started n e t) : Started n e (told u sev t) :=
    report_keeps (keeps (by decide)) h
  split
  · exact showSched_keeps (keeps (by decide)) (takeOut_keeps (keeps (by decide)) (slotLost_keeps (keeps (by decide)) (recorded _ _ h)))
  · exact showInfService_keeps (keeps (by decide)) (showSched_keeps (keeps (by decide)) (takeOut_keeps (keeps (by decide))
      (slotLost_keeps (keeps (by decide)) (recorded _ _ h))))
  · exact triggerRestart_started _ _ (report_keeps (keeps (by decide)) h)
  · exact ite_keeps (fatal_keeps (keeps (by decide)) h) (triggerRestart_started _ _ (recorded _ _ h))

/-- What follows the start of a frame at its edge leaves its number and tick. -/
theorem liveEdge_started (r : EdgeReadings) (h : s.replay.active = false) :
    Started ((adoptNumber s).getD (if s.boot.frameZero then 0 else s.frame.num + 1)) s.time.count (liveEdge r s) := by
  have keeps {W : List Part} {n : FrameNo} {e : Tick} := keeps_started (n := n) (e := e) (W := W)
  unfold liveEdge
  extract_lets adopt sc s0 twin s1 s2 open' s3 swapped s4 s5 s6
  have closed : SameNext s sc := ite_keeps (P := SameNext s) (closeFrame_next false s) (.refl s)
  have counted : SameNext s s0 := ite_keeps (P := SameNext s) (countXlate_next closed) closed
  rw [← counted.nextNumber, ← counted.1]
  have replay : s0.replay.active = false := counted.2.2.2.2 ▸ h
  have begun : Started (nextNumber s0) s0.time.count s1 := placeOrigin_keeps (keeps (by decide)) (newFrame_started replay)
  have swapped : Started (nextNumber s0) s0.time.count s3 :=
    swapEdge_keeps (keeps (by decide)) (completeRestart_keeps (keeps (by decide)) begun)
  have worked : Started (nextNumber s0) s0.time.count s4 :=
    fabricEdge_keeps (keeps (by decide)) (kermesEdge_keeps (keeps (by decide)) swapped)
  have failed : Started (nextNumber s0) s0.time.count s5 := foldl_keeps (fun _ p h => eccFailure_started p h) _ _ worked
  have opened : Started (nextNumber s0) s0.time.count s6 := openRecentre_keeps (keeps (by decide)) (reloadEdge_keeps (keeps (by decide))
    (twinEdge_keeps (keeps (by decide)) failed))
  exact showHold_keeps (keeps (by decide)) (statusEdge_keeps (keeps (by decide)) (wakeNote_keeps (keeps (by decide))
    (indigoEdge_keeps (keeps (by decide)) (lapseClock_keeps (keeps (by decide)) (readPower_keeps (keeps (by decide))
      (ite_keeps (hearStreams_keeps (keeps (by decide)) opened) opened))))))

/-- While a replay is open the live counter alone goes on (R588). -/
theorem replayEdge_counts (r : EdgeReadings) (s : State) :
    (replayEdge r s).replay.live = s.replay.live + 1 ∧ (replayEdge r s).frame = s.frame := by
  have replay : (replayEdge r s).replay = { s.replay with live := s.replay.live + 1 } :=
    statusEdge_keeps (shows_replay (by decide)) (indigoEdge_keeps (shows_replay (by decide)) (readPower_keeps (shows_replay (by decide)) rfl))
  exact ⟨congrArg ReplaySt.live replay, replayEdge_keeps (shows_frame (by decide)) rfl⟩

/-- Settles O5. -/
theorem frameEdgeNumbersTheFrame : Obligations.FrameEdgeNumbersTheFrame := by
  intro r s up
  refine ⟨fun due open' => goes_live up rfl ?_, fun open' => goes_live up rfl ?_, fun early => idle_live rfl ?_⟩
  · simp only [due, open', Bool.not_true, Bool.false_eq_true, if_false]
    exact (liveEdge_started r open').1
  · have due : edgeDue s = true := by simp [edgeDue, open']
    simp only [due, open', Bool.not_true, Bool.false_eq_true, if_false, if_true]
    obtain ⟨live, frame⟩ := replayEdge_counts r s
    exact ⟨live, by rw [frame], by rw [frame]⟩
  · simp [early]

end

end Sys2Proof.Machine

end

section

set_option Elab.async false

/-! # The Warden's settings (R12, R32)

The registers from 0x800 to 0xBFF hold what the Warden is told: limits, thresholds and windows. Only a register write and a swap change
them; what the machine does in a frame writes registers of status and counters alone, which stand elsewhere. -/

namespace Sys2Proof.Machine

section
variable {s t u : State}

/-- The Warden's settings read the same in t as in s. -/
def SameSettings (s t : State) : Prop := ∀ a, 0x800 ≤ a → a < 0xC00 → regWord t a = regWord s a

theorem SameSettings.refl (s : State) : SameSettings s s := fun _ _ _ => rfl

theorem SameSettings.trans (h : SameSettings s t) (g : SameSettings t u) : SameSettings s u :=
  fun a lo hi => (g a lo hi).trans (h a lo hi)

/-- Settings stand where registers and image do. -/
theorem SameSettings.same (h : SameSettings s t) (i : u.image = t.image) (r : u.regs = t.regs) : SameSettings s u :=
  fun a lo hi => (regWord_congr i r a).trans (h a lo hi)

theorem SameSettings.fld (h : SameSettings s t) {f : Fld} (lo : 0x800 ≤ f.addr) (hi : f.addr < 0xC00) : fld t f = fld s f := by
  unfold Machine.fld
  rw [h _ lo hi]

/-- Changes of other parts than registers leave the settings. -/
theorem keeps_settings {W : List Part} (h : ∀ p ∈ W, p ∉ ([.regs, .image, .vbat, .cold] : List Part)) : Keeps W (SameSettings s) := by
  intro p hp
  have hn := h p hp
  cases p
  case regs | image | vbat | cold => exact absurd (by decide) hn
  all_goals exact fun _ _ => by intros; assumption

/-! ## Registers of status and counters -/

/-- A field that stands behind the settings. -/
abbrev Shown (f : Fld) : Prop := 0xC00 ≤ f.addr

theorem shown_add {b n : Nat} (h : 0xC00 ≤ b) : 0xC00 ≤ b + n := Nat.le_add_right_of_le h

theorem setReg_settings {a w : Nat} (h : SameSettings s t) (g : a < 0x800 ∨ 0xC00 ≤ a) : SameSettings s (setReg t a w) :=
  fun b lo hi => (regWord_setReg_ne (by omega)).trans (h b lo hi)

theorem setFld_settings {f : Fld} {v : Nat} (g : Shown f) (h : SameSettings s t) : SameSettings s (setFld f v t) :=
  setReg_settings h (.inr g)

theorem setFlag_settings {f : Fld} {b : Bool} (g : Shown f) (h : SameSettings s t) : SameSettings s (setFlag f b t) := setFld_settings g h
theorem setSat_settings {f : Fld} {n : Nat} (g : Shown f) (h : SameSettings s t) : SameSettings s (setSat f n t) := setFld_settings g h
theorem bump_settings {f : Fld} (g : Shown f) (h : SameSettings s t) : SameSettings s (bump f t) := setFld_settings g h

theorem setMaskBit_settings {f : Fld} {i : Nat} {b : Bool} (g : Shown f) (h : SameSettings s t) : SameSettings s (setMaskBit f i b t) :=
  setFld_settings g h

theorem capture_settings {f : Fld} {l : List (Fld × Nat)} (g : Shown f) (gs : ∀ p ∈ l, Shown p.1) (h : SameSettings s t) :
    SameSettings s (capture f l t) := by
  have parts : ∀ (l : List (Fld × Nat)) (t : State), (∀ p ∈ l, Shown p.1) → SameSettings s t →
      SameSettings s (l.foldl (fun s p => setFld p.1 p.2 s) t) := by
    intro l
    induction l with
    | nil => exact fun t _ h => h
    | cons p l ih =>
      exact fun t gs h => ih _ (fun q hq => gs q (List.mem_cons_of_mem _ hq)) (setFld_settings (gs p List.mem_cons_self) h)
  exact ite_keeps h (parts l _ gs (setFlag_settings g h))

theorem countDie_settings {e n : Nat} (h : SameSettings s t) : SameSettings s (countDie e n t) :=
  foldl_keeps (fun _ _ h => setReg_settings (setReg_settings h (.inr (by omega))) (.inr (by omega))) _ _ h

/-! ## Records and doubts -/

theorem report_settings {e : Event} (h : SameSettings s t) : SameSettings s (report e t) := by
  intro a lo hi
  rw [report_regs e t a (fun m => ?_)]
  · exact h a lo hi
  · have : a = 0x1810 := List.mem_singleton.mp m
    omega

theorem markDoubt_settings {b : Nat} (h : SameSettings s t) : SameSettings s (markDoubt b t) :=
  ite_keeps h (bump_settings (shown_add (by decide)) (h.same rfl rfl))

theorem doubtEvent_settings {b : Nat} {e : Event} (h : SameSettings s t) : SameSettings s (doubtEvent b e t) :=
  report_settings (markDoubt_settings h)

theorem assertSafeStop_settings (h : SameSettings s t) : SameSettings s (assertSafeStop t) :=
  ite_keeps h (report_settings (setFlag_settings (f := F.WDN_SAFE_STAT_SAFE_STOP) (by decide) (h.same rfl rfl)))

/-! ## Units of the supervisor port -/

theorem complete_settings {c : Compl} (h : SameSettings s t) : SameSettings s (complete c t) := by
  unfold complete writeCompl
  exact ite_keeps ((setFld_settings (f := F.SUP_CMP_HEAD_HEAD) (by decide) h).same rfl rfl) (h.same rfl rfl)

theorem completeBad_settings {i b n : Nat} (h : SameSettings s t) : SameSettings s (completeBad i b n t) :=
  complete_settings (nextFree_keeps (keeps_settings (by decide)) (nextFree_keeps (keeps_settings (by decide)) h))

theorem closeSlot_settings {n c : Nat} (h : SameSettings s t) : SameSettings s (closeSlot n c t) := by
  unfold closeSlot
  extract_lets gone sec s1 s2
  have bad : SameSettings s s2 := foldl_keeps (fun _ _ h => completeBad_settings h) _ _ (h.same rfl rfl)
  refine ite_keeps h (capture_settings (f := F.SUP_SLOT_CAP_VALID) (by decide) ?_
    (bump_settings (f := F.SUP_SLOT_CNT_CLOSED) (by decide) (report_settings bad)))
  simp only [List.forall_mem_cons]
  exact ⟨by decide, by decide, fun _ h => nomatch h⟩

theorem deliverMsg_settings {m : DevMsg} {d : SlotDesc} {k : SlotKeys} (h : SameSettings s t) :
    SameSettings s (deliverMsg m d k t) := by
  unfold deliverMsg
  extract_lets n more ctr rest sec s1 s2 s3
  have taken : SameSettings s s1 := setSlot_keeps (keeps_settings (by decide)) (h.same rfl rfl)
  have completed : SameSettings s s2 := complete_settings (taken.same rfl rfl)
  have answered : SameSettings s s3 := by
    unfold s3
    split
    · exact ite_keeps completed (completed.same rfl rfl)
    · exact completed
  exact ite_keeps (closeSlot_settings answered) answered

theorem sendUnit_settings {n : Nat} {a : Option Answer} {bs : List Byte} (h : SameSettings s t) : SameSettings s (sendUnit n a bs t) := by
  have one {t : State} (h : SameSettings s t) : SameSettings s (pumpOne t) := by
    unfold pumpOne
    split
    · exact h
    · split
      · exact deliverMsg_settings h
      · exact h
  exact foldl_keeps (fun _ _ h => one h) _ _ (h.same rfl rfl)

theorem sendAnswer_settings {a : Answer} (h : SameSettings s t) : SameSettings s (sendAnswer a t) := by
  unfold sendAnswer
  split
  · exact sendUnit_settings h
  · exact sendGuidance_keeps (keeps_settings (by decide)) h
  · exact h.same rfl rfl

theorem sendAnswers_settings (h : SameSettings s t) : SameSettings s (sendAnswers t) :=
  foldl_keeps (fun _ _ h => sendAnswer_settings h) _ _ (h.same rfl rfl)

/-! ## The Conductor -/

theorem showLeases_settings (h : SameSettings s t) : SameSettings s (showLeases t) :=
  setFld_settings (f := F.CND_LEASE_STAT_USED) (by decide) h

theorem showSched_settings (h : SameSettings s t) : SameSettings s (showSched t) :=
  setFld_settings (f := F.CND_SCHED_STAT_READY) (by decide) (setFld_settings (f := F.CND_SCHED_STAT_RUNNING) (by decide)
    (setFld_settings (f := F.CND_SCHED_STAT_PULLING) (by decide) (showLeases_settings h)))

theorem showSegs_settings (h : SameSettings s t) : SameSettings s (showSegs t) :=
  setReg_settings (setFld_settings (f := F.WLD_MAPLD_SEG_OPEN) (by decide) h) (.inl (by decide))

theorem beginWipe_settings {r : WipeRegion} (h : SameSettings s t) : SameSettings s (beginWipe r t) :=
  ite_keeps h (setFlag_settings (f := F.MEM_WIPE_STAT_BUSY) (by decide) (h.same rfl rfl))

theorem setOp_settings {o : LongOp} (h : SameSettings s t) : SameSettings s (setOp o t) := by
  unfold setOp showOp
  extract_lets put ops put'
  have shown {a b c d e : Nat} {t : State} (h : SameSettings s t) : SameSettings s (put' a b c d e t) :=
    setFld_settings (shown_add (by decide)) (setFld_settings (shown_add (by decide)) (setFld_settings (shown_add (by decide))
      (setFld_settings (shown_add (by decide)) (setFld_settings (shown_add (by decide)) h))))
  split
  · exact shown (h.same rfl rfl)
  · exact shown (h.same rfl rfl)

theorem abandonOn_settings {n : Nat} (h : SameSettings s t) : SameSettings s (abandonOn n t) := by
  unfold abandonOn
  split
  · unfold abandonUnit
    extract_lets e s1 n o' s2
    have begun : SameSettings s s1 := beginWipe_settings (report_settings h)
    exact ite_keeps (sendAnswer_settings (showLeases_settings ((setOp_settings begun).same rfl rfl))) (setOp_settings begun)
  · exact h

theorem releaseItems_settings {f n : Nat} (h : SameSettings s t) : SameSettings s (releaseItems f n t) := by
  induction n generalizing t with
  | zero => exact h
  | succ n ih =>
    rw [releaseItems]
    split
    · exact h
    · rename_i t' released
      refine ih ?_
      unfold releaseOne at released
      simp only at released
      split at released
      · cases released
      · split at released <;> cases released
        · exact bump_settings (f := F.CND_FLOW_STAT_VOID) (by decide) (report_settings (h.same rfl rfl))
        · exact raiseFlags_keeps (keeps_settings (by decide)) (h.same rfl rfl)

theorem loseItem_settings {n : Nat} (h : SameSettings s t) : SameSettings s (loseItem n t) := by
  unfold loseItem
  split
  · exact h
  · split
    · exact h
    · exact ite_keeps (addReady_keeps (keeps_settings (by decide)) (h.same rfl rfl)) (releaseItems_settings (h.same rfl rfl))

theorem revokeOne_settings {w : Bool} {l : Lease} (h : SameSettings s t) : SameSettings s (revokeOne w l t) := by
  unfold revokeOne
  extract_lets s1 s2 s3 same s4 s5 s6
  have captured : SameSettings s s2 := by
    refine capture_settings (f := F.CND_LEASE_CAP_VALID) (by decide) ?_
      (bump_settings (f := F.CND_LEASE_STAT_REVOKED) (by decide) (report_settings h))
    simp only [List.forall_mem_cons]
    exact ⟨by decide, by decide, by decide, by decide, fun _ h => nomatch h⟩
  have counted : SameSettings s s3 :=
    countDie_settings (ite_keeps (bump_settings (f := F.CND_LEASE_STAT_WARDEN) (by decide) captured) captured)
  have lost : SameSettings s s4 := loseMessage_keeps (keeps_settings (by decide)) (abandonOn_settings (loseItem_settings counted))
  have refused : SameSettings s s5 := ite_keeps (lost.same rfl rfl) lost
  exact showSegs_settings (showLeases_settings (ite_keeps (beginWipe_settings (refused.same rfl rfl)) (refused.same rfl rfl)))

theorem revokeWhere_settings {w : Bool} {p : Lease → Bool} (h : SameSettings s t) : SameSettings s (revokeWhere w p t) :=
  foldl_keeps (fun _ _ h => revokeOne_settings h) _ _ h

theorem showService_settings {n : Nat} {b : Bool} (h : SameSettings s t) : SameSettings s (showService n b t) := by
  unfold showService
  extract_lets t'
  have lane : SameSettings s t' := setMaskBit_settings (f := F.SLV_STAT_IN_SERVICE) (by decide) h
  exact ite_keeps (setMaskBit_settings (shown_add (by decide)) (setMaskBit_settings (shown_add (by decide))
      (setFld_settings (shown_add (shown_add (by decide))) h)))
    (ite_keeps (setFld_settings (shown_add (by decide)) h) (ite_keeps (ite_keeps lane (report_settings lane)) h))

theorem takeOut_settings {w : Bool} {n : Nat} (h : SameSettings s t) : SameSettings s (takeOut w n t) := by
  have revoked := revokeWhere_settings (w := w) (p := fun l => l.holder = n)
    (abandonOn_settings (n := n) (loseItem_settings (n := n) (returnBlock_keeps (u_1 := n) (keeps_settings (by decide)) h)))
  unfold takeOut
  exact showService_settings (revoked.same rfl rfl)

theorem slotLost_settings {n : Nat} (h : SameSettings s t) : SameSettings s (slotLost n t) := ite_keeps (report_settings h) h

theorem overrun_settings {k : OverrunKind} {n : Option Nat} {node : Nat} (h : SameSettings s t) :
    SameSettings s (overrun k n node t) := by
  unfold overrun
  extract_lets dom bound e s1 s2 s3
  have told : SameSettings s s1 := ite_keeps (report_settings h) (doubtEvent_settings h)
  have captured : SameSettings s s2 := by
    refine capture_settings (f := F.CND_OVR_CAP_VALID) (by decide) ?_ told
    simp only [List.forall_mem_cons]
    exact ⟨by decide, by decide, by decide, by decide, by decide, fun _ h => nomatch h⟩
  have counted : SameSettings s s3 := by
    unfold s3
    split
    · exact bump_settings (f := F.CND_OVR_CNT_BUDGET) (by decide) captured
    · exact bump_settings (f := F.CND_OVR_CNT_BUDGET) (by decide) captured
    · exact bump_settings (f := F.CND_OVR_CNT_WAIT) (by decide) captured
    · exact bump_settings (f := F.CND_OVR_CNT_WAIT) (by decide) captured
  split
  · exact counted
  · rename_i n
    extract_lets s4
    have lost : SameSettings s s4 := by
      refine slotLost_settings (ite_keeps (capture_settings (shown_add (shown_add (by decide))) ?_ counted) counted)
      simp only [List.forall_mem_cons]
      exact ⟨shown_add (shown_add (by decide)), shown_add (shown_add (by decide)), fun _ h => nomatch h⟩
    exact ite_keeps (showSched_settings (kermesDue_keeps (keeps_settings (by decide)) (takeOut_settings lost)))
      (showSched_settings ((revokeWhere_settings (loseItem_settings lost)).same rfl rfl))

theorem phaseStop_settings {p : Nat} (h : SameSettings s t) : SameSettings s (phaseStop p t) := by
  unfold phaseStop
  extract_lets of bounded ready running clear _ s1 s2 s3
  have cleared : SameSettings s s1 := foldl_keeps (fun _ _ h => setNode_keeps (keeps_settings (by decide)) h) _ _ (h.same rfl rfl)
  have overran : SameSettings s s2 := foldl_keeps (fun _ _ h => overrun_settings h) _ _ cleared
  exact showSched_settings (foldl_keeps (fun _ _ h => ite_keeps (overrun_settings h) (dropTask_keeps (keeps_settings (by decide)) h)) _ _ overran)

/-! ## The memories -/

theorem writeBytes_settings {b : Bool} {n a : Nat} {bs : List Byte} (h : SameSettings s t) : SameSettings s (writeBytes b n a bs t) := by
  refine h.trans fun c lo hi => writeBytes_memRegs (SameRegsBut.refl _ t) c fun m => ?_
  have outside : ∀ x ∈ memAddrs, 0xC00 ≤ x := by decide
  exact absurd (outside c m) (Nat.not_le.mpr hi)

/-! ## The emission -/

theorem writeTelemetry_settings {d : Nat} (h : SameSettings s t) : SameSettings s (writeTelemetry t d) := by
  have ring {b : Option Nat} {i : Nat} {bs : List Byte} {t : State} (h : SameSettings s t) : SameSettings s (putRing b i bs t) := by
    unfold putRing
    split
    · exact writeBytes_settings h
    · exact h
  exact (ring (ring h)).same rfl rfl

theorem showFrame_settings (h : SameSettings s t) : SameSettings s (showFrame t) := by
  unfold showFrame
  extract_lets n x s1 s2 s3 s4 s5 s6 g
  have doubts : SameSettings s s1 := setFld_settings (f := F.CND_FRAME_STAT_DOUBT_FLAGS) (by decide)
    (setFld_settings (f := F.CND_FRAME_STAT_STATUS) (by decide) h)
  have record : SameSettings s s2 := foldl_keeps (fun _ _ h => setFld_settings (shown_add (by decide)) h) _ _ doubts
  have digest : SameSettings s s3 := foldl_keeps (fun _ _ h => setFld_settings (shown_add (by decide)) h) _ _ record
  have cut : SameSettings s s4 := ite_keeps (bump_settings (f := F.CND_TRUNC_CNT_COUNT) (by decide) digest) digest
  have counts : SameSettings s s5 := foldl_keeps (fun _ _ h => setSat_settings (shown_add (by decide)) h) _ _ cut
  have skips : SameSettings s s6 := setSat_settings (f := F.CND_CAND_SKIP_QUOTA) (by decide)
    (setSat_settings (f := F.CND_CAND_SKIP_OTHER) (by decide) counts)
  exact setSat_settings (f := F.CND_INFEAS_STAT_KAPPA) (by decide) (setSat_settings (f := F.CND_INFEAS_STAT_DKAPPA) (by decide)
    (setSat_settings (f := F.CND_INFEAS_STAT_SPEED) (by decide) (setSat_settings (f := F.CND_INFEAS_STAT_JOINT) (by decide) skips)))

theorem showTiles_settings (h : SameSettings s t) : SameSettings s (showTiles t) := by
  refine foldl_keeps (fun _ _ h => foldl_keeps (fun _ _ h => ?_) _ _ ?_) _ _ h
  · exact setSat_settings (shown_add (shown_add (shown_add (by decide)))) (setSat_settings (shown_add (shown_add (shown_add (by decide)))) h)
  · exact setSat_settings (shown_add (shown_add (by decide))) (setSat_settings (shown_add (shown_add (by decide))) h)

theorem judgeLapse_settings (h : SameSettings s t) : SameSettings s (judgeLapse t) := by
  have told : SameSettings s (setFlag F.VBS_HB_STAT_OVER true t) := setFlag_settings (f := F.VBS_HB_STAT_OVER) (by decide) h
  exact ite_keeps h (ite_keeps (markDoubt_settings told) (doubtEvent_settings (told.same rfl rfl)))

theorem releaseHold_settings (h : SameSettings s t) : SameSettings s (releaseHold t) :=
  ite_keeps (report_settings (h.same rfl rfl)) h

theorem takeOver_settings (h : SameSettings s t) : SameSettings s (takeOver t) := by
  have own {t : State} (h : SameSettings s t) : SameSettings s (assertOwn t) := ite_keeps h (assertSafeStop_settings h)
  unfold takeOver
  extract_lets t0 umb s1
  have told : SameSettings s s1 := report_settings (h.same rfl rfl)
  refine ite_keeps h ?_
  split
  · exact own told
  · split
    · exact own told
    · exact ite_keeps (own (told.same rfl rfl)) (told.same rfl rfl)

theorem raiseFloor_settings (h : SameSettings s t) : SameSettings s (raiseFloor t) := by
  have fuses {t : State} (h : SameSettings s t) : SameSettings s (showFuses t) := by
    unfold showFuses
    exact foldl_keeps (fun _ _ h => setFld_settings (shown_add (by decide)) h) _ _
      (setFld_settings (f := F.WDN_LC_STAT_LC) (by decide) (setFld_settings (f := F.WDN_LC_STAT_DBG_LOCK) (by decide)
        (setFld_settings (f := F.WDN_LC_STAT_PROT_FUSE) (by decide) (setFld_settings (f := F.WDN_LC_STAT_KILL) (by decide)
          (setFld_settings (f := F.WDN_LC_STAT_OWNER_SET) (by decide) (setFld_settings (f := F.WDN_LC_STAT_FW_FLOOR) (by decide)
            (setFld_settings (f := F.WDN_LC_STAT_PROT) (by decide) h)))))))
  exact ite_keeps h (ite_keeps (h.same rfl rfl) (report_settings (fuses (h.same rfl rfl))))

theorem transmitBundle_settings {b : BundleBody} (h : SameSettings s t) : SameSettings s (transmitBundle b t) := by
  have queued {b : TxBundle} {t : State} (h : SameSettings s t) : SameSettings s (queueBundle b t) :=
    ite_keeps (startBundle_keeps (keeps_settings (by decide)) h)
      ((ite_keeps (P := SameSettings s) (bump_settings (f := F.VBS_GUID_STAT_REPLACED) (by decide) h) h).same rfl rfl)
  unfold transmitBundle
  extract_lets s1 src
  have offered : SameSettings s s1 :=
    ite_keeps (queued (ite_keeps (bump_settings (f := F.WOD_XVER_STAT_TWIN_EMIT) (by decide) h) h)) h
  exact ite_keeps (sendWoad_keeps (keeps_settings (by decide)) offered) offered

theorem putBundle_settings {b : BundleBody} (h : SameSettings s t) : SameSettings s (putBundle b t) :=
  transmitBundle_settings (h.same rfl rfl)

theorem emitBundle_settings (h : SameSettings s t) : SameSettings s (emitBundle t) := by
  unfold emitBundle
  extract_lets s1
  have judged : SameSettings s s1 := judgeLapse_settings h
  split
  · exact putBundle_settings (raiseFloor_settings (takeV_keeps (keeps_settings (by decide)) (releaseHold_settings judged)))
  · exact putBundle_settings (holdBody_keeps (keeps_settings (by decide)) (takeOver_settings (judged.same rfl rfl)))

theorem emitLast_settings {late : Bool} (h : SameSettings s t) : SameSettings s (emitLast late t) :=
  ite_keeps h (ite_keeps (emitBundle_settings (doubtEvent_settings h)) (emitBundle_settings (phaseDone_keeps (keeps_settings (by decide)) h)))

end

end Sys2Proof.Machine

end

section

set_option Elab.async false

/-! # The release of SAFE_STOP_N (R409, R442, R529) -/

namespace Sys2Proof.Machine

section
variable {s t u : State}

/-! ## What leads to the release -/

/-- What a frame's release turns on beside its doubts: its number, the state of the pair, the edge state, the acknowledgement and the
count of clean frames. -/
def releaseInputs (s : State) : FrameNo × PairState × HeldSt × Option FrameNo × Nat :=
  (s.frame.num, s.twin.pair, s.held, s.safe.acked, s.safe.clean)

/-- From s to t nothing that the release of SAFE_STOP_N turns on has changed, but that doubts have come and the signal may have been
asserted. -/
def Leads (s t : State) : Prop :=
  (s.pwr.safeStop = true → t.pwr.safeStop = true) ∧ (∀ b, Doubtful b s → Doubtful b t) ∧ releaseInputs t = releaseInputs s

theorem Leads.refl (s : State) : Leads s s := ⟨id, fun _ => id, rfl⟩

theorem Leads.trans (h : Leads s t) (g : Leads t u) : Leads s u :=
  ⟨fun e => g.1 (h.1 e), fun b d => g.2.1 b (h.2.1 b d), g.2.2.trans h.2.2⟩

/-- The parts that the release turns on. -/
def releaseParts : List Part := [.stop, .num, .pair, .held, .safe, .restart, .acked, .cold]

theorem keeps_leads {W : List Part} (h : ∀ p ∈ W, p ∉ releaseParts) : Keeps W (Leads s) := by
  have out {l : List Part} (sub : ∀ q ∈ l, q ∈ releaseParts) : ∀ q ∈ W, q ∉ l := fun q hq m => h q hq (sub q m)
  have inputs : ∀ x, Keeps W fun t => releaseInputs t = x :=
    .both (fun _ => shows_num (out (by decide))) (.both (fun _ => shows_pairState (out (by decide)))
      (.both (fun _ => shows_held (out (by decide))) (.both (fun _ => shows_acked (out (by decide)))
        fun _ => Keeps.of_shows (fun _ => shows_safe (out (by decide))) fun x => x.clean = _)))
  exact (Keeps.all fun _ => shows_stop (out (by decide))).and
    ((Keeps.all fun _ => Keeps.all fun _ => keeps_doubtful (out (by decide))).and (inputs _))

theorem takeOut_leads (w : Bool) (n : Nat) (h : Leads s t) : Leads s (takeOut w n t) := by
  have before := clearAffinity_keeps (u_1 := n) (keeps_leads (by decide)) (dropTask_keeps (u_1 := n) (keeps_leads (by decide))
    (revokeWhere_keeps (warden_1 := w) (p_2 := fun l => l.holder = n) (keeps_leads (by decide)) (abandonOn_keeps (u_1 := n) (keeps_leads (by decide))
      (loseItem_keeps (u_1 := n) (keeps_leads (by decide)) (returnBlock_keeps (u_1 := n) (keeps_leads (by decide)) h)))))
  unfold takeOut
  exact showService_keeps (keeps_leads (by decide)) (before.trans ⟨id, fun _ => id, rfl⟩)

theorem phaseStop_leads (p : Nat) (s : State) : Leads s (phaseStop p s) :=
  phaseStop_induct (keeps_leads (by decide)) (fun _ _ h => doubtEvent_keeps (keeps_leads (by decide)) h)
    (fun n _ h => takeOut_leads false n h) (fun _ _ h => ite_keeps h (h.trans ⟨id, fun _ => id, rfl⟩)) (.refl s)

/-! ## The end of a frame -/

/-- What stands where SAFE_STOP_N is released at the end of a frame that began its emission in s. -/
def Released (s t : State) : Prop :=
  s.safe.acked = some s.frame.num ∧ t.safe.acked = none ∧ s.frame.flags = 0 ∧ s.twin.pair ≠ .conflict ∧
    (follower s = false → (edgePose s).v = 0 ∧ fld s F.WDN_REL_CFG_CLEAN_FRAMES ≤ s.safe.clean + 1)

/-- A signal that stands asserted is released only as Released says. -/
def ReleasedOnly (s t : State) : Prop := s.pwr.safeStop = true → t.pwr.safeStop = false → Released s t

theorem follower_of_pair (h : t.twin.pair = s.twin.pair) : follower t = follower s := by
  unfold follower
  rw [h]

theorem flags_eq_zero (h : ∀ b, ¬ Doubtful b s) : s.frame.flags = 0 :=
  BitVec.eq_of_getLsbD_eq fun b _ => by simpa [Doubtful] using h b

/-- What releases the signal from t on does so from s on, where s leads to t. -/
theorem ReleasedOnly.before (h : ReleasedOnly t u) (l : Leads s t) (c : SameSettings s t) : ReleasedOnly s u := by
  intro on off
  obtain ⟨stop, doubts, inputs⟩ := l
  simp only [releaseInputs, Prod.mk.injEq] at inputs
  obtain ⟨num, pair, held, acked, clean⟩ := inputs
  obtain ⟨ack, spent, none', free, calm⟩ := h (stop on) off
  refine ⟨by rw [← acked, ← num, ack], spent, flags_eq_zero fun b d => ?_, pair ▸ free, fun own => ?_⟩
  · have marked := doubts b d
    simp [Doubtful, none'] at marked
  · rw [← follower_of_pair pair] at own
    obtain ⟨rest, enough⟩ := calm own
    exact ⟨(congrArg (·.edge.v) held).symm.trans rest, by rw [← c.fld (by decide) (by decide), ← clean]; exact enough⟩

/-- The release itself (R409). -/
theorem releaseSafeStop_released (s : State) : (releaseSafeStop s).pwr.safeStop = false → s.pwr.safeStop = true →
    s.safe.atRest = true ∧ s.safe.acked = some s.frame.num ∧ s.frame.flags = 0 ∧ s.twin.pair ≠ .conflict := by
  intro off on
  unfold releaseSafeStop at off
  simp only at off
  split at off
  · rename_i c
    simp only [Bool.and_eq_true, decide_eq_true_eq] at c
    obtain ⟨⟨⟨⟨-, rest⟩, ack⟩, free⟩, pair⟩ := c
    exact ⟨rest, ack, free, pair⟩
  · exact absurd (on.symm.trans off) (by decide)

theorem releaseSafeStop_acked (s : State) : (releaseSafeStop s).safe.acked = none := by
  unfold releaseSafeStop
  extract_lets safe s1
  exact ite_keeps (P := fun t : State => t.safe.acked = none)
    (report_keeps (shows_acked (by decide)) (setFlag_keeps (shows_acked (by decide)) rfl)) rfl

/-- Until its answers are out, the end of a frame leads to the release. -/
theorem answered_leads (s : State) :
    Leads s (sendAnswers ((activeDomains (showTiles (showFrame s))).foldl writeTelemetry (showTiles (showFrame s)))) :=
  sendAnswers_keeps (keeps_leads (by decide)) (foldl_keeps (fun _ _ h => writeTelemetry_keeps (keeps_leads (by decide)) h) _ _
    (showTiles_keeps (keeps_leads (by decide)) (showFrame_keeps (keeps_leads (by decide)) (.refl s))))

theorem answered_settings (s : State) :
    SameSettings s (sendAnswers ((activeDomains (showTiles (showFrame s))).foldl writeTelemetry (showTiles (showFrame s)))) :=
  sendAnswers_settings (foldl_keeps (fun _ _ h => writeTelemetry_settings h) _ _ (showTiles_settings (showFrame_settings (.refl s))))

theorem countClean_released (s : State) : ReleasedOnly s (releaseSafeStop (countPersist (countClean s))) := by
  intro on off
  have counted : (countPersist (countClean s)).safe.acked = s.safe.acked ∧ (countPersist (countClean s)).frame = s.frame ∧
      (countPersist (countClean s)).twin = s.twin ∧ (countPersist (countClean s)).pwr = s.pwr ∧
      (countPersist (countClean s)).safe.atRest = (countClean s).safe.atRest := by
    unfold countPersist countClean
    split <;> exact ⟨rfl, rfl, rfl, rfl, rfl⟩
  obtain ⟨acked, frame, twin, pwr, rest⟩ := counted
  obtain ⟨rested, ack, free, pair⟩ := releaseSafeStop_released _ off (pwr ▸ on)
  refine ⟨by rw [← acked, ack, frame], releaseSafeStop_acked _, frame ▸ free, twin ▸ pair, fun own => ?_⟩
  rw [rest] at rested
  unfold countClean at rested
  rw [if_neg (by simp [own])] at rested
  simp only [Bool.and_eq_true, decide_eq_true_eq] at rested
  obtain ⟨enough, still⟩ := rested
  refine ⟨still, enough.trans ?_⟩
  split
  · exact le_refl _
  · exact Nat.zero_le _

theorem ReleasedOnly.after (h : ReleasedOnly s t) (acked : u.safe.acked = t.safe.acked)
    (stop : t.pwr.safeStop = true → u.pwr.safeStop = true) : ReleasedOnly s u := by
  intro on off
  obtain ⟨ack, spent, rest⟩ := h on (Bool.eq_false_iff.mpr fun e => by simp [stop e] at off)
  exact ⟨ack, acked.trans spent, rest⟩

theorem endFrame_released (s : State) : ReleasedOnly s (endFrame s) :=
  ((countClean_released _).before (answered_leads s) (answered_settings s)).after
    (showHold_keeps (shows_acked (by decide)) rfl) (fun e => showHold_keeps (shows_stop (by decide)) e)

theorem emitLast_leads (late : Bool) (s : State) : Leads s (emitLast late s) := emitLast_keeps (keeps_leads (by decide)) (.refl s)

theorem closeFrame_released (late : Bool) (s : State) : ReleasedOnly s (closeFrame late s) :=
  (endFrame_released _).before ((phaseStop_leads 6 s).trans (emitLast_leads late _)) (emitLast_settings (phaseStop_settings (.refl s)))

/-! ## The three commands that release -/

theorem ReleasedOnly.refl (s : State) : ReleasedOnly s s := fun on off => absurd (on.symm.trans off) (by decide)

theorem emitHardStop_released (late : Bool) (s : State) : ReleasedOnly s (live s (atStop 5 (closeFrame late))) := by
  unfold live atStop
  exact ite_keeps (P := ReleasedOnly s) (ite_keeps (P := ReleasedOnly s) (.refl s)
    ((closeFrame_released late _).before (t := stoppedAt 5 s) ⟨id, fun _ => id, rfl⟩ (.refl s))) (.refl s)

theorem chooseBundle_settings (s : State) : SameSettings s (chooseBundle s) := by
  unfold chooseBundle
  extract_lets put
  refine ite_keeps (P := SameSettings s) (.refl s) (ite_keeps (P := SameSettings s) (.refl s) ?_)
  split
  · exact ite_keeps (P := SameSettings s) (.refl s) ((doubtEvent_settings (.refl s)).same rfl rfl)
  · exact .refl s

/-- A replay unit goes back to its slot, counted (R589). -/
def sendReplayUnit (unit : List Byte) (s : State) : State :=
  bump F.SUP_REPLAY_STAT_FRAMES (sendUnit s.replay.slot none unit (send (.replay unit)
    { s with replay := { s.replay with inFrame := false } }))

theorem sendReplayUnit_keeps {P : State → Prop} (C : Keeps [.indlog, .regs, .log, .queue, .sec, .replay, .sent, .free] P) {unit : List Byte}
    (h : P s) : P (sendReplayUnit unit s) :=
  bump_keeps (C.mono (by decide)) (sendUnit_keeps (C.mono (by decide)) (C.upd_sent (by decide) (C.upd_replay (by decide) h) ⟨[_], rfl⟩))

/-- The end of a replay frame. -/
def endReplayFrame (s : State) : State :=
  let s1 := emitLast false (if s.frame.choice.isNone then chooseBundle s else s)
  let unit := ((s1.frame.out.map (bundleBytes s1)).getD []) ++ telemetryBytes s1 0 ++ digestBytes (auditDigest s1 0)
  sendReplayUnit unit (endFrame s1)

theorem endReplayFrame_released (s : State) : ReleasedOnly s (endReplayFrame s) := by
  have chosen : Leads s (if s.frame.choice.isNone then chooseBundle s else s) :=
    ite_keeps (P := Leads s) (chooseBundle_keeps (keeps_leads (by decide)) (.refl s)) (.refl s)
  have settings : SameSettings s (if s.frame.choice.isNone then chooseBundle s else s) :=
    ite_keeps (P := SameSettings s) (chooseBundle_settings s) (.refl s)
  unfold endReplayFrame
  extract_lets s1 unit
  have ended : ReleasedOnly s (endFrame s1) :=
    (endFrame_released s1).before (chosen.trans (emitLast_leads false _)) (emitLast_settings settings)
  exact ended.after (sendReplayUnit_keeps (shows_acked (by decide)) rfl) fun on => sendReplayUnit_keeps (shows_stop (by decide)) on

theorem exec_replayFrameEnd (s : State) : exec .replayFrameEnd s = .next (live s fun s =>
    if !s.replay.active || !s.replay.inFrame then s else endReplayFrame s) := rfl

theorem replayFrameEnd_released (e : exec .replayFrameEnd s = .next t) : ReleasedOnly s t := by
  rw [exec_replayFrameEnd] at e
  cases e
  unfold live
  exact ite_keeps (P := ReleasedOnly s) (ite_keeps (P := ReleasedOnly s) (.refl s) (endReplayFrame_released s)) (.refl s)

/-- The parts that an edge writes once the frame before it is closed. -/
def edgeParts : List Part := [.time, .pwr, .raise, .ind, .indlog, .regs, .ing, .frame, .num, .cnd, .wld, .epoch, .held, .umb, .mad, .safe,
  .restart, .log, .queue, .boot, .inf, .mem, .data, .swp, .sel, .slv, .twin, .pair, .swap, .sec, .bus, .replay, .sent, .free]

/-- The state at a live edge once the frame before it is closed. -/
def closedBefore (s : State) : State := if s.frame.started && !s.frame.stopped.getD 5 true then closeFrame false s else s

theorem liveEdge_after {P : State → Prop} (C : Keeps edgeParts P) (r : EdgeReadings) (h : P (closedBefore s)) : P (liveEdge r s) := by
  unfold liveEdge
  extract_lets adopt sc s0 twin s1 s2 open' s3 swapped s4 s5 s6
  have counted : P s0 := ite_keeps (countXlate_keeps (C.mono (by decide)) h) h
  have begun : P s1 := placeOrigin_keeps (C.mono (by decide)) (newFrame_keeps (C.mono (by decide))
    (C.upd_pair (by decide) counted))
  have swapped : P s3 := swapEdge_keeps (C.mono (by decide)) (completeRestart_keeps (C.mono (by decide)) begun)
  have worked : P s4 := fabricEdge_keeps (C.mono (by decide)) (kermesEdge_keeps (C.mono (by decide)) swapped)
  have failed : P s5 := foldl_keeps (fun _ _ h => eccFailure_keeps (C.mono (by decide)) h) _ _ worked
  have opened : P s6 := openRecentre_keeps (C.mono (by decide)) (reloadEdge_keeps (C.mono (by decide))
    (twinEdge_keeps (C.mono (by decide)) failed))
  exact showHold_keeps (C.mono (by decide)) (statusEdge_keeps (C.mono (by decide)) (wakeNote_keeps (C.mono (by decide))
    (indigoEdge_keeps (C.mono (by decide)) (lapseClock_keeps (C.mono (by decide)) (readPower_keeps (C.mono (by decide))
      (ite_keeps (hearStreams_keeps (C.mono (by decide)) opened) opened))))))

theorem liveEdge_released (r : EdgeReadings) (s : State) : ReleasedOnly s (liveEdge r s) := by
  have closed : ReleasedOnly s (closedBefore s) := ite_keeps (P := ReleasedOnly s) (closeFrame_released false s) (.refl s)
  exact closed.after (liveEdge_after (shows_acked (by decide)) r rfl) fun on => liveEdge_after (shows_stop (by decide)) r on

theorem frameEdge_released {r : EdgeReadings} (e : exec (.frameEdge r) s = .next t) : ReleasedOnly s t := by
  cases e
  refine ite_keeps (P := ReleasedOnly s) (ite_keeps (P := ReleasedOnly s) (.refl s) (ite_keeps (P := ReleasedOnly s) ?_ (liveEdge_released r s)))
    (.refl s)
  exact fun on off => absurd ((replayEdge_keeps (shows_stop (by decide)) on).symm.trans off) (by decide)

/-! ## Every other command -/

/-- A cold start stands safe (R432), and no other command writes the release. -/
theorem keeps_stop_of_cold {W : List Part} (h : ∀ p ∈ W, p ≠ .stop) : Keeps W fun t => t.pwr.safeStop = true := by
  intro p hp
  by_cases cold : p = .cold
  · subst cold
    exact fun _ _ _ => rfl
  · exact shows_stop (W := [p]) (by simpa using ⟨h p hp, cold⟩) p (by simp)

theorem stays_safe {c : Instr} (free : ((writes c).all fun p => !([.stop] : List Part).contains p) = true) (e : exec c s = .next t)
    (on : s.pwr.safeStop = true) : t.pwr.safeStop = true :=
  exec_keeps c (keeps_stop_of_cold fun p hp q => not_written free p hp (List.mem_singleton.mpr q)) on t e

/-- Settles O33: the end of a frame alone releases the signal. -/
theorem safeStopIsReleasedOnlyAtAnAcknowledgedEmission : Obligations.SafeStopIsReleasedOnlyAtAnAcknowledgedEmission := by
  intro c s t e on off
  cases c
  case replayFrameEnd => exact ⟨.inl rfl, replayFrameEnd_released e on off⟩
  case emitHardStop late =>
    cases e
    exact ⟨.inr (.inl ⟨late, rfl⟩), emitHardStop_released late s on off⟩
  case frameEdge r => exact ⟨.inr (.inr ⟨r, rfl⟩), frameEdge_released e on off⟩
  all_goals exact absurd ((stays_safe rfl e on).symm.trans off) (by decide)

end

end Sys2Proof.Machine

end

section

set_option Elab.async false

/-! # Data packets that a router delivers or holds back (R17, R19, R176, R365 to R368, R383) -/

namespace Sys2Proof.Machine

section
variable {s t u : State} {a : Nat}

/-! ## Bytes and check bits -/

/-- The structures of the machine are the same where only the memories' data and registers behind the counters' selectors differ. -/
theorem sameStructures_of_mem (h : t = { s with mem := t.mem }) : SameStructures s t := by
  rw [h]
  exact ⟨rfl, rfl, rfl, rfl, rfl, rfl, rfl, rfl, rfl, rfl⟩

/-- The memories read the same where the structures do and nothing of the memories' data has changed. -/
theorem sameMemory_of (h : SameStructures s t) (blank : t.mem.blank = s.mem.blank) (cells : t.mem.cells = s.mem.cells)
    (synd : t.mem.synd = s.mem.synd) : SameMemory s t := fun x => by
  refine ⟨by rw [byteAt_congr h blank cells], ?_⟩
  unfold wordSynd
  rw [synd]

theorem putByte_placedByte (b : Byte) : placedByte (putByte s a b) = placedByte s :=
  placedByte_congr (sameStructures_of_mem rfl) rfl

theorem putByte_byteAt (h : Memory.wf s.mem) (b : Byte) (x : Nat) : byteAt (putByte s a b) x = if x = a then b else byteAt s x := by
  unfold byteAt
  rw [putByte_placedByte, putByte_cells]
  by_cases e : x = a
  · rw [if_pos e, e, tabGet_tabPut_same h.1.1, ← BitVec.xor_assoc, BitVec.xor_self, BitVec.zero_xor]
  · rw [if_neg e, tabGet_tabPut_ne e]

/-- Bytes that are stored stand at their address and on, and no other byte changes. -/
theorem putBytes_byteAt (bs : List Byte) (h : Memory.wf s.mem) (x : Nat) :
    byteAt (putBytes a bs s) x = if a ≤ x ∧ x < a + bs.length then bs.getD (x - a) 0 else byteAt s x := by
  induction bs generalizing a s with
  | nil => simp [putBytes, Nat.not_lt.mpr]
  | cons b bs ih =>
    rw [putBytes, ih (putByte_keeps (shows_memory_wf (by decide)) h), putByte_byteAt h]
    by_cases first : x = a
    · subst first
      simp
    · rw [if_neg first]
      by_cases inside : a + 1 ≤ x ∧ x < a + 1 + bs.length
      · rw [if_pos inside, if_pos (by simp only [List.length_cons]; omega), show x - a = (x - (a + 1)) + 1 by omega, List.getD_cons_succ]
      · rw [if_neg inside, if_neg (by simp only [List.length_cons]; omega)]

theorem putBytes_wordSynd (bs : List Byte) (x : Nat) : wordSynd (putBytes a bs s) x = wordSynd s x :=
  congrArg (tabGet 0 · (x / 8)) (by
    induction bs generalizing a s with
    | nil => rfl
    | cons b bs ih => exact ih)

theorem setSynd_wordSynd (h : Memory.wf s.mem) (m x : Nat) :
    wordSynd (setSynd a m s) x = if x / 8 = a / 8 then m else wordSynd s x := by
  show tabGet 0 (tabPut 0 s.mem.synd (a / 8) m) (x / 8) = _
  by_cases e : x / 8 = a / 8
  · rw [if_pos e, e, tabGet_tabPut_same h.2.1]
  · rw [if_neg e, tabGet_tabPut_ne e]
    rfl

theorem setSynd_byteAt (m x : Nat) : byteAt (setSynd a m s) x = byteAt s x := by
  have same : SameStructures s (setSynd a m s) := sameStructures_of_mem rfl
  rw [byteAt_congr same rfl rfl]

/-! ## A write -/

/-- The check value of a word that a packet has written. -/
def writtenSynd (sepia : Bool) : Nat := if sepia then 3 else 0

/-- In t a packet has written bytes at an address and on: they stand there, their words are marked, and no other byte or word has changed,
nor anything beside the memories. -/
structure Wrote (sepia : Bool) (a : Nat) (bs : List Byte) (s t : State) : Prop where
  rest : t = { s with mem := t.mem }
  blank : t.mem.blank = s.mem.blank
  wf : Memory.wf t.mem
  bytes : ∀ x, byteAt t x = if a ≤ x ∧ x < a + bs.length then bs.getD (x - a) 0 else byteAt s x
  marked : ∀ x, (∃ i < bs.length, (a + i) / 8 = x / 8) → wordSynd t x = writtenSynd sepia
  kept : ∀ x, (∀ i < bs.length, (a + i) / 8 ≠ x / 8) → wordSynd t x = wordSynd s x

theorem Wrote.nil {sepia : Bool} (h : Memory.wf s.mem) : Wrote sepia a [] s s :=
  ⟨rfl, rfl, h, fun x => (if_neg (by simp)).symm, fun x ⟨_, h, _⟩ => absurd h (Nat.not_lt_zero _), fun _ _ => rfl⟩

/-- One write after another. -/
theorem Wrote.append {sepia : Bool} {b c : List Byte} (h : Wrote sepia a b s t) (g : Wrote sepia (a + b.length) c t u) :
    Wrote sepia a (b ++ c) s u := by
  have len : (b ++ c).length = b.length + c.length := List.length_append
  refine ⟨by rw [g.rest, h.rest], g.blank.trans h.blank, g.wf, fun x => ?bytes, fun x ⟨i, hi, e⟩ => ?marked, fun x e => ?kept⟩
  case bytes =>
    rw [g.bytes, h.bytes, len]
    by_cases second : a + b.length ≤ x ∧ x < a + b.length + c.length
    · rw [if_pos second, if_pos (by omega), List.getD_append_right _ _ _ _ (by omega), Nat.sub_add_eq]
    · rw [if_neg second]
      by_cases first : a ≤ x ∧ x < a + b.length
      · rw [if_pos first, if_pos (by omega), List.getD_append _ _ _ _ (by omega)]
      · rw [if_neg first, if_neg (by omega)]
  case marked =>
    by_cases again : ∃ i < c.length, (a + b.length + i) / 8 = x / 8
    · exact g.marked x again
    · rw [g.kept x fun j hj e => again ⟨j, hj, e⟩]
      refine h.marked x ⟨i, Classical.byContradiction fun out => again ⟨i - b.length, by omega, ?_⟩, e⟩
      rw [← e]
      congr 1
      omega
  case kept =>
    rw [g.kept x fun j hj => Nat.add_assoc a b.length j ▸ e (b.length + j) (by omega), h.kept x fun j hj => e j (by omega)]

theorem putBytes_rest (bs : List Byte) (s : State) : putBytes a bs s = { s with mem := (putBytes a bs s).mem } :=
  putBytes_keeps (P := fun t => t = { s with mem := t.mem })
    (fun p hp => by
      obtain rfl := List.mem_singleton.mp hp
      exact fun t m _ h => congrArg (fun t : State => { t with mem := m }) h) rfl

theorem putBytes_blank (bs : List Byte) (s : State) : (putBytes a bs s).mem.blank = s.mem.blank := by
  induction bs generalizing a s with
  | nil => rfl
  | cons b bs ih => exact ih _

/-- A piece of a write in a word without an error. -/
theorem writeWord_wrote {p : DataPacket} {bs : List Byte} (h : Memory.wf s.mem) (reached : populated p a = true)
    (held : lostTo s p.unit a = false) (good : wordSynd s a = 0) (pos : 0 < bs.length) (fits : a % 8 + bs.length ≤ 8) :
    Wrote p.sepia a bs s (writeWord p ((a, bs.length), bs) s) := by
  have wf : Memory.wf (putBytes a bs s).mem := putBytes_keeps (shows_memory_wf (by decide)) h
  have whole : Wrote p.sepia a bs s (setSynd a (writtenSynd p.sepia) (putBytes a bs s)) := by
    refine ⟨?_, putBytes_blank bs s, setSynd_keeps (shows_memory_wf (by decide)) wf, fun x => ?_, fun x ⟨i, hi, e⟩ => ?_, fun x e => ?_⟩
    · exact congrArg (setSynd a (writtenSynd p.sepia)) (putBytes_rest bs s)
    · rw [setSynd_byteAt, putBytes_byteAt bs h]
    · rw [setSynd_wordSynd wf, if_pos (by omega)]
    · rw [setSynd_wordSynd wf, if_neg (fun c => e 0 pos c.symm), putBytes_wordSynd]
  unfold writeWord
  rw [if_neg (by simp [reached, held])]
  by_cases full : bs.length = 8
  · rw [if_pos full, writeFull, show a / 8 * 8 = a by omega]
    exact whole
  · rw [if_neg full, writePartial, good]
    simp only [show decodeSyndrome 0 = .good from rfl]
    cases sep : p.sepia with
    | true =>
      rw [if_pos rfl]
      simpa only [writtenSynd, sep, if_true] using whole
    | false =>
      rw [if_neg Bool.false_ne_true]
      refine ⟨putBytes_rest bs s, putBytes_blank bs s, wf, fun x => putBytes_byteAt bs h x, fun x ⟨i, hi, e⟩ => ?_,
        fun x _ => putBytes_wordSynd bs x⟩
      rw [putBytes_wordSynd]
      refine Eq.trans ?_ good
      exact congrArg (tabGet 0 s.mem.synd) (by omega)

/-- The words of a packet stand at its address or behind it, and there are none without a byte. -/
theorem packetWords_from {n len : Nat} : ∀ w ∈ packetWords n a len, a ≤ w.1 ∧ 0 < len := by
  induction n generalizing a len with
  | zero => exact fun w hw => nomatch hw
  | succ n ih =>
    intro w hw
    rw [packetWords] at hw
    split at hw
    · cases hw
    · rcases List.mem_cons.mp hw with rfl | hw
      · exact ⟨Nat.le_refl a, by omega⟩
      · have := ih w hw
        omega

/-- The words of a write, one after another, where each is reached and without an error. -/
theorem writeWords_wrote {p : DataPacket} (n : Nat) (bs : List Byte) (fuel : bs.length ≤ n) (h : Memory.wf s.mem)
    (words : ∀ w ∈ packetWords n a bs.length, populated p w.1 = true ∧ lostTo s p.unit w.1 = false ∧ wordSynd s w.1 = 0) :
    Wrote p.sepia a bs s ((writePieces (packetWords n a bs.length) bs).foldl (fun s w => writeWord p w s) s) := by
  induction n generalizing a bs s with
  | zero =>
    obtain rfl := List.length_eq_zero_iff.mp (Nat.le_zero.mp fuel)
    exact .nil h
  | succ n ih =>
    rw [packetWords] at words ⊢
    by_cases empty : bs.length = 0
    · obtain rfl := List.length_eq_zero_iff.mp empty
      exact .nil h
    · rw [if_neg empty] at words ⊢
      obtain ⟨b, c, rfl, len⟩ : ∃ b c, bs = b ++ c ∧ min bs.length (8 - a % 8) = b.length :=
        ⟨bs.take (min bs.length (8 - a % 8)), bs.drop (min bs.length (8 - a % 8)), (List.take_append_drop _ _).symm, by
          rw [List.length_take]
          omega⟩
      rw [List.length_append] at len empty fuel
      simp only [List.length_append, len, Nat.add_sub_cancel_left] at words ⊢
      obtain ⟨reached, held, good⟩ := words _ List.mem_cons_self
      have first : Wrote p.sepia a b s (writeWord p ((a, b.length), b) s) :=
        writeWord_wrote h reached held good (by omega) (by omega)
      rw [writePieces_cons, List.foldl_cons, List.take_left, List.drop_left]
      refine first.append (ih c (by omega) first.wf fun w hw => ?_)
      obtain ⟨reached, held, good⟩ := words w (List.mem_cons_of_mem _ hw)
      obtain ⟨behind, more⟩ := packetWords_from w hw
      have lost : lostTo (writeWord p ((a, b.length), b) s) p.unit w.1 = lostTo s p.unit w.1 := by
        rw [first.rest]
        rfl
      exact ⟨reached, lost.trans held, (first.kept w.1 fun i hi => by omega).trans good⟩

/-! ## Event counters (R580) -/

/-- The counters of the dies stand behind their selectors. -/
theorem countDie_regWord (e n : Nat) (s : State) {b : Nat} (h : 0x102000 ≤ b) : regWord (countDie e n s) b = regWord s b := by
  have fold : ∀ (l : List (Nat × Nat)) (t : State), (∀ x ∈ l, x.1 < 0x101A20) →
      regWord (l.foldl (fun s x => addCount (0x101A40 + 2 * (x.1 - 0x101A00)) n s) t) b = regWord t b := by
    intro l
    induction l with
    | nil => exact fun t _ => rfl
    | cons x l ih =>
      intro t g
      have near := g x List.mem_cons_self
      rw [List.foldl_cons, ih _ fun y hy => g y (List.mem_cons_of_mem _ hy)]
      exact (regWord_setReg_ne (by omega)).trans (regWord_setReg_ne (by omega))
  refine fold _ s fun x hx => ?_
  have hit := (List.mem_filter.mp hx).2
  simp only [Bool.and_eq_true, decide_eq_true_eq] at hit
  exact hit.1.1.2.1

/-- Counting leaves what the structures of the machine are read from. -/
theorem sameStructures_countHbm (e a n : Nat) (s : State) : SameStructures s (countHbm e a n s) := by
  have same : ∀ f : Fld, 0x102000 ≤ f.addr → fld (countHbm e a n s) f = fld s f := fun f hf => by
    unfold fld countHbm
    split
    · rw [countDie_regWord _ _ _ hf]
    · rfl
  refine ⟨countHbm_keeps (shows_wld (by decide)) rfl, countHbm_keeps (shows_held (by decide)) rfl,
    countHbm_keeps (shows_swp (by decide)) rfl, countHbm_keeps (shows_sel (by decide)) rfl, countHbm_keeps (shows_image (by decide)) rfl,
    countHbm_keeps (shows_num (by decide)) rfl, countHbm_keeps (shows_edgeTick (by decide)) rfl, ?fuse, ?units, ?ways⟩
  case fuse =>
    unfold fuseCfg flag
    simp (disch := decide) only [same]
  case units =>
    funext u
    unfold unitDomain
    rw [same _ (by simp only [F.SWP_TILE_DOMAIN_DOMAIN]; omega), same _ (by simp only [F.INF_TILE_STAT_DOMAIN]; omega)]
  case ways =>
    funext c w
    unfold wayOwner
    rw [same _ (by simp only [F.MEM_WAY_DOMAIN_LO_DOMAIN]; omega), same _ (by simp only [F.MEM_WAY_DOMAIN_HI_DOMAIN]; omega)]

theorem countHbm_rest (e a n : Nat) (s : State) : countHbm e a n s = { s with regs := (countHbm e a n s).regs } :=
  countHbm_keeps (P := fun t => t = { s with regs := t.regs })
    (fun p hp => by
      obtain rfl := List.mem_singleton.mp hp
      exact fun t a w h => congrArg (fun u : State => { u with regs := (setReg t a w).regs }) h) rfl

theorem countHbm_memory (e a n : Nat) (s : State) : SameMemory s (countHbm e a n s) := by
  have mem : (countHbm e a n s).mem = s.mem := countHbm_keeps (shows_mem (by decide)) rfl
  exact sameMemory_of (sameStructures_countHbm e a n s) (by rw [mem]) (by rw [mem]) (by rw [mem])

/-! ## A packet that is delivered -/

section
variable {p : DataPacket}

/-- A delivered packet has no unpopulated word and no upset. -/
theorem delivered_clean (h : Claims.Delivered p s) : reportUnpopulated p s = s ∧ upsetWord p s = s := by
  obtain ⟨words, -, -, flips, dev⟩ := h
  have none' : (wordsOf p).find? (fun w => !populated p w.1) = none :=
    List.find?_eq_none.mpr fun w hw => by simp [(words w hw).1]
  refine ⟨?_, ?_⟩
  · unfold reportUnpopulated
    rw [none']
  · unfold upsetWord applyDev applyFlips
    simp [flips, dev]

theorem exec_delivered (up : running s = true) (len : 0 < packetLen p) (h : Claims.Delivered p s) :
    exec (.dataPacketRoute p) s = .next (servePacket p s) :=
  exec_dataPacketRoute_served up len (fun w hw _ => (h.1 w hw).2.1) h.2.2.1 h.2.1

/-- A delivered write stores its bytes. -/
theorem dataWriteStoresItsBytes : Claims.DataWriteStoresItsBytes := by
  intro p bs s up wf write nonempty h
  have len : packetLen p = bs.length := by simp [packetLen, write]
  have pos : 0 < bs.length := List.length_pos_iff.mpr nonempty
  refine ⟨_, exec_delivered up (len ▸ pos) h, ?_⟩
  have words : ∀ w ∈ packetWords bs.length p.addr.toNat bs.length,
      populated p w.1 = true ∧ lostTo s p.unit w.1 = false ∧ wordSynd s w.1 = 0 := fun w hw => by
    obtain ⟨reached, -, held, good⟩ := h.1 w (by rw [wordsOf, len]; exact hw)
    exact ⟨reached, held, good⟩
  obtain ⟨clean, still⟩ := delivered_clean h
  have wrote := writeWords_wrote bs.length bs (Nat.le_refl _) wf words
  rw [servePacket_write write, clean, still, wordsOf, len]
  generalize (writePieces (packetWords bs.length p.addr.toNat bs.length) bs).foldl (fun s w => writeWord p w s) s = t at wrote
  refine ⟨fun x => ?_, fun i hi => ?_, ?_⟩
  · rw [(countHbm_memory ..).1, wrote.bytes]
  · rw [(countHbm_memory ..).2]
    exact wrote.marked _ ⟨i, hi, rfl⟩
  · rw [countHbm_rest, wrote.rest]

/-- The words of a read, where each is reached and without an error. -/
theorem readPacket_delivers (as : List Nat) (h : ∀ a ∈ as, populated p a = true ∧ lostTo s p.unit a = false ∧ wordSynd s a = 0) :
    readPacket p as s = (as.map fun a => some (wordData s (a / 8 * 8)), s) := by
  induction as with
  | nil => rfl
  | cons a as ih =>
    obtain ⟨reached, held, good⟩ := h a List.mem_cons_self
    have synd : wordSynd s (a / 8 * 8) = 0 := (congrArg (tabGet 0 s.mem.synd) (by omega)).trans good
    have one : readPacketWord p a s = (some (wordData s (a / 8 * 8)), s) := by
      unfold readPacketWord
      rw [if_neg (by simp [reached, held]), readWord, probeWord, synd]
      rfl
    rw [readPacket, one, ih fun b hb => h b (List.mem_cons_of_mem _ hb)]
    rfl

/-- The words of a packet are those from its address to its end. -/
theorem packetWords_places {n len : Nat} (fuel : len ≤ n) (pos : 0 < len) :
    (packetWords n a len).map (·.1 / 8 * 8) = (List.range ((a % 8 + len + 7) / 8)).map fun i => a / 8 * 8 + 8 * i := by
  induction n generalizing a len with
  | zero => omega
  | succ n ih =>
    rw [packetWords, if_neg (by omega)]
    show a / 8 * 8 :: _ = _
    by_cases last : len ≤ 8 - a % 8
    · rw [show (a % 8 + len + 7) / 8 = 1 by omega, Nat.min_eq_left last, Nat.sub_self]
      cases n <;> simp [packetWords]
    · rw [Nat.min_eq_right (by omega), ih (by omega) (by omega),
        show (a % 8 + len + 7) / 8 = ((a + (8 - a % 8)) % 8 + (len - (8 - a % 8)) + 7) / 8 + 1 by omega, List.range_succ_eq_map,
        List.map_cons, List.map_map]
      refine congrArg₂ List.cons rfl (List.map_congr_left fun i _ => ?_)
      simp only [Function.comp]
      omega

/-- A delivered read answers its words. -/
theorem dataReadDeliversWords : Claims.DataReadDeliversWords := by
  intro p s up write pos h
  have len : packetLen p = p.len := by simp [packetLen, write]
  refine ⟨_, exec_delivered up (len ▸ pos) h, ?_⟩
  obtain ⟨clean, still⟩ := delivered_clean h
  have words : ∀ a ∈ (wordsOf p).map (·.1), populated p a = true ∧ lostTo s p.unit a = false ∧ wordSynd s a = 0 := fun a ha => by
    obtain ⟨w, hw, rfl⟩ := List.mem_map.mp ha
    obtain ⟨reached, -, held, good⟩ := h.1 w hw
    exact ⟨reached, held, good⟩
  have read : servedRead p s = (((wordsOf p).map (·.1)).map fun a => some (wordData s (a / 8 * 8)), s) := by
    rw [servedRead, clean, still]
    exact readPacket_delivers _ words
  have places : ((wordsOf p).map (·.1)).map (fun a => some (wordData s (a / 8 * 8))) =
      (List.range ((p.addr.toNat % 8 + p.len + 7) / 8)).map fun i => some (wordData s (p.addr.toNat / 8 * 8 + 8 * i)) := by
    have at' := congrArg (List.map fun a => some (wordData s a)) (packetWords_places (a := p.addr.toNat) (Nat.le_refl p.len) pos)
    rw [List.map_map, List.map_map] at at'
    rw [wordsOf, len, List.map_map]
    exact at'
  rw [servePacket_read write, read, places]
  refine ⟨?_, fun x => ?_, ?_⟩
  · rw [countHbm_keeps (shows_sent_eq (by decide)) rfl]
    rfl
  · obtain ⟨bytes, synd⟩ := countHbm_memory 0x84 p.addr.toNat p.len (send (.delivered p.addr.toNat ((List.range
      ((p.addr.toNat % 8 + p.len + 7) / 8)).map fun i => some (wordData s (p.addr.toNat / 8 * 8 + 8 * i)))) s) x
    have sent (o : Output) : SameMemory s (send o s) := sameMemory_of ⟨rfl, rfl, rfl, rfl, rfl, rfl, rfl, rfl, rfl, rfl⟩ rfl rfl rfl
    exact ⟨bytes.trans (sent _ x).1, synd.trans (sent _ x).2⟩
  · rw [countHbm_rest]
    rfl

/-- Packets that a wipe or R176 holds back. -/
theorem dataPacketsHeldBack : Claims.DataPacketsHeldBack := by
  intro p s up pos own
  have none' : ((wordsOf p).any fun w => populated p w.1 && !routed s p w.1) = false := by
    simpa [List.any_eq_false] using own
  refine ⟨fun weights => goes_live up rfl ?_, fun weights waits => goes_live up rfl ?_⟩
  · simp only [Nat.ne_of_gt pos, none', weights, if_true, if_false, Bool.false_eq_true]
    exact ⟨by rw [send_sent, report_sent], report_mem_same, fun room => report_recorded room⟩
  · simp only [Nat.ne_of_gt pos, none', weights, waits, if_true, if_false, Bool.false_eq_true]
    refine ⟨rfl, sameMemory_of ⟨rfl, rfl, rfl, rfl, rfl, rfl, rfl, rfl, rfl, rfl⟩ rfl rfl rfl, rfl, fun g hg e => ?_⟩
    obtain ⟨f, -, rfl⟩ := List.mem_map.mp hg
    by_cases own : f.unit = p.unit
    · rw [if_pos own]
    · rw [if_neg own] at e
      exact absurd e own

/-- Settles O11. -/
theorem deliveredPacketsReadAndWrite : Obligations.DeliveredPacketsReadAndWrite :=
  ⟨dataWriteStoresItsBytes, dataReadDeliversWords, dataPacketsHeldBack⟩

end

end

end Sys2Proof.Machine

end

section

set_option Elab.async false

/-! # Ingress: an interface's FIFO, a stream's state, and the delivery of a sample (R36, R79, R87, R93) -/

namespace Sys2Proof.Machine

section
variable {s t u : State} {n : Nat}

/-! ## A stream's state -/

theorem getD_modAt {α : Type} {i : Nat} {f : α → α} {l : List α} {d : α} (h : i < l.length) : (modAt i f l).getD i d = f (l.getD i d) := by
  simp [modAt, h]

theorem getD_modAt_ne {α : Type} {i j : Nat} {f : α → α} {l : List α} {d : α} (h : j ≠ i) : (modAt i f l).getD j d = l.getD j d := by
  simp only [modAt, List.getD_eq_getElem?_getD, List.getElem?_mapIdx]
  cases l[j]? <;> simp [h]

theorem streamSt_modStream {f : StreamSt → StreamSt} (h : n < s.ing.length) : streamSt (modStream n f s) n = f (streamSt s n) :=
  getD_modAt h

theorem streamSt_of_ing (h : t.ing = s.ing) : streamSt t n = streamSt s n := by
  unfold streamSt
  rw [h]

theorem Inv.stream (h : Inv s) (lt : n < 36) : n < s.ing.length := by
  have len : s.ing.length = 36 := h.shape.1
  omega

theorem stream_of_ing {W : List Part} (h : ∀ p ∈ W, p ≠ .cold) : Keeps W fun t => n < t.ing.length := by
  have len : ∀ x, Keeps W fun t => t.ing.length = x := fun x p hp => by
    have hn := h p hp
    cases p
    case cold => exact absurd rfl hn
    case ing => exact fun s x e g => e.trans g
    all_goals
      simp only [Part.Kept, setReg]
      intros
      assumption
  exact .of_shows len fun x => n < x

/-! ## The fields of a stream -/

theorem ingress_apart {i : Nat} (h : i < 36) : 0x201000 + 0x4 * i ∉ memAddrs ∧ 0x201200 + 0x4 * i ∉ memAddrs := by
  have low : ∀ a ∈ memAddrs, a < 0x201000 ∨ 0x300000 ≤ a := by decide
  exact ⟨fun m => by have := low _ m; omega, fun m => by have := low _ m; omega⟩

/-! ## A sample that a stream takes -/

/-- From s to t stream n has stored bytes and counted a sample, with its samples and slices as they were. -/
def OnlyStored (n : Nat) (s t : State) : Prop :=
  streamSt t n = { streamSt s n with
    taken := (streamSt t n).taken, bufs := (streamSt t n).bufs, ringAt := (streamSt t n).ringAt } ∧ n < t.ing.length ∧ MemRegs s t

theorem OnlyStored.trans (h : OnlyStored n s t) (g : OnlyStored n t u) : OnlyStored n s u := by
  obtain ⟨st, -, regs⟩ := h
  obtain ⟨st', len, regs'⟩ := g
  refine ⟨?_, len, SameRegsBut.trans regs regs'⟩
  rw [st', st]

theorem onlyStored_of_ing (h : t.ing = s.ing) (len : n < s.ing.length) (regs : MemRegs s t) : OnlyStored n s t :=
  ⟨by rw [streamSt_of_ing h], h ▸ len, regs⟩

theorem modStream_stored {f : StreamSt → StreamSt} (len : n < s.ing.length)
    (h : ∀ x, f x = { x with taken := (f x).taken, bufs := (f x).bufs, ringAt := (f x).ringAt }) : OnlyStored n s (modStream n f s) := by
  refine ⟨?_, modStream_keeps (stream_of_ing (by decide)) len, .refl _ s⟩
  rw [streamSt_modStream len]
  exact h _

theorem travSample_stored (len : n < s.ing.length) : OnlyStored n s (travSample n s) := by
  unfold travSample
  extract_lets k s1
  have counted : OnlyStored n s s1 := modStream_stored len fun x => rfl
  exact ite_keeps (P := OnlyStored n s) (counted.trans (onlyStored_of_ing (raiseFlags_keeps (shows_ing (by decide)) rfl) counted.2.1
    (raiseFlags_keeps (keeps_memRegs (by decide)) (.refl _ _)))) counted

theorem storeSample_stored (len : n < s.ing.length) (bs : List Byte) : OnlyStored n s (storeSample n bs s) := by
  unfold storeSample
  extract_lets r t put b o
  have stored (o k : Nat) : OnlyStored n s (put o k s) := onlyStored_of_ing (writeBytes_keeps (shows_ing (by decide)) rfl) len
    (writeBytes_memRegs (.refl _ s))
  refine ite_keeps (P := OnlyStored n s) (onlyStored_of_ing rfl len (.refl _ s)) (ite_keeps (P := OnlyStored n s) ?_ ?_)
  · exact (stored _ _).trans (modStream_stored (stored _ _).2.1 fun x => rfl)
  · exact (stored _ _).trans (modStream_stored (stored _ _).2.1 fun x => rfl)

/-- What a sample makes of its stream's state. -/
def heldSample (n : Nat) (x : Sample) (edge : Bool) (t : StreamSt) : StreamSt :=
  if edge then { t with newest := some x, snap := some x, bufs := (t.bufs.1, t.bufs.1),
                        snapSlice := if isLidar n then x :: t.snapSlice else t.snapSlice }
  else { t with newest := some x, slice := if isLidar n then x :: t.slice else t.slice }

/-- The state in which a taken sample shows in the stream's registers. -/
def takenIn (n : Nat) (x : Sample) (s : State) : State :=
  let s0 := storeSample n x.bytes (travSample n s)
  let s1 := modStream n (heldSample n x (joinsEdge s)) s0
  if joinsEdge s && isLidar n then joinSlice n x s1 else s1

theorem travSample_edge : joinsEdge (travSample n s) = joinsEdge s := by
  unfold joinsEdge
  rw [travSample_keeps (shows_frame (by decide)) rfl, travSample_keeps (shows_count (by decide)) rfl]

theorem takeIn_eq (n : Nat) (x : Sample) (s : State) : takeIn n x s =
    setFlag (F.ING_STREAM_STAT_LINK n) true (setFld (F.ING_STREAM_STAT_SAMPLES n)
      (fld (takenIn n x s) (F.ING_STREAM_STAT_SAMPLES n) + 1) (takenIn n x s)) := by
  unfold takeIn takenIn heldSample
  simp only [travSample_edge]

theorem takenIn_stream (x : Sample) (len : n < s.ing.length) :
    ∃ t, OnlyStored n s t ∧ streamSt (takenIn n x s) n = heldSample n x (joinsEdge s) (streamSt t n) ∧ MemRegs s (takenIn n x s) := by
  have counted := travSample_stored len
  have stored : OnlyStored n s (storeSample n x.bytes (travSample n s)) := counted.trans (storeSample_stored counted.2.1 _)
  have joined {t : State} : (if joinsEdge s && isLidar n then joinSlice n x t else t).ing = t.ing :=
    ite_keeps (P := fun u : State => u.ing = t.ing) rfl rfl
  refine ⟨_, stored, ?_, ?_⟩
  · exact (streamSt_of_ing joined).trans (streamSt_modStream stored.2.1)
  · exact ite_keeps (P := MemRegs s) (SameRegsBut.same stored.2.2 rfl rfl) (SameRegsBut.same stored.2.2 rfl rfl)

theorem takenIn_inv (x : Sample) (h : Inv s) : Inv (takenIn n x s) := by
  have held : Inv (modStream n (heldSample n x (joinsEdge s)) (storeSample n x.bytes (travSample n s))) :=
    modStream_keeps (keeps_inv (by decide)) (storeSample_keeps (keeps_inv (by decide)) (travSample_keeps (keeps_inv (by decide)) h))
  exact ite_keeps (P := Inv) (joinSlice_keeps (keeps_inv (by decide)) held) held

/-- A sample that a stream takes changes the registers of its status alone beside those of the memories. -/
theorem takeIn_regs (x : Sample) (len : n < s.ing.length) : SameRegsBut ((F.ING_STREAM_STAT_SAMPLES n).addr :: memAddrs) s (takeIn n x s) := by
  obtain ⟨-, -, -, regs⟩ := takenIn_stream x len
  rw [takeIn_eq]
  exact ((regs.mono (List.subset_cons_self ..)).setFld List.mem_cons_self).setFlag (f := F.ING_STREAM_STAT_LINK n) List.mem_cons_self

theorem takeIn_stream (x : Sample) (s : State) : streamSt (takeIn n x s) n = streamSt (takenIn n x s) n := by
  rw [takeIn_eq]
  rfl

/-- A sample leaves what the stream is filling, and when it was last heard. -/
theorem takeIn_filling (x : Sample) (len : n < s.ing.length) :
    (streamSt (takeIn n x s) n).filling = (streamSt s n).filling ∧ (streamSt (takeIn n x s) n).heard = (streamSt s n).heard := by
  obtain ⟨t, ⟨stored, -⟩, held, -⟩ := takenIn_stream x len
  rw [takeIn_stream, held, stored]
  unfold heldSample
  split <;> exact ⟨rfl, rfl⟩

/-- A sample that a stream takes is admitted (R79, R87, R93). -/
theorem takeIn_admits (x : Sample) (h : Inv s) (lt : n < 36) : Admitted n x s (takeIn n x s) := by
  obtain ⟨t, ⟨stored, -⟩, held, regs⟩ := takenIn_stream x (h.stream lt)
  have wf := (takenIn_inv (n := n) x h).regs
  have samples : fld (takenIn n x s) (F.ING_STREAM_STAT_SAMPLES n) = fld s (F.ING_STREAM_STAT_SAMPLES n) :=
    regs.fld (ingress_apart lt).1
  refine ⟨?_, fun edge => ?_, fun edge => ?_, ?_, ?_⟩
  · rw [takeIn_stream, held]
    unfold heldSample
    split <;> rfl
  · rw [takeIn_stream, held, edge, stored]
    exact ⟨rfl, rfl, rfl⟩
  · rw [takeIn_stream, held, edge, stored]
    exact ⟨rfl, rfl, rfl⟩
  · rw [takeIn_eq, setFlag, fld_setFld_other (f := F.ING_STREAM_STAT_LINK n) (g := F.ING_STREAM_STAT_SAMPLES n) (setFld_wf wf)
      (of_decide_eq_true rfl) (of_decide_eq_true rfl) rfl (.inl (of_decide_eq_true rfl)), fld_setFld_same wf (of_decide_eq_true rfl), samples]
    rfl
  · rw [takeIn_eq, setFlag, fld_setFld_same (setFld_wf wf) (of_decide_eq_true rfl)]
    rfl

end

end Sys2Proof.Machine

end

section

set_option Elab.async false

/-! # Reception from cameras, lidars, inertial sensors and receivers (chapter 03) -/

namespace Sys2Proof.Machine

section
variable {s t : State} {n i : Nat} {x : Sample} {f : State → State}

/-! ## The FIFO of an interface -/

/-- The state with other counts of what the interfaces' FIFOs hold. -/
def withFifo (g : FifoSt) (s : State) : State := { s with fifo := g }

theorem Inv.withFifo (h : Inv s) (g : FifoSt) : Inv (withFifo g s) :=
  keeps_inv (W := [.fifo]) (by decide) .fifo (by decide) _ _ h

theorem fifoTake_moved (i : Nat) (s : State) : ∃ g, (fifoTake i s).2 = withFifo g s := by
  unfold fifoTake
  extract_lets g m
  split
  · exact ⟨_, rfl⟩
  · exact ⟨_, rfl⟩

theorem throughFifo_of_room (h : (fifoTake i s).1 = true) : ∃ g, throughFifo i n f s = f (withFifo g s) := by
  obtain ⟨g, hg⟩ := fifoTake_moved i s
  exact ⟨g, (if_pos h).trans (by rw [hg])⟩

theorem throughFifo_of_full (h : (fifoTake i s).1 = false) : ∃ g, throughFifo i n f s =
    report (uncoded .fifoFull (streamUnit n) .warning) (bump (F.ING_DROP_CNT_OVERRUN n) (withFifo g s)) := by
  obtain ⟨g, hg⟩ := fifoTake_moved i s
  exact ⟨g, (if_neg (by simp [h])).trans (by rw [hg])⟩

theorem fullFifoDrops {c : Instr} {g : State → State} (up : running s = true) (h : Inv s) (lt : n < 36)
    (e : exec c s = .next (live s g)) (through : g s = throughFifo i n f s) : Claims.FullFifoDrops i n c s := by
  intro full
  obtain ⟨q, hq⟩ := throughFifo_of_full (n := n) (f := f) full
  refine goes_live up e ?_
  rw [through, hq]
  refine ⟨report_keeps (shows_ing (by decide)) rfl, ?_, fun room => report_recorded room⟩
  have counted : Counted (F.ING_DROP_CNT_OVERRUN n) (withFifo q s) (bump (F.ING_DROP_CNT_OVERRUN n) (withFifo q s)) :=
    counted_bump h.regs (of_decide_eq_true rfl)
  exact (fld_report (by simp [F.ING_DROP_CNT_OVERRUN, F.WDN_FLOG_STAT_SEQ]; omega)).trans counted

/-! ## The stream of a channel and of a frame -/

theorem camStream_lt {port : Fin 8} {vc : Fin 16} (h : camStream s port vc = some n) : n < 16 := by
  have mem := List.mem_of_find?_eq_some h
  simp only [camSlots, List.mem_cons, List.not_mem_nil, or_false] at mem
  omega

theorem lidarStream_lt {port : Fin 4} {mac : BitVec 48} {udp : BitVec 16} (h : lidarStream s port mac udp = some n) : n < 24 := by
  have mem := List.mem_of_find?_eq_some h
  simp only [List.mem_cons, List.not_mem_nil, or_false] at mem
  omega

theorem onChannel_of_receives {port : Fin 8} {vc : Fin 16} {f : Nat → State → State} (hn : camStream s port vc = some n)
    (on : receives s n = true) : onChannel port vc f s = throughFifo port.val n (f n) s := by
  unfold onChannel
  rw [hn]
  exact if_pos on

/-! ## A sample that is delivered -/

/-- From s to t nothing has changed that a sample of stream n meets, but what its stream is filling, when it was heard and its drops. -/
structure ReadyFor (n : Nat) (s t : State) : Prop where
  stream : streamSt t n = { streamSt s n with filling := (streamSt t n).filling, heard := (streamSt t n).heard }
  regs : SameRegsBut [(F.ING_DROP_CNT_OVERRUN n).addr] s t
  edge : joinsEdge t = joinsEdge s
  image : t.image = s.image
  inv : Inv t

theorem deliverOwn_rest (n : Nat) (x : Sample) (s : State) :
    ∃ tw l, deliverOwn n x s = { deliver n x s with twin := tw, sent := l } := by
  unfold deliverOwn
  extract_lets t
  have same : ∃ tw l, t = { t with twin := tw, sent := l } := ⟨t.twin, t.sent, rfl⟩
  refine ite_keeps (P := fun u : State => ∃ tw l, u = { t with twin := tw, sent := l }) ?_ same
  unfold sendSealed
  exact ite_keeps (P := fun u : State => ∃ tw l, u = { t with twin := tw, sent := l }) same ⟨_, _, rfl⟩

theorem ReadyFor.takes (r : ReadyFor n s t) (h : Takes s n x) : deliver n x t = takeIn n x t := by
  obtain ⟨done, clear, room⟩ := h
  have faulted : flag t (F.ING_STREAM_STAT_FAULTED n) = false :=
    (r.regs.flag (by simp only [F.ING_STREAM_STAT_FAULTED, F.ING_DROP_CNT_OVERRUN, List.mem_singleton]; omega)).trans clear
  have len : sliceLen t n = sliceLen s n := by
    unfold sliceLen
    rw [r.edge, r.stream]
  have decl : streamDecl t n = streamDecl s n := by
    unfold streamDecl
    rw [r.image]
  unfold deliver
  rw [if_neg (Nat.not_lt.mpr done), if_neg (by simp [faulted]), if_neg]
  rw [len, decl]
  rintro ⟨lidar, full⟩
  exact Nat.not_lt.mpr full (room lidar)

theorem ReadyFor.admits (r : ReadyFor n s t) (h : Takes s n x) (lt : n < 36) : Admitted n x s (deliverOwn n x t) := by
  obtain ⟨tw, l, own⟩ := deliverOwn_rest n x t
  obtain ⟨newest, apart, joined, samples, link⟩ : Admitted n x t (takeIn n x t) := takeIn_admits x r.inv lt
  have same : Admitted n x t (deliverOwn n x t) := by
    rw [own, r.takes h]
    exact ⟨newest, apart, joined, samples, link⟩
  obtain ⟨newest, apart, joined, samples, link⟩ := same
  rw [r.stream] at apart joined
  rw [r.edge] at apart joined
  refine ⟨newest, apart, joined, ?_, link⟩
  rw [samples, r.regs.fld (by simp only [F.ING_STREAM_STAT_SAMPLES, F.ING_DROP_CNT_OVERRUN, List.mem_singleton]; omega)]

theorem ReadyFor.filling (r : ReadyFor n s t) (h : Takes s n x) (lt : n < 36) :
    (streamSt (deliverOwn n x t) n).filling = (streamSt t n).filling ∧ (streamSt (deliverOwn n x t) n).heard = (streamSt t n).heard := by
  obtain ⟨tw, l, own⟩ := deliverOwn_rest n x t
  rw [own, r.takes h]
  exact takeIn_filling x (r.inv.stream lt)

theorem readyFor_clearFilling (h : Inv s) (lt : n < 36) : ReadyFor n s (clearFilling n s) where
  stream := by
    unfold clearFilling
    rw [streamSt_modStream (h.stream lt)]
  regs := .refl _ s
  edge := rfl
  image := rfl
  inv := clearFilling_keeps (keeps_inv (by decide)) h

theorem streamSt_clearFilling (h : Inv s) (lt : n < 36) : streamSt (clearFilling n s) n = { streamSt s n with filling := none } :=
  streamSt_modStream (h.stream lt)

end

section
variable {s : State} {n : Nat} {port : Fin 8} {vc : Fin 16}

/-! ## Cameras -/

/-- What a packet that the port's FIFO takes does on a channel of a stream. -/
theorem goes_onChannel {c : Instr} {f : Nat → State → State} {Q : State → Prop} (up : running s = true)
    (e : exec c s = .next (live s (onChannel port vc f))) (hn : camStream s port vc = some n) (on : receives s n = true)
    (room : (fifoTake port.val s).1 = true) (q : ∀ g, Q (f n (withFifo g s))) : Goes c s Q := by
  refine goes_live up e ?_
  rw [onChannel_of_receives hn on]
  obtain ⟨g, hg⟩ := throughFifo_of_room (n := n) (f := f n) room
  rw [hg]
  exact q g

theorem counted_dropImage {g : Filling} (h : Inv s) (held : (streamSt s n).filling = some g) (bad : g.bad = true) :
    Counted (F.ING_DROP_CNT_INTEGRITY n) s (dropImage n s) := by
  have bumped : dropImage n s = bump (F.ING_DROP_CNT_INTEGRITY n) s := by
    unfold dropImage
    rw [held]
    exact if_pos bad
  exact bumped ▸ counted_bump h.regs (of_decide_eq_true rfl)

theorem dropImage_ing : (dropImage n s).ing = s.ing := dropImage_keeps (shows_ing (by decide)) rfl

theorem exec_frameStart : exec (.frameStart port vc) s = .next (live s (onChannel port vc fun n s =>
    modStream n (fun t => { t with filling := some ⟨s.time.count, [], false, none, 0⟩ }) (dropImage n s))) := rfl

/-- What a CSI-2 packet does to the image of stream n. -/
def joinImage (dt : BitVec 6) (hdr : HeaderState) (ok : Bool) (payload : List Byte) (n : Nat) (s : State) : State :=
  let spoil := modStream n fun t => { t with filling := t.filling.map fun f => { f with bad := true } }
  let take := modStream n fun t => { t with filling := t.filling.map fun f =>
    { f with bytes := f.bytes ++ payload, lines := f.lines + 1 } }
  let lines := (((streamSt s n).filling).map (·.lines)).getD 0
  if hdr = .uncorrectable then spoil s
  else if dt.toNat < 0x10 then s
  else
    let s1 := if ok then s else spoil s
    match dataTypes.find? fun d => d.1 = dt with
    | none => bump (F.ING_DROP_CNT_OVERRUN n) s1
    | some d =>
      if !ok then s1
      else if d.2 < payload.length ∨ 3072 ≤ lines then bump (F.ING_DROP_CNT_OVERRUN n) s1
      else take s1

theorem exec_csi2Packet {dt : BitVec 6} {hdr : HeaderState} {ok : Bool} {payload : List Byte} :
    exec (.csi2Packet port vc dt hdr ok payload) s = .next (live s (onChannel port vc (joinImage dt hdr ok payload))) := rfl

section
variable {dt : BitVec 6} {hdr : HeaderState} {payload : List Byte} {f : Filling}

theorem joinImage_uncorrectable {ok : Bool} (len : n < s.ing.length) (held : (streamSt s n).filling = some f) :
    (streamSt (joinImage dt .uncorrectable ok payload n s) n).filling = some { f with bad := true } := by
  show (streamSt (modStream n _ s) n).filling = _
  rw [streamSt_modStream len, held]
  rfl

theorem joinImage_short {ok : Bool} (good : hdr ≠ .uncorrectable) (short : dt.toNat < 0x10) : joinImage dt hdr ok payload n s = s :=
  (if_neg good).trans (if_pos short)

theorem joinImage_long {ok : Bool} (good : hdr ≠ .uncorrectable) (long : 0x10 ≤ dt.toNat) : joinImage dt hdr ok payload n s =
    let s1 := if ok then s else modStream n (fun t => { t with filling := t.filling.map fun f => { f with bad := true } }) s
    match dataTypes.find? fun d => d.1 = dt with
    | none => bump (F.ING_DROP_CNT_OVERRUN n) s1
    | some d =>
      if !ok then s1
      else if d.2 < payload.length ∨ 3072 ≤ (((streamSt s n).filling).map (·.lines)).getD 0 then
        bump (F.ING_DROP_CNT_OVERRUN n) s1
      else modStream n (fun t => { t with filling := t.filling.map fun f =>
        { f with bytes := f.bytes ++ payload, lines := f.lines + 1 } }) s1 :=
  (if_neg good).trans (if_neg (Nat.not_lt.mpr long))

theorem joinImage_wrongCrc (len : n < s.ing.length) (good : hdr ≠ .uncorrectable) (long : 0x10 ≤ dt.toNat)
    (held : (streamSt s n).filling = some f) :
    (streamSt (joinImage dt hdr false payload n s) n).filling = some { f with bad := true } := by
  have spoilt : (streamSt (modStream n (fun t => { t with filling := t.filling.map fun f => { f with bad := true } }) s) n).filling =
      some { f with bad := true } := by
    rw [streamSt_modStream len, held]
    rfl
  rw [joinImage_long good long]
  cases dataTypes.find? fun d => d.1 = dt with
  | none => exact spoilt
  | some d => exact spoilt

theorem joinImage_fits {d : BitVec 6 × Nat} (len : n < s.ing.length) (good : hdr ≠ .uncorrectable) (long : 0x10 ≤ dt.toNat)
    (held : (streamSt s n).filling = some f) (hd : dataTypes.find? (fun d => d.1 = dt) = some d)
    (fits : payload.length ≤ d.2) (room : f.lines < 3072) : (streamSt (joinImage dt hdr true payload n s) n).filling =
      some { f with bytes := f.bytes ++ payload, lines := f.lines + 1 } := by
  rw [joinImage_long good long, hd]
  have small : ¬(d.2 < payload.length ∨ 3072 ≤ (((streamSt s n).filling).map (·.lines)).getD 0) := by
    rw [held, not_or, Nat.not_lt, Nat.not_le]
    exact ⟨fits, room⟩
  simp only [if_neg small]
  show (streamSt (modStream n _ s) n).filling = _
  rw [streamSt_modStream len, held]
  rfl

theorem joinImage_large {d : BitVec 6 × Nat} (good : hdr ≠ .uncorrectable) (long : 0x10 ≤ dt.toNat)
    (held : (streamSt s n).filling = some f) (hd : dataTypes.find? (fun d => d.1 = dt) = some d)
    (large : d.2 < payload.length ∨ 3072 ≤ f.lines) : joinImage dt hdr true payload n s = bump (F.ING_DROP_CNT_OVERRUN n) s := by
  rw [joinImage_long good long, hd]
  have large : d.2 < payload.length ∨ 3072 ≤ (((streamSt s n).filling).map (·.lines)).getD 0 := by
    rw [held]
    exact large
  simp only [if_pos large]
  rfl

theorem joinImage_unknown {ok : Bool} (h : Inv s) (good : hdr ≠ .uncorrectable) (long : 0x10 ≤ dt.toNat)
    (hd : dataTypes.find? (fun d => d.1 = dt) = none) :
    Counted (F.ING_DROP_CNT_OVERRUN n) s (joinImage dt hdr ok payload n s) ∧ (ok = true → (joinImage dt hdr ok payload n s).ing = s.ing) := by
  rw [joinImage_long good long, hd]
  cases ok
  · exact ⟨counted_bump (s := modStream n _ s) h.regs (of_decide_eq_true rfl), nofun⟩
  · exact ⟨counted_bump h.regs (of_decide_eq_true rfl), fun _ => rfl⟩

end

theorem cameraPackets (up : running s = true) (h : Inv s) (hn : camStream s port vc = some n) (on : receives s n = true)
    (room : (fifoTake port.val s).1 = true) : Claims.CameraPackets port vc n s := by
  have len : n < s.ing.length := h.stream (by have := camStream_lt hn; omega)
  have goes {c : Instr} {f : Nat → State → State} {Q : State → Prop} (e : exec c s = .next (live s (onChannel port vc f)))
      (q : ∀ g, Q (f n (withFifo g s))) : Goes c s Q := goes_onChannel up e hn on room q
  refine ⟨goes exec_frameStart fun g => ⟨?_, fun f held bad => ?_⟩, fun dt hdr ok payload f held => ⟨?_, fun good long => ⟨?_, ?_⟩⟩,
    fun dt hdr ok payload good => ⟨fun short => ?_, fun long none => ?_⟩⟩
  · rw [streamSt_modStream (by rw [dropImage_ing]; exact len)]
    rfl
  · exact counted_dropImage (h.withFifo g) held bad
  · rintro rfl
    exact goes exec_csi2Packet fun g => joinImage_uncorrectable len held
  · rintro rfl
    exact goes exec_csi2Packet fun g => joinImage_wrongCrc (s := withFifo g s) len good long held
  · rintro rfl d hd
    refine ⟨fun fits few => ?_, fun large => ?_⟩
    · exact goes exec_csi2Packet fun g => joinImage_fits (s := withFifo g s) len good long held hd fits few
    · refine goes exec_csi2Packet fun g => ?_
      rw [joinImage_large (s := withFifo g s) good long held hd large]
      exact ⟨rfl, counted_bump (h.withFifo g).regs (of_decide_eq_true rfl)⟩
  · refine goes exec_csi2Packet fun g => ?_
    rw [joinImage_short (s := withFifo g s) good short]
    exact ⟨rfl, rfl⟩
  · refine goes exec_csi2Packet fun g => ?_
    obtain ⟨counted, kept⟩ := joinImage_unknown (n := n) (ok := ok) (payload := payload) (h.withFifo g) good long none
    exact ⟨counted, kept⟩

/-- What a Frame End does to the image of stream n. -/
def endImage (n : Nat) (s : State) : State :=
  match (streamSt s n).filling with
  | none => s
  | some f =>
    let s1 := clearFilling n s
    if f.bad then bump (F.ING_DROP_CNT_INTEGRITY n) s1
    else deliverOwn n ⟨f.arrival - latency s n, s.time.count, f.bytes⟩ s1

theorem exec_frameEnd : exec (.frameEnd port vc) s = .next (live s (onChannel port vc endImage)) := rfl

theorem endImage_of_none (h : (streamSt s n).filling = none) : endImage n s = s := by
  unfold endImage
  rw [h]

theorem endImage_of_some {f : Filling} (h : (streamSt s n).filling = some f) : endImage n s =
    if f.bad then bump (F.ING_DROP_CNT_INTEGRITY n) (clearFilling n s)
    else deliverOwn n ⟨f.arrival - latency s n, s.time.count, f.bytes⟩ (clearFilling n s) := by
  unfold endImage
  rw [h]

theorem cameraFrameEnd (up : running s = true) (h : Inv s) (hn : camStream s port vc = some n) (on : receives s n = true)
    (room : (fifoTake port.val s).1 = true) : Claims.CameraFrameEnd port vc n s := by
  have lt : n < 36 := by have := camStream_lt hn; omega
  have goes {Q : State → Prop} (q : ∀ g, Q (endImage n (withFifo g s))) : Goes (.frameEnd port vc) s Q :=
    goes_onChannel up exec_frameEnd hn on room q
  refine ⟨fun none => goes fun g => ?_, fun f held => ⟨fun good takes => goes fun g => ?_, fun bad => goes fun g => ?_⟩⟩
  · rw [endImage_of_none (s := withFifo g s) none]
    exact ⟨rfl, rfl⟩
  · rw [endImage_of_some (s := withFifo g s) held, if_neg (by simp [good])]
    have ready := readyFor_clearFilling (h.withFifo g) lt
    have cleared := congrArg StreamSt.filling (streamSt_clearFilling (h.withFifo g) lt)
    exact ⟨(ready.filling takes lt).1.trans cleared, ready.admits takes lt⟩
  · rw [endImage_of_some (s := withFifo g s) held, if_pos bad]
    have cleared := streamSt_clearFilling (h.withFifo g) lt
    exact ⟨(congrArg StreamSt.filling cleared :), (congrArg StreamSt.newest cleared :),
      counted_bump (s := clearFilling n _) (h.withFifo g).regs (of_decide_eq_true rfl)⟩

theorem cameraReception : Claims.CameraReception := by
  intro port vc s up h
  refine ⟨fun n hn on => ?_, fun c hc => ?_⟩
  · have lt : n < 36 := by have := camStream_lt hn; omega
    have drops {c : Instr} {f : Nat → State → State} (e : exec c s = .next (live s (onChannel port vc f))) :
        Claims.FullFifoDrops port.val n c s := fullFifoDrops up h lt e (onChannel_of_receives hn on)
    exact ⟨fun room => ⟨cameraPackets up h hn on room, cameraFrameEnd up h hn on room⟩, drops exec_frameStart,
      fun _ _ _ _ => drops exec_csi2Packet, drops exec_frameEnd⟩
  · obtain ⟨f, e⟩ : ∃ f, exec c s = .next (live s (onChannel port vc f)) := by
      obtain rfl | rfl | ⟨dt, hdr, ok, payload, rfl⟩ := hc
      · exact ⟨_, exec_frameStart⟩
      · exact ⟨_, exec_frameEnd⟩
      · exact ⟨_, exec_csi2Packet⟩
    refine ⟨fun n hn off => idle_live e ?_, fun none => goes_live up e ?_⟩
    · unfold onChannel
      rw [hn]
      exact if_neg (by simp [off])
    · unfold onChannel
      rw [none]
      exact ⟨rfl, counted_bump h.regs (of_decide_eq_true rfl)⟩

end

end Sys2Proof.Machine

end

section

set_option Elab.async false

/-! # Reception from lidars, inertial sensors and receivers (chapter 03) -/

namespace Sys2Proof.Machine

section
variable {s t : State} {n : Nat} {x : Sample}

/-! ## Samples that are not taken -/

theorem deliver_early (h : x.done < x.stamp) : deliver n x s =
    report { unit := streamUnit n, cls := 0x0A, ev := 3, sev := .warning } (bump (F.ING_DROP_CNT_INTEGRITY n) s) := if_pos h

theorem deliver_faulted (h : x.stamp ≤ x.done) (faulted : flag s (F.ING_STREAM_STAT_FAULTED n) = true) : deliver n x s = s :=
  (if_neg (Nat.not_lt.mpr h)).trans (if_pos faulted)

theorem deliver_full (h : x.stamp ≤ x.done) (clear : flag s (F.ING_STREAM_STAT_FAULTED n) = false) (lidar : isLidar n = true)
    (full : (streamDecl s n).slice ≤ sliceLen s n) : deliver n x s =
    report { unit := streamUnit n, cls := 0x0A, ev := 2, sev := .warning } (bump (F.ING_DROP_CNT_OVERRUN n) s) :=
  (if_neg (Nat.not_lt.mpr h)).trans ((if_neg (by simp [clear])).trans (if_pos ⟨lidar, full⟩))

theorem streamSt_deliverOwn : streamSt (deliverOwn n x s) n = streamSt (deliver n x s) n := by
  obtain ⟨tw, l, own⟩ := deliverOwn_rest n x s
  exact streamSt_of_ing (by rw [own])

theorem fld_deliverOwn (f : Fld) : fld (deliverOwn n x s) f = fld (deliver n x s) f := by
  obtain ⟨tw, l, own⟩ := deliverOwn_rest n x s
  rw [own]
  rfl

theorem log_deliverOwn : (deliverOwn n x s).log = (deliver n x s).log := by
  obtain ⟨tw, l, own⟩ := deliverOwn_rest n x s
  rw [own]

/-! ## Lidars -/

theorem isLidar_of_lidarStream {port : Fin 4} {mac : BitVec 48} {udp : BitVec 16} (h : lidarStream s port mac udp = some n) :
    isLidar n = true := by
  have mem := List.mem_of_find?_eq_some h
  simp only [List.mem_cons, List.not_mem_nil, or_false] at mem
  exact decide_eq_true (by omega)

theorem lidarStamp_of_is {bytes : List Byte} {stamp : Nat} (h : Claims.LidarStampIs n bytes s stamp) : stamp = lidarStamp s n bytes := by
  obtain ⟨packet, arrival⟩ := h
  unfold lidarStamp
  cases hd : (streamDecl s n).points with
  | none => exact arrival (.inl (by rw [hd]; rfl))
  | some d =>
    dsimp only
    split
    next ns ht _ => exact packet d ns hd ht ‹_›
    next differs =>
      refine arrival ?_
      cases ht : packetTime d bytes with
      | none => exact .inl (by rw [hd]; exact ht)
      | some ns => exact .inr (Bool.eq_false_iff.mpr fun locked => differs ns ht locked)

/-- The state in which a lidar packet of stream n is delivered. -/
def countPoints (n : Nat) (bytes : List Byte) (s : State) : State := bumpBy (F.ING_DROP_CNT_OVERRUN n) (outOfRange s n bytes) s

theorem countPoints_ready (h : Inv s) (bytes : List Byte) : ReadyFor n s (countPoints n bytes s) where
  stream := rfl
  regs := setFld_same
  edge := rfl
  image := rfl
  inv := bumpBy_keeps (keeps_inv (by decide)) h

theorem countPoints_overrun (h : Inv s) (bytes : List Byte) : fld (countPoints n bytes s) (F.ING_DROP_CNT_OVERRUN n) =
    min (fld s (F.ING_DROP_CNT_OVERRUN n) + outOfRange s n bytes) 0x3FF := by
  show fld (setFld _ _ s) _ = _
  rw [fld_setFld_same h.regs (of_decide_eq_true rfl)]
  exact Nat.mod_eq_of_lt (Nat.lt_of_le_of_lt (Nat.min_le_right ..) (Nat.sub_lt (Nat.two_pow_pos _) Nat.one_pos))

theorem countPoints_integrity (h : Inv s) (bytes : List Byte) :
    fld (countPoints n bytes s) (F.ING_DROP_CNT_INTEGRITY n) = fld s (F.ING_DROP_CNT_INTEGRITY n) :=
  fld_setFld_other h.regs (of_decide_eq_true rfl) (of_decide_eq_true rfl) rfl (.inr (of_decide_eq_true rfl))

/-- A lidar packet of stream n is delivered with the stamp that it has. -/
def takePacket (n : Nat) (bytes : List Byte) (s : State) : State :=
  deliverOwn n ⟨lidarStamp s n bytes, s.time.count, bytes⟩ (countPoints n bytes s)

/-- What a packet from a lidar does. -/
def hearLidar (port : Fin 4) (p : LidarPkt) (s : State) : State :=
  if p.frameLen > 9216 ∨ p.tags > 1 then s
  else if p.fragment then bump (F.ING_DROP_CNT_OVERRUN (fragmentStream s port p.mac)) s
  else
    match lidarStream s port p.mac p.udp with
    | none => s
    | some n => throughFifo (8 + port.val) n (takePacket n p.bytes) s

theorem exec_lidarPacket {port : Fin 4} {p : LidarPkt} : exec (.lidarPacket port p) s = .next (live s (hearLidar port p)) := rfl

section
variable {port : Fin 4} {p : LidarPkt}

theorem hearLidar_bad (h : p.frameLen > 9216 ∨ p.tags > 1) : hearLidar port p s = s := if_pos h

theorem hearLidar_fragment (h : ¬(p.frameLen > 9216 ∨ p.tags > 1)) (frag : p.fragment = true) :
    hearLidar port p s = bump (F.ING_DROP_CNT_OVERRUN (fragmentStream s port p.mac)) s := (if_neg h).trans (if_pos frag)

theorem hearLidar_whole (h : ¬(p.frameLen > 9216 ∨ p.tags > 1)) (whole : p.fragment = false) : hearLidar port p s =
    match lidarStream s port p.mac p.udp with
    | none => s
    | some n => throughFifo (8 + port.val) n (takePacket n p.bytes) s := (if_neg h).trans (if_neg (by simp [whole]))

end

/-- What a packet that a stream's FIFO takes does, delivered with the stamp that it has. -/
theorem lidarDelivered (h : Inv s) (lt : n < 36) (lidar : isLidar n = true) (bytes : List Byte) (stamp : Nat) :
    let t := deliverOwn n ⟨stamp, s.time.count, bytes⟩ (countPoints n bytes s)
    (Takes s n ⟨stamp, s.time.count, bytes⟩ → Admitted n ⟨stamp, s.time.count, bytes⟩ s t ∧
      fld t (F.ING_DROP_CNT_OVERRUN n) = min (fld s (F.ING_DROP_CNT_OVERRUN n) + outOfRange s n bytes) 0x3FF) ∧
    (s.time.count < stamp → streamSt t n = streamSt s n ∧ Counted (F.ING_DROP_CNT_INTEGRITY n) s t ∧
      (s.log.queue.length < 256 → Recorded t (streamUnit n) 0x0A 3 1)) ∧
    (stamp ≤ s.time.count → flag s (F.ING_STREAM_STAT_FAULTED n) = true → streamSt t n = streamSt s n) ∧
    (stamp ≤ s.time.count → flag s (F.ING_STREAM_STAT_FAULTED n) = false → (streamDecl s n).slice ≤ sliceLen s n →
      streamSt t n = streamSt s n ∧ (outOfRange s n bytes = 0 → Counted (F.ING_DROP_CNT_OVERRUN n) s t) ∧
        (s.log.queue.length < 256 → Recorded t (streamUnit n) 0x0A 2 1)) := by
  have ready := countPoints_ready (n := n) h bytes
  have apart {f : Fld} (g : 0x201200 ≤ f.addr) : f.addr ≠ F.WDN_FLOG_STAT_SEQ.addr := fun e => by
    rw [e] at g
    exact absurd g (by decide)
  have faults : flag (countPoints n bytes s) (F.ING_STREAM_STAT_FAULTED n) = flag s (F.ING_STREAM_STAT_FAULTED n) :=
    ready.regs.flag (by simp only [F.ING_STREAM_STAT_FAULTED, F.ING_DROP_CNT_OVERRUN, List.mem_singleton]; omega)
  refine ⟨fun takes => ⟨ready.admits takes lt, ?_⟩, fun early => ?_, fun done faulted => ?_, fun done clear full => ?_⟩
  · rw [fld_deliverOwn, ready.takes takes, (takeIn_regs _ (ready.inv.stream lt)).fld, countPoints_overrun h]
    have := (ingress_apart lt).2
    simp only [List.mem_cons, not_or]
    exact ⟨by simp only [F.ING_STREAM_STAT_SAMPLES, F.ING_DROP_CNT_OVERRUN]; omega, this⟩
  · have late := deliver_early (n := n) (s := countPoints n bytes s) (x := ⟨stamp, s.time.count, bytes⟩) early
    refine ⟨?_, ?_, fun room => ?_⟩
    · rw [streamSt_deliverOwn, late]
      exact streamSt_of_ing (report_keeps (shows_ing (by decide)) rfl)
    · have counted := counted_bump (f := F.ING_DROP_CNT_INTEGRITY n) ready.inv.regs (of_decide_eq_true rfl)
      rw [Counted, countPoints_integrity h] at counted
      rw [Counted, fld_deliverOwn, late, fld_report (apart (Nat.le_add_right ..)), counted]
    · have recorded := report_recorded (s := bump (F.ING_DROP_CNT_INTEGRITY n) (countPoints n bytes s))
        (e := { unit := streamUnit n, cls := 0x0A, ev := 3, sev := .warning }) room
      rw [← late] at recorded
      rw [Recorded, log_deliverOwn]
      exact recorded
  · rw [streamSt_deliverOwn, deliver_faulted done (faults.trans faulted)]
    rfl
  · have dropped := deliver_full (s := countPoints n bytes s) (x := ⟨stamp, s.time.count, bytes⟩) done (faults.trans clear) lidar full
    refine ⟨?_, fun none => ?_, fun room => ?_⟩
    · rw [streamSt_deliverOwn, dropped]
      exact streamSt_of_ing (report_keeps (shows_ing (by decide)) rfl)
    · have counted := counted_bump (f := F.ING_DROP_CNT_OVERRUN n) ready.inv.regs (of_decide_eq_true rfl)
      have small : fld s (F.ING_DROP_CNT_OVERRUN n) < 2 ^ 10 := bitsOf_lt _ _ _
      have kept : fld (countPoints n bytes s) (F.ING_DROP_CNT_OVERRUN n) = fld s (F.ING_DROP_CNT_OVERRUN n) := by
        rw [countPoints_overrun h, none]
        exact Nat.min_eq_left (Nat.le_of_lt_succ small)
      rw [Counted, kept] at counted
      rw [Counted, fld_deliverOwn, dropped, fld_report (apart (Nat.le_add_right ..)), counted]
    · have recorded := report_recorded (s := bump (F.ING_DROP_CNT_OVERRUN n) (countPoints n bytes s))
        (e := { unit := streamUnit n, cls := 0x0A, ev := 2, sev := .warning }) room
      rw [← dropped] at recorded
      rw [Recorded, log_deliverOwn]
      exact recorded

theorem lidarReception : Claims.LidarReception := by
  intro port p s up h
  refine ⟨fun bad => idle_live exec_lidarPacket (hearLidar_bad bad), fun len tags => ?_⟩
  have good : ¬(p.frameLen > 9216 ∨ p.tags > 1) := by omega
  refine ⟨fun frag => goes_live up exec_lidarPacket ?_, fun whole none => idle_live exec_lidarPacket ?_, fun n whole hn => ?_⟩
  · rw [hearLidar_fragment good frag]
    exact ⟨rfl, counted_bump h.regs (of_decide_eq_true rfl)⟩
  · rw [hearLidar_whole good whole, none]
  · have lt : n < 36 := by have := lidarStream_lt hn; omega
    have through : hearLidar port p s = throughFifo (8 + port.val) n (takePacket n p.bytes) s := by
      rw [hearLidar_whole good whole, hn]
    refine ⟨fullFifoDrops up h lt exec_lidarPacket through, fun room stamp his => ?_⟩
    obtain ⟨g, taken⟩ := throughFifo_of_room (n := n) (f := takePacket n p.bytes) room
    have goes {Q : State → Prop} (q : Q (deliverOwn n ⟨stamp, s.time.count, p.bytes⟩ (countPoints n p.bytes (withFifo g s)))) :
        Goes (.lidarPacket port p) s Q := by
      refine goes_live up exec_lidarPacket ?_
      rw [lidarStamp_of_is his] at q
      rw [through, taken]
      exact q
    obtain ⟨takes, early, faulted, full⟩ := lidarDelivered (h.withFifo g) lt (isLidar_of_lidarStream hn) p.bytes stamp
    exact ⟨fun k => goes (takes k), fun k => goes (early k), fun k l => goes (faulted k l), fun k l m => goes (full k l m)⟩

/-- Settles O16. -/
theorem cameraAndLidarReception : Obligations.CameraAndLidarReception := by
  unfold Obligations.CameraAndLidarReception
  exact ⟨cameraReception, lidarReception⟩

/-! ## Inertial sensors -/

/-- The end of a burst of stream k. -/
def endBurst (k : Nat) (bytes : List Byte) (ok : Bool) (s : State) : State :=
  match (streamSt s k).filling with
  | none => s
  | some f =>
    let s1 := clearFilling k s
    if (streamDecl s k).checksum && !ok then bump (F.ING_DROP_CNT_INTEGRITY k) s1
    else deliverOwn k ⟨f.arrival - latency s k, s.time.count, padTo (streamDecl s k).bytes bytes⟩ s1

theorem exec_imuBurstDone {n : Fin 2} {bytes : List Byte} {ok : Bool} :
    exec (.imuBurstDone n bytes ok) s = .next (live s (endBurst (24 + n.val) bytes ok)) := rfl

theorem endBurst_of_some {k : Nat} {bytes : List Byte} {ok : Bool} {f : Filling} (h : (streamSt s k).filling = some f) :
    endBurst k bytes ok s = if (streamDecl s k).checksum && !ok then bump (F.ING_DROP_CNT_INTEGRITY k) (clearFilling k s)
      else deliverOwn k ⟨f.arrival - latency s k, s.time.count, padTo (streamDecl s k).bytes bytes⟩ (clearFilling k s) := by
  unfold endBurst
  rw [h]

theorem exec_imuDrdy {n : Fin 2} : exec (.imuDrdy n) s = .next (live s fun s =>
    if !receives s (24 + n.val) then s
    else if (streamSt s (24 + n.val)).filling.isSome then hear (24 + n.val) (bump (F.ING_DROP_CNT_OVERRUN (24 + n.val)) s)
    else hear (24 + n.val)
      (modStream (24 + n.val) (fun t => { t with filling := some ⟨s.time.count, [], false, none, 0⟩ }) s)) := rfl

theorem streamSt_hear (len : n < s.ing.length) : streamSt (hear n s) n = { streamSt s n with heard := some s.time.count } :=
  streamSt_modStream len

theorem imuReception : Claims.ImuReception := by
  intro n s up h k
  have lt : k < 36 := by unfold k; omega
  have len : k < s.ing.length := h.stream lt
  refine ⟨fun on none => goes_live up exec_imuDrdy ?_, fun on f held => goes_live up exec_imuDrdy ?_,
    fun off => idle_live exec_imuDrdy ?_, fun bytes ok none => idle_live exec_imuBurstDone ?_, fun f bytes held => ⟨?_, ?_⟩⟩
  · rw [if_neg (by simp [k] at on; simp [on]), if_neg (by simp [k] at none; simp [none])]
    refine ⟨?_, rfl⟩
    rw [streamSt_hear (modStream_keeps (stream_of_ing (by decide)) len), streamSt_modStream len]
    rfl
  · rw [if_neg (by simp [k] at on; simp [on]), if_pos (by simp [k] at held; simp [held])]
    exact ⟨streamSt_hear len, counted_bump h.regs (of_decide_eq_true rfl)⟩
  · exact if_pos (by simp [k] at off; simp [off])
  · unfold endBurst
    rw [none]
  · refine fun ok sum takes => goes_live up exec_imuBurstDone ?_
    have good : ¬((streamDecl s k).checksum && !ok) = true := by
      rw [Bool.and_eq_true, Bool.not_eq_true']
      rintro ⟨declared, wrong⟩
      simp [sum declared] at wrong
    rw [endBurst_of_some held, if_neg good]
    have ready := readyFor_clearFilling h lt
    have cleared := congrArg StreamSt.filling (streamSt_clearFilling h lt)
    exact ⟨(ready.filling takes lt).1.trans cleared, ready.admits takes lt⟩
  · refine fun declared => goes_live up exec_imuBurstDone ?_
    rw [endBurst_of_some held, if_pos (by simp [declared])]
    have cleared := streamSt_clearFilling h lt
    exact ⟨(congrArg StreamSt.filling cleared :), (congrArg StreamSt.newest cleared :),
      counted_bump (s := clearFilling k s) h.regs (of_decide_eq_true rfl)⟩

/-! ## Receivers -/

/-- A valid fix of receiver n is noted. -/
def noteFix (n : Nat) (m : NmeaMsg) (s : State) : State :=
  if m.fixValid then { s with time := { s.time with fixAt := modAt n (fun _ => some s.time.count) s.time.fixAt } } else s

/-- The set of its epoch with a sentence of stream k. -/
def joinEpoch (k : Nat) (m : NmeaMsg) (s : State) : Filling :=
  { epochSet s k m.utcNs with
    bytes := (epochSet s k m.utcNs).bytes ++ m.bytes, utcNs := m.utcNs.orElse fun _ => (epochSet s k m.utcNs).utcNs }

/-- The stamp of an epoch that is complete. -/
def epochStamp (k : Nat) (f : Filling) (s : State) : Nat :=
  match f.utcNs, timeLocked s with
  | some u, true => utcTick s u
  | _, _ => s.time.count - latency s k

/-- What a sentence that a receiver's FIFO takes does. -/
def takeSentence (n : Nat) (m : NmeaMsg) (k : Nat) (s : State) : State :=
  if !m.sumOk then bump (F.ING_DROP_CNT_INTEGRITY k) s
  else if m.kind = .other then bump (F.ING_DROP_CNT_OVERRUN k) s
  else if m.kind ≠ (streamDecl s k).terminator then modStream k (fun t => { t with filling := some (joinEpoch k m s) }) (noteFix n m s)
  else deliverOwn k ⟨epochStamp k (joinEpoch k m s) s, s.time.count, (joinEpoch k m s).bytes⟩ (clearFilling k (hear k (noteFix n m s)))

theorem exec_nmeaSentence {n : Fin 2} {m : NmeaMsg} : exec (.nmeaSentence n m) s = .next (live s fun s =>
    if !receives s (26 + n.val) then s
    else throughFifo (14 + n.val) (26 + n.val) (takeSentence n.val m (26 + n.val)) s) := rfl

theorem noteFix_eq (n : Nat) (m : NmeaMsg) (s : State) : ∃ x : TimeSt, x.count = s.time.count ∧ (s.time.shaped → x.shaped) ∧
    noteFix n m s = { s with time := x } ∧ (s.time.shaped → m.fixValid = true → n < 2 → x.fixAt.getD n none = some s.time.count) := by
  unfold noteFix
  split
  · refine ⟨{ s.time with fixAt := modAt n (fun _ => some s.time.count) s.time.fixAt }, rfl,
      fun ⟨a, b, c, d, e⟩ => ⟨a, b, c, ?_, e⟩, rfl, fun ⟨a, b, c, d, e⟩ _ lt => ?_⟩
    · simpa [modAt] using d
    · exact getD_modAt (by omega)
  · exact ⟨s.time, rfl, id, rfl, fun _ fix => absurd fix ‹_›⟩

/-- A fix that is noted changes nothing that a sample meets. -/
theorem noteFix_inv {m : NmeaMsg} (h : Inv s) : Inv (noteFix n m s) := by
  obtain ⟨x, count, shaped, e, -⟩ := noteFix_eq n m s
  rw [e]
  exact keeps_inv (W := [.time]) (by decide) .time (by decide) s x ⟨count, shaped⟩ h

theorem noteFix_ready {m : NmeaMsg} {k : Nat} (h : Inv s) (lt : k < 36) : ReadyFor k s (clearFilling k (hear k (noteFix n m s))) ∧
    (streamSt (clearFilling k (hear k (noteFix n m s))) k).filling = none ∧
    (streamSt (clearFilling k (hear k (noteFix n m s))) k).heard = some s.time.count := by
  have inv : Inv (hear k (noteFix n m s)) := hear_keeps (keeps_inv (by decide)) (noteFix_inv h)
  have cleared := streamSt_clearFilling inv lt
  have heard := streamSt_hear (n := k) ((noteFix_inv (n := n) (m := m) h).stream lt)
  obtain ⟨x, count, -, e, -⟩ := noteFix_eq n m s
  have all : streamSt (clearFilling k (hear k (noteFix n m s))) k =
      { streamSt s k with filling := none, heard := some s.time.count } := by
    rw [cleared, heard, e, count]
    rfl
  refine ⟨⟨?_, ?_, ?_, ?_, clearFilling_keeps (keeps_inv (by decide)) inv⟩, ?_, ?_⟩
  · rw [all]
  · rw [e]
    exact .refl _ s
  · rw [e]
    show joinsEdge { s with time := x } = joinsEdge s
    unfold joinsEdge
    rw [count]
  · rw [e]
    rfl
  · rw [all]
  · rw [all]

section
variable {k : Nat} {m : NmeaMsg}

theorem takeSentence_badSum (sum : m.sumOk = false) : takeSentence n m k s = bump (F.ING_DROP_CNT_INTEGRITY k) s :=
  if_pos (by simp [sum])

theorem takeSentence_other (sum : m.sumOk = true) (kind : m.kind = .other) :
    takeSentence n m k s = bump (F.ING_DROP_CNT_OVERRUN k) s := (if_neg (by simp [sum])).trans (if_pos kind)

theorem takeSentence_inner (sum : m.sumOk = true) (kind : m.kind ≠ .other) (inner : m.kind ≠ (streamDecl s k).terminator) :
    takeSentence n m k s = modStream k (fun t => { t with filling := some (joinEpoch k m s) }) (noteFix n m s) :=
  (if_neg (by simp [sum])).trans ((if_neg kind).trans (if_pos inner))

theorem takeSentence_last (sum : m.sumOk = true) (kind : m.kind ≠ .other) (last : m.kind = (streamDecl s k).terminator) :
    takeSentence n m k s = deliverOwn k ⟨epochStamp k (joinEpoch k m s) s, s.time.count, (joinEpoch k m s).bytes⟩
      (clearFilling k (hear k (noteFix n m s))) :=
  (if_neg (by simp [sum])).trans ((if_neg kind).trans (if_neg (by simp [last])))

/-- A sentence that is in order leaves the time base as the fix that it notes does. -/
theorem takeSentence_time (sum : m.sumOk = true) (kind : m.kind ≠ .other) : (takeSentence n m k s).time = (noteFix n m s).time := by
  by_cases last : m.kind = (streamDecl s k).terminator
  · rw [takeSentence_last sum kind last]
    exact deliverOwn_keeps (shows_time (by decide)) rfl
  · rw [takeSentence_inner sum kind last]
    rfl

end

theorem gnssReception : Claims.GnssReception := by
  intro n m s up h k old f stamp
  have lt : k < 36 := by unfold k; omega
  have heard (on : receives s k = true) : (if !receives s (26 + n.val) then s
      else throughFifo (14 + n.val) (26 + n.val) (takeSentence n.val m (26 + n.val)) s) =
      throughFifo (14 + n.val) k (takeSentence n.val m k) s := if_neg (by simp [k] at on; simp [on])
  refine ⟨fun off => idle_live exec_nmeaSentence (if_pos (by simp [k] at off; simp [off])),
    fun on => fullFifoDrops up h lt exec_nmeaSentence (heard on), fun on room => ?_⟩
  obtain ⟨g, taken⟩ := throughFifo_of_room (n := k) (f := takeSentence n.val m k) room
  have goes {Q : State → Prop} (q : Q (takeSentence n.val m k (withFifo g s))) : Goes (.nmeaSentence n m) s Q := by
    refine goes_live up exec_nmeaSentence ?_
    rw [heard on, taken]
    exact q
  refine ⟨fun sum => goes ?_, fun sum kind => goes ?_, fun sum kind => goes ⟨fun inner => ?_, fun last takes => ?_, fun fix => ?_⟩⟩
  · rw [takeSentence_badSum sum]
    exact ⟨rfl, counted_bump (h.withFifo g).regs (of_decide_eq_true rfl)⟩
  · rw [takeSentence_other sum kind]
    exact ⟨rfl, counted_bump (h.withFifo g).regs (of_decide_eq_true rfl)⟩
  · rw [takeSentence_inner (s := withFifo g s) sum kind inner, streamSt_modStream ((noteFix_inv (h.withFifo g)).stream lt)]
    obtain ⟨x, -, -, e, -⟩ := noteFix_eq n.val m (withFifo g s)
    rw [e]
    rfl
  · rw [takeSentence_last (s := withFifo g s) sum kind last]
    obtain ⟨ready, empty, now⟩ := noteFix_ready (n := n.val) (m := m) (h.withFifo g) lt
    have kept := ready.filling (x := ⟨epochStamp k (joinEpoch k m s) s, s.time.count, (joinEpoch k m s).bytes⟩) takes lt
    exact ⟨kept.1.trans empty, kept.2.trans now, ready.admits takes lt⟩
  · rw [takeSentence_time sum kind]
    obtain ⟨x, -, -, e, noted⟩ := noteFix_eq n.val m (withFifo g s)
    rw [e]
    exact noted h.shape.time fix n.isLt

/-- Settles O17. -/
theorem imuAndGnssReception : Obligations.ImuAndGnssReception := by
  unfold Obligations.ImuAndGnssReception
  exact ⟨imuReception, gnssReception⟩

end

end Sys2Proof.Machine

end

section

set_option Elab.async false

/-! # The time base's references, and what the Ethernet ports send (R80, R82, R103 to R108) -/

namespace Sys2Proof.Machine

section
variable {s t : State} {n : Nat}

/-! ## The source that the references give -/

/-- The registers that the references of the time base write. -/
def timeAddrs : List Nat := F.WDN_TIME_STAT_SRC.addr :: F.WDN_TIME_TRIM_TRIM.addr :: F.WDN_TAI_OFS_LO_OFS.addr ::
  F.WDN_TAI_OFS_HI_OFS.addr :: logAddrs

/-- From s to t nothing has changed that the choice of a source reads. -/
structure SameReferences (s t : State) : Prop where
  regs : SameRegsBut timeAddrs s t
  good : t.time.good = s.time.good
  fixAt : t.time.fixAt = s.time.fixAt
  count : t.time.count = s.time.count
  gptpSync : t.time.gptpSync = s.time.gptpSync

theorem SameReferences.chooseSource (h : SameReferences s t) : chooseSource t = chooseSource s := by
  obtain ⟨regs, good, fixAt, count, gptpSync⟩ := h
  have fix : ∀ n, fixRecent t n = fixRecent s n := fun n => by
    unfold fixRecent
    rw [fixAt, count]
  have valid : ∀ n, ppsValid t n = ppsValid s n := fun n => by
    unfold ppsValid ppsEnabled
    rw [fix, good, regs.flag (f := F.WDN_TIME_CFG_PPS0_EN) (by decide), regs.flag (f := F.WDN_TIME_CFG_PPS1_EN) (by decide)]
  have port : gptpPort t = gptpPort s := by
    unfold gptpPort maskBit
    rw [regs.flag (f := F.WDN_TIME_CFG_GPTP_EN) (by decide), regs.fld (f := F.WDN_TIME_CFG_SLAVE_MASK) (by decide), gptpSync]
  unfold Machine.chooseSource
  rw [valid, valid, port]

/-! ## What WDN_TIME_STAT shows -/

/-- The source that the references of s give is locked (R107). -/
abbrev lockedOf (s : State) : Prop := (chooseSource s).1 = 2 ∨ (chooseSource s).1 < 2 ∧ s.time.good.getD (chooseSource s).1 0 ≥ 4

/-- The end of every source is told once. -/
def tellHoldover (s : State) : State :=
  if (chooseSource s).1 = 3 ∧ fld s F.WDN_TIME_STAT_SRC ≠ 3 then report (uncoded .holdover 0x90 .warning) s else s

/-- WDN_TIME_STAT shows whether the source of the references of s is locked. -/
def showLocked (s : State) : State := setFlag F.WDN_TIME_STAT_LOCKED (decide (lockedOf s)) (tellHoldover s)

/-- WDN_TIME_STAT shows the source of the references of s. -/
def showSource (s : State) : State :=
  setFld F.WDN_TIME_STAT_SRC (chooseSource s).1 (setFld F.WDN_TIME_STAT_PORT (chooseSource s).2 (showLocked s))

/-- The state in which the time base has been locked, and since when it is not. -/
def relock (l : Bool) (k : Nat) (s : State) : State := { s with time := { s.time with everLocked := l, holdTicks := k } }

theorem takeSource_eq (s : State) : ∃ l k, takeSource s = setFld F.WDN_TIME_STAT_HOLDOVER_S 0 (relock l k (showSource s)) ∨
    takeSource s = relock l k (showSource s) := by
  unfold takeSource
  extract_lets c locked s1 s2
  split
  · exact ⟨true, 0, .inl rfl⟩
  · split
    · exact ⟨s2.time.everLocked, s2.time.holdTicks, .inr rfl⟩
    · exact ⟨s2.time.everLocked, 0, .inl rfl⟩

theorem tellHoldover_regs (s : State) : SameRegsBut logAddrs s (tellHoldover s) :=
  ite_keeps (P := SameRegsBut logAddrs s) (report_regs _ s) (.refl _ s)

theorem showSource_regs (s : State) : SameRegsBut timeAddrs s (showSource s) :=
  (((tellHoldover_regs s).mono (by decide)).setFlag (by decide)).setFld (by decide) |>.setFld (by decide)

theorem showSource_time (s : State) : (showSource s).time = s.time :=
  ite_keeps (P := fun t : State => t.time = s.time) report_time rfl

theorem takeSource_time (s : State) : ∃ l k, (takeSource s).time = { s.time with everLocked := l, holdTicks := k } := by
  have time : (showSource s).time = s.time := showSource_time s
  obtain ⟨l, k, e | e⟩ := takeSource_eq s
  · exact ⟨l, k, by rw [e, ← time]; rfl⟩
  · exact ⟨l, k, by rw [e, ← time]; rfl⟩

theorem takeSource_references (s : State) : SameReferences s (takeSource s) := by
  have regs : SameRegsBut timeAddrs s (takeSource s) := by
    obtain ⟨l, k, e | e⟩ := takeSource_eq s
    · rw [e]
      exact ((showSource_regs s).same rfl rfl).setFld (f := F.WDN_TIME_STAT_HOLDOVER_S) (by decide)
    · rw [e]
      exact (showSource_regs s).same rfl rfl
  obtain ⟨l, k, time⟩ := takeSource_time s
  exact ⟨regs, by rw [time], by rw [time], by rw [time], by rw [time]⟩

theorem tellHoldover_wf (h : Regs.wf s.image s.regs) : Regs.wf (tellHoldover s).image (tellHoldover s).regs :=
  ite_keeps (P := fun t : State => Regs.wf t.image t.regs) (report_keeps (keeps_regs_wf (by decide)) h) h

theorem showLocked_wf (h : Regs.wf s.image s.regs) : Regs.wf (showLocked s).image (showLocked s).regs :=
  setFld_wf (tellHoldover_wf h)

theorem showSource_wf (h : Regs.wf s.image s.regs) : Regs.wf (showSource s).image (showSource s).regs :=
  setFld_wf (setFld_wf (showLocked_wf h))

/-- The fields of WDN_TIME_STAT below the holdover's time are those of the source that is shown. -/
theorem fld_takeSource {f : Fld} (h : Regs.wf s.image s.regs) (ok : f.ok) (at0 : f.addr = F.WDN_TIME_STAT_HOLDOVER_S.addr)
    (low : f.hi < 16) : fld (takeSource s) f = fld (showSource s) f := by
  obtain ⟨l, k, e | e⟩ := takeSource_eq s
  · rw [e]
    exact fld_setFld_other (f := F.WDN_TIME_STAT_HOLDOVER_S) (showSource_wf h) (by decide) ok at0 (.inl low)
  · rw [e]
    rfl

theorem showSource_src (h : Regs.wf s.image s.regs) : fld (showSource s) F.WDN_TIME_STAT_SRC = (chooseSource s).1 % 4 :=
  fld_setFld_same (setFld_wf (showLocked_wf h)) (by decide)

theorem showSource_port (h : Regs.wf s.image s.regs) : fld (showSource s) F.WDN_TIME_STAT_PORT = (chooseSource s).2 % 4 := by
  unfold showSource
  rw [fld_setFld_other (f := F.WDN_TIME_STAT_SRC) (g := F.WDN_TIME_STAT_PORT) (setFld_wf (showLocked_wf h))
    (by decide) (by decide) rfl (by decide), fld_setFld_same (showLocked_wf h) (by decide)]
  rfl

/-- A field of WDN_TIME_STAT that shows neither the source nor its port. -/
theorem showSource_other {f : Fld} (h : Regs.wf s.image s.regs) (ok : f.ok) (at0 : f.addr = F.WDN_TIME_STAT_SRC.addr)
    (high : 3 < f.lo) : fld (showSource s) f = fld (showLocked s) f := by
  unfold showSource
  rw [fld_setFld_other (f := F.WDN_TIME_STAT_SRC) (setFld_wf (showLocked_wf h)) (by decide) ok at0
      (.inr (Nat.lt_trans (by decide) high)),
    fld_setFld_other (f := F.WDN_TIME_STAT_PORT) (showLocked_wf h) (by decide) ok at0 (.inr high)]

theorem chooseSource_small (s : State) : (chooseSource s).1 < 4 ∧ (chooseSource s).2 < 4 := by
  unfold chooseSource
  split
  · decide
  · split
    · decide
    · cases hp : gptpPort s with
      | none => decide
      | some p =>
        refine ⟨show 2 < 4 by decide, ?_⟩
        unfold gptpPort at hp
        split at hp
        · cases hp
        · exact List.mem_range.mp (List.mem_of_find?_eq_some hp)

/-- From s to t nothing has changed that a source and the field LOCKED are shown of. -/
theorem SameReferences.shows (h : SameReferences s t) (word : regWord t F.WDN_TIME_STAT_SRC.addr = regWord s F.WDN_TIME_STAT_SRC.addr)
    (shows : Claims.ShowsItsSource s) : Claims.ShowsItsSource t := by
  have same {f : Fld} (a : f.addr = F.WDN_TIME_STAT_SRC.addr) : fld t f = fld s f := by
    unfold fld
    rw [a, word]
  obtain ⟨src, port, locked⟩ := shows
  refine ⟨?_, ?_, ?_⟩
  · rw [h.chooseSource, same rfl, src]
  · rw [h.chooseSource, same (f := F.WDN_TIME_STAT_PORT) rfl, port]
  · rw [h.chooseSource, h.good, flag, same (f := F.WDN_TIME_STAT_LOCKED) rfl]
    exact locked

/-- WDN_TIME_STAT shows the source that the order of R106 gives. -/
theorem takeSource_shows (h : Regs.wf s.image s.regs) : Claims.ShowsItsSource (takeSource s) := by
  have choice := (takeSource_references s).chooseSource
  have good := (takeSource_references s).good
  obtain ⟨src, port⟩ := chooseSource_small s
  refine ⟨?_, ?_, ?_⟩
  · rw [choice, fld_takeSource (f := F.WDN_TIME_STAT_SRC) h (by decide) rfl (by decide), showSource_src h, Nat.mod_eq_of_lt src]
  · rw [choice, fld_takeSource (f := F.WDN_TIME_STAT_PORT) h (by decide) rfl (by decide), showSource_port h, Nat.mod_eq_of_lt port]
  · have told : flag (takeSource s) F.WDN_TIME_STAT_LOCKED = decide (lockedOf s) := by
      unfold flag
      rw [fld_takeSource (f := F.WDN_TIME_STAT_LOCKED) h (by decide) rfl (by decide),
        showSource_other (f := F.WDN_TIME_STAT_LOCKED) h (by decide) rfl (by decide)]
      exact flag_setFlag_same (tellHoldover_wf h) (by decide)
    rw [choice, good, told, decide_eq_true_iff]

/-- A new source leaves the count of rejected edges. -/
theorem takeSource_rejected (h : Regs.wf s.image s.regs) :
    fld (takeSource s) F.WDN_TIME_STAT_PPS_REJ = fld s F.WDN_TIME_STAT_PPS_REJ := by
  rw [fld_takeSource (f := F.WDN_TIME_STAT_PPS_REJ) h (by decide) rfl (by decide),
    showSource_other (f := F.WDN_TIME_STAT_PPS_REJ) h (by decide) rfl (by decide), showLocked, setFlag,
    fld_setFld_other (f := F.WDN_TIME_STAT_LOCKED) (g := F.WDN_TIME_STAT_PPS_REJ) (tellHoldover_wf h) (by decide) (by decide) rfl
      (by decide)]
  exact (tellHoldover_regs s).fld (by decide)

/-! ## The trim -/

theorem discipline_references (e : Int) (tai : Option Nat) (s : State) : SameReferences s (discipline e tai s) :=
  ⟨(((SameRegsBut.refl timeAddrs s).setFld (f := F.WDN_TAI_OFS_HI_OFS) (by decide)).setFld (f := F.WDN_TAI_OFS_LO_OFS)
    (by decide)).setFld (f := F.WDN_TIME_TRIM_TRIM) (by decide), rfl, rfl, rfl, rfl⟩

theorem discipline_stat (e : Int) (tai : Option Nat) (s : State) :
    regWord (discipline e tai s) F.WDN_TIME_STAT_SRC.addr = regWord s F.WDN_TIME_STAT_SRC.addr := by
  have regs : SameRegsBut [F.WDN_TAI_OFS_HI_OFS.addr, F.WDN_TAI_OFS_LO_OFS.addr, F.WDN_TIME_TRIM_TRIM.addr] s (discipline e tai s) :=
    (((SameRegsBut.refl _ s).setFld (f := F.WDN_TAI_OFS_HI_OFS) (by decide)).setFld (f := F.WDN_TAI_OFS_LO_OFS)
      (by decide)).setFld (f := F.WDN_TIME_TRIM_TRIM) (by decide)
  exact regs _ (by decide)

/-- A step of at most m, held within the trim's range. -/
theorem clampI_step {x m y z : Int} (hz : z = clampI (-200000) 200000 (x + clampI (-m) m y)) (pos : 0 ≤ m) (low : -200000 ≤ x)
    (high : x ≤ 200000) : -200000 ≤ z ∧ z ≤ 200000 ∧ z - x ≤ m ∧ x - z ≤ m := by
  unfold clampI at hz
  omega

theorem discipline_bounds (e : Int) (tai : Option Nat) (s : State) : Claims.TrimWithinBounds s (discipline e tai s) :=
  ⟨rfl, clampI_step rfl (Int.natCast_nonneg _)⟩

/-- The time base keeps its count and its trim where it only takes another source. -/
theorem trimWithinBounds_of_same (count : t.time.count = s.time.count) (trim : t.time.trim = s.time.trim) :
    Claims.TrimWithinBounds s t := by
  refine ⟨count, fun low high => ?_⟩
  rw [trim, Int.sub_self]
  exact ⟨low, high, Int.natCast_nonneg _, Int.natCast_nonneg _⟩

/-- The time base takes the source of its references, and then the reference may discipline it. -/
def follow (own : Prop) [Decidable own] (e : Int) (tai : Option Nat) (s : State) : State :=
  if own then discipline e tai (takeSource s) else takeSource s

section
variable {own : Prop} [Decidable own] {e : Int} {tai : Option Nat}

theorem follow_shows (h : Regs.wf s.image s.regs) : Claims.ShowsItsSource (follow own e tai s) :=
  ite_keeps (P := Claims.ShowsItsSource)
    ((discipline_references ..).shows (discipline_stat ..) (takeSource_shows h)) (takeSource_shows h)

theorem takeSource_bounds (s : State) : Claims.TrimWithinBounds s (takeSource s) := by
  obtain ⟨l, k, time⟩ := takeSource_time s
  exact trimWithinBounds_of_same (by rw [time]) (by rw [time])

theorem follow_bounds (s : State) : Claims.TrimWithinBounds s (follow own e tai s) := by
  refine ite_keeps (P := Claims.TrimWithinBounds s) ?_ (takeSource_bounds s)
  obtain ⟨count, bounds⟩ := discipline_bounds e tai (takeSource s)
  obtain ⟨l, k, time⟩ := takeSource_time s
  rw [time] at count bounds
  exact ⟨count, bounds⟩

theorem follow_time (s : State) : ∃ l k tr st ofs, (follow own e tai s).time =
    { s.time with everLocked := l, holdTicks := k, trim := tr, trimStep := st, taiOfs := ofs } := by
  obtain ⟨l, k, time⟩ := takeSource_time s
  refine ite_keeps (P := fun t : State => ∃ l k tr st ofs, t.time =
    { s.time with everLocked := l, holdTicks := k, trim := tr, trimStep := st, taiOfs := ofs }) ?_ ?_
  · have trimmed : ∃ tr st ofs, (discipline e tai (takeSource s)).time =
        { (takeSource s).time with trim := tr, trimStep := st, taiOfs := ofs } := ⟨_, _, _, rfl⟩
    obtain ⟨tr, st, ofs, trimmed⟩ := trimmed
    exact ⟨l, k, tr, st, ofs, by rw [trimmed, time]⟩
  · exact ⟨l, k, s.time.trim, s.time.trimStep, s.time.taiOfs, by rw [time]⟩

end

/-! ## Pulses and Syncs -/

theorem exec_ppsEdge {n : Fin 2} {o : PpsObs} : exec (.ppsEdge n o) s = .next (live s fun s =>
    if o.widthNs < 1000 then s
    else
      match s.time.lastPps.getD n.val none with
      | none => { s with time := { s.time with lastPps := modAt n.val (fun _ => some s.time.count) s.time.lastPps } }
      | some t =>
        if 24993750 ≤ s.time.count - t ∧ s.time.count - t ≤ 25006250 then
          follow (fld (takeSource (ppsGood n.val s)) F.WDN_TIME_STAT_SRC = n.val ∧ ¬ twinRef s) o.rateErr o.taiNs (ppsGood n.val s)
        else takeSource (ppsBad n.val (bump F.WDN_TIME_STAT_PPS_REJ s))) := rfl

theorem getD_modAt_lt {α : Type} {i : Nat} {f : α → α} {l : List α} {d : α} {k : Nat} (len : l.length = k) (h : i < k) :
    (modAt i f l).getD i d = f (l.getD i d) := getD_modAt (len ▸ h)

/-- An edge that is no pulse of its second. -/
theorem ppsBad_counts (h : s.time.shaped) (lt : n < 2) : (ppsBad n s).time.miss.getD n 0 = s.time.miss.getD n 0 + 1 ∧
    (3 ≤ s.time.miss.getD n 0 + 1 → (ppsBad n s).time.good.getD n 0 = 0) := by
  obtain ⟨-, good, miss, -⟩ := h
  refine ⟨getD_modAt_lt miss lt, fun lost => ?_⟩
  show (if _ then modAt n (fun _ => 0) s.time.good else s.time.good).getD n 0 = 0
  rw [if_pos (.inl lost)]
  exact getD_modAt_lt good lt

theorem takeSource_counts (s : State) : (takeSource s).time.miss = s.time.miss ∧ (takeSource s).time.good = s.time.good ∧
    (takeSource s).time.lastPps = s.time.lastPps ∧ (takeSource s).time.gptpSync = s.time.gptpSync := by
  obtain ⟨l, k, time⟩ := takeSource_time s
  rw [time]
  exact ⟨rfl, rfl, rfl, rfl⟩

/-- What a pulse that is rejected, or missing, makes of the time base. -/
theorem takeSource_ppsBad (wf : Regs.wf s.image s.regs) (h : s.time.shaped) (lt : n < 2) :
    let t := takeSource (ppsBad n s)
    t.time.miss.getD n 0 = s.time.miss.getD n 0 + 1 ∧ (3 ≤ s.time.miss.getD n 0 + 1 → t.time.good.getD n 0 = 0) ∧
      Claims.ShowsItsSource t ∧ Claims.TrimWithinBounds s t := by
  obtain ⟨miss, good, -⟩ := takeSource_counts (ppsBad n s)
  obtain ⟨missed, lost⟩ := ppsBad_counts h lt
  dsimp only
  rw [miss, good]
  exact ⟨missed, lost, takeSource_shows (s := ppsBad n s) wf, takeSource_bounds (ppsBad n s)⟩

theorem exec_ppsMissing {n : Fin 2} : exec (.ppsMissing n) s = .next (live s fun s => takeSource (ppsBad n.val s)) := rfl

/-- An 802.1AS port with the time of its newest Sync. -/
def syncAt (port : Fin 4) (s : State) : State :=
  { s with time := { s.time with
    gptpSync := modAt port.val (fun _ => true) s.time.gptpSync, lastSync := modAt port.val (fun _ => some s.time.count) s.time.lastSync } }

theorem exec_gptpSync {port : Fin 4} {o : GptpObs} : exec (.gptpSync port o) s = .next (live s fun s =>
    if !isSlave s port then s
    else follow (fld (takeSource (syncAt port s)) F.WDN_TIME_STAT_SRC = 2 ∧
      fld (takeSource (syncAt port s)) F.WDN_TIME_STAT_PORT = port.val ∧ ¬ twinRef s) o.rateErr (some o.taiNs) (syncAt port s)) := rfl

/-- An 802.1AS port without a Sync. -/
def syncLost (port : Fin 4) (s : State) : State :=
  { s with time := { s.time with gptpSync := modAt port.val (fun _ => false) s.time.gptpSync } }

theorem exec_gptpSyncTimeout {port : Fin 4} : exec (.gptpSyncTimeout port) s = .next (live s fun s =>
    if !isSlave s port then s else takeSource (syncLost port s)) := rfl

theorem timeReferences : Claims.TimeReferences := by
  intro s up h
  obtain ⟨lastPps, good, miss, -, gptpSync, lastSync, -⟩ := h.shape.time
  refine ⟨fun n o short => idle_live exec_ppsEdge (if_pos short), fun n o long first => goes_live up exec_ppsEdge ?first,
    fun n o t0 long last low high => goes_live up exec_ppsEdge ?accepted, fun n o t0 long last off => goes_live up exec_ppsEdge ?rejected,
    fun n => goes_live up exec_ppsMissing (takeSource_ppsBad h.regs h.shape.time n.isLt),
    fun port slave => ⟨fun o => goes_live up exec_gptpSync ?sync, goes_live up exec_gptpSyncTimeout ?timeout⟩,
    fun port master => ⟨fun o => idle_live exec_gptpSync ?_, idle_live exec_gptpSyncTimeout ?_⟩⟩
  case first => rw [if_neg (Nat.not_lt.mpr long), first]
  case accepted =>
    rw [if_neg (Nat.not_lt.mpr long), last]
    dsimp only
    rw [if_pos ⟨low, high⟩]
    obtain ⟨l, k, tr, st, ofs, time⟩ := follow_time
      (own := fld (takeSource (ppsGood n.val s)) F.WDN_TIME_STAT_SRC = n.val ∧ ¬ twinRef s) (e := o.rateErr) (tai := o.taiNs) (ppsGood n.val s)
    refine ⟨?_, ?_, ?_, follow_shows (s := ppsGood n.val s) h.regs, follow_bounds (ppsGood n.val s)⟩
    · rw [time]
      exact getD_modAt_lt lastPps n.isLt
    · rw [time]
      exact getD_modAt_lt miss n.isLt
    · rw [time]
      exact getD_modAt_lt good n.isLt
  case rejected =>
    rw [if_neg (Nat.not_lt.mpr long), last]
    dsimp only
    rw [if_neg fun ⟨low, high⟩ => off.elim (Nat.not_lt.mpr low) (Nat.not_lt.mpr high)]
    have wf : Regs.wf (bump F.WDN_TIME_STAT_PPS_REJ s).image (bump F.WDN_TIME_STAT_PPS_REJ s).regs := setFld_wf h.regs
    obtain ⟨missed, lost, shows, bounds⟩ := takeSource_ppsBad (s := bump F.WDN_TIME_STAT_PPS_REJ s) wf h.shape.time n.isLt
    refine ⟨missed, ?_, lost, shows, bounds⟩
    rw [Counted, takeSource_rejected (s := ppsBad n.val (bump F.WDN_TIME_STAT_PPS_REJ s)) wf]
    exact counted_bump h.regs (by decide)
  case sync =>
    rw [if_neg (by simp [slave])]
    obtain ⟨l, k, tr, st, ofs, time⟩ := follow_time
      (own := fld (takeSource (syncAt port s)) F.WDN_TIME_STAT_SRC = 2 ∧
        fld (takeSource (syncAt port s)) F.WDN_TIME_STAT_PORT = port.val ∧ ¬ twinRef s) (e := o.rateErr) (tai := some o.taiNs) (syncAt port s)
    refine ⟨?_, ?_, follow_shows (s := syncAt port s) h.regs, follow_bounds (syncAt port s)⟩
    · rw [time]
      exact getD_modAt_lt gptpSync port.isLt
    · rw [time]
      exact getD_modAt_lt lastSync port.isLt
  case timeout =>
    rw [if_neg (by simp [slave])]
    refine ⟨?_, takeSource_shows (s := syncLost port s) h.regs, takeSource_bounds (syncLost port s)⟩
    rw [(takeSource_counts (syncLost port s)).2.2.2]
    exact getD_modAt_lt gptpSync port.isLt
  · exact if_pos (by simp [master])
  · exact if_pos (by simp [master])

/-! ## What the Ethernet ports send -/

theorem exec_gptpSyncTimer {port : Fin 4} : exec (.gptpSyncTimer port) s = .next (live s fun s =>
    if isSlave s port then s
    else send (.gptp port.val ((Int.ofNat s.time.count + if s.time.everLocked then s.time.taiOfs else 0) * 40)
      (!s.time.everLocked)) s) := rfl

theorem exec_peerDelayTimer {port : Fin 4} {d : Nat} : exec (.peerDelayTimer port d) s = .next (live s fun s =>
    send (.peerDelayReq port.val) { s with time := { s.time with peerDelay := modAt port.val (fun _ => d) s.time.peerDelay } }) := rfl

theorem exec_arpRequest {port : Fin 4} {v6 : Bool} {target : BitVec 128} : exec (.arpRequest port v6 target) s = .next (live s fun s =>
    if portAddr s port v6 = some target then send (.addressAnswer port.val v6) s else s) := rfl

theorem ethernetTransmissions : Claims.EthernetTransmissions := by
  intro port s up
  refine ⟨fun master => goes_live up exec_gptpSyncTimer ?_, fun slave => idle_live exec_gptpSyncTimer (if_pos slave),
    fun h d => goes_live up exec_peerDelayTimer ⟨rfl, ?_, rfl⟩, fun v6 target own => goes_live up exec_arpRequest ?_,
    fun v6 target other => idle_live exec_arpRequest (if_neg other)⟩
  · rw [if_neg (by simp [master])]
    rfl
  · exact getD_modAt_lt h.shape.time.2.2.2.2.2.2 port.isLt
  · rw [if_pos own]
    rfl

/-- Settles O18. -/
theorem timeReferencesAndEthernet : Obligations.TimeReferencesAndEthernet := by
  unfold Obligations.TimeReferencesAndEthernet
  exact ⟨timeReferences, ethernetTransmissions⟩

end

end Sys2Proof.Machine

end

section

set_option Elab.async false

/-! # Links of streams, mirrored samples and blanking tests (R94 to R102) -/

namespace Sys2Proof.Machine

section
variable {s t : State} {n : Nat}

/-! ## Links -/

/-- What is lost with the link of stream n. -/
def partialCount (s : State) (n : Nat) : Nat := (if (streamSt s n).filling.isSome then 1 else 0) + (sessionsOf s n).length

/-- The stream's reception is discarded. -/
def discardPartial (n : Nat) (s : State) : State :=
  clearFilling n { s with bus := { s.bus with tp := s.bus.tp.filter fun t => !(sessionsOf s n).contains t } }

theorem dropPartial_of_some (h : partialCount s n ≠ 0) :
    dropPartial n s = bumpBy (F.ING_DROP_CNT_PARTIAL n) (partialCount s n) (discardPartial n s) := if_neg h

theorem dropPartial_of_zero (h : partialCount s n = 0) : dropPartial n s = s := if_pos h

/-- What is in reception is discarded and counted. -/
theorem dropPartial_drops (h : Inv s) (lt : n < 36) : let t := dropPartial n s
    streamSt t n = { streamSt s n with filling := none } ∧ (∀ x ∈ t.bus.tp, x ∉ sessionsOf s n) ∧
      fld t (F.ING_DROP_CNT_PARTIAL n) =
        min (fld s (F.ING_DROP_CNT_PARTIAL n) + partialCount s n) (2 ^ fldWidth (F.ING_DROP_CNT_PARTIAL n) - 1) := by
  have small : fld s (F.ING_DROP_CNT_PARTIAL n) < 2 ^ fldWidth (F.ING_DROP_CNT_PARTIAL n) := bitsOf_lt _ _ _
  dsimp only
  by_cases none : partialCount s n = 0
  · rw [dropPartial_of_zero none, none]
    have parts := Nat.add_eq_zero_iff.mp none
    have noSession : sessionsOf s n = [] := List.eq_nil_of_length_eq_zero parts.2
    have noFilling : (streamSt s n).filling = Option.none := by
      cases held : (streamSt s n).filling with
      | none => rfl
      | some f => simp [held] at parts
    refine ⟨by rw [← noFilling], fun x _ => by simp [noSession], ?_⟩
    omega
  · rw [dropPartial_of_some none]
    refine ⟨streamSt_clearFilling (s := { s with bus := _ }) ⟨h.regs, h.mem, h.queue, h.indigo, ?_⟩ lt, fun x hx => ?_, ?_⟩
    · obtain ⟨ing, time, lanes, sel, cnd, tiles⟩ := h.shape
      exact ⟨ing, time, lanes, sel, cnd, tiles⟩
    · have kept : x ∈ s.bus.tp.filter fun t => !(sessionsOf s n).contains t := hx
      simpa using (List.mem_filter.mp kept).2
    · show fld (setFld _ _ _) _ = _
      rw [fld_setFld_same (s := discardPartial n s) h.regs (of_decide_eq_true rfl)]
      exact Nat.mod_eq_of_lt (Nat.lt_of_le_of_lt (Nat.min_le_right ..) (Nat.sub_lt (Nat.two_pow_pos _) Nat.one_pos))

theorem exec_linkLost {n : Fin 36} : exec (.linkLost n) s = .next (live s fun s =>
    if receives s n.val && silent s n.val then linkLost n.val s else s) := rfl

theorem exec_linkReturned {n : Fin 36} : exec (.linkReturned n) s = .next (live s fun s =>
    if (streamSt s n.val).lostTold then
      report { unit := streamUnit n, cls := 0x0A, ev := 1, sev := .note }
        (modStream n (fun t => { t with lostTold := false }) (setFlag (F.ING_STREAM_STAT_LINK n) true (hear n s)))
    else setFlag (F.ING_STREAM_STAT_LINK n) true (hear n s)) := rfl

theorem apart_of_log {f : Fld} (h : 0x201000 ≤ f.addr) : f.addr ≠ F.WDN_FLOG_STAT_SEQ.addr := fun e => by
  rw [e] at h
  exact absurd h (by decide)

/-- The state in which the link of stream n shows as down. -/
def showDown (n : Nat) (s : State) : State := setFlag (F.ING_STREAM_STAT_LINK n) false (dropPartial n s)

theorem linkLost_eq (n : Nat) (s : State) : linkLost n s = if (streamSt s n).lostTold then showDown n s
    else report { unit := streamUnit n, cls := 0x0A, ev := 0, sev := .warning }
      (modStream n (fun t => { t with lostTold := true }) (showDown n s)) := rfl

theorem showDown_shows (h : Inv s) (lt : n < 36) : let t := showDown n s
    streamSt t n = { streamSt s n with filling := none } ∧ (∀ x ∈ t.bus.tp, x ∉ sessionsOf s n) ∧
      fld t (F.ING_DROP_CNT_PARTIAL n) =
        min (fld s (F.ING_DROP_CNT_PARTIAL n) + partialCount s n) (2 ^ fldWidth (F.ING_DROP_CNT_PARTIAL n) - 1) ∧
      fld t (F.ING_STREAM_STAT_LINK n) = 0 ∧ t.log = s.log ∧ n < t.ing.length := by
  obtain ⟨st, tp, counted⟩ := dropPartial_drops h lt
  have inv : Inv (dropPartial n s) := dropPartial_keeps (keeps_inv (by decide)) h
  refine ⟨st, tp, ?_, fld_setFld_same inv.regs (of_decide_eq_true rfl), ?_, inv.stream lt⟩
  · rw [← counted]
    exact fld_setFld_addr (by simp only [F.ING_DROP_CNT_PARTIAL, F.ING_STREAM_STAT_LINK]; omega)
  · show (dropPartial n s).log = s.log
    exact ite_keeps (P := fun t : State => t.log = s.log) rfl rfl

theorem linksAreWatched : Claims.LinksAreWatched := by
  intro n s up h
  have lt := n.isLt
  refine ⟨fun on quiet => goes_live up exec_linkLost ?_, fun off => idle_live exec_linkLost ?_, goes_live up exec_linkReturned ?_⟩
  · rw [if_pos (by simp [on, quiet]), linkLost_eq]
    obtain ⟨st, tp, counted, link, log, len⟩ := showDown_shows h lt
    rw [partialCount, ← Nat.add_assoc] at counted
    by_cases told : (streamSt s n).lostTold = true
    · rw [if_pos told]
      refine ⟨congrArg StreamSt.filling st, tp, counted, link, (congrArg StreamSt.lostTold st).trans told,
        (congrArg StreamSt.newest st :), fun k => absurd told (by simp [k]), fun _ => log⟩
    · rw [if_neg told]
      have st' := streamSt_modStream (f := fun t => { t with lostTold := true }) len
      rw [st] at st'
      have shown : streamSt (report { unit := streamUnit n, cls := 0x0A, ev := 0, sev := .warning }
          (modStream n (fun t => { t with lostTold := true }) (showDown n s))) n =
          { streamSt s n with filling := none, lostTold := true } :=
        (streamSt_of_ing (report_keeps (shows_ing (by decide)) rfl)).trans st'
      refine ⟨congrArg StreamSt.filling shown, ?_, ?_, ?_, congrArg StreamSt.lostTold shown, (congrArg StreamSt.newest shown :),
        fun _ room => report_recorded (by rw [← log] at room; exact room), fun k => absurd k told⟩
      · rw [report_keeps (shows_bus (by decide)) rfl]
        exact tp
      · rw [fld_report (apart_of_log (by simp only [F.ING_DROP_CNT_PARTIAL]; omega))]
        exact counted
      · rw [fld_report (apart_of_log (by simp only [F.ING_STREAM_STAT_LINK]; omega))]
        exact link
  · exact if_neg (by
      rintro on
      obtain ⟨on, quiet⟩ := Bool.and_eq_true_iff.mp on
      rw [on, quiet] at off
      simp at off)
  · have inv : Inv (hear n s) := hear_keeps (keeps_inv (by decide)) h
    have heard : streamSt (setFlag (F.ING_STREAM_STAT_LINK n) true (hear n s)) n = { streamSt s n with heard := some s.time.count } :=
      streamSt_hear (h.stream lt)
    have link : fld (setFlag (F.ING_STREAM_STAT_LINK n) true (hear n s)) (F.ING_STREAM_STAT_LINK n) = 1 :=
      fld_setFld_same inv.regs (of_decide_eq_true rfl)
    by_cases told : (streamSt s n).lostTold = true
    · rw [if_pos told]
      have st := streamSt_modStream (s := setFlag (F.ING_STREAM_STAT_LINK n) true (hear n s))
        (f := fun t => { t with lostTold := false }) (inv.stream lt)
      rw [heard] at st
      have shown := (streamSt_of_ing (report_keeps (e_1 := { unit := streamUnit n, cls := 0x0A, ev := 1, sev := .note })
        (shows_ing (by decide)) rfl)).trans st
      refine ⟨?_, congrArg StreamSt.lostTold shown, congrArg StreamSt.heard shown, fun _ room => report_recorded room,
        fun k => absurd told (by simp [k])⟩
      rw [fld_report (apart_of_log (by simp only [F.ING_STREAM_STAT_LINK]; omega))]
      exact link
    · rw [if_neg told]
      exact ⟨link, (congrArg StreamSt.lostTold heard).trans (Bool.eq_false_iff.mpr told), congrArg StreamSt.heard heard,
        fun k => absurd k told, fun _ => rfl⟩

/-! ## Mirrored samples -/

theorem exec_mirrorSample {n : Fin 36} {stamp : Tick} {bytes : List Byte} : exec (.mirrorSample n stamp bytes) s = .next (live s fun s =>
    if streamOn s n ∧ fld s (F.ING_STREAM_CFG_WIRED n) = 2 ∧ fld s F.WOD_PAIR_STAT_LINK = 1 ∧ ¬ s.replay.active then
      deliver n ⟨fromTwin s stamp, s.time.count, bytes⟩ s
    else s) := rfl

theorem ReadyFor.refl (h : Inv s) : ReadyFor n s s := ⟨rfl, .refl _ s, rfl, rfl, h⟩

theorem mirroredSamples : Claims.MirroredSamples := by
  intro n stamp bytes s up h here
  refine ⟨fun on takes => goes_live up exec_mirrorSample ?_, fun off => idle_live exec_mirrorSample (if_neg ?_)⟩
  · rw [if_pos (by simpa [here] using on), (ReadyFor.refl h).takes takes]
    exact ⟨takeIn_admits _ h n.isLt, takeIn_keeps (shows_sent_eq (by decide)) rfl⟩
  · simpa [here] using off

/-! ## Blanking tests -/

theorem exec_testPeriod {n : Fin 36} : exec (.testPeriod n) s = .next (live s fun s =>
    if streamOn s n ∧ (streamSt s n).periodFrom ≤ s.time.count ∧
        1 ≤ (s.time.count - (streamSt s n).periodFrom) / max 1 (testInterval s) then
      modStream n (fun t => { t with
        periodUsed := false
        periodFrom := t.periodFrom + (s.time.count - (streamSt s n).periodFrom) / max 1 (testInterval s) * testInterval s }) s
    else s) := rfl

theorem exec_testItemInject {n : Fin 36} : exec (.testItemInject n) s = .next (live s fun s =>
    if streamOn s n && !(streamSt s n).periodUsed && usableGap s n then
      modStream n (fun t => { t with
        periodUsed := true, injecting := some s.time.count, item := Config.testItem n (frameN s) }) s
    else s) := rfl

theorem exec_testStarved {n : Fin 36} : exec (.testStarved n) s = .next (live s fun s =>
    if streamOn s n && !(streamSt s n).starvedTold && decide ((streamSt s n).itemFrom + 2 * testInterval s ≤ s.time.count) then
      report { unit := streamUnit n, cls := 0x07, ev := 11, sev := .warning }
        (setFld (F.ING_STREAM_STAT_TEST n) 3 (modStream n (fun t => { t with starvedTold := true }) s))
    else s) := rfl

/-- The state in which an item of stream n has come back. -/
def endItem (n : Nat) (bytes : List Byte) (s : State) : State :=
  modStream n (fun t => { t with injecting := none, item := [], testBuf := bytes, itemFrom := s.time.count, starvedTold := false }) s

theorem exec_testItemDone {n : Fin 36} {bytes : List Byte} : exec (.testItemDone n bytes) s = .next (live s fun s =>
    if (streamSt s n).injecting.isNone then s
    else if crc32 (streamSt s n).item = crc32 bytes ∧ decodedItem s n (streamSt s n).item = decodedItem s n bytes then
      testPassed n (endItem n bytes s)
    else testFailed n (crc32 (streamSt s n).item) (crc32 bytes) (endItem n bytes s)) := rfl

theorem setMaskBit_ing {f : Fld} {i : Nat} {b : Bool} : (setMaskBit f i b s).ing = s.ing := rfl

/-- The state in which a pass of stream n shows. -/
def showPass (n : Nat) (s : State) : State :=
  setFld (F.ING_STREAM_STAT_TEST n) 0 (modStream n (fun t => { t with passRun := t.passRun + 1 }) s)

theorem testPassed_eq (n : Nat) (s : State) : testPassed n s =
    if flag s (F.ING_STREAM_STAT_FAULTED n) ∧ (streamSt (showPass n s) n).passRun ≥ 2 then
      report { unit := streamUnit n, cls := 0x07, ev := 10, sev := .note } (setFlag (F.ING_STREAM_STAT_FAULTED n) false (showPass n s))
    else showPass n s := rfl

theorem showPass_shows (h : Inv s) (lt : n < 36) : let t := showPass n s
    streamSt t n = { streamSt s n with passRun := (streamSt s n).passRun + 1 } ∧ fld t (F.ING_STREAM_STAT_TEST n) = 0 ∧
      fld t (F.ING_STREAM_STAT_FAULTED n) = fld s (F.ING_STREAM_STAT_FAULTED n) ∧ t.frame = s.frame := by
  have wf : Regs.wf s.image s.regs := h.regs
  refine ⟨streamSt_modStream (h.stream lt), ?_, ?_, rfl⟩
  · rw [showPass, fld_setFld_same (s := modStream n _ s) wf (of_decide_eq_true rfl)]
    exact Nat.zero_mod _
  · exact fld_setFld_other (s := modStream n _ s) wf (of_decide_eq_true rfl) (of_decide_eq_true rfl) rfl (.inr (of_decide_eq_true rfl))

/-- What a pass makes of stream n. -/
theorem testPassed_passes (h : Inv s) (lt : n < 36) : let t := testPassed n s
    streamSt t n = { streamSt s n with passRun := (streamSt s n).passRun + 1 } ∧ fld t (F.ING_STREAM_STAT_TEST n) = 0 ∧
      t.frame.flags = s.frame.flags ∧ ((streamSt s n).passRun ≥ 1 → fld t (F.ING_STREAM_STAT_FAULTED n) = 0) := by
  obtain ⟨st, test, faulted, frame⟩ := showPass_shows h lt
  have wf : Regs.wf (showPass n s).image (showPass n s).regs := setFld_wf (s := modStream n _ s) h.regs
  dsimp only
  rw [testPassed_eq]
  split
  next _ =>
    refine ⟨(streamSt_of_ing (report_ing.trans (setFld_ing ..))).trans st, ?_, ?_, fun _ => ?_⟩
    · rw [fld_report (apart_of_log (by simp only [F.ING_STREAM_STAT_TEST]; omega)), setFlag,
        fld_setFld_other (f := F.ING_STREAM_STAT_FAULTED n) (g := F.ING_STREAM_STAT_TEST n) wf (of_decide_eq_true rfl)
          (of_decide_eq_true rfl) rfl (.inl (of_decide_eq_true rfl))]
      exact test
    · rw [report_frame, setFlag, setFld_frame, frame]
    · rw [fld_report (apart_of_log (by simp only [F.ING_STREAM_STAT_FAULTED]; omega))]
      exact fld_setFld_same wf (of_decide_eq_true rfl)
  next stays =>
    refine ⟨st, test, by rw [frame], fun ran => ?_⟩
    have one : fld s (F.ING_STREAM_STAT_FAULTED n) < 2 := bitsOf_lt _ _ _
    have clear : ¬fld s (F.ING_STREAM_STAT_FAULTED n) = 1 := fun e =>
      stays ⟨decide_eq_true e, by rw [st]; exact Nat.succ_le_succ ran⟩
    exact faulted.trans (Nat.lt_one_iff.mp (Nat.lt_of_le_of_ne (Nat.le_of_lt_succ one) clear))

theorem maskBit_setMaskBit {f : Fld} {i : Nat} (wf : Regs.wf s.image s.regs) (ok : f.ok) (h : i < f.hi - f.lo + 1) :
    maskBit (setMaskBit f i true s) f i = true := by
  unfold maskBit setMaskBit
  rw [fld_setFld_same wf ok]
  simp [Nat.testBit_mod_two_pow, h]

theorem fld_setMaskBit_addr {f g : Fld} {i : Nat} {b : Bool} (h : g.addr ≠ f.addr) : fld (setMaskBit f i b s) g = fld s g :=
  fld_setFld_addr h

/-- The state in which a failure of stream n shows. -/
def showFailure (n : Nat) (s : State) : State :=
  setFlag (F.ING_STREAM_STAT_FAULTED n) true (setFld (F.ING_STREAM_STAT_TEST n) 2
    (modStream n (fun t => { t with passRun := 0, newest := t.snap, slice := [], bufs := (t.bufs.2, t.bufs.2) }) s))

theorem testFailed_eq (n k m : Nat) (s : State) : ∃ e : Event, e.unit = streamUnit n ∧ e.cls = 0x07 ∧ e.ev = 9 ∧ e.sev = .doubt ∧
    testFailed n k m s = if n < 32 then setMaskBit F.ING_TEST_FAIL_LO_FAIL n true (showFailure n (report e (markDoubt 6 s)))
      else setMaskBit F.ING_TEST_FAIL_HI_FAIL (n - 32) true (showFailure n (report e (markDoubt 6 s))) :=
  ⟨_, rfl, rfl, rfl, rfl, rfl⟩

theorem showFailure_shows (h : Inv s) (lt : n < 36) : let t := showFailure n s
    streamSt t n = { streamSt s n with
      passRun := 0, newest := (streamSt s n).snap, slice := [], bufs := ((streamSt s n).bufs.2, (streamSt s n).bufs.2) } ∧
      fld t (F.ING_STREAM_STAT_TEST n) = 2 ∧ fld t (F.ING_STREAM_STAT_FAULTED n) = 1 := by
  have wf : Regs.wf s.image s.regs := h.regs
  refine ⟨streamSt_modStream (h.stream lt), ?_, fld_setFld_same (setFld_wf (s := modStream n _ s) wf) (of_decide_eq_true rfl)⟩
  rw [showFailure, setFlag, fld_setFld_other (f := F.ING_STREAM_STAT_FAULTED n) (g := F.ING_STREAM_STAT_TEST n)
    (setFld_wf (s := modStream n _ s) wf) (of_decide_eq_true rfl) (of_decide_eq_true rfl) rfl (.inl (of_decide_eq_true rfl)),
    fld_setFld_same (s := modStream n _ s) wf (of_decide_eq_true rfl)]
  rfl

/-- What a failure makes of stream n. -/
theorem testFailed_fails (k m : Nat) (h : Inv s) (lt : n < 36) : let t := testFailed n k m s
    streamSt t n = { streamSt s n with
      passRun := 0, newest := (streamSt s n).snap, slice := [], bufs := ((streamSt s n).bufs.2, (streamSt s n).bufs.2) } ∧
      t.frame.flags.getLsbD 6 = true ∧ fld t (F.ING_STREAM_STAT_TEST n) = 2 ∧ fld t (F.ING_STREAM_STAT_FAULTED n) = 1 ∧
      (if n < 32 then maskBit t F.ING_TEST_FAIL_LO_FAIL n else maskBit t F.ING_TEST_FAIL_HI_FAIL (n - 32)) = true ∧
      (s.log.queue.length < 256 → Recorded t (streamUnit n) 0x07 9 2) := by
  obtain ⟨e, unit, cls, ev, sev, eq⟩ := testFailed_eq n k m s
  have inv : Inv (report e (markDoubt 6 s)) := report_keeps (keeps_inv (by decide)) (markDoubt_keeps (keeps_inv (by decide)) h)
  obtain ⟨st, test, faulted⟩ := showFailure_shows inv lt
  have same : streamSt (report e (markDoubt 6 s)) n = streamSt s n :=
    streamSt_of_ing (report_keeps (shows_ing (by decide)) (markDoubt_keeps (shows_ing (by decide)) rfl))
  have marked : (report e (markDoubt 6 s)).frame.flags.getLsbD 6 = true := by
    rw [report_frame]
    exact markDoubt_marks (by decide) s
  have recorded (room : s.log.queue.length < 256) : Recorded (report e (markDoubt 6 s)) (streamUnit n) 0x07 9 2 := by
    have waits := report_recorded (e := e) (s := markDoubt 6 s) (by rw [markDoubt_keeps (shows_log (by decide)) rfl]; exact room)
    rw [unit, cls, ev, sev] at waits
    exact waits
  have wf : Regs.wf (showFailure n (report e (markDoubt 6 s))).image (showFailure n (report e (markDoubt 6 s))).regs :=
    setFld_wf (setFld_wf (s := modStream n _ _) inv.regs)
  rw [same] at st
  dsimp only
  rw [eq]
  by_cases low : n < 32
  · simp only [if_pos low]
    refine ⟨(streamSt_of_ing setMaskBit_ing).trans st, marked, ?_, ?_, maskBit_setMaskBit wf (by decide) low, recorded⟩
    · exact (fld_setMaskBit_addr (by simp only [F.ING_STREAM_STAT_TEST, F.ING_TEST_FAIL_LO_FAIL]; omega)).trans test
    · exact (fld_setMaskBit_addr (by simp only [F.ING_STREAM_STAT_FAULTED, F.ING_TEST_FAIL_LO_FAIL]; omega)).trans faulted
  · simp only [if_neg low]
    refine ⟨(streamSt_of_ing setMaskBit_ing).trans st, marked, ?_, ?_, maskBit_setMaskBit wf (by decide) (show n - 32 < 4 by omega), recorded⟩
    · exact (fld_setMaskBit_addr (by simp only [F.ING_STREAM_STAT_TEST, F.ING_TEST_FAIL_HI_FAIL]; omega)).trans test
    · exact (fld_setMaskBit_addr (by simp only [F.ING_STREAM_STAT_FAULTED, F.ING_TEST_FAIL_HI_FAIL]; omega)).trans faulted

theorem blankingTests : Claims.BlankingTests := by
  intro n s up h x k
  have lt := n.isLt
  have len : n.val < s.ing.length := h.stream lt
  have back (bytes : List Byte) : streamSt (endItem n bytes s) n =
      { x with injecting := none, item := [], testBuf := bytes, itemFrom := s.time.count, starvedTold := false } :=
    streamSt_modStream len
  have inv (bytes : List Byte) : Inv (endItem n bytes s) := modStream_keeps (keeps_inv (by decide)) h
  refine ⟨fun on due k => goes_live up exec_testPeriod ?_, fun off => idle_live exec_testPeriod ?_,
    fun on unused gap => goes_live up exec_testItemInject ?_, fun off => idle_live exec_testItemInject ?_,
    fun bytes none => idle_live exec_testItemDone (if_pos (by simp only [x] at none; simp [none])),
    fun bytes under crc same => goes_live up exec_testItemDone ?_, fun bytes under differs => goes_live up exec_testItemDone ?_,
    fun on untold due => goes_live up exec_testStarved ?_, fun off => idle_live exec_testStarved ?_⟩
  · rw [if_pos ⟨on, due, k⟩]
    exact ⟨streamSt_modStream len, rfl⟩
  · exact if_neg fun ⟨on, due, one⟩ => by
      rcases off with off | off | off
      · simp [off] at on
      · exact absurd due (Nat.not_le.mpr off)
      · have zero : (s.time.count - (streamSt s n).periodFrom) / max 1 (testInterval s) = 0 := off
        rw [zero] at one
        exact absurd one (by decide)
  · rw [if_pos (by simp only [x] at unused; simp [on, unused, gap])]
    exact ⟨streamSt_modStream len, rfl⟩
  · exact if_neg (by
      rcases off with off | off | off
      · simp [off]
      · simp only [x] at off
        simp [off]
      · simp [off])
  · rw [if_neg (by simpa [Option.isSome_iff_ne_none] using under), if_pos ⟨crc, same⟩]
    obtain ⟨st, test, flags, cleared⟩ := testPassed_passes (inv bytes) lt
    rw [back] at st cleared
    exact ⟨congrArg StreamSt.injecting st, congrArg StreamSt.testBuf st, congrArg StreamSt.passRun st, test, flags, cleared⟩
  · rw [if_neg (by simpa [Option.isSome_iff_ne_none] using under), if_neg fun both => differs.elim (absurd both.1) (absurd both.2)]
    obtain ⟨st, marked, test, faulted, shown, recorded⟩ := testFailed_fails _ _ (inv bytes) lt
    rw [back] at st
    exact ⟨congrArg StreamSt.injecting st, congrArg StreamSt.testBuf st, congrArg StreamSt.passRun st, congrArg StreamSt.newest st,
      congrArg StreamSt.slice st, marked, test, faulted, shown, recorded⟩
  · rw [if_pos (by simp only [x] at untold due; simp [on, untold, due])]
    have st : streamSt (setFld (F.ING_STREAM_STAT_TEST n) 3 (modStream n (fun t => { t with starvedTold := true }) s)) n =
        { x with starvedTold := true } := streamSt_modStream len
    refine ⟨?_, congrArg StreamSt.starvedTold ((streamSt_of_ing (report_keeps (shows_ing (by decide)) rfl)).trans st),
      fun room => report_recorded room⟩
    rw [fld_report (apart_of_log (by simp only [F.ING_STREAM_STAT_TEST]; omega)),
      fld_setFld_same (s := modStream n _ s) h.regs (of_decide_eq_true rfl)]
    rfl
  · exact if_neg (by
      rcases off with off | off | off
      · simp [off]
      · simp only [x] at off
        simp [off]
      · have early : ¬(streamSt s n).itemFrom + 2 * testInterval s ≤ s.time.count := Nat.not_le.mpr off
        simp [early])

/-- Settles O19. -/
theorem linksMirrorsAndBlankingTests : Obligations.LinksMirrorsAndBlankingTests := by
  unfold Obligations.LinksMirrorsAndBlankingTests
  exact ⟨linksAreWatched, mirroredSamples, blankingTests⟩

end

end Sys2Proof.Machine

end

section

set_option Elab.async false

/-! # World fuses the slices in the order of their queue (R41, R113, R137, R145, R146, R628) -/

namespace Sys2Proof.Machine

section
variable {s t : State} {n : Nat}

/-- A point lies within the vehicle's own spheres. -/
def isOwn (s : State) : FusedPoint → Bool := insideSelf s (terrainOf s.wld.nxt s.wld.prior s.wld.originF (fuseCfg s))

/-- The data of the next epoch with a slice in it. -/
def fusedData (s : State) (sl : PendSlice) : WorldData :=
  fuseSlice s.wld.prior s.wld.originF (fuseCfg s) (isOwn s) s.wld.nxt (fusedPoints s sl)

/-- How many points of a slice lie in a gap of the pose track. -/
def poseGaps (s : State) (sl : PendSlice) : Nat := (slicePoints s sl).length - (fusedPoints s sl).length

/-- The points in a gap are counted. -/
def countGaps (s : State) (sl : PendSlice) : State :=
  if poseGaps s sl = 0 then s
  else setFlag F.WLD_ERR_STAT_POSE_GAP true { s with wld := { s.wld with gapPoints := s.wld.gapPoints + poseGaps s sl } }

/-- A slice goes into the data of the next epoch, and its points to Madder. -/
def placeSlice (sl : PendSlice) (rest : List PendSlice) (s : State) : State :=
  { countGaps s sl with
    wld := { (countGaps s sl).wld with nxt := fusedData s sl, pendingSlices := rest },
    mad := { (countGaps s sl).mad with fused := (countGaps s sl).mad.fused ++ (fusedPoints s sl).filter (fun p => !isOwn s p) } }

/-- A stream shows the slice of it that is fused. -/
def showSlice (sl : PendSlice) (t : StreamSt) : StreamSt :=
  { t with warmFrom := t.warmFrom <|> sl.pkts.getLast?.map (·.stamp), fusedStamp := sl.pkts.head?.map (·.stamp),
           fusedNow := t.fusedNow ++ sl.pkts.reverse }

theorem exec_sliceFused {n : Fin 36} : exec (.sliceFused n) s = .next (fabric s fun s =>
    match s.wld.pendingSlices with
    | [] => s
    | sl :: rest =>
      if sl.stream ≠ n.val then s
      else if fusedPoints s sl ≠ [] ∧ !slotRoom s (fusedData s sl) then s
      else modStream n (showSlice sl) (placeSlice sl rest s)) := rfl

theorem countGaps_counts (s : State) (sl : PendSlice) : countGaps s sl = { s with
    regs := (countGaps s sl).regs, wld := { s.wld with gapPoints := s.wld.gapPoints + poseGaps s sl } } := by
  unfold countGaps
  split
  next none => rw [none]; rfl
  next _ => rfl

theorem countGaps_flag (h : Regs.wf s.image s.regs) {sl : PendSlice} (some : 0 < poseGaps s sl) :
    flag (countGaps s sl) F.WLD_ERR_STAT_POSE_GAP = true := by
  unfold countGaps
  rw [if_neg (by omega)]
  exact flag_setFlag_same (s := { s with wld := _ }) h (by decide)

theorem placeSlice_ing (sl : PendSlice) (rest : List PendSlice) : (placeSlice sl rest s).ing = s.ing := by
  unfold placeSlice
  rw [countGaps_counts]

theorem placeSlice_wld (sl : PendSlice) (rest : List PendSlice) : (placeSlice sl rest s).wld =
    { s.wld with gapPoints := s.wld.gapPoints + poseGaps s sl, nxt := fusedData s sl, pendingSlices := rest } := by
  unfold placeSlice
  rw [countGaps_counts]

theorem placeSlice_mad (sl : PendSlice) (rest : List PendSlice) : (placeSlice sl rest s).mad =
    { s.mad with fused := s.mad.fused ++ (fusedPoints s sl).filter (fun p => !isOwn s p) } := by
  unfold placeSlice
  rw [countGaps_counts]

/-- A SOLID cell whose hold ends at its tick. -/
def holdEnds (cell : Nat) (now : Tick) (x : Nat × Option Tick) : Bool :=
  decide (cellCode (dec3 x.1).1 (dec3 x.1).2.1 (dec3 x.1).2.2 = cell) && x.2.any fun t => decide (t ≤ now)

theorem exec_solidHoldExpiry {cell : Nat} : exec (.solidHoldExpiry cell) s = .next (fabric s fun s =>
    { s with wld := { s.wld with nxt := { s.wld.nxt with
      solid := s.wld.nxt.solid.filter fun x => !holdEnds cell s.time.count x } } }) := rfl

/-- Settles O20. -/
theorem fusionBuildsTheNextEpoch : Obligations.FusionBuildsTheNextEpoch := by
  unfold Obligations.FusionBuildsTheNextEpoch
  intro s up h
  refine ⟨fun n none => idle_fabric exec_sliceFused (by rw [none]), fun n sl rest front => ⟨fun waits => idle_fabric exec_sliceFused ?waits,
    fun own room => goes_fabric up exec_sliceFused ?fused⟩, fun cell => goes_fabric up exec_solidHoldExpiry ⟨fun x => ?hold, rfl⟩⟩
  case waits =>
    rw [front]
    dsimp only
    by_cases own : sl.stream = n.val
    · rw [if_neg (by simp [own]), if_pos]
      obtain ⟨some, full⟩ := waits.resolve_left (by simp [own])
      exact ⟨some, by rw [Bool.not_eq_true']; exact full⟩
    · rw [if_pos own]
  case fused =>
    rw [front]
    dsimp only
    have enough : ¬(fusedPoints s sl ≠ [] ∧ (!slotRoom s (fusedData s sl)) = true) := fun ⟨points, full⟩ =>
      absurd (room.resolve_left points) (Bool.eq_false_iff.mp (Bool.not_eq_true' _ ▸ full))
    rw [if_neg (by simp [own]), if_neg enough]
    have wld : (modStream n (showSlice sl) (placeSlice sl rest s)).wld = _ := placeSlice_wld sl rest
    have mad : (modStream n (showSlice sl) (placeSlice sl rest s)).mad = _ := placeSlice_mad sl rest
    have st := streamSt_modStream (f := showSlice sl) (n := n) (s := placeSlice sl rest s) (by rw [placeSlice_ing]; exact h.stream n.isLt)
    rw [streamSt_of_ing (placeSlice_ing sl rest)] at st
    refine ⟨by rw [wld], by rw [wld]; rfl, by rw [wld], by rw [wld]; rfl, fun some => ?_, by rw [mad]; rfl,
      congrArg StreamSt.fusedStamp st, congrArg StreamSt.fusedNow st⟩
    exact countGaps_flag h.regs some
  case hold =>
    show x ∈ s.wld.nxt.solid.filter (fun x => !holdEnds cell s.time.count x) ↔ _
    obtain ⟨code, since⟩ := x
    cases since with
    | none => simp [holdEnds]
    | some t => simp [holdEnds, imp_iff_not_or]

end

end Sys2Proof.Machine

end

section

set_option Elab.async false

/-! # The candidate writer numbers by score (R185, R187 to R189, R630) -/

namespace Sys2Proof.Machine

section
variable {s t : State} {dom cap : Nat}

/-! ## Writing the records in order -/

/-- Some of the records l are written: within the cap and the quotas, of active layers alone, and the others counted. -/
structure WrittenOf (s : State) (cap : Nat) (l : List Considered) (w : Writing) : Prop where
  out : w.out.Sublist (l.map (·.cand))
  cap : w.out.length ≤ cap
  sorted : Tab.sorted w.used
  used : ∀ c, tabGet 0 w.used c = (w.out.filter fun y => y.client = c).length
  quota : ∀ c, tabGet 0 w.used c ≤ ctxQuota s c
  active : ∀ y ∈ w.out, maskBit s F.CND_LAYER_ACTIVE_ACTIVE y.layer.val = true ∧ ¬(y.kind = 1 ∧ y.hitch = 3)
  counted : w.out.length + w.quota + w.other = l.length

theorem writeOne_written {l : List Considered} {w : Writing} (h : WrittenOf s cap l w) (x : Considered) :
    WrittenOf s cap (l ++ [x]) (writeOne s cap w x) := by
  obtain ⟨out, le, sorted, used, quota, active, counted⟩ := h
  have skipped : w.out.Sublist ((l ++ [x]).map (·.cand)) := by
    rw [List.map_append]
    exact out.trans (List.sublist_append_left ..)
  have more : (l ++ [x]).length = l.length + 1 := List.length_append
  unfold writeOne
  extract_lets c
  split
  · exact ⟨skipped, le, sorted, used, quota, active, by simp only [more]; omega⟩
  next learned =>
    split
    · exact ⟨skipped, le, sorted, used, quota, active, by simp only [more]; omega⟩
    next within =>
      split
      · exact ⟨skipped, le, sorted, used, quota, active, by simp only [more]; omega⟩
      next room =>
        simp only [Bool.or_eq_true, Bool.not_eq_true', decide_eq_true_eq, not_or, Bool.not_eq_false, ge_iff_le, Nat.not_le] at room
        refine ⟨?_, ?_, tabPut_sorted sorted, fun k => ?_, fun k => ?_, fun y hy => ?_, ?_⟩
        · rw [List.map_append]
          exact out.append (List.Sublist.refl _)
        · rw [List.length_append]
          exact room.2
        · by_cases own : k = c
          · rw [own, tabGet_tabPut_same sorted, used, List.filter_append, List.length_append]
            simp [c]
          · rw [tabGet_tabPut_ne own, used, List.filter_append, List.length_append]
            have other : ¬x.cand.client = k := fun e => own e.symm
            simp [other]
        · by_cases own : k = c
          · rw [own, tabGet_tabPut_same sorted]
            omega
          · rw [tabGet_tabPut_ne own]
            exact quota k
        · rcases List.mem_append.mp hy with old | new
          · exact active y old
          · rw [List.mem_singleton.mp new]
            exact ⟨room.1, learned⟩
        · rw [List.length_append, more]
          simp only [List.length_singleton]
          omega

theorem foldl_writeOne (l : List Considered) :
    WrittenOf s cap l (l.foldl (writeOne s cap) { out := [], used := [], quota := 0, other := 0, skips := [], placed := [] }) := by
  induction l using List.reverseRecOn with
  | nil => exact ⟨List.Sublist.refl _, Nat.zero_le _, List.Pairwise.nil, fun _ => rfl, fun _ => Nat.zero_le _, nofun, rfl⟩
  | append_singleton l x ih =>
    rw [List.foldl_append]
    exact writeOne_written ih x

/-- The records are considered by descending score. -/
theorem considered_descends (s : State) (d : Nat) :
    ((considered s d).map (·.cand)).Pairwise fun a b => b.score ≤ a.score := by
  rw [List.pairwise_map]
  unfold considered
  extract_lets reqs sup learned all
  have sorted := List.pairwise_mergeSort (le := fun a b : Considered => decide (a.cand.score ≥ b.cand.score))
    (fun a b c h g => by simp only [decide_eq_true_eq] at *; omega)
    (fun a b => by simp only [Bool.or_eq_true, decide_eq_true_eq]; omega) all
  exact sorted.imp fun h => of_decide_eq_true h

/-! ## The writer -/

/-- What the writer of a domain leaves of the sweep. -/
def writtenSweep (d : Nat) (s : State) : DomSweep :=
  let w := writeAll s d
  { DomSweep.empty d with
    cands := w.out, written := true, skipQuota := w.quota, skipOther := w.other + goalSkips s d
    skipAt := w.skips.map fun k => (k.1, k.2 + goalSkips s d)
    counts := [countKind w.out 2, countKind w.out 1, countKind w.out 0] }

/-- The requests whose records are placed. -/
def placeRequests (d : Nat) (s : State) : State :=
  { s with cnd := { s.cnd with
    reqs := s.cnd.reqs.mapIdx fun i r => if (dueRequests s d).contains r then placeRecords (writeAll s d) i r else r } }

/-- The propose phase is done with its writer of domain 0, and every other writer has drawn its scores. -/
def endWriting (d : Nat) (s : State) : State := if d = 0 then phaseDone 0 s else { s with free := s.free + s.image.lattice.length }

theorem exec_candidateWriterStart {dom : Fin 16} : exec (.candidateWriterStart dom) s = .next (fabric s fun s =>
    if (domSweep s dom).written || s.frame.stopped.getD 0 false || !s.frame.started || (dom.val = 0 && !s.inf.produced) ||
        latticeBusy s dom then s
    else setDom (writtenSweep dom s) (storeCands dom (writeAll s dom).out (endWriting dom (placeRequests dom s)))) := rfl

theorem domSweep_setDom {x : DomSweep} : domSweep (setDom x s) x.dom = x := by
  unfold domSweep setDom
  rw [List.find?_cons_of_pos (by simp)]
  rfl

theorem endWriting_world (d : Nat) : (endWriting d s).wld = s.wld ∧ (endWriting d s).held = s.held := by
  refine ite_keeps (P := fun t : State => t.wld = s.wld ∧ t.held = s.held) ?_ ⟨rfl, rfl⟩
  exact ite_keeps (P := fun t : State => t.wld = s.wld ∧ t.held = s.held) ⟨rfl, rfl⟩ ⟨rfl, rfl⟩

/-- Settles O21. -/
theorem candidateWriterNumbersByScore : Obligations.CandidateWriterNumbersByScore := by
  unfold Obligations.CandidateWriterNumbersByScore
  intro dom s up h ready
  have free : ready ↔ ¬((domSweep s dom).written || s.frame.stopped.getD 0 false || !s.frame.started ||
      (dom.val = 0 && !s.inf.produced) || latticeBusy s dom) = true := by
    simp only [ready, Bool.or_eq_true, Bool.not_eq_true', Bool.and_eq_true, decide_eq_true_eq, not_or, not_and, Bool.not_eq_true,
      Bool.not_eq_false]
    tauto
  refine ⟨fun r => goes_fabric up exec_candidateWriterStart ?_, fun r => idle_fabric exec_candidateWriterStart 
    (if_pos (Classical.not_not.mp fun k => r (free.mpr k)))⟩
  rw [if_neg (free.mp r)]
  intro x
  have hx : x = writtenSweep dom s := domSweep_setDom
  obtain ⟨out, le, -, used, quota, active, counted⟩ : WrittenOf s (domCap s dom) (considered s dom) (writeAll s dom) := foldl_writeOne _
  rw [hx]
  refine ⟨rfl, (considered_descends s dom).sublist out, le, fun c => used c ▸ quota c, active, ?_, (endWriting_world _).1, (endWriting_world _).2⟩
  rw [← counted]
  exact (Nat.add_assoc ..).symm

end

end Sys2Proof.Machine

end

section

set_option Elab.async false

/-! # Pulls, grants and task completions (R319 to R330) -/

namespace Sys2Proof.Machine

section
variable {s t u : State} {n : Nat}

/-! ## A grant in the state -/

theorem nodeRun_of_nodes {m : Nat} (h : t.cnd.nodes = s.cnd.nodes) : nodeRun t m = nodeRun s m := by
  unfold nodeRun
  rw [h]

theorem nodeRun_setNode {r : NodeRun} (h : Tab.sorted s.cnd.nodes) : nodeRun (setNode n r s) n = r := tabGet_tabPut_same h

/-- The grant g stands beside those of s, its unit pulls no more, and its node goes to that unit again. -/
def Granted (g : Grant) (s t : State) : Prop :=
  t.cnd.grants = s.cnd.grants ++ [g] ∧ g.unit ∉ t.cnd.pulls ∧ (nodeRun t g.node).affinity = some g.unit

theorem Granted.of_cnd {g : Grant} (h : Granted g s t) (grants : u.cnd.grants = t.cnd.grants) (pulls : u.cnd.pulls = t.cnd.pulls)
    (nodes : u.cnd.nodes = t.cnd.nodes) : Granted g s u := by
  obtain ⟨given, pull, node⟩ := h
  exact ⟨grants.trans given, pulls ▸ pull, by rw [nodeRun_of_nodes nodes]; exact node⟩

/-- Where the Conductor's state stays, the grants do. -/
theorem keeps_granted {W : List Part} {g : Grant} (h : ∀ p ∈ W, p ∉ ([.cnd, .cold] : List Part)) : Keeps W (Granted g s) :=
  .of_shows (fun _ => shows_cnd h) fun x => x.grants = s.cnd.grants ++ [g] ∧ g.unit ∉ x.pulls ∧
    (tabGet NodeRun.idle x.nodes g.node).affinity = some g.unit

theorem recordGrant_grants {g : Grant} (h : Tab.sorted s.cnd.nodes) :
    Granted { g with taint := (nodeRun s g.node).taint } s (recordGrant g s) := by
  unfold recordGrant
  extract_lets r s1 cnd s2 cluster s3
  have recorded : Granted { g with taint := r.taint } s s2 :=
    ⟨rfl, fun m => absurd rfl (of_decide_eq_true (List.mem_filter.mp m).2),
      congrArg NodeRun.affinity (nodeRun_setNode (r := { r with affinity := some g.unit, taint := 0 }) h)⟩
  exact countDie_keeps (keeps_granted (by decide)) (ite_keeps (countSteward_keeps (keeps_granted (by decide)) recorded) recorded)

/-- From s to t the grants and the pulls stand as they were, and what the last inputs of node n were. -/
def SameWork (n : Nat) (s t : State) : Prop :=
  t.cnd.grants = s.cnd.grants ∧ t.cnd.pulls = s.cnd.pulls ∧ (nodeRun t n).taint = (nodeRun s n).taint ∧ Tab.sorted t.cnd.nodes

theorem takeReadiness_leaves (e : ReadyEnt) (more : Bool) (h : Tab.sorted s.cnd.nodes) :
    SameWork e.node s (takeReadiness e more s) := by
  have set (k : Nat) (l : List ReadyEnt) : SameWork e.node s
      (setNode e.node { nodeRun s e.node with ready := k } { s with cnd := { s.cnd with ready := l } }) :=
    ⟨rfl, rfl, (congrArg NodeRun.taint (nodeRun_setNode (r := { nodeRun s e.node with ready := k }) h) :), tabPut_sorted h⟩
  unfold takeReadiness
  extract_lets r left rest
  exact ite_keeps (P := SameWork e.node s) ⟨rfl, rfl, rfl, h⟩ (ite_keeps (P := SameWork e.node s) (set 0 _) (set left _))

/-- A grant that is recorded after its readiness is taken. -/
theorem recordGrant_takeReadiness {g : Grant} {e : ReadyEnt} {more : Bool} (node : g.node = e.node) (h : Tab.sorted s.cnd.nodes) :
    Granted { g with taint := (nodeRun s e.node).taint } s (recordGrant g (takeReadiness e more s)) := by
  obtain ⟨grants, -, taint, sorted⟩ := takeReadiness_leaves e more h
  obtain ⟨given, pull, run⟩ := recordGrant_grants (g := g) sorted
  rw [grants, congrArg (nodeRun _) node, taint] at given
  exact ⟨given, pull, run⟩

theorem startUnit_leaves (u : Nat) (s : State) : (startUnit u s).cnd.grants = s.cnd.grants ∧ (startUnit u s).cnd.pulls = s.cnd.pulls ∧
    (startUnit u s).cnd.nodes = s.cnd.nodes := by
  have opened (o : LongOp) : (setOp o s).cnd.grants = s.cnd.grants ∧ (setOp o s).cnd.pulls = s.cnd.pulls ∧
      (setOp o s).cnd.nodes = s.cnd.nodes := by
    unfold setOp
    extract_lets put ops
    have cnd := showOp_keeps (ctx_1 := o.ctx) (s_2 := { s with cnd := { s.cnd with ops := ops } }) (shows_cnd (by decide)) rfl
    rw [cnd]
    exact ⟨rfl, rfl, rfl⟩
  unfold startUnit
  split
  · exact ite_keeps (P := fun t : State => t.cnd.grants = s.cnd.grants ∧ t.cnd.pulls = s.cnd.pulls ∧ t.cnd.nodes = s.cnd.nodes)
      ⟨rfl, rfl, rfl⟩ (opened _)
  · exact ⟨rfl, rfl, rfl⟩

theorem Granted.startUnit {g : Grant} (h : Granted g s t) (u : Nat) : Granted g s (startUnit u t) := by
  obtain ⟨grants, pulls, nodes⟩ := startUnit_leaves u t
  exact h.of_cnd grants pulls nodes

theorem grantNode_grants (u : Nat) (e : ReadyEnt) (item : Option FlowItem) (h : Inv s) :
    Granted ⟨u, e.node, s.time.count, none, item.map fun i => (i.flow, i.seq), none, (nodeRun s e.node).taint⟩ s (grantNode u e item s) := by
  unfold grantNode
  extract_lets more g
  exact showSched_keeps (keeps_granted (by decide)) (Granted.startUnit (showRunning_keeps (keeps_granted (by decide))
    (recordGrant_takeReadiness (g := g) rfl h.shape.cnd.1)) u)

theorem grantBlock_grants (u : Nat) (e : ReadyEnt) (b : Nat × Nat) (h : Inv s) :
    Granted ⟨u, e.node, s.time.count, none, none, some b, (nodeRun s e.node).taint⟩ s (grantBlock u e b s) := by
  unfold grantBlock
  extract_lets d s1 g s2 t
  have recorded : Granted { g with taint := (nodeRun s e.node).taint } s s2 :=
    recordGrant_takeReadiness (s := s1) (g := g) rfl h.shape.cnd.1
  exact showSched_keeps (keeps_granted (by decide)) (pumpTile_keeps (keeps_granted (by decide)) (countTile_keeps (keeps_granted (by decide))
    (Granted.startUnit (showRunning_keeps (keeps_granted (by decide)) (setTile_keeps (keeps_granted (by decide)) recorded)) u)))

/-! ## Pulls and grants -/

theorem exec_pull : exec (.pull n) s = .next (fabric s fun s =>
    if s.cnd.pulls.contains n ∨ s.cnd.grants.any (fun g => g.unit = n) then s
    else showSched { s with cnd := { s.cnd with pulls := s.cnd.pulls ++ [n] } }) := rfl

/-- What a unit that pulls is granted of the node e. -/
def grantOf (n : Nat) (e : ReadyEnt) (d : NodeDesc) (s : State) : State :=
  if isSweepNode d then
    match nextBlockOf s (unitDomain s n) with
    | some b => if (tileSt s n).todo.length + (tileSt s n).flight.length + b.2 > 1024 then s else grantBlock n e b s
    | none => s
  else match d.flow with
    | none => grantNode n e none s
    | some f =>
      match nextItem s n f.val with
      | some i => grantNode n e (some i) s
      | none => s

theorem exec_workGrant : exec (.workGrant n) s = .next (fabric s fun s =>
    if ¬ s.cnd.pulls.contains n then s
    else match chooseNode s n with
      | none => s
      | some e =>
        match nodeDesc s e.node with
        | none => s
        | some d => grantOf n e d s) := rfl

theorem pullsAndGrants : Claims.PullsAndGrants := by
  intro n s up h
  refine ⟨fun new free => goes_fabric up exec_pull ?pull, fun old => idle_fabric exec_pull (if_pos ?again),
    fun none => idle_fabric exec_workGrant ?none, fun e d pulls chosen desc => ?grant⟩
  case pull =>
    rw [if_neg (by simpa [new] using free)]
    have cnd := showSched_keeps (s_1 := { s with cnd := { s.cnd with pulls := s.cnd.pulls ++ [n] } }) (shows_cnd (by decide)) rfl
    rw [cnd]
    exact ⟨rfl, rfl⟩
  case again => simpa using old
  case none =>
    rcases none with away | none
    · rw [if_pos (by simpa using away)]
    · simp [none]
  case grant =>
    have goes {Q : State → Prop} (q : Q (grantOf n e d s)) : Goes (.workGrant n) s Q := by
      refine goes_fabric up exec_workGrant ?_
      rw [if_neg (by simpa using pulls)]
      simp only [chosen, desc]
      exact q
    have idle (q : grantOf n e d s = s) : exec (.workGrant n) s = .next s := by
      refine idle_fabric exec_workGrant ?_
      rw [if_neg (by simpa using pulls)]
      simp only [chosen, desc]
      exact q
    refine ⟨fun plain => ⟨fun noFlow => goes ?_, fun f flow => ⟨fun i next => goes ?_, fun none => idle ?_⟩⟩,
      fun sweep => ⟨fun none => idle ?_, fun b next => ⟨fun fits => goes ?_, fun full => idle ?_⟩⟩⟩
    · rw [grantOf, if_neg (by simp [plain]), noFlow]
      exact grantNode_grants n e none h
    · rw [grantOf, if_neg (by simp [plain]), flow]
      simp only [next]
      exact grantNode_grants n e (some i) h
    · rw [grantOf, if_neg (by simp [plain]), flow]
      simp only [none]
    · rw [grantOf, if_pos sweep, none]
    · rw [grantOf, if_pos sweep, next]
      dsimp only
      rw [if_neg (Nat.not_lt.mpr fits)]
      exact grantBlock_grants n e b h
    · rw [grantOf, if_pos sweep, next]
      exact if_pos full

/-! ## Completions -/

/-- Where only the queues change, a unit without a task stays so. -/
theorem OnlyQueues.grants (h : OnlyQueues s t) : t.cnd.grants = s.cnd.grants := by rw [h]

theorem onlyQueues_completeItem (succ : List (Fin 4096 × Fin 32)) (s : State) : OnlyQueues s (completeItem succ s) :=
  (onlyQueues_foldl (f := fun s (f : Fin 256) => enterItem f.val s) (fun _ _ => rfl) _ s).trans (onlyQueues_raiseFlags ..)

theorem dropTask_drops (n : Nat) (s : State) : ∀ x ∈ (dropTask n s).cnd.grants, x.unit ≠ n :=
  fun _ hx => of_decide_eq_true (List.mem_filter.mp hx).2

/-- A unit's task is over. -/
def endTask (n : Nat) (s : State) : State := showSched (showIdle n s)

theorem endTask_cnd (n : Nat) (s : State) : (endTask n s).cnd = s.cnd :=
  showSched_keeps (shows_cnd (by decide)) (showIdle_keeps (shows_cnd (by decide)) rfl)

/-- An item of a flow is complete. -/
def markItem (f q : Nat) (s : State) : State :=
  { s with cnd := { s.cnd with items := s.cnd.items.map fun i => if i.flow = f ∧ i.seq = q then { i with complete := true } else i } }

/-- The successors of a node, which a completion of it makes ready. -/
def successors (s : State) (g : Grant) : List (Fin 4096 × Fin 32) := ((nodeDesc s g.node).map (·.succ)).getD []

/-- What a task leaves as it completes. -/
def leaveResult (n : Nat) (g : Grant) (r : TaskResult) (s : State) : State :=
  passTaint g r (successors s g) (countDone n (applyResult n r s))

/-- The task of the grant g is done. -/
def completeTask (n : Nat) (r : TaskResult) (g : Grant) (s : State) : State :=
  match g.item with
  | some (f, q) => endTask n (releaseItems f 1024 (dropTask n (markItem f q (leaveResult n g r s))))
  | none =>
    if producerStalls s (successors s g) then
      if g.wait.isSome then s else bump F.CND_FLOW_STAT_STALL (setWait n (some s.time.count) s)
    else endTask n (completeItem (successors s g) (dropTask n (leaveResult n g r s)))

theorem exec_taskComplete {r : TaskResult} : exec (.taskComplete n r) s = .next (fabric s fun s =>
    match s.cnd.grants.find? fun g => g.unit = n with
    | none => s
    | some g => completeTask n r g s) := rfl

section
variable {r : TaskResult} {g : Grant}

theorem completeTask_stalls (item : g.item = none) (full : producerStalls s (successors s g) = true) : completeTask n r g s =
    if g.wait.isSome then s else bump F.CND_FLOW_STAT_STALL (setWait n (some s.time.count) s) := by
  unfold completeTask
  rw [item]
  exact if_pos full

theorem completeTask_ends (ends : g.item ≠ none ∨ producerStalls s (successors s g) = false) :
    ∀ x ∈ (completeTask n r g s).cnd.grants, x.unit ≠ n := by
  unfold completeTask
  cases item : g.item with
  | some i =>
    rw [endTask_cnd, (onlyQueues_releaseItems ..).grants]
    exact dropTask_drops n _
  | none =>
    dsimp only
    rw [if_neg (Bool.eq_false_iff.mp (ends.resolve_left fun some => some item)), endTask_cnd, (onlyQueues_completeItem ..).grants]
    exact dropTask_drops n _

end

theorem taskCompletionEndsTheGrant : Claims.TaskCompletionEndsTheGrant := by
  intro n r s up h
  refine ⟨fun idle => idle_fabric exec_taskComplete ?_, fun g hg => ?_⟩
  · have none : s.cnd.grants.find? (fun g => g.unit = n) = none := List.find?_eq_none.mpr fun x hx => by simpa using idle x hx
    rw [none]
  · have unit : g.unit = n := by simpa using List.find?_some hg
    have waits : { g with wait := some s.time.count } ∈ (setWait n (some s.time.count) s).cnd.grants :=
      List.mem_map.mpr ⟨g, List.mem_of_find?_eq_some hg, if_pos unit⟩
    refine ⟨fun ends => goes_fabric up exec_taskComplete ?_, fun item full => ⟨fun fresh => goes_fabric up exec_taskComplete ?_,
      fun waiting => idle_fabric exec_taskComplete ?_⟩⟩
    · rw [hg]
      exact completeTask_ends ends
    · rw [hg]
      dsimp only
      rw [completeTask_stalls item full, fresh]
      exact ⟨waits, rfl, rfl, counted_bump (s := setWait n (some s.time.count) s) h.regs (by decide)⟩
    · rw [hg]
      exact (completeTask_stalls item full).trans (if_pos (Option.isSome_iff_ne_none.mpr waiting))

/-- Settles O22. -/
theorem grantsAndCompletions : Obligations.GrantsAndCompletions := by
  unfold Obligations.GrantsAndCompletions
  exact ⟨pullsAndGrants, taskCompletionEndsTheGrant⟩

end

end Sys2Proof.Machine

end

section

set_option Elab.async false

/-! # Overruns take units out (R313, R330 to R332, R335) -/

namespace Sys2Proof.Machine

section
variable {s t : State} {u node : Nat} {k : OverrunKind}

/-! ## An overrun before its unit loses its task -/

/-- The overrun's record and its doubt. -/
def tellOverrun (k : OverrunKind) (u node : Nat) (s : State) : State :=
  let dom := ((nodeDesc s node).map fun d => d.domain.val).getD 0
  let e : Event := { unit := u, cls := 0x05, ev := overrunCode k, sev := .doubt, detail := node % 4096 + dom * 4096, domain := dom }
  if s.replay.active then report { e with sev := .warning } s else doubtEvent 4 e s

/-- The overrun is captured and counted. -/
def countOverrun (k : OverrunKind) (u node : Nat) (s : State) : State :=
  let dom := ((nodeDesc s node).map fun d => d.domain.val).getD 0
  let bound := ((nodeDesc s node).map fun d => decide (d.phase.val ≠ 0)).getD false
  let s2 := capture F.CND_OVR_CAP_VALID
    [(F.CND_OVR_CAP_KIND, overrunCode k), (F.CND_OVR_CAP_FRAMEBOUND, if bound then 1 else 0), (F.CND_OVR_CAP_DOMAIN, dom),
     (F.CND_OVR_CAP_UNIT, u), (F.CND_OVR_CAP_TASK, node)] (tellOverrun k u node s)
  match k with
  | .budget => bump F.CND_OVR_CNT_BUDGET s2
  | .neverStarted => bump F.CND_OVR_CNT_BUDGET s2
  | .wait => bump F.CND_OVR_CNT_WAIT s2
  | .leaseTerm => bump F.CND_OVR_CNT_WAIT s2

/-- The overrun shows on its tile, and a slot that it held is lost. -/
def showOverrun (k : OverrunKind) (u node : Nat) (s : State) : State :=
  slotLost u <| if u < 64 ∧ k = .budget then
      capture (F.SWP_OVR_STAT_VALID (u / 8) (u % 8))
        [(F.SWP_OVR_STAT_TASK (u / 8) (u % 8), node),
         (F.SWP_OVR_STAT_BLOCK (u / 8) (u % 8), ((((s.cnd.grants.find? fun g => g.unit = u).bind (·.block)).map (·.1)).getD 0) / blockSize s)]
        (countOverrun k u node s)
    else countOverrun k u node s

theorem overrun_eq : overrun k (some u) node s =
    if u < 76 then showSched (kermesDue (kermesUnit u) (takeOut false u (showOverrun k u node s)))
    else showSched (dropTask u (revokeWhere false (fun l => l.holder = u) (loseItem u (showOverrun k u node s)))) := rfl

theorem tellOverrun_keeps {P : State → Prop} (C : Keeps [.indlog, .regs, .frame, .log, .queue] P) (h : P s) : P (tellOverrun k u node s) :=
  ite_keeps (report_keeps (C.mono (by decide)) h) (doubtEvent_keeps (C.mono (by decide)) h)

theorem showOverrun_keeps {P : State → Prop} (C : Keeps [.indlog, .regs, .log, .queue] P) (h : P (tellOverrun k u node s)) :
    P (showOverrun k u node s) := by
  have counted : P (countOverrun k u node s) := by
    unfold countOverrun
    extract_lets dom bound s2
    have captured : P s2 := capture_keeps (C.mono (by decide)) h
    cases k with
    | budget => exact bump_keeps (C.mono (by decide)) captured
    | neverStarted => exact bump_keeps (C.mono (by decide)) captured
    | wait => exact bump_keeps (C.mono (by decide)) captured
    | leaseTerm => exact bump_keeps (C.mono (by decide)) captured
  exact slotLost_keeps (C.mono (by decide)) (ite_keeps (capture_keeps (C.mono (by decide)) counted) counted)

/-- The frame is doubt by bit 4, but in a replay. -/
def DoubtsOutsideReplay (s t : State) : Prop :=
  (s.replay.active = false → t.frame.flags.getLsbD 4 = true) ∧ (s.replay.active = true → t.frame.flags = s.frame.flags)

theorem DoubtsOutsideReplay.of_flags {v : State} (h : DoubtsOutsideReplay s t) (e : v.frame.flags = t.frame.flags) :
    DoubtsOutsideReplay s v := by
  unfold DoubtsOutsideReplay
  rw [e]
  exact h

theorem tellOverrun_doubts : DoubtsOutsideReplay s (tellOverrun k u node s) := by
  unfold tellOverrun
  extract_lets dom e
  by_cases open' : s.replay.active = true
  · rw [if_pos open']
    exact ⟨fun k => absurd open' (by simp [k]), fun _ => by rw [report_frame]⟩
  · rw [if_neg open']
    refine ⟨fun _ => ?_, fun k => absurd k open'⟩
    unfold doubtEvent
    rw [report_frame]
    exact markDoubt_marks (by decide) s

theorem showOverrun_doubts : DoubtsOutsideReplay s (showOverrun k u node s) :=
  tellOverrun_doubts.of_flags (congrArg FrameSt.flags (showOverrun_keeps (shows_frame (by decide)) rfl))

theorem showOverrun_cnd : (showOverrun k u node s).cnd = s.cnd :=
  showOverrun_keeps (shows_cnd (by decide)) (tellOverrun_keeps (shows_cnd (by decide)) rfl)

/-! ## What is left of the unit's work -/

/-- From s to t unit u has lost its task and its leases are being revoked; other leases only faded. -/
structure WorkLost (u : Nat) (s t : State) : Prop where
  grants : ∀ g ∈ t.cnd.grants, g.unit ≠ u
  revoked : ∀ l ∈ t.cnd.leases, l.holder = u → l.revoking = true
  waits : t.cnd.leaseWaits = s.cnd.leaseWaits
  leases : ∀ m ∈ t.cnd.leases, ∃ l ∈ s.cnd.leases, l.After m
  out : u < 76 → u ∈ t.cnd.outOfService

theorem WorkLost.of_cnd {v : State} (h : WorkLost u s t) (e : v.cnd = t.cnd) : WorkLost u s v := by
  obtain ⟨grants, revoked, waits, leases, out⟩ := h
  rw [← e] at grants revoked waits leases out
  exact ⟨grants, revoked, waits, leases, out⟩

theorem Fades.leaseWaits (h : Fades s t) : t.cnd.leaseWaits = s.cnd.leaseWaits := by rw [h.rest]

theorem takeOut_workLost (warden : Bool) (u : Nat) (s : State) : WorkLost u s (takeOut warden u s) := by
  obtain ⟨out, grants, revoked⟩ := takeOut_outOfWork warden u s
  obtain ⟨t, fades, -, cnd⟩ := takeOut_cnd warden u s
  refine ⟨grants, revoked, ?_, ?_, fun _ => out⟩
  · rw [cnd]
    exact fades.leaseWaits
  · rw [cnd]
    exact fades.leases

theorem revokeWork_workLost (high : ¬u < 76) (s : State) :
    WorkLost u s (dropTask u (revokeWhere false (fun l => l.holder = u) (loseItem u s))) := by
  have fades : Fades s (revokeWhere false (fun l => l.holder = u) (loseItem u s)) := (fades_loseItem u s).trans (fades_revokeWhere ..)
  refine ⟨dropTask_drops u _, fun m hm e => ?_, fades.leaseWaits, fades.leases, fun low => absurd low high⟩
  exact revokeWhere_revokes (fun l m lm => by rw [lm.holder]) m hm (decide_eq_true e)

theorem takeOut_flags (warden : Bool) (u : Nat) (s : State) : (takeOut warden u s).frame.flags = s.frame.flags := by
  have before : (clearAffinity u (dropTask u (revokeWhere warden (fun l => l.holder = u) (abandonOn u (loseItem u (returnBlock u s)))))).frame =
      s.frame :=
    clearAffinity_keeps (shows_frame (by decide)) (dropTask_keeps (shows_frame (by decide)) (revokeWhere_keeps (shows_frame (by decide))
      (abandonOn_keeps (shows_frame (by decide)) (loseItem_keeps (shows_frame (by decide)) (returnBlock_keeps (shows_frame (by decide)) rfl)))))
  unfold takeOut
  simp only
  rw [congrArg FrameSt.flags (showService_keeps (shows_frame (x := _) (by decide)) rfl)]
  simp only [before]

/-- What an overrun leaves. -/
theorem overrun_leaves : WorkLost u s (overrun k (some u) node s) ∧ DoubtsOutsideReplay s (overrun k (some u) node s) := by
  have cnd : (showOverrun k u node s).cnd = s.cnd := showOverrun_cnd
  have moved {t : State} (h : WorkLost u (showOverrun k u node s) t) : WorkLost u s t := by
    obtain ⟨grants, revoked, waits, leases, out⟩ := h
    rw [cnd] at waits leases
    exact ⟨grants, revoked, waits, leases, out⟩
  rw [overrun_eq]
  by_cases low : u < 76
  · rw [if_pos low]
    have shown (t : State) : (showSched (kermesDue (kermesUnit u) t)).cnd = t.cnd :=
      showSched_keeps (shows_cnd (by decide)) (kermesDue_keeps (shows_cnd (by decide)) rfl)
    have frame (t : State) : (showSched (kermesDue (kermesUnit u) t)).frame = t.frame :=
      showSched_keeps (shows_frame (by decide)) (kermesDue_keeps (shows_frame (by decide)) rfl)
    exact ⟨(moved (takeOut_workLost ..)).of_cnd (shown _), showOverrun_doubts.of_flags (by rw [frame, takeOut_flags])⟩
  · rw [if_neg low]
    refine ⟨(moved (revokeWork_workLost low _)).of_cnd (showSched_keeps (shows_cnd (by decide)) rfl),
      (showOverrun_doubts (k := k) (u := u) (node := node)).of_flags (congrArg FrameSt.flags ?_)⟩
    exact showSched_keeps (shows_frame (by decide)) (dropTask_keeps (shows_frame (by decide)) (revokeWhere_keeps (shows_frame (by decide))
      (loseItem_keeps (shows_frame (by decide)) rfl)))

theorem overran_of {v : State} (lost : WorkLost u v t) (doubts : DoubtsOutsideReplay s t) : Claims.Overran u s t :=
  ⟨fun low => ⟨⟨lost.out low, lost.grants, lost.revoked⟩, doubts⟩, lost.grants, lost.revoked, doubts⟩

/-! ## When a task overruns -/

theorem exec_taskBudgetExpiry : exec (.taskBudgetExpiry u) s = .next (fabric s fun s =>
    match s.cnd.grants.find? fun g => g.unit = u with
    | some g => if g.time + budgetOf s g.node < s.time.count then overrun .budget (some u) g.node s else s
    | none => if laneIterates s u then overrun .budget (some u) (laneNode s) s else s) := rfl

/-- The state in which unit u waits for no lease. -/
def dropWaits (u : Nat) (s : State) : State :=
  { s with cnd := { s.cnd with leaseWaits := s.cnd.leaseWaits.filter fun w => w.1 ≠ u } }

theorem exec_waitTimeout : exec (.waitTimeout u) s = .next (fabric s fun s =>
    match s.cnd.grants.find? fun g => g.unit = u ∧ waitReached s g with
    | some g => overrun .wait (some u) g.node (dropWaits u s)
    | none => s) := rfl

theorem exec_leaseTermExpiry {cls : Fin 6} {res : Nat} : exec (.leaseTermExpiry cls res) s = .next (fabric s fun s =>
    match s.cnd.leases.find? fun l => l.cls = cls.val ∧ l.res = res ∧ ¬ l.revoking ∧ termPassed s l with
    | some l =>
      overrun .leaseTerm (some l.holder) (((s.cnd.grants.find? fun g => g.unit = l.holder).map (·.node)).getD 0) (revokeOne false l s)
    | none => s) := rfl

/-- Settles O23. -/
theorem overrunsTakeUnitsOut : Obligations.OverrunsTakeUnitsOut := by
  unfold Obligations.OverrunsTakeUnitsOut
  intro s up h
  have noGrant {u : Nat} (free : ∀ g ∈ s.cnd.grants, g.unit ≠ u) : s.cnd.grants.find? (fun g => g.unit = u) = none :=
    List.find?_eq_none.mpr fun x hx => by simpa using free x hx
  refine ⟨fun u g hg => ⟨fun late => goes_fabric up exec_taskBudgetExpiry ?_, fun due => idle_fabric exec_taskBudgetExpiry ?_⟩,
    fun u free => ⟨fun iterates => goes_fabric up exec_taskBudgetExpiry ?_, fun off => idle_fabric exec_taskBudgetExpiry ?_⟩,
    fun u waiting => goes_fabric up exec_waitTimeout ?_, fun u early => idle_fabric exec_waitTimeout ?_,
    fun cls res l hl => goes_fabric up exec_leaseTermExpiry ?_, fun cls res kept => idle_fabric exec_leaseTermExpiry ?_⟩
  · rw [hg]
    dsimp only
    rw [if_pos late]
    exact overran_of overrun_leaves.1 overrun_leaves.2
  · rw [hg]
    exact if_neg (Nat.not_lt.mpr due)
  · rw [noGrant free]
    dsimp only
    rw [if_pos iterates]
    exact overran_of overrun_leaves.1 overrun_leaves.2
  · rw [noGrant free]
    exact if_neg (by simp [off])
  · obtain ⟨g, hg, unit, reached⟩ := waiting
    cases found : s.cnd.grants.find? (fun g => g.unit = u ∧ waitReached s g) with
    | none => exact absurd (List.find?_eq_none.mp found g hg) (by simp [unit, reached])
    | some g =>
      obtain ⟨lost, doubts⟩ := overrun_leaves (k := .wait) (u := u) (node := g.node) (s := dropWaits u s)
      refine ⟨overran_of lost doubts, fun w hw => ?_⟩
      rw [lost.waits] at hw
      exact of_decide_eq_true (List.mem_filter.mp hw).2
  · have none : s.cnd.grants.find? (fun g => g.unit = u ∧ waitReached s g) = none :=
      List.find?_eq_none.mpr fun x hx => by simpa using early x hx
    rw [none]
  · rw [hl]
    dsimp only
    obtain ⟨lost, doubts⟩ := overrun_leaves (k := .leaseTerm) (u := l.holder)
      (node := ((s.cnd.grants.find? fun g => g.unit = l.holder).map (·.node)).getD 0) (s := revokeOne false l s)
    obtain ⟨cls', res', -⟩ := of_decide_eq_true (List.find?_some hl :)
    have replay : (revokeOne false l s).replay = s.replay := revokeOne_keeps (shows_replay (by decide)) rfl
    have frame : (revokeOne false l s).frame = s.frame := revokeOne_keeps (shows_frame (by decide)) rfl
    refine ⟨overran_of lost ?_, fun m hm hc hr => ?_⟩
    · unfold DoubtsOutsideReplay at doubts ⊢
      rw [replay, frame] at doubts
      exact doubts
    · obtain ⟨x, hx, after⟩ := lost.leases m hm
      exact after.revoking ((fades_revokeOne false l s).2.1 x hx (by rw [cls', ← hc, after.cls]) (by rw [res', ← hr, after.res]))
  · have none : s.cnd.leases.find? (fun l => l.cls = cls.val ∧ l.res = res ∧ ¬ l.revoking ∧ termPassed s l) = none := by
      refine List.find?_eq_none.mpr fun x hx => ?_
      simp only [decide_eq_true_eq]
      rintro ⟨hc, hr, active, passed⟩
      exact (kept x hx hc hr).elim active fun e => by simp [e] at passed
    rw [none]

end

end Sys2Proof.Machine

end

section

set_option Elab.async false

/-! # Leases and ordered flows (R27, R327, R329, R333 to R336, R360) -/

namespace Sys2Proof.Machine

section
variable {s t : State} {u res f q : Nat} {cls : Fin 6}

/-! ## Requests -/

theorem refuseGrants_sends (u cls : Nat) (s : State) : ∃ l, refuseGrants u cls s = { s with sent := l } ∧
    ∀ x ∈ s.cnd.revoked, x.cls = cls → x.tick = s.time.count → resourceFree s cls x.res = true → Output.grantRefused u cls x.res ∈ l := by
  have all (xs : List Revoked) (s : State) : ∃ l, xs.foldl (fun s x => send (.grantRefused u cls x.res) s) s = { s with sent := l } ∧
      (∀ o ∈ s.sent, o ∈ l) ∧ ∀ x ∈ xs, Output.grantRefused u cls x.res ∈ l := by
    induction xs generalizing s with
    | nil => exact ⟨s.sent, rfl, fun _ h => h, nofun⟩
    | cons x xs ih =>
      obtain ⟨l, e, old, new⟩ := ih (send (.grantRefused u cls x.res) s)
      refine ⟨l, e, fun o ho => old o (List.mem_cons_of_mem _ ho), fun y hy => ?_⟩
      rcases List.mem_cons.mp hy with rfl | hy
      · exact old _ List.mem_cons_self
      · exact new y hy
  obtain ⟨l, e, -, new⟩ := all (s.cnd.revoked.filter fun x => x.cls = cls ∧ x.tick = s.time.count ∧ resourceFree s cls x.res) s
  exact ⟨l, e, fun x hx c tick free => new x (List.mem_filter.mpr ⟨hx, by simp [c, tick, free]⟩)⟩

/-- The domain in which unit u leases for a client, or for itself. -/
def leaseDomain (s : State) (u : Nat) (client : Option Nat) : Nat :=
  match client with
  | some c => bitsOf (fld s (F.CND_CLIENT_WORD c 0)) 27 24
  | none => unitDomain s u

/-- The message context of a lease of class 3 or 4. -/
def leaseCtx (s : State) (u res : Nat) (client : Option Nat) (len : Nat) : SegCtx :=
  ⟨res, match client with | some c => clientPrio s c | none => 8, u, client.getD 0xFFFF, 0, len⟩

theorem giveLease_cnd (u cls res : Nat) (client : Option Nat) (len : Nat) (s : State) : (giveLease u cls res client len s).cnd =
    { s.cnd with
      leases := s.cnd.leases ++ [⟨cls, res, u, leaseDomain s u client, s.time.count, false⟩]
      crypto := if cls = 3 then s.cnd.crypto ++ [leaseCtx s u res client len] else s.cnd.crypto
      mapld := if cls = 4 then s.cnd.mapld ++ [leaseCtx s u res client len] else s.cnd.mapld } :=
  showSegs_keeps (shows_cnd (by decide)) (showLeases_keeps (shows_cnd (by decide)) rfl)

/-- A request that waits with its task. -/
def awaitLease (u cls : Nat) (s : State) : State :=
  setWait u (some s.time.count) { s with cnd := { s.cnd with leaseWaits := s.cnd.leaseWaits ++ [(u, cls, s.time.count)] } }

/-- What a request makes of the free resources of its class. -/
def requestLease (u : Nat) (cls : Fin 6) (client : Option Nat) (len : Nat) (s : State) : State :=
  match freeResource s cls.val with
  | some r => giveLease u cls.val r client len s
  | none =>
    if cls = 3 then bump F.WDN_CRYPTO_SEG_WAITS (awaitLease u cls s)
    else if cls = 4 then bump F.WLD_MAPLD_SEG_WAITS (awaitLease u cls s) else awaitLease u cls s

theorem exec_leaseRequest {client : Option Nat} {len : Nat} : exec (.leaseRequest u cls client len) s =
    .next (fabric s fun s => requestLease u cls client len (refuseGrants u cls s)) := rfl

theorem requestLease_of_free {client : Option Nat} {len r : Nat} (h : freeResource s cls.val = some r) :
    requestLease u cls client len s = giveLease u cls.val r client len s := by
  unfold requestLease
  rw [h]

theorem requestLease_of_none {client : Option Nat} {len : Nat} (h : freeResource s cls.val = none) :
    (requestLease u cls client len s).cnd = (awaitLease u cls s).cnd ∧ (requestLease u cls client len s).sent = s.sent := by
  unfold requestLease
  rw [h]
  exact ite_keeps (P := fun t : State => t.cnd = (awaitLease u cls s).cnd ∧ t.sent = s.sent) ⟨rfl, rfl⟩
    (ite_keeps (P := fun t : State => t.cnd = (awaitLease u cls s).cnd ∧ t.sent = s.sent) ⟨rfl, rfl⟩ ⟨rfl, rfl⟩)

theorem leaseRequests : Claims.LeaseRequests := by
  intro u cls client len s up
  obtain ⟨l, refused, told⟩ := refuseGrants_sends u cls s
  have goes {Q : State → Prop} (q : Q (requestLease u cls client len { s with sent := l })) : Goes (.leaseRequest u cls client len) s Q := by
    refine goes_fabric up exec_leaseRequest ?_
    rw [refused]
    exact q
  refine ⟨fun r free => goes ?_, fun none => goes ?_, fun x hx c tick free => goes ?_⟩
  · rw [requestLease_of_free (s := { s with sent := l }) free, giveLease_cnd]
    refine ⟨rfl, rfl, ?_, ?_⟩
    · dsimp only
      split
      · rfl
      · exact (List.append_nil _).symm
    · dsimp only
      split
      · rfl
      · exact (List.append_nil _).symm
  · rw [(requestLease_of_none (s := { s with sent := l }) none).1]
    exact ⟨rfl, rfl, rfl⟩
  · have sent : (requestLease u cls client len { s with sent := l }).sent = l := by
      cases found : freeResource s cls.val with
      | none => exact (requestLease_of_none (s := { s with sent := l }) found).2
      | some r =>
        rw [requestLease_of_free (s := { s with sent := l }) found]
        exact giveLease_keeps (shows_sent_eq (by decide)) rfl
    rw [sent]
    exact told x hx c tick free

/-! ## The end of a lease -/

/-- The state without the lease of a resource, and without its context. -/
def endLease (cls res : Nat) (s : State) : State :=
  { s with cnd := { s.cnd with
    leases := s.cnd.leases.filter fun l => ¬ (l.cls = cls ∧ l.res = res)
    crypto := if cls = 3 then s.cnd.crypto.filter (fun c => c.ctx ≠ res) else s.cnd.crypto
    mapld := if cls = 4 then s.cnd.mapld.filter (fun c => c.ctx ≠ res) else s.cnd.mapld } }

theorem serveWaiter_of_none {k : Nat} (h : s.cnd.leaseWaits.find? (fun w => w.2.1 = k) = none ∨ freeResource s k = none) :
    (serveWaiter k s).cnd = s.cnd := by
  have idle : serveWaiter k s = showSegs (showLeases s) := by
    unfold serveWaiter
    rcases h with h | h
    · rw [h]
    · rw [h]
      cases s.cnd.leaseWaits.find? fun w => w.2.1 = k <;> rfl
  rw [idle]
  exact showSegs_keeps (shows_cnd (by decide)) (showLeases_keeps (shows_cnd (by decide)) rfl)

theorem serveWaiter_of_some {k r : Nat} {w : Nat × Nat × Tick} (first : s.cnd.leaseWaits.find? (fun w => w.2.1 = k) = some w)
    (free : freeResource s k = some r) : serveWaiter k s = giveLease w.1 k r none 0 (setWait w.1 none
      { s with cnd := { s.cnd with leaseWaits := s.cnd.leaseWaits.erase w } }) := by
  unfold serveWaiter
  rw [first, free]

theorem exec_leaseRelease : exec (.leaseRelease cls res) s = .next (fabric s fun s =>
    if s.cnd.leases.any fun l => l.cls = cls.val ∧ l.res = res ∧ ¬ l.revoking then serveWaiter cls.val (endLease cls.val res s) else s) := rfl

theorem exec_leaseRevokeConfirm : exec (.leaseRevokeConfirm cls res) s = .next (fabric s fun s =>
    if s.cnd.leases.any fun l => l.cls = cls.val ∧ l.res = res ∧ l.revoking then beginWipe (revokedRegion cls.val res) s else s) := rfl

theorem exec_leaseRenew : exec (.leaseRenew cls res) s = .next (fabric s fun s => { s with cnd := { s.cnd with
    leases := s.cnd.leases.map fun l => if l.cls = cls.val ∧ l.res = res ∧ ¬ l.revoking then { l with time := s.time.count } else l } }) := rfl

theorem leasesEnd : Claims.LeasesEnd := by
  intro cls res s up kept free first
  refine ⟨fun ⟨l, hl, hc, hr, active⟩ => ?_, fun none => idle_fabric exec_leaseRelease (if_neg ?_),
    fun ⟨l, hl, hc, hr, revoking⟩ => goes_fabric up exec_leaseRevokeConfirm ?_,
    fun none => idle_fabric exec_leaseRevokeConfirm (if_neg ?_), goes_fabric up exec_leaseRenew rfl⟩
  · have leased : (s.cnd.leases.any fun l => l.cls = cls.val ∧ l.res = res ∧ ¬ l.revoking) = true :=
      List.any_eq_true.mpr ⟨l, hl, by simp [hc, hr, active]⟩
    refine ⟨fun alone => goes_fabric up exec_leaseRelease ?_, fun w r hw hf => goes_fabric up exec_leaseRelease ?_⟩
    · rw [if_pos leased, serveWaiter_of_none (s := endLease cls.val res s) alone]
      exact ⟨rfl, rfl⟩
    · rw [if_pos leased, serveWaiter_of_some (s := endLease cls.val res s) hw hf, giveLease_cnd]
      refine ⟨rfl, rfl, fun g hg unit => ?_⟩
      obtain ⟨x, -, rfl⟩ := List.mem_map.mp hg
      by_cases mine : x.unit = w.1
      · rw [if_pos mine]
      · rw [if_neg mine] at unit
        exact absurd unit mine
  · simp only [List.any_eq_true, decide_eq_true_eq, not_exists, not_and]
    exact fun l hl hc hr active => active (none l hl hc hr)
  · rw [if_pos (List.any_eq_true.mpr ⟨l, hl, by simp [hc, hr, revoking]⟩)]
    exact ⟨beginWipe_keeps (shows_cnd (by decide)) rfl, beginWipe_wipes _ s⟩
  · simp only [List.any_eq_true, decide_eq_true_eq, not_exists, not_and]
    exact fun l hl hc hr => by simp [none l hl hc hr]

/-! ## Ordered flows -/

theorem foldl_items {α : Type} {f : State → α → State} (h : ∀ t a, (f t a).cnd.items = t.cnd.items) (l : List α) (s : State) :
    (l.foldl f s).cnd.items = s.cnd.items :=
  foldl_keeps (P := fun t : State => t.cnd.items = s.cnd.items) (fun t a e => (h t a).trans e) l s rfl

theorem raiseFlags_items (succ : List (Fin 4096 × Fin 32)) (s : State) : (raiseFlags succ s).cnd.items = s.cnd.items := by
  have ready (n : Nat) (s : State) : (testReady n s).cnd.items = s.cnd.items := by
    unfold testReady
    split
    · rfl
    · exact ite_keeps (P := fun t : State => t.cnd.items = s.cnd.items)
        (ite_keeps (P := fun t : State => t.cnd.items = s.cnd.items) rfl rfl) rfl
  unfold raiseFlags
  extract_lets set
  exact (foldl_items (fun t n => ready n t) _ _).trans (foldl_items (f := set) (fun _ _ => rfl) _ _)

/-- The item at the release position of a flow leaves the window. -/
theorem releaseOne_items (h : releaseOne f s = some t) :
    t.cnd.items = s.cnd.items.filter fun x => ¬ (x.flow = f ∧ x.seq = (flowSt s f).release) := by
  unfold releaseOne at h
  simp only at h
  split at h
  · cases h
  next i hi =>
    have seq : i.seq = (flowSt s f).release := (of_decide_eq_true (List.find?_some hi :)).2.1
    rw [seq] at h
    split at h <;> cases h
    · rw [bump_cnd, report_cnd]
    · exact raiseFlags_items ..

theorem releaseOne_none : releaseOne f s = none ↔ ∀ i ∈ s.cnd.items, i.flow = f → i.seq = (flowSt s f).release → i.complete = false := by
  have found : releaseOne f s = none ↔
      s.cnd.items.find? (fun i => i.flow = f ∧ i.seq = (flowSt s f).release ∧ i.complete) = none := by
    unfold releaseOne
    simp only
    cases s.cnd.items.find? fun i => i.flow = f ∧ i.seq = (flowSt s f).release ∧ i.complete with
    | none => simp
    | some i =>
      simp only [reduceCtorEq, iff_false]
      split <;> exact Option.some_ne_none _
  rw [found, List.find?_eq_none]
  simp

/-- Releasing only takes items out of the window. -/
theorem releaseItems_items (f n : Nat) (s : State) : ∀ i ∈ (releaseItems f n s).cnd.items, i ∈ s.cnd.items := by
  induction n generalizing s with
  | zero => exact fun i hi => hi
  | succ n ih =>
    rw [releaseItems]
    split
    · exact fun i hi => hi
    next t h =>
      intro i hi
      have kept := ih t i hi
      rw [releaseOne_items h] at kept
      exact (List.mem_filter.mp kept).1

theorem releaseItems_of_waits {n : Nat} (h : ∀ i ∈ s.cnd.items, i.flow = f → i.seq = (flowSt s f).release → i.complete = false) :
    releaseItems f n s = s := by
  cases n with
  | zero => rfl
  | succ n => rw [releaseItems, releaseOne_none.mpr h]

/-- A complete item at the release position leaves the window. -/
theorem releaseItems_releases {n : Nat} {i : FlowItem} (hi : i ∈ s.cnd.items) (flow : i.flow = f) (seq : i.seq = (flowSt s f).release)
    (done : i.complete = true) : ∀ x ∈ (releaseItems f (n + 1) s).cnd.items, ¬(x.flow = f ∧ x.seq = (flowSt s f).release) := by
  rw [releaseItems]
  cases out : releaseOne f s with
  | none => exact absurd (releaseOne_none.mp out i hi flow seq) (by simp [done])
  | some t =>
    intro x hx
    have kept := releaseItems_items f n t x hx
    rw [releaseOne_items out] at kept
    exact of_decide_eq_true (List.mem_filter.mp kept).2

/-- The items of a flow as they are marked. -/
def withItems (l : List FlowItem) (s : State) : State := { s with cnd := { s.cnd with items := l } }

/-- An item is marked complete. -/
def markComplete (f q : Nat) (i : FlowItem) : FlowItem := if i.flow = f ∧ i.seq = q then { i with complete := true } else i

/-- An item whose time has come is marked complete and void. -/
def markVoid (f q : Nat) (s : State) (i : FlowItem) : FlowItem :=
  if i.flow = f ∧ i.seq = q ∧ ¬ i.complete ∧ i.entered + itemTo s f ≤ s.time.count then { i with complete := true, void := true } else i

theorem markComplete_place (f q : Nat) (i : FlowItem) : (markComplete f q i).flow = i.flow ∧ (markComplete f q i).seq = i.seq ∧
    (¬(i.flow = f ∧ i.seq = q) → markComplete f q i = i) := by
  unfold markComplete
  split
  · exact ⟨rfl, rfl, fun h => absurd ‹_› h⟩
  · exact ⟨rfl, rfl, fun _ => rfl⟩

theorem markVoid_place (f q : Nat) (s : State) (i : FlowItem) : (markVoid f q s i).flow = i.flow ∧ (markVoid f q s i).seq = i.seq ∧
    (¬(i.flow = f ∧ i.seq = q) → markVoid f q s i = i) := by
  unfold markVoid
  split
  next h => exact ⟨rfl, rfl, fun g => absurd ⟨h.1, h.2.1⟩ g⟩
  · exact ⟨rfl, rfl, fun _ => rfl⟩

theorem exec_flowItemComplete {flow : Fin 256} : exec (.flowItemComplete flow q) s = .next (fabric s fun s =>
    releaseItems flow 1024 (withItems (s.cnd.items.map (markComplete flow q)) s)) := rfl

theorem exec_itemTimeout {flow : Fin 256} : exec (.itemTimeout flow q) s = .next (fabric s fun s =>
    releaseItems flow 1024 (withItems (s.cnd.items.map (markVoid flow q s)) s)) := rfl

section
variable {mark : FlowItem → FlowItem} (place : ∀ i, (mark i).flow = i.flow ∧ (mark i).seq = i.seq ∧ (¬(i.flow = f ∧ i.seq = q) → mark i = i))
include place

/-- Behind the release position a marked item waits. -/
theorem releaseItems_behind {n : Nat} (behind : (flowSt s f).release ≠ q)
    (waits : ∀ i ∈ s.cnd.items, i.flow = f → i.seq = (flowSt s f).release → i.complete = false) :
    releaseItems f n (withItems (s.cnd.items.map mark) s) = withItems (s.cnd.items.map mark) s := by
  refine releaseItems_of_waits fun i hi flow seq => ?_
  obtain ⟨x, hx, rfl⟩ := List.mem_map.mp hi
  obtain ⟨pf, ps, other⟩ := place x
  have same : mark x = x := other fun ⟨_, e⟩ => behind (by rw [← e, ← ps]; exact seq.symm)
  rw [same] at flow seq ⊢
  exact waits x hx flow seq

/-- At the release position an item that is marked complete leaves. -/
theorem releaseItems_at {n : Nat} (at0 : (flowSt s f).release = q) {i : FlowItem} (hi : i ∈ s.cnd.items) (flow : i.flow = f) (seq : i.seq = q)
    (done : (mark i).complete = true) :
    ∀ x ∈ (releaseItems f (n + 1) (withItems (s.cnd.items.map mark) s)).cnd.items, ¬(x.flow = f ∧ x.seq = q) := by
  obtain ⟨pf, ps, -⟩ := place i
  have out := releaseItems_releases (n := n) (s := withItems (s.cnd.items.map mark) s) (f := f) (List.mem_map_of_mem hi)
    (pf.trans flow) ((ps.trans seq).trans at0.symm) done
  rw [← at0]
  exact out

end

theorem flowsReleaseInSequence : Claims.FlowsReleaseInSequence := by
  intro flow q s up mine due head waits
  have behind {n : Nat} {mark : FlowItem → FlowItem}
      (place : ∀ i, (mark i).flow = i.flow ∧ (mark i).seq = i.seq ∧ (¬(i.flow = flow.val ∧ i.seq = q) → mark i = i))
      (h : head ≠ q) (w : waits) := releaseItems_behind (n := n) place h w
  refine ⟨fun at0 ⟨i, hi, hf, hq⟩ => goes_fabric up exec_flowItemComplete ?_, fun at0 ⟨i, hi, ⟨hf, hq⟩, now⟩ => goes_fabric up exec_itemTimeout ?_,
    fun other w => ⟨goes_fabric up exec_flowItemComplete (behind (markComplete_place _ _) other w),
      goes_fabric up exec_itemTimeout (behind (markVoid_place _ _ _) other w)⟩, fun w early => idle_fabric exec_itemTimeout ?_⟩
  · exact releaseItems_at (markComplete_place _ _) at0 hi hf hq (by rw [markComplete, if_pos ⟨hf, hq⟩])
  · refine releaseItems_at (markVoid_place _ _ _) at0 hi hf hq ?_
    by_cases done : i.complete = true
    · rw [markVoid, if_neg fun k => k.2.2.1 done]
      exact done
    · rw [markVoid, if_pos ⟨hf, hq, done, now⟩]
  · have same : s.cnd.items.map (markVoid flow q s) = s.cnd.items := by
      have kept : ∀ i ∈ s.cnd.items, markVoid flow q s i = id i := fun i hi =>
        if_neg fun ⟨hf, hq, _, now⟩ => early i hi ⟨hf, hq⟩ now
      exact (List.map_congr_left kept).trans (List.map_id _)
    rw [same]
    exact releaseItems_of_waits w

/-- Settles O24. -/
theorem leasesAndFlows : Obligations.LeasesAndFlows := by
  unfold Obligations.LeasesAndFlows
  exact ⟨leaseRequests, leasesEnd, flowsReleaseInSequence⟩

end

end Sys2Proof.Machine

end

section

set_option Elab.async false

/-! # The gathers of a tile, and its packets (R221, R229, R231, R240)

What a tile does with its candidates leaves its gathers and its offered packets, and leaves the other tiles. -/

namespace Sys2Proof.Machine

/-! ## What the sequencer of a tile leaves -/

theorem ite_holds {α : Type} {P : α → Prop} {c : Prop} [Decidable c] {a b : α} (ha : P a) (hb : P b) : P (if c then a else b) :=
  iteInduction (fun _ => ha) fun _ => hb

/-- Two states of a tile with the same gathers and offered packets. -/
structure SamePackets (x y : TileSt) : Prop where
  gathers : y.gathers = x.gathers
  offered : y.offered = x.offered

section
variable {x y z : TileSt}

theorem SamePackets.refl (x : TileSt) : SamePackets x x := ⟨rfl, rfl⟩

theorem SamePackets.trans (h : SamePackets x y) (g : SamePackets y z) : SamePackets x z :=
  ⟨g.gathers.trans h.gathers, g.offered.trans h.offered⟩

variable {s : State} {u : Nat} {f : InFlight}

theorem formKey_packets (key : Nat) (h : SamePackets x y) : SamePackets x (formKey s u f key y) := by
  unfold formKey
  simp only
  split <;> exact ⟨h.gathers, h.offered⟩

theorem endContact_packets (cause pose : Nat) (h : SamePackets x y) : SamePackets x (endContact s u f cause pose y) := by
  unfold endContact
  simp only
  refine formKey_packets _ ?_
  split <;> exact ⟨h.gathers, h.offered⟩

theorem finishIf_packets {c : CandCtx} (h : SamePackets x y) : SamePackets x (finishIf s u c f y) := by
  unfold finishIf
  split
  · exact formKey_packets _ h
  · exact h

theorem sepiaContact_packets (k : Nat) (h : SamePackets x y) : SamePackets x (sepiaContact u f k y s).2 :=
  endContact_packets 3 k h

theorem answerRead_packets (r : Nat × Nat × Nat × Nat) (stage : Nat) : SamePackets x (answerRead u s x r stage) := by
  have same (q : List Query) : SamePackets x { x with queue := q } := ⟨rfl, rfl⟩
  have hit (g : InFlight) (k : Nat) : SamePackets x (endContact s u g 0 k x) := endContact_packets 0 k (.refl x)
  have pass (level : Nat) (c : Int) (g : InFlight) (q : List Query) (ctx : CandCtx) :
      SamePackets x (let n := notePass level c g { x with queue := q }; finishIf s u ctx n.1 (putFlight n.1 n.2)) :=
    finishIf_packets ⟨rfl, rfl⟩
  unfold answerRead
  extract_lets
  split
  · refine ite_holds (ite_holds (same _) (hit ..)) (ite_holds (ite_holds (pass ..) (same _)) (ite_holds
      (ite_holds (pass ..) (ite_holds (hit ..) (same _))) (ite_holds (same _) (ite_holds (pass ..) (hit ..)))))
  · exact .refl x

/-! ## Placing, advancing and starting candidates -/

theorem placePair_packets (c : CandCtx) (k i : Nat) (h : SamePackets x y) : SamePackets x (placePair u c k i s y f).2.1 := by
  unfold placePair
  extract_lets
  refine ite_holds (P := fun p : Placed => SamePackets x p.2.1) (endContact_packets 5 k h)
    (ite_holds (P := fun p : Placed => SamePackets x p.2.1) (endContact_packets 2 k h) ?_)
  extract_lets
  split
  · exact sepiaContact_packets k h
  · exact ite_holds (P := fun p : Placed => SamePackets x p.2.1) ⟨h.gathers, h.offered⟩ ⟨h.gathers, h.offered⟩

theorem placePairs_packets (c : CandCtx) (l : List (Nat × Nat)) {r : Placed} (h : SamePackets x r.2.1) :
    SamePackets x (placePairs u c l r).2.1 := by
  induction l generalizing r with
  | nil => exact h
  | cons p rest ih =>
    obtain ⟨s, t, f⟩ := r
    obtain ⟨k, i⟩ := p
    cases f with
    | none => exact h
    | some f =>
      simp only [placePairs]
      split
      · exact h
      · split
        · exact endContact_packets 1 k h
        · exact sepiaContact_packets k h
        · exact ih (placePair_packets c k i h)

/-- The pair that a tile's sequencer works on: the tiles of the state as in s, and the tile with the packets of x. -/
structure Pumps (s : State) (x : TileSt) (st : State × TileSt) : Prop where
  tiles : st.1.swp.tiles = s.swp.tiles
  packets : SamePackets x st.2

variable {st : State × TileSt}

theorem advanceCand_pumps (i : Nat) (h : Pumps s x st) : Pumps s x (advanceCand u st i) := by
  refine ⟨(congrArg SwpSt.tiles (advanceCand_keeps (shows_swp (by decide)) rfl)).trans h.tiles, ?_⟩
  unfold advanceCand
  extract_lets
  split
  · exact h.packets
  · split
    · exact formKey_packets _ h.packets
    · split
      · exact endContact_packets 3 0 h.packets
      · have placed (c : CandCtx) (f : InFlight) {r : Placed} (e : placePairs u c ((pairsOf c).drop f.placed) (st.1, st.2, some f) = r) :
            SamePackets x r.2.1 := e ▸ placePairs_packets c _ h.packets
        split
        · rename_i e
          exact placed _ _ e
        · rename_i e
          exact finishIf_packets ⟨(placed _ _ e).gathers, (placed _ _ e).offered⟩

theorem startCand_pumps (i : Nat) (h : Pumps s x st) : Pumps s x (startCand u st i) := by
  have more {f : InFlight} : SamePackets x { st.2 with flight := st.2.flight ++ [f] } := ⟨h.packets.gathers, h.packets.offered⟩
  have swp {t : State} (e : t.swp = st.1.swp) : t.swp.tiles = s.swp.tiles := (congrArg SwpSt.tiles e).trans h.tiles
  unfold startCand
  extract_lets
  split
  · exact ⟨h.tiles, endContact_packets 3 0 more⟩
  · split
    · exact ⟨swp (countSepia_keeps (shows_swp (by decide)) (sepiaElement_keeps (shows_swp (by decide)) (probeWord_keeps
        (shows_swp (by decide)) rfl))), sepiaContact_packets _ more⟩
    · split
      · refine ⟨?_, endContact_packets _ _ more⟩
        extract_lets -merge t1 _ s1
        have counted : t1.swp = st.1.swp := bumpBy_keeps (shows_swp (by decide)) (addRg_keeps (shows_swp (by decide)) rfl)
        refine ite_keeps (P := fun t : State => t.swp.tiles = s.swp.tiles) ?_ (ite_keeps (P := fun t : State => t.swp.tiles = s.swp.tiles)
          (ite_keeps (P := fun t : State => t.swp.tiles = s.swp.tiles) (swp counted) (swp ?_)) h.tiles)
        · exact h.tiles
        · exact expansionGuard_keeps (shows_swp (by decide)) counted
      · exact advanceCand_pumps i ⟨h.tiles, more⟩

theorem fillFlight_pumps (l : List Nat) (h : Pumps s x st) : Pumps s x (fillFlight u l st) := by
  induction l generalizing st with
  | nil => exact h
  | cons i rest ih =>
    unfold fillFlight
    split
    · exact ih (startCand_pumps i ⟨h.tiles, h.packets.gathers, h.packets.offered⟩)
    · exact h

end

/-! ## The tiles of a state -/

section
variable {s t v : State}

theorem tileSt_setTile_same {u : Nat} {x : TileSt} (h : Inv s) : tileSt (setTile u x s) u = x := tabGet_tabPut_same h.shape.tiles

theorem tileSt_setTile_ne {u w : Nat} {x : TileSt} (h : w ≠ u) : tileSt (setTile u x s) w = tileSt s w := tabGet_tabPut_ne h

theorem tileSt_of_swp {u : Nat} (h : t.swp = s.swp) : tileSt t u = tileSt s u := by rw [tileSt, tileSt, h]

/-- From s to t the packets of the tiles are the same, and the invariant still holds. -/
structure PacketsKept (s t : State) : Prop where
  inv : Inv t
  packets : ∀ u, SamePackets (tileSt s u) (tileSt t u)

theorem PacketsKept.refl (h : Inv s) : PacketsKept s s := ⟨h, fun _ => .refl _⟩

theorem PacketsKept.trans (h : PacketsKept s t) (g : PacketsKept t v) : PacketsKept s v :=
  ⟨g.inv, fun u => (h.packets u).trans (g.packets u)⟩

theorem PacketsKept.of_swp (h : Inv t) (e : t.swp = s.swp) : PacketsKept s t := ⟨h, fun u => by rw [tileSt_of_swp e]; exact .refl _⟩

theorem PacketsKept.setTile {u : Nat} {x : TileSt} (h : Inv s) (e : SamePackets (tileSt s u) x) : PacketsKept s (setTile u x s) := by
  refine ⟨setTile_keeps (keeps_inv (by decide)) h, fun w => ?_⟩
  by_cases same : w = u
  · subst same
    rw [tileSt_setTile_same h]
    exact e
  · rw [tileSt_setTile_ne same]
    exact .refl _

theorem countQueries_kept (u : Nat) (x : TileSt) (h : Inv s) : PacketsKept s (countQueries u x s) :=
  .of_swp (countQueries_keeps (keeps_inv (by decide)) h) (countQueries_keeps (shows_swp (by decide)) rfl)

/-- What a tile's sequencer does leaves the packets and gathers of every tile. -/
theorem pumpTile_kept (u : Nat) (h : Inv s) : PacketsKept s (pumpTile u s) := by
  unfold pumpTile
  extract_lets x st fin
  have start : Pumps s x (s, x) := ⟨rfl, .refl x⟩
  have advanced : Pumps s x st := foldl_keeps (P := Pumps s x) (fun _ i h => advanceCand_pumps i h) _ _ start
  have filled : Pumps s x fin := fillFlight_pumps _ advanced
  have inv : Inv fin.1 := fillFlight_keeps (keeps_inv (by decide)) (foldl_keeps (P := fun q => Inv (Prod.fst q))
    (fun _ _ h => advanceCand_keeps (keeps_inv (by decide)) h) _ _ h)
  have same (w : Nat) : tileSt fin.1 w = tileSt s w := congrArg (tabGet TileSt.idle · w) filled.tiles
  have first : PacketsKept s fin.1 := ⟨inv, fun w => by rw [same]; exact .refl _⟩
  have put : PacketsKept fin.1 (setTile u fin.2 fin.1) := .setTile inv (by rw [same]; exact filled.packets)
  exact (first.trans put).trans (countQueries_kept u x put.inv)

end

end Sys2Proof.Machine

end

section

set_option Elab.async false

/-! # Gathers (R141, R221, R240) -/

namespace Sys2Proof.Machine

open Sys2Proof.Claims

/-! ## Issue -/

/-- The reads of a gather are as many as wait, up to the room. -/
theorem collectReads_length (k : Nat) (l : List Query) (room : Nat) :
    (collectReads k l room).1.length = min room (((l.filter fun q => q.stage = k).map (·.toIssue)).sum) := by
  induction l generalizing room with
  | nil => simp [collectReads]
  | cons q l ih =>
    rw [collectReads]
    split
    · rename_i h
      simp [ih, h.1]
      omega
    · rename_i h
      by_cases e : q.stage = k
      · simp [ih, e]
        have none : q.toIssue = 0 ∨ room = 0 := by omega
        omega
      · simp [ih, e]

/-- Each read is of a query that waits at the stage. -/
theorem collectReads_mem {k : Nat} {l : List Query} {room : Nat} {r : Nat × Nat × Nat × Nat} (h : r ∈ (collectReads k l room).1) :
    ∃ q ∈ l, q.stage = k ∧ ∃ n, r = (q.cand, q.pose, q.sphere, n) := by
  induction l generalizing room with
  | nil => exact absurd h List.not_mem_nil
  | cons q l ih =>
    have later {room : Nat} (h : r ∈ (collectReads k l room).1) : ∃ p ∈ q :: l, p.stage = k ∧ ∃ n, r = (p.cand, p.pose, p.sphere, n) := by
      obtain ⟨p, hp, e⟩ := ih h
      exact ⟨p, List.mem_cons_of_mem _ hp, e⟩
    rw [collectReads] at h
    split at h
    · rename_i at0
      rcases List.mem_append.mp h with h | h
      · obtain ⟨i, -, rfl⟩ := List.mem_map.mp h
        exact ⟨q, List.mem_cons_self, at0.1, _, rfl⟩
      · exact later h
    · exact later h

theorem waitingReads_of_due {s : State} {x : TileSt} {k : Nat} (h : dueKind s x = some k) : 1 ≤ waitingReads x k := by
  obtain ⟨q, hq, rfl⟩ := Option.map_eq_some_iff.mp h
  have due := List.find?_some hq
  have pos : 0 < q.toIssue := of_decide_eq_true (Bool.and_eq_true_iff.mp due).1
  have mem : q.toIssue ∈ (x.queue.filter fun p => p.stage = q.stage).map (·.toIssue) :=
    List.mem_map_of_mem (List.mem_filter.mpr ⟨List.mem_of_find?_eq_some hq, decide_eq_true rfl⟩)
  exact Nat.lt_of_lt_of_le pos (List.le_sum_of_mem mem)

theorem exec_gatherIssue (tile : TileId) {s : State} : exec (.gatherIssue tile) s = .next (fabric s fun s =>
    let x := tileSt s (tileUnit tile)
    match dueKind s x with
    | none => s
    | some k =>
      let r := collectReads k x.queue 16
      countTile (tileUnit tile) 0x0C (if r.1.length < 16 then 1 else 0) (countTile (tileUnit tile) 0x0B 1
        (setTile (tileUnit tile) { x with queue := r.2, gathers := x.gathers ++ [⟨k, r.1, s.time.count⟩] } s))) := rfl

theorem gatherIssueCollectsOneKind : GatherIssueCollectsOneKind := by
  intro tile s up inv x
  refine ⟨fun e => idle_fabric (exec_gatherIssue tile) ?_, fun k e => goes_fabric up (exec_gatherIssue tile) ?_⟩
  · simp only [x] at e
    simp only [e]
  · have waits := waitingReads_of_due e
    have len := collectReads_length k x.queue 16
    simp only [x] at e
    simp only [e]
    refine ⟨⟨k, (collectReads k x.queue 16).1, s.time.count⟩, ?_, rfl, rfl, ?_, len, fun r hr => collectReads_mem hr⟩
    · rw [tileSt_of_swp (countTile_keeps (shows_swp (by decide)) (countTile_keeps (shows_swp (by decide)) rfl)), tileSt_setTile_same inv]
    · rw [len]
      exact Nat.le_min.mpr ⟨by decide, waits⟩

/-! ## Answers -/

section
variable {s t : State}

theorem endRead_kept (u : Nat) (r : Nat × Nat × Nat × Nat) (h : Inv s) : PacketsKept s (endRead u r s) := by
  unfold endRead
  extract_lets x
  split
  · have counted : Inv (countSepia u s) := countSepia_keeps (keeps_inv (by decide)) h
    have same : (countSepia u s).swp = s.swp := countSepia_keeps (shows_swp (by decide)) rfl
    refine (PacketsKept.of_swp counted same).trans (.setTile counted ?_)
    rw [tileSt_of_swp same]
    exact sepiaContact_packets _ (.refl _)
  · exact .refl h

theorem answerElement_kept (u stage : Nat) (ups : List GatherUpset) (e : (Nat × Nat × Nat × Nat) × Nat) (h : Inv s) :
    PacketsKept s (answerElement u stage ups s e) := by
  unfold answerElement
  split
  · exact .refl h
  · extract_lets p a s1 beyond r s2
    have flipped {P : State → Prop} (C : Keeps [.data] P) (h : P s) : P s1 := by
      unfold s1
      split
      · exact applyFlips_keeps C h
      · exact h
    have probed {P : State → Prop} (C : Keeps [.indlog, .regs, .wld, .log, .queue, .mem, .data] P) (h : P s1) : P r.2 := by
      unfold r
      split
      · exact report_keeps (C.mono (by decide)) h
      · exact probeWord_keeps C h
    have read {P : State → Prop} (C : Keeps [.indlog, .regs, .wld, .log, .queue, .mem, .data] P) (h : P s) : P r.2 :=
      probed C (flipped (C.mono (by decide)) h)
    have late {P : State → Prop} (C : Keeps [.indlog, .regs, .frame, .wld, .log, .queue, .mem, .data] P) (h : P s) : P s2 :=
      ite_keeps (lateBrick_keeps (C.mono (by decide)) (read (C.mono (by decide)) h)) (read (C.mono (by decide)) h)
    refine ite_keeps (P := PacketsKept s) ?_ ?_
    · have told : PacketsKept s (sepiaElement u (readKind stage) e.1.1 e.2 a false r.2) :=
        .of_swp (sepiaElement_keeps (keeps_inv (by decide)) (read (keeps_inv (by decide)) h))
          (sepiaElement_keeps (shows_swp (by decide)) (read (shows_swp (by decide)) rfl))
      exact told.trans (endRead_kept u e.1 told.inv)
    · have seen : PacketsKept s s2 := .of_swp (late (keeps_inv (by decide)) h) (late (shows_swp (by decide)) rfl)
      exact seen.trans (.setTile seen.inv (answerRead_packets ..))

theorem foldl_kept {α : Type} {f : State → α → State} (step : ∀ t a, Inv t → PacketsKept t (f t a)) (l : List α) (h : Inv s) :
    PacketsKept s (l.foldl f s) :=
  foldl_keeps (P := PacketsKept s) (fun t a k => k.trans (step t a k.inv)) l s (.refl h)

/-- The frame is mixed-epoch, a doubt (R141). -/
def MixedEpoch (s : State) : Prop := s.frame.mixed = true ∧ s.frame.flags.getLsbD 5 = true

theorem lateBrick_mixes (s : State) : MixedEpoch (lateBrick s) := by
  have frame {t : State} {e : Event} : (setFlag F.WLD_ERR_STAT_LATE_EPOCH true (report e t)).frame = t.frame :=
    setFlag_keeps (shows_frame (by decide)) (report_keeps (shows_frame (by decide)) rfl)
  have mixed {t : State} (h : t.frame.mixed = true) : (markDoubt 5 t).frame.mixed = true := by
    unfold markDoubt
    exact ite_keeps (P := fun t => t.frame.mixed = true) h h
  unfold MixedEpoch lateBrick doubtEvent
  rw [frame]
  exact ⟨mixed rfl, markDoubt_marks (by decide) _⟩

theorem MixedEpoch.of_frame (h : MixedEpoch s) (e : t.frame = s.frame) : MixedEpoch t := by
  unfold MixedEpoch
  rw [e]
  exact h

/-- A frame that an answer has made mixed-epoch stays so in the answers after it. -/
theorem answerElement_mixed (u stage : Nat) (ups : List GatherUpset) (e : (Nat × Nat × Nat × Nat) × Nat) (h : MixedEpoch s) :
    MixedEpoch (answerElement u stage ups s e) := by
  unfold answerElement
  split
  · exact h
  · extract_lets p a s1 beyond r s2
    have flipped : s1.frame = s.frame := by
      unfold s1
      split
      · exact applyFlips_keeps (shows_frame (by decide)) rfl
      · rfl
    have read : r.2.frame = s.frame := by
      unfold r
      split
      · exact report_keeps (shows_frame (by decide)) flipped
      · exact probeWord_keeps (shows_frame (by decide)) flipped
    refine ite_keeps (P := MixedEpoch) ?_ ?_
    · exact h.of_frame (endRead_keeps (shows_frame (by decide)) (sepiaElement_keeps (shows_frame (by decide)) read))
    · have late : MixedEpoch s2 := ite_keeps (P := MixedEpoch) (lateBrick_mixes _) (h.of_frame read)
      exact late.of_frame (setTile_keeps (shows_frame (by decide)) rfl)

theorem probeWord_good {kind a : Nat} (h : wordSynd s a = 0) : probeWord kind a s = (true, s) := by
  unfold probeWord
  rw [h]
  rfl

/-- An answer from a good word of a brick of a later epoch makes the frame mixed-epoch (R141). -/
theorem answerElement_late {u stage : Nat} {r : Nat × Nat × Nat × Nat} {n : Nat} {c : CandCtx} (hc : candCtx s (unitDomain s u) r.1 = some c)
    (good : wordSynd s (readAddr s u (queryPoint s c r.2.1 r.2.2.1) stage r.2.2.2) = 0)
    (mem : memAt (readAddr s u (queryPoint s c r.2.1 r.2.2.1) stage r.2.2.2) ≠ none)
    (slot : readSlot s u (queryPoint s c r.2.1 r.2.2.1) stage ≤ 10239)
    (late : brickLate s u (queryPoint s c r.2.1 r.2.2.1) stage = true) : MixedEpoch (answerElement u stage [] s (r, n)) := by
  unfold answerElement
  simp only [hc, List.find?_nil, if_neg mem, probeWord_good good]
  have within : (decide (stage ≠ 0) && decide (readSlot s u (queryPoint s c r.2.1 r.2.2.1) stage > 10239)) = false := by
    rw [decide_eq_false (Nat.not_lt.mpr slot), Bool.and_false]
  rw [within, if_neg (by decide), if_pos late]
  exact (lateBrick_mixes s).of_frame (setTile_keeps (shows_frame (by decide)) rfl)

end

theorem exec_gatherAnswer (tile : TileId) (which : Nat) (ups : List GatherUpset) {s : State} :
    exec (.gatherAnswer tile which ups) s = .next (fabric s fun s =>
      let u := tileUnit tile
      match (tileSt s u).gathers[which]? with
      | none => s
      | some g =>
        let x := tileSt s u
        let s0 := setTile u { x with gathers := x.gathers.eraseIdx which } s
        pumpTile u (countQueries u x (g.reads.zipIdx.foldl (answerElement u g.stage ups) s0))) := rfl

/-- What is left to a gather that has no answer in time: its loss is told, and its reads end (R240). -/
def loseGather (u : Nat) (g : Gather) (a : Nat) (s : State) : State :=
  g.reads.foldl (fun s r => endRead u r s)
    (countTile u 0x13 g.reads.length (sepiaElement u (readKind g.stage) (g.reads.headD (0, 0, 0, 0)).1 0 a true s))

theorem exec_gatherTimeout (tile : TileId) (which : Nat) {s : State} :
    exec (.gatherTimeout tile which) s = .next (fabric s fun s =>
      let u := tileUnit tile
      match (tileSt s u).gathers[which]? with
      | none => s
      | some g =>
        if !gatherLate s u g then s
        else
          let x := tileSt s u
          let r := g.reads.headD (0, 0, 0, 0)
          let a := match candCtx s (unitDomain s u) r.1 with
            | some c => readAddr s u (queryPoint s c r.2.1 r.2.2.1) g.stage r.2.2.2
            | none => 0
          pumpTile u (countQueries u x (loseGather u g a (setTile u { x with gathers := x.gathers.eraseIdx which } s)))) := rfl

theorem loseGather_kept (u : Nat) (g : Gather) (a : Nat) {s : State} (h : Inv s) : PacketsKept s (loseGather u g a s) := by
  have told : PacketsKept s (countTile u 0x13 g.reads.length (sepiaElement u (readKind g.stage) (g.reads.headD (0, 0, 0, 0)).1 0 a true s)) :=
    .of_swp (countTile_keeps (keeps_inv (by decide)) (sepiaElement_keeps (keeps_inv (by decide)) h))
      (countTile_keeps (shows_swp (by decide)) (sepiaElement_keeps (shows_swp (by decide)) rfl))
  exact told.trans (foldl_kept (fun _ r k => endRead_kept u r k) _ told.inv)

theorem gathersEnd : GathersEnd := by
  intro tile which s up inv u x left
  refine ⟨fun e => ⟨fun ups => idle_fabric (exec_gatherAnswer ..) ?_, idle_fabric (exec_gatherTimeout ..) ?_⟩, fun g e => ?_⟩
  · simp only [x, u] at e
    simp only [e]
  · simp only [x, u] at e
    simp only [e]
  have leftInv : Inv (setTile u left s) := setTile_keeps (keeps_inv (by decide)) inv
  have ended {t : State} (k : PacketsKept (setTile u left s) t) : (tileSt (pumpTile u (countQueries u x t)) u).gathers = x.gathers.eraseIdx which := by
    have counted := k.trans (countQueries_kept u x k.inv)
    rw [((counted.trans (pumpTile_kept u counted.inv)).packets u).gathers, tileSt_setTile_same inv]
  have reads (ups : List GatherUpset) (l : List ((Nat × Nat × Nat × Nat) × Nat)) :
      PacketsKept (setTile u left s) (l.foldl (answerElement u g.stage ups) (setTile u left s)) :=
    foldl_kept (fun _ e k => answerElement_kept u g.stage ups e k) l leftInv
  have e' := e
  simp only [x, u] at e'
  refine ⟨fun ups => goes_fabric up (exec_gatherAnswer ..) ?_, fun late => goes_fabric up (exec_gatherTimeout ..) ?_,
    fun early => idle_fabric (exec_gatherTimeout ..) ?_, fun r rest c hr hc good mem slot late => goes_fabric up (exec_gatherAnswer ..) ?_⟩
  · simp only [e']
    exact ended (reads ups _)
  · simp only [u] at late
    simp only [e', late]
    exact ended (loseGather_kept _ _ _ leftInv)
  · simp only [u] at early
    simp only [e', early]
    rfl
  · simp only [e']
    rw [hr]
    have first := answerElement_late (n := 0) hc good mem slot late
    have all : MixedEpoch ((r :: rest).zipIdx.foldl (answerElement u g.stage []) (setTile u left s)) :=
      foldl_keeps (P := MixedEpoch) (fun _ e k => answerElement_mixed u g.stage [] e k) (rest.zipIdx 1) _ first
    exact all.of_frame (pumpTile_keeps (shows_frame (by decide)) (countQueries_keeps (shows_frame (by decide)) rfl))

/-- Settles O25. -/
theorem gathersIssueAndEnd : Obligations.GathersIssueAndEnd := ⟨gatherIssueCollectsOneKind, gathersEnd⟩

end Sys2Proof.Machine

end

section

set_option Elab.async false

/-! # Key packets (R229, R231, R264, R273) -/

namespace Sys2Proof.Machine

open Sys2Proof.Claims

section
variable {s t : State}

/-! ## Packets leave a tile -/

/-- Records keep their keys, tags and times on the way out. -/
theorem readOut_records (u n : Nat) (l : List KeyRec) (s : State) :
    (readOut u n l s).1.map (fun e => (e.key, e.tag, e.formed)) = l.map fun e => (e.key, e.tag, e.formed) := by
  induction l generalizing n s with
  | nil => rfl
  | cons e rest ih => simp [readOut, ih]

/-- Records whose words are good travel unmarked. -/
theorem readOut_good {u n : Nat} {l : List KeyRec} (good : ∀ i, 2 * n ≤ i → i < 2 * (n + l.length) → wordSynd s (scratchBase u + 0x64000 + 8 * i) = 0) :
    ∀ e ∈ (readOut u n l s).1, e.sepia = false := by
  induction l generalizing n with
  | nil => exact fun _ h => absurd h List.not_mem_nil
  | cons e rest ih =>
    have low : wordSynd s (scratchBase u + 0x64000 + 16 * n) = 0 := by
      have := good (2 * n) (by omega) (by rw [List.length_cons]; omega)
      rwa [← Nat.mul_assoc] at this
    have high : wordSynd s (scratchBase u + 0x64000 + 16 * n + 8) = 0 := by
      have := good (2 * n + 1) (by omega) (by rw [List.length_cons]; omega)
      rwa [Nat.mul_add, ← Nat.mul_assoc, ← Nat.add_assoc] at this
    have later := ih (n := n + 1) fun i lo hi => good i (by omega) (by rw [List.length_cons]; omega)
    simp only [readOut, probeWord_good low, probeWord_good high]
    simpa using later

theorem exec_flushLead : exec .flushLead s = .next (fabric s fun s =>
    if s.frame.started && flushDue s && !s.replay.active then { s with swp := { s.swp with single := true } } else s) := rfl

theorem exec_keyPacketSend (tile : TileId) : exec (.keyPacketSend tile) s = .next (fabric s fun s =>
    let u := tileUnit tile
    let x := tileSt s u
    let n := if s.swp.single then 1 else 8
    if x.out = [] ∨ s.swp.closed ∨ packetDue s x = false then s
    else
      let r := readOut u 0 (x.out.take n) s
      setTile u { x with out := x.out.drop n, offered := x.offered ++ [r.1] } r.2) := rfl

theorem keyPacketsAreOffered : KeyPacketsAreOffered := by
  intro s up inv
  refine ⟨fun st due rep => goes_fabric up exec_flushLead ?_, fun idle => idle_fabric exec_flushLead ?_, ?_⟩
  · rw [st, due, rep]
    rfl
  · refine if_neg fun h => ?_
    simp only [Bool.and_eq_true, Bool.not_eq_true'] at h
    obtain ⟨⟨st, due⟩, rep⟩ := h
    simp [st, due, rep] at idle
  intro tile x n
  refine ⟨fun idle => idle_fabric (exec_keyPacketSend tile) (if_pos idle), fun some running due => goes_fabric up (exec_keyPacketSend tile) ?_⟩
  · have goes : ¬(x.out = [] ∨ s.swp.closed = true ∨ packetDue s x = false) := by simp [some, running, due]
    simp only [x] at goes
    simp only [if_neg goes]
    have inv' : Inv (readOut (tileUnit tile) 0 (x.out.take n) s).2 := readOut_keeps (keeps_inv (by decide)) inv
    refine ⟨(readOut (tileUnit tile) 0 (x.out.take n) s).1, ?_, ?_, readOut_records .., fun good => readOut_good fun i _ hi => good i ?_⟩
    · rw [tileSt_setTile_same inv']
    · rw [tileSt_setTile_same inv']
    · have few : n ≤ 8 := by unfold n; split <;> decide
      have := List.length_take_le n x.out
      omega

/-! ## Lanes take them -/

theorem tabGet_of_mem {α : Type} {d : α} {t : Tab α} {e : Nat × α} (h : Tab.sorted t) (m : e ∈ t) : tabGet d t e.1 = e.2 := by
  induction t with
  | nil => exact absurd m List.not_mem_nil
  | cons p t ih =>
    obtain ⟨before, rest⟩ := List.pairwise_cons.mp h
    unfold tabGet
    rcases List.mem_cons.mp m with rfl | m
    · exact if_pos rfl
    · rw [if_neg (Nat.ne_of_gt (before e m))]
      exact ih rest m

theorem countAccepted_kept (e : KeyRec) (h : Inv s) : PacketsKept s (countAccepted s e) := by
  unfold countAccepted
  extract_lets u x c i
  have put : PacketsKept s (setTile u { x with
      freeKeys := x.freeKeys + if c then 0 else 1
      contactKeys := x.contactKeys + if c then 1 else 0
      winResolved := x.winResolved + if i then 0 else 1
      winContact := x.winContact + if c && !i then 1 else 0 } s) := .setTile h ⟨rfl, rfl⟩
  exact put.trans (.of_swp (countDie_keeps (keeps_inv (by decide)) (countTile_keeps (keeps_inv (by decide)) put.inv))
    (countDie_keeps (shows_swp (by decide)) (countTile_keeps (shows_swp (by decide)) rfl)))

/-- A lane takes the packet p from tile u, whose others are the rest. -/
def acceptPacket (lane u : Nat) (p : List KeyRec) (rest : List (List KeyRec)) (s : State) : State :=
  let s1 := setTile u { tileSt s u with offered := rest } s
  { s1 with sel := { s1.sel with
    fifos := modAt lane (· ++ p.map fun e => ⟨e, s.time.count⟩) s1.sel.fifos
    accepted := modAt lane (· + p.length) s1.sel.accepted } }

theorem acceptPacket_accepts {u : Nat} {p : List KeyRec} {rest : List (List KeyRec)} (lane : Fin 4) (h : (tileSt s u).offered = p :: rest) (inv : Inv s) :
    Inv (acceptPacket lane.val u p rest s) ∧
    (acceptPacket lane.val u p rest s).sel.fifos.getD lane.val [] = s.sel.fifos.getD lane.val [] ++ p.map (fun e => ⟨e, s.time.count⟩) ∧
    (tileSt (acceptPacket lane.val u p rest s) u).offered = rest := by
  have put : Inv (setTile u { tileSt s u with offered := rest } s) := setTile_keeps (keeps_inv (by decide)) inv
  have sel : (setTile u { tileSt s u with offered := rest } s).sel = s.sel := setTile_keeps (shows_sel (by decide)) rfl
  refine ⟨Keeps.upd_sel (W := [.sel]) (keeps_inv (by decide)) (by decide) put, ?_, ?_⟩
  · show (modAt lane.val _ (setTile u { tileSt s u with offered := rest } s).sel.fifos).getD lane.val [] = _
    rw [sel, getD_modAt_lt inv.shape.sel.1 lane.isLt]
  · show (tileSt (setTile u { tileSt s u with offered := rest } s) u).offered = rest
    rw [tileSt_setTile_same inv]

theorem exec_selectLaneAccept (lane : Fin 4) : exec (.selectLaneAccept lane) s = .next (fabric s fun s =>
    match s.swp.tiles.find? fun t => laneOf t.1 = lane.val ∧ t.2.offered ≠ [] with
    | none => s
    | some (u, _) =>
      match (tileSt s u).offered with
      | [] => s
      | p :: rest =>
        if s.swp.closed || decide ((s.sel.fifos.getD lane.val []).length + p.length > 4096) then s
        else
          let s1 := pumpTile u (p.foldl countAccepted (acceptPacket lane.val u p rest s))
          if sweepIdle s1 then phaseDone 1 s1 else s1) := rfl

theorem keyPacketsAreAccepted : KeyPacketsAreAccepted := by
  intro lane s up inv fifo
  refine ⟨fun idle => idle_fabric (exec_selectLaneAccept lane) ?_, fun u x p rest find off => ?_⟩
  · rcases idle with none | closed
    · rw [none]
    · split
      · rfl
      · split
        · rfl
        · exact if_pos (by rw [closed, Bool.true_or])
  have offered : (tileSt s u).offered = p :: rest := by
    rw [tileSt, tabGet_of_mem inv.shape.tiles (List.mem_of_find?_eq_some find)]
    exact off
  refine ⟨fun full => idle_fabric (exec_selectLaneAccept lane) ?_, fun isOpen room => goes_fabric up (exec_selectLaneAccept lane) ?_⟩
  · simp only [find, offered]
    refine if_pos ?_
    rw [decide_eq_true full, Bool.or_true]
  · simp only [find, offered]
    have goes : (s.swp.closed || decide ((s.sel.fifos.getD lane.val []).length + p.length > 4096)) = false := by
      rw [isOpen, decide_eq_false (Nat.not_lt.mpr room)]
      rfl
    rw [goes, if_neg (by decide)]
    have taken := acceptPacket_accepts (rest := rest) lane offered inv
    have counted : PacketsKept (acceptPacket lane.val u p rest s) (p.foldl countAccepted (acceptPacket lane.val u p rest s)) :=
      foldl_kept (fun _ e h => countAccepted_kept e h) p taken.1
    have sel : (p.foldl countAccepted (acceptPacket lane.val u p rest s)).sel = (acceptPacket lane.val u p rest s).sel :=
      foldl_keeps (P := fun t : State => t.sel = (acceptPacket lane.val u p rest s).sel)
        (fun _ e h => countAccepted_keeps (shows_sel (by decide)) h) p _ rfl
    have pumped := counted.trans (pumpTile_kept u counted.inv)
    have fifos : (pumpTile u (p.foldl countAccepted (acceptPacket lane.val u p rest s))).sel.fifos.getD lane.val [] =
        fifo ++ p.map (fun e => ⟨e, s.time.count⟩) := by
      rw [pumpTile_keeps (shows_sel (by decide)) sel]
      exact taken.2.1
    have left := ((pumped.packets u).offered).trans taken.2.2
    split
    · rw [phaseDone_keeps (shows_sel (by decide)) rfl, tileSt_of_swp (phaseDone_keeps (shows_swp (by decide)) rfl)]
      exact ⟨fifos, left⟩
    · exact ⟨fifos, left⟩

end

/-- Settles O26. -/
theorem keyPacketsTravel : Obligations.KeyPacketsTravel := ⟨keyPacketsAreOffered, keyPacketsAreAccepted⟩

end Sys2Proof.Machine

end

section

set_option Elab.async false

/-! # A tile's test under an operation without a context (R243 to R246)

The invariant does not bound the number of a long operation's context, and the status word of a context stands at its number's place
behind the first: that of context 0x103E44 is the word of the test failures of cluster 0. -/

namespace Sys2Proof.Machine

/-- A long operation of the context whose status word is that of the test failures of cluster 0. -/
def strayOp : LongOp := ⟨0x103E44, 0, 0, .running, .supervisor, 0, [], 0, 0, [], 0, 0, some 0, false, none⟩

/-- The machine runs, tile 0 is in its test slice, and its task is of that operation. -/
def strayTest : State :=
  { State.reset with
    pwr := { State.reset.pwr with phase := .running }
    image := { State.reset.image with opNodes := [(0, 0)] }
    frame := { State.reset.frame with testTile := some 0 }
    cnd := { State.reset.cnd with grants := [⟨0, 0, 0, none, none, none, 0⟩], ops := [strayOp] } }

theorem inv_strayTest : Inv strayTest := by
  obtain ⟨-, mem, queue, indigo, shape⟩ := resetStandsSafeAndWellFormed.1
  obtain ⟨ing, time, lanes, sel, cnd, tiles⟩ := shape
  exact ⟨⟨List.Pairwise.nil, fun _ h => absurd h List.not_mem_nil⟩, mem, queue, indigo, ⟨ing, time, lanes, sel, cnd, tiles⟩⟩

/-- The state that a mismatch leaves. -/
def mismatched (s : State) : State :=
  match exec (.testSliceDone .mismatch) s with
  | .next t => t
  | _ => s

theorem mismatched_of_exec {s t : State} (h : exec (.testSliceDone .mismatch) s = .next t) : mismatched s = t := by
  rw [mismatched, h]

/-- The abandoned work unit's status replaces the failure that was shown. -/
theorem strayTest_hides : maskBit (mismatched strayTest) (F.SWP_TEST_FAIL_FAIL 0) 0 = false := by decide +kernel

/-- Refutes O27: where tile 0 works on a long operation of context 0x103E44, a test that mismatches does not show as failed. -/
theorem not_levelTwoRewritesAndTileTests : ¬ Obligations.LevelTwoRewritesAndTileTests := by
  intro ⟨_, tests, _⟩
  have up : fabricUp strayTest = true := by decide +kernel
  obtain ⟨t, e, -, -, -, failed⟩ := ((tests .mismatch strayTest up inv_strayTest).2 0 (by decide) rfl).2 (by decide)
  rw [← mismatched_of_exec e] at failed
  exact absurd (strayTest_hides.symm.trans failed) (by decide)

end Sys2Proof.Machine

end

section

set_option Elab.async false

/-! # Select handles a record (R50, R51, R263 to R269, R281) -/

namespace Sys2Proof.Machine

open Sys2Proof.Claims

section
variable {s t : State} {lane : Fin 4} {e : KeyRec} {r : LaneRec} {rest : List LaneRec}

/-- A lane's FIFO without its first record. -/
def popRecord (lane : Fin 4) (rest : List LaneRec) (s : State) : State :=
  { s with sel := { s.sel with fifos := modAt lane.val (fun _ => rest) s.sel.fifos } }

theorem exec_selectRecord : exec (.selectRecord lane) s = .next (fabric s fun s =>
    match s.sel.fifos.getD lane.val [] with
    | [] => s
    | r :: rest => handleRecord lane.val r (popRecord lane rest s)) := rfl

theorem popRecord_inv (h : Inv s) : Inv (popRecord lane rest s) :=
  Keeps.upd_sel (W := [.sel]) (keeps_inv (by decide)) (by decide) h

theorem popRecord_pops (h : Inv s) : (popRecord lane rest s).sel.fifos.getD lane.val [] = rest :=
  getD_modAt_lt h.shape.sel.1 lane.isLt

/-- What keeps the FIFOs, the map and the lists after the record has left discards it. -/
theorem recordDiscarded_of (h : Inv s) (fifos : t.sel.fifos = (popRecord lane rest s).sel.fifos) (map : t.sel.map = s.sel.map)
    (lists : t.sel.lists = s.sel.lists) (passed : t.sel.passed = s.sel.passed) : RecordDiscarded lane rest s t :=
  ⟨by rw [fifos, popRecord_pops h], map, lists, passed⟩

theorem recordDiscarded_of_sel (h : Inv s) (sel : t.sel = (popRecord lane rest s).sel) : RecordDiscarded lane rest s t :=
  recordDiscarded_of h (by rw [sel]) (by rw [sel]; rfl) (by rw [sel]; rfl) (by rw [sel]; rfl)

/-! ## Bad records -/

theorem badRecord_sel (kind lane : Nat) (e : KeyRec) (s : State) : (badRecord kind lane e s).sel = s.sel :=
  badRecord_keeps (shows_sel (by decide)) rfl

/-- What a bad record shows before it is counted. -/
def showBad (kind lane : Nat) (e : KeyRec) (s : State) : State :=
  capture F.SEL_FAULT_CAP_VALID
    [(F.SEL_FAULT_CAP_KIND, kind), (F.SEL_FAULT_CAP_LANE, lane), (F.SEL_FAULT_CAP_TILE, tagTile e.tag),
     (F.SEL_FAULT_CAP_CAND, keyIndex e.key)] (report (uncoded .selectRecord 0x80 .warning) s)

theorem badRecord_eq (kind lane : Nat) (e : KeyRec) (s : State) : badRecord kind lane e s =
    if kind < 3 then bump F.SEL_DROP_CNT_1_BAD (showBad kind lane e s) else showBad kind lane e s := rfl

theorem showBad_regs (kind lane : Nat) (e : KeyRec) (s : State) :
    SameRegsBut [F.WDN_FLOG_STAT_SEQ.addr, F.SEL_FAULT_CAP_VALID.addr] s (showBad kind lane e s) := by
  refine SameRegsBut.capture (SameRegsBut.report (.refl _ s) (by decide)) (by decide) ?_
  simp only [List.forall_mem_cons]
  exact ⟨by decide, by decide, by decide, by decide, fun _ h => absurd h List.not_mem_nil⟩

theorem badRecord_counted {kind : Nat} (k : kind < 3) (lane : Nat) (e : KeyRec) (h : Inv s) :
    Counted F.SEL_DROP_CNT_1_BAD s (badRecord kind lane e s) := by
  have inv : Inv (showBad kind lane e s) := capture_keeps (keeps_inv (by decide)) (report_keeps (keeps_inv (by decide)) h)
  rw [badRecord_eq, if_pos k, Counted, counted_bump inv.regs (by decide), (showBad_regs kind lane e s).fld (by decide)]

theorem badRecord_recorded (lane : Nat) (e : KeyRec) (room : s.log.queue.length < 256) :
    Recorded (badRecord 3 lane e s) 0x80 (uncoded .selectRecord 0 .warning).cls (uncoded .selectRecord 0 .warning).ev 1 := by
  have queue : (showBad 3 lane e s).log = (report (uncoded .selectRecord 0x80 .warning) s).log := capture_keeps (shows_log (by decide)) rfl
  rw [badRecord_eq, if_neg (by decide), Recorded, queue]
  exact report_recorded room

/-- A record that counts as bad after it has left its FIFO. -/
theorem badRecord_discards {kind : Nat} (k : kind < 3) (lane : Fin 4) (e : KeyRec) (h : Inv s) :
    RecordDiscarded lane rest s (badRecord kind lane.val e (popRecord lane rest s)) ∧
      Counted F.SEL_DROP_CNT_1_BAD s (badRecord kind lane.val e (popRecord lane rest s)) :=
  ⟨recordDiscarded_of_sel h (badRecord_sel ..), (badRecord_counted k lane.val e (popRecord_inv h) :)⟩

/-! ## The checks in their order -/

theorem handleRecord_late (l : Nat) (late : s.frame.edgeTick + hardStop s 1 ≤ r.accepted ∧ ¬ s.replay.active = true) :
    (handleRecord l r s).sel = { s.sel with late := s.sel.late + 1 } := by
  refine (congrArg State.sel (if_pos late)).trans ?_
  exact countDie_keeps (shows_sel (by decide)) rfl

variable (early : ¬(s.frame.edgeTick + hardStop s 1 ≤ r.accepted ∧ ¬ s.replay.active = true))
include early

theorem handleRecord_sepia (l : Nat) (sepia : r.entry.sepia = true) : handleRecord l r s = badRecord 3 l r.entry s :=
  (if_neg early).trans (if_pos sepia)

variable (clean : ¬ r.entry.sepia = true)
include clean

theorem handleRecord_stale (l : Nat) (stale : tagFrame r.entry.tag ≠ frameN s % 64) :
    handleRecord l r s = { s with sel := { s.sel with stale := s.sel.stale + 1 } } :=
  (if_neg early).trans ((if_neg clean).trans (if_pos stale))

variable (now : tagFrame r.entry.tag = frameN s % 64)
include now

theorem handleRecord_unknown (l : Nat) (none : (domSweep s (tagDomain r.entry.tag)).cands[keyIndex r.entry.key]? = none) :
    handleRecord l r s = badRecord 0 l r.entry s := by
  refine (if_neg early).trans ((if_neg clean).trans ((if_neg (not_not.mpr now)).trans ?_))
  simp only [none]

/-- A record whose candidate the frame has, and whose word of the client map is good. -/
theorem handleRecord_known (l : Nat) {c : Cand} (some : (domSweep s (tagDomain r.entry.tag)).cands[keyIndex r.entry.key]? = some c)
    (good : wordSynd s (clientMapAddr (domFirst s (tagDomain r.entry.tag) + keyIndex r.entry.key)) = 0)
    (fresh : s.sel.spoiled.contains (mapKey (tagDomain r.entry.tag) (keyIndex r.entry.key)) = false) :
    handleRecord l r s =
      if cliDomain s c.client ≠ tagDomain r.entry.tag then badRecord 0 l r.entry s
      else handleMapped l r.entry (tagDomain r.entry.tag) (keyIndex r.entry.key) c s := by
  refine (if_neg early).trans ((if_neg clean).trans ((if_neg (not_not.mpr now)).trans ?_))
  simp only [some, readMapWord, probeWord_good good, if_true, fresh, Bool.not_false, Bool.not_true]
  rfl

end

section
variable {s : State} {l d i : Nat} {e : KeyRec} {c : Cand}

/-- A key that is none (R265): neither a merit nor a cause. -/
def noKey (e : KeyRec) : Bool :=
  (!keyContact e.key && decide (e.key / 2 ^ 32 = 0xFFFFFFFF)) || (keyContact e.key && decide (keyCause e.key ≥ 10))

theorem handleMapped_quarantined (h : tagTile e.tag ∈ s.frame.quarantined) :
    handleMapped l e d i c s = { s with sel := { s.sel with quar := s.sel.quar + 1 } } := if_pos (List.contains_iff_mem.mpr h)

variable (own : tagTile e.tag ∉ s.frame.quarantined)
include own

theorem handleMapped_noKey (h : noKey e = true) : handleMapped l e d i c s = badRecord 1 l e s :=
  (if_neg (mt List.contains_iff_mem.mp own)).trans (if_pos h)

variable (key : noKey e = false) (good : wordSynd s (resolutionAddr (domFirst s d + i)) = 0) (fresh : s.sel.spoiled.contains (mapKey d i) = false)
include key good fresh

theorem handleMapped_again (h : isResolved s d i = true) :
    handleMapped l e d i c s = badRecord 2 l e (dropKey d i (clearResolved d i s)) := by
  refine (if_neg (mt List.contains_iff_mem.mp own)).trans ((if_neg (by rw [← noKey, key]; decide)).trans ?_)
  simp only [readMapWord, probeWord_good good, if_true, fresh, Bool.not_false, Bool.not_true, h]
  rfl

end

/-- The map of resolutions shows a record (R266). -/
def showResolution (e : KeyRec) (s : State) : State :=
  { s with sel := { s.sel with
    map := tabPut 0 s.sel.map (mapKey (tagDomain e.tag) (keyIndex e.key)) (resolvedByte e.key (tagTile e.tag)) } }

theorem handleMapped_resolves {s : State} {l : Nat} {e : KeyRec} {c : Cand} (own : tagTile e.tag ∉ s.frame.quarantined) (key : noKey e = false)
    (good : wordSynd s (resolutionAddr (domFirst s (tagDomain e.tag) + keyIndex e.key)) = 0)
    (fresh : s.sel.spoiled.contains (mapKey (tagDomain e.tag) (keyIndex e.key)) = false)
    (first : isResolved s (tagDomain e.tag) (keyIndex e.key) = false) :
    handleMapped l e (tagDomain e.tag) (keyIndex e.key) c s = routeKey l e c (showResolution e s) := by
  refine (if_neg (mt List.contains_iff_mem.mp own)).trans ((if_neg (by rw [← noKey, key]; decide)).trans ?_)
  simp only [readMapWord, probeWord_good good, if_true, fresh, Bool.not_false, Bool.not_true, first]
  rfl

/-! ## Resolutions -/

section
variable {s : State} {d i : Nat}

/-- A bit that is set is clear when its value is taken away. -/
theorem testBit_sub_two_pow {m i : Nat} (h : m.testBit i = true) : (m - 2 ^ i).testBit i = false := by
  rw [Nat.testBit_eq_decide_div_mod_eq] at h ⊢
  have odd := of_decide_eq_true h
  have less := Nat.sub_mul_div m (2 ^ i) 1
  rw [Nat.mul_one] at less
  rw [less]
  exact decide_eq_false (by omega)

/-- A candidate that was resolved is not any more. -/
theorem clearResolved_clears (h : Inv s) : isResolved (clearResolved d i s) d i = false := by
  unfold clearResolved
  split
  · rename_i m
    show (tabGet 0 (tabPut 0 s.sel.map (mapKey d i) (mapByte s d i - 128)) (mapKey d i)).testBit 7 = false
    rw [tabGet_tabPut_same h.shape.sel.2.1]
    exact testBit_sub_two_pow (i := 7) m
  · exact Bool.eq_false_iff.mpr ‹_›

theorem clearResolved_fifos : (clearResolved d i s).sel.fifos = s.sel.fifos :=
  ite_keeps (P := fun t : State => t.sel.fifos = s.sel.fifos) rfl rfl

end

/-! ## Records that resolve -/

section
variable {s : State} {lane : Fin 4} {e : KeyRec} {rest : List LaneRec} {c : Cand}

/-- Where R263 sends the key of a record that resolves its candidate. -/
theorem routeKey_routes (h : Inv s) :
    let d := tagDomain e.tag
    let i := keyIndex e.key
    let t := routeKey lane.val e c (showResolution e (popRecord lane rest s))
    let mine := fun (l : SelList) => decide (l.client = c.client) && (decide (d = 0) || !l.motion)
    t.sel.fifos.getD lane.val [] = rest ∧ tabGet 0 t.sel.map (mapKey d i) = resolvedByte e.key (tagTile e.tag) ∧
    (c.kind = 2 → tabGet 0 t.sel.passed (mapKey d i) = e.key + 1 ∧ t.sel.lists = s.sel.lists) ∧
    (c.kind ≠ 2 → t.sel.passed = s.sel.passed ∧ t.sel.lists = if keyContact e.key then s.sel.lists
      else s.sel.lists.map fun l => if mine l then addToList lane.val e l else l) := by
  intro d i t _
  have pops := popRecord_pops (lane := lane) (rest := rest) h
  have shows : tabGet 0 (tabPut 0 s.sel.map (mapKey d i) (resolvedByte e.key (tagTile e.tag))) (mapKey d i) = resolvedByte e.key (tagTile e.tag) :=
    tabGet_tabPut_same h.shape.sel.2.1
  unfold t routeKey
  extract_lets
  by_cases passes : c.kind = 2
  · rw [if_pos passes]
    exact ⟨pops, shows, fun _ => ⟨tabGet_tabPut_same h.shape.sel.2.2, rfl⟩, fun no => absurd passes no⟩
  · rw [if_neg passes]
    by_cases contact : keyContact e.key = true
    · rw [if_pos contact]
      exact ⟨pops, shows, fun no => absurd no passes, fun _ => ⟨rfl, (if_pos contact).symm⟩⟩
    · rw [if_neg contact, countDie_keeps (shows_sel (by decide)) rfl]
      exact ⟨pops, shows, fun no => absurd no passes, fun _ => ⟨rfl, (if_neg contact).symm⟩⟩

theorem recordResolves {r : LaneRec} (up : fabricUp s = true) (h : Inv s) (off : s.sel.fifos.getD lane.val [] = r :: rest)
    (handled : handleRecord lane.val r (popRecord lane rest s) =
      if cliDomain s c.client ≠ tagDomain r.entry.tag then badRecord 0 lane.val r.entry (popRecord lane rest s)
      else handleMapped lane.val r.entry (tagDomain r.entry.tag) (keyIndex r.entry.key) c (popRecord lane rest s))
    (fresh : s.sel.spoiled.contains (mapKey (tagDomain r.entry.tag) (keyIndex r.entry.key)) = false) :
    RecordResolves lane r.entry c rest s := by
  have goes {Q : State → Prop} (q : Q (handleRecord lane.val r (popRecord lane rest s))) : Goes (.selectRecord lane) s Q :=
    goes_fabric up exec_selectRecord (by simp only [off]; exact q)
  refine ⟨fun other => goes ?_, fun mine => ?_⟩
  · rw [handled, if_pos other]
    exact badRecord_discards (by decide) lane _ h
  · rw [if_neg (not_not.mpr mine)] at handled
    rw [handled] at goes
    refine ⟨fun quar => goes ?_, fun own => ⟨fun bad => goes ?_, fun key good => ⟨fun again => goes ?_, fun first => goes ?_⟩⟩⟩
    · rw [handleMapped_quarantined (s := popRecord lane rest s) quar]
      exact ⟨recordDiscarded_of h rfl rfl rfl rfl, rfl⟩
    · rw [handleMapped_noKey (s := popRecord lane rest s) own bad]
      exact badRecord_discards (by decide) lane _ h
    · rw [handleMapped_again (s := popRecord lane rest s) own key good fresh again]
      have inv : Inv (popRecord lane rest s) := popRecord_inv h
      have cleared : Inv (dropKey (tagDomain r.entry.tag) (keyIndex r.entry.key) (clearResolved (tagDomain r.entry.tag) (keyIndex r.entry.key)
          (popRecord lane rest s))) := dropKey_keeps (keeps_inv (by decide)) (clearResolved_keeps (keeps_inv (by decide)) inv)
      refine ⟨?_, ?_, ?_⟩
      · rw [badRecord_sel]
        exact (congrArg (·.getD lane.val []) clearResolved_fifos).trans (popRecord_pops h)
      · rw [isResolved, mapByte, badRecord_sel]
        exact clearResolved_clears inv
      · rw [Counted, badRecord_counted (by decide) lane.val _ cleared]
        have same : (dropKey (tagDomain r.entry.tag) (keyIndex r.entry.key) (clearResolved (tagDomain r.entry.tag) (keyIndex r.entry.key)
            (popRecord lane rest s))).regs = s.regs := dropKey_keeps (shows_regs (by decide)) (clearResolved_keeps (shows_regs (by decide)) rfl)
        have image : (dropKey (tagDomain r.entry.tag) (keyIndex r.entry.key) (clearResolved (tagDomain r.entry.tag) (keyIndex r.entry.key)
            (popRecord lane rest s))).image = s.image := dropKey_keeps (shows_image (by decide)) (clearResolved_keeps (shows_image (by decide)) rfl)
        rw [fld, regWord_congr image same]
        rfl
    · rw [handleMapped_resolves (s := popRecord lane rest s) own key good fresh first]
      exact routeKey_routes h

end

/-- Settles O28. -/
theorem selectRecordChecksInOrder : Obligations.SelectRecordChecksInOrder := by
  unfold Obligations.SelectRecordChecksInOrder
  intro lane s up h
  refine ⟨fun empty => idle_fabric exec_selectRecord (by simp only [empty]), fun r rest off => ?_⟩
  intro late d i out
  have goes {Q : State → Prop} (q : Q (handleRecord lane.val r (popRecord lane rest s))) : Goes (.selectRecord lane) s Q :=
    goes_fabric up exec_selectRecord (by simp only [off]; exact q)
  have inactive : s.replay.active = false ↔ ¬ s.replay.active = true := Bool.eq_false_iff
  refine ⟨fun l => goes ?_, fun l sepia => goes ?_, fun l clean => ?_⟩
  · have sel := handleRecord_late (s := popRecord lane rest s) lane.val ⟨l.1, inactive.mp l.2⟩
    exact ⟨recordDiscarded_of h (by rw [sel]) (by rw [sel]; rfl) (by rw [sel]; rfl) (by rw [sel]; rfl), by rw [sel]; rfl⟩
  · have early : ¬(s.frame.edgeTick + hardStop s 1 ≤ r.accepted ∧ ¬ s.replay.active = true) := fun k => l ⟨k.1, inactive.mpr k.2⟩
    rw [handleRecord_sepia (s := popRecord lane rest s) early lane.val sepia]
    exact ⟨recordDiscarded_of_sel h (badRecord_sel ..), fun room => badRecord_recorded (s := popRecord lane rest s) _ _ room⟩
  · have early : ¬(s.frame.edgeTick + hardStop s 1 ≤ r.accepted ∧ ¬ s.replay.active = true) := fun k => l ⟨k.1, inactive.mpr k.2⟩
    have clean : ¬ r.entry.sepia = true := Bool.eq_false_iff.mp clean
    refine ⟨fun stale => goes ?_, fun now => ⟨fun none => goes ?_, fun c some good fresh => ?_⟩⟩
    · rw [handleRecord_stale (s := popRecord lane rest s) early clean lane.val stale]
      exact ⟨recordDiscarded_of h rfl rfl rfl rfl, rfl⟩
    · rw [handleRecord_unknown (s := popRecord lane rest s) early clean now lane.val none]
      exact badRecord_discards (by decide) lane _ h
    · exact recordResolves up h off (handleRecord_known (s := popRecord lane rest s) early clean now lane.val some good fresh) fresh

end Sys2Proof.Machine

end

section

set_option Elab.async false

/-! # Select's notices, its test and the merge (R25, R267, R273, R275, R280, R281) -/

namespace Sys2Proof.Machine

open Sys2Proof.Claims

section
variable {s t u : State}

/-! ## What handling records leaves of Select -/

/-- From s to t Select's FIFOs and the entries that stand for the Solver are the same. -/
structure SameHand (s t : State) : Prop where
  fifos : t.sel.fifos = s.sel.fifos
  top : t.sel.top = s.sel.top

theorem SameHand.refl (s : State) : SameHand s s := ⟨rfl, rfl⟩

theorem SameHand.of_sel (h : SameHand s t) (e : u.sel = t.sel) : SameHand s u := ⟨by rw [e, h.fifos], by rw [e, h.top]⟩

theorem keeps_hand {W : List Part} (h : ∀ p ∈ W, p ∉ ([.sel, .cold] : List Part)) : Keeps W (SameHand s) := by
  have e : SameHand s = fun t => t.sel.fifos = s.sel.fifos ∧ t.sel.top = s.sel.top :=
    funext fun t => propext ⟨fun k => ⟨k.fifos, k.top⟩, fun k => ⟨k.1, k.2⟩⟩
  rw [e]
  exact .of_shows (f := State.sel) (fun _ => shows_sel h) fun x => x.fifos = s.sel.fifos ∧ x.top = s.sel.top

theorem clearResolved_hand (d i : Nat) (h : SameHand s t) : SameHand s (clearResolved d i t) :=
  ite_keeps (P := SameHand s) ⟨h.fifos, h.top⟩ h

theorem dropKey_hand (d i : Nat) (h : SameHand s t) : SameHand s (dropKey d i t) := ⟨h.fifos, h.top⟩

theorem badRecord_hand (kind lane : Nat) (e : KeyRec) (h : SameHand s t) : SameHand s (badRecord kind lane e t) := h.of_sel (badRecord_sel ..)

theorem spoilWord_hand (first n : Nat) (h : SameHand s t) : SameHand s (spoilWord first n t) := by
  unfold spoilWord
  extract_lets hit t1
  have cleared : SameHand s t1 := foldl_keeps (P := SameHand s) (fun _ c k => dropKey_hand _ _ (clearResolved_hand c.1 c.2 k)) _ _ h
  exact report_keeps (keeps_hand (by decide)) ⟨cleared.fifos, cleared.top⟩

theorem readMapWord_hand (a first n d i : Nat) (h : SameHand s t) : SameHand s (readMapWord a first n d i t).2 := by
  have read : SameHand s (probeWord 1 a t).2 := h.of_sel (probeWord_keeps (shows_sel (by decide)) rfl)
  exact ite_keeps (P := SameHand s) read (spoilWord_hand _ _ read)

theorem routeKey_hand (lane : Nat) (e : KeyRec) (c : Cand) (h : SameHand s t) : SameHand s (routeKey lane e c t) := by
  have lists (l : List SelList) (n : Nat) : SameHand s (countDie 0x81 n { t with sel := { t.sel with lists := l } }) :=
    countDie_keeps (keeps_hand (by decide)) ⟨h.fifos, h.top⟩
  exact ite_keeps (P := SameHand s) ⟨h.fifos, h.top⟩ (ite_keeps (P := SameHand s) h (lists _ _))

theorem handleMapped_hand (lane : Nat) (e : KeyRec) (d i : Nat) (c : Cand) (h : SameHand s t) : SameHand s (handleMapped lane e d i c t) := by
  have read (a m k : Nat) : SameHand s (readMapWord a m k d i t).2 := readMapWord_hand a m k d i h
  refine ite_keeps (P := SameHand s) ⟨h.fifos, h.top⟩ (ite_keeps (P := SameHand s) (badRecord_hand _ _ _ h) (ite_keeps (P := SameHand s) (read ..)
    (ite_keeps (P := SameHand s) (badRecord_hand _ _ _ (dropKey_hand _ _ (clearResolved_hand _ _ (read ..))))
      (routeKey_hand _ _ _ ⟨(read ..).fifos, (read ..).top⟩))))

theorem handleRecord_hand (lane : Nat) (r : LaneRec) (h : SameHand s t) : SameHand s (handleRecord lane r t) := by
  unfold handleRecord
  extract_lets
  refine ite_keeps (P := SameHand s) ?_ (ite_keeps (P := SameHand s) (badRecord_hand _ _ _ h) (ite_keeps (P := SameHand s) ⟨h.fifos, h.top⟩ ?_))
  · exact countDie_keeps (keeps_hand (by decide)) ⟨h.fifos, h.top⟩
  · split
    · exact badRecord_hand _ _ _ h
    · have read (a m k d i : Nat) : SameHand s (readMapWord a m k d i t).2 := readMapWord_hand a m k d i h
      exact ite_keeps (P := SameHand s) (read ..) (ite_keeps (P := SameHand s) (badRecord_hand _ _ _ (read ..)) (handleMapped_hand _ _ _ _ _ (read ..)))

/-! ## The merge -/

theorem drainFifos_hand (s : State) : SameHand { s with sel := { s.sel with fifos := [[], [], [], []] } } (drainFifos s) :=
  foldl_keeps (P := SameHand _) (fun _ _ k => foldl_keeps (P := SameHand _) (fun _ r k => handleRecord_hand _ r k) _ _ k) _ _ (.refl _)

theorem checkList_hand (n : Nat) (l : SelList) (h : SameHand s t) : SameHand s (checkList n l t).2 := by
  unfold checkList
  extract_lets all bad gone t1
  have checked : SameHand s t1 := foldl_keeps (P := SameHand s) (fun _ e k => SameHand.of_sel
    (clearResolved_hand _ _ (k.of_sel (probeWord_keeps (shows_sel (by decide)) (probeWord_keeps (shows_sel (by decide)) rfl)))) report_sel) _ _ h
  exact ite_holds (P := fun p : SelList × State => SameHand s p.2) h checked

theorem checkLists_hand (h : SameHand s t) : SameHand s (checkLists t) := by
  unfold checkLists
  refine ite_keeps (P := SameHand s) h ?_
  extract_lets r
  have checked : SameHand s r.2.2 := foldl_keeps (P := fun p : List SelList × Nat × State => SameHand s p.2.2)
    (fun p l k => checkList_hand p.2.1 l k) _ _ h
  exact ⟨checked.fifos, checked.top⟩

/-- The FIFOs are empty, and at most four entries stand for the Solver, or those of before. -/
def HandsOver (s t : State) : Prop := (∀ f ∈ t.sel.fifos, f = []) ∧ (t.sel.top.length ≤ 4 ∨ t.sel.top = s.sel.top)

theorem HandsOver.of_sel (h : HandsOver s t) (e : u.sel = t.sel) : HandsOver s u := by
  unfold HandsOver
  rw [e]
  exact h

theorem handOver_hands (l : SelList) (n : Option Nat) (h : HandsOver s t) : HandsOver s (handOver l n t) := by
  unfold handOver
  extract_lets es top show1
  have taken : HandsOver s { t with sel := { t.sel with top := top } } := ⟨h.1, .inl (List.length_take_le 4 es)⟩
  refine taken.of_sel (takeEntries_keeps (shows_sel (by decide)) (setFld_keeps (shows_sel (by decide)) ?_))
  exact foldl_keeps (P := fun u : State => u.sel = { t.sel with top := top })
    (fun _ _ k => setFld_keeps (shows_sel (by decide)) (setFld_keeps (shows_sel (by decide)) k)) _ _ rfl

theorem deliverLists_hands (n : Option Nat) (ls : List SelList) (h : HandsOver s t) : HandsOver s (deliverLists n ls t) :=
  foldl_keeps (P := HandsOver s) (fun _ l k => ite_keeps (P := HandsOver s) (handOver_hands l n k)
    (k.of_sel (answerGoal_keeps (shows_sel (by decide)) rfl))) ls t h

/-- What is left to the merge when the lists are delivered. -/
def endMerge (s : State) : State := finishSelect (phaseDone 2 { s with sel := { s.sel with merged := true } })

theorem finishSelect_sel (s : State) : ∃ n, (finishSelect s).sel = { s.sel with numbers := n } := by
  unfold finishSelect
  extract_lets due t1 t2
  have checked : t1.sel = s.sel :=
    foldl_keeps (P := fun u : State => u.sel = s.sel) (fun _ r k => answerCheck_keeps (r_2 := r) (shows_sel (by decide)) k) _ _ rfl
  have answered : t2.sel = s.sel :=
    foldl_keeps (P := fun u : State => u.sel = s.sel) (fun _ r k => answerWatch_keeps (r_2 := r) (shows_sel (by decide)) k) _ _ checked
  exact ⟨(List.range 16).map fun d => numbersOf t2 d, congrArg (fun x : SelSt => { x with numbers := (List.range 16).map fun d => numbersOf t2 d }) answered⟩

theorem endMerge_hands (h : HandsOver s t) : (endMerge t).sel.merged = true ∧ HandsOver s (endMerge t) := by
  have marked : (phaseDone 2 { t with sel := { t.sel with merged := true } }).sel = { t.sel with merged := true } :=
    phaseDone_keeps (shows_sel (by decide)) rfl
  obtain ⟨n, sel⟩ := finishSelect_sel (phaseDone 2 { t with sel := { t.sel with merged := true } })
  unfold HandsOver endMerge
  rw [sel, marked]
  exact ⟨rfl, h⟩

theorem exec_mergeDone : exec .mergeDone s = .next (fabric s fun s =>
    if !(s.swp.closed || (s.replay.active && sweepIdle s)) || s.sel.merged || s.frame.stopped.getD 2 false then s
    else
      let s1 := checkLists (drainFifos s)
      endMerge (deliverLists (some (s1.time.count - s1.frame.edgeTick)) (mergeOrder s1) s1)) := rfl

theorem mergeHandsOverAtMostFour : MergeHandsOverAtMostFour := by
  intro s up inv due
  have guard : (!(s.swp.closed || (s.replay.active && sweepIdle s)) || s.sel.merged || s.frame.stopped.getD 2 false) = !decide due := by
    unfold due
    cases s.swp.closed <;> cases s.replay.active <;> cases sweepIdle s <;> cases s.sel.merged <;> cases s.frame.stopped.getD 2 false <;> decide
  refine ⟨fun h => goes_fabric up exec_mergeDone ?_, fun h => idle_fabric exec_mergeDone (if_pos ?_)⟩
  · rw [guard, decide_eq_true h]
    have drained := checkLists_hand (drainFifos_hand s)
    have empty : HandsOver s (checkLists (drainFifos s)) := by
      refine ⟨?_, .inr drained.top⟩
      rw [drained.fifos]
      simp
    exact endMerge_hands (deliverLists_hands _ _ empty)
  · rw [guard, decide_eq_false h]
    rfl

/-! ## Quarantine notices -/

theorem exec_quarantineNotice (tile : TileId) : exec (.quarantineNotice tile) s = .next (fabric s fun s =>
    if !s.frame.quarantined.contains (tileUnit tile) then s
    else
      let own := fun (e : Nat × Nat) => decide (tagTile e.2 = tileUnit tile)
      let thin := fun (l : SelList) =>
        { l with
          short := l.short || (decide (l.k > 256) && l.pieces.any fun p => p.2.any own)
          pieces := (l.pieces.map fun p => (p.1, p.2.filter fun e => !own e)).filter fun p => p.2 ≠ [] }
      let hit := fun (m : Nat × Nat) => m.2.testBit 7 && decide (m.2 % 64 = tileUnit tile)
      { s with sel := { s.sel with
          lists := s.sel.lists.map thin
          passed := s.sel.passed.filter fun p => !s.sel.map.any fun m => decide (m.1 = p.1) && hit m
          map := s.sel.map.map fun m => if hit m then (m.1, m.2 - 128) else m
          quar := s.sel.quar + (s.sel.map.filter hit).length } }) := rfl

theorem quarantineNotices : QuarantineNotices := by
  intro tile s up
  refine ⟨fun own => goes_fabric up (exec_quarantineNotice tile) ?_, fun other => idle_fabric (exec_quarantineNotice tile) (if_pos (by rw [other]; rfl))⟩
  rw [own]
  refine ⟨fun l hl p hp e he => ?_, fun m hm => ?_, rfl⟩
  · obtain ⟨l, -, rfl⟩ := List.mem_map.mp hl
    obtain ⟨q, -, rfl⟩ := List.mem_map.mp (List.mem_filter.mp hp).1
    have kept := (List.mem_filter.mp he).2
    simpa using kept
  · obtain ⟨m, -, rfl⟩ := List.mem_map.mp hm
    by_cases hit : (m.2.testBit 7 && decide (m.2 % 64 = tileUnit tile)) = true
    · rw [if_pos hit]
      have cleared := testBit_sub_two_pow (i := 7) (Bool.and_eq_true_iff.mp hit).1
      exact fun k => absurd (cleared.symm.trans k.1) (by decide)
    · rw [if_neg hit]
      exact fun k => hit (by rw [k.1, decide_eq_true k.2]; rfl)

/-! ## Select's test -/

/-- The restarts of the window are counted alike where the Warden's settings are the same. -/
theorem SameSettings.restarts (h : SameSettings s t) (safe : t.safe = s.safe) (time : t.time = s.time) : restartsInWindow t = restartsInWindow s := by
  unfold restartsInWindow
  rw [h.fld (by decide) (by decide), safe, time]

/-- A restart that begins is in its first step, for the trigger. -/
theorem beginRestart_restart (tr : RestartTrigger) (d : Bool) (s : State) :
    ∃ r, (beginRestart tr d s).safe.restart = some r ∧ r.trigger = tr ∧ r.phase = .halted := by
  unfold beginRestart
  extract_lets s2
  exact ⟨⟨tr, s2.time.count, .halted, []⟩, congrArg SafeSt.restart (setSat_keeps (shows_safe (by decide)) (setFlag_keeps (shows_safe (by decide)) rfl)), rfl, rfl⟩

/-- Select is faulty, which is shown and recorded (R280). -/
def selectFails (s : State) : State :=
  report { unit := 0x80, cls := 0x07, ev := 2, sev := .fault, doubt := true }
    (setFlag F.SEL_STAT_TEST_FAIL true { s with sel := { s.sel with faulty := true } })

theorem exec_selectTestDone (o : TestOutcome) : exec (.selectTestDone o) s = .next (fabric s fun s =>
    if o = .pass ∨ selectTestDue s = false then s
    else triggerRestart .select false (selectFails s)) := rfl

theorem selectTests : SelectTests := by
  intro o s up inv
  refine ⟨fun idle => idle_fabric (exec_selectTestDone o) (if_pos idle), fun fails due => goes_fabric up (exec_selectTestDone o) ?_⟩
  rw [if_neg (by simp [fails, due])]
  refine ⟨?_, fun none few => ?_⟩
  · rw [triggerRestart_keeps (shows_sel (x := (selectFails s).sel) (by decide)) rfl, selectFails, report_sel]
    rfl
  · rw [triggerRestart_of_none (by rw [selectFails, report_safe]; exact none), if_neg ?_]
    · exact beginRestart_restart ..
    · have settings : SameSettings s (selectFails s) :=
        report_settings (setFlag_settings (f := F.SEL_STAT_TEST_FAIL) (by decide) (SameSettings.same (.refl s) rfl rfl))
      rw [settings.restarts report_safe report_time, settings.fld (by decide) (by decide)]
      exact Nat.not_le.mpr few

end

/-- Settles O29. -/
theorem selectNoticesTestsAndMerge : Obligations.SelectNoticesTestsAndMerge :=
  ⟨quarantineNotices, selectTests, mergeHandsOverAtMostFour⟩

end Sys2Proof.Machine

end

section

set_option Elab.async false

/-! # The lanes of the Solver (R289 to R297, R316) -/

namespace Sys2Proof.Machine

open Sys2Proof.Claims

section
variable {s t : State}

theorem laneSt_setLane_same {n : Nat} {l : LaneSt} (h : Inv s) (lt : n < 4) : laneSt (setLane n l s) n = l :=
  getD_modAt_lt h.shape.lanes lt

theorem laneSt_setLane_ne {n m : Nat} {l : LaneSt} (h : m ≠ n) : laneSt (setLane n l s) m = laneSt s m := getD_modAt_ne h

/-! ## Setup -/

theorem exec_solverSetupDone (lane : Fin 4) : exec (.solverSetupDone lane) s = .next (fabric s fun s =>
    match laneWork s lane.val with
    | none => s
    | some (l, e, x) =>
      if l.setup then s
      else
        let own := meritOf (slvWeights s) x.layer x.exp x.exp
        let out := if fld s F.SLV_CFG_MAX_ITER = 0 then some 2 else none
        let base := { l with setup := true, merit := own, outcome := out, began := s.time.count }
        match warmRecord s (keyIndex e.key) x.cand with
        | none => setLane lane.val base s
        | some w =>
          match judgeRecord s x (keyClearance e.key) w with
          | some j =>
            if j < own then setLane lane.val { base with best := some { w with jq := jqOf j }, merit := j, warm := true } s
            else setLane lane.val base s
          | none => setLane lane.val base s) := rfl

theorem solverSetup : SolverSetup := by
  intro lane s up inv
  refine ⟨fun none => idle_fabric (exec_solverSetupDone lane) (by simp only [none]), fun l e x work =>
    ⟨fun done => idle_fabric (exec_solverSetupDone lane) (by simp only [work, if_pos done]), fun fresh => goes_fabric up (exec_solverSetupDone lane) ?_⟩⟩
  simp only [work, fresh, if_neg (show ¬ (false = true) by decide)]
  split
  · rw [laneSt_setLane_same inv lane.isLt]
    exact ⟨rfl, rfl, rfl, .inl ⟨rfl, rfl⟩⟩
  · rename_i w warm
    split
    · rename_i j judged
      split
      · rename_i better
        rw [laneSt_setLane_same inv lane.isLt]
        exact ⟨rfl, rfl, rfl, .inr ⟨w, j, warm, judged, better, rfl, rfl, rfl⟩⟩
      · rw [laneSt_setLane_same inv lane.isLt]
        exact ⟨rfl, rfl, rfl, .inl ⟨rfl, rfl⟩⟩
    · rw [laneSt_setLane_same inv lane.isLt]
      exact ⟨rfl, rfl, rfl, .inl ⟨rfl, rfl⟩⟩

/-! ## Iterations -/

/-- The registers that a lane's work writes beside those of an access. -/
def solverAddrs : List Nat := F.SLV_RG_CNT_CRIT.addr :: F.SLV_EVENT_CNT_PIVOT.addr :: (F.WDN_DOUBT_CNT_COUNT 2).addr :: memAddrs

/-- From s to t the Solver's state is the same, and of the registers only those of a lane's work have changed. -/
structure LaneWorks (s t : State) : Prop where
  inv : Inv t
  slv : t.slv = s.slv
  regs : SameRegsBut solverAddrs s t

theorem LaneWorks.refl (h : Inv s) : LaneWorks s s := ⟨h, rfl, .refl _ s⟩

theorem LaneWorks.bump {f : Fld} (h : LaneWorks s t) (m : f.addr ∈ solverAddrs) : LaneWorks s (bump f t) :=
  ⟨bump_keeps (keeps_inv (by decide)) h.inv, (bump_keeps (shows_slv (by decide)) rfl).trans h.slv, SameRegsBut.bump h.regs m⟩

theorem LaneWorks.bumpBy {f : Fld} {n : Nat} (h : LaneWorks s t) (m : f.addr ∈ solverAddrs) : LaneWorks s (bumpBy f n t) :=
  ⟨bumpBy_keeps (keeps_inv (by decide)) h.inv, (bumpBy_keeps (shows_slv (by decide)) rfl).trans h.slv, SameRegsBut.setFld h.regs m⟩

theorem LaneWorks.report {e : Event} (h : LaneWorks s t) : LaneWorks s (report e t) :=
  ⟨report_keeps (keeps_inv (by decide)) h.inv, report_slv.trans h.slv, SameRegsBut.report h.regs (by decide)⟩

/-- Changes of other parts. -/
theorem keeps_laneWorks {W : List Part} (h : ∀ p ∈ W, p ∉ ([.regs, .image, .slv, .vbat, .cold] : List Part)) : Keeps W (LaneWorks s) := by
  have e : LaneWorks s = fun t => Inv t ∧ t.slv = s.slv ∧ SameRegsBut solverAddrs s t :=
    funext fun t => propext ⟨fun k => ⟨k.inv, k.slv, k.regs⟩, fun k => ⟨k.1, k.2.1, k.2.2⟩⟩
  rw [e]
  exact (keeps_inv fun p hp m => h p hp (by rw [m]; decide)).and ((shows_slv fun p hp m => h p hp (by revert m; cases p <;> decide)).and
    (keeps_sameRegs fun p hp m => h p hp (by revert m; cases p <;> decide)))

theorem markDoubt_laneWorks (h : LaneWorks s t) : LaneWorks s (markDoubt 2 t) := by
  unfold markDoubt
  exact ite_keeps (P := LaneWorks s) h (LaneWorks.bump (Keeps.upd_frame (W := [.frame]) (keeps_laneWorks (by decide)) (by decide) h) (by decide))

theorem addRg_laneWorks {c : Bool} {d n : Nat} (h : LaneWorks s t) : LaneWorks s (addRg c d n t) := addRg_keeps (keeps_laneWorks (by decide)) h

theorem solverGuard_laneWorks (n : Nat) (g : GuardEv) (h : LaneWorks s t) : LaneWorks s (solverGuard n t g) := by
  unfold solverGuard
  extract_lets v s1
  have counted : LaneWorks s s1 := ite_keeps (P := LaneWorks s) (LaneWorks.bump (markDoubt_laneWorks (addRg_laneWorks h)) (by decide))
    (LaneWorks.bump (addRg_laneWorks h) (by decide))
  exact ite_keeps (P := LaneWorks s) counted (LaneWorks.report (Keeps.upd_inf (W := [.inf]) (keeps_laneWorks (by decide)) (by decide) counted))

theorem probeWord_laneWorks (k a : Nat) (h : LaneWorks s t) : LaneWorks s (probeWord k a t).2 := by
  refine ⟨probeWord_keeps (keeps_inv (by decide)) h.inv, (probeWord_keeps (shows_slv (by decide)) rfl).trans h.slv, ?_⟩
  have read : MemRegs t (probeWord k a t).2 := by
    unfold probeWord
    split
    · exact SameRegsBut.refl _ t
    · exact correct_keeps (keeps_memRegs (by decide)) (countCe_memRegs (SameRegsBut.refl _ t))
    · exact SameRegsBut.bump (SameRegsBut.refl _ t) (by decide)
    · exact findBad_memRegs (SameRegsBut.refl _ t)
  exact h.regs.trans (SameRegsBut.mono read fun _ m => List.mem_cons_of_mem _ (List.mem_cons_of_mem _ (List.mem_cons_of_mem _ m)))

theorem trialGuard_laneWorks (n : Nat) (x : Expn) (h : LaneWorks s t) : LaneWorks s (trialGuard n x t) := by
  unfold trialGuard
  extract_lets v s1
  have counted : LaneWorks s s1 := LaneWorks.bumpBy (addRg_laneWorks h) (by decide)
  refine ite_keeps (P := LaneWorks s) h (ite_keeps (P := LaneWorks s) counted ?_)
  have noted : LaneWorks s { s1 with inf := { s1.inf with firstRg := v :: s1.inf.firstRg } } :=
    Keeps.upd_inf (W := [.inf]) (keeps_laneWorks (by decide)) (by decide) counted
  exact LaneWorks.report (nextFree_keeps (keeps_laneWorks (by decide)) noted)

/-- What is known of a lane's trials: the lane's best stands, and a record that is found has a lower merit. -/
structure Tried (s : State) (l : LaneSt) (p : Trials) : Prop where
  works : LaneWorks s p.1
  best : p.2.1.best = l.best
  merit : p.2.1.merit = l.merit
  iters : p.2.1.iters = l.iters
  found : ∀ r j, p.2.2 = some (r, j) → j < l.merit ∧ r.iter = l.iters + 1

theorem oneTrial_tried {l : LaneSt} {p : Trials} (n : Nat) (e : SelEntry) (x : CandCtx) (z : Expn) (du : List (Int × Int)) (m : Nat)
    (h : Tried s l p) : Tried s l (oneTrial n e x z du p m) := by
  obtain ⟨t, k, found⟩ := p
  obtain ⟨works, best, merit, iters, lower⟩ := h
  cases found with
  | some q => exact ⟨works, best, merit, iters, lower⟩
  | none =>
    dsimp only [oneTrial]
    split
    · exact ⟨LaneWorks.report (probeWord_laneWorks 1 _ works), best, merit, iters, lower⟩
    · have guarded (y : Expn) : LaneWorks s (trialGuard n y t) := trialGuard_laneWorks n y works
      split
      · split
        · rename_i better
          refine ⟨guarded _, best, merit, iters, fun r' j' e => ?_⟩
          cases e
          exact ⟨merit ▸ better, congrArg (· + 1) iters⟩
        · exact ⟨guarded _, best, merit, iters, lower⟩
      · exact ⟨guarded _, best, merit, iters, lower⟩

/-! ## What an iteration leaves of its lane -/

/-- A lane that stalls keeps its best record. -/
def StallsLane (n : Nat) (l : LaneSt) (t : State) : Prop :=
  (laneSt t n).outcome = some 3 ∧ (laneSt t n).best = l.best ∧ (laneSt t n).merit = l.merit ∧ (laneSt t n).iters = l.iters

/-- A lane that takes a record with a lower merit converges, has done MAX_ITER iterations or goes on. -/
def ImprovesLane (n maxIter : Nat) (l : LaneSt) (t : State) : Prop :=
  (laneSt t n).iters = l.iters + 1 ∧ (laneSt t n).merit < l.merit ∧
    (∃ r, (laneSt t n).best = some r ∧ r.jq = jqOf (laneSt t n).merit ∧ r.iter = l.iters + 1) ∧
    ((laneSt t n).outcome = some 1 ∨ (laneSt t n).outcome = some 2 ∨ (laneSt t n).outcome = none ∧ (laneSt t n).iters < maxIter)

theorem stall_stalls {n : Nat} {l k : LaneSt} (h : Inv t) (lt : n < 4) (best : k.best = l.best) (merit : k.merit = l.merit)
    (iters : k.iters = l.iters) : StallsLane n l (stall n k t) := by
  have inv : Inv (bump F.SLV_EVENT_CNT_STALL t) := bump_keeps (keeps_inv (by decide)) h
  unfold StallsLane stall
  rw [laneSt_setLane_same inv lt]
  exact ⟨rfl, best, merit, iters⟩

theorem switchIn_improves {n : Nat} {z : Expn} {l : LaneSt} {r : RefinedRec} {j : Nat} {k : LaneSt} (lt : n < 4)
    (h : Tried s l (t, k, some (r, j))) : ImprovesLane n (fld s F.SLV_CFG_MAX_ITER) l (switchIn n z k r j t) := by
  obtain ⟨lower, iter⟩ := h.found r j rfl
  have iters : k.iters = l.iters := h.iters
  have max : fld t F.SLV_CFG_MAX_ITER = fld s F.SLV_CFG_MAX_ITER := h.works.regs.fld (by decide)
  unfold ImprovesLane switchIn
  simp only [laneSt_setLane_same h.works.inv lt, iters, max]
  refine ⟨trivial, lower, ⟨_, rfl, rfl, iter⟩, ?_⟩
  split
  · exact .inl rfl
  · split
    · exact .inr (.inl rfl)
    · exact .inr (.inr ⟨rfl, Nat.lt_of_not_le ‹_›⟩)

/-- An iteration of a lane that works. -/
def iterateLane (n : Nat) (l : LaneSt) (e : SelEntry) (x : CandCtx) (s : State) : State :=
  let g := laneStep s l x
  let z := bestExpand s x l
  let s1 := g.events.foldl (solverGuard n) s
  let s2 := if g.again then bump F.SLV_EVENT_CNT_PIVOT s1 else s1
  let l2 := { l with store := g.store }
  match g.du with
  | none => stall n l2 s2
  | some du =>
    match (List.range 4).foldl (oneTrial n e x z du) (s2, l2, none) with
    | (s3, l3, some (r, j)) => switchIn n z l3 r j s3
    | (s3, l3, none) => stall n l3 s3

/-- An iteration of a lane either stalls it or improves its best record (R290 to R295). -/
theorem iterateLane_improves {n : Nat} {l : LaneSt} {e : SelEntry} {x : CandCtx} (h : Inv s) (lt : n < 4) :
    StallsLane n l (iterateLane n l e x s) ∨ ImprovesLane n (fld s F.SLV_CFG_MAX_ITER) l (iterateLane n l e x s) := by
  unfold iterateLane
  extract_lets g z s1 s2 l2
  have guarded : LaneWorks s s1 := foldl_keeps (P := LaneWorks s) (fun _ g k => solverGuard_laneWorks n g k) _ _ (.refl h)
  have stepped : LaneWorks s s2 := ite_keeps (P := LaneWorks s) (guarded.bump (by decide)) guarded
  split
  · exact .inl (stall_stalls stepped.inv lt rfl rfl rfl)
  · rename_i du _
    have start : Tried s l (s2, l2, none) := ⟨stepped, rfl, rfl, rfl, fun _ _ e => nomatch e⟩
    have tried : Tried s l ((List.range 4).foldl (oneTrial n e x z du) (s2, l2, none)) :=
      foldl_keeps (P := Tried s l) (fun _ m k => oneTrial_tried n e x z du m k) _ _ start
    split
    · rename_i found
      exact .inr (switchIn_improves lt (found ▸ tried))
    · rename_i found
      rw [found] at tried
      exact .inl (stall_stalls tried.works.inv lt tried.best tried.merit tried.iters)

theorem exec_solverIterationDone (lane : Fin 4) (badWord badRecord : Bool) : exec (.solverIterationDone lane badWord badRecord) s =
    .next (fabric s fun s =>
      match laneWork s lane.val with
      | none => s
      | some (l, e, x) =>
        if !l.setup || l.outcome.isSome then s
        else if badRecord then
          setLane lane.val { l with lost := true, outcome := some 6 } (report (uncoded .solverRecord (72 + lane.val) .warning) s)
        else if badWord then stall lane.val l (report (uncoded .solverWord (72 + lane.val) .warning) s)
        else iterateLane lane.val l e x s) := rfl

theorem solverIterations : SolverIterations := by
  intro lane badWord badRecord s up inv
  refine ⟨fun none => idle_fabric (exec_solverIterationDone ..) (by simp only [none]), fun l e x work =>
    ⟨fun idle => idle_fabric (exec_solverIterationDone ..) ?_, fun ready runs => goes_fabric up (exec_solverIterationDone ..) ?_⟩⟩
  · simp only [work]
    refine if_pos ?_
    rcases idle with fresh | done
    · rw [fresh]; rfl
    · rw [done, Bool.or_true]
  · have goes : (!l.setup || l.outcome.isSome) = false := by rw [ready, runs]; rfl
    have told {k : Uncoded} : Inv (report (uncoded k (72 + lane.val) .warning) s) := report_keeps (keeps_inv (by decide)) inv
    simp only [work, goes]
    cases badRecord with
    | true =>
      refine ⟨fun _ => ?_, fun no => absurd no (by decide), fun no => absurd no (by decide)⟩
      rw [if_neg (by decide), if_pos rfl, laneSt_setLane_same told lane.isLt]
      exact ⟨rfl, rfl, rfl⟩
    | false =>
      refine ⟨fun no => absurd no (by decide), ?_⟩
      cases badWord with
      | true => exact ⟨fun _ _ => stall_stalls told lane.isLt rfl rfl rfl, fun _ => .inl (stall_stalls told lane.isLt rfl rfl rfl)⟩
      | false => exact ⟨fun _ no => absurd no (by decide), fun _ => iterateLane_improves inv lane.isLt⟩

end

/-- Settles O30. -/
theorem solverLanesOnlyImprove : Obligations.SolverLanesOnlyImprove := ⟨solverSetup, solverIterations⟩

end Sys2Proof.Machine

end

section

set_option Elab.async false

/-! # The Solver's lanes end and are tested (R285, R307, R315, R316) -/

namespace Sys2Proof.Machine

open Sys2Proof.Claims

section
variable {s t : State}

/-! ## The end of a lane -/

/-- A lane ends, and the Solver hands on with the last one (R307). -/
def endLane (n : Nat) (s : State) : State :=
  let s1 := setLane n { laneSt s n with ended := true } s
  if (List.range 4).any fun m => (laneSt s1 m).entry.isSome && !(laneSt s1 m).ended && !outOfService s1 (72 + m) then s1
  else phaseDone 3 (handOn s1)

theorem exec_laneEnd (lane : Fin 4) : exec (.laneEnd lane) s = .next (fabric s fun s =>
    if (laneSt s lane.val).outcome.isNone || (laneSt s lane.val).entry.isNone || !refineOpen s then s else endLane lane.val s) := rfl

/-- What the Solver hands to Madder is handed over, and its lanes stand. -/
theorem handToMadder_slv (x : Traj) (s : State) : (handToMadder x s).slv = { s.slv with handed := true } :=
  sendOffer_keeps (shows_slv (by decide)) rfl

/-- The end of the last lane hands the Solver's one trajectory on, if Select had handed one over (R307). -/
theorem handOn_slv (s : State) : (handOn s).slv.lanes = s.slv.lanes ∧ (s.sel.top ≠ [] → (handOn s).slv.handed = true) := by
  unfold handOn
  extract_lets s1
  have slv : s1.slv = s.slv := foldl_keeps (P := fun u : State => u.slv = s.slv) (fun _ n k => showLane_keeps (n_2 := n) (shows_slv (by decide)) k) _ _ rfl
  have sel : s1.sel = s.sel := foldl_keeps (P := fun u : State => u.sel = s.sel) (fun _ n k => showLane_keeps (n_2 := n) (shows_sel (by decide)) k) _ _ rfl
  have handed (x : Traj) (a b c d : Nat) : (showResult a b c d (handToMadder x s1)).slv = { s.slv with handed := true } :=
    (showResult_keeps (shows_slv (by decide)) rfl).trans ((handToMadder_slv x s1).trans (by rw [slv]))
  split
  · rw [handed]
    exact ⟨rfl, fun _ => rfl⟩
  · rw [handed]
    exact ⟨rfl, fun _ => rfl⟩
  · rename_i empty
    rw [showResult_keeps (shows_slv (by decide)) slv]
    exact ⟨rfl, fun some => absurd (sel ▸ empty) some⟩

theorem endLane_ends {n : Nat} (h : Inv s) (lt : n < 4) : (laneSt (endLane n s) n).ended = true ∧
    ((∀ m, m < 4 → m ≠ n → (laneSt s m).entry = none ∨ (laneSt s m).ended = true ∨ outOfService s (72 + m) = true) →
      s.sel.top ≠ [] → (endLane n s).slv.handed = true) := by
  have same : laneSt (setLane n { laneSt s n with ended := true } s) n = { laneSt s n with ended := true } := laneSt_setLane_same h lt
  unfold endLane
  extract_lets -merge _ s1
  split
  · rename_i atWork
    refine ⟨by rw [same], fun rest _ => ?_⟩
    obtain ⟨m, hm, busy⟩ := List.any_eq_true.mp atWork
    rw [Bool.and_eq_true_iff, Bool.and_eq_true_iff] at busy
    obtain ⟨⟨has, working⟩, serves⟩ := busy
    by_cases e : m = n
    · rw [e, same] at working
      cases working
    · rw [laneSt_setLane_ne e] at has working
      rcases rest m (List.mem_range.mp hm) e with none | done | out
      · rw [none] at has
        exact absurd has (by decide)
      · rw [done] at working
        exact absurd working (by decide)
      · rw [show outOfService s1 (72 + m) = true from out] at serves
        exact absurd serves (by decide)
  · have slv : (phaseDone 3 (handOn s1)).slv = (handOn s1).slv := phaseDone_keeps (shows_slv (by decide)) rfl
    obtain ⟨lanes, handed⟩ := handOn_slv s1
    refine ⟨?_, fun _ some => by rw [slv]; exact handed some⟩
    rw [laneSt, slv, lanes]
    exact congrArg LaneSt.ended same

theorem solverEnds : SolverEnds := by
  intro lane s up inv ready
  refine ⟨fun ⟨out, entry, isOpen⟩ => goes_fabric up (exec_laneEnd lane) ?_, fun no => idle_fabric (exec_laneEnd lane) (if_pos ?_)⟩
  · have goes : ((laneSt s lane.val).outcome.isNone || (laneSt s lane.val).entry.isNone || !refineOpen s) = false := by
      rw [isOpen, ← Option.not_isSome, ← Option.not_isSome, out, entry]; rfl
    rw [goes, if_neg (by decide)]
    exact endLane_ends inv lane.isLt
  · cases out : (laneSt s lane.val).outcome with
    | none => rfl
    | some o =>
      cases entry : (laneSt s lane.val).entry with
      | none => rfl
      | some e =>
        have closed : refineOpen s = false := Bool.eq_false_iff.mpr fun h => no ⟨by rw [out]; rfl, by rw [entry]; rfl, h⟩
        rw [closed]
        rfl

/-! ## Tests -/

/-- A bit of a mask reads as it was cleared. -/
theorem maskBit_setMaskBit_false {f : Fld} {i : Nat} (wf : Regs.wf s.image s.regs) (ok : f.ok) :
    maskBit (setMaskBit f i false s) f i = false := by
  unfold maskBit setMaskBit
  simp only [Bool.false_eq_true, if_false]
  rw [fld_setFld_same wf ok, Nat.testBit_mod_two_pow]
  split
  · rename_i b
    rw [testBit_sub_two_pow b, Bool.and_false]
  · rename_i b
    rw [Bool.eq_false_iff.mpr b, Bool.and_false]

/-- A test of a lane that fails: the lane leaves service at the next edge, and the failure is shown. -/
def showLaneFailure (n : Nat) (s : State) : State :=
  setFlag F.SLV_STAT_TEST_FAIL true (setMaskBit F.SLV_STAT_TESTED_OK n false
    { s with slv := { s.slv with pendingOut := n :: s.slv.pendingOut } })

def laneFails (n ev : Nat) (s : State) : State :=
  report { unit := 72 + n, cls := 0x07, ev := ev, sev := .fault } (showLaneFailure n s)

theorem exec_solverTestDone (lane : Fin 4) (o : TestOutcome) : exec (.solverTestDone lane o) s = .next (fabric s fun s =>
    if !solverTestDue s lane.val o then s
    else match o with
      | .pass => setMaskBit F.SLV_STAT_TESTED_OK lane.val true s
      | .guardFail _ => laneFails lane.val 5 s
      | _ => laneFails lane.val 3 s) := rfl

theorem laneFails_shows {n : Nat} (ev : Nat) (h : Inv s) :
    n ∈ (laneFails n ev s).slv.pendingOut ∧ maskBit (laneFails n ev s) F.SLV_STAT_TESTED_OK n = false ∧
    flag (laneFails n ev s) F.SLV_STAT_TEST_FAIL = true ∧
    (s.log.queue.length < 256 → Recorded (laneFails n ev s) (72 + n) 0x07 ev 3) := by
  have noted : Inv { s with slv := { s.slv with pendingOut := n :: s.slv.pendingOut } } :=
    Keeps.upd_slv (W := [.slv]) (keeps_inv (by decide)) (by decide) h
  have cleared : Inv (setMaskBit F.SLV_STAT_TESTED_OK n false { s with slv := { s.slv with pendingOut := n :: s.slv.pendingOut } }) :=
    setMaskBit_keeps (keeps_inv (by decide)) noted
  refine ⟨?_, ?_, ?_, fun room => report_recorded room⟩
  · rw [laneFails, report_slv]
    exact List.mem_cons_self
  · rw [laneFails, maskBit, fld_report (by decide), showLaneFailure, setFlag, 
      fld_setFld_other (f := F.SLV_STAT_TEST_FAIL) (g := F.SLV_STAT_TESTED_OK) cleared.regs (by decide) (by decide) rfl (.inl (by decide))]
    exact maskBit_setMaskBit_false noted.regs (by decide)
  · rw [laneFails, flag_report (by decide), showLaneFailure]
    exact flag_setFlag_same cleared.regs (by decide)

theorem takeOut_outOfService (w : Bool) (n : Nat) (s : State) : (takeOut w n s).cnd.outOfService =
    if s.cnd.outOfService.contains n then s.cnd.outOfService else n :: s.cnd.outOfService := by
  obtain ⟨t, fades, -, cnd⟩ := takeOut_cnd w n s
  rw [cnd, show t.cnd.outOfService = s.cnd.outOfService by rw [fades.rest]]

/-- The lanes that wait to leave service leave it at the edge (R316). -/
theorem solverEdge_takesOut {n : Nat} (h : n ∈ s.slv.pendingOut) : 72 + n ∈ (solverEdge s).cnd.outOfService := by
  have stays {k : Nat} {t : State} (m : 72 + n ∈ t.cnd.outOfService) :
      72 + n ∈ (kermesDue (kermesUnit (72 + k)) (takeOut true (72 + k) t)).cnd.outOfService := by
    rw [kermesDue_keeps (shows_cnd (by decide)) rfl, takeOut_outOfService]
    exact iteInduction (motive := fun l : List Nat => 72 + n ∈ l) (fun _ => m) fun _ => List.mem_cons_of_mem _ m
  have leaves (t : State) : 72 + n ∈ (kermesDue (kermesUnit (72 + n)) (takeOut true (72 + n) t)).cnd.outOfService := by
    rw [kermesDue_keeps (shows_cnd (by decide)) rfl]
    exact (takeOut_outOfWork true (72 + n) t).1
  have all (l : List Nat) (t : State) (m : n ∈ l ∨ 72 + n ∈ t.cnd.outOfService) :
      72 + n ∈ (l.foldl (fun s k => kermesDue (kermesUnit (72 + k)) (takeOut true (72 + k) s)) t).cnd.outOfService := by
    induction l generalizing t with
    | nil => exact m.resolve_left List.not_mem_nil
    | cons k l ih =>
      refine ih _ ?_
      rcases m with m | m
      · rcases List.mem_cons.mp m with rfl | m
        · exact .inr (leaves t)
        · exact .inl m
      · exact .inr (stays m)
  exact all s.slv.pendingOut s (.inl h)

theorem solverTests : SolverTests := by
  intro lane o s up inv
  refine ⟨fun idle => idle_fabric (exec_solverTestDone ..) (if_pos (by rw [idle]; rfl)), fun due => ⟨fun pass => goes_fabric up (exec_solverTestDone ..) ?_,
    fun fails => goes_fabric up (exec_solverTestDone ..) ?_⟩, fun n hn _ => solverEdge_takesOut hn⟩
  · rw [due, if_neg (by decide), pass]
    exact ⟨maskBit_setMaskBit inv.regs (by decide) lane.isLt, rfl⟩
  · rw [due, if_neg (by decide)]
    cases o with
    | pass => exact absurd rfl fails
    | guardFail e =>
      rw [if_pos ⟨e, rfl⟩]
      exact laneFails_shows 5 inv
    | mismatch =>
      rw [if_neg (fun ⟨_, k⟩ => nomatch k)]
      exact laneFails_shows 3 inv
    | overtime =>
      rw [if_neg (fun ⟨_, k⟩ => nomatch k)]
      exact laneFails_shows 3 inv

end

/-- Settles O31. -/
theorem solverEndsAndTests : Obligations.SolverEndsAndTests := ⟨solverEnds, solverTests⟩

end Sys2Proof.Machine

end

section

set_option Elab.async false

/-! # Stops and the watchdog (R408 to R410, R454, R456, R607) -/

namespace Sys2Proof.Machine

open Sys2Proof.Claims

section
variable {s t : State}

/-! ## SAFE_STOP_N -/

/-- SAFE_STOP_N stands asserted, and a first assertion is recorded. -/
theorem assertSafeStop_asserts (s : State) : (assertSafeStop s).pwr.safeStop = true ∧
    (s.pwr.safeStop = false → s.log.queue.length < 256 → Recorded (assertSafeStop s) 0x90 0x09 2 3) := by
  unfold assertSafeStop
  split
  · rename_i stands
    exact ⟨stands, fun no => absurd (stands.symm.trans no) (by decide)⟩
  · exact ⟨by rw [report_pwr]; rfl, fun _ room => report_recorded room⟩

theorem assertSafeStop_pwr (s : State) : (assertSafeStop s).pwr = { s.pwr with safeStop := true } := by
  unfold assertSafeStop
  split
  · rename_i stands
    exact congrArg (fun b => { s.pwr with safeStop := b }) stands
  · exact report_pwr

theorem exec_stopLimitExpiry : exec .stopLimitExpiry s = .next (live s fun s => if stopLimitOver s then assertSafeStop s else s) := rfl

theorem exec_safeCtlStop (r : Requester) : exec (.safeCtlStop r) s = .next (live s fun s =>
    if r = .warden then assertSafeStop s else refuseAccess r F.WDN_SAFE_CTL_STOP.addr s) := rfl

theorem exec_watchdogKick : exec .watchdogKick s = .next (live s fun s =>
    setFld F.IND_WDOG_LEFT 0x3E8 { s with ind := { s.ind with wdogKick := s.time.count } }) := rfl

/-- The watchdog's expiry before the stop or the takeover that follows (R410): the outputs, Indigo's record and the register. -/
def watchdogBites (s : State) : State :=
  setFlag F.IND_WDOG_EXPIRED true (setFld F.IND_WDOG_LEFT 0
    (reportIndigo { unit := 0x98, cls := 0x09, ev := 7, sev := .fatal } (assertFaultN s)))

theorem exec_watchdogExpiry : exec .watchdogExpiry s = .next (live s fun s =>
    if s.time.count < s.ind.wdogKick + 250000 then s
    else if s.twin.pair = .solo then assertSafeStop (watchdogBites s) else abdicate 0x0907 (watchdogBites s)) := rfl

/-! ## Indigo's log -/

/-- A record that a report sends to Indigo comes before those of before. -/
theorem report_ind (e : Event) (s : State) : (report e s).ind = s.ind ∨ ∃ r, (report e s).ind.log = (r :: s.ind.log).take 64 := by
  have joined (q : QueuedRec) (t : State) : (enqueue q t).ind = t.ind := enqueue_keeps (shows_ind (by decide)) rfl
  have same : (report e s).ind = (copiedToIndigo e s).ind := joined _ (copiedToIndigo e s)
  rw [same]
  unfold copiedToIndigo indigoLog
  split
  · split
    · exact .inr ⟨_, rfl⟩
    · exact .inl rfl
  · exact .inl rfl

/-- Indigo's newest record stays in its log when one joins it. -/
theorem newest_report {r : FaultRec} {l : List FaultRec} (e : Event) (h : s.ind.log = r :: l) : r ∈ (report e s).ind.log := by
  rcases report_ind e s with same | ⟨q, joins⟩
  · rw [same, h]
    exact List.mem_cons_self
  · rw [joins, h]
    exact List.mem_cons_of_mem _ List.mem_cons_self

theorem newest_assertSafeStop {r : FaultRec} {l : List FaultRec} (h : s.ind.log = r :: l) : r ∈ (assertSafeStop s).ind.log := by
  unfold assertSafeStop
  split
  · rw [h]
    exact List.mem_cons_self
  · exact newest_report _ h

/-! ## The watchdog -/

/-- What the expiry of the watchdog leaves before the stop or the takeover. -/
theorem watchdogBites_bites (h : Inv s) : let t := watchdogBites s
    (t.pwr.faultN = true ∧ t.pwr.safeStop = s.pwr.safeStop) ∧ t.frame = s.frame ∧ t.twin = s.twin ∧ Inv t ∧
    (s.ind.powered = true → ∃ r l, t.ind.log = r :: l ∧ r.unit = 0x98 ∧ r.cls = 0x09 ∧ r.ev = 7 ∧ r.severity = 4) ∧
    flag t F.IND_WDOG_EXPIRED = true ∧ fld t F.IND_WDOG_LEFT = 0 := by
  intro t
  have shown {P : State → Prop} (C : Keeps [.indlog, .regs, .log] P) (h : P (assertFaultN s)) : P t :=
    setFlag_keeps (C.mono (by decide)) (setFld_keeps (C.mono (by decide)) (reportIndigo_keeps C h))
  have logged : Inv (reportIndigo { unit := 0x98, cls := 0x09, ev := 7, sev := .fatal } (assertFaultN s)) :=
    reportIndigo_keeps (keeps_inv (by decide)) (assertFaultN_keeps (keeps_inv (by decide)) h)
  have left : Inv (setFld F.IND_WDOG_LEFT 0 (reportIndigo { unit := 0x98, cls := 0x09, ev := 7, sev := .fatal } (assertFaultN s))) :=
    setFld_keeps (keeps_inv (by decide)) logged
  have pwr : t.pwr = { s.pwr with faultN := true } := shown (shows_pwr (by decide)) rfl
  refine ⟨by rw [pwr]; exact ⟨rfl, rfl⟩, shown (shows_frame (by decide)) rfl, shown (shows_twin (by decide)) rfl,
    setFlag_keeps (keeps_inv (by decide)) left, fun powered => ?_, flag_setFlag_same left.regs (by decide), ?_⟩
  · have ind : t.ind = (indigoLog (recordOf (assertFaultN s) { unit := 0x98, cls := 0x09, ev := 7, sev := .fatal }) (assertFaultN s)).ind := rfl
    rw [ind, indigoLog, if_pos (show (assertFaultN s).ind.powered = true from powered)]
    exact ⟨recordOf (assertFaultN s) { unit := 0x98, cls := 0x09, ev := 7, sev := .fatal }, _, rfl, rfl, rfl, rfl, rfl⟩
  · show fld (setFlag F.IND_WDOG_EXPIRED true _) F.IND_WDOG_LEFT = 0
    rw [setFlag, fld_setFld_other (f := F.IND_WDOG_EXPIRED) (g := F.IND_WDOG_LEFT) left.regs (by decide) (by decide) rfl (.inl (by decide)),
      fld_setFld_same logged.regs (by decide)]
    rfl

/-- Registers of Indigo's watchdog read the same after a stop. -/
theorem watchdog_assertSafeStop {f : Fld} (h : f.addr = 0x00F01010) (s : State) : fld (assertSafeStop s) f = fld s f := by
  unfold assertSafeStop
  split
  · rfl
  · rw [fld_report (by rw [h]; decide)]
    exact (setFld_same (f := F.WDN_SAFE_STAT_SAFE_STOP)).fld (by rw [h]; decide)

/-- A primary of a pair that abdicates transmits no more (R456). -/
theorem abdicate_silences {n : Nat} (h : s.twin.pair = .pairedA) : (abdicate n s).twin.silent = true := by
  have sealedKeeps {c y : Nat} {p : List Byte} {out : Nat → List (List Byte) → Output} {t : State} (h : t.twin.silent = true) :
      (sendSealed c y p out t).twin.silent = true := ite_keeps (P := fun t : State => t.twin.silent = true) h h
  unfold abdicate
  rw [if_pos h]
  exact sealedKeeps rfl

theorem fld_abdicate (n : Nat) (f : Fld) (s : State) : fld (abdicate n s) f = fld s f := by
  unfold fld
  rw [regWord_congr (abdicate_keeps (shows_image (by decide)) rfl) (abdicate_keeps (shows_regs (by decide)) rfl)]

end

/-- Settles O34. -/
theorem watchdogAndStops : Obligations.WatchdogAndStops := by
  unfold Obligations.WatchdogAndStops
  intro s up inv
  have stopped : (assertSafeStop s).pwr.safeStop = true ∧ (assertSafeStop s).frame = s.frame ∧ (assertSafeStop s).mem = s.mem :=
    ⟨(assertSafeStop_asserts s).1, assertSafeStop_keeps (shows_frame (by decide)) rfl, assertSafeStop_keeps (shows_mem (by decide)) rfl⟩
  obtain ⟨stops, frame, mem⟩ := stopped
  refine ⟨fun late => goes_live up exec_stopLimitExpiry ?_, fun early => idle_live exec_stopLimitExpiry (if_neg (Bool.eq_false_iff.mp early)),
    goes_live up exec_watchdogKick ?_, fun early => idle_live exec_watchdogExpiry (if_pos early), fun late => goes_live up exec_watchdogExpiry ?_,
    goes_live up (exec_safeCtlStop .warden) ?_, fun r other => goes_live up (exec_safeCtlStop r) ?_⟩
  · rw [if_pos late]
    exact ⟨stops, frame, mem, assertSafeStop_keeps (shows_umb (by decide)) rfl, (assertSafeStop_asserts s).2⟩
  · have kicked : Inv { s with ind := { s.ind with wdogKick := s.time.count } } := Keeps.upd_ind (W := [.ind]) (keeps_inv (by decide)) (by decide) inv
    exact ⟨rfl, fld_setFld_same kicked.regs (by decide), setFld_same (s := { s with ind := { s.ind with wdogKick := s.time.count } }), rfl⟩
  · rw [if_neg (Nat.not_lt.mpr late)]
    obtain ⟨⟨fault, stop⟩, frame, twin, bitten, log, expired, left⟩ := watchdogBites_bites inv
    by_cases solo : s.twin.pair = .solo
    · rw [if_pos solo]
      refine ⟨?_, fun _ => (assertSafeStop_asserts _).1, fun no => absurd solo no, fun no => absurd (solo.symm.trans no) (by decide), fun powered => ?_, ?_, ?_, ?_⟩
      · rw [assertSafeStop_pwr]
        exact fault
      · obtain ⟨r, l, e, is⟩ := log powered
        exact ⟨r, newest_assertSafeStop e, is⟩
      · rw [flag, watchdog_assertSafeStop rfl]
        exact expired
      · rw [watchdog_assertSafeStop rfl]
        exact left
      · exact assertSafeStop_keeps (shows_frame (by decide)) frame
    · rw [if_neg solo]
      have same {P : State → Prop} (C : Keeps [.twin, .sent] P) (h : P (watchdogBites s)) : P (abdicate 0x0907 (watchdogBites s)) := abdicate_keeps C h
      have pwr := same (shows_pwr (x := (watchdogBites s).pwr) (by decide)) rfl
      have ind := same (shows_ind (x := (watchdogBites s).ind) (by decide)) rfl
      refine ⟨by rw [pwr]; exact fault, fun no => absurd no solo, fun _ => by rw [pwr]; exact stop, fun primary => ?_, fun powered => ?_, ?_, ?_, same (shows_frame (by decide)) frame⟩
      · exact abdicate_silences (by rw [twin]; exact primary)
      · rw [ind]
        obtain ⟨r, l, e, is⟩ := log powered
        exact ⟨r, e ▸ List.mem_cons_self, is⟩
      · rw [flag, fld_abdicate]
        exact expired
      · rw [fld_abdicate]
        exact left
  · rw [if_pos rfl]
    exact ⟨stops, frame, mem, (assertSafeStop_asserts s).2⟩
  · rw [if_neg other]
    exact refused_refuseAccess ..

end Sys2Proof.Machine

end

section

set_option Elab.async false

/-! # Restart triggers (R337, R411 to R413, R591) -/

namespace Sys2Proof.Machine

open Sys2Proof.Claims

section
variable {s t : State} {tr : RestartTrigger} {d : Bool}

/-! ## A restart begins -/

theorem leaveReplay_leaves (s : State) : (leaveReplay s).replay.active = false ∧
    (s.replay.active = true → (leaveReplay s).frame.num = s.replay.live) := by
  unfold leaveReplay
  split
  · rename_i h
    have off : s.replay.active = false := by simpa using h
    exact ⟨off, fun on => absurd (off.symm.trans on) (by decide)⟩
  · exact ⟨rfl, fun _ => rfl⟩

/-- What a restart does after its replay is left, before it stands begun: swaps are refused, it is recorded, and the fabric halts. -/
def haltForRestart (tr : RestartTrigger) (doubt : Bool) (s : State) : State :=
  haltFabric (report { unit := 0x90, cls := 0x09, ev := 4, sev := if tr = .conductor then Severity.fault else openSev 1
                       detail := triggerCode tr, doubt := doubt } (refuseSwaps 7 s))

theorem haltForRestart_keeps {P : State → Prop}
    (C : Keeps [.indlog, .regs, .cnd, .wld, .log, .queue, .mem, .twin, .swap, .sec, .bus, .sent, .free] P) (h : P s) :
    P (haltForRestart tr d s) :=
  haltFabric_keeps (C.mono (by decide)) (report_keeps (C.mono (by decide)) (refuseSwaps_keeps (C.mono (by decide)) h))

/-- The Warden shows that a restart has begun. -/
def showRestart (tr : RestartTrigger) (recent : List Tick) (s : State) : State :=
  setSat F.WDN_SAFE_STAT_RESTARTS (recent.length + 1) (setFlag F.WDN_SAFE_STAT_RESTART true
    { s with safe := { s.safe with
        restart := some { trigger := tr, began := s.time.count, phase := .halted, ignored := [] }
        restartTimes := s.time.count :: recent } })

theorem beginRestart_eq (tr : RestartTrigger) (d : Bool) (s : State) :
    beginRestart tr d s = showRestart tr (restartsInWindow s) (haltForRestart tr d (leaveReplay s)) := rfl

theorem showRestart_rest {P : State → Prop} {recent : List Tick} (C : Keeps [.regs, .restart] P) (h : P s) : P (showRestart tr recent s) :=
  setSat_keeps (C.mono (by decide)) (setFlag_keeps (C.mono (by decide)) (C.upd_restart (by decide) h))

theorem showRestart_restart {recent : List Tick} :
    (showRestart tr recent s).safe.restart = some { trigger := tr, began := s.time.count, phase := .halted, ignored := [] } := rfl

theorem beginRestart_begun : RestartBegun tr s (beginRestart tr d s) := by
  have leases := beginRestart_leases (tr := tr) (d := d) (s := s)
  rw [beginRestart_eq] at leases ⊢
  have time : (haltForRestart tr d (leaveReplay s)).time = s.time :=
    haltForRestart_keeps (shows_time (by decide)) (leaveReplay_keeps (shows_time (by decide)) rfl)
  have replay : (showRestart tr (restartsInWindow s) (haltForRestart tr d (leaveReplay s))).replay = (leaveReplay s).replay :=
    showRestart_rest (shows_replay (by decide)) (haltForRestart_keeps (shows_replay (by decide)) rfl)
  have frame : (showRestart tr (restartsInWindow s) (haltForRestart tr d (leaveReplay s))).frame = (leaveReplay s).frame :=
    showRestart_rest (shows_frame (by decide)) (haltForRestart_keeps (shows_frame (by decide)) rfl)
  have cnd : (showRestart tr (restartsInWindow s) (haltForRestart tr d (leaveReplay s))).cnd = (haltForRestart tr d (leaveReplay s)).cnd :=
    showRestart_rest (shows_cnd (by decide)) rfl
  refine ⟨⟨_, showRestart_restart, rfl, rfl, by rw [time], rfl⟩, by rw [cnd]; rfl, by rw [cnd]; rfl, by rw [cnd]; rfl, leases, ?_, fun on => ?_⟩
  · rw [replay]
    exact (leaveReplay_leaves s).1
  · rw [frame]
    exact (leaveReplay_leaves s).2 on

theorem beginRestart_keeps {P : State → Prop}
    (C : Keeps [.indlog, .regs, .num, .cnd, .wld, .restart, .log, .queue, .mem, .twin, .swap, .sec, .bus, .replay, .sent, .free] P) (h : P s) :
    P (beginRestart tr d s) := by
  rw [beginRestart_eq]
  exact showRestart_rest (C.mono (by decide)) (haltForRestart_keeps (C.mono (by decide)) (leaveReplay_keeps (C.mono (by decide)) h))

/-! ## A trigger that is refused or ignored -/

/-- What is fatal asserts both outputs. -/
theorem fatal_asserts (e : Event) (s : State) : (fatal e s).pwr.faultN = true ∧ (fatal e s).pwr.safeStop = true := by
  have pwr : (fatal e s).pwr = (assertSafeStop (assertFaultN (report { e with sev := .fatal } s))).pwr :=
    abdicate_keeps (shows_pwr (by decide)) rfl
  rw [pwr, assertSafeStop_pwr]
  exact ⟨rfl, rfl⟩

/-- A trigger past RESTART_MAX begins nothing and is fatal (R413). -/
theorem triggerRestart_spent (free : s.safe.restart = none) (spent : fld s F.WDN_RESTART_CFG_RESTART_MAX ≤ (restartsInWindow s).length) :
    (triggerRestart tr d s).safe.restart = none ∧ (triggerRestart tr d s).pwr.faultN = true ∧ (triggerRestart tr d s).pwr.safeStop = true ∧
      (triggerRestart tr d s).cnd = s.cnd ∧ (triggerRestart tr d s).wld = s.wld := by
  rw [triggerRestart_of_none free, if_pos spent]
  refine ⟨?_, (fatal_asserts ..).1, (fatal_asserts ..).2, refuseRestart_keeps (shows_cnd (by decide)) rfl, refuseRestart_keeps (shows_wld (by decide)) rfl⟩
  rw [refuseRestart_keeps (shows_safe (by decide)) rfl, free]

theorem triggerRestart_free (free : s.safe.restart = none) (few : (restartsInWindow s).length < fld s F.WDN_RESTART_CFG_RESTART_MAX) :
    triggerRestart tr d s = beginRestart tr d s := by
  rw [triggerRestart_of_none free, if_neg (Nat.not_le.mpr few)]

/-- A trigger while a restart runs is noted, and nothing else changes (R411). -/
theorem triggerRestart_noted {r : RestartSt} (h : s.safe.restart = some r) :
    (triggerRestart tr d s).safe.restart = some { r with ignored := r.ignored ++ [tr] } ∧ (triggerRestart tr d s).cnd = s.cnd ∧
      (triggerRestart tr d s).frame = s.frame := by
  rw [triggerRestart_of_running h, report_safe, report_cnd, report_frame]
  exact ⟨rfl, rfl, rfl⟩

/-! ## The Conductor does not answer -/

/-- What the Warden does of itself where the Conductor does not acknowledge an edge, before the restart (R337). -/
def revokeAll (s : State) : State := markDoubt 4 (revokeWhere true (fun _ => true) s)

theorem conductorFaulty_eq (s : State) : conductorFaulty s = triggerRestart .conductor true (revokeAll s) := rfl

theorem revokeAll_keeps {P : State → Prop}
    (C : Keeps [.indlog, .regs, .frame, .cnd, .log, .queue, .mem, .sec, .bus, .sent, .free] P) (h : P s) : P (revokeAll s) :=
  markDoubt_keeps (C.mono (by decide)) (revokeWhere_keeps (C.mono (by decide)) h)

theorem revokeAll_settings (s : State) : SameSettings s (revokeAll s) := markDoubt_settings (revokeWhere_settings (.refl s))

/-- A restart that begins after the Warden's own revocations begins for the state before them too. -/
theorem restartBegun_of_before (h : RestartBegun tr t u) (time : t.time = s.time) (replay : t.replay = s.replay) : RestartBegun tr s u := by
  unfold RestartBegun at *
  rw [time, replay] at h
  exact h

end

/-! ## The triggers -/

section
variable {s : State}

theorem exec_safeCtlRestart (r : Requester) : exec (.safeCtlRestart r) s = .next (live s fun s =>
    if r = .warden then triggerRestart .command false s else refuseAccess r F.WDN_SAFE_CTL_RESTART.addr s) := rfl

theorem exec_doubtPersist : exec .doubtPersist s = .next (live s fun s =>
    if s.safe.persist ≥ fld s F.WDN_RESTART_CFG_PERSIST then triggerRestart .persist false s else s) := rfl

theorem exec_edgeAckTimeout : exec .edgeAckTimeout s = .next (fabric s fun s =>
    if s.frame.started ∧ s.frame.edgeTick + 125 ≤ s.time.count then conductorFaulty s else s) := rfl

end

/-- Settles O35. -/
theorem restartTriggersBeginOrRefuse : Obligations.RestartTriggersBeginOrRefuse := by
  unfold Obligations.RestartTriggersBeginOrRefuse
  intro s up free spent
  refine ⟨fun ⟨idle, few⟩ => goes_live up (exec_safeCtlRestart .warden) ?_, fun ⟨idle, all⟩ => goes_live up (exec_safeCtlRestart .warden) ?_,
    fun r runs => goes_live up (exec_safeCtlRestart .warden) ?_, fun r other => goes_live up (exec_safeCtlRestart r) ?_,
    fun early => idle_live exec_doubtPersist (if_neg (Nat.not_le.mpr early)), fun late => ⟨fun ⟨idle, few⟩ => goes_live up exec_doubtPersist ?_,
      fun ⟨idle, all⟩ => goes_live up exec_doubtPersist ?_, fun r runs => goes_live up exec_doubtPersist ?_⟩,
    fun fup started late => goes_fabric fup exec_edgeAckTimeout ?_, fun early => idle_fabric exec_edgeAckTimeout (if_neg ?_)⟩
  · rw [if_pos rfl, triggerRestart_free idle few]
    exact ⟨beginRestart_begun, beginRestart_keeps (shows_pwr (by decide)) rfl, beginRestart_keeps (shows_cells (by decide)) rfl⟩
  · rw [if_pos rfl]
    obtain ⟨restart, fault, stop, cnd, -⟩ := triggerRestart_spent (tr := .command) (d := false) idle all
    exact ⟨restart, fault, stop, cnd⟩
  · rw [if_pos rfl]
    exact triggerRestart_noted runs
  · rw [if_neg other]
    exact refused_refuseAccess ..
  · rw [if_pos late, triggerRestart_free idle few]
    exact beginRestart_begun
  · rw [if_pos late]
    obtain ⟨restart, fault, stop, -⟩ := triggerRestart_spent (tr := .persist) (d := false) idle all
    exact ⟨restart, fault, stop⟩
  · rw [if_pos late]
    obtain ⟨restart, cnd, -⟩ := triggerRestart_noted (tr := .persist) (d := false) runs
    exact ⟨restart, cnd⟩
  · rw [if_pos ⟨started, late⟩]
    have safe : (revokeAll s).safe = s.safe := revokeAll_keeps (shows_safe (by decide)) rfl
    have time : (revokeAll s).time = s.time := revokeAll_keeps (shows_time (by decide)) rfl
    have max : fld (revokeAll s) F.WDN_RESTART_CFG_RESTART_MAX = fld s F.WDN_RESTART_CFG_RESTART_MAX :=
      (revokeAll_settings s).fld (by decide) (by decide)
    have window := (revokeAll_settings s).restarts safe time
    obtain ⟨leases, doubt⟩ := conductorFaulty_revokes s
    rw [conductorFaulty_eq] at leases doubt ⊢
    refine ⟨leases, doubt, fun ⟨idle, few⟩ => ?_, fun ⟨idle, all⟩ => ?_, fun r runs => ?_⟩
    · rw [triggerRestart_free (by rw [safe, idle]) (by rw [window, max]; exact few)]
      exact restartBegun_of_before beginRestart_begun time (revokeAll_keeps (shows_replay (by decide)) rfl)
    · obtain ⟨-, fault, stop, -⟩ := triggerRestart_spent (tr := .conductor) (d := true) (s := revokeAll s) (by rw [safe, idle]) (by rw [window, max]; exact all)
      exact ⟨fault, stop⟩
    · exact (triggerRestart_noted (by rw [safe, runs])).1
  · rintro ⟨started, late⟩
    rcases early with out | early
    · rw [out] at started
      exact absurd started (by decide)
    · exact absurd late (Nat.not_le.mpr early)

end Sys2Proof.Machine

end

section

set_option Elab.async false

/-! # What a restart of the fabric wipes, reloads and leaves (R412, R413, R570) -/

namespace Sys2Proof.Machine

open Sys2Proof.Claims

section
variable {s t u : State}

/-! ## What stands through a restart -/

/-- From s to t image, fuses, journal and Umber's state are the same, and so are the field prior and the origin. -/
structure Carried (s t : State) : Prop where
  image : t.image = s.image
  fuse : t.fuse = s.fuse
  umb : t.umb = s.umb
  journal : t.swap.journal = s.swap.journal
  prior : t.wld.prior = s.wld.prior
  originF : t.wld.originF = s.wld.originF
  originGen : t.wld.originGen = s.wld.originGen

theorem Carried.refl (s : State) : Carried s s := ⟨rfl, rfl, rfl, rfl, rfl, rfl, rfl⟩

theorem Carried.trans (h : Carried s t) (g : Carried t u) : Carried s u :=
  ⟨g.image.trans h.image, g.fuse.trans h.fuse, g.umb.trans h.umb, g.journal.trans h.journal, g.prior.trans h.prior,
    g.originF.trans h.originF, g.originGen.trans h.originGen⟩

theorem keeps_carried {W : List Part} (h : ∀ p ∈ W, p ∉ ([.image, .fuse, .umb, .swap, .wld, .epoch, .cold] : List Part)) : Keeps W (Carried s) := by
  have e : Carried s = fun t => (t.image, t.fuse, t.umb) = (s.image, s.fuse, s.umb) ∧ (t.swap.journal = s.swap.journal ∧
      (t.wld.prior = s.wld.prior ∧ t.wld.originF = s.wld.originF ∧ t.wld.originGen = s.wld.originGen)) := by
    funext t
    simp only [Prod.mk.injEq]
    exact propext ⟨fun k => ⟨⟨k.image, k.fuse, k.umb⟩, k.journal, k.prior, k.originF, k.originGen⟩,
      fun ⟨⟨image, fuse, umb⟩, journal, prior, originF, originGen⟩ => ⟨image, fuse, umb, journal, prior, originF, originGen⟩⟩
  have out {p : Part} (hp : p ∈ W) (l : List Part) (sub : l ⊆ [.image, .fuse, .umb, .swap, .wld, .epoch, .cold]) : p ∉ l := fun m => h p hp (sub m)
  rw [e]
  refine (Keeps.both (fun _ => shows_image fun p hp => out hp _ (by decide)) (Keeps.both (fun _ => shows_fuse fun p hp => out hp _ (by decide))
    (fun _ => shows_umb fun p hp => out hp _ (by decide))) _).and (.and ?_ ?_)
  · exact .of_shows (f := State.swap) (fun _ => shows_swap fun p hp => out hp _ (by decide)) fun x => x.journal = s.swap.journal
  · exact .of_shows (f := State.wld) (fun _ => shows_wld fun p hp => out hp _ (by decide))
      fun x => x.prior = s.wld.prior ∧ x.originF = s.wld.originF ∧ x.originGen = s.wld.originGen

/-- Another state of World with the same prior and origin. -/
theorem Carried.wld {x : WldSt} (h : Carried s t) (prior : x.prior = t.wld.prior) (originF : x.originF = t.wld.originF)
    (originGen : x.originGen = t.wld.originGen) : Carried s { t with wld := x } :=
  ⟨h.image, h.fuse, h.umb, h.journal, prior.trans h.prior, originF.trans h.originF, originGen.trans h.originGen⟩

/-- Another state of the swaps with the same journal. -/
theorem Carried.swap {x : SwapSt} (h : Carried s t) (journal : x.journal = t.swap.journal) : Carried s { t with swap := x } :=
  ⟨h.image, h.fuse, h.umb, journal.trans h.journal, h.prior, h.originF, h.originGen⟩

/-! ## Refused swaps -/

theorem resetStaged_carried (m : Nat) (h : Carried s t) : Carried s (resetStaged m t) := by
  have reset : Carried s ((touched m t).foldl (fun s a => setReg s (a + 0x8000) (regWord s a)) t) :=
    foldl_keeps (P := Carried s) (fun _ _ k => setReg_keeps (keeps_carried (by decide)) k) _ _ h
  unfold resetStaged
  extract_lets -merge s1 _ s2
  have tables : Carried s s2 := ite_keeps (P := Carried s) (reset.wld rfl rfl rfl) reset
  exact ite_keeps (P := Carried s) (tables.swap rfl) tables

theorem refuseSwaps_carried (n : Nat) (h : Carried s t) : Carried s (refuseSwaps n t) := by
  have recentre : Carried s (refuseRecentre n t) := by
    unfold refuseRecentre refuseRecentreAs
    split
    · exact h
    · exact tellRefusal_keeps (keeps_carried (by decide)) (swapRefused_keeps (keeps_carried (by decide))
        (bump_keeps (keeps_carried (by decide)) (setFld_keeps (keeps_carried (by decide)) (h.swap rfl))))
  unfold refuseSwaps refuseUser refuseUserAs
  split
  · exact recentre
  · exact tellRefusal_keeps (keeps_carried (by decide)) (swapRefused_keeps (keeps_carried (by decide)) (setFld_keeps (keeps_carried (by decide))
      (showSwap_keeps (keeps_carried (by decide)) (resetStaged_carried _ (recentre.swap rfl)))))

theorem beginRestart_carried {tr : RestartTrigger} {d : Bool} : Carried s (beginRestart tr d s) := by
  rw [beginRestart_eq]
  exact showRestart_rest (keeps_carried (by decide)) (haltFabric_keeps (keeps_carried (by decide)) (report_keeps (keeps_carried (by decide))
    (refuseSwaps_carried 7 (leaveReplay_keeps (keeps_carried (by decide)) (.refl s)))))

/-! ## Memory accesses -/

theorem worldFault_carried (a : Nat) (h : Carried s t) : Carried s (worldFault a t) := by
  have told {c : Nat} {t : State} (h : Carried s t) : Carried s
      (report { unit := 0x82, cls := 0x0C, ev := 0, sev := .warning, detail := c } (setFlag F.WLD_ERR_STAT_SEPIA true t)) :=
    report_keeps (keeps_carried (by decide)) (setFlag_keeps (keeps_carried (by decide)) h)
  unfold worldFault
  extract_lets
  split
  · exact scheduleRewrite_keeps (keeps_carried (by decide)) (told h)
  · split
    · exact setFlag_keeps (keeps_carried (by decide)) (report_keeps (keeps_carried (by decide)) (setFlag_keeps (keeps_carried (by decide))
        (h.wld rfl rfl rfl)))
    · split
      · exact told (h.wld rfl rfl rfl)
      · exact h

theorem findBad_carried (k a : Nat) (h : Carried s t) : Carried s (findBad k a t) := by
  have told : Carried s (memEvent k (wordSynd t a) a .warning t) := memEvent_keeps (keeps_carried (by decide)) h
  unfold findBad
  exact worldFault_carried a (setSynd_keeps (keeps_carried (by decide)) (ite_keeps (P := Carried s) (bump_keeps (keeps_carried (by decide)) told)
    (bump_keeps (keeps_carried (by decide)) told)))

theorem writePartial_carried (a : Nat) (bs : List Byte) (b : Bool) (h : Carried s t) : Carried s (writePartial a bs b t) := by
  have put {t : State} (h : Carried s t) : Carried s (putBytes a bs t) := putBytes_keeps (keeps_carried (by decide)) h
  unfold writePartial
  extract_lets s1
  have written : Carried s s1 := by
    unfold s1
    split
    · exact put h
    · exact put (correct_keeps (keeps_carried (by decide)) (countCe_keeps (keeps_carried (by decide)) h))
    · exact put (bump_keeps (keeps_carried (by decide)) h)
    · exact put (findBad_carried 2 a h)
  exact ite_keeps (P := Carried s) (setSynd_keeps (keeps_carried (by decide)) written) written

theorem writeBytes_carried (b : Bool) (n a : Nat) (bs : List Byte) (h : Carried s t) : Carried s (writeBytes b n a bs t) := by
  induction n generalizing t a bs with
  | zero => exact h
  | succ n ih =>
    unfold writeBytes
    exact ite_keeps (P := Carried s) h (ih _ _ (ite_keeps (P := Carried s) (writeFull_keeps (keeps_carried (by decide)) h)
      (writePartial_carried a _ b h)))

/-! ## The reload -/

theorem reloadSection_carried (f : Option (FlashRead × FlashRead)) (x : ImgSection) (h : Carried s t) : Carried s (reloadSection f t x) := by
  have again : Carried s (reread x.index true t) := reread_keeps (keeps_carried (by decide)) h
  unfold reloadSection
  refine ite_keeps (P := Carried s) h ?_
  split
  · exact again
  · split
    · exact writeBytes_carried _ _ _ _ again
    · exact fatal_keeps (keeps_carried (by decide)) again

theorem journalledSet_of (h : Carried s t) : journalledSet t = journalledSet s := by
  funext n
  unfold journalledSet
  rw [h.image, h.journal]

theorem journalledGrants_of (h : Carried s t) : journalledGrants t = journalledGrants s := by
  unfold journalledGrants
  rw [h.image, h.journal]

/-- The tables that the reload takes from the image and the journal (R570). -/
structure Reloaded (s t : State) : Prop extends Carried s t where
  koLive : t.wld.koLive = (List.range 8).map (journalledSet s)
  layers : t.wld.layers = s.image.layers.map fun l => (l.1.val, l.2)
  grants : t.swap.grants = journalledGrants s

theorem reloadTables (h : Carried s t) : Reloaded s ([1, 2, 3, 4].foldl (fun s i => reloadTable i s) t) ∧
    ([1, 2, 3, 4].foldl (fun s i => reloadTable i s) t).wld.cur = t.wld.cur := by
  refine ⟨⟨⟨h.image, h.fuse, h.umb, h.journal, h.prior, h.originF, h.originGen⟩, ?_, ?_, ?_⟩, rfl⟩
  · show (List.range 8).map (journalledSet t) = _
    rw [journalledSet_of h]
  · show t.image.layers.map _ = _
    rw [h.image]
  · exact journalledGrants_of (t := reloadTable 2 (reloadTable 1 t)) ⟨h.image, h.fuse, h.umb, h.journal, h.prior, h.originF, h.originGen⟩

theorem Reloaded.keeps {W : List Part} (h : ∀ p ∈ W, p ∉ ([.image, .fuse, .umb, .swap, .wld, .epoch, .cold] : List Part)) : Keeps W (Reloaded s) := by
  have e : Reloaded s = fun t => Carried s t ∧ (t.wld.koLive = (List.range 8).map (journalledSet s) ∧
      t.wld.layers = s.image.layers.map fun l => (l.1.val, l.2)) ∧ t.swap.grants = journalledGrants s :=
    funext fun t => propext ⟨fun k => ⟨k.toCarried, ⟨k.koLive, k.layers⟩, k.grants⟩, fun ⟨c, ⟨ko, layers⟩, grants⟩ => ⟨c, ko, layers, grants⟩⟩
  have out {p : Part} (hp : p ∈ W) (l : List Part) (sub : l ⊆ [.image, .fuse, .umb, .swap, .wld, .epoch, .cold]) : p ∉ l := fun m => h p hp (sub m)
  rw [e]
  refine (keeps_carried h).and (.and ?_ ?_)
  · exact .of_shows (f := State.wld) (fun _ => shows_wld fun p hp => out hp _ (by decide))
      fun x => x.koLive = (List.range 8).map (journalledSet s) ∧ x.layers = s.image.layers.map fun l => (l.1.val, l.2)
  · exact .of_shows (f := State.swap) (fun _ => shows_swap fun p hp => out hp _ (by decide)) fun x => x.grants = journalledGrants s

theorem reloadFabric_reloads (f : Option (FlashRead × FlashRead)) (h : Carried s t) : Reloaded s (reloadFabric f t) := by
  unfold reloadFabric
  extract_lets -merge s1 _ s2
  have sections : Carried s s1 :=
    foldl_keeps (P := Carried s) (fun _ x k => reloadSection_carried f x k) _ _ (setFld_keeps (keeps_carried (by decide)) h)
  have tables : Reloaded s s2 := (reloadTables (Keeps.upd_mem (W := [.mem]) (keeps_carried (by decide)) (by decide) sections)).1
  exact refreshResident_keeps (Reloaded.keeps (by decide)) (reloadRegs_keeps (Reloaded.keeps (by decide)) tables)

end

/-! ## The wipe (R384, R412) -/

section
variable {s t : State}

theorem foldl_queueAnswer_reqs (l : List PendReq) (s : State) :
    Carried s (l.foldl (fun s r => queueAnswer r 0x18 0 [] s) s) :=
  foldl_keeps (P := Carried s) (fun _ _ k => queueAnswer_keeps (keeps_carried (by decide)) k) l s (.refl s)

/-- Nothing runs, waits or is leased in the Conductor. -/
structure Emptied (t : State) : Prop where
  grants : t.cnd.grants = []
  leases : t.cnd.leases = []
  items : t.cnd.items = []
  reqs : t.cnd.reqs = []
  ops : t.cnd.ops = []

theorem revokeRequests_reqs (s : State) : (revokeRequests s).cnd.reqs = [] ∧ (revokeRequests s).cnd.ops = [] := by
  unfold revokeRequests
  extract_lets -merge s1 answers _ s2
  have shown : ((s.cnd.ops.map (·.ctx)).foldl (fun s c => showOp c s) s2).cnd = s2.cnd :=
    foldl_keeps (P := fun t : State => t.cnd = s2.cnd) (fun _ c k => showOp_keeps (ctx_1 := c) (shows_cnd (by decide)) k) _ _ rfl
  rw [shown]
  exact ⟨rfl, rfl⟩

theorem wipeFabric_wipes (s : State) : Emptied (wipeFabric s) ∧ (wipeFabric s).wld.cur = WorldData.empty ∧ Carried s (wipeFabric s) := by
  obtain ⟨reqs, ops⟩ := revokeRequests_reqs (zeroRanges (wipeRanges s .allSram) s)
  have revoked : Carried s (revokeRequests (zeroRanges (wipeRanges s .allSram) s)) :=
    revokeRequests_keeps (keeps_carried (by decide)) (zeroRanges_keeps (keeps_carried (by decide)) (.refl s))
  exact ⟨⟨rfl, rfl, rfl, reqs, ops⟩, rfl,
    ⟨revoked.image, revoked.fuse, revoked.umb, revoked.journal, revoked.prior, revoked.originF, revoked.originGen⟩⟩

/-- The structures of the machine stand in the fabric's memories alone. -/
theorem structByte_outside {a : Nat} (h : ∀ p ∈ sramRanges, ¬(p.1 ≤ a ∧ a < p.1 + p.2)) : structByte s a = 0 := by
  unfold sramRanges at h
  simp only [List.forall_mem_cons] at h
  obtain ⟨sweep, -, cache, store, select, -⟩ := h
  unfold structByte
  rw [if_neg (show ¬(0x800C000000 ≤ a ∧ a < 0x800E000000) by omega), if_neg (show ¬(0x8010000000 ≤ a ∧ a < 0x8013000000) by omega),
    if_neg (show ¬(0x8014000000 ≤ a ∧ a < 0x8014400000) by omega)]
  split
  · rfl
  · rw [if_neg (by omega)]

theorem tabGet_filter_of {α : Type} {d : α} {t : Tab α} {p : Nat × α → Bool} {a : Nat} (h : ∀ v, p (a, v) = true) :
    tabGet d (t.filter p) a = tabGet d t a := by
  induction t with
  | nil => rfl
  | cons e t ih =>
    obtain ⟨k, v⟩ := e
    by_cases same : a = k
    · subst same
      rw [List.filter_cons_of_pos (h v), tabGet, tabGet, if_pos rfl, if_pos rfl]
    · rw [List.filter_cons]
      split
      · rw [tabGet, tabGet, if_neg same, if_neg same, ih]
      · rw [tabGet, if_neg same, ih]

theorem tabGet_filter_out {α : Type} {d : α} {t : Tab α} {p : Nat × α → Bool} {a : Nat} (h : ∀ v, p (a, v) = false) :
    tabGet d (t.filter p) a = d := by
  induction t with
  | nil => rfl
  | cons e t ih =>
    obtain ⟨k, v⟩ := e
    rw [List.filter_cons]
    split
    · rename_i kept
      have other : a ≠ k := fun e => by
        subst e
        exact absurd ((h v).symm.trans kept) (by decide)
      rw [tabGet, if_neg other, ih]
    · exact ih

/-- The memories after the wipe of the fabric. -/
theorem wipeFabric_mem (s : State) : (wipeFabric s).mem.cells = (zeroRanges sramRanges s).mem.cells ∧
    (wipeFabric s).mem.synd = (zeroRanges sramRanges s).mem.synd ∧ (wipeFabric s).mem.blank = (zeroRanges sramRanges s).mem.blank := by
  have mem : (revokeRequests (zeroRanges (wipeRanges s .allSram) s)).mem = (zeroRanges sramRanges s).mem :=
    revokeRequests_keeps (shows_mem (by decide)) rfl
  exact ⟨(congrArg MemSt.cells mem :), (congrArg MemSt.synd mem :), (congrArg MemSt.blank mem :)⟩

theorem sramRanges_aligned {p : Nat × Nat} (h : p ∈ sramRanges) (a : Nat) :
    (p.1 ≤ 8 * (a / 8) ∧ 8 * (a / 8) < p.1 + p.2) ↔ (p.1 ≤ a ∧ a < p.1 + p.2) := by
  have aligned : ∀ p ∈ sramRanges, p.1 % 8 = 0 ∧ p.2 % 8 = 0 := by decide
  obtain ⟨first, len⟩ := aligned p h
  omega

/-- Whether the wipe zeroes an address. -/
def inSram (a : Nat) : Bool := sramRanges.any fun r => decide (r.1 ≤ a ∧ a < r.1 + r.2)

theorem inSram_iff {a : Nat} : inSram a = true ↔ ∃ p ∈ sramRanges, p.1 ≤ a ∧ a < p.1 + p.2 := by
  simp only [inSram, List.any_eq_true, decide_eq_true_eq]

theorem inSram_word {a : Nat} : inSram (8 * (a / 8)) = inSram a := by
  have same : inSram (8 * (a / 8)) = true ↔ inSram a = true := by
    rw [inSram_iff, inSram_iff]
    exact exists_congr fun p => and_congr_right fun h => sramRanges_aligned h a
  cases h : inSram a with
  | true => exact same.mpr h
  | false => exact Bool.eq_false_iff.mpr fun k => absurd (h.symm.trans (same.mp k)) (by decide)

theorem wipeFabric_inside {a : Nat} (h : inSram a = true) : byteAt (wipeFabric s) a = 0 ∧ wordSynd (wipeFabric s) a = 0 := by
  obtain ⟨cells, synd, blank⟩ := wipeFabric_mem s
  have blanks : blanked (wipeFabric s) a = true := by
    rw [blanked, blank]
    exact (List.any_append ..).trans (by rw [show (sramRanges.any fun r => decide (r.1 ≤ a ∧ a < r.1 + r.2)) = true from h, Bool.true_or])
  constructor
  · rw [byteAt, placedByte, if_pos blanks, cells]
    refine (congrArg (0 ^^^ ·) (tabGet_filter_out fun v => ?_)).trans (BitVec.xor_self)
    show (!inSram a) = false
    rw [h]
    rfl
  · rw [wordSynd, synd]
    refine tabGet_filter_out fun v => ?_
    show (!inSram (8 * (a / 8))) = false
    rw [inSram_word, h]
    rfl

theorem wipeFabric_outside {a : Nat} (h : ∀ p ∈ sramRanges, ¬(p.1 ≤ a ∧ a < p.1 + p.2)) :
    byteAt (wipeFabric s) a = byteAt s a ∧ wordSynd (wipeFabric s) a = wordSynd s a := by
  have out : inSram a = false := Bool.eq_false_iff.mpr fun k => by
    obtain ⟨p, hp, i⟩ := inSram_iff.mp k
    exact h p hp i
  have placed (t : State) : placedByte t a = 0 := by
    rw [placedByte, structByte_outside h, ite_self]
  obtain ⟨cells, synd, -⟩ := wipeFabric_mem s
  constructor
  · rw [byteAt, byteAt, placed, placed, cells]
    refine congrArg (0 ^^^ ·) (tabGet_filter_of fun v => ?_)
    show (!inSram a) = true
    rw [out]
    rfl
  · rw [wordSynd, wordSynd, synd]
    refine tabGet_filter_of fun v => ?_
    show (!inSram (8 * (a / 8))) = true
    rw [inSram_word, out]
    rfl

/-! ## The tests of the warm-up -/

/-- What a unit that leaves service leaves behind when its work has been taken from it. -/
def leaveService (u : Nat) (s : State) : State :=
  let s3 := clearAffinity u (dropTask u s)
  { s3 with
    cnd := { s3.cnd with
      outOfService := if s3.cnd.outOfService.contains u then s3.cnd.outOfService else u :: s3.cnd.outOfService
      releasing := s3.cnd.releasing.filter (· ≠ u) }
    safe := { s3.safe with passed := s3.safe.passed.filter (· ≠ u) }
    frame := { s3.frame with
      quarantined := if u < 64 ∧ ¬ s3.frame.quarantined.contains u then u :: s3.frame.quarantined
        else s3.frame.quarantined } }

theorem takeOut_eq (w : Bool) (u : Nat) (s : State) : takeOut w u s =
    showService u true (leaveService u (revokeWhere w (fun l => l.holder = u) (abandonOn u (loseItem u (returnBlock u s))))) := rfl

/-- Where nothing runs and nothing is leased, a unit that leaves service takes nothing with it. -/
theorem takeOut_emptied {w : Bool} {n : Nat} (h : Emptied s) : Emptied (takeOut w n s) := by
  have block : returnBlock n s = s := by unfold returnBlock; rw [h.grants]; rfl
  have item : loseItem n s = s := by unfold loseItem; rw [h.grants]; rfl
  have op : abandonOn n s = s := by unfold abandonOn opOnUnit; rw [h.grants]; rfl
  have lease : revokeWhere w (fun l => l.holder = n) s = s := by unfold revokeWhere; rw [h.leases]; rfl
  have cnd : (takeOut w n s).cnd = (leaveService n s).cnd := by
    rw [takeOut_eq, block, item, op, lease]
    exact showService_keeps (shows_cnd (by decide)) rfl
  obtain ⟨grants, leases, items, reqs, ops⟩ := h
  constructor <;> rw [cnd]
  · show s.cnd.grants.filter _ = []
    rw [grants]
    rfl
  · exact leases
  · exact items
  · exact reqs
  · exact ops

theorem Emptied.of_cnd (h : Emptied s) (e : t.cnd = s.cnd) : Emptied t := by
  obtain ⟨grants, leases, items, reqs, ops⟩ := h
  constructor <;> rw [e] <;> assumption

theorem testFabric_emptied (e : RestartEnv) (h : Emptied s) : Emptied (testFabric e s) := by
  unfold testFabric
  extract_lets s1
  have tested : Emptied s1 := by
    unfold s1 startTests
    extract_lets us t1
    have out : Emptied t1 := foldl_keeps (P := Emptied) (fun _ _ k => takeOut_emptied k) _ _ h
    exact out.of_cnd (showInfService_keeps (shows_cnd (by decide)) rfl)
  exact ite_keeps (P := Emptied) (tested.of_cnd rfl) (ite_keeps (P := Emptied) (tested.of_cnd (fatal_keeps (shows_cnd (by decide)) rfl))
    (tested.of_cnd rfl))

/-! ## A restart to its warm-up -/

/-- A restart that is to be wiped and reloaded reaches its warm-up (R412). -/
theorem runRestart_runs {r : RestartSt} (e : RestartEnv) (runs : s.safe.restart = some r) (halted : r.phase = .halted) :
    (runRestart e s).safe.restart = some { r with phase := .warmUp } ∧ Emptied (runRestart e s) ∧ (runRestart e s).wld.cur = WorldData.empty ∧
      Reloaded s (runRestart e s) := by
  obtain ⟨empty, cur, carried⟩ := wipeFabric_wipes s
  have reloaded := reloadFabric_reloads (some (e.flash0, e.flash1)) carried
  have cur' : (testFabric e (reloadFabric (some (e.flash0, e.flash1)) (wipeFabric s))).wld.cur = WorldData.empty :=
    testFabric_keeps (shows_epoch (by decide)) (reloadFabric_keeps (shows_epoch (by decide)) cur)
  have tested := testFabric_emptied e (empty.of_cnd (reloadFabric_keeps (flashes_1 := some (e.flash0, e.flash1)) (shows_cnd (by decide)) rfl))
  have rel : Reloaded s (testFabric e (reloadFabric (some (e.flash0, e.flash1)) (wipeFabric s))) := testFabric_keeps (Reloaded.keeps (by decide)) reloaded
  unfold runRestart
  simp only [runs, halted, if_neg (show ¬(RestartPhase.halted = .warmUp) by decide)]
  exact ⟨trivial, tested.of_cnd rfl, cur', Keeps.upd_restart (W := [.restart]) (Reloaded.keeps (by decide)) (by decide) rel⟩

theorem runRestart_idle {r : RestartSt} (e : RestartEnv) (runs : s.safe.restart = some r) (warm : r.phase = .warmUp) : runRestart e s = s := by
  unfold runRestart
  simp only [runs, warm, if_true]

theorem runRestart_none (e : RestartEnv) (h : s.safe.restart = none) : runRestart e s = s := by
  unfold runRestart
  simp only [h]

theorem exec_fabricRestart (tr : RestartTrigger) (e : RestartEnv) : exec (.fabricRestart tr e) s = .next (live s fun s =>
    runRestart e (if s.safe.restart.isNone then triggerRestart tr false s else s)) := rfl

theorem exec_restartStepTimeout : exec .restartStepTimeout s = .next (live s fun s =>
    if s.safe.restart.any (stepOver s) then fatal (uncoded .restartStep 0x90 .fatal) s else s) := rfl

end

/-- Settles O36. -/
theorem fabricRestartWipesAndReloads : Obligations.FabricRestartWipesAndReloads := by
  unfold Obligations.FabricRestartWipesAndReloads
  intro s up
  refine ⟨fun tr e begins halted => goes_live up (exec_fabricRestart tr e) ?_, fun a h => wipeFabric_inside (inSram_iff.mpr h), fun a h => wipeFabric_outside h,
    fun tr e r runs warm => idle_live (exec_fabricRestart tr e) ?_, fun tr e idle spent => goes_live up (exec_fabricRestart tr e) ?_,
    fun r runs late => goes_live up exec_restartStepTimeout ?_, fun early => idle_live exec_restartStepTimeout (if_neg ?_)⟩
  · cases runs : s.safe.restart with
    | none =>
      have begun := triggerRestart_free (tr := tr) (d := false) runs (begins runs)
      obtain ⟨⟨r, started, trigger, phase, -⟩, -⟩ := beginRestart_begun (tr := tr) (d := false) (s := s)
      have carried : Carried s (beginRestart tr false s) := beginRestart_carried
      obtain ⟨restart, empty, cur, reloaded⟩ := runRestart_runs e started phase
      rw [if_pos (show (none : Option RestartSt).isNone = true from rfl), begun]
      refine ⟨⟨_, restart, rfl, fun _ => trigger, nofun⟩, cur, empty.leases, empty.items, empty.reqs, empty.ops, ?_, ?_, ?_,
        reloaded.prior.trans carried.prior, reloaded.originF.trans carried.originF, reloaded.originGen.trans carried.originGen,
        reloaded.umb.trans carried.umb, reloaded.fuse.trans carried.fuse⟩
      · rw [reloaded.koLive, journalledSet_of carried]
      · rw [reloaded.layers, carried.image]
      · rw [reloaded.grants, journalledGrants_of carried]
    | some r =>
      obtain ⟨restart, empty, cur, reloaded⟩ := runRestart_runs e runs (halted r runs)
      rw [if_neg (show ¬(some r).isNone = true from Bool.false_ne_true)]
      refine ⟨⟨_, restart, rfl, nofun, fun x k => ?_⟩, cur, empty.leases, empty.items, empty.reqs, empty.ops, reloaded.koLive, reloaded.layers,
        reloaded.grants, reloaded.prior, reloaded.originF, reloaded.originGen, reloaded.umb, reloaded.fuse⟩
      rw [Option.some.inj k]
  · rw [runs]
    exact runRestart_idle e runs warm
  · obtain ⟨restart, fault, stop, -, wld⟩ := triggerRestart_spent (tr := tr) (d := false) idle spent
    rw [if_pos (by rw [idle]; rfl), runRestart_none e restart]
    exact ⟨fault, stop, restart, wld⟩
  · rw [if_pos (by rw [runs]; exact late)]
    exact ⟨(fatal_asserts ..).1, (fatal_asserts ..).2, by rw [fatal_keeps (shows_safe (by decide)) rfl]⟩
  · intro late
    cases runs : s.safe.restart with
    | none =>
      rw [runs] at late
      exact absurd late Bool.false_ne_true
    | some r =>
      rw [runs] at late
      exact absurd ((early r runs).symm.trans late) (by decide)

end Sys2Proof.Machine

end

section

set_option Elab.async false

/-! # Madder judges (R46, R396 to R401, R451) -/

namespace Sys2Proof.Machine

open Sys2Proof.Claims

section
variable {s t u : State}

/-! ## What a bundle that goes out leaves of the frame's verdict -/

/-- From s to t Madder's verdict on the frame is the same, and so is what it says of doubt. -/
structure SameVerdict (s t : State) : Prop where
  madder : t.frame.madder = s.frame.madder
  doubt : t.frame.flags.getLsbD 0 = s.frame.flags.getLsbD 0

theorem SameVerdict.refl (s : State) : SameVerdict s s := ⟨rfl, rfl⟩

theorem SameVerdict.trans (h : SameVerdict s t) (g : SameVerdict t u) : SameVerdict s u := ⟨g.madder.trans h.madder, g.doubt.trans h.doubt⟩

theorem SameVerdict.of_frame (h : SameVerdict s t) (e : u.frame = t.frame) : SameVerdict s u := ⟨by rw [e, h.madder], by rw [e, h.doubt]⟩

theorem markDoubt_verdict {b : Nat} (other : b ≠ 0) (h : SameVerdict s t) : SameVerdict s (markDoubt b t) := by
  refine h.trans ?_
  unfold markDoubt
  refine ite_keeps (P := SameVerdict t) (.refl t) ⟨rfl, ?_⟩
  show (t.frame.flags ||| 1#16 <<< b).getLsbD 0 = _
  rw [BitVec.getLsbD_or, BitVec.getLsbD_shiftLeft]
  have : decide (0 < b) = true := decide_eq_true (Nat.pos_of_ne_zero other)
  simp [this]

theorem doubtEvent_verdict {b : Nat} {e : Event} (other : b ≠ 0) (h : SameVerdict s t) : SameVerdict s (doubtEvent b e t) :=
  (markDoubt_verdict other h).of_frame report_frame

theorem chooseBundle_verdict (h : SameVerdict s t) : SameVerdict s (chooseBundle t) := by
  have put (c : BundleChoice) {t : State} (h : SameVerdict s t) : SameVerdict s { t with frame := { t.frame with choice := some c } } :=
    ⟨h.madder, h.doubt⟩
  unfold chooseBundle
  refine ite_keeps (P := SameVerdict s) (put _ h) (ite_keeps (P := SameVerdict s) (put _ h) ?_)
  split
  · exact ite_keeps (P := SameVerdict s) (put _ h) (put _ (doubtEvent_verdict (by decide) h))
  · exact put _ h

/-- The frame's verdict and its choice are the same. -/
structure SameChoice (s t : State) : Prop extends SameVerdict s t where
  choice : t.frame.choice = s.frame.choice

theorem SameChoice.refl (s : State) : SameChoice s s := ⟨.refl s, rfl⟩

theorem SameChoice.of_frame (h : SameChoice s t) (e : u.frame = t.frame) : SameChoice s u := ⟨h.toSameVerdict.of_frame e, by rw [e, h.choice]⟩

theorem phaseDone_choice (p : Nat) (h : SameChoice s t) : SameChoice s (phaseDone p t) :=
  ite_keeps (P := SameChoice s) h ⟨⟨h.madder, h.doubt⟩, h.choice⟩

theorem markDoubt_choice (b : Nat) (s : State) : (markDoubt b s).frame.choice = s.frame.choice :=
  ite_keeps (P := fun t : State => t.frame.choice = s.frame.choice) rfl rfl

theorem judgeLapse_choice (h : SameChoice s t) : SameChoice s (judgeLapse t) := by
  unfold judgeLapse
  extract_lets -merge s1
  have told : SameChoice s s1 := h.of_frame (setFlag_keeps (shows_frame (by decide)) rfl)
  have marked {t : State} (h : SameChoice s t) : SameChoice s (markDoubt 8 t) :=
    ⟨markDoubt_verdict (by decide) h.toSameVerdict, (markDoubt_choice 8 t).trans h.choice⟩
  refine ite_keeps (P := SameChoice s) h (ite_keeps (P := SameChoice s) (marked told) ?_)
  exact (marked (t := { s1 with bus := { s1.bus with overTold := true } }) (told.of_frame rfl)).of_frame report_frame

theorem putBundle_choice (b : BundleBody) (h : SameChoice s t) : SameChoice s (putBundle b t) := by
  unfold putBundle
  refine SameChoice.of_frame (t := { t with frame := { t.frame with
    emittedFrame := true, emissions := t.frame.emissions + 1, out := some b, outStatus := bundleStatus t b } }) ⟨⟨h.madder, h.doubt⟩, h.choice⟩ ?_
  exact transmitBundle_keeps (shows_frame (by decide)) rfl

theorem emitBundle_choice (h : SameChoice s t) : SameChoice s (emitBundle t) := by
  unfold emitBundle
  extract_lets s1
  have judged : SameChoice s s1 := judgeLapse_choice h
  split
  · exact putBundle_choice _ (judged.of_frame (raiseFloor_keeps (shows_frame (by decide)) (takeV_keeps (shows_frame (by decide))
      (releaseHold_keeps (shows_frame (by decide)) rfl))))
  · exact putBundle_choice _ (judged.of_frame (holdBody_keeps (shows_frame (by decide)) (takeOver_keeps (shows_frame (by decide)) rfl)))

/-- A bundle that is tried leaves the frame's verdict. -/
theorem tryEmit_verdict (h : SameVerdict s t) : SameVerdict s (tryEmit t) := by
  have chosen : SameVerdict s (chooseBundle t) := chooseBundle_verdict h
  unfold tryEmit
  extract_lets s1
  refine ite_keeps (P := SameVerdict s) h ?_
  split
  · exact chosen
  · exact chosen.trans (emitBundle_choice (phaseDone_choice 5 (.refl _))).toSameVerdict

/-- Once the inputs are there the bundle is chosen, and goes out if it is no hold (R46, R451). -/
theorem tryEmit_emits (h : emitReady s = true) : (tryEmit s).frame.choice.isSome = true ∧
    ((tryEmit s).frame.choice ≠ some .hold → (tryEmit s).frame.emittedFrame = true) := by
  have chosen := chooseBundle_chosen s
  unfold tryEmit
  rw [h, if_neg (by decide)]
  extract_lets s1
  split
  · rename_i hold
    exact ⟨chosen, fun k => absurd hold k⟩
  · have same := (emitBundle_choice (phaseDone_choice 5 (.refl s1))).choice
    refine ⟨by rw [same]; exact chosen, fun _ => ?_⟩
    exact (emitBundle_emits (s := phaseDone 5 s1) ⟨rfl, [], rfl⟩).1

theorem tryEmit_idle (h : emitReady s = false) : tryEmit s = s := if_pos (by rw [h]; rfl)

/-! ## Verdicts on the frame's own trajectory -/

theorem exec_madderVerdict (twin : Bool) (u : Option Upset) : exec (.madderVerdict twin u) s = .next (fabric s fun s =>
    if !s.frame.started then s
    else tryEmit (countOpen countDie (if twin then verdictTwin u s else verdictOwn u s) 0x89)) := rfl

/-- What is left to a verdict when it is given: a counter of the model's choice, and the bundle that it may let go out. -/
def afterVerdict (s : State) : State := tryEmit (countOpen countDie s 0x89)

theorem countOpen_keep {P : State → Prop} (C : Keeps [.regs, .free] P) (h : P s) : P (countOpen countDie s 0x89) :=
  countOpen_keeps (C.mono (by decide)) (fun _ _ _ k => countDie_keeps (C.mono (by decide)) k) h

theorem afterVerdict_keeps {P : State → Prop} (C : Keeps [.raise, .indlog, .fuse, .regs, .frame, .emit, .umb, .log, .queue, .boot, .slv, .twin, .bus, .sent, .free] P)
    (h : P s) : P (afterVerdict s) := tryEmit_keeps C (countOpen_keep (C.mono (by decide)) h)

theorem afterVerdict_verdict (s : State) : SameVerdict s (afterVerdict s) :=
  tryEmit_verdict (SameVerdict.of_frame (.refl s) (countOpen_keep (shows_frame (by decide)) rfl))

/-- What the emission waits for looks at the frame's course and doubts, at restarts, at Madder and at the twin's messages. -/
theorem emitReady_congr (started : t.frame.started = s.frame.started) (emitted : t.frame.emittedFrame = s.frame.emittedFrame)
    (choice : t.frame.choice = s.frame.choice) (flags : t.frame.flags = s.frame.flags) (free : t.frame.noFree = s.frame.noFree)
    (num : t.frame.num = s.frame.num) (restart : t.safe.restart = s.safe.restart) (mad : t.mad = s.mad)
    (twin : (t.twin.pair, t.twin.twinOnOwn, t.twin.offerIn, t.twin.offerVerdict, t.twin.twinOnTwin) =
      (s.twin.pair, s.twin.twinOnOwn, s.twin.offerIn, s.twin.offerVerdict, s.twin.twinOnTwin)) : emitReady t = emitReady s := by
  simp only [Prod.mk.injEq] at twin
  obtain ⟨pair, own, offer, verdict, on⟩ := twin
  unfold emitReady inputsIn twinVerdict restarting doubted
  simp only [started, emitted, choice, flags, free, num, restart, mad, pair, own, offer, verdict, on]

/-- From s to t what a judgement and its triggers look at is the same. -/
structure SameJudgement (s t : State) : Prop where
  settings : SameSettings s t
  mad : t.mad = s.mad
  num : t.frame.num = s.frame.num
  madder : t.frame.madder = s.frame.madder
  time : t.time = s.time
  restart : t.safe.restart = s.safe.restart
  times : t.safe.restartTimes = s.safe.restartTimes

theorem SameJudgement.refl (s : State) : SameJudgement s s := ⟨.refl s, rfl, rfl, rfl, rfl, rfl, rfl⟩

theorem SameJudgement.trans (h : SameJudgement s t) (g : SameJudgement t u) : SameJudgement s u :=
  ⟨h.settings.trans g.settings, g.mad.trans h.mad, g.num.trans h.num, g.madder.trans h.madder, g.time.trans h.time,
    g.restart.trans h.restart, g.times.trans h.times⟩

theorem SameJudgement.of_parts (settings : SameSettings s t) (mad : t.mad = s.mad) (frame : t.frame = s.frame) (time : t.time = s.time)
    (safe : t.safe = s.safe) : SameJudgement s t :=
  ⟨settings, mad, by rw [frame], by rw [frame], time, by rw [safe], by rw [safe]⟩

/-- What was recent, and how many restarts there have been, is the same too. -/
theorem SameJudgement.windows (h : SameJudgement s t) : (∀ n, recentDis t n = recentDis s n) ∧ restartsInWindow t = restartsInWindow s := by
  refine ⟨fun n => ?_, ?_⟩
  · unfold recentDis
    rw [h.mad, h.num]
  · unfold restartsInWindow
    rw [h.times, h.time, h.settings.fld (f := F.WDN_RESTART_CFG_RESTART_WIN) (by decide) (by decide)]

/-! ## A disagreement -/

theorem report_judgement (e : Event) (s : State) : SameJudgement s (report e s) :=
  .of_parts (report_settings (.refl s)) (report_keeps (shows_mad (by decide)) rfl) report_frame (report_keeps (shows_time (by decide)) rfl)
    (report_keeps (shows_safe (by decide)) rfl)

theorem doubtEvent_judgement (b : Nat) (e : Event) (s : State) : SameJudgement s (doubtEvent b e s) := by
  refine SameJudgement.trans (t := markDoubt b s) ?_ (report_judgement _ _)
  refine ⟨markDoubt_settings (.refl s), markDoubt_keeps (shows_mad (by decide)) rfl, markDoubt_keeps (shows_num (by decide)) rfl, ?_,
    markDoubt_keeps (shows_time (by decide)) rfl, ?_, ?_⟩
  · exact ite_keeps (P := fun t : State => t.frame.madder = s.frame.madder) rfl rfl
  · exact markDoubt_keeps (shows_restart (by decide)) rfl
  · rw [markDoubt_keeps (shows_safe (x := s.safe) (by decide)) rfl]

theorem takeOut_judgement (warden : Bool) (n : Nat) (s : State) : SameJudgement s (takeOut warden n s) := by
  have before {P : State → Prop} (C : Keeps [.indlog, .regs, .cnd, .log, .queue, .mem, .swp, .sec, .bus, .sent, .free] P) (h : P s) :
      P (clearAffinity n (dropTask n (revokeWhere warden (fun l => l.holder = n) (abandonOn n (loseItem n (returnBlock n s)))))) :=
    clearAffinity_keeps (C.mono (by decide)) (dropTask_keeps (C.mono (by decide)) (revokeWhere_keeps (C.mono (by decide))
      (abandonOn_keeps (C.mono (by decide)) (loseItem_keeps (C.mono (by decide)) (returnBlock_keeps (C.mono (by decide)) h)))))
  have frame := before (shows_frame (x := s.frame) (by decide)) rfl
  have safe := before (shows_safe (x := s.safe) (by decide)) rfl
  have last {u : State} : (showService n true u).frame = u.frame ∧ (showService n true u).safe = u.safe :=
    ⟨showService_keeps (shows_frame (by decide)) rfl, showService_keeps (shows_safe (by decide)) rfl⟩
  refine ⟨takeOut_settings (.refl s), takeOut_keeps (shows_mad (by decide)) rfl, takeOut_keeps (shows_num (by decide)) rfl, ?_,
    takeOut_keeps (shows_time (by decide)) rfl, takeOut_keeps (shows_restart (by decide)) rfl, ?_⟩
  · rw [takeOut_eq, last.1]
    exact congrArg (·.madder) frame
  · rw [takeOut_eq, last.2]
    exact congrArg (·.restartTimes) safe

/-- A unit is taken out of service and awaits its pack (R25, R418). -/
def takeOutForPack (n : Nat) (s : State) : State := showSched (kermesDue (kermesUnit n) (takeOut true n s))

theorem takeOutForPack_judgement (n : Nat) (s : State) : SameJudgement s (takeOutForPack n s) := by
  refine (takeOut_judgement true n s).trans ?_
  have due (t : State) : SameJudgement t (kermesDue (kermesUnit n) t) :=
    ite_keeps (P := SameJudgement t) (.refl t) ⟨fun _ _ _ => rfl, rfl, rfl, rfl, rfl, rfl, rfl⟩
  exact (due _).trans (.of_parts (showSched_settings (.refl _)) (showSched_keeps (shows_mad (by decide)) rfl)
    (showSched_keeps (shows_frame (by decide)) rfl) (showSched_keeps (shows_time (by decide)) rfl) (showSched_keeps (shows_safe (by decide)) rfl))

theorem takeOutForPack_cnd (n : Nat) (s : State) : (takeOutForPack n s).cnd = (takeOut true n s).cnd :=
  showSched_keeps (shows_cnd (by decide)) (kermesDue_keeps (shows_cnd (by decide)) rfl)

theorem takeOutForPack_outOfWork (n : Nat) (s : State) : OutOfWork n (takeOutForPack n s) :=
  (outOfWork_of_cnd (takeOutForPack_cnd n s)).mpr (takeOut_outOfWork true n s)

theorem takeOutForPack_keeps_outOfWork {m n : Nat} (h : OutOfWork n s) : OutOfWork n (takeOutForPack m s) :=
  (outOfWork_of_cnd (takeOutForPack_cnd m s)).mpr (takeOut_keeps_outOfWork h)

/-- The units that a disagreement implicates again leave service. -/
theorem secondDis_eq (old : List Disagree) (d : Disagree) (detail : Nat) (s : State) : secondDis old d detail s =
    (let tile := d.tile.filter fun t => old.any fun o => o.tile = some t
     let lane := d.lane.filter fun n => old.any fun o => o.lane = some n
     let s1 := match tile with
       | some t => takeOutForPack t s
       | none => s
     let s2 := match lane with
       | some n => takeOutForPack (72 + n) s1
       | none => s1
     if tile.isSome ∨ lane.isSome then report { unit := 0x91, cls := 0x08, ev := 1, sev := .fault, detail := detail, domain := 0 } s2
     else s2) := rfl

theorem secondDis_judgement (old : List Disagree) (d : Disagree) (detail : Nat) (s : State) : SameJudgement s (secondDis old d detail s) := by
  rw [secondDis_eq]
  extract_lets tile lane s1 s2
  clear_value tile lane
  have first : SameJudgement s s1 := by
    unfold s1
    split
    · exact takeOutForPack_judgement ..
    · exact .refl s
  have second : SameJudgement s s2 := by
    unfold s2
    split
    · exact first.trans (takeOutForPack_judgement ..)
    · exact first
  exact ite_keeps (second.trans (report_judgement ..)) second

theorem secondDis_outOfWork {old : List Disagree} {d : Disagree} {detail n : Nat} (tile : d.tile = some n)
    (again : ∃ o ∈ old, o.tile = some n) : OutOfWork n (secondDis old d detail s) := by
  have seen : (old.any fun o => decide (o.tile = some n)) = true := by
    obtain ⟨o, ho, eq⟩ := again
    exact List.any_eq_true.mpr ⟨o, ho, decide_eq_true eq⟩
  have tile : (d.tile.filter fun t => old.any fun o => o.tile = some t) = some n := by rw [tile, Option.filter_some, if_pos seen]
  rw [secondDis_eq, tile]
  extract_lets _ lane s1 s2
  clear_value lane
  have second : OutOfWork n s2 := by
    unfold s2
    split
    · exact takeOutForPack_keeps_outOfWork (takeOutForPack_outOfWork n s)
    · exact takeOutForPack_outOfWork n s
  rw [if_pos (.inl rfl)]
  exact (outOfWork_of_cnd (report_keeps (shows_cnd (by decide)) rfl)).mpr second

theorem haltFabric_outOfWork {n : Nat} (h : n ∈ s.cnd.outOfService) : OutOfWork n (haltFabric s) :=
  ⟨(fades_revokeWhere true (fun _ => true) s).outOfService ▸ h, fun _ hg => absurd hg List.not_mem_nil, fun l hl _ => haltFabric_leases l hl⟩

/-- A unit that is out of work stays so through a trigger of a restart. -/
theorem triggerRestart_outOfWork {tr : RestartTrigger} {d : Bool} {n : Nat} (h : OutOfWork n s) : OutOfWork n (triggerRestart tr d s) := by
  have same {u : State} (e : u.cnd = s.cnd) : OutOfWork n u := (outOfWork_of_cnd e).mpr h
  cases runs : s.safe.restart with
  | some r =>
    rw [triggerRestart_of_running runs]
    exact same (report_keeps (shows_cnd (by decide)) rfl)
  | none =>
    rw [triggerRestart_of_none runs]
    refine ite_keeps (P := OutOfWork n) (same (refuseRestart_keeps (shows_cnd (by decide)) rfl)) ?_
    rw [beginRestart_eq]
    refine (outOfWork_of_cnd (showRestart_rest (shows_cnd (by decide)) rfl)).mpr (haltFabric_outOfWork ?_)
    rw [report_keeps (shows_cnd (x := s.cnd) (by decide)) (refuseSwaps_keeps (shows_cnd (by decide)) (leaveReplay_keeps (shows_cnd (by decide)) rfl))]
    exact h.1

theorem triggerRestart_madder (tr : RestartTrigger) (d : Bool) (s : State) : (triggerRestart tr d s).frame.madder = s.frame.madder := by
  cases runs : s.safe.restart with
  | some r =>
    rw [triggerRestart_of_running runs, report_frame]
  | none =>
    rw [triggerRestart_of_none runs]
    refine ite_keeps (P := fun t : State => t.frame.madder = s.frame.madder) ?_ ?_
    · rw [refuseRestart_keeps (shows_frame (x := s.frame) (by decide)) rfl]
    · have frame : (beginRestart tr d s).frame = (leaveReplay s).frame := by
        rw [beginRestart_eq]
        exact showRestart_rest (shows_frame (by decide)) (haltForRestart_keeps (shows_frame (by decide)) rfl)
      rw [frame]
      exact ite_keeps (P := fun t : State => t.frame.madder = s.frame.madder) rfl rfl

theorem triggerRestart_begins {tr : RestartTrigger} {d : Bool} (free : s.safe.restart = none)
    (few : (restartsInWindow s).length < fld s F.WDN_RESTART_CFG_RESTART_MAX) :
    ∃ r, (triggerRestart tr d s).safe.restart = some r ∧ r.trigger = tr ∧ r.phase = .halted := by
  obtain ⟨⟨r, runs, trigger, phase, -⟩, -⟩ := beginRestart_begun (tr := tr) (d := d) (s := s)
  exact ⟨r, by rw [triggerRestart_free free few]; exact runs, trigger, phase⟩

/-- What a disagreement over trajectory x leaves (R396 to R400). -/
structure Disagrees (x : Traj) (s t : State) : Prop where
  mad : t.mad = { s.mad with dis := ⟨s.frame.num, x.tile, implicatedLane x⟩ :: recentDis s 64 }
  madder : t.frame.madder = s.frame.madder
  doubt : t.frame.flags.getLsbD 0 = true
  tiles : ∀ n, x.tile = some n → (∃ o ∈ recentDis s 16, o.tile = some n) → OutOfWork n t
  restarts : 3 ≤ (recentDis s 64).length → s.safe.restart = none →
    (restartsInWindow s).length < fld s F.WDN_RESTART_CFG_RESTART_MAX →
    ∃ r, t.safe.restart = some r ∧ r.trigger = .madder ∧ r.phase = .halted

theorem disagree_disagrees (f : MadFail) (x : Traj) (s : State) : Disagrees x s (disagree f x s) := by
  unfold disagree
  extract_lets detail old d s1 _ s2 s3
  have doubted : SameJudgement s s1 := doubtEvent_judgement ..
  obtain ⟨windows, restarts⟩ := doubted.windows
  obtain ⟨windows, restarts⟩ := doubted.windows
  let marked : State := { s1 with mad := { s1.mad with dis := d :: recentDis s1 64 } }
  have shown {P : State → Prop} (C : Keeps [.regs] P) (h : P marked) : P (showDis s2) :=
    showDis_keeps C (capture_keeps C (bump_keeps C h))
  have settings : SameSettings marked (showDis s2) := by
    refine setSat_settings (f := F.WDN_MAD_STAT_DIS_64) (by decide) (capture_settings (by decide) ?_ (bump_settings (by decide) (.refl _)))
    intro p hp
    rcases List.mem_cons.mp hp with rfl | hp
    · exact (by decide : Shown F.WDN_MAD_CAP_LO_DETAIL)
    · rw [List.mem_singleton.mp hp]
      exact (by decide : Shown F.WDN_MAD_CAP_HI_DETAIL)
  have noted : SameJudgement marked s3 := (SameJudgement.of_parts settings (shown (shows_mad (by decide)) rfl)
    (shown (shows_frame (by decide)) rfl) (shown (shows_time (by decide)) rfl) (shown (shows_safe (by decide)) rfl)).trans (secondDis_judgement ..)
  have mad : s3.mad = { s.mad with dis := d :: recentDis s 64 } := by
    rw [noted.mad]
    show { s1.mad with dis := d :: recentDis s1 64 } = _
    rw [doubted.mad, windows]
  have num : s3.frame.num = s.frame.num := noted.num.trans doubted.num
  have madder : s3.frame.madder = s.frame.madder := noted.madder.trans doubted.madder
  have tiles (n : Nat) (tile : x.tile = some n) (again : ∃ o ∈ recentDis s 16, o.tile = some n) : OutOfWork n s3 :=
    secondDis_outOfWork tile again
  have doubt : Doubtful 0 s3 := secondDis_keeps (keeps_doubtful (by decide)) (shown (keeps_doubtful (by decide))
    (report_keeps (keeps_doubtful (by decide)) (markDoubt_marks (by decide) s)))
  have restart : s3.safe.restart = s.safe.restart := noted.restart.trans doubted.restart
  have settings : SameSettings s s3 := doubted.settings.trans noted.settings
  have began : restartsInWindow s3 = restartsInWindow s := noted.windows.2.trans restarts
  have count : (recentDis s3 64).length = (recentDis s 64).length + 1 := by
    unfold recentDis
    rw [mad, num, List.filter_cons_of_pos (by simp [d, frameDist])]
    unfold recentDis
    rw [List.filter_filter]
    simp
  split
  · let told : State := report { unit := 0x91, cls := 0x08, ev := 2, sev := .fault, detail := detail, domain := 0 } s3
    have same : SameJudgement s3 told := report_judgement _ _
    refine ⟨?_, ?_, triggerRestart_doubtful _ _ (report_keeps (keeps_doubtful (by decide)) doubt), fun n tile again => ?_, fun _ free few => ?_⟩
    · rw [triggerRestart_keeps (shows_mad (x := s3.mad) (by decide)) (report_keeps (shows_mad (by decide)) rfl), mad]
    · rw [triggerRestart_madder, report_frame, madder]
    · exact triggerRestart_outOfWork ((outOfWork_of_cnd (report_keeps (shows_cnd (by decide)) rfl)).mpr (tiles n tile again))
    · refine triggerRestart_begins (s := told) ((same.restart.trans restart).trans free) ?_
      rw [same.windows.2, began, (settings.trans same.settings).fld (f := F.WDN_RESTART_CFG_RESTART_MAX) (by decide) (by decide)]
      exact few
  · rename_i few
    exact ⟨mad, madder, doubt, tiles, fun many => absurd (by omega) few⟩

/-! ## Madder's verdict on the own trajectory -/

theorem sendSealed_twin {chan ty : Nat} {payload : List Byte} {out : Nat → List (List Byte) → Output} :
    (sendSealed chan ty payload out s).twin = { s.twin with txCtr := (sendSealed chan ty payload out s).twin.txCtr } := by
  unfold sendSealed
  split <;> rfl

/-- Sending changes nothing of the twin's state but the counters of the channels. -/
theorem sendWoad_twin {chan : Nat} {m : WoadMsg} :
    (sendWoad chan m s).twin = { s.twin with txCtr := (sendWoad chan m s).twin.txCtr } := by
  unfold sendWoad
  extract_lets p
  split
  · exact ite_keeps (P := fun t : State => t.twin = { s.twin with txCtr := t.twin.txCtr }) rfl rfl
  · exact sendSealed_twin

theorem sendVerdict_twin {twin : Bool} {v detail : Nat} :
    (sendVerdict twin v detail s).twin = { s.twin with txCtr := (sendVerdict twin v detail s).twin.txCtr } :=
  ite_keeps (P := fun t : State => t.twin = { s.twin with txCtr := t.twin.txCtr }) rfl sendWoad_twin

/-- The state in which the frame's own trajectory has passed. -/
def passOwn (s : State) : State :=
  let s1 := phaseDone 4 s
  { s1 with frame := { s1.frame with madder := 0 }, mad := { s1.mad with verdictOwn := some true } }

/-- The state in which the frame's own trajectory x is rejected, before the disagreement has its consequences. -/
def rejectOwn (f : MadFail) (x : Traj) (s : State) : State :=
  let s1 := phaseDone 4 s
  { s1 with frame := { s1.frame with madder := 1 }, mad := { s1.mad with verdictOwn := some false, detailOwn := madderDetail f x } }

/-- A phase that is done shows in the frame's list of phases alone. -/
theorem phaseDone_eq (p : Nat) (s : State) : ∃ done, phaseDone p s = { s with frame := { s.frame with done := done } } := by
  unfold phaseDone
  split
  · exact ⟨s.frame.done, rfl⟩
  · exact ⟨_, rfl⟩

/-- What is against a trajectory is one of the findings, or an upset's. -/
theorem pickFail_some {fs : List MadFail} {u : Option Upset} (h : u ≠ none ∨ fs ≠ []) :
    ∃ f v, pickFail fs u s = (some f, v) ∧ (v = s ∨ v = { s with free := s.free + 1 }) := by
  unfold pickFail
  split
  · exact ⟨_, _, rfl, .inl rfl⟩
  · exact absurd rfl (h.resolve_left fun k => k rfl)
  · rename_i f rest
    have lt : Config.freeValue s.free % (rest.length + 1) < (f :: rest).length := Nat.mod_lt _ (Nat.succ_pos _)
    exact ⟨_, _, Prod.ext (List.getElem?_eq_getElem lt) rfl, .inr rfl⟩

theorem verdictOwn_idle {u : Option Upset} (h : s.mad.subject = none ∨ s.mad.verdictOwn.isSome = true ∨ s.frame.stopped.getD 4 false = true) :
    verdictOwn u s = s := by
  refine if_pos ?_
  rcases h with h | h | h <;> rw [h] <;> simp only [Option.isNone_none, Bool.true_or, Bool.or_true]

theorem verdictOwn_judges {u : Option Upset} {x : Traj} (subject : s.mad.subject = some x) (first : s.mad.verdictOwn = none)
    (time : s.frame.stopped.getD 4 false = false) : verdictOwn u s =
      (match (judgeOwn u s).mad.verdictOwn with
        | some true => sendVerdict false 0 0 (judgeOwn u s)
        | _ => sendVerdict false 1 (judgeOwn u s).mad.detailOwn (judgeOwn u s)) :=
  if_neg (by rw [subject, first, time]; exact Bool.false_ne_true)

theorem verdictOwn_passes {x : Traj} (subject : s.mad.subject = some x) (first : s.mad.verdictOwn = none)
    (time : s.frame.stopped.getD 4 false = false) (good : madderFails s x.record x.keepOut (edgePose s) = []) :
    verdictOwn none s = sendVerdict false 0 0 (passOwn s) := by
  have judged : judgeOwn none s = passOwn s := by
    unfold judgeOwn
    rw [subject]
    simp only [good]
    rfl
  rw [verdictOwn_judges subject first time, judged]
  rfl

theorem verdictOwn_rejects {u : Option Upset} {x : Traj} (subject : s.mad.subject = some x) (first : s.mad.verdictOwn = none)
    (time : s.frame.stopped.getD 4 false = false) (bad : u ≠ none ∨ madderFails s x.record x.keepOut (edgePose s) ≠ []) :
    ∃ f v n, (v = s ∨ v = { s with free := s.free + 1 }) ∧
      verdictOwn u s = sendVerdict false 1 n (disagree f x (rejectOwn f x v)) := by
  obtain ⟨f, v, picked, from_s⟩ := pickFail_some (s := s) bad
  have judged : judgeOwn u s = disagree f x (rejectOwn f x v) := by
    unfold judgeOwn
    rw [subject]
    simp only [picked]
    rfl
  refine ⟨f, v, (judgeOwn u s).mad.detailOwn, from_s, ?_⟩
  rw [verdictOwn_judges subject first time, judged]
  have no : (disagree f x (rejectOwn f x v)).mad.verdictOwn = some false := by
    rw [(disagree_disagrees ..).mad]
    rfl
  rw [no]

theorem assertSafeStop_regs (s : State) : SameRegsBut (F.WDN_SAFE_STAT_SAFE_STOP.addr :: logAddrs) s (assertSafeStop s) := by
  unfold assertSafeStop
  refine ite_keeps (P := SameRegsBut _ s) (.refl _ s) ?_
  refine SameRegsBut.report (.setFlag (.same (.refl _ s) rfl rfl) List.mem_cons_self) (List.subset_cons_self ..)

/-- A fatal event writes two registers of status. -/
theorem fatal_regs (e : Event) (s : State) : SameRegsBut (F.WDN_SAFE_STAT_SAFE_STOP.addr :: logAddrs) s (fatal e s) := by
  unfold fatal
  refine abdicate_keeps (P := SameRegsBut _ s) (keeps_sameRegs (by decide)) (SameRegsBut.trans ?_ (assertSafeStop_regs _))
  exact SameRegsBut.same (.report (.refl _ s) (List.subset_cons_self ..)) rfl rfl

theorem goes_madderVerdict {u : Option Upset} {Q : State → Prop} (up : fabricUp s = true) (runs : s.frame.started = true)
    (q : Q (afterVerdict (verdictOwn u s))) : Goes (.madderVerdict false u) s Q := by
  refine goes_fabric up (exec_madderVerdict false u) ?_
  rw [runs]
  exact q

end

/-! ## The obligation -/

theorem passOwn_mad (s : State) : (passOwn s).mad = { s.mad with verdictOwn := some true } := by
  obtain ⟨done, same⟩ := phaseDone_eq 4 s
  unfold passOwn
  rw [same]

theorem passOwn_frame (s : State) : ∃ done, (passOwn s).frame = { s.frame with madder := 0, done := done } := by
  obtain ⟨done, same⟩ := phaseDone_eq 4 s
  unfold passOwn
  rw [same]
  exact ⟨done, rfl⟩

theorem passOwn_keeps {P : State → Prop} (C : Keeps [.frame, .mad] P) (h : P s) : P (passOwn s) := by
  unfold passOwn
  exact C.upd_frame_mad (by decide) (phaseDone_keeps (C.mono (by decide)) h)

/-- What a verdict tells the twin, and what it counts, lets no bundle wait that did not wait before. -/
theorem emitReady_passOwn (s : State) : emitReady (countOpen countDie (sendVerdict false 0 0 (passOwn s)) 0x89) =
    emitReady { s with mad := { s.mad with verdictOwn := some true } } := by
  have keep {P : State → Prop} (C : Keeps [.twin, .sent, .regs, .free] P) (h : P (passOwn s)) :
      P (countOpen countDie (sendVerdict false 0 0 (passOwn s)) 0x89) :=
    countOpen_keep (C.mono (by decide)) (sendVerdict_keeps (C.mono (by decide)) h)
  obtain ⟨done, shown⟩ := passOwn_frame s
  have frame : (countOpen countDie (sendVerdict false 0 0 (passOwn s)) 0x89).frame = { s.frame with madder := 0, done := done } :=
    shown ▸ keep (shows_frame (by decide)) rfl
  have restart : (countOpen countDie (sendVerdict false 0 0 (passOwn s)) 0x89).safe.restart = s.safe.restart :=
    keep (shows_restart (by decide)) (passOwn_keeps (shows_restart (by decide)) rfl)
  have mad : (countOpen countDie (sendVerdict false 0 0 (passOwn s)) 0x89).mad = { s.mad with verdictOwn := some true } :=
    passOwn_mad s ▸ keep (shows_mad (by decide)) rfl
  have twin : (countOpen countDie (sendVerdict false 0 0 (passOwn s)) 0x89).twin = (sendVerdict false 0 0 (passOwn s)).twin :=
    countOpen_keep (shows_twin (by decide)) rfl
  have before : (passOwn s).twin = s.twin := passOwn_keeps (shows_twin (by decide)) rfl
  refine emitReady_congr (by rw [frame]) (by rw [frame]) (by rw [frame]) (by rw [frame]) (by rw [frame]) (by rw [frame]) restart mad ?_
  rw [twin, sendVerdict_twin, before]

theorem madderPasses {x : Traj} {u : Option Upset} {s : State} (up : fabricUp s = true) (runs : s.frame.started = true)
    (subject : s.mad.subject = some x) (first : s.mad.verdictOwn = none) (time : s.frame.stopped.getD 4 false = false) :
    Claims.MadderPasses x u s := by
  rintro rfl good
  refine goes_madderVerdict up runs ?_
  rw [verdictOwn_passes subject first time good]
  have keep {P : State → Prop} (C : Keeps [.twin, .sent] P) (h : P (passOwn s)) : P (sendVerdict false 0 0 (passOwn s)) := sendVerdict_keeps C h
  have after := afterVerdict_verdict (sendVerdict false 0 0 (passOwn s))
  obtain ⟨done, shown⟩ := passOwn_frame s
  have frame : (sendVerdict false 0 0 (passOwn s)).frame = { s.frame with madder := 0, done := done } := shown ▸ keep (shows_frame (by decide)) rfl
  have mad : (sendVerdict false 0 0 (passOwn s)).mad = { s.mad with verdictOwn := some true } :=
    passOwn_mad s ▸ keep (shows_mad (by decide)) rfl
  refine ⟨(afterVerdict_keeps (shows_mad (by decide)) rfl).trans mad, ?_, ?_, fun ready => ?_⟩
  · rw [after.madder, frame]
  · rw [after.doubt, frame]
  · exact tryEmit_emits ((emitReady_passOwn s).trans ready)

theorem madderRejects {x : Traj} {u : Option Upset} {s : State} (up : fabricUp s = true) (runs : s.frame.started = true)
    (subject : s.mad.subject = some x) (first : s.mad.verdictOwn = none) (time : s.frame.stopped.getD 4 false = false) :
    Claims.MadderRejects x u s := by
  intro bad
  refine goes_madderVerdict up runs ?_
  obtain ⟨f, v, n, from_s, judged⟩ := verdictOwn_rejects subject first time bad
  rw [judged]
  obtain ⟨mad, madder, doubt, tiles, restarts⟩ := disagree_disagrees f x (rejectOwn f x v)
  obtain ⟨done, same⟩ := phaseDone_eq 4 v
  have keep {P : State → Prop} (C : Keeps [.twin, .sent, .raise, .indlog, .fuse, .regs, .frame, .emit, .umb, .log, .queue, .boot, .slv, .bus, .free] P)
      (h : P (disagree f x (rejectOwn f x v))) : P (afterVerdict (sendVerdict false 1 n (disagree f x (rejectOwn f x v)))) :=
    afterVerdict_keeps (C.mono (by decide)) (sendVerdict_keeps (C.mono (by decide)) h)
  have frame : (sendVerdict false 1 n (disagree f x (rejectOwn f x v))).frame = (disagree f x (rejectOwn f x v)).frame :=
    sendVerdict_keeps (shows_frame (by decide)) rfl
  have after := afterVerdict_verdict (sendVerdict false 1 n (disagree f x (rejectOwn f x v)))
  have before : (rejectOwn f x v).frame.num = s.frame.num ∧ (rejectOwn f x v).mad.dis = s.mad.dis ∧
      (rejectOwn f x v).safe = s.safe ∧ (rejectOwn f x v).time = s.time ∧ (rejectOwn f x v).regs = s.regs ∧ (rejectOwn f x v).image = s.image := by
    unfold rejectOwn
    rw [same]
    rcases from_s with rfl | rfl <;> exact ⟨rfl, rfl, rfl, rfl, rfl, rfl⟩
  obtain ⟨num, dis, safe, time, regs, image⟩ := before
  have recent (n : Nat) : recentDis (rejectOwn f x v) n = recentDis s n := by
    unfold recentDis
    rw [num, dis]
  have setting (g : Fld) : fld (rejectOwn f x v) g = fld s g := by
    unfold fld
    rw [regWord_congr image regs]
  rw [num, recent] at mad
  simp only [recent] at tiles restarts
  have began : restartsInWindow (rejectOwn f x v) = restartsInWindow s := by
    unfold restartsInWindow
    rw [safe, time, setting]
  rw [safe, began, setting] at restarts
  have mad' := keep (shows_mad (by decide)) mad
  refine ⟨?_, ?_, ?_, ?_, fun n tile again => ?_, fun many free few => ?_⟩
  · rw [mad']
    rfl
  · rw [after.madder, frame, madder]
    rfl
  · rw [after.doubt, frame, doubt]
  · rw [mad']
    exact List.mem_cons_self
  · exact (outOfWork_of_cnd (keep (shows_cnd (by decide)) rfl)).mpr (tiles n tile again)
  · rw [keep (shows_restart (by decide)) rfl]
    exact restarts many free few

/-- Settles O37. -/
theorem madderJudges : Obligations.MadderJudges := by
  unfold Obligations.MadderJudges
  intro s up inv
  refine ⟨fun x u runs subject first time => ⟨madderPasses up runs subject first time, madderRejects up runs subject first time⟩,
    fun runs none_due u => goes_madderVerdict up runs ?_, fun still twin u => idle_fabric (exec_madderVerdict twin u) (if_pos (by rw [still]; rfl)),
    fun rejected cause inTime => ⟨fun good => ?_, fun bad due => ?_⟩⟩
  · rw [verdictOwn_idle none_due]
    exact ⟨afterVerdict_keeps (shows_mad (by decide)) rfl, (afterVerdict_verdict s).madder⟩
  · refine idle_live rfl (if_pos ?_)
    rcases good with ⟨rfl, rfl, rfl⟩ | early
    · rfl
    · rw [early]
      exact Bool.or_true _
  · refine goes_live (running_of_fabricUp up) rfl ?_
    have wrong : ((rejected && decide (cause = 0) && inTime) || !injectionDue s) = false := by
      rw [due, Bool.not_true, Bool.or_false, Bool.eq_false_iff]
      intro all
      simp only [Bool.and_eq_true, decide_eq_true_eq] at all
      exact bad ⟨all.1.1, all.1.2, all.2⟩
    rw [wrong, if_neg Bool.false_ne_true]
    let failed : State := setFlag F.WDN_MAD_STAT_TEST_FAIL true { s with mad := { s.mad with failed := true } }
    let e : Event := { unit := 0x91, cls := 0x07, ev := 4, sev := .fatal, doubt := true }
    refine ⟨?_, (fatal_asserts e failed).1, (fatal_asserts e failed).2, ?_⟩
    · rw [fatal_keeps (shows_mad (by decide)) rfl]
      rfl
    · rw [(fatal_regs e failed).flag (by decide)]
      exact flag_setFlag_same (s := { s with mad := _ }) inv.regs (by decide)

end Sys2Proof.Machine

end

section

set_option Elab.async false

/-! # Kermes (R417 to R420) -/

namespace Sys2Proof.Machine

open Sys2Proof.Claims

section
variable {s t u : State}

theorem exec_kermesStart (u : KermesUnit) (n : Nat) : exec (.kermesStart u n) s = .next (live s fun s =>
    if s.safe.kermes.isSome || !s.image.kermesOk || !((packOf s n).any fun p => p.2.1.val = packClass u) then s
    else
      match kermesReady u s with
      | none => s
      | some s1 =>
        setFlag F.WDN_KERMES_STAT_BUSY true { s1 with safe := { s1.safe with
          kermes := some ⟨u, n, s1.frame.num⟩, kermesDue := s1.safe.kermesDue.erase u } }) := rfl

theorem exec_kermesPackDone (bs : List Byte) : exec (.kermesPackDone bs) s = .next (live s fun s =>
    match s.safe.kermes with
    | none => s
    | some k => if (packOf s k.pack).any fun p => p.2.2 = Config.sha3 bs then kermesPass k s else kermesFail k s) := rfl

theorem exec_kermesOvertime : exec .kermesOvertime s = .next (live s fun s =>
    match s.safe.kermes with
    | none => s
    | some k => if frameDist k.since s.frame.num < 64 then s else kermesFail k s) := rfl

/-! ## What may be tested -/

/-- An inference tile with an engine out of service (R418). -/
def EngineOut (k : Nat) (s : State) : Prop := 64 ≤ k ∧ k < 72 ∧ fld s (F.INF_TILE_STAT_ENG_OK (k - 64)) ≠ 15

/-- The state in which a unit whose deferral has ended is quarantined for its pack (R420). -/
def endDeferral (v : KermesUnit) (k : Nat) (s : State) : State :=
  takeOut true k { s with safe := { s.safe with kermesDeferred := s.safe.kermesDeferred.erase v } }

/-- A unit that may be tested is out of service already, or becomes so now (R418, R420). -/
theorem kermesReady_some {v : KermesUnit} {k : Nat} {s1 : State} (no : kermesNo v = some k) (h : kermesReady v s = some s1) :
    s1 = s ∧ (outOfService s k = true ∨ EngineOut k s) ∨ s1 = endDeferral v k s := by
  unfold kermesReady at h
  rw [no] at h
  simp only at h
  split at h
  · rename_i out
    exact .inl ⟨(Option.some.inj h).symm, out⟩
  · split at h
    · exact .inr (Option.some.inj h).symm
    · exact nomatch h

theorem kermesReady_memory {v : KermesUnit} (no : kermesNo v = none) :
    kermesReady v s = if s.safe.restart.isSome then some s else none := by
  unfold kermesReady
  rw [no]

theorem kermesReady_out {v : KermesUnit} {k : Nat} (no : kermesNo v = some k) (out : outOfService s k = true) : kermesReady v s = some s := by
  unfold kermesReady
  rw [no]
  exact if_pos (.inl out)

/-! ## How a run ends -/

/-- A run has ended: none runs, and it is recorded with event ev. -/
def endRun (k : KermesRun) (ev : Nat) (sev : Severity) (s : State) : State :=
  report { unit := kermesRecUnit k.unit, cls := 0x07, ev := ev, sev := sev, detail := k.pack % 2 ^ 16 }
    (setFlag F.WDN_KERMES_STAT_BUSY false { s with safe := { s.safe with kermes := none } })

theorem endRun_fld {k : KermesRun} {ev : Nat} {sev : Severity} {f : Fld} (inv : Inv s) (ok : f.ok) (there : f.addr = F.WDN_KERMES_STAT_BUSY.addr)
    (low : f.hi < 31) : fld (endRun k ev sev s) f = fld s f := by
  unfold endRun
  rw [fld_report (by rw [there]; decide)]
  exact fld_setFld_other (s := { s with safe := _ }) inv.regs (by decide) ok there (.inl low)

theorem endRun_keeps {P : State → Prop} {k : KermesRun} {ev : Nat} {sev : Severity} (C : Keeps [.safe, .indlog, .regs, .log, .queue] P) (h : P s) :
    P (endRun k ev sev s) :=
  report_keeps (C.mono (by decide)) (setFlag_keeps (C.mono (by decide)) (C.upd_safe (by decide) h))

theorem endRun_ended {k : KermesRun} {ev : Nat} {sev : Severity} : (endRun k ev sev s).safe = { s.safe with kermes := none } :=
  report_keeps (shows_safe (by decide)) rfl

theorem endRun_recorded {k : KermesRun} {ev : Nat} {sev : Severity} (same : t.log = (endRun k ev sev s).log) (room : s.log.queue.length < 256) :
    Recorded t (kermesRecUnit k.unit) 0x07 ev (sevCode sev) := by
  have told : Recorded (endRun k ev sev s) (kermesRecUnit k.unit) 0x07 ev (sevCode sev) := report_recorded room
  unfold Recorded at told ⊢
  rw [same]
  exact told

/-- What a failed run shows. -/
def failedRun (k : KermesRun) (s : State) : State := bump F.WDN_KERMES_STAT_RETIRED (bump F.WDN_KERMES_STAT_FAILS (endRun k 7 .fault s))

theorem kermesFail_eq (k : KermesRun) (s : State) : kermesFail k s = (match kermesNo k.unit with
    | none => failedRun k s
    | some u => { failedRun k s with cnd := { (failedRun k s).cnd with
        retired := u :: (failedRun k s).cnd.retired, releasing := (failedRun k s).cnd.releasing.filter (· ≠ u) } }) := rfl

/-- A counter stands where registers and image do. -/
theorem counted_congr {f : Fld} (h : Counted f s t) (image : u.image = t.image) (regs : u.regs = t.regs) : Counted f s u := by
  unfold Counted fld at h ⊢
  rw [regWord_congr image regs, h]

theorem kermesFail_fails {k : KermesRun} (inv : Inv s) : KermesFails k s (kermesFail k s) := by
  have ended : Inv (endRun k 7 .fault s) := endRun_keeps (keeps_inv (by decide)) inv
  have ended_safe : (failedRun k s).safe = { s.safe with kermes := none } :=
    bump_keeps (shows_safe (by decide)) (bump_keeps (shows_safe (by decide)) endRun_ended)
  have safe : (failedRun k s).safe.kermes = none := by rw [ended_safe]
  have counted : Counted F.WDN_KERMES_STAT_FAILS s (failedRun k s) := by
    have one := counted_bump (f := F.WDN_KERMES_STAT_FAILS) ended.regs (by decide)
    unfold Counted at one ⊢
    rw [endRun_fld (f := F.WDN_KERMES_STAT_FAILS) inv (by decide) rfl (by decide)] at one
    exact (fld_setFld_other (f := F.WDN_KERMES_STAT_RETIRED) (g := F.WDN_KERMES_STAT_FAILS) (s := bump F.WDN_KERMES_STAT_FAILS (endRun k 7 .fault s)) (setFld_wf ended.regs) (by decide) (by decide) rfl
      (.inl (by decide))).trans one
  have recorded (room : s.log.queue.length < 256) : Recorded (failedRun k s) (kermesRecUnit k.unit) 0x07 7 3 :=
    endRun_recorded (sev := .fault) (bump_keeps (shows_log (by decide)) (bump_keeps (shows_log (by decide)) rfl)) room
  rw [kermesFail_eq]
  split
  · rename_i no
    exact ⟨safe, counted, recorded, fun n is => nomatch no.symm.trans is⟩
  · rename_i u no
    refine ⟨safe, counted_congr counted (by dsimp only) (by dsimp only), recorded, fun n is => ?_⟩
    cases Option.some.inj (no.symm.trans is)
    exact ⟨List.mem_cons_self, fun m => by simpa using (List.mem_filter.mp m).2⟩

/-- What a passed run shows. -/
def passedRun (k : KermesRun) (s : State) : State := bump F.WDN_KERMES_STAT_PASSES (endRun k 8 .note s)

theorem kermesPass_eq (k : KermesRun) (s : State) : kermesPass k s = (match kermesNo k.unit with
    | none => passedRun k s
    | some u => releaseUnit u { passedRun k s with safe := { (passedRun k s).safe with
        passed := u :: (passedRun k s).safe.passed.filter (· ≠ u) } }) := rfl

theorem kermesPass_passes {k : KermesRun} (inv : Inv s) : KermesPasses k s (kermesPass k s) := by
  have ended : Inv (endRun k 8 .note s) := endRun_keeps (keeps_inv (by decide)) inv
  have safe : (passedRun k s).safe.kermes = none := by
    rw [passedRun, bump_keeps (shows_safe (by decide)) endRun_ended]
  have cnd : (passedRun k s).cnd = s.cnd := bump_keeps (shows_cnd (by decide)) (endRun_keeps (shows_cnd (by decide)) rfl)
  have counted : Counted F.WDN_KERMES_STAT_PASSES s (passedRun k s) := by
    have one := counted_bump (f := F.WDN_KERMES_STAT_PASSES) ended.regs (by decide)
    unfold Counted at one ⊢
    rw [endRun_fld (f := F.WDN_KERMES_STAT_PASSES) inv (by decide) rfl (by decide)] at one
    exact one
  have recorded (room : s.log.queue.length < 256) : Recorded (passedRun k s) (kermesRecUnit k.unit) 0x07 8 0 :=
    endRun_recorded (sev := .note) (bump_keeps (shows_log (by decide)) rfl) room
  rw [kermesPass_eq]
  split
  · rename_i no
    exact ⟨safe, by rw [cnd], counted, recorded, fun n is => nomatch no.symm.trans is⟩
  · rename_i u no
    let noted : State := { passedRun k s with safe := { (passedRun k s).safe with passed := u :: (passedRun k s).safe.passed.filter (· ≠ u) } }
    have rest := releaseUnit_rest u noted
    have passed : u ∈ noted.safe.passed := List.mem_cons_self
    have waits := releaseUnit_waits u noted
    rw [rest]
    refine ⟨safe, congrArg (·.retired) cnd, counted, recorded, fun n is => ?_⟩
    cases Option.some.inj (no.symm.trans is)
    exact ⟨passed, fun kept => waits.mpr (.inr ⟨passed, (congrArg (·.retired) cnd : noted.cnd.retired = _) ▸ kept⟩)⟩

/-- Settles O38. -/
theorem kermesPacksDecide : Obligations.KermesPacksDecide := by
  unfold Obligations.KermesPacksDecide
  intro s up inv
  refine ⟨fun u n => ?_, fun idle => ⟨fun bs => idle_live (exec_kermesPackDone bs) ?_, idle_live exec_kermesOvertime ?_⟩, fun k runs => ⟨fun bs => ?_, fun late => ?_, fun early => ?_⟩⟩
  · intro may
    have may_iff : (s.safe.kermes.isSome || !s.image.kermesOk || !((packOf s n).any fun p => decide (p.2.1.val = packClass u))) = true ↔ ¬may := by
      have any : ((packOf s n).any fun p => decide (p.2.1.val = packClass u)) = true ↔ ∃ p, packOf s n = some p ∧ p.2.1.val = packClass u := by
        simp only [Option.any_eq_true, decide_eq_true_eq]
      unfold may
      rw [← any, ← Option.isNone_iff_eq_none]
      cases s.safe.kermes <;> cases s.image.kermesOk <;> simp
    refine ⟨fun s1 free ready => ?_, fun k no out => kermesReady_out no out, fun k s1 no ready => ?_, kermesReady_memory, fun not => ?_⟩
    · refine goes_live up (exec_kermesStart u n) ?_
      rw [if_neg fun h => may_iff.mp h free, ready]
      have num : s1.frame.num = s.frame.num := kermesReady_keeps (shows_num (by decide)) rfl s1 ready
      exact ⟨congrArg (fun m => some (⟨u, n, m⟩ : KermesRun)) num, rfl, rfl, flag_setFlag_same (s := { s1 with safe := _ }) (kermesReady_keeps (keeps_inv (by decide)) inv s1 ready : Inv s1).regs (by decide)⟩
    · rcases kermesReady_some no ready with ⟨rfl, out | engine⟩ | rfl
      · exact .inl (List.contains_iff_mem.mp out)
      · exact .inr engine
      · exact .inl (takeOut_outOfWork ..).1
    · refine idle_live (exec_kermesStart u n) ?_
      rcases not with not | not
      · exact if_pos (may_iff.mpr not)
      · rw [not]
        exact ite_self _
  · rw [idle]
  · rw [idle]
  · refine goes_live up (exec_kermesPackDone bs) ?_
    simp only [runs]
    refine ⟨fun ⟨p, pack, digest⟩ => ?_, fun other => ?_⟩
    · rw [if_pos (by rw [pack]; exact decide_eq_true digest)]
      exact kermesPass_passes inv
    · rw [if_neg fun any => ?_]
      · exact kermesFail_fails inv
      · obtain ⟨p, pack, digest⟩ := (Option.any_eq_true ..).mp any
        exact other p pack (of_decide_eq_true digest)
  · refine goes_live up exec_kermesOvertime ?_
    simp only [runs]
    rw [if_neg (Nat.not_lt.mpr late)]
    exact kermesFail_fails inv
  · refine idle_live exec_kermesOvertime ?_
    rw [runs]
    exact if_pos early

end

end Sys2Proof.Machine

end

section

set_option Elab.async false

/-! # The fault log and Ochre (R424, R425, R534 to R536) -/

namespace Sys2Proof.Machine

open Sys2Proof.Claims

section
variable {s t u : State}

/-! ## The ring in HBM -/

theorem writeFull_wrote {sepia : Bool} {a : Nat} {bs : List Byte} (wf : Memory.wf s.mem) (aligned : a % 8 = 0) (full : bs.length = 8) :
    Wrote sepia a bs s (writeFull a bs sepia s) := by
  have put : Memory.wf (putBytes a bs s).mem := putBytes_keeps (shows_memory_wf (by decide)) wf
  rw [writeFull, show a / 8 * 8 = a by omega]
  refine ⟨?_, putBytes_blank bs s, setSynd_keeps (shows_memory_wf (by decide)) put, fun x => ?_, fun x ⟨i, hi, e⟩ => ?_, fun x e => ?_⟩
  · exact congrArg (setSynd a (writtenSynd sepia)) (putBytes_rest bs s)
  · rw [setSynd_byteAt, putBytes_byteAt bs wf]
  · exact (setSynd_wordSynd put _ x).trans (if_pos (by omega))
  · exact (setSynd_wordSynd put _ x).trans ((if_neg fun c => e 0 (by omega) c.symm).trans (putBytes_wordSynd bs x))

/-- Whole words that are written from a word's start on stand there, and nothing else changes. -/
theorem writeBytes_wrote {sepia : Bool} {n m a : Nat} {bs : List Byte} (wf : Memory.wf s.mem) (aligned : a % 8 = 0) (whole : bs.length = 8 * m)
    (fuel : m ≤ n) : Wrote sepia a bs s (writeBytes sepia n a bs s) := by
  induction n generalizing m a bs s with
  | zero =>
    rw [List.length_eq_zero_iff.mp (by omega : bs.length = 0)]
    exact .nil wf
  | succ n ih =>
    unfold writeBytes
    split
    · rename_i none
      rw [none]
      exact .nil wf
    · rename_i some
      have pos : 0 < bs.length := List.length_pos_iff.mpr some
      have k : 8 - a % 8 = 8 := by omega
      have now : (bs.take 8).length = 8 := by rw [List.length_take]; omega
      rw [k]
      simp only [now, if_pos]
      have first := writeFull_wrote (sepia := sepia) wf aligned now
      have rest := ih (m := m - 1) (a := a + 8) (bs := bs.drop 8) first.wf (by omega) (by rw [List.length_drop]; omega) (by omega)
      have both := first.append (t := writeFull a (bs.take 8) sepia s) (by rw [now]; exact rest)
      rwa [List.take_append_drop] at both

theorem recBytes_length (r : FaultRec) : (recBytes r).length = 32 := by
  simp [recBytes, leBytes]

/-- A record in the HBM ring stands in the next place, and nothing changes beside the memories and the log's own state. -/
theorem hbmLog_rest {r : FaultRec} (wf : Memory.wf s.mem) (aligned : s.image.faultLog.1 % 8 = 0) :
    hbmLog r s = { s with mem := (hbmLog r s).mem, log := { s.log with hbm := (r :: s.log.hbm).take 65536, hbmNext := (s.log.hbmNext + 1) % 65536 } } := by
  have wrote := writeBytes_wrote (sepia := false) (n := 8) (m := 4) (a := s.image.faultLog.1 + 32 * s.log.hbmNext) (bs := recBytes r) wf
    (by omega) (recBytes_length r) (by decide)
  unfold hbmLog
  rw [wrote.rest]

/-- The log's own state is no part of the memories. -/
theorem byteAt_withLog {l : LogSt} : byteAt { s with log := l } = byteAt s :=
  byteAt_congr (s := s) ⟨rfl, rfl, rfl, rfl, rfl, rfl, rfl, rfl, rfl, rfl⟩ rfl rfl

theorem hbmLog_byteAt {r : FaultRec} (wf : Memory.wf s.mem) (aligned : s.image.faultLog.1 % 8 = 0) (x : Nat) :
    byteAt (hbmLog r s) x = if s.image.faultLog.1 + 32 * s.log.hbmNext ≤ x ∧ x < s.image.faultLog.1 + 32 * s.log.hbmNext + 32 then
      (recBytes r).getD (x - (s.image.faultLog.1 + 32 * s.log.hbmNext)) 0 else byteAt s x := by
  have wrote := writeBytes_wrote (sepia := false) (n := 8) (m := 4) (a := s.image.faultLog.1 + 32 * s.log.hbmNext) (bs := recBytes r) wf
    (by omega) (recBytes_length r) (by decide)
  have bytes := wrote.bytes x
  rw [recBytes_length] at bytes
  unfold hbmLog
  exact (congrFun byteAt_withLog x).trans bytes

/-- The state in which the front record has left the queue. -/
def takeRecord (q : QueuedRec) (qs : List QueuedRec) (s : State) : State :=
  { s with log := { s.log with queue := qs, ochre := if q.needOchre then s.log.ochre ++ [q.entry] else s.log.ochre } }

theorem exec_faultRecordDrain : exec .faultRecordDrain s = .next (live s fun s =>
    match s.log.queue with
    | [] => s
    | q :: qs => if q.needHbm then hbmLog q.entry (takeRecord q qs s) else takeRecord q qs s) := rfl

theorem goes_faultRecordDrain {q : QueuedRec} {qs : List QueuedRec} {Q : State → Prop} (up : running s = true) (queue : s.log.queue = q :: qs)
    (h : Q (if q.needHbm then hbmLog q.entry (takeRecord q qs s) else takeRecord q qs s)) : Goes .faultRecordDrain s Q := by
  refine goes_live up exec_faultRecordDrain ?_
  rw [queue]
  exact h

theorem recordsDrain (up : running s = true) (inv : Inv s) : RecordsDrain s := by
  refine ⟨fun none => idle_live exec_faultRecordDrain (by rw [none]), fun q qs queue => ⟨fun no => goes_faultRecordDrain up queue ?_,
    fun due aligned => goes_faultRecordDrain up queue ?_⟩⟩
  · rw [no, if_neg Bool.false_ne_true]
    exact ⟨rfl, rfl, rfl, rfl⟩
  · rw [due, if_pos rfl]
    have rest := hbmLog_rest (s := takeRecord q qs s) (r := q.entry) inv.mem aligned
    have log := congrArg State.log rest
    refine ⟨by rw [log]; rfl, by rw [log]; rfl, by rw [log]; rfl, by rw [log]; rfl, fun x => ?_, ?_⟩
    · have before : byteAt (takeRecord q qs s) x = byteAt s x :=
        congrFun (byteAt_congr (s := s) (t := takeRecord q qs s) ⟨rfl, rfl, rfl, rfl, rfl, rfl, rfl, rfl, rfl, rfl⟩ rfl rfl) x
      rw [hbmLog_byteAt (s := takeRecord q qs s) inv.mem aligned, before]
      rfl
    · conv_lhs => rw [rest]
      conv_rhs => rw [log]
      rfl

/-! ## Datagrams -/

theorem exec_ochreDatagram : exec .ochreDatagram s = .next (live s fun s =>
    match s.log.ochre with
    | [] => s
    | rs => if s.och.lastAt.isSome ∧ ochreQuiet s < 50000 then s
      else sendOchre (rs.take 40) false { s with log := { s.log with ochre := rs.drop 40 } }) := rfl

theorem exec_ochreKeepalive : exec .ochreKeepalive s = .next (live s fun s =>
    if ochreQuiet s < 2500000 then s else sendOchre [] false s) := rfl

theorem exec_ochreResendRequest (b : List Byte) : exec (.ochreResendRequest b) s = .next (live s fun s =>
    if !resendAsked s b || s.och.resendAt.any fun t => decide (s.time.count < t + 2500000) then s
    else
      bump F.OCH_TX_CNT_RESEND (sendChunks 2 (resendFrom s (fieldAt 12 1 b))
        { s with och := { s.och with resendAt := some s.time.count } })) := rfl

theorem ochreBytes_congr (regs : t.regs = s.regs) (image : t.image = s.image) (seq : t.och.dseq = s.och.dseq) (frame : t.frame.num = s.frame.num)
    (rs : List FaultRec) (fl : Nat) : ochreBytes t rs fl = ochreBytes s rs fl := by
  unfold ochreBytes fld frameN
  rw [regWord_congr image regs, seq, frame]

theorem sendOchre_sends (rs : List FaultRec) (resend : Bool) (s : State) : OchreSends rs s (sendOchre rs resend s) := by
  refine ⟨⟨_, ?_, rfl⟩, rfl, rfl⟩
  split <;> split <;> decide

theorem goes_ochreDatagram {Q : State → Prop} (up : running s = true) (some : s.log.ochre ≠ [])
    (quiet : s.och.lastAt = none ∨ 50000 ≤ ochreQuiet s)
    (h : Q (sendOchre (s.log.ochre.take 40) false { s with log := { s.log with ochre := s.log.ochre.drop 40 } })) : Goes .ochreDatagram s Q := by
  refine goes_live up exec_ochreDatagram ?_
  split
  · rename_i none
    exact absurd none some
  · rw [if_neg]
    · exact h
    · rintro ⟨last, soon⟩
      rcases quiet with none | quiet
      · rw [none] at last
        exact nomatch last
      · omega

theorem ochreDatagram_idle (h : s.log.ochre = [] ∨ s.och.lastAt.isSome = true ∧ ochreQuiet s < 50000) : exec .ochreDatagram s = .next s := by
  refine idle_live exec_ochreDatagram ?_
  split
  · rfl
  · rename_i some
    rcases h with none | soon
    · exact absurd none some
    · exact if_pos soon

theorem sendOchre_fld (rs : List FaultRec) (resend : Bool) (inv : Inv s) :
    fld (sendOchre rs resend s) F.OCH_TX_CNT_RESEND = fld s F.OCH_TX_CNT_RESEND :=
  fld_setFld_other (s := { s with och := _ }) (f := F.OCH_TX_CNT_DSEQ) inv.regs (by decide) (by decide) rfl (.inl (by decide))

theorem sendChunks_fld (n : Nat) (rs : List FaultRec) (inv : Inv s) :
    fld (sendChunks n rs s) F.OCH_TX_CNT_RESEND = fld s F.OCH_TX_CNT_RESEND := by
  induction n generalizing rs s with
  | zero => rfl
  | succ n ih =>
    unfold sendChunks
    split
    · rfl
    · rw [ih _ (sendOchre_keeps (keeps_inv (by decide)) inv), sendOchre_fld _ _ inv]

theorem sendOchre_resendAt (rs : List FaultRec) (resend : Bool) (s : State) : (sendOchre rs resend s).och.resendAt = s.och.resendAt := rfl

theorem sendChunks_resendAt (n : Nat) (rs : List FaultRec) (s : State) : (sendChunks n rs s).och.resendAt = s.och.resendAt := by
  induction n generalizing rs s with
  | zero => rfl
  | succ n ih =>
    unfold sendChunks
    split
    · rfl
    · rw [ih, sendOchre_resendAt]

theorem sendChunks_none (n : Nat) (s : State) : sendChunks n [] s = s := by
  cases n <;> rfl

/-- The first of several datagrams goes out first. -/
theorem sendChunks_first {n : Nat} {rs : List FaultRec} (some : rs ≠ []) (s : State) :
    ∃ l fl, (sendChunks (n + 1) rs s).sent = l ++ .ochre (ochreBytes s (rs.take 40) fl) :: s.sent := by
  obtain ⟨⟨fl, -, sent⟩, -, -⟩ := sendOchre_sends (rs.take 40) true s
  obtain ⟨l, more⟩ := sendChunks_keeps (P := fun t => ∃ l, t.sent = l ++ (sendOchre (rs.take 40) true s).sent) (n := n) (rs := rs.drop 40)
    shows_sent ⟨[], rfl⟩
  refine ⟨l, fl, ?_⟩
  unfold sendChunks
  rw [if_neg (by rw [List.isEmpty_iff]; exact some), more, sent]

/-- Settles O39. -/
theorem recordsDrainInOrder : Obligations.RecordsDrainInOrder := by
  unfold Obligations.RecordsDrainInOrder
  intro s up inv
  refine ⟨recordsDrain up inv, fun some quiet => goes_ochreDatagram up some quiet ?_, ochreDatagram_idle, fun quiet => ?_,
    fun busy => ?_, fun b => ⟨fun not => ?_, fun asked last => ?_⟩⟩
  · let taken : State := { s with log := { s.log with ochre := s.log.ochre.drop 40 } }
    obtain ⟨⟨fl, small, sent⟩, seq, at'⟩ := sendOchre_sends (s.log.ochre.take 40) false taken
    refine ⟨⟨⟨fl, small, ?_⟩, seq, at'⟩, ?_⟩
    · rw [sent, ochreBytes_congr (s := s) (t := taken) rfl rfl rfl rfl]
    · rw [sendOchre_keeps (shows_log (by decide)) rfl]
  · refine goes_live up exec_ochreKeepalive ?_
    rw [if_neg (Nat.not_lt.mpr quiet)]
    exact ⟨sendOchre_sends .., sendOchre_keeps (shows_log (by decide)) rfl⟩
  · exact idle_live exec_ochreKeepalive (if_pos busy)
  · refine idle_live (exec_ochreResendRequest b) (if_pos ?_)
    rw [Bool.or_eq_true, Bool.not_eq_true', Option.any_eq_true]
    rcases not with not | ⟨n, last, soon⟩
    · exact .inl not
    · exact .inr ⟨n, last, decide_eq_true soon⟩
  · refine goes_live up (exec_ochreResendRequest b) ?_
    rw [if_neg]
    · let noted : State := { s with och := { s.och with resendAt := some s.time.count } }
      have chunks : Inv (sendChunks 2 (resendFrom s (fieldAt 12 1 b)) noted) :=
        sendChunks_keeps (keeps_inv (by decide)) (Keeps.upd_och (W := [.och]) (keeps_inv (by decide)) (by decide) inv)
      refine ⟨?_, ?_, ?_, fun none => ?_, fun some => ?_⟩
      · exact sendChunks_resendAt ..
      · exact bump_keeps (shows_log (by decide)) (sendChunks_keeps (shows_log (by decide)) rfl)
      · have counted := counted_bump (f := F.OCH_TX_CNT_RESEND) chunks.regs (by decide)
        unfold Counted at counted ⊢
        rw [sendChunks_fld (s := noted) 2 _ (Keeps.upd_och (W := [.och]) (keeps_inv (by decide)) (by decide) inv)] at counted
        exact counted
      · rw [none, sendChunks_none]
        rfl
      · obtain ⟨l, fl, sent⟩ := sendChunks_first (n := 1) some noted
        rw [ochreBytes_congr (s := s) (t := noted) rfl rfl rfl rfl] at sent
        exact ⟨l, fl, sent⟩
    · rw [Bool.or_eq_true, Bool.not_eq_true', Option.any_eq_true]
      rintro (not | ⟨n, at', soon⟩)
      · rw [asked] at not
        exact nomatch not
      · have soon : s.time.count < n + 2500000 := of_decide_eq_true soon
        exact absurd (last n at') (Nat.not_le.mpr soon)

end

end Sys2Proof.Machine

end

section

set_option Elab.async false

/-! # The scrubber and correctable errors (R369, R370, R374 to R377) -/

namespace Sys2Proof.Machine

open Sys2Proof.Claims

/-! ## Words and their bytes -/

theorem ofLe_lt (bs : List Byte) : ofLe bs < 256 ^ bs.length := by
  induction bs with
  | nil => exact Nat.one_pos
  | cons b bs ih =>
    have := b.isLt
    rw [ofLe, List.length_cons, Nat.pow_succ]
    omega

theorem ofLe_leBytes (n v : Nat) : ofLe (leBytes n v) = v % 256 ^ n := by
  induction n generalizing v with
  | zero => simp [leBytes, ofLe, Nat.mod_one]
  | succ n ih =>
    have low : (BitVec.ofNat 8 (v % 256)).toNat = v % 256 := by
      rw [BitVec.toNat_ofNat]
      exact Nat.mod_eq_of_lt (Nat.mod_lt v (by decide))
    rw [leBytes, ofLe, ih, low, Nat.pow_succ', Nat.mod_mul]

theorem leBytes_length (n v : Nat) : (leBytes n v).length = n := by
  induction n generalizing v with
  | zero => rfl
  | succ n ih => rw [leBytes, List.length_cons, ih]

section
variable {s t u : State} {a : Nat}

theorem wordData_lt (s : State) (a : Nat) : wordData s a < 2 ^ 64 := by
  have := ofLe_lt ((List.range 8).map fun i => byteAt s (a / 8 * 8 + i))
  rw [List.length_map, List.length_range] at this
  exact this

theorem setWord_byteAt (wf : Memory.wf s.mem) (v x : Nat) :
    byteAt (setWord a v s) x = if a / 8 * 8 ≤ x ∧ x < a / 8 * 8 + 8 then (leBytes 8 v).getD (x - a / 8 * 8) 0 else byteAt s x := by
  rw [setWord, putBytes_byteAt _ wf, leBytes_length]

/-- A word reads as it was stored. -/
theorem wordData_setWord (wf : Memory.wf s.mem) (v : Nat) : wordData (setWord a v s) a = v % 2 ^ 64 := by
  have bytes : ((List.range 8).map fun i => byteAt (setWord a v s) (a / 8 * 8 + i)) = leBytes 8 v := by
    refine List.ext_getElem (by rw [List.length_map, List.length_range, leBytes_length]) fun i lt _ => ?_
    rw [List.length_map, List.length_range] at lt
    rw [List.getElem_map, List.getElem_range, setWord_byteAt wf, if_pos (by omega), Nat.add_sub_cancel_left,
      List.getD_eq_getElem _ _ (by rw [leBytes_length]; exact lt)]
  unfold wordData
  rw [bytes, ofLe_leBytes]
  rfl

theorem wordData_congr (h : ∀ x, byteAt t x = byteAt s x) : wordData t a = wordData s a := by
  unfold wordData
  simp only [h]

/-! ## World's list of cells to rebuild is no part of what the memories hold -/

section
variable {w : WldSt} {r : List (Nat × Nat)}

theorem l2Held_withRebuild : l2Held { w with rebuild := r } = l2Held w := rfl
theorem l2Value_withRebuild : l2Value { w with rebuild := r } = l2Value w := rfl
theorem descriptor_withRebuild : descriptor { w with rebuild := r } = descriptor w := rfl
theorem bevEntry_withRebuild : bevEntry { w with rebuild := r } = bevEntry w := rfl

theorem storeByteOf_withRebuild : storeByteOf { w with rebuild := r } = storeByteOf w := by
  funext h half cfg edge cand o
  unfold storeByteOf
  rw [l2Value_withRebuild, descriptor_withRebuild, bevEntry_withRebuild]

theorem scratchByte_withRebuild : scratchByte { s with wld := { s.wld with rebuild := r } } = scratchByte s := by
  funext u o
  unfold scratchByte
  rw [l2Held_withRebuild]
  rfl

theorem cacheByte_withRebuild : cacheByte { s with wld := { s.wld with rebuild := r } } = cacheByte s := by
  funext u o
  unfold cacheByte
  rw [descriptor_withRebuild]
  rfl

theorem storeByte_withRebuild : storeByte { s with wld := { s.wld with rebuild := r } } = storeByte s := by
  funext o
  unfold storeByte
  rw [storeByteOf_withRebuild]
  rfl

theorem selectByte_of (sel : t.sel = s.sel) (image : t.image = s.image) (swp : t.swp = s.swp) : selectByte t = selectByte s := by
  funext o
  unfold selectByte
  rw [sel, candAt_congr image swp, candOfPlace_congr image]

theorem byteAt_of (scratch : scratchByte t = scratchByte s) (cache : cacheByte t = cacheByte s) (store : storeByte t = storeByte s)
    (select : selectByte t = selectByte s) (mem : t.mem = s.mem) : byteAt t = byteAt s := by
  funext a
  unfold byteAt placedByte blanked structByte
  rw [scratch, cache, store, select, mem]

theorem byteAt_withRebuild : byteAt { s with wld := { s.wld with rebuild := r } } = byteAt s :=
  byteAt_of scratchByte_withRebuild cacheByte_withRebuild storeByte_withRebuild (selectByte_of rfl rfl rfl) rfl

end

/-! ## Registers of the memories that the structures are not read from -/

/-- The registers that the scrubber may write. -/
def scrubAddrs : List Nat := F.MEM_SCRUB_STAT_SRAM_PASS.addr :: memAddrs

/-- The registers that the structures of the machine are read from, and no other that a machine's own work writes: World's settings, the
domains of tiles and the owners of ways. -/
def sourceAddr (a : Nat) : Bool := decide (0x300100 ≤ a ∧ a < 0x300200) || decide (0x401000 ≤ a ∧ a < 0x700000) || decide (0x801040 ≤ a)

/-- The registers that the structures are read from are the same in t as in s. -/
def SameSources (s t : State) : Prop := ∀ a, sourceAddr a = true → regWord t a = regWord s a

theorem SameSources.refl (s : State) : SameSources s s := fun _ _ => rfl

theorem SameSources.trans (h : SameSources s t) (g : SameSources t u) : SameSources s u := fun a k => (g a k).trans (h a k)

theorem SameSources.of_regs {l : List Nat} (regs : SameRegsBut l s t) (clear : ∀ a ∈ l, sourceAddr a = false) : SameSources s t :=
  fun a k => regs a fun m => absurd ((clear a m).symm.trans k) Bool.false_ne_true

/-- The structures of the machine are read from those registers alone. -/
theorem sameStructures_of_sources (regs : SameSources s t) (wld : t.wld = s.wld) (held : t.held = s.held) (swp : t.swp = s.swp)
    (sel : t.sel = s.sel) (image : t.image = s.image) (frame : t.frame = s.frame) : SameStructures s t := by
  have same (f : Fld) (h : sourceAddr f.addr = true) : fld t f = fld s f := by
    unfold fld
    rw [regs _ h]
  have tile (f : Fld) (h : 0x401000 ≤ f.addr ∧ f.addr < 0x700000) : fld t f = fld s f :=
    same f (by unfold sourceAddr; rw [decide_eq_true h, Bool.or_true, Bool.true_or])
  have way (f : Fld) (h : 0x801040 ≤ f.addr) : fld t f = fld s f := same f (by unfold sourceAddr; rw [decide_eq_true h, Bool.or_true])
  refine ⟨wld, held, swp, sel, image, by rw [frame], by rw [frame], ?fuse, ?units, ?ways⟩
  case fuse =>
    unfold fuseCfg flag
    simp (disch := decide) only [same]
  case units =>
    funext u
    unfold unitDomain
    split
    · rw [tile _ (by simp only [F.SWP_TILE_DOMAIN_DOMAIN]; omega)]
    · split
      · rw [tile _ (by simp only [F.INF_TILE_STAT_DOMAIN]; omega)]
      · rfl
  case ways =>
    funext c w
    unfold wayOwner
    rw [way _ (by simp only [F.MEM_WAY_DOMAIN_LO_DOMAIN]; omega), way _ (by simp only [F.MEM_WAY_DOMAIN_HI_DOMAIN]; omega)]

/-- What writes only registers, the log and what stands beside the memories' data. -/
theorem sameMemory_of_regs (regs : SameRegsBut scrubAddrs s t) (keep : ∀ {P : State → Prop}, Keeps [.regs, .ind, .indlog, .log, .queue, .mem] P → P s → P t) :
    SameMemory s t :=
  sameMemory_of (sameStructures_of_sources (.of_regs regs (by decide)) (keep (shows_wld (by decide)) rfl) (keep (shows_held (by decide)) rfl) (keep (shows_swp (by decide)) rfl)
    (keep (shows_sel (by decide)) rfl) (keep (shows_image (by decide)) rfl) (keep (shows_frame (by decide)) rfl))
    (keep (shows_blank (by decide)) rfl) (keep (shows_cells (by decide)) rfl) (keep (shows_synd (by decide)) rfl)

end

end Sys2Proof.Machine

end

section

set_option Elab.async false

/-! # What the scrubber repairs and counts (R369, R370, R374 to R377) -/

namespace Sys2Proof.Machine

open Sys2Proof.Claims

section
variable {s t u : State} {a : Nat} {hbm : Bool}

/-! ## The end of a read -/

/-- What follows the scrubber's read of a word: the last word of the map ends a pass (R376). -/
def endScrub (hbm : Bool) (a : Nat) (s : State) : State :=
  if a / 8 * 8 ≠ passEnd hbm then s
  else if hbm then beginPass hbm (setFld F.MEM_SCRUB_STAT_HBM_PASS (fld s F.MEM_SCRUB_STAT_HBM_PASS + 1) s)
  else beginPass hbm (setFld F.MEM_SCRUB_STAT_SRAM_PASS (fld s F.MEM_SCRUB_STAT_SRAM_PASS + 1) s)

theorem exec_scrubRead (hbm : Bool) (a : Nat) (flips : BitVec 72) (dev : DevEcc) : exec (.scrubRead hbm a flips dev) s = .next (live s fun s =>
    match memAt a with
    | none => s
    | some m =>
      if decide (m = .hbm) ≠ hbm then s else endScrub hbm a (probeWord 3 a (applyDev a dev (applyFlips a flips s))).2) := rfl

theorem applyDev_clean (a : Nat) (s : State) : applyDev a .clean s = s := ite_self _

/-- The scrubber reads a word of its own memories. -/
theorem scrubRead_runs {m : MemKind} {flips : BitVec 72} {dev : DevEcc} (up : running s = true) (mem : memAt a = some m)
    (own : m = .hbm ↔ hbm = true) :
    exec (.scrubRead hbm a flips dev) s = .next (endScrub hbm a (probeWord 3 a (applyDev a dev (applyFlips a flips s))).2) := by
  rw [exec_scrubRead, live_of_running up, mem]
  exact congrArg _ (if_neg (not_not.mpr (Bool.eq_iff_iff.mpr (decide_eq_true_iff.trans own))))

theorem goes_scrubRead {m : MemKind} {Q : State → Prop} (up : running s = true) (mem : memAt a = some m) (own : m = .hbm ↔ hbm = true)
    (q : Q (endScrub hbm a (probeWord 3 a s).2)) : Goes (.scrubRead hbm a 0 .clean) s Q := by
  refine ⟨_, scrubRead_runs up mem own, ?_⟩
  rw [applyDev_clean]
  exact q

theorem endScrub_keeps {P : State → Prop} (C : Keeps [.regs, .mem] P) (h : P s) : P (endScrub hbm a s) :=
  ite_keeps h (ite_keeps (beginPass_keeps (C.mono (by decide)) (setFld_keeps (C.mono (by decide)) h))
    (beginPass_keeps (C.mono (by decide)) (setFld_keeps (C.mono (by decide)) h)))

/-- The end of a read writes one register. -/
theorem endScrub_regs : SameRegsBut [F.MEM_SCRUB_STAT_SRAM_PASS.addr] s (endScrub hbm a s) :=
  ite_keeps (P := SameRegsBut _ s) (.refl _ s) (ite_keeps (P := SameRegsBut _ s)
    (SameRegsBut.same (.setFld (.refl _ s) (by decide)) rfl rfl) (SameRegsBut.same (.setFld (.refl _ s) (by decide)) rfl rfl))

theorem endScrub_same : SameMemory s (endScrub hbm a s) :=
  sameMemory_of_regs (endScrub_regs.mono (by decide)) fun C h => endScrub_keeps (C.mono (by decide)) h

theorem endScrub_log : (endScrub hbm a s).log = s.log := endScrub_keeps (shows_log (by decide)) rfl

/-! ## A word that is corrected -/

theorem countCe_same (a : Nat) (s : State) : SameMemory s (countCe a s) := by
  have regs : SameRegsBut scrubAddrs s (countCe a s) := (countCe_memRegs (SameRegsBut.refl _ s)).mono (by decide)
  exact sameMemory_of_regs regs fun C h => countCe_keeps (C.mono (by decide)) h

theorem countCe_counted {m : MemKind} (inv : Inv s) (mem : memAt a = some m) : Counted F.MEM_CE_CNT_COUNT s (countCe a s) := by
  unfold countCe
  rw [mem]
  exact counted_bump (s := { s with mem := _ }) inv.regs (by decide)

theorem correct_synd {bit : Nat} (wf : Memory.wf s.mem) : wordSynd (correct a bit s) a = 0 := by
  have kept : Memory.wf (if bit < 64 then setWord a (wordData s a ^^^ 2 ^ bit) s else s).mem :=
    ite_keeps (P := fun t : State => Memory.wf t.mem) (setWord_keeps (shows_memory_wf (by decide)) wf) wf
  exact (setSynd_wordSynd kept 0 a).trans (if_pos rfl)

theorem correct_data {bit : Nat} (wf : Memory.wf s.mem) :
    wordData (correct a bit s) a = if bit < 64 then wordData s a ^^^ 2 ^ bit else wordData s a := by
  rw [correct, wordData_congr (fun x => setSynd_byteAt 0 x)]
  split
  · rename_i low
    rw [wordData_setWord wf, Nat.mod_eq_of_lt (Nat.xor_lt_two_pow (wordData_lt s a) (Nat.pow_lt_pow_right (by decide) low))]
  · rfl

theorem correct_other {bit x : Nat} (wf : Memory.wf s.mem) (other : x / 8 ≠ a / 8) :
    byteAt (correct a bit s) x = byteAt s x ∧ wordSynd (correct a bit s) x = wordSynd s x := by
  have kept : Memory.wf (if bit < 64 then setWord a (wordData s a ^^^ 2 ^ bit) s else s).mem :=
    ite_keeps (P := fun t : State => Memory.wf t.mem) (setWord_keeps (shows_memory_wf (by decide)) wf) wf
  refine ⟨?_, ?_⟩
  · rw [correct, setSynd_byteAt]
    split
    · rw [setWord_byteAt wf, if_neg (by omega)]
    · rfl
  · rw [correct, setSynd_wordSynd kept, if_neg other]
    split
    · exact putBytes_wordSynd _ x
    · rfl

/-! ## A bad word -/

/-- The bad word has taken its mark and been counted, and World has not yet been told. -/
def markBad (a : Nat) (s : State) : State :=
  setSynd a 3 (bump F.MEM_UE_CNT_SCRUB_UE (memEvent 3 (wordSynd s a) a .warning s))

theorem findBad_eq (a : Nat) (s : State) : findBad 3 a s = worldFault a (markBad a s) := rfl

/-- A warning that is reported displaces no record. -/
theorem report_warning_keeps_records {e : Event} {q : QueuedRec} (mild : sevCode e.sev ≤ 1) (h : q ∈ s.log.queue) :
    q ∈ (report e s).log.queue := by
  have joined (x : QueuedRec) (x_mild : x.entry.severity ≤ 1) : q ∈ (enqueue x (copiedToIndigo e s)).log.queue := by
    unfold enqueue
    rw [copiedToIndigo_log]
    split
    · exact List.mem_append_left _ h
    · rw [bump_keeps (shows_log (by decide)) (copiedToIndigo_log e s)]
      exact h
  exact joined _ mild

theorem worldFault_keeps_records {q : QueuedRec} (h : q ∈ s.log.queue) : q ∈ (worldFault a s).log.queue := by
  have told {e : Event} {u : State} (mild : sevCode e.sev ≤ 1) (log : u.log = s.log) : q ∈ (report e (setFlag F.WLD_ERR_STAT_SEPIA true u)).log.queue := by
    refine report_warning_keeps_records mild ?_
    rw [setFlag_keeps (shows_log (x := s.log) (by decide)) log]
    exact h
  unfold worldFault
  extract_lets tell
  split
  · rw [scheduleRewrite_keeps (shows_log (by decide)) rfl]
    exact told (Nat.le_refl 1) rfl
  · split
    · rw [setFlag_keeps (shows_log (by decide)) rfl]
      exact told (Nat.le_refl 1) rfl
    · split
      · exact told (Nat.le_refl 1) rfl
      · exact h

theorem markBad_regs (a : Nat) (s : State) : SameRegsBut memAddrs s (markBad a s) :=
  setSynd_keeps (keeps_memRegs (by decide)) (SameRegsBut.bump (memEvent_memRegs (.refl _ s)) (by decide))

theorem memEvent_regs (k sy a : Nat) (v : Severity) (s : State) : SameRegsBut [F.WDN_FLOG_STAT_SEQ.addr, F.MEM_ERR_CAP_VALID.addr,
    F.MEM_ERR_ADDR_LO_ADDR.addr, F.MEM_ERR_ADDR_HI_ADDR.addr] s (memEvent k sy a v s) := by
  unfold memEvent
  extract_lets code s1
  have told : SameRegsBut [F.WDN_FLOG_STAT_SEQ.addr, F.MEM_ERR_CAP_VALID.addr, F.MEM_ERR_ADDR_LO_ADDR.addr, F.MEM_ERR_ADDR_HI_ADDR.addr] s s1 :=
    SameRegsBut.report (.refl _ s) (by decide)
  refine ite_keeps (P := SameRegsBut _ s) told (SameRegsBut.setFld (SameRegsBut.setFld (SameRegsBut.capture told (by decide) ?_) (by decide)) (by decide))
  simp only [List.forall_mem_cons]
  exact ⟨by decide, by decide, by decide, fun _ h => absurd h List.not_mem_nil⟩

theorem worldFault_regs (a : Nat) (s : State) : SameRegsBut [F.WLD_ERR_STAT_SEPIA.addr, F.WDN_FLOG_STAT_SEQ.addr] s (worldFault a s) := by
  have told {e : Event} {u : State} (regs : u.regs = s.regs) (image : u.image = s.image) :
      SameRegsBut [F.WLD_ERR_STAT_SEPIA.addr, F.WDN_FLOG_STAT_SEQ.addr] s (report e (setFlag F.WLD_ERR_STAT_SEPIA true u)) :=
    SameRegsBut.report (SameRegsBut.setFlag (SameRegsBut.same (.refl _ s) image regs) (by decide)) (by decide)
  unfold worldFault
  extract_lets tell
  split
  · exact scheduleRewrite_keeps (keeps_sameRegs (by decide)) (told rfl rfl)
  · split
    · exact SameRegsBut.setFlag (told rfl rfl) (by decide)
    · split
      · exact told rfl rfl
      · exact .refl _ s

/-- World, which is told of a bad word that is none of its occupancy bricks, changes no byte. -/
theorem worldFault_bytes (brick : occCellOf s a = none) (x : Nat) : byteAt (worldFault a s) x = byteAt s x := by
  have told (e : Event) (u : State) : byteAt (report e (setFlag F.WLD_ERR_STAT_SEPIA true u)) x = byteAt u x := by
    have regs : SameRegsBut scrubAddrs u (report e (setFlag F.WLD_ERR_STAT_SEPIA true u)) :=
      SameRegsBut.report (SameRegsBut.setFlag (.refl _ u) (by decide)) (by decide)
    exact (sameMemory_of_regs regs (fun C h => report_keeps (C.mono (by decide)) (setFlag_keeps (C.mono (by decide)) h)) x).1
  unfold worldFault
  extract_lets tell
  split
  · have same (t c : Nat) (u : State) : byteAt (scheduleRewrite t c u) x = byteAt u x :=
      (sameMemory_of_regs (scheduleRewrite_keeps (keeps_sameRegs (by decide)) (.refl _ u)) (fun C h => scheduleRewrite_keeps (C.mono (by decide)) h) x).1
    rw [same]
    exact told _ s
  · rw [brick]
    simp only
    split
    · exact (told _ _).trans (congrFun byteAt_withRebuild x)
    · rfl

theorem markBad_bytes (a x : Nat) (s : State) : byteAt (markBad a s) x = byteAt s x := by
  have regs : SameRegsBut scrubAddrs s (bump F.MEM_UE_CNT_SCRUB_UE (memEvent 3 (wordSynd s a) a .warning s)) :=
    (SameRegsBut.bump (memEvent_memRegs (.refl _ s)) (by decide)).mono (by decide)
  exact (setSynd_byteAt 3 x).trans (sameMemory_of_regs regs
    (fun C h => bump_keeps (C.mono (by decide)) (memEvent_keeps (C.mono (by decide)) h)) x).1

theorem markBad_synd (wf : Memory.wf s.mem) (x : Nat) : wordSynd (markBad a s) x = if x / 8 = a / 8 then 3 else wordSynd s x := by
  have mem : (bump F.MEM_UE_CNT_SCRUB_UE (memEvent 3 (wordSynd s a) a .warning s)).mem = s.mem :=
    bump_keeps (shows_mem (by decide)) (memEvent_keeps (shows_mem (by decide)) rfl)
  have kept := setSynd_wordSynd (s := bump F.MEM_UE_CNT_SCRUB_UE (memEvent 3 (wordSynd s a) a .warning s)) (a := a) (by rw [mem]; exact wf) 3 x
  rw [show wordSynd (bump F.MEM_UE_CNT_SCRUB_UE (memEvent 3 (wordSynd s a) a .warning s)) x = wordSynd s x from
    congrArg (fun m : MemSt => tabGet 0 m.synd (x / 8)) mem] at kept
  exact kept

theorem findBad_synd (wf : Memory.wf s.mem) (x : Nat) : wordSynd (findBad 3 a s) x = if x / 8 = a / 8 then 3 else wordSynd s x := by
  have kept : (worldFault a (markBad a s)).mem.synd = (markBad a s).mem.synd := worldFault_keeps (shows_synd (by decide)) rfl
  rw [← markBad_synd wf, findBad_eq]
  unfold wordSynd
  rw [kept]

theorem findBad_bytes (brick : occCellOf s a = none) (x : Nat) : byteAt (findBad 3 a s) x = byteAt s x := by
  have wld : (markBad a s).wld = s.wld :=
    setSynd_keeps (shows_wld (by decide)) (bump_keeps (shows_wld (by decide)) (memEvent_keeps (shows_wld (by decide)) rfl))
  have brick' : occCellOf (markBad a s) a = none := by
    unfold occCellOf at brick ⊢
    rw [wld]
    exact brick
  rw [findBad_eq, worldFault_bytes brick', markBad_bytes]

theorem findBad_counted (inv : Inv s) : Counted F.MEM_UE_CNT_SCRUB_UE s (findBad 3 a s) := by
  have told : Inv (memEvent 3 (wordSynd s a) a .warning s) := memEvent_keeps (keeps_inv (by decide)) inv
  have counted := counted_bump (f := F.MEM_UE_CNT_SCRUB_UE) told.regs (by decide)
  unfold Counted at counted ⊢
  rw [(memEvent_regs 3 _ a .warning s : SameRegsBut _ _ _).fld (by decide)] at counted
  rw [findBad_eq, (worldFault_regs a _ : SameRegsBut _ _ _).fld (by decide)]
  exact counted

theorem findBad_recorded (room : s.log.queue.length < 256) : Recorded (findBad 3 a s) 0x84 0x01 3 1 := by
  have told : Recorded (markBad a s) 0x84 0x01 3 1 := by
    have log : (markBad a s).log = (memEvent 3 (wordSynd s a) a .warning s).log :=
      setSynd_keeps (shows_log (by decide)) (bump_keeps (shows_log (by decide)) rfl)
    have event : (memEvent 3 (wordSynd s a) a .warning s).log =
        (report { unit := 0x84, cls := 0x01, ev := 3, sev := .warning, detail := memDetail (wordSynd s a) 3 (((memAt a).map memCode).getD 0) a } s).log := by
      refine ite_keeps (P := fun t : State => t.log = _) rfl ?_
      exact setFld_keeps (shows_log (by decide)) (setFld_keeps (shows_log (by decide)) (capture_keeps (shows_log (by decide)) rfl))
    rw [Recorded, log, event]
    exact report_recorded room
  obtain ⟨q, hq, is⟩ := told
  exact ⟨q, worldFault_keeps_records hq, is⟩

/-! ## The scrubber -/

theorem probeWord_of_good (h : decodeSyndrome (wordSynd s a) = .good) : probeWord 3 a s = (true, s) := by
  unfold probeWord
  rw [h]

theorem probeWord_of_single {bit : Nat} (h : decodeSyndrome (wordSynd s a) = .single bit) :
    probeWord 3 a s = (true, correct a bit (countCe a s)) := by
  unfold probeWord
  rw [h]

theorem probeWord_of_mark (h : decodeSyndrome (wordSynd s a) = .mark) : probeWord 3 a s = (false, bump F.MEM_SEPIA_CNT_MARK_READ s) := by
  unfold probeWord
  rw [h]

theorem probeWord_of_bad (h : decodeSyndrome (wordSynd s a) = .bad) : probeWord 3 a s = (false, findBad 3 a s) := by
  unfold probeWord
  rw [h]

theorem endScrub_counted {f : Fld} (other : f.addr ≠ F.MEM_SCRUB_STAT_SRAM_PASS.addr) (h : Counted f s t) : Counted f s (endScrub hbm a t) := by
  unfold Counted at h ⊢
  rw [endScrub_regs.fld fun m => other (List.mem_singleton.mp m), h]

theorem scrubsWord {m : MemKind} (up : running s = true) (inv : Inv s) (mem : memAt a = some m) (own : m = .hbm ↔ hbm = true) :
    ScrubsWord hbm a s := by
  refine ⟨fun good => ?_, fun bit single => ?_, fun mark => ?_, fun bad => ?_⟩
  · refine goes_scrubRead up mem own ?_
    rw [probeWord_of_good good]
    exact endScrub_same
  · refine goes_scrubRead up mem own ?_
    rw [probeWord_of_single single]
    have counted := countCe_same a s
    have wf : Memory.wf (countCe a s).mem := countCe_keeps (shows_memory_wf (by decide)) inv.mem
    have data := wordData_congr (a := a) fun x => (counted x).1
    have last (x : Nat) := endScrub_same (hbm := hbm) (a := a) (s := correct a bit (countCe a s)) x
    refine ⟨?_, ?_, fun x other => ⟨?_, ?_⟩, endScrub_counted (by decide) ?_⟩
    · rw [(last a).2, correct_synd wf]
    · rw [wordData_congr fun x => (last x).1, correct_data wf, data]
    · rw [(last x).1, (correct_other wf other).1, (counted x).1]
    · rw [(last x).2, (correct_other wf other).2, (counted x).2]
    · exact counted_congr (countCe_counted inv mem) (correct_keeps (shows_image (by decide)) rfl) (correct_keeps (shows_regs (by decide)) rfl)
  · refine goes_scrubRead up mem own ?_
    rw [probeWord_of_mark mark]
    have same : SameMemory s (bump F.MEM_SEPIA_CNT_MARK_READ s) :=
      sameMemory_of_regs (SameRegsBut.bump (.refl _ s) (by decide)) fun C h => bump_keeps (C.mono (by decide)) h
    refine ⟨fun x => ?_, endScrub_counted (by decide) (counted_bump inv.regs (by decide))⟩
    have last := endScrub_same (hbm := hbm) (a := a) (s := bump F.MEM_SEPIA_CNT_MARK_READ s) x
    exact ⟨last.1.trans (same x).1, last.2.trans (same x).2⟩
  · refine goes_scrubRead up mem own ?_
    rw [probeWord_of_bad bad]
    have last (x : Nat) := endScrub_same (hbm := hbm) (a := a) (s := findBad 3 a s) x
    refine ⟨?_, endScrub_counted (by decide) (findBad_counted inv), fun room => ?_, fun x other => ?_, fun brick x => ?_⟩
    · rw [(last a).2, findBad_synd inv.mem, if_pos rfl]
    · rw [Recorded, endScrub_log]
      exact findBad_recorded room
    · rw [(last x).2, findBad_synd inv.mem, if_neg other]
    · rw [(last x).1, findBad_bytes brick]

/-! ## The end of a pass, and a late one -/

/-- From s to t the memories have only been accessed: what they hold, its check bits, the counts of correctable errors and the list of
rewrites may have changed. -/
def OnlyAccessed (s t : State) : Prop :=
  t.mem = { s.mem with cells := t.mem.cells, synd := t.mem.synd, ceCount := t.mem.ceCount, rewrites := t.mem.rewrites }

theorem OnlyAccessed.refl (s : State) : OnlyAccessed s s := rfl

theorem OnlyAccessed.trans (h : OnlyAccessed s t) (g : OnlyAccessed t u) : OnlyAccessed s u := by
  unfold OnlyAccessed at h g ⊢
  rw [g, h]

theorem OnlyAccessed.of_mem (h : OnlyAccessed s t) (mem : u.mem = t.mem) : OnlyAccessed s u := by
  unfold OnlyAccessed at h ⊢
  rw [mem]
  exact h

theorem putBytes_accessed (n : Nat) (bs : List Byte) (s : State) : OnlyAccessed s (putBytes n bs s) := by
  induction bs generalizing n s with
  | nil => exact .refl s
  | cons b bs ih => exact .trans (t := putByte s n b) rfl (ih _ _)

theorem setSynd_accessed (n w : Nat) (s : State) : OnlyAccessed s (setSynd n w s) := rfl

theorem countCe_accessed (n : Nat) (s : State) : OnlyAccessed s (countCe n s) := by
  unfold countCe
  split
  · exact .refl s
  · exact rfl

theorem correct_accessed (n bit : Nat) (s : State) : OnlyAccessed s (correct n bit s) :=
  (ite_keeps (P := OnlyAccessed s) (putBytes_accessed _ _ s) (.refl s)).trans (setSynd_accessed _ _ _)

theorem worldFault_accessed (n : Nat) (s : State) : OnlyAccessed s (worldFault n s) := by
  have told {e : Event} {u : State} (mem : u.mem = s.mem) : OnlyAccessed s (report e (setFlag F.WLD_ERR_STAT_SEPIA true u)) :=
    OnlyAccessed.of_mem (.refl s) (report_keeps (shows_mem (by decide)) (setFlag_keeps (shows_mem (by decide)) mem))
  have rewrites (t c : Nat) (u : State) : OnlyAccessed u (scheduleRewrite t c u) := ite_keeps (P := OnlyAccessed u) (.refl u) rfl
  unfold worldFault
  extract_lets tell
  split
  · exact .trans (told rfl) (rewrites _ _ _)
  · split
    · rename_i key _
      have cleared : OnlyAccessed s (clearBrick key s) := told (u := { s with wld := _ }) rfl
      exact cleared.of_mem (setFlag_keeps (shows_mem (x := (clearBrick key s).mem) (by decide)) rfl)
    · split
      · exact told (u := { s with wld := _ }) rfl
      · exact .refl s

theorem findBad_accessed (kind n : Nat) (s : State) : OnlyAccessed s (findBad kind n s) := by
  unfold findBad
  extract_lets s1 s2
  have told : s1.mem = s.mem := memEvent_keeps (shows_mem (by decide)) rfl
  have counted : s2.mem = s.mem :=
    ite_keeps (P := fun t : State => t.mem = s.mem) (bump_keeps (shows_mem (by decide)) told) (bump_keeps (shows_mem (by decide)) told)
  exact ((OnlyAccessed.of_mem (.refl s) counted).trans (setSynd_accessed n 3 s2)).trans (worldFault_accessed _ _)

theorem probeWord_accessed (kind n : Nat) (s : State) : OnlyAccessed s (probeWord kind n s).2 := by
  unfold probeWord
  split
  · exact .refl s
  · exact (countCe_accessed n s).trans (correct_accessed _ _ _)
  · exact OnlyAccessed.of_mem (.refl s) (bump_keeps (shows_mem (by decide)) rfl)
  · exact findBad_accessed kind n s

theorem passEnds (inv : Inv s) (last : a / 8 * 8 = passEnd hbm) :
    fld (endScrub hbm a (probeWord 3 a s).2) (if hbm then F.MEM_SCRUB_STAT_HBM_PASS else F.MEM_SCRUB_STAT_SRAM_PASS) =
        (fld s (if hbm then F.MEM_SCRUB_STAT_HBM_PASS else F.MEM_SCRUB_STAT_SRAM_PASS) + 1) %
          2 ^ fldWidth (if hbm then F.MEM_SCRUB_STAT_HBM_PASS else F.MEM_SCRUB_STAT_SRAM_PASS) ∧
      (endScrub hbm a (probeWord 3 a s).2).mem.scrub = modAt (if hbm then 1 else 0) (fun _ => (s.time.count, false)) s.mem.scrub := by
  have inv' : Inv (probeWord 3 a s).2 := readWord_keeps (kind_1 := 3) (a_2 := a) (keeps_inv (by decide)) inv
  have time : (probeWord 3 a s).2.time = s.time := readWord_keeps (kind_1 := 3) (a_2 := a) (shows_time (by decide)) rfl
  have scrub : (probeWord 3 a s).2.mem.scrub = s.mem.scrub := congrArg (·.scrub) (probeWord_accessed 3 a s)
  have regs : SameRegsBut memAddrs s (probeWord 3 a s).2 := probeWord_memRegs (.refl _ s)
  unfold endScrub
  rw [if_neg (not_not.mpr last)]
  cases hbm with
  | false =>
    refine ⟨?_, ?_⟩
    · refine (fld_setFld_same (f := F.MEM_SCRUB_STAT_SRAM_PASS) inv'.regs (by decide)).trans ?_
      rw [regs.fld (by decide)]
      rfl
    · show modAt 0 (fun _ => ((probeWord 3 a s).2.time.count, false)) (probeWord 3 a s).2.mem.scrub = _
      rw [time, scrub]
      rfl
  | true =>
    refine ⟨?_, ?_⟩
    · refine (fld_setFld_same (f := F.MEM_SCRUB_STAT_HBM_PASS) inv'.regs (by decide)).trans ?_
      rw [regs.fld (by decide)]
      rfl
    · show modAt 1 (fun _ => ((probeWord 3 a s).2.time.count, false)) (probeWord 3 a s).2.mem.scrub = _
      rw [time, scrub]
      rfl

theorem exec_scrubLag (hbm : Bool) : exec (.scrubLag hbm) s = .next (live s fun s =>
    let i := if hbm then 1 else 0
    let x := s.mem.scrub.getD i (0, false)
    if x.2 ∨ s.time.count ≤ x.1 + 2 * scrubPeriod s hbm then s
    else
      report (uncoded .scrubLag 0x84 .warning)
        (setFlag (if hbm then F.MEM_SCRUB_STAT_HBM_LAG else F.MEM_SCRUB_STAT_SRAM_LAG) true
          { s with mem := { s.mem with scrub := modAt i (fun y => (y.1, true)) s.mem.scrub } })) := rfl

theorem scrubberRepairs (up : running s = true) (inv : Inv s) : ScrubberRepairs s := by
  refine ⟨fun hbm a m mem => ⟨fun own => ⟨scrubsWord up inv mem own, fun flips dev => ?_, fun last => goes_scrubRead up mem own (passEnds inv last)⟩,
    fun other flips dev => ?_⟩, fun hbm a flips dev none => ?_, fun hbm => ?_⟩
  · let hit := applyDev a dev (applyFlips a flips s)
    have pwr : hit.pwr = s.pwr := applyDev_keeps (shows_pwr (by decide)) (applyFlips_keeps (shows_pwr (by decide)) rfl)
    have up' : running hit = true := by
      unfold running at up ⊢
      rw [pwr]
      exact up
    rw [scrubRead_runs up mem own, scrubRead_runs up' mem own, applyDev_clean]
    rfl
  · refine idle_live (exec_scrubRead hbm a flips dev) ?_
    simp only [mem]
    exact if_pos fun e => other (decide_eq_true_iff.symm.trans (Bool.eq_iff_iff.mp e))
  · refine idle_live (exec_scrubRead hbm a flips dev) ?_
    rw [none]
  · intro i x late
    refine ⟨fun is => ?_, fun not => ?_⟩
    · refine goes_live up (exec_scrubLag hbm) ?_
      rw [if_neg (by rintro (told | soon); exacts [absurd (is.1.symm.trans told) Bool.false_ne_true, absurd is.2 (Nat.not_lt.mpr soon)])]
      refine ⟨?_, report_mem_same, fun room => report_recorded room⟩
      cases hbm with
      | false => exact (flag_report (by decide)).trans (flag_setFlag_same (f := F.MEM_SCRUB_STAT_SRAM_LAG) (s := { s with mem := _ }) inv.regs (by decide))
      | true => exact (flag_report (by decide)).trans (flag_setFlag_same (f := F.MEM_SCRUB_STAT_HBM_LAG) (s := { s with mem := _ }) inv.regs (by decide))
    · refine idle_live (exec_scrubLag hbm) (if_pos ?_)
      by_cases told : x.2 = true
      · exact .inl told
      · exact .inr (Nat.not_lt.mp fun soon => not ⟨Bool.eq_false_iff.mpr told, soon⟩)

/-! ## A window of correctable errors -/

/-- From s to t nothing of the memories has changed but which wipes are under way. -/
def OnlyWipes (s t : State) : Prop := t.mem = { s.mem with wipes := t.mem.wipes }

theorem OnlyWipes.refl (s : State) : OnlyWipes s s := rfl

theorem OnlyWipes.trans (h : OnlyWipes s t) (g : OnlyWipes t u) : OnlyWipes s u := by
  unfold OnlyWipes at h g ⊢
  rw [g, h]

theorem OnlyWipes.of_mem (h : OnlyWipes s t) (mem : u.mem = t.mem) : OnlyWipes s u := by
  unfold OnlyWipes at h ⊢
  rw [mem]
  exact h

theorem beginWipe_onlyWipes (r : WipeRegion) (s : State) : OnlyWipes s (beginWipe r s) :=
  ite_keeps (P := OnlyWipes s) rfl rfl

theorem abandonOn_onlyWipes (n : Nat) (s : State) : OnlyWipes s (abandonOn n s) := by
  unfold abandonOn
  split
  · unfold abandonUnit
    extract_lets e s1 n o' s2
    have begun : OnlyWipes s s1 := .trans (OnlyWipes.of_mem (.refl s) report_mem_same) (beginWipe_onlyWipes _ _)
    refine ite_keeps (P := OnlyWipes s) (begun.of_mem ?_) (begun.of_mem (setOp_keeps (shows_mem (by decide)) rfl))
    exact sendAnswer_keeps (shows_mem (by decide)) (showLeases_keeps (shows_mem (by decide)) (setOp_keeps (s_2 := s1) (shows_mem (by decide)) rfl))
  · exact .refl s

theorem revokeOne_onlyWipes (warden : Bool) (l : Lease) (s : State) : OnlyWipes s (revokeOne warden l s) := by
  unfold revokeOne
  extract_lets -merge s1 s2 s3 same s4 s5 _ s6
  have captured : s2.mem = s.mem := capture_keeps (shows_mem (by decide)) (bump_keeps (shows_mem (by decide)) report_mem_same)
  have counted : s3.mem = s.mem :=
    countDie_keeps (shows_mem (by decide)) (ite_keeps (P := fun t : State => t.mem = s.mem) (bump_keeps (shows_mem (by decide)) captured) captured)
  have lost : OnlyWipes s s4 := by
    refine OnlyWipes.of_mem (t := abandonOn l.holder (loseItem l.holder s3)) ?_ (loseMessage_keeps (shows_mem (by decide)) rfl)
    exact .trans (OnlyWipes.of_mem (.refl s) (loseItem_keeps (shows_mem (by decide)) counted)) (abandonOn_onlyWipes _ _)
  have refused : OnlyWipes s s5 := ite_keeps (P := OnlyWipes s) (lost.of_mem rfl) lost
  have noted : OnlyWipes s s6 := refused.of_mem rfl
  refine OnlyWipes.of_mem ?_ (showSegs_keeps (shows_mem (by decide)) (showLeases_keeps (shows_mem (by decide)) rfl))
  exact ite_keeps (P := OnlyWipes s) (noted.trans (beginWipe_onlyWipes _ _)) noted

theorem revokeWhere_onlyWipes (warden : Bool) (p : Lease → Bool) (s : State) : OnlyWipes s (revokeWhere warden p s) :=
  foldl_keeps (P := OnlyWipes s) (fun _ _ h => h.trans (revokeOne_onlyWipes _ _ _)) _ _ (.refl s)

/-- What takes a unit out of service only begins wipes. -/
theorem takeOut_onlyWipes (warden : Bool) (n : Nat) (s : State) : OnlyWipes s (takeOut warden n s) := by
  rw [takeOut_eq]
  have before : OnlyWipes s (revokeWhere warden (fun l => l.holder = n) (abandonOn n (loseItem n (returnBlock n s)))) :=
    .trans (.trans (OnlyWipes.of_mem (.refl s) (loseItem_keeps (shows_mem (by decide)) (returnBlock_keeps (shows_mem (by decide)) rfl)))
      (abandonOn_onlyWipes _ _)) (revokeWhere_onlyWipes _ _ _)
  refine before.of_mem (showService_keeps (shows_mem (by decide)) ?_)
  exact clearAffinity_keeps (u_1 := n) (shows_mem (by decide)) (dropTask_keeps (u_1 := n) (shows_mem (by decide)) rfl)

/-- The state in which a bank starts to count anew (R377). -/
def restartCount (k : Nat) (s : State) : State :=
  { s with mem := { s.mem with
    ceCount := tabPut 0 s.mem.ceCount k 0
    ceOver := (k, s.frame.num) :: s.mem.ceOver.filter fun x => x.1 ≠ k } }

/-- The record of a bank with too many correctable errors. -/
def tellBank (m : MemKind) (sev : Severity) (s : State) : State :=
  report { unit := 0x84, cls := 0x01, ev := 0, sev := sev, detail := memDetail 0 0 (memCode m) 0 } s

/-- What a window with too many correctable errors does: the second within 1,024 frames takes a tile out of service, or makes the
memory due for its pack. -/
def windowOver (m : MemKind) (bank : Nat) (s : State) : State :=
  if !(s.mem.ceOver.any fun x => x.1 = bankKey m bank ∧ frameDist x.2 s.frame.num ≤ 1024) then
    tellBank m .warning (restartCount (bankKey m bank) s)
  else match bankTile m bank with
    | some u => tellBank m .fault (showSched (kermesDue (kermesUnit u) (takeOut false u (restartCount (bankKey m bank) s))))
    | none => tellBank m .fault (kermesDue (.memory m) (restartCount (bankKey m bank) s))

theorem exec_ceWindow (m : MemKind) (bank : Nat) : exec (.ceWindow m bank) s = .next (live s fun s =>
    if tabGet 0 s.mem.ceCount (bankKey m bank) ≤ fld s F.MEM_CE_CFG_CE_TH then s else windowOver m bank s) := rfl

theorem kermesDue_due (k : KermesUnit) (s : State) : k ∈ (kermesDue k s).safe.kermesDue := by
  unfold kermesDue
  split
  · rename_i h
    exact List.contains_iff_mem.mp h
  · exact List.mem_append_right _ (List.mem_singleton.mpr rfl)

/-- A bank had too many correctable errors in one of the last 1,024 frames. -/
def OverAgain (m : MemKind) (bank : Nat) (s : State) : Prop := ∃ x ∈ s.mem.ceOver, x.1 = bankKey m bank ∧ frameDist x.2 s.frame.num ≤ 1024

theorem overAgain_iff {m : MemKind} {bank : Nat} :
    (s.mem.ceOver.any fun x => decide (x.1 = bankKey m bank ∧ frameDist x.2 s.frame.num ≤ 1024)) = true ↔ OverAgain m bank s := by
  unfold OverAgain
  rw [List.any_eq_true]
  simp only [decide_eq_true_eq]

theorem windowOver_once {m : MemKind} {bank : Nat} (once : ¬OverAgain m bank s) :
    windowOver m bank s = tellBank m .warning (restartCount (bankKey m bank) s) := by
  unfold windowOver
  rw [Bool.eq_false_iff.mpr fun h => once (overAgain_iff.mp h)]
  rfl

theorem windowOver_tile {m : MemKind} {bank n : Nat} (again : OverAgain m bank s) (tile : bankTile m bank = some n) :
    windowOver m bank s = tellBank m .fault (showSched (kermesDue (kermesUnit n) (takeOut false n (restartCount (bankKey m bank) s)))) := by
  unfold windowOver
  rw [overAgain_iff.mpr again, tile]
  rfl

theorem windowOver_memory {m : MemKind} {bank : Nat} (again : OverAgain m bank s) (tile : bankTile m bank = none) :
    windowOver m bank s = tellBank m .fault (kermesDue (.memory m) (restartCount (bankKey m bank) s)) := by
  unfold windowOver
  rw [overAgain_iff.mpr again, tile]
  rfl

theorem windowOver_wipes (m : MemKind) (bank : Nat) (s : State) : OnlyWipes (restartCount (bankKey m bank) s) (windowOver m bank s) := by
  have told {sev : Severity} {u v : State} (h : OnlyWipes v u) : OnlyWipes v (tellBank m sev u) := h.of_mem report_mem_same
  by_cases again : OverAgain m bank s
  · cases tile : bankTile m bank with
    | none =>
      rw [windowOver_memory again tile]
      exact told (OnlyWipes.of_mem (.refl _) (kermesDue_keeps (shows_mem (by decide)) rfl))
    | some n =>
      rw [windowOver_tile again tile]
      exact told ((takeOut_onlyWipes false n _).of_mem (showSched_keeps (shows_mem (by decide)) (kermesDue_keeps (shows_mem (by decide)) rfl)))
  · rw [windowOver_once again]
    exact told (.refl _)

/-- Settles O40. -/
theorem scrubberRepairsAndCounts : Obligations.ScrubberRepairsAndCounts := by
  unfold Obligations.ScrubberRepairsAndCounts
  intro s up inv
  refine ⟨scrubberRepairs up inv, fun m bank => ⟨fun few => idle_live (exec_ceWindow m bank) (if_pos few), fun many => ?_⟩⟩
  refine goes_live up (exec_ceWindow m bank) ?_
  rw [if_neg (Nat.not_le.mpr many)]
  have wipes := windowOver_wipes m bank s
  have shown : (windowOver m bank s).mem.ceOver = (restartCount (bankKey m bank) s).mem.ceOver := congrArg (·.ceOver) wipes
  refine ⟨congrArg (·.ceCount) wipes, shown ▸ List.mem_cons_self, fun once => ?_, fun again n tile => ?_, fun again tile => ?_⟩
  · rw [windowOver_once once]
    exact ⟨report_cnd, report_safe, fun room => report_recorded room⟩
  · rw [windowOver_tile again tile]
    have cnd : (tellBank m .fault (showSched (kermesDue (kermesUnit n) (takeOut false n (restartCount (bankKey m bank) s))))).cnd =
        (takeOut false n (restartCount (bankKey m bank) s)).cnd :=
      report_keeps (shows_cnd (by decide)) (showSched_keeps (shows_cnd (by decide)) (kermesDue_keeps (shows_cnd (by decide)) rfl))
    have safe : (tellBank m .fault (showSched (kermesDue (kermesUnit n) (takeOut false n (restartCount (bankKey m bank) s))))).safe =
        (kermesDue (kermesUnit n) (takeOut false n (restartCount (bankKey m bank) s))).safe :=
      report_keeps (shows_safe (by decide)) (showSched_keeps (shows_safe (by decide)) rfl)
    exact ⟨(outOfWork_of_cnd cnd).mpr (takeOut_outOfWork ..), safe ▸ kermesDue_due ..⟩
  · rw [windowOver_memory again tile]
    refine ⟨report_keeps (shows_cnd (by decide)) (kermesDue_keeps (shows_cnd (by decide)) rfl), ?_⟩
    rw [tellBank, report_safe]
    exact kermesDue_due ..

end

end Sys2Proof.Machine

end

section

set_option Elab.async false

/-! # What sending writes of the registers (R494 to R496)

A unit that goes out on the supervisor port completes descriptors and may close a slot; nothing else that is sent writes a register. -/

namespace Sys2Proof.Machine

section
variable {s t : State}

/-- The registers that the units of the supervisor port write. -/
def sendAddrs : List Nat := [F.SUP_CMP_HEAD_HEAD.addr, F.SUP_SLOT_CAP_VALID.addr, F.SUP_SLOT_CNT_CLOSED.addr, F.WDN_FLOG_STAT_SEQ.addr]

/-- From s to t no register has changed but those that sending writes. -/
abbrev SendRegs (s t : State) : Prop := SameRegsBut sendAddrs s t

theorem complete_sendRegs {c : Compl} (h : SendRegs s t) : SendRegs s (complete c t) := by
  unfold complete writeCompl
  refine ite_keeps (P := SendRegs s) ?_ (h.same rfl rfl)
  exact SameRegsBut.same (SameRegsBut.setFld (f := F.SUP_CMP_HEAD_HEAD) h (by decide)) rfl rfl

theorem completeBad_sendRegs {i b n : Nat} (h : SendRegs s t) : SendRegs s (completeBad i b n t) :=
  complete_sendRegs (nextFree_keeps (keeps_sameRegs (by decide)) (nextFree_keeps (keeps_sameRegs (by decide)) h))

theorem closeSlot_sendRegs {n c : Nat} (h : SendRegs s t) : SendRegs s (closeSlot n c t) := by
  unfold closeSlot
  extract_lets gone sec s1 s2
  have bad : SendRegs s s2 := foldl_keeps (P := SendRegs s) (fun _ _ h => completeBad_sendRegs h) _ _ (h.same rfl rfl)
  refine ite_keeps (P := SendRegs s) h (SameRegsBut.capture (SameRegsBut.bump (SameRegsBut.report bad (by decide)) (by decide)) (by decide) ?_)
  simp only [List.forall_mem_cons]
  exact ⟨by decide, by decide, fun _ h => absurd h List.not_mem_nil⟩

theorem deliverMsg_sendRegs {m : DevMsg} {d : SlotDesc} {k : SlotKeys} (h : SendRegs s t) : SendRegs s (deliverMsg m d k t) := by
  unfold deliverMsg
  extract_lets n more ctr rest sec s1 s2 s3
  have taken : SendRegs s s1 := setSlot_keeps (keeps_sameRegs (by decide)) (h.same rfl rfl)
  have completed : SendRegs s s2 := complete_sendRegs (taken.same rfl rfl)
  have answered : SendRegs s s3 := by
    unfold s3
    split
    · exact ite_keeps (P := SendRegs s) completed (completed.same rfl rfl)
    · exact completed
  exact ite_keeps (P := SendRegs s) (closeSlot_sendRegs answered) answered

theorem pump_sendRegs (h : SendRegs s t) : SendRegs s (pump t) := by
  have one {t : State} (h : SendRegs s t) : SendRegs s (pumpOne t) := by
    unfold pumpOne
    split
    · exact h
    · split
      · exact deliverMsg_sendRegs h
      · exact h
  exact foldl_keeps (P := SendRegs s) (fun _ _ h => one h) _ _ h

theorem sendUnit_sendRegs {n : Nat} {a : Option Answer} {bs : List Byte} (h : SendRegs s t) : SendRegs s (sendUnit n a bs t) :=
  pump_sendRegs (h.same rfl rfl)

theorem sendAnswer_sendRegs {a : Answer} (h : SendRegs s t) : SendRegs s (sendAnswer a t) := by
  unfold sendAnswer
  split
  · exact sendUnit_sendRegs h
  · exact sendGuidance_keeps (keeps_sameRegs (by decide)) h
  · exact h.same rfl rfl

end

end Sys2Proof.Machine

end

section

set_option Elab.async false

/-! # Wipes and segment boundaries (R149, R234, R336, R355, R357 to R362, R383, R384) -/

namespace Sys2Proof.Machine

open Sys2Proof.Claims

section
variable {s t u : State} {r : WipeRegion}

/-! ## A region that is zero -/

/-- An address lies in one of the ranges. -/
def inRanges (rs : List (Nat × Nat)) (a : Nat) : Bool := rs.any fun r => decide (r.1 ≤ a ∧ a < r.1 + r.2)

theorem inRanges_iff {rs : List (Nat × Nat)} {a : Nat} : inRanges rs a = true ↔ ∃ p ∈ rs, p.1 ≤ a ∧ a < p.1 + p.2 := by
  unfold inRanges
  rw [List.any_eq_true]
  simp only [decide_eq_true_eq]

theorem zeroRanges_inside {rs : List (Nat × Nat)} {a : Nat} (h : inRanges rs a = true) : byteAt (zeroRanges rs s) a = 0 := by
  have blank : blanked (zeroRanges rs s) a = true := by
    unfold blanked zeroRanges
    rw [List.any_append]
    exact Bool.or_eq_true_iff.mpr (.inl h)
  have cells : tabGet 0 (zeroRanges rs s).mem.cells a = 0 :=
    tabGet_filter_out fun v => by
      show (!inRanges rs a) = false
      rw [h]
      rfl
  unfold byteAt placedByte
  rw [blank, cells, if_pos rfl, BitVec.xor_self]
  rfl

theorem zeroRanges_outside {rs : List (Nat × Nat)} {a : Nat} (h : inRanges rs a = false) : byteAt (zeroRanges rs s) a = byteAt s a := by
  have blank : blanked (zeroRanges rs s) a = blanked s a := by
    unfold blanked zeroRanges
    rw [List.any_append]
    exact (congrArg (· || _) h).trans (Bool.false_or _)
  have cells : tabGet 0 (zeroRanges rs s).mem.cells a = tabGet 0 s.mem.cells a :=
    tabGet_filter_of fun v => by
      show (!inRanges rs a) = true
      rw [h]
      rfl
  have struct : structByte (zeroRanges rs s) = structByte s := structByte_congr (sameStructures_of_mem rfl)
  unfold byteAt placedByte
  rw [blank, cells, struct]

/-- The state in which a wipe that is under way has left its region zero, and shows so (R383, R384). -/
def zeroed (r : WipeRegion) (w : WipeRegion × Tick) (s : State) : State :=
  let s1 := zeroRanges (wipeRanges s r) { s with mem := { s.mem with wipes := s.mem.wipes.erase w } }
  setFlag F.MEM_WIPE_STAT_BUSY (!s1.mem.wipes.isEmpty) (setSat F.MEM_WIPE_STAT_LAST (s.time.count - w.2) s1)

theorem exec_wipeDone (r : WipeRegion) (ok : Bool) : exec (.wipeDone r ok) s = .next (live s fun s =>
    match s.mem.wipes.find? fun w => w.1 = r with
    | none => s
    | some w =>
      if ok then serveWaiting (wipeFrees r (zeroed r w s))
      else
        setFlag F.MEM_WIPE_STAT_VERIFY_FAIL true (memEvent 6 0 ((((wipeRanges s r).head?).map (·.1)).getD 0) .fault
          { zeroed r w s with mem := { (zeroed r w s).mem with closed := r :: (zeroed r w s).mem.closed } })) := rfl

theorem zeroed_same (w : WipeRegion × Tick) :
    SameMemory (zeroRanges (wipeRanges s r) { s with mem := { s.mem with wipes := s.mem.wipes.erase w } }) (zeroed r w s) := by
  refine sameMemory_of (sameStructures_of_sources ?_ rfl rfl rfl rfl rfl rfl) rfl rfl rfl
  refine SameSources.of_regs (l := [F.MEM_WIPE_STAT_BUSY.addr]) ?_ (by decide)
  exact SameRegsBut.setFlag (SameRegsBut.setFld (.refl _ _) (by decide)) (by decide)

theorem byteAt_withWipes {l : List (WipeRegion × Tick)} : byteAt { s with mem := { s.mem with wipes := l } } = byteAt s :=
  byteAt_congr (s := s) ⟨rfl, rfl, rfl, rfl, rfl, rfl, rfl, rfl, rfl, rfl⟩ rfl rfl

theorem zeroed_inside {w : WipeRegion × Tick} {a : Nat} (h : inRanges (wipeRanges s r) a = true) : byteAt (zeroed r w s) a = 0 :=
  ((zeroed_same w) a).1.trans (zeroRanges_inside h)

theorem zeroed_outside {w : WipeRegion × Tick} {a : Nat} (h : inRanges (wipeRanges s r) a = false) : byteAt (zeroed r w s) a = byteAt s a :=
  (((zeroed_same w) a).1.trans (zeroRanges_outside h)).trans
    (congrFun byteAt_withWipes a)

/-! ## What the end of a wipe sets free -/

/-- The registers that may be written as a wipe sets free what waited for it. -/
def freeAddrs : List Nat := [F.CND_LEASE_STAT_USED.addr, F.WDN_CRYPTO_SEG_OPEN.addr, F.WLD_MAPLD_SEG_OPEN.addr] ++ sendAddrs ++
  (List.range 32).map fun n => 0x101700 + 4 * n

abbrev FreeRegs (s t : State) : Prop := SameRegsBut freeAddrs s t

theorem showLeases_freeRegs (h : FreeRegs s t) : FreeRegs s (showLeases t) := SameRegsBut.setFld h (by decide)

theorem showSegs_freeRegs (h : FreeRegs s t) : FreeRegs s (showSegs t) := SameRegsBut.setFld (SameRegsBut.setFld h (by decide)) (by decide)

theorem freeLease_freeRegs {cls res : Nat} (h : FreeRegs s t) : FreeRegs s (freeLease cls res t) := by
  unfold freeLease serveWaiter
  split
  · unfold giveLease
    exact showSegs_freeRegs (showLeases_freeRegs (h.same rfl rfl))
  · exact showSegs_freeRegs (showLeases_freeRegs (h.same rfl rfl))

theorem setOp_freeRegs {o : LongOp} (small : o.ctx < 32) (h : FreeRegs s t) : FreeRegs s (setOp o t) := by
  have there : 0x101700 + 4 * o.ctx ∈ freeAddrs := List.mem_append_right _ (List.mem_map.mpr ⟨o.ctx, List.mem_range.mpr small, rfl⟩)
  unfold setOp showOp
  extract_lets put ops put'
  have shown {a b c d e : Nat} {t : State} (h : FreeRegs s t) : FreeRegs s (put' a b c d e t) :=
    SameRegsBut.setFld (SameRegsBut.setFld (SameRegsBut.setFld (SameRegsBut.setFld (SameRegsBut.setFld h there) there) there) there) there
  split
  · exact shown (h.same rfl rfl)
  · exact shown (h.same rfl rfl)

theorem sendAnswer_freeRegs {a : Answer} (h : FreeRegs s t) : FreeRegs s (sendAnswer a t) :=
  h.trans ((sendAnswer_sendRegs (.refl _ t)).mono (by decide))

theorem cancelDone_freeRegs (ctx : Fin 32) (s : State) : FreeRegs s (cancelDone ctx.val s) := by
  unfold cancelDone
  split
  · exact .refl _ s
  · rename_i o found
    have at' : o.ctx = ctx.val := (of_decide_eq_true (p := o.ctx = ctx.val ∧ _) (List.find?_some found :)).1
    exact freeLease_freeRegs (sendAnswer_freeRegs (setOp_freeRegs (at' ▸ ctx.isLt) (.refl _ s)))

theorem returnResource_freeRegs {cls res : Nat} (h : FreeRegs s t) : FreeRegs s (returnResource cls res t) :=
  ite_keeps (P := FreeRegs s) (freeLease_freeRegs h) h

theorem wipeFrees_freeRegs (r : WipeRegion) (s : State) : FreeRegs s (wipeFrees r s) := by
  unfold wipeFrees
  split
  · exact returnResource_freeRegs (cancelDone_freeRegs _ s)
  · exact returnResource_freeRegs (.refl _ s)
  · exact .refl _ s

theorem wipeFrees_same (r : WipeRegion) (s : State) : SameMemory s (wipeFrees r s) := by
  have keep {P : State → Prop} (C : Keeps [.indlog, .regs, .cnd, .log, .queue, .sec, .bus, .sent, .free] P) (h : P s) : P (wipeFrees r s) :=
    wipeFrees_keeps C h
  refine sameMemory_of (sameStructures_of_sources (.of_regs (wipeFrees_freeRegs r s) (by decide)) (keep (shows_wld (by decide)) rfl)
    (keep (shows_held (by decide)) rfl) (keep (shows_swp (by decide)) rfl) (keep (shows_sel (by decide)) rfl) (keep (shows_image (by decide)) rfl)
    (keep (shows_frame (by decide)) rfl)) ?_ ?_ ?_
  · rw [keep (shows_mem (x := s.mem) (by decide)) rfl]
  · rw [keep (shows_mem (x := s.mem) (by decide)) rfl]
  · rw [keep (shows_mem (x := s.mem) (by decide)) rfl]

/-- No lease of the resource is being revoked. -/
def NotRevoked (cls res : Nat) (s : State) : Prop := ∀ l ∈ s.cnd.leases, l.cls = cls → l.res = res → l.revoking = false

theorem freeLease_leases {cls res : Nat} : ∀ l ∈ (freeLease cls res s).cnd.leases,
    l ∈ s.cnd.leases ∧ ¬(l.cls = cls ∧ l.res = res) ∨ l.revoking = false := by
  have left {l : Lease} (h : l ∈ s.cnd.leases.filter fun l => ¬(l.cls = cls ∧ l.res = res)) : l ∈ s.cnd.leases ∧ ¬(l.cls = cls ∧ l.res = res) :=
    ⟨List.mem_of_mem_filter h, of_decide_eq_true (List.mem_filter.mp h).2⟩
  unfold freeLease serveWaiter
  split
  · unfold giveLease
    rw [showSegs_keeps (shows_cnd (by decide)) (showLeases_keeps (shows_cnd (by decide)) rfl)]
    intro l hl
    rcases List.mem_append.mp hl with hl | hl
    · exact .inl (left hl)
    · rw [List.mem_singleton.mp hl]
      exact .inr rfl
  · rw [showSegs_keeps (shows_cnd (by decide)) (showLeases_keeps (shows_cnd (by decide)) rfl)]
    exact fun l hl => .inl (left hl)

theorem freeLease_notRevoked (cls res : Nat) (s : State) : NotRevoked cls res (freeLease cls res s) := by
  intro l hl c d
  rcases freeLease_leases l hl with ⟨-, other⟩ | given
  · exact absurd ⟨c, d⟩ other
  · exact given

theorem returnResource_notRevoked (cls res : Nat) (s : State) : NotRevoked cls res (returnResource cls res s) := by
  unfold returnResource
  split
  · exact freeLease_notRevoked cls res s
  · rename_i none
    intro l hl c d
    rw [List.any_eq_true] at none
    exact Bool.eq_false_iff.mpr fun k => none ⟨l, hl, decide_eq_true ⟨c, d, k⟩⟩

/-- No operation of the context is being cancelled. -/
def NotCancelling (ctx : Nat) (s : State) : Prop := ∀ o ∈ s.cnd.ops, ¬(o.ctx = ctx ∧ o.state = .cancelling)

theorem freeLease_ops (cls res : Nat) (s : State) : (freeLease cls res s).cnd.ops = s.cnd.ops := by
  unfold freeLease serveWaiter
  split
  · unfold giveLease
    rw [showSegs_keeps (shows_cnd (by decide)) (showLeases_keeps (shows_cnd (by decide)) rfl)]
    rfl
  · rw [showSegs_keeps (shows_cnd (by decide)) (showLeases_keeps (shows_cnd (by decide)) rfl)]

theorem cancelDone_notCancelling (ctx : Nat) (s : State) : NotCancelling ctx (cancelDone ctx s) := by
  unfold cancelDone
  split
  · rename_i none
    intro o ho is
    exact List.find?_eq_none.mp none o ho (decide_eq_true is)
  · rename_i o found
    have at' : o.ctx = ctx := (of_decide_eq_true (p := o.ctx = ctx ∧ _) (List.find?_some found :)).1
    unfold NotCancelling
    have ops : (sendAnswer (opAnswer s { o with state := OpState.cancelled } 0x1A) (setOp { o with state := OpState.cancelled } s)).cnd.ops =
        s.cnd.ops.filter fun x => x.ctx ≠ o.ctx := by
      rw [sendAnswer_keeps (shows_cnd (by decide)) rfl]
      unfold setOp
      rw [showOp_keeps (shows_cnd (by decide)) rfl]
      rfl
    rw [freeLease_ops, ops]
    rintro p hp ⟨same, -⟩
    exact absurd (of_decide_eq_true (List.mem_filter.mp hp).2) (not_not.mpr (same.trans at'.symm))

theorem wipeFrees_cancels (ctx : Fin 32) (s : State) : NotCancelling ctx.val (wipeFrees (.longOp ctx) s) ∧ NotRevoked 5 ctx.val (wipeFrees (.longOp ctx) s) := by
  refine ⟨?_, returnResource_notRevoked 5 ctx.val _⟩
  refine ite_keeps (P := NotCancelling ctx.val) ?_ (cancelDone_notCancelling ctx.val s)
  unfold NotCancelling
  rw [freeLease_ops]
  exact cancelDone_notCancelling ctx.val s

/-! ## Accesses that have waited -/

theorem writeFull_accessed (n : Nat) (bs : List Byte) (sepia : Bool) (s : State) : OnlyAccessed s (writeFull n bs sepia s) :=
  (putBytes_accessed _ bs s).trans (setSynd_accessed _ _ _)

theorem writePartial_accessed (n : Nat) (bs : List Byte) (sepia : Bool) (s : State) : OnlyAccessed s (writePartial n bs sepia s) := by
  unfold writePartial
  extract_lets s1
  have put : OnlyAccessed s s1 := by
    unfold s1
    split
    · exact putBytes_accessed _ _ _
    · exact ((countCe_accessed n s).trans (correct_accessed _ _ _)).trans (putBytes_accessed _ _ _)
    · exact (OnlyAccessed.of_mem (.refl s) (bump_keeps (shows_mem (by decide)) rfl)).trans (putBytes_accessed _ _ _)
    · exact (findBad_accessed 2 n s).trans (putBytes_accessed _ _ _)
  exact ite_keeps (P := OnlyAccessed s) (put.trans (setSynd_accessed _ _ _)) put

theorem writeWord_accessed (p : DataPacket) (w : (Nat × Nat) × List Byte) (s : State) : OnlyAccessed s (writeWord p w s) :=
  ite_keeps (P := OnlyAccessed s) (.refl s) (ite_keeps (P := OnlyAccessed s) (writeFull_accessed ..) (writePartial_accessed ..))

theorem readPacket_accessed (p : DataPacket) (l : List Nat) (s : State) : OnlyAccessed s (readPacket p l s).2 := by
  have one (n : Nat) (s : State) : OnlyAccessed s (readPacketWord p n s).2 := by
    unfold readPacketWord
    split
    · exact .refl s
    · exact probeWord_accessed 1 _ s
  induction l generalizing s with
  | nil => exact .refl s
  | cons n l ih => exact (one n s).trans (ih _)

theorem upsetWord_accessed (p : DataPacket) (s : State) : OnlyAccessed s (upsetWord p s) := by
  have flipped (n : Nat) (f : BitVec 72) (s : State) : OnlyAccessed s (applyFlips n f s) :=
    ite_keeps (P := OnlyAccessed s) (.refl s) ((putBytes_accessed _ _ s).trans (setSynd_accessed _ _ _))
  have reported (n : Nat) (d : DevEcc) (s : State) : OnlyAccessed s (applyDev n d s) := by
    unfold applyDev
    split
    · exact .refl s
    · split
      · exact .refl s
      · exact rfl
      · exact (OnlyAccessed.of_mem (.refl s) (memEvent_keeps (shows_mem (by decide)) rfl)).trans (setSynd_accessed _ _ _)
  exact ite_keeps (P := OnlyAccessed s) ((flipped _ _ s).trans (reported _ _ _)) (.refl s)

theorem servePacket_accessed (p : DataPacket) (s : State) : OnlyAccessed s (servePacket p s) := by
  unfold servePacket
  extract_lets ws a s1 s2 r
  have told : OnlyAccessed s s1 := by
    unfold s1
    split
    · exact OnlyAccessed.of_mem (.refl s) report_mem_same
    · exact .refl s
  have upset : OnlyAccessed s s2 := told.trans (upsetWord_accessed p s1)
  split
  · refine OnlyAccessed.of_mem ?_ (countHbm_keeps (shows_mem (by decide)) rfl)
    exact foldl_keeps (P := OnlyAccessed s) (fun _ _ h => h.trans (writeWord_accessed p _ _)) _ _ upset
  · exact OnlyAccessed.of_mem (upset.trans (readPacket_accessed p _ s2)) (countHbm_keeps (shows_mem (by decide)) rfl)

/-- The state in which the accesses that no wipe holds back have left those that wait. -/
def stopWaiting (s : State) : State := { s with mem := { s.mem with waiting := s.mem.waiting.filter fun p => mustWait s p } }

theorem serveWaiting_eq (s : State) : serveWaiting s =
    (s.mem.waiting.filter fun p => !mustWait s p).foldl (fun s p => servePacket p (setWait p.unit none s)) (stopWaiting s) := rfl

/-- What holds through the service of packets and the end of waits holds once the accesses that no wipe holds back are served. -/
theorem serveWaiting_ind {P : State → Prop} (step : ∀ p s, P s → P (servePacket p (setWait p.unit none s))) (h : P (stopWaiting s)) :
    P (serveWaiting s) := by
  rw [serveWaiting_eq]
  exact foldl_keeps (fun _ p h => step p _ h) _ _ h

theorem serveWaiting_accessed (s : State) : OnlyAccessed (stopWaiting s) (serveWaiting s) :=
  serveWaiting_ind (fun p s h => h.trans (.trans (OnlyAccessed.of_mem (.refl s) rfl) (servePacket_accessed p _))) (.refl _)

theorem serveWaiting_leases (s : State) : (serveWaiting s).cnd.leases = s.cnd.leases ∧ (serveWaiting s).cnd.ops = s.cnd.ops := by
  refine serveWaiting_ind (P := fun t => t.cnd.leases = s.cnd.leases ∧ t.cnd.ops = s.cnd.ops) (fun p u h => ?_) ⟨rfl, rfl⟩
  rw [servePacket_keeps (shows_cnd (x := (setWait p.unit none u).cnd) (by decide)) rfl]
  exact h

/-- Where nothing waits, nothing is served. -/
theorem serveWaiting_none (h : s.mem.waiting = []) : serveWaiting s = s := by
  have stopped : stopWaiting s = s := by
    unfold stopWaiting
    rw [h]
    show { s with mem := { s.mem with waiting := [] } } = s
    rw [← h]
  rw [serveWaiting_eq, stopped, h]
  rfl

theorem wipeFrees_mem (r : WipeRegion) (s : State) : (wipeFrees r s).mem = s.mem := wipeFrees_keeps (shows_mem (by decide)) rfl

theorem zeroed_mem (w : WipeRegion × Tick) : (zeroed r w s).mem = { s.mem with
    wipes := s.mem.wipes.erase w, blank := (zeroed r w s).mem.blank, cells := (zeroed r w s).mem.cells, synd := (zeroed r w s).mem.synd } := rfl

theorem zeroed_bytes (w : WipeRegion × Tick) (u : State) (same : ∀ a, byteAt u a = byteAt (zeroed r w s) a) :
    (∀ p ∈ wipeRanges s r, ∀ a, p.1 ≤ a → a < p.1 + p.2 → byteAt u a = 0) ∧
      ∀ a, (∀ p ∈ wipeRanges s r, ¬(p.1 ≤ a ∧ a < p.1 + p.2)) → byteAt u a = byteAt s a := by
  refine ⟨fun p hp a lo hi => ?_, fun a out => ?_⟩
  · rw [same, zeroed_inside (inRanges_iff.mpr ⟨p, hp, lo, hi⟩)]
  · rw [same, zeroed_outside]
    exact Bool.eq_false_iff.mpr fun k => by
      obtain ⟨p, hp, inside⟩ := inRanges_iff.mp k
      exact out p hp inside

/-- The region failed its read-back and is closed (R384). -/
def closeRegion (r : WipeRegion) (a : Nat) (s : State) : State :=
  setFlag F.MEM_WIPE_STAT_VERIFY_FAIL true (memEvent 6 0 a .fault { s with mem := { s.mem with closed := r :: s.mem.closed } })

theorem closeRegion_keeps {P : State → Prop} {a : Nat} (C : Keeps [.indlog, .regs, .log, .queue] P)
    (h : P { s with mem := { s.mem with closed := r :: s.mem.closed } }) : P (closeRegion r a s) :=
  setFlag_keeps (C.mono (by decide)) (memEvent_keeps (C.mono (by decide)) h)

theorem closeRegion_recorded {a : Nat} (room : s.log.queue.length < 256) : Recorded (closeRegion r a s) 0x84 0x01 6 3 := by
  let e : Event := { unit := 0x84, cls := 0x01, ev := 6, sev := .fault, detail := memDetail 0 6 (((memAt a).map memCode).getD 0) a }
  have log : (closeRegion r a s).log = (report e { s with mem := { s.mem with closed := r :: s.mem.closed } }).log := by
    refine setFlag_keeps (shows_log (by decide)) (ite_keeps (P := fun t : State => t.log = _) rfl ?_)
    exact setFld_keeps (shows_log (by decide)) (setFld_keeps (shows_log (by decide)) (capture_keeps (shows_log (by decide)) rfl))
  rw [Recorded, log]
  exact report_recorded (s := { s with mem := _ }) room

theorem byteAt_withClosed {l : List WipeRegion} : byteAt { s with mem := { s.mem with closed := l } } = byteAt s :=
  byteAt_congr (s := s) ⟨rfl, rfl, rfl, rfl, rfl, rfl, rfl, rfl, rfl, rfl⟩ rfl rfl

theorem closeRegion_byteAt {a x : Nat} : byteAt (closeRegion r a s) x = byteAt s x := by
  have regs : SameSources { s with mem := { s.mem with closed := r :: s.mem.closed } } (closeRegion r a s) :=
    .of_regs (SameRegsBut.setFlag ((memEvent_memRegs (.refl _ _)).mono (List.subset_cons_self F.MEM_WIPE_STAT_BUSY.addr memAddrs)) List.mem_cons_self) (by decide)
  have same := sameMemory_of (sameStructures_of_sources regs (closeRegion_keeps (shows_wld (by decide)) rfl) (closeRegion_keeps (shows_held (by decide)) rfl)
    (closeRegion_keeps (shows_swp (by decide)) rfl) (closeRegion_keeps (shows_sel (by decide)) rfl) (closeRegion_keeps (shows_image (by decide)) rfl)
    (closeRegion_keeps (shows_frame (by decide)) rfl)) (closeRegion_keeps (shows_blank (by decide)) rfl) (closeRegion_keeps (shows_cells (by decide)) rfl)
    (closeRegion_keeps (shows_synd (by decide)) rfl)
  exact (same x).1.trans (congrFun byteAt_withClosed x)

theorem goes_wipeDone {ok : Bool} {n : Tick} {Q : State → Prop} (up : running s = true) (found : s.mem.wipes.find? (fun w => w.1 = r) = some (r, n))
    (q : Q (if ok then serveWaiting (wipeFrees r (zeroed r (r, n) s))
      else closeRegion r ((((wipeRanges s r).head?).map (·.1)).getD 0) (zeroed r (r, n) s))) : Goes (.wipeDone r ok) s Q := by
  refine goes_live up (exec_wipeDone r ok) ?_
  rw [found]
  exact q

theorem wipesEnd : WipesEnd := by
  intro r ok s up inv
  refine ⟨fun none => idle_live (exec_wipeDone r ok) (by rw [none]), fun n found => goes_wipeDone up found ?_⟩
  cases ok with
  | false =>
    rw [if_neg (by decide)]
    refine ⟨?_, fun _ => zeroed_bytes (r, n) _ fun a => closeRegion_byteAt, fun _ => ⟨?_, ?_, ?_, fun room => closeRegion_recorded room⟩, fun h => nomatch h⟩
    · rw [closeRegion_keeps (shows_mem (by decide)) rfl]
      rfl
    · rw [closeRegion_keeps (shows_mem (by decide)) rfl]
      rfl
    · rw [closeRegion_keeps (shows_mem (by decide)) rfl]
      rfl
    · exact closeRegion_keeps (shows_cnd (by decide)) rfl
  | true =>
    rw [if_pos rfl]
    let freed := wipeFrees r (zeroed r (r, n) s)
    have mem : freed.mem = (zeroed r (r, n) s).mem := wipeFrees_mem r _
    have served := serveWaiting_accessed freed
    obtain ⟨leases, ops⟩ := serveWaiting_leases freed
    have waiting : (serveWaiting freed).mem.waiting = freed.mem.waiting.filter fun p => mustWait freed p := congrArg (·.waiting) served
    refine ⟨?_, fun none => ?_, (fun h => nomatch h), fun _ => ⟨?_, fun p hp => ?_, fun last none => ?_, fun cls res is => ?_, fun ctx is => ?_⟩⟩
    · refine (congrArg (·.wipes) served).trans ?_
      show freed.mem.wipes = _
      rw [mem]
      rfl
    · have nothing : freed.mem.waiting = [] := by
        rw [mem]
        exact none.resolve_left (by decide)
      rw [serveWaiting_none nothing]
      exact zeroed_bytes (r, n) _ fun a => (wipeFrees_same r _ a).1
    · refine (congrArg (·.closed) served).trans ?_
      show freed.mem.closed = _
      rw [mem]
      rfl
    · rw [waiting, mem] at hp
      exact List.mem_of_mem_filter hp
    · rw [waiting]
      refine List.filter_eq_nil_iff.mpr fun p _ must => ?_
      have clear : underWipe freed p.addr.toNat (packetLen p) = false := by
        unfold underWipe
        rw [mem]
        show ((s.mem.wipes.erase (r, n)).map (·.1) ++ s.mem.closed).any _ = false
        rw [last, none]
        simp
      unfold mustWait at must
      rw [clear] at must
      exact absurd must Bool.false_ne_true
    · subst is
      rw [leases]
      exact returnResource_notRevoked cls.val res _
    · subst is
      rw [leases, ops]
      exact wipeFrees_cancels ctx _

end

end Sys2Proof.Machine

end

section

set_option Elab.async false

/-! # Segment boundaries (R149, R234, R357 to R362) -/

namespace Sys2Proof.Machine

open Sys2Proof.Claims

/-! ## The highest priority -/

theorem le_foldl_max {l : List Nat} {a : Nat} : a ≤ l.foldl max a ∧ ∀ x ∈ l, x ≤ l.foldl max a := by
  induction l generalizing a with
  | nil => exact ⟨Nat.le_refl a, fun x h => absurd h List.not_mem_nil⟩
  | cons b l ih =>
    obtain ⟨first, rest⟩ := ih (a := max a b)
    refine ⟨(Nat.le_max_left a b).trans first, fun x hx => ?_⟩
    rcases List.mem_cons.mp hx with rfl | hx
    · exact (Nat.le_max_right a x).trans first
    · exact rest x hx

theorem foldl_max_mem {l : List Nat} {a : Nat} : l.foldl max a = a ∨ l.foldl max a ∈ l := by
  induction l generalizing a with
  | nil => exact .inl rfl
  | cons b l ih =>
    rcases ih (a := max a b) with e | m
    · rcases Nat.le_total a b with le | le
      · exact .inr (List.mem_cons.mpr (.inl (e.trans (Nat.max_eq_right le))))
      · exact .inl (e.trans (Nat.max_eq_left le))
    · exact .inr (List.mem_cons_of_mem _ m)

/-- Something of a list has its highest rank. -/
theorem exists_highest {α : Type} {l : List α} {f : α → Nat} (some : l ≠ []) : ∃ y ∈ l, f y = (l.map f).foldl max 0 := by
  rcases foldl_max_mem (l := l.map f) (a := 0) with none | mem
  · obtain ⟨y, hy⟩ := List.exists_mem_of_ne_nil l some
    refine ⟨y, hy, ?_⟩
    have least : f y ≤ (l.map f).foldl max 0 := (le_foldl_max (a := 0)).2 _ (List.mem_map_of_mem hy)
    omega
  · obtain ⟨y, hy, e⟩ := List.mem_map.mp mem
    exact ⟨y, hy, e⟩

theorem le_highest {α : Type} {l : List α} {f : α → Nat} {x : α} (h : x ∈ l) : f x ≤ (l.map f).foldl max 0 :=
  le_foldl_max.2 _ (List.mem_map_of_mem h)

/-- The next number after the last one, in turn: one of the numbers, where there is any. -/
theorem next_mem {l : List Nat} {p : Nat → Bool} {last : Nat} (some : l ≠ []) : (((l.filter p).min?).orElse fun _ => l.min?).getD last ∈ l := by
  cases first : (l.filter p).min? with
  | some n => exact List.mem_of_mem_filter (List.min?_mem first)
  | none =>
    cases least : l.min? with
    | some n => exact List.min?_mem least
    | none => exact absurd (List.min?_eq_none_iff.mp least) some

section
variable {s t u : State} {port : Nat}

/-! ## Segments of DMA -/

/-- The transfers at a boundary: the one in service has moved a segment, those that have arrived wait, and finished ones are gone. -/
def dmaLeft (port : Nat) (arrivals : List DmaRequest) (s : State) : List DmaXfer :=
  ((s.cnd.dma.map fun x => if x.port = port ∧ x.channel = tabGet 0 s.mem.dmaLast port then afterSegment x else x) ++
    arrivals.map fun x => (⟨port, x.channel, x.dst.toNat, x.len⟩ : DmaXfer)).filter fun x => x.left > 0

/-- The channels of the highest priority at a port. -/
def topChannels (port : Nat) (left : List DmaXfer) (s : State) : List Nat :=
  let here := left.filter fun x => x.port = port
  (here.filter fun x => channelPrio s x.channel = (here.map fun x => channelPrio s x.channel).foldl max 0).map (·.channel)

/-- The channel that a port next serves. -/
def nextChannel (port : Nat) (left : List DmaXfer) (s : State) : Nat :=
  (((topChannels port left s).filter fun c => c > tabGet 0 s.mem.dmaLast port).min?.orElse fun _ => (topChannels port left s).min?).getD
    (tabGet 0 s.mem.dmaLast port)

theorem exec_dmaSegmentBoundary (port : Nat) (arrivals : List DmaRequest) : exec (.dmaSegmentBoundary port arrivals) s = .next (live s fun s =>
    dmaWaits (nextChannel port (dmaLeft port arrivals s) s) ((dmaLeft port arrivals s).filter fun x => x.port = port)
      { s with cnd := { s.cnd with dma := dmaLeft port arrivals s }
               mem := { s.mem with dmaLast := tabPut 0 s.mem.dmaLast port (nextChannel port (dmaLeft port arrivals s) s) } }) := rfl

/-- The port serves a channel of the highest priority among those that wait. -/
theorem nextChannel_highest {left : List DmaXfer} {x : DmaXfer} (hx : x ∈ left) (at' : x.port = port) :
    ∃ y ∈ left, y.port = port ∧ y.channel = nextChannel port left s ∧ channelPrio s x.channel ≤ channelPrio s y.channel := by
  have here : x ∈ left.filter fun x => x.port = port := List.mem_filter.mpr ⟨hx, decide_eq_true at'⟩
  obtain ⟨y, hy, top⟩ := exists_highest (f := fun x => channelPrio s x.channel) (List.ne_nil_of_mem here)
  have some : topChannels port left s ≠ [] := List.ne_nil_of_mem (List.mem_map_of_mem (List.mem_filter.mpr ⟨hy, decide_eq_true top⟩))
  obtain ⟨z, hz, chosen⟩ := List.mem_map.mp (next_mem (p := fun c => c > tabGet 0 s.mem.dmaLast port) (last := tabGet 0 s.mem.dmaLast port) some)
  obtain ⟨hz, highest⟩ := List.mem_filter.mp hz
  obtain ⟨hz, port_z⟩ := List.mem_filter.mp hz
  refine ⟨z, hz, of_decide_eq_true port_z, chosen, ?_⟩
  rw [of_decide_eq_true highest]
  exact le_highest (f := fun x => channelPrio s x.channel) here

/-! ## Waits -/

/-- From s to t only waits of grants have changed. -/
def OnlyWaits (s t : State) : Prop := t = { s with cnd := { s.cnd with grants := t.cnd.grants } }

theorem OnlyWaits.refl (s : State) : OnlyWaits s s := rfl

theorem OnlyWaits.trans (h : OnlyWaits s t) (g : OnlyWaits t u) : OnlyWaits s u := by
  unfold OnlyWaits at h g ⊢
  rw [g, h]

/-- What one transfer at a port does to the waits of the unit that uses its channel. -/
def dmaWait (served : Nat) (s : State) (x : DmaXfer) : State :=
  match channelHolder s x.channel with
  | none => s
  | some u =>
    if x.channel = served then setWait u none s
    else if s.cnd.grants.any fun g => g.unit = u ∧ g.wait.isNone then setWait u (some s.time.count) s
    else s

theorem dmaWaits_eq (served : Nat) (l : List DmaXfer) (s : State) : dmaWaits served l s = l.foldl (dmaWait served) s := rfl

theorem dmaWait_waits (served : Nat) (s : State) (x : DmaXfer) : OnlyWaits s (dmaWait served s x) := by
  unfold dmaWait
  split
  · exact .refl s
  · exact ite_keeps (P := OnlyWaits s) rfl (ite_keeps (P := OnlyWaits s) rfl (.refl s))

theorem channelHolder_waits (h : OnlyWaits s t) (n : Nat) : channelHolder t n = channelHolder s n := by
  unfold channelHolder
  rw [h]

/-- A unit waits for no transfer. -/
def Unwaiting (u : Nat) (s : State) : Prop := ∀ g ∈ s.cnd.grants, g.unit = u → g.wait = none

/-- A unit waits. -/
def Waiting (u : Nat) (s : State) : Prop := ∀ g ∈ s.cnd.grants, g.unit = u → g.wait.isSome = true

theorem setWait_same {n : Nat} {w : Option Tick} : ∀ g ∈ (setWait n w s).cnd.grants, g.unit = n → g.wait = w := by
  intro g hg is
  obtain ⟨k, -, rfl⟩ := List.mem_map.mp hg
  by_cases e : k.unit = n
  · rw [if_pos e]
  · rw [if_neg e] at is
    exact absurd is e

theorem setWait_ne {m n : Nat} {w : Option Tick} {P : Option Tick → Prop} (ne : m ≠ n) (h : ∀ g ∈ s.cnd.grants, g.unit = n → P g.wait) :
    ∀ g ∈ (setWait m w s).cnd.grants, g.unit = n → P g.wait := by
  intro g hg is
  obtain ⟨k, hk, rfl⟩ := List.mem_map.mp hg
  by_cases e : k.unit = m
  · rw [if_pos e] at is
    exact absurd (e.symm.trans is) ne
  · rw [if_neg e] at is ⊢
    exact h k hk is

/-- The unit of the transfer that is served waits no longer, if none of its others waits. -/
theorem dmaWait_serves {served n : Nat} {x : DmaXfer} (here : x.channel = served) (holds : channelHolder s x.channel = some n) :
    Unwaiting n (dmaWait served s x) := by
  unfold dmaWait
  rw [holds]
  simp only [if_pos here]
  exact setWait_same

theorem dmaWait_keeps_unwaiting {served n : Nat} {x : DmaXfer} (other : x.channel ≠ served → channelHolder s x.channel ≠ some n)
    (h : Unwaiting n s) : Unwaiting n (dmaWait served s x) := by
  unfold dmaWait
  split
  · exact h
  · rename_i m holds
    by_cases here : x.channel = served
    · rw [if_pos here]
      by_cases e : m = n
      · subst e
        exact setWait_same
      · exact setWait_ne (P := fun w => w = none) e h
    · rw [if_neg here]
      have ne : m ≠ n := fun e => other here (e ▸ holds)
      exact ite_keeps (P := Unwaiting n) (setWait_ne (P := fun w => w = none) ne h) h

theorem dmaWait_waits_on {served n : Nat} {x : DmaXfer} (not : x.channel ≠ served) (holds : channelHolder s x.channel = some n) :
    Waiting n (dmaWait served s x) := by
  unfold dmaWait
  rw [holds]
  simp only [if_neg not]
  split
  · intro g hg is
    rw [setWait_same g hg is]
    rfl
  · rename_i none
    intro g hg is
    rw [List.any_eq_true] at none
    cases w : g.wait with
    | some _ => rfl
    | none => exact absurd ⟨g, hg, decide_eq_true ⟨is, by rw [w]; rfl⟩⟩ none

theorem dmaWait_keeps_waiting {served n : Nat} {x : DmaXfer} (other : x.channel = served → channelHolder s x.channel ≠ some n)
    (h : Waiting n s) : Waiting n (dmaWait served s x) := by
  unfold dmaWait
  split
  · exact h
  · rename_i m holds
    by_cases here : x.channel = served
    · rw [if_pos here]
      exact setWait_ne (P := fun w => w.isSome = true) (fun e => other here (e ▸ holds)) h
    · rw [if_neg here]
      by_cases e : m = n
      · subst e
        refine ite_keeps (P := Waiting m) ?_ h
        intro g hg is
        rw [setWait_same g hg is]
        rfl
      · exact ite_keeps (P := Waiting n) (setWait_ne (P := fun w => w.isSome = true) e h) h

/-- What a step of one element brings about and every other step keeps holds after them all. -/
theorem foldl_brings {α : Type} {P : State → Prop} {f : State → α → State} {l : List α} (only : ∀ s x, OnlyWaits s (f s x))
    (keep : ∀ x ∈ l, ∀ t, OnlyWaits s t → P t → P (f t x)) {y : α} (hy : y ∈ l) (bring : ∀ t, OnlyWaits s t → P (f t y)) :
    P (l.foldl f s) := by
  have kept : ∀ (l : List α) (t : State), (∀ x ∈ l, ∀ t, OnlyWaits s t → P t → P (f t x)) → OnlyWaits s t → P t → P (l.foldl f t) := by
    intro l
    induction l with
    | nil => exact fun _ _ _ h => h
    | cons x l ih =>
      exact fun t keep w h => ih _ (fun z hz => keep z (List.mem_cons_of_mem _ hz)) (w.trans (only t x)) (keep x List.mem_cons_self t w h)
  have all : ∀ (l : List α) (t : State), y ∈ l → (∀ x ∈ l, ∀ t, OnlyWaits s t → P t → P (f t x)) → OnlyWaits s t → P (l.foldl f t) := by
    intro l
    induction l with
    | nil => exact fun _ h => absurd h List.not_mem_nil
    | cons x l ih =>
      intro t h keep w
      rcases List.mem_cons.mp h with rfl | h
      · exact kept l _ (fun z hz => keep z (List.mem_cons_of_mem _ hz)) (w.trans (only t y)) (bring t w)
      · exact ih _ h (fun z hz => keep z (List.mem_cons_of_mem _ hz)) (w.trans (only t x))
  exact all l s hy keep (.refl s)

theorem dmaWaits_waits (served : Nat) (l : List DmaXfer) (s : State) : OnlyWaits s (dmaWaits served l s) := by
  rw [dmaWaits_eq]
  exact foldl_keeps (P := OnlyWaits s) (fun _ x h => h.trans (dmaWait_waits served _ x)) _ _ (.refl s)

theorem dmaBoundaries (up : running s = true) (arrivals : List DmaRequest) : DmaBoundaries port arrivals s := by
  refine goes_live up (exec_dmaSegmentBoundary port arrivals) ?_
  let left := dmaLeft port arrivals s
  let next := nextChannel port left s
  let s1 : State := { s with cnd := { s.cnd with dma := left }, mem := { s.mem with dmaLast := tabPut 0 s.mem.dmaLast port next } }
  let after := dmaWaits next (left.filter fun x => x.port = port) s1
  have waits : OnlyWaits s1 after := dmaWaits_waits ..
  have holder (t : State) (w : OnlyWaits s1 t) (n : Nat) : channelHolder t n = channelHolder s n := channelHolder_waits w n
  have dma : after.cnd.dma = left := by rw [waits]
  have mem : after.mem = s1.mem := by rw [waits]
  refine ⟨dma, ⟨next, mem, fun x hx at' => ?_⟩, ?_⟩
  · have hx : x ∈ left := dma ▸ hx
    have here : x ∈ left.filter fun x => x.port = port := List.mem_filter.mpr ⟨hx, decide_eq_true at'⟩
    refine ⟨?_, fun served n holds alone => ?_, fun not n holds other => ?_⟩
    · show ∃ y ∈ after.cnd.dma, _
      rw [dma]
      exact nextChannel_highest hx at'
    · refine foldl_brings (P := Unwaiting n) (dmaWait_waits next) (fun y hy t w h => ?_) here fun t w => dmaWait_serves served ((holder t w _).trans holds)
      obtain ⟨hy, port_y⟩ := List.mem_filter.mp hy
      exact dmaWait_keeps_unwaiting (fun c => (holder t w _).symm ▸ alone y (dma ▸ hy : y ∈ after.cnd.dma) (of_decide_eq_true port_y) c) h
    · refine foldl_brings (P := Waiting n) (dmaWait_waits next) (fun y hy t w h => ?_) here fun t w => dmaWait_waits_on not ((holder t w _).trans holds)
      exact dmaWait_keeps_waiting (fun c => by rw [holder t w, c]; exact other) h
  · show after = { s with cnd := { s.cnd with dma := after.cnd.dma, grants := after.cnd.grants }, mem := after.mem }
    rw [dma, mem]
    exact waits

/-! ## Segments of the engines -/

/-- The contexts of an engine after the segment of the one that it served. -/
def segMoved (last : Nat) (l : List SegCtx) : List SegCtx :=
  l.map fun c => if c.ctx = last then { c with offset := c.offset + min 4096 c.bytesLeft, bytesLeft := c.bytesLeft - min 4096 c.bytesLeft } else c

/-- The contexts of the highest priority that have bytes left. -/
def topContexts (l : List SegCtx) : List SegCtx :=
  let ready := l.filter fun c => c.bytesLeft > 0
  ready.filter fun c => c.prio = (ready.map (·.prio)).foldl max 0

/-- The context that an engine next serves. -/
def nextContext (last : Nat) (l : List SegCtx) : Nat :=
  ((((topContexts l).filter fun c => c.ctx > last).map (·.ctx)).min?.orElse fun _ => ((topContexts l).map (·.ctx)).min?).getD last

theorem nextContext_highest {last : Nat} {l : List SegCtx} {c : SegCtx} (hc : c ∈ l) (bytes : 0 < c.bytesLeft) :
    ∃ d ∈ l, d.ctx = nextContext last l ∧ 0 < d.bytesLeft ∧ c.prio ≤ d.prio := by
  have ready : c ∈ l.filter fun c => c.bytesLeft > 0 := List.mem_filter.mpr ⟨hc, decide_eq_true bytes⟩
  obtain ⟨y, hy, top⟩ := exists_highest (f := fun c : SegCtx => c.prio) (List.ne_nil_of_mem ready)
  have some : (topContexts l).map (·.ctx) ≠ [] := List.ne_nil_of_mem (List.mem_map_of_mem (List.mem_filter.mpr ⟨hy, decide_eq_true top⟩))
  have chosen := next_mem (p := fun n => n > last) (last := last) some
  rw [List.filter_map] at chosen
  obtain ⟨d, hd, ctx⟩ := List.mem_map.mp chosen
  obtain ⟨hd, highest⟩ := List.mem_filter.mp hd
  obtain ⟨hd, left⟩ := List.mem_filter.mp hd
  refine ⟨d, hd, ctx, of_decide_eq_true left, ?_⟩
  rw [of_decide_eq_true highest]
  exact le_highest (f := fun c : SegCtx => c.prio) ready

/-- The crypto engine at a boundary, before its status registers show it. -/
def cryptoMoved (s : State) : State :=
  (if s.cnd.crypto.any fun c => decide (c.ctx = s.cnd.cryptoLast ∧ c.bytesLeft > 0) then countDie 0x88 1 else id)
    { s with cnd := { s.cnd with crypto := segMoved s.cnd.cryptoLast s.cnd.crypto
                                 cryptoLast := nextContext s.cnd.cryptoLast (segMoved s.cnd.cryptoLast s.cnd.crypto) } }

theorem cryptoMoved_cnd (s : State) : (cryptoMoved s).cnd = { s.cnd with
    crypto := segMoved s.cnd.cryptoLast s.cnd.crypto
    cryptoLast := nextContext s.cnd.cryptoLast (segMoved s.cnd.cryptoLast s.cnd.crypto) } := by
  unfold cryptoMoved
  split
  · exact countDie_keeps (shows_cnd (by decide)) rfl
  · rfl

theorem exec_engineSegmentBoundary_crypto : exec (.engineSegmentBoundary false) s = .next (live s fun s =>
    showSegs (setFld F.WDN_CRYPTO_SEG_LAST (nextContext s.cnd.cryptoLast (segMoved s.cnd.cryptoLast s.cnd.crypto)) (cryptoMoved s))) := rfl

theorem exec_engineSegmentBoundary_mapld : exec (.engineSegmentBoundary true) s = .next (live s fun s =>
    showSegs (setFld F.WLD_MAPLD_SEG_LAST (nextContext s.cnd.mapldLast (segMoved s.cnd.mapldLast s.cnd.mapld))
      { s with cnd := { s.cnd with mapld := segMoved s.cnd.mapldLast s.cnd.mapld
                                   mapldLast := nextContext s.cnd.mapldLast (segMoved s.cnd.mapldLast s.cnd.mapld) } })) := rfl

theorem showSegs_setFld_cnd (f : Fld) (n : Nat) (s : State) : (showSegs (setFld f n s)).cnd = s.cnd :=
  showSegs_keeps (shows_cnd (by decide)) (setFld_keeps (shows_cnd (by decide)) rfl)

theorem engineBoundaries (up : running s = true) : EngineBoundaries s := by
  refine ⟨goes_live up exec_engineSegmentBoundary_crypto ?_, goes_live up exec_engineSegmentBoundary_mapld ?_⟩
  · rw [showSegs_setFld_cnd, cryptoMoved_cnd]
    exact ⟨rfl, rfl, fun c hc bytes => nextContext_highest hc bytes⟩
  · rw [showSegs_setFld_cnd]
    exact ⟨rfl, rfl, fun c hc bytes => nextContext_highest hc bytes⟩

/-- Settles O41. -/
theorem wipesAndSegmentsEnd : Obligations.WipesAndSegmentsEnd :=
  ⟨wipesEnd, fun _ up => ⟨fun _ arrivals => dmaBoundaries up arrivals, engineBoundaries up⟩⟩

end

end Sys2Proof.Machine

end

section

set_option Elab.async false

/-! # Answers and requests (R62, R342 to R348) -/

namespace Sys2Proof.Machine

open Sys2Proof.Claims (Answered RequestRefused)

section
variable {s t u : State} {a : Answer} {port : Port} {kind : Nat} {q : ReqUnit}

/-! ## An answer goes out -/

theorem pump_of_noBuffer (h : s.sec.bufs = []) : pump s = s := by
  unfold pump
  rw [h]
  rfl

theorem sendUnit_out {n : Nat} {o : Option Answer} {bs : List Byte} (h : s.sec.bufs = []) :
    (sendUnit n o bs s).sec.out = s.sec.out ++ [⟨n, o, bs, s.time.count⟩] :=
  congrArg (·.sec.out) (pump_of_noBuffer (s := { s with sec := { s.sec with out := s.sec.out ++ [⟨n, o, bs, s.time.count⟩] } }) h)

theorem sendAnswer_answered (a : Answer) (s : State) : Answered a s (sendAnswer a s) := by
  unfold Answered sendAnswer
  cases a.port with
  | supervisor => exact sendUnit_out
  | guidance =>
    dsimp only [sendGuidance]
    split <;> rfl
  | isobus => rfl

/-- What an answer's way depends on has not changed. -/
structure SameSending (s t : State) : Prop where
  sec : t.sec = s.sec
  bus : t.bus = s.bus
  sent : t.sent = s.sent
  image : t.image = s.image
  time : t.time = s.time
  slot : ∀ c, bitsOf (fld t (F.CND_CLIENT_WORD c 0)) 15 8 = bitsOf (fld s (F.CND_CLIENT_WORD c 0)) 15 8

theorem answered_of_same (h : SameSending s t) (g : Answered a t u) : Answered a s u := by
  obtain ⟨sec, bus, sent, image, time, slot⟩ := h
  have way : answerTo t a = answerTo s a := by
    unfold answerTo nameAddr
    rw [image, bus]
  unfold Answered at g ⊢
  rw [sec, bus, sent, time, slot, way] at g
  exact g

theorem clientWord_notMem (c : Nat) (f : Fld) (low : f.addr < 0x110000) : (F.CND_CLIENT_WORD c 0).addr ≠ f.addr := by
  show 0x110000 + 0x10 * c + 4 * 0 ≠ f.addr
  omega

theorem sameSending_of_request (send : t.sec = s.sec ∧ t.bus = s.bus ∧ t.sent = s.sent ∧ t.image = s.image ∧ t.time = s.time)
    (regs : SameRegsBut [F.CND_REQ_STAT_REFUSED.addr, F.CND_REQ_CAP_VALID.addr] s t) : SameSending s t := by
  obtain ⟨sec, bus, sent, image, time⟩ := send
  refine ⟨sec, bus, sent, image, time, fun c => congrArg (bitsOf · 15 8) (regs.fld ?_)⟩
  simp only [List.mem_cons, List.not_mem_nil, or_false, not_or]
  exact ⟨clientWord_notMem c F.CND_REQ_STAT_REFUSED (by decide), clientWord_notMem c F.CND_REQ_CAP_VALID (by decide)⟩

/-! ## A request that is refused -/

theorem counted_of_sendRegs {f : Fld} (g : f.addr ∉ sendAddrs) (h : Counted f s t) (same : SendRegs t u) : Counted f s u :=
  (same.fld g).trans h

/-- The records of a refused request that are refused are counted where its status is that of a record (R189). -/
def recordsRefused (q : ReqUnit) (status : Nat) (s : State) : State :=
  let bad := (q.recs.filter fun r => r.kind ≠ 2 ∨ r.hitch = 3 ∨ r.layer.val ≠ cliLayer s q.client).length
  if status = 0x13 ∨ status = 0x14 then { s with swp := { s.swp with refused := s.swp.refused + bad } } else s

/-- The state in which a refused request is counted and captured, before its answer. -/
def refusedCounted (kind : Nat) (q : ReqUnit) (status : Nat) (s : State) : State :=
  capture F.CND_REQ_CAP_VALID [(F.CND_REQ_CAP_KIND, kind), (F.CND_REQ_CAP_STATUS, status), (F.CND_REQ_CAP_CLIENT, q.client)]
    (bump F.CND_REQ_STAT_REFUSED (recordsRefused q status s))

theorem recordsRefused_keeps {P : State → Prop} {st : Nat} (C : Keeps [.swp] P) (h : P s) : P (recordsRefused q st s) :=
  ite_keeps (C.upd_swp (by decide) h) h

theorem refuseReq_eq (st : Nat) :
    refuseReq port kind q st s = sendAnswer (Claims.answerTo (refusedCounted kind q st s) port kind q st) (refusedCounted kind q st s) := rfl

theorem refusedCounted_keeps {P : State → Prop} {st : Nat} (C : Keeps [.regs, .swp] P) (h : P s) : P (refusedCounted kind q st s) :=
  capture_keeps (C.mono (by decide)) (bump_keeps (C.mono (by decide)) (recordsRefused_keeps (C.mono (by decide)) h))

theorem refusedCounted_regs {st : Nat} :
    SameRegsBut [F.CND_REQ_STAT_REFUSED.addr, F.CND_REQ_CAP_VALID.addr] s (refusedCounted kind q st s) := by
  have noted : SameRegsBut [F.CND_REQ_STAT_REFUSED.addr, F.CND_REQ_CAP_VALID.addr] s (recordsRefused q st s) :=
    recordsRefused_keeps (keeps_sameRegs (by decide)) (.refl _ s)
  refine .capture (.bump noted (by decide)) (by decide) ?_
  simp only [List.forall_mem_cons]
  exact ⟨by decide, by decide, by decide, fun _ h => absurd h List.not_mem_nil⟩

theorem refusedCounted_counted {st : Nat} (inv : Inv s) : Counted F.CND_REQ_STAT_REFUSED s (refusedCounted kind q st s) := by
  have image : (recordsRefused q st s).image = s.image := recordsRefused_keeps (shows_image (by decide)) rfl
  have regs : (recordsRefused q st s).regs = s.regs := recordsRefused_keeps (shows_regs (by decide)) rfl
  have counted : Counted F.CND_REQ_STAT_REFUSED s (bump F.CND_REQ_STAT_REFUSED (recordsRefused q st s)) := by
    have same : fld (recordsRefused q st s) F.CND_REQ_STAT_REFUSED = fld s F.CND_REQ_STAT_REFUSED :=
      congrArg (bitsOf · _ _) (regWord_congr image regs _)
    have wf : Regs.wf (recordsRefused q st s).image (recordsRefused q st s).regs := by
      rw [image, regs]
      exact inv.regs
    exact (counted_bump wf (by decide)).trans (by rw [same])
  have captured : SameRegsBut [F.CND_REQ_CAP_VALID.addr] (bump F.CND_REQ_STAT_REFUSED (recordsRefused q st s)) (capture F.CND_REQ_CAP_VALID
      [(F.CND_REQ_CAP_KIND, kind), (F.CND_REQ_CAP_STATUS, st), (F.CND_REQ_CAP_CLIENT, q.client)] (bump F.CND_REQ_STAT_REFUSED (recordsRefused q st s))) := by
    refine .capture (.refl _ _) (by decide) ?_
    simp only [List.forall_mem_cons]
    exact ⟨by decide, by decide, by decide, fun _ h => absurd h List.not_mem_nil⟩
  exact (captured.fld (f := F.CND_REQ_STAT_REFUSED) (by decide)).trans counted

/-- A request that is refused is counted and answered, and takes no place. -/
theorem requestRefused (port : Port) (kind : Nat) (q : ReqUnit) (st : Nat) (inv : Inv s) :
    RequestRefused port kind q st s (refuseReq port kind q st s) := by
  have keeps {P : State → Prop} (C : Keeps [.regs, .swp] P) (h : P s) : P (refusedCounted kind q st s) := refusedCounted_keeps C h
  have answer : Claims.answerTo (refusedCounted kind q st s) port kind q st = Claims.answerTo s port kind q st := by
    unfold Claims.answerTo opOf
    rw [keeps (shows_cnd (by decide)) rfl, keeps (shows_frame (by decide)) rfl]
  have same : SameSending s (refusedCounted kind q st s) := sameSending_of_request
    ⟨keeps (shows_sec (by decide)) rfl, keeps (shows_bus (by decide)) rfl, keeps (shows_sent_eq (by decide)) rfl,
      keeps (shows_image (by decide)) rfl, keeps (shows_time (by decide)) rfl⟩ refusedCounted_regs
  refine ⟨?_, ?_, ?_, ?_, ?_⟩
  · rw [refuseReq_eq, answer]
    exact answered_of_same same (sendAnswer_answered _ _)
  · exact counted_of_sendRegs (by decide) (refusedCounted_counted inv) (sendAnswer_sendRegs (.refl _ _))
  · exact refuseReq_keeps (shows_cnd (by decide)) rfl
  · exact refuseReq_keeps (shows_frame (by decide)) rfl
  · exact refuseReq_keeps (shows_mem (by decide)) rfl

theorem takeRequest_refused {st params : Nat} {f : State → State} (h : refusal s port kind q params = some st) :
    takeRequest port kind q params f s = refuseReq port kind q st s := by
  unfold takeRequest
  rw [h]

theorem takeRequest_taken {params : Nat} {f : State → State} (h : refusal s port kind q params = none) :
    takeRequest port kind q params f s = f (bump F.CND_REQ_STAT_ACCEPTED s) := by
  unfold takeRequest
  rw [h]

theorem requestsAreRefused (up : fabricUp s = true) (inv : Inv s) : Claims.RequestsAreRefused port q s := by
  refine ⟨fun st h => goes_fabric up rfl ?_, fun st g h => goes_fabric up rfl ?_, fun st h => goes_fabric up rfl ?_,
    fun st h => goes_fabric up rfl ?_, fun off k n => ?_, fun k n h => ?_⟩
  · rw [takeRequest_refused h]
    exact requestRefused port 0 q st inv
  · rw [takeRequest_refused h]
    exact requestRefused port 1 q st inv
  · rw [takeRequest_refused h]
    exact requestRefused port 2 q st inv
  · rw [takeRequest_refused h]
    exact requestRefused port 2 _ st inv
  · unfold refusal
    exact if_pos (by simp [off])
  · by_contra full
    unfold refusal at h
    simp only [ge_iff_le, Nat.le_of_not_lt full, if_true] at h
    split_ifs at h

/-! ## A request that is taken -/

/-- The counting of an accepted request. -/
abbrev accepted (s : State) : State := bump F.CND_REQ_STAT_ACCEPTED s

theorem accepted_regs : SameRegsBut [F.CND_REQ_STAT_REFUSED.addr] s (accepted s) := SameRegsBut.bump (.refl _ s) (by decide)

theorem accepted_counted (inv : Inv s) : Counted F.CND_REQ_STAT_ACCEPTED s (accepted s) := counted_bump inv.regs (by decide)

theorem accepted_sending : SameSending s (accepted s) :=
  sameSending_of_request ⟨rfl, rfl, rfl, rfl, rfl⟩ (accepted_regs.mono (by decide))

/-- A watch that ends by its command leaves the requests, and is answered. -/
theorem watchEnds (r : PendReq) (q : ReqUnit) :
    (answerNow port 2 q 0x00 (endReq r (accepted s))).cnd = { s.cnd with reqs := s.cnd.reqs.erase r } ∧
      Answered (Claims.answerTo s port 2 q 0x00) s (answerNow port 2 q 0x00 (endReq r (accepted s))) := by
  refine ⟨answerNow_keeps (shows_cnd (by decide)) rfl, answered_of_same (t := endReq r (accepted s)) ?_ (sendAnswer_answered _ _)⟩
  obtain ⟨sec, bus, sent, image, time, slot⟩ := accepted_sending (s := s)
  exact ⟨sec, bus, sent, image, time, slot⟩

/-- A watch command that is not refused and has no record names a watch that stands (R347). -/
theorem watch_of_taken (h : refusal s port 2 q 0 = none) (off : q.sub = 0) : ∃ r, watchOf s q = some r := by
  cases found : watchOf s q with
  | some r => exact ⟨r, rfl⟩
  | none =>
    unfold refusal at h
    simp only [off, found, Option.isNone_none, decide_true, Bool.and_true, Bool.or_true, if_true] at h
    split_ifs at h

theorem pathCheck_taken (up : fabricUp s = true) (inv : Inv s) (h : refusal s port 0 q 0 = none) :
    Goes (.pathCheck port q) s fun t => Counted F.CND_REQ_STAT_ACCEPTED s t ∧
      t = { s with regs := t.regs, cnd := { s.cnd with reqs := s.cnd.reqs ++ [pendReq s port 0 q none] } } := by
  refine goes_fabric up rfl ?_
  rw [takeRequest_taken h]
  exact ⟨accepted_counted inv, rfl⟩

theorem corridorWatch_taken (up : fabricUp s = true) (inv : Inv s) (h : refusal s port 2 q 0 = none) (on : q.sub ≠ 0) :
    Goes (.corridorWatch port q) s fun t => Counted F.CND_REQ_STAT_ACCEPTED s t ∧
      t = { s with regs := t.regs, cnd := { s.cnd with reqs := s.cnd.reqs ++ [pendReq s port 2 q none] } } := by
  refine goes_fabric up rfl ?_
  rw [takeRequest_taken h]
  split
  · exact absurd ‹_› on
  · exact absurd ‹_› on
  · exact ⟨accepted_counted inv, rfl⟩

/-! ## Goal requests at an edge -/

/-- A goal request that names another origin than the one in force, in its first frame (R345). -/
def isStale (s : State) (r : PendReq) : Bool :=
  r.kind = 1 && !r.active && decide (r.first = s.frame.num) && r.goal.any fun g => decide (g.originGen.toNat ≠ s.wld.originGen)

/-- The answer to a stale request. -/
def staleAnswer (s : State) (r : PendReq) : Answer :=
  ⟨r.client, r.kind, 0x15, r.tag, s.frame.num, r.port, [], 0, none⟩

theorem staleNow_cnd : (staleNow s).cnd.reqs = s.cnd.reqs.diff (s.cnd.reqs.filter (isStale s)) ∧
    (staleNow s).cnd.answers = s.cnd.answers ++ (s.cnd.reqs.filter (isStale s)).map (staleAnswer s) := by
  have all (l : List PendReq) (t : State) (frame : t.frame = s.frame) :
      (l.foldl (fun s r => queueAnswer r 0x15 0 [] (endReq r s)) t).cnd.reqs = t.cnd.reqs.diff l ∧
        (l.foldl (fun s r => queueAnswer r 0x15 0 [] (endReq r s)) t).cnd.answers = t.cnd.answers ++ l.map (staleAnswer s) := by
    induction l generalizing t with
    | nil => exact ⟨rfl, (List.append_nil _).symm⟩
    | cons r l ih =>
      obtain ⟨reqs, answers⟩ := ih (queueAnswer r 0x15 0 [] (endReq r t)) frame
      refine ⟨reqs.trans (List.diff_cons _ _ _).symm, answers.trans ?_⟩
      have own : (queueAnswer r 0x15 0 [] (endReq r t)).cnd.answers = t.cnd.answers ++ [staleAnswer s r] := by
        unfold staleAnswer
        rw [← frame]
        rfl
      rw [own, List.append_assoc, List.map_cons, List.singleton_append]
  exact all _ s rfl

/-- A request that is not stale stays. -/
theorem mem_staleNow {r : PendReq} (m : r ∈ s.cnd.reqs) (current : isStale s r = false) : r ∈ (staleNow s).cnd.reqs := by
  rw [staleNow_cnd.1]
  refine List.mem_diff_of_mem m fun g => ?_
  rw [(List.mem_filter.mp g).2] at current
  cases current

/-- The end of the opening of lists of an edge: the request r has its list. -/
def openList (r : PendReq) (s : State) : State :=
  setFld F.SEL_STAT_LISTS (s.sel.lists.length + 1)
    { s with
      sel := { s.sel with lists := s.sel.lists ++ [goalList s r] }
      cnd := { s.cnd with reqs := s.cnd.reqs.map fun x => if x = r then { r with active := true } else x } }

/-- At most one request has its list opened, after the stale ones have ended. -/
theorem openLate_cases : openLate s = staleNow s ∨ (¬(s.time.count ≠ s.frame.edgeTick ∨ s.frame.started = false) ∧
    ∃ r, openLate s = openList r (staleNow s)) := by
  have time : (staleNow s).time = s.time := staleNow_keeps (shows_time (by decide)) rfl
  have frame : (staleNow s).frame = s.frame := staleNow_keeps (shows_frame (by decide)) rfl
  unfold openLate
  extract_lets s1
  split
  · exact .inl rfl
  · next opens =>
    split
    · exact .inl rfl
    · split
      · exact .inl rfl
      · refine .inr ⟨fun g => opens ?_, _, rfl⟩
        rw [show s1.time = s.time from time, show s1.frame = s.frame from frame]
        rcases g with g | g
        · simp [g]
        · simp [g]

theorem openLate_counted {f : Fld} (other : f.addr ≠ F.SEL_STAT_LISTS.addr) (h : Counted f s t) : Counted f s (openLate t) := by
  have regs : SameRegsBut [F.SEL_STAT_LISTS.addr] t (openLate t) := by
    have stale : SameRegsBut [F.SEL_STAT_LISTS.addr] t (staleNow t) := staleNow_keeps (keeps_sameRegs (by decide)) (.refl _ t)
    rcases openLate_cases (s := t) with e | ⟨-, r, e⟩
    · rw [e]
      exact stale
    · rw [e]
      exact SameRegsBut.setFld (stale.same rfl rfl) (by decide)
  exact (regs.fld fun m => other (List.mem_singleton.mp m)).trans h

theorem openLate_answers : (openLate s).cnd.answers = (staleNow s).cnd.answers := by
  rcases openLate_cases (s := s) with e | ⟨-, r, e⟩
  · rw [e]
  · rw [e]
    rfl

/-- A request that is not stale stays, or its list opens. -/
theorem openLate_keeps_or_opens {r : PendReq} (m : r ∈ s.cnd.reqs) (current : isStale s r = false) :
    r ∈ (openLate s).cnd.reqs ∨ { r with active := true } ∈ (openLate s).cnd.reqs ∧ goalList (staleNow s) r ∈ (openLate s).sel.lists := by
  have stays : r ∈ (staleNow s).cnd.reqs := mem_staleNow m current
  rcases openLate_cases (s := s) with e | ⟨-, r', e⟩
  · rw [e]
    exact .inl stays
  · rw [e]
    by_cases own : r = r'
    · subst own
      exact .inr ⟨List.mem_map.mpr ⟨r, stays, if_pos rfl⟩, List.mem_append_right _ (List.mem_singleton.mpr rfl)⟩
    · exact .inl (List.mem_map.mpr ⟨r, stays, if_neg own⟩)

theorem firstFrame_atEdge (h : s.time.count = s.frame.edgeTick ∧ s.frame.started = true) : firstFrame s = s.frame.num := if_pos h

theorem firstFrame_ne (h : ¬(s.time.count = s.frame.edgeTick ∧ s.frame.started = true)) : firstFrame s ≠ s.frame.num := by
  have next : firstFrame s = s.frame.num + 1 := if_neg h
  rw [next]
  bv_omega

/-- The state in which an accepted goal request stands among the others. -/
abbrev goalPending (port : Port) (q : ReqUnit) (g : Goal) (s : State) : State := addPending (pendReq s port 1 q (some g)) (accepted s)

theorem goes_planToGoal {g : Goal} {Q : State → Prop} (up : fabricUp s = true) (h : refusal s port 1 q 0 = none)
    (done : Q (openLate (goalPending port q g s))) : Goes (.planToGoal port q g) s Q := by
  refine goes_fabric up rfl ?_
  rw [takeRequest_taken h]
  exact done

theorem goalPending_counted {g : Goal} (inv : Inv s) : Counted F.CND_REQ_STAT_ACCEPTED s (openLate (goalPending port q g s)) :=
  openLate_counted (by decide) (accepted_counted inv)

theorem mem_goalPending {g : Goal} : pendReq s port 1 q (some g) ∈ (goalPending port q g s).cnd.reqs :=
  List.mem_append_right _ (List.mem_singleton.mpr rfl)

theorem goalList_goalPending {g : Goal} (r : PendReq) : goalList (staleNow (goalPending port q g s)) r = goalList s r := by
  have regs : SameRegsBut [F.CND_REQ_STAT_REFUSED.addr] s (staleNow (goalPending port q g s)) :=
    staleNow_keeps (keeps_sameRegs (by decide)) (accepted_regs.same rfl rfl)
  unfold goalList
  rw [regs.flag (f := F.SEL_CFG_COMPAT_K64) (by decide)]

/-- Before and after the tick of an edge a goal request waits for the next frame. -/
theorem planToGoal_later {g : Goal} (up : fabricUp s = true) (inv : Inv s) (h : refusal s port 1 q 0 = none)
    (later : ¬(s.time.count = s.frame.edgeTick ∧ s.frame.started = true)) : Goes (.planToGoal port q g) s fun t =>
      pendReq s port 1 q (some g) ∈ t.cnd.reqs ∧ Counted F.CND_REQ_STAT_ACCEPTED s t := by
  refine goes_planToGoal up h ⟨?_, goalPending_counted inv⟩
  have current : isStale (goalPending port q g s) (pendReq s port 1 q (some g)) = false := by
    have ne : (pendReq s port 1 q (some g)).first ≠ (goalPending port q g s).frame.num := firstFrame_ne later
    simp only [isStale, ne, decide_false, Bool.and_false, Bool.false_and]
  rcases openLate_cases (s := goalPending port q g s) with e | ⟨opens, -⟩
  · rw [e]
    exact mem_staleNow mem_goalPending current
  · refine absurd ?_ opens
    by_cases tick : s.time.count = s.frame.edgeTick
    · exact .inr (Bool.eq_false_iff.mpr fun started => later ⟨tick, started⟩)
    · exact .inl tick

/-- In the tick of an edge a goal request of the origin in force waits for a list, or has one. -/
theorem planToGoal_atEdge {g : Goal} (up : fabricUp s = true) (inv : Inv s) (h : refusal s port 1 q 0 = none)
    (origin : g.originGen.toNat = s.wld.originGen) : Goes (.planToGoal port q g) s fun t =>
      Counted F.CND_REQ_STAT_ACCEPTED s t ∧ (pendReq s port 1 q (some g) ∈ t.cnd.reqs ∨
        { pendReq s port 1 q (some g) with active := true } ∈ t.cnd.reqs ∧ goalList s (pendReq s port 1 q (some g)) ∈ t.sel.lists) := by
  refine goes_planToGoal up h ⟨goalPending_counted inv, ?_⟩
  have current : isStale (goalPending port q g s) (pendReq s port 1 q (some g)) = false := by
    have same : ¬ g.originGen.toNat ≠ (goalPending port q g s).wld.originGen := not_not.mpr origin
    simp only [isStale, pendReq, Option.any_some, same, decide_false, Bool.and_false]
  have := openLate_keeps_or_opens mem_goalPending current
  rwa [goalList_goalPending] at this

/-- In the tick of an edge a goal request of another origin is answered. -/
theorem planToGoal_stale {g : Goal} (up : fabricUp s = true) (inv : Inv s) (h : refusal s port 1 q 0 = none)
    (edge : s.time.count = s.frame.edgeTick ∧ s.frame.started = true) (origin : g.originGen.toNat ≠ s.wld.originGen) :
    Goes (.planToGoal port q g) s fun t => Counted F.CND_REQ_STAT_ACCEPTED s t ∧
      ∃ a ∈ t.cnd.answers, a.status = 0x15 ∧ a.tag = q.tag ∧ a.client = q.client ∧ a.kind = 1 := by
  refine goes_planToGoal up h ⟨goalPending_counted inv,
    staleAnswer (goalPending port q g s) (pendReq s port 1 q (some g)), ?_, rfl, rfl, rfl, rfl⟩
  have stale : isStale (goalPending port q g s) (pendReq s port 1 q (some g)) = true := by
    have now : (pendReq s port 1 q (some g)).first = (goalPending port q g s).frame.num := firstFrame_atEdge edge
    have other : g.originGen.toNat ≠ (goalPending port q g s).wld.originGen := origin
    have goal : (pendReq s port 1 q (some g)).goal = some g := rfl
    simp only [isStale, now, goal, Option.any_some, decide_eq_true other, decide_true, Bool.and_true]
    rfl
  rw [openLate_answers, staleNow_cnd.2]
  exact List.mem_append_right _ (List.mem_map.mpr ⟨_, List.mem_filter.mpr ⟨mem_goalPending, stale⟩, rfl⟩)

theorem requestsAreTaken (up : fabricUp s = true) (inv : Inv s) : Claims.RequestsAreTaken port q s := by
  refine ⟨pathCheck_taken up inv, fun g h => ⟨planToGoal_later up inv h, fun _ => planToGoal_atEdge up inv h,
    planToGoal_stale up inv h⟩, fun h => ⟨corridorWatch_taken up inv h, fun off => ?_⟩, fun h => ?_⟩
  · obtain ⟨r, found⟩ := watch_of_taken h off
    refine ⟨r, found, goes_fabric up rfl ?_⟩
    rw [takeRequest_taken h]
    have still : watchOf (accepted s) q = some r := found
    rw [off, still]
    exact watchEnds r q
  · obtain ⟨r, found⟩ := watch_of_taken h rfl
    refine ⟨r, found, goes_fabric up rfl ?_⟩
    rw [takeRequest_taken h]
    have still : watchOf (accepted s) { q with sub := 0, recs := [] } = some r := found
    rw [still]
    exact watchEnds r _

/-! ## Goals that wait too long -/

theorem goalsExpire {client : Nat} {tag : Word32} (up : fabricUp s = true) : Claims.GoalsExpire client tag s := by
  refine ⟨fun nothing => idle_fabric (f := fun s => match s.cnd.reqs.find? fun r => r.client = client ∧ r.tag = tag ∧ r.kind = 1 ∧ ¬ r.active ∧
        fld s F.CND_SCHED_CFG_GOAL_WAIT ≤ frameDist r.first s.frame.num with
    | some r => queueAnswer r 0x1B 0 [] (endReq r s)
    | none => s) rfl ?_, fun r due => goes_fabric up rfl ?_⟩
  · rw [nothing]
  · rw [due]
    obtain ⟨rfl, rfl, kind, -⟩ := of_decide_eq_true (p := r.client = client ∧ r.tag = tag ∧ r.kind = 1 ∧ ¬ r.active ∧ _) (List.find?_some due :)
    exact ⟨rfl, _, rfl, rfl, rfl, rfl, kind, rfl⟩

end

/-- Settles O43: a request passes the conditions of R343 in their order or is answered with the first that fails; one that is taken stands
among the pending ones, and the opening of an edge's lists ends only requests of another origin. -/
theorem requestsAreTakenAndEnd : Obligations.RequestsAreTakenAndEnd := by
  unfold Obligations.RequestsAreTakenAndEnd
  exact fun s up inv => ⟨fun port q => ⟨requestsAreTaken up inv, requestsAreRefused up inv⟩, fun client tag => goalsExpire up⟩

end Sys2Proof.Machine

end

section

set_option Elab.async false

/-! # Long operations: their commands and their work units (R333, R343, R351 to R356) -/

namespace Sys2Proof.Machine

open Sys2Proof.Claims (Answered OpBecomes RequestRefused UnitAbandoned)

section
variable {s t u : State} {a : Answer} {o o' x : LongOp} {port : Port} {q : ReqUnit}

/-! ## The slot of a client -/

/-- The slot to which the answers to a client go, as the client's word names it. -/
theorem slot_eq (c : Nat) : bitsOf (fld s (F.CND_CLIENT_WORD c 0)) 15 8 = fld s ⟨(F.CND_CLIENT_WORD c 0).addr, 15, 8⟩ := by
  show bitsOf (bitsOf (regWord s (F.CND_CLIENT_WORD c 0).addr) 31 0) 15 8 = bitsOf (regWord s (F.CND_CLIENT_WORD c 0).addr) 15 8
  unfold bitsOf
  omega

/-- From s to t the slot of no client has changed, and the registers have their form. -/
structure SameSlots (s t : State) : Prop where
  wf : Regs.wf t.image t.regs
  slot : ∀ c, bitsOf (fld t (F.CND_CLIENT_WORD c 0)) 15 8 = bitsOf (fld s (F.CND_CLIENT_WORD c 0)) 15 8

theorem SameSlots.refl (inv : Inv s) : SameSlots s s := ⟨inv.regs, fun _ => rfl⟩

theorem SameSlots.same (h : SameSlots s t) (image : u.image = t.image) (regs : u.regs = t.regs) : SameSlots s u := by
  refine ⟨by rw [image, regs]; exact h.wf, fun c => ?_⟩
  have word : fld u (F.CND_CLIENT_WORD c 0) = fld t (F.CND_CLIENT_WORD c 0) := congrArg (bitsOf · _ _) (regWord_congr image regs _)
  rw [word]
  exact h.slot c

/-- A field apart from the slots of all clients' words. -/
abbrev Fld.apart (f : Fld) : Prop := f.addr < 0x110000 ∨ f.addr % 16 ≠ 0 ∨ 15 < f.lo

theorem SameSlots.setFld {f : Fld} {v : Nat} (h : SameSlots s t) (ok : f.ok) (apart : f.apart) : SameSlots s (setFld f v t) := by
  refine ⟨setFld_wf h.wf, fun c => Eq.trans ?_ (h.slot c)⟩
  rw [slot_eq, slot_eq]
  by_cases here : (F.CND_CLIENT_WORD c 0).addr = f.addr
  · refine fld_setFld_other h.wf ok (by decide : 8 ≤ 15 ∧ 15 < 32) here (.inl ?_)
    have addr : 0x110000 + 0x10 * c + 4 * 0 = f.addr := here
    rcases apart with low | odd | high
    · omega
    · omega
    · exact high
  · exact fld_setFld_addr here

theorem SameSlots.report {e : Event} (h : SameSlots s t) : SameSlots s (report e t) := by
  refine ⟨report_keeps (keeps_regs_wf (by decide)) h.wf, fun c => Eq.trans ?_ (h.slot c)⟩
  rw [fld_report (clientWord_notMem c F.WDN_FLOG_STAT_SEQ (by decide))]

theorem SameSlots.setFlag {f : Fld} {b : Bool} (h : SameSlots s t) (ok : f.ok) (apart : f.apart) : SameSlots s (setFlag f b t) :=
  h.setFld ok apart

theorem showLeases_slots (h : SameSlots s t) : SameSlots s (showLeases t) := h.setFld (by decide) (by decide)

theorem showSegs_slots (h : SameSlots s t) : SameSlots s (showSegs t) := (h.setFld (by decide) (by decide)).setFld (by decide) (by decide)

theorem showOp_slots {n : Nat} (small : n < 32) (h : SameSlots s t) : SameSlots s (showOp n t) := by
  have low : 0x101700 + 4 * n < 0x110000 := by omega
  have field {hi lo v : Nat} {t : State} (h : SameSlots s t) (ok : lo ≤ hi ∧ hi < 32) :
      SameSlots s (Machine.setFld ⟨0x101700 + 4 * n, hi, lo⟩ v t) := h.setFld ok (.inl low)
  unfold showOp
  extract_lets put
  have shown {a b c d e : Nat} : SameSlots s (put a b c d e t) :=
    field (field (field (field (field h (by decide)) (by decide)) (by decide)) (by decide)) (by decide)
  split
  · exact shown
  · exact shown

theorem beginWipe_slots {r : WipeRegion} (h : SameSlots s t) : SameSlots s (beginWipe r t) :=
  ite_keeps (P := SameSlots s) h (SameSlots.setFlag (h.same rfl rfl) (by decide) (by decide))

theorem setOp_slots (small : o.ctx < 32) (h : SameSlots s t) : SameSlots s (setOp o t) := showOp_slots small (h.same rfl rfl)

theorem SameSending.refl (s : State) : SameSending s s := ⟨rfl, rfl, rfl, rfl, rfl, fun _ => rfl⟩

/-- Changes of parts on which the way of an answer does not depend. -/
theorem SameSending.of_keeps {W : List Part} (keep : ∀ {P : State → Prop}, Keeps W P → P s → P t)
    (away : ∀ p ∈ W, p ∉ ([.sec, .bus, .sent, .image, .time, .count, .cold] : List Part)) (slots : SameSlots s t) : SameSending s t where
  sec := keep (shows_sec fun p m n => away p m ((by decide : ([.sec, .cold] : List Part) ⊆ _) n)) rfl
  bus := keep (shows_bus fun p m n => away p m ((by decide : ([.bus, .cold] : List Part) ⊆ _) n)) rfl
  sent := keep (shows_sent_eq fun p m n => away p m ((by decide : ([.sent, .cold] : List Part) ⊆ _) n)) rfl
  image := keep (shows_image fun p m n => away p m ((by decide : ([.image, .cold] : List Part) ⊆ _) n)) rfl
  time := keep (shows_time fun p m n => away p m ((by decide : ([.time, .count, .cold] : List Part) ⊆ _) n)) rfl
  slot := slots.slot

/-! ## The operation of a context -/

theorem setOp_live (live : opFinal o.state = false) : (setOp o s).cnd.ops = s.cnd.ops.map fun x => if x.ctx = o.ctx then o else x := by
  unfold setOp
  rw [showOp_keeps (shows_cnd (by decide)) rfl]
  dsimp only
  rw [live]
  rfl

theorem setOp_final (final : opFinal o.state = true) : (setOp o s).cnd.ops = s.cnd.ops.filter fun x => x.ctx ≠ o.ctx := by
  unfold setOp
  rw [showOp_keeps (shows_cnd (by decide)) rfl]
  dsimp only
  rw [final]
  rfl

theorem setOp_ends (final : opFinal o.state = true) : ∀ x ∈ (setOp o s).cnd.ops, x.ctx ≠ o.ctx := by
  rw [setOp_final final]
  exact fun x hx => of_decide_eq_true (List.mem_filter.mp hx).2

theorem setOp_leases : (setOp o s).cnd.leases = s.cnd.leases := by
  unfold setOp
  rw [showOp_keeps (shows_cnd (by decide)) rfl]

theorem opBecomes_setOp (m : o ∈ s.cnd.ops) (ctx : o'.ctx = o.ctx) (live : opFinal o'.state = false) (ops : t.cnd.ops = s.cnd.ops) :
    OpBecomes o o' s (setOp o' t) := by
  unfold OpBecomes
  rw [setOp_live live, ops]
  refine ⟨List.mem_map.mpr ⟨o, m, if_pos ctx.symm⟩, fun x hx here => ?_, fun x away => ⟨fun hx => ?_, fun hx => ?_⟩⟩
  · obtain ⟨y, -, rfl⟩ := List.mem_map.mp hx
    split
    · rfl
    · rename_i other
      rw [if_neg other] at here
      exact absurd (here.trans ctx.symm) other
  · obtain ⟨y, hy, rfl⟩ := List.mem_map.mp hx
    split at away
    · exact absurd ctx away
    · rename_i other
      rwa [if_neg other]
  · exact List.mem_map.mpr ⟨x, hx, if_neg fun e => away (e.trans ctx)⟩

theorem OpBecomes.same (h : OpBecomes o x s t) (ops : u.cnd.ops = t.cnd.ops) : OpBecomes o x s u := by
  unfold OpBecomes
  rw [ops]
  exact h

/-- The operation of a context changes, and changes again. -/
theorem opBecomes_setOp_setOp (m : o ∈ s.cnd.ops) (ctx : o'.ctx = o.ctx) (live : opFinal o'.state = false) (same : x.ctx = o'.ctx)
    (live' : opFinal x.state = false) (ops : t.cnd.ops = s.cnd.ops) (then' : u.cnd.ops = (setOp o' t).cnd.ops) :
    OpBecomes o x s (setOp x u) := by
  obtain ⟨here, -, away⟩ := opBecomes_setOp m ctx live ops
  obtain ⟨here', only', away'⟩ := opBecomes_setOp (s := setOp o' t) here same live' then'
  exact ⟨here', fun y hy at' => only' y hy (at'.trans ctx.symm), fun y ne => (away' y fun e => ne (e.trans ctx)).trans (away y ne)⟩

/-! ## The commands -/

theorem exec_start {params : List Byte} : exec (.start port q params) s = .next (fabric s
    (takeRequest port 3 { q with sub := 0, recs := [] } params.length fun s =>
      let o : LongOp := ⟨freeCtx s, q.client, q.arg.toNat % 256, .queued, port, q.tag, params, 0, 0, [], 0, s.frame.num + 1, none, false, none⟩
      sendAnswer (opAnswer s o 0x03) (showOp (freeCtx s) (giveLease 0x81 5 (freeCtx s) (some q.client) 0
        { s with cnd := { s.cnd with ops := s.cnd.ops ++ [o] } })))) := rfl

/-- A context is free while fewer than 32 operations stand. -/
theorem freeCtx_free (room : s.cnd.ops.length < 32) : freeCtx s < 32 ∧ ∀ x ∈ s.cnd.ops, x.ctx ≠ freeCtx s := by
  have some' : ∃ c ∈ List.range 32, ∀ x ∈ s.cnd.ops, x.ctx ≠ c := by
    by_contra none'
    push Not at none'
    have all : List.range 32 ⊆ s.cnd.ops.map (·.ctx) := fun c hc => by
      obtain ⟨x, hx, e⟩ := none' c hc
      exact List.mem_map.mpr ⟨x, hx, e⟩
    have := (List.subperm_of_subset List.nodup_range all).length_le
    rw [List.length_range, List.length_map] at this
    omega
  unfold freeCtx
  cases found : (List.range 32).find? fun c => ¬ s.cnd.ops.any fun o => o.ctx = c with
  | none =>
    obtain ⟨c, hc, away⟩ := some'
    have taken := List.find?_eq_none.mp found c hc
    simp only [decide_eq_true_eq, List.any_eq_true] at taken
    obtain ⟨x, hx, e⟩ := not_not.mp taken
    exact absurd e (away x hx)
  | some c =>
    refine ⟨List.mem_range.mp (List.mem_of_find?_eq_some found), fun x hx e => ?_⟩
    have empty := of_decide_eq_true (List.find?_some found :)
    exact empty (List.any_eq_true.mpr ⟨x, hx, decide_eq_true e⟩)

theorem room_of_start {n : Nat} (h : refusal s port 3 { q with sub := 0, recs := [] } n = none) : s.cnd.ops.length < 32 := by
  by_contra full
  unfold refusal at h
  simp only [ge_iff_le, Nat.le_of_not_lt full, decide_true, Bool.and_true, if_true] at h
  split_ifs at h

theorem startOpens (up : fabricUp s = true) (inv : Inv s) (params : List Byte) : Claims.StartOpens port q params s := by
  intro h
  obtain ⟨small, away⟩ := freeCtx_free (room_of_start h)
  refine goes_fabric up exec_start ?_
  rw [takeRequest_taken h]
  have accepted_slots : SameSlots s (accepted s) := (SameSlots.refl inv).setFld (by decide) (by decide)
  extract_lets o
  refine ⟨freeCtx s, small, away, ?_, ?_, ?_⟩
  · rw [sendAnswer_keeps (shows_cnd (by decide)) rfl, showOp_keeps (shows_cnd (by decide)) rfl, giveLease_cnd]
    rfl
  · have domain : bitsOf (fld (accepted s) (F.CND_CLIENT_WORD q.client 0)) 27 24 = bitsOf (fld s (F.CND_CLIENT_WORD q.client 0)) 27 24 := by
      rw [accepted_regs.fld fun m => clientWord_notMem q.client F.CND_REQ_STAT_REFUSED (by decide) (List.mem_singleton.mp m)]
    rw [sendAnswer_keeps (shows_cnd (by decide)) rfl, showOp_keeps (shows_cnd (by decide)) rfl, giveLease_cnd, ← domain]
    rfl
  · refine answered_of_same ?_ (sendAnswer_answered _ _)
    exact .of_keeps (W := [.regs, .cnd]) (fun C h => showOp_keeps (C.mono (by decide)) (giveLease_keeps (C.mono (by decide))
      (C.upd_cnd (by decide) (bump_keeps (C.mono (by decide)) h)))) (by decide)
      (showOp_slots small (showSegs_slots (showLeases_slots (accepted_slots.same rfl rfl))))

/-- A command other than START that is not refused is accepted by its operation (R355). -/
theorem command_accepted {n : Nat} (later : n ≠ 0) (h : refusal s port 3 { q with sub := n, recs := [] } 0 = none) :
    commandAccepted s { q with sub := n, recs := [] } = true := by
  by_contra not
  unfold refusal at h
  simp only [Bool.eq_false_iff.mpr not, ne_eq, later, not_false_eq_true, decide_true, Bool.not_false, Bool.and_true, Bool.true_or, if_true] at h
  split_ifs at h

theorem op_of_command {n : Nat} (later : 1 ≤ n) (h : refusal s port 3 { q with sub := n, recs := [] } 0 = none) : (opOf s q).isSome = true := by
  have := command_accepted (Nat.ne_of_gt later) h
  unfold commandAccepted at this
  have same : opOf s { q with sub := n, recs := [] } = opOf s q := rfl
  rw [same] at this
  cases found : opOf s q with
  | none =>
    rw [found] at this
    cases this
  | some o => rfl

theorem opOf_spec (found : opOf s q = some o) : o ∈ s.cnd.ops ∧ o.ctx < 32 := by
  have ctx : o.ctx = q.arg.toNat % 32 := (of_decide_eq_true (p := o.ctx = _ ∧ _) (List.find?_some found :)).1
  exact ⟨List.mem_of_find?_eq_some found, ctx ▸ Nat.mod_lt _ (by decide)⟩

/-- The operation as a command of a port and a tag finds it (R355). -/
abbrev addressed (o : LongOp) (port : Port) (q : ReqUnit) : LongOp := { o with tag := q.tag, port := port }

/-- The operation takes its place, and its client is told. -/
def toldOp (o : LongOp) (status : Nat) (s : State) : State := sendAnswer (opAnswer s o status) (setOp o s)

/-- The operation as its suspension is asked for, while its work unit may run (R355). -/
abbrev suspending (o : LongOp) (port : Port) (q : ReqUnit) : LongOp := { addressed o port q with state := .suspending }

theorem exec_suspend : exec (.suspend port q) s = .next (fabric s (takeRequest port 3 { q with sub := 1, recs := [] } 0 fun s =>
    match opOf s q with
    | none => s
    | some o =>
      let s1 := toldOp (suspending o port q) 0x03 s
      if o.unitStart.isSome then s1 else suspendNow (suspending o port q) s1)) := rfl

/-- The operation as it resumes from its valid checkpoint (R355). -/
abbrev resumed (o : LongOp) (port : Port) (q : ReqUnit) (s : State) : LongOp :=
  { addressed o port q with
    state := .running, notBefore := s.frame.num + 1, unitStart := none, unitsDone := ((validCkpt o).map (·.units)).getD 0 }

theorem exec_resume : exec (.resume port q) s = .next (fabric s (takeRequest port 3 { q with sub := 2, recs := [] } 0 fun s =>
    match opOf s q with
    | none => s
    | some o => toldOp (resumed o port q s) 0x03 s)) := rfl

theorem exec_cancel : exec (.cancel port q) s = .next (fabric s (takeRequest port 3 { q with sub := 3, recs := [] } 0 fun s =>
    match opOf s q with
    | none => s
    | some o => beginCancel (addressed o port q) s)) := rfl

theorem exec_query : exec (.query port q) s = .next (fabric s (takeRequest port 3 { q with sub := 4, recs := [] } 0 fun s =>
    answerNow port 3 { q with sub := 4, recs := [] } 0x04 s)) := rfl

theorem goes_command {n params : Nat} {c : Instr} {f : State → State} {Q : State → Prop} (up : fabricUp s = true)
    (e : exec c s = .next (fabric s (takeRequest port 3 { q with sub := n, recs := [] } params f)))
    (h : refusal s port 3 { q with sub := n, recs := [] } params = none) (done : Q (f (accepted s))) : Goes c s Q := by
  refine goes_fabric up e ?_
  rw [takeRequest_taken h]
  exact done

theorem accepted_slots (inv : Inv s) : SameSlots s (accepted s) := (SameSlots.refl inv).setFld (by decide) (by decide)

theorem toldOp_cnd {n : Nat} : (toldOp o n s).cnd = (setOp o s).cnd := sendAnswer_keeps (shows_cnd (by decide)) rfl

theorem toldOp_becomes {n : Nat} (m : o ∈ s.cnd.ops) (ctx : o'.ctx = o.ctx) (live : opFinal o'.state = false) (ops : t.cnd.ops = s.cnd.ops) :
    OpBecomes o o' s (toldOp o' n t) := OpBecomes.same (opBecomes_setOp m ctx live ops) (congrArg (·.ops) toldOp_cnd)

theorem toldOp_answered {n : Nat} (small : o.ctx < 32) (num : t.frame.num = s.frame.num) (same : SameSending s t) (wf : Regs.wf t.image t.regs) :
    Answered (opAnswer s o n) s (toldOp o n t) := by
  have own : opAnswer t o n = opAnswer s o n := by
    unfold opAnswer
    rw [num]
  unfold toldOp
  rw [own]
  refine answered_of_same same (answered_of_same (.of_keeps (W := [.regs, .cnd]) (fun C h => setOp_keeps (C.mono (by decide)) h) (by decide)
    (setOp_slots small ⟨wf, fun _ => rfl⟩)) (sendAnswer_answered _ _))

/-- The end of a lease sends nothing. -/
theorem freeLease_answered {cls res : Nat} (h : Answered a s t) : Answered a s (freeLease cls res t) := by
  unfold Answered
  rw [freeLease_keeps (shows_sec (by decide)) rfl, freeLease_keeps (shows_bus (by decide)) rfl, freeLease_keeps (shows_sent_eq (by decide)) rfl]
  exact h

theorem sendAnswer_isobus (isobus : a.port = .isobus) (s : State) :
    (sendAnswer a s).sent = .answer a (answerTo s a) (answerBytes a) :: s.sent := by
  unfold sendAnswer
  rw [isobus]
  rfl

/-- Answers to one client on one port go to one address. -/
theorem answerTo_congr {b : Answer} (image : t.image = s.image) (bus : t.bus = s.bus) (port : b.port = a.port) (client : b.client = a.client) :
    answerTo t b = answerTo s a := by
  unfold answerTo nameAddr
  rw [image, bus, port, client]

theorem toldOp_sent {n : Nat} (isobus : o.port = .isobus) (s : State) : (toldOp o n s).sent =
    .answer (opAnswer s o n) (answerTo s (opAnswer s o n)) (answerBytes (opAnswer s o n)) :: s.sent := by
  unfold toldOp
  rw [sendAnswer_isobus isobus, setOp_keeps (shows_sent_eq (by decide)) rfl,
    answerTo_congr (setOp_keeps (shows_image (by decide)) rfl) (setOp_keeps (shows_bus (by decide)) rfl) rfl rfl]

/-! ### Suspension -/

/-- A lease of another resource stands as one is freed. -/
theorem mem_freeLease {l : Lease} {cls res : Nat} (m : l ∈ s.cnd.leases) (other : l.cls ≠ cls) : l ∈ (freeLease cls res s).cnd.leases := by
  have left : l ∈ s.cnd.leases.filter fun l => ¬(l.cls = cls ∧ l.res = res) :=
    List.mem_filter.mpr ⟨m, decide_eq_true fun e => other e.1⟩
  unfold freeLease serveWaiter
  split
  · unfold giveLease
    rw [showSegs_keeps (shows_cnd (by decide)) (showLeases_keeps (shows_cnd (by decide)) rfl)]
    exact List.mem_append_left _ left
  · rw [showSegs_keeps (shows_cnd (by decide)) (showLeases_keeps (shows_cnd (by decide)) rfl)]
    exact left

theorem releaseOpLeases_spec (o : LongOp) (s : State) : (releaseOpLeases o s).cnd.ops = s.cnd.ops ∧
    ∀ l ∈ s.cnd.leases, l.cls = 5 → l ∈ (releaseOpLeases o s).cnd.leases := by
  have all (ls : List Lease) (other : ∀ l ∈ ls, l.cls ≠ 5) (t : State) :
      (ls.foldl (fun s l => freeLease l.cls l.res s) t).cnd.ops = t.cnd.ops ∧
        ∀ l ∈ t.cnd.leases, l.cls = 5 → l ∈ (ls.foldl (fun s l => freeLease l.cls l.res s) t).cnd.leases := by
    induction ls generalizing t with
    | nil => exact ⟨rfl, fun l hl _ => hl⟩
    | cons x ls ih =>
      obtain ⟨ops, leases⟩ := ih (fun l hl => other l (List.mem_cons_of_mem _ hl)) (freeLease x.cls x.res t)
      exact ⟨ops.trans (freeLease_ops _ _ _), fun l hl five => leases l (mem_freeLease hl (five ▸ (other x List.mem_cons_self).symm)) five⟩
  unfold releaseOpLeases
  extract_lets runs mine
  refine all _ (fun l hl => ?_) s
  have own := of_decide_eq_true (List.mem_filter.mp hl).2
  rcases own with ⟨ne, -⟩ | ⟨three, -⟩ | ⟨four, -⟩
  · exact ne
  · omega
  · omega

/-- The operation as its suspension takes effect (R355). -/
abbrev suspended (o : LongOp) : LongOp := { o with state := .suspended, unitStart := none }

theorem suspendNow_eq : suspendNow o s = toldOp (suspended o) 0x04 (releaseOpLeases o s) := by
  have frame : (releaseOpLeases o s).frame = s.frame := releaseOpLeases_keeps (shows_frame (by decide)) rfl
  have own : opAnswer s (suspended o) 0x04 = opAnswer (releaseOpLeases o s) (suspended o) 0x04 := by
    unfold opAnswer
    rw [frame]
  exact congrArg (sendAnswer · _) own

theorem suspendNow_ops : (suspendNow o s).cnd.ops = (setOp (suspended o) s).cnd.ops := by
  rw [suspendNow_eq, toldOp_cnd, setOp_live rfl, setOp_live rfl, (releaseOpLeases_spec o s).1]

theorem suspendNow_leases : ∀ l ∈ s.cnd.leases, l.cls = 5 → l ∈ (suspendNow o s).cnd.leases := by
  rw [suspendNow_eq, toldOp_cnd, setOp_leases]
  exact (releaseOpLeases_spec o s).2

theorem suspendNow_sent (isobus : o.port = .isobus) : (suspendNow o s).sent =
    .answer (opAnswer s (suspended o) 0x04) (answerTo s (opAnswer s (suspended o) 0x04)) (answerBytes (opAnswer s (suspended o) 0x04)) :: s.sent := by
  have own : opAnswer (releaseOpLeases o s) (suspended o) 0x04 = opAnswer s (suspended o) 0x04 := by
    unfold opAnswer
    rw [releaseOpLeases_keeps (shows_frame (by decide)) rfl]
  rw [suspendNow_eq, toldOp_sent (o := suspended o) isobus, own, releaseOpLeases_keeps (shows_sent_eq (by decide)) rfl,
    answerTo_congr (releaseOpLeases_keeps (shows_image (by decide)) rfl) (releaseOpLeases_keeps (shows_bus (by decide)) rfl) rfl rfl]

/-- A suspension while a work unit runs waits for its end. -/
theorem suspend_waits (up : fabricUp s = true) (found : opOf s q = some o)
    (h : refusal s port 3 { q with sub := 1, recs := [] } 0 = none) (runs : o.unitStart.isSome = true) :
    exec (.suspend port q) s = .next (toldOp (suspending o port q) 0x03 (accepted s)) := by
  have found' : opOf (accepted s) q = some o := found
  rw [exec_suspend, fabric_of_up up, takeRequest_taken h, found']
  exact congrArg _ (if_pos runs)

/-- A suspension where no work unit runs takes effect at once. -/
theorem suspend_suspends (up : fabricUp s = true) (found : opOf s q = some o)
    (h : refusal s port 3 { q with sub := 1, recs := [] } 0 = none) (idle : o.unitStart = none) :
    exec (.suspend port q) s = .next (suspendNow (suspending o port q) (toldOp (suspending o port q) 0x03 (accepted s))) := by
  have found' : opOf (accepted s) q = some o := found
  rw [exec_suspend, fabric_of_up up, takeRequest_taken h, found']
  exact congrArg _ (if_neg (by rw [idle]; exact Bool.false_ne_true))

/-- The accepted operation of a command keeps its leases as it is told. -/
theorem toldOp_leases {n : Nat} : (toldOp o n (accepted s)).cnd.leases = s.cnd.leases := by
  rw [toldOp_cnd, setOp_leases]
  rfl

theorem suspend_twice_sent (isobus : port = .isobus) :
    ∃ a, (suspendNow (suspending o port q) (toldOp (suspending o port q) 0x03 (accepted s))).sent =
      .answer (opAnswer s (suspended (suspending o port q)) 0x04) a (answerBytes (opAnswer s (suspended (suspending o port q)) 0x04)) ::
        .answer (opAnswer s (suspending o port q) 0x03) a (answerBytes (opAnswer s (suspending o port q) 0x03)) :: s.sent := by
  have told {P : State → Prop} (C : Keeps [.indlog, .regs, .cnd, .log, .queue, .sec, .bus, .sent, .free] P) (h : P s) :
      P (toldOp (suspending o port q) 0x03 (accepted s)) :=
    sendAnswer_keeps (C.mono (by decide)) (setOp_keeps (C.mono (by decide)) (bump_keeps (C.mono (by decide)) h))
  have bus : (toldOp (suspending o port q) 0x03 (accepted s)).bus = s.bus := by
    unfold toldOp sendAnswer
    subst isobus
    exact setOp_keeps (shows_bus (by decide)) rfl
  have own : opAnswer (toldOp (suspending o port q) 0x03 (accepted s)) (suspended (suspending o port q)) 0x04 =
      opAnswer s (suspended (suspending o port q)) 0x04 := by
    unfold opAnswer
    rw [told (shows_frame (by decide)) rfl]
  refine ⟨answerTo s (opAnswer s (suspending o port q) 0x03), ?_⟩
  rw [suspendNow_sent isobus, own, answerTo_congr (told (shows_image (by decide)) rfl) bus rfl rfl, toldOp_sent isobus]
  rfl

theorem suspend_runs (up : fabricUp s = true) (inv : Inv s) (found : opOf s q = some o)
    (h : refusal s port 3 { q with sub := 1, recs := [] } 0 = none) : Goes (.suspend port q) s fun t =>
      (∀ l ∈ s.cnd.leases, l.cls = 5 → l ∈ t.cnd.leases) ∧
      (o.unitStart.isSome = true → OpBecomes o (suspending o port q) s t ∧ Answered (opAnswer s (suspending o port q) 0x03) s t) ∧
      (o.unitStart = none → OpBecomes o { addressed o port q with state := .suspended } s t ∧
        (port = .isobus → ∃ a, t.sent = .answer (opAnswer s { addressed o port q with state := .suspended } 0x04) a
            (answerBytes (opAnswer s { addressed o port q with state := .suspended } 0x04)) ::
          .answer (opAnswer s (suspending o port q) 0x03) a (answerBytes (opAnswer s (suspending o port q) 0x03)) :: s.sent)) := by
  obtain ⟨m, small⟩ := opOf_spec found
  by_cases runs : o.unitStart.isSome = true
  · refine ⟨_, suspend_waits up found h runs, fun l hl _ => ?_, fun _ => ⟨toldOp_becomes m rfl rfl rfl, ?_⟩, fun e => ?_⟩
    · rwa [toldOp_leases]
    · exact toldOp_answered small rfl accepted_sending (accepted_slots inv).wf
    · rw [e] at runs
      cases runs
  · have idle : o.unitStart = none := Option.not_isSome_iff_eq_none.mp runs
    have done : suspended (suspending o port q) = { addressed o port q with state := .suspended } := by
      unfold suspended
      rw [← idle]
    refine ⟨_, suspend_suspends up found h idle, fun l hl five => suspendNow_leases l ?_ five, fun e => absurd e runs, fun _ => ?_⟩
    · rwa [toldOp_leases]
    · rw [← done]
      refine ⟨?_, fun isobus => suspend_twice_sent isobus⟩
      exact OpBecomes.same (opBecomes_setOp_setOp m (o' := suspending o port q) rfl rfl rfl rfl (t := accepted s) rfl
        (congrArg (·.ops) toldOp_cnd)) suspendNow_ops

/-! ### Resumption, cancellation and query -/

theorem resume_runs (up : fabricUp s = true) (inv : Inv s) (found : opOf s q = some o)
    (h : refusal s port 3 { q with sub := 2, recs := [] } 0 = none) : Goes (.resume port q) s fun t =>
      (∀ l ∈ s.cnd.leases, l.cls = 5 → l ∈ t.cnd.leases) ∧ OpBecomes o (resumed o port q s) s t ∧
        Answered (opAnswer s (resumed o port q s) 0x03) s t := by
  obtain ⟨m, small⟩ := opOf_spec found
  refine goes_command up exec_resume h ?_
  have found' : opOf (accepted s) q = some o := found
  rw [found']
  refine ⟨fun l hl _ => ?_, toldOp_becomes m rfl rfl rfl, toldOp_answered small rfl accepted_sending (accepted_slots inv).wf⟩
  rwa [toldOp_leases]

theorem cancel_runs (up : fabricUp s = true) (found : opOf s q = some o)
    (h : refusal s port 3 { q with sub := 3, recs := [] } 0 = none) : Goes (.cancel port q) s fun t =>
      (∀ l ∈ s.cnd.leases, l.cls = 5 → l ∈ t.cnd.leases) ∧
      OpBecomes o { addressed o port q with state := .cancelling, unitStart := none, cancelledAt := some s.time.count } s t ∧
        ∃ w ∈ t.mem.wipes, w.1 = .longOp (Fin.ofNat 32 o.ctx) := by
  obtain ⟨m, small⟩ := opOf_spec found
  refine goes_command up exec_cancel h ?_
  have found' : opOf (accepted s) q = some o := found
  rw [found']
  obtain ⟨ops, leases⟩ := releaseOpLeases_spec (addressed o port q) (accepted s)
  dsimp only [beginCancel]
  refine ⟨?_, ?_, ?_⟩
  · rw [beginWipe_keeps (shows_cnd (by decide)) rfl, setOp_leases]
    exact leases
  · exact OpBecomes.same (opBecomes_setOp m rfl rfl ops) (congrArg (·.ops) (beginWipe_keeps (shows_cnd (by decide)) rfl))
  · exact beginWipe_wipes _ _

theorem query_runs (up : fabricUp s = true) (h : refusal s port 3 { q with sub := 4, recs := [] } 0 = none) :
    Goes (.query port q) s fun t => t.cnd = s.cnd ∧ Answered (Claims.answerTo s port 3 { q with sub := 4, recs := [] } 0x04) s t := by
  refine goes_command up exec_query h ⟨answerNow_keeps (shows_cnd (by decide)) rfl, ?_⟩
  exact answered_of_same accepted_sending (sendAnswer_answered _ _)

theorem commandsActOn (up : fabricUp s = true) (inv : Inv s) (found : opOf s q = some o) : Claims.CommandsActOn o port q s :=
  ⟨suspend_runs up inv found, resume_runs up inv found, cancel_runs up found, query_runs up⟩

theorem goes_refused {n params st : Nat} {c : Instr} {f : State → State} (up : fabricUp s = true) (inv : Inv s)
    (e : exec c s = .next (fabric s (takeRequest port 3 { q with sub := n, recs := [] } params f)))
    (h : refusal s port 3 { q with sub := n, recs := [] } params = some st) :
    Goes c s (RequestRefused port 3 { q with sub := n, recs := [] } st s) := by
  refine goes_fabric up e ?_
  rw [takeRequest_refused h]
  exact requestRefused port 3 _ st inv

theorem longOperationCommands (up : fabricUp s = true) (inv : Inv s) : Claims.LongOperationCommands port q s :=
  ⟨fun params => ⟨startOpens up inv params, fun _ h => goes_refused up inv exec_start h⟩, fun _ => op_of_command,
    fun _ found => commandsActOn up inv found, fun _ h => goes_refused up inv exec_suspend h,
    fun _ h => goes_refused up inv exec_resume h, fun _ h => goes_refused up inv exec_cancel h,
    fun _ h => goes_refused up inv exec_query h⟩

/-! ## Work units -/

/-! ### What sending keeps of the record queue -/

theorem closeSlot_keeps_records {n cause : Nat} {r : QueuedRec} (later : cause ≠ 0) (h : r ∈ s.log.queue) : r ∈ (closeSlot n cause s).log.queue := by
  unfold closeSlot
  extract_lets gone sec s1 s2
  refine ite_keeps (P := fun t : State => r ∈ t.log.queue) h ?_
  have same : s2.log = s.log :=
    foldl_keeps (P := fun t : State => t.log = s.log) (fun _ _ h => completeBad_keeps (shows_log (by decide)) h) _ _ rfl
  rw [capture_keeps (shows_log (by decide)) (bump_keeps (shows_log (by decide)) rfl)]
  refine report_warning_keeps_records ?_ (by rw [same]; exact h)
  rw [if_neg later]
  exact Nat.le_refl 1

theorem deliverMsg_keeps_records {m : DevMsg} {d : SlotDesc} {k : SlotKeys} {r : QueuedRec} (h : r ∈ s.log.queue) :
    r ∈ (deliverMsg m d k s).log.queue := by
  unfold deliverMsg
  extract_lets n more ctr rest sec s1 s2 s3
  have same : s3.log = s.log := by
    have taken : s1.log = s.log := setSlot_keeps (shows_log (by decide)) rfl
    have completed : s2.log = s.log := complete_keeps (shows_log (by decide)) taken
    unfold s3
    split
    · exact ite_keeps (P := fun t : State => t.log = s.log) completed completed
    · exact completed
  rw [← same] at h
  exact ite_keeps (P := fun t : State => r ∈ t.log.queue) (closeSlot_keeps_records Nat.one_ne_zero h) h

/-- An answer displaces no record of the fault log. -/
theorem sendAnswer_keeps_records {r : QueuedRec} (h : r ∈ s.log.queue) : r ∈ (sendAnswer a s).log.queue := by
  have one {t : State} (h : r ∈ t.log.queue) : r ∈ (pumpOne t).log.queue := by
    unfold pumpOne
    split
    · exact h
    · split
      · exact deliverMsg_keeps_records h
      · exact h
  unfold sendAnswer
  split
  · exact foldl_keeps (P := fun t : State => r ∈ t.log.queue) (fun _ _ h => one h) _ _ h
  · rw [sendGuidance_keeps (shows_log (by decide)) rfl]
    exact h
  · exact h

/-! ### A unit that is abandoned -/

/-- The state in which an abandoned unit is recorded and its scratch is under a wipe. -/
def abandoned (o : LongOp) (s : State) : State :=
  beginWipe (.leaseScratch 5 o.ctx) (report { uncoded .abandoned 0x81 .warning with client := o.client } s)

theorem abandonUnit_of_more (more : o.abandons + 1 < fld s F.CND_SCHED_CFG_ABANDON_MAX) : abandonUnit o s =
    setOp { o with abandons := o.abandons + 1, unitStart := none, unitsDone := ((validCkpt o).map (·.units)).getD 0 } (abandoned o s) :=
  if_neg (Nat.not_le_of_lt more)

/-- The operation as it has failed with an abandoned unit (R354). -/
abbrev failedByAbandon (o : LongOp) : LongOp := { o with abandons := o.abandons + 1, state := .failed, unitStart := none }

theorem abandoned_keeps {P : State → Prop} (C : Keeps [.indlog, .regs, .log, .queue, .mem] P) (h : P s) : P (abandoned o s) :=
  beginWipe_keeps (C.mono (by decide)) (report_keeps (C.mono (by decide)) h)

/-- The state in which an operation has failed with its last abandoned unit, and its region is free. -/
def lastAbandoned (o : LongOp) (s : State) : State :=
  let s2 := setOp (failedByAbandon o) (abandoned o s)
  showLeases { s2 with cnd := { s2.cnd with leases := s2.cnd.leases.filter fun l => ¬ (l.cls = 5 ∧ l.res = o.ctx) } }

theorem lastAbandoned_keeps {P : State → Prop} (C : Keeps [.indlog, .regs, .log, .queue, .mem, .cnd] P) (h : P s) : P (lastAbandoned o s) :=
  showLeases_keeps (C.mono (by decide)) (C.upd_cnd (by decide) (setOp_keeps (C.mono (by decide)) (abandoned_keeps (C.mono (by decide)) h)))

theorem abandonUnit_of_last (last : fld s F.CND_SCHED_CFG_ABANDON_MAX ≤ o.abandons + 1) : abandonUnit o s =
    sendAnswer (opAnswer (abandoned o s) (failedByAbandon o) 0x19) (lastAbandoned o s) := if_pos last

theorem lastAbandoned_mem : (lastAbandoned o s).mem = (abandoned o s).mem :=
  (showLeases_keeps (shows_mem (by decide)) rfl).trans (setOp_keeps (shows_mem (by decide)) rfl)

theorem lastAbandoned_log : (lastAbandoned o s).log = (abandoned o s).log :=
  (showLeases_keeps (shows_log (by decide)) rfl).trans (setOp_keeps (shows_log (by decide)) rfl)

theorem lastAbandoned_cnd : (∀ x ∈ (lastAbandoned o s).cnd.ops, x.ctx ≠ o.ctx) ∧
    ∀ l ∈ (lastAbandoned o s).cnd.leases, ¬(l.cls = 5 ∧ l.res = o.ctx) := by
  unfold lastAbandoned
  extract_lets s2
  rw [showLeases_keeps (shows_cnd (by decide)) rfl]
  exact ⟨setOp_ends (o := failedByAbandon o) rfl, fun l hl => of_decide_eq_true (List.mem_filter.mp hl).2⟩

theorem abandoned_recorded (room : s.log.queue.length < 256) :
    Recorded (abandoned o s) 0x81 (uncoded .abandoned 0x81 .warning).cls (uncoded .abandoned 0x81 .warning).ev 1 := by
  unfold Recorded abandoned
  rw [beginWipe_keeps (shows_log (by decide)) rfl]
  exact report_recorded room

theorem abandoned_sending (inv : Inv s) : SameSending s (abandoned o s) :=
  .of_keeps (W := [.indlog, .regs, .log, .queue, .mem]) abandoned_keeps (by decide) (beginWipe_slots (SameSlots.refl inv).report)

/-- A work unit that is abandoned (R354). -/
theorem unitAbandoned (inv : Inv s) (m : o ∈ s.cnd.ops) (small : o.ctx < 32) : UnitAbandoned o s (abandonUnit o s) := by
  have wiped : ∃ w ∈ (abandoned o s).mem.wipes, w.1 = .leaseScratch 5 o.ctx := beginWipe_wipes _ _
  have cnd : (abandoned o s).cnd = s.cnd := abandoned_keeps (shows_cnd (by decide)) rfl
  by_cases last : fld s F.CND_SCHED_CFG_ABANDON_MAX ≤ o.abandons + 1
  · rw [abandonUnit_of_last last]
    refine ⟨?_, fun room => ?_, fun more => absurd last (Nat.not_le_of_lt more), fun _ => ⟨?_, ?_, ?_⟩⟩
    · rw [sendAnswer_keeps (shows_mem (by decide)) lastAbandoned_mem]
      exact wiped
    · obtain ⟨r, hr, is⟩ := abandoned_recorded (o := o) room
      refine ⟨r, sendAnswer_keeps_records ?_, is⟩
      rw [lastAbandoned_log]
      exact hr
    · rw [sendAnswer_keeps (shows_cnd (by decide)) rfl]
      exact lastAbandoned_cnd.1
    · rw [sendAnswer_keeps (shows_cnd (by decide)) rfl]
      exact lastAbandoned_cnd.2
    · have own : opAnswer (abandoned o s) (failedByAbandon o) 0x19 = opAnswer s (failedByAbandon o) 0x19 := by
        unfold opAnswer
        rw [abandoned_keeps (shows_frame (by decide)) rfl]
      rw [own]
      have slots : SameSlots s (abandoned o s) := beginWipe_slots (SameSlots.refl inv).report
      refine answered_of_same ?_ (sendAnswer_answered _ _)
      exact .of_keeps (W := [.indlog, .regs, .log, .queue, .mem, .cnd]) lastAbandoned_keeps (by decide)
        (showLeases_slots ((setOp_slots (o := failedByAbandon o) small slots).same rfl rfl))
  · rw [abandonUnit_of_more (Nat.lt_of_not_le last)]
    refine ⟨?_, fun room => ?_, fun _ live => opBecomes_setOp m rfl live (congrArg (·.ops) cnd), fun full => absurd full last⟩
    · rw [setOp_keeps (shows_mem (by decide)) rfl]
      exact wiped
    · unfold Recorded
      rw [setOp_keeps (shows_log (by decide)) rfl]
      exact abandoned_recorded room

/-! ### The end of a unit -/

theorem failOp_spec (inv : Inv s) (small : o.ctx < 32) : (∀ x ∈ (failOp o s).cnd.ops, x.ctx ≠ o.ctx) ∧
    Answered (opAnswer s { o with state := .failed, unitStart := none } 0x19) s (failOp o s) := by
  let o1 : LongOp := { o with state := .failed, unitStart := none }
  have is : failOp o s = freeLease 5 o.ctx (toldOp o1 0x19 s) := rfl
  rw [is]
  refine ⟨?_, ?_⟩
  · rw [freeLease_ops, toldOp_cnd]
    exact setOp_ends (o := o1) rfl
  · exact freeLease_answered (toldOp_answered (o := o1) small rfl (SameSending.refl s) inv.regs)

/-- The operation as its work unit has ended with a checkpoint (R353). -/
abbrev checkpointed (o : LongOp) (r : UnitResult) (s : State) : LongOp :=
  { o with unitsDone := o.unitsDone + 1, abandons := 0, slots := writeCkpt s o (o.unitsDone + 1) (partialsAfter o r), unitStart := none }

/-- What follows a work unit whose result has taken effect (R352 to R355). -/
def afterUnit (o o1 : LongOp) (final : Bool) (r : UnitResult) (tick : Tick) (s1 : State) : State :=
  if final then finishOp { o1 with state := .done } r s1
  else if o.state = .suspending then suspendNow o1 s1
  else setOp { o1 with unitStart := some tick, started := false } s1

theorem exec_workUnitEnd {ctx : Fin 32} {final : Bool} {r : UnitResult} : exec (.workUnitEnd ctx final r) s = .next (fabric s fun s =>
    match s.cnd.ops.find? fun o => o.ctx = ctx.val ∧ o.unitStart.isSome with
    | none => s
    | some o =>
      if importTooLarge o r then failOp o s
      else
      match unitEffect o final r s with
      | none => abandonUnit o s
      | some s1 => afterUnit o (checkpointed o r s) final r s.time.count s1) := rfl

theorem finishOp_eq {r : UnitResult} : ∃ l, finishOp o r s = freeLease 5 o.ctx (toldOp o 0x00 { s with cnd := { s.cnd with rowList := l } }) := by
  unfold finishOp
  split
  · exact ⟨_, rfl⟩
  · exact ⟨s.cnd.rowList, rfl⟩

theorem finishOp_ends {r : UnitResult} (final : opFinal o.state = true) : ∀ x ∈ (finishOp o r s).cnd.ops, x.ctx ≠ o.ctx := by
  obtain ⟨l, e⟩ := finishOp_eq (o := o) (r := r) (s := s)
  rw [e, freeLease_ops, toldOp_cnd]
  exact setOp_ends final

/-- What a work unit does that is not an operation's last leaves the operations. -/
theorem unitEffect_ops {r : UnitResult} (e : unitEffect o false r s = some u) : u.cnd.ops = s.cnd.ops := by
  unfold unitEffect at e
  split at e
  · cases e
  · rename_i c
    unfold importChunk at e
    extract_lets base prior at e
    split at e
    · obtain ⟨f, -, rfl⟩ := Option.map_eq_some_iff.mp e
      exact congrArg (·.ops) (showOrigin_keeps (shows_cnd (by decide)) rfl)
    · cases e
      rfl
  · cases e
    rfl
  · cases e
    exact congrArg (·.ops) (attestUnit_keeps (shows_cnd (by decide)) rfl)
  · cases e
    rfl
  · cases e
    rfl

theorem afterUnit_wld {o1 : LongOp} {final : Bool} {r : UnitResult} {tick : Tick} : (afterUnit o o1 final r tick s).wld = s.wld :=
  ite_keeps (P := fun t : State => t.wld = s.wld) (finishOp_keeps (shows_wld (by decide)) rfl)
    (ite_keeps (P := fun t : State => t.wld = s.wld) (suspendNow_keeps (shows_wld (by decide)) rfl) (setOp_keeps (shows_wld (by decide)) rfl))

theorem workUnitEnds {ctx : Fin 32} (up : fabricUp s = true) (inv : Inv s) (final : Bool) (r : UnitResult)
    (found : (s.cnd.ops.find? fun o => o.ctx = ctx.val ∧ o.unitStart.isSome) = some o) :
    (importTooLarge o r = true → Goes (.workUnitEnd ctx final r) s fun t => (∀ x ∈ t.cnd.ops, x.ctx ≠ o.ctx) ∧
      Answered (opAnswer s { o with state := .failed, unitStart := none } 0x19) s t) ∧
    (importTooLarge o r = false → unitEffect o final r s = none → Goes (.workUnitEnd ctx final r) s (UnitAbandoned o s)) ∧
    ∀ s1, importTooLarge o r = false → unitEffect o final r s = some s1 → opFinal o.state = false →
      Goes (.workUnitEnd ctx final r) s fun t => t.wld = s1.wld ∧
        (final = true → (∀ x ∈ t.cnd.ops, x.ctx ≠ o.ctx) ∧
          (r = .plain → Answered (opAnswer s { checkpointed o r s with state := .done } 0x00) s t)) ∧
        (final = false → o.state = .suspending → OpBecomes o { checkpointed o r s with state := .suspended } s t) ∧
        (final = false → o.state ≠ .suspending →
          OpBecomes o { checkpointed o r s with unitStart := some s.time.count, started := false } s t) := by
  have m : o ∈ s.cnd.ops := List.mem_of_find?_eq_some found
  have small : o.ctx < 32 := by
    have : o.ctx = ctx.val := (of_decide_eq_true (p := o.ctx = _ ∧ _) (List.find?_some found :)).1
    exact this ▸ ctx.isLt
  refine ⟨fun large => goes_fabric up exec_workUnitEnd ?_, fun fits fails => goes_fabric up exec_workUnitEnd ?_,
    fun s1 fits works live => goes_fabric up exec_workUnitEnd ?_⟩
  · rw [found]
    dsimp only
    rw [if_pos large]
    exact failOp_spec inv small
  · rw [found]
    dsimp only
    rw [if_neg (Bool.eq_false_iff.mp fits), fails]
    exact unitAbandoned inv m small
  · rw [found]
    dsimp only
    rw [if_neg (Bool.eq_false_iff.mp fits), works]
    refine ⟨afterUnit_wld, fun last => ?_, fun more suspends => ?_, fun more goes => ?_⟩
    · subst last
      refine ⟨finishOp_ends (o := { checkpointed o r s with state := .done }) rfl, fun plain => ?_⟩
      subst plain
      cases works
      exact freeLease_answered (toldOp_answered (o := { checkpointed o .plain s with state := .done }) small rfl (SameSending.refl s) inv.regs)
    · subst more
      have now : afterUnit o (checkpointed o r s) false r s.time.count s1 = suspendNow (checkpointed o r s) s1 := if_pos suspends
      show OpBecomes _ _ s (afterUnit o (checkpointed o r s) false r s.time.count s1)
      rw [now]
      exact OpBecomes.same (opBecomes_setOp (o' := suspended (checkpointed o r s)) m rfl rfl (unitEffect_ops works)) suspendNow_ops
    · subst more
      have on : afterUnit o (checkpointed o r s) false r s.time.count s1 =
          setOp { checkpointed o r s with unitStart := some s.time.count, started := false } s1 := if_neg goes
      show OpBecomes _ _ s (afterUnit o (checkpointed o r s) false r s.time.count s1)
      rw [on]
      exact opBecomes_setOp (o' := { checkpointed o r s with unitStart := some s.time.count, started := false }) m rfl live (unitEffect_ops works)

theorem workUnits {ctx : Fin 32} (up : fabricUp s = true) (inv : Inv s) : Claims.WorkUnits ctx s := by
  refine ⟨fun nothing final r => idle_fabric exec_workUnitEnd ?_, fun o final r found => workUnitEnds up inv final r found,
    fun nothing => idle_fabric (f := fun s => match s.cnd.ops.find? fun o => o.ctx = ctx.val ∧ o.started ∧
        (o.unitStart.map fun t => decide (t + 50000 ≤ s.time.count)) = some true with
      | some o => abandonUnit o s
      | none => s) rfl ?_, fun o found => goes_fabric up rfl ?_⟩
  · rw [nothing]
  · rw [nothing]
  · rw [found]
    have ctx' : o.ctx = ctx.val := (of_decide_eq_true (p := o.ctx = _ ∧ _) (List.find?_some found :)).1
    exact unitAbandoned inv (List.mem_of_find?_eq_some found) (ctx' ▸ ctx.isLt)

end

/-- Settles O44: a command acts on the operation of its context, which `setOp` puts in the place of every one of that context; the answers
go out with the client's slot, which no register that is written before them holds. -/
theorem longOperations : Obligations.LongOperations := by
  unfold Obligations.LongOperations
  exact fun s up inv => ⟨fun port q => longOperationCommands up inv, fun ctx => workUnits up inv⟩

end Sys2Proof.Machine

end

section

set_option Elab.async false

/-! # Staged swaps (R462, R463, R468, R561 to R568, R572) -/

namespace Sys2Proof.Machine

open Sys2Proof.Claims (WoadSends SwapRefused ProposalRefused StagingEnds)

section
variable {s t u : State} {o : OpenSwap} {c : RecSwap} {e : FrameNo} {m : WoadMsg} {n reason told mask : Nat}

/-! ## Messages and refusals -/

/-- A message that is not HELLO goes out where the link and the session allow it. -/
theorem sendWoad_sends (sealed : ∀ b nonce, m ≠ .hello b nonce) (n : Nat) (s : State) : WoadSends n m s (sendWoad n m s) := by
  have is : sendWoad n m s = sendSealed n (woadType m) (woadPayload s.fuse.deviceId m) (fun c ms => .woad n c m ms) s := by
    unfold sendWoad
    extract_lets p
    split
    · rename_i b nonce
      exact absurd rfl (sealed b nonce)
    · rfl
  rw [is]
  unfold WoadSends sendSealed
  extract_lets c
  cases linked : s.twin.linkUp <;> cases session : s.twin.session <;> rfl

/-- The way of a message depends on the twin's state, on the fuses and on the own position. -/
theorem woadSends_of_same (h : WoadSends n m t u) (twin : t.twin = s.twin) (sent : t.sent = s.sent) (fuse : t.fuse = s.fuse)
    (boot : t.boot = s.boot) : WoadSends n m s u := by
  unfold WoadSends ownDir at h ⊢
  rw [twin, sent, fuse, boot] at h
  exact h

theorem woadSends_then (h : WoadSends n m s t) (sent : u.sent = t.sent) : WoadSends n m s u := by
  unfold WoadSends at h ⊢
  rw [sent]
  exact h

theorem pairRefused_keeps_records {r : QueuedRec} (h : r ∈ s.log.queue) : r ∈ (pairRefused e reason s).log.queue := by
  unfold pairRefused
  rw [bump_keeps (shows_log (by decide)) rfl]
  exact report_warning_keeps_records (Nat.le_refl 1) h

theorem tellRefusal_keeps_records {twin : Bool} {edge : Option FrameNo} {r : QueuedRec} (h : r ∈ s.log.queue) :
    r ∈ (tellRefusal twin edge reason s).log.queue := by
  unfold tellRefusal
  split
  · exact h
  · rename_i e
    extract_lets formed s1
    have sent : r ∈ s1.log.queue := by
      have same : s1.log = s.log := ite_keeps (P := fun t : State => t.log = s.log) (sendWoad_keeps (shows_log (by decide)) rfl) rfl
      rw [same]
      exact h
    exact ite_keeps (P := fun t : State => r ∈ t.log.queue) (pairRefused_keeps_records sent) sent

/-- The reset of staged copies leaves the open swap, and the origin of a re-centring. -/
theorem resetStaged_open (mask : Nat) (s : State) :
    (resetStaged mask s).swap.user = s.swap.user ∧ (resetStaged mask s).swap.recentre = s.swap.recentre := by
  unfold resetStaged
  extract_lets s1 wld s2
  have first : s1.swap = s.swap := foldl_keeps (P := fun t : State => t.swap = s.swap) (fun _ _ h => setReg_keeps (shows_swap (by decide)) h) _ _ rfl
  have second : s2.swap = s.swap := ite_keeps (P := fun t : State => t.swap = s.swap) first first
  rw [← second]
  exact ite_keeps (P := fun t : State => t.swap.user = s2.swap.user ∧ t.swap.recentre = s2.swap.recentre) ⟨rfl, rfl⟩ ⟨rfl, rfl⟩

theorem swapRefused_recorded {recentre : Bool} (log : t.log = s.log) (room : s.log.queue.length < 256) :
    Recorded (swapRefused reason mask recentre t) swapUnit 0x10 5 1 := by
  unfold swapRefused
  rw [← log] at room
  exact report_recorded room

/-- A refusal is recorded where it is told. -/
theorem swapRefused_tells {recentre twin : Bool} {edge : Option FrameNo} (log : t.log = s.log) (room : s.log.queue.length < 256) :
    Recorded (tellRefusal twin edge told (swapRefused reason mask recentre t)) swapUnit 0x10 5 1 := by
  obtain ⟨r, hr, is⟩ := swapRefused_recorded (reason := reason) (mask := mask) (recentre := recentre) log room
  exact ⟨r, tellRefusal_keeps_records hr, is⟩

/-- The open swap of the users, o, is refused. -/
theorem refuseUserAs_refuses (opened : t.swap.user = some o) (frame : t.frame = s.frame) (log : t.log = s.log) :
    SwapRefused s (refuseUserAs reason told t) := by
  unfold refuseUserAs
  rw [opened]
  dsimp only
  refine ⟨?_, ?_, fun room => ?_⟩
  · rw [tellRefusal_keeps (shows_swap (by decide)) (swapRefused_keeps (shows_swap (by decide)) (setFld_keeps (shows_swap (by decide))
      (showSwap_keeps (shows_swap (by decide)) rfl)))]
    exact (resetStaged_open o.mask _).1
  · rw [tellRefusal_keeps (shows_frame (by decide)) (swapRefused_keeps (shows_frame (by decide)) (setFld_keeps (shows_frame (by decide))
      (showSwap_keeps (shows_frame (by decide)) (resetStaged_keeps (shows_frame (by decide)) rfl))))]
    exact frame
  · exact swapRefused_tells (setFld_keeps (shows_log (by decide)) (showSwap_keeps (shows_log (by decide))
      (resetStaged_keeps (shows_log (by decide)) log))) room

theorem refuseUser_refuses (opened : s.swap.user = some o) : SwapRefused s (refuseUser reason s) := refuseUserAs_refuses opened rfl rfl

/-- The re-centring of the pair is refused. -/
theorem refuseRecentreAs_refuses (opened : t.swap.recentre = some c) (log : t.log = s.log) (user : t.swap.user = s.swap.user) :
    (refuseRecentreAs reason told t).swap.recentre = none ∧ (refuseRecentreAs reason told t).swap.user = s.swap.user ∧
      (s.log.queue.length < 256 → Recorded (refuseRecentreAs reason told t) swapUnit 0x10 5 1) := by
  unfold refuseRecentreAs
  rw [opened]
  dsimp only
  rw [tellRefusal_keeps (shows_swap (by decide)) (swapRefused_keeps (shows_swap (by decide)) (bump_keeps (shows_swap (by decide))
      (setFld_keeps (shows_swap (by decide)) rfl)))]
  exact ⟨rfl, user, swapRefused_tells (bump_keeps (shows_log (by decide)) (setFld_keeps (shows_log (by decide)) log))⟩

/-- The state in which a request that opens no swap has its staged copies reset, and the registers show the refusal. -/
def unopened (reason mask : Nat) (s : State) : State :=
  let held := (s.swap.user.map (·.mask)).getD 0
  let s1 := setFld F.CND_SWAP_FRAME_FRAME (frameN s) (setFld F.CND_SWAP_STAT_REASON reason
    (resetStaged (mask &&& (0x1FFF - held % 2 ^ 13)) s))
  if s.swap.user.isNone then setFld F.CND_SWAP_STAT_STATE 4 (setFld F.CND_SWAP_STAT_STAGED 0 s1) else s1

theorem refuseUnopened_eq : refuseUnopened reason mask s = swapRefused reason mask false (unopened reason mask s) := rfl

theorem unopened_keeps {P : State → Prop} (C : Keeps [.regs] P) (h : ∀ n, P (resetStaged n s)) : P (unopened reason mask s) :=
  have shown := setFld_keeps (f_1 := F.CND_SWAP_FRAME_FRAME) (v_2 := frameN s) (C.mono (by decide))
    (setFld_keeps (f_1 := F.CND_SWAP_STAT_REASON) (v_2 := reason) (C.mono (by decide)) (h _))
  ite_keeps (setFld_keeps (C.mono (by decide)) (setFld_keeps (C.mono (by decide)) shown)) shown

/-- A request that opens no swap is recorded. -/
theorem refuseUnopened_spec : (refuseUnopened reason mask s).swap.user = s.swap.user ∧
    (s.log.queue.length < 256 → Recorded (refuseUnopened reason mask s) swapUnit 0x10 5 1) := by
  rw [refuseUnopened_eq]
  refine ⟨?_, swapRefused_recorded (unopened_keeps (shows_log (by decide)) fun n => resetStaged_keeps (shows_log (by decide)) rfl)⟩
  rw [swapRefused_keeps (shows_swap (by decide)) rfl]
  exact unopened_keeps (.of_shows (f := (·.swap)) (fun _ => shows_swap (by decide)) (·.user = _)) fun n => (resetStaged_open n s).1

/-! ## A request opens a swap -/

theorem openUser_user {origin : SwapOrigin} {target : Nat} {edge : Option FrameNo} : (openUser origin mask target edge s).swap =
    { s.swap with user := some ⟨mask, origin, s.frame.num, target, 0, edge, false, false⟩ } :=
  showSwap_keeps (shows_swap (by decide)) rfl

/-- The staged tables of a request, where no swap is open. -/
theorem stageTables_spec {tbl : StagedTables} (idle : s.swap.user = none) :
    (stageTables tbl s).swap.user = none ∧ (stageTables tbl s).swap.grantsStaged = (tbl.grants.orElse fun _ => s.swap.grantsStaged) ∧
      (stageTables tbl s).wld.koStaged = tbl.keepOut.foldl (fun l k => modAt k.1.val (fun _ => k.2) l) s.wld.koStaged := by
  unfold stageTables
  rw [idle]
  exact ⟨idle, rfl, rfl⟩

/-- The request of requester r for a swap of a mask, before it opens or is turned away. -/
def requested (r : Requester) (mask : BitVec 13) (tbl : StagedTables) (s : State) : State :=
  stageTables tbl (if r = .host then setFld F.SUP_SWAP_CTL_MASK mask.toNat s else setFld F.CND_SWAP_CTL_MASK mask.toNat s)

theorem requested_keeps {P : State → Prop} {r : Requester} {mask : BitVec 13} {tbl : StagedTables} (C : Keeps [.regs, .wld, .swap] P) (h : P s) :
    P (requested r mask tbl s) :=
  stageTables_keeps (C.mono (by decide)) (ite_keeps (setFld_keeps (C.mono (by decide)) h) (setFld_keeps (C.mono (by decide)) h))

theorem stageTables_user {tbl : StagedTables} : (stageTables tbl s).swap.user = s.swap.user := by
  unfold stageTables
  extract_lets held wld s1
  have first : s1.swap.user = s.swap.user := ite_keeps (P := fun t : State => t.swap.user = s.swap.user) rfl rfl
  exact ite_keeps (P := fun t : State => t.swap.user = s.swap.user) first first

theorem requested_user {r : Requester} {mask : BitVec 13} {tbl : StagedTables} : (requested r mask tbl s).swap.user = s.swap.user :=
  stageTables_user.trans (ite_keeps (P := fun t : State => t.swap.user = s.swap.user) rfl rfl)

theorem exec_swapRequest {r : Requester} {mask : BitVec 13} {tbl : StagedTables} : exec (.swapRequest r mask tbl) s = .next (fabric s fun s =>
    if s.swap.user.isSome then refuseUnopened 5 mask.toNat (requested r mask tbl s)
    else
      match r with
      | .warden => openUser .core mask.toNat (fld s F.CND_SWAP_TARGET_TARGET) none (requested r mask tbl s)
      | .host =>
        if mask.toNat &&& s.image.hostWriteMask.toNat = mask.toNat then
          openUser .host mask.toNat (fld s F.SUP_SWAP_TARGET_TARGET) none (requested r mask tbl s)
        else refuseUnopened 10 mask.toNat (requested r mask tbl s)
      | _ => refuseUnopened 10 mask.toNat (requested r mask tbl s)) := rfl

theorem requested_spec {r : Requester} {mask : BitVec 13} {tbl : StagedTables} (idle : s.swap.user = none) :
    (requested r mask tbl s).swap.user = none ∧
      (requested r mask tbl s).swap.grantsStaged = (tbl.grants.orElse fun _ => s.swap.grantsStaged) ∧
      (requested r mask tbl s).wld.koStaged = tbl.keepOut.foldl (fun l k => modAt k.1.val (fun _ => k.2) l) s.wld.koStaged := by
  unfold requested
  have swap : (if r = .host then setFld F.SUP_SWAP_CTL_MASK mask.toNat s else setFld F.CND_SWAP_CTL_MASK mask.toNat s).swap = s.swap :=
    ite_keeps (P := fun t : State => t.swap = s.swap) rfl rfl
  have wld : (if r = .host then setFld F.SUP_SWAP_CTL_MASK mask.toNat s else setFld F.CND_SWAP_CTL_MASK mask.toNat s).wld = s.wld :=
    ite_keeps (P := fun t : State => t.wld = s.wld) rfl rfl
  have is := stageTables_spec (s := if r = .host then setFld F.SUP_SWAP_CTL_MASK mask.toNat s else setFld F.CND_SWAP_CTL_MASK mask.toNat s)
    (tbl := tbl) (by rw [swap]; exact idle)
  rw [swap, wld] at is
  exact is

/-- A request that is turned away while none is open. -/
theorem unopened_refuses {r : Requester} {mask : BitVec 13} {tbl : StagedTables} (idle : s.swap.user = none) :
    SwapRefused s (refuseUnopened reason mask.toNat (requested r mask tbl s)) := by
  obtain ⟨user, told⟩ := refuseUnopened_spec (reason := reason) (mask := mask.toNat) (s := requested r mask tbl s)
  refine ⟨user.trans (requested_spec idle).1, ?_, fun room => told ?_⟩
  · exact refuseUnopened_keeps (shows_frame (by decide)) (requested_keeps (shows_frame (by decide)) rfl)
  · rw [requested_keeps (shows_log (by decide)) rfl]
    exact room

/-- What a request that opens a swap makes of the state. -/
theorem openUser_opens {r : Requester} {mask : BitVec 13} {tbl : StagedTables} {origin : SwapOrigin} {target : Nat} (idle : s.swap.user = none) :
    (openUser origin mask.toNat target none (requested r mask tbl s)).swap.user =
        some ⟨mask.toNat, origin, s.frame.num, target, 0, none, false, false⟩ ∧
      (openUser origin mask.toNat target none (requested r mask tbl s)).wld.koStaged =
        tbl.keepOut.foldl (fun l k => modAt k.1.val (fun _ => k.2) l) s.wld.koStaged ∧
      (openUser origin mask.toNat target none (requested r mask tbl s)).swap.grantsStaged = (tbl.grants.orElse fun _ => s.swap.grantsStaged) := by
  obtain ⟨-, grants, keepOut⟩ := requested_spec (r := r) (mask := mask) (tbl := tbl) idle
  have frame : (requested r mask tbl s).frame = s.frame := requested_keeps (shows_frame (by decide)) rfl
  rw [openUser_user, openUser_keeps (shows_wld (by decide)) rfl, frame]
  exact ⟨rfl, keepOut, grants⟩

theorem swapsOpen (up : fabricUp s = true) (mask : BitVec 13) (tbl : StagedTables) : Claims.SwapsOpen mask tbl s := by
  refine ⟨fun idle => ?_, fun r o opened => goes_fabric up exec_swapRequest ?_⟩
  · have closed : ¬ s.swap.user.isSome = true := by rw [idle]; exact Bool.false_ne_true
    refine ⟨goes_fabric up exec_swapRequest ?_, fun may => goes_fabric up exec_swapRequest ?_, fun r core host => goes_fabric up exec_swapRequest ?_⟩
    · rw [if_neg closed]
      exact openUser_opens idle
    · rw [if_neg closed]
      dsimp only
      rw [if_pos may]
      exact openUser_opens idle
    · rw [if_neg closed]
      split
      · exact absurd rfl core
      · rw [if_neg fun may => host ⟨rfl, may⟩]
        exact unopened_refuses idle
      · exact unopened_refuses idle
  · rw [if_pos (by rw [opened]; rfl)]
    obtain ⟨user, told⟩ := refuseUnopened_spec (reason := 5) (mask := mask.toNat) (s := requested r mask tbl s)
    refine ⟨user.trans (requested_user.trans opened), ?_, ?_, fun room => told ?_⟩
    · exact refuseUnopened_keeps (shows_frame (by decide)) (requested_keeps (shows_frame (by decide)) rfl)
    · exact refuseUnopened_keeps (shows_mem (by decide)) (requested_keeps (shows_mem (by decide)) rfl)
    · rw [requested_keeps (shows_log (by decide)) rfl]
      exact room

/-! ## Staging -/

/-- A swap that is agreed shows its edge (R564, R568). -/
def agreedFor (x : OpenSwap) (e : FrameNo) (s : State) : State :=
  setFld F.CND_SWAP_FRAME_FRAME e.toNat (setFld F.CND_SWAP_STAT_STATE 2 { s with swap := { s.swap with user := some x } })

/-- What the last report of an open swap leads to (R564, R566, R568). -/
theorem stagingEnds (opened : s.swap.user = some o) : StagingEnds o s (allStaged o s) := by
  have shared_iff : (paired s && !deviceLocalSwap s o.mask) = true ↔ paired s = true ∧ deviceLocalSwap s o.mask = false := by
    rw [Bool.and_eq_true, Bool.not_eq_true']
  unfold StagingEnds allStaged
  extract_lets f2 tgt put named first wanted shared fits
  refine ⟨fun full => ?_, fun room twin => ?_, fun room own sharing b => ?_, fun room own sharing a => ?_, fun room own alone => ?_⟩
  · rw [if_pos (Nat.lt_of_not_le full)]
    exact refuseUser_refuses opened
  · rw [if_neg (Nat.not_lt_of_le room), if_pos twin]
    refine ⟨?_, sendWoad_sends (by exact fun _ _ h => nomatch h) 0 s⟩
    rw [sendWoad_keeps (shows_swap (by decide)) rfl]
    exact opened
  · rw [if_neg (Nat.not_lt_of_le room), if_neg own, if_pos (shared_iff.mpr sharing), if_pos b]
    exact refuseUser_refuses opened
  · rw [if_neg (Nat.not_lt_of_le room), if_neg own, if_pos (shared_iff.mpr sharing), if_neg a]
    refine ⟨?_, woadSends_of_same (sendWoad_sends (by exact fun _ _ h => nomatch h) 0 _) rfl rfl rfl rfl⟩
    rw [sendWoad_keeps (shows_swap (by decide)) rfl]
  · rw [if_neg (Nat.not_lt_of_le room), if_neg own, if_neg fun sharing => alone (shared_iff.mp sharing)]
    refine ⟨fun now => ?_, fun later reached => ?_, fun later passed => ?_⟩
    · rw [if_pos now]
      exact congrArg (·.user) (setFld_keeps (shows_swap (by decide)) (setFld_keeps (shows_swap (by decide)) rfl))
    · rw [if_neg later, if_pos reached]
      exact congrArg (·.user) (setFld_keeps (shows_swap (by decide)) (setFld_keeps (shows_swap (by decide)) rfl))
    · rw [if_neg later, if_neg (Bool.eq_false_iff.mp passed)]
      exact refuseUser_refuses opened

theorem exec_stageReport {k : Fin 13} : exec (.stageReport k) s = .next (fabric s fun s =>
    match s.swap.user with
    | none => s
    | some o =>
      if !o.mask.testBit k.val || o.staged.testBit k.val || o.agreed then s
      else
        match stageReason s o.mask k.val with
        | 0 =>
          let o' := { o with staged := o.staged ||| 2 ^ k.val }
          let s1 := setFld F.CND_SWAP_STAT_STAGED o'.staged { s with swap := { s.swap with user := some o' } }
          if o'.staged = o.mask then allStaged o' s1 else s1
        | r => refuseUser r s) := rfl

theorem subsystemsReport {k : Fin 13} (up : fabricUp s = true) (opened : s.swap.user = some o) : Claims.SubsystemsReport o k s := by
  have asked_iff : (!o.mask.testBit k.val || o.staged.testBit k.val || o.agreed) = true ↔
      ¬(o.mask.testBit k.val = true ∧ o.staged.testBit k.val = false ∧ o.agreed = false) := by
    cases o.mask.testBit k.val <;> cases o.staged.testBit k.val <;> cases o.agreed <;> decide
  refine ⟨fun idle => idle_fabric exec_stageReport ?_, fun asked bad => goes_fabric up exec_stageReport ?_, fun asked good =>
    ⟨fun more => ?_, fun last => goes_fabric up exec_stageReport ?_⟩⟩
  · rw [opened]
    exact if_pos (asked_iff.mpr idle)
  · rw [opened]
    dsimp only
    rw [if_neg fun idle => asked_iff.mp idle asked]
    split
    · exact absurd ‹_› bad
    · exact refuseUser_refuses opened
  · rw [exec_stageReport, fabric_of_up up, opened]
    dsimp only
    rw [if_neg fun idle => asked_iff.mp idle asked, good]
    exact congrArg _ (if_neg more)
  · rw [opened]
    dsimp only
    rw [if_neg fun idle => asked_iff.mp idle asked, good]
    rw [if_pos last]
    exact stagingEnds (congrArg (·.user) (setFld_keeps (shows_swap (by decide)) rfl))

theorem exec_swapCancel {r : Requester} : exec (.swapCancel r) s = .next (live s fun s =>
    match s.swap.user with
    | none => s
    | some o => if o.committed || o.origin = .twin || !(r = .warden || r = .host) then s else refuseUser 9 s) := rfl

theorem exec_stageLimitExpiry : exec .stageLimitExpiry s = .next (fabric s fun s =>
    match s.swap.user with
    | none => s
    | some o =>
      if !o.agreed && !o.committed && decide (frameDist o.opened s.frame.num ≥ fld s F.CND_SWAP_LIMIT_STAGE_LIMIT) then refuseUser 3 s
      else s) := rfl

theorem userSwaps (up : fabricUp s = true) : Claims.UserSwaps s := by
  refine ⟨swapsOpen up, fun idle => ⟨fun r => idle_live exec_swapCancel ?_, fun k => idle_fabric exec_stageReport ?_,
    idle_fabric exec_stageLimitExpiry ?_⟩, fun o opened => ⟨fun r => ?_, fun k => subsystemsReport up opened, ?_⟩⟩
  · rw [idle]
  · rw [idle]
  · rw [idle]
  · have may_iff : (o.committed || decide (o.origin = .twin) || !(decide (r = .warden) || decide (r = .host))) = true ↔
        ¬(o.committed = false ∧ o.origin ≠ .twin ∧ (r = .warden ∨ r = .host)) := by
      rw [Bool.or_eq_true, Bool.or_eq_true, decide_eq_true_iff, Bool.not_eq_true', Bool.or_eq_false_iff, decide_eq_false_iff_not, decide_eq_false_iff_not,
        not_and_or, not_and_or, not_not, not_or, Bool.not_eq_false, or_assoc]
    refine ⟨fun may => goes_live (running_of_fabricUp up) exec_swapCancel ?_, fun no => idle_live exec_swapCancel ?_⟩
    · rw [opened]
      dsimp only
      rw [if_neg fun no => may_iff.mp no may]
      exact refuseUser_refuses opened
    · rw [opened]
      exact if_pos (may_iff.mpr no)
  · have due_iff : (!o.agreed && !o.committed && decide (frameDist o.opened s.frame.num ≥ fld s F.CND_SWAP_LIMIT_STAGE_LIMIT)) = true ↔
        o.agreed = false ∧ o.committed = false ∧ fld s F.CND_SWAP_LIMIT_STAGE_LIMIT ≤ frameDist o.opened s.frame.num := by
      rw [Bool.and_eq_true, Bool.and_eq_true, Bool.not_eq_true', Bool.not_eq_true', decide_eq_true_iff, and_assoc]
    refine ⟨fun due => goes_fabric up exec_stageLimitExpiry ?_, fun early => idle_fabric exec_stageLimitExpiry ?_⟩
    · rw [opened]
      dsimp only
      rw [if_pos (due_iff.mpr due)]
      exact refuseUser_refuses opened
    · rw [opened]
      exact if_neg fun due => early (due_iff.mp due)

/-! ## The agreement of a pair -/

theorem stagedReg_addr {a : Nat} (h : (stagedReg a).isSome = true) : a / 0x8000 % 2 = 1 := by
  by_contra live
  rw [stagedReg, if_neg live] at h
  cases h

/-- The values of a proposal stand in the staged copies. -/
theorem stagedVals_stand {vals : List StagedVal} (wf : Regs.wf s.image s.regs) (once : vals.Pairwise fun a b => a.addr ≠ b.addr) :
    ∀ v ∈ vals, regWord (vals.foldl (fun s v => setReg s (v.addr + 0x8000) v.val.toNat) s) (v.addr + 0x8000) = v.val.toNat := by
  have away (a : Nat) (vs : List StagedVal) (other : ∀ v ∈ vs, a ≠ v.addr) (s : State) :
      regWord (vs.foldl (fun s v => setReg s (v.addr + 0x8000) v.val.toNat) s) (a + 0x8000) = regWord s (a + 0x8000) := by
    induction vs generalizing s with
    | nil => rfl
    | cons v vs ih =>
      rw [List.foldl_cons, ih (fun u hu => other u (List.mem_cons_of_mem _ hu))]
      exact regWord_setReg_ne fun e => other v List.mem_cons_self (Nat.add_right_cancel e)
  induction vals generalizing s with
  | nil => exact fun v hv => absurd hv List.not_mem_nil
  | cons x vs ih =>
    obtain ⟨first, rest⟩ := List.pairwise_cons.mp once
    intro v hv
    rcases List.mem_cons.mp hv with rfl | hv
    · rw [List.foldl_cons, away v.addr vs first, regWord_setReg_same wf.1]
      exact Nat.mod_eq_of_lt v.val.isLt
    · exact ih (setReg_wf wf) rest v hv

theorem exec_propose {m : ProposeMsg} : exec (.propose m) s = .next (fabric s fun s =>
    if s.twin.pair ≠ .pairedB then s
    else if m.digest ≠ stagedDigest m.vals m.tables m.recentre then
      pairRefused m.s (Config.freeValue s.free % 256) (sendWoad 0 (.refuse m.s (Config.freeValue s.free % 256)) { s with free := s.free + 1 })
    else
      match m.recentre with
      | some (dx, dy) => setFld F.CND_RECENTER_STAT_STATE 1 { s with swap := { s.swap with recentre := some ⟨dx, dy, s.frame.num, some m.s, false, false, true⟩ } }
      | none =>
        if s.swap.user.isSome then pairRefused m.s 5 (sendWoad 0 (.refuse m.s 5) s)
        else openUser .twin m.mask.toNat m.s.toNat (some m.s)
          (m.vals.foldl (fun s v => setReg s (v.addr + 0x8000) v.val.toNat) (stageTables m.tables s))) := rfl

/-- A proposal that is refused is answered, counted and recorded (R462, R468). -/
theorem proposalRefused (inv : Inv s) (same : t.twin = s.twin ∧ t.swap = s.swap ∧ t.sent = s.sent ∧ t.fuse = s.fuse ∧ t.boot = s.boot ∧
      t.regs = s.regs ∧ t.image = s.image ∧ t.log = s.log) :
    ProposalRefused e reason s (pairRefused e reason (sendWoad 0 (.refuse e reason) t)) := by
  obtain ⟨twin, swap, sent, fuse, boot, regs, image, log⟩ := same
  refine ⟨?_, ?_, ?_, fun room => ?_⟩
  · rw [pairRefused_keeps (shows_swap (by decide)) (sendWoad_keeps (shows_swap (by decide)) swap)]
  · exact woadSends_then (woadSends_of_same (sendWoad_sends (by exact fun _ _ h => nomatch h) 0 t) twin sent fuse boot) (pairRefused_keeps (shows_sent_eq (by decide)) rfl)
  · have regs' : (sendWoad 0 (.refuse e reason) t).regs = s.regs := sendWoad_keeps (shows_regs (by decide)) regs
    have image' : (sendWoad 0 (.refuse e reason) t).image = s.image := sendWoad_keeps (shows_image (by decide)) image
    have wf : Regs.wf (sendWoad 0 (.refuse e reason) t).image (sendWoad 0 (.refuse e reason) t).regs := by
      rw [image', regs']
      exact inv.regs
    unfold pairRefused
    refine (counted_bump (report_keeps (keeps_regs_wf (by decide)) wf) (by decide)).trans ?_
    rw [fld_report (by decide)]
    unfold fld
    rw [regWord_congr image' regs']
  · have room' : (sendWoad 0 (.refuse e reason) t).log.queue.length < 256 := by
      rw [sendWoad_keeps (shows_log (by decide)) log]
      exact room
    unfold pairRefused Recorded
    rw [bump_keeps (shows_log (by decide)) rfl]
    exact report_recorded room'

theorem proposals (up : fabricUp s = true) (inv : Inv s) (m : ProposeMsg) : Claims.Proposals m s := by
  refine ⟨fun other => idle_fabric exec_propose (if_pos other), fun b => ⟨fun bad => ?_, fun good d recentre => goes_fabric up exec_propose ?_,
    fun good own busy => goes_fabric up exec_propose ?_, fun good own idle => goes_fabric up exec_propose ?_⟩⟩
  · refine goes_fabric up exec_propose ?_
    rw [if_neg (not_not.mpr b), if_pos bad]
    exact ⟨_, Nat.mod_lt _ (by decide), proposalRefused inv ⟨rfl, rfl, rfl, rfl, rfl, rfl, rfl, rfl⟩⟩
  · rw [if_neg (not_not.mpr b), if_neg (not_not.mpr good), recentre]
    exact ⟨rfl, rfl⟩
  · rw [if_neg (not_not.mpr b), if_neg (not_not.mpr good), own]
    dsimp only
    rw [if_pos busy]
    exact proposalRefused inv ⟨rfl, rfl, rfl, rfl, rfl, rfl, rfl, rfl⟩
  · rw [if_neg (not_not.mpr b), if_neg (not_not.mpr good), own]
    dsimp only
    rw [if_neg (by rw [idle]; exact Bool.false_ne_true)]
    let staged := m.vals.foldl (fun s v => setReg s (v.addr + 0x8000) v.val.toNat) (stageTables m.tables s)
    have frame : staged.frame = s.frame :=
      foldl_keeps (P := fun t : State => t.frame = s.frame) (fun _ _ h => setReg_keeps (shows_frame (by decide)) h) _ _
        (stageTables_keeps (shows_frame (by decide)) rfl)
    refine ⟨?_, fun known once v hv => ?_⟩
    · rw [openUser_user]
      show some _ = some _
      rw [show (m.vals.foldl (fun s v => setReg s (v.addr + 0x8000) v.val.toNat) (stageTables m.tables s)).frame = s.frame from frame]
    · have apart : v.addr + 0x8000 ∉ [F.CND_SWAP_STAT_STATE.addr] := by
        intro here
        have odd := stagedReg_addr (known v hv)
        rw [List.mem_singleton.mp here] at odd
        revert odd
        decide
      have shown : SameRegsBut [F.CND_SWAP_STAT_STATE.addr] staged (openUser .twin m.mask.toNat m.s.toNat (some m.s) staged) :=
        .setFld (.setFld (.setFld ((SameRegsBut.refl _ staged).same rfl rfl) (by decide)) (by decide)) (by decide)
      exact (shown _ apart).trans (stagedVals_stand (stageTables_keeps (keeps_regs_wf (by decide)) inv.regs) once v hv)

/-- A swap that the twin has acknowledged. -/
def committedFor (o : OpenSwap) (e : FrameNo) (s : State) : State :=
  setFld F.CND_SWAP_FRAME_FRAME e.toNat (setFld F.CND_SWAP_STAT_STATE 2
    { s with swap := { s.swap with user := some { o with committed := true } } })

/-- What an acknowledgement makes of a re-centring. -/
def ackRecentre (e : FrameNo) (s : State) : State :=
  match s.swap.recentre with
  | some c => if c.edge = some e && !c.twin then sendWoad 0 (.commit e) { s with swap := { s.swap with recentre := some { c with committed := true } } } else s
  | none => s

theorem exec_ack : exec (.ack e) s = .next (fabric s fun s =>
    if s.twin.pair ≠ .pairedA || frameGe s.frame.num (e - 2) then s
    else
      match s.swap.user with
      | some o => if o.edge = some e && o.origin ≠ .twin then sendWoad 0 (.commit e) (committedFor o e s) else ackRecentre e s
      | none => ackRecentre e s) := by
  refine congrArg (fun f => Host.Outcome.next (fabric s f)) (funext fun u => ?_)
  refine congrArg (ite _ u) ?_
  unfold ackRecentre
  cases u.swap.user <;> cases u.swap.recentre <;> rfl

theorem exec_commitAck : exec (.commitAck e) s = .next (fabric s fun s =>
    if frameGe s.frame.num e then s
    else { s with swap := { s.swap with
      user := s.swap.user.map fun o => if o.edge = some e && o.committed && o.origin ≠ SwapOrigin.twin then { o with agreed := true } else o
      recentre := s.swap.recentre.map fun c => if c.edge = some e && c.committed && !c.twin then { c with agreed := true } else c } }) := rfl

theorem own_iff : (decide (o.edge = some e) && decide (o.origin ≠ .twin)) = true ↔ o.edge = some e ∧ o.origin ≠ .twin := by
  rw [Bool.and_eq_true, decide_eq_true_iff, decide_eq_true_iff]

theorem ownRecentre_iff : (decide (c.edge = some e) && !c.twin) = true ↔ c.edge = some e ∧ c.twin = false := by
  rw [Bool.and_eq_true, decide_eq_true_iff, Bool.not_eq_true']

theorem committedFor_sends : WoadSends 0 (.commit e) s (sendWoad 0 (.commit e) (committedFor o e s)) ∧
    (sendWoad 0 (.commit e) (committedFor o e s)).swap = { s.swap with user := some { o with committed := true } } := by
  refine ⟨woadSends_of_same (sendWoad_sends (by exact fun _ _ h => nomatch h) 0 _) ?_ ?_ ?_ ?_, sendWoad_keeps (shows_swap (by decide)) ?_⟩
  · exact setFld_keeps (shows_twin (by decide)) (setFld_keeps (shows_twin (by decide)) rfl)
  · exact setFld_keeps (shows_sent_eq (by decide)) (setFld_keeps (shows_sent_eq (by decide)) rfl)
  · exact setFld_keeps (shows_fuse (by decide)) (setFld_keeps (shows_fuse (by decide)) rfl)
  · exact setFld_keeps (shows_boot (by decide)) (setFld_keeps (shows_boot (by decide)) rfl)
  · exact setFld_keeps (shows_swap (by decide)) (setFld_keeps (shows_swap (by decide)) rfl)

/-- The agreement of the pair on a swap for edge e reaches the follower's own. -/
def commitUser (e : FrameNo) (s : State) : State :=
  match s.swap.user with
  | some o =>
    if o.edge = some e && o.origin = SwapOrigin.twin && o.staged = o.mask then
      agreedFor { o with committed := true, agreed := true } e s
    else s
  | none => s

/-- The agreement of the pair on a re-centring for edge e reaches the follower's own. -/
def commitRecentre (e : FrameNo) (s : State) : State :=
  match s.swap.recentre with
  | some c =>
    if c.edge = some e && c.twin then
      setFld F.CND_RECENTER_STAT_STATE 2 { s with swap := { s.swap with recentre := some { c with committed := true, agreed := true } } }
    else s
  | none => s

/-- The swap for edge e, or the re-centring, that the twin has proposed is agreed. -/
def twinAgreed (e : FrameNo) (s : State) : Bool :=
  (s.swap.user.any fun o => o.agreed && o.origin = .twin && o.edge = some e) ||
    s.swap.recentre.any fun c => c.agreed && c.twin && c.edge = some e

theorem exec_commit : exec (.commit e) s = .next (fabric s fun s =>
    if frameGe s.frame.num e then s
    else if twinAgreed e (commitRecentre e (commitUser e s)) then sendWoad 0 (.commitAck e) (commitRecentre e (commitUser e s))
    else commitRecentre e (commitUser e s)) := rfl

theorem theirs_iff : (decide (o.edge = some e) && decide (o.origin = .twin) && decide (o.staged = o.mask)) = true ↔
    o.edge = some e ∧ o.origin = .twin ∧ o.staged = o.mask := by
  rw [Bool.and_eq_true, Bool.and_eq_true, decide_eq_true_iff, decide_eq_true_iff, decide_eq_true_iff, and_assoc]

theorem theirsRecentre_iff : (decide (c.edge = some e) && c.twin) = true ↔ c.edge = some e ∧ c.twin = true := by
  rw [Bool.and_eq_true, decide_eq_true_iff]

theorem commitUser_of_theirs (opened : s.swap.user = some o) (theirs : o.edge = some e ∧ o.origin = .twin ∧ o.staged = o.mask) :
    commitUser e s = agreedFor { o with committed := true, agreed := true } e s := by
  unfold commitUser
  rw [opened]
  exact if_pos (theirs_iff.mpr theirs)

theorem commitUser_of_others (others : ∀ o, s.swap.user = some o → ¬(o.edge = some e ∧ o.origin = .twin ∧ o.staged = o.mask)) :
    commitUser e s = s := by
  unfold commitUser
  cases opened : s.swap.user with
  | none => rfl
  | some o => exact if_neg fun theirs => others o opened (theirs_iff.mp theirs)

theorem commitRecentre_of_theirs (opened : s.swap.recentre = some c) (theirs : c.edge = some e ∧ c.twin = true) : commitRecentre e s =
    setFld F.CND_RECENTER_STAT_STATE 2 { s with swap := { s.swap with recentre := some { c with committed := true, agreed := true } } } := by
  unfold commitRecentre
  rw [opened]
  exact if_pos (theirsRecentre_iff.mpr theirs)

theorem commitRecentre_of_others (others : ∀ c, s.swap.recentre = some c → ¬(c.edge = some e ∧ c.twin = true)) : commitRecentre e s = s := by
  unfold commitRecentre
  cases opened : s.swap.recentre with
  | none => rfl
  | some c => exact if_neg fun theirs => others c opened (theirsRecentre_iff.mp theirs)

theorem agreedFor_swap {e : FrameNo} : (agreedFor o e s).swap = { s.swap with user := some o } :=
  setFld_keeps (shows_swap (by decide)) (setFld_keeps (shows_swap (by decide)) rfl)

theorem commitUser_recentre : (commitUser e s).swap.recentre = s.swap.recentre := by
  unfold commitUser
  split
  · refine ite_keeps (P := fun t : State => t.swap.recentre = s.swap.recentre) ?_ rfl
    rw [agreedFor_swap]
  · rfl

theorem commitRecentre_user : (commitRecentre e s).swap.user = s.swap.user := by
  unfold commitRecentre
  split
  · refine ite_keeps (P := fun t : State => t.swap.user = s.swap.user) ?_ rfl
    rw [setFld_keeps (shows_swap (by decide)) rfl]
  · rfl

/-- The agreement leaves the way of messages. -/
theorem commits_keep {P : State → Prop} (C : Keeps [.regs, .swap] P) (h : P s) : P (commitRecentre e (commitUser e s)) := by
  have user : P (commitUser e s) := by
    unfold commitUser
    split
    · exact ite_keeps (setFld_keeps (C.mono (by decide)) (setFld_keeps (C.mono (by decide)) (C.upd_swap (by decide) h))) h
    · exact h
  unfold commitRecentre
  split
  · exact ite_keeps (setFld_keeps (C.mono (by decide)) (C.upd_swap (by decide) user)) user
  · exact user

theorem commit_sends : WoadSends 0 (.commitAck e) s (sendWoad 0 (.commitAck e) (commitRecentre e (commitUser e s))) :=
  woadSends_of_same (sendWoad_sends (by exact fun _ _ h => nomatch h) 0 _) (commits_keep (shows_twin (by decide)) rfl)
    (commits_keep (shows_sent_eq (by decide)) rfl) (commits_keep (shows_fuse (by decide)) rfl) (commits_keep (shows_boot (by decide)) rfl)

theorem goes_commit {Q : State → Prop} (up : fabricUp s = true) (before : frameGe s.frame.num e = false)
    (done : Q (if twinAgreed e (commitRecentre e (commitUser e s)) then sendWoad 0 (.commitAck e) (commitRecentre e (commitUser e s))
      else commitRecentre e (commitUser e s))) : Goes (.commit e) s Q := by
  refine goes_fabric up exec_commit ?_
  rw [if_neg (Bool.eq_false_iff.mp before)]
  exact done

/-- COMMIT: the follower agrees to the swap, or the re-centring, that the twin has proposed, and answers. -/
theorem commits (up : fabricUp s = true) (before : frameGe s.frame.num e = false) :
    (∀ o, s.swap.user = some o → o.edge = some e ∧ o.origin = .twin ∧ o.staged = o.mask → Goes (.commit e) s fun t =>
      t.swap.user = some { o with committed := true, agreed := true } ∧ WoadSends 0 (.commitAck e) s t) ∧
    (∀ c, s.swap.recentre = some c → c.edge = some e ∧ c.twin = true → Goes (.commit e) s fun t =>
      t.swap.recentre = some { c with committed := true, agreed := true } ∧ WoadSends 0 (.commitAck e) s t) ∧
    ((∀ o, s.swap.user = some o → ¬(o.edge = some e ∧ o.origin = .twin ∧ o.staged = o.mask)) →
      (∀ c, s.swap.recentre = some c → ¬(c.edge = some e ∧ c.twin = true)) → Goes (.commit e) s fun t => t.swap = s.swap) := by
  refine ⟨fun o opened theirs => goes_commit up before ?_, fun c opened theirs => goes_commit up before ?_,
    fun others othersR => goes_commit up before ?_⟩
  · have user : (commitRecentre e (commitUser e s)).swap.user = some { o with committed := true, agreed := true } := by
      rw [commitRecentre_user, commitUser_of_theirs opened theirs, agreedFor_swap]
    have agreed : twinAgreed e (commitRecentre e (commitUser e s)) = true := by
      unfold twinAgreed
      rw [user]
      simp [theirs.1, theirs.2.1]
    rw [if_pos agreed]
    exact ⟨by rw [sendWoad_keeps (shows_swap (by decide)) rfl, user], commit_sends⟩
  · have recentre : (commitRecentre e (commitUser e s)).swap.recentre = some { c with committed := true, agreed := true } := by
      rw [commitRecentre_of_theirs (commitUser_recentre.trans opened) theirs, setFld_keeps (shows_swap (by decide)) rfl]
    have agreed : twinAgreed e (commitRecentre e (commitUser e s)) = true := by
      unfold twinAgreed
      rw [recentre]
      simp [theirs.1, theirs.2]
    rw [if_pos agreed]
    exact ⟨by rw [sendWoad_keeps (shows_swap (by decide)) rfl, recentre], commit_sends⟩
  · rw [commitUser_of_others others, commitRecentre_of_others othersR]
    exact ite_keeps (P := fun t : State => t.swap = s.swap) (sendWoad_keeps (shows_swap (by decide)) rfl) rfl

theorem commitAcks (up : fabricUp s = true) (before : frameGe s.frame.num e = false) :
    Goes (.commitAck e) s fun t => t = { s with swap := { s.swap with
      user := s.swap.user.map fun o => if (o.edge = some e ∧ o.origin ≠ .twin) ∧ o.committed = true then { o with agreed := true } else o,
      recentre := s.swap.recentre.map fun c => if (c.edge = some e ∧ c.twin = false) ∧ c.committed = true then { c with agreed := true } else c } } := by
  refine goes_fabric up exec_commitAck ?_
  rw [if_neg (Bool.eq_false_iff.mp before)]
  have user (o : OpenSwap) : (decide (o.edge = some e) && o.committed && decide (o.origin ≠ .twin)) = true ↔
      (o.edge = some e ∧ o.origin ≠ .twin) ∧ o.committed = true := by
    rw [Bool.and_eq_true, Bool.and_eq_true, decide_eq_true_iff, decide_eq_true_iff, and_right_comm]
  have recentre (c : RecSwap) : (decide (c.edge = some e) && c.committed && !c.twin) = true ↔
      (c.edge = some e ∧ c.twin = false) ∧ c.committed = true := by
    rw [Bool.and_eq_true, Bool.and_eq_true, decide_eq_true_iff, Bool.not_eq_true', and_right_comm]
  simp only [user, recentre]

/-- ACK: the primary commits its own swap, or its own re-centring, before edge S − 2. -/
theorem acknowledges (up : fabricUp s = true) (e : FrameNo) :
    (¬(s.twin.pair = .pairedA ∧ frameGe s.frame.num (e - 2) = false) → exec (.ack e) s = .next s) ∧
    (s.twin.pair = .pairedA ∧ frameGe s.frame.num (e - 2) = false →
      (∀ o, s.swap.user = some o → o.edge = some e ∧ o.origin ≠ .twin → Goes (.ack e) s fun t =>
        t.swap = { s.swap with user := some { o with committed := true } } ∧ WoadSends 0 (.commit e) s t) ∧
      ((∀ o, s.swap.user = some o → ¬(o.edge = some e ∧ o.origin ≠ .twin)) →
        (∀ c, s.swap.recentre = some c → c.edge = some e ∧ c.twin = false → Goes (.ack e) s fun t =>
          t.swap = { s.swap with recentre := some { c with committed := true } } ∧ WoadSends 0 (.commit e) s t) ∧
        ((∀ c, s.swap.recentre = some c → ¬(c.edge = some e ∧ c.twin = false)) → exec (.ack e) s = .next s))) := by
  have late_iff : (decide (s.twin.pair ≠ .pairedA) || frameGe s.frame.num (e - 2)) = true ↔
      ¬(s.twin.pair = .pairedA ∧ frameGe s.frame.num (e - 2) = false) := by
    rw [Bool.or_eq_true, decide_eq_true_iff, not_and_or, Bool.not_eq_false]
  refine ⟨fun late => idle_fabric exec_ack (if_pos (late_iff.mpr late)), fun acks => ?_⟩
  have taken : exec (.ack e) s = .next (match s.swap.user with
      | some o => if o.edge = some e && o.origin ≠ .twin then sendWoad 0 (.commit e) (committedFor o e s) else ackRecentre e s
      | none => ackRecentre e s) := by
    rw [exec_ack, fabric_of_up up]
    exact congrArg _ (if_neg fun late => late_iff.mp late acks)
  refine ⟨fun o opened own => ⟨_, taken, ?_⟩, fun others => ?_⟩
  · rw [opened]
    dsimp only
    rw [if_pos (own_iff.mpr own)]
    exact committedFor_sends.symm
  · have recentres : exec (.ack e) s = .next (ackRecentre e s) := by
      rw [taken]
      cases opened : s.swap.user with
      | none => rfl
      | some o => exact congrArg _ (if_neg fun own => others o opened (own_iff.mp own))
    refine ⟨fun c opened own => ⟨_, recentres, ?_⟩, fun none' => recentres.trans (congrArg _ ?_)⟩
    · unfold ackRecentre
      rw [opened]
      dsimp only
      rw [if_pos (ownRecentre_iff.mpr own)]
      exact ⟨sendWoad_keeps (shows_swap (by decide)) rfl, woadSends_of_same (sendWoad_sends (by exact fun _ _ h => nomatch h) 0 _) rfl rfl rfl rfl⟩
    · unfold ackRecentre
      cases opened : s.swap.recentre with
      | none => rfl
      | some c => exact if_neg fun own => none' c opened (ownRecentre_iff.mp own)

/-- What a refusal makes of the re-centring. -/
def refusedRecentre (e : FrameNo) (reason : Nat) (recentre : Option RecSwap) (s : State) : State :=
  match recentre with
  | some c => if c.edge = some e ∧ ¬ c.twin ∧ ¬ c.agreed then refuseRecentreAs 6 (reason % 256) s else s
  | none => s

theorem exec_refuse : exec (.refuse e reason) s = .next (live s fun s =>
    let s1 := setFld F.WOD_SWAP_STAT_LAST_REASON (reason % 256) s
    match s.swap.user with
    | some o => if o.edge = some e ∧ o.origin ≠ .twin ∧ ¬ o.agreed then refuseUserAs 6 (reason % 256) s1
      else refusedRecentre e reason s.swap.recentre s1
    | none => refusedRecentre e reason s.swap.recentre s1) := by
  refine congrArg (fun f => Host.Outcome.next (live s f)) (funext fun u => ?_)
  extract_lets s1
  unfold refusedRecentre
  cases u.swap.user <;> cases u.swap.recentre <;> rfl

theorem refuses (up : fabricUp s = true) (e : FrameNo) (reason : Nat) :
    (∀ o, s.swap.user = some o → o.edge = some e ∧ o.origin ≠ .twin → o.agreed = false → Goes (.refuse e reason) s (SwapRefused s)) ∧
    ((∀ o, s.swap.user = some o → ¬((o.edge = some e ∧ o.origin ≠ .twin) ∧ o.agreed = false)) →
      (∀ c, s.swap.recentre = some c → c.edge = some e ∧ c.twin = false → c.agreed = false → Goes (.refuse e reason) s fun t =>
        t.swap.recentre = none ∧ t.swap.user = s.swap.user ∧ (s.log.queue.length < 256 → Recorded t swapUnit 0x10 5 1)) ∧
      ((∀ c, s.swap.recentre = some c → ¬((c.edge = some e ∧ c.twin = false) ∧ c.agreed = false)) → Goes (.refuse e reason) s fun t =>
        t = { s with regs := t.regs })) := by
  let s1 := setFld F.WOD_SWAP_STAT_LAST_REASON (reason % 256) s
  have swap : s1.swap = s.swap := rfl
  have live' := running_of_fabricUp up
  refine ⟨fun o opened own open' => goes_live live' exec_refuse ?_, fun others => ?_⟩
  · rw [opened]
    dsimp only
    rw [if_pos ⟨own.1, own.2, Bool.eq_false_iff.mp open'⟩]
    exact refuseUserAs_refuses (t := s1) opened rfl rfl
  · have rest : exec (.refuse e reason) s = .next (refusedRecentre e reason s.swap.recentre s1) := by
      rw [exec_refuse, live_of_running live']
      cases opened : s.swap.user with
      | none => rfl
      | some o => exact congrArg _ (if_neg fun own => others o opened ⟨⟨own.1, own.2.1⟩, Bool.eq_false_iff.mpr own.2.2⟩)
    refine ⟨fun c opened own open' => ⟨_, rest, ?_⟩, fun none' => ⟨_, rest, ?_⟩⟩
    · unfold refusedRecentre
      rw [opened]
      dsimp only
      rw [if_pos ⟨own.1, Bool.eq_false_iff.mp own.2, Bool.eq_false_iff.mp open'⟩]
      exact refuseRecentreAs_refuses (t := s1) opened rfl rfl
    · unfold refusedRecentre
      cases opened : s.swap.recentre with
      | none => rfl
      | some c =>
        dsimp only
        rw [if_neg fun own => none' c opened ⟨⟨own.1, Bool.eq_false_iff.mpr own.2.1⟩, Bool.eq_false_iff.mpr own.2.2⟩]
        rfl

theorem agreements (up : fabricUp s = true) (e : FrameNo) : Claims.Agreements e s := by
  obtain ⟨late, acks⟩ := acknowledges up e
  refine ⟨late, acks, fun after => ⟨idle_fabric exec_commit (if_pos after), idle_fabric exec_commitAck (if_pos after)⟩, fun before => ?_,
    fun reason => refuses up e reason⟩
  obtain ⟨user, recentre, neither⟩ := commits up before
  exact ⟨user, recentre, neither, commitAcks up before⟩

end

/-- Settles O45: every refusal ends in `refuseUserAs` or `refuseUnopened`, which close the swap and record it, and the agreement moves the one
swap, or re-centring, that names the edge. -/
theorem stagedSwaps : Obligations.StagedSwaps := by
  unfold Obligations.StagedSwaps
  exact fun s up inv => ⟨userSwaps up, proposals up inv, agreements up⟩

end Sys2Proof.Machine

end

section

set_option Elab.async false

/-! # The link of the pair (R434, R435, R437, R438, R441, R442) -/

namespace Sys2Proof.Machine

open Sys2Proof.Claims (TagFails)

section
variable {s t u : State} {f : Fld} {p : PairState} {n ev detail : Nat} {sev : Severity}

/-! ## The state of the pair and its register -/

/-- A field of WOD_PAIR_STAT that does not show the state of the pair or of the link. -/
abbrev Fld.besidePair (f : Fld) : Prop := f.ok ∧ f.addr = F.WOD_PAIR_STAT_STATE.addr ∧ f.hi < 24

/-- Registers in their form. -/
abbrev RegsOk (s : State) : Prop := Regs.wf s.image s.regs

theorem showPair_regs : SameRegsBut [F.WOD_PAIR_STAT_STATE.addr] s (showPair s) :=
  .setFld (.setFlag (.setFlag (.refl _ s) (by decide)) (by decide)) (by decide)

theorem setPair_regs : SameRegsBut [F.WOD_PAIR_STAT_STATE.addr] s (setPair p s) :=
  SameRegsBut.trans ((SameRegsBut.refl _ s).same (u := { s with twin := { s.twin with pair := p } }) rfl rfl) showPair_regs

theorem setPair_twin : (setPair p s).twin = { s.twin with pair := p } := showPair_keeps (shows_twin (by decide)) rfl

theorem setFld_besidePair {g : Fld} {v : Nat} (high : g.ok ∧ g.addr = F.WOD_PAIR_STAT_STATE.addr ∧ 24 ≤ g.lo) (wf : RegsOk s)
    (beside : f.besidePair) : fld (setFld g v s) f = fld s f := by
  obtain ⟨gok, there, up⟩ := high
  obtain ⟨ok, here, low⟩ := beside
  exact fld_setFld_other wf gok ok (here.trans there.symm) (.inl (Nat.lt_of_lt_of_le low up))

theorem showPair_beside (wf : RegsOk s) (beside : f.besidePair) : fld (showPair s) f = fld s f :=
  (setFld_besidePair (by decide) (setFld_wf (setFld_wf wf)) beside).trans
    ((setFld_besidePair (by decide) (setFld_wf wf) beside).trans (setFld_besidePair (by decide) wf beside))

theorem setPair_beside (wf : RegsOk s) (beside : f.besidePair) : fld (setPair p s) f = fld s f :=
  showPair_beside (s := { s with twin := { s.twin with pair := p } }) wf beside

theorem woadEvent_fld (h : f.addr ≠ F.WDN_FLOG_STAT_SEQ.addr) : fld (woadEvent ev sev detail s) f = fld s f := fld_report h

theorem woadEvent_twin : (woadEvent ev sev detail s).twin = s.twin := woadEvent_keeps (shows_twin (by decide)) rfl

theorem woadEvent_recorded (room : s.log.queue.length < 256) : Recorded (woadEvent ev sev detail s) 0x94 0x0D ev (sevCode sev) :=
  report_recorded room

theorem woadEvent_wf (h : RegsOk s) : RegsOk (woadEvent ev sev detail s) := woadEvent_keeps (keeps_regs_wf (by decide)) h

/-- The state of the pair as a formation fails for another reason than a conflict (R441). -/
def failedPair (s : State) : PairState :=
  if s.twin.pair = .forming then (if strapB s then .monitor else .degradedA) else s.twin.pair

/-- The register and the pair as a formation fails for another reason than a conflict, before the record. -/
def formationOver (n : Nat) (s : State) : State :=
  let s1 := setFld F.WOD_PAIR_STAT_FORM_FAIL n s
  if s.twin.pair = .forming then setPair (if strapB s then .monitor else .degradedA) s1 else s1

theorem formFail_of_ne (other : n ≠ 1) : formFail n s = woadEvent 1 .warning n (formationOver n s) := if_neg other

theorem formationOver_twin : (formationOver n s).twin = { s.twin with pair := failedPair s } := by
  unfold formationOver failedPair
  extract_lets s1
  have stays : s1.twin = s.twin := setFld_keeps (shows_twin (by decide)) rfl
  split
  · rw [setPair_twin, stays]
  · rw [stays]

theorem formationOver_log : (formationOver n s).log = s.log :=
  ite_keeps (P := fun t : State => t.log = s.log) (setPair_keeps (shows_log (by decide)) (setFld_keeps (shows_log (by decide)) rfl))
    (setFld_keeps (shows_log (by decide)) rfl)

theorem formationOver_shows (wf : RegsOk s) (small : n < 16) : fld (formationOver n s) F.WOD_PAIR_STAT_FORM_FAIL = n := by
  have shown : fld (setFld F.WOD_PAIR_STAT_FORM_FAIL n s) F.WOD_PAIR_STAT_FORM_FAIL = n :=
    (fld_setFld_same wf (by decide)).trans (Nat.mod_eq_of_lt small)
  unfold formationOver
  extract_lets s1
  split
  · exact (setPair_beside (setFld_wf wf) (by decide)).trans shown
  · exact shown

theorem formationOver_regs : SameRegsBut [F.WOD_PAIR_STAT_STATE.addr] s (formationOver n s) :=
  have shown : SameRegsBut [F.WOD_PAIR_STAT_STATE.addr] s (setFld F.WOD_PAIR_STAT_FORM_FAIL n s) := .setFld (.refl _ s) (by decide)
  ite_keeps (P := SameRegsBut _ s) (shown.trans setPair_regs) shown

/-- A formation that fails for another reason than a conflict. -/
theorem formFail_spec (wf : RegsOk s) (other : n ≠ 1) (small : n < 16) :
    (formFail n s).twin = { s.twin with pair := failedPair s } ∧ fld (formFail n s) F.WOD_PAIR_STAT_FORM_FAIL = n ∧
      (s.log.queue.length < 256 → Recorded (formFail n s) 0x94 0x0D 1 1) := by
  rw [formFail_of_ne other]
  refine ⟨woadEvent_twin.trans formationOver_twin, (woadEvent_fld (by decide)).trans (formationOver_shows wf small), fun room => ?_⟩
  exact woadEvent_recorded (by rw [formationOver_log]; exact room)

/-! ## Degradation -/

theorem degrade_of_alone (alone : paired s = false) : degrade n s = s := if_pos (by rw [alone]; rfl)

/-- The state of the pair as it is degraded (R464). -/
def degradedPair (s : State) : PairState := if s.twin.pair = .pairedA then .degradedA else .degradedB

/-- The twin's state and the registers as the pair is degraded, before the record. -/
def degraded (n : Nat) (s : State) : State :=
  setFld F.WOD_PAIR_STAT_DEG_REASON n (setPair (degradedPair s) { s with twin := { s.twin with clearRun := 0, reasons := n :: s.twin.reasons } })

theorem degrade_of_paired (formed : paired s = true) : degrade n s = woadEvent 3 .fault n (degraded n s) :=
  if_neg (by rw [formed]; exact Bool.false_ne_true)

theorem degraded_twin : (degraded n s).twin = { s.twin with clearRun := 0, reasons := n :: s.twin.reasons, pair := degradedPair s } := by
  unfold degraded
  rw [setFld_keeps (shows_twin (by decide)) rfl, setPair_twin]

theorem degraded_log : (degraded n s).log = s.log :=
  setFld_keeps (shows_log (by decide)) (setPair_keeps (shows_log (by decide)) rfl)

theorem degraded_regs : SameRegsBut [F.WOD_PAIR_STAT_STATE.addr] s (degraded n s) :=
  .setFld (((SameRegsBut.refl _ s).same rfl rfl).trans setPair_regs) (by decide)

theorem degrade_twin_of_paired (formed : paired s = true) :
    (degrade n s).twin = { s.twin with clearRun := 0, reasons := n :: s.twin.reasons, pair := degradedPair s } := by
  rw [degrade_of_paired formed, woadEvent_twin, degraded_twin]

/-- Degrading the pair writes its register and those of the log. -/
theorem degrade_regs : SameRegsBut [F.WOD_PAIR_STAT_STATE.addr, F.WDN_FLOG_STAT_SEQ.addr] s (degrade n s) := by
  cases formed : paired s with
  | false => rw [degrade_of_alone formed]; exact .refl _ s
  | true =>
    rw [degrade_of_paired formed]
    exact .report (degraded_regs.mono (by decide)) (by decide)

/-! ## A tag that fails -/

/-- What is kept of a failure of a tag that is counted: the failures within a second (R438). -/
def failureCounted (recent : List Tick) (s : State) : State := bump F.WOD_XPORT_CNT_AUTH { s with twin := { s.twin with authAt := recent } }

theorem failureCounted_counted {recent : List Tick} (wf : RegsOk s) : Counted F.WOD_XPORT_CNT_AUTH s (failureCounted recent s) :=
  counted_bump (s := { s with twin := { s.twin with authAt := recent } }) wf (by decide)

theorem failureCounted_twin {recent : List Tick} : (failureCounted recent s).twin = { s.twin with authAt := recent } :=
  bump_keeps (shows_twin (by decide)) rfl

/-- The first message of a session fails: the session is over, and the formation with it. -/
theorem firstFails (forming : s.twin.pair = .forming) (counted : Counted F.WOD_XPORT_CNT_AUTH s t) (wf : RegsOk t)
    (twin : t.twin = { s.twin with authAt := t.twin.authAt }) (boot : t.boot = s.boot) :
    let u := formFail 7 { t with twin := { t.twin with session := false } }
    Counted F.WOD_XPORT_CNT_AUTH s u ∧ u.twin.rxSeq = s.twin.rxSeq ∧ u.twin.rxCtr = s.twin.rxCtr ∧ u.twin.session = false ∧
      u.twin.pair = (if strapB s then .monitor else .degradedA) ∧ fld u F.WOD_PAIR_STAT_FORM_FAIL = 7 := by
  intro u
  obtain ⟨now, shows, -⟩ := formFail_spec (n := 7) (s := { t with twin := { t.twin with session := false } }) wf (by decide) (by decide)
  have regs : SameRegsBut [F.WOD_PAIR_STAT_STATE.addr, F.WDN_FLOG_STAT_SEQ.addr] t u := by
    unfold u
    rw [formFail_of_ne (by decide)]
    exact .report ((((SameRegsBut.refl _ t).same (u := { t with twin := { t.twin with session := false } }) rfl rfl).trans formationOver_regs).mono
      (by decide)) (by decide)
  have strap : strapB { t with twin := { t.twin with session := false } } = strapB s := by
    unfold strapB
    rw [← boot]
  refine ⟨(regs.fld (f := F.WOD_XPORT_CNT_AUTH) (by decide)).trans counted, ?_, ?_, ?_, ?_, shows⟩
  · unfold u
    rw [now, twin]
  · unfold u
    rw [now, twin]
  · unfold u
    rw [now]
  · unfold u
    rw [now]
    dsimp only [failedPair]
    rw [strap, twin, if_pos forming]

/-- A later message fails: 16 failures within a second degrade a formed pair. -/
theorem laterFails {recent : List Tick} {chan : Nat} (counted : Counted F.WOD_XPORT_CNT_AUTH s t)
    (twin : t.twin = { s.twin with authAt := t.twin.authAt }) :
    let u := if recent.length ≥ 16 then degrade 7 (woadEvent 12 .fault chan { t with twin := { t.twin with authAt := [] } }) else t
    Counted F.WOD_XPORT_CNT_AUTH s u ∧ u.twin.rxSeq = s.twin.rxSeq ∧ u.twin.rxCtr = s.twin.rxCtr ∧ u.twin.session = s.twin.session ∧
      (s.twin.pair = .pairedA → u.twin.pair = if 16 ≤ recent.length then .degradedA else .pairedA) ∧
      (s.twin.pair = .pairedB → u.twin.pair = if 16 ≤ recent.length then .degradedB else .pairedB) := by
  intro u
  by_cases many : 16 ≤ recent.length
  · let v := woadEvent 12 .fault chan { t with twin := { t.twin with authAt := [] } }
    have told : v.twin = { s.twin with authAt := [] } := by
      unfold v
      rw [woadEvent_twin, twin]
    have pair : v.twin.pair = s.twin.pair := by rw [told]
    have is : u = degrade 7 v := if_pos many
    have regs : SameRegsBut [F.WOD_PAIR_STAT_STATE.addr, F.WDN_FLOG_STAT_SEQ.addr] t u := by
      have event : SameRegsBut [F.WOD_PAIR_STAT_STATE.addr, F.WDN_FLOG_STAT_SEQ.addr] t v :=
        .report ((SameRegsBut.refl _ t).same rfl rfl) (by decide)
      rw [is]
      exact event.trans degrade_regs
    have rest : u.twin.rxSeq = s.twin.rxSeq ∧ u.twin.rxCtr = s.twin.rxCtr ∧ u.twin.session = s.twin.session := by
      rw [is]
      cases formed : paired v with
      | false =>
        rw [degrade_of_alone formed, told]
        exact ⟨rfl, rfl, rfl⟩
      | true =>
        rw [degrade_twin_of_paired formed, told]
        exact ⟨rfl, rfl, rfl⟩
    refine ⟨(regs.fld (f := F.WOD_XPORT_CNT_AUTH) (by decide)).trans counted, rest.1, rest.2.1, rest.2.2, fun a => ?_, fun b => ?_⟩
    · rw [if_pos many, is, degrade_twin_of_paired (by unfold paired; rw [pair, a]; rfl)]
      exact if_pos (pair.trans a)
    · rw [if_pos many, is, degrade_twin_of_paired (by unfold paired; rw [pair, b]; rfl)]
      exact if_neg (by rw [pair, b]; decide)
  · have is : u = t := if_neg many
    rw [is, twin]
    exact ⟨counted, rfl, rfl, rfl, fun a => by rw [if_neg many]; exact a, fun b => by rw [if_neg many]; exact b⟩

/-- The failures of a tag within a second, with this one (R438). -/
abbrev recentFailures (s : State) : List Tick := (s.time.count :: s.twin.authAt).filter fun n => s.time.count < n + 25000000

theorem tagFailure_cases (wf : RegsOk s) (chan : Nat) : ∃ t, Counted F.WOD_XPORT_CNT_AUTH s t ∧ RegsOk t ∧
    t.twin = { s.twin with authAt := t.twin.authAt } ∧ t.boot = s.boot ∧ tagFailure chan s =
      if s.twin.pair = .forming ∧ s.twin.session ∧ ¬ s.twin.proven then formFail 7 { t with twin := { t.twin with session := false } }
      else if (recentFailures s).length ≥ 16 then degrade 7 (woadEvent 12 .fault chan { t with twin := { t.twin with authAt := [] } })
      else t := by
  unfold tagFailure
  extract_lets recent told s1
  exact ⟨s1, failureCounted_counted wf, setFld_wf wf, failureCounted_twin.trans (by unfold s1; rw [bump_keeps (shows_twin (by decide)) rfl]), rfl, rfl⟩

theorem tagFailure_fails (wf : RegsOk s) (chan : Nat) :
    (tagFailure chan s).twin.rxSeq = s.twin.rxSeq ∧ TagFails s (tagFailure chan s) := by
  obtain ⟨t, counted, wf', twin, boot, is⟩ := tagFailure_cases wf chan
  rw [is]
  by_cases now : s.twin.pair = .forming ∧ s.twin.session = true ∧ ¬ s.twin.proven = true
  · rw [if_pos now]
    obtain ⟨count, order, ctr, session, pair, shows⟩ := firstFails now.1 counted wf' twin boot
    exact ⟨order, count, ctr, fun _ => ⟨session, pair, shows⟩, fun no => absurd ⟨now.1, now.2.1, Bool.eq_false_iff.mpr now.2.2⟩ no⟩
  · rw [if_neg now]
    obtain ⟨count, order, ctr, session, a, b⟩ := laterFails (recent := recentFailures s) (chan := chan) counted twin
    exact ⟨order, count, ctr, fun is => absurd ⟨is.1, is.2.1, Bool.eq_false_iff.mp is.2.2⟩ now, fun _ => ⟨session, a, b⟩⟩

/-! ## Frames -/

/-- A frame in order advances the sequence. -/
abbrev advanced (s : State) : State := { s with twin := { s.twin with rxSeq := s.twin.rxSeq + 1 } }

theorem tagFails_advanced (h : TagFails (advanced s) t) : TagFails s t := h

theorem exec_woadLinkFrame {f : LinkFrame} : exec (.woadLinkFrame f) s = .next (live s fun s =>
    if !s.twin.linkUp then s
    else if !linkCrcOk f || f.seq ≠ s.twin.rxSeq then bump F.WOD_LINK_CNT_RETRY s
    else transport f.body (advanced s)) := rfl

theorem retried_iff {f : LinkFrame} : (!linkCrcOk f || decide (f.seq ≠ s.twin.rxSeq)) = true ↔ linkCrcOk f = false ∨ f.seq ≠ s.twin.rxSeq := by
  rw [Bool.or_eq_true, Bool.not_eq_true', decide_eq_true_iff]

theorem linked_not (linked : s.twin.linkUp = true) : ¬ (!s.twin.linkUp) = true := by
  rw [linked]
  exact Bool.false_ne_true

/-- What a frame in order does with its message (R434, R437, R438). -/
theorem transport_spec {b : List Byte} (wf : RegsOk s) :
    let chan := fieldAt 0 1 b
    let ctr := fieldAt 4 8 b
    let last := s.twin.rxCtr.getD chan 0
    let clear := b = [] ∨ (fieldAt 1 1 b = 1 ∧ chan = 0 ∧ ctr = 0)
    (transport b s).twin.rxSeq = s.twin.rxSeq ∧ (clear → transport b s = s) ∧
      (¬clear → openWoad b s = none → TagFails s (transport b s)) ∧
      (¬clear → (openWoad b s).isSome = true → ctr ≤ last →
        (transport b s).twin.rxCtr = s.twin.rxCtr ∧ Counted F.WOD_XPORT_CNT_REPLAY s (transport b s)) ∧
      (¬clear → (openWoad b s).isSome = true → last < ctr →
        (transport b s).twin.rxCtr = modAt chan (fun _ => ctr) s.twin.rxCtr ∧ (transport b s).twin.proven = true ∧
          (transport b s).regs = s.regs ∧ (transport b s).twin.gaps = if last + 1 < ctr then s.twin.gaps + 1 else s.twin.gaps) := by
  intro chan ctr last clear
  by_cases plain : clear
  · have is : transport b s = s := if_pos plain
    rw [is]
    exact ⟨rfl, fun _ => rfl, fun no => absurd plain no, fun no => absurd plain no, fun no => absurd plain no⟩
  cases opens : openWoad b s with
  | none =>
    have is : transport b s = tagFailure chan s := (if_neg plain).trans (if_pos (by rw [opens]; rfl))
    rw [is]
    obtain ⟨order, fails⟩ := tagFailure_fails wf chan
    exact ⟨order, fun yes => absurd yes plain, fun _ _ => fails, (fun _ h => nomatch h), (fun _ h => nomatch h)⟩
  | some m =>
    have opened : ¬ (openWoad b s).isNone = true := by
      rw [opens]
      exact Bool.false_ne_true
    by_cases old : ctr ≤ last
    · have is : transport b s = bump F.WOD_XPORT_CNT_REPLAY s := (if_neg plain).trans ((if_neg opened).trans (if_pos old))
      rw [is]
      exact ⟨rfl, fun yes => absurd yes plain, (fun _ h => nomatch h), fun _ _ _ => ⟨rfl, counted_bump wf (by decide)⟩,
        fun _ _ new => absurd old (Nat.not_le_of_lt new)⟩
    · have is : transport b s = { s with twin := { s.twin with
          rxCtr := modAt chan (fun _ => ctr) s.twin.rxCtr, proven := true, gaps := if ctr > last + 1 then s.twin.gaps + 1 else s.twin.gaps } } :=
        (if_neg plain).trans ((if_neg opened).trans (if_neg old))
      rw [is]
      exact ⟨rfl, fun yes => absurd yes plain, (fun _ h => nomatch h), fun _ _ le => absurd le old, fun _ _ _ => ⟨rfl, rfl, rfl, rfl⟩⟩

theorem framesInOrder (up : running s = true) (inv : Inv s) (linked : s.twin.linkUp = true) (f : LinkFrame) : Claims.FramesInOrder f s := by
  unfold Claims.FramesInOrder
  extract_lets chan ctr last clear
  intro good order
  have takes : exec (.woadLinkFrame f) s = .next (transport f.body (advanced s)) := by
    rw [exec_woadLinkFrame, live_of_running up, if_neg (linked_not linked)]
    exact congrArg _ (if_neg fun retry => (retried_iff.mp retry).elim (fun bad => by rw [good] at bad; cases bad) fun other => other order)
  obtain ⟨seq, plain, fails, replayed, taken⟩ := transport_spec (b := f.body) (s := advanced s) inv.regs
  exact ⟨_, takes, seq, plain, fails, replayed, taken⟩

/-! ## The link -/

theorem exec_woadLinkDown {cause : LinkLoss} : exec (.woadLinkDown cause) s = .next (live s fun s =>
    if !s.twin.linkUp then s
    else woadEvent 10 .warning 0 (bump F.WOD_LINK_CNT_DOWN (showLanes false
      (showPair { s with twin := { s.twin with linkUp := false, downFrames := 0 } })))) := rfl

theorem exec_woadLinkUp : exec .woadLinkUp s = .next (live s fun s =>
    if s.twin.linkUp then s
    else woadEvent 11 .note 0 (showLanes true (showPair { s with twin := { s.twin with linkUp := true, downFrames := 0 } }))) := rfl

/-- The registers of the link's state after a change of it. -/
theorem showLink_regs {up : Bool} : SameRegsBut [F.WOD_PAIR_STAT_STATE.addr] s (showLanes up (showPair s)) :=
  showPair_regs.trans (.setFld (.setFld (.refl _ _) (by decide)) (by decide))

theorem showLink_keeps {P : State → Prop} {up : Bool} (C : Keeps [.regs] P) (h : P s) : P (showLanes up (showPair s)) :=
  showLanes_keeps C (showPair_keeps C h)

theorem linkGoesDown (up : running s = true) (inv : Inv s) (linked : s.twin.linkUp = true) (cause : LinkLoss) :
    Goes (.woadLinkDown cause) s fun t => t.twin.linkUp = false ∧ t.twin.session = s.twin.session ∧ t.twin.rxCtr = s.twin.rxCtr ∧
      t.twin.txCtr = s.twin.txCtr ∧ t.twin.pair = s.twin.pair ∧ Counted F.WOD_LINK_CNT_DOWN s t ∧
      (s.log.queue.length < 256 → Recorded t 0x94 0x0D 10 1) := by
  refine goes_live up exec_woadLinkDown ?_
  rw [if_neg (linked_not linked)]
  let s1 : State := { s with twin := { s.twin with linkUp := false, downFrames := 0 } }
  have twin : (bump F.WOD_LINK_CNT_DOWN (showLanes false (showPair s1))).twin = s1.twin :=
    bump_keeps (shows_twin (by decide)) (showLink_keeps (shows_twin (by decide)) rfl)
  have log : (bump F.WOD_LINK_CNT_DOWN (showLanes false (showPair s1))).log = s.log :=
    bump_keeps (shows_log (by decide)) (showLink_keeps (shows_log (by decide)) rfl)
  have shown : fld (showLanes false (showPair s1)) F.WOD_LINK_CNT_DOWN = fld s F.WOD_LINK_CNT_DOWN := showLink_regs.fld (s := s1) (by decide)
  have counted : Counted F.WOD_LINK_CNT_DOWN (showLanes false (showPair s1)) (bump F.WOD_LINK_CNT_DOWN (showLanes false (showPair s1))) :=
    counted_bump (showLink_keeps (s := s1) (keeps_regs_wf (by decide)) inv.regs) (by decide)
  rw [woadEvent_twin, twin]
  refine ⟨rfl, rfl, rfl, rfl, rfl, ?_, fun room => woadEvent_recorded (by rw [log]; exact room)⟩
  unfold Counted at counted ⊢
  rw [woadEvent_fld (by decide), counted, shown]

theorem linkComesUp (up : running s = true) (down : s.twin.linkUp = false) : Goes .woadLinkUp s fun t => t.twin.linkUp = true ∧
    t.twin.session = s.twin.session ∧ t.twin.rxCtr = s.twin.rxCtr ∧ t.twin.txCtr = s.twin.txCtr ∧
      (s.log.queue.length < 256 → Recorded t 0x94 0x0D 11 0) := by
  refine goes_live up exec_woadLinkUp ?_
  rw [if_neg (by rw [down]; exact Bool.false_ne_true)]
  let s1 : State := { s with twin := { s.twin with linkUp := true, downFrames := 0 } }
  have twin : (showLanes true (showPair s1)).twin = s1.twin := showLink_keeps (shows_twin (by decide)) rfl
  have log : (showLanes true (showPair s1)).log = s.log := showLink_keeps (shows_log (by decide)) rfl
  rw [woadEvent_twin, twin]
  exact ⟨rfl, rfl, rfl, rfl, fun room => woadEvent_recorded (by rw [log]; exact room)⟩

end

/-- Settles O46: a link frame in order hands its message to the transport, whose failures of tags end a formation at its first message and
degrade a formed pair at the sixteenth within a second. -/
theorem woadLinkCarriesMessages : Obligations.WoadLinkCarriesMessages := by
  unfold Obligations.WoadLinkCarriesMessages
  intro s up inv
  refine ⟨fun cause => ⟨fun linked => linkGoesDown up inv linked cause, fun down => idle_live exec_woadLinkDown (if_pos (by rw [down]; rfl))⟩,
    linkComesUp up, fun linked => idle_live exec_woadLinkUp (if_pos linked), fun f => ⟨fun down => idle_live exec_woadLinkFrame (if_pos (by rw [down]; rfl)),
      fun linked bad => goes_live up exec_woadLinkFrame ?_, fun linked => framesInOrder up inv linked f⟩⟩
  rw [if_neg (linked_not linked), if_pos (retried_iff.mpr bad)]
  exact ⟨counted_bump inv.regs (by decide), rfl⟩

end Sys2Proof.Machine

end

section

set_option Elab.async false

/-! # Pairs form or fail (R439, R441 to R443) -/

namespace Sys2Proof.Machine

open Sys2Proof.Claims (FormationFails WoadSends)

section
variable {s t u : State} {n : Nat}

/-! ## HELLO -/

theorem formFail_fails (wf : RegsOk s) (other : n ≠ 1) (small : n < 16) : FormationFails n s (formFail n s) := by
  obtain ⟨twin, shows, told⟩ := formFail_spec wf other small
  refine ⟨shows, ?_, told⟩
  rw [twin]
  rfl

theorem formFail_one : formFail 1 s = woadEvent 1 .fault 1 (assertFaultN (setPair .conflict (setFld F.WOD_PAIR_STAT_FORM_FAIL 1 s))) := by
  unfold formFail
  exact if_pos rfl

theorem assertFaultN_faultN : (assertFaultN s).pwr.faultN = true := rfl

/-- Equal straps are a conflict. -/
theorem formFail_conflict (wf : RegsOk s) : (formFail 1 s).twin.pair = .conflict ∧ (formFail 1 s).pwr.faultN = true ∧
    fld (formFail 1 s) F.WOD_PAIR_STAT_FORM_FAIL = 1 ∧ (s.log.queue.length < 256 → Recorded (formFail 1 s) 0x94 0x0D 1 3) := by
  let s1 : State := setFld F.WOD_PAIR_STAT_FORM_FAIL 1 s
  let s2 : State := assertFaultN (setPair .conflict s1)
  have twin : s2.twin = { s1.twin with pair := .conflict } := assertFaultN_keeps (shows_twin (by decide)) setPair_twin
  have log : s2.log = s.log := assertFaultN_keeps (shows_log (by decide)) (setPair_keeps (shows_log (by decide)) (setFld_keeps (shows_log (by decide)) rfl))
  have regs : s2.regs = (setPair .conflict s1).regs ∧ s2.image = (setPair .conflict s1).image :=
    ⟨assertFaultN_keeps (shows_regs (by decide)) rfl, assertFaultN_keeps (shows_image (by decide)) rfl⟩
  have shows : fld s2 F.WOD_PAIR_STAT_FORM_FAIL = 1 := by
    have same : fld s2 F.WOD_PAIR_STAT_FORM_FAIL = fld (setPair .conflict s1) F.WOD_PAIR_STAT_FORM_FAIL := congrArg (bitsOf · _ _) (regWord_congr regs.2 regs.1 _)
    exact same.trans ((setPair_beside (setFld_wf wf) (by decide)).trans (fld_setFld_same wf (by decide)))
  rw [formFail_one]
  refine ⟨?_, ?_, (woadEvent_fld (by decide)).trans shows, fun room => woadEvent_recorded (by rw [log]; exact room)⟩
  · rw [woadEvent_twin, twin]
  · rw [woadEvent_keeps (shows_pwr (by decide)) rfl]
    exact assertFaultN_faultN

/-- The nonce with which HELLO goes out. -/
def ownNonce (fresh : Bool) (s : State) : BitVec 256 :=
  let drawn := BitVec.ofNat 256 (Config.freeValue s.free)
  if fresh then drawn else s.twin.nonce.getD drawn

theorem sendWoad_hello {chan : Nat} {b : Bool} {x : Nat} : sendWoad chan (.hello b x) s =
    if !s.twin.linkUp then s else send (.woad 0 0 (.hello b x) [clearHello (woadPayload s.fuse.deviceId (.hello b x))]) s := rfl

/-- HELLO goes out in clear while the link is up, and leaves its nonce. -/
theorem sendHello_spec (fresh : Bool) (s : State) :
    (sendHello fresh s).twin = { s.twin with nonce := some (ownNonce fresh s) } ∧
      (sendHello fresh s).sent = if s.twin.linkUp then
        .woad 0 0 (.hello (strapB s) (ownNonce fresh s).toNat)
          [clearHello (woadPayload s.fuse.deviceId (.hello (strapB s) (ownNonce fresh s).toNat))] :: s.sent
        else s.sent := by
  let s1 : State := { s with free := s.free + 1, twin := { s.twin with nonce := some (ownNonce fresh s) } }
  have is : sendHello fresh s = sendWoad 0 (.hello (strapB s) (ownNonce fresh s).toNat) s1 := rfl
  rw [is, sendWoad_hello]
  have linked : s1.twin.linkUp = s.twin.linkUp := rfl
  rw [linked]
  cases s.twin.linkUp with
  | false => exact ⟨rfl, rfl⟩
  | true => exact ⟨rfl, rfl⟩

theorem exec_helloTimer : exec .helloTimer s = .next (if seeksTwin s && s.twin.hello.isNone then sendHello false s else s) := rfl

theorem helloGoesOut (seeks : seeksTwin s = true) (waits : s.twin.hello = none) : Goes .helloTimer s fun t => ∃ own : BitVec 256,
    (∀ x, s.twin.nonce = some x → own = x) ∧ t.twin = { s.twin with nonce := some own } ∧
      t.sent = if s.twin.linkUp then
        .woad 0 0 (.hello (strapB s) own.toNat) [clearHello (woadPayload s.fuse.deviceId (.hello (strapB s) own.toNat))] :: s.sent
        else s.sent := by
  obtain ⟨twin, sent⟩ := sendHello_spec false s
  refine ⟨sendHello false s, ?_, ownNonce false s, fun x has => ?_, twin, sent⟩
  · rw [exec_helloTimer, seeks, waits]
    rfl
  · show s.twin.nonce.getD _ = x
    rw [has]
    rfl

/-! ### The twin's HELLO -/

/-- The state in which this device has a nonce for its session with the twin. -/
def withNonce (s : State) : State :=
  let running : Bool := decide (s.twin.pair ≠ .forming)
  if running || s.twin.nonce.isNone then sendHello running s else s

/-- The session with the twin has its keys and fresh counters (R439). -/
def sessionOpened (m : HelloMsg) (s1 : State) : State :=
  { s1 with twin := { s1.twin with
    hello := some m, session := true, proven := false, rxCtr := [0, 0, 0], txCtr := [0, 0, 0], keys := sessionKeys m s1 } }

theorem exec_hello {m : HelloMsg} : exec (.hello m) s = .next (
    if !seeksTwin s || paired s || joinBarred s then s
    else if m.posB = strapB s then formFail 1 s
    else if !s.image.pairRoster.contains (Config.sha3 m.pub) then formFail 2 s
    else if s.fuse.keyDestroyed then formFail 7 s
    else sendWoad 0 (.config (ownConfig s)) (sessionOpened m (withNonce s))) := rfl

theorem withNonce_twin : ∃ x, (withNonce s).twin = { s.twin with nonce := some x } := by
  unfold withNonce
  extract_lets running
  split
  · exact ⟨_, (sendHello_spec running s).1⟩
  · rename_i has
    cases held : s.twin.nonce with
    | none =>
      rw [held] at has
      exact absurd (Bool.or_true _) has
    | some x =>
      refine ⟨x, ?_⟩
      rw [← held]

theorem withNonce_keeps {P : State → Prop} (C : Keeps [.twin, .sent, .free] P) (h : P s) : P (withNonce s) :=
  ite_keeps (sendHello_keeps C h) h

theorem withNonce_of_forming (forming : s.twin.pair = .forming) (has : s.twin.nonce.isSome = true) : withNonce s = s := by
  refine if_neg ?_
  rw [forming]
  cases held : s.twin.nonce with
  | none =>
    rw [held] at has
    cases has
  | some x => exact Bool.false_ne_true

theorem sessionKeys_congr {m : HelloMsg} (nonce : t.twin.nonce = u.twin.nonce) (boot : t.boot = u.boot) (fuse : t.fuse = u.fuse) :
    sessionKeys m t = sessionKeys m u := by
  unfold sessionKeys strapB
  rw [nonce, boot, fuse]

theorem helloTaken (m : HelloMsg) :
    let t := sendWoad 0 (.config (ownConfig s)) (sessionOpened m (withNonce s))
    t.twin.hello = some m ∧ t.twin.session = true ∧ t.twin.proven = false ∧ t.twin.rxCtr = [0, 0, 0] ∧
      t.twin.pair = s.twin.pair ∧ t.twin.nonce.isSome = true ∧
      (s.twin.pair = .forming → s.twin.nonce.isSome = true → t.twin.nonce = s.twin.nonce) ∧
      t.twin.keys = sessionKeys m { s with twin := { s.twin with nonce := t.twin.nonce } } ∧
      (s.twin.linkUp = true → ∃ ms l, t.sent = .woad 0 1 (.config (ownConfig s)) ms :: l) := by
  intro t
  obtain ⟨x, nonce⟩ := withNonce_twin (s := s)
  have twin : t.twin = { (sessionOpened m (withNonce s)).twin with txCtr := t.twin.txCtr } := sendWoad_twin
  have opened : (sessionOpened m (withNonce s)).twin = { s.twin with
      nonce := some x, hello := some m, session := true, proven := false, rxCtr := [0, 0, 0], txCtr := [0, 0, 0], keys := sessionKeys m (withNonce s) } := by
    unfold sessionOpened
    rw [nonce]
  have keys : sessionKeys m (withNonce s) = sessionKeys m { s with twin := { s.twin with nonce := some x } } :=
    sessionKeys_congr (by rw [nonce]) (withNonce_keeps (shows_boot (by decide)) rfl) (withNonce_keeps (shows_fuse (by decide)) rfl)
  rw [twin, opened]
  refine ⟨rfl, rfl, rfl, rfl, rfl, rfl, fun forming has => ?_, keys, fun linked => ?_⟩
  · rw [withNonce_of_forming forming has] at nonce
    exact (congrArg (·.nonce) nonce).symm
  · have sends : WoadSends 0 (.config (ownConfig s)) (sessionOpened m (withNonce s)) t := sendWoad_sends (by exact fun _ _ h => nomatch h) 0 _
    unfold WoadSends at sends
    rw [opened] at sends
    dsimp only at sends
    rw [linked] at sends
    exact ⟨_, _, sends⟩

theorem hellos (inv : Inv s) : Claims.Hellos s := by
  refine ⟨helloGoesOut, fun idle => ?_, fun m => ?_⟩
  · rw [exec_helloTimer]
    refine congrArg _ (if_neg ?_)
    rcases idle with idle | has
    · rw [idle]
      exact Bool.false_ne_true
    · cases held : s.twin.hello with
      | none =>
        rw [held] at has
        cases has
      | some x =>
        rw [Option.isNone_some, Bool.and_false]
        exact Bool.false_ne_true
  · have takes_iff : (!seeksTwin s || paired s || joinBarred s) = true ↔ ¬(seeksTwin s = true ∧ paired s = false ∧ joinBarred s = false) := by
      cases seeksTwin s <;> cases paired s <;> cases joinBarred s <;> decide
    refine ⟨fun idle => ?_, fun takes equal => ⟨_, ?_, formFail_conflict inv.regs⟩, fun takes other => ?_⟩
    · rw [exec_hello, if_pos (takes_iff.mpr idle)]
    · rw [exec_hello, if_neg fun idle => takes_iff.mp idle takes, if_pos equal]
    · have open' : exec (.hello m) s = .next (
          if !s.image.pairRoster.contains (Config.sha3 m.pub) then formFail 2 s
          else if s.fuse.keyDestroyed then formFail 7 s
          else sendWoad 0 (.config (ownConfig s)) (sessionOpened m (withNonce s))) := by
        rw [exec_hello, if_neg fun idle => takes_iff.mp idle takes, if_neg other]
      refine ⟨_, open', fun stranger => ?_, fun known gone => ?_, fun known held => ?_⟩
      · rw [if_pos (by rw [Bool.not_eq_true', ← Bool.not_eq_true]; exact fun h => stranger (List.contains_iff_mem.mp h))]
        refine ⟨formFail_fails inv.regs (by decide) (by decide), ?_⟩
        rw [(formFail_spec inv.regs (by decide) (by decide)).1]
      · rw [if_neg (by rw [List.contains_iff_mem.mpr known]; exact Bool.false_ne_true), if_pos gone]
        exact formFail_fails inv.regs (by decide) (by decide)
      · rw [if_neg (by rw [List.contains_iff_mem.mpr known]; exact Bool.false_ne_true), if_neg (by rw [held]; exact Bool.false_ne_true)]
        exact helloTaken m

/-! ## CONFIG -/

theorem exec_config {m : ConfigMsg} : exec (.config m) s = .next (
    if !seeksTwin s || !s.twin.session || paired s then s
    else if m.image ≠ (ownConfig s).image then formFail 3 s
    else if m.rom ≠ (ownConfig s).rom ∨ m.fw ≠ (ownConfig s).fw then formFail 4 s
    else if m.lc ≠ (ownConfig s).lc ∨ m.dbgLock ≠ (ownConfig s).dbgLock ∨ m.prot ≠ (ownConfig s).prot then formFail 5 s
    else if servesJoin s then serveJoin s
    else if m.twinRuns then { s with twin := { s.twin with joining := true, primary := false } }
    else if s.twin.pair = .forming then formed (!strapB s) s
    else s) := rfl

theorem serveJoin_serves : (serveJoin s).twin.joining = true ∧ (serveJoin s).twin.primary = true ∧
    (serveJoin s).swap.join = some (pairEdge s 0, []) ∧ (serveJoin s).twin.pair = s.twin.pair ∧
      WoadSends 0 (.journal s.twin.pairSwaps (pairEdge s 0)) s (serveJoin s) := by
  let s1 : State := { s with twin := { s.twin with joining := true, primary := true }, swap := { s.swap with join := some (pairEdge s 0, []) } }
  have is : serveJoin s = sendWoad 0 (.journal s.twin.pairSwaps (pairEdge s 0)) s1 := rfl
  have sends : WoadSends 0 (.journal s.twin.pairSwaps (pairEdge s 0)) s1 (serveJoin s) := by
    rw [is]
    exact sendWoad_sends (by exact fun _ _ h => nomatch h) 0 s1
  refine ⟨?_, ?_, ?_, ?_, sends⟩
  · rw [is, sendWoad_twin]
  · rw [is, sendWoad_twin]
  · rw [is, sendWoad_keeps (shows_swap (by decide)) rfl]
  · rw [is, sendWoad_twin]

/-- The pair is formed (R442). -/
theorem formed_forms (primary : Bool) : (formed primary s).twin.pair = (if primary then .pairedA else .pairedB) ∧
    (formed primary s).twin.primary = primary ∧ (formed primary s).twin.joining = false ∧
      (s.log.queue.length < 256 → Recorded (formed primary s) 0x94 0x0D 0 0) := by
  unfold formed
  extract_lets __src
  rw [woadEvent_twin, setFld_keeps (shows_twin (by decide)) rfl, setPair_twin]
  refine ⟨rfl, rfl, rfl, fun room => woadEvent_recorded ?_⟩
  rw [setFld_keeps (shows_log (by decide)) (setPair_keeps (shows_log (by decide)) rfl)]
  exact room

theorem configs (inv : Inv s) (m : ConfigMsg) : Claims.Configs m s := by
  have takes_iff : (!seeksTwin s || !s.twin.session || paired s) = true ↔ ¬(seeksTwin s = true ∧ s.twin.session = true ∧ paired s = false) := by
    cases seeksTwin s <;> cases s.twin.session <;> cases paired s <;> decide
  refine ⟨fun idle => by rw [exec_config, if_pos (takes_iff.mpr idle)], fun taken => ?_⟩
  have e : exec (.config m) s = .next (
      if m.image ≠ (ownConfig s).image then formFail 3 s
      else if m.rom ≠ (ownConfig s).rom ∨ m.fw ≠ (ownConfig s).fw then formFail 4 s
      else if m.lc ≠ (ownConfig s).lc ∨ m.dbgLock ≠ (ownConfig s).dbgLock ∨ m.prot ≠ (ownConfig s).prot then formFail 5 s
      else if servesJoin s then serveJoin s
      else if m.twinRuns then { s with twin := { s.twin with joining := true, primary := false } }
      else if s.twin.pair = .forming then formed (!strapB s) s
      else s) := by
    rw [exec_config, if_neg fun idle => takes_iff.mp idle taken]
  refine ⟨fun other => ⟨_, e, ?_⟩, fun image other => ⟨_, e, ?_⟩, fun image fw other => ⟨_, e, ?_⟩, fun image fw fuses => ?_⟩
  · rw [if_pos other]
    exact formFail_fails inv.regs (by decide) (by decide)
  · rw [if_neg (not_not.mpr image), if_pos (not_and_or.mp other)]
    exact formFail_fails inv.regs (by decide) (by decide)
  · rw [if_neg (not_not.mpr image), if_neg (not_or.mpr ⟨not_not.mpr fw.1, not_not.mpr fw.2⟩),
      if_pos ((not_and_or.mp other).imp_right not_and_or.mp)]
    exact formFail_fails inv.regs (by decide) (by decide)
  · rw [if_neg (not_not.mpr image), if_neg (not_or.mpr ⟨not_not.mpr fw.1, not_not.mpr fw.2⟩),
      if_neg (not_or.mpr ⟨not_not.mpr fuses.1, not_or.mpr ⟨not_not.mpr fuses.2.1, not_not.mpr fuses.2.2⟩⟩)] at e
    refine ⟨fun serves => ⟨_, e, ?_⟩, fun alone runs => ⟨_, e, ?_⟩, fun alone new forming => ⟨_, e, ?_⟩, fun alone new other => e.trans ?_⟩
    · rw [if_pos serves]
      exact serveJoin_serves
    · rw [if_neg (Bool.eq_false_iff.mp alone), if_pos runs]
    · rw [if_neg (Bool.eq_false_iff.mp alone), if_neg (Bool.eq_false_iff.mp new), if_pos forming]
      obtain ⟨pair, primary, joining, told⟩ := formed_forms (s := s) (!strapB s)
      refine ⟨pair.trans ?_, primary, joining, told⟩
      cases strapB s <;> rfl
    · rw [if_neg (Bool.eq_false_iff.mp alone), if_neg (Bool.eq_false_iff.mp new), if_neg other]

/-! ## The wait for the twin, and the journal -/

theorem exec_pairWaitExpiry : exec .pairWaitExpiry s = .next (
    if !running s || s.twin.pair ≠ .forming || decide (s.time.count < s.och.startedAt + 20000000) then s
    else if s.twin.hello.isSome then formFail 7 s
    else formFail 6 { s with twin := { s.twin with
      aloneAt := if strapB s && flag s F.WOD_PAIR_CFG_B_ALONE then some (s.time.count + 10 * fld s F.CND_FRAME_PERIOD_PERIOD) else none } }) := rfl

theorem early_iff : (!running s || decide (s.twin.pair ≠ .forming) || decide (s.time.count < s.och.startedAt + 20000000)) = true ↔
    ¬(running s = true ∧ s.twin.pair = .forming ∧ s.och.startedAt + 20000000 ≤ s.time.count) := by
  rw [Bool.or_eq_true, Bool.or_eq_true, Bool.not_eq_true', decide_eq_true_iff, decide_eq_true_iff, not_and_or, not_and_or, Bool.not_eq_true, not_le, or_assoc]

theorem pairWaits (inv : Inv s) (due : running s = true ∧ s.twin.pair = .forming ∧ s.och.startedAt + 20000000 ≤ s.time.count) :
    (s.twin.hello.isSome = true → Goes .pairWaitExpiry s (FormationFails 7 s)) ∧
    (s.twin.hello = none → Goes .pairWaitExpiry s fun t => FormationFails 6 s t ∧
      t.twin.aloneAt = if strapB s && flag s F.WOD_PAIR_CFG_B_ALONE then some (s.time.count + 10 * fld s F.CND_FRAME_PERIOD_PERIOD) else none) := by
  have e := exec_pairWaitExpiry (s := s)
  rw [if_neg fun early => early_iff.mp early due] at e
  refine ⟨fun has => ⟨_, e, ?_⟩, fun waits => ⟨_, e, ?_⟩⟩
  · rw [if_pos has]
    exact formFail_fails inv.regs (by decide) (by decide)
  · have waiting : ¬ s.twin.hello.isSome = true := by
      rw [waits]
      exact Bool.false_ne_true
    rw [if_neg waiting]
    let alone : Option Tick := if strapB s && flag s F.WOD_PAIR_CFG_B_ALONE then some (s.time.count + 10 * fld s F.CND_FRAME_PERIOD_PERIOD) else none
    obtain ⟨twin, shows, told⟩ := formFail_spec (n := 6) (s := { s with twin := { s.twin with aloneAt := alone } }) inv.regs (by decide) (by decide)
    exact ⟨⟨shows, congrArg (·.pair) twin, told⟩, congrArg (·.aloneAt) twin⟩

theorem exec_journal {entries : List PairSwap} {e : FrameNo} : exec (.journal entries e) s = .next (
    if !running s || !s.twin.joining || s.twin.primary then s
    else setFld F.WOD_SWAP_STAT_SWAP_GEN (entries.length % 65536)
      { s with twin := { s.twin with pairSwaps := entries }, swap := { s.swap with join := some (e, entries) } }) := rfl

theorem journals (entries : List PairSwap) (e : FrameNo) :
    let joins := running s = true ∧ s.twin.joining = true ∧ s.twin.primary = false
    (joins → Goes (.journal entries e) s fun t => t.twin = { s.twin with pairSwaps := entries } ∧ t.swap = { s.swap with join := some (e, entries) }) ∧
      (¬joins → exec (.journal entries e) s = .next s) := by
  intro joins
  have idle_iff : (!running s || !s.twin.joining || s.twin.primary) = true ↔ ¬joins := by
    unfold joins
    cases running s <;> cases s.twin.joining <;> cases s.twin.primary <;> decide
  refine ⟨fun now => ⟨_, by rw [exec_journal, if_neg fun idle => idle_iff.mp idle now], ?_⟩, fun idle => by rw [exec_journal, if_pos (idle_iff.mpr idle)]⟩
  exact ⟨setFld_keeps (shows_twin (by decide)) rfl, setFld_keeps (shows_swap (by decide)) rfl⟩

end

/-- Settles O47: HELLO opens the session or ends the formation, CONFIG compares what must agree item by item, and `formFail` says with which
state the device goes on. -/
theorem pairsFormOrFail : Obligations.PairsFormOrFail := by
  unfold Obligations.PairsFormOrFail
  intro s inv
  refine ⟨hellos inv, configs inv, ⟨fun due => (pairWaits inv due).1, fun due => (pairWaits inv due).2, fun early => ?_⟩, journals⟩
  rw [exec_pairWaitExpiry, if_pos (early_iff.mpr early)]

end Sys2Proof.Machine

end

section

set_option Elab.async false

/-! # An excursion whose record makes room for a fault's (R425, R447, R464)

A skew past 5,000 ticks is an excursion too, and its warning is recorded before the fault with which the pair is degraded. Where the
queue then is full of graver records, the warning is the oldest mild one, and the fault takes its place. -/

namespace Sys2Proof.Machine

/-- A grave record of another unit. -/
def graveRecord : QueuedRec := ⟨⟨0, 0, 0, 0, 0, 0, 0, 0, false, 3, 0⟩, false, false⟩

/-- A secondary runs in a formed pair, and 255 grave records wait. -/
def crowdedSecondary : State :=
  { State.reset with
    pwr := { State.reset.pwr with phase := .running }
    log := { State.reset.log with queue := List.replicate 255 graveRecord }
    twin := { State.reset.twin with pair := .pairedB, primary := false, session := true, adopted := true, joining := false, excursion := false, ofs := 6000 } }

/-- The edge of the twin, 6,000 ticks before the own one. -/
def earlyEdge : EdgeMsg := ⟨crowdedSecondary.frame.num, crowdedSecondary.frame.edgeTick, 1, false, false, 0⟩

theorem inv_crowdedSecondary : Inv crowdedSecondary := by
  obtain ⟨-, mem, -, indigo, shape⟩ := resetStandsSafeAndWellFormed.1
  obtain ⟨ing, time, lanes, sel, cnd, tiles⟩ := shape
  exact ⟨⟨List.Pairwise.nil, fun _ h => absurd h List.not_mem_nil⟩, mem, by decide +kernel, indigo, ⟨ing, time, lanes, sel, cnd, tiles⟩⟩

/-- The state that the edge leaves. -/
def edgeTaken (s : State) : State :=
  match exec (.edge earlyEdge) s with
  | .next t => t
  | _ => s

theorem edgeTaken_of_exec {s t : State} (h : exec (.edge earlyEdge) s = .next t) : edgeTaken s = t := by
  rw [edgeTaken, h]

/-- A record of the beginning of an excursion. -/
def isExcursion (q : QueuedRec) : Bool := q.entry.unit = 0x94 ∧ q.entry.cls = 0x0D ∧ q.entry.ev = 2 ∧ q.entry.severity = 1

theorem crowdedSecondary_forgets : (edgeTaken crowdedSecondary).log.queue.any isExcursion = false := by decide +kernel

/-- Refutes O48: where 255 grave records wait, the record of an excursion past 5,000 ticks makes room for that of the degradation. -/
theorem not_pairTimeAndDigests : ¬ Obligations.PairTimeAndDigests := by
  intro h
  have up : running crowdedSecondary = true := by decide +kernel
  obtain ⟨-, edges, -⟩ := h crowdedSecondary up inv_crowdedSecondary
  obtain ⟨t, e, -, -, recorded, -⟩ := (edges earlyEdge).2 rfl (by decide +kernel)
  obtain ⟨q, hq, is⟩ := recorded ⟨rfl, rfl⟩ (by decide +kernel) rfl (by decide +kernel)
  rw [← edgeTaken_of_exec e] at hq
  have known : (edgeTaken crowdedSecondary).log.queue.any isExcursion = true := List.any_eq_true.mpr ⟨q, hq, decide_eq_true is⟩
  exact absurd (crowdedSecondary_forgets.symm.trans known) (by decide)

end Sys2Proof.Machine

end

section

set_option Elab.async false

/-! # A rejection whose record makes room for a fault's (R425, R450, R455)

The rejection of the twin's offer is a warning, and the last of the rejections that degrade the pair is recorded as a fault after it.
Where the queue then is full of graver records, the warning is the oldest mild one, and the fault takes its place. -/

namespace Sys2Proof.Machine

/-- The twin's offer for the running frame. -/
def crowdedOffer : Offer := ⟨State.reset.frame.num, 0, 0, 0, 0, 0, some (.candidate 0 ⟨0, 0, 0, 0, 0, 0, 0, 0, 0, 0, 0⟩), false, 0, 0, ⟨0, 0, 0, 0, [], 0, 0, 0, false⟩⟩

/-- A primary runs in a formed pair whose last seven offers of the twin were rejected; another has come, and 255 grave records wait. -/
def crowdedPrimary : State :=
  { State.reset with
    pwr := { State.reset.pwr with phase := .running }
    log := { State.reset.log with queue := List.replicate 255 graveRecord }
    frame := { State.reset.frame with started := true }
    twin := { State.reset.twin with pair := .pairedA, primary := true, session := true, offerIn := some crowdedOffer, rejects := List.replicate 7 State.reset.frame.num } }

theorem inv_crowdedPrimary : Inv crowdedPrimary := by
  obtain ⟨-, mem, -, indigo, shape⟩ := resetStandsSafeAndWellFormed.1
  obtain ⟨ing, time, lanes, sel, cnd, tiles⟩ := shape
  exact ⟨⟨List.Pairwise.nil, fun _ h => absurd h List.not_mem_nil⟩, mem, by decide +kernel, indigo, ⟨ing, time, lanes, sel, cnd, tiles⟩⟩

/-- What an upset makes Madder find against the offer. -/
def someUpset : Upset := ⟨0, 0, 0, 0⟩

/-- The state that the verdict leaves. -/
def offerJudged (s : State) : State :=
  match exec (.madderVerdict true (some someUpset)) s with
  | .next t => t
  | _ => s

theorem offerJudged_of_exec {s t : State} (h : exec (.madderVerdict true (some someUpset)) s = .next t) : offerJudged s = t := by
  rw [offerJudged, h]

/-- A record of the rejection of an offer. -/
def isRejection (q : QueuedRec) : Bool := q.entry.unit = 0x94 ∧ q.entry.cls = 0x0D ∧ q.entry.ev = 5 ∧ q.entry.severity = 1

theorem crowdedPrimary_forgets : (offerJudged crowdedPrimary).log.queue.any isRejection = false := by decide +kernel

/-- Refutes O49: where 255 grave records wait, the record of the eighth rejection makes room for that of the degradation. -/
theorem not_offersAndVerdicts : ¬ Obligations.OffersAndVerdicts := by
  intro h
  have up : running crowdedPrimary = true := by decide +kernel
  have fabric : fabricUp crowdedPrimary = true := by decide +kernel
  obtain ⟨-, -, judged⟩ := h crowdedPrimary up inv_crowdedPrimary
  obtain ⟨-, rejects, -, -⟩ := judged fabric rfl (some someUpset)
  obtain ⟨t, e, -, -, recorded⟩ := rejects crowdedOffer _
    ⟨rfl, rfl, rfl, (fun v has => by cases has), by decide +kernel, .inl rfl⟩ (fun passes => nomatch passes.1)
  obtain ⟨q, hq, is⟩ := recorded (by decide +kernel)
  rw [← offerJudged_of_exec e] at hq
  have known : (offerJudged crowdedPrimary).log.queue.any isRejection = true := List.any_eq_true.mpr ⟨q, hq, decide_eq_true is⟩
  exact absurd (crowdedPrimary_forgets.symm.trans known) (by decide)

end Sys2Proof.Machine

end

section

set_option Elab.async false

/-! # Takeover and degradation (R455 to R457, R464, R465) -/

namespace Sys2Proof.Machine

open Sys2Proof.Claims (TakenOver Degrades)

section
variable {s t u : State} {n : Nat}

/-! ## The bundle of the running frame -/

/-- A bundle stands at the guidance segment: on the bus or waiting for it. -/
def Stands (f : FrameNo) (s : State) : Prop :=
  (∃ x, s.bus.onBus = some x ∧ x.bundle.frame = f) ∨ ∃ b, s.bus.waiting = some b ∧ b.frame = f

theorem stands_congr {f : FrameNo} (bus : t.bus = s.bus) (h : Stands f s) : Stands f t := by
  unfold Stands
  rw [bus]
  exact h

theorem startBundle_bus {b : TxBundle} : (startBundle b s).bus = { s.bus with onBus := some ⟨b, 0, s.bus.bseq⟩, waiting := none } := by
  unfold startBundle putPart
  split
  · exact ite_keeps (P := fun t : State => t.bus = { s.bus with onBus := some ⟨b, 0, s.bus.bseq⟩, waiting := none }) rfl rfl
  · rfl

theorem queueBundle_stands (b : TxBundle) (s : State) : Stands b.frame (queueBundle b s) := by
  unfold queueBundle
  split
  · refine .inl ⟨⟨b, 0, s.bus.bseq⟩, ?_, rfl⟩
    rw [startBundle_bus]
  · exact .inr ⟨b, rfl, rfl⟩

theorem transmitBundle_twin {b : BundleBody} : (transmitBundle b s).twin = { s.twin with txCtr := (transmitBundle b s).twin.txCtr } := by
  unfold transmitBundle
  extract_lets s1 src
  have queued : s1.twin = s.twin := by
    refine ite_keeps (P := fun t : State => t.twin = s.twin) (queueBundle_keeps (shows_twin (by decide)) ?_) rfl
    exact ite_keeps (P := fun t : State => t.twin = s.twin) (bump_keeps (shows_twin (by decide)) rfl) rfl
  have sent : ∀ t : State, t.twin = { s1.twin with txCtr := t.twin.txCtr } → t.twin = { s.twin with txCtr := t.twin.txCtr } := by
    rw [queued]
    exact fun _ h => h
  refine sent _ ?_
  exact ite_keeps (P := fun t : State => t.twin = { s1.twin with txCtr := t.twin.txCtr }) sendWoad_twin rfl

/-- A bundle that is transmitted in a frame of this device stands at the guidance segment. -/
theorem transmitBundle_stands {b : BundleBody} (sends : transmitsFrame s s.frame.num = true) : Stands s.frame.num (transmitBundle b s) := by
  unfold transmitBundle
  extract_lets s1 src
  have queued : Stands s.frame.num s1 := by
    unfold s1
    rw [if_pos sends]
    exact queueBundle_stands ⟨s.frame.num, _, _, _⟩ _
  exact ite_keeps (P := Stands s.frame.num) (stands_congr (sendWoad_keeps (shows_bus (by decide)) rfl) queued) queued

/-- What follows the transmission of the running frame's bundle: the trajectory that it carries is the next V. -/
def vOfSent (b : BundleBody) (s1 : State) : State :=
  match emittedV s1 with
  | some e => if isResult b then takeV e.1 s1 else s1
  | none => s1

theorem vOfSent_keeps {P : State → Prop} {b : BundleBody} (C : Keeps [.umb, .slv] P) (h : P t) : P (vOfSent b t) := by
  unfold vOfSent
  split
  · exact ite_keeps (takeV_keeps C h) h
  · exact h

theorem sendRunning_of_due {b : BundleBody} (out : s.frame.out = some b) (sends : transmitsFrame s s.frame.num = true)
    (time : s.time.count < s.frame.edgeTick + hardStop s 5) : sendRunning s = vOfSent b (transmitBundle b s) := by
  unfold sendRunning
  rw [out]
  exact if_neg (by rw [sends, decide_eq_false (Nat.not_le_of_lt time)]; exact Bool.false_ne_true)

theorem sendRunning_twin : (sendRunning s).twin = { s.twin with txCtr := (sendRunning s).twin.txCtr } := by
  unfold sendRunning
  split
  · rfl
  · rename_i b _
    refine ite_keeps (P := fun t : State => t.twin = { s.twin with txCtr := t.twin.txCtr }) rfl ?_
    show (vOfSent b (transmitBundle b s)).twin = { s.twin with txCtr := (vOfSent b (transmitBundle b s)).twin.txCtr }
    rw [vOfSent_keeps (shows_twin (by decide)) rfl]
    exact transmitBundle_twin

/-! ## Takeover -/

theorem takeoverNow_twin {cause : Nat} : (takeoverNow cause s).twin = { s.twin with silent := false, pair := .acting } := by
  unfold takeoverNow
  rw [woadEvent_twin, setPair_twin]

theorem takeoverNow_regs {cause : Nat} : SameRegsBut [F.WOD_PAIR_STAT_STATE.addr, F.WDN_FLOG_STAT_SEQ.addr] s (takeoverNow cause s) :=
  have set : SameRegsBut [F.WOD_PAIR_STAT_STATE.addr] s (setPair .acting { s with twin := { s.twin with silent := false } }) :=
    SameRegsBut.trans ((SameRegsBut.refl _ s).same rfl rfl) setPair_regs
  .report (set.mono (by decide)) (by decide)

theorem hardStop_congr {l : List Nat} {p : Nat} (h : SameRegsBut l s t) (away : ∀ i ≤ p, (F.CND_PHASE_BUDGET_BUDGET i).addr ∉ l) :
    hardStop t p = hardStop s p := by
  unfold hardStop
  exact congrArg List.sum (List.map_congr_left fun i hi => h.fld (away i (Nat.le_of_lt_succ (List.mem_range.mp hi))))

theorem takenOver (cause : Nat) (s : State) : TakenOver s (sendRunning (takeoverNow cause s)) := by
  have twin : (takeoverNow cause s).twin = { s.twin with silent := false, pair := .acting } := takeoverNow_twin
  refine ⟨?_, ?_, fun room => ?_, fun formed open' mine time => ?_⟩
  · rw [sendRunning_twin, twin]
  · rw [sendRunning_twin, twin]
  · unfold Recorded
    rw [sendRunning_keeps (shows_log (by decide)) rfl]
    refine woadEvent_recorded ?_
    rw [setPair_keeps (shows_log (by decide)) rfl]
    exact room
  · obtain ⟨b, out⟩ := Option.isSome_iff_exists.mp formed
    have frame : (takeoverNow cause s).frame = s.frame := takeoverNow_keeps (shows_frame (by decide)) rfl
    have sends : transmitsFrame (takeoverNow cause s) (takeoverNow cause s).frame.num = true := by
      have interval : txFrame (takeoverNow cause s) s.frame.num = txFrame s s.frame.num := by
        unfold txFrame
        rw [takeoverNow_regs.fld (f := F.VBS_GUID_CFG_TX_INT) (by decide)]
      have replay : (takeoverNow cause s).replay = s.replay := takeoverNow_keeps (shows_replay (by decide)) rfl
      unfold transmitsFrame transmits
      rw [frame, interval, mine, twin, replay, open']
      rfl
    have before : (takeoverNow cause s).time.count < (takeoverNow cause s).frame.edgeTick + hardStop (takeoverNow cause s) 5 := by
      have budget : hardStop (takeoverNow cause s) 5 = hardStop s 5 := hardStop_congr takeoverNow_regs (by decide)
      rw [frame, budget, takeoverNow_keeps (shows_time (by decide)) rfl]
      exact time
    rw [sendRunning_of_due (by rw [frame]; exact out) sends before]
    rw [← frame]
    exact stands_congr (vOfSent_keeps (shows_bus (by decide)) rfl) (transmitBundle_stands sends)

theorem exec_abdicate {frame : FrameNo} {code : BitVec 16} : exec (.abdicate frame code) s =
    .next (live s fun s => if s.twin.pair = .pairedB then sendRunning (takeoverNow 1 s) else s) := rfl

theorem exec_takeoverSilence : exec .takeoverSilence s = .next (live s fun s =>
    if s.twin.pair = .pairedB && txFrame s (silenceFrame s) && !(s.twin.bundleSeen && s.twin.lastBundle = silenceFrame s) then
      sendRunning (takeoverNow 0 s)
    else s) := rfl

theorem silent_iff : (decide (s.twin.pair = .pairedB) && txFrame s (silenceFrame s) &&
    !(s.twin.bundleSeen && decide (s.twin.lastBundle = silenceFrame s))) = true ↔
      s.twin.pair = .pairedB ∧ txFrame s (silenceFrame s) = true ∧ ¬(s.twin.bundleSeen = true ∧ s.twin.lastBundle = silenceFrame s) := by
  rw [Bool.and_eq_true, Bool.and_eq_true, decide_eq_true_iff, Bool.not_eq_true', ← Bool.not_eq_true, Bool.and_eq_true, decide_eq_true_iff, and_assoc]

/-! ## Degradation -/

/-- A formed pair is degraded. -/
theorem degrade_degrades (formed : paired s = true) : Degrades n s (degrade n s) := by
  refine ⟨?_, ?_, fun room => ?_⟩
  · rw [degrade_twin_of_paired formed]
    rfl
  · rw [degrade_twin_of_paired formed]
    exact List.mem_cons_self
  · rw [degrade_of_paired formed]
    exact woadEvent_recorded (by rw [degraded_log]; exact room)

theorem exec_eligHoldExpiry : exec .eligHoldExpiry s = .next (live s fun s =>
    if !s.twin.linkUp && decide (s.twin.downFrames ≥ fld s F.WOD_PAIR_CFG_ELIG_HOLD) then degrade 2 s else s) := rfl

theorem exec_xlateExpiry : exec .xlateExpiry s = .next (live s fun s =>
    if s.twin.pair = .pairedA && decide (s.twin.xlateRun ≥ fld s F.WOD_PAIR_CFG_XLATE_MAX) then degrade 4 s else s) := rfl

theorem exec_rejoinCountExpiry : exec .rejoinCountExpiry s = .next (live s fun s =>
    if s.twin.pair = .degradedA && !joinBarred s && decide (s.twin.clearRun ≥ 1024) then
      sendHello true { s with twin := { s.twin with hello := none, clearRun := 0 } }
    else s) := rfl

theorem linkDown_iff : (!s.twin.linkUp && decide (s.twin.downFrames ≥ fld s F.WOD_PAIR_CFG_ELIG_HOLD)) = true ↔
    s.twin.linkUp = false ∧ fld s F.WOD_PAIR_CFG_ELIG_HOLD ≤ s.twin.downFrames := by
  rw [Bool.and_eq_true, Bool.not_eq_true', decide_eq_true_iff]

theorem late_iff : (decide (s.twin.pair = .pairedA) && decide (s.twin.xlateRun ≥ fld s F.WOD_PAIR_CFG_XLATE_MAX)) = true ↔
    s.twin.pair = .pairedA ∧ fld s F.WOD_PAIR_CFG_XLATE_MAX ≤ s.twin.xlateRun := by
  rw [Bool.and_eq_true, decide_eq_true_iff, decide_eq_true_iff]

theorem clear_iff : (decide (s.twin.pair = .degradedA) && !joinBarred s && decide (s.twin.clearRun ≥ 1024)) = true ↔
    s.twin.pair = .degradedA ∧ joinBarred s = false ∧ 1024 ≤ s.twin.clearRun := by
  rw [Bool.and_eq_true, Bool.and_eq_true, decide_eq_true_iff, decide_eq_true_iff, Bool.not_eq_true', and_assoc]

theorem eligHold (up : running s = true) (gone : paired s = true ∧ s.twin.linkUp = false ∧ fld s F.WOD_PAIR_CFG_ELIG_HOLD ≤ s.twin.downFrames) :
    Goes .eligHoldExpiry s (Degrades 2 s) := by
  refine goes_live up exec_eligHoldExpiry ?_
  rw [if_pos (linkDown_iff.mpr gone.2)]
  exact degrade_degrades gone.1

theorem eligHold_idle (held : ¬(paired s = true ∧ s.twin.linkUp = false ∧ fld s F.WOD_PAIR_CFG_ELIG_HOLD ≤ s.twin.downFrames)) :
    exec .eligHoldExpiry s = .next s := by
  refine idle_live exec_eligHoldExpiry ?_
  split
  · rename_i down
    exact degrade_of_alone (Bool.eq_false_iff.mpr fun formed => held ⟨formed, linkDown_iff.mp down⟩)
  · rfl

theorem xlate (up : running s = true) (late : s.twin.pair = .pairedA ∧ fld s F.WOD_PAIR_CFG_XLATE_MAX ≤ s.twin.xlateRun) :
    Goes .xlateExpiry s (Degrades 4 s) := by
  refine goes_live up exec_xlateExpiry ?_
  rw [if_pos (late_iff.mpr late)]
  exact degrade_degrades (by unfold paired; rw [late.1]; rfl)

theorem rejoins (up : running s = true) (clear : s.twin.pair = .degradedA ∧ joinBarred s = false ∧ 1024 ≤ s.twin.clearRun) :
    Goes .rejoinCountExpiry s fun t => ∃ own : BitVec 256, t.twin = { s.twin with hello := none, clearRun := 0, nonce := some own } ∧
      t.sent = if s.twin.linkUp then
        .woad 0 0 (.hello (strapB s) own.toNat) [clearHello (woadPayload s.fuse.deviceId (.hello (strapB s) own.toNat))] :: s.sent
        else s.sent := by
  refine goes_live up exec_rejoinCountExpiry ?_
  rw [if_pos (clear_iff.mpr clear)]
  obtain ⟨twin, sent⟩ := sendHello_spec true { s with twin := { s.twin with hello := none, clearRun := 0 } }
  exact ⟨_, twin, sent⟩

end

/-- Settles O50: a takeover is recorded and sends the bundle that is formed, and a degradation goes through `degrade`, which does nothing
outside a formed pair. -/
theorem takeoverAndDegradation : Obligations.TakeoverAndDegradation := by
  unfold Obligations.TakeoverAndDegradation
  intro s up inv
  refine ⟨fun frame code => ⟨fun b => goes_live up exec_abdicate ?_, fun other => idle_live exec_abdicate (if_neg other)⟩,
    fun silent => goes_live up exec_takeoverSilence ?_, fun heard => idle_live exec_takeoverSilence (if_neg fun silent => heard (silent_iff.mp silent)),
    eligHold up, eligHold_idle, xlate up, fun early => idle_live exec_xlateExpiry (if_neg fun late => early (late_iff.mp late)),
    rejoins up, fun early => idle_live exec_rejoinCountExpiry (if_neg fun clear => early (clear_iff.mp clear))⟩
  · rw [if_pos b]
    exact takenOver 1 s
  · rw [if_pos (silent_iff.mpr silent)]
    exact takenOver 0 s

end Sys2Proof.Machine

end

section

set_option Elab.async false

/-! # A closed slot whose record makes room for itself (R425, R496)

The 16th tag failure within a second is recorded as a warning, and then closes its slot, which is a fault. Where the queue then is full of
graver records, the warning is the oldest mild one, and the fault takes its place. -/

namespace Sys2Proof.Machine

/-- Keys of slot 0 under which 15 messages have failed at the tick of now. -/
def failingKeys : SlotKeys := ⟨0, 0, [], 0, 0, List.replicate 15 State.reset.time.count, []⟩

/-- The device runs, the descriptor of a message of that slot waits, and 255 grave records wait. -/
def crowdedHost : State :=
  { State.reset with
    pwr := { State.reset.pwr with phase := .running }
    log := { State.reset.log with queue := List.replicate 255 graveRecord }
    sec := { State.reset.sec with slots := [failingKeys], cmds := [⟨0, 0, 33⟩] } }

theorem inv_crowdedHost : Inv crowdedHost := by
  obtain ⟨-, mem, -, indigo, shape⟩ := resetStandsSafeAndWellFormed.1
  obtain ⟨ing, time, lanes, sel, cnd, tiles⟩ := shape
  exact ⟨⟨List.Pairwise.nil, fun _ h => absurd h List.not_mem_nil⟩, mem, by decide +kernel, indigo, ⟨ing, time, lanes, sel, cnd, tiles⟩⟩

/-- The state that an empty message leaves. -/
def messageTaken (s : State) : State :=
  match exec (.hostMessage []) s with
  | .next t => t
  | _ => s

theorem messageTaken_of_exec {s t : State} (h : exec (.hostMessage []) s = .next t) : messageTaken s = t := by
  rw [messageTaken, h]

/-- A record of a message that the keys of its slot do not open. -/
def isTagFailure (q : QueuedRec) : Bool := q.entry.unit = 0x97 ∧ q.entry.cls = 0x0E ∧ q.entry.ev = 4 ∧ q.entry.severity = 1

theorem crowdedHost_forgets : (messageTaken crowdedHost).log.queue.any isTagFailure = false := by decide +kernel

/-- Refutes O53: where 255 grave records wait, the record of the 16th tag failure makes room for that of the closed slot. -/
theorem not_ringsCarryMessages : ¬ Obligations.RingsCarryMessages := by
  intro h
  have up : running crowdedHost = true := by decide +kernel
  obtain ⟨-, ⟨-, taken, -⟩, -⟩ := h crowdedHost up inv_crowdedHost
  obtain ⟨t, e, -, recorded, -⟩ := (taken ⟨0, 0, 33⟩ [] [] rfl).2 failingKeys (by decide +kernel)
  obtain ⟨q, hq, is⟩ := recorded (by decide +kernel)
  rw [← messageTaken_of_exec e] at hq
  have known : (messageTaken crowdedHost).log.queue.any isTagFailure = true := List.any_eq_true.mpr ⟨q, hq, decide_eq_true is⟩
  exact absurd (crowdedHost_forgets.symm.trans known) (by decide)

end Sys2Proof.Machine

end

section

set_option Elab.async false

/-! # Tokens, keys and tamper: what wipes leave (R384, R439, R493, R497, R500) -/

namespace Sys2Proof.Machine

section
variable {s t u : State} {a n : Nat}

/-! ## Indigo -/

/-- From s to t only the log of Indigo has changed of what it keeps. -/
def IndigoLogs (s t : State) : Prop := t.ind = { s.ind with log := t.ind.log, logNext := t.ind.logNext, logCount := t.ind.logCount }

theorem IndigoLogs.refl (s : State) : IndigoLogs s s := rfl

theorem IndigoLogs.trans (h : IndigoLogs s t) (g : IndigoLogs t u) : IndigoLogs s u := by
  unfold IndigoLogs at h g ⊢
  rw [g, h]

theorem IndigoLogs.same (h : IndigoLogs s t) (e : u.ind = t.ind) : IndigoLogs s u := by
  unfold IndigoLogs at h ⊢
  rw [e]
  exact h

theorem IndigoLogs.latch (h : IndigoLogs s t) : t.ind.latch = s.ind.latch := by rw [h]

theorem IndigoLogs.meshFails (h : IndigoLogs s t) : t.ind.meshFails = s.ind.meshFails := by rw [h]

theorem report_logs (e : Event) (s : State) : IndigoLogs s (report e s) := by
  have joined (q : QueuedRec) (t : State) : (enqueue q t).ind = t.ind := enqueue_keeps (shows_ind (by decide)) rfl
  refine IndigoLogs.same (t := copiedToIndigo e s) ?_ (joined _ (copiedToIndigo e s))
  exact ite_keeps (P := IndigoLogs s) (ite_keeps (P := IndigoLogs s) rfl (.refl s)) (.refl s)

theorem complete_ind {c : Compl} : (complete c s).ind = s.ind := complete_keeps (shows_ind (by decide)) rfl

theorem closeSlot_logs (slot cause : Nat) (s : State) : IndigoLogs s (closeSlot slot cause s) := by
  unfold closeSlot
  extract_lets gone sec s1 s2
  have cancelled : s2.ind = s.ind := foldl_keeps (P := fun t : State => t.ind = s.ind)
    (fun _ _ h => completeBad_keeps (shows_ind (by decide)) h) _ _ rfl
  have closed (e : Event) : IndigoLogs s (report e s2) := IndigoLogs.trans ((IndigoLogs.refl s).same cancelled) (report_logs e s2)
  exact ite_keeps (P := IndigoLogs s) (.refl s)
    (IndigoLogs.same (closed _) (capture_keeps (shows_ind (by decide)) (bump_keeps (shows_ind (by decide)) rfl)))

theorem degrade_logs (n : Nat) (s : State) : IndigoLogs s (degrade n s) := by
  cases formed : paired s with
  | false => rw [degrade_of_alone formed]; exact .refl s
  | true =>
    rw [degrade_of_paired formed]
    have before : (degraded n s).ind = s.ind := setFld_keeps (shows_ind (by decide)) (setPair_keeps (shows_ind (by decide)) rfl)
    exact ((IndigoLogs.refl s).same before).trans (report_logs _ (degraded n s))

theorem assertSafeStop_logs (s : State) : IndigoLogs s (assertSafeStop s) := by
  unfold assertSafeStop
  refine ite_keeps (P := IndigoLogs s) (.refl s) (IndigoLogs.trans (IndigoLogs.same (.refl s) ?_) (report_logs _ _))
  exact setFlag_keeps (shows_ind (by decide)) rfl

theorem fatal_logs (e : Event) (s : State) : IndigoLogs s (fatal e s) := by
  have asserted : IndigoLogs s (assertSafeStop (assertFaultN (report { e with sev := .fatal } s))) :=
    ((report_logs _ s).same rfl).trans (assertSafeStop_logs _)
  exact asserted.same (abdicate_keeps (shows_ind (by decide)) rfl)

/-! ## The keys of the slots -/

theorem complete_slots {c : Compl} : (complete c s).sec.slots = s.sec.slots :=
  ite_keeps (P := fun t : State => t.sec.slots = s.sec.slots) rfl rfl

theorem completeBad_slots {i b : Nat} : (completeBad i b n s).sec.slots = s.sec.slots := complete_slots

/-- A slot that is closed has no keys any more, and no other slot has lost its own. -/
theorem closeSlot_slots (slot cause : Nat) (s : State) : (closeSlot slot cause s).sec.slots = s.sec.slots.filter fun k => k.slot ≠ slot := by
  unfold closeSlot
  extract_lets gone sec s1 s2
  have cancelled : s2.sec.slots = s1.sec.slots := foldl_keeps (P := fun t : State => t.sec.slots = s1.sec.slots)
    (fun _ _ h => completeBad_slots.trans h) _ _ rfl
  split
  · rename_i absent
    refine (List.filter_eq_self.mpr fun k hk => ?_).symm
    rw [decide_eq_true_eq]
    intro is
    rw [Option.isNone_iff_eq_none, slotKeys, List.find?_eq_none] at absent
    exact absent k hk (decide_eq_true is)
  · refine (congrArg SecSt.slots (capture_keeps (shows_sec (by decide)) (bump_keeps (shows_sec (by decide)) ?_))).trans cancelled
    exact report_sec

theorem closeSlots_slots {cause : Nat} (ks : List SlotKeys) : ∀ s : State, (∀ x ∈ s.sec.slots, x.slot ∈ ks.map (·.slot)) →
    (ks.foldl (fun s k => closeSlot k.slot cause s) s).sec.slots = [] := by
  induction ks with
  | nil => exact fun s h => List.eq_nil_iff_forall_not_mem.mpr fun x hx => absurd (h x hx) List.not_mem_nil
  | cons k ks ih =>
    intro s h
    refine ih (closeSlot k.slot cause s) fun x hx => ?_
    rw [closeSlot_slots, List.mem_filter] at hx
    exact (List.mem_cons.mp (h x hx.1)).resolve_left (of_decide_eq_true hx.2)

/-! ## The secure Warden SRAM -/

/-- No slot has keys, and neither has the pair. -/
def NoKeys (t : State) : Prop := t.sec.slots = [] ∧ t.twin.session = false ∧ t.twin.keys = []

theorem NoKeys.same (h : NoKeys s) (sec : t.sec = s.sec) (twin : t.twin = s.twin) : NoKeys t := by
  unfold NoKeys
  rw [sec, twin]
  exact h

theorem degrade_noKeys (h : NoKeys s) : NoKeys (degrade n s) := by
  cases formed : paired s with
  | false => rw [degrade_of_alone formed]; exact h
  | true =>
    unfold NoKeys
    rw [degrade_twin_of_paired formed, degrade_keeps (shows_sec (by decide)) rfl]
    exact h

/-- The state in which a wipe of the secure Warden SRAM has closed every slot. -/
def slotsClosed (cause : Nat) (s : State) : State := s.sec.slots.foldl (fun s k => closeSlot k.slot cause s) (abandonCrypto s)

theorem slotsClosed_slots (cause : Nat) (s : State) : (slotsClosed cause s).sec.slots = [] := by
  have same : (abandonCrypto s).sec = s.sec := abandonCrypto_keeps (shows_sec (by decide)) rfl
  refine closeSlots_slots _ _ fun x hx => ?_
  rw [same] at hx
  exact List.mem_map_of_mem hx

theorem wipeSecure_eq (cause : Nat) (s : State) : wipeSecure cause s =
    zeroRanges (wipeRanges (degrade 8 (dropSession (slotsClosed cause s))) .secureWarden) (degrade 8 (dropSession (slotsClosed cause s))) := rfl

theorem wipeSecure_noKeys (cause : Nat) (s : State) : NoKeys (wipeSecure cause s) := by
  rw [wipeSecure_eq]
  refine (degrade_noKeys ⟨?_, rfl, rfl⟩ : NoKeys (degrade 8 (dropSession (slotsClosed cause s)))).same rfl rfl
  exact slotsClosed_slots cause s

theorem wipeSecure_logs (cause : Nat) (s : State) : IndigoLogs s (wipeSecure cause s) := by
  rw [wipeSecure_eq]
  have closed : IndigoLogs s (slotsClosed cause s) := foldl_keeps (P := IndigoLogs s) (fun _ k h => h.trans (closeSlot_logs k.slot cause _)) _ _
    ((IndigoLogs.refl s).same (abandonCrypto_keeps (shows_ind (by decide)) rfl))
  exact IndigoLogs.same (IndigoLogs.trans (closed.same (u := dropSession (slotsClosed cause s)) rfl) (degrade_logs 8 _)) rfl

theorem fatal_noKeys {e : Event} (h : NoKeys s) : NoKeys (fatal e s) := by
  have asserted : NoKeys (assertSafeStop (assertFaultN (report { e with sev := .fatal } s))) := by
    refine NoKeys.same h (assertSafeStop_keeps (shows_sec (by decide)) ?_) (assertSafeStop_keeps (shows_twin (by decide)) ?_)
    · exact report_sec
    · exact report_twin
  unfold fatal abdicate
  refine ite_keeps (P := NoKeys) ?_ asserted
  unfold NoKeys
  rw [sendWoad_twin, sendWoad_keeps (shows_sec (by decide)) rfl]
  exact asserted

/-! ## All memories -/

/-- Every byte of the 2^40 addresses is blank, and nothing has been written since. -/
def WipedOut (t : State) : Prop := ∀ a, a < 2 ^ 40 → blanked t a = true ∧ tabGet 0 t.mem.cells a = 0

theorem WipedOut.same (h : WipedOut s) (mem : t.mem = s.mem) : WipedOut t := by
  unfold WipedOut blanked
  rw [mem]
  exact h

theorem WipedOut.zero (h : WipedOut s) : ∀ a, a < 2 ^ 40 → byteAt s a = 0 := by
  intro a small
  obtain ⟨blank, cells⟩ := h a small
  unfold byteAt placedByte
  rw [blank, cells, if_pos rfl, BitVec.xor_self]
  rfl

theorem wipeAll_wipedOut (s : State) : WipedOut (wipeAll s) := by
  intro a small
  have only : OnlyWipes (zeroRanges [(0, 2 ^ 40)] s) (wipeAll s) := (beginWipe_onlyWipes _ _).trans (beginWipe_onlyWipes _ _)
  have inside : inRanges [(0, 2 ^ 40)] a = true :=
    inRanges_iff.mpr ⟨_, List.mem_singleton_self _, Nat.zero_le a, Nat.lt_of_lt_of_eq small (Nat.zero_add _).symm⟩
  unfold blanked
  rw [only]
  refine ⟨(List.any_append (xs := [(0, 2 ^ 40)])).trans (Bool.or_eq_true_iff.mpr (.inl inside)), tabGet_filter_out fun v => ?_⟩
  show (!inRanges [(0, 2 ^ 40)] a) = false
  rw [inside]
  rfl

end

end Sys2Proof.Machine

end

section

set_option Elab.async false

/-! # Tamper (R439, R493, R499, R500) -/

namespace Sys2Proof.Machine

open Sys2Proof.Claims (Tripped TamperTrips)

section
variable {s t u : State} {n : Nat}

/-- What a trip shows before the keys are wiped. -/
def tripShown (bits : Nat) (s : State) : State :=
  let s1 := showTamper { s with ind := { s.ind with latch := true }, sec := { s.sec with kxTamper := true } }
  setFld F.WDN_TAMPER_STAT_TRIP (fld s1 F.WDN_TAMPER_STAT_TRIP ||| bits) s1

/-- The record of a trip. -/
def tripEvent (bits : Nat) (asleep : Bool) : Event :=
  { unit := 0x98, cls := 0x0E, ev := 2, sev := .fault, detail := bits + (if asleep then 2 ^ 8 else 0) }

theorem tripped_eq (bits : Nat) (asleep : Bool) (s : State) : tripped bits asleep s =
    if flag s F.WDN_SEC_CFG_TAMPER_HALT then haltDevice (wipeAll (fatal (tripEvent bits asleep) (wipeSecure 2 (tripShown bits s))))
    else report (tripEvent bits asleep) (wipeSecure 2 (tripShown bits s)) := rfl

theorem tripShown_ind (bits : Nat) (s : State) : (tripShown bits s).ind = { s.ind with latch := true } :=
  setFld_keeps (shows_ind (by decide)) (showTamper_keeps (shows_ind (by decide)) rfl)

theorem tripShown_pwr (bits : Nat) (s : State) : (tripShown bits s).pwr = s.pwr :=
  setFld_keeps (shows_pwr (by decide)) (showTamper_keeps (shows_pwr (by decide)) rfl)

theorem wiped_logs (bits : Nat) (s : State) : IndigoLogs { s with ind := { s.ind with latch := true } } (wipeSecure 2 (tripShown bits s)) :=
  IndigoLogs.trans ((IndigoLogs.refl _).same (tripShown_ind bits s)) (wipeSecure_logs 2 (tripShown bits s))

theorem wiped_pwr (bits : Nat) (s : State) : (wipeSecure 2 (tripShown bits s)).pwr = s.pwr :=
  (wipeSecure_keeps (shows_pwr (by decide)) rfl).trans (tripShown_pwr bits s)

/-- A trip while VDD_CORE is applied latches, and leaves the count of the mesh's failures. -/
theorem tripped_logs (bits : Nat) (asleep : Bool) (s : State) :
    IndigoLogs { s with ind := { s.ind with latch := true } } (tripped bits asleep s) := by
  rw [tripped_eq]
  have halted : (haltDevice (wipeAll (fatal (tripEvent bits asleep) (wipeSecure 2 (tripShown bits s))))).ind =
      (fatal (tripEvent bits asleep) (wipeSecure 2 (tripShown bits s))).ind :=
    haltDevice_keeps (shows_ind (by decide)) (wipeAll_keeps (shows_ind (by decide)) rfl)
  exact ite_keeps (P := IndigoLogs _) (((wiped_logs bits s).trans (fatal_logs _ _)).same halted) ((wiped_logs bits s).trans (report_logs _ _))

theorem tripped_noKeys (bits : Nat) (asleep : Bool) (s : State) : NoKeys (tripped bits asleep s) := by
  have wiped : NoKeys (wipeSecure 2 (tripShown bits s)) := wipeSecure_noKeys _ _
  rw [tripped_eq]
  refine ite_keeps (P := NoKeys) ((fatal_noKeys (e := tripEvent bits asleep) wiped).same ?_ ?_) (wiped.same report_sec report_twin)
  · exact haltDevice_keeps (shows_sec (by decide)) (wipeAll_keeps (shows_sec (by decide)) rfl)
  · exact haltDevice_keeps (shows_twin (by decide)) (wipeAll_keeps (shows_twin (by decide)) rfl)

theorem haltDevice_pwr (s : State) : (haltDevice s).pwr = { s.pwr with phase := .halted } := rfl

theorem haltDevice_mem (s : State) : (haltDevice s).mem = s.mem := rfl

/-- A device that has asserted both signals halts with every byte zero. -/
theorem haltDevice_wipeAll (asserted : s.pwr.faultN = true ∧ s.pwr.safeStop = true) :
    (haltDevice (wipeAll s)).pwr.phase = .halted ∧ (haltDevice (wipeAll s)).pwr.safeStop = true ∧ (haltDevice (wipeAll s)).pwr.faultN = true ∧
      ∀ a, a < 2 ^ 40 → byteAt (haltDevice (wipeAll s)) a = 0 := by
  have same : (wipeAll s).pwr = s.pwr := wipeAll_keeps (shows_pwr (by decide)) rfl
  rw [haltDevice_pwr, same]
  exact ⟨rfl, asserted.2, asserted.1, ((wipeAll_wipedOut s).same (haltDevice_mem _)).zero⟩

theorem tripped_trips (bits : Nat) (asleep : Bool) (s : State) : Tripped s (tripped bits asleep s) := by
  have noKeys := tripped_noKeys bits asleep s
  obtain ⟨slots, session, keys⟩ := noKeys
  refine ⟨(tripped_logs bits asleep s).latch, slots, session, keys, fun halts => ?_, fun goesOn => ?_⟩
  · rw [tripped_eq, halts]
    exact haltDevice_wipeAll (fatal_asserts _ _)
  · rw [tripped_eq, goesOn]
    exact report_pwr.trans (wiped_pwr bits s)

/-! ## The comparators and the mesh -/

theorem trip_off (off : maskBit s F.WDN_SEC_CFG_TAMPER_EN n = false) : trip n s = s := if_pos (by rw [off]; rfl)

theorem trip_on (on : maskBit s F.WDN_SEC_CFG_TAMPER_EN n = true) : trip n s =
    if coreApplied s then tripped (2 ^ n) false s
    else if n = 2 ∨ !s.ind.powered then s
    else { s with ind := { s.ind with latch := true, asleepTrip := s.ind.asleepTrip ||| 2 ^ n, asleepDue := s.ind.asleepDue ||| 2 ^ n } } :=
  if_neg (by rw [on]; exact Bool.false_ne_true)

theorem trip_applied (on : maskBit s F.WDN_SEC_CFG_TAMPER_EN n = true) (core : coreApplied s = true) : trip n s = tripped (2 ^ n) false s := by
  rw [trip_on on, core]
  rfl

theorem trip_asleep (on : maskBit s F.WDN_SEC_CFG_TAMPER_EN n = true) (core : coreApplied s = false) (other : n ≠ 2) (powered : s.ind.powered = true) :
    trip n s = { s with ind := { s.ind with
      latch := true, asleepTrip := s.ind.asleepTrip ||| 2 ^ n, asleepDue := s.ind.asleepDue ||| 2 ^ n } } := by
  have awake : ¬(n = 2 ∨ (!s.ind.powered) = true) := by simp [other, powered]
  rw [trip_on on, core, if_neg Bool.false_ne_true, if_neg awake]

theorem trip_idle (on : maskBit s F.WDN_SEC_CFG_TAMPER_EN n = true) (core : coreApplied s = false) (dark : n = 2 ∨ s.ind.powered = false) :
    trip n s = s := by
  have dark : n = 2 ∨ (!s.ind.powered) = true := by simpa using dark
  rw [trip_on on, core, if_neg Bool.false_ne_true, if_pos dark]

/-- The mesh's code has been right, or has tripped the comparator: no failure stands. -/
def meshClear (s : State) : State := { s with ind := { s.ind with meshFails := 0 } }

theorem exec_meshCheck (ok : Bool) : exec (.meshCheck ok) s = .next (
    if !s.ind.powered || !maskBit s F.WDN_SEC_CFG_TAMPER_EN 0 then s
    else if ok then meshClear s
    else if s.ind.meshFails + 1 ≥ 2 then trip 0 (meshClear s)
    else { s with ind := { s.ind with meshFails := s.ind.meshFails + 1 } }) := rfl

theorem meshCheck_checks {ok : Bool} (checks : s.ind.powered = true ∧ maskBit s F.WDN_SEC_CFG_TAMPER_EN 0 = true) :
    exec (.meshCheck ok) s = .next (
      if ok then meshClear s
      else if s.ind.meshFails + 1 ≥ 2 then trip 0 (meshClear s)
      else { s with ind := { s.ind with meshFails := s.ind.meshFails + 1 } }) := by
  rw [exec_meshCheck, checks.1, checks.2]
  rfl

theorem tamperTrips (s : State) : TamperTrips s := by
  refine ⟨fun n => ⟨fun on core => ⟨_, rfl, ?_⟩, fun on asleep => ⟨_, rfl, ?_⟩, fun h => ?_⟩, fun h ok => ?_, fun checks => ⟨⟨_, meshCheck_checks checks, rfl⟩, ?_, ?_, ?_⟩⟩
  · rw [trip_applied on core]
    exact tripped_trips _ _ s
  · obtain ⟨core, other, powered⟩ := asleep
    exact trip_asleep on core other powered
  · show Host.Outcome.next (trip n.val s) = .next s
    cases on : maskBit s F.WDN_SEC_CFG_TAMPER_EN n.val with
    | false => rw [trip_off on]
    | true =>
      obtain ⟨core, not⟩ := h.resolve_left (fun off => off on)
      rw [trip_idle on core]
      refine Decidable.byContradiction fun awake => not ⟨core, fun is => awake (.inl is), ?_⟩
      exact Bool.eq_true_of_not_eq_false fun dark => awake (.inr dark)
  · rw [exec_meshCheck, if_pos]
    rw [← Bool.not_and, Bool.not_eq_true']
    exact Bool.eq_false_of_not_eq_true fun both => h (Bool.and_eq_true_iff.mp both)
  · intro first
    refine ⟨_, meshCheck_checks checks, ?_⟩
    rw [first]
    rfl
  · intro second core
    refine ⟨_, meshCheck_checks checks, ?_⟩
    have again : s.ind.meshFails + 1 ≥ 2 := Nat.succ_le_succ second
    have trips : trip 0 (meshClear s) = tripped (2 ^ 0) false (meshClear s) := trip_applied checks.2 core
    rw [if_neg Bool.false_ne_true, if_pos again, trips]
    exact ⟨tripped_trips _ _ (meshClear s), (tripped_logs _ _ (meshClear s)).meshFails⟩
  · intro second core
    refine ⟨_, meshCheck_checks checks, ?_⟩
    have again : s.ind.meshFails + 1 ≥ 2 := Nat.succ_le_succ second
    rw [if_neg Bool.false_ne_true, if_pos again]
    exact trip_asleep (s := meshClear s) checks.2 core (by decide) checks.1

end

end Sys2Proof.Machine

end

section

set_option Elab.async false

/-! # Life-cycle tokens (R475 to R479) -/

namespace Sys2Proof.Machine

open Sys2Proof.Claims (LifeCycleMoves LifeCycleTokens)

section
variable {s t u : State} {n : Nat} {r : Requester} {k second : Token}

theorem supWrite_reached {a : Nat} {f : State → State} (reach : reachesSup s r = true) : supWrite r a f s = f s := if_pos reach

theorem supWrite_refused {a : Nat} {f : State → State} (reach : reachesSup s r = false) : supWrite r a f s = refuseAccess r a s :=
  if_neg (by rw [reach]; exact Bool.false_ne_true)

/-! ## The start of a check -/

/-- The tokens that stand in the mailbox are taken. -/
def tokensHeld (s : State) : State := { s with sec := { s.sec with tokens := mboxBytes s 0x2400 512 } }

/-- The check of the tokens taken runs. -/
def lcTaken (s : State) : State := setFld F.SUP_LC_STAT_STATE 1 (setFld F.SUP_LC_STAT_REASON 0 (tokensHeld s))

theorem exec_lcGo (r : Requester) : exec (.lcGo r) s = .next (live s (supWrite r 0x7C1038 fun s =>
    if fld s F.SUP_LC_STAT_STATE = 1 then s else lcTaken s)) := rfl

/-- STATE and REASON of SUP_LC_STAT as they are written together. -/
theorem lcStat_shows {v : Nat} (wf : RegsOk s) (state : v < 4) (reason : n < 256) :
    fld (setFld F.SUP_LC_STAT_STATE v (setFld F.SUP_LC_STAT_REASON n s)) F.SUP_LC_STAT_STATE = v ∧
      fld (setFld F.SUP_LC_STAT_STATE v (setFld F.SUP_LC_STAT_REASON n s)) F.SUP_LC_STAT_REASON = n := by
  have before : fld (setFld F.SUP_LC_STAT_REASON n s) F.SUP_LC_STAT_REASON = n % 256 := fld_setFld_same wf (by decide)
  have after := fld_setFld_same (v := v) (f := F.SUP_LC_STAT_STATE) (setFld_wf (f := F.SUP_LC_STAT_REASON) (v := n) wf) (by decide)
  refine ⟨after.trans (Nat.mod_eq_of_lt state), ?_⟩
  rw [fld_setFld_other (f := F.SUP_LC_STAT_STATE) (g := F.SUP_LC_STAT_REASON) (setFld_wf wf) (by decide) (by decide) rfl (.inl (by decide)), before,
    Nat.mod_eq_of_lt reason]

theorem lcTaken_regs : SameRegsBut [F.SUP_LC_STAT_STATE.addr] s (lcTaken s) :=
  have held : SameRegsBut [F.SUP_LC_STAT_STATE.addr] s (tokensHeld s) := (SameRegsBut.refl _ s).same rfl rfl
  (held.setFld (by decide)).setFld (by decide)

/-! ## Refused tokens -/

theorem tokenFault_le (h : tokenFault s k = some n) : n ≤ 6 := by
  unfold tokenFault at h
  grind

theorem tokenReason_le (h : tokenReason s k second = some n) : n ≤ 6 := by
  unfold tokenReason secondFault at h
  grind [→ tokenFault_le]

/-- The state in which the refusal is recorded and the next nonce stands. -/
def refusalRecorded (reason : Nat) (s : State) : State :=
  newNonce (report { unit := 0x90, cls := 0x0E, ev := 1, sev := .warning, detail := reason } s)

theorem refuseToken_eq (n : Nat) (s : State) :
    refuseToken n s = setFld F.SUP_LC_STAT_STATE 3 (setFld F.SUP_LC_STAT_REASON n (refusalRecorded n s)) := rfl

theorem refusalRecorded_wf (wf : RegsOk s) : RegsOk (refusalRecorded n s) :=
  newNonce_keeps (keeps_regs_wf (by decide)) (report_keeps (keeps_regs_wf (by decide)) wf)

theorem refuseToken_shows (wf : RegsOk s) (small : n ≤ 6) :
    fld (refuseToken n s) F.SUP_LC_STAT_STATE = 3 ∧ fld (refuseToken n s) F.SUP_LC_STAT_REASON = n :=
  lcStat_shows (refusalRecorded_wf wf) (by decide) (Nat.lt_of_le_of_lt small (by decide))

theorem refuseToken_log : (refuseToken n s).log =
    (report { unit := 0x90, cls := 0x0E, ev := 1, sev := .warning, detail := n } s).log :=
  setFld_keeps (shows_log (by decide)) (setFld_keeps (shows_log (by decide)) (newNonce_keeps (shows_log (by decide)) rfl))

theorem refuseToken_ind : IndigoLogs s (refuseToken n s) :=
  (report_logs { unit := 0x90, cls := 0x0E, ev := 1, sev := .warning, detail := n } s).same
    (setFld_keeps (shows_ind (by decide)) (setFld_keeps (shows_ind (by decide)) (newNonce_keeps (shows_ind (by decide)) rfl)))

theorem refuseToken_recorded (room : s.log.queue.length < 256) : Recorded (refuseToken n s) 0x90 0x0E 1 1 := by
  unfold Recorded
  rw [refuseToken_log]
  exact report_recorded room

/-! ## Accepted tokens -/

theorem acceptLatchClear_fuse : (acceptLatchClear s).fuse = s.fuse := acceptLatchClear_keeps (shows_fuse (by decide)) rfl

/-- The latch is clear, and shows so. -/
def latchCleared (s : State) : State := showTamper { s with ind := { s.ind with latch := false, asleepTrip := 0 } }

theorem acceptLatchClear_eq (s : State) : acceptLatchClear s = setFld F.SUP_LC_STAT_STATE 2
    (report { unit := 0x90, cls := 0x0E, ev := 0, sev := .note, detail := s.fuse.lc + s.fuse.lc * 2 ^ 8 } (newNonce (latchCleared s))) := rfl

theorem acceptLatchClear_latch : (acceptLatchClear s).ind.latch = false := by
  have cleared : (latchCleared s).ind = { s.ind with latch := false, asleepTrip := 0 } := showTamper_keeps (shows_ind (by decide)) rfl
  have nonce : (newNonce (latchCleared s)).ind = (latchCleared s).ind := newNonce_keeps (shows_ind (by decide)) rfl
  have logged : IndigoLogs (latchCleared s) (acceptLatchClear s) := by
    rw [acceptLatchClear_eq]
    have noted (e : Event) : IndigoLogs (latchCleared s) (report e (newNonce (latchCleared s))) :=
      ((IndigoLogs.refl _).same nonce).trans (report_logs e _)
    exact (noted _).same (setFld_keeps (shows_ind (by decide)) rfl)
  rw [logged.latch, cleared]

theorem acceptLatchClear_shows (wf : RegsOk s) : fld (acceptLatchClear s) F.SUP_LC_STAT_STATE = 2 := by
  rw [acceptLatchClear_eq]
  refine fld_setFld_same ?_ (by decide)
  exact report_keeps (keeps_regs_wf (by decide)) (newNonce_keeps (keeps_regs_wf (by decide)) (showTamper_keeps (keeps_regs_wf (by decide)) wf))

/-- The fuses as a transition to a state blows them (R472, R475, R479). -/
theorem blowFuses_fuse (target : Nat) (s : State) : (blowFuses target s).fuse.lc = target ∧
    (target = 2 → (blowFuses target s).fuse.dbgLock = true) ∧
    (target = 3 ∨ target = 4 → (blowFuses target s).fuse.kill = true ∧ (blowFuses target s).fuse.keyDestroyed = true) := by
  unfold blowFuses
  extract_lets f f1 f2 f3
  have shown : (showFuses { s with fuse := f3 }).fuse = f3 := showFuses_keeps (shows_fuse (by decide)) rfl
  rw [shown]
  have lc : f2.lc = target := ite_holds (P := fun f : FuseSt => f.lc = target) rfl rfl
  refine ⟨ite_holds (P := fun f : FuseSt => f.lc = target) lc lc, fun field => ?_, fun dead => ?_⟩
  · have locked : f2.dbgLock = true := (congrArg FuseSt.dbgLock (if_pos field)).trans rfl
    exact ite_holds (P := fun f : FuseSt => f.dbgLock = true) locked locked
  · have killed : f3 = { f2 with kill := true, keyDestroyed := true } := if_pos dead
    rw [killed]
    exact ⟨rfl, rfl⟩

/-- The state in which an accepted transition has asserted SAFE_STOP_N and blown the fuses, with its record. -/
def fusesMoved (t : Token) (s : State) : State :=
  report { unit := 0x90, cls := 0x0E, ev := 0, sev := .note, detail := s.fuse.lc + t.target * 2 ^ 8 } (blowFuses t.target (assertSafeStop s))

/-- The latch stands no more, and shows so. -/
def latchDown (s : State) : State := showTamper { s with ind := { s.ind with latch := false } }

/-- No slot has keys, and neither has the pair. -/
def keysGone (s : State) : State := dropSession { s with sec := { s.sec with slots := [] } }

theorem keysGone_keeps {P : State → Prop} (C : Keeps [.twin, .sec] P) (h : P s) : P (keysGone s) :=
  dropSession_keeps (C.mono (by decide)) (C.upd_sec (by decide) h)

theorem latchDown_keeps {P : State → Prop} (C : Keeps [.ind, .regs] P) (h : P s) : P (latchDown s) :=
  showTamper_keeps (C.mono (by decide)) (C.upd_ind (by decide) h)

theorem fusesMoved_keeps {P : State → Prop} (C : Keeps [.fuse, .raise, .indlog, .regs, .log, .queue] P) (h : P s) : P (fusesMoved k s) :=
  report_keeps (C.mono (by decide)) (blowFuses_keeps (C.mono (by decide)) (assertSafeStop_keeps (C.mono (by decide)) h))

/-- The state in which nothing is left of an accepted transition but the wipe of all memories and the halt. -/
def transitionMade (t : Token) (s : State) : State := keysGone (latchDown (fusesMoved t s))

theorem acceptToken_eq (k : Token) (s : State) :
    acceptToken k s = haltDevice (setFld F.SUP_LC_STAT_STATE 2 (wipeAll (transitionMade k s))) := rfl

theorem transitionMade_fuse : (transitionMade k s).fuse = (blowFuses k.target (assertSafeStop s)).fuse :=
  keysGone_keeps (shows_fuse (by decide)) (latchDown_keeps (shows_fuse (by decide)) report_fuse)

theorem transitionMade_safeStop : (transitionMade k s).pwr.safeStop = true := by
  have made : (transitionMade k s).pwr = (assertSafeStop s).pwr := by
    refine keysGone_keeps (shows_pwr (by decide)) (latchDown_keeps (shows_pwr (by decide)) (report_pwr.trans ?_))
    exact blowFuses_keeps (shows_pwr (by decide)) rfl
  rw [made, assertSafeStop_pwr]

theorem transitionMade_latch : (transitionMade k s).ind.latch = false := by
  have down : (latchDown (fusesMoved k s)).ind = { (fusesMoved k s).ind with latch := false } := showTamper_keeps (shows_ind (by decide)) rfl
  have same : (transitionMade k s).ind = (latchDown (fusesMoved k s)).ind := keysGone_keeps (shows_ind (by decide)) rfl
  rw [same, down]

theorem transitionMade_noKeys : NoKeys (transitionMade k s) := ⟨rfl, rfl, rfl⟩

theorem transitionMade_wf (wf : RegsOk s) : RegsOk (transitionMade k s) :=
  keysGone_keeps (keeps_regs_wf (by decide)) (latchDown_keeps (keeps_regs_wf (by decide)) (fusesMoved_keeps (keeps_regs_wf (by decide)) wf))

theorem haltDevice_fld (f : Fld) (s : State) : fld (haltDevice s) f = fld s f := rfl

theorem acceptToken_moves (wf : RegsOk s) : LifeCycleMoves k.target (acceptToken k s) := by
  have wiped : RegsOk (wipeAll (transitionMade k s)) := wipeAll_keeps (keeps_regs_wf (by decide)) (transitionMade_wf wf)
  have fuse : (acceptToken k s).fuse = (blowFuses k.target (assertSafeStop s)).fuse :=
    haltDevice_keeps (shows_fuse (by decide)) (setFld_keeps (shows_fuse (by decide)) ((wipeAll_keeps (shows_fuse (by decide)) rfl).trans transitionMade_fuse))
  have pwr : (setFld F.SUP_LC_STAT_STATE 2 (wipeAll (transitionMade k s))).pwr = (transitionMade k s).pwr :=
    setFld_keeps (shows_pwr (by decide)) (wipeAll_keeps (shows_pwr (by decide)) rfl)
  have ind : (acceptToken k s).ind = (transitionMade k s).ind :=
    haltDevice_keeps (shows_ind (by decide)) (setFld_keeps (shows_ind (by decide)) (wipeAll_keeps (shows_ind (by decide)) rfl))
  have sec : (acceptToken k s).sec = (transitionMade k s).sec :=
    haltDevice_keeps (shows_sec (by decide)) (setFld_keeps (shows_sec (by decide)) (wipeAll_keeps (shows_sec (by decide)) rfl))
  have twin : (acceptToken k s).twin = (transitionMade k s).twin :=
    haltDevice_keeps (shows_twin (by decide)) (setFld_keeps (shows_twin (by decide)) (wipeAll_keeps (shows_twin (by decide)) rfl))
  have mem : (acceptToken k s).mem = (wipeAll (transitionMade k s)).mem := haltDevice_keeps (shows_mem (by decide)) (setFld_keeps (shows_mem (by decide)) rfl)
  have shown : fld (acceptToken k s) F.SUP_LC_STAT_STATE = 2 :=
    (haltDevice_fld _ _).trans (fld_setFld_same wiped (by decide))
  have halted : (acceptToken k s).pwr = { (transitionMade k s).pwr with phase := .halted } := by
    rw [acceptToken_eq, haltDevice_pwr, pwr]
  obtain ⟨slots, session, -⟩ := transitionMade_noKeys (k := k) (s := s)
  obtain ⟨lc, lock, kill⟩ := blowFuses_fuse k.target (assertSafeStop s)
  unfold LifeCycleMoves
  rw [fuse, ind, sec, twin, halted]
  exact ⟨lc, transitionMade_safeStop, rfl, transitionMade_latch, slots, session, shown, lock, kill, ((wipeAll_wipedOut (transitionMade k s)).same mem).zero⟩

/-! ## The end of a check -/

theorem exec_lcTokenDone : exec .lcTokenDone s = .next (live s fun s =>
    if fld s F.SUP_LC_STAT_STATE ≠ 1 then s
    else
      match tokenReason s (firstToken s) (secondToken s) with
      | some r => refuseToken r s
      | none => if latchClear s (firstToken s) then acceptLatchClear s else acceptToken (firstToken s) s) := rfl

theorem lifeCycleTokens (up : running s = true) (inv : Inv s) : LifeCycleTokens s := by
  refine ⟨fun r => ⟨fun reach => goes_live up (exec_lcGo r) ?_, fun reach busy => idle_live (exec_lcGo r) ?_, fun reach free => goes_live up (exec_lcGo r) ?_⟩,
    fun idle => idle_live exec_lcTokenDone (if_pos idle), fun busy => goes_live up exec_lcTokenDone ?_⟩
  · rw [supWrite_refused reach]
    exact refused_refuseAccess r 0x7C1038 s
  · rw [supWrite_reached reach, if_pos busy]
  · rw [supWrite_reached reach, if_neg free]
    obtain ⟨state, reason⟩ := lcStat_shows (s := tokensHeld s) (v := 1) (n := 0) inv.regs (by decide) (by decide)
    exact ⟨state, reason, lcTaken_regs, rfl⟩
  · rw [if_neg (fun other => other busy)]
    cases judged : tokenReason s (firstToken s) (secondToken s) with
    | some n =>
      obtain ⟨state, reason⟩ := refuseToken_shows inv.regs (tokenReason_le judged)
      exact ⟨refuseToken_keeps (shows_fuse (by decide)) rfl, refuseToken_ind.latch, refuseToken_keeps (shows_pwr (by decide)) rfl,
        refuseToken_keeps (shows_mem (by decide)) rfl, refuseToken_keeps (shows_sec (by decide)) rfl, state, reason, refuseToken_recorded⟩
    | none =>
      cases clears : latchClear s (firstToken s) with
      | true => exact ⟨acceptLatchClear_fuse, acceptLatchClear_latch, acceptLatchClear_keeps (shows_pwr (by decide)) rfl,
          acceptLatchClear_keeps (shows_mem (by decide)) rfl, acceptLatchClear_shows inv.regs⟩
      | false => exact acceptToken_moves inv.regs

end

end Sys2Proof.Machine

end

section

set_option Elab.async false

/-! # Key setup (R491 to R493), and the settling of tokens, keys and tamper -/

namespace Sys2Proof.Machine

open Sys2Proof.Claims (SetupRefused KeySetups)

section
variable {s t u : State} {n slot : Nat} {r : Requester} {q : KxRequest}

/-! ## Refused setups -/

/-- What a refusal finds of the state from which it is judged. -/
structure KxAsBefore (s u : State) : Prop where
  regs : RegsOk u
  sec : u.sec = s.sec
  sent : u.sent = s.sent
  log : u.log = s.log
  count : fld u F.WDN_SEC_CNT_KX_REFUSED = fld s F.WDN_SEC_CNT_KX_REFUSED

theorem refuseKx_refuses (h : KxAsBefore s u) : SetupRefused s (refuseKx n slot u) := by
  refine ⟨(refuseKx_keeps (shows_sec (by decide)) rfl).trans h.sec, (refuseKx_keeps (shows_sent_eq (by decide)) rfl).trans h.sent, ?_, fun room => ?_⟩
  · unfold Counted
    rw [← h.count]
    refine (counted_bump (report_keeps (keeps_regs_wf (by decide)) h.regs) (by decide)).trans ?_
    rw [fld_report (by decide)]
  · have same (e : Event) : (bump F.WDN_SEC_CNT_KX_REFUSED (report e u)).log = (report e u).log := bump_keeps (shows_log (by decide)) rfl
    unfold Recorded refuseKx
    rw [same]
    exact report_recorded (by rw [h.log]; exact room)

theorem refuseKx_fld {f : Fld} (h : f.addr = F.SUP_KX_STAT_STATE.addr) : fld (refuseKx n slot s) f = fld s f :=
  SameRegsBut.fld (l := [F.WDN_SEC_CNT_KX_REFUSED.addr] ++ logAddrs)
    (SameRegsBut.bump (SameRegsBut.report (.refl _ s) (by decide)) (by decide)) (by rw [h]; decide)

/-! ## The start of a setup -/

/-- The request that stands in the mailbox is taken. -/
def kxHeld (s : State) : State := { s with sec := { s.sec with kxTamper := false, kxReq := mboxBytes s 0 280 } }

/-- The setup of the request taken runs. -/
def kxTaken (s : State) : State :=
  setFld F.SUP_KX_STAT_STATE 1 (setFld F.SUP_KX_STAT_SLOT (regWord s 0x7C4000 % 256) (setFld F.SUP_KX_STAT_REASON 0 (kxHeld s)))

theorem exec_kxGo (r : Requester) : exec (.kxGo r) s = .next (live s (supWrite r 0x7C1030 fun s =>
    if fld s F.SUP_KX_STAT_STATE = 1 then refuseKx 5 (regWord s 0x7C4000 % 256) s else kxTaken s)) := rfl

theorem kxStat_shows {v : Nat} (wf : RegsOk s) (state : v < 4) (reason : n < 256) :
    fld (setFld F.SUP_KX_STAT_STATE v (setFld F.SUP_KX_STAT_REASON n s)) F.SUP_KX_STAT_STATE = v ∧
      fld (setFld F.SUP_KX_STAT_STATE v (setFld F.SUP_KX_STAT_REASON n s)) F.SUP_KX_STAT_REASON = n := by
  have before : fld (setFld F.SUP_KX_STAT_REASON n s) F.SUP_KX_STAT_REASON = n % 256 := fld_setFld_same wf (by decide)
  have after := fld_setFld_same (v := v) (f := F.SUP_KX_STAT_STATE) (setFld_wf (f := F.SUP_KX_STAT_REASON) (v := n) wf) (by decide)
  refine ⟨after.trans (Nat.mod_eq_of_lt state), ?_⟩
  rw [fld_setFld_other (f := F.SUP_KX_STAT_STATE) (g := F.SUP_KX_STAT_REASON) (setFld_wf wf) (by decide) (by decide) rfl (.inl (by decide)), before,
    Nat.mod_eq_of_lt reason]

theorem kxTaken_shows (wf : RegsOk s) : fld (kxTaken s) F.SUP_KX_STAT_STATE = 1 ∧ fld (kxTaken s) F.SUP_KX_STAT_REASON = 0 ∧
    fld (kxTaken s) F.SUP_KX_STAT_SLOT = regWord s 0x7C4000 % 256 := by
  have held : RegsOk (setFld F.SUP_KX_STAT_REASON 0 (kxHeld s)) := setFld_wf (s := kxHeld s) wf
  have reason : fld (setFld F.SUP_KX_STAT_REASON 0 (kxHeld s)) F.SUP_KX_STAT_REASON = 0 := fld_setFld_same (s := kxHeld s) wf (by decide)
  have named := setFld_wf (f := F.SUP_KX_STAT_SLOT) (v := regWord s 0x7C4000 % 256) held
  have slot := fld_setFld_same (f := F.SUP_KX_STAT_SLOT) (v := regWord s 0x7C4000 % 256) held (by decide)
  unfold kxTaken
  refine ⟨fld_setFld_same named (by decide), ?_, ?_⟩
  · rw [fld_setFld_other (f := F.SUP_KX_STAT_STATE) (g := F.SUP_KX_STAT_REASON) named (by decide) (by decide) rfl (.inl (by decide)),
      fld_setFld_other (f := F.SUP_KX_STAT_SLOT) (g := F.SUP_KX_STAT_REASON) held (by decide) (by decide) rfl (.inl (by decide)), reason]
  · rw [fld_setFld_other (f := F.SUP_KX_STAT_STATE) (g := F.SUP_KX_STAT_SLOT) named (by decide) (by decide) rfl (.inl (by decide)), slot]
    exact Nat.mod_mod _ _

theorem kxTaken_regs : SameRegsBut [F.SUP_KX_STAT_STATE.addr] s (kxTaken s) :=
  have held : SameRegsBut [F.SUP_KX_STAT_STATE.addr] s (kxHeld s) := (SameRegsBut.refl _ s).same rfl rfl
  ((held.setFld (by decide)).setFld (by decide)).setFld (by decide)

/-! ## The end of a setup -/

theorem kxReason_le (h : kxReason s q = some n) : n ≤ 6 := by
  unfold kxReason at h
  grind

/-- The secret value of the exchange. -/
def kxPrivate (s : State) : Nat := Config.freeValue (nextFree s).1

/-- The slot's new keys stand in place of any old ones. -/
def keysMade (q : KxRequest) (s : State) : State :=
  { (nextFree s).2 with sec := { (nextFree s).2.sec with
    slots := ⟨q.slot, q.client, kxKeys q (kxPrivate s), 0, 0, [], []⟩ :: (nextFree s).2.sec.slots.filter fun x => x.slot ≠ q.slot } }

/-- The report of a setup and its certificate chain (R502). -/
def kxReport (q : KxRequest) (s : State) : List Byte :=
  attestReport (BitVec.ofNat 256 (ofLe q.nonce)) q.client (cliDomain s q.client) (Config.ecPublic (kxPrivate s)) s ++ chainBytes s

/-- The setup has made the slot's keys, and its report stands in the mailbox with a note. -/
def kxReported (q : KxRequest) (s : State) : State := attestNote q.slot (mboxWrite 0x400 (kxReport q s) (keysMade q s))

/-- The setup has ended with keys, and the host is told. -/
def kxEnded (q : KxRequest) (s : State) : State := send (.msix 1) (setFld F.SUP_KX_STAT_STATE 2 (kxReported q s))

theorem exec_kxDone : exec .kxDone s = .next (live s fun s =>
    if fld s F.SUP_KX_STAT_STATE ≠ 1 then s
    else
      match kxReason s (kxOf s.sec.kxReq) with
      | some n => refuseKx n (kxOf s.sec.kxReq).slot (setFld F.SUP_KX_STAT_STATE 3 (setFld F.SUP_KX_STAT_REASON n s))
      | none => pump (kxEnded (kxOf s.sec.kxReq) s)) := rfl

theorem keysMade_keeps {P : State → Prop} (C : Keeps [.sec, .free] P) (h : P s) : P (keysMade q s) :=
  C.upd_sec (by decide) (nextFree_keeps (C.mono (by decide)) h)

theorem kxReported_keeps {P : State → Prop} (C : Keeps [.indlog, .regs, .log, .queue] P) (h : P (keysMade q s)) : P (kxReported q s) :=
  attestNote_keeps C (mboxWrite_keeps (C.mono (by decide)) h)

theorem send_fld {o : Output} {f : Fld} : fld (send o s) f = fld s f := rfl

theorem kxEnded_shows (wf : RegsOk s) : fld (kxEnded q s) F.SUP_KX_STAT_STATE = 2 := by
  have reported : RegsOk (kxReported q s) := kxReported_keeps (keeps_regs_wf (by decide)) (keysMade_keeps (keeps_regs_wf (by decide)) wf)
  unfold kxEnded
  rw [send_fld]
  exact fld_setFld_same reported (by decide)

theorem kxEnded_sent : (kxEnded q s).sent = .msix 1 :: s.sent := by
  have before : (setFld F.SUP_KX_STAT_STATE 2 (kxReported q s)).sent = s.sent :=
    setFld_keeps (shows_sent_eq (by decide)) (kxReported_keeps (shows_sent_eq (by decide)) (keysMade_keeps (shows_sent_eq (by decide)) rfl))
  unfold kxEnded
  rw [send_sent, before]

theorem kxEnded_sec : (kxEnded q s).sec = (keysMade q s).sec := by
  unfold kxEnded
  rw [send_sec]
  exact setFld_keeps (shows_sec (by decide)) (kxReported_keeps (shows_sec (by decide)) rfl)

/-- A pump sends at most more. -/
theorem pump_sends (s : State) : ∃ l, (pump s).sent = l ++ s.sent := pump_keeps shows_sent ⟨[], rfl⟩

theorem pump_of_noOut (h : s.sec.out = []) : pump s = s := by
  have idle : pumpOne s = s := by
    unfold pumpOne
    rw [h]
    rfl
  exact foldl_keeps (P := fun t : State => t = s) (fun _ _ e => (congrArg pumpOne e).trans idle) _ _ rfl

theorem keySetups (up : running s = true) (inv : Inv s) : KeySetups s := by
  refine ⟨fun r => ⟨fun reach => goes_live up (exec_kxGo r) ?_, fun reach busy => goes_live up (exec_kxGo r) ?_, fun reach free => goes_live up (exec_kxGo r) ?_⟩,
    fun idle => idle_live exec_kxDone (if_pos idle), fun busy => goes_live up exec_kxDone ?_⟩
  · rw [supWrite_refused reach]
    exact refused_refuseAccess r 0x7C1030 s
  · rw [supWrite_reached reach, if_pos busy]
    exact refuseKx_refuses ⟨inv.regs, rfl, rfl, rfl, rfl⟩
  · rw [supWrite_reached reach, if_neg free]
    obtain ⟨state, reason, slot⟩ := kxTaken_shows inv.regs
    exact ⟨state, reason, slot, kxTaken_regs, rfl⟩
  · rw [if_neg (fun other => other busy)]
    cases judged : kxReason s (kxOf s.sec.kxReq) with
    | some n =>
      let u := setFld F.SUP_KX_STAT_STATE 3 (setFld F.SUP_KX_STAT_REASON n s)
      have before : KxAsBefore s u := ⟨setFld_wf (setFld_wf inv.regs), rfl, rfl, rfl,
        SameRegsBut.fld (((SameRegsBut.refl [F.SUP_KX_STAT_STATE.addr] s).setFld (by decide)).setFld (by decide)) (by decide)⟩
      obtain ⟨state, reason⟩ := kxStat_shows inv.regs (v := 3) (by decide) (Nat.lt_of_le_of_lt (kxReason_le judged) (by decide : 6 < 256))
      have same (f : Fld) (h : f.addr = F.SUP_KX_STAT_STATE.addr) : fld (refuseKx n (kxOf s.sec.kxReq).slot u) f = fld u f := refuseKx_fld h
      exact ⟨refuseKx_refuses before, (same F.SUP_KX_STAT_STATE rfl).trans state, (same F.SUP_KX_STAT_REASON rfl).trans reason⟩
    | none =>
      have shown : fld (pump (kxEnded (kxOf s.sec.kxReq) s)) F.SUP_KX_STAT_STATE = 2 :=
        (SameRegsBut.fld (pump_sendRegs (.refl _ _)) (by decide)).trans (kxEnded_shows inv.regs)
      obtain ⟨l, more⟩ := pump_sends (kxEnded (kxOf s.sec.kxReq) s)
      refine ⟨shown, ⟨l, by rw [more, kxEnded_sent]⟩, fun noOut => ⟨kxPrivate s, ?_⟩⟩
      have quiet : (kxEnded (kxOf s.sec.kxReq) s).sec.out = [] := by rw [kxEnded_sec]; exact noOut
      rw [pump_of_noOut quiet, kxEnded_sec]
      rfl

/-- Settles O52. -/
theorem tokensKeysAndTamper : Obligations.TokensKeysAndTamper :=
  fun s inv => ⟨tamperTrips s, fun up => ⟨lifeCycleTokens up inv, keySetups up inv⟩⟩

end

end Sys2Proof.Machine

end

section

set_option Elab.async false

/-! # Received CAN frames (R36, R506, R507, R522) -/

namespace Sys2Proof.Machine

open Sys2Proof.Claims (CanFramesAreFiltered PortUp)

section
variable {s t u : State} {n p role : Nat} {l : List Nat} {x : Sample}

/-! ## What reads of registers and image alone -/

/-- The registers of the ports' roles are not in the list. -/
abbrev RolesApart (l : List Nat) : Prop := ∀ n ∈ List.range 4, (F.VBS_PORT_CFG_ROLE n).addr ∉ l

theorem rolePort_of_regs (h : SameRegsBut l s t) (apart : RolesApart l) : rolePort t role = rolePort s role := by
  unfold rolePort
  refine List.find?_congr fun n hn => ?_
  rw [h.fld (apart n hn)]

theorem rolePort_lt (h : rolePort s role = some p) : p < 4 := List.mem_range.mp (List.mem_of_find?_eq_some h)

theorem rolePort_role (h : rolePort s role = some p) : fld s (F.VBS_PORT_CFG_ROLE p) = role :=
  of_decide_eq_true (List.find?_some (p := fun n => decide (fld s (F.VBS_PORT_CFG_ROLE n) = role)) h)

/-- From s to t nothing has changed that a sample meets on its way in: registers have changed but above those of the streams. -/
structure StreamsSame (s t : State) : Prop where
  regs : ∃ l, SameRegsBut l s t ∧ ∀ a ∈ l, 0x201300 ≤ a
  ing : t.ing = s.ing
  frame : t.frame = s.frame
  time : t.time = s.time
  image : t.image = s.image
  replay : t.replay = s.replay

theorem StreamsSame.fld {f : Fld} (h : StreamsSame s t) (low : f.addr < 0x201300) : fld t f = fld s f := by
  obtain ⟨l, regs, high⟩ := h.regs
  exact regs.fld fun m => Nat.not_le.mpr low (high _ m)

theorem StreamsSame.flag {f : Fld} (h : StreamsSame s t) (low : f.addr < 0x201300) : flag t f = flag s f := by
  unfold Machine.flag
  rw [h.fld low]

theorem StreamsSame.receives_eq (h : StreamsSame s t) (lt : n < 36) : receives t n = receives s n := by
  unfold receives streamOn wiredHere
  rw [h.flag (by simp only [F.ING_STREAM_CFG_ENABLE]; omega), h.fld (by simp only [F.ING_STREAM_CFG_WIRED]; omega), h.replay]

theorem StreamsSame.latency_eq (h : StreamsSame s t) (lt : n < 36) : latency t n = latency s n :=
  h.fld (by simp only [F.ING_STREAM_CFG_LATENCY]; omega)

theorem StreamsSame.joinsEdge_eq (h : StreamsSame s t) : joinsEdge t = joinsEdge s := by
  unfold joinsEdge
  rw [h.frame, h.time]

theorem StreamsSame.stream (h : StreamsSame s t) : streamSt t n = streamSt s n := streamSt_of_ing h.ing

theorem StreamsSame.takes (h : StreamsSame s t) (lt : n < 36) (takes : Takes s n x) : Takes t n x := by
  obtain ⟨done, clear, room⟩ := takes
  have len : sliceLen t n = sliceLen s n := by
    unfold sliceLen
    rw [h.joinsEdge_eq, h.stream]
  have decl : streamDecl t n = streamDecl s n := by
    unfold streamDecl
    rw [h.image]
  refine ⟨done, (h.flag (by simp only [F.ING_STREAM_STAT_FAULTED]; omega)).trans clear, ?_⟩
  rw [len, decl]
  exact room

/-- A sample that a stream takes is admitted to it, whatever else has changed before. -/
theorem StreamsSame.admits (h : StreamsSame s t) (lt : n < 36) (inv : Inv t) (takes : Takes s n x) : Admitted n x s (deliverOwn n x t) := by
  obtain ⟨newest, apart, joined, samples, link⟩ : Admitted n x t (deliverOwn n x t) := (ReadyFor.refl inv).admits (h.takes lt takes) lt
  rw [h.stream, h.joinsEdge_eq] at apart joined
  rw [h.fld (by simp only [F.ING_STREAM_STAT_SAMPLES]; omega)] at samples
  exact ⟨newest, apart, joined, samples, link⟩

theorem StreamsSame.deliverState_eq {bs : List Byte} (h : StreamsSame s t) (lt : n < 36) : deliverState n bs t =
    if receives s n then deliverOwn n ⟨s.time.count - latency s n, s.time.count, bs⟩ t else t := by
  unfold deliverState
  rw [h.receives_eq lt, h.latency_eq lt, h.time]

/-- A sample that arrives writes its stream's registers and those of the memories alone. -/
abbrev ingressAddrs (n : Nat) : List Nat := (F.ING_DROP_CNT_INTEGRITY n).addr :: (F.ING_STREAM_STAT_SAMPLES n).addr :: memAddrs

theorem deliverOwn_regs (len : n < s.ing.length) : SameRegsBut (ingressAddrs n) s (deliverOwn n x s) := by
  obtain ⟨tw, l, own⟩ := deliverOwn_rest n x s
  have log : logAddrs ⊆ ingressAddrs n := fun a m =>
    List.mem_cons_of_mem _ (List.mem_cons_of_mem _ ((by decide : logAddrs ⊆ memAddrs) m))
  have refused (e : Event) (f : Fld) (there : f.addr = (F.ING_DROP_CNT_INTEGRITY n).addr) : SameRegsBut (ingressAddrs n) s (report e (bump f s)) :=
    SameRegsBut.report (SameRegsBut.bump (.refl _ s) (there ▸ List.mem_cons_self)) log
  have delivered : SameRegsBut (ingressAddrs n) s (deliver n x s) := by
    unfold deliver
    refine ite_keeps (P := SameRegsBut _ s) (refused _ _ rfl) (ite_keeps (P := SameRegsBut _ s) (.refl _ s) (ite_keeps (P := SameRegsBut _ s) (refused _ _ rfl) ?_))
    exact (takeIn_regs x len).mono (List.subset_cons_self _ _)
  rw [own]
  exact delivered.same rfl rfl

/-! ## The registers of the ports -/

theorem busCount_apart (small : p < 4) (lt : n < 36) : 0x741010 + 4 * p ∉ ingressAddrs n := by
  have away : ∀ a ∈ memAddrs, a < 0x741010 ∨ 0x741020 ≤ a := by decide
  intro m
  rcases List.mem_cons.mp m with same | m
  · simp only [F.ING_DROP_CNT_INTEGRITY] at same
    omega
  · rcases List.mem_cons.mp m with same | m
    · simp only [F.ING_STREAM_STAT_SAMPLES] at same
      omega
    · have := away _ m
      omega

/-! ## Frames that the port's FIFO has room for -/

theorem acceptedFrame_same (q : FifoSt) (small : p < 4) : StreamsSame s (bump (F.VBS_RX_CNT_ACCEPTED p) (withFifo q s)) where
  regs := ⟨[(F.VBS_RX_CNT_ACCEPTED p).addr], SameRegsBut.bump ((SameRegsBut.refl _ s).same rfl rfl) (List.mem_singleton_self _), fun a m => by
    rw [List.mem_singleton.mp m]
    simp only [F.VBS_RX_CNT_ACCEPTED]
    omega⟩
  ing := rfl
  frame := rfl
  time := rfl
  image := rfl
  replay := rfl

theorem counts_bump (f : Fld) (ok : f.ok) (q : FifoSt) (inv : Inv s) : let t := bump f (withFifo q s)
    Counted f s t ∧ t = { s with regs := t.regs, fifo := t.fifo } :=
  ⟨counted_bump (s := withFifo q s) inv.regs ok, rfl⟩

section
variable {f : CanFrame}

theorem hearFrame_sealed (h : f.format = .xl ∧ f.sec = true) : hearFrame p f s = bump (F.VBS_RX_CNT_UNMATCHED p) s := if_pos h

theorem hearFrame_own (plain : ¬(f.format = .xl ∧ f.sec = true)) (own : rolePort s 2 = some p ∧ f.ident.toNat ∈ ownIds s (strapB s)) :
    hearFrame p f s = busEvent 5 .fault (f.ident.toNat + p * 2 ^ 30) s := by
  have own : rolePort s 2 = some p ∧ (ownIds s (strapB s)).contains f.ident.toNat = true := ⟨own.1, List.contains_iff_mem.mpr own.2⟩
  unfold hearFrame
  rw [if_neg plain, if_pos own]

theorem hearFrame_other (plain : ¬(f.format = .xl ∧ f.sec = true)) (other : ¬(rolePort s 2 = some p ∧ f.ident.toNat ∈ ownIds s (strapB s))) :
    hearFrame p f s = match filterOf s p f.ident.toNat with
      | some x => deliverState x.stream.val (frameSample f) (bump (F.VBS_RX_CNT_ACCEPTED p) s)
      | none =>
        if (s.image.bindings.any (bindingTakes s p f.ident.toNat)) || functionTakes s p f.ident.toNat then
          bump (F.VBS_RX_CNT_ACCEPTED p) s
        else bump (F.VBS_RX_CNT_UNMATCHED p) s := by
  have other : ¬(rolePort s 2 = some p ∧ (ownIds s (strapB s)).contains f.ident.toNat = true) :=
    fun own => other ⟨own.1, List.contains_iff_mem.mp own.2⟩
  unfold hearFrame
  rw [if_neg plain, if_neg other]
  rfl

theorem hearFrame_filtered {y : CanFilter} (plain : ¬(f.format = .xl ∧ f.sec = true))
    (other : ¬(rolePort s 2 = some p ∧ f.ident.toNat ∈ ownIds s (strapB s))) (found : filterOf s p f.ident.toNat = some y) :
    hearFrame p f s = deliverState y.stream.val (frameSample f) (bump (F.VBS_RX_CNT_ACCEPTED p) s) := by
  rw [hearFrame_other plain other, found]

theorem hearFrame_bound (plain : ¬(f.format = .xl ∧ f.sec = true))
    (other : ¬(rolePort s 2 = some p ∧ f.ident.toNat ∈ ownIds s (strapB s))) (absent : filterOf s p f.ident.toNat = none)
    (bound : (∃ b ∈ s.image.bindings, bindingTakes s p f.ident.toNat b = true) ∨ functionTakes s p f.ident.toNat = true) :
    hearFrame p f s = bump (F.VBS_RX_CNT_ACCEPTED p) s := by
  rw [hearFrame_other plain other, absent]
  exact if_pos (by simpa only [Bool.or_eq_true, List.any_eq_true] using bound)

theorem hearFrame_unbound (plain : ¬(f.format = .xl ∧ f.sec = true))
    (other : ¬(rolePort s 2 = some p ∧ f.ident.toNat ∈ ownIds s (strapB s))) (absent : filterOf s p f.ident.toNat = none)
    (unbound : ¬((∃ b ∈ s.image.bindings, bindingTakes s p f.ident.toNat b = true) ∨ functionTakes s p f.ident.toNat = true)) :
    hearFrame p f s = bump (F.VBS_RX_CNT_UNMATCHED p) s := by
  rw [hearFrame_other plain other, absent]
  exact if_neg (by simpa only [Bool.or_eq_true, List.any_eq_true] using unbound)

theorem busEvent_withFifo (q : FifoSt) (ev : Nat) (sev : Severity) (d : Nat) (s : State) : let t := busEvent ev sev d (withFifo q s)
    t = { s with regs := t.regs, log := t.log, ind := t.ind, fifo := t.fifo } := by
  intro t
  have fifo : t.fifo = q := report_fifo
  rw [fifo]
  exact report_rest _

end

theorem canFramesAreFiltered (port : Fin 4) (f : CanFrame) (up : running s = true) (inv : Inv s) : CanFramesAreFiltered port f s := by
  have small : port.val < 4 := port.isLt
  obtain ⟨q, moved⟩ := fifoTake_moved (16 + port.val) s
  have unheard : ¬(fld s (F.VBS_PORT_CFG_ROLE port.val) ≠ 0 ∧ f.remote = false ∧ modeTakes s port.val f.format = true ∧
      (fifoTake (16 + port.val) s).1 = true) → exec (.canFrameRx port f) s = .next s := by
    intro h
    refine idle_live (exec_canFrameRx port f s) ?_
    split
    · rfl
    · rename_i c
      simp only [not_or, Bool.not_eq_true, Bool.not_eq_false', ne_eq] at c h
      refine heldBack_of_full (Bool.eq_false_of_not_eq_true fun room => h ⟨c.1, c.2.1, c.2.2, room⟩)
  have hear {Q : State → Prop} (h : fld s (F.VBS_PORT_CFG_ROLE port.val) ≠ 0 ∧ f.remote = false ∧ modeTakes s port.val f.format = true ∧
      (fifoTake (16 + port.val) s).1 = true) (goes : Q (hearFrame port.val f (withFifo q s))) : Goes (.canFrameRx port f) s Q := by
    obtain ⟨role, remote, mode, room⟩ := h
    refine goes_live up (exec_canFrameRx port f s) ?_
    rw [if_neg (by simp [role, remote, mode]), heldBack_of_room room, moved]
    exact goes
  refine ⟨unheard, fun heard sealed => hear heard ?_, fun heard plain own => hear heard ?_, fun heard plain other => ⟨fun x found => ?_, fun absent bound => hear heard ?_, fun absent unbound => hear heard ?_⟩⟩
  · rw [hearFrame_sealed sealed]
    exact counts_bump _ (of_decide_eq_true rfl) q inv
  · have ours : hearFrame port.val f (withFifo q s) = busEvent 5 .fault (f.ident.toNat + port.val * 2 ^ 30) (withFifo q s) :=
      hearFrame_own plain own
    rw [ours]
    exact ⟨fun room => report_recorded room, (((SameRegsBut.refl logAddrs s).same (u := withFifo q s) rfl rfl).report (List.Subset.refl _)),
      busEvent_withFifo q _ _ _ s⟩
  · have heardAs : hearFrame port.val f (withFifo q s) =
        deliverState x.stream.val (frameSample f) (bump (F.VBS_RX_CNT_ACCEPTED port.val) (withFifo q s)) := hearFrame_filtered plain other found
    have same := acceptedFrame_same (s := s) q small
    obtain ⟨counted, rest⟩ := counts_bump (F.VBS_RX_CNT_ACCEPTED port.val) (of_decide_eq_true rfl) q inv
    rw [same.deliverState_eq x.stream.isLt] at heardAs
    refine ⟨fun off => hear heard ?_, fun on takes => hear heard ?_⟩
    · rw [heardAs, off]
      exact ⟨counted, rest⟩
    · rw [heardAs, on, if_pos rfl]
      have ok : Inv (bump (F.VBS_RX_CNT_ACCEPTED port.val) (withFifo q s)) := bump_keeps (keeps_inv (by decide)) (inv.withFifo q)
      refine ⟨same.admits x.stream.isLt ok takes, ?_⟩
      exact ((deliverOwn_regs (ok.stream x.stream.isLt)).fld (busCount_apart small x.stream.isLt)).trans counted
  · have taken : hearFrame port.val f (withFifo q s) = bump (F.VBS_RX_CNT_ACCEPTED port.val) (withFifo q s) := hearFrame_bound plain other absent bound
    rw [taken]
    exact counts_bump _ (of_decide_eq_true rfl) q inv
  · have untaken : hearFrame port.val f (withFifo q s) = bump (F.VBS_RX_CNT_UNMATCHED port.val) (withFifo q s) :=
      hearFrame_unbound plain other absent unbound
    rw [untaken]
    exact counts_bump _ (of_decide_eq_true rfl) q inv

end

end Sys2Proof.Machine

end

section

set_option Elab.async false

/-! # Address claiming and requests for a PGN (R510 to R514, R525) -/

namespace Sys2Proof.Machine

open Sys2Proof.Claims (PortUp AddressesAreClaimed ClaimsAreHeard RequestsForPgns)

section
variable {s t u : State} {n p sa role : Nat} {l : List Nat}

/-! ## What goes out on the ISOBUS port -/

/-- No register of the roles and states of the ports is in the list. -/
abbrev PortsApart (l : List Nat) : Prop := RolesApart l ∧ ∀ n ∈ List.range 4, (F.VBS_PORT_STAT_STATE n).addr ∉ l

theorem portUp_of_regs (h : SameRegsBut l s t) (apart : PortsApart l) (up : PortUp s role) : PortUp t role := by
  obtain ⟨p, is, on⟩ := up
  refine ⟨p, (rolePort_of_regs h apart.1).trans is, ?_⟩
  unfold portOff at on ⊢
  rw [h.fld (apart.2 p (List.mem_range.mpr (rolePort_lt is)))]
  exact on

theorem sendIso_up {pgn dst : Nat} {bs : List Byte} (up : PortUp s 1) : sendIso pgn dst bs s = send (.isobus pgn dst bs) s := by
  obtain ⟨p, is, on⟩ := up
  unfold sendIso
  rw [is]
  exact if_neg (by rw [on]; exact Bool.false_ne_true)

/-- The message with which the device claims, or says that it can claim none (R510, R511). -/
def ownClaim (s : State) : Output := .isobus 0xEE00 255 (leBytes 8 (ownName s).toNat)

theorem sendClaim_up (up : PortUp s 1) : sendClaim s = send (ownClaim s) s := sendIso_up up

theorem sendClaim_regs (h : SameRegsBut l s t) : SameRegsBut l s (sendClaim t) := sendClaim_keeps (keeps_sameRegs (by decide)) h

theorem sendClaim_fld (f : Fld) : fld (sendClaim s) f = fld s f := (sendClaim_regs (.refl [] s)).fld List.not_mem_nil

/-! ## Two fields of a register, written together -/

theorem fld_setFld_both {f g : Fld} {v w : Nat} (wf : RegsOk s) (fok : f.ok) (gok : g.ok) (same : g.addr = f.addr) (apart : g.hi < f.lo ∨ f.hi < g.lo) :
    fld (setFld f v (setFld g w s)) f = v % 2 ^ (f.hi - f.lo + 1) ∧ fld (setFld f v (setFld g w s)) g = w % 2 ^ (g.hi - g.lo + 1) :=
  ⟨fld_setFld_same (setFld_wf wf) fok, (fld_setFld_other (setFld_wf wf) fok gok same apart).trans (fld_setFld_same wf gok)⟩

/-- The state of a claim and the address shown. -/
def showClaim (c a : Nat) (s : State) : State := setFld F.VBS_ISO_STAT_CLAIM c (setFld F.VBS_ISO_STAT_ADDR a s)

theorem showClaim_shows {c a : Nat} (wf : RegsOk s) (cs : c < 4) (as : a < 256) :
    fld (showClaim c a s) F.VBS_ISO_STAT_CLAIM = c ∧ fld (showClaim c a s) F.VBS_ISO_STAT_ADDR = a := by
  obtain ⟨claim, addr⟩ := fld_setFld_both (f := F.VBS_ISO_STAT_CLAIM) (g := F.VBS_ISO_STAT_ADDR) (v := c) (w := a) wf (by decide) (by decide) rfl (.inl (by decide))
  exact ⟨claim.trans (Nat.mod_eq_of_lt cs), addr.trans (Nat.mod_eq_of_lt as)⟩

theorem showClaim_contests {c a : Nat} (wf : RegsOk s) : fld (showClaim c a s) F.VBS_ISO_STAT_CONTESTS = fld s F.VBS_ISO_STAT_CONTESTS :=
  (fld_setFld_other (f := F.VBS_ISO_STAT_CLAIM) (g := F.VBS_ISO_STAT_CONTESTS) (setFld_wf wf) (by decide) (by decide) rfl (.inl (by decide))).trans
    (fld_setFld_other (f := F.VBS_ISO_STAT_ADDR) wf (by decide) (by decide) rfl (.inr (by decide)))

theorem showClaim_regs {c a : Nat} (h : SameRegsBut l s t) (there : F.VBS_ISO_STAT_CLAIM.addr ∈ l) : SameRegsBut l s (showClaim c a t) :=
  (SameRegsBut.setFld (f := F.VBS_ISO_STAT_ADDR) h there).setFld (f := F.VBS_ISO_STAT_CLAIM) there

theorem showClaim_keeps {P : State → Prop} {c a : Nat} (C : Keeps [.regs] P) (h : P s) : P (showClaim c a s) := setFld_keeps C (setFld_keeps C h)

/-! ## The device's claim -/

/-- The device claims an address now, and has none yet. -/
def claiming (sa : Nat) (s : State) : State := showClaim 1 254 { s with bus := { s.bus with claimSa := sa, claimAt := s.time.count } }

theorem claim_eq (sa : Nat) (s : State) : claim sa s = sendClaim (claiming sa s) := rfl

theorem claiming_shows (wf : RegsOk s) : fld (claim sa s) F.VBS_ISO_STAT_CLAIM = 1 ∧ fld (claim sa s) F.VBS_ISO_STAT_ADDR = 254 := by
  rw [claim_eq, sendClaim_fld, sendClaim_fld]
  exact showClaim_shows (s := { s with bus := _ }) wf (by decide) (by decide)

theorem claiming_contests (wf : RegsOk s) : fld (claiming sa s) F.VBS_ISO_STAT_CONTESTS = fld s F.VBS_ISO_STAT_CONTESTS :=
  showClaim_contests (s := { s with bus := { s.bus with claimSa := sa, claimAt := s.time.count } }) wf

theorem claim_bus : (claim sa s).bus = { s.bus with claimSa := sa, claimAt := s.time.count } :=
  sendClaim_keeps (shows_bus (by decide)) (showClaim_keeps (shows_bus (by decide)) rfl)

theorem claim_sent (up : PortUp s 1) : (claim sa s).sent = ownClaim s :: s.sent := by
  have written : SameRegsBut [F.VBS_ISO_STAT_CLAIM.addr] s (claiming sa s) := showClaim_regs ((SameRegsBut.refl _ s).same rfl rfl) (by decide)
  rw [claim_eq, sendClaim_up (portUp_of_regs written (by decide) up)]
  rfl

theorem exec_addressClaimStart : exec .addressClaimStart s = .next (live s fun s =>
    if fld s F.VBS_ISO_STAT_CLAIM = 0 ∧ (rolePort s 1).isSome = true then claim (prefSa s) s else s) := rfl

theorem exec_addressClaimTimer : exec .addressClaimTimer s = .next (live s fun s =>
    if fld s F.VBS_ISO_STAT_CLAIM = 1 ∧ s.bus.claimAt + 6250000 ≤ s.time.count then
      busEvent 4 .note s.bus.claimSa (showClaim 2 s.bus.claimSa s)
    else s) := rfl

theorem addressesAreClaimed (up : running s = true) (inv : Inv s) : AddressesAreClaimed s := by
  refine ⟨fun starts => goes_live up exec_addressClaimStart ?_, fun other => idle_live exec_addressClaimStart (if_neg other),
    fun ends small => goes_live up exec_addressClaimTimer ?_, fun other => idle_live exec_addressClaimTimer (if_neg other)⟩
  · rw [if_pos starts]
    obtain ⟨shown, addr⟩ := claiming_shows (sa := prefSa s) inv.regs
    exact ⟨claim_bus, shown, addr, claim_sent⟩
  · rw [if_pos ends]
    obtain ⟨shown, addr⟩ := showClaim_shows (c := 2) (a := s.bus.claimSa) inv.regs (by decide) small
    exact ⟨(fld_report (by decide)).trans shown, (fld_report (by decide)).trans addr, report_bus, fun room => report_recorded room⟩

/-! ## Claims of other devices -/

/-- The address of another device's NAME is known, and none has its address but it. -/
def addressKnown (m : ClaimMsg) (s : State) : State :=
  let others := s.bus.names.filter fun e => e.1 ≠ m.name ∧ e.2 ≠ m.sa.toNat
  { s with bus := { s.bus with names := if m.sa.toNat < 254 then others ++ [(m.name, m.sa.toNat)] else others } }

theorem exec_addressClaimed (m : ClaimMsg) : exec (.addressClaimed m) s = .next (live s fun s =>
    if (fld (addressKnown m s) F.VBS_ISO_STAT_CLAIM = 1 ∨ fld (addressKnown m s) F.VBS_ISO_STAT_CLAIM = 2) ∧
        m.sa.toNat = (addressKnown m s).bus.claimSa ∧ m.name ≠ ownName (addressKnown m s) then
      if m.name.toNat < (ownName (addressKnown m s)).toNat then giveUp (addressKnown m s) else sendClaim (addressKnown m s)
    else addressKnown m s) := rfl

theorem addressKnown_names (m : ClaimMsg) (s : State) : let names := (addressKnown m s).bus.names
    (m.sa.toNat < 254 → ∀ e, e.1 = m.name → (e ∈ names ↔ e = (m.name, m.sa.toNat))) ∧ (254 ≤ m.sa.toNat → ∀ e ∈ names, e.1 ≠ m.name) ∧
    (∀ e, e.1 ≠ m.name → e.2 ≠ m.sa.toNat → (e ∈ names ↔ e ∈ s.bus.names)) := by
  unfold addressKnown
  by_cases low : m.sa.toNat < 254
  · simp only [low, if_true, List.mem_append, List.mem_filter, List.mem_singleton]
    grind
  · simp only [low, if_false, List.mem_filter]
    grind

/-- The device's address is contested, with a record. -/
def contested (s : State) : State := bump F.VBS_ISO_STAT_CONTESTS (busEvent 3 .warning s.bus.claimSa s)

/-- The address that the device claims next, if its NAME lets it claim another. -/
def nextSa (s : State) : Option Nat := if s.image.ownName.getLsbD 63 then freeSa s else none

theorem contested_regs : SameRegsBut [F.VBS_ISO_STAT_CONTESTS.addr, F.WDN_FLOG_STAT_SEQ.addr] s (contested s) :=
  SameRegsBut.bump (SameRegsBut.report (.refl _ s) (by decide)) (by decide)

theorem contested_wf (wf : RegsOk s) : RegsOk (contested s) := bump_keeps (keeps_regs_wf (by decide)) (busEvent_keeps (keeps_regs_wf (by decide)) wf)

theorem counted_of_fld {f : Fld} (same : fld u f = fld t f) (h : Counted f s t) : Counted f s u := same.trans h

theorem contested_counted (wf : RegsOk s) : Counted F.VBS_ISO_STAT_CONTESTS s (contested s) := by
  unfold Counted
  have before : fld (busEvent 3 .warning s.bus.claimSa s) F.VBS_ISO_STAT_CONTESTS = fld s F.VBS_ISO_STAT_CONTESTS := fld_report (by decide)
  rw [← before]
  exact counted_bump (busEvent_keeps (keeps_regs_wf (by decide)) wf) (by decide)

theorem contested_bus : (contested s).bus = s.bus := bump_keeps (shows_bus (by decide)) (busEvent_keeps (shows_bus (by decide)) rfl)

theorem contested_image : (contested s).image = s.image := bump_keeps (shows_image (by decide)) (busEvent_keeps (shows_image (by decide)) rfl)

theorem contested_boot : (contested s).boot = s.boot := bump_keeps (shows_boot (by decide)) (busEvent_keeps (shows_boot (by decide)) rfl)

theorem contested_sent : (contested s).sent = s.sent := bump_keeps (shows_sent_eq (by decide)) (busEvent_keeps (shows_sent_eq (by decide)) rfl)

theorem contested_recorded (room : s.log.queue.length < 256) : Recorded (contested s) 0x95 0x0F 3 1 := by
  have same (e : Event) : (bump F.VBS_ISO_STAT_CONTESTS (report e s)).log = (report e s).log := bump_keeps (shows_log (by decide)) rfl
  unfold Recorded contested busEvent
  rw [same]
  exact report_recorded room

theorem ownClaim_of (image : t.image = s.image) (boot : t.boot = s.boot) : ownClaim t = ownClaim s := by
  unfold ownClaim ownName strapB
  rw [image, boot]

theorem freeSa_of (names : t.bus.names = s.bus.names) : freeSa t = freeSa s := by
  unfold freeSa
  rw [names]

theorem giveUp_eq (s : State) : giveUp s = match nextSa s with
    | some a => claim a (contested s)
    | none => sendClaim (showClaim 3 254 (contested s)) := by
  have same : freeSa (contested s) = freeSa s := freeSa_of (congrArg BusSt.names contested_bus)
  unfold nextSa
  rw [← same]
  rfl

theorem giveUp_sent (up : PortUp s 1) : (giveUp s).sent = ownClaim s :: s.sent := by
  have same : ownClaim (contested s) = ownClaim s := ownClaim_of contested_image contested_boot
  have still : PortUp (contested s) 1 := portUp_of_regs contested_regs (by decide) up
  have shown : SameRegsBut [F.VBS_ISO_STAT_CLAIM.addr] (contested s) (showClaim 3 254 (contested s)) := showClaim_regs (.refl _ _) (by decide)
  rw [giveUp_eq]
  split
  · rw [claim_sent still, same, contested_sent]
  · have image : (showClaim 3 254 (contested s)).image = s.image := showClaim_keeps (shows_image (by decide)) contested_image
    have boot : (showClaim 3 254 (contested s)).boot = s.boot := showClaim_keeps (shows_boot (by decide)) contested_boot
    have sent : (showClaim 3 254 (contested s)).sent = s.sent := showClaim_keeps (shows_sent_eq (by decide)) contested_sent
    rw [sendClaim_up (portUp_of_regs shown (by decide) still), send_sent, ownClaim_of image boot, sent]

theorem giveUp_shows (wf : RegsOk s) : Counted F.VBS_ISO_STAT_CONTESTS s (giveUp s) ∧ fld (giveUp s) F.VBS_ISO_STAT_ADDR = 254 := by
  have wf' := contested_wf wf
  rw [giveUp_eq]
  split
  · refine ⟨?_, (claiming_shows wf').2⟩
    rw [claim_eq]
    exact counted_of_fld ((sendClaim_fld _).trans (claiming_contests wf')) (contested_counted wf)
  · exact ⟨counted_of_fld ((sendClaim_fld _).trans (showClaim_contests wf')) (contested_counted wf),
      (sendClaim_fld _).trans (showClaim_shows wf' (by decide) (by decide)).2⟩

theorem giveUp_recorded (room : s.log.queue.length < 256) : Recorded (giveUp s) 0x95 0x0F 3 1 := by
  have same : (giveUp s).log = (contested s).log := by
    rw [giveUp_eq]
    split
    · exact claim_keeps (shows_log (by decide)) rfl
    · exact sendClaim_keeps (shows_log (by decide)) (showClaim_keeps (shows_log (by decide)) rfl)
  unfold Recorded
  rw [same]
  exact contested_recorded room

/-- The address that is claimed next, or that none is. -/
theorem giveUp_claims (wf : RegsOk s) : match nextSa s with
    | some a => (giveUp s).bus = { s.bus with claimSa := a, claimAt := s.time.count } ∧ fld (giveUp s) F.VBS_ISO_STAT_CLAIM = 1
    | none => (giveUp s).bus = s.bus ∧ fld (giveUp s) F.VBS_ISO_STAT_CLAIM = 3 := by
  have wf' := contested_wf wf
  have time : (contested s).time = s.time := bump_keeps (shows_time (by decide)) (busEvent_keeps (shows_time (by decide)) rfl)
  rw [giveUp_eq]
  cases nextSa s with
  | some a => exact ⟨by rw [claim_bus, contested_bus, time], (claiming_shows wf').1⟩
  | none =>
    refine ⟨sendClaim_keeps (shows_bus (by decide)) (showClaim_keeps (shows_bus (by decide)) contested_bus), ?_⟩
    rw [sendClaim_fld]
    exact (showClaim_shows wf' (by decide) (by decide)).1

theorem giveUp_names (wf : RegsOk s) : (giveUp s).bus.names = s.bus.names := by
  have claims := giveUp_claims wf
  revert claims
  cases nextSa s with
  | some a => exact fun claims => (congrArg BusSt.names claims.1).trans rfl
  | none => exact fun claims => congrArg BusSt.names claims.1

/-- What another device's claim contends for: the address that this one claims or has claimed. -/
abbrev Contends (m : ClaimMsg) (s : State) : Prop :=
  (fld s F.VBS_ISO_STAT_CLAIM = 1 ∨ fld s F.VBS_ISO_STAT_CLAIM = 2) ∧ m.sa.toNat = s.bus.claimSa ∧ m.name ≠ ownName s

theorem goes_addressClaimed {m : ClaimMsg} {Q : State → Prop} (up : running s = true) (apart : ¬Contends m s → Q (addressKnown m s))
    (lower : Contends m s → m.name.toNat < (ownName s).toNat → Q (giveUp (addressKnown m s)))
    (higher : Contends m s → ¬m.name.toNat < (ownName s).toNat → Q (sendClaim (addressKnown m s))) : Goes (.addressClaimed m) s Q := by
  refine goes_live up (exec_addressClaimed m) ?_
  split
  · rename_i contends
    split
    · rename_i low
      exact lower contends low
    · rename_i high
      exact higher contends high
  · rename_i contends
    exact apart contends

theorem claimsAreHeard (m : ClaimMsg) (up : running s = true) (inv : Inv s) : ClaimsAreHeard m s := by
  let k := addressKnown m s
  obtain ⟨near, far, others⟩ := addressKnown_names m s
  have portUp : PortUp s 1 → PortUp k 1 := id
  refine goes_addressClaimed up (fun apart => ?_) (fun contends low => ?_) (fun contends high => ?_)
  · exact ⟨near, far, others, fun _ => ⟨rfl, rfl⟩, fun h => absurd h apart, fun h => absurd h apart, fun h => absurd h apart⟩
  · have names : (giveUp k).bus.names = k.bus.names := giveUp_names inv.regs
    obtain ⟨counted, addr⟩ := giveUp_shows (s := k) inv.regs
    have claims := giveUp_claims (s := k) inv.regs
    have free : (if s.image.ownName.getLsbD 63 then freeSa (giveUp k) else none) = nextSa k := by
      rw [freeSa_of names]
      rfl
    refine ⟨?_, ?_, ?_, fun h => absurd contends h, fun _ on => giveUp_sent (portUp on), fun _ h => absurd low (Nat.lt_asymm h),
      fun _ _ => ⟨counted, giveUp_recorded (s := k), addr, ?_⟩⟩
    · rw [names]
      exact near
    · rw [names]
      exact far
    · rw [names]
      exact others
    · rw [free]
      revert claims
      cases nextSa k with
      | some a => exact fun claims => ⟨congrArg BusSt.claimSa claims.1, claims.2⟩
      | none => exact fun claims => ⟨(congrArg BusSt.claimSa claims.1).trans rfl, claims.2⟩
  · have bus : (sendClaim k).bus = k.bus := sendClaim_keeps (shows_bus (by decide)) rfl
    have regs : (sendClaim k).regs = k.regs := sendClaim_keeps (shows_regs (by decide)) rfl
    refine ⟨?_, ?_, ?_, fun h => absurd contends h, fun _ on => by rw [sendClaim_up (portUp on)]; rfl, fun _ _ => ⟨?_, regs⟩,
      fun _ h => absurd h high⟩
    · rw [bus]
      exact near
    · rw [bus]
      exact far
    · rw [bus]
      exact others
    · rw [bus]
      rfl

/-! ## Requests for a PGN -/

theorem exec_requestPgn_asked (pgn : BitVec 18) (src dst : Byte) : exec (.requestPgn pgn src dst) s = .next (live s fun s =>
    let mine : Bool := claimed s && decide (dst.toNat = fld s F.VBS_ISO_STAT_ADDR)
    if dst ≠ 255 ∧ !mine then s
    else if pgn = 0xEE00 then (if fld s F.VBS_ISO_STAT_CLAIM = 0 then s else sendClaim s)
    else if pgn = s.image.statPgn then sendIsoStatus s
    else if mine then
      sendIso 0xE800 src.toNat ([1, 0xFF, 0xFF, 0xFF] ++ leBytes 1 src.toNat ++ leBytes 3 pgn.toNat) s
    else s) := rfl

theorem sendIsoStatus_claimed (has : claimed s = true) (up : PortUp s 1) : sendIsoStatus s =
    send (.isobus s.image.statPgn.toNat 255 ((statusBytes s).take 2 ++ ((statusBytes s).drop 4).take 6)) s :=
  (if_pos has).trans (sendIso_up up)

theorem sendIsoStatus_unclaimed (has : claimed s = false) : sendIsoStatus s = s := if_neg (by rw [has]; exact Bool.false_ne_true)

/-- A destination is the device's claimed address. -/
abbrev AskedAlone (dst : Byte) (s : State) : Prop := claimed s = true ∧ dst.toNat = fld s F.VBS_ISO_STAT_ADDR

theorem exec_requestPgn (pgn : BitVec 18) (src dst : Byte) : exec (.requestPgn pgn src dst) s = .next (live s fun s =>
    if dst ≠ 255 ∧ ¬AskedAlone dst s then s
    else if pgn = 0xEE00 then (if fld s F.VBS_ISO_STAT_CLAIM = 0 then s else sendClaim s)
    else if pgn = s.image.statPgn then sendIsoStatus s
    else if AskedAlone dst s then
      sendIso 0xE800 src.toNat ([1, 0xFF, 0xFF, 0xFF] ++ leBytes 1 src.toNat ++ leBytes 3 pgn.toNat) s
    else s) := by
  have ours (s : State) : (claimed s && decide (dst.toNat = fld s F.VBS_ISO_STAT_ADDR)) = decide (AskedAlone dst s) := by
    rw [Bool.decide_and, Bool.decide_eq_true]
  refine (exec_requestPgn_asked pgn src dst).trans (congrArg (fun f : State → State => Host.Outcome.next (live s f)) (funext fun s => ?_))
  simp only [ours, Bool.not_eq_true', decide_eq_false_iff_not, decide_eq_true_eq]

theorem requestsForPgns (pgn : BitVec 18) (src dst : Byte) (up : running s = true) : RequestsForPgns pgn src dst s := by
  intro on
  have heard (h : dst = 255 ∨ AskedAlone dst s) : ¬(dst ≠ 255 ∧ ¬AskedAlone dst s) := fun away => h.elim away.1 away.2
  refine ⟨fun h is begun => goes_live up (exec_requestPgn pgn src dst) ?_, fun h other is has => goes_live up (exec_requestPgn pgn src dst) ?_,
    fun mine other third => goes_live up (exec_requestPgn pgn src dst) ?_, fun quiet => idle_live (exec_requestPgn pgn src dst) ?_⟩
  · rw [if_neg (heard h), if_pos is, if_neg begun, sendClaim_up on]
    rfl
  · rw [if_neg (heard h), if_neg other, if_pos is, sendIsoStatus_claimed has on]
    rfl
  · rw [if_neg (heard (.inr mine)), if_neg other, if_neg third, if_pos mine, sendIso_up on]
    rfl
  · split
    · rfl
    · rename_i asked
      rcases quiet with away | ⟨is, unbegun⟩ | ⟨other, is, unclaimed⟩ | ⟨apart, other, third⟩
      · exact absurd ⟨fun is => away (.inl is), fun is => away (.inr is)⟩ asked
      · rw [if_pos is, if_pos unbegun]
      · rw [if_neg other, if_pos is, sendIsoStatus_unclaimed unclaimed]
      · rw [if_neg other, if_neg third, if_neg apart]

/-- Settles O54. -/
theorem canFramesAndAddresses : Obligations.CanFramesAndAddresses := fun _ up inv =>
  ⟨fun port f => canFramesAreFiltered port f up inv, addressesAreClaimed up inv, fun m => claimsAreHeard m up inv,
    fun pgn src dst => requestsForPgns pgn src dst up⟩

end

end Sys2Proof.Machine

end

section

set_option Elab.async false

/-! # Transport sessions (R509, R511, R530) -/

namespace Sys2Proof.Machine

open Sys2Proof.Claims (PortUp SessionFails SessionsOpen SessionsCarryData TransportSessions)

section
variable {s t u : State} {n p : Nat} {src : Byte} {x : TpSession}

/-! ## Sessions that end -/

theorem sendIso_only (pgn dst : Nat) (bs : List Byte) (s : State) : ∃ l, sendIso pgn dst bs s = { s with sent := l } := by
  unfold sendIso
  split
  · split
    · exact ⟨_, rfl⟩
    · exact ⟨_, rfl⟩
  · exact ⟨_, rfl⟩

theorem unmatched_counted (wf : RegsOk s) : Counted (F.VBS_RX_CNT_UNMATCHED p) s (unmatched (some p) s) :=
  counted_bump wf (of_decide_eq_true rfl)

theorem unmatched_only (port : Option Nat) (s : State) : unmatched port s = { s with regs := (unmatched port s).regs } := by
  cases port with
  | none => rfl
  | some p => rfl

theorem abortTp_fails (wf : RegsOk s) (is : x.src = src.toNat) : SessionFails src s (abortTp x s) := by
  have bus : (unmatched (rolePort s 1) (dropTp x.src s)).bus = (dropTp x.src s).bus := unmatched_keeps (shows_bus (by decide)) rfl
  have ends : SessionFails src s (unmatched (rolePort s 1) (dropTp x.src s)) := by
    refine ⟨by rw [bus, is]; rfl, fun p role => ?_⟩
    rw [role]
    exact unmatched_counted (s := dropTp x.src s) wf
  unfold abortTp
  refine ite_keeps (P := SessionFails src s) ends ?_
  obtain ⟨l, sends⟩ := sendIso_only 0xEC00 x.src ([255, 3, 0xFF, 0xFF, 0xFF] ++ leBytes 3 x.pgn) (unmatched (rolePort s 1) (dropTp x.src s))
  rw [sends]
  exact ends

theorem exec_tpSessionTimeout (src : Byte) : exec (.tpSessionTimeout src) s = .next (live s fun s =>
    match s.bus.tp.find? fun t => t.src = src.toNat with
    | some t => abortTp t s
    | none => s) := rfl

theorem exec_tpBam (size : Nat) (pgn : BitVec 18) :
    exec (.tpMessage src (.bam size pgn)) s = .next (live s (openTp ⟨src.toNat, true, pgn.toNat, size, 1, []⟩)) := rfl

theorem exec_tpRts (size : Nat) (pgn : BitVec 18) : exec (.tpMessage src (.rts size pgn)) s = .next (live s fun s =>
    if claimed s then openTp ⟨src.toNat, false, pgn.toNat, size, 1, []⟩ s else s) := rfl

theorem exec_tpAbort : exec (.tpMessage src .abort) s = .next (live s (dropTp src.toNat)) := rfl

theorem exec_tpData (k : Nat) (bytes : List Byte) : exec (.tpMessage src (.data k bytes)) s = .next (live s fun s =>
    match s.bus.tp.find? fun t => t.src = src.toNat with
    | some t => dataTp t k bytes s
    | none => unmatched (rolePort s 1) s) := rfl

/-! ## Sessions that open -/

/-- The sessions with a new one of a sender in place of its old one. -/
def sessionAdded (x : TpSession) (s : State) : State :=
  { s with bus := { s.bus with tp := s.bus.tp.filter (fun y => y.src ≠ x.src) ++ [x] } }

theorem openTp_long (long : ¬(9 ≤ x.size ∧ x.size ≤ 1785)) : openTp x s = abortTp x s := if_pos (by omega)

theorem openTp_fits (fits : 9 ≤ x.size ∧ x.size ≤ 1785) : openTp x s = if x.bam then sessionAdded x s
    else sendIso 0xEC00 x.src ([17] ++ leBytes 1 ((x.size + 6) / 7) ++ [1, 0xFF, 0xFF] ++ leBytes 3 x.pgn) (sessionAdded x s) :=
  if_neg (by omega)

/-- The session that a sender opens. -/
abbrev newSession (src : Byte) (bam : Bool) (pgn : BitVec 18) (size : Nat) : TpSession := ⟨src.toNat, bam, pgn.toNat, size, 1, []⟩

theorem sessionsOpen (size : Nat) (pgn : BitVec 18) (up : running s = true) (inv : Inv s) : SessionsOpen src size pgn s := by
  refine ⟨fun fits => goes_live up (exec_tpBam size pgn) ?_, fun long => goes_live up (exec_tpBam size pgn) ?_,
    fun unclaimed => idle_live (exec_tpRts size pgn) (if_neg (by rw [unclaimed]; exact Bool.false_ne_true)),
    fun has long => goes_live up (exec_tpRts size pgn) ?_, fun has fits => goes_live up (exec_tpRts size pgn) ?_⟩
  · exact openTp_fits (x := newSession src true pgn size) fits
  · rw [openTp_long (x := newSession src true pgn size) long]
    exact abortTp_fails inv.regs rfl
  · rw [if_pos has, openTp_long (x := newSession src false pgn size) long]
    exact abortTp_fails inv.regs rfl
  · rw [if_pos has, openTp_fits (x := newSession src false pgn size) fits, if_neg Bool.false_ne_true]
    refine ⟨sendIso_keeps (shows_bus (by decide)) rfl, fun on => ?_⟩
    rw [sendIso_up (s := sessionAdded (newSession src false pgn size) s) on]
    rfl

/-! ## Sessions that carry data -/

/-- The identifier of a session's message, its priority apart. -/
def sessionIdent (x : TpSession) (s : State) : Nat :=
  (if x.pgn / 256 % 256 < 240 then x.pgn + if x.bam then 255 else fld s F.VBS_ISO_STAT_ADDR else x.pgn) * 256 + x.src

/-- The session of a complete message is gone, with its end acknowledged in connection mode. -/
def sessionClosed (x : TpSession) (s : State) : State :=
  if x.bam then dropTp x.src s
  else sendIso 0xEC00 x.src ([19] ++ leBytes 2 x.size ++ leBytes 1 ((x.size + 6) / 7) ++ [0xFF] ++ leBytes 3 x.pgn) (dropTp x.src s)

theorem sessionClosed_only (x : TpSession) (s : State) : ∃ l, sessionClosed x s = { dropTp x.src s with sent := l } := by
  unfold sessionClosed
  split
  · exact ⟨_, rfl⟩
  · exact sendIso_only _ _ _ _

/-- The priority of the message's identifier is chosen. -/
def sessionDone (x : TpSession) (s : State) : State := (nextFree (sessionClosed x s)).2

theorem sessionDone_only (x : TpSession) (s : State) : ∃ l, sessionDone x s = { dropTp x.src s with sent := l, free := s.free + 1 } := by
  obtain ⟨l, only⟩ := sessionClosed_only x s
  exact ⟨l, by rw [sessionDone, only]; rfl⟩

theorem sessionDone_keeps {P : State → Prop} (C : Keeps [.bus, .sent, .free] P) (h : P s) : P (sessionDone x s) := by
  have dropped : P (dropTp x.src s) := dropTp_keeps (C.mono (by decide)) h
  refine nextFree_keeps (C.mono (by decide)) ?_
  unfold sessionClosed
  exact ite_keeps dropped (sendIso_keeps (C.mono (by decide)) dropped)

theorem sessionDone_filterOf (id : Nat) : filterOf (sessionDone x s) p id = filterOf s p id := by
  obtain ⟨l, only⟩ := sessionDone_only x s
  rw [only]
  rfl

/-- A complete message on a port. -/
def messageWhole (x : TpSession) (p ident base : Nat) (s : State) : State :=
  match filterOf s p base with
  | some f => deliverState f.stream.val (canSample ident true 0 0 0 0 x.bytes) (bump (F.VBS_RX_CNT_ACCEPTED p) s)
  | none => if s.image.bindings.any (bindingTakes s p base) then bump (F.VBS_RX_CNT_ACCEPTED p) s else unmatched (some p) s

theorem finishTp_eq : finishTp x s = match rolePort (sessionClosed x s) 1 with
    | none => sessionClosed x s
    | some p => messageWhole x p (Config.freeValue (sessionClosed x s).free % 8 * 2 ^ 26 + sessionIdent x (sessionClosed x s))
        (sessionIdent x (sessionClosed x s)) (sessionDone x s) := by
  unfold sessionIdent
  rfl

theorem sessionClosed_reads (role : Nat) : rolePort (sessionClosed x s) role = rolePort s role ∧ sessionIdent x (sessionClosed x s) = sessionIdent x s := by
  obtain ⟨l, only⟩ := sessionClosed_only x s
  rw [only]
  exact ⟨rfl, rfl⟩

theorem finishTp_of_role (role : rolePort s 1 = some p) : ∃ ident, finishTp x s = messageWhole x p ident (sessionIdent x s) (sessionDone x s) := by
  obtain ⟨same, base⟩ := sessionClosed_reads (x := x) (s := s) 1
  refine ⟨Config.freeValue (sessionClosed x s).free % 8 * 2 ^ 26 + sessionIdent x s, ?_⟩
  rw [finishTp_eq, same, role, base]

theorem messageWhole_bus {id base : Nat} : (messageWhole x p id base s).bus = s.bus := by
  unfold messageWhole
  split
  · exact deliverState_keeps (shows_bus (by decide)) rfl
  · exact ite_keeps (P := fun t : State => t.bus = s.bus) rfl rfl

theorem finishTp_filtered {f : CanFilter} (role : rolePort s 1 = some p) (found : filterOf s p (sessionIdent x s) = some f) :
    ∃ ident, finishTp x s =
      deliverState f.stream.val (canSample ident true 0 0 0 0 x.bytes) (bump (F.VBS_RX_CNT_ACCEPTED p) (sessionDone x s)) := by
  obtain ⟨ident, whole⟩ := finishTp_of_role (x := x) role
  refine ⟨ident, ?_⟩
  rw [whole, messageWhole, sessionDone_filterOf, found]

theorem finishTp_bus : (finishTp x s).bus = (dropTp x.src s).bus := by
  obtain ⟨l, closed⟩ := sessionClosed_only x s
  obtain ⟨k, done⟩ := sessionDone_only x s
  rw [finishTp_eq]
  split
  · rw [closed]
  · rw [messageWhole_bus, done]

theorem sessionDone_same (small : p < 4) : StreamsSame s (bump (F.VBS_RX_CNT_ACCEPTED p) (sessionDone x s)) := by
  obtain ⟨l, only⟩ := sessionDone_only x s
  rw [only]
  exact { regs := (acceptedFrame_same s.fifo small).regs, ing := rfl, frame := rfl, time := rfl, image := rfl, replay := rfl }

theorem dataTp_wrong {k : Nat} {bs : List Byte} (wrong : k ≠ x.next) : dataTp x k bs s = abortTp x s := if_pos wrong

/-- A session with the next data packet. -/
def withData (bs : List Byte) (x : TpSession) : TpSession := { x with next := x.next + 1, bytes := (x.bytes ++ bs.take 7).take x.size }

theorem dataTp_next {bs : List Byte} : dataTp x x.next bs s =
    if ((x.bytes ++ bs.take 7).take x.size).length = x.size then finishTp (withData bs x) s
    else { s with bus := { s.bus with tp := s.bus.tp.map fun y => if y.src = x.src then withData bs x else y } } := if_neg (fun h => h rfl)

theorem exec_tpData_open {k : Nat} {bs : List Byte} (found : s.bus.tp.find? (fun t => t.src = src.toNat) = some x) (up : running s = true)
    {Q : State → Prop} (q : Q (dataTp x k bs s)) : Goes (.tpMessage src (.data k bs)) s Q := by
  refine goes_live up (exec_tpData k bs) ?_
  rw [found]
  exact q

theorem sessionsCarryData (found : s.bus.tp.find? (fun t => t.src = src.toNat) = some x) (up : running s = true) (inv : Inv s) :
    SessionsCarryData src x s := by
  have is : x.src = src.toNat := of_decide_eq_true (p := x.src = src.toNat) (List.find?_some found :)
  refine ⟨goes_live up (exec_tpSessionTimeout src) ?_, fun k bs => ⟨fun wrong => exec_tpData_open found up ?_, fun next more => exec_tpData_open found up ?_,
    fun next whole => exec_tpData_open found up ?_⟩⟩
  · rw [found]
    exact abortTp_fails inv.regs is
  · rw [dataTp_wrong wrong]
    exact abortTp_fails inv.regs is
  · rw [next, dataTp_next, if_neg more, ← is]
    rfl
  · rw [next, dataTp_next, if_pos whole]
    refine ⟨by rw [finishTp_bus]; exact congrArg (fun n => s.bus.tp.filter fun y => y.src ≠ n) is, fun p f role filtered => ?_⟩
    obtain ⟨ident, whole⟩ := finishTp_filtered (x := withData bs x) role filtered
    have small := rolePort_lt role
    have same := sessionDone_same (x := withData bs x) (s := s) small
    obtain ⟨l, done⟩ := sessionDone_only (withData bs x) s
    have counted : Counted (F.VBS_RX_CNT_ACCEPTED p) s (bump (F.VBS_RX_CNT_ACCEPTED p) (sessionDone (withData bs x) s)) := by
      rw [done]
      exact counted_bump (s := { dropTp x.src s with sent := l, free := s.free + 1 }) inv.regs (of_decide_eq_true rfl)
    have ok : Inv (bump (F.VBS_RX_CNT_ACCEPTED p) (sessionDone (withData bs x) s)) :=
      bump_keeps (keeps_inv (by decide)) (sessionDone_keeps (keeps_inv (by decide)) inv)
    rw [whole, same.deliverState_eq f.stream.isLt]
    refine ⟨?_, fun on takes => ⟨ident, ?_⟩⟩
    · exact ite_keeps (P := fun t => Counted (F.VBS_RX_CNT_ACCEPTED p) s t)
        (((deliverOwn_regs (ok.stream f.stream.isLt)).fld (busCount_apart small f.stream.isLt)).trans counted) counted
    · rw [on, if_pos rfl]
      exact same.admits f.stream.isLt ok (takes _)

theorem transportSessions (src : Byte) (up : running s = true) (inv : Inv s) : TransportSessions src s := by
  refine ⟨fun size pgn => sessionsOpen size pgn up inv, goes_live up exec_tpAbort rfl, fun x found => sessionsCarryData found up inv,
    fun absent => ⟨idle_live (exec_tpSessionTimeout src) (by rw [absent]), fun k bs => goes_live up (exec_tpData k bs) ?_⟩⟩
  rw [absent]
  refine ⟨unmatched_only _ s, fun p role => ?_⟩
  rw [role]
  exact unmatched_counted inv.regs

end

end Sys2Proof.Machine

end

section

set_option Elab.async false

/-! # Units of clients and release acknowledgements (R342, R409, R526 to R531) -/

namespace Sys2Proof.Machine

open Sys2Proof.Claims (RequestRefused ClientUnitsAreTaken AcknowledgementsAreJudged)

section
variable {s t : State} {port : Port} {client k : Nat} {bytes : List Byte}

/-! ## Acknowledgements -/

theorem exec_releaseAck : exec (.releaseAck port client bytes) s = .next (live s (takeAck port client bytes)) := rfl

/-- An acknowledgement is accepted: of ACK_CLIENT, for a recent frame, while release is pending and the frame has no doubt. -/
abbrev AckGood (client : Nat) (bytes : List Byte) (s : State) : Prop :=
  client = fld s F.WDN_REL_CFG_ACK_CLIENT ∧ s.pwr.safeStop = true ∧ s.safe.atRest = true ∧ s.safe.acked = none ∧
    s.frame.flags = 0 ∧ ∃ f, parseAck client bytes = some f ∧ frameDist f s.frame.num ≤ 64

theorem takeAck_eq : takeAck port client bytes s =
    if AckGood client bytes s then { s with safe := { s.safe with acked := some s.frame.num } }
    else unmatched (canPort s port) { s with bus := { s.bus with badAcks := s.bus.badAcks + 1 } } := by
  unfold takeAck releasePending
  refine if_congr ?_ rfl rfl
  simp only [Bool.and_eq_true, decide_eq_true_eq, Option.any_eq_true, Option.isNone_iff_eq_none, AckGood]
  tauto

theorem acknowledgementsAreJudged (up : running s = true) (inv : Inv s) : AcknowledgementsAreJudged port client bytes s := by
  refine ⟨fun good => goes_live up exec_releaseAck ?_, fun bad => goes_live up exec_releaseAck ?_⟩
  · rw [takeAck_eq, if_pos good]
  · rw [takeAck_eq, if_neg bad]
    refine ⟨unmatched_only _ { s with bus := { s.bus with badAcks := s.bus.badAcks + 1 } }, fun p role => ?_⟩
    rw [role]
    exact unmatched_counted (s := { s with bus := { s.bus with badAcks := s.bus.badAcks + 1 } }) inv.regs

/-! ## Client units -/

theorem exec_clientUnit (ident : BitVec 29) (name : Option (BitVec 64)) : exec (.clientUnit ident name port bytes) s = .next (live s fun s =>
    match bindingOf s ident.toNat name port with
    | none => unmatched (canPort s port) s
    | some b =>
      if bytes.length ≥ 16 then takeUnit port b.client bytes s
      else if bytes.length = 8 then takeAck port b.client bytes s
      else unmatched (canPort s port) s) := rfl

/-- The request that a unit of a client spells. -/
abbrev unitRequest (client : Nat) (bytes : List Byte) : ReqUnit := { parseReq bytes with client := client }

theorem takeUnit_eq : takeUnit port client bytes s = match unitKind bytes, (unitRequest client bytes).sub with
    | 0, _ => takePathCheck port (unitRequest client bytes) s
    | 1, _ => takePlanToGoal port (unitRequest client bytes) (parseGoal bytes) s
    | 2, _ => takeCorridorWatch port (unitRequest client bytes) s
    | 3, 0 => takeStart port (unitRequest client bytes) (bytes.drop 16) s
    | 3, 1 => takeSuspend port (unitRequest client bytes) s
    | 3, 2 => takeResume port (unitRequest client bytes) s
    | 3, 3 => takeCancel port (unitRequest client bytes) s
    | 3, 4 => takeQuery port (unitRequest client bytes) s
    | 3, _ => fabric s (refuseReq port 3 (unitRequest client bytes) (if cliEn s client then 0x13 else 0x10))
    | k, _ => fabric s (refuseReq port k (unitRequest client bytes) (if cliEn s client then 0x11 else 0x10)) := rfl

/-- A unit of a kind that R342 does not give, or with a SUB that it does not give. -/
theorem takeUnit_unknown (h : 3 < unitKind bytes ∨ (unitKind bytes = 3 ∧ 4 < (unitRequest client bytes).sub)) : takeUnit port client bytes s =
    fabric s (refuseReq port (unitKind bytes) (unitRequest client bytes)
      (if cliEn s client then (if unitKind bytes = 3 then 0x13 else 0x11) else 0x10)) := by
  rw [takeUnit_eq]
  rcases h with kind | ⟨kind, sub⟩
  · obtain ⟨j, is⟩ := Nat.exists_eq_add_of_lt kind
    have other : ¬(3 + j + 1 = 3) := by omega
    rw [is, if_neg other, Nat.add_right_comm 3 j 1, Nat.add_comm (3 + 1) j]
    rfl
  · obtain ⟨j, is⟩ := Nat.exists_eq_add_of_lt sub
    rw [kind, is, if_pos rfl, Nat.add_right_comm 4 j 1, Nat.add_comm (4 + 1) j]
    rfl

theorem clientUnitsAreTaken (ident : BitVec 29) (name : Option (BitVec 64)) (up : running s = true) (inv : Inv s) :
    ClientUnitsAreTaken ident name port bytes s := by
  have untaken : ∀ p, canPort s port = some p → Counted (F.VBS_RX_CNT_UNMATCHED p) s (unmatched (canPort s port) s) := fun p role => by
    rw [role]
    exact unmatched_counted inv.regs
  refine ⟨fun absent => goes_live up (exec_clientUnit ident name) ?_, fun b found => ?_⟩
  · rw [absent]
    exact ⟨unmatched_only _ s, untaken⟩
  · have takes : exec (.clientUnit ident name port bytes) s = .next (if bytes.length ≥ 16 then takeUnit port b.client bytes s
        else if bytes.length = 8 then takeAck port b.client bytes s else unmatched (canPort s port) s) := by
      rw [exec_clientUnit, live_of_running up, found]
    have unit (long : 16 ≤ bytes.length) : exec (.clientUnit ident name port bytes) s = .next (takeUnit port b.client bytes s) := by
      rw [takes, if_pos long]
    refine ⟨fun short other => ⟨_, takes, ?_⟩, fun eight => ?_, fun long => ⟨fun kind => ?_, fun kind => ?_, fun kind => ?_, fun kind sub => ?_,
      fun kind sub => ?_, fun kind sub => ?_, fun kind sub => ?_, fun kind sub => ?_, fun on unknown => ⟨_, unit long, ?_⟩⟩⟩
    · rw [if_neg (by omega), if_neg other]
      exact ⟨unmatched_only _ s, untaken⟩
    · rw [takes, if_neg (by omega), if_pos eight, exec_releaseAck, live_of_running up]
    · rw [unit long, takeUnit_eq, kind]
      rfl
    · rw [unit long, takeUnit_eq, kind]
      rfl
    · rw [unit long, takeUnit_eq, kind]
      rfl
    · rw [unit long, takeUnit_eq, kind, sub]
      rfl
    · rw [unit long, takeUnit_eq, kind, sub]
      rfl
    · rw [unit long, takeUnit_eq, kind, sub]
      rfl
    · rw [unit long, takeUnit_eq, kind, sub]
      rfl
    · rw [unit long, takeUnit_eq, kind, sub]
      rfl
    · rw [takeUnit_unknown unknown, fabric_of_up on]
      exact requestRefused _ _ _ _ inv

/-- Settles O55. -/
theorem sessionsAndClientUnits : Obligations.SessionsAndClientUnits := fun _ up inv =>
  ⟨fun src => transportSessions src up inv, fun ident name _ _ => clientUnitsAreTaken ident name up inv,
    fun _ _ _ => acknowledgementsAreJudged up inv⟩

end

end Sys2Proof.Machine

end

section

set_option Elab.async false

/-! # The recipient's heartbeat and device status (R518, R523 to R525) -/

namespace Sys2Proof.Machine

open Sys2Proof.Claims (PortUp Heartbeats StatusGoesOut)

section
variable {s t : State} {b : Byte} {bs : List Byte}

/-! ## Heartbeats -/

theorem flag_of_fld {f : Fld} (h : fld t f = fld s f) : flag t f = flag s f := by
  unfold flag
  rw [h]

/-- A heartbeat is valid: it differs from the previous valid one, or is the first after cold start or a lapse. -/
abbrev BeatValid (c : Nat) (s : State) : Prop := s.bus.lapseFrom ≠ none ∨ s.bus.hbCtr ≠ some c

/-- A valid heartbeat, after the end of a lapse, is that to which the next is compared. -/
def beatNoted (c : Nat) (s : State) (t : State) : State :=
  { t with bus := { t.bus with
    hbBase := if t.frame.started then some t.time.count else none
    hbCtr := some c
    hbSkips := t.bus.hbSkips + if (if s.bus.lapseFrom.isSome then none else s.bus.hbCtr).any (fun o => decide ((o + 1) % 256 ≠ c)) then 1 else 0 } }

theorem exec_heartbeatRx : exec (.heartbeatRx ⟨b :: bs⟩) s = .next (live s fun s =>
    if (if s.bus.lapseFrom.isSome then none else s.bus.hbCtr) = some b.toNat then s
    else setFld F.VBS_HB_STAT_LAST_CTR b.toNat (beatNoted b.toNat s (endLapse s))) := rfl

theorem beatValid_iff {c : Nat} : BeatValid c s ↔ ¬(if s.bus.lapseFrom.isSome then none else s.bus.hbCtr) = some c := by
  cases h : s.bus.lapseFrom with
  | none => simp [BeatValid, h]
  | some x => simp [BeatValid, h]

theorem endLapse_of_none (h : s.bus.lapseFrom = none) : endLapse s = s := by
  unfold endLapse
  rw [h]

/-- The end of a lapse, before its length is shown as over. -/
def lapseEnded (from' : Tick) (s : State) : State :=
  let ms := (s.time.count - from') / 25000
  let s1 := setSat F.VBS_HB_STAT_LAPSE_MAX (max ms (fld s F.VBS_HB_STAT_LAPSE_MAX)) s
  busEvent 8 .note (min ms 0xFFFF) { s1 with bus := { s1.bus with lapseFrom := none, overTold := false } }

theorem endLapse_of_some {x : Tick} (h : s.bus.lapseFrom = some x) :
    endLapse s = setFlag F.VBS_HB_STAT_LAPSED false (setFlag F.VBS_HB_STAT_OVER false (lapseEnded x s)) := by
  unfold endLapse
  rw [h]
  rfl

theorem lapseEnded_bus {x : Tick} : (lapseEnded x s).bus = { s.bus with lapseFrom := none, overTold := false } :=
  busEvent_keeps (shows_bus (by decide)) rfl

theorem lapseEnded_recorded {x : Tick} (room : s.log.queue.length < 256) : Recorded (lapseEnded x s) 0x95 0x0F 8 0 := report_recorded room

theorem lapseEnded_wf {x : Tick} (wf : RegsOk s) : RegsOk (lapseEnded x s) := busEvent_keeps (keeps_regs_wf (by decide)) (setFld_wf wf)

theorem bus_of_noLapse {b : BusSt} (h : b.lapseFrom = none) :
    b = { b with lapseFrom := none, overTold := if b.lapseFrom.isSome then false else b.overTold } := by
  cases b
  cases h
  rfl

theorem endLapse_bus : (endLapse s).bus =
    { s.bus with lapseFrom := none, overTold := if s.bus.lapseFrom.isSome then false else s.bus.overTold } := by
  rcases Option.eq_none_or_eq_some s.bus.lapseFrom with h | ⟨x, h⟩
  · rw [endLapse_of_none h]
    exact bus_of_noLapse h
  · have ended : s.bus.lapseFrom.isSome = true := Option.isSome_iff_exists.mpr ⟨x, h⟩
    rw [endLapse_of_some h, if_pos ended, setFlag_bus, setFlag_bus]
    exact lapseEnded_bus

theorem endLapse_frame : (endLapse s).frame = s.frame := endLapse_keeps (shows_frame (by decide)) rfl

theorem endLapse_time : (endLapse s).time = s.time := endLapse_keeps (shows_time (by decide)) rfl

theorem endLapse_lapse {x : Tick} (wf : RegsOk s) (h : s.bus.lapseFrom = some x) : flag (endLapse s) F.VBS_HB_STAT_LAPSED = false ∧
    (s.log.queue.length < 256 → Recorded (endLapse s) 0x95 0x0F 8 0) := by
  have before : RegsOk (setFlag F.VBS_HB_STAT_OVER false (lapseEnded x s)) := setFld_wf (lapseEnded_wf wf)
  have log : (endLapse s).log = (lapseEnded x s).log := by rw [endLapse_of_some h, setFlag_log, setFlag_log]
  refine ⟨?_, fun room => ?_⟩
  · rw [endLapse_of_some h]
    exact flag_setFlag_same before (by decide)
  · unfold Recorded
    rw [log]
    exact lapseEnded_recorded room

theorem endLapse_wf (wf : RegsOk s) : RegsOk (endLapse s) := endLapse_keeps (keeps_regs_wf (by decide)) wf

/-- A skip counts only where no lapse goes before. -/
theorem skip_iff {c : Nat} : (if s.bus.lapseFrom.isSome then none else s.bus.hbCtr).any (fun o => decide ((o + 1) % 256 ≠ c)) = true ↔
    s.bus.lapseFrom = none ∧ (s.bus.hbCtr.any fun o => decide ((o + 1) % 256 ≠ c)) = true := by
  cases s.bus.lapseFrom with
  | none => simp
  | some x => simp

theorem heartbeat_valid (wf : RegsOk s) : let t := setFld F.VBS_HB_STAT_LAST_CTR b.toNat (beatNoted b.toNat s (endLapse s))
    t.bus = { s.bus with
      hbCtr := some b.toNat, lapseFrom := none, hbBase := if s.frame.started then some s.time.count else none
      overTold := if s.bus.lapseFrom.isSome then false else s.bus.overTold
      hbSkips := s.bus.hbSkips +
        if s.bus.lapseFrom = none ∧ (s.bus.hbCtr.any fun o => decide ((o + 1) % 256 ≠ b.toNat)) = true then 1 else 0 } ∧
    t.frame = s.frame ∧ (s.bus.lapseFrom ≠ none → flag t F.VBS_HB_STAT_LAPSED = false ∧
      (s.log.queue.length < 256 → Recorded t 0x95 0x0F 8 0)) := by
  intro t
  have noted : RegsOk (beatNoted b.toNat s (endLapse s)) := endLapse_wf wf
  refine ⟨?_, setFld_frame _ _ _ |>.trans endLapse_frame, fun lapse => ?_⟩
  · rw [setFld_bus]
    unfold beatNoted
    rw [endLapse_bus, endLapse_frame, endLapse_time]
    simp only [skip_iff]
  · obtain ⟨x, on⟩ := Option.ne_none_iff_exists'.mp lapse
    obtain ⟨off, recorded⟩ := endLapse_lapse wf on
    refine ⟨(flag_of_fld ?_).trans off, recorded⟩
    exact fld_setFld_other noted (by decide) (by decide) rfl (.inr (by decide))

/-- The lapse that HB_TIMEOUT begins. -/
abbrev LapseDue (s : State) : Prop :=
  s.bus.lapseFrom = none ∧ ∃ x, s.bus.hbBase = some x ∧ x + fld s F.VBS_GUID_CFG_HB_TIMEOUT * 25000 ≤ s.time.count

/-- The lapse begins now. -/
def lapseBegun (s : State) : State :=
  busEvent 6 .warning (frameN s) (setFlag F.VBS_HB_STAT_LAPSED true { s with bus := { s.bus with lapseFrom := some s.time.count } })

theorem exec_hbTimeoutExpiry : exec .hbTimeoutExpiry s = .next (live s fun s =>
    if s.bus.lapseFrom.isSome ∨ !s.bus.hbBase.any (fun t => decide (t + fld s F.VBS_GUID_CFG_HB_TIMEOUT * 25000 ≤ s.time.count)) then s
    else lapseBegun s) := rfl

theorem lapseDue_iff : (s.bus.lapseFrom.isSome = true ∨
    (!s.bus.hbBase.any fun t => decide (t + fld s F.VBS_GUID_CFG_HB_TIMEOUT * 25000 ≤ s.time.count)) = true) ↔ ¬LapseDue s := by
  have late : (s.bus.hbBase.any fun t => decide (t + fld s F.VBS_GUID_CFG_HB_TIMEOUT * 25000 ≤ s.time.count)) = true ↔
      ∃ x, s.bus.hbBase = some x ∧ x + fld s F.VBS_GUID_CFG_HB_TIMEOUT * 25000 ≤ s.time.count := by
    simp only [Option.any_eq_true, decide_eq_true_eq]
  unfold LapseDue
  rw [Bool.not_eq_true', ← Bool.not_eq_true, late, Option.isSome_iff_ne_none, ← not_and_or]

theorem heartbeats (up : running s = true) (inv : Inv s) : Heartbeats s := by
  refine ⟨idle_live (f := fun s => s) rfl rfl, fun b bs valid => goes_live up exec_heartbeatRx ?_, fun b bs on same => idle_live exec_heartbeatRx ?_,
    fun late => goes_live up exec_hbTimeoutExpiry ?_, fun other => idle_live exec_hbTimeoutExpiry (if_pos (lapseDue_iff.mpr other))⟩
  · rw [if_neg (beatValid_iff.mp valid)]
    exact heartbeat_valid inv.regs
  · rw [on, same]
    exact if_pos rfl
  · rw [if_neg (fun h => lapseDue_iff.mp h late)]
    refine ⟨busEvent_keeps (shows_bus (by decide)) rfl, ?_, busEvent_keeps (shows_frame (by decide)) rfl, fun room => report_recorded room⟩
    exact (flag_report (by decide)).trans (flag_setFlag_same (s := { s with bus := { s.bus with lapseFrom := some s.time.count } }) inv.regs (by decide))

/-! ## Device status -/

theorem exec_statPeriodTimer : exec .statPeriodTimer s = .next (live s sendStatus) := rfl

/-- The device's status as it goes out on the ISOBUS port. -/
def isoStatus (s : State) : Output := .isobus s.image.statPgn.toNat 255 ((statusBytes s).take 2 ++ ((statusBytes s).drop 4).take 6)

/-- The device's status as it goes out on the guidance port. -/
def guidStatus (s : State) : Output :=
  .canXl (fld s F.VBS_GUID_CFG_GID_BASE + if strapB s then 5 else 4) s.image.sdt s.frame.num (statusBytes s)

/-- The flags of the moment stand, and what has gone out. -/
def statusSent (l : List Output) (s : State) : State := { s with bus := { s.bus with sflags := sflagsNow s }, sent := l }

/-- The status on the ISOBUS port goes out where the device has an address and the port is on the bus. -/
theorem sendIsoStatus_sent (s : State) : ∃ l, (claimed s = true → PortUp s 1 → isoStatus s ∈ l) ∧
    sendIsoStatus (statusSent s.sent s) = statusSent l s := by
  cases has : claimed s with
  | false => exact ⟨s.sent, fun h => absurd h Bool.false_ne_true, sendIsoStatus_unclaimed (s := statusSent s.sent s) has⟩
  | true =>
    have goes : sendIsoStatus (statusSent s.sent s) =
        sendIso s.image.statPgn.toNat 255 ((statusBytes s).take 2 ++ ((statusBytes s).drop 4).take 6) (statusSent s.sent s) := if_pos has
    rw [goes]
    obtain ⟨l, only⟩ := sendIso_only s.image.statPgn.toNat 255 ((statusBytes s).take 2 ++ ((statusBytes s).drop 4).take 6) (statusSent s.sent s)
    refine ⟨l, fun _ on => ?_, only⟩
    have sent : l = isoStatus s :: s.sent :=
      (congrArg State.sent only).symm.trans (congrArg State.sent (sendIso_up (s := statusSent s.sent s) on))
    rw [sent]
    exact List.mem_cons_self

/-- Where the status on the guidance port goes. -/
def statusOnGuidance (l : List Output) (s : State) : State :=
  match rolePort s 2 with
  | some p => if portOff s p then statusSent l s else sendGuidance (guidStatus s) (statusSent l s)
  | none => statusSent l s

theorem sendStatus_eq (s : State) : ∃ l, (claimed s = true → PortUp s 1 → isoStatus s ∈ l) ∧ sendStatus s = statusOnGuidance l s := by
  obtain ⟨l, goes, only⟩ := sendIsoStatus_sent s
  refine ⟨l, goes, ?_⟩
  have unfolded : sendStatus s = match rolePort (sendIsoStatus (statusSent s.sent s)) 2 with
    | some p => if portOff (sendIsoStatus (statusSent s.sent s)) p then sendIsoStatus (statusSent s.sent s)
      else sendGuidance (.canXl (fld s F.VBS_GUID_CFG_GID_BASE + if strapB s then 5 else 4) (sendIsoStatus (statusSent s.sent s)).image.sdt
        (sendIsoStatus (statusSent s.sent s)).frame.num (statusBytes (sendIsoStatus (statusSent s.sent s)))) (sendIsoStatus (statusSent s.sent s))
    | none => sendIsoStatus (statusSent s.sent s) := rfl
  rw [unfolded, only]
  rfl

theorem statusOnGuidance_up {l : List Output} (up : PortUp s 2) : statusOnGuidance l s = sendGuidance (guidStatus s) (statusSent l s) := by
  obtain ⟨p, is, on⟩ := up
  unfold statusOnGuidance
  rw [is]
  exact if_neg (by rw [on]; exact Bool.false_ne_true)

theorem sendGuidance_idle {o : Output} (idle : s.bus.onBus = none) : sendGuidance o s = send o s := if_neg (by rw [idle]; exact Bool.false_ne_true)

theorem sendGuidance_busy {o : Output} (busy : s.bus.onBus ≠ none) :
    sendGuidance o s = { s with bus := { s.bus with guidOut := s.bus.guidOut ++ [o] } } := if_pos (Option.isSome_iff_ne_none.mpr busy)

theorem mem_sendGuidance {o x : Output} (h : x ∈ s.sent) : x ∈ (sendGuidance o s).sent :=
  ite_keeps (P := fun t : State => x ∈ t.sent) h (List.mem_cons_of_mem _ h)

theorem sendGuidance_sflags {o : Output} : (sendGuidance o s).bus.sflags = s.bus.sflags :=
  ite_keeps (P := fun t : State => t.bus.sflags = s.bus.sflags) rfl rfl

theorem statusGoesOut (up : running s = true) : StatusGoesOut s := by
  obtain ⟨l, goes, is⟩ := sendStatus_eq s
  refine goes_live up exec_statPeriodTimer ?_
  rw [is]
  refine ⟨?_, fun has on => ?_, fun on idle => ?_, fun on busy => ?_⟩
  · unfold statusOnGuidance
    split
    · exact ite_keeps (P := fun t : State => t.bus.sflags = sflagsNow s) rfl sendGuidance_sflags
    · rfl
  · have sent : isoStatus s ∈ (statusSent l s).sent := goes has on
    unfold statusOnGuidance
    split
    · exact ite_keeps (P := fun t : State => isoStatus s ∈ t.sent) sent (mem_sendGuidance sent)
    · exact sent
  · rw [statusOnGuidance_up on, sendGuidance_idle (s := statusSent l s) idle]
    exact ⟨l, rfl⟩
  · rw [statusOnGuidance_up on, sendGuidance_busy (s := statusSent l s) busy]
    rfl

end

end Sys2Proof.Machine

end

section

set_option Elab.async false

/-! # The output stage (R513, R516 to R519, R530) -/

namespace Sys2Proof.Machine

open Sys2Proof.Claims (PortUp PartGoesOut BundlesGoOutInParts)

section
variable {s t u : State} {x : OnBus} {b : TxBundle} {p n : Nat} {l : List Nat} {why : TxFault}

/-! ## Parts -/

/-- The output that carries a part. -/
def partOut (x : OnBus) (s : State) : Output :=
  .canXl (fld s F.VBS_GUID_CFG_GID_BASE + (if strapB s then 2 else 0) + x.part) s.image.sdt x.bundle.frame (partBytes s x)

/-- From s to t nothing has changed that a part on its way out meets: registers have changed but those of a list. -/
structure PartsSame (s t : State) : Prop where
  regs : ∃ l, SameRegsBut l s t ∧ RolesApart l ∧ F.VBS_GUID_CFG_GID_BASE.addr ∉ l
  off : ∀ p, p < 4 → portOff t p = portOff s p
  image : t.image = s.image
  boot : t.boot = s.boot

theorem PartsSame.rolePort (h : PartsSame s t) {role : Nat} : rolePort t role = rolePort s role := by
  obtain ⟨l, regs, roles, -⟩ := h.regs
  exact rolePort_of_regs regs roles

theorem PartsSame.portUp (h : PartsSame s t) {role : Nat} (up : PortUp s role) : PortUp t role := by
  obtain ⟨p, is, on⟩ := up
  exact ⟨p, h.rolePort.trans is, (h.off p (rolePort_lt is)).trans on⟩

theorem PartsSame.partOut (h : PartsSame s t) : partOut x t = partOut x s := by
  obtain ⟨l, regs, -, gid⟩ := h.regs
  unfold Machine.partOut partBytes strapB
  rw [regs.fld gid, h.image, h.boot]

theorem PartsSame.of_regs (h : SameRegsBut l s t) (apart : PortsApart l) (gid : F.VBS_GUID_CFG_GID_BASE.addr ∉ l) (image : t.image = s.image)
    (boot : t.boot = s.boot) : PartsSame s t where
  regs := ⟨l, h, apart.1, gid⟩
  off p small := by
    unfold portOff
    rw [h.fld (apart.2 p (List.mem_range.mpr small))]
  image := image
  boot := boot

theorem putPart_bus : (putPart s).bus = s.bus := putPart_keeps (shows_bus (by decide)) rfl

theorem putPart_up (on : s.bus.onBus = some x) (up : PortUp s 2) : putPart s = send (partOut x s) s := by
  obtain ⟨p, is, goes⟩ := up
  unfold putPart
  rw [on, is]
  exact if_neg (by rw [goes]; exact Bool.false_ne_true)

theorem putPart_goesOut (same : PartsSame s t) (on : t.bus.onBus = some x) : PartGoesOut x s (putPart t) := by
  refine ⟨by rw [putPart_bus]; exact on, fun up => ⟨t.sent, ?_⟩⟩
  rw [putPart_up on (same.portUp up), send_sent, same.partOut]
  rfl

theorem PartsSame.refl (s : State) : PartsSame s s := ⟨⟨[], .refl _ s, by decide, by decide⟩, fun _ _ => rfl, rfl, rfl⟩

theorem PartsSame.trans (h : PartsSame s t) (g : PartsSame t u) : PartsSame s u where
  regs := by
    obtain ⟨l, regs, roles, gid⟩ := h.regs
    obtain ⟨m, more, roles', gid'⟩ := g.regs
    refine ⟨l ++ m, (regs.mono (List.subset_append_left l m)).trans (more.mono (List.subset_append_right l m)), fun n hn there => ?_, fun there => ?_⟩
    · exact (List.mem_append.mp there).elim (roles n hn) (roles' n hn)
    · exact (List.mem_append.mp there).elim gid gid'
  off p small := (g.off p small).trans (h.off p small)
  image := g.image.trans h.image
  boot := g.boot.trans h.boot

/-! ## The state of a port -/

theorem portStat_apart (p : Nat) : RolesApart [0x741000 + 4 * p] ∧ F.VBS_GUID_CFG_GID_BASE.addr ∉ [0x741000 + 4 * p] := by
  refine ⟨fun n hn => ?_, ?_⟩
  · rw [List.mem_range] at hn
    simp only [F.VBS_PORT_CFG_ROLE, List.mem_singleton]
    omega
  · simp only [F.VBS_GUID_CFG_GID_BASE, List.mem_singleton]
    omega

/-- A port whose state alone has changed, and is off as before. -/
theorem PartsSame.of_port (h : SameRegsBut [0x741000 + 4 * p] s t) (off : portOff t p = portOff s p) (image : t.image = s.image)
    (boot : t.boot = s.boot) : PartsSame s t where
  regs := ⟨_, h, portStat_apart p⟩
  off q small := by
    by_cases is : q = p
    · rw [is]
      exact off
    · unfold portOff
      rw [h.fld]
      simp only [F.VBS_PORT_STAT_STATE, List.mem_singleton]
      omega
  image := image
  boot := boot

theorem portOff_of_fld (h : fld t (F.VBS_PORT_STAT_STATE p) = fld s (F.VBS_PORT_STAT_STATE p)) : portOff t p = portOff s p := by
  unfold portOff
  rw [h]

theorem portOff_of_lt (low : fld s (F.VBS_PORT_STAT_STATE p) < 2) : portOff s p = false := decide_eq_false (Nat.not_le.mpr low)

theorem state_setTec {v : Nat} (wf : RegsOk s) : fld (setFld (F.VBS_PORT_STAT_TEC p) v s) (F.VBS_PORT_STAT_STATE p) = fld s (F.VBS_PORT_STAT_STATE p) :=
  fld_setFld_other wf (of_decide_eq_true rfl) (of_decide_eq_true rfl) rfl (.inr (of_decide_eq_true rfl))

theorem state_setState {v : Nat} (wf : RegsOk s) (small : v < 4) : fld (setFld (F.VBS_PORT_STAT_STATE p) v s) (F.VBS_PORT_STAT_STATE p) = v :=
  (fld_setFld_same wf (of_decide_eq_true rfl)).trans (Nat.mod_eq_of_lt small)

/-! ## The end of a part -/

/-- A successful transmission has lowered TEC, and the port with it from error passive. -/
def tecLowered (p : Nat) (s : State) : State :=
  let t := fld s (F.VBS_PORT_STAT_TEC p) - 1
  let s1 := setFld (F.VBS_PORT_STAT_TEC p) t s
  if t < 128 ∧ fld s1 (F.VBS_PORT_STAT_STATE p) = 1 then setFld (F.VBS_PORT_STAT_STATE p) 0 s1 else s1

theorem tecLowered_regs (p : Nat) (s : State) : SameRegsBut [0x741000 + 4 * p] s (tecLowered p s) := by
  unfold tecLowered
  extract_lets n s1
  have tec : SameRegsBut [0x741000 + 4 * p] s s1 := .setFld (.refl _ s) (List.mem_singleton_self _)
  exact ite_keeps (P := SameRegsBut _ s) (.setFld tec (List.mem_singleton_self _)) tec

theorem tecLowered_keeps {P : State → Prop} (C : Keeps [.regs] P) (h : P s) : P (tecLowered p s) := by
  unfold tecLowered
  extract_lets n s1
  exact ite_keeps (setFld_keeps C (setFld_keeps C h)) (setFld_keeps C h)

theorem tecLowered_same (wf : RegsOk s) : PartsSame s (tecLowered p s) := by
  refine .of_port (tecLowered_regs p s) ?_ (tecLowered_keeps (shows_image (by decide)) rfl) (tecLowered_keeps (shows_boot (by decide)) rfl)
  unfold tecLowered
  extract_lets n s1
  have tec : fld s1 (F.VBS_PORT_STAT_STATE p) = fld s (F.VBS_PORT_STAT_STATE p) := state_setTec wf
  split
  · rename_i passive
    rw [portOff_of_lt (by rw [state_setState (setFld_wf wf) (by decide)]; decide), portOff_of_lt (by rw [← tec, passive.2]; decide)]
  · exact portOff_of_fld tec

/-- The bundle of both parts counts, and shows so. -/
def bseqShown (x : OnBus) (s : State) : State :=
  setFld F.VBS_GUID_STAT_BSEQ x.bseq { s with bus := { s.bus with bseq := (s.bus.bseq + 1) % 65536 } }

/-- A guidance command goes out for a bundle that counts, where ISO_GUID asks for one. -/
def bundleDone (x : OnBus) (s : State) : State := guidanceCommand x.bundle (bseqShown x s)

theorem exec_bundlePartTxDone : exec .bundlePartTxDone s = .next (live s fun s =>
    match s.bus.onBus, rolePort s 2 with
    | some x, some p =>
      if x.part = 0 then putPart { tecLowered p s with bus := { (tecLowered p s).bus with onBus := some { x with part := 1 } } }
      else nextBundle (bundleDone x (tecLowered p s))
    | _, _ => s) := rfl

theorem guidanceCommand_only (b : TxBundle) (s : State) : ∃ l, guidanceCommand b s = { s with sent := l ++ s.sent } ∧
    (flag s F.VBS_STAT_CFG_ISO_GUID = true → claimed s = true → (rolePort s 1).isSome = true → .guidance b.curv b.steer ∈ l) := by
  unfold guidanceCommand
  split
  · exact ⟨[_], rfl, fun _ _ _ => List.mem_singleton_self _⟩
  · rename_i off
    refine ⟨[], rfl, fun iso has role => absurd ?_ off⟩
    rw [iso, has, role]
    rfl

theorem bseqShown_regs : SameRegsBut [F.VBS_GUID_STAT_BSEQ.addr] s (bseqShown x s) := .setFld ((SameRegsBut.refl _ s).same rfl rfl) (by decide)

theorem bseqShown_shows (wf : RegsOk s) (small : x.bseq < 65536) : fld (bseqShown x s) F.VBS_GUID_STAT_BSEQ = x.bseq :=
  (fld_setFld_same (s := { s with bus := { s.bus with bseq := (s.bus.bseq + 1) % 65536 } }) wf (by decide)).trans (Nat.mod_eq_of_lt small)

theorem bseqShown_same : PartsSame s (bseqShown x s) := .of_regs bseqShown_regs (by decide) (by decide) rfl rfl

theorem bundleDone_same : PartsSame s (bundleDone x s) := by
  obtain ⟨l, only, -⟩ := guidanceCommand_only x.bundle (bseqShown x s)
  unfold bundleDone
  rw [only]
  exact bseqShown_same.trans (.of_regs ((SameRegsBut.refl [] _).same rfl rfl) (by decide) (by decide) rfl rfl)

theorem bundleDone_bus : (bundleDone x s).bus = { s.bus with bseq := (s.bus.bseq + 1) % 65536 } := guidanceCommand_keeps (shows_bus (by decide)) rfl

theorem bundleDone_shows (wf : RegsOk s) (small : x.bseq < 65536) : fld (bundleDone x s) F.VBS_GUID_STAT_BSEQ = x.bseq := by
  obtain ⟨l, only, -⟩ := guidanceCommand_only x.bundle (bseqShown x s)
  unfold bundleDone
  rw [only]
  exact bseqShown_shows wf small

/-- A guidance command is asked for, and can go out. -/
abbrev CommandAsked (s : State) : Prop := flag s F.VBS_STAT_CFG_ISO_GUID = true ∧ claimed s = true ∧ (rolePort s 1).isSome = true

theorem commandAsked_of_regs {l : List Nat} (h : SameRegsBut l s t) (roles : RolesApart l)
    (apart : F.VBS_STAT_CFG_ISO_GUID.addr ∉ l ∧ F.VBS_ISO_STAT_CLAIM.addr ∉ l) (asked : CommandAsked s) : CommandAsked t := by
  unfold CommandAsked claimed at asked ⊢
  rw [h.flag apart.1, h.fld apart.2, rolePort_of_regs h roles]
  exact asked

theorem bundleDone_sent : ∃ l, (bundleDone x s).sent = l ++ s.sent ∧ (CommandAsked s → .guidance x.bundle.curv x.bundle.steer ∈ l) := by
  obtain ⟨l, only, goes⟩ := guidanceCommand_only x.bundle (bseqShown x s)
  refine ⟨l, by rw [bundleDone, only]; rfl, fun asked => ?_⟩
  obtain ⟨iso, has, role⟩ := commandAsked_of_regs bseqShown_regs (by decide) (by decide) asked
  exact goes iso has role

theorem commandAsked_tecLowered (small : p < 4) (asked : CommandAsked s) : CommandAsked (tecLowered p s) := by
  refine commandAsked_of_regs (tecLowered_regs p s) (portStat_apart p).1 ⟨?_, ?_⟩ asked
  · simp only [F.VBS_STAT_CFG_ISO_GUID, List.mem_singleton]
    omega
  · simp only [F.VBS_ISO_STAT_CLAIM, List.mem_singleton]
    omega

/-! ## What comes next -/

theorem foldl_send (os : List Output) : ∀ s : State, os.foldl (fun s o => send o s) s = { s with sent := os.reverse ++ s.sent } := by
  induction os with
  | nil => exact fun _ => rfl
  | cons o os ih =>
    intro s
    rw [List.foldl_cons, ih, List.reverse_cons, List.append_assoc]
    rfl

theorem nextBundle_none (h : s.bus.waiting = none) :
    nextBundle s = { s with bus := { s.bus with onBus := none, guidOut := [] }, sent := s.bus.guidOut.reverse ++ s.sent } := by
  unfold nextBundle
  rw [h]
  exact foldl_send _ _

theorem nextBundle_some (h : s.bus.waiting = some b) : nextBundle s = startBundle b s := by
  unfold nextBundle
  rw [h]

theorem startBundle_goesOut (same : PartsSame s t) : PartGoesOut ⟨b, 0, t.bus.bseq⟩ s (startBundle b t) :=
  putPart_goesOut (t := { t with bus := { t.bus with onBus := some ⟨b, 0, t.bus.bseq⟩, waiting := none } })
    ⟨same.regs, same.off, same.image, same.boot⟩ rfl

theorem nextBundle_sent (s : State) : ∃ l, (nextBundle s).sent = l ++ s.sent := nextBundle_keeps (shows_sent) ⟨[], rfl⟩

theorem nextBundle_bus : (nextBundle s).bus.bseq = s.bus.bseq ∧ (nextBundle s).bus.waiting = none := by
  rcases Option.eq_none_or_eq_some s.bus.waiting with h | ⟨b, h⟩
  · rw [nextBundle_none h]
    exact ⟨rfl, h⟩
  · rw [nextBundle_some h, startBundle_bus]
    exact ⟨rfl, rfl⟩

theorem nextBundle_fld (f : Fld) : fld (nextBundle s) f = fld s f :=
  (nextBundle_keeps (keeps_sameRegs (by decide)) (SameRegsBut.refl [] s)).fld List.not_mem_nil

/-! ## Transmit errors -/

/-- TEC as an error raises it. -/
def tecRaised (p : Nat) (s : State) : State := bumpBy (F.VBS_PORT_STAT_TEC p) 8 s

theorem countTec_eq (p : Nat) (s : State) : countTec p s =
    if fld (tecRaised p s) (F.VBS_PORT_STAT_TEC p) ≥ 128 ∧ fld (tecRaised p s) (F.VBS_PORT_STAT_STATE p) = 0 then
      busEvent 2 .warning p (setFld (F.VBS_PORT_STAT_STATE p) 1 (tecRaised p s))
    else tecRaised p s := rfl

/-- The registers that a transmit error writes. -/
abbrev errorAddrs (p : Nat) : List Nat := [0x741000 + 4 * p, F.WDN_FLOG_STAT_SEQ.addr]

theorem tecRaised_regs : SameRegsBut (errorAddrs p) s (tecRaised p s) := .setFld (.refl _ s) List.mem_cons_self

theorem countTec_regs : SameRegsBut (errorAddrs p) s (countTec p s) := by
  have log : logAddrs ⊆ errorAddrs p := fun a m => List.mem_cons_of_mem _ ((by decide : logAddrs ⊆ [F.WDN_FLOG_STAT_SEQ.addr]) m)
  rw [countTec_eq]
  exact ite_keeps (P := SameRegsBut _ s) (.report (.setFld tecRaised_regs List.mem_cons_self) log) tecRaised_regs

theorem countTec_off (wf : RegsOk s) (q : Nat) (small : q < 4) : portOff (countTec p s) q = portOff s q := by
  by_cases is : q = p
  · rw [is, countTec_eq]
    have tec : fld (tecRaised p s) (F.VBS_PORT_STAT_STATE p) = fld s (F.VBS_PORT_STAT_STATE p) := state_setTec wf
    have raised : RegsOk (tecRaised p s) := setFld_wf wf
    split
    · rename_i passive
      have shown : fld (busEvent 2 .warning p (setFld (F.VBS_PORT_STAT_STATE p) 1 (tecRaised p s))) (F.VBS_PORT_STAT_STATE p) = 1 :=
        (fld_report (by simp only [F.VBS_PORT_STAT_STATE, F.WDN_FLOG_STAT_SEQ]; omega)).trans (state_setState raised (by decide))
      rw [portOff_of_lt (by rw [shown]; decide), portOff_of_lt (by rw [← tec, passive.2]; decide)]
    · exact portOff_of_fld tec
  · refine portOff_of_fld (countTec_regs.fld ?_)
    simp only [F.VBS_PORT_STAT_STATE, F.WDN_FLOG_STAT_SEQ, List.mem_cons, List.not_mem_nil, or_false]
    omega

/-- What a transmit error counts before the part goes out again or its bundle is abandoned. -/
def errorCounted (why : TxFault) (p : Nat) (s : State) : State := if why = .error then countTec p s else s

theorem errorCounted_keeps {P : State → Prop} (C : Keeps [.indlog, .regs, .log, .queue] P) (h : P s) : P (errorCounted why p s) :=
  ite_keeps (countTec_keeps C h) h

theorem errorCounted_regs : SameRegsBut (errorAddrs p) s (errorCounted why p s) := ite_keeps (P := SameRegsBut _ s) countTec_regs (.refl _ s)

theorem errorCounted_same (wf : RegsOk s) : PartsSame s (errorCounted why p s) where
  regs := by
    refine ⟨_, errorCounted_regs, fun n hn => ?_, ?_⟩
    · rw [List.mem_range] at hn
      simp only [F.VBS_PORT_CFG_ROLE, F.WDN_FLOG_STAT_SEQ, List.mem_cons, List.not_mem_nil, or_false]
      omega
    · simp only [F.VBS_GUID_CFG_GID_BASE, F.WDN_FLOG_STAT_SEQ, List.mem_cons, List.not_mem_nil, or_false]
      omega
  off q small := ite_keeps (P := fun t => portOff t q = portOff s q) (countTec_off wf q small) rfl
  image := errorCounted_keeps (shows_image (by decide)) rfl
  boot := errorCounted_keeps (shows_boot (by decide)) rfl

theorem errorCounted_bus : (errorCounted why p s).bus = s.bus := errorCounted_keeps (shows_bus (by decide)) rfl

/-- The count of abandoned bundles, with the first record of a second. -/
def abandonCounted (x : OnBus) (s : State) : State :=
  let sec := s.time.count / 25000000
  let s1 := bump F.VBS_GUID_STAT_ABANDON s
  if s1.bus.abandonSec = some sec then s1
  else busEvent 9 .warning x.bundle.frame.toNat { s1 with bus := { s1.bus with abandonSec := some sec } }

theorem abandonBundle_eq (x : OnBus) (s : State) : abandonBundle x s = nextBundle (abandonCounted x s) := rfl

theorem abandonCounted_counted (wf : RegsOk s) : Counted F.VBS_GUID_STAT_ABANDON s (abandonCounted x s) := by
  have counted : Counted F.VBS_GUID_STAT_ABANDON s (bump F.VBS_GUID_STAT_ABANDON s) := counted_bump wf (by decide)
  refine ite_keeps (P := fun t => Counted F.VBS_GUID_STAT_ABANDON s t) counted ?_
  exact counted_of_fld (fld_report (by decide)) counted

theorem abandonCounted_bus : ∃ sec, (abandonCounted x s).bus = { s.bus with abandonSec := sec } := by
  unfold abandonCounted
  extract_lets sec s1
  split
  · exact ⟨_, rfl⟩
  · exact ⟨_, busEvent_keeps (shows_bus (by decide)) rfl⟩

theorem abandonCounted_same : PartsSame s (abandonCounted x s) := by
  have counted : SameRegsBut [F.VBS_GUID_STAT_ABANDON.addr, F.WDN_FLOG_STAT_SEQ.addr] s (bump F.VBS_GUID_STAT_ABANDON s) := .bump (.refl _ s) (by decide)
  refine ite_keeps (P := PartsSame s) (.of_regs counted (by decide) (by decide) rfl rfl) ?_
  exact .of_regs (SameRegsBut.report (counted.same rfl rfl) (by decide)) (by decide) (by decide) report_image report_boot

theorem exec_canTxError : exec (.canTxError why) s = .next (live s fun s =>
    match s.bus.onBus, rolePort s 2 with
    | some x, some p => if (errorCounted why p s).bus.waiting.isSome then abandonBundle x (errorCounted why p s) else putPart (errorCounted why p s)
    | _, _ => s) := rfl

theorem bundlesGoOutInParts (up : running s = true) (inv : Inv s) (on : s.bus.onBus = some x) (role : (rolePort s 2).isSome = true) :
    BundlesGoOutInParts x s := by
  obtain ⟨p, is⟩ := Option.isSome_iff_exists.mp role
  have small := rolePort_lt is
  have done {Q : State → Prop} (q : Q (if x.part = 0 then putPart { tecLowered p s with bus := { (tecLowered p s).bus with onBus := some { x with part := 1 } } }
      else nextBundle (bundleDone x (tecLowered p s)))) : Goes .bundlePartTxDone s Q := by
    refine goes_live up exec_bundlePartTxDone ?_
    rw [on, is]
    exact q
  have failed {Q : State → Prop} (why : TxFault) (q : Q (if (errorCounted why p s).bus.waiting.isSome then abandonBundle x (errorCounted why p s)
      else putPart (errorCounted why p s))) : Goes (.canTxError why) s Q := by
    refine goes_live up exec_canTxError ?_
    rw [on, is]
    exact q
  have low := tecLowered_same (p := p) inv.regs
  have lowBus : (tecLowered p s).bus = s.bus := tecLowered_keeps (shows_bus (by decide)) rfl
  have lowSent : (tecLowered p s).sent = s.sent := tecLowered_keeps (shows_sent_eq (by decide)) rfl
  have lowWf : RegsOk (tecLowered p s) := tecLowered_keeps (keeps_regs_wf (by decide)) inv.regs
  have doneBus : (bundleDone x (tecLowered p s)).bus = { s.bus with bseq := (s.bus.bseq + 1) % 65536 } := by rw [bundleDone_bus, lowBus]
  refine ⟨fun first => done ?_, fun second => done ?_, fun why => ⟨fun alone => failed why ?_, fun b waits => failed why ?_⟩⟩
  · rw [if_pos first]
    refine ⟨putPart_goesOut ⟨low.regs, low.off, low.image, low.boot⟩ rfl, ?_, ?_⟩
    · rw [putPart_bus, lowBus]
    · rw [putPart_bus, lowBus]
  · rw [if_neg second]
    obtain ⟨bseq, waiting⟩ := nextBundle_bus (s := bundleDone x (tecLowered p s))
    obtain ⟨l, sent, command⟩ := bundleDone_sent (x := x) (s := tecLowered p s)
    obtain ⟨m, more⟩ := nextBundle_sent (bundleDone x (tecLowered p s))
    refine ⟨bseq.trans (by rw [doneBus]), waiting, fun ok => ?_, fun asked => ?_, fun alone => ?_, fun b waits => ?_⟩
    · exact (nextBundle_fld _).trans (bundleDone_shows lowWf ok)
    · rw [more, sent]
      exact List.mem_append_right _ (List.mem_append_left _ (command (commandAsked_tecLowered small asked)))
    · have none : (bundleDone x (tecLowered p s)).bus.waiting = .none := by rw [doneBus]; exact alone
      rw [nextBundle_none none]
      refine ⟨rfl, rfl, fun o ho => List.mem_append_left _ (List.mem_reverse.mpr ?_)⟩
      rw [doneBus]
      exact ho
    · have there : (bundleDone x (tecLowered p s)).bus.waiting = some b := by rw [doneBus]; exact waits
      have goes := startBundle_goesOut (b := b) (low.trans (bundleDone_same (x := x)))
      rw [nextBundle_some there]
      rw [doneBus] at goes
      exact goes
  · have alone' : ¬(errorCounted why p s).bus.waiting.isSome = true := by rw [errorCounted_bus, alone]; exact Bool.false_ne_true
    rw [if_neg alone']
    refine ⟨putPart_goesOut (errorCounted_same inv.regs) (by rw [errorCounted_bus]; exact on), ?_⟩
    rw [putPart_bus, errorCounted_bus]
  · have waits' : (errorCounted why p s).bus.waiting.isSome = true := by rw [errorCounted_bus, waits]; rfl
    obtain ⟨sec, bus⟩ := abandonCounted_bus (x := x) (s := errorCounted why p s)
    rw [errorCounted_bus] at bus
    have there : (abandonCounted x (errorCounted why p s)).bus.waiting = some b := by rw [bus]; exact waits
    have goes := startBundle_goesOut (b := b) ((errorCounted_same (why := why) (p := p) inv.regs).trans (abandonCounted_same (x := x)))
    rw [bus] at goes
    rw [if_pos waits', abandonBundle_eq, nextBundle_some there]
    refine ⟨goes, by rw [startBundle_bus], ?_⟩
    have before : fld (errorCounted why p s) F.VBS_GUID_STAT_ABANDON = fld s F.VBS_GUID_STAT_ABANDON := errorCounted_regs.fld (by
      simp only [F.VBS_GUID_STAT_ABANDON, F.WDN_FLOG_STAT_SEQ, List.mem_cons, List.not_mem_nil, or_false]
      omega)
    have counted : Counted F.VBS_GUID_STAT_ABANDON (errorCounted why p s) (abandonCounted x (errorCounted why p s)) :=
      abandonCounted_counted (errorCounted_keeps (keeps_regs_wf (by decide)) inv.regs)
    unfold Counted at counted ⊢
    rw [← before, ← counted, ← nextBundle_some there, nextBundle_fld]

/-- Settles O56. -/
theorem heartbeatsStatusAndBundles : Obligations.HeartbeatsStatusAndBundles := by
  intro s up inv
  refine ⟨heartbeats up inv, statusGoesOut up, fun x on role => bundlesGoOutInParts up inv on role, fun idle => ⟨?_, fun why => ?_⟩⟩
  · refine idle_live exec_bundlePartTxDone ?_
    split
    · rename_i on role
      exact absurd idle (by rw [on, role]; simp)
    · rfl
  · refine idle_live exec_canTxError ?_
    split
    · rename_i on role
      exact absurd idle (by rw [on, role]; simp)
    · rfl

end

end Sys2Proof.Machine

end

section

set_option Elab.async false

/-! # The other device's bundles, bus-off and PLCA's beacon (R409, R454, R458, R511, R521, R530, R537) -/

namespace Sys2Proof.Machine

open Sys2Proof.Claims (PortUp BundlesAreWatched BusOffRecovers)

section
variable {s t u : State} {x : OnBus} {p n : Nat} {frame : FrameNo} {bytes : List Byte}

/-! ## Watching -/

/-- The kind that a bundle shows is neither hold nor stop. -/
abbrev BundleGood (bytes : List Byte) : Prop := field (bytes.drop 4) 22 2 % 16 ≤ 1

/-- A bundle follows the one before it in an unbroken row. -/
abbrev Follows (frame : FrameNo) (s : State) : Prop :=
  s.twin.bundleSeen = true ∧ frameDist s.twin.lastBundle frame ≤ max 1 (fld s F.VBS_GUID_CFG_TX_INT)

/-- The count of good bundles in an unbroken row. -/
def rowOf (frame : FrameNo) (bytes : List Byte) (s : State) : Nat :=
  if BundleGood bytes then (if Follows frame s then s.safe.clean + 1 else 1) else 0

theorem observe_twin : ∃ at', (observe frame bytes s).twin = { s.twin with lastBundle := frame, bundleSeen := true, goodAt := at' } :=
  ite_keeps (P := fun t : State => ∃ at', t.twin = { s.twin with lastBundle := frame, bundleSeen := true, goodAt := at' }) ⟨_, rfl⟩ ⟨_, rfl⟩

theorem observe_safe_of_leader (leads : follower s = false) : (observe frame bytes s).safe = s.safe := by
  unfold observe
  extract_lets good next n tw s1
  have same : follower s1 = false := leads
  rw [if_neg (by rw [same]; exact Bool.false_ne_true)]

theorem observe_safe_of_follower (follows : follower s = true) : (observe frame bytes s).safe.clean = rowOf frame bytes s := by
  have row : (if (!decide (BundleGood bytes)) = true then 0
      else if (s.twin.bundleSeen && decide (frameDist s.twin.lastBundle frame ≤ max 1 (fld s F.VBS_GUID_CFG_TX_INT))) = true then s.safe.clean + 1 else 1) =
      rowOf frame bytes s := by
    unfold rowOf Follows
    by_cases good : BundleGood bytes
    · simp [good]
    · simp [good]
  unfold observe
  extract_lets good next n tw s1
  have same : follower s1 = true := follows
  rw [if_pos same]
  exact row

theorem exec_guidanceBundleRx : exec (.guidanceBundleRx frame true bytes) s = .next (live s fun s =>
    if ((observe frame bytes s).twin.pair = .pairedA ∨ (observe frame bytes s).twin.pair = .degradedA) ∧
        transmitting (observe frame bytes s) frame then standDown (observe frame bytes s)
    else observe frame bytes s) := rfl

/-- The other device transmits the frame that this one, the primary, transmits. -/
abbrev Clash (frame : FrameNo) (s : State) : Prop := (s.twin.pair = .pairedA ∨ s.twin.pair = .degradedA) ∧ transmitting s frame = true

theorem clash_observe (f : FrameNo) : Clash f (observe frame bytes s) ↔ Clash f s := by
  obtain ⟨x, twin⟩ := observe_twin (frame := frame) (bytes := bytes) (s := s)
  have regs : (observe frame bytes s).regs = s.regs := observe_keeps (shows_regs (by decide)) rfl
  have image : (observe frame bytes s).image = s.image := observe_keeps (shows_image (by decide)) rfl
  have replay : (observe frame bytes s).replay = s.replay := observe_keeps (shows_replay (by decide)) rfl
  have num : (observe frame bytes s).frame = s.frame := observe_keeps (shows_frame (by decide)) rfl
  have bus : (observe frame bytes s).bus = s.bus := observe_keeps (shows_bus (by decide)) rfl
  have tx : txFrame (observe frame bytes s) f = txFrame s f := by
    unfold txFrame fld
    rw [regWord_congr image regs]
  unfold Clash transmitting transmitsFrame transmits
  rw [tx, twin, replay, num, bus]

/-- The primary has stopped, before the record of it. -/
def stopped (s : State) : State :=
  setPair .monitor { s with twin := { s.twin with stoodDown := true, silent := false }
                            bus := { s.bus with onBus := none, waiting := none, guidOut := [] } }

theorem standDown_eq (s : State) : standDown s = woadEvent 13 .fault (frameN s) (stopped s) := rfl

theorem standDown_twin : (standDown s).twin = { s.twin with stoodDown := true, silent := false, pair := .monitor } := by
  rw [standDown_eq, woadEvent_twin]
  exact setPair_twin

theorem standDown_bus : (standDown s).bus = { s.bus with onBus := none, waiting := none, guidOut := [] } :=
  woadEvent_keeps (shows_bus (by decide)) (setPair_keeps (shows_bus (by decide)) rfl)

theorem standDown_safe : (standDown s).safe = s.safe := standDown_keeps (shows_safe (by decide)) rfl

theorem standDown_recorded (room : s.log.queue.length < 256) : Recorded (standDown s) 0x94 0x0D 13 3 := by
  have log : (stopped s).log = s.log := setPair_keeps (shows_log (by decide)) rfl
  rw [standDown_eq]
  exact woadEvent_recorded (by rw [log]; exact room)

theorem bundlesAreWatched (up : running s = true) : BundlesAreWatched frame bytes s := by
  refine ⟨idle_live (f := fun s => s) rfl rfl, goes_live up exec_guidanceBundleRx ?_⟩
  obtain ⟨x, twin⟩ := observe_twin (frame := frame) (bytes := bytes) (s := s)
  have bus : (observe frame bytes s).bus = s.bus := observe_keeps (shows_bus (by decide)) rfl
  have log : (observe frame bytes s).log = s.log := observe_keeps (shows_log (by decide)) rfl
  by_cases clash : Clash frame (observe frame bytes s)
  · have known : Clash frame s := (clash_observe frame).mp clash
    rw [if_pos clash]
    refine ⟨by rw [standDown_twin, twin], by rw [standDown_twin, twin], fun leads => ?_, fun follows => ?_, fun _ => ⟨?_, ?_, ?_, fun room => ?_⟩,
      fun no => absurd known no⟩
    · rw [standDown_safe, observe_safe_of_leader leads]
    · rw [standDown_safe, observe_safe_of_follower follows]
      rfl
    · rw [standDown_twin]
    · rw [standDown_twin]
    · rw [standDown_bus, bus]
    · exact standDown_recorded (by rw [log]; exact room)
  · have known : ¬Clash frame s := fun c => clash ((clash_observe frame).mpr c)
    rw [if_neg clash]
    exact ⟨by rw [twin], by rw [twin], observe_safe_of_leader, observe_safe_of_follower, fun c => absurd c known, fun _ => ⟨by rw [twin], bus⟩⟩

/-! ## Bus-off -/

/-- The times of a port's bus-offs within the last second. -/
def recentOffs (p : Nat) (s : State) : List Tick := (s.bus.boff.getD p []).filter fun n => s.time.count < n + 25000000

/-- A bus-off is counted, and the times of the last second stand. -/
def offCounted (p : Nat) (s : State) : State :=
  bump (F.VBS_PORT_STAT_BOFF_CNT p) { s with bus := { s.bus with boff := modAt p (fun _ => s.time.count :: recentOffs p s) s.bus.boff } }

theorem exec_busOff (port : Fin 4) : exec (.busOff port) s = .next (live s fun s =>
    if fld s (F.VBS_PORT_CFG_ROLE port.val) = 0 then s
    else busEvent 0 (if decide ((s.time.count :: recentOffs port.val s).length ≥ 4) = true then .fault else .warning) port.val
      (setFld (F.VBS_PORT_STAT_STATE port.val) (if decide ((s.time.count :: recentOffs port.val s).length ≥ 4) = true then 3 else 2)
        (offCounted port.val s))) := rfl

theorem portStat_log {f : Fld} (h : f.addr = 0x741000 + 4 * p) : f.addr ≠ F.WDN_FLOG_STAT_SEQ.addr := by
  rw [h]
  simp only [F.WDN_FLOG_STAT_SEQ]
  omega

theorem fld_busEvent {f : Fld} {ev d : Nat} {sev : Severity} (h : f.addr = 0x741000 + 4 * p) : fld (busEvent ev sev d s) f = fld s f :=
  fld_report (portStat_log h)

theorem busOff_counts (wf : RegsOk s) {v : Nat} : Counted (F.VBS_PORT_STAT_BOFF_CNT p) s (setFld (F.VBS_PORT_STAT_STATE p) v (offCounted p s)) := by
  have counted : Counted (F.VBS_PORT_STAT_BOFF_CNT p) s (offCounted p s) :=
    counted_bump (s := { s with bus := { s.bus with boff := modAt p (fun _ => s.time.count :: recentOffs p s) s.bus.boff } }) wf (of_decide_eq_true rfl)
  have wf' : RegsOk (offCounted p s) := setFld_wf (s := { s with bus := _ }) wf
  exact counted_of_fld (fld_setFld_other wf' (of_decide_eq_true rfl) (of_decide_eq_true rfl) rfl (.inl (of_decide_eq_true rfl))) counted

/-- A port has recovered, with a note. -/
def portClear (p : Nat) (s : State) : State :=
  setFld (F.VBS_PORT_STAT_STATE p) 0 (setFld (F.VBS_PORT_STAT_TEC p) 0 (setFld (F.VBS_PORT_STAT_REC p) 0 s))

/-- A recovery is recorded. -/
def recovered (p : Nat) (s : State) : State := busEvent 1 .note p (portClear p s)

theorem exec_busOffRecovered (port : Fin 4) : exec (.busOffRecovered port) s = .next (live s fun s =>
    if fld s (F.VBS_PORT_STAT_STATE port.val) ≠ 2 then s
    else if rolePort (recovered port.val s) 1 = some port.val then claim (prefSa (recovered port.val s)) (recovered port.val s)
    else if rolePort (recovered port.val s) 2 = some port.val then resumeTx (recovered port.val s) else recovered port.val s) := rfl

theorem portClear_shows (wf : RegsOk s) : fld (portClear p s) (F.VBS_PORT_STAT_STATE p) = 0 ∧ fld (portClear p s) (F.VBS_PORT_STAT_TEC p) = 0 ∧
    fld (portClear p s) (F.VBS_PORT_STAT_REC p) = 0 := by
  have rec' : RegsOk (setFld (F.VBS_PORT_STAT_REC p) 0 s) := setFld_wf wf
  have tec : RegsOk (setFld (F.VBS_PORT_STAT_TEC p) 0 (setFld (F.VBS_PORT_STAT_REC p) 0 s)) := setFld_wf rec'
  have noRec : fld (setFld (F.VBS_PORT_STAT_REC p) 0 s) (F.VBS_PORT_STAT_REC p) = 0 := fld_setFld_same wf (of_decide_eq_true rfl)
  have noTec : fld (setFld (F.VBS_PORT_STAT_TEC p) 0 (setFld (F.VBS_PORT_STAT_REC p) 0 s)) (F.VBS_PORT_STAT_TEC p) = 0 :=
    fld_setFld_same rec' (of_decide_eq_true rfl)
  unfold portClear
  refine ⟨fld_setFld_same tec (of_decide_eq_true rfl), ?_, ?_⟩
  · rw [fld_setFld_other (f := F.VBS_PORT_STAT_STATE p) (g := F.VBS_PORT_STAT_TEC p) tec (of_decide_eq_true rfl) (of_decide_eq_true rfl) rfl
      (.inl (of_decide_eq_true rfl)), noTec]
  · rw [fld_setFld_other (f := F.VBS_PORT_STAT_STATE p) (g := F.VBS_PORT_STAT_REC p) tec (of_decide_eq_true rfl) (of_decide_eq_true rfl) rfl
      (.inl (of_decide_eq_true rfl)), fld_setFld_other (f := F.VBS_PORT_STAT_TEC p) (g := F.VBS_PORT_STAT_REC p) rec' (of_decide_eq_true rfl)
      (of_decide_eq_true rfl) rfl (.inl (of_decide_eq_true rfl)), noRec]

/-- What a recovered port shows, in the state and in what follows from it. -/
def Recovers (p : Nat) (s t : State) : Prop :=
  fld t (F.VBS_PORT_STAT_STATE p) = 0 ∧ fld t (F.VBS_PORT_STAT_TEC p) = 0 ∧ fld t (F.VBS_PORT_STAT_REC p) = 0 ∧
    (s.log.queue.length < 256 → Recorded t 0x95 0x0F 1 0)

theorem recovered_recovers (wf : RegsOk s) : Recovers p s (recovered p s) := by
  obtain ⟨state, tec, rec'⟩ := portClear_shows (p := p) wf
  exact ⟨(fld_busEvent rfl).trans state, (fld_busEvent rfl).trans tec, (fld_busEvent rfl).trans rec', fun room => report_recorded room⟩

theorem Recovers.after (h : Recovers p s t) (same : ∀ f : Fld, f.addr = 0x741000 + 4 * p → fld u f = fld t f)
    (log : ∀ q ∈ t.log.queue, q ∈ u.log.queue) : Recovers p s u := by
  obtain ⟨state, tec, rec', recorded⟩ := h
  refine ⟨(same _ rfl).trans state, (same _ rfl).trans tec, (same _ rfl).trans rec', fun room => ?_⟩
  obtain ⟨q, hq, is⟩ := recorded room
  exact ⟨q, log q hq, is⟩

theorem recovered_regs : SameRegsBut (errorAddrs p) s (recovered p s) := by
  have log : logAddrs ⊆ errorAddrs p := fun a m => List.mem_cons_of_mem _ ((by decide : logAddrs ⊆ [F.WDN_FLOG_STAT_SEQ.addr]) m)
  exact SameRegsBut.report (.setFld (.setFld (.setFld (.refl _ s) List.mem_cons_self) List.mem_cons_self) List.mem_cons_self) log

theorem errorAddrs_apart (p : Nat) : RolesApart (errorAddrs p) ∧ F.VBS_GUID_CFG_GID_BASE.addr ∉ errorAddrs p := by
  refine ⟨fun n hn => ?_, ?_⟩
  · rw [List.mem_range] at hn
    simp only [F.VBS_PORT_CFG_ROLE, F.WDN_FLOG_STAT_SEQ, List.mem_cons, List.not_mem_nil, or_false]
    omega
  · simp only [F.VBS_GUID_CFG_GID_BASE, F.WDN_FLOG_STAT_SEQ, List.mem_cons, List.not_mem_nil, or_false]
    omega

theorem recovered_rolePort {role : Nat} : rolePort (recovered p s) role = rolePort s role := rolePort_of_regs recovered_regs (errorAddrs_apart p).1

theorem recovered_keeps {P : State → Prop} (C : Keeps [.indlog, .regs, .log, .queue] P) (h : P s) : P (recovered p s) :=
  busEvent_keeps C (setFld_keeps (C.mono (by decide)) (setFld_keeps (C.mono (by decide)) (setFld_keeps (C.mono (by decide)) h)))

theorem recovered_prefSa : prefSa (recovered p s) = prefSa s := by
  have image : (recovered p s).image = s.image := recovered_keeps (shows_image (by decide)) rfl
  have boot : (recovered p s).boot = s.boot := recovered_keeps (shows_boot (by decide)) rfl
  unfold prefSa strapB
  rw [image, boot]

theorem recovered_partOut : partOut x (recovered p s) = partOut x s := by
  have image : (recovered p s).image = s.image := recovered_keeps (shows_image (by decide)) rfl
  have boot : (recovered p s).boot = s.boot := recovered_keeps (shows_boot (by decide)) rfl
  unfold partOut partBytes strapB
  rw [recovered_regs.fld (errorAddrs_apart p).2, image, boot]

theorem claim_regs {sa : Nat} : SameRegsBut [F.VBS_ISO_STAT_CLAIM.addr] s (claim sa s) :=
  sendClaim_regs (showClaim_regs ((SameRegsBut.refl _ s).same rfl rfl) (by decide))

/-- The registers that the output stage writes as it goes on. -/
abbrev resumeAddrs : List Nat := [F.VBS_GUID_STAT_ABANDON.addr, F.WDN_FLOG_STAT_SEQ.addr]

theorem abandonCounted_regs : SameRegsBut resumeAddrs s (abandonCounted x s) := by
  have counted : SameRegsBut resumeAddrs s (bump F.VBS_GUID_STAT_ABANDON s) := .bump (.refl _ s) (by decide)
  exact ite_keeps (P := SameRegsBut _ s) counted (SameRegsBut.report (counted.same rfl rfl) (by decide))

theorem resumeTx_regs : SameRegsBut resumeAddrs s (resumeTx s) := by
  unfold resumeTx
  split
  · exact .refl _ s
  · refine ite_keeps (P := SameRegsBut _ s) ?_ (putPart_keeps (keeps_sameRegs (by decide)) (.refl _ s))
    exact nextBundle_keeps (keeps_sameRegs (by decide)) abandonCounted_regs

/-- The output stage's warning displaces no record. -/
theorem resumeTx_keeps_records {q : QueuedRec} (h : q ∈ s.log.queue) : q ∈ (resumeTx s).log.queue := by
  have counted (x : OnBus) : q ∈ (abandonCounted x s).log.queue :=
    ite_keeps (P := fun t : State => q ∈ t.log.queue) h (report_warning_keeps_records (Nat.le_refl 1) h)
  unfold resumeTx
  split
  · exact h
  · rename_i y _
    have abandoned : (abandonBundle y s).log = (abandonCounted y s).log := nextBundle_keeps (shows_log (by decide)) rfl
    have put : (putPart s).log = s.log := putPart_keeps (shows_log (by decide)) rfl
    refine ite_keeps (P := fun t : State => q ∈ t.log.queue) ?_ ?_
    · rw [abandoned]
      exact counted y
    · rw [put]
      exact h

theorem resumeTx_alone (on : s.bus.onBus = some x) (alone : s.bus.waiting = none) : resumeTx s = putPart s := by
  unfold resumeTx
  rw [on, alone]
  rfl

theorem exec_busOffHoldExpiry (port : Fin 4) : exec (.busOffHoldExpiry port) s = .next (live s fun s =>
    if fld s (F.VBS_PORT_STAT_STATE port.val) = 3 ∧ fld s (F.VBS_PORT_CFG_ROLE port.val) ≠ 0 ∧
        decide (((s.bus.boff.getD port.val []).headD 0) + 25000000 ≤ s.time.count) = true then
      setFld (F.VBS_PORT_STAT_STATE port.val) 2 s
    else s) := rfl

/-- What the recovery of a port begins. -/
theorem busOff_recovery (port : Fin 4) (inv : Inv s) : let r := recovered port.val s
    let t := if rolePort r 1 = some port.val then claim (prefSa r) r else if rolePort r 2 = some port.val then resumeTx r else r
    Recovers port.val s t ∧ (rolePort s 1 = some port.val → t.bus.claimSa = prefSa s ∧ fld t F.VBS_ISO_STAT_CLAIM = 1) ∧
      (rolePort s 2 = some port.val → ∀ x, s.bus.onBus = some x → s.bus.waiting = none → ∃ l, t.sent = partOut x s :: l) := by
  intro r t
  have small := port.isLt
  have shown : Recovers port.val s r := recovered_recovers inv.regs
  have one : ¬(rolePort s 1 = some port.val ∧ rolePort s 2 = some port.val) := fun both =>
    absurd ((rolePort_role both.1).symm.trans (rolePort_role both.2)) (by decide)
  by_cases iso : rolePort s 1 = some port.val
  · have is : t = claim (prefSa r) r := if_pos (recovered_rolePort.trans iso)
    rw [is]
    refine ⟨shown.after (fun f h => ?_) ?_, fun _ => ⟨by rw [claim_bus]; exact recovered_prefSa, ?_⟩, fun guid => absurd ⟨iso, guid⟩ one⟩
    · refine claim_regs.fld ?_
      rw [h, List.mem_singleton]
      simp only [F.VBS_ISO_STAT_CLAIM]
      omega
    · have log : (claim (prefSa r) r).log = r.log := claim_keeps (shows_log (by decide)) rfl
      rw [log]
      exact fun _ h => h
    · exact (claiming_shows (recovered_keeps (keeps_regs_wf (by decide)) inv.regs)).1
  · have other : ¬rolePort r 1 = some port.val := fun h => iso (recovered_rolePort.symm.trans h)
    by_cases guid : rolePort s 2 = some port.val
    · have is : t = resumeTx r := (if_neg other).trans (if_pos (recovered_rolePort.trans guid))
      have bus : r.bus = s.bus := recovered_keeps (shows_bus (by decide)) rfl
      rw [is]
      refine ⟨shown.after (fun f h => ?_) fun _ => resumeTx_keeps_records, fun h => absurd h iso, fun _ x on alone => ⟨r.sent, ?_⟩⟩
      · refine resumeTx_regs.fld ?_
        rw [h]
        simp only [F.VBS_GUID_STAT_ABANDON, F.WDN_FLOG_STAT_SEQ, List.mem_cons, List.not_mem_nil, or_false]
        omega
      · have up : PortUp r 2 := ⟨port.val, recovered_rolePort.trans guid, portOff_of_lt (by rw [shown.1]; decide)⟩
        rw [← bus] at on alone
        rw [resumeTx_alone on alone, putPart_up on up, send_sent, recovered_partOut]
    · have is : t = r := (if_neg other).trans (if_neg fun h => guid (recovered_rolePort.symm.trans h))
      rw [is]
      exact ⟨shown, fun h => absurd h iso, fun h => absurd h guid⟩

theorem busOffRecovers (port : Fin 4) (up : running s = true) (inv : Inv s) : BusOffRecovers port s := by
  have due : (fld s (F.VBS_PORT_STAT_STATE port.val) = 3 ∧ fld s (F.VBS_PORT_CFG_ROLE port.val) ≠ 0 ∧
      decide (((s.bus.boff.getD port.val []).headD 0) + 25000000 ≤ s.time.count) = true) ↔
      (fld s (F.VBS_PORT_STAT_STATE port.val) = 3 ∧ fld s (F.VBS_PORT_CFG_ROLE port.val) ≠ 0 ∧
      ((s.bus.boff.getD port.val []).headD 0) + 25000000 ≤ s.time.count) := by rw [decide_eq_true_eq]
  refine ⟨fun none => idle_live (exec_busOff port) (if_pos none), fun some => goes_live up (exec_busOff port) ?_,
    fun other => idle_live (exec_busOffRecovered port) (if_pos other), fun off => goes_live up (exec_busOffRecovered port) ?_,
    fun held => goes_live up (exec_busOffHoldExpiry port) ?_, fun other => idle_live (exec_busOffHoldExpiry port) (if_neg fun h => other (due.mp h))⟩
  · rw [if_neg some]
    have long : decide ((s.time.count :: recentOffs port.val s).length ≥ 4) = decide (3 ≤ (recentOffs port.val s).length) := by
      rw [List.length_cons]
      exact decide_eq_decide.mpr ⟨Nat.le_of_succ_le_succ, Nat.succ_le_succ⟩
    have wf : RegsOk (offCounted port.val s) :=
      bump_keeps (keeps_regs_wf (by decide)) (s_2 := { s with bus := _ }) inv.regs
    rw [long]
    by_cases fourth : 3 ≤ (recentOffs port.val s).length
    · have fourth' : 3 ≤ ((s.bus.boff.getD port.val []).filter fun n => s.time.count < n + 25000000).length := fourth
      rw [if_pos fourth', if_pos fourth', if_pos (decide_eq_true fourth), if_pos (decide_eq_true fourth)]
      exact ⟨counted_of_fld (fld_busEvent rfl) (busOff_counts inv.regs), (fld_busEvent rfl).trans (state_setState wf (by decide)),
        fun room => report_recorded room⟩
    · have fourth' : ¬3 ≤ ((s.bus.boff.getD port.val []).filter fun n => s.time.count < n + 25000000).length := fourth
      have held : ¬decide (3 ≤ (recentOffs port.val s).length) = true := by rw [decide_eq_true_eq]; exact fourth
      rw [if_neg fourth', if_neg fourth', if_neg held, if_neg held]
      exact ⟨counted_of_fld (fld_busEvent rfl) (busOff_counts inv.regs), (fld_busEvent rfl).trans (state_setState wf (by decide)),
        fun room => report_recorded room⟩
  · rw [if_neg (fun h => h off)]
    obtain ⟨⟨state, tec, rec', recorded⟩, claims, sends⟩ := busOff_recovery port inv
    exact ⟨state, tec, rec', recorded, claims, sends⟩
  · rw [if_pos (due.mpr held)]
    exact ⟨state_setState inv.regs (by decide), rfl⟩

/-! ## PLCA's beacon -/

theorem exec_plcaBeaconLost : exec .plcaBeaconLost s = .next (live s fun s =>
    if flag s F.OCH_CFG_PLCA_EN then
      report { unit := 0x96, cls := 0x0F, ev := 10, sev := .warning } (setFlag F.OCH_STAT_BEACON_LOST true (setFlag F.OCH_STAT_PLCA_ACTIVE false s))
    else s) := rfl

theorem exec_plcaBeaconReturned : exec .plcaBeaconReturned s = .next (live s fun s =>
    if flag s F.OCH_CFG_PLCA_EN then
      report { unit := 0x96, cls := 0x0F, ev := 11, sev := .note } (setFlag F.OCH_STAT_PLCA_ACTIVE true s)
    else s) := rfl

theorem plcaBeacon (up : running s = true) (inv : Inv s) (on : flag s F.OCH_CFG_PLCA_EN = true) :
    (Goes .plcaBeaconLost s fun t => flag t F.OCH_STAT_BEACON_LOST = true ∧ flag t F.OCH_STAT_PLCA_ACTIVE = false ∧
      (s.log.queue.length < 256 → Recorded t 0x96 0x0F 10 1)) ∧
    Goes .plcaBeaconReturned s fun t => flag t F.OCH_STAT_PLCA_ACTIVE = true ∧ (s.log.queue.length < 256 → Recorded t 0x96 0x0F 11 0) := by
  refine ⟨goes_live up exec_plcaBeaconLost ?_, goes_live up exec_plcaBeaconReturned ?_⟩
  · rw [if_pos on]
    have quiet : flag (setFlag F.OCH_STAT_PLCA_ACTIVE false s) F.OCH_STAT_PLCA_ACTIVE = false := flag_setFlag_same inv.regs (by decide)
    have wf : RegsOk (setFlag F.OCH_STAT_PLCA_ACTIVE false s) := setFld_wf inv.regs
    refine ⟨(flag_report (by decide)).trans (flag_setFlag_same wf (by decide)), (flag_report (by decide)).trans ((flag_of_fld ?_).trans quiet),
      fun room => report_recorded room⟩
    exact fld_setFld_other wf (by decide) (by decide) rfl (by decide)
  · rw [if_pos on]
    exact ⟨(flag_report (by decide)).trans (flag_setFlag_same inv.regs (by decide)), fun room => report_recorded room⟩

/-- Settles O57. -/
theorem watchingAndBusFaults : Obligations.WatchingAndBusFaults := fun _ up inv =>
  ⟨fun _ _ => bundlesAreWatched up, fun port => busOffRecovers port up inv, plcaBeacon up inv, fun off =>
    ⟨idle_live exec_plcaBeaconLost (if_neg (by rw [off]; exact Bool.false_ne_true)),
      idle_live exec_plcaBeaconReturned (if_neg (by rw [off]; exact Bool.false_ne_true))⟩⟩

end

end Sys2Proof.Machine

end

section

set_option Elab.async false

/-! # Power, temperature, sleep and wake (R597 to R609, R615, R619) -/

namespace Sys2Proof.Machine

open Sys2Proof.Claims (PowerFails SupplyIsSet Temperatures Sleeps WakesAndIndigo InIndigosLog)

section
variable {s t : State} {r : Requester} {n a : Nat}

/-! ## Grave records stay in the queue -/

theorem grave_dropOldestMild {x : QueuedRec} (grave : 1 < x.entry.severity) :
    ∀ l : List QueuedRec, x ∈ l → ∀ m, dropOldestMild l = some m → x ∈ m := by
  intro l
  induction l with
  | nil => exact fun mem => nomatch mem
  | cons q l ih =>
    intro mem m dropped
    rw [dropOldestMild] at dropped
    split at dropped
    · rename_i mild
      cases dropped
      rcases List.mem_cons.mp mem with rfl | rest
      · omega
      · exact rest
    · obtain ⟨k, hk, rfl⟩ := Option.map_eq_some_iff.mp dropped
      rcases List.mem_cons.mp mem with rfl | rest
      · exact List.mem_cons_self
      · exact List.mem_cons_of_mem _ (ih rest k hk)

/-- A record of severity 2 or more that waits is displaced by none that joins. -/
theorem grave_enqueue {x q : QueuedRec} (grave : 1 < x.entry.severity) (mem : x ∈ s.log.queue) : x ∈ (enqueue q s).log.queue := by
  unfold enqueue
  split
  · exact List.mem_append_left _ mem
  · split
    · exact mem
    · split
      · rename_i m dropped
        exact List.mem_append_left _ (grave_dropOldestMild grave _ mem m dropped)
      · exact mem

theorem grave_report {x : QueuedRec} {e : Event} (grave : 1 < x.entry.severity) (mem : x ∈ s.log.queue) : x ∈ (report e s).log.queue :=
  grave_enqueue (s := copiedToIndigo e s) grave (by rw [copiedToIndigo_log]; exact mem)

theorem grave_assertSafeStop {x : QueuedRec} (grave : 1 < x.entry.severity) (mem : x ∈ s.log.queue) :
    x ∈ (assertSafeStop s).log.queue :=
  ite_keeps (P := fun t : State => x ∈ t.log.queue) mem (grave_report grave mem)

/-- A fatal event's own record stands in the queue after it. -/
theorem fatal_recorded {e : Event} (room : s.log.queue.length < 256) : Recorded (fatal e s) e.unit e.cls e.ev 4 := by
  obtain ⟨q, mem, unit, cls, ev, sev⟩ := report_recorded (e := { e with sev := .fatal }) room
  have grave : 1 < q.entry.severity := by
    rw [sev]
    exact Nat.le_add_left 2 2
  have stays := grave_assertSafeStop (s := assertFaultN (report { e with sev := .fatal } s)) grave mem
  have log : (fatal e s).log = _ := abdicate_keeps (shows_log (by decide)) rfl
  exact ⟨q, log ▸ stays, unit, cls, ev, sev⟩

/-! ## Parts of the commands -/

/-- The end of transmission on the guidance segment. -/
def txEnded (s : State) : State := { s with bus := { s.bus with onBus := none, waiting := none, guidOut := [] } }

theorem setLastOff_shows (wf : RegsOk s) (small : n < 8) : fld (setLastOff n s) F.IND_STAT_LAST_OFF = n :=
  (fld_setFld_same wf (by decide)).trans (Nat.mod_eq_of_lt small)

theorem powerOff_shows (wf : RegsOk s) (small : n < 8) : fld (powerOff n s) F.IND_STAT_LAST_OFF = n :=
  setLastOff_shows (s := { s with pwr := { s.pwr with phase := .asleep, pwrEn := false, pwrgd := false } }) wf small

theorem powerEvent_recorded {ev detail : Nat} {sev : Severity} (room : s.log.queue.length < 256) :
    Recorded (powerEvent ev sev detail s) 0x90 0x11 ev (sevCode sev) := report_recorded room

/-- The Warden core, and JTAG in DEVELOP, reach the Warden's own controls (R619). -/
abbrev MaySet (s : State) (r : Requester) : Prop := r = .warden ∧ s.fuse.lc ≠ 4 ∨ r = .jtag ∧ s.fuse.lc = 1

theorem wardenWrite_may {f : State → State} (may : MaySet s r) : wardenWrite r a f s = f s := if_pos may

theorem wardenWrite_other {f : State → State} (other : ¬MaySet s r) : wardenWrite r a f s = refuseAccess r a s := if_neg other

/-! ## Loss of power -/

/-- Indigo's record of the loss of power-good, with FAULT_N asserted. -/
def lossLogged (s : State) : State := reportIndigo { unit := 0x90, cls := 0x11, ev := 5, sev := .fatal } (assertFaultN s)

/-- The stop that the loss of power-good makes. -/
def lossStopped (s : State) : State := assertSafeStop (txEnded (lossLogged s))

theorem exec_pwrgdLost : exec .pwrgdLost s = .next (if !coreApplied s then s
    else setLastOff 2 { lossStopped s with pwr := { (lossStopped s).pwr with phase := .powerOn, pwrgd := false } }) := rfl

theorem lossLogged_pwr : (lossLogged s).pwr = { s.pwr with faultN := true } := reportIndigo_keeps (shows_pwr (by decide)) rfl

theorem lossLogged_bus : (lossLogged s).bus = s.bus := reportIndigo_keeps (shows_bus (by decide)) rfl

theorem lossLogged_log (powered : s.ind.powered = true) :
    ∃ x l, (lossLogged s).ind.log = x :: l ∧ x.cls = 0x11 ∧ x.ev = 5 ∧ x.severity = 4 := by
  have ind : (lossLogged s).ind = (indigoLog (recordOf (assertFaultN s) { unit := 0x90, cls := 0x11, ev := 5, sev := .fatal }) (assertFaultN s)).ind := rfl
  rw [ind, indigoLog, if_pos (show (assertFaultN s).ind.powered = true from powered)]
  exact ⟨recordOf (assertFaultN s) { unit := 0x90, cls := 0x11, ev := 5, sev := .fatal }, _, rfl, rfl, rfl, rfl⟩

theorem lossStopped_keeps {P : State → Prop} (C : Keeps [.pwr, .raise, .bus, .ind, .indlog, .regs, .log, .queue] P) (h : P s) : P (lossStopped s) :=
  assertSafeStop_keeps (C.mono (by decide)) (C.upd_bus (by decide)
    (reportIndigo_keeps (C.mono (by decide)) (assertFaultN_keeps (C.mono (by decide)) h)))

theorem lossStopped_pwr : (lossStopped s).pwr = { s.pwr with faultN := true, safeStop := true } := by
  unfold lossStopped
  rw [assertSafeStop_pwr]
  exact congrArg (fun p : PwrSt => { p with safeStop := true }) lossLogged_pwr

theorem lossStopped_bus : (lossStopped s).bus = { s.bus with onBus := none, waiting := none, guidOut := [] } :=
  assertSafeStop_keeps (shows_bus (by decide))
    (congrArg (fun b : BusSt => { b with onBus := none, waiting := none, guidOut := [] }) lossLogged_bus)

theorem lossStopped_mem : (lossStopped s).mem = s.mem := lossStopped_keeps (shows_mem (by decide)) rfl

theorem exec_vcoreOutOfRange : exec .vcoreOutOfRange s = .next (live s fun s =>
    haltDevice (setLastOff 5 (fatal { unit := 0x90, cls := 0x11, ev := 0, sev := .fatal, detail := fld s F.WDN_PWR_STAT_VCORE } (haltFabric s)))) := rfl

theorem powerFails (inv : Inv s) : PowerFails s := by
  have stopped : Inv (lossStopped s) := lossStopped_keeps (keeps_inv (by decide)) inv
  refine ⟨fun core => ?_, fun off => ?_, fun up => goes_live up exec_vcoreOutOfRange ?_, fun down => ?_⟩
  · refine ⟨_, exec_pwrgdLost, ?_⟩
    rw [core]
    have pwr := lossStopped_pwr (s := s)
    refine ⟨congrArg PwrSt.safeStop pwr, congrArg PwrSt.faultN pwr, rfl, rfl, lossStopped_bus, lossStopped_mem, fun powered => ?_,
      setLastOff_shows (s := { lossStopped s with pwr := { (lossStopped s).pwr with phase := .powerOn, pwrgd := false } }) stopped.regs (by decide)⟩
    obtain ⟨x, l, log, is⟩ := lossLogged_log powered
    exact ⟨x, newest_assertSafeStop (s := txEnded (lossLogged s)) log, is⟩
  · rw [exec_pwrgdLost, off]
    rfl
  · have fell {P : State → Prop} (C : Keeps [.pwr, .raise, .indlog, .regs, .log, .queue, .twin, .sent] P) (h : P (haltFabric s)) :
        P (fatal { unit := 0x90, cls := 0x11, ev := 0, sev := .fatal, detail := fld s F.WDN_PWR_STAT_VCORE } (haltFabric s)) :=
      fatal_keeps C h
    have cnd := fell (shows_cnd (x := (haltFabric s).cnd) (by decide)) rfl
    obtain ⟨fault, stop⟩ := fatal_asserts { unit := 0x90, cls := 0x11, ev := 0, sev := .fatal, detail := fld s F.WDN_PWR_STAT_VCORE } (haltFabric s)
    refine ⟨stop, fault, rfl, ?_, ?_, ?_⟩
    · show ∀ l ∈ (fatal _ (haltFabric s)).cnd.leases, _
      rw [cnd]
      exact haltFabric_leases
    · show (fatal _ (haltFabric s)).cnd.grants = []
      rw [cnd]
      rfl
    · rw [haltDevice_fld]
      exact setLastOff_shows (fell (keeps_regs_wf (by decide)) (haltFabric_keeps (keeps_regs_wf (by decide)) inv.regs)) (by decide)
  · rw [exec_vcoreOutOfRange, live, if_neg (by rw [down]; decide)]

/-! ## The core's supply -/

/-- The registers of status that the regulator and the sensors write beside APPLIED. -/
def readingAddrs : List Nat := [F.WDN_PWR_STAT_VCORE.addr, F.WDN_THERM_STAT_TJ.addr, F.WDN_FLOG_STAT_SEQ.addr]

/-- The target's value is in force at the regulator. -/
def supplyApplied (n : Nat) (s : State) : State := setFld F.WDN_VCORE_APPLIED n { s with pwr := { s.pwr with vcoreTarget := none } }

/-- The regulator's answer at an edge, or its want (R600). -/
def regulatorRead (avs : Option (Nat × Nat)) (pending : Bool) (s : State) : State :=
  match avs with
  | none =>
    let n := if pending then 4 else 3
    bumpBy F.WDN_PWR_STAT_AVS_ERR n { s with pwr := { s.pwr with avsMissRun := s.pwr.avsMissRun + n } }
  | some (i, st) =>
    let t := setSat F.WDN_PWR_STAT_ICORE i { s with pwr := { s.pwr with avsMissRun := 0 } }
    if st ≠ 0 then powerEvent 1 .warning 2 t else t

/-- The sensors' values at an edge (R598, R615). -/
def sensorsRead (x : EdgeReadings) (s : State) : State :=
  let tj := (x.tj + 64).toNat
  setSat F.WDN_PWR_STAT_VCORE x.vcoreMv (setSat F.WDN_THERM_STAT_HBM_T (x.hbmT + 64).toNat
    (setSat F.WDN_THERM_STAT_TJ_PEAK (max tj (fld s F.WDN_THERM_STAT_TJ_PEAK)) (setSat F.WDN_THERM_STAT_TJ tj s)))

theorem readPower_of_target {x : EdgeReadings} (target : s.pwr.vcoreTarget = some n) :
    readPower x s = sensorsRead x (regulatorRead x.avs true (supplyApplied n s)) := by
  unfold readPower
  simp only [target]
  rfl

theorem regulatorRead_regs (avs : Option (Nat × Nat)) (b : Bool) (s : State) : SameRegsBut readingAddrs s (regulatorRead avs b s) := by
  cases avs with
  | none => exact .setFld (.same (.refl _ s) rfl rfl) (by decide)
  | some x =>
    have current : SameRegsBut readingAddrs s (setSat F.WDN_PWR_STAT_ICORE x.1 { s with pwr := { s.pwr with avsMissRun := 0 } }) :=
      .setFld (.same (.refl _ s) rfl rfl) (by decide)
    exact ite_keeps (P := SameRegsBut readingAddrs s) (.report current (by decide)) current

theorem sensorsRead_regs (x : EdgeReadings) (s : State) : SameRegsBut readingAddrs s (sensorsRead x s) :=
  .setFld (.setFld (.setFld (.setFld (.refl _ s) (by decide)) (by decide)) (by decide)) (by decide)

theorem readPower_applies {x : EdgeReadings} (wf : RegsOk s) (target : s.pwr.vcoreTarget = some n) (small : n < 2 ^ 16) :
    fld (readPower x s) F.WDN_VCORE_APPLIED = n := by
  have apart : F.WDN_VCORE_APPLIED.addr ∉ readingAddrs := by decide
  rw [readPower_of_target target, SameRegsBut.fld (sensorsRead_regs _ _) apart, SameRegsBut.fld (regulatorRead_regs _ _ _) apart, supplyApplied,
    fld_setFld_same (s := { s with pwr := { s.pwr with vcoreTarget := none } }) wf (by decide)]
  exact Nat.mod_eq_of_lt small

/-- The target that the regulator takes at the next edge. -/
def targetSet (n : Nat) (s : State) : State := setFld F.WDN_VCORE_TARGET n { s with pwr := { s.pwr with vcoreTarget := some n } }

theorem targetSet_wf (wf : RegsOk s) : RegsOk (targetSet n s) :=
  setFld_wf (s := { s with pwr := { s.pwr with vcoreTarget := some n } }) wf

theorem exec_vcoreTargetWrite (r : Requester) (v : BitVec 16) : exec (.vcoreTargetWrite r v) s = .next (live s (wardenWrite r F.WDN_VCORE_TARGET.addr fun s =>
    if v.toNat < 650 ∨ v.toNat > 850 then powerEvent 1 .warning 1 s else targetSet v.toNat s)) := rfl

theorem exec_avsNoAnswer : exec .avsNoAnswer s = .next (live s fun s =>
    if s.pwr.avsMissRun < 3 then s else powerEvent 1 .warning 0 { s with pwr := { s.pwr with avsMissRun := 0 } }) := rfl

theorem supplyIsSet (up : running s = true) (inv : Inv s) : SupplyIsSet s := by
  refine ⟨fun r v => ⟨fun may low high => goes_live up (exec_vcoreTargetWrite r v) ?_, fun may out => goes_live up (exec_vcoreTargetWrite r v) ?_,
    fun other => goes_live up (exec_vcoreTargetWrite r v) ?_⟩, fun few => idle_live exec_avsNoAnswer (if_pos few),
    fun many => goes_live up exec_avsNoAnswer ?_⟩
  · rw [wardenWrite_may may, if_neg (by omega)]
    refine ⟨rfl, ?_, fun x => readPower_applies (targetSet_wf inv.regs) rfl v.isLt⟩
    rw [targetSet, fld_setFld_same (s := { s with pwr := { s.pwr with vcoreTarget := some v.toNat } }) inv.regs (by decide)]
    exact Nat.mod_eq_of_lt v.isLt
  · rw [wardenWrite_may may, if_pos out]
    exact ⟨report_pwr, report_regs _ s, fun room => powerEvent_recorded room⟩
  · rw [wardenWrite_other other]
    exact refused_refuseAccess ..
  · rw [if_neg (Nat.not_lt.mpr many)]
    exact ⟨report_pwr, fun room => powerEvent_recorded (s := { s with pwr := { s.pwr with avsMissRun := 0 } }) room⟩

/-! ## Temperature -/

theorem exec_tjWarn : exec .tjWarn s = .next (live s fun s =>
    powerEvent 2 .warning (fld s F.WDN_THERM_STAT_TJ) (setFlag F.WDN_THERM_STAT_TJ_FLAG true s)) := rfl

theorem exec_hbmWarn : exec .hbmWarn s = .next (live s fun s =>
    powerEvent 3 .warning (fld s F.WDN_THERM_STAT_HBM_T) (setFlag F.WDN_THERM_STAT_HBM_FLAG true s)) := rfl

theorem exec_hbmHot : exec .hbmHot s = .next (live s (setRefresh true)) := rfl

theorem exec_hbmCool : exec .hbmCool s = .next (live s (setRefresh false)) := rfl

theorem exec_thermalShutdown : exec .thermalShutdown s = .next (live s fun s => powerOff 3 (fatal
    { unit := 0x90, cls := 0x11, ev := 4, sev := .fatal, detail := fld s F.WDN_THERM_STAT_TJ + fld s F.WDN_THERM_STAT_HBM_T * 2 ^ 8 } s)) := rfl

/-- A flag that shows a warning of temperature, with its record. -/
theorem warned_flag {f : Fld} {ev d : Nat} (wf : RegsOk s) (ok : f.ok) (apart : f.addr ≠ F.WDN_FLOG_STAT_SEQ.addr) :
    let t := powerEvent ev .warning d (setFlag f true s)
    flag t f = true ∧ t.pwr = s.pwr ∧ (s.log.queue.length < 256 → Recorded t 0x90 0x11 ev 1) :=
  ⟨(flag_report apart).trans (flag_setFlag_same wf ok), report_pwr, fun room => powerEvent_recorded (s := setFlag f true s) room⟩

theorem setRefresh_shows {b : Bool} (wf : RegsOk s) : flag (setRefresh b s) F.WDN_THERM_STAT_HBM_2X = b :=
  flag_setFlag_same (s := { s with pwr := { s.pwr with hbm2x := b } }) wf (by decide)

theorem temperatures (up : running s = true) (inv : Inv s) : Temperatures s := by
  refine ⟨goes_live up exec_tjWarn (warned_flag inv.regs (by decide) (by decide)), goes_live up exec_hbmWarn (warned_flag inv.regs (by decide) (by decide)),
    goes_live up exec_hbmHot ⟨setRefresh_shows inv.regs, rfl⟩, goes_live up exec_hbmCool ⟨setRefresh_shows inv.regs, rfl⟩,
    goes_live up exec_thermalShutdown ?_⟩
  obtain ⟨fault, stop⟩ := fatal_asserts
    { unit := 0x90, cls := 0x11, ev := 4, sev := .fatal, detail := fld s F.WDN_THERM_STAT_TJ + fld s F.WDN_THERM_STAT_HBM_T * 2 ^ 8 } s
  exact ⟨stop, fault, rfl, rfl, fatal_keeps (shows_mem (by decide)) rfl, powerOff_shows (fatal_keeps (keeps_regs_wf (by decide)) inv.regs) (by decide),
    fun room => fatal_recorded room⟩

/-! ## Sleep -/

/-- The note that IGN has been low for IGN_HOLD, after the stop and the end of transmission. -/
def sleepNoted (s : State) : State := report { unit := 0x98, cls := 0x11, ev := 6, sev := .note } (txEnded (assertSafeStop s))

theorem exec_ignHoldExpiry : exec .ignHoldExpiry s = .next (live s fun s =>
    if atRestNow s then powerOff 1 (sleepNoted { s with pwr := { s.pwr with ign := false } }) else s) := rfl

theorem exec_sleep (r : Requester) : exec (.sleep r) s = .next (live s (wardenWrite r F.IND_SLEEP_CTL_SLEEP.addr fun s =>
    if s.pwr.ign then send (.error r F.IND_SLEEP_CTL_SLEEP.addr none) s
    else powerOff 1 { s with pwr := { s.pwr with safeStop := true } })) := rfl

theorem sleepNoted_pwr : (sleepNoted s).pwr = { s.pwr with safeStop := true } := report_pwr.trans (assertSafeStop_pwr s)

theorem sleepNoted_bus : (sleepNoted s).bus = { s.bus with onBus := none, waiting := none, guidOut := [] } :=
  report_bus.trans (congrArg (fun b : BusSt => { b with onBus := none, waiting := none, guidOut := [] }) (assertSafeStop_keeps (shows_bus (by decide)) rfl))

/-- A stop leaves room for one record where there was room for two. -/
theorem assertSafeStop_room (room : s.log.queue.length < 255) : (assertSafeStop s).log.queue.length < 256 := by
  unfold assertSafeStop
  refine ite_keeps (P := fun t : State => t.log.queue.length < 256) (by omega) ?_
  obtain ⟨q, -, joins⟩ := report_queue (e := { unit := 0x90, cls := 0x09, ev := 2, sev := .fault })
    (s := setFlag F.WDN_SAFE_STAT_SAFE_STOP true { s with pwr := { s.pwr with safeStop := true } }) (Nat.lt_succ_of_lt room)
  rw [joins, List.length_append]
  exact Nat.succ_lt_succ room

theorem sleepNoted_recorded (room : s.log.queue.length < 255) : Recorded (sleepNoted s) 0x98 0x11 6 0 :=
  report_recorded (s := txEnded (assertSafeStop s)) (assertSafeStop_room room)

theorem sleepNoted_keeps {P : State → Prop} (C : Keeps [.raise, .bus, .indlog, .regs, .log, .queue] P) (h : P s) : P (sleepNoted s) :=
  report_keeps (C.mono (by decide)) (C.upd_bus (by decide) (assertSafeStop_keeps (C.mono (by decide)) h))

theorem sleeps (up : running s = true) (inv : Inv s) : Sleeps s := by
  refine ⟨fun rest => goes_live up exec_ignHoldExpiry ?_, fun moving => idle_live exec_ignHoldExpiry (if_neg (Bool.eq_false_iff.mp moving)),
    fun r => ⟨fun may low => goes_live up (exec_sleep r) ?_, fun may high => goes_live up (exec_sleep r) ?_, fun other => goes_live up (exec_sleep r) ?_⟩⟩
  · rw [if_pos rest]
    have pwr := sleepNoted_pwr (s := { s with pwr := { s.pwr with ign := false } })
    have wf : RegsOk (sleepNoted { s with pwr := { s.pwr with ign := false } }) :=
      sleepNoted_keeps (s := { s with pwr := { s.pwr with ign := false } }) (keeps_regs_wf (by decide)) inv.regs
    exact ⟨⟨rfl, rfl, rfl, congrArg PwrSt.safeStop pwr, sleepNoted_keeps (s := { s with pwr := { s.pwr with ign := false } }) (shows_mem (by decide)) rfl,
      powerOff_shows wf (by decide)⟩, congrArg PwrSt.ign pwr, sleepNoted_bus (s := { s with pwr := { s.pwr with ign := false } }),
      sleepNoted_recorded (s := { s with pwr := { s.pwr with ign := false } })⟩
  · rw [wardenWrite_may may, low]
    exact ⟨rfl, rfl, rfl, rfl, rfl, powerOff_shows (s := { s with pwr := { s.pwr with safeStop := true } }) inv.regs (by decide)⟩
  · rw [wardenWrite_may may, high]
    rfl
  · rw [wardenWrite_other other]
    exact refused_refuseAccess ..

end

end Sys2Proof.Machine

end

section

set_option Elab.async false

/-! # Wake and the Indigo island (R604, R605, R609, R619) -/

namespace Sys2Proof.Machine

open Sys2Proof.Claims (WakesAndIndigo)

section
variable {s t : State} {src : WakeSource}

/-- The level that a wake event shows of its pin. -/
def levelKept : WakeSource → State → State
  | .ign, s => setFlag F.IND_STAT_IGN true { s with pwr := { s.pwr with ign := true } }
  | .wakeN, s => setFlag F.IND_STAT_WAKE_LVL false { s with pwr := { s.pwr with wakeLvl := false } }
  | .alarm, s => s

/-- The wake with PWR_EN raised. -/
def powerRaised (s : State) : State := { s with pwr := { s.pwr with phase := .powerOn, pwrEn := true, wakeNote := true } }

/-- A source wakes the device: it is off, and the source is enabled and has come. -/
abbrev WakesOn (src : WakeSource) (s : State) : Prop :=
  (s.pwr.phase = .asleep ∨ s.pwr.phase = .powerOn) ∧ wakeEnabled s src = true ∧ wakeFalls s src = true

theorem exec_wake (src : WakeSource) : exec (.wake src) s = .next (if !s.ind.powered then s
    else if WakesOn src (levelKept src s) then setMaskBit F.IND_STAT_WAKE (wakeBit src) true (powerRaised (levelKept src s)) else levelKept src s) := by
  cases src <;> rfl

theorem levelKept_keeps {P : State → Prop} (C : Keeps [.pwr, .regs] P) (h : P s) : P (levelKept src s) := by
  cases src with
  | ign => exact setFlag_keeps (C.mono (by decide)) (C.upd_pwr (by decide) h)
  | wakeN => exact setFlag_keeps (C.mono (by decide)) (C.upd_pwr (by decide) h)
  | alarm => exact h

theorem levelKept_pwr : (levelKept src s).pwr.phase = s.pwr.phase ∧ (levelKept src s).pwr.pwrEn = s.pwr.pwrEn ∧
    (src = .ign → (levelKept src s).pwr.ign = true) ∧ (src = .wakeN → (levelKept src s).pwr.wakeLvl = false) := by
  cases src with
  | ign => exact ⟨rfl, rfl, fun _ => rfl, fun no => nomatch no⟩
  | wakeN => exact ⟨rfl, rfl, fun no => (nomatch no), fun _ => rfl⟩
  | alarm => exact ⟨rfl, rfl, fun no => (nomatch no), fun no => nomatch no⟩

theorem levelKept_regs : SameRegsBut [F.IND_STAT_IGN.addr] s (levelKept src s) := by
  cases src with
  | ign => exact .setFlag (.same (.refl _ s) rfl rfl) (by decide)
  | wakeN => exact .setFlag (.same (.refl _ s) rfl rfl) (by decide)
  | alarm => exact .refl _ s

theorem levelKept_wakes : WakesOn src (levelKept src s) ↔ WakesOn src s := by
  have same {f : Fld} (apart : f.addr ∉ [F.IND_STAT_IGN.addr]) : fld (levelKept src s) f = fld s f := levelKept_regs.fld apart
  have ind : (levelKept src s).ind = s.ind := levelKept_keeps (shows_ind (by decide)) rfl
  have enabled : wakeEnabled (levelKept src s) src = wakeEnabled s src := by
    cases src with
    | ign => exact flag_of_fld (same (f := F.IND_CFG_IGN_EN) (by decide))
    | wakeN => exact flag_of_fld (same (f := F.IND_CFG_WAKE_EN) (by decide))
    | alarm => rfl
  have falls : wakeFalls (levelKept src s) src = wakeFalls s src := by
    cases src with
    | ign => rfl
    | wakeN => rfl
    | alarm => rfl
  unfold WakesOn
  rw [levelKept_pwr.1, enabled, falls]

theorem wakes (inv : Inv s) (powered : s.ind.powered = true) : Goes (.wake src) s fun t => t.mem = s.mem ∧ (src = .ign → t.pwr.ign = true) ∧
    (src = .wakeN → t.pwr.wakeLvl = false) ∧
    (WakesOn src s → t.pwr.phase = .powerOn ∧ t.pwr.pwrEn = true ∧ maskBit t F.IND_STAT_WAKE (wakeBit src) = true) ∧
    (¬WakesOn src s → t.pwr.phase = s.pwr.phase ∧ t.pwr.pwrEn = s.pwr.pwrEn) := by
  refine ⟨_, exec_wake src, ?_⟩
  rw [powered]
  obtain ⟨phase, pwrEn, ign, wakeLvl⟩ := levelKept_pwr (src := src) (s := s)
  have mem : (levelKept src s).mem = s.mem := levelKept_keeps (shows_mem (by decide)) rfl
  have wf : RegsOk (levelKept src s) := levelKept_keeps (keeps_regs_wf (by decide)) inv.regs
  have bit : wakeBit src < 3 := by cases src <;> decide
  by_cases on : WakesOn src s
  · rw [if_neg (by decide), if_pos (levelKept_wakes.mpr on)]
    exact ⟨mem, ign, wakeLvl, fun _ => ⟨rfl, rfl, maskBit_setMaskBit (s := powerRaised (levelKept src s)) wf (by decide) bit⟩, fun no => absurd on no⟩
  · rw [if_neg (by decide), if_neg fun h => on (levelKept_wakes.mp h)]
    exact ⟨mem, ign, wakeLvl, fun h => absurd h on, fun _ => ⟨phase, pwrEn⟩⟩

/-! ## Indigo's supply -/

/-- The registers of Indigo that lose their values with VBAT_AO. -/
def trimLost (s : State) : State := setFlag F.IND_STAT_TVALID false (setFld F.IND_TRIM_TRIM 0 s)

/-- Indigo without its supply. -/
def supplyLost (s : State) : State := { trimLost s with ind := { IndSt.initial with powered := false, wdogKick := s.ind.wdogKick } }

theorem regs_of_ind (l : List Nat) (x : IndSt) (u : State) : SameRegsBut l u { u with ind := x } := fun _ _ => rfl

theorem exec_vbatLoss : exec .vbatLoss s = .next (showTamper (supplyLost s)) := rfl

theorem showTamper_regs (s : State) : SameRegsBut [F.WDN_TAMPER_STAT_LATCH.addr] s (showTamper s) :=
  .setFlag (.setFld (.refl _ s) (by decide)) (by decide)

theorem vbatLoss_shows (wf : RegsOk s) :
    flag (showTamper (supplyLost s)) F.IND_STAT_TVALID = false ∧ fld (showTamper (supplyLost s)) F.IND_TRIM_TRIM = 0 := by
  have regs : SameRegsBut [F.WDN_TAMPER_STAT_LATCH.addr] (trimLost s) (showTamper (supplyLost s)) :=
    (regs_of_ind _ _ (trimLost s)).trans (showTamper_regs (supplyLost s))
  have valid : flag (trimLost s) F.IND_STAT_TVALID = false := by
    rw [trimLost]
    exact flag_setFlag_same (setFld_wf wf) (by decide)
  have trim : fld (trimLost s) F.IND_TRIM_TRIM = 0 := by
    rw [trimLost, setFlag, fld_setFld_addr (f := F.IND_STAT_TVALID) (g := F.IND_TRIM_TRIM) (by decide), fld_setFld_same wf (by decide)]
    exact Nat.zero_mod _
  exact ⟨(regs.flag (by decide)).trans valid, (regs.fld (by decide)).trans trim⟩

/-- Indigo with its reset values. -/
def indigoAnew (s : State) : State := { s with regs := s.regs.filter fun x => x.1 / 0x10000 ≠ 0xF0, ind := IndSt.initial }

theorem exec_vbatPowerUp : exec .vbatPowerUp s = .next (if s.ind.powered then s else setLastOff 0 (if coreApplied (indigoAnew s) then indigoAnew s
    else { indigoAnew s with pwr := { (indigoAnew s).pwr with phase := .asleep, pwrEn := false } })) := rfl

theorem indigoAnew_wf (inv : Inv s) : RegsOk (indigoAnew s) :=
  (keeps_regs_wf (W := [.vbat]) (by decide) .vbat (by decide)) s inv.regs

theorem exec_trimAdjust : exec .trimAdjust s = .next (live s fun s => setFld F.IND_TRIM_TRIM (Config.freeValue s.free) { s with free := s.free + 1 }) := rfl

theorem wakesAndIndigo (inv : Inv s) : WakesAndIndigo s := by
  refine ⟨fun src => ⟨fun dark => ?_, wakes inv⟩, ⟨_, exec_vbatLoss, rfl, rfl, rfl, rfl, rfl, vbatLoss_shows inv.regs⟩, fun powered => ?_,
    fun dark => ⟨_, exec_vbatPowerUp, ?_⟩, fun down => ?_, fun up => goes_live up exec_trimAdjust ⟨?_, rfl⟩⟩
  · rw [exec_wake, dark]
    rfl
  · rw [exec_vbatPowerUp, if_pos powered]
  · rw [if_neg (by rw [dark]; decide)]
    have core : coreApplied (indigoAnew s) = coreApplied s := rfl
    rw [core]
    by_cases on : coreApplied s = true
    · rw [if_pos on]
      exact ⟨rfl, setLastOff_shows (indigoAnew_wf inv) (by decide), fun _ => rfl, fun off => absurd (on.symm.trans off) (by decide)⟩
    · rw [if_neg on]
      exact ⟨rfl, setLastOff_shows (s := { indigoAnew s with pwr := { (indigoAnew s).pwr with phase := .asleep, pwrEn := false } }) (indigoAnew_wf inv) (by decide),
        fun h => absurd h on, fun _ => rfl⟩
  · rw [exec_trimAdjust, live, if_neg (by rw [down]; decide)]
  · exact .setFld (.same (.refl _ s) rfl rfl) (by decide)

end

/-- Settles O59. -/
theorem powerTemperatureAndSleep : Obligations.PowerTemperatureAndSleep := by
  unfold Obligations.PowerTemperatureAndSleep
  intro s inv
  exact ⟨powerFails inv, wakesAndIndigo inv, fun up => ⟨supplyIsSet up inv, temperatures up inv, sleeps up inv⟩⟩

end Sys2Proof.Machine

end

section

set_option Elab.async false

/-! # The status register of replay (R589)

What a frame's emission and end, and the units of the supervisor port write, stands at other addresses than SUP_REPLAY_STAT. -/

namespace Sys2Proof.Machine

section
variable {s t u : State}

/-- SUP_REPLAY_STAT reads the same in t as in s. -/
def ReplayStat (s t : State) : Prop := regWord t 0x7C1064 = regWord s 0x7C1064

theorem ReplayStat.refl (s : State) : ReplayStat s s := rfl

theorem ReplayStat.trans (h : ReplayStat s t) (g : ReplayStat t u) : ReplayStat s u := Eq.trans g h

theorem ReplayStat.same (h : ReplayStat s t) (i : u.image = t.image) (r : u.regs = t.regs) : ReplayStat s u := (regWord_congr i r _).trans h

theorem ReplayStat.fld (h : ReplayStat s t) {f : Fld} (g : f.addr = 0x7C1064) : fld t f = fld s f := by
  unfold Machine.fld
  rw [g, h]

/-- Changes of other parts than registers leave the register. -/
theorem keeps_replayStat {W : List Part} (h : ∀ p ∈ W, p ∉ ([.regs, .image, .vbat, .cold] : List Part)) : Keeps W (ReplayStat s) := by
  intro p hp
  have hn := h p hp
  cases p
  case regs | image | vbat | cold => exact absurd (by decide) hn
  all_goals exact fun _ _ => by intros; assumption

theorem setFld_replayStat {f : Fld} {v : Nat} (g : f.addr ≠ 0x7C1064) (h : ReplayStat s t) : ReplayStat s (setFld f v t) :=
  (regWord_setReg_ne (Ne.symm g)).trans h

theorem setFlag_replayStat {f : Fld} {b : Bool} (g : f.addr ≠ 0x7C1064) (h : ReplayStat s t) : ReplayStat s (setFlag f b t) := setFld_replayStat g h
theorem setSat_replayStat {f : Fld} {n : Nat} (g : f.addr ≠ 0x7C1064) (h : ReplayStat s t) : ReplayStat s (setSat f n t) := setFld_replayStat g h
theorem bump_replayStat {f : Fld} (g : f.addr ≠ 0x7C1064) (h : ReplayStat s t) : ReplayStat s (bump f t) := setFld_replayStat g h

theorem ReplayStat.regs {l : List Nat} (h : ReplayStat s t) (g : SameRegsBut l t u) (out : 0x7C1064 ∉ l) : ReplayStat s u := (g _ out).trans h

theorem report_replayStat {e : Event} (h : ReplayStat s t) : ReplayStat s (report e t) := h.regs (report_regs e t) (by decide)

theorem assertSafeStop_replayStat (h : ReplayStat s t) : ReplayStat s (assertSafeStop t) := h.regs (assertSafeStop_regs t) (by decide)

/-- The counter of a doubt stands in the Warden's block. -/
theorem markDoubt_replayStat {b : Nat} (small : b < 16) (h : ReplayStat s t) : ReplayStat s (markDoubt b t) := by
  refine ite_keeps h (bump_replayStat ?_ (h.same rfl rfl))
  unfold F.WDN_DOUBT_CNT_COUNT
  dsimp only
  omega

theorem doubtEvent_replayStat {b : Nat} {e : Event} (small : b < 16) (h : ReplayStat s t) : ReplayStat s (doubtEvent b e t) :=
  report_replayStat (markDoubt_replayStat small h)

/-- A fold whose every step by an element of the list keeps a property keeps it. -/
theorem foldl_keeps_mem {α σ : Type} {P : σ → Prop} {f : σ → α → σ} :
    ∀ (l : List α) (x : σ), (∀ a ∈ l, ∀ x, P x → P (f x a)) → P x → P (l.foldl f x) := by
  intro l
  induction l with
  | nil => exact fun x _ h => h
  | cons a l ih =>
    exact fun x step h => ih _ (fun b hb => step b (List.mem_cons_of_mem _ hb)) (step a List.mem_cons_self x h)

theorem capture_replayStat {f : Fld} {l : List (Fld × Nat)} (g : f.addr ≠ 0x7C1064) (gs : ∀ p ∈ l, p.1.addr ≠ 0x7C1064) (h : ReplayStat s t) :
    ReplayStat s (capture f l t) :=
  ite_keeps h (foldl_keeps_mem l _ (fun p hp _ h => setFld_replayStat (gs p hp) h) (setFlag_replayStat g h))

/-! ## Units of the supervisor port -/

theorem complete_replayStat {c : Compl} (h : ReplayStat s t) : ReplayStat s (complete c t) := by
  unfold complete writeCompl
  exact ite_keeps ((setFld_replayStat (f := F.SUP_CMP_HEAD_HEAD) (by decide) h).same rfl rfl) (h.same rfl rfl)

theorem closeSlot_replayStat {n c : Nat} (h : ReplayStat s t) : ReplayStat s (closeSlot n c t) := by
  have bad {i b n : Nat} {t : State} (h : ReplayStat s t) : ReplayStat s (completeBad i b n t) :=
    complete_replayStat (nextFree_keeps (keeps_replayStat (by decide)) (nextFree_keeps (keeps_replayStat (by decide)) h))
  unfold closeSlot
  extract_lets gone sec s1 s2
  have told : ReplayStat s s2 := foldl_keeps (fun _ _ h => bad h) _ _ (h.same rfl rfl)
  refine ite_keeps h (capture_replayStat (f := F.SUP_SLOT_CAP_VALID) (by decide) ?_
    (bump_replayStat (f := F.SUP_SLOT_CNT_CLOSED) (by decide) (report_replayStat told)))
  simp only [List.forall_mem_cons]
  exact ⟨by decide, by decide, fun _ h => nomatch h⟩

theorem deliverMsg_replayStat {m : DevMsg} {d : SlotDesc} {k : SlotKeys} (h : ReplayStat s t) : ReplayStat s (deliverMsg m d k t) := by
  unfold deliverMsg
  extract_lets n more ctr rest sec s1 s2 s3
  have taken : ReplayStat s s1 := setSlot_keeps (keeps_replayStat (by decide)) (h.same rfl rfl)
  have completed : ReplayStat s s2 := complete_replayStat (taken.same rfl rfl)
  have answered : ReplayStat s s3 := by
    unfold s3
    split
    · exact ite_keeps completed (completed.same rfl rfl)
    · exact completed
  exact ite_keeps (closeSlot_replayStat answered) answered

theorem sendUnit_replayStat {n : Nat} {a : Option Answer} {bs : List Byte} (h : ReplayStat s t) : ReplayStat s (sendUnit n a bs t) := by
  have one {t : State} (h : ReplayStat s t) : ReplayStat s (pumpOne t) := by
    unfold pumpOne
    split
    · exact h
    · split
      · exact deliverMsg_replayStat h
      · exact h
  exact foldl_keeps (fun _ _ h => one h) _ _ (h.same rfl rfl)

theorem sendAnswers_replayStat (h : ReplayStat s t) : ReplayStat s (sendAnswers t) := by
  refine foldl_keeps (fun t a h => ?_) _ _ (h.same rfl rfl)
  unfold sendAnswer
  split
  · exact sendUnit_replayStat h
  · exact sendGuidance_keeps (keeps_replayStat (by decide)) h
  · exact h.same rfl rfl

/-! ## The emission -/

theorem judgeLapse_replayStat (h : ReplayStat s t) : ReplayStat s (judgeLapse t) := by
  have told : ReplayStat s (setFlag F.VBS_HB_STAT_OVER true t) := setFlag_replayStat (f := F.VBS_HB_STAT_OVER) (by decide) h
  exact ite_keeps h (ite_keeps (markDoubt_replayStat (by decide) told) (doubtEvent_replayStat (by decide) (told.same rfl rfl)))

theorem releaseHold_replayStat (h : ReplayStat s t) : ReplayStat s (releaseHold t) := ite_keeps (report_replayStat (h.same rfl rfl)) h

theorem takeOver_replayStat (h : ReplayStat s t) : ReplayStat s (takeOver t) := by
  have own {t : State} (h : ReplayStat s t) : ReplayStat s (assertOwn t) := ite_keeps h (assertSafeStop_replayStat h)
  unfold takeOver
  extract_lets t0 umb s1
  have told : ReplayStat s s1 := report_replayStat (h.same rfl rfl)
  refine ite_keeps h ?_
  split
  · exact own told
  · split
    · exact own told
    · exact ite_keeps (own (told.same rfl rfl)) (told.same rfl rfl)

theorem raiseFloor_replayStat (h : ReplayStat s t) : ReplayStat s (raiseFloor t) := by
  have fuses {t : State} (h : ReplayStat s t) : ReplayStat s (showFuses t) := by
    unfold showFuses
    refine foldl_keeps_mem _ _ (fun n small _ h => setFld_replayStat ?_ h)
      (setFld_replayStat (f := F.WDN_LC_STAT_LC) (by decide) (setFld_replayStat (f := F.WDN_LC_STAT_DBG_LOCK) (by decide)
        (setFld_replayStat (f := F.WDN_LC_STAT_PROT_FUSE) (by decide) (setFld_replayStat (f := F.WDN_LC_STAT_KILL) (by decide)
          (setFld_replayStat (f := F.WDN_LC_STAT_OWNER_SET) (by decide) (setFld_replayStat (f := F.WDN_LC_STAT_FW_FLOOR) (by decide)
            (setFld_replayStat (f := F.WDN_LC_STAT_PROT) (by decide) h)))))))
    have : n < 4 := List.mem_range.mp small
    show (F.WDN_DEV_ID_ID n).addr ≠ 0x7C1064
    unfold F.WDN_DEV_ID_ID
    dsimp only
    omega
  exact ite_keeps h (ite_keeps (h.same rfl rfl) (report_replayStat (fuses (h.same rfl rfl))))

theorem putBundle_replayStat {b : BundleBody} (h : ReplayStat s t) : ReplayStat s (putBundle b t) := by
  have queued {b : TxBundle} {t : State} (h : ReplayStat s t) : ReplayStat s (queueBundle b t) :=
    ite_keeps (startBundle_keeps (keeps_replayStat (by decide)) h)
      ((ite_keeps (P := ReplayStat s) (bump_replayStat (f := F.VBS_GUID_STAT_REPLACED) (by decide) h) h).same rfl rfl)
  have transmitted {t : State} (h : ReplayStat s t) : ReplayStat s (transmitBundle b t) := by
    unfold transmitBundle
    extract_lets s1 src
    have offered : ReplayStat s s1 :=
      ite_keeps (queued (ite_keeps (bump_replayStat (f := F.WOD_XVER_STAT_TWIN_EMIT) (by decide) h) h)) h
    exact ite_keeps (sendWoad_keeps (keeps_replayStat (by decide)) offered) offered
  exact transmitted (h.same rfl rfl)

theorem emitLast_replayStat (h : ReplayStat s t) : ReplayStat s (emitLast false t) := by
  have emitted {t : State} (h : ReplayStat s t) : ReplayStat s (emitBundle t) := by
    unfold emitBundle
    extract_lets s1
    have judged : ReplayStat s s1 := judgeLapse_replayStat h
    split
    · exact putBundle_replayStat (raiseFloor_replayStat (takeV_keeps (keeps_replayStat (by decide)) (releaseHold_replayStat judged)))
    · exact putBundle_replayStat (holdBody_keeps (keeps_replayStat (by decide)) (takeOver_replayStat (judged.same rfl rfl)))
  exact ite_keeps h (emitted (phaseDone_keeps (keeps_replayStat (by decide)) h))

theorem chooseBundle_replayStat (s : State) : ReplayStat s (chooseBundle s) := by
  unfold chooseBundle
  extract_lets put
  refine ite_keeps (P := ReplayStat s) (.refl s) (ite_keeps (P := ReplayStat s) (.refl s) ?_)
  split
  · exact ite_keeps (P := ReplayStat s) (.refl s) ((doubtEvent_replayStat (by decide) (.refl s)).same rfl rfl)
  · exact .refl s

/-! ## The frame's end -/

theorem byteWords_length_le (n : Nat) : ∀ l : List Byte, (byteWords n l).length ≤ n := by
  induction n with
  | zero => exact fun l => Nat.le_refl 0
  | succ n ih =>
    intro l
    rw [byteWords]
    split
    · exact Nat.zero_le _
    · exact Nat.succ_le_succ (ih _)

/-- The place of a word of a record of n words. -/
theorem byteWords_place {n : Nat} {l : List Byte} {x : Nat × Nat} (h : x ∈ (byteWords n l).zipIdx) : x.2 < n := by
  have place : x.2 < (byteWords n l).length := by
    have := List.snd_lt_of_mem_zipIdx h
    omega
  exact Nat.lt_of_lt_of_le place (byteWords_length_le n l)

theorem showFrame_replayStat (h : ReplayStat s t) : ReplayStat s (showFrame t) := by
  unfold showFrame
  extract_lets n x s1 s2 s3 s4 s5 s6 g
  have doubts : ReplayStat s s1 := setFld_replayStat (f := F.CND_FRAME_STAT_DOUBT_FLAGS) (by decide)
    (setFld_replayStat (f := F.CND_FRAME_STAT_STATUS) (by decide) h)
  have record : ReplayStat s s2 := foldl_keeps_mem _ _ (fun w hw _ h => setFld_replayStat (by
    have := byteWords_place hw
    show 0x00100200 + 0x4 * w.2 ≠ 0x7C1064
    omega) h) doubts
  have digest : ReplayStat s s3 := foldl_keeps_mem _ _ (fun w hw _ h => setFld_replayStat (by
    have := byteWords_place hw
    show 0x00100280 + 0x4 * w.2 ≠ 0x7C1064
    omega) h) record
  have cut : ReplayStat s s4 := ite_keeps (bump_replayStat (f := F.CND_TRUNC_CNT_COUNT) (by decide) digest) digest
  have counts : ReplayStat s s5 := foldl_keeps_mem _ _ (fun i hi _ h => setSat_replayStat (by
    have := List.mem_range.mp hi
    show 0x00101400 + 0x4 * i ≠ 0x7C1064
    omega) h) cut
  have skips : ReplayStat s s6 := setSat_replayStat (f := F.CND_CAND_SKIP_QUOTA) (by decide)
    (setSat_replayStat (f := F.CND_CAND_SKIP_OTHER) (by decide) counts)
  exact setSat_replayStat (f := F.CND_INFEAS_STAT_KAPPA) (by decide) (setSat_replayStat (f := F.CND_INFEAS_STAT_DKAPPA) (by decide)
    (setSat_replayStat (f := F.CND_INFEAS_STAT_SPEED) (by decide) (setSat_replayStat (f := F.CND_INFEAS_STAT_JOINT) (by decide) skips)))

/-- A tile's counters stand in the first bytes of its 8 KiB, and SUP_REPLAY_STAT in none of them. -/
theorem showTiles_replayStat (h : ReplayStat s t) : ReplayStat s (showTiles t) := by
  refine foldl_keeps (fun _ _ h => foldl_keeps_mem _ _ (fun k small _ h => ?_) ?_) _ _ h
  · have := List.mem_range.mp small
    refine setSat_replayStat ?_ (setSat_replayStat ?_ h)
    · unfold F.SWP_PASS_CNT_COUNT
      dsimp only
      omega
    · unfold F.SWP_CONTACT_CNT_COUNT
      dsimp only
      omega
  · refine setSat_replayStat ?_ (setSat_replayStat ?_ h)
    · unfold F.SWP_TILE_RES_FREE
      dsimp only
      omega
    · unfold F.SWP_TILE_RES_CONTACT
      dsimp only
      omega

theorem writeTelemetry_replayStat {d : Nat} (h : ReplayStat s t) : ReplayStat s (writeTelemetry t d) := by
  have ring {b : Option Nat} {i : Nat} {bs : List Byte} {t : State} (h : ReplayStat s t) : ReplayStat s (putRing b i bs t) := by
    unfold putRing
    split
    · exact h.regs (writeBytes_memRegs (SameRegsBut.refl _ t)) (by decide)
    · exact h
  exact (ring (ring h)).same rfl rfl

theorem releaseSafeStop_replayStat (h : ReplayStat s t) : ReplayStat s (releaseSafeStop t) :=
  ite_keeps (P := ReplayStat s) (report_replayStat ((setFlag_replayStat (f := F.WDN_SAFE_STAT_SAFE_STOP) (by decide) (h.same rfl rfl)).same rfl rfl))
    (h.same rfl rfl)

theorem showHold_replayStat (h : ReplayStat s t) : ReplayStat s (showHold t) :=
  setFlag_replayStat (f := F.WDN_SAFE_STAT_HOLD) (by decide) (setFlag_replayStat (f := F.WDN_SAFE_STAT_NO_V) (by decide)
    (setSat_replayStat (f := F.WDN_SAFE_STAT_HOLD_MS) (by decide) h))

theorem endFrame_replayStat (h : ReplayStat s t) : ReplayStat s (endFrame t) := by
  have told : ReplayStat s ((activeDomains (showTiles (showFrame t))).foldl writeTelemetry (showTiles (showFrame t))) :=
    foldl_keeps (fun _ _ h => writeTelemetry_replayStat h) _ _ (showTiles_replayStat (showFrame_replayStat h))
  have counted : ReplayStat s (countPersist (countClean (sendAnswers ((activeDomains (showTiles (showFrame t))).foldl writeTelemetry (showTiles (showFrame t)))))) :=
    countPersist_keeps (keeps_replayStat (by decide)) (countClean_keeps (keeps_replayStat (by decide)) (sendAnswers_replayStat told))
  exact showHold_replayStat ((releaseSafeStop_replayStat counted).same rfl rfl)

end

end Sys2Proof.Machine

end

section

set_option Elab.async false

/-! # Replay (R586 to R592) -/

namespace Sys2Proof.Machine

open Sys2Proof.Claims (ReplayOpens)

section
variable {s t u : State} {r : Requester} {n : Nat}

/-! ## Opening -/

/-- The stop and the end of transmission with which replay opens. -/
def replayStopped (s : State) : State := assertSafeStop (txEnded s)

/-- The fabric is wiped and reloaded as in a restart. -/
def replayWiped (s : State) : State := reloadFabric none (wipeFabric (replayStopped s))

/-- Replay of s is open in u, with no V and no frame. -/
def replayOn (s u : State) : State :=
  { u with
    umb := { u.umb with v := none, holding := false }
    replay := { active := true, slot := fld s F.SUP_REPLAY_CTL_SLOT, live := s.frame.num, inFrame := false }
    frame := { FrameSt.initial with num := u.frame.num, edgeTick := u.frame.edgeTick } }

/-- Replay is open in the fabric that was wiped for it. -/
def replayBegun (s : State) : State := replayOn s (replayWiped s)

/-- The status of the open replay, and the answers that go out. -/
def replayAnswered (u : State) : State :=
  sendAnswers (showHold (setFld F.SUP_REPLAY_STAT_STATE 2 (setFld F.SUP_REPLAY_STAT_FRAMES 0 u)))

theorem openReplay_eq (s : State) : openReplay s = replayAnswered (replayBegun s) := by
  unfold openReplay replayAnswered replayBegun replayOn replayWiped replayStopped txEnded
  rfl

/-- A reason's refusal shows, and without one replay opens. -/
def enterReplay (s : State) : State :=
  match replayReason s with
  | some n => setFlag F.SUP_REPLAY_STAT_REFUSED true (setFld F.SUP_REPLAY_STAT_REASON n s)
  | none => openReplay s

theorem exec_replayEnter (r : Requester) : exec (.replayEnter r) s = .next (live s (supWrite r F.SUP_REPLAY_CTL_ENTER.addr enterReplay)) := rfl

theorem enterReplay_refused (h : replayReason s = some n) :
    enterReplay s = setFlag F.SUP_REPLAY_STAT_REFUSED true (setFld F.SUP_REPLAY_STAT_REASON n s) := by
  unfold enterReplay
  rw [h]

theorem enterReplay_free (h : replayReason s = none) : enterReplay s = openReplay s := by
  unfold enterReplay
  rw [h]

theorem replayWiped_keeps {P : State → Prop} (C : Keeps [.pwr, .raise, .indlog, .regs, .ing, .cnd, .wld, .epoch, .log, .queue, .inf, .mem, .data, .swp,
    .sel, .slv, .twin, .swap, .sent] P) (h : P (replayStopped s)) : P (replayWiped s) :=
  reloadFabric_keeps (C.mono (by decide)) (wipeFabric_keeps (C.mono (by decide)) h)

theorem replayStopped_bus : (replayStopped s).bus = { s.bus with onBus := none, waiting := none, guidOut := [] } :=
  assertSafeStop_keeps (shows_bus (by decide)) rfl

theorem replayWiped_bus : (replayWiped s).bus.onBus = none ∧ (replayWiped s).bus.waiting = none := by
  have bus : (replayWiped s).bus = _ := replayWiped_keeps (shows_bus (by decide)) replayStopped_bus
  rw [bus]
  exact ⟨rfl, rfl⟩

theorem replayWiped_safe : (replayWiped s).pwr.safeStop = true :=
  replayWiped_keeps (keeps_stop_of_cold (by decide)) (assertSafeStop_asserts (txEnded s)).1

theorem replayWiped_reqs : (replayWiped s).cnd.reqs = [] := by
  have cnd : (replayWiped s).cnd = (wipeFabric (replayStopped s)).cnd := reloadFabric_keeps (shows_cnd (by decide)) rfl
  rw [cnd]
  exact (wipeFabric_wipes (replayStopped s)).1.reqs

theorem replayWiped_inv (inv : Inv s) : Inv (replayWiped s) :=
  replayWiped_keeps (keeps_inv (by decide)) (assertSafeStop_keeps (keeps_inv (by decide)) (Keeps.upd_bus (W := [.bus]) (keeps_inv (by decide)) (by decide) inv))

/-- Nothing is on the bus and nothing waits for it. -/
abbrev BusIdle (s : State) : Prop := s.bus.onBus = none ∧ s.bus.waiting = none

/-- With nothing on the bus the answers of a frame go out at once. -/
theorem sendAnswers_idle (h : BusIdle s) : BusIdle (sendAnswers s) := by
  refine foldl_keeps (fun t a h => ?_) _ _ (show BusIdle { s with cnd := { s.cnd with answers := [] } } from h)
  unfold sendAnswer
  split
  · exact sendUnit_keeps (Keeps.of_shows (fun x => shows_bus (x := x) (by decide)) fun b => b.onBus = none ∧ b.waiting = none) h
  · unfold sendGuidance
    rw [if_neg (by rw [h.1]; exact Bool.false_ne_true)]
    exact h
  · exact h

theorem sendAnswers_reqs (s : State) : (sendAnswers s).cnd.reqs = s.cnd.reqs := by
  have cnd : (sendAnswers s).cnd = { s.cnd with answers := [] } :=
    foldl_keeps (P := fun t : State => t.cnd = { s.cnd with answers := [] }) (fun _ _ h => sendAnswer_keeps (shows_cnd (by decide)) h) _ _ rfl
  rw [cnd]

theorem replayOn_wf (wf : RegsOk u) : RegsOk (replayOn s u) := wf

theorem replayBegun_wf (inv : Inv s) : RegsOk (replayBegun s) := replayOn_wf (replayWiped_inv inv).regs

/-- What stands when replay of s has just opened. -/
structure ReplayStarts (s t : State) : Prop where
  replay : t.replay = { active := true, slot := fld s F.SUP_REPLAY_CTL_SLOT, live := s.frame.num, inFrame := false }
  safe : t.pwr.safeStop = true
  v : t.umb.v = none
  holding : t.umb.holding = false
  started : t.frame.started = false
  reqs : t.cnd.reqs = []
  idle : BusIdle t

theorem replayOn_starts (safe : u.pwr.safeStop = true) (reqs : u.cnd.reqs = []) (idle : BusIdle u) : ReplayStarts s (replayOn s u) :=
  ⟨rfl, safe, rfl, rfl, rfl, reqs, idle⟩

theorem replayBegun_starts : ReplayStarts s (replayBegun s) := replayOn_starts replayWiped_safe replayWiped_reqs replayWiped_bus

theorem replayAnswered_keeps {P : State → Prop} (C : Keeps [.indlog, .regs, .cnd, .log, .queue, .sec, .bus, .sent, .free] P) (h : P u) :
    P (replayAnswered u) :=
  sendAnswers_keeps C (showHold_keeps (C.mono (by decide)) (setFld_keeps (C.mono (by decide)) (setFld_keeps (C.mono (by decide)) h)))

theorem replayAnswered_stat (wf : RegsOk u) : fld (replayAnswered u) F.SUP_REPLAY_STAT_STATE = 2 ∧ fld (replayAnswered u) F.SUP_REPLAY_STAT_FRAMES = 0 := by
  have after : ReplayStat (setFld F.SUP_REPLAY_STAT_STATE 2 (setFld F.SUP_REPLAY_STAT_FRAMES 0 u)) (replayAnswered u) :=
    sendAnswers_replayStat (showHold_replayStat (.refl _))
  obtain ⟨state, frames⟩ := fld_setFld_both (f := F.SUP_REPLAY_STAT_STATE) (g := F.SUP_REPLAY_STAT_FRAMES) (v := 2) (w := 0) wf
    (by decide) (by decide) rfl (.inl (by decide))
  exact ⟨(after.fld rfl).trans state, (after.fld rfl).trans (frames.trans (Nat.zero_mod _))⟩

theorem ReplayStarts.answered (h : ReplayStarts s u) : ReplayStarts s (replayAnswered u) := by
  have umb : (replayAnswered u).umb = u.umb := replayAnswered_keeps (shows_umb (by decide)) rfl
  have idle : BusIdle (showHold (setFld F.SUP_REPLAY_STAT_STATE 2 (setFld F.SUP_REPLAY_STAT_FRAMES 0 u))) := h.idle
  exact
    { replay := replayAnswered_keeps (shows_replay (by decide)) h.replay
      safe := replayAnswered_keeps (keeps_stop_of_cold (by decide)) h.safe
      v := umb ▸ h.v
      holding := umb ▸ h.holding
      started := replayAnswered_keeps (shows_started (by decide)) h.started
      reqs := (sendAnswers_reqs _).trans h.reqs
      idle := sendAnswers_idle idle }

/-- Replay of s is open in t (R586). -/
abbrev ReplayIsOpen (s t : State) : Prop :=
  t.replay = { active := true, slot := fld s F.SUP_REPLAY_CTL_SLOT, live := s.frame.num, inFrame := false } ∧
    t.pwr.safeStop = true ∧ t.umb.v = none ∧ t.umb.holding = false ∧ t.frame.started = false ∧ t.cnd.reqs = [] ∧
    t.bus.onBus = none ∧ t.bus.waiting = none ∧ fld t F.SUP_REPLAY_STAT_STATE = 2 ∧ fld t F.SUP_REPLAY_STAT_FRAMES = 0

theorem ReplayStarts.open (h : ReplayStarts s u) (wf : RegsOk u) : ReplayIsOpen s (replayAnswered u) := by
  have k := h.answered
  obtain ⟨state, frames⟩ := replayAnswered_stat wf
  exact ⟨k.replay, k.safe, k.v, k.holding, k.started, k.reqs, k.idle.1, k.idle.2, state, frames⟩

theorem openReplay_opens (inv : Inv s) : ReplayIsOpen s (openReplay s) := by
  rw [openReplay_eq]
  exact replayBegun_starts.open (replayBegun_wf inv)

theorem replayReason_le (h : replayReason s = some n) : n ≤ 4 := by
  unfold replayReason at h
  split at h
  · cases h; decide
  · split at h
    · cases h; decide
    · split at h
      · cases h; decide
      · split at h
        · cases h; decide
        · cases h

/-! ## Leaving -/

/-- Replay is over and a restart's first step done, before the registers show it. -/
def replayLeft (s : State) : State :=
  { haltFabric s with
    replay := { s.replay with active := false, inFrame := false }
    frame := { FrameSt.initial with num := s.replay.live, edgeTick := s.frame.edgeTick }
    safe := { (haltFabric s).safe with
      restart := some { trigger := .command, began := (haltFabric s).time.count, phase := .halted, ignored := [] } } }

theorem exec_replayExit (r : Requester) : exec (.replayExit r) s = .next (live s (supWrite r F.SUP_REPLAY_CTL_EXIT.addr fun s =>
    if !s.replay.active then s else setFld F.SUP_REPLAY_STAT_STATE 3 (setFlag F.WDN_SAFE_STAT_RESTART true (replayLeft s)))) := rfl

theorem replayLeft_wf (inv : Inv s) : RegsOk (replayLeft s) := haltFabric_keeps (keeps_regs_wf (by decide)) inv.regs

theorem replayEnter_opens (up : running s = true) (inv : Inv s) (near : reachesSup s r = true) (free : replayReason s = none) :
    Goes (.replayEnter r) s (ReplayIsOpen s) := by
  refine goes_live up (exec_replayEnter r) ?_
  rw [supWrite_reached near, enterReplay_free free]
  exact openReplay_opens inv

theorem replayOpens (up : running s = true) (inv : Inv s) : ReplayOpens r s := by
  refine ⟨fun far => ⟨goes_live up (exec_replayEnter r) ?_, goes_live up (exec_replayExit r) ?_⟩, fun near => ⟨fun n reason => goes_live up (exec_replayEnter r) ?_,
    replayEnter_opens up inv near, fun closed => idle_live (exec_replayExit r) ?_, fun active => goes_live up (exec_replayExit r) ?_⟩⟩
  · rw [supWrite_refused far]
    exact refused_refuseAccess ..
  · rw [supWrite_refused far]
    exact refused_refuseAccess ..
  · rw [supWrite_reached near, enterReplay_refused reason]
    have reasonWf : RegsOk (setFld F.SUP_REPLAY_STAT_REASON n s) := setFld_wf inv.regs
    refine ⟨flag_setFlag_same reasonWf (by decide), ?_, .setFlag (.setFld (.refl _ s) (by decide)) (by decide), rfl⟩
    show fld (setFlag F.SUP_REPLAY_STAT_REFUSED true _) F.SUP_REPLAY_STAT_REASON = n
    rw [setFlag, fld_setFld_other (f := F.SUP_REPLAY_STAT_REFUSED) (g := F.SUP_REPLAY_STAT_REASON) reasonWf (by decide) (by decide) rfl (.inl (by decide)),
      fld_setFld_same inv.regs (by decide)]
    exact Nat.mod_eq_of_lt (Nat.lt_of_le_of_lt (replayReason_le reason) (by decide))
  · rw [supWrite_reached near, closed]
    rfl
  · rw [supWrite_reached near, active]
    have shown : RegsOk (setFlag F.WDN_SAFE_STAT_RESTART true (replayLeft s)) := setFld_wf (replayLeft_wf inv)
    exact ⟨rfl, rfl, rfl, fld_setFld_same shown (by decide), _, rfl, rfl, rfl⟩

/-! ## A frame of a replay -/

/-- A frame with this number and edge tick has started, and replay stands as given. -/
def ReplayFrame (x : ReplaySt) (num : FrameNo) (edge : Tick) (t : State) : Prop :=
  t.replay = x ∧ t.frame.num = num ∧ t.frame.edgeTick = edge ∧ t.frame.started = true

variable {x : ReplaySt} {num : FrameNo} {edge : Tick}

theorem keeps_replayFrame {W : List Part} (h : ∀ p ∈ W, p ∉ ([.num, .replay, .cold] : List Part)) : Keeps W (ReplayFrame x num edge) := by
  have frame : ∀ q ∈ W, q ∉ ([.num, .cold] : List Part) := fun q hq m => h q hq (by revert m; cases q <;> decide)
  have replay : ∀ q ∈ W, q ∉ ([.replay, .cold] : List Part) := fun q hq m => h q hq (by revert m; cases q <;> decide)
  exact (shows_replay replay).and ((shows_num frame).and ((shows_edgeTick frame).and (shows_started frame)))

theorem newFrame_replayFrame (h : s.replay = x) : ReplayFrame x num edge (newFrame num edge s) := by
  have keeps {W : List Part} := keeps_replayFrame (x := x) (num := num) (edge := edge) (W := W)
  unfold newFrame
  extract_lets carry s0 frame s1 s2
  have replay : s0.replay = x := setFld_keeps (shows_replay (by decide))
    (ite_keeps (P := fun t : State => t.replay = x) (setFld_keeps (shows_replay (by decide)) h) h)
  have begun : ReplayFrame x num edge s1 := ⟨replay, rfl, rfl, rfl⟩
  have marked : ReplayFrame x num edge s2 := foldl_keeps (fun _ _ h => ite_keeps h
    (ite_keeps (mixFrame_keeps (keeps (by decide)) h) (markDoubt_keeps (keeps (by decide)) h))) _ _ begun
  exact setFld_keeps (keeps (by decide)) (setFld_keeps (keeps (by decide)) (setFld_keeps (keeps (by decide)) marked))

/-- The replay frame of a unit begins (R587, R588). -/
def replayFrameBegun (bytes : List Byte) (s : State) : State :=
  newFrame (BitVec.ofNat 32 (fieldAt 0 4 bytes)) (fieldAt 4 8 bytes) { s with replay := { s.replay with inFrame := true } }

/-- The samples of a unit are taken and the fabric has its edge. -/
def replayUnitTaken (bytes : List Byte) (s : State) : State :=
  fabricEdge ((replaySamples (min 4096 (fieldAt 12 2 bytes)) (bytes.drop 16)).foldl (replaySample (fieldAt 4 8 bytes)) (replayFrameBegun bytes s))

theorem exec_replayUnit (u : List Byte) : exec (.replayUnit u) s = .next (live s fun s =>
    if !s.replay.active || s.replay.inFrame then s else replayUnitTaken u s) := rfl

theorem replayUnitTaken_begins (u : List Byte) (s : State) : ReplayFrame { s.replay with inFrame := true } (BitVec.ofNat 32 (fieldAt 0 4 u)) (fieldAt 4 8 u)
    (replayUnitTaken u s) :=
  fabricEdge_keeps (keeps_replayFrame (by decide)) (foldl_keeps (fun _ _ h => replaySample_keeps (keeps_replayFrame (by decide)) h) _ _
    (newFrame_replayFrame rfl))

/-! ## A replay frame's end -/

/-- The frame of a replay with its bundle chosen and gone out. -/
def replayEmitted (s : State) : State := emitLast false (if s.frame.choice.isNone then chooseBundle s else s)

theorem replayEmitted_keeps {P : State → Prop} (C : Keeps [.raise, .indlog, .fuse, .regs, .frame, .emit, .umb, .log, .queue, .boot, .slv, .twin, .bus,
    .sent, .free] P) (h : P s) : P (replayEmitted s) :=
  emitLast_keeps C (ite_keeps (chooseBundle_keeps (C.mono (by decide)) h) h)

/-- To be emitted, a frame has only to be chosen: what has gone out stands. -/
theorem chosen_frame : let t := if s.frame.choice.isNone then chooseBundle s else s
    t.frame.emittedFrame = s.frame.emittedFrame ∧ t.frame.emissions = s.frame.emissions := by
  intro t
  refine ite_keeps (P := fun t : State => t.frame.emittedFrame = s.frame.emittedFrame ∧ t.frame.emissions = s.frame.emissions) ?_ ⟨rfl, rfl⟩
  have put {c : BundleChoice} {u : State} (h : OnlyMarks s u) :
      ({ u with frame := { u.frame with choice := some c } } : State).frame.emittedFrame = s.frame.emittedFrame ∧
        ({ u with frame := { u.frame with choice := some c } } : State).frame.emissions = s.frame.emissions := ⟨h.emittedFrame, h.emissions⟩
  unfold chooseBundle
  extract_lets put'
  refine ite_keeps (P := fun t : State => t.frame.emittedFrame = s.frame.emittedFrame ∧ t.frame.emissions = s.frame.emissions) (put (.refl s))
    (ite_keeps (P := fun t : State => t.frame.emittedFrame = s.frame.emittedFrame ∧ t.frame.emissions = s.frame.emissions) (put (.refl s)) ?_)
  split
  · exact ite_keeps (P := fun t : State => t.frame.emittedFrame = s.frame.emittedFrame ∧ t.frame.emissions = s.frame.emissions) (put (.refl s))
      (put (onlyMarks_doubtEvent 7 _ s))
  · exact put (.refl s)

theorem replayEmitted_emissions : (replayEmitted s).frame.emissions = if s.frame.emittedFrame then s.frame.emissions else s.frame.emissions + 1 := by
  obtain ⟨emitted, emissions⟩ := chosen_frame (s := s)
  unfold replayEmitted
  cases out : s.frame.emittedFrame with
  | true => rw [emitLast_of_emitted (emitted.trans out), if_pos rfl, emissions]
  | false =>
    rw [if_neg Bool.false_ne_true]
    obtain ⟨-, count, -⟩ := emitLast_emits (late := false) (emitted.trans out) (s := _) ⟨emissions, [], rfl⟩
    exact count

/-- The unit that goes back for the frame of t: bundle, telemetry record and audit digest (R589). -/
def replayUnitBytes (t : State) : List Byte := ((t.frame.out.map (bundleBytes t)).getD []) ++ telemetryBytes t 0 ++ digestBytes (auditDigest t 0)

theorem endReplayFrame_eq (s : State) : endReplayFrame s = sendReplayUnit (replayUnitBytes (replayEmitted s)) (endFrame (replayEmitted s)) := rfl

theorem counted_from {f : Fld} (same : fld t f = fld s f) (h : Counted f t u) : Counted f s u := by
  unfold Counted at *
  rw [← same]
  exact h

/-- What the last step of a replay frame does. -/
theorem sendReplayUnit_sends {b : List Byte} (wf : RegsOk t) : (sendReplayUnit b t).replay = { t.replay with inFrame := false } ∧
    Counted F.SUP_REPLAY_STAT_FRAMES t (sendReplayUnit b t) ∧ .replay b ∈ (sendReplayUnit b t).sent ∧
    (sendReplayUnit b t).frame = t.frame := by
  have out : ReplayStat t (sendUnit t.replay.slot none b (send (.replay b) { t with replay := { t.replay with inFrame := false } })) :=
    sendUnit_replayStat ((ReplayStat.refl t).same rfl rfl)
  have wf' : RegsOk (sendUnit t.replay.slot none b (send (.replay b) { t with replay := { t.replay with inFrame := false } })) :=
    sendUnit_keeps (keeps_regs_wf (by decide)) wf
  have sends : ∃ l, (sendReplayUnit b t).sent = l ++ (Output.replay b :: t.sent) := bump_keeps shows_sent (sendUnit_keeps shows_sent ⟨[], rfl⟩)
  obtain ⟨l, sends⟩ := sends
  refine ⟨bump_keeps (shows_replay (by decide)) (sendUnit_keeps (shows_replay (by decide)) rfl), ?_, ?_,
    bump_keeps (shows_frame (by decide)) (sendUnit_keeps (shows_frame (by decide)) rfl)⟩
  · exact counted_from (out.fld (f := F.SUP_REPLAY_STAT_FRAMES) rfl) (counted_bump wf' (by decide))
  · rw [sends]
    exact List.mem_append_right _ List.mem_cons_self

/-- A replay frame of s has ended in t (R588, R589). -/
abbrev ReplayFrameEnds (s t : State) : Prop :=
  t.replay = { s.replay with inFrame := false } ∧ Counted F.SUP_REPLAY_STAT_FRAMES s t ∧ (∃ b, .replay b ∈ t.sent) ∧
    t.frame.emissions = if s.frame.emittedFrame then s.frame.emissions else s.frame.emissions + 1

theorem endReplayFrame_ends (inv : Inv s) : ReplayFrameEnds s (endReplayFrame s) := by
  have wf : RegsOk (endFrame (replayEmitted s)) :=
    endFrame_keeps (keeps_regs_wf (by decide)) (replayEmitted_keeps (keeps_regs_wf (by decide)) inv.regs)
  have replay : (endFrame (replayEmitted s)).replay = s.replay := endFrame_keeps (shows_replay (by decide)) (replayEmitted_keeps (shows_replay (by decide)) rfl)
  have frame : (endFrame (replayEmitted s)).frame = (replayEmitted s).frame := endFrame_keeps (shows_frame (by decide)) rfl
  have stat : ReplayStat s (endFrame (replayEmitted s)) :=
    endFrame_replayStat (emitLast_replayStat (ite_keeps (P := ReplayStat s) (chooseBundle_replayStat s) (.refl s)))
  obtain ⟨closed, counted, sent, same⟩ := sendReplayUnit_sends (b := replayUnitBytes (replayEmitted s)) wf
  rw [endReplayFrame_eq]
  refine ⟨by rw [closed, replay], counted_from (stat.fld rfl) counted, ⟨_, sent⟩, ?_⟩
  rw [same, frame]
  exact replayEmitted_emissions

theorem replayUnit_begins (up : running s = true) (active : s.replay.active = true) (idle : s.replay.inFrame = false) (u : List Byte) :
    Goes (.replayUnit u) s (ReplayFrame { s.replay with inFrame := true } (BitVec.ofNat 32 (fieldAt 0 4 u)) (fieldAt 4 8 u)) := by
  refine goes_live up (exec_replayUnit u) ?_
  rw [if_neg (by rw [active, idle]; decide)]
  exact replayUnitTaken_begins u s

theorem replayFrameEnd_ends (up : running s = true) (inv : Inv s) (active : s.replay.active = true) (busy : s.replay.inFrame = true) :
    Goes .replayFrameEnd s (ReplayFrameEnds s) := by
  refine goes_live up (exec_replayFrameEnd s) ?_
  rw [if_neg (by rw [active, busy]; decide)]
  exact endReplayFrame_ends inv

end

/-- Settles O60. -/
theorem replayRunsGivenFrames : Obligations.ReplayRunsGivenFrames := by
  unfold Obligations.ReplayRunsGivenFrames
  intro s up inv
  refine ⟨fun r => replayOpens up inv, replayUnit_begins up, replayFrameEnd_ends up inv,
    fun none' u => idle_live (exec_replayUnit u) ?_, fun none' => idle_live (exec_replayFrameEnd s) ?_⟩
  · rcases none' with closed | busy
    · rw [closed]; rfl
    · rw [busy, Bool.or_true]; rfl
  · rcases none' with closed | idle
    · rw [closed]; rfl
    · rw [idle, Bool.not_false, Bool.or_true]; rfl

end Sys2Proof.Machine

end

section

set_option Elab.async false

/-! # The parts of a cold start (R539, R548 to R557) -/

namespace Sys2Proof.Machine

section
variable {s t u v : State} {e : BootEnv}

/-! ## A halt of the start -/

/-- The device has halted with FAULT_N asserted. -/
def BootHalted (t : State) : Prop := t.pwr.phase = .halted ∧ t.pwr.faultN = true

/-- A part of the start goes on or has halted the device. -/
def GoesOrHalts : BootRun → Prop
  | .inl t => BootHalted t
  | .inr _ => True

theorem bootHalt_halts (cause sec : Nat) (fw : Bool) (s : State) : BootHalted (bootHalt cause sec fw s) := ⟨rfl, rfl⟩

theorem andThen_goesOrHalts {x : BootRun} {f : State → BootRun} (h : GoesOrHalts x) (g : ∀ t, GoesOrHalts (f t)) : GoesOrHalts (andThen x f) := by
  cases x with
  | inl t => exact h
  | inr t => exact g t

theorem loseModel_goesOrHalts (cause : Nat) (x : ImgSection) (s : State) : GoesOrHalts (loseModel cause x s) := by
  unfold loseModel
  split
  · exact ite_holds (P := GoesOrHalts) (bootHalt_halts ..) trivial
  · exact ite_holds (P := GoesOrHalts) (bootHalt_halts ..) trivial

theorem bootPower_goesOrHalts (e : BootEnv) (s : State) : GoesOrHalts (bootPower e s) :=
  ite_holds (P := GoesOrHalts) (bootHalt_halts ..) (ite_holds (P := GoesOrHalts) (bootHalt_halts ..) trivial)

theorem bootSection_goesOrHalts {striped : Bool} {src other : ImgSrc} {r : BootRun} {x : ImgSection} (h : GoesOrHalts r) :
    GoesOrHalts (bootSection striped src other r x) := by
  refine andThen_goesOrHalts h fun t => ite_holds (P := GoesOrHalts) trivial ?_
  extract_lets s1
  split
  · trivial
  · exact loseModel_goesOrHalts ..

theorem bootModel_goesOrHalts {striped : Bool} {src other : ImgSrc} {r : BootRun} {x : ImgSection} (h : GoesOrHalts r) :
    GoesOrHalts (bootModel striped src other r x) := by
  refine andThen_goesOrHalts h fun t => ?_
  split
  · split
    · trivial
    · exact loseModel_goesOrHalts ..
  · trivial

theorem bootLoad_goesOrHalts (found : (bootSource e s.fuse).isSome = true) : GoesOrHalts (bootLoad e s) := by
  unfold bootLoad
  split
  · rename_i no
    rw [no] at found
    cases found
  · extract_lets xs copy x1 x2
    have sections : GoesOrHalts x1 := foldl_keeps (fun _ _ h => bootSection_goesOrHalts h) _ _ trivial
    have models : GoesOrHalts x2 := foldl_keeps (fun _ _ h => bootModel_goesOrHalts h) _ _ sections
    exact andThen_goesOrHalts models fun t => ite_holds (P := GoesOrHalts) (bootHalt_halts ..) trivial

/-- Step 3 goes on from an image that a flash yields, or halts. -/
theorem bootHeader_cases (e : BootEnv) (s : State) : (∃ t, bootHeader e s = .inl t ∧ BootHalted t) ∨
    ∃ t, bootHeader e s = .inr t ∧ s.fuse.lc ≠ 4 ∧ t.fuse = s.fuse ∧ (bootSource e s.fuse).isSome = true := by
  unfold bootHeader
  split
  · exact .inl ⟨_, rfl, bootHalt_halts ..⟩
  · rename_i lc
    split
    · exact .inl ⟨_, rfl, bootHalt_halts ..⟩
    · rename_i found
      exact .inr ⟨_, rfl, lc, bootStep_keeps (shows_fuse (by decide)) rfl, by rw [found]; rfl⟩
    · rename_i found
      exact .inr ⟨_, rfl, lc, bootStep_keeps (shows_fuse (by decide)) (setFlag_keeps (shows_fuse (by decide)) (report_keeps (shows_fuse (by decide)) rfl)),
        by rw [found]; rfl⟩

/-! ## Steps 1 to 4 -/

/-- Steps 1 to 4 of a start. -/
def bootRun (e : BootEnv) (s : State) : BootRun := andThen (andThen (bootPower e s) (bootHeader e)) (bootLoad e)

theorem bootRun_goesOrHalts (e : BootEnv) (s : State) : GoesOrHalts (bootRun e s) := by
  have ran := bootPower_goesOrHalts e s
  unfold bootRun
  cases power : bootPower e s with
  | inl t => exact (power ▸ ran : GoesOrHalts (.inl t))
  | inr t =>
    show GoesOrHalts (andThen (bootHeader e t) (bootLoad e))
    rcases bootHeader_cases e t with ⟨u, eq, halted⟩ | ⟨u, eq, -, fuse, found⟩
    · rw [eq]
      exact halted
    · rw [eq]
      exact bootLoad_goesOrHalts (fuse ▸ found)

/-- With both straps set and in SCRAPPED the start halts. -/
theorem bootRun_barred (bars : e.twinPos0 = true ∧ e.twinPos1 = true ∨ s.fuse.lc = 4) : ∃ t, bootRun e s = .inl t := by
  have fuse : SumP (fun t => t.fuse = s.fuse) (bootPower e s) := bootPower_keeps (shows_fuse (by decide)) rfl
  unfold bootRun
  cases power : bootPower e s with
  | inl t => exact ⟨t, rfl⟩
  | inr t =>
    rw [power] at fuse
    rcases bars with ⟨zero, one⟩ | scrapped
    · have halt : bootPower e s = .inl (bootHalt 1 0 false s) := if_pos (by rw [zero, one]; rfl)
      rw [halt] at power
      cases power
    · have same : t.fuse = s.fuse := fuse
      rcases bootHeader_cases e t with ⟨u, eq, -⟩ | ⟨u, -, lc, -⟩
      · show ∃ v, andThen (bootHeader e t) (bootLoad e) = .inl v
        rw [eq]
        exact ⟨u, rfl⟩
      · exact absurd (same ▸ scrapped) lc

/-! ## The whole start -/

/-- The state in which steps 1 to 4 begin. -/
def bootBegun (e : BootEnv) (s : State) : State := wakeTrip (showStart e (coldState e s))

/-- What comes of steps 1 to 4: a halt, or steps 5 to 7. -/
def bootEnded (e : BootEnv) (t : Tick) : BootRun → State
  | .inl h => h
  | .inr v => bootFinish e t v

theorem coldStart_eq (e : BootEnv) (s : State) : coldStart e s =
    if (bootBegun e s).pwr.phase = .halted then bootBegun e s else bootEnded e (startCount s) (bootRun e (bootBegun e s)) := by
  unfold coldStart bootRun bootBegun
  rfl

/-- The parts that a start writes once the device has its cold state. -/
def startParts : List Part := [.pwr, .phase, .raise, .ind, .indlog, .fuse, .regs, .ing, .frame, .cnd, .wld, .safe, .log, .queue, .boot, .mem, .data,
  .swp, .sel, .slv, .twin, .pair, .sec, .bus, .sent, .free]

theorem bootRun_keeps {P : State → Prop} (C : Keeps [.pwr, .phase, .indlog, .regs, .wld, .log, .queue, .boot, .mem, .data, .free] P) (h : P s) :
    SumP P (bootRun e s) :=
  andThen_keeps (C.mono (by decide)) (andThen_keeps (C.mono (by decide)) (bootPower_keeps (C.mono (by decide)) h)
    fun _ h => bootHeader_keeps (C.mono (by decide)) h) fun _ h => bootLoad_keeps C h

theorem bootBegun_keeps {P : State → Prop} (C : Keeps startParts P) (h : P (coldState e s)) : P (bootBegun e s) :=
  wakeTrip_keeps (C.mono (by decide)) (showStart_keeps (C.mono (by decide)) h)

/-- What holds of the cold state and survives the parts of a start holds of the started device. -/
theorem afterCold_keeps {P : State → Prop} (C : Keeps startParts P) (h : P (coldState e s)) : P (coldStart e s) := by
  rw [coldStart_eq]
  have begun : P (bootBegun e s) := bootBegun_keeps C h
  have ran : SumP P (bootRun e (bootBegun e s)) := bootRun_keeps (C.mono (by decide)) begun
  refine ite_keeps begun ?_
  cases ends : bootRun e (bootBegun e s) with
  | inl t => exact (ends ▸ ran : SumP P (.inl t))
  | inr t => exact bootFinish_keeps (C.mono (by decide)) (ends ▸ ran : SumP P (.inr t))

/-! ## The cold state -/

theorem coldState_safeStop : (coldState e s).pwr.safeStop = true := rfl

theorem coldState_phase : (coldState e s).pwr.phase = s.pwr.phase := rfl

theorem coldState_pending : (coldState e s).pending = s.pending := rfl

theorem coldState_fuse : (coldState e s).fuse = s.fuse := rfl

theorem coldState_image : (coldState e s).image = ((bootSource e s.fuse).map (builtImage e)).getD Image.blank := rfl

theorem coldState_time : (coldState e s).time = { TimeSt.initial with count := startCount s + e.ticks } := rfl

theorem coldState_frame : (coldState e s).frame = FrameSt.initial := rfl

theorem coldState_ind : (coldState e s).ind = { s.ind with wdogKick := startCount s } := rfl

theorem coldState_boot : (coldState e s).boot = { BootSt.initial with
    bootSel := e.bootSel, tweaks := e.tweaks, pos := if e.twinPos1 then 1 else if e.twinPos0 then 0 else 2 } := rfl

theorem showStart_only : (showStart e t).pwr = t.pwr ∧ (showStart e t).fuse = t.fuse ∧ (showStart e t).ind = t.ind ∧ (showStart e t).boot = t.boot :=
  ⟨showStart_keeps (shows_pwr (by decide)) rfl, showStart_keeps (shows_fuse (by decide)) rfl, showStart_keeps (shows_ind (by decide)) rfl,
    showStart_keeps (shows_boot (by decide)) rfl⟩

/-- A trip that is handled at the start halts the device with FAULT_N asserted or leaves its phase. -/
theorem wakeTrip_phase (t : State) : BootHalted (wakeTrip t) ∨ (wakeTrip t).pwr = t.pwr := by
  unfold wakeTrip
  split
  · exact .inr rfl
  · obtain ⟨-, -, -, -, halts, goesOn⟩ := tripped_trips t.ind.asleepDue true { t with ind := { t.ind with asleepDue := 0 } }
    cases on : flag { t with ind := { t.ind with asleepDue := 0 } } F.WDN_SEC_CFG_TAMPER_HALT with
    | true =>
      obtain ⟨phase, -, fault, -⟩ := halts on
      exact .inl ⟨phase, fault⟩
    | false => exact .inr (goesOn on)

theorem bootBegun_phase (e : BootEnv) (reset : s.pwr.phase = .reset) : BootHalted (bootBegun e s) ∨ (bootBegun e s).pwr.phase = .reset := by
  rcases wakeTrip_phase (showStart e (coldState e s)) with halted | same
  · exact .inl halted
  · refine .inr ?_
    unfold bootBegun
    rw [same, showStart_only.1, coldState_phase, reset]

/-- Step 5: the owner is taken, the streams begin, and the start-up tests run. -/
def bootTested (e : BootEnv) (n : Tick) (s : State) : State :=
  startTests e.failTiles e.failInf e.failSelect e.failLanes (bootStep 5 (refreshResident (startStreams n (takeOwner s))))

/-- The device runs, in the frame before frame 0. -/
def bootRunning (e : BootEnv) (s : State) : State :=
  let s2 := if e.failOther then { s with safe := { s.safe with injectFail := true } } else s
  { s2 with pwr := { s2.pwr with phase := .running }, boot := { s2.boot with frameZero := true } }

/-- The device is SOLO or forms a pair by its straps. -/
def bootPaired (s : State) : State :=
  setPair (if s.boot.pos = 2 then .solo else .forming) { s with twin := { s.twin with primary := s.boot.pos ≠ 1 } }

/-- The warning that the count of Indigo was not valid, where it was not. -/
def countJudged (s : State) : State :=
  if flag s F.IND_STAT_TVALID then s else report { unit := 0x98, cls := 0x11, ev := 8, sev := .warning } s

/-- Steps 6 and 7 after the device runs. -/
def bootWarmed (e : BootEnv) (s : State) : State := bootStep 7 (countJudged (bootPaired (warmUp e.lidarFused s)))

theorem bootFinish_eq (e : BootEnv) (n : Tick) (s : State) : bootFinish e n s = bootWarmed e (bootRunning e (bootTested e n s)) := by
  unfold bootFinish bootWarmed countJudged bootPaired bootRunning bootTested
  dsimp only
  simp only [decide_eq_true_eq]

theorem bootWarmed_keeps {P : State → Prop} (C : Keeps [.indlog, .regs, .ing, .log, .queue, .bus, .pair] P) (h : P s) : P (bootWarmed e s) :=
  bootStep_keeps (C.mono (by decide)) (ite_keeps (setPair_keeps (C.mono (by decide)) (C.upd_pair (by decide) (warmUp_keeps (C.mono (by decide)) h)))
    (report_keeps (C.mono (by decide)) (setPair_keeps (C.mono (by decide)) (C.upd_pair (by decide) (warmUp_keeps (C.mono (by decide)) h)))))

theorem bootFinish_runs (e : BootEnv) (n : Tick) (t : State) : (bootFinish e n t).pwr.phase = .running := by
  rw [bootFinish_eq]
  have same : (bootWarmed e (bootRunning e (bootTested e n t))).pwr = (bootRunning e (bootTested e n t)).pwr := bootWarmed_keeps (shows_pwr (by decide)) rfl
  rw [same]
  rfl

/-- The start leaves the device running or halted with FAULT_N asserted. -/
theorem coldStart_phase (e : BootEnv) (reset : s.pwr.phase = .reset) : (coldStart e s).pwr.phase = .running ∨ BootHalted (coldStart e s) := by
  rw [coldStart_eq]
  split
  · rename_i halted
    rcases bootBegun_phase e reset with h | h
    · exact .inr h
    · rw [h] at halted
      cases halted
  · have ran := bootRun_goesOrHalts e (bootBegun e s)
    cases ends : bootRun e (bootBegun e s) with
    | inl t => exact .inr (ends ▸ ran : GoesOrHalts (.inl t))
    | inr t => exact .inl (bootFinish_runs ..)

theorem bootBegun_fuse : (bootBegun e s).fuse = s.fuse :=
  wakeTrip_keeps (shows_fuse (by decide)) (showStart_keeps (shows_fuse (by decide)) coldState_fuse)

/-- With both straps set and in SCRAPPED the device halts. -/
theorem coldStart_barred (bars : e.twinPos0 = true ∧ e.twinPos1 = true ∨ s.fuse.lc = 4) :
    (coldStart e s).pwr.phase = .halted := by
  rw [coldStart_eq]
  split
  · assumption
  · have ran := bootRun_goesOrHalts e (bootBegun e s)
    obtain ⟨t, halt⟩ := bootRun_barred (e := e) (s := bootBegun e s) (by rw [bootBegun_fuse]; exact bars)
    rw [halt] at ran ⊢
    exact ran.1

end

end Sys2Proof.Machine

end

section

set_option Elab.async false

/-! # The cold start (R442, R548 to R557, R595, R596) -/

namespace Sys2Proof.Machine

open Sys2Proof.Claims (StartsRunning ResetReleased)

section
variable {s t u v : State} {e : BootEnv} {src other : ImgSrc} {striped : Bool}

/-! ## Sections that are good -/

/-- Fuses, image and position by the straps stand as in s. -/
structure StartsAs (s t : State) : Prop where
  fuse : t.fuse = s.fuse
  image : t.image = s.image
  pos : t.boot.pos = s.boot.pos

theorem StartsAs.refl (s : State) : StartsAs s s := ⟨rfl, rfl, rfl⟩

theorem keeps_startsAs {W : List Part} (h : ∀ p ∈ W, p ∉ ([.fuse, .image, .boot, .cold] : List Part)) : Keeps W (StartsAs s) := by
  have fuse : Keeps W fun t => t.fuse = s.fuse := shows_fuse fun p hp m => h p hp (by revert m; cases p <;> decide)
  have image : Keeps W fun t => t.image = s.image := shows_image fun p hp m => h p hp (by revert m; cases p <;> decide)
  have boot (x : BootSt) : Keeps W fun t => t.boot = x := shows_boot fun p hp m => h p hp (by revert m; cases p <;> decide)
  have all := fuse.and (image.and (Keeps.of_shows boot fun b => b.pos = s.boot.pos))
  have same : StartsAs s = fun t => t.fuse = s.fuse ∧ t.image = s.image ∧ t.boot.pos = s.boot.pos :=
    funext fun t => propext ⟨fun ⟨a, b, c⟩ => ⟨a, b, c⟩, fun ⟨a, b, c⟩ => ⟨a, b, c⟩⟩
  rw [same]
  exact all

/-- A part of the start goes on in a state with the same fuses, image and position. -/
def GoesOn (s : State) (r : BootRun) : Prop := ∃ t, r = .inr t ∧ StartsAs s t

theorem bootSection_goesOn {r : BootRun} {x : ImgSection} (good : (goodSource striped src other x).isSome = true) (h : GoesOn s r) :
    GoesOn s (bootSection striped src other r x) := by
  obtain ⟨t, rfl, as⟩ := h
  show GoesOn s (if digestGood src x then .inr t else _)
  refine ite_holds (P := GoesOn s) ⟨t, rfl, as⟩ ?_
  have read : StartsAs s (if striped then t else setFlag F.WDN_BOOT_STAT_BACKUP true (reread x.index false t)) :=
    ite_keeps as (setFlag_keeps (keeps_startsAs (by decide)) (reread_keeps (keeps_startsAs (by decide)) as))
  split
  · exact ⟨_, rfl, read⟩
  · rename_i bad
    rw [bad] at good
    cases good

theorem modelOfSection_type {x : ImgSection} {m : ModelSec} (h : modelOfSection s x = some m) : x.stype = 7 := by
  unfold modelOfSection at h
  split at h
  · assumption
  · cases h

/-- The weights of the model that a section holds can be read. -/
abbrev ModelOpens (fu : FuseSt) (striped : Bool) (src other : ImgSrc) (x : ImgSection) : Prop :=
  ∀ y, x.stype = 7 → goodSource striped src other x = some y → ∃ w, unwrapModel fu x.encrypted (sectionBytes y x) = .inr w

theorem bootModel_goesOn {r : BootRun} {x : ImgSection} (opens : ModelOpens s.fuse striped src other x) (h : GoesOn s r) :
    GoesOn s (bootModel striped src other r x) := by
  obtain ⟨t, rfl, as⟩ := h
  show GoesOn s (match modelOfSection t x, goodSource striped src other x with
    | some m, some from_ => _
    | _, _ => .inr t)
  split
  · rename_i m y model source
    obtain ⟨w, weights⟩ := opens y (modelOfSection_type model) source
    have read : unwrapModel t.fuse x.encrypted (sectionBytes y x) = .inr w := by
      rw [as.fuse]
      exact weights
    rw [read]
    have loaded : StartsAs s { t with boot := { t.boot with loaded := t.boot.loaded ++ [m.model.val] } } := ⟨as.fuse, as.image, as.pos⟩
    exact ⟨_, rfl, writeBytes_keeps (keeps_startsAs (by decide)) loaded⟩
  · exact ⟨t, rfl, as⟩

theorem badChannels_none (all : e.hbmChannels = BitVec.allOnes 16) : badChannels e = [] := by
  refine List.filter_eq_nil_iff.mpr fun n hn => ?_
  rw [all, BitVec.getLsbD_allOnes]
  simpa using List.mem_range.mp hn

/-- With every section good the load goes on. -/
theorem bootLoad_goesOn {backup : Bool} (source : bootSource e s.fuse = some (src, other, backup)) (all : e.hbmChannels = BitVec.allOnes 16)
    (good : ∀ x ∈ sectionsOf src, (goodSource e.bootSel src other x).isSome = true)
    (opens : ∀ x ∈ sectionsOf src, ModelOpens s.fuse e.bootSel src other x) (prot : s.fuse.lc = 2 → s.image.prot.val = s.fuse.prot) :
    GoesOn s (bootLoad e s) := by
  unfold bootLoad
  rw [source]
  dsimp only
  have copied : GoesOn s (.inr (writeBytes false ((imageCopy e.bootSel src other).length + 1) s.image.copyAt (imageCopy e.bootSel src other) s)) :=
    ⟨_, rfl, writeBytes_keeps (keeps_startsAs (by decide)) (.refl s)⟩
  have sections := foldl_keeps_mem (P := GoesOn s) (f := bootSection e.bootSel src other) (sectionsOf src) _ (fun x hx _ h => bootSection_goesOn (good x hx) h) copied
  obtain ⟨t, eq, as⟩ := foldl_keeps_mem (P := GoesOn s) (f := bootModel e.bootSel src other) (sectionsOf src) _ (fun x hx _ h => bootModel_goesOn (opens x hx) h) sections
  rw [eq]
  show GoesOn s (if t.fuse.lc = 2 ∧ t.image.prot.val ≠ t.fuse.prot then _ else _)
  rw [if_neg (by rw [as.fuse, as.image]; exact fun h => h.2 (prot h.1)), badChannels_none all]
  refine ⟨_, rfl, bootStep_keeps (keeps_startsAs (by decide)) (setFld_keeps (keeps_startsAs (by decide)) ?_)⟩
  exact ite_keeps as (report_keeps (keeps_startsAs (by decide)) as)

/-- With valid straps and every channel trained steps 1 and 2 go on. -/
theorem bootPower_ready (apart : ¬(e.twinPos0 = true ∧ e.twinPos1 = true)) (all : e.hbmChannels = BitVec.allOnes 16) :
    bootPower e s = .inr (setFld F.MEM_HBM_STAT_CHAN_OK e.hbmChannels.toNat (bootStep 2 s)) := by
  unfold bootPower
  rw [if_neg (by rw [Bool.and_eq_true]; exact fun h => apart ⟨h.2, h.1⟩), badChannels_none all]
  rfl

theorem bootPower_goesOn (apart : ¬(e.twinPos0 = true ∧ e.twinPos1 = true)) (all : e.hbmChannels = BitVec.allOnes 16) : GoesOn s (bootPower e s) := by
  exact ⟨_, bootPower_ready apart all, setFld_keeps (keeps_startsAs (by decide)) (bootStep_keeps (keeps_startsAs (by decide)) (.refl s))⟩

theorem bootHeader_goesOn {backup : Bool} (source : bootSource e s.fuse = some (src, other, backup)) (lc : s.fuse.lc ≠ 4) : GoesOn s (bootHeader e s) := by
  unfold bootHeader
  rw [if_neg lc, source]
  cases backup with
  | false => exact ⟨_, rfl, bootStep_keeps (keeps_startsAs (by decide)) (.refl s)⟩
  | true =>
    exact ⟨_, rfl, bootStep_keeps (keeps_startsAs (by decide)) (setFlag_keeps (keeps_startsAs (by decide)) (report_keeps (keeps_startsAs (by decide)) (.refl s)))⟩

theorem StartsAs.trans (h : StartsAs s t) (g : StartsAs t u) : StartsAs s u := ⟨g.fuse.trans h.fuse, g.image.trans h.image, g.pos.trans h.pos⟩

theorem GoesOn.andThen {r : BootRun} {f : State → BootRun} (h : GoesOn s r) (g : ∀ t, StartsAs s t → GoesOn t (f t)) : GoesOn s (andThen r f) := by
  obtain ⟨t, rfl, as⟩ := h
  obtain ⟨u, eq, next⟩ := g t as
  exact ⟨u, eq, as.trans next⟩

theorem bootRun_goesOn {backup : Bool} (source : bootSource e s.fuse = some (src, other, backup)) (apart : ¬(e.twinPos0 = true ∧ e.twinPos1 = true))
    (lc : s.fuse.lc ≠ 4) (all : e.hbmChannels = BitVec.allOnes 16)
    (good : ∀ x ∈ sectionsOf src, (goodSource e.bootSel src other x).isSome = true)
    (opens : ∀ x ∈ sectionsOf src, ModelOpens s.fuse e.bootSel src other x) (prot : s.fuse.lc = 2 → s.image.prot.val = s.fuse.prot) :
    GoesOn s (bootRun e s) := by
  refine GoesOn.andThen (GoesOn.andThen (bootPower_goesOn apart all) fun t as => bootHeader_goesOn (by rw [as.fuse]; exact source) (by rw [as.fuse]; exact lc))
    fun t as => bootLoad_goesOn (by rw [as.fuse]; exact source) all good (by rw [as.fuse]; exact opens) (by rw [as.fuse, as.image]; exact prot)

/-! ## Steps 5 to 7 -/

/-- A list of units that leave service is out of service after it. -/
theorem foldl_takeOut (us : List Nat) : ∀ s : State, ∀ n ∈ us, n ∈ (us.foldl (fun s u => takeOut true u s) s).cnd.outOfService := by
  induction us with
  | nil => exact fun s n hn => nomatch hn
  | cons m us ih =>
    intro s n hn
    rcases List.mem_cons.mp hn with rfl | rest
    · exact (foldl_keeps (P := OutOfWork n) (fun _ _ h => takeOut_keeps_outOfWork h) us _ (takeOut_outOfWork true n s)).1
    · exact ih _ n rest

/-- The units that failed their start-up test. -/
def failedUnits (tiles : List TileId) (infs : List (Fin 8)) (lanes : List (Fin 4)) : List Nat :=
  tiles.map tileUnit ++ infs.map (fun c => 64 + c.val) ++ lanes.map (fun l => 72 + l.val)

theorem startTests_tests {tiles : List TileId} {infs : List (Fin 8)} {select : Bool} {lanes : List (Fin 4)} :
    let t := startTests tiles infs select lanes s
    (∀ x ∈ tiles, tileUnit x ∈ t.cnd.outOfService) ∧ (∀ c ∈ infs, 64 + c.val ∈ t.cnd.outOfService) ∧
      (∀ l ∈ lanes, 72 + l.val ∈ t.cnd.outOfService) ∧ t.sel.faulty = select := by
  intro t
  have cnd : t.cnd = ((failedUnits tiles infs lanes).foldl (fun s u => takeOut true u s) s).cnd := showInfService_keeps (shows_cnd (by decide)) rfl
  have sel : t.sel = { ((failedUnits tiles infs lanes).foldl (fun s u => takeOut true u s) s).sel with faulty := select } := showInfService_keeps (shows_sel (by decide)) rfl
  have out := foldl_takeOut (failedUnits tiles infs lanes) s
  rw [cnd, sel]
  exact ⟨fun x hx => out _ (List.mem_append_left _ (List.mem_append_left _ (List.mem_map_of_mem hx))),
    fun c hc => out _ (List.mem_append_left _ (List.mem_append_right _ (List.mem_map_of_mem hc))),
    fun l hl => out _ (List.mem_append_right _ (List.mem_map_of_mem hl)), rfl⟩

/-- Where the straps place the device. -/
def strapPos (e : BootEnv) : Nat := if e.twinPos1 then 1 else if e.twinPos0 then 0 else 2

theorem strapPos_solo : strapPos e = 2 ↔ e.twinPos0 = false ∧ e.twinPos1 = false := by
  unfold strapPos
  cases e.twinPos0 <;> cases e.twinPos1 <;> decide

theorem bootPaired_pair : (bootPaired t).twin.pair = if t.boot.pos = 2 then .solo else .forming := rfl

/-- What the last steps of a start, on a device placed by its straps, leave (R412, R551, R552). -/
structure Finishes (e : BootEnv) (t : State) : Prop where
  phase : t.pwr.phase = .running
  frameZero : t.boot.frameZero = true
  pair : t.twin.pair = if e.twinPos0 = false ∧ e.twinPos1 = false then .solo else .forming
  tiles : ∀ x ∈ e.failTiles, tileUnit x ∈ t.cnd.outOfService
  infs : ∀ c ∈ e.failInf, 64 + c.val ∈ t.cnd.outOfService
  lanes : ∀ l ∈ e.failLanes, 72 + l.val ∈ t.cnd.outOfService
  select : t.sel.faulty = e.failSelect

theorem bootRunning_only : (bootRunning e t).cnd = t.cnd ∧ (bootRunning e t).sel = t.sel ∧ (bootRunning e t).boot = { t.boot with frameZero := true } := by
  unfold bootRunning
  cases e.failOther with
  | true => exact ⟨rfl, rfl, rfl⟩
  | false => exact ⟨rfl, rfl, rfl⟩

theorem bootTested_boot {n : Tick} : (bootTested e n t).boot = t.boot :=
  startTests_keeps (shows_boot (by decide)) (bootStep_keeps (shows_boot (by decide)) (refreshResident_keeps (shows_boot (by decide))
    (startStreams_keeps (shows_boot (by decide)) (takeOwner_keeps (shows_boot (by decide)) rfl))))

theorem bootWarmed_pair : (bootWarmed e t).twin.pair = if t.boot.pos = 2 then .solo else .forming := by
  have boot : (warmUp e.lidarFused t).boot = t.boot := warmUp_keeps (shows_boot (by decide)) rfl
  have paired : (bootPaired (warmUp e.lidarFused t)).twin.pair = if t.boot.pos = 2 then .solo else .forming := by
    rw [bootPaired_pair, boot]
  have twin : (bootWarmed e t).twin = (bootPaired (warmUp e.lidarFused t)).twin :=
    bootStep_keeps (shows_twin (by decide)) (ite_keeps (P := fun u : State => u.twin = (bootPaired (warmUp e.lidarFused t)).twin) rfl report_twin)
  rw [twin, paired]

theorem bootFinish_finishes {n : Tick} (pos : t.boot.pos = strapPos e) : Finishes e (bootFinish e n t) := by
  obtain ⟨tiles, infs, lanes, select⟩ := startTests_tests (s := bootStep 5 (refreshResident (startStreams n (takeOwner t))))
    (tiles := e.failTiles) (infs := e.failInf) (select := e.failSelect) (lanes := e.failLanes)
  obtain ⟨cnd, sel, boot⟩ := bootRunning_only (e := e) (t := bootTested e n t)
  have place : (bootRunning e (bootTested e n t)).boot.pos = strapPos e := by
    rw [boot, bootTested_boot]
    exact pos
  have kept {P : State → Prop} (C : Keeps [.indlog, .regs, .ing, .log, .queue, .bus, .pair] P) (h : P (bootRunning e (bootTested e n t))) :
      P (bootFinish e n t) := by
    rw [bootFinish_eq]
    exact bootWarmed_keeps C h
  have cnd' : (bootFinish e n t).cnd = (bootTested e n t).cnd := kept (shows_cnd (by decide)) cnd
  have sel' : (bootFinish e n t).sel = (bootTested e n t).sel := kept (shows_sel (by decide)) sel
  have boot' : (bootFinish e n t).boot = _ := kept (shows_boot (by decide)) boot
  refine ⟨bootFinish_runs e n t, by rw [boot'], ?_, by rw [cnd']; exact tiles, by rw [cnd']; exact infs, by rw [cnd']; exact lanes, by rw [sel']; exact select⟩
  rw [bootFinish_eq, bootWarmed_pair, place]
  exact if_congr strapPos_solo rfl rfl

/-! ## The start with an image -/

theorem showStart_startsAs : StartsAs (coldState e s) (showStart e (coldState e s)) := showStart_keeps (keeps_startsAs (by decide)) (.refl _)

/-- Without a trip from sleep steps 1 to 4 begin in the state that shows the start. -/
theorem bootBegun_untripped (calm : s.ind.asleepDue = 0) : bootBegun e s = showStart e (coldState e s) := by
  have due : (showStart e (coldState e s)).ind.asleepDue = 0 := by
    rw [showStart_only.2.2.1, coldState_ind]
    exact calm
  unfold bootBegun wakeTrip
  rw [if_pos due]

theorem coldStart_untripped (reset : s.pwr.phase = .reset) (calm : s.ind.asleepDue = 0) :
    coldStart e s = bootEnded e (startCount s) (bootRun e (showStart e (coldState e s))) := by
  rw [coldStart_eq, bootBegun_untripped calm, if_neg]
  rw [showStart_only.1, coldState_phase, reset]
  decide

/-- A halt at step 3 without a valid image, of which Indigo's log tells. -/
theorem noImage_halts (powered : s.ind.powered = true) : ∃ r ∈ (bootHalt 3 0 false s).ind.log, r.cls = 0x10 ∧ r.ev = 0 ∧ r.severity = 4 := by
  have log : (bootHalt 3 0 false s).ind = (indigoLog (recordOf s { unit := 0x90, cls := 0x10, ev := 0, sev := .fatal, detail := 3 + 0 * 2 ^ 8 }) s).ind := rfl
  rw [log, indigoLog, if_pos powered]
  exact ⟨recordOf s { unit := 0x90, cls := 0x10, ev := 0, sev := .fatal, detail := 3 + 0 * 2 ^ 8 }, List.mem_cons_self, rfl, rfl, rfl⟩

theorem bootRun_noImage (none' : bootSource e s.fuse = none) (apart : ¬(e.twinPos0 = true ∧ e.twinPos1 = true)) (all : e.hbmChannels = BitVec.allOnes 16)
    (lc : s.fuse.lc ≠ 4) : ∃ t, bootRun e s = .inl (bootHalt 3 0 false t) ∧ t.ind = s.ind := by
  have ready := bootPower_ready (s := s) apart all
  have fuse : (setFld F.MEM_HBM_STAT_CHAN_OK e.hbmChannels.toNat (bootStep 2 s)).fuse = s.fuse := rfl
  refine ⟨_, ?_, (rfl : (setFld F.MEM_HBM_STAT_CHAN_OK e.hbmChannels.toNat (bootStep 2 s)).ind = s.ind)⟩
  unfold bootRun
  rw [ready]
  show andThen (bootHeader e _) (bootLoad e) = _
  unfold bootHeader
  rw [if_neg (by rw [fuse]; exact lc), fuse, none']
  rfl

theorem bootEnded_of_goesOn {r : BootRun} {n : Tick} (h : GoesOn s r) : ∃ t, bootEnded e n r = bootFinish e n t ∧ StartsAs s t := by
  obtain ⟨t, rfl, as⟩ := h
  exact ⟨t, rfl, as⟩

/-- What the start leaves of time, frame, pair, units and Select where it goes through (R104, R412, R432, R539, R551, R552). -/
theorem coldStart_runs {backup : Bool} (reset : s.pwr.phase = .reset) (calm : s.ind.asleepDue = 0)
    (source : bootSource e s.fuse = some (src, other, backup)) (apart : ¬(e.twinPos0 = true ∧ e.twinPos1 = true))
    (lc : s.fuse.lc ≠ 4) (all : e.hbmChannels = BitVec.allOnes 16)
    (good : ∀ x ∈ sectionsOf src, (goodSource e.bootSel src other x).isSome = true)
    (opens : ∀ x ∈ sectionsOf src, ModelOpens s.fuse e.bootSel src other x)
    (prot : s.fuse.lc = 2 → (builtImage e (src, other, backup)).prot.val = s.fuse.prot) : StartsRunning e s (coldStart e s) := by
  have safe : (coldStart e s).pwr.safeStop = true := afterCold_keeps (keeps_stop_of_cold (by decide)) coldState_safeStop
  have time : (coldStart e s).time = _ := afterCold_keeps (shows_time (by decide)) coldState_time
  have started : (coldStart e s).frame.started = false := afterCold_keeps (shows_started (by decide)) (by rw [coldState_frame]; rfl)
  have image : (coldState e s).image = builtImage e (src, other, backup) := by
    rw [coldState_image, source]
    rfl
  have begun := showStart_startsAs (e := e) (s := s)
  have goesOn : GoesOn (showStart e (coldState e s)) (bootRun e (showStart e (coldState e s))) := by
    refine bootRun_goesOn (backup := backup) ?_ apart ?_ all good ?_ ?_ <;> rw [begun.fuse, coldState_fuse]
    · exact source
    · exact lc
    · exact opens
    · rw [begun.image, image]
      exact prot
  obtain ⟨t, ended, as⟩ := bootEnded_of_goesOn (e := e) (n := startCount s) goesOn
  have pos : t.boot.pos = strapPos e := by
    rw [as.pos, begun.pos, coldState_boot]
    rfl
  have done : Finishes e (coldStart e s) := by
    rw [coldStart_untripped reset calm, ended]
    exact bootFinish_finishes pos
  exact ⟨done.phase, done.frameZero, started, safe, done.pair, congrArg TimeSt.count time, done.tiles, done.infs, done.lanes, done.select⟩

theorem resetReleased (reset : s.pwr.phase = .reset) (e : BootEnv) : ResetReleased e s (coldStart e s) := by
  have safe : (coldStart e s).pwr.safeStop = true := afterCold_keeps (keeps_stop_of_cold (by decide)) coldState_safeStop
  have pending : (coldStart e s).pending = s.pending := afterCold_keeps (shows_pending (by decide)) coldState_pending
  have image : (coldStart e s).image = _ := afterCold_keeps (shows_image (by decide)) coldState_image
  refine ⟨safe, coldStart_phase e reset, pending, coldStart_barred, fun calm lc apart all => ?_⟩
  cases source : bootSource e s.fuse with
  | none =>
    have fuse : (showStart e (coldState e s)).fuse = s.fuse := showStart_only.2.1.trans coldState_fuse
    have ind : (showStart e (coldState e s)).ind = { s.ind with wdogKick := startCount s } := showStart_only.2.2.1.trans coldState_ind
    obtain ⟨t, halts, before⟩ := bootRun_noImage (s := showStart e (coldState e s)) (by rw [fuse]; exact source) apart all (by rw [fuse]; exact lc)
    have eq : coldStart e s = bootHalt 3 0 false t := by
      rw [coldStart_untripped reset calm, halts]
      rfl
    rw [eq]
    exact ⟨rfl, fun powered => noImage_halts (by rw [before, ind]; exact powered)⟩
  | some x =>
    obtain ⟨src, other, backup⟩ := x
    rw [source] at image
    refine ⟨image, fun good opens prot => coldStart_runs reset calm source apart lc all good opens fun field => ?_⟩
    have same : (coldStart e s).image = builtImage e (src, other, backup) := image
    rw [← same]
    exact prot field

/-! ## Power-good -/

theorem exec_powerGood : exec .powerGood s = .next (if s.pwr.phase = .powerOn then
    { s with pwr := { s.pwr with phase := .reset, pwrgd := true, safeStop := true } } else s) := rfl

/-- PWR_EN is low, and the device waits for a wake edge. -/
def powerRefused (s : State) : State := { s with pwr := { s.pwr with phase := .asleep, pwrEn := false } }

/-- The warning of the want of power-good. -/
def wantEvent : Event := { unit := 0x98, cls := 0x11, ev := 7, sev := .warning, detail := 2 ^ 8 }

theorem exec_pwrgdTimeout : exec .pwrgdTimeout s = .next (if s.pwr.phase = .powerOn then reportIndigo wantEvent (powerRefused s) else s) := rfl

theorem exec_porRelease (e : BootEnv) : exec (.porRelease e) s = .next (if s.pwr.phase = .reset then coldStart e s else s) := rfl

theorem wantLogged (powered : s.ind.powered = true) :
    ∃ r ∈ (reportIndigo wantEvent (powerRefused s)).ind.log, r.unit = 0x98 ∧ r.cls = 0x11 ∧ r.ev = 7 ∧ r.severity = 1 := by
  have ind : (reportIndigo wantEvent (powerRefused s)).ind = (indigoLog (recordOf (powerRefused s) wantEvent) (powerRefused s)).ind := rfl
  rw [ind, indigoLog, if_pos (show (powerRefused s).ind.powered = true from powered)]
  exact ⟨recordOf (powerRefused s) wantEvent, List.mem_cons_self, rfl, rfl, rfl, rfl⟩

end

/-- Settles O58. -/
theorem coldStart_settled : Obligations.ColdStart := by
  unfold Obligations.ColdStart
  intro s inv
  refine ⟨fun on => ⟨⟨_, exec_powerGood, if_pos on⟩, _, exec_pwrgdTimeout, ?_⟩, fun off => ⟨?_, ?_⟩, fun reset e => ⟨_, exec_porRelease e, ?_⟩, fun other e => ?_⟩
  · rw [if_pos on]
    exact ⟨reportIndigo_keeps (P := fun t => t.pwr = _) (shows_pwr (by decide)) rfl, wantLogged⟩
  · rw [exec_powerGood, if_neg off]
  · rw [exec_pwrgdTimeout, if_neg off]
  · rw [if_pos reset]
    exact resetReleased reset e
  · rw [exec_porRelease, if_neg other]

end Sys2Proof.Machine

end
